-- ==== Sys2Proof/Word.lean ====
section
/-!
DEFINITION. Words, bytes, the block codes of Table SCOPE-4, the principals of Table SYS-6, the error severities of R473
and the commands' operand types that are plain names.
-/

namespace Sys2Proof

/-- A register word (R33). -/
abbrev Word := BitVec 32

/-- A byte of memory. -/
abbrev Byte := BitVec 8

/-- The blocks of Table SCOPE-4 (R7). -/
inductive Block where
  | sys | clk | pmc | erm | ret | tim | hts | ptd | ce | xng | rsq | csc | mot | ilp | saf | fio | lne | ave | acq | hrc
  | evr | can | hif | mem | cpu
deriving DecidableEq, Repr, Inhabited

/-- The principals of Table SYS-6 (R47). A write by an application core names the core, which takes the access fault of R46. -/
inductive Principal where
  | host | app (core : Fin 8) | safe | dbg | rom
deriving DecidableEq, Repr, Inhabited

/-- Who awaits a reply (R46): a hardware block, an application core or a host access through a BAR at an offset. -/
inductive Requester where
  | block (b : Block) | core (c : Fin 8) | host (bar off : Nat)
deriving DecidableEq, Repr, Inhabited

/-- The severities of R473. -/
inductive Severity where
  | info | warn | alarm | fault | fatal
deriving DecidableEq, Repr, Inhabited

/-- The access codes of Table SYS-1 (R34). -/
inductive Access where
  | ro | rw | rwc | rwl | w1c | w1s | wo
deriving DecidableEq, Repr, Inhabited

end Sys2Proof
end

