-- ==== Sys2Proof/Machine/Operands.lean ====
section
/-!
DEFINITION. The types of the commands' operands that are more than a number, a word or a name of `Word.lean`.
-/

namespace Sys2Proof.Machine

/-- The loop modes of Table CE-3. -/
inductive LMode where
  | off | manual | auto | cascade | safe
deriving DecidableEq, Repr, Inhabited

/-- What a drive returns (R235): its number, position in units and a fault. -/
structure DriveStat where
  drive : Nat
  pos : Int
  fault : Bool
deriving DecidableEq, Repr, Inhabited

/-- The header of a received Valnath frame (Table AVE-2) and whether its CRC is good. -/
structure AHdr where
  dst : Nat
  src : Nat
  hops : Nat
  tag : Nat
  crc : Bool
deriving DecidableEq, Repr, Inhabited

/-- A record of a PT_A or PT_B frame: the publisher's local index, quality and value (Table AVE-3). -/
structure PtRec where
  idx : Nat
  q : Byte
  value : Word
deriving DecidableEq, Repr, Inhabited

/-- A CTRL grant message (R338, R341, R386): a request for a recording grant of a device, the answer to it, the confirmation or refusal of
a subscription or of a class A flow with the error code (0 confirmed), or a returned history credit. -/
inductive Grant where
  | recReq (dev mbps : Nat)
  | recAns (mbps : Nat) (ok : Bool)
  | sub (gid code : Nat)
  | flow (dst code : Nat)
  | credit (seq : Nat)
deriving DecidableEq, Repr, Inhabited

/-- A DMA descriptor as HIF reads it from host memory (Table HIF-2): D0/D1, D2/D3, D4, D5 and D7. -/
structure HDesc where
  hostAddr : Nat
  devAddr : Nat
  d4 : Word
  d5 : Word
  d7 : Word
deriving DecidableEq, Repr, Inhabited

/-- What happens to one lane in an evaluation (R139, R142, R144, R154): an uncorrectable error in its state, corrected errors, no data in its
slot, an uncorrectable error in its copy of the loop's descriptor or of a
compensation table, an error in its program or data path that changes the bits of `mask` in the word it delivers for comparison, or a change of
its frame signature. -/
inductive LaneFault where
  | ue | descUe | tabUe (t : Fin 16) | ecc (n : Nat) | missing | flip (mask : Nat) | sig (mask : Nat)
deriving DecidableEq, Repr, Inhabited

/-- What the ECC finds in an entry that is read (R19, R68): nothing, an error that it corrects, or one that it cannot correct. -/
inductive EccRead where
  | clean | corrected | uncorrectable
deriving DecidableEq, Repr, Inhabited

/-- The errors of an evaluation instant of the recipe sequencer (R156, R173): the streams in whose window, current step or action records an
uncorrectable error is met, and the stream at whose vote the two voter copies differ. -/
structure StreamErrs where
  ues : List (Fin 64) := []
  voter : Option (Fin 64) := none
deriving DecidableEq, Repr, Inhabited

/-- The frame toward the field die (R289): whether it arrives with a good CRC, and in `badWords` which class A words that follow it, the first in
bit 0, fail theirs. -/
structure DownFrame where
  ok : Bool
  badWords : Nat := 0
deriving DecidableEq, Repr, Inhabited

/-- A change of a filtered level (R290, R294): the new level, and whether a class A word that carries it arrives with a good CRC (R289). -/
structure LevelWord where
  high : Bool
  ok : Bool := true
deriving DecidableEq, Repr, Inhabited

/-- When a PWM period starts, in RT ticks, and the axis whose state the period finds in an uncorrectable error, if any (R223, R237). -/
structure PwmStart where
  tick : Nat
  ue : Option (Fin 128) := none
deriving DecidableEq, Repr, Inhabited

/-- How a self-test of the safety processor ends: passed, and its stored parameter set intact (R283, R284). -/
structure SelfTest where
  ok : Bool
  paramOk : Bool := true
deriving DecidableEq, Repr, Inhabited

/-- What a register write addresses: a byte address of the device's map, or the CSR XFA_WDT_CFG of an application core (Table CPU-2). -/
inductive RegTarget where
  | addr (a : Nat)
  | wdtCfg (c : Fin 8)
deriving DecidableEq, Repr, Inhabited

end Sys2Proof.Machine
end

