-- ==== Sys2Proof/Syntax.lean ====
section
/-!
DEFINITION. The commands of the FA640: one constructor per row of the command table, with what the outside supplies as its operands (the
writer of a register, the bank or slot its address selects, the value written, a received frame, a reading, a time).
-/

namespace Sys2Proof
open Machine

set_option linter.all false

/-- The commands (Table of spec/opcode_table.json), in the table's order. -/
inductive Instr where
  /-- REGISTER_WRITE (R41): A write to a register field that has no row of its own takes effect as its access code and owning chapter state. -/
  | registerWrite (tgt : RegTarget) (p : Principal) (size : Fin 9) (v : BitVec 64)
  /-- BLOCK_ENABLE (R36): A write of BLK_CTRL.EN enables a block, or stops and disables it unless the block refuses. -/
  | blockEnable (b : Block) (p : Principal) (en : Bool)
  /-- BLOCK_RUN (R36): A write of BLK_CTRL.RUN starts a block's function, or stops it at its next natural boundary unless the block refuses. -/
  | blockRun (b : Block) (p : Principal) (run : Bool)
  /-- SOFT_RST (R36): BLK_CTRL.SOFT_RST resets one block through the fence, discarding any pending commit and returning shadows and active values to reset. -/
  | softRst (b : Block) (p : Principal)
  /-- FREEZE (R35): A write of BLK_CTRL.FREEZE holds or releases a block's status and counters, or for EVR stops or resumes record acceptance. -/
  | freeze (b : Block) (p : Principal) (fz : Bool)
  /-- IRQ_CLEAR (R34): Writing 1 to bits of BLK_IRQ_RAW clears those raw interrupt causes. -/
  | irqClear (b : Block) (p : Principal) (m : Word)
  /-- BLK_ERR_CLEAR (R35): Writing 1 to BLK_ERR.OVF clears OVF, COUNT and CODE. -/
  | blkErrClear (b : Block) (p : Principal)
  /-- COMMIT (R37): BLK_COMMIT.COMMIT sets COMMIT_PENDING and requests application of all RWC shadows. -/
  | commit (b : Block) (p : Principal)
  /-- DISCARD (R39): BLK_COMMIT.DISCARD reloads the shadows from the active values and cancels a pending commit before its boundary. -/
  | discard (b : Block) (p : Principal)
  /-- COMMIT_APPLY (R37): At the block's next natural boundary the pending shadows are checked and applied together or refused, and COMMIT_DONE is raised. -/
  | commitApply (b : Block)
  /-- LOCK (R42): BLK_LOCK.LOCK locks the block's RW, RWC and RWL fields until a full device reset. -/
  | lock (b : Block) (p : Principal)
  /-- FENCE_DRAIN_END (R45): Accepted requests to a fenced block complete or time out within 640 ns and replies in flight are discarded with REPLY_LOST. -/
  | fenceDrainEnd (b : Block) (lost : List Requester)
  /-- DC_STAGE (R52): SYS_DC_CTRL.STAGE checks a dual-commit request and starts copying its payload, or refuses it. -/
  | dcStage (p : Principal) (v : Word)
  /-- DC_CANCEL (R52): SYS_DC_CTRL.CANCEL ends a copying or staged dual commit with CANCELLED. -/
  | dcCancel (p : Principal) (target : Fin 8)
  /-- DC_COPY_DONE (R52): SYS finishes copying the payload, checks it, draws a nonce, computes the digest and starts the 60 s stage timer. -/
  | dcCopyDone
  /-- DC_SUBMIT (R52): SYS_DC_SUBMIT submits a party's tag for verification. -/
  | dcSubmit (p : Principal)
  /-- DC_TAG_VERIFY (R52): SYS completes verification of a submitted tag and reports TAG_OK, APPLIED, BAD_TAG, DUP_PARTY or NO_STAGE. -/
  | dcTagVerify
  /-- DC_STAGE_EXPIRED (R53): The 60 s stage timer expires with fewer than two verified tags and the stage is cleared with EXPIRED. -/
  | dcStageExpired
  /-- DC_KEY_WRITE (R54): A write to SYS_DC_KEY_n stores a key word in COMMISSIONING or is discarded with ENROLL_LOCKED. -/
  | dcKeyWrite (p : Principal) (n : Fin 8) (v : Word)
  /-- DC_ENROLL (R54): SYS_DC_ENROLL GO stores the key of a slot, or is refused with ENROLL_LOCKED or SLOT_ENROLLED. -/
  | dcEnroll (p : Principal) (slot : Fin 4) (go : Bool)
  /-- DENY_LOG_CLEAR (R55): Writing 1 to SYS_DENY_LOG.VALID empties the denied-write log. -/
  | denyLogClear (p : Principal)
  /-- PTD_ENT_GO (R58): A write to PTD_ENT_GO starts the commit of one directory entry and sets PEND. -/
  | ptdEntGo (p : Principal) (idx : Fin 524288)
  /-- PTD_ENT_CHECK_DONE (R58): PTD completes the check of a directory entry and copies it into the active image or refuses it. -/
  | ptdEntCheckDone
  /-- HIST_GRANT_TIMEOUT (R58): A fabric recording grant not decided within 10 ms makes PTD refuse the entry commit with HIST_FABRIC. -/
  | histGrantTimeout
  /-- HOT_ENTRY_WRITE (R65): An application or host 64-bit write to a hot or cold entry is stored with a PTD time stamp or refused. -/
  | hotEntryWrite (p : Principal) (cold : Bool) (i : Fin 524288) (whole : Bool) (v : Word) (q : Byte)
  /-- STALE_TIMEOUT (R67): STALE_N frames of a framed source pass without an update of the point and PTD sets STALE. -/
  | staleTimeout (idx : Nat)
  /-- FORCE (R69): PTD_FORCE_CMD.FORCE forces a hot-bound point to PTD_FORCE_VAL, or is refused. -/
  | force (p : Principal)
  /-- RELEASE (R69): PTD_FORCE_CMD.RELEASE ends a force and restores the source's shadow value. -/
  | release (p : Principal)
  /-- RELEASE_ALL (R69): PTD_FORCE_CMD.RELEASE_ALL ends every force and simulation of the device. -/
  | releaseAll (p : Principal)
  /-- SIM_ON (R70): PTD_FORCE_CMD.SIM_ON puts a point under simulation so that permitted principals write its value. -/
  | simOn (p : Principal)
  /-- SIM_OFF (R70): PTD_FORCE_CMD.SIM_OFF ends a simulation and restores the shadow value. -/
  | simOff (p : Principal)
  /-- PTD_UE_LOG_CLEAR (R77): Writing 1 to PTD_UE_LOG.VALID clears the uncorrectable-error log. -/
  | ptdUeLogClear (p : Principal)
  /-- BASE_FRAME_BOUNDARY (R11): Every 1 µs of network time a base-frame boundary falls, at which boundary-aligned applications, snapshots and lane transitions take place. -/
  | baseFrameBoundary
  /-- RATE_SCHEDULE_ACQUISITION (R13): The rate schedule starts the acquisition of a class A loop's feedback sample at its placed tick. -/
  | rateScheduleAcquisition (n : Fin 1024)
  /-- LOOP_EVALUATION (R93): A loop evaluation runs its checks, law, limits and state update in three lanes, starting after its feedback write. -/
  | loopEvaluation (n : Fin 1024) (faults : List (Fin 3 × LaneFault)) (eccs : List (Fin 65536 × EccRead)) (dlyUe : Bool) (voter : Bool)
  /-- CE_LOOP_GO (R106): A write to CE_LOOP_GO starts the commit of one loop descriptor. -/
  | ceLoopGo (p : Principal) (n : Fin 1024)
  /-- LOOP_COMMIT_DONE (R106): CE completes the check and admission of a loop descriptor and copies it to the lanes or refuses it. -/
  | loopCommitDone
  /-- LOOP_CMD_OFF (R102): A mode command OFF for a loop is checked and applied at its next evaluation. -/
  | loopCmdOff (p : Principal) (n : Fin 1024)
  /-- LOOP_CMD_MANUAL (R102): A mode command MANUAL for a loop is checked and applied at its next evaluation. -/
  | loopCmdManual (p : Principal) (n : Fin 1024)
  /-- LOOP_CMD_AUTO (R102): A mode command AUTO for a loop is checked and applied at its next evaluation. -/
  | loopCmdAuto (p : Principal) (n : Fin 1024)
  /-- LOOP_CMD_CASCADE (R102): A mode command CASCADE for a loop is checked and applied at its next evaluation. -/
  | loopCmdCascade (p : Principal) (n : Fin 1024)
  /-- LOOP_CMD_SAFE (R102): A mode command SAFE for a loop is checked and applied at its next evaluation. -/
  | loopCmdSafe (p : Principal) (n : Fin 1024)
  /-- LOOP_CMD_KEEP (R101): A mode command KEEP changes no mode and only takes a manual value if one is set. -/
  | loopCmdKeep (p : Principal) (n : Fin 1024)
  /-- LOOP_SET_MAN (R102): CE_MODE_CMD.SET_MAN sets the loop's manual target from the command. -/
  | loopSetMan (p : Principal) (n : Fin 1024) (m : Option LMode) (man : BitVec 16)
  /-- CE_EVT_CLEAR (R111): Writing 1 to CE_EVT_n bits clears loop event bits. -/
  | ceEvtClear (p : Principal) (i : Fin 32) (m : Word)
  /-- SUP_ACK (R122): CE_SUP_CMD.ACK clears a loop's supervision latch at its next evaluation. -/
  | supAck (p : Principal) (n : Fin 1024) (align : Bool)
  /-- SUP_ALIGN (R118): CE_SUP_CMD.ALIGN aligns a loop's plausibility model to its measurement. -/
  | supAlign (p : Principal) (n : Fin 1024)
  /-- CE_RAMP_CMD (R131): CE_RAMP_CMD requests a set-point ramp for a loop in AUTO, or is refused with RAMP_REFUSED. -/
  | ceRampCmd (p : Principal) (n : Fin 1024) (rate : BitVec 16)
  /-- CE_TRIP_CLEAR (R134): Writing 1 to CE_TRIP_n bits clears loop trip bits. -/
  | ceTripClear (p : Principal) (i : Fin 32) (m : Word)
  /-- CE_TAB_GO (R128): A write to CE_TAB_GO starts the commit of a compensation table. -/
  | ceTabGo (p : Principal) (t : Fin 16)
  /-- TAB_COPY_DONE (R128): CE completes checking a table and copying it into each lane's standby bank, or refuses it. -/
  | tabCopyDone
  /-- ROLLING_TEST_DUE (R150): The rolling test timer reaches XNG_TEST_PERIOD and a lane test falls due. -/
  | rollingTestDue
  /-- LANE_BIST_END (R151): A lane's BIST ends with pass or fail and the lane goes to VOTING, COPY, HALTED or FAILED. -/
  | laneBistEnd (l : Fin 3) (result : Fin 3)
  /-- LANE_STATE_COPY_DONE (R152): The configuration check and 128 KiB state copy to a rejoining lane complete. -/
  | laneStateCopyDone (l : Fin 3) (collide : Bool) (t10 : Nat)
  /-- FLT_DECAY_EXPIRY (R148): After FLT_DECAY seconds in VOTING a lane's fault counter is decremented. -/
  | fltDecayExpiry (l : Fin 3)
  /-- XNG_TEST (R149): XNG_LANE_CMD.TEST sends a voting lane to BIST with cause DEMAND, or is refused. -/
  | xngTest (p : Principal) (l : Fin 3)
  /-- XNG_RETRY (R149): XNG_LANE_CMD.RETRY sends a FAILED lane to BIST with cause RETRY. -/
  | xngRetry (p : Principal) (l : Fin 3)
  /-- XNG_RESTART (R154): XNG_LANE_CMD.RESTART returns HALTED lanes to VOTING with loops in SAFE, or is refused. -/
  | xngRestart (p : Principal) (collide : Bool)
  /-- XNG_DIS_LOG_CLEAR (R157): Writing 1 to XNG_DIS_LOG.VALID clears the disagreement log. -/
  | xngDisLogClear (p : Principal)
  /-- RSQ_STEP_GO (R162): A write to RSQ_STEP_GO starts the commit of one step entry. -/
  | rsqStepGo (p : Principal) (n : Fin 64) (step : BitVec 16)
  /-- STEP_COMMIT_DONE (R162): RSQ completes the check and copy of a step entry and its action records, or refuses it. -/
  | stepCommitDone
  /-- STREAM_EVALUATION (R166): Every 100 µs each executing stream evaluates its conditions and may reach a decision. -/
  | streamEvaluation (faults : List (Fin 64 × Fin 3 × LaneFault)) (errs : StreamErrs)
  /-- STEP_TICK (R169): At every 1 ms step tick elapsed times advance and held decisions, starts and resumes are performed. -/
  | stepTick (faults : List (Fin 64 × Fin 3 × LaneFault)) (errs : StreamErrs)
  /-- STEP_PREFETCH_DONE (R171): RSQ completes prefetching the current step's branch targets and action records. -/
  | stepPrefetchDone (n : Fin 64)
  /-- STREAM_START (R172): RSQ_CMD START starts a stream at a given step at the next tick. -/
  | streamStart (p : Principal) (n : Fin 64) (step : BitVec 16)
  /-- STREAM_HOLD (R172): RSQ_CMD HOLD holds a stream at its next evaluation. -/
  | streamHold (p : Principal) (n : Fin 64)
  /-- STREAM_RESUME (R172): RSQ_CMD RESUME leaves HOLD or withdraws a pause. -/
  | streamResume (p : Principal) (n : Fin 64)
  /-- STREAM_PAUSE (R172): RSQ_CMD PAUSE makes a running stream hold at its next step change. -/
  | streamPause (p : Principal) (n : Fin 64)
  /-- STREAM_ABORT (R172): RSQ_CMD ABORT performs the abort list at the next tick and stops the stream. -/
  | streamAbort (p : Principal) (n : Fin 64)
  /-- STREAM_PARK (R172): RSQ_CMD PARK enters the stream's PARK_STEP. -/
  | streamPark (p : Principal) (n : Fin 64)
  /-- STREAM_RESET (R172): RSQ_CMD RESET returns a finished stream to IDLE. -/
  | streamReset (p : Principal) (n : Fin 64)
  /-- STREAM_RECHECK (R179): RSQ_CMD RECHECK runs the resume check of one pending stream at the next tick. -/
  | streamRecheck (p : Principal) (n : Fin 64)
  /-- STREAM_DISCARD (R172): RSQ_CMD DISCARD drops a pending resume and writes an IDLE checkpoint. -/
  | streamDiscard (p : Principal) (n : Fin 64)
  /-- RSQ_RESUME_GO (R179): RSQ_RESUME_GO starts the resume check of every stream in RESUME_PENDING at the next tick. -/
  | rsqResumeGo (p : Principal)
  /-- RESUME_WAIT_EXPIRY (R180): Resume-critical points not usable within RESUME_WAIT end the check with POINT_BAD. -/
  | resumeWaitExpiry (n : Fin 64)
  /-- STFLAG_SET (R166): A write to a stream's STFLAG sets task-flag bits read by TFLAG conditions. -/
  | stflagSet (p : Principal) (n : Fin 64) (m : Word)
  /-- STREAM_WINDOW_WRITE (R182): A write to a stream window field takes effect, or is discarded with CFG_LOCKED or CKPT_LOADING. -/
  | streamWindowWrite (p : Principal) (n : Fin 64) (off : Fin 1024) (v : Word)
  /-- RSQ_EVT_CLEAR (R183): Writing 1 to RSQ_EVT bits clears stream event bits. -/
  | rsqEvtClear (p : Principal) (i : Fin 2) (m : Word)
  /-- RSQ_ALM_CLEAR (R183): Writing 1 to RSQ_ALM bits clears stream alarm bits. -/
  | rsqAlmClear (p : Principal) (i : Fin 2) (m : Word)
  /-- CSC_ACT_GO (R190): A write to CSC_ACT_GO starts the commit of a run of action entries. -/
  | cscActGo (p : Principal) (first : Fin 65536) (count : Fin 256)
  /-- ACT_COMMIT_DONE (R190): CSC completes checking a run of entries and accepts or refuses it as a whole. -/
  | actCommitDone
  /-- CSC_ARM (R195): CSC_ARM_CMD ARM arms a group of action entries from the next base-frame boundary. -/
  | cscArm (p : Principal) (g : Fin 256) (t : Nat)
  /-- CSC_ARM_REL (R195): CSC_ARM_CMD ARM_REL arms a group with TIME entries relative to a base instant. -/
  | cscArmRel (p : Principal) (g : Fin 256) (t : Nat)
  /-- CSC_CANCEL (R205): CSC_ARM_CMD CANCEL cancels a group's armed and sent entries and advances remote epochs. -/
  | cscCancel (p : Principal) (g : Fin 256) (t : Nat)
  /-- ENCODER_EDGE (R228): A quadrature or index edge updates an encoder's counter and time stamps. -/
  | encoderEdge (n : Fin 16) (a : Bool) (b : Bool) (i : Bool) (held : Nat) (t : Nat)
  /-- COORD_EDGE_TIMEOUT (R186): No edge within twice the last edge interval makes a coordinate's velocity decay toward zero. -/
  | coordEdgeTimeout (c : Fin 32)
  /-- ZC_EDGE (R187): A rising edge on ZC_0 or ZC_1 corrects the mains phase-locked loop or is ignored. -/
  | zcEdge (i : Fin 2) (t : Nat)
  /-- PHASE_LOCK_LOSS (R187): Two predicted mains edges pass without an accepted edge and the PHASE coordinate loses lock. -/
  | phaseLockLoss (c : Fin 32) (t : Nat)
  /-- COORD_CROSSING (R197): A tracked coordinate crosses an armed entry's fire position. -/
  | coordCrossing (n : Fin 65536) (t : Nat) (ue : Bool)
  /-- REMOTE_ARM_SEND (R203): A REMOTE entry whose fire instant enters the run-ahead is sent as a class A arm record. -/
  | remoteArmSend (n : Fin 65536) (t : Nat)
  /-- CANCEL_UNCONFIRMED (R205): A station that has not confirmed an epoch within two windows after t_eff is recorded CANCEL_UNCONFIRMED. -/
  | cancelUnconfirmed (port : Fin 8) (sta : Fin 128) (slot : Fin 16)
  /-- CSC_EVT_CLEAR (R207): Writing 1 to CSC_EVT bits clears group event bits. -/
  | cscEvtClear (p : Principal) (i : Fin 8) (m : Word)
  /-- PROFILE_PERIOD (R211): Every 20 µs MOT computes every axis's profile, applies commands and runs its periodic checks. -/
  | profilePeriod
  /-- PWM_PERIOD (R223): A drive channel starts a PWM period, loading compare values and reading the bus voltage. -/
  | pwmPeriod (d : Fin 16) (t : PwmStart)
  /-- HOLD_DELAY_EXPIRY (R227): HOLD_DLY after entry to STANDSTILL the axis takes its standstill mode. -/
  | holdDelayExpiry (n : Fin 128)
  /-- LATCH_EDGE (R230): A qualifying edge on an armed axis's latch source captures count, position and time. -/
  | latchEdge (k : Fin 8) (rising : Bool) (held : Nat) (t : Nat)
  /-- AXIS_ENABLE (R236): MOT_CMD ENABLE energises or connects an axis. -/
  | axisEnable (p : Principal) (n : Fin 128)
  /-- AXIS_DISABLE (R236): MOT_CMD DISABLE turns the phases off at once and the axis coasts. -/
  | axisDisable (p : Principal) (n : Fin 128)
  /-- MOVE_ABS (R236): MOT_CMD MOVE_ABS moves an axis to an absolute target. -/
  | moveAbs (p : Principal) (n : Fin 128)
  /-- MOVE_REL (R236): MOT_CMD MOVE_REL moves an axis by a distance. -/
  | moveRel (p : Principal) (n : Fin 128)
  /-- MOVE_VEL (R236): MOT_CMD MOVE_VEL ramps an axis to a speed target. -/
  | moveVel (p : Principal) (n : Fin 128)
  /-- AXIS_STOP (R236): MOT_CMD STOP decelerates an axis at DEC. -/
  | axisStop (p : Principal) (n : Fin 128)
  /-- AXIS_QSTOP (R236): MOT_CMD QSTOP decelerates an axis at QDEC. -/
  | axisQstop (p : Principal) (n : Fin 128)
  /-- AXIS_HOME (R231): MOT_CMD HOME starts the axis's homing sequence. -/
  | axisHome (p : Principal) (n : Fin 128)
  /-- AXIS_FOLLOW (R217): MOT_CMD FOLLOW makes an axis follow its command point. -/
  | axisFollow (p : Principal) (n : Fin 128)
  /-- AXIS_GMOVE (R233): MOT_CMD GMOVE moves an interpolation group to its targets. -/
  | axisGmove (p : Principal) (n : Fin 128) (g : Fin 16)
  /-- RESET_FAULT (R236): MOT_CMD RESET_FAULT takes an axis from FAULT to DISABLED when its cause is gone. -/
  | resetFault (p : Principal) (n : Fin 128)
  /-- LATCH_ARM (R230): MOT_CMD LATCH_ARM arms one capture of the axis's latch unit. -/
  | latchArm (p : Principal) (n : Fin 128)
  /-- MOT_AXIS_GO (R239): A write to MOT_AXIS_GO starts the commit of one axis descriptor. -/
  | motAxisGo (p : Principal) (n : Fin 128)
  /-- AXIS_COMMIT_DONE (R239): MOT completes the check of an axis descriptor, which applies at the next profile boundary or is refused. -/
  | axisCommitDone
  /-- MOT_GRP_GO (R240): A write to MOT_GRP_GO starts the commit of one group descriptor. -/
  | motGrpGo (p : Principal) (g : Fin 16)
  /-- GRP_COMMIT_DONE (R240): MOT completes the check of a group descriptor and applies or refuses it. -/
  | grpCommitDone
  /-- ENC_CNT_READ (R241): A read of MOT_ENC_CNT LO returns the low word and latches the high word. -/
  | encCntRead (n : Fin 16)
  /-- MOT_ENC_ERR_CLEAR (R241): Writing 1 to MOT_ENC_ERR bits clears encoder error bits. -/
  | motEncErrClear (p : Principal) (m : Word)
  /-- MOT_EVT_CLEAR (R241): Writing 1 to MOT_EVT or MOT_GEVT bits clears axis or group event bits. -/
  | motEvtClear (p : Principal) (i : Option (Fin 4)) (m : Word)
  /-- MOT_LAT_CLEAR (R241): Writing 1 to MOT_LAT_STAT.CAPTURED clears the capture flag. -/
  | motLatClear (p : Principal)
  /-- ILP_SCAN_BOUNDARY (R251): At each scan boundary the ILP runs snapshot, execution, write-out and housekeeping, or writes its hold or stop values. -/
  | ilpScanBoundary (dur : Nat) (ue : Bool)
  /-- ILP_RUN (R255): ILP_MODE_CMD RUN starts scanning at the next boundary. -/
  | ilpRun (p : Principal)
  /-- ILP_STOP (R255): ILP_MODE_CMD STOP stops the ILP and writes stop values. -/
  | ilpStop (p : Principal)
  /-- ILP_HOLD (R255): ILP_MODE_CMD HOLD halts execution if the safety parameters permit. -/
  | ilpHold (p : Principal)
  /-- ILP_STEP (R255): ILP_MODE_CMD STEP executes one instruction in HOLD. -/
  | ilpStep (p : Principal) (dur : Nat)
  /-- ILP_CONTINUE (R255): ILP_MODE_CMD CONTINUE resumes execution from HOLD. -/
  | ilpContinue (p : Principal) (dur : Nat)
  /-- ILP_LOAD (R263): ILP_LOAD.GO starts loading a Prosa image in STOP. -/
  | ilpLoad (p : Principal)
  /-- ILP_LOAD_DONE (R263): The ILP finishes checking and copying an image and applies or refuses it. -/
  | ilpLoadDone
  /-- ILP_CHG_GO (R265): ILP_CHG_GO queues an on-line change of a constant, preset, word or marker. -/
  | ilpChgGo (p : Principal)
  /-- SAFETY_INPUT_EDGE (R274): A safety input channel changes level and its filter and discrepancy timer start. -/
  | safetyInputEdge (n : Fin 4) (b : Bool) (level : Bool)
  /-- SAFE_FILTER_EXPIRY (R274): A safety channel's change outlasts FILT and becomes its filtered level, possibly putting the pair in demand. -/
  | safeFilterExpiry (ch : Fin 2) (n : Fin 4) (b : Bool) (openUs : Nat) (rbUs : Nat)
  /-- DISCREPANCY_EXPIRY (R275): The channels of a pair still disagree when DISC expires and the pair latches DISCREPANCY. -/
  | discrepancyExpiry (n : Fin 4)
  /-- TEST_PULSE (R273): A test-pulse source pulses low for 300 µs and the TP-sourced channels are checked against it. -/
  | testPulse (srcB : Bool) (low : Nat)
  /-- SAFE_RST_FALL (R276): A falling edge on SAFE_RST ends a reset pulse, accepted if both channels agree. -/
  | safeRstFall (lenH : Nat) (lenP : Nat) (skew : Nat) (dem : Nat) (still : List (Nat × Nat))
  /-- STUCK_RESET (R276): SAFE_RST held high beyond 3 s latches STUCK_RESET. -/
  | stuckReset
  /-- SAFETY_HEARTBEAT (R269): Each island channel toggles its heartbeat and the hard-wired channel sends its status frame every 50 µs. -/
  | safetyHeartbeat (hw : Bool) (proc : Bool)
  /-- CH_LOST (R269): A partner heartbeat missing or out of tolerance for 1 ms opens every output and latches CH_LOST. -/
  | chLost (lost : Fin 2)
  /-- SAF_OVERTEMP (R271): A channel above 125 °C opens its switch of every output and latches OVERTEMP. -/
  | safOvertemp (ch : Fin 2)
  /-- SAF_CPU_FAULT (R271): A lockstep mismatch, SRAM error, self-test failure or watchdog opens the processor channel's switches and latches CPU. -/
  | safCpuFault
  /-- EDM_TIMEOUT (R278): The EDM pair fails to follow within EDM_TIME and EDM is latched. -/
  | edmTimeout (m : Fin 4)
  /-- CH_MISMATCH (R278): The partner channel is not ON for 20 ms and the output latches CH_MISMATCH. -/
  | chMismatch (m : Fin 4) (ch : Fin 2)
  /-- OFF_PULSE_TEST (R279): Every TEST_PER an ON output has one switch opened for its readback test. -/
  | offPulseTest (m : Fin 4)
  /-- OFF_PULSE_READBACK (R279): The readback of an off-pulse reads low and the switch closes again 20 µs later. -/
  | offPulseReadback (m : Fin 4) (us : Nat)
  /-- OFF_PULSE_TIMEOUT (R279): A readback not low within 200 µs of an off-pulse latches OUT_TEST and opens both switches. -/
  | offPulseTimeout (m : Fin 4)
  /-- OUTPUT_READBACK_FAULT (R279): A readback low while ON or high while OFF beyond its time latches OUT_OVERLOAD or OUT_STUCK_HIGH. -/
  | outputReadbackFault (m : Fin 4) (high : Bool)
  /-- FS_S_WARNING (R280): FS_S below 19.2 V gives a warning while outputs stay on. -/
  | fsSWarning (below : Bool)
  /-- FS_S_UNDERVOLTAGE (R280): FS_S below 16 V for more than 1 ms opens every output and latches FS_S_UV. -/
  | fsSUndervoltage
  /-- FS_S_RECOVERY (R280): FS_S above 18 V for 10 ms clears FS_S_UV as a cause. -/
  | fsSRecovery
  /-- SAFETY_PARAM_RECEIVE (R283): The island receives and checks an applied parameter set and makes it PENDING or refuses it. -/
  | safetyParamReceive (echoOk : Bool)
  /-- SAFETY_PARAM_APPLY (R283): A pending parameter set applies at the first instant no enabled output is ON. -/
  | safetyParamApply
  /-- SAFETY_FW_RECEIVE (R284): The island writes new safety firmware to its inactive slot and verifies it. -/
  | safetyFwReceive (ok : Bool) (ver : Nat)
  /-- SAFETY_FW_SWITCH (R284): At the first instant no output is ON the island switches to the new firmware and the processor channel restarts. -/
  | safetyFwSwitch
  /-- SAFETY_FW_SELFTEST_END (R284): The restarted processor channel ends its self-test, keeping the new firmware or returning with FW_REFUSED. -/
  | safetyFwSelftestEnd (r : SelfTest)
  /-- FIO_REFRESH_FRAME (R289): A 1 µs die-to-die frame is exchanged, carrying commands to and inputs from the field die. -/
  | fioRefreshFrame (down : DownFrame) (up : Bool) (supplyA : Nat) (supplyB : Nat) (currentA : Nat) (currentB : Nat) (rb : Word) (t : Nat)
  /-- LINK_SILENCE (R291): No good frame for SIL_TMO puts every field-die output into its safe state. -/
  | linkSilence
  /-- SAFE_HOLD_TIMEOUT (R291): HOLD_TMO elapses and HOLD_LAST outputs turn off or go to zero. -/
  | safeHoldTimeout (run : Bool)
  /-- LINK_DOWN_DETECT (R292): No good frame for 10 µs marks field-die points COMM_LOST, raises FAULT and starts retraining. -/
  | linkDownDetect (lost : Nat)
  /-- LINK_RETRAIN_DONE (R292): The die-to-die link returns and groups behave according to whether silence occurred. -/
  | linkRetrainDone (silence : Nat)
  /-- FIO_INPUT_FILTER_EXPIRY (R294): A universal input change outlasts its filter and becomes the filtered level. -/
  | fioInputFilterExpiry (k : Fin 32) (level : LevelWord) (t : Nat)
  /-- CHANNEL_OVERCURRENT (R296): A channel held at current limit for 100 µs or at thermal limit turns off and latches OC. -/
  | channelOvercurrent (k : Fin 32)
  /-- GROUP_OVERCURRENT (R296): A group current above 4.0 A for 5 ms turns the group off in GRP_OFF. -/
  | groupOvercurrent (g : Fin 2) (current : Nat)
  /-- READBACK_MISMATCH (R299): A readback disagreement lasting 500 µs sets FIO_MM and records MISMATCH. -/
  | readbackMismatch (k : Fin 32) (readback : Bool)
  /-- FS_GROUP_WARN (R300): A group supply below 19.2 V for 100 µs sets WARN. -/
  | fsGroupWarn (g : Fin 2) (supply : Nat)
  /-- FS_GROUP_WARN_CLEAR (R300): A group supply above 20 V for 10 ms clears WARN. -/
  | fsGroupWarnClear (g : Fin 2)
  /-- FS_GROUP_UV (R300): A group supply below 16 V for more than 1 ms turns its outputs off in UV. -/
  | fsGroupUv (g : Fin 2)
  /-- FS_GROUP_RECOVERY (R300): A group supply above 18 V for 10 ms takes the group from UV to OK or WAIT_EN. -/
  | fsGroupRecovery (g : Fin 2)
  /-- FIO_GRP_ENABLE (R300): FIO_GRP_CMD ENABLE takes a group to OK, or is refused with GRP_STATE. -/
  | fioGrpEnable (p : Principal) (g : Fin 2)
  /-- AI_SAMPLE (R303): The eight analog inputs are sampled together on the conversion grid. -/
  | aiSample (readings : List Int) (low : Bool) (t : Nat)
  /-- AI_CONVERSION_END (R303): A conversion ends and writes all FIO_AI points as one module frame. -/
  | aiConversionEnd
  /-- AI_BURDEN_RECONNECT (R304): 100 ms after an overcurrent disconnect the analog input burden reconnects. -/
  | aiBurdenReconnect (k : Fin 8)
  /-- AI_CAL_GO (R305): FIO_AI_CAL.GO starts skew calibration of the analog inputs, or is refused. -/
  | aiCalGo (p : Principal)
  /-- AI_CAL_DONE (R305): Skew calibration ends and the skew values are stored. -/
  | aiCalDone (delays : List Nat)
  /-- AO_DEFERRED_UPDATE (R306): An analog output command arriving too soon is applied 1 µs after the previous update. -/
  | aoDeferredUpdate (k : Fin 4) (t : Nat)
  /-- FIO_TEST_UV (R307): Setting or clearing FIO_TEST.UV_A or UV_B makes a group behave as under a real UV or lets it recover. -/
  | fioTestUv (p : Principal) (v : BitVec 2)
  /-- FIO_MM_CLEAR (R299): Writing 1 to FIO_MM bits clears mismatch flags and re-enables MM_OFF drivers. -/
  | fioMmClear (p : Principal) (m : Word)
  /-- FIO_OC_CLEAR (R296): Writing 1 to FIO_OC bits clears overcurrent latches so channels follow commands again. -/
  | fioOcClear (p : Principal) (m : Word)
  /-- SILENCED_CLEAR (R308): Writing 1 to FIO_LINK_STAT.SILENCED clears the silence flag. -/
  | silencedClear (p : Principal)
  /-- LANE_WINDOW_START (R315): A class A window opens on a Lane port and the window frame is sent. -/
  | laneWindowStart (p : Fin 8)
  /-- LANE_OUTPUT_READ (R315): At OUT_OFS the port reads its class A output points and sends A_OUT frames. -/
  | laneOutputRead (p : Fin 8)
  /-- LANE_WINDOW_END (R323): At WIN_END class A points of stations whose A_IN was missing become STALE. -/
  | laneWindowEnd (p : Fin 8)
  /-- LANE_CYCLE_START (R318): A class B cycle starts, B_OUT frames are sent and unheard stations are judged. -/
  | laneCycleStart (p : Fin 8)
  /-- A_IN_RX (R315): A station's A_IN frame arrives and is written to the hot image with its events. -/
  | aInRx (p : Fin 8) (k : Fin 128) (start : Nat) (fcs : Bool) (body : List Byte) (drv : List DriveStat)
  /-- B_IN_RX (R318): A station's B_IN frame arrives and its class B inputs and status are taken. -/
  | bInRx (p : Fin 8) (k : Fin 128) (fcs : Bool) (body : List Byte) (drv : List DriveStat)
  /-- IDENT_RX (R320): A station's IDENT answers a probe during enumeration. -/
  | identRx (p : Fin 8) (pos : Fin 128) (fcs : Bool) (body : List Byte)
  /-- LANE_ACK_RX (R321): A station's ACK reports the outcome of a CFG or command frame. -/
  | laneAckRx (p : Fin 8) (k : Fin 128) (fcs : Bool) (typ : Nat) (res : Nat)
  /-- DELAY_RESP_RX (R320): A DELAY_RESP arrives and the station's line delay is computed. -/
  | delayRespRx (p : Fin 8) (pos : Fin 128) (fcs : Bool) (rtt : Nat) (turn : Nat)
  /-- FOREIGN_FRAME_RX (R310): A frame with another EtherType on a Lane-mode port is discarded and counted. -/
  | foreignFrameRx (p : Fin 8)
  /-- LNE_START (R324): LNE_CMD START brings a port out of OFF in Lane or Ethernet mode. -/
  | lneStart (p : Principal) (n : Fin 8)
  /-- LNE_STOP (R324): LNE_CMD STOP stops a port at the next cycle start. -/
  | lneStop (p : Principal) (n : Fin 8)
  /-- LNE_REENUM (R324): LNE_CMD REENUM returns a running port to enumeration. -/
  | lneReenum (p : Principal) (n : Fin 8)
  /-- STA_RESTART (R323): LNE_STA_CMD RESTART takes a station from SAFE back through CONFIG. -/
  | staRestart (p : Principal) (n : Fin 8) (k : Fin 128)
  /-- STA_GO_SAFE (R321): LNE_STA_CMD GO_SAFE sends a station to SAFE. -/
  | staGoSafe (p : Principal) (n : Fin 8) (k : Fin 128)
  /-- PROBE_TIMEOUT (R320): A probe goes unanswered for 100 µs and enumeration of the line ends. -/
  | probeTimeout (p : Fin 8)
  /-- DELAY_REMEASURE (R320): Every 1 s a running port remeasures each station's line delay. -/
  | delayRemeasure (p : Fin 8)
  /-- NEW_STATION_PROBE (R320): Once per second a running port probes for new stations in INIT. -/
  | newStationProbe (p : Fin 8)
  /-- LANE_LINK_UP (R324): The SGMII link of a port comes up and enumeration starts. -/
  | laneLinkUp (p : Fin 8)
  /-- LANE_LINK_DOWN (R324): The SGMII link of a port goes down and its points become COMM_LOST. -/
  | laneLinkDown (p : Fin 8)
  /-- LNE_INJ_UNLOCK (R326): LNE_INJ_UNLOCK unlocks fault injection on a port if permitted. -/
  | lneInjUnlock (p : Principal) (n : Fin 8)
  /-- LNE_INJ_EN (R326): Writing LNE_INJ_EN enables or disables fault injection, or is refused. -/
  | lneInjEn (p : Principal) (n : Fin 8) (en : Bool)
  /-- ETH_RX_FRAME (R325): An Ethernet-mode port receives a frame into its receive ring. -/
  | ethRxFrame (p : Fin 8) (f : List Byte) (fcs : Bool) (t8 : Nat)
  /-- ETH_TX_TAIL (R325): A write of the transmit TAIL hands ring entries to the port. -/
  | ethTxTail (p : Principal) (n : Fin 8) (v : BitVec 16)
  /-- ETH_RX_TAIL (R325): A write of the receive TAIL hands empty buffers to the port. -/
  | ethRxTail (p : Principal) (n : Fin 8) (v : BitVec 16)
  /-- ETH_TX_DONE (R325): The port finishes sending a transmit entry and advances HEAD. -/
  | ethTxDone (p : Fin 8) (t8 : Nat)
  /-- AVE_TRAINING_DONE (R330): An Avenue port gains block lock and 8 HELLO blocks and goes UP. -/
  | aveTrainingDone (p : Fin 6) (peer : Fin 64) (pp : Fin 6) (role : Fin 4) (dly : Nat)
  /-- AVE_HELLO_SEND (R330): Every 1 µs a port sends a HELLO control block. -/
  | aveHelloSend (p : Fin 6)
  /-- AVE_HELLO_TIMEOUT (R330): Four consecutive HELLO blocks are missing and the link is declared DOWN. -/
  | aveHelloTimeout (p : Fin 6)
  /-- AVE_LOCK_LOSS (R330): Block lock lost for more than 1 µs declares the link DOWN. -/
  | aveLockLoss (p : Fin 6)
  /-- AVE_DELAY_MEASURE (R330): Every 1 ms a port measures the one-way delay to its peer. -/
  | aveDelayMeasure (p : Fin 6) (dly : Nat)
  /-- PT_A_RX (R338): A class A peer point frame arrives and its points are written to the hot image. -/
  | ptARx (p : Fin 6) (h : AHdr) (time : Nat) (recs : List PtRec)
  /-- PT_B_RX (R338): A class B or C peer point frame arrives and its points are written. -/
  | ptBRx (p : Fin 6) (h : AHdr) (classC : Bool) (time : Nat) (recs : List PtRec)
  /-- RD_REQ_RX (R339): A fabric read request arrives, is checked and answered. -/
  | rdReqRx (p : Fin 6) (h : AHdr) (off : Nat) (pr : Principal) (wide : Bool)
  /-- WR_REQ_RX (R339): A fabric write request arrives, is checked and answered. -/
  | wrReqRx (p : Fin 6) (h : AHdr) (off : Nat) (pr : Principal) (wide : Bool) (data : Nat)
  /-- RD_RESP_RX (R339): A fabric read response arrives and completes its request. -/
  | rdRespRx (p : Fin 6) (h : AHdr) (classC : Bool) (result : Nat) (data : Nat)
  /-- WR_RESP_RX (R339): A fabric write response arrives and completes its request. -/
  | wrRespRx (p : Fin 6) (h : AHdr) (classC : Bool) (result : Nat)
  /-- LSA_RX (R336): A link-state advertisement arrives and is flooded and entered in the link-state table. -/
  | lsaRx (p : Fin 6) (h : AHdr) (dev : Fin 64) (port : Fin 6) (up : Bool) (peer : Fin 64) (seq : Nat) (ago : Nat)
  /-- DISC_RX (R334): A discovery probe or reply arrives and IDs are assigned. -/
  | discRx (p : Fin 6) (h : AHdr) (reply : Bool) (serial : Nat) (port : Nat) (role : Nat)
  /-- TIME_FRAME_RX (R357): A TIME frame arrives and, from the parent, yields an offset measurement. -/
  | timeFrameRx (p : Fin 6) (h : AHdr) (t : Nat) (flags : Nat) (hops : Nat) (gm : List Byte) (utc : List Byte) (rx : Nat)
  /-- TRIG_FRAME_RX (R371): A fabric TRIG frame arrives and is delivered to FABRIC conditions. -/
  | trigFrameRx (p : Fin 6) (h : AHdr) (ns : Nat) (line : Nat) (ps : Nat)
  /-- REC_FRAME_RX (R386): A history block fragment arrives at the gateway for delivery to the host. -/
  | recFrameRx (p : Fin 6) (h : AHdr) (seq : Nat) (frag : Fin 4) (dev : Fin 64) (bytes : List Byte)
  /-- CTRL_SUBSCRIBE (R338): A subscription message arrives for admission or publication. -/
  | ctrlSubscribe (p : Fin 6) (h : AHdr) (sub : Fin 64) (gid : BitVec 25) (cls : Fin 4) (kind : Fin 8) (admitted : Bool) (long : Bool) (contended : Bool) (prot : Bool)
  /-- CTRL_ADMIT (R333): An admission message for a class A flow is decided by the gateway. -/
  | ctrlAdmit (p : Fin 6) (h : AHdr) (src : Fin 64) (dst : Fin 64) (long : Bool) (contended : Bool) (prot : Bool)
  /-- CTRL_GRANT (R341): A grant message confirms a recording grant, a subscription or returns a credit. -/
  | ctrlGrant (p : Fin 6) (h : AHdr) (g : Grant)
  /-- CTRL_RELEASE (R340): A release message hands the gateway role to the standby. -/
  | ctrlRelease (p : Fin 6) (h : AHdr)
  /-- CTRL_HEARTBEAT (R340): A gateway heartbeat message arrives at the standby. -/
  | ctrlHeartbeat (p : Fin 6) (h : AHdr)
  /-- FABRIC_ACCESS (R339): An access in the fabric window becomes a fabric request to the target device. -/
  | fabricAccess (r : Requester) (p : Principal) (wr : Bool) (a : Fin 4398046511104) (size : Fin 9) (v : BitVec 64) (ecc : EccRead)
  /-- AVE_REQ_TIMEOUT (R339): A fabric request unanswered within AVE_REQ_TMO completes with REPLY_LOST. -/
  | aveReqTimeout (tag : BitVec 16)
  /-- PT_PUBLISH (R338): At a class A flow's publication instant the publisher sends a PT_A frame. -/
  | ptPublish (idx : Fin 524288) (dst : Fin 64)
  /-- PT_B_PUBLISH (R338): Every B_PERIOD the publisher sends PT_B frames of its class B and C points. -/
  | ptBPublish
  /-- PEER_FRAME_TIMEOUT (R338): Missed publications make a subscribed point STALE or COMM_LOST. -/
  | peerFrameTimeout (idx : Fin 524288) (commLost : Bool)
  /-- ROUTE_RECOMPUTE_DONE (R336): A Junction finishes recomputing its routing table after a link-state change. -/
  | routeRecomputeDone
  /-- AVE_DISCOVER (R334): AVE_CMD DISCOVER makes an ACTIVE device take ID 0 and start discovery. -/
  | aveDiscover (p : Principal)
  /-- AVE_RELEASE (R340): AVE_CMD RELEASE hands the gateway role to a reachable standby, or is refused. -/
  | aveRelease (p : Principal)
  /-- DISCOVERY_COMPLETE (R334): Discovery ends when no probe is unanswered and DISCOVERED is written. -/
  | discoveryComplete
  /-- DEVICE_LOST_TIMEOUT (R334): A device not reached for 10 s is recorded DEV_LOST and its ID freed. -/
  | deviceLostTimeout (d : Fin 64)
  /-- GW_HEARTBEAT_SEND (R340): Every 100 µs the active gateway sends a heartbeat to the standby. -/
  | gwHeartbeatSend
  /-- GW_HB_TIMEOUT (R340): The standby misses the heartbeat for GW_HB_TMO and takes over as ACTIVE. -/
  | gwHbTimeout
  /-- HOST_LINK_LOSS_TIMEOUT (R340): The active gateway's host link is down for GW_HB_TMO and it releases the role. -/
  | hostLinkLossTimeout
  /-- AVE_INJ_UNLOCK (R342): AVE_INJ_UNLOCK unlocks fault injection on an Avenue port if permitted. -/
  | aveInjUnlock (p : Principal) (n : Fin 6)
  /-- AVE_INJ_EN (R342): Writing AVE_INJ_EN enables or disables injection, or is refused. -/
  | aveInjEn (p : Principal) (n : Fin 6) (en : Bool)
  /-- AVE_SUB_STAT_CLEAR (R344): Writing 1 to AVE_SUB_STAT.VALID clears the refused-subscription log. -/
  | aveSubStatClear (p : Principal)
  /-- TIM_OFS_SUBMIT (R348): A write of TIM_OFS_HI submits a PTP offset measurement, or is refused. -/
  | timOfsSubmit (p : Principal) (hi : Word)
  /-- TIM_PHASE_STEP (R350): A pending phase step moves network time by whole microseconds at the next base-frame boundary. -/
  | timPhaseStep
  /-- TIM_SET (R352): A write of TIM_SET_HI submits a network time for the next boundary, or is refused. -/
  | timSet (p : Principal) (hi : Word)
  /-- SERVO_HOLDOVER (R351): No measurement for HOLD_N intervals puts the servo into HOLDOVER. -/
  | servoHoldover
  /-- TIME_FRAME_SEND (R357): Every FAB_INT a device sends a TIME frame on each UP Avenue port. -/
  | timeFrameSend
  /-- TIM_NOW_READ (R347): A read of TIM_NOW_LO returns network time and latches the upper word. -/
  | timNowRead
  /-- TXTS_INFO_READ (R355): A read of TIM_TXTS_INFO latches the head entry's transmit stamp. -/
  | txtsInfoRead (p : Fin 8)
  /-- TXTS_POP (R355): TIM_TXTS_POP removes the head entry of a port's transmit stamp queue. -/
  | txtsPop (p : Principal) (n : Fin 8)
  /-- TXTS_OVF_CLEAR (R363): Writing 1 to TIM_TXTS_STAT.TS_OVF clears the overflow flag. -/
  | txtsOvfClear (p : Principal) (n : Fin 8)
  /-- LOST_RST_CLEAR (R361): Writing 1 to TIM_STAT.LOST_RST clears it. -/
  | lostRstClear (p : Principal)
  /-- UNC_LIMIT_EXCEEDED (R361): The coarse uncertainty exceeds LOST_LIM and TIME_LOST is set. -/
  | uncLimitExceeded (unc : Nat)
  /-- ACQ_POINT_SAMPLE (R366): At a point channel's sample instant the due channels are read in one group read. -/
  | acqPointSample (skipped : Bool)
  /-- ACQ_TIMER_EXPIRY (R368): A sequencer timer expires and its TIMER conditions become true. -/
  | acqTimerExpiry (k : Fin 4)
  /-- TRIG_IN_EDGE (R368): An edge on TRIG_IN is time-stamped and offered to EXT conditions and PULSE coordinates. -/
  | trigInEdge (k : Fin 4) (rising : Bool) (t8 : Nat)
  /-- ACQ_ARM (R374): ACQ_CMD ARM checks admission and arms a session from the next boundary, or is refused. -/
  | acqArm (p : Principal) (fabricOk : Bool)
  /-- ACQ_STOP (R374): ACQ_CMD STOP ends a session within 1 µs and flushes its blocks. -/
  | acqStop (p : Principal)
  /-- ACQ_CLEAR (R374): ACQ_CMD CLEAR returns a finished session to IDLE. -/
  | acqClear (p : Principal)
  /-- ACQ_POST_COMPLETE (R374): Every channel has recorded to t_trig + POST_T and the session re-arms or ends. -/
  | acqPostComplete
  /-- ACQ_REARM_COMPLETE (R374): Every channel has recorded PRE_T in its new segment and the session is ARMED again. -/
  | acqRearmComplete
  /-- ACQ_BLOCK_WRITTEN (R376): A finished capture block's write to SDRAM completes or is reported failed. -/
  | acqBlockWritten (failed : Bool)
  /-- ACQ_TFLAG_SET (R368): A write to ACQ_TFLAG sets bits read by TFLAG conditions. -/
  | acqTflagSet (p : Principal) (m : Word)
  /-- ACQ_FLAG_CLEAR (R372): Writing 1 to ACQ_FLAG bits clears acquisition flags. -/
  | acqFlagClear (p : Principal) (i : Fin 2) (m : Word)
  /-- OC_TOKEN (R381): An ON_CHANGE point gains a token and records any held change as COLLAPSED. -/
  | ocToken (idx : Fin 524288)
  /-- HRC_REDUCE_INTERVAL (R382): A REDUCE interval ends and HRC produces its statistics record. -/
  | hrcReduceInterval (idx : Fin 524288)
  /-- HRC_BLOCK_AGE (R385): HRC_BLK_AGE passes since a block's first entry and the block is closed. -/
  | hrcBlockAge
  /-- HRC_FLUSH (R385): HRC_FLUSH closes the current history block. -/
  | hrcFlush (p : Principal)
  /-- HRC_BLOCK_SEND (R386): A closed block is sent to the gateway as four REC frames once a credit is available. -/
  | hrcBlockSend (ue : Bool)
  /-- HRC_DMA_DONE (R386): On the gateway, a block's DMA to a host buffer completes and its credit returns. -/
  | hrcDmaDone (dev : Fin 64) (seq : Nat) (d : HDesc) (hostErr : Bool)
  /-- EVR_ACCEPT (R391): EVR accepts one waiting record per CLK_PER cycle into its rings with the next SEQ. -/
  | evrAccept
  /-- LOST_BUSY_REPORT (R391): One second after busy losses a LOST_BUSY record reports them. -/
  | lostBusyReport
  /-- FREEZE_TIMEOUT (R393): A freeze lasting EVR_FRZ_MAX ends automatically with its release actions. -/
  | freezeTimeout
  /-- EVR_DUMP_GO (R394): EVR_DUMP_GO starts copying records to memory while frozen, or is refused. -/
  | evrDumpGo (p : Principal)
  /-- EVR_DUMP_DONE (R394): An EVR dump completes and DUMP_DONE is raised. -/
  | evrDumpDone
  /-- EVR_FF_ARM (R392): EVR_FF_ARM empties and re-arms the first-fault region, or is refused while frozen. -/
  | evrFfArm (p : Principal)
  /-- TASK_CREATE (R401): HTS_TASK_CMD CREATE takes a task from FREE to WAITING. -/
  | taskCreate (p : Principal) (t : Fin 512)
  /-- TASK_DELETE (R401): HTS_TASK_CMD DELETE frees a waiting or suspended task, or is refused. -/
  | taskDelete (p : Principal) (t : Fin 512)
  /-- TASK_SUSPEND (R401): HTS_TASK_CMD SUSPEND stops a task's flag activations. -/
  | taskSuspend (p : Principal) (t : Fin 512)
  /-- TASK_RESUME (R401): HTS_TASK_CMD RESUME returns a suspended task to WAITING. -/
  | taskResume (p : Principal) (t : Fin 512)
  /-- DISP_READ (R403): A core's read of DISP selects and dispatches the most urgent eligible unit, stalling if none. -/
  | dispRead (c : Fin 8) (by_ : Option (Fin 8))
  /-- DISP_WAIT_TIMEOUT (R403): A stalled DISP read returns VALID = 0 after HTS_WAIT_MAX. -/
  | dispWaitTimeout (c : Fin 8)
  /-- TASK_DONE (R406): DONE on a core's port ends its running unit. -/
  | taskDone (p : Principal) (c : Fin 8)
  /-- TASK_YIELD (R401): YIELD on a core's port returns its running unit to the head of its level. -/
  | taskYield (p : Principal) (c : Fin 8)
  /-- SUB_GO (R405): SUB_GO submits an item to a flow, or refuses it. -/
  | subGo (p : Principal) (c : Fin 8) (f : Fin 4096)
  /-- FSET (R400): A write to a port's FSET raises flags of the selected task. -/
  | fset (p : Principal) (c : Fin 8) (m : Word)
  /-- MASK_WRITE (R401): A write of a task's MASK re-evaluates its wait condition. -/
  | maskWrite (p : Principal) (t : Fin 512) (m : Word)
  /-- HTS_HB (R410): A heartbeat write to HTS_HB attaches the application side. -/
  | htsHb (p : Principal)
  /-- HEARTBEAT_MISSED (R27): Three consecutive missed heartbeat periods detach the application side. -/
  | heartbeatMissed
  /-- AUTONOMY_WINDOW_EXPIRY (R29): The autonomy window expires, streams go to their park step and an ALARM is raised. -/
  | autonomyWindowExpiry
  /-- WDT_WARNING (R418): A core watchdog reaches half its timeout and raises its warning interrupt. -/
  | wdtWarning (c : Fin 8)
  /-- WDT_EXPIRY (R418): A core watchdog expires and resets its core through the fence. -/
  | wdtExpiry (c : Fin 8) (mepc : Word)
  /-- WDT_KICK (R418): Writing 0x5A to XFA_WDT_KICK restarts a core's watchdog. -/
  | wdtKick (c : Fin 8) (v : BitVec 8)
  /-- CPU_CORE_EN (R419): A write of CPU_CORE_EN releases cores from reset or holds them in reset after a fence. -/
  | cpuCoreEn (p : Principal) (v : Word)
  /-- CPU_CORE_RST (R418): CPU_CORE_RST resets selected cores through the fence. -/
  | cpuCoreRst (p : Principal) (v : Word)
  /-- CACHE_UE (R418): An uncorrectable cache error on dirty data resets the core. -/
  | cacheUe (c : Fin 8) (level : Fin 3) (addr : Nat)
  /-- SRAM_SCRUB (R421): The SRAM scrubber reads each word every 24 h and writes back corrected words. -/
  | sramScrub (ce : Nat) (ue : Option Nat)
  /-- MEM_TRAINING_DONE (R422): MEM completes training of the SDRAM channels and sets RUNNING. -/
  | memTrainingDone (fail0 : Bool) (fail1 : Bool)
  /-- MEM_PATROL_SCRUB (R422): The patrol scrubber covers the SDRAM within MEM_SCRUB.PERIOD. -/
  | memPatrolScrub (ce : Nat) (ue : Option Nat)
  /-- MTIMECMP_MATCH (R419): mtime reaches a core's mtimecmp and its timer interrupt is raised. -/
  | mtimecmpMatch (c : Fin 8)
  /-- MTIME_READ (R429): A read of CPU_MTIME_LO returns mtime and latches the high word. -/
  | mtimeRead
  /-- CPU_WDT_LOG_CLEAR (R429): Writing 1 to CPU_WDT_LOG bits clears watchdog log bits. -/
  | cpuWdtLogClear (p : Principal) (m : Word)
  /-- CPU_SRAM_UE_CLEAR (R429): Writing 1 to CPU_SRAM_UE.VALID clears the SRAM error log. -/
  | cpuSramUeClear (p : Principal)
  /-- MEM_UE_CLEAR (R429): Writing 1 to MEM_UE_HI.VALID clears the SDRAM error log. -/
  | memUeClear (p : Principal)
  /-- RING_DOORBELL (R426): A doorbell write posts a new tail for a DMA ring. -/
  | ringDoorbell (n : Fin 8) (tail : BitVec 12)
  /-- DMA_DESC_DONE (R426): HIF completes a DMA descriptor, writes back D6 and may raise the ring's vector. -/
  | dmaDescDone (n : Fin 8) (d : HDesc) (data : List Byte) (hostErr : Bool)
  /-- RING_ENABLE (R427): RING_CFG.EN = 1 enables a ring with head and tail at 0. -/
  | ringEnable (p : Principal) (n : Fin 8) (v : Word)
  /-- RING_DISABLE (R427): RING_CFG.EN = 0 disables a ring after its descriptor in progress. -/
  | ringDisable (p : Principal) (n : Fin 8)
  /-- HIF_MSI_SEND (R429): HIF_MSI_SEND raises an MSI-X vector toward the host. -/
  | hifMsiSend (p : Principal) (v : Fin 64)
  /-- HOST_BAR_ACCESS (R424): A host request through a BAR is translated and served or fails with all-ones data. -/
  | hostBarAccess (bar2 : Bool) (wr : Bool) (off : BitVec 32) (size : Fin 9) (v : BitVec 64) (ecc : EccRead)
  /-- HIF_ERR_LOG_CLEAR (R425): Writing 1 to HIF_ERR_LOG.VALID clears the host error log. -/
  | hifErrLogClear (p : Principal)
  /-- PCIE_LINK_UP (R423): The PCIe link trains up and LINK_UP is recorded. -/
  | pcieLinkUp (rate : Fin 8) (width : Fin 16) (bm : Bool)
  /-- PCIE_LINK_DOWN (R428): The PCIe link goes down and HIF is fenced with its rings disabled. -/
  | pcieLinkDown
  /-- PCIE_HOT_RESET (R428): A PCIe hot reset fences HIF and disables its rings. -/
  | pcieHotReset
  /-- PCIE_FLR (R428): A Function Level Reset fences HIF and disables its rings. -/
  | pcieFlr
  /-- CAN_START (R438): CAN_CMD START checks timing and starts integration. -/
  | canStart (p : Principal) (n : Fin 4)
  /-- CAN_STOP (R438): CAN_CMD STOP returns a controller to CONFIG after the current frame. -/
  | canStop (p : Principal) (n : Fin 4) (onBus : Bool)
  /-- CAN_SLEEP (R438): CAN_CMD SLEEP puts an idle controller to SLEEP, or is refused with TX_PENDING. -/
  | canSleep (p : Principal) (n : Fin 4) (onBus : Bool)
  /-- CAN_WAKE (R438): CAN_CMD WAKE wakes a sleeping controller into integration. -/
  | canWake (p : Principal) (n : Fin 4)
  /-- CAN_RECOVER (R438): CAN_CMD RECOVER starts bus-off recovery. -/
  | canRecover (p : Principal) (n : Fin 4)
  /-- CAN_FRAME_RX (R434): A received frame is filtered into a receive object or discarded. -/
  | canFrameRx (n : Fin 4) (id : BitVec 29) (xtd : Bool) (fdf : Bool) (brs : Bool) (esi : Bool) (dlc : Fin 16) (t : Nat) (data : List Byte)
  /-- CAN_TX_DONE (R436): A transmit object's frame completes and TX_RESULT is set. -/
  | canTxDone (n : Fin 4)
  /-- CAN_PERIODIC_REQUEST (R436): A PERIODIC object requests a transmission at its period boundary. -/
  | canPeriodicRequest (n : Fin 4) (m : Fin 64)
  /-- CAN_RX_TIMEOUT (R437): PERIOD passes without a frame and the object's bound points become STALE. -/
  | canRxTimeout (n : Fin 4) (m : Fin 64)
  /-- CAN_BUS_ERROR (R438): A bus error updates the error counters and may change the error state or cause bus-off. -/
  | canBusError (n : Fin 4) (lec : Fin 7) (dataPhase : Bool) (own : Bool) (dTec : Nat) (dRec : Nat)
  /-- CAN_INTEGRATION_DONE (R438): 11 recessive bits complete integration and the controller becomes ACTIVE. -/
  | canIntegrationDone (n : Fin 4)
  /-- CAN_RECOVERY_DONE (R438): 128 occurrences of 11 recessive bits end bus-off recovery. -/
  | canRecoveryDone (n : Fin 4)
  /-- CAN_WAKE_DETECT (R439): A dominant level or matching frame on a sleeping controller's RX wakes it. -/
  | canWakeDetect (n : Fin 4) (frame : Bool) (id : BitVec 29) (xtd : Bool) (data0 : Byte)
  /-- CAN_OBJ_STAT_READ (R435): A read of O3 while NEW = 1 sets READING. -/
  | canObjStatRead (n : Fin 4) (m : Fin 64)
  /-- CAN_NEW_CLEAR (R435): Writing 1 to O3.NEW ends a read and moves any shadow frame into view. -/
  | canNewClear (p : Principal) (n : Fin 4) (m : Fin 64)
  /-- CAN_OVR_CLEAR (R433): Writing 1 to O3.OVR clears the overwrite flag. -/
  | canOvrClear (p : Principal) (n : Fin 4) (m : Fin 64)
  /-- CAN_TX_REQ (R436): O3.TX_REQ requests transmission of a transmit object. -/
  | canTxReq (p : Principal) (n : Fin 4) (m : Fin 64)
  /-- CAN_TX_ABORT (R436): O3.TX_ABORT withdraws a pending transmit request. -/
  | canTxAbort (p : Principal) (n : Fin 4) (m : Fin 64) (onBus : Bool)
  /-- CAN_OBJ_ENABLE (R433): Setting O0.EN enables a message object, or is refused with FD_DISABLED. -/
  | canObjEnable (p : Principal) (n : Fin 4) (m : Fin 64) (v : Word)
  /-- CAN_OBJ_DISABLE (R433): Clearing O0.EN disables an object at the end of any frame on the bus. -/
  | canObjDisable (p : Principal) (n : Fin 4) (m : Fin 64) (onBus : Bool)
  /-- CAN_EVT_CLEAR (R440): Writing 1 to CAN_RX_EVT or CAN_TX_EVT bits clears object event bits. -/
  | canEvtClear (p : Principal) (n : Fin 4) (i : Fin 4) (m : Word)
  /-- CAN_WOKEN_CLEAR (R440): Writing 1 to CAN_WAKE_STAT.WOKEN clears it. -/
  | canWokenClear (p : Principal) (n : Fin 4)
  /-- CLK_XO_START (R448): CLK_CMD XO_START starts the crystal, or is refused with XO_STATE. -/
  | clkXoStart (p : Principal)
  /-- CLK_PLL_START (R443): CLK_CMD PLL_START starts the root PLL on its reference. -/
  | clkPllStart (p : Principal)
  /-- CLK_RAMP (R446): CLK_CMD RAMP moves a domain clock from FRC to the PLL, or is refused. -/
  | clkRamp (p : Principal) (d : Fin 4)
  /-- CLK_RETURN (R450): CLK_CMD RETURN brings the PLL reference back to a stable crystal, or is refused. -/
  | clkReturn (p : Principal)
  /-- CLK_XO_RETRY (R448): CLK_CMD XO_RETRY restarts a failed crystal and clears XO_FAILS. -/
  | clkXoRetry (p : Principal)
  /-- CLK_XO_STOP (R448): CLK_CMD XO_STOP stops the crystal when the PLL does not reference it. -/
  | clkXoStop (p : Principal)
  /-- XO_STABLE (R448): The crystal completes its stability count and becomes STABLE. -/
  | xoStable
  /-- XO_START_TIMEOUT (R448): A crystal start not stable within XO_TMO is restarted or fails. -/
  | xoStartTimeout
  /-- AUTO_RETURN (R450): With AUTO_RETURN the PLL returns to a stable crystal once no lane is in BIST or COPY. -/
  | autoReturn
  /-- RAMP_STEP (R446): After RAMP_DWELL a ramping domain clock steps to its next divisor. -/
  | rampStep (d : Fin 4)
  /-- PLL_LOCK (R443): The PLL lock detector holds for 4096 reference cycles and PLL_LOCKED is set. -/
  | pllLock
  /-- XO_TRIP (R450): The crystal monitor trips and the PLL falls back to FRC ÷ 4 with TIME_DEGRADED set. -/
  | xoTrip (stop : Bool) (cnt : Nat)
  /-- PLL_UNLOCK (R452): The PLL loses lock while PD_RT is on, domain clocks move to FRC and FATAL is raised. -/
  | pllUnlock
  /-- FRC_FAIL (R452): The FRC monitor trips, raising FATAL if FRC drives anything, else WARN. -/
  | frcFail (cnt : Nat)
  /-- SRC_FAIL (R452): The slow RC monitor trips and WARN is recorded. -/
  | srcFail
  /-- CLK_SWITCH_DONE (R451): A multiplexer receives 4 old-clock edges, gates the old clock and enables the new one. -/
  | clkSwitchDone (m : Fin 5)
  /-- CLK_SWITCH_FORCE (R451): Old-clock edges missing for 16 new-clock cycles force the switch and record CLK_FORCED_SWITCH. -/
  | clkSwitchForce (m : Fin 5)
  /-- CLK_MON_STAT_CLEAR (R460): Writing 1 to CLK_MON_STAT bits clears sticky monitor flags. -/
  | clkMonStatClear (p : Principal) (m : Word)
  /-- PMC_RUN (R456): PMC_CMD RUN restores masked domains from ECO. -/
  | pmcRun (p : Principal)
  /-- PMC_ECO (R456): PMC_CMD ECO starts the entry handshake for ECO. -/
  | pmcEco (p : Principal)
  /-- PMC_STANDBY (R456): PMC_CMD STANDBY starts the entry handshake for STANDBY. -/
  | pmcStandby (p : Principal)
  /-- PMC_HIBERNATE (R456): PMC_CMD HIBERNATE starts the entry handshake for HIBERNATE. -/
  | pmcHibernate (p : Principal)
  /-- PMC_HANDSHAKE_ANSWER (R457): A block answers the sleep request with AGREE, REFUSE or WAIT. -/
  | pmcHandshakeAnswer (wfi : Bool) (busy : Bool)
  /-- PMC_WAIT_TIMEOUT (R457): A waiting block's declared maximum runs out and counts as a refusal. -/
  | pmcWaitTimeout
  /-- PMC_ROLLBACK_DONE (R458): Every stopped block is woken and PMC returns to its previous state. -/
  | pmcRollbackDone
  /-- PMC_WAKE_DONE (R456): Domains are restored after a STANDBY wake and core 0 is released. -/
  | pmcWakeDone
  /-- PMC_DOM_ON (R454): PMC_DOM_CMD ON powers up a domain, or is refused with DOMAIN_DEP. -/
  | pmcDomOn (p : Principal) (d : Fin 16)
  /-- PMC_DOM_OFF (R454): PMC_DOM_CMD OFF runs the handshake and powers down a domain. -/
  | pmcDomOff (p : Principal) (d : Fin 16)
  /-- DOMAIN_POWER_UP_DONE (R454): A domain's rail, reset hold and clocks complete and its headers reach the mirrors. -/
  | domainPowerUpDone (d : Fin 13) (net : Nat) (elapsed : Nat)
  /-- WAKE_N_LOW (R459): WAKE_N low for 10 µs fires its wake source. -/
  | wakeNLow
  /-- PMC_ALARM_MATCH (R459): Coarse network time reaches PMC_ALARM and fires its wake source. -/
  | pmcAlarmMatch
  /-- LANE_SIGNAL_DETECT (R459): Signal detected on a Lane port fires its wake source. -/
  | laneSignalDetect (n : Fin 8)
  /-- AVE_SIGNAL_DETECT (R459): Signal detected on an Avenue port fires its wake source. -/
  | aveSignalDetect (n : Fin 6)
  /-- PERST_N_RISE (R459): A rising PERST_N fires its wake source. -/
  | perstNRise
  /-- PMC_WAKE_STAT_CLEAR (R461): Writing 1 to PMC_WAKE_STAT bits clears fired wake sources. -/
  | pmcWakeStatClear (p : Principal) (m : Word)
  /-- STARTUP_REGULATORS (R463): With PG_CORE, PG_IO and RESET_N high the power-on reset of PD_AON is held. -/
  | startupRegulators
  /-- STARTUP_OSCILLATORS (R463): FRC and SRC start, PD_AON leaves reset and the boot mode is sampled. -/
  | startupOscillators (mode : Fin 4)
  /-- STARTUP_ALWAYS_ON (R463): ERM latches the reset cause, RET starts its bank check and core 0 starts the boot ROM. -/
  | startupAlwaysOn
  /-- STARTUP_CLOCKS (R463): The ROM starts the crystal and PLL and ramps CLK_IO and CLK_CPU. -/
  | startupClocks (fails : Fin 5) (us : Nat)
  /-- STARTUP_MEMORY (R463): With PG_MEM high PMC powers PD_MEM and MEM trains, or the ROM proceeds without memory. -/
  | startupMemory (pg : Bool) (fail0 : Bool) (fail1 : Bool)
  /-- STARTUP_REALTIME (R463): With RET checked and PD_MEM on, CLK_RT ramps and PD_RT powers up. -/
  | startupRealtime (net : Nat) (elapsed : Nat)
  /-- STARTUP_BOOT (R465): The boot image is loaded from its source and authenticated. -/
  | startupBoot (a : Option (List Byte)) (b : Option (List Byte))
  /-- STARTUP_HANDOVER (R463): The protection map is loaded, the ROM principal ends and core 0 jumps to ENTRY. -/
  | startupHandover
  /-- ERM_PUSH_GO (R464): ERM_PUSH_GO starts authentication of a host-pushed boot image. -/
  | ermPushGo (p : Principal)
  /-- BOOT_PUSH_TIMEOUT (R464): No pushed image within 10 s refuses the push source with NO_SOURCE. -/
  | bootPushTimeout
  /-- POWER_ON_RESET (R466): PD_AON power-up or VDD_CORE below 0.55 V resets everything on the core die. -/
  | powerOnReset
  /-- BROWNOUT (R466): A PG pin low or VDD_CORE out of range for 1 µs causes a full device reset. -/
  | brownout (core : Bool) (io : Bool) (vdd : Bool)
  /-- RESET_PIN (R466): RESET_N low for 1 µs causes a full device reset. -/
  | resetPin
  /-- SOFTWARE_RESET (R466): 0x0000_A5A5 written to ERM_SW_RST causes a full device reset; other values record BAD_KEY. -/
  | softwareReset (p : Principal) (v : Word)
  /-- DEBUG_RESET (R466): A debug-port system reset causes a full device reset when debug is permitted. -/
  | debugReset
  /-- RESET_RELEASE (R466): The hold of a full device reset ends when its release condition is met and start-up begins. -/
  | resetRelease
  /-- PG_MEM_LOSS (R467): PG_MEM low for 1 µs fences PD_MEM, raises FAULT and holds running streams. -/
  | pgMemLoss
  /-- PG_MEM_RESTORE (R468): PG_MEM high for 10 ms powers PD_MEM again and MEM retrains. -/
  | pgMemRestore
  /-- PFAIL_FALL (R469): PFAIL_N falls, raising WARN, making RET flush and rolling back any PMC entry. -/
  | pfailFall
  /-- PFAIL_RISE (R469): PFAIL_N rises before PFAIL_RST and its duration is recorded. -/
  | pfailRise
  /-- PFAIL_RESET (R469): PFAIL_N still low after PFAIL_RST resets the device with cause PFAIL. -/
  | pfailReset
  /-- RET_WRITE (R471): A write to the retention store enters the pending buffer or waits for room. -/
  | retWrite (p : Principal) (i : Fin 524288) (v : Word)
  /-- RET_ROUND (R471): Each millisecond RET writes and verifies every pending word and updates the bank records. -/
  | retRound (fails : List (Fin 524288))
  /-- RET_FLUSH (R471): RET_FLUSH starts a retention round at once. -/
  | retFlush (p : Principal)
  /-- RET_CHECK_DONE (R472): RET finishes checking the eight banks and zeroes and flags any that failed. -/
  | retCheckDone (bad : List (Fin 8 × Word)) (us : BitVec 16)
  /-- RET_BANK_FAIL_CLEAR (R479): Writing 1 to RET_BANK_FAIL bits clears failed-bank flags. -/
  | retBankFailClear (p : Principal) (m : Word)
  /-- RET_WFAIL_LOG_CLEAR (R479): Writing 1 to RET_WFAIL_LOG.VALID clears the write-failure log. -/
  | retWfailLogClear (p : Principal)
  /-- ERM_ERROR_RAISE (R475): A block raises an error with a severity, which ERM queues, escalates, preempts or handles as FATAL. -/
  | ermErrorRaise (b : Block) (inst : Fin 256) (code : BitVec 16) (sev : Severity)
  /-- FATAL_RESET (R478): FATAL_DELAY after a FATAL error the device resets with cause FATAL. -/
  | fatalReset
  /-- ERM_ACK (R474): A write of the current error's code to ERM_ACK acknowledges it, or is refused with ACK_MISMATCH. -/
  | ermAck (p : Principal) (code : BitVec 16)
  /-- ERM_FATAL_LOG_CLEAR (R479): Writing 1 to ERM_FATAL_LOG.VALID clears the FATAL log. -/
  | ermFatalLogClear (p : Principal)
  /-- AVE_BLOCK_LOCK_REGAINED (R330): A DOWN Avenue port regains block lock and returns to TRAINING. -/
  | aveBlockLockRegained (p : Fin 6)
  /-- ROLLING_TEST_OVERDUE (R150): A due rolling test postponed by more than one test period sets OVERDUE and raises WARN. -/
  | rollingTestOverdue
  /-- ISLAND_STARTUP_SELFTEST_END (R278): A safety island channel ends its start-up self-test and leaves INIT for OFF, or stays in INIT, or latches CPU or PARAM. -/
  | islandStartupSelftestEnd (ch : Fin 2) (ok : Bool) (paramOk : Bool)
  /-- VDD_SAFE_POWER_UP (R272): VDD_SAFE arrives and the processor channel of the safety island starts, with a reset input found high treated as STUCK_RESET. -/
  | vddSafePowerUp (rstHigh : Bool)
  /-- VDD_SAFE_LOSS (R268): VDD_SAFE is lost, the processor channel's switches open, a PENDING parameter set is lost and SAF reads are served from the mirror. -/
  | vddSafeLoss
  /-- VDD_FD_POWER_UP (R300): VDD_FD arrives and the field die starts, with every group in WAIT_EN, outputs off and CFG_SYNC = 0, and the hard-wired safety channel in INIT. -/
  | vddFdPowerUp (rstHigh : Bool)
  /-- VDD_FD_LOSS (R268): VDD_FD is lost, the hard-wired channel's switches open and the field die stops. -/
  | vddFdLoss
deriving DecidableEq, Repr, Inhabited

end Sys2Proof
end

