-- ==== Sys2Proof/Config.lean ====
section
/-!
DEFINITION. What the spec leaves open: free values, opaque and without a body, each applied to a counter of State that the step
reads and advances, so that a statement about one holds whatever it is. Nothing here can be evaluated.
-/

namespace Sys2Proof.Config

/-- The 64-bit nonce that SYS draws from its hardware random source (R52). -/
opaque nonce : Nat → BitVec 64

/-- What the cell of a word holds after its verification failed three times (R471: the old value, the new value or neither). -/
opaque cellAfterFail : Nat → BitVec 32

/-- Whether the value 1 of a SAF point, by its number of Table PTD-3, shows the pair in demand or the output open rather than healthy or energized: the spec
binds the points and does not say which level they read. -/
opaque safPolarity : Nat → Bool

/-- SHA-256 of the key in an OTP slot (R465), whether the slot is revoked, the OTP security version, and the SDRAM channel configuration held in OTP: programmed at manufacture
and at commissioning. -/
opaque otpKeyHash : Nat → List (BitVec 8)
opaque otpRevoked : Nat → Bool
opaque otpSecVer : Nat
opaque otpMemCfg : BitVec 32

/-- The public key that a payload of safety firmware carries: the spec gives it no place (R284, log 79). -/
opaque safFwKey : List (BitVec 8) → List (BitVec 8)

/-- The PCI-SIG identifier that OTP holds as the PCIe Vendor ID (R497). -/
opaque pcieVendorId : BitVec 16

/-- The serial number that AVE_SERIAL reads, factory set. No serial is 0, which a probe that names no device carries (DEDUCED, log 72). -/
opaque aveSerialLess1 : Fin 0xFFFFFFFF
def aveSerial : BitVec 32 := BitVec.ofNat 32 (aveSerialLess1.val + 1)

/-- The bytes over which the CRC-32C of a stream's write list takes one of its (address, data) pairs (R140), by what the pair writes, where and
with which data: the spec does not lay a pair out. -/
opaque writeBytes : Nat → Nat → Nat → List (BitVec 8)

/-- The velocity in counts per tick of an edge-counted source whose window holds one edge, by the tick and the count of that edge: R186 divides by
the time between the first and the last edge of the window, and one edge spans none. -/
opaque oneEdgeVel : Nat → Int → Rat

/-- A value that the spec leaves open, by the number of the draw. -/
opaque freeWord : Nat → BitVec 32

end Sys2Proof.Config
end

