-- ==== Sys2Proof/Machine/Bits.lean ====
section
/-!
DEFINITION. Bit fields, sign extension, saturation and byte order: the arithmetic helpers that the meanings share.
-/

namespace Sys2Proof.Machine

/-- Bits `[hi:lo]` of a natural number. -/
def bitsN (n hi lo : Nat) : Nat := (n / 2 ^ lo) % 2 ^ (hi + 1 - lo)

/-- Bits `[hi:lo]` of a word. -/
def bits (w : Word) (hi lo : Nat) : Nat := bitsN w.toNat hi lo

/-- Bit `i` of a word. -/
def bit (w : Word) (i : Nat) : Bool := w.getLsbD i

/-- A word from a number, wrapping at 2^32. -/
def word (n : Nat) : Word := BitVec.ofNat 32 n

/-- A word from an integer in two's complement. -/
def wordI (i : Int) : Word := BitVec.ofInt 32 i

/-- The signed reading of the low `w` bits of a number. -/
def sext (w n : Nat) : Int :=
  let m := n % 2 ^ w
  if m < 2 ^ (w - 1) then (m : Int) else (m : Int) - (2 : Int) ^ w

/-- Clamp an integer to `lo … hi`. -/
def clamp (lo hi x : Int) : Int := if x < lo then lo else if hi < x then hi else x

/-- Saturate to a signed value of `w` bits. -/
def satS (w : Nat) (x : Int) : Int := clamp (-(2 : Int) ^ (w - 1)) ((2 : Int) ^ (w - 1) - 1) x

/-- Saturate to the range of Q15 (R61): −32,768 … +32,767. -/
def sat16 (x : Int) : Int := satS 16 x

/-- A counter that saturates at `m`. -/
def satInc (m n : Nat) : Nat := if n < m then n + 1 else m

/-- A counter that wraps at 2^32. -/
def wrapInc (n : Nat) : Nat := (n + 1) % 2 ^ 32

/-- Set bit `i` of a word. -/
def setBit (w : Word) (i : Nat) : Word := w ||| word (2 ^ i)

/-- Clear bit `i` of a word. -/
def clrBit (w : Word) (i : Nat) : Word := w &&& ~~~ (word (2 ^ i))

/-- Write 1 to clear: the bits of `m` become 0 (Table SYS-1). -/
def w1c (w m : Word) : Word := w &&& ~~~ m

/-- A Boolean as a number. -/
def b2n (b : Bool) : Nat := if b then 1 else 0

/-- Bit `i` of a natural number. -/
def nbit (n i : Nat) : Bool := n.testBit i

/-- Set or clear bit `i` of a natural number. -/
def nput (n i : Nat) (b : Bool) : Nat :=
  if b then n ||| 2 ^ i else if n.testBit i then n - 2 ^ i else n

/-- Divide and round half to even (R61, R84). The divisor is positive. -/
def divRoundEven (n : Int) (d : Nat) : Int :=
  let q := n / (d : Int)
  let r := n - q * (d : Int)
  if 2 * r < (d : Int) then q
  else if (d : Int) < 2 * r then q + 1
  else if q % 2 = 0 then q else q + 1

/-- The numerator of a finite FLOAT32 pattern over 2^149: its value is `f32Num w / 2^149`. -/
def f32Num (w : Word) : Int :=
  let e := bits w 30 23
  let m := bits w 22 0
  let mag : Nat := if e = 0 then m else (m + 2 ^ 23) * 2 ^ (e - 1)
  if bit w 31 then - (mag : Int) else (mag : Int)

/-- A FLOAT32 pattern that is neither a NaN nor an infinity (R59). -/
def f32Finite (w : Word) : Bool := decide (bits w 30 23 ≠ 255)

/-- A FLOAT32 pattern that is a NaN. -/
def f32NaN (w : Word) : Bool := decide (bits w 30 23 = 255) && decide (bits w 22 0 ≠ 0)

/-- The four bytes of a word, least significant first (little-endian). -/
def wordBytes (w : Word) : List Byte :=
  [w.extractLsb' 0 8, w.extractLsb' 8 8, w.extractLsb' 16 8, w.extractLsb' 24 8]

/-- A little-endian number from bytes. -/
def leNat : List Byte → Nat
  | [] => 0
  | b :: bs => b.toNat + 256 * leNat bs

/-- A big-endian number from bytes. -/
def beNat (bs : List Byte) : Nat := bs.foldl (fun a b => a * 256 + b.toNat) 0

/-- The `n` bytes of a number, least significant first. -/
def natBytesLE (x : Nat) : Nat → List Byte
  | 0 => []
  | n + 1 => BitVec.ofNat 8 x :: natBytesLE (x / 256) n

/-- The `n` bytes of a number, most significant first. -/
def natBytesBE (x n : Nat) : List Byte := (natBytesLE x n).reverse

/-- The words of a little-endian byte list. -/
def bytesWords : List Byte → List Word
  | a :: b :: c :: d :: t => word (leNat [a, b, c, d]) :: bytesWords t
  | [] => []
  | t => [word (leNat t)]

/-- The number of set bits among the low `n` bits. -/
def popcount (x : Nat) : Nat → Nat
  | 0 => 0
  | n + 1 => b2n (x.testBit n) + popcount x n

/-- The element at `i`, or `d` beyond the end. -/
def nth {α : Type} (d : α) (l : List α) (i : Nat) : α := l.getD i d

/-- One step of a CRC over a byte, most significant bit first, polynomial `p` of width 16 (CRC-16/CCITT). -/
def crc16Step (crc : Nat) : Nat → Nat
  | 0 => crc
  | n + 1 =>
    let c := if crc.testBit 15 then ((crc * 2) ^^^ 0x1021) % 65536 else (crc * 2) % 65536
    crc16Step c n

/-- CRC-16/CCITT over bytes from a start value. -/
def crc16 (init : Nat) (bs : List Byte) : Nat :=
  bs.foldl (fun c b => crc16Step ((c ^^^ (b.toNat * 256)) % 65536) 8) init

/-- One reflected CRC-32C step. -/
def crc32Step (crc : Nat) : Nat → Nat
  | 0 => crc
  | n + 1 =>
    let c := if crc.testBit 0 then (crc / 2) ^^^ 0x82F63B78 else crc / 2
    crc32Step c n

/-- The CRC-32C of bytes that follow others whose CRC-32C is `crc`; 0 is that of no bytes. -/
def crc32cFrom (crc : Nat) (bs : List Byte) : Nat :=
  (bs.foldl (fun c b => crc32Step (c ^^^ b.toNat) 8) (crc ^^^ 0xFFFFFFFF)) ^^^ 0xFFFFFFFF

/-- CRC-32C (Castagnoli) over bytes (R174, R261, R471). -/
def crc32c (bs : List Byte) : Nat := crc32cFrom 0 bs

end Sys2Proof.Machine
end

