-- ==== Sys2Proof/Machine/RegMap.lean ====
section
/-!
DEFINITION. The register map: every register field group with write access of the register tables of the spec (Tables SYS-9 to
ERM-5) that is held as a register word, with its access code, writable bits, reset value and stated value ranges (R34, R499).
Status registers are fields of their block's own structure.
-/

namespace Sys2Proof.Machine

/-- A register by block and byte offset in the block's region (R32). -/
structure RegId where
  blk : Block
  off : Nat
deriving DecidableEq, Repr, Inhabited

/-- A stated value range of a field `[hi:lo]` (R499). -/
structure Rng where
  hi : Nat
  lo : Nat
  mn : Nat
  mx : Nat
deriving DecidableEq, Repr, Inhabited

/-- A row of the register map: `cnt` registers `stride` apart, on each of `pages` pages `pstride` apart. -/
structure RegRow where
  blk : Block
  off : Nat
  cnt : Nat
  stride : Nat
  pages : Nat
  pstride : Nat
  acc : Access
  mask : Nat
  reset : Nat
  rng : List Rng
deriving DecidableEq, Repr, Inhabited

def R.SYS_DC_CTRL : RegId := ⟨.sys, 0x300⟩
def R.SYS_DC_SRC_ADDR : RegId := ⟨.sys, 0x308⟩
def R.SYS_DC_SRC_LEN : RegId := ⟨.sys, 0x30C⟩
def R.SYS_DC_PARTY : RegId := ⟨.sys, 0x340⟩
def R.SYS_DC_TAG_LO : RegId := ⟨.sys, 0x344⟩
def R.SYS_DC_TAG_HI : RegId := ⟨.sys, 0x348⟩
def R.PTD_DIR_EDIT_LO : RegId := ⟨.ptd, 0x100⟩
def R.PTD_DIR_EDIT_HI : RegId := ⟨.ptd, 0x104⟩
def R.PTD_DIR_ACT_LO : RegId := ⟨.ptd, 0x108⟩
def R.PTD_DIR_ACT_HI : RegId := ⟨.ptd, 0x10C⟩
def R.PTD_COLD_LO : RegId := ⟨.ptd, 0x110⟩
def R.PTD_COLD_HI : RegId := ⟨.ptd, 0x114⟩
def R.PTD_CFG : RegId := ⟨.ptd, 0x118⟩
def R.PTD_FORCE_IDX : RegId := ⟨.ptd, 0x130⟩
def R.PTD_FORCE_VAL : RegId := ⟨.ptd, 0x134⟩
def R.PTD_FRAME_SEL : RegId := ⟨.ptd, 0x150⟩
def R.CE_SEL : RegId := ⟨.ce, 0x140⟩
def R.CE_TAB_HDR : RegId := ⟨.ce, 0x400⟩
def R.CE_TAB_DATA : RegId := ⟨.ce, 0x8000⟩
def R.XNG_POLICY : RegId := ⟨.xng, 0x100⟩
def R.XNG_TEST_PERIOD : RegId := ⟨.xng, 0x104⟩
def R.XNG_TEST_CTRL : RegId := ⟨.xng, 0x108⟩
def R.CSC_COORD : RegId := ⟨.csc, 0x204⟩
def R.CSC_CPR : RegId := ⟨.csc, 0x280⟩
def R.CSC_ZC_DLY : RegId := ⟨.csc, 0x300⟩
def R.CSC_COORD_SEL : RegId := ⟨.csc, 0x314⟩
def R.CSC_ENT_SEL : RegId := ⟨.csc, 0x340⟩
def R.CSC_GRP_SEL : RegId := ⟨.csc, 0x350⟩
def R.CSC_PORT_CFG : RegId := ⟨.csc, 0x380⟩
def R.MOT_ARG_POS_LO : RegId := ⟨.mot, 0x108⟩
def R.MOT_ARG_POS_HI : RegId := ⟨.mot, 0x10C⟩
def R.MOT_ARG_VEL : RegId := ⟨.mot, 0x110⟩
def R.MOT_GTGT : RegId := ⟨.mot, 0x140⟩
def R.MOT_SEL : RegId := ⟨.mot, 0x180⟩
def R.MOT_ENC_CFG : RegId := ⟨.mot, 0x200⟩
def R.MOT_DRV_CFG : RegId := ⟨.mot, 0x300⟩
def R.MOT_LIN_CFG : RegId := ⟨.mot, 0x340⟩
def R.ILP_CFG : RegId := ⟨.ilp, 0x100⟩
def R.ILP_EXEC_LIMIT : RegId := ⟨.ilp, 0x104⟩
def R.ILP_IMG_ADDR_LO : RegId := ⟨.ilp, 0x110⟩
def R.ILP_IMG_ADDR_HI : RegId := ⟨.ilp, 0x114⟩
def R.ILP_IMG_LEN : RegId := ⟨.ilp, 0x118⟩
def R.ILP_CHG_TGT : RegId := ⟨.ilp, 0x140⟩
def R.ILP_CHG_VAL : RegId := ⟨.ilp, 0x144⟩
def R.ILP_BP : RegId := ⟨.ilp, 0x180⟩
def R.FIO_SIL_CFG : RegId := ⟨.fio, 0x108⟩
def R.FIO_HOLD_TMO : RegId := ⟨.fio, 0x10C⟩
def R.FIO_AI_PHASE : RegId := ⟨.fio, 0x110⟩
def R.FIO_TEST : RegId := ⟨.fio, 0x124⟩
def R.FIO_CH_CFG : RegId := ⟨.fio, 0x200⟩
def R.FIO_AI_CFG : RegId := ⟨.fio, 0x280⟩
def R.FIO_AO_CFG : RegId := ⟨.fio, 0x2C0⟩
def R.LNE_ETYPE : RegId := ⟨.lne, 0x100⟩
def R.LNE_CFG : RegId := ⟨.lne, 0x1000⟩
def R.LNE_CFG2 : RegId := ⟨.lne, 0x1004⟩
def R.LNE_MAC_LO : RegId := ⟨.lne, 0x1008⟩
def R.LNE_MAC_HI : RegId := ⟨.lne, 0x100C⟩
def R.LNE_INJ_RULE : RegId := ⟨.lne, 0x1044⟩
def R.LNE_INJ_DLY : RegId := ⟨.lne, 0x1048⟩
def R.LNE_STA_SEL : RegId := ⟨.lne, 0x1060⟩
def R.LNE_ETH_RING_LO : RegId := ⟨.lne, 0x1100⟩
def R.LNE_ETH_RING_HI : RegId := ⟨.lne, 0x1104⟩
def R.LNE_ETH_RING_CFG : RegId := ⟨.lne, 0x1108⟩
def R.LNE_STA_D0 : RegId := ⟨.lne, 0x1800⟩
def R.LNE_STA_D1 : RegId := ⟨.lne, 0x1804⟩
def R.LNE_STA_D2 : RegId := ⟨.lne, 0x1808⟩
def R.LNE_STA_D3 : RegId := ⟨.lne, 0x180C⟩
def R.AVE_CFG : RegId := ⟨.ave, 0x108⟩
def R.AVE_REQ_TMO : RegId := ⟨.ave, 0x114⟩
def R.AVE_PIN : RegId := ⟨.ave, 0x200⟩
def R.AVE_PIN_EN : RegId := ⟨.ave, 0x204⟩
def R.AVE_REC_LIMIT : RegId := ⟨.ave, 0x500⟩
def R.AVE_INJ_RULE : RegId := ⟨.ave, 0x1044⟩
def R.AVE_INJ_DLY : RegId := ⟨.ave, 0x1048⟩
def R.TIM_CFG : RegId := ⟨.tim, 0x100⟩
def R.TIM_SRV_GAIN : RegId := ⟨.tim, 0x118⟩
def R.TIM_SRV_STEP : RegId := ⟨.tim, 0x11C⟩
def R.TIM_SRV_LOCK : RegId := ⟨.tim, 0x120⟩
def R.TIM_SRV_ADJMAX : RegId := ⟨.tim, 0x124⟩
def R.TIM_SRV_INT : RegId := ⟨.tim, 0x128⟩
def R.TIM_OFS_LO : RegId := ⟨.tim, 0x134⟩
def R.TIM_SET_LO : RegId := ⟨.tim, 0x140⟩
def R.TIM_FAB_INT : RegId := ⟨.tim, 0x148⟩
def R.TIM_COARSE_CFG : RegId := ⟨.tim, 0x150⟩
def R.TIM_TS_CFG : RegId := ⟨.tim, 0x200⟩
def R.TIM_FAB_ASYM : RegId := ⟨.tim, 0x300⟩
def R.ACQ_SESS_CFG : RegId := ⟨.acq, 0x100⟩
def R.ACQ_PRE_T : RegId := ⟨.acq, 0x104⟩
def R.ACQ_POST_T : RegId := ⟨.acq, 0x108⟩
def R.ACQ_MEM_BASE_LO : RegId := ⟨.acq, 0x10C⟩
def R.ACQ_MEM_BASE_HI : RegId := ⟨.acq, 0x110⟩
def R.ACQ_MEM_SIZE : RegId := ⟨.acq, 0x114⟩
def R.ACQ_FAB_MASK_LO : RegId := ⟨.acq, 0x148⟩
def R.ACQ_FAB_MASK_HI : RegId := ⟨.acq, 0x14C⟩
def R.ACQ_CNT_PRE : RegId := ⟨.acq, 0x160⟩
def R.ACQ_TMR_PRE : RegId := ⟨.acq, 0x170⟩
def R.ACQ_CH_W0 : RegId := ⟨.acq, 0x400⟩
def R.ACQ_CH_W1 : RegId := ⟨.acq, 0x404⟩
def R.ACQ_CH_W2 : RegId := ⟨.acq, 0x408⟩
def R.ACQ_CH_W3 : RegId := ⟨.acq, 0x40C⟩
def R.ACQ_SEQ : RegId := ⟨.acq, 0x800⟩
def R.ACQ_SEQ_Q1 : RegId := ⟨.acq, 0x804⟩
def R.ACQ_SEQ_Q2 : RegId := ⟨.acq, 0x808⟩
def R.HRC_RING_LO : RegId := ⟨.hrc, 0x100⟩
def R.HRC_RING_HI : RegId := ⟨.hrc, 0x104⟩
def R.HRC_RING_SIZE : RegId := ⟨.hrc, 0x108⟩
def R.HRC_STATE_LO : RegId := ⟨.hrc, 0x10C⟩
def R.HRC_STATE_HI : RegId := ⟨.hrc, 0x110⟩
def R.HRC_RESERVE : RegId := ⟨.hrc, 0x114⟩
def R.HRC_OC_BURST : RegId := ⟨.hrc, 0x118⟩
def R.HRC_BLK_AGE : RegId := ⟨.hrc, 0x11C⟩
def R.HRC_HOST_CFG : RegId := ⟨.hrc, 0x120⟩
def R.HRC_CREDIT : RegId := ⟨.hrc, 0x124⟩
def R.EVR_FRZ_MAX : RegId := ⟨.evr, 0x128⟩
def R.EVR_WIN_BASE : RegId := ⟨.evr, 0x12C⟩
def R.EVR_DUMP_ADDR_LO : RegId := ⟨.evr, 0x130⟩
def R.EVR_DUMP_ADDR_HI : RegId := ⟨.evr, 0x134⟩
def R.EVR_DUMP_CFG : RegId := ⟨.evr, 0x138⟩
def R.HTS_AUTO_CFG : RegId := ⟨.hts, 0x10C⟩
def R.HTS_CORE_EN : RegId := ⟨.hts, 0x114⟩
def R.HTS_WAIT_MAX : RegId := ⟨.hts, 0x118⟩
def R.HTS_SUB_LO : RegId := ⟨.hts, 0x1018⟩
def R.HTS_SUB_HI : RegId := ⟨.hts, 0x101C⟩
def R.HTS_FSET_TASK : RegId := ⟨.hts, 0x1028⟩
def R.HTS_T0 : RegId := ⟨.hts, 0x2000⟩
def R.HTS_FLOW : RegId := ⟨.hts, 0x4000⟩
def R.HTS_ROUTE0 : RegId := ⟨.hts, 0x8000⟩
def R.HTS_ROUTE1 : RegId := ⟨.hts, 0x8004⟩
def R.CPU_CORE_EN : RegId := ⟨.cpu, 0x100⟩
def R.CPU_RESET_VEC_LO : RegId := ⟨.cpu, 0x110⟩
def R.CPU_RESET_VEC_HI : RegId := ⟨.cpu, 0x114⟩
def R.CPU_MTIMECMP : RegId := ⟨.cpu, 0x210⟩
def R.MEM_CFG : RegId := ⟨.mem, 0x100⟩
def R.MEM_SCRUB : RegId := ⟨.mem, 0x108⟩
def R.HIF_AP_BASE : RegId := ⟨.hif, 0x104⟩
def R.RING_BASE_LO : RegId := ⟨.hif, 0x200⟩
def R.RING_BASE_HI : RegId := ⟨.hif, 0x204⟩
def R.RING_CFG : RegId := ⟨.hif, 0x208⟩
def R.CAN_CFG : RegId := ⟨.can, 0x1000⟩
def R.CAN_NBT : RegId := ⟨.can, 0x1004⟩
def R.CAN_DBT : RegId := ⟨.can, 0x1008⟩
def R.CAN_TDC : RegId := ⟨.can, 0x100C⟩
def R.CAN_WAKE_ID : RegId := ⟨.can, 0x1034⟩
def R.CAN_WAKE_MASK : RegId := ⟨.can, 0x1038⟩
def R.CAN_WAKE_DATA : RegId := ⟨.can, 0x103C⟩
def R.CAN_F0 : RegId := ⟨.can, 0x1400⟩
def R.CAN_F1 : RegId := ⟨.can, 0x1404⟩
def R.CAN_F2 : RegId := ⟨.can, 0x1408⟩
def R.CLK_CFG : RegId := ⟨.clk, 0x100⟩
def R.PMC_ECO_MASK : RegId := ⟨.pmc, 0x110⟩
def R.PMC_WAKE_EN : RegId := ⟨.pmc, 0x114⟩
def R.PMC_ALARM_LO : RegId := ⟨.pmc, 0x11C⟩
def R.PMC_ALARM_HI : RegId := ⟨.pmc, 0x120⟩
def R.PMC_WAKE_TGT : RegId := ⟨.pmc, 0x124⟩
def R.PMC_RESUME_LO : RegId := ⟨.pmc, 0x128⟩
def R.PMC_RESUME_HI : RegId := ⟨.pmc, 0x12C⟩
def R.PMC_RESUME_LEN : RegId := ⟨.pmc, 0x130⟩
def R.ERM_CFG : RegId := ⟨.erm, 0x100⟩
def R.ERM_PUSH_LEN : RegId := ⟨.erm, 0x14C⟩

/-- The register map rows of SYS. -/
def regRows.sys : List RegRow :=
  [ ⟨.sys, 0x300, 1, 4, 1, 0x1000, .rw, 0x700, 0x0, []⟩,
    ⟨.sys, 0x308, 1, 4, 1, 0x1000, .rw, 0xFFFFFFFF, 0x0, []⟩,
    ⟨.sys, 0x30C, 1, 4, 1, 0x1000, .rw, 0xFFFFFFFF, 0x0, []⟩,
    ⟨.sys, 0x340, 1, 4, 1, 0x1000, .rw, 0x3, 0x0, []⟩,
    ⟨.sys, 0x344, 1, 4, 1, 0x1000, .rw, 0xFFFFFFFF, 0x0, []⟩,
    ⟨.sys, 0x348, 1, 4, 1, 0x1000, .rw, 0xFFFFFFFF, 0x0, []⟩ ]

/-- The register map rows of PTD. -/
def regRows.ptd : List RegRow :=
  [ ⟨.ptd, 0x100, 1, 4, 1, 0x1000, .rwl, 0xFFFFFFFF, 0x0, [⟨23, 0, 0, 0⟩]⟩,
    ⟨.ptd, 0x104, 1, 4, 1, 0x1000, .rwl, 0xFF, 0x0, []⟩,
    ⟨.ptd, 0x108, 1, 4, 1, 0x1000, .rwl, 0xFFFFFFFF, 0x0, [⟨23, 0, 0, 0⟩]⟩,
    ⟨.ptd, 0x10C, 1, 4, 1, 0x1000, .rwl, 0xFF, 0x0, []⟩,
    ⟨.ptd, 0x110, 1, 4, 1, 0x1000, .rwl, 0xFFFFFFFF, 0x0, [⟨21, 0, 0, 0⟩]⟩,
    ⟨.ptd, 0x114, 1, 4, 1, 0x1000, .rwl, 0xFF, 0x0, []⟩,
    ⟨.ptd, 0x118, 1, 4, 1, 0x1000, .rwc, 0x1, 0x0, []⟩,
    ⟨.ptd, 0x130, 1, 4, 1, 0x1000, .rw, 0x7FFFF, 0x0, []⟩,
    ⟨.ptd, 0x134, 1, 4, 1, 0x1000, .rw, 0xFFFFFFFF, 0x0, []⟩,
    ⟨.ptd, 0x150, 1, 4, 1, 0x1000, .rw, 0x1FFF, 0x0, []⟩ ]

/-- The register map rows of CE. -/
def regRows.ce : List RegRow :=
  [ ⟨.ce, 0x140, 1, 4, 1, 0x1000, .rw, 0x3FF, 0x0, []⟩,
    ⟨.ce, 0x400, 128, 4, 1, 0x1000, .rw, 0xFFFFFFFF, 0x0, []⟩,
    ⟨.ce, 0x8000, 8192, 4, 1, 0x1000, .rw, 0xFFFFFFFF, 0x0, []⟩ ]

/-- The register map rows of XNG. -/
def regRows.xng : List RegRow :=
  [ ⟨.xng, 0x100, 1, 4, 1, 0x1000, .rwl, 0xFFFF0FF3, 0xE100382, [⟨11, 8, 1, 15⟩, ⟨31, 16, 1, 65535⟩]⟩,
    ⟨.xng, 0x104, 1, 4, 1, 0x1000, .rwc, 0x3FF, 0x1E, [⟨9, 0, 5, 600⟩]⟩,
    ⟨.xng, 0x108, 1, 4, 1, 0x1000, .rw, 0x1, 0x0, []⟩ ]

/-- The register map rows of CSC. -/
def regRows.csc : List RegRow :=
  [ ⟨.csc, 0x204, 31, 4, 1, 0x1000, .rwc, 0xFFF7, 0x0, [⟨15, 12, 0, 10⟩]⟩,
    ⟨.csc, 0x280, 32, 4, 1, 0x1000, .rwc, 0xFFFFFFFF, 0x0, []⟩,
    ⟨.csc, 0x300, 2, 4, 1, 0x1000, .rwc, 0xFFFFF, 0x0, []⟩,
    ⟨.csc, 0x314, 1, 4, 1, 0x1000, .rw, 0x1F, 0x0, []⟩,
    ⟨.csc, 0x340, 1, 4, 1, 0x1000, .rw, 0xFFFF, 0x0, []⟩,
    ⟨.csc, 0x350, 1, 4, 1, 0x1000, .rw, 0xFF, 0x0, []⟩,
    ⟨.csc, 0x380, 8, 4, 1, 0x1000, .rwc, 0x1FFFFF, 0x80FA0, [⟨15, 0, 50, 4000⟩, ⟨20, 16, 1, 32⟩]⟩ ]

/-- The register map rows of MOT. -/
def regRows.mot : List RegRow :=
  [ ⟨.mot, 0x108, 1, 4, 1, 0x1000, .rw, 0xFFFFFFFF, 0x0, []⟩,
    ⟨.mot, 0x10C, 1, 4, 1, 0x1000, .rw, 0xFFFFFFFF, 0x0, []⟩,
    ⟨.mot, 0x110, 1, 4, 1, 0x1000, .rw, 0xFFFFFFFF, 0x0, []⟩,
    ⟨.mot, 0x140, 16, 4, 1, 0x1000, .rw, 0xFFFFFFFF, 0x0, []⟩,
    ⟨.mot, 0x180, 1, 4, 1, 0x1000, .rw, 0x7F, 0x0, []⟩,
    ⟨.mot, 0x200, 16, 4, 1, 0x1000, .rwc, 0x7F, 0x0, []⟩,
    ⟨.mot, 0x300, 16, 4, 1, 0x1000, .rwc, 0x7FFF, 0x2710, [⟨14, 0, 5000, 20000⟩]⟩,
    ⟨.mot, 0x340, 1, 4, 1, 0x1000, .rwc, 0xFF, 0x0, []⟩ ]

/-- The register map rows of ILP. -/
def regRows.ilp : List RegRow :=
  [ ⟨.ilp, 0x100, 1, 4, 1, 0x1000, .rwc, 0xF3FFF, 0x3000A, [⟨13, 0, 1, 10000⟩, ⟨19, 16, 1, 15⟩]⟩,
    ⟨.ilp, 0x104, 1, 4, 1, 0x1000, .rwc, 0xFFFFFFFF, 0x3D0900, [⟨31, 0, 1000, 40000000⟩]⟩,
    ⟨.ilp, 0x110, 1, 4, 1, 0x1000, .rwl, 0xFFFFFFFF, 0x0, [⟨1, 0, 0, 0⟩]⟩,
    ⟨.ilp, 0x114, 1, 4, 1, 0x1000, .rwl, 0xFF, 0x0, []⟩,
    ⟨.ilp, 0x118, 1, 4, 1, 0x1000, .rwl, 0xFFFFFFFF, 0x0, []⟩,
    ⟨.ilp, 0x140, 1, 4, 1, 0x1000, .rw, 0xFFFF07, 0x0, []⟩,
    ⟨.ilp, 0x144, 1, 4, 1, 0x1000, .rw, 0xFFFFFFFF, 0x0, []⟩,
    ⟨.ilp, 0x180, 8, 4, 1, 0x1000, .rw, 0x8003FFFF, 0x0, []⟩ ]

/-- The register map rows of FIO. -/
def regRows.fio : List RegRow :=
  [ ⟨.fio, 0x108, 1, 4, 1, 0x1000, .rwc, 0x7F, 0xA, [⟨6, 0, 1, 100⟩]⟩,
    ⟨.fio, 0x10C, 1, 4, 1, 0x1000, .rwc, 0xFFFF, 0x64, [⟨15, 0, 1, 60000⟩]⟩,
    ⟨.fio, 0x110, 1, 4, 1, 0x1000, .rwl, 0xFF, 0x64, [⟨7, 0, 0, 199⟩]⟩,
    ⟨.fio, 0x124, 1, 4, 1, 0x1000, .rw, 0x3, 0x0, []⟩,
    ⟨.fio, 0x200, 32, 4, 1, 0x1000, .rwc, 0x77F, 0x0, []⟩,
    ⟨.fio, 0x280, 8, 4, 1, 0x1000, .rwc, 0x1, 0x0, []⟩,
    ⟨.fio, 0x2C0, 4, 4, 1, 0x1000, .rwc, 0xFFFF000D, 0x0, []⟩ ]

/-- The register map rows of LNE. -/
def regRows.lne : List RegRow :=
  [ ⟨.lne, 0x100, 1, 4, 1, 0x1000, .rwl, 0xFFFF, 0x88B5, []⟩,
    ⟨.lne, 0x1000, 1, 4, 8, 0x1000, .rwl, 0x1FFFF07, 0x80400, [⟨15, 8, 1, 255⟩, ⟨24, 16, 2, 320⟩]⟩,
    ⟨.lne, 0x1004, 1, 4, 8, 0x1000, .rwl, 0x7F, 0x46, [⟨6, 0, 10, 90⟩]⟩,
    ⟨.lne, 0x1008, 1, 4, 8, 0x1000, .rwl, 0xFFFFFFFF, 0x0, []⟩,
    ⟨.lne, 0x100C, 1, 4, 8, 0x1000, .rwl, 0xFFFF, 0x0, []⟩,
    ⟨.lne, 0x1044, 1, 4, 8, 0x1000, .rw, 0xFFFF3FFF, 0x0, []⟩,
    ⟨.lne, 0x1048, 1, 4, 8, 0x1000, .rw, 0xFF, 0x0, [⟨7, 0, 1, 255⟩]⟩,
    ⟨.lne, 0x1060, 1, 4, 8, 0x1000, .rw, 0x7F, 0x0, []⟩,
    ⟨.lne, 0x1100, 1, 4, 8, 0x1000, .rwl, 0xFFFFFFFF, 0x0, [⟨11, 0, 0, 0⟩]⟩,
    ⟨.lne, 0x1104, 1, 4, 8, 0x1000, .rwl, 0xFF, 0x0, []⟩,
    ⟨.lne, 0x1108, 1, 4, 8, 0x1000, .rwl, 0xFFF0FFF, 0x0, []⟩,
    ⟨.lne, 0x1800, 128, 16, 8, 0x1000, .rwc, 0xFFFF7F03, 0x0, []⟩,
    ⟨.lne, 0x1804, 128, 16, 8, 0x1000, .rwc, 0xFFFFFFFF, 0x0, []⟩,
    ⟨.lne, 0x1808, 128, 16, 8, 0x1000, .rwc, 0x7FF07FF, 0x0, []⟩,
    ⟨.lne, 0x180C, 128, 16, 8, 0x1000, .rwc, 0xFFFFFF7F, 0x0, []⟩ ]

/-- The register map rows of AVE. -/
def regRows.ave : List RegRow :=
  [ ⟨.ave, 0x108, 1, 4, 1, 0x1000, .rwl, 0x3FFFF03, 0xA0A00, [⟨15, 8, 2, 100⟩, ⟨25, 16, 1, 1000⟩]⟩,
    ⟨.ave, 0x114, 1, 4, 1, 0x1000, .rwc, 0x3FFF, 0x64, [⟨13, 0, 10, 10000⟩]⟩,
    ⟨.ave, 0x200, 64, 8, 1, 0x1000, .rwl, 0xFFFFFFFF, 0x0, []⟩,
    ⟨.ave, 0x204, 64, 8, 1, 0x1000, .rwl, 0x1, 0x0, []⟩,
    ⟨.ave, 0x500, 1, 4, 1, 0x1000, .rwl, 0x1FFF, 0x1770, [⟨12, 0, 100, 6000⟩]⟩,
    ⟨.ave, 0x1044, 1, 4, 6, 0x1000, .rw, 0xFFFF3FFF, 0x0, []⟩,
    ⟨.ave, 0x1048, 1, 4, 6, 0x1000, .rw, 0xFF, 0x0, [⟨7, 0, 1, 255⟩]⟩ ]

/-- The register map rows of TIM. -/
def regRows.tim : List RegRow :=
  [ ⟨.tim, 0x100, 1, 4, 1, 0x1000, .rwc, 0x1F, 0x0, []⟩,
    ⟨.tim, 0x118, 1, 4, 1, 0x1000, .rwc, 0xFFFFFFFF, 0x200080, []⟩,
    ⟨.tim, 0x11C, 1, 4, 1, 0x1000, .rwc, 0xFFFFFFFF, 0x3E8, [⟨31, 0, 100, 1000000000⟩]⟩,
    ⟨.tim, 0x120, 1, 4, 1, 0x1000, .rwc, 0xF0FFFFF, 0x3040064, [⟨19, 16, 1, 15⟩, ⟨27, 24, 1, 15⟩]⟩,
    ⟨.tim, 0x124, 1, 4, 1, 0x1000, .rwc, 0xFFFFFFFF, 0x186A0, [⟨31, 0, 1000, 500000⟩]⟩,
    ⟨.tim, 0x128, 1, 4, 1, 0x1000, .rwc, 0xFFFFFFFF, 0x1E848, [⟨31, 0, 1000, 16000000⟩]⟩,
    ⟨.tim, 0x134, 1, 4, 1, 0x1000, .wo, 0xFFFFFFFF, 0x0, []⟩,
    ⟨.tim, 0x140, 1, 4, 1, 0x1000, .wo, 0xFFFFFFFF, 0x0, []⟩,
    ⟨.tim, 0x148, 1, 4, 1, 0x1000, .rwc, 0xFFFFFFFF, 0x7D, [⟨31, 0, 31, 10000⟩]⟩,
    ⟨.tim, 0x150, 1, 4, 1, 0x1000, .rwc, 0xFFFFFFFF, 0x3E800C8, []⟩,
    ⟨.tim, 0x200, 8, 32, 1, 0x1000, .rwc, 0xF, 0x0, []⟩,
    ⟨.tim, 0x300, 6, 4, 1, 0x1000, .rwc, 0xFFFFFFFF, 0x0, []⟩ ]

/-- The register map rows of ACQ. -/
def regRows.acq : List RegRow :=
  [ ⟨.acq, 0x100, 1, 4, 1, 0x1000, .rwl, 0xFF, 0x1, []⟩,
    ⟨.acq, 0x104, 1, 4, 1, 0x1000, .rwl, 0xFFFFFFFF, 0x0, []⟩,
    ⟨.acq, 0x108, 1, 4, 1, 0x1000, .rwl, 0xFFFFFFFF, 0x0, []⟩,
    ⟨.acq, 0x10C, 1, 4, 1, 0x1000, .rwl, 0xFFFFFFFF, 0x0, []⟩,
    ⟨.acq, 0x110, 1, 4, 1, 0x1000, .rwl, 0xFF, 0x0, []⟩,
    ⟨.acq, 0x114, 1, 4, 1, 0x1000, .rwl, 0xFFFFF, 0x0, []⟩,
    ⟨.acq, 0x148, 1, 4, 1, 0x1000, .rwl, 0xFFFFFFFF, 0x0, []⟩,
    ⟨.acq, 0x14C, 1, 4, 1, 0x1000, .rwl, 0xFFFFFFFF, 0x0, []⟩,
    ⟨.acq, 0x160, 4, 4, 1, 0x1000, .rwl, 0xFFFFFFFF, 0x0, []⟩,
    ⟨.acq, 0x170, 4, 4, 1, 0x1000, .rwl, 0xFFFFFFFF, 0x0, []⟩,
    ⟨.acq, 0x400, 64, 16, 1, 0x1000, .rwl, 0x8007FFFF, 0x0, []⟩,
    ⟨.acq, 0x404, 64, 16, 1, 0x1000, .rwl, 0xFFFF0007, 0x0, []⟩,
    ⟨.acq, 0x408, 64, 16, 1, 0x1000, .rwl, 0x1FFFF, 0x0, []⟩,
    ⟨.acq, 0x40C, 64, 16, 1, 0x1000, .rwl, 0x3FFFF, 0x0, []⟩,
    ⟨.acq, 0x800, 64, 16, 1, 0x1000, .rwl, 0x3F7FF, 0x0, []⟩,
    ⟨.acq, 0x804, 64, 16, 1, 0x1000, .rwl, 0xFFFFFFFF, 0x0, []⟩,
    ⟨.acq, 0x808, 64, 16, 1, 0x1000, .rwl, 0x3FFFFFFF, 0x0, []⟩ ]

/-- The register map rows of HRC. -/
def regRows.hrc : List RegRow :=
  [ ⟨.hrc, 0x100, 1, 4, 1, 0x1000, .rwl, 0xFFFFFFFF, 0x0, [⟨19, 0, 0, 0⟩]⟩,
    ⟨.hrc, 0x104, 1, 4, 1, 0x1000, .rwl, 0xFF, 0x0, []⟩,
    ⟨.hrc, 0x108, 1, 4, 1, 0x1000, .rwl, 0x3FFF, 0x400, [⟨13, 0, 16, 8192⟩]⟩,
    ⟨.hrc, 0x10C, 1, 4, 1, 0x1000, .rwl, 0xFFFFFFFF, 0x0, [⟨23, 0, 0, 0⟩]⟩,
    ⟨.hrc, 0x110, 1, 4, 1, 0x1000, .rwl, 0xFF, 0x0, []⟩,
    ⟨.hrc, 0x114, 1, 4, 1, 0x1000, .rwc, 0x3FF, 0x0, [⟨9, 0, 0, 512⟩]⟩,
    ⟨.hrc, 0x118, 1, 4, 1, 0x1000, .rwc, 0xFF, 0x10, [⟨7, 0, 1, 255⟩]⟩,
    ⟨.hrc, 0x11C, 1, 4, 1, 0x1000, .rwc, 0x3FF, 0xA, [⟨9, 0, 1, 1000⟩]⟩,
    ⟨.hrc, 0x120, 1, 4, 1, 0x1000, .rwl, 0x107, 0x0, []⟩,
    ⟨.hrc, 0x124, 1, 4, 1, 0x1000, .rwl, 0x7F, 0x10, [⟨6, 0, 1, 64⟩]⟩ ]

/-- The register map rows of EVR. -/
def regRows.evr : List RegRow :=
  [ ⟨.evr, 0x128, 1, 4, 1, 0x1000, .rw, 0x3FFF, 0x64, [⟨13, 0, 1, 10000⟩]⟩,
    ⟨.evr, 0x12C, 1, 4, 1, 0x1000, .rw, 0x7FFF, 0x0, []⟩,
    ⟨.evr, 0x130, 1, 4, 1, 0x1000, .rw, 0xFFFFFFFF, 0x0, []⟩,
    ⟨.evr, 0x134, 1, 4, 1, 0x1000, .rw, 0xFF, 0x0, []⟩,
    ⟨.evr, 0x138, 1, 4, 1, 0x1000, .rw, 0x7FFF0003, 0x0, []⟩ ]

/-- The register map rows of HTS. -/
def regRows.hts : List RegRow :=
  [ ⟨.hts, 0x10C, 1, 4, 1, 0x1000, .rw, 0x3F007F, 0xA000A, [⟨6, 0, 1, 100⟩, ⟨21, 16, 1, 60⟩]⟩,
    ⟨.hts, 0x114, 1, 4, 1, 0x1000, .rw, 0xFF, 0x0, []⟩,
    ⟨.hts, 0x118, 1, 4, 1, 0x1000, .rw, 0x3FF, 0x64, [⟨9, 0, 1, 1000⟩]⟩,
    ⟨.hts, 0x1018, 1, 4, 8, 0x40, .rw, 0xFFFFFFFF, 0x0, []⟩,
    ⟨.hts, 0x101C, 1, 4, 8, 0x40, .rw, 0xFFFFFFFF, 0x0, []⟩,
    ⟨.hts, 0x1028, 1, 4, 8, 0x40, .rw, 0x1FF, 0x0, []⟩,
    ⟨.hts, 0x2000, 512, 16, 1, 0x1000, .rw, 0x17FF1F, 0x0, []⟩,
    ⟨.hts, 0x4000, 4096, 4, 1, 0x1000, .rwc, 0x800001FF, 0x0, []⟩,
    ⟨.hts, 0x8000, 256, 8, 1, 0x1000, .rwc, 0x83FFFFFF, 0x0, []⟩,
    ⟨.hts, 0x8004, 256, 8, 1, 0x1000, .rwc, 0x7FF07FF, 0x0, []⟩ ]

/-- The register map rows of CPU. -/
def regRows.cpu : List RegRow :=
  [ ⟨.cpu, 0x100, 1, 4, 1, 0x1000, .rw, 0xFF, 0x1, []⟩,
    ⟨.cpu, 0x110, 1, 4, 1, 0x1000, .rw, 0xFFFFFFFF, 0x0, [⟨1, 0, 0, 0⟩]⟩,
    ⟨.cpu, 0x114, 1, 4, 1, 0x1000, .rw, 0xFFFFFFFF, 0x0, []⟩,
    ⟨.cpu, 0x210, 16, 4, 1, 0x1000, .rw, 0xFFFFFFFF, 0xFFFFFFFF, []⟩ ]

/-- The register map rows of MEM. -/
def regRows.mem : List RegRow :=
  [ ⟨.mem, 0x100, 1, 4, 1, 0x1000, .rwl, 0x333, 0x0, []⟩,
    ⟨.mem, 0x108, 1, 4, 1, 0x1000, .rwc, 0xFF, 0x18, [⟨7, 0, 0, 168⟩]⟩ ]

/-- The register map rows of HIF. -/
def regRows.hif : List RegRow :=
  [ ⟨.hif, 0x104, 1, 4, 1, 0x1000, .rw, 0x3FF, 0x0, []⟩,
    ⟨.hif, 0x200, 1, 4, 8, 0x20, .rwl, 0xFFFFFFFF, 0x0, [⟨5, 0, 0, 0⟩]⟩,
    ⟨.hif, 0x204, 1, 4, 8, 0x20, .rwl, 0xFFFFFFFF, 0x0, []⟩,
    ⟨.hif, 0x208, 1, 4, 8, 0x20, .rwl, 0x3F071FFF, 0x0, []⟩ ]

/-- The register map rows of CAN. -/
def regRows.can : List RegRow :=
  [ ⟨.can, 0x1000, 1, 4, 4, 0x1000, .rwl, 0x7F, 0x0, []⟩,
    ⟨.can, 0x1004, 1, 4, 4, 0x1000, .rwl, 0x7F7FFFFF, 0x0, []⟩,
    ⟨.can, 0x1008, 1, 4, 4, 0x1000, .rwl, 0xF0F1F1F, 0x0, []⟩,
    ⟨.can, 0x100C, 1, 4, 4, 0x1000, .rwl, 0x7F, 0x0, []⟩,
    ⟨.can, 0x1034, 1, 4, 4, 0x1000, .rwl, 0x3FFFFFFF, 0x0, []⟩,
    ⟨.can, 0x1038, 1, 4, 4, 0x1000, .rwl, 0x1FFFFFFF, 0x0, []⟩,
    ⟨.can, 0x103C, 1, 4, 4, 0x1000, .rwl, 0xFFFFFF, 0x0, [⟨23, 16, 1, 255⟩]⟩,
    ⟨.can, 0x1400, 128, 16, 4, 0x1000, .rwl, 0xBFFFFFFF, 0x0, []⟩,
    ⟨.can, 0x1404, 128, 16, 4, 0x1000, .rwl, 0x1FFFFFFF, 0x0, []⟩,
    ⟨.can, 0x1408, 128, 16, 4, 0x1000, .rwl, 0x13F, 0x0, []⟩ ]

/-- The register map rows of CLK. -/
def regRows.clk : List RegRow :=
  [ ⟨.clk, 0x100, 1, 4, 1, 0x1000, .rw, 0x3FFFF3F, 0x141410, [⟨4, 0, 12, 20⟩, ⟨15, 8, 1, 255⟩, ⟨25, 16, 1, 1000⟩]⟩ ]

/-- The register map rows of PMC. -/
def regRows.pmc : List RegRow :=
  [ ⟨.pmc, 0x110, 1, 4, 1, 0x1000, .rwc, 0x1FFF, 0x44, []⟩,
    ⟨.pmc, 0x114, 1, 4, 1, 0x1000, .rw, 0x1FFFFF, 0x1, []⟩,
    ⟨.pmc, 0x11C, 1, 4, 1, 0x1000, .rw, 0xFFFFFFFF, 0x0, []⟩,
    ⟨.pmc, 0x120, 1, 4, 1, 0x1000, .rw, 0xFFFFFFFF, 0x0, []⟩,
    ⟨.pmc, 0x124, 1, 4, 1, 0x1000, .rw, 0x1, 0x0, []⟩,
    ⟨.pmc, 0x128, 1, 4, 1, 0x1000, .rw, 0xFFFFFFFF, 0x0, []⟩,
    ⟨.pmc, 0x12C, 1, 4, 1, 0x1000, .rw, 0xFFFFFFFF, 0x0, []⟩,
    ⟨.pmc, 0x130, 1, 4, 1, 0x1000, .rw, 0x1FFFFFF, 0x0, [⟨24, 0, 0, 16777216⟩]⟩ ]

/-- The register map rows of ERM. -/
def regRows.erm : List RegRow :=
  [ ⟨.erm, 0x100, 1, 4, 1, 0x1000, .rw, 0xFFFF0007, 0x14140001, [⟨23, 16, 1, 255⟩, ⟨31, 24, 5, 200⟩]⟩,
    ⟨.erm, 0x14C, 1, 4, 1, 0x1000, .rw, 0xFFFFFFFF, 0x0, []⟩ ]

/-- The register map rows of a block. -/
def regRows : Block → List RegRow
  | .sys => regRows.sys
  | .clk => regRows.clk
  | .pmc => regRows.pmc
  | .erm => regRows.erm
  | .ret => []
  | .tim => regRows.tim
  | .hts => regRows.hts
  | .ptd => regRows.ptd
  | .ce => regRows.ce
  | .xng => regRows.xng
  | .rsq => []
  | .csc => regRows.csc
  | .mot => regRows.mot
  | .ilp => regRows.ilp
  | .saf => []
  | .fio => regRows.fio
  | .lne => regRows.lne
  | .ave => regRows.ave
  | .acq => regRows.acq
  | .hrc => regRows.hrc
  | .evr => regRows.evr
  | .can => regRows.can
  | .hif => regRows.hif
  | .mem => regRows.mem
  | .cpu => regRows.cpu

/-- The page and place of an offset within a row: `none` where the row does not hold it. -/
def RegRow.holds (r : RegRow) (off : Nat) : Bool :=
  decide (r.off ≤ off) &&
    (let d := off - r.off
     let p := if r.pages ≤ 1 then 0 else d / r.pstride
     let e := d - p * r.pstride
     decide (p < r.pages) && decide (e % r.stride = 0) && decide (e / r.stride < r.cnt))

/-- The page of an offset that a row holds. -/
def RegRow.page (r : RegRow) (off : Nat) : Nat :=
  if r.pages ≤ 1 then 0 else (off - r.off) / r.pstride

/-- The row that holds a register. -/
def regRow (r : RegId) : Option RegRow := (regRows r.blk).find? (fun w => w.holds r.off)

/-- The reset value of a register; 0 where no row holds it (R32). -/
def regReset (r : RegId) : Nat := match regRow r with | some w => w.reset | none => 0

end Sys2Proof.Machine
end

