-- ==== Sys2Proof/Machine/Blocks.lean ====
section
/-!
DEFINITION. What is fixed per block: code and region base (Table SCOPE-4), power domain (Table SYS-13), the header's
identification words (R35) and the codes of the principals (Table SYS-6).
-/

namespace Sys2Proof

/-- The block code of Table SCOPE-4. -/
def Block.code : Block → Nat
  | .sys => 1 | .clk => 2 | .pmc => 3 | .erm => 4 | .ret => 5 | .tim => 6 | .hts => 7 | .ptd => 8 | .ce => 9
  | .xng => 10 | .rsq => 11 | .csc => 12 | .mot => 13 | .ilp => 14 | .saf => 15 | .fio => 16 | .lne => 17
  | .ave => 18 | .acq => 19 | .hrc => 20 | .evr => 21 | .can => 22 | .hif => 23 | .mem => 24 | .cpu => 25

/-- Every block, in the order of the codes. -/
def Block.all : List Block :=
  [.sys, .clk, .pmc, .erm, .ret, .tim, .hts, .ptd, .ce, .xng, .rsq, .csc, .mot, .ilp, .saf, .fio, .lne, .ave, .acq, .hrc,
   .evr, .can, .hif, .mem, .cpu]

/-- The base of a block's region (Table SCOPE-4). -/
def Block.base (b : Block) : Nat := 0x10000000 + (b.code - 1) * 0x10000

/-- The block whose region holds a device address, with the offset in the region. -/
def Block.ofAddr (a : Nat) : Option (Block × Nat) :=
  if 0x10000000 ≤ a ∧ a < 0x11000000 then
    (Block.all.find? (fun b => b.code = (a - 0x10000000) / 0x10000 + 1)).map (fun b => (b, (a - 0x10000000) % 0x10000))
  else none

/-- The principal code of Table SYS-6. -/
def Principal.code : Principal → Nat
  | .host => 0 | .app _ => 1 | .safe => 2 | .dbg => 3 | .rom => 4

/-- The severity code of R473. -/
def Severity.code : Severity → Nat
  | .info => 0 | .warn => 1 | .alarm => 2 | .fault => 3 | .fatal => 4

namespace Machine

/-- The power domains of Table SYS-3, BLK_DOMAIN. -/
inductive Domain where
  | aon | cpua | cpub | rt | mot | ilp | acq | hist | lane | ave | hif | mem | can | field | safety
deriving DecidableEq, Repr, Inhabited

/-- The code of BLK_DOMAIN.DOMAIN (Table SYS-3). -/
def Domain.code : Domain → Nat
  | .aon => 0 | .cpua => 1 | .cpub => 2 | .rt => 3 | .mot => 4 | .ilp => 5 | .acq => 6 | .hist => 7 | .lane => 8 | .ave => 9
  | .hif => 10 | .mem => 11 | .can => 12 | .field => 14 | .safety => 15

end Machine

/-- The domain of a block's registers (Table SYS-13). -/
def Block.domain : Block → Machine.Domain
  | .sys | .clk | .pmc | .erm | .ret | .evr => .aon
  | .cpu => .cpua
  | .tim | .hts | .ptd | .ce | .xng | .rsq | .csc => .rt
  | .mot => .mot | .ilp => .ilp | .acq => .acq | .hrc => .hist | .lne => .lane | .ave => .ave | .hif => .hif
  | .mem => .mem | .can => .can | .fio => .field | .saf => .safety

namespace Machine

/-- BLK_ID (Table SYS-3): code, instances, page version at silicon A1 (R497). -/
def blkId (b : Block) : Word :=
  BitVec.ofNat 32 (b.code * 0x10000 + (if b = .lne then 8 else if b = .can then 4 else 1) * 0x100 + 1)

/-- BLK_REV at silicon A1 (R497). -/
def blkRev : Word := 1

/-- SYS_CHIP_ID at silicon A1 (R55, R497). -/
def chipId : Word := 0x06400A01

/-- The JTAG IDCODE of silicon A1 (R497): version 0x1, part 0x0640, manufacturer field 0x52C, bit 0 set. -/
def jtagIdcode : Word := 0x10640A59

/-- What the PCIe function reports of itself (R497). -/
structure PcieIds where
  vendor : BitVec 16
  device : BitVec 16
  subVendor : BitVec 16
  subDevice : BitVec 16
  revision : BitVec 8
  classCode : BitVec 24
deriving DecidableEq, Repr

/-- The PCIe identification of silicon A1 for a vendor ID, which OTP holds (R497): the subsystem IDs equal the IDs. -/
def pcieIds (vendor : BitVec 16) : PcieIds :=
  { vendor := vendor, device := 0x0640, subVendor := vendor, subDevice := 0x0640, revision := 0xA1, classCode := 0x118000 }

/-- The key of a register in the register file. -/
def regKey (r : RegId) : Nat := r.blk.code * 0x10000 + r.off

/-- The common error codes of Table SYS-4. -/
def errCfgLocked : Nat := 0x01
def errCommitBusy : Nat := 0x02
def errCommitRefused : Nat := 0x03
def errAccessDenied : Nat := 0x04
def errAccessSize : Nat := 0x05
def errNotEnabled : Nat := 0x06
def errBlockAbsent : Nat := 0x07
def errReplyLost : Nat := 0x08
def errRegLocked : Nat := 0x09
def errValueRange : Nat := 0x0A

end Machine
end Sys2Proof
end

