-- ==== Sys2Proof/Machine/Tab.lean ====
section
/-!
DEFINITION. Sparse tables: a list of (key, value) pairs in ONE canonical form, keys strictly rising and no value equal to
what an unlisted key reads as. Registers, images and memories of the model are such tables.
-/

namespace Sys2Proof.Machine

/-- A table by natural key. What an unlisted key reads as is an argument of every operation. -/
abbrev Tab (α : Type) := List (Nat × α)

/-- The value at key `k`; `d` where no entry lists it. -/
def Tab.get {α : Type} (d : α) : Tab α → Nat → α
  | [], _ => d
  | (j, v) :: t, k => if j = k then v else Tab.get d t k

/-- The table without key `k`. -/
def Tab.erase {α : Type} : Tab α → Nat → Tab α
  | [], _ => []
  | (j, v) :: t, k => if j = k then Tab.erase t k else (j, v) :: Tab.erase t k

/-- Put `(k, v)` before the first entry with a larger key. -/
def Tab.insert {α : Type} (k : Nat) (v : α) : Tab α → Tab α
  | [] => [(k, v)]
  | (j, w) :: t => if k < j then (k, v) :: (j, w) :: t else (j, w) :: Tab.insert k v t

/-- Write `v` at `k`. A value equal to what an unlisted key reads as removes the entry, so equal tables are equal data. -/
def Tab.put {α : Type} [DecidableEq α] (d : α) (t : Tab α) (k : Nat) (v : α) : Tab α :=
  if v = d then Tab.erase t k else Tab.insert k v (Tab.erase t k)

/-- Change the value at `k` by `f`. -/
def Tab.upd {α : Type} [DecidableEq α] (d : α) (t : Tab α) (k : Nat) (f : α → α) : Tab α :=
  Tab.put d t k (f (Tab.get d t k))

/-- Every key of the table lies above `k`. -/
def Tab.above {α : Type} (k : Nat) : Tab α → Bool
  | [] => true
  | (j, _) :: t => decide (k < j) && Tab.above k t

/-- The canonical form: keys strictly rising, no entry equal to what an unlisted key reads as. -/
def Tab.wf {α : Type} [DecidableEq α] (d : α) : Tab α → Bool
  | [] => true
  | (j, v) :: t => decide (v ≠ d) && Tab.above j t && Tab.wf d t

/-- Write a list of values at `k`, `k + 1`, and so on. -/
def Tab.putList {α : Type} [DecidableEq α] (d : α) (t : Tab α) (k : Nat) : List α → Tab α
  | [] => t
  | v :: vs => Tab.putList d (Tab.put d t k v) (k + 1) vs

/-- The values at `k`, `k + 1`, …, `k + n - 1`. -/
def Tab.getList {α : Type} (d : α) (t : Tab α) (k : Nat) : Nat → List α
  | 0 => []
  | n + 1 => Tab.get d t k :: Tab.getList d t (k + 1) n

/-- Apply `f` to the value of every listed key, keeping the canonical form. -/
def Tab.mapAll {α : Type} [DecidableEq α] (d : α) (f : α → α) : Tab α → Tab α
  | [] => []
  | (k, v) :: t => let w := f v; if w = d then Tab.mapAll d f t else (k, w) :: Tab.mapAll d f t

/-- Keep the entries whose key and value satisfy `p`. -/
def Tab.keep {α : Type} (p : Nat → α → Bool) : Tab α → Tab α
  | [] => []
  | (k, v) :: t => if p k v then (k, v) :: Tab.keep p t else Tab.keep p t

/-- How many listed entries satisfy `p`. -/
def Tab.count {α : Type} (p : Nat → α → Bool) : Tab α → Nat
  | [] => 0
  | (k, v) :: t => (if p k v then 1 else 0) + Tab.count p t

/-- Whether some listed entry satisfies `p`. -/
def Tab.some {α : Type} (p : Nat → α → Bool) : Tab α → Bool
  | [] => false
  | (k, v) :: t => p k v || Tab.some p t

end Sys2Proof.Machine
end

