-- ==== Sys2Proof/Machine/StCommon.lean ====
section
/-!
DEFINITION. State that every block shares: the common header of Tables SYS-2 and SYS-3, the system block's own state, the
event recorder's records and the error manager's entries.
-/

namespace Sys2Proof.Machine

/-- BLK_STAT.PWR (Table SYS-3). -/
inductive Pwr where
  | off | on | fenced | sleep | reset
deriving DecidableEq, Repr, Inhabited

/-- The common header of a block (Tables SYS-2 and SYS-3) and what stands behind it. BLK_IRQ_STAT is `irqRaw AND irqEn`;
BLK_ID, BLK_REV and BLK_DOMAIN are functions of the block. -/
structure Hdr where
  en : Bool := false
  run : Bool := false
  freeze : Bool := false
  running : Bool := false
  commitPending : Bool := false
  pwr : Pwr := .on
  irqRaw : Word := 0
  irqEn : Word := 0
  errCode : Nat := 0
  errCount : Nat := 0
  errOvf : Bool := false
  viewActive : Bool := false
  cfgGen : Nat := 0
  lock : Bool := false
deriving DecidableEq, Repr, Inhabited

/-- SYS_DENY_LOG (Table SYS-9): block code, offset and principal code of the logged write. -/
structure Deny where
  blk : Nat
  off : Nat
  principal : Nat
deriving DecidableEq, Repr, Inhabited

/-- SYS_DC_STAT.STATE (Table SYS-9). -/
inductive DcState where
  | idle | copying | staged
deriving DecidableEq, Repr, Inhabited

/-- A tag handed in by SYS_DC_SUBMIT and not yet verified (R52): the party, the tag, and the stage that was STAGED then. -/
structure DcTag where
  party : Nat
  tag : Nat
  stage : Option Nat
deriving DecidableEq, Repr, Inhabited

/-- The dual-commit engine (R51–R53, Table SYS-9). `buf` is the payload as copied, `since` the microsecond since power-up at which the stage was STAGED, `stageNo` the number
of the stage's nonce draw, `verify` the submitted tags in order. -/
structure Dc where
  state : DcState := .idle
  target : Nat := 0
  len : Nat := 0
  src : Nat := 0
  buf : List Byte := []
  nonce : Nat := 0
  digest : List Byte := []
  since : Nat := 0
  partyOk : Nat := 0
  badTags : Nat := 0
  result : Nat := 0
  stageNo : Nat := 0
  verify : List DcTag := []
deriving DecidableEq, Repr, Inhabited

/-- The system records that SYS keeps and the retention store holds (R50, R54, Table RET-1). -/
structure SysRec where
  pmap : Tab Nat := [(15, 0)]
  pmapGen : Nat := 0
  lifecycle : Nat := 1
  keys : Tab (List Word) := []
deriving DecidableEq, Repr, Inhabited

/-- SYS (Table SYS-9). An entry of `sysrec.pmap` that is not listed reads the factory value 0x13 (R50). -/
structure Sys where
  sysrec : SysRec := {}
  lcPending : Option Nat := none
  debugUnlocked : Bool := false
  romAlive : Bool := true
  deny : Option Deny := none
  dc : Dc := {}
  keyWords : Tab Word := []
deriving DecidableEq, Repr, Inhabited

/-- An EVR record (Table EVR-1). -/
structure EvRec where
  code : Nat := 0
  source : Nat := 0
  seq : Nat := 0
  time : Nat := 0
  p0 : Nat := 0
  p1 : Nat := 0
  p2 : Nat := 0
  p3 : Nat := 0
deriving DecidableEq, Repr, Inhabited

/-- The event recorder (R390–R396). `ring` holds the slots 256–32,767 of the main ring, `ff` the first-fault region in order,
`queues` each writer's records awaiting acceptance, `safeBuf` the safety records held during a freeze, `frzMax` the EVR_FRZ_MAX that the freeze in force took. -/
structure Evr where
  ring : Tab EvRec := [(256, { code := 0x1510, source := 0x1500 })]
  head : Nat := 257
  seq : Nat := 1
  count : Nat := 1
  ff : List EvRec := [{ code := 0x1510, source := 0x1500 }]
  ffArmed : Bool := true
  ffSeq : Nat := 0
  queues : Tab (List EvRec) := [(0x600, [{ code := 0x0614, source := 0x0600 }])]
  lastServed : Nat := 0
  frozenAt : Option Nat := none
  frzMax : Nat := 0
  safeBuf : List EvRec := []
  lostFrozen : Nat := 0
  lostFrozenCode : Nat := 0
  lostBusy : Nat := 0
  lostBusyCode : Nat := 0
  lostSince : Nat := 0
  lostSinceCode : Nat := 0
  lostTimer : Bool := false
  dumpBusy : Bool := false
  dumpTo : Nat := 0
  dumping : List EvRec := []
  dumpResult : Nat := 0
  dumpCopied : Nat := 0
deriving DecidableEq, Repr, Inhabited

/-- An error in handling by ERM (R473–R475). -/
structure ErrEnt where
  code : Nat
  src : Nat
  sev : Severity
  time : Nat
  escalated : Bool := false
  recur : Nat := 0
deriving DecidableEq, Repr, Inhabited

/-- ERM_FATAL_LOG (Table ERM-5). -/
structure FatalLog where
  code : Nat
  src : Nat
  cause : Nat
deriving DecidableEq, Repr, Inhabited

/-- The boot sources of R464 as ERM_BOOT_STAT shows them. -/
inductive BootSrc where
  | norA | norB | push
deriving DecidableEq, Repr, Inhabited

/-- The supplies and supervision pins of ERM_SUPPLY (Table ERM-5) and the field-side supplies of R485. -/
structure Supply where
  pgCore : Bool := true
  pgIo : Bool := true
  pgMem : Bool := true
  pfailN : Bool := true
  vddCoreOk : Bool := true
  resetN : Bool := true
deriving DecidableEq, Repr, Inhabited

/-- The error manager with start-up and resets (R463–R479). `phase` is the start-up phase reached; `held` says that a full
device reset is held; `halted` that core 0 waits in WFI after every boot source was refused; `accepted` that a boot
image was accepted and `entry` is its ENTRY. -/
structure Erm where
  cur : Option ErrEnt := none
  queue : List ErrEnt := []
  cnt : Tab Nat := []
  fatalLog : Option FatalLog := none
  fatal : Bool := false
  errNLow : Bool := true
  rstCause : Nat := 0
  rstCount : Nat := 0
  bootMode : Nat := 0
  phase : Nat := 0
  bootSrc : BootSrc := .norA
  keyIdx : Nat := 0
  entry : Nat := 0
  accepted : Bool := false
  noMem : Bool := false
  degraded : Bool := false
  bootResult : Nat := 0
  halted : Bool := false
  pushWait : Bool := false
  held : Bool := false
  supply : Supply := {}
  pfailActive : Bool := false
  pfailLast : Nat := 0
  pfailSince : Nat := 0
deriving DecidableEq, Repr, Inhabited

/-- One of the two bank records of a bank (Table RET-2): sequence number and the CRC of the bank's contents; `intact` says that
its own REC_CRC matches. A bank of zeros with intact records is what the part is delivered with (log 85); 0xF032BCF3 is its CRC-32C. -/
structure BankRec where
  seq : Nat := 0
  crc : Nat := 0xF032BCF3
  intact : Bool := true
deriving DecidableEq, Repr, Inhabited

/-- A word that waits in RET's pending buffer (R471), with the writer to report a failure to. -/
structure RetPend where
  idx : Nat
  val : Word
  writer : Block
deriving DecidableEq, Repr, Inhabited

/-- The retention store (R470–R472). `cells` holds the MRAM words by word index, `pend` the pending buffer, `waiting` writes that
found the buffer full; `sysA`, `sysB` are the system record copies of banks 0 and 4; `sysPend` says that SYS has records not yet
durable. -/
structure Ret where
  cells : Tab Word := []
  pend : List RetPend := []
  waiting : List RetPend := []
  recs : Tab (BankRec × BankRec) := []
  round : Nat := 0
  checkBusy : Bool := false
  checkDone : Bool := false
  checkUs : Nat := 0
  flushing : Bool := false
  bankFail : Nat := 0
  wfailLog : Option Nat := none
  wfailCnt : Nat := 0
  sysA : SysRec := {}
  sysB : SysRec := {}
  sysPend : Bool := false
  sysAGood : Bool := false
  sysBGood : Bool := false
  sysLost : Bool := false
deriving DecidableEq, Repr, Inhabited

end Sys2Proof.Machine
end

