-- ==== Sys2Proof/Machine/StAcq.lean ====
section
/-!
DEFINITION. State of the acquisition engine (R365–R379).
-/

namespace Sys2Proof.Machine

/-- The session states of Table ACQ-4. -/
inductive SessState where
  | idle | armed | post | rearm | done | stopped
deriving DecidableEq, Repr, Inhabited

/-- A capture channel at work: the last sample with its time in ps, the run in reduction, and the block being filled. `blocks` counts the
blocks of the channel in its segment and `seq` those in the session; `dropped` counts the samples of a gap. -/
structure Chan where
  last : Option Int := none
  lastT : Nat := 0
  n : Nat := 0
  lo : Int := 0
  hi : Int := 0
  sum : Int := 0
  runT : Nat := 0
  recs : List Byte := []
  count : Nat := 0
  firstT : Nat := 0
  qor : Nat := 0
  bad : Nat := 0
  missed : Nat := 0
  blocks : Nat := 0
  seq : Nat := 0
  dropped : Nat := 0
  gapSeg : Bool := false
deriving DecidableEq, Repr, Inhabited

/-- A finished block that waits in the on-die buffer: where it goes, and its 4 KiB. -/
structure CapBlock where
  chan : Nat
  addr : Nat
  bytes : List Byte
deriving DecidableEq, Repr, Inhabited

/-- The acquisition engine. `armReq` is an accepted ARM that awaits the base-frame boundary; `seqIn` the instant in ps at which the
sequencer entered its state, `seqArm` the arming of its slots; `tmr` the running timers by expiry tick, `exp` the expired ones by expiry
in ps; `tflagT` the write instants of the set TFLAG bits; `trig` and `acc` the trigger time in ps and the acceptance tick. -/
structure Acq where
  state : SessState := .idle
  armReq : Bool := false
  session : Nat := 0
  seg : Nat := 0
  trigs : Nat := 0
  stopPend : Bool := false
  seqState : Nat := 0
  seqIn : Nat := 0
  seqArm : Nat := 0
  cnt : Tab Nat := []
  tmr : Tab (Option Nat) := []
  exp : Tab (Option Nat) := []
  tflag : Nat := 0
  tflagT : Tab Nat := []
  flag0 : Word := 0
  flag1 : Word := 0
  chans : Tab Chan := []
  buf : List CapBlock := []
  trig : Nat := 0
  trigPs : Nat := 0
  acc : Nat := 0
  deadLast : Nat := 0
  deadMax : Nat := 0
  rearmT : Nat := 0
  ign : Nat := 0
  missed : Nat := 0
  ovf : Nat := 0
  result : Nat := 0
  resultCh : Nat := 0
  lastSend : Tab (Option Nat) := []
deriving DecidableEq, Repr, Inhabited

end Sys2Proof.Machine
end

