-- ==== Sys2Proof/Machine/StPtd.lean ====
section
/-!
DEFINITION. Points (R57–R77): the directory, the hot and cold images, the force table.
-/

namespace Sys2Proof.Machine

/-- The point kinds of Table PTD-2. -/
inductive Kind where
  | none | bit | q15 | int16 | int32 | float32 | count64 | reserved
deriving DecidableEq, Repr, Inhabited

/-- The source types of Table PTD-3. -/
inductive SrcType where
  | internal | fioCh | fioAi | fioAo | enc | latch | axis | lane | can | ave | saf | reserved
deriving DecidableEq, Repr, Inhabited

/-- The traffic classes (R15). -/
inductive TClass where
  | a | b | c | reserved
deriving DecidableEq, Repr, Inhabited

/-- A committed directory entry (Table PTD-1), with its words as the editing image held them. -/
structure DirEntry where
  kind : Kind := .none
  hot : Bool := false
  cls : TClass := .c
  substEn : Bool := false
  substLast : Bool := false
  output : Bool := false
  hotIndex : Nat := 0
  srcType : SrcType := .internal
  srcRef : Nat := 0
  euZero : Word := 0
  euScale : Word := 0
  euLo : Word := 0
  euHi : Word := 0
  histMode : Nat := 3
  histRed : Nat := 2
  histInt : Nat := 100
  substVal : Nat := 0
  staleN : Nat := 0
deriving DecidableEq, Repr, Inhabited

/-- A hot or cold entry (Table PTD-4): value, quality byte, bits [23:0] of the update time in ns. -/
structure Entry where
  value : Word := 0
  q : Byte := 0
  timeLo : Nat := 0
deriving DecidableEq, Repr, Inhabited

/-- A row of the force table (R69, R70): a force or a simulation of a point, and the shadow that the point's source writes. -/
structure ForceEnt where
  idx : Nat
  sim : Bool
  shadow : Entry
deriving DecidableEq, Repr, Inhabited

/-- A committed descriptor's hold on a point (R62, R63): the block, the descriptor's number, the point, and whether it claims it. -/
structure PointRef where
  blk : Block
  desc : Nat
  idx : Nat
  claim : Bool
deriving DecidableEq, Repr, Inhabited

/-- The point directory block (Table PTD-7). `dir` holds the committed entries of the active image, `act` those in effect,
`effects` the indices whose entry takes effect at the next base-frame boundary, `lastValid` the last VALID value of a point since its
entry took effect (R59), `frameT` the sample time of each framed source's latest frame by PTD_FRAME_SEL, `refs` the points that
committed descriptors of other blocks hold. -/
structure Ptd where
  dir : Tab DirEntry := []
  act : Tab DirEntry := []
  effects : List Nat := []
  busy : Option Nat := none
  waitGrant : Bool := false
  result : Nat := 0
  last : Nat := 0
  hot : Tab Entry := []
  cold : Tab Entry := []
  ue : List Nat := []
  ueLog : Option Nat := none
  eccCnt : Nat := 0
  grantB : Word := 0
  grantC : Word := 0
  force : List ForceEnt := []
  forceResult : Nat := 0
  lastValid : Tab (Option Word) := []
  frameT : Tab Nat := []
  refs : List PointRef := []
deriving DecidableEq, Repr, Inhabited

end Sys2Proof.Machine
end

