-- ==== Sys2Proof/Machine/StAve.lean ====
section
/-!
DEFINITION. State of the Avenue ports and the Junction (R329–R345).
-/

namespace Sys2Proof.Machine

/-- The port states of Table AVE-1. -/
inductive APState where
  | off | training | up | down
deriving DecidableEq, Repr, Inhabited

/-- The roles of Table AVE-6. -/
inductive Role where
  | member | active | standby | left
deriving DecidableEq, Repr, Inhabited

/-- A request for a subscription (R338): subscriber, the publisher's point, class and kind of the subscriber's entry; `admitted` says that the
gateway has passed it to the publisher. -/
structure SubReq where
  sub : Nat
  gid : Nat
  cls : TClass
  kind : Kind
  admitted : Bool
deriving DecidableEq, Repr, Inhabited

/-- The body of a Valnath frame (Table AVE-3). -/
inductive ABody where
  | ptA (time : Nat) (recs : List PtRec)
  | ptB (classC : Bool) (time : Nat) (recs : List PtRec)
  | rdReq (off : Nat) (p : Principal) (wide : Bool)
  | rdResp (classC : Bool) (result data : Nat)
  | wrReq (off : Nat) (p : Principal) (wide : Bool) (data : Nat)
  | wrResp (classC : Bool) (result : Nat)
  | lsa (dev port : Nat) (up : Bool) (peer seq : Nat)
  | disc (reply : Bool) (serial port : Nat) (role : Nat)
  | time (t flags hops : Nat) (gm utc : List Byte) (rx : Nat)
  | trig (ns line ps : Nat)
  | hist (seq frag dev : Nat) (bytes : List Byte)
  | subscribe (r : SubReq)
  | admission (src dst : Nat) (long contended protected_ : Bool)
  | grant (g : Grant)
  | release
  | heartbeat
deriving DecidableEq, Repr, Inhabited

/-- A Valnath frame. -/
structure AFrame where
  dst : Nat
  src : Nat
  hops : Nat := 63
  tag : Nat := 0
  body : ABody
deriving DecidableEq, Repr, Inhabited

/-- Fault injection of a port (R342). `held` is the frame that REORDER keeps and `delayed` those that DELAY keeps with the µs left; the flag
says whether they were received. `rule` and `en` are in force, `enNext` takes effect at the next base-frame boundary. -/
structure AInj where
  unlocked : Bool := false
  en : Bool := false
  enNext : Option Bool := none
  rule : Nat := 0
  seen : Nat := 0
  affected : Nat := 0
  held : Option (AFrame × Bool) := none
  delayed : List (AFrame × Bool × Nat) := []
deriving DecidableEq, Repr, Inhabited

/-- A port (Tables AVE-1, AVE-8). `hello` is the last HELLO block sent, `sent` the frames sent since the last base-frame boundary with
whether their CRC is good. -/
structure APort where
  st : APState := .off
  peer : Nat := 0
  peerPort : Nat := 0
  dly : Nat := 0
  cntCrc : Nat := 0
  cntDrop : Nat := 0
  inj : AInj := {}
  hello : Option (Nat × Nat × Nat) := none
  sent : List (AFrame × Bool) := []
deriving DecidableEq, Repr, Inhabited

/-- A routing entry (Table AVE-7). -/
structure Rt where
  pri : Nat := 7
  alt : Nat := 7
  valid : Bool := false
  usingAlt : Bool := false
  lfa : Bool := false
  hops : Nat := 0
  altHops : Nat := 0
deriving DecidableEq, Repr, Inhabited

/-- The state of a link end in the link-state table (R335). -/
structure Lsa where
  up : Bool := false
  peer : Nat := 0
  seq : Nat := 0
deriving DecidableEq, Repr, Inhabited

/-- A subscription of this device, by local index (R338). -/
structure Sub where
  gid : Nat := 0
  confirmed : Bool := false
  refused : Nat := 0
deriving DecidableEq, Repr, Inhabited

/-- An entry of the publish table (R338). -/
structure Pub where
  idx : Nat
  dst : Nat
  cls : TClass
deriving DecidableEq, Repr, Inhabited

/-- A request through the fabric window (R339): device, requester, device address at the target, whether it writes and is 64 bits wide, and the frame's
body. -/
structure FReq where
  dev : Nat
  req : Requester
  addr : Nat
  wr : Bool
  wide : Bool
  body : ABody
deriving DecidableEq, Repr, Inhabited

/-- A device known to the gateway (R334): serial, hops, recording grant. -/
structure ADev where
  serial : Nat := 0
  hops : Nat := 0
  grant : Nat := 0
deriving DecidableEq, Repr, Inhabited

/-- A class A flow that the gateway has admitted (R333). -/
structure AFlow where
  src : Nat
  dst : Nat
  protected_ : Bool
deriving DecidableEq, Repr, Inhabited

/-- The Avenue block (Table AVE-8). `rtNext` is a computed table that awaits its installation and `change` the link change it answers, with
its time; `reqs` the requests that await their response, by tag, and `waitReqs` those that await a tag; `devs` the devices the gateway knows, by ID; `standby` the standby gateway; `grantWait` the recording grant asked for; `joinReq` that the grant of a device that joined is to be
asked for;
`hbT` the time of the last heartbeat. -/
structure Ave where
  devId : Nat := 0
  assigned : Bool := false
  alias0 : Bool := false
  role : Role := .member
  result : Nat := 0
  discBusy : Bool := false
  ports : Tab APort := []
  rt : Tab Rt := []
  rtNext : Option (Tab Rt) := none
  change : Option (Nat × Nat × Nat) := none
  lst : Tab Lsa := []
  lsaSeq : Nat := 0
  subs : Tab Sub := []
  subStat : Option (Nat × Nat) := none
  pubs : List Pub := []
  reqs : List (Nat × FReq) := []
  waitReqs : List FReq := []
  nextTag : Nat := 1
  devs : Tab ADev := []
  maxHops : Nat := 0
  standby : Option Nat := none
  flows : List AFlow := []
  rerouteDev : Nat := 0
  reroutePort : Nat := 0
  rerouteUs : Nat := 0
  reroutes : Nat := 0
  recSum : Nat := 0
  recOwn : Nat := 0
  grantWait : Option Nat := none
  joinReq : Bool := false
  hbT : Nat := 0
deriving DecidableEq, Repr, Inhabited

end Sys2Proof.Machine
end

