-- ==== Sys2Proof/Machine/StCan.lean ====
section
/-!
DEFINITION. State of the CAN FD controllers (R431–R441).
-/

namespace Sys2Proof.Machine

/-- The controller states of Table CAN-3. -/
inductive CanState where
  | config | integrating | active | busOff | recovering | sleep
deriving DecidableEq, Repr, Inhabited

/-- A frame in a receive buffer: its length code, FDF, BRS and ESI, stamp and data. -/
structure CanBuf where
  dlc : Nat := 0
  fdf : Bool := false
  brs : Bool := false
  esi : Bool := false
  ts : Nat := 0
  data : List Byte := []
deriving DecidableEq, Repr, Inhabited

/-- A message object (Table CAN-1). `buf` is the visible buffer and data bytes, `shadow` the frame that waits during a read; `abort` and
`disable` act at the end of its frame on the bus; `lastReq` is the time of an ON_CHANGE object's last request and `changed` says that a
change waits for PERIOD to pass. -/
structure CanObj where
  o0 : Word := 0
  o1 : Word := 0
  o2 : Word := 0
  buf : CanBuf := {}
  shadow : Option CanBuf := none
  new_ : Bool := false
  reading : Bool := false
  ovr : Bool := false
  txReq : Bool := false
  txResult : Nat := 0
  abort : Bool := false
  disable : Bool := false
  lastReq : Option Nat := none
  changed : Bool := false
deriving DecidableEq, Repr, Inhabited

/-- A frame that a controller has sent: identifier word O1, DLC, data. -/
structure CanSent where
  obj : Nat
  id : Word
  dlc : Nat
  data : List Byte
deriving DecidableEq, Repr, Inhabited

/-- A controller (Table CAN-4). `passive` is its error state while not bus-off, `stop` and `sleep` commands that act at the end of the frame
on the bus, `offAt` the time at which bus-off began. -/
structure CanCtl where
  state : CanState := .config
  passive : Bool := false
  tec : Nat := 0
  rec_ : Nat := 0
  lec : Nat := 0
  lecData : Bool := false
  busErr : Nat := 0
  result : Nat := 0
  rxDisc : Nat := 0
  rxEvt : Tab Word := []
  txEvt : Tab Word := []
  woken : Bool := false
  wakeCause : Nat := 0
  wakeId : Nat := 0
  stop : Bool := false
  sleep : Bool := false
  offAt : Nat := 0
  sent : List CanSent := []
deriving DecidableEq, Repr, Inhabited

/-- The CAN controllers; `objs` by controller × 64 + object. -/
structure Can where
  ctl : Tab CanCtl := []
  objs : Tab CanObj := []
deriving DecidableEq, Repr, Inhabited

end Sys2Proof.Machine
end

