-- ==== Sys2Proof/Machine/StCe.lean ====
section
/-!
DEFINITION. State of the control engine (R78–R137) and of the Crossing (R138–R158).
-/

namespace Sys2Proof.Machine

/-- The laws of Table CE-1. -/
inductive Law where
  | none | pid | bq4 | pidbq | leadlag | ratio | split | reserved
deriving DecidableEq, Repr, Inhabited

/-- A gain word (R83): mantissa and shift. -/
structure Gain where
  m : Int := 0
  s : Int := 0
deriving DecidableEq, Repr, Inhabited

/-- A loop descriptor (Tables CE-5, CE-6, CE-14). `g` holds the gain words of W12–W35 in order; `raw` all words as committed. -/
structure LoopDesc where
  law : Law := .none
  rate : Nat := 0
  dom : Bool := false
  reverse : Bool := false
  bqIn : Bool := false
  nsec : Nat := 0
  inPt : Nat := 0
  inShift : Nat := 0
  inOfs : Word := 0
  outPt : Nat := 0
  out2Pt : Nat := 0
  spSrc : Nat := 0
  parent : Nat := 0
  spPt : Nat := 0
  spConst : Int := 0
  manInit : Int := 0
  child : Nat := 0
  divN : Nat := 0
  outLo : Int := 0
  outHi : Int := 0
  rateLim : Nat := 0
  safeVal : Int := 0
  dfilt : Nat := 0
  safeVal2 : Int := 0
  g : List Gain := []
  law16 : List Int := []
  law16h : List Int := []
  rcEn : Bool := false
  rtEn : Bool := false
  modelEn : Bool := false
  supMan : Bool := false
  rampMode : Nat := 0
  rcReact : Nat := 0
  rtReact : Nat := 0
  mReact : Nat := 0
  tabAEn : Bool := false
  tabBEn : Bool := false
  tabA : Nat := 0
  tabB : Nat := 0
  rcLo : Int := 0
  rcHi : Int := 0
  rcDmax : Nat := 0
  rcPers : Nat := 0
  rtPers : Nat := 0
  km : Gain := {}
  beta : Nat := 0
  mbias : Int := 0
  dead : Nat := 0
  mthr : Nat := 0
  mpers : Nat := 0
  ka : Gain := {}
  kb : Gain := {}
  spRamp : Nat := 0
deriving DecidableEq, Repr, Inhabited

/-- Where admission placed a loop (R80): frame phase, first issue slot and first delay entry (R117). -/
structure LoopPlace where
  phase : Nat := 0
  slot : Nat := 0
  dlyBase : Nat := 0
deriving DecidableEq, Repr, Inhabited

/-- The state of a loop in one lane (Tables CE-7 and CE-19). -/
structure LoopState where
  i : Int := 0
  d : Int := 0
  xPrev : Int := 0
  u : Int := 0
  u2 : Int := 0
  r : Int := 0
  rT : Int := 0
  man : Int := 0
  v16 : Int := 0
  bq : List Int := [0, 0, 0, 0, 0, 0, 0, 0]
  mode : LMode := .off
  cause : Nat := 0
  sat : Bool := false
  atLim : Bool := false
  rateLimited : Bool := false
  inBad : Bool := false
  spBad : Bool := false
  track : Bool := false
  inSat : Bool := false
  trip : Bool := false
  evals : Nat := 0
  yPrev : Int := 0
  resid : Nat := 0
  ym : Int := 0
  cntM : Nat := 0
  cntRg : Nat := 0
  cntRt : Nat := 0
  dlyPtr : Nat := 0
  tripSrc : Nat := 0
  react : Nat := 0
  ramping : Bool := false
  dirA : Bool := false
  dirB : Bool := false
  compBad : Bool := false
  rampRate : Nat := 0
  ca : Int := 0
  cb : Int := 0
deriving DecidableEq, Repr, Inhabited

/-- A mode command accepted and not yet applied (R102): the mode (`none` for KEEP) and the cause of Table CE-9. -/
structure LoopCmd where
  mode : Option LMode
  cause : Nat
deriving DecidableEq, Repr, Inhabited

/-- What waits for a loop's next evaluation (R101, R102, R118, R122, R131). `release` says that a HOLD_OUTPUT latch cleared and no output has been
computed since, so that the first computed one still continues from the held value (R123). -/
structure LoopPend where
  cmd : Option LoopCmd := none
  man : Option Int := none
  ack : Bool := false
  align : Bool := false
  ramp : Option Nat := none
  sup : Option LMode := none
  timeDeg : Bool := false
  runStop : Bool := false
  parentOff : Bool := false
  release : Bool := false
deriving DecidableEq, Repr, Inhabited

/-- An active compensation table (Table CE-17): header fields and its 1024 entries. -/
structure CompTab where
  type : Nat := 0
  dirSel : Bool := false
  idxShift : Nat := 0
  idxPt : Nat := 0
  idxOfs : Word := 0
  span : Nat := 0
  idxMul : Nat := 0
  dirDb : Nat := 0
  dirPt : Nat := 0
  entries : Tab Int := []
deriving DecidableEq, Repr, Inhabited

/-- A lane's own copy of the configuration (R138): the active descriptors, the active and the standby bank of the tables (R124), and the
descriptors and tables in which an uncorrectable error stands (R142), which no longer compare equal (R152). -/
structure LaneCfg where
  desc : Tab LoopDesc := []
  tabs : Tab CompTab := []
  standby : Tab CompTab := []
  badDesc : List Nat := []
  badTab : List Nat := []
deriving DecidableEq, Repr, Inhabited

/-- The control engine. `desc` and `tabs` are the configuration as committed, `laneCfg` each lane's copy of it. `lanes` holds each lane's loop
states by lane and loop; `view` each loop's state as captured at the end of its
last evaluation, which CE_STATE shows (R110); `localT` the local target of a loop with SP_SRC = LOOP
(R101), `childT` the target its parent latched (R98), `delay` the delay memory (R117), `tabs` the active tables, `tabNext` checked
tables that wait for the base-frame boundary (R128), `linkCnt` a child's evaluations since its outer loop was applied (R98). -/
structure Ce where
  desc : Tab LoopDesc := []
  place : Tab LoopPlace := []
  laneCfg : Tab LaneCfg := []
  lanes : Tab (Tab LoopState) := []
  view : Tab LoopState := []
  pend : Tab LoopPend := []
  localT : Tab (Option Int) := []
  childT : Tab (Option Int) := []
  linkCnt : Tab Nat := []
  delay : Tab Int := []
  tabs : Tab CompTab := []
  tabNext : Tab (Option CompTab) := []
  goBusy : Option Nat := none
  goResult : Nat := 0
  goLoop : Nat := 0
  modeLoop : Nat := 0
  modeResult : Nat := 0
  supLoop : Nat := 0
  supResult : Nat := 0
  tabBusy : Option Nat := none
  tabResult : Nat := 0
  tabLast : Nat := 0
  evt : Tab Word := []
  trip : Tab Word := []
deriving DecidableEq, Repr, Inhabited

/-- The lane states of Table XNG-4. -/
inductive LaneState where
  | off | bist | copy | voting | halted | failed
deriving DecidableEq, Repr, Inhabited

/-- A lane (Tables XNG-4 to XNG-8). `tested` says that a POWER_ON test ended and the lane waits for the others, `suspect` that it
enters BIST at the next base-frame boundary, `copied` that its state copy is complete, `sig` is its frame signature (R143) and
`eccFrame` its corrected errors in this base frame (R142), `t0` the time at which its BIST started. -/
structure Lane where
  state : LaneState := .off
  cause : Nat := 0
  fltCnt : Nat := 0
  eccCe : Nat := 0
  ue : Bool := false
  outvoted : Bool := false
  wdog : Bool := false
  eccRate : Bool := false
  bistFail : Bool := false
  rejoins : Nat := 0
  tested : Bool := false
  passed : Bool := false
  suspect : Bool := false
  copySrc : Nat := 0
  copied : Bool := false
  copyTime : Nat := 0
  cfgRepair : Bool := false
  sig : Nat := 0
  eccFrame : Nat := 0
  t0 : Nat := 0
deriving DecidableEq, Repr, Inhabited

/-- A row of the safe table (R147). -/
structure SafeRow where
  outPt : Nat := 0
  out2Pt : Option Nat := none
  val : Int := 0
  val2 : Int := 0
deriving DecidableEq, Repr, Inhabited

/-- The voting modes of Table XNG-3. -/
inductive VMode where
  | none | single | dual | triple
deriving DecidableEq, Repr, Inhabited

/-- XNG_DIS_LOG with its time (Table XNG-7). -/
structure DisLog where
  item : Nat
  stream : Bool
  majority : Nat
  time : Nat
deriving DecidableEq, Repr, Inhabited

/-- The Crossing. `started` says that the power-on tests have ended once, `reacted` that a safe reaction holds mode NONE until a
restart (R146), `lossDue` that lanes left so that the next vote stage is the origin of a reaction with cause LANE_LOSS, `voterFault` that it stopped writing (R156), `testFrames` the base frames that the rolling test timer has counted. -/
structure Xng where
  lanes : Tab Lane := []
  mode : VMode := .none
  reacted : Bool := false
  lossDue : Bool := false
  safeCause : Nat := 0
  safe : Tab (Option SafeRow) := []
  voterFault : Bool := false
  testFrames : Nat := 0
  nextLane : Nat := 0
  due : Bool := false
  overdue : Bool := false
  testLane : Nat := 0
  testCause : Nat := 0
  testResult : Nat := 0
  testDur : Nat := 0
  rejoinLane : Nat := 0
  rejoinRepair : Bool := false
  rejoinTime : Nat := 0
  dis : Option DisLog := none
  votes : Nat := 0
  outvotes : Nat := 0
  restart : Bool := false
deriving DecidableEq, Repr, Inhabited

end Sys2Proof.Machine
end

