-- ==== Sys2Proof/Machine/StClk.lean ====
section
/-!
DEFINITION. State of the clock unit and the power-mode controller (R441–R461).
-/

namespace Sys2Proof.Machine

/-- The crystal states of Table CLK-3. -/
inductive XoSt where
  | off | starting | stable | failed
deriving DecidableEq, Repr, Inhabited

/-- A domain clock (CLK_DOM): divisor, whether it runs from FRC, whether it ramps and toward which divisor. -/
structure ClkDom where
  div : Nat := 0
  frc : Bool := true
  ramp : Bool := false
  tgt : Nat := 0
deriving DecidableEq, Repr, Inhabited

/-- Why the PLL reference switches: a fallback with its cause and count, or a return with its cause. -/
inductive SwWhy where
  | fallback (cause cnt : Nat) | back (cause : Nat)
deriving DecidableEq, Repr, Inhabited

/-- The clock unit (Table CLK-5). `xoT` is the start of the crystal start in progress and `degT` that of TIME_DEGRADED, in µs since power-up; `ref` is PLL_REF (FRC); `sw` lists the
multiplexers that switch, 0 the PLL reference and 1 + d a domain clock, with the new source (FRC); `why` says why the reference switches, `fell` that the PLL
references FRC since a fallback, `backWait` the cause of a return whose lock count runs. -/
structure Clk where
  xo : XoSt := .off
  xoFails : Nat := 0
  xoT : Nat := 0
  pllOn : Bool := false
  locked : Bool := false
  ref : Bool := false
  doms : Tab ClkDom := []
  sw : List (Nat × Bool) := []
  why : Option SwWhy := none
  fell : Bool := false
  backWait : Option Nat := none
  frcOk : Bool := true
  srcOk : Bool := true
  timeDeg : Bool := false
  degT : Nat := 0
  mon : Nat := 0
  xoCnt : Nat := 0
  frcCnt : Nat := 0
  lastForced : Nat := 0
  result : Nat := 0
deriving DecidableEq, Repr, Inhabited

/-- The states of PMC_STAT (Table PMC-6). -/
inductive PSt where
  | run | eco | standby | hibernate | entering | waking | rollback
deriving DecidableEq, Repr, Inhabited

/-- A sleep handshake in progress (R457): the domains that go OFF or SLEEP, the block asked next and those after it, the blocks stopped, latest first, the block that
waits with the time since, the requesting core, the domain of a PMC_DOM_CMD OFF, and whether it rolls back. -/
structure PHs where
  doms : List Nat := []
  ask : List Block := []
  stopped : List Block := []
  wait : Option (Block × Nat) := none
  core : Option Nat := none
  dom : Option Nat := none
  back : Bool := false
deriving DecidableEq, Repr, Inhabited

/-- The power-mode controller (Table PMC-6). `from_` is the state left by a transition and `tgt` the state it goes to, `t0` its start; `cause` the cause of a rollback
(Table PMC-8); `on` the switched domains that are ON by code, `trans` those in transition, `todo` those a wake has still to restore, `ecoOff` those that PMC_CMD RUN restores from ECO; `wakeT` the instant of the
wake; `hash` the SHA-256 stored at entry. -/
structure Pmc where
  st : PSt := .run
  from_ : PSt := .run
  tgt : PSt := .run
  t0 : Nat := 0
  result : Nat := 0
  refBlk : Nat := 0
  cause : Nat := 0
  wakeCause : Nat := 0
  wakeStat : Nat := 0
  on : List Nat := [1]
  trans : List Nat := []
  todo : List Nat := []
  ecoOff : List Nat := []
  hs : Option PHs := none
  waitBlk : Nat := 0
  waitTime : Nat := 0
  wakeT : Option Nat := none
  hash : List Byte := []
deriving DecidableEq, Repr, Inhabited

end Sys2Proof.Machine
end

