-- ==== Sys2Proof/Machine/StCsc.lean ====
section
/-!
DEFINITION. State of the coordinate scheduler (R185–R208).
-/

namespace Sys2Proof.Machine

/-- The actions of Table CSC-3. -/
inductive Action where
  | none | set | clear | pulse | writePt | ramp | acqTrig | taskFlag | remote | reserved
deriving DecidableEq, Repr, Inhabited

/-- The content of an action entry (Table CSC-2). -/
structure ActDesc where
  coord : Nat := 0
  dir : Nat := 0
  repeat_ : Bool := false
  action : Action := .none
  group : Nat := 0
  fposPt : Bool := false
  fpos : Nat := 0
  operand : Nat := 0
  target : Nat := 0
deriving DecidableEq, Repr, Inhabited

/-- The entry states of Table CSC-4. -/
inductive EntState where
  | disarmed | armed | sent | fired | cancelled | late | lateDone | missed | dropped
deriving DecidableEq, Repr, Inhabited

/-- An active entry. `pos` is the position compared (R194, R198), `tFire` the fire instant of a REMOTE or TIME entry in ns, `last` the
instant of the last firing, `from_` the tick from which crossings are tested, `win` the class A window given to a REMOTE entry, or the one
in which its message went; `skipped` says that a step of network time skipped the fire instant of a REMOTE entry that is not sent yet (R201). -/
structure Act where
  valid : Bool := false
  desc : ActDesc := {}
  state : EntState := .disarmed
  pos : Int := 0
  tFire : Nat := 0
  last : Nat := 0
  from_ : Nat := 0
  epoch : Nat := 0
  win : Option Nat := none
  skipped : Bool := false
deriving DecidableEq, Repr, Inhabited

/-- The states of an action group (R196). -/
inductive AGState where
  | idle | armed | done
deriving DecidableEq, Repr, Inhabited

/-- An action group. `fired` counts the entries fired since its arm. -/
structure AGroup where
  state : AGState := .idle
  fired : Nat := 0
deriving DecidableEq, Repr, Inhabited

/-- An accepted arm that awaits the base-frame boundary (R195). -/
structure ArmReq where
  group : Nat
  rel : Bool
  base : Option Nat
  rsq : Bool
deriving DecidableEq, Repr, Inhabited

/-- A tracked coordinate. `edges` are the edges of a PULSE source, newest first, by tick and count; `decay` says that the velocity falls
toward zero (R186); `index` the count at the first index since the commit and `revs` the revolutions (ANGLE); `pt`, `pp`, `ps` the
anchor of the mains loop: tick, phase × 2^32 and slope per tick; `cand` the rising edges while it acquires lock; `zAcc` the last
accepted edge and `zPer` its period; `resume` the tick at which the coordinate became VALID. -/
structure Coord where
  valid : Bool := false
  resume : Nat := 0
  count : Nat := 0
  edges : List (Nat × Int) := []
  decay : Bool := false
  index : Option Int := none
  lastIdx : Int := 0
  revs : Int := 0
  locked : Bool := false
  pt : Nat := 0
  pp : Rat := 0
  ps : Rat := 0
  cand : List Nat := []
  zAcc : Nat := 0
  zPer : Nat := 0
  cycles : Nat := 0
deriving DecidableEq, Repr, Inhabited

/-- CSC_MAINS of a ZC input (Table CSC-6). -/
structure Mains where
  freq : Nat := 0
  ignored : Nat := 0
  err : Int := 0
deriving DecidableEq, Repr, Inhabited

/-- An output that CSC drives: level, the instant of its last edge in delay steps of 312.5 ps, the entry that placed it and the trailing
edge of a pulse with its entry. -/
structure OutPin where
  on : Bool := false
  at_ : Nat := 0
  ent : Nat := 0
  off : Option Nat := none
  offEnt : Nat := 0
deriving DecidableEq, Repr, Inhabited

/-- A cancel whose epoch switch a station has not confirmed (R205). -/
structure EpochWait where
  port : Nat
  station : Nat
  slot : Nat
  epoch : Nat
  teff : Nat
deriving DecidableEq, Repr, Inhabited

/-- The coordinate scheduler. `busy` is the run in its check, `next` the accepted run that takes effect at the next base-frame boundary,
`epochs` the epoch of a station's slot by (port × 128 + station) × 16 + slot, `fires` the firings of each tick from the last base frame on (R200). -/
structure Csc where
  coords : Tab Coord := []
  ents : Tab Act := []
  groups : Tab AGroup := []
  busy : Option (Nat × Nat) := none
  next : List (Nat × ActDesc) := []
  actResult : Nat := 0
  actFail : Nat := 0
  arms : List ArmReq := []
  armGroup : Nat := 0
  armResult : Nat := 0
  armCount : Nat := 0
  delayed : Nat := 0
  collide : Nat := 0
  late : Nat := 0
  mains : Tab Mains := []
  evt : Tab Word := []
  outs : Tab OutPin := []
  epochs : Tab Nat := []
  waits : List EpochWait := []
  fires : Tab Nat := []
  stopReq : Bool := false
deriving DecidableEq, Repr, Inhabited

end Sys2Proof.Machine
end

