-- ==== Sys2Proof/Machine/StFio.lean ====
section
/-!
DEFINITION. State of the field die and of its link (R289–R309).
-/

namespace Sys2Proof.Machine

/-- The group states of Table FIO-1. -/
inductive GrpSt where
  | ok | uv | waitEn | grpOff
deriving DecidableEq, Repr, Inhabited

/-- Why a group waits in WAIT_EN (Table FIO-3): power-up, a silence, or a recovery from UV whose AUTO_RESTORE channels follow their
commands (`uvAuto`) or do not (`uvOff`). -/
inductive WaitCause where
  | power | silence | uvAuto | uvOff
deriving DecidableEq, Repr, Inhabited

/-- A channel group (Table FIO-1). `fromOff` says that UV was entered from GRP_OFF, `quiet` that a silence occurred since the entry to UV;
`uvTest` is TEST_UV and `enPend` an ENABLE that takes effect at the next frame; `supply` is in units of 10 mV and `current` in mA. -/
structure FGroup where
  st : GrpSt := .waitEn
  wait : WaitCause := .power
  fromOff : Bool := false
  quiet : Bool := false
  warn : Bool := false
  uvTest : Bool := false
  enPend : Bool := false
  supply : Nat := 0
  current : Nat := 0
deriving DecidableEq, Repr, Inhabited

/-- An analog output (R306): the code driven, the tick of its last update and a code that waits for 1 µs to pass. -/
structure AOut where
  code : Int := 0
  at_ : Nat := 0
  wait : Option Int := none
deriving DecidableEq, Repr, Inhabited

/-- An analog input (R303, R304): the raw code and quality of the last conversion, and whether its burden is disconnected. -/
structure AIn where
  raw : Int := 0
  q : Byte := 0
  off : Bool := false
deriving DecidableEq, Repr, Inhabited

/-- The field die and its link. Masks have one bit per channel: `level` the filtered inputs, `cmd` the command image received, `driven`
the driven states, `hold` the driven states that HOLD_LAST keeps in a silence and `runHold` the commanded states that it keeps under RUN = 0,
`oc`, `mm` the latches, `mmOff` the drivers held off under MM_OFF, `rb` the readbacks. Bit n of `badWords` says that the n-th class A word
toward the field die, counted from now, fails its CRC (R289). `cfg` is the configuration that the field die holds, by register offset (R293). `silent` says that the field die is in
silence, `holdOver` and `runHoldOver` that HOLD_TMO has elapsed since the silence or since RUN = 0, `runOff` that a frame with RUN = 0 has
arrived. `aiT` is the instant of the conversion in progress in ns. -/
structure Fio where
  linkUp : Bool := false
  silenced : Bool := false
  cfgSync : Bool := false
  linkErr : Nat := 0
  silent : Bool := false
  holdOver : Bool := false
  runOff : Bool := false
  runHoldOver : Bool := false
  cfg : Tab Word := []
  groups : Tab FGroup := []
  level : Nat := 0
  cmd : Nat := 0
  driven : Nat := 0
  hold : Nat := 0
  runHold : Nat := 0
  badWords : Nat := 0
  oc : Nat := 0
  mm : Nat := 0
  mmOff : Nat := 0
  rb : Nat := 0
  ao : Tab AOut := []
  ai : Tab AIn := []
  aiT : Option Nat := none
  aiSkew : Tab Int := []
  calBusy : Bool := false
  calResult : Nat := 0
deriving DecidableEq, Repr, Inhabited

end Sys2Proof.Machine
end

