-- ==== Sys2Proof/Machine/StHost.lean ====
section
/-!
DEFINITION. State of the application cores, the memories and the host interface (R414–R430).
-/

namespace Sys2Proof.Machine

/-- What the spec gives one application core beyond its RV64GC architecture: the CSRs of Table CPU-2, the address of the last
access fault and whether it is running. `wdtEn`, `wdtTimeout` are XFA_WDT_CFG, `wdtWarned` the half-time warning. -/
structure Core where
  running : Bool := false
  startPc : Nat := 0
  wdtEn : Bool := false
  wdtTimeout : Nat := 0
  wdtWarned : Bool := false
  faultCode : Nat := 0
  faultValid : Bool := false
  faultImprecise : Bool := false
  mtval : Nat := 0
  eccL1 : Nat := 0
  timerIrq : Bool := false
deriving DecidableEq, Repr, Inhabited

/-- CPU (Table HIF-3): cores, the time counter, watchdog log, SRAM error log, the APLIC's edge-pending sources and the words that
the APP principal wrote to the interrupt controller's areas (R420). -/
structure Cpu where
  cores : Tab Core := [(0, { running := true })]
  wdtLog : Nat := 0
  sramCe : Nat := 0
  sramUe : Option Nat := none
  mtime : Nat := 0
  mtimeHi : Nat := 0
  eccL2 : Tab Nat := []
  edgePend : Nat := 0
  intc : Tab Word := []
deriving DecidableEq, Repr, Inhabited

/-- MEM (Table HIF-3). `capacity` is the usable capacity in units of 64 MiB. -/
structure MemSt where
  trained : Bool := false
  selfRefresh : Bool := false
  capacity : Nat := 0
  ceCnt : Nat := 0
  ueLog : Option Nat := none
deriving DecidableEq, Repr, Inhabited

/-- RING_STAT of a DMA ring (Table HIF-3). -/
inductive RingState where
  | off | active | halted
deriving DecidableEq, Repr, Inhabited

/-- A DMA ring of HIF. `stopping` says that EN = 0 awaits the end of the descriptor in progress. -/
structure Ring where
  state : RingState := .off
  cause : Nat := 0
  head : Nat := 0
  tail : Nat := 0
  stopping : Bool := false
deriving DecidableEq, Repr, Inhabited

/-- HIF_ERR_LOG and HIF_ERR_ADDR (R425). -/
structure HifErr where
  code : Nat
  bar : Nat
  addr : Nat
deriving DecidableEq, Repr, Inhabited

/-- HIF (Table HIF-3). `msi` lists the vectors raised toward the host, oldest first; `hostMem` the host memory words that HIF has
written (descriptor write-backs and payloads), by host address. -/
structure Hif where
  up : Bool := false
  rate : Nat := 0
  width : Nat := 0
  busMaster : Bool := false
  err : Option HifErr := none
  rings : Tab Ring := []
  msi : List Nat := []
  hostMem : Tab Byte := []
deriving DecidableEq, Repr, Inhabited

end Sys2Proof.Machine
end

