-- ==== Sys2Proof/Machine/StHrc.lean ====
section
/-!
DEFINITION. State of the history recorder (R380–R389).
-/

namespace Sys2Proof.Machine

/-- The history state of a point (R381, R382). ON_CHANGE: `last` the value and quality of the previous write, `used` the tokens missing from
the bucket, `held` a change without a token with its time and `heldN` how many changes it stands for. REDUCE: the interval's start, the RT
microsecond since which the value in force counts, the value and its quality, the statistics so far and the number of writes. -/
structure HrcPt where
  last : Option (Word × Byte) := none
  used : Nat := 0
  held : Option (Word × Byte × Nat) := none
  heldN : Nat := 0
  start : Nat := 0
  since : Nat := 0
  cur : Int := 0
  curQ : Byte := 0
  mn : Int := 0
  mx : Int := 0
  sum : Int := 0
  wt : Nat := 0
  q : Byte := 0
  writes : Nat := 0
  partial_ : Bool := false
  step : Bool := false
deriving DecidableEq, Repr, Inhabited

/-- The block being filled (R385): its data bytes, entries, first and latest entry time, and the previous entry's time and point. -/
structure HrcOpen where
  data : List Byte := []
  entries : Nat := 0
  base : Nat := 0
  last : Nat := 0
  prevT : Nat := 0
  prevPt : Nat := 0
deriving DecidableEq, Repr, Inhabited

/-- A closed block that is not sent (R386): its slot in the ring, header fields and gap fields, and whether it is being transmitted. -/
structure HrcBlock where
  seq : Nat := 0
  slot : Nat := 0
  entries : Nat := 0
  base : Nat := 0
  last : Nat := 0
  sending : Bool := false
  gapBlocks : Nat := 0
  gapRecs : Nat := 0
  gapFirst : Nat := 0
  gapLast : Nat := 0
deriving DecidableEq, Repr, Inhabited

/-- A block on the active gateway that waits for its host buffer: device, SEQ and the fragments received. -/
structure HrcGw where
  dev : Nat
  seq : Nat
  frags : Nat := 0
  bytes : List Byte := []
deriving DecidableEq, Repr, Inhabited

/-- The history recorder (Table HRC-5). `credits` are those that the gateway has given to this device, `gw` the blocks that a gateway has
received and not yet delivered; `carry` holds in its gap fields the blocks overwritten while no other was unsent, for the next block. -/
structure Hrc where
  pts : Tab HrcPt := []
  blk : Option HrcOpen := none
  seq : Nat := 0
  first : Bool := true
  unsent : List HrcBlock := []
  carry : HrcBlock := {}
  stalled : Bool := false
  credits : Nat := 16
  gapCnt : Nat := 0
  collapsed : Nat := 0
  recCnt : Nat := 0
  rate : Nat := 0
  grant : Nat := 0
  noGrant : Bool := false
  streaming : Bool := false
  gw : List HrcGw := []
deriving DecidableEq, Repr, Inhabited

end Sys2Proof.Machine
end

