-- ==== Sys2Proof/Machine/StHts.lean ====
section
/-!
DEFINITION. State of the hardware task scheduler (R398–R412) and the autonomy state (R29).
-/

namespace Sys2Proof.Machine

/-- The autonomy states of Table RT-10. -/
inductive Autonomy where
  | unattached | attached | autonomous | expired
deriving DecidableEq, Repr, Inhabited

/-- The task states of Table HTS-1. -/
inductive TaskState where
  | free | waiting | ready | running | suspended
deriving DecidableEq, Repr, Inhabited

/-- A task context (R398): T1 MASK, FLAGS, the configuration taken from T0 (R412), the flags delivered with its activation, the core that
runs it, a suspension to be applied at DONE or YIELD, and whether the next dispatch is a redelivery. -/
structure Task where
  state : TaskState := .free
  mask : Word := 0
  flags : Word := 0
  prio : Nat := 0
  affinity : Nat := 0
  limit : Nat := 0
  all : Bool := false
  dflags : Word := 0
  core : Nat := 0
  susp : Bool := false
  redel : Bool := false
deriving DecidableEq, Repr, Inhabited

/-- A unit of dispatch (R399): the flag activation of a task, or the released item of a flow. -/
inductive DUnit where
  | flag (task : Nat)
  | item (flow : Nat)
deriving DecidableEq, Repr, Inhabited

/-- An item of a flow (R405). -/
structure Item where
  lo : Word
  hi : Word
  redel : Bool := false
deriving DecidableEq, Repr, Inhabited

/-- A core's port (Table HTS-6): the unit RUNNING on the core, a stalled DISP read, what DISP latched, the unit whose preemption is pending
and the result of the last submission. -/
structure Port where
  unit : Option DUnit := none
  waiting : Bool := false
  disp : Word := 0
  flags : Word := 0
  flow : Nat := 0
  itemLo : Word := 0
  itemHi : Word := 0
  preempt : Option DUnit := none
  subResult : Nat := 0
deriving DecidableEq, Repr, Inhabited

/-- The scheduler. `ready` holds the READY units in the order in which they became READY, `flows` each flow's items with the oldest first;
`detachT` and `windowEnd` are network times. -/
structure Hts where
  tasks : Tab Task := []
  ready : List DUnit := []
  flows : Tab (List Item) := []
  ports : Tab Port := []
  redeliv : Nat := 0
  dropped : Nat := 0
  cmdTask : Nat := 0
  cmdResult : Nat := 0
  poolFullT : Option Nat := none
  auto : Autonomy := .unattached
  detachT : Nat := 0
  windowEnd : Nat := 0
  hbPeriod : Nat := 10
deriving DecidableEq, Repr, Inhabited

end Sys2Proof.Machine
end

