-- ==== Sys2Proof/Machine/StIlp.lean ====
section
/-!
DEFINITION. State of the interlock logic processor (R243–R267).
-/

namespace Sys2Proof.Machine

/-- ILP_MODE_STAT.MODE (Table ILP-9). -/
inductive IMode where
  | stop | run | hold
deriving DecidableEq, Repr, Inhabited

/-- A timer record (Table ILP-4) with the ET of its last execution. -/
structure ITimer where
  pt : Word := 0
  ptRun : Word := 0
  start : Nat := 0
  q : Bool := false
  running : Bool := false
  inPrev : Bool := false
  ret : Bool := false
  et : Nat := 0
deriving DecidableEq, Repr, Inhabited

/-- A counter record (Table ILP-4). -/
structure ICount where
  pv : Word := 0
  cv : Word := 0
  q : Bool := false
  cuPrev : Bool := false
  ret : Bool := false
deriving DecidableEq, Repr, Inhabited

/-- An instance-table entry (R262): KIND, FIRST, COUNT, SIGNATURE. -/
structure ISlot where
  kind : Nat
  first : Nat
  count : Nat
  sig : Word
deriving DecidableEq, Repr, Inhabited

/-- A Prosa image as loaded (R261, Table ILP-8), with the P list that the loader builds. -/
structure IImage where
  code : List Word := []
  imap : List Word := []
  qmap : List Word := []
  wmap : List (Word × Word) := []
  kInit : List Word := []
  tPre : List Word := []
  cPre : List Word := []
  slots : List ISlot := []
  rInit : List Word := []
  eN : Nat := 0
  mN : Nat := 0
  wN : Nat := 0
  crc : Word := 0
  plist : List Nat := []
deriving DecidableEq, Repr, Inhabited

/-- A queued on-line change (R265). -/
structure IChg where
  space : Nat
  idx : Nat
  val : Word
  principal : Nat
deriving DecidableEq, Repr, Inhabited

/-- The interlock logic processor. `I`, `Q`, `M`, `E` are bit images, `W`, `K`, `T`, `C` the word spaces, `P` the snapshot of the P list by hot index.
`inScan` says that a scan is in progress and held in HOLD, `execN` how many instructions it executed, `stw` the words it stored. `tRef` is the RT time in
10 ns since which running time is not yet in `tAcc`, `busyTo` the RT time at which the scan ends, `overrun` that it has not been counted as an overrun, `doom`
that its write-out waits, since its overrun will stop the ILP; `lastQ` and `lastW` hold the last completed write-out by map entry. -/
structure Ilp where
  mode : IMode := .stop
  empty : Bool := true
  newImage : Bool := false
  result : Nat := 0
  cause : Nat := 8
  img : IImage := {}
  I : Tab Bool := []
  Q : Tab Bool := []
  M : Tab Bool := []
  E : Tab Bool := []
  W : Tab Word := []
  K : Tab Word := []
  T : Tab ITimer := []
  C : Tab ICount := []
  P : Tab Entry := []
  acc : Bool := false
  wacc : Word := 0
  bstack : List (Bool × Bool) := []
  cstack : List Nat := []
  pc : Nat := 0
  inScan : Bool := false
  execN : Nat := 0
  stw : List Nat := []
  tclk : Nat := 0
  tAcc : Nat := 0
  tRef : Nat := 0
  busyTo : Nat := 0
  overrun : Bool := false
  doom : Bool := false
  consec : Nat := 0
  dur : Nat := 0
  lastQ : Tab (Option Bool) := []
  lastW : Tab (Option Word) := []
  scanLast : Nat := 0
  scanMax : Nat := 0
  scanCnt : Nat := 0
  ovrCnt : Nat := 0
  execLast : Nat := 0
  loadBusy : Bool := false
  loadResult : Nat := 0
  loadPos : Nat := 0
  chg : List IChg := []
  chgResult : Nat := 0
  retLost : Bool := false
  retainLost : Bool := false
  slotsReset : Nat := 0
deriving DecidableEq, Repr, Inhabited

end Sys2Proof.Machine
end

