-- ==== Sys2Proof/Machine/StLne.lean ====
section
/-!
DEFINITION. State of the Lane ports (R310–R328).
-/

namespace Sys2Proof.Machine

/-- The device's view of a station (Table LNE-6, with ABSENT). -/
inductive StaState where
  | init | enum | config | operational | safe | absent
deriving DecidableEq, Repr, Inhabited

/-- The port states of Table LNE-7, with ETH_UP. -/
inductive PortState where
  | off | linkWait | enum | config | running | ethUp
deriving DecidableEq, Repr, Inhabited

/-- What an IDENT frame reports of a station (Table LNE-5). -/
structure Ident where
  vendor : Nat := 0
  product : Nat := 0
  serial : Nat := 0
  rev : Nat := 0
  aInMax : Nat := 0
  aOutMax : Nat := 0
  bInMax : Nat := 0
  bOutMax : Nat := 0
  tSin : Nat := 0
  tSout : Nat := 0
  prep : Nat := 0
  q : Nat := 0
  fwd : Nat := 0
  remote : Nat := 0
deriving DecidableEq, Repr, Inhabited

/-- A class C frame that the port has sent and whose answer is out (Table LNE-2), by position or address. -/
inductive CFrame where
  | probe (pos : Nat)
  | cfg (sta : Nat)
  | cmd (sta : Nat) (code : Nat)
  | delayReq (pos : Nat)
deriving DecidableEq, Repr, Inhabited

/-- The body of a CFG frame (Table LNE-5) but for its CRC: HOLD_TMO in units of 10 ms, CYCLE_W in windows, UP_s and B_s in units of 10 ns, D_s in ns. -/
structure CfgBody where
  pos : Nat
  addr : Nat
  holdLast : Bool
  wdN : Nat
  holdTmo : Nat
  aIn : Nat
  aOut : Nat
  bIn : Nat
  bOut : Nat
  cycleW : Nat
  up : Nat
  bound : Nat
  delay : Nat
deriving DecidableEq, Repr, Inhabited

/-- A station found on the line in enumeration: its position's identity and measured delay; `sta` the descriptor that took it. -/
structure Found where
  ident : Ident := {}
  delay : Option Nat := none
  sta : Option Nat := none
deriving DecidableEq, Repr, Inhabited

/-- A station with a descriptor. `ds` is the admitted line delay, `dsNow` the one last measured, `failed` says that its configuration
failed, `aHeard` and `bHeard` that its frame of this window or cycle arrived, `missed` counts unheard cycles, `noOut` marks the next
B_OUT, `aOut` and `bOut` are the images last sent, `frameT` the sample time of its latest B_IN frame. -/
structure Sta where
  state : StaState := .absent
  pos : Nat := 0
  ident : Ident := {}
  ds : Nat := 0
  dsNow : Nat := 0
  arr : Nat := 0
  upOfs : Nat := 0
  bs : Nat := 0
  failed : Bool := false
  stale : Bool := false
  commLost : Bool := false
  cause : Nat := 0
  armsRx : Nat := 0
  epochDrops : Nat := 0
  aHeard : Bool := false
  aMissed : Bool := false
  bHeard : Bool := false
  missed : Nat := 0
  noOut : Bool := false
  aOut : List Byte := []
  bOut : List Byte := []
deriving DecidableEq, Repr, Inhabited

/-- An epoch record of a window frame (Table LNE-3): slot, accept time and the stations of MASK. -/
structure EpochRec where
  slot : Nat
  tc : Nat
  stations : List Nat
deriving DecidableEq, Repr, Inhabited

/-- An arm record of a window frame (Table LNE-3). -/
structure ArmRec where
  station : Nat
  slot : Nat
  epoch : Nat
  output : Nat
  op : Nat
  width : Nat
  tFire : Nat
deriving DecidableEq, Repr, Inhabited

/-- A window frame as last sent. -/
structure WinFrame where
  tw : Nat := 0
  epochs : List EpochRec := []
  arms : List ArmRec := []
deriving DecidableEq, Repr, Inhabited

/-- The window timing of an admitted port in ns (R315), and the load of its class B (LNE_BLOAD). -/
structure WinTiming where
  lwf : Nat := 0
  inOfs : Nat := 0
  inEnd : Nat := 0
  outOfs : Nat := 0
  winEnd : Nat := 0
  bSent : Nat := 0
  bRecv : Nat := 0
deriving DecidableEq, Repr, Inhabited

/-- A set-point of a LANE axis's drive (R235): drive, commanded position in units × 2^16 and velocity in units/s. -/
structure SetPoint where
  drive : Nat
  pos : Int
  vel : Int
deriving DecidableEq, Repr, Inhabited

/-- A Lane frame (Table LNE-2), sent or received. A received frame carries whether its FCS is good; `start` is the time in ns from the
window start at which an A_IN frame's first byte reached the port, `rtt` and `turn` the times of R320. -/
inductive LaneFrame where
  | window (f : WinFrame)
  | aOut (sta seq : Nat) (img : List Byte) (drv : List SetPoint)
  | bOut (sta seq : Nat) (noOut : Bool) (img : List Byte) (drv : List SetPoint)
  | cfg (sta : Nat) (body : CfgBody)
  | ctl (f : CFrame)
  | aIn (sta start : Nat) (fcs : Bool) (body : List Byte) (drv : List DriveStat)
  | bIn (sta : Nat) (fcs : Bool) (body : List Byte) (drv : List DriveStat)
  | ident (pos : Nat) (fcs : Bool) (body : List Byte)
  | ack (sta : Nat) (fcs : Bool) (typ res : Nat)
  | delayResp (pos : Nat) (fcs : Bool) (rtt turn : Nat)
deriving DecidableEq, Repr, Inhabited

/-- Fault injection of a port (R326): the rule and EN in force and those that take effect at the next window start; `held` is the
frame that REORDER keeps and `delayed` those that DELAY keeps, with whether they were received. -/
structure Inj where
  unlocked : Bool := false
  en : Bool := false
  enNext : Option Bool := none
  rule : Nat := 0
  affected : Nat := 0
  seen : Nat := 0
  held : Option (LaneFrame × Bool) := none
  delayed : List (LaneFrame × Bool × Nat) := []
deriving DecidableEq, Repr, Inhabited

/-- A Lane port. `found` are the stations by position, `sentC` the class C frames without an answer, `outEpochs` and `outArms` the
records that wait for the next window frame, `sent` the frames sent since the last window start with whether their FCS is good,
`ethSent` the Ethernet frames sent since the last base-frame boundary. -/
structure LPort where
  state : PortState := .off
  eth : Bool := false
  link : Bool := false
  stopReq : Bool := false
  found : Tab Found := []
  nFound : Nat := 0
  sentC : List CFrame := []
  result : Nat := 0
  resultSta : Nat := 0
  win : WinTiming := {}
  frame : WinFrame := {}
  outEpochs : List EpochRec := []
  outArms : List ArmRec := []
  cntFcs : Nat := 0
  cntMiss : Nat := 0
  cntLate : Nat := 0
  cntForeign : Nat := 0
  inj : Inj := {}
  sent : List (LaneFrame × Bool) := []
  ethSent : List (List Byte) := []
  rxTail : Nat := 0
  rxHead : Nat := 0
  txTail : Nat := 0
  txHead : Nat := 0
deriving DecidableEq, Repr, Inhabited

/-- The Lane ports. Stations are keyed by port × 128 + station. -/
structure Lne where
  ports : Tab LPort := []
  sta : Tab Sta := []
deriving DecidableEq, Repr, Inhabited

end Sys2Proof.Machine
end

