-- ==== Sys2Proof/Machine/Profile.lean ====
section
/-!
DEFINITION. Motion profiles (R212–R214): plans made of velocity changes over whole profile periods. Positions are in units × 2^16 and
velocities in such units per period, both exact.
-/

namespace Sys2Proof.Machine

/-- One part of a plan. `ramp n v0 v1` changes the velocity evenly over `n` periods; `scurve n j v0 v1` over `n` periods with jerk phases
of `j` periods at both ends; `ease n v0 a0` brings the acceleration `a0` to zero over `n` periods. -/
inductive Seg where
  | ramp (n : Nat) (v0 v1 : Rat)
  | scurve (n j : Nat) (v0 v1 : Rat)
  | ease (n : Nat) (v0 a0 : Rat)
deriving DecidableEq, Repr

/-- A plan from position `p0`: its parts, the position they end on, and the velocity held after them. -/
structure Plan where
  p0 : Rat := 0
  segs : List Seg := []
  pEnd : Rat := 0
  vEnd : Rat := 0
deriving DecidableEq, Repr, Inhabited

/-- The periods of a part. -/
def Seg.len : Seg → Nat
  | .ramp n _ _ => n | .scurve n _ _ _ => n | .ease n _ _ => n

/-- A natural number as a rational. -/
def q (n : Nat) : Rat := ((n : Int) : Rat)

/-- The distance covered in the first `k` periods of a part. -/
def Seg.dist : Seg → Nat → Rat
  | .ramp n v0 v1, k => if n = 0 then 0 else v0 * q k + (v1 - v0) * q (k * k) / q (2 * n)
  | .scurve n j v0 v1, k =>
    if n ≤ j ∨ j = 0 then 0
    else
      let a := (v1 - v0) / q (n - j)
      let jk := a / q j
      if k ≤ j then v0 * q k + jk * q (k * k * k) / 6
      else if k ≤ n - j then
        v0 * q j + jk * q (j * j * j) / 6 + (v0 + a * q j / 2) * q (k - j) + a * q ((k - j) * (k - j)) / 2
      else (v0 + v1) / 2 * q n - (v1 * q (n - k) - jk * q ((n - k) * (n - k) * (n - k)) / 6)
  | .ease n v0 a0, k => if n = 0 then 0 else v0 * q k + a0 * q (k * k) / 2 - a0 * q (k * k * k) / q (6 * n)

/-- The velocity after `k` periods of a part. -/
def Seg.vel : Seg → Nat → Rat
  | .ramp n v0 v1, k => if n = 0 then v1 else v0 + (v1 - v0) * q k / q n
  | .scurve n j v0 v1, k =>
    if n ≤ j ∨ j = 0 then v1
    else
      let a := (v1 - v0) / q (n - j)
      let jk := a / q j
      if k ≤ j then v0 + jk * q (k * k) / 2
      else if k ≤ n - j then v0 + a * q j / 2 + a * q (k - j)
      else v1 - jk * q ((n - k) * (n - k)) / 2
  | .ease n v0 a0, k => if n = 0 then v0 else v0 + a0 * q k - a0 * q (k * k) / q (2 * n)

/-- The acceleration after `k` periods of a part. -/
def Seg.accel : Seg → Nat → Rat
  | .ramp n v0 v1, k => if k < n then (v1 - v0) / q n else 0
  | .scurve n j v0 v1, k =>
    if n ≤ j ∨ j = 0 then 0
    else
      let a := (v1 - v0) / q (n - j)
      if k ≤ j then a * q k / q j else if k ≤ n - j then a else a * q (n - k) / q j
  | .ease n _ a0, k => if n = 0 then 0 else a0 * q (n - k) / q n

/-- Position, velocity and acceleration of a plan after `k` periods. -/
def Plan.at_ (p : Plan) (k : Nat) : Rat × Rat × Rat :=
  let rec go (pos : Rat) (k : Nat) : List Seg → Rat × Rat × Rat
    | [] => (p.pEnd + p.vEnd * q k, p.vEnd, 0)
    | s :: t => if k < s.len then (pos + s.dist k, s.vel k, s.accel k) else go (pos + s.dist s.len) (k - s.len) t
  go p.p0 k p.segs

/-- The periods of a plan until its end. -/
def Plan.len (p : Plan) : Nat := (p.segs.map Seg.len).sum

/-- Round a rational up to a natural number. -/
def ceilN (x : Rat) : Nat := (-((-x.num) / (x.den : Int))).toNat

/-- The magnitude of a rational. -/
def absQ (x : Rat) : Rat := if x < 0 then -x else x

/-- The square root of a natural number, rounded down, by bits. -/
def isqrtGo (n : Nat) : Nat → Nat → Nat
  | 0, r => r
  | b + 1, r => let c := r + 2 ^ b; if c * c ≤ n then isqrtGo n b c else isqrtGo n b r

/-- The square root of a natural number below 2^256, rounded down. -/
def isqrt (n : Nat) : Nat := isqrtGo n 128 0

/-- The limits of a plan, per period: speed, acceleration, deceleration and, for a seven-segment profile, jerk. -/
structure Limits where
  v : Rat
  a : Rat
  d : Rat
  j : Option Rat
deriving DecidableEq, Repr

/-- The whole periods of a velocity change of `dv` at acceleration `a`, with the periods of each jerk phase (R212). -/
def durations (dv a : Rat) : Option Rat → Nat × Nat
  | none => (ceilN (dv / a), 0)
  | some j =>
    if dv = 0 then (0, 0)
    else if a * a ≤ dv * j then let tj := max 1 (ceilN (a / j)); (2 * tj + ceilN (dv / a - a / j), tj)
    else
      let x := dv / j
      let r := isqrt ((x.num.toNat + x.den - 1) / x.den)
      let tj := max 1 (if q (r * r) < x then r + 1 else r)
      (2 * tj, tj)

/-- The distance of a velocity change as planned without rounding. -/
def idealDist (v0 v1 a : Rat) (j : Option Rat) : Rat :=
  let dv := absQ (v1 - v0)
  let t := match j with
    | none => dv / a
    | some j => if a * a ≤ dv * j then dv / a + a / j else
        2 * (q (isqrt ((dv / j * q (2 ^ 64)).floor.toNat)) / q (2 ^ 32))
  (v0 + v1) / 2 * t

/-- The highest speed up to `hi` from which a move over `dist` can still stop, by halving the interval. -/
def peakGo (v0 dist : Rat) (l : Limits) : Nat → Rat → Rat → Rat
  | 0, lo, _ => lo
  | n + 1, lo, hi =>
    let m := (lo + hi) / 2
    if idealDist v0 m l.a l.j + idealDist m 0 l.d l.j ≤ dist then peakGo v0 dist l n m hi else peakGo v0 dist l n lo m

/-- A velocity change over given periods. -/
def change (nj : Nat × Nat) (v0 v1 : Rat) : List Seg :=
  if nj.1 = 0 then [] else if nj.2 = 0 then [.ramp nj.1 v0 v1] else [.scurve nj.1 nj.2 v0 v1]

/-- A move over `dist ≥ 0` from a speed `v0 ≥ 0` towards the target, ending at rest on it: the durations rounded up and the peak lowered
(R212). `none` where no such plan keeps the limits with these durations. -/
def movePlan (v0 dist : Rat) (l : Limits) (extra : Nat) : Option (List Seg) :=
  let full := idealDist v0 l.v (if l.v < v0 then l.d else l.a) l.j + idealDist l.v 0 l.d l.j
  let cruise := decide (full ≤ dist)
  let vp := if cruise then l.v else peakGo v0 dist l 64 v0 l.v
  let up := decide (v0 ≤ vp)
  let (n1, j1) := durations (absQ (vp - v0)) (if up then l.a else l.d) l.j
  let (n3, j3) := durations vp l.d l.j
  let n1 := n1 + extra
  let n3 := n3 + extra
  let n2 := if cruise ∧ 0 < l.v then ceilN ((dist - full) / l.v) else 0
  let den := q n1 / 2 + q n2 + q n3 / 2
  if den ≤ 0 then none
  else
    let v := (dist - v0 * q n1 / 2) / den
    let a1 := if n1 = 0 then (if v = v0 then 0 else l.a + l.d + 1) else absQ (v - v0) / q (n1 - j1)
    let a3 := if n3 = 0 then (if v = 0 then 0 else l.d + 1) else v / q (n3 - j3)
    let jOk := match l.j with
      | none => true
      | some j => (decide (j1 = 0) || decide (a1 ≤ j * q j1)) && (decide (j3 = 0) || decide (a3 ≤ j * q j3))
    let vTop := if l.v < v0 then v0 else l.v
    let aTop := if v0 ≤ v then l.a else l.d
    if decide (0 ≤ v) && decide (v ≤ vTop) && decide (a1 ≤ aTop) && decide (a3 ≤ l.d) && jOk then
      some (change (n1, j1) v0 v ++ (if n2 = 0 then [] else [.ramp n2 v v]) ++ change (n3, j3) v 0)
    else none

/-- A segment with its direction reversed. -/
def Seg.neg : Seg → Seg
  | .ramp n a b => .ramp n (-a) (-b) | .scurve n j a b => .scurve n j (-a) (-b) | .ease n a b => .ease n (-a) (-b)

/-- The end of a list of parts from a position. -/
def segsEnd (p : Rat) (l : List Seg) : Rat := l.foldl (fun p s => p + s.dist s.len) p

/-- Bring the acceleration to zero first (R214: no step in acceleration under a seven-segment profile). -/
def easePart (v a : Rat) : Option Rat → List Seg × Rat
  | none => ([], v)
  | some j =>
    if a = 0 then ([], v)
    else let n := max 1 (ceilN (absQ a / j)); ([.ease n v a], v + a * q n / 2)

/-- Decelerate to rest (R236: STOP and QSTOP). -/
def stopPlan (p v a : Rat) (l : Limits) : Plan :=
  let (pre, v1) := easePart v a l.j
  let segs := pre ++ change (durations (absQ v1) l.d l.j) v1 0
  { p0 := p, segs := segs, pEnd := segsEnd p segs, vEnd := 0 }

/-- A move from rest over a signed distance. -/
def restPlan (dist : Rat) (l : Limits) : List Seg :=
  let fwd := decide (0 ≤ dist)
  let segs := ((List.range 64).findSome? fun k => movePlan 0 (absQ dist) l k).getD []
  if fwd then segs else segs.map Seg.neg

/-- A move to a target from the current position, velocity and acceleration (R212, R214). Where the target lies behind or within the
stopping distance, the axis stops and returns. -/
def targetPlan (p v a tgt : Rat) (l : Limits) : Plan :=
  let (pre, v1) := easePart v a l.j
  let p1 := segsEnd p pre
  let dist := tgt - p1
  let dir : Rat := if dist < 0 then -1 else 1
  let direct := if 0 ≤ v1 * dir then (List.range 64).findSome? fun k => movePlan (v1 * dir) (absQ dist) l k else none
  let segs := match direct with
    | some ss => pre ++ (if dir < 0 then ss.map Seg.neg else ss)
    | none =>
      let st := pre ++ change (durations (absQ v1) l.d l.j) v1 0
      let p2 := segsEnd p st
      st ++ restPlan (tgt - p2) l
  { p0 := p, segs := segs, pEnd := tgt, vEnd := 0 }

/-- A ramp to a speed that is then held (R213): speed rises at ACC and falls at DEC, through zero where the direction changes. -/
def speedPlan (p v a w : Rat) (l : Limits) : Plan :=
  let (pre, v1) := easePart v a l.j
  let part := fun (x y : Rat) => change (durations (absQ (y - x)) (if absQ x ≤ absQ y then l.a else l.d) l.j) x y
  let segs := pre ++ (if v1 * w < 0 then part v1 0 ++ part 0 w else part v1 w)
  { p0 := p, segs := segs, pEnd := segsEnd p segs, vEnd := w }

end Sys2Proof.Machine
end

