-- ==== Sys2Proof/Machine/StMot.lean ====
section
/-!
DEFINITION. State of the motion engine (R209–R242): axes, interpolation groups, encoders and drive channels.
-/

namespace Sys2Proof.Machine

/-- The axis states of Table MOT-7. -/
inductive AxState where
  | disabled | standstill | moving | following | homing | stopping | fault
deriving DecidableEq, Repr, Inhabited

/-- What an axis is bound to (R209). -/
inductive AxBind where
  | virtual_ | local_ | lane | reserved
deriving DecidableEq, Repr, Inhabited

/-- An axis descriptor (Table MOT-8): `limP` and `limN` are the limit points that are enabled, `limPPt` and `limNPt` the fields LIM_P_PT and LIM_N_PT. -/
structure AxisDesc where
  bind : AxBind := .virtual_
  drv : Nat := 0
  encEn : Bool := false
  enc : Nat := 0
  mstep : Nat := 0
  standstill : Nat := 0
  faultShort : Bool := false
  seven : Bool := false
  softLim : Bool := false
  stallEn : Bool := false
  port : Nat := 0
  station : Nat := 0
  drive : Nat := 0
  remB : Bool := false
  vmax : Nat := 0
  acc : Nat := 0
  dec : Nat := 0
  qdec : Nat := 0
  jerk : Nat := 0
  posMin : Int := 0
  posMax : Int := 0
  ferrMax : Nat := 0
  encNum : Nat := 0
  encDen : Nat := 0
  ferrPers : Nat := 0
  holdDly : Nat := 0
  uRi : Int := 0
  uHold : Int := 0
  keVmax : Int := 0
  dutyMax : Int := 0
  vbusPt : Nat := 0
  vbusMin : Int := 0
  cmdPt : Nat := 0
  limP : Option Nat := none
  limN : Option Nat := none
  limPPt : Nat := 0
  limNPt : Nat := 0
  stallPt : Nat := 0
  stallThr : Int := 0
  stallPers : Nat := 0
  stallVmin : Nat := 0
  latchSrc : Nat := 0
  edge : Nat := 0
  homeMode : Nat := 0
  homeV1 : Int := 0
  homeV2 : Int := 0
  homePos : Int := 0
deriving DecidableEq, Repr, Inhabited

/-- A command accepted for an axis and not yet applied (R236). -/
inductive AxCmd where
  | enable | moveAbs (p : Int) | moveRel (d : Int) | moveVel (v : Int) | stop | qstop | home | follow | resetFault | latchArm
deriving DecidableEq, Repr, Inhabited

/-- What drives a moving axis: nothing, a plan begun `k` periods ago, a speed target under the soft limits, the command point, or the
path of a group. -/
inductive Motion where
  | rest
  | plan (p : Plan) (k : Nat)
  | speed (p : Plan) (k : Nat)
  | follow
  | group (g : Nat)
deriving DecidableEq, Repr, Inhabited

/-- The steps of a homing sequence (Table MOT-4). -/
inductive HomeStep where
  | none | seekSwitch | seekIndex | brake | goTo
deriving DecidableEq, Repr, Inhabited

/-- How the phases of a LOCAL axis are driven (R219, R227). -/
inductive PhaseMode where
  | off | short | full | reduced
deriving DecidableEq, Repr, Inhabited

/-- Where the commanded position stood at an instant and how fast it moves since: position in units × 2^16 and slope per ns. -/
structure PosBase where
  t : Nat := 0
  p : Rat := 0
  slope : Rat := 0
deriving DecidableEq, Repr, Inhabited

/-- An axis. `base` and `hist` give the commanded position at every instant of the last 4 µs (R230); `vel` and `accl` are those of the
profile, per period; `faultNext` a fault that awaits the profile boundary; `jump` says that the position was shifted at `base.t`, so
the axis counts as not counting in that tick (R231). `replan` says that parameters changed (R214), `quick` that the axis stops at QDEC;
`stallSum` and `stallN` gather |STALL_PT| over a profile period (R226). -/
structure Axis where
  desc : AxisDesc := {}
  applied : Bool := false
  next : Option AxisDesc := none
  state : AxState := .disabled
  fault : Nat := 0
  faultNext : Nat := 0
  homed : Bool := false
  atLimit : Bool := false
  limit : Bool := false
  dutySat : Bool := false
  cmdBad : Bool := false
  vbusBad : Bool := false
  inGroup : Option Nat := none
  cmd : Option AxCmd := none
  motion : Motion := .rest
  base : PosBase := {}
  hist : List PosBase := []
  vel : Rat := 0
  accl : Rat := 0
  velCmd : Int := 0
  cmdLast : Option Int := none
  encOfs : Rat := 0
  stPos : Option Int := none
  ferrCnt : Nat := 0
  stallCnt : Nat := 0
  vbus : Int := 0
  vbusLow : Bool := false
  phase : PhaseMode := .off
  ampl : Int := 0
  theta : Nat := 0
  holdSince : Nat := 0
  holding : Bool := false
  latArmed : Bool := false
  latCap : Bool := false
  latEnc : Int := 0
  latPos : Int := 0
  latT : Nat := 0
  homeStep : HomeStep := .none
  homeCap : Int := 0
  stopCause : Nat := 0
  jump : Bool := false
  replan : Bool := false
  quick : Bool := false
  stallSum : Nat := 0
  stallN : Nat := 0
deriving DecidableEq, Repr, Inhabited

/-- A group descriptor (Table MOT-9): the members by slot. -/
structure GrpDesc where
  members : List (Nat × Nat) := []
  v : Nat := 0
  acc : Nat := 0
  dec : Nat := 0
  jerk : Nat := 0
  seven : Bool := false
deriving DecidableEq, Repr, Inhabited

/-- A member of a moving group: its axis, start position and distance, in units × 2^16. -/
structure GrpMember where
  axis : Nat
  p0 : Int
  delta : Int
deriving DecidableEq, Repr, Inhabited

/-- An interpolation group (R233, R234). `dist` is the leader's distance |Δ_L|, the length of the path in units × 2^16; `cmd` holds the targets of an accepted GMOVE
until the profile boundary; `skip` says that the plan begins at the next boundary. -/
structure Grp where
  desc : GrpDesc := {}
  next : Option GrpDesc := none
  moving : Bool := false
  members : List GrpMember := []
  lead : Nat := 0
  plan : Plan := {}
  k : Nat := 0
  stopping : Bool := false
  cmd : Option (List Int) := none
  skip : Bool := false
  dist : Nat := 0
deriving DecidableEq, Repr, Inhabited

/-- An encoder input (R228): the levels of A, B and I, the count, and the edges of the last 4 µs and more, newest first, by time and
count after the edge, `old` the count before the oldest of them; `index` is the last index edge by time and count. -/
structure Enc where
  a : Bool := false
  b : Bool := false
  i : Bool := false
  count : Int := 0
  up : Bool := true
  edges : List (Nat × Int) := []
  old : Int := 0
  index : Option (Nat × Int) := none
deriving DecidableEq, Repr, Inhabited

/-- The drive window of a phase in a PWM period (R223): from `lo` to `hi` in RT ticks of the period, positive or negative. -/
structure Window where
  lo : Nat := 0
  hi : Nat := 0
  pos : Bool := true
deriving DecidableEq, Repr, Inhabited

/-- A drive channel: its period in force, its start, the phase mode of its pins and the two windows. -/
structure Drive where
  per : Nat := 10000
  t0 : Nat := 0
  mode : PhaseMode := .off
  dA : Int := 0
  dB : Int := 0
  wA : Window := {}
  wB : Window := {}
deriving DecidableEq, Repr, Inhabited

/-- The motion engine. `tB` is the last profile boundary, `encHi` what ENC_CNT_READ latched, `latLvl` the latch inputs' levels. -/
structure Mot where
  axes : Tab Axis := []
  grps : Tab Grp := []
  encs : Tab Enc := []
  drives : Tab Drive := []
  tB : Nat := 0
  cmdAxis : Nat := 0
  cmdResult : Nat := 0
  axisBusy : Option Nat := none
  axisResult : Nat := 0
  axisLast : Nat := 0
  grpBusy : Option Nat := none
  grpResult : Nat := 0
  grpLast : Nat := 0
  encHi : Tab Nat := []
  encErr : Nat := 0
  evt : Tab Word := []
  gevt : Nat := 0
  latLvl : Nat := 0
deriving DecidableEq, Repr, Inhabited

end Sys2Proof.Machine
end

