-- ==== Sys2Proof/Machine/StRsq.lean ====
section
/-!
DEFINITION. State of the recipe sequencer (R159–R184).
-/

namespace Sys2Proof.Machine

/-- The stream states of Table RSQ-8. -/
inductive SState where
  | idle | run | hold | pause | park | abort | done | fault | resumePending
deriving DecidableEq, Repr, Inhabited

/-- The stream commands of Table RSQ-9. -/
inductive SCmd where
  | start (step : Nat) | hold | resume | pause | abort | park | reset | recheck | discard
deriving DecidableEq, Repr, Inhabited

/-- How far the resume check of a stream has come (R179–R181): not asked for, to be started at the next tick (with or without
RECHECK), waiting for its resume-critical points, passed, or ended with a reason that is final until the next RECHECK. -/
inductive Check where
  | none | due (recheck : Bool) | waiting | passed | ended
deriving DecidableEq, Repr, Inhabited

/-- One (address, data) pair of an evaluation's write list (R140): a word of the stream's state by its offset in the window, a point, a ramp or
mode request of a loop, an arm of an action group, flags of a task. -/
inductive StreamWrite where
  | state (off data : Nat) | point (idx data : Nat) | ramp (loop data : Nat) | mode (loop data : Nat) | arm (group data : Nat) | flags (task data : Nat)
deriving DecidableEq, Repr, Inhabited

/-- A stream. `win` holds the window's configuration words by offset (Table RSQ-13) and `vars` V0–V63; `held` is the held decision,
0 none, 1 END, 2 TIMEOUT, 3 ALARM, with the index of its condition; `conds` and `latched` are SCOND; `inband` the counts and `edge` the
last good values of the current step's conditions; `seq` is SCKPT_SEQ, `lastSeq` the SEQ of the last checkpoint written and `bufs` the SEQ of the intact checkpoint that each buffer holds;
`ckptDue` says that this evaluation ends with a checkpoint; `ticks`
counts step ticks since the last checkpoint; `cur` is the entry of the current step in use; `cmds` are the accepted commands that wait for their
evaluation or tick; `fence` and `expiry` say that the PD_MEM fence holds the stream at its next evaluation (R468) and that the end of the
autonomy window parks it at the next tick (R29). -/
structure Stream where
  win : Tab Word := []
  vars : Tab Word := []
  stflag : Word := 0
  state : SState := .idle
  atBoundary : Bool := false
  parked : Bool := false
  held : Nat := 0
  heldCond : Nat := 0
  step : Nat := 0
  chosen : Nat := 0
  elapsed : Nat := 0
  conds : Nat := 0
  latched : Nat := 0
  inband : Tab Nat := []
  edge : Tab (Option Int) := []
  seq : Nat := 0
  lastSeq : Nat := 0
  bufs : Tab (Option Nat) := []
  ckptDue : Bool := false
  ticks : Nat := 0
  reason : Nat := 0
  param : Nat := 0
  cur : List Word := []
  prefetched : Bool := false
  cmds : List SCmd := []
  fence : Bool := false
  expiry : Bool := false
  check : Check := .none
deriving DecidableEq, Repr, Inhabited

/-- The recipe sequencer (Table RSQ-14). `loading` says that the checkpoint reads of R178 have not ended; `writes` is the write list of the last
evaluation (R140). -/
structure Rsq where
  streams : Tab Stream := []
  loading : Bool := false
  writes : List StreamWrite := []
  cmdStream : Nat := 0
  cmdResult : Nat := 0
  stepBusy : Option (Nat × Nat) := none
  stepStream : Nat := 0
  stepNo : Nat := 0
  stepResult : Nat := 0
  late : Nat := 0
  evt : Tab Word := []
  alm : Tab Word := []
deriving DecidableEq, Repr, Inhabited

end Sys2Proof.Machine
end

