-- ==== Sys2Proof/Machine/StSaf.lean ====
section
/-!
DEFINITION. State of the safety island (R268–R288).
-/

namespace Sys2Proof.Machine

/-- The output states of Table SAF-2. -/
inductive SafState where
  | init | off | waitReset | on | fault
deriving DecidableEq, Repr, Inhabited

/-- A safety output as one channel sees it: its state, whether a reset was accepted since INIT or FAULT, its first fault cause and all latched
causes (Table SAF-5). -/
structure SOut where
  st : SafState := .init
  resetSeen : Bool := false
  cause : Nat := 0
  causes : List Nat := []
deriving DecidableEq, Repr, Inhabited

/-- A safety input pair as one channel sees it: the cause that keeps it in demand (R275), and whether both channels of the pair have been in demand together since. -/
structure SPair where
  held : Nat := 0
  both : Bool := false
deriving DecidableEq, Repr, Inhabited

/-- A channel of the island: supply present, start-up self-test passed, partner heartbeat seen since its start, and lost, its own heartbeat level, the filtered input levels
(bit 2 × pair for A, 2 × pair + 1 for B), pairs and outputs; the causes latched for the whole channel (R271), whether its stored set fails its CRC (R283), and the outputs
whose EDM timer runs (R278). -/
structure SChan where
  alive : Bool := true
  passed : Bool := false
  seen : Bool := false
  lost : Bool := false
  hb : Bool := false
  filt : Nat := 0
  pairs : Tab SPair := []
  outs : Tab SOut := []
  causes : List Nat := []
  paramBad : Bool := false
  edm : List Nat := []
deriving DecidableEq, Repr, Inhabited

/-- The last off-pulse of an output (SAF_TEST_LAST): switch, pass, time in µs. -/
structure STest where
  sw : Nat := 0
  pass : Bool := false
  us : Nat := 0
deriving DecidableEq, Repr, Inhabited

/-- SAF_FIRST_FAULT. -/
structure SFirst where
  cause : Nat
  idx : Nat
  pair : Bool
deriving DecidableEq, Repr, Inhabited

/-- The hard-wired channel's status frame (R269): filtered inputs, output states, reset acceptance. -/
structure SFrame where
  filt : Nat
  outs : List SafState
  rst : Bool
deriving DecidableEq, Repr, Inhabited

/-- The safety island. `us` is the island's own time in µs (R272). `ch` holds the channels: 0 hard-wired, 1 processor. `raw` are the levels at the input balls; `disc` the start of a running
discrepancy timer and `discMs` its last value in ms; `lowSince` the time since which SAFE_RST is low; `param` the active set and `pending` the one that waits;
`paramIn`, `fwIn` what dual commit has handed over and the island has not yet received; `fwSlots` the firmware of the two slots; `test` the
off-pulse in progress by output (its switch), `nextSw` the switch tested next; `rb` a readback that is high while the switches are open; `causeOf` the first cause latched by
either channel, by pair n and output 4 + m; `frame` the hard-wired channel's last status frame, `rstSeen` that it has accepted a reset since. -/
structure Saf where
  us : Nat := 0
  paramIn : List (List Byte) := []
  fwIn : List (List Byte) := []
  ch : Tab SChan := []
  raw : Nat := 0
  disc : Tab (Option Nat) := []
  discMs : Tab Nat := []
  param : List Word := []
  pending : Option (List Word) := none
  reason : Nat := 0
  failWord : Nat := 0
  fwVer : Nat := 0
  fwSlot : Nat := 0
  fwResult : Nat := 0
  fwPending : Option Nat := none
  fwRestart : Bool := false
  fwSlots : Tab (List Byte) := []
  rstLevel : Bool := false
  stuck : Bool := false
  rejected : Bool := false
  pulseMs : Nat := 0
  lowSince : Option Nat := some 0
  test : Tab (Option Nat) := []
  nextSw : Tab Nat := []
  lastTest : Option Nat := none
  testLast : Tab STest := []
  rtLast : Tab (Nat × Nat) := []
  rb : List Nat := []
  first : Option SFirst := none
  fsUv : Bool := false
  fsWarn : Bool := false
  causeOf : Tab Nat := []
  frame : Option SFrame := none
  rstSeen : Bool := false
deriving DecidableEq, Repr, Inhabited

end Sys2Proof.Machine
end

