-- ==== Sys2Proof/Machine/StTim.lean ====
section
/-!
DEFINITION. State of the time unit (R346–R363).
-/

namespace Sys2Proof.Machine

/-- The servo states of Table TIM-1. -/
inductive Servo where
  | freerun | acquire | locking | locked | holdover
deriving DecidableEq, Repr, Inhabited

/-- An entry of a transmit stamp queue (R355): stamp in ns, message type and identifier. -/
structure TxStamp where
  stamp : Nat
  typ : Nat
  id : Nat
deriving DecidableEq, Repr, Inhabited

/-- The transmit stamps of a Lane port (R355): queue, latched stamp, TS_OVF and LOST. -/
structure TxPort where
  queue : List TxStamp := []
  latched : Nat := 0
  ovf : Bool := false
  lost : Nat := 0
deriving DecidableEq, Repr, Inhabited

/-- The parent of the fabric time (R357): device, Avenue port and its hops from device 0; `synced` is its SYNCED flag. -/
structure Parent where
  dev : Nat := 0
  port : Nat := 0
  hops : Nat := 0
  synced : Bool := false
  flags : Nat := 0
  gm : List Byte := []
  utc : List Byte := []
deriving DecidableEq, Repr, Inhabited

/-- The time unit. `net` is network time in ns and `frac` its fraction in 2^−32 ns; `freq` is F in ppb, `inc` INC in 2^−32 ns and
`iAcc` I in 1/256 ns; `r1` is the residual of the first measurement of ACQUIRE, `cnt` counts toward LOCK_N or toward the exit from LOCKED;
`stepPend` is the phase step that waits for the boundary and `setPend` the accepted TIM_SET. `coarse` and `lost` are TIME_COARSE and
TIME_LOST, `unc` UNC in µs, `uncHeld` says that UNC awaits a measurement, `firstAfter` that the next measurement is the first after a full
device reset. -/
structure Tim where
  net : Nat := 0
  frac : Nat := 0
  freq : Int := 0
  inc : Nat := 0x280000000
  iAcc : Int := 0
  st : Servo := .freerun
  r1 : Option Int := none
  cnt : Nat := 0
  lastOfs : Int := 0
  stepPend : Option Int := none
  setPend : Option Nat := none
  hiLatch : Nat := 0
  steps : Nat := 0
  coarse : Bool := false
  lost : Bool := true
  lostRst : Bool := false
  unc : Nat := 0
  firstAfter : Bool := false
  parent : Parent := {}
  tx : Tab TxPort := []
deriving DecidableEq, Repr, Inhabited

end Sys2Proof.Machine
end

