-- ==== Sys2Proof/Machine/State.lean ====
section
/-!
DEFINITION. The state of the FA640: every register, image, queue, counter and mode the spec gives the part, as plain data, and the
queue of the commands that are waiting.
-/

namespace Sys2Proof.Machine

/-- Reasons to stop with a fault. No command of this model raises one: the spec gives every refusal an effect of its own (an error
code, a result field, an event record). Safe. -/
inductive Fault where
  /-- Raised by no meaning; the type has a constructor so that it is not empty. Safe. -/
  | unused
deriving DecidableEq, Repr, Inhabited

/-- Reasons to refuse a command. -/
inductive Refusal where
  /-- Raised by `exec` for a command that has no meaning yet, by its mnemonic. Safe: nothing is claimed of it. -/
  | notModelled (mnemonic : String)
deriving DecidableEq, Repr, Inhabited

/-- The codes of the blocks whose domain is off right after reset: every block but those of PD_AON and PD_CPUA, SAF and FIO. -/
def offCodes : List Nat := [6, 7, 8, 9, 10, 11, 12, 13, 14, 17, 18, 19, 20, 22, 23, 24]

/-- The headers right after reset (R35, PMC_DOM_STAT): reset values, with the blocks of the domains that are off absent. -/
def hdrReset : Tab Hdr := offCodes.map fun c => (c, { pwr := .off })

/-- The state of the device. `regs` holds the register words that differ from their reset value, `shadow` the RWC shadows that
differ from the active value, by `regKey`; `frz` what the status registers of a frozen block hold; `mem` the bytes of on-die SRAM, SDRAM and the descriptor windows; `out` is the value
returned by the last read command; `free` counts the free values drawn; `upUs` the
microseconds since PD_AON power-up; `mir` the mirrors of the headers whose domain is off (R44). -/
structure State where
  pending : List Instr := []
  free : Nat := 0
  out : Nat := 0
  upUs : Nat := 0
  mem : Tab Byte := []
  hdr : Tab Hdr := hdrReset
  mir : Tab Hdr := []
  regs : Tab (Option Word) := []
  shadow : Tab (Option Word) := []
  frz : Tab (Option Word) := []
  sys : Sys := {}
  evr : Evr := {}
  erm : Erm := {}
  ret : Ret := {}
  cpu : Cpu := {}
  msdram : MemSt := {}
  hif : Hif := {}
  ptd : Ptd := {}
  tim : Tim := {}
  hts : Hts := {}
  ce : Ce := {}
  xng : Xng := {}
  ave : Ave := {}
  saf : Saf := {}
  clk : Clk := {}
  pmc : Pmc := {}
  mot : Mot := {}
  lne : Lne := {}
  csc : Csc := {}
  fio : Fio := {}
  rsq : Rsq := {}
  hrc : Hrc := {}
  can : Can := {}
  acq : Acq := {}
  ilp : Ilp := {}
deriving DecidableEq, Repr, Inhabited

/-- The device right after reset: every field at the value the spec states for reset, or at the value the assumption log names. -/
def State.reset : State := {}

end Sys2Proof.Machine
end

