-- ==== Sys2Proof/Machine/OpsReg.lean ====
section
/-!
DEFINITION. Access to headers and registers, active and shadow (R33–R39).
-/

namespace Sys2Proof.Machine

/-- The outcome of a command. -/
abbrev Out : Type := Host.Outcome State Fault Refusal

/-- The header of a block. -/
def State.hd (s : State) (b : Block) : Hdr := Tab.get {} s.hdr b.code

/-- Change the header of a block. -/
def State.updHd (s : State) (b : Block) (f : Hdr → Hdr) : State := { s with hdr := Tab.upd {} s.hdr b.code f }

/-- The active value of a register. -/
def State.reg (s : State) (r : RegId) : Word :=
  match Tab.get none s.regs (regKey r) with
  | some w => w
  | none => word (regReset r)

/-- The active value of the register `d` bytes above `r` (an array of registers). -/
def State.regAt (s : State) (r : RegId) (d : Nat) : Word := s.reg ⟨r.blk, r.off + d⟩

/-- Set the active value of a register. -/
def State.setReg (s : State) (r : RegId) (w : Word) : State :=
  { s with regs := Tab.put none s.regs (regKey r) (if w = word (regReset r) then none else some w) }

/-- The shadow of a committed register (R37). -/
def State.shReg (s : State) (r : RegId) : Word :=
  match Tab.get none s.shadow (regKey r) with
  | some w => w
  | none => s.reg r

/-- The shadow of the register `d` bytes above `r`. -/
def State.shRegAt (s : State) (r : RegId) (d : Nat) : Word := s.shReg ⟨r.blk, r.off + d⟩

/-- Write the shadow of a committed register. -/
def State.setSh (s : State) (r : RegId) (w : Word) : State :=
  { s with shadow := Tab.put none s.shadow (regKey r) (if w = s.reg r then none else some w) }

/-- Whether a key of the register file belongs to a block. -/
def keyOf (b : Block) (k : Nat) : Bool := decide (k / 0x10000 = b.code)

/-- Copy every shadow of a block into the active value (R37). -/
def State.applyShadows (s : State) (b : Block) : State :=
  let go := fun (regs : Tab (Option Word)) (p : Nat × Option Word) =>
    if keyOf b p.1 then
      match p.2 with
      | some w => Tab.put none regs p.1 (if w = word (regReset ⟨b, p.1 % 0x10000⟩) then none else some w)
      | none => regs
    else regs
  { s with regs := s.shadow.foldl go s.regs, shadow := Tab.keep (fun k _ => !keyOf b k) s.shadow }

/-- Copy the active values of a block back into its shadows (R39). -/
def State.dropShadows (s : State) (b : Block) : State :=
  { s with shadow := Tab.keep (fun k _ => !keyOf b k) s.shadow }

/-- A commit is cancelled and the shadows reload from the active values (Table SYS-5: DISCARD). -/
def State.discardCommit (s : State) (b : Block) : State := (s.dropShadows b).updHd b fun h => { h with commitPending := false }

/-- A fence discards the commit that is pending (Table SYS-5). -/
def State.fenceCommit (s : State) (b : Block) : State := if (s.hd b).commitPending then s.discardCommit b else s

/-- BLK_STAT.RUNNING follows RUN at a block's natural boundary (Table SYS-3, R37). -/
def State.runFollow (s : State) (b : Block) : State := s.updHd b fun h => { h with running := h.run }

/-- Network time in ns (R346). -/
def State.now (s : State) : Nat := s.tim.net

end Sys2Proof.Machine
end

