-- ==== Sys2Proof/Machine/OpsHts.lean ====
section
/-!
DEFINITION. The scheduler's operations that every block uses: raising flags (R400, R401), readiness, selection and dispatch (R402, R403),
preemption (R404), the release of flow items (R405) and the routes from hardware events (R408).
-/

namespace Sys2Proof.Machine

/-- Change the scheduler. -/
def State.updHts (s : State) (f : Hts → Hts) : State := { s with hts := f s.hts }

/-- A task. -/
def Hts.task (h : Hts) (t : Nat) : Task := Tab.get {} h.tasks t

/-- A core's port. -/
def Hts.port (h : Hts) (c : Nat) : Port := Tab.get {} h.ports c

/-- Change a task. -/
def Hts.updTask (h : Hts) (t : Nat) (f : Task → Task) : Hts := { h with tasks := Tab.upd {} h.tasks t f }

/-- Change a port. -/
def Hts.updPort (h : Hts) (c : Nat) (f : Port → Port) : Hts := { h with ports := Tab.upd {} h.ports c f }

/-- The wait condition (R398). -/
def Task.met (t : Task) : Bool :=
  if t.all then decide (t.mask ≠ 0) && decide (t.flags &&& t.mask = t.mask) else decide (t.flags &&& t.mask ≠ 0)

/-- The active flow word. -/
def State.flowWord (s : State) (f : Nat) : Word := s.regAt R.HTS_FLOW (4 * f)

/-- The task of a unit. -/
def State.unitTask (s : State) : DUnit → Nat
  | .flag t => t
  | .item f => bits (s.flowWord f) 8 0

/-- The number of units of a task that are RUNNING (R399). -/
def State.runningOf (s : State) (t : Nat) : Nat :=
  ((List.range 8).filter fun c =>
    match (s.hts.port c).unit with | some u => decide (s.unitTask u = t) | none => false).length

/-- Whether core `c` may take a unit (R403): affinity, instance limit and HTS_CORE_EN. -/
def State.eligible (s : State) (c : Nat) (u : DUnit) : Bool :=
  let t := s.hts.task (s.unitTask u)
  nbit t.affinity c && decide (s.runningOf (s.unitTask u) < t.limit) && bit (s.reg R.HTS_CORE_EN) c

/-- The first unit of the highest level among those that core `c` may take (R402, R403). -/
def State.selectUnit (s : State) (c : Nat) : Option DUnit :=
  (s.hts.ready.filter (s.eligible c)).foldl (fun best u =>
    match best with
    | none => some u
    | some b => if (s.hts.task (s.unitTask u)).prio < (s.hts.task (s.unitTask b)).prio then some u else some b) none

/-- The dispatch word (Table HTS-2). -/
def dispWord (task : Nat) (item redel : Bool) (inst : Nat) : Word :=
  word (task + 512 * b2n item + 1024 * b2n redel + 32768 * inst + 2 ^ 31)

/-- A unit is dispatched to core `c` (Table HTS-1, R403): it leaves READY, its flags are captured, and the port latches it. -/
def State.dispatch (s : State) (c : Nat) (u : DUnit) : State :=
  let inst := s.runningOf (s.unitTask u)
  let task := s.unitTask u
  match u with
  | .flag t =>
    let k := s.hts.task t
    let df := (k.flags &&& k.mask) ||| k.dflags
    let w := dispWord task false k.redel inst
    let h := (s.hts.updTask t fun k =>
      { k with state := .running, flags := k.flags &&& ~~~ (k.flags &&& k.mask), dflags := df, core := c, redel := false }).updPort c
        fun p => { p with unit := some u, waiting := false, disp := w, flags := df, preempt := none }
    { s with hts := { h with ready := h.ready.erase u }, out := w.toNat }
  | .item f =>
    let it := ((Tab.get [] s.hts.flows f).head?).getD { lo := 0, hi := 0 }
    let w := dispWord task true it.redel inst
    let h := s.hts.updPort c fun p =>
      { p with unit := some u, waiting := false, disp := w, flow := f, itemLo := it.lo, itemHi := it.hi, preempt := none }
    { s with hts := { h with ready := h.ready.erase u, flows := Tab.upd [] h.flows f fun l =>
        match l with | i :: t => { i with redel := false } :: t | [] => [] }, out := w.toNat }

/-- Serve the cores whose DISP read is stalled, in ascending order (R403). While HTS does not run nothing is selected (R411). -/
def State.serve (s : State) : State :=
  if !(s.hd .hts).running then s
  else
    (List.range 8).foldl (fun s c =>
      if (s.hts.port c).waiting then
        match s.selectUnit c with
        | some u => s.dispatch c u
        | none => s
      else s) s

/-- The priority of the unit that a core runs. -/
def State.corePrio (s : State) (c : Nat) : Option Nat :=
  (s.hts.port c).unit.map fun u => (s.hts.task (s.unitTask u)).prio

/-- The core whose preemption a READY unit raises (R404): the eligible core that runs the lowest-priority unit below it, the
highest-numbered among equals. -/
def State.preemptTarget (s : State) (u : DUnit) : Option Nat :=
  let p := (s.hts.task (s.unitTask u)).prio
  (List.range 8).foldl (fun best c =>
    match s.corePrio c with
    | some q =>
      if s.eligible c u && decide (p < q) then
        match best with
        | some b => if (s.corePrio b).getD 0 ≤ q then some c else some b
        | none => some c
      else best
    | none => best) none

/-- A port's preemption lapses once its unit has left READY (R404). -/
def Port.lapse (ready : List DUnit) (p : Port) : Port :=
  match p.preempt with
  | some u => if ready.contains u then p else { p with preempt := none }
  | none => p

/-- Preemptions whose unit has left READY lapse (R404). -/
def State.lapse (s : State) : State :=
  { s with hts := { s.hts with ports := Tab.mapAll {} (Port.lapse s.hts.ready) s.hts.ports } }

/-- After a unit became READY: waiting cores are served, else it raises a preemption where one is due (R404). -/
def State.offer (s : State) (u : DUnit) : State :=
  let s1 := s.serve.lapse
  if s1.hts.ready.contains u then
    match s1.preemptTarget u with
    | some c =>
      match (s1.hts.port c).preempt with
      | some _ => s1
      | none => { s1 with hts := s1.hts.updPort c fun p => { p with preempt := some u } }
    | none => s1
  else s1

/-- The configuration that a task takes from T0 at CREATE and at each entry to READY (R412). -/
def Task.take (t : Task) (w : Word) : Task :=
  { t with prio := bits w 4 0, affinity := bits w 15 8, limit := bits w 18 16 + 1, all := bit w 20 }

/-- T0 of a task. -/
def State.taskCfg (s : State) (t : Nat) : Word := s.regAt R.HTS_T0 (16 * t)

/-- A unit enters READY, at the tail or at the head of its level (Table HTS-1). -/
def State.enqueue (s : State) (u : DUnit) (head : Bool) : State :=
  let h := match u with
    | .flag t => s.hts.updTask t fun k => { (k.take (s.taskCfg t)) with state := .ready }
    | .item f => s.hts.updTask (bits (s.flowWord f) 8 0) fun k => k.take (s.taskCfg (bits (s.flowWord f) 8 0))
  { s with hts := { h with ready := if head then u :: h.ready else h.ready ++ [u] } }

/-- A unit becomes READY: waiting cores are served, or a preemption is raised. -/
def State.makeReady (s : State) (u : DUnit) (head : Bool) : State := (s.enqueue u head).offer u

/-- The wait condition of a WAITING task is evaluated (R401). -/
def State.evalTask (s : State) (t : Nat) : State :=
  let k := s.hts.task t
  if k.state = .waiting ∧ k.met then s.makeReady (.flag t) false else s

/-- Every WAITING task whose wait condition is met becomes READY, in ascending order (R402); only then are the waiting cores served. This ends the
raises of one tick. -/
def State.evalMet (s : State) : State :=
  let us := (s.hts.tasks.filter fun e => decide (e.2.state = .waiting) && e.2.met).map fun e => DUnit.flag e.1
  us.foldl State.offer (us.foldl (fun s u => s.enqueue u false) s)

/-- Flags of a task are ORed in without an evaluation (R400): a raise for a FREE task is discarded and counted. -/
def State.orFlags (s : State) (t : Nat) (m : Word) : State :=
  if (s.hts.task t).state = .free then s.updHts fun h => { h with dropped := wrapInc h.dropped }
  else s.updHts fun h => h.updTask t fun k => { k with flags := k.flags ||| m }

/-- Raise flags of a task (R400) and evaluate it. -/
def State.raiseFlags (s : State) (t : Nat) (m : Word) : State := (s.orFlags t m).evalTask t

/-- Whether route `r` has a source (block code, kind, index) (R408). -/
def State.routeMatches (s : State) (r blk kind idx : Nat) : Bool :=
  let r0 := s.regAt R.HTS_ROUTE0 (8 * r)
  let r1 := s.regAt R.HTS_ROUTE1 (8 * r)
  bit r0 31 && decide (bits r0 7 0 = blk) && decide (bits r0 11 8 = kind) && decide (bits r1 10 0 ≤ idx) && decide (idx ≤ bits r1 26 16)

/-- The numbers of the routes whose words differ from their reset value; every other route is disabled. -/
def State.routesListed (s : State) : List Nat :=
  (s.regs.filter fun e => decide (e.1 / 0x10000 = 7) && decide (0x8000 ≤ e.1 % 0x10000) && decide (e.1 % 8 = 0)).map fun e => (e.1 % 0x10000 - 0x8000) / 8

/-- A source sets its event bit: every matching route raises its flag (R408), in one tick (R402). -/
def State.routeEvt (s : State) (blk : Block) (kind idx : Nat) : State :=
  match s.routesListed.filter fun r => s.routeMatches r blk.code kind idx with
  | [] => s
  | l => (l.foldl (fun s r =>
    let r0 := s.regAt R.HTS_ROUTE0 (8 * r)
    s.orFlags (bits r0 20 12) (word (2 ^ bits r0 25 21))) s).evalMet

end Sys2Proof.Machine
end

