-- ==== Sys2Proof/Machine/Ops.lean ====
section
/-!
DEFINITION. The operations that every block shares: interrupt causes, the error log of a block, event records (R390–R393), byte memory, the protection map (R48) and the gate that every register write passes (R33–R49).
-/

namespace Sys2Proof.Machine

/-- Set bits of BLK_IRQ_RAW. Where BLK_IRQ_STAT changes from 0 to non-zero, the routes of the block's interrupt raise their flags and its
edge is pending for HTS (R34, R408). ACQ's own bits are route sources too (Table HTS-3). -/
def State.irq (s : State) (b : Block) (i : Nat) : State :=
  let h := s.hd b
  let raw := setBit h.irqRaw i
  let s1 := s.updHd b fun h => { h with irqRaw := raw }
  let s2 := if h.irqRaw &&& h.irqEn = 0 ∧ raw &&& h.irqEn ≠ 0 then s1.routeEvt b 15 0 else s1
  if b = .acq ∧ 8 ≤ i ∧ i ≤ 10 then s2.routeEvt b (i - 8) 0 else s2

/-- BLK_ERR after an error of its own block with error `[7:0]` (R43, Table SYS-3): CODE, the saturating COUNT and OVF, and
interrupt cause ERR. -/
def State.err (s : State) (b : Block) (e : Nat) : State :=
  (s.updHd b fun h =>
    { h with errCode := b.code * 256 + e, errCount := satInc 255 h.errCount,
             errOvf := h.errOvf || decide (h.errCount = 255) }).irq b 0

/-- An error code in full (R43): the recording block's code in [15:8]. -/
def errWord (b : Block) (e : Nat) : Nat := b.code * 256 + e

/-- The SOURCE field of a writer (Table EVR-1). -/
def source (b : Block) (inst : Nat) : Nat := b.code * 256 + inst

/-- How many records a writer holds (R391). -/
def evrDepth : Nat := 4

/-- The code-and-source word of EVR_LOST_CODE. -/
def lostWord (r : EvRec) : Nat := r.code + r.source * 0x10000

/-- A writer presents a record (R391, R393): during a freeze a safety record is held and any other is lost; otherwise it waits
with its writer, or is lost where the writer already holds four. -/
def Evr.present (e : Evr) (r : EvRec) : Evr :=
  if e.frozenAt.isSome then
    if r.source / 256 = 15 ∧ e.safeBuf.length < 64 then { e with safeBuf := e.safeBuf ++ [r] }
    else { e with lostFrozen := satInc 0xFFFFFFFF e.lostFrozen,
                  lostFrozenCode := if e.lostFrozen = 0 then lostWord r else e.lostFrozenCode }
  else
    let q := Tab.get [] e.queues r.source
    if q.length < evrDepth then { e with queues := Tab.put [] e.queues r.source (q ++ [r]) }
    else { e with lostBusy := satInc 0xFFFFFFFF e.lostBusy,
                  lostBusyCode := if e.lostBusy = 0 then lostWord r else e.lostBusyCode,
                  lostSince := e.lostSince + 1,
                  lostSinceCode := if e.lostSince = 0 then lostWord r else e.lostSinceCode,
                  lostTimer := true }

/-- Whether a record presented now is lost (R391, R393), which sets BLK_IRQ_RAW[9] of EVR (R396). -/
def Evr.loses (e : Evr) (r : EvRec) : Bool :=
  if e.frozenAt.isSome then !(decide (r.source / 256 = 15) && decide (e.safeBuf.length < 64))
  else !(decide ((Tab.get [] e.queues r.source).length < evrDepth))

/-- Write an event record, stamped with the network time of the event (Table EVR-1). Unused parameters are 0. -/
def State.record (s : State) (b : Block) (inst code : Nat) (ps : List Nat) : State :=
  let r : EvRec :=
    { code := code, source := source b inst, time := s.now, p0 := nth 0 ps 0, p1 := nth 0 ps 1, p2 := nth 0 ps 2,
      p3 := nth 0 ps 3 }
  let s' := { s with evr := s.evr.present r }
  if s.evr.loses r then s'.irq .evr 9 else s'

/-- A byte of memory. -/
def State.mem8 (s : State) (a : Nat) : Byte := Tab.get 0 s.mem a

/-- A little-endian word of memory. -/
def State.mem32 (s : State) (a : Nat) : Word := word (leNat (Tab.getList 0 s.mem a 4))

/-- A little-endian 64-bit number of memory. -/
def State.mem64 (s : State) (a : Nat) : Nat := leNat (Tab.getList 0 s.mem a 8)

/-- Store bytes from an address upwards. -/
def State.store (s : State) (a : Nat) (bs : List Byte) : State := { s with mem := Tab.putList 0 s.mem a bs }

/-- Store a little-endian word. -/
def State.store32 (s : State) (a : Nat) (w : Word) : State := s.store a (wordBytes w)

/-- The bytes of `n` addresses. -/
def State.load (s : State) (a n : Nat) : List Byte := Tab.getList 0 s.mem a n

/-- On-die SRAM (R421): 16 MiB at 0x0800_0000. -/
def inSram (a n : Nat) : Bool := decide (0x08000000 ≤ a) && decide (a + n ≤ 0x09000000)

/-- SDRAM as mapped now (R422): the usable capacity from 0x8_0000_0000 on. -/
def inSdram (s : State) (a n : Nat) : Bool :=
  decide (0x800000000 ≤ a) && decide (a + n ≤ 0x800000000 + s.msdram.capacity * 0x4000000)

/-- Store bytes where SRAM or trained SDRAM answers; elsewhere nothing is stored. -/
def State.storeRam (s : State) (a : Nat) (bs : List Byte) : State :=
  if inSram a bs.length || ((s.hd .mem).running && inSdram s a bs.length) then s.store a bs else s

/-- SYS_PMAP of a block code (R48, R50): the factory map where none was committed. -/
def State.pmap (s : State) (code : Nat) : Nat := Tab.get 0x13 s.sys.sysrec.pmap code

/-- SYS_DEBUG.UNLOCKED (R48, R54): by DEBUG_UNLOCK, or always in COMMISSIONING. -/
def State.debugOpen (s : State) : Bool := s.sys.debugUnlocked || decide (s.sys.sysrec.lifecycle = 1)

/-- Whether the protection map lets a principal write a region (R48). No write to SAF's region is permitted, whatever the map holds (R285). -/
def State.permits (s : State) (p : Principal) (code : Nat) : Bool :=
  decide (code ≠ 15) && nbit (s.pmap code) p.code &&
    match p with
    | .dbg => s.debugOpen
    | .rom => s.sys.romAlive
    | _ => true

/-- A core takes a load or store access fault with an error code (R417). -/
def State.coreFault (s : State) (c : Nat) (code addr : Nat) (imprecise : Bool) : State :=
  { s with cpu := { s.cpu with cores := Tab.upd {} s.cpu.cores c fun k =>
      { k with faultCode := code, faultValid := true, faultImprecise := imprecise, mtval := addr } } }

/-- HIF logs a refused host access if the log is empty (R425). -/
def State.hifLog (s : State) (code bar off : Nat) : State :=
  match s.hif.err with
  | some _ => s
  | none => { s with hif := { s.hif with err := some { code := code, bar := bar, addr := off } } }

/-- A requester learns of BLOCK_ABSENT or REPLY_LOST (R46): a hardware block in its own BLK_ERR, a core by an access fault, a host
access in HIF's log. `blk` is the block the full error code names. -/
def State.tell (s : State) (r : Requester) (blk e addr : Nat) : State :=
  match r with
  | .block b => s.err b e
  | .core c => s.coreFault c.val (blk * 256 + e) addr false
  | .host bar off => s.hifLog (blk * 256 + e) bar off

/-- Who waits for the reply to a write of a principal at a device address: HOST writes arrive through BAR0, the safety processor's
are SAF's own, ROM code runs on core 0 and the debug port has no log (log 5). -/
def State.tellPrincipal (s : State) (p : Principal) (blk e addr : Nat) : State :=
  match p with
  | .host => s.tell (.host 0 (addr - 0x10000000)) blk e addr
  | .app c => s.tell (.core c) blk e addr
  | .safe => s.tell (.block .saf) blk e addr
  | .rom => s.tell (.core 0) blk e addr
  | .dbg => s

/-- Whether a block answers register accesses: its domain is on and it is not fenced or in reset (R44); FIO answers while its link is up
(R308). -/
def State.present (s : State) (b : Block) : Bool := decide ((s.hd b).pwr = .on) && (decide (b ≠ .fio) || s.fio.linkUp)

/-- A denied write (R49): ACCESS_DENIED in the target, SYS_DENY_LOG if it is empty, one WRITE_DENIED record (R56). -/
def State.deny (s : State) (b : Block) (off : Nat) (p : Principal) (v : Word) : State :=
  let s1 := (s.err b errAccessDenied).record .sys 0 0x0110 [b.code + off * 256, p.code, v.toNat]
  match s1.sys.deny with
  | some _ => s1
  | none => { s1 with sys := { s1.sys with deny := some { blk := b.code, off := off, principal := p.code } } }

/-- An application core whose store is refused with ACCESS_DENIED or ACCESS_SIZE takes an access fault (R417). -/
def State.storeFault (s : State) (p : Principal) (b : Block) (e addr : Nat) : State :=
  match p with
  | .app c => s.coreFault c.val (b.code * 256 + e) addr false
  | _ => s

/-- Whether the lock holds a field of this access code (R42): RW, RWC and RWL fields outside BLK_CTRL and BLK_IRQ_EN. -/
def lockHolds (a : Access) (off : Nat) : Bool :=
  (match a with | .rw | .rwc | .rwl => true | _ => false) && decide (off ≠ 0x008) && decide (off ≠ 0x014)

/-- The gate of every register write of a present block (R44, R48, R42): what stops it, or `none`. -/
def State.gateStop (s : State) (b : Block) (off : Nat) (a : Access) (p : Principal) (v : Word) : Option State :=
  if !s.present b then some (s.tellPrincipal p b.code errBlockAbsent (b.base + off))
  else if !s.permits p b.code then some ((s.deny b off p v).storeFault p b errAccessDenied (b.base + off))
  else if (s.hd b).lock && lockHolds a off then some (s.err b errRegLocked)
  else none

/-- A register write passes the gate and then has its effect. -/
def State.gated (s : State) (b : Block) (off : Nat) (a : Access) (p : Principal) (v : Word) (f : State → State) : State :=
  match s.gateStop b off a p v with
  | some t => t
  | none => f s

/-- Whether a write of a principal reaches a register of a block: the block is present, the protection map permits the write and the
lock does not hold the field. -/
def State.writeOk (s : State) (b : Block) (off : Nat) (a : Access) (p : Principal) : Bool :=
  s.present b && s.permits p b.code && !((s.hd b).lock && lockHolds a off)

/-- Draw a free value's number. -/
def State.draw (s : State) : Nat × State := (s.free, { s with free := s.free + 1 })

end Sys2Proof.Machine
end

