-- ==== Sys2Proof/Machine/AveSend.lean ====
section
/-!
DEFINITION. Sending over the Avenue ports: injection (R342), the routing table's use (R335) and frames of this device (R331).
-/

namespace Sys2Proof.Machine

/-- Change the Avenue block, or a port. -/
def State.updAve (s : State) (f : Ave → Ave) : State := { s with ave := f s.ave }
def State.aport (s : State) (p : Nat) : APort := Tab.get {} s.ave.ports p
def State.updAport (s : State) (p : Nat) (f : APort → APort) : State := s.updAve fun a => { a with ports := Tab.upd {} a.ports p f }

/-! ### Frames and injection (R331, R342) -/

/-- The class of a frame (Table AVE-3), 0 A, 1 B, 2 C. -/
def ABody.cls : ABody → Nat
  | .ptA .. | .lsa .. | .time .. | .trig .. | .heartbeat => 0
  | .ptB c _ _ => if c then 2 else 1
  | .rdReq o _ _ | .wrReq o _ _ _ => if 0x20000000 ≤ o ∧ o < 0x20080000 then 1 else 2
  | .rdResp c _ _ | .wrResp c _ => if c then 2 else 1
  | _ => 2

/-- Whether a port's rule matches a frame (R342). -/
def aveMatch (rule : Nat) (f : AFrame) (rx : Bool) : Bool :=
  (nbit rule 6 || decide (bitsN rule 5 0 = (if nbit rule 7 then f.dst else f.src))) &&
    (decide (bitsN rule 9 8 = 3) || decide (bitsN rule 9 8 = f.body.cls)) && nbit (bitsN rule 13 12) (if rx then 1 else 0)

/-- A frame passes the port's rule: what goes on, each with whether its CRC stays as it is, and the port after it (R326, R342). -/
def APort.inject (x : APort) (f : AFrame) (rx : Bool) (dly : Nat) : List (AFrame × Bool) × APort :=
  let j := x.inj
  let rule := j.rule
  if !j.en || !aveMatch rule f rx then ([(f, true)], x)
  else
    let m := max 1 (bitsN rule 31 24)
    let hit := decide (j.seen % m + 1 = bitsN rule 23 16)
    let j1 := { j with seen := (j.seen + 1) % m, affected := if hit then satInc 65535 j.affected else j.affected }
    let back := match j.held with
      | some (h, r) => if r = rx ∧ h.body.cls = f.body.cls then [(h, true)] else []
      | none => []
    let j2 := if back = [] then j1 else { j1 with held := none }
    if !hit then ((f, true) :: back, { x with inj := j2 })
    else
      match bitsN rule 11 10 with
      | 0 => (back, { x with inj := j2 })
      | 1 => ((f, false) :: back, { x with inj := j2 })
      | 2 => if back = [] then ([], { x with inj := { j2 with held := some (f, rx) } }) else ((f, true) :: back, { x with inj := j2 })
      | _ => (back, { x with inj := { j2 with delayed := j2.delayed ++ [(f, rx, dly)] } })

/-- AVE_INJ_RULE and AVE_INJ_DLY of a port. -/
def State.aveRule (s : State) (p : Nat) : Nat := (s.regAt R.AVE_INJ_RULE (0x1000 * p)).toNat
def State.aveDly (s : State) (p : Nat) : Nat := bits (s.regAt R.AVE_INJ_DLY (0x1000 * p)) 7 0

/-- A port that is UP sends a frame. -/
def State.aveSendPort (s : State) (p : Nat) (f : AFrame) : State :=
  if (s.aport p).st ≠ .up then s
  else s.updAport p fun x =>
    let (out, y) := x.inject f false (s.aveDly p)
    { y with sent := y.sent ++ out }

/-- A routing entry (Table AVE-7), and the port by which a destination is reached now. -/
def State.route (s : State) (d : Nat) : Rt := Tab.get {} s.ave.rt d
def State.nextPort (s : State) (d : Nat) : Option Nat :=
  let r := s.route d
  let p := if r.usingAlt then r.alt else r.pri
  if r.valid && decide (p < 6) then some p else none

/-- Send a frame toward its destination; without a valid entry it is discarded (R335). -/
def State.aveSend (s : State) (f : AFrame) : State :=
  match s.nextPort f.dst with
  | some p => s.aveSendPort p f
  | none => s

/-- Send a body of this device to a device. -/
def State.aveTo (s : State) (d : Nat) (b : ABody) : State := s.aveSend { dst := d, src := s.ave.devId, body := b }

end Sys2Proof.Machine
end

