-- ==== Sys2Proof/Machine/FioDrive.lean ====
section
/-!
DEFINITION. What the field die drives (R291, R298, Table FIO-3): the safe states of its outputs, and a silence.
-/

namespace Sys2Proof.Machine

/-- Change the field die. -/
def State.updFio (s : State) (f : Fio → Fio) : State := { s with fio := f s.fio }

/-- A group, 0 A and 1 B. -/
def Fio.group (x : Fio) (g : Nat) : FGroup := Tab.get {} x.groups g

/-- Change a group. -/
def State.updGroup (s : State) (g : Nat) (f : FGroup → FGroup) : State :=
  s.updFio fun x => { x with groups := Tab.upd {} x.groups g f }

/-- A channel's configuration as the field die holds it (Table FIO-5, R293). -/
def Fio.chCfg (x : Fio) (k : Nat) : Word := Tab.get 0 x.cfg (0x200 + 4 * k)
def Fio.aiCfg (x : Fio) (k : Nat) : Word := Tab.get 0 x.cfg (0x280 + 4 * k)
def Fio.aoCfg (x : Fio) (k : Nat) : Word := Tab.get 0 x.cfg (0x2C0 + 4 * k)

/-- DIR, SAFE, AUTO_RESTORE, MM_OFF and TEST_MM of a channel. -/
def Fio.isOut (x : Fio) (k : Nat) : Bool := decide (bits (x.chCfg k) 1 0 = 2)
def Fio.isIn (x : Fio) (k : Nat) : Bool := decide (bits (x.chCfg k) 1 0 = 1)
def Fio.safeSel (x : Fio) (k : Nat) : Nat := bits (x.chCfg k) 3 2
def Fio.autoRestore (x : Fio) (k : Nat) : Bool := bit (x.chCfg k) 4

/-- The channels of a group (0–15 A, 16–31 B). -/
def groupChans (g : Nat) : List Nat := (List.range 16).map fun k => 16 * g + k

/-- A mask from a test of the 32 channels. -/
def mask32 (f : Nat → Bool) : Nat := (List.range 32).foldl (fun m k => nput m k (f k)) 0

/-- The safe state of an output (R291, R298). `late` says that HOLD_TMO has elapsed, `held` what HOLD_LAST keeps. -/
def Fio.safeState (x : Fio) (k : Nat) (late : Bool) (held : Nat) : Bool :=
  match x.safeSel k with
  | 1 => true
  | 2 => !late && nbit held k
  | _ => false

/-- Order 1 of Table FIO-3: group UV or GRP_OFF, or channel OC. -/
def Fio.forcedOff (x : Fio) (k : Nat) : Bool :=
  decide ((x.group (k / 16)).st = .uv) || decide ((x.group (k / 16)).st = .grpOff) || nbit x.oc k

/-- The driven state of a universal output by the first row of Table FIO-3 that applies; a driver held off under MM_OFF is off (R299). -/
def Fio.drives (x : Fio) (k : Nat) : Bool :=
  let g := x.group (k / 16)
  let waits := decide (g.st = .waitEn)
  if !x.isOut k || x.forcedOff k || nbit x.mmOff k then false
  else if x.silent || (waits && decide (g.wait = .silence)) then x.safeState k x.holdOver x.hold
  else if waits && !(decide (g.wait = .uvAuto) && x.autoRestore k) then false
  else if x.runOff then x.safeState k x.runHoldOver x.runHold
  else nbit x.cmd k

/-- Drive every output anew. -/
def Fio.drive (x : Fio) : Fio := { x with driven := mask32 x.drives }

/-- Drive every output anew. -/
def State.fioDrive (s : State) : State := s.updFio Fio.drive

/-- The code of an analog output's safe state (R291); 0 once HOLD_TMO has elapsed under HOLD_LAST. -/
def Fio.aoSafe (x : Fio) (k : Nat) (late : Bool) : Int :=
  match bits (x.aoCfg k) 3 2 with
  | 1 => sext 16 (bits (x.aoCfg k) 31 16)
  | 2 => if late then 0 else (Tab.get {} x.ao k).code
  | _ => 0

/-- The four analog outputs take their safe states. -/
def Fio.aoSafeAll (x : Fio) (late : Bool) : Fio :=
  { x with ao := (List.range 4).foldl (fun t k => Tab.upd {} t k fun o => { o with code := x.aoSafe k late, wait := none }) x.ao }

/-- The outputs enter a silence (R291): HOLD_LAST keeps the state that an output has then (Table RT-11). -/
def State.fioSilence (s : State) : State :=
  if s.fio.silent then s
  else
    let s1 := s.updFio fun x => { x with silent := true, holdOver := false, hold := x.driven }
    let s2 := (List.range 2).foldl (fun s g => s.updGroup g fun r => { r with quiet := true, enPend := false }) s1
    (s2.updFio fun x => x.aoSafeAll false).fioDrive

/-- After a silence a group in OK enters WAIT_EN with its outputs in their safe states, and a group in WAIT_EN is in WAIT_EN after a silence
(R292, Table FIO-3). -/
def FGroup.afterSilence (r : FGroup) : FGroup :=
  match r.st with
  | .ok | .waitEn => { r with st := .waitEn, wait := .silence }
  | _ => r

/-- A silence ends after `ms`: SILENCED, the SILENCE record; a group in OK enters WAIT_EN with its outputs in their safe states, and a group in
WAIT_EN is in WAIT_EN after a silence (R292, Table FIO-3). -/
def State.silenceEnd (s : State) (ms : Nat) : State :=
  let s2 := (s.updFio fun x => { x with silent := false, silenced := true }).record .fio 0 0x1017 [ms]
  ((List.range 2).foldl (fun s g => s.updGroup g FGroup.afterSilence) s2).fioDrive

/-- The TEST record (R307): the spec gives no codes for its mode, which is a free value. -/
def State.testRecord (s : State) (what : Nat) (set : Bool) : State :=
  let (n, s1) := s.draw
  s1.record .fio 0 0x101B [(Config.freeWord n).toNat, what, b2n set]

/-- FIO_TEST at its reset value (R36, R307): a test that ends is recorded. -/
def State.testsOff (s : State) : State :=
  (List.range 2).foldl (fun s g =>
    if (s.fio.group g).uvTest then (s.updGroup g fun r => { r with uvTest := false }).testRecord g false else s) s

/-- What a soft reset of FIO resets behind its registers (R36): counters, results and what waits. The field die keeps its configuration and
everything that it holds and drives (R293). -/
def State.fioSoftRst (s : State) : State :=
  let s1 := s.testsOff
  let s2 := (List.range 2).foldl (fun s g => s.updGroup g fun r => { r with enPend := false }) s1
  s2.updFio fun x => { x with linkErr := 0, silenced := false, calBusy := false, calResult := 0, aiSkew := [] }

end Sys2Proof.Machine
end

