-- ==== Sys2Proof/Machine/SafOps.lean ====
section
/-!
DEFINITION. The safety island's two output state machines (R273–R280, Table SAF-2) as every event of the island uses them, and the core die's FATAL
line.
-/

namespace Sys2Proof.Machine

/-- Fault causes (Table SAF-5). -/
def cDiscrepancy : Nat := 1
def cTpCross : Nat := 2
def cOutTest : Nat := 4
def cStuckHigh : Nat := 5
def cOverload : Nat := 6
def cEdm : Nat := 7
def cMismatch : Nat := 8
def cLost : Nat := 9
def cFsUv : Nat := 10
def cParam : Nat := 11
def cCpu : Nat := 12
def cFatal : Nat := 13
def cOvertemp : Nat := 14

/-- Change the island, a channel, an output or a pair of a channel. -/
def State.updSaf (s : State) (f : Saf → Saf) : State := { s with saf := f s.saf }
def Saf.chan (x : Saf) (c : Nat) : SChan := Tab.get {} x.ch c
def State.updSCh (s : State) (c : Nat) (f : SChan → SChan) : State := s.updSaf fun x => { x with ch := Tab.upd {} x.ch c f }
def SChan.out (x : SChan) (m : Nat) : SOut := Tab.get {} x.outs m
def SChan.pair (x : SChan) (n : Nat) : SPair := Tab.get {} x.pairs n
def State.updSOut (s : State) (c m : Nat) (f : SOut → SOut) : State := s.updSCh c fun x => { x with outs := Tab.upd {} x.outs m f }
def State.updSPair (s : State) (c n : Nat) (f : SPair → SPair) : State := s.updSCh c fun x => { x with pairs := Tab.upd {} x.pairs n f }

/-! ### The active parameter set (Table SAF-4) -/

/-- Word `k` of the active set. -/
def Saf.p (x : Saf) (k : Nat) : Word := nth 0 x.param k
def Saf.pairEn (x : Saf) (n : Nat) : Bool := bit (x.p (4 + 2 * n)) 0
def Saf.antivalent (x : Saf) (n : Nat) : Bool := bit (x.p (4 + 2 * n)) 1
def Saf.src (x : Saf) (n : Nat) (b : Bool) : Nat := if b then bits (x.p (4 + 2 * n)) 5 4 else bits (x.p (4 + 2 * n)) 3 2
def Saf.outEn (x : Saf) (m : Nat) : Bool := bit (x.p (12 + 2 * m)) 0
def Saf.autoRestart (x : Saf) (m : Nat) : Bool := bit (x.p (12 + 2 * m)) 1
def Saf.fatalTrip (x : Saf) (m : Nat) : Bool := bit (x.p (12 + 2 * m)) 2
def Saf.mask (x : Saf) (m : Nat) : Nat := bits (x.p (12 + 2 * m)) 7 4
def Saf.edmPair (x : Saf) (m : Nat) : Nat := bits (x.p (12 + 2 * m)) 10 8
def Saf.edmEn (x : Saf) (m : Nat) : Bool := bit (x.p (12 + 2 * m)) 11
def Saf.outs (x : Saf) : List Nat := (List.range 4).filter x.outEn
def Saf.mapped (x : Saf) (m : Nat) : List Nat := (List.range 4).filter fun n => nbit (x.mask m) n

/-- ILP_HOLD_PERMIT of the active set. -/
def State.holdPermit (s : State) : Bool := bit (s.saf.p 2) 0

/-! ### Views -/

/-- Whether an input channel's level is its healthy one (R273): high, but low for B of an antivalent pair. -/
def Saf.healthy (x : Saf) (n : Nat) (b level : Bool) : Bool := if b && x.antivalent n then !level else level

/-- Whether a channel sees input A (or B) of a pair in demand, and the pair (R273, R275). -/
def Saf.inDemand (x : Saf) (c n : Nat) (b : Bool) : Bool := !x.healthy n b (nbit (x.chan c).filt (2 * n + b2n b))
def Saf.demand (x : Saf) (c n : Nat) : Bool := x.inDemand c n false || x.inDemand c n true || decide (((x.chan c).pair n).held ≠ 0)

/-- Whether a mapped pair of an output is in demand. -/
def Saf.gated (x : Saf) (c m : Nat) : Bool := (x.mapped m).any fun n => x.demand c n

/-- Whether EDM of an output is off or its pair healthy. -/
def Saf.edmOk (x : Saf) (c m : Nat) : Bool := !x.edmEn m || !x.demand c (x.edmPair m)

/-- The state of an output in a channel; a disabled output stays in INIT. -/
def Saf.outSt (x : Saf) (c m : Nat) : SafState := ((x.chan c).out m).st

/-- Whether an output is energized: both switches closed (R268). -/
def Saf.energized (x : Saf) (m : Nat) : Bool := decide (x.outSt 0 m = .on) && decide (x.outSt 1 m = .on)

/-- Whether no enabled output is ON in either channel. -/
def Saf.idle (x : Saf) : Bool := x.outs.all fun m => decide (x.outSt 0 m ≠ .on) && decide (x.outSt 1 m ≠ .on)

/-! ### Transitions -/

/-- The joint number of pairs and outputs (Table PTD-3): pair n, output 4 + m. -/
def safIdx (pair : Bool) (k : Nat) : Nat := if pair then k else 4 + k

/-- The first cause that SAF_IN or SAF_OUT shows of a pair or output (Table SAF-7). -/
def State.causeShow (s : State) (i cause : Nat) : State := s.updSaf fun x => { x with causeOf := Tab.upd 0 x.causeOf i fun k => if k = 0 then cause else k }

/-- SAF_FIRST_FAULT, where none is logged, and the first cause of the pair or output. -/
def State.safFirst (s : State) (cause idx : Nat) (pair : Bool) : State :=
  (s.updSaf fun x => { x with first := match x.first with | some f => some f | none => some { cause := cause, idx := idx, pair := pair } }).causeShow (safIdx pair idx) cause

/-- The EDM timer of an output starts in a channel (R278). -/
def State.edmStart (s : State) (c m : Nat) : State :=
  if s.saf.edmEn m then s.updSCh c fun k => { k with edm := if k.edm.contains m then k.edm else k.edm ++ [m] } else s

/-- An output goes to FAULT in a channel (Table SAF-2). -/
def State.safFault (s : State) (c m cause : Nat) : State :=
  let o := (s.saf.chan c).out m
  if !(s.saf.chan c).alive ∨ (o.st = .fault ∧ o.causes.contains cause) then s
  else
    let s1 := s.updSOut c m fun o =>
      { o with st := .fault, resetSeen := false, cause := if o.cause = 0 then cause else o.cause,
               causes := if o.causes.contains cause then o.causes else o.causes ++ [cause] }
    let s2 := if o.st = .on then s1.edmStart c m else s1
    ((s2.record .saf c 0x0F11 [safIdx false m, cause, c]).safFirst cause m false).irq .saf 9

/-- Every enabled output goes to FAULT in a channel. -/
def State.safFaultAll (s : State) (c cause : Nat) : State := s.saf.outs.foldl (fun s m => s.safFault c m cause) s

/-- A channel latches a cause of its own (R271), whether outputs are enabled or not, and opens its switch of every output. -/
def State.safChanFault (s : State) (c cause : Nat) : State :=
  if (s.saf.chan c).alive then (s.updSCh c fun k => { k with causes := if k.causes.contains cause then k.causes else k.causes ++ [cause] }).safFaultAll c cause
  else s

/-- Whether either channel's stored set fails its CRC (R283). -/
def Saf.paramBad (x : Saf) : Bool := (x.chan 0).paramBad || (x.chan 1).paramBad

/-- The switch of an output closes in a channel; while the core die's FATAL line is active an output with FATAL_TRIP stays open (R278). -/
def State.safOn (s : State) (c m : Nat) : State :=
  if s.erm.fatal && s.saf.fatalTrip m then s.updSOut c m fun o => { o with st := .off }
  else (s.updSOut c m fun o => { o with st := .on }).edmStart c m

/-- An ON output is tripped in a channel by a pair (SAFETY_OUTPUT_TRIP, R278): the first switch to open records TRIP with the reaction time (R281). `openUs` and `rbUs` are the
times in µs from the demand edge to the opening and to the readback low. -/
def State.safTrip (s : State) (c m pair openUs rbUs : Nat) : State :=
  let both := decide (s.saf.outSt (1 - c) m = .on)
  let s1 := (s.updSOut c m fun o => { o with st := .off }).edmStart c m
  if both then
    ((s1.record .saf c 0x0F10 [m, pair, c, rbUs]).updSaf fun x => { x with rtLast := Tab.put (0, 0) x.rtLast m (openUs, rbUs) }).irq .saf 8
  else s1

/-- An output of a channel follows its pairs (Table SAF-2). -/
def State.safStep (s : State) (c m openUs rbUs : Nat) : State :=
  let x := s.saf
  let o := (x.chan c).out m
  let dem := x.gated c m
  match o.st with
  | .off =>
    if x.edmEn m && x.demand c (x.edmPair m) && !(x.chan c).edm.contains m then s.safFault c m cEdm
    else if dem then s
    else if x.autoRestart m && o.resetSeen then (if x.edmOk c m then s.safOn c m else s)
    else s.updSOut c m fun o => { o with st := .waitReset }
  | .waitReset => if dem then s.updSOut c m fun o => { o with st := .off } else s
  | .on =>
    if dem then
      let n := ((x.mapped m).find? fun n => x.demand c n).getD 0
      s.safTrip c m n openUs rbUs
    else s
  | _ => s

/-- Whether the EDM pair of an output is as a channel's own switch wants it (R278): in demand while it is closed, healthy while it is open. -/
def Saf.edmFollows (x : Saf) (c m : Nat) : Bool := x.demand c (x.edmPair m) == decide (x.outSt c m = .on)

/-- A channel's EDM timers end where the pairs have followed (R278). -/
def State.edmFollow (s : State) (c : Nat) : State :=
  let x := s.saf
  s.updSCh c fun k => { k with edm := k.edm.filter fun m => !x.edmFollows c m }

/-- Every enabled output of a channel follows. -/
def State.safEval (s : State) (c openUs rbUs : Nat) : State :=
  if !(s.saf.chan c).alive then s
  else s.saf.outs.foldl (fun s m => s.safStep c m openUs rbUs) (s.edmFollow c)

/-- A pair latches a cause in a channel, and its outputs go to FAULT (R273, R275, Table SAF-2). -/
def State.pairFault (s : State) (c n cause : Nat) : State :=
  if !(s.saf.chan c).alive ∨ ((s.saf.chan c).pair n).held ≠ 0 then s
  else
    let s1 := ((s.updSPair c n fun p => { p with held := cause, both := false }).record .saf c 0x0F11 [safIdx true n, cause, c]).safFirst cause n true
    (s1.irq .saf 9).saf.outs.foldl (fun s m => if (s.saf.mapped m).contains n then s.safFault c m cause else s) (s1.irq .saf 9)

/-- The core die's FATAL line (R278): it opens the ON outputs with FATAL_TRIP in both channels. -/
def State.safFatal (s : State) : State :=
  [0, 1].foldl (fun s c =>
    s.saf.outs.foldl (fun s m =>
      if s.saf.fatalTrip m ∧ s.saf.outSt c m = .on then
        ((s.updSOut c m fun o => { o with st := .off, cause := if o.cause = 0 then cFatal else o.cause }).causeShow (safIdx false m) cFatal).edmStart c m
      else s) s) s

end Sys2Proof.Machine
end

