-- ==== Sys2Proof/Machine/Fatal.lean ====
section
/-!
DEFINITION. The hard-wired safe reaction to a FATAL error (R478): it runs without firmware and without the die-to-die link.
-/

namespace Sys2Proof.Machine

/-- The PWM pads drive 0 and TRIG_OUT_0–7 go low; CSC's kinds 0 and 1 are these pins. -/
def State.padsLow (s : State) : State :=
  { s with mot := { s.mot with drives := Tab.mapAll {} (fun x => { x with mode := .off, dA := 0, dB := 0, wA := {}, wB := {} }) s.mot.drives },
           csc := { s.csc with outs := Tab.keep (fun k _ => decide (2 ≤ k / 65536)) s.csc.outs } }

/-- The Lane ports stop after the frame in progress. -/
def State.laneHalt (s : State) : State :=
  { s with lne := { s.lne with ports := Tab.mapAll {} (fun x => { x with state := .off }) s.lne.ports } }

/-- A power-state entry in progress rolls back (R456, R458): the refusing block's code or 0, and the cause of REFUSED. WOKEN and ABORTED have no result code: it is a
free value. -/
def State.pmcRollback (s : State) (blk cause : Nat) : State :=
  match s.pmc.hs with
  | none => s
  | some _ =>
    let (n, s1) := if cause ≤ 1 then (0, s) else s.draw
    let r := if cause ≤ 1 then 0x21 else (Config.freeWord n).toNat % 256
    { s1 with pmc := { s1.pmc with st := if s1.pmc.st = .entering then .rollback else s1.pmc.st, cause := cause, refBlk := blk, result := r,
                                   hs := s1.pmc.hs.map fun h => { h with ask := [], wait := none, back := true } } }

/-- The reaction's outputs: pads low, every field-die output in its safe state as at silence, the safety island's FATAL line, the Lane ports; PMC
rolls back (R456). -/
def State.fatalOutputs (s : State) : State := ((((s.padsLow).fioSilence).safFatal).laneHalt).pmcRollback 0 4

end Sys2Proof.Machine
end

