-- ==== Sys2Proof/Machine/OpsErm.lean ====
section
/-!
DEFINITION. Raising an error through the error manager (R473–R478), shared by every block.
-/

namespace Sys2Proof.Machine

/-- QUEUE_MIN of ERM_CFG (R473). -/
def State.queueMin (s : State) : Nat := bits (s.reg R.ERM_CFG) 2 0

/-- The most entries the error queue holds (R475). -/
def ermQueueMax : Nat := 16

/-- The severity one above (R475, row 2). -/
def sevUp : Severity → Severity
  | .info => .warn | .warn => .alarm | .alarm => .fault | .fault => .fatal | .fatal => .fatal

/-- The oldest entry of the highest severity, with the queue without it (R474). -/
def takeWorst : List ErrEnt → Option (ErrEnt × List ErrEnt)
  | [] => none
  | e :: t =>
    match takeWorst t with
    | none => some (e, [])
    | some (f, r) => if e.sev.code < f.sev.code then some (f, e :: r) else some (e, t)

/-- Whether ERR_N is to be low (R464, R474, R478): the current error is ALARM or above, the FATAL reaction runs, or every boot source was refused. -/
def Erm.errNDue (e : Erm) : Bool := e.fatal || e.halted || (match e.cur with | some c => decide (2 ≤ c.sev.code) | none => false)

/-- ERR_N follows its rule; before start-up phase 3 it keeps its level (R495). -/
def Erm.driveErrN (e : Erm) : Erm := if e.phase < 3 then e else { e with errNLow := e.errNDue }

/-- The next current error after the last was acknowledged (R474); while not attached, WARN and lower are acknowledged as they become
current (R476). `fuel` bounds the chain by the queue's length. -/
def Erm.promote (attached : Bool) : Nat → Erm → Erm
  | 0, e => e
  | n + 1, e =>
    match e.cur with
    | some c => if !attached && decide (c.sev.code ≤ 1) then Erm.promote attached n { e with cur := none } else e
    | none =>
      match takeWorst e.queue with
      | none => e
      | some (c, q) => Erm.promote attached n { e with cur := some c, queue := q }

/-- Make the current error and ERR_N agree with the queue, and raise BLK_IRQ_RAW[8] where a new error became current (R474). -/
def State.settleErm (s : State) : State :=
  let e := (Erm.promote (decide (s.hts.auto = .attached)) (2 * ermQueueMax + 4) s.erm).driveErrN
  let s' := { s with erm := e }
  if e.cur.isSome && decide (e.cur ≠ s.erm.cur) then s'.irq .erm 8 else s'

/-- The FATAL reaction (R478): ERM writes FATAL and fills its log, ERR_N goes low and the outputs take their safe states. -/
def State.fatalReaction (s : State) (code src cause : Nat) : State :=
  let s1 := s.record .erm 0 0x0412 [code, src, cause]
  let log := match s1.erm.fatalLog with
    | some l => some l
    | none => some { code := code, src := src, cause := cause }
  ({ s1 with erm := { s1.erm with fatal := true, fatalLog := log, errNLow := true } }).fatalOutputs

/-- A FATAL error: the reaction once; further FATAL errors during the delay are counted only (R478). -/
def State.fatalError (s : State) (code src cause : Nat) : State :=
  if s.erm.fatal then s else s.fatalReaction code src cause

/-- Whether an error of a class is in handling: current or queued (R474). -/
def Erm.find (e : Erm) (code : Nat) : Option ErrEnt :=
  match e.cur with
  | some c => if c.code = code then some c else e.queue.find? (fun x => decide (x.code = code))
  | none => e.queue.find? (fun x => decide (x.code = code))

/-- Change the error of a class in handling. -/
def Erm.modify (e : Erm) (code : Nat) (f : ErrEnt → ErrEnt) : Erm :=
  { e with cur := e.cur.map (fun c => if c.code = code then f c else c),
           queue := e.queue.map (fun c => if c.code = code then f c else c) }

/-- A queued error whose new severity is above the current error's preempts it (R475, row 2 as row 4). -/
def Erm.preemptQueued (e : Erm) (code : Nat) : Erm :=
  match e.cur, e.queue.find? (fun x => decide (x.code = code)) with
  | some c, some x =>
    if c.sev.code < x.sev.code then
      { e with cur := some x, queue := c :: e.queue.filter (fun y => decide (y.code ≠ code)) }
    else e
  | _, _ => e

/-- Handle a new error at or above QUEUE_MIN by the first row of Table ERM-4 that applies. -/
def State.handleError (s : State) (code src : Nat) (sev : Severity) : State :=
  if sev = .fatal then s.fatalError code src 0
  else
    match s.erm.find code with
    | some x =>
      if x.escalated then
        { s with erm := s.erm.modify code fun e => { e with recur := satInc 255 e.recur } }
      else
        let nsev := sevUp x.sev
        let s1 := s.record .erm 0 0x0411 [code, x.sev.code, nsev.code]
        let s2 := { s1 with erm := s1.erm.modify code fun e => { e with sev := nsev, escalated := true } }
        if nsev = .fatal then s2.fatalError code src 1
        else
          let e := (s2.erm.preemptQueued code).driveErrN
          let s3 := { s2 with erm := e }
          if e.cur.map ErrEnt.code ≠ s2.erm.cur.map ErrEnt.code then s3.irq .erm 8 else s3
    | none =>
      let x : ErrEnt := { code := code, src := src, sev := sev, time := s.now }
      match s.erm.cur with
      | none => ({ s with erm := { s.erm with cur := some x } }.irq .erm 8).settleErm
      | some c =>
        if ermQueueMax ≤ s.erm.queue.length then s.fatalError code src 2
        else if c.sev.code < sev.code then
          ({ s with erm := { s.erm with cur := some x, queue := c :: s.erm.queue } }.irq .erm 8).settleErm
        else { s with erm := { s.erm with queue := s.erm.queue ++ [x] } }

/-- A block raises an error (R473): counted in ERM_CNT; at or above QUEUE_MIN recorded as ERROR and handled. FATAL is handled whatever
QUEUE_MIN is; further FATAL errors during the reaction are counted only (R478). -/
def State.raise (s : State) (b : Block) (inst code : Nat) (sev : Severity) : State :=
  let src := source b inst
  let s1 := { s with erm := { s.erm with cnt := Tab.upd 0 s.erm.cnt sev.code (satInc 0xFFFFFFFF) } }
  if sev = .fatal ∧ s.erm.fatal then s1
  else if s.queueMin ≤ sev.code then
    (s1.record .erm 0 0x0410 [code, src, sev.code, s.now % 2 ^ 32]).handleError code src sev
  else if sev = .fatal then s1.handleError code src sev
  else s1

/-- A raise to which the spec gives no error code: the code is a free value. -/
def State.raiseNoCode (s : State) (b : Block) (inst : Nat) (sev : Severity) : State :=
  let (n, s1) := s.draw
  s1.raise b inst ((Config.freeWord n).toNat % 65536) sev

/-- An error in the safe-state path (R156, R452) is FATAL at once with cause 3. -/
def State.raiseSafePath (s : State) (b : Block) (inst code : Nat) : State :=
  let src := source b inst
  let s1 := { s with erm := { s.erm with cnt := Tab.upd 0 s.erm.cnt 4 (satInc 0xFFFFFFFF) } }
  if s.erm.fatal then s1
  else if s.queueMin ≤ 4 then (s1.record .erm 0 0x0410 [code, src, 4, s.now % 2 ^ 32]).fatalError code src 3
  else s1.fatalError code src 3

end Sys2Proof.Machine
end

