-- ==== Sys2Proof/Machine/WriteHooks.lean ====
section
/-!
DEFINITION. What follows a write that PTD stores: HRC's observation with its records and blocks (R380–R386), and the transmit request of an
ON_CHANGE CAN object (R436).
-/

namespace Sys2Proof.Machine

/-- The global point ID (R9). -/
def State.gid (s : State) (idx : Nat) : Nat := s.ave.devId * 2 ^ 19 + idx

/-- The key of a framed source in PTD_FRAME_SEL (Table PTD-7): the type at [12:10], the instance at [9:0]. -/
def frameKey (type inst : Nat) : Nat := type * 1024 + inst

/-- The framed source that a point's source type and reference belong to (Table PTD-3): the field die, MOT's snapshot, a station or a peer. -/
def frameOf (e : DirEntry) : Option Nat :=
  match e.srcType with
  | .fioCh | .fioAi | .saf => some (frameKey 0 0)
  | .enc | .latch | .axis => some (frameKey 1 0)
  | .lane => some (frameKey 2 (e.srcRef / 2 ^ 25 % 8 * 128 + e.srcRef / 2 ^ 18 % 128))
  | .ave => some (frameKey 3 (e.srcRef / 2 ^ 19 % 64))
  | _ => none

/-- The reference time T_ref of a point (R66): the sample time of its source's latest frame, or the network time now. -/
def State.refTime (s : State) (e : DirEntry) : Nat :=
  match frameOf e with
  | some k => Tab.get 0 s.ptd.frameT k
  | none => s.now

/-- The full update time of a point whose entry holds TIME_LO `lo` (R66). -/
def State.fullTime (s : State) (e : DirEntry) (lo : Nat) : Nat :=
  let ref := s.refTime e
  ref - (ref + 2 ^ 24 - lo % 2 ^ 24) % 2 ^ 24

/-- RT microseconds (R382): the time base of the weights, which a phase step does not move. -/
def State.rtUs (s : State) : Nat := s.upUs

/-- Change the history recorder, or a point's history. -/
def State.updHrc (s : State) (f : Hrc → Hrc) : State := { s with hrc := f s.hrc }
def State.hpt (s : State) (idx : Nat) : HrcPt := Tab.get {} s.hrc.pts idx
def State.updHpt (s : State) (idx : Nat) (f : HrcPt → HrcPt) : State := s.updHrc fun h => { h with pts := Tab.upd {} h.pts idx f }

/-! ### Records and blocks -/

/-- A history record (Table HRC-1). `stats` are the values of a REDUCE record in order, or the one value of a CHANGE record; `sel` is the
STATS code of its tag. -/
structure HrcRec where
  time : Nat
  point : Nat
  reduce : Bool
  q : Byte
  flags : Nat
  count : Nat
  sel : Nat
  vals : List Int
deriving DecidableEq, Repr, Inhabited

/-- Zigzag over 64 bits. -/
def zigzag (v : Int) : Nat := if 0 ≤ v then 2 * v.toNat else 2 * (-v).toNat - 1

/-- LEB128 of a number below 2^64. -/
def lebGo : Nat → Nat → List Byte
  | 0, _ => []
  | n + 1, x => if x < 128 then [BitVec.ofNat 8 x] else BitVec.ofNat 8 (x % 128 + 128) :: lebGo n (x / 128)
def leb (v : Int) : List Byte := lebGo 10 (zigzag v)

/-- A compressed entry (Table HRC-4) after the previous entry's time and point; `first` says that it opens its block. -/
def encodeRec (r : HrcRec) (prevT prevPt : Nat) (first : Bool) : List Byte :=
  let newpt := first || decide (r.point ≠ prevPt + 1)
  let qb := decide (r.q ≠ 1)
  let ex := decide (r.flags ≠ 0) || decide (r.count ≠ 0)
  [BitVec.ofNat 8 (b2n r.reduce + 4 * b2n newpt + 8 * b2n qb + 16 * b2n ex + 32 * r.sel)] ++ leb ((r.time : Int) - (prevT : Int)) ++
    (if newpt then natBytesLE (r.point % 2 ^ 25) 4 else []) ++ (if qb then [r.q] else []) ++
    (if ex then BitVec.ofNat 8 r.flags :: natBytesLE (min r.count 65535) 2 else []) ++ r.vals.flatMap leb

/-- The ring's base and how many blocks it holds (Table HRC-5). -/
def State.hrcRing (s : State) : Nat := (s.reg R.HRC_RING_LO).toNat + bits (s.reg R.HRC_RING_HI) 7 0 * 2 ^ 32
def State.hrcSlots (s : State) : Nat := bits (s.reg R.HRC_RING_SIZE) 13 0 * 256

/-- The device ID in a block header. -/
def State.hrcDev (s : State) : Nat := if s.ave.assigned then s.ave.devId else 0x3F

/-- Header words H8–H15 (Table HRC-3). -/
def gapWords (b : HrcBlock) : List Word :=
  let ws := [word b.gapBlocks, word b.gapRecs, word b.gapFirst, word (b.gapFirst / 2 ^ 32), word b.gapLast, word (b.gapLast / 2 ^ 32)]
  ws ++ [word (crc32c (ws.flatMap wordBytes)), 0]

/-- The first seven header words of a block. -/
def headWords (dev entries seq base bytes : Nat) (restart : Bool) : List Word :=
  [0x4B425248, word (dev + 0x100 + 0x10000 * entries), word seq, word base, word (base / 2 ^ 32), word (bytes + 4096 * b2n restart), 0]

/-- Write a closed block's gap words into its header in the ring. -/
def State.putGap (s : State) (b : HrcBlock) : State :=
  s.storeRam (s.hrcRing + 4096 * b.slot + 32) ((gapWords b).flatMap wordBytes)

/-- A block takes over the count, entries and times of one that was overwritten unsent, with what that one had taken over (R386). -/
def HrcBlock.absorb (b v : HrcBlock) : HrcBlock :=
  let t0 := if v.gapBlocks = 0 then v.base else min v.base v.gapFirst
  { b with gapBlocks := b.gapBlocks + v.gapBlocks + 1, gapRecs := b.gapRecs + v.gapRecs + v.entries,
           gapFirst := if b.gapBlocks = 0 then t0 else min b.gapFirst t0, gapLast := max b.gapLast (max v.last v.gapLast) }

/-- An unsent block is lost (R386, R387): it is counted, and the oldest block that remains unsent, or else the next one, carries the gap. -/
def State.hrcLose (s : State) (v : HrcBlock) : State :=
  let s1 := (s.updHrc fun h => { h with gapCnt := wrapInc h.gapCnt }).irq .hrc 8
  match s.hrc.unsent.filter fun b => decide (b.seq ≠ v.seq) with
  | b :: t => (s1.updHrc fun h => { h with unsent := b.absorb v :: t }).putGap (b.absorb v)
  | [] => s1.updHrc fun h => { h with unsent := [], carry := h.carry.absorb v }

/-- HRC_BLOCK_OVERWRITE (R386): the oldest unsent block that is not being transmitted gives up its slot. -/
def State.hrcOverwrite (s : State) : State × Nat :=
  match s.hrc.unsent.find? fun b => !b.sending with
  | none => (s, 0)
  | some v => (s.hrcLose v, v.slot)

/-- The lowest slot from a start that holds no unsent block. -/
def freeSlot (used : List Nat) (n start : Nat) : Nat → Nat
  | 0 => start % max 1 n
  | k + 1 => if used.contains (start % max 1 n) then freeSlot used n (start + 1) k else start % max 1 n

/-- A block is closed (R385, R386): header, data and CRC go to the ring, and STALL is set when half of it is unsent. -/
def State.hrcClose (s : State) : State :=
  match s.hrc.blk with
  | none => s
  | some o =>
    let n := s.hrcSlots
    let (s1, slot) := if n ≤ s.hrc.unsent.length then s.hrcOverwrite
      else (s, freeSlot (s.hrc.unsent.map HrcBlock.slot) n s.hrc.seq s.hrc.unsent.length)
    let seq := s1.hrc.seq
    let b : HrcBlock := { s1.hrc.carry with seq := seq, slot := slot, entries := o.entries, base := o.base, last := o.last }
    let h := headWords s.hrcDev o.entries seq o.base o.data.length s1.hrc.first
    let crc := crc32c ((h.flatMap wordBytes) ++ o.data)
    let bytes := ((h ++ [word crc] ++ gapWords b).flatMap wordBytes) ++ o.data ++ List.replicate (4032 - o.data.length) 0x02
    let s2 := (s1.storeRam (s.hrcRing + 4096 * slot) bytes).updHrc fun h =>
      { h with blk := none, seq := wrapInc h.seq, first := false, unsent := h.unsent ++ [b], carry := {} }
    if !s2.hrc.stalled ∧ n < 2 * s2.hrc.unsent.length then
      ((s2.updHrc fun h => { h with stalled := true }).record .hrc 0 0x1413 [s2.hrc.unsent.length]).irq .hrc 9
    else s2

/-- A record enters the block in progress; a block with fewer than 34 data bytes left is closed (R385). -/
def State.hrcRecord (s : State) (r : HrcRec) : State :=
  let o := match s.hrc.blk with | some o => o | none => { base := r.time, prevT := r.time, last := r.time }
  let o' : HrcOpen := { data := o.data ++ encodeRec r o.prevT o.prevPt (decide (o.entries = 0)), entries := o.entries + 1, base := o.base,
                        last := max o.last r.time, prevT := r.time, prevPt := r.point }
  let s1 := s.updHrc fun h => { h with blk := some o', recCnt := wrapInc h.recCnt }
  if 4032 < o'.data.length + 34 then s1.hrcClose else s1

/-! ### Observation (R380–R382) -/

/-- The history mode of an entry, 0 OFF, 1 ON_CHANGE, 2 REDUCE (R380). -/
def histModeOf (e : DirEntry) : Nat := if e.histMode = 3 then (if e.kind = .bit then 1 else 2) else e.histMode

/-- A CHANGE record. -/
def changeRec (gid : Nat) (v : Word) (q : Byte) (t flags count : Nat) : HrcRec :=
  { time := t, point := gid, reduce := false, q := q, flags := flags, count := count, sel := 0, vals := [v.toInt] }

/-- HRC_OC_BURST. -/
def State.ocBurst (s : State) : Nat := bits (s.reg R.HRC_OC_BURST) 7 0

/-- A write of an ON_CHANGE point (R381): a change that finds a token is recorded at once, another is held and replaces the one before. -/
def State.observeChange (s : State) (idx : Nat) (v : Word) (q : Byte) (t : Nat) : State :=
  let h := s.hpt idx
  let s1 := s.updHpt idx fun h => { h with last := some (v, q) }
  if h.last = some (v, q) then s1
  else if h.held.isNone ∧ h.used < s.ocBurst then
    (s1.updHpt idx fun h => { h with used := h.used + 1 }).hrcRecord (changeRec (s.gid idx) v q t 0 0)
  else s1.updHpt idx fun h => { h with held := some (v, q, t), heldN := h.heldN + 1 }

/-- The value in force counts up to now (R382). -/
def HrcPt.weigh (h : HrcPt) (us : Nat) : HrcPt :=
  let d := us - h.since
  { h with sum := h.sum + h.cur * (d : Int), wt := h.wt + d, since := us }

/-- A write of a REDUCE point (R382). -/
def State.observeReduce (s : State) (idx : Nat) (v : Word) (q : Byte) : State :=
  s.updHpt idx fun h =>
    let h1 := h.weigh s.rtUs
    { h1 with cur := v.toInt, curQ := q, mn := min h1.mn v.toInt, mx := max h1.mx v.toInt, q := h1.q ||| q, writes := min 65535 (h1.writes + 1) }

/-- Whether HRC records (R380). -/
def State.hrcOn (s : State) : Bool := (s.hd .hrc).running && (s.hd .mem).running

/-- HRC_WRITE_OBSERVE (R380): a write that PTD stored to a point with a history mode, as consumers read it, with its full
time. HRC records while it runs and SDRAM is there. -/
def State.hrcObserve (s : State) (idx : Nat) (e : DirEntry) (v : Word) (q : Byte) (t : Nat) : State :=
  if !s.hrcOn then s
  else
    match histModeOf e with
    | 1 => s.observeChange idx v q t
    | 2 => s.observeReduce idx v q
    | _ => s

/-- A REDUCE interval starts with the value in force. -/
def HrcPt.restart (h : HrcPt) (start us : Nat) (part : Bool) : HrcPt :=
  { h with start := start, since := us, mn := h.cur, mx := h.cur, sum := 0, wt := 0, q := h.curQ, writes := 0, partial_ := part, step := false }

/-- A point's history starts anew: the bucket is full and the interval PARTIAL (R381, R382, R387). `v` and `q` are what it reads. -/
def State.hrcStart (s : State) (idx : Nat) (v : Word) (q : Byte) : State :=
  s.updHpt idx fun _ => HrcPt.restart { last := some (v, q), cur := v.toInt, curQ := q } s.now s.rtUs true

/-- The mean of an interval (R382): × 256 for BIT, Q15 and INT16, rounded half up. An interval without a weight has the value in force. -/
def meanOf (k : Kind) (h : HrcPt) : Int :=
  let m : Int := match k with | .bit | .q15 | .int16 | .float32 => 256 | _ => 1
  if h.wt = 0 then h.cur * m else (2 * h.sum * m + (h.wt : Int)) / (2 * (h.wt : Int))

/-- The record of an interval that ends (R382). -/
def State.reduceEnd (s : State) (idx : Nat) (e : DirEntry) (next : Nat) : State :=
  let h := (s.hpt idx).weigh s.rtUs
  let m := meanOf e.kind h
  let r : HrcRec :=
    { time := h.start, point := s.gid idx, reduce := true, q := h.q,
      flags := 2 * b2n (decide (h.writes = 0)) + 4 * b2n h.partial_ + 8 * b2n h.step, count := h.writes, sel := e.histRed,
      vals := match e.histRed with | 0 => [h.mn, h.mx] | 1 => [m] | _ => [h.mn, h.mx, m] }
  (s.updHpt idx fun _ => h.restart next s.rtUs false).hrcRecord r

/-- The interval in progress of a REDUCE point is cut (R382): its record has PARTIAL. -/
def State.reduceCut (s : State) (idx : Nat) (e : DirEntry) : State :=
  if s.hrcOn && decide (e.kind ≠ .none) && decide (histModeOf e = 2) && decide ((s.hpt idx).start < s.now) then
    (s.updHpt idx fun h => { h with partial_ := true }).reduceEnd idx e s.now
  else s

/-! ### CAN -/

/-- Change a CAN object, numbered controller × 64 + object. -/
def State.canObj (s : State) (k : Nat) : CanObj := Tab.get {} s.can.objs k
def State.updCanObj (s : State) (k : Nat) (f : CanObj → CanObj) : State := { s with can := { s.can with objs := Tab.upd {} s.can.objs k f } }

/-- Whether an object is an enabled transmit object, and its TX_MODE and PERIOD (Table CAN-1). -/
def CanObj.en (o : CanObj) : Bool := bit o.o0 0
def CanObj.tx (o : CanObj) : Bool := bit o.o0 1
def CanObj.mode (o : CanObj) : Nat := bits o.o0 3 2
def CanObj.pt (o : CanObj) : Bool := bit o.o0 4
def CanObj.period (o : CanObj) : Nat := bits o.o0 31 16

/-- A waiting change of an ON_CHANGE object becomes a request once PERIOD ms have passed since the last one (R436). -/
def CanObj.due (o : CanObj) (now : Nat) : CanObj :=
  if o.changed && (match o.lastReq with | some t => decide (t + o.period * 1000000 ≤ now) | none => true) then
    { o with changed := false, txReq := true, lastReq := some now }
  else o

/-- A point bound to a CAN object changed (R436). -/
def State.canChange (s : State) (k : Nat) : State :=
  let o := s.canObj k
  if o.en && o.tx && o.pt && decide (o.mode = 2) && decide ((s.hd .can).pwr = .on) then
    s.updCanObj k fun o => { o with changed := true }.due s.now
  else s

end Sys2Proof.Machine
end

