-- ==== Sys2Proof/Machine/Ptd.lean ====
section
/-!
DEFINITION. Points: reading and writing hot and cold entries with their quality (R60–R68). Application writes and forcing are in Force, the commit of directory
entries in PtdCommit.
-/

namespace Sys2Proof.Machine

/-! ### Directory entries -/

/-- The kind of a code of Table PTD-2. -/
def kindOf : Nat → Kind
  | 0 => .none | 1 => .bit | 2 => .q15 | 3 => .int16 | 4 => .int32 | 5 => .float32 | 6 => .count64 | _ => .reserved

/-- The source type of a code of Table PTD-3. -/
def srcTypeOf : Nat → SrcType
  | 0 => .internal | 1 => .fioCh | 2 => .fioAi | 3 => .fioAo | 4 => .enc | 5 => .latch | 6 => .axis | 7 => .lane | 8 => .can
  | 9 => .ave | 10 => .saf | _ => .reserved

/-- The class of a code of W0[5:4]. -/
def classOf : Nat → TClass
  | 0 => .a | 1 => .b | 2 => .c | _ => .reserved

/-- A directory entry from its eight words (Table PTD-1). -/
def parseDir (w : Nat → Word) : DirEntry :=
  { kind := kindOf (bits (w 0) 2 0), hot := bit (w 0) 3, cls := classOf (bits (w 0) 5 4), substEn := bit (w 0) 6,
    substLast := bit (w 0) 7, output := bit (w 0) 8, hotIndex := bits (w 0) 31 16, srcType := srcTypeOf (bits (w 1) 3 0),
    srcRef := bits (w 1) 31 4, euZero := w 2, euScale := w 3, euLo := w 4, euHi := w 5, histMode := bits (w 6) 1 0,
    histRed := bits (w 6) 3 2, histInt := bits (w 6) 17 4, substVal := bits (w 7) 15 0, staleN := bits (w 7) 23 16 }

/-- The entry in effect of a local index. -/
def State.point (s : State) (idx : Nat) : DirEntry := Tab.get {} s.ptd.act idx

/-- The committed entry of a local index. -/
def State.dirEntry (s : State) (idx : Nat) : DirEntry := Tab.get {} s.ptd.dir idx

/-- Whether a source type is framed (Table PTD-3). -/
def framed : SrcType → Bool
  | .fioCh | .fioAi | .enc | .latch | .axis | .lane | .ave | .saf => true
  | _ => false

/-- The value word of a raw value in a kind's encoding (Table PTD-2). -/
def encodeKind (k : Kind) (v : Word) : Word :=
  match k with
  | .bit => v &&& 1
  | .q15 | .int16 | .float32 => wordI (sext 16 v.toNat)
  | _ => v

/-! ### Reading -/

/-- What a local index's image holds: its hot entry, or its cold entry, which reads as quality 0 while SDRAM is absent (R468). -/
def State.entry (s : State) (idx : Nat) : Entry :=
  let e := s.point idx
  if e.kind = .none then {}
  else if e.hot then Tab.get {} s.ptd.hot e.hotIndex
  else if (s.hd .mem).running then Tab.get {} s.ptd.cold idx
  else {}

/-- A read of a point: value and quality of one write (R14, R74); an entry in uncorrectable error reads VALUE 0, QUALITY 0 (R68). -/
def State.readPoint (s : State) (idx : Nat) : Entry :=
  let e := s.point idx
  if e.hot && s.ptd.ue.contains e.hotIndex then {} else s.entry idx

/-- The quality bits of Table PTD-5. -/
def qValid : Byte := 0x01
def qStale : Byte := 0x02
def qCommLost : Byte := 0x04
def qForced : Byte := 0x08
def qSubst : Byte := 0x10
def qRange : Byte := 0x20
def qSupply : Byte := 0x40
def qSim : Byte := 0x80

/-- VALID of a quality byte. -/
def isValid (q : Byte) : Bool := q.getLsbD 0

/-- STALE of a quality byte. -/
def isStale (q : Byte) : Bool := q.getLsbD 1

/-- An entry that is bad for a consumer: VALID = 0 or STALE = 1 (R96). -/
def isBad (q : Byte) : Bool := !isValid q || isStale q

/-! ### Writing -/

/-- The engineering value of a raw value over 2^149, times 32,768 for the Q15 kinds (R60). -/
def euNum (e : DirEntry) (v : Int) : Int :=
  match e.kind with
  | .q15 | .float32 => f32Num e.euZero * 32768 + v * f32Num e.euScale
  | _ => (f32Num e.euZero + v * f32Num e.euScale) * 32768

/-- Whether a raw value lies outside EU_LO … EU_HI (R67 step 2). Both limits 0 mean no check; BIT and COUNT64 carry no scaling. -/
def outOfRange (e : DirEntry) (v : Int) : Bool :=
  match e.kind with
  | .q15 | .float32 | .int16 | .int32 =>
    if f32Num e.euLo = 0 ∧ f32Num e.euHi = 0 then false
    else decide (euNum e v < f32Num e.euLo * 32768) || decide (f32Num e.euHi * 32768 < euNum e v)
  | _ => false

/-- The source's own bits of a quality byte: VALID, STALE, COMM_LOST and SUPPLY (R67 step 1). -/
def sourceBits (q : Byte) : Byte := q &&& 0x47

/-- The substitute value of a point (W7.SUBST_VAL or the last VALID value, Table PTD-1). -/
def substitute (e : DirEntry) (last : Option Word) : Word :=
  match e.substLast, last with
  | true, some v => v
  | _, _ => if e.kind = .bit then word (e.substVal % 2) else wordI (sext 16 e.substVal)

/-- The value and quality that PTD stores on a write (R67, steps 1 to 3). `sat` says that a FLOAT32 conversion saturated. -/
def compose (e : DirEntry) (last : Option Word) (v : Word) (q : Byte) (sat : Bool) : Word × Byte :=
  let q1 := sourceBits q
  let q1 := if q1.getLsbD 2 || q1.getLsbD 6 then q1 &&& 0xFE else q1
  let q2 := if outOfRange e v.toInt || sat then q1 ||| qRange else q1
  if e.substEn && !isValid q2 then (substitute e last, q2 ||| qSubst) else (v, q2)

/-- The force or simulation of a point, if any. -/
def State.forceOf (s : State) (idx : Nat) : Option ForceEnt := s.ptd.force.find? (fun f => decide (f.idx = idx))

/-- Store an entry at a point's binding, hot or cold. A hot write ends an uncorrectable error of the entry (R68). -/
def State.storeEntry (s : State) (idx : Nat) (x : Entry) : State :=
  let e := s.point idx
  if e.hot then
    { s with ptd := { s.ptd with hot := Tab.put {} s.ptd.hot e.hotIndex x,
                                 ue := s.ptd.ue.filter (fun i => decide (i ≠ e.hotIndex)) } }
  else { s with ptd := { s.ptd with cold := Tab.put {} s.ptd.cold idx x } }

/-- A write that PTD stores, at time `t` where the writer gives one in full: HRC observes it (R380), and a changed value of a point bound to a CAN object is a change for it (R436). -/
def State.putEntry (s : State) (idx : Nat) (x : Entry) (t : Option Nat := none) : State :=
  let e := s.point idx
  let old := s.entry idx
  let s1 := (s.storeEntry idx x).hrcObserve idx e x.value x.q (t.getD (s.fullTime e x.timeLo))
  if e.srcType = .can ∧ old.value ≠ x.value then s1.canChange (e.srcRef / 2 ^ 20) else s1

/-- Change the shadow of a forced or simulated point. -/
def State.putShadow (s : State) (idx : Nat) (x : Entry) : State :=
  { s with ptd := { s.ptd with force := s.ptd.force.map fun f => if f.idx = idx then { f with shadow := x } else f } }

/-- TIME_LO of an update time (Table PTD-4). -/
def timeLo (t : Nat) : Nat := t % 2 ^ 24

/-- Whether PTD accepts a producer's write to a point: the point exists, PTD runs, and a cold point's SDRAM is there (R468). -/
def State.canWrite (s : State) (idx : Nat) : Bool :=
  let e := s.point idx
  decide (e.kind ≠ .none) && (s.hd .ptd).running && (e.hot || (s.hd .mem).running)

/-- POINT_WRITE (R67): PTD composes and stores a source's write; a forced or simulated point's source writes its shadow (R69, R70). -/
def State.pointWriteSat (s : State) (idx : Nat) (v : Word) (q : Byte) (t : Nat) (sat : Bool) : State :=
  if !s.canWrite idx then s
  else
    let e := s.point idx
    let last := Tab.get none s.ptd.lastValid idx
    let (v1, q1) := compose e last (encodeKind e.kind v) q sat
    let x : Entry := { value := v1, q := q1, timeLo := timeLo t }
    let s1 := if isValid q1 then { s with ptd := { s.ptd with lastValid := Tab.put none s.ptd.lastValid idx (some v1) } } else s
    match s1.forceOf idx with
    | some _ => s1.putShadow idx x
    | none => s1.putEntry idx x (some t)

/-- POINT_WRITE of a value that was not converted from FLOAT32. -/
def State.pointWrite (s : State) (idx : Nat) (v : Word) (q : Byte) (t : Nat) : State := s.pointWriteSat idx v q t false

/-- Change the quality of a point's stored entry without a new value, and compose it anew: STALE and COMM_LOST marks of ports and of
PTD (Table PTD-5). The value is the last one received. -/
def State.markPoint (s : State) (idx : Nat) (f : Byte → Byte) : State :=
  if !s.canWrite idx then s
  else
    let e := s.point idx
    let cur := match s.forceOf idx with | some fe => fe.shadow | none => s.entry idx
    let q1 := f cur.q
    let last := Tab.get none s.ptd.lastValid idx
    let x : Entry := if e.substEn && !isValid q1 then { cur with value := substitute e last, q := q1 ||| qSubst } else { cur with q := q1 }
    match s.forceOf idx with
    | some _ => s.putShadow idx x
    | none => s.putEntry idx x

/-- COMM_LOST: VALID = 0 (Table PTD-5). -/
def markCommLost (q : Byte) : Byte := (q ||| qCommLost) &&& 0xFE

/-- STALE: the value is the last one received; VALID as last written. -/
def markStale (q : Byte) : Byte := q ||| qStale

/-- Every local index in effect whose entry satisfies a test. -/
def State.pointsWhere (s : State) (p : DirEntry → Bool) : List Nat := (s.ptd.act.filter fun e => p e.2).map (·.1)

/-- The point in effect that is bound to an endpoint (R62: at most one), if any. -/
def State.boundTo (s : State) (t : SrcType) (ref : Nat) : Option Nat :=
  ((s.ptd.act.filter fun e => decide (e.2.srcType = t) && decide (e.2.srcRef = ref) && decide (e.2.kind ≠ .none)).map (·.1)).head?

/-- The point in effect at a hot index (R64: at most one), if any. -/
def State.atHot (s : State) (h : Nat) : Option Nat :=
  ((s.ptd.act.filter fun e => e.2.hot && decide (e.2.hotIndex = h) && decide (e.2.kind ≠ .none)).map (·.1)).head?

/-- Write an endpoint's point, where one is bound. -/
def State.writeBound (s : State) (t : SrcType) (ref : Nat) (v : Word) (q : Byte) (time : Nat) : State :=
  match s.boundTo t ref with
  | some i => s.pointWrite i v q time
  | none => s

/-- Note the sample time of a framed source's latest frame (R66, R72). -/
def State.setFrameT (s : State) (type inst t : Nat) : State :=
  { s with ptd := { s.ptd with frameT := Tab.put 0 s.ptd.frameT (frameKey type inst) t } }

/-! ### Uncorrectable errors -/

/-- HOT_UE (R68): the index is logged if the log is empty, HOT_UE recorded and an ALARM raised; the entry stays in error. -/
def State.hotUe (s : State) (h : Nat) : State :=
  let s1 := { s with ptd := { s.ptd with ue := if s.ptd.ue.contains h then s.ptd.ue else s.ptd.ue ++ [h],
                                         ueLog := match s.ptd.ueLog with | some l => some l | none => some h } }
  ((s1.err .ptd 0x26).irq .ptd 10).raise .ptd 0 0x0826 .alarm

/-- What a read finds in a hot entry (R68): a corrected error is counted in PTD_ECC_CNT, which saturates. -/
def State.hotEcc (s : State) (h : Nat) : EccRead → State
  | .clean => s
  | .corrected => { s with ptd := { s.ptd with eccCnt := min (2 ^ 32 - 1) (s.ptd.eccCnt + 1) } }
  | .uncorrectable => s.hotUe h

/-- The grants of the B/C ports in a base frame (Table PTD-7). Which accesses fall into a frame and how the round robin orders them is
left open (R75), so each count advances by a free value (log 99). -/
def State.grantCount (s : State) : State :=
  let (a, s1) := s.draw
  let (b, s2) := s1.draw
  { s2 with ptd := { s2.ptd with grantB := s2.ptd.grantB + Config.freeWord a, grantC := s2.ptd.grantC + Config.freeWord b } }

/-- PTD_UE_LOG_CLEAR (R77). -/
def execPtdUeLogClear (p : Principal) (s : State) : Out :=
  .next (s.gated .ptd 0x160 .w1c p 0x80000000 fun s => { s with ptd := { s.ptd with ueLog := none } })

/-! ### Application and host writes -/

/-- The PTD error codes of Table PTD-8. -/
def errHotIndexUsed : Nat := 0x20
def errKindInvalid : Nat := 0x21
def errPointInUse : Nat := 0x22
def errForceDenied : Nat := 0x23
def errForceFull : Nat := 0x24
def errPointRo : Nat := 0x25
def errSrcInUse : Nat := 0x27
def errBadEntry : Nat := 0x28
def errForceState : Nat := 0x29
def errBadFloat : Nat := 0x2A

/-- Convert a FLOAT32 pattern that is no NaN to the stored Q15 value (R61), with whether it saturated. -/
def floatToRaw (e : DirEntry) (w : Word) : Int × Bool :=
  let num := (f32Num w - f32Num e.euZero) * 32768
  let den := f32Num e.euScale
  let r :=
    if bits w 30 23 = 255 then
      (if bit w 31 = (decide (den < 0)) then (1 : Int) else -1) * 2 ^ 40
    else if den = 0 then 0
    else if den < 0 then divRoundEven (-num) (-den).toNat
    else divRoundEven num den.toNat
  (sat16 r, decide (sat16 r ≠ r))

/-- Whether R65 lets applications and the host write a point: INTERNAL of class B or C, or FLOAT32. -/
def appWritable (e : DirEntry) : Bool :=
  (decide (e.srcType = .internal) && (decide (e.cls = .b) || decide (e.cls = .c))) || decide (e.kind = .float32)

/-- An accepted write of a permitted principal to a point (R61, R65, R70). -/
def State.appWrite (s : State) (idx : Nat) (v : Word) (q : Byte) : State :=
  let e := s.point idx
  let sim := match s.forceOf idx with | some f => f.sim | none => false
  if e.kind = .float32 ∧ f32NaN v then s.err .ptd errBadFloat
  else
    let raw : Word × Bool := if e.kind = .float32 then ((wordI (floatToRaw e v).1), (floatToRaw e v).2) else (v, false)
    if sim then
      s.putEntry idx { value := encodeKind e.kind raw.1, q := (q &&& 0x7F) ||| qSim ||| (if raw.2 then qRange else 0), timeLo := timeLo s.now }
    else if appWritable e then s.pointWriteSat idx raw.1 q s.now raw.2
    else s.err .ptd errPointRo

/-- The local index of a hot or cold entry. -/
def State.entryPoint (s : State) (cold : Bool) (i : Nat) : Option Nat :=
  if cold then (if (s.point i).kind ≠ .none ∧ !(s.point i).hot then some i else none) else s.atHot i

/-- STALE_TIMEOUT (R67): STALE_N frames of a framed source passed without an update of the point. -/
def execStaleTimeout (idx : Nat) (s : State) : Out :=
  .next (
    let e := s.point idx
    if e.staleN ≠ 0 ∧ framed e.srcType then s.markPoint idx markStale else s)

end Sys2Proof.Machine
end

