-- ==== Sys2Proof/Machine/Acq.lean ====
section
/-!
DEFINITION. The acquisition engine (R365–R379): the trigger sequencer, channels and blocks, sessions.
-/

namespace Sys2Proof.Machine

/-- Change the acquisition engine. -/
def State.updAcq (s : State) (f : Acq → Acq) : State := { s with acq := f s.acq }

/-- A capture channel's state. -/
def State.chan (s : State) (c : Nat) : Chan := Tab.get {} s.acq.chans c

/-- The four words of a channel (Table ACQ-8). -/
def State.chW (s : State) (c : Nat) : Word × Word × Word × Word :=
  (s.regAt R.ACQ_CH_W0 (16 * c), s.regAt R.ACQ_CH_W1 (16 * c), s.regAt R.ACQ_CH_W2 (16 * c), s.regAt R.ACQ_CH_W3 (16 * c))

/-- A channel's configuration. -/
structure ChCfg where
  en : Bool := false
  adc : Bool := false
  src : Nat := 0
  mode : Nat := 0
  div : Nat := 0
  redN : Nat := 0
  depth : Nat := 0
deriving DecidableEq, Repr, Inhabited

/-- The configuration of a channel. -/
def State.chCfg (s : State) (c : Nat) : ChCfg :=
  let (w0, w1, w2, w3) := s.chW c
  { en := bit w1 0, adc := bit w0 31, src := if bit w0 31 then bits w0 2 0 else bits w0 18 0, mode := bits w1 2 1, div := bits w1 31 16,
    redN := bits w2 16 0, depth := bits w3 17 0 }

/-- Whether a channel's samples have 32 bits (R365). -/
def State.wideCh (s : State) (c : ChCfg) : Bool :=
  !c.adc && (decide ((s.dirEntry c.src).kind = .int32) || decide ((s.dirEntry c.src).kind = .count64))

/-- The source period of a channel in ns (R365). -/
def ChCfg.srcNs (c : ChCfg) : Nat := if c.adc then 500 else c.div * 1000

/-- The record bytes of a channel (Table ACQ-1). -/
def State.recBytes (s : State) (c : ChCfg) : Nat :=
  match c.mode with | 0 => if s.wideCh c then 4 else 2 | 3 => 8 | _ => 4

/-- The record capacity of a block (Table ACQ-5). -/
def blockCap (rbytes : Nat) : Nat := if rbytes = 2 then 2016 else if rbytes = 4 then 1008 else 504

/-- SEG_N, MEM_BASE, the pre- and post-trigger times in ns. -/
def State.segN (s : State) : Nat := bits (s.reg R.ACQ_SESS_CFG) 7 0
def State.acqBase (s : State) : Nat := (s.reg R.ACQ_MEM_BASE_LO).toNat + 2 ^ 32 * bits (s.reg R.ACQ_MEM_BASE_HI) 7 0
def State.preNs (s : State) : Nat := (s.reg R.ACQ_PRE_T).toNat * 1000
def State.postNs (s : State) : Nat := (s.reg R.ACQ_POST_T).toNat * 1000

/-- SKEW of a channel in ps (R369). -/
def State.skew (s : State) (c : ChCfg) : Int := if c.adc then Tab.get 0 s.fio.aiSkew c.src else 0

/-! ### Blocks (R373, R376) -/

/-- The ring of a channel within the capture memory. -/
def State.ringBase (s : State) (c : Nat) : Nat :=
  s.acqBase + 4096 + 4096 * (((List.range c).filter fun k => (s.chCfg k).en).map fun k => (s.chCfg k).depth).sum

/-- Where the next block of a channel goes. -/
def State.blockAddr (s : State) (c : Nat) : Nat :=
  let per := (s.chCfg c).depth / s.segN
  s.ringBase c + 4096 * (s.acq.seg * per + (s.chan c).blocks % max 1 per)

/-- A block's 4 KiB (Table ACQ-5). -/
def State.blockBytes (s : State) (c : Nat) : List Byte :=
  let g := s.chCfg c
  let k := s.chan c
  let rb := s.recBytes g
  let per := g.redN * g.srcNs * 1000
  let head : List Word :=
    [0x4B424341, word (c + 64 * g.mode + 256 * rb + 65536 * k.count), word s.acq.session, word k.seq, word k.firstT, word (k.firstT / 2 ^ 32),
     word per, word (per / 2 ^ 32), wordI (s.skew g), word (k.qor + 256 * (s.acq.seg % 256) + 65536 * min 65535 k.bad),
     word (k.missed % 2 ^ 31 + (if k.missed = 0 then 0 else 2 ^ 31)), 0, 0, 0, 0]
  let hb := (head.map wordBytes).flatten
  let data := k.recs ++ List.replicate (4032 - k.recs.length) 0
  hb ++ wordBytes (word (crc32c (hb ++ data))) ++ data

/-- Whether the on-die buffer takes another block. -/
def State.bufRoom (s : State) : Bool := decide ((s.acq.buf.length + 1) * 4096 ≤ 262144)

/-- Finish a channel's block: it waits for its write. -/
def State.closeBlock (s : State) (c : Nat) : State :=
  if (s.chan c).count = 0 then s
  else
    s.updAcq fun a =>
      { a with buf := a.buf ++ [{ chan := c, addr := s.blockAddr c, bytes := s.blockBytes c }],
               chans := Tab.upd {} a.chans c fun k =>
                 { k with recs := [], count := 0, qor := 0, bad := 0, missed := 0, blocks := k.blocks + 1, seq := k.seq + 1 } }

/-- A sample is dropped because the buffer is full (R376). -/
def State.dropSample (s : State) (c : Nat) : State :=
  let s1 := s.updAcq fun a =>
    { a with ovf := wrapInc a.ovf, chans := Tab.upd {} a.chans c fun k => { k with dropped := k.dropped + 1, gapSeg := true } }
  if (s.chan c).dropped = 0 then s1.irq .acq 10 else s1

/-- A gap ends: OVERFLOW, and the next block carries the count. -/
def State.endGap (s : State) (c : Nat) : State :=
  if (s.chan c).dropped = 0 then s
  else
    (s.record .acq 0 0x1314 [c, (s.chan c).dropped]).updAcq fun a =>
      { a with chans := Tab.upd {} a.chans c fun k => { k with missed := k.dropped, dropped := 0 } }

/-- The mean of a run as MEAN stores it: 24 bits, sign-extended (R367). -/
def runMean (sum : Int) (n : Nat) : Int := (2 * sum * 256 + n) / (2 * n : Int)

/-- The record of a run. -/
def recBytesOf (mode : Nat) (wide : Bool) (x lo hi sum : Int) (n : Nat) : List Byte :=
  let mm := natBytesLE (lo % 65536).toNat 2 ++ natBytesLE (hi % 65536).toNat 2
  let mean := natBytesLE (runMean sum n % 2 ^ 32).toNat 4
  match mode with
  | 0 => natBytesLE (x % 2 ^ 32).toNat (if wide then 4 else 2)
  | 1 => mm
  | 2 => mean
  | _ => mm ++ mean

/-- Whether a session records. -/
def Acq.records (a : Acq) : Bool := decide (a.state = .armed) || decide (a.state = .post) || decide (a.state = .rearm)

/-- A channel records a sample taken at `t` ns (R367, R374). In POST a record that begins after t_trig + POST_T is not stored, while its run goes on; a
full block that found no room keeps the channel from recording (R376). -/
def State.recordSample (s : State) (c : Nat) (x : Int) (t : Nat) (qual : Nat) (bad : Bool) : State :=
  let g := s.chCfg c
  if !s.acq.records || decide (g.depth = 0) then s
  else
    let cap := blockCap (s.recBytes g)
    let full := decide (cap ≤ (s.chan c).count)
    if full && !s.bufRoom then s.dropSample c
    else
      let s1 := (if full then s.closeBlock c else s).endGap c
      let k := s1.chan c
      let first := decide (k.n = 0)
      let lo := if first then x else min k.lo x
      let hi := if first then x else max k.hi x
      let sum := if first then x else k.sum + x
      let runT := if first then t else k.runT
      let done := decide (g.redN ≤ k.n + 1)
      let late := decide (s.acq.state = .post) && decide (s.acq.trig + s.postNs < runT)
      let k1 := { k with n := if done then 0 else k.n + 1, lo := lo, hi := hi, sum := sum, runT := runT, qor := if late then k.qor else k.qor ||| qual,
                         bad := if bad && !late then min 65535 (k.bad + 1) else k.bad }
      let k2 := if done && !late then
          { k1 with recs := k1.recs ++ recBytesOf g.mode (s.wideCh g) x lo hi sum (k.n + 1), count := k1.count + 1,
                    firstT := if k1.count = 0 then runT else k1.firstT }
        else k1
      let s2 := s1.updAcq fun a => { a with chans := Tab.put {} a.chans c k2 }
      if decide (cap ≤ k2.count) && s2.bufRoom then s2.closeBlock c else s2

/-! ### The sequencer (R368–R371) -/

/-- What reaches the sequencer in a tick: a channel's sample after a previous one, or an event with its time in ps. -/
inductive AcqEv where
  | sample (c : Nat) (x0 x1 : Int) (t0 t1 : Nat)
  | coord (line t : Nat)
  | ext (n : Nat) (rising : Bool) (t : Nat)
  | fabric (line t : Nat)
deriving DecidableEq, Repr, Inhabited

/-- A condition word of a slot. -/
def State.seqQ (s : State) (st slot k : Nat) : Word := s.regAt R.ACQ_SEQ (64 * st + 16 * slot + 4 * k)

/-- Ticks to ps. -/
def tickPs (t : Nat) : Nat := t * 2500

/-- The interpolated crossing time in ps (R369). -/
def crossPs (t0 t1 : Nat) (level x0 x1 skew : Int) : Nat :=
  let num := ((t1 : Int) - t0) * (level - x0)
  let den := x1 - x0
  let (n, d) := if den < 0 then (-num, -den) else (num, den)
  ((t0 : Int) + (2 * n + d) / (2 * d) - skew).toNat

/-- What an event makes of a slot: its event time, if the slot is true. -/
def State.slotOn (s : State) (slot : Nat) (e : AcqEv) : Option Nat :=
  let st := s.acq.seqState
  let q0 := s.seqQ st slot 0
  let q1 := s.seqQ st slot 1
  let idx := bits q0 17 12
  let op := bits q0 10 8
  let level := sext 16 (bits q1 15 0)
  let edge : Bool → Bool := fun r => match op with | 0 => r | 1 => !r | _ => true
  match bits q0 3 0, e with
  | 1, .sample c x0 x1 t0 t1 =>
    if idx ≠ c then none
    else
      let sk := s.skew (s.chCfg c)
      let seen := nbit s.acq.seqArm slot
      match op with
      | 0 => if seen && decide (x0 < level) && decide (level ≤ x1) then some (crossPs t0 t1 level x0 x1 sk) else none
      | 1 => if seen && decide (level < x0) && decide (x1 ≤ level) then some (crossPs t0 t1 level x0 x1 sk) else none
      | 2 => if level < x1 then some ((t1 : Int) - sk).toNat else none
      | _ => if x1 < level then some ((t1 : Int) - sk).toNat else none
  | 2, .sample c x0 x1 _ t1 => if idx = c ∧ x0 ≠ x1 ∧ edge (decide (x1 = 1)) then some t1 else none
  | 3, .coord l t => if idx = l then some t else none
  | 4, .ext n r t => if idx = n ∧ edge r then some t else none
  | 5, .fabric l t => if idx = l then some t else none
  | _, _ => none

/-- What a slot is by the flags, counters and timers at a tick. -/
def State.slotLevel (s : State) (slot tick : Nat) : Option Nat :=
  let q0 := s.seqQ s.acq.seqState slot 0
  let idx := bits q0 17 12
  match bits q0 3 0 with
  | 6 => if nbit s.acq.tflag idx then some (Tab.get 0 s.acq.tflagT idx) else none
  | 7 => if (s.regAt R.ACQ_CNT_PRE (4 * idx)).toNat ≤ Tab.get 0 s.acq.cnt idx then some (tickPs tick) else none
  | 8 => Tab.get none s.acq.exp idx
  | _ => none

/-- The lowest-numbered true slot with its event time; events before the state's entry are ignored, but for FABRIC (R368). -/
def State.firing (s : State) (evs : List AcqEv) (tick : Nat) : Option (Nat × Nat) :=
  (List.range 4).findSome? fun slot =>
    let isFab := decide (bits (s.seqQ s.acq.seqState slot 0) 3 0 = 5)
    let hit := match evs.findSome? (s.slotOn slot) with
      | some t => some t
      | none => s.slotLevel slot tick
    match hit with
    | some t => if isFab || decide (s.acq.seqIn ≤ t) then some (slot, t) else none
    | none => none

/-- Samples arm the RISE_THRU and FALL_THRU slots of the current state. -/
def State.armSlots_ (s : State) (evs : List AcqEv) : State :=
  (List.range 4).foldl (fun s slot =>
    let q0 := s.seqQ s.acq.seqState slot 0
    let q1 := s.seqQ s.acq.seqState slot 1
    let level := sext 16 (bits q1 15 0)
    let hyst : Int := bits q1 31 16
    let hit := evs.any fun e =>
      match e with
      | .sample c _ x1 _ _ => decide (bits q0 3 0 = 1) && decide (bits q0 17 12 = c) &&
          ((decide (bits q0 10 8 = 0) && decide (x1 ≤ level - hyst)) || (decide (bits q0 10 8 = 1) && decide (level + hyst ≤ x1)))
      | _ => false
    if hit then s.updAcq fun a => { a with seqArm := nput a.seqArm slot true } else s) s

/-- A gap that lasts when the session ends is recorded all the same (R376). -/
def State.lastGap (s : State) (c : Nat) : State :=
  if (s.chan c).dropped = 0 then s
  else
    (s.record .acq 0 0x1314 [c, (s.chan c).dropped]).updAcq fun a => { a with chans := Tab.upd {} a.chans c fun k => { k with dropped := 0 } }

/-- The session ends (R374): blocks are flushed, SESSION_END and DONE. -/
def State.endSession (s : State) (st : SessState) (cause : Nat) : State :=
  let s1 := (List.range 64).foldl (fun s c => (s.closeBlock c).lastGap c) s
  let s2 := s1.updAcq fun a => { a with state := st, stopPend := false, armReq := false }
  ((s2.record .acq 0 0x1313 [cause, s.acq.trigs]).irq .acq 9).updHd .acq fun h => { h with running := false }

/-- The trigger log entry of index `j` in memory. -/
def State.logAddr (s : State) (j : Nat) : Nat := s.acqBase + 32 * j

/-- A trigger is accepted (R370): log entry, TRIGGER and state POST. -/
def State.acceptTrigger (s : State) (slot typ t tick : Nat) : State :=
  let j := s.acq.trigs
  let ns := t / 1000
  let ps := t % 1000
  let acc := tick * 5 / 2
  let short := decide (typ = 5) && decide (ns + 100000 < acc)
  let words : List Word :=
    [word (j + 256 * s.acq.seqState + 4096 * slot + 16384 * typ + 2 ^ 31), word ns, word (ns / 2 ^ 32), word ps, word acc, word (acc / 2 ^ 32),
     0xFFFFFFFF, word (b2n short)]
  let s1 := s.storeRam (s.logAddr j) ((words.map wordBytes).flatten)
  let s2 := s1.updAcq fun a => { a with state := .post, trigs := a.trigs + 1, trig := ns, trigPs := ps, acc := acc }
  (s2.record .acq 0 0x1311 [j, s.acq.seqState + 16 * slot, ns % 2 ^ 32, ps]).irq .acq 8

/-- The devices of ACQ_FAB_MASK. -/
def State.fabMask (s : State) : List Nat :=
  let m := (s.reg R.ACQ_FAB_MASK_LO).toNat + 2 ^ 32 * (s.reg R.ACQ_FAB_MASK_HI).toNat
  (List.range 64).filter fun d => nbit m d

/-- FAB_SEND (R371): one TRIG frame per device, at most one per line and µs. -/
def State.fabSend (s : State) (line t tick : Nat) : State :=
  let us := tick * 5 / 2000
  if Tab.get none s.acq.lastSend line = some us then s.updAcq fun a => { a with ign := wrapInc a.ign }
  else
    s.fabMask.foldl (fun s d => s.aveTo d (.trig (t / 1000) line (t % 1000)))
      (s.updAcq fun a => { a with lastSend := Tab.put none a.lastSend line (some us) })

/-- The counters after a slot's CNT_INC and CNT_CLR. -/
def cntAfter (q2 : Word) (k c : Nat) : Nat :=
  let c1 := if bit q2 (6 + k) then 0 else c
  if bit q2 (2 + k) then wrapInc c1 else c1

/-- A slot fires (R368, R370): its actions in the order of Table ACQ-3, then its NEXT state. -/
def State.fireSlot (s : State) (slot t tick : Nat) : State :=
  let st := s.acq.seqState
  let q0 := s.seqQ st slot 0
  let q2 := s.seqQ st slot 2
  let typ := bits q0 3 0
  let s0 := if typ = 6 then s.updAcq fun a => { a with tflag := nput a.tflag (bits q0 17 12) false } else s
  let s1 := if bit q2 0 then
      (if s0.acq.state = .armed then s0.acceptTrigger slot typ t tick else s0.updAcq fun a => { a with ign := wrapInc a.ign })
    else s0
  let s2 := if bit q2 1 then
      (if s1.acq.state = .post then s1.updAcq fun a => { a with stopPend := true }
       else if s1.acq.records then s1.endSession .stopped 1 else s1)
    else s1
  let s3 := (List.range 4).foldl (fun s k => s.updAcq fun a =>
    { a with cnt := Tab.upd 0 a.cnt k (cntAfter q2 k),
             tmr := if bit q2 (10 + k) then Tab.put none a.tmr k (some (tick + 4 * (s.regAt R.ACQ_TMR_PRE (4 * k)).toNat))
                    else if bit q2 (14 + k) then Tab.put none a.tmr k none else a.tmr,
             exp := if bit q2 (10 + k) || bit q2 (14 + k) then Tab.put none a.exp k none else a.exp }) s2
  let s4 := if bit q2 18 then s3.fabSend (bits q2 22 19) t tick else s3
  let f := bits q2 29 24
  let s5 := if bit q2 23 then
      s4.updAcq fun a => if f < 32 then { a with flag0 := setBit a.flag0 f } else { a with flag1 := setBit a.flag1 (f - 32) }
    else s4
  s5.updAcq fun a => { a with seqState := bits q0 7 4, seqIn := tickPs tick, seqArm := 0 }

/-- Whether the sequencer runs (R374). -/
def State.seqRuns (s : State) : Bool := s.acq.records

/-- The sequencer decides at a tick, and at the ticks that follow while a flag, counter or timer makes a slot true; at most sixteen decisions follow
one event. -/
def State.seqEval (s : State) (evs : List AcqEv) (tick : Nat) : Nat → State
  | 0 => s
  | n + 1 =>
    if !s.seqRuns then s
    else
      match s.firing evs tick with
      | some (slot, t) => State.seqEval (s.fireSlot slot t tick) [] (tick + 1) n
      | none => s.armSlots_ evs

/-- Events reach the sequencer. -/
def State.seqEvents (s : State) (evs : List AcqEv) (tick : Nat) : State := s.seqEval evs tick 16

/-- CSC fires ACQ_TRIG on a line at `t` ps (Table CSC-3). -/
def State.acqLine (s : State) (line t tick : Nat) : State := s.seqEvents [.coord line t] tick

/-- Samples of channels taken at `t` ns: sequencer first, then the records. -/
def State.chanSamples (s : State) (xs : List (Nat × Int × Nat × Bool)) (t tick : Nat) : State :=
  let evs := xs.filterMap fun x =>
    match (s.chan x.1).last with
    | some x0 => some (AcqEv.sample x.1 x0 x.2.1 (s.chan x.1).lastT (t * 1000))
    | none => some (AcqEv.sample x.1 x.2.1 x.2.1 (t * 1000) (t * 1000))
  let s1 := s.seqEvents evs tick
  xs.foldl (fun s x =>
    (s.recordSample x.1 x.2.1 t x.2.2.1 x.2.2.2).updAcq fun a =>
      { a with chans := Tab.upd {} a.chans x.1 fun k => { k with last := some x.2.1, lastT := t * 1000 } }) s1

/-- The enabled channels that satisfy a test. -/
def State.chansWhere (s : State) (f : ChCfg → Bool) : List Nat :=
  (List.range 64).filter fun c => let g := s.chCfg c; g.en && f g

/-- A conversion of the analog inputs reaches ACQ (R365, R369): values and qualities by input, sampled at `t` ns. -/
def State.acqAdc (s : State) (vals : List (Int × Byte)) (t : Nat) : State :=
  if !s.seqRuns then s
  else
    let xs := (s.chansWhere fun g => g.adc).map fun c =>
      let v := vals.getD (s.chCfg c).src (0, 0)
      (c, v.1, v.2.toNat, !isValid v.2)
    s.chanSamples xs t ((t + 320) * 2 / 5 + 1)

/-- The sample of a point in a channel's format (R365). -/
def State.pointSample (s : State) (idx : Nat) : Int × Nat × Bool :=
  let e := s.readPoint idx
  let v := match (s.dirEntry idx).kind with
    | .int32 | .count64 => e.value.toInt
    | .bit => (e.value.toNat % 2 : Nat)
    | _ => sext 16 e.value.toNat
  (v, e.q.toNat, isBad e.q)

/-- ACQ_POINT_SAMPLE (R366): the channels due at this instant are read in one group; a read that did not begin within 1 µs is skipped and
repeats the previous values. -/
def execAcqPointSample (skipped : Bool) (s : State) : Out :=
  .next (
    if !s.seqRuns then s
    else
      let due := s.chansWhere fun g => !g.adc && decide (g.div ≠ 0) && decide (s.now % (1000 * max 1 g.div) = 0)
      let xs := due.map fun c =>
        if skipped then (c, (s.chan c).last.getD 0, 0, true)
        else let (v, qq, b) := s.pointSample (s.chCfg c).src; (c, v, qq, b)
      let s1 := if skipped then s.updAcq fun a => { a with missed := wrapInc a.missed } else s
      s1.chanSamples xs s.now (s.now * 2 / 5 + 1))

/-- ACQ_TIMER_EXPIRY (R368): a running timer expires. -/
def execAcqTimerExpiry (k : Fin 4) (s : State) : Out :=
  .next (
    match Tab.get none s.acq.tmr k.val with
    | some t =>
      let s1 := s.updAcq fun a => { a with tmr := Tab.put none a.tmr k.val none, exp := Tab.put none a.exp k.val (some (tickPs t)) }
      s1.seqEvents [] t
    | none => s)

/-- ACQ_TFLAG_SET (R368). -/
def execAcqTflagSet (p : Principal) (m : Word) (s : State) : Out :=
  .next (s.gated .acq 0x138 .w1s p m fun s =>
    let s1 := s.updAcq fun a =>
      { a with tflag := (word a.tflag ||| m).toNat,
               tflagT := (List.range 32).foldl (fun t b => if bit m b then Tab.put 0 t b (s.now * 1000) else t) a.tflagT }
    s1.seqEvents [] (s.now * 2 / 5 + 1))

/-- ACQ_FLAG_CLEAR (R372): ACQ_FLAG_0 or ACQ_FLAG_1. -/
def execAcqFlagClear (p : Principal) (i : Fin 2) (m : Word) (s : State) : Out :=
  .next (s.gated .acq (0x140 + 4 * i.val) .w1c p m fun s =>
    s.updAcq fun a => if i = 0 then { a with flag0 := w1c a.flag0 m } else { a with flag1 := w1c a.flag1 m })

/-! ### Sessions (R373–R375) -/

/-- ACQ_RESULT with the error of a refused command. -/
def State.acqResult (s : State) (e ch : Nat) : State :=
  let s1 := s.updAcq fun a => { a with result := e, resultCh := ch }
  if e = 0 then s1 else s1.err .acq e

/-- Whether a channel's words are allowed (BAD_CHAN); `none` for its point's kind. -/
def State.chanOk (s : State) (c : Nat) : Bool :=
  let (w0, w1, w2, w3) := s.chW c
  let g := s.chCfg c
  let k := (s.dirEntry g.src).kind
  decide (bits w0 30 19 = 0) && decide (bits w1 15 3 = 0) && decide (bits w2 31 17 = 0) && decide (bits w3 31 18 = 0) &&
  (if g.adc then decide (g.div = 1) && decide (bits w0 18 3 = 0) else decide (1 ≤ g.div)) &&
  (if g.mode = 0 then decide (g.redN = 1) else decide (2 ≤ g.redN) && decide (g.redN ≤ 65536) && !s.wideCh g) &&
  (g.adc || decide (k = .none) || decide (k = .bit) || decide (k = .q15) || decide (k = .int16) || decide (k = .int32) || decide (k = .count64))

/-- Whether a condition slot is allowed (BAD_SEQ). -/
def State.slotOk (s : State) (st slot : Nat) : Bool :=
  let q0 := s.seqQ st slot 0
  let idx := bits q0 17 12
  let op := bits q0 10 8
  let g := s.chCfg idx
  decide (bits q0 11 11 = 0) && decide (bits q0 31 18 = 0) && decide (bits (s.seqQ st slot 2) 31 30 = 0) && decide (s.seqQ st slot 3 = 0) &&
  (match bits q0 3 0 with
   | 0 => decide (idx = 0) && decide (op = 0)
   | 1 => decide (op ≤ 3) && g.en && !s.wideCh g
   | 2 => decide (op ≤ 2) && g.en && !g.adc && decide ((s.dirEntry g.src).kind = .bit)
   | 3 => decide (op = 0) && decide (idx ≤ 15)
   | 4 => decide (op ≤ 2) && decide (idx ≤ 3)
   | 5 => decide (op = 0) && decide (idx ≤ 15)
   | 6 => decide (op = 0) && decide (idx ≤ 31)
   | 7 | 8 => decide (op = 0) && decide (idx ≤ 3)
   | _ => false)

/-- Whether a channel's segment holds its windows (R373). -/
def State.chanFits (s : State) (c : Nat) : Bool :=
  let g := s.chCfg c
  let b := blockCap (s.recBytes g) * g.redN * g.srcNs
  decide (g.depth = 0) || decide (s.preNs + s.postNs + 100000 + 2 * b ≤ g.depth / s.segN * b)

/-- The session registers hold values of their ranges (R499, Table ACQ-7): the ARM checks them. -/
def State.sessOk (s : State) : Bool :=
  let n := s.segN
  let kib := (s.reg R.ACQ_MEM_SIZE).toNat
  decide (1 ≤ n) && decide (n ≤ 128) && decide ((s.reg R.ACQ_PRE_T).toNat ≤ 10000000) && decide ((s.reg R.ACQ_POST_T).toNat ≤ 10000000) &&
    decide (bits (s.reg R.ACQ_MEM_BASE_LO) 11 0 = 0) && decide (kib % 4 = 0) && decide (kib ≤ 524288)

/-- The check of ARM: error code and the channel or slot concerned. -/
def State.armCheck (s : State) (fabricOk : Bool) : Nat × Nat :=
  let chans := s.chansWhere fun _ => true
  let total := 4096 + 4096 * (chans.map fun c => (s.chCfg c).depth).sum
  if s.acq.armReq ∨ !(s.hd .acq).run ∨ (s.acq.state ≠ .idle ∧ s.acq.state ≠ .done ∧ s.acq.state ≠ .stopped) then (0x24, 0)
  else if s.fio.calBusy then (0x27, 0)
  else if !s.sessOk then (errCommitRefused, 0)
  else
    match chans.find? (fun c => !s.chanOk c) with
    | some c => (0x21, c)
    | none =>
      match (List.range 64).find? (fun k => !s.slotOk (k / 4) (k % 4)) with
      | some k => (0x23, k)
      | none =>
        match chans.find? (fun c => !(s.chCfg c).adc && !(decide ((s.dirEntry (s.chCfg c).src).kind ≠ .none) && (s.dirEntry (s.chCfg c).src).hot)) with
        | some c => (0x22, c)
        | none =>
          if (s.reg R.ACQ_MEM_SIZE).toNat * 1024 < total then (0x20, 0)
          else
            match chans.find? (fun c => !s.chanFits c) with
            | some c => (0x20, c)
            | none => if s.fabMask ≠ [] ∧ !fabricOk then (0x25, 0) else (0, 0)

/-- ACQ_ARM (R374): `fabricOk` is the active gateway's decision on the destinations of FAB_SEND (R333). -/
def execAcqArm (p : Principal) (fabricOk : Bool) (s : State) : Out :=
  .next (s.gated .acq 0x118 .wo p 1 fun s =>
    let (e, c) := s.armCheck fabricOk
    let s1 := if e = 0 then s.updAcq fun a => { a with armReq := true } else s
    s1.acqResult e c)

/-- A trigger log entry with no trigger (Table ACQ-6's reset values). -/
def clearedLog : List Byte := List.replicate 24 0 ++ List.replicate 4 0xFF ++ List.replicate 4 0

/-- ACQ_ARM_EFFECTIVE (R374): an accepted arm starts recording at the base-frame boundary. -/
def State.acqArmEffective (s : State) : State :=
  if !s.acq.armReq then s
  else
    let s1 := s.storeRam s.acqBase (List.replicate 128 clearedLog).flatten
    let s2 := s1.updAcq fun a =>
      { a with state := .armed, armReq := false, session := wrapInc a.session, seg := 0, trigs := 0, stopPend := false, seqState := 0,
               seqIn := s.now * 1000, seqArm := 0, cnt := [], tmr := [], exp := [], flag0 := 0, flag1 := 0, chans := [], lastSend := [] }
    (s2.record .acq 0 0x1310 [s2.acq.session, (s.chansWhere fun _ => true).length, s.segN, s.now % 2 ^ 32]).updHd .acq fun h =>
      { h with running := true }

/-- Mark a bit of L7 of the current trigger's log entry. -/
def State.logMark (s : State) (b : Nat) : State :=
  let a := s.logAddr (s.acq.trigs - 1) + 28
  s.storeRam a (wordBytes (setBit (s.mem32 a) b))

/-- ACQ_STOP (R374). -/
def execAcqStop (p : Principal) (s : State) : Out :=
  .next (s.gated .acq 0x118 .wo p 2 fun s =>
    match s.acq.state with
    | .armed | .rearm => (s.endSession .stopped 2).acqResult 0 0
    | .post => ((s.logMark 2).endSession .stopped 2).acqResult 0 0
    | _ => s.acqResult 0x24 0)

/-- RUN = 0 stops a session at the base-frame boundary, as STOP (R374). -/
def State.acqRunStop (s : State) : State :=
  if (s.hd .acq).run then s
  else
    match s.acq.state with
    | .armed | .rearm => s.endSession .stopped 3
    | .post => (s.logMark 2).endSession .stopped 3
    | .done => s.updAcq fun a => { a with state := .stopped, armReq := false }
    | _ => s.updAcq fun a => { a with armReq := false }

/-- ACQ_CLEAR (R374). -/
def execAcqClear (p : Principal) (s : State) : Out :=
  .next (s.gated .acq 0x118 .wo p 3 fun s =>
    if s.acq.state = .done ∨ s.acq.state = .stopped then
      (s.updAcq fun a =>
        { a with state := .idle, seg := 0, trigs := 0, seqState := 0, cnt := [], tmr := [], exp := [], deadLast := 0, deadMax := 0, ign := 0,
                 missed := 0, ovf := 0, trig := 0, trigPs := 0 }).acqResult 0 0
    else s.acqResult 0x24 0)

/-- ACQ_POST_COMPLETE (R374): every channel has recorded to t_trig + POST_T; the session re-arms or ends. -/
def execAcqPostComplete (s : State) : Out :=
  .next (
    if s.acq.state ≠ .post ∨ s.now < s.acq.trig + s.postNs then s
    else
      let s0 := if (List.range 64).any fun c => (s.chan c).gapSeg then s.logMark 1 else s
      let s1 := (List.range 64).foldl (fun s c => s.closeBlock c) s0
      if s1.acq.stopPend then s1.endSession .stopped 1
      else if s.segN ≤ s1.acq.trigs then s1.endSession .done 0
      else
        s1.updAcq fun a =>
          { a with state := .rearm, seg := a.seg + 1, rearmT := s.now,
                   chans := Tab.mapAll {} (fun k => { k with blocks := 0, gapSeg := false }) a.chans })

/-- ACQ_REARM_COMPLETE (R374, R375): every channel has recorded PRE_T in its new segment. -/
def execAcqRearmComplete (s : State) : Out :=
  .next (
    if s.acq.state ≠ .rearm ∨ s.now < s.acq.rearmT + s.preNs then s
    else
      let dead := s.now - s.acq.acc
      let j := s.acq.trigs - 1
      let s1 := s.storeRam (s.logAddr j + 24) (wordBytes (word dead))
      let s2 := s1.updAcq fun a =>
        { a with state := .armed, seqState := 0, seqIn := s.now * 1000, seqArm := 0, tmr := [], exp := [], deadLast := dead,
                 deadMax := max a.deadMax dead }
      s2.record .acq 0 0x1312 [j, dead % 2 ^ 32])

/-- ACQ_BLOCK_WRITTEN (R376): the oldest waiting block's write to SDRAM completes or is reported uncorrectable, which leaves its CRC wrong. -/
def execAcqBlockWritten (failed : Bool) (s : State) : Out :=
  .next (
    match s.acq.buf with
    | [] => s
    | b :: t =>
      let s1 := s.updAcq fun a => { a with buf := t }
      if failed then
        let (k, s2) := s1.draw
        let wrong := word (leNat ((b.bytes.drop 60).take 4)) ^^^ (Config.freeWord k ||| 1)
        let s3 := s2.storeRam b.addr (b.bytes.take 60 ++ wordBytes wrong ++ b.bytes.drop 64)
        s3.err .acq 0x26
      else s1.storeRam b.addr b.bytes)

end Sys2Proof.Machine
end

