-- ==== Sys2Proof/Machine/CeMath.lean ====
section
/-!
DEFINITION. The control engine's arithmetic and laws (R83–R95), its compensation tables (R125, R126) and the packing of a loop's state
(R110, R133).
-/

namespace Sys2Proof.Machine

/-- A value with whether any step that led to it saturated (R84). -/
structure Acc where
  v : Int
  sat : Bool
deriving DecidableEq, Repr, Inhabited

/-- Saturate to the 40-bit accumulator (R84 step 3). -/
def sat40 (x : Int) : Acc := ⟨satS 40 x, decide (satS 40 x ≠ x)⟩

/-- Saturate a sum or difference of Q15 values (R84). -/
def satQ (x : Int) : Acc := ⟨sat16 x, decide (sat16 x ≠ x)⟩

/-- Store to Q15 (R84 step 4). -/
def storeQ (x : Int) : Acc := satQ ((x + 2 ^ 14) / 2 ^ 15)

/-- An arithmetic shift left, or right with halves toward +∞ (R84 step 2). -/
def shiftG (s : Int) (p : Int) : Int :=
  if 0 ≤ s then p * 2 ^ s.toNat else (p + 2 ^ ((-s).toNat - 1)) / 2 ^ (-s).toNat

/-- A gain times a Q15 signal, shifted and saturated (R84 steps 1 to 3). -/
def gmul (g : Gain) (v : Int) : Acc := sat40 (shiftG g.s (g.m * v))

/-- A Q15 coefficient times a 40-bit state, rounded back to Q30 (R84 step 2). -/
def cmul (c : Int) (x : Int) : Acc := sat40 ((c * x + 2 ^ 14) / 2 ^ 15)

/-- An addition in the accumulator. -/
def Acc.add (a b : Acc) : Acc := let c := sat40 (a.v + b.v); ⟨c.v, c.sat || a.sat || b.sat⟩

/-- A subtraction in the accumulator. -/
def Acc.sub (a b : Acc) : Acc := let c := sat40 (a.v - b.v); ⟨c.v, c.sat || a.sat || b.sat⟩

/-- A value that has not saturated. -/
def acc (x : Int) : Acc := ⟨x, false⟩

/-- A law-area gain word: W(12 + n). -/
def LoopDesc.gain (d : LoopDesc) (n : Nat) : Gain := nth {} d.g n

/-- The error of R86. -/
def lawError (d : LoopDesc) (r y : Int) : Acc := if d.reverse then satQ (y - r) else satQ (r - y)

/-- The derivative input of R86. -/
def lawX (d : LoopDesc) (r y : Int) : Acc := if d.dom then lawError d 0 y else lawError d r y

/-- A biquad section (R88) with its five gain words, two states and Q15 input: `w`, its stored output and the new states. -/
structure SecOut where
  w : Acc
  w16 : Acc
  s1 : Acc
  s2 : Acc
deriving DecidableEq, Repr

/-- One biquad section in direct form II transposed (R88). -/
def section1 (b0 b1 b2 a1 a2 : Gain) (s1 s2 q : Int) : SecOut :=
  let w := (gmul b0 q).add (acc s1)
  let w16 := storeQ w.v
  { w := w, w16 := w16,
    s1 := ((gmul b1 q).sub (gmul a1 w16.v)).add (acc s2),
    s2 := (gmul b2 q).sub (gmul a2 w16.v) }

/-- Pass a Q15 input through sections `j … j + n − 1` of a law whose section 0 starts at W16: the last `w`, the new states and whether
anything saturated. -/
def sections (d : LoopDesc) (bq : List Int) (q : Int) (w : Int) (sat : Bool) : Nat → Nat → Acc × List Int
  | _, 0 => (⟨w, sat⟩, bq)
  | j, n + 1 =>
    let o := section1 (d.gain (4 + 5 * j)) (d.gain (5 + 5 * j)) (d.gain (6 + 5 * j)) (d.gain (7 + 5 * j)) (d.gain (8 + 5 * j))
      (nth 0 bq (2 * j)) (nth 0 bq (2 * j + 1)) q
    let bq' := (bq.set (2 * j) o.s1.v).set (2 * j + 1) o.s2.v
    sections d bq' o.w16.v o.w.v (sat || o.w.sat || o.w16.sat || o.s1.sat || o.s2.sat) (j + 1) n

/-- The biquad states as if every section's input and output were `u` (R103), and whether anything saturated. The difference of two gains is no
gain word, so (B2 − A2)·u is the difference of the two products, each rounded and saturated (DESIGN CHOICE, log 103). -/
def trackSections (d : LoopDesc) (bq : List Int) (u : Int) (sat : Bool) : Nat → Nat → List Int × Bool
  | _, 0 => (bq, sat)
  | j, n + 1 =>
    let s2 := (gmul (d.gain (6 + 5 * j)) u).sub (gmul (d.gain (8 + 5 * j)) u)
    let s1 := ((gmul (d.gain (5 + 5 * j)) u).sub (gmul (d.gain (7 + 5 * j)) u)).add s2
    trackSections d ((bq.set (2 * j) s1.v).set (2 * j + 1) s2.v) u (sat || s1.sat || s2.sat) (j + 1) n

/-- What a law computes: the accumulator value `v`, the proportional part, the new derivative and biquad states, the error and the
derivative input. -/
structure LawOut where
  v : Acc
  p : Acc
  d : Acc
  bq : List Int
  e : Int
  x : Int
deriving DecidableEq, Repr

/-- Whether a law has the PID part (R87, R89, R92). -/
def hasPid : Law → Bool
  | .pid | .pidbq | .split => true
  | _ => false

/-- The law (R86–R92) on working set-point `r` and input `y`; `xPrev` is x[k−1]. -/
def law (d : LoopDesc) (st : LoopState) (r y xPrev : Int) : LawOut :=
  let e := lawError d r y
  let x := lawX d r y
  match d.law with
  | .pid | .pidbq | .split =>
    let p := gmul (d.gain 0) e.v
    let dk := (cmul d.dfilt st.d).add (gmul (d.gain 2) (x.v - xPrev))
    let v0 := (p.add (acc st.i)).add dk
    let v0 : Acc := ⟨v0.v, v0.sat || e.sat || x.sat⟩
    if d.law = .pidbq then
      let q := storeQ v0.v
      let (v, bq) := sections d st.bq q.v v0.v (v0.sat || q.sat) 0 d.nsec
      { v := v, p := p, d := dk, bq := bq, e := e.v, x := x.v }
    else { v := v0, p := p, d := dk, bq := st.bq, e := e.v, x := x.v }
  | .bq4 =>
    let xin := if d.bqIn then acc y else e
    let q0 := let g := gmul (d.gain 0) xin.v; let s := storeQ g.v; (⟨s.v, s.sat || g.sat || xin.sat⟩ : Acc)
    let (v, bq) := sections d st.bq q0.v q0.v q0.sat 0 d.nsec
    { v := v, p := acc 0, d := acc st.d, bq := bq, e := e.v, x := x.v }
  | .leadlag =>
    let v := ((gmul (d.gain 0) e.v).add (gmul (d.gain 1) st.xPrev)).sub (gmul (d.gain 2) st.u)
    { v := ⟨v.v, v.sat || e.sat⟩, p := acc 0, d := acc st.d, bq := st.bq, e := e.v, x := e.v }
  | .ratio =>
    let ry := storeQ (r * y)
    let v := (gmul (d.gain 0) ry.v).add (acc (nth 0 d.law16 1 * 2 ^ 15))
    { v := ⟨v.v, v.sat || ry.sat⟩, p := acc 0, d := acc st.d, bq := st.bq, e := e.v, x := x.v }
  | _ => { v := acc 0, p := acc 0, d := acc st.d, bq := st.bq, e := e.v, x := x.v }

/-- The limits and the rate limit of R94: the output, AT_LIM, RATE_LIMITED. -/
def limits (d : LoopDesc) (uPrev v16 : Int) (rate : Bool) : Int × Bool × Bool :=
  let c := clamp d.outLo d.outHi v16
  if rate && decide (d.rateLim ≠ 0) then
    let u := clamp (uPrev - d.rateLim) (uPrev + d.rateLim) c
    (u, decide (c ≠ v16), decide (u ≠ c))
  else (c, decide (c ≠ v16), false)

/-- The integrator after the output was limited (R95). -/
def integrate (d : LoopDesc) (i e u v16 : Int) : Acc :=
  let ke := gmul (d.gain 1) e
  let kt := d.gain 3
  if kt.m ≠ 0 then ((acc i).add ke).add (gmul kt (u - v16))
  else if u = v16 ∨ (u < v16 ∧ ke.v < 0) ∨ (v16 < u ∧ 0 < ke.v) then (acc i).add ke
  else acc i

/-- The integrator that makes the law's output equal `u` (R103). -/
def trackI (u : Int) (p dk : Acc) : Acc := ((sat40 (u * 2 ^ 15)).sub p).sub dk

/-- The two outputs of SPLIT (R92); SA, SB, LO_j and HI_j lie in W17, W19, W20 and W21. -/
def splitOut (d : LoopDesc) (u : Int) : Acc × Acc :=
  let one := fun (g : Gain) (s lo hi : Int) =>
    let m := gmul g (u - s)
    let q := storeQ m.v
    (⟨clamp lo hi q.v, m.sat || q.sat⟩ : Acc)
  (one (d.gain 4) (nth 0 d.law16 5) (nth 0 d.law16 8) (nth 0 d.law16h 8),
   one (d.gain 6) (nth 0 d.law16 7) (nth 0 d.law16 9) (nth 0 d.law16h 9))

/-! ### The input (R85) -/

/-- The input value from a hot value word of a kind, and whether it saturated (IN_SAT). -/
def formInput (d : LoopDesc) (k : Kind) (v : Word) : Acc :=
  match k with
  | .int32 | .count64 => satQ ((v - d.inOfs).toInt / 2 ^ d.inShift)
  | _ => acc (sext 16 v.toNat)

/-! ### Compensation tables -/

/-- The friction direction after an evaluation (R126): `true` negative. -/
def frictionDir (t : CompTab) (s : Int) (neg : Bool) : Bool :=
  if (t.dirDb : Int) < s then false else if s < -(t.dirDb : Int) then true else neg

/-- A table's output at index value `p` (R125). -/
def tabEval (t : CompTab) (p : Word) (neg : Bool) : Int :=
  let d := (p - t.idxOfs).toInt
  let span : Int := t.span
  let ph : Int := if t.type = 1 then d - span * (d / span) else clamp 0 span d
  let z0 : Nat := (ph.toNat * t.idxMul) / 2 ^ t.idxShift
  let z : Nat := if t.type = 2 then min z0 (1023 * 2 ^ 15) else if t.type = 3 then min z0 (511 * 2 ^ 15) else z0
  let f : Int := (z % 2 ^ 15 : Nat)
  let b : Nat := if t.type = 3 ∧ neg then 512 else 0
  let i : Nat := if t.type = 1 then (z / 2 ^ 15) % 1024 else b + z / 2 ^ 15
  let j : Nat := if t.type = 1 then (i + 1) % 1024 else if t.type = 2 then min (i + 1) 1023 else min (i + 1) (b + 511)
  let ti := Tab.get 0 t.entries i
  let tj := Tab.get 0 t.entries j
  ti + ((tj - ti) * f + 2 ^ 14) / 2 ^ 15

/-! ### Packing (R110, R133) -/

/-- The code of a mode (Table CE-3). -/
def LMode.code : LMode → Nat
  | .off => 0 | .manual => 1 | .auto => 2 | .cascade => 3 | .safe => 4

/-- S24[23:16] (Table CE-7). -/
def LoopState.flags (s : LoopState) : Nat :=
  b2n s.sat + 2 * b2n s.atLim + 4 * b2n s.rateLimited + 8 * b2n s.inBad + 16 * b2n s.spBad + 32 * b2n s.track +
    64 * b2n s.inSat + 128 * b2n s.trip

/-- A signed value in the low 16 bits. -/
def u16 (x : Int) : Nat := (x % 65536).toNat

/-- The two words of a 40-bit state, sign-extended to 64 bits, low word first. -/
def pair64 (x : Int) : List Word := [wordI x, wordI (x / 2 ^ 32)]

/-- The words S0–S31 of a loop's state (Tables CE-7 and CE-19). -/
def LoopState.words (s : LoopState) : List Word :=
  pair64 s.i ++ pair64 s.d ++
  [word (u16 s.xPrev), word (u16 s.u + 65536 * u16 s.u2), word (u16 s.r + 65536 * u16 s.rT), word (u16 s.man + 65536 * u16 s.v16)] ++
  ((List.range 8).flatMap fun k => pair64 (nth 0 s.bq k)) ++
  [word (s.mode.code + 256 * s.cause + 65536 * s.flags), word s.evals,
   word (u16 s.yPrev + 65536 * s.resid)] ++ pair64 s.ym ++
  [word (s.cntM + 4096 * s.cntRg + 2 ^ 17 * s.cntRt + 2 ^ 22 * s.dlyPtr),
   word (s.tripSrc + 8 * s.react + 32 * b2n s.ramping + 64 * b2n s.dirA + 128 * b2n s.dirB + 256 * b2n s.compBad + 65536 * s.rampRate),
   word (u16 s.ca + 65536 * u16 s.cb)]

/-- SIG16 (Table XNG-1): CRC-16/CCITT over the 128 bytes of the state. -/
def LoopState.sig16 (s : LoopState) : Nat := crc16 0xFFFF (s.words.flatMap wordBytes)

/-- The 64-bit vote word of a loop evaluation (Table XNG-1). -/
def loopVoteWord (s : LoopState) (outA outB : Int) : Nat :=
  u16 outA + 2 ^ 16 * u16 outB + 2 ^ 32 * s.mode.code + 2 ^ 35 * s.flags + 2 ^ 48 * s.sig16

end Sys2Proof.Machine
end

