-- ==== Sys2Proof/Machine/CeCommit.lean ====
section
/-!
DEFINITION. The control engine's commits and commands: loop descriptors with their checks and admission (R78–R82, R97, R104–R109, R117,
R127, R129, R132), compensation tables (R124–R128), mode commands (R101, R102), supervision and ramp requests (R118, R122, R131) and the
event bits (R111, R134).
-/

namespace Sys2Proof.Machine

/-! ### The descriptor -/

/-- The law of a code of Table CE-1. -/
def lawOf : Nat → Law
  | 0 => .none | 1 => .pid | 2 => .bq4 | 3 => .pidbq | 4 => .leadlag | 5 => .ratio | 6 => .split | _ => .reserved

/-- The signed low half of a word. -/
def lo16 (w : Word) : Int := sext 16 (bits w 15 0)

/-- The signed high half of a word. -/
def hi16 (w : Word) : Int := sext 16 (bits w 31 16)

/-- A gain word (R109). -/
def gainOf (w : Word) : Gain := { m := lo16 w, s := sext 5 (bits w 20 16) }

/-- A loop descriptor from its words (Tables CE-5, CE-6 and CE-14). -/
def parseLoop (w : Nat → Word) : LoopDesc :=
  { law := lawOf (bits (w 0) 2 0), rate := bits (w 0) 5 3, dom := bit (w 0) 6, reverse := bit (w 0) 7, bqIn := bit (w 0) 8,
    nsec := bits (w 0) 11 9, inPt := bits (w 1) 18 0, inShift := bits (w 1) 23 19, inOfs := w 2, outPt := bits (w 3) 18 0,
    out2Pt := bits (w 4) 18 0, spSrc := bits (w 5) 1 0, parent := bits (w 5) 11 2, spPt := bits (w 6) 18 0,
    spConst := lo16 (w 7), manInit := hi16 (w 7), child := bits (w 8) 9 0, divN := bits (w 8) 25 16,
    outLo := lo16 (w 9), outHi := hi16 (w 9), rateLim := bits (w 10) 15 0, safeVal := hi16 (w 10),
    dfilt := bits (w 11) 15 0, safeVal2 := hi16 (w 11),
    g := (List.range 24).map fun k => gainOf (w (12 + k)),
    law16 := (List.range 24).map fun k => lo16 (w (12 + k)),
    law16h := (List.range 24).map fun k => hi16 (w (12 + k)),
    rcEn := bit (w 36) 0, rtEn := bit (w 36) 1, modelEn := bit (w 36) 2, supMan := bit (w 36) 3, rampMode := bits (w 36) 5 4,
    rcReact := bits (w 36) 7 6, rtReact := bits (w 36) 9 8, mReact := bits (w 36) 11 10, tabAEn := bit (w 36) 12,
    tabBEn := bit (w 36) 13, tabA := bits (w 36) 19 16, tabB := bits (w 36) 23 20, rcLo := lo16 (w 37), rcHi := hi16 (w 37),
    rcDmax := bits (w 38) 15 0, rcPers := bits (w 38) 20 16, rtPers := bits (w 38) 28 24, km := gainOf (w 39),
    beta := bits (w 40) 15 0, mbias := hi16 (w 40), dead := bits (w 41) 10 0, mthr := bits (w 41) 31 16, mpers := bits (w 42) 11 0,
    ka := gainOf (w 43), kb := gainOf (w 44), spRamp := bits (w 45) 15 0 }

/-- The editing copy of LOOP_n (R106). -/
def loopEdit (n : Nat) : Nat := 0x21000000 + 256 * n

/-- Word `k` of the editing copy. -/
def State.loopWord (s : State) (n k : Nat) : Word := s.mem32 (loopEdit n + 4 * k)

/-- The active descriptor of a loop. -/
def State.loop (s : State) (n : Nat) : LoopDesc := Tab.get {} s.ce.desc n

/-- A loop's state as captured at the end of its last evaluation (R110). -/
def State.loopSt (s : State) (n : Nat) : LoopState := Tab.get {} s.ce.view n

/-- Whether a loop is in use (R78). -/
def State.loopUsed (s : State) (n : Nat) : Bool := decide ((s.loop n).law ≠ .none)

/-- The numbers of the loops in use. -/
def State.loopsUsed (s : State) : List Nat := (s.ce.desc.filter fun e => decide (e.2.law ≠ .none)).map (·.1)

/-- The loops that are not OFF (CE_ACTIVE). -/
def State.loopsActive (s : State) : List Nat := (s.ce.view.filter fun e => decide (e.2.mode ≠ .off)).map (·.1)

/-! ### Format checks (BAD_DESC) -/

/-- A gain word whose reserved bits are 0 and whose shift lies in −8…+15 (R108, R109). -/
def gainOk (w : Word) : Bool := decide (bits w 31 21 = 0) && decide (-8 ≤ sext 5 (bits w 20 16))

/-- The reserved bits of the descriptor are 0 (R108). -/
def loopRsvOk (w : Nat → Word) : Bool :=
  decide (bits (w 0) 31 12 = 0) && decide (bits (w 1) 31 24 = 0) && decide (bits (w 3) 31 19 = 0) && decide (bits (w 4) 31 19 = 0) &&
  decide (bits (w 5) 31 12 = 0) && decide (bits (w 6) 31 19 = 0) && decide (bits (w 8) 15 10 = 0) && decide (bits (w 8) 31 26 = 0) &&
  decide (bits (w 36) 15 14 = 0) && decide (bits (w 36) 31 24 = 0) && decide (bits (w 38) 23 21 = 0) && decide (bits (w 38) 31 29 = 0) &&
  decide (bits (w 41) 15 11 = 0) && decide (bits (w 42) 31 12 = 0) && decide (bits (w 45) 31 16 = 0) &&
  ((List.range 17).all fun k => decide (w (46 + k) = 0)) && decide (bits (w 63) 29 0 = 0)

/-- What a law uses of W12–W35 (Table CE-6): `none` for unused, `some none` for a gain word, `some (some m)` for a field word whose bits
of `m` are unused. -/
def lawWord (d : LoopDesc) (k : Nat) : Option (Option Nat) :=
  let sec := decide (16 ≤ k) && decide (k < 16 + 5 * d.nsec)
  match d.law with
  | .pid => if k ≤ 15 then some none else none
  | .bq4 => if k = 12 ∨ sec then some none else none
  | .pidbq => if k ≤ 15 ∨ sec then some none else none
  | .leadlag => if k ≤ 14 then some none else none
  | .ratio => if k = 12 then some none else if k = 13 then some (some 0xFFFF0000) else none
  | .split =>
    if k ≤ 16 ∨ k = 18 then some none
    else if k = 17 ∨ k = 19 then some (some 0xFFFF0000)
    else if k = 20 ∨ k = 21 then some (some 0) else none
  | _ => none

/-- The law area: gains in range, unused words 0, LO ≤ HI of SPLIT. Table CE-6 has no column for NONE, which marks nothing unused. -/
def lawAreaOk (d : LoopDesc) (w : Nat → Word) : Bool :=
  (decide (d.law = .none) || (List.range 24).all fun j =>
    match lawWord d (12 + j) with
    | none => decide (w (12 + j) = 0)
    | some none => gainOk (w (12 + j))
    | some (some m) => decide (w (12 + j) &&& word m = 0)) &&
  (decide (d.law ≠ .split) || (decide (lo16 (w 20) ≤ hi16 (w 20)) && decide (lo16 (w 21) ≤ hi16 (w 21))))

/-- NSEC as the law allows. -/
def nsecOk (d : LoopDesc) : Bool :=
  match d.law with
  | .bq4 => decide (1 ≤ d.nsec) && decide (d.nsec ≤ 4)
  | .pidbq => decide (1 ≤ d.nsec) && decide (d.nsec ≤ 2)
  | _ => decide (d.nsec = 0)

/-- The supervision area (R127, R129, R132). -/
def supAreaOk (d : LoopDesc) (w : Nat → Word) : Bool :=
  decide (d.rampMode ≠ 3) && (decide (d.rampMode = 0) || decide (d.spRamp ≠ 0)) &&
  (if d.rcEn then decide (d.rcPers ≠ 0) && decide (d.rcLo ≤ d.rcHi)
   else decide (w 37 = 0) && decide (d.rcPers = 0) && decide (d.rcReact = 0)) &&
  (if d.rtEn then decide (d.rtPers ≠ 0) else decide (d.rcDmax = 0) && decide (d.rtPers = 0) && decide (d.rtReact = 0)) &&
  (if d.modelEn then decide (1 ≤ d.beta) && decide (d.beta ≤ 32767) && decide (1 ≤ d.dead) && decide (d.dead ≤ 1024) &&
      decide (1 ≤ d.mpers) && gainOk (w 39)
   else decide (w 39 = 0) && decide (w 40 = 0) && decide (w 41 = 0) && decide (w 42 = 0) && decide (d.mReact = 0)) &&
  (if d.tabAEn then gainOk (w 43) else decide (d.tabA = 0) && decide (w 43 = 0)) &&
  (if d.tabBEn then gainOk (w 44) else decide (d.tabB = 0) && decide (w 44 = 0)) &&
  !(d.tabAEn && d.tabBEn && decide (d.tabA = d.tabB))

/-- The fields of a descriptor: ranges, and 0 where the configuration does not use them (R108). `wide` says that the input
point is INT32 or COUNT64. -/
def loopFieldsOk (d : LoopDesc) (w : Nat → Word) (wide : Bool) : Bool :=
  decide (d.rate ≤ 5) && decide (d.spSrc ≠ 3) && nsecOk d && decide (d.outLo ≤ d.outHi) && decide (d.dfilt ≤ 32767) &&
  (if d.rate = 5 then decide (2 ≤ d.divN) && decide (d.divN ≤ 1000) else decide (d.child = 0) && decide (d.divN = 0)) &&
  (if wide then decide (d.inShift ≤ 16) else decide (d.inShift = 0) && decide (d.inOfs = 0)) &&
  (decide (d.law = .split) || (decide (d.out2Pt = 0) && decide (d.safeVal2 = 0))) &&
  (decide (d.spSrc = 1) || decide (d.spPt = 0)) && (decide (d.spSrc ≠ 1) || decide (d.spConst = 0)) &&
  (decide (d.spSrc = 2) || decide (d.parent = 0)) &&
  (hasPid d.law || (!d.dom && decide (d.dfilt = 0))) && (decide (d.law = .bq4) || !d.bqIn) &&
  !(d.reverse && (decide (d.law = .ratio) || (decide (d.law = .bq4) && d.bqIn))) &&
  lawAreaOk d w && supAreaOk d w

/-! ### Admission (R80–R82, R117) -/

/-- The evaluation units of a loop (Table CE-2). -/
def loopCost (d : LoopDesc) : Nat :=
  (match d.law with
   | .pid => 4 | .bq4 => 1 + d.nsec | .pidbq => 4 + d.nsec | .leadlag => 2 | .ratio => 1 | .split => 5 | _ => 0) +
  2 * b2n d.modelEn + b2n d.tabAEn + b2n d.tabBEn

/-- The base frames of a rate class (Table RT-1). -/
def rateFrames : Nat → Nat
  | 0 => 1 | 1 => 10 | 2 => 100 | 3 => 1000 | _ => 10000

/-- The period of a loop in base frames: its class, or N times its child's (R78). The chain has at most four loops. -/
def loopPeriod (get : Nat → LoopDesc) : Nat → LoopDesc → Nat
  | 0, d => rateFrames d.rate
  | k + 1, d => if d.rate = 5 then d.divN * loopPeriod get k (get d.child) else rateFrames d.rate

/-- The base frames that an admitted loop counts in: those of its class, or of an outer loop every period of its child (R82). -/
def framePeriod (get : Nat → LoopDesc) (d : LoopDesc) : Nat := if d.rate = 5 then loopPeriod get 4 (get d.child) else rateFrames d.rate

/-- How many loops a chain holds from a loop downwards. -/
def chainDown (get : Nat → LoopDesc) : Nat → LoopDesc → Nat
  | 0, _ => 1
  | k + 1, d => if d.rate = 5 then 1 + chainDown get k (get d.child) else 1

/-- How many loops a chain holds above a loop: outers in use that name it as CHILD. -/
def chainUp (desc : Tab LoopDesc) : Nat → Nat → Nat
  | 0, _ => 0
  | k + 1, n =>
    match desc.find? (fun e => decide (e.2.law ≠ .none) && decide (e.2.rate = 5) && decide (e.2.child = n)) with
    | some e => 1 + chainUp desc k e.1
    | none => 0

/-- A placed loop: frame phase, period of its frames, first slot and units. An outer whose child is itself an outer takes the frame phase of the
innermost loop: which of the child's frames comes first is known only when the loops run (DESIGN CHOICE, log 103). -/
structure Placed where
  phase : Nat
  period : Nat
  slot : Nat
  units : Nat
deriving DecidableEq, Repr

/-- Every loop in use except `n`, as placed. -/
def State.placed (s : State) (n : Nat) : List Placed :=
  (s.loopsUsed.filter fun k => decide (k ≠ n)).map fun k =>
    let p := Tab.get {} s.ce.place k
    { phase := p.phase, period := framePeriod s.loop (s.loop k), slot := p.slot, units := loopCost (s.loop k) }

/-- Whether two placements share base frames: their phases agree modulo what their periods have in common. -/
def framesMeet (f per g per' : Nat) : Bool := decide (f % Nat.gcd per per' = g % Nat.gcd per per')

/-- Whether a slot is taken in some base frame of phase `f` and period `per` (R80 step 1). -/
def slotTaken (ps : List Placed) (f per k : Nat) : Bool :=
  ps.any fun p => framesMeet f per p.phase p.period && decide (p.slot ≤ k) && decide (k < p.slot + p.units)

/-- The number of slots taken. -/
def slotsTaken (ps : List Placed) (f per : Nat) : Nat := ((List.range 100).filter (slotTaken ps f per)).length

/-- The lowest run of `c` free slots from slot `k0` on that begins at a slot allowed by `ok`. -/
def freeRun (ps : List Placed) (f per c k0 : Nat) (ok : Nat → Bool) : Option Nat :=
  (List.range 100).find? fun k =>
    decide (k0 ≤ k) && decide (k + c ≤ 100) && ok k && (List.range c).all fun j => !slotTaken ps f per (k + j)

/-- The phase and slot of a loop of a rate class: phases by occupancy, fewest first, then by number (R80). -/
def placeLoop (ps : List Placed) (per c : Nat) (ok : Nat → Nat → Bool) : Option (Nat × Nat) :=
  (List.range 101).findSome? fun o =>
    (List.range per).findSome? fun f =>
      if slotsTaken ps f per = o then (freeRun ps f per c 0 (ok f)).map fun k => (f, k) else none

/-- Whether a loop may begin in frame phase `f` at slot `k` for its input (R80 step 3, R303, R338): after the grid conversion of a class A
analog input, or with the publication instant that other loops on the same class A Avenue point fixed. -/
def State.alignOk (s : State) (n : Nat) (d : LoopDesc) (per f k : Nat) : Bool :=
  let e := s.point d.inPt
  if e.cls = .a ∧ e.srcType = .fioAi then
    decide (4 * k % 200 = (bits (s.reg R.FIO_AI_PHASE) 7 0 + 128) % 200)
  else if e.cls = .a ∧ e.srcType = .ave then
    (s.loopsUsed.filter fun m => decide (m ≠ n) && decide ((s.loop m).inPt = d.inPt)).all fun m =>
      let p := Tab.get {} s.ce.place m
      decide (p.slot = k) && framesMeet f per p.phase (framePeriod s.loop (s.loop m))
  else true

/-- A sum of fractions. -/
def fracSum (fs : List (Nat × Nat)) : Nat × Nat := fs.foldl (fun a b => (a.1 * b.2 + b.1 * a.2, a.2 * b.2)) (0, 1)

/-- The load of a set of loops in units per second (R82 step 3) as a fraction. -/
def loadOf (desc : Tab LoopDesc) : Nat × Nat :=
  fracSum ((desc.filter fun e => decide (e.2.law ≠ .none)).map fun e =>
    (loopCost e.2 * 1000000, loopPeriod (fun k => Tab.get {} desc k) 4 e.2))

/-- CE_LOAD (Table CE-8): thousands of units per second, rounded up. -/
def State.ceLoad (s : State) : Nat := let (n, m) := loadOf s.ce.desc; (n + m * 1000 - 1) / (m * 1000)

/-- The delay runs that loops other than `n` hold. -/
def State.delayRuns (s : State) (n : Nat) : List (Nat × Nat) :=
  (s.loopsUsed.filter fun k => decide (k ≠ n) && (s.loop k).modelEn).map fun k => ((Tab.get {} s.ce.place k).dlyBase, (s.loop k).dead)

/-- The lowest-numbered free run of `len` entries of the delay pool (R117): it begins at 0 or where another run ends. -/
def delayRun (runs : List (Nat × Nat)) (len : Nat) : Option Nat :=
  let starts := (0 :: runs.map fun r => r.1 + r.2).filter fun b =>
    decide (b + len ≤ 65536) && runs.all fun r => decide (b + len ≤ r.1) || decide (r.1 + r.2 ≤ b)
  match starts with
  | [] => none
  | b :: t => some (t.foldl min b)

/-! ### The commit check (R97, R104, R107, R108, R500) -/

/-- CE error codes (Tables CE-10 and CE-21). -/
def errAdmitUnits : Nat := 0x20
def errAdmitFrame : Nat := 0x21
def errAdmit1MHz : Nat := 0x22
def errNotHot : Nat := 0x23
def errLoopRunning : Nat := 0x24
def errCascLink : Nat := 0x25
def errBadDesc : Nat := 0x26
def errRateDegraded : Nat := 0x27
def errModeRefused : Nat := 0x28
def errPointKind : Nat := 0x29
def errOutClaimed : Nat := 0x2A
def errAdmitDelay : Nat := 0x2B
def errTabNone : Nat := 0x2C
def errTabInUse : Nat := 0x2D
def errBadTable : Nat := 0x2E
def errTripLatched : Nat := 0x2F
def errRampRefused : Nat := 0x30
def errDlyUe : Nat := 0x31

/-- The structural fields of a descriptor (R107, R117). -/
def structural (d : LoopDesc) : List Nat :=
  [(match d.law with | .none => 0 | .pid => 1 | .bq4 => 2 | .pidbq => 3 | .leadlag => 4 | .ratio => 5 | .split => 6 | .reserved => 7),
   d.rate, b2n d.bqIn, d.nsec, d.inPt, d.outPt, d.out2Pt, d.spSrc, d.parent, d.child, d.divN, b2n d.modelEn, d.dead, b2n d.tabAEn,
   b2n d.tabBEn, d.tabA, d.tabB]

/-- Whether a point exists and is hot-bound. -/
def State.isHot (s : State) (idx : Nat) : Bool := decide ((s.dirEntry idx).kind ≠ .none) && (s.dirEntry idx).hot

/-- The output points of a descriptor. -/
def LoopDesc.outs (d : LoopDesc) : List Nat := d.outPt :: (if d.law = .split then [d.out2Pt] else [])

/-- The set-point point, where one is used. -/
def LoopDesc.sps (d : LoopDesc) : List Nat := if d.spSrc = 1 then [d.spPt] else []

/-- Q15 or INT16. -/
def q15Kind (k : Kind) : Bool := decide (k = .q15) || decide (k = .int16)

/-- The kinds that R85 takes as input. -/
def inKind (k : Kind) : Bool := q15Kind k || decide (k = .int32) || decide (k = .count64)

/-- A binding that a loop may drive: a bound endpoint with OUTPUT = 1, or INTERNAL of class A (R108). -/
def outBinding (e : DirEntry) : Bool :=
  if e.srcType = .internal then decide (e.cls = .a) else e.output

/-- Whether an INTERNAL point of class A is claimed by a committed descriptor other than `desc` of block `b` (R62). -/
def State.claimed (s : State) (b : Block) (desc idx : Nat) : Bool :=
  decide ((s.dirEntry idx).srcType = .internal) && decide ((s.dirEntry idx).cls = .a) &&
    s.ptd.refs.any fun r => r.claim && decide (r.idx = idx) && !(decide (r.blk = b) && decide (r.desc = desc))

/-- Replace what a committed descriptor holds of points. -/
def State.setRefs (s : State) (b : Block) (desc : Nat) (rs : List (Nat × Bool)) : State :=
  { s with ptd := { s.ptd with refs :=
      (s.ptd.refs.filter fun r => !(decide (r.blk = b) && decide (r.desc = desc))) ++
        (rs.map fun r => { blk := b, desc := desc, idx := r.1, claim := r.2 }) } }

/-- An outer in use that names loop `n` as CHILD. -/
def State.outerOf (s : State) (n : Nat) : Option Nat :=
  (s.loopsUsed.filter fun k => decide ((s.loop k).rate = 5) && decide ((s.loop k).child = n)).head?

/-- The cascade link of a new outer (R97). -/
def State.linkBad (s : State) (n : Nat) (d : LoopDesc) : Bool :=
  if d.rate = 5 then
    let c := s.loop d.child
    !(decide (d.child ≠ n) && decide (c.law ≠ .none) && decide (c.spSrc = 2) && decide (c.parent = n)) ||
      decide (4 < chainDown s.loop 4 d + chainUp s.ce.desc 4 n) ||
      (match s.outerOf d.child with | some k => decide (k ≠ n) | none => false)
  else false

/-- The checks of groups 1 to 3 of R500 for a loop commit, in each group in the order of chapters 04 and 05 (R97, R107, R108, R127): 0, or the
code of the first that fails. -/
def State.loopCheck (s : State) (n : Nat) (d : LoopDesc) (w : Nat → Word) : Nat :=
  let old := s.loop n
  let changed := decide (structural old ≠ structural d)
  let e := s.dirEntry d.inPt
  let wide := decide (e.kind = .int32) || decide (e.kind = .count64)
  let used := decide (d.law ≠ .none)
  if d.law = .reserved ∨ !loopRsvOk w ∨ !loopFieldsOk d w wide then errBadDesc
  else if used && s.linkBad n d then errCascLink
  else if used && !((d.inPt :: d.outs ++ d.sps).all s.isHot) then errNotHot
  else if used && !(inKind e.kind && (d.outs ++ d.sps).all (fun p => q15Kind (s.dirEntry p).kind) &&
      d.outs.all (fun p => outBinding (s.dirEntry p))) then errPointKind
  else if used && ((d.tabAEn && decide ((Tab.get {} s.ce.tabs d.tabA).type = 0)) ||
      (d.tabBEn && decide ((Tab.get {} s.ce.tabs d.tabB).type = 0))) then errTabNone
  else if changed ∧ (s.outerOf n).isSome then errCascLink
  else if changed ∧ (s.loopSt n).mode ≠ .off then errLoopRunning
  else if used && d.outs.any (s.claimed .ce n) then errOutClaimed
  else 0

/-- Admission and placement (R80, R82, R104, R117): a refusal, or where the loop lies. A commit that changes neither cost, rate nor
structure keeps the placement. -/
def State.loopAdmit (s : State) (n : Nat) (d : LoopDesc) : Nat × LoopPlace :=
  let old := s.loop n
  if d.law = .none then (0, {})
  else if structural old = structural d then (0, Tab.get {} s.ce.place n)
  else
    let per := framePeriod s.loop d
    let c := loopCost d
    let ps := s.placed n
    let fast := (s.loopsUsed.filter fun k => decide (k ≠ n) && decide ((s.loop k).rate = 0)).length + (if d.rate = 0 then 1 else 0)
    let cp := Tab.get {} s.ce.place d.child
    let spot := if d.rate = 5 then
        (freeRun ps cp.phase per c (cp.slot + loopCost (s.loop d.child)) (s.alignOk n d per cp.phase)).map fun k => (cp.phase, k)
      else placeLoop ps per c (s.alignOk n d per)
    let (num, den) := loadOf (Tab.put {} s.ce.desc n d)
    if 16 < fast then (errAdmit1MHz, {})
    else
      match spot with
      | none => (errAdmitFrame, {})
      | some (f, k) =>
        if 90000000 * den < num then (errAdmitUnits, {})
        else if s.clk.timeDeg ∧ loopPeriod s.loop 4 d < 100 then (errRateDegraded, {})
        else if d.modelEn then
          match delayRun (s.delayRuns n) d.dead with
          | none => (errAdmitDelay, {})
          | some b => (0, { phase := f, slot := k, dlyBase := b })
        else (0, { phase := f, slot := k, dlyBase := 0 })

/-! ### Events of a loop -/

/-- Set a loop's bit of CE_EVT together with block bit `b` of BLK_IRQ_RAW (R111). -/
def State.loopEvt (s : State) (n b : Nat) : State :=
  (({ s with ce := { s.ce with evt := Tab.upd 0 s.ce.evt (n / 32) fun w => setBit w (n % 32) } }).irq .ce b).routeEvt .ce 0 n

/-- Change what waits for a loop's next evaluation. -/
def State.updPend (s : State) (n : Nat) (f : LoopPend → LoopPend) : State :=
  { s with ce := { s.ce with pend := Tab.upd {} s.ce.pend n f } }

/-! ### Loop commits -/

/-- Clear COMMIT and PEND of an editing copy's last word. -/
def State.clearCommit (s : State) (a : Nat) : State := s.store32 a (clrBit (clrBit (s.mem32 a) 31) 30)

/-- A refused loop commit is reported: CE_LOOP_STAT, BLK_ERR, DESC_REFUSED, LOOP_DONE and the loop's event bit (R106, R111, R112). -/
def State.loopRefuse (s : State) (n e : Nat) : State :=
  let s1 := { s with ce := { s.ce with goBusy := none, goResult := e, goLoop := n } }
  ((s1.err .ce e).record .ce 0 0x0912 [n, errWord .ce e]).loopEvt n 8

/-- CE_LOOP_GO (R106, R40): the commit starts; a GO while one runs is discarded. -/
def execCeLoopGo (p : Principal) (n : Fin 1024) (s : State) : Out :=
  .next (s.gated .ce 0x100 .wo p (word n.val) fun s =>
    match s.ce.goBusy with
    | some _ => s.err .ce errCommitBusy
    | none =>
      if bit (s.loopWord n.val 63) 31 then
        { (s.store32 (loopEdit n.val + 252) (setBit (s.loopWord n.val 63) 30)) with ce := { s.ce with goBusy := some n.val } }
      else s.loopRefuse n.val errCommitRefused)

/-- The points that a descriptor holds, with its claims (R62, R63). -/
def loopRefs (d : LoopDesc) : List (Nat × Bool) :=
  if d.law = .none then [] else (d.inPt, false) :: ((d.outs.map fun p => (p, true)) ++ (d.sps.map fun p => (p, false)))

/-- Write to all three lanes' copies of the configuration (R106, R128). -/
def State.updCfgs (s : State) (f : LaneCfg → LaneCfg) : State :=
  { s with ce := { s.ce with laneCfg := (List.range 3).foldl (fun t l => Tab.upd {} t l f) s.ce.laneCfg } }

/-- A descriptor is written into a lane's copy, which ends an error there. -/
def LaneCfg.putDesc (c : LaneCfg) (n : Nat) (d : LoopDesc) : LaneCfg :=
  { c with desc := Tab.put {} c.desc n d, badDesc := c.badDesc.filter fun k => decide (k ≠ n) }

/-- The delay line starts anew: its write position is 0 in every lane (R117, R118). -/
def State.restartDelay (s : State) (n : Nat) : State :=
  let f := fun (v : LoopState) => { v with dlyPtr := 0 }
  { s with ce := { s.ce with view := Tab.upd {} s.ce.view n f,
                             lanes := (List.range 3).foldl (fun t l => Tab.upd [] t l fun m => Tab.upd {} m n f) s.ce.lanes } }

/-- A command that waits for a slot that leaves use has become illegal (R102). -/
def State.dropPend (s : State) (n : Nat) : State :=
  let p := Tab.get {} s.ce.pend n
  let s1 := { s with ce := { s.ce with pend := Tab.put {} s.ce.pend n {} } }
  if p.cmd.isSome then s1.err .ce errModeRefused else s1

/-- A descriptor is copied to the lanes and its safe values to the safe table (R106, R147). A structural change starts the cascade count
anew (R98), the local target at SP_CONST (R101) and the delay line (R117). -/
def State.loopApply (s : State) (n : Nat) (d : LoopDesc) (pl : LoopPlace) : State :=
  let changed := decide (structural (s.loop n) ≠ structural d)
  let kept := if d.law = .none then {} else d
  let row : Option SafeRow := if d.law = .none then none else
    some { outPt := d.outPt, out2Pt := if d.law = .split then some d.out2Pt else none, val := d.safeVal, val2 := d.safeVal2 }
  let ce1 := { s.ce with desc := Tab.put {} s.ce.desc n kept, place := Tab.put {} s.ce.place n pl,
                         goBusy := none, goResult := 0, goLoop := n }
  let ce2 := if changed then
      { ce1 with localT := Tab.put none ce1.localT n none, childT := Tab.put none ce1.childT n none,
                 linkCnt := Tab.put 0 ce1.linkCnt n 0 }
    else ce1
  let s1 := ({ s with ce := ce2, xng := { s.xng with safe := Tab.put none s.xng.safe n row } }).updCfgs fun c => c.putDesc n kept
  let s2 := if changed then s1.restartDelay n else s1
  (if d.law = .none then s2.dropPend n else s2).setRefs .ce n (loopRefs d)

/-- LOOP_COMMIT_DONE (R106): the check and admission of the descriptor in progress end. -/
def execLoopCommitDone (s : State) : Out :=
  .next (
    match s.ce.goBusy with
    | none => s
    | some n =>
      let w := s.loopWord n
      let w' := fun k => if k = 63 then clrBit (clrBit (w 63) 31) 30 else w k
      let d := parseLoop w'
      let r := s.loopCheck n d w'
      let (a, pl) := s.loopAdmit n d
      let s1 := s.clearCommit (loopEdit n + 252)
      if r ≠ 0 then s1.loopRefuse n r
      else if a ≠ 0 then s1.loopRefuse n a
      else
        let s2 := s1.loopApply n d pl
        (s2.record .ce 0 0x0911 [n, s2.ceLoad]).loopEvt n 8)

/-! ### Mode commands (R101, R102) -/

/-- Whether the Crossing votes so that loops may leave OFF (R146, R155). -/
def State.voting (s : State) : Bool := decide (s.xng.mode ≠ .none)

/-- Whether the parent of a loop is in use with this loop as CHILD (Table CE-4). -/
def State.linkOk (s : State) (n : Nat) : Bool :=
  let d := s.loop n
  let p := s.loop d.parent
  decide (d.spSrc = 2) && decide (p.law ≠ .none) && decide (p.rate = 5) && decide (p.child = n)

/-- The result of a mode command when it is accepted or refused (R101, R102, R122, R146, R155). `none` is KEEP. The latch refuses AUTO and CASCADE
before every other check. A slot not in use has no transition of Table CE-4, so its command is refused with MODE_REFUSED (DESIGN CHOICE,
log 103). -/
def State.modeCheck (s : State) (n : Nat) (m : Option LMode) : Nat :=
  let st := s.loopSt n
  if !s.loopUsed n then errModeRefused
  else if m = some .off then 0
  else if st.tripSrc ≠ 0 ∧ 2 ≤ st.react ∧ (m = some .auto ∨ m = some .cascade) then errTripLatched
  else if !s.voting then errModeRefused
  else
    match m with
    | none => 0
    | some c =>
      if c = st.mode then 0
      else if st.mode = .safe ∧ (c = .auto ∨ c = .cascade) then errModeRefused
      else if c = .cascade ∧ !s.linkOk n then errCascLink
      else 0

/-- A mode command from any of its sources (R102): checked, and placed for the loop's next evaluation. A CASCADE without its link records
MODE_REFUSED and reports CASC_LINK (Table CE-4). A manual value stays for the next evaluation when a later command replaces the one it
came with (DESIGN CHOICE, log 103). -/
def State.modeCmd (s : State) (n : Nat) (m : Option LMode) (man : Option Int) (cause : Nat) : State :=
  let r := s.modeCheck n m
  let s1 := { s with ce := { s.ce with modeLoop := n, modeResult := r } }
  if r ≠ 0 then s1.err .ce (if r = errCascLink then errModeRefused else r)
  else s1.updPend n fun q => { q with cmd := some { mode := m, cause := cause }, man := match man with | some v => some v | none => q.man }

/-- The mode field of CE_MODE_CMD (Table CE-3). -/
def modeField : Option LMode → Nat
  | none => 7
  | some m => m.code

/-- A write of CE_MODE_CMD. -/
def State.modeWrite (s : State) (p : Principal) (n : Nat) (m : Option LMode) (man : Option (BitVec 16)) : State :=
  let v := n + 4096 * modeField m + 32768 * b2n man.isSome + 65536 * (match man with | some x => x.toNat | none => 0)
  s.gated .ce 0x108 .wo p (word v) fun s => s.modeCmd n m (man.map fun x => x.toInt) 0

/-- LOOP_CMD_OFF (R102). -/
def execLoopCmdOff (p : Principal) (n : Fin 1024) (s : State) : Out := .next (s.modeWrite p n.val (some .off) none)

/-- LOOP_CMD_MANUAL (R102). -/
def execLoopCmdManual (p : Principal) (n : Fin 1024) (s : State) : Out := .next (s.modeWrite p n.val (some .manual) none)

/-- LOOP_CMD_AUTO (R102). -/
def execLoopCmdAuto (p : Principal) (n : Fin 1024) (s : State) : Out := .next (s.modeWrite p n.val (some .auto) none)

/-- LOOP_CMD_CASCADE (R102). -/
def execLoopCmdCascade (p : Principal) (n : Fin 1024) (s : State) : Out := .next (s.modeWrite p n.val (some .cascade) none)

/-- LOOP_CMD_SAFE (R102). -/
def execLoopCmdSafe (p : Principal) (n : Fin 1024) (s : State) : Out := .next (s.modeWrite p n.val (some .safe) none)

/-- LOOP_CMD_KEEP (R101). -/
def execLoopCmdKeep (p : Principal) (n : Fin 1024) (s : State) : Out := .next (s.modeWrite p n.val none none)

/-- LOOP_SET_MAN (R102, Table CE-8): a write of CE_MODE_CMD with SET_MAN = 1 and any mode. -/
def execLoopSetMan (p : Principal) (n : Fin 1024) (m : Option LMode) (man : BitVec 16) (s : State) : Out :=
  .next (s.modeWrite p n.val m (some man))

/-- CE_EVT_CLEAR (R111). -/
def execCeEvtClear (p : Principal) (i : Fin 32) (m : Word) (s : State) : Out :=
  .next (s.gated .ce (0x200 + 4 * i.val) .w1c p m fun s =>
    { s with ce := { s.ce with evt := Tab.upd 0 s.ce.evt i.val fun w => w1c w m } })

/-! ### Supervision and ramp requests -/

/-- A write of CE_SUP_CMD (R118, R122). ACK of a clear latch, and either command for a loop not in use, has no effect. -/
def State.supCmd (s : State) (n : Nat) (ack align : Bool) : State :=
  let s1 := { s with ce := { s.ce with supLoop := n, supResult := 0 } }
  if !s.loopUsed n then s1
  else s1.updPend n fun q =>
    { q with ack := q.ack || (ack && decide ((s.loopSt n).tripSrc ≠ 0)), align := q.align || align }

/-- SUP_ACK (R122); `align` is the write's ALIGN bit. -/
def execSupAck (p : Principal) (n : Fin 1024) (align : Bool) (s : State) : Out :=
  .next (s.gated .ce 0x300 .wo p (word (n.val + 65536 + 131072 * b2n align)) fun s => s.supCmd n.val true align)

/-- SUP_ALIGN (R118). -/
def execSupAlign (p : Principal) (n : Fin 1024) (s : State) : Out :=
  .next (s.gated .ce 0x300 .wo p (word (n.val + 131072)) fun s => s.supCmd n.val false true)

/-- A ramp request from any of its sources (R131). -/
def State.rampCmd (s : State) (n rate : Nat) : State :=
  let r := if (s.loopSt n).mode ≠ .auto ∨ (rate = 0 ∧ (s.loop n).spRamp = 0) then errRampRefused else 0
  let s1 := { s with ce := { s.ce with supLoop := n, supResult := r } }
  if r ≠ 0 then s1.err .ce r else s1.updPend n fun q => { q with ramp := some rate }

/-- CE_RAMP_CMD (R131). -/
def execCeRampCmd (p : Principal) (n : Fin 1024) (rate : BitVec 16) (s : State) : Out :=
  .next (s.gated .ce 0x308 .wo p (word (n.val + 65536 * rate.toNat)) fun s => s.rampCmd n.val rate.toNat)

/-- CE_TRIP_CLEAR (R134). -/
def execCeTripClear (p : Principal) (i : Fin 32) (m : Word) (s : State) : Out :=
  .next (s.gated .ce (0x380 + 4 * i.val) .w1c p m fun s =>
    { s with ce := { s.ce with trip := Tab.upd 0 s.ce.trip i.val fun w => w1c w m } })

/-! ### Compensation tables (R124–R128) -/

/-- Word H_k of a table's editing header. -/
def State.tabHdr (s : State) (t k : Nat) : Word := s.regAt R.CE_TAB_HDR (32 * t + 4 * k)

/-- Set word H_k. -/
def State.setTabHdr (s : State) (t k : Nat) (w : Word) : State := s.setReg ⟨.ce, 0x400 + 32 * t + 4 * k⟩ w

/-- The entries of a table's editing copy: two in a word, the even one low. -/
def State.tabEntries (s : State) (t : Nat) : Tab Int :=
  (List.range 512).foldl (fun e k =>
    let w := s.regAt R.CE_TAB_DATA (2048 * t + 4 * k)
    Tab.put 0 (Tab.put 0 e (2 * k) (lo16 w)) (2 * k + 1) (hi16 w)) []

/-- A table from its editing copies (Table CE-17). -/
def State.parseTab (s : State) (t : Nat) : CompTab :=
  let h := s.tabHdr t
  { type := bits (h 0) 1 0, dirSel := bit (h 0) 2, idxShift := bits (h 0) 13 8, idxPt := bits (h 1) 18 0, idxOfs := h 2,
    span := (h 3).toNat, idxMul := (h 4).toNat, dirDb := bits (h 5) 15 0, dirPt := bits (h 6) 18 0, entries := s.tabEntries t }

/-- The loops in use that reference a table. -/
def State.tabUsers (s : State) (t : Nat) : List Nat :=
  s.loopsUsed.filter fun k => ((s.loop k).tabAEn && decide ((s.loop k).tabA = t)) || ((s.loop k).tabBEn && decide ((s.loop k).tabB = t))

/-- The check of a table commit (R128, R500). -/
def State.tabCheck (s : State) (t : Nat) (c : CompTab) : Nat :=
  let h := s.tabHdr t
  if c.span = 0 ∨ 2 ^ 31 < c.span ∨ 47 < c.idxShift ∨ bits (h 0) 7 3 ≠ 0 ∨ bits (h 0) 31 14 ≠ 0 ∨ bits (h 1) 31 19 ≠ 0 ∨
      bits (h 5) 31 16 ≠ 0 ∨ bits (h 6) 31 19 ≠ 0 ∨ bits (h 7) 29 0 ≠ 0 then errBadTable
  else if !s.isHot c.idxPt ∨ (c.dirSel ∧ !s.isHot c.dirPt) then errNotHot
  else if (s.dirEntry c.idxPt).kind = .bit then errPointKind
  else if c.type = 0 ∧ s.tabUsers t ≠ [] then errTabInUse
  else 0

/-- A refused table commit is reported (R128). -/
def State.tabRefuse (s : State) (t e : Nat) : State :=
  let s1 := { s with ce := { s.ce with tabBusy := none, tabResult := e, tabLast := t } }
  ((s1.err .ce e).record .ce 0 0x0923 [t, errWord .ce e]).irq .ce 12

/-- CE_TAB_GO (R128). -/
def execCeTabGo (p : Principal) (t : Fin 16) (s : State) : Out :=
  .next (s.gated .ce 0x320 .wo p (word t.val) fun s =>
    match s.ce.tabBusy with
    | some _ => s.err .ce errCommitBusy
    | none =>
      if bit (s.tabHdr t.val 7) 31 then
        let s1 := s.setTabHdr t.val 7 (setBit (s.tabHdr t.val 7) 30)
        { s1 with ce := { s1.ce with tabBusy := some t.val } }
      else s.tabRefuse t.val errCommitRefused)

/-- Clear COMMIT and PEND of a header. -/
def State.tabUnpend (s : State) (t : Nat) : State := s.setTabHdr t 7 (clrBit (clrBit (s.tabHdr t 7) 31) 30)

/-- A table is copied into a lane's standby bank. -/
def LaneCfg.putTab (c : LaneCfg) (t : Nat) (x : CompTab) : LaneCfg := { c with standby := Tab.put {} c.standby t x }

/-- A lane switches the banks of a table. -/
def LaneCfg.switchTab (c : LaneCfg) (t : Nat) : LaneCfg :=
  { c with tabs := Tab.put {} c.tabs t (Tab.get {} c.standby t), standby := Tab.put {} c.standby t (Tab.get {} c.tabs t),
           badTab := c.badTab.filter fun k => decide (k ≠ t) }

/-- TAB_COPY_DONE (R128): the check ends; a good table waits in the standby banks for the next base-frame boundary. -/
def execTabCopyDone (s : State) : Out :=
  .next (
    match s.ce.tabBusy with
    | none => s
    | some t =>
      let s1 := s.tabUnpend t
      let c := s1.parseTab t
      let r := s1.tabCheck t c
      if r ≠ 0 then s1.tabRefuse t r
      else { s with ce := { s.ce with tabNext := Tab.put none s.ce.tabNext t (some c) } }.updCfgs fun x => x.putTab t c)

/-- The points that a table holds. -/
def tabRefs (c : CompTab) : List (Nat × Bool) :=
  if c.type = 0 then [] else (c.idxPt, false) :: (if c.dirSel then [(c.dirPt, false)] else [])

/-- The bank switch of one table in every lane at a base-frame boundary (R128). -/
def State.tabSwitch (s : State) (t : Nat) (c : CompTab) : State :=
  let s1 := ((s.tabUnpend t).setRefs .ce (0x10000 + t) (tabRefs c)).updCfgs fun x => x.switchTab t
  let s2 := { s1 with ce := { s1.ce with tabs := Tab.put {} s1.ce.tabs t c, tabBusy := none, tabResult := 0, tabLast := t } }
  (s2.record .ce 0 0x0922 [t, (s2.tabUsers t).length]).irq .ce 12

/-- Every table that waits switches at the boundary. -/
def State.tabBoundary (s : State) : State :=
  let s1 := { s with ce := { s.ce with tabNext := [] } }
  s.ce.tabNext.foldl (fun s p => match p.2 with | some c => s.tabSwitch p.1 c | none => s) s1

end Sys2Proof.Machine
end

