-- ==== Sys2Proof/Machine/FioOps.lean ====
section
/-!
DEFINITION. The outputs of the field die: what drives a universal output (R298, Table FIO-3) and an analog output (R306), and the commands
that reach them.
-/

namespace Sys2Proof.Machine

/-- The FIO error codes of Table FIO-6. -/
def errChInUse : Nat := 0x20
def errLinkDown : Nat := 0x21
def errAiInUse : Nat := 0x22
def errTestLocked : Nat := 0x23
def errGrpState : Nat := 0x24

/-- The level of an output that CSC drives at a delay step: a pulse has ended at its trailing edge. -/
def State.outLevel (s : State) (key step : Nat) : Bool :=
  let o := Tab.get {} s.csc.outs key
  o.on && (match o.off with | some f => decide (step < f) | none => true)

/-- The command of a universal output at tick `t`: a non-zero value of its OUTPUT point, or the level of CSC (R295, R193). -/
def State.fioCommand (s : State) (t k : Nat) : Bool :=
  match (s.ptd.act.filter fun e =>
      decide (e.2.srcType = .fioCh) && decide (e.2.srcRef = k) && e.2.output && decide (e.2.kind ≠ .none)).head? with
  | some e => decide ((s.readPoint e.1).value ≠ 0)
  | none => s.outLevel (2 * 65536 + k) (8 * t)

/-- The code commanded of an analog output (R306). -/
def State.aoCommand (s : State) (k : Nat) : Int :=
  match s.boundTo .fioAo k with
  | some i => (s.readPoint i).value.toInt
  | none => 0

/-! ### Analog outputs -/

/-- The 1 µs between two updates of an analog output in RT ticks (R306). -/
def aoGap : Nat := 400

/-- A command of an analog output: applied now, or 1 µs after the previous update (R306). A code that is driven already is no update. -/
def AOut.command (o : AOut) (code : Int) (t : Nat) : AOut :=
  if code = o.code then { o with wait := none }
  else if o.at_ = 0 ∨ o.at_ + aoGap ≤ t then { code := code, at_ := t, wait := none }
  else { o with wait := some code }

/-- The four analog outputs take their commands at tick `t`. -/
def State.aoCommands (s : State) (t : Nat) : State :=
  s.updFio fun x =>
    if x.silent then x
    else if x.runOff then x.aoSafeAll x.runHoldOver
    else { x with ao := (List.range 4).foldl (fun l k => Tab.upd {} l k fun o => o.command (s.aoCommand k) t) x.ao }

/-- A class A word toward the field die (R289): one that fails its CRC is discarded and counted, and the next frame carries its command. -/
def State.wordDown (s : State) (arrive : State → State) : State :=
  let bad := nbit s.fio.badWords 0
  let s1 := s.updFio fun x => { x with badWords := x.badWords / 2, linkErr := if bad then wrapInc x.linkErr else x.linkErr }
  if bad then s1 else arrive s1

/-- A class A word with one channel's command (R289). -/
def State.fioWord (s : State) (k : Nat) (on : Bool) : State :=
  if s.fio.linkUp && !s.fio.runOff then
    s.wordDown fun s => (s.updFio fun x => { x with cmd := nput x.cmd k on }).fioDrive
  else s

/-- A class A word with the code of one analog output (R289, R306), at tick `t`. -/
def State.aoWord (s : State) (k t : Nat) : State :=
  if s.fio.runOff || s.fio.silent then s
  else s.wordDown fun s => s.updFio fun x => { x with ao := Tab.upd {} x.ao k fun o => o.command (s.aoCommand k) t }

/-- What a write of an output point of class A does at the field die at once; every other command enters with the next frame (R289). -/
def State.fioPoint (s : State) (idx t : Nat) : State :=
  let e := s.point idx
  if e.cls ≠ .a ∨ !s.fio.linkUp then s
  else if e.srcType = .fioCh ∧ e.output then s.fioWord e.srcRef (decide ((s.readPoint idx).value ≠ 0))
  else if e.srcType = .fioAo then s.aoWord e.srcRef t
  else s

end Sys2Proof.Machine
end

