-- ==== Sys2Proof/Machine/LaneAdmit.lean ====
section
/-!
DEFINITION. Admission of the Lane ports (R315, R317, R319): station descriptors, remote-action targets, window timing and class B load.
-/

namespace Sys2Proof.Machine

/-- A station descriptor (Table LNE-9). -/
structure StaDesc where
  en : Bool := false
  bySerial : Bool := false
  pos : Nat := 0
  wdN : Nat := 0
  serial : Nat := 0
  bOut : Nat := 0
  bIn : Nat := 0
  aOut : Nat := 0
  aIn : Nat := 0
  holdLast : Bool := false
  holdTmo : Nat := 0
deriving DecidableEq, Repr, Inhabited

/-- A station descriptor from its words. -/
def parseSta (d0 d1 d2 d3 : Word) : StaDesc :=
  { en := bit d0 0, bySerial := bit d0 1, pos := bits d0 14 8, wdN := bits d0 31 16, serial := d1.toNat, bOut := bits d2 10 0,
    bIn := bits d2 26 16, aOut := bits d3 6 0, aIn := bits d3 14 8, holdLast := bit d3 15, holdTmo := bits d3 31 16 }

/-- The active descriptor of a station. -/
def State.staDesc (s : State) (p k : Nat) : StaDesc :=
  let o := 0x1000 * p + 16 * k
  parseSta (s.regAt R.LNE_STA_D0 o) (s.regAt R.LNE_STA_D1 o) (s.regAt R.LNE_STA_D2 o) (s.regAt R.LNE_STA_D3 o)

/-- The shadow descriptor of a station. -/
def State.staShadow (s : State) (p k : Nat) : StaDesc :=
  let o := 0x1000 * p + 16 * k
  parseSta (s.shRegAt R.LNE_STA_D0 o) (s.shRegAt R.LNE_STA_D1 o) (s.shRegAt R.LNE_STA_D2 o) (s.shRegAt R.LNE_STA_D3 o)

/-- A Lane port, a station. -/
def State.lport (s : State) (p : Nat) : LPort := Tab.get {} s.lne.ports p
def State.sta (s : State) (p k : Nat) : Sta := Tab.get {} s.lne.sta (p * 128 + k)

/-- LNE_CFG and LNE_CFG2 of a port. -/
def State.lneCfg (s : State) (p : Nat) : Word := s.regAt R.LNE_CFG (0x1000 * p)
def State.lneCfg2 (s : State) (p : Nat) : Word := s.regAt R.LNE_CFG2 (0x1000 * p)

/-- CYCLE_W of a port, and its cycle in ns. -/
def State.cycleW (s : State) (p : Nat) : Nat := bits (s.lneCfg p) 24 16
def State.cycleNs (s : State) (p : Nat) : Nat := s.cycleW p * 31250

/-- A target of a REMOTE entry (Table CSC-3): port, station, output bit and epoch slot (R202). -/
structure RemoteTgt where
  port : Nat
  station : Nat
  output : Nat
  slot : Nat
  group : Nat
deriving DecidableEq, Repr, Inhabited

/-- The target of a REMOTE entry. -/
def ActDesc.remote (d : ActDesc) : RemoteTgt :=
  { port := bitsN d.target 18 16, station := bitsN d.target 15 9, output := bitsN d.target 8 0, slot := d.group % 16, group := d.group }

/-- The targets of the REMOTE entries of the active table. -/
def State.remoteTgts (s : State) : List RemoteTgt :=
  (s.csc.ents.filter fun e => e.2.valid && decide (e.2.desc.action = .remote)).map fun e => e.2.desc.remote

/-- A frame's time on the wire in ns for `p` payload bytes (R311). -/
def wire (p : Nat) : Nat := (max p 46 + 38) * 8

/-- Round up to 10 ns (R315). -/
def up10 (n : Nat) : Nat := (n + 9) / 10 * 10

/-- A matched station as admission sees it; `spA` and `spB` are the bytes of its drives' set-points in its A_OUT and B_OUT frames. -/
structure AdmSta where
  k : Nat
  desc : StaDesc
  ident : Ident
  d : Nat
  spA : Nat := 0
  spB : Nat := 0
deriving DecidableEq, Repr, Inhabited

/-- The descriptor an axis has or is about to take: the committed one that waits for the boundary before the applied one. -/
def Axis.coming (a : Axis) : Option AxisDesc := match a.next with | some d => some d | none => if a.applied then some a.desc else none

/-- Whether a descriptor streams set-points of class B (`remB`) or class A to a station. -/
def AxisDesc.streamsTo (d : AxisDesc) (p k : Nat) (remB : Bool) : Bool :=
  decide (d.bind = .lane) && decide (d.port = p) && decide (d.station = k) && (d.remB == remB)

/-- The bytes of set-points in a station's frames of one class (R235): eight for each LANE axis, a 32-bit position and a 32-bit velocity.
DESIGN CHOICE (log 19). -/
def State.setPointBytes (s : State) (p k : Nat) (remB : Bool) : Nat :=
  8 * (s.mot.axes.filter fun e => match e.2.coming with | some d => d.streamsTo p k remB | none => false).length

/-- The stations of a port that a descriptor took, ascending, with the descriptors given by `desc`. -/
def State.admStations (s : State) (p : Nat) (desc : Nat → StaDesc) : List AdmSta :=
  ((List.range 128).filter fun k => (desc k).en && decide ((s.sta p k).state ≠ .absent)).map fun k =>
    { k := k, desc := desc k, ident := (s.sta p k).ident, d := (s.sta p k).ds, spA := s.setPointBytes p k false, spB := s.setPointBytes p k true }

/-- The result of an admission: an error code with the station concerned, the timing, and per station the arrival bound, the sending
offset and the delivery bound. -/
structure Admission where
  code : Nat := 0
  station : Nat := 0
  win : WinTiming := {}
  arr : List (Nat × Nat × Nat) := []
  bounds : List (Nat × Nat) := []
deriving DecidableEq, Repr, Inhabited

/-- The arrival slots of a port: station, slot length, sum of the slots before. -/
def slotsOf (l : List AdmSta) (tgt : Nat → Bool) : List (AdmSta × Nat × Nat) :=
  ((l.filter fun x => decide (0 < x.desc.aIn) || tgt x.k).foldl (fun (acc : List (AdmSta × Nat × Nat) × Nat) x =>
    let len := wire (12 + x.desc.aIn + 8 * (if tgt x.k then 8 else 0)) + 40
    (acc.1 ++ [(x, len, acc.2)], acc.2 + len)) ([], 0)).1

/-- The ends of the A_OUT frames of a port, relative to the first frame's start: class A outputs and set-points (R235). -/
def aOutEnds (l : List AdmSta) : List (AdmSta × Nat) :=
  ((l.filter fun x => decide (0 < x.desc.aOut + x.spA)).foldl (fun (acc : List (AdmSta × Nat) × Nat) x =>
    let e := acc.2 + wire (8 + x.desc.aOut + x.spA)
    (acc.1 ++ [(x, e)], e)) ([], 0)).1

/-- The admission of one port (R315, R319). -/
def admitPort (l : List AdmSta) (rem : List RemoteTgt) (armSlots cycleW bMax : Nat) : Admission :=
  let tgt := fun k => rem.any fun r => decide (r.station = k)
  let badSta := l.find? fun x =>
    decide (x.ident.aInMax < x.desc.aIn) || decide (x.ident.aOutMax < x.desc.aOut) || decide (x.ident.bInMax < x.desc.bIn) ||
    decide (x.ident.bOutMax < x.desc.bOut) || rem.any fun r => decide (r.station = x.k) && decide (x.ident.remote ≤ r.output)
  let sp := ((rem.map (·.slot)).eraseDups).length
  let lwf := wire (20 + 24 * sp + 16 * armSlots)
  let slots := slotsOf l tgt
  let inOfs := up10 (slots.foldl (fun m x => max m (x.1.ident.prep + x.1.d - x.2.2)) 0)
  let inEnd := match slots.getLast? with | some x => inOfs + x.2.2 + x.2.1 | none => 0
  let outOfs := up10 (max (inEnd + 1400) (lwf - 160))
  let outs := aOutEnds l
  let lastOut := match outs.getLast? with | some x => outOfs + 160 + x.2 | none => 0
  let winEnd := up10 (max lwf (max inEnd lastOut))
  let late := outs.find? fun x => decide (31250 ≤ outOfs + 160 + x.2 + x.1.d + x.1.ident.q)
  let gap := cycleW * (31250 - winEnd)
  let sent := (l.map fun x => wire (8 + x.desc.bOut + x.spB) + 40).sum
  let recv := (l.map fun x => wire (16 + x.desc.bIn) + 40).sum
  let mille := fun n => if gap = 0 then 0 else (n * 1000 + gap - 1) / gap
  let win : WinTiming := { lwf := lwf, inOfs := inOfs, inEnd := inEnd, outOfs := outOfs, winEnd := winEnd, bSent := mille sent, bRecv := mille recv }
  let code := if badSta.isSome then 0x20
    else if 18750 < winEnd ∨ late.isSome then 0x21
    else if bMax * gap < sent * 100 ∨ bMax * gap < recv * 100 then 0x22 else 0
  { code := code,
    station := match badSta, late with | some x, _ => x.k | none, some x => x.1.k | _, _ => 0,
    win := win,
    arr := slots.map fun x => (x.1.k, inOfs + x.2.2 + x.2.1 + 200, inOfs + x.2.2 - x.1.d),
    bounds := l.map fun x => (x.k, 32250 + lwf + x.d + x.ident.q) }

/-- The admission of a port with given descriptors, REMOTE targets and arm slots. -/
def State.admitWith (s : State) (p : Nat) (desc : Nat → StaDesc) (rem : List RemoteTgt) (armSlots : Nat) (cycleW : Nat) : Admission :=
  admitPort (s.admStations p desc) (rem.filter fun r => decide (r.port = p)) armSlots cycleW (bits (s.lneCfg2 p) 6 0)

/-- ARM_SLOTS of a port. -/
def State.armSlots (s : State) (p : Nat) : Nat := bits (s.regAt R.CSC_PORT_CFG (4 * p)) 20 16

/-- The ports that run the Lane protocol. -/
def State.lanePorts (s : State) : List Nat :=
  (s.lne.ports.filter fun e => decide (e.2.state ≠ .off) && !e.2.eth).map (·.1)

/-- Admission of every Lane port together (R319): the first failure, and the admissions. -/
def State.admitAll (s : State) (desc : Nat → Nat → StaDesc) (rem : List RemoteTgt) (slots : Nat → Nat) (cyc : Nat → Nat) :
    Nat × Nat × List (Nat × Admission) :=
  let r := s.lanePorts.map fun p => (p, s.admitWith p (desc p) rem (slots p) (cyc p))
  match r.find? (fun x => decide (x.2.code ≠ 0)) with
  | some x => (x.2.code, x.2.station, r)
  | none => (0, 0, r)

/-- Take an admission over: window timing, arrival and delivery bounds. -/
def State.takeAdmission (s : State) (p : Nat) (a : Admission) : State :=
  let s1 := { s with lne := { s.lne with ports := Tab.upd {} s.lne.ports p fun x => { x with win := a.win } } }
  let s2 := a.bounds.foldl (fun s b => { s with lne := { s.lne with sta := Tab.upd {} s.lne.sta (p * 128 + b.1) fun x => { x with bs := b.2 } } }) s1
  a.arr.foldl (fun s b => { s with lne := { s.lne with sta := Tab.upd {} s.lne.sta (p * 128 + b.1) fun x =>
    { x with arr := b.2.1, upOfs := b.2.2 } } }) s2

/-- Admission with the committed configuration, taken over where it passes. -/
def State.readmit (s : State) (rem : List RemoteTgt) (slots : Nat → Nat) : Nat × Nat × State :=
  let (code, sta, r) := s.admitAll s.staDesc rem slots s.cycleW
  if code ≠ 0 then (code, sta, s) else (0, 0, r.foldl (fun s x => s.takeAdmission x.1 x.2) s)

end Sys2Proof.Machine
end

