-- ==== Sys2Proof/Machine/Mot.lean ====
section
/-!
DEFINITION. The motion engine at work: positions, phase drive (R219–R224), encoders and latches (R228–R230), events and faults (R237), the
stop of groups (R234) and the snapshot of MOT's points (R229).
-/

namespace Sys2Proof.Machine

/-- Network time in RT ticks of 2.5 ns. -/
def State.tick (s : State) : Nat := s.now * 2 / 5

/-- The ticks of a profile period (R211). -/
def profileTicks : Nat := 8000

/-- An axis, a group, an encoder and a drive channel. -/
def State.axis (s : State) (n : Nat) : Axis := Tab.get {} s.mot.axes n
def State.grp (s : State) (g : Nat) : Grp := Tab.get {} s.mot.grps g
def State.enc (s : State) (n : Nat) : Enc := Tab.get {} s.mot.encs n
def State.drive (s : State) (d : Nat) : Drive := Tab.get {} s.mot.drives d

/-- Change the motion engine, an axis, a group. -/
def State.updMot (s : State) (f : Mot → Mot) : State := { s with mot := f s.mot }
def State.updAxis (s : State) (n : Nat) (f : Axis → Axis) : State := s.updMot fun m => { m with axes := Tab.upd {} m.axes n f }
def State.updGrp (s : State) (g : Nat) (f : Grp → Grp) : State := s.updMot fun m => { m with grps := Tab.upd {} m.grps g f }
def State.updDrive (s : State) (d : Nat) (f : Drive → Drive) : State := s.updMot fun m => { m with drives := Tab.upd {} m.drives d f }

/-- The axes with an applied descriptor. -/
def State.axesApplied (s : State) : List Nat := (s.mot.axes.filter fun e => e.2.applied).map (·.1)

/-- The axes that satisfy a test. -/
def State.axesWhere (s : State) (f : Axis → Bool) : List Nat := (s.mot.axes.filter fun e => f e.2).map (·.1)

/-- The code of an axis state (Table MOT-7). -/
def AxState.code : AxState → Nat
  | .disabled => 0 | .standstill => 1 | .moving => 2 | .following => 3 | .homing => 4 | .stopping => 5 | .fault => 6

/-! ### Positions -/

/-- The commanded position at an instant, in units × 2^16 (R211, R230). -/
def Axis.posAt (a : Axis) (t : Nat) : Rat :=
  let at_ := fun (b : PosBase) => b.p + b.slope * q (t - b.t)
  if a.base.t ≤ t then at_ a.base
  else
    match a.hist.find? (fun b => decide (b.t ≤ t)) with
    | some b => at_ b
    | none => a.base.p

/-- Begin a new straight part of the commanded position; what lies within the last 4 µs stays known. -/
def Axis.rebase (a : Axis) (t : Nat) (p slope : Rat) : Axis :=
  let old := a.base :: a.hist
  let young := old.filter fun b => decide (t < b.t + 1600)
  let last := (old.find? fun b => decide (b.t + 1600 ≤ t)).toList
  { a with base := { t := t, p := p, slope := slope }, hist := young ++ last, jump := false }

/-- A position in units × 2^16 as stored (R210). -/
def fix16 (p : Rat) : Int := (p + 1 / 2).floor

/-- The integer part of a position. -/
def Axis.cmdPos (a : Axis) (t : Nat) : Int := fix16 (a.posAt t) / 65536

/-- The commanded velocity in units/s. -/
def Axis.velUnits (a : Axis) : Rat := a.base.slope * 400000000 / 65536

/-- A rational truncated toward zero. -/
def truncQ (x : Rat) : Int := if x < 0 then -((-x).floor) else x.floor

/-- ACT_POS of an axis: from its encoder where ENC_EN = 1 (R232), else what a LANE axis's station reports (R235); `none` where there is none. -/
def State.actPos (s : State) (a : Axis) : Option Int :=
  if a.desc.encEn then
    some (truncQ ((((s.enc a.desc.enc).count : Rat) + a.encOfs) * q a.desc.encNum / q (max 1 a.desc.encDen)))
  else if a.desc.bind = .lane then a.stPos else none

/-- FERR (R232). -/
def State.ferr (s : State) (a : Axis) (t : Nat) : Option Int := (s.actPos a).map fun p => a.cmdPos t - p

/-! ### Limits and plans -/

/-- Units × 2^16 per period from units/s. -/
def velPer (v : Rat) : Rat := v * 65536 / 50000

/-- Units × 2^16 per period² from units/s². -/
def accPer (a : Nat) : Rat := q a * 65536 / 2500000000

/-- Units × 2^16 per period³ from units/s³. -/
def jerkPer (a : Nat) : Rat := q a * 65536 / 125000000000000

/-- The limits of a descriptor's moves. -/
def AxisDesc.limits (d : AxisDesc) : Limits :=
  { v := velPer (q d.vmax), a := accPer d.acc, d := accPer d.dec, j := if d.seven then some (jerkPer d.jerk) else none }

/-- The limits of a stop at QDEC. -/
def AxisDesc.qLimits (d : AxisDesc) : Limits := { d.limits with d := accPer d.qdec }

/-- The limits of a group's path. -/
def GrpDesc.limits (d : GrpDesc) : Limits :=
  { v := velPer (q d.v), a := accPer d.acc, d := accPer d.dec, j := if d.seven then some (jerkPer d.jerk) else none }

/-- Whether a limit point is active: it reads 1 or is bad (R216). -/
def State.limActive (s : State) (pt : Option Nat) : Bool :=
  match pt with
  | some i => let e := s.readPoint i; decide (e.value = 1) || isBad e.q
  | none => false

/-- Whether the limit in a direction of motion is active (R216). -/
def State.limitAhead (s : State) (a : Axis) (v : Rat) : Bool :=
  (decide (0 < v) && s.limActive a.desc.limP) || (decide (v < 0) && s.limActive a.desc.limN)

/-- Whether soft limits act (R215). -/
def Axis.soft (a : Axis) : Bool := a.desc.softLim && a.homed

/-- A target outside the soft limits (R215), in units × 2^16. -/
def Axis.outside (a : Axis) (p : Int) : Bool := a.soft && (decide (p < a.desc.posMin * 65536) || decide (a.desc.posMax * 65536 < p))

/-- The highest speed towards a soft limit, in units/s, that may be held for `n` ticks from position `p` (R215): |v| ≤ √(2 × QDEC × d) holds with the
distance d that is left at their end, so |v| ≤ √((QDEC × τ)² + 2 × QDEC × d) − QDEC × τ with the time τ of `n` ticks and the distance d at their start.
The root is rounded down to 2^−16 units/s. -/
def Axis.softSpeed (a : Axis) (p v : Rat) (n : Nat) : Rat :=
  let d := if 0 < v then (a.desc.posMax : Rat) - p / 65536 else p / 65536 - (a.desc.posMin : Rat)
  let c := q a.desc.qdec * q n / 400000000
  if d ≤ 0 then 0
  else
    let m := q (isqrt ((c * c + 2 * q a.desc.qdec * d) * q (2 ^ 32)).floor.toNat) / q (2 ^ 16) - c
    if m < 0 then 0 else m

/-- A speed in units/s under the soft limits, for `n` ticks from position `p`, and whether a limit lowered it (R215). -/
def Axis.softClamp (a : Axis) (p v : Rat) (n : Nat) : Rat × Bool :=
  if a.soft && decide (a.state ≠ .homing) && decide (v ≠ 0) then
    let m := a.softSpeed p v n
    if m < absQ v then ((if v < 0 then -m else m), true) else (v, false)
  else (v, false)

/-! ### The path ahead (R211, R223, R235) -/

/-- The displacement of a profile period from position `p` under a wanted one, within the soft limits. -/
def Axis.softStep (a : Axis) (p dp : Rat) : Rat × Bool :=
  let x := a.softClamp p (dp * 50000 / 65536) profileTicks
  if x.2 then (velPer x.1, true) else (dp, false)

/-- The displacement that a speed target wants in the period after `k` periods of its plan. -/
def Plan.stepAt (pl : Plan) (k : Nat) : Rat := (pl.at_ (k + 1)).1 - (pl.at_ k).1

/-- The position `j` periods on, where the period after `i` of them wants the displacement `f i`. -/
def Axis.softPath (a : Axis) (f : Nat → Rat) (p : Rat) : Nat → Rat
  | 0 => p
  | j + 1 => let x := a.softPath f p j; x + (a.softStep x (f j)).1

/-- The position of a group's member after `k` periods of the path (R233). -/
def Grp.memberAt (g : Grp) (m : GrpMember) (k : Nat) : Rat :=
  if g.dist = 0 then ((m.p0 : Int) : Rat) else ((m.p0 + fix16 ((m.delta : Rat) * (g.plan.at_ k).1 / q g.dist) : Int) : Rat)

/-- The commanded position of an axis `j` profile boundaries after the last one, on its present course. -/
def State.boundaryAt (s : State) (n j : Nat) : Rat :=
  let a := s.axis n
  match a.motion with
  | .rest => a.posAt (s.mot.tB + profileTicks)
  | .plan pl k => (pl.at_ (k + j)).1
  | .speed pl k => a.softPath (fun i => pl.stepAt (k + i)) (a.posAt s.mot.tB) j
  | .follow => a.softPath (fun _ => velPer (a.velCmd : Rat)) (a.posAt (s.mot.tB + profileTicks)) (j - 1)
  | .group g =>
    let gr := s.grp g
    match gr.members.find? fun m => decide (m.axis = n) with
    | some m => gr.memberAt m (gr.k + j - b2n gr.skip)
    | none => a.posAt (s.mot.tB + profileTicks)

/-- The commanded position of an axis at a tick, in units × 2^16, and how fast it moves there, per tick: as it stands until the next profile boundary, then along its
plan, under its speed target or its last speed command within the soft limits, or along the path of its group. -/
def State.pathAt (s : State) (n t : Nat) : Rat × Rat :=
  let a := s.axis n
  let j := (t - s.mot.tB) / profileTicks
  if j = 0 then (a.posAt t, a.base.slope)
  else
    let p0 := s.boundaryAt n j
    let slope := (s.boundaryAt n (j + 1) - p0) / q profileTicks
    (p0 + slope * q ((t - s.mot.tB) % profileTicks), slope)

/-- A speed in units/s from one per tick. -/
def slopeUnits (x : Rat) : Rat := x * 400000000 / 65536

/-! ### Events -/

/-- Set an axis's bit of MOT_EVT with AXIS_EVT (R241). -/
def State.axisEvt (s : State) (n : Nat) : State :=
  ((s.updMot fun m => { m with evt := Tab.upd 0 m.evt (n / 32) fun w => setBit w (n % 32) }).irq .mot 9).routeEvt .mot 0 n

/-- A transition of an axis (R237). -/
def State.axisTo (s : State) (n : Nat) (st : AxState) (cause : Nat) : State :=
  let old := (s.axis n).state
  (s.updAxis n fun a => { a with state := st }).record .mot 0 0x0D10 [n, old.code, st.code, cause]

/-- The phase pins follow an axis's phase mode. -/
def State.setPhase (s : State) (n : Nat) (m : PhaseMode) : State :=
  let s1 := s.updAxis n fun a => { a with phase := m }
  if (s.axis n).desc.bind = .local_ then s1.updDrive (s.axis n).desc.drv fun d => { d with mode := m } else s1

/-- Come to rest: full hold until HOLD_DLY has passed (R227). -/
def State.rest (s : State) (n cause : Nat) : State :=
  ((s.axisTo n .standstill cause).updAxis n fun a =>
    { a with motion := .rest, vel := 0, accl := 0, velCmd := 0, inGroup := none, holding := true, holdSince := s.tick,
             homeStep := .none }).setPhase n .full

/-! ### Groups (R233, R234) -/

/-- The largest path deceleration at which none of some members exceeds its QDEC (R234), for a path of a leader's distance. -/
def State.grpQdec (s : State) (dist : Nat) (ms : List GrpMember) : Rat :=
  ms.foldl (fun best m =>
    if m.delta = 0 then best
    else
      let a := accPer (s.axis m.axis).desc.qdec * q dist / (m.delta.natAbs : Rat)
      if best = 0 then a else if a < best then a else best) 0

/-- Stop a moving group along its path, at GDEC or at the members' QDEC (R234). `except` left the group by its own rule; `mid` says that
the stop is planned from the next boundary. -/
def State.grpStopAt (s : State) (gi : Nat) (quick : Bool) (except : Option Nat) (cause : Nat) (mid : Bool) : State :=
  let g := s.grp gi
  if !g.moving then s
  else
    let ms := g.members.filter fun m => decide (some m.axis ≠ except)
    let (p, v, a) := g.plan.at_ (g.k + b2n mid - b2n (mid && g.skip))
    let d := if quick then s.grpQdec g.dist ms else accPer g.desc.dec
    let l := { g.desc.limits with d := if d = 0 then accPer g.desc.dec else d }
    let s1 := s.updGrp gi fun g => { g with plan := stopPlan p v a l, k := 0, stopping := true, skip := mid, members := ms }
    ms.foldl (fun s m =>
      if (s.axis m.axis).state = .moving then
        (s.axisTo m.axis .stopping cause).updAxis m.axis fun a => { a with stopCause := cause }
      else s) s1

/-- A stop planned at a profile boundary. -/
def State.grpStop (s : State) (gi : Nat) (quick : Bool) (except : Option Nat) (cause : Nat) : State :=
  s.grpStopAt gi quick except cause false

/-! ### Faults (R237) -/

/-- The third parameter of FAULT: FERR or V_bus. -/
def State.faultParam (s : State) (a : Axis) (cause : Nat) : Nat :=
  if cause = 1 then (((s.ferr a s.tick).getD 0) % 2 ^ 32).toNat else if cause = 2 then (a.vbus % 2 ^ 32).toNat else 0

/-- An axis goes to FAULT. -/
def State.axisFault (s : State) (n cause : Nat) : State :=
  let a := s.axis n
  let s1 := (s.axisTo n .fault 3).record .mot 0 0x0D11 [n, cause, s.faultParam a cause]
  let s2 := s1.updAxis n fun a =>
    { a with fault := cause, faultNext := 0, motion := .rest, vel := 0, accl := 0, velCmd := 0, cmd := none, inGroup := none,
             holding := false, homeStep := .none }
  let s3 := ((s2.setPhase n (if a.desc.faultShort then .short else .off)).axisEvt n).irq .mot 10
  match a.inGroup with
  | some g => s3.grpStop g true (some n) 4
  | none => s3

/-- An uncorrectable error in an axis's state: AXIS_UE and a fault at the next profile boundary (Tables MOT-7, MOT-11). -/
def State.axisUe (s : State) (n : Nat) : State :=
  (s.updAxis n fun a => { a with faultNext := if a.state = .disabled ∨ a.state = .fault then a.faultNext else 7 }).err .mot 0x2E

/-- Turn an axis off at once (DISABLE, RUN = 0). -/
def State.axisOff (s : State) (n cause : Nat) : State :=
  let a := s.axis n
  if a.state = .disabled then s
  else
    let t := s.tick
    let s1 := (s.axisTo n .disabled cause).updAxis n fun a =>
      { (a.rebase t (a.posAt t) 0) with motion := .rest, vel := 0, accl := 0, velCmd := 0, cmd := none, fault := 0, faultNext := 0,
                                        inGroup := none, holding := false, homeStep := .none, ferrCnt := 0, stallCnt := 0 }
    let s2 := s1.setPhase n .off
    match a.inGroup with
    | some g => s2.grpStopAt g true (some n) 4 true
    | none => s2

/-- The axes that are not DISABLED go there with a full device reset or with PD_MOT's power (Table MOT-6): each transition writes STATE_CHANGE. Its parameter has no code
for this cause, which is a free value (log 18). -/
def State.axesLeave (s : State) : State :=
  (s.axesWhere fun a => decide (a.state ≠ .disabled)).foldl (fun s n =>
    let (k, s1) := s.draw
    s1.axisTo n .disabled (Config.freeWord k).toNat) s

/-! ### Phase drive (R220–R224) -/

/-- Round a non-negative quotient half up. -/
def roundHalfUp (n d : Nat) : Nat := (2 * n + d) / (2 * d)

/-- The phase amplitude before the limit (R221), for a speed in units/s. `none` while V_bus is 0: the quotient is undefined. -/
def Axis.amplRaw (a : Axis) (v : Rat) : Option Int :=
  let u : Rat := if a.phase = .reduced then (a.desc.uHold : Rat)
    else (a.desc.uRi : Rat) + (a.desc.keVmax : Rat) * absQ v / q (max 1 a.desc.vmax)
  if a.vbus = 0 then none else some (fix16 (u * 32768 / (a.vbus : Rat)))

/-- θ (R220) at a position in units × 2^16. -/
def Axis.thetaAt (a : Axis) (p : Rat) : Nat := ((p / 65536).floor * 2 ^ (8 - a.desc.mstep) % 1024).toNat

/-- A phase duty (R222). -/
def phaseDuty (ampl : Int) (i : Nat) : Int := (ampl * cosTab i + 2 ^ 14) / 2 ^ 15

/-- The drive window of a duty in a period (R223). -/
def windowOf (d : Int) (per : Nat) : Window :=
  let n := roundHalfUp (d.natAbs * per) 32768
  { lo := (per - n) / 2, hi := (per - n) / 2 + n, pos := decide (0 < d) }

/-- The window after an update at tick `x` of the period (R224). `old` is the window in force; the phase is driving where it drove in the tick before, and a phase that
drives with the new window's sign while that window has not begun drives on (log 14). -/
def windowUpdate (old new : Window) (x : Nat) : Window :=
  let driving := decide (old.lo < x) && decide (x ≤ old.hi)
  if x < new.lo then (if driving && decide (old.pos = new.pos) then { new with lo := old.lo } else new)
  else if x < new.hi then
    if driving && decide (old.pos = new.pos) then { new with lo := old.lo }
    else { new with lo := min new.hi (if driving then x + 1 else x) }
  else { old with hi := min x old.hi }

/-- The first window of a period after one that was `per` ticks long (R224): where the phase drove in its last tick with the other sign, one tick of state 11 comes
first. -/
def windowStart (old : Window) (per : Nat) (new : Window) : Window :=
  if decide (old.lo < old.hi) && decide (old.hi = per) && decide (new.lo = 0) && decide (old.pos ≠ new.pos) then { new with lo := min new.hi 1 } else new

/-- Amplitude, angle and duties of an axis for a position in units × 2^16 and a speed in units/s. The amplitude is a free value bounded by DUTY_MAX while V_bus is 0. -/
def State.drive_ (s : State) (n : Nat) (p v : Rat) : State × Int × Int :=
  let a := s.axis n
  let (x, s1) := match a.amplRaw v with
    | some x => (x, s)
    | none => let (k, s1) := s.draw; ((Config.freeWord k).toInt, s1)
  let ampl := min a.desc.dutyMax x
  let th := a.thetaAt p
  let s2 := s1.updAxis n fun a => { a with ampl := ampl, theta := th, dutySat := decide (a.desc.dutyMax < x) }
  (s2, phaseDuty ampl th, phaseDuty ampl (th + 768))

/-- The axis bound to a drive channel, if any. -/
def State.driveAxis (s : State) (d : Nat) : Option Nat :=
  (s.axesWhere fun a => a.applied && decide (a.desc.bind = .local_) && decide (a.desc.drv = d)).head?

/-- The bus voltage is read (R225). -/
def State.readVbus (s : State) (n : Nat) : State :=
  let a := s.axis n
  let e := s.readPoint a.desc.vbusPt
  let bad := isBad e.q
  let v := if bad then a.vbus else sext 16 e.value.toNat
  let low := decide (v < a.desc.vbusMin)
  let act := decide (a.state ≠ .disabled) && decide (a.state ≠ .fault)
  s.updAxis n fun a =>
    { a with vbusBad := bad, vbus := v, vbusLow := low, faultNext := if low && a.vbusLow && act then 2 else a.faultNext }

/-- The start of a PWM period of a channel (R223, R225) at tick `t`: its compare values are those of the duties at the period's midpoint. -/
def State.pwmPeriod (s : State) (d : Nat) (t : Nat) : State :=
  let per := bits (s.regAt R.MOT_DRV_CFG (4 * d)) 14 0
  match (if s.erm.fatal then none else s.driveAxis d) with
  | none => s.updDrive d fun x => { x with per := per, t0 := t, mode := .off }
  | some n =>
    let s1 := s.readVbus n
    let a := s1.axis n
    match a.phase with
    | .off | .short => (s1.updAxis n fun a => { a with dutySat := false }).updDrive d fun x => { x with per := per, t0 := t, mode := a.phase, dA := 0, dB := 0, wA := {}, wB := {} }
    | _ =>
      let (p, slope) := s.pathAt n (t + per / 2)
      let (s2, dA, dB) := s1.drive_ n p (if a.phase = .reduced then 0 else slopeUnits slope)
      s2.updDrive d fun x =>
        { x with per := per, t0 := t, mode := a.phase, dA := dA, dB := dB, wA := windowStart x.wA x.per (windowOf dA per),
                 wB := windowStart x.wB x.per (windowOf dB per) }

/-- PWM_PERIOD (R223, R225) at tick `t`. What the period reads of an axis's state may meet an uncorrectable error (R237), which comes with the command. -/
def execPwmPeriod (d : Fin 16) (t : PwmStart) (s : State) : Out :=
  .next (
    let s1 := match t.ue with | some n => s.axisUe n.val | none => s
    s1.pwmPeriod d.val t.tick)

/-- HOLD_DELAY_EXPIRY (R227): the axis takes its standstill mode. -/
def execHoldDelayExpiry (n : Fin 128) (s : State) : Out :=
  .next (
    let a := s.axis n.val
    if a.state = .standstill ∧ a.holding then
      (s.updAxis n.val fun a => { a with holding := false }).setPhase n.val
        (match a.desc.standstill with | 0 => .reduced | 1 => .off | _ => .short)
    else s)

/-- The speed command of a FOLLOWING axis for a value of CMD_PT, in units/s (R217). -/
def Axis.followSpeed (a : Axis) (val : Int) : Int := Int.tdiv (val * a.desc.vmax) 32768

/-- FOLLOW_UPDATE (R218, R224): a class A write of CMD_PT reaches a FOLLOWING axis at tick `t`; its speed holds until the next profile boundary (R215). -/
def State.followUpdate (s : State) (n t : Nat) : State :=
  let a := s.axis n
  let e := s.readPoint a.desc.cmdPt
  if isBad e.q then s.updAxis n fun a => { a with cmdBad := true }
  else
    let p := a.posAt t
    let cmd := a.followSpeed (sext 16 e.value.toNat)
    let (v, lim) := a.softClamp p (cmd : Rat) (s.mot.tB + profileTicks - t)
    let s1 := s.updAxis n fun a =>
      { (a.rebase t p (v * 65536 / 400000000)) with velCmd := cmd, vel := velPer v, cmdBad := false, atLimit := lim }
    if a.desc.bind = .local_ then
      let (s2, dA, dB) := s1.drive_ n p v
      s2.updDrive a.desc.drv fun x =>
        { x with dA := dA, dB := dB, wA := windowUpdate x.wA (windowOf dA x.per) (t - x.t0),
                 wB := windowUpdate x.wB (windowOf dB x.per) (t - x.t0) }
    else s1

/-- A write of a point reaches the LOCAL axes that follow it, where it has class A (R218). -/
def State.followPoint (s : State) (idx t : Nat) : State :=
  if (s.point idx).cls ≠ .a then s
  else
    (s.axesWhere fun a => decide (a.state = .following) && decide (a.desc.bind = .local_) && decide (a.desc.cmdPt = idx)).foldl
      (fun s n => s.followUpdate n t) s

/-! ### Encoders and latches (R228, R230) -/

/-- MOT_ENC_CFG of an encoder. -/
def State.encCfg (s : State) (n : Nat) : Word := s.regAt R.MOT_ENC_CFG (4 * n)

/-- Keep the edges of the last 4 µs, and at least 1,025 of them for the velocity window of CSC (R186). -/
def keepEdges (l : List (Nat × Int)) (t : Nat) : List (Nat × Int) :=
  let rec go : Nat → List (Nat × Int) → List (Nat × Int)
    | _, [] => []
    | k, x :: r => if k < 1025 ∨ t < x.1 + 1600 then x :: go (k + 1) r else []
  go 0 l

/-- The count at the last edge at or before a tick (R230): before the oldest edge kept it is `old`. -/
def Enc.countAt (e : Enc) (t : Nat) : Int :=
  match e.edges.find? (fun x => decide (x.1 ≤ t)) with
  | some x => x.2
  | none => e.old

/-- A counted edge at a tick. -/
def Enc.counted (e : Enc) (t : Nat) (c : Int) (up : Bool) : Enc :=
  let all := (t, c) :: e.edges
  let kept := keepEdges all t
  { e with count := c, up := up, edges := kept, old := match all.drop kept.length with | x :: _ => x.2 | [] => e.old }

/-- An axis captures at a tick (R230). -/
def State.capture (s : State) (n t src : Nat) : State :=
  let a := s.axis n
  let p := fix16 (a.posAt t)
  let ns := t * 5 / 2
  let s1 := s.updAxis n fun a =>
    { a with latArmed := false, latCap := true, latPos := p, latEnc := (s.enc a.desc.enc).countAt t, latT := ns,
             homeStep := if a.homeStep = .seekSwitch then (if a.desc.homeMode = 2 then .seekIndex else .brake) else a.homeStep,
             homeCap := if a.homeStep = .seekSwitch then p else a.homeCap }
  (s1.record .mot 0 0x0D12 [n, src, (p % 2 ^ 32).toNat, ns % 2 ^ 32]).axisEvt n

/-- An edge of a latch source at a tick: every armed axis of that source captures. -/
def State.latchEvent (s : State) (src : Nat) (rising : Bool) (t : Nat) : State :=
  (s.axesWhere fun a => a.latArmed && decide (a.desc.latchSrc = src) &&
      (match a.desc.edge with | 0 => rising | 1 => !rising | _ => true)).foldl (fun s n => s.capture n t src) s

/-- The step of a quadrature pair: +1 where A leads B. Both levels are known to differ in one place. -/
def quadStep (a b a' b' : Bool) : Int :=
  if a ≠ a' then (if a' = b then -1 else 1) else (if a = b' then 1 else -1)

/-- New levels of an encoder's inputs at tick `t`, each held for `held` ticks (R228). -/
def State.encEdge (s : State) (n : Nat) (a b i : Bool) (held t : Nat) : State :=
  let cfg := s.encCfg n
  let e := s.enc n
  let put := fun (s : State) (e : Enc) => s.updMot fun m => { m with encs := Tab.put {} m.encs n e }
  if !(bit cfg 0) then put s { e with a := a, b := b, i := i }
  else if held < bits cfg 4 2 + 1 then s
  else
    let both := decide (e.a ≠ a) && decide (e.b ≠ b)
    let moved := decide (e.a ≠ a) || decide (e.b ≠ b)
    let s1 :=
      if both then
        let s1 := (put s { e with a := a, b := b }).updMot fun m => { m with encErr := nput m.encErr n true }
        let s2 := (s1.irq .mot 11).record .mot 0 0x0D16 [n, (e.count % 2 ^ 32).toNat]
        (s2.axesWhere fun x => x.applied && x.desc.encEn && decide (x.desc.enc = n) && decide (x.state ≠ .disabled) &&
            decide (x.state ≠ .fault)).foldl (fun s k => s.updAxis k fun x => { x with faultNext := 6 }) s2
      else if moved then
        let d := quadStep e.a e.b a b * (if bit cfg 1 then -1 else 1)
        let c := (BitVec.ofInt 64 (e.count + d)).toInt
        put s ({ e with a := a, b := b }.counted t c (decide (0 < d)))
      else s
    let e1 := s1.enc n
    let idx := bit cfg 5 && decide (e1.i ≠ i) && decide (i ≠ bit cfg 6)
    let s2 := put s1 { e1 with i := i, index := if idx then some (t, e1.count) else e1.index }
    if idx then
      (s2.axesWhere fun x => decide (x.state = .homing) && decide (x.homeStep = .seekIndex) && decide (x.desc.enc = n)).foldl
        (fun s k => s.updAxis k fun x => { x with homeStep := .brake, homeCap := fix16 (x.posAt t) }) s2
    else s2

/-! ### Points (R229) -/

/-- MOT_AX_STAT[15:0] of an axis. -/
def Axis.status (a : Axis) : Nat :=
  a.state.code + 16 * b2n a.homed + 32 * b2n a.atLimit + 64 * b2n a.limit + 128 * b2n a.dutySat + 256 * b2n a.cmdBad +
    512 * b2n a.vbusBad + 1024 * b2n a.inGroup.isSome + 4096 * a.fault

/-- Saturate to a signed 32-bit value. -/
def sat32 (x : Int) : Int := satS 32 x

/-- The value of an axis quantity (Table MOT-3), `none` where there is none. -/
def State.axisQty (s : State) (n code t : Nat) : Option Int :=
  let a := s.axis n
  if !a.applied then none
  else
    match code with
    | 0 => some (a.cmdPos t)
    | 1 => s.actPos a
    | 2 => some (truncQ a.velUnits)
    | 3 => (s.ferr a t).map sat32
    | 4 => some (sext 16 a.status)
    | 5 => some a.ampl
    | 6 => some (a.latPos / 65536)
    | _ => none

/-- What MOT writes to one of its points: value and quality. -/
def State.motValue (s : State) (e : DirEntry) (t : Nat) : Word × Byte :=
  match e.srcType with
  | .enc => if bit (s.encCfg e.srcRef) 0 then (wordI (s.enc e.srcRef).count, qValid) else (0, 0)
  | .latch => (word (b2n (nbit s.mot.latLvl e.srcRef)), qValid)
  | _ =>
    match s.axisQty (e.srcRef % 256) (e.srcRef / 256) t with
    | some v => (wordI v, qValid)
    | none => (0, 0)

/-- MOT_SNAPSHOT (R229): all points bound to ENC, LATCH and AXIS are written as one module frame. -/
def State.motSnapshot (s : State) : State :=
  if (s.hd .mot).pwr ≠ .on then s
  else
    let t := s.tick
    (s.pointsWhere fun e => decide (e.srcType = .enc) || decide (e.srcType = .latch) || decide (e.srcType = .axis)).foldl (fun s1 i =>
      let e := s.point i
      let (v, qual) := s.motValue e t
      ((s1.pointWrite i v qual s.now).setFrameT 1 0 s.now).followPoint i t) s

/-- A class A LATCH point is written on arrival of its edge, with the edge's time (R20, Table RT-6). -/
def State.motLatchPoint (s : State) (k t : Nat) : State :=
  match s.boundTo .latch k with
  | some i => if (s.point i).cls = .a then s.pointWrite i (word (b2n (nbit s.mot.latLvl k))) qValid (t * 5 / 2) else s
  | none => s

/-- MOT rewrites one encoder's point at the tick that admission placed (R80, R229). -/
def State.motEncPoint (s : State) (i : Nat) : State :=
  let (v, qual) := s.motValue (s.point i) s.tick
  s.pointWrite i v qual s.now

end Sys2Proof.Machine
end

