-- ==== Sys2Proof/Machine/Csc.lean ====
section
/-!
DEFINITION. The coordinate scheduler (R185–R208): tracking, firing, arming and cancelling, armed remote actions and entry commits.
-/

namespace Sys2Proof.Machine

/-- Change the scheduler, a coordinate, an entry. -/
def State.updCsc (s : State) (f : Csc → Csc) : State := { s with csc := f s.csc }
def State.updCoord (s : State) (c : Nat) (f : Coord → Coord) : State := s.updCsc fun x => { x with coords := Tab.upd {} x.coords c f }
def State.updEnt (s : State) (n : Nat) (f : Act → Act) : State := s.updCsc fun x => { x with ents := Tab.upd {} x.ents n f }

/-- A coordinate's state, an active entry, a group. -/
def State.coord (s : State) (c : Nat) : Coord := Tab.get {} s.csc.coords c
def State.ent (s : State) (n : Nat) : Act := Tab.get {} s.csc.ents n
def State.agroup (s : State) (g : Nat) : AGroup := Tab.get {} s.csc.groups g

/-! ### Coordinates (R185–R189) -/

/-- CSC_COORD_n; COORD_0 is REF_TIME. -/
def State.coordW (s : State) (c : Nat) : Word := if c = 0 then 1 else s.regAt R.CSC_COORD (4 * (c - 1))

/-- The type of a coordinate (Table CSC-1). -/
def State.coordType (s : State) (c : Nat) : Nat := bits (s.coordW c) 2 0

/-- SRC and the velocity window of a coordinate (Table CSC-7). -/
def State.coordSrc (s : State) (c : Nat) : Nat := bits (s.coordW c) 11 4
def State.coordVw (s : State) (c : Nat) : Nat := 2 ^ bits (s.coordW c) 15 12

/-- CPR of an ANGLE coordinate. -/
def State.cpr (s : State) (c : Nat) : Nat := (s.regAt R.CSC_CPR (4 * c)).toNat

/-- Whether a coordinate compares modulo a revolution or a cycle. -/
def State.isRot (s : State) (c : Nat) : Bool := decide (s.coordType c = 3) || decide (s.coordType c = 4)

/-- Whether a POSITION coordinate follows an axis, and which. -/
def State.coordAxis (s : State) (c : Nat) : Option Nat :=
  if s.coordType c = 2 ∧ nbit (s.coordSrc c) 7 then some (s.coordSrc c % 128) else none

/-- Whether a coordinate follows an encoder, and which. -/
def State.coordEnc (s : State) (c : Nat) : Option Nat :=
  if s.coordType c = 3 ∨ (s.coordType c = 2 ∧ !(nbit (s.coordSrc c) 7)) then some (s.coordSrc c % 16) else none

/-- The edges that an edge-counted coordinate counts, newest first. -/
def State.coordEdges (s : State) (c : Nat) : List (Nat × Int) :=
  match s.coordEnc c with
  | some e => (s.enc e).edges
  | none => (s.coord c).edges

/-- Count and velocity in counts per tick of an edge-counted source at a tick (R186). -/
def State.edgeTrack (s : State) (c t : Nat) : Rat × Rat :=
  let base : Int := match s.coordEnc c with | some e => (s.enc e).count | none => (s.coord c).count
  match s.coordEdges c with
  | [] => ((base : Rat), 0)
  | e0 :: rest =>
    let m := s.coordVw c
    let ek := match rest[m - 2]? with
      | some e => e
      | none => rest.getLastD e0
    let v0 : Rat := if m = 1 ∨ rest = [] then Config.oneEdgeVel e0.1 e0.2
      else if ek.1 < e0.1 then ((e0.2 - ek.2 : Int) : Rat) / q (e0.1 - ek.1) else 0
    let v := if (s.coord c).decay ∧ v0 ≠ 0 ∧ e0.1 < t then (if v0 < 0 then -1 else 1) / q (t - e0.1) else v0
    let d := v * q (t - e0.1)
    let top : Rat := 65535 / 65536
    let d1 := if top < d then top else if d < -top then -top else d
    ((e0.2 : Rat) + d1, v)

/-- A rational modulo a natural number. -/
def modQ (x : Rat) (m : Nat) : Rat := x - q m * ((x / q m).floor : Rat)

/-- Tracked value and velocity per tick of a coordinate at a tick (R186, Table CSC-1). -/
def State.track (s : State) (c t : Nat) : Rat × Rat :=
  match s.coordType c with
  | 1 => (q (5 * t) / 2, 5 / 2)
  | 2 =>
    match s.coordAxis c with
    | some n => ((s.axis n).posAt t, (s.axis n).base.slope)
    | none => let (x, v) := s.edgeTrack c t; (x * 65536, v * 65536)
  | 3 =>
    let (x, v) := s.edgeTrack c t
    let k := s.coord c
    let m := max 1 (s.cpr c)
    ((k.revs : Rat) * q (2 ^ 32) + modQ (x - ((k.index.getD 0 : Int) : Rat)) m / q m * q (2 ^ 32), v * q (2 ^ 32) / q m)
  | 4 => let k := s.coord c; (k.pp + k.ps * q (t - k.pt), k.ps)
  | 5 => let (x, v) := s.edgeTrack c t; (x * 65536, v * 65536)
  | _ => (0, 0)

/-- Whether a coordinate's source is usable, with the cause of COORD_LOST otherwise (R188). -/
def State.coordUsable (s : State) (c : Nat) : Bool × Nat :=
  let motOn := decide ((s.hd .mot).pwr = .on)
  match s.coordType c with
  | 1 => (true, 0)
  | 2 =>
    match s.coordAxis c with
    | some n => (motOn && (s.axis n).applied, 0)
    | none => (motOn && bit (s.encCfg (s.coordSrc c % 16)) 0, 0)
  | 3 =>
    if motOn && bit (s.encCfg (s.coordSrc c % 16)) 0 then ((s.coord c).index.isSome, 1) else (false, 0)
  | 4 => ((s.coord c).locked, 2)
  | 5 => (true, 0)
  | _ => (false, 0)

/-- A coordinate becomes valid or invalid (R188); crossings are tested from the tick after `t`. -/
def State.setValid (s : State) (c : Nat) (ok : Bool) (cause t : Nat) : State :=
  if (s.coord c).valid = ok then s
  else
    let s1 := (s.updCoord c fun k => { k with valid := ok, resume := if ok then t else k.resume }).irq .csc 10
    if ok then s1.record .csc 0 0x0C1D [c] else s1.record .csc 0 0x0C1C [c, s.coordType c, cause]

/-- The validity of one coordinate is judged anew. -/
def State.judgeCoord (s : State) (c t : Nat) : State :=
  if c = 0 then s else let (ok, cause) := s.coordUsable c; s.setValid c ok cause t

/-- The coordinates in use, other than REF_TIME. -/
def State.coordsUsed (s : State) : List Nat := ((List.range 32).filter fun c => decide (c ≠ 0) && decide (s.coordType c ≠ 0))

/-- COORD_VALIDITY_CHANGE (R188): every coordinate's validity is judged anew; a shifted axis counts as not counting for a tick (R231). -/
def State.judgeCoords (s : State) (t : Nat) : State :=
  s.coordsUsed.foldl (fun s c =>
    let s1 := match s.coordAxis c with
      | some n => if (s.axis n).jump && decide ((s.axis n).base.t = t) then s.setValid c false 0 t else s
      | none => s
    s1.judgeCoord c t) s

/-- Whether a coordinate is VALID. -/
def State.coordValid (s : State) (c : Nat) : Bool := decide (c = 0) || (s.coord c).valid

/-- An edge of a PULSE source: every coordinate that counts it (R186). `src` is 0–3 for TRIG_IN, 4–11 for the latch inputs. -/
def State.pulseEdge (s : State) (src t : Nat) : State :=
  (s.coordsUsed.filter fun c => decide (s.coordType c = 5) && decide (s.coordSrc c % 16 = src)).foldl (fun s c =>
    s.updCoord c fun k => { k with count := k.count + 1, decay := false, edges := keepEdges ((t, ((k.count + 1 : Nat) : Int)) :: k.edges) t }) s

/-- An edge of an encoder ends the decay of the coordinates that follow it. -/
def State.encCoordEdge (s : State) (n : Nat) : State :=
  (s.coordsUsed.filter fun c => decide (s.coordEnc c = some n)).foldl (fun s c => s.updCoord c fun k => { k with decay := false }) s

/-- An index edge of an encoder at a count (R186, R188): the first since the commit makes an ANGLE valid; a later one is a pass, forward or
backward. -/
def State.indexEdge (s : State) (n : Nat) (count : Int) (up : Bool) : State :=
  (s.coordsUsed.filter fun c => decide (s.coordType c = 3) && decide (s.coordEnc c = some n)).foldl (fun s c =>
    s.updCoord c fun k =>
      match k.index with
      | none => { k with index := some count, revs := 0 }
      | some _ => { k with revs := if up then k.revs + 1 else k.revs - 1 }) s

/-- COORD_EDGE_TIMEOUT (R186): no edge within twice the last interval. -/
def execCoordEdgeTimeout (c : Fin 32) (s : State) : Out := .next (s.updCoord c.val fun k => { k with decay := true })

/-! ### The mains loop (R187) -/

/-- Whether a period in ticks lies in 45–65 Hz. -/
def mainsPeriod (t : Nat) : Bool := decide (400000000 ≤ 65 * t) && decide (45 * t ≤ 400000000)

/-- CSC_ZC_DLY of an input in ticks. -/
def State.zcDly (s : State) (i : Nat) : Rat := q (bits (s.regAt R.CSC_ZC_DLY (4 * i)) 19 0 * 2) / 5

/-- The loop takes a new frequency, a free value: the spec does not give the correction law. The tracked value does not step. -/
def State.pllSet (s : State) (c t : Nat) (p : Rat) : State :=
  let (k, s1) := s.draw
  s1.updCoord c fun x => { x with pt := t, pp := p, ps := q (Config.freeWord k).toNat / 65536 }

/-- Loss of lock (R187). -/
def State.pllLose (s : State) (c t : Nat) : State :=
  (s.updCoord c fun k => { k with locked := false, cand := [] }).judgeCoord c t

/-- Acquisition: eight consecutive edges whose periods lie in range and differ by at most 1 %. -/
def State.pllAcquire (s : State) (c i t : Nat) : State :=
  let k := s.coord c
  let cand := match k.cand with
    | a :: b :: r =>
      let p := t - a
      let p0 := a - b
      if !mainsPeriod p then [t]
      else if p0 < 100 * (if p < p0 then p0 - p else p - p0) then [t, a] else t :: a :: b :: r
    | [a] => if mainsPeriod (t - a) then [t, a] else [t]
    | [] => [t]
  let s1 := s.updCoord c fun x => { x with cand := cand.take 8 }
  if cand.length < 8 then s1
  else
    let per := t - (cand.getD 1 t)
    let s2 := s1.updCoord c fun x => { x with locked := true, cycles := 0, zAcc := t, zPer := per, cand := [] }
    ((s2.pllSet c t (s.zcDly i / q (max 1 per) * q (2 ^ 32))).judgeCoord c t).updCsc fun x =>
      { x with mains := Tab.upd {} x.mains i fun m => { m with freq := min 65535 (40000000000 / max 1 per) } }

/-- The mains period that an accepted edge shows: the time since the last accepted edge, by the cycles that passed in it. One missed or ignored edge
does not end the lock (R187). -/
def Coord.mainsPer (k : Coord) (t : Nat) : Nat :=
  let d := t - k.zAcc
  d / max 1 ((2 * d + k.zPer) / (2 * max 1 k.zPer))

/-- An edge while locked: ignored and counted if more than 10 % of a period from its predicted time, else the loop is corrected. -/
def State.pllEdge (s : State) (c i t : Nat) : State :=
  let k := s.coord c
  -- the time by which the edge misses its predicted one, in ticks
  let ph := modQ (k.pp + k.ps * q (t - k.pt) - s.zcDly i * k.ps) (2 ^ 32)
  let off : Rat := if q (2 ^ 31) < ph then ph - q (2 ^ 32) else ph
  let far := decide (q (2 ^ 32) < 10 * absQ off)
  if far then
    s.updCsc fun x => { x with mains := Tab.upd {} x.mains i fun m => { m with ignored := satInc 255 m.ignored } }
  else
    let per := k.mainsPer t
    if !mainsPeriod per then s.pllLose c t
    else
      let err : Int := if k.ps = 0 then 0 else ((off / k.ps) / 4).floor
      let s1 := s.updCoord c fun x => { x with zAcc := t, zPer := per, cycles := x.cycles + 1 }
      (s1.pllSet c t (k.pp + k.ps * q (t - k.pt))).updCsc fun x =>
        { x with mains := Tab.upd {} x.mains i fun m =>
          { m with freq := min 65535 (40000000000 / max 1 per), err := clamp (-128) 127 err } }

/-- ZC_EDGE (R187): a rising edge on ZC_0 or ZC_1 at tick `t`. -/
def execZcEdge (i : Fin 2) (t : Nat) (s : State) : Out :=
  .next ((s.coordsUsed.filter fun c => decide (s.coordType c = 4) && decide (s.coordSrc c % 2 = i.val)).foldl (fun s c =>
    if (s.coord c).locked then s.pllEdge c i.val t else s.pllAcquire c i.val t) s)

/-- PHASE_LOCK_LOSS (R187): two consecutive predicted edges passed without an accepted edge. -/
def execPhaseLockLoss (c : Fin 32) (t : Nat) (s : State) : Out :=
  .next (if s.coordType c.val = 4 ∧ (s.coord c.val).locked then s.pllLose c.val t else s)

/-! ### Entries (R190–R194) -/

/-- The error codes of Table CSC-8. -/
def errBadAction : Nat := 0x20
def errCoordNone : Nat := 0x21
def errCscOutClaimed : Nat := 0x22
def errCscPointKind : Nat := 0x23
def errSlotBusy : Nat := 0x24
def errEntryArmed : Nat := 0x25
def errGroupEmpty : Nat := 0x26
def errGroupArmed : Nat := 0x27
def errArmCapacity : Nat := 0x28
def errCoordInUse : Nat := 0x29
def errCoordLimit : Nat := 0x2A
def errCancelLate : Nat := 0x2B

/-- The action of a code of Table CSC-3. -/
def actionOf : Nat → Action
  | 0 => .none | 1 => .set | 2 => .clear | 3 => .pulse | 4 => .writePt | 5 => .ramp | 6 => .acqTrig | 7 => .taskFlag | 8 => .remote
  | _ => .reserved

/-- An entry's content from its words (Table CSC-2). -/
def parseAct (e0 e1 e2 e3 : Word) : ActDesc :=
  { coord := bits e0 4 0, dir := bits e0 6 5, repeat_ := bit e0 7, action := actionOf (bits e0 11 8), group := bits e0 19 12,
    fposPt := bit e0 20, fpos := e1.toNat + 2 ^ 32 * bits e2 15 0, operand := bits e2 31 16, target := bits e3 18 0 }

/-- The editing copy of an entry. -/
def actEdit (n : Nat) : Nat := 0x22000000 + 16 * n

/-- The content of an editing copy. -/
def State.actDesc (s : State) (n : Nat) : ActDesc :=
  parseAct (s.mem32 (actEdit n)) (s.mem32 (actEdit n + 4)) (s.mem32 (actEdit n + 8)) (s.mem32 (actEdit n + 12))

/-- The output that an action drives, as kind × 65,536 + index (R192). -/
def ActDesc.output (d : ActDesc) : Option Nat :=
  match d.action with | .set | .clear | .pulse => some d.target | _ => none

/-- The content of every valid entry together with an accepted run. -/
def State.actAll (s : State) : List (Nat × ActDesc) :=
  let base := (s.csc.ents.filter fun e => e.2.valid).map fun e => (e.1, e.2.desc)
  (base.filter fun e => !(s.csc.next.any fun x => decide (x.1 = e.1))) ++ s.csc.next.filter fun x => decide (x.2.action ≠ .none)

/-- Whether CSC claims an output (R193). -/
def State.cscClaims (s : State) (kind idx : Nat) : Bool := s.actAll.any fun e => decide (e.2.output = some (kind * 65536 + idx))

/-- Whether MOT claims a PWM pin (R209). -/
def State.motClaims (s : State) (pin : Nat) : Bool :=
  (s.axesWhere fun a => (a.applied && decide (a.desc.bind = .local_) && decide (a.desc.drv = pin / 4)) ||
    (match a.next with | some d => decide (d.bind = .local_) && decide (d.drv = pin / 4) | none => false)) ≠ []

/-- The bits and ranges of an entry (BAD_ACTION). -/
def State.actFormat (s : State) (n : Nat) (d : ActDesc) : Bool :=
  let e0 := s.mem32 (actEdit n)
  let e3 := s.mem32 (actEdit n + 12)
  let kind := d.target / 65536
  let idx := d.target % 65536
  let outOk := (decide (kind = 0) && decide (idx < 8)) || (decide (kind = 1) && decide (idx < 64)) || (decide (kind = 2) && decide (idx < 32))
  let port := s.lport d.remote.port
  decide (bits e0 28 21 = 0) && decide (bits e3 31 19 = 0) && decide (d.dir ≠ 3) &&
  (s.isRot d.coord || (!d.repeat_ && !d.fposPt)) && (!d.fposPt || d.repeat_) &&
  (!s.isRot d.coord || d.fposPt || decide (d.fpos < 2 ^ 32)) &&
  (match d.action with
   | .none => decide (d.target = 0) && decide (d.operand = 0)
   | .set | .clear => outOk && decide (d.operand = 0)
   | .pulse => outOk
   | .writePt => true
   | .ramp => decide (d.target < 1024)
   | .acqTrig => decide (d.target < 16) && decide (d.operand = 0)
   | .taskFlag => decide (d.target < 512) && decide (d.operand < 32)
   | .remote => decide (d.operand % 4 ≠ 3) && !port.eth && decide (port.state ≠ .off)
   | .reserved => false)

/-- The references of an entry (COORD_NONE, POINT_KIND). -/
def State.actRefs (s : State) (d : ActDesc) : Nat :=
  let e := s.dirEntry d.target
  let f := s.dirEntry (d.fpos % 2 ^ 19)
  if s.coordType d.coord = 0 then errCoordNone
  else if d.action = .writePt ∧ !(decide (e.srcType = .internal) && e.hot && decide (e.cls = .a) &&
      (decide (e.kind = .q15) || decide (e.kind = .int16) || decide (e.kind = .bit))) then errCscPointKind
  else if d.fposPt ∧ !(f.hot && decide (f.kind = .q15)) then errCscPointKind
  else 0

/-- Whether an output is claimed elsewhere: a point bound with OUTPUT = 1, or MOT (R193). -/
def State.outTaken (s : State) (kind idx : Nat) : Bool :=
  match kind with
  | 1 => s.motClaims idx
  | 2 => s.ptd.dir.any fun e => decide (e.2.srcType = .fioCh) && decide (e.2.srcRef = idx) && e.2.output && decide (e.2.kind ≠ .none)
  | _ => false

/-- The uses of an entry (ENTRY_ARMED, OUT_CLAIMED, POINT_KIND by claim, SLOT_BUSY). `all` are the contents after the run. -/
def State.actUse (s : State) (n : Nat) (d : ActDesc) (all : List (Nat × ActDesc)) : Nat :=
  let st := (s.ent n).state
  if st = .armed ∨ st = .sent ∨ st = .late then errEntryArmed
  else if (match d.output with | some o => s.outTaken (o / 65536) (o % 65536) | none => false) then errCscOutClaimed
  else if d.action = .writePt ∧ s.claimed .csc 0 d.target then errCscPointKind
  else if d.action = .remote ∧ (all.any fun x => decide (x.2.action = .remote) && decide (x.2.remote.port = d.remote.port) &&
      decide (x.2.remote.station = d.remote.station) && decide (x.2.remote.slot = d.remote.slot) && decide (x.2.group ≠ d.group)) then errSlotBusy
  else 0

/-- The indices of a run. -/
def runOf (first count : Nat) : List Nat := (List.range count).map fun k => (first + k) % 65536

/-- The contents of the table once a run has taken effect. -/
def State.actAfter (s : State) (run : List Nat) : List (Nat × ActDesc) :=
  (s.actAll.filter fun e => !run.contains e.1) ++ (run.map fun n => (n, s.actDesc n)).filter fun x => decide (x.2.action ≠ .none)

/-- The check of a run (R190, R193): code and first failing entry. -/
def State.runCheck (s : State) (run : List Nat) : Nat × Nat :=
  match run.find? (fun n => !(bit (s.mem32 (actEdit n)) 31)) with
  | some n => (errCommitRefused, n)
  | none =>
    let all := s.actAfter run
    let check := fun n =>
      let d := s.actDesc n
      if !s.actFormat n d then errBadAction
      else if d.action = .none then (if (s.ent n).state = .armed ∨ (s.ent n).state = .sent ∨ (s.ent n).state = .late then errEntryArmed else 0)
      else let r := s.actRefs d; if r ≠ 0 then r else s.actUse n d all
    match run.find? (fun n => decide (check n ≠ 0)) with
    | some n => (check n, n)
    | none => (0, 0)

/-- CSC_ACT_STAT of a completed commit, with ACT_DONE. -/
def State.actResult (s : State) (e n : Nat) : State :=
  let s1 := (s.updCsc fun x => { x with busy := none, actResult := e, actFail := n }).irq .csc 8
  if e = 0 then s1 else s1.err .csc e

/-- CSC_ACT_GO (R190): PEND is set in the run's entries that are ready for commit. -/
def execCscActGo (p : Principal) (first : Fin 65536) (count : Fin 256) (s : State) : Out :=
  .next (s.gated .csc 0x100 .wo p (word (first.val + 65536 * count.val)) fun s =>
    match s.csc.busy with
    | some _ => s.err .csc errCommitBusy
    | none =>
      let run := runOf first.val (count.val + 1)
      match run.find? (fun n => !(bit (s.mem32 (actEdit n)) 31)) with
      | some n => s.actResult errCommitRefused n
      | none =>
        (run.foldl (fun s n => s.store32 (actEdit n) (setBit (s.mem32 (actEdit n)) 30)) s).updCsc fun x =>
          { x with busy := some (first.val, count.val + 1) })

/-- The points that CSC's entries hold (R62, R63). -/
def actPointRefs (l : List (Nat × ActDesc)) : List (Nat × Bool) :=
  ((l.filter fun x => decide (x.2.action = .writePt)).map fun x => (x.2.target, true)) ++
    (l.filter fun x => x.2.fposPt).map fun x => (x.2.fpos % 2 ^ 19, false)

/-- ACT_COMMIT_DONE (R190): the check of the run ends. A change of the REMOTE targets is admitted by LNE (R319). -/
def execActCommitDone (s : State) : Out :=
  .next (
    match s.csc.busy with
    | none => s
    | some (first, count) =>
      let run := runOf first count
      let (e, n) := s.runCheck run
      let clear := fun (s : State) => run.foldl (fun s n => s.store32 (actEdit n) (clrBit (clrBit (s.mem32 (actEdit n)) 31) 30)) s
      if e ≠ 0 then (clear s).actResult e n
      else
        let after := s.actAfter run
        let rem := (after.filter fun x => decide (x.2.action = .remote)).map fun x => x.2.remote
        let (a, _, s1) := if rem = s.remoteTgts then (0, 0, s) else s.readmit rem s.armSlots
        if a ≠ 0 then (clear s).actResult a first
        else
          let descs := run.map fun n => (n, s.actDesc n)
          (((clear s1).updCsc fun x =>
            { x with next := (x.next.filter fun y => !run.contains y.1) ++ descs }).setRefs .csc 0 (actPointRefs after)).actResult 0 0)

/-- A group is DONE once no entry of it is ARMED, SENT or LATE after an arm (R196). -/
def State.groupSettle (s : State) (g : Nat) : State :=
  let busy := s.csc.ents.any fun e => e.2.valid && decide (e.2.desc.group = g) &&
    (decide (e.2.state = .armed) || decide (e.2.state = .sent) || decide (e.2.state = .late))
  if (s.agroup g).state = .armed && !busy then
    let s1 := s.updCsc fun x => { x with groups := Tab.upd {} x.groups g fun y => { y with state := .done },
                                         evt := Tab.upd 0 x.evt (g / 32) fun w => setBit w (g % 32) }
    ((s1.irq .csc 9).routeEvt .csc 0 g).record .csc 0 0x0C12 [g, (s.agroup g).fired]
  else s

/-- A group's event bit (R207). -/
def State.groupEvt (s : State) (g : Nat) : State :=
  ((s.updCsc fun x => { x with evt := Tab.upd 0 x.evt (g / 32) fun w => setBit w (g % 32) }).irq .csc 9).routeEvt .csc 0 g

/-- ACT_APPLY (R190): an accepted run takes effect at the base-frame boundary. -/
def State.actApply (s : State) : State :=
  let run := s.csc.next
  if run = [] then s
  else
    let groups := (run.map fun x => (s.ent x.1).desc.group).eraseDups
    let s1 := s.updCsc fun x =>
      { x with next := [], ents := run.foldl (fun t y =>
        if y.2.action = .none then Tab.put {} t y.1 {} else Tab.put {} t y.1 { valid := true, desc := y.2 }) x.ents }
    groups.foldl (fun s g => s.groupSettle g) s1

/-! ### Arming and cancelling (R195, R203, R205) -/

/-- The valid entries of a group, ascending. -/
def State.groupEnts (s : State) (g : Nat) : List Nat :=
  (s.csc.ents.filter fun e => e.2.valid && decide (e.2.desc.group = g)).map (·.1)

/-- Whether a group is ARMED (R196). -/
def State.groupArmed (s : State) (g : Nat) : Bool := decide ((s.agroup g).state = .armed)

/-- Whether an accepted arm of a group waits for its boundary. -/
def State.armPending (s : State) (g : Nat) : Bool := s.csc.arms.any fun r => decide (r.group = g)

/-- L_FIX of an action in ns (Table CSC-5). -/
def ActDesc.lfix (d : ActDesc) : Nat :=
  match d.action with
  | .set | .clear | .pulse => if d.target / 65536 = 2 then 120 else 40
  | .writePt | .acqTrig => 40
  | _ => 0

/-- The fire instant in ns of a TIME entry armed at `ta` (R195); the position has 48 bits. -/
def timeFire (d : ActDesc) (rel : Bool) (base ta : Nat) : Nat :=
  if rel then base + d.fpos
  else ((ta : Int) + sext 48 ((((d.fpos : Int) - ta) % 2 ^ 48).toNat)).toNat

/-- RUN_AHEAD of a port in ns. -/
def State.runAhead (s : State) (p : Nat) : Nat := bits (s.regAt R.CSC_PORT_CFG (4 * p)) 15 0 * 1000

/-- The windows in which a REMOTE entry that fires at `t` may be sent (R203), from window `w0` on: those that end at or after
t − RUN_AHEAD and at least B_s before t. -/
def State.sendWindows (s : State) (r : RemoteTgt) (t w0 : Nat) : List Nat :=
  let bs := (s.sta r.port r.station).bs
  let lo := (t - s.runAhead r.port + 31249) / 31250 - 1
  let hi := (t - bs) / 31250
  let a := max lo w0
  if t < bs + 31250 then [] else (List.range (hi - a)).map fun k => a + k

/-- The messages placed or sent in a window of a port. -/
def State.winLoad (s : State) (p w : Nat) : Nat :=
  (s.csc.ents.filter fun e => decide (e.2.win = some w) && decide (e.2.desc.remote.port = p) && decide (e.2.desc.action = .remote)).length

/-- Give the REMOTE TIME entries of a group their windows; `none` where one cannot be placed (ARM_CAPACITY). -/
def State.placeRemote (s : State) (ents : List Nat) (rel : Bool) (base ta : Nat) : Option State :=
  ents.foldl (fun acc n =>
    acc.bind fun s =>
      let d := (s.ent n).desc
      if d.action ≠ .remote ∨ s.coordType d.coord ≠ 1 then some s
      else
        let t := timeFire d rel base ta
        let bs := (s.sta d.remote.port d.remote.station).bs
        if t ≤ ta ∨ t < ta + bs then some s
        else
          match (s.sendWindows d.remote t (ta / 31250)).find? (fun w => decide (s.winLoad d.remote.port w < s.armSlots d.remote.port)) with
          | some w => some (s.updEnt n fun a => { a with win := some w })
          | none => none) (some s)

/-- The next base-frame boundary after an instant in ns. -/
def nextFrame (t : Nat) : Nat := (t / 1000 + 1) * 1000

/-- An arm request (R195) accepted at `tc` ns: the result code and the entries affected. `base` is the RSQ evaluation instant of an ARM_REL. A second
arm of a group before the first takes effect arms nothing that the first does not. -/
def State.armReq (s : State) (g : Nat) (rel : Bool) (base : Option Nat) (rsq : Bool) (tc : Nat) : State × Nat × Nat :=
  let ents := s.groupEnts g
  let ta := nextFrame tc
  if ents = [] then (s.err .csc errGroupEmpty, errGroupEmpty, 0)
  else if s.groupArmed g then (s.err .csc errGroupArmed, errGroupArmed, 0)
  else
    match s.placeRemote (if s.armPending g then [] else ents) rel (base.getD ta) ta with
    | none => (s.err .csc errArmCapacity, errArmCapacity, 0)
    | some s1 => (s1.updCsc fun x => { x with arms := x.arms ++ [{ group := g, rel := rel, base := base, rsq := rsq }] }, 0, ents.length)

/-- The fire fraction of an entry with FPOS_PT (R194); a bad point keeps the previous one. -/
def State.fposOf (s : State) (n : Nat) : Int :=
  let a := s.ent n
  let e := s.readPoint (a.desc.fpos % 2 ^ 19)
  if isBad e.q then a.pos
  else ((max 0 (sext 16 e.value.toNat) + (a.desc.fpos / 2 ^ 32 : Nat)) * 65536) % 2 ^ 32

/-- An entry goes to MISSED. -/
def State.missEnt (s : State) (n cause : Nat) : State :=
  let g := (s.ent n).desc.group
  ((s.updEnt n fun a => { a with state := .missed, win := none }).record .csc 0 0x0C13 [n, g, cause]).groupEvt g

/-- An entry is armed at `ta` ns (R195, Table CSC-4). -/
def State.armEnt (s : State) (n : Nat) (rel : Bool) (base ta : Nat) : State :=
  let d := (s.ent n).desc
  let tick := ta * 2 / 5
  if (s.ent n).state = .armed ∨ (s.ent n).state = .sent ∨ (s.ent n).state = .late then s
  else if s.coordType d.coord = 1 then
    let t := timeFire d rel base ta
    let bs := (s.sta d.remote.port d.remote.station).bs
    if t ≤ ta ∨ (d.action = .remote ∧ t < ta + bs) then s.missEnt n 0
    else s.updEnt n fun a => { a with state := .armed, tFire := t, from_ := tick, pos := max ((t : Int) - d.lfix) (ta + 1) }
  else
    s.updEnt n fun a => { a with state := .armed, from_ := tick, pos := if d.fposPt then s.fposOf n else d.fpos }

/-- ARM_EFFECTIVE (R195): accepted arms take effect at the base-frame boundary. -/
def State.armEffective (s : State) : State :=
  let ta := s.now
  (s.csc.arms).foldl (fun s r =>
    let ents := s.groupEnts r.group
    let s1 := s.updCsc fun x => { x with groups := Tab.upd {} x.groups r.group fun y => { state := .armed, fired := if y.state = .armed then y.fired else 0 } }
    let s2 := s1.record .csc 0 0x0C10 [r.group, ents.length, ta % 2 ^ 32, b2n r.rsq]
    (ents.foldl (fun s n => s.armEnt n r.rel (r.base.getD ta) ta) s2).groupSettle r.group)
    (s.updCsc fun x => { x with arms := [] })

/-! ### Firing (R196–R201) -/

/-- The signed distance from a value to a position, modulo a power of two (R197). -/
def wrapDist (pos : Int) (c : Rat) (bitsN : Nat) : Rat :=
  let d := (pos : Rat) - c
  d - q (2 ^ bitsN) * (((d + q (2 ^ (bitsN - 1))) / q (2 ^ bitsN)).floor : Rat)

/-- The crossing test at a tick: the fraction of the tick at which the position is crossed (R197). -/
def State.crosses (s : State) (n t : Nat) : Option Rat :=
  let a := s.ent n
  let (c, v) := s.track a.desc.coord t
  let d := wrapDist a.pos c (if s.isRot a.desc.coord then 32 else 48)
  let up := decide (0 < d) && decide (d ≤ v)
  let down := decide (v ≤ d) && decide (d < 0)
  if (match a.desc.dir with | 1 => up | 2 => down | _ => up || down) then some (d / v) else none

/-- Round an instant in ticks to a grid of delay steps (eight to a tick), halves up. -/
def gridSteps (t : Rat) (grid : Nat) : Nat := ((t * 8 / q grid + 1 / 2).floor * grid).toNat

/-- The width of a pulse in delay steps (R192). -/
def pulseSteps (operand : Nat) : Nat :=
  (operand % 16384) * (match operand / 16384 with | 0 => 8 | 1 => 320 | 2 => 32000 | _ => 3200000)

/-- An output at a delay step: a pulse whose trailing edge lies there or before has ended with it. -/
def OutPin.settle (o : OutPin) (step : Nat) : OutPin :=
  match o.off with
  | some f => if o.on && decide (f ≤ step) then { on := false, at_ := f, ent := o.offEnt } else o
  | none => o

/-- The trailing edge after an edge on an output: that of a pulse, the later one where pulses overlap (R200); a SET within a pulse leaves it. -/
def OutPin.trail (o : OutPin) (n : Nat) (on : Bool) (off : Option Nat) : Option Nat × Nat :=
  match off, o.off with
  | some f, some g => if o.on && decide (f < g) then (some g, o.offEnt) else (some f, n)
  | some f, none => (some f, n)
  | none, some g => if on && o.on then (some g, o.offEnt) else (none, 0)
  | none, none => (none, 0)

/-- An edge on an output at a delay step (R198, R200): of two edges in one step the higher-numbered entry's level is taken. -/
def State.outEdge (s : State) (key n step : Nat) (on : Bool) (off : Option Nat) : State :=
  let o := (Tab.get {} s.csc.outs key).settle step
  let same := decide (o.at_ = step) && decide (0 < o.at_)
  let tr := o.trail n on off
  let s1 := if same then s.updCsc fun x => { x with collide := wrapInc x.collide } else s
  if s.erm.fatal && decide (key / 65536 < 2) then s1
  else
    let new : OutPin :=
      if same && decide (n < o.ent) then (if o.on then { o with off := tr.1, offEnt := tr.2 } else o)
      else { on := on, at_ := step, ent := n, off := tr.1, offEnt := tr.2 }
    s1.updCsc fun x => { x with outs := Tab.put {} x.outs key new }

/-- The trailing edges that have fallen by tick `t` on field-die channels reach the die in their delay step (R192). -/
def State.cscTrail (s : State) (t : Nat) : State :=
  (s.csc.outs.filter fun e => decide (e.1 / 65536 = 2) && e.2.on && decide (e.2.settle (8 * t) ≠ e.2)).foldl (fun s e =>
    (s.updCsc fun x => { x with outs := Tab.upd {} x.outs e.1 fun o => o.settle (8 * t) }).fioWord (e.1 % 65536) false) s

/-- The crossing instant t_x of R197 in ticks, of an entry that starts at `tx`: a REF_TIME entry starts early by its L_FIX (R198). -/
def State.crossInst (s : State) (n : Nat) (tx : Rat) : Rat :=
  let d := (s.ent n).desc
  if s.coordType d.coord = 1 then tx + q d.lfix * 2 / 5 else tx

/-- CSC_FIRE (R198): the action of an entry that starts at `tx` in ticks, `t` the tick of the firing. -/
def State.perform (s : State) (n : Nat) (tx : Rat) (t : Nat) : State :=
  let d := (s.ent n).desc
  let ext := tx + q d.lfix * 2 / 5
  match d.action with
  | .set | .clear | .pulse =>
    let step := gridSteps ext (if d.target / 65536 = 2 then 32 else 1)
    let s1 := s.outEdge d.target n step (decide (d.action ≠ .clear))
      (if d.action = .pulse then some (step + pulseSteps d.operand) else none)
    if d.target / 65536 = 2 then s1.fioWord (d.target % 65536) (Tab.get {} s1.csc.outs d.target).on else s1
  | .writePt =>
    let ns := (s.crossInst n tx * 5 / 2).floor.toNat
    (s.pointWrite d.target (wordI (sext 16 d.operand)) qValid ns).followPoint d.target t
  | .ramp => s.rampCmd d.target d.operand
  | .acqTrig => s.acqLine d.target (gridSteps (s.crossInst n tx) 1 * 625 / 2) (t + 16)
  | .taskFlag => s.raiseFlags d.target (word (2 ^ (d.operand % 32)))
  | _ => s

/-- An entry fires: Table CSC-4. -/
def State.fireEnt (s : State) (n : Nat) (tx : Rat) (t : Nat) : State :=
  let a := s.ent n
  let g := a.desc.group
  let ns := (s.crossInst n tx * 5 / 2).floor.toNat
  let s1 := s.updEnt n fun x => { x with state := if a.desc.repeat_ then .armed else .fired, last := ns, from_ := t + 1 }
  let s2 := (s1.perform n tx t).updCsc fun x => { x with groups := Tab.upd {} x.groups g fun y => { y with fired := y.fired + 1 } }
  let s3 := if a.desc.repeat_ ∧ a.desc.fposPt then s2.updEnt n fun x => { x with pos := s2.fposOf n } else s2
  s3.groupSettle g

/-- The ticks from `t` on by which a firing moves to the first that has fewer than four (R200). -/
def fireShift (fires : Tab Nat) (t : Nat) : Nat → Nat → Nat
  | 0, k => k
  | fuel + 1, k => if Tab.get 0 fires (t + k) < 4 then k else fireShift fires t fuel (k + 1)

/-- An entry that starts at `tx` in ticks fires in tick `t`, or, where that has four firings, in the next that has not, with f = 0 (R200). -/
def State.fireLimited (s : State) (n : Nat) (tx : Rat) (t : Nat) : State :=
  let shift := fireShift s.csc.fires t s.csc.fires.length 0
  let s1 := s.updCsc fun x => { x with fires := Tab.upd 0 x.fires (t + shift) (· + 1) }
  if shift = 0 then s1.fireEnt n tx t
  else
    let s2 := (s1.updCsc fun x => { x with delayed := wrapInc x.delayed }).record .csc 0 0x0C14 [n, shift]
    s2.fireEnt n (q (t + shift)) (t + shift)

/-- COORD_CROSSING (R197, R200): the crossing test of an entry at tick `t`, and its firing. `ue` reports an uncorrectable error in the entry
or its watch list (Table CSC-4). -/
def execCoordCrossing (n : Fin 65536) (t : Nat) (ue : Bool) (s : State) : Out :=
  .next (
    let a := s.ent n.val
    if !a.valid ∨ a.state ≠ .armed ∨ (s.hd .csc).pwr ≠ .on then s
    else if ue then ((s.missEnt n.val 1).raise .csc 0 0x0C13 .alarm).groupSettle a.desc.group
    else if a.desc.action = .remote ∨ !s.coordValid a.desc.coord ∨ t < a.from_ ∨ (a.desc.coord ≠ 0 ∧ t ≤ (s.coord a.desc.coord).resume) then s
    else
      match s.crosses n.val t with
      | none => s
      | some f => s.fireLimited n.val (q t + f) t)

/-! ### Remote actions (R202–R205) -/

/-- The port and station of an entry as its records name them. -/
def RemoteTgt.ps (r : RemoteTgt) : Nat := r.port * 128 + r.station

/-- The current epoch of a station's slot. -/
def State.epoch (s : State) (port sta slot : Nat) : Nat := Tab.get 0 s.csc.epochs ((port * 128 + sta) * 16 + slot)

/-- Change a Lane port, a station. -/
def State.updPort_ (s : State) (p : Nat) (f : LPort → LPort) : State := { s with lne := { s.lne with ports := Tab.upd {} s.lne.ports p f } }
def State.updSta (s : State) (p k : Nat) (f : Sta → Sta) : State := { s with lne := { s.lne with sta := Tab.upd {} s.lne.sta (p * 128 + k) f } }

/-- The predicted fire instant in ns of a REMOTE entry at tick `t` (R204). -/
def State.remoteFire (s : State) (n t : Nat) : Option Nat :=
  let a := s.ent n
  if s.coordType a.desc.coord = 1 then some a.tFire
  else
    let (c, v) := s.track a.desc.coord t
    let d := wrapDist a.pos c (if s.isRot a.desc.coord then 32 else 48)
    let ok := match a.desc.dir with
      | 1 => decide (0 < v) && decide (0 < d)
      | 2 => decide (v < 0) && decide (d < 0)
      | _ => (decide (0 < v) && decide (0 < d)) || (decide (v < 0) && decide (d < 0))
    if ok then some (((q t + d / v) * 5 / 2).floor.toNat) else none

/-- The class A window in which an instant in ns falls, and its end (R203). -/
def winOf (now : Nat) : Nat := now / 31250
def winEnd (w : Nat) : Nat := (w + 1) * 31250

/-- The arm record of a REMOTE entry joins the window frame of the window that runs (R203): SENT, with REMOTE_ARMED. Fault injection in force is
cleared first (R326). -/
def State.sendArm (s : State) (n tf w : Nat) : State :=
  let a := s.ent n
  let r := a.desc.remote
  let ep := s.epoch r.port r.station r.slot
  let rec_ : ArmRec := { station := r.station, slot := r.slot, epoch := ep, output := r.output, op := a.desc.operand % 4,
                         width := a.desc.operand / 4, tFire := tf }
  let inj := (s.lport r.port).inj.en
  let s0 := if inj then (s.updPort_ r.port fun x => { x with inj := { x.inj with en := false, enNext := none } }).record .lne r.port 0x1118
    [r.port, 0, 1, (s.lport r.port).inj.rule] else s
  let s1 := s0.updPort_ r.port fun x => { x with outArms := x.outArms ++ [rec_] }
  let s2 := s1.updEnt n fun x => { x with state := .sent, tFire := tf, epoch := ep, last := tf, win := some w, skipped := false }
  s2.record .csc 0 0x0C16 [n, r.ps, ep, tf % 2 ^ 32]

/-- Whether the frame of the window that runs has room for one more arm record of a port, beside those placed in that window (R203). -/
def State.armRoom (s : State) (n w : Nat) : Bool :=
  let a := s.ent n
  let p := a.desc.remote.port
  decide ((s.lport p).outArms.length < s.armSlots p) && (decide (a.win = some w) || decide (s.winLoad p w < s.armSlots p))

/-- REMOTE_ARM_SEND (R203, R204): the arm record of an entry whose fire instant is within the run-ahead joins the frame of the window in which `t` falls.
That window ends at or after t_fire − RUN_AHEAD and at least B_s before t_fire, and it is the one given to a TIME entry at its arm. An entry whose fire
instant a step of network time has skipped goes in the first window with room (R201). -/
def execRemoteArmSend (n : Fin 65536) (t : Nat) (s : State) : Out :=
  .next (
    let a := s.ent n.val
    let r := a.desc.remote
    if !a.valid ∨ a.state ≠ .armed ∨ a.desc.action ≠ .remote ∨ !s.coordValid a.desc.coord then s
    else
      match s.remoteFire n.val t with
      | none => s
      | some tf =>
        let w := winOf (t * 5 / 2)
        let bs := (s.sta r.port r.station).bs
        let inTime := decide (winEnd w + bs ≤ tf) && decide (tf ≤ winEnd w + s.runAhead r.port) &&
          (match a.win with | some k => decide (k = w) | none => true)
        if (inTime || a.skipped) && s.armRoom n.val w then s.sendArm n.val tf w else s)

/-- After a forward step of network time from `t0` to `t1` ns, the TIME entries whose fire instant it skipped fire in the next tick and write
STEPPED; a REMOTE one is sent then, if its window has room. After a backward step what lies ahead of the new time no longer holds a crossing back
(R201). -/
def State.cscStepped (s : State) (t0 t1 : Nat) : State :=
  let t := t1 * 2 / 5 + 1
  if t1 ≤ t0 then
    s.updCsc fun x =>
      { x with fires := [], ents := Tab.mapAll {} (fun a => { a with from_ := min a.from_ t }) x.ents,
               coords := Tab.mapAll {} (fun k => { k with resume := min k.resume t }) x.coords }
  else
    let hit := s.csc.ents.filter fun e => e.2.valid && decide (e.2.state = .armed) && decide (s.coordType e.2.desc.coord = 1) &&
      (if e.2.desc.action = .remote then decide (t0 < e.2.tFire) && decide (e.2.tFire ≤ t1)
       else decide ((t0 : Int) < e.2.pos) && decide (e.2.pos ≤ (t1 : Int)))
    hit.foldl (fun s e =>
      let s1 := s.record .csc 0 0x0C15 [e.1, t1 - t0]
      if e.2.desc.action ≠ .remote then s1.fireLimited e.1 (q t) t
      else if s1.armRoom e.1 (winOf t1) then s1.sendArm e.1 e.2.tFire (winOf t1)
      else s1.updEnt e.1 fun a => { a with skipped := true, win := none }) s

/-- The predicted edge in ns of an ARMED local entry at tick `t`, where its source moves towards it. -/
def State.localEdge (s : State) (n t : Nat) : Option Rat :=
  let a := s.ent n
  let (c, v) := s.track a.desc.coord t
  let d := wrapDist a.pos c (if s.isRot a.desc.coord then 32 else 48)
  let toward := (decide (0 < v) && decide (0 < d) && decide (a.desc.dir ≠ 2)) || (decide (v < 0) && decide (d < 0) && decide (a.desc.dir ≠ 1))
  if toward && s.coordValid a.desc.coord then some (q t + d / v) else none

/-- The result of cancelling one entry: cancelled, late, and whether its station's epoch advances. -/
def State.cancelEnt (s : State) (n t : Nat) (newEp : RemoteTgt → Nat) : State × Nat × Nat :=
  let a := s.ent n
  let r := a.desc.remote
  let tc := t * 5 / 2
  match a.state with
  | .armed =>
    if a.desc.action = .remote then (s.updEnt n fun x => { x with state := .cancelled, win := none }, 1, 0)
    else
      match s.localEdge n t with
      | some x =>
        let edge := x * 5 / 2 + q a.desc.lfix
        if edge < q (tc + 100) then
          let late := (q (tc + 100) - edge).floor.toNat
          let s1 := s.fireLimited n x (max t (x.ceil - 1).toNat)
          let s2 := s1.updEnt n fun y => { y with state := .fired }
          ((s2.record .csc 0 0x0C18 [n, 0xFFFF, late, edge.floor.toNat % 2 ^ 32]).updCsc fun y => { y with late := wrapInc y.late }, 0, 1)
        else (s.updEnt n fun y => { y with state := .cancelled }, 1, 0)
      | none => (s.updEnt n fun y => { y with state := .cancelled }, 1, 0)
  | .sent =>
    let bs := (s.sta r.port r.station).bs
    if tc + bs ≤ a.tFire then
      ((s.updEnt n fun y => { y with state := .cancelled }).record .csc 0 0x0C17 [n, r.ps, newEp r, (tc + bs) % 2 ^ 32], 1, 0)
    else
      let late := tc + bs - a.tFire
      ((((s.updEnt n fun y => { y with state := .late }).record .csc 0 0x0C18 [n, r.ps, late, a.tFire % 2 ^ 32]).updCsc fun y =>
        { y with late := wrapInc y.late }), 0, 1)
  | _ => (s, 0, 0)

/-- A CANCEL of a group accepted at tick `t` (R195, R205): result code and entries affected; of a group that is not ARMED, none. -/
def State.cancelReq (s : State) (g t : Nat) : State × Nat × Nat :=
  if !s.groupArmed g then (s, 0, 0)
  else
    let ents := s.groupEnts g
    let tgts := ((ents.filter fun n => decide ((s.ent n).state = .sent)).map fun n => (s.ent n).desc.remote)
    let pss := (tgts.map fun r => (r.port, r.station)).eraseDups
    let newEp := fun (r : RemoteTgt) => (s.epoch r.port r.station r.slot + 1) % 256
    let slot := g % 16
    let tc := t * 5 / 2
    let (s1, c, l) := ents.foldl (fun (acc : State × Nat × Nat) n =>
      let (s', c, l) := acc.1.cancelEnt n t newEp
      (s', acc.2.1 + c, acc.2.2 + l)) (s, 0, 0)
    let s2 := pss.foldl (fun s x =>
      let ep := (s.epoch x.1 x.2 slot + 1) % 256
      s.updCsc fun y =>
        { y with epochs := Tab.put 0 y.epochs ((x.1 * 128 + x.2) * 16 + slot) ep,
                 waits := y.waits ++ [{ port := x.1, station := x.2, slot := slot, epoch := ep, teff := tc + (s.sta x.1 x.2).bs }] }) s1
    let ports := (pss.map (·.1)).eraseDups
    let s3 := ports.foldl (fun s p => s.updPort_ p fun x =>
      { x with outEpochs := x.outEpochs ++ [{ slot := slot, tc := tc, stations := (pss.filter fun y => decide (y.1 = p)).map (·.2) }] }) s2
    let s4 := s3.record .csc 0 0x0C11 [g, c, l]
    let s5 := if l ≠ 0 then s4.groupEvt g else s4
    (s5.groupSettle g, if l ≠ 0 then errCancelLate else 0, c + l)

/-- CSC_ARM_STAT of a request through CSC_ARM_CMD. -/
def State.armStat (x : State × Nat × Nat) (g : Nat) : State :=
  let (s, e, n) := x
  s.updCsc fun y => { y with armGroup := g, armResult := e, armCount := n }

/-- CSC_ARM, CSC_ARM_REL, CSC_CANCEL (R195): accepted at tick `t`. -/
def execCscArm (p : Principal) (g : Fin 256) (t : Nat) (s : State) : Out :=
  .next (s.gated .csc 0x108 .wo p (word g.val) fun s => State.armStat (s.armReq g.val false none false (t * 5 / 2)) g.val)
def execCscArmRel (p : Principal) (g : Fin 256) (t : Nat) (s : State) : Out :=
  .next (s.gated .csc 0x108 .wo p (word (g.val + 256)) fun s => State.armStat (s.armReq g.val true none false (t * 5 / 2)) g.val)
def execCscCancel (p : Principal) (g : Fin 256) (t : Nat) (s : State) : Out :=
  .next (s.gated .csc 0x108 .wo p (word (g.val + 512)) fun s => State.armStat (s.cancelReq g.val t) g.val)

/-- An event of a station's A_IN frame (R313): type, slot, epoch, output and the low 32 bits of its time. -/
def State.stationEvent (s : State) (p k typ slot ep out tLow : Nat) : State :=
  let hit := (s.csc.ents.find? fun e => e.2.valid && decide (e.2.desc.action = .remote) && decide (e.2.desc.remote.port = p) &&
    decide (e.2.desc.remote.station = k) && decide (e.2.desc.remote.slot = slot) && decide (e.2.epoch = ep) &&
    decide (e.2.desc.remote.output = out) && decide (e.2.tFire % 2 ^ 32 = tLow) &&
    (decide (e.2.state = .sent) || decide (e.2.state = .late))).map (·.1)
  match typ, hit with
  | 5, _ => s.updCsc fun x => { x with waits := x.waits.filter fun w =>
      !(decide (w.port = p) && decide (w.station = k) && decide (w.slot = slot) && decide (w.epoch = ep)) }
  | 2, some n =>
    let a := s.ent n
    let late := decide (a.state = .late)
    let s1 := (s.updEnt n fun x => { x with state := if late then .lateDone else .fired }).updCsc fun x =>
      { x with groups := Tab.upd {} x.groups a.desc.group fun y => { y with fired := y.fired + 1 } }
    (s1.record .csc 0 0x0C19 [n, a.desc.remote.ps, b2n late, a.tFire % 2 ^ 32]).groupSettle a.desc.group
  | 3, some n | 4, some n =>
    let a := s.ent n
    ((s.updEnt n fun x => { x with state := .dropped }).record .csc 0 0x0C1A [n, a.desc.remote.ps, typ]).groupSettle a.desc.group
  | _, _ => s

/-- CANCEL_UNCONFIRMED (R205): a station has not confirmed an epoch within two windows after t_eff. -/
def execCancelUnconfirmed (port : Fin 8) (sta : Fin 128) (slot : Fin 16) (s : State) : Out :=
  .next (
    match s.csc.waits.find? (fun w => decide (w.port = port.val) && decide (w.station = sta.val) && decide (w.slot = slot.val)) with
    | some w =>
      (s.updCsc fun x => { x with waits := x.waits.erase w }).record .csc 0 0x0C1B [port.val * 128 + sta.val, slot.val, w.epoch]
    | none => s)

/-- SENT and LATE entries of a port (CSC_PORT_PEND). -/
def State.portPend (s : State) (p : Nat) : Nat :=
  (s.csc.ents.filter fun e => e.2.valid && decide (e.2.desc.action = .remote) && decide (e.2.desc.remote.port = p) &&
    (decide (e.2.state = .sent) || decide (e.2.state = .late))).length

/-- CSC_EVT_CLEAR (R207). -/
def execCscEvtClear (p : Principal) (i : Fin 8) (m : Word) (s : State) : Out :=
  .next (s.gated .csc (0x400 + 4 * i.val) .w1c p m fun s => s.updCsc fun x => { x with evt := Tab.upd 0 x.evt i.val fun w => w1c w m })

/-! ### Commits and RUN (R185, R189, R206) -/

/-- The check of CSC's shadows (R185, R189): 0 where it passes. -/
def State.cscCommitCheck (s : State) : Nat :=
  let sh := fun c => s.shRegAt R.CSC_COORD (4 * (c - 1))
  let typ := fun c => bits (sh c) 2 0
  let cs := (List.range 32).filter fun c => decide (c ≠ 0)
  let count := fun t => (cs.filter fun c => decide (typ c = t)).length
  let fmt := cs.all fun c =>
    let cpr := (s.shRegAt R.CSC_CPR (4 * c)).toNat
    decide (typ c ≤ 5) && (if typ c = 3 then decide (1 ≤ cpr) && decide (cpr ≤ 2 ^ 31) else decide (cpr = 0)) &&
    (decide (typ c ≠ 5) || decide (bits (sh c) 11 4 ≤ 11))
  let inUse := s.csc.ents.any fun e => e.2.valid && (decide (e.2.state = .armed) || decide (e.2.state = .sent)) && decide (e.2.desc.coord ≠ 0) &&
    decide (bits (sh e.2.desc.coord) 11 0 ≠ bits (s.coordW e.2.desc.coord) 11 0)
  let (lane, _, _) := s.admitAll s.staDesc s.remoteTgts (fun p => bits (s.shRegAt R.CSC_PORT_CFG (4 * p)) 20 16) s.cycleW
  if !fmt then errCommitRefused
  else if inUse then errCoordInUse
  else if 0 < count 1 ∨ 16 < count 2 ∨ 4 < count 3 ∨ 2 < count 4 ∨ 9 < count 5 then errCoordLimit
  else lane

/-- CSC's shadows apply (R189): tracking of a changed coordinate restarts as on a return to VALID. -/
def State.cscCommitApply (s : State) : State :=
  let changed := (List.range 32).filter fun c => decide (c ≠ 0) &&
    (decide (s.shRegAt R.CSC_COORD (4 * (c - 1)) ≠ s.coordW c) || decide (s.shRegAt R.CSC_CPR (4 * c) ≠ s.regAt R.CSC_CPR (4 * c)))
  let s1 := s.applyShadows .csc
  let s2 := changed.foldl (fun s c => (s.updCoord c fun k => { valid := k.valid, resume := k.resume }).judgeCoord c s.tick) s1
  let s3 := changed.foldl (fun s c => s.updCoord c fun k => { k with resume := s.tick }) s2
  (s3.readmit s3.remoteTgts s3.armSlots).2.2

/-- RUN = 0 cancels every group that is still to be cancelled at the base-frame boundary, and what the cancel ends is DISARMED; LATE entries stay
until their station answers, and RUNNING clears then (R206, Table CSC-4). -/
def State.cscRunStop (s : State) : State :=
  let open_ := fun (a : Act) => decide (a.state = .sent) || decide (a.state = .late)
  let groups := ((s.csc.ents.filter fun e => decide (e.2.state = .armed) || decide (e.2.state = .sent)).map fun e => e.2.desc.group).eraseDups
  let s1 := groups.foldl (fun s g => (s.cancelReq g s.tick).1) s
  let s2 := s1.updCsc fun x => { x with ents := Tab.mapAll {} (fun a => if open_ a then a else { a with state := .disarmed, win := none, skipped := false }) x.ents }
  if s2.csc.ents.any fun e => open_ e.2 then s2 else s2.updHd .csc fun h => { h with running := false }

end Sys2Proof.Machine
end

