-- ==== Sys2Proof/Machine/Tim.lean ====
section
/-!
DEFINITION. The time unit: the servo, steps and sets of network time, transmit stamps (R346–R352, R355, R360–R363).
-/

namespace Sys2Proof.Machine

/-- TIM error codes (Table TIM-3). -/
def errSrcInvalid : Nat := 0x20
def errSetRefused : Nat := 0x21
def errSetRange : Nat := 0x22

/-- Change the time unit. -/
def State.updTim (s : State) (f : Tim → Tim) : State := { s with tim := f s.tim }

/-- Round a quotient half away from zero (R346). The divisor is positive. -/
def roundAway (n : Int) (d : Nat) : Int :=
  if n < 0 then -((2 * (-n) + (d : Int)) / (2 * (d : Int))) else (2 * n + (d : Int)) / (2 * (d : Int))

/-- TIM_CFG.SRC: 0 FREE, 1 PTP, 2 FABRIC. -/
def State.timSrc (s : State) : Nat := bits (s.reg R.TIM_CFG) 1 0

/-- T_s in ns (R348). -/
def State.servoTs (s : State) : Nat :=
  1000 * (if s.timSrc = 2 then (s.reg R.TIM_FAB_INT).toNat else (s.reg R.TIM_SRV_INT).toNat)

/-- STEP_THR, LOCK_THR, LOCK_N and LOST_LIM. -/
def State.stepThr (s : State) : Nat := (s.reg R.TIM_SRV_STEP).toNat
def State.lockThr (s : State) : Nat := bits (s.reg R.TIM_SRV_LOCK) 15 0
def State.lockN (s : State) : Nat := bits (s.reg R.TIM_SRV_LOCK) 19 16
def State.lostLim (s : State) : Nat := bits (s.reg R.TIM_COARSE_CFG) 31 16

/-- The nominal increment, 2.5 ns in 2^−32 ns. -/
def incNominal : Int := 0x280000000

/-- INC for a frequency correction in ppb (R346). -/
def incOf (f : Int) : Nat := (incNominal + roundAway (f * 1073741824) 100000000).toNat

/-- Set F, clamped to ADJ_MAX, and INC with it. -/
def State.setFreq (s : State) (f : Int) : State :=
  let m : Int := (s.reg R.TIM_SRV_ADJMAX).toNat
  let g := clamp (-m) m f
  s.updTim fun t => { t with freq := g, inc := incOf g }

/-- F from a correction in 1/256 ns (R349). -/
def State.freqFrom (s : State) (corr : Int) : State := s.setFreq (roundAway (-corr * 1000000000) (256 * max 1 s.servoTs))

/-- The servo changes state: STATE_CHANGE and STATE_EVT. Entry to LOCKED clears TIME_LOST (R361). -/
def Servo.code : Servo → Nat
  | .freerun => 0 | .acquire => 1 | .locking => 2 | .locked => 3 | .holdover => 4
def State.servoTo (s : State) (st : Servo) : State :=
  let old := s.tim.st
  let s1 := s.updTim fun t => { t with st := st, cnt := 0, lost := t.lost && decide (st ≠ .locked) }
  if old = st then s1
  else (s1.record .tim 0 0x0610 [old.code, st.code, (s.tim.lastOfs % 2 ^ 32).toNat]).irq .tim 8

/-- The step of an offset in ns: whole microseconds (R350). -/
def stepOf (o : Int) : Int := -(roundAway o 1000) * 1000

/-- A step of an offset waits for the next base-frame boundary; the result is the residual. -/
def State.askStep (s : State) (o : Int) : State × Int := (s.updTim fun t => { t with stepPend := some (stepOf o) }, o + stepOf o)

/-- The proportional-integral step of R349. -/
def State.servoPi (s : State) (o : Int) : State :=
  let kp : Int := bits (s.reg R.TIM_SRV_GAIN) 15 0
  let ki : Int := bits (s.reg R.TIM_SRV_GAIN) 31 16
  let i := s.tim.iAcc + ki * o
  (s.updTim fun t => { t with iAcc := i }).freqFrom (kp * o + i)

/-- A measurement in LOCKING, which toward LOCKED counts consecutive offsets within LOCK_THR (Table TIM-1, R362). -/
def State.measLocking (s : State) (o : Int) : State :=
  if s.stepThr < o.natAbs then ((s.askStep o).1.servoTo .locking).freqFrom s.tim.iAcc
  else
    let s1 := s.servoPi o
    let n := if o.natAbs ≤ s.lockThr then s.tim.cnt + 1 else 0
    if s.lockN ≤ n ∧ !s.clk.timeDeg ∧ 0 < n then s1.servoTo .locked else s1.updTim fun t => { t with cnt := n }

/-- SERVO_MEASUREMENT (R349, R351, R352, R360, R361). -/
def State.measure (s : State) (o : Int) : State :=
  let t := s.tim
  if t.stepPend.isSome ∨ t.st = .freerun then s
  else
    let far := t.firstAfter && decide (s.lostLim * 1000 < o.natAbs)
    let s0 := s.updTim fun t => { t with lastOfs := satS 32 o, unc := 0, firstAfter := false, lostRst := t.lostRst || far }
    let s1 := if far then s0.record .tim 0 0x0614 [t.unc, 2] else s0
    let thr := s.stepThr
    match t.st with
    | .freerun => s1
    | .acquire =>
      match t.r1 with
      | none =>
        if thr < o.natAbs then let (s2, r) := s1.askStep o; s2.updTim fun t => { t with r1 := some r }
        else s1.updTim fun t => { t with r1 := some o }
      | some r1 =>
        let i := (o - r1) * 256
        let kp : Int := bits (s.reg R.TIM_SRV_GAIN) 15 0
        let (s2, r2) := if thr < o.natAbs then s1.askStep o else (s1, o)
        ((s2.updTim fun t => { t with iAcc := i, r1 := none }).freqFrom (kp * r2 + i)).servoTo .locking
    | .locking => s1.measLocking o
    | .holdover => (s1.servoTo .locking).measLocking o
    | .locked =>
      if thr < o.natAbs then ((s1.askStep o).1.servoTo .locking).freqFrom t.iAcc
      else
        let s2 := s1.servoPi o
        if o.natAbs ≤ s.lockThr then s2.updTim fun t => { t with cnt := 0 }
        else if t.cnt = 0 then s2.updTim fun t => { t with cnt := 1 } else s2.servoTo .locking

/-- TIME_DEGRADED sets: a LOCKED servo leaves LOCKED at once (R362). -/
def State.timDegraded (s : State) : State := if s.tim.st = .locked then s.servoTo .locking else s

/-- TIM_OFS_SUBMIT (R348): TIM_OFS_HI submits the offset with the word that TIM_OFS_LO holds. -/
def execTimOfsSubmit (p : Principal) (hi : Word) (s : State) : Out :=
  .next (s.gated .tim 0x138 .wo p hi fun s =>
    if s.timSrc ≠ 1 then s.err .tim errSrcInvalid
    else s.measure (sext 64 ((s.reg R.TIM_OFS_LO).toNat + 2 ^ 32 * hi.toNat)))

/-- TIM_SET (R352): only in FREERUN, a multiple of 1000 ns; it applies at the next base-frame boundary. -/
def execTimSet (p : Principal) (hi : Word) (s : State) : Out :=
  .next (s.gated .tim 0x144 .wo p hi fun s =>
    let v := (s.reg R.TIM_SET_LO).toNat + 2 ^ 32 * hi.toNat
    if s.tim.st ≠ .freerun then s.err .tim errSetRefused
    else if v % 1000 ≠ 0 then s.err .tim errSetRange
    else s.updTim fun t => { t with setPend := some v })

/-- STEP (Table TIM-4) with STEP_EVT. -/
def State.stepRecord (s : State) (d : Int) (cause : Nat) : State :=
  let n := (d % 2 ^ 64).toNat
  (s.record .tim 0 0x0611 [n % 2 ^ 32, n / 2 ^ 32, cause]).irq .tim 9

/-- Network time moved other than by its ticks (R201, R350, R382): the CSC entries that a forward move skipped fire, and every REDUCE interval in
progress carries TIME_STEP. CE, RSQ and HRC's weights follow RT ticks and boundaries of the new time by themselves. -/
def State.timeMoved (s : State) (t0 t1 : Nat) : State :=
  let s1 := s.cscStepped t0 t1
  { s1 with hrc := { s1.hrc with pts := Tab.mapAll {} (fun h => { h with step := true }) s1.hrc.pts } }

/-- TIM_SET_APPLY (R352): the boundary takes the submitted time; a pending step is discarded. -/
def State.timSetApply (s : State) : State :=
  match s.tim.setPend with
  | none => s
  | some v =>
    let d : Int := (v : Int) - s.now
    ((s.updTim fun t => { t with net := v, frac := 0, setPend := none, stepPend := none, unc := 0, lost := false, steps := wrapInc t.steps }).stepRecord d 1).timeMoved s.now v

/-- TIM_PHASE_STEP (R350, R352): the pending step applies at the base-frame boundary, unless a TIM_SET applies there. -/
def execTimPhaseStep (s : State) : Out :=
  .next (
    if s.tim.setPend.isSome then s.timSetApply
    else
      match s.tim.stepPend with
      | none => s
      | some d =>
        let n := ((s.now : Int) + d).toNat % 2 ^ 64
        ((s.updTim fun t => { t with net := n, stepPend := none, steps := wrapInc t.steps }).stepRecord d 0).timeMoved s.now n)

/-- SERVO_HOLDOVER (R351): no measurement for HOLD_N × T_s. -/
def execServoHoldover (s : State) : Out :=
  .next (if s.tim.st = .locking ∨ s.tim.st = .locked then (s.freqFrom s.tim.iAcc).servoTo .holdover else s)

/-- TIM_NOW_READ (R347). -/
def execTimNowRead (s : State) : Out :=
  .next (if !s.present .tim then { s with out := 0xFFFFFFFF }
    else { (s.updTim fun t => { t with hiLatch := s.now / 2 ^ 32 % 2 ^ 32 }) with out := s.now % 2 ^ 32 })

/-- A port's transmit stamps. -/
def State.txPort (s : State) (p : Nat) : TxPort := Tab.get {} s.tim.tx p
def State.updTx (s : State) (p : Nat) (f : TxPort → TxPort) : State := s.updTim fun t => { t with tx := Tab.upd {} t.tx p f }

/-- A transmit stamp enters a port's queue, or is lost (R355). -/
def State.pushStamp (s : State) (p : Nat) (x : TxStamp) : State :=
  let q := (s.txPort p).queue
  if q.length < 16 then
    let s1 := s.updTx p fun y => { y with queue := y.queue ++ [x] }
    if q = [] then s1.irq .tim 10 else s1
  else ((s.updTx p fun y => { y with ovf := true, lost := satInc 255 y.lost }).record .tim 0 0x0612 [p, x.id]).irq .tim 11

/-- TXTS_INFO_READ (R355): the head entry is read and its stamp latched. A count of 16 does not fit its field: it reads a free value
(log 64). -/
def execTxtsInfoRead (p : Fin 8) (s : State) : Out :=
  .next (
    if !s.present .tim then { s with out := 0xFFFFFFFF }
    else
      let q := (s.txPort p.val).queue
      let (k, s1) := if q.length < 16 then (0, s) else s.draw
      let n := if q.length < 16 then q.length else (Config.freeWord k).toNat % 16
      match q with
      | [] => { s1 with out := 0 }
      | x :: _ => { (s1.updTx p.val fun y => { y with latched := x.stamp }) with out := x.id + x.typ * 2 ^ 16 + 2 ^ 24 + n * 2 ^ 25 })

/-- TXTS_POP (R355). -/
def execTxtsPop (p : Principal) (n : Fin 8) (s : State) : Out :=
  .next (s.gated .tim (0x210 + 0x20 * n.val) .w1s p 1 fun s => s.updTx n.val fun y => { y with queue := y.queue.drop 1 })

/-- TXTS_OVF_CLEAR. -/
def execTxtsOvfClear (p : Principal) (n : Fin 8) (s : State) : Out :=
  .next (s.gated .tim (0x214 + 0x20 * n.val) .w1c p 1 fun s => s.updTx n.val fun y => { y with ovf := false })

/-- LOST_RST_CLEAR (R361). -/
def execLostRstClear (p : Principal) (s : State) : Out :=
  .next (s.gated .tim 0x104 .w1c p 0x80 fun s => s.updTim fun t => { t with lostRst := false })

/-- UNC_LIMIT_EXCEEDED (R361): while the coarse counter carries time, its uncertainty in µs passes LOST_LIM. -/
def execUncLimitExceeded (unc : Nat) (s : State) : Out :=
  .next (
    if s.tim.coarse ∧ s.lostLim < unc then
      let s1 := s.updTim fun t => { t with unc := min 0xFFFFFFFF unc, lost := true }
      if s.tim.lost then s1 else s1.record .tim 0 0x0614 [min 0xFFFFFFFF unc, 1]
    else s)

/-- The coarse counter takes over when CLK_RT stops (R360), with UNC = 31 µs as no time has elapsed; after SRC_FAIL, TIME_LOST is set (R452). -/
def State.coarseEnter (s : State) : State :=
  if s.tim.coarse then s
  else
    let s1 := (s.updTim fun t => { t with coarse := true, unc := 31 }).record .tim 0 0x0615 [1, 31]
    if s.tim.lost ∨ (s.clk.srcOk ∧ 31 ≤ s.lostLim) then s1 else (s1.updTim fun t => { t with lost := true }).record .tim 0 0x0614 [31, 1]

/-- UNC after an elapsed time in ns (R360), in µs rounded up. -/
def State.uncAfter (s : State) (elapsed : Nat) : Nat :=
  min 0xFFFFFFFF (31 + (bits (s.reg R.TIM_COARSE_CFG) 15 0 * elapsed + 999999999) / 1000000000)

/-- COARSE_HANDOVER (R360): the fine counter is loaded from the coarse counter, which shows `net`, after `elapsed` ns. -/
def State.coarseLeave (s : State) (net elapsed : Nat) : State :=
  if !s.tim.coarse then s
  else
    let u := s.uncAfter elapsed
    let lose := decide (s.lostLim < u) && !s.tim.lost
    let s1 := s.updTim fun t => { t with coarse := false, net := net, frac := 0, unc := u, lost := t.lost || lose }
    let s2 := if lose then s1.record .tim 0 0x0614 [u, 1] else s1
    s2.record .tim 0 0x0615 [0, u]

/-- The servo at a PD_RT power-up or a full device reset (Table TIM-1): ACQUIRE where SRC is not FREE, with I restored. -/
def State.servoRestart (s : State) : State :=
  if s.timSrc = 0 then s.updTim fun t => { t with st := .freerun, r1 := none, cnt := 0 }
  else (s.updTim fun t => { t with r1 := none }).servoTo .acquire

/-! ### Commits (R348, R351) -/

/-- The check of TIM's shadows: PTP needs a port in Ethernet mode; the fabric master, the active gateway (R357), does not follow the fabric. -/
def State.timCommitCheck (s : State) : Nat :=
  let w := s.shReg R.TIM_CFG
  let src := bits w 1 0
  if src = 3 then errCommitRefused
  else if src = 1 ∧ !(bit (s.lneCfg (bits w 4 2)) 0) then errSrcInvalid
  else if src = 2 ∧ s.ave.role = .active then errSrcInvalid
  else 0

/-- TIM's shadows apply (Table TIM-1). -/
def State.timCommitApply (s : State) : State :=
  let s1 := s.applyShadows .tim
  if s1.timSrc = 0 then s1.servoTo .freerun
  else if s.tim.st = .freerun then (s1.updTim fun t => { t with r1 := none }).servoTo .acquire else s1

end Sys2Proof.Machine
end

