-- ==== Sys2Proof/Machine/Ave.lean ====
section
/-!
DEFINITION. The Avenue ports and the Junction (R329–R345): link states, frames and injection, routing, subscriptions and publication,
discovery and roles.
-/

namespace Sys2Proof.Machine

/-! ### Error codes (Table AVE-9) -/

def errAdmitClassA : Nat := 0x20
def errAdmitLink : Nat := 0x21
def errNoRoute : Nat := 0x22
def errPubFull : Nat := 0x23
def errPeerKind : Nat := 0x24
def errRecBudget : Nat := 0x25
def errNotGateway : Nat := 0x26
def errIdConflict : Nat := 0x27
def errGwConflict : Nat := 0x28
def errTakeoverRefused : Nat := 0x29
def errAveInjLocked : Nat := 0x2A
def errAveInjPending : Nat := 0x2B

/-! ### Access -/

/-- The ports that are UP. -/
def State.upPorts (s : State) : List Nat := (List.range 6).filter fun p => decide ((s.aport p).st = .up)

/-- AVE_CFG: GW_MODE and B_PERIOD in µs. -/
def State.gwMode (s : State) : Nat := bits (s.reg R.AVE_CFG) 1 0
def State.bPeriod (s : State) : Nat := bits (s.reg R.AVE_CFG) 25 16 * 10

/-- Whether this device answers to an ID. -/
def Ave.owns (a : Ave) (d : Nat) : Bool := (a.assigned && decide (d = a.devId)) || (a.alias0 && decide (d = 0))

/-- The code of a role (Table AVE-8). -/
def Role.code : Role → Nat
  | .member => 0 | .active => 1 | .standby => 2 | .left => 3

/-- The role of a code. -/
def roleOf : Nat → Role
  | 1 => .active | 2 => .standby | 3 => .left | _ => .member

/-- AVE_STAT.RESULT, with BLK_ERR for an error. -/
def State.aveResult (s : State) (e : Nat) : State :=
  let s1 := s.updAve fun a => { a with result := e }
  if e = 0 then s1 else s1.err .ave e

/-- A change of role with ROLE_EVT. -/
def State.roleTo (s : State) (r : Role) : State := (s.updAve fun a => { a with role := r }).irq .ave 10

/-- ROLE_CHANGE (Table AVE-10). Its causes carry no codes in the spec: the cause is a free value (log 71). -/
def State.roleChange (s : State) (r : Role) : State :=
  let (k, s1) := s.draw
  (s1.record .ave 0 0x1216 [s.ave.role.code, r.code, (Config.freeWord k).toNat]).roleTo r

/-! ### Link state and routing (R335–R337) -/

/-- Flood a link state on every port that is UP but one. -/
def State.flood (s : State) (except : Option Nat) (b : ABody) : State :=
  s.upPorts.foldl (fun s p => if some p = except then s else s.aveSendPort p { dst := 0x3F, src := s.ave.devId, body := b }) s

/-- The state of a port of this device enters the link-state table and is flooded (R336). An advertisement names the device by its ID, so a
device without one floods nothing (log 72). -/
def State.advertise (s : State) (p : Nat) : State :=
  if !s.ave.assigned then s
  else
    let x := s.aport p
    let up := decide (x.st = .up)
    let n := (s.ave.lsaSeq + 1) % 65536
    let own := if s.ave.alias0 then [s.ave.devId, 0] else [s.ave.devId]
    let s1 := s.updAve fun a =>
      { a with lsaSeq := n, lst := own.foldl (fun t d => Tab.put {} t (d * 8 + p) { up := up, peer := x.peer, seq := n }) a.lst }
    own.foldl (fun s d => s.flood none (.lsa d p up x.peer n)) s1

/-- The links of the fabric as (device, port, peer). -/
def Ave.edges (a : Ave) : List (Nat × Nat × Nat) :=
  (a.lst.filter fun e => e.2.up).map fun e => (e.1 / 8, e.1 % 8, e.2.peer)

/-- Hops to a destination, by breadth-first search against the links' direction. -/
def hopsGo (es : List (Nat × Nat × Nat)) : Nat → Nat → List Nat → Tab (Option Nat) → Tab (Option Nat)
  | 0, _, _, t => t
  | n + 1, k, fr, t =>
    let nxt := (((es.filter fun e => fr.contains e.2.2 && (Tab.get none t e.1).isNone).map (·.1))).eraseDups
    if nxt = [] then t else hopsGo es n (k + 1) nxt (nxt.foldl (fun t d => Tab.put none t d (some (k + 1))) t)
def hopsTo (es : List (Nat × Nat × Nat)) (d : Nat) : Tab (Option Nat) := hopsGo es 63 0 [d] [(d, some 0)]

/-- The devices that a frame passes from `v` to a destination when every Junction uses its primary port (R335). -/
def pathGo (es : List (Nat × Nat × Nat)) (h : Tab (Option Nat)) : Nat → Nat → List Nat
  | 0, v => [v]
  | n + 1, v =>
    match Tab.get none h v with
    | some (k + 1) =>
      let steps := es.filter fun e => decide (e.1 = v) && decide (Tab.get none h e.2.2 = some k)
      match steps.foldl (fun best e => match best with
          | some b => if e.2.1 < b.1 then some (e.2.1, e.2.2) else some b
          | none => some (e.2.1, e.2.2)) (none : Option (Nat × Nat)) with
      | some b => v :: pathGo es h n b.2
      | none => [v]
    | _ => [v]

/-- The best port of some candidates (port, hops): fewest hops, then the lowest port. -/
def bestPort (l : List (Nat × Nat)) : Option (Nat × Nat) :=
  l.foldl (fun best c => match best with
    | some b => if c.2 < b.2 then some c else some b
    | none => some c) none

/-- The computed entry of a destination (R335). The peer of a port stands for its links in the table. -/
def State.rtEntry (s : State) (es : List (Nat × Nat × Nat)) (d : Nat) : Rt :=
  if s.ave.owns d then { pri := 6, valid := true }
  else
    let h := hopsTo es d
    let cands := s.upPorts.filterMap fun p => (Tab.get none h (s.aport p).peer).map fun k => (p, k + 1)
    match bestPort cands with
    | none => {}
    | some (p, k) =>
      match bestPort (cands.filter fun c => decide (c.1 ≠ p)) with
      | none => { pri := p, valid := true, hops := k }
      | some (q, m) =>
        { pri := p, alt := q, valid := true, hops := k, altHops := m,
          lfa := !((pathGo es h 64 (s.aport q).peer).contains s.ave.devId) }

/-- The table recomputed from the link-state table (R335). -/
def State.rtCompute (s : State) : Tab Rt :=
  let es := s.ave.edges
  (List.range 64).foldl (fun t d => Tab.put {} t d (s.rtEntry es d)) []

/-- LFA_SWITCH (R336): entries whose primary port is not UP and whose alternate is loop-free use it. -/
def State.lfaSwitch (s : State) : State :=
  s.updAve fun a => { a with rt := (List.range 64).foldl (fun t d => Tab.upd {} t d fun r =>
    { r with usingAlt := r.valid && r.lfa && decide (r.pri < 6) && decide ((s.aport r.pri).st ≠ .up) }) a.rt }

/-- The points of a publisher. -/
def State.peerPoints (s : State) (dev : Nat) : List Nat :=
  s.pointsWhere fun e => decide (e.srcType = .ave) && decide (e.srcRef / 2 ^ 19 % 64 = dev)

/-- The publishers whose route is lost leave their points COMM_LOST (R338). -/
def State.lostPeers (s : State) : State :=
  (s.pointsWhere fun e => decide (e.srcType = .ave) && !(s.route (e.srcRef / 2 ^ 19 % 64)).valid).foldl (fun s i => s.markPoint i markCommLost) s

/-- The port toward device 0 and the device there: the fabric time's parent (R357). -/
def State.timeParent (s : State) : Option Nat :=
  let r := s.route 0
  if r.valid && decide (r.pri < 6) then some r.pri else none

/-- The installation of a computed table at a base-frame boundary (R335–R337, R357). -/
def State.rtInstall (s : State) : State :=
  match s.ave.rtNext with
  | none => s
  | some t =>
    let s1 := (s.updAve fun a => { a with rt := t, rtNext := none, change := none }).lfaSwitch.lostPeers
    let s2 := match s.ave.change with
      | some (d, p, t0) =>
        let us := (s.now - t0) / 1000
        let bad := (s.ave.flows.filter fun f : AFlow => !f.protected_).length
        ((s1.record .ave 0 0x1212 [d, p, us, bad]).updAve fun a =>
          { a with rerouteDev := d, reroutePort := p, rerouteUs := min 65535 us, reroutes := wrapInc a.reroutes }).irq .ave 9
      | none => s1
    match s2.timeParent with
    | some p =>
      let peer := (s2.aport p).peer
      if s2.timSrc = 2 ∧ (s2.tim.parent.dev ≠ peer ∨ s2.tim.parent.port ≠ p) then
        (s2.record .tim 0 0x0613 [s2.tim.parent.dev, peer, (s2.route 0).hops]).updTim fun t =>
          { t with parent := { dev := peer, port := p, hops := (s2.route 0).hops } }
      else s2
    | none => s2

/-- ROUTE_RECOMPUTE_DONE (R335, R336): the table waits for the next base-frame boundary. -/
def execRouteRecomputeDone (s : State) : Out :=
  .next (let t := s.rtCompute; (s.updAve fun a => { a with rtNext := some t }).lfaSwitch)

/-- A probe on a port. The destination of a probe to a device without an ID is a free value. -/
def State.probePort (s : State) (p : Nat) : State :=
  let (k, s1) := s.draw
  s1.aveSendPort p { dst := (Config.freeWord k).toNat % 64, src := s.ave.devId, body := .disc false 0 p s.ave.role.code }

/-- A probe on every port that is UP. -/
def State.probe (s : State) : State := s.upPorts.foldl State.probePort s

/-! ### Ports (R330, Table AVE-1) -/

/-- AVE_TRAINING_DONE (R330): block lock and eight HELLO blocks from `peer`'s port `pp` in role `role`, with a delay of `dly` ns. The
ACTIVE gateway probes what linked up (R334). -/
def execAveTrainingDone (p : Fin 6) (peer : Fin 64) (pp : Fin 6) (role : Fin 4) (dly : Nat) (s : State) : Out :=
  .next (
    if (s.aport p.val).st ≠ .training then s
    else
      let s1 := (s.updAport p.val fun x => { x with st := .up, peer := peer.val, peerPort := pp.val, dly := min 65535 dly }).record .ave p.val 0x1210
        [p.val, peer.val, pp.val, dly]
      let s2 := (s1.irq .ave 8).advertise p.val
      if s.ave.discBusy ∧ role.val = 1 then (s2.updAve fun a => { a with discBusy := false }).aveResult errGwConflict
      else if s.ave.role = .active then s2.probePort p.val
      else s2)

/-- AVE_HELLO_SEND (R330). -/
def execAveHelloSend (p : Fin 6) (s : State) : Out :=
  .next (
    if (s.aport p.val).st = .off then s
    else s.updAport p.val fun x => { x with hello := some (s.ave.devId, p.val, s.ave.role.code) })

/-- A link goes DOWN `ns` after it failed (R330, R336). A failure during injection has cause 2 (log 72). -/
def State.linkDown (s : State) (p cause ns : Nat) : State :=
  let x := s.aport p
  if x.st ≠ .up then s
  else
    let c := if x.inj.en then 2 else cause
    let s1 := (s.updAport p fun x => { x with st := .down }).record .ave p 0x1211 [p, x.peer, c]
    let s2 := ((s1.irq .ave 8).raiseNoCode .ave p .warn).lfaSwitch.advertise p
    s2.updAve fun a => { a with change := some (a.devId, p, s.now - ns) }

/-- AVE_HELLO_TIMEOUT (R330): four HELLO blocks are missing. -/
def execAveHelloTimeout (p : Fin 6) (s : State) : Out := .next (s.linkDown p.val 0 4000)

/-- AVE_LOCK_LOSS (R330). -/
def execAveLockLoss (p : Fin 6) (s : State) : Out := .next (s.linkDown p.val 1 1000)

/-- AVE_BLOCK_LOCK_REGAINED (Table AVE-1). -/
def execAveBlockLockRegained (p : Fin 6) (s : State) : Out :=
  .next (if (s.aport p.val).st = .down then s.updAport p.val fun x => { x with st := .training } else s)

/-- AVE_DELAY_MEASURE (R330): the delay is TIM's too, which reads it from the port. -/
def execAveDelayMeasure (p : Fin 6) (dly : Nat) (s : State) : Out :=
  .next (if (s.aport p.val).st = .up then s.updAport p.val fun x => { x with dly := min 65535 dly } else s)

/-- Every port is OFF and its injection locked; the points sourced through AVE are COMM_LOST (Table AVE-1). -/
def State.aveAllOff (s : State) : State :=
  let s1 := s.updAve fun a => { a with ports := Tab.mapAll {} (fun x =>
    { x with st := .off, hello := none, inj := { x.inj with unlocked := false, held := none, delayed := [] } }) a.ports }
  (s1.pointsWhere fun e => decide (e.srcType = .ave)).foldl (fun s i => s.markPoint i markCommLost) s1

/-- BLK_CTRL.RUN of AVE: RUN = 1 trains every port that is OFF. -/
def State.aveRun (s : State) (run : Bool) : State :=
  if run then (List.range 6).foldl (fun s p => if (s.aport p).st = .off then s.updAport p fun x => { x with st := .training } else s) s
  else s.aveAllOff

/-- PD_AVE is fenced, or a full device reset (R343). -/
def State.aveFence (s : State) : State :=
  s.aveAllOff.updAve fun a =>
    { a with role := .member, assigned := false, devId := 0, alias0 := false, discBusy := false, rt := [], rtNext := none, change := none, lst := [],
             standby := none, flows := [], devs := [], recSum := 0, recOwn := 0, joinReq := false }

/-! ### Link-state advertisements -/

/-- Whether a 16-bit sequence number follows another. -/
def seqAfter (new old : Nat) : Bool :=
  let d := (new + 65536 - old % 65536) % 65536
  decide (0 < d) && decide (d < 32768)

/-- LSA (R336): a newer one enters the link-state table and is flooded on every other port. `ago` is how long before its arrival the link
failed, in ns. -/
def State.lsaRx (s : State) (p dev port : Nat) (up : Bool) (peer seq ago : Nat) : State :=
  let old := Tab.get {} s.ave.lst (dev * 8 + port)
  if s.ave.owns dev || !seqAfter seq old.seq then s
  else
    let s1 := (s.updAve fun a => { a with lst := Tab.put {} a.lst (dev * 8 + port) { up := up, peer := peer, seq := seq } }).flood (some p) (.lsa dev port up peer seq)
    let s2 := if old.up && !up then s1.updAve fun a => { a with change := some (dev, port, s.now - ago) } else s1
    s2.lfaSwitch

/-! ### Discovery and roles (R334, R340) -/

/-- AVE_PIN of an ID: the serial and EN. -/
def State.pin (s : State) (n : Nat) : Option Nat :=
  if bit (s.regAt R.AVE_PIN (8 * n + 4)) 0 then some (s.regAt R.AVE_PIN (8 * n)).toNat else none

/-- The IDs pinned to a serial. -/
def State.pinsOf (s : State) (serial : Nat) : List Nat := (List.range 64).filter fun n => decide (s.pin n = some serial)

/-- Whether an ID is assigned to a device. -/
def Ave.known (a : Ave) (n : Nat) : Bool := a.devs.any fun e => decide (e.1 = n)

/-- The ID of a device by the rules of R334, or the error that stops discovery. -/
def State.idFor (s : State) (serial : Nat) : Option Nat × Nat :=
  match s.pinsOf serial with
  | [n] =>
    if n = 0 ∨ (s.ave.known n ∧ (Tab.get {} s.ave.devs n).serial ≠ serial) then (none, errIdConflict) else (some n, 0)
  | [] => ((List.range 64).find? fun n => decide (n ≠ 0) && (s.pin n).isNone && !s.ave.known n, 0)
  | _ => (none, errIdConflict)

/-- AVE_DISCOVER (R334, Table AVE-6): with GW_MODE ACTIVE and the host link up, or in role ACTIVE, ID 0 is taken and discovery starts. -/
def execAveDiscover (p : Principal) (s : State) : Out :=
  .next (s.gated .ave 0x10C .wo p 1 fun s =>
    let may := decide (s.ave.role = .active) || (decide (s.ave.role = .member) && decide (s.gwMode = 1) && s.hif.up)
    if !may then s.aveResult errNotGateway
    else
      let s1 := if s.ave.role = .active then s else s.roleTo .active
      let s2 := (s1.updAve fun a =>
        { a with devId := if a.alias0 then a.devId else 0, assigned := true, discBusy := true, devs := Tab.put {} a.devs 0 { serial := Config.aveSerial.toNat } }).aveResult 0
      ((List.range 6).foldl (fun s p => if (s.aport p).st = .up then s.advertise p else s) s2).probe)

/-- A device takes the ID that the gateway gives it (R334, Table AVE-6), and floods its links. Its recording grant is to be asked for (R384). -/
def State.takeId (s : State) (n : Nat) : State :=
  let s1 := s.updAve fun a => { a with devId := n, assigned := true, joinReq := true }
  let s2 := if s.ave.role = .left then s1.roleTo .member else s1
  let s3 := if s2.ave.role = .member ∧ s.gwMode = 2 ∧ s.hif.up then (s2.roleTo .standby).updAve fun a => { a with hbT := s.now } else s2
  (List.range 6).foldl (fun s p => if (s.aport p).st = .up then s.advertise p else s) s3

/-- DISC at a device that is not ACTIVE (R334): a probe that carries its serial gives it the ID of its destination; any other probe is answered
while the device has no ID. `own` is AVE_SERIAL. -/
def State.discProbe (s : State) (p dst src serial own : Nat) : State :=
  if serial = own then
    let s1 := s.takeId dst
    s1.aveSendPort p { dst := src, src := dst, body := .disc true own p s1.ave.role.code }
  else if s.ave.assigned && decide (s.ave.role ≠ .left) then s
  else s.aveSendPort p { dst := src, src := dst, body := .disc true own p s.ave.role.code }

/-- DISC reply at the ACTIVE gateway (R334). -/
def State.discReply (s : State) (p src hops serial role : Nat) : State :=
  if role = 1 then (s.updAve fun a => { a with discBusy := false }).aveResult errGwConflict
  else
    match (s.ave.devs.find? fun e => decide (e.2.serial = serial) && decide (e.1 ≠ 0)) with
    | some e =>
      s.updAve fun a => { a with devs := Tab.upd {} a.devs e.1 fun d => { d with hops := hops },
                                 standby := if role = 2 then some src else a.standby, maxHops := max a.maxHops hops }
    | none =>
      match s.idFor serial with
      | (some n, _) =>
        let s1 := s.updAve fun a => { a with devs := Tab.put {} a.devs n { serial := serial, hops := hops }, maxHops := max a.maxHops hops }
        let s2 := s1.aveSendPort p { dst := n, src := s.ave.devId, body := .disc false serial p s.ave.role.code }
        if s.ave.discBusy then s2 else s2.record .ave 0 0x1214 [n, serial, hops]
      | (none, 0) => s
      | (none, e) => (s.updAve fun a => { a with discBusy := false }).aveResult e

/-- DISCOVERY_COMPLETE (R334). -/
def execDiscoveryComplete (s : State) : Out :=
  .next (
    if s.ave.discBusy then (s.updAve fun a => { a with discBusy := false }).record .ave 0 0x1213 [s.ave.devs.length, s.ave.maxHops] else s)

/-- DEVICE_LOST_TIMEOUT (R334, R341): a device was not reached for 10 s. -/
def execDeviceLostTimeout (d : Fin 64) (s : State) : Out :=
  .next (
    if s.ave.role = .active ∧ s.ave.known d.val ∧ !s.ave.owns d.val then
      (s.updAve fun a =>
        { a with devs := Tab.erase a.devs d.val, recSum := a.recSum - (Tab.get {} a.devs d.val).grant,
                 standby := if a.standby = some d.val then none else a.standby }).record .ave 0 0x1215 [d.val]
    else s)

/-- GW_HEARTBEAT_SEND (R340). -/
def execGwHeartbeatSend (s : State) : Out :=
  .next (match s.ave.standby with
    | some d => if s.ave.role = .active then s.aveTo d .heartbeat else s
    | none => s)

/-- The standby takes over (R340): it answers to ID 0 too, floods its links and raises an ALARM. -/
def State.takeOver (s : State) : State :=
  let s1 := ((s.roleChange .active).updAve fun a => { a with alias0 := true, standby := none }).raiseNoCode .ave 0 .alarm
  (List.range 6).foldl (fun s p => if (s.aport p).st = .up then s.advertise p else s) s1

/-- GW_HB_TIMEOUT (Table AVE-6). -/
def execGwHbTimeout (s : State) : Out :=
  .next (if s.ave.role = .standby ∧ !(s.route 0).valid then s.takeOver else s)

/-- The standby, where it is reachable. -/
def State.standbyReach (s : State) : Option Nat := s.ave.standby.filter fun d => (s.nextPort d).isSome

/-- The ACTIVE gateway leaves (Table AVE-6): RELEASE to the standby. -/
def State.leave (s : State) (d : Nat) : State := (s.aveTo d .release).roleChange .left

/-- AVE_RELEASE (R340). -/
def execAveRelease (p : Principal) (s : State) : Out :=
  .next (s.gated .ave 0x10C .wo p 2 fun s =>
    if s.ave.role ≠ .active then s.aveResult errNotGateway
    else
      match s.standbyReach with
      | some d => (s.leave d).aveResult 0
      | none => s.aveResult errTakeoverRefused)

/-- HOST_LINK_LOSS_TIMEOUT (Table AVE-6): the host link has been down for GW_HB_TMO. -/
def execHostLinkLossTimeout (s : State) : Out :=
  .next (
    if s.ave.role = .active ∧ !s.hif.up then
      match s.standbyReach with
      | some d => s.leave d
      | none => s
    else s)

/-! ### Admission and subscriptions (R333, R338) -/

/-- The ports of this device that a flow passes: its port toward the destination, and toward the source where it does not start here. Transit
flows are known where the flow was admitted (log 73). -/
def State.flowPorts (s : State) (f : AFlow) : List Nat :=
  let es := s.ave.edges
  let via := (pathGo es (hopsTo es f.dst) 64 f.src).contains s.ave.devId
  if s.ave.owns f.src then (s.nextPort f.dst).toList
  else if s.ave.owns f.dst then (s.nextPort f.src).toList
  else if via then (s.nextPort f.src).toList ++ (s.nextPort f.dst).toList
  else []

/-- The class A flows of this device: those of its publish table, its confirmed class A subscriptions, the triggers of an armed
session (R371) and those that it admitted. -/
def State.knownFlows (s : State) : List AFlow :=
  let pubs := (s.ave.pubs.filter fun p => decide (p.cls = .a)).map fun p => ({ src := s.ave.devId, dst := p.dst, protected_ := true } : AFlow)
  let subs := (s.ave.subs.filter fun e => e.2.confirmed && decide ((s.point e.1).cls = .a)).map fun e =>
    ({ src := e.2.gid / 2 ^ 19, dst := s.ave.devId, protected_ := true } : AFlow)
  let trigs := if s.acq.records || s.acq.armReq then s.fabMask.map fun d => ({ src := s.ave.devId, dst := d, protected_ := true } : AFlow) else []
  pubs ++ subs ++ trigs ++ s.ave.flows.filter fun f => !s.ave.owns f.src && !s.ave.owns f.dst

/-- AVE_P_STAT's count of class A flows routed over a port. -/
def State.flowsOver (s : State) (p : Nat) : Nat := (s.knownFlows.filter fun f => (s.flowPorts f).contains p).length

/-- The change of EN of a port's injection with INJ. -/
def State.injSet (s : State) (p : Nat) (en : Bool) (cause : Nat) : State :=
  (s.updAport p fun x => { x with inj := { x.inj with enNext := some en, en := x.inj.en && en } }).record .ave p 0x1219 [p, b2n en, cause]

/-- An admission clears EN of the ports that the flow would use (R342). -/
def State.injFlow (s : State) (f : AFlow) : State :=
  (s.flowPorts f).foldl (fun s p => if (s.aport p).inj.enNext.getD (s.aport p).inj.en then s.injSet p false 1 else s) s

/-- Whether a flow passes a link of this device whose measured delay is above 100 ns (R333). -/
def State.ownLong (s : State) (src dst : Nat) : Bool :=
  (s.flowPorts { src := src, dst := dst, protected_ := true }).any fun p => decide (100 < (s.aport p).dly)

/-- The flows of an armed session were admitted as class A flows, which clears EN of the ports that they use (R342, R371). -/
def State.armFlows (s : State) : State :=
  if s.acq.armReq then s.fabMask.foldl (fun s d => s.injFlow { src := s.ave.devId, dst := d, protected_ := true }) s else s

/-- The gateway decides on a class A flow (R333): 0 where it is admitted. -/
def State.admitCheck (s : State) (src dst : Nat) (long contended : Bool) : Nat :=
  if !(s.route src).valid then errNoRoute else if long || s.ownLong src dst then errAdmitLink else if contended then errAdmitClassA else 0

/-- An admitted flow is mirrored to the standby and enters the gateway's flows (R340). -/
def State.admitFlow (s : State) (src dst : Nat) (prot : Bool) : State :=
  let f : AFlow := { src := src, dst := dst, protected_ := prot }
  let s1 := match s.ave.standby with
    | some d => s.aveTo d (.admission src dst false false prot)
    | none => s
  (s1.injFlow f).updAve fun a => { a with flows := a.flows ++ [f] }

/-- A subscription is confirmed or refused at the subscriber (R338). -/
def State.subAnswer (s : State) (gid code : Nat) : State :=
  (s.ave.subs.filter fun e => decide (e.2.gid = gid)).foldl (fun s e =>
    if code = 0 then s.updAve fun a => { a with subs := Tab.upd {} a.subs e.1 fun x => { x with confirmed := true, refused := 0 } }
    else
      let s1 := s.updAve fun a =>
        { a with subs := Tab.upd {} a.subs e.1 fun x => { x with confirmed := false, refused := code },
                 subStat := match a.subStat with | some v => some v | none => some (e.1, code) }
      (((s1.record .ave 0 0x1217 [gid, errWord .ave code]).err .ave code).irq .ave 11).markPoint e.1 markCommLost) s

/-- Answer a device, which may be this one. -/
def State.answerSub (s : State) (sub gid code : Nat) : State :=
  if s.ave.owns sub then s.subAnswer gid code else s.aveTo sub (.grant (.sub gid code))

/-- The publisher takes a subscription (R338). -/
def State.publish (s : State) (r : SubReq) : State :=
  let idx := r.gid % 2 ^ 19
  let e := s.point idx
  let has := s.ave.pubs.any fun q => decide (q.idx = idx) && decide (q.dst = r.sub)
  let code :=
    if r.cls = .a ∧ (!e.hot ∨ e.cls ≠ .a ∨ e.kind ≠ r.kind) then errPeerKind
    else if !has && decide (4096 ≤ s.ave.pubs.length) then errPubFull else 0
  if code ≠ 0 then (s.err .ave code).answerSub r.sub r.gid code
  else
    let q : Pub := { idx := idx, dst := r.sub, cls := r.cls }
    let s1 := if r.cls = .a then s.injFlow { src := s.ave.devId, dst := r.sub, protected_ := true } else s
    (s1.updAve fun a => { a with pubs := (a.pubs.filter fun x => !(decide (x.idx = idx) && decide (x.dst = r.sub))) ++ [q] }).answerSub r.sub r.gid 0

/-- A subscription at the gateway, which applies R333 to class A, or at the publisher. `long`, `contended` and `prot` are what R333's checks
find on the routes, which only the whole fabric's links and instants show. -/
def State.subscribeAt (s : State) (r : SubReq) (long contended prot : Bool) : State :=
  let pub := r.gid / 2 ^ 19
  if r.admitted then s.publish r
  else if s.ave.role ≠ .active then s
  else
    let code := if r.cls = .a then s.admitCheck pub r.sub long contended else if (s.route pub).valid then 0 else errNoRoute
    if code ≠ 0 then (s.err .ave code).answerSub r.sub r.gid code
    else
      let s1 := if r.cls = .a then s.admitFlow pub r.sub prot else s
      let r1 := { r with admitted := true }
      if s.ave.owns pub then s1.publish r1 else s1.aveTo pub (.subscribe r1)

/-- A PTD entry with SRC_TYPE AVE takes effect (R338): the point is COMM_LOST and the subscription goes to the gateway. Where that is this device, what
R333's checks find on links and instants of other devices is a free value (log 73). -/
def State.aveSubscribe (s : State) (idx : Nat) : State :=
  let e := s.point idx
  let gid := e.srcRef % 2 ^ 25
  let r : SubReq := { sub := s.ave.devId, gid := gid, cls := e.cls, kind := e.kind, admitted := false }
  let s1 := (s.updAve fun a => { a with subs := Tab.put {} a.subs idx { gid := gid } }).markPoint idx markCommLost
  if s.ave.role = .active then
    let (n, s2) := s1.draw
    let w := Config.freeWord n
    s2.subscribeAt r (bit w 0) (bit w 1) (bit w 2)
  else s1.aveTo 0 (.subscribe r)

/-- The entry of a point is no longer an AVE entry. -/
def State.aveUnsubscribe (s : State) (idx : Nat) : State := s.updAve fun a => { a with subs := Tab.erase a.subs idx }

/-- CTRL admit (R333, R340): the gateway decides on a class A flow and answers; a standby keeps the mirrored flow. -/
def State.admitAt (s : State) (src dst from_ : Nat) (long contended prot : Bool) : State :=
  if s.ave.role = .active then
    let code := s.admitCheck src dst long contended
    let s1 := if code = 0 then s.admitFlow src dst prot else s.err .ave code
    s1.aveTo from_ (.grant (.flow dst code))
  else if s.ave.role = .standby then s.updAve fun a => { a with flows := a.flows ++ [{ src := src, dst := dst, protected_ := prot }] }
  else s

/-- AVE_REC_LIMIT. -/
def State.recLimit (s : State) : Nat := bits (s.reg R.AVE_REC_LIMIT) 12 0

/-- The gateway's decision on a recording grant (R341), mirrored to the standby before it is confirmed. -/
def State.recGrant (s : State) (dev mbps : Nat) : State × Bool :=
  let old := (Tab.get {} s.ave.devs dev).grant
  let sum := s.ave.recSum - old + mbps
  if s.recLimit < sum then (s.err .ave errRecBudget, false)
  else
    let s1 := match s.ave.standby with
      | some d => s.aveTo d (.grant (.recReq dev mbps))
      | none => s
    ((s1.updAve fun a => { a with recSum := sum, devs := Tab.upd {} a.devs dev fun d => { d with grant := mbps } }).record .ave 0 0x1218
      [dev, mbps, sum], true)

/-! ### Points of peers (R338) -/

/-- A frame of points is written: each record to the point that subscribes to it. -/
def State.peerFrame (s : State) (src time : Nat) (recs : List PtRec) : State :=
  let s1 := recs.foldl (fun s r =>
    match s.boundTo .ave (src * 2 ^ 19 + r.idx) with
    | some i =>
      if (Tab.get {} s.ave.subs i).confirmed then (s.pointWrite i r.value r.q time).followPoint i s.tick else s
    | none => s) s
  s1.setFrameT 3 src time

/-- A record of a point for a peer. -/
def State.ptRec (s : State) (idx : Nat) : PtRec :=
  let e := s.readPoint idx
  { idx := idx, q := e.q, value := e.value }

/-- PT_PUBLISH (R338): the publication instant of a class A flow. -/
def execPtPublish (idx : Fin 524288) (dst : Fin 64) (s : State) : Out :=
  .next (
    if s.ave.pubs.any fun q => decide (q.idx = idx.val) && decide (q.dst = dst.val) && decide (q.cls = .a) then
      s.aveTo dst.val (.ptA (s.fullTime (s.point idx.val) (s.readPoint idx.val).timeLo) [s.ptRec idx.val])
    else s)

/-- The records of a list in frames of at most 60. -/
def chunk60 : Nat → List PtRec → List (List PtRec)
  | 0, _ => []
  | n + 1, l => if l = [] then [] else l.take 60 :: chunk60 n (l.drop 60)

/-- PT_B_PUBLISH (R338): one group read of the class B and C points of each subscriber. -/
def execPtBPublish (s : State) : Out :=
  .next ((List.range 64).foldl (fun st d =>
    [TClass.b, TClass.c].foldl (fun st cl =>
      let idxs := (s.ave.pubs.filter fun q => decide (q.dst = d) && decide (q.cls = cl)).map (·.idx)
      (chunk60 69 (idxs.map s.ptRec)).foldl (fun st rs => st.aveTo d (.ptB (decide (cl = .c)) s.now rs)) st) st) s)

/-- PEER_FRAME_TIMEOUT (R338): STALE_N missed publications, or ten B_PERIODs without a frame. -/
def execPeerFrameTimeout (idx : Fin 524288) (commLost : Bool) (s : State) : Out :=
  .next (if (s.point idx.val).srcType = .ave then s.markPoint idx.val (if commLost then markCommLost else markStale) else s)

/-! ### Fabric time (R357) -/

/-- TIME_FRAME_SEND (R357): on every port that is UP. The master's grandmaster identity and UTC offset come from no register: where no parent
gave them they are free values (log 74). -/
def execTimeFrameSend (s : State) : Out :=
  .next (
    let master := decide (s.ave.role = .active)
    let t := s.tim
    let synced := decide (t.st = .locked) || master
    let flags := b2n synced + 2 * b2n t.coarse + 4 * b2n s.clk.timeDeg + 8 * b2n t.lost
    let (k, s1) := s.draw
    let gm := if t.parent.gm = [] then natBytesLE (Config.freeWord k).toNat 8 else t.parent.gm
    let utc := if t.parent.utc = [] then natBytesLE ((Config.freeWord k).toNat / 2 ^ 16) 2 else t.parent.utc
    let h := if master then 0 else (s.route 0).hops
    s1.upPorts.foldl (fun s p => s.aveSendPort p { dst := (s.aport p).peer, src := s.ave.devId, body := .time s.now flags h gm utc 0 }) s1)

/-- A TIME frame that reached port `p` at `rx` ns (R357). TIM_FAB_ASYM is in ps; the offset is in whole ns, rounded as R346 says (DEDUCED, log 32). -/
def State.timeRx (s : State) (p t flags hops : Nat) (gm utc : List Byte) (rx : Nat) : State :=
  if s.timSrc ≠ 2 ∨ s.timeParent ≠ some p then s
  else
    let asym := (s.regAt R.TIM_FAB_ASYM (4 * p)).toInt
    let s1 := s.updTim fun x =>
      { x with parent := { dev := (s.aport p).peer, port := p, hops := hops + 1, synced := nbit flags 0, flags := flags, gm := gm, utc := utc } }
    s1.measure (roundAway (((rx : Int) - ((t : Int) + (s.aport p).dly)) * 1000 - asym) 1000)

/-- A TRIG frame (R371): delivered to FABRIC conditions while a session is armed, with FAB_TRIG_RX. -/
def State.trigRx (s : State) (src ns line ps : Nat) : State :=
  if !s.acq.records then s
  else (s.record .acq 0 0x1315 [line, src, ns % 2 ^ 32]).seqEvents [.fabric line (ns * 1000 + ps)] (s.tick + 1)

/-! ### Registers -/

/-- AVE_INJ_UNLOCK (R342): only in COMMISSIONING or with SYS_DEBUG.UNLOCKED. -/
def execAveInjUnlock (p : Principal) (n : Fin 6) (s : State) : Out :=
  .next (s.gated .ave (0x1040 + 0x1000 * n.val) .w1s p 1 fun s =>
    if s.debugOpen then s.updAport n.val fun x => { x with inj := { x.inj with unlocked := true } } else s.err .ave errAveInjLocked)

/-- AVE_INJ_EN (R342): in effect at the next base-frame boundary; every change of EN writes INJ. -/
def execAveInjEn (p : Principal) (n : Fin 6) (en : Bool) (s : State) : Out :=
  .next (s.gated .ave (0x104C + 0x1000 * n.val) .rw p (word (b2n en)) fun s =>
    let j := (s.aport n.val).inj
    if en && !j.unlocked then s.err .ave errAveInjLocked
    else if en && decide (s.flowsOver n.val ≠ 0) then s.err .ave errAveInjPending
    else if en = j.enNext.getD j.en then s
    else (s.updAport n.val fun x => { x with inj := { x.inj with enNext := some en } }).record .ave n.val 0x1219 [n.val, b2n en, 0])

/-- AVE_SUB_STAT_CLEAR (R344). -/
def execAveSubStatClear (p : Principal) (s : State) : Out :=
  .next (s.gated .ave 0x120 .w1c p 0x80000000 fun s => s.updAve fun a => { a with subStat := none })

/-- What of AVE acts at a base-frame boundary before its frames (R335, R342, R343): the rules and EN of injection, the frames sent in the last
base frame, the computed table, and the grant request of a device that joined (R384). -/
def State.aveBoundary (s : State) : State :=
  let s1 := (List.range 6).foldl (fun s p =>
    if (s.aport p).st = .off then s
    else
      let rule := s.aveRule p
      s.updAport p fun x =>
        let en := x.inj.enNext.getD x.inj.en
        { x with sent := [], inj := { x.inj with en := en, enNext := none, rule := rule,
                                                 seen := if en && x.inj.en && decide (rule = x.inj.rule) then x.inj.seen else 0 } }) s
  let s2 := s1.rtInstall
  if s2.ave.joinReq ∧ s2.ave.assigned ∧ s2.ave.role ≠ .active ∧ (s2.nextPort 0).isSome then
    (s2.updAve fun a => { a with joinReq := false }).aveTo 0 (.grant (.recReq s2.ave.devId s2.hrc.grant))
  else s2

end Sys2Proof.Machine
end

