-- ==== Sys2Proof/Machine/CeEval.lean ====
section
/-!
DEFINITION. One evaluation of a loop in one lane (R93–R103, R113–R131): a function of the descriptor, the inputs that every voting lane
sees and the lane's loop state.
-/

namespace Sys2Proof.Machine

/-- A referenced compensation table with what its evaluation reads (R125–R127): index value, whether it is bad, and the value of DIR_PT
where the table's direction comes from a point. -/
structure TabIn where
  tab : CompTab
  p : Word
  bad : Bool
  dir : Option Int
deriving DecidableEq, Repr, Inhabited

/-- What every voting lane reads for an evaluation. `sp` is the set-point point's value, `none` while it is bad; `start` the output
point's value if VALID; `child` the mode and working set-point of an outer loop's child; `linkOk` the link condition of Table CE-4. -/
structure LoopIn where
  y : Acc
  q : Byte
  sp : Option Int
  localT : Int
  childT : Option Int
  start : Option Int
  ud : Int
  dlyUe : Bool
  tabA : Option TabIn
  tabB : Option TabIn
  child : Option (LMode × Int)
  linkOk : Bool
  pend : LoopPend
deriving DecidableEq, Repr, Inhabited

/-- What an evaluation reports besides its state and outputs: mode changes, refusals and supervision. `acts` says that a trip's reaction
applies, and is not only added to a latch that holds one as high (R121). -/
inductive LoopEv where
  | mode (old new : LMode) (cause : Nat)
  | refused
  | inBad (q : Byte)
  | inGood
  | trip (src react : Nat) (value : Int) (acts : Bool)
  | clear (cause : Nat)
  | dlyUe
deriving DecidableEq, Repr, Inhabited

/-- The result of an evaluation in one lane. `wr` says that the outputs are written; `fill` refills the delay line, `localT` replaces the
local target, `release` says that the load of R123 is still to be made. -/
structure LoopOut where
  st : LoopState
  a : Int := 0
  b : Int := 0
  wr : Bool := false
  ev : List LoopEv := []
  fill : Option Int := none
  localT : Option Int := none
  release : Bool := false
deriving DecidableEq, Repr, Inhabited

/-! ### Modes -/

/-- Whether Table CE-4 lets a command change the mode. `linkOk` is the condition of CASCADE. -/
def modeLegal (cur new : LMode) (linkOk : Bool) : Bool :=
  match new with
  | .off | .manual | .safe => true
  | .auto => decide (cur ≠ .safe)
  | .cascade => decide (cur ≠ .safe) && linkOk

/-- Whether the latch refuses a command (R122). -/
def latchRefuses (st : LoopState) (new : LMode) : Bool :=
  decide (st.tripSrc ≠ 0) && decide (2 ≤ st.react) && (decide (new = .auto) || decide (new = .cascade))

/-- The mode after the change that an evaluation applies, with its cause, and whether a command was dropped with MODE_REFUSED (R101, R102,
R122): a command to AUTO or CASCADE accepted before a trip whose reaction the loop takes or holds is dropped so. -/
def decideMode (i : LoopIn) (st : LoopState) : LMode × Nat × Bool :=
  let m := st.mode
  let active := decide (m = .manual) || decide (m = .auto) || decide (m = .cascade)
  let law := decide (m = .auto) || decide (m = .cascade)
  let cmd := i.pend.cmd.bind LoopCmd.mode
  let stops := decide (cmd = some .safe) || decide (cmd = some .off)
  let climbs := decide (cmd = some .auto) || decide (cmd = some .cascade)
  if i.pend.runStop then (.off, 6, false)
  else if active && decide (i.pend.sup = some .safe) then (.safe, 3, climbs)
  else if active && i.pend.timeDeg then (.safe, 4, false)
  else if law && decide (i.pend.sup = some .manual) && !stops then (.manual, 3, climbs)
  else if decide (m = .cascade) && i.pend.parentOff then (.auto, 5, false)
  else
    match i.pend.cmd, cmd with
    | some c, some n =>
      if latchRefuses st n then (m, st.cause, true)
      else if n = m then (m, st.cause, false)
      else if modeLegal m n i.linkOk then (n, c.cause, false)
      else (m, st.cause, true)
    | _, _ => (m, st.cause, false)

/-- The state after the mode change of Table CE-4 with its events: manual target, starting output, latch. IN_BAD and the derivative state D are
kept over OFF; D acts in the first evaluation after it (DESIGN CHOICE, log 103). -/
def changeMode (d : LoopDesc) (i : LoopIn) (st : LoopState) : LoopState × List LoopEv × Option Int :=
  let (m, cause, dropped) := decideMode i st
  let keep := match i.pend.man with | some v => { st with man := v } | none => st
  let no := if dropped then [LoopEv.refused] else []
  if m = st.mode then (if dropped then st else keep, no, none)
  else
    let start := i.start.getD d.manInit
    let leaves := decide (st.mode = .off)
    let u0 := if leaves then start else st.u
    let st1 : LoopState := { st with mode := m, cause := cause }
    let ev := LoopEv.mode st.mode m cause :: no
    let st2 : LoopState := if leaves then { st1 with u := start, dirA := false, dirB := false } else st1
    match m with
    | .off =>
      ({ st2 with man := i.pend.man.getD st2.man, trip := false, tripSrc := 0, react := 0, cntM := 0, cntRg := 0, cntRt := 0 },
        ev ++ [.clear 1], none)
    | .manual =>
      let base := if st.mode = .safe then d.safeVal else u0
      ({ st2 with man := i.pend.man.getD base, react := if st2.react = 1 then 0 else st2.react }, ev, none)
    | .safe => ({ st2 with man := i.pend.man.getD st2.man, react := if st2.react = 1 then 0 else st2.react }, ev, none)
    | .auto => ({ st2 with man := i.pend.man.getD (if leaves then start else st2.man) }, ev,
        if st.mode = .cascade then some st.r else none)
    | .cascade => ({ st2 with man := i.pend.man.getD (if leaves then start else st2.man) }, ev, none)

/-! ### Supervision (R113–R122) -/

/-- What supervision decides: the state, the events, and whether the model was aligned by an error of the delay line. -/
structure SupOut where
  st : LoopState
  ev : List LoopEv := []
  sup : Option LMode := none
deriving DecidableEq, Repr, Inhabited

/-- The model's prediction from its state. -/
def modelOut (d : LoopDesc) (ym : Int) : Acc :=
  let s := storeQ ym
  let y := satQ (s.v + d.mbias)
  ⟨y.v, s.sat || y.sat⟩

/-- The model update of R116. -/
def modelStep (d : LoopDesc) (ym ud : Int) : Acc :=
  let dif := (gmul d.km ud).sub (acc ym)
  let inc := cmul d.beta dif.v
  let r := (acc ym).add inc
  ⟨r.v, r.sat || dif.sat⟩

/-- The reaction as it acts in a mode (R121). -/
def actingReact (m : LMode) (react : Nat) : Nat :=
  match m with
  | .safe => 0
  | .manual => if react = 1 ∨ react = 2 then 0 else react
  | _ => react

/-- The checks, the model and the comparison (R113–R121). `align` says that another cause aligns the model. -/
def superviseLoop (d : LoopDesc) (i : LoopIn) (bad firstGood align : Bool) (st : LoopState) : SupOut :=
  let y := i.y.v
  let active := decide (st.mode = .auto) || decide (st.mode = .cascade) || d.supMan
  let yPrev := if firstGood then y else st.yPrev
  let vRg := active && !bad && d.rcEn && (decide (y < d.rcLo) || decide (d.rcHi < y))
  let vRt := active && !bad && d.rtEn && decide ((d.rcDmax : Int) < (y - yPrev).natAbs)
  let cntRg := if !active then 0 else if bad then st.cntRg else if vRg then satInc 31 st.cntRg else 0
  let cntRt := if !active then 0 else if bad || firstGood then st.cntRt else if vRt then satInc 31 st.cntRt else 0
  let al := align || firstGood || !active || i.dlyUe
  let yA := if bad then st.yPrev else y
  let aligned := (satQ (yA - d.mbias)).v * 2 ^ 15
  let step := modelStep d st.ym i.ud
  let ym := if !d.modelEn then 0 else if al then aligned else step.v
  let yh := modelOut d ym
  let compare := d.modelEn && active && !bad && !vRg && !vRt && !i.dlyUe
  let resid : Nat := if !d.modelEn then 0 else if al then 0 else if compare then (y - yh.v).natAbs else st.resid
  let cntM := if !d.modelEn || !active then 0 else if compare then (if d.mthr < resid then satInc 4095 st.cntM else 0) else st.cntM
  let tRg := vRg && decide (d.rcPers ≤ cntRg) && !(nbit st.tripSrc 0)
  let tRt := vRt && decide (d.rtPers ≤ cntRt) && !(nbit st.tripSrc 1)
  let tM := compare && decide (d.mthr < resid) && decide (d.mpers ≤ cntM) && !(nbit st.tripSrc 2)
  let src := b2n tRg + 2 * b2n tRt + 4 * b2n tM
  let react := max (if tRg then d.rcReact else 0) (max (if tRt then d.rtReact else 0) (if tM then d.mReact else 0))
  let act := actingReact st.mode react
  let first := decide (st.tripSrc = 0)
  let takes := decide (src ≠ 0) && (first || decide (st.react < act))
  let st1 : LoopState :=
    { st with yPrev := if bad then st.yPrev else y, cntRg := cntRg, cntRt := cntRt, cntM := cntM, ym := ym, resid := resid,
              sat := st.sat || (d.modelEn && !al && step.sat) || (compare && yh.sat),
              tripSrc := st.tripSrc ||| src, trip := st.trip || decide (src ≠ 0), react := if takes then act else st.react }
  { st := st1,
    ev := (if i.dlyUe then [.dlyUe] else []) ++
      (if src ≠ 0 then [.trip src act (if tM then (resid : Int) else y) takes] else []),
    sup := if takes then (match act with | 2 => some .manual | 3 => some .safe | _ => none) else none }

/-! ### Set-point entry (R129–R131) -/

/-- One ramp step (R130). -/
def rampStep (r t : Int) (rate : Nat) : Int :=
  if r < t then min t (r + rate) else max t (r - rate)

/-- The working set-point for a target, with the ramp. `prev` is the mode before this evaluation's change. -/
def workingSp (d : LoopDesc) (i : LoopIn) (bad hold : Bool) (prev : LMode) (t : Int) (st : LoopState) : LoopState :=
  let y := if bad then st.yPrev else i.y.v
  let plain : LoopState := { st with r := t, rT := t, ramping := false }
  match st.mode with
  | .cascade => plain
  | .auto =>
    let start : LoopState :=
      match i.pend.ramp with
      | some rate => { st with r := y, ramping := true, rampRate := if rate = 0 then d.spRamp else rate }
      | none =>
        if d.rampMode ≠ 0 ∧ (prev = .off ∨ prev = .manual) then
          { st with r := if prev = .off then y else st.r, ramping := true, rampRate := d.spRamp }
        else if d.rampMode = 2 ∧ !st.ramping ∧ t ≠ st.rT then { st with r := y, ramping := true, rampRate := d.spRamp }
        else st
    if start.ramping then
      if bad || hold then { start with rT := t }
      else
        let r := rampStep start.r t start.rampRate
        { start with r := r, rT := t, ramping := decide (r ≠ t) }
    else { start with r := t, rT := t }
  | _ => if d.rampMode = 0 then plain else { st with r := y, rT := t, ramping := false }

/-! ### Compensation (R125–R127) -/

/-- A table reference's output and direction (R126, R127): every evaluation reads the direction; the output is the last one while the index
point is bad. -/
def tabRef (t : Option TabIn) (uPrev : Int) (c : Int) (neg : Bool) : Int × Bool × Bool :=
  match t with
  | none => (0, neg, false)
  | some x =>
    let neg' := if x.tab.type = 3 then frictionDir x.tab (x.dir.getD uPrev) neg else neg
    if x.bad then (c, neg', true) else (tabEval x.tab x.p neg', neg', false)

/-- Both references, kept in the state. -/
def compensate (i : LoopIn) (st : LoopState) : LoopState :=
  let (ca, na, ba) := tabRef i.tabA st.u st.ca st.dirA
  let (cb, nb, bb) := tabRef i.tabB st.u st.cb st.dirB
  { st with ca := ca, cb := cb, dirA := na, dirB := nb, compBad := ba || bb }

/-! ### The evaluation -/

/-- The set-point target of the current mode (Table CE-3); a bad set-point point holds it. In CASCADE, while the parent has latched no output
yet, the working set-point stays (DESIGN CHOICE, log 103). -/
def target (d : LoopDesc) (i : LoopIn) (st : LoopState) : Int :=
  if st.mode = .cascade then i.childT.getD st.r
  else
    match d.spSrc with
    | 1 => i.sp.getD st.rT
    | 2 => i.localT
    | _ => d.spConst

/-- The law's accumulator value with the compensation feed-forward (steps 5 and 6 of R93). -/
def feedForward (d : LoopDesc) (lo : LawOut) (st : LoopState) : Acc := (lo.v.add (gmul d.ka st.ca)).add (gmul d.kb st.cb)

/-- Load I, and for PIDBQ the biquad states, from the output `u` (R103, R123), for a bumpless start of the law in this evaluation. -/
def loadLoop (d : LoopDesc) (lo : LawOut) (u : Int) (st : LoopState) : LoopState :=
  let i := trackI u lo.p lo.d
  let b := trackSections d st.bq u false 0 d.nsec
  { st with i := if hasPid d.law then i.v else st.i,
            bq := if d.law = .pidbq then b.1 else st.bq,
            sat := st.sat || (hasPid d.law && i.sat) || (decide (d.law = .pidbq) && b.2) }

/-- The states that make the law's output equal `u` (R103): I, and the biquad states for PIDBQ; derivative and biquad states advance.
Steps 3 to 6 run (R93), so what saturates in them shows in SAT. -/
def trackLoop (d : LoopDesc) (lo : LawOut) (u y : Int) (st : LoopState) : LoopState :=
  let b := loadLoop d lo u st
  { b with i := if d.law = .leadlag then y else b.i,
           d := lo.d.v, xPrev := lo.x, bq := if d.law = .pidbq then b.bq else lo.bq,
           sat := b.sat || lo.d.sat || (feedForward d lo st).sat }

/-- The law, compensation, limits and update of a computed output (steps 5 to 8 of R93). -/
def computeLoop (d : LoopDesc) (r y xPrev : Int) (st : LoopState) : LoopState :=
  let lo := law d st r y xPrev
  let v := feedForward d lo st
  let v16 := storeQ v.v
  let (u, lim, rl) := limits d st.u v16.v true
  let ik := integrate d st.i lo.e u v16.v
  { st with i := (match d.law with | .pid | .pidbq | .split => ik.v | .leadlag => y | _ => st.i),
            d := lo.d.v, xPrev := lo.x, bq := lo.bq, u := u, v16 := v16.v, atLim := lim, rateLimited := rl,
            sat := st.sat || v.sat || v16.sat || lo.d.sat || (hasPid d.law && ik.sat) }

/-- One evaluation of a loop in a mode other than OFF, after its mode change (R93). `prev` is the mode before the change, `ev` its
events, `released` that a HOLD_OUTPUT latch cleared before this evaluation and no output has been computed since (R123). A bad input
holds u also where the loop would track its child's set-point (R96 before R99); the output that refills the delay line after
DLY_UE is u[k−1] (R118; both DESIGN CHOICE, log 103). -/
def runLoop (d : LoopDesc) (i : LoopIn) (prev : LMode) (align released : Bool) (st0 : LoopState) : LoopOut × Option LMode :=
  let y := i.y.v
  let bad := isBad i.q
  let firstGood := st0.inBad && !bad
  let left := decide (prev = .off)
  let st1 : LoopState := { st0 with sat := false, atLim := false, rateLimited := false, track := false, spBad := false,
                                    inSat := i.y.sat, inBad := bad, evals := wrapInc st0.evals }
  let evIn := if bad && !st0.inBad then [LoopEv.inBad i.q] else if firstGood then [.inGood] else []
  let so := superviseLoop d i bad firstGood (align || left) st1
  let st2 := so.st
  let lawMode := decide (st2.mode = .auto) || decide (st2.mode = .cascade)
  let hold := lawMode && (bad || (st2.trip && decide (1 ≤ st2.react)))
  let t := target d i st2
  let st3 := workingSp d i bad hold prev t st2
  let st3 : LoopState := { st3 with spBad := decide (d.spSrc = 1) && decide (st3.mode ≠ .cascade) && i.sp.isNone }
  let st4 := compensate i st3
  let xNow := (lawX d st4.r y).v
  let xNow := if d.law = .leadlag then (lawError d st4.r y).v else xNow
  let st5 : LoopState := if firstGood || left then { st4 with xPrev := xNow } else st4
  let lo := law d st5 st5.r y st5.xPrev
  let outer := match i.child with | some (m, r) => if m = .cascade then none else some r | none => none
  let st6 : LoopState :=
    if lawMode then
      if hold then st5
      else
        match outer with
        | some r => { (trackLoop d lo r y st5) with u := r, v16 := r, track := true }
        | none => computeLoop d st5.r y st5.xPrev (if left || released then loadLoop d lo st5.u st5 else st5)
    else if st5.mode = .manual then
      let (u, lim, rl) := limits d st5.u st5.man true
      { (trackLoop d lo u y st5) with u := u, v16 := st5.man, atLim := lim, rateLimited := rl }
    else { (trackLoop d lo d.safeVal y st5) with u := d.safeVal, v16 := d.safeVal }
  let (a, b, sp) :=
    if d.law = .split then
      if st6.mode = .safe then (d.safeVal, d.safeVal2, false)
      else let (oa, ob) := splitOut d st6.u; (oa.v, ob.v, oa.sat || ob.sat)
    else (st6.u, 0, false)
  let st7 : LoopState := { st6 with u2 := b, sat := st6.sat || sp }
  let fill := if d.modelEn then (if left then some (if st0.mode = .safe then d.safeVal else st0.u) else if i.dlyUe then some st0.u else none)
    else none
  ({ st := { st7 with dlyPtr := if d.modelEn then (if st7.dlyPtr + 1 < d.dead then st7.dlyPtr + 1 else 0) else 0 },
     a := a, b := b, wr := true, ev := evIn ++ so.ev, fill := fill, release := released && lawMode && hold }, so.sup)

/-- An evaluation in one lane: the mode change, then steps 1 to 9 of R93; and the mode that a trip asks for at the next evaluation. A loop that
leaves CASCADE for AUTO already has its last working set-point as its local target (R129). A stop by RUN = 0 writes SAFE_VAL once
(Table CE-4). -/
def evalLoop (d : LoopDesc) (i : LoopIn) (st : LoopState) : LoopOut × Option LMode :=
  let (st1, ev, lt) := changeMode d i st
  let acked := i.pend.ack && decide (st1.tripSrc ≠ 0)
  let released := (i.pend.release || (acked && decide (st1.react = 1))) && (decide (st1.mode = .auto) || decide (st1.mode = .cascade))
  let st2 : LoopState :=
    if acked then { st1 with trip := false, tripSrc := 0, react := 0, cntM := 0, cntRg := 0, cntRt := 0 } else st1
  let ev1 := ev ++ (if acked then [LoopEv.clear 0] else [])
  if st2.mode = .off then
    if i.pend.runStop && decide (st.mode ≠ .off) then
      ({ st := { st2 with u := d.safeVal, u2 := if d.law = .split then d.safeVal2 else 0 }, a := d.safeVal,
         b := if d.law = .split then d.safeVal2 else 0, wr := true, ev := ev1 }, none)
    else ({ st := st2, ev := ev1 }, none)
  else
    let (o, sup) := runLoop d { i with localT := lt.getD i.localT } st.mode (acked || i.pend.align) released st2
    ({ o with ev := ev1 ++ o.ev, localT := lt }, sup)

end Sys2Proof.Machine
end

