-- ==== Sys2Proof/Machine/OutPath.lean ====
section
/-!
DEFINITION. A voted output on its way to the endpoint (R13, R18, R141): the point, the axis that follows it, the field die.
-/

namespace Sys2Proof.Machine

/-- The Crossing or a sequencer writes an output point with VALID = 1 now (R141). -/
def State.driveOut (s : State) (idx : Nat) (v : Int) : State :=
  let t := s.now * 2 / 5
  ((s.pointWrite idx (wordI v) qValid s.now).followPoint idx t).fioPoint idx t

end Sys2Proof.Machine
end

