-- ==== Sys2Proof/Machine/OpsRet.lean ====
section
/-!
DEFINITION. Reading and writing the retention store (R470, R471). Words are numbered from 0 at 0x3000_0000.
-/

namespace Sys2Proof.Machine

/-- The words of the pending buffer. -/
def retPendMax : Nat := 16384

/-- The newest value written to a word, durable or not (R470). -/
def State.retWord (s : State) (i : Nat) : Word :=
  match (s.ret.waiting.reverse ++ s.ret.pend).find? (fun p => decide (p.idx = i)) with
  | some p => p.val
  | none => Tab.get 0 s.ret.cells i

/-- The words `i … i + n − 1` as they read. -/
def State.retWords (s : State) (i n : Nat) : List Word := (List.range n).map fun k => s.retWord (i + k)

/-- A write to the store (R471): it replaces a pending word, enters the buffer, or waits while the buffer is full. -/
def State.retPut (s : State) (i : Nat) (v : Word) (w : Block) : State :=
  let e : RetPend := { idx := i, val := v, writer := w }
  if s.ret.pend.any fun p => decide (p.idx = i) then
    { s with ret := { s.ret with pend := s.ret.pend.map fun p => if p.idx = i then e else p } }
  else if s.ret.pend.length < retPendMax then { s with ret := { s.ret with pend := s.ret.pend ++ [e] } }
  else { s with ret := { s.ret with waiting := s.ret.waiting ++ [e] } }

/-- Writes of consecutive words. -/
def State.retPutList (s : State) (i : Nat) (w : Block) : List Word → State
  | [] => s
  | v :: vs => State.retPutList (s.retPut i v w) (i + 1) w vs

end Sys2Proof.Machine
end

