-- ==== Sys2Proof/Machine/RsqOps.lean ====
section
/-!
DEFINITION. A stream's window, its step entries in memory (R162, R163), its checkpoints (R174, R175), its changes of state and the HOLD that the
Crossing writes (R146).
-/

namespace Sys2Proof.Machine

/-- The RSQ error codes of Table RSQ-15. -/
def errStreamState : Nat := 0x20
def errBadStep : Nat := 0x21
def errStepRange : Nat := 0x22
def errPointWrite : Nat := 0x23
def errPointNone : Nat := 0x24
def errXngNotReady : Nat := 0x25
def errStepInvalid : Nat := 0x26
def errStreamUe : Nat := 0x27
def errRunActive : Nat := 0x28
def errCkptLoading : Nat := 0x29

/-- Change the sequencer, or one of its streams. -/
def State.updRsq (s : State) (f : Rsq → Rsq) : State := { s with rsq := f s.rsq }
def State.stream (s : State) (n : Nat) : Stream := Tab.get {} s.rsq.streams n
def State.updStream (s : State) (n : Nat) (f : Stream → Stream) : State :=
  s.updRsq fun r => { r with streams := Tab.upd {} r.streams n f }

/-- The code of a stream state (Table RSQ-8). -/
def SState.code : SState → Nat
  | .idle => 0 | .run => 1 | .hold => 2 | .pause => 3 | .park => 4 | .abort => 5 | .done => 6 | .fault => 7 | .resumePending => 8

/-- The state of a code; a code that Table RSQ-8 does not list gives IDLE. -/
def sstateOf : Nat → SState
  | 1 => .run | 2 => .hold | 3 => .pause | 4 => .park | 5 => .abort | 6 => .done | 7 => .fault | 8 => .resumePending | _ => .idle

/-- The code of a command (Table RSQ-9). -/
def SCmd.code : SCmd → Nat
  | .start _ => 1 | .hold => 2 | .resume => 3 | .pause => 4 | .abort => 5 | .park => 6 | .reset => 7 | .recheck => 8 | .discard => 9

/-! ### The window (Table RSQ-13) -/

def Stream.word (x : Stream) (off : Nat) : Word := Tab.get 0 x.win off
def Stream.autoResume (x : Stream) : Bool := bit (x.word 0x000) 0
def Stream.ckptEn (x : Stream) : Bool := bit (x.word 0x000) 1
def Stream.stepCount (x : Stream) : Nat := bits (x.word 0x004) 15 0
def Stream.parkStep (x : Stream) : Nat := bits (x.word 0x008) 15 0
def Stream.resumeWait (x : Stream) : Nat := bits (x.word 0x010) 15 0
def Stream.maxGap (x : Stream) : Nat := bits (x.word 0x010) 31 16
def Stream.editBase (x : Stream) : Nat := (x.word 0x018).toNat + bits (x.word 0x01C) 7 0 * 2 ^ 32
def Stream.actBase (x : Stream) : Nat := (x.word 0x020).toNat + bits (x.word 0x024) 7 0 * 2 ^ 32

/-- A resume-critical slot: point, whether it is enabled, REL, TOL (Table RSQ-13). -/
def Stream.slotPt (x : Stream) (j : Nat) : Nat := bits (x.word (0x080 + 8 * j)) 18 0
def Stream.slotEn (x : Stream) (j : Nat) : Bool := bit (x.word (0x080 + 8 * j)) 30
def Stream.slotRel (x : Stream) (j : Nat) : Bool := bit (x.word (0x080 + 8 * j)) 31
def Stream.slotTol (x : Stream) (j : Nat) : Nat := (x.word (0x084 + 8 * j)).toNat

/-- A recipe variable. -/
def Stream.var (x : Stream) (v : Nat) : Word := Tab.get 0 x.vars v

/-! ### Step entries -/

/-- Where an entry and an action record of an area lie (R162). -/
def stepAddr (base n : Nat) : Nat := base + 64 * n
def actAddr (base m : Nat) : Nat := base + 0x400000 + 8 * m

/-- The 16 words of an entry. -/
def State.entryWords (s : State) (base n : Nat) : List Word := (List.range 16).map fun k => s.mem32 (stepAddr base n + 4 * k)

/-- Whether a step of a stream is VALID: below STEP_COUNT, in mapped SDRAM, with VALID in its active entry (R163). -/
def State.stepValid (s : State) (n step : Nat) : Bool :=
  let x := s.stream n
  decide (step < x.stepCount) && inSdram s (stepAddr x.actBase step) 64 && bit (s.mem32 (stepAddr x.actBase step + 28)) 29

/-- CRC-32C of an entry with W7[31:29] taken as 0 (Table RSQ-11). -/
def entryCrc (ws : List Word) : Nat :=
  crc32c (((ws.take 7) ++ [nth 0 ws 7 &&& 0x1FFFFFFF] ++ ws.drop 8).flatMap wordBytes)

/-- CRC-32C of the resume-critical table. -/
def Stream.rcpCrc (x : Stream) : Nat := crc32c (((List.range 32).map fun k => x.word (0x080 + 4 * k)).flatMap wordBytes)

/-! ### Points -/

/-- The value v of a point (R165): its value word as a signed number. -/
def State.ptVal (s : State) (idx : Nat) : Int := (s.readPoint idx).value.toInt

/-- Whether a point is bad (R166). -/
def State.ptBad (s : State) (idx : Nat) : Bool := isBad (s.readPoint idx).q

/-- Whether a readback is usable (R176): VALID = 1 and STALE, COMM_LOST, FORCED, SUBST, SUPPLY and SIM all 0. -/
def usable (q : Byte) : Bool := decide (q &&& 0xDF = qValid)

/-! ### Checkpoints -/

/-- The first word of a stream's checkpoint slot in the retention store (R174). -/
def ckptSlot (n : Nat) : Nat := ((n % 8) * 0x40000 + 0x3E000 + (n / 8) * 0x400) / 4

/-- The words C0–C126 of a checkpoint (Table RSQ-11). -/
def State.ckptBody (s : State) (n seq : Nat) : List Word :=
  let x := s.stream n
  let bad := (List.range 16).foldl (fun m j => nput m j (x.slotEn j && s.ptBad (x.slotPt j))) 0
  [word (1 + n * 65536), word seq, word s.now, word (s.now / 2 ^ 32),
   word (x.state.code + 16 * b2n x.atBoundary + 32 * b2n x.parked + 65536 * x.step), word x.elapsed,
   word (x.chosen + 65536 * bits (nth 0 x.cur 4) 31 16), word (entryCrc (s.entryWords x.actBase x.step)), word x.rcpCrc, word bad] ++
  ((List.range 64).map fun v => x.var v) ++
  ((List.range 16).map fun j => if x.slotEn j then (s.readPoint (x.slotPt j)).value else 0) ++ List.replicate 37 0

/-- The buffer that holds the newest intact checkpoint, by serial arithmetic (Table RSQ-11). -/
def Stream.newestBuf (x : Stream) : Option Nat :=
  match Tab.get none x.bufs 0, Tab.get none x.bufs 1 with
  | some a, some b => if 0 < (BitVec.ofNat 32 b - BitVec.ofNat 32 a).toInt then some 1 else some 0
  | some _, none => some 0
  | none, some _ => some 1
  | none, none => none

/-- CHECKPOINT_WRITE (R175): to the buffer that does not hold the newest intact checkpoint, with SEQ one higher. -/
def State.ckptPut (s : State) (n : Nat) : State :=
  let x := s.stream n
  let seq := wrapInc x.lastSeq
  let buf := match x.newestBuf with | some b => 1 - b | none => 0
  let ws := s.ckptBody n seq
  let s1 := s.retPutList (ckptSlot n + 128 * buf) .rsq (ws ++ [word (crc32c (ws.flatMap wordBytes))])
  s1.updStream n fun x => { x with seq := seq, lastSeq := seq, bufs := Tab.put none x.bufs buf (some seq), ckptDue := false, ticks := 0 }

/-- A checkpoint where CKPT_EN = 1; none in RESUME_PENDING (R175). -/
def State.ckpt (s : State) (n : Nat) : State :=
  let x := s.stream n
  if x.ckptEn && decide (x.state ≠ .resumePending) then s.ckptPut n else s

/-- A checkpoint is due once the writes of this evaluation are made (R175), and it is written then. -/
def State.ckptMark (s : State) (n : Nat) : State := s.updStream n fun x => { x with ckptDue := true }
def State.ckptFlush (s : State) (n : Nat) : State :=
  if (s.stream n).ckptDue then (s.ckpt n).updStream n fun x => { x with ckptDue := false } else s

/-! ### Events and changes of state -/

/-- Set a stream's RSQ_EVT bit (R183, R408). -/
def State.rsqEvt (s : State) (n : Nat) : State :=
  ((s.updRsq fun r => { r with evt := Tab.upd 0 r.evt (n / 32) fun w => setBit w (n % 32) }).irq .rsq 9).routeEvt .rsq 0 n

/-- Set a stream's RSQ_ALM bit (R183, R408). -/
def State.rsqAlm (s : State) (n : Nat) : State :=
  ((s.updRsq fun r => { r with alm := Tab.upd 0 r.alm (n / 32) fun w => setBit w (n % 32) }).irq .rsq 9).routeEvt .rsq 1 n

/-- A change of state: STATE_CHANGE, the event bit, the checkpoint of R175 due. `cause` is the command's code, or 0. -/
def State.sstate (s : State) (n : Nat) (new : SState) (cause : Nat) (f : Stream → Stream) : State :=
  let old := (s.stream n).state
  let s1 := (s.updStream n fun x => { (f x) with state := new }).record .rsq 0 0x0B11 [n, old.code, new.code, cause]
  (s1.rsqEvt n).ckptMark n

/-- A stream falls into HOLD within a step: AT_BOUNDARY = 0, a held decision dropped; latched events, INBAND counts and EDGE references start
from zero (R166, Table RSQ-10). -/
def State.sHold (s : State) (n cause : Nat) : State :=
  s.sstate n .hold cause fun x => { x with atBoundary := false, held := 0, heldCond := 0, latched := 0, inband := [], edge := [] }

/-- Whether a stream executes steps (R146). -/
def Stream.runs (x : Stream) : Bool := decide (x.state = .run) || decide (x.state = .pause)

/-- A stream that counts as active for BLK_CTRL.RUN, RWL fields and PMC (R182, R183). -/
def Stream.busy (x : Stream) : Bool :=
  x.runs || decide (x.state = .hold) || (decide (x.state = .park) && !x.parked)

/-- The numbers of the streams that satisfy a test. -/
def State.streamsWhere (s : State) (f : Stream → Bool) : List Nat := (s.rsq.streams.filter fun e => f e.2).map (·.1)

/-- The Crossing's safe reaction holds every stream in RUN or PAUSE_AT_STEP_END (R146 step 3). -/
def State.holdStreams (s : State) : State := (s.streamsWhere Stream.runs).foldl (fun s n => (s.sHold n 0).ckptFlush n) s

end Sys2Proof.Machine
end

