-- ==== Sys2Proof/Machine/Xng.lean ====
section
/-!
DEFINITION. The Crossing (R138–R158): lanes, votes, modes, the safe reaction, tests, rejoin and restart.
-/

namespace Sys2Proof.Machine

/-- The XNG error codes of Table XNG-9. -/
def errTestRefused : Nat := 0x20
def errLaneState : Nat := 0x21
def errRestartRefused : Nat := 0x22
def errVoterFault : Nat := 0x23
def errXngRunActive : Nat := 0x24

/-- Change the Crossing, or one of its lanes. -/
def State.updXng (s : State) (f : Xng → Xng) : State := { s with xng := f s.xng }
def State.lane (s : State) (l : Nat) : Lane := Tab.get {} s.xng.lanes l
def State.updLane (s : State) (l : Nat) (f : Lane → Lane) : State := s.updXng fun x => { x with lanes := Tab.upd {} x.lanes l f }

/-- The loop state that a lane holds. -/
def State.laneLoop (s : State) (l n : Nat) : LoopState := Tab.get {} (Tab.get [] s.ce.lanes l) n

/-- The fields of XNG_POLICY (Table XNG-8). -/
def State.singleAllowed (s : State) : Bool := bit (s.reg R.XNG_POLICY) 0
def State.testEn (s : State) : Bool := bit (s.reg R.XNG_POLICY) 1
def State.eccWd (s : State) : Nat := bits (s.reg R.XNG_POLICY) 7 4
def State.fltLimit (s : State) : Nat := bits (s.reg R.XNG_POLICY) 11 8

/-- The lanes whose words count: VOTING and not SUSPECT (R143, R144). -/
def State.votingLanes (s : State) : List Nat :=
  (List.range 3).filter fun l => decide ((s.lane l).state = .voting) && !(s.lane l).suspect

/-- One bit per lane. -/
def laneMask (ls : List Nat) : Nat := ls.foldl (fun m l => nput m l true) 0

/-- The code of a voting mode (Table XNG-3). -/
def VMode.code : VMode → Nat
  | .none => 0 | .single => 1 | .dual => 2 | .triple => 3

/-- The mode that the lanes give (R144): NONE after a safe reaction until a restart; unchanged while the reaction to a lost lane waits for its
origin (R146). -/
def State.modeOf (s : State) : VMode :=
  if s.xng.reacted then .none
  else if s.xng.lossDue then s.xng.mode
  else
    match s.votingLanes.length with
    | 3 => .triple
    | 2 => .dual
    | 1 => if s.singleAllowed then .single else .none
    | _ => .none

/-- The ERM severity at the entry to a mode (Table XNG-3). -/
def modeSev (m : VMode) (rolling : Bool) : Option Severity :=
  match m with
  | .none => none
  | .single => some .alarm
  | .dual => some (if rolling then .info else .warn)
  | .triple => some .info

/-- A mode change with its record (R144); `rolling` says that a rolling test is its reason. -/
def State.modeUpdate (s : State) (rolling : Bool) : State :=
  let new := s.modeOf
  let old := s.xng.mode
  if new = old then s
  else
    let s1 := ((s.updXng fun x => { x with mode := new }).record .xng 0 0x0A15 [old.code, new.code, laneMask s.votingLanes]).irq .xng 8
    match modeSev new rolling with
    | some v => s1.raise .xng 0 0x0A15 v
    | none => s1

/-- The code of a lane state (Table XNG-4). -/
def LaneState.code : LaneState → Nat
  | .off => 0 | .bist => 1 | .copy => 2 | .voting => 3 | .halted => 4 | .failed => 5

/-- The health word of a lane (Table XNG-8). -/
def Lane.health (l : Lane) : Nat :=
  l.eccCe + 256 * b2n l.ue + 512 * b2n l.outvoted + 1024 * b2n l.wdog + 2048 * b2n l.eccRate + 4096 * b2n l.bistFail +
    8192 * l.cause + 65536 * l.state.code + 2 ^ 20 * l.fltCnt + 2 ^ 24 * l.rejoins

/-- A departure from VOTING clears the health flags [12:8] of the departure before (Table XNG-8). -/
def Lane.noFlags (k : Lane) : Lane := { k with ue := false, outvoted := false, wdog := false, eccRate := false, bistFail := false }

/-- A lane enters BIST (R149). -/
def State.toBist (s : State) (l cause : Nat) : State :=
  s.updLane l fun k => { k with state := .bist, cause := cause, suspect := false, tested := false, passed := false, eccCe := 0, t0 := s.now }

/-- A lane leaves the vote by a fault (R142, R143, R148): its count rises, and it goes to BIST, to FAILED where the count reaches FLT_LIMIT,
or, outvoted, to BIST at the next boundary. `f` sets its health flags; CAUSE changes with the BIST alone (Table XNG-8). -/
def State.faultLane (s : State) (l cause : Nat) (f : Lane → Lane) : State :=
  let s1 := (s.updLane l fun k => { f k.noFlags with fltCnt := satInc 15 k.fltCnt }).irq .xng 9
  if s.fltLimit ≤ (s1.lane l).fltCnt then
    ((s1.updLane l fun k => { k with state := .failed }).record .xng 0 0x0A14 [l, cause, (s1.lane l).fltCnt]).raise .xng 0 0x0A14 .alarm
  else if cause = 3 then s1.updLane l fun k => { k with suspect := true }
  else s1.toBist l cause

/-- WARN, for a lane whose fault did not end in FAILED (Table XNG-5). -/
def State.laneWarn (s : State) (l code : Nat) : State :=
  if (s.lane l).state = .failed then s else s.raise .xng 0 code .warn

/-! ### The safe reaction -/

/-- A loop that is not OFF takes its safe values from the safe table (R146, R147) and is reported in SAFE with cause XNG. What waits for the loop
besides its latch's acknowledgement is overridden (R102). -/
def State.loopSafe (s : State) (n : Nat) : State :=
  let old := (s.loopSt n).mode
  let s1 := match Tab.get none s.xng.safe n with
    | some r =>
      let s1 := s.driveOut r.outPt r.val
      let s2 := match r.out2Pt with | some p => s1.driveOut p r.val2 | none => s1
      { s2 with ce := { s2.ce with pend := Tab.upd {} s2.ce.pend n (fun q => { ack := q.ack, align := q.align }), view := Tab.upd {} s2.ce.view n fun v =>
          { v with mode := .safe, cause := 2, u := r.val, u2 := if r.out2Pt.isSome then r.val2 else 0 } } }
    | none => s
  if old = .safe then s1
  else ((s1.record .ce 0 0x0910 [n, old.code, LMode.safe.code, 2]).loopEvt n 9).raise .ce 0 0x0910 .alarm

/-- XNG_DIS_LOG holds the first cause until cleared (Table XNG-7). -/
def State.disLog (s : State) (item : Nat) (stream : Bool) (majority : Nat) : State :=
  match s.xng.dis with
  | some _ => s
  | none => s.updXng fun x => { x with dis := some { item := item, stream := stream, majority := majority, time := s.now } }

/-- SAFE_REACTION (R146): causes 1 DISAGREE, 2 NO_MAJORITY, 3 LANE_LOSS. After a voter fault the Crossing writes nothing (R156). -/
def State.safeReact (s : State) (cause item : Nat) (stream : Bool) (majority : Nat) : State :=
  if s.xng.reacted || s.xng.voterFault || decide (s.xng.mode = .none) then s
  else
    let active := s.loopsActive
    let s1 := (active.foldl State.loopSafe s).holdStreams
    let s2 := (s1.disLog item stream majority).updXng fun x => { x with reacted := true, lossDue := false, safeCause := cause }
    let s3 := (s2.record .xng 0 0x0A16 [cause, item, majority, active.length]).irq .xng 10
    (s3.raise .xng 0 0x0A16 .fault).modeUpdate false

/-- The test of a lane is aborted (R153): it goes straight to COPY, or to HALTED where no lane is left to copy from. -/
def State.abortTest (s : State) (l : Nat) : State :=
  let k := s.lane l
  let dur := (s.now - k.t0) / 1000
  let s1 := (match s.votingLanes with
    | v :: _ => s.updLane l fun k => { k with state := .copy, copySrc := v, copied := false }
    | [] => s.updLane l fun k => { k with state := .halted }).updXng fun x =>
      { x with testLane := l, testCause := k.cause, testResult := 3, testDur := dur % 65536, nextLane := l }
  (s1.record .xng 0 0x0A12 [l, k.cause, 3, dur]).irq .xng 9

/-- After a lane left the vote: rolling and DEMAND tests are aborted (R153), copies restart from another lane or end in HALTED (Table
XNG-5). -/
def State.laneLeft (s : State) : State :=
  (List.range 3).foldl (fun s l =>
    let k := s.lane l
    if k.state = .bist ∧ (k.cause = 1 ∨ k.cause = 5) ∧ !k.passed then s.abortTest l
    else if k.state = .copy ∧ !(s.votingLanes.contains k.copySrc) then
      (match s.votingLanes with
       | v :: _ => s.updLane l fun k => { k with copySrc := v, copied := false }
       | [] => s.updLane l fun k => { k with state := .halted }).irq .xng 9
    else s) s

/-- Whether too few lanes are left to vote (R145): none, or one that may not vote alone. -/
def State.lanesLost (s : State) : Bool :=
  match s.votingLanes with
  | [] => true
  | [_] => !s.singleAllowed
  | _ => false

/-- LANE_LOSS (R145, R146): the vote stage after the lane left is the origin of the reaction, and the remaining lane goes to HALTED. -/
def State.laneLoss (s : State) (item : Nat) (stream : Bool) : State :=
  let s1 := s.safeReact 3 item stream 0
  (s1.votingLanes.foldl (fun s l => (s.updLane l fun k => { k.noFlags with state := .halted }).irq .xng 9) s1).laneLeft.modeUpdate false

/-- What follows when lanes have left the vote. -/
def State.afterLeave (s : State) : State :=
  let s1 := s.laneLeft
  if s1.xng.mode = .none then s1
  else if s1.lanesLost then s1.updXng fun x => { x with lossDue := true }
  else s1.modeUpdate false

/-! ### The vote -/

/-- A lane withdraws (R142), with LANE_WITHDRAW and WARN. -/
def State.withdraw (s : State) (l item : Nat) (f : Lane → Lane) : State :=
  let s1 := s.faultLane l 2 f
  (s1.record .xng 0 0x0A10 [l, (s1.lane l).health / 256 % 32 * 256, item, (s1.lane l).fltCnt]).laneWarn l 0x0A10

/-- Change a lane's own copy of the configuration. -/
def State.updCfg (s : State) (l : Nat) (f : LaneCfg → LaneCfg) : State :=
  { s with ce := { s.ce with laneCfg := Tab.upd {} s.ce.laneCfg l f } }

/-- What a fault of a voting lane does before the vote (R142). -/
def State.laneFault (s : State) (item : Nat) (stream : Bool) (l : Nat) (f : LaneFault) : State :=
  if !s.votingLanes.contains l then s
  else
    match f with
    | .ue => s.withdraw l item fun k => { k with ue := true }
    | .descUe =>
      (s.updCfg l fun c => if stream then c else { c with badDesc := c.badDesc ++ [item] }).withdraw l item fun k => { k with ue := true }
    | .tabUe t => (s.updCfg l fun c => { c with badTab := c.badTab ++ [t.val] }).withdraw l item fun k => { k with ue := true }
    | .missing => s.withdraw l item fun k => { k with wdog := true }
    | .ecc n =>
      let s1 := s.updLane l fun k => { k with eccCe := min 255 (k.eccCe + n), eccFrame := k.eccFrame + n }
      if s.eccWd ≠ 0 ∧ s.eccWd ≤ (s1.lane l).eccFrame then s1.withdraw l item fun k => { k with eccRate := true } else s1
    | .flip _ => s
    | .sig m => s.updLane l fun k => { k with sig := k.sig ^^^ m }

/-- The bits that the faults of a lane change in its vote word. -/
def flipMask (faults : List (Fin 3 × LaneFault)) (l : Nat) : Nat :=
  faults.foldl (fun m x => match x.2 with | .flip k => if x.1.val = l then m ^^^ k else m | _ => m) 0

/-- A minority lane becomes SUSPECT (R143), with LANE_SUSPECT and WARN. -/
def State.outvote (s : State) (item : Nat) (stream : Bool) (l : Nat) (wordLo majority : Nat) : State :=
  let s1 := s.faultLane l 3 fun k => { k with outvoted := true }
  let s2 := (s1.record .xng 0 0x0A11 [l, item, wordLo % 2 ^ 32, (s1.lane l).fltCnt]).laneWarn l 0x0A11
  (s2.disLog item stream majority).afterLeave

/-- A DUAL disagreement or a TRIPLE vote without a majority (Table XNG-2): the safe reaction, and the lanes to BIST with cause DISAGREE. -/
def State.disagree (s : State) (cause item : Nat) (stream : Bool) (ls : List Nat) : State :=
  (ls.foldl (fun s l => s.faultLane l 6 id) (s.safeReact cause item stream 0)).laneLeft

/-- The disagreeing loop takes its safe values even where it was about to leave OFF (R146). -/
def State.itemSafe (s : State) (item : Nat) (stream : Bool) : State := if !stream && decide ((s.loopSt item).mode = .off) then s.loopSafe item else s

/-- A vote with a minority word (Table XNG-7): it is counted, and the minority lane becomes SUSPECT. -/
def State.minority (s : State) (item : Nat) (stream : Bool) (l w : Nat) (majority : List Nat) : State :=
  (s.updXng fun x => { x with outvotes := wrapInc x.outvotes }).outvote item stream l w (laneMask majority)

/-- The vote on the words that are present (Table XNG-2): the state after it and the lane whose result is written. -/
def State.voteWords (s : State) (item : Nat) (stream : Bool) (w : Nat → Nat) : State × Option Nat :=
  match s.votingLanes with
  | [a] => if s.singleAllowed then (s, some a) else (s, none)
  | [a, b] => if w a = w b then (s, some a) else ((s.itemSafe item stream).disagree 1 item stream [a, b], none)
  | [a, b, c] =>
    if w a = w b ∧ w b = w c then (s, some a)
    else if w a = w b then (s.minority item stream c (w c) [a, b], some a)
    else if w a = w c then (s.minority item stream b (w b) [a, c], some a)
    else if w b = w c then (s.minority item stream a (w a) [b, c], some b)
    else ((s.itemSafe item stream).disagree 2 item stream [a, b, c], none)
  | _ => (s, none)

/-- A frame signature after a vote word (R143): CRC-32C over the word's bytes, continued. -/
def foldSig (sig w : Nat) : Nat := crc32cFrom sig (natBytesLE (w % 2 ^ 64) 8)

/-- The voting lanes fold the words that they deliver into their frame signatures (R143). -/
def State.foldSigs (s : State) (w : Nat → Nat) : State :=
  s.votingLanes.foldl (fun s l => s.updLane l fun k => { k with sig := foldSig k.sig (w l) }) s

/-- The vote stage of an evaluation (R141–R146): the reaction to a lane lost before, or withdrawals and then the vote. `voter` says that the two
voter copies differ or that the safe table holds an uncorrectable error (R156), after which the Crossing writes nothing. -/
def State.vote (s : State) (item : Nat) (stream : Bool) (faults : List (Fin 3 × LaneFault)) (voter : Bool) (w : Nat → Nat) :
    State × Option Nat :=
  if s.xng.mode = .none ∨ s.xng.voterFault then (s, none)
  else if voter then
    (((s.updXng fun x => { x with voterFault := true }).err .xng errVoterFault).raiseSafePath .xng 0 0x0A23, none)
  else if s.xng.lossDue then (s.laneLoss item stream, none)
  else
    let s1 := faults.foldl (fun s x => s.laneFault item stream x.1.val x.2) s
    let s2 := if s1.votingLanes = s.votingLanes then s1 else s1.afterLeave
    let wf := fun l => w l ^^^ flipMask faults l
    ((s2.foldSigs wf).updXng fun x => { x with votes := wrapInc x.votes }).voteWords item stream wf

/-! ### Lane tests, copies and commands -/

/-- LANE_BIST_END (R149, R151): result 0 PASS, 1 LOGIC_FAIL, 2 MEM_FAIL. -/
def execLaneBistEnd (l : Fin 3) (result : Fin 3) (s : State) : Out :=
  .next (
    let k := s.lane l.val
    if k.state ≠ .bist ∨ k.passed then s
    else
      let dur := (s.now - k.t0) / 1000
      let s1 := (s.updXng fun x => { x with testLane := l.val, testCause := k.cause, testResult := result.val, testDur := dur % 65536 }).record
        .xng 0 0x0A12 [l.val, k.cause, result.val, dur]
      if result.val ≠ 0 then
        let s2 := (s1.updLane l.val fun k => { k with state := .failed, bistFail := true }).irq .xng 9
        (s2.record .xng 0 0x0A14 [l.val, k.cause, k.fltCnt]).raise .xng 0 0x0A14 .alarm
      else
        let s2 := s1.updLane l.val fun k => { k with tested := true, passed := true }
        if k.cause ≠ 0 ∧ s.votingLanes = [] then
          let s3 := s2.updLane l.val fun k => { k with state := .halted }
          if k.cause = 1 then s3 else s3.irq .xng 9
        else s2)

/-- A lane's copy of the configuration, and whether two lanes' copies are the same: equal descriptors and tables without an uncorrectable error. -/
def State.cfg (s : State) (l : Nat) : LaneCfg := Tab.get {} s.ce.laneCfg l
def State.sameCfg (s : State) (l m : Nat) : Bool :=
  decide (s.cfg l = s.cfg m) && decide ((s.cfg l).badDesc = []) && decide ((s.cfg l).badTab = [])

/-- LANE_STATE_COPY_DONE (R152): the configuration is compared with the source's and copied on a mismatch, and the state copy is complete;
`t10` is the copy's time in units of 10 ns. `collide` says that the CRC-32C of two different configurations is the same, so that the difference
goes unseen. -/
def execLaneStateCopyDone (l : Fin 3) (collide : Bool) (t10 : Nat) (s : State) : Out :=
  .next (
    let k := s.lane l.val
    if k.state ≠ .copy then s
    else
      let repair := !s.sameCfg l.val k.copySrc && !collide
      let s1 := if repair then s.updCfg l.val fun _ => s.cfg k.copySrc else s
      (s1.updLane l.val fun k => { k with copied := true, copyTime := t10 % 65536, cfgRepair := repair }).updXng fun x =>
        { x with rejoinLane := l.val, rejoinRepair := repair, rejoinTime := t10 % 65536 })

/-- FLT_DECAY_EXPIRY (R148): FLT_DECAY seconds in VOTING. -/
def execFltDecayExpiry (l : Fin 3) (s : State) : Out :=
  .next (
    if (s.lane l.val).state = .voting then s.updLane l.val fun k => { k with fltCnt := k.fltCnt - 1 } else s)

/-- ROLLING_TEST_DUE (R150): the timer reaches XNG_TEST_PERIOD. -/
def execRollingTestDue (s : State) : Out :=
  .next (if (s.hd .xng).running then s.updXng fun x => { x with due := true } else s)

/-- ROLLING_TEST_OVERDUE (R150): a due test was postponed by more than one test period. -/
def execRollingTestOverdue (s : State) : Out :=
  .next (
    if s.xng.due && !s.xng.overdue then (s.updXng fun x => { x with overdue := true }).raiseNoCode .xng 0 .warn else s)

/-- XNG_TEST (R149): a voting lane goes to BIST with cause DEMAND in TRIPLE mode, else TEST_REFUSED. -/
def execXngTest (p : Principal) (l : Fin 3) (s : State) : Out :=
  .next (s.gated .xng 0x10C .wo p (word (l.val + 0x100)) fun s =>
    if s.xng.mode = .triple then (((s.updLane l.val Lane.noFlags).toBist l.val 5).irq .xng 9).modeUpdate false else s.err .xng errTestRefused)

/-- XNG_RETRY (R149). -/
def execXngRetry (p : Principal) (l : Fin 3) (s : State) : Out :=
  .next (s.gated .xng 0x10C .wo p (word (l.val + 0x200)) fun s =>
    if (s.lane l.val).state = .failed then (s.toBist l.val 4).irq .xng 9 else s.err .xng errLaneState)

/-- The lanes in a state. -/
def State.lanesIn (s : State) (st : LaneState) : List Nat := (List.range 3).filter fun l => decide ((s.lane l).state = st)

/-- Whether the configuration CRCs of all HALTED lanes match (R154). -/
def State.haltedAgree (s : State) : Bool :=
  match s.lanesIn .halted with
  | a :: t => t.all fun l => s.sameCfg l a
  | [] => true

/-- XNG_RESTART (R154). `collide` as for LANE_STATE_COPY_DONE. -/
def execXngRestart (p : Principal) (collide : Bool) (s : State) : Out :=
  .next (s.gated .xng 0x10C .wo p 0x400 fun s =>
    let h := (s.lanesIn .halted).length
    if s.xng.mode = .none ∧ (2 ≤ h ∨ (h = 1 ∧ s.singleAllowed)) ∧ (s.haltedAgree ∨ collide) then s.updXng fun x => { x with restart := true }
    else s.err .xng errRestartRefused)

/-- XNG_DIS_LOG_CLEAR (R157). -/
def execXngDisLogClear (p : Principal) (s : State) : Out :=
  .next (s.gated .xng 0x140 .w1c p 0x80000000 fun s => s.updXng fun x => { x with dis := none })

/-! ### The base-frame boundary, start and stop -/

/-- The frame signatures are compared (R143). A minority lane is SUSPECT from here and enters BIST at the next boundary. -/
def State.sigCompare (s : State) : State :=
  let sg := fun l => (s.lane l).sig
  match s.votingLanes with
  | [a, b] => if sg a = sg b then s else s.disagree 1 0 false [a, b]
  | [a, b, c] =>
    if sg a = sg b ∧ sg b = sg c then s
    else if sg a = sg b then s.outvote 0 false c (sg c) (laneMask [a, b])
    else if sg a = sg c then s.outvote 0 false b (sg b) (laneMask [a, c])
    else if sg b = sg c then s.outvote 0 false a (sg a) (laneMask [b, c])
    else s.disagree 2 0 false [a, b, c]
  | _ => s

/-- SUSPECT lanes enter BIST (R143). -/
def State.suspectsToBist (s : State) : State :=
  (List.range 3).foldl (fun s l => if (s.lane l).suspect then (s.toBist l 3).irq .xng 9 else s) s

/-- A lane enters VOTING with a set of loop states. -/
def State.toVoting (s : State) (l : Nat) (st : Tab LoopState) : State :=
  let s1 := s.updLane l fun k => { k with state := .voting, tested := false, passed := false, copied := false, sig := 0 }
  { s1 with ce := { s1.ce with lanes := Tab.put [] s1.ce.lanes l st } }

/-- The lanes of the start enter VOTING together once every POWER_ON test has ended, with loop state zero (Table XNG-5). -/
def State.powerOnLanes (s : State) : State :=
  let ready := (s.lanesIn .bist).filter fun l => decide ((s.lane l).cause = 0) && (s.lane l).passed
  if (s.lanesIn .bist).any (fun l => decide ((s.lane l).cause = 0) && !(s.lane l).passed) then s
  else ready.foldl (fun s l => (s.toVoting l []).irq .xng 9) s

/-- Whether a lane's transition belongs to a rolling test that passes (R157). -/
def Lane.quiet (k : Lane) : Bool := decide (k.cause = 1) && k.passed

/-- Copies that are complete end in VOTING (R152), with REJOIN. -/
def State.rejoinLanes (s : State) : State :=
  ((s.lanesIn .copy).filter fun l => (s.lane l).copied).foldl (fun s l =>
    let k := s.lane l
    let s1 := (s.toVoting l (Tab.get [] s.ce.lanes k.copySrc)).updLane l fun k => { k with rejoins := satInc 255 k.rejoins }
    let s2 := s1.record .xng 0 0x0A13 [l, k.copyTime, b2n k.cfgRepair]
    if k.quiet then s2 else s2.irq .xng 9) s

/-- Lanes that passed a test other than POWER_ON enter COPY, or HALTED where no lane votes (Table XNG-5). -/
def State.passedLanes (s : State) : State :=
  ((s.lanesIn .bist).filter fun l => (s.lane l).passed && decide ((s.lane l).cause ≠ 0)).foldl (fun s l =>
    let s1 := match s.votingLanes with
      | v :: _ => s.updLane l fun k => { k with state := .copy, copySrc := v, copied := false }
      | [] => s.updLane l fun k => { k with state := .halted }
    if (s.lane l).quiet then s1 else s1.irq .xng 9) s

/-- An accepted restart (R154): the HALTED lanes vote, every loop with its safe values, and in SAFE where it was not OFF. -/
def State.restartLanes (s : State) : State :=
  if !s.xng.restart then s
  else
    let s0 := s.updXng fun x => { x with restart := false }
    let ls := s0.lanesIn .halted
    if ls = [] then s0
    else
      let st : Tab LoopState := s.loopsUsed.foldl (fun t n =>
        let r := (Tab.get none s.xng.safe n).getD {}
        Tab.put {} t n { mode := if (s.loopSt n).mode = .off then .off else .safe, u := r.val, u2 := if r.out2Pt.isSome then r.val2 else 0 }) []
      let s1 := ls.foldl (fun s l => (s.toVoting l st).irq .xng 9) (s0.updXng fun x => { x with reacted := false })
      { s1 with ce := { s1.ce with view := st } }.record .xng 0 0x0A17 [laneMask ls]

/-- A due rolling test starts (R150). -/
def State.rollingStart (s : State) : State :=
  let l := s.xng.nextLane
  if s.xng.due && decide (s.xng.mode = .triple) && !bit (s.reg R.XNG_TEST_CTRL) 0 && s.testEn then
    (((s.updLane l Lane.noFlags).toBist l 1).updXng fun x => { x with due := false, overdue := false, testFrames := 0, nextLane := (l + 1) % 3 }).modeUpdate true
  else s

/-- What XNG does at a base-frame boundary. -/
def State.xngBoundary (s : State) : State :=
  if !(s.hd .xng).running then s
  else
    let s1 := (s.suspectsToBist).sigCompare
    let s2 := (((s1.rejoinLanes).powerOnLanes).restartLanes).passedLanes
    let s3 := (s2.modeUpdate false).updXng fun x =>
      { x with testFrames := x.testFrames + 1,
               lanes := (List.range 3).foldl (fun t l => Tab.upd {} t l fun k => { k with sig := 0, eccFrame := 0 }) x.lanes }
    s3.rollingStart

/-- BLK_CTRL.RUN = 1 of XNG (Table XNG-5): all three lanes to BIST with cause POWER_ON. -/
def State.xngStart (s : State) : State :=
  ((List.range 3).foldl (fun s l => if (s.lane l).state = .off then s.toBist l 0 else s) (s.updXng fun x => { x with testFrames := 0 })).irq .xng 9

/-- The Crossing stops: every lane OFF, mode NONE (R155), but a FAILED one, which is out of service until RETRY or a full reset (Table XNG-4);
the next start votes anew. -/
def State.xngStop (s : State) : State :=
  let s1 := (List.range 3).foldl (fun s l => s.updLane l fun k => if k.state = .failed then k else { k with state := .off, suspect := false })
    (s.updXng fun x => { x with reacted := false, lossDue := false, restart := false, due := false, overdue := false })
  { s1 with ce := { s1.ce with lanes := [] } }.modeUpdate false

/-- Whether XNG refuses a PMC sleep request (R155). -/
def State.xngBusy (s : State) : Bool := decide (s.lanesIn .bist ≠ []) || decide (s.lanesIn .copy ≠ [])

end Sys2Proof.Machine
end

