-- ==== Sys2Proof/Machine/LoopEval.lean ====
section
/-!
DEFINITION. LOOP_EVALUATION (R93): the inputs that every voting lane reads, the evaluation in each lane, the vote, and the voted result's way to the
output points, the delay line and the loop's events.
-/

namespace Sys2Proof.Machine

/-- What a lane reads of a referenced table (R125–R127). -/
def State.tabIn (s : State) (en : Bool) (t : Nat) : Option TabIn :=
  if !en then none
  else
    let c := Tab.get {} s.ce.tabs t
    let e := s.readPoint c.idxPt
    some { tab := c, p := e.value, bad := isBad e.q, dir := if c.dirSel then some (s.readPoint c.dirPt).value.toInt else none }

/-- Whether a loop's rate exceeds 10 kHz (R104): a period below 100 base frames, of an outer loop its derived one. -/
def State.loopFast (s : State) (d : LoopDesc) : Bool := decide (loopPeriod s.loop 4 d < 100)

/-- What waits for a loop, with TIME_DEGRADED and RUN = 0 as they stand (R104, Table CE-4). -/
def State.loopPend (s : State) (n : Nat) (d : LoopDesc) : LoopPend :=
  let p := Tab.get {} s.ce.pend n
  { p with timeDeg := p.timeDeg || (s.clk.timeDeg && s.loopFast d), runStop := p.runStop || !(s.hd .ce).run }

/-- A lane's own copy of a descriptor (R138). -/
def State.laneDesc (s : State) (l n : Nat) : LoopDesc := Tab.get {} (Tab.get {} s.ce.laneCfg l).desc n

/-- A lane's own active copy of a table (R124). -/
def State.laneTab (s : State) (l t : Nat) : CompTab := Tab.get {} (Tab.get {} s.ce.laneCfg l).tabs t

/-- The group read of an evaluation (R93 step 1). -/
def State.loopIn (s : State) (n : Nat) (dlyUe : Bool) : LoopIn :=
  let d := s.loop n
  let e := s.readPoint d.inPt
  let sp := s.readPoint d.spPt
  let o := s.readPoint d.outPt
  { y := formInput d (s.point d.inPt).kind e.value, q := e.q,
    sp := if d.spSrc = 1 ∧ !isBad sp.q then some sp.value.toInt else none,
    localT := (Tab.get none s.ce.localT n).getD d.spConst,
    childT := Tab.get none s.ce.childT n,
    start := if isValid o.q then some (sext 16 o.value.toNat) else none,
    ud := Tab.get 0 s.ce.delay ((Tab.get {} s.ce.place n).dlyBase + (s.loopSt n).dlyPtr),
    dlyUe := dlyUe && d.modelEn,
    tabA := s.tabIn d.tabAEn d.tabA, tabB := s.tabIn d.tabBEn d.tabB,
    child := if d.rate = 5 then some ((s.loopSt d.child).mode, (s.loopSt d.child).r) else none,
    linkOk := s.linkOk n, pend := s.loopPend n d }

/-- The severity that a trip raises by its reaction (Table CE-15). The ALARM of SAFE_OUTPUT is raised with the entry into SAFE (Tables CE-4, CE-24). -/
def tripSev : Nat → Option Severity
  | 0 => some .info | 1 => some .warn | 2 => some .warn | _ => none

/-- What an evaluation reports: its records, event bits and errors (R111, R112, R134, R136). -/
def State.loopEvent (s : State) (n : Nat) (e : LoopEv) : State :=
  match e with
  | .mode old new cause =>
    let s1 := s.record .ce 0 0x0910 [n, old.code, new.code, cause]
    let s2 := if cause = 0 ∨ cause = 1 then s1 else s1.loopEvt n 9
    let s3 := if cause = 5 then s2.raise .ce 0 0x0910 .warn
      else if new = .safe ∧ (cause = 3 ∨ cause = 4) then s2.raise .ce 0 0x0910 .alarm else s2
    if new = .off ∧ (s.loop n).rate = 5 then s3.updPend (s.loop n).child fun p => { p with parentOff := true } else s3
  | .refused => s.err .ce errModeRefused
  | .inBad q => (s.record .ce 0 0x0913 [n, q.toNat]).loopEvt n 10
  | .inGood => s.record .ce 0 0x0914 [n]
  | .trip src react value acts =>
    let s1 := s.record .ce 0 0x0920 [n, src, react, (value % 2 ^ 32).toNat]
    let s2 := { s1 with ce := { s1.ce with trip := Tab.upd 0 s1.ce.trip (n / 32) fun w => setBit w (n % 32) } }
    let s3 := (s2.irq .ce 11).routeEvt .ce 1 n
    match tripSev react, acts with
    | some v, true => s3.raise .ce 0 0x0920 v
    | _, _ => s3
  | .clear cause => s.record .ce 0 0x0921 [n, cause]
  | .dlyUe =>
    (s.record .ce 0 0x0924 [n, (Tab.get {} s.ce.place n).dlyBase + (s.loopSt n).dlyPtr]).err .ce errDlyUe

/-- Fill a run of the delay memory. -/
def fillDelay (t : Tab Int) (base len : Nat) (v : Int) : Tab Int := Tab.putList 0 t base (List.replicate len v)

/-- The delay line of a model-enabled loop after a vote (R117, R118): filled anew where the evaluation asks for it, then the voted u. -/
def State.delayLine (s : State) (n : Nat) (o : LoopOut) : State :=
  let d := s.loop n
  if !d.modelEn || !o.wr then s
  else
    let base := (Tab.get {} s.ce.place n).dlyBase
    let t := match o.fill with | some v => fillDelay s.ce.delay base d.dead v | none => s.ce.delay
    { s with ce := { s.ce with delay := Tab.put 0 t (base + (s.loopSt n).dlyPtr) o.st.u } }

/-- The Crossing writes the voted result (R141). -/
def State.loopWrite (s : State) (n : Nat) (o : LoopOut) : State :=
  let d := s.loop n
  if !o.wr then s
  else
    let s1 := s.driveOut d.outPt o.a
    if d.law = .split then s1.driveOut d.out2Pt o.b else s1

/-- A voted evaluation takes effect: outputs, delay line, loop states of the voting lanes, targets, what waits, events. `rs` holds the results
of the voting lanes. -/
def State.loopTake (s : State) (n : Nat) (rs : List (Nat × LoopOut × Option LMode)) (o : LoopOut) (sup : Option LMode) : State :=
  let d := s.loop n
  let s1 := (s.loopWrite n o).delayLine n o
  let lanes := rs.foldl (fun t r => Tab.upd [] t r.1 fun m => Tab.put {} m n r.2.1.st) s1.ce.lanes
  let ce1 := { s1.ce with lanes := lanes, pend := Tab.put {} s1.ce.pend n { sup := sup, release := o.release } }
  let ce2 := match o.localT with | some v => { ce1 with localT := Tab.put none ce1.localT n (some v) } | none => ce1
  let ce3 := if d.rate = 5 ∧ o.wr then { ce2 with childT := Tab.put none ce2.childT d.child (some o.st.u) } else ce2
  let s2 := o.ev.foldl (fun s e => s.loopEvent n e) { s1 with ce := ce3 }
  { s2 with ce := { s2.ce with view := Tab.put {} s2.ce.view n o.st } }

/-- The evaluation counts of a loop that an outer loop divides (R98). -/
def State.countChild (s : State) (n : Nat) : State :=
  match s.outerOf n with
  | some p => { s with ce := { s.ce with linkCnt := Tab.upd 0 s.ce.linkCnt p (· + 1) } }
  | none => s

/-- Whether an outer loop evaluates now: at every N-th evaluation of its child (R98). -/
def State.outerDue (s : State) (n : Nat) (d : LoopDesc) : Bool :=
  decide (d.rate ≠ 5) || (let c := Tab.get 0 s.ce.linkCnt n; decide (0 < c) && decide (c % d.divN = 0))

/-- While no vote is taken, only a command OFF or RUN = 0 changes a loop's mode (R146). -/
def State.loopNoVote (s : State) (n : Nat) (d : LoopDesc) : State :=
  let i := s.loopIn n false
  let off := i.pend.runStop || (match i.pend.cmd with | some c => decide (c.mode = some .off) | none => false)
  if !off then s
  else
    let st := s.loopSt n
    let (st1, ev, _) := changeMode d i st
    let s1 := { s with ce := { s.ce with pend := Tab.put {} s.ce.pend n {} } }
    let s2 := ev.foldl (fun s e => s.loopEvent n e) s1
    { s2 with ce := { s2.ce with view := Tab.put {} s2.ce.view n st1 } }

/-- BLK_STAT.RUNNING of CE clears once every loop is OFF after RUN = 0. -/
def State.ceSettle (s : State) : State :=
  if !(s.hd .ce).run && decide (s.loopsActive = []) then s.updHd .ce fun h => { h with running := false } else s

/-- What the ECC finds in the entries of a group read (R68). -/
def State.readEcc (s : State) (eccs : List (Fin 65536 × EccRead)) : State := eccs.foldl (fun s x => s.hotEcc x.1.val x.2) s

/-- The evaluation of a loop in lane `l`: its own descriptor, its own tables and its own state, on the reads that every lane gets (R138). -/
def State.laneEval (s : State) (n : Nat) (i : LoopIn) (l : Nat) : LoopOut × Option LMode :=
  let d := s.laneDesc l n
  evalLoop d { i with tabA := i.tabA.map fun x => { x with tab := s.laneTab l d.tabA }, tabB := i.tabB.map fun x => { x with tab := s.laneTab l d.tabB } }
    (s.laneLoop l n)

/-- LOOP_EVALUATION (R93, R139, R141): one evaluation instant of a loop. `faults` are what happens in the lanes, `eccs` what the ECC finds in
the hot entries read, `dlyUe` an uncorrectable error of its delay line, `voter` a difference of the voter copies or
an uncorrectable error of the safe table (R156). -/
def execLoopEvaluation (n : Fin 1024) (faults : List (Fin 3 × LaneFault)) (eccs : List (Fin 65536 × EccRead)) (dlyUe voter : Bool) (s : State) : Out :=
  .next (
    let d := s.loop n.val
    if d.law = .none ∨ !(s.hd .ce).running ∨ !s.outerDue n.val d then s
    else
      let s0 := s.countChild n.val
      let p := s0.loopPend n.val d
      if (s0.loopSt n.val).mode = .off ∧ (p.cmd.isNone ∨ p.runStop) then s0.ceSettle
      else if s0.xng.mode = .none then (s0.loopNoVote n.val d).ceSettle
      else
        let s1 := s0.readEcc eccs
        let i := s1.loopIn n.val dlyUe
        let res := s1.laneEval n.val i
        let (s2, w) := s1.vote n.val false faults voter fun l => loopVoteWord (res l).1.st (res l).1.a (res l).1.b
        match w with
        | some l => (s2.loopTake n.val (s2.votingLanes.map fun l => (l, res l)) (res l).1 (res l).2).ceSettle
        | none => s2)

end Sys2Proof.Machine
end

