-- ==== Sys2Proof/Machine/CanCmd.lean ====
section
/-!
DEFINITION. The CAN FD controllers (R431–R441): objects and filters, receive and transmit, error and controller states. CAN_WAKE_DETECT, which
is a wake source of PMC too, is in Pmc.
-/

namespace Sys2Proof.Machine

def errBadTiming : Nat := 0x20
def errCtrlState : Nat := 0x21
def errTxPending : Nat := 0x22
def errObjLocked : Nat := 0x23
def errFdDisabled : Nat := 0x24

/-- A controller, its registers and its objects. -/
def State.cctl (s : State) (n : Nat) : CanCtl := Tab.get {} s.can.ctl n
def State.updCctl (s : State) (n : Nat) (f : CanCtl → CanCtl) : State := { s with can := { s.can with ctl := Tab.upd {} s.can.ctl n f } }
def State.canCfg (s : State) (n : Nat) : Word := s.regAt R.CAN_CFG (0x1000 * n)
def cobj (n m : Nat) : Nat := n * 64 + m
def State.cobjs (s : State) (n : Nat) (f : CanObj → Bool) : List Nat := (List.range 64).filter fun m => f (s.canObj (cobj n m))

/-- The codes of CAN_STAT. -/
def CanState.code : CanState → Nat
  | .config => 0 | .integrating => 1 | .active => 2 | .busOff => 3 | .recovering => 4 | .sleep => 5

/-- The error state of CAN_STAT[5:4]. -/
def CanCtl.errState (c : CanCtl) : Nat :=
  if c.state = .busOff ∨ c.state = .recovering then 2 else b2n c.passive

/-- The ERR event of a controller (R440). -/
def State.canErrEvt (s : State) (n : Nat) : State := (s.irq .can 10).routeEvt .can 2 n

/-- A controller changes state. -/
def State.canTo (s : State) (n : Nat) (st : CanState) : State := (s.updCctl n fun c => { c with state := st }).canErrEvt n

/-- CAN_STAT.RESULT, with BLK_ERR for an error. -/
def State.canResult (s : State) (n e : Nat) : State :=
  let s1 := s.updCctl n fun c => { c with result := e }
  if e = 0 then s1 else s1.err .can e

/-- The points bound to an object (Table PTD-3). -/
def State.objPoints (s : State) (k : Nat) : List Nat := s.pointsWhere fun e => decide (e.srcType = .can) && decide (e.srcRef / 2 ^ 20 % 256 = k)
def State.markObj (s : State) (k : Nat) (f : Byte → Byte) : State :=
  if (s.canObj k).pt then (s.objPoints k).foldl (fun s i => s.markPoint i f) s else s

/-- The data bytes of a DLC (ISO 11898-1). -/
def dlcBytes (dlc : Nat) (fd : Bool) : Nat :=
  if dlc ≤ 8 then dlc
  else if !fd then 8
  else match dlc with
    | 9 => 12 | 10 => 16 | 11 => 20 | 12 => 24 | 13 => 32 | 14 => 48 | _ => 64

/-! ### Requests that end (R433, R436) -/

/-- A pending request ends with a result. -/
def State.txEnd (s : State) (k result : Nat) : State := s.updCanObj k fun o => { o with txReq := false, abort := false, txResult := result }

/-- Every pending request of a controller is cleared with result 3. -/
def State.clearReqs (s : State) (n : Nat) : State := (s.cobjs n CanObj.txReq).foldl (fun s m => s.txEnd (cobj n m) 3) s

/-- An object is disabled (R433). -/
def State.objOff (s : State) (k : Nat) : State :=
  let o := s.canObj k
  let s1 := s.updCanObj k fun o => { o with o0 := clrBit o.o0 0, shadow := none, disable := false, changed := false }
  if o.tx then (if o.txReq then s1.txEnd k 2 else s1) else s1.markObj k markStale

/-- STOP takes effect (Table CAN-3). -/
def State.canStop (s : State) (n : Nat) : State :=
  ((s.clearReqs n).updCctl n fun c => { c with stop := false, sleep := false }).canTo n .config

/-- SLEEP takes effect. -/
def State.canSleep (s : State) (n : Nat) : State := (s.updCctl n fun c => { c with sleep := false }).canTo n .sleep

/-- What waited for the end of the frame on the bus takes effect: disables, then STOP or SLEEP. -/
def State.frameEnd (s : State) (n : Nat) : State :=
  let s1 := (s.cobjs n CanObj.disable).foldl (fun s m => s.objOff (cobj n m)) (s.runFollow .can)
  if (s1.cctl n).stop then s1.canStop n else if (s1.cctl n).sleep then s1.canSleep n else s1

/-! ### Error states (R438) -/

/-- Bus-off (Table CAN-3): a SLEEP that waited for the frame's end lapses, requests are cleared, bound receive points are COMM_LOST; with AUTO_RECOVER recovery starts at once. -/
def State.busOff (s : State) (n : Nat) : State :=
  let c := s.cctl n
  let s1 := (s.clearReqs n).updCctl n fun c => { c with offAt := s.now, sleep := false }
  let s2 := (s1.cobjs n fun o => o.en && !o.tx).foldl (fun s m => s.markObj (cobj n m) markCommLost) s1
  let s3 := ((s2.record .can n 0x1611 [c.tec, c.lec]).raise .can n 0x1611 .alarm).canTo n .busOff
  if bit (s.canCfg n) 3 then s3.canTo n .recovering else s3

/-- The counters after a frame: the error state follows them. -/
def State.canCount (s : State) (n tec rec_ : Nat) : State :=
  let old := s.cctl n
  let p := decide (127 < tec) || decide (127 < rec_)
  let s1 := s.updCctl n fun c => { c with tec := tec, rec_ := rec_, passive := p }
  if 255 < tec then s1.busOff n
  else if p ≠ old.passive then (s1.record .can n 0x1610 [b2n old.passive, b2n p, tec, rec_]).canErrEvt n
  else s1

/-! ### Receive (R434, R435, R437) -/

/-- A received frame. -/
structure CanRx where
  id : Nat
  xtd : Bool
  buf : CanBuf

/-- Whether filter `f` takes a frame. -/
def State.filterHit (s : State) (n f : Nat) (x : CanRx) : Bool :=
  let d := 0x1000 * n + 16 * f
  let f0 := s.regAt R.CAN_F0 d
  let m := bits (s.regAt R.CAN_F1 d) 28 0
  bit f0 31 && decide (bit f0 29 = x.xtd) && decide (x.id &&& m = bits f0 28 0 &&& m)

/-- What a point reads from a frame's data, or `none` beyond it (R437). -/
def canRead (e : DirEntry) (data : List Byte) : Option Word :=
  let o := e.srcRef % 65536
  let at_ := fun (n : Nat) => if o / 8 + n ≤ data.length then some (leNat ((data.drop (o / 8)).take n)) else none
  match e.kind with
  | .bit => if o / 8 < data.length then some (word (b2n ((nth 0 data (o / 8)).getLsbD (o % 8)))) else none
  | .int32 => (at_ 4).map word
  | _ => (at_ 2).map fun x => wordI (sext 16 x)

/-- A frame writes the points bound to its object (R437). -/
def State.canPoints (s : State) (k : Nat) (x : CanBuf) : State :=
  if !(s.canObj k).pt then s
  else (s.objPoints k).foldl (fun s i =>
    match canRead (s.point i) x.data with
    | some v => s.pointWrite i v qValid x.ts
    | none => s.pointWrite i (s.entry i).value 0 x.ts) s

/-- A frame is placed in its object (R435). -/
def State.canPlace (s : State) (n m : Nat) (x : CanBuf) : State :=
  let k := cobj n m
  let s1 := s.updCanObj k fun o =>
    if o.reading then { o with shadow := some x, ovr := o.ovr || o.shadow.isSome }
    else { o with buf := x, new_ := true, ovr := o.ovr || o.new_,
                  o2 := word (x.dlc + 16 * b2n x.fdf + 32 * b2n x.brs + 64 * b2n x.esi) }
  let s2 := (s1.updCctl n fun c => { c with rxEvt := Tab.upd 0 c.rxEvt (m / 32) fun w => setBit w (m % 32) }).irq .can 8
  (s2.routeEvt .can 0 k).canPoints k x

/-- A frame that a controller receives passes the filters (R434). -/
def State.canDeliver (s : State) (n : Nat) (x : CanRx) : State :=
  let disc := s.updCctl n fun c => { c with rxDisc := wrapInc c.rxDisc }
  match (List.range 128).find? fun f => s.filterHit n f x with
  | none => disc
  | some f =>
    let f2 := s.regAt R.CAN_F2 (0x1000 * n + 16 * f)
    let m := bits f2 5 0
    let o := s.canObj (cobj n m)
    if bit f2 8 then s
    else if o.en && !o.tx then s.canPlace n m x.buf else disc

/-- CAN_FRAME_RX (R434): a frame on the bus with the network time `t` of its start-of-frame sample point. The receive error counter falls; from
above 127 it falls to a value of 119 to 127 (ISO 11898-1), which is free. -/
def execCanFrameRx (n : Fin 4) (id : BitVec 29) (xtd fdf brs esi : Bool) (dlc : Fin 16) (t : Nat) (data : List Byte) (s : State) : Out :=
  .next (
    let c := s.cctl n.val
    if c.state ≠ .active ∨ (fdf && !bit (s.canCfg n.val) 2) ∨ bits (s.canCfg n.val) 1 0 = 2 then s
    else
      let x : CanBuf := { dlc := dlc.val, fdf := fdf, brs := brs, esi := esi, ts := t,
                          data := (data ++ List.replicate 64 0).take (dlcBytes dlc.val fdf) }
      let (k, s1) := s.draw
      let r := if 127 < c.rec_ then 119 + (Config.freeWord k).toNat % 9 else c.rec_ - 1
      ((s1.canDeliver n.val { id := id.toNat, xtd := xtd, buf := x }).canCount n.val c.tec r).frameEnd n.val)

/-! ### Transmit (R436, R437) -/

/-- The order of pending requests: ascending identifier, 11-bit before 29-bit of equal value, then the lower object. -/
def CanObj.rank (o : CanObj) (m : Nat) : Nat := (bits o.o1 28 0 * 2 + b2n (bit o.o1 29)) * 64 + m

/-- The object whose request is sent next. -/
def State.nextTx (s : State) (n : Nat) : Option Nat :=
  (s.cobjs n fun o => o.txReq && o.en && o.tx).foldl (fun best m =>
    match best with
    | some b => if (s.canObj (cobj n m)).rank m < (s.canObj (cobj n b)).rank b then some m else some b
    | none => some m) none

/-- The data of a transmit object, filled from its points (R437). -/
def State.canFill (s : State) (k : Nat) : List Byte :=
  let o := s.canObj k
  let base := (o.buf.data ++ List.replicate 64 0).take 64
  if !o.pt then base
  else (s.objPoints k).foldl (fun d i =>
    let e := s.point i
    let v := (s.readPoint i).value
    let b := e.srcRef % 65536 / 8
    let put := fun (bs : List Byte) => (d.take b ++ bs ++ d.drop (b + bs.length)).take 64
    match e.kind with
    | .bit => put [BitVec.ofNat 8 (nput (nth 0 d b).toNat (e.srcRef % 8) (bit v 0))]
    | .int32 => put (natBytesLE v.toNat 4)
    | _ => put (natBytesLE v.toNat 2)) base

/-- CAN_TX_DONE (R436): the frame of the first request in order completes; a remote frame carries no data. In the loopback modes the controller receives it too. -/
def execCanTxDone (n : Fin 4) (s : State) : Out :=
  .next (
    let c := s.cctl n.val
    let mode := bits (s.canCfg n.val) 1 0
    match s.nextTx n.val with
    | none => s
    | some m =>
      if c.state ≠ .active ∨ mode = 1 then s
      else
        let k := cobj n.val m
        let o := s.canObj k
        let dlc := bits o.o2 3 0
        let fd := bit o.o2 4
        let data := if bit o.o1 30 && !fd then [] else (s.canFill k).take (dlcBytes dlc fd)
        let s1 := (s.txEnd k 1).updCctl n.val fun c =>
          { c with txEvt := Tab.upd 0 c.txEvt (m / 32) fun w => setBit w (m % 32),
                   sent := if mode = 2 then c.sent else [{ obj := m, id := o.o1, dlc := dlc, data := data }] }
        let s2 := ((s1.irq .can 9).routeEvt .can 1 k).canCount n.val (c.tec - 1) c.rec_
        let s3 := if 2 ≤ mode then
            s2.canDeliver n.val { id := bits o.o1 28 0, xtd := bit o.o1 29,
                                  buf := { dlc := dlc, fdf := fd, brs := bit o.o2 5, ts := s.now, data := data } }
          else s2
        s3.frameEnd n.val)

/-- CAN_BUS_ERROR (R438): a frame fails with the last error code `lec`; `dTec` and `dRec` are the counter steps of ISO 11898-1. `own` says that
the frame was this controller's: an abort takes effect, and with DAR = 1 it is not sent again (log 78). -/
def execCanBusError (n : Fin 4) (lec : Fin 7) (dataPhase own : Bool) (dTec dRec : Nat) (s : State) : Out :=
  .next (
    let c := s.cctl n.val
    if c.state ≠ .active then s
    else
      let s1 := s.updCctl n.val fun c => { c with lec := lec.val, lecData := dataPhase, busErr := satInc 65535 c.busErr }
      let s2 := match (if own then s.nextTx n.val else none) with
        | some m =>
          if bit (s.canCfg n.val) 6 ∨ (s.canObj (cobj n.val m)).abort then s1.txEnd (cobj n.val m) 2 else s1
        | none => s1
      (s2.canCount n.val (min 511 (c.tec + dTec)) (min 255 (c.rec_ + dRec))).frameEnd n.val)

/-- CAN_PERIODIC_REQUEST (R436): a period boundary of a PERIODIC object. A pending request is not doubled. -/
def execCanPeriodicRequest (n : Fin 4) (m : Fin 64) (s : State) : Out :=
  .next (
    let o := s.canObj (cobj n.val m.val)
    if o.en && o.tx && decide (o.mode = 1) then s.updCanObj (cobj n.val m.val) fun o => { o with txReq := true } else s)

/-- CAN_RX_TIMEOUT (R437): PERIOD ms passed without a frame. -/
def execCanRxTimeout (n : Fin 4) (m : Fin 64) (s : State) : Out :=
  .next (
    let o := s.canObj (cobj n.val m.val)
    if o.en && !o.tx && decide (o.period ≠ 0) then s.markObj (cobj n.val m.val) markStale else s)

/-! ### Controller commands (R438) -/

/-- Whether the bit timing is valid (R432): a bit's length in quanta times BRP is its time in units of 10 ns. -/
def State.timingOk (s : State) (n : Nat) : Bool :=
  let a := s.regAt R.CAN_NBT (0x1000 * n)
  let b := s.regAt R.CAN_DBT (0x1000 * n)
  let nt1 := bits a 15 8 + 1
  let nt2 := bits a 22 16 + 1
  let dt1 := bits b 12 8 + 1
  let dt2 := bits b 19 16 + 1
  let nom := decide (2 ≤ nt1) && decide (bits a 30 24 + 1 ≤ nt2) && decide (100 ≤ (bits a 7 0 + 1) * (1 + nt1 + nt2))
  let dat := decide (bits b 27 24 + 1 ≤ dt2) && decide (100 ≤ 8 * ((bits b 4 0 + 1) * (1 + dt1 + dt2)))
  nom && (dat || !bit (s.canCfg n) 2)

/-- A write of CAN_CMD. -/
def State.canCmd (s : State) (p : Principal) (n code : Nat) (f : State → State) : State :=
  s.gated .can (0x1010 + 0x1000 * n) .wo p (word code) f

/-- CAN_START (R432, R438). -/
def execCanStart (p : Principal) (n : Fin 4) (s : State) : Out :=
  .next (s.canCmd p n.val 1 fun s =>
    if (s.cctl n.val).state ≠ .config then s.canResult n.val errCtrlState
    else if !s.timingOk n.val then s.canResult n.val errBadTiming
    else ((s.updCctl n.val fun c => { c with tec := 0, rec_ := 0, passive := false }).canTo n.val .integrating).canResult n.val 0)

/-- CAN_STOP (R438): after the frame on the bus, where there is one. -/
def execCanStop (p : Principal) (n : Fin 4) (onBus : Bool) (s : State) : Out :=
  .next (s.canCmd p n.val 2 fun s =>
    if (s.cctl n.val).state = .config then s.canResult n.val errCtrlState
    else (if onBus then s.updCctl n.val fun c => { c with stop := true } else s.canStop n.val).canResult n.val 0)

/-- CAN_SLEEP (R438). -/
def execCanSleep (p : Principal) (n : Fin 4) (onBus : Bool) (s : State) : Out :=
  .next (s.canCmd p n.val 3 fun s =>
    if (s.cctl n.val).state ≠ .active then s.canResult n.val errCtrlState
    else if s.cobjs n.val CanObj.txReq ≠ [] then s.canResult n.val errTxPending
    else (if onBus then s.updCctl n.val fun c => { c with sleep := true } else s.canSleep n.val).canResult n.val 0)

/-- A controller wakes (Table CAN-3) with the cause and the identifier of the WAKE record. -/
def State.canWoken (s : State) (n cause id : Nat) : State :=
  (((s.updCctl n fun c => { c with woken := true, wakeCause := cause, wakeId := id }).record .can n 0x1613 [cause, id]).irq .can 11).canTo n .integrating

/-- CAN_WAKE (R438). The cause of a wake by command has no code: it is a free value (log 78). -/
def execCanWake (p : Principal) (n : Fin 4) (s : State) : Out :=
  .next (s.canCmd p n.val 4 fun s =>
    if (s.cctl n.val).state ≠ .sleep then s.canResult n.val errCtrlState
    else
      let (k, s1) := s.draw
      (s1.canWoken n.val ((Config.freeWord k).toNat % 2) 0).canResult n.val 0)

/-- CAN_RECOVER (R438). -/
def execCanRecover (p : Principal) (n : Fin 4) (s : State) : Out :=
  .next (s.canCmd p n.val 5 fun s =>
    if (s.cctl n.val).state ≠ .busOff ∨ bit (s.canCfg n.val) 3 then s.canResult n.val errCtrlState
    else (s.canTo n.val .recovering).canResult n.val 0)

/-- CAN_INTEGRATION_DONE (Table CAN-3). -/
def execCanIntegrationDone (n : Fin 4) (s : State) : Out :=
  .next (if (s.cctl n.val).state = .integrating then (s.updCctl n.val fun c => { c with passive := false }).canTo n.val .active else s)

/-- CAN_RECOVERY_DONE (Table CAN-3). -/
def execCanRecoveryDone (n : Fin 4) (s : State) : Out :=
  .next (
    if (s.cctl n.val).state = .recovering then
      ((s.updCctl n.val fun c => { c with tec := 0, rec_ := 0, passive := false }).record .can n.val 0x1612
        [(s.now - (s.cctl n.val).offAt) / 1000]).canTo n.val .active
    else s)

/-! ### Object registers (R433, R435) -/

/-- O3 of an object. -/
def CanObj.o3 (o : CanObj) : Word :=
  word (b2n o.new_ + 2 * b2n o.reading + 4 * b2n o.shadow.isSome + 8 * b2n o.ovr + 16 * b2n o.txReq + 32 * b2n o.abort + 256 * o.txResult)

/-- The offset of a word of an object in CAN's region. -/
def objOff (n m w : Nat) : Nat := 0x8000 + 0x2000 * n + 0x80 * m + 4 * w

/-- CAN_OBJ_STAT_READ (R435). -/
def execCanObjStatRead (n : Fin 4) (m : Fin 64) (s : State) : Out :=
  .next (
    if !s.present .can then { s with out := 0xFFFFFFFF }
    else
      let s1 := s.updCanObj (cobj n.val m.val) fun o => { o with reading := o.reading || o.new_ }
      { s1 with out := ((s.canObj (cobj n.val m.val)).o3).toNat })

/-- CAN_NEW_CLEAR (R435): a frame in the shadow moves into view. -/
def execCanNewClear (p : Principal) (n : Fin 4) (m : Fin 64) (s : State) : Out :=
  .next (s.gated .can (objOff n.val m.val 3) .w1c p 1 fun s =>
    s.updCanObj (cobj n.val m.val) fun o =>
      match o.shadow with
      | some x => { o with buf := x, shadow := none, new_ := true, reading := false,
                           o2 := word (x.dlc + 16 * b2n x.fdf + 32 * b2n x.brs + 64 * b2n x.esi) }
      | none => { o with new_ := false, reading := false })

/-- CAN_OVR_CLEAR. -/
def execCanOvrClear (p : Principal) (n : Fin 4) (m : Fin 64) (s : State) : Out :=
  .next (s.gated .can (objOff n.val m.val 3) .w1c p 8 fun s => s.updCanObj (cobj n.val m.val) fun o => { o with ovr := false })

/-- CAN_TX_REQ (R436): ignored on a receive object and on one that is not enabled. -/
def execCanTxReq (p : Principal) (n : Fin 4) (m : Fin 64) (s : State) : Out :=
  .next (s.gated .can (objOff n.val m.val 3) .w1s p 0x10 fun s =>
    let o := s.canObj (cobj n.val m.val)
    if o.en && o.tx then s.updCanObj (cobj n.val m.val) fun o => { o with txReq := true } else s)

/-- CAN_TX_ABORT (R436): a request whose frame is on the bus is withdrawn only if that frame fails. -/
def execCanTxAbort (p : Principal) (n : Fin 4) (m : Fin 64) (onBus : Bool) (s : State) : Out :=
  .next (s.gated .can (objOff n.val m.val 3) .w1s p 0x20 fun s =>
    if !(s.canObj (cobj n.val m.val)).txReq then s
    else if onBus then s.updCanObj (cobj n.val m.val) fun o => { o with abort := true }
    else s.txEnd (cobj n.val m.val) 2)

/-- CAN_OBJ_ENABLE (R433): O0 is written with EN = 1. -/
def execCanObjEnable (p : Principal) (n : Fin 4) (m : Fin 64) (v : Word) (s : State) : Out :=
  .next (s.gated .can (objOff n.val m.val 0) .rw p (setBit v 0) fun s =>
    let k := cobj n.val m.val
    let o := s.canObj k
    if o.en then s.err .can errObjLocked
    else if bit o.o2 4 && !bit (s.canCfg n.val) 2 then s.err .can errFdDisabled
    else s.updCanObj k fun o =>
      { o with o0 := setBit v 0 &&& 0xFFFF001F, new_ := false, reading := false, ovr := false, shadow := none, disable := false,
               lastReq := none, changed := false })

/-- CAN_OBJ_DISABLE (R433): O0 is written with EN clear and its other bits unchanged. -/
def execCanObjDisable (p : Principal) (n : Fin 4) (m : Fin 64) (onBus : Bool) (s : State) : Out :=
  .next (s.gated .can (objOff n.val m.val 0) .rw p (clrBit (s.canObj (cobj n.val m.val)).o0 0) fun s =>
    let k := cobj n.val m.val
    let o := s.canObj k
    if !o.en then s
    else if onBus then s.updCanObj k fun o => { o with disable := true, abort := o.txReq }
    else s.objOff k)

/-- CAN_EVT_CLEAR (R440): register `i`, in the order CAN_RX_EVT_LO, _HI, CAN_TX_EVT_LO, _HI. -/
def execCanEvtClear (p : Principal) (n i : Fin 4) (m : Word) (s : State) : Out :=
  .next (s.gated .can (0x1024 + 4 * i.val + 0x1000 * n.val) .w1c p m fun s =>
    s.updCctl n.val fun c =>
      if i.val < 2 then { c with rxEvt := Tab.upd 0 c.rxEvt i.val fun w => w1c w m }
      else { c with txEvt := Tab.upd 0 c.txEvt (i.val - 2) fun w => w1c w m })

/-- CAN_WOKEN_CLEAR. -/
def execCanWokenClear (p : Principal) (n : Fin 4) (s : State) : Out :=
  .next (s.gated .can (0x1040 + 0x1000 * n.val) .w1c p 1 fun s => s.updCctl n.val fun c => { c with woken := false })

/-- Whether CAN refuses a PMC sleep request (R439). -/
def State.canBusy (s : State) : Bool := (List.range 4).any fun n => decide ((s.cctl n).state ≠ .config) && decide ((s.cctl n).state ≠ .sleep)

/-- PD_CAN powers up, or a full device reset (Table CAN-3, R439): every controller in CONFIG, objects and filters zero; the wake registers keep
their values. -/
def State.canPowerUp (s : State) : State :=
  let wake := fun (c : CanCtl) => ({ woken := c.woken, wakeCause := c.wakeCause, wakeId := c.wakeId } : CanCtl)
  { s with can := { ctl := Tab.mapAll {} wake s.can.ctl, objs := [] },
           regs := Tab.keep (fun k _ => !keyOf .can k || (decide (0x34 ≤ k % 0x1000) && decide (k % 0x1000 < 0x40) && decide (0x1000 ≤ k % 0x10000) &&
             decide (k % 0x10000 < 0x5000))) s.regs }

/-- ON_CHANGE objects whose spacing has passed request their transmission (R436). -/
def State.canDue (s : State) : State :=
  (s.can.objs.filter fun e => e.2.changed).foldl (fun s e => s.updCanObj e.1 fun o => o.due s.now) s

end Sys2Proof.Machine
end

