-- ==== Sys2Proof/Machine/ClkCmd.lean ====
section
/-!
DEFINITION. The clock unit (R442–R453): the crystal, the PLL, domain clocks, monitors and fallback.
-/

namespace Sys2Proof.Machine

def errRtActive : Nat := 0x20
def errClkBusy : Nat := 0x21
def errXoNotStable : Nat := 0x22
def errRtBusy : Nat := 0x23
def errXoState : Nat := 0x24

/-- Change the clock unit, or a domain clock (0 CPU, 1 RT, 2 IO, 3 PER). -/
def State.updClk (s : State) (f : Clk → Clk) : State := { s with clk := f s.clk }
def Clk.dom (x : Clk) (d : Nat) : ClkDom := Tab.get {} x.doms d
def State.updDom (s : State) (d : Nat) (f : ClkDom → ClkDom) : State := s.updClk fun x => { x with doms := Tab.upd {} x.doms d f }

/-- Whether a switched domain is ON. -/
def State.domOn (s : State) (d : Nat) : Bool := s.pmc.on.contains d

/-- CLK_STAT.BUSY: a ramp or a switch is in progress. -/
def Clk.busy (x : Clk) : Bool := decide (x.sw ≠ []) || (List.range 4).any fun d => (x.dom d).ramp

/-- TIME_DEGRADED follows its conditions (R444): TIM leaves LOCKED where it sets. -/
def State.degFollow (s : State) : State :=
  let x := s.clk
  let pll := (List.range 4).any fun d => !(x.dom d).frc
  let set := (x.pllOn && x.ref && pll) || ((x.dom 1).frc && s.domOn 3)
  let clear := x.locked && !x.ref && (List.range 4).all (fun d => !(x.dom d).frc) && x.backWait.isNone
  if set then (if x.timeDeg then s else (s.updClk fun x => { x with timeDeg := true, degT := s.upUs }).timDegraded)
  else if clear then s.updClk fun x => { x with timeDeg := false }
  else s

/-- CLK_CMD's result. -/
def State.clkResult (s : State) (e : Nat) : State :=
  let s1 := s.updClk fun x => { x with result := e }
  if e = 0 then s1 else s1.err .clk e

/-- A command of CLK_CMD after the gate. -/
def State.clkCmd (s : State) (p : Principal) (code : Nat) (check : State → Nat) (f : State → State) : State :=
  s.gated .clk 0x104 .wo p (word code) fun s =>
    let e := check s
    if e ≠ 0 then s.clkResult e else f (s.clkResult 0)

/-- The crystal starts: count 0, the timer XO_TMO runs (Table CLK-3). -/
def State.xoStart (s : State) : State := (s.updClk fun x => { x with xo := .starting, xoT := s.upUs }).irq .clk 9

/-- CLK_XO_START (R448). -/
def execClkXoStart (p : Principal) (s : State) : Out :=
  .next (s.clkCmd p 1 (fun s => if s.clk.xo = .off ∧ s.clk.xoFails < 4 then 0 else errXoState) State.xoStart)

/-- CLK_XO_RETRY (R448). -/
def execClkXoRetry (p : Principal) (s : State) : Out :=
  .next (s.clkCmd p 5 (fun s => if s.clk.xo = .failed then 0 else errXoState) fun s => (s.updClk fun x => { x with xoFails := 0 }).xoStart)

/-- CLK_XO_STOP (R448). -/
def execClkXoStop (p : Principal) (s : State) : Out :=
  .next (s.clkCmd p 6 (fun s => if s.clk.pllOn ∧ !s.clk.ref then errXoState else 0) fun s =>
    (s.updClk fun x => { x with xo := .off }).irq .clk 9)

/-- The crystal fails for good (Table CLK-3): XO_FAILED, ALARM. The reference of a PLL that has not been started is then FRC ÷ 4 (DEDUCED, log 81). -/
def State.xoFail (s : State) : State :=
  let s1 := s.updClk fun x => { x with xo := .failed, xoFails := 4, ref := if x.pllOn then x.ref else true }
  ((s1.record .clk 0 0x0213 [4]).irq .clk 9).raise .clk 0 0x0213 .alarm

/-- The crystal is STABLE after `us` µs (R448). -/
def State.xoStable (s : State) (us : Nat) : State :=
  if s.clk.xo ≠ .starting then s
  else
    ((s.updClk fun x => { x with xo := .stable, ref := if x.pllOn then x.ref else false }).record .clk 0 0x0212 [us, s.clk.xoFails]).irq .clk 9

/-- XO_STABLE (R448). -/
def execXoStable (s : State) : Out := .next (s.xoStable (s.upUs - s.clk.xoT))

/-- XO_START_TIMEOUT (R448). -/
def State.xoTimeout (s : State) : State :=
  if s.clk.xo ≠ .starting then s
  else if s.clk.xoFails + 1 < 4 then (s.updClk fun x => { x with xoFails := x.xoFails + 1, xoT := s.upUs }).irq .clk 9
  else s.xoFail
def execXoStartTimeout (s : State) : Out := .next s.xoTimeout

/-- The PLL starts on its reference (R443). -/
def State.pllStart (s : State) : State := if s.clk.pllOn then s else s.updClk fun x => { x with pllOn := true, locked := false }

/-- CLK_PLL_START (R443): the reference is FRC ÷ 4 where PLL_REF says so, else the crystal, which must not have failed (Table PMC-7). -/
def execClkPllStart (p : Principal) (s : State) : Out :=
  .next (s.clkCmd p 2 (fun s => if !s.clk.pllOn ∧ !s.clk.ref ∧ s.clk.xo = .failed then errXoNotStable else 0) State.pllStart)

/-- The target divisor of a domain clock (Table CLK-2). -/
def targetDiv (d : Nat) : Nat := match d with | 0 => 2 | 1 => 6 | 2 => 12 | _ => 24

/-- A multiplexer begins to switch (R451). -/
def State.muxSwitch (s : State) (m : Nat) (frc : Bool) : State :=
  s.updClk fun x => { x with sw := (x.sw.filter fun w => decide (w.1 ≠ m)) ++ [(m, frc)] }

/-- CLK_RAMP (R446, R447): refused while the PLL is not locked, with a code that the spec does not give. -/
def execClkRamp (p : Principal) (d : Fin 4) (s : State) : Out :=
  let (n, s1) := if s.clk.locked then (0, s) else s.draw
  .next (s1.clkCmd p (3 + 256 * d.val)
    (fun s =>
      if s.clk.busy then errClkBusy
      else if !s.clk.locked then (Config.freeWord n).toNat % 256
      else if s.domOn 3 ∧ (d.val = 1 ∨ d.val = 2) then errRtActive
      else 0)
    fun s => if s.clk.locked ∧ (s.clk.dom d.val).frc then (s.updDom d.val fun x => { x with tgt := targetDiv d.val }).muxSwitch (1 + d.val) false else s)

/-- CLK_RETURN (R447, R450): allowed with PD_RT ON after a fallback (DEDUCED). -/
def execClkReturn (p : Principal) (s : State) : Out :=
  .next (s.clkCmd p 4
    (fun s =>
      if s.clk.xo ≠ .stable then errXoNotStable
      else if s.xngBusy then errRtBusy
      else if s.clk.busy then errClkBusy
      else if s.domOn 3 ∧ s.clk.ref ∧ !s.clk.fell then errRtActive
      else 0)
    fun s => if s.clk.pllOn ∧ s.clk.ref then (s.updClk fun x => { x with why := some (.back 1) }).muxSwitch 0 false else s)

/-- AUTO_RETURN (R450): the PLL returns to a STABLE crystal as soon as no lane is in BIST or COPY. -/
def execAutoReturn (s : State) : Out :=
  .next (
    if bit (s.reg R.CLK_CFG) 5 && decide (s.clk.xo = .stable) && s.clk.pllOn && s.clk.ref && s.clk.fell && !s.xngBusy && !s.clk.busy then
      (s.updClk fun x => { x with why := some (.back 0) }).muxSwitch 0 false
    else s)

/-- The next divisor of a ramp (Table CLK-2). -/
def rampNext (d tgt : Nat) : Nat :=
  let l := [24, 12, 8, 6, 4, 3, 2]
  if tgt < d then (l.find? fun x => decide (x < d)).getD tgt else if d < tgt then (l.reverse.find? fun x => decide (d < x)).getD tgt else d

/-- RAMP_STEP (R446): after RAMP_DWELL the divisor steps. -/
def State.rampStep (s : State) (d : Nat) : State :=
  let x := s.clk.dom d
  if !x.ramp then s
  else
    let n := rampNext x.div x.tgt
    s.updDom d fun y => { y with div := n, ramp := decide (n ≠ y.tgt) }

/-- A multiplexer has switched: a domain clock enters the PLL with divisor 24 and ramps, or is on FRC; a reference falls back or returns (R446, R450, R452). -/
def State.muxDone (s : State) (m : Nat) : State :=
  match s.clk.sw.find? fun w => decide (w.1 = m) with
  | none => s
  | some w =>
    let s1 := s.updClk fun x => { x with sw := x.sw.filter fun w => decide (w.1 ≠ m) }
    if m ≠ 0 then
      (s1.updDom (m - 1) fun y =>
        if w.2 then { y with frc := true, ramp := false }
        else { y with frc := false, div := 24, ramp := decide (y.tgt ≠ 24) }).degFollow
    else
      let s2 := s1.updClk fun x => { x with ref := w.2, why := none }
      match s.clk.why with
      | some (.fallback k n) =>
        let s3 := (s2.updClk fun x => { x with fell := true, backWait := none }).degFollow
        ((s3.record .clk 0 0x0210 [k, n, s3.clk.xoFails]).irq .clk 8).raise .clk 0 0x0210 .alarm
      | some (.back k) => s2.updClk fun x => { x with fell := false, backWait := some k }
      | none => s2.degFollow

/-- CLK_SWITCH_DONE (R451). -/
def execClkSwitchDone (m : Fin 5) (s : State) : Out := .next (s.muxDone m.val)

/-- CLK_SWITCH_FORCE (R451): the switch is forced and recorded with the multiplexer, its old source and its new one (1 for FRC, as PLL_REF and CLK_DOM show). -/
def execClkSwitchForce (m : Fin 5) (s : State) : Out :=
  .next (
    match s.clk.sw.find? fun w => decide (w.1 = m.val) with
    | none => s
    | some w =>
      let s1 := s.updClk fun x => { x with mon := nput x.mon 4 true, lastForced := m.val }
      ((s1.record .clk 0 0x0211 [m.val, b2n (!w.2), b2n w.2]).irq .clk 10).muxDone m.val)

/-- PLL_LOCK (R443, R450): the lock count is complete; TIME_DEGRADED clears after a return. -/
def State.pllLock (s : State) : State :=
  if !s.clk.pllOn then s
  else
    let s1 := s.updClk fun x => { x with locked := true }
    match s1.clk.backWait with
    | none => s1.degFollow
    | some k =>
      let ms := (s.upUs - s.clk.degT) / 1000
      ((s1.updClk fun x => { x with backWait := none }).degFollow).record .clk 0 0x0214 [k, ms]

/-- XO_TRIP (R448, R450, R452): the monitor trips with a cause, 0 trip or 1 stop, and the count of its window. -/
def execXoTrip (stop : Bool) (cnt : Nat) (s : State) : Out :=
  .next (
    let s1 := s.updClk fun x => { x with mon := nput x.mon 0 true, xoCnt := cnt }
    if s.clk.xo ≠ .stable then s1
    else
      let n := s.clk.xoFails + 1
      let onXo := s.clk.pllOn && !s.clk.ref
      let s2 := if n < 4 then (s1.updClk fun x => { x with xoFails := n }).xoStart else s1.updClk fun x => { x with xoFails := 4, xo := .failed }
      let s3 := if onXo then (s2.updClk fun x => { x with why := some (.fallback (b2n stop) cnt) }).muxSwitch 0 true else s2
      let s4 := if n < 4 then s3 else s3.xoFail
      if onXo && !s.clk.frcOk then s4.raiseSafePath .clk 0 0x0210 else s4)

/-- Every domain clock that runs from the PLL switches to FRC (R452). -/
def State.toFrc (s : State) : State :=
  (List.range 4).foldl (fun s d => if (s.clk.dom d).frc then s else s.muxSwitch (1 + d) true) s

/-- CLK_FAULT (Table PMC-8). -/
def State.clkFault (s : State) (trip : Nat) : State :=
  (s.updClk fun x => { x with mon := nput x.mon trip true }).record .clk 0 0x0215 [trip]

/-- PLL_UNLOCK (R443, R452): with PD_RT ON an error in the safe-state path. -/
def execPllUnlock (s : State) : Out :=
  .next (
    let s1 := (s.clkFault 1).updClk fun x => { x with locked := false }
    if s.domOn 3 then s1.toFrc.raiseSafePath .clk 0 0x0215 else s1)

/-- FRC_FAIL (R452), with the count of the window. -/
def execFrcFail (cnt : Nat) (s : State) : Out :=
  .next (
    let s1 := (s.clkFault 2).updClk fun x => { x with frcOk := false, frcCnt := cnt }
    let drives := (s.clk.pllOn && s.clk.ref) || (List.range 4).any fun d => (s.clk.dom d).frc
    if drives then s1.toFrc.raiseSafePath .clk 0 0x0215 else s1.raise .clk 0 0x0215 .warn)

/-- SRC_FAIL (R452). -/
def execSrcFail (s : State) : Out :=
  .next (((s.clkFault 3).updClk fun x => { x with srcOk := false }).raise .clk 0 0x0215 .warn)

/-- CLK_MON_STAT_CLEAR (R460). -/
def execClkMonStatClear (p : Principal) (m : Word) (s : State) : Out :=
  .next (s.gated .clk 0x110 .w1c p m fun s => s.updClk fun x => { x with mon := (w1c (word x.mon) m).toNat })

end Sys2Proof.Machine
end

