-- ==== Sys2Proof/Machine/Hts.lean ====
section
/-!
DEFINITION. The scheduler's commands (R398–R412) and the autonomy state (R27, R29, R410).
-/

namespace Sys2Proof.Machine

/-- HTS error codes (Table HTS-7). -/
def errTaskState : Nat := 0x20
def errTaskBusy : Nat := 0x21
def errBadTask : Nat := 0x22
def errFlowOff : Nat := 0x23
def errPoolFull : Nat := 0x24
def errPortOwner : Nat := 0x25
def errDispState : Nat := 0x26
def errFlowBusy : Nat := 0x27
def errFlowBound : Nat := 0x28
def errBadRoute : Nat := 0x29

/-- The outcome of a task command in HTS_TASK_STAT; a refusal is recorded. -/
def State.taskStat (s : State) (t e : Nat) : State :=
  let s1 := s.updHts fun h => { h with cmdTask := t, cmdResult := e }
  if e = 0 then s1 else s1.err .hts e

/-- A write of HTS_TASK_CMD. -/
def State.taskCmd (s : State) (p : Principal) (t code : Nat) (f : State → State) : State :=
  s.gated .hts 0x100 .wo p (word (t + 4096 * code)) f

/-- Whether T0 is a valid configuration: some core, no reserved bit (Table HTS-7). -/
def taskCfgOk (w : Word) : Bool :=
  decide (bits w 15 8 ≠ 0) && decide (bits w 7 5 = 0) && decide (bit w 19 = false) && decide (bits w 31 21 = 0)

/-- TASK_CREATE (R401). -/
def execTaskCreate (p : Principal) (t : Fin 512) (s : State) : Out :=
  .next (s.taskCmd p t.val 1 fun s =>
    if (s.hts.task t.val).state ≠ .free then s.taskStat t.val errTaskState
    else if !taskCfgOk (s.taskCfg t.val) then s.taskStat t.val errBadTask
    else
      ((s.updHts fun h => h.updTask t.val fun k =>
        ({ k with state := .waiting, flags := 0, dflags := 0, susp := false, redel := false } : Task).take (s.taskCfg t.val)).evalTask t.val).taskStat
          t.val 0)

/-- Whether an enabled flow names a task as its server. -/
def State.flowBound (s : State) (t : Nat) : Bool :=
  s.regs.any fun e => decide (e.1 / 0x10000 = 7) && decide (0x4000 ≤ e.1 % 0x10000) && decide (e.1 % 0x10000 < 0x8000) &&
    (let w := s.reg ⟨.hts, e.1 % 0x10000⟩; bit w 31 && decide (bits w 8 0 = t))

/-- TASK_DELETE (R401). -/
def execTaskDelete (p : Principal) (t : Fin 512) (s : State) : Out :=
  .next (s.taskCmd p t.val 2 fun s =>
    match (s.hts.task t.val).state with
    | .free => s.taskStat t.val errTaskState
    | .ready | .running => s.taskStat t.val errTaskBusy
    | .waiting | .suspended =>
      if s.flowBound t.val then s.taskStat t.val errFlowBound
      else (s.updHts fun h => h.updTask t.val fun k => { mask := k.mask }).taskStat t.val 0)

/-- TASK_SUSPEND (R401). -/
def execTaskSuspend (p : Principal) (t : Fin 512) (s : State) : Out :=
  .next (s.taskCmd p t.val 3 fun s =>
    match (s.hts.task t.val).state with
    | .waiting => (s.updHts fun h => h.updTask t.val fun k => { k with state := .suspended }).taskStat t.val 0
    | .ready =>
      let s1 := s.updHts fun h =>
        { (h.updTask t.val fun k => { k with state := .suspended, flags := k.flags ||| k.dflags, dflags := 0 }) with
          ready := h.ready.erase (.flag t.val) }
      s1.lapse.taskStat t.val 0
    | .running => (s.updHts fun h => h.updTask t.val fun k => { k with susp := true }).taskStat t.val 0
    | _ => s.taskStat t.val errTaskState)

/-- TASK_RESUME (R401). -/
def execTaskResume (p : Principal) (t : Fin 512) (s : State) : Out :=
  .next (s.taskCmd p t.val 4 fun s =>
    if (s.hts.task t.val).state = .suspended then
      ((s.updHts fun h => h.updTask t.val fun k => { k with state := .waiting }).evalTask t.val).taskStat t.val 0
    else s.taskStat t.val errTaskState)

/-- DISP_READ (R403): a read of core `c`'s DISP by `by`. A read that finds no unit stalls. -/
def execDispRead (c : Fin 8) (by_ : Option (Fin 8)) (s : State) : Out :=
  .next (
    if !s.present .hts then
      let s1 := match by_ with
        | some k => s.tell (.core k) Block.hts.code errBlockAbsent (Block.hts.base + 0x1000 + 0x40 * c.val)
        | none => s
      { s1 with out := 0xFFFFFFFF }
    else if by_ ≠ some c ∨ (s.hts.port c.val).unit.isSome then { (s.err .hts errPortOwner) with out := 0 }
    else if !(s.hd .hts).running then { s with out := 0 }
    else
      match s.selectUnit c.val with
      | some u => (s.dispatch c.val u).lapse
      | none => s.updHts fun h => h.updPort c.val fun q => { q with waiting := true })

/-- DISP_WAIT_TIMEOUT (R403): the stalled read returns VALID = 0. -/
def execDispWaitTimeout (c : Fin 8) (s : State) : Out :=
  .next (
    if (s.hts.port c.val).waiting then
      { (s.updHts fun h => h.updPort c.val fun q => { q with waiting := false, disp := 0 }) with out := 0 }
    else s)

/-- A port whose stalled read ends returns VALID = 0 (R403). -/
def Port.unstall (q : Port) : Port := if q.waiting then { q with waiting := false, disp := 0 } else q

/-- RUN = 0 has taken effect (R411): reads that are stalled return VALID = 0. -/
def State.endStalls (s : State) : State :=
  if (s.hd .hts).running then s else s.updHts fun h => { h with ports := Tab.mapAll {} Port.unstall h.ports }

/-- The next item of a flow becomes READY where none is READY or RUNNING (R405). -/
def State.releaseFlow (s : State) (f : Nat) : State :=
  let busy := s.hts.ready.contains (.item f) ||
    (List.range 8).any fun c => decide ((s.hts.port c).unit = some (.item f))
  if !busy ∧ Tab.get [] s.hts.flows f ≠ [] then s.makeReady (.item f) false else s

/-- The unit that ran on a core has ended or been given back. -/
def State.freePort (s : State) (c : Nat) : State :=
  s.updHts fun h => h.updPort c fun q => { q with unit := none, preempt := none }

/-- A write of a port's DONE register with a unit RUNNING (R406). -/
def State.portDone (s : State) (p : Principal) (c : Nat) (yield : Bool) (f : DUnit → State → State) : State :=
  s.gated .hts (0x1014 + 0x40 * c) .w1s p (word (if yield then 2 else 1)) fun s =>
    match (s.hts.port c).unit with
    | none => s.err .hts errDispState
    | some u => f u (s.freePort c)

/-- TASK_DONE (R401, R405, R406). -/
def execTaskDone (p : Principal) (c : Fin 8) (s : State) : Out :=
  .next (s.portDone p c.val false fun u s =>
    match u with
    | .flag t =>
      if (s.hts.task t).susp then
        (s.updHts fun h => h.updTask t fun k => { k with state := .suspended, susp := false, dflags := 0 }).serve.lapse
      else ((s.updHts fun h => h.updTask t fun k => { k with state := .waiting, dflags := 0 }).evalTask t).serve.lapse
    | .item f =>
      ((s.updHts fun h => { h with flows := Tab.upd [] h.flows f fun q => q.drop 1 }).releaseFlow f).serve.lapse)

/-- TASK_YIELD (R401, R405): the unit heads its level; a suspension that waited is applied instead. -/
def execTaskYield (p : Principal) (c : Fin 8) (s : State) : Out :=
  .next (s.portDone p c.val true fun u s =>
    match u with
    | .flag t =>
      if (s.hts.task t).susp then
        (s.updHts fun h => h.updTask t fun k =>
          { k with state := .suspended, susp := false, flags := k.flags ||| k.dflags, dflags := 0 }).serve.lapse
      else s.makeReady u true
    | .item _ => s.makeReady u true)

/-- The most items the pool holds (R405). -/
def poolMax : Nat := 16384

/-- The items in the pool (HTS_POOL). -/
def Hts.pool (h : Hts) : Nat := (h.flows.map fun e => e.2.length).sum

/-- SUB_STAT of a port; a refusal is recorded. -/
def State.subStat (s : State) (c e : Nat) : State :=
  let s1 := s.updHts fun h => h.updPort c fun q => { q with subResult := e }
  if e = 0 then s1 else s1.err .hts e

/-- POOL_FULL is raised; its record is written once per second while refusals continue (Table HTS-8). -/
def State.poolFull (s : State) (f : Nat) : State :=
  let due := match s.hts.poolFullT with | some t => decide (t + 1000000000 ≤ s.now) | none => true
  let s1 := s.irq .hts 8
  if due then (s1.updHts fun h => { h with poolFullT := some s.now }).record .hts 0 0x0714 [f] else s1

/-- SUB_GO (R405). -/
def execSubGo (p : Principal) (c : Fin 8) (f : Fin 4096) (s : State) : Out :=
  .next (s.gated .hts (0x1020 + 0x40 * c.val) .wo p (word f.val) fun s =>
    if !bit (s.flowWord f.val) 31 then s.subStat c.val errFlowOff
    else if poolMax ≤ s.hts.pool then (s.poolFull f.val).subStat c.val errPoolFull
    else
      let it : Item := { lo := s.regAt R.HTS_SUB_LO (0x40 * c.val), hi := s.regAt R.HTS_SUB_HI (0x40 * c.val) }
      ((s.updHts fun h => { h with flows := Tab.upd [] h.flows f.val fun q => q ++ [it] }).subStat c.val 0).releaseFlow f.val)

/-- FSET (R400). -/
def execFset (p : Principal) (c : Fin 8) (m : Word) (s : State) : Out :=
  .next (s.gated .hts (0x102C + 0x40 * c.val) .wo p m fun s =>
    s.raiseFlags (bits (s.regAt R.HTS_FSET_TASK (0x40 * c.val)) 8 0) m)

/-- MASK_WRITE (R401): a write of T1 is an evaluation. -/
def execMaskWrite (p : Principal) (t : Fin 512) (m : Word) (s : State) : Out :=
  .next (s.gated .hts (0x2004 + 16 * t.val) .rw p m fun s =>
    (s.updHts fun h => h.updTask t.val fun k => { k with mask := m }).evalTask t.val)

/-! ### Autonomy (R27, R29, R410) -/

/-- The code of HTS_AUTO_STAT. -/
def Autonomy.code : Autonomy → Nat
  | .unattached => 0 | .attached => 1 | .autonomous => 2 | .expired => 3

/-- Whether the application side is attached. -/
def State.attached (s : State) : Bool := decide (s.hts.auto = .attached)

/-- The window length in ns (HTS_AUTO_CFG). -/
def State.windowNs (s : State) : Nat := bits (s.reg R.HTS_AUTO_CFG) 21 16 * 1000000000

/-- An autonomy state change, with its event bit and what follows for ERM's acknowledgement (R476). -/
def State.setAuto (s : State) (a : Autonomy) : State :=
  ((s.updHts fun h => { h with auto := a }).irq .hts 9).settleErm

/-- The application side attaches (Table RT-10): recorded with the state left and the time spent detached. -/
def State.attach (s : State) : State :=
  let old := s.hts.auto
  let ms := if old = .unattached then 0 else (s.now - s.hts.detachT) / 1000000
  let s1 := (s.record .hts 0 0x0710 [old.code, ms]).setAuto .attached
  if old = .autonomous then s1.raise .hts 0 0x0710 .info else s1

/-- HTS_HB (R410): a heartbeat attaches in any other state; its period takes effect from the next heartbeat. -/
def execHtsHb (p : Principal) (s : State) : Out :=
  .next (s.gated .hts 0x108 .w1s p 1 fun s =>
    let s1 := s.updHts fun h => { h with hbPeriod := bits (s.reg R.HTS_AUTO_CFG) 6 0 }
    if s1.attached then s1 else s1.attach)

/-- A detachment with its cause (Table RT-10). The window starts at the first one only. -/
def State.detach (s : State) (cause : Nat) : State :=
  match s.hts.auto with
  | .attached =>
    let s1 := s.record .hts 0 0x0711 [cause]
    ((s1.updHts fun h => { h with detachT := s.now, windowEnd := s.now + s.windowNs }).setAuto .autonomous).raise .hts 0 0x0711 .info
  | .expired => if cause = 0 then s.record .hts 0 0x0711 [cause] else s
  | _ => s

/-- HEARTBEAT_MISSED (R27): three periods passed without a heartbeat. -/
def execHeartbeatMissed (s : State) : Out := .next (if s.attached then s.detach 1 else s)

/-- A core's unit returns before the core is reset (R407). -/
def State.redeliver (s : State) (c : Nat) : State :=
  let q := s.hts.port c
  let s0 := s.updHts fun h => h.updPort c fun q => { q with unit := none, preempt := none, waiting := false }
  match q.unit with
  | none => s0
  | some u =>
    let task := s.unitTask u
    let s1 := s0.updHts fun h => { h with redeliv := wrapInc h.redeliv }
    match u with
    | .flag t =>
      let s2 := s1.updHts fun h => h.updTask t fun k => { k with flags := k.flags ||| k.dflags, dflags := 0, redel := true }
      (s2.makeReady u false).record .hts 0 0x0713 [c, task, 0xFFFF, 0]
    | .item f =>
      let s2 := s1.updHts fun h => { h with flows := Tab.upd [] h.flows f fun l =>
        match l with | i :: t => { i with redel := true } :: t | [] => [] }
      (s2.makeReady u false).record .hts 0 0x0713 [c, task, f, 1]

end Sys2Proof.Machine
end

