-- ==== Sys2Proof/Machine/CpuMem.lean ====
section
/-!
DEFINITION. The application cores, the memories and the host interface (R414–R430): watchdogs and core resets, scrubbing, training, the DMA
rings and the host link. HOST_BAR_ACCESS is in Fabric.
-/

namespace Sys2Proof.Machine

/-! ### Cores (R414–R419) -/

def errWdtReset : Nat := 0x20
def errCacheUe : Nat := 0x21

/-- Change the core block, or a core. -/
def State.updCpu (s : State) (f : Cpu → Cpu) : State := { s with cpu := f s.cpu }
def State.core (s : State) (c : Nat) : Core := Tab.get {} s.cpu.cores c
def State.updCore (s : State) (c : Nat) (f : Core → Core) : State := s.updCpu fun x => { x with cores := Tab.upd {} x.cores c f }

/-- Where a core starts (R419): core 0 in the boot ROM, the others at CPU_RESET_VEC. -/
def State.resetPc (s : State) (c : Nat) : Nat :=
  if c = 0 then 0 else (s.reg R.CPU_RESET_VEC_LO).toNat + 2 ^ 32 * (s.reg R.CPU_RESET_VEC_HI).toNat

/-- A core is reset through the fence (R45, R407, R418): its unit returns, its CSRs take their reset values, and it starts again where its bit
of CPU_CORE_EN is set. -/
def State.resetCore (s : State) (c : Nat) : State :=
  let en := bit (s.reg R.CPU_CORE_EN) c
  (s.redeliver c).updCore c fun k => { running := en, startPc := s.resetPc c, timerIrq := k.timerIrq }

/-- WDT_WARNING (R418): the warning interrupt at half the timeout is pending at its APLIC source (Table CPU-3). -/
def execWdtWarning (c : Fin 8) (s : State) : Out :=
  .next (
    let k := s.core c.val
    if k.running && k.wdtEn && !k.wdtWarned then
      (s.updCore c.val fun k => { k with wdtWarned := true }).updCpu fun x => { x with edgePend := nput x.edgePend (40 + c.val) true }
    else s)

/-- WDT_EXPIRY (R418): the core resets through the fence; the reset is a detachment. -/
def execWdtExpiry (c : Fin 8) (mepc : Word) (s : State) : Out :=
  .next (
    let k := s.core c.val
    if k.running && k.wdtEn then
      let s1 := ((s.resetCore c.val).detach 0).updCpu fun x => { x with wdtLog := nput x.wdtLog c.val true }
      ((s1.record .cpu 0 0x1910 [c.val, mepc.toNat]).err .cpu errWdtReset).irq .cpu 8
    else s)

/-- WDT_KICK (Table CPU-2): 0x5A restarts the watchdog, other values are ignored. -/
def execWdtKick (c : Fin 8) (v : BitVec 8) (s : State) : Out :=
  .next (if v = 0x5A then s.updCore c.val fun k => { k with wdtWarned := false } else s)

/-- CPU_CORE_EN (R419): cores whose bit sets leave reset; cores whose bit clears are held in reset after the fence. -/
def execCpuCoreEn (p : Principal) (v : Word) (s : State) : Out :=
  .next (s.gated .cpu 0x100 .rw p v fun s =>
    let old := s.reg R.CPU_CORE_EN
    let new := v &&& 0xFF
    (List.range 8).foldl (fun s c =>
      if bit old c = bit new c then s
      else if bit new c then s.updCore c fun k => { running := true, startPc := s.resetPc c, timerIrq := k.timerIrq }
      else (s.redeliver c).updCore c fun k => { running := false, timerIrq := k.timerIrq }) (s.setReg R.CPU_CORE_EN new))

/-- CPU_CORE_RST (R418): the selected cores reset as by their watchdog. -/
def execCpuCoreRst (p : Principal) (v : Word) (s : State) : Out :=
  .next (s.gated .cpu 0x104 .w1s p v fun s =>
    (List.range 8).foldl (fun s c => if bit v c then (s.resetCore c).detach 0 else s) s)

/-- CACHE_UE (R418): an uncorrectable error on dirty data of a running core at a cache level. -/
def execCacheUe (c : Fin 8) (level : Fin 3) (addr : Nat) (s : State) : Out :=
  .next (
    if (s.core c.val).running then (((s.resetCore c.val).detach 0).record .cpu 0 0x1911 [c.val, level.val, addr % 2 ^ 32]).err .cpu errCacheUe
    else s)

/-- SRAM_SCRUB (R421): `ce` corrected words, and the address of an uncorrectable one: it is logged in CPU_SRAM_UE and raised as an ALARM. -/
def execSramScrub (ce : Nat) (ue : Option Nat) (s : State) : Out :=
  .next (
    let s1 := s.updCpu fun x => { x with sramCe := min 0xFFFFFFFF (x.sramCe + ce) }
    match ue with
    | some a => (s1.updCpu fun x => { x with sramUe := match x.sramUe with | some v => some v | none => some (a / 8 % 2 ^ 24) }).raiseNoCode .cpu 0 .alarm
    | none => s1)

/-- mtimecmp of a core, and the level of its timer interrupt (R419). -/
def State.mtimecmp (s : State) (c : Nat) : Nat :=
  (s.regAt R.CPU_MTIMECMP (8 * c)).toNat + 2 ^ 32 * (s.regAt R.CPU_MTIMECMP (8 * c + 4)).toNat
def State.timerLevel (s : State) (c : Nat) : State := s.updCore c fun k => { k with timerIrq := decide (s.mtimecmp c ≤ s.cpu.mtime) }

/-- MTIMECMP_MATCH (R419). -/
def execMtimecmpMatch (c : Fin 8) (s : State) : Out := .next (s.timerLevel c.val)

/-- MTIME_READ (Table HIF-3): a read of CPU_MTIME_LO latches the high word. -/
def execMtimeRead (s : State) : Out :=
  .next (
    if !s.present .cpu then { s with out := 0xFFFFFFFF }
    else { (s.updCpu fun x => { x with mtimeHi := x.mtime / 2 ^ 32 % 2 ^ 32 }) with out := s.cpu.mtime % 2 ^ 32 })

/-- CPU_WDT_LOG_CLEAR. -/
def execCpuWdtLogClear (p : Principal) (m : Word) (s : State) : Out :=
  .next (s.gated .cpu 0x10C .w1c p m fun s =>
    s.updCpu fun x => { x with wdtLog := (w1c (word x.wdtLog) (m &&& 0xFF)).toNat })

/-- CPU_SRAM_UE_CLEAR. -/
def execCpuSramUeClear (p : Principal) (s : State) : Out :=
  .next (s.gated .cpu 0x11C .w1c p 0x80000000 fun s => s.updCpu fun x => { x with sramUe := none })

/-! ### SDRAM (R422) -/

def errMemUe : Nat := 0x20
def errTrainFail : Nat := 0x21

/-- Change the memory controller. -/
def State.updMem (s : State) (f : MemSt → MemSt) : State := { s with msdram := f s.msdram }

/-- The usable capacity of a channel in units of 64 MiB: 7/8 of its density (MEM_CFG). -/
def State.chanCap (s : State) (k : Nat) : Nat :=
  let w := s.reg R.MEM_CFG
  if bit w k then
    match bits w (5 + 4 * k) (4 + 4 * k) with
    | 1 => 28 | 2 => 56 | 3 => 112 | _ => 0
  else 0

/-- MEM has trained its channels (R422): a channel that failed is not mapped. Without a mapped channel MEM does not run. -/
def State.memTrained (s : State) (fail0 fail1 : Bool) : State :=
  let w := s.reg R.MEM_CFG
  let f0 := fail0 && bit w 0
  let f1 := fail1 && bit w 1
  let cap := (if f0 then 0 else s.chanCap 0) + (if f1 then 0 else s.chanCap 1)
  let ch := b2n (bit w 0 && !f0) + 2 * b2n (bit w 1 && !f1)
  let s1 := if f0 then s.err .mem errTrainFail else s
  let s2 := if f1 then s1.err .mem errTrainFail else s1
  ((s2.updMem fun m => { m with trained := decide (0 < cap), capacity := cap, selfRefresh := false }).updHd .mem fun h =>
    { h with running := decide (0 < cap) }).record .mem 0 0x1811 [ch, cap]

/-- MEM_TRAINING_DONE (R422). -/
def execMemTrainingDone (fail0 fail1 : Bool) (s : State) : Out :=
  .next (if !(s.hd .mem).en ∨ (s.hd .mem).pwr ≠ .on then s else s.memTrained fail0 fail1)

/-- An uncorrectable SDRAM error at an address (R422). -/
def State.memUe (s : State) (a : Nat) : State :=
  let ch := if bits (s.reg R.MEM_CFG) 1 0 = 3 then a / 256 % 2 else 0
  let s1 := s.updMem fun m => { m with ueLog := match m.ueLog with | some v => some v | none => some (a % 2 ^ 40) }
  ((((s1.record .mem 0 0x1810 [a % 2 ^ 32, a / 2 ^ 32 % 256, ch]).err .mem errMemUe).irq .mem 8)).raise .mem 0 0x1810 .alarm

/-- MEM_PATROL_SCRUB (R422): `ce` corrected errors and, where there is one, the address of an uncorrectable error. -/
def execMemPatrolScrub (ce : Nat) (ue : Option Nat) (s : State) : Out :=
  .next (
    let s1 := s.updMem fun m => { m with ceCnt := min 0xFFFFFFFF (m.ceCnt + ce) }
    match ue with
    | some a => s1.memUe a
    | none => s1)

/-- MEM_UE_CLEAR. -/
def execMemUeClear (p : Principal) (s : State) : Out :=
  .next (s.gated .mem 0x114 .w1c p 0x80000000 fun s => s.updMem fun m => { m with ueLog := none })

/-! ### DMA rings (R426, R427) -/

def errHifDesc : Nat := 0x20
def errHifAddr : Nat := 0x21
def errRingOvr : Nat := 0x22
def errHifLinkDown : Nat := 0x23

/-- Change the host interface, or a ring. -/
def State.updHif (s : State) (f : Hif → Hif) : State := { s with hif := f s.hif }
def State.ring (s : State) (n : Nat) : Ring := Tab.get {} s.hif.rings n
def State.updRing (s : State) (n : Nat) (f : Ring → Ring) : State := s.updHif fun h => { h with rings := Tab.upd {} h.rings n f }

/-- RING_CFG of a ring with its fields. -/
def State.ringCfg (s : State) (n : Nat) : Word := s.regAt R.RING_CFG (32 * n)
def State.ringSize (s : State) (n : Nat) : Nat := bits (s.ringCfg n) 12 0
def State.ringBase_ (s : State) (n : Nat) : Nat := (s.regAt R.RING_BASE_LO (32 * n)).toNat + 2 ^ 32 * (s.regAt R.RING_BASE_HI (32 * n)).toNat

/-- A ring stops with a cause: HALTED, or OFF where EN = 0 was written before. -/
def Ring.halt (r : Ring) (cause : Nat) : Ring := if r.stopping then {} else { r with state := .halted, cause := cause }

/-- A ring halts (R427). -/
def State.ringHalt (s : State) (n cause : Nat) : State :=
  (((s.updRing n fun r => r.halt cause).record .hif 0 0x1712 [n, cause, (s.ring n).head]).err .hif cause).irq .hif 8

/-- A halt on a host memory error, to which the spec gives no cause code: the cause is a free value. -/
def State.ringHostErr (s : State) (n : Nat) : State :=
  let (k, s1) := s.draw
  let c := (Config.freeWord k).toNat % 256
  ((s1.updRing n fun r => r.halt c).record .hif 0 0x1712 [n, c, (s.ring n).head]).irq .hif 8

/-- RING_DOORBELL (R426, R427): doorbell `n` of BAR4. A tail that passes the head halts the ring; a ring that is not ACTIVE ignores it. -/
def execRingDoorbell (n : Fin 8) (tail : BitVec 12) (s : State) : Out :=
  .next (
    let r := s.ring n.val
    let m := s.ringSize n.val
    if !s.hif.up ∨ r.state ≠ .active then s
    else
      let used := (r.tail + m - r.head) % m
      let adv := (tail.toNat + m - r.tail) % m
      if m ≤ tail.toNat ∨ m ≤ used + adv then s.ringHalt n.val errRingOvr
      else s.updRing n.val fun r => { r with tail := tail.toNat })

/-- Write bytes to host memory. -/
def State.hostWrite (s : State) (a : Nat) (bs : List Byte) : State := s.updHif fun h => { h with hostMem := Tab.putList 0 h.hostMem a bs }

/-- An MSI-X vector goes to the host. -/
def State.msi (s : State) (v : Nat) : State := s.updHif fun h => { h with msi := h.msi ++ [v] }

/-- D6 of the ring's current descriptor. -/
def State.writeBack (s : State) (n result tag : Nat) : State :=
  s.hostWrite (s.ringBase_ n + 32 * (s.ring n).head + 24) (wordBytes (word (1 + 256 * result + 65536 * tag)))

/-- The vector of a descriptor with IRQ = 1 that has been written back. -/
def State.descIrq (s : State) (n : Nat) (d : HDesc) : State := if bit d.d5 0 then s.msi (bits (s.ringCfg n) 29 24) else s

/-- A descriptor has completed: the head moves on, the vector is raised, and a ring that was being disabled is OFF. -/
def State.descNext (s : State) (n : Nat) (d : HDesc) : State :=
  (s.descIrq n d).updRing n fun r =>
    if r.stopping then {} else { r with head := (r.head + 1) % max 1 (s.ringSize n) }

/-- The check of a descriptor of a DMA ring: 0, BAD_DESC or BAD_ADDR. -/
def State.descCheck (s : State) (d : HDesc) : Nat :=
  let len := bits d.d4 23 0
  if bits d.d5 15 2 ≠ 0 ∨ d.d7 ≠ 0 ∨ bits d.d4 31 24 ≠ 0 ∨ len % 4 ≠ 0 ∨ len = 0 then errHifDesc
  else if inSram d.devAddr len || ((s.hd .mem).running && inSdram s d.devAddr len) then 0 else errHifAddr

/-- Whether a ring has a descriptor to process. -/
def State.ringBusy (s : State) (n : Nat) : Bool :=
  let r := s.ring n
  s.hif.up && (s.hd .hif).running && decide (r.state = .active) && (decide (r.head ≠ r.tail) || r.stopping)

/-- RING_ENABLE (R427): RING_CFG is written with EN = 1. A ring that is not OFF keeps its locked fields, and CFG_LOCKED reports a change of
them. -/
def execRingEnable (p : Principal) (n : Fin 8) (v : Word) (s : State) : Out :=
  .next (s.gated .hif (0x208 + 32 * n.val) .rw p (setBit v 31) fun s =>
    let r : RegId := ⟨.hif, 0x208 + 32 * n.val⟩
    let w := setBit v 31 &&& 0xBF071FFF
    if bits w 12 0 < 16 ∨ 4096 < bits w 12 0 then s.err .hif errValueRange
    else if (s.ring n.val).state ≠ .off then
      (if clrBit w 31 = clrBit (s.reg r) 31 then s else s.err .hif errCfgLocked)
    else (s.setReg r w).updRing n.val fun _ => { state := .active })

/-- RING_DISABLE (R427): EN = 0 completes the descriptor in progress first. -/
def execRingDisable (p : Principal) (n : Fin 8) (s : State) : Out :=
  .next (s.gated .hif (0x208 + 32 * n.val) .rw p (clrBit (s.ringCfg n.val) 31) fun s =>
    let r := s.ring n.val
    let s1 := s.setReg ⟨.hif, 0x208 + 32 * n.val⟩ (clrBit (s.ringCfg n.val) 31)
    s1.updRing n.val fun _ => if r.state = .active ∧ r.head ≠ r.tail then { r with stopping := true } else {})

/-- HIF_MSI_SEND (Table HIF-3). -/
def execHifMsiSend (p : Principal) (v : Fin 64) (s : State) : Out :=
  .next (s.gated .hif 0x110 .wo p (word v.val) fun s => if s.hif.up then s.msi v.val else s)

/-- HIF_ERR_LOG_CLEAR (R425). -/
def execHifErrLogClear (p : Principal) (s : State) : Out :=
  .next (s.gated .hif 0x108 .w1c p 0x80000000 fun s => s.updHif fun h => { h with err := none })

/-! ### The host link (R423, R428) -/

/-- PCIE_LINK_UP (R423): the trained rate and width, and whether the host sets bus mastering. -/
def execPcieLinkUp (rate : Fin 8) (width : Fin 16) (bm : Bool) (s : State) : Out :=
  .next (
    if (s.hd .hif).pwr ≠ .on then s
    else ((s.updHif fun h => { h with up := true, rate := rate.val, width := width.val, busMaster := bm }).record .hif 0 0x1710
      [rate.val, width.val]).irq .hif 9)

/-- A reset of the host interface (R428): HIF is fenced, the descriptors in progress are abandoned, every ring is disabled, MSI-X state and
HIF_AP_BASE return to their reset values. -/
def State.hifReset (s : State) (cause : Nat) : State :=
  let s1 := (List.range 8).foldl (fun s n => s.setReg ⟨.hif, 0x208 + 32 * n⟩ (clrBit (s.ringCfg n) 31)) s
  let s2 := (s1.updHif fun h => { h with rings := [], msi := [], busMaster := false }).setReg R.HIF_AP_BASE 0
  let s3 := ((s2.record .hif 0 0x1711 [cause]).err .hif errHifLinkDown).irq .hif 9
  (s3.fenceCommit .hif).updHd .hif fun h => if h.pwr = .on then { h with pwr := .fenced } else h

/-- PCIE_LINK_DOWN (R428). -/
def execPcieLinkDown (s : State) : Out :=
  .next (if s.hif.up then (s.updHif fun h => { h with up := false, rate := 0, width := 0 }).hifReset 0 else s)

/-- PCIE_HOT_RESET (R428). -/
def execPcieHotReset (s : State) : Out := .next (if s.hif.up then s.hifReset 1 else s)

/-- PCIE_FLR (R428). -/
def execPcieFlr (s : State) : Out := .next (if s.hif.up then s.hifReset 2 else s)

end Sys2Proof.Machine
end

