-- ==== Sys2Proof/Machine/EvrCmd.lean ====
section
/-!
DEFINITION. The event recorder's commands (R391–R396): acceptance, loss reports, freezing, dumps and the first-fault region.
-/

namespace Sys2Proof.Machine

def errEvrFrozen : Nat := 0x20
def errNotFrozen : Nat := 0x21
def errDumpRange : Nat := 0x22

/-- The main ring's first slot and its length. -/
def ringFirst : Nat := 256
def ringLen : Nat := 32512

/-- EVR accepts a record (R391, R392): it takes the next SEQ and the next main-ring slot, and is copied into the first-fault region while that
is armed and not full. -/
def Evr.accept (e : Evr) (r : EvRec) : Evr :=
  let x := { r with seq := e.seq }
  let toFf := e.ffArmed && decide (e.ff.length < 256)
  { e with ring := Tab.put {} e.ring e.head x, head := if e.head + 1 < ringFirst + ringLen then e.head + 1 else ringFirst,
           seq := wrapInc e.seq, count := min ringLen (e.count + 1),
           ff := if toFf then e.ff ++ [x] else e.ff, ffSeq := if toFf ∧ e.ff = [] then e.seq else e.ffSeq }

/-- Accept a record, with FF_FULL where the region fills. -/
def State.evrAccept (s : State) (r : EvRec) : State :=
  let e := s.evr.accept r
  let s1 := { s with evr := e }
  if e.ff.length = 256 ∧ s.evr.ff.length ≠ 256 then s1.irq .evr 8 else s1

/-- The writer served next (R391): the first that holds a record, in ascending SOURCE after the one served last. -/
def Evr.nextWriter (e : Evr) : Option Nat :=
  let ws := e.queues.filter fun q => !q.2.isEmpty
  match ws.find? fun q => decide (e.lastServed < q.1) with
  | some q => some q.1
  | none => ws.head?.map (·.1)

/-- EVR_ACCEPT (R391): one record in a CLK_PER cycle, outside a freeze. -/
def execEvrAccept (s : State) : Out :=
  .next (
    if s.evr.frozenAt.isSome then s
    else
      match s.evr.nextWriter with
      | none => s
      | some w =>
        match Tab.get [] s.evr.queues w with
        | [] => s
        | r :: rs => ({ s with evr := { s.evr with queues := Tab.put [] s.evr.queues w rs, lastServed := w } }).evrAccept r)

/-- LOST_BUSY_REPORT (R391): LOST_BUSY carries the losses since the last one; a second without a loss ends the reports. -/
def execLostBusyReport (s : State) : Out :=
  .next (
    if !s.evr.lostTimer then s
    else if s.evr.lostSince = 0 then { s with evr := { s.evr with lostTimer := false } }
    else
      let n := s.evr.lostSince
      let c := s.evr.lostSinceCode
      ({ s with evr := { s.evr with lostSince := 0, lostSinceCode := 0 } }).record .evr 0 0x1514 [n, c])

/-- A record put behind every record of its time or an earlier one (R393, log 100). -/
def EvRec.insertByTime (r : EvRec) : List EvRec → List EvRec
  | [] => [r]
  | x :: xs => if r.time < x.time then r :: x :: xs else x :: EvRec.insertByTime r xs

/-- FREEZE sets (R393): every record that waits with a writer arrives during the freeze, in the order of presentation (log 100). EVR_FRZ_MAX
applies from this FREEZE (Table EVR-2). -/
def State.evrFreeze (s : State) : State :=
  if s.evr.frozenAt.isSome then s
  else
    let waiting := (s.evr.queues.flatMap (·.2)).foldl (fun l r => r.insertByTime l) []
    let e := { s.evr with frozenAt := some s.now, frzMax := bits (s.reg R.EVR_FRZ_MAX) 13 0, lostFrozen := 0, lostFrozenCode := 0, queues := [] }
    let lost := waiting.any fun r => !decide (r.source / 256 = 15)
    let s1 := { s with evr := waiting.foldl Evr.present e }
    if lost then s1.irq .evr 9 else s1

/-- An EVR record of EVR itself, stamped now and accepted at once. -/
def State.evrOwn (s : State) (code p0 p1 p2 : Nat) : State :=
  s.evrAccept { code := code, source := source .evr 0, time := s.now, p0 := p0, p1 := p1, p2 := p2 }

/-- FREEZE clears (R393), by a write or after EVR_FRZ_MAX: the release's actions in order. -/
def State.evrRelease (s : State) (auto : Bool) : State :=
  match s.evr.frozenAt with
  | none => s
  | some t0 =>
    let us := (s.now - t0) / 1000
    let s0 := { s with evr := { s.evr with frozenAt := none } }
    let s1 := if auto then s0.evrOwn 0x1513 s.evr.frzMax 0 0 else s0
    let s2 := if s.evr.lostFrozen ≠ 0 then s1.evrOwn 0x1512 s.evr.lostFrozen s.evr.lostFrozenCode us else s1
    let s3 := s.evr.safeBuf.foldl State.evrAccept s2
    { s3 with evr := { s3.evr with safeBuf := [] } }

/-- FREEZE_TIMEOUT (R393): EVR_FRZ_MAX after FREEZE was set it clears. -/
def execFreezeTimeout (s : State) : Out :=
  .next (
    if s.evr.frozenAt.isSome then (s.evrRelease true).updHd .evr fun h => { h with freeze := false } else s)

/-- EVR_DUMP_ADDR. -/
def State.dumpAddr (s : State) : Nat := (s.reg R.EVR_DUMP_ADDR_LO).toNat + 2 ^ 32 * (s.reg R.EVR_DUMP_ADDR_HI).toNat

/-- How many main-ring records a dump copies. -/
def State.dumpMain (s : State) : Nat :=
  let w := s.reg R.EVR_DUMP_CFG
  let n := bits w 30 16
  if !bit w 1 then 0 else if n = 0 then s.evr.count else min n s.evr.count

/-- The records of a dump (R394): the first-fault region, then the newest records of the main ring in ascending SEQ. -/
def State.dumpRecs (s : State) : List EvRec :=
  let ff := if bit (s.reg R.EVR_DUMP_CFG) 0 then s.evr.ff else []
  let n := s.dumpMain
  let first := s.evr.head + ringLen - n
  ff ++ (List.range n).map fun k => Tab.get {} s.evr.ring (ringFirst + (first + k - ringFirst) % ringLen)

/-- The 32 bytes of a record (Table EVR-1). -/
def EvRec.bytes (r : EvRec) : List Byte :=
  natBytesLE r.code 2 ++ natBytesLE r.source 2 ++ natBytesLE r.seq 4 ++ natBytesLE r.time 8 ++
    natBytesLE r.p0 4 ++ natBytesLE r.p1 4 ++ natBytesLE r.p2 4 ++ natBytesLE r.p3 4

/-- EVR_DUMP_STAT's result, with BLK_ERR for an error. -/
def State.dumpResult (s : State) (e : Nat) : State :=
  let s1 := { s with evr := { s.evr with dumpResult := e } }
  if e = 0 then s1 else s1.err .evr e

/-- EVR_DUMP_GO (R394): NOT_FROZEN outside a freeze; DUMP_RANGE for a bad address, no area or a COUNT above 32,512. -/
def execEvrDumpGo (p : Principal) (s : State) : Out :=
  .next (s.gated .evr 0x13C .w1s p 1 fun s =>
    let w := s.reg R.EVR_DUMP_CFG
    let a := s.dumpAddr
    let n := 32 * s.dumpRecs.length
    if s.evr.frozenAt.isNone then s.dumpResult errNotFrozen
    else if a % 32 ≠ 0 ∨ (!bit w 0 && !bit w 1) ∨ ringLen < bits w 30 16 ∨ !(inSram a n || ((s.hd .mem).running && inSdram s a n)) then
      s.dumpResult errDumpRange
    else ({ s with evr := { s.evr with dumpBusy := true, dumpTo := a, dumping := s.dumpRecs, dumpCopied := 0 } }).dumpResult 0)

/-- EVR_DUMP_DONE (R394, R396): the copy of the records taken at EVR_DUMP_GO is complete. -/
def execEvrDumpDone (s : State) : Out :=
  .next (
    if !s.evr.dumpBusy then s
    else
      let rs := s.evr.dumping
      ({ (s.storeRam s.evr.dumpTo (rs.flatMap EvRec.bytes)) with
        evr := { s.evr with dumpBusy := false, dumping := [], dumpCopied := rs.length } }).irq .evr 10)

/-- EVR_FF_ARM (R392, R394): the region empties and re-arms, unless EVR is frozen. -/
def execEvrFfArm (p : Principal) (s : State) : Out :=
  .next (s.gated .evr 0x114 .w1s p 1 fun s =>
    if s.evr.frozenAt.isSome then s.err .evr errEvrFrozen
    else ({ s with evr := { s.evr with ff := [], ffArmed := true, ffSeq := 0 } }).record .evr 0 0x1511 [s.evr.seq])

/-- BLK_CTRL.SOFT_RST of EVR beyond the header and registers (R395). -/
def State.evrSoftRst (s : State) : State :=
  let s1 := s.evrRelease false
  { s1 with evr := { s1.evr with dumpBusy := false, dumping := [], dumpResult := 0, dumpCopied := 0 } }

end Sys2Proof.Machine
end

