-- ==== Sys2Proof/Machine/MotCmd.lean ====
section
/-!
DEFINITION. The axis commands (R233, R236) and the profile period (R211–R217, R226, R231–R238).
-/

namespace Sys2Proof.Machine

/-! ### MOT error codes (Table MOT-11) -/

def errAxisActive : Nat := 0x20
def errDrvInUse : Nat := 0x21
def errMotOutClaimed : Nat := 0x22
def errMotNotHot : Nat := 0x23
def errMotPointKind : Nat := 0x24
def errMotBadDesc : Nat := 0x25
def errAxisState : Nat := 0x26
def errTargetLimit : Nat := 0x27
def errLimitActive : Nat := 0x28
def errGrpLimit : Nat := 0x29
def errGrpBusy : Nat := 0x2A
def errEncInUse : Nat := 0x2B
def errCmdBad : Nat := 0x2C
def errAdmitLane : Nat := 0x2D

/-! ### Checks of commands -/

/-- Whether a limit that blocks motion of a sign is active (R216). -/
def State.blocked (s : State) (a : Axis) (dir : Int) : Bool :=
  (decide (0 < dir) && s.limActive a.desc.limP) || (decide (dir < 0) && s.limActive a.desc.limN)

/-- The states in which a move command is allowed (Table MOT-6); a member of a moving group refuses it (R234). -/
def Axis.mayMove (a : Axis) : Bool :=
  decide (a.state = .standstill) || (decide (a.state = .moving) && a.inGroup.isNone) || decide (a.state = .following)

/-- Whether ENABLE's condition holds (Table MOT-6). `station` says that a LANE axis's station is OPERATIONAL. -/
def State.mayEnable (s : State) (a : Axis) (station : Bool) : Bool :=
  a.applied && match a.desc.bind with
    | .local_ =>
      let e := s.readPoint a.desc.vbusPt
      let v := if isBad e.q then a.vbus else sext 16 e.value.toNat
      decide (a.desc.vbusMin ≤ v)
    | .lane => station
    | _ => true

/-- Whether a station of a Lane port is OPERATIONAL. -/
def State.staOperational (s : State) (port sta : Nat) : Bool := decide ((Tab.get {} s.lne.sta (port * 128 + sta)).state = .operational)

/-- The velocity of a search (Table MOT-4). -/
def AxisDesc.search (d : AxisDesc) : Int := if d.homeMode = 3 then d.homeV2 else d.homeV1

/-- Whether a fault cause is gone (Table MOT-6): a condition that persists still holds. -/
def State.causeGone (s : State) (a : Axis) : Bool :=
  match a.fault with
  | 1 => match s.ferr a s.tick with | some f => decide (f.natAbs ≤ a.desc.ferrMax) | none => true
  | 2 =>
    let e := s.readPoint a.desc.vbusPt
    let v := if isBad e.q then a.vbus else sext 16 e.value.toNat
    decide (a.desc.vbusMin ≤ v)
  | 4 => s.staOperational a.desc.port a.desc.station
  | 6 => !(nbit s.mot.encErr a.desc.enc)
  | _ => true

/-- The result of an axis command when it is checked (R236). -/
def State.axisCheck (s : State) (n : Nat) (c : AxCmd) : Nat :=
  let a := s.axis n
  let pos := fix16 (a.posAt s.tick)
  if !(s.hd .mot).run then errAxisState
  else
    match c with
    | .enable => if a.state = .disabled ∧ s.mayEnable a (s.staOperational a.desc.port a.desc.station) then 0 else errAxisState
    | .moveAbs p =>
      if !a.mayMove then errAxisState else if a.outside (p * 65536) then errTargetLimit
      else if s.blocked a (p * 65536 - pos) then errLimitActive else 0
    | .moveRel d =>
      if !a.mayMove then errAxisState else if a.outside (pos + d * 65536) then errTargetLimit
      else if s.blocked a d then errLimitActive else 0
    | .moveVel v => if !a.mayMove then errAxisState else if s.blocked a v then errLimitActive else 0
    | .stop | .qstop =>
      if a.state = .moving ∨ a.state = .following ∨ a.state = .homing then 0 else errAxisState
    | .home =>
      if a.state = .standstill ∧ 1 ≤ a.desc.homeMode ∧ a.desc.homeMode ≤ 4 then
        (if a.desc.homeMode ≠ 4 ∧ s.blocked a a.desc.search then errLimitActive else 0)
      else errAxisState
    | .follow =>
      let e := s.readPoint a.desc.cmdPt
      if a.state ≠ .standstill then errAxisState
      else if isBad e.q then errCmdBad
      else if s.blocked a (sext 16 e.value.toNat) then errLimitActive else 0
    | .latchArm => if a.applied then 0 else errAxisState
    | .resetFault => if a.state = .fault ∧ s.causeGone a then 0 else errAxisState

/-- MOT_CMD_STAT with the error of a refused command. -/
def State.motResult (s : State) (n e : Nat) : State :=
  let s1 := s.updMot fun m => { m with cmdAxis := n, cmdResult := e }
  if e = 0 then s1 else s1.err .mot e

/-- An accepted GMOVE of a group with this member is discarded: a later command for the axis is applied in its place (R236). -/
def State.dropGmoves (s : State) (n : Nat) : State :=
  s.updMot fun m => { m with grps := Tab.mapAll {} (fun x => if x.desc.members.any (fun y => decide (y.2 = n)) then { x with cmd := none } else x) m.grps }

/-- A write of MOT_CMD with an axis command: checked at once, in effect at the next profile boundary; the last one accepted wins. -/
def State.motCmd (s : State) (p : Principal) (n code : Nat) (c : State → AxCmd) : State :=
  s.gated .mot 0x100 .wo p (word (n + 256 * code)) fun s =>
    let e := s.axisCheck n (c s)
    let s1 := if e = 0 then (s.dropGmoves n).updAxis n fun a => { a with cmd := some (c s) } else s
    s1.motResult n e

/-- MOT_ARG_POS as a signed number of units. -/
def State.argPos (s : State) : Int := sext 64 ((s.reg R.MOT_ARG_POS_LO).toNat + 2 ^ 32 * (s.reg R.MOT_ARG_POS_HI).toNat)

/-- MOT_ARG_VEL. -/
def State.argVel (s : State) : Int := (s.reg R.MOT_ARG_VEL).toInt

def execAxisEnable (p : Principal) (n : Fin 128) (s : State) : Out := .next (s.motCmd p n.val 1 fun _ => .enable)
def execMoveAbs (p : Principal) (n : Fin 128) (s : State) : Out := .next (s.motCmd p n.val 3 fun s => .moveAbs s.argPos)
def execMoveRel (p : Principal) (n : Fin 128) (s : State) : Out := .next (s.motCmd p n.val 4 fun s => .moveRel s.argPos)
def execMoveVel (p : Principal) (n : Fin 128) (s : State) : Out := .next (s.motCmd p n.val 5 fun s => .moveVel s.argVel)
def execAxisStop (p : Principal) (n : Fin 128) (s : State) : Out := .next (s.motCmd p n.val 6 fun _ => .stop)
def execAxisQstop (p : Principal) (n : Fin 128) (s : State) : Out := .next (s.motCmd p n.val 7 fun _ => .qstop)
def execAxisHome (p : Principal) (n : Fin 128) (s : State) : Out := .next (s.motCmd p n.val 8 fun _ => .home)
def execAxisFollow (p : Principal) (n : Fin 128) (s : State) : Out := .next (s.motCmd p n.val 10 fun _ => .follow)
def execResetFault (p : Principal) (n : Fin 128) (s : State) : Out := .next (s.motCmd p n.val 12 fun _ => .resetFault)

/-- AXIS_DISABLE (R236): the phases go to 00 at once and the axis coasts. -/
def execAxisDisable (p : Principal) (n : Fin 128) (s : State) : Out :=
  .next (s.gated .mot 0x100 .wo p (word (n.val + 512)) fun s =>
    if (s.axis n.val).state = .disabled then s.motResult n.val errAxisState
    else (s.axisOff n.val 0).motResult n.val 0)

/-- LATCH_ARM (R230): arms one capture of the axis's latch unit, from the next profile boundary (R236). -/
def execLatchArm (p : Principal) (n : Fin 128) (s : State) : Out := .next (s.motCmd p n.val 13 fun _ => .latchArm)

/-! ### GMOVE (R233) -/

/-- MOT_GTGT of a slot. -/
def State.gTgt (s : State) (slot : Nat) : Int :=
  sext 64 ((s.regAt R.MOT_GTGT (8 * slot)).toNat + 2 ^ 32 * (s.regAt R.MOT_GTGT (8 * slot + 4)).toNat)

/-- The members of a group with their distances for targets by slot, in units × 2^16. -/
def State.grpMembers (s : State) (g : Nat) (tg : List Int) : List GrpMember :=
  (s.grp g).desc.members.map fun m =>
    let p0 := fix16 ((s.axis m.2).posAt s.tick)
    { axis := m.2, p0 := p0, delta := tg.getD m.1 0 * 65536 - p0 }

/-- The leader: the largest distance, ties to the lowest slot. -/
def leaderOf (ms : List GrpMember) : Option GrpMember :=
  ms.foldl (fun best m =>
    match best with
    | none => some m
    | some b => if b.delta.natAbs < m.delta.natAbs then some m else some b) none

/-- The largest value of a function over the parts of a plan. -/
def maxOver (l : List Seg) (f : Seg → Rat) : Rat := l.foldl (fun x y => let v := f y; if x < v then v else x) 0

/-- Speed, acceleration and deceleration of a plan at their peaks. -/
def planPeaks (l : List Seg) : Rat × Rat × Rat :=
  let dv : Seg → Rat := fun s => match s with | .ramp _ a b => b - a | .scurve _ _ a b => b - a | .ease .. => 0
  let rate : Seg → Rat := fun s =>
    match s with
    | .ramp n a b => if n = 0 then 0 else absQ (b - a) / q n
    | .scurve n j a b => if n ≤ j then 0 else absQ (b - a) / q (n - j)
    | .ease .. => 0
  (maxOver l (fun s => absQ (s.vel s.len)), maxOver l (fun s => if 0 < dv s then rate s else 0),
    maxOver l (fun s => if dv s < 0 then rate s else 0))

/-- The leader's distance |Δ_L|, in units × 2^16. -/
def grpDist (ms : List GrpMember) : Nat := match leaderOf ms with | some m => m.delta.natAbs | none => 0

/-- The leader's plan of a group move. Where a limit of the group is 0 no profile leads to the target, and the path stays at its start (log 18). -/
def State.grpPlan (s : State) (g : Nat) (ms : List GrpMember) : Plan :=
  let d := q (grpDist ms)
  let segs := restPlan d (s.grp g).desc.limits
  { p0 := 0, segs := segs, pEnd := if segs = [] then 0 else d, vEnd := 0 }

/-- The check of GMOVE (R233, R215, R216). -/
def State.gmoveCheck (s : State) (g : Nat) (tg : List Int) : Nat :=
  let ms := s.grpMembers g tg
  let lead := q (grpDist ms)
  let (pv, pa, pd) := planPeaks (s.grpPlan g ms).segs
  let scale := fun (m : GrpMember) => if lead = 0 then (0 : Rat) else (m.delta.natAbs : Rat) / lead
  if !(s.hd .mot).run ∨ ms = [] ∨ (ms.any fun m => decide ((s.axis m.axis).state ≠ .standstill)) then errAxisState
  else if (s.grp g).moving ∨ (ms.any fun m => (s.axis m.axis).inGroup.isSome) then errGrpBusy
  else if ms.any fun m => let d := (s.axis m.axis).desc.limits
      decide (d.v < pv * scale m) || decide (d.a < pa * scale m) || decide (d.d < pd * scale m) then errGrpLimit
  else if (s.grp g).desc.members.any fun m => (s.axis m.2).outside (tg.getD m.1 0 * 65536) then errTargetLimit
  else if ms.any fun m => s.blocked (s.axis m.axis) m.delta then errLimitActive
  else 0

/-- AXIS_GMOVE (R233): accepted for the next profile boundary. -/
def execAxisGmove (p : Principal) (n : Fin 128) (g : Fin 16) (s : State) : Out :=
  .next (s.gated .mot 0x100 .wo p (word (n.val + 11 * 256 + 65536 * g.val)) fun s =>
    let tg := (List.range 8).map s.gTgt
    let e := s.gmoveCheck g.val tg
    if e ≠ 0 then s.motResult n.val e
    else
      let s1 := (s.grp g.val).desc.members.foldl (fun s m => (s.dropGmoves m.2).updAxis m.2 fun a => { a with cmd := none }) s
      (s1.updGrp g.val fun x => { x with cmd := some tg }).motResult n.val 0)

/-! ### The profile period (R211) -/

/-- The straight part until the next boundary for a position there. -/
def State.setNext (s : State) (n : Nat) (p pNext : Rat) : State :=
  s.updAxis n fun a => let j := a.jump; { (a.rebase s.tick p ((pNext - p) / q profileTicks)) with jump := j }

/-- A planned motion begins at this boundary. -/
def State.begin_ (s : State) (n : Nat) (m : Motion) : State := s.updAxis n fun a => { a with motion := m }

/-- Homing completes (R231): the position shifts so that the captured position becomes HOME_POS. -/
def State.homeDone (s : State) (n : Nat) : State :=
  let a := s.axis n
  let t := s.tick
  let shift := a.desc.homePos * 65536 - a.homeCap
  let p := a.posAt t + (shift : Rat)
  let ofs := if a.desc.encNum = 0 then a.encOfs
    else a.encOfs + (shift : Rat) / 65536 * q (max 1 a.desc.encDen) / q a.desc.encNum
  let s1 := s.updAxis n fun a => { (a.rebase t p 0) with encOfs := ofs, homed := true, jump := true }
  (((s1.record .mot 0 0x0D13 [n, a.desc.homeMode, (shift % 2 ^ 32).toNat]).axisEvt n).rest n 1).updAxis n fun a => { a with jump := true }

/-- A homing sequence starts (R231): HOMED is cleared. -/
def State.homeStart (s : State) (n : Nat) : State :=
  let a := s.axis n
  let t := s.tick
  let s1 := (s.axisTo n .homing 0).updAxis n fun a => { a with homed := false, holding := false, limit := false, atLimit := false }
  let s2 := s1.setPhase n .full
  let p := a.posAt t
  match a.desc.homeMode with
  | 4 => (s2.updAxis n fun a => { a with homeCap := fix16 p }).homeDone n
  | 3 => (s2.updAxis n fun a => { a with homeStep := .seekIndex }).begin_ n
      (.speed (speedPlan p 0 0 (velPer (a.desc.homeV2 : Rat)) a.desc.limits) 0)
  | _ => (s2.updAxis n fun a => { a with homeStep := .seekSwitch, latArmed := true }).begin_ n
      (.speed (speedPlan p 0 0 (velPer (a.desc.homeV1 : Rat)) a.desc.limits) 0)

/-- An accepted command takes effect, where its state still allows it (R236). -/
def State.axisApply (s : State) (n : Nat) (c : AxCmd) : State :=
  let s0 := s.updAxis n fun a => { a with cmd := none }
  let a := s0.axis n
  let t := s0.tick
  let p := a.posAt t
  let moves := fun (s : State) (m : Motion) =>
    ((((s.axisTo n .moving 0).updAxis n fun a => { a with holding := false, limit := false, atLimit := false }).setPhase n .full).begin_ n m)
  let target := fun (x : Int) => moves s0 (.plan (targetPlan p a.vel a.accl (x : Rat) a.desc.limits) 0)
  let stop := fun (quick : Bool) =>
    match a.inGroup with
    | some g => s0.grpStop g quick none 0
    | none =>
      let l := if quick then a.desc.qLimits else a.desc.limits
      ((s0.axisTo n .stopping 0).updAxis n fun a => { a with stopCause := 0, quick := quick, homeStep := .none }).begin_ n
        (.plan (stopPlan p a.vel a.accl l) 0)
  if s0.axisCheck n c ≠ 0 then s0
  else
    match c with
    | .enable =>
      let ofs : Rat := if a.desc.encNum = 0 then 0
        else (a.cmdPos t : Rat) * q (max 1 a.desc.encDen) / q a.desc.encNum - ((s0.enc a.desc.enc).count : Rat)
      ((s0.updAxis n fun a => { a with encOfs := if a.desc.encEn then ofs else a.encOfs }).readVbus n).rest n 0
    | .moveAbs x => target (x * 65536)
    | .moveRel d => target (fix16 p + d * 65536)
    | .moveVel v =>
      let w := clamp (-(a.desc.vmax : Int)) a.desc.vmax v
      moves s0 (.speed (speedPlan p a.vel a.accl (velPer (w : Rat)) a.desc.limits) 0)
    | .stop => stop false
    | .qstop => stop true
    | .home => s0.homeStart n
    | .follow => (((s0.axisTo n .following 0).updAxis n fun a => { a with holding := false, limit := false, cmdBad := false }).setPhase n .full).begin_ n .follow
    | .resetFault => ((s0.axisTo n .disabled 0).updAxis n fun a => { a with fault := 0, ferrCnt := 0, stallCnt := 0 }).setPhase n .off
    | .latchArm => s0.updAxis n fun a => { a with latArmed := true }

/-- The steps of a homing sequence at a boundary, after the motion advanced; `ended` says that its plan ended (R231). -/
def State.homeAdvance (s : State) (n : Nat) (ended : Bool) : State :=
  let a := s.axis n
  let p := a.posAt s.tick
  let sgn : Rat := if a.desc.search < 0 then -1 else 1
  match a.homeStep with
  | .seekIndex =>
    let w := if a.desc.homeMode = 3 then velPer (a.desc.homeV2 : Rat) else sgn * velPer (a.desc.homeV2.natAbs : Rat)
    match a.motion with
    | .speed pl _ => if pl.vEnd = w then s else s.begin_ n (.speed (speedPlan p a.vel a.accl w a.desc.limits) 0)
    | _ => s.begin_ n (.speed (speedPlan p a.vel a.accl w a.desc.limits) 0)
  | .brake =>
    match a.motion with
    | .speed .. => (s.updAxis n fun a => { a with quick := false }).begin_ n (.plan (stopPlan p a.vel a.accl a.desc.limits) 0)
    | _ =>
      if ended then
        let l := { a.desc.limits with v := velPer (a.desc.homeV2.natAbs : Rat) }
        (s.updAxis n fun a => { a with homeStep := .goTo }).begin_ n (.plan (targetPlan p 0 0 (a.homeCap : Rat) l) 0)
      else s
  | .goTo => if ended then s.homeDone n else s
  | _ => s

/-- Whether the following-error check runs (R232). -/
def Axis.ferrRuns (a : Axis) : Bool :=
  a.desc.encEn && decide (a.desc.ferrMax ≠ 0) && decide (a.state ≠ .disabled) && decide (a.state ≠ .fault) &&
    !(decide (a.state = .standstill) && (decide (a.phase = .off) || decide (a.phase = .short)) && decide (a.desc.bind = .local_))

/-- The periodic checks of an axis (R216, R226, R232, R235): the counters and the fault that is due, 0 for none. -/
def State.axisChecks (s : State) (n : Nat) : State × Nat :=
  let a := s.axis n
  let ferr := (s.ferr a s.tick).getD 0
  let fc := if a.ferrRuns then (if a.desc.ferrMax < ferr.natAbs then a.ferrCnt + 1 else 0) else 0
  let fast := decide (q a.desc.stallVmin ≤ absQ a.velUnits)
  let (sum, cnt) := if a.stallN = 0 then ((sext 16 (s.readPoint a.desc.stallPt).value.toNat).natAbs, 1) else (a.stallSum, a.stallN)
  let sc := if a.desc.stallEn then (if fast then (if a.desc.stallThr * (cnt : Int) < (sum : Int) then a.stallCnt + 1 else 0) else 0) else 0
  let s1 := s.updAxis n fun a => { a with ferrCnt := fc, stallCnt := sc }
  let lane := decide (a.desc.bind = .lane) && !(s.staOperational a.desc.port a.desc.station)
  let cause :=
    if a.faultNext ≠ 0 then a.faultNext
    else if a.ferrRuns ∧ a.desc.ferrPers ≤ fc ∧ fc ≠ 0 then 1
    else if a.desc.stallEn ∧ a.desc.stallPers ≤ sc ∧ sc ≠ 0 then 3
    else if lane then 4
    else if a.state = .homing ∧ s.blocked a a.desc.search then 5
    else 0
  (s1, cause)

/-- The position that the motion of an axis gives at this boundary, its velocity and acceleration, and whether its plan ended. -/
def State.motionAt (s : State) (n : Nat) : Rat × Rat × Rat × Bool :=
  let a := s.axis n
  let p := a.posAt s.tick
  match a.motion with
  | .rest => (p, 0, 0, false)
  | .plan pl k => let (x, v, ac) := pl.at_ (k + 1); (x, v, ac, decide (pl.len ≤ k + 1))
  | .speed pl k => let (_, v, ac) := pl.at_ (k + 1); if a.atLimit then (p, a.vel, a.accl, false) else (p, v, ac, false)
  | .follow => (p, a.vel, 0, false)
  | .group g => (p, a.vel, 0, decide ((s.grp g).plan.len ≤ (s.grp g).k))

/-- The velocity of a FOLLOWING axis for the next period, in units × 2^16 per period (R215, R217). -/
def State.followNext (s : State) (n : Nat) : State × Rat :=
  let a := s.axis n
  let e := s.readPoint a.desc.cmdPt
  let p := a.posAt s.tick
  if isBad e.q then
    let dq := accPer a.desc.qdec
    let (v, lim) := a.softStep p (if absQ a.vel ≤ dq then 0 else if 0 < a.vel then a.vel - dq else a.vel + dq)
    (s.updAxis n fun a => { a with cmdBad := true, vel := v, velCmd := truncQ (v * 50000 / 65536), atLimit := lim }, v)
  else
    let cmd := a.followSpeed (sext 16 e.value.toNat)
    let (v, lim) := a.softStep p (velPer (cmd : Rat))
    (s.updAxis n fun a => { a with cmdBad := false, vel := v, velCmd := cmd, atLimit := lim }, v)

/-- The next straight part of an axis in motion (R211, R215). -/
def State.axisNext (s : State) (n : Nat) : State :=
  let a := s.axis n
  let p := a.posAt s.tick
  match a.motion with
  | .rest => s.setNext n p p
  | .plan pl k => s.setNext n p (pl.at_ (k + 1)).1
  | .speed pl k =>
    let (d, lim) := a.softStep p (pl.stepAt k)
    let s1 := (s.setNext n p (p + d)).updAxis n fun x => { x with atLimit := lim }
    if lim then s1.updAxis n fun x => { x with vel := d, accl := d - a.vel } else s1
  | .follow => let (s1, v) := s.followNext n; s1.setNext n p (p + v)
  | .group g =>
    let gr := s.grp g
    match gr.members.find? (fun m => decide (m.axis = n)) with
    | some m =>
      let x0 := gr.memberAt m gr.k
      let x1 := gr.memberAt m (gr.k + 1)
      (s.setNext n p x1).updAxis n fun a => { a with vel := x1 - x0 }
    | none => s.setNext n p p

/-- Parameters that changed during a motion: it is planned anew from the current position, velocity and acceleration (R214). -/
def State.replanned (s : State) (n : Nat) : State :=
  let a := s.axis n
  let s1 := s.updAxis n fun a => { a with replan := false }
  let p := a.posAt s.tick
  let top := velPer (q a.desc.vmax)
  if !a.replan then s
  else
    match a.motion with
    | .plan pl _ =>
      if a.state = .stopping ∨ a.homeStep = .brake then
        s1.begin_ n (.plan (stopPlan p a.vel a.accl (if a.quick then a.desc.qLimits else a.desc.limits)) 0)
      else
        let l := if a.state = .homing then { a.desc.limits with v := velPer (a.desc.homeV2.natAbs : Rat) } else a.desc.limits
        s1.begin_ n (.plan (targetPlan p a.vel a.accl pl.pEnd l) 0)
    | .speed pl _ =>
      let w := if a.homeStep = .seekSwitch then velPer (a.desc.homeV1 : Rat)
        else if top < pl.vEnd then top else if pl.vEnd < -top then -top else pl.vEnd
      s1.begin_ n (.speed (speedPlan p a.vel a.accl w a.desc.limits) 0)
    | _ => s1

/-- STALL_PT is read at a base-frame boundary for the mean of the period (R226). -/
def State.stallSample (s : State) : State :=
  (s.axesWhere fun a => a.applied && a.desc.stallEn).foldl (fun s n =>
    let x := (sext 16 (s.readPoint (s.axis n).desc.stallPt).value.toNat).natAbs
    s.updAxis n fun a => { a with stallSum := a.stallSum + x, stallN := a.stallN + 1 }) s

/-- One axis at a profile boundary: where it stands, its checks, limits and commands. -/
def State.axisPeriod (s : State) (n : Nat) : State :=
  let (p, v, ac, ended) := s.motionAt n
  let a0 := s.axis n
  let s1 := s.updAxis n fun a =>
    { (a.rebase s.tick p 0) with vel := v, accl := ac, motion := match a.motion with | .plan pl k => .plan pl (k + 1) | .speed pl k => .speed pl (k + 1) | m => m }
  let act := decide (a0.state ≠ .disabled) && decide (a0.state ≠ .fault)
  -- the velocity over the past period enters the checks
  let (s2, cause) := if act then (s.axisChecks n) else (s, 0)
  let s1 := s1.updAxis n fun a => { a with ferrCnt := (s2.axis n).ferrCnt, stallCnt := (s2.axis n).stallCnt, stallSum := 0, stallN := 0 }
  if cause ≠ 0 then s1.axisFault n cause
  else
    let s3 :=
      match a0.state with
      | .moving =>
        if ended && a0.inGroup.isNone then (s1.axisEvt n).rest n 1
        else s1
      | .stopping => if ended && a0.inGroup.isNone then s1.rest n a0.stopCause else s1
      | .homing => s1.homeAdvance n ended
      | _ => s1
    let s3 := s3.replanned n
    let a3 := s3.axis n
    let s4 :=
      if (a3.state = .moving ∨ a3.state = .following ∨ a3.state = .homing) ∧ s3.limitAhead a3 a3.vel then
        let s4 := s3.updAxis n fun a => { a with limit := true }
        match a3.inGroup with
        | some g => s4.grpStop g true none 2
        | none =>
          ((s4.axisTo n .stopping 2).updAxis n fun a => { a with stopCause := 2, quick := true, homeStep := .none }).begin_ n
            (.plan (stopPlan (a3.posAt s.tick) a3.vel a3.accl a3.desc.qLimits) 0)
      else s3
    match (s4.axis n).cmd with
    | some c => s4.axisApply n c
    | none => s4

/-- An accepted GMOVE takes effect, where it still passes (R233). -/
def State.grpApply (s : State) (g : Nat) : State :=
  match (s.grp g).cmd with
  | none => s
  | some tg =>
    let s0 := s.updGrp g fun x => { x with cmd := none }
    if s0.gmoveCheck g tg ≠ 0 then s0
    else
      let ms := s0.grpMembers g tg
      let lead := match leaderOf ms with | some m => m.axis | none => 0
      let s1 := s0.updGrp g fun x => { x with moving := true, members := ms, lead := lead, plan := s0.grpPlan g ms, k := 0, stopping := false, dist := grpDist ms }
      ms.foldl (fun s m =>
        (((s.axisTo m.axis .moving 0).updAxis m.axis fun a => { a with inGroup := some g, holding := false, limit := false, atLimit := false }).setPhase m.axis .full).begin_
          m.axis (.group g)) s1

/-- A moving group at a profile boundary: it advances along its path, and ends with every member at rest (R234). A group whose path has no profile waits for a stop
(log 18). -/
def State.grpPeriod (s : State) (g : Nat) : State :=
  let x := s.grp g
  if !x.moving then s
  else if x.skip then s.updGrp g fun x => { x with skip := false }
  else if !x.stopping && decide (x.plan.segs = []) && decide (x.dist ≠ 0) then s
  else if x.plan.len ≤ x.k + 1 then
    let s1 := x.members.foldl (fun s m =>
      let a := s.axis m.axis
      if a.inGroup = some g then
        let p := (a.posAt s.tick)
        let s1 := s.updAxis m.axis fun a => a.rebase s.tick p 0
        if x.stopping then s1.rest m.axis a.stopCause else (s1.axisEvt m.axis).rest m.axis 1
      else s) s
    let s2 := s1.updGrp g fun x => { x with moving := false, members := [], k := 0, plan := {} }
    let s3 := (s2.updMot fun m => { m with gevt := nput m.gevt g true }).routeEvt .mot 1 g
    s3.record .mot 0 0x0D17 [g, b2n x.stopping]
  else s.updGrp g fun x => { x with k := x.k + 1 }

/-- Checked descriptors apply (R239, R240). -/
def State.applyAxes (s : State) : State :=
  let s1 := (s.axesWhere fun a => a.next.isSome).foldl (fun s n => s.updAxis n fun a =>
    { a with desc := a.next.getD a.desc, applied := true, next := none,
             replan := decide (a.state = .moving) || decide (a.state = .homing) || decide (a.state = .stopping) }) s
  ((s1.mot.grps.filter fun e => e.2.next.isSome).map (·.1)).foldl (fun s g => s.updGrp g fun x =>
    { x with desc := x.next.getD x.desc, next := none }) s1

/-- The groups in use. -/
def State.grpsListed (s : State) : List Nat := s.mot.grps.map (·.1)

/-- Commands that wait for this boundary are dropped: RUN = 0 lets none of them take effect (R236, R238). -/
def State.dropCmds (s : State) : State :=
  let s1 := (s.axesWhere fun a => a.cmd.isSome).foldl (fun s n => s.updAxis n fun a => { a with cmd := none }) s
  ((s1.mot.grps.filter fun e => e.2.cmd.isSome).map (·.1)).foldl (fun s g => s.updGrp g fun x => { x with cmd := none }) s1

/-- PROFILE_PERIOD (R211): descriptors apply, every axis's checks, commands and profile; RUN = 0 disables every axis (R238). -/
def execProfilePeriod (s : State) : Out :=
  .next (
    if (s.hd .mot).pwr ≠ .on then s
    else
      let s1 := (s.updMot fun m => { m with tB := s.tick }).applyAxes
      if !(s1.hd .mot).run then
        let s2 := (s1.axesWhere fun a => decide (a.state ≠ .disabled)).foldl (fun s n => s.axisOff n 5) s1
        let s2 := s2.dropCmds
        s2.updHd .mot fun h => { h with running := false }
      else
        let s2 := s1.grpsListed.foldl (fun s g => s.grpPeriod g) (s1.runFollow .mot)
        let s3 := s2.axesApplied.foldl (fun s n => s.axisPeriod n) s2
        let s4 := s3.grpsListed.foldl (fun s g => s.grpApply g) s3
        s4.axesApplied.foldl (fun s n => s.axisNext n) s4)

/-! ### Reads and clears (R241) -/

/-- ENC_CNT_READ (R241): the low word is returned and the high word latched. -/
def execEncCntRead (n : Fin 16) (s : State) : Out :=
  .next (if !s.present .mot then { s with out := 0xFFFFFFFF }
    else
      let c := ((s.enc n.val).count % 2 ^ 64).toNat
      { (s.updMot fun m => { m with encHi := Tab.put 0 m.encHi n.val (c / 2 ^ 32) }) with out := c % 2 ^ 32 })

/-- MOT_ENC_ERR_CLEAR. -/
def execMotEncErrClear (p : Principal) (m : Word) (s : State) : Out :=
  .next (s.gated .mot 0x2C0 .w1c p m fun s => s.updMot fun x => { x with encErr := (w1c (word x.encErr) m).toNat })

/-- MOT_EVT_CLEAR: MOT_EVT_i for `some i`, MOT_GEVT for `none`. -/
def execMotEvtClear (p : Principal) (i : Option (Fin 4)) (m : Word) (s : State) : Out :=
  .next (match i with
    | some k => s.gated .mot (0x380 + 4 * k.val) .w1c p m fun s => s.updMot fun x => { x with evt := Tab.upd 0 x.evt k.val fun w => w1c w m }
    | none => s.gated .mot 0x390 .w1c p m fun s => s.updMot fun x => { x with gevt := (w1c (word x.gevt) m).toNat })

/-- MOT_LAT_CLEAR: CAPTURED of the axis that MOT_SEL names. -/
def execMotLatClear (p : Principal) (s : State) : Out :=
  .next (s.gated .mot 0x1B8 .w1c p 0x80000000 fun s =>
    s.updAxis (bits (s.reg R.MOT_SEL) 6 0) fun a => { a with latCap := false })

end Sys2Proof.Machine
end

