-- ==== Sys2Proof/Machine/MotCommit.lean ====
section
/-!
DEFINITION. Commits of axis and group descriptors (R235, R239, R240) and of the MOT registers (R241).
-/

namespace Sys2Proof.Machine

/-- Where the editing descriptor of an axis and of a group lies. -/
def axisEdit (n : Nat) : Nat := 0x100C4000 + 128 * n
def grpEdit (g : Nat) : Nat := 0x100C3000 + 32 * g

/-- A signed 64-bit integer of two words, low word first. -/
def sext64 (lo hi : Word) : Int := sext 64 (lo.toNat + 2 ^ 32 * hi.toNat)

/-- A limit point where it is enabled. -/
def limPt (w : Word) : Option Nat := if bit w 31 then some (bits w 18 0) else none

/-- An axis descriptor from its words (Table MOT-8). -/
def parseAxis (w : Nat → Word) : AxisDesc :=
  let a0 := w 0
  let q15 := fun (x : Word) (hi lo : Nat) => sext 16 (bits x hi lo)
  { bind := match bits a0 1 0 with | 0 => .virtual_ | 1 => .local_ | 2 => .lane | _ => .reserved,
    drv := bits a0 5 2, encEn := bit a0 6, enc := bits a0 10 7, mstep := bits a0 15 12, standstill := bits a0 17 16,
    faultShort := bit a0 18, seven := bit a0 19, softLim := bit a0 20, stallEn := bit a0 21, port := bits (w 1) 2 0,
    station := bits (w 1) 9 3, drive := bits (w 1) 13 10, remB := bit (w 1) 14, vmax := (w 2).toNat, acc := (w 3).toNat,
    dec := (w 4).toNat, qdec := (w 5).toNat, jerk := (w 6).toNat, posMin := sext64 (w 7) (w 8), posMax := sext64 (w 9) (w 10),
    ferrMax := (w 11).toNat, encNum := bits (w 12) 15 0, encDen := bits (w 12) 31 16, ferrPers := bits (w 13) 7 0,
    holdDly := bits (w 13) 31 16, uRi := q15 (w 14) 15 0, uHold := q15 (w 14) 31 16, keVmax := q15 (w 15) 15 0,
    dutyMax := q15 (w 15) 31 16, vbusPt := bits (w 16) 18 0, vbusMin := q15 (w 17) 15 0, cmdPt := bits (w 18) 18 0,
    limP := limPt (w 19), limN := limPt (w 20), limPPt := bits (w 19) 18 0, limNPt := bits (w 20) 18 0, stallPt := bits (w 21) 18 0, stallThr := q15 (w 22) 15 0,
    stallPers := bits (w 22) 23 16, stallVmin := (w 23).toNat, latchSrc := bits (w 24) 5 0, edge := bits (w 24) 7 6,
    homeMode := bits (w 24) 10 8, homeV1 := (w 25).toInt, homeV2 := (w 26).toInt, homePos := sext64 (w 27) (w 28) }

/-- The bits of each axis word that Table MOT-8 does not define. -/
def axisRsv : List (Nat × Word) :=
  [(0, 0xFFC00800), (1, 0xFFFF8000), (13, 0x0000FF00), (16, 0xFFF80000), (17, 0xFFFF0000), (18, 0xFFF80000), (19, 0x7FF80000),
   (20, 0x7FF80000), (21, 0xFFF80000), (22, 0xFF000000), (24, 0xFFFFF800), (29, 0xFFFFFFFF), (30, 0xFFFFFFFF), (31, 0x3FFFFFFF)]

/-- BAD_DESC (R235, R239, R500 group 1). ENC_DEN counts only with ENC_EN = 1 (log 60). -/
def axisFormat (d : AxisDesc) (w : Nat → Word) : Bool :=
  axisRsv.all (fun x => decide (w x.1 &&& x.2 = 0)) && decide (d.bind ≠ .reserved) && decide (d.standstill ≠ 3) &&
    decide (d.edge ≠ 3) && decide (d.latchSrc < 40) && decide (0 < d.vmax) && decide (0 < d.acc) && decide (0 < d.dec) &&
    decide (0 < d.qdec) && (!d.seven || decide (0 < d.jerk)) && decide (d.posMin ≤ d.posMax) &&
    (!d.encEn || decide (0 < d.encDen)) && decide (d.mstep ≤ 8) && (decide (d.ferrMax = 0) || decide (0 < d.ferrPers)) &&
    (!d.stallEn || decide (0 < d.stallPers)) &&
    (decide (d.bind ≠ .lane) ||
      (!d.stallEn && ([d.uRi, d.uHold, d.keVmax, d.stallThr].all fun x => decide (x = 0)) &&
        [d.stallPt, d.stallPers, d.stallVmin].all fun x => decide (x = 0)))

/-- The points an axis reads: Q15 points and limit points. CMD_PT index 0 means none (log 60). -/
def AxisDesc.q15Pts (d : AxisDesc) : List Nat :=
  (if d.bind = .local_ then [d.vbusPt] else []) ++ (if d.cmdPt = 0 then [] else [d.cmdPt]) ++ (if d.stallEn then [d.stallPt] else [])
def AxisDesc.limPts (d : AxisDesc) : List Nat := d.limP.toList ++ d.limN.toList

/-- The structural fields of an axis (R239): of a limit the point, not its enable. -/
def AxisDesc.structural (d : AxisDesc) : List Nat :=
  [match d.bind with | .virtual_ => 0 | .local_ => 1 | .lane => 2 | .reserved => 3, d.drv, b2n d.encEn, d.enc, d.mstep, d.port,
   d.station, d.drive, b2n d.remB, d.vbusPt, d.cmdPt, d.limPPt, d.limNPt, d.stallPt]

/-- Whether a drive channel belongs to another axis, by its descriptor in force or by one that waits. -/
def State.drvTaken (s : State) (n drv : Nat) : Bool :=
  s.mot.axes.any fun e => decide (e.1 ≠ n) &&
    ((e.2.applied && decide (e.2.desc.bind = .local_) && decide (e.2.desc.drv = drv)) ||
      (match e.2.next with | some d => decide (d.bind = .local_) && decide (d.drv = drv) | none => false))

/-- The check of an axis descriptor without the admission of its Lane port (R239, R500). -/
def State.axisDescCheck (s : State) (n : Nat) (d : AxisDesc) (w : Nat → Word) : Nat :=
  let a := s.axis n
  if !axisFormat d w then errMotBadDesc
  else if !((d.q15Pts ++ d.limPts).all s.isHot) then errMotNotHot
  else if !(d.q15Pts.all (fun p => decide ((s.dirEntry p).kind = .q15)) && d.limPts.all fun p => decide ((s.dirEntry p).kind = .bit))
    then errMotPointKind
  else if a.state ≠ .disabled ∧ a.desc.structural ≠ d.structural then errAxisActive
  else if d.bind = .local_ ∧ s.drvTaken n d.drv then errDrvInUse
  else if d.bind = .local_ ∧ (List.range 4).any (fun k => s.cscClaims 1 (4 * d.drv + k)) then errMotOutClaimed
  else 0

/-- The words of an editing descriptor, with its commit bits as 0. -/
def State.editWord (s : State) (base last k : Nat) : Word :=
  let w := s.mem32 (base + 4 * k)
  if k = last then clrBit (clrBit w 31) 30 else w

/-- The outcome of an axis commit in MOT_AXIS_STAT, with its record and DESC_DONE. -/
def State.axisDone (s : State) (n e : Nat) : State :=
  let s1 := s.updMot fun m => { m with axisBusy := none, axisResult := e, axisLast := n }
  if e = 0 then (s1.record .mot 0 0x0D14 [n]).irq .mot 8 else ((s1.err .mot e).record .mot 0 0x0D15 [n, errWord .mot e]).irq .mot 8

/-- The outcome of a group commit in MOT_GRP_STAT. -/
def State.grpDone (s : State) (g e : Nat) : State :=
  let s1 := s.updMot fun m => { m with grpBusy := none, grpResult := e, grpLast := g }
  if e = 0 then (s1.record .mot 0 0x0D14 [0x100 + g]).irq .mot 8 else ((s1.err .mot e).record .mot 0 0x0D15 [0x100 + g, errWord .mot e]).irq .mot 8

/-- MOT_AXIS_GO (R239, R40). -/
def execMotAxisGo (p : Principal) (n : Fin 128) (s : State) : Out :=
  .next (s.gated .mot 0x120 .wo p (word n.val) fun s =>
    match s.mot.axisBusy with
    | some _ => s.err .mot errCommitBusy
    | none =>
      let a := axisEdit n.val + 124
      if bit (s.mem32 a) 31 then (s.store32 a (setBit (s.mem32 a) 30)).updMot fun m => { m with axisBusy := some n.val }
      else s.axisDone n.val errCommitRefused)

/-- AXIS_COMMIT_DONE (R239, R235): the check ends; the descriptor waits for the next profile boundary. -/
def execAxisCommitDone (s : State) : Out :=
  .next (
    match s.mot.axisBusy with
    | none => s
    | some n =>
      let w := s.editWord (axisEdit n) 31
      let d := parseAxis w
      let r := s.axisDescCheck n d w
      let s0 := s.clearCommit (axisEdit n + 124)
      if r ≠ 0 then s0.axisDone n r
      else
        let s2 := (s0.setRefs .mot n ((d.q15Pts ++ d.limPts).map fun p => (p, false))).updAxis n fun a => { a with next := some d }
        let (c, _, s1) := if d.bind = .lane then s2.readmit s2.remoteTgts s2.armSlots else (0, 0, s2)
        if c ≠ 0 then s0.axisDone n errAdmitLane else s1.axisDone n 0)

/-- A group descriptor from its words (Table MOT-9). -/
def parseGrp (w : Nat → Word) : GrpDesc :=
  let b := fun (k : Nat) => bits (w (k / 4)) (8 * (k % 4) + 7) (8 * (k % 4))
  { members := ((List.range 8).filter fun k => nbit (b k) 7).map fun k => (k, b k % 128), v := (w 2).toNat, acc := (w 3).toNat,
    dec := (w 4).toNat, jerk := (w 5).toNat, seven := bit (w 6) 0 }

/-- The check of a group descriptor (R240, R500). -/
def State.grpDescCheck (s : State) (g : Nat) (d : GrpDesc) (w : Nat → Word) : Nat :=
  let ax := d.members.map (·.2)
  if w 6 &&& 0xFFFFFFFE ≠ 0 ∨ w 7 &&& 0x3FFFFFFF ≠ 0 ∨ ax = [] ∨ ax.eraseDups.length ≠ ax.length then errMotBadDesc
  else if (s.grp g).moving then errGrpBusy else 0

/-- MOT_GRP_GO (R240, R40). -/
def execMotGrpGo (p : Principal) (g : Fin 16) (s : State) : Out :=
  .next (s.gated .mot 0x128 .wo p (word g.val) fun s =>
    match s.mot.grpBusy with
    | some _ => s.err .mot errCommitBusy
    | none =>
      let a := grpEdit g.val + 28
      if bit (s.mem32 a) 31 then (s.store32 a (setBit (s.mem32 a) 30)).updMot fun m => { m with grpBusy := some g.val }
      else s.grpDone g.val errCommitRefused)

/-- GRP_COMMIT_DONE (R240). -/
def execGrpCommitDone (s : State) : Out :=
  .next (
    match s.mot.grpBusy with
    | none => s
    | some g =>
      let w := s.editWord (grpEdit g) 7
      let d := parseGrp w
      let r := s.grpDescCheck g d w
      let s0 := s.clearCommit (grpEdit g + 28)
      if r ≠ 0 then s0.grpDone g r else (s0.updGrp g fun x => { x with next := some d }).grpDone g 0)

/-- The check of a commit of MOT's registers (R241): an encoder in use keeps EN and INV. -/
def State.motCommitCheck (s : State) : Nat :=
  if (List.range 16).any fun n =>
      decide (bits (s.regAt R.MOT_ENC_CFG (4 * n)) 1 0 ≠ bits (s.shRegAt R.MOT_ENC_CFG (4 * n)) 1 0) &&
        decide ((s.axesWhere fun a => a.applied && decide (a.state ≠ .disabled) && a.desc.encEn && decide (a.desc.enc = n)) ≠ [])
  then errEncInUse else 0

end Sys2Proof.Machine
end

