-- ==== Sys2Proof/Machine/Fio.lean ====
section
/-!
DEFINITION. The field die: its link and silence (R289–R293), universal channels (R294–R299), field supplies (R300–R302), analog inputs
and outputs (R303–R306) and test modes (R307).
-/

namespace Sys2Proof.Machine

/-- AO_DEFERRED_UPDATE (R306): a command that arrived too soon is applied 1 µs after the previous update. -/
def execAoDeferredUpdate (k : Fin 4) (t : Nat) (s : State) : Out :=
  .next (s.updFio fun x => { x with ao := Tab.upd {} x.ao k.val fun o =>
    match o.wait with
    | some c => { code := c, at_ := t, wait := none }
    | none => o })

/-! ### Groups -/

/-- A record of a group, with GRP_EVT. -/
def State.grpEvt (s : State) (code : Nat) (ps : List Nat) : State := (s.record .fio 0 code ps).irq .fio 8

/-- A group enters UV (Table FIO-1): outputs off, FS_UV with the mask of the outputs turned off, ALARM. -/
def State.uvEnter (s : State) (g : Nat) : State :=
  let x := s.fio
  if (x.group g).st = .uv then s
  else
    let off := mask32 fun k => decide (k / 16 = g) && nbit x.driven k
    let s1 := (s.updGroup g fun r =>
      { r with st := .uv, fromOff := decide (r.st = .grpOff), quiet := x.silent, enPend := false }).fioDrive
    (s1.grpEvt 0x1011 [g, off]).raise .fio 0 0x1011 .alarm

/-- A group leaves UV (Table FIO-1): OK where it was entered from OK or WAIT_EN, no silence occurred since and every OUTPUT channel has
AUTO_RESTORE; else WAIT_EN. -/
def State.uvLeave (s : State) (g : Nat) : State :=
  let x := s.fio
  let r := x.group g
  if r.st ≠ .uv ∨ r.uvTest then s
  else
    let auto := !r.fromOff && !r.quiet
    let all := (groupChans g).all fun k => !x.isOut k || x.autoRestore k
    let s1 := (s.updGroup g fun r =>
      if auto && all then { r with st := .ok }
      else { r with st := .waitEn, wait := if r.quiet then .silence else if r.fromOff then .uvOff else .uvAuto }).fioDrive
    s1.grpEvt 0x1012 [g, mask32 fun k => decide (k / 16 = g) && nbit s1.fio.driven k]

/-- FS_GROUP_WARN (R300): a group supply, in units of 10 mV, was below 19.2 V for 100 µs. -/
def execFsGroupWarn (g : Fin 2) (supply : Nat) (s : State) : Out :=
  .next (
    if (s.fio.group g.val).warn then s
    else (s.updGroup g.val fun r => { r with warn := true, supply := supply % 65536 }).grpEvt 0x1010 [g.val, supply % 65536])

/-- FS_GROUP_WARN_CLEAR (R300): WARN clears after 10 ms above 20 V. -/
def execFsGroupWarnClear (g : Fin 2) (s : State) : Out := .next (s.updGroup g.val fun r => { r with warn := false })

/-- FS_GROUP_UV (R300, Table FIO-1): the supply was below 16 V for more than 1 ms. -/
def execFsGroupUv (g : Fin 2) (s : State) : Out := .next (s.uvEnter g.val)

/-- FS_GROUP_RECOVERY (R300, Table FIO-1): the supply was above 18 V for 10 ms. -/
def execFsGroupRecovery (g : Fin 2) (s : State) : Out := .next (s.uvLeave g.val)

/-- GROUP_OVERCURRENT (R296, Table FIO-1): the sum of a group's currents, in mA, was above 4.0 A for 5 ms. -/
def execGroupOvercurrent (g : Fin 2) (current : Nat) (s : State) : Out :=
  .next (
    if (s.fio.group g.val).st ≠ .ok then s
    else
      let s1 := (s.updGroup g.val fun r => { r with st := .grpOff, enPend := false }).fioDrive
      (s1.grpEvt 0x1016 [g.val, current]).raise .fio 0 0x1016 .alarm)

/-- FIO_GRP_ENABLE (R300, R293): an ENABLE is accepted in WAIT_EN, and in GRP_OFF with a supply of 18 V or more, while CFG_SYNC = 1, and takes
effect at the next frame; otherwise GRP_STATE. In OK it is refused as well (the table has no row for it, log 68). -/
def execFioGrpEnable (p : Principal) (g : Fin 2) (s : State) : Out :=
  .next (s.gated .fio 0x11C .wo p (word (0x100 + g.val)) fun s =>
    let r := s.fio.group g.val
    if s.fio.cfgSync && (decide (r.st = .waitEn) || (decide (r.st = .grpOff) && decide (1800 ≤ r.supply))) then
      s.updGroup g.val fun r => { r with enPend := true }
    else s.err .fio errGrpState)

/-- An accepted ENABLE takes effect with the frame that carries it; from GRP_OFF it writes no GRP_ENABLED (Table FIO-1). -/
def State.grpEnables (s : State) : State :=
  (List.range 2).foldl (fun s g =>
    let r := s.fio.group g
    if r.enPend then
      let s1 := s.updGroup g fun r => { r with enPend := false }
      let s2 := s1.updGroup g fun r => { r with st := .ok }
      if r.st = .waitEn then s2.grpEvt 0x1013 [g] else if r.st = .grpOff then s2.irq .fio 8 else s1
    else s) s

/-! ### The link -/

/-- The quality of a group's inputs (R295, R301). -/
def State.fioInQ (s : State) (k : Nat) : Byte := if (s.fio.group (k / 16)).st = .uv then qSupply else qValid

/-- Write the points bound to INPUT channels that satisfy a test (R290, R295), with the axes that follow them. -/
def State.writeInputs (s : State) (which : Nat → Bool) (t : Nat) : State :=
  (List.range 32).foldl (fun s k =>
    if s.fio.isIn k && which k then
      match s.boundTo .fioCh k with
      | some i => if (s.point i).output then s else (s.pointWrite i (word (b2n (nbit s.fio.level k))) (s.fioInQ k) t).followPoint i (t * 2 / 5)
      | none => s
    else s) s

/-- Write the SAF points (Table PTD-3): pairs 0–3 as the hard-wired channel sees them, outputs 4–7. -/
def State.writeSaf (s : State) (t : Nat) : State :=
  (List.range 8).foldl (fun s k =>
    let good : Bool := if k < 4 then !s.saf.demand 0 k else s.saf.energized (k - 4)
    s.writeBound .saf k (word (b2n (good != Config.safPolarity k))) qValid t) s

/-- The field die takes a frame from the core die (R289, R298): RUN, the commands, an ENABLE. -/
def State.fioDown (s : State) (t : Nat) : State :=
  let run := (s.hd .fio).run
  let s1 := s.updFio fun x =>
    if !run && !x.runOff then { x with runOff := true, runHoldOver := false, runHold := x.cmd }
    else if run then { x with runOff := false, cmd := mask32 (s.fioCommand (t * 2 / 5)) }
    else x
  (s1.grpEnables.fioDrive).aoCommands (t * 2 / 5)

/-- A silence that ends without a retraining: its length is a free value (log 104). -/
def State.unsilence (s : State) : State :=
  let (n, s1) := s.draw
  (s1.silenceEnd (Config.freeWord n).toNat).irq .fio 11

/-- FIO_REFRESH_FRAME (R289, R290): the frames of one 1 µs period. `down` and `up` say which arrived with a good CRC, and `down` also which of the
class A words toward the field die before the next frame fail theirs; the other operands are what the frame toward the core die carries,
and `t` the instant at which it latched its inputs. A good frame that reaches a silent field die ends the silence, whose length is a free
value here (log 104). -/
def execFioRefreshFrame (down : DownFrame) (up : Bool) (supplyA supplyB currentA currentB : Nat) (rb : Word) (t : Nat) (s : State) : Out :=
  .next (
    if !s.fio.linkUp then s
    else
      let bad := b2n (!down.ok) + b2n (!up)
      let s0 := (s.runFollow .fio).updFio fun x => { x with linkErr := (x.linkErr + bad) % 2 ^ 32, badWords := down.badWords }
      let s1 := if !down.ok then s0 else if s0.fio.silent then s0.unsilence.fioDown t else s0.fioDown t
      if !up then s1
      else
        let s2 := s1.updFio fun x => { x with rb := rb.toNat }
        let s3 := s2.updGroup 0 fun r => { r with supply := supplyA % 65536, current := currentA % 65536 }
        let s4 := s3.updGroup 1 fun r => { r with supply := supplyB % 65536, current := currentB % 65536 }
        ((s4.writeInputs (fun _ => true) t).writeSaf t).setFrameT 0 0 t)

/-- LINK_SILENCE (R291): no frame with a good CRC arrived for SIL_TMO. -/
def execLinkSilence (s : State) : Out := .next s.fioSilence

/-- SAFE_HOLD_TIMEOUT (R291, R298): HOLD_TMO has elapsed since the silence began, or since the first frame with RUN = 0 (`run`). -/
def execSafeHoldTimeout (run : Bool) (s : State) : Out :=
  .next (
    let s1 := s.updFio fun x =>
      if run then (if x.runOff then (if x.silent then { x with runHoldOver := true } else { x with runHoldOver := true }.aoSafeAll true) else x)
      else (if x.silent then { x with holdOver := true }.aoSafeAll true else { x with holdOver := true })
    s1.fioDrive)

/-- LINK_DOWN_DETECT (R292): no good frame for 10 µs. `lost` is the number of frames discarded or missed. A retrained link needs a new commit
for CFG_SYNC (R293, DEDUCED). -/
def execLinkDownDetect (lost : Nat) (s : State) : Out :=
  .next (
    if !s.fio.linkUp then s
    else
      let s1 := s.updFio fun x => { x with linkUp := false, cfgSync := false, aiT := none }
      let s2 := (s1.pointsWhere fun e => (decide (e.srcType = .fioCh) && !e.output) || decide (e.srcType = .fioAi) || decide (e.srcType = .saf)).foldl
        (fun s i => s.markPoint i markCommLost) s1
      (((s2.record .fio 0 0x1018 [lost]).err .fio errLinkDown).irq .fio 11).raise .fio 0 0x1018 .fault)

/-- LINK_RETRAIN_DONE (R292): the link returns. `silence` is the length of the silence in ms, where SIL_TMO had expired. -/
def execLinkRetrainDone (silence : Nat) (s : State) : Out :=
  .next (
    if s.fio.linkUp ∨ (s.hd .fio).pwr ≠ .on then s
    else
      let s1 := ((s.updFio fun x => { x with linkUp := true }).record .fio 0 0x1019 []).irq .fio 11
      if s1.fio.silent then s1.silenceEnd silence else s1)

/-- SILENCED_CLEAR (R308). -/
def execSilencedClear (p : Principal) (s : State) : Out :=
  .next (s.gated .fio 0x100 .w1c p 0x2 fun s => s.updFio fun x => { x with silenced := false })

/-! ### Channels -/

/-- Whether a channel's point is of class A, so that its filter expiries send class A words (R290). -/
def State.sendsWord (s : State) (k : Nat) : Bool :=
  match s.boundTo .fioCh k with
  | some i => decide ((s.point i).cls = .a)
  | none => false

/-- FIO_INPUT_FILTER_EXPIRY (R294, R290, R230): a level change of an INPUT channel has held for its filter time, at tick `t`. A class A point
is written alone, and the change is a latch edge. A word that fails its CRC is discarded and counted; the next frame carries the level
(R289). -/
def execFioInputFilterExpiry (k : Fin 32) (level : LevelWord) (t : Nat) (s : State) : Out :=
  .next (
    if !s.fio.isIn k.val ∨ nbit s.fio.level k.val = level.high then s
    else
      let s1 := s.updFio fun x => { x with level := nput x.level k.val level.high }
      if !s1.fio.linkUp then s1
      else
        let s2 := s1.latchEvent (8 + k.val) level.high t
        if !s2.sendsWord k.val then s2
        else if level.ok then s2.writeInputs (fun j => decide (j = k.val)) (t * 5 / 2)
        else s2.updFio fun x => { x with linkErr := wrapInc x.linkErr })

/-- CHANNEL_OVERCURRENT (R296): a channel at its current limit for 100 µs, or at its thermal limit, turns off and latches OC. -/
def execChannelOvercurrent (k : Fin 32) (s : State) : Out :=
  .next (
    if !nbit s.fio.driven k.val then s
    else
      let s1 := (s.updFio fun x => { x with oc := nput x.oc k.val true }).fioDrive
      (s1.record .fio 0 0x1015 [k.val]).irq .fio 10)

/-- READBACK_MISMATCH (R299, R307): the readback of an output disagreed with its driven state, or agreed under TEST_MM, for 500 µs outside
a blanking interval. -/
def execReadbackMismatch (k : Fin 32) (readback : Bool) (s : State) : Out :=
  .next (
    let x := s.fio
    let driven := nbit x.driven k.val
    let differs := (readback != driven) != bit (x.chCfg k.val) 6
    if !x.isOut k.val || x.forcedOff k.val || nbit x.mm k.val || !differs then s
    else
      let s1 := s.updFio fun x =>
        { x with mm := nput x.mm k.val true, mmOff := if bit (x.chCfg k.val) 5 then nput x.mmOff k.val true else x.mmOff }
      ((s1.fioDrive.record .fio 0 0x1014 [k.val, b2n driven, b2n readback]).irq .fio 9).raise .fio 0 0x1014 .warn)

/-- FIO_MM_CLEAR (R299): mismatch flags clear, and drivers held off by MM_OFF are enabled again. -/
def execFioMmClear (p : Principal) (m : Word) (s : State) : Out :=
  .next (s.gated .fio 0x138 .w1c p m fun s =>
    (s.updFio fun x => { x with mm := (w1c (word x.mm) m).toNat, mmOff := (w1c (word x.mmOff) m).toNat }).fioDrive)

/-- FIO_OC_CLEAR (R296): the channels follow their commands again. -/
def execFioOcClear (p : Principal) (m : Word) (s : State) : Out :=
  .next (s.gated .fio 0x13C .w1c p m fun s => (s.updFio fun x => { x with oc := (w1c (word x.oc) m).toNat }).fioDrive)

/-! ### Analog inputs -/

/-- The conversion formula of R304: raw codes × `den`, from nV or pA. -/
def aiDen (mA : Bool) : Int := if mA then 25000000000 else 10000000000

/-- Round to nearest; a value exactly midway between two codes converts in a direction that the spec leaves open: `up` is a free value. -/
def roundMid (num den : Int) (up : Bool) : Int :=
  let f := num / den
  let r := 2 * (num - f * den)
  if r < den then f else if den < r then f + 1 else if up then f + 1 else f

/-- Whether the input stage clips a reading: beyond ±10.5 V, above 25 mA or below −1 mA (R304). -/
def aiClips (mA : Bool) (v : Int) : Bool :=
  if mA then decide (25000000000 < v) || decide (v < -1000000000) else decide (10500000000 < v) || decide (v < -10500000000)

/-- One input of a sample (R303–R305). -/
def State.aiOne (s : State) (k : Nat) (v : Int) (low : Bool) : State :=
  let mA := bit (s.fio.aiCfg k) 0
  let toomuch := mA && decide (30000000000 < v)
  let (n, s1) := s.draw
  let raw := sat16 (roundMid (v * 32768) (aiDen mA) (bit (Config.freeWord n) 0))
  s1.updFio fun x => { x with ai := Tab.upd {} x.ai k fun a =>
    let off := a.off || toomuch
    { raw := raw, off := off,
      q := if low then qSupply else if x.calBusy || off || aiClips mA v then 0 else qValid } }

/-- AI_SAMPLE (R303): the eight inputs are sampled at tick `t` of the grid, t mod 200 = AI_PHASE. `readings` are in nV, or in pA for a 0–25 mA
input; `low` says that VDD_FA is below 4.5 V. -/
def execAiSample (readings : List Int) (low : Bool) (t : Nat) (s : State) : Out :=
  .next (
    if (s.hd .fio).pwr ≠ .on ∨ t % 200 ≠ bits (s.reg R.FIO_AI_PHASE) 7 0 then s
    else
      let s1 := (List.range 8).foldl (fun s k => s.aiOne k (nth 0 readings k) low) s
      s1.updFio fun x => { x with aiT := some (t * 5 / 2) })

/-- AI_CONVERSION_END (R303): every conversion writes all points bound to FIO_AI as one module frame with the sample instant as its time; ACQ
takes the codes as well (R365). -/
def execAiConversionEnd (s : State) : Out :=
  .next (
    match s.fio.aiT with
    | none => s
    | some t =>
      let s1 := s.updFio fun x => { x with aiT := none }
      if !s.fio.linkUp then s1
      else
        let s2 := (List.range 8).foldl (fun s k =>
          let a := Tab.get {} s.fio.ai k
          match s.boundTo .fioAi k with
          | some i => (s.pointWrite i (wordI a.raw) a.q t).followPoint i ((t + 320) * 2 / 5)
          | none => s) s1
        let s3 := s2.setFrameT 0 0 t
        if (s3.hd .acq).pwr = .on then
          s3.acqAdc ((List.range 8).map fun k => ((Tab.get {} s3.fio.ai k).raw, (Tab.get {} s3.fio.ai k).q)) t
        else s3)

/-- AI_BURDEN_RECONNECT (R304): 100 ms after the disconnect. -/
def execAiBurdenReconnect (k : Fin 8) (s : State) : Out :=
  .next (s.updFio fun x => { x with ai := Tab.upd {} x.ai k.val fun a => { a with off := false } })

/-- Whether an analog input is in use (R305): by a loop that is not OFF, or by an armed session. -/
def State.aiInUse (s : State) : Bool :=
  (s.ce.desc.any fun e => decide ((Tab.get {} s.ce.view e.1).mode ≠ .off) && decide ((s.point e.2.inPt).srcType = .fioAi)) ||
    s.acq.armReq || (decide (s.acq.state ≠ .idle) && decide (s.acq.state ≠ .done) && decide (s.acq.state ≠ .stopped))

/-- AI_CAL_GO (R305): skew calibration starts, or is refused with AI_IN_USE. A GO during a calibration has no effect (log 68). -/
def execAiCalGo (p : Principal) (s : State) : Out :=
  .next (s.gated .fio 0x150 .w1s p 0x1 fun s =>
    if s.fio.calBusy then s
    else if s.aiInUse then (s.updFio fun x => { x with calResult := errAiInUse }).err .fio errAiInUse
    else s.updFio fun x => { x with calBusy := true })

/-- AI_CAL_DONE (R305): each channel's delay, measured to 10 ps, less the mean of the eight, is stored in ps. Where the mean is no whole
number of ps the last place is a free value. -/
def execAiCalDone (delays : List Nat) (s : State) : Out :=
  .next (
    if !s.fio.calBusy then s
    else
      let ds := (List.range 8).map fun k => (nth 0 delays k) / 10 * 10
      let sum := ds.sum
      let (n, s0) := s.draw
      let up : Int := if sum % 8 ≠ 0 ∧ bit (Config.freeWord n) 0 then 1 else 0
      let s1 := s0.updFio fun x =>
        { x with calBusy := false, calResult := 0,
                 aiSkew := (List.range 8).foldl (fun t k => Tab.put 0 t k ((8 * ((nth 0 ds k : Nat) : Int) - (sum : Int)) / 8 + up)) x.aiSkew }
      s1.record .fio 0 0x101A [0])

/-! ### Test modes and the commit -/

/-- Whether the test modes are accepted (R307). -/
def State.testOpen (s : State) : Bool := decide (s.sys.sysrec.lifecycle = 1) || s.debugOpen

/-- FIO_TEST_UV (R307): a write of FIO_TEST, bits UV_A and UV_B. -/
def execFioTestUv (p : Principal) (v : BitVec 2) (s : State) : Out :=
  .next (s.gated .fio 0x124 .rw p (word v.toNat) fun s =>
    if !s.testOpen then s.err .fio errTestLocked
    else
      (List.range 2).foldl (fun s g =>
        let on := v.getLsbD g
        if (s.fio.group g).uvTest = on then s
        else
          let s1 := (s.updGroup g fun r => { r with uvTest := on }).testRecord g on
          if on then s1.uvEnter g else s1) (s.setReg R.FIO_TEST (word v.toNat)))

/-- Whether a channel is referenced by a PTD entry, or claimed by CSC or MOT. -/
def State.chInUse (s : State) (k : Nat) : Bool :=
  (s.ptd.dir.any fun e => decide (e.2.srcType = .fioCh) && decide (e.2.srcRef = k) && decide (e.2.kind ≠ .none)) ||
    s.cscClaims 2 k || (s.axesWhere fun a => decide (a.desc.latchSrc = 8 + k)) ≠ []

/-- The check of a FIO commit: reserved codes, CH_IN_USE, TEST_LOCKED for a new TEST_MM (R307). -/
def State.fioCommitCheck (s : State) : Nat :=
  let sh := fun k => s.shRegAt R.FIO_CH_CFG (4 * k)
  let old := fun k => s.regAt R.FIO_CH_CFG (4 * k)
  if (List.range 32).any (fun k => decide (bits (sh k) 1 0 = 3) || decide (bits (sh k) 3 2 = 3)) ||
      (List.range 4).any (fun k => decide (bits (s.shRegAt R.FIO_AO_CFG (4 * k)) 3 2 = 3)) then errCommitRefused
  else if (List.range 32).any (fun k => decide (bits (sh k) 1 0 ≠ bits (old k) 1 0) && s.chInUse k) then errChInUse
  else if !s.testOpen && (List.range 32).any (fun k => bit (sh k) 6 && !bit (old k) 6) then errTestLocked
  else 0

/-- What a FIO commit does besides copying the shadows (R293, R307): the field die's configuration is replaced in full, CFG_SYNC is set and each
change of TEST_MM is recorded. -/
def State.fioCommitApply (s : State) (old : Nat → Word) : State :=
  let s1 := (List.range 32).foldl (fun s k =>
    let on := bit (s.regAt R.FIO_CH_CFG (4 * k)) 6
    if bit (old k) 6 = on then s else s.testRecord k on) s
  if !s1.fio.linkUp then s1
  else
    let put := fun (t : Tab Word) (r : RegId) (n : Nat) =>
      (List.range n).foldl (fun t k => Tab.put 0 t (r.off + 4 * k) (s1.regAt r (4 * k))) t
    (s1.updFio fun x =>
      { x with cfg := put (put (put [] R.FIO_CH_CFG 32) R.FIO_AI_CFG 8) R.FIO_AO_CFG 4, cfgSync := true }).fioDrive

/-- VDD_FD power-up (R300): every group in WAIT_EN with its outputs off, CFG_SYNC = 0. -/
def State.fioPowerUp (s : State) : State := { s with fio := {} }

/-- Whether FIO refuses STANDBY and HIBERNATE: an output is on or an analog output code is not zero. -/
def State.fioBusy (s : State) : Bool :=
  decide (s.fio.driven ≠ 0) || (List.range 4).any fun k => decide ((Tab.get {} s.fio.ao k).code ≠ 0)

end Sys2Proof.Machine
end

