-- ==== Sys2Proof/Machine/Hrc.lean ====
section
/-!
DEFINITION. The history recorder's commands (R381–R388): tokens and intervals, blocks, streaming to the gateway and to the host.
-/

namespace Sys2Proof.Machine

def errHistRate : Nat := 0x30
def errHistFabric : Nat := 0x31
def errBadRing : Nat := 0x32
def errBlockFail : Nat := 0x33

/-- OC_TOKEN (R381): an ON_CHANGE point gains a token, which a held change uses at once. -/
def execOcToken (idx : Fin 524288) (s : State) : Out :=
  .next (
    let e := s.point idx.val
    if !s.hrcOn ∨ e.kind = .none ∨ histModeOf e ≠ 1 then s
    else
      let h := s.hpt idx.val
      match h.held with
      | some (v, q, t) =>
        ((s.updHpt idx.val fun h => { h with held := none, heldN := 0 }).updHrc fun x => { x with collapsed := wrapInc x.collapsed }).hrcRecord
          (changeRec (s.gid idx.val) v q t 1 h.heldN)
      | none => s.updHpt idx.val fun h => { h with used := h.used - 1 })

/-- HIST_INT of an entry in ns. -/
def histNs (e : DirEntry) : Nat := max 1 e.histInt * 1000000

/-- HRC_REDUCE_INTERVAL (R382): the interval ends where network time has reached the boundary after its start; after a backward step it
continues until then. -/
def execHrcReduceInterval (idx : Fin 524288) (s : State) : Out :=
  .next (
    let e := s.point idx.val
    if !s.hrcOn ∨ e.kind = .none ∨ histModeOf e ≠ 2 then s
    else
      let n := histNs e
      let b := s.now - s.now % n
      if (s.hpt idx.val).start < b then s.reduceEnd idx.val e b else s)

/-- HRC_BLOCK_AGE (R385). -/
def execHrcBlockAge (s : State) : Out := .next (if s.hrcOn then s.hrcClose else s)

/-- HRC_FLUSH (R385). -/
def execHrcFlush (p : Principal) (s : State) : Out := .next (s.gated .hrc 0x148 .w1s p 1 fun s => s.hrcClose)

/-! ### Streaming (R386) -/

/-- The oldest block that is neither sent nor being sent. -/
def Hrc.next (h : Hrc) : Option HrcBlock := h.unsent.find? fun b => !b.sending

/-- The GAP record of a block that carries gap fields. -/
def State.gapRecord (s : State) (b : HrcBlock) : State :=
  if b.gapBlocks = 0 then s else s.record .hrc 0 0x1412 [b.gapBlocks, b.gapRecs, b.gapFirst % 2 ^ 32, b.seq]

/-- An uncorrectable error in a block that is read for sending: it counts as overwritten (R387). -/
def State.blockFail (s : State) (b : HrcBlock) : State := ((s.hrcLose b).record .hrc 0 0x1415 [b.seq]).err .hrc errBlockFail

/-- The bytes of a closed block in the ring. -/
def State.blockBytes_ (s : State) (b : HrcBlock) : List Byte := s.load (s.hrcRing + 4096 * b.slot) 4096

/-- HRC_BLOCK_SEND (R384, R386): toward the gateway against a credit as four REC frames; on the active gateway the block waits for its host
buffer. `ue` is an uncorrectable error in the block. -/
def execHrcBlockSend (ue : Bool) (s : State) : Out :=
  .next (
    match s.hrc.next with
    | none => s
    | some b =>
      if s.hrc.noGrant then s
      else if ue then s.blockFail b
      else
        let mark := fun (st : State) => st.updHrc fun h =>
          { h with streaming := true, unsent := h.unsent.map fun x => if x.seq = b.seq then { x with sending := true } else x }
        if s.ave.role = .active then mark s
        else if s.hrc.credits = 0 ∨ (s.nextPort 0).isNone then s
        else
          let bs := s.blockBytes_ b
          let s1 := (List.range 4).foldl (fun st k => st.aveTo 0 (.hist b.seq k s.ave.devId ((bs.drop (1024 * k)).take 1024))) s
          (mark s1).updHrc fun h => { h with credits := h.credits - 1 })

/-- A block of this device counts as sent: its GAP record is written where it carries gap fields. -/
def State.blockSent (s : State) (seq : Nat) : State :=
  let s1 := match s.hrc.unsent.find? fun b => decide (b.seq = seq) with
    | some b => s.gapRecord b
    | none => s
  s1.updHrc fun h =>
    let l := h.unsent.filter fun b => decide (b.seq ≠ seq)
    { h with unsent := l, streaming := l.any HrcBlock.sending, stalled := h.stalled && decide (s.hrcSlots < 2 * l.length) }

/-- A credit returns (R386). -/
def State.creditRx (s : State) (seq : Nat) : State := (s.blockSent seq).updHrc fun h => { h with credits := h.credits + 1 }

/-- A REC fragment at the active gateway (R386). -/
def State.histRx (s : State) (seq frag dev : Nat) (bytes : List Byte) : State :=
  if s.ave.role ≠ .active then s
  else
    let put := fun (g : HrcGw) =>
      { g with frags := nput g.frags frag true, bytes := g.bytes.take (1024 * frag) ++ (bytes ++ List.replicate 1024 0).take 1024 ++ g.bytes.drop (1024 * frag + 1024) }
    if s.hrc.gw.any fun g => decide (g.dev = dev) && decide (g.seq = seq) then
      s.updHrc fun h => { h with gw := h.gw.map fun g => if g.dev = dev ∧ g.seq = seq then put g else g }
    else s.updHrc fun h => { h with gw := h.gw ++ [put { dev := dev, seq := seq, bytes := List.replicate 4096 0 }] }

/-- The block that a DMA completion delivers: one of this device in transmission, or one received whole. -/
def State.dmaBlock (s : State) (dev seq : Nat) : Option (List Byte) :=
  if s.ave.owns dev then (s.hrc.unsent.find? fun b => b.sending && decide (b.seq = seq)).map s.blockBytes_
  else (s.hrc.gw.find? fun g => decide (g.dev = dev) && decide (g.seq = seq) && decide (g.frags = 15)).map HrcGw.bytes

/-- HRC_DMA_DONE (R386, R426): on the active gateway the block `seq` of `dev` is written to the host buffer of descriptor `d`, and its credit
returns. -/
def execHrcDmaDone (dev : Fin 64) (seq : Nat) (d : HDesc) (hostErr : Bool) (s : State) : Out :=
  .next (
    let w := s.reg R.HRC_HOST_CFG
    let n := bits w 2 0
    if s.ave.role ≠ .active ∨ !bit w 8 ∨ !s.ringBusy n ∨ !bit (s.ringCfg n) 17 then s
    else
      match s.dmaBlock dev.val seq with
      | none => s
      | some bs =>
        if hostErr then s.ringHostErr n
        else if bits d.d4 23 0 ≠ 4096 ∨ d.hostAddr % 4096 ≠ 0 ∨ bits d.d5 15 2 ≠ 0 ∨ d.d7 ≠ 0 then
          ((s.writeBack n errHifDesc (seq % 65536)).descIrq n d).ringHalt n errHifDesc
        else
          let s1 := (((s.hostWrite d.hostAddr bs).writeBack n 0 (seq % 65536)).descNext n d)
          if s.ave.owns dev.val then s1.blockSent seq
          else (s1.updHrc fun h => { h with gw := h.gw.filter fun g => !(decide (g.dev = dev.val) && decide (g.seq = seq)) }).aveTo dev.val
            (.grant (.credit seq)))

/-! ### Admission (R384) -/

/-- A sum of records per second as a fraction. -/
def rateAdd (x : Nat × Nat) (e : DirEntry) : Nat × Nat :=
  if e.kind = .none ∨ histModeOf e = 0 then x else (x.1 * max 1 e.histInt + 1000 * x.2, x.2 * max 1 e.histInt)

/-- R of a directory as a fraction, and rounded up. -/
def histRate (l : List DirEntry) : Nat × Nat := l.foldl rateAdd (0, 1)
def rateUp (x : Nat × Nat) : Nat := (x.1 + x.2 - 1) / x.2

/-- Whether HRC admits a rate: at most 16,000,000 records per second. -/
def rateOk (x : Nat × Nat) : Bool := decide (x.1 ≤ 16000000 * x.2)

/-- G in MB/s of a rate and HRC_RESERVE. -/
def grantOf (x : Nat × Nat) (reserve : Nat) : Nat := max ((x.1 * 32 + x.2 * 1000000 - 1) / (x.2 * 1000000)) reserve

/-- HRC_RESERVE. -/
def State.hrcReserve (s : State) : Nat := bits (s.reg R.HRC_RESERVE) 9 0

/-- A new rate and grant take effect: GRANT is recorded where G changes (Table HRC-7). A device in the fabric releases a lowered grant
(R341). -/
def State.hrcGranted (s : State) (x : Nat × Nat) (g : Nat) : State :=
  let old := s.hrc.grant
  let s1 := (s.updHrc fun h => { h with rate := rateUp x % 2 ^ 25, grant := g }).updAve fun a => { a with recOwn := if a.assigned then g else a.recOwn }
  let s2 := if old = g then s1 else s1.record .hrc 0 0x1410 [old, g, rateUp x]
  if g < old ∧ s.ave.assigned then
    (if s.ave.role = .active then (s2.recGrant s.ave.devId g).1 else s2.aveTo 0 (.grant (.recReq s.ave.devId g)))
  else s2

/-- The recorder after a full device reset or a power-up of PD_REC (R387): the ring is empty, SEQ 0, every point's history starts anew. -/
def State.hrcRestart (s : State) : State :=
  let s1 := s.updHrc fun h => { ({} : Hrc) with rate := h.rate, grant := h.grant, noGrant := h.noGrant }
  let s2 := (s1.pointsWhere fun e => decide (histModeOf e ≠ 0) && decide (e.kind ≠ .none)).foldl (fun s i =>
    s.hrcStart i (s.entry i).value (s.entry i).q) s1
  s2.record .hrc 0 0x1414 [bits (s.reg R.HRC_RING_SIZE) 13 0]

end Sys2Proof.Machine
end

