-- ==== Sys2Proof/Machine/IlpLoad.lean ====
section
/-!
DEFINITION. Loading a Prosa image into the interlock logic processor (R244, R254, R258, R261–R263).
-/

namespace Sys2Proof.Machine

def errNotStopped : Nat := 0x20
def errImgFormat : Nat := 0x21
def errImgCrc : Nat := 0x22
def errBadOpcode : Nat := 0x23
def errBadOperand : Nat := 0x24
def errIlpNotHot : Nat := 0x25
def errIlpPointWrite : Nat := 0x26
def errImgSize : Nat := 0x27
def errHoldDenied : Nat := 0x28
def errChgFull : Nat := 0x29
def errChgTarget : Nat := 0x2A
def errModeState : Nat := 0x2B

/-- Change the ILP. -/
def State.updIlp (s : State) (f : Ilp → Ilp) : State := { s with ilp := f s.ilp }

/-- The fields of an instruction (R244). -/
def iOp (w : Word) : Nat := bits w 31 26
def iSpace (w : Word) : Nat := bits w 25 24
def iAddr (w : Word) : Nat := bits w 23 0

/-- The families of Table ILP-3. -/
inductive IFam where
  | bit | store | close | timer | count | edge | word | wstore | flow | bare | reserved
deriving DecidableEq, Repr, Inhabited

/-- The family of an opcode. -/
def iFam (op : Nat) : IFam :=
  if (0x01 ≤ op ∧ op ≤ 0x08) ∨ op = 0x0D ∨ op = 0x0E then .bit
  else if 0x09 ≤ op ∧ op ≤ 0x0C then .store
  else if op = 0x0F then .close
  else if 0x10 ≤ op ∧ op ≤ 0x12 then .timer
  else if op = 0x13 ∨ op = 0x14 then .count
  else if op = 0x15 ∨ op = 0x16 then .edge
  else if op = 0x18 ∨ (0x1A ≤ op ∧ op ≤ 0x1E) then .word
  else if op = 0x19 then .wstore
  else if 0x20 ≤ op ∧ op ≤ 0x23 then .flow
  else if op = 0x24 ∨ op = 0x3F then .bare
  else .reserved

/-- Whether a bit operand is legal (Table ILP-2); a P operand's point is checked apart. -/
def iBitOk (m : IImage) (sp a : Nat) : Bool :=
  match sp with
  | 0 => decide (a < m.imap.length)
  | 1 => decide (a < m.qmap.length)
  | 2 => decide (a < m.mN)
  | _ =>
    match bitsN a 23 21 with
    | 0 => true
    | 1 => decide (bitsN a 20 19 = 0)
    | 2 => decide (bitsN a 20 16 = 0)
    | _ => false

/-- Whether a word operand is legal. -/
def iWordOk (m : IImage) (sp a : Nat) : Bool :=
  match sp with
  | 0 => decide (a < m.wN)
  | 1 => decide (a < m.kInit.length)
  | 2 => decide (bitsN a 20 16 = 0) && decide (bitsN a 23 21 < 2)
  | _ => decide (a < 0x4000) && (if a.testBit 12 then decide (bitsN a 11 0 < m.cPre.length) else decide (bitsN a 11 0 < m.tPre.length))

/-- Whether an instruction's operand is legal (R244, R247). -/
def iOperandOk (m : IImage) (w : Word) : Bool :=
  let sp := iSpace w
  let a := iAddr w
  match iFam (iOp w) with
  | .bit => iBitOk m sp a
  | .store => (decide (sp = 1) || decide (sp = 2)) && iBitOk m sp a
  | .timer => decide (sp = 0) && decide (a < m.tPre.length)
  | .count => decide (sp = 0) && decide (bitsN a 22 12 = 0) && decide (bitsN a 11 0 < m.cPre.length)
  | .edge => decide (sp = 0) && decide (a < m.eN)
  | .word => iWordOk m sp a
  | .wstore => decide (sp = 0) && decide (a < m.wN)
  | .flow => decide (sp = 0) && decide (a < m.code.length)
  | .close | .bare => decide (sp = 0) && decide (a = 0)
  | .reserved => false

/-- The hot index of an instruction's P operand. -/
def iHot (w : Word) : Option Nat :=
  match iFam (iOp w) with
  | .bit => if iSpace w = 3 then some (bits w 15 0) else none
  | .word => if iSpace w = 2 then some (bits w 15 0) else none
  | _ => none

/-- The distinct P operands of a code, in order of use. -/
def iPlist (code : List Word) : List Nat :=
  (code.filterMap iHot).foldl (fun l h => if l.contains h then l else l ++ [h]) []

/-- The point committed at a hot index. -/
def State.atHotDir (s : State) (h : Nat) : Option Nat :=
  ((s.ptd.dir.filter fun e => e.2.hot && decide (e.2.hotIndex = h) && decide (e.2.kind ≠ .none)).map (·.1)).head?

/-- Whether a point is hot-bound. -/
def State.hotBound (s : State) (idx : Nat) : Bool := decide ((s.dirEntry idx).kind ≠ .none) && (s.dirEntry idx).hot

/-- A target the ILP may write: INTERNAL of class B or C, or bound with OUTPUT = 1 and class B or C; no SAF point (R254). -/
def ilpTarget (e : DirEntry) : Bool :=
  decide (e.srcType ≠ .saf) && (decide (e.cls = .b) || decide (e.cls = .c)) && (decide (e.srcType = .internal) || e.output)

/-- The error of an instruction, 0 where it is legal. -/
def State.iInstrErr (s : State) (m : IImage) (w : Word) : Nat :=
  if iFam (iOp w) = .reserved then errBadOpcode
  else if !iOperandOk m w then errBadOperand
  else
    match iHot w with
    | some h => if (s.atHotDir h).isNone then errIlpNotHot else 0
    | none => 0

/-- The error of an input-map entry (Table ILP-6). -/
def State.imapErr (s : State) (w : Word) : Nat :=
  if bits w 31 27 ≠ 0 ∨ bits w 25 24 = 3 then errBadOperand
  else if !s.hotBound (bits w 18 0) then errIlpNotHot
  else 0

/-- The error of an output-map entry. -/
def State.qmapErr (s : State) (w : Word) : Nat :=
  if bits w 31 20 ≠ 0 then errBadOperand
  else if (s.dirEntry (bits w 18 0)).kind ≠ .bit ∨ !ilpTarget (s.dirEntry (bits w 18 0)) then errIlpPointWrite
  else 0

/-- The error of a word-map entry. -/
def State.wmapErr (s : State) (m : IImage) (w : Word × Word) : Nat :=
  if bits w.1 31 17 ≠ 0 ∨ m.wN ≤ bits w.1 15 0 then errBadOperand
  else if bit w.1 16 then (if bits w.2 31 24 ≠ 0 then errBadOperand else 0)
  else if bits w.2 31 19 ≠ 0 then errBadOperand
  else
    let e := s.dirEntry (bits w.2 18 0)
    if (e.kind ≠ .q15 ∧ e.kind ≠ .int16 ∧ e.kind ≠ .int32) ∨ !ilpTarget e then errIlpPointWrite else 0

/-- The first position of a list whose error is not 0, with the error. -/
def firstErr {α : Type} (f : α → Nat) : List α → Nat → Option (Nat × Nat)
  | [], _ => none
  | x :: xs, i => if f x ≠ 0 then some (f x, i) else firstErr f xs (i + 1)

/-- How many items a space of a slot kind has. -/
def slotRoom (m : IImage) : Nat → Nat
  | 0 => m.tPre.length
  | 1 => m.cPre.length
  | 2 => m.mN
  | _ => m.wN

/-- The words a slot keeps in the retentive area: two per timer or counter, its bits or its words. -/
def ISlot.words (x : ISlot) : Nat :=
  match x.kind with
  | 0 | 1 => 2 * x.count
  | 2 => (x.count + 31) / 32
  | _ => x.count

/-- The retentive initial words of a slot (R262). -/
def ISlot.inits (x : ISlot) : Nat := if x.kind < 2 then 0 else x.words

/-- Whether two slots overlap. -/
def slotsMeet (a b : ISlot) : Bool := decide (a.kind = b.kind) && decide (a.first < b.first + b.count) && decide (b.first < a.first + a.count)

/-- The error of an instance entry; `before` are the entries before it. -/
def slotErr (m : IImage) (x0 x1 : Word) (sl : ISlot) (before : List ISlot) : Nat :=
  if !bit x0 2 ∨ bits x0 15 3 ≠ 0 ∨ bits x1 31 17 ≠ 0 ∨ sl.count = 0 ∨ slotRoom m sl.kind < sl.first + sl.count ∨ before.any (slotsMeet sl)
  then errBadOperand else 0

/-- The first word of the retentive area, and its words (R258). -/
def ilpArea : Nat := 0x001C0000 / 4
def ilpAreaWords : Nat := 0x3E000 / 4

/-- The words the retained table and items of an image take. -/
def areaUse (slots : List ISlot) : Nat := 1 + 3 * slots.length + (slots.map ISlot.words).sum

/-- The section lengths, in words, of a header (R261), code first. -/
def secWords (h : Nat → Nat) : List Nat := [h 2, h 3, h 4, 2 * h 5, h 6, h 7, h 8, 3 * h 9, h 10]

/-- The image of a list of words. -/
def parseImage (ws : List Word) : IImage × List (Word × Word) :=
  let h := fun k : Nat => (nth 0 ws k).toNat
  let n := secWords h
  let starts := n.foldl (fun (l : List Nat) (k : Nat) => l ++ [(l.getLastD 16) + k]) [16]
  let sec := fun k : Nat => (ws.drop (nth 0 starts k)).take (nth 0 n k)
  let w5 := sec 3
  let x8 := sec 7
  let raw := (List.range (h 9)).map fun j => (nth (0 : Word) x8 (3 * j), nth (0 : Word) x8 (3 * j + 1))
  let slots := (List.range (h 9)).map fun j =>
    ({ kind := bits (nth 0 x8 (3 * j)) 1 0, first := bits (nth 0 x8 (3 * j)) 31 16, count := bits (nth 0 x8 (3 * j + 1)) 16 0,
       sig := nth 0 x8 (3 * j + 2) } : ISlot)
  ({ code := sec 0, imap := sec 1, qmap := sec 2, wmap := (List.range (h 5)).map fun j => (nth 0 w5 (2 * j), nth 0 w5 (2 * j + 1)),
     kInit := sec 4, tPre := sec 5, cPre := sec 6, slots := slots, rInit := sec 8, eN := h 11, mN := h 12, wN := h 13,
     crc := ws.getLastD 0, plist := iPlist (sec 0) }, raw)

/-- Whether a header is good (Table ILP-8): identification, counts and length. -/
def headerOk (ws : List Word) (len : Nat) : Bool :=
  let h := fun k : Nat => (nth 0 ws k).toNat
  decide (h 0 = 0x41535250) && decide (h 1 = 1) && decide (1 ≤ h 2) && decide (h 2 ≤ 262144) && decide (h 3 ≤ 16384) && decide (h 4 ≤ 16384) &&
    decide (h 5 ≤ 256) && decide (h 6 ≤ 16384) && decide (h 7 ≤ 4096) && decide (h 8 ≤ 4096) && decide (h 9 ≤ 8192) && decide (h 11 ≤ 16384) &&
    decide (h 12 ≤ 65536) && decide (h 13 ≤ 65536) && decide (h 14 = 0) && decide (h 15 = len) &&
    decide (len = 4 * (16 + (secWords h).sum + 1))

/-- The errors of the instance table in order. -/
def slotsErr (m : IImage) (raw : List (Word × Word)) : Option (Nat × Nat) :=
  firstErr (fun j => slotErr m (nth (0, 0) raw j).1 (nth (0, 0) raw j).2 (nth { kind := 0, first := 0, count := 0, sig := 0 } m.slots j) (m.slots.take j))
    (List.range m.slots.length) 0

/-- A section's first error, as error, position and section. -/
def inSec (k : Nat) (r : Option (Nat × Nat)) : Option (Nat × Nat × Nat) := r.map fun x => (x.1, x.2, k)

/-- The instruction whose P operand is the 4097th distinct point (R261). -/
def plistFull : List Word → List Nat → Nat → Option Nat
  | [], _, _ => none
  | w :: ws, seen, i =>
    match iHot w with
    | none => plistFull ws seen (i + 1)
    | some h =>
      if seen.contains h then plistFull ws seen (i + 1)
      else if 4096 ≤ seen.length then some i
      else plistFull ws (h :: seen) (i + 1)

/-- The check of an image: the order of R263 (header, CRC, every instruction, every entry), then the capacity checks (R500): error, position and
section of the first failure. -/
def State.imageCheck (s : State) (ws : List Word) (len : Nat) : Option (Nat × Nat × Nat) :=
  if !headerOk ws len then some (errImgFormat, 0, 0)
  else if (ws.getLastD 0).toNat ≠ crc32c ((ws.dropLast).flatMap wordBytes) then some (errImgCrc, 0, 10)
  else
    let (m, raw) := parseImage ws
    (inSec 1 (firstErr (s.iInstrErr m) m.code 0)) <|>
      (inSec 2 (firstErr s.imapErr m.imap 0)) <|>
      (inSec 3 (firstErr s.qmapErr m.qmap 0)) <|>
      (inSec 4 (firstErr (s.wmapErr m) m.wmap 0)) <|>
      (inSec 6 (firstErr (fun w : Word => if bit w 31 then errBadOperand else 0) m.tPre 0)) <|>
      (inSec 8 (slotsErr m raw)) <|>
      (if m.rInit.length ≠ (m.slots.map ISlot.inits).sum then some (errImgFormat, 0, 9) else none) <|>
      ((plistFull m.code [] 0).map fun i => (errImgSize, i, 1)) <|>
      (if ilpAreaWords < areaUse m.slots then some (errImgSize, 0, 8) else none)

/-- The points that a loaded image holds (R63). -/
def State.imagePoints (s : State) (m : IImage) : List (Nat × Bool) :=
  let ps := (m.imap.map fun w => bits w 18 0) ++ (m.qmap.map fun w => bits w 18 0) ++
    (m.wmap.filterMap fun w => if bit w.1 16 then none else some (bits w.2 18 0)) ++ m.plist.filterMap s.atHotDir
  ps.map fun i => (i, false)

/-- ILP_IMG_ADDR. -/
def State.imgAddr (s : State) : Nat := (s.reg R.ILP_IMG_ADDR_LO).toNat + 2 ^ 32 * bits (s.reg R.ILP_IMG_ADDR_HI) 7 0

/-- A load ends with a result (R263). -/
def State.loadEnd (s : State) (e pos sec : Nat) : State :=
  let s1 := (s.updIlp fun x => { x with loadBusy := false, loadResult := e, loadPos := pos + 0x100000 * sec }).irq .ilp 8
  if e = 0 then s1 else (s1.err .ilp e).record .ilp 0 0x0E12 [errWord .ilp e, pos, sec]

end Sys2Proof.Machine
end

