-- ==== Sys2Proof/Machine/Ilp.lean ====
section
/-!
DEFINITION. The interlock logic processor at work (R244–R260, R264, R265): instructions, the phases of a scan, modes, initialisation and the retentive
area. `busw` is the bus write of a register target (R254).
-/

namespace Sys2Proof.Machine

/-! ### Operands -/

/-- GOOD (R245). -/
def iGood (q : Byte) : Bool := !isBad q

/-- The bit value of an operand (Table ILP-2). -/
def Ilp.bitOp (x : Ilp) (w : Word) : Bool :=
  let a := iAddr w
  match iSpace w with
  | 0 => Tab.get false x.I a
  | 1 => Tab.get false x.Q a
  | 2 => Tab.get false x.M a
  | _ =>
    let e := Tab.get {} x.P (bitsN a 15 0)
    match bitsN a 23 21 with
    | 0 => bit e.value (bitsN a 20 16)
    | 1 => e.q.getLsbD (bitsN a 18 16)
    | _ => iGood e.q

/-- The word value of an operand. -/
def Ilp.wordOp (x : Ilp) (w : Word) : Int :=
  let a := iAddr w
  match iSpace w with
  | 0 => (Tab.get 0 x.W a).toInt
  | 1 => (Tab.get 0 x.K a).toInt
  | 2 =>
    let e := Tab.get {} x.P (bitsN a 15 0)
    if bitsN a 23 21 = 0 then e.value.toInt else (e.q.toNat : Int)
  | _ =>
    let k := bitsN a 11 0
    if a.testBit 12 then
      let y := Tab.get {} x.C k
      if a.testBit 13 then y.pv.toInt else y.cv.toInt
    else
      let y := Tab.get {} x.T k
      if a.testBit 13 then y.pt.toInt else (y.et : Int)

/-- Write a bit of Q or M. -/
def Ilp.setBit (x : Ilp) (w : Word) (b : Bool) : Ilp :=
  if iSpace w = 1 then { x with Q := Tab.put false x.Q (iAddr w) b } else { x with M := Tab.put false x.M (iAddr w) b }

/-! ### Timers, counters and edges -/

/-- A timer starts (R248). -/
def ITimer.begin_ (t : ITimer) (tclk : Nat) : ITimer := { t with start := tclk, et := 0, ptRun := t.pt, running := true }

/-- ET while a timer runs. -/
def ITimer.elapsed (t : ITimer) (tclk : Nat) : Nat := min ((tclk + 2 ^ 32 - t.start) % 2 ^ 32) t.ptRun.toNat

/-- A timer instruction (R248): 0x10 TON, 0x11 TOF, 0x12 TP. -/
def ITimer.exec (t : ITimer) (op : Nat) (inp : Bool) (tclk : Nat) : ITimer :=
  let rising := inp && !t.inPrev
  let t1 : ITimer :=
    if op = 0x10 then
      if !inp then { t with running := false, et := 0, q := false } else if !t.running then t.begin_ tclk else t
    else if op = 0x11 then
      if inp then { t with q := true, running := false, et := 0 } else if t.inPrev then t.begin_ tclk else t
    else if rising && !t.running then { t.begin_ tclk with q := true } else t
  let t2 : ITimer := if t1.running then { t1 with et := t1.elapsed tclk } else t1
  let ends := t2.running && decide (t2.et = t2.ptRun.toNat)
  let t3 : ITimer :=
    if op = 0x10 then (if t2.running then { t2 with q := inp && decide (t2.et = t2.ptRun.toNat) } else t2)
    else if ends then { t2 with q := false, running := false } else t2
  { t3 with inPrev := inp }

/-- A counter instruction (R249): 0x13 CTU, 0x14 CTD. -/
def ICount.exec (y : ICount) (up form acc : Bool) : ICount :=
  let rising := acc && !y.cuPrev
  let cv : Word :=
    if form then (if acc then (if up then 0 else y.pv) else y.cv)
    else if rising then wordI (satS 32 (y.cv.toInt + (if up then 1 else -1))) else y.cv
  { y with cv := cv, cuPrev := acc, q := if up then decide (y.pv.toInt ≤ cv.toInt) else decide (cv.toInt ≤ 0) }

/-! ### Instructions -/

/-- What an instruction does to the flow. -/
inductive IOut where
  | next | jump (a : Nat) | ends | fault (cause : Nat)
deriving DecidableEq, Repr, Inhabited

/-- The stop causes of Table ILP-11. -/
def icCommand : Nat := 0
def icStack : Nat := 1
def icDepth : Nat := 2
def icLimit : Nat := 3
def icOverrun : Nat := 4
def icUe : Nat := 5
def icRevoked : Nat := 6
def icRunStop : Nat := 7
def icReset : Nat := 8

/-- One instruction (Table ILP-3). -/
def Ilp.instr (x : Ilp) (w : Word) : Ilp × IOut :=
  let op := iOp w
  let b := x.bitOp w
  let acc := fun v : Bool => (({ x with acc := v } : Ilp), IOut.next)
  match op with
  | 0x01 => acc b
  | 0x02 => acc (!b)
  | 0x03 => acc (x.acc && b)
  | 0x04 => acc (x.acc && !b)
  | 0x05 => acc (x.acc || b)
  | 0x06 => acc (x.acc || !b)
  | 0x07 => acc (x.acc != b)
  | 0x08 => acc (x.acc != !b)
  | 0x09 => (x.setBit w x.acc, .next)
  | 0x0A => (x.setBit w (!x.acc), .next)
  | 0x0B => (if x.acc then x.setBit w true else x, .next)
  | 0x0C => (if x.acc then x.setBit w false else x, .next)
  | 0x0D => if 8 ≤ x.bstack.length then (x, .fault icStack) else ({ x with bstack := (x.acc, true) :: x.bstack, acc := b }, .next)
  | 0x0E => if 8 ≤ x.bstack.length then (x, .fault icStack) else ({ x with bstack := (x.acc, false) :: x.bstack, acc := b }, .next)
  | 0x0F =>
    match x.bstack with
    | [] => (x, .fault icStack)
    | (a, f) :: t => ({ x with bstack := t, acc := if f then a && x.acc else a || x.acc }, .next)
  | 0x10 | 0x11 | 0x12 =>
    let t := (Tab.get {} x.T (iAddr w)).exec op x.acc x.tclk
    ({ x with T := Tab.put {} x.T (iAddr w) t, acc := t.q }, .next)
  | 0x13 | 0x14 =>
    let k := bits w 11 0
    let y := (Tab.get {} x.C k).exec (decide (op = 0x13)) (bit w 23) x.acc
    ({ x with C := Tab.put {} x.C k y, acc := y.q }, .next)
  | 0x15 => ({ x with acc := x.acc && !(Tab.get false x.E (iAddr w)), E := Tab.put false x.E (iAddr w) x.acc }, .next)
  | 0x16 => ({ x with acc := !x.acc && Tab.get false x.E (iAddr w), E := Tab.put false x.E (iAddr w) x.acc }, .next)
  | 0x18 => ({ x with wacc := wordI (x.wordOp w) }, .next)
  | 0x19 =>
    let k := iAddr w
    ({ x with W := Tab.put 0 x.W k x.wacc, stw := if x.stw.contains k then x.stw else x.stw ++ [k] }, .next)
  | 0x1A => ({ x with wacc := wordI (satS 32 (x.wacc.toInt + x.wordOp w)) }, .next)
  | 0x1B => ({ x with wacc := wordI (satS 32 (x.wacc.toInt - x.wordOp w)) }, .next)
  | 0x1C => acc (decide (x.wordOp w < x.wacc.toInt))
  | 0x1D => acc (decide (x.wacc.toInt < x.wordOp w))
  | 0x1E => acc (decide (x.wacc.toInt = x.wordOp w))
  | 0x20 => (x, .jump (bits w 17 0))
  | 0x21 => (x, if x.acc then .jump (bits w 17 0) else .next)
  | 0x22 => (x, if x.acc then .next else .jump (bits w 17 0))
  | 0x23 =>
    if 16 ≤ x.cstack.length then (x, .fault icDepth) else ({ x with cstack := (x.pc + 1) :: x.cstack }, .jump (bits w 17 0))
  | 0x24 =>
    match x.cstack with
    | [] => (x, .fault icDepth)
    | a :: t => ({ x with cstack := t }, .jump a)
  | _ => (x, if x.bstack = [] then .ends else .fault icStack)

/-- How an execution ends: at END, at a breakpoint, or with a stop cause. -/
inductive IStop where
  | done | brk | fault (cause : Nat)
deriving DecidableEq, Repr, Inhabited

/-- One instruction at the program counter; an address past the code never reaches END (EXEC_LIMIT). -/
def Ilp.step1 (x : Ilp) : Ilp × Option IStop :=
  if x.img.code.length ≤ x.pc then (x, some (.fault icLimit))
  else
    let r := x.instr (nth 0 x.img.code x.pc)
    match r.2 with
    | .fault k => (x, some (.fault k))
    | .ends => ({ r.1 with cstack := [], execN := x.execN + 1 }, some .done)
    | .next => ({ r.1 with pc := x.pc + 1, execN := x.execN + 1 }, none)
    | .jump a => ({ r.1 with pc := a, execN := x.execN + 1 }, none)

/-- Execution until END, a breakpoint or a stop (R251, R253, R255). The first argument is how many instructions the scan may still execute. -/
def Ilp.runOn (bps : List Nat) : Nat → Bool → Ilp → Ilp × IStop
  | 0, _, x => (x, .fault icLimit)
  | n + 1, skip, x =>
    if !skip && bps.contains x.pc then (x, .brk)
    else
      match x.step1 with
      | (x1, some r) => (x1, r)
      | (x1, none) => Ilp.runOn bps n false x1

/-- The enabled breakpoints; without the hold permission they are ignored (R255). -/
def State.ilpBps (s : State) : List Nat :=
  if !s.holdPermit then []
  else (List.range 8).filterMap fun k => if bit (s.regAt R.ILP_BP (4 * k)) 31 then some (bits (s.regAt R.ILP_BP (4 * k)) 17 0) else none

/-! ### Snapshot and write-out -/

/-- TCLK advances by the running time since the last snapshot, in units of 100 µs (R248). -/
def State.ilpTclk (s : State) : State :=
  if s.ilp.mode ≠ .run then s
  else
    let n := s.ilp.tAcc + (s.cpu.mtime - s.ilp.tRef)
    s.updIlp fun x => { x with tclk := (x.tclk + n / 10000) % 2 ^ 32, tAcc := n % 10000, tRef := s.cpu.mtime }

/-- The I bit of an input-map entry (Table ILP-6). -/
def State.ibit (s : State) (w : Word) : Bool :=
  let e := s.readPoint (bits w 18 0)
  let v := bit e.value (bits w 23 19)
  match bits w 25 24 with
  | 0 => v
  | 1 => if iGood e.q then v else bit w 26
  | _ => iGood e.q

/-- The snapshot (R251, R254): one group read of every input-map point and P-list point; a scan starts. -/
def State.ilpSnapshot (s : State) : State :=
  let s1 := s.ilpTclk
  let m := s1.ilp.img
  let ib := (List.range m.imap.length).foldl (fun t j => Tab.put false t j (s1.ibit (nth 0 m.imap j))) ([] : Tab Bool)
  let pv := m.plist.foldl (fun t h => Tab.put {} t h (match s1.atHot h with | some i => s1.readPoint i | none => {})) ([] : Tab Entry)
  s1.updIlp fun x => { x with I := ib, P := pv, inScan := true, pc := 0, execN := 0, stw := [], bstack := [], cstack := [] }

/-- A word saturated to a point's kind (R254). -/
def satKind (k : Kind) (v : Int) : Int :=
  match k with | .int32 => v | _ => sat16 v

/-- Write an output-map target. -/
def State.ilpQ (s : State) (j : Nat) (v : Bool) : State := s.driveOut (bits (nth 0 s.ilp.img.qmap j) 18 0) (b2n v)

/-- Write a word-map point target. -/
def State.ilpW (s : State) (j : Nat) (v : Word) : State :=
  let w := nth (0, 0) s.ilp.img.wmap j
  if bit w.1 16 then s else s.driveOut (bits w.2 18 0) (satKind (s.point (bits w.2 18 0)).kind v.toInt)

/-- Rewrite every target with its value of the last completed write-out (R256). -/
def State.ilpRewriteW (s : State) : State :=
  (List.range s.ilp.img.wmap.length).foldl (fun s j => match Tab.get none s.ilp.lastW j with | some v => s.ilpW j v | none => s) s
def State.ilpRewrite (s : State) : State :=
  ((List.range s.ilp.img.qmap.length).foldl (fun s j => match Tab.get none s.ilp.lastQ j with | some v => s.ilpQ j v | none => s) s).ilpRewriteW

/-- The stop values (R256): each output-map target's STOP_VAL, and the word-map points again. Nothing is written while EMPTY. -/
def State.ilpStopValues (s : State) : State :=
  if s.ilp.empty then s
  else
    ((List.range s.ilp.img.qmap.length).foldl (fun s j => s.ilpQ j (bit (nth 0 s.ilp.img.qmap j) 19)) s).ilpRewriteW

/-- The write-out (R251, R254): every output-map bit and word-map point, then the register targets whose word was stored, in map order. -/
def State.ilpWriteOut (busw : Nat → Word → State → State) (s : State) : State :=
  let s1 := (List.range s.ilp.img.qmap.length).foldl (fun s j =>
    let v := Tab.get false s.ilp.Q j
    (s.ilpQ j v).updIlp fun x => { x with lastQ := Tab.put none x.lastQ j (some v) }) s
  let s2 := (List.range s1.ilp.img.wmap.length).foldl (fun s j =>
    let w := nth (0, 0) s.ilp.img.wmap j
    let v := Tab.get 0 s.ilp.W (bits w.1 15 0)
    if bit w.1 16 then s else (s.ilpW j v).updIlp fun x => { x with lastW := Tab.put none x.lastW j (some v) }) s1
  let regs := s2.ilp.img.wmap.filter fun w => bit w.1 16 && s2.ilp.stw.contains (bits w.1 15 0)
  let vals := regs.map fun w => (bits w.2 23 0, Tab.get 0 s2.ilp.W (bits w.1 15 0))
  vals.foldl (fun s v => busw (0x10000000 + v.1) v.2 s) s2

/-! ### On-line changes -/

/-- The value a change replaces. -/
def Ilp.chgOld (x : Ilp) (g : IChg) : Word :=
  match g.space with
  | 0 => Tab.get 0 x.K g.idx
  | 1 => (Tab.get {} x.T g.idx).pt
  | 2 => (Tab.get {} x.C g.idx).pv
  | 3 => Tab.get 0 x.W g.idx
  | _ => word (b2n (Tab.get false x.M g.idx))

/-- A change is applied (R265). -/
def Ilp.chgPut (x : Ilp) (g : IChg) : Ilp :=
  match g.space with
  | 0 => { x with K := Tab.put 0 x.K g.idx g.val }
  | 1 => { x with T := Tab.upd {} x.T g.idx fun t => { t with pt := g.val } }
  | 2 => { x with C := Tab.upd {} x.C g.idx fun y => { y with pv := g.val } }
  | 3 => { x with W := Tab.put 0 x.W g.idx g.val }
  | _ => { x with M := Tab.put false x.M g.idx (bit g.val 0) }

/-- Apply every queued change in order, with ONLINE_CHANGE and CHG_DONE for each. -/
def State.ilpChanges (s : State) : State :=
  s.ilp.chg.foldl (fun s g =>
    let old := s.ilp.chgOld g
    let s1 := s.updIlp fun x => { x.chgPut g with chg := x.chg.drop 1 }
    (s1.record .ilp 0 0x0E13 [g.space + 256 * g.idx, old.toNat, (s1.ilp.chgOld g).toNat, g.principal]).irq .ilp 11) s

/-! ### Retentive data (R258–R260) -/

/-- The words that a slot keeps: a timer as ET, Q, RUNNING and IN_PREV; a counter as CV, Q and CU_PREV; bits and words as they are. -/
def Ilp.slotWords (x : Ilp) (sl : ISlot) : List Word :=
  match sl.kind with
  | 0 => (List.range sl.count).flatMap fun j =>
      let t := Tab.get {} x.T (sl.first + j)
      [word t.et, word (b2n t.q + 2 * b2n t.running + 4 * b2n t.inPrev)]
  | 1 => (List.range sl.count).flatMap fun j =>
      let y := Tab.get {} x.C (sl.first + j)
      [y.cv, word (b2n y.q + 2 * b2n y.cuPrev)]
  | 2 => (List.range sl.words).map fun k =>
      word ((List.range 32).foldl (fun n i => if 32 * k + i < sl.count ∧ Tab.get false x.M (sl.first + 32 * k + i) then n + 2 ^ i else n) 0)
  | _ => (List.range sl.count).map fun j => Tab.get 0 x.W (sl.first + j)

/-- Give a slot's items the values of kept words. A running timer continues from its ET with the preset in force. -/
def Ilp.slotPut (x : Ilp) (sl : ISlot) (ws : List Word) : Ilp :=
  match sl.kind with
  | 0 => (List.range sl.count).foldl (fun x j =>
      let f := nth 0 ws (2 * j + 1)
      let et := (nth 0 ws (2 * j)).toNat
      { x with T := Tab.upd {} x.T (sl.first + j) fun t =>
          { t with et := et, q := bit f 0, running := bit f 1, inPrev := bit f 2, ret := true, ptRun := t.pt,
                   start := (x.tclk + 2 ^ 32 - et) % 2 ^ 32 } }) x
  | 1 => (List.range sl.count).foldl (fun x j =>
      let f := nth 0 ws (2 * j + 1)
      { x with C := Tab.upd {} x.C (sl.first + j) fun y => { y with cv := nth 0 ws (2 * j), q := bit f 0, cuPrev := bit f 1, ret := true } }) x
  | 2 => (List.range sl.count).foldl (fun x j => { x with M := Tab.put false x.M (sl.first + j) (bit (nth 0 ws (j / 32)) (j % 32)) }) x
  | _ => (List.range sl.count).foldl (fun x j => { x with W := Tab.put 0 x.W (sl.first + j) (nth 0 ws j) }) x

/-- Give a slot's items their initial values (R264): timers and counters 0 beside their presets, M and W the retentive initial words. -/
def Ilp.slotInit (x : Ilp) (sl : ISlot) (ws : List Word) : Ilp :=
  match sl.kind with
  | 0 => (List.range sl.count).foldl (fun x j => { x with T := Tab.upd {} x.T (sl.first + j) fun t => { pt := t.pt, ret := true } }) x
  | 1 => (List.range sl.count).foldl (fun x j => { x with C := Tab.upd {} x.C (sl.first + j) fun y => { pv := y.pv, ret := true } }) x
  | _ => x.slotPut sl ws

/-- The place of each slot's words in the retentive area, after the table. -/
def slotPlaces (slots : List ISlot) : List Nat :=
  slots.foldl (fun (l : List Nat) (sl : ISlot) => l ++ [l.getLastD 0 + sl.words]) [ilpArea + 1 + 3 * slots.length]

/-- The words of a table. -/
def slotTable (slots : List ISlot) : List Word :=
  word slots.length :: slots.flatMap fun sl => [word (sl.kind + 4 + sl.first * 65536), word sl.count, sl.sig]

/-- The retained instance table. -/
def State.retSlots (s : State) : List ISlot :=
  let n := min 8192 (s.retWord ilpArea).toNat
  (List.range n).map fun k =>
    let a := ilpArea + 1 + 3 * k
    { kind := bits (s.retWord a) 1 0, first := bits (s.retWord a) 31 16, count := bits (s.retWord (a + 1)) 16 0, sig := s.retWord (a + 2) }

/-- Hand RET the words from a place on that differ from what it holds. -/
def State.retChanged (s : State) (i : Nat) (ws : List Word) : State :=
  (List.range ws.length).foldl (fun s k => if s.retWord (i + k) = nth 0 ws k then s else s.retPut (i + k) (nth 0 ws k) .ilp) s

/-- The changed retentive items are handed to RET (R259). -/
def State.ilpRetain (s : State) : State :=
  let slots := s.ilp.img.slots
  (List.range slots.length).foldl (fun s k =>
    s.retChanged (nth 0 (slotPlaces slots) k) (s.ilp.slotWords (nth { kind := 0, first := 0, count := 0, sig := 0 } slots k))) s

/-- The initial words of each slot: zeros for timers and counters, the retentive initial values for the others, in table order. -/
def initWords : List ISlot → List Word → List (List Word)
  | [], _ => []
  | sl :: t, ws => (if sl.kind < 2 then List.replicate sl.words 0 else ws.take sl.inits) :: initWords t (ws.drop sl.inits)

/-- The first RUN after an applied load (R264). -/
def State.ilpInit (s : State) : State :=
  let m := s.ilp.img
  let lost := s.ilp.retLost
  let old := if lost then [] else s.retSlots
  let places := slotPlaces old
  let kept := m.slots.map fun sl =>
    (old.findIdx? fun o => decide (o = sl)).map fun k => (List.range sl.words).map fun j => s.retWord (nth 0 places k + j)
  let inits := initWords m.slots m.rInit
  let x0 : Ilp :=
    { s.ilp with
      I := [], Q := [], M := [], E := [], W := [],
      K := Tab.putList 0 [] 0 m.kInit,
      T := (List.range m.tPre.length).foldl (fun t j => Tab.put {} t j { pt := nth 0 m.tPre j }) [],
      C := (List.range m.cPre.length).foldl (fun t j => Tab.put {} t j { pv := nth 0 m.cPre j }) [] }
  let x1 := (List.range m.slots.length).foldl (fun x k =>
    let sl := nth { kind := 0, first := 0, count := 0, sig := 0 } m.slots k
    match nth none kept k with
    | some ws => x.slotPut sl ws
    | none => x.slotInit sl (nth [] inits k)) x0
  let reset := (List.range m.slots.length).filter fun k => (nth none kept k).isNone
  let s1 := { s with ilp := { x1 with newImage := false, retLost := false, retainLost := lost, slotsReset := reset.length } }
  let s2 := (s1.retChanged ilpArea (slotTable m.slots)).ilpRetain
  if lost ∨ reset ≠ [] then s2.record .ilp 0 0x0E14 [b2n lost, reset.length, reset.headD 0] else s2

/-! ### Modes -/

/-- The code of a mode. -/
def IMode.code : IMode → Nat
  | .stop => 0 | .run => 1 | .hold => 2

/-- A mode change with its record and MODE_EVT (Table ILP-12). Running time up to now is kept for TCLK. -/
def State.ilpMode (s : State) (m : IMode) (cause : Nat) : State :=
  let old := s.ilp.mode
  let run := if old = .run then s.ilp.tAcc + (s.cpu.mtime - s.ilp.tRef) else s.ilp.tAcc
  let s1 := s.updIlp fun x => { x with mode := m, tAcc := run, tRef := s.cpu.mtime, cause := if m = .stop then cause else x.cause }
  ((s1.record .ilp 0 0x0E10 [old.code, m.code, cause, s.ilp.pc]).irq .ilp 9).updHd .ilp fun h => { h with running := decide (m ≠ .stop) }

/-- The ILP stops (Table ILP-7): a scan in progress is abandoned, stop values are written and queued changes applied. -/
def State.ilpStop (s : State) (cause : Nat) : State :=
  if s.ilp.mode = .stop then s
  else
    let s1 := s.ilpMode .stop cause
    let s2 := s1.updIlp fun x => { x with inScan := false, bstack := [], cstack := [], pc := 0, stw := [], busyTo := 0, overrun := false, doom := false, consec := 0 }
    s2.ilpStopValues.ilpChanges

/-- A fault stop raises ALARM (Table ILP-7). -/
def State.ilpFault (s : State) (cause : Nat) : State := (s.ilpStop cause).raise .ilp 0 0x0E10 .alarm

/-- The permission of the safety parameter set is withdrawn (R255). -/
def State.ilpPermit (s : State) : State := if s.ilp.mode = .hold ∧ !s.holdPermit then s.ilpFault icRevoked else s

/-- SCAN_PERIOD in ns. -/
def State.scanNs (s : State) : Nat := bits (s.reg R.ILP_CFG) 13 0 * 100000

/-- Write-out and housekeeping end a scan that lasts `dur` (R251), `left` of it from now on. -/
def State.ilpFinish (busw : Nat → Word → State → State) (dur left : Nat) (s : State) : State :=
  let s1 := s.updIlp fun x => { x with inScan := false, pc := 0 }
  let s2 := ((s1.ilpWriteOut busw).ilpChanges).ilpRetain
  s2.updIlp fun x =>
    { x with scanLast := dur, scanMax := max x.scanMax dur, scanCnt := wrapInc x.scanCnt, execLast := x.execN, dur := dur,
             busyTo := s.cpu.mtime + left, overrun := true }

/-- A scan whose write-out waits completes: the command that ends RUN comes before the boundary that would have stopped the ILP for the overrun (Table ILP-7, log 82). -/
def State.ilpComplete (busw : Nat → Word → State → State) (s : State) : State :=
  if s.ilp.doom then (s.updIlp fun x => { x with doom := false }).ilpFinish busw s.ilp.dur 0 else s

/-- Whether a scan that lasts `dur` × 10 ns from now overruns so that the ILP stops at the next boundary (R253). -/
def State.ilpDoomed (s : State) (dur : Nat) : Bool :=
  let p := max 1 s.scanNs
  decide ((s.now / p + 1) * p < s.now + 10 * dur) && decide (bits (s.reg R.ILP_CFG) 19 16 ≤ s.ilp.consec + 1)

/-- Execution of a scan in progress to its end, a breakpoint or a stop. The scan lasts `dur`, `left` of it from now on. -/
def State.ilpGo (busw : Nat → Word → State → State) (dur left : Nat) (skip : Bool) (s : State) : State :=
  let r := Ilp.runOn s.ilpBps ((s.reg R.ILP_EXEC_LIMIT).toNat - s.ilp.execN) skip s.ilp
  let s1 := { s with ilp := r.1 }
  match r.2 with
  | .fault k => s1.ilpFault k
  | .brk => s1.ilpMode .hold icCommand
  | .done =>
    if s1.ilpDoomed left then s1.updIlp fun x => { x with inScan := false, doom := true, overrun := true, dur := dur, busyTo := s.cpu.mtime + left }
    else s1.ilpFinish busw dur left

/-- ILP_OVERRUN (R253). -/
def State.ilpOverrun (s : State) : State :=
  let n := s.ilp.consec + 1
  let s1 := (s.updIlp fun x => { x with overrun := false, consec := n, ovrCnt := wrapInc x.ovrCnt }).irq .ilp 10
  let s2 := s1.record .ilp 0 0x0E15 [s1.ilp.dur, n]
  if bits (s.reg R.ILP_CFG) 19 16 ≤ n then s2.ilpFault icOverrun else s2

/-- A scan boundary (R251, R253, R256). `dur` is how long a scan that starts here lasts in 10 ns, `ue` an uncorrectable error of its memories. -/
def State.ilpBoundary (busw : Nat → Word → State → State) (dur : Nat) (ue : Bool) (s : State) : State :=
  if !s.present .ilp then s
  else
    match s.ilp.mode with
    | .stop => s.ilpStopValues
    | .hold => if ue then s.ilpFault icUe else s.ilpRewrite
    | .run =>
      if ue then s.ilpFault icUe
      else if s.ilp.doom && !(s.hd .ilp).run then (s.ilpComplete busw).ilpStop icRunStop
      else if s.cpu.mtime < s.ilp.busyTo then (if s.ilp.overrun then s.ilpOverrun else s)
      else
        ((s.updIlp fun x => { x with consec := if x.overrun then 0 else x.consec, overrun := false, doom := false }).ilpSnapshot).ilpGo busw dur dur false

/-- STEP in HOLD (Table ILP-7): one instruction; stepping END runs write-out and housekeeping. -/
def State.ilpStepOne (busw : Nat → Word → State → State) (dur : Nat) (s : State) : State :=
  let s1 := if s.ilp.inScan then s else s.ilpSnapshot
  if (s1.reg R.ILP_EXEC_LIMIT).toNat ≤ s1.ilp.execN then s1.ilpFault icLimit
  else
    match s1.ilp.step1 with
    | (x, none) =>
      let s2 := { s1 with ilp := x }
      if (s1.reg R.ILP_EXEC_LIMIT).toNat ≤ x.execN then s2.ilpFault icLimit else s2
    | (x, some (.fault k)) => ({ s1 with ilp := x }).ilpFault k
    | (x, some _) => ({ s1 with ilp := x }).ilpFinish busw dur 0

/-- CONTINUE in HOLD: execution resumes with the held snapshot. -/
def State.ilpContinue (busw : Nat → Word → State → State) (dur : Nat) (s : State) : State :=
  let s1 := s.ilpMode .run icCommand
  if s1.ilp.inScan then s1.ilpGo busw dur 0 true else s1

/-- The result of a mode command. -/
def State.ilpResult (s : State) (e : Nat) : State :=
  let s1 := s.updIlp fun x => { x with result := e }
  if e = 0 then s1 else s1.err .ilp e

/-- Commands of ILP_MODE_CMD after the gate (Table ILP-7); other codes are reserved. `dur` is how long a scan that STEP or CONTINUE ends has lasted. -/
def State.ilpCmd (busw : Nat → Word → State → State) (code dur : Nat) (s : State) : State :=
  match code, s.ilp.mode with
  | 1, .stop =>
    if s.ilp.empty ∨ !(s.hd .ilp).run ∨ s.ilp.loadBusy then s.ilpResult errModeState
    else
      let s1 := (s.ilpResult 0).updIlp fun x => { x with scanMax := 0, consec := 0, busyTo := 0, overrun := false, doom := false }
      let s2 := if s1.ilp.newImage then s1.ilpInit else s1
      s2.ilpMode .run icCommand
  | 2, .run => ((s.ilpResult 0).ilpComplete busw).ilpStop icCommand
  | 2, .hold => (s.ilpResult 0).ilpStop icCommand
  | 3, .run => if s.holdPermit then ((s.ilpResult 0).ilpComplete busw).ilpMode .hold icCommand else s.ilpResult errHoldDenied
  | 4, .hold => State.ilpStepOne busw dur (s.ilpResult 0)
  | 5, .hold => State.ilpContinue busw dur (s.ilpResult 0)
  | _, _ => s.ilpResult errModeState

/-- A full device reset or the power-up of PD_ILP (Table ILP-7): STOP, EMPTY, memories cleared. -/
def State.ilpReset (s : State) : State := { s with ilp := { retLost := s.ilp.retLost } }

end Sys2Proof.Machine
end

