-- ==== Sys2Proof/Machine/Lne.lean ====
section
/-!
DEFINITION. The Lane ports in LANE mode (R310–R326): frames and injection, windows, cycles, enumeration, station and port states.
-/

namespace Sys2Proof.Machine

/-! ### LNE error codes (Table LNE-10) -/

def errStaActive : Nat := 0x23
def errPortState : Nat := 0x24
def errLneInjLocked : Nat := 0x25
def errLneInjPending : Nat := 0x26
def errMissing : Nat := 0x27
def errImageInUse : Nat := 0x28

/-! ### Ports and stations -/

/-- The code of a station state (Table LNE-6) and of a port state (Table LNE-7). -/
def StaState.code : StaState → Nat
  | .init => 0 | .enum => 1 | .config => 2 | .operational => 3 | .safe => 4 | .absent => 5
def PortState.code : PortState → Nat
  | .off => 0 | .linkWait => 1 | .enum => 2 | .config => 3 | .running => 4 | .ethUp => 5

/-- The station state of a code; codes above 4 are not sent. -/
def staOfCode : Nat → StaState
  | 0 => .init | 1 => .enum | 2 => .config | 3 => .operational | _ => .safe

/-- Table LNE-8's LNE_RESULT, with BLK_ERR for an error. -/
def State.laneResult (s : State) (p e k : Nat) : State :=
  let s1 := s.updPort_ p fun x => { x with result := e, resultSta := k }
  if e = 0 then s1 else s1.err .lne e

/-- A port changes state: PORT_STATE, PORT_EVT. The record's cause is a free value: the spec names no causes (log 63). -/
def State.portTo (s : State) (p : Nat) (st : PortState) : State :=
  let old := (s.lport p).state
  if old = st then s
  else
    let (k, s1) := s.draw
    ((s1.updPort_ p fun x => { x with state := st }).record .lne p 0x1110 [p, old.code, st.code, (Config.freeWord k).toNat]).irq .lne 8

/-- STA_EVT of a station, with the routes it feeds (R408, Table HTS-3). -/
def State.staEvt (s : State) (p k : Nat) : State := (s.irq .lne 9).routeEvt .lne 0 (p * 128 + k)

/-- The device's view of a station changes: STA_STATE, STA_EVT. -/
def State.staTo (s : State) (p k : Nat) (st : StaState) : State :=
  let old := (s.sta p k).state
  if old = st then s
  else ((s.updSta p k fun x => { x with state := st }).record .lne p 0x1111 [p, k, old.code, st.code]).staEvt p k

/-- The parts of a LANE source reference (Table PTD-3). -/
def lanePort (ref : Nat) : Nat := ref / 2 ^ 25
def laneSta (ref : Nat) : Nat := ref / 2 ^ 18 % 128
def laneOfs (ref : Nat) : Nat := ref / 16 % 2 ^ 14
def laneBit (ref : Nat) : Nat := ref % 16

/-- Whether an offset lies in the class A image (R314). -/
def inImgA (o : Nat) : Bool := decide (0x400 ≤ o) && decide (o ≤ 0x43F)

/-- The points of a station that satisfy a test. -/
def State.lanePts (s : State) (p k : Nat) (f : DirEntry → Bool) : List Nat :=
  s.pointsWhere fun e => decide (e.srcType = .lane) && decide (lanePort e.srcRef = p) && decide (laneSta e.srcRef = k) && f e

/-- Mark a station's points. -/
def State.markLane (s : State) (p k : Nat) (f : DirEntry → Bool) (m : Byte → Byte) : State :=
  (s.lanePts p k f).foldl (fun s i => s.markPoint i m) s

/-- A LANE axis whose station is lost or whose drive reports a fault faults at the next profile boundary (R235). -/
def State.stationFault (s : State) (p k : Nat) (f : AxisDesc → Bool) : State :=
  (s.axesWhere fun a => a.applied && decide (a.desc.bind = .lane) && decide (a.desc.port = p) && decide (a.desc.station = k) && f a.desc &&
    decide (a.state ≠ .disabled) && decide (a.state ≠ .fault)).foldl (fun s n => s.updAxis n fun a => { a with faultNext := 4 }) s

/-- Every point of a port becomes COMM_LOST, and its LANE axes fault (R235). -/
def State.portLost (s : State) (p : Nat) : State :=
  let s1 := (s.pointsWhere fun e => decide (e.srcType = .lane) && decide (lanePort e.srcRef = p)).foldl (fun s i => s.markPoint i markCommLost) s
  (List.range 128).foldl (fun s k => if (s.sta p k).state ≠ .absent then (s.updSta p k fun x => { x with commLost := true }).stationFault p k fun _ => true else s) s1

/-- Clear STALE and COMM_LOST. -/
def markHeard (q : Byte) : Byte := (q &&& 0xF9) ||| qValid

/-! ### Fault injection (R326) -/

/-- The class and the station of a frame. Frames to all stations and IDENT name none. -/
def LaneFrame.cls : LaneFrame → Nat
  | .window _ | .aOut .. | .aIn .. => 0
  | .bOut .. | .bIn .. => 1
  | _ => 2
def LaneFrame.station : LaneFrame → Option Nat
  | .aOut k .. | .bOut k .. | .aIn k .. | .bIn k .. | .ack k .. => some k
  | .cfg k _ | .ctl (.cfg k) | .ctl (.cmd k _) => some k
  | _ => none

/-- A frame with its FCS inverted. -/
def LaneFrame.corrupt : LaneFrame → LaneFrame
  | .aIn k o f b d => .aIn k o (!f) b d
  | .bIn k f b d => .bIn k (!f) b d
  | .ident k f b => .ident k (!f) b
  | .ack k f a b => .ack k (!f) a b
  | .delayResp k f a b => .delayResp k (!f) a b
  | x => x

/-- Whether the port's rule matches a frame. -/
def injMatch (rule : Nat) (f : LaneFrame) (rx : Bool) : Bool :=
  (bitsN rule 7 7 == 1 || decide (f.station = some (bitsN rule 6 0))) &&
    (decide (bitsN rule 9 8 = 3) || decide (bitsN rule 9 8 = f.cls)) && nbit (bitsN rule 13 12) (if rx then 1 else 0)

/-- A frame passes the port's rule: what goes on, each with whether its FCS stays as it is, and the port after it. -/
def LPort.inject (x : LPort) (f : LaneFrame) (rx : Bool) (dly : Nat) : List (LaneFrame × Bool) × LPort :=
  let j := x.inj
  let rule := j.rule
  if !j.en || !injMatch rule f rx then ([(f, true)], x)
  else
    let m := max 1 (bitsN rule 31 24)
    let hit := decide (j.seen % m + 1 = bitsN rule 23 16)
    let j1 := { j with seen := (j.seen + 1) % m, affected := if hit then satInc 65535 j.affected else j.affected }
    let back := match j.held with
      | some (h, r) => if r = rx ∧ h.cls = f.cls then [(h, true)] else []
      | none => []
    let j2 := if back = [] then j1 else { j1 with held := none }
    if !hit then ((f, true) :: back, { x with inj := j2 })
    else
      match bitsN rule 11 10 with
      | 0 => (back, { x with inj := j2 })
      | 1 => ((f, false) :: back, { x with inj := j2 })
      | 2 => if back = [] then ([], { x with inj := { j2 with held := some (f, rx) } }) else ((f, true) :: back, { x with inj := j2 })
      | _ => (back, { x with inj := { j2 with delayed := j2.delayed ++ [(f, rx, dly)] } })

/-- LNE_INJ_DLY of a port. -/
def State.injDly (s : State) (p : Nat) : Nat := bits (s.regAt R.LNE_INJ_DLY (0x1000 * p)) 7 0

/-- The port sends a frame. -/
def State.laneSend (s : State) (p : Nat) (f : LaneFrame) : State :=
  s.updPort_ p fun x =>
    let (out, y) := x.inject f false (s.injDly p)
    { y with sent := y.sent ++ out }

/-- What a CFG frame tells a station (R320, Table LNE-5). -/
def State.cfgBody (s : State) (p k : Nat) : CfgBody :=
  let d := s.staDesc p k
  let x := s.sta p k
  { pos := x.pos, addr := k, holdLast := d.holdLast, wdN := d.wdN, holdTmo := d.holdTmo, aIn := d.aIn, aOut := d.aOut, bIn := d.bIn, bOut := d.bOut,
    cycleW := s.cycleW p, up := x.upOfs / 10, bound := x.bs / 10, delay := x.ds }

/-- A class C frame as the port sends it. -/
def State.ctlFrame (s : State) (p : Nat) : CFrame → LaneFrame
  | .cfg k => .cfg k (s.cfgBody p k)
  | f => .ctl f

/-- The port sends a class C frame and awaits its answer. -/
def State.laneCtl (s : State) (p : Nat) (f : CFrame) : State :=
  (s.laneSend p (s.ctlFrame p f)).updPort_ p fun x => { x with sentC := x.sentC ++ [f] }

/-! ### Images (R314) -/

/-- The bytes of a point's kind in an image. -/
def laneSize : Kind → Nat
  | .int32 => 4 | .q15 | .int16 => 2 | _ => 1

/-- A point's value from an image. -/
def laneRead (e : DirEntry) (img : List Byte) (o : Nat) : Word :=
  match e.kind with
  | .bit => word (b2n ((nth 0 img o).getLsbD (laneBit e.srcRef)))
  | .int32 => word (leNat ((img.drop o).take 4))
  | _ => wordI (sext 16 (leNat ((img.drop o).take 2)))

/-- Replace bytes of a list. -/
def putBytes (img : List Byte) (o : Nat) (bs : List Byte) : List Byte := img.take o ++ bs ++ img.drop (o + bs.length)

/-- A point's value in an image. -/
def laneWrite (e : DirEntry) (v : Word) (img : List Byte) (o : Nat) : List Byte :=
  match e.kind with
  | .bit => putBytes img o [BitVec.ofNat 8 (nput (nth 0 img o).toNat (laneBit e.srcRef % 8) (bit v 0))]
  | .int32 => putBytes img o (wordBytes v)
  | _ => putBytes img o ((wordBytes v).take 2)

/-- An output image: the station's output points over bytes that no point is bound to, which are free values (log 62). -/
def State.laneImage (s : State) (p k : Nat) (a : Bool) (len : Nat) : List Byte × State :=
  let (d, s1) := s.draw
  let base : List Byte := (List.range len).map fun i => (Config.freeWord (d + i)).extractLsb' 0 8
  let pts := s.lanePts p k fun e => e.output && decide (inImgA (laneOfs e.srcRef) = a)
  (pts.foldl (fun img i =>
    let e := s.point i
    laneWrite e (s.readPoint i).value img (if a then laneOfs e.srcRef - 0x400 else laneOfs e.srcRef)) base, { s1 with free := s.free + len })

/-- An input image reaches the station's points as one module frame (R72). -/
def State.laneInput (s : State) (p k : Nat) (a : Bool) (img : List Byte) (t : Nat) : State :=
  (s.lanePts p k fun e => !e.output && decide (inImgA (laneOfs e.srcRef) = a)).foldl (fun s1 i =>
    let e := s.point i
    (s1.pointWrite i (laneRead e img (if a then laneOfs e.srcRef - 0x400 else laneOfs e.srcRef)) qValid t).followPoint i s.tick) s

/-! ### Set-points of LANE axes (R235) -/

/-- The set-points of a station's drives for an apply instant in ns. -/
def State.setPoints (s : State) (p k : Nat) (remB : Bool) (t : Nat) : List SetPoint :=
  (s.axesWhere fun a => a.applied && decide (a.desc.bind = .lane) && decide (a.desc.port = p) && decide (a.desc.station = k) &&
    decide (a.desc.remB = remB) && decide (a.state ≠ .disabled)).map fun n =>
      let a := s.axis n
      let (p, v) := s.pathAt n (t * 2 / 5)
      { drive := a.desc.drive, pos := fix16 p, vel := truncQ (slopeUnits v) }

/-- What a station's drives return reaches their axes. -/
def State.driveStats (s : State) (p k : Nat) (l : List DriveStat) : State :=
  l.foldl (fun s d =>
    let mine : AxisDesc → Bool := fun x => decide (x.drive = d.drive)
    let s1 := (s.axesWhere fun a => a.applied && decide (a.desc.bind = .lane) && decide (a.desc.port = p) && decide (a.desc.station = k) &&
      mine a.desc).foldl (fun s n => s.updAxis n fun a => { a with stPos := some d.pos }) s
    if d.fault then s1.stationFault p k mine else s1) s

/-! ### Windows (R312–R315, R323) -/

/-- The start of the current window and of the current class B cycle of a port. -/
def State.winStart (s : State) : Nat := s.now - s.now % 31250
def State.cycStart (s : State) (p : Nat) : Nat := s.now - s.now % max 31250 (s.cycleNs p)

/-- Whether window frames run on a port. -/
def LPort.windows (x : LPort) : Bool := decide (x.state = .enum) || decide (x.state = .config) || decide (x.state = .running)

/-- The stations of a port in a state of the device's view. -/
def State.stasWhere (s : State) (p : Nat) (f : Sta → Bool) : List Nat := (List.range 128).filter fun k => f (s.sta p k)

/-- Whether a station has class A inputs or is a target of REMOTE entries, so that it sends A_IN frames (R315). -/
def State.sendsA (s : State) (p k : Nat) : Bool :=
  decide (0 < (s.staDesc p k).aIn) || s.remoteTgts.any fun r => decide (r.port = p) && decide (r.station = k)

/-- A station is heard (R323): a first good frame after loss is recorded and ends COMM_LOST of its outputs. -/
def State.heard (s : State) (p k : Nat) : State :=
  let x := s.sta p k
  if x.commLost && !x.failed then
    (((s.updSta p k fun x => { x with commLost := false }).markLane p k (fun e => e.output) markHeard).record .lne p 0x1115 [p, k]).staEvt p k
  else s

/-- The eight-byte events of an A_IN frame (R313). -/
def State.laneEvents (s : State) (p k : Nat) : Nat → List Byte → State
  | 0, _ => s
  | n + 1, bs =>
    let b0 := (nth 0 bs 0).toNat
    (s.stationEvent p k (b0 % 16) (b0 / 16) (nth 0 bs 1).toNat (leNat ((bs.drop 2).take 2) % 512) (leNat ((bs.drop 4).take 4))).laneEvents p k n
      (bs.drop 8)

/-- A bad FCS is counted. -/
def State.badFcs (s : State) (p : Nat) : State := s.updPort_ p fun x => { x with cntFcs := wrapInc x.cntFcs }

/-- An A_IN frame (R313, R315, R323): outside its slot it is late. -/
def State.recvA (s : State) (p k start : Nat) (fcs : Bool) (body : List Byte) (drv : List DriveStat) : State :=
  let x := s.sta p k
  let d := s.staDesc p k
  let n := (nth 0 body 0).toNat
  let lo := x.upOfs + x.ds
  if !fcs then s.badFcs p
  else if (s.lport p).state ≠ .running ∨ x.state = .absent ∨ 8 < n ∨ body.length < 4 + d.aIn + 8 * n then s
  else if start < lo ∨ x.arr < start + wire (8 + body.length) + 200 then s.updPort_ p fun y => { y with cntLate := wrapInc y.cntLate }
  else
    let s1 := (s.heard p k).updSta p k fun y => { y with aHeard := true, aMissed := false }
    let s2 := if x.aMissed then s1.markLane p k (fun e => e.output && inImgA (laneOfs e.srcRef)) markHeard else s1
    let s3 := s2.laneInput p k true ((body.drop 4).take d.aIn) s.winStart
    (s3.driveStats p k drv).laneEvents p k n (body.drop (4 + d.aIn))

/-- A command to a station, awaiting its ACK: 2 GO_OPERATIONAL, 3 GO_SAFE, 4 RESTART (Table LNE-2). -/
def State.staCommand (s : State) (p k code : Nat) : State := s.laneCtl p (.cmd k code)

/-- A B_IN frame (R313, R314, R323): status, image, and the device's view of the station. -/
def State.recvB (s : State) (p k : Nat) (fcs : Bool) (body : List Byte) (drv : List DriveStat) : State :=
  let x := s.sta p k
  let d := s.staDesc p k
  if !fcs then s.badFcs p
  else if (s.lport p).state ≠ .running ∨ x.state = .absent ∨ body.length < 8 + d.bIn ∨ 4 < (nth 0 body 0).toNat then s
  else
    let st := staOfCode (nth 0 body 0).toNat
    let s1 := (s.heard p k).updSta p k fun y =>
      { y with bHeard := true, missed := 0, stale := false, noOut := false, cause := (nth 0 body 1).toNat % 8,
               armsRx := leNat ((body.drop 2).take 2), epochDrops := leNat ((body.drop 4).take 2) }
    let s2 := if x.stale then s1.markLane p k (fun e => e.output && !inImgA (laneOfs e.srcRef)) markHeard else s1
    let t := s.cycStart p
    let s3 := ((s2.laneInput p k false ((body.drop 8).take d.bIn) t).setFrameT 2 (p * 128 + k) t).driveStats p k drv
    let s4 := s3.staTo p k st
    if st = .safe ∧ bit (s.lneCfg p) 2 ∧ !((s.lport p).sentC.contains (.cmd k 4)) then s4.staCommand p k 4 else s4

/-! ### Enumeration (R320) -/

/-- An IDENT body (Table LNE-5). -/
def parseIdent (b : List Byte) : Ident :=
  let n := fun (o k : Nat) => leNat ((b.drop o).take k)
  { vendor := n 0 4, product := n 4 4, serial := n 8 4, rev := n 12 2, aInMax := n 14 1, aOutMax := n 15 1, bInMax := n 16 2,
    bOutMax := n 18 2, tSin := n 20 2, tSout := n 22 2, prep := n 24 2, q := n 26 2, fwd := n 28 2, remote := n 30 2 }

/-- Enumeration begins: RESET_ALL and the first probe. -/
def State.startEnum (s : State) (p : Nat) : State :=
  let s1 := (s.portLost p).portTo p .enum
  let s2 := (List.range 128).foldl (fun s k => (s.staTo p k .absent).updSta p k fun _ => {}) s1
  let s3 := s2.updPort_ p fun x => { x with found := [], nFound := 0, sentC := [] }
  (s3.laneSend p (.ctl (.cmd 0xFFFF 1))).laneCtl p (.probe 0)

/-- The position that a descriptor takes among the stations found: by serial, or by position unless a serial match took it. -/
def State.matchSta (s : State) (p k : Nat) : Option Nat :=
  let d := s.staDesc p k
  let f := (s.lport p).found
  let bySer := fun (j : Nat) => let e := s.staDesc p j; if e.en && e.bySerial then (f.find? fun x => decide (x.2.ident.serial = e.serial)).map (·.1) else none
  if !d.en then none
  else if d.bySerial then bySer k
  else if (f.any fun x => decide (x.1 = d.pos)) && !((List.range 128).any fun j => decide (bySer j = some d.pos)) then some d.pos
  else none

/-- The matched stations take their places: identity and measured delay. -/
def State.placeStas (s : State) (p : Nat) (ks : List Nat) : State :=
  ks.foldl (fun s k =>
    match s.matchSta p k with
    | some pos =>
      let f := Tab.get {} (s.lport p).found pos
      let d := f.delay.getD 0
      ((s.staTo p k .enum).updSta p k fun _ => { state := .enum, pos := pos, ident := f.ident, ds := d, dsNow := d, commLost := true }).updPort_ p fun x =>
        { x with found := Tab.put {} x.found pos { f with sta := some k } }
    | none => s) s

/-- The enabled descriptors of a port. -/
def State.enabledStas (s : State) (p : Nat) : List Nat := (List.range 128).filter fun k => (s.staDesc p k).en

/-- The port turns OFF: sending stops and every point is COMM_LOST. -/
def State.portOff (s : State) (p : Nat) : State :=
  ((s.portLost p).portTo p .off).updPort_ p fun x =>
    { x with stopReq := false, sentC := [], outEpochs := [], outArms := [], inj := { x.inj with unlocked := false } }

/-- Once every matched station is OPERATIONAL or has failed, the port is RUNNING. -/
def State.settlePort (s : State) (p : Nat) : State :=
  if (s.lport p).state = .config ∧ (s.stasWhere p fun x => decide (x.state ≠ .absent) && !x.failed && decide (x.state ≠ .operational)) = []
  then s.portTo p .running else s

/-- Enumeration ends (R320, R324): matching, admission, and configuration of the matched stations. -/
def State.endEnum (s : State) (p : Nat) : State :=
  let en := s.enabledStas p
  let s1 := s.placeStas p en
  let gone := en.filter fun k => decide ((s1.sta p k).state = .absent)
  let s2 := gone.foldl (fun s k => (s.record .lne p 0x1112 [p, k]).staEvt p k) s1
  let lone := (s2.lport p).found.filter fun x => x.2.sta.isNone
  let s3 := lone.foldl (fun s x => (s.record .lne p 0x1113 [p, x.1, x.2.ident.serial]).irq .lne 9) s2
  let off := fun (s : State) (e k : Nat) => ((s.portOff p).laneResult p e k)
  if gone ≠ [] ∧ bit (s.lneCfg p) 1 then off s3 errMissing (gone.headD 0)
  else
    let (c, k, s4) := s3.readmit s3.remoteTgts s3.armSlots
    if c ≠ 0 then off s3 c k
    else
      let ms := en.filter fun k => decide ((s4.sta p k).state ≠ .absent)
      (ms.foldl (fun s k => s.laneCtl p (.cfg k)) ((s4.portTo p .config).laneResult p 0 0)).settlePort p

/-- Whether a port awaits an answer of a kind. -/
def LPort.awaits (x : LPort) (f : CFrame → Bool) : Bool := x.sentC.any f

/-- An IDENT frame answers the probe of its position. -/
def State.recvIdent (s : State) (p pos : Nat) (fcs : Bool) (body : List Byte) : State :=
  let x := s.lport p
  if !fcs then s.badFcs p
  else if !x.sentC.contains (.probe pos) ∨ body.length < 32 then s
  else
    let s1 := s.updPort_ p fun y =>
      { y with sentC := y.sentC.erase (.probe pos), found := Tab.put {} y.found pos { ident := parseIdent body }, nFound := pos + 1 }
    if x.state = .enum then (if pos < 127 then s1.laneCtl p (.probe (pos + 1)) else (List.range 128).foldl (fun s k => s.laneCtl p (.delayReq k)) s1)
    else s1.laneCtl p (.delayReq pos)

/-- A station found while the port runs: matched, admitted and configured, or reported (R320). -/
def State.addStation (s : State) (p pos : Nat) : State :=
  let ks := (s.enabledStas p).filter fun k => decide ((s.sta p k).state = .absent) && decide (s.matchSta p k = some pos)
  match ks with
  | [] => (s.record .lne p 0x1113 [p, pos, (Tab.get {} (s.lport p).found pos).ident.serial]).irq .lne 9
  | k :: _ =>
    let s1 := s.placeStas p [k]
    let (c, st, s2) := s1.readmit s1.remoteTgts s1.armSlots
    if c ≠ 0 then (s1.staTo p k .absent).laneResult p c st else s2.laneCtl p (.cfg k)

/-- A DELAY_RESP: D_s = (RTT − turnaround) / 2 (R320). A remeasured delay more than 100 ns above the admitted one drifts (R319). -/
def State.recvDelay (s : State) (p pos : Nat) (fcs : Bool) (rtt turn : Nat) : State :=
  let x := s.lport p
  if !fcs then s.badFcs p
  else if !x.sentC.contains (.delayReq pos) then s
  else
    let d := (rtt - turn) / 2
    let f := Tab.get {} x.found pos
    let s1 := s.updPort_ p fun y =>
      { y with sentC := y.sentC.erase (.delayReq pos), found := Tab.put {} y.found pos { f with delay := some d } }
    match x.state, f.sta with
    | .enum, _ => if (s1.lport p).awaits (fun c => match c with | .delayReq _ => true | _ => false) then s1 else s1.endEnum p
    | .running, none => if f.delay.isNone then s1.addStation p pos else s1
    | _, some k =>
      let s2 := s1.updSta p k fun y => { y with dsNow := d }
      let ds := (s.sta p k).ds
      if ds + 100 < d then (s2.record .lne p 0x1116 [p, k, ds, d]).raise .lne p 0x1116 .warn else s2
    | _, none => s1

/-- An ACK frame (Tables LNE-2, LNE-6, LNE-7). -/
def State.recvAck (s : State) (p k : Nat) (fcs : Bool) (typ res : Nat) : State :=
  let x := s.lport p
  if !fcs then s.badFcs p
  else
    let fail := fun (s : State) => ((s.updSta p k fun y => { y with failed := true, commLost := true }).markLane p k (fun _ => true) markCommLost).settlePort p
    let done := fun (s : State) (f : CFrame) => s.updPort_ p fun y => { y with sentC := y.sentC.erase f }
    if typ = 8 ∧ x.sentC.contains (.cfg k) then
      let s1 := done s (.cfg k)
      if res = 0 then ((s1.staTo p k .config).staCommand p k 2) else fail s1
    else if typ = 9 then
      match x.sentC.find? (fun c => match c with | .cmd j _ => decide (j = k) | _ => false) with
      | some (.cmd _ code) =>
        let s1 := done s (.cmd k code)
        match code with
        | 2 => if res = 0 then ((s1.staTo p k .operational).updSta p k fun y => { y with failed := false, bHeard := true }).settlePort p else fail s1
        | 3 => if res = 0 then (s1.staTo p k .safe).updSta p k fun y => { y with cause := 2 } else s1
        | 4 => if res = 0 then (s1.staTo p k .config).staCommand p k 2 else s1
        | _ => s1
      | _ => s
    else s

/-- A received frame that passed the injection rule. -/
def State.recvFrame (s : State) (p : Nat) (f : LaneFrame) : State :=
  match f with
  | .aIn k o c b d => s.recvA p k o c b d
  | .bIn k c b d => s.recvB p k c b d
  | .ident k c b => s.recvIdent p k c b
  | .ack k c a b => s.recvAck p k c a b
  | .delayResp k c a b => s.recvDelay p k c a b
  | _ => s

/-- A frame reaches a port in LANE mode that is not OFF. -/
def State.laneRecv (s : State) (p : Nat) (f : LaneFrame) : State :=
  if (s.hd .lne).pwr ≠ .on ∨ (s.lport p).eth ∨ !(s.lport p).windows then s
  else
    let (out, y) := (s.lport p).inject f true (s.injDly p)
    out.foldl (fun s x => s.recvFrame p (if x.2 then x.1 else x.1.corrupt)) (s.updPort_ p fun _ => y)

/-! ### The commands of a port's timing -/

/-- LANE_WINDOW_START (R312, R315, R326): rule changes and EN take effect; delayed frames are due; the window frame carries the epoch
and arm records that wait. -/
def execLaneWindowStart (p : Fin 8) (s : State) : Out :=
  .next (
    if !(s.lport p.val).windows then s
    else
      let tw := s.winStart
      let x := s.lport p.val
      let rule := (s.regAt R.LNE_INJ_RULE (0x1000 * p.val)).toNat
      let en := x.inj.enNext.getD x.inj.en
      let held := x.inj.delayed.filter fun d => decide (d.2.2 ≤ 1)
      let due := (List.range 3).flatMap fun c => held.filter fun d => decide (d.1.cls = c)
      let j := { x.inj with en := en, enNext := none, rule := rule, seen := if en && x.inj.en && decide (rule = x.inj.rule) then x.inj.seen else 0,
                            delayed := (x.inj.delayed.filter fun d => decide (1 < d.2.2)).map fun d => (d.1, d.2.1, d.2.2 - 1) }
      let fr : WinFrame := { tw := tw, epochs := x.outEpochs.take 16, arms := x.outArms.take 32 }
      let s1 := s.updPort_ p.val fun x =>
        { x with inj := j, frame := fr, outEpochs := x.outEpochs.drop 16, outArms := x.outArms.drop 32, sent := [] }
      let s2 := s1.laneSend p.val (.window fr)
      let s3 := (s2.stasWhere p.val fun y => decide (y.state ≠ .absent)).foldl (fun s k => s.updSta p.val k fun y => { y with aHeard := false }) s2
      due.foldl (fun s d => if d.2.1 then s.recvFrame p.val d.1 else s.updPort_ p.val fun y => { y with sent := y.sent ++ [(d.1, true)] }) s3)

/-- LANE_OUTPUT_READ (R315, R323, R235): all class A output points are read in one group and one A_OUT frame goes to each station with
class A outputs whose A_IN frame arrived. -/
def execLaneOutputRead (p : Fin 8) (s : State) : Out :=
  .next (
    if (s.lport p.val).state ≠ .running then s
    else
      let seq := s.winStart / 31250 % 2 ^ 32
      (s.stasWhere p.val fun x => decide (x.state = .operational)).foldl (fun s1 k =>
        let d := s.staDesc p.val k
        let sp := s.setPoints p.val k false (s.winStart + 31250)
        if (d.aOut = 0 ∧ sp = []) ∨ (s.sendsA p.val k ∧ !(s.sta p.val k).aHeard) then s1
        else
          let (img, s2) := s1.laneImage p.val k true d.aOut
          (s2.updSta p.val k fun x => { x with aOut := img }).laneSend p.val (.aOut k seq img sp)) s)

/-- LANE_WINDOW_END (R323): a station whose A_IN frame is missing has its class A image points STALE. -/
def execLaneWindowEnd (p : Fin 8) (s : State) : Out :=
  .next (
    if (s.lport p.val).state ≠ .running then s
    else
      (s.stasWhere p.val fun x => decide (x.state = .operational) && !x.aHeard).foldl (fun s1 k =>
        if s.sendsA p.val k then
          ((s1.updSta p.val k fun x => { x with aMissed := true }).markLane p.val k (fun e => inImgA (laneOfs e.srcRef)) markStale).updPort_ p.val
            fun y => { y with cntMiss := wrapInc y.cntMiss }
        else s1) s)

/-- A station unheard in the cycle that ended (R323). -/
def State.unheard (s : State) (p k : Nat) : State :=
  let lostN := bits (s.lneCfg p) 15 8
  let s1 := (s.updSta p k fun x => { x with missed := satInc 65535 x.missed, noOut := true, stale := true }).markLane p k
    (fun e => !inImgA (laneOfs e.srcRef)) markStale
  let s2 := s1.updPort_ p fun y => { y with cntMiss := wrapInc y.cntMiss }
  let n := (s2.sta p k).missed
  if n = lostN then
    let s3 := ((s2.updSta p k fun x => { x with commLost := true }).markLane p k (fun _ => true) markCommLost).stationFault p k fun _ => true
    (((s3.record .lne p 0x1114 [p, k, n]).irq .lne 10).routeEvt .lne 1 (p * 128 + k)).raise .lne p 0x1114 .alarm
  else s2

/-- LANE_CYCLE_START (R318, R323, R324): a stop takes effect; unheard stations are marked; every OPERATIONAL station gets its B_OUT. -/
def execLaneCycleStart (p : Fin 8) (s : State) : Out :=
  .next (
    let x := s.lport p.val
    if x.stopReq ∧ x.state ≠ .off then s.portOff p.val
    else if x.state ≠ .running then s
    else
      let exp := s.stasWhere p.val fun y => (decide (y.state = .operational) || decide (y.state = .safe)) && !y.failed
      let s1 := exp.foldl (fun s k => if (s.sta p.val k).bHeard then s else s.unheard p.val k) s
      let seq := s.now / max 31250 (s.cycleNs p.val) % 2 ^ 32
      exp.foldl (fun s2 k =>
        let y := s1.sta p.val k
        let s3 := s2.updSta p.val k fun y => { y with bHeard := false }
        if y.state ≠ .operational then s3
        else
          let sp := s.setPoints p.val k true (s.cycStart p.val + s.cycleNs p.val)
          if y.noOut then s3.laneSend p.val (.bOut k seq true [] sp)
          else
            let (img, s4) := s3.laneImage p.val k false (s.staDesc p.val k).bOut
            (s4.updSta p.val k fun y => { y with bOut := img }).laneSend p.val (.bOut k seq false img sp)) s1)

/-! ### Frames received -/

/-- A_IN_RX (R313, R315): `start` is when the first byte reached the port, in ns from the window start. -/
def execAInRx (p : Fin 8) (k : Fin 128) (start : Nat) (fcs : Bool) (body : List Byte) (drv : List DriveStat) (s : State) : Out :=
  .next (s.laneRecv p.val (.aIn k.val start fcs body drv))

/-- B_IN_RX (R313, R318). -/
def execBInRx (p : Fin 8) (k : Fin 128) (fcs : Bool) (body : List Byte) (drv : List DriveStat) (s : State) : Out :=
  .next (s.laneRecv p.val (.bIn k.val fcs body drv))

/-- IDENT_RX (R320): the station at a position answers its probe. -/
def execIdentRx (p : Fin 8) (pos : Fin 128) (fcs : Bool) (body : List Byte) (s : State) : Out :=
  .next (s.laneRecv p.val (.ident pos.val fcs body))

/-- LANE_ACK_RX (R321): TYPE acknowledged and result. -/
def execLaneAckRx (p : Fin 8) (k : Fin 128) (fcs : Bool) (typ res : Nat) (s : State) : Out :=
  .next (s.laneRecv p.val (.ack k.val fcs typ res))

/-- DELAY_RESP_RX (R320): the station at a position answers, with the round trip time and its turnaround in ns. -/
def execDelayRespRx (p : Fin 8) (pos : Fin 128) (fcs : Bool) (rtt turn : Nat) (s : State) : Out :=
  .next (s.laneRecv p.val (.delayResp pos.val fcs rtt turn))

/-- FOREIGN_FRAME_RX (R310): another EtherType is counted. -/
def execForeignFrameRx (p : Fin 8) (s : State) : Out :=
  .next (if (s.hd .lne).pwr ≠ .on ∨ (s.lport p.val).eth ∨ (s.lport p.val).state = .off then s
    else s.updPort_ p.val fun x => { x with cntForeign := wrapInc x.cntForeign })

/-! ### Commands (R319, R321, R324) -/

/-- LNE_START (R324): admission, then LINK_WAIT, or link up at once. -/
def execLneStart (p : Principal) (n : Fin 8) (s : State) : Out :=
  .next (s.gated .lne (0x1000 * (n.val + 1) + 0x10) .wo p 1 fun s =>
    let x := s.lport n.val
    let eth := bit (s.lneCfg n.val) 0
    if x.state ≠ .off ∨ !(s.hd .lne).run then s.laneResult n.val errPortState 0
    else if eth then
      let s1 := (s.updPort_ n.val fun x => { x with eth := true, stopReq := false }).laneResult n.val 0 0
      if x.link then s1.portTo n.val .ethUp else s1
    else
      let (c, k, s1) := s.readmit s.remoteTgts s.armSlots
      if c ≠ 0 then s.laneResult n.val c k
      else
        let s2 := ((s1.updPort_ n.val fun x => { x with eth := false, stopReq := false }).portTo n.val .linkWait).laneResult n.val 0 0
        if x.link then s2.startEnum n.val else s2)

/-- LNE_STOP (R324): the port turns OFF at the next cycle start; in Ethernet mode, where no cycle runs, at once. -/
def execLneStop (p : Principal) (n : Fin 8) (s : State) : Out :=
  .next (s.gated .lne (0x1000 * (n.val + 1) + 0x10) .wo p 2 fun s =>
    let s1 := if (s.lport n.val).eth then (s.portOff n.val).updPort_ n.val fun x => { x with eth := false }
      else s.updPort_ n.val fun x => { x with stopReq := decide (x.state ≠ .off) }
    s1.laneResult n.val 0 0)

/-- LNE_REENUM (R324, R319). -/
def execLneReenum (p : Principal) (n : Fin 8) (s : State) : Out :=
  .next (s.gated .lne (0x1000 * (n.val + 1) + 0x10) .wo p 3 fun s =>
    if (s.lport n.val).state ≠ .running then s.laneResult n.val errPortState 0
    else
      let (c, k, s1) := s.readmit s.remoteTgts s.armSlots
      if c ≠ 0 then s.laneResult n.val c k else (s1.laneResult n.val 0 0).startEnum n.val)

/-- A station command of LNE_STA_CMD, allowed while the port is RUNNING. -/
def State.staCmd (s : State) (p : Principal) (n k code v : Nat) : State :=
  s.gated .lne (0x1000 * (n + 1) + 0x14) .wo p (word (k + 256 * v)) fun s =>
    if (s.lport n).state ≠ .running then s.laneResult n errPortState k else (s.staCommand n k code).laneResult n 0 k

/-- STA_RESTART, STA_GO_SAFE (R321, R323). -/
def execStaRestart (p : Principal) (n : Fin 8) (k : Fin 128) (s : State) : Out := .next (s.staCmd p n.val k.val 4 1)
def execStaGoSafe (p : Principal) (n : Fin 8) (k : Fin 128) (s : State) : Out := .next (s.staCmd p n.val k.val 3 2)

/-- PROBE_TIMEOUT (R320): a probe went unanswered for 100 µs. In ENUM the delays are measured next; with no station found enumeration
ends. -/
def execProbeTimeout (p : Fin 8) (s : State) : Out :=
  .next (
    let x := s.lport p.val
    let isProbe : CFrame → Bool := fun c => match c with | .probe _ => true | _ => false
    if !x.awaits isProbe then s
    else
      let s1 := s.updPort_ p.val fun x => { x with sentC := x.sentC.filter fun c => !isProbe c }
      if x.state ≠ .enum then s1
      else if x.nFound = 0 then s1.endEnum p.val
      else (List.range x.nFound).foldl (fun s k => s.laneCtl p.val (.delayReq k)) s1)

/-- DELAY_REMEASURE (R320): every second while RUNNING. -/
def execDelayRemeasure (p : Fin 8) (s : State) : Out :=
  .next (
    if (s.lport p.val).state ≠ .running then s
    else ((s.lport p.val).found.filter fun x => x.2.sta.isSome).foldl (fun s x => s.laneCtl p.val (.delayReq x.1)) s)

/-- NEW_STATION_PROBE (R320): once per second while RUNNING, at the end of the line. -/
def execNewStationProbe (p : Fin 8) (s : State) : Out :=
  .next (
    let x := s.lport p.val
    if x.state ≠ .running ∨ 128 ≤ x.nFound then s else s.laneCtl p.val (.probe x.nFound))

/-- LANE_LINK_UP (R324). -/
def execLaneLinkUp (p : Fin 8) (s : State) : Out :=
  .next (
    if (s.hd .lne).pwr ≠ .on then s
    else
      let s1 := s.updPort_ p.val fun x => { x with link := true }
      let x := s1.lport p.val
      if x.eth ∧ x.state = .off then s1.portTo p.val .ethUp
      else if x.state = .linkWait then (if x.eth then s1.portTo p.val .ethUp else s1.startEnum p.val) else s1)

/-- LANE_LINK_DOWN (R324): every point of the port COMM_LOST, LINK_LOST, ALARM. -/
def execLaneLinkDown (p : Fin 8) (s : State) : Out :=
  .next (
    let s1 := s.updPort_ p.val fun x => { x with link := false }
    let x := s1.lport p.val
    if x.windows ∨ x.state = .ethUp then
      let s2 := ((s1.portLost p.val).portTo p.val .linkWait).updPort_ p.val fun x => { x with sentC := [] }
      (s2.record .lne p.val 0x1117 [p.val]).raise .lne p.val 0x1117 .alarm
    else s1)

/-! ### Fault injection registers (R326) -/

/-- LNE_INJ_UNLOCK: only in COMMISSIONING or with SYS_DEBUG.UNLOCKED. -/
def execLneInjUnlock (p : Principal) (n : Fin 8) (s : State) : Out :=
  .next (s.gated .lne (0x1000 * (n.val + 1) + 0x40) .w1s p 1 fun s =>
    if s.debugOpen then s.updPort_ n.val fun x => { x with inj := { x.inj with unlocked := true } } else s.err .lne errLneInjLocked)

/-- LNE_INJ_EN: in effect at the next window start; every change of EN writes INJ. -/
def execLneInjEn (p : Principal) (n : Fin 8) (en : Bool) (s : State) : Out :=
  .next (s.gated .lne (0x1000 * (n.val + 1) + 0x4C) .rw p (word (b2n en)) fun s =>
    let j := (s.lport n.val).inj
    let old := j.enNext.getD j.en
    if en && !j.unlocked then s.err .lne errLneInjLocked
    else if en && decide (s.portPend n.val ≠ 0) then s.err .lne errLneInjPending
    else if en = old then s
    else
      (s.updPort_ n.val fun x => { x with inj := { x.inj with enNext := some en } }).record .lne n.val 0x1118
        [n.val, b2n en, 0, (s.regAt R.LNE_INJ_RULE (0x1000 * n.val)).toNat])

/-! ### Commits (R319, R327) -/

/-- The ranges of a station descriptor. -/
def StaDesc.ok (d : StaDesc) : Bool :=
  (!d.en || decide (2 ≤ d.wdN)) && decide (d.bOut ≤ 1024) && decide (d.bIn ≤ 1024) && decide (d.aOut ≤ 64) && decide (d.aIn ≤ 64) &&
    (!d.holdLast || (decide (1 ≤ d.holdTmo) && decide (d.holdTmo ≤ 60000)))

/-- Whether a committed binding lies beyond the images of a descriptor (IMAGE_IN_USE). -/
def State.imageUsed (s : State) (p k : Nat) (d : StaDesc) : Bool :=
  s.ptd.dir.any fun e => decide (e.2.kind ≠ .none) && decide (e.2.srcType = .lane) && decide (lanePort e.2.srcRef = p) && decide (laneSta e.2.srcRef = k) &&
    (let o := laneOfs e.2.srcRef
     let size := laneSize e.2.kind
     if inImgA o then decide ((if e.2.output then d.aOut else d.aIn) < o - 0x400 + size)
     else decide ((if e.2.output then d.bOut else d.bIn) < o + size))

/-- The check of LNE's shadows: 0 where it passes. -/
def State.lneCommitCheck (s : State) : Nat :=
  let all := (List.range 8).flatMap fun p => (List.range 128).map fun k => (p, k)
  let ch := all.filter fun x => decide (s.staShadow x.1 x.2 ≠ s.staDesc x.1 x.2)
  let moved := fun (a b : StaDesc) => decide ((a.bySerial, a.pos, a.serial, a.bOut, a.bIn, a.aOut, a.aIn) ≠ (b.bySerial, b.pos, b.serial, b.bOut, b.bIn, b.aOut, b.aIn))
  let shrunk := fun (a b : StaDesc) => decide (b.bOut < a.bOut) || decide (b.bIn < a.bIn) || decide (b.aOut < a.aOut) || decide (b.aIn < a.aIn)
  let active := fun (x : Nat × Nat) => let st := (s.sta x.1 x.2).state; decide ((s.lport x.1).state ≠ .off) && (decide (st = .config) || decide (st = .operational))
  if ch.any fun x => !(s.staShadow x.1 x.2).ok then errCommitRefused
  else if ch.any fun x => active x && moved (s.staDesc x.1 x.2) (s.staShadow x.1 x.2) then errStaActive
  else if ch.any fun x => shrunk (s.staDesc x.1 x.2) (s.staShadow x.1 x.2) && s.imageUsed x.1 x.2 (s.staShadow x.1 x.2) then errImageInUse
  else (s.admitAll s.staShadow s.remoteTgts s.armSlots s.cycleW).1

/-- LNE's shadows apply: a station whose EN clears is sent GO_SAFE and its points become COMM_LOST. -/
def State.lneCommitApply (s : State) : State :=
  let all := (List.range 8).flatMap fun p => (List.range 128).map fun k => (p, k)
  let off := all.filter fun x => (s.staDesc x.1 x.2).en && !(s.staShadow x.1 x.2).en
  let s1 := s.applyShadows .lne
  let s2 := off.foldl (fun s x =>
    if (s.sta x.1 x.2).state = .absent then s
    else (((((s.laneSend x.1 (.ctl (.cmd x.2 3))).markLane x.1 x.2 (fun _ => true) markCommLost)).stationFault x.1 x.2 fun _ => true).staTo x.1 x.2 .absent).updSta x.1 x.2 fun _ => {}) s1
  (s2.readmit s2.remoteTgts s2.armSlots).2.2

/-- RUN = 0 stops every port at its next cycle start (R324). -/
def State.lneRunStop (s : State) : State :=
  let s1 := (List.range 8).foldl (fun s p =>
    if (s.lport p).state = .off then s
    else if (s.lport p).eth then (s.portOff p).updPort_ p fun x => { x with eth := false }
    else s.updPort_ p fun x => { x with stopReq := true }) s
  s1

/-- A fence, a power-down or a reset turns every port OFF at once with its points COMM_LOST (R324). -/
def State.laneAllOff (s : State) : State :=
  let s1 := (List.range 8).foldl (fun s p => if (s.lport p).state = .off then s else s.portOff p) s
  { s1 with lne := {} }

end Sys2Proof.Machine
end

