-- ==== Sys2Proof/Machine/Rsq.lean ====
section
/-!
DEFINITION. The recipe sequencer (R159–R184): step commits, conditions, entry actions, decisions, stream commands, checkpoints and the resume
check.
-/

namespace Sys2Proof.Machine

/-- A write to memory that belongs to a block passes the block's gate (R44, R48, R42). `lockable` says that the lock holds the field. -/
def State.gatedMem (s : State) (b : Block) (addr : Nat) (lockable : Bool) (p : Principal) (v : Word) (f : State → State) : State :=
  if !s.present b then s.tellPrincipal p b.code errBlockAbsent addr
  else if !s.permits p b.code then (s.deny b (addr % 0x10000) p v).storeFault p b errAccessDenied addr
  else if (s.hd b).lock && lockable then s.err b errRegLocked
  else f s

/-- Whether R161 lets RSQ evaluate streams. -/
def State.rsqReady (s : State) : Bool := decide (s.xng.mode ≠ .none)

/-! ### Fields of a step entry (Table RSQ-1) -/

def stepField (cur : List Word) (w hi lo : Nat) : Nat := bits (nth 0 cur w) hi lo

/-- A branch kind (Table RSQ-2) and its target of decision 1 END, 2 TIMEOUT, 3 ALARM. -/
def branchOf (cur : List Word) (dec : Nat) : Nat × Nat :=
  match dec with
  | 1 => (stepField cur 0 21 20, stepField cur 3 15 0)
  | 2 => (stepField cur 0 23 22, stepField cur 3 31 16)
  | _ => (stepField cur 0 25 24, stepField cur 4 15 0)

/-- A condition of an entry: its two words (Table RSQ-3). -/
def condWords (cur : List Word) (j : Nat) : Word × Word := (nth 0 cur (8 + 2 * j), nth 0 cur (9 + 2 * j))

/-! ### Step commits (R162–R167) -/

/-- The format of a condition (Tables RSQ-3, RSQ-4). -/
def condFormat (c0 c1 : Word) : Bool :=
  let op := bits c0 6 4
  let pt := bits c0 27 9
  decide (bits c0 31 28 = 0) &&
    (match bits c0 2 0 with
     | 0 => decide (op = 0) && decide (c1 = 0)
     | 1 => decide (op ≤ 5) && (!bit c0 8 || decide (c1.toNat < 64))
     | 2 => decide (op = 0)
     | 3 => decide (op ≤ 2) && decide (c1 = 0)
     | 4 => decide (op = 0) && decide (pt = 0) && decide (c1.toNat < 64)
     | 5 => decide (op = 0) && decide (pt = 0) && decide (c1.toNat < 32)
     | _ => false)

/-- Whether a condition names a point. -/
def condPoint (c0 : Word) : Option Nat :=
  match bits c0 2 0 with | 1 | 2 | 3 => some (bits c0 27 9) | _ => none

/-- The format of an action record (Tables RSQ-5, RSQ-6). -/
def rsqActFormat (a0 a1 : Word) : Bool :=
  let t := bits a0 29 11
  !bit a0 30 &&
    (match bits a0 3 0 with
     | 0 => decide (t = 0) && decide (a1 = 0)
     | 1 => true
     | 2 => decide (t < 1024)
     | 3 => decide (t < 1024) && (decide (bits a1 14 12 ≤ 4) || decide (bits a1 14 12 = 7))
     | 4 => decide (t < 256)
     | 5 => decide (t < 512)
     | 6 => decide (t = 0)
     | 7 => decide (a1 = 0)
     | _ => false)

/-- Whether RSQ may write a point (R167). -/
def rsqWritable (e : DirEntry) : Bool :=
  (match e.kind with | .q15 | .int16 | .int32 | .bit => true | _ => false) && decide (e.srcType ≠ .saf) &&
    (decide (e.cls = .b) || decide (e.cls = .c)) && (decide (e.srcType = .internal) || e.output)

/-- The point that an action writes, and the point that it reads. -/
def State.actTarget (s : State) (a0 : Word) : Option Nat :=
  match bits a0 3 0 with
  | 1 => some (bits a0 29 11)
  | 2 => let d := s.loop (bits a0 29 11); if d.law ≠ .none ∧ d.spSrc = 1 then some d.spPt else none
  | _ => none

/-- The check of an editing entry (R162–R167, Table RSQ-15). `ws` is the entry and `acts` its action records. -/
def State.stepCheck (s : State) (n step : Nat) (ws : List Word) (acts : List (Word × Word)) : Nat :=
  let x := s.stream n
  let f := stepField ws
  let cs := (List.range 4).map (condWords ws)
  let brs := (List.range 3).map fun k => branchOf ws (k + 1)
  let none_ := fun p => decide ((s.dirEntry p).kind = .none)
  if f 0 18 17 = 3 ∨ f 0 19 19 ≠ 0 ∨ f 0 31 26 ≠ 0 ∨ f 5 31 22 ≠ 0 ∨ f 6 31 0 ≠ 0 ∨ f 7 28 0 ≠ 0 ∨ 32 < f 5 21 16 ∨
      65536 < f 5 15 0 + f 5 21 16 ∨ (f 2 31 0 ≠ 0 ∧ f 2 31 0 < f 1 31 0) ∨
      brs.any (fun b => decide (b.1 ≠ 0) && decide (b.2 ≠ 0)) ∨ cs.any (fun c => !condFormat c.1 c.2) ∨
      acts.any (fun a => !rsqActFormat a.1 a.2) then errBadStep
  else if x.stepCount ≤ step ∨ brs.any (fun b => decide (b.1 = 0) && decide (x.stepCount ≤ b.2)) then errStepRange
  else if cs.any (fun c => match condPoint c.1 with | some p => none_ p | none => false) ||
      acts.any (fun a => decide (bits a.1 3 0 = 7) && none_ (bits a.1 29 11)) then errPointNone
  else if acts.any (fun a => match s.actTarget a.1 with | some p => !rsqWritable (s.dirEntry p) | none => false) then errPointWrite
  else 0

/-- The action records of an entry in an area. -/
def State.actWords (s : State) (base : Nat) (ws : List Word) : List (Word × Word) :=
  (List.range (stepField ws 5 21 16)).map fun k =>
    (s.mem32 (actAddr base (stepField ws 5 15 0 + k)), s.mem32 (actAddr base (stepField ws 5 15 0 + k) + 4))

/-- The end of a step commit: RSQ_STEP_STAT, STEP_DONE and the record (R162, R184). -/
def State.stepResult (s : State) (n step r : Nat) : State :=
  let s1 := s.updRsq fun q => { q with stepBusy := none, stepStream := n, stepNo := step, stepResult := r }
  if r = 0 then (s1.record .rsq 0 0x0B16 [n, step]).irq .rsq 8
  else ((s1.err .rsq r).record .rsq 0 0x0B17 [n, step, errWord .rsq r]).irq .rsq 8

/-- RSQ_STEP_GO (R162): the commit starts; a GO while one runs is discarded; an entry without COMMIT is refused (R40). -/
def execRsqStepGo (p : Principal) (n : Fin 64) (step : BitVec 16) (s : State) : Out :=
  .next (s.gated .rsq 0x108 .wo p (word (n.val + 65536 * step.toNat)) fun s =>
    if s.rsq.loading then s.err .rsq errCkptLoading
    else
      match s.rsq.stepBusy with
      | some _ => s.err .rsq errCommitBusy
      | none =>
        let a := stepAddr (s.stream n.val).editBase step.toNat
        if !inSdram s a 64 then s.stepResult n.val step.toNat errBlockAbsent
        else if bit (s.mem32 (a + 28)) 31 then
          (s.store32 (a + 28) (setBit (s.mem32 (a + 28)) 30)).updRsq fun q => { q with stepBusy := some (n.val, step.toNat) }
        else s.stepResult n.val step.toNat errCommitRefused)

/-- STEP_COMMIT_DONE (R162): check and copy of the entry in progress end. -/
def execStepCommitDone (s : State) : Out :=
  .next (
    match s.rsq.stepBusy with
    | none => s
    | some (n, step) =>
      let x := s.stream n
      let ws := s.entryWords x.editBase step
      let acts := s.actWords x.editBase ws
      let r := s.stepCheck n step ((ws.take 7) ++ [nth 0 ws 7 &&& 0x1FFFFFFF] ++ ws.drop 8) acts
      let s1 := s.clearCommit (stepAddr x.editBase step + 28)
      if r ≠ 0 then s1.stepResult n step r
      else if !inSdram s (stepAddr x.actBase step) 64 then s1.stepResult n step errBlockAbsent
      else
        let w7 : Word := setBit (nth 0 ws 7 &&& 0x1FFFFFFF) 29
        let s2 := s1.store (stepAddr x.actBase step) (((ws.take 7) ++ [w7] ++ ws.drop 8).flatMap wordBytes)
        let s3 := s2.store (actAddr x.actBase (stepField ws 5 15 0)) ((acts.flatMap fun a => [a.1, a.2]).flatMap wordBytes)
        s3.stepResult n step 0)

/-- STEP_PREFETCH_DONE (R171). -/
def execStepPrefetchDone (n : Fin 64) (s : State) : Out := .next (s.updStream n.val fun x => { x with prefetched := true })

/-! ### Conditions and decisions (R165, R166, R170) -/

/-- A comparison (Table RSQ-3). -/
def cmpOp (op : Nat) (a b : Int) : Bool :=
  match op with
  | 0 => decide (b < a) | 1 => decide (b ≤ a) | 2 => decide (a < b) | 3 => decide (a ≤ b) | 4 => decide (a = b) | _ => decide (a ≠ b)

/-- One condition in one evaluation: the stream with its counts, references and latches, and whether the condition is true. -/
def State.condEval (s : State) (x : Stream) (j : Nat) : Stream × Bool :=
  let (c0, c1) := condWords x.cur j
  let pt := bits c0 27 9
  let bad := s.ptBad pt
  let v := s.ptVal pt
  let latch := fun (x : Stream) (b : Bool) =>
    let l := nbit x.latched j || b
    ({ x with latched := nput x.latched j l }, l)
  match bits c0 2 0 with
  | 1 =>
    let r := if bit c0 8 then (x.var (c1.toNat % 64)).toInt else c1.toInt
    (x, if bad then bit c0 7 else cmpOp (bits c0 6 4) v r)
  | 2 =>
    let inBand := decide ((v - (x.var (bits c1 5 0)).toInt).natAbs ≤ (x.var (bits c1 11 6)).toInt) && !bad
    let cnt := if inBand then Tab.get 0 x.inband j + 1 else 0
    let x1 := { x with inband := Tab.put 0 x.inband j cnt }
    (x1, if bad then bit c0 7 else decide (max 1 (bits c1 31 12) ≤ cnt))
  | 3 =>
    if bad then latch x false
    else
      let x1 := { x with edge := Tab.put none x.edge j (some v) }
      match Tab.get none x.edge j with
      | none => latch x1 false
      | some u =>
        let rise := decide (u = 0) && decide (v ≠ 0)
        let fall := decide (u ≠ 0) && decide (v = 0)
        latch x1 (match bits c0 6 4 with | 0 => rise | 1 => fall | _ => rise || fall)
  | 4 => latch x (if c1.toNat < 32 then bit s.acq.flag0 c1.toNat else bit s.acq.flag1 (c1.toNat - 32))
  | 5 => latch x (bit x.stflag c1.toNat)
  | _ => (x, false)

/-- The four conditions: the stream and a mask of those that are true. -/
def State.condsEval (s : State) (x : Stream) : Stream × Nat :=
  (List.range 4).foldl (fun a j => let (x1, b) := s.condEval a.1 j; (x1, nput a.2 j b)) (x, 0)

/-- The lowest condition of a role that is true; 0 where there is none. -/
def firstTrue (cur : List Word) (m : Nat) (alarm : Bool) : Nat :=
  ((List.range 4).find? fun j => nbit m j && decide (bit (condWords cur j).1 3 = alarm)).getD 0

/-- The decision that an evaluation reaches (R170), with the index of its condition: 0 none, 1 END, 2 TIMEOUT, 3 ALARM. -/
def decision (cur : List Word) (m elapsed : Nat) : Nat × Nat :=
  let ends := (List.range 4).filter fun j => decide (bits (condWords cur j).1 2 0 ≠ 0) && !bit (condWords cur j).1 3
  let alarm := (List.range 4).any fun j => nbit m j && bit (condWords cur j).1 3
  let comb := ends = [] ∨ (if bit (nth 0 cur 0) 16 then ends.any (fun j => nbit m j) else ends.all fun j => nbit m j)
  if alarm then (3, firstTrue cur m true)
  else if (nth 0 cur 1).toNat ≤ elapsed ∧ comb then (1, firstTrue cur m false)
  else if (nth 0 cur 2).toNat ≠ 0 ∧ (nth 0 cur 2).toNat ≤ elapsed then (2, 0)
  else (0, 0)

/-! ### Faults, actions and entries -/

/-- STREAM_FAULT (R173). -/
def State.sFault (s : State) (n e : Nat) : State :=
  let s1 := s.sstate n .fault 0 fun x => { x with held := 0, heldCond := 0, check := .none }
  ((s1.record .rsq 0 0x0B19 [n, (s.stream n).step, errWord .rsq e]).err .rsq e).raise .rsq 0 0x0B19 .alarm

/-- Add to the write list of the evaluation (R140). -/
def State.logWrite (s : State) (w : StreamWrite) : State := s.updRsq fun r => { r with writes := r.writes ++ [w] }

/-- One entry action (R167, R168): the state after it and the target's error code of a refusal, or 0. `t` is the tick of the evaluation and `snap`
the state that the evaluation's group read saw. -/
def State.doAction (s snap : State) (n : Nat) (a : Word × Word) : State × Nat :=
  let (a0, a1) := a
  let x := s.stream n
  let tgt := bits a0 29 11
  let val : Word := if bit a0 10 then x.var (bits a0 9 4) else a1
  let full := fun (b : Block) (e : Nat) => if e = 0 then 0 else errWord b e
  match bits a0 3 0 with
  | 1 => ((s.logWrite (.point tgt val.toNat)).driveOut tgt val.toInt, 0)
  | 2 =>
    let d := s.loop tgt
    if d.law = .none ∨ d.spSrc ≠ 1 then (s.err .ce errModeRefused, errWord .ce errModeRefused)
    else
      let s1 := (s.logWrite (.point d.spPt (BitVec.ofInt 32 (sext 16 (bits val 15 0))).toNat)).driveOut d.spPt (sext 16 (bits val 15 0))
      if bits a1 31 16 = 0 then (s1, 0)
      else let s2 := (s1.logWrite (.ramp tgt (bits a1 31 16))).rampCmd tgt (bits a1 31 16); (s2, full .ce s2.ce.supResult)
  | 3 =>
    let m : Option LMode := match bits a1 14 12 with
      | 0 => some .off | 1 => some .manual | 2 => some .auto | 3 => some .cascade | 4 => some .safe | _ => none
    let s1 := (s.logWrite (.mode tgt a1.toNat)).modeCmd tgt m (if bit a1 15 then some (sext 16 (bits a1 31 16)) else none) 1
    (s1, full .ce s1.ce.modeResult)
  | 4 =>
    let s0 := s.logWrite (.arm tgt a1.toNat)
    let r := if bits a1 1 0 = 3 then (s0.err .csc errBadAction, errBadAction, 0)
      else if bits a1 1 0 = 2 then s0.cancelReq tgt (s.now * 2 / 5)
      else s0.armReq tgt (decide (bits a1 1 0 = 1)) (if bits a1 1 0 = 1 then some s.now else none) true s.now
    (r.1, full .csc r.2.1)
  | 5 => ((s.logWrite (.flags tgt a1.toNat)).orFlags tgt a1, 0)
  | 6 => (s.updStream n fun x => { x with vars := Tab.put 0 x.vars (bits a0 9 4) a1 }, 0)
  | 7 => (s.updStream n fun x => { x with vars := Tab.put 0 x.vars (bits a0 9 4) (snap.readPoint tgt).value }, 0)
  | _ => (s, 0)

/-- A list of actions in order (R168): a refused one writes ACT_FAIL with WARN, or ALARM with HOLD_ON_FAIL; then the list continues. The second
component says that a failing action had HOLD_ON_FAIL. -/
def State.doActions (s snap : State) (n first : Nat) (acts : List (Word × Word)) : State × Bool :=
  let r := acts.foldl (fun (r : State × Bool × Nat) a =>
    let (s, hold, k) := r
    let (s1, e) := s.doAction snap n a
    if e = 0 then (s1, hold, k + 1)
    else
      let s2 := s1.record .rsq 0 0x0B13 [n, (s.stream n).step, first + k, e]
      (s2.raise .rsq 0 0x0B13 (if bit a.1 31 then .alarm else .warn), hold || bit a.1 31, k + 1)) (s, false, 0)
  (r.1, r.2.1)

/-- The task-flag bits that a step's TFLAG conditions reference (R166). -/
def tflagMask (cur : List Word) : Word :=
  (List.range 4).foldl (fun m j =>
    let (c0, c1) := condWords cur j
    if bits c0 2 0 = 5 then setBit m (c1.toNat % 32) else m) 0

/-- The current step's counts, references, latches and held decision start anew. -/
def Stream.fresh (x : Stream) (ws : List Word) (elapsed : Nat) : Stream :=
  { x with cur := ws, elapsed := elapsed, held := 0, heldCond := 0, conds := 0, latched := 0, inband := [], edge := [], prefetched := false,
           stflag := x.stflag &&& ~~~ (tflagMask ws) }

/-- A step is entered (R166, R168, R175): STEP_ENTER, the task-flag clear, the entry actions, the event bit, the checkpoint. The raises of the actions
and of the event bit fall in one tick (R402). A step that is not VALID puts the stream in FAULT. `cause` is that of STEP_ENTER; `actions` is false where a resume at a boundary performs none. -/
def State.enterStep (s : State) (n step cause : Nat) : State :=
  if !s.stepValid n step then s.sFault n errStepInvalid
  else
    let base := (s.stream n).actBase
    let ws := s.entryWords base step
    let s1 := s.updStream n fun x => { (x.fresh ws 0) with step := step }
    let s2 := s1.record .rsq 0 0x0B10 [n, step, stepField ws 0 15 0, cause]
    let (s3, hold) := s2.doActions s n (stepField ws 5 15 0) (s.actWords base ws)
    let s4 := (s3.rsqEvt n).evalMet.ckptMark n
    if hold && (s4.stream n).runs then s4.sHold n 0 else s4

/-- The abort list (Table RSQ-10), performed as R168 says. -/
def State.abortList (s : State) (n : Nat) : State :=
  let x := s.stream n
  let w := x.word 0x00C
  let acts := (List.range (min 32 (bits w 21 16))).map fun k =>
    (s.mem32 (actAddr x.actBase (bits w 15 0 + k)), s.mem32 (actAddr x.actBase (bits w 15 0 + k) + 4))
  (s.doActions s n (bits w 15 0) acts).1.evalMet

/-- A decision is performed (R164, R170, Table RSQ-10) by the branch of its kind; kind HOLD records BRANCH. -/
def State.branch (s : State) (n dec cond : Nat) : State :=
  let x := s.stream n
  let (kind, target) := branchOf x.cur dec
  let s2 := (if dec = 1 then s else s.rsqAlm n).updStream n fun x => { x with held := 0, heldCond := 0 }
  let cause := dec - 1
  if x.state = .park then
    match kind with
    | 0 => s2.enterStep n target cause
    | 3 => s2.enterStep n x.parkStep 5
    | _ => (s2.updStream n fun x => { x with parked := true }).ckptMark n
  else
    match kind with
    | 0 =>
      if x.state = .pause then
        s2.sstate n .hold 0 fun x => { x with atBoundary := true, chosen := target, latched := 0, inband := [], edge := [] }
      else s2.enterStep n target cause
    | 1 => s2.sstate n .done 0 fun x => x
    | 2 => ((s2.sHold n 0).record .rsq 0 0x0B12 [n, x.step, dec, cond]).raise .rsq 0 0x0B12 .alarm
    | _ =>
      if s2.stepValid n x.parkStep then (s2.sstate n .park 0 fun x => { x with parked := false }).enterStep n x.parkStep 5
      else s2.sFault n errStepInvalid

/-! ### The resume check (R178–R181) -/

/-- The words of a checkpoint buffer. -/
def State.ckptWords (s : State) (n buf : Nat) : List Word := s.retWords (ckptSlot n + 128 * buf) 128

/-- Whether a buffer carries FORMAT = 1 and the stream's number, and whether its CRC is right. -/
def ckptNamed (n : Nat) (ws : List Word) : Bool := decide (bits (nth 0 ws 0) 21 0 = 1 + n * 65536)
def ckptIntact (n : Nat) (ws : List Word) : Bool :=
  ckptNamed n ws && decide (nth 0 ws 127 = word (crc32c ((ws.take 127).flatMap wordBytes)))

/-- The newest intact buffer of a stream (R174: newer by serial arithmetic; equal numbers give buffer 0). -/
def State.newestCkpt (s : State) (n : Nat) : Option Nat :=
  let a := s.ckptWords n 0
  let b := s.ckptWords n 1
  match ckptIntact n a, ckptIntact n b with
  | true, true => if 0 < (nth 0 b 1 - nth 0 a 1).toInt then some 1 else some 0
  | true, false => some 0
  | false, true => some 1
  | false, false => none

/-- Whether a bank failed its check (RET_BANK_FAIL). -/
def State.bankFailed (s : State) (n : Nat) : Bool := nbit s.ret.bankFail (n % 8)

/-- Load one stream from its checkpoint slot (R178). -/
def State.ckptLoad (s : State) (n : Nat) : State :=
  let pend := fun (s : State) (r p : Nat) => s.updStream n fun x => { x with state := .resumePending, reason := r, param := p }
  if s.bankFailed n then pend s 0x03 (n % 8)
  else if !ckptNamed n (s.ckptWords n 0) && !ckptNamed n (s.ckptWords n 1) then s
  else
    match s.newestCkpt n with
    | none => pend s 0x04 0
    | some b =>
      let ws := s.ckptWords n b
      let held := fun (k : Nat) => if ckptIntact n (s.ckptWords n k) then some (nth 0 (s.ckptWords n k) 1).toNat else none
      let s1 := s.updStream n fun x => { x with lastSeq := (nth 0 ws 1).toNat, bufs := Tab.put none (Tab.put none [] 0 (held 0)) 1 (held 1) }
      match sstateOf (bits (nth 0 ws 4) 3 0) with
      | .run | .pause | .hold | .park | .resumePending =>
        (pend s1 0x01 0).updStream n fun x =>
          { x with step := bits (nth 0 ws 4) 31 16, elapsed := (nth 0 ws 5).toNat,
                   vars := (List.range 64).foldl (fun t v => Tab.put 0 t v (nth 0 ws (10 + v))) [] }
      | _ => s1

/-- CHECKPOINT_LOAD (R178): every slot is read once PD_RT is up. -/
def State.ckptLoadAll (s : State) : State :=
  (List.range 64).foldl (fun s n => s.ckptLoad n) (s.updRsq fun r => { r with streams := [], loading := false })

/-- A refused check (R180): reason, RESUME_REFUSED, the alarm bit, RESUME. -/
def State.refuseResume (s : State) (n reason param : Nat) : State :=
  let s1 := s.updStream n fun x => { x with reason := reason, param := param, check := .ended }
  ((s1.record .rsq 0 0x0B15 [n, (s.stream n).step, reason, param]).rsqAlm n).irq .rsq 10

/-- The parameter of reasons 0x0B–0x0D. -/
def slotParam (x : Stream) (j : Nat) : Nat := j * 2 ^ 20 + x.slotPt j

/-- The resume-critical slots that a checkpoint's step names and that are enabled. -/
def critical (x : Stream) (ws : List Word) : List Nat :=
  (List.range 16).filter fun j => nbit (bits (nth 0 ws 6) 31 16) j && x.slotEn j

/-- Whether a readback agrees with the checkpoint value (R176). -/
def agrees (rel : Bool) (tol : Nat) (r c : Int) : Bool :=
  if rel then decide (1000 * (r - c).natAbs ≤ tol * c.natAbs) else decide ((r - c).natAbs ≤ tol)

/-- The end of the check in one group read once every slot is usable (R180). -/
def State.tolerance (s : State) (n : Nat) (ws : List Word) : State :=
  let x := s.stream n
  match (critical x ws).find? fun j => !agrees (x.slotRel j) (x.slotTol j) (s.ptVal (x.slotPt j)) (nth 0 ws (74 + j)).toInt with
  | some j => s.refuseResume n 0x0D (slotParam x j)
  | none => (s.updStream n fun x => { x with check := .passed, reason := 0, param := 0 }).irq .rsq 10

/-- The wait of the check, at each evaluation, until every critical slot is usable; then the tolerances (R180). -/
def State.resumeWait (s : State) (n : Nat) (ws : List Word) : State :=
  let x := s.stream n
  if (critical x ws).all fun j => usable (s.readPoint (x.slotPt j)).q then s.tolerance n ws
  else s.updStream n fun x => { x with check := .waiting }

/-- RESUME_CHECK (R180), from its first line. -/
def State.resumeCheck (s : State) (n : Nat) (recheck : Bool) : State :=
  let x := s.stream n
  let now := s.now
  if !s.rsqReady then s.updStream n fun x => { x with reason := 0x0E, param := 0, check := .due recheck }
  else if !x.autoResume ∧ !recheck then s.refuseResume n 0x02 0
  else if s.bankFailed n then s.refuseResume n 0x03 (n % 8)
  else
    match s.newestCkpt n with
    | none => s.refuseResume n 0x04 0
    | some b =>
      let ws := s.ckptWords n b
      let step := bits (nth 0 ws 4) 31 16
      let atB := bit (nth 0 ws 4) 4
      let ent := s.entryWords x.actBase step
      let gap := (now - ((nth 0 ws 2).toNat + (nth 0 ws 3).toNat * 2 ^ 32)) / 100000000
      let late := decide (x.maxGap * 100000000 < now - ((nth 0 ws 2).toNat + (nth 0 ws 3).toNat * 2 ^ 32))
      let badCrit := (critical x ws).find? fun j => nbit (bits (nth 0 ws 9) 15 0) j
      if !s.stepValid n step then s.refuseResume n 0x05 step
      else if atB && !s.stepValid n (bits (nth 0 ws 6) 15 0) then s.refuseResume n 0x05 (bits (nth 0 ws 6) 15 0)
      else if decide (word (entryCrc ent) ≠ nth 0 ws 7) then s.refuseResume n 0x06 step
      else if decide (stepField ent 0 18 17 = 2) then s.refuseResume n 0x07 step
      else if decide (word x.rcpCrc ≠ nth 0 ws 8) then s.refuseResume n 0x08 0
      else if s.tim.lostRst then s.refuseResume n 0x09 0
      else if decide (x.maxGap ≠ 0) && late then s.refuseResume n 0x0A (min gap (2 ^ 32 - 1))
      else
        match badCrit with
        | some j => s.refuseResume n 0x0B (slotParam x j)
        | none => s.resumeWait n ws

/-- RESUME_WAIT_EXPIRY (R180): the slots were not usable within RESUME_WAIT. -/
def execResumeWaitExpiry (n : Fin 64) (s : State) : Out :=
  .next (
    let x := s.stream n.val
    match x.check, s.newestCkpt n.val with
    | .waiting, some b =>
      let ws := s.ckptWords n.val b
      match (critical x ws).find? fun j => !usable (s.readPoint (x.slotPt j)).q with
      | some j => s.refuseResume n.val 0x0C (slotParam x j)
      | none => s.tolerance n.val ws
    | _, _ => s)

/-- The state in which a checkpointed stream resumes: a checkpointed RESUME_PENDING counts as RUN (R181). -/
def resumedState (ws : List Word) : SState :=
  match sstateOf (bits (nth 0 ws 4) 3 0) with | .resumePending => .run | k => k

/-- A stream that passed resumes at a step tick (R181). -/
def State.resume (s : State) (n : Nat) : State :=
  match s.newestCkpt n with
  | none => s.refuseResume n 0x04 0
  | some b =>
    let x := s.stream n
    let ws := s.ckptWords n b
    let step := bits (nth 0 ws 4) 31 16
    let atB := bit (nth 0 ws 4) 4
    let parked := bit (nth 0 ws 4) 5
    let st := resumedState ws
    let ent := s.entryWords x.actBase step
    let e := if stepField ent 0 18 17 = 1 then 0 else (nth 0 ws 5).toNat
    if !s.stepValid n step then s.refuseResume n 0x05 step
    else
      let s1 := s.updStream n fun x =>
        { (x.fresh ent e) with state := st, step := step, chosen := bits (nth 0 ws 6) 15 0, atBoundary := atB, parked := parked,
                               check := .none, reason := 0, param := 0 }
      let s2 := (s1.record .rsq 0 0x0B11 [n, 8, st.code, 0]).rsqEvt n
      let (s3, hold) := if atB then (s2, false)
        else
          let (s3, h) := (s2.record .rsq 0 0x0B10 [n, step, stepField ent 0 15 0, 4]).doActions s n (stepField ent 5 15 0) (s.actWords x.actBase ent)
          ((s3.rsqEvt n).evalMet, h)
      let s4 := ((if hold && (s3.stream n).runs then s3.sHold n 0 else s3).ckptMark n).ckptFlush n
      s4.record .rsq 0 0x0B14 [n, step, e, (s4.stream n).lastSeq]

/-! ### Evaluation instants -/

/-- A command that acts at the next evaluation (Table RSQ-10); one that waits for its tick stays. -/
def State.cmdAct (s : State) (n : Nat) (c : SCmd) : State :=
  let x := s.stream n
  let stay := s.updStream n fun x => { x with cmds := x.cmds ++ [c] }
  match c with
  | .hold => if x.runs then s.sHold n 2 else s
  | .pause => if x.state = .run then s.sstate n .pause 4 fun x => x else s
  | .resume => if x.state = .pause then s.sstate n .run 3 fun x => x else stay
  | .reset =>
    (match x.state with
     | .done | .abort | .fault | .park => s.sstate n .idle 7 fun x => { x with parked := false, atBoundary := false }
     | _ => s)
  | .discard =>
    if x.state = .resumePending then (s.sstate n .idle 9 fun x => { x with check := .none, reason := 0, param := 0 }).ckptPut n else s
  | _ => stay

/-- What acts at the next evaluation: the accepted commands in their order, then the PD_MEM fence (R468), with the cause of a HOLD. -/
def State.cmdNow (s : State) (n : Nat) : State :=
  let x := s.stream n
  let s1 := x.cmds.foldl (fun s c => s.cmdAct n c) (s.updStream n fun x => { x with cmds := [], fence := false })
  if x.fence && (s1.stream n).runs then s1.sHold n 2 else s1

/-- A stream goes to PARK at a tick (Table RSQ-10): a PARK_STEP without VALID is a fault. -/
def State.goPark (s : State) (n : Nat) : State :=
  let x := s.stream n
  if s.stepValid n x.parkStep then
    (s.sstate n .park 6 fun x => { x with parked := false, atBoundary := false, held := 0, check := .none, reason := 0, param := 0 }).enterStep n
      x.parkStep 5
  else s.sFault n errStepInvalid

/-- A command that acts at a step tick, and whether it acted. -/
def State.tickAct (s : State) (n : Nat) (c : SCmd) : State × Bool :=
  let x := s.stream n
  match c with
  | .start step =>
    (match x.state with
     | .idle | .done | .abort | .fault | .park | .resumePending =>
       ((s.sstate n .run 1 fun x =>
         { x with parked := false, atBoundary := false, check := .none, reason := 0, param := 0 }).enterStep n step 3, true)
     | _ => (s, false))
  | .resume =>
    if x.state = .hold then
      if x.atBoundary then ((s.sstate n .run 3 fun x => { x with atBoundary := false }).enterStep n x.chosen 4, true)
      else (s.sstate n .run 3 fun x => x, true)
    else (s, false)
  | .abort =>
    if x.runs || decide (x.state = .hold) || decide (x.state = .park) then
      ((s.abortList n).sstate n .abort 5 fun x => { x with parked := false, atBoundary := false, held := 0 }, true)
    else (s, false)
  | .park =>
    if x.runs || decide (x.state = .hold) || decide (x.state = .resumePending) then (s.goPark n, true) else (s, false)
  | .recheck =>
    if x.state = .resumePending then (s.updStream n fun x => { x with check := .due true }, false) else (s, false)
  | _ => (s, false)

/-- What acts at a step tick: the accepted commands in their order, then the end of the autonomy window (R29). The second component says that
one acted, so that the evaluation of this instant has been taken by it. -/
def State.cmdTick (s : State) (n : Nat) : State × Bool :=
  let x := s.stream n
  let r := x.cmds.foldl (fun (a : State × Bool) c => let (s1, b) := a.1.tickAct n c; (s1, a.2 || b))
    (s.updStream n fun x => { x with cmds := [], expiry := false }, false)
  let executing := fun (x : Stream) => x.runs || decide (x.state = .hold)
  if x.expiry && executing x && executing (r.1.stream n) then (r.1.goPark n, true) else r

/-- An executing stream's evaluation (R166, R169, R170). -/
def State.streamStep (s : State) (n : Nat) (tick : Bool) : State :=
  let x0 := s.stream n
  let x := if tick then { x0 with elapsed := (x0.elapsed + 1) % 2 ^ 32 } else x0
  let (x1, m) := s.condsEval x
  let x2 := { x1 with conds := m }
  let (dec, cond) := decision x2.cur m x2.elapsed
  let x3 := if dec ≠ 0 ∧ (x2.held = 0 ∨ (dec = 3 ∧ x2.held ≠ 3)) then { x2 with held := dec, heldCond := cond } else x2
  let s1 := s.updStream n fun _ => x3
  if tick ∧ x3.held ≠ 0 then
    let kind := (branchOf x3.cur x3.held).1
    if !x3.prefetched ∧ (kind = 0 ∨ kind = 3) then s1.updRsq fun r => { r with late := wrapInc r.late }
    else s1.branch n x3.held x3.heldCond
  else s1

/-- The checkpoint that ends an evaluation: one that is due, or at a tick the tenth since the last write, which `seq` was (R175). -/
def State.ckptEnd (s : State) (n seq : Nat) (tick : Bool) : State :=
  let s1 := s.ckptFlush n
  let x := s1.stream n
  if tick && decide (x.lastSeq = seq) && x.busy then
    let s2 := s1.updStream n fun x => { x with ticks := x.ticks + 1 }
    if 10 ≤ x.ticks + 1 then s2.ckpt n else s2
  else s1

/-- Whether a stream that is not executing reads a step or an action record at a tick: a START, a PARK or ABORT, or the resume that its check has
passed. -/
def Stream.performs (x : Stream) : Bool :=
  x.cmds.any (fun c => match c with | .start _ | .park | .abort => true | _ => false) || decide (x.check = .passed)

/-- An uncorrectable error in what a stream reads (R173): FAULT. A stream that is only about to execute has left its state then, as for a step that
is not VALID. -/
def State.ueFault (s : State) (n : Nat) : State :=
  let x := s.stream n
  let start := x.cmds.any fun c => match c with | .start _ => true | _ => false
  let out := fun (st : SState) (cause : Nat) => s.sstate n st cause fun x => { x with parked := false, atBoundary := false, reason := 0, param := 0 }
  let s1 := if x.busy then s
    else if start then out .run 1
    else if x.state = .resumePending then
      (match x.check, s.newestCkpt n with
       | .passed, some b => out (resumedState (s.ckptWords n b)) 0
       | _, _ => out .park 6)
    else s
  (s1.updStream n fun x => { x with cmds := [] }).sFault n errStreamUe

/-- One stream at an evaluation instant. `ue` says that an uncorrectable error is found in what it reads (R173). -/
def State.streamEval (s : State) (n : Nat) (tick ue : Bool) : State :=
  let x := s.stream n
  let s3 :=
    if ue && (x.busy || tick && x.performs) then s.ueFault n
    else
      let s1 := s.cmdNow n
      let (s2, took) := if tick then s1.cmdTick n else (s1, false)
      let y := s2.stream n
      if took then s2
      else if y.runs || (decide (y.state = .park) && !y.parked) then s2.streamStep n tick
      else if y.state = .resumePending then
        match y.check, s2.newestCkpt n with
        | .waiting, some b => s2.resumeWait n (s2.ckptWords n b)
        | .due r, _ => if tick then s2.resumeCheck n r else s2
        | .passed, _ => if tick then s2.resume n else s2
        | _, _ => s2
      else s2
  s3.ckptEnd n x.lastSeq tick

/-- Whether a stream has an evaluation at an instant. -/
def Stream.evaluates (x : Stream) : Bool :=
  x.busy || decide (x.cmds ≠ []) || (decide (x.state = .resumePending) && decide (x.check ≠ .none) && decide (x.check ≠ .ended))

/-- The words of a stream's state in its window (Table RSQ-13), by offset. -/
def Stream.stateWords (x : Stream) : List (Nat × Nat) :=
  [(0x100, x.state.code + 16 * b2n x.atBoundary + 32 * b2n x.parked + 64 * x.held + 65536 * x.reason), (0x104, x.step + 65536 * x.chosen),
   (0x108, x.elapsed), (0x10C, x.conds + 16 * x.latched), (0x114, x.param), (0x140, x.stflag.toNat)] ++
  (List.range 64).map fun v => (0x200 + 4 * v, (x.var v).toNat)

/-- One stream's evaluation with its write list (R140): what its entry and abort actions write, in their order, then the words of its state that
changed. -/
def State.streamRun (s : State) (n : Nat) (tick ue : Bool) : State :=
  let t := (s.updRsq fun r => { r with writes := [] }).streamEval n tick ue
  let changed := (((s.stream n).stateWords.zip (t.stream n).stateWords).filter fun p => decide (p.1 ≠ p.2)).map fun p => StreamWrite.state p.2.1 p.2.2
  t.updRsq fun r => { r with writes := r.writes ++ changed }

/-- The bytes of a pair of the write list (log 42). -/
def StreamWrite.bytes : StreamWrite → List Byte
  | .state o d => Config.writeBytes 0 o d
  | .point i d => Config.writeBytes 1 i d
  | .ramp l d => Config.writeBytes 2 l d
  | .mode l d => Config.writeBytes 3 l d
  | .arm g d => Config.writeBytes 4 g d
  | .flags t d => Config.writeBytes 5 t d

/-- The vote word of an evaluation that ends in `t` (R140): the CRC-32C of the write list, the number of writes, the step index after it. -/
def State.streamWord (t : State) (n : Nat) : Nat :=
  crc32c (t.rsq.writes.flatMap StreamWrite.bytes) + 2 ^ 32 * (t.rsq.writes.length % 65536) + 2 ^ 48 * (t.stream n).step

/-- One stream's voted evaluation (R140, R160): each lane computes the write list and delivers its word; the list is performed once the vote has a
majority. -/
def State.streamVote (s : State) (n : Nat) (tick ue voter : Bool) (faults : List (Fin 3 × LaneFault)) : State :=
  if !(s.stream n).evaluates ∨ !s.rsqReady ∨ s.xng.voterFault then s
  else
    let t := s.streamRun n tick ue
    let w := t.streamWord n
    if faults = [] ∧ !voter ∧ !s.xng.lossDue then (t.foldSigs fun _ => w).updXng fun x => { x with votes := wrapInc x.votes }
    else
      match s.vote n true faults voter fun _ => w with
      | (s1, some _) => s1.streamRun n tick ue
      | (s1, none) => s1

/-- The faults of a stream's evaluation. -/
def faultsOf (l : List (Fin 64 × Fin 3 × LaneFault)) (n : Nat) : List (Fin 3 × LaneFault) :=
  (l.filter fun x => decide (x.1.val = n)).map (·.2)

/-- A RECHECK at a tick at which R161 forbids evaluation: the check starts all the same (R179), and its first line repeats it (R180). -/
def State.recheckBlocked (s : State) (n : Nat) : State :=
  let x := s.stream n
  let asked := x.cmds.any fun c => decide (c = .recheck)
  let s1 := if asked then s.updStream n fun x => { x with cmds := x.cmds.filter (fun c => decide (c ≠ .recheck)), check := .due true } else s
  match (s1.stream n).check with
  | .due r => s1.resumeCheck n r
  | _ => s1

/-- Every stream in ascending order (R161). While R161 forbids evaluation, a resume check that is due ends in XNG_NOT_READY at every tick. -/
def State.rsqInstant (s : State) (tick : Bool) (faults : List (Fin 64 × Fin 3 × LaneFault)) (errs : StreamErrs) : State :=
  if !(s.hd .rsq).running then s
  else if s.rsqReady then
    (s.streamsWhere fun _ => true).foldl (fun s n =>
      s.streamVote n tick ((errs.ues.map Fin.val).contains n) (decide (errs.voter.map Fin.val = some n)) (faultsOf faults n)) s
  else if tick then (s.streamsWhere fun x => decide (x.state = .resumePending)).foldl (fun s n => s.recheckBlocked n) s
  else s

/-- STREAM_EVALUATION (R166): an evaluation instant between step ticks. -/
def execStreamEvaluation (faults : List (Fin 64 × Fin 3 × LaneFault)) (errs : StreamErrs) (s : State) : Out :=
  .next (s.rsqInstant false faults errs)

/-- STEP_TICK (R169): a step tick with its coinciding evaluation. -/
def execStepTick (faults : List (Fin 64 × Fin 3 × LaneFault)) (errs : StreamErrs) (s : State) : Out :=
  .next (if s.present .rsq then (s.runFollow .rsq).rsqInstant true faults errs else s)

/-! ### Commands (R172) -/

/-- RSQ_CMD_STAT. -/
def State.streamStat (s : State) (n e : Nat) : State :=
  let s1 := s.updRsq fun r => { r with cmdStream := n, cmdResult := e }
  if e = 0 then s1 else s1.err .rsq e

/-- Whether Table RSQ-10 lists a command for a state. -/
def cmdListed (c : SCmd) (st : SState) : Bool :=
  match c, st with
  | .start _, .idle | .start _, .done | .start _, .abort | .start _, .fault | .start _, .park | .start _, .resumePending => true
  | .hold, .run | .hold, .pause => true
  | .resume, .hold | .resume, .pause => true
  | .pause, .run => true
  | .abort, .run | .abort, .pause | .abort, .hold | .abort, .park => true
  | .park, .run | .park, .pause | .park, .hold | .park, .resumePending => true
  | .reset, .done | .reset, .abort | .reset, .fault | .reset, .park => true
  | .recheck, .resumePending => true
  | .discard, .resumePending => true
  | _, _ => false

/-- The result of a stream command at its acceptance (R172, R178, Table RSQ-10). -/
def State.streamCheck (s : State) (n : Nat) (c : SCmd) : Nat :=
  let x := s.stream n
  if s.rsq.loading then errCkptLoading
  else if !cmdListed c x.state then errStreamState
  else if !s.rsqReady && (match c with | .start _ => true | .resume => true | .park => decide (x.state = .resumePending) | _ => false) then
    errXngNotReady
  else
    match c with
    | .start k => if s.stepValid n k then 0 else errStepInvalid
    | .park => if x.state = .resumePending ∧ !s.stepValid n x.parkStep then errStepInvalid else 0
    | _ => 0

/-- A write of RSQ_CMD. -/
def State.streamCmd (s : State) (p : Principal) (n : Nat) (c : SCmd) : State :=
  let arg := match c with | .start k => k | _ => 0
  s.gated .rsq 0x100 .wo p (word (n + 256 * c.code + 65536 * arg)) fun s =>
    let e := s.streamCheck n c
    if e ≠ 0 then s.streamStat n e else (s.updStream n fun x => { x with cmds := x.cmds ++ [c] }).streamStat n 0

def execStreamStart (p : Principal) (n : Fin 64) (step : BitVec 16) (s : State) : Out := .next (s.streamCmd p n.val (.start step.toNat))
def execStreamHold (p : Principal) (n : Fin 64) (s : State) : Out := .next (s.streamCmd p n.val .hold)
def execStreamResume (p : Principal) (n : Fin 64) (s : State) : Out := .next (s.streamCmd p n.val .resume)
def execStreamPause (p : Principal) (n : Fin 64) (s : State) : Out := .next (s.streamCmd p n.val .pause)
def execStreamAbort (p : Principal) (n : Fin 64) (s : State) : Out := .next (s.streamCmd p n.val .abort)
def execStreamPark (p : Principal) (n : Fin 64) (s : State) : Out := .next (s.streamCmd p n.val .park)
def execStreamReset (p : Principal) (n : Fin 64) (s : State) : Out := .next (s.streamCmd p n.val .reset)
def execStreamRecheck (p : Principal) (n : Fin 64) (s : State) : Out := .next (s.streamCmd p n.val .recheck)
def execStreamDiscard (p : Principal) (n : Fin 64) (s : State) : Out := .next (s.streamCmd p n.val .discard)

/-- RSQ_RESUME_GO (R179): the check of every stream in RESUME_PENDING is due at the next step tick; one that has passed or waits goes on, and a reason that a check found is final until
the next RECHECK. -/
def execRsqResumeGo (p : Principal) (s : State) : Out :=
  .next (s.gated .rsq 0x110 .w1s p 0x1 fun s =>
    if s.rsq.loading then s.err .rsq errCkptLoading
    else (s.streamsWhere fun x => decide (x.state = .resumePending) && decide (x.check = .none)).foldl
      (fun s n => s.updStream n fun x => { x with check := .due false }) s)

/-- STFLAG_SET (R166): W1S. -/
def execStflagSet (p : Principal) (n : Fin 64) (m : Word) (s : State) : Out :=
  .next (s.gatedMem .rsq (0x24000140 + 0x1000 * n.val) false p m fun s =>
    if s.rsq.loading then s.err .rsq errCkptLoading else s.updStream n.val fun x => { x with stflag := x.stflag ||| m })

/-- The writable bits of an RWL word of the window (Table RSQ-13); `none` for any other offset. -/
def winMask (off : Nat) : Option Word :=
  if off = 0x000 then some 0x3
  else if off = 0x004 ∨ off = 0x008 then some 0xFFFF
  else if off = 0x00C then some 0x3FFFFF
  else if off = 0x010 ∨ off = 0x018 ∨ off = 0x020 then some 0xFFFFFFFF
  else if off = 0x01C ∨ off = 0x024 then some 0xFF
  else if 0x080 ≤ off ∧ off < 0x100 ∧ off % 8 = 0 then some 0xC007FFFF
  else if 0x080 ≤ off ∧ off < 0x100 ∧ off % 4 = 0 then some 0xFFFFFFFF
  else none

/-- A value that a window word must not take: a count above 32, an area that is not 8 MiB aligned. -/
def winRange (off : Nat) (v : Word) : Bool :=
  if off = 0x00C then decide (bits v 21 16 ≤ 32)
  else if off = 0x018 ∨ off = 0x020 then decide (bits v 22 0 = 0)
  else true

/-- STREAM_WINDOW_WRITE (R182): the RWL configuration and the recipe variables; reserved bits and other offsets ignore the write (Table SYS-1). A stream that loses CKPT_EN writes one checkpoint with state
IDLE, but in RESUME_PENDING none (R175). -/
def execStreamWindowWrite (p : Principal) (n : Fin 64) (off : Fin 1024) (v : Word) (s : State) : Out :=
  .next (
    let o := 4 * off.val
    s.gatedMem .rsq (0x24000000 + 0x1000 * n.val + o) (decide (o ≠ 0x140)) p v fun s =>
      let x := s.stream n.val
      if s.rsq.loading then s.err .rsq errCkptLoading
      else if 0x200 ≤ o ∧ o < 0x300 then s.updStream n.val fun x => { x with vars := Tab.put 0 x.vars ((o - 0x200) / 4) v }
      else if o = 0x140 then s.updStream n.val fun x => { x with stflag := x.stflag ||| v }
      else
        match winMask o with
        | none => s
        | some m =>
          if x.busy || (decide (x.state = .park) && x.parked) then s.err .rsq errCfgLocked
          else if !winRange o v then s.err .rsq errValueRange
          else
            let s1 := s.updStream n.val fun x => { x with win := Tab.put 0 x.win o (v &&& m) }
            if o = 0 ∧ x.ckptEn ∧ !bit v 1 ∧ x.state ≠ .resumePending then
              let st := x.state
              ((s1.updStream n.val fun x => { x with state := .idle }).ckptPut n.val).updStream n.val fun x => { x with state := st }
            else s1)

/-- RSQ_EVT_CLEAR, RSQ_ALM_CLEAR (R183). -/
def execRsqEvtClear (p : Principal) (i : Fin 2) (m : Word) (s : State) : Out :=
  .next (s.gated .rsq (0x140 + 4 * i.val) .w1c p m fun s => s.updRsq fun r => { r with evt := Tab.upd 0 r.evt i.val fun w => w1c w m })
def execRsqAlmClear (p : Principal) (i : Fin 2) (m : Word) (s : State) : Out :=
  .next (s.gated .rsq (0x148 + 4 * i.val) .w1c p m fun s => s.updRsq fun r => { r with alm := Tab.upd 0 r.alm i.val fun w => w1c w m })

/-- Whether streams keep RUN = 0 and a PMC sleep request away (R183). -/
def State.rsqActive (s : State) : Bool := decide (s.streamsWhere Stream.busy ≠ [])

/-- The PD_MEM fence holds every executing stream at its next evaluation (R468). -/
def State.rsqMemFence (s : State) : State :=
  (s.streamsWhere Stream.runs).foldl (fun s n => s.updStream n fun x => { x with fence := true }) s

/-- The autonomy window expires (R29): every stream in RUN, PAUSE_AT_STEP_END or HOLD parks at the next tick, whatever is commanded before it. -/
def State.rsqExpire (s : State) : State :=
  (s.streamsWhere fun x => x.runs || decide (x.state = .hold)).foldl (fun s n => s.updStream n fun x => { x with expiry := true }) s

end Sys2Proof.Machine
end

