-- ==== Sys2Proof/Machine/Sha.lean ====
section
/-!
DEFINITION. SHA-256 and HMAC-SHA-256 as R52 and R465 use them (FIPS 180-4, RFC 2104).
-/

namespace Sys2Proof.Machine

/-- Rotate a word right. -/
def rotr (x : Word) (n : Nat) : Word := x.rotateRight n

/-- Is `p` a prime? -/
def isPrime (p : Nat) : Bool := decide (2 ≤ p) && (List.range p).all fun d => d < 2 || p % d != 0

/-- The largest `r` below `r₀ + 2 ^ n` with `r ^ k ≤ x`, found bit by bit from the top. -/
def rootFrom (k x r₀ : Nat) : Nat → Nat
  | 0 => r₀
  | n + 1 => rootFrom k x (if (r₀ + 2 ^ n) ^ k ≤ x then r₀ + 2 ^ n else r₀) n

/-- The first 32 bits of the fractional part of the `k`-th root of `p`: how FIPS 180-4 defines its constants. -/
def rootFrac (k p : Nat) : Nat := rootFrom k (p * 2 ^ (32 * k)) 0 38 % 2 ^ 32

/-- The primes below 312: the first sixty-four. -/
def shaPrimes : List Nat := (List.range 312).filter isPrime

/-- The 64 round constants of SHA-256, from the cube roots of the first sixty-four primes (FIPS 180-4, 4.2.2). -/
def shaK : List Nat := shaPrimes.map (rootFrac 3)

/-- The eight chaining words of SHA-256. -/
structure ShaH where
  a : Word
  b : Word
  c : Word
  d : Word
  e : Word
  f : Word
  g : Word
  h : Word
deriving DecidableEq, Repr

/-- The initial hash value, from the square roots of the first eight primes (FIPS 180-4, 5.3.3). -/
def shaInit : ShaH :=
  let iv (i : Nat) : Word := word (rootFrac 2 (nth 0 shaPrimes i))
  ⟨iv 0, iv 1, iv 2, iv 3, iv 4, iv 5, iv 6, iv 7⟩

/-- The message schedule: `w` holds the last sixteen words, oldest first; `n` words follow. -/
def shaSchedule (w : List Word) : Nat → List Word
  | 0 => []
  | n + 1 =>
    let w0 := nth 0 w 0
    let w1 := nth 0 w 1
    let w9 := nth 0 w 9
    let w14 := nth 0 w 14
    let s0 := rotr w1 7 ^^^ rotr w1 18 ^^^ (w1 >>> 3)
    let s1 := rotr w14 17 ^^^ rotr w14 19 ^^^ (w14 >>> 10)
    let x := w0 + s0 + w9 + s1
    x :: shaSchedule (w.drop 1 ++ [x]) n

/-- One round with round constant and schedule word. -/
def shaRound (s : ShaH) (kw : Nat × Word) : ShaH :=
  let t1 := s.h + (rotr s.e 6 ^^^ rotr s.e 11 ^^^ rotr s.e 25) + ((s.e &&& s.f) ^^^ (~~~ s.e &&& s.g)) + word kw.1 + kw.2
  let t2 := (rotr s.a 2 ^^^ rotr s.a 13 ^^^ rotr s.a 22) + ((s.a &&& s.b) ^^^ (s.a &&& s.c) ^^^ (s.b &&& s.c))
  ⟨t1 + t2, s.a, s.b, s.c, s.d + t1, s.e, s.f, s.g⟩

/-- Big-endian words of a byte list. -/
def beWords : List Byte → List Word
  | a :: b :: c :: d :: t => word (beNat [a, b, c, d]) :: beWords t
  | _ => []

/-- One 64-byte block. -/
def shaBlock (s : ShaH) (blk : List Byte) : ShaH :=
  let w := beWords blk
  let r := (shaK.zip (w ++ shaSchedule w 48)).foldl shaRound s
  ⟨s.a + r.a, s.b + r.b, s.c + r.c, s.d + r.d, s.e + r.e, s.f + r.f, s.g + r.g, s.h + r.h⟩

/-- The blocks of a padded message; `n` bounds their number. -/
def shaBlocks (bs : List Byte) (s : ShaH) : Nat → ShaH
  | 0 => s
  | n + 1 => if bs.length < 64 then s else shaBlocks (bs.drop 64) (shaBlock s (bs.take 64)) n

/-- SHA-256 of a byte list. -/
def sha256 (m : List Byte) : List Byte :=
  let pad := (119 - m.length % 64) % 64
  let p := m ++ [0x80] ++ List.replicate pad 0 ++ natBytesBE (m.length * 8) 8
  let r := shaBlocks p shaInit (p.length / 64)
  [r.a, r.b, r.c, r.d, r.e, r.f, r.g, r.h].flatMap fun w => natBytesBE w.toNat 4

/-- HMAC-SHA-256 with a key of at most 64 bytes. -/
def hmacSha256 (key m : List Byte) : List Byte :=
  let k := key ++ List.replicate (64 - key.length) 0
  sha256 (k.map (· ^^^ 0x5c) ++ sha256 (k.map (· ^^^ 0x36) ++ m))

end Sys2Proof.Machine
end

