-- ==== Sys2Proof/Machine/Sys.lean ====
section
/-!
DEFINITION. Commands on the common header that need nothing of a block's own chapter (R34, R35, R37, R39, R42, R45) and the system
block's: the denied-write log, dual commit and party keys (R51–R56).
-/

namespace Sys2Proof.Machine


/-- IRQ_CLEAR (R34): the bits written as 1 clear in BLK_IRQ_RAW. -/
def execIrqClear (b : Block) (p : Principal) (m : Word) (s : State) : Out :=
  .next (s.gated b 0x010 .w1c p m fun s => s.updHd b fun h => { h with irqRaw := w1c h.irqRaw m })

/-- BLK_ERR_CLEAR (R35): writing 1 to OVF clears OVF, COUNT and CODE. -/
def execBlkErrClear (b : Block) (p : Principal) (s : State) : Out :=
  .next (s.gated b 0x01C .w1c p 0x80000000 fun s =>
    s.updHd b fun h => { h with errCode := 0, errCount := 0, errOvf := false })

/-- COMMIT (R37, R39): from IDLE the block goes to PENDING; while PENDING it has no effect. -/
def execCommit (b : Block) (p : Principal) (s : State) : Out :=
  .next (s.gated b 0x020 .w1s p 1 fun s => s.updHd b fun h => { h with commitPending := true })

/-- DISCARD (R39): the shadows reload from the active values and a pending commit is cancelled without COMMIT_DONE. -/
def execDiscard (b : Block) (p : Principal) (s : State) : Out :=
  .next (s.gated b 0x020 .w1s p 2 fun s => s.discardCommit b)

/-- LOCK (R42). -/
def execLock (b : Block) (p : Principal) (s : State) : Out :=
  .next (s.gated b 0x028 .w1s p 1 fun s => s.updHd b fun h => { h with lock := true })

/-- FENCE_DRAIN_END (R45, R46): the requesters of the replies still in flight receive REPLY_LOST. A block fenced for its own soft reset
answers again; MEM stays fenced while PG_MEM is low (R468). -/
def execFenceDrainEnd (b : Block) (lost : List Requester) (s : State) : Out :=
  let s1 := lost.foldl (fun s r => s.tell r b.code errReplyLost b.base) s
  .next (s1.updHd b fun h => if h.pwr = .fenced ∧ (b ≠ .mem ∨ s1.erm.supply.pgMem) then { h with pwr := .on } else h)

/-- DENY_LOG_CLEAR (R55). -/
def execDenyLogClear (p : Principal) (s : State) : Out :=
  .next (s.gated .sys 0x110 .w1c p 0x80000000 fun s => { s with sys := { s.sys with deny := none } })

/-! ### Dual commit -/

/-- The dual-commit results of Table SYS-8. -/
def dcApplied : Nat := 0x01
def dcBusy : Nat := 0x02
def dcNoParties : Nat := 0x03
def dcBadTag : Nat := 0x04
def dcDupParty : Nat := 0x05
def dcExpired : Nat := 0x06
def dcCancelled : Nat := 0x07
def dcBadLength : Nat := 0x08
def dcBadAddress : Nat := 0x09
def dcBadPayload : Nat := 0x0A
def dcBadTarget : Nat := 0x0B
def dcNoStage : Nat := 0x0C
def dcTagOk : Nat := 0x0D

/-- Change the dual-commit engine. -/
def State.updDc (s : State) (f : Dc → Dc) : State := { s with sys := { s.sys with dc := f s.sys.dc } }

/-- SYS_DC_ENROLLED (Table SYS-9): the slots that hold a key. -/
def Sys.enrolled (y : Sys) : Nat := y.sysrec.keys.foldl (fun m p => nput m p.1 true) 0

/-- The number of enrolled parties. -/
def Sys.parties (y : Sys) : Nat := y.sysrec.keys.length

/-- Whether Table SYS-7 allows a payload length for a target. -/
def dcLenOk (target len : Nat) : Bool :=
  match target with
  | 1 => decide (len = 32)
  | 2 => decide (len = 256)
  | 3 => decide (0x1000 ≤ len) && decide (len ≤ 0x3C000)
  | 4 => decide (len = 4)
  | 5 => decide (len = 4)
  | _ => false

/-- End a stage, or refuse one before it staged: the result is reported and DC_END written (R53, R56). -/
def State.dcEnd (s : State) (target result : Nat) (idle : Bool) : State :=
  let s1 := s.updDc fun d => { d with result := result, state := if idle then .idle else d.state }
  s1.record .sys 0 0x0113 [target, result, s1.sys.dc.partyOk, s1.sys.sysrec.pmapGen]

/-- The first failing check of a STAGE, in the order of R52; 0 where every check passes. -/
def State.dcStageCheck (s : State) : Nat :=
  let target := bits (s.reg R.SYS_DC_CTRL) 10 8
  let a := (s.reg R.SYS_DC_SRC_ADDR).toNat
  let n := (s.reg R.SYS_DC_SRC_LEN).toNat
  if s.sys.dc.state ≠ .idle then dcBusy
  else if target = 0 ∨ 5 < target then dcBadTarget
  else if a % 32 ≠ 0 ∨ !(inSram a n) then dcBadAddress
  else if n = 0 ∨ 0x40000 < n ∨ !(dcLenOk target n) then dcBadLength
  else if s.sys.parties < 2 then dcNoParties
  else 0

/-- A stage ends because SYS or the device is reset (R53, R56): DC_END is written with a RESULT that the spec does not give, a free value (log 101). The tags whose
verification runs are still reported. -/
def State.dcAbandon (s : State) : State :=
  let s1 := if s.sys.dc.state = .idle then s else
    let (k, s0) := s.draw
    s0.dcEnd s0.sys.dc.target ((Config.freeWord k).toNat % 256) true
  s1.updDc fun d => { verify := d.verify }

/-- SYS_DC_CTRL.CANCEL: a change that is copying or staged ends with CANCELLED (R52); else no effect. -/
def State.dcCancel (s : State) : State :=
  if s.sys.dc.state = .idle then s else s.dcEnd s.sys.dc.target dcCancelled true

/-- SYS_DC_CTRL.STAGE: refused with the first failing check, or the copy starts (R52). -/
def State.dcStage (s : State) : State :=
  let target := bits (s.reg R.SYS_DC_CTRL) 10 8
  let r := s.dcStageCheck
  if r ≠ 0 then s.dcEnd target r false
  else s.updDc fun d =>
    { d with state := .copying, target := target, src := (s.reg R.SYS_DC_SRC_ADDR).toNat, len := (s.reg R.SYS_DC_SRC_LEN).toNat,
             partyOk := 0, badTags := 0, buf := [] }

/-- A write of SYS_DC_CTRL: TARGET is taken, unless the lock holds it (R42), then CANCEL, then STAGE (R52). -/
def State.dcCtrl (s : State) (v : Word) : State :=
  let s1 :=
    if s.reg R.SYS_DC_CTRL = v &&& 0x700 then s
    else if (s.hd .sys).lock then s.err .sys errRegLocked
    else s.setReg R.SYS_DC_CTRL (v &&& 0x700)
  let s2 := if bit v 1 then s1.dcCancel else s1
  if bit v 0 then s2.dcStage else s2

/-- DC_STAGE (R52): a write of SYS_DC_CTRL with STAGE set and the value's other bits. -/
def execDcStage (p : Principal) (v : Word) (s : State) : Out :=
  .next (s.gated .sys 0x300 .w1s p (v ||| 1) fun s => s.dcCtrl (v ||| 1))

/-- DC_CANCEL (R52): a write of SYS_DC_CTRL with CANCEL set and STAGE clear. -/
def execDcCancel (p : Principal) (target : Fin 8) (s : State) : Out :=
  .next (s.gated .sys 0x300 .w1s p (word (2 + target.val * 256)) fun s => s.dcCtrl (word (2 + target.val * 256)))

/-- Whether SYS accepts a payload (R52, R54). -/
def State.dcPayloadOk (s : State) (target : Nat) (buf : List Byte) : Bool :=
  match target with
  | 1 => decide (nth 0 buf 0 = 0) && (List.range 6).all (fun i => decide (nth 0 buf (26 + i) = 0)) &&
      buf.all (fun b => decide (b.toNat < 32))
  | 4 => buf.all (fun b => decide (b = 0))
  | 5 => decide (leNat buf = 2) && decide (s.sys.sysrec.lifecycle = 1) && s.sys.lcPending.isNone
  | _ => true

/-- The bytes that the digest of R52 covers: TARGET byte, SRC_LEN big-endian, payload. -/
def dcMessage (target len : Nat) (buf : List Byte) : List Byte := natBytesBE target 1 ++ natBytesBE len 4 ++ buf

/-- DC_COPY_DONE (R52): the payload is copied and checked; a good one gets a fresh nonce, its digest and the 60 s timer. -/
def execDcCopyDone (s : State) : Out :=
  .next (
    if s.sys.dc.state ≠ .copying then s
    else
      let d := s.sys.dc
      let buf := s.load d.src d.len
      let s1 := s.updDc fun d => { d with buf := buf }
      if !(s1.dcPayloadOk d.target buf) then s1.dcEnd d.target dcBadPayload true
      else
        let (k, s2) := s1.draw
        let nonce := (Config.nonce k).toNat
        let dig := sha256 (dcMessage d.target d.len buf)
        let s3 := s2.updDc fun d => { d with state := .staged, nonce := nonce, digest := dig, since := s2.upUs, stageNo := k + 1 }
        s3.record .sys 0 0x0111 [d.target, d.len, nonce % 2 ^ 32, beNat (dig.take 4)])

/-- DC_SUBMIT (R52): the tag in SYS_DC_TAG_HI and _LO is handed in for the party in SYS_DC_PARTY. DESIGN CHOICE (log 101): "any principal may submit" does not set the
protection map aside, so the write passes SYS's permission bits (R48). -/
def execDcSubmit (p : Principal) (s : State) : Out :=
  .next (s.gated .sys 0x34C .w1s p 1 fun s =>
    let t : DcTag :=
      { party := bits (s.reg R.SYS_DC_PARTY) 1 0,
        tag := (s.reg R.SYS_DC_TAG_HI).toNat * 2 ^ 32 + (s.reg R.SYS_DC_TAG_LO).toNat,
        stage := if s.sys.dc.state = .staged then some s.sys.dc.stageNo else none }
    s.updDc fun d => { d with verify := d.verify ++ [t] })

/-- The tag that a party's key gives the staged change (R52): the first 64 bits of HMAC-SHA-256(K, digest ‖ nonce). -/
def dcTagOf (key : List Word) (digest : List Byte) (nonce : Nat) : Nat :=
  beNat ((hmacSha256 (key.flatMap fun w => natBytesBE w.toNat 4) (digest ++ natBytesBE nonce 8)).take 8)

/-- DC_TAG (R56). -/
def State.dcTagRecord (s : State) (party result : Nat) : State :=
  let s1 := s.updDc fun d => { d with result := result }
  s1.record .sys 0 0x0112 [party, result, s1.sys.dc.partyOk, s1.sys.dc.badTags]

/-- DC_APPLY (R51, Table SYS-7): the change takes effect. A safety parameter set and safety firmware are handed to the island. -/
def State.dcApply (s : State) : State :=
  let d := s.sys.dc
  match d.target with
  | 1 =>
    let pm := (List.range 25).foldl (fun t i => Tab.put 0x13 t (i + 1) (nth 0 d.buf (i + 1)).toNat) s.sys.sysrec.pmap
    { s with sys := { s.sys with sysrec := { s.sys.sysrec with pmap := pm, pmapGen := wrapInc s.sys.sysrec.pmapGen } },
             ret := { s.ret with sysPend := true } }
  | 2 => { s with saf := { s.saf with paramIn := s.saf.paramIn ++ [d.buf] } }
  | 3 => { s with saf := { s.saf with fwIn := s.saf.fwIn ++ [d.buf] } }
  | 4 => { s with sys := { s.sys with debugUnlocked := true } }
  | 5 => ({ s with sys := { s.sys with lcPending := some 2 }, ret := { s.ret with sysPend := true } }).record .sys 0 0x0114
      [s.sys.sysrec.lifecycle, 2, 0]
  | _ => s

/-- A tag that did not verify; the third of a stage cancels it and raises WARN (Table SYS-8). -/
def State.dcBad (s : State) (party : Nat) : State :=
  let s1 := (s.updDc fun d => { d with badTags := d.badTags + 1 }).dcTagRecord party dcBadTag
  if 3 ≤ s1.sys.dc.badTags then (s1.dcEnd s1.sys.dc.target dcCancelled true).raise .sys 0 0x0113 .warn else s1

/-- Verification of the oldest submitted tag against the stage it was submitted for (R52, R53). -/
def State.dcVerify (s : State) (t : DcTag) : State :=
  let d := s.sys.dc
  if d.state ≠ .staged ∨ t.stage ≠ some d.stageNo then s.dcTagRecord t.party dcNoStage
  else if nbit d.partyOk t.party then s.dcTagRecord t.party dcDupParty
  else
    match Tab.get [] s.sys.sysrec.keys t.party with
    | [] => s.dcBad t.party
    | key =>
      if dcTagOf key d.digest d.nonce = t.tag then
        let s1 := s.updDc fun d => { d with partyOk := nput d.partyOk t.party true }
        if 2 ≤ popcount s1.sys.dc.partyOk 4 then ((s1.dcTagRecord t.party dcApplied).dcApply).dcEnd d.target dcApplied true
        else s1.dcTagRecord t.party dcTagOk
      else s.dcBad t.party

/-- DC_TAG_VERIFY (R52). -/
def execDcTagVerify (s : State) : Out :=
  .next (
    match s.sys.dc.verify with
    | [] => s
    | t :: ts => (s.updDc fun d => { d with verify := ts }).dcVerify t)

/-- DC_STAGE_EXPIRED (R53): 60 s passed with fewer than two verified tags. -/
def execDcStageExpired (s : State) : Out :=
  .next (if s.sys.dc.state = .staged then s.dcEnd s.sys.dc.target dcExpired true else s)

/-- ENROLL_LOCKED and SLOT_ENROLLED (Table SYS-12). -/
def errEnrollLocked : Nat := 0x20
def errSlotEnrolled : Nat := 0x21

/-- DC_KEY_WRITE (R54): the key word is stored in COMMISSIONING, else discarded with ENROLL_LOCKED. -/
def execDcKeyWrite (p : Principal) (n : Fin 8) (v : Word) (s : State) : Out :=
  .next (s.gated .sys (0x360 + 4 * n.val) .wo p v fun s =>
    if s.sys.sysrec.lifecycle ≠ 1 then s.err .sys errEnrollLocked
    else { s with sys := { s.sys with keyWords := Tab.put 0 s.sys.keyWords n.val v } })

/-- DC_ENROLL (R54): GO stores the key of an empty slot in COMMISSIONING; a write without GO has no effect. -/
def execDcEnroll (p : Principal) (slot : Fin 4) (go : Bool) (s : State) : Out :=
  .next (s.gated .sys 0x380 .wo p (word (slot.val + 256 * b2n go)) fun s =>
    if s.sys.sysrec.lifecycle ≠ 1 then s.err .sys errEnrollLocked
    else if !go then s
    else if nbit s.sys.enrolled slot.val then s.err .sys errSlotEnrolled
    else
      let keys := Tab.put [] s.sys.sysrec.keys slot.val (Tab.getList 0 s.sys.keyWords 0 8)
      let s1 := { s with sys := { s.sys with sysrec := { s.sys.sysrec with keys := keys } }, ret := { s.ret with sysPend := true } }
      s1.record .sys 0 0x0115 [slot.val, s1.sys.enrolled])

end Sys2Proof.Machine
end

