-- ==== Sys2Proof/Machine/Power.lean ====
section
/-!
DEFINITION. What a power-down, a power-up and a reset do to the state of each block (R35, R44, R105, R124, R155, R178, R206, R238, R343, R387, R411, R419, R439,
R454, R466), and the full device reset.
-/

namespace Sys2Proof.Machine

/-- The switched domains (Table PMC-1), by code, in wake pattern order. -/
def wakeOrder : List (List Nat) := [[11], [3], [4, 5, 8, 9], [6, 7], [10, 12], [1, 2]]

/-- The domains that a domain requires (Table PMC-1). -/
def domReq : Nat → List Nat
  | 3 => [11]
  | 4 | 5 | 6 | 8 | 9 => [3]
  | 7 => [11, 3]
  | _ => []

/-- The blocks of a domain (Table SYS-13). -/
def domBlocks (d : Nat) : List Block := Block.all.filter fun b => decide (b.domain.code = d)

/-- Whether a block lies in a switched domain. -/
def domSwitched (b : Block) : Bool := decide (1 ≤ b.domain.code) && decide (b.domain.code ≤ 12)

/-- The cores of PD_CPUA and PD_CPUB. -/
def domCores (d : Nat) : List Nat := if d = 1 then [0, 1, 2, 3] else if d = 2 then [4, 5, 6, 7] else []

/-- The memory windows of a block: its region, its descriptor window (Table CPU-1), SDRAM for MEM. -/
def blkWindow (b : Block) (a : Nat) : Bool :=
  (decide (b.base ≤ a) && decide (a < b.base + 0x10000)) ||
    match b with
    | .ce => decide (a / 2 ^ 24 = 0x21)
    | .csc => decide (a / 2 ^ 24 = 0x22)
    | .ilp => decide (a / 2 ^ 24 = 0x23)
    | .rsq => decide (a / 2 ^ 24 = 0x24)
    | .mem => decide (0x800000000 ≤ a)
    | _ => false

/-- Memory loses the bytes of some addresses: they read as bytes that were never written. -/
def State.dropMem (s : State) (p : Nat → Bool) : State := { s with mem := Tab.keep (fun a _ => !p a) s.mem }

/-- Whether a register keeps its active value while its domain is off: TIM_CFG (R363), the wake registers of CAN (R439). -/
def keptOff (k : Nat) : Bool :=
  decide (k = regKey R.TIM_CFG) ||
    (keyOf .can k && decide (0x34 ≤ k % 0x1000) && decide (k % 0x1000 < 0x40) && decide (0x1000 ≤ k % 0x10000) && decide (k % 0x10000 < 0x5000))

/-- The registers of a block return to their reset values, active and shadow. -/
def State.clearRegs (s : State) (b : Block) (all : Bool) : State :=
  { s with regs := Tab.keep (fun k _ => !keyOf b k || (!all && keptOff k)) s.regs, shadow := Tab.keep (fun k _ => !keyOf b k) s.shadow,
           frz := Tab.keep (fun k _ => !keyOf b k) s.frz }

/-- The points that committed descriptors of a block hold are released. -/
def State.dropRefs (s : State) (b : Block) : State :=
  { s with ptd := { s.ptd with refs := s.ptd.refs.filter fun r => decide (r.blk ≠ b) } }

/-- TIM after a loss of PD_RT: what PD_AON carries stays (R349, R360, R363). -/
def Tim.off (t : Tim) : Tim :=
  { net := t.net, iAcc := t.iAcc, coarse := t.coarse, lost := t.lost, lostRst := t.lostRst, unc := t.unc, firstAfter := t.firstAfter }

/-- The state of a block as its reset leaves it. -/
def State.blkData (s : State) (b : Block) : State :=
  match b with
  | .tim => s.updTim Tim.off
  | .hts => { s with hts := {} }
  | .ptd => { s with ptd := {} }
  | .ce => { s with ce := {} }
  | .xng => { s with xng := {} }
  | .rsq => { s with rsq := {} }
  | .csc => { s with csc := {} }
  | .mot => s.updMot fun m => { ({} : Mot) with encs := Tab.mapAll {} (fun e => { a := e.a, b := e.b, i := e.i }) m.encs, latLvl := m.latLvl }
  | .ilp => s.ilpReset
  | .lne => { s with lne := {} }
  | .ave => { s with ave := {} }
  | .acq => { s with acq := {} }
  | .hrc => s.updHrc fun h => { ({} : Hrc) with rate := h.rate, grant := h.grant, noGrant := h.noGrant }
  | .hif => s.updHif fun h => { hostMem := h.hostMem }
  | .mem => { s with msdram := {} }
  | .cpu => s.updCpu fun x => { cores := [], mtime := x.mtime, mtimeHi := x.mtimeHi }
  | .can => s.canPowerUp
  | _ => s

/-- A block without power: registers, windows and state are lost. CAN keeps its controllers' states for the wake detection (R439) until it powers up. -/
def State.blkClear (s : State) (b : Block) : State :=
  if b = .can then s else (((s.clearRegs b false).dropMem (blkWindow b)).dropRefs b).blkData b

/-- The effects that a block's fence has elsewhere before its power-down: COMM_LOST points, the coarse time, redelivery, and the transitions of axes. -/
def State.blkLeave (s : State) (b : Block) : State :=
  match b with
  | .tim => s.coarseEnter
  | .lne => s.laneAllOff
  | .ave => s.aveFence
  | .mot => s.axesLeave
  | _ => s

/-- The header of a block whose domain goes off: the mirror keeps it, and the lock stays (R35, R44). -/
def State.hdrDown (s : State) (b : Block) : State :=
  let h := s.hd b
  { s with mir := Tab.put {} s.mir b.code h, hdr := Tab.put {} s.hdr b.code { pwr := .off, lock := h.lock } }

/-- The header of a block whose domain comes up: reset values, the lock kept. -/
def State.hdrUp (s : State) (b : Block) : State :=
  let h := s.hd b
  { s with mir := Tab.erase s.mir b.code, hdr := Tab.put {} s.hdr b.code { pwr := .on, lock := h.lock } }

/-- A power state of every block of a domain. -/
def State.domPwr (s : State) (d : Nat) (w : Pwr) : State := (domBlocks d).foldl (fun s b => s.updHd b fun h => { h with pwr := w }) s

/-- The cores of the domains that are reset return their units (R407); a reset of PD_CPUA or PD_CPUB is a detachment (R27). -/
def State.coresOff (s : State) (ds : List Nat) : State :=
  let cs := ds.flatMap domCores
  if cs = [] then s else (cs.foldl (fun s c => (s.redeliver c).updCore c fun _ => {}) s).detach 0

/-- DOMAIN (Table PMC-8): the states as BLK_STAT.PWR codes them. -/
def State.domRecord (s : State) (d old new : Nat) : State := s.record .pmc 0 0x0313 [d, old, new]

/-- A domain powers down (R454): its blocks are fenced, lose their clocks and their state. -/
def State.domDown (d : Nat) (s : State) : State :=
  let s1 := s.coresOff [d]
  let s2 := (domBlocks d).foldl (fun s b => s.blkLeave b) s1
  let s3 := (domBlocks d).foldl (fun s b => (s.blkClear b).hdrDown b) s2
  let s4 := if d = 4 ∧ s.domOn 3 then s3.judgeCoords s3.tick else s3
  ({ s4 with pmc := { s4.pmc with on := s4.pmc.on.filter fun x => decide (x ≠ d), trans := s4.pmc.trans.filter fun x => decide (x ≠ d) } }).domRecord d 1 0

/-- Put a domain into an ascending list of domains. -/
def domInsert (d : Nat) (l : List Nat) : List Nat := (List.range 16).filter fun x => decide (x = d) || l.contains x

/-- What a block does when its domain has come up: RSQ reads its checkpoints where RET has checked the banks (R178), the history restarts (R387),
CAN's controllers are in CONFIG. -/
def State.blkStart (s : State) (b : Block) : State :=
  match b with
  | .rsq => if s.ret.checkDone then s.ckptLoadAll else s.updRsq fun r => { r with loading := true }
  | .hrc => s.hrcRestart
  | .can => s.canPowerUp
  | _ => s

/-- TIM comes up (R360, Table TIM-1): the counter is loaded from the coarse counter, which shows `net` after `elapsed` ns. TIME_COARSE stays set while CLK_RT
does not come from the crystal. -/
def State.timUp (s : State) (net elapsed : Nat) : State :=
  let s1 := if s.clk.ref then s.updTim fun t => { t with net := net, unc := s.uncAfter elapsed } else s.coarseLeave net elapsed
  s1.servoRestart

/-- A domain has powered up (R454): new headers in the mirrors, cores whose bit of CPU_CORE_EN is set start. -/
def State.domUp (d net elapsed : Nat) (s : State) : State :=
  let s1 := (domBlocks d).foldl (fun s b => s.hdrUp b) s
  let s2 := { s1 with pmc := { s1.pmc with on := domInsert d s1.pmc.on, trans := s1.pmc.trans.filter fun x => decide (x ≠ d) } }
  let s3 := if d = 3 then s2.timUp net elapsed else s2
  let s4 := (domBlocks d).foldl (fun s b => s.blkStart b) s3
  let s5 := (domCores d).foldl (fun s c => if bit (s.reg R.CPU_CORE_EN) c then s.resetCore c else s) s4
  (s5.domRecord d 0 1).degFollow

/-- The hold of a full device reset ends (R361, R466): start-up goes on, to phase 3. -/
def State.resetRelease (s : State) : State :=
  { s with erm := { s.erm with held := false },
           tim := { s.tim with firstAfter := true, lostRst := s.tim.lostRst || s.tim.lost } }

/-- The headers after a full device reset (R35): reset values; the safety island and the field die keep their supply's power state. -/
def State.hdrFull (s : State) : Tab Hdr := Tab.put {} (Tab.put {} hdrReset 15 { pwr := (s.hd .saf).pwr }) 16 { pwr := (s.hd .fio).pwr }

/-- A full device reset with a cause (R30, R31, R54, R463, R466, R476): every switched domain is reset at once; PD_AON keeps its state but for the headers; the safety island
and the field die are not reset, and the die-to-die link is down. -/
def State.fullReset (cause : Nat) (s : State) : State :=
  let sd := ((s.dcAbandon).axesLeave).evrRelease false
  let s0 := if sd.domOn 3 then sd.coarseEnter else sd
  let s1 := Block.all.foldl (fun s b => if domSwitched b then ((((s.clearRegs b false).dropMem fun a => decide (b ≠ .mem) && blkWindow b a).dropRefs b).blkData b) else s) s0
  let life := s1.sys.lcPending.getD s1.sys.sysrec.lifecycle
  let s2 : State :=
    { s1 with
      hdr := s1.hdrFull, mir := [], frz := [], hrc := {},
      cpu := { cores := [] },
      sys := { s1.sys with sysrec := { s1.sys.sysrec with lifecycle := life }, lcPending := none, debugUnlocked := false, romAlive := true },
      fio := { s1.fio with linkUp := false, cfgSync := false, aiT := none },
      clk := { s1.clk with doms := [], sw := s1.clk.sw.filter fun w => decide (w.1 = 0) },
      pmc := { s1.pmc with st := .run, from_ := .run, tgt := .run, on := [], trans := [], todo := [], ecoOff := [], hs := none, wakeT := none },
      erm := { s1.erm with cur := none, queue := [], fatal := false, rstCause := cause, rstCount := satInc 0xFFFF s1.erm.rstCount, halted := false, pushWait := false,
                           noMem := false, degraded := false, bootResult := 0, phase := 2, held := true } }
  if s1.sys.lcPending.isSome then s2.record .sys 0 0x0114 [s1.sys.sysrec.lifecycle, life, 1] else s2

end Sys2Proof.Machine
end

