-- ==== Sys2Proof/Machine/Eth.lean ====
section
/-!
DEFINITION. Lane ports in Ethernet mode (R325) and their PTP stamps (R353–R356).
-/

namespace Sys2Proof.Machine

/-- The ring area of a port: the receive ring first. -/
def State.ethBase (s : State) (p : Nat) : Nat :=
  (s.regAt R.LNE_ETH_RING_LO (0x1000 * p)).toNat + 2 ^ 32 * (s.regAt R.LNE_ETH_RING_HI (0x1000 * p)).toNat

/-- The entries of a port's receive and transmit rings. -/
def State.ethRx (s : State) (p : Nat) : Nat := bits (s.regAt R.LNE_ETH_RING_CFG (0x1000 * p)) 11 0
def State.ethTx (s : State) (p : Nat) : Nat := bits (s.regAt R.LNE_ETH_RING_CFG (0x1000 * p)) 27 16

/-- The address of a ring entry. -/
def State.rxEntry (s : State) (p i : Nat) : Nat := s.ethBase p + 16 * i
def State.txEntry (s : State) (p i : Nat) : Nat := s.ethBase p + 16 * (s.ethRx p + i)

/-- LNE_MAC of a port, first byte first. -/
def State.laneMac (s : State) (p : Nat) : List Byte :=
  wordBytes (s.regAt R.LNE_MAC_LO (0x1000 * p)) ++ (wordBytes (s.regAt R.LNE_MAC_HI (0x1000 * p))).take 2

/-- Whether a port takes a frame: its own address, broadcast and multicast. -/
def State.ethTakes (s : State) (p : Nat) (f : List Byte) : Bool :=
  decide (f.take 6 = s.laneMac p) || (nth 0 f 0).getLsbD 0

/-- The offset of the PTP header of a frame and whether it travels over UDP/IPv4; one 802.1Q tag is passed over. -/
def ptpHeader (f : List Byte) : Option (Nat × Bool) :=
  let o := if beNat ((f.drop 12).take 2) = 0x8100 then 18 else 14
  let typ := beNat ((f.drop (o - 2)).take 2)
  let ihl := (nth 0 f o).toNat % 16 * 4
  if typ = 0x88F7 then some (o, false)
  else if typ = 0x0800 ∧ (nth 0 f o).toNat / 16 = 4 ∧ (nth 0 f (o + 9)).toNat = 17 ∧ beNat ((f.drop (o + ihl + 2)).take 2) = 319
    then some (o + ihl + 8, true)
  else none

/-- An event message of an enabled transport (R354): header offset, transport and message type. -/
def State.ptpEvent (s : State) (p : Nat) (f : List Byte) : Option (Nat × Bool × Nat) :=
  let cfg := s.regAt R.TIM_TS_CFG (0x20 * p)
  match ptpHeader f with
  | some (o, udp) =>
    let typ := (nth 0 f o).toNat % 16
    if bit cfg 0 && bit cfg (if udp then 3 else 2) && decide (typ ≤ 3) && decide (o + 34 ≤ f.length) then some (o, udp, typ) else none
  | none => none

/-- ETH_RX_FRAME (R325, R354): a frame without its FCS reaches the port; `t8` is the time of its first bit in 312.5 ps. A frame of more than
1522 bytes with its FCS is stored as far as 1522 bytes (log 65). The stamp is in ns (log 64). -/
def execEthRxFrame (p : Fin 8) (f : List Byte) (fcs : Bool) (t8 : Nat) (s : State) : Out :=
  .next (
    let x := s.lport p.val
    let n := s.ethRx p.val
    let len := f.length + 4
    if x.state ≠ .ethUp ∨ (s.hd .lne).pwr ≠ .on then s
    else
      let s1 := if fcs then s else s.badFcs p.val
      if len < 64 ∨ !s.ethTakes p.val f ∨ n = 0 ∨ x.rxHead = x.rxTail ∨ !(s.hd .mem).running then s1
      else
        let e := s.rxEntry p.val x.rxHead
        let buf := s.mem64 e
        let data := f.take 1518
        let stamp := match s.ptpEvent p.val f with | some _ => natBytesLE (t8 * 5 / 16) 8 | none => []
        let bad := !fcs || decide (1522 < len)
        let s2 := (s1.storeRam buf (data ++ stamp)).storeRam (e + 8) (natBytesLE (data.length + (if bad then 2 ^ 17 else 0)) 8)
        s2.updPort_ p.val fun y => { y with rxHead := (y.rxHead + 1) % n })

/-- ETH_RX_TAIL, ETH_TX_TAIL (R325): firmware hands entries to the port. -/
def execEthRxTail (p : Principal) (n : Fin 8) (v : BitVec 16) (s : State) : Out :=
  .next (s.gated .lne (0x1000 * (n.val + 1) + 0x10C) .rw p (word v.toNat) fun s => s.updPort_ n.val fun x => { x with rxTail := v.toNat })
def execEthTxTail (p : Principal) (n : Fin 8) (v : BitVec 16) (s : State) : Out :=
  .next (s.gated .lne (0x1000 * (n.val + 1) + 0x114) .rw p (word v.toNat) fun s => s.updPort_ n.val fun x => { x with txTail := v.toNat })

/-- A frame as sent with ONE_STEP (R356): the stamp as seconds and nanoseconds in originTimestamp or responseOriginTimestamp, and a UDP
checksum of 0. -/
def oneStep (f : List Byte) (o : Nat) (udp : Bool) (ns : Nat) : List Byte :=
  let g := putBytes f (o + 34) (natBytesBE (ns / 1000000000) 6 ++ natBytesBE (ns % 1000000000) 4)
  if udp then putBytes g (o - 2) [0, 0] else g

/-- ETH_TX_DONE (R325, R354–R356): the entry at HEAD has been sent, its first bit at `t8` in 312.5 ps. -/
def execEthTxDone (p : Fin 8) (t8 : Nat) (s : State) : Out :=
  .next (
    let x := s.lport p.val
    let n := s.ethTx p.val
    if x.state ≠ .ethUp ∨ n = 0 ∨ x.txHead = x.txTail ∨ !(s.hd .mem).running then s
    else
      let e := s.txEntry p.val x.txHead
      let w := s.mem64 (e + 8)
      let f := s.load (s.mem64 e) (w % 65536)
      let ns := t8 * 5 / 16
      let s1 := s.storeRam (e + 8) (natBytesLE (if w.testBit 16 then w - 2 ^ 16 else w) 8)
      let fin := fun (s : State) (f : List Byte) => s.updPort_ p.val fun y => { y with txHead := (y.txHead + 1) % n, ethSent := y.ethSent ++ [f] }
      match s.ptpEvent p.val f with
      | some (o, udp, typ) =>
        let os := bit (s.regAt R.TIM_TS_CFG (0x20 * p.val)) 1 && (decide (typ = 0) || decide (typ = 3)) && decide (o + 44 ≤ f.length)
        (fin s1 (if os then oneStep f o udp ns else f)).pushStamp p.val { stamp := ns, typ := typ, id := beNat ((f.drop (o + 30)).take 2) }
      | none => fin s1 f)

end Sys2Proof.Machine
end

