-- ==== Sys2Proof/Machine/Ecdsa.lean ====
section
/-!
DEFINITION. ECDSA verification on P-256 as boot images carry it (R465): the signature (r, s) over SHA-256, the public key X then Y, all numbers big-endian.
-/

namespace Sys2Proof.Machine

/-- The domain parameters of P-256: field prime, group order, coefficient b (a = −3) and base point. -/
def p256p : Nat := 0xFFFFFFFF00000001000000000000000000000000FFFFFFFFFFFFFFFFFFFFFFFF
def p256n : Nat := 0xFFFFFFFF00000000FFFFFFFFFFFFFFFFBCE6FAADA7179E84F3B9CAC2FC632551
def p256b : Nat := 0x5AC635D8AA3A93E7B3EBBD55769886BC651D06B0CC53B0F63BCE3C3E27D2604B
def p256g : Nat × Nat :=
  (0x6B17D1F2E12C4247F8BCE6E563A440F277037D812DEB33A0F4A13945D898C296, 0x4FE342E2FE1A7F9B8EE7EB4A7C0F9E162BCE33576B315ECECBB6406837BF51F5)

/-- `b` to the low `k` bits of `e`, modulo `m`. -/
def powMod (m : Nat) : Nat → Nat → Nat → Nat
  | 0, _, _ => 1 % m
  | k + 1, b, e => powMod m k (b * b % m) (e / 2) * (if e % 2 = 1 then b else 1) % m

/-- The inverse modulo a prime. -/
def invMod (m a : Nat) : Nat := powMod m 256 (a % m) (m - 2)

/-- Subtraction modulo `m`. -/
def subMod (m a b : Nat) : Nat := (a % m + (m - b % m)) % m

/-- Addition on the curve; `none` is the point at infinity. -/
def ecAdd : Option (Nat × Nat) → Option (Nat × Nat) → Option (Nat × Nat)
  | none, q => q
  | some x, none => some x
  | some (x1, y1), some (x2, y2) =>
    let p := p256p
    if x1 = x2 ∧ (y1 + y2) % p = 0 then none
    else
      let l := if x1 = x2 then subMod p (3 * x1 * x1) 3 * invMod p (2 * y1) % p else subMod p y2 y1 * invMod p (subMod p x2 x1) % p
      let x3 := subMod p (l * l) (x1 + x2)
      some (x3, subMod p (l * subMod p x1 x3) y1)

/-- The low `n` bits of `k` times a point. -/
def ecMul : Nat → Nat → Option (Nat × Nat) → Option (Nat × Nat)
  | 0, _, _ => none
  | n + 1, k, q => ecAdd (if k % 2 = 1 then q else none) (ecMul n (k / 2) (ecAdd q q))

/-- Whether a signature of 64 bytes verifies over a digest under a public key of 64 bytes. -/
def ecdsaOk (pub digest sig : List Byte) : Bool :=
  let x := beNat (pub.take 32)
  let y := beNat (pub.drop 32)
  let r := beNat (sig.take 32)
  let t := beNat (sig.drop 32)
  if sig.length ≠ 64 ∨ x ≥ p256p ∨ y ≥ p256p ∨ y * y % p256p ≠ subMod p256p (x * x * x + p256b) (3 * x) then false
  else if r = 0 ∨ r ≥ p256n ∨ t = 0 ∨ t ≥ p256n then false
  else
    let w := invMod p256n t
    let u1 := beNat digest * w % p256n
    let u2 := r * w % p256n
    match ecAdd (ecMul 256 u1 (some p256g)) (ecMul 256 u2 (some (x, y))) with
    | none => false
    | some (rx, _) => decide (rx % p256n = r)

end Sys2Proof.Machine
end

