-- ==== Sys2Proof/Machine/Saf.lean ====
section
/-!
DEFINITION. The safety island's commands (R268–R288): inputs, reset, outputs, supply, the parameter set and the safety firmware. Channel 0 is the
hard-wired one, channel 1 the processor. The apply of a parameter set is in `SafApply`.
-/

namespace Sys2Proof.Machine

/-- Both channels, as folded over. -/
def safBoth (s : State) (f : State → Nat → State) : State := f (f s 0) 1

/-- Every enabled output of both channels follows. -/
def State.safEvalBoth (s : State) : State := safBoth s fun s ch => s.safEval ch 0 0

/-- The causes that stand in a channel put its outputs in FAULT again (Table SAF-2, row 11). -/
def State.safStanding (s : State) (ch : Nat) : State :=
  let s1 := if (s.saf.chan ch).lost then s.safFaultAll ch cLost else s
  let s2 := if s1.saf.fsUv then s1.safFaultAll ch cFsUv else s1
  let s3 := if (s2.saf.chan ch).paramBad then s2.safFaultAll ch cParam else s2
  let s4 := (s3.saf.chan ch).causes.foldl (fun s k => s.safFaultAll ch k) s3
  [0, 1, 2, 3].foldl (fun s n =>
    let k := ((s.saf.chan ch).pair n).held
    if k = 0 then s else s.saf.outs.foldl (fun s m => if (s.saf.mapped m).contains n then s.safFault ch m k else s) s) s4

/-- INIT is left (Table SAF-2): self-test passed, active set intact, partner heartbeat present. An EDM pair has EDM_TIME to read healthy (log 79). -/
def State.safLeaveInit (s : State) (ch : Nat) : State :=
  let k := s.saf.chan ch
  if k.alive && k.passed && k.seen && !k.lost && (s.saf.chan (1 - ch)).alive && !s.saf.paramBad then
    (s.saf.outs.foldl (fun s m =>
      if s.saf.outSt ch m = .init then (s.updSOut ch m fun o => { o with st := .off, resetSeen := false }).edmStart ch m else s) s).safEval ch 0 0
  else s

/-! ### Inputs -/

/-- The discrepancy timer of a pair follows the levels of its channels (R275): it runs while the channels of an enabled pair disagree. -/
def State.discFollow (s : State) (n : Nat) : State :=
  let x := s.saf
  let differ := x.pairEn n && (x.healthy n false (nbit x.raw (2 * n)) != x.healthy n true (nbit x.raw (2 * n + 1)))
  match Tab.get none x.disc n with
  | none => if differ then s.updSaf fun x => { x with disc := Tab.put none x.disc n (some s.saf.us), discMs := Tab.put 0 x.discMs n 0 } else s
  | some t =>
    if differ then s
    else s.updSaf fun x => { x with disc := Tab.put none x.disc n none, discMs := Tab.put 0 x.discMs n ((s.saf.us - t) / 1000) }

/-- SAFETY_INPUT_EDGE (R274, R275): a ball changes level; the filters start and the discrepancy timer starts or stops. -/
def execSafetyInputEdge (n : Fin 4) (b level : Bool) (s : State) : Out :=
  .next ((s.updSaf fun x => { x with raw := nput x.raw (2 * n.val + b2n b) level }).discFollow n.val)

/-- A pair in DISCREPANCY or TP_CROSS clears after both channels were in demand together and have both returned (R275); SAF_IN shows the cause until a reset. -/
def State.pairClear (s : State) (ch n : Nat) : State :=
  let p := (s.saf.chan ch).pair n
  let a := s.saf.inDemand ch n false
  let b := s.saf.inDemand ch n true
  if p.held = 0 then s
  else if a && b then s.updSPair ch n fun p => { p with both := true }
  else if !a && !b && p.both then s.updSPair ch n fun p => { p with held := 0, both := false }
  else s

/-- SAFE_FILTER_EXPIRY (R273–R275, R278): the level at the ball outlasted FILT in an island channel. `openUs` and `rbUs` are the µs from the
demand edge to the switch's opening and to the readback low (R281). -/
def execSafeFilterExpiry (ch : Fin 2) (n : Fin 4) (b : Bool) (openUs rbUs : Nat) (s : State) : Out :=
  .next (
    let k := 2 * n.val + b2n b
    if !(s.saf.chan ch.val).alive ∨ !s.saf.pairEn n.val then s
    else
      let s1 := s.updSCh ch.val fun x => { x with filt := nput x.filt k (nbit s.saf.raw k) }
      (s1.pairClear ch.val n.val).safEval ch.val openUs rbUs)

/-- DISCREPANCY_EXPIRY (R275): the channels still disagree. -/
def execDiscrepancyExpiry (n : Fin 4) (s : State) : Out :=
  .next (
    match Tab.get none s.saf.disc n.val with
    | none => s
    | some t =>
      let s1 := s.updSaf fun x => { x with disc := Tab.put none x.disc n.val none, discMs := Tab.put 0 x.discMs n.val ((s.saf.us - t) / 1000) }
      (safBoth s1 fun s ch => s.pairFault ch n.val cDiscrepancy).safEvalBoth)

/-- Whether channel B or A of a pair passes a pulse of a source (R273); `low` are the channels that read low during it, two bits a pair. -/
def Saf.pulseOk (x : Saf) (src low n : Nat) (b : Bool) : Bool :=
  let k := 2 * n + b2n b
  let own := x.src n b
  if own = 0 then true
  else if own = src then nbit low k
  else nbit x.raw k == false || nbit low k == false

/-- TEST_PULSE (R273): source 1 (TP_A) or 2 (TP_B) pulses low; a pair with a channel that does not follow its own source, or follows the
other, latches TP_CROSS. -/
def execTestPulse (srcB : Bool) (low : Nat) (s : State) : Out :=
  .next (
    let bad := [0, 1, 2, 3].filter fun n =>
      s.saf.pairEn n && !(s.saf.pulseOk (1 + b2n srcB) low n false && s.saf.pulseOk (1 + b2n srcB) low n true)
    (bad.foldl (fun s n => safBoth s fun s ch => s.pairFault ch n cTpCross) s).safEvalBoth)

/-! ### Reset -/

/-- Whether a cause of an output still stands in a channel. `still` are the physical causes that remain, by output. -/
def State.causeStands (s : State) (ch m cause : Nat) (still : List (Nat × Nat)) : Bool :=
  if cause = cDiscrepancy ∨ cause = cTpCross then (s.saf.mapped m).any fun n => decide (((s.saf.chan ch).pair n).held = cause)
  else if cause = cEdm then s.saf.edmEn m && s.saf.demand ch (s.saf.edmPair m)
  else if cause = cLost then (s.saf.chan ch).lost
  else if cause = cFsUv then s.saf.fsUv
  else if cause = cParam then (s.saf.chan ch).paramBad
  else still.any fun p => decide (p = (m, cause))

/-- Whether an accepted reset is refused by an output in a channel. -/
def State.resetRefused (s : State) (ch m : Nat) (still : List (Nat × Nat)) : Bool :=
  let o := (s.saf.chan ch).out m
  decide (o.st = .fault) && o.causes.any fun k => s.causeStands ch m k still

/-- An accepted reset acts on an output of a channel in WAIT_RESET or FAULT (R277, Table SAF-2). -/
def State.resetOut (s : State) (ch m : Nat) (still : List (Nat × Nat)) : State :=
  match s.saf.outSt ch m with
  | .waitReset =>
    if s.saf.edmOk ch m then (s.updSOut ch m fun o => { o with resetSeen := true, cause := 0 }).safOn ch m else s.safFault ch m cEdm
  | .fault =>
    if s.resetRefused ch m still then s
    else s.updSOut ch m fun o => { o with st := .off, resetSeen := true, cause := 0, causes := [] }
  | _ => s

/-- What an accepted reset clears before it acts on the outputs (Table SAF-7): REJECTED, STUCK_RESET, the causes of pairs that have cleared, the channels' own causes that are
gone (`still` holds those that remain) and, where nothing is refused, the first-fault log. -/
def State.resetClears (s : State) (refused : Bool) (still : List (Nat × Nat)) : State :=
  let keeps := fun (k : SChan) => { k with causes := k.causes.filter fun c => still.any fun p => decide (p.2 = c) }
  ((s.updSCh 0 keeps).updSCh 1 keeps).updSaf fun x =>
    { x with rejected := false, stuck := false, first := if refused then x.first else none, rb := if refused then x.rb else [],
             causeOf := Tab.keep (fun i _ => decide (4 ≤ i) || (List.range 2).any fun c => decide (((x.chan c).pair i).held ≠ 0)) x.causeOf }

/-- The first cause of an output is shown until neither channel holds one. -/
def State.outCleared (s : State) (m : Nat) : State :=
  if (List.range 2).all fun c => decide (((s.saf.chan c).out m).cause = 0) then s.updSaf fun x => { x with causeOf := Tab.put 0 x.causeOf (safIdx false m) 0 } else s

/-- Output numbers as a mask. -/
def maskOf (ms : List Nat) : Nat := ms.foldl (fun k m => nput k m true) 0

/-- A reset that both channels accepted (R277). `dem` are the pairs whose demand falls in the same 50 µs evaluation. -/
def State.safReset (s : State) (dem : Nat) (still : List (Nat × Nat)) : State :=
  let act := s.saf.outs.filter fun m => !(s.saf.mapped m).any fun n => nbit dem n
  let refused := act.filter fun m => s.resetRefused 0 m still || s.resetRefused 1 m still
  let was := s.saf.outs.filter s.saf.energized
  let s1 := act.foldl (fun s m => (safBoth s fun s ch => s.resetOut ch m still).outCleared m) (s.resetClears (decide (refused ≠ [])) still)
  let s2 := s1.safEvalBoth
  let now := s2.saf.outs.filter fun m => s2.saf.energized m && !was.contains m
  s2.record .saf 0 0x0F12 [maskOf now, maskOf refused, s2.saf.pulseMs]

/-- Whether a channel accepts a pulse of a length in µs (R276). -/
def rstLenOk (us : Nat) : Bool := decide (50000 ≤ us) && decide (us ≤ 3000000)

/-- SAFE_RST_FALL (R276, R277): the pulse had the lengths `lenH` and `lenP` on the two channels' clocks, which accepted it `skew` µs apart. -/
def execSafeRstFall (lenH lenP skew dem : Nat) (still : List (Nat × Nat)) (s : State) : Out :=
  .next (
    let x := s.saf
    let rested := match x.lowSince with | some t => decide (t + 50000 + lenH ≤ x.us) | none => false
    let accepts := fun (c len : Nat) => rstLenOk len && (!x.stuck || rested) && (x.chan c).alive && (x.chan c).passed
    let ok := accepts 0 lenH && accepts 1 lenP && decide (skew ≤ 20000)
    let s1 := s.updSaf fun x => { x with rstLevel := false, lowSince := some x.us, pulseMs := lenH / 1000, rstSeen := x.rstSeen || accepts 0 lenH }
    if ok then s1.safReset dem still else s1.updSaf fun x => { x with rejected := true })

/-- STUCK_RESET (R276). -/
def execStuckReset (s : State) : Out :=
  .next (s.updSaf fun x => { x with rstLevel := true, stuck := true, lowSince := none })

/-! ### Channels -/

/-- A channel's heartbeat toggles: the partner sees it, and sees it again where it was lost. -/
def State.hbToggle (s : State) (ch : Nat) : State :=
  if !(s.saf.chan ch).alive then s
  else ((s.updSCh ch fun x => { x with hb := !x.hb }).updSCh (1 - ch) fun x => { x with seen := true, lost := false }).safLeaveInit (1 - ch)

/-- SAFETY_HEARTBEAT (R269): a period of 50 µs of the island's own clocks passes; the channels whose heartbeat toggles in tolerance, and the hard-wired channel's status
frame. -/
def execSafetyHeartbeat (hw proc : Bool) (s : State) : Out :=
  .next (
    let s0 := s.updSaf fun x => { x with us := x.us + 50 }
    let s1 := if hw then s0.hbToggle 0 else s0
    let s2 := if proc then s1.hbToggle 1 else s1
    if hw ∧ (s2.saf.chan 0).alive then
      s2.updSaf fun x => { x with frame := some { filt := (x.chan 0).filt, outs := (List.range 4).map (x.outSt 0), rst := x.rstSeen }, rstSeen := false }
    else s2)

/-- CH_LOST (R269, R284): the partner of the lost channel opens its switches and latches CH_LOST; an announced restart is none. -/
def execChLost (lost : Fin 2) (s : State) : Out :=
  .next (
    let k := 1 - lost.val
    if !(s.saf.chan k).alive ∨ (lost.val = 1 ∧ s.saf.fwRestart) then s
    else (s.updSCh k fun x => { x with lost := true }).safFaultAll k cLost)

/-- SAF_OVERTEMP (R271). -/
def execSafOvertemp (ch : Fin 2) (s : State) : Out := .next (s.safChanFault ch.val cOvertemp)

/-- SAF_CPU_FAULT (R271). -/
def execSafCpuFault (s : State) : Out := .next (s.safChanFault 1 cCpu)

/-! ### Outputs -/

/-- EDM_TIMEOUT (R278): the EDM pair did not follow in EDM_TIME, in each channel by its own view. -/
def execEdmTimeout (m : Fin 4) (s : State) : Out :=
  .next (safBoth s fun s ch =>
    if !(s.saf.chan ch).edm.contains m.val then s
    else
      let s1 := s.updSCh ch fun k => { k with edm := k.edm.filter fun j => decide (j ≠ m.val) }
      if s.saf.edmFollows ch m.val then s1 else s1.safFault ch m.val cEdm)

/-- CH_MISMATCH (R278, Table SAF-2): the partner of a channel in ON was not ON for 20 ms. -/
def execChMismatch (m : Fin 4) (ch : Fin 2) (s : State) : Out :=
  .next (if s.saf.outSt ch.val m.val = .on ∧ s.saf.outSt (1 - ch.val) m.val ≠ .on then s.safFault ch.val m.val cMismatch else s)

/-- OFF_PULSE_TEST (R279): one switch of an output that is ON opens, S1 and S2 alternately; no two off-pulses start within 1 ms. -/
def execOffPulseTest (m : Fin 4) (s : State) : Out :=
  .next (
    let x := s.saf
    let free := match x.lastTest with | some t => decide (t + 1000 ≤ x.us) | none => true
    if !x.energized m.val ∨ (Tab.get none x.test m.val).isSome ∨ !free then s
    else
      let sw := Tab.get 0 x.nextSw m.val
      s.updSaf fun x => { x with test := Tab.put none x.test m.val (some sw), nextSw := Tab.put 0 x.nextSw m.val (1 - sw), lastTest := some x.us })

/-- The off-pulse of an output ends with a result. -/
def State.testEnd (s : State) (m sw us : Nat) (pass : Bool) : State :=
  s.updSaf fun x => { x with test := Tab.put none x.test m none, testLast := Tab.put {} x.testLast m { sw := sw, pass := pass, us := us } }

/-- OFF_PULSE_READBACK (R279): the readback reads low `us` µs after the switch opened; the switch closes again 20 µs later. -/
def execOffPulseReadback (m : Fin 4) (us : Nat) (s : State) : Out :=
  .next (
    match Tab.get none s.saf.test m.val with
    | none => s
    | some sw => s.testEnd m.val sw us true)

/-- OFF_PULSE_TIMEOUT (R279): OUT_TEST is latched and both channels open their switches. -/
def execOffPulseTimeout (m : Fin 4) (s : State) : Out :=
  .next (
    match Tab.get none s.saf.test m.val with
    | none => s
    | some sw =>
      let s1 := (s.testEnd m.val sw 200 false).record .saf 0 0x0F17 [m.val, sw, 200]
      safBoth s1 fun s ch => s.safFault ch m.val cOutTest)

/-- OUTPUT_READBACK_FAULT (R279): a readback low on an ON output outside a test, or high on an output in OFF, WAIT_RESET or FAULT. -/
def execOutputReadbackFault (m : Fin 4) (high : Bool) (s : State) : Out :=
  .next (
    let x := s.saf
    if !x.outEn m.val then s
    else if high then
      if x.energized m.val then s
      else
        let s1 := s.updSaf fun x => { x with rb := if x.rb.contains m.val then x.rb else x.rb ++ [m.val] }
        safBoth s1 fun s ch => s.safFault ch m.val cStuckHigh
    else if x.energized m.val ∧ (Tab.get none x.test m.val).isNone then safBoth s fun s ch => s.safFault ch m.val cOverload
    else s)

/-- FS_S_WARNING (R280): FS_S falls below 19.2 V, or is above it again. -/
def execFsSWarning (below : Bool) (s : State) : Out := .next (s.updSaf fun x => { x with fsWarn := below })

/-- FS_S_UNDERVOLTAGE (R280). -/
def execFsSUndervoltage (s : State) : Out :=
  .next (
    if !(s.saf.chan 0).alive then s
    else safBoth (s.updSaf fun x => { x with fsUv := true, fsWarn := true }) fun s ch => if (s.saf.chan ch).alive then s.safFaultAll ch cFsUv else s)

/-- FS_S_RECOVERY (R280). -/
def execFsSRecovery (s : State) : Out := .next (s.updSaf fun x => { x with fsUv := false })

/-! ### The parameter set and the firmware -/

/-- Whether the words of a pair are in range (R283): a disabled pair's are 0. -/
def safPairOk (a b : Word) : Nat × Bool :=
  if bit a 0 then
    if bits a 3 2 = 3 ∨ bits a 5 4 = 3 ∨ bits a 7 6 ≠ 0 ∨ bits a 31 16 ≠ 0 ∨ bits a 15 8 = 0 ∨ 40 < bits a 15 8 then (0, false)
    else (1, decide (10 ≤ b.toNat) && decide (b.toNat ≤ 2000))
  else (if a ≠ 0 then 0 else 1, decide (a = 0) && decide (b = 0))

/-- Whether the words of an output are in range (R283). -/
def safOutOk (a b : Word) : Nat × Bool :=
  if bit a 0 then
    if bit a 3 ∨ bits a 15 12 ≠ 0 ∨ bits a 31 24 ≠ 0 ∨ bits a 23 16 = 0 ∨ 60 < bits a 23 16 then (0, false)
    else if bit a 11 then
      if 3 < bits a 10 8 then (0, false) else (1, decide (50 ≤ b.toNat) && decide (b.toNat ≤ 1000))
    else if bits a 10 8 ≠ 0 then (0, false)
    else (1, decide (b = 0))
  else (if a ≠ 0 then 0 else 1, decide (a = 0) && decide (b = 0))

/-- The first word of a set that is out of range, reserved bits included. -/
def safRange (ws : List Word) : Option Nat :=
  let p := fun k : Nat => nth (0 : Word) ws k
  (List.range 63).find? fun k =>
    if k = 0 then false
    else if k = 1 then decide (bits (p 1) 31 16 ≠ 0)
    else if k = 2 then decide (bits (p 2) 31 1 ≠ 0)
    else if k = 3 then decide (p 3 ≠ 0)
    else if k < 12 then
      let r := safPairOk (p (k - k % 2)) (p (k - k % 2 + 1))
      !r.2 && decide (r.1 = k % 2)
    else if k < 20 then
      let r := safOutOk (p (k - k % 2)) (p (k - k % 2 + 1))
      !r.2 && decide (r.1 = k % 2)
    else decide (p k ≠ 0)

/-- The first output word of a set whose PAIR_MASK is empty, holds a disabled pair or an EDM pair. -/
def safMapping (ws : List Word) : Option Nat :=
  let x : Saf := { param := ws }
  (x.outs.find? fun m =>
    decide (x.mask m = 0) || (x.mapped m).any (fun n => !x.pairEn n || x.outs.any fun j => x.edmEn j && decide (x.edmPair j = n))).map
    fun m => 12 + 2 * m

/-- The check of a received set (R283, Table SAF-6): reason and first failing word. -/
def safCheck (bs : List Byte) (echoOk : Bool) : Nat × Nat :=
  let ws := bytesWords bs
  if nth 0 ws 0 ≠ 0x50464153 then (1, 0)
  else if (nth 0 ws 63).toNat ≠ crc32c (bs.take 252) ∨ !echoOk then (2, 63)
  else
    match safRange ws with
    | some k => (3, k)
    | none =>
      match safMapping ws with
      | some k => (4, k)
      | none => (0, 0)

/-- SAFETY_PARAM_RECEIVE (R283): the island receives an applied set, checks it and makes it PENDING or refuses it. `echoOk` says that the
hard-wired channel echoed the set's CRC. -/
def execSafetyParamReceive (echoOk : Bool) (s : State) : Out :=
  .next (
    match s.saf.paramIn with
    | [] => s
    | bs :: rest =>
      if !(s.saf.chan 1).alive then s
      else
        let s1 := s.updSaf fun x => { x with paramIn := rest }
        let r := safCheck bs echoOk
        if r.1 ≠ 0 then
          ((s1.updSaf fun x => { x with reason := r.1, failWord := r.2 }).record .saf 1 0x0F14 [r.1, r.2]).irq .saf 10
        else
          let s2 := if s1.saf.pending.isSome then (s1.record .saf 1 0x0F14 [5, 0]).irq .saf 10 else s1
          s2.updSaf fun x => { x with pending := some (bytesWords bs), reason := 0, failWord := 0 })

/-- FW_REFUSED (Table SAF-8), whose cause code the spec does not give. -/
def State.fwRefused (s : State) (ver : Nat) : State :=
  let (n, s1) := s.draw
  (s1.updSaf fun x => { x with fwResult := 3 }).record .saf 1 0x0F16 [ver, (Config.freeWord n).toNat]

/-- Whether the firmware's signature verifies (R284): SHA-256 of its public key is in an OTP slot that is not revoked (R465), and the last 64 bytes sign the others. Where the
payload holds the key the spec does not say (log 79). -/
def safFwSigned (bs : List Byte) : Bool :=
  let pub := Config.safFwKey bs
  ((List.range 4).any fun k => decide (sha256 pub = Config.otpKeyHash k) && !Config.otpRevoked k) &&
    ecdsaOk pub (sha256 (bs.take (bs.length - 64))) (bs.drop (bs.length - 64))

/-- SAFETY_FW_RECEIVE (R284): the island writes the firmware to its inactive slot and verifies it; `ok` says that the slot's cells took it, `ver` is the version it states. -/
def execSafetyFwReceive (ok : Bool) (ver : Nat) (s : State) : Out :=
  .next (
    match s.saf.fwIn with
    | [] => s
    | bs :: rest =>
      if !(s.saf.chan 1).alive then s
      else
        let s1 := s.updSaf fun x => { x with fwIn := rest, fwSlots := Tab.put [] x.fwSlots (1 - x.fwSlot) bs }
        if ok && safFwSigned bs then s1.updSaf fun x => { x with fwPending := some ver, fwResult := 2 } else s1.fwRefused ver)

/-- SAFETY_FW_SWITCH (R284): no enabled output is ON; the processor channel restarts with its switches open. -/
def execSafetyFwSwitch (s : State) : Out :=
  .next (
    if s.saf.fwPending.isNone ∨ !s.saf.idle ∨ s.saf.fwRestart ∨ !(s.saf.chan 1).alive then s
    else
      (s.updSaf fun x => { x with fwRestart := true }).updSCh 1 fun k => { k with passed := false, outs := Tab.mapAll {} (fun o => { o with st := if o.causes = [] then .init else .fault, resetSeen := false }) k.outs, edm := [] })

/-- SAFETY_FW_SELFTEST_END (R283, R284): the new firmware stays, or the previous slot returns with FW_REFUSED; outputs need a reset. The stored set is checked at this start
too. -/
def execSafetyFwSelftestEnd (r : SelfTest) (s : State) : Out :=
  .next (
    if !s.saf.fwRestart then s
    else
      let v := s.saf.fwPending.getD 0
      let s1 := s.updSaf fun x => { x with fwRestart := false, fwPending := none }
      let s2 :=
        if r.ok then
          let t := s1.updSaf fun x => { x with fwVer := v, fwSlot := 1 - x.fwSlot, fwResult := 1 }
          t.record .saf 1 0x0F15 [v, t.saf.fwSlot]
        else s1.fwRefused v
      let s3 := s2.updSCh 1 fun k => { k with passed := true, paramBad := !r.paramOk && decide (s.saf.param ≠ []) }
      let s4 := safBoth s3 fun s ch => s.saf.outs.foldl (fun s m => s.updSOut ch m fun o => { o with resetSeen := false }) s
      (s4.safLeaveInit 1).safStanding 1)

/-! ### Start of a channel -/

/-- ISLAND_STARTUP_SELFTEST_END (R271, R278, R283): a channel leaves INIT, stays there without a set, or latches CPU or PARAM. `paramOk` says that the
stored set of the channel matches its CRC. -/
def execIslandStartupSelftestEnd (ch : Fin 2) (ok paramOk : Bool) (s : State) : Out :=
  .next (
    if !(s.saf.chan ch.val).alive ∨ (s.saf.chan ch.val).passed then s
    else if !ok then (if ch.val = 1 then s.safChanFault 1 cCpu else s)
    else
      let s1 := s.updSCh ch.val fun k => { k with passed := true, paramBad := !paramOk && decide (s.saf.param ≠ []) }
      if s.saf.param = [] then s1 else (safBoth s1 State.safLeaveInit).safStanding ch.val)

/-- A channel starts after its supply arrived; a reset input found high is a stuck one (R276). -/
def State.safChanUp (s : State) (ch : Nat) (rstHigh : Bool) : State :=
  let s1 := s.updSaf fun x => { x with ch := Tab.put {} x.ch ch {} }
  if rstHigh then s1.updSaf fun x => { x with rstLevel := true, stuck := true, lowSince := none } else s1

/-- A channel loses its supply: its switches open. -/
def State.safChanDown (s : State) (ch : Nat) : State :=
  s.updSaf fun x => { x with ch := Tab.put {} x.ch ch { alive := false }, test := [] }

/-- VDD_SAFE_POWER_UP (R272, R276). -/
def execVddSafePowerUp (rstHigh : Bool) (s : State) : Out :=
  .next (if (s.saf.chan 1).alive then s else (s.safChanUp 1 rstHigh).updHd .saf fun h => { h with pwr := .on })

/-- VDD_SAFE_LOSS (R268, R283): the processor channel's switches open and a PENDING set is lost. -/
def execVddSafeLoss (s : State) : Out :=
  .next (
    if !(s.saf.chan 1).alive then s
    else
      let s1 := (s.safChanDown 1).updSaf fun x => { x with pending := none, fwRestart := false }
      s1.updHd .saf fun h => { h with pwr := .off })

end Sys2Proof.Machine
end

