-- ==== Sys2Proof/Machine/Pmc.lean ====
section
/-!
DEFINITION. The power-mode controller (R454–R459): domain commands, entry handshake, rollback, wake; and the commands of CLK and CAN that a wake waits for or causes.
-/

namespace Sys2Proof.Machine

def errPmcBusy : Nat := 0x20
def errRefused : Nat := 0x21
def errDomainDep : Nat := 0x22
def errStateCmd : Nat := 0x23
def errBadMask : Nat := 0x24

/-- Change the power-mode controller. -/
def State.updPmc (s : State) (f : Pmc → Pmc) : State := { s with pmc := f s.pmc }

/-- PMC_STAT's state code (Table PMC-6). -/
def PSt.code : PSt → Nat
  | .run => 0 | .eco => 1 | .standby => 2 | .hibernate => 3 | .entering => 4 | .waking => 5 | .rollback => 6

/-- The result of a PMC command. -/
def State.pmcResult (s : State) (e : Nat) : State :=
  let s1 := s.updPmc fun x => { x with result := e }
  if e = 0 then s1 else s1.err .pmc e

/-- STATE_CHANGE (Table PMC-8), with the time since the transition began. -/
def State.pmcTo (s : State) (old new : PSt) : State :=
  ((s.updPmc fun x => { x with st := new }).record .pmc 0 0x0310 [old.code, new.code, s.upUs - s.pmc.t0]).irq .pmc 8

/-! ### Wake and power-up -/

/-- Whether CLK_RT runs from the PLL at divisor 6 (R447). -/
def Clk.rtReady (x : Clk) : Bool := !(x.dom 1).frc && decide ((x.dom 1).div = 6) && !(x.dom 1).ramp

/-- The next domains of the wake pattern power up together once those before are ON (R454); a return from ECO ends with the last (R456). -/
def State.wakeNext (s : State) : State :=
  let x := s.pmc
  if x.st ≠ .waking ∨ x.trans ≠ [] ∨ (s.clk.dom 0).ramp ∨ (x.from_ = .standby ∧ !s.clk.locked) then s
  else
    match wakeOrder.find? fun l => l.any fun d => x.todo.contains d with
    | some l =>
      let now := l.filter fun d => x.todo.contains d
      s.updPmc fun x => { x with trans := now, todo := x.todo.filter fun d => !now.contains d }
    | none => if x.from_ = .eco then s.pmcTo .eco .run else s

/-- A domain clock on the PLL at a divisor, without a step left (the end of its ramp). -/
def State.domAt (s : State) (d div : Nat) : State := s.updDom d fun _ => { div := div, frc := false, ramp := false, tgt := div }

/-- PLL_LOCK (R443, R450). Time leaves the coarse counter where CLK_RT then runs from the crystal (R360); in a wake from STANDBY PMC's ramps are complete with the lock and the
domains follow (log 83). -/
def execPllLock (s : State) : Out :=
  .next (
    let s1 := s.pllLock
    let s2 :=
      if s1.tim.coarse && s1.domOn 3 && s1.clk.locked && !s1.clk.ref && !(s1.clk.dom 1).frc then
        (s1.updTim fun t => { t with coarse := false }).record .tim 0 0x0615 [0, s1.tim.unc]
      else s1
    if s2.pmc.st = .waking ∧ s2.pmc.from_ = .standby ∧ s2.clk.locked then
      ((((s2.domAt 0 (if bit (s2.reg R.PMC_WAKE_TGT) 0 then 8 else 2)).domAt 1 6).domAt 2 12).domAt 3 24).wakeNext
    else s2)

/-- RAMP_STEP (R446); the last step of CLK_CPU lets a return from ECO go on (R455). -/
def execRampStep (d : Fin 4) (s : State) : Out := .next ((s.rampStep d.val).wakeNext)

/-- A domain that slept wakes: nothing of its state was lost. -/
def State.domWake (d : Nat) (s : State) : State :=
  let s1 := (s.domPwr d .on).updPmc fun x => { x with on := domInsert d x.on, trans := x.trans.filter fun y => decide (y ≠ d) }
  (if d = 11 then s1.updMem fun m => { m with selfRefresh := false } else s1).domRecord d 3 1

/-- DOMAIN_POWER_UP_DONE (R454): a domain in transition is ON; PD_RT only with CLK_RT at its target (R447), PD_MEM only with PG_MEM high. `net` is the coarse time then and
`elapsed` the time in ns since CLK_RT stopped, which TIM takes over with PD_RT. -/
def execDomainPowerUpDone (d : Fin 13) (net elapsed : Nat) (s : State) : Out :=
  .next (
    if !s.pmc.trans.contains d.val ∨ !((domReq d.val).all fun x => s.domOn x) ∨ (d.val = 3 ∧ !s.clk.rtReady) ∨ (d.val = 11 ∧ !s.erm.supply.pgMem) then s
    else
      let slept := (domBlocks d.val).any fun b => decide ((s.hd b).pwr = .sleep)
      (if slept then s.domWake d.val else s.domUp d.val net elapsed).wakeNext)

/-- The device wakes from STANDBY: the PLL starts and the domains that were ON at entry are due. -/
def State.wakeStandby (s : State) : State :=
  let masked := if bit (s.reg R.PMC_WAKE_TGT) 0 then (s.reg R.PMC_ECO_MASK).toNat else 0
  let s1 := s.updPmc fun x => { x with st := .waking, from_ := .standby, t0 := s.upUs, todo := x.todo.filter (fun d => !nbit masked d),
                                       ecoOff := x.ecoOff ++ x.todo.filter fun d => nbit masked d }
  (s1.updHd .fio fun h => if h.pwr = .sleep then { h with pwr := .on } else h).pllStart

/-- The device wakes from HIBERNATE: FRC starts, and start-up runs from phase 2 (Table PMC-3). -/
def State.wakeHibernate (s : State) : State :=
  let s1 := s.updPmc fun x => { x with t0 := s.upUs, todo := [], ecoOff := [] }
  let s2 := { s1 with erm := { s1.erm with phase := 1 }, sys := { s1.sys with romAlive := true } }
  let s3 := (s2.updHd .fio fun h => if h.pwr = .sleep then { h with pwr := .on } else h).pmcTo .hibernate .run
  (s3.record .pmc 0 0x0312 [s3.pmc.wakeCause, s3.pmc.wakeStat]).irq .pmc 10

/-- A wake source fires (R456, R459): sources that fire in the same microsecond are all recorded and the lowest code is the cause. -/
def State.wakeSource (s : State) (code : Nat) : State :=
  let x := s.pmc
  let again := decide (x.wakeT = some s.upUs)
  let sleeping := decide (x.st = .standby) || decide (x.st = .hibernate) || decide (x.st = .entering)
  if !(bit (s.reg R.PMC_WAKE_EN) code) ∨ !(sleeping || again) then s
  else
    let s1 := s.updPmc fun x => { x with wakeStat := nput x.wakeStat code true, wakeT := some s.upUs,
                                         wakeCause := if again then min x.wakeCause code else code }
    match x.st with
    | .standby => s1.wakeStandby
    | .hibernate => s1.wakeHibernate
    | .entering => s1.pmcRollback 0 2
    | _ => s1

/-- WAKE_N_LOW, PMC_ALARM_MATCH, LANE_SIGNAL_DETECT, AVE_SIGNAL_DETECT, PERST_N_RISE (Table PMC-5). -/
def execWakeNLow (s : State) : Out := .next (s.wakeSource 0)
def execPmcAlarmMatch (s : State) : Out := .next (s.wakeSource 1)
def execLaneSignalDetect (n : Fin 8) (s : State) : Out := .next (s.wakeSource (2 + n.val))
def execAveSignalDetect (n : Fin 6) (s : State) : Out := .next (s.wakeSource (10 + n.val))
def execPerstNRise (s : State) : Out := .next (s.wakeSource 20)

/-- PMC_WAKE_STAT_CLEAR (R461). -/
def execPmcWakeStatClear (p : Principal) (m : Word) (s : State) : Out :=
  .next (s.gated .pmc 0x118 .w1c p m fun s => s.updPmc fun x => { x with wakeStat := (w1c (word x.wakeStat) m).toNat })

/-- Whether a frame wakes a controller in WAKE_MODE 1 (R439). -/
def State.wakeFrame (s : State) (n : Nat) (id : BitVec 29) (xtd : Bool) (data0 : Byte) : Bool :=
  let w := s.regAt R.CAN_WAKE_ID (0x1000 * n)
  let m := bits (s.regAt R.CAN_WAKE_MASK (0x1000 * n)) 28 0
  let d := s.regAt R.CAN_WAKE_DATA (0x1000 * n)
  decide (xtd = bit w 29) && decide (id.toNat &&& m = bits w 28 0 &&& m) && decide (data0.toNat &&& bits d 15 8 = bits d 7 0 &&& bits d 15 8)

/-- CAN_WAKE_DETECT (R439, R459): on a sleeping controller a dominant level that lasted WAKE_FILT wakes in mode 0, a matching frame in mode 1; in HIBERNATE, where FRC is
stopped, mode 1 acts as mode 0. The controller's PMC wake source fires. -/
def execCanWakeDetect (n : Fin 4) (frame : Bool) (id : BitVec 29) (xtd : Bool) (data0 : Byte) (s : State) : Out :=
  .next (
    let mode1 := bit (s.canCfg n.val) 5 && decide (s.pmc.st ≠ .hibernate)
    let wakes := if mode1 then frame && s.wakeFrame n.val id xtd data0 else !frame
    if (s.cctl n.val).state ≠ .sleep ∨ !wakes then s
    else (s.canWoken n.val (b2n frame) (if frame then id.toNat else 0)).wakeSource (16 + n.val))

/-! ### Entry handshake -/

/-- A block's answer to a sleep request (R457). -/
inductive HsAns where
  | agree | refuse | wait
deriving DecidableEq, Repr

/-- The blocks in the order in which they are asked (Table PMC-4); PTD, which always agrees, is last. -/
def askOrder : List Block :=
  [.fio, .acq, .hrc, .can, .hif, .ave, .lne, .ilp, .mot, .csc, .rsq, .ce, .xng, .hts, .cpu, .mem, .ptd]

/-- What the block asked next answers (Table PMC-4). `wfi` says that the requesting core waits in WFI, `busy` that MEM's entry to self-refresh is in progress. -/
def State.hsAnswer (s : State) (h : PHs) (wfi busy : Bool) : Block → HsAns
  | .fio => if s.fioBusy then .refuse else .agree
  | .acq => if s.acq.state = .armed ∨ s.acq.state = .post ∨ s.acq.state = .rearm then .refuse else .agree
  | .hrc => if s.hrc.unsent = [] then .agree else .wait
  | .can => if s.canBusy then .refuse else .agree
  | .hif => if (List.range 8).any fun n => decide ((s.ring n).state = .active) then .refuse else .agree
  | .ave =>
    if s.knownFlows ≠ [] ∨ s.ave.recOwn ≠ 0 ∨ s.ave.recSum ≠ 0 ∨ s.ave.role = .active ∨ s.ave.role = .standby then .refuse else .agree
  | .lne => if (List.range 8).any fun p => !(s.lport p).eth && decide ((s.lport p).state ≠ .off) then .refuse else .agree
  | .ilp => if s.ilp.mode = .stop then .agree else .refuse
  | .mot => if (s.axesWhere fun a => decide (a.state ≠ .disabled)) = [] then .agree else .refuse
  | .csc => if s.csc.groups.any fun e => decide (e.2.state = .armed) then .refuse else .agree
  | .rsq => if s.rsqActive then .refuse else .agree
  | .ce => if s.loopsActive = [] then .agree else .refuse
  | .xng => if s.xngBusy then .refuse else .agree
  | .hts =>
    if s.hts.ready ≠ [] ∨ (s.hts.ports.any fun e => e.2.unit.isSome) ∨ (s.hts.flows.any fun e => decide (e.2 ≠ [])) then .refuse else .agree
  | .cpu =>
    let cs := (if h.doms.contains 1 then domCores 1 else []) ++ (if h.doms.contains 2 then domCores 2 else [])
    if cs.any fun c => bit (s.reg R.CPU_CORE_EN) c && decide (some c ≠ h.core) then .refuse
    else if (match h.core with | some c => cs.contains c | none => false) && !wfi then .wait
    else .agree
  | .mem => if busy then .wait else .agree
  | _ => .agree

/-- The domain clocks and sources in STANDBY and HIBERNATE (Table PMC-2). -/
def State.clkLow (s : State) (hib : Bool) : State :=
  s.updClk fun x => { x with pllOn := false, locked := false, doms := [], sw := [], why := none, backWait := none, xo := if hib then .off else x.xo }

/-- The switched domains that are ON, in reverse wake pattern order. -/
def State.downOrder (s : State) (l : List Nat) : List Nat := ((wakeOrder.flatMap id).filter fun d => l.contains d && s.domOn d).reverse

/-- SHA-256 over the resume area (R459). -/
def State.resumeHash (s : State) : List Byte :=
  sha256 (s.load ((s.reg R.PMC_RESUME_LO).toNat + 2 ^ 32 * (s.reg R.PMC_RESUME_HI).toNat) (bits (s.reg R.PMC_RESUME_LEN) 24 0))

/-- PD_MEM enters SLEEP with the SDRAM in self-refresh. -/
def State.memSleep (s : State) : State :=
  if !s.domOn 11 then s
  else
    (((s.domPwr 11 .sleep).updMem fun m => { m with selfRefresh := true }).updPmc fun x => { x with on := x.on.filter fun d => decide (d ≠ 11) }).domRecord 11 1 3

/-- Every block agreed (Table PMC-3): the domains power down in reverse wake pattern order, the clocks follow Table PMC-2. What STANDBY and HIBERNATE do not keep is lost (log 84). -/
def State.enterLow (s : State) (tgt : PSt) : State :=
  let x := s.pmc
  let on := x.on
  let s1 := s.updPmc fun x => { x with hs := none, result := 0 }
  match tgt with
  | .eco =>
    let m := (s.reg R.PMC_ECO_MASK).toNat
    let offs := on.filter fun d => nbit m d
    let s2 := (s1.downOrder offs).foldl (fun s d => s.domDown d) s1
    let s3 := if (s2.clk.dom 0).frc then s2 else s2.updDom 0 fun y => { y with tgt := 8, ramp := decide (y.div ≠ 8) }
    (s3.updPmc fun x => { x with ecoOff := offs }).pmcTo x.from_ .eco
  | .standby =>
    let h := s1.resumeHash
    let s2 := (s1.downOrder (on.filter fun d => decide (d ≠ 11))).foldl (fun s d => s.domDown d) s1
    let s3 := ((s2.memSleep.clkLow false).dropMem fun a => decide (a < 0x800000000))
    ({ s3 with fio := { s3.fio with linkUp := false, cfgSync := false } }.updPmc fun x => { x with todo := on, hash := h }).pmcTo x.from_ .standby
  | .hibernate =>
    let s2 := (s1.downOrder on).foldl (fun s d => s.domDown d) s1
    let s3 := (s2.clkLow true).dropMem fun _ => true
    ({ s3 with fio := { s3.fio with linkUp := false, cfgSync := false } }.updPmc fun x => { x with todo := [] }).pmcTo x.from_ .hibernate
  | _ => s1

/-- The handshake has ended in agreement: a power state is entered, or one domain powers down. -/
def State.hsAgreed (s : State) (h : PHs) : State :=
  match h.dom with
  | some d => (s.domDown d).updPmc fun x => { x with hs := none, result := 0 }
  | none => s.enterLow s.pmc.tgt

/-- Start a handshake for some domains; FIO is asked first where the link falls silent. -/
def State.hsStart (s : State) (doms : List Nat) (low : Bool) (core dom : Option Nat) : State :=
  let ask := askOrder.filter fun b =>
    (low && decide (b = .fio)) ||
      ((doms.contains b.domain.code || (decide (b = .cpu) && doms.contains 2)) && decide ((s.hd b).pwr = .on))
  let h : PHs := { doms := doms, ask := ask, core := core, dom := dom }
  let s1 := s.updPmc fun x => { x with hs := some h, t0 := s.upUs }
  if ask = [] then s1.hsAgreed h else s1

/-- The block that waited last and how long, in units of 100 µs (PMC_WAIT_LAST). -/
def State.waitEnded (s : State) (h : PHs) : State :=
  match h.wait with
  | none => s
  | some (b, t) => s.updPmc fun x => { x with waitBlk := b.code, waitTime := min 0xFFFF ((s.upUs - t) / 100) }

/-- PMC_HANDSHAKE_ANSWER (R457): the block asked next answers. One that agrees has its clock stopped before the next is asked. -/
def execPmcHandshakeAnswer (wfi busy : Bool) (s : State) : Out :=
  .next (
    match s.pmc.hs with
    | none => s
    | some h =>
      match h.ask with
      | [] => s
      | b :: rest =>
        match s.hsAnswer h wfi busy b with
        | .refuse => (s.waitEnded h).pmcRollback b.code 0
        | .wait =>
          if h.wait.isSome then s
          else (if b = .hrc then s.hrcClose else s).updPmc fun x => { x with hs := some { h with wait := some (b, s.upUs) } }
        | .agree =>
          let s1 := s.waitEnded h
          let stop := h.doms.contains b.domain.code || decide (b = .fio)
          let s2 := if stop then s1.updHd b fun x => { x with pwr := .sleep } else s1
          let h2 : PHs := { h with ask := rest, wait := none, stopped := if stop then b :: h.stopped else h.stopped }
          let s3 := s2.updPmc fun x => { x with hs := some h2 }
          if rest = [] then s3.hsAgreed h2 else s3)

/-- PMC_WAIT_TIMEOUT (R457). -/
def execPmcWaitTimeout (s : State) : Out :=
  .next (
    match s.pmc.hs with
    | none => s
    | some h =>
      match h.wait with
      | none => s
      | some (b, _) => (s.waitEnded h).pmcRollback b.code 1)

/-- PMC_ROLLBACK_DONE (R458): the stopped blocks are ON again, latest first, and the previous state is in force. REFUSED names the target state, for a domain command a
free value. -/
def execPmcRollbackDone (s : State) : Out :=
  .next (
    match s.pmc.hs with
    | none => s
    | some h =>
      if !h.back then s
      else
        let s1 := h.stopped.foldl (fun s b => s.updHd b fun x => { x with pwr := .on }) s
        let (n, s2) := if h.dom.isSome then s1.draw else (0, s1)
        let tgt := if h.dom.isSome then (Config.freeWord n).toNat % 256 else s.pmc.tgt.code
        let s3 := s2.updPmc fun x => { x with hs := none, st := if x.st = .rollback then x.from_ else x.st }
        let s4 := (s3.record .pmc 0 0x0311 [tgt, s.pmc.refBlk, s.pmc.cause]).irq .pmc 9
        if s.pmc.cause ≤ 1 then s4.err .pmc errRefused else s4)

/-! ### Commands -/

/-- The core that issues a command. -/
def coreOf : Principal → Option Nat
  | .app c => some c.val
  | .rom => some 0
  | _ => none

/-- Whether a transition is in progress. -/
def Pmc.busy (x : Pmc) : Bool := decide (x.st = .entering) || decide (x.st = .waking) || decide (x.st = .rollback) || x.hs.isSome || decide (x.trans ≠ [])

/-- A command of PMC_CMD (R456): the state it asks for, the states it is listed in. -/
def State.pmcCmd (s : State) (p : Principal) (code : Nat) (tgt : PSt) (from_ : List PSt) (f : State → State) : State :=
  s.gated .pmc 0x100 .wo p (word code) fun s =>
    if s.pmc.busy then s.pmcResult errPmcBusy
    else if s.pmc.st = tgt then s.pmcResult 0
    else if !from_.contains s.pmc.st then s.pmcResult errStateCmd
    else f ((s.pmcResult 0).updPmc fun x => { x with from_ := x.st, tgt := tgt, t0 := s.upUs, refBlk := 0, wakeT := none })

/-- PMC_RUN (R456): CLK_CPU ramps up, then the masked domains return (R455). -/
def execPmcRun (p : Principal) (s : State) : Out :=
  .next (s.pmcCmd p 1 .run [.eco] fun s =>
    let s1 := s.updPmc fun x => { x with st := .waking, todo := x.ecoOff.filter (fun d => !x.on.contains d), ecoOff := [] }
    (if (s1.clk.dom 0).frc then s1 else s1.updDom 0 fun y => { y with tgt := 2, ramp := decide (y.div ≠ 2) }).wakeNext)

/-- PMC_ECO, PMC_STANDBY, PMC_HIBERNATE (R455, R456): the handshake for the domains that go OFF or SLEEP. PMC_ECO_MASK applies now (Table PMC-6). -/
def execPmcEco (p : Principal) (s : State) : Out :=
  .next (s.pmcCmd p 2 .eco [.run] fun s =>
    (s.updPmc fun x => { x with st := .entering }).hsStart (s.pmc.on.filter fun d => bit (s.reg R.PMC_ECO_MASK) d) false (coreOf p) none)
def execPmcStandby (p : Principal) (s : State) : Out :=
  .next (s.pmcCmd p 3 .standby [.run, .eco] fun s => (s.updPmc fun x => { x with st := .entering }).hsStart s.pmc.on true (coreOf p) none)
def execPmcHibernate (p : Principal) (s : State) : Out :=
  .next (s.pmcCmd p 4 .hibernate [.run, .eco] fun s => (s.updPmc fun x => { x with st := .entering }).hsStart s.pmc.on true (coreOf p) none)

/-- PMC_DOM_ON (R454): the domain's power-up begins where every domain it requires is ON. -/
def execPmcDomOn (p : Principal) (d : Fin 16) (s : State) : Out :=
  .next (s.gated .pmc 0x108 .wo p (word (0x100 + d.val)) fun s =>
    if d.val = 0 ∨ 12 < d.val then s.pmcResult errValueRange
    else if s.pmc.busy then s.pmcResult errPmcBusy
    else if s.domOn d.val then s.pmcResult 0
    else if !((domReq d.val).all fun x => s.domOn x) then s.pmcResult errDomainDep
    else ((s.pmcResult 0).domPwr d.val .reset).updPmc fun x => { x with trans := domInsert d.val x.trans })

/-- PMC_DOM_OFF (R454): refused while a domain that is ON requires it; the blocks are asked first (R458). -/
def execPmcDomOff (p : Principal) (d : Fin 16) (s : State) : Out :=
  .next (s.gated .pmc 0x108 .wo p (word (0x200 + d.val)) fun s =>
    if d.val = 0 ∨ 12 < d.val then s.pmcResult errValueRange
    else if s.pmc.busy then s.pmcResult errPmcBusy
    else if !s.domOn d.val then s.pmcResult 0
    else if s.pmc.on.any fun x => (domReq x).contains d.val then s.pmcResult errDomainDep
    else (s.pmcResult 0).hsStart [d.val] false (coreOf p) (some d.val))

/-- PMC_WAKE_DONE (R456, R459): everything is restored after a wake from STANDBY; core 0 starts in the boot ROM, which jumps to PMC_RESUME_VEC where the SHA-256 is the one
stored at entry, and else performs the full boot. -/
def execPmcWakeDone (s : State) : Out :=
  .next (
    let x := s.pmc
    if x.st ≠ .waking ∨ x.from_ ≠ .standby ∨ x.todo ≠ [] ∨ x.trans ≠ [] ∨ !s.clk.locked then s
    else
      let vec := (s.reg R.PMC_RESUME_LO).toNat + 2 ^ 32 * (s.reg R.PMC_RESUME_HI).toNat
      let ok := decide (s.resumeHash = x.hash)
      let s1 := (s.updCore 0 fun k => { k with running := true, startPc := if ok then vec else 0 })
      let s2 := if ok then s1 else { s1 with erm := { s1.erm with phase := 3 }, sys := { s1.sys with romAlive := true } }
      let s3 := s2.pmcTo .standby (if bit (s.reg R.PMC_WAKE_TGT) 0 then .eco else .run)
      (s3.record .pmc 0 0x0312 [x.wakeCause, x.wakeStat]).irq .pmc 10)

/-- The check of PMC_ECO_MASK's shadow (R455): PD_CPUA, PD_RT and PD_MEM stay on. -/
def State.pmcCommitCheck (s : State) : Nat :=
  let w := s.shReg R.PMC_ECO_MASK
  if bit w 1 || bit w 3 || bit w 11 then errBadMask else if bit w 0 then errCommitRefused else 0

end Sys2Proof.Machine
end

