-- ==== Sys2Proof/Machine/Force.lean ====
section
/-!
DEFINITION. Application and host writes of hot and cold entries (R65), forcing and simulation (R69–R71). Each of these changes what reads of a point return, so the
axes that follow a class A point take it at once (R218).
-/

namespace Sys2Proof.Machine

/-- What reads of a point return has just changed. -/
def State.followNow (s : State) (idx : Nat) : State := s.followPoint idx s.tick

/-- An application or host write of a hot or cold entry (R65): only aligned 64-bit accesses, only permitted principals. `cold` selects
the image and `i` the hot index or local index; `whole` says that the access is an aligned 64-bit one. -/
def State.hotWrite (s : State) (p : Principal) (cold : Bool) (i : Nat) (whole : Bool) (v : Word) (q : Byte) : State :=
  let addr := if cold then 8 * i else 0x20000000 + 8 * i
  if !s.present .ptd then s.tellPrincipal p Block.ptd.code errBlockAbsent addr
  else if cold && !(s.hd .mem).running then s.tellPrincipal p Block.mem.code errBlockAbsent addr
  else if !whole then (s.err .ptd errAccessSize).storeFault p .ptd errAccessSize addr
  else if !s.permits p Block.ptd.code then (s.deny .ptd (addr % 0x10000) p v).storeFault p .ptd errAccessDenied addr
  else
    match s.entryPoint cold i with
    | none => s.err .ptd errPointRo
    | some idx => (s.appWrite idx v q).followNow idx

/-! ### Forcing and simulation -/

/-- The most points the force table holds (R69). -/
def forceMax : Nat := 256

/-- The codes of the force commands' records (R71). "In command order" is read as the order of the bits of PTD_FORCE_CMD (DEDUCED, log 102). -/
def recForce : Nat := 0x0840
def recRelease : Nat := 0x0841
def recReleaseAll : Nat := 0x0842
def recSimOn : Nat := 0x0843
def recSimOff : Nat := 0x0844

/-- The record of R71 with RESULT, FORCE_DONE and, for a refusal, the error code. -/
def State.forceDone (s : State) (code : Nat) (gid : Nat) (p : Principal) (v result : Nat) : State :=
  let s1 := { s with ptd := { s.ptd with forceResult := result } }
  let s2 := (s1.irq .ptd 9).record .ptd 0 code [gid, p.code, v, result]
  if result = 0 then s2 else s2.err .ptd result

/-- Whether a principal may force (R69). -/
def State.mayForce (s : State) (p : Principal) : Bool :=
  nbit (s.pmap 14) p.code && (match p with | .dbg => s.debugOpen | .rom => s.sys.romAlive | _ => true) ||
    (decide (p = .dbg) && s.debugOpen)

/-- Whether a point can be forced: hot-bound and no SAF point (R69). -/
def forceable (e : DirEntry) : Bool := decide (e.kind ≠ .none) && e.hot && decide (e.srcType ≠ .saf)

/-- What a forced point reads (R69). -/
def forcedEntry (e : DirEntry) (v : Word) (t : Nat) : Entry :=
  { value := encodeKind e.kind v, q := qValid ||| qForced, timeLo := timeLo t }

/-- Put a point into the force table: a request for a point already there replaces the earlier one and keeps its shadow. -/
def State.addForce (s : State) (idx : Nat) (sim : Bool) : State :=
  match s.forceOf idx with
  | some _ => { s with ptd := { s.ptd with force := s.ptd.force.map fun f => if f.idx = idx then { f with sim := sim } else f } }
  | none => { s with ptd := { s.ptd with force := s.ptd.force ++ [{ idx := idx, sim := sim, shadow := s.entry idx }] } }

/-- End a force or a simulation: the shadow is restored with its own quality and time (R69). -/
def State.endForce (s : State) (f : ForceEnt) : State :=
  (({ s with ptd := { s.ptd with force := s.ptd.force.filter fun g => decide (g.idx ≠ f.idx) } }).putEntry f.idx f.shadow).followNow f.idx

/-- The result of a FORCE or SIM_ON request, 0 where it is accepted. -/
def State.forceCheck (s : State) (p : Principal) (idx : Nat) (sim : Bool) : Nat :=
  if !s.mayForce p || !forceable (s.point idx) then errForceDenied
  else if sim && !(bit (s.reg R.PTD_CFG) 0) && decide (s.sys.sysrec.lifecycle ≠ 1) then errForceDenied
  else if (s.forceOf idx).isNone && decide (forceMax ≤ s.ptd.force.length) then errForceFull
  else 0

/-- PTD_FORCE_IDX. -/
def State.forceIdx (s : State) : Nat := bits (s.reg R.PTD_FORCE_IDX) 18 0

/-- FORCE (R69). -/
def execForce (p : Principal) (s : State) : Out :=
  .next (s.gated .ptd 0x138 .w1s p 0x01 fun s =>
    let idx := s.forceIdx
    let v := s.reg R.PTD_FORCE_VAL
    let r := s.forceCheck p idx false
    let s1 := if r ≠ 0 then s else ((s.addForce idx false).putEntry idx (forcedEntry (s.point idx) v s.now)).followNow idx
    s1.forceDone recForce (s.gid idx) p v.toNat r)

/-- RELEASE (R69): ends only a force. The record's value is the restored one, and 0 for a refusal (DESIGN CHOICE, log 102). -/
def execRelease (p : Principal) (s : State) : Out :=
  .next (s.gated .ptd 0x138 .w1s p 0x02 fun s =>
    let idx := s.forceIdx
    match s.forceOf idx with
    | some f =>
      if f.sim then s.forceDone recRelease (s.gid idx) p 0 errForceState
      else (s.endForce f).forceDone recRelease (s.gid idx) p f.shadow.value.toNat 0
    | none => s.forceDone recRelease (s.gid idx) p 0 errForceState)

/-- RELEASE_ALL (R69): ends every force and every simulation at once. -/
def execReleaseAll (p : Principal) (s : State) : Out :=
  .next (s.gated .ptd 0x138 .w1s p 0x04 fun s =>
    (s.ptd.force.foldl (fun s f => s.endForce f) s).forceDone recReleaseAll 0xFFFFFFFF p s.ptd.force.length 0)

/-- SIM_ON (R70): until the first simulated write, reads return the entry as it stood, with SIM added. The record's value is the
value as it stood (DESIGN CHOICE, log 102). -/
def execSimOn (p : Principal) (s : State) : Out :=
  .next (s.gated .ptd 0x138 .w1s p 0x08 fun s =>
    let idx := s.forceIdx
    let r := s.forceCheck p idx true
    let stood := match s.forceOf idx with | some f => f.shadow | none => s.entry idx
    let s1 := if r ≠ 0 then s else ((s.addForce idx true).putEntry idx { stood with q := stood.q ||| qSim }).followNow idx
    s1.forceDone recSimOn (s.gid idx) p stood.value.toNat r)

/-- SIM_OFF (R70): ends only a simulation; the record's value as for RELEASE (log 102). -/
def execSimOff (p : Principal) (s : State) : Out :=
  .next (s.gated .ptd 0x138 .w1s p 0x10 fun s =>
    let idx := s.forceIdx
    match s.forceOf idx with
    | some f =>
      if f.sim then (s.endForce f).forceDone recSimOff (s.gid idx) p f.shadow.value.toNat 0
      else s.forceDone recSimOff (s.gid idx) p 0 errForceState
    | none => s.forceDone recSimOff (s.gid idx) p 0 errForceState)

end Sys2Proof.Machine
end

