-- ==== Sys2Proof/Machine/PtdCommit.lean ====
section
/-!
DEFINITION. The commit of directory entries (R57–R64, R384): the GO, the checks in the order of R500, the recording grant, and the effect at the base-frame boundary.
-/

namespace Sys2Proof.Machine

/-- The addresses of the directory images (Table PTD-7). -/
def State.dirEdit (s : State) : Nat := (s.reg R.PTD_DIR_EDIT_LO).toNat + 2 ^ 32 * bits (s.reg R.PTD_DIR_EDIT_HI) 7 0
def State.dirAct (s : State) : Nat := (s.reg R.PTD_DIR_ACT_LO).toNat + 2 ^ 32 * bits (s.reg R.PTD_DIR_ACT_HI) 7 0

/-- Word `k` of an entry in the editing image. -/
def State.entWord (s : State) (idx k : Nat) : Word := s.mem32 (s.dirEdit + 32 * idx + 4 * k)

/-- A commit ends: PTD_ENT_STAT, PTD_ENT_LAST, ENT_DONE; COMMIT and PEND clear. -/
def State.entEnd (s : State) (idx e : Nat) : State :=
  let s1 := { s with ptd := { s.ptd with busy := none, waitGrant := false, result := e, last := idx } }
  (s1.clearCommit (s1.dirEdit + 32 * idx + 28)).irq .ptd 8

/-- A commit ends; a refusal records its code. -/
def State.entDone (s : State) (idx e : Nat) : State := let s1 := s.entEnd idx e; if e = 0 then s1 else s1.err .ptd e

/-- PTD_ENT_GO (R58, R40): discarded while a commit runs; refused where COMMIT is 0, or where the images lie in absent SDRAM (R468). -/
def execPtdEntGo (p : Principal) (idx : Fin 524288) (s : State) : Out :=
  .next (s.gated .ptd 0x120 .wo p (word idx.val) fun s =>
    match s.ptd.busy with
    | some _ => s.err .ptd errCommitBusy
    | none =>
      if !(s.hd .mem).running then
        ({ s with ptd := { s.ptd with result := errBlockAbsent, last := idx.val } }.irq .ptd 8).err .ptd errBlockAbsent
      else
        let w := s.entWord idx.val 7
        if !bit w 31 then ({ s with ptd := { s.ptd with result := errCommitRefused, last := idx.val } }.irq .ptd 8).err .ptd errCommitRefused
        else { (s.store32 (s.dirEdit + 32 * idx.val + 28) (setBit w 30)) with ptd := { s.ptd with busy := some idx.val } })

/-! ### Checks -/

/-- Whether a SRC_REF names an endpoint of its source type (Table PTD-3). -/
def refOk (e : DirEntry) : Bool :=
  match e.srcType with
  | .internal => decide (e.srcRef = 0)
  | .fioCh => decide (e.srcRef < 32)
  | .fioAi => decide (e.srcRef < 8)
  | .fioAo => decide (e.srcRef < 4)
  | .enc => decide (e.srcRef < 16)
  | .latch => decide (e.srcRef < 8)
  | .axis => decide (e.srcRef % 256 < 128) && decide (e.srcRef / 256 % 16 < 7) && decide (e.srcRef < 4096)
  | .lane => true
  | .can => decide (e.srcRef / 65536 % 16 = 0) && decide (e.srcRef % 65536 < 512)
  | .ave => decide (e.srcRef < 2 ^ 25)
  | .saf => decide (e.srcRef < 8)
  | .reserved => false

/-- The format of an entry (R59, Table PTD-1); an entry of KIND NONE defines no point, so only its reserved bits and its numbers count (log 88). -/
def entFormat (w : Nat → Word) (e : DirEntry) : Bool :=
  decide (bits (w 0) 15 9 = 0) && decide (bits (w 6) 31 18 = 0) && decide (bits (w 7) 29 24 = 0) &&
    f32Finite e.euZero && f32Finite e.euScale && f32Finite e.euLo && f32Finite e.euHi &&
    (decide (e.kind = .none) ||
      (decide (e.cls ≠ .reserved) && decide (e.histRed ≠ 3) && refOk e && decide (1 ≤ e.histInt) && decide (e.histInt ≤ 10000) &&
        (decide (e.kind = .bit) || decide (e.kind = .count64) || decide (f32Num e.euScale ≠ 0)) &&
        (decide (f32Num e.euLo < f32Num e.euHi) || (decide (f32Num e.euLo = 0) && decide (f32Num e.euHi = 0)))))

/-- The bytes of a kind in an image. -/
def kindBytes : Kind → Nat
  | .q15 | .int16 => 2 | .int32 => 4 | _ => 1

/-- Whether a kind, class and OUTPUT are allowed for the source type (R63, Table PTD-10, R295, R306, R314, R437). -/
def State.kindOk (s : State) (e : DirEntry) : Bool :=
  let k := e.kind
  let num := decide (k = .q15) || decide (k = .int16)
  let img := decide (k = .bit) || num || decide (k = .int32)
  match e.srcType with
  | .internal => (img || decide (k = .float32)) && !e.output
  | .fioCh => decide (k = .bit) && decide (bits (s.regAt R.FIO_CH_CFG (4 * e.srcRef)) 1 0 = if e.output then 2 else 1)
  | .fioAi => num && !e.output
  | .fioAo => num && e.output
  | .enc => (decide (k = .int32) || decide (k = .count64)) && !e.output
  | .latch => decide (k = .bit) && !e.output
  | .axis =>
    !e.output &&
      (match e.srcRef / 256 with
       | 0 | 1 => decide (k = .int32) || decide (k = .count64)
       | 2 | 3 => decide (k = .int32)
       | 4 => decide (k = .int16)
       | 5 => decide (k = .q15)
       | _ => decide (k = .count64))
  | .lane =>
    let off := e.srcRef / 16 % 16384
    let cls := if off < 0x400 then decide (e.cls = .b) || decide (e.cls = .c) else decide (off < 0x440) && decide (e.cls = .a)
    img && cls && (if k = .bit then decide (e.srcRef % 16 < 8) else decide (e.srcRef % 16 = 0) && decide (off % kindBytes k = 0))
  | .can => img && (decide (e.cls = .b) || decide (e.cls = .c)) && (decide (k = .bit) || decide (e.srcRef % 8 = 0))
  | .ave => !e.output
  | .saf => decide (k = .bit) && !e.output && decide (e.cls = .a)
  | .reserved => false

/-- The fields whose change is a change of binding (R58, R63). -/
def bindingOf (e : DirEntry) : Kind × Bool × Nat × TClass × SrcType × Nat := (e.kind, e.hot, e.hotIndex, e.cls, e.srcType, e.srcRef)

/-- Whether a VALID step of some stream names a point (R63). -/
def State.rsqNames (s : State) (idx : Nat) : Bool :=
  s.rsq.streams.any fun e =>
    (List.range e.2.stepCount).any fun n =>
      s.stepValid e.1 n &&
        (let ws := s.entryWords e.2.actBase n
         ((List.range 4).any fun j => decide (condPoint (condWords ws j).1 = some idx)) ||
           ((s.actWords e.2.actBase ws).any fun a => decide (s.actTarget a.1 = some idx) || (decide (bits a.1 3 0 = 7) && decide (bits a.1 29 11 = idx))))

/-- Whether an enabled capture channel or sequencer condition of ACQ names a point (R63). -/
def State.acqNames (s : State) (idx : Nat) : Bool := decide (s.chansWhere (fun c => !c.adc && decide (c.src = idx)) ≠ [])

/-- Whether a committed descriptor of CE, RSQ, CSC, MOT, ILP or ACQ references a point (R63). -/
def State.inUse (s : State) (idx : Nat) : Bool := (s.ptd.refs.any fun r => decide (r.idx = idx)) || s.rsqNames idx || s.acqNames idx

/-- The first check that an entry fails (R500): format, kind, use; 0 where it passes. -/
def State.entCheck (s : State) (idx : Nat) (w : Nat → Word) (e : DirEntry) : Nat :=
  let others := fun (f : DirEntry → Bool) => s.ptd.dir.any fun x => decide (x.1 ≠ idx) && decide (x.2.kind ≠ .none) && f x.2
  if e.kind = .reserved then errKindInvalid
  else if !entFormat w e then errBadEntry
  else if e.kind ≠ .none ∧ !s.kindOk e then errKindInvalid
  else if e.kind ≠ .none ∧ e.srcType ≠ .internal ∧
      ((others fun x => decide (x.srcType = e.srcType) && decide (x.srcRef = e.srcRef)) ∨ (e.srcType = .fioCh ∧ e.output ∧ s.cscClaims 2 e.srcRef)) then
    errSrcInUse
  else if bindingOf e ≠ bindingOf (s.dirEntry idx) ∧ s.inUse idx then errPointInUse
  else if e.kind ≠ .none ∧ e.hot ∧ (others fun x => x.hot && decide (x.hotIndex = e.hotIndex)) then errHotIndexUsed
  else 0

/-- The directory as it would be with an entry. -/
def State.dirWith (s : State) (idx : Nat) (e : DirEntry) : Tab DirEntry := Tab.put {} s.ptd.dir idx (if e.kind = .none then {} else e)

/-- A commit that HRC's admission or the fabric refuses (R384, R389): HRC records the code and HIST_REFUSED with the R requested. -/
def State.entHist (s : State) (idx e : Nat) : State :=
  let x := histRate ((s.dirWith idx (parseDir fun k => s.entWord idx k)).map (·.2))
  ((s.entEnd idx e).err .hrc e).record .hrc 0 0x1411 [idx, errWord .hrc e, rateUp x]

/-- An entry is copied into the active image (R58); it takes effect at the next base-frame boundary. -/
def State.entApply (s : State) (idx : Nat) : State :=
  let ws := (List.range 8).map fun k => s.entWord idx k
  let ws7 := ws.set 7 (clrBit (clrBit (nth 0 ws 7) 31) 30)
  let e := parseDir fun k => nth 0 ws7 k
  let dir := s.dirWith idx e
  let x := histRate (dir.map (·.2))
  let s1 := s.store (s.dirAct + 32 * idx) (ws7.flatMap wordBytes)
  let s2 := { s1 with ptd := { s1.ptd with dir := dir, effects := (s1.ptd.effects.filter fun i => decide (i ≠ idx)) ++ [idx] } }
  (s2.hrcGranted x (grantOf x s2.hrcReserve)).entDone idx 0

/-- PTD_ENT_CHECK_DONE (R58, R341, R384): the entry is refused, applied, or waits for a larger recording grant. A device outside a fabric needs none (log 87). -/
def execPtdEntCheckDone (s : State) : Out :=
  .next (
    match s.ptd.busy with
    | none => s
    | some idx =>
      if s.ptd.waitGrant then s
      else
        let w := fun k => s.entWord idx k
        let e := parseDir w
        let r := s.entCheck idx w e
        if r ≠ 0 then s.entDone idx r
        else
          let x := histRate ((s.dirWith idx e).map (·.2))
          let g := grantOf x s.hrcReserve
          if !rateOk x then s.entHist idx errHistRate
          else if g ≤ s.hrc.grant ∨ !s.ave.assigned then s.entApply idx
          else if s.ave.role = .active then
            let (s1, ok) := s.recGrant s.ave.devId g
            if ok then s1.entApply idx else s1.entHist idx errHistFabric
          else if s.ave.grantWait.isSome then s
          else
            ({ s with ptd := { s.ptd with waitGrant := true }, ave := { s.ave with grantWait := some g } }).aveTo 0 (.grant (.recReq s.ave.devId g)))

/-! ### Effect at the base-frame boundary -/

/-- An entry takes effect (R58, R71, R338, R382): a changed binding ends a force or simulation, and its point reads 0 with quality 0. -/
def State.entEffect (s : State) (idx : Nat) : State :=
  let old := s.point idx
  let new := s.dirEntry idx
  let changed := decide (bindingOf old ≠ bindingOf new)
  let cut := changed || decide ((old.histMode, old.histRed, old.histInt) ≠ (new.histMode, new.histRed, new.histInt))
  let s := if cut then s.reduceCut idx old else s
  let s1 := if changed then (match s.forceOf idx with | some f => s.endForce f | none => s) else s
  let s2 := { s1 with ptd := { s1.ptd with act := Tab.put {} s1.ptd.act idx new, lastValid := Tab.put none s1.ptd.lastValid idx none } }
  let s3 := if changed then s2.storeEntry idx {} else s2
  let s4 := if cut then
    s3.hrcStart idx (s3.entry idx).value (s3.entry idx).q else s3
  let sub := fun (e : DirEntry) => decide (e.kind ≠ .none) && decide (e.srcType = .ave)
  if sub new && changed then s4.aveSubscribe idx else if sub old && !sub new then s4.aveUnsubscribe idx else s4

/-- PTD_ENT_EFFECT: every entry applied since the last boundary. -/
def State.entEffects (s : State) : State :=
  s.ptd.effects.foldl (fun s i => s.entEffect i) { s with ptd := { s.ptd with effects := [] } }

/-- HOT_ENTRY_WRITE (R65). `cold` selects the cold image, `i` is the hot index or local index, and `whole` says that the access is an aligned 64-bit one. -/
def execHotEntryWrite (p : Principal) (cold : Bool) (i : Fin 524288) (whole : Bool) (v : Word) (q : Byte) (s : State) : Out :=
  .next (s.hotWrite p cold (if cold then i.val else i.val % 65536) whole v q)

end Sys2Proof.Machine
end

