-- ==== Sys2Proof/Machine/RetCmd.lean ====
section
/-!
DEFINITION. The retention store's commands (R470–R472, R479): writes of principals, rounds, the bank check and its logs. What a round cannot verify and which banks a check finds
changed are operands, since the cells' faults come from outside.
-/

namespace Sys2Proof.Machine

def errWriteFail : Nat := 0x20
def errBankFail : Nat := 0x21

/-- Change the retention store. -/
def State.updRet (s : State) (f : Ret → Ret) : State := { s with ret := f s.ret }

/-- The bank of a word and its byte offset in the bank (R470). -/
def retBank (i : Nat) : Nat := i / 65536
def retOff (i : Nat) : Nat := i % 65536 * 4

/-- Whether a word lies in a firmware area (Table RET-1). -/
def retFirmware (i : Nat) : Bool :=
  decide (retBank i < 7) && decide ((if retBank i = 0 ∨ retBank i = 4 then 0x4000 else 0) ≤ retOff i) && decide (retOff i < 0x3E000)

/-- RET_WRITE (R470, R471): a principal writes a word of the retention window. -/
def execRetWrite (p : Principal) (i : Fin 524288) (v : Word) (s : State) : Out :=
  .next (
    let a := 0x30000000 + 4 * i.val
    if !retFirmware i.val then (s.deny .ret (a % 0x10000) p v).storeFault p .ret errAccessDenied a
    else s.gatedMem .ret a true p v fun s => s.retPut i.val v .ret)

/-- The bytes of a bank. -/
def State.bankBytes (s : State) (b : Nat) : List Byte := (Tab.getList 0 s.ret.cells (b * 65536) 65536).flatMap wordBytes

/-- Whether record `a` is newer than `b` by serial arithmetic (Table RET-2). -/
def seqNewer (a b : Nat) : Bool :=
  let d := (a + 2 ^ 32 - b % 2 ^ 32) % 2 ^ 32
  decide (d ≠ 0) && decide (d < 2 ^ 31)

/-- The newest intact record of a bank. -/
def newestRec (r : BankRec × BankRec) : Option BankRec :=
  if r.1.intact && (!r.2.intact || !seqNewer r.2.seq r.1.seq) then some r.1 else if r.2.intact then some r.2 else none

/-- A new record goes into the older of the two copies (R471). -/
def putRec (r : BankRec × BankRec) (x : BankRec) : BankRec × BankRec :=
  if r.1.intact && (!r.2.intact || !seqNewer r.2.seq r.1.seq) then (r.1, x) else (x, r.2)

/-- The record of a bank over its contents. -/
def State.bankRecord (s : State) (b seq : Nat) : State :=
  let x : BankRec := { seq := seq, crc := crc32c (s.bankBytes b) }
  s.updRet fun r => { r with recs := Tab.upd ({}, {}) r.recs b fun y => putRec y x }

/-- A failed checkpoint write (R175): CKPT_FAIL with stream, buffer and the SEQ written to it, and WARN; the buffer holds no intact checkpoint. -/
def State.ckptFailed (s : State) (b : Nat) : State :=
  let n := b / 2
  let x := s.stream n
  let s1 := s.updStream n fun x => { x with bufs := Tab.put none x.bufs (b % 2) none }
  (s1.record .rsq 0 0x0B18 [n, b % 2, (Tab.get none x.bufs (b % 2)).getD x.lastSeq]).raise .rsq 0 0x0B18 .warn

/-- The stream buffer, by stream × 2 + buffer, that a checkpoint word lies in (R174). -/
def ckptOf (i : Nat) : Nat :=
  let o := retOff i - 0x3E000
  (o / 0x400 * 8 + retBank i) * 2 + o % 0x400 / 0x200

/-- Remove repeated numbers. -/
def nubN : List Nat → List Nat
  | [] => []
  | x :: t => x :: (nubN t).filter fun y => decide (y ≠ x)

/-- A word that failed its three attempts (R471): dropped, logged and reported; its cell's content is a free value. -/
def State.wordFailed (s : State) (i : Nat) : State :=
  let (n, s1) := s.draw
  let s2 := s1.updRet fun r =>
    { r with cells := Tab.put 0 r.cells i (Config.cellAfterFail n), wfailCnt := satInc 0xFFFFFFFF r.wfailCnt,
             wfailLog := match r.wfailLog with | some x => some x | none => some (4 * i) }
  ((((s2.record .ret 0 0x0511 [4 * i, 3]).err .ret errWriteFail).irq .ret 9).raise .ret 0 0x0511 .alarm)

/-- A round (R471): every pending word is written and verified; `fails` lists the words that do not verify.
The writes that waited then enter the buffer in order. -/
def State.retRound (s : State) (fails : List Nat) : State :=
  let ws := s.ret.pend
  let n := wrapInc s.ret.round
  let sys := s.ret.sysPend
  let rec_ : SysRec := { s.sys.sysrec with lifecycle := s.sys.lcPending.getD s.sys.sysrec.lifecycle }
  let bad := ws.filter fun w => fails.contains w.idx
  let s1 := s.updRet fun r =>
    { r with cells := (ws.filter fun w => !fails.contains w.idx).foldl (fun t w => Tab.put 0 t w.idx w.val) r.cells,
             pend := [], waiting := [], flushing := false, sysPend := false, round := n,
             sysA := if sys then rec_ else r.sysA, sysB := if sys then rec_ else r.sysB }
  let s2 := bad.foldl (fun s w => s.wordFailed w.idx) s1
  let s3 := (nubN ((bad.filter fun w => decide (w.writer = .rsq)).map fun w => ckptOf w.idx)).foldl (fun s b => s.ckptFailed b) s2
  let s4 := (nubN ((ws.map fun w => retBank w.idx) ++ if sys then [0, 4] else [])).foldl (fun s b => s.bankRecord b n) s3
  s.ret.waiting.foldl (fun s w => s.retPut w.idx w.val w.writer) s4

/-- RET_ROUND (R471). -/
def execRetRound (fails : List (Fin 524288)) (s : State) : Out := .next ((s.runFollow .ret).retRound (fails.map Fin.val))

/-- RET_FLUSH (R471): a round starts at once. -/
def execRetFlush (p : Principal) (s : State) : Out :=
  .next (s.gated .ret 0x110 .w1s p 1 fun s => s.updRet fun r => { r with flushing := true })

/-- A bank that failed its check (R472): zeroed with a new record, flagged, recorded. `crc` is what its contents gave. -/
def State.bankFail (s : State) (b crc : Nat) : State :=
  let old := (newestRec (Tab.get ({}, {}) s.ret.recs b)).getD {}
  let x : BankRec := { seq := wrapInc s.ret.round }
  let s1 := s.updRet fun r =>
    { r with cells := Tab.keep (fun k _ => decide (retBank k ≠ b)) r.cells, recs := Tab.upd ({}, {}) r.recs b fun y => putRec y x,
             bankFail := nput r.bankFail b true }
  let s2 := if b = 7 then { s1 with ilp := { s1.ilp with retLost := true } } else s1
  ((((s2.record .ret 0 0x0510 [b, old.crc, crc, old.seq]).err .ret errBankFail).irq .ret 8).raise .ret 0 0x0510 .alarm)

/-- SYS takes its records from a good copy, or the factory map, FIELD and no parties where both failed (R472). The map itself is loaded at hand-over (R50). -/
def State.sysTake (s : State) (aBad bBad : Bool) : State :=
  let lost := aBad && bBad
  let r : SysRec := if !aBad then s.ret.sysA else if !bBad then s.ret.sysB else { lifecycle := 2 }
  let s1 := s.updRet fun t => { t with sysA := r, sysB := r, sysAGood := !aBad, sysBGood := !bBad, sysLost := lost, sysPend := t.sysPend || aBad || bBad }
  let s2 := { s1 with sys := { s1.sys with sysrec := { s1.sys.sysrec with lifecycle := r.lifecycle, keys := r.keys } } }
  if lost then s2.raiseNoCode .ret 0 .fault else s2

/-- RET_CHECK_DONE (R472): `bad` lists the banks whose contents do not match their newest intact record, with the CRC computed; `us` is the duration. -/
def execRetCheckDone (bad : List (Fin 8 × Word)) (us : BitVec 16) (s : State) : Out :=
  .next (
    if !s.ret.checkBusy then s
    else
      let failed := fun b => (bad.find? fun x => decide (x.1.val = b)).isSome || (newestRec (Tab.get ({}, {}) s.ret.recs b)).isNone
      let crc := fun b => match bad.find? fun x => decide (x.1.val = b) with | some x => x.2.toNat | none => 0
      let s1 := s.updRet fun r => { r with checkBusy := false, checkDone := true, checkUs := us.toNat, bankFail := 0 }
      let s2 := (List.range 8).foldl (fun s b => if failed b then s.bankFail b (crc b) else s) s1
      let s3 := (s2.sysTake (failed 0) (failed 4)).record .ret 0 0x0512 [s2.ret.bankFail, us.toNat]
      if s3.rsq.loading && decide ((s3.hd .rsq).pwr = .on) then s3.ckptLoadAll else s3)

/-- RET_BANK_FAIL_CLEAR and RET_WFAIL_LOG_CLEAR (R479). -/
def execRetBankFailClear (p : Principal) (m : Word) (s : State) : Out :=
  .next (s.gated .ret 0x104 .w1c p m fun s => s.updRet fun r => { r with bankFail := (w1c (word r.bankFail) m).toNat })
def execRetWfailLogClear (p : Principal) (s : State) : Out :=
  .next (s.gated .ret 0x114 .w1c p 0x80000000 fun s => s.updRet fun r => { r with wfailLog := none })

end Sys2Proof.Machine
end

