-- ==== Sys2Proof/Machine/Startup.lean ====
section
/-!
DEFINITION. Start-up (R463–R465): the eight phases, each only after the one before it, and the authentication of boot images.
-/

namespace Sys2Proof.Machine

def errPushState : Nat := 0x22
def imgMagic : Nat := 0x30
def imgKey : Nat := 0x31
def imgVer : Nat := 0x32
def imgSig : Nat := 0x33
def imgRange : Nat := 0x34
def noSource : Nat := 0x35

/-- Change the error manager. -/
def State.updErm (s : State) (f : Erm → Erm) : State := { s with erm := f s.erm }

/-- STARTUP_REGULATORS (R463, phase 1): PG_CORE, PG_IO and RESET_N are high. -/
def execStartupRegulators (s : State) : Out :=
  .next (
    if s.erm.phase ≠ 0 then s
    else s.updErm fun e => { e with phase := 1, supply := { e.supply with pgCore := true, pgIo := true, resetN := true, vddCoreOk := true } })

/-- STARTUP_OSCILLATORS (phase 2): FRC and SRC run, BOOT_MODE is sampled; ERR_N is released with the phase's end (R495). -/
def execStartupOscillators (mode : Fin 4) (s : State) : Out :=
  .next (if s.erm.phase ≠ 1 then s else (s.updErm fun e => { e with phase := 2, bootMode := mode.val, errNLow := e.errNDue }).updClk fun x => { x with frcOk := true, srcOk := true })

/-- STARTUP_ALWAYS_ON (phase 3): RET completes a pending round and begins its check, PMC powers PD_CPUA, core 0 starts the boot ROM, ERR_N follows R474 again. -/
def execStartupAlwaysOn (s : State) : Out :=
  .next (
    if s.erm.phase ≠ 2 ∨ s.erm.held then s
    else
      let s1 := (s.updErm fun e => { e with phase := 3 }).retRound []
      let s2 := s1.updRet fun r => { r with checkBusy := true, checkDone := false }
      let s3 := if s2.domOn 1 then s2.resetCore 0 else s2.domUp 1 0 0
      ({ s3 with sys := { s3.sys with romAlive := true } }).settleErm)

/-- Crystal starts that fail, one after another (Table CLK-3). -/
def State.xoTimeouts (s : State) : Nat → State
  | 0 => s
  | n + 1 => State.xoTimeouts s.xoTimeout n

/-- STARTUP_CLOCKS (phase 4): XO_START unless XO_FAILS = 4, after `fails` failed starts STABLE within `us` µs or FAILED; PLL_START; CLK_IO and CLK_CPU ramp. -/
def execStartupClocks (fails : Fin 5) (us : Nat) (s : State) : Out :=
  .next (
    if s.erm.phase ≠ 3 then s
    else
      let s1 := if s.clk.xo = .off ∧ s.clk.xoFails < 4 then s.xoStart else s
      let s2 := if s1.clk.xo = .starting then (s1.xoTimeouts fails.val).xoStable us else s1
      let s3 := if s2.clk.pllOn ∧ s2.clk.locked then s2 else s2.pllStart.pllLock
      (((s3.domAt 2 12).domAt 0 2).degFollow).updErm fun e => { e with phase := 4 })

/-- STARTUP_MEMORY (phase 5): with PG_MEM PMC powers PD_MEM and MEM trains the configuration held in OTP; else NO_MEM and FAULT. What DEGRADED shows is a free value (log 86). -/
def execStartupMemory (pg fail0 fail1 : Bool) (s : State) : Out :=
  .next (
    if s.erm.phase ≠ 4 ∨ s.erm.noMem then s
    else
      let (n, s0) := s.draw
      let s1 := s0.updErm fun e => { e with supply := { e.supply with pgMem := pg }, degraded := (Config.freeWord n).getLsbD 0 }
      if !pg then (s1.updErm fun e => { e with noMem := true }).raiseNoCode .erm 0 .fault
      else
        let s2 := if s1.domOn 11 then s1 else s1.domUp 11 0 0
        let s3 := (s2.setReg R.MEM_CFG (Config.otpMemCfg &&& 0x333)).updHd .mem fun h => { h with en := true }
        (s3.memTrained fail0 fail1).updErm fun e => { e with phase := 5 })

/-- STARTUP_REALTIME (phase 6): after RET's check CLK_RT ramps and PD_RT powers up; RSQ reads its checkpoints. `net` is the coarse time and `elapsed` the time in ns since CLK_RT
stopped. -/
def execStartupRealtime (net elapsed : Nat) (s : State) : Out :=
  .next (
    if s.erm.phase ≠ 5 ∨ !s.ret.checkDone ∨ !s.domOn 11 then s
    else
      let s1 := s.domAt 1 6
      (if s1.domOn 3 then s1 else s1.domUp 3 net elapsed).updErm fun e => { e with phase := 6 })

/-! ### Boot -/

/-- The first check of R465 that an image fails, 0 where it is accepted; format before references (R500). -/
def imageResult (img : List Byte) : Nat :=
  let n := fun i k => leNat ((img.drop i).take k)
  let len := n 12 4
  let load := n 16 8
  let entry := n 24 8
  let pub := (img.drop 32).take 64
  if n 0 4 ≠ 0x4F424146 ∨ n 4 2 ≠ 1 then imgMagic
  else if len < 4 ∨ 16777024 < len ∨ len % 4 ≠ 0 ∨ load % 4 ≠ 0 ∨ load < 0x08000000 ∨ 0x09000000 < load + len ∨ entry < load ∨ load + len ≤ entry ∨
      img.length < 192 + len then imgRange
  else if 4 ≤ n 6 2 ∨ sha256 pub ≠ Config.otpKeyHash (n 6 2) ∨ Config.otpRevoked (n 6 2) then imgKey
  else if n 8 4 < Config.otpSecVer then imgVer
  else if !ecdsaOk pub (sha256 (img.take (128 + len))) ((img.drop (128 + len)).take 64) then imgSig
  else 0

/-- BOOT (Table ERM-7). -/
def State.bootRecord (s : State) (src keyIdx r ver : Nat) : State := s.record .erm 0 0x0414 [src, keyIdx, r, ver]

/-- BootSrc as ERM_BOOT_STAT codes it. -/
def BootSrc.code : BootSrc → Nat
  | .norA => 0 | .norB => 1 | .push => 2

/-- An accepted image is loaded into SRAM. -/
def State.bootAccept (s : State) (src : BootSrc) (img : List Byte) : State :=
  let n := fun i k => leNat ((img.drop i).take k)
  let s1 := s.store (n 16 8) ((img.drop 128).take (n 12 4))
  (s1.updErm fun e => { e with accepted := true, entry := n 24 8, bootSrc := src, keyIdx := n 6 2 % 4, bootResult := 0, pushWait := false }).bootRecord
    (BootSrc.code src) (n 6 2) 0 (n 8 4)

/-- Every permitted source is refused (R464): BOOT with the result, ERR_N low, core 0 halted in WFI. -/
def State.bootHalt (s : State) (src : BootSrc) (keyIdx r ver : Nat) : State :=
  ((s.updErm fun e => { e with halted := true, pushWait := false, bootSrc := src, keyIdx := keyIdx % 4, bootResult := r, errNLow := true }).bootRecord
    (BootSrc.code src) keyIdx r ver).updCore 0 fun k => { k with running := false }

/-- The result of a source: an image, or NO_SOURCE where there is none. -/
def tryImage (x : Option (List Byte)) : Nat := match x with | none => noSource | some img => imageResult img

/-- Host push (R464): PD_HIF is powered, and the ROM waits for an image. -/
def State.bootPush (s : State) : State :=
  (if s.domOn 10 then s else s.domUp 10 0 0).updErm fun e => { e with pushWait := true, bootSrc := .push }

/-- STARTUP_BOOT (R464, R465, phase 7). `a` and `b` are what the NOR device holds as copies A and B, `none` where no device answers. -/
def execStartupBoot (a b : Option (List Byte)) (s : State) : Out :=
  .next (
    if !(decide (s.erm.phase = 6) || (decide (s.erm.phase = 4) && s.erm.noMem)) then s
    else
      let s1 := s.updErm fun e => { e with phase := 7, accepted := false }
      if s.erm.bootMode = 1 then s1.bootPush
      else if tryImage a = 0 then s1.bootAccept .norA (a.getD [])
      else if tryImage b = 0 then s1.bootAccept .norB (b.getD [])
      else if s.erm.bootMode = 2 then s1.bootPush
      else
        let img := b.getD []
        s1.bootHalt .norB (leNat ((img.drop 6).take 2)) (tryImage b) (leNat ((img.drop 8).take 4)))

/-- ERM_PUSH_GO (R464): the image at 0x0800_0000 is authenticated. -/
def execErmPushGo (p : Principal) (s : State) : Out :=
  .next (s.gated .erm 0x150 .w1s p 1 fun s =>
    if s.erm.phase ≠ 7 ∨ !s.erm.pushWait then s.err .erm errPushState
    else
      let img := s.load 0x08000000 (min (s.reg R.ERM_PUSH_LEN).toNat 16777216)
      let r := imageResult img
      if r = 0 then s.bootAccept .push img
      else s.bootHalt .push (leNat ((img.drop 6).take 2)) r (leNat ((img.drop 8).take 4)))

/-- BOOT_PUSH_TIMEOUT (R464): nothing was pushed within 10 s. -/
def execBootPushTimeout (s : State) : Out := .next (if s.erm.pushWait then s.bootHalt .push 0 noSource 0 else s)

/-- Blocks that still hold a cause raise it again after a start-up (R476): FIO a group in UV, CLK a failed crystal or a reference on FRC, ERM a low PFAIL_N. -/
def State.reRaise (s : State) : State :=
  let s1 := [0, 1].foldl (fun s g => if (s.fio.group g).st = .uv then s.raise .fio 0 0x1011 .alarm else s) s
  let s2 := if s1.clk.xo = .failed then s1.raise .clk 0 0x0213 .alarm else s1
  let s3 := if s2.clk.fell then s2.raise .clk 0 0x0210 .alarm else s2
  if s3.erm.pfailActive then s3.raise .erm 0 0x0415 .warn else s3

/-- STARTUP_HANDOVER (R50, R463, R466, phase 8): the protection map is loaded, the ROM principal ends, core 0 jumps to ENTRY; RESET is written. -/
def execStartupHandover (s : State) : Out :=
  .next (
    if s.erm.phase ≠ 7 ∨ !s.erm.accepted then s
    else
      let r := s.ret.sysA
      let s1 := { s with sys := { s.sys with romAlive := false, sysrec := { s.sys.sysrec with pmap := r.pmap, pmapGen := r.pmapGen } } }
      let s2 := (s1.updErm fun e => { e with phase := 8 }).updCore 0 fun k => { k with running := true, startPc := s1.erm.entry }
      (s2.record .erm 0 0x0413 [s2.erm.rstCause, s2.erm.rstCount, s2.erm.bootMode]).reRaise)

end Sys2Proof.Machine
end

