-- ==== Sys2Proof/Machine/StatusA.lean ====
section
/-!
DEFINITION. What the status registers read, of the blocks of PD_AON, TIM, HTS, CPU, MEM and HIF (Tables SYS-9, CLK-5, PMC-6, ERM-5, TIM-2, HTS-5, HTS-6, EVR-2, HIF-3). A
function answers `none` where the register is no status register.
-/

namespace Sys2Proof.Machine

/-- A register value from its fields, each with its lowest bit. -/
def pk (l : List (Nat × Nat)) : Nat := (l.map fun x => x.1 * 2 ^ x.2).sum

/-- The index of a register in an array of `cnt` registers `stride` apart. -/
def arr (o base stride cnt : Nat) : Option Nat :=
  if base ≤ o ∧ (o - base) % stride = 0 ∧ (o - base) / stride < cnt then some ((o - base) / stride) else none

/-- The low and the high word of a 64-bit number. -/
def lo32 (n : Nat) : Nat := n % 2 ^ 32
def hi32 (n : Nat) : Nat := n / 2 ^ 32 % 2 ^ 32

/-- The value of a measurement or a count whose course the model does not follow: a free value (log 89). -/
def State.measured (s : State) : Nat := (Config.freeWord s.free).toNat

/-- SYS (Table SYS-9), as a principal reads it. -/
def State.statSys (s : State) (p : Principal) (o : Nat) : Option Nat :=
  let y := s.sys
  let d := y.dc
  match o with
  | 0x100 => some chipId.toNat
  | 0x104 => some (pk [(y.sysrec.lifecycle, 0), (b2n y.lcPending.isSome, 4), (y.lcPending.getD 0, 8)])
  | 0x108 => some p.code
  | 0x10C => some (b2n s.debugOpen)
  | 0x110 => some (match y.deny with | some x => pk [(x.blk, 0), (x.off, 8), (x.principal, 24), (1, 31)] | none => 0)
  | 0x280 => some y.sysrec.pmapGen
  | 0x304 =>
    let st := match d.state with | .idle => 0 | .copying => 1 | .staged => 2
    some (pk [(st, 0), (d.partyOk, 4), (d.badTags, 8), (d.result, 16)])
  | 0x310 => some (lo32 d.nonce)
  | 0x314 => some (hi32 d.nonce)
  | 0x318 => some (if d.state = .staged then 60000 - (s.upUs - d.since) / 1000 else 0)
  | 0x350 => some y.enrolled
  | _ =>
    match arr o 0x204 4 25, arr o 0x320 4 8 with
    | some n, _ => some (s.pmap (n + 1))
    | _, some k => some (beNat ((d.digest.drop (4 * k)).take 4))
    | _, _ => none

/-- The crystal's state as CLK_STAT codes it. -/
def XoSt.code : XoSt → Nat
  | .off => 0 | .starting => 1 | .stable => 2 | .failed => 3

/-- CLK (Table CLK-5). -/
def State.statClk (s : State) (o : Nat) : Option Nat :=
  let x := s.clk
  match o with
  | 0x108 =>
    some (pk [(x.xo.code, 0), (b2n x.locked, 4), (b2n x.ref, 5), (b2n x.timeDeg, 6), (b2n x.frcOk, 7), (b2n x.srcOk, 8), (x.result, 16), (x.xoFails, 24),
              (b2n x.busy, 31)])
  | 0x10C => some (pk ((List.range 4).map fun d => ((x.dom d).div + 32 * b2n (x.dom d).frc + 64 * b2n (x.dom d).ramp, 8 * d)))
  | 0x110 => some x.mon
  | 0x114 => some x.xoCnt
  | 0x118 => some x.frcCnt
  | 0x11C => some x.lastForced
  | _ => none

/-- PMC (Table PMC-6). -/
def State.statPmc (s : State) (o : Nat) : Option Nat :=
  let x := s.pmc
  match o with
  | 0x104 => some (pk [(x.st.code, 0), (x.result, 8), (x.refBlk, 16), (x.wakeCause, 24)])
  | 0x10C => some (pk ((x.on.map fun d => (1, d)) ++ x.trans.map fun d => (1, d + 16)))
  | 0x118 => some x.wakeStat
  | 0x134 => some (pk [(x.waitBlk, 0), (x.waitTime, 16)])
  | _ => none

/-- The highest severity of a queue. -/
def worstSev (l : List ErrEnt) : Nat := l.foldl (fun m e => max m e.sev.code) 0

/-- ERM (Table ERM-5). -/
def State.statErm (s : State) (o : Nat) : Option Nat :=
  let e := s.erm
  match o with
  | 0x104 => some (match e.cur with | some c => pk [(c.code, 0), (c.sev.code, 16), (b2n c.escalated, 19), (1, 20), (c.recur, 24)] | none => 0)
  | 0x108 => some (match e.cur with | some c => c.src | none => 0)
  | 0x10C => some (match e.cur with | some c => lo32 c.time | none => 0)
  | 0x110 => some (match e.cur with | some c => hi32 c.time | none => 0)
  | 0x118 => some (pk [(e.queue.length, 0), (worstSev e.queue, 8)])
  | 0x140 => some (pk [(e.rstCause, 0), (e.bootMode, 8), (e.rstCount, 16)])
  | 0x144 => some (match e.fatalLog with | some l => pk [(l.code, 0), (l.src / 256, 16), (l.cause, 24), (1, 31)] | none => 0)
  | 0x148 => some (pk [(e.phase, 0), (BootSrc.code e.bootSrc, 4), (e.keyIdx, 6), (b2n e.noMem, 8), (b2n e.degraded, 9), (e.bootResult, 16)])
  | 0x158 => some (pk [(b2n e.supply.pgCore, 0), (b2n e.supply.pgIo, 1), (b2n e.supply.pgMem, 2), (b2n e.supply.pfailN, 3), (b2n e.supply.vddCoreOk, 4)])
  | 0x15C => some (pk [(b2n e.pfailActive, 0), (e.pfailLast, 16)])
  | _ => (arr o 0x120 4 5).map fun k => Tab.get 0 e.cnt k

/-- RET (Table ERM-5). -/
def State.statRet (s : State) (o : Nat) : Option Nat :=
  let r := s.ret
  match o with
  | 0x100 => some (pk [(b2n r.checkBusy, 0), (b2n r.checkDone, 1), (b2n r.flushing, 2), (r.checkUs, 16)])
  | 0x104 => some r.bankFail
  | 0x108 => some r.pend.length
  | 0x10C => some r.round
  | 0x114 => some (match r.wfailLog with | some i => pk [(i, 2), (1, 31)] | none => 0)
  | 0x118 => some r.wfailCnt
  | 0x140 => some (pk [(b2n r.sysAGood, 0), (b2n r.sysBGood, 1), (b2n r.sysLost, 2)])
  | _ => (arr o 0x120 4 8).map fun b => match newestRec (Tab.get ({}, {}) r.recs b) with | some x => x.seq | none => 0

/-- TIM (Table TIM-2); TIM_NOW_LO and TIM_TXTS_INFO latch when a principal reads them. -/
def State.statTim (s : State) (o : Nat) : Option Nat :=
  let t := s.tim
  match o with
  | 0x104 =>
    some (pk [(t.st.code, 0), (b2n t.coarse, 4), (b2n s.clk.timeDeg, 5), (b2n t.lost, 6), (b2n t.lostRst, 7), (b2n (decide (t.st = .locked) && (decide (s.timSrc = 1) || t.parent.synced)), 8)])
  | 0x108 => some (lo32 s.now)
  | 0x10C => some t.hiLatch
  | 0x110 => some (lo32 t.inc)
  | 0x114 => some (hi32 t.inc)
  | 0x12C => some (wordI (satS 32 t.lastOfs)).toNat
  | 0x130 => some (wordI t.freq).toNat
  | 0x14C => some (pk [(t.parent.dev, 0), (t.parent.port, 6), (t.parent.hops, 16)])
  | 0x154 => some (min t.unc (2 ^ 32 - 1))
  | 0x158 => some t.steps
  | _ =>
    match arr o 0x204 0x20 8, arr o 0x208 0x20 8, arr o 0x20C 0x20 8, arr o 0x214 0x20 8 with
    | some p, _, _, _ =>
      some (match (s.txPort p).queue with
        | [] => 0
        | x :: r => pk [(x.id, 0), (x.typ, 16), (1, 24), ((r.length + 1) % 16, 25)])
    | _, some p, _, _ => some (lo32 (s.txPort p).latched)
    | _, _, some p, _ => some (hi32 (s.txPort p).latched)
    | _, _, _, some p => some (pk [(b2n (s.txPort p).ovf, 0), ((s.txPort p).lost, 8)])
    | _, _, _, _ => none

/-- The task states as T3 codes them (Table HTS-1). -/
def TaskState.code : TaskState → Nat
  | .free => 0 | .waiting => 1 | .ready => 2 | .running => 3 | .suspended => 4

/-- HTS (Tables HTS-5 and HTS-6); a read of DISP selects. -/
def State.statHts (s : State) (o : Nat) : Option Nat :=
  let h := s.hts
  match o with
  | 0x104 => some (pk [(h.cmdTask % 256, 0), (h.cmdResult, 8)])
  | 0x110 => some (pk [(h.auto.code, 0), (if h.auto = .autonomous then (h.windowEnd - s.now) / 1000000 else 0, 16)])
  | 0x11C => some ((List.range 8).foldl (fun m c => nput m c (h.port c).preempt.isSome) 0)
  | 0x120 => some (pk [((h.tasks.filter fun e => decide (e.2.state ≠ .free)).length, 0), (h.ready.length, 16)])
  | 0x124 => some h.pool
  | 0x128 => some h.redeliv
  | 0x12C => some h.dropped
  | _ =>
    if 0x1000 ≤ o ∧ o < 0x1200 then
      let q := h.port ((o - 0x1000) / 0x40)
      match (o - 0x1000) % 0x40 with
      | 0x00 => some q.disp.toNat
      | 0x04 => some q.flags.toNat
      | 0x08 => some q.flow
      | 0x0C => some q.itemLo.toNat
      | 0x10 => some q.itemHi.toNat
      | 0x24 => some (q.subResult * 256)
      | _ => none
    else
      match arr o 0x2004 16 512, arr o 0x2008 16 512, arr o 0x200C 16 512 with
      | some t, _, _ => some (h.task t).mask.toNat
      | _, some t, _ => some (h.task t).flags.toNat
      | _, _, some t => some (pk [((h.task t).state.code, 0), (s.runningOf t, 8), ((h.task t).core, 16)])
      | _, _, _ => none

/-- A slot of the area that EVR's window shows (R394): the first-fault region below slot 256, the main ring from there on, each wrapping within itself. -/
def Evr.slot (e : Evr) (base k : Nat) : EvRec :=
  if base < ringFirst then nth {} e.ff ((base + k) % ringFirst) else Tab.get {} e.ring (ringFirst + (base - ringFirst + k) % ringLen)

/-- EVR (Table EVR-2). -/
def State.statEvr (s : State) (o : Nat) : Option Nat :=
  let e := s.evr
  match o with
  | 0x100 => some e.head
  | 0x104 => some e.seq
  | 0x108 => some e.count
  | 0x10C => some (pk [(e.ff.length, 0), (b2n (decide (256 ≤ e.ff.length)), 16), (b2n e.ffArmed, 17)])
  | 0x110 => some e.ffSeq
  | 0x118 => some e.lostFrozen
  | 0x11C => some e.lostFrozenCode
  | 0x120 => some e.lostBusy
  | 0x124 => some e.lostBusyCode
  | 0x140 => some (pk [(b2n e.dumpBusy, 0), (e.dumpResult, 8), (e.dumpCopied, 16)])
  | _ =>
    (arr o 0x1000 4 1024).map fun i =>
      leNat (((e.slot (bits (s.reg R.EVR_WIN_BASE) 14 0) (i / 8)).bytes.drop (4 * (i % 8))).take 4)

/-- CPU (Table HIF-3); CPU_MTIME_LO latches when it is read. -/
def State.statCpu (s : State) (o : Nat) : Option Nat :=
  let x := s.cpu
  match o with
  | 0x108 => some (pk [((List.range 8).foldl (fun m c => nput m c (s.core c).running) 0, 0), (x.wdtLog, 8)])
  | 0x10C => some x.wdtLog
  | 0x118 => some x.sramCe
  | 0x11C => some (match x.sramUe with | some a => pk [(a, 0), (1, 31)] | none => 0)
  | 0x200 => some (lo32 x.mtime)
  | 0x204 => some x.mtimeHi
  | _ => none

/-- MEM (Table HIF-3). -/
def State.statMem (s : State) (o : Nat) : Option Nat :=
  let m := s.msdram
  match o with
  | 0x104 => some (pk [(b2n m.trained, 0), (b2n m.selfRefresh, 1), (m.capacity, 16)])
  | 0x10C => some m.ceCnt
  | 0x110 => some (match m.ueLog with | some a => lo32 a | none => 0)
  | 0x114 => some (match m.ueLog with | some a => pk [(a / 2 ^ 32 % 256, 0), (1, 31)] | none => 0)
  | 0x118 => some (pk [(s.measured % 1024, 0), (s.measured / 1024 % 1024, 16)])
  | _ => none

/-- The states of RING_STAT. -/
def RingState.code : RingState → Nat
  | .off => 0 | .active => 1 | .halted => 2

/-- HIF (Table HIF-3). RING_CFG shows EN while the ring has not been disabled. -/
def State.statHif (s : State) (o : Nat) : Option Nat :=
  let x := s.hif
  let ring := fun n => Tab.get {} x.rings n
  match o with
  | 0x100 => some (pk [(x.rate, 0), (x.width, 4), (b2n x.up, 8), (b2n x.busMaster, 9)])
  | 0x108 => some (match x.err with | some e => pk [(e.code, 0), (e.bar, 16), (1, 31)] | none => 0)
  | 0x10C => some (match x.err with | some e => lo32 e.addr | none => 0)
  | _ =>
    if 0x200 ≤ o ∧ o < 0x300 then
      let r : Ring := ring ((o - 0x200) / 0x20)
      match (o - 0x200) % 0x20 with
      | 0x08 => some ((s.reg ⟨.hif, o⟩).toNat + 2 ^ 31 * b2n (decide (r.state ≠ .off) && !r.stopping))
      | 0x0C => some r.head
      | 0x10 => some r.tail
      | 0x14 => some (pk [(r.state.code, 0), (r.cause, 8)])
      | _ => none
    else none

end Sys2Proof.Machine
end

