-- ==== Sys2Proof/Machine/StatusB.lean ====
section
/-!
DEFINITION. What the status registers read, of the control blocks: PTD, CE, XNG, RSQ, CSC, MOT and ILP (Tables PTD-7, CE-8, CE-20, XNG-7, RSQ-14, CSC-6, MOT-10, ILP-9).
-/

namespace Sys2Proof.Machine

/-- The number of entries of a table that satisfy a test. -/
def cnt {α : Type} (t : Tab α) (p : α → Bool) : Nat := (t.filter fun e => p e.2).length

/-- PTD (Table PTD-7). -/
def State.statPtd (s : State) (o : Nat) : Option Nat :=
  let x := s.ptd
  let sel := (s.reg R.PTD_FRAME_SEL).toNat
  match o with
  | 0x124 => some (pk [(b2n x.busy.isSome, 0), (x.result, 8)])
  | 0x128 => some x.last
  | 0x13C => some (pk [(x.force.length, 0), (x.forceResult, 16)])
  | 0x140 => some (cnt x.act fun e => decide (e.kind ≠ .none) && e.hot)
  | 0x144 => some (cnt x.act fun e => decide (e.kind ≠ .none) && e.hot && decide (e.cls = .a))
  | 0x154 => some (lo32 (Tab.get 0 x.frameT sel))
  | 0x158 => some (hi32 (Tab.get 0 x.frameT sel))
  | 0x160 => some (match x.ueLog with | some h => pk [(h, 0), (1, 31)] | none => 0)
  | 0x164 => some x.eccCnt
  | 0x170 => some x.grantB.toNat
  | 0x174 => some x.grantC.toNat
  | _ => none

/-- The largest number of issue slots taken in a frame (CE_LOAD_PEAK): every period divides 10,000 frames. -/
def State.loadPeak (s : State) : Nat :=
  let ps := s.placed 1024
  (List.range 10000).foldl (fun m f => max m (slotsTaken ps f 10000)) 0

/-- CE (Tables CE-8 and CE-20). -/
def State.statCe (s : State) (o : Nat) : Option Nat :=
  let x := s.ce
  let sel := bits (s.reg R.CE_SEL) 9 0
  let st := s.loopSt sel
  match o with
  | 0x104 => some (pk [(b2n x.goBusy.isSome, 0), (x.goResult, 8), (x.goLoop, 16)])
  | 0x10C => some (x.modeLoop ||| x.modeResult * 256)
  | 0x110 => some s.ceLoad
  | 0x114 => some s.loadPeak
  | 0x118 => some (pk [(s.loopsUsed.length, 0), ((s.loopsUsed.filter fun n => decide ((s.loop n).rate = 0)).length, 16)])
  | 0x11C => some s.loopsActive.length
  | 0x144 => let p := Tab.get {} x.place sel; some (pk [(p.slot, 0), (p.phase, 8)])
  | 0x148 => some (pk [(st.mode.code, 0), (st.cause, 8)])
  | 0x304 => some (pk [(x.supResult, 8), (x.supLoop, 16)])
  | 0x30C => some ((s.delayRuns 1024).map (·.2)).sum
  | 0x310 => some (Tab.get {} x.place sel).dlyBase
  | 0x314 => some (cnt x.view LoopState.trip)
  | 0x324 => some (pk [(b2n x.tabBusy.isSome, 0), (x.tabResult, 8), (x.tabLast, 16)])
  | 0x328 => some ((x.tabs.filter fun e => decide (e.2.type ≠ 0)).foldl (fun m e => nput m e.1 true) 0)
  | _ =>
    match arr o 0x180 4 32, arr o 0x200 4 32, arr o 0x380 4 32 with
    | some k, _, _ => some (nth 0 st.words k).toNat
    | _, some k, _ => some (Tab.get 0 x.evt k).toNat
    | _, _, some k => some (Tab.get 0 x.trip k).toNat
    | _, _, _ => none

/-- XNG (Table XNG-7). -/
def State.statXng (s : State) (o : Nat) : Option Nat :=
  let x := s.xng
  let per := bits (s.reg R.XNG_TEST_PERIOD) 9 0
  match o with
  | 0x110 =>
    some (pk [(x.mode.code, 0), (laneMask s.votingLanes, 4), (b2n (decide (x.mode = .dual) || decide (x.mode = .triple)), 8), (x.safeCause, 12)])
  | 0x114 => some (pk ((List.range 3).map fun l => ((s.lane l).state.code, 4 * l)))
  | 0x130 => some (pk [((per * 1000000 - x.testFrames + 999999) / 1000000, 0), (x.nextLane, 16), (b2n x.overdue, 24)])
  | 0x134 => some (pk [(x.testLane, 0), (x.testCause, 4), (x.testResult, 8), (min 65535 x.testDur, 16)])
  | 0x138 => some (pk [(x.rejoinLane, 0), (b2n x.rejoinRepair, 4), (min 65535 x.rejoinTime, 16)])
  | 0x140 => some (match x.dis with | some d => pk [(d.item, 0), (b2n d.stream, 10), (d.majority, 12), (1, 31)] | none => 0)
  | 0x144 => (x.dis.map fun d => lo32 d.time).orElse fun _ => some 0
  | 0x148 => (x.dis.map fun d => hi32 d.time).orElse fun _ => some 0
  | 0x150 => some x.votes
  | 0x154 => some x.outvotes
  | _ => (arr o 0x120 4 3).map fun l => (s.lane l).health

/-- RSQ (Table RSQ-14). -/
def State.statRsq (s : State) (o : Nat) : Option Nat :=
  let x := s.rsq
  match o with
  | 0x104 => some (pk [(x.cmdStream, 0), (x.cmdResult, 8)])
  | 0x10C => some (pk [(b2n x.stepBusy.isSome, 0), (x.stepStream, 2), (x.stepResult, 8), (x.stepNo, 16)])
  | 0x114 => some (pk [(cnt x.streams fun y => decide (y.state ≠ .idle), 0), (cnt x.streams fun y => decide (y.state = .resumePending), 8)])
  | 0x118 => some x.late
  | _ =>
    match arr o 0x120 4 8, arr o 0x140 4 2, arr o 0x148 4 2 with
    | some i, _, _ => some (pk ((List.range 8).map fun j => ((s.stream (8 * i + j)).state.code, 4 * j)))
    | _, some i, _ => some (Tab.get 0 x.evt i).toNat
    | _, _, some i => some (Tab.get 0 x.alm i).toNat
    | _, _, _ => none

/-- The stream window (Table RSQ-13); a configuration word reads as written. -/
def State.statWin (s : State) (n o : Nat) : Nat :=
  let x := s.stream n
  match o with
  | 0x100 => pk [(x.state.code, 0), (b2n x.atBoundary, 4), (b2n x.parked, 5), (x.held, 6), (x.reason, 16)]
  | 0x104 => pk [(x.step, 0), (x.chosen, 16)]
  | 0x108 => x.elapsed
  | 0x10C => pk [(x.conds, 0), (x.latched, 4)]
  | 0x110 => x.seq
  | 0x114 => x.param
  | 0x140 => x.stflag.toNat
  | _ =>
    match arr o 0x200 4 64, arr o 0x400 4 16 with
    | some v, _ => (x.var v).toNat
    | _, some k => (nth 0 x.cur k).toNat
    | _, _ => (x.word o).toNat

/-- The states of CSC_ENT_STAT and CSC_GRP_STAT. -/
def EntState.code : EntState → Nat
  | .disarmed => 0 | .armed => 1 | .sent => 2 | .fired => 3 | .cancelled => 4 | .late => 5 | .lateDone => 6 | .missed => 7 | .dropped => 8
def AGState.code : AGState → Nat
  | .idle => 0 | .armed => 1 | .done => 2

/-- Whether an entry is ARMED, SENT or LATE. -/
def Act.open_ (a : Act) : Bool := decide (a.state = .armed) || decide (a.state = .sent) || decide (a.state = .late)

/-- CSC (Table CSC-6). A tracked value and a velocity are rounded down (log 90). -/
def State.statCsc (s : State) (o : Nat) : Option Nat :=
  let x := s.csc
  let c := bits (s.reg R.CSC_COORD_SEL) 4 0
  let e := s.ent (bits (s.reg R.CSC_ENT_SEL) 15 0)
  let g := bits (s.reg R.CSC_GRP_SEL) 7 0
  let val := (s.track c s.tick).1.floor
  let mains := fun i => let m := Tab.get {} x.mains i; pk [(m.freq, 0), (m.ignored, 16), ((m.err % 256).toNat, 24)]
  match o with
  | 0x104 => some (pk [(b2n x.busy.isSome, 0), (x.actResult, 8), (x.actFail, 16)])
  | 0x10C => some (pk [(x.armGroup, 0), (x.armResult, 8), (min 65535 x.armCount, 16)])
  | 0x110 => some (cnt x.ents Act.valid)
  | 0x114 => some (cnt x.ents fun a => a.valid && a.open_)
  | 0x118 => some x.delayed
  | 0x11C => some x.collide
  | 0x120 => some x.late
  | 0x200 => some 1
  | 0x310 => some ((List.range 32).foldl (fun m k => nput m k (s.coordValid k)) 0)
  | 0x318 => some (wordI val).toNat
  | 0x31C => some (wordI (val / 2 ^ 32)).toNat
  | 0x320 => some (wordI ((s.track c s.tick).2 * 256).floor).toNat
  | 0x324 => some (mains 0)
  | 0x328 => some (mains 1)
  | 0x344 => some e.state.code
  | 0x348 => some (lo32 e.last)
  | 0x34C => some (hi32 e.last)
  | 0x354 =>
    some (pk [((s.agroup g).state.code, 0), (min 65535 (cnt x.ents fun a => a.valid && decide (a.desc.group = g) && a.open_), 16)])
  | _ =>
    match arr o 0x3A0 4 8, arr o 0x3C0 4 8, arr o 0x400 4 8 with
    | some p, _, _ => some (s.portPend p)
    | _, some p, _ => some ((s.lne.sta.filter fun k => decide (k.1 / 128 = p)).foldl (fun m k => max m k.2.bs) 0)
    | _, _, some i => some (Tab.get 0 x.evt i).toNat
    | _, _, _ => none

/-- Whether an axis is in motion. -/
def Axis.moves (a : Axis) : Bool :=
  decide (a.state = .moving) || decide (a.state = .following) || decide (a.state = .homing) || decide (a.state = .stopping)

/-- MOT (Table MOT-10). -/
def State.statMot (s : State) (o : Nat) : Option Nat :=
  let x := s.mot
  let a := s.axis (bits (s.reg R.MOT_SEL) 6 0)
  let cpos := fix16 (a.posAt s.tick)
  let apos := (s.actPos a).getD 0
  let w := fun (v : Int) => some (wordI v).toNat
  match o with
  | 0x104 => some (pk [(x.cmdAxis, 0), (x.cmdResult, 8)])
  | 0x124 => some (pk [(b2n x.axisBusy.isSome, 0), (x.axisResult, 8), (x.axisLast, 16)])
  | 0x12C => some (pk [(b2n x.grpBusy.isSome, 0), (x.grpResult, 8), (x.grpLast, 16)])
  | 0x130 =>
    some (pk [(cnt x.axes fun a => decide (a.state ≠ .disabled), 0), (cnt x.axes Axis.moves, 8),
              ((x.grps.filter fun g => g.2.moving).length, 16)])
  | 0x184 => some a.status
  | 0x188 => w cpos
  | 0x18C => w (cpos / 2 ^ 32)
  | 0x190 => w apos
  | 0x194 => w (apos / 2 ^ 32)
  | 0x198 => w (sat32 (truncQ a.velUnits))
  | 0x19C => some (pk [((a.ampl % 65536).toNat, 0), (a.theta, 16)])
  | 0x1A0 => w a.latEnc
  | 0x1A4 => w (a.latEnc / 2 ^ 32)
  | 0x1A8 => w a.latPos
  | 0x1AC => w (a.latPos / 2 ^ 32)
  | 0x1B0 => some (lo32 a.latT)
  | 0x1B4 => some (hi32 a.latT)
  | 0x1B8 => some (pk [(b2n a.latArmed, 0), (b2n a.latCap, 31)])
  | 0x2C0 => some x.encErr
  | 0x390 => some x.gevt
  | _ =>
    match arr o 0x240 8 16, arr o 0x244 8 16, arr o 0x380 4 4 with
    | some n, _, _ => w (s.enc n).count
    | _, some n, _ => some (Tab.get 0 x.encHi n)
    | _, _, some i => some (Tab.get 0 x.evt i).toNat
    | _, _, _ => none

/-- ILP (Table ILP-9). -/
def State.statIlp (s : State) (o : Nat) : Option Nat :=
  let x := s.ilp
  match o with
  | 0x10C =>
    some (pk [(x.mode.code, 0), (b2n x.empty, 4), (b2n x.newImage, 5), (b2n s.holdPermit, 6), (x.result, 8), (x.cause, 16)])
  | 0x120 => some (pk [(b2n x.loadBusy, 0), (x.loadResult, 8)])
  | 0x124 => some x.loadPos
  | 0x128 => some x.scanLast
  | 0x12C => some x.scanMax
  | 0x130 => some x.scanCnt
  | 0x134 => some x.ovrCnt
  | 0x138 => some x.execLast
  | 0x13C => some x.tclk
  | 0x14C => some (pk [(x.chg.length, 0), (x.chgResult, 8)])
  | 0x150 => some (pk [(b2n x.retainLost, 0), (x.slotsReset, 16)])
  | 0x160 => some x.pc
  | 0x164 => some (pk [(b2n x.acc, 0), (x.bstack.length, 8), (x.cstack.length, 16)])
  | 0x168 => some x.wacc.toNat
  | _ => none

end Sys2Proof.Machine
end

