-- ==== Sys2Proof/Machine/StatusC.lean ====
section
/-!
DEFINITION. What the status registers read, of the ports and recorders: SAF, FIO, LNE, AVE, ACQ, HRC and CAN (Tables SAF-7, FIO-4, LNE-8, AVE-8, ACQ-7, HRC-5, CAN-4).
-/

namespace Sys2Proof.Machine

/-- The output states of Table SAF-2 as SAF_OUT codes them. -/
def SafState.code : SafState → Nat
  | .init => 0 | .off => 1 | .waitReset => 2 | .on => 3 | .fault => 4

/-- SAF_ISL_STAT's island state: FAULT while an enabled output is in FAULT for a cause that concerns the whole island (log 90). -/
def Saf.island (x : Saf) : Nat :=
  if x.fwRestart then 3
  else if x.pending.isSome && x.idle then 2
  else if x.param = [] then 0
  else if (List.range 2).any fun ch => decide ((x.chan ch).causes ≠ []) || x.outs.any fun m => decide (x.outSt ch m = .fault) &&
      [cLost, cParam, cCpu, cOvertemp].any fun k => ((x.chan ch).out m).causes.contains k then 4
  else 1

/-- SAF (Table SAF-7). -/
def State.statSaf (s : State) (o : Nat) : Option Nat :=
  let x := s.saf
  let hwGood := (x.chan 0).alive && (x.chan 1).seen && !(x.chan 1).lost
  let prGood := (x.chan 1).alive && (x.chan 0).seen && !(x.chan 0).lost
  match o with
  | 0x100 => some (pk [(x.island, 0), (b2n prGood, 8), (b2n hwGood, 9), (b2n ((x.chan 0).alive && (x.chan 0).passed && !x.fsUv), 10), (b2n x.fsWarn, 11)])
  | 0x104 => some x.fwVer
  | 0x108 => some (pk [(x.fwSlot, 0), (x.fwResult, 8)])
  | 0x110 => some (x.p 63).toNat
  | 0x114 => some (bits (x.p 1) 15 0)
  | 0x118 => some (pk [(if x.param = [] then 0 else if x.pending.isSome then 2 else 1, 0), (x.reason, 8), (x.failWord, 16)])
  | 0x140 => some (pk [(b2n x.rstLevel, 0), (b2n x.stuck, 1), (b2n x.rejected, 2), (min 65535 x.pulseMs, 16)])
  | 0x170 => some (match x.first with | some f => pk [(f.cause, 0), (f.idx, 8), (b2n f.pair, 12), (1, 31)] | none => 0)
  | _ =>
    match arr o 0x120 4 4, arr o 0x130 4 4, arr o 0x150 4 4, arr o 0x160 4 4 with
    | some n, _, _, _ =>
      let ms := match Tab.get none x.disc n with | some t => (x.us - t) / 1000 | none => Tab.get 0 x.discMs n
      some (pk [(b2n (nbit x.raw (2 * n)), 0), (b2n (nbit x.raw (2 * n + 1)), 1), (b2n (nbit (x.chan 0).filt (2 * n)), 2),
                (b2n (nbit (x.chan 0).filt (2 * n + 1)), 3), (b2n (x.pairEn n && (x.demand 0 n || x.demand 1 n)), 4), (b2n (Tab.get none x.disc n).isSome, 5),
                (Tab.get 0 x.causeOf (safIdx true n), 8),
                (min 65535 ms, 16)])
    | _, some m, _, _ =>
      let test := Tab.get none x.test m
      let s1 := decide (x.outSt 0 m = .on) && decide (test ≠ some 0)
      let s2 := decide (x.outSt 1 m = .on) && decide (test ≠ some 1)
      some (pk [((x.outSt 0 m).code, 0), ((x.outSt 1 m).code, 4), (b2n s1, 8), (b2n s2, 9),
                (b2n ((s1 && s2) || x.rb.contains m), 10), (b2n (x.edmEn m && !x.demand 0 (x.edmPair m)), 11),
                (Tab.get 0 x.causeOf (safIdx false m), 16)])
    | _, _, some m, _ => let t := Tab.get {} x.testLast m; some (pk [(t.sw, 0), (b2n t.pass, 1), (t.us, 16)])
    | _, _, _, some m => let t := Tab.get (0, 0) x.rtLast m; some (pk [(min 65535 t.1, 0), (min 65535 t.2, 16)])
    | _, _, _, _ => none

/-- The group states of FIO_GRP_STAT. -/
def GrpSt.code : GrpSt → Nat
  | .ok => 0 | .uv => 1 | .waitEn => 2 | .grpOff => 3

/-- FIO (Table FIO-4). -/
def State.statFio (s : State) (o : Nat) : Option Nat :=
  let x := s.fio
  let grp := fun g => let r := x.group g; pk [(r.st.code, 0), (b2n r.warn, 4), (b2n r.uvTest, 5), (r.supply, 16)]
  match o with
  | 0x100 => some (pk [(b2n x.linkUp, 0), (b2n x.silenced, 1), (b2n x.cfgSync, 2)])
  | 0x104 => some x.linkErr
  | 0x114 => some (grp 0)
  | 0x118 => some (grp 1)
  | 0x120 => some (pk [((x.group 0).current, 0), ((x.group 1).current, 16)])
  | 0x130 => some x.driven
  | 0x134 => some x.rb
  | 0x138 => some x.mm
  | 0x13C => some x.oc
  | 0x140 => some x.level
  | 0x154 => some (pk [(b2n x.calBusy, 0), (x.calResult, 8)])
  | _ => (arr o 0x2A0 4 8).map fun k => (wordI (Tab.get 0 x.aiSkew k)).toNat

/-- LNE (Table LNE-8). -/
def State.statLne (s : State) (o : Nat) : Option Nat :=
  if o = 0x104 then
    let lost := (List.range 8).filter fun p => s.lne.sta.any fun e => decide (e.1 / 128 = p) && e.2.commLost
    let run := (List.range 8).filter fun p => decide ((s.lport p).state = .running)
    some (pk ((run.map fun p => (1, p)) ++ lost.map fun p => (1, 8 + p)))
  else if o < 0x1000 ∨ 0x9000 ≤ o then none
  else
    let p := o / 0x1000 - 1
    let x := s.lport p
    let k := bits (s.regAt R.LNE_STA_SEL (0x1000 * p)) 6 0
    let y := s.sta p k
    let n := fun (f : Sta → Bool) => (s.lne.sta.filter fun e => decide (e.1 / 128 = p) && f e.2).length
    match o % 0x1000 with
    | 0x018 =>
      some (pk [(x.state.code, 0), (b2n x.link, 3), (x.nFound % 128, 8), (n (fun z => decide (z.state = .operational)) % 128, 16),
                (n Sta.commLost % 128, 24)])
    | 0x01C => some (pk [(x.result, 8), (x.resultSta, 16)])
    | 0x020 => some (pk [(x.win.winEnd / 10, 0), (x.win.outOfs / 10, 16)])
    | 0x024 => some (pk [(x.win.inOfs / 10, 0), (x.win.lwf / 10, 16)])
    | 0x028 => some (pk [(x.win.bSent, 0), (x.win.bRecv, 16)])
    | 0x030 => some x.cntFcs
    | 0x034 => some x.cntMiss
    | 0x038 => some x.cntLate
    | 0x03C => some x.cntForeign
    | 0x04C => some (b2n (x.inj.enNext.getD x.inj.en))
    | 0x050 => some (pk [(b2n x.inj.unlocked, 0), (b2n x.inj.en, 1), (x.inj.affected, 16)])
    | 0x064 => some (pk [(y.state.code, 0), (b2n y.stale, 3), (b2n y.commLost, 4), (y.pos, 8), (y.cause, 16)])
    | 0x068 => some (pk [(y.ds, 0), (y.bs / 10, 16)])
    | 0x06C => some (min 65535 y.arr)
    | 0x070 => some y.ident.serial
    | 0x074 => some (pk [(y.armsRx, 0), (y.epochDrops, 16)])
    | 0x10C => some x.rxTail
    | 0x110 => some x.rxHead
    | 0x114 => some x.txTail
    | 0x118 => some x.txHead
    | _ => none

/-- The port states of AVE_P_STAT. -/
def APState.code : APState → Nat
  | .off => 0 | .training => 1 | .up => 2 | .down => 3

/-- AVE (Table AVE-8). -/
def State.statAve (s : State) (o : Nat) : Option Nat :=
  let x := s.ave
  match o with
  | 0x100 => some (pk [(x.devId, 0), (b2n x.assigned, 6), (b2n x.alias0, 7)])
  | 0x104 => some (pk [(x.role.code, 0), (b2n s.hif.up, 8)])
  | 0x110 => some (pk [(x.devs.length, 0), (x.result, 8), (b2n x.discBusy, 16), (x.maxHops, 24)])
  | 0x118 => some Config.aveSerial.toNat
  | 0x120 => some (match x.subStat with | some (i, e) => pk [(i, 0), (e, 20), (1, 31)] | none => 0)
  | 0x124 => some (pk [(x.pubs.length, 0), (x.subs.length, 16)])
  | 0x128 => some (pk [(x.rerouteDev, 0), (x.reroutePort, 6), (x.rerouteUs, 16)])
  | 0x12C => some x.reroutes
  | 0x504 => some (if x.role = .active then x.recSum else 0)
  | 0x508 => some x.recOwn
  | _ =>
    match arr o 0x400 4 64 with
    | some d =>
      let r := s.route d
      some (pk [(r.pri, 0), (r.alt, 4), (b2n r.valid, 8), (b2n r.usingAlt, 9), (b2n r.lfa, 10), (r.hops, 16), (r.altHops, 24)])
    | none =>
      if o < 0x1000 ∨ 0x7000 ≤ o then none
      else
        let p := o / 0x1000 - 1
        let y := s.aport p
        match o % 0x1000 with
        | 0x000 => some (pk [(y.st.code, 0), (y.peer, 8), (y.peerPort, 16), (s.flowsOver p % 4096, 20)])
        | 0x004 => some (pk [(y.dly, 0), (b2n (decide (100 < y.dly)), 16)])
        | 0x008 => some y.cntCrc
        | 0x00C => some y.cntDrop
        | 0x010 => some (pk [(s.measured % 1024, 0), (s.measured / 1024 % 1024, 16)])
        | 0x04C => some (b2n (y.inj.enNext.getD y.inj.en))
        | 0x050 => some (pk [(b2n y.inj.unlocked, 0), (b2n y.inj.en, 1), (y.inj.affected, 16)])
        | _ => none

/-- The session states of ACQ_STAT. -/
def SessState.code : SessState → Nat
  | .idle => 0 | .armed => 1 | .post => 2 | .rearm => 3 | .done => 4 | .stopped => 5

/-- ACQ (Table ACQ-7). -/
def State.statAcq (s : State) (o : Nat) : Option Nat :=
  let x := s.acq
  match o with
  | 0x11C => some (pk [(x.state.code, 0), (x.seqState, 8), (x.trigs, 16)])
  | 0x120 => some (pk [(x.result, 8), (x.resultCh, 16)])
  | 0x124 => some x.deadLast
  | 0x128 => some x.deadMax
  | 0x12C => some x.ign
  | 0x130 => some x.missed
  | 0x134 => some x.ovf
  | 0x138 => some x.tflag
  | 0x140 => some x.flag0.toNat
  | 0x144 => some x.flag1.toNat
  | 0x1A0 => some (lo32 (x.trig / 1000))
  | 0x1A4 => some (hi32 (x.trig / 1000))
  | 0x1A8 => some x.trigPs
  | _ => (arr o 0x180 4 4).map fun k => Tab.get 0 x.cnt k

/-- HRC (Table HRC-5). -/
def State.statHrc (s : State) (o : Nat) : Option Nat :=
  let x := s.hrc
  match o with
  | 0x128 => some x.rate
  | 0x12C => some x.grant
  | 0x130 => some (pk [(b2n x.noGrant, 0), (b2n x.streaming, 1), (b2n x.stalled, 2)])
  | 0x134 => some x.seq
  | 0x138 => some x.unsent.length
  | 0x13C => some x.gapCnt
  | 0x140 => some x.collapsed
  | 0x144 => some x.recCnt
  | _ => none

/-- CAN (Tables CAN-1, CAN-2 and CAN-4). A data word of a transmit object bound to points shows the data area as written. -/
def State.statCan (s : State) (o : Nat) : Option Nat :=
  if 0x8000 ≤ o ∧ o < 0x10000 then
    let x := s.canObj (cobj ((o - 0x8000) / 0x2000) ((o - 0x8000) % 0x2000 / 0x80))
    match (o - 0x8000) % 0x80 with
    | 0x00 => some x.o0.toNat
    | 0x04 => some x.o1.toNat
    | 0x08 => some x.o2.toNat
    | 0x0C => some x.o3.toNat
    | 0x10 => some (lo32 x.buf.ts)
    | 0x14 => some (hi32 x.buf.ts)
    | w => if 0x20 ≤ w ∧ w < 0x60 then some (leNat ((x.buf.data.drop (w - 0x20)).take 4)) else none
  else if o < 0x1000 ∨ 0x5000 ≤ o then none
  else
    let n := o / 0x1000 - 1
    let x := s.cctl n
    let warn := decide (96 ≤ x.tec) || decide (96 ≤ x.rec_)
    match o % 0x1000 with
    | 0x014 => some (pk [(x.state.code, 0), (x.errState, 4), (b2n warn, 6), (x.result, 8), (s.measured % 128, 16)])
    | 0x018 => some (pk [(min 127 x.rec_, 0), (b2n (decide (127 < x.rec_)), 8), (min 511 x.tec, 16)])
    | 0x01C => some (pk [(x.lec, 0), (b2n x.lecData, 3), (min 65535 x.busErr, 16)])
    | 0x020 => some x.rxDisc
    | 0x024 => some (Tab.get 0 x.rxEvt 0).toNat
    | 0x028 => some (Tab.get 0 x.rxEvt 1).toNat
    | 0x02C => some (Tab.get 0 x.txEvt 0).toNat
    | 0x030 => some (Tab.get 0 x.txEvt 1).toNat
    | 0x040 => some (pk [(b2n x.woken, 0), (x.wakeCause, 1), (x.wakeId % 2 ^ 29, 2)])
    | _ => none

end Sys2Proof.Machine
end

