-- ==== Sys2Proof/Machine/Read.lean ====
section
/-!
DEFINITION. Reads of the device's map (Table CPU-1): headers and their mirrors (R35, R44), block registers with shadows (R34, R37) and frozen values (Table SYS-3),
the windows, the retention store and the memories.
-/

namespace Sys2Proof.Machine

/-- A header register (Tables SYS-2 and SYS-3) with the power state in force; `mirror` says that PD_AON serves the read. SAF shows ENABLED and RUNNING
while the island runs (R285). -/
def hdrWord (b : Block) (h : Hdr) (pwr : Pwr) (mirror : Bool) (o : Nat) : Nat :=
  let code := match pwr with | .off => 0 | .on => 1 | .fenced => 2 | .sleep => 3 | .reset => 4
  let isl := decide (b = .saf) && decide (pwr = .on)
  match o with
  | 0x000 => (blkId b).toNat
  | 0x004 => blkRev.toNat
  | 0x008 => pk [(b2n h.en, 0), (b2n h.run, 1), (b2n h.freeze, 3)]
  | 0x00C =>
    pk [(b2n (h.en || h.running || isl), 0), (b2n (h.running || isl), 1), (b2n h.commitPending, 2), (b2n h.freeze, 3), (code, 4), (b2n mirror, 8)]
  | 0x010 => h.irqRaw.toNat
  | 0x014 => h.irqEn.toNat
  | 0x018 => (h.irqRaw &&& h.irqEn).toNat
  | 0x01C => pk [(h.errCode, 0), (h.errCount, 16), (b2n h.errOvf, 31)]
  | 0x020 => pk [(b2n h.viewActive, 8)]
  | 0x024 => h.cfgGen
  | 0x028 => b2n h.lock
  | 0x02C => b.domain.code
  | _ => 0

/-- What the mirror in PD_AON holds of a block's header (R44). -/
def State.mirrored (s : State) (b : Block) : Hdr :=
  if (s.hd b).pwr = .off ∨ (s.hd b).pwr = .reset then { Tab.get {} s.mir b.code with lock := (s.hd b).lock } else s.hd b

/-- The status registers of a block. -/
def State.statReg (s : State) (p : Principal) (b : Block) (o : Nat) : Option Nat :=
  match b with
  | .sys => s.statSys p o
  | .clk => s.statClk o
  | .pmc => s.statPmc o
  | .erm => s.statErm o
  | .ret => s.statRet o
  | .tim => s.statTim o
  | .hts => s.statHts o
  | .ptd => s.statPtd o
  | .ce => s.statCe o
  | .xng => s.statXng o
  | .rsq => s.statRsq o
  | .csc => s.statCsc o
  | .mot => s.statMot o
  | .ilp => s.statIlp o
  | .saf => s.statSaf o
  | .fio => s.statFio o
  | .lne => s.statLne o
  | .ave => s.statAve o
  | .acq => s.statAcq o
  | .hrc => s.statHrc o
  | .evr => s.statEvr o
  | .can => s.statCan o
  | .hif => s.statHif o
  | .mem => s.statMem o
  | .cpu => s.statCpu o

/-- The words that a FREEZE of a block looks through for its status registers. -/
def statWords : Block → Nat
  | .can => 0x4000
  | .hts => 0x1000
  | .lne => 0x2400
  | .ave => 0x1C00
  | _ => 0x180

/-- FREEZE of a block but EVR (Table SYS-3): its status and counter registers hold. -/
def State.hold (s : State) (b : Block) (p : Principal) : State :=
  { s with frz := (List.range (statWords b)).foldl (fun t k =>
      if 4 * k < 0x100 ∨ (b = .sys ∧ k = 0x42) then t
      else
        match s.statReg p b (4 * k) with
        | some v => Tab.put none t (regKey ⟨b, 4 * k⟩) (some (word v))
        | none => t) s.frz }

/-- The end of a FREEZE. -/
def State.unhold (s : State) (b : Block) : State := { s with frz := Tab.keep (fun k _ => !keyOf b k) s.frz }

/-- A block register by its row: a WO register reads 0, an RWC register its shadow unless VIEW_ACTIVE is set (Table SYS-1, R37). -/
def State.rowWord (s : State) (b : Block) (o : Nat) : Nat :=
  match regRow ⟨b, o⟩ with
  | some w =>
    match w.acc with
    | .wo => 0
    | .rwc => if (s.hd b).viewActive then (s.reg ⟨b, o⟩).toNat else (s.shReg ⟨b, o⟩).toNat
    | _ => (s.reg ⟨b, o⟩).toNat
  | none => 0

/-- Whether a register reads a value that a measurement gives (log 89). -/
def drawsOn (b : Block) (o : Nat) : Bool :=
  match b with
  | .mem => decide (o = 0x118)
  | .ave => decide (0x1000 ≤ o) && decide (o < 0x7000) && decide (o % 0x1000 = 0x010)
  | .can => decide (0x1000 ≤ o) && decide (o < 0x5000) && decide (o % 0x1000 = 0x014)
  | _ => false

/-- The descriptors in MOT's region (R239, R240). -/
def motDesc (b : Block) (o : Nat) : Bool := decide (b = .mot) && decide (0x3000 ≤ o) && decide (o < 0x8000)

/-- The state after a command. -/
def State.ofOut (s : State) (o : Out) : State := match o with | .next t => t | _ => s

/-- A block register as it reads, with the value in `out`: a register that latches or selects when it is read does so. `by_` is the core that reads. -/
def State.regRead (s : State) (p : Principal) (by_ : Option (Fin 8)) (b : Block) (o : Nat) : State :=
  let port := (o - 0x1000) / 0x40
  let plain : State :=
    let v := match s.statReg p b o with
      | some v => v
      | none => if motDesc b o then (s.mem32 (b.base + o)).toNat else s.rowWord b o
    let s1 := if drawsOn b o then s.draw.2 else s
    { s1 with out := v }
  match Tab.get none s.frz (regKey ⟨b, o⟩) with
  | some v => { s with out := v.toNat }
  | none =>
    match b with
    | .tim =>
      if o = 0x108 then s.ofOut (execTimNowRead s)
      else match arr o 0x204 0x20 8 with
        | some k => s.ofOut (execTxtsInfoRead (Fin.ofNat 8 k) s)
        | none => plain
    | .hts => if 0x1000 ≤ o ∧ o < 0x1200 ∧ (o - 0x1000) % 0x40 = 0 then s.ofOut (execDispRead (Fin.ofNat 8 port) by_ s) else plain
    | .mot => match arr o 0x240 8 16 with
      | some n => s.ofOut (execEncCntRead (Fin.ofNat 16 n) s)
      | none => plain
    | .cpu => if o = 0x200 then s.ofOut (execMtimeRead s) else plain
    | .can =>
      if 0x8000 ≤ o ∧ o % 0x80 = 0x0C then
        s.ofOut (execCanObjStatRead (Fin.ofNat 4 ((o - 0x8000) / 0x2000)) (Fin.ofNat 64 ((o - 0x8000) % 0x2000 / 0x80)) s)
      else plain
    | _ => plain

/-- The word of eight items of a bit image at a byte address of the ILP's window. -/
def bitByte (t : Tab Bool) (k : Nat) : Nat := pk ((List.range 8).map fun i => (b2n (Tab.get false t (8 * k + i)), i))

/-- The ILP's operand spaces and program memory (Tables ILP-1 and ILP-4); an address that no item occupies reads 0. -/
def State.ilpWord (s : State) (a : Nat) : Nat :=
  let x := s.ilp
  let bw := fun (t : Tab Bool) (base : Nat) => pk ((List.range 4).map fun k => (bitByte t (a - base + k), 8 * k))
  if a < 0x23100000 then (nth 0 x.img.code ((a - 0x23000000) / 4)).toNat
  else if a < 0x23100800 then bw x.I 0x23100000
  else if a < 0x23101000 then bw x.Q 0x23100800
  else if a < 0x23103000 then bw x.M 0x23101000
  else if a < 0x23104000 then 0
  else if a < 0x23144000 then (Tab.get 0 x.W ((a - 0x23104000) / 4)).toNat
  else if a < 0x23154000 then (Tab.get 0 x.K ((a - 0x23144000) / 4)).toNat
  else if a < 0x23164000 then
    let t : ITimer := Tab.get {} x.T ((a - 0x23154000) / 16)
    match a % 16 / 4 with
    | 0 => t.pt.toNat
    | 1 => t.ptRun.toNat
    | 2 => lo32 t.start
    | _ => pk [(b2n t.q, 0), (b2n t.running, 1), (b2n t.inPrev, 2), (b2n t.ret, 3)]
  else if a < 0x23174000 then
    let c : ICount := Tab.get {} x.C ((a - 0x23164000) / 16)
    match a % 16 / 4 with
    | 0 => c.pv.toNat
    | 1 => c.cv.toNat
    | 2 => pk [(b2n c.q, 0), (b2n c.cuPrev, 1), (b2n c.ret, 2)]
    | _ => 0
  else if a < 0x23174800 then bw x.E 0x23174000
  else 0

/-- An entry of the hot or cold image as a 64-bit read gives it (Table PTD-4). -/
def Entry.bits64 (e : Entry) : Nat := pk [(e.value.toNat, 0), (e.q.toNat, 32), (e.timeLo % 2 ^ 24, 40)]

/-- A hot entry as it reads: of a bound point, or as its index last held. -/
def State.hotRead (s : State) (h : Nat) : Entry :=
  match s.atHot h with
  | some idx => s.readPoint idx
  | none => if s.ptd.ue.contains h then {} else Tab.get {} s.ptd.hot h

/-- A cold entry as it reads: of a point bound to it, or as its index last held. -/
def State.coldRead (s : State) (i : Nat) : Entry :=
  if (s.point i).kind ≠ .none ∧ !(s.point i).hot then s.readPoint i else Tab.get {} s.ptd.cold i

/-- A place of the device's map (Table CPU-1). `reserved` are the addresses that no row lists. -/
inductive Place where
  | rom | sram | reg (b : Block) (o : Nat) | aia | hot (h : Nat) | loops | acts | ilp | win (n o : Nat) | ret (i : Nat) | cold (i : Nat) | sdram | reserved
deriving DecidableEq, Repr, Inhabited

/-- The cold image's base in SDRAM (R57). -/
def State.coldBase (s : State) : Nat := (s.reg R.PTD_COLD_LO).toNat + bits (s.reg R.PTD_COLD_HI) 7 0 * 2 ^ 32

/-- The place of a device address. The cold image lies in SDRAM once its address is set. -/
def State.place (s : State) (a : Nat) : Place :=
  if a < 0x10000 then .rom
  else if 0x08000000 ≤ a ∧ a < 0x09000000 then .sram
  else if 0x10000000 ≤ a ∧ a < 0x11000000 then
    match Block.ofAddr a with
    | some (b, o) => .reg b o
    | none => if 0x10900000 ≤ a ∧ a < 0x10A10000 then .aia else .reserved
  else if 0x20000000 ≤ a ∧ a < 0x20080000 then .hot ((a - 0x20000000) / 8)
  else if 0x21000000 ≤ a ∧ a < 0x21040000 then .loops
  else if 0x22000000 ≤ a ∧ a < 0x22100000 then .acts
  else if 0x23000000 ≤ a ∧ a < 0x24000000 then .ilp
  else if 0x24000000 ≤ a ∧ a < 0x24040000 then .win ((a - 0x24000000) / 0x1000) (a % 0x1000)
  else if 0x30000000 ≤ a ∧ a < 0x30200000 then .ret ((a - 0x30000000) / 4)
  else if inSdram s a 1 then
    (if s.coldBase ≠ 0 ∧ s.coldBase ≤ a ∧ a < s.coldBase + 0x400000 then .cold ((a - s.coldBase) / 8) else .sdram)
  else if 0x800000000 ≤ a ∧ a < 0xC00000000 then .sdram
  else .reserved

/-- Whether an access is an aligned one of its size. -/
def aligned (a size : Nat) : Bool := decide (size ≠ 0) && decide (a % size = 0)

/-- An aligned 32-bit or 64-bit access. -/
def wordAccess (a size : Nat) : Bool := (decide (size = 4) || decide (size = 8)) && aligned a size

/-- All-ones data of an access (R44, R424). -/
def ones (size : Nat) : Nat := 2 ^ (8 * size) - 1

/-- A refused read with its full error code: all ones where the block is absent or the address is reserved, 0 for a wrong size, which the
block records (R33, R44). -/
def State.readRefuse (s : State) (blk e size : Nat) : State × Nat := ({ s with out := ones size }, blk * 256 + e)
def State.readSize (s : State) (b : Block) : State × Nat := ({ s.err b errAccessSize with out := 0 }, b.code * 256 + errAccessSize)

/-- What the requester observes of a refused access (R46, R417): every requester of BLOCK_ABSENT and REPLY_LOST, a core of any refusal. -/
def State.told (s : State) (r : Requester) (code addr : Nat) : State :=
  let e := code % 256
  if e = 0 then s
  else if e = errBlockAbsent ∨ e = errReplyLost then s.tell r (code / 256) e addr
  else match r with
    | .core c => s.coreFault c.val code addr false
    | _ => s

/-- The block that holds a window. -/
def Place.block : Place → Block
  | .hot _ | .cold _ => .ptd
  | .loops => .ce
  | .acts => .csc
  | .ilp => .ilp
  | .win _ _ => .rsq
  | .ret _ => .ret
  | .sdram => .mem
  | .reg b _ => b
  | _ => .cpu

/-- Whether a place answers: its block does, and SDRAM is trained. -/
def State.reachable (s : State) (x : Place) : Bool :=
  match x with
  | .cold _ => s.present .ptd && (s.hd .mem).running
  | .sdram => s.present .mem && (s.hd .mem).running
  | .rom | .sram | .aia | .reserved => true
  | .reg b _ => s.present b
  | .hot _ => s.present .ptd
  | .loops => s.present .ce
  | .acts => s.present .csc
  | .ilp => s.present .ilp
  | .win _ _ => s.present .rsq
  | .ret _ => s.present .ret

/-- A word of the editing table of action entries; VALID shows the active copy (Table CSC-2). -/
def State.actWord (s : State) (a : Nat) : Nat :=
  let w := s.mem32 a
  (if a % 16 = 0 ∧ (s.ent ((a - 0x22000000) / 16)).valid then setBit w 29 else w).toNat

/-- A read of `size` bytes at a device address (R33, R35, R44, R65, R68, R243, R420, R470, Table CPU-1), with its full error code, 0 where it is served.
`ecc` is what the ECC finds in the hot entry it reads. The value is left in `out`. -/
def State.busGet (s : State) (p : Principal) (by_ : Option (Fin 8)) (a size : Nat) (ecc : EccRead) : State × Nat :=
  let two := fun (f : Nat → Nat) => f a + (if size = 8 then f (a + 4) * 2 ^ 32 else 0)
  let x := s.place a
  let b := x.block
  let absent := !s.reachable x
  match x with
  | .reg b o =>
    if o < 0x100 ∧ !s.present b ∧ wordAccess a 4 ∧ size = 4 then ({ s with out := hdrWord b (s.mirrored b) (s.hd b).pwr true o }, 0)
    else if absent then s.readRefuse b.code errBlockAbsent size
    else if size ≠ 4 ∨ a % 4 ≠ 0 then s.readSize b
    else if o < 0x100 then ({ s with out := hdrWord b (s.hd b) (s.hd b).pwr false o }, 0)
    else (s.regRead p by_ b o, 0)
  | .reserved => s.readRefuse Block.cpu.code errAccessDenied size
  | .rom | .aia => let (k, s1) := s.draw; ({ s1 with out := (Config.freeWord k).toNat }, 0)
  | .hot h =>
    if absent then s.readRefuse b.code errBlockAbsent size
    else if size ≠ 8 ∨ a % 8 ≠ 0 then s.readSize .ptd
    else
      let s1 := s.hotEcc h ecc
      ({ s1 with out := (s1.hotRead h).bits64 }, 0)
  | .cold i =>
    if absent then s.readRefuse Block.mem.code errBlockAbsent size
    else if size ≠ 8 ∨ a % 8 ≠ 0 then s.readSize .ptd
    else ({ s with out := (s.coldRead i).bits64 }, 0)
  | .sram => if aligned a size then ({ s with out := leNat (s.load a size) }, 0) else s.readSize .cpu
  | .sdram =>
    if absent ∨ !inSdram s a size then s.readRefuse b.code errBlockAbsent size
    else if aligned a size then ({ s with out := leNat (s.load a size) }, 0) else s.readSize .mem
  | .loops =>
    if absent then s.readRefuse b.code errBlockAbsent size
    else if !wordAccess a size then s.readSize b
    else ({ s with out := leNat (s.load a size) }, 0)
  | .acts =>
    if absent then s.readRefuse b.code errBlockAbsent size
    else if !wordAccess a size then s.readSize b
    else ({ s with out := two s.actWord }, 0)
  | .ilp =>
    if absent then s.readRefuse b.code errBlockAbsent size
    else if !wordAccess a size then s.readSize b
    else ({ s with out := two s.ilpWord }, 0)
  | .win n _ =>
    if absent then s.readRefuse b.code errBlockAbsent size
    else if !wordAccess a size then s.readSize b
    else ({ s with out := two fun x => s.statWin n (x % 0x1000) }, 0)
  | .ret i =>
    if !wordAccess a size then s.readSize b
    else
      let f := fun (x : Nat) =>
        let i := (x - 0x30000000) / 4
        if (retBank i = 0 ∨ retBank i = 4) ∧ retOff i < 0x4000 then 0 else (s.retWord i).toNat
      ({ s with out := if i < 524288 then two f else 0 }, 0)

/-- A read by a requester of this device. -/
def State.busRead (s : State) (p : Principal) (r : Requester) (a size : Nat) (ecc : EccRead) : State :=
  let (s1, e) := s.busGet p (match r with | .core c => some c | _ => none) a size ecc
  { s1.told r e a with out := s1.out }

end Sys2Proof.Machine
end

