-- ==== Sys2Proof/Machine/BlockCtl.lean ====
section
/-!
DEFINITION. BLK_CTRL (R35, R36): enable, run, soft reset and freeze of every block, with what each block's chapter says of them.
-/

namespace Sys2Proof.Machine

/-- The blocks whose function follows RUN with the write: their chapters name no later boundary (log 91). -/
def runsAtOnce : Block → Bool
  | .sys | .clk | .pmc | .evr | .cpu | .hif => true
  | _ => false

/-- Whether no CAN controller is on its bus. -/
def State.canIdle (s : State) : Bool := (List.range 4).all fun n => decide ((s.cctl n).state = .config) || decide ((s.cctl n).state = .sleep)

/-- An outer loop goes OFF without waiting for its evaluation instant: its SAFE_VAL is written once (Table CE-4), unless no vote is taken (R146). -/
def State.outerStop (s : State) (n : Nat) : State :=
  let d := s.loop n
  if s.xng.mode = .none then
    let s1 := s.loopNoVote n d
    let st := s1.loopSt n
    { s1 with ce := { s1.ce with lanes := s1.ce.lanes.foldl (fun t l => Tab.upd [] t l.1 fun m => Tab.put {} m n st) s1.ce.lanes } }
  else
    let i := s.loopIn n false
    s.loopTake n (s.votingLanes.map fun l => (l, s.laneEval n i l)) (evalLoop d i (s.loopSt n)).1 none

/-- The outer loops go OFF in the base frame of the write that clears RUN (Table CE-4). -/
def State.outerOff (s : State) : State :=
  (s.loopsActive.filter fun n => decide ((s.loop n).rate = 5)).foldl State.outerStop s

/-- What RUN = 1 starts with the write (Tables XNG-5, AVE-1). -/
def State.runStart (s : State) (b : Block) : State :=
  if runsAtOnce b then s.runFollow b
  else
    match b with
    | .xng => s.xngStart
    | .ave => s.aveRun true
    | .lne => s.runFollow .lne
    | .can => if s.canIdle then s.runFollow .can else s
    | _ => s

/-- What RUN = 0 stops with the write; the other blocks stop at their natural boundaries. An ILP scan whose write-out waits completes at the next boundary first (log 82). -/
def State.runStop (s : State) (b : Block) : State :=
  if runsAtOnce b then s.runFollow b
  else
    match b with
    | .ce => s.outerOff.ceSettle
    | .lne => s.lneRunStop
    | .ilp => if s.ilp.doom then s else s.ilpStop icRunStop
    | .can => if s.canIdle then s.runFollow .can else s
    | _ => s

/-- The code with which a block refuses RUN = 0 and EN = 0 (R155, R183). -/
def State.stopRefusal (s : State) (b : Block) : Option Nat :=
  match b with
  | .xng => if s.loopsActive = [] then none else some errXngRunActive
  | .rsq => if s.rsqActive then some errRunActive else none
  | _ => none

/-- MEM without EN maps no SDRAM (R422). -/
def State.memDisable (s : State) : State :=
  (s.updMem fun m => { m with trained := false, capacity := 0 }).updHd .mem fun h => { h with running := false }

/-- BLK_CTRL.FREEZE (Table SYS-3, R393). -/
def State.setFreeze (s : State) (b : Block) (p : Principal) (fz : Bool) : State :=
  let s1 := s.updHd b fun h => { h with freeze := fz }
  if fz = (s.hd b).freeze then s1
  else if b = .evr then (if fz then s1.evrFreeze else s1.evrRelease false)
  else if fz then s1.hold b p else s1.unhold b

/-- The state that a soft reset leaves behind the registers (R36, R395). In the blocks of PD_AON logs, sticky bits, counters and results go; the clocks, domains, supplies,
cells and records that they manage stay as they are (log 92). -/
def State.softData (s : State) (b : Block) : State :=
  match b with
  | .sys => let s1 := s.dcAbandon; { s1 with sys := { s1.sys with deny := none, keyWords := [] } }
  | .clk => { s with clk := { s.clk with mon := 0, xoCnt := 0, frcCnt := 0, lastForced := 0, result := 0 } }
  | .pmc => { s with pmc := { s.pmc with result := 0, refBlk := 0, wakeCause := 0, wakeStat := 0, waitBlk := 0, waitTime := 0 } }
  | .erm => ({ s with erm := { s.erm with cur := none, queue := [], cnt := [], fatalLog := none, pfailLast := 0 } }).settleErm
  | .ret => { s with ret := { s.ret with bankFail := 0, wfailLog := none, wfailCnt := 0 } }
  | .evr => s.evrSoftRst
  | .tim => { s with tim := { s.tim.off with coarse := s.tim.coarse } }
  | .hif => { s with hif := { up := s.hif.up, rate := s.hif.rate, width := s.hif.width, busMaster := s.hif.busMaster, msi := s.hif.msi, hostMem := s.hif.hostMem } }
  | .fio => s.fioSoftRst
  | .cpu => ((s.coresOff [1, 2]).blkData .cpu)
  | .lne => s.laneAllOff
  | .ave => s.aveFence.blkData .ave
  | b => s.blkData b

/-- BLK_CTRL.SOFT_RST (R36, R45): the fence, the reset of registers and state, a header at its reset values but for the lock. The block answers again at
the end of its fence. -/
def State.softRst (s : State) (b : Block) : State :=
  let s1 := s.softData b
  let s2 := (s1.clearRegs b true).dropRefs b
  let s3 := if b = .mem then s2 else s2.dropMem fun a => blkWindow b a
  let s4 := { s3 with hdr := Tab.upd {} s3.hdr b.code fun h => { pwr := .fenced, lock := h.lock } }
  if b = .cpu then s4.resetCore 0 else s4

/-- A write of BLK_CTRL (R36): SOFT_RST acts alone; FREEZE takes the value the write carries; RUN = 1 needs the EN of the same write. -/
def State.ctrlWrite (s : State) (b : Block) (p : Principal) (v : Word) : State :=
  if bit v 2 then s.softRst b
  else
    let h := s.hd b
    let en := bit v 0
    let run := bit v 1
    let s1 := s.setFreeze b p (bit v 3)
    match (if en && run then none else s.stopRefusal b) with
    | some e => s1.err b e
    | none =>
      let s2 := if run && !en && !h.run then s1.err b errNotEnabled else s1
      let s3 := s2.updHd b fun h => { h with en := en, run := run && en }
      let s4 := if !h.run && (run && en) then s3.runStart b else if h.run && !(run && en) then s3.runStop b else s3
      if b = .mem ∧ !en then s4.memDisable else s4

/-- A write of BLK_CTRL as a register write. -/
def State.ctrlCmd (s : State) (b : Block) (p : Principal) (v : Word) : State :=
  s.gated b 0x008 .rw p v fun s => s.ctrlWrite b p v

/-- A word of BLK_CTRL. -/
def ctrlWord (en run fz : Bool) : Word := word (pk [(b2n en, 0), (b2n run, 1), (b2n fz, 3)])

/-- BLOCK_ENABLE (R36): a write of BLK_CTRL that changes EN. -/
def execBlockEnable (b : Block) (p : Principal) (en : Bool) (s : State) : Out :=
  .next (s.ctrlCmd b p (ctrlWord en (s.hd b).run (s.hd b).freeze))

/-- BLOCK_RUN (R36): a write of BLK_CTRL that changes RUN. -/
def execBlockRun (b : Block) (p : Principal) (run : Bool) (s : State) : Out :=
  .next (s.ctrlCmd b p (ctrlWord (s.hd b).en run (s.hd b).freeze))

/-- SOFT_RST (R36). -/
def execSoftRst (b : Block) (p : Principal) (s : State) : Out := .next (s.ctrlCmd b p 4)

/-- FREEZE (R35, R393): a write of BLK_CTRL that changes FREEZE. -/
def execFreeze (b : Block) (p : Principal) (fz : Bool) (s : State) : Out :=
  .next (s.ctrlCmd b p (ctrlWord (s.hd b).en (s.hd b).run fz))

end Sys2Proof.Machine
end

