-- ==== Sys2Proof/Machine/Commit.lean ====
section
/-!
DEFINITION. The application of a block's commit (R37, R39, R500): each chapter's checks, the shadows, the recording grant that an HRC commit needs
(R341, R384) and the routes and flows of HTS (R409).
-/

namespace Sys2Proof.Machine

/-- The last index of a route source, where Table HTS-3 lists its block and KIND. -/
def routeLast (blk kind : Nat) : Option Nat :=
  match blk, kind with
  | 0x09, 0 | 0x09, 1 => some 1023
  | 0x0B, 0 | 0x0B, 1 => some 63
  | 0x0C, 0 => some 255
  | 0x0D, 0 => some 127
  | 0x0D, 1 => some 15
  | 0x11, 0 | 0x11, 1 => some 1023
  | 0x13, 0 | 0x13, 1 | 0x13, 2 => some 0
  | 0x16, 0 | 0x16, 1 => some 255
  | 0x16, 2 => some 3
  | b, 15 => if 1 ≤ b ∧ b ≤ 25 then some 0 else none
  | _, _ => none

/-- Whether an enabled route of the shadows is one of Table HTS-3 with its index range in order. A LAST beyond the source's indices names no source
(log 95). -/
def State.routeOk (s : State) (r : Nat) : Bool :=
  let r0 := s.shRegAt R.HTS_ROUTE0 (8 * r)
  let r1 := s.shRegAt R.HTS_ROUTE1 (8 * r)
  !bit r0 31 ||
    match routeLast (bits r0 7 0) (bits r0 11 8) with
    | some n => decide (bits r1 10 0 ≤ bits r1 26 16) && decide (bits r1 26 16 ≤ n)
    | none => false

/-- The flows whose shadow differs from the active word. -/
def State.flowsShadowed (s : State) : List Nat :=
  (s.shadow.filter fun e => keyOf .hts e.1 && decide (0x4000 ≤ e.1 % 0x10000) && decide (e.1 % 0x10000 < 0x8000)).map fun e => (e.1 % 0x10000 - 0x4000) / 4

/-- The checks of HTS (R409) in the order of R500: routes and ranges, the servers named, the items held. -/
def State.htsCommitCheck (s : State) : Nat :=
  let sh := fun (f : Nat) => s.shRegAt R.HTS_FLOW (4 * f)
  let free := fun (f : Nat) => bit (sh f) 31 && decide ((s.hts.task (bits (sh f) 8 0)).state = .free)
  let moved := fun (f : Nat) =>
    bit (s.flowWord f) 31 && decide (sh f ≠ s.flowWord f) && decide (Tab.get [] s.hts.flows f ≠ [])
  if !((List.range 256).all s.routeOk) then errBadRoute
  else if s.flowsShadowed.any free then errBadTask
  else if s.flowsShadowed.any moved then errFlowBusy
  else 0

/-- The check of a block's shadows as a whole: 0 where they may be applied. -/
def State.commitCheck (s : State) (b : Block) : Nat :=
  match b with
  | .lne => s.lneCommitCheck
  | .csc => s.cscCommitCheck
  | .fio => s.fioCommitCheck
  | .mot => s.motCommitCheck
  | .tim => s.timCommitCheck
  | .pmc => s.pmcCommitCheck
  | .hts => s.htsCommitCheck
  | _ => 0

/-- The shadows become active, with what the block's chapter says follows; the rolling test timer restarts (Table XNG-7). -/
def State.commitShadows (s : State) (b : Block) : State :=
  match b with
  | .lne => s.lneCommitApply
  | .csc => s.cscCommitApply
  | .tim => s.timCommitApply
  | .xng =>
    let s1 := s.applyShadows .xng
    { s1 with xng := { s1.xng with testFrames := 0 } }
  | .fio => (s.applyShadows .fio).fioCommitApply fun k => s.regAt R.FIO_CH_CFG (4 * k)
  | b => s.applyShadows b

/-- A commit ends: COMMIT_PENDING clears and COMMIT_DONE is raised. -/
def State.commitEnd (s : State) (b : Block) : State := (s.updHd b fun h => { h with commitPending := false }).irq b 1

/-- Applied: BLK_CFG_GEN increments. -/
def State.commitApplied (s : State) (b : Block) : State :=
  ((s.commitShadows b).updHd b fun h => { h with cfgGen := wrapInc h.cfgGen }).commitEnd b

/-- Refused: active values and shadows stay, BLK_ERR records the code. -/
def State.commitRefused (s : State) (b : Block) (e : Nat) : State := (s.err b e).commitEnd b

/-- R of the directory in force, and G with the HRC_RESERVE of the shadow. -/
def State.dirRate (s : State) : Nat × Nat := histRate (s.ptd.dir.map (·.2))
def State.hrcNewGrant (s : State) : Nat := grantOf s.dirRate (bits (s.shReg R.HRC_RESERVE) 9 0)

/-- HRC's shadows apply with the grant they need. -/
def State.hrcApplied (s : State) : State := (s.commitApplied .hrc).hrcGranted s.dirRate s.hrcNewGrant

/-- An HRC commit (R341, R384): a larger grant is obtained first; until the answer the commit stays pending. A device outside a fabric needs none
(log 87). -/
def State.hrcCommit (s : State) : State :=
  let g := s.hrcNewGrant
  if g ≤ s.hrc.grant ∨ !s.ave.assigned then s.hrcApplied
  else if s.ave.role = .active then
    let (s1, ok) := s.recGrant s.ave.devId g
    if ok then s1.hrcApplied else s1.commitRefused .hrc errHistFabric
  else if s.ave.grantWait.isSome then s
  else (s.updAve fun a => { a with grantWait := some g }).aveTo 0 (.grant (.recReq s.ave.devId g))

/-- COMMIT_APPLY (R37–R39): a block's natural boundary, or the few cycles after the write where it does not run. -/
def execCommitApply (b : Block) (s : State) : Out :=
  .next (
    if !(s.hd b).commitPending ∨ !s.present b then s
    else
      let e := s.commitCheck b
      if e ≠ 0 then s.commitRefused b e
      else if b = .hrc then s.hrcCommit
      else s.commitApplied b)

/-! ### The answer to a request for a recording grant -/

/-- The commit that waits for a grant ends (R384): the directory entry's, or HRC's own. -/
def State.grantDecided (s : State) (ok : Bool) : State :=
  let s1 := s.updAve fun a => { a with grantWait := none }
  if s.ptd.waitGrant then
    match s.ptd.busy with
    | some idx => if ok then s1.entApply idx else s1.entHist idx errHistFabric
    | none => s1
  else if (s.hd .hrc).commitPending then (if ok then s1.hrcApplied else s1.commitRefused .hrc errHistFabric)
  else s1

/-- A grant answered to this device: of the commit that waits for it, else of the request it made when it joined the fabric (R384). -/
def State.grantAnswer (s : State) (mbps : Nat) (ok : Bool) : State :=
  if s.ave.grantWait = some mbps then s.grantDecided ok
  else (s.updHrc fun h => { h with noGrant := !ok }).updAve fun a => { a with recOwn := if ok then mbps else a.recOwn }

/-- HIST_GRANT_TIMEOUT (R58, R384): a grant not decided within 10 ms counts as refused. -/
def execHistGrantTimeout (s : State) : Out := .next (if s.ave.grantWait.isSome then s.grantDecided false else s)

end Sys2Proof.Machine
end

