-- ==== Sys2Proof/Machine/IlpCmd.lean ====
section
/-!
DEFINITION. The ILP's commands that write no register: loads and on-line changes (R263, R265).
-/

namespace Sys2Proof.Machine

/-- ILP_LOAD (R263): GO in STOP starts a load; while one runs it is refused with COMMIT_BUSY (DEDUCED). -/
def execIlpLoad (p : Principal) (s : State) : Out :=
  .next (s.gated .ilp 0x11C .w1s p 1 fun s =>
    if s.ilp.loadBusy then s.err .ilp errCommitBusy
    else if s.ilp.mode ≠ .stop then s.loadEnd errNotStopped 0 0
    else s.updIlp fun x => { x with loadBusy := true })

/-- ILP_LOAD_DONE (R263): the image is checked and copied, and applied or refused. -/
def execIlpLoadDone (s : State) : Out :=
  .next (
    if !s.ilp.loadBusy ∨ !s.present .ilp then s
    else
      let a := s.imgAddr
      let n := (s.reg R.ILP_IMG_LEN).toNat
      if !(inSram a n) ∧ !(inSdram s a n) then s.loadEnd errBlockAbsent 0 0
      else
        let ws := bytesWords (s.load a n)
        match s.imageCheck ws n with
        | some (e, pos, sec) => s.loadEnd e pos sec
        | none =>
          let m := (parseImage ws).1
          let s1 := (s.setRefs .ilp 0 (s.imagePoints m)).updIlp fun x =>
            { x with img := m, empty := false, newImage := true, chg := [], lastQ := [], lastW := [] }
          ((s1.loadEnd 0 0 0).record .ilp 0 0x0E11 [m.code.length, m.crc.toNat, m.slots.length]).ilpStopValues)

/-- The declared size of a changeable space (R265). -/
def Ilp.chgRoom (x : Ilp) (space : Nat) : Nat :=
  if x.empty then 0
  else
    match space with
    | 0 => x.img.kInit.length
    | 1 => x.img.tPre.length
    | 2 => x.img.cPre.length
    | 3 => x.img.wN
    | 4 => x.img.mN
    | _ => 0

/-- ILP_CHG_GO (R265): in STOP the change is applied at once. A timer preset beyond 2^31 − 1 (R248) is refused with VALUE_RANGE (log 82). -/
def execIlpChgGo (p : Principal) (s : State) : Out :=
  .next (s.gated .ilp 0x148 .w1s p 1 fun s =>
    let t := s.reg R.ILP_CHG_TGT
    let g : IChg := { space := bits t 2 0, idx := bits t 23 8, val := s.reg R.ILP_CHG_VAL, principal := p.code }
    let e := if 64 ≤ s.ilp.chg.length then errChgFull else if s.ilp.chgRoom g.space ≤ g.idx then errChgTarget
      else if decide (g.space = 1) && bit g.val 31 then errValueRange else 0
    let s1 := s.updIlp fun x => { x with chgResult := e }
    if e ≠ 0 then s1.err .ilp e
    else
      let s2 := s1.updIlp fun x => { x with chg := x.chg ++ [g] }
      if s2.ilp.mode = .stop then s2.ilpChanges else s2)

end Sys2Proof.Machine
end

