-- ==== Sys2Proof/Machine/Reset.lean ====
section
/-!
DEFINITION. Resets and supplies (R466–R469), errors from outside and acknowledgements (R473–R479), the field-side supply (R268, R300) and the end of the autonomy window (R29).
-/

namespace Sys2Proof.Machine

def errAckMismatch : Nat := 0x20
def errBadKey : Nat := 0x21

/-- POWER_ON_RESET (R466): everything on the core die is reset. The retention store's cells and records, the safety island, the field die and the host's memory are not on it or
keep their contents; waiting commands wait on. TIME_LOST is recorded (R361). -/
def execPowerOnReset (s : State) : Out :=
  .next (
    let r := s.ret
    { State.reset with
      pending := s.pending, free := s.free, saf := s.saf,
      hdr := s.hdrFull,
      fio := { s.fio with linkUp := false, cfgSync := false, aiT := none },
      regs := Tab.keep (fun k _ => keyOf .fio k) s.regs, shadow := Tab.keep (fun k _ => keyOf .fio k) s.shadow,
      hif := { hostMem := s.hif.hostMem },
      ret := { cells := r.cells, recs := r.recs, round := r.round, sysA := r.sysA, sysB := r.sysB } })

/-- BROWNOUT (R466): which of PG_CORE, PG_IO and VDD_CORE's range is lost. During phases 1 and 2 of a start-up it restarts phase 1 (R486). -/
def execBrownout (core io vdd : Bool) (s : State) : Out :=
  .next ((if s.erm.phase < 2 then s.updErm fun e => { e with phase := 0 } else s.fullReset 1).updErm fun e =>
    { e with supply := { e.supply with pgCore := e.supply.pgCore && !core, pgIo := e.supply.pgIo && !io, vddCoreOk := e.supply.vddCoreOk && !vdd } })

/-- RESET_PIN (R466). -/
def execResetPin (s : State) : Out := .next ((s.fullReset 4).updErm fun e => { e with supply := { e.supply with resetN := false } })

/-- SOFTWARE_RESET (R466, R479). -/
def execSoftwareReset (p : Principal) (v : Word) (s : State) : Out :=
  .next (s.gated .erm 0x154 .wo p v fun s => if v = 0xA5A5 then (s.fullReset 5).resetRelease else s.err .erm errBadKey)

/-- DEBUG_RESET (R466): where the debug port is permitted. -/
def execDebugReset (s : State) : Out := .next (if s.debugOpen then (s.fullReset 6).resetRelease else s)

/-- FATAL_RESET (R478): FATAL_DELAY after the FATAL error. -/
def execFatalReset (s : State) : Out := .next (if s.erm.fatal then (s.fullReset 2).resetRelease else s)

/-- PFAIL_RESET (R469): PFAIL_N is still low after PFAIL_RST. -/
def execPfailReset (s : State) : Out := .next (if s.erm.pfailActive then s.fullReset 3 else s)

/-- RESET_RELEASE (R466): the supplies, RESET_N and, after PFAIL, PFAIL_N are good again. -/
def execResetRelease (s : State) : Out :=
  .next (
    if !s.erm.held then s
    else
      let pf := decide (s.erm.rstCause = 3)
      (s.updErm fun e =>
        { e with supply := { e.supply with pgCore := true, pgIo := true, vddCoreOk := true, resetN := true, pgMem := e.supply.pgMem || pf, pfailN := e.supply.pfailN || pf },
                 pfailActive := e.pfailActive && !pf }).resetRelease)

/-- PG_MEM_LOSS (R467, R468): PD_MEM is fenced and FAULT raised; SDRAM, cold entries, history blocks and the capture session are lost or end, running streams hold. The
FAULT has no code of its own. -/
def execPgMemLoss (s : State) : Out :=
  .next (
    let s1 := s.updErm fun e => { e with supply := { e.supply with pgMem := false } }
    if !s.domOn 11 ∨ (s.hd .mem).pwr ≠ .on then s1
    else
      let s2 := (((s1.fenceCommit .mem).updHd .mem fun h => { h with pwr := .fenced, running := false }).domRecord 11 1 2).updMem fun m => { m with trained := false, capacity := 0 }
      let s3 := (s2.dropMem fun a => decide (0x800000000 ≤ a)).updHrc fun h => { h with blk := none, unsent := [], first := true }
      let s4 := ({ s3 with ptd := { s3.ptd with cold := [] } }).rsqMemFence
      let s5 :=
        match s4.acq.state with
        | .armed | .rearm => s4.endSession .stopped 2
        | .post => (s4.logMark 2).endSession .stopped 2
        | _ => s4.updAcq fun a => { a with armReq := false }
      s5.raiseNoCode .mem 0 .fault)

/-- PG_MEM_RESTORE (R468): PMC powers PD_MEM again, and MEM retrains. -/
def execPgMemRestore (s : State) : Out :=
  .next (
    let s1 := s.updErm fun e => { e with supply := { e.supply with pgMem := true } }
    if (s.hd .mem).pwr = .fenced then (s1.updHd .mem fun h => { h with pwr := .on }).domRecord 11 2 1 else s1)

/-- PFAIL_FALL (R469). A power-on with PFAIL_N low is a PFAIL reset (R486): phase 3 does not begin until the hold ends. -/
def execPfailFall (s : State) : Out :=
  .next (
    if s.erm.pfailActive then s
    else if s.erm.phase < 2 then
      s.updErm fun e => { e with supply := { e.supply with pfailN := false }, pfailActive := true, pfailSince := s.upUs, held := true, rstCause := 3 }
    else
      let s1 := s.updErm fun e => { e with supply := { e.supply with pfailN := false }, pfailActive := true, pfailSince := s.upUs }
      ((s1.record .erm 0 0x0415 [1, 0]).raise .erm 0 0x0415 .warn).pmcRollback 0 3)

/-- PFAIL_RISE (R469). -/
def execPfailRise (s : State) : Out :=
  .next (
    if !s.erm.pfailActive then s
    else
      let d := min 0xFFFF ((s.upUs - s.erm.pfailSince) / 100)
      (s.updErm fun e => { e with supply := { e.supply with pfailN := true }, pfailActive := false, pfailLast := d }).record .erm 0 0x0415 [0, d])

/-- ERM_ERROR_RAISE (R473, R475): a block raises an error by the code of its record. -/
def execErmErrorRaise (b : Block) (inst : Fin 256) (code : BitVec 16) (sev : Severity) (s : State) : Out :=
  .next (s.raise b inst.val code.toNat sev)

/-- ERM_ACK (R474). -/
def execErmAck (p : Principal) (code : BitVec 16) (s : State) : Out :=
  .next (s.gated .erm 0x114 .wo p (word code.toNat) fun s =>
    match s.erm.cur with
    | none => s.err .erm errAckMismatch
    | some e => if e.code = code.toNat then ((s.runFollow .erm).updErm fun x => { x with cur := none }).settleErm else s.err .erm errAckMismatch)

/-- ERM_FATAL_LOG_CLEAR (R479). -/
def execErmFatalLogClear (p : Principal) (s : State) : Out :=
  .next (s.gated .erm 0x144 .w1c p 0x80000000 fun s => s.updErm fun e => { e with fatalLog := none })

/-- VDD_FD_POWER_UP (R268, R276, R300): the field die starts with every group in WAIT_EN, outputs off and CFG_SYNC = 0; the hard-wired safety channel is in INIT. -/
def execVddFdPowerUp (rstHigh : Bool) (s : State) : Out :=
  .next (
    if (s.hd .fio).pwr ≠ .off ∧ (s.saf.chan 0).alive then s
    else ((s.clearRegs .fio true).fioPowerUp.hdrUp .fio).safChanUp 0 rstHigh)

/-- VDD_FD_LOSS (R268): the hard-wired channel's switches open and the field die stops; the core die finds its link down by itself. -/
def execVddFdLoss (s : State) : Out :=
  .next (
    if (s.hd .fio).pwr = .off then s
    else ((s.updFio fun x => { linkUp := x.linkUp, linkErr := x.linkErr }).hdrDown .fio).safChanDown 0)

/-- AUTONOMY_WINDOW_EXPIRY (R29): streams go to their park step at the next tick, and ALARM is raised. The command stands for an expiry with no
attach in the same base frame (log 7). -/
def execAutonomyWindowExpiry (s : State) : Out :=
  .next (
    if s.hts.auto ≠ .autonomous then s
    else
      let n := (s.streamsWhere fun x => x.runs || decide (x.state = .hold)).length
      (((s.setAuto .expired).rsqExpire).record .hts 0 0x0712 [n]).raise .hts 0 0x0712 .alarm)

end Sys2Proof.Machine
end

