-- ==== Sys2Proof/Machine/RegWrite.lean ====
section
/-!
DEFINITION. Writes to the device's map (Table CPU-1): header registers (R35–R39), the registers whose write is a command, the register words by access code (R34, R38,
R39, R41, R499), the descriptor windows (R40) and the memories.
-/

namespace Sys2Proof.Machine

/-! ### Register words -/

/-- A free truth value: what the outside would say of a command that arrives as a plain write (log 95). -/
def State.drawBit (s : State) : Bool × State := (bit (Config.freeWord s.free) 0, s.draw.2)

/-- Whether a value meets a register's stated ranges (R499). A range whose bounds are equal states the bits' value. -/
def rangesOk (l : List Rng) (v : Word) : Bool := l.all fun r => decide (r.mn ≤ bits v r.hi r.lo) && decide (bits v r.hi r.lo ≤ r.mx)

/-- The code of a value outside its range: HRC names BAD_RING for its ring's registers. -/
def rangeErr (b : Block) (o : Nat) : Nat := if b = .hrc ∧ o < 0x114 then errBadRing else errValueRange

/-- Whether a port of the Lane, or of Avenue, is not OFF. -/
def State.laneBusy (s : State) : Bool := (List.range 8).any fun p => decide ((s.lport p).state ≠ .off)
def State.aveBusy (s : State) : Bool := (List.range 6).any fun p => decide ((s.aport p).st ≠ .off)

/-- Whether an RWL field is locked by what runs (R38 and the chapters' readings of "running"). -/
def State.rwlLocked (s : State) (b : Block) (o : Nat) : Bool :=
  match b with
  | .lne => if o < 0x1000 then s.laneBusy else decide ((s.lport ((o - 0x1000) / 0x1000)).state ≠ .off)
  | .ave => s.aveBusy
  | .can => decide ((s.cctl ((o - 0x1000) / 0x1000)).state ≠ .config)
  | .hif => decide ((s.ring ((o - 0x200) / 0x20)).state ≠ .off)
  | b => (s.hd b).running

/-- A write of a register word that is no command (R34, R38, R39, R499). Reserved and read-only bits keep their reading. -/
def State.rowWrite (s : State) (b : Block) (o : Nat) (v : Word) : State :=
  let r : RegId := ⟨b, o⟩
  match regRow r with
  | none => s
  | some w =>
    let x := v &&& word w.mask
    match w.acc with
    | .rw | .wo => if rangesOk w.rng x then s.setReg r x else s.err b (rangeErr b o)
    | .rwl =>
      if s.rwlLocked b o then s.err b errCfgLocked
      else if rangesOk w.rng x then s.setReg r x
      else s.err b (rangeErr b o)
    | .rwc =>
      if (s.hd b).commitPending then s.err b errCommitBusy
      else if rangesOk w.rng x then s.setSh r x
      else s.err b (rangeErr b o)
    | _ => s

/-- The access code of a register word; read-only where no row holds it. -/
def accessOf (b : Block) (o : Nat) : Access := match regRow ⟨b, o⟩ with | some w => w.acc | none => .ro

/-! ### Descriptors (R40) -/

/-- The word of a descriptor that holds COMMIT [31] and PEND [30], after a write: COMMIT is W1S and PEND read-only. -/
def commitWord (old v : Word) : Word := (v &&& 0x3FFFFFFF) ||| (old &&& 0xC0000000) ||| (v &&& 0x80000000)

/-- A write to the descriptor of `len` bytes at `base` whose commit word is at `base + cw`: discarded while its commit is pending (R39, R40). -/
def State.descWrite (s : State) (b : Block) (base cw a : Nat) (v : Word) : State :=
  if bit (s.mem32 (base + cw)) 30 then s.err b errCommitBusy
  else s.store32 a (if a = base + cw then commitWord (s.mem32 a) v else v)

/-- A table's editing words in CE's region (R124): its header at 0x400 and its entries at 0x8000. -/
def State.tabWrite (s : State) (t : Nat) (o : Nat) (v : Word) : State :=
  let h := s.tabHdr t 7
  if bit h 30 then s.err .ce errCommitBusy
  else s.setReg ⟨.ce, o⟩ (if o = 0x400 + 32 * t + 28 then commitWord h v else v)

/-! ### Commands that are register writes -/

/-- Apply a command's meaning where a bit of the written word is set. -/
def State.onBit (s : State) (v : Word) (i : Nat) (f : State → Out) : State := if bit v i then s.ofOut (f s) else s

/-- The command registers of SYS (Table SYS-9). -/
def State.cmdSys (s : State) (p : Principal) (o : Nat) (v : Word) : Option State :=
  match o with
  | 0x110 => some (s.onBit v 31 (execDenyLogClear p))
  | 0x300 =>
    if bit v 0 then some (s.ofOut (execDcStage p v s))
    else if bit v 1 then some (s.ofOut (execDcCancel p (Fin.ofNat 8 (bits v 10 8)) s))
    else none
  | 0x34C => some (s.onBit v 0 (execDcSubmit p))
  | 0x380 => some (s.ofOut (execDcEnroll p (Fin.ofNat 4 (bits v 1 0)) (bit v 8) s))
  | _ => (arr o 0x360 4 8).map fun n => s.ofOut (execDcKeyWrite p (Fin.ofNat 8 n) v s)

/-- PTD (Table PTD-7). -/
def State.cmdPtd (s : State) (p : Principal) (o : Nat) (v : Word) : Option State :=
  match o with
  | 0x120 => some (s.ofOut (execPtdEntGo p (Fin.ofNat 524288 (bits v 18 0)) s))
  | 0x138 =>
    some (((((s.onBit v 0 (execForce p)).onBit v 1 (execRelease p)).onBit v 2 (execReleaseAll p)).onBit v 3 (execSimOn p)).onBit v 4 (execSimOff p))
  | 0x160 => some (s.onBit v 31 (execPtdUeLogClear p))
  | _ => none

/-- The mode of CE_MODE_CMD; the codes 5 and 6 are reserved. -/
def modeOfField : Nat → Option (Option LMode)
  | 0 => some (some .off) | 1 => some (some .manual) | 2 => some (some .auto) | 3 => some (some .cascade) | 4 => some (some .safe) | 7 => some none
  | _ => none

/-- CE (Tables CE-9 and CE-19). -/
def State.cmdCe (s : State) (p : Principal) (o : Nat) (v : Word) : Option State :=
  let n : Fin 1024 := Fin.ofNat 1024 (bits v 9 0)
  match o with
  | 0x100 => some (s.ofOut (execCeLoopGo p n s))
  | 0x108 =>
    some (match modeOfField (bits v 14 12) with
      | some m => s.modeWrite p n.val m (if bit v 15 then some (BitVec.ofNat 16 (bits v 31 16)) else none)
      | none => s)
  | 0x300 =>
    some (if bit v 16 then s.ofOut (execSupAck p n (bit v 17) s) else s.onBit v 17 (execSupAlign p n))
  | 0x308 => some (s.ofOut (execCeRampCmd p n (BitVec.ofNat 16 (bits v 31 16)) s))
  | 0x320 => some (s.ofOut (execCeTabGo p (Fin.ofNat 16 (bits v 3 0)) s))
  | _ =>
    match arr o 0x200 4 32, arr o 0x380 4 32 with
    | some i, _ => some (s.ofOut (execCeEvtClear p (Fin.ofNat 32 i) v s))
    | _, some i => some (s.ofOut (execCeTripClear p (Fin.ofNat 32 i) v s))
    | _, _ =>
      match arr o 0x400 4 128, arr o 0x8000 4 8192 with
      | some k, _ => some (s.gated .ce o .rw p v fun s => s.tabWrite (k / 8) o v)
      | _, some k => some (s.gated .ce o .rw p v fun s => s.tabWrite (k / 512) o v)
      | _, _ => none

/-- XNG (Table XNG-6). -/
def State.cmdXng (s : State) (p : Principal) (o : Nat) (v : Word) : Option State :=
  match o with
  | 0x10C =>
    let l := bits v 1 0
    let s1 := if l < 3 then (s.onBit v 8 (execXngTest p (Fin.ofNat 3 l))).onBit v 9 (execXngRetry p (Fin.ofNat 3 l)) else s
    some (if bit v 10 then (let (c, s2) := s1.drawBit; s2.ofOut (execXngRestart p c s2)) else s1)
  | 0x140 => some (s.onBit v 31 (execXngDisLogClear p))
  | _ => none

/-- RSQ (Table RSQ-14). -/
def State.cmdRsq (s : State) (p : Principal) (o : Nat) (v : Word) : Option State :=
  let n : Fin 64 := Fin.ofNat 64 (bits v 5 0)
  let step : BitVec 16 := BitVec.ofNat 16 (bits v 31 16)
  match o with
  | 0x100 =>
    some (s.ofOut (match bits v 11 8 with
      | 1 => execStreamStart p n step s
      | 2 => execStreamHold p n s
      | 3 => execStreamResume p n s
      | 4 => execStreamPause p n s
      | 5 => execStreamAbort p n s
      | 6 => execStreamPark p n s
      | 7 => execStreamReset p n s
      | 8 => execStreamRecheck p n s
      | 9 => execStreamDiscard p n s
      | _ => .next s))
  | 0x108 => some (s.ofOut (execRsqStepGo p n step s))
  | 0x110 => some (s.onBit v 0 (execRsqResumeGo p))
  | _ =>
    match arr o 0x140 4 2, arr o 0x148 4 2 with
    | some i, _ => some (s.ofOut (execRsqEvtClear p (Fin.ofNat 2 i) v s))
    | _, some i => some (s.ofOut (execRsqAlmClear p (Fin.ofNat 2 i) v s))
    | _, _ => none

/-- CSC (Table CSC-7). -/
def State.cmdCsc (s : State) (p : Principal) (o : Nat) (v : Word) : Option State :=
  let g : Fin 256 := Fin.ofNat 256 (bits v 7 0)
  match o with
  | 0x100 => some (s.ofOut (execCscActGo p (Fin.ofNat 65536 (bits v 15 0)) (Fin.ofNat 256 (bits v 23 16)) s))
  | 0x108 =>
    some (s.ofOut (match bits v 9 8 with
      | 0 => execCscArm p g s.tick s
      | 1 => execCscArmRel p g s.tick s
      | 2 => execCscCancel p g s.tick s
      | _ => .next s))
  | _ => (arr o 0x400 4 8).map fun i => s.ofOut (execCscEvtClear p (Fin.ofNat 8 i) v s)

/-- MOT (Table MOT-9), with the descriptors of its region. -/
def State.cmdMot (s : State) (p : Principal) (o : Nat) (v : Word) : Option State :=
  let n : Fin 128 := Fin.ofNat 128 (bits v 6 0)
  match o with
  | 0x100 =>
    some (s.ofOut (match bits v 11 8 with
      | 1 => execAxisEnable p n s
      | 2 => execAxisDisable p n s
      | 3 => execMoveAbs p n s
      | 4 => execMoveRel p n s
      | 5 => execMoveVel p n s
      | 6 => execAxisStop p n s
      | 7 => execAxisQstop p n s
      | 8 => execAxisHome p n s
      | 10 => execAxisFollow p n s
      | 11 => execAxisGmove p n (Fin.ofNat 16 (bits v 19 16)) s
      | 12 => execResetFault p n s
      | 13 => execLatchArm p n s
      | _ => .next s))
  | 0x120 => some (s.ofOut (execMotAxisGo p n s))
  | 0x128 => some (s.ofOut (execMotGrpGo p (Fin.ofNat 16 (bits v 3 0)) s))
  | 0x1B8 => some (s.onBit v 31 (execMotLatClear p))
  | 0x2C0 => some (s.ofOut (execMotEncErrClear p v s))
  | 0x390 => some (s.ofOut (execMotEvtClear p none v s))
  | _ =>
    match arr o 0x380 4 4 with
    | some i => some (s.ofOut (execMotEvtClear p (some (Fin.ofNat 4 i)) v s))
    | none =>
      if 0x4000 ≤ o ∧ o < 0x8000 then
        some (s.gated .mot o .rw p v fun s => s.descWrite .mot (axisEdit ((o - 0x4000) / 128)) 124 (Block.mot.base + o) v)
      else if 0x3000 ≤ o ∧ o < 0x3200 then
        some (s.gated .mot o .rw p v fun s => s.descWrite .mot (grpEdit ((o - 0x3000) / 32)) 28 (Block.mot.base + o) v)
      else none

/-- ILP (Table ILP-8). The time that an execution takes is a free value. -/
def State.cmdIlp (busw : Nat → Word → State → State) (s : State) (p : Principal) (o : Nat) (v : Word) : Option State :=
  match o with
  | 0x108 =>
    let (k, s1) := s.draw
    some (s1.gated .ilp 0x108 .wo p v fun s => State.ilpCmd busw (bits v 2 0) (Config.freeWord k).toNat s)
  | 0x11C => some (s.onBit v 0 (execIlpLoad p))
  | 0x148 => some (s.onBit v 0 (execIlpChgGo p))
  | _ => none

/-- FIO (Table FIO-5). -/
def State.cmdFio (s : State) (p : Principal) (o : Nat) (v : Word) : Option State :=
  match o with
  | 0x100 => some (s.onBit v 1 (execSilencedClear p))
  | 0x11C => some (s.onBit v 8 (execFioGrpEnable p (Fin.ofNat 2 (bits v 0 0))))
  | 0x124 => some (s.ofOut (execFioTestUv p (BitVec.ofNat 2 (bits v 1 0)) s))
  | 0x138 => some (s.ofOut (execFioMmClear p v s))
  | 0x13C => some (s.ofOut (execFioOcClear p v s))
  | 0x150 => some (s.onBit v 0 (execAiCalGo p))
  | _ => none

/-- LNE (Table LNE-8), by the port's page. -/
def State.cmdLne (s : State) (p : Principal) (o : Nat) (v : Word) : Option State :=
  if o < 0x1000 ∨ 0x9000 ≤ o then none
  else
    let n : Fin 8 := Fin.ofNat 8 ((o - 0x1000) / 0x1000)
    let k : Fin 128 := Fin.ofNat 128 (bits v 6 0)
    match o % 0x1000 with
    | 0x010 =>
      some (s.ofOut (match bits v 1 0 with
        | 1 => execLneStart p n s
        | 2 => execLneStop p n s
        | 3 => execLneReenum p n s
        | _ => .next s))
    | 0x014 =>
      some (s.ofOut (match bits v 9 8 with
        | 1 => execStaRestart p n k s
        | 2 => execStaGoSafe p n k s
        | _ => .next s))
    | 0x040 => some (s.onBit v 0 (execLneInjUnlock p n))
    | 0x04C => some (s.ofOut (execLneInjEn p n (bit v 0) s))
    | 0x10C => some (s.ofOut (execEthRxTail p n (BitVec.ofNat 16 v.toNat) s))
    | 0x114 => some (s.ofOut (execEthTxTail p n (BitVec.ofNat 16 v.toNat) s))
    | _ => none

/-- AVE (Table AVE-8). -/
def State.cmdAve (s : State) (p : Principal) (o : Nat) (v : Word) : Option State :=
  match o with
  | 0x10C =>
    some (s.ofOut (match bits v 2 0 with
      | 1 => execAveDiscover p s
      | 2 => execAveRelease p s
      | _ => .next s))
  | 0x120 => some (s.onBit v 31 (execAveSubStatClear p))
  | _ =>
    match arr o 0x1040 0x1000 6, arr o 0x104C 0x1000 6 with
    | some n, _ => some (s.onBit v 0 (execAveInjUnlock p (Fin.ofNat 6 n)))
    | _, some n => some (s.ofOut (execAveInjEn p (Fin.ofNat 6 n) (bit v 0) s))
    | _, _ => none

/-- TIM (Table TIM-3). -/
def State.cmdTim (s : State) (p : Principal) (o : Nat) (v : Word) : Option State :=
  match o with
  | 0x104 => some (s.onBit v 7 (execLostRstClear p))
  | 0x138 => some (s.ofOut (execTimOfsSubmit p v s))
  | 0x144 => some (s.ofOut (execTimSet p v s))
  | _ =>
    match arr o 0x210 0x20 8, arr o 0x214 0x20 8 with
    | some n, _ => some (s.onBit v 0 (execTxtsPop p (Fin.ofNat 8 n)))
    | _, some n => some (s.onBit v 0 (execTxtsOvfClear p (Fin.ofNat 8 n)))
    | _, _ => none

/-- ACQ (Table ACQ-7). -/
def State.cmdAcq (s : State) (p : Principal) (o : Nat) (v : Word) : Option State :=
  match o with
  | 0x118 =>
    some (match bits v 1 0 with
      | 1 => let (f, s1) := s.drawBit; s1.ofOut (execAcqArm p f s1)
      | 2 => s.ofOut (execAcqStop p s)
      | 3 => s.ofOut (execAcqClear p s)
      | _ => s)
  | 0x138 => some (s.ofOut (execAcqTflagSet p v s))
  | _ => (arr o 0x140 4 2).map fun i => s.ofOut (execAcqFlagClear p (Fin.ofNat 2 i) v s)

/-- HTS (Tables HTS-5 and HTS-6). -/
def State.cmdHts (s : State) (p : Principal) (o : Nat) (v : Word) : Option State :=
  let t : Fin 512 := Fin.ofNat 512 (bits v 8 0)
  match o with
  | 0x100 =>
    some (s.ofOut (match bits v 14 12 with
      | 1 => execTaskCreate p t s
      | 2 => execTaskDelete p t s
      | 3 => execTaskSuspend p t s
      | 4 => execTaskResume p t s
      | _ => .next s))
  | 0x108 => some (s.onBit v 0 (execHtsHb p))
  | 0x114 => some (s.gated .hts 0x114 .rw p v fun s => (s.rowWrite .hts 0x114 v).serve.lapse)
  | _ =>
    match arr o 0x2004 16 512 with
    | some t => some (s.ofOut (execMaskWrite p (Fin.ofNat 512 t) v s))
    | none =>
      if 0x1000 ≤ o ∧ o < 0x1200 then
        let c : Fin 8 := Fin.ofNat 8 ((o - 0x1000) / 0x40)
        match o % 0x40 with
        | 0x14 => some (if bit v 0 then s.ofOut (execTaskDone p c s) else s.onBit v 1 (execTaskYield p c))
        | 0x20 => some (s.ofOut (execSubGo p c (Fin.ofNat 4096 (bits v 11 0)) s))
        | 0x2C => some (s.ofOut (execFset p c v s))
        | _ => none
      else none

/-- RING_CFG of a ring (Table HIF-3): EN is RW, the other fields RWL by the ring's state. -/
def State.ringWrite (s : State) (p : Principal) (n : Fin 8) (v : Word) : State :=
  if bit v 31 then s.ofOut (execRingEnable p n v s)
  else
    s.gated .hif (0x208 + 32 * n.val) .rw p v fun s =>
      let r : RegId := ⟨.hif, 0x208 + 32 * n.val⟩
      let w := v &&& 0x3F071FFF
      if bits w 12 0 < 16 ∨ 4096 < bits w 12 0 then s.err .hif errValueRange
      else if (s.ring n.val).state ≠ .off then
        (if w = clrBit (s.reg r) 31 then s else s.err .hif errCfgLocked).ofOut (execRingDisable p n (if w = clrBit (s.reg r) 31 then s else s.err .hif errCfgLocked))
      else s.setReg r w

/-- CPU, MEM and HIF (Table HIF-3). -/
def State.cmdHost (s : State) (p : Principal) (b : Block) (o : Nat) (v : Word) : Option State :=
  match b, o with
  | .cpu, 0x100 => some (s.ofOut (execCpuCoreEn p v s))
  | .cpu, 0x104 => some (s.ofOut (execCpuCoreRst p v s))
  | .cpu, 0x10C => some (s.ofOut (execCpuWdtLogClear p v s))
  | .cpu, 0x11C => some (s.onBit v 31 (execCpuSramUeClear p))
  | .cpu, o => (arr o 0x210 4 16).map fun k => s.gated .cpu o .rw p v fun s => (s.setReg ⟨.cpu, o⟩ v).timerLevel (k / 2)
  | .mem, 0x114 => some (s.onBit v 31 (execMemUeClear p))
  | .hif, 0x108 => some (s.onBit v 31 (execHifErrLogClear p))
  | .hif, 0x110 => some (s.ofOut (execHifMsiSend p (Fin.ofNat 64 (bits v 5 0)) s))
  | .hif, o => (arr o 0x208 0x20 8).map fun n => s.ringWrite p (Fin.ofNat 8 n) v
  | _, _ => none

/-- The words of an object's O0–O2 and data bytes (R433): only while EN = 0, but for the write that clears EN alone. -/
def State.objWrite (s : State) (p : Principal) (n : Fin 4) (m : Fin 64) (w : Nat) (v : Word) : State :=
  let k := cobj n.val m.val
  let o := s.canObj k
  if w = 3 then
    let s1 := ((s.onBit v 0 (execCanNewClear p n m)).onBit v 3 (execCanOvrClear p n m)).onBit v 4 (execCanTxReq p n m)
    if bit v 5 then (let (c, s2) := s1.drawBit; s2.ofOut (execCanTxAbort p n m c s2)) else s1
  else if w = 0 ∧ bit v 0 then s.ofOut (execCanObjEnable p n m v s)
  else if w = 0 ∧ o.en ∧ v &&& 0xFFFF001F = clrBit o.o0 0 then (let (c, s1) := s.drawBit; s1.ofOut (execCanObjDisable p n m c s1))
  else
    s.gated .can (Machine.objOff n.val m.val w) .rw p v fun s =>
      if w < 3 ∧ o.en then s.err .can errObjLocked
      else if w = 0 then s.updCanObj k fun x => { x with o0 := v &&& 0xFFFF001E }
      else if w = 1 then s.updCanObj k fun x => { x with o1 := v &&& 0x7FFFFFFF }
      else if w = 2 then s.updCanObj k fun x => { x with o2 := (v &&& 0x3F) ||| (x.o2 &&& 0x40) }
      else if 8 ≤ w ∧ w < 24 then
        s.updCanObj k fun x =>
          let d := x.buf.data ++ List.replicate (64 - x.buf.data.length) 0
          { x with buf := { x.buf with data := putBytes d (4 * w - 32) (wordBytes v) } }
      else s

/-- CAN (Tables CAN-1 and CAN-4). -/
def State.cmdCan (s : State) (p : Principal) (o : Nat) (v : Word) : Option State :=
  if 0x8000 ≤ o then
    some (s.objWrite p (Fin.ofNat 4 ((o - 0x8000) / 0x2000)) (Fin.ofNat 64 ((o - 0x8000) % 0x2000 / 0x80)) (o % 0x80 / 4) v)
  else if o < 0x1000 ∨ 0x5000 ≤ o then none
  else
    let n : Fin 4 := Fin.ofNat 4 ((o - 0x1000) / 0x1000)
    match o % 0x1000 with
    | 0x010 =>
      some (match bits v 2 0 with
        | 1 => s.ofOut (execCanStart p n s)
        | 2 => let (c, s1) := s.drawBit; s1.ofOut (execCanStop p n c s1)
        | 3 => let (c, s1) := s.drawBit; s1.ofOut (execCanSleep p n c s1)
        | 4 => s.ofOut (execCanWake p n s)
        | 5 => s.ofOut (execCanRecover p n s)
        | _ => s)
    | 0x040 => some (s.onBit v 0 (execCanWokenClear p n))
    | w => (arr w 0x024 4 4).map fun i => s.ofOut (execCanEvtClear p n (Fin.ofNat 4 i) v s)

/-- CLK and PMC (Tables CLK-5 and PMC-6). -/
def State.cmdPower (s : State) (p : Principal) (b : Block) (o : Nat) (v : Word) : Option State :=
  match b, o with
  | .clk, 0x104 =>
    some (s.ofOut (match bits v 2 0 with
      | 1 => execClkXoStart p s
      | 2 => execClkPllStart p s
      | 3 => execClkRamp p (Fin.ofNat 4 (bits v 9 8)) s
      | 4 => execClkReturn p s
      | 5 => execClkXoRetry p s
      | 6 => execClkXoStop p s
      | _ => .next s))
  | .clk, 0x110 => some (s.ofOut (execClkMonStatClear p v s))
  | .pmc, 0x100 =>
    some (s.ofOut (match bits v 2 0 with
      | 1 => execPmcRun p s
      | 2 => execPmcEco p s
      | 3 => execPmcStandby p s
      | 4 => execPmcHibernate p s
      | _ => .next s))
  | .pmc, 0x108 =>
    some (s.ofOut (match bits v 9 8 with
      | 1 => execPmcDomOn p (Fin.ofNat 16 (bits v 3 0)) s
      | 2 => execPmcDomOff p (Fin.ofNat 16 (bits v 3 0)) s
      | _ => .next s))
  | .pmc, 0x118 => some (s.ofOut (execPmcWakeStatClear p v s))
  | _, _ => none

/-- ERM, RET, EVR and HRC (Tables ERM-5, EVR-5, HRC-5). -/
def State.cmdErm (s : State) (p : Principal) (b : Block) (o : Nat) (v : Word) : Option State :=
  match b, o with
  | .erm, 0x114 => some (s.ofOut (execErmAck p (BitVec.ofNat 16 (bits v 15 0)) s))
  | .erm, 0x144 => some (s.onBit v 31 (execErmFatalLogClear p))
  | .erm, 0x150 => some (s.onBit v 0 (execErmPushGo p))
  | .erm, 0x154 => some (s.ofOut (execSoftwareReset p v s))
  | .ret, 0x104 => some (s.ofOut (execRetBankFailClear p v s))
  | .ret, 0x110 => some (s.onBit v 0 (execRetFlush p))
  | .ret, 0x114 => some (s.onBit v 31 (execRetWfailLogClear p))
  | .evr, 0x114 => some (s.onBit v 0 (execEvrFfArm p))
  | .evr, 0x13C => some (s.onBit v 0 (execEvrDumpGo p))
  | .hrc, 0x148 => some (s.onBit v 0 (execHrcFlush p))
  | _, _ => none

/-- The command that a register's write is, where it is one. -/
def State.cmdWrite (busw : Nat → Word → State → State) (s : State) (p : Principal) (b : Block) (o : Nat) (v : Word) : Option State :=
  match b with
  | .sys => s.cmdSys p o v
  | .ptd => s.cmdPtd p o v
  | .ce => s.cmdCe p o v
  | .xng => s.cmdXng p o v
  | .rsq => s.cmdRsq p o v
  | .csc => s.cmdCsc p o v
  | .mot => s.cmdMot p o v
  | .ilp => s.cmdIlp busw p o v
  | .fio => s.cmdFio p o v
  | .lne => s.cmdLne p o v
  | .ave => s.cmdAve p o v
  | .tim => s.cmdTim p o v
  | .acq => s.cmdAcq p o v
  | .hts => s.cmdHts p o v
  | .can => s.cmdCan p o v
  | .cpu | .mem | .hif => s.cmdHost p b o v
  | .clk | .pmc => s.cmdPower p b o v
  | .erm | .ret | .evr | .hrc => s.cmdErm p b o v
  | .saf => none

/-- BLK_IRQ_EN (Table SYS-3): a write that makes BLK_IRQ_STAT non-zero raises the routes of the block's interrupt (R408). -/
def State.irqEnWrite (s : State) (b : Block) (v : Word) : State :=
  let h := s.hd b
  let en := v &&& 0xFFFFFF03
  let s1 := s.updHd b fun h => { h with irqEn := en }
  if h.irqRaw &&& h.irqEn = 0 ∧ h.irqRaw &&& en ≠ 0 then s1.routeEvt b 15 0 else s1

/-- A write of a header register (Tables SYS-2 and SYS-3). DISCARD wins over COMMIT (R39). -/
def State.hdrWrite (s : State) (p : Principal) (b : Block) (o : Nat) (v : Word) : State :=
  match o with
  | 0x008 => s.ctrlCmd b p v
  | 0x010 => s.ofOut (execIrqClear b p v s)
  | 0x014 => s.gated b 0x014 .rw p v fun s => s.irqEnWrite b v
  | 0x01C => s.onBit v 31 (execBlkErrClear b p)
  | 0x020 =>
    let s1 := s.gated b 0x020 .w1s p v fun s => s.updHd b fun h => { h with viewActive := bit v 8 }
    if bit v 1 then s1.ofOut (execDiscard b p s1) else s1.onBit v 0 (execCommit b p)
  | 0x028 => s.onBit v 0 (execLock b p)
  | _ => s

/-- A word written to a register of a block that is present and that the principal may write. -/
def State.regWrite (busw : Nat → Word → State → State) (s : State) (p : Principal) (b : Block) (o : Nat) (v : Word) : State :=
  if o < 0x100 then s.hdrWrite p b o v
  else
    match s.cmdWrite busw p b o v with
    | some t => t
    | none => s.gated b o (accessOf b o) p v fun s => s.rowWrite b o v

/-! ### The device's map -/

/-- Whether the protection map covers a place (R48): the regions of the blocks and their windows. -/
def Place.mapped : Place → Bool
  | .rom | .sram | .sdram | .aia | .reserved => false
  | _ => true

/-- A store of `size` bytes of a value. -/
def State.putBytesAt (s : State) (a size v : Nat) : State := s.store a (natBytesLE v size)

/-- The commit word of the descriptor in SDRAM that holds an address: an entry of the editing directory (R58) or of a stream's editing area (R162). -/
def State.sdramDesc (s : State) (a : Nat) : Option (Block × Nat) :=
  let d := s.dirEdit
  if d ≠ 0 ∧ d ≤ a ∧ a < d + 0x1000000 then some (.ptd, d + 32 * ((a - d) / 32) + 28)
  else
    match (List.range 64).find? fun n => decide ((s.stream n).editBase ≤ a) && decide (a < (s.stream n).editBase + 0x400000) with
    | some n => some (.rsq, stepAddr (s.stream n).editBase ((a - (s.stream n).editBase) / 64) + 28)
    | none => none

/-- Whether an address lies in the action records of the step whose commit is pending (R162). -/
def State.stepRecs (s : State) (a : Nat) : Bool :=
  match s.rsq.stepBusy with
  | some (n, step) =>
    let b := (s.stream n).editBase
    let w5 := s.mem32 (stepAddr b step + 20)
    decide (actAddr b (bits w5 15 0) ≤ a) && decide (a < actAddr b (bits w5 15 0 + bits w5 21 16))
  | none => false

/-- A store of `size` bytes to SDRAM. A descriptor there follows R39 and R40: a write while its commit is pending is discarded with COMMIT_BUSY, its COMMIT is W1S
and its PEND read-only. -/
def State.sdramPut (s : State) (a size v : Nat) : State :=
  match s.sdramDesc a with
  | some (b, cw) =>
    let old := s.mem32 cw
    if bit old 30 then s.err b errCommitBusy
    else
      let s1 := s.putBytesAt a size v
      s1.store32 cw (commitWord old (s1.mem32 cw))
  | none => if s.stepRecs a then s.err .rsq errCommitBusy else s.putBytesAt a size v

/-- A word in a descriptor window. -/
def State.windowWord (s : State) (p : Principal) (x : Place) (a : Nat) (v : Word) : State :=
  match x with
  | .loops => s.gatedMem .ce a true p v fun s => s.descWrite .ce (loopEdit ((a - 0x21000000) / 256)) 252 a v
  | .acts => s.gatedMem .csc a true p v fun s => s.descWrite .csc (actEdit ((a - 0x22000000) / 16)) 0 a (if a % 16 = 0 then clrBit v 29 else v)
  | .win n o => s.ofOut (execStreamWindowWrite p (Fin.ofNat 64 n) (Fin.ofNat 1024 (o / 4)) v s)
  | .ret i => s.ofOut (execRetWrite p (Fin.ofNat 524288 i) v s)
  | _ => s

/-- The one or two words of a write to a window. -/
def State.windowWords (s : State) (p : Principal) (a size v : Nat) : State :=
  let s1 := s.windowWord p (s.place a) a (word v)
  if size = 8 then s1.windowWord p (s1.place (a + 4)) (a + 4) (word (v / 2 ^ 32)) else s1

/-- A write of `size` bytes at a device address by a principal (R33, R44, R48, R49, R65, R243, R420–R422, R470, Table CPU-1), with its full error code, 0 where
the target took it. `busw` is what the ILP's own mapped register writes do. For a denied write to a window outside the block's region, SYS_DENY_LOG and WRITE_DENIED hold the
address mod 0x1_0000 as the offset. DESIGN CHOICE (log 101). -/
def State.busPutWith (busw : Nat → Word → State → State) (s : State) (p : Principal) (a size v : Nat) : State × Nat :=
  let x := s.place a
  let b := x.block
  let full := fun (b : Block) (e : Nat) => b.code * 256 + e
  if !s.reachable x then (s, full (match x with | .cold _ => .mem | _ => b) errBlockAbsent)
  else
    let sized := match x with
      | .reg _ _ => decide (size = 4) && decide (a % 4 = 0)
      | .hot _ | .cold _ => decide (size = 8) && decide (a % 8 = 0)
      | .sram | .sdram | .rom => aligned a size
      | .reserved => true
      | _ => wordAccess a size
    if !sized then (s.err b errAccessSize, full b errAccessSize)
    else if x.mapped && !s.permits p b.code then (s.deny b (a % 0x10000) p (word v), full b errAccessDenied)
    else
      match x with
      | .rom => (s, 0)
      | .sram => (s.putBytesAt a size v, 0)
      | .sdram => if inSdram s a size then (s.sdramPut a size v, 0) else (s, full .mem errBlockAbsent)
      | .reserved => (s, full .cpu errAccessDenied)
      | .aia =>
        match p with
        | .app _ =>
          let put := fun (s : State) (a : Nat) (w : Word) => s.updCpu fun c => { c with intc := Tab.put 0 c.intc a w }
          let s1 := put s a (word v)
          (if size = 8 then put s1 (a + 4) (word (v / 2 ^ 32)) else s1, 0)
        | _ => (s, full .cpu errAccessDenied)
      | .reg b o => (s.regWrite busw p b o (word v), 0)
      | .hot h => (s.hotWrite p false h true (word v) (BitVec.ofNat 8 (v / 2 ^ 32)), 0)
      | .cold i => (s.hotWrite p true i true (word v) (BitVec.ofNat 8 (v / 2 ^ 32)), 0)
      | .ilp => (s.err .ilp errAccessDenied, full .ilp errAccessDenied)
      | .ret i => if retFirmware i then (s.windowWords p a size v, 0) else (s.deny .ret (a % 0x10000) p (word v), full .ret errAccessDenied)
      | .loops | .acts | .win _ _ => (s.windowWords p a size v, 0)

/-- A register write of the ILP's word map (R254), as principal APP. -/
def State.ilpBus (a : Nat) (v : Word) (s : State) : State :=
  let (s1, e) := State.busPutWith (fun _ _ s => s) s (.app 0) a 4 v.toNat
  s1.told (.block .ilp) e a

/-- A write at a device address. -/
def State.busPut (s : State) (p : Principal) (a size v : Nat) : State × Nat := State.busPutWith State.ilpBus s p a size v

/-- Who awaits the reply to a write of a principal: a host access comes through BAR0 for the register window and through BAR2 elsewhere; the debug port has no
log (log 5). -/
def requesterOf (p : Principal) (a : Nat) : Option Requester :=
  match p with
  | .host => some (if 0x10000000 ≤ a ∧ a < 0x11000000 then .host 0 (a - 0x10000000) else .host 2 a)
  | .app c => some (.core c)
  | .safe => some (.block .saf)
  | .rom => some (.core 0)
  | .dbg => none

/-- A write by a principal of this device. -/
def State.busWrite (s : State) (p : Principal) (a size v : Nat) : State :=
  let (s1, e) := s.busPut p a size v
  match requesterOf p a with
  | some r => s1.told r e a
  | none => s1

/-! ### DMA between host memory and the device's (R426) -/

/-- The principal of a ring's device-side accesses (R47): OWNER. -/
def State.ringOwner (s : State) (n : Nat) : Principal := if bit (s.ringCfg n) 18 then .app 0 else .host

/-- Bytes that a DMA writes on the device side: to SRAM as they are, to SDRAM in the widest aligned pieces, as writes of the principal. -/
def State.dmaWords : Nat → State → Principal → Nat → List Byte → State
  | 0, s, _, _, _ => s
  | k + 1, s, p, a, bs =>
    let n := if a % 8 = 0 ∧ 8 ≤ bs.length then 8 else if a % 4 = 0 ∧ 4 ≤ bs.length then 4 else 1
    match bs with
    | [] => s
    | _ => State.dmaWords k (s.busPut p a n (leNat (bs.take n))).1 p (a + n) (bs.drop n)
def State.dmaIn (s : State) (p : Principal) (a : Nat) (bs : List Byte) : State :=
  if inSram a bs.length then s.store a bs else State.dmaWords bs.length s p a bs

/-- A byte of SRAM or SDRAM as a DMA reads it. -/
def State.dmaByte (s : State) (a : Nat) : Byte :=
  match s.place a with
  | .cold i => nth 0 (natBytesLE (s.coldRead i).bits64 8) (a % 8)
  | _ => s.mem8 a

/-- DMA_DESC_DONE (R426, R427): HIF completes the descriptor `d` at the head of ring `n`, whose FEED is DMA. `data` is the payload read from
host memory where DIR = 0; `hostErr` a host memory error. -/
def execDmaDescDone (n : Fin 8) (d : HDesc) (data : List Byte) (hostErr : Bool) (s : State) : Out :=
  .next (
    if !s.ringBusy n.val ∨ bit (s.ringCfg n.val) 17 then s
    else if hostErr then s.ringHostErr n.val
    else
      let e := s.descCheck d
      let tag := bits d.d5 31 16
      if e ≠ 0 then ((s.writeBack n.val e tag).descIrq n.val d).ringHalt n.val e
      else
        let len := bits d.d4 23 0
        let s1 := if bit (s.ringCfg n.val) 16 then s.hostWrite d.hostAddr ((List.range len).map fun k => s.dmaByte (d.devAddr + k))
          else s.dmaIn (s.ringOwner n.val) d.devAddr ((data ++ List.replicate len 0).take len)
        (s1.writeBack n.val 0 tag).descNext n.val d)

/-- XFA_WDT_CFG of a core (Table CPU-2, R499): fixed once EN is set; a TIMEOUT outside 1–10,000 is recorded by CPU (log 95). -/
def State.wdtCfg (s : State) (c : Nat) (v : Word) : State :=
  let t := bits v 15 0
  if (s.core c).wdtEn then s
  else if t = 0 ∨ 10000 < t then s.err .cpu errValueRange
  else s.updCore c fun k => { k with wdtEn := bit v 16, wdtTimeout := t, wdtWarned := false }

/-- REGISTER_WRITE (R33, R34, R38, R41, R49, R499): a write of `size` bytes at a device address, or of XFA_WDT_CFG by a core in M mode. -/
def execRegisterWrite (tgt : RegTarget) (p : Principal) (size : Fin 9) (v : BitVec 64) (s : State) : Out :=
  .next (
    match tgt with
    | .addr a => s.busWrite p a size.val v.toNat
    | .wdtCfg c => s.wdtCfg c.val (word v.toNat))

end Sys2Proof.Machine
end

