-- ==== Sys2Proof/Machine/Fabric.lean ====
section
/-!
DEFINITION. Valnath frames that arrive (R331–R342, R357, R371, R386), the fabric window (R10, R339) and host accesses through the BARs (R423–R425).
-/

namespace Sys2Proof.Machine

/-! ### Arrival -/

/-- What the outside knows of an arriving frame besides its bytes: how long ago the link failed that an LSA reports, and what R333's checks find for a class A
flow. -/
structure RxCtx where
  ago : Nat := 0
  long : Bool := false
  contended : Bool := false
  prot : Bool := true
deriving DecidableEq, Repr, Inhabited

/-- The context of a frame that injection had held: its admission findings are free values. -/
def State.drawCtx (s : State) : RxCtx × State :=
  let (k, s1) := s.draw
  let w := Config.freeWord k
  ({ long := bit w 0, contended := bit w 1, prot := bit w 2 }, s1)

/-- A grant message (R333, R338, R341, R386). At the active gateway a request is decided and answered; the standby keeps the mirrored sum (R340). -/
def State.grantRx (s : State) (src : Nat) (g : Grant) : State :=
  match g with
  | .recReq dev mbps =>
    if s.ave.role = .active then
      let (s1, ok) := s.recGrant dev mbps
      s1.aveTo src (.grant (.recAns mbps ok))
    else if s.ave.role = .standby then
      s.updAve fun a =>
        { a with recSum := a.recSum - (Tab.get {} a.devs dev).grant + mbps, devs := Tab.upd {} a.devs dev fun d => { d with grant := mbps } }
    else s
  | .recAns mbps ok => s.grantAnswer mbps ok
  | .sub gid code => s.subAnswer gid code
  | .flow dst code => if code = 0 then s.injFlow { src := s.ave.devId, dst := dst, protected_ := true } else s.err .ave code
  | .credit seq => s.creditRx seq

/-- DISC at port `p` (R334). A device that has an ID passes a probe for another device on. -/
def State.discRx (s : State) (p : Nat) (f : AFrame) (reply : Bool) (serial role : Nat) : State :=
  let own := Config.aveSerial.toNat
  let pass := s.aveSend { f with hops := f.hops - 1 }
  if reply then
    (if s.ave.role = .active then s.discReply p f.src (64 - f.hops) serial role else if f.hops = 0 then s else pass)
  else if serial = own ∨ !s.ave.assigned ∨ s.ave.role = .left ∨ s.ave.owns f.dst then s.discProbe p f.dst f.src serial own
  else if f.hops = 0 then s
  else pass

/-- A fabric request is executed on this device's map with its carried principal (R339, R47, R48). -/
def State.serveRead (s : State) (f : AFrame) (off : Nat) (p : Principal) (wide : Bool) : State :=
  let (s1, e) := s.busGet p none off (if wide then 8 else 4) .clean
  s1.aveSend { dst := f.src, src := s1.ave.devId, tag := f.tag, body := .rdResp (decide (f.body.cls = 2)) (e % 256) s1.out }
def State.serveWrite (s : State) (f : AFrame) (off : Nat) (p : Principal) (wide : Bool) (data : Nat) : State :=
  let (s1, e) := s.busPut p off (if wide then 8 else 4) data
  s1.aveSend { dst := f.src, src := s1.ave.devId, tag := f.tag, body := .wrResp (decide (f.body.cls = 2)) (e % 256) }

/-- A request takes a tag and is sent; the tags run upwards, so that a retired one does not soon return. -/
def State.sendReq (s : State) (q : FReq) : State :=
  let t := s.ave.nextTag
  let s1 := s.updAve fun a => { a with reqs := a.reqs ++ [(t, q)], nextTag := if t = 65535 then 1 else t + 1 }
  s1.aveSend { dst := q.dev, src := s1.ave.devId, tag := t, body := q.body }

/-- A tag is free again: the oldest waiting request takes it (R339: 64 tags). -/
def State.nextReq (s : State) : State :=
  match s.ave.waitReqs with
  | [] => s
  | q :: l => if 64 ≤ s.ave.reqs.length then s else (s.updAve fun a => { a with waitReqs := l }).sendReq q

/-- A request ends with bits [7:0] of a result and the data read. The full code names the block of the target's address, or AVE,
which records REPLY_LOST. -/
def State.endReq (s : State) (t : Nat) (q : FReq) (result data : Nat) : State :=
  let blk := match Block.ofAddr q.addr with
    | some (b, _) => if result = errReplyLost then Block.ave.code else b.code
    | none => Block.ave.code
  let s1 := s.updAve fun a => { a with reqs := a.reqs.filter fun r => decide (r.1 ≠ t) }
  let s2 := s1.told q.req (if result = 0 then 0 else blk * 256 + result) q.addr
  (if q.wr then s2 else { s2 with out := data }).nextReq

/-- The request that a response answers, by its tag and its sender (R339). -/
def State.reqOf (s : State) (f : AFrame) : Option (Nat × FReq) := s.ave.reqs.find? fun r => decide (r.1 = f.tag) && decide (r.2.dev = f.src)

/-- A response ends its request; one that answers none is discarded. -/
def State.respRx (s : State) (f : AFrame) (result data : Nat) : State :=
  match s.reqOf f with
  | some (t, q) => s.endReq t q result data
  | none => s

/-- A frame for this device, or one that every device takes. -/
def State.deliver (s : State) (p : Nat) (f : AFrame) (x : RxCtx) : State :=
  match f.body with
  | .ptA time recs => s.peerFrame f.src time recs
  | .ptB _ time recs => s.peerFrame f.src time recs
  | .rdReq off pr wide => s.serveRead f off pr wide
  | .rdResp _ result data => s.respRx f result data
  | .wrReq off pr wide data => s.serveWrite f off pr wide data
  | .wrResp _ result => s.respRx f result 0
  | .lsa dev port up peer seq => s.lsaRx p dev port up peer seq x.ago
  | .disc reply serial _ role => s.discRx p f reply serial role
  | .time t flags hops gm utc rx => s.timeRx p t flags hops gm utc rx
  | .trig ns line ps => s.trigRx f.src ns line ps
  | .hist seq frag dev bytes => s.histRx seq frag dev bytes
  | .subscribe r => s.subscribeAt r x.long x.contended x.prot
  | .admission src dst _ _ _ => s.admitAt src dst f.src x.long x.contended x.prot
  | .grant g => s.grantRx f.src g
  | .release => if s.ave.role = .standby then s.takeOver else s
  | .heartbeat => if s.ave.role = .standby then s.updAve fun a => { a with hbT := s.now } else s

/-- Whether a frame acts at every device that it reaches, whatever its destination: link states, discovery and time. -/
def ABody.linkLocal : ABody → Bool
  | .lsa .. | .disc .. | .time .. => true
  | _ => false

/-- A frame that passed its CRC and the port's rule (R331, R335): delivered here, or forwarded with HOPS one lower; with HOPS = 0 it is discarded and
counted. -/
def State.junction (s : State) (p : Nat) (f : AFrame) (x : RxCtx) : State :=
  if f.body.linkLocal || s.ave.owns f.dst then s.deliver p f x
  else if f.hops = 0 then s.updAport p fun y => { y with cntDrop := wrapInc y.cntDrop }
  else s.aveSend { f with hops := f.hops - 1 }

/-- A frame that fails its CRC is discarded and counted. -/
def State.aveBadCrc (s : State) (p : Nat) : State := s.updAport p fun x => { x with cntCrc := wrapInc x.cntCrc, cntDrop := wrapInc x.cntDrop }

/-- A frame reaches a port that is UP; the port's rule may act on it first (R342). -/
def State.aveRx (s : State) (p : Fin 6) (h : AHdr) (b : ABody) (x : RxCtx) : State :=
  if !s.present .ave ∨ (s.aport p.val).st ≠ .up then s
  else if !h.crc then s.aveBadCrc p.val
  else if !(s.aport p.val).inj.en then s.junction p.val { dst := h.dst, src := h.src, hops := h.hops, tag := h.tag, body := b } x
  else
    let (l, y) := (s.aport p.val).inject { dst := h.dst, src := h.src, hops := h.hops, tag := h.tag, body := b } true (s.aveDly p.val)
    l.foldl (fun s (g : AFrame × Bool) => if g.2 then s.junction p.val g.1 x else s.aveBadCrc p.val) (s.updAport p.val fun _ => y)

/-- The frames that DELAY holds count down with the microsecond (R342); those that are due are sent or received. -/
def State.aveDelayed (s : State) (p : Nat) : State :=
  let l := (s.aport p).inj.delayed
  let due := l.filter fun d => decide (d.2.2 ≤ 1)
  let s1 := s.updAport p fun x => { x with inj := { x.inj with delayed := (l.filter fun d => decide (1 < d.2.2)).map fun d => (d.1, d.2.1, d.2.2 - 1) } }
  due.foldl (fun s d =>
    if d.2.1 then (let (c, s1) := s.drawCtx; s1.junction p d.1 c) else s.updAport p fun x => { x with sent := x.sent ++ [(d.1, true)] }) s1

/-! ### One command per frame type (Table AVE-3) -/

/-- PT_A_RX (R338). -/
def execPtARx (p : Fin 6) (h : AHdr) (time : Nat) (recs : List PtRec) (s : State) : Out := .next (s.aveRx p h (.ptA time recs) {})

/-- PT_B_RX (R338). -/
def execPtBRx (p : Fin 6) (h : AHdr) (classC : Bool) (time : Nat) (recs : List PtRec) (s : State) : Out := .next (s.aveRx p h (.ptB classC time recs) {})

/-- RD_REQ_RX (R339). -/
def execRdReqRx (p : Fin 6) (h : AHdr) (off : Nat) (pr : Principal) (wide : Bool) (s : State) : Out := .next (s.aveRx p h (.rdReq off pr wide) {})

/-- WR_REQ_RX (R339). -/
def execWrReqRx (p : Fin 6) (h : AHdr) (off : Nat) (pr : Principal) (wide : Bool) (data : Nat) (s : State) : Out :=
  .next (s.aveRx p h (.wrReq off pr wide data) {})

/-- RD_RESP_RX (R339). -/
def execRdRespRx (p : Fin 6) (h : AHdr) (classC : Bool) (result data : Nat) (s : State) : Out := .next (s.aveRx p h (.rdResp classC result data) {})

/-- WR_RESP_RX (R339). -/
def execWrRespRx (p : Fin 6) (h : AHdr) (classC : Bool) (result : Nat) (s : State) : Out := .next (s.aveRx p h (.wrResp classC result) {})

/-- LSA_RX (R336). -/
def execLsaRx (p : Fin 6) (h : AHdr) (dev : Fin 64) (port : Fin 6) (up : Bool) (peer : Fin 64) (seq ago : Nat) (s : State) : Out :=
  .next (s.aveRx p h (.lsa dev.val port.val up peer.val seq) { ago := ago })

/-- DISC_RX (R334). -/
def execDiscRx (p : Fin 6) (h : AHdr) (reply : Bool) (serial port role : Nat) (s : State) : Out := .next (s.aveRx p h (.disc reply serial port role) {})

/-- TIME_FRAME_RX (R357): `rx` is the reception stamp in ns. -/
def execTimeFrameRx (p : Fin 6) (h : AHdr) (t flags hops : Nat) (gm utc : List Byte) (rx : Nat) (s : State) : Out :=
  .next (s.aveRx p h (.time t flags hops gm utc rx) {})

/-- TRIG_FRAME_RX (R371). -/
def execTrigFrameRx (p : Fin 6) (h : AHdr) (ns line ps : Nat) (s : State) : Out := .next (s.aveRx p h (.trig ns line ps) {})

/-- REC_FRAME_RX (R386). -/
def execRecFrameRx (p : Fin 6) (h : AHdr) (seq : Nat) (frag : Fin 4) (dev : Fin 64) (bytes : List Byte) (s : State) : Out :=
  .next (s.aveRx p h (.hist seq frag.val dev.val bytes) {})

/-- CTRL_SUBSCRIBE (R338, R333), with the codes of CLASS and KIND of the subscriber's entry. -/
def execCtrlSubscribe (p : Fin 6) (h : AHdr) (sub : Fin 64) (gid : BitVec 25) (cls : Fin 4) (kind : Fin 8) (admitted long contended prot : Bool) (s : State) : Out :=
  .next (s.aveRx p h (.subscribe { sub := sub.val, gid := gid.toNat, cls := classOf cls.val, kind := kindOf kind.val, admitted := admitted })
    { long := long, contended := contended, prot := prot })

/-- CTRL_ADMIT (R333, R340). -/
def execCtrlAdmit (p : Fin 6) (h : AHdr) (src dst : Fin 64) (long contended prot : Bool) (s : State) : Out :=
  .next (s.aveRx p h (.admission src.val dst.val long contended prot) { long := long, contended := contended, prot := prot })

/-- CTRL_GRANT (R338, R341, R386). -/
def execCtrlGrant (p : Fin 6) (h : AHdr) (g : Grant) (s : State) : Out := .next (s.aveRx p h (.grant g) {})

/-- CTRL_RELEASE (R340). -/
def execCtrlRelease (p : Fin 6) (h : AHdr) (s : State) : Out := .next (s.aveRx p h .release {})

/-- CTRL_HEARTBEAT (R340). -/
def execCtrlHeartbeat (p : Fin 6) (h : AHdr) (s : State) : Out := .next (s.aveRx p h .heartbeat {})

/-! ### The fabric window (R10, R339) -/

/-- An access in the fabric window at window offset `a` (42 bits): the own slot reaches the device's own map, another becomes a request. -/
def State.fabricAccess (s : State) (r : Requester) (p : Principal) (wr : Bool) (a size v : Nat) (ecc : EccRead) : State :=
  let dev := a / 2 ^ 36 % 64
  let off := a % 2 ^ 36
  let full := 0x100000000000 + a
  if !wordAccess a size then
    let s1 := (s.err .ave errAccessSize).told r (Block.ave.code * 256 + errAccessSize) full
    if wr then s1 else { s1 with out := ones size }
  else if s.ave.owns dev then
    (if wr then (let (s1, e) := s.busPut p off size v; s1.told r e full)
     else (let (s1, e) := s.busGet p (match r with | .core c => some c | _ => none) off size ecc; { s1.told r e full with out := s1.out }))
  else if !s.present .ave ∨ !(s.route dev).valid then
    let s1 := s.told r (Block.ave.code * 256 + errBlockAbsent) full
    if wr then s1 else { s1 with out := ones size }
  else
    let wide := decide (size = 8)
    let q : FReq := { dev := dev, req := r, addr := off, wr := wr, wide := wide, body := if wr then .wrReq off p wide v else .rdReq off p wide }
    if s.ave.reqs.length < 64 ∧ s.ave.waitReqs = [] then s.sendReq q else s.updAve fun x => { x with waitReqs := x.waitReqs ++ [q] }

/-- FABRIC_ACCESS (R339): `a` is the offset in the fabric window, `ecc` what the ECC finds in a hot entry of the own slot. -/
def execFabricAccess (r : Requester) (p : Principal) (wr : Bool) (a : Fin 4398046511104) (size : Fin 9) (v : BitVec 64) (ecc : EccRead) (s : State) : Out :=
  .next (s.fabricAccess r p wr a.val size.val v.toNat ecc)

/-- AVE_REQ_TIMEOUT (R339, R46): REPLY_LOST, and the tag is retired. -/
def execAveReqTimeout (tag : BitVec 16) (s : State) : Out :=
  .next (match s.ave.reqs.find? fun r => decide (r.1 = tag.toNat) with
    | some (t, q) => s.endReq t q errReplyLost (ones (if q.wide then 8 else 4))
    | none => s)

/-! ### The host (R424, R425) -/

/-- An access through BAR0: the register window. -/
def State.bar0 (s : State) (wr : Bool) (off size v : Nat) : State :=
  let a := 0x10000000 + off
  if wr then (let (s1, e) := s.busPut .host a size v; s1.told (.host 0 off) e a)
  else s.busRead .host (.host 0 off) a size .clean

/-- An access through BAR2: until hand-over the device's own addresses, then the aperture of HIF_AP_BASE onto the fabric window. -/
def State.bar2 (s : State) (wr : Bool) (off size v : Nat) (ecc : EccRead) : State :=
  if !wordAccess off size then
    let s1 := s.hifLog (Block.hif.code * 256 + errAccessSize) 2 off
    if wr then s1 else { s1 with out := ones size }
  else if s.sys.romAlive then
    (if wr then (let (s1, e) := s.busPut .host off size v; s1.told (.host 2 off) e off)
     else s.busRead .host (.host 2 off) off size ecc)
  else s.fabricAccess (.host 2 off) .host wr (bits (s.reg R.HIF_AP_BASE) 9 0 * 2 ^ 32 + off) size v ecc

/-- HOST_BAR_ACCESS (R423–R425): through BAR2, or else BAR0. The host reaches the device while HIF is present with its link up. -/
def execHostBarAccess (bar2 wr : Bool) (off : BitVec 32) (size : Fin 9) (v : BitVec 64) (ecc : EccRead) (s : State) : Out :=
  .next (
    if !s.present .hif ∨ !s.hif.up then s
    else if bar2 then s.bar2 wr off.toNat size.val v.toNat ecc
    else if off.toNat < 0x1000000 then s.bar0 wr off.toNat size.val v.toNat
    else s)

end Sys2Proof.Machine
end

