-- ==== Sys2Proof/Machine/Boundary.lean ====
section
/-!
DEFINITION. The base-frame boundary (R11, R12) with everything that the chapters let take effect there, and the acquisitions of the rate schedule (R13).
-/

namespace Sys2Proof.Machine

/-- The time at the next boundary: network time reaches the next multiple of 1000 ns, mtime counts 100 cycles of CLK_PER (R419) and the µs since
power-up one (log 96). -/
def State.frameTime (s : State) : State :=
  { s with upUs := s.upUs + 1, tim := { s.tim with net := s.tim.net - s.tim.net % 1000 + 1000, frac := 0 },
           cpu := { s.cpu with mtime := (s.cpu.mtime + 100) % 2 ^ 64 } }

/-- Apply a block's part where the block answers. -/
def State.ifOn (s : State) (b : Block) (f : State → State) : State := if s.present b then f s else s

/-- AVE at the boundary (R335, R342, R343, Table AVE-1): RUN = 0 turns its ports OFF; else rules, tables and held frames. -/
def State.aveFrame (s : State) : State :=
  let h := s.hd .ave
  let s1 := if h.run then s.updHd .ave fun h => { h with running := true }
    else if h.running then (s.aveRun false).updHd .ave fun h => { h with running := false }
    else s
  (List.range 6).foldl (fun s p => if (s.aport p).st = .off then s else s.aveDelayed p) s1.aveBoundary

/-- XNG at the boundary (R143, R150, R152, R155). -/
def State.xngFrame (s : State) : State :=
  let h := s.hd .xng
  if h.run then (s.updHd .xng fun h => { h with running := true }).xngBoundary
  else if h.running then (s.xngStop).updHd .xng fun h => { h with running := false }
  else s

/-- CE's RUNNING (R81, Table CE-4): with RUN it runs; without, until its last loop is OFF. -/
def State.ceFrame (s : State) : State := if (s.hd .ce).run then s.runFollow .ce else s.ceSettle

/-- CSC at the boundary (R190, R195, R206). -/
def State.cscFrame (s : State) : State :=
  let t := s.tick
  let s1 := ((s.cscTrail t).updCsc fun x => { x with fires := x.fires.filter fun e => decide (t ≤ e.1) }).actApply.armEffective
  if (s1.hd .csc).run then s1.runFollow .csc else s1.cscRunStop

/-- LNE runs until its last port is OFF (R324). -/
def State.lneFrame (s : State) : State :=
  if !(s.hd .lne).run && !s.laneBusy then s.updHd .lne fun h => { h with running := false } else s

/-- BASE_FRAME_BOUNDARY (R11): TIM_SET, routes, directory entries, tables, lanes, action entries and arms, the MOT snapshot, recording sessions and ON_CHANGE
objects. While PD_RT is off network time is coarse and no boundary falls. -/
def execBaseFrameBoundary (s : State) : Out :=
  .next (
    if !s.present .tim then s
    else
      let s1 := s.frameTime.timSetApply
      let s2 := s1.ifOn .ave State.aveFrame
      let s3 := s2.ifOn .ptd fun s => s.entEffects.grantCount
      let s4 := s3.ifOn .ce fun s => s.tabBoundary.ceFrame
      let s5 := s4.ifOn .xng State.xngFrame
      let s6 := s5.ifOn .csc State.cscFrame
      let s7 := s6.ifOn .mot fun s => s.motSnapshot.stallSample
      let s8 := s7.ifOn .acq fun s => s.armFlows.acqArmEffective.acqRunStop
      let s9 := s8.ifOn .can State.canDue
      let s10 := s9.ifOn .lne State.lneFrame
      ([Block.ptd, Block.tim, Block.hts, Block.hrc].foldl (fun s b => s.ifOn b fun s => s.runFollow b) s10).endStalls)

/-- RATE_SCHEDULE_ACQUISITION (R13, R229): the feedback sample of a class A loop. MOT snapshots the encoder of an ENC input and writes that point alone; the samples of
the other inputs arrive with their own commands. -/
def execRateScheduleAcquisition (n : Fin 1024) (s : State) : Out :=
  .next (
    if !s.present .ce ∨ !s.present .mot ∨ !s.loopUsed n.val then s
    else
      let i := (s.loop n.val).inPt
      let e := s.point i
      if e.kind ≠ .none ∧ e.srcType = .enc ∧ e.cls = .a then s.motEncPoint i else s)

end Sys2Proof.Machine
end

