-- ==== Sys2Proof/Machine/Edges.lean ====
section
/-!
DEFINITION. Edges at the encoder, latch and trigger inputs (R186, R228, R230, R368) and the profile period with the coordinates it carries.
-/

namespace Sys2Proof.Machine

/-- ENCODER_EDGE (R228, R186, R188): new levels of an encoder's A, B and I, each held for `held` ticks, at tick `t`. -/
def execEncoderEdge (n : Fin 16) (a b i : Bool) (held t : Nat) (s : State) : Out :=
  .next (
    if (s.hd .mot).pwr ≠ .on then s
    else
      let e0 := s.enc n.val
      let s1 := s.encEdge n.val a b i held t
      let e1 := s1.enc n.val
      let s2 := if e1.count ≠ e0.count then s1.encCoordEdge n.val else s1
      let s3 := if e1.index ≠ e0.index then s2.indexEdge n.val e1.count e1.up else s2
      s3.judgeCoords t)

/-- LATCH_EDGE (R20, R186, R230): an edge at latch input `k` at tick `t`. With FLT set an edge whose new level does not last longer than 20 ns
is ignored (`held` is its length in ticks), and so is one back to the level that has passed. A PULSE coordinate counts edges of both directions (log 61). -/
def execLatchEdge (k : Fin 8) (rising : Bool) (held t : Nat) (s : State) : Out :=
  .next (
    if (s.hd .mot).pwr ≠ .on then s
    else if bit (s.reg R.MOT_LIN_CFG) k.val && (decide (held ≤ 8) || decide (nbit s.mot.latLvl k.val = rising)) then s
    else
      let s1 := ((s.updMot fun m => { m with latLvl := nput m.latLvl k.val rising }).motLatchPoint k.val t).latchEvent k.val rising t
      (s1.pulseEdge (4 + k.val) t).judgeCoords t)

/-- TRIG_IN_EDGE (R368, R186): an edge at trigger input `k`, at a time in units of 312.5 ps; ACQ decides in the tick after. -/
def execTrigInEdge (k : Fin 4) (rising : Bool) (t8 : Nat) (s : State) : Out :=
  .next (
    let t := t8 / 8
    let s1 := if (s.hd .csc).pwr = .on then (s.pulseEdge k.val t).judgeCoords t else s
    if (s1.hd .acq).pwr = .on then s1.seqEvents [.ext k.val rising (t8 * 625 / 2)] (t + 1) else s1)

end Sys2Proof.Machine
end

