-- ==== Sys2Proof/Machine/IlpScan.lean ====
section
/-!
DEFINITION. The ILP's scan and its mode commands (R247–R256), with the register writes of its word map. `dur` is how long the scan lasts in units of 10 ns; `ue` says
that an uncorrectable error was found in program or data memory.
-/

namespace Sys2Proof.Machine

/-- ILP_SCAN_BOUNDARY (R251, R253, R256). -/
def execIlpScanBoundary (dur : Nat) (ue : Bool) (s : State) : Out := .next (State.ilpBoundary State.ilpBus dur ue s)

/-- A write of ILP_MODE_CMD. -/
def State.ilpModeCmd (s : State) (p : Principal) (code dur : Nat) : State :=
  s.gated .ilp 0x108 .wo p (word code) fun s => State.ilpCmd State.ilpBus code dur s

/-- ILP_RUN (R255). -/
def execIlpRun (p : Principal) (s : State) : Out := .next (s.ilpModeCmd p 1 0)

/-- ILP_STOP (R255, R256). -/
def execIlpStop (p : Principal) (s : State) : Out := .next (s.ilpModeCmd p 2 0)

/-- ILP_HOLD (R255): with the permission of the safety parameters. -/
def execIlpHold (p : Principal) (s : State) : Out := .next (s.ilpModeCmd p 3 0)

/-- ILP_STEP (R255). -/
def execIlpStep (p : Principal) (dur : Nat) (s : State) : Out := .next (s.ilpModeCmd p 4 dur)

/-- ILP_CONTINUE (R255). -/
def execIlpContinue (p : Principal) (dur : Nat) (s : State) : Out := .next (s.ilpModeCmd p 5 dur)

end Sys2Proof.Machine
end

