-- ==== Sys2Proof/Machine/SafApply.lean ====
section
/-!
DEFINITION. The apply of a pending safety parameter set (R283) with the ILP's hold permission (R255).
-/

namespace Sys2Proof.Machine

/-- A channel takes the new set: every enabled output is in OFF, or in INIT where the channel has not started. A latched cause holds until an accepted reset, so an output with
one is in FAULT again (log 79); an EDM pair has EDM_TIME to read healthy. -/
def State.safTake (s : State) (ch : Nat) : State :=
  let k := s.saf.chan ch
  let up := k.alive && k.passed && k.seen && !k.lost
  let take := fun (m : Nat) => { k.out m with st := if (k.out m).causes ≠ [] then SafState.fault else if up then .off else .init, resetSeen := false }
  let outs := s.saf.outs.foldl (fun t m => Tab.put {} t m (take m)) ([] : Tab SOut)
  let s1 := s.updSCh ch fun x => { x with outs := outs, paramBad := false, edm := [] }
  s1.saf.outs.foldl (fun s m => s.edmStart ch m) s1

/-- SAFETY_PARAM_APPLY (R283): a pending set applies while no enabled output is ON. -/
def execSafetyParamApply (s : State) : Out :=
  .next (
    match s.saf.pending with
    | none => s
    | some ws =>
      if !s.saf.idle then s
      else
        let s1 := s.updSaf fun x => { x with param := ws, pending := none, test := [] }
        let s2 := [0, 1, 2, 3].foldl (fun s n => s.discFollow n) (safBoth s1 State.safTake)
        let s3 := (s2.record .saf 1 0x0F13 [bits (s2.saf.p 1) 15 0, (s2.saf.p 63).toNat]).irq .saf 10
        ((safBoth s3 State.safStanding).safEvalBoth).ilpPermit)

end Sys2Proof.Machine
end

