-- ==== Sys2Proof/Machine/Dispatch.lean ====
section
/-!
DEFINITION. The dispatch of a command to its meaning: one arm per command.
-/

namespace Sys2Proof.Machine

def exec (i : Instr) (s : State) : Host.Outcome State Fault Refusal :=
  match i with
  | .registerWrite tgt p size v => Sys2Proof.Machine.execRegisterWrite tgt p size v s
  | .blockEnable b p en => Sys2Proof.Machine.execBlockEnable b p en s
  | .blockRun b p run => Sys2Proof.Machine.execBlockRun b p run s
  | .softRst b p => Sys2Proof.Machine.execSoftRst b p s
  | .freeze b p fz => Sys2Proof.Machine.execFreeze b p fz s
  | .irqClear b p m => Sys2Proof.Machine.execIrqClear b p m s
  | .blkErrClear b p => Sys2Proof.Machine.execBlkErrClear b p s
  | .commit b p => Sys2Proof.Machine.execCommit b p s
  | .discard b p => Sys2Proof.Machine.execDiscard b p s
  | .commitApply b => Sys2Proof.Machine.execCommitApply b s
  | .lock b p => Sys2Proof.Machine.execLock b p s
  | .fenceDrainEnd b lost => Sys2Proof.Machine.execFenceDrainEnd b lost s
  | .dcStage p v => Sys2Proof.Machine.execDcStage p v s
  | .dcCancel p target => Sys2Proof.Machine.execDcCancel p target s
  | .dcCopyDone => Sys2Proof.Machine.execDcCopyDone s
  | .dcSubmit p => Sys2Proof.Machine.execDcSubmit p s
  | .dcTagVerify => Sys2Proof.Machine.execDcTagVerify s
  | .dcStageExpired => Sys2Proof.Machine.execDcStageExpired s
  | .dcKeyWrite p n v => Sys2Proof.Machine.execDcKeyWrite p n v s
  | .dcEnroll p slot go => Sys2Proof.Machine.execDcEnroll p slot go s
  | .denyLogClear p => Sys2Proof.Machine.execDenyLogClear p s
  | .ptdEntGo p idx => Sys2Proof.Machine.execPtdEntGo p idx s
  | .ptdEntCheckDone => Sys2Proof.Machine.execPtdEntCheckDone s
  | .histGrantTimeout => Sys2Proof.Machine.execHistGrantTimeout s
  | .hotEntryWrite p cold i1 whole v q => Sys2Proof.Machine.execHotEntryWrite p cold i1 whole v q s
  | .staleTimeout idx => Sys2Proof.Machine.execStaleTimeout idx s
  | .force p => Sys2Proof.Machine.execForce p s
  | .release p => Sys2Proof.Machine.execRelease p s
  | .releaseAll p => Sys2Proof.Machine.execReleaseAll p s
  | .simOn p => Sys2Proof.Machine.execSimOn p s
  | .simOff p => Sys2Proof.Machine.execSimOff p s
  | .ptdUeLogClear p => Sys2Proof.Machine.execPtdUeLogClear p s
  | .baseFrameBoundary => Sys2Proof.Machine.execBaseFrameBoundary s
  | .rateScheduleAcquisition n => Sys2Proof.Machine.execRateScheduleAcquisition n s
  | .loopEvaluation n faults eccs dlyUe voter => Sys2Proof.Machine.execLoopEvaluation n faults eccs dlyUe voter s
  | .ceLoopGo p n => Sys2Proof.Machine.execCeLoopGo p n s
  | .loopCommitDone => Sys2Proof.Machine.execLoopCommitDone s
  | .loopCmdOff p n => Sys2Proof.Machine.execLoopCmdOff p n s
  | .loopCmdManual p n => Sys2Proof.Machine.execLoopCmdManual p n s
  | .loopCmdAuto p n => Sys2Proof.Machine.execLoopCmdAuto p n s
  | .loopCmdCascade p n => Sys2Proof.Machine.execLoopCmdCascade p n s
  | .loopCmdSafe p n => Sys2Proof.Machine.execLoopCmdSafe p n s
  | .loopCmdKeep p n => Sys2Proof.Machine.execLoopCmdKeep p n s
  | .loopSetMan p n m man => Sys2Proof.Machine.execLoopSetMan p n m man s
  | .ceEvtClear p i1 m => Sys2Proof.Machine.execCeEvtClear p i1 m s
  | .supAck p n align => Sys2Proof.Machine.execSupAck p n align s
  | .supAlign p n => Sys2Proof.Machine.execSupAlign p n s
  | .ceRampCmd p n rate => Sys2Proof.Machine.execCeRampCmd p n rate s
  | .ceTripClear p i1 m => Sys2Proof.Machine.execCeTripClear p i1 m s
  | .ceTabGo p t => Sys2Proof.Machine.execCeTabGo p t s
  | .tabCopyDone => Sys2Proof.Machine.execTabCopyDone s
  | .rollingTestDue => Sys2Proof.Machine.execRollingTestDue s
  | .laneBistEnd l result => Sys2Proof.Machine.execLaneBistEnd l result s
  | .laneStateCopyDone l collide t10 => Sys2Proof.Machine.execLaneStateCopyDone l collide t10 s
  | .fltDecayExpiry l => Sys2Proof.Machine.execFltDecayExpiry l s
  | .xngTest p l => Sys2Proof.Machine.execXngTest p l s
  | .xngRetry p l => Sys2Proof.Machine.execXngRetry p l s
  | .xngRestart p collide => Sys2Proof.Machine.execXngRestart p collide s
  | .xngDisLogClear p => Sys2Proof.Machine.execXngDisLogClear p s
  | .rsqStepGo p n step => Sys2Proof.Machine.execRsqStepGo p n step s
  | .stepCommitDone => Sys2Proof.Machine.execStepCommitDone s
  | .streamEvaluation faults ues => Sys2Proof.Machine.execStreamEvaluation faults ues s
  | .stepTick faults ues => Sys2Proof.Machine.execStepTick faults ues s
  | .stepPrefetchDone n => Sys2Proof.Machine.execStepPrefetchDone n s
  | .streamStart p n step => Sys2Proof.Machine.execStreamStart p n step s
  | .streamHold p n => Sys2Proof.Machine.execStreamHold p n s
  | .streamResume p n => Sys2Proof.Machine.execStreamResume p n s
  | .streamPause p n => Sys2Proof.Machine.execStreamPause p n s
  | .streamAbort p n => Sys2Proof.Machine.execStreamAbort p n s
  | .streamPark p n => Sys2Proof.Machine.execStreamPark p n s
  | .streamReset p n => Sys2Proof.Machine.execStreamReset p n s
  | .streamRecheck p n => Sys2Proof.Machine.execStreamRecheck p n s
  | .streamDiscard p n => Sys2Proof.Machine.execStreamDiscard p n s
  | .rsqResumeGo p => Sys2Proof.Machine.execRsqResumeGo p s
  | .resumeWaitExpiry n => Sys2Proof.Machine.execResumeWaitExpiry n s
  | .stflagSet p n m => Sys2Proof.Machine.execStflagSet p n m s
  | .streamWindowWrite p n off v => Sys2Proof.Machine.execStreamWindowWrite p n off v s
  | .rsqEvtClear p i1 m => Sys2Proof.Machine.execRsqEvtClear p i1 m s
  | .rsqAlmClear p i1 m => Sys2Proof.Machine.execRsqAlmClear p i1 m s
  | .cscActGo p first count => Sys2Proof.Machine.execCscActGo p first count s
  | .actCommitDone => Sys2Proof.Machine.execActCommitDone s
  | .cscArm p g t => Sys2Proof.Machine.execCscArm p g t s
  | .cscArmRel p g t => Sys2Proof.Machine.execCscArmRel p g t s
  | .cscCancel p g t => Sys2Proof.Machine.execCscCancel p g t s
  | .encoderEdge n a b i1 held t => Sys2Proof.Machine.execEncoderEdge n a b i1 held t s
  | .coordEdgeTimeout c => Sys2Proof.Machine.execCoordEdgeTimeout c s
  | .zcEdge i1 t => Sys2Proof.Machine.execZcEdge i1 t s
  | .phaseLockLoss c t => Sys2Proof.Machine.execPhaseLockLoss c t s
  | .coordCrossing n t ue => Sys2Proof.Machine.execCoordCrossing n t ue s
  | .remoteArmSend n t => Sys2Proof.Machine.execRemoteArmSend n t s
  | .cancelUnconfirmed port sta slot => Sys2Proof.Machine.execCancelUnconfirmed port sta slot s
  | .cscEvtClear p i1 m => Sys2Proof.Machine.execCscEvtClear p i1 m s
  | .profilePeriod => Sys2Proof.Machine.execProfilePeriod s
  | .pwmPeriod d t => Sys2Proof.Machine.execPwmPeriod d t s
  | .holdDelayExpiry n => Sys2Proof.Machine.execHoldDelayExpiry n s
  | .latchEdge k rising held t => Sys2Proof.Machine.execLatchEdge k rising held t s
  | .axisEnable p n => Sys2Proof.Machine.execAxisEnable p n s
  | .axisDisable p n => Sys2Proof.Machine.execAxisDisable p n s
  | .moveAbs p n => Sys2Proof.Machine.execMoveAbs p n s
  | .moveRel p n => Sys2Proof.Machine.execMoveRel p n s
  | .moveVel p n => Sys2Proof.Machine.execMoveVel p n s
  | .axisStop p n => Sys2Proof.Machine.execAxisStop p n s
  | .axisQstop p n => Sys2Proof.Machine.execAxisQstop p n s
  | .axisHome p n => Sys2Proof.Machine.execAxisHome p n s
  | .axisFollow p n => Sys2Proof.Machine.execAxisFollow p n s
  | .axisGmove p n g => Sys2Proof.Machine.execAxisGmove p n g s
  | .resetFault p n => Sys2Proof.Machine.execResetFault p n s
  | .latchArm p n => Sys2Proof.Machine.execLatchArm p n s
  | .motAxisGo p n => Sys2Proof.Machine.execMotAxisGo p n s
  | .axisCommitDone => Sys2Proof.Machine.execAxisCommitDone s
  | .motGrpGo p g => Sys2Proof.Machine.execMotGrpGo p g s
  | .grpCommitDone => Sys2Proof.Machine.execGrpCommitDone s
  | .encCntRead n => Sys2Proof.Machine.execEncCntRead n s
  | .motEncErrClear p m => Sys2Proof.Machine.execMotEncErrClear p m s
  | .motEvtClear p i1 m => Sys2Proof.Machine.execMotEvtClear p i1 m s
  | .motLatClear p => Sys2Proof.Machine.execMotLatClear p s
  | .ilpScanBoundary dur ue => Sys2Proof.Machine.execIlpScanBoundary dur ue s
  | .ilpRun p => Sys2Proof.Machine.execIlpRun p s
  | .ilpStop p => Sys2Proof.Machine.execIlpStop p s
  | .ilpHold p => Sys2Proof.Machine.execIlpHold p s
  | .ilpStep p dur => Sys2Proof.Machine.execIlpStep p dur s
  | .ilpContinue p dur => Sys2Proof.Machine.execIlpContinue p dur s
  | .ilpLoad p => Sys2Proof.Machine.execIlpLoad p s
  | .ilpLoadDone => Sys2Proof.Machine.execIlpLoadDone s
  | .ilpChgGo p => Sys2Proof.Machine.execIlpChgGo p s
  | .safetyInputEdge n b level => Sys2Proof.Machine.execSafetyInputEdge n b level s
  | .safeFilterExpiry ch n b openUs rbUs => Sys2Proof.Machine.execSafeFilterExpiry ch n b openUs rbUs s
  | .discrepancyExpiry n => Sys2Proof.Machine.execDiscrepancyExpiry n s
  | .testPulse srcB low => Sys2Proof.Machine.execTestPulse srcB low s
  | .safeRstFall lenH lenP skew dem still => Sys2Proof.Machine.execSafeRstFall lenH lenP skew dem still s
  | .stuckReset => Sys2Proof.Machine.execStuckReset s
  | .safetyHeartbeat hw proc => Sys2Proof.Machine.execSafetyHeartbeat hw proc s
  | .chLost lost => Sys2Proof.Machine.execChLost lost s
  | .safOvertemp ch => Sys2Proof.Machine.execSafOvertemp ch s
  | .safCpuFault => Sys2Proof.Machine.execSafCpuFault s
  | .edmTimeout m => Sys2Proof.Machine.execEdmTimeout m s
  | .chMismatch m ch => Sys2Proof.Machine.execChMismatch m ch s
  | .offPulseTest m => Sys2Proof.Machine.execOffPulseTest m s
  | .offPulseReadback m us => Sys2Proof.Machine.execOffPulseReadback m us s
  | .offPulseTimeout m => Sys2Proof.Machine.execOffPulseTimeout m s
  | .outputReadbackFault m high => Sys2Proof.Machine.execOutputReadbackFault m high s
  | .fsSWarning below => Sys2Proof.Machine.execFsSWarning below s
  | .fsSUndervoltage => Sys2Proof.Machine.execFsSUndervoltage s
  | .fsSRecovery => Sys2Proof.Machine.execFsSRecovery s
  | .safetyParamReceive echoOk => Sys2Proof.Machine.execSafetyParamReceive echoOk s
  | .safetyParamApply => Sys2Proof.Machine.execSafetyParamApply s
  | .safetyFwReceive ok ver => Sys2Proof.Machine.execSafetyFwReceive ok ver s
  | .safetyFwSwitch => Sys2Proof.Machine.execSafetyFwSwitch s
  | .safetyFwSelftestEnd ok => Sys2Proof.Machine.execSafetyFwSelftestEnd ok s
  | .fioRefreshFrame down up supplyA supplyB currentA currentB rb t => Sys2Proof.Machine.execFioRefreshFrame down up supplyA supplyB currentA currentB rb t s
  | .linkSilence => Sys2Proof.Machine.execLinkSilence s
  | .safeHoldTimeout run => Sys2Proof.Machine.execSafeHoldTimeout run s
  | .linkDownDetect lost => Sys2Proof.Machine.execLinkDownDetect lost s
  | .linkRetrainDone silence => Sys2Proof.Machine.execLinkRetrainDone silence s
  | .fioInputFilterExpiry k level t => Sys2Proof.Machine.execFioInputFilterExpiry k level t s
  | .channelOvercurrent k => Sys2Proof.Machine.execChannelOvercurrent k s
  | .groupOvercurrent g current => Sys2Proof.Machine.execGroupOvercurrent g current s
  | .readbackMismatch k readback => Sys2Proof.Machine.execReadbackMismatch k readback s
  | .fsGroupWarn g supply => Sys2Proof.Machine.execFsGroupWarn g supply s
  | .fsGroupWarnClear g => Sys2Proof.Machine.execFsGroupWarnClear g s
  | .fsGroupUv g => Sys2Proof.Machine.execFsGroupUv g s
  | .fsGroupRecovery g => Sys2Proof.Machine.execFsGroupRecovery g s
  | .fioGrpEnable p g => Sys2Proof.Machine.execFioGrpEnable p g s
  | .aiSample readings low t => Sys2Proof.Machine.execAiSample readings low t s
  | .aiConversionEnd => Sys2Proof.Machine.execAiConversionEnd s
  | .aiBurdenReconnect k => Sys2Proof.Machine.execAiBurdenReconnect k s
  | .aiCalGo p => Sys2Proof.Machine.execAiCalGo p s
  | .aiCalDone delays => Sys2Proof.Machine.execAiCalDone delays s
  | .aoDeferredUpdate k t => Sys2Proof.Machine.execAoDeferredUpdate k t s
  | .fioTestUv p v => Sys2Proof.Machine.execFioTestUv p v s
  | .fioMmClear p m => Sys2Proof.Machine.execFioMmClear p m s
  | .fioOcClear p m => Sys2Proof.Machine.execFioOcClear p m s
  | .silencedClear p => Sys2Proof.Machine.execSilencedClear p s
  | .laneWindowStart p => Sys2Proof.Machine.execLaneWindowStart p s
  | .laneOutputRead p => Sys2Proof.Machine.execLaneOutputRead p s
  | .laneWindowEnd p => Sys2Proof.Machine.execLaneWindowEnd p s
  | .laneCycleStart p => Sys2Proof.Machine.execLaneCycleStart p s
  | .aInRx p k start fcs body drv => Sys2Proof.Machine.execAInRx p k start fcs body drv s
  | .bInRx p k fcs body drv => Sys2Proof.Machine.execBInRx p k fcs body drv s
  | .identRx p pos fcs body => Sys2Proof.Machine.execIdentRx p pos fcs body s
  | .laneAckRx p k fcs typ res => Sys2Proof.Machine.execLaneAckRx p k fcs typ res s
  | .delayRespRx p pos fcs rtt turn => Sys2Proof.Machine.execDelayRespRx p pos fcs rtt turn s
  | .foreignFrameRx p => Sys2Proof.Machine.execForeignFrameRx p s
  | .lneStart p n => Sys2Proof.Machine.execLneStart p n s
  | .lneStop p n => Sys2Proof.Machine.execLneStop p n s
  | .lneReenum p n => Sys2Proof.Machine.execLneReenum p n s
  | .staRestart p n k => Sys2Proof.Machine.execStaRestart p n k s
  | .staGoSafe p n k => Sys2Proof.Machine.execStaGoSafe p n k s
  | .probeTimeout p => Sys2Proof.Machine.execProbeTimeout p s
  | .delayRemeasure p => Sys2Proof.Machine.execDelayRemeasure p s
  | .newStationProbe p => Sys2Proof.Machine.execNewStationProbe p s
  | .laneLinkUp p => Sys2Proof.Machine.execLaneLinkUp p s
  | .laneLinkDown p => Sys2Proof.Machine.execLaneLinkDown p s
  | .lneInjUnlock p n => Sys2Proof.Machine.execLneInjUnlock p n s
  | .lneInjEn p n en => Sys2Proof.Machine.execLneInjEn p n en s
  | .ethRxFrame p f fcs t8 => Sys2Proof.Machine.execEthRxFrame p f fcs t8 s
  | .ethTxTail p n v => Sys2Proof.Machine.execEthTxTail p n v s
  | .ethRxTail p n v => Sys2Proof.Machine.execEthRxTail p n v s
  | .ethTxDone p t8 => Sys2Proof.Machine.execEthTxDone p t8 s
  | .aveTrainingDone p peer pp role dly => Sys2Proof.Machine.execAveTrainingDone p peer pp role dly s
  | .aveHelloSend p => Sys2Proof.Machine.execAveHelloSend p s
  | .aveHelloTimeout p => Sys2Proof.Machine.execAveHelloTimeout p s
  | .aveLockLoss p => Sys2Proof.Machine.execAveLockLoss p s
  | .aveDelayMeasure p dly => Sys2Proof.Machine.execAveDelayMeasure p dly s
  | .ptARx p h time recs => Sys2Proof.Machine.execPtARx p h time recs s
  | .ptBRx p h classC time recs => Sys2Proof.Machine.execPtBRx p h classC time recs s
  | .rdReqRx p h off pr wide => Sys2Proof.Machine.execRdReqRx p h off pr wide s
  | .wrReqRx p h off pr wide data => Sys2Proof.Machine.execWrReqRx p h off pr wide data s
  | .rdRespRx p h classC result data => Sys2Proof.Machine.execRdRespRx p h classC result data s
  | .wrRespRx p h classC result => Sys2Proof.Machine.execWrRespRx p h classC result s
  | .lsaRx p h dev port up peer seq ago => Sys2Proof.Machine.execLsaRx p h dev port up peer seq ago s
  | .discRx p h reply serial port role => Sys2Proof.Machine.execDiscRx p h reply serial port role s
  | .timeFrameRx p h t flags hops gm utc rx => Sys2Proof.Machine.execTimeFrameRx p h t flags hops gm utc rx s
  | .trigFrameRx p h ns line ps => Sys2Proof.Machine.execTrigFrameRx p h ns line ps s
  | .recFrameRx p h seq frag dev bytes => Sys2Proof.Machine.execRecFrameRx p h seq frag dev bytes s
  | .ctrlSubscribe p h sub gid cls kind admitted long contended prot => Sys2Proof.Machine.execCtrlSubscribe p h sub gid cls kind admitted long contended prot s
  | .ctrlAdmit p h src dst long contended prot => Sys2Proof.Machine.execCtrlAdmit p h src dst long contended prot s
  | .ctrlGrant p h g => Sys2Proof.Machine.execCtrlGrant p h g s
  | .ctrlRelease p h => Sys2Proof.Machine.execCtrlRelease p h s
  | .ctrlHeartbeat p h => Sys2Proof.Machine.execCtrlHeartbeat p h s
  | .fabricAccess r p wr a size v ecc => Sys2Proof.Machine.execFabricAccess r p wr a size v ecc s
  | .aveReqTimeout tag => Sys2Proof.Machine.execAveReqTimeout tag s
  | .ptPublish idx dst => Sys2Proof.Machine.execPtPublish idx dst s
  | .ptBPublish => Sys2Proof.Machine.execPtBPublish s
  | .peerFrameTimeout idx commLost => Sys2Proof.Machine.execPeerFrameTimeout idx commLost s
  | .routeRecomputeDone => Sys2Proof.Machine.execRouteRecomputeDone s
  | .aveDiscover p => Sys2Proof.Machine.execAveDiscover p s
  | .aveRelease p => Sys2Proof.Machine.execAveRelease p s
  | .discoveryComplete => Sys2Proof.Machine.execDiscoveryComplete s
  | .deviceLostTimeout d => Sys2Proof.Machine.execDeviceLostTimeout d s
  | .gwHeartbeatSend => Sys2Proof.Machine.execGwHeartbeatSend s
  | .gwHbTimeout => Sys2Proof.Machine.execGwHbTimeout s
  | .hostLinkLossTimeout => Sys2Proof.Machine.execHostLinkLossTimeout s
  | .aveInjUnlock p n => Sys2Proof.Machine.execAveInjUnlock p n s
  | .aveInjEn p n en => Sys2Proof.Machine.execAveInjEn p n en s
  | .aveSubStatClear p => Sys2Proof.Machine.execAveSubStatClear p s
  | .timOfsSubmit p hi => Sys2Proof.Machine.execTimOfsSubmit p hi s
  | .timPhaseStep => Sys2Proof.Machine.execTimPhaseStep s
  | .timSet p hi => Sys2Proof.Machine.execTimSet p hi s
  | .servoHoldover => Sys2Proof.Machine.execServoHoldover s
  | .timeFrameSend => Sys2Proof.Machine.execTimeFrameSend s
  | .timNowRead => Sys2Proof.Machine.execTimNowRead s
  | .txtsInfoRead p => Sys2Proof.Machine.execTxtsInfoRead p s
  | .txtsPop p n => Sys2Proof.Machine.execTxtsPop p n s
  | .txtsOvfClear p n => Sys2Proof.Machine.execTxtsOvfClear p n s
  | .lostRstClear p => Sys2Proof.Machine.execLostRstClear p s
  | .uncLimitExceeded unc => Sys2Proof.Machine.execUncLimitExceeded unc s
  | .acqPointSample skipped => Sys2Proof.Machine.execAcqPointSample skipped s
  | .acqTimerExpiry k => Sys2Proof.Machine.execAcqTimerExpiry k s
  | .trigInEdge k rising t8 => Sys2Proof.Machine.execTrigInEdge k rising t8 s
  | .acqArm p fabricOk => Sys2Proof.Machine.execAcqArm p fabricOk s
  | .acqStop p => Sys2Proof.Machine.execAcqStop p s
  | .acqClear p => Sys2Proof.Machine.execAcqClear p s
  | .acqPostComplete => Sys2Proof.Machine.execAcqPostComplete s
  | .acqRearmComplete => Sys2Proof.Machine.execAcqRearmComplete s
  | .acqBlockWritten failed => Sys2Proof.Machine.execAcqBlockWritten failed s
  | .acqTflagSet p m => Sys2Proof.Machine.execAcqTflagSet p m s
  | .acqFlagClear p i1 m => Sys2Proof.Machine.execAcqFlagClear p i1 m s
  | .ocToken idx => Sys2Proof.Machine.execOcToken idx s
  | .hrcReduceInterval idx => Sys2Proof.Machine.execHrcReduceInterval idx s
  | .hrcBlockAge => Sys2Proof.Machine.execHrcBlockAge s
  | .hrcFlush p => Sys2Proof.Machine.execHrcFlush p s
  | .hrcBlockSend ue => Sys2Proof.Machine.execHrcBlockSend ue s
  | .hrcDmaDone dev seq d hostErr => Sys2Proof.Machine.execHrcDmaDone dev seq d hostErr s
  | .evrAccept => Sys2Proof.Machine.execEvrAccept s
  | .lostBusyReport => Sys2Proof.Machine.execLostBusyReport s
  | .freezeTimeout => Sys2Proof.Machine.execFreezeTimeout s
  | .evrDumpGo p => Sys2Proof.Machine.execEvrDumpGo p s
  | .evrDumpDone => Sys2Proof.Machine.execEvrDumpDone s
  | .evrFfArm p => Sys2Proof.Machine.execEvrFfArm p s
  | .taskCreate p t => Sys2Proof.Machine.execTaskCreate p t s
  | .taskDelete p t => Sys2Proof.Machine.execTaskDelete p t s
  | .taskSuspend p t => Sys2Proof.Machine.execTaskSuspend p t s
  | .taskResume p t => Sys2Proof.Machine.execTaskResume p t s
  | .dispRead c by_ => Sys2Proof.Machine.execDispRead c by_ s
  | .dispWaitTimeout c => Sys2Proof.Machine.execDispWaitTimeout c s
  | .taskDone p c => Sys2Proof.Machine.execTaskDone p c s
  | .taskYield p c => Sys2Proof.Machine.execTaskYield p c s
  | .subGo p c f => Sys2Proof.Machine.execSubGo p c f s
  | .fset p c m => Sys2Proof.Machine.execFset p c m s
  | .maskWrite p t m => Sys2Proof.Machine.execMaskWrite p t m s
  | .htsHb p => Sys2Proof.Machine.execHtsHb p s
  | .heartbeatMissed => Sys2Proof.Machine.execHeartbeatMissed s
  | .autonomyWindowExpiry => Sys2Proof.Machine.execAutonomyWindowExpiry s
  | .wdtWarning c => Sys2Proof.Machine.execWdtWarning c s
  | .wdtExpiry c mepc => Sys2Proof.Machine.execWdtExpiry c mepc s
  | .wdtKick c v => Sys2Proof.Machine.execWdtKick c v s
  | .cpuCoreEn p v => Sys2Proof.Machine.execCpuCoreEn p v s
  | .cpuCoreRst p v => Sys2Proof.Machine.execCpuCoreRst p v s
  | .cacheUe c level addr => Sys2Proof.Machine.execCacheUe c level addr s
  | .sramScrub ce ue => Sys2Proof.Machine.execSramScrub ce ue s
  | .memTrainingDone fail0 fail1 => Sys2Proof.Machine.execMemTrainingDone fail0 fail1 s
  | .memPatrolScrub ce ue => Sys2Proof.Machine.execMemPatrolScrub ce ue s
  | .mtimecmpMatch c => Sys2Proof.Machine.execMtimecmpMatch c s
  | .mtimeRead => Sys2Proof.Machine.execMtimeRead s
  | .cpuWdtLogClear p m => Sys2Proof.Machine.execCpuWdtLogClear p m s
  | .cpuSramUeClear p => Sys2Proof.Machine.execCpuSramUeClear p s
  | .memUeClear p => Sys2Proof.Machine.execMemUeClear p s
  | .ringDoorbell n tail => Sys2Proof.Machine.execRingDoorbell n tail s
  | .dmaDescDone n d data hostErr => Sys2Proof.Machine.execDmaDescDone n d data hostErr s
  | .ringEnable p n v => Sys2Proof.Machine.execRingEnable p n v s
  | .ringDisable p n => Sys2Proof.Machine.execRingDisable p n s
  | .hifMsiSend p v => Sys2Proof.Machine.execHifMsiSend p v s
  | .hostBarAccess bar2 wr off size v ecc => Sys2Proof.Machine.execHostBarAccess bar2 wr off size v ecc s
  | .hifErrLogClear p => Sys2Proof.Machine.execHifErrLogClear p s
  | .pcieLinkUp rate width bm => Sys2Proof.Machine.execPcieLinkUp rate width bm s
  | .pcieLinkDown => Sys2Proof.Machine.execPcieLinkDown s
  | .pcieHotReset => Sys2Proof.Machine.execPcieHotReset s
  | .pcieFlr => Sys2Proof.Machine.execPcieFlr s
  | .canStart p n => Sys2Proof.Machine.execCanStart p n s
  | .canStop p n onBus => Sys2Proof.Machine.execCanStop p n onBus s
  | .canSleep p n onBus => Sys2Proof.Machine.execCanSleep p n onBus s
  | .canWake p n => Sys2Proof.Machine.execCanWake p n s
  | .canRecover p n => Sys2Proof.Machine.execCanRecover p n s
  | .canFrameRx n id xtd fdf brs esi dlc t data => Sys2Proof.Machine.execCanFrameRx n id xtd fdf brs esi dlc t data s
  | .canTxDone n => Sys2Proof.Machine.execCanTxDone n s
  | .canPeriodicRequest n m => Sys2Proof.Machine.execCanPeriodicRequest n m s
  | .canRxTimeout n m => Sys2Proof.Machine.execCanRxTimeout n m s
  | .canBusError n lec dataPhase own dTec dRec => Sys2Proof.Machine.execCanBusError n lec dataPhase own dTec dRec s
  | .canIntegrationDone n => Sys2Proof.Machine.execCanIntegrationDone n s
  | .canRecoveryDone n => Sys2Proof.Machine.execCanRecoveryDone n s
  | .canWakeDetect n frame id xtd data0 => Sys2Proof.Machine.execCanWakeDetect n frame id xtd data0 s
  | .canObjStatRead n m => Sys2Proof.Machine.execCanObjStatRead n m s
  | .canNewClear p n m => Sys2Proof.Machine.execCanNewClear p n m s
  | .canOvrClear p n m => Sys2Proof.Machine.execCanOvrClear p n m s
  | .canTxReq p n m => Sys2Proof.Machine.execCanTxReq p n m s
  | .canTxAbort p n m onBus => Sys2Proof.Machine.execCanTxAbort p n m onBus s
  | .canObjEnable p n m v => Sys2Proof.Machine.execCanObjEnable p n m v s
  | .canObjDisable p n m onBus => Sys2Proof.Machine.execCanObjDisable p n m onBus s
  | .canEvtClear p n i1 m => Sys2Proof.Machine.execCanEvtClear p n i1 m s
  | .canWokenClear p n => Sys2Proof.Machine.execCanWokenClear p n s
  | .clkXoStart p => Sys2Proof.Machine.execClkXoStart p s
  | .clkPllStart p => Sys2Proof.Machine.execClkPllStart p s
  | .clkRamp p d => Sys2Proof.Machine.execClkRamp p d s
  | .clkReturn p => Sys2Proof.Machine.execClkReturn p s
  | .clkXoRetry p => Sys2Proof.Machine.execClkXoRetry p s
  | .clkXoStop p => Sys2Proof.Machine.execClkXoStop p s
  | .xoStable => Sys2Proof.Machine.execXoStable s
  | .xoStartTimeout => Sys2Proof.Machine.execXoStartTimeout s
  | .autoReturn => Sys2Proof.Machine.execAutoReturn s
  | .rampStep d => Sys2Proof.Machine.execRampStep d s
  | .pllLock => Sys2Proof.Machine.execPllLock s
  | .xoTrip stop cnt => Sys2Proof.Machine.execXoTrip stop cnt s
  | .pllUnlock => Sys2Proof.Machine.execPllUnlock s
  | .frcFail cnt => Sys2Proof.Machine.execFrcFail cnt s
  | .srcFail => Sys2Proof.Machine.execSrcFail s
  | .clkSwitchDone m => Sys2Proof.Machine.execClkSwitchDone m s
  | .clkSwitchForce m => Sys2Proof.Machine.execClkSwitchForce m s
  | .clkMonStatClear p m => Sys2Proof.Machine.execClkMonStatClear p m s
  | .pmcRun p => Sys2Proof.Machine.execPmcRun p s
  | .pmcEco p => Sys2Proof.Machine.execPmcEco p s
  | .pmcStandby p => Sys2Proof.Machine.execPmcStandby p s
  | .pmcHibernate p => Sys2Proof.Machine.execPmcHibernate p s
  | .pmcHandshakeAnswer wfi busy => Sys2Proof.Machine.execPmcHandshakeAnswer wfi busy s
  | .pmcWaitTimeout => Sys2Proof.Machine.execPmcWaitTimeout s
  | .pmcRollbackDone => Sys2Proof.Machine.execPmcRollbackDone s
  | .pmcWakeDone => Sys2Proof.Machine.execPmcWakeDone s
  | .pmcDomOn p d => Sys2Proof.Machine.execPmcDomOn p d s
  | .pmcDomOff p d => Sys2Proof.Machine.execPmcDomOff p d s
  | .domainPowerUpDone d net elapsed => Sys2Proof.Machine.execDomainPowerUpDone d net elapsed s
  | .wakeNLow => Sys2Proof.Machine.execWakeNLow s
  | .pmcAlarmMatch => Sys2Proof.Machine.execPmcAlarmMatch s
  | .laneSignalDetect n => Sys2Proof.Machine.execLaneSignalDetect n s
  | .aveSignalDetect n => Sys2Proof.Machine.execAveSignalDetect n s
  | .perstNRise => Sys2Proof.Machine.execPerstNRise s
  | .pmcWakeStatClear p m => Sys2Proof.Machine.execPmcWakeStatClear p m s
  | .startupRegulators => Sys2Proof.Machine.execStartupRegulators s
  | .startupOscillators mode => Sys2Proof.Machine.execStartupOscillators mode s
  | .startupAlwaysOn => Sys2Proof.Machine.execStartupAlwaysOn s
  | .startupClocks fails us => Sys2Proof.Machine.execStartupClocks fails us s
  | .startupMemory pg fail0 fail1 => Sys2Proof.Machine.execStartupMemory pg fail0 fail1 s
  | .startupRealtime net elapsed => Sys2Proof.Machine.execStartupRealtime net elapsed s
  | .startupBoot a b => Sys2Proof.Machine.execStartupBoot a b s
  | .startupHandover => Sys2Proof.Machine.execStartupHandover s
  | .ermPushGo p => Sys2Proof.Machine.execErmPushGo p s
  | .bootPushTimeout => Sys2Proof.Machine.execBootPushTimeout s
  | .powerOnReset => Sys2Proof.Machine.execPowerOnReset s
  | .brownout core io vdd => Sys2Proof.Machine.execBrownout core io vdd s
  | .resetPin => Sys2Proof.Machine.execResetPin s
  | .softwareReset p v => Sys2Proof.Machine.execSoftwareReset p v s
  | .debugReset => Sys2Proof.Machine.execDebugReset s
  | .resetRelease => Sys2Proof.Machine.execResetRelease s
  | .pgMemLoss => Sys2Proof.Machine.execPgMemLoss s
  | .pgMemRestore => Sys2Proof.Machine.execPgMemRestore s
  | .pfailFall => Sys2Proof.Machine.execPfailFall s
  | .pfailRise => Sys2Proof.Machine.execPfailRise s
  | .pfailReset => Sys2Proof.Machine.execPfailReset s
  | .retWrite p i1 v => Sys2Proof.Machine.execRetWrite p i1 v s
  | .retRound fails => Sys2Proof.Machine.execRetRound fails s
  | .retFlush p => Sys2Proof.Machine.execRetFlush p s
  | .retCheckDone bad us => Sys2Proof.Machine.execRetCheckDone bad us s
  | .retBankFailClear p m => Sys2Proof.Machine.execRetBankFailClear p m s
  | .retWfailLogClear p => Sys2Proof.Machine.execRetWfailLogClear p s
  | .ermErrorRaise b inst code sev => Sys2Proof.Machine.execErmErrorRaise b inst code sev s
  | .fatalReset => Sys2Proof.Machine.execFatalReset s
  | .ermAck p code => Sys2Proof.Machine.execErmAck p code s
  | .ermFatalLogClear p => Sys2Proof.Machine.execErmFatalLogClear p s
  | .aveBlockLockRegained p => Sys2Proof.Machine.execAveBlockLockRegained p s
  | .rollingTestOverdue => Sys2Proof.Machine.execRollingTestOverdue s
  | .islandStartupSelftestEnd ch ok paramOk => Sys2Proof.Machine.execIslandStartupSelftestEnd ch ok paramOk s
  | .vddSafePowerUp rstHigh => Sys2Proof.Machine.execVddSafePowerUp rstHigh s
  | .vddSafeLoss => Sys2Proof.Machine.execVddSafeLoss s
  | .vddFdPowerUp rstHigh => Sys2Proof.Machine.execVddFdPowerUp rstHigh s
  | .vddFdLoss => Sys2Proof.Machine.execVddFdLoss s

end Sys2Proof.Machine
end

