-- ==== Sys2Proof/Safety.lean ====
section
/-!
DEFINITION. What counts as a safe run, in the terms the statements use: the canonical form of memory, the parts of the state that a command leaves alone,
and the invariants that every step keeps.
-/

namespace Sys2Proof.Machine

/-- The canonical form of the byte memory: addresses strictly rising, no byte listed that an unlisted address reads as. -/
def Memory.wf (m : Tab Byte) : Bool := Tab.wf 0 m

/-- The parts of the state, one per field of `State`. -/
inductive Part where
  | pending | free | out | upUs | mem | hdr | mir | regs | shadow | frz | sys | evr | erm | ret | cpu | msdram | hif | ptd | tim | hts | ce | xng | ave | saf | clk | pmc | mot | lne | csc | fio | rsq | hrc | can | acq | ilp
deriving DecidableEq, Repr

/-- A part of the state is the same before and after. -/
def Part.same (s t : State) : Part → Prop
  | .pending => t.pending = s.pending
  | .free => t.free = s.free
  | .out => t.out = s.out
  | .upUs => t.upUs = s.upUs
  | .mem => t.mem = s.mem
  | .hdr => t.hdr = s.hdr
  | .mir => t.mir = s.mir
  | .regs => t.regs = s.regs
  | .shadow => t.shadow = s.shadow
  | .frz => t.frz = s.frz
  | .sys => t.sys = s.sys
  | .evr => t.evr = s.evr
  | .erm => t.erm = s.erm
  | .ret => t.ret = s.ret
  | .cpu => t.cpu = s.cpu
  | .msdram => t.msdram = s.msdram
  | .hif => t.hif = s.hif
  | .ptd => t.ptd = s.ptd
  | .tim => t.tim = s.tim
  | .hts => t.hts = s.hts
  | .ce => t.ce = s.ce
  | .xng => t.xng = s.xng
  | .ave => t.ave = s.ave
  | .saf => t.saf = s.saf
  | .clk => t.clk = s.clk
  | .pmc => t.pmc = s.pmc
  | .mot => t.mot = s.mot
  | .lne => t.lne = s.lne
  | .csc => t.csc = s.csc
  | .fio => t.fio = s.fio
  | .rsq => t.rsq = s.rsq
  | .hrc => t.hrc = s.hrc
  | .can => t.can = s.can
  | .acq => t.acq = s.acq
  | .ilp => t.ilp = s.ilp

/-- Every part of the state but those listed is the same before and after. -/
def SameBut (l : List Part) (s t : State) : Prop := ∀ x : Part, x ∉ l → x.same s t

/-- What every step keeps: memory in its canonical form; at most four records wait with a writer (R391) and at most 64 safety records are held
during a freeze (R393); at most 16 errors are queued (R475); the retention store's pending buffer holds at most 16,384 words (R471). -/
structure State.Inv (s : State) : Prop where
  mem : Memory.wf s.mem = true
  evrQueues : ∀ w, (Tab.get [] s.evr.queues w).length ≤ 4
  evrSafe : s.evr.safeBuf.length ≤ 64
  ermQueue : s.erm.queue.length ≤ 16
  retPend : s.ret.pend.length ≤ 16384

end Sys2Proof.Machine
end

