-- ==== Sys2Proof/Certificates/Slice0/Obligations.lean ====
section
/-!
DEFINITION. The statements about the model, from the spec's rules: what the commands do, what they leave alone, where they are refused, what holds right
after reset and what every step keeps.
-/

open Sys2Proof Sys2Proof.Machine

/-- A step runs the command at the front of the queue. For every command and state, step of the state with the command at the front of its queue is
exec of the command on the state with the rest of the queue. With no command waiting a step changes nothing (the model's choice, log 1).
(00_scope.md, log 1) -/
def Obligations.StepRunsTheFrontCommand : Prop :=
  (∀ (c : Instr) (cs : List Instr) (s : State), step { s with pending := c :: cs } = exec c { s with pending := cs }) ∧
  (∀ s : State, s.pending = [] → step s = .next s)

/-- Header commands: causes clear, errors clear, commit, discard, lock. Where the block answers and the protection map permits the write: IRQ_CLEAR
clears the bits written as 1, BLK_ERR_CLEAR clears OVF, COUNT and CODE, COMMIT sets COMMIT_PENDING, DISCARD drops the block's shadows and a pending
commit without COMMIT_DONE, LOCK sets the lock. Nothing else changes. (R34, R35, R37, R39, R42) -/
def Obligations.HeaderCommandsComplete : Prop :=
  ∀ (s : State) (b : Block) (p : Principal) (m : Word), s.present b = true → s.permits p b.code = true →
    exec (.irqClear b p m) s = .next (s.updHd b fun h => { h with irqRaw := h.irqRaw &&& ~~~m }) ∧
    exec (.blkErrClear b p) s = .next (s.updHd b fun h => { h with errCode := 0, errCount := 0, errOvf := false }) ∧
    exec (.commit b p) s = .next (s.updHd b fun h => { h with commitPending := true }) ∧
    (∃ t, exec (.discard b p) s = .next t ∧ t.hd b = { s.hd b with commitPending := false } ∧ t.regs = s.regs ∧
      (∀ o, o < 0x10000 → t.shReg ⟨b, o⟩ = s.reg ⟨b, o⟩) ∧ SameBut [.hdr, .shadow] s t) ∧
    exec (.lock b p) s = .next (s.updHd b fun h => { h with lock := true })

/-- BLK_CTRL: enable, run, soft reset and freeze complete. Where the write reaches BLK_CTRL: EN takes the value written while RUN is 0 and the block
does not refuse; RUN = 1 with EN = 1 sets RUN, and RUNNING at once for the blocks of log 91; SOFT_RST leaves the header at its reset values, fenced,
with the lock as it was; FREEZE takes the value written. RUN = 1 to a stopped block whose EN is 0 records NOT_ENABLED and starts nothing (MEM, whose
EN = 0 maps no SDRAM, does not run). (R35, R36, R42, R43, R45, log 91, log 92) -/
def Obligations.BlkCtrlCommandsComplete : Prop :=
  ∀ (s : State) (b : Block) (p : Principal), s.writeOk b 0x008 .rw p = true →
    ((s.hd b).run = false → s.stopRefusal b = none →
      ∀ en, ∃ t, exec (.blockEnable b p en) s = .next t ∧ (t.hd b).en = en ∧ (t.hd b).run = false ∧ (t.hd b).freeze = (s.hd b).freeze) ∧
    ((s.hd b).en = true → (s.hd b).run = false → b ≠ .xng → b ≠ .ave →
      ∃ t, exec (.blockRun b p true) s = .next t ∧ (t.hd b).run = true ∧ (runsAtOnce b = true → (t.hd b).running = true)) ∧
    (b ≠ .cpu → ∃ t, exec (.softRst b p) s = .next t ∧ t.hd b = { pwr := .fenced, lock := (s.hd b).lock }) ∧
    (b ≠ .evr → (s.hd b).en = true → ∀ fz, ∃ t, exec (.freeze b p fz) s = .next t ∧ (t.hd b).freeze = fz ∧ (t.hd b).en = true ∧ (t.hd b).run = (s.hd b).run) ∧
    ((s.hd b).en = false → (s.hd b).run = false → s.stopRefusal b = none →
      ∃ t, exec (.blockRun b p true) s = .next t ∧ (t.hd b).errCode = b.code * 256 + 0x06 ∧ (t.hd b).run = false ∧ (t.hd b).en = false ∧
        (b ≠ .mem → (t.hd b).running = (s.hd b).running))

/-- A write from outside the protection map is denied. A word written to a register of a present block by a principal that SYS_PMAP does not permit
changes no register and no shadow; BLK_ERR of the block records ACCESS_DENIED, and SYS_DENY_LOG holds the write if it was empty. (R48, R49) -/
def Obligations.DeniedWriteHasNoEffect : Prop :=
  ∀ (s : State) (b : Block) (o : Nat) (p : Principal) (v : BitVec 64), o < 0x10000 → o % 4 = 0 → s.present b = true → s.permits p b.code = false →
    ∃ t, exec (.registerWrite (.addr (b.base + o)) p 4 v) s = .next t ∧ t.regs = s.regs ∧ t.shadow = s.shadow ∧ t.mem = s.mem ∧
      (t.hd b).errCode = b.code * 256 + 0x04 ∧ (t.hd b).en = (s.hd b).en ∧ (t.hd b).run = (s.hd b).run ∧ (t.hd b).lock = (s.hd b).lock ∧
      t.sys.deny = some (s.sys.deny.getD { blk := b.code, off := o, principal := p.code })

/-- Register words by access code: RW at once, RWC to the shadow, RWL only while stopped. A word written to a block register of the map that is no
command and no header register, by a permitted principal, no lock: an RW register takes the writable bits at once; an RWC register's shadow takes
them and the active value stays; an RWL register takes them unless it is locked by what runs, which records CFG_LOCKED. The written value meets the
stated ranges. (R34, R37, R38, R41, R499) -/
def Obligations.RegisterWordsByAccessCode : Prop :=
  ∀ (s : State) (b : Block) (o : Nat) (w : RegRow) (p : Principal) (v : BitVec 64), 0x100 ≤ o → o < 0x10000 → o % 4 = 0 →
    regRow ⟨b, o⟩ = some w → s.cmdWrite State.ilpBus p b o (word v.toNat) = none → s.writeOk b o w.acc p = true →
    rangesOk w.rng (word v.toNat &&& word w.mask) = true → (s.hd b).commitPending = false →
    ∃ t, exec (.registerWrite (.addr (b.base + o)) p 4 v) s = .next t ∧
      (w.acc = .rw → t.reg ⟨b, o⟩ = word v.toNat &&& word w.mask ∧ SameBut [.regs] s t) ∧
      (w.acc = .rwc → t.shReg ⟨b, o⟩ = word v.toNat &&& word w.mask ∧ SameBut [.shadow] s t) ∧
      (w.acc = .rwl → s.rwlLocked b o = false → t.reg ⟨b, o⟩ = word v.toNat &&& word w.mask ∧ SameBut [.regs] s t) ∧
      (w.acc = .rwl → s.rwlLocked b o = true → t.regs = s.regs ∧ (t.hd b).errCode = b.code * 256 + 0x01)

/-- A locked block keeps its configuration. While BLK_LOCK.LOCK = 1, a word written to an RW, RWC or RWL register word of the map that is no command
and no header register is discarded and records REG_LOCKED; registers, shadows and the lock stay. (R42) -/
def Obligations.LockedRegistersKeepTheirValue : Prop :=
  ∀ (s : State) (b : Block) (o : Nat) (w : RegRow) (p : Principal) (v : BitVec 64), 0x100 ≤ o → o < 0x10000 → o % 4 = 0 →
    regRow ⟨b, o⟩ = some w → (w.acc = .rw ∨ w.acc = .rwc ∨ w.acc = .rwl) → s.cmdWrite State.ilpBus p b o (word v.toNat) = none →
    s.present b = true → s.permits p b.code = true → (s.hd b).lock = true →
    ∃ t, exec (.registerWrite (.addr (b.base + o)) p 4 v) s = .next t ∧ t.regs = s.regs ∧ t.shadow = s.shadow ∧ (t.hd b).lock = true ∧
      (t.hd b).errCode = b.code * 256 + 0x09

/-- A register access that is no aligned word is refused: a write has no effect, a read returns 0. A register access of another size than 4 bytes, or
at an address that is no multiple of 4, to a present block: a write has no effect and a read through BAR0 returns 0, and in both cases BLK_ERR of the
block records ACCESS_SIZE. A requesting core takes its access fault. (R33) -/
def Obligations.WrongSizeAccessRefused : Prop :=
  ∀ (s : State) (b : Block) (o : Nat) (n : Fin 9) (v : BitVec 64), o < 0x10000 → s.present b = true → (n.val ≠ 4 ∨ o % 4 ≠ 0) →
    (∀ p : Principal, ∃ t, exec (.registerWrite (.addr (b.base + o)) p n v) s = .next t ∧ (t.hd b).errCode = b.code * 256 + 0x05 ∧
      (t.hd b).en = (s.hd b).en ∧ (t.hd b).run = (s.hd b).run ∧ (t.hd b).lock = (s.hd b).lock ∧ (t.hd b).irqEn = (s.hd b).irqEn ∧
      SameBut [.hdr, .hts, .out, .cpu] s t) ∧
    (∀ (off : BitVec 32) (ue : EccRead), s.present .hif = true → s.hif.up = true → 0x10000000 + off.toNat = b.base + o → off.toNat < 16777216 →
      ∃ t, exec (.hostBarAccess false false off n v ue) s = .next t ∧ t.out = 0 ∧ (t.hd b).errCode = b.code * 256 + 0x05 ∧ SameBut [.hdr, .hts, .out] s t)

/-- A commit applies all shadows together or is refused and keeps them. COMMIT_APPLY of a pending commit of a present block: where the check passes,
for the blocks whose chapters add nothing to it, every register of the block takes its shadow, BLK_CFG_GEN increments, COMMIT_PENDING clears and
COMMIT_DONE is raised, and a commit of XNG restarts the rolling test timer; where a check fails, registers and shadows stay, BLK_ERR records the
code, COMMIT_PENDING clears and COMMIT_DONE is raised. (R37, R39, R500) -/
def Obligations.CommitAppliesOrRefuses : Prop :=
  ∀ (s : State) (b : Block), (s.hd b).commitPending = true → s.present b = true → Tab.wf none s.shadow = true →
    (s.commitCheck b = 0 → b ∉ [Block.lne, .csc, .tim, .fio, .hrc] →
      ∃ t, exec (.commitApply b) s = .next t ∧ (∀ o, o < 0x10000 → t.reg ⟨b, o⟩ = s.shReg ⟨b, o⟩) ∧ (t.hd b).commitPending = false ∧
        (t.hd b).cfgGen = wrapInc (s.hd b).cfgGen ∧ bit (t.hd b).irqRaw 1 = true ∧
        SameBut [.hdr, .regs, .shadow, .hts, .out, .xng] s t ∧ t.xng = (if b = .xng then { s.xng with testFrames := 0 } else s.xng)) ∧
    (∀ e, s.commitCheck b = e → e ≠ 0 → e < 256 →
      ∃ t, exec (.commitApply b) s = .next t ∧ t.regs = s.regs ∧ t.shadow = s.shadow ∧ (t.hd b).commitPending = false ∧
        (t.hd b).errCode = b.code * 256 + e ∧ bit (t.hd b).irqRaw 1 = true ∧ (t.hd b).cfgGen = (s.hd b).cfgGen)

/-- A fence ends: the block answers again. FENCE_DRAIN_END turns the power state of a fenced block to ON (MEM only while PG_MEM is good) whatever
requesters learn of a lost reply, and changes no register. (R45, R46, R468, log 92) -/
def Obligations.FenceEndsAndRepliesAreLost : Prop :=
  ∀ (s : State) (b : Block) (lost : List Requester), (s.hd b).pwr = .fenced → (b = .mem → s.erm.supply.pgMem = true) →
    ∃ t, exec (.fenceDrainEnd b lost) s = .next t ∧ (t.hd b).pwr = .on ∧ SameBut [.hdr, .hts, .out, .cpu, .hif] s t

/-- A STAGE is refused with the first failing check of R52. DC_STAGE with the target already in SYS_DC_CTRL and CANCEL clear: the result is BUSY
while a change is copying or staged, else BAD_TARGET, BAD_ADDRESS, BAD_LENGTH or NO_PARTIES, the first that fails, and the engine's state and stage
stay; where none fails the state becomes COPYING with target, address and length taken. (R52, R53) -/
def Obligations.StageChecksInOrder : Prop :=
  ∀ (s : State) (p : Principal) (v : Word), s.writeOk .sys 0x300 .w1s p = true → bit v 1 = false → s.reg R.SYS_DC_CTRL = v &&& 0x700 →
    let target := bits v 10 8
    let a := (s.reg R.SYS_DC_SRC_ADDR).toNat
    let n := (s.reg R.SYS_DC_SRC_LEN).toNat
    ∃ t, exec (.dcStage p v) s = .next t ∧ t.sys.sysrec = s.sys.sysrec ∧ t.mem = s.mem ∧
      (if s.sys.dc.state ≠ .idle then t.sys.dc = { s.sys.dc with result := 0x02 }
       else if target = 0 ∨ 5 < target then t.sys.dc = { s.sys.dc with result := 0x0B }
       else if a % 32 ≠ 0 ∨ a < 0x08000000 ∨ 0x09000000 < a + n then t.sys.dc = { s.sys.dc with result := 0x09 }
       else if n = 0 ∨ 0x40000 < n ∨ dcLenOk target n = false then t.sys.dc = { s.sys.dc with result := 0x08 }
       else if s.sys.sysrec.keys.length < 2 then t.sys.dc = { s.sys.dc with result := 0x03 }
       else t.sys.dc.state = .copying ∧ t.sys.dc.target = target ∧ t.sys.dc.src = a ∧ t.sys.dc.len = n ∧ t.sys.dc.partyOk = 0 ∧ t.sys.dc.badTags = 0)

/-- The dual-commit commands complete. CANCEL and the stage timer end a stage with CANCELLED and EXPIRED; a good payload is staged with a fresh nonce
and the digest of R52; SUBMIT queues the tag; a tag that verifies sets PARTY_OK and reports TAG_OK, and the second distinct one applies the change; a
key word and an enrolment are stored in COMMISSIONING; the denied-write log empties. In FIELD a key word or an enrolment changes nothing and records
ENROLL_LOCKED. (R52, R53, R54, R55) -/
def Obligations.DualCommitCommandsComplete : Prop :=
  ∀ (s : State) (p : Principal),
    (s.writeOk .sys 0x300 .w1s p = true → s.sys.dc.state ≠ .idle → ∀ k : Fin 8,
      ∃ t, exec (.dcCancel p k) s = .next t ∧ t.sys.dc.state = .idle ∧ t.sys.dc.result = 0x07) ∧
    (s.sys.dc.state = .staged → ∃ t, exec .dcStageExpired s = .next t ∧ t.sys.dc.state = .idle ∧ t.sys.dc.result = 0x06 ∧ t.sys.sysrec = s.sys.sysrec) ∧
    (s.sys.dc.state = .copying → s.dcPayloadOk s.sys.dc.target (s.load s.sys.dc.src s.sys.dc.len) = true →
      ∃ t, exec .dcCopyDone s = .next t ∧ t.sys.dc.state = .staged ∧ t.sys.dc.nonce = (Config.nonce s.free).toNat ∧ s.free < t.free ∧
        t.sys.dc.digest = sha256 (dcMessage s.sys.dc.target s.sys.dc.len (s.load s.sys.dc.src s.sys.dc.len))) ∧
    (s.writeOk .sys 0x34C .w1s p = true →
      ∃ t, exec (.dcSubmit p) s = .next t ∧ t.sys.dc.verify.length = s.sys.dc.verify.length + 1 ∧ SameBut [.sys] s t) ∧
    (∀ (x : DcTag) (xs : List DcTag) (k : Word) (ks : List Word), s.sys.dc.verify = x :: xs → s.sys.dc.state = .staged → x.stage = some s.sys.dc.stageNo →
      nbit s.sys.dc.partyOk x.party = false → Tab.get [] s.sys.sysrec.keys x.party = k :: ks → dcTagOf (k :: ks) s.sys.dc.digest s.sys.dc.nonce = x.tag →
      ∃ t, exec .dcTagVerify s = .next t ∧ t.sys.dc.partyOk = nput s.sys.dc.partyOk x.party true ∧
        (if 2 ≤ popcount (nput s.sys.dc.partyOk x.party true) 4 then t.sys.dc.result = 0x01 ∧ t.sys.dc.state = .idle
         else t.sys.dc.result = 0x0D ∧ t.sys.sysrec = s.sys.sysrec)) ∧
    (s.sys.sysrec.lifecycle = 1 → ∀ (n : Fin 8) (v : Word), s.writeOk .sys (0x360 + 4 * n.val) .wo p = true →
      ∃ t, exec (.dcKeyWrite p n v) s = .next t ∧ Tab.get 0 t.sys.keyWords n.val = v ∧ t.sys.sysrec = s.sys.sysrec) ∧
    (s.sys.sysrec.lifecycle = 1 → ∀ k : Fin 4, s.writeOk .sys 0x380 .wo p = true → nbit s.sys.enrolled k.val = false →
      ∃ t, exec (.dcEnroll p k true) s = .next t ∧ Tab.get [] t.sys.sysrec.keys k.val = Tab.getList 0 s.sys.keyWords 0 8) ∧
    (s.writeOk .sys 0x110 .w1c p = true → ∃ t, exec (.denyLogClear p) s = .next t ∧ t.sys.deny = none ∧ SameBut [.sys] s t) ∧
    (s.sys.sysrec.lifecycle = 2 → s.present .sys = true → s.permits p 1 = true → ∀ (n : Fin 8) (v : Word) (k : Fin 4) (go : Bool),
      (∃ t, exec (.dcKeyWrite p n v) s = .next t ∧ t.sys = s.sys ∧ (t.hd .sys).errCode = 0x0120) ∧
      (∃ t, exec (.dcEnroll p k go) s = .next t ∧ t.sys = s.sys ∧ (t.hd .sys).errCode = 0x0120))

/-- The quality byte that PTD stores. PTD composes a write's quality in the order of R67: VALID as the source gives it, and never beside COMM_LOST or
SUPPLY; RANGE exactly where the value lies outside EU_LO to EU_HI or a FLOAT32 conversion saturated; SUBST and the substitute value exactly where
substitution is enabled and VALID is 0; FORCED and SIM never; STALE, COMM_LOST and SUPPLY as the source gives them. The value is stored unchanged
where it is not substituted. (R67, Table PTD-5) -/
def Obligations.StoredQualityByte : Prop :=
  ∀ (e : DirEntry) (last : Option Word) (v : Word) (q : Byte) (sat : Bool),
    let r := compose e last v q sat
    r.2.getLsbD 0 = (q.getLsbD 0 && !q.getLsbD 2 && !q.getLsbD 6) ∧ r.2.getLsbD 1 = q.getLsbD 1 ∧ r.2.getLsbD 2 = q.getLsbD 2 ∧
    r.2.getLsbD 3 = false ∧ r.2.getLsbD 4 = (e.substEn && !r.2.getLsbD 0) ∧ r.2.getLsbD 5 = (outOfRange e v.toInt || sat) ∧
    r.2.getLsbD 6 = q.getLsbD 6 ∧ r.2.getLsbD 7 = false ∧
    r.1 = if e.substEn && !r.2.getLsbD 0 then substitute e last else v

/-- An application's write of a hot point: value, quality and time. HOT_ENTRY_WRITE of an aligned 64-bit word by a permitted principal to a hot-bound
INTERNAL point of class B or C that is neither forced nor simulated is stored: a read gives the value in the kind's encoding with the composed
quality and the low 24 bits of network time. Where the point is forced, the read stays the forced entry and the force's shadow takes the write. (R65,
R67, R69, Table PTD-4) -/
def Obligations.AppWriteStoresPoint : Prop :=
  ∀ (s : State) (p : Principal) (h : Fin 524288) (idx : Nat) (v : Word) (q : Byte), s.present .ptd = true → s.permits p Block.ptd.code = true →
    (s.hd .ptd).running = true → h.val < 65536 → s.atHot h.val = some idx → (s.point idx).kind ≠ .none → (s.point idx).kind ≠ .float32 →
    (s.point idx).hot = true → (s.point idx).hotIndex = h.val → (s.point idx).srcType = .internal → ((s.point idx).cls = .b ∨ (s.point idx).cls = .c) →
    let r := compose (s.point idx) (Tab.get none s.ptd.lastValid idx) (encodeKind (s.point idx).kind v) q false
    (s.forceOf idx = none →
      ∃ t, exec (.hotEntryWrite p false h true v q) s = .next t ∧ t.readPoint idx = { value := r.1, q := r.2, timeLo := s.now % 2 ^ 24 } ∧
        t.ptd.dir = s.ptd.dir ∧ t.ptd.act = s.ptd.act ∧ t.ptd.force = s.ptd.force) ∧
    (∀ f, s.forceOf idx = some f → f.sim = false →
      ∃ t, exec (.hotEntryWrite p false h true v q) s = .next t ∧ t.readPoint idx = s.readPoint idx ∧
        t.forceOf idx = some { f with shadow := { value := r.1, q := r.2, timeLo := s.now % 2 ^ 24 } })

/-- A write that R65 does not allow is refused. HOT_ENTRY_WRITE to a point that is neither INTERNAL of class B or C, nor FLOAT32, nor simulated
changes no entry and records POINT_RO; an access that is no aligned 64-bit one changes no entry and records ACCESS_SIZE; a NaN written to a FLOAT32
point changes no entry and records BAD_FLOAT. (R61, R65, Table PTD-8) -/
def Obligations.AppWriteRefusals : Prop :=
  ∀ (s : State) (p : Principal) (cold : Bool) (h : Fin 524288) (idx : Nat) (v : Word) (q : Byte), s.present .ptd = true →
    (cold = true → (s.hd .mem).running = true) →
    (∃ t, exec (.hotEntryWrite p cold h false v q) s = .next t ∧ t.ptd = s.ptd ∧ (t.hd .ptd).errCode = 0x0805) ∧
    (s.permits p Block.ptd.code = true → s.entryPoint cold (if cold then h.val else h.val % 65536) = some idx →
      ((appWritable (s.point idx) = false → (∀ f, s.forceOf idx = some f → f.sim = false) →
        ∃ t, exec (.hotEntryWrite p cold h true v q) s = .next t ∧ t.ptd = s.ptd ∧ (t.hd .ptd).errCode = 0x0825) ∧
       ((s.point idx).kind = .float32 → f32NaN v = true →
        ∃ t, exec (.hotEntryWrite p cold h true v q) s = .next t ∧ t.ptd = s.ptd ∧ (t.hd .ptd).errCode = 0x082A)))

/-- Forcing and simulation of a point. For the point of PTD_FORCE_IDX, where the write reaches PTD_FORCE_CMD: an accepted FORCE makes reads return
PTD_FORCE_VAL with VALID and FORCED; RELEASE of a forced point and SIM_OFF of a simulated one restore the shadow with its quality and time and leave
the table; RELEASE_ALL empties the table; an accepted SIM_ON of a point not in the table keeps value and time and adds SIM; RELEASE of a point that
is not forced changes no entry and reports FORCE_STATE. (R69, R70, R71) -/
def Obligations.ForceAndSimulation : Prop :=
  ∀ (s : State) (p : Principal), s.writeOk .ptd 0x138 .w1s p = true → (s.point s.forceIdx).kind ≠ .none → (s.point s.forceIdx).hot = true →
    (s.forceCheck p s.forceIdx false = 0 →
      ∃ t, exec (.force p) s = .next t ∧ t.ptd.forceResult = 0 ∧
        t.readPoint s.forceIdx = { value := encodeKind (s.point s.forceIdx).kind (s.reg R.PTD_FORCE_VAL), q := 0x09, timeLo := s.now % 2 ^ 24 } ∧
        (t.forceOf s.forceIdx).isSome = true) ∧
    (∀ f, s.forceOf s.forceIdx = some f → f.sim = false →
      ∃ t, exec (.release p) s = .next t ∧ t.ptd.forceResult = 0 ∧ t.readPoint s.forceIdx = f.shadow ∧ t.forceOf s.forceIdx = none) ∧
    (∀ f, s.forceOf s.forceIdx = some f → f.sim = true →
      ∃ t, exec (.simOff p) s = .next t ∧ t.ptd.forceResult = 0 ∧ t.readPoint s.forceIdx = f.shadow ∧ t.forceOf s.forceIdx = none) ∧
    (∃ t, exec (.releaseAll p) s = .next t ∧ t.ptd.forceResult = 0 ∧ t.ptd.force = []) ∧
    (s.forceCheck p s.forceIdx true = 0 → s.forceOf s.forceIdx = none →
      ∃ t, exec (.simOn p) s = .next t ∧ t.ptd.forceResult = 0 ∧ (t.forceOf s.forceIdx).isSome = true ∧
        t.readPoint s.forceIdx = { s.entry s.forceIdx with q := (s.entry s.forceIdx).q ||| 0x80 }) ∧
    (s.forceOf s.forceIdx = none →
      ∃ t, exec (.release p) s = .next t ∧ t.ptd.forceResult = 0x29 ∧ t.ptd.force = s.ptd.force ∧ t.ptd.hot = s.ptd.hot ∧ t.ptd.cold = s.ptd.cold)

/-- Directory entries: GO, check, grant timeout, staleness and the error log. PTD_ENT_GO of a descriptor with COMMIT set, while no commit runs and
SDRAM is there, sets PEND and BUSY; with COMMIT clear it is refused with COMMIT_REFUSED and changes no entry. PTD_ENT_CHECK_DONE refuses with the
first failing check and leaves the directory alone, or, where the recording grant suffices or the device stands outside a fabric, copies the entry,
which waits for the next base frame. HIST_GRANT_TIMEOUT refuses the waiting entry with HIST_FABRIC. STALE_TIMEOUT sets STALE. PTD_UE_LOG_CLEAR
empties the log. (R40, R58, R67, R77, R384, R500, log 87) -/
def Obligations.DirectoryCommandsComplete : Prop :=
  ∀ (s : State) (p : Principal) (idx : Fin 524288),
    (s.writeOk .ptd 0x120 .wo p = true → s.ptd.busy = none → (s.hd .mem).running = true →
      (bit (s.entWord idx.val 7) 31 = true →
        ∃ t, exec (.ptdEntGo p idx) s = .next t ∧ t.ptd.busy = some idx.val ∧ bit (t.entWord idx.val 7) 30 = true ∧ SameBut [.mem, .ptd] s t) ∧
      (bit (s.entWord idx.val 7) 31 = false →
        ∃ t, exec (.ptdEntGo p idx) s = .next t ∧ t.ptd = { s.ptd with result := 0x03, last := idx.val } ∧ t.mem = s.mem ∧
          (t.hd .ptd).errCode = 0x0803)) ∧
    (s.ptd.busy = some idx.val → s.ptd.waitGrant = false →
      let w := fun k => s.entWord idx.val k
      let e := parseDir w
      (s.entCheck idx.val w e ≠ 0 →
        ∃ t, exec .ptdEntCheckDone s = .next t ∧ t.ptd.busy = none ∧ t.ptd.result = s.entCheck idx.val w e ∧ t.ptd.dir = s.ptd.dir ∧ t.ptd.act = s.ptd.act ∧
          t.ptd.effects = s.ptd.effects) ∧
      (s.entCheck idx.val w e = 0 → rateOk (histRate ((s.dirWith idx.val e).map (·.2))) = true → s.ave.assigned = false →
        ∃ t, exec .ptdEntCheckDone s = .next t ∧ t.ptd.busy = none ∧ t.ptd.result = 0 ∧ t.ptd.last = idx.val ∧
          (t.ptd.effects.contains idx.val) = true ∧ t.ptd.act = s.ptd.act)) ∧
    (s.ptd.busy = some idx.val → s.ptd.waitGrant = true → s.ave.grantWait.isSome = true →
      ∃ t, exec .histGrantTimeout s = .next t ∧ t.ptd.busy = none ∧ t.ptd.result = errHistFabric ∧ t.ptd.dir = s.ptd.dir ∧ t.ave.grantWait = none) ∧
    ((s.point idx.val).staleN ≠ 0 → framed (s.point idx.val).srcType = true → s.canWrite idx.val = true → s.forceOf idx.val = none →
      ∃ t, exec (.staleTimeout idx.val) s = .next t ∧ (t.readPoint idx.val).q.getLsbD 1 = true) ∧
    (s.writeOk .ptd 0x160 .w1c p = true → exec (.ptdUeLogClear p) s = .next { s with ptd := { s.ptd with ueLog := none } })

/-- A base-frame boundary advances time. With PD_RT on, no TIM_SET waiting and no Avenue frame held by an injected delay, BASE_FRAME_BOUNDARY takes
network time to the next multiple of 1000 ns (the microsecond count since power-up and mtime advance with it, log 96); with PD_RT off nothing falls
due. (R11, R419, log 96) -/
def Obligations.BaseFrameAdvancesTime : Prop :=
  ∀ s : State,
    (s.present .tim = true → s.tim.setPend = none → (∀ p, p < 6 → (s.aport p).inj.delayed = []) →
      ∃ t, exec .baseFrameBoundary s = .next t ∧ t.tim.net = s.tim.net - s.tim.net % 1000 + 1000 ∧ t.upUs = s.upUs + 1) ∧
    (s.present .tim = false → exec .baseFrameBoundary s = .next s)

/-- A loop commit is applied whole or refused and changes nothing. CE_LOOP_GO for an editing copy with COMMIT set starts the commit and sets PEND;
LOOP_COMMIT_DONE applies the descriptor to every lane's copy, with COMMIT and PEND clear and no loop's state changed but for its place in the delay
line, and result 0, where the checks and the admission pass, and otherwise leaves every active descriptor and placement as it was and reports the
first failing check in CE_LOOP_STAT and BLK_ERR. (R80, R82, R106, R107, R108, R500) -/
def Obligations.LoopCommitAppliesOrRefuses : Prop :=
  (∀ (s : State) (p : Principal) (n : Fin 1024), s.writeOk .ce 0x100 .wo p = true → s.ce.goBusy = none → bit (s.loopWord n.val 63) 31 = true →
    ∃ t, exec (.ceLoopGo p n) s = .next t ∧ t.ce = { s.ce with goBusy := some n.val } ∧ bit (t.loopWord n.val 63) 30 = true ∧ SameBut [.ce, .mem] s t) ∧
  (∀ (s : State) (n : Nat), s.ce.goBusy = some n →
    let w := fun k => if k = 63 then clrBit (clrBit (s.loopWord n 63) 31) 30 else s.loopWord n k
    let d := parseLoop w
    (s.loopCheck n d w = 0 → ∀ pl, s.loopAdmit n d = (0, pl) → d.law ≠ .none →
      ∃ t, exec .loopCommitDone s = .next t ∧ t.loop n = d ∧ Tab.get {} t.ce.place n = pl ∧ t.ce.goBusy = none ∧ t.ce.goResult = 0 ∧
        (∀ l : Fin 3, t.laneDesc l.val n = d) ∧ (∀ k, k ≠ n → t.loopSt k = s.loopSt k) ∧ t.loopSt n = { s.loopSt n with dlyPtr := (t.loopSt n).dlyPtr } ∧
        t.loopWord n 63 = clrBit (clrBit (s.loopWord n 63) 31) 30) ∧
    (∀ e, (if s.loopCheck n d w ≠ 0 then s.loopCheck n d w else (s.loopAdmit n d).1) = e → e ≠ 0 → e < 256 →
      ∃ t, exec .loopCommitDone s = .next t ∧ t.ce.desc = s.ce.desc ∧ t.ce.place = s.ce.place ∧ t.ce.goBusy = none ∧ t.ce.goResult = e ∧
        (t.hd .ce).errCode = 0x0900 + e ∧ t.loopWord n 63 = clrBit (clrBit (s.loopWord n 63) 31) 30))

/-- Mode commands that Table CE-4 allows are accepted and wait for the next evaluation. For a loop in use while the Crossing votes: OFF, MANUAL, SAFE
and KEEP are accepted in every mode, AUTO unless the loop is in SAFE or its latch holds TO_MANUAL or SAFE_OUTPUT, CASCADE under the same conditions
with the link condition. The command waits for the next evaluation, CE_MODE_STAT reports 0 and nothing else changes. SET_MAN adds the manual target.
(R101, R102, R122) -/
def Obligations.ModeCommandsAccepted : Prop :=
  ∀ (s : State) (p : Principal) (n : Fin 1024), s.writeOk .ce 0x108 .wo p = true → s.loopUsed n.val = true → s.voting = true →
    let st := s.loopSt n.val
    let free := st.mode ≠ .safe ∧ ¬(st.tripSrc ≠ 0 ∧ 2 ≤ st.react)
    let taken := fun (m : Option LMode) (man : Option Int) (t : State) =>
      Tab.get {} t.ce.pend n.val = { Tab.get {} s.ce.pend n.val with
          cmd := some { mode := m, cause := 0 }, man := match man with | some v => some v | none => (Tab.get {} s.ce.pend n.val).man } ∧
        t.ce.modeLoop = n.val ∧ t.ce.modeResult = 0 ∧ t.ce.lanes = s.ce.lanes ∧ t.ce.view = s.ce.view ∧ SameBut [.ce] s t
    (∃ t, exec (.loopCmdOff p n) s = .next t ∧ taken (some .off) none t) ∧
    (∃ t, exec (.loopCmdManual p n) s = .next t ∧ taken (some .manual) none t) ∧
    (∃ t, exec (.loopCmdSafe p n) s = .next t ∧ taken (some .safe) none t) ∧
    (∃ t, exec (.loopCmdKeep p n) s = .next t ∧ taken none none t) ∧
    (free → ∃ t, exec (.loopCmdAuto p n) s = .next t ∧ taken (some .auto) none t) ∧
    (free → s.linkOk n.val = true → ∃ t, exec (.loopCmdCascade p n) s = .next t ∧ taken (some .cascade) none t) ∧
    (∀ man : BitVec 16, ∃ t, exec (.loopSetMan p n (some .manual) man) s = .next t ∧ taken (some .manual) (some man.toInt) t)

/-- Mode commands that Table CE-4 refuses change no loop. AUTO and CASCADE under a latched TO_MANUAL or SAFE_OUTPUT are refused with TRIP_LATCHED in
every mode. Without such a latch AUTO and CASCADE in SAFE and, while no vote is taken, every command but OFF are refused with MODE_REFUSED; CASCADE
without the link records MODE_REFUSED and reports CASC_LINK. Nothing waits for the loop, BLK_ERR holds the code recorded and CE_MODE_STAT the result.
(R101, R102, R122, R146, R155) -/
def Obligations.ModeCommandsRefused : Prop :=
  ∀ (s : State) (p : Principal) (n : Fin 1024), s.writeOk .ce 0x108 .wo p = true → s.loopUsed n.val = true →
    let st := s.loopSt n.val
    let latched := st.tripSrc ≠ 0 ∧ 2 ≤ st.react
    let no := fun (r e : Nat) (t : State) => t.ce.pend = s.ce.pend ∧ t.ce.view = s.ce.view ∧ t.ce.modeResult = r ∧ (t.hd .ce).errCode = 0x0900 + e
    (latched → (∃ t, exec (.loopCmdAuto p n) s = .next t ∧ no 0x2F 0x2F t) ∧ (∃ t, exec (.loopCmdCascade p n) s = .next t ∧ no 0x2F 0x2F t)) ∧
    (¬latched → s.xng.mode ≠ .none → st.mode = .safe →
      (∃ t, exec (.loopCmdAuto p n) s = .next t ∧ no 0x28 0x28 t) ∧ (∃ t, exec (.loopCmdCascade p n) s = .next t ∧ no 0x28 0x28 t)) ∧
    (s.xng.mode = .none → (∃ t, exec (.loopCmdManual p n) s = .next t ∧ no 0x28 0x28 t) ∧ (∃ t, exec (.loopCmdSafe p n) s = .next t ∧ no 0x28 0x28 t) ∧
      (∃ t, exec (.loopCmdKeep p n) s = .next t ∧ no 0x28 0x28 t) ∧
      (¬latched → (∃ t, exec (.loopCmdAuto p n) s = .next t ∧ no 0x28 0x28 t) ∧ (∃ t, exec (.loopCmdCascade p n) s = .next t ∧ no 0x28 0x28 t))) ∧
    (¬latched → s.xng.mode ≠ .none → s.linkOk n.val = false → (st.mode = .off ∨ st.mode = .manual ∨ st.mode = .auto) →
      ∃ t, exec (.loopCmdCascade p n) s = .next t ∧ no 0x25 0x28 t)

/-- Supervision, ramp and table commands complete. SUP_ACK of a set latch and SUP_ALIGN wait for the loop's next evaluation with result 0;
CE_RAMP_CMD of a loop in AUTO with a rate waits likewise; CE_TAB_GO of a header with COMMIT set sets PEND and starts the copy, and TAB_COPY_DONE
leaves a table that passes the checks in the standby bank while the active table stays. (R118, R122, R128, R131) -/
def Obligations.SupervisionCommandsComplete : Prop :=
  ∀ (s : State) (p : Principal) (n : Fin 1024),
    (s.writeOk .ce 0x300 .wo p = true → s.loopUsed n.val = true → (s.loopSt n.val).tripSrc ≠ 0 → ∀ al,
      ∃ t, exec (.supAck p n al) s = .next t ∧ (Tab.get {} t.ce.pend n.val).ack = true ∧ t.ce.supLoop = n.val ∧ t.ce.supResult = 0 ∧ t.ce.view = s.ce.view ∧ SameBut [.ce] s t) ∧
    (s.writeOk .ce 0x300 .wo p = true → s.loopUsed n.val = true →
      ∃ t, exec (.supAlign p n) s = .next t ∧ (Tab.get {} t.ce.pend n.val).align = true ∧ t.ce.supLoop = n.val ∧ t.ce.supResult = 0 ∧ t.ce.view = s.ce.view ∧ SameBut [.ce] s t) ∧
    (s.writeOk .ce 0x308 .wo p = true → (s.loopSt n.val).mode = .auto → ∀ r : BitVec 16, (r.toNat ≠ 0 ∨ (s.loop n.val).spRamp ≠ 0) →
      ∃ t, exec (.ceRampCmd p n r) s = .next t ∧ (Tab.get {} t.ce.pend n.val).ramp = some r.toNat ∧ t.ce.supResult = 0 ∧ t.ce.view = s.ce.view ∧ SameBut [.ce] s t) ∧
    (∀ k : Fin 16, s.writeOk .ce 0x320 .wo p = true → s.ce.tabBusy = none → bit (s.tabHdr k.val 7) 31 = true →
      ∃ t, exec (.ceTabGo p k) s = .next t ∧ t.ce = { s.ce with tabBusy := some k.val } ∧ bit (t.tabHdr k.val 7) 30 = true ∧ SameBut [.ce, .regs] s t) ∧
    (∀ k, s.ce.tabBusy = some k → (s.tabUnpend k).tabCheck k ((s.tabUnpend k).parseTab k) = 0 →
      ∃ t, exec .tabCopyDone s = .next t ∧ Tab.get none t.ce.tabNext k = some ((s.tabUnpend k).parseTab k) ∧ t.ce.tabs = s.ce.tabs ∧ SameBut [.ce] s t)

/-- A voted evaluation gives every voting lane the evaluated state. For a loop of a rate class that no outer loop divides, while CE runs, no output
of the Crossing is withheld, no lane is faulty and the voting lanes hold one state and the committed descriptor and tables: LOOP_EVALUATION leaves
the evaluated state in every voting lane and in CE_STATE. (R93, R110, R139, R141) -/
def Obligations.LoopEvaluationCompletes : Prop :=
  ∀ (s : State) (n : Fin 1024) (st : LoopState), (s.loop n.val).law ≠ .none → (s.loop n.val).rate ≠ 5 → (s.hd .ce).running = true →
    s.outerOf n.val = none → s.xng.mode ≠ .none → s.xng.voterFault = false → s.xng.lossDue = false → s.votingLanes ≠ [] → (s.votingLanes.length = 1 → s.singleAllowed = true) →
    (∀ l ∈ s.votingLanes, s.laneLoop l n.val = st ∧ s.laneDesc l n.val = s.loop n.val ∧ ∀ k, s.laneTab l k = Tab.get {} s.ce.tabs k) → (s.loopSt n.val).mode ≠ .off →
    let o := (evalLoop (s.loop n.val) (s.loopIn n.val false) st).1
    ∃ t, exec (.loopEvaluation n [] [] false false) s = .next t ∧ t.loopSt n.val = o.st ∧ (∀ l ∈ s.votingLanes, t.laneLoop l n.val = o.st) ∧
      t.xng.votes = wrapInc s.xng.votes

/-- The limits hold. The computed output of a law lies in OUT_LO to OUT_HI where no rate limit is set, and with a rate limit it lies within one step
of the previous output; from a previous output inside the limits it stays inside them. (R94) -/
def Obligations.OutputStaysInLimits : Prop :=
  ∀ (d : LoopDesc) (r y x : Int) (st : LoopState), d.outLo ≤ d.outHi →
    let u := (computeLoop d r y x st).u
    (d.rateLim = 0 → d.outLo ≤ u ∧ u ≤ d.outHi) ∧
    (d.rateLim ≠ 0 → st.u - d.rateLim ≤ u ∧ u ≤ st.u + d.rateLim ∧ (d.outLo ≤ st.u → st.u ≤ d.outHi → d.outLo ≤ u ∧ u ≤ d.outHi))

/-- Tracking makes the law's output equal the manual output. Where nothing saturates, the integrator that R103 sets makes P + I + d stored to Q15
equal the output u. (R84, R103) -/
def Obligations.TrackingIsBumpless : Prop :=
  ∀ (u : Int) (p d : Acc), -32768 ≤ u → u ≤ 32767 → -(2 ^ 37) ≤ p.v → p.v ≤ 2 ^ 37 → -(2 ^ 37) ≤ d.v → d.v ≤ 2 ^ 37 →
    storeQ (((p.add (acc (trackI u p d).v)).add d).v) = ⟨u, false⟩

/-- A table's value lies between its two entries, and a ramp never passes its target. R125: c of a PERIODIC, CLAMPED or FRICTION table lies between
T[i] and T[j] for two of its 1024 entries; R130: a ramp step moves r toward T by at most the rate and never past it. (R125, R130) -/
def Obligations.TableAndRampBounds : Prop :=
  (∀ (t : CompTab) (p : Word) (neg : Bool), 1 ≤ t.type → t.type ≤ 3 → ∃ i j : Nat, i < 1024 ∧ j < 1024 ∧
    let a := Tab.get 0 t.entries i
    let b := Tab.get 0 t.entries j
    min a b ≤ tabEval t p neg ∧ tabEval t p neg ≤ max a b) ∧
  (∀ (r g : Int) (k : Nat), (r ≤ g → r ≤ rampStep r g k ∧ rampStep r g k ≤ g ∧ rampStep r g k ≤ r + k) ∧
    (g ≤ r → g ≤ rampStep r g k ∧ rampStep r g k ≤ r ∧ r - k ≤ rampStep r g k))

/-- The Crossing's commands and timers complete. TEST takes a voting lane to BIST in TRIPLE, RETRY a FAILED lane, RESTART is accepted where R154
allows it; a completed copy leaves the lane with the source's descriptors and tables, unless their CRCs collide; a BIST that passes or fails, a
completed copy, the decay of a fault count and a due or postponed rolling test have their effects. (R148, R149, R150, R151, R152, R154) -/
def Obligations.CrossingCommandsComplete : Prop :=
  ∀ (s : State) (p : Principal) (l : Fin 3),
    (s.writeOk .xng 0x10C .wo p = true → s.xng.mode = .triple → s.votingLanes = [0, 1, 2] → s.xng.reacted = false → s.xng.lossDue = false →
      ∃ t, exec (.xngTest p l) s = .next t ∧ (t.lane l.val).state = .bist ∧ (t.lane l.val).cause = 5 ∧ t.xng.mode = .dual) ∧
    (s.writeOk .xng 0x10C .wo p = true → s.xng.mode ≠ .triple → ∃ t, exec (.xngTest p l) s = .next t ∧ t.xng = s.xng ∧ (t.hd .xng).errCode = 0x0A20) ∧
    (s.writeOk .xng 0x10C .wo p = true → (s.lane l.val).state = .failed →
      ∃ t, exec (.xngRetry p l) s = .next t ∧ (t.lane l.val).state = .bist ∧ (t.lane l.val).cause = 4 ∧ (t.lane l.val).fltCnt = (s.lane l.val).fltCnt) ∧
    (s.writeOk .xng 0x10C .wo p = true → s.xng.mode = .none → 2 ≤ (s.lanesIn .halted).length → s.haltedAgree = true →
      ∀ c, ∃ t, exec (.xngRestart p c) s = .next t ∧ t.xng = { s.xng with restart := true } ∧ SameBut [.xng] s t) ∧
    ((s.lane l.val).state = .bist → (s.lane l.val).passed = false →
      (∃ t, exec (.laneBistEnd l 0) s = .next t ∧ (t.lane l.val).passed = true ∧ (t.lane l.val).bistFail = (s.lane l.val).bistFail ∧ t.xng.testLane = l.val ∧ t.xng.testResult = 0) ∧
      (∀ r : Fin 3, r ≠ 0 → ∃ t, exec (.laneBistEnd l r) s = .next t ∧ (t.lane l.val).state = .failed ∧ (t.lane l.val).bistFail = true ∧ t.xng.testResult = r.val)) ∧
    ((s.lane l.val).state = .copy → ∀ c t10, ∃ t, exec (.laneStateCopyDone l c t10) s = .next t ∧ (t.lane l.val).copied = true ∧
      t.xng.rejoinLane = l.val ∧ t.xng.rejoinRepair = (!s.sameCfg l.val (s.lane l.val).copySrc && !c) ∧
      (c = false → t.cfg l.val = s.cfg (s.lane l.val).copySrc) ∧ SameBut [.xng, .ce] s t) ∧
    ((s.lane l.val).state = .voting → ∃ t, exec (.fltDecayExpiry l) s = .next t ∧ (t.lane l.val).fltCnt = (s.lane l.val).fltCnt - 1 ∧ SameBut [.xng] s t) ∧
    ((s.hd .xng).running = true → exec .rollingTestDue s = .next (s.updXng fun x => { x with due := true })) ∧
    (s.xng.due = true → s.xng.overdue = false → ∃ t, exec .rollingTestOverdue s = .next t ∧ t.xng.overdue = true)

/-- The vote of Table XNG-2. Of three voting lanes, equal words give a written result and leave every lane voting; a single differing word is
outvoted, the majority's result is written and the minority lane leaves the vote; three different words write nothing and end in mode NONE. Two
voting lanes that differ write nothing and end in mode NONE. This holds while no voter fault stands. (R141, R143, R145, R146) -/
def Obligations.VoteFollowsTheMajority : Prop :=
  ∀ (s : State) (item : Nat) (w : Nat → Nat), s.xng.voterFault = false →
    (s.votingLanes = [0, 1, 2] →
      (w 0 = w 1 → w 1 = w 2 → s.voteWords item false w = (s, some 0)) ∧
      (w 0 = w 1 → w 1 ≠ w 2 → (s.voteWords item false w).2 = some 0 ∧ 2 ∉ (s.voteWords item false w).1.votingLanes) ∧
      (w 0 = w 2 → w 0 ≠ w 1 → (s.voteWords item false w).2 = some 0 ∧ 1 ∉ (s.voteWords item false w).1.votingLanes) ∧
      (w 1 = w 2 → w 0 ≠ w 1 → (s.voteWords item false w).2 = some 1 ∧ 0 ∉ (s.voteWords item false w).1.votingLanes) ∧
      (w 0 ≠ w 1 → w 1 ≠ w 2 → w 0 ≠ w 2 → (s.voteWords item false w).2 = none ∧
        (s.xng.mode = .triple → s.xng.reacted = false → (s.voteWords item false w).1.xng.mode = .none))) ∧
    (s.votingLanes = [0, 1] → w 0 ≠ w 1 → (s.voteWords item false w).2 = none ∧
      (s.xng.mode = .dual → s.xng.reacted = false → (s.voteWords item false w).1.xng.mode = .none))

/-- Stream commands that Table RSQ-10 lists are accepted and wait. START toward a VALID step, HOLD, RESUME, PAUSE, ABORT, PARK, RESET, RECHECK and
DISCARD are accepted in the states of Table RSQ-10 while evaluations are allowed: the command waits for its evaluation or tick, RSQ_CMD_STAT reports
0 and nothing else changes. (R172, R178) -/
def Obligations.StreamCommandsAccepted : Prop :=
  ∀ (s : State) (p : Principal) (n : Fin 64), s.writeOk .rsq 0x100 .wo p = true → s.rsq.loading = false → s.xng.mode ≠ .none →
    let st := (s.stream n.val).state
    let ended := st = .idle ∨ st = .done ∨ st = .abort ∨ st = .fault ∨ st = .park ∨ st = .resumePending
    let ok := fun (i : Instr) (c : SCmd) => ∃ t, exec i s = .next t ∧ t.stream n.val = { s.stream n.val with cmds := (s.stream n.val).cmds ++ [c] } ∧
      t.rsq.cmdStream = n.val ∧ t.rsq.cmdResult = 0 ∧ SameBut [.rsq] s t
    (∀ k : BitVec 16, ended → s.stepValid n.val k.toNat = true → ok (.streamStart p n k) (.start k.toNat)) ∧
    (st = .run ∨ st = .pause → ok (.streamHold p n) .hold) ∧
    (st = .hold ∨ st = .pause → ok (.streamResume p n) .resume) ∧
    (st = .run → ok (.streamPause p n) .pause) ∧
    (st = .run ∨ st = .pause ∨ st = .hold ∨ st = .park → ok (.streamAbort p n) .abort) ∧
    (st = .run ∨ st = .pause ∨ st = .hold ∨ (st = .resumePending ∧ s.stepValid n.val (s.stream n.val).parkStep = true) → ok (.streamPark p n) .park) ∧
    (st = .done ∨ st = .abort ∨ st = .fault ∨ st = .park → ok (.streamReset p n) .reset) ∧
    (st = .resumePending → ok (.streamRecheck p n) .recheck ∧ ok (.streamDiscard p n) .discard)

/-- A stream command that Table RSQ-10 does not list is refused. PAUSE outside RUN, RESET and START while steps are executed or held, RECHECK and
DISCARD outside RESUME_PENDING are refused with STREAM_STATE, and while R161 forbids evaluation START and RESUME are refused with XNG_NOT_READY. The
streams stay as they were. (R161, R172) -/
def Obligations.StreamCommandsRefused : Prop :=
  ∀ (s : State) (p : Principal) (n : Fin 64), s.writeOk .rsq 0x100 .wo p = true → s.rsq.loading = false →
    let st := (s.stream n.val).state
    let no := fun (i : Instr) (e : Nat) => ∃ t, exec i s = .next t ∧ t.rsq.streams = s.rsq.streams ∧ t.rsq.cmdResult = e ∧ (t.hd .rsq).errCode = 0x0B00 + e
    (st ≠ .run → no (.streamPause p n) 0x20) ∧
    (st = .run ∨ st = .pause ∨ st = .hold → no (.streamReset p n) 0x20 ∧ ∀ k, no (.streamStart p n k) 0x20) ∧
    (st ≠ .resumePending → no (.streamRecheck p n) 0x20 ∧ no (.streamDiscard p n) 0x20) ∧
    (s.xng.mode = .none → (st = .idle → ∀ k, no (.streamStart p n k) 0x25) ∧ (st = .hold → no (.streamResume p n) 0x25))

/-- A step commit copies the checked entry or refuses it. RSQ_STEP_GO of an entry in mapped memory with COMMIT set sets PEND and starts the commit;
STEP_COMMIT_DONE of an entry that passes reports 0 and writes its words with VALID set into the active area, and of one that fails reports the code;
no commit changes a stream. (R162, R163, R164, R165) -/
def Obligations.StepCommitCopiesOrRefuses : Prop :=
  (∀ (s : State) (p : Principal) (n : Fin 64) (k : BitVec 16), s.writeOk .rsq 0x108 .wo p = true → s.rsq.loading = false → s.rsq.stepBusy = none →
    let a := stepAddr (s.stream n.val).editBase k.toNat
    inSdram s a 64 = true → bit (s.mem32 (a + 28)) 31 = true →
    ∃ t, exec (.rsqStepGo p n k) s = .next t ∧ t.rsq = { s.rsq with stepBusy := some (n.val, k.toNat) } ∧ t.mem32 (a + 28) = setBit (s.mem32 (a + 28)) 30 ∧ SameBut [.rsq, .mem] s t) ∧
  (∀ (s : State) (n k : Nat), s.rsq.stepBusy = some (n, k) →
    let x := s.stream n
    let ws := s.entryWords x.editBase k
    let chk := s.stepCheck n k ((ws.take 7) ++ [nth 0 ws 7 &&& 0x1FFFFFFF] ++ ws.drop 8) (s.actWords x.editBase ws)
    ∃ t, exec .stepCommitDone s = .next t ∧ t.rsq.streams = s.rsq.streams ∧ t.rsq.stepBusy = none ∧ t.rsq.stepStream = n ∧ t.rsq.stepNo = k ∧
      bit (t.hd .rsq).irqRaw 8 = true ∧
      (chk ≠ 0 → chk < 256 → t.rsq.stepResult = chk ∧ (t.hd .rsq).errCode = 0x0B00 + chk) ∧
      (chk = 0 → inSdram s (stepAddr x.actBase k) 64 = true → t.rsq.stepResult = 0 ∧
        (stepField ws 5 21 16 = 0 → ∀ j < 7, t.mem32 (stepAddr x.actBase k + 4 * j) = nth 0 ws j) ∧
        (stepField ws 5 21 16 = 0 → bit (t.mem32 (stepAddr x.actBase k + 28)) 29 = true)))

/-- Evaluations and ticks of one running stream. With one stream that evaluates, no fault and no command waiting: an evaluation between ticks leaves
E and holds the decision that R170 gives; a tick without a decision adds 1 to E; a tick with a START toward a VALID step without actions enters it in
RUN with E = 0. Every other stream stays as it was. (R161, R169, R170, R172) -/
def Obligations.StreamEvaluationCompletes : Prop :=
  ∀ (s : State) (n : Nat), s.present .rsq = true → (s.hd .rsq).run = true → (s.hd .rsq).running = true → s.xng.mode ≠ .none → s.xng.voterFault = false → s.xng.lossDue = false →
    Tab.wf {} s.rsq.streams = true → (∀ m, m ≠ n → (s.stream m).evaluates = false) →
    let x := s.stream n
    (x.state = .run → x.cmds = [] → x.fence = false → x.ckptDue = false → x.held = 0 →
      let c := s.condsEval x
      let d := decision x.cur c.2 x.elapsed
      ∃ t, exec (.streamEvaluation [] {}) s = .next t ∧ t.stream n = { c.1 with conds := c.2, held := d.1, heldCond := if d.1 = 0 then c.1.heldCond else d.2 } ∧
        (∀ m, m ≠ n → t.stream m = s.stream m)) ∧
    (x.state = .run → x.cmds = [] → x.fence = false → x.expiry = false → x.held = 0 → x.ckptEn = false →
      let y := { x with elapsed := (x.elapsed + 1) % 2 ^ 32 }
      (decision x.cur (s.condsEval y).2 y.elapsed).1 = 0 →
      ∃ t, exec (.stepTick [] {}) s = .next t ∧ (t.stream n).elapsed = (x.elapsed + 1) % 2 ^ 32 ∧ (t.stream n).state = .run ∧ (t.stream n).step = x.step ∧
        (∀ m, m ≠ n → t.stream m = s.stream m)) ∧
    (∀ k, x.state = .idle → x.cmds = [.start k] → x.expiry = false → s.stepValid n k = true → stepField (s.entryWords x.actBase k) 5 21 16 = 0 →
      ∃ t, exec (.stepTick [] {}) s = .next t ∧ (t.stream n).state = .run ∧ (t.stream n).step = k ∧ (t.stream n).elapsed = 0 ∧ (t.stream n).cmds = [] ∧
        (t.stream n).cur = s.entryWords x.actBase k ∧ (∀ m, m ≠ n → t.stream m = s.stream m))

/-- Resume, prefetch and window commands complete. RSQ_RESUME_GO makes the check of every pending stream that none has checked due; a wait that
expires with a slot that is not usable refuses with POINT_BAD; a prefetch is noted; STFLAG bits are set; variables and, while the stream is at rest,
configuration words take the value written. (R166, R171, R179, R180, R182) -/
def Obligations.StreamWindowAndResumeComplete : Prop :=
  ∀ (s : State) (p : Principal) (n : Fin 64),
    (s.writeOk .rsq 0x110 .w1s p = true → s.rsq.loading = false → (s.stream n.val).state = .resumePending → (s.stream n.val).check = .none →
      Tab.wf {} s.rsq.streams = true →
      ∃ t, exec (.rsqResumeGo p) s = .next t ∧ t.stream n.val = { s.stream n.val with check := .due false } ∧ SameBut [.rsq] s t) ∧
    (∀ (b j : Nat), (s.stream n.val).check = .waiting → s.newestCkpt n.val = some b →
      (critical (s.stream n.val) (s.ckptWords n.val b)).find? (fun j => !usable (s.readPoint ((s.stream n.val).slotPt j)).q) = some j →
      ∃ t, exec (.resumeWaitExpiry n) s = .next t ∧ (t.stream n.val).reason = 0x0C ∧ (t.stream n.val).param = j * 2 ^ 20 + (s.stream n.val).slotPt j ∧
        (t.stream n.val).state = (s.stream n.val).state) ∧
    exec (.stepPrefetchDone n) s = .next (s.updStream n.val fun x => { x with prefetched := true }) ∧
    (s.present .rsq = true → s.permits p 11 = true → s.rsq.loading = false → ∀ m,
      exec (.stflagSet p n m) s = .next (s.updStream n.val fun x => { x with stflag := x.stflag ||| m })) ∧
    (s.present .rsq = true → s.permits p 11 = true → (s.hd .rsq).lock = false → s.rsq.loading = false → ∀ (off : Fin 1024) (v : Word),
      (128 ≤ off.val → off.val < 192 →
        ∃ t, exec (.streamWindowWrite p n off v) s = .next t ∧ (t.stream n.val).var (off.val - 128) = v ∧ SameBut [.rsq] s t) ∧
      (∀ m, winMask (4 * off.val) = some m → winRange (4 * off.val) v = true → off.val ≠ 0 → (s.stream n.val).state = .idle →
        ∃ t, exec (.streamWindowWrite p n off v) s = .next t ∧ (t.stream n.val).word (4 * off.val) = v &&& m ∧ SameBut [.rsq] s t) ∧
      (winMask (4 * off.val) ≠ none → (s.stream n.val).state = .run →
        ∃ t, exec (.streamWindowWrite p n off v) s = .next t ∧ t.rsq = s.rsq ∧ (t.hd .rsq).errCode = 0x0B01))

/-- A run of action entries is committed whole or not at all. CSC_ACT_GO of a run whose entries all carry COMMIT starts the check; ACT_COMMIT_DONE of
a run that passes keeps it for the next base-frame boundary with result 0 and ACT_DONE; a run with a failing entry applies nothing, and CSC_ACT_STAT
reports that entry and its code. The active table changes in neither case. (R190, R193) -/
def Obligations.ActionRunIsAtomic : Prop :=
  (∀ (s : State) (p : Principal) (first : Fin 65536) (count : Fin 256), s.writeOk .csc 0x100 .wo p = true → s.csc.busy = none →
    (∀ n ∈ runOf first.val (count.val + 1), bit (s.mem32 (actEdit n)) 31 = true) →
    ∃ t, exec (.cscActGo p first count) s = .next t ∧ t.csc = { s.csc with busy := some (first.val, count.val + 1) } ∧ SameBut [.csc, .mem] s t) ∧
  (∀ (s : State) (first count : Nat), s.csc.busy = some (first, count) →
    let run := runOf first count
    let rem := ((s.actAfter run).filter fun x => decide (x.2.action = .remote)).map fun x => x.2.remote
    ((s.runCheck run).1 = 0 → rem = s.remoteTgts →
      ∃ t, exec .actCommitDone s = .next t ∧ t.csc.ents = s.csc.ents ∧ t.csc.busy = none ∧ t.csc.actResult = 0 ∧ t.csc.actFail = 0 ∧
        (∀ n ∈ run, (n, s.actDesc n) ∈ t.csc.next) ∧ bit (t.hd .csc).irqRaw 8 = true) ∧
    ((s.runCheck run).1 ≠ 0 →
      ∃ t, exec .actCommitDone s = .next t ∧ t.csc.ents = s.csc.ents ∧ t.csc.next = s.csc.next ∧ t.csc.busy = none ∧
        t.csc.actResult = (s.runCheck run).1 ∧ t.csc.actFail = (s.runCheck run).2 ∧ bit (t.hd .csc).irqRaw 8 = true))

/-- Arms and cancels of a group. ARM and ARM_REL of a group with valid entries, none of them REMOTE, that is not armed are accepted and wait for the
base-frame boundary; an empty or an armed group is refused with GROUP_EMPTY or GROUP_ARMED. CANCEL of a group whose one entry is SENT advances the
epoch of its station's slot, and the entry goes to CANCELLED where its fire instant lies at or after the acceptance plus B_s and to LATE otherwise.
(R195, R205) -/
def Obligations.ArmsAndCancels : Prop :=
  ∀ (s : State) (p : Principal) (g : Fin 256) (t : Nat), s.writeOk .csc 0x108 .wo p = true →
    (s.groupEnts g.val ≠ [] → s.groupArmed g.val = false → (∀ n ∈ s.groupEnts g.val, (s.ent n).desc.action ≠ .remote) →
      (∃ u, exec (.cscArm p g t) s = .next u ∧ u.csc.arms = s.csc.arms ++ [{ group := g.val, rel := false, base := none, rsq := false }] ∧ u.csc.armGroup = g.val ∧
        u.csc.armResult = 0 ∧ u.csc.armCount = (s.groupEnts g.val).length ∧ u.csc.ents = s.csc.ents ∧ SameBut [.csc] s u) ∧
      (∃ u, exec (.cscArmRel p g t) s = .next u ∧ u.csc.arms = s.csc.arms ++ [{ group := g.val, rel := true, base := none, rsq := false }] ∧ u.csc.armGroup = g.val ∧
        u.csc.armResult = 0 ∧ u.csc.ents = s.csc.ents ∧ SameBut [.csc] s u)) ∧
    (s.groupEnts g.val = [] → ∃ u, exec (.cscArm p g t) s = .next u ∧ u.csc.arms = s.csc.arms ∧ u.csc.armResult = 0x26 ∧ (u.hd .csc).errCode = 0x0C26) ∧
    (s.groupEnts g.val ≠ [] → s.groupArmed g.val = true →
      ∃ u, exec (.cscArm p g t) s = .next u ∧ u.csc.arms = s.csc.arms ∧ u.csc.armResult = 0x27 ∧ (u.hd .csc).errCode = 0x0C27) ∧
    (∀ n, s.groupEnts g.val = [n] → (s.agroup g.val).state = .armed → (s.ent n).state = .sent →
      let r := (s.ent n).desc.remote
      let bs := (s.sta r.port r.station).bs
      ∃ u, exec (.cscCancel p g t) s = .next u ∧ u.epoch r.port r.station (g.val % 16) = (s.epoch r.port r.station (g.val % 16) + 1) % 256 ∧
        (u.ent n).state = (if t * 5 / 2 + bs ≤ (s.ent n).tFire then .cancelled else .late) ∧
        u.csc.armResult = (if t * 5 / 2 + bs ≤ (s.ent n).tFire then 0 else 0x2B))

/-- An armed entry fires where its coordinate crosses its position, and not before. COORD_CROSSING of an armed local entry of a VALID coordinate:
where the crossing test of R197 finds no crossing nothing changes; where it does and the tick has a firing left, the entry is FIRED, or stays ARMED
with REPEAT, and the crossing instant t_x is kept (a REF_TIME entry fires early by its L_FIX). (R188, R197, R198, R200) -/
def Obligations.CrossingFiresTheEntry : Prop :=
  ∀ (s : State) (n : Fin 65536) (t : Nat),
    let a := s.ent n.val
    (s.hd .csc).pwr = .on → a.valid = true → a.state = .armed → a.desc.action ≠ .remote → s.coordValid a.desc.coord = true → a.from_ ≤ t →
    (a.desc.coord ≠ 0 → (s.coord a.desc.coord).resume < t) →
    (s.crosses n.val t = none → exec (.coordCrossing n t false) s = .next s) ∧
    (∀ f, s.crosses n.val t = some f → Tab.get 0 s.csc.fires t < 4 →
      ∃ u, exec (.coordCrossing n t false) s = .next u ∧ (u.ent n.val).state = (if a.desc.repeat_ then .armed else .fired) ∧
        (u.ent n.val).last = (s.crossInst n.val (q t + f) * 5 / 2).floor.toNat ∧ (u.ent n.val).from_ = t + 1)

/-- The scheduler's sources and remote actions. An edge timeout lets the velocity decay; a first zero-cross edge is kept as a candidate for lock, and
a locked loop that misses two edges loses lock; a REMOTE entry whose fire instant lies in its run-ahead is SENT with an arm record for the next
window; an unconfirmed epoch is recorded once. (R186, R187, R203, R204, R205) -/
def Obligations.CoordinateSourcesComplete : Prop :=
  ∀ (s : State) (t : Nat),
    (∀ c : Fin 32, exec (.coordEdgeTimeout c) s = .next (s.updCoord c.val fun k => { k with decay := true })) ∧
    (∀ (i : Fin 2) (c : Nat), (s.coordsUsed.filter fun c => decide (s.coordType c = 4) && decide (s.coordSrc c % 2 = i.val)) = [c] →
      (s.coord c).locked = false → (s.coord c).cand = [] →
      exec (.zcEdge i t) s = .next (s.updCoord c fun k => { k with cand := [t] })) ∧
    (∀ c : Fin 32, s.coordType c.val = 4 → (s.coord c.val).locked = true →
      ∃ u, exec (.phaseLockLoss c t) s = .next u ∧ (u.coord c.val).locked = false ∧ (c.val ≠ 0 → (u.coord c.val).valid = false)) ∧
    (∀ n : Fin 65536,
      let a := s.ent n.val
      let r := a.desc.remote
      a.valid = true → a.state = .armed → a.desc.action = .remote → s.coordType a.desc.coord = 1 → a.desc.coord = 0 → (s.lport r.port).inj.en = false →
      winEnd (winOf (t * 5 / 2)) + (s.sta r.port r.station).bs ≤ a.tFire → a.tFire ≤ winEnd (winOf (t * 5 / 2)) + s.runAhead r.port →
      a.win = some (winOf (t * 5 / 2)) → (s.lport r.port).outArms.length < s.armSlots r.port →
      ∃ u, exec (.remoteArmSend n t) s = .next u ∧ (u.ent n.val).state = .sent ∧ (u.ent n.val).tFire = a.tFire ∧
        (u.lport r.port).outArms.length = (s.lport r.port).outArms.length + 1) ∧
    (∀ (port : Fin 8) (sta : Fin 128) (slot : Fin 16) (w : EpochWait),
      s.csc.waits.find? (fun w => decide (w.port = port.val) && decide (w.station = sta.val) && decide (w.slot = slot.val)) = some w →
      ∃ u, exec (.cancelUnconfirmed port sta slot) s = .next u ∧ u.csc = { s.csc with waits := s.csc.waits.erase w })

/-- Axis commands are checked at once and wait for the profile boundary. With RUN=1 an axis command that Table MOT-6 allows in the axis's state is
accepted: it is kept for the next profile boundary, the last one accepted replaces an earlier one, a GMOVE of a group with that axis among them,
MOT_CMD_STAT reports 0 and nothing else changes. A command that the state does not allow is refused with AXIS_STATE, a target outside the soft limits
with TARGET_LIMIT and a motion toward an active limit with LIMIT_ACTIVE, and the axis keeps everything. DISABLE acts at once: the axis is DISABLED at
rest with its phases off. GMOVE of a group that passes R233 keeps the targets for the boundary. (R215, R216, R233, R236) -/
def Obligations.AxisCommandsAreCheckedAtOnce : Prop :=
  ∀ (s : State) (p : Principal) (n : Fin 128), s.writeOk .mot 0x100 .wo p = true → (s.hd .mot).run = true →
    let a := s.axis n.val
    let pos := fix16 (a.posAt s.tick)
    let accepts := fun (i : Instr) (c : AxCmd) =>
      exec i s = .next (((s.dropGmoves n.val).updAxis n.val fun a => { a with cmd := some c }).updMot fun m => { m with cmdAxis := n.val, cmdResult := 0 })
    let refuses := fun (i : Instr) (e : Nat) =>
      ∃ t, exec i s = .next t ∧ t.mot = { s.mot with cmdAxis := n.val, cmdResult := e } ∧ (t.hd .mot).errCode = 0x0D00 + e ∧
        SameBut [.mot, .hdr, .hts, .out] s t
    (a.state = .disabled → a.applied = true → a.desc.bind = .virtual_ → accepts (.axisEnable p n) .enable) ∧
    (a.mayMove = true →
      (a.outside (s.argPos * 65536) = false → s.blocked a (s.argPos * 65536 - pos) = false → accepts (.moveAbs p n) (.moveAbs s.argPos)) ∧
      (a.outside (s.argPos * 65536) = true → refuses (.moveAbs p n) 0x27) ∧
      (a.outside (s.argPos * 65536) = false → s.blocked a (s.argPos * 65536 - pos) = true → refuses (.moveAbs p n) 0x28) ∧
      (a.outside (pos + s.argPos * 65536) = false → s.blocked a s.argPos = false → accepts (.moveRel p n) (.moveRel s.argPos)) ∧
      (s.blocked a s.argVel = false → accepts (.moveVel p n) (.moveVel s.argVel)) ∧
      (s.blocked a s.argVel = true → refuses (.moveVel p n) 0x28)) ∧
    (a.mayMove = false → refuses (.moveAbs p n) 0x26 ∧ refuses (.moveRel p n) 0x26 ∧ refuses (.moveVel p n) 0x26) ∧
    (a.state = .moving ∨ a.state = .following ∨ a.state = .homing → accepts (.axisStop p n) .stop ∧ accepts (.axisQstop p n) .qstop) ∧
    (a.state = .stopping → refuses (.axisStop p n) 0x26 ∧ refuses (.axisQstop p n) 0x26) ∧
    (a.state = .standstill →
      (a.desc.homeMode = 4 → accepts (.axisHome p n) .home) ∧ (a.desc.homeMode = 0 → refuses (.axisHome p n) 0x26) ∧
      (isBad (s.readPoint a.desc.cmdPt).q = true → refuses (.axisFollow p n) 0x2C) ∧
      (isBad (s.readPoint a.desc.cmdPt).q = false → s.blocked a (sext 16 (s.readPoint a.desc.cmdPt).value.toNat) = false →
        accepts (.axisFollow p n) .follow)) ∧
    (a.state = .fault → (a.fault = 5 ∨ a.fault = 7) → accepts (.resetFault p n) .resetFault) ∧
    (a.state ≠ .fault → refuses (.resetFault p n) 0x26) ∧
    (a.applied = true → accepts (.latchArm p n) .latchArm) ∧
    (a.state ≠ .disabled → ∃ t, exec (.axisDisable p n) s = .next t ∧ (t.axis n.val).state = .disabled ∧ (t.axis n.val).motion = .rest ∧
      (t.axis n.val).phase = .off ∧ (t.axis n.val).cmd = none ∧ t.mot.cmdResult = 0 ∧ SameBut [.mot, .evr, .hdr, .hts, .out] s t) ∧
    (a.state = .disabled → refuses (.axisDisable p n) 0x26) ∧
    (∀ g : Fin 16, s.gmoveCheck g.val ((List.range 8).map s.gTgt) = 0 →
      ∃ t, exec (.axisGmove p n g) s = .next t ∧ (t.grp g.val).cmd = some ((List.range 8).map s.gTgt) ∧ t.mot.cmdResult = 0 ∧ SameBut [.mot] s t)

/-- The profile period, the phase drive and the inputs of the motion engine. At a profile boundary RUN=0 turns every axis off; a lone axis in motion
takes the position of its plan, comes to rest where the plan ends, and moves on in a straight line otherwise. A PWM period loads the windows of the
duties of R221 to R223 at its midpoint. The hold ends in the standstill mode. An encoder counts one edge at a time, a change of both inputs sets its
MOT_ENC_ERR bit, and an armed latch captures the commanded position once. The placed acquisition of a class A loop's encoder point writes that point.
(R211, R221, R222, R223, R227, R228, R229, R230, R238, R241) -/
def Obligations.MotionAdvancesByItsPlan : Prop :=
  ∀ s : State, (s.hd .mot).pwr = .on →
    ((s.hd .mot).run = false → ∃ t, exec .profilePeriod s = .next t ∧ (∀ n, (t.axis n).state = .disabled) ∧ (t.hd .mot).running = false) ∧
    (∀ (n : Nat) (pl : Plan) (k : Nat), (s.hd .mot).run = true → s.axesApplied = [n] → s.mot.grps = [] →
      (∀ e ∈ s.mot.axes, e.2.next = none) →
      let a := s.axis n
      a.applied = true → a.state = .moving → a.motion = .plan pl k → a.inGroup = none → a.cmd = none → a.replan = false → a.faultNext = 0 →
      a.desc.encEn = false → a.desc.stallEn = false → a.desc.bind = .virtual_ → a.desc.limP = none → a.desc.limN = none →
      ∃ t, exec .profilePeriod s = .next t ∧ t.mot.tB = s.tick ∧ (t.hd .mot).running = true ∧ (t.axis n).base.t = s.tick ∧
        (t.axis n).base.p = (pl.at_ (k + 1)).1 ∧
        (k + 1 < pl.len → (t.axis n).state = .moving ∧ (t.axis n).motion = .plan pl (k + 1) ∧
          (t.axis n).base.slope = ((pl.at_ (k + 2)).1 - (pl.at_ (k + 1)).1) / 8000) ∧
        (pl.len ≤ k + 1 → (t.axis n).state = .standstill ∧ (t.axis n).motion = .rest ∧ (t.axis n).base.slope = 0 ∧ (t.axis n).phase = .full)) ∧
    (∀ (d : Fin 16) (t : Nat),
      let st : PwmStart := { tick := t }
      let per := bits (s.regAt R.MOT_DRV_CFG (4 * d.val)) 14 0
      (s.driveAxis d.val = none → exec (.pwmPeriod d st) s = .next (s.updDrive d.val fun x => { x with per := per, t0 := t, mode := .off })) ∧
      (∀ n, s.erm.fatal = false → s.driveAxis d.val = some n →
        let a := s.axis n
        let e := s.readPoint a.desc.vbusPt
        let vb := sext 16 e.value.toNat
        let x : Rat := ((a.desc.uRi : Rat) + (a.desc.keVmax : Rat) * absQ (slopeUnits (s.pathAt n (t + per / 2)).2) / q (max 1 a.desc.vmax)) * 32768 / (vb : Rat)
        let ampl := min a.desc.dutyMax (fix16 x)
        let th := a.thetaAt (s.pathAt n (t + per / 2)).1
        a.phase = .full → isBad e.q = false → vb ≠ 0 →
        ∃ u, exec (.pwmPeriod d st) s = .next u ∧ (u.axis n).ampl = ampl ∧ (u.axis n).theta = th ∧
          u.drive d.val = { per := per, t0 := t, mode := .full, dA := phaseDuty ampl th, dB := phaseDuty ampl (th + 768),
                            wA := windowStart (s.drive d.val).wA (s.drive d.val).per (windowOf (phaseDuty ampl th) per),
                            wB := windowStart (s.drive d.val).wB (s.drive d.val).per (windowOf (phaseDuty ampl (th + 768)) per) })) ∧
    (∀ n : Fin 128, (s.axis n.val).state = .standstill → (s.axis n.val).holding = true →
      ∃ t, exec (.holdDelayExpiry n) s = .next t ∧ (t.axis n.val).state = .standstill ∧ (t.axis n.val).holding = false ∧
        (t.axis n.val).phase = (if (s.axis n.val).desc.standstill = 0 then .reduced else if (s.axis n.val).desc.standstill = 1 then .off else .short) ∧
        SameBut [.mot] s t) ∧
    (∀ (n : Fin 16) (a b i : Bool) (held t : Nat), bit (s.encCfg n.val) 0 = true → bits (s.encCfg n.val) 4 2 + 1 ≤ held →
      let e := s.enc n.val
      (e.a ≠ a → e.b = b → ∃ u, exec (.encoderEdge n a b i held t) s = .next u ∧ (u.enc n.val).a = a ∧ (u.enc n.val).i = i ∧
        (u.enc n.val).count = (BitVec.ofInt 64 (e.count + (if a = b then -1 else 1) * (if bit (s.encCfg n.val) 1 then -1 else 1))).toInt) ∧
      (e.a ≠ a → e.b ≠ b → ∃ u, exec (.encoderEdge n a b i held t) s = .next u ∧ (u.enc n.val).count = e.count ∧ nbit u.mot.encErr n.val = true ∧
        bit (u.hd .mot).irqRaw 11 = true)) ∧
    (∀ (k : Fin 8) (r : Bool) (held t n : Nat), 8 < held → nbit s.mot.latLvl k.val = !r → (s.axis n).latArmed = true → (s.axis n).desc.latchSrc = k.val → (s.axis n).desc.edge = 2 →
      ∃ u, exec (.latchEdge k r held t) s = .next u ∧ (u.axis n).latArmed = false ∧ (u.axis n).latCap = true ∧
        (u.axis n).latPos = fix16 ((s.axis n).posAt t) ∧ (u.axis n).latT = t * 5 / 2) ∧
    (∀ n : Fin 1024, s.present .ce = true → s.loopUsed n.val = true →
      let i := (s.loop n.val).inPt
      let e := s.point i
      e.kind ≠ .none → e.srcType = .enc → e.cls = .a → bit (s.encCfg e.srcRef) 0 = true →
      exec (.rateScheduleAcquisition n) s = .next (s.pointWrite i (wordI (s.enc e.srcRef).count) qValid s.now)) ∧
    (∀ n : Fin 16, exec (.encCntRead n) s = .next { s with
      mot := { s.mot with encHi := Tab.put 0 s.mot.encHi n.val (((s.enc n.val).count % 2 ^ 64).toNat / 2 ^ 32) },
      out := ((s.enc n.val).count % 2 ^ 64).toNat % 2 ^ 32 })

/-- Axis and group descriptors are checked and wait for the profile boundary. A GO of a descriptor with COMMIT set begins the check, without COMMIT
it is refused with COMMIT_REFUSED, and one during another check with COMMIT_BUSY. A descriptor that passes waits for the profile boundary and MOT
reports 0; one that fails leaves every axis and group as it was and MOT reports the code; DESC_DONE is set in both cases. (R40, R239, R240) -/
def Obligations.MotionDescriptorsCommit : Prop :=
  (∀ (s : State) (p : Principal) (n : Fin 128), s.writeOk .mot 0x120 .wo p = true →
    let w := s.mem32 (axisEdit n.val + 124)
    (s.mot.axisBusy = none → bit w 31 = true → exec (.motAxisGo p n) s =
      .next ((s.store32 (axisEdit n.val + 124) (setBit w 30)).updMot fun m => { m with axisBusy := some n.val })) ∧
    (s.mot.axisBusy = none → bit w 31 = false → ∃ t, exec (.motAxisGo p n) s = .next t ∧ t.mot.axes = s.mot.axes ∧ t.mot.axisResult = errCommitRefused ∧ t.mem = s.mem) ∧
    (s.mot.axisBusy ≠ none → ∃ t, exec (.motAxisGo p n) s = .next t ∧ t.mot = s.mot ∧ t.mem = s.mem ∧ (t.hd .mot).errCode = 0x0D00 + errCommitBusy)) ∧
  (∀ (s : State) (n : Nat), s.mot.axisBusy = some n →
    let w := s.editWord (axisEdit n) 31
    let r := s.axisDescCheck n (parseAxis w) w
    (r = 0 → (parseAxis w).bind ≠ .lane → ∃ t, exec .axisCommitDone s = .next t ∧ (t.axis n).next = some (parseAxis w) ∧ (t.axis n).desc = (s.axis n).desc ∧
      t.mot.axisBusy = none ∧ t.mot.axisResult = 0 ∧ t.mot.axisLast = n ∧ bit (t.hd .mot).irqRaw 8 = true) ∧
    (r ≠ 0 → ∃ t, exec .axisCommitDone s = .next t ∧ t.mot.axes = s.mot.axes ∧ t.mot.axisBusy = none ∧ t.mot.axisResult = r ∧ bit (t.hd .mot).irqRaw 8 = true)) ∧
  (∀ (s : State) (p : Principal) (g : Fin 16), s.writeOk .mot 0x128 .wo p = true → s.mot.grpBusy = none →
    let w := s.mem32 (grpEdit g.val + 28)
    (bit w 31 = true → exec (.motGrpGo p g) s =
      .next ((s.store32 (grpEdit g.val + 28) (setBit w 30)).updMot fun m => { m with grpBusy := some g.val })) ∧
    (bit w 31 = false → ∃ t, exec (.motGrpGo p g) s = .next t ∧ t.mot.grps = s.mot.grps ∧ t.mot.grpResult = errCommitRefused)) ∧
  (∀ (s : State) (g : Nat), s.mot.grpBusy = some g →
    let w := s.editWord (grpEdit g) 7
    let r := s.grpDescCheck g (parseGrp w) w
    (r = 0 → ∃ t, exec .grpCommitDone s = .next t ∧ (t.grp g).next = some (parseGrp w) ∧ (t.grp g).desc = (s.grp g).desc ∧ t.mot.grpBusy = none ∧ t.mot.grpResult = 0) ∧
    (r ≠ 0 → ∃ t, exec .grpCommitDone s = .next t ∧ t.mot.grps = s.mot.grps ∧ t.mot.grpBusy = none ∧ t.mot.grpResult = r))

/-- The instructions of the interlock logic processor. Each instruction does what Table ILP-3 gives it: loads, logic, stores and set or reset act on
the accumulator and the addressed bit, word arithmetic saturates, comparisons are signed, AND( and ) nest to eight levels, CALL and RET to sixteen,
and the stack faults stop with STACK or CALL_DEPTH. A TON that runs gives Q exactly when the elapsed TCLK has reached the preset latched at its
start; CTU counts rising accumulators with saturation. (R246, R247, R248, R249) -/
def Obligations.IlpInstructionsFollowTheTable : Prop :=
  ∀ (x : Ilp) (w : Word),
    let b := x.bitOp w
    (iOp w = 0x01 → x.instr w = ({ x with acc := b }, .next)) ∧
    (iOp w = 0x04 → x.instr w = ({ x with acc := x.acc && !b }, .next)) ∧
    (iOp w = 0x06 → x.instr w = ({ x with acc := x.acc || !b }, .next)) ∧
    (iOp w = 0x07 → x.instr w = ({ x with acc := xor x.acc b }, .next)) ∧
    (iOp w = 0x09 → iSpace w = 1 → x.instr w = ({ x with Q := Tab.put false x.Q (iAddr w) x.acc }, .next)) ∧
    (iOp w = 0x0B → iSpace w = 2 → x.acc = false → x.instr w = (x, .next)) ∧
    (iOp w = 0x0B → iSpace w = 2 → x.acc = true → x.instr w = ({ x with M := Tab.put false x.M (iAddr w) true }, .next)) ∧
    (iOp w = 0x0D → x.bstack.length < 8 → x.instr w = ({ x with bstack := (x.acc, true) :: x.bstack, acc := b }, .next)) ∧
    (iOp w = 0x0D → x.bstack.length = 8 → (x.instr w).2 = .fault 1) ∧
    (∀ (a : Bool) (t : List (Bool × Bool)), iOp w = 0x0F → x.bstack = (a, true) :: t → x.instr w = ({ x with bstack := t, acc := a && x.acc }, .next)) ∧
    (iOp w = 0x0F → x.bstack = [] → (x.instr w).2 = .fault 1) ∧
    (iOp w = 0x15 → (x.instr w).1.acc = (x.acc && !(Tab.get false x.E (iAddr w))) ∧ Tab.get false (x.instr w).1.E (iAddr w) = x.acc) ∧
    (iOp w = 0x18 → (x.instr w).1.wacc = wordI (x.wordOp w)) ∧
    (iOp w = 0x1A → (x.instr w).1.wacc.toInt = max (-2147483648) (min 2147483647 (x.wacc.toInt + x.wordOp w)) ∧ (x.instr w).1.acc = x.acc) ∧
    (iOp w = 0x1C → x.instr w = ({ x with acc := decide (x.wordOp w < x.wacc.toInt) }, .next)) ∧
    (iOp w = 0x22 → x.acc = false → x.instr w = (x, .jump (bits w 17 0))) ∧
    (iOp w = 0x23 → x.cstack.length < 16 → x.instr w = ({ x with cstack := (x.pc + 1) :: x.cstack }, .jump (bits w 17 0))) ∧
    (iOp w = 0x23 → x.cstack.length = 16 → (x.instr w).2 = .fault 2) ∧
    (iOp w = 0x24 → x.cstack = [] → (x.instr w).2 = .fault 2) ∧
    (iOp w = 0x3F → (x.instr w).2 = if x.bstack = [] then .ends else .fault 1) ∧
    (iOp w = 0x10 → x.acc = true → (Tab.get {} x.T (iAddr w)).running = true →
      (x.instr w).1.acc = decide (min ((x.tclk + 2 ^ 32 - (Tab.get {} x.T (iAddr w)).start) % 2 ^ 32) (Tab.get {} x.T (iAddr w)).ptRun.toNat =
        (Tab.get {} x.T (iAddr w)).ptRun.toNat)) ∧
    (iOp w = 0x10 → x.acc = false → (x.instr w).1.acc = false ∧ (Tab.get {} (x.instr w).1.T (iAddr w)).running = false ∧
      (Tab.get {} (x.instr w).1.T (iAddr w)).et = 0) ∧
    (iOp w = 0x13 → bit w 23 = false →
      let y := Tab.get {} x.C (bits w 11 0)
      let cv := Tab.get {} (x.instr w).1.C (bits w 11 0)
      cv.cv.toInt = (if x.acc = true ∧ y.cuPrev = false then min 2147483647 (y.cv.toInt + 1) else y.cv.toInt) ∧
        (x.instr w).1.acc = decide (y.pv.toInt ≤ cv.cv.toInt))

/-- The scan, the modes, the load and the on-line change of the interlock logic processor. A scan that ends at END counts, keeps what the program
left in its spaces and reports its instructions; a fault of the program stops the processor with its cause. The mode commands of Table ILP-7 are
accepted in the modes it lists and refused with MODE_STATE in the others, HOLD without the permission with HOLD_DENIED. A load is taken in STOP
alone, applies an image that passes and leaves everything in place for one that fails. A change is queued in RUN and applied at once in STOP; a full
queue refuses it with CHG_FULL, an index beyond the image with CHG_TARGET and, by the model's choice (log 82), a timer preset beyond 2^31 - 1 with
VALUE_RANGE. (R251, R253, R255, R256, R263, R264, R265) -/
def Obligations.IlpModesScansAndLoads : Prop :=
  ∀ s : State,
    (s.present .ilp = true → s.ilp.mode = .stop → s.ilp.empty = true → ∀ dur, exec (.ilpScanBoundary dur false) s = .next s) ∧
    (∀ dur, s.present .ilp = true → s.ilp.mode = .run → s.ilp.doom = true → (s.hd .ilp).run = false →
      ∃ t, exec (.ilpScanBoundary dur false) s = .next t ∧ t.ilp.mode = .stop) ∧
    (∀ dur, s.present .ilp = true → s.ilp.mode = .run → s.ilp.doom = false → s.ilp.busyTo ≤ s.cpu.mtime → s.ilp.img.wmap = [] → s.ilp.chg = [] →
      let s1 := (s.updIlp fun x => { x with consec := if x.overrun then 0 else x.consec, overrun := false, doom := false }).ilpSnapshot
      let r := Ilp.runOn s1.ilpBps (s.reg R.ILP_EXEC_LIMIT).toNat false s1.ilp
      (r.2 = .done → s1.ilpDoomed dur = false → ∃ t, exec (.ilpScanBoundary dur false) s = .next t ∧ t.ilp.mode = .run ∧ t.ilp.inScan = false ∧ t.ilp.scanCnt = wrapInc s.ilp.scanCnt ∧
        t.ilp.scanLast = dur ∧ t.ilp.execLast = r.1.execN ∧ t.ilp.Q = r.1.Q ∧ t.ilp.M = r.1.M ∧ t.ilp.W = r.1.W ∧ t.ilp.T = r.1.T ∧ t.ilp.busyTo = s.cpu.mtime + dur) ∧
      (∀ k, r.2 = .fault k → ∃ t, exec (.ilpScanBoundary dur false) s = .next t ∧ t.ilp.mode = .stop ∧ t.ilp.cause = k ∧ t.ilp.scanCnt = s.ilp.scanCnt)) ∧
    (∀ (p : Principal), s.writeOk .ilp 0x108 .wo p = true →
      let refuses := fun (i : Instr) (e : Nat) => ∃ t, exec i s = .next t ∧ t.ilp = { s.ilp with result := e } ∧ (t.hd .ilp).errCode = 0x0E00 + e ∧ SameBut [.ilp, .hdr, .hts, .out] s t
      (s.ilp.mode = .stop → s.ilp.empty = false → (s.hd .ilp).run = true → s.ilp.loadBusy = false →
        ∃ t, exec (.ilpRun p) s = .next t ∧ t.ilp.mode = .run ∧ t.ilp.result = 0 ∧ t.ilp.newImage = false ∧ (t.hd .ilp).running = true ∧
          (s.ilp.newImage = false → t.ilp.M = s.ilp.M ∧ t.ilp.W = s.ilp.W ∧ t.ilp.Q = s.ilp.Q ∧ t.ilp.T = s.ilp.T ∧ t.ilp.C = s.ilp.C ∧ t.ilp.K = s.ilp.K) ∧
          (s.ilp.newImage = true → s.ilp.img.slots = [] → t.ilp.M = [] ∧ t.ilp.W = [] ∧ t.ilp.I = [] ∧ t.ilp.Q = [] ∧ t.ilp.E = [] ∧
            t.ilp.K = Tab.putList 0 [] 0 s.ilp.img.kInit)) ∧
      (s.ilp.mode = .stop → (s.ilp.empty = true ∨ (s.hd .ilp).run = false ∨ s.ilp.loadBusy = true) → refuses (.ilpRun p) 0x2B) ∧
      (s.ilp.mode ≠ .stop → refuses (.ilpRun p) 0x2B ∧
        ∃ t, exec (.ilpStop p) s = .next t ∧ t.ilp.mode = .stop ∧
          (s.ilp.doom = false → t.ilp.cause = 0 ∧ t.ilp.result = 0 ∧ (t.hd .ilp).running = false)) ∧
      (s.ilp.mode = .run →
        (s.holdPermit = true → ∃ t, exec (.ilpHold p) s = .next t ∧ t.ilp.mode = .hold ∧ (s.ilp.doom = false → t.ilp.result = 0 ∧ t.ilp.M = s.ilp.M)) ∧
        (s.holdPermit = false → refuses (.ilpHold p) 0x28) ∧ (∀ dur, refuses (.ilpStep p dur) 0x2B ∧ refuses (.ilpContinue p dur) 0x2B)) ∧
      (s.ilp.mode = .hold → ∀ dur,
        (∀ y, s.ilp.inScan = true → s.ilp.execN < (s.reg R.ILP_EXEC_LIMIT).toNat → y.execN < (s.reg R.ILP_EXEC_LIMIT).toNat →
          ({ s.ilp with result := 0 } : Ilp).step1 = (y, none) → exec (.ilpStep p dur) s = .next { s with ilp := y }) ∧
        (s.ilp.inScan = false → ∃ t, exec (.ilpContinue p dur) s = .next t ∧ t.ilp.mode = .run ∧ t.ilp.result = 0 ∧ t.ilp.M = s.ilp.M))) ∧
    (∀ p : Principal, s.writeOk .ilp 0x11C .w1s p = true → s.ilp.loadBusy = false →
      (s.ilp.mode = .stop → exec (.ilpLoad p) s = .next (s.updIlp fun x => { x with loadBusy := true })) ∧
      (s.ilp.mode ≠ .stop → ∃ t, exec (.ilpLoad p) s = .next t ∧ t.ilp = { s.ilp with loadBusy := false, loadResult := 0x20, loadPos := 0 } ∧ (t.hd .ilp).errCode = 0x0E20)) ∧
    (s.ilp.loadBusy = true → s.present .ilp = true →
      let a := s.imgAddr
      let n := (s.reg R.ILP_IMG_LEN).toNat
      let ws := bytesWords (s.load a n)
      (inSram a n = true ∨ inSdram s a n = true) →
      (s.imageCheck ws n = none → ∃ t, exec .ilpLoadDone s = .next t ∧ t.ilp.img = (parseImage ws).1 ∧ t.ilp.empty = false ∧ t.ilp.newImage = true ∧ t.ilp.loadBusy = false ∧
        t.ilp.loadResult = 0 ∧ bit (t.hd .ilp).irqRaw 8 = true) ∧
      (∀ e pos sec, s.imageCheck ws n = some (e, pos, sec) → ∃ t, exec .ilpLoadDone s = .next t ∧
        t.ilp = { s.ilp with loadBusy := false, loadResult := e, loadPos := pos + 0x100000 * sec } ∧ bit (t.hd .ilp).irqRaw 8 = true)) ∧
    (∀ p : Principal, s.writeOk .ilp 0x148 .w1s p = true →
      let tgt := s.reg R.ILP_CHG_TGT
      let g : IChg := { space := bits tgt 2 0, idx := bits tgt 23 8, val := s.reg R.ILP_CHG_VAL, principal := p.code }
      (s.ilp.chg.length < 64 → g.idx < s.ilp.chgRoom g.space → (g.space = 1 → bit g.val 31 = true →
        ∃ t, exec (.ilpChgGo p) s = .next t ∧ t.ilp = { s.ilp with chgResult := 0x0A } ∧ (t.hd .ilp).errCode = 0x0E0A)) ∧
      (s.ilp.chg.length < 64 → g.idx < s.ilp.chgRoom g.space → (g.space = 1 → bit g.val 31 = false) →
        (s.ilp.mode ≠ .stop → exec (.ilpChgGo p) s = .next (s.updIlp fun x => { x with chgResult := 0, chg := x.chg ++ [g] })) ∧
        (s.ilp.mode = .stop → s.ilp.chg = [] → ∃ t, exec (.ilpChgGo p) s = .next t ∧ t.ilp = { s.ilp.chgPut g with chgResult := 0, chg := [] } ∧ bit (t.hd .ilp).irqRaw 11 = true)) ∧
      (64 ≤ s.ilp.chg.length → ∃ t, exec (.ilpChgGo p) s = .next t ∧ t.ilp = { s.ilp with chgResult := 0x29 } ∧ (t.hd .ilp).errCode = 0x0E29) ∧
      (s.ilp.chg.length < 64 → s.ilp.chgRoom g.space ≤ g.idx → ∃ t, exec (.ilpChgGo p) s = .next t ∧ t.ilp = { s.ilp with chgResult := 0x2A } ∧ (t.hd .ilp).errCode = 0x0E2A))

/-- Every command of the safety island completes: it opens on every demand and fault and closes on a reset alone. Each command of the island answers
a next state with its effect. SAFETY_INPUT_EDGE takes the level, SAFE_FILTER_EXPIRY of a demand opens an ON output at once, DISCREPANCY_EXPIRY and
TEST_PULSE latch the pair in demand. SAFE_RST_FALL of a pulse that both channels accept closes an output in WAIT_RESET whose pairs are healthy, and
one of another length is discarded with REJECTED; STUCK_RESET is latched. SAFETY_HEARTBEAT toggles both heartbeats and ends CH_LOST, which, like
SAF_OVERTEMP, SAF_CPU_FAULT, EDM_TIMEOUT, CH_MISMATCH, OFF_PULSE_TIMEOUT, OUTPUT_READBACK_FAULT and FS_S_UNDERVOLTAGE, puts the outputs it concerns
in FAULT; OFF_PULSE_TEST and OFF_PULSE_READBACK open and close one switch, FS_S_WARNING and FS_S_RECOVERY set their flags. SAFETY_PARAM_RECEIVE
checks a set, which SAFETY_PARAM_APPLY applies once no output is ON, and after it no output is ON. SAFETY_FW_RECEIVE stores and verifies the
firmware, SAFETY_FW_SWITCH restarts the processor with its switches open, SAFETY_FW_SELFTEST_END and ISLAND_STARTUP_SELFTEST_END end a start;
VDD_SAFE_POWER_UP and VDD_SAFE_LOSS start and stop the processor channel. (R269, R271, R273, R275, R276, R277, R278, R279, R280, R283, R284) -/
def Obligations.SafetyIslandOpensAndCloses : Prop :=
  ∀ s : State,
    let x := s.saf
    let faults := fun (t : State) (c m : Nat) => t.saf.outSt c m = .fault
    (∀ (n : Fin 4) (b level : Bool), ∃ t, exec (.safetyInputEdge n b level) s = .next t ∧ t.saf.raw = nput x.raw (2 * n.val + b2n b) level ∧
      t.saf.ch = x.ch ∧ SameBut [.saf] s t) ∧
    (∀ (ch : Fin 2) (n : Fin 4) (b : Bool) (openUs rbUs m : Nat), (x.chan ch.val).alive = true → x.pairEn n.val = true →
      x.healthy n.val b (nbit x.raw (2 * n.val + b2n b)) = false → m ∈ x.outs → n.val ∈ x.mapped m → x.outSt ch.val m = .on →
      ∃ t, exec (.safeFilterExpiry ch n b openUs rbUs) s = .next t ∧ t.saf.outSt ch.val m = .off ∧ t.saf.energized m = false ∧
        (x.outSt (1 - ch.val) m = .on → Tab.get (0, 0) t.saf.rtLast m = (openUs, rbUs) ∧ bit (t.hd .saf).irqRaw 8 = true)) ∧
    (∀ (n : Fin 4) (t0 c : Nat), Tab.get none x.disc n.val = some t0 → c < 2 → (x.chan c).alive = true → ((x.chan c).pair n.val).held = 0 →
      ∃ t, exec (.discrepancyExpiry n) s = .next t ∧ ((t.saf.chan c).pair n.val).held = 1 ∧ t.saf.demand c n.val = true) ∧
    (∀ (n : Fin 4) (low c : Nat), x.pairEn n.val = true → x.src n.val false = 1 → nbit low (2 * n.val) = false → c < 2 → (x.chan c).alive = true →
      ((x.chan c).pair n.val).held = 0 → ∃ t, exec (.testPulse false low) s = .next t ∧ ((t.saf.chan c).pair n.val).held = 2 ∧ t.saf.demand c n.val = true) ∧
    (∀ lenH lenP skew dem still t0, 50000 ≤ lenH → lenH ≤ 3000000 → 50000 ≤ lenP → lenP ≤ 3000000 → skew ≤ 20000 → x.lowSince = some t0 → t0 + 50000 + lenH ≤ x.us →
      (∀ c < 2, (x.chan c).alive = true ∧ (x.chan c).passed = true) → s.erm.fatal = false →
      ∃ t, exec (.safeRstFall lenH lenP skew dem still) s = .next t ∧ t.saf.stuck = false ∧ t.saf.pulseMs = lenH / 1000 ∧
        (∀ m ∈ x.outs, x.edmEn m = false → (∀ n ∈ x.mapped m, nbit dem n = false) → (∀ c < 2, x.outSt c m = .waitReset ∧ x.gated c m = false) → t.saf.energized m = true) ∧
        (∀ m ∈ x.outs, (∃ n ∈ x.mapped m, nbit dem n = true) → (∀ c < 2, x.outSt c m = .waitReset) → t.saf.energized m = false)) ∧
    (∀ lenH lenP skew dem still, lenH < 50000 ∨ 3000000 < lenH ∨ 20000 < skew → ∃ t, exec (.safeRstFall lenH lenP skew dem still) s = .next t ∧ t.saf.rejected = true ∧
      t.saf.ch = x.ch ∧ SameBut [.saf] s t) ∧
    exec .stuckReset s = .next (s.updSaf fun x => { x with rstLevel := true, stuck := true, lowSince := none }) ∧
    ((x.chan 0).alive = true → (x.chan 1).alive = true → ∃ t, exec (.safetyHeartbeat true true) s = .next t ∧ t.saf.us = x.us + 50 ∧ (t.saf.chan 0).seen = true ∧ (t.saf.chan 1).seen = true ∧ (t.saf.chan 0).lost = false ∧ (t.saf.chan 1).lost = false ∧
      (t.saf.chan 0).hb = !(x.chan 0).hb ∧ (t.saf.chan 1).hb = !(x.chan 1).hb) ∧
    ((x.chan 0).alive = true → x.fwRestart = false → ∃ t, exec (.chLost 1) s = .next t ∧ (t.saf.chan 0).lost = true ∧ ∀ m ∈ x.outs, faults t 0 m) ∧
    ((x.chan 1).alive = true → ∃ t, exec (.chLost 0) s = .next t ∧ (t.saf.chan 1).lost = true ∧ ∀ m ∈ x.outs, faults t 1 m) ∧
    (∀ ch : Fin 2, (x.chan ch.val).alive = true → ∃ t, exec (.safOvertemp ch) s = .next t ∧ (t.saf.chan ch.val).causes.contains 14 = true ∧ ∀ m ∈ x.outs, faults t ch.val m) ∧
    ((x.chan 1).alive = true → ∃ t, exec .safCpuFault s = .next t ∧ (t.saf.chan 1).causes.contains 12 = true ∧ ∀ m ∈ x.outs, faults t 1 m) ∧
    (∀ (m : Fin 4) (c : Nat), c < 2 → m.val ∈ (x.chan c).edm → (x.chan c).alive = true → x.demand c (x.edmPair m.val) ≠ decide (x.outSt c m.val = .on) →
      ∃ t, exec (.edmTimeout m) s = .next t ∧ faults t c m.val) ∧
    (∀ (m : Fin 4) (ch : Fin 2), (x.chan ch.val).alive = true → x.outSt ch.val m.val = .on → x.outSt (1 - ch.val) m.val ≠ .on →
      ∃ t, exec (.chMismatch m ch) s = .next t ∧ faults t ch.val m.val) ∧
    (∀ m : Fin 4, x.energized m.val = true → x.lastTest = none → Tab.get none x.test m.val = none →
      ∃ t, exec (.offPulseTest m) s = .next t ∧ Tab.get none t.saf.test m.val = some (Tab.get 0 x.nextSw m.val) ∧
        Tab.get 0 t.saf.nextSw m.val = 1 - Tab.get 0 x.nextSw m.val ∧ t.saf.ch = x.ch) ∧
    (∀ (m : Fin 4) (sw us : Nat), Tab.get none x.test m.val = some sw →
      (∃ t, exec (.offPulseReadback m us) s = .next t ∧ Tab.get none t.saf.test m.val = none ∧ Tab.get {} t.saf.testLast m.val = { sw := sw, pass := true, us := us } ∧ t.saf.ch = x.ch) ∧
      (∀ c < 2, (x.chan c).alive = true → ∃ t, exec (.offPulseTimeout m) s = .next t ∧ faults t c m.val)) ∧
    (∀ (m : Fin 4) (c : Nat), c < 2 → (x.chan c).alive = true → x.outEn m.val = true →
      (x.energized m.val = false → ∃ t, exec (.outputReadbackFault m true) s = .next t ∧ faults t c m.val) ∧
      (x.energized m.val = true → Tab.get none x.test m.val = none → ∃ t, exec (.outputReadbackFault m false) s = .next t ∧ faults t c m.val)) ∧
    (∀ below, exec (.fsSWarning below) s = .next (s.updSaf fun x => { x with fsWarn := below })) ∧
    ((x.chan 0).alive = true → ∃ t, exec .fsSUndervoltage s = .next t ∧ t.saf.fsUv = true ∧ ∀ c < 2, (x.chan c).alive = true → ∀ m ∈ x.outs, faults t c m) ∧
    exec .fsSRecovery s = .next (s.updSaf fun x => { x with fsUv := false }) ∧
    (∀ bs rest echo, x.paramIn = bs :: rest → (x.chan 1).alive = true → ∃ t, exec (.safetyParamReceive echo) s = .next t ∧ t.saf.param = x.param ∧ t.saf.paramIn = rest ∧
      t.saf.reason = (safCheck bs echo).1 ∧ ((safCheck bs echo).1 = 0 → t.saf.pending = some (bytesWords bs)) ∧ ((safCheck bs echo).1 ≠ 0 → t.saf.pending = x.pending)) ∧
    (∀ ws, x.pending = some ws → (x.idle = false → exec .safetyParamApply s = .next s) ∧
      (x.idle = true → ∃ t, exec .safetyParamApply s = .next t ∧ t.saf.param = ws ∧ t.saf.pending = none ∧ ∀ c < 2, ∀ m, t.saf.outSt c m ≠ .on)) ∧
    (∀ bs rest ver, x.fwIn = bs :: rest → (x.chan 1).alive = true →
      ∀ ok, ∃ t, exec (.safetyFwReceive ok ver) s = .next t ∧ t.saf.fwIn = rest ∧ Tab.get [] t.saf.fwSlots (1 - x.fwSlot) = bs ∧
        t.saf.fwPending = (if ok && safFwSigned bs then some ver else x.fwPending) ∧ t.saf.fwResult = (if ok && safFwSigned bs then 2 else 3)) ∧
    (∀ ver, x.fwPending = some ver → x.fwRestart = false → x.idle = true → (x.chan 1).alive = true →
      ∃ t, exec .safetyFwSwitch s = .next t ∧ t.saf.fwRestart = true ∧ (∀ m, t.saf.outSt 1 m ≠ .on) ∧ (t.saf.chan 1).passed = false) ∧
    (∀ ver, x.fwRestart = true → x.fwPending = some ver →
      (∃ t, exec (.safetyFwSelftestEnd { ok := true, paramOk := true }) s = .next t ∧ t.saf.fwVer = ver ∧ t.saf.fwSlot = 1 - x.fwSlot ∧ t.saf.fwRestart = false ∧ (t.saf.chan 1).passed = true) ∧
      (∃ t, exec (.safetyFwSelftestEnd { ok := false, paramOk := true }) s = .next t ∧ t.saf.fwVer = x.fwVer ∧ t.saf.fwSlot = x.fwSlot ∧ t.saf.fwResult = 3)) ∧
    (∀ ch : Fin 2, (x.chan ch.val).alive = true → (x.chan ch.val).passed = false →
      (∃ t, exec (.islandStartupSelftestEnd ch true true) s = .next t ∧ (t.saf.chan ch.val).passed = true) ∧
      (x.param ≠ [] → ∃ t, exec (.islandStartupSelftestEnd ch true false) s = .next t ∧ (t.saf.chan ch.val).paramBad = true ∧ ∀ m ∈ x.outs, faults t ch.val m)) ∧
    ((x.chan 1).alive = false → ∀ high, ∃ t, exec (.vddSafePowerUp high) s = .next t ∧ t.saf.chan 1 = {} ∧ (t.hd .saf).pwr = .on ∧ (high = true → t.saf.stuck = true)) ∧
    ((x.chan 1).alive = true → ∃ t, exec .vddSafeLoss s = .next t ∧ (t.saf.chan 1).alive = false ∧ (∀ m, t.saf.energized m = false) ∧ t.saf.pending = none ∧ (t.hd .saf).pwr = .off)

/-- The field die drives its outputs by Table FIO-3 and follows its supplies by Table FIO-1. A frame toward the field die brings every command and
drives every output by the first row of Table FIO-3 that applies; a silence puts outputs in their safe states; HOLD_LAST ends at HOLD_TMO. A group
below 16 V is in UV with its outputs off, one above 4 A is off, and each leaves by its row of Table FIO-1. A channel overcurrent and a mismatch are
latched. A filtered class A input is written alone at its expiry. Analog inputs convert by R304, the calibration stores the skews, and a test mode
needs an open lifecycle. (R289, R290, R291, R292, R296, R298, R299, R300, R304, R305, R306, R307) -/
def Obligations.FieldDieFollowsItsTables : Prop :=
  ∀ s : State,
    let x := s.fio
    (∀ a b c d rb t, x.linkUp = true → (s.hd .fio).run = true → ∃ u, exec (.fioRefreshFrame { ok := true } true a b c d rb t) s = .next u ∧
      u.fio.cmd = mask32 (s.fioCommand (t * 2 / 5)) ∧ u.fio.runOff = false ∧ u.fio.driven = mask32 u.fio.drives ∧ u.fio.rb = rb.toNat ∧
      (u.fio.group 0).supply = a % 65536 ∧ (u.fio.group 1).supply = b % 65536) ∧
    (∀ a b c d rb t, x.linkUp = true → ∃ u, exec (.fioRefreshFrame { ok := false } false a b c d rb t) s = .next u ∧ u.fio = { x with linkErr := (x.linkErr + 2) % 2 ^ 32, badWords := 0 } ∧
      SameBut [.fio, .hdr] s u) ∧
    (x.silent = false → ∃ u, exec .linkSilence s = .next u ∧ u.fio.silent = true ∧ SameBut [.fio] s u ∧
      ∀ k < 32, x.isOut k = true → x.forcedOff k = false → nbit x.mmOff k = false →
        nbit u.fio.driven k = (if x.safeSel k = 1 then true else if x.safeSel k = 2 then nbit x.driven k else false)) ∧
    (x.silent = true → ∃ u, exec (.safeHoldTimeout false) s = .next u ∧ u.fio.holdOver = true ∧ ∀ k < 32, x.safeSel k = 2 → nbit u.fio.driven k = false) ∧
    (∀ lost, x.linkUp = true → ∃ u, exec (.linkDownDetect lost) s = .next u ∧ u.fio.linkUp = false ∧ u.fio.cfgSync = false) ∧
    (∀ ms, x.linkUp = false → (s.hd .fio).pwr = .on → ∃ u, exec (.linkRetrainDone ms) s = .next u ∧ u.fio.linkUp = true ∧ u.fio.silent = false ∧
      (x.silent = false → u.fio = { x with linkUp := true }) ∧
      (x.silent = true → u.fio.silenced = true ∧ ∀ g < 2, (x.group g).st = .ok → (u.fio.group g).st = .waitEn ∧ (u.fio.group g).wait = .silence)) ∧
    (∀ (k : Fin 32) (level : Bool) (t i : Nat), x.isIn k.val = true → nbit x.level k.val = !level → x.linkUp = true → s.boundTo .fioCh k.val = some i →
      (s.point i).cls = .a → (s.point i).output = false → (x.group (k.val / 16)).st ≠ .uv →
      let s2 := (s.updFio fun x => { x with level := nput x.level k.val level }).latchEvent (8 + k.val) level t
      exec (.fioInputFilterExpiry k { high := level } t) s = .next ((s2.pointWrite i (word (b2n level)) qValid (t * 5 / 2)).followPoint i (t * 5 / 2 * 2 / 5))) ∧
    (∀ (k : Fin 32) (level : Bool) (t : Nat), x.isIn k.val = true → nbit x.level k.val = !level → x.linkUp = true →
      let s2 := (s.updFio fun x => { x with level := nput x.level k.val level }).latchEvent (8 + k.val) level t
      s2.sendsWord k.val = true → exec (.fioInputFilterExpiry k { high := level, ok := false } t) s =
        .next (s2.updFio fun x => { x with linkErr := wrapInc x.linkErr })) ∧
    (∀ k : Fin 32, nbit x.driven k.val = true → ∃ u, exec (.channelOvercurrent k) s = .next u ∧ nbit u.fio.oc k.val = true ∧ nbit u.fio.driven k.val = false ∧
      bit (u.hd .fio).irqRaw 10 = true) ∧
    (∀ (g : Fin 2) (ma : Nat), (x.group g.val).st = .ok → ∃ u, exec (.groupOvercurrent g ma) s = .next u ∧ (u.fio.group g.val).st = .grpOff ∧
      ∀ k < 32, k / 16 = g.val → nbit u.fio.driven k = false) ∧
    (∀ (k : Fin 32) (rb : Bool), x.isOut k.val = true → x.forcedOff k.val = false → nbit x.mm k.val = false → bit (x.chCfg k.val) 6 = false → nbit x.driven k.val = !rb →
      ∃ u, exec (.readbackMismatch k rb) s = .next u ∧ nbit u.fio.mm k.val = true ∧ (bit (x.chCfg k.val) 5 = true → nbit u.fio.driven k.val = false)) ∧
    (∀ (g : Fin 2) (v : Nat), (x.group g.val).warn = false → ∃ u, exec (.fsGroupWarn g v) s = .next u ∧ (u.fio.group g.val).warn = true ∧
      (u.fio.group g.val).st = (x.group g.val).st ∧ u.fio.driven = x.driven) ∧
    (∀ g : Fin 2, exec (.fsGroupWarnClear g) s = .next (s.updGroup g.val fun r => { r with warn := false })) ∧
    (∀ g : Fin 2, (x.group g.val).st ≠ .uv → ∃ u, exec (.fsGroupUv g) s = .next u ∧ (u.fio.group g.val).st = .uv ∧ ∀ k < 32, k / 16 = g.val → nbit u.fio.driven k = false) ∧
    (∀ g : Fin 2, (x.group g.val).st = .uv → (x.group g.val).uvTest = false →
      let r := x.group g.val
      ∃ u, exec (.fsGroupRecovery g) s = .next u ∧ u.fio.driven = mask32 u.fio.drives ∧
        ((r.fromOff = false ∧ r.quiet = false ∧ ∀ k ∈ groupChans g.val, x.isOut k = true → x.autoRestore k = true) → (u.fio.group g.val).st = .ok) ∧
        (¬ (r.fromOff = false ∧ r.quiet = false ∧ ∀ k ∈ groupChans g.val, x.isOut k = true → x.autoRestore k = true) → (u.fio.group g.val).st = .waitEn)) ∧
    (∀ (p : Principal) (g : Fin 2), s.writeOk .fio 0x11C .wo p = true →
      (x.cfgSync = true → (x.group g.val).st = .waitEn → exec (.fioGrpEnable p g) s = .next (s.updGroup g.val fun r => { r with enPend := true })) ∧
      ((x.cfgSync = false ∨ (x.group g.val).st = .uv) → ∃ u, exec (.fioGrpEnable p g) s = .next u ∧ u.fio = x ∧ (u.hd .fio).errCode = 0x1024)) ∧
    (∀ (vs : List Int) (t : Nat), (s.hd .fio).pwr = .on → t % 200 = bits (s.reg R.FIO_AI_PHASE) 7 0 → ∃ u, exec (.aiSample vs false t) s = .next u ∧
      u.fio.aiT = some (t * 5 / 2) ∧ ∀ k < 8, ∀ c : Int, bit (x.aiCfg k) 0 = false → x.calBusy = false → (Tab.get {} x.ai k).off = false →
        nth 0 vs k * 32768 = c * 10000000000 → -32768 ≤ c → c ≤ 32767 → Tab.get {} u.fio.ai k = { raw := c, q := qValid, off := false }) ∧
    (∀ t, x.aiT = some t → ∃ u, exec .aiConversionEnd s = .next u ∧ u.fio = { x with aiT := none } ∧
      (x.linkUp = false → u = { s with fio := { x with aiT := none } })) ∧
    (∀ k : Fin 8, exec (.aiBurdenReconnect k) s = .next (s.updFio fun x => { x with ai := Tab.upd {} x.ai k.val fun a => { a with off := false } })) ∧
    (∀ p : Principal, s.writeOk .fio 0x150 .w1s p = true → x.calBusy = false →
      (s.aiInUse = false → exec (.aiCalGo p) s = .next (s.updFio fun x => { x with calBusy := true })) ∧
      (s.aiInUse = true → ∃ u, exec (.aiCalGo p) s = .next u ∧ u.fio = { x with calResult := 0x22 } ∧ (u.hd .fio).errCode = 0x1022)) ∧
    (∀ ds : List Nat, x.calBusy = true → (∀ d ∈ ds, d % 10 = 0) → ds.length = 8 → ds.sum % 8 = 0 →
      ∃ u, exec (.aiCalDone ds) s = .next u ∧ u.fio.calBusy = false ∧ u.fio.calResult = 0 ∧
        ∀ k < 8, Tab.get 0 u.fio.aiSkew k = ((nth 0 ds k : Nat) : Int) - ((ds.sum / 8 : Nat) : Int)) ∧
    (∀ (k : Fin 4) (t : Nat) (c : Int), (Tab.get {} x.ao k.val).wait = some c → ∃ u, exec (.aoDeferredUpdate k t) s = .next u ∧
      Tab.get {} u.fio.ao k.val = { code := c, at_ := t, wait := none } ∧ SameBut [.fio] s u) ∧
    (∀ p : Principal, s.writeOk .fio 0x124 .rw p = true →
      (s.testOpen = true → (x.group 0).uvTest = false → ∃ u, exec (.fioTestUv p 1) s = .next u ∧ (u.fio.group 0).uvTest = true ∧ (u.fio.group 0).st = .uv) ∧
      (s.testOpen = false → ∃ u, exec (.fioTestUv p 1) s = .next u ∧ u.fio = x ∧ (u.hd .fio).errCode = 0x1023))

/-- The Lane ports run their windows, cycles, enumeration and commands. A window start sends the window frame with the epoch and arm records that
wait; the output read sends A_OUT to a heard station and none to one whose A_IN is missing; a cycle start sends B_OUT, with NO_OUT to a station not
heard; good frames count a station as heard and bad, late and foreign ones are counted. IDENT, ACK and DELAY_RESP advance enumeration; START, STOP,
REENUM, RESTART and GO_SAFE act in the port states Table LNE-7 gives and are refused with PORT_STATE elsewhere. Injection needs the unlock. Ethernet
rings advance with each frame. (R312, R315, R318, R320, R321, R323, R324, R325, R326) -/
def Obligations.LanePortsRunTheirProtocol : Prop :=
  ∀ (s : State) (p : Fin 8),
    let P := p.val
    let x := s.lport P
    let on := (s.hd .lne).pwr = .on ∧ x.eth = false ∧ x.windows = true ∧ x.inj.en = false
    (x.windows = true → x.inj.delayed = [] → x.inj.enNext.getD x.inj.en = false →
      let fr : WinFrame := { tw := s.winStart, epochs := x.outEpochs.take 16, arms := x.outArms.take 32 }
      ∃ u, exec (.laneWindowStart p) s = .next u ∧ (u.lport P).frame = fr ∧ (u.lport P).sent = [(.window fr, true)] ∧ (u.lport P).outArms = x.outArms.drop 32 ∧
        (u.lport P).inj.en = false ∧ SameBut [.lne] s u) ∧
    (∀ k, x.state = .running → x.inj.en = false → s.stasWhere P (fun y => decide (y.state = .operational)) = [k] →
      let d := s.staDesc P k
      let sp := s.setPoints P k false (s.winStart + 31250)
      let img := (s.laneImage P k true d.aOut).1
      (0 < d.aOut → (s.sendsA P k = true → (s.sta P k).aHeard = true) →
        ∃ u, exec (.laneOutputRead p) s = .next u ∧ (u.lport P).sent = x.sent ++ [(.aOut k (s.winStart / 31250 % 2 ^ 32) img sp, true)] ∧ (u.sta P k).aOut = img ∧
          SameBut [.lne, .free] s u) ∧
      (s.sendsA P k = true → (s.sta P k).aHeard = false → exec (.laneOutputRead p) s = .next s ∧
        ∃ u, exec (.laneWindowEnd p) s = .next u ∧ (u.sta P k).aMissed = true ∧ (u.lport P).cntMiss = wrapInc x.cntMiss)) ∧
    (x.stopReq = true → x.state ≠ .off → ∃ u, exec (.laneCycleStart p) s = .next u ∧ (u.lport P).state = .off ∧ (u.lport P).stopReq = false) ∧
    (∀ k, x.state = .running → x.stopReq = false → x.inj.en = false →
      s.stasWhere P (fun y => (decide (y.state = .operational) || decide (y.state = .safe)) && !y.failed) = [k] → (s.sta P k).state = .operational →
      let seq := s.now / max 31250 (s.cycleNs P) % 2 ^ 32
      let sp := s.setPoints P k true (s.cycStart P + s.cycleNs P)
      ((s.sta P k).bHeard = true → (s.sta P k).noOut = false → ∃ u, exec (.laneCycleStart p) s = .next u ∧
        (u.lport P).sent = x.sent ++ [(.bOut k seq false (s.laneImage P k false (s.staDesc P k).bOut).1 sp, true)] ∧ (u.sta P k).bHeard = false ∧ SameBut [.lne, .free] s u) ∧
      ((s.sta P k).bHeard = false → (s.sta P k).missed < 65535 → (s.sta P k).missed + 1 ≠ bits (s.lneCfg P) 15 8 → ∃ u, exec (.laneCycleStart p) s = .next u ∧
        (u.lport P).sent = x.sent ++ [(.bOut k seq true [] sp, true)] ∧ (u.sta P k).missed = (s.sta P k).missed + 1 ∧ (u.sta P k).stale = true)) ∧
    (∀ (k : Fin 128) (start : Nat) (body : List Byte) (drv : List DriveStat), on →
      let y := s.sta P k.val
      let n := (nth 0 body 0).toNat
      (∃ u, exec (.aInRx p k start false body drv) s = .next u ∧ (u.lport P).cntFcs = wrapInc x.cntFcs ∧ SameBut [.lne] s u) ∧
      (x.state = .running → y.state ≠ .absent → n ≤ 8 → 4 + (s.staDesc P k.val).aIn + 8 * n ≤ body.length →
        (y.upOfs + y.ds ≤ start → start + wire (8 + body.length) + 200 ≤ y.arr → ∃ u, exec (.aInRx p k start true body drv) s = .next u ∧ (u.sta P k.val).aHeard = true) ∧
        (start < y.upOfs + y.ds → ∃ u, exec (.aInRx p k start true body drv) s = .next u ∧ (u.lport P).cntLate = wrapInc x.cntLate ∧ SameBut [.lne] s u)) ∧
      (x.state = .running → y.state ≠ .absent → 8 + (s.staDesc P k.val).bIn ≤ body.length → (nth 0 body 0).toNat = 3 →
        ∃ u, exec (.bInRx p k true body drv) s = .next u ∧ (u.sta P k.val).state = .operational ∧ (u.sta P k.val).bHeard = true ∧ (u.sta P k.val).missed = 0 ∧
          (u.sta P k.val).noOut = false ∧ (u.sta P k.val).stale = false)) ∧
    (∀ (pos : Fin 128) (body : List Byte), on → x.state = .enum → x.sentC = [.probe pos.val] → 32 ≤ body.length → pos.val < 127 →
      ∃ u, exec (.identRx p pos true body) s = .next u ∧ (u.lport P).sentC = [.probe (pos.val + 1)] ∧ (Tab.get {} (u.lport P).found pos.val).ident = parseIdent body ∧
        (u.lport P).nFound = pos.val + 1) ∧
    (∀ k : Fin 128, on → x.sentC = [.cfg k.val] → ∃ u, exec (.laneAckRx p k true 8 0) s = .next u ∧ (u.sta P k.val).state = .config ∧ (u.lport P).sentC = [.cmd k.val 2]) ∧
    (∀ k : Fin 128, on → x.sentC = [.cmd k.val 2] → ∃ u, exec (.laneAckRx p k true 9 0) s = .next u ∧ (u.sta P k.val).state = .operational ∧ (u.lport P).sentC = []) ∧
    (∀ (pos : Fin 128) (rtt turn k : Nat), on → x.state = .running → x.sentC = [.delayReq pos.val] → (Tab.get {} x.found pos.val).sta = some k → (rtt - turn) / 2 ≤ (s.sta P k).ds + 100 →
      ∃ u, exec (.delayRespRx p pos true rtt turn) s = .next u ∧ (u.sta P k).dsNow = (rtt - turn) / 2 ∧ (u.lport P).sentC = [] ∧ SameBut [.lne] s u) ∧
    ((s.hd .lne).pwr = .on → x.eth = false → x.state ≠ .off → exec (.foreignFrameRx p) s = .next (s.updPort_ P fun x => { x with cntForeign := wrapInc x.cntForeign })) ∧
    (∀ r : Principal, s.writeOk .lne (0x1000 * (P + 1) + 0x10) .wo r = true →
      let refuses := fun (i : Instr) => ∃ u, exec i s = .next u ∧ (u.lport P).state = x.state ∧ (u.lport P).result = 0x24 ∧ (u.hd .lne).errCode = 0x1124
      (x.state = .off → (s.hd .lne).run = true → bit (s.lneCfg P) 0 = false → (s.admitAll s.staDesc s.remoteTgts s.armSlots s.cycleW).1 = 0 →
        ∃ u, exec (.lneStart r p) s = .next u ∧ (u.lport P).result = 0 ∧ (x.link = false → (u.lport P).state = .linkWait) ∧
          (x.link = true → (u.lport P).state = .enum ∧ (u.lport P).sentC = [.probe 0])) ∧
      (x.state ≠ .off → refuses (.lneStart r p)) ∧
      (x.eth = false → x.state ≠ .off → exec (.lneStop r p) s = .next (s.updPort_ P fun x => { x with stopReq := true, result := 0, resultSta := 0 })) ∧
      (x.state = .running → (s.admitAll s.staDesc s.remoteTgts s.armSlots s.cycleW).1 = 0 → ∃ u, exec (.lneReenum r p) s = .next u ∧ (u.lport P).state = .enum ∧
        (u.lport P).sentC = [.probe 0] ∧ (u.lport P).found = []) ∧
      (x.state ≠ .running → refuses (.lneReenum r p))) ∧
    (∀ (r : Principal) (k : Fin 128), s.writeOk .lne (0x1000 * (P + 1) + 0x14) .wo r = true →
      (x.state = .running →
        (∃ u, exec (.staRestart r p k) s = .next u ∧ (u.lport P).sentC = x.sentC ++ [.cmd k.val 4] ∧ (u.lport P).result = 0 ∧ SameBut [.lne] s u) ∧
        (∃ u, exec (.staGoSafe r p k) s = .next u ∧ (u.lport P).sentC = x.sentC ++ [.cmd k.val 3] ∧ (u.lport P).result = 0 ∧ SameBut [.lne] s u)) ∧
      (x.state ≠ .running → ∃ u, exec (.staRestart r p k) s = .next u ∧ (u.lport P).sentC = x.sentC ∧ (u.lport P).result = 0x24)) ∧
    (∀ j, x.sentC = [.probe j] → x.state = .enum → x.nFound = j → 0 < j → ∃ u, exec (.probeTimeout p) s = .next u ∧
      (u.lport P).sentC = (List.range j).map CFrame.delayReq ∧ SameBut [.lne] s u) ∧
    (x.state = .running →
      (∃ u, exec (.delayRemeasure p) s = .next u ∧ (u.lport P).sentC = x.sentC ++ (x.found.filter fun y => y.2.sta.isSome).map fun y => CFrame.delayReq y.1) ∧
      (x.nFound < 128 → ∃ u, exec (.newStationProbe p) s = .next u ∧ (u.lport P).sentC = x.sentC ++ [.probe x.nFound])) ∧
    ((s.hd .lne).pwr = .on → x.eth = false → x.state = .linkWait → ∃ u, exec (.laneLinkUp p) s = .next u ∧ (u.lport P).link = true ∧ (u.lport P).state = .enum ∧ (u.lport P).sentC = [.probe 0]) ∧
    (x.eth = false → x.windows = true → ∃ u, exec (.laneLinkDown p) s = .next u ∧ (u.lport P).link = false ∧ ((u.lport P).state = .linkWait ∨ (u.erm.fatal = true ∧ (u.lport P).state = .off))) ∧
    (∀ r : Principal, s.writeOk .lne (0x1000 * (P + 1) + 0x40) .w1s r = true →
      (s.debugOpen = true → exec (.lneInjUnlock r p) s = .next (s.updPort_ P fun x => { x with inj := { x.inj with unlocked := true } })) ∧
      (s.debugOpen = false → ∃ u, exec (.lneInjUnlock r p) s = .next u ∧ u.lne = s.lne ∧ (u.hd .lne).errCode = 0x1125)) ∧
    (∀ r : Principal, s.writeOk .lne (0x1000 * (P + 1) + 0x4C) .rw r = true →
      (x.inj.unlocked = true → s.portPend P = 0 → x.inj.enNext.getD x.inj.en = false → ∃ u, exec (.lneInjEn r p true) s = .next u ∧ (u.lport P).inj = { x.inj with enNext := some true }) ∧
      (x.inj.unlocked = false → ∃ u, exec (.lneInjEn r p true) s = .next u ∧ u.lne = s.lne ∧ (u.hd .lne).errCode = 0x1125) ∧
      (x.inj.unlocked = true → s.portPend P ≠ 0 → ∃ u, exec (.lneInjEn r p true) s = .next u ∧ u.lne = s.lne ∧ (u.hd .lne).errCode = 0x1126)) ∧
    (∀ (f : List Byte) (t8 : Nat), x.state = .ethUp → (s.hd .lne).pwr = .on → (s.hd .mem).running = true → 60 ≤ f.length → f.length ≤ 1518 → s.ethTakes P f = true → 0 < s.ethRx P →
      x.rxHead ≠ x.rxTail → ∃ u, exec (.ethRxFrame p f true t8) s = .next u ∧ (u.lport P).rxHead = (x.rxHead + 1) % s.ethRx P ∧ SameBut [.lne, .mem] s u) ∧
    (∀ (r : Principal) (v : BitVec 16), s.writeOk .lne (0x1000 * (P + 1) + 0x10C) .rw r = true → exec (.ethRxTail r p v) s = .next (s.updPort_ P fun x => { x with rxTail := v.toNat })) ∧
    (∀ (r : Principal) (v : BitVec 16), s.writeOk .lne (0x1000 * (P + 1) + 0x114) .rw r = true → exec (.ethTxTail r p v) s = .next (s.updPort_ P fun x => { x with txTail := v.toNat })) ∧
    (∀ t8, x.state = .ethUp → (s.hd .mem).running = true → 0 < s.ethTx P → x.txHead ≠ x.txTail →
      let e := s.txEntry P x.txHead
      let f := s.load (s.mem64 e) (s.mem64 (e + 8) % 65536)
      s.ptpEvent P f = none → ∃ u, exec (.ethTxDone p t8) s = .next u ∧ (u.lport P).txHead = (x.txHead + 1) % s.ethTx P ∧ (u.lport P).ethSent = x.ethSent ++ [f] ∧ SameBut [.lne, .mem] s u)

/-- The Avenue ports, the Junction and the gateway act on their commands. Ports train, greet, measure, fail and return as Table AVE-1 gives; a frame
for another device goes on with HOPS one lower or is discarded and counted; a good frame for this device acts by its type: points reach their
subscribed points, requests are answered, responses end their request, advertisements enter the link-state table, discovery gives IDs, TIME updates
the parent, subscriptions, admissions, grants, RELEASE and heartbeats are decided. Window accesses become requests or reach the own map;
publications, routing, roles of Table AVE-6 and injection act as given. (R330, R331, R333, R334, R335, R336, R338, R339, R340, R341, R342, R357) -/
def Obligations.AvenuePortsAndGateway : Prop :=
  ∀ (s : State) (p : Fin 6),
    let P := p.val
    let x := s.aport P
    let on := s.present .ave = true ∧ x.st = .up ∧ x.inj.en = false
    let opens := fun q => (s.aport q).st = .up ∧ (s.aport q).inj.en = false
    (∀ (peer : Fin 64) (pp : Fin 6) (role : Fin 4) (dly : Nat), x.st = .training →
      ∃ t, exec (.aveTrainingDone p peer pp role dly) s = .next t ∧ (t.aport P).st = .up ∧ (t.aport P).peer = peer.val ∧ (t.aport P).peerPort = pp.val ∧ (t.aport P).dly = min 65535 dly ∧
        (s.ave.discBusy = true → role.val = 1 → t.ave.discBusy = false ∧ t.ave.result = 0x28)) ∧
    (x.st ≠ .off → exec (.aveHelloSend p) s = .next (s.updAport P fun x => { x with hello := some (s.ave.devId, P, s.ave.role.code) })) ∧
    (x.st = .up → (∃ t, exec (.aveHelloTimeout p) s = .next t ∧ (t.aport P).st = .down ∧ t.ave.change = some (s.ave.devId, P, s.now - 4000) ∧
        ∀ d < 64, (s.route d).valid = true → (s.route d).lfa = true → (s.route d).pri = P → (t.route d).usingAlt = true) ∧
      ∃ t, exec (.aveLockLoss p) s = .next t ∧ (t.aport P).st = .down ∧ t.ave.change = some (s.ave.devId, P, s.now - 1000)) ∧
    (x.st = .down → exec (.aveBlockLockRegained p) s = .next (s.updAport P fun x => { x with st := .training })) ∧
    (∀ dly, x.st = .up → exec (.aveDelayMeasure p dly) s = .next (s.updAport P fun x => { x with dly := min 65535 dly })) ∧
    -- frames: what is no good, what goes on, and what acts here
    (∀ (h : AHdr) (time : Nat) (recs : List PtRec), on →
      (h.crc = false → ∃ t, exec (.ptARx p h time recs) s = .next t ∧ (t.aport P).cntCrc = wrapInc x.cntCrc ∧ (t.aport P).cntDrop = wrapInc x.cntDrop ∧ SameBut [.ave] s t) ∧
      (h.crc = true → s.ave.owns h.dst = false → h.hops = 0 → ∃ t, exec (.ptARx p h time recs) s = .next t ∧ (t.aport P).cntDrop = wrapInc x.cntDrop ∧ SameBut [.ave] s t) ∧
      (∀ q, h.crc = true → s.ave.owns h.dst = false → h.hops ≠ 0 → s.nextPort h.dst = some q → opens q → ∃ t, exec (.ptARx p h time recs) s = .next t ∧
        (t.aport q).sent = (s.aport q).sent ++ [({ dst := h.dst, src := h.src, hops := h.hops - 1, tag := h.tag, body := .ptA time recs }, true)] ∧ SameBut [.ave] s t) ∧
      (∀ r i, h.crc = true → s.ave.owns h.dst = true → recs = [r] → s.boundTo .ave (h.src * 2 ^ 19 + r.idx) = some i →
        let t := ((s.pointWrite i r.value r.q time).followPoint i s.tick).setFrameT 3 h.src time
        ((Tab.get {} s.ave.subs i).confirmed = true →
          exec (.ptARx p h time recs) s = .next t ∧ exec (.ptBRx p h false time recs) s = .next t ∧ exec (.ptBRx p h true time recs) s = .next t) ∧
        ((Tab.get {} s.ave.subs i).confirmed = false → exec (.ptARx p h time recs) s = .next (s.setFrameT 3 h.src time)))) ∧
    (∀ (h : AHdr) (off : Nat) (pr : Principal) (wide : Bool) (data : Nat), on → h.crc = true → s.ave.owns h.dst = true →
      let n := if wide then 8 else 4
      let far := decide ¬(0x20000000 ≤ off ∧ off < 0x20080000)
      exec (.rdReqRx p h off pr wide) s = .next (
        let a := s.busGet pr none off n .clean
        a.1.aveSend { dst := h.src, src := a.1.ave.devId, tag := h.tag, body := .rdResp far (a.2 % 256) a.1.out }) ∧
      exec (.wrReqRx p h off pr wide data) s = .next (
        let a := s.busPut pr off n data
        a.1.aveSend { dst := h.src, src := a.1.ave.devId, tag := h.tag, body := .wrResp far (a.2 % 256) })) ∧
    (∀ (h : AHdr) (c : Bool) (q : FReq) (data : Nat), on → h.crc = true → s.ave.owns h.dst = true → s.ave.waitReqs = [] →
      (s.ave.reqs = [(h.tag, q)] → q.dev = h.src →
        (q.wr = false → ∃ t, exec (.rdRespRx p h c 0 data) s = .next t ∧ t.ave.reqs = [] ∧ t.out = data ∧ SameBut [.ave, .out] s t) ∧
        (q.wr = true → ∃ t, exec (.wrRespRx p h c 0) s = .next t ∧ t.ave.reqs = [] ∧ SameBut [.ave] s t)) ∧
      (s.ave.reqs = [] → exec (.rdRespRx p h c 0 data) s = .next s ∧ exec (.wrRespRx p h c 0) s = .next s)) ∧
    (∀ (h : AHdr) (dev : Fin 64) (port : Fin 6) (up : Bool) (peer : Fin 64) (seq ago : Nat), on → h.crc = true → s.ave.owns dev.val = false →
      let old := Tab.get {} s.ave.lst (dev.val * 8 + port.val)
      (seqAfter seq old.seq = true → ∃ t, exec (.lsaRx p h dev port up peer seq ago) s = .next t ∧
        Tab.get {} t.ave.lst (dev.val * 8 + port.val) = { up := up, peer := peer.val, seq := seq } ∧
        (old.up = true → up = false → t.ave.change = some (dev.val, port.val, s.now - ago)) ∧ SameBut [.ave] s t) ∧
      (seqAfter seq old.seq = false → exec (.lsaRx p h dev port up peer seq ago) s = .next s)) ∧
    (∀ (h : AHdr) (serial port role : Nat), on → h.crc = true →
      (serial = Config.aveSerial.toNat → ∃ t, exec (.discRx p h false serial port role) s = .next t ∧ t.ave.devId = h.dst ∧ t.ave.assigned = true ∧
        (s.ave.role = .left → s.gwMode ≠ 2 → t.ave.role = .member)) ∧
      (s.ave.role = .active → s.ave.discBusy = true →
        (∃ t, exec (.discRx p h true serial port 1) s = .next t ∧ t.ave.discBusy = false ∧ t.ave.result = 0x28) ∧
        (∀ n, role ≠ 1 → s.ave.devs.any (fun e => decide (e.2.serial = serial) && decide (e.1 ≠ 0)) = false → s.idFor serial = (some n, 0) →
          ∃ t, exec (.discRx p h true serial port role) s = .next t ∧ (Tab.get {} t.ave.devs n).serial = serial) ∧
        (role ≠ 1 → s.ave.devs.any (fun e => decide (e.2.serial = serial) && decide (e.1 ≠ 0)) = false → s.idFor serial = (none, 0x27) →
          ∃ t, exec (.discRx p h true serial port role) s = .next t ∧ t.ave.discBusy = false ∧ t.ave.result = 0x27 ∧ t.ave.devs = s.ave.devs))) ∧
    (∀ (h : AHdr) (t0 flags hops : Nat) (gm utc : List Byte) (rx : Nat), on → h.crc = true →
      (s.timSrc = 2 → s.timeParent = some P → ∃ t, exec (.timeFrameRx p h t0 flags hops gm utc rx) s = .next t ∧
        t.tim.parent = { dev := x.peer, port := P, hops := hops + 1, synced := nbit flags 0, flags := flags, gm := gm, utc := utc }) ∧
      (s.timSrc ≠ 2 ∨ s.timeParent ≠ some P → exec (.timeFrameRx p h t0 flags hops gm utc rx) s = .next s)) ∧
    (∀ (h : AHdr) (ns line ps : Nat), on → h.crc = true → s.ave.owns h.dst = true →
      (s.acq.records = true → exec (.trigFrameRx p h ns line ps) s =
        .next ((s.record .acq 0 0x1315 [line, h.src, ns % 2 ^ 32]).seqEvents [.fabric line (ns * 1000 + ps)] (s.tick + 1))) ∧
      (s.acq.records = false → exec (.trigFrameRx p h ns line ps) s = .next s)) ∧
    (∀ (h : AHdr) (seq : Nat) (frag : Fin 4) (dev : Fin 64) (bytes : List Byte), on → h.crc = true → s.ave.owns h.dst = true →
      exec (.recFrameRx p h seq frag dev bytes) s = .next (s.histRx seq frag.val dev.val bytes)) ∧
    (∀ (h : AHdr) (sub : Fin 64) (gid : BitVec 25) (cls : Fin 4) (kind : Fin 8) (long cont prot : Bool), on → h.crc = true → s.ave.owns h.dst = true →
      let i := gid.toNat % 2 ^ 19
      let e := s.point i
      let known := s.ave.pubs.any fun q => decide (q.idx = i) && decide (q.dst = sub.val)
      ((classOf cls.val = .a → e.hot = true ∧ e.cls = .a ∧ e.kind = kindOf kind.val) → (known = true ∨ s.ave.pubs.length < 4096) →
        ∃ t, exec (.ctrlSubscribe p h sub gid cls kind true long cont prot) s = .next t ∧ ({ idx := i, dst := sub.val, cls := classOf cls.val } : Pub) ∈ t.ave.pubs) ∧
      ((classOf cls.val = .a → e.hot = true ∧ e.cls = .a ∧ e.kind = kindOf kind.val) → known = false → 4096 ≤ s.ave.pubs.length → s.ave.owns sub.val = false →
        ∃ t, exec (.ctrlSubscribe p h sub gid cls kind true long cont prot) s = .next t ∧ t.ave.pubs = s.ave.pubs ∧ (t.hd .ave).errCode = 0x1223) ∧
      (classOf cls.val = .a → e.hot = false → s.ave.owns sub.val = false →
        ∃ t, exec (.ctrlSubscribe p h sub gid cls kind true long cont prot) s = .next t ∧ t.ave.pubs = s.ave.pubs ∧ (t.hd .ave).errCode = 0x1224)) ∧
    (∀ (h : AHdr) (src dst : Fin 64) (prot : Bool), on → h.crc = true → s.ave.owns h.dst = true →
      (s.ave.role = .active → (s.route src.val).valid = true →
        (s.ownLong src.val dst.val = false →
          (∃ t, exec (.ctrlAdmit p h src dst false false prot) s = .next t ∧ t.ave.flows = s.ave.flows ++ [{ src := src.val, dst := dst.val, protected_ := prot }]) ∧
          (∃ t, exec (.ctrlAdmit p h src dst false true prot) s = .next t ∧ t.ave.flows = s.ave.flows ∧ (t.hd .ave).errCode = 0x1220)) ∧
        (∀ long cont, long = true ∨ s.ownLong src.val dst.val = true →
          ∃ t, exec (.ctrlAdmit p h src dst long cont prot) s = .next t ∧ t.ave.flows = s.ave.flows ∧ (t.hd .ave).errCode = 0x1221)) ∧
      (s.ave.role = .standby → ∀ long cont, exec (.ctrlAdmit p h src dst long cont prot) s =
        .next (s.updAve fun a => { a with flows := a.flows ++ [{ src := src.val, dst := dst.val, protected_ := prot }] }))) ∧
    (∀ (h : AHdr) (dev mbps : Nat), on → h.crc = true → s.ave.owns h.dst = true → s.ave.role = .active →
      let sum := s.ave.recSum - (Tab.get {} s.ave.devs dev).grant + mbps
      (sum ≤ s.recLimit → ∃ t, exec (.ctrlGrant p h (.recReq dev mbps)) s = .next t ∧ t.ave.recSum = sum ∧ (Tab.get {} t.ave.devs dev).grant = mbps) ∧
      (s.recLimit < sum → ∃ t, exec (.ctrlGrant p h (.recReq dev mbps)) s = .next t ∧ t.ave.recSum = s.ave.recSum ∧ t.ave.devs = s.ave.devs ∧ (t.hd .ave).errCode = 0x1225)) ∧
    (∀ h : AHdr, on → h.crc = true → s.ave.owns h.dst = true → s.ave.role = .standby →
      (∃ t, exec (.ctrlRelease p h) s = .next t ∧ t.ave.role = .active ∧ t.ave.alias0 = true) ∧
      exec (.ctrlHeartbeat p h) s = .next (s.updAve fun a => { a with hbT := s.now })) ∧
    -- the fabric window
    (∀ (r : Requester) (pr : Principal) (dev : Fin 64) (off : Fin 68719476736) (v : BitVec 64), off.val % 4 = 0 →
      ∀ a : Fin 4398046511104, a.val = dev.val * 2 ^ 36 + off.val →
      (s.ave.owns dev.val = false → s.present .ave = true → (s.route dev.val).valid = true → s.ave.reqs.length < 64 → s.ave.waitReqs = [] →
        ∃ t, exec (.fabricAccess r pr false a 4 v .clean) s = .next t ∧ SameBut [.ave] s t ∧
          t.ave.reqs = s.ave.reqs ++ [(s.ave.nextTag, { dev := dev.val, req := r, addr := off.val, wr := false, wide := false, body := .rdReq off.val pr false })]) ∧
      (s.ave.owns dev.val = false → (s.route dev.val).valid = false → ∃ t, exec (.fabricAccess r pr false a 4 v .clean) s = .next t ∧ t.out = 0xFFFFFFFF ∧ t.ave = s.ave) ∧
      (s.ave.owns dev.val = true → exec (.fabricAccess r pr true a 4 v .clean) s =
        .next ((s.busPut pr off.val 4 v.toNat).1.told r (s.busPut pr off.val 4 v.toNat).2 (0x100000000000 + a.val)))) ∧
    (∀ (tag : BitVec 16) (q : FReq), s.ave.reqs = [(tag.toNat, q)] → s.ave.waitReqs = [] → ∃ t, exec (.aveReqTimeout tag) s = .next t ∧ t.ave.reqs = [] ∧
      (q.wr = false → t.out = if q.wide then 0xFFFFFFFFFFFFFFFF else 0xFFFFFFFF)) ∧
    -- publication and time-outs
    (∀ (i : Fin 524288) (dst : Fin 64) (q : Nat), s.nextPort dst.val = some q → opens q →
      (s.ave.pubs = [{ idx := i.val, dst := dst.val, cls := .a }] → ∃ t, exec (.ptPublish i dst) s = .next t ∧ SameBut [.ave] s t ∧
        (t.aport q).sent = (s.aport q).sent ++ [({ dst := dst.val, src := s.ave.devId, body := .ptA (s.fullTime (s.point i.val) (s.readPoint i.val).timeLo) [s.ptRec i.val] }, true)]) ∧
      (s.ave.pubs = [{ idx := i.val, dst := dst.val, cls := .b }] → ∃ t, exec .ptBPublish s = .next t ∧ SameBut [.ave] s t ∧
        (t.aport q).sent = (s.aport q).sent ++ [({ dst := dst.val, src := s.ave.devId, body := .ptB false s.now [s.ptRec i.val] }, true)]) ∧
      (s.ave.standby = some dst.val → s.ave.role = .active → ∃ t, exec .gwHeartbeatSend s = .next t ∧ SameBut [.ave] s t ∧
        (t.aport q).sent = (s.aport q).sent ++ [({ dst := dst.val, src := s.ave.devId, body := .heartbeat }, true)])) ∧
    (∀ i : Fin 524288, (s.point i.val).srcType = .ave → s.canWrite i.val = true → s.forceOf i.val = none → (s.point i.val).substEn = false →
      (∃ t, exec (.peerFrameTimeout i true) s = .next t ∧ t.entry i.val = { s.entry i.val with q := markCommLost (s.entry i.val).q }) ∧
      (∃ t, exec (.peerFrameTimeout i false) s = .next t ∧ t.entry i.val = { s.entry i.val with q := markStale (s.entry i.val).q })) ∧
    (∃ t, exec .routeRecomputeDone s = .next t ∧ t.ave.rtNext = some s.rtCompute ∧ t.ave.lst = s.ave.lst ∧ SameBut [.ave] s t) ∧
    -- the gateway
    (∀ r : Principal, s.writeOk .ave 0x10C .wo r = true →
      (s.ave.role = .member → s.gwMode = 1 → s.hif.up = true → s.ave.alias0 = false → ∃ t, exec (.aveDiscover r) s = .next t ∧ t.ave.role = .active ∧ t.ave.devId = 0 ∧
        t.ave.assigned = true ∧ t.ave.discBusy = true ∧ t.ave.result = 0) ∧
      (s.ave.role = .standby ∨ s.ave.role = .left ∨ (s.ave.role = .member ∧ (s.gwMode ≠ 1 ∨ s.hif.up = false)) → ∃ t, exec (.aveDiscover r) s = .next t ∧
        t.ave = { s.ave with result := 0x26 } ∧ (t.hd .ave).errCode = 0x1226) ∧
      (s.ave.role ≠ .active → ∃ t, exec (.aveRelease r) s = .next t ∧ t.ave = { s.ave with result := 0x26 } ∧ (t.hd .ave).errCode = 0x1226) ∧
      (∀ d, s.ave.role = .active → s.standbyReach = some d → ∃ t, exec (.aveRelease r) s = .next t ∧ t.ave.role = .left ∧ t.ave.result = 0) ∧
      (s.ave.role = .active → s.standbyReach = none → ∃ t, exec (.aveRelease r) s = .next t ∧ t.ave = { s.ave with result := 0x29 } ∧ (t.hd .ave).errCode = 0x1229)) ∧
    ((s.ave.discBusy = true → ∃ t, exec .discoveryComplete s = .next t ∧ t.ave = { s.ave with discBusy := false }) ∧
      (s.ave.discBusy = false → exec .discoveryComplete s = .next s)) ∧
    (∀ d : Fin 64, s.ave.role = .active → s.ave.known d.val = true → s.ave.owns d.val = false → ∃ t, exec (.deviceLostTimeout d) s = .next t ∧ t.ave.known d.val = false ∧
      t.ave.recSum = s.ave.recSum - (Tab.get {} s.ave.devs d.val).grant) ∧
    (s.ave.role = .standby → ((s.route 0).valid = false → ∃ t, exec .gwHbTimeout s = .next t ∧ t.ave.role = .active ∧ t.ave.alias0 = true) ∧
      ((s.route 0).valid = true → exec .gwHbTimeout s = .next s)) ∧
    (∀ d, s.ave.role = .active → s.standbyReach = some d → (s.hif.up = false → ∃ t, exec .hostLinkLossTimeout s = .next t ∧ t.ave.role = .left) ∧
      (s.hif.up = true → exec .hostLinkLossTimeout s = .next s)) ∧
    -- injection
    (∀ r : Principal, s.writeOk .ave (0x1040 + 0x1000 * P) .w1s r = true →
      (s.debugOpen = true → exec (.aveInjUnlock r p) s = .next (s.updAport P fun x => { x with inj := { x.inj with unlocked := true } })) ∧
      (s.debugOpen = false → ∃ t, exec (.aveInjUnlock r p) s = .next t ∧ t.ave = s.ave ∧ (t.hd .ave).errCode = 0x122A)) ∧
    (∀ r : Principal, s.writeOk .ave (0x104C + 0x1000 * P) .rw r = true →
      (x.inj.unlocked = true → s.flowsOver P = 0 → x.inj.enNext.getD x.inj.en = false → ∃ t, exec (.aveInjEn r p true) s = .next t ∧ (t.aport P).inj = { x.inj with enNext := some true }) ∧
      (x.inj.unlocked = false → ∃ t, exec (.aveInjEn r p true) s = .next t ∧ t.ave = s.ave ∧ (t.hd .ave).errCode = 0x122A) ∧
      (x.inj.unlocked = true → s.flowsOver P ≠ 0 → ∃ t, exec (.aveInjEn r p true) s = .next t ∧ t.ave = s.ave ∧ (t.hd .ave).errCode = 0x122B))

/-- The time unit measures, steps, sets, holds over, stamps and counts its uncertainty. A PTP submission is a measurement: discarded while a step
waits, else by Table TIM-1 and R349 with I, F and the states given, TIM_UNC then 0; in other modes it is refused. A phase step moves network time by
whole microseconds, a TIM_SET is taken only in FREERUN as a multiple of 1000 ns and applies first. HOLDOVER freezes F from I. TIME frames leave every
UP port. Reads of TIM_NOW_LO and TXTS_INFO latch; POP removes the head. UNC beyond LOST_LIM sets TIME_LOST. (R346, R347, R348, R349, R350, R351,
R352, R355, R357, R361, R362) -/
def Obligations.TimeUnitFollowsTheServoTable : Prop :=
  ∀ s : State,
    let x := s.tim
    let kp : Int := bits (s.reg R.TIM_SRV_GAIN) 15 0
    let ki : Int := bits (s.reg R.TIM_SRV_GAIN) 31 16
    let adj : Int := (s.reg R.TIM_SRV_ADJMAX).toNat
    let ts : Nat := 256 * max 1 s.servoTs
    let hold := fun corr : Int => clamp (-adj) adj (roundAway (-corr * 1000000000) ts)
    (∀ (r : Principal) (hi : Word), s.writeOk .tim 0x138 .wo r = true →
      let o := sext 64 ((s.reg R.TIM_OFS_LO).toNat + 2 ^ 32 * hi.toNat)
      (s.timSrc ≠ 1 → ∃ t, exec (.timOfsSubmit r hi) s = .next t ∧ t.tim = x ∧ (t.hd .tim).errCode = 0x0620) ∧
      (s.timSrc = 1 → (x.stepPend.isSome = true ∨ x.st = .freerun) → exec (.timOfsSubmit r hi) s = .next s) ∧
      (s.timSrc = 1 → x.stepPend = none → x.st ≠ .freerun → ∃ t, exec (.timOfsSubmit r hi) s = .next t ∧ t.tim.net = x.net ∧ t.tim.unc = 0 ∧ t.tim.lastOfs = satS 32 o) ∧
      (s.timSrc = 1 → x.stepPend = none → x.st = .acquire → x.r1 = none → ∃ t, exec (.timOfsSubmit r hi) s = .next t ∧ t.tim.st = .acquire ∧ t.tim.freq = x.freq ∧ t.tim.unc = 0 ∧
        (o.natAbs ≤ s.stepThr → t.tim.r1 = some o ∧ t.tim.stepPend = none) ∧
        (s.stepThr < o.natAbs → t.tim.r1 = some (o - roundAway o 1000 * 1000) ∧ t.tim.stepPend = some (-(roundAway o 1000) * 1000))) ∧
      (∀ r1, s.timSrc = 1 → x.stepPend = none → x.st = .acquire → x.r1 = some r1 → o.natAbs ≤ s.stepThr → ∃ t, exec (.timOfsSubmit r hi) s = .next t ∧
        t.tim.st = .locking ∧ t.tim.iAcc = (o - r1) * 256 ∧ t.tim.freq = hold (kp * o + (o - r1) * 256)) ∧
      (s.timSrc = 1 → x.stepPend = none → (x.st = .locking ∨ x.st = .locked ∨ x.st = .holdover) → o.natAbs ≤ s.stepThr → ∃ t, exec (.timOfsSubmit r hi) s = .next t ∧
        t.tim.iAcc = x.iAcc + ki * o ∧ t.tim.freq = hold (kp * o + (x.iAcc + ki * o)) ∧ t.tim.inc = incOf t.tim.freq ∧ t.tim.stepPend = none ∧
        (x.st = .locked → o.natAbs ≤ s.lockThr → t.tim.st = .locked ∧ t.tim.cnt = 0) ∧
        (x.st = .locked → s.lockThr < o.natAbs → x.cnt = 0 → t.tim.st = .locked ∧ t.tim.cnt = 1) ∧
        (x.st = .locked → s.lockThr < o.natAbs → x.cnt ≠ 0 → t.tim.st = .locking) ∧
        (x.st = .locking → o.natAbs ≤ s.lockThr → s.lockN = x.cnt + 1 → s.clk.timeDeg = false → t.tim.st = .locked ∧ t.tim.lost = false) ∧
        (x.st = .locking → o.natAbs ≤ s.lockThr → s.clk.timeDeg = true → t.tim.st = .locking) ∧
        (x.st = .locking → s.lockThr < o.natAbs → 0 < s.lockN → t.tim.st = .locking ∧ t.tim.cnt = 0)) ∧
      (s.timSrc = 1 → x.stepPend = none → (x.st = .locking ∨ x.st = .locked) → s.stepThr < o.natAbs → ∃ t, exec (.timOfsSubmit r hi) s = .next t ∧ t.tim.st = .locking ∧
        t.tim.iAcc = x.iAcc ∧ t.tim.freq = hold x.iAcc ∧ t.tim.stepPend = some (-(roundAway o 1000) * 1000))) ∧
    (∀ d : Int, x.setPend = none → x.stepPend = some d → ∃ t, exec .timPhaseStep s = .next t ∧ t.tim.net = ((x.net : Int) + d).toNat % 2 ^ 64 ∧ t.tim.stepPend = none ∧
      t.tim.steps = wrapInc x.steps) ∧
    (∀ v : Nat, x.setPend = some v → ∃ t, exec .timPhaseStep s = .next t ∧ t.tim.net = v ∧ t.tim.setPend = none ∧ t.tim.stepPend = none ∧ t.tim.unc = 0 ∧ t.tim.lost = false) ∧
    (x.setPend = none → x.stepPend = none → exec .timPhaseStep s = .next s) ∧
    (∀ (r : Principal) (hi : Word), s.writeOk .tim 0x144 .wo r = true →
      let v := (s.reg R.TIM_SET_LO).toNat + 2 ^ 32 * hi.toNat
      (x.st ≠ .freerun → ∃ t, exec (.timSet r hi) s = .next t ∧ t.tim = x ∧ (t.hd .tim).errCode = 0x0621) ∧
      (x.st = .freerun → v % 1000 ≠ 0 → ∃ t, exec (.timSet r hi) s = .next t ∧ t.tim = x ∧ (t.hd .tim).errCode = 0x0622) ∧
      (x.st = .freerun → v % 1000 = 0 → exec (.timSet r hi) s = .next (s.updTim fun y => { y with setPend := some v }))) ∧
    ((x.st = .locking ∨ x.st = .locked) → ∃ t, exec .servoHoldover s = .next t ∧ t.tim.st = .holdover ∧ t.tim.freq = hold x.iAcc ∧ t.tim.iAcc = x.iAcc) ∧
    (x.st ≠ .locking → x.st ≠ .locked → exec .servoHoldover s = .next s) ∧
    (s.upPorts = [] → ∃ t, exec .timeFrameSend s = .next t ∧ SameBut [.free] s t) ∧
    (∀ p < 6, (s.aport p).st = .up → (s.aport p).inj.en = false → ∃ t f, exec .timeFrameSend s = .next t ∧ (t.aport p).sent = (s.aport p).sent ++ [(f, true)] ∧ SameBut [.ave, .free] s t ∧
      f.dst = (s.aport p).peer ∧ f.src = s.ave.devId ∧ ∃ flags hops gm utc, f.body = .time s.now flags hops gm utc 0 ∧
        flags % 2 = (if x.st = .locked ∨ s.ave.role = .active then 1 else 0) ∧ hops = (if s.ave.role = .active then 0 else (s.route 0).hops)) ∧
    (s.present .tim = true → ∃ t, exec .timNowRead s = .next t ∧ t.out = x.net % 2 ^ 32 ∧ t.tim.hiLatch = x.net / 2 ^ 32 % 2 ^ 32 ∧ t.tim.net = x.net ∧ SameBut [.tim, .out] s t) ∧
    (∀ (p : Fin 8) (e : TxStamp) (l : List TxStamp), s.present .tim = true → (s.txPort p.val).queue = e :: l → l.length < 15 →
      ∃ t, exec (.txtsInfoRead p) s = .next t ∧ t.out = e.id + e.typ * 2 ^ 16 + 2 ^ 24 + (l.length + 1) * 2 ^ 25 ∧ (t.txPort p.val).latched = e.stamp ∧
        (t.txPort p.val).queue = e :: l ∧ SameBut [.tim, .out] s t) ∧
    (∀ (p : Fin 8) (r : Principal), s.writeOk .tim (0x210 + 0x20 * p.val) .w1s r = true →
      exec (.txtsPop r p) s = .next (s.updTx p.val fun y => { y with queue := y.queue.drop 1 })) ∧
    (∀ u : Nat, u < 2 ^ 32 → x.coarse = true → (s.lostLim < u → ∃ t, exec (.uncLimitExceeded u) s = .next t ∧ t.tim = { x with unc := u, lost := true }) ∧
      (u ≤ s.lostLim → exec (.uncLimitExceeded u) s = .next s))

/-- The acquisition engine arms, triggers, records, re-arms, stops and clears as Table ACQ-4 gives. ARM is accepted where the checks pass and else
sets RESULT; at the boundary it clears sequencer, counters, flags and log. A due sample joins its channel's block; a skipped read is counted. A true
slot moves the sequencer; an EXT edge with CAPTURE is accepted at the edge's own time and enters POST. POST ends in REARM, DONE or STOPPED; re-arming
measures the dead time; STOP and CLEAR act in the states given and are refused elsewhere. A waiting block is written, or left with a wrong CRC and
BLOCK_FAIL. (R366, R368, R370, R373, R374, R375, R376, R378) -/
def Obligations.AcquisitionSessions : Prop :=
  ∀ s : State,
    let x := s.acq
    let quiet := fun st : Nat => ∀ slot < 4, bits (s.seqQ st slot 0) 3 0 = 0
    let due := s.chansWhere fun g => !g.adc && decide (g.div ≠ 0) && decide (s.now % (1000 * max 1 g.div) = 0)
    let refused := fun (t : State) (e : Nat) => t.acq = { x with result := e, resultCh := 0 } ∧ (t.hd .acq).errCode = 0x1300 + e
    -- the channels
    (x.records = false → ∀ b, exec (.acqPointSample b) s = .next s) ∧
    (x.records = true → quiet x.seqState → ∃ t, exec (.acqPointSample true) s = .next t ∧ t.acq.missed = wrapInc x.missed ∧ t.acq.state = x.state) ∧
    (∀ c, x.state = .armed → quiet x.seqState → due = [c] →
      let g := s.chCfg c
      let k := s.chan c
      let v := s.pointSample g.src
      g.mode = 0 → g.redN = 1 → g.depth ≠ 0 → s.wideCh g = false → k.n = 0 → k.dropped = 0 → k.count + 1 < 2016 →
      ∃ t, exec (.acqPointSample false) s = .next t ∧ (t.chan c).recs = k.recs ++ natBytesLE (v.1 % 2 ^ 32).toNat 2 ∧ (t.chan c).count = k.count + 1 ∧
        (t.chan c).last = some v.1 ∧ (t.chan c).lastT = s.now * 1000 ∧ (t.chan c).qor = k.qor ||| v.2.1 ∧ SameBut [.acq] s t) ∧
    -- the sequencer
    (∀ (k : Fin 4) (t0 : Nat), Tab.get none x.tmr k.val = some t0 →
      (quiet x.seqState → ∃ t, exec (.acqTimerExpiry k) s = .next t ∧ Tab.get none t.acq.tmr k.val = none ∧ Tab.get none t.acq.exp k.val = some (2500 * t0) ∧
        t.acq.seqState = x.seqState ∧ SameBut [.acq] s t) ∧
      (x.records = true → x.seqIn ≤ 2500 * t0 →
        let q0 := s.seqQ x.seqState 0 0
        bits q0 3 0 = 8 → bits q0 17 12 = k.val → s.seqQ x.seqState 0 2 = 0 → quiet (bits q0 7 4) →
        ∃ t, exec (.acqTimerExpiry k) s = .next t ∧ t.acq.seqState = bits q0 7 4 ∧ t.acq.seqIn = 2500 * t0 ∧ t.acq.state = x.state ∧ SameBut [.acq] s t)) ∧
    (∀ (k : Fin 4) (rising : Bool) (t8 : Nat), (s.hd .csc).pwr ≠ .on → (s.hd .acq).pwr = .on →
      (quiet x.seqState → exec (.trigInEdge k rising t8) s = .next s) ∧
      (x.state = .armed → x.seqIn ≤ t8 * 625 / 2 →
        let q0 := s.seqQ x.seqState 0 0
        bits q0 3 0 = 4 → bits q0 17 12 = k.val → bits q0 10 8 = (if rising then 0 else 1) → s.seqQ x.seqState 0 2 = 1 → quiet (bits q0 7 4) →
        ∃ t, exec (.trigInEdge k rising t8) s = .next t ∧ t.acq.state = .post ∧ t.acq.trigs = x.trigs + 1 ∧ t.acq.trig = t8 * 625 / 2 / 1000 ∧
          t.acq.trigPs = t8 * 625 / 2 % 1000 ∧ t.acq.acc = (t8 / 8 + 1) * 5 / 2 ∧ t.acq.seqState = bits q0 7 4)) ∧
    (∀ (r : Principal) (m : Word), s.writeOk .acq 0x138 .w1s r = true → quiet x.seqState →
      ∃ t, exec (.acqTflagSet r m) s = .next t ∧ t.acq.tflag = (word x.tflag ||| m).toNat ∧ t.acq.state = x.state ∧ SameBut [.acq] s t) ∧
    -- the session
    (∀ (r : Principal) (ok : Bool), s.writeOk .acq 0x118 .wo r = true →
      (s.armCheck ok = (0, 0) → exec (.acqArm r ok) s = .next (s.updAcq fun a => { a with armReq := true, result := 0, resultCh := 0 })) ∧
      (∀ e c, e ≠ 0 → e < 256 → s.armCheck ok = (e, c) → ∃ t, exec (.acqArm r ok) s = .next t ∧ t.acq = { x with result := e, resultCh := c } ∧ (t.hd .acq).errCode = 0x1300 + e) ∧
      (x.records = true → s.armCheck ok = (0x24, 0)) ∧
      (s.segN = 0 ∨ 128 < s.segN → (s.armCheck ok).1 ≠ 0)) ∧
    (x.armReq = true → s.acqArmEffective.acq.state = .armed ∧ s.acqArmEffective.acq.session = wrapInc x.session ∧ s.acqArmEffective.acq.seqState = 0 ∧
      s.acqArmEffective.acq.cnt = [] ∧ s.acqArmEffective.acq.tmr = [] ∧ s.acqArmEffective.acq.flag0 = 0 ∧ s.acqArmEffective.acq.flag1 = 0 ∧
      s.acqArmEffective.acq.trigs = 0 ∧ (s.acqArmEffective.hd .acq).running = true) ∧
    (∀ r : Principal, s.writeOk .acq 0x118 .wo r = true →
      (x.records = true → ∃ t, exec (.acqStop r) s = .next t ∧ t.acq.state = .stopped ∧ t.acq.result = 0 ∧ (t.hd .acq).running = false) ∧
      (x.records = false → ∃ t, exec (.acqStop r) s = .next t ∧ refused t 0x24) ∧
      (x.state = .done ∨ x.state = .stopped → ∃ t, exec (.acqClear r) s = .next t ∧ t.acq.state = .idle ∧ t.acq.trigs = 0 ∧ t.acq.cnt = [] ∧ t.acq.ovf = 0 ∧
        t.acq.result = 0 ∧ SameBut [.acq] s t) ∧
      (x.state ≠ .done → x.state ≠ .stopped → ∃ t, exec (.acqClear r) s = .next t ∧ refused t 0x24)) ∧
    (x.state = .post → x.trig + s.postNs ≤ s.now →
      (x.stopPend = true → ∃ t, exec .acqPostComplete s = .next t ∧ t.acq.state = .stopped) ∧
      (x.stopPend = false → s.segN ≤ x.trigs → ∃ t, exec .acqPostComplete s = .next t ∧ t.acq.state = .done ∧ (t.hd .acq).running = false) ∧
      (x.stopPend = false → x.trigs < s.segN → ∃ t, exec .acqPostComplete s = .next t ∧ t.acq.state = .rearm ∧ t.acq.seg = x.seg + 1 ∧ t.acq.trigs = x.trigs)) ∧
    (x.state ≠ .post → exec .acqPostComplete s = .next s) ∧
    (x.state = .rearm → x.rearmT + s.preNs ≤ s.now → ∃ t, exec .acqRearmComplete s = .next t ∧ t.acq.state = .armed ∧ t.acq.seqState = 0 ∧ t.acq.cnt = x.cnt ∧
      t.acq.tmr = [] ∧ t.acq.deadLast = s.now - x.acc ∧ t.acq.deadMax = max x.deadMax (s.now - x.acc)) ∧
    (x.buf = [] → ∀ b, exec (.acqBlockWritten b) s = .next s) ∧
    (∀ b l, x.buf = b :: l → b.bytes.length = 4096 → (s.hd .mem).running = true → inSdram s b.addr 4096 = true →
      (∃ t, exec (.acqBlockWritten false) s = .next t ∧ t.acq.buf = l ∧ t.load b.addr 4096 = b.bytes ∧ SameBut [.acq, .mem] s t ∧
        ∀ a, (a < b.addr ∨ b.addr + 4096 ≤ a) → t.mem8 a = s.mem8 a) ∧
      (∃ t, exec (.acqBlockWritten true) s = .next t ∧ t.acq.buf = l ∧ (t.load b.addr 4096).drop 60 ≠ b.bytes.drop 60 ∧ (t.load b.addr 4096).take 60 = b.bytes.take 60 ∧
        (t.hd .acq).errCode = 0x1326))

/-- The recorders: history tokens, intervals, blocks and streaming; events accepted, frozen, dumped and kept as first faults. A token records a held
change as COLLAPSED or returns to the bucket; an interval that has ended gives one record and starts anew with the value in force; age and FLUSH
close the block in progress, which enters the ring with the next SEQ; a closed block is sent as four REC frames against a credit, on the active
gateway without one, and stays where no credit or grant is; a block that cannot be read counts as overwritten with BLOCK_FAIL; a DMA completion makes
this gateway's block sent. Outside a freeze EVR_ACCEPT takes the oldest record of the writer next in turn, gives it SEQ and the next main-ring slot
and copies it into the armed first-fault region while that is not full; in a freeze nothing is accepted. FREEZE_TIMEOUT ends a freeze, writes
FREEZE_TIMEOUT first and clears FREEZE. LOST_BUSY carries the losses since the last one. A dump starts only while frozen with an area and an address
that hold, and copies to memory. FF_ARM empties the region, or is refused with EVR_FROZEN. (R381, R382, R385, R386, R387, R391, R392, R393, R394,
R396) -/
def Obligations.RecordersActOnTheirCommands : Prop :=
  (∀ s : State,
    let x := s.hrc
    let closes := fun (i : Instr) => ∀ o, x.blk = some o → x.unsent.length < s.hrcSlots → ∃ t b, exec i s = .next t ∧ t.hrc.blk = none ∧ t.hrc.seq = wrapInc x.seq ∧
      t.hrc.first = false ∧ t.hrc.unsent = x.unsent ++ [b] ∧ b.seq = x.seq ∧ b.entries = o.entries ∧ b.base = o.base ∧ b.sending = false
    (∀ i : Fin 524288, s.hrcOn = true → (s.point i.val).kind ≠ .none →
      let h := s.hpt i.val
      let b := s.now - s.now % histNs (s.point i.val)
      (histModeOf (s.point i.val) = 1 →
        (h.held = none → exec (.ocToken i) s = .next (s.updHpt i.val fun h => { h with used := h.used - 1 })) ∧
        (h.held.isSome = true → ∃ t, exec (.ocToken i) s = .next t ∧ (t.hpt i.val).held = none ∧ (t.hpt i.val).heldN = 0 ∧ (t.hpt i.val).used = h.used ∧
          t.hrc.collapsed = wrapInc x.collapsed ∧ t.hrc.recCnt = wrapInc x.recCnt)) ∧
      (histModeOf (s.point i.val) ≠ 1 → exec (.ocToken i) s = .next s) ∧
      (histModeOf (s.point i.val) = 2 →
        (h.start < b → ∃ t, exec (.hrcReduceInterval i) s = .next t ∧ t.hrc.recCnt = wrapInc x.recCnt ∧ (t.hpt i.val).start = b ∧ (t.hpt i.val).writes = 0 ∧
          (t.hpt i.val).mn = h.cur ∧ (t.hpt i.val).mx = h.cur ∧ (t.hpt i.val).wt = 0 ∧ (t.hpt i.val).partial_ = false ∧ (t.hpt i.val).step = false) ∧
        (b ≤ h.start → exec (.hrcReduceInterval i) s = .next s)) ∧
      (histModeOf (s.point i.val) ≠ 2 → exec (.hrcReduceInterval i) s = .next s)) ∧
    (s.hrcOn = true → closes .hrcBlockAge) ∧
    (x.blk = none ∨ s.hrcOn = false → exec .hrcBlockAge s = .next s) ∧
    (∀ r : Principal, s.writeOk .hrc 0x148 .w1s r = true → closes (.hrcFlush r) ∧ (x.blk = none → exec (.hrcFlush r) s = .next s)) ∧
    (x.next = none → ∀ ue, exec (.hrcBlockSend ue) s = .next s) ∧
    (∀ b, x.next = some b →
      let marked := x.unsent.map fun y => if y.seq = b.seq then { y with sending := true } else y
      (x.noGrant = true → ∀ ue, exec (.hrcBlockSend ue) s = .next s) ∧
      (x.noGrant = false → ∃ t, exec (.hrcBlockSend true) s = .next t ∧ (∀ y ∈ t.hrc.unsent, y.seq ≠ b.seq) ∧ t.hrc.gapCnt = wrapInc x.gapCnt ∧ (t.hd .hrc).errCode = 0x1433) ∧
      (x.noGrant = false → s.ave.role = .active → exec (.hrcBlockSend false) s = .next (s.updHrc fun h => { h with streaming := true, unsent := marked })) ∧
      (x.noGrant = false → s.ave.role ≠ .active → x.credits = 0 → exec (.hrcBlockSend false) s = .next s) ∧
      (∀ q, x.noGrant = false → s.ave.role ≠ .active → x.credits ≠ 0 → s.nextPort 0 = some q → (s.aport q).st = .up → (s.aport q).inj.en = false →
        ∃ t, exec (.hrcBlockSend false) s = .next t ∧ t.hrc = { x with streaming := true, unsent := marked, credits := x.credits - 1 } ∧ SameBut [.ave, .hrc] s t ∧
          (t.aport q).sent = (s.aport q).sent ++ (List.range 4).map fun k =>
            ({ dst := 0, src := s.ave.devId, body := .hist b.seq k s.ave.devId (((s.load (s.hrcRing + 4096 * b.slot) 4096).drop (1024 * k)).take 1024) }, true))) ∧
    (∀ (dev : Fin 64) (seq : Nat) (d : HDesc) (bs : List Byte), s.ave.role = .active → s.ave.owns dev.val = true → bit (s.reg R.HRC_HOST_CFG) 8 = true →
      s.ringBusy (bits (s.reg R.HRC_HOST_CFG) 2 0) = true → bit (s.ringCfg (bits (s.reg R.HRC_HOST_CFG) 2 0)) 17 = true → s.dmaBlock dev.val seq = some bs →
      (bits d.d4 23 0 = 4096 → d.hostAddr % 4096 = 0 → bits d.d5 15 2 = 0 → d.d7 = 0 → ∃ t, exec (.hrcDmaDone dev seq d false) s = .next t ∧
        t.hrc.unsent = x.unsent.filter fun y => decide (y.seq ≠ seq)) ∧
      (bits d.d4 23 0 ≠ 4096 → (s.ring (bits (s.reg R.HRC_HOST_CFG) 2 0)).stopping = false → ∃ t, exec (.hrcDmaDone dev seq d false) s = .next t ∧ t.hrc = x ∧ (t.ring (bits (s.reg R.HRC_HOST_CFG) 2 0)).state = .halted))) ∧
  (∀ s : State,
    let e := s.evr
    (e.frozenAt.isSome = true → exec .evrAccept s = .next s) ∧
    (e.frozenAt = none → e.nextWriter = none → exec .evrAccept s = .next s) ∧
    (∀ w r rs, e.frozenAt = none → e.nextWriter = some w → Tab.get [] e.queues w = r :: rs → ∃ t, exec .evrAccept s = .next t ∧
      t.evr.seq = wrapInc e.seq ∧ Tab.get {} t.evr.ring e.head = { r with seq := e.seq } ∧ (∀ k ≠ e.head, Tab.get {} t.evr.ring k = Tab.get {} e.ring k) ∧
      t.evr.head = (if e.head + 1 < 32768 then e.head + 1 else 256) ∧ t.evr.count = min 32512 (e.count + 1) ∧ Tab.get [] t.evr.queues w = rs ∧ t.evr.lastServed = w ∧
      t.evr.ff = (if e.ffArmed = true ∧ e.ff.length < 256 then e.ff ++ [{ r with seq := e.seq }] else e.ff) ∧ SameBut [.evr, .hdr, .hts, .out] s t) ∧
    (e.lostTimer = false → exec .lostBusyReport s = .next s) ∧
    (e.lostTimer = true → e.lostSince = 0 → exec .lostBusyReport s = .next { s with evr := { e with lostTimer := false } }) ∧
    (e.lostTimer = true → e.lostSince ≠ 0 → e.frozenAt = none → (Tab.get [] e.queues 0x1500).length < 4 → ∃ t, exec .lostBusyReport s = .next t ∧ t.evr.lostSince = 0 ∧
      Tab.get [] t.evr.queues 0x1500 = Tab.get [] e.queues 0x1500 ++
        [{ code := 0x1514, source := 0x1500, time := s.now, p0 := e.lostSince, p1 := e.lostSinceCode, p2 := 0, p3 := 0 }]) ∧
    (e.frozenAt = none → exec .freezeTimeout s = .next s) ∧
    (e.frozenAt.isSome = true → ∃ t, exec .freezeTimeout s = .next t ∧ t.evr.frozenAt = none ∧ t.evr.safeBuf = [] ∧ (t.hd .evr).freeze = false ∧
      (e.lostFrozen = 0 → e.safeBuf = [] → t.evr.seq = wrapInc e.seq ∧ (Tab.get {} t.evr.ring e.head).code = 0x1513)) ∧
    (∀ r : Principal, s.writeOk .evr 0x13C .w1s r = true →
      let w := s.reg R.EVR_DUMP_CFG
      let n := 32 * s.dumpRecs.length
      (e.frozenAt = none → ∃ t, exec (.evrDumpGo r) s = .next t ∧ t.evr = { e with dumpResult := 0x21 } ∧ (t.hd .evr).errCode = 0x1521) ∧
      (e.frozenAt.isSome = true → (s.dumpAddr % 32 ≠ 0 ∨ (bit w 0 = false ∧ bit w 1 = false) ∨ 32512 < bits w 30 16) →
        ∃ t, exec (.evrDumpGo r) s = .next t ∧ t.evr = { e with dumpResult := 0x22 } ∧ (t.hd .evr).errCode = 0x1522) ∧
      (e.frozenAt.isSome = true → s.dumpAddr % 32 = 0 → (bit w 0 = true ∨ bit w 1 = true) → bits w 30 16 ≤ 32512 → inSram s.dumpAddr n = true →
        exec (.evrDumpGo r) s = .next { s with evr := { e with dumpBusy := true, dumpTo := s.dumpAddr, dumping := s.dumpRecs, dumpCopied := 0, dumpResult := 0 } })) ∧
    (e.dumpBusy = false → exec .evrDumpDone s = .next s) ∧
    (e.dumpBusy = true → inSram e.dumpTo (e.dumping.flatMap EvRec.bytes).length = true → ∃ t, exec .evrDumpDone s = .next t ∧
      t.load e.dumpTo (e.dumping.flatMap EvRec.bytes).length = e.dumping.flatMap EvRec.bytes ∧ t.evr = { e with dumpBusy := false, dumping := [], dumpCopied := e.dumping.length } ∧
      (∀ a, (a < e.dumpTo ∨ e.dumpTo + (e.dumping.flatMap EvRec.bytes).length ≤ a) → t.mem8 a = s.mem8 a) ∧ bit (t.hd .evr).irqRaw 10 = true) ∧
    (∀ r : Principal, s.writeOk .evr 0x114 .w1s r = true →
      (e.frozenAt.isSome = true → ∃ t, exec (.evrFfArm r) s = .next t ∧ t.evr = e ∧ (t.hd .evr).errCode = 0x1520) ∧
      (e.frozenAt = none → ∃ t, exec (.evrFfArm r) s = .next t ∧ t.evr.ff = [] ∧ t.evr.ffArmed = true ∧ t.evr.seq = e.seq)))

/-- The task scheduler's commands follow Table HTS-1 and R403 to R406. CREATE, DELETE, SUSPEND and RESUME change a task as Table HTS-1 gives and are
refused elsewhere with the code of Table HTS-7, which changes nothing else while the error raises no interrupt. A read of a core's DISP dispatches
the selected unit, stalls where none qualifies, and returns 0 with PORT_OWNER for another requester or a second read. DONE ends the core's unit and
releases a flow's next item, YIELD puts it at the head of its level, both are refused with DISP_STATE without a unit. SUB_GO appends an item or is
refused. FSET raises flags; a write of MASK evaluates. (R400, R401, R403, R405, R406, R412) -/
def Obligations.TaskSchedulerCommands : Prop :=
  ∀ (s : State) (p : Principal),
    let x := s.hts
    let idle := ∀ c < 8, (x.port c).waiting = false
    let refused := fun (t : State) (n e : Nat) => t.hts.cmdTask = n ∧ t.hts.cmdResult = e ∧ (t.hd .hts).errCode = 0x0700 + e ∧
      (bit (s.hd .hts).irqEn 0 = false → t.hts = { x with cmdTask := n, cmdResult := e } ∧ SameBut [.hts, .hdr] s t)
    (∀ n : Fin 512, s.writeOk .hts 0x100 .wo p = true →
      let k := x.task n.val
      let w := s.taskCfg n.val
      (k.state = .free → taskCfgOk w = true → ∃ t, exec (.taskCreate p n) s = .next t ∧ t.hts.cmdTask = n.val ∧ t.hts.cmdResult = 0 ∧ SameBut [.hts] s t ∧
        (t.hts.task n.val).state = .waiting ∧ (t.hts.task n.val).flags = 0 ∧ (t.hts.task n.val).mask = k.mask ∧ (t.hts.task n.val).prio = bits w 4 0 ∧
        (t.hts.task n.val).affinity = bits w 15 8 ∧ (t.hts.task n.val).limit = bits w 18 16 + 1 ∧ (t.hts.task n.val).all = bit w 20 ∧ t.hts.ready = x.ready) ∧
      (k.state = .free → taskCfgOk w = false → ∃ t, exec (.taskCreate p n) s = .next t ∧ refused t n.val 0x22) ∧
      (k.state ≠ .free → ∃ t, exec (.taskCreate p n) s = .next t ∧ refused t n.val 0x20) ∧
      ((k.state = .waiting ∨ k.state = .suspended) → s.flowBound n.val = false → ∃ t, exec (.taskDelete p n) s = .next t ∧ (t.hts.task n.val).state = .free ∧
        (t.hts.task n.val).flags = 0 ∧ t.hts.cmdResult = 0 ∧ SameBut [.hts] s t) ∧
      ((k.state = .waiting ∨ k.state = .suspended) → s.flowBound n.val = true → ∃ t, exec (.taskDelete p n) s = .next t ∧ refused t n.val 0x28) ∧
      ((k.state = .ready ∨ k.state = .running) → ∃ t, exec (.taskDelete p n) s = .next t ∧ refused t n.val 0x21) ∧
      (k.state = .free → ∃ t, exec (.taskDelete p n) s = .next t ∧ refused t n.val 0x20) ∧
      ((k.state = .waiting ∨ k.state = .ready) → ∃ t, exec (.taskSuspend p n) s = .next t ∧ (t.hts.task n.val).state = .suspended ∧ t.hts.cmdResult = 0 ∧ SameBut [.hts] s t) ∧
      (k.state = .running → ∃ t, exec (.taskSuspend p n) s = .next t ∧ (t.hts.task n.val).state = .running ∧ (t.hts.task n.val).susp = true ∧ t.hts.cmdResult = 0) ∧
      ((k.state = .free ∨ k.state = .suspended) → ∃ t, exec (.taskSuspend p n) s = .next t ∧ refused t n.val 0x20) ∧
      (k.state = .suspended → ({ k with state := .waiting } : Task).met = false → ∃ t, exec (.taskResume p n) s = .next t ∧ (t.hts.task n.val).state = .waiting ∧
        t.hts.cmdResult = 0 ∧ SameBut [.hts] s t) ∧
      (k.state = .suspended → k.met = true → idle → ∃ t, exec (.taskResume p n) s = .next t ∧ (t.hts.task n.val).state = .ready ∧ t.hts.ready = x.ready ++ [.flag n.val] ∧
        t.hts.cmdResult = 0 ∧ SameBut [.hts] s t) ∧
      (k.state ≠ .suspended → ∃ t, exec (.taskResume p n) s = .next t ∧ refused t n.val 0x20)) ∧
    (∀ c : Fin 8, s.present .hts = true →
      (∀ by_, by_ ≠ some c ∨ (x.port c.val).unit.isSome = true → ∃ t, exec (.dispRead c by_) s = .next t ∧ t.out = 0 ∧ (t.hd .hts).errCode = 0x0725) ∧
      ((x.port c.val).unit = none → (s.hd .hts).running = false → exec (.dispRead c (some c)) s = .next { s with out := 0 }) ∧
      ((x.port c.val).unit = none → (s.hd .hts).running = true → s.selectUnit c.val = none →
        exec (.dispRead c (some c)) s = .next (s.updHts fun h => h.updPort c.val fun q => { q with waiting := true })) ∧
      (∀ n, (x.port c.val).unit = none → (s.hd .hts).running = true → s.selectUnit c.val = some (.flag n) → ∃ t, exec (.dispRead c (some c)) s = .next t ∧
        t.out = (dispWord n false (x.task n).redel (s.runningOf n)).toNat ∧ (t.hts.port c.val).unit = some (.flag n) ∧
        (t.hts.port c.val).flags = ((x.task n).flags &&& (x.task n).mask) ||| (x.task n).dflags ∧ (t.hts.task n).state = .running ∧ (t.hts.task n).core = c.val ∧
        (t.hts.task n).flags = (x.task n).flags &&& ~~~ ((x.task n).flags &&& (x.task n).mask) ∧ t.hts.ready = x.ready.erase (.flag n) ∧ SameBut [.hts, .out] s t) ∧
      (∀ f i l, (x.port c.val).unit = none → (s.hd .hts).running = true → s.selectUnit c.val = some (.item f) → Tab.get [] x.flows f = i :: l →
        ∃ t, exec (.dispRead c (some c)) s = .next t ∧ t.out = (dispWord (s.unitTask (.item f)) true i.redel (s.runningOf (s.unitTask (.item f)))).toNat ∧
          (t.hts.port c.val).unit = some (.item f) ∧ (t.hts.port c.val).flow = f ∧ (t.hts.port c.val).itemLo = i.lo ∧ (t.hts.port c.val).itemHi = i.hi)) ∧
    (∀ c : Fin 8, ((x.port c.val).waiting = true → ∃ t, exec (.dispWaitTimeout c) s = .next t ∧ t.out = 0 ∧ (t.hts.port c.val).waiting = false ∧
        (t.hts.port c.val).disp = 0 ∧ SameBut [.hts, .out] s t) ∧
      ((x.port c.val).waiting = false → exec (.dispWaitTimeout c) s = .next s)) ∧
    (∀ c : Fin 8, s.writeOk .hts (0x1014 + 0x40 * c.val) .w1s p = true →
      ((x.port c.val).unit = none → ∃ t, exec (.taskDone p c) s = .next t ∧ (t.hd .hts).errCode = 0x0726) ∧
      ((x.port c.val).unit = none → ∃ t, exec (.taskYield p c) s = .next t ∧ (t.hd .hts).errCode = 0x0726) ∧
      (∀ n, idle → (x.port c.val).unit = some (.flag n) → (x.task n).susp = false →
        (({ x.task n with state := .waiting, dflags := 0 } : Task).met = false → ∃ t, exec (.taskDone p c) s = .next t ∧ (t.hts.task n).state = .waiting ∧
          (t.hts.task n).dflags = 0 ∧ (t.hts.port c.val).unit = none ∧ SameBut [.hts] s t) ∧
        (∃ t, exec (.taskYield p c) s = .next t ∧ (t.hts.task n).state = .ready ∧ t.hts.ready = .flag n :: x.ready ∧ (t.hts.port c.val).unit = none ∧ SameBut [.hts] s t)) ∧
      (∀ n, idle → (x.port c.val).unit = some (.flag n) → (x.task n).susp = true → ∃ t, exec (.taskDone p c) s = .next t ∧ (t.hts.task n).state = .suspended) ∧
      (∀ f i l, idle → (x.port c.val).unit = some (.item f) → Tab.get [] x.flows f = i :: l →
        (∃ t, exec (.taskDone p c) s = .next t ∧ Tab.get [] t.hts.flows f = l ∧ (t.hts.port c.val).unit = none ∧ SameBut [.hts] s t) ∧
        (∃ t, exec (.taskYield p c) s = .next t ∧ Tab.get [] t.hts.flows f = i :: l ∧ t.hts.ready = .item f :: x.ready ∧ SameBut [.hts] s t))) ∧
    (∀ (c : Fin 8) (f : Fin 4096), s.writeOk .hts (0x1020 + 0x40 * c.val) .wo p = true →
      (bit (s.flowWord f.val) 31 = false → ∃ t, exec (.subGo p c f) s = .next t ∧ (t.hts.port c.val).subResult = 0x23 ∧ (t.hd .hts).errCode = 0x0723) ∧
      (bit (s.flowWord f.val) 31 = true → 16384 ≤ x.pool → ∃ t, exec (.subGo p c f) s = .next t ∧ (t.hts.port c.val).subResult = 0x24 ∧ (t.hd .hts).errCode = 0x0724) ∧
      (bit (s.flowWord f.val) 31 = true → x.pool < 16384 → idle → ∃ t, exec (.subGo p c f) s = .next t ∧ (t.hts.port c.val).subResult = 0 ∧ SameBut [.hts] s t ∧
        Tab.get [] t.hts.flows f.val = Tab.get [] x.flows f.val ++ [{ lo := s.regAt R.HTS_SUB_LO (0x40 * c.val), hi := s.regAt R.HTS_SUB_HI (0x40 * c.val) }])) ∧
    (∀ (c : Fin 8) (m : Word), s.writeOk .hts (0x102C + 0x40 * c.val) .wo p = true →
      let n := bits (s.regAt R.HTS_FSET_TASK (0x40 * c.val)) 8 0
      let k := { x.task n with flags := (x.task n).flags ||| m }
      ((x.task n).state = .free → exec (.fset p c m) s = .next (s.updHts fun h => { h with dropped := wrapInc h.dropped })) ∧
      ((x.task n).state ≠ .free → ((x.task n).state ≠ .waiting ∨ k.met = false) → ∃ t, exec (.fset p c m) s = .next t ∧ t.hts.task n = k ∧ t.hts.ready = x.ready ∧ SameBut [.hts] s t) ∧
      ((x.task n).state = .waiting → k.met = true → idle → ∃ t, exec (.fset p c m) s = .next t ∧ (t.hts.task n).state = .ready ∧ (t.hts.task n).flags = k.flags ∧
        t.hts.ready = x.ready ++ [.flag n] ∧ SameBut [.hts] s t)) ∧
    (∀ (n : Fin 512) (m : Word), s.writeOk .hts (0x2004 + 16 * n.val) .rw p = true →
      let k := { x.task n.val with mask := m }
      (((x.task n.val).state ≠ .waiting ∨ k.met = false) → ∃ t, exec (.maskWrite p n m) s = .next t ∧ t.hts.task n.val = k ∧ t.hts.ready = x.ready ∧ SameBut [.hts] s t) ∧
      ((x.task n.val).state = .waiting → k.met = true → idle → ∃ t, exec (.maskWrite p n m) s = .next t ∧ (t.hts.task n.val).state = .ready ∧
        t.hts.ready = x.ready ++ [.flag n.val] ∧ SameBut [.hts] s t))

/-- DONE and YIELD act on the unit of their own core, and are refused where none is RUNNING. A write of DONE or YIELD to a port with no unit RUNNING
is refused with DISP_STATE. DONE on a port with a unit ends that unit, so that the port holds none, and a unit RUNNING on another core stays there.
(R406) -/
def Obligations.DoneAndYieldActOnTheirOwnCore : Prop :=
  ∀ (s : State) (p : Principal) (c : Fin 8), s.writeOk .hts (0x1014 + 0x40 * c.val) .w1s p = true →
    ((s.hts.port c.val).unit = none →
      (∃ t, exec (.taskDone p c) s = .next t ∧ (t.hd .hts).errCode = 0x0726 ∧ ∀ d u, (s.hts.port d).unit = some u → (s.hts.port d).waiting = false → (t.hts.port d).unit = some u) ∧
      (∃ t, exec (.taskYield p c) s = .next t ∧ (t.hd .hts).errCode = 0x0726 ∧ ∀ d u, (s.hts.port d).unit = some u → (s.hts.port d).waiting = false → (t.hts.port d).unit = some u)) ∧
    ((s.hts.port c.val).unit.isSome = true → (s.hts.port c.val).waiting = false →
      ∃ t, exec (.taskDone p c) s = .next t ∧ (t.hts.port c.val).unit = none ∧
        ∀ d u, d ≠ c.val → (s.hts.port d).unit = some u → (s.hts.port d).waiting = false → (t.hts.port d).unit = some u)

/-- The cores, the memories and the attachment of the application side. A heartbeat attaches, three missed ones detach and open the window, its end
expires it. A watchdog's warning is pending at its source; its expiry, CPU_CORE_RST and an uncorrectable cache error reset the core through the
fence: its unit returns, its CSRs are at reset, it runs again where CPU_CORE_EN has its bit. CPU_CORE_EN starts and holds cores. Scrubbing counts
corrected errors and logs the first uncorrectable one; training maps 7/8 of the channels that pass. mtime reads latch. (R27, R407, R410, R418, R419,
R421, R422) -/
def Obligations.CoresMemoriesAndAttachment : Prop :=
  ∀ s : State,
    let fresh := fun (t : State) (c : Nat) => t.core c = { running := bit (s.reg R.CPU_CORE_EN) c, startPc := s.resetPc c, timerIrq := (s.core c).timerIrq }
    (∀ r : Principal, s.writeOk .hts 0x108 .w1s r = true →
      (s.hts.auto = .attached → exec (.htsHb r) s = .next (s.updHts fun h => { h with hbPeriod := bits (s.reg R.HTS_AUTO_CFG) 6 0 })) ∧
      (s.hts.auto ≠ .attached → ∃ t, exec (.htsHb r) s = .next t ∧ t.hts.auto = .attached ∧ t.hts.hbPeriod = bits (s.reg R.HTS_AUTO_CFG) 6 0)) ∧
    (s.hts.auto = .attached → ∃ t, exec .heartbeatMissed s = .next t ∧ t.hts.auto = .autonomous ∧ t.hts.detachT = s.now ∧
      t.hts.windowEnd = s.now + bits (s.reg R.HTS_AUTO_CFG) 21 16 * 1000000000) ∧
    (s.hts.auto ≠ .attached → exec .heartbeatMissed s = .next s) ∧
    (s.hts.auto = .autonomous → ∃ t, exec .autonomyWindowExpiry s = .next t ∧ t.hts.auto = .expired) ∧
    (s.hts.auto ≠ .autonomous → exec .autonomyWindowExpiry s = .next s) ∧
    (∀ c : Fin 8,
      ((s.core c.val).running = true → (s.core c.val).wdtEn = true → (s.core c.val).wdtWarned = false → ∃ t, exec (.wdtWarning c) s = .next t ∧
        (t.core c.val).wdtWarned = true ∧ nbit t.cpu.edgePend (40 + c.val) = true ∧ SameBut [.cpu] s t) ∧
      ((s.core c.val).running = false ∨ (s.core c.val).wdtEn = false → exec (.wdtWarning c) s = .next s ∧ ∀ m, exec (.wdtExpiry c m) s = .next s) ∧
      (∀ m, (s.core c.val).running = true → (s.core c.val).wdtEn = true → ∃ t, exec (.wdtExpiry c m) s = .next t ∧ fresh t c.val ∧ nbit t.cpu.wdtLog c.val = true ∧
        (t.hts.port c.val).unit = none ∧ (s.hts.auto = .attached → t.hts.auto = .autonomous) ∧ (t.hd .cpu).errCode = 0x1920 ∧
        ((s.hts.port c.val).unit.isSome = true → t.hts.redeliv = wrapInc s.hts.redeliv)) ∧
      (exec (.wdtKick c 0x5A) s = .next (s.updCore c.val fun k => { k with wdtWarned := false })) ∧
      (∀ v, v ≠ 0x5A → exec (.wdtKick c v) s = .next s) ∧
      (∀ r : Principal, s.writeOk .cpu 0x104 .w1s r = true → ∃ t, exec (.cpuCoreRst r (word (2 ^ c.val))) s = .next t ∧ fresh t c.val ∧ (t.hts.port c.val).unit = none ∧
        ∀ d < 8, d ≠ c.val → t.core d = s.core d) ∧
      ((s.core c.val).running = false → ∀ level addr, exec (.cacheUe c level addr) s = .next s) ∧
      (∀ level addr, (s.core c.val).running = true → ∃ t, exec (.cacheUe c level addr) s = .next t ∧ fresh t c.val ∧ (t.hts.port c.val).unit = none ∧ (t.hd .cpu).errCode = 0x1921) ∧
      exec (.mtimecmpMatch c) s = .next (s.updCore c.val fun k => { k with timerIrq := decide (s.mtimecmp c.val ≤ s.cpu.mtime) })) ∧
    (∀ (r : Principal) (v : Word), s.writeOk .cpu 0x100 .rw r = true → ∃ t, exec (.cpuCoreEn r v) s = .next t ∧ t.reg R.CPU_CORE_EN = v &&& 0xFF ∧
      ∀ c < 8, (t.core c).running = if bit (s.reg R.CPU_CORE_EN) c = bit v c then (s.core c).running else bit v c) ∧
    (s.present .cpu = true → ∃ t, exec .mtimeRead s = .next t ∧ t.out = s.cpu.mtime % 2 ^ 32 ∧ t.cpu.mtimeHi = s.cpu.mtime / 2 ^ 32 % 2 ^ 32 ∧ SameBut [.cpu, .out] s t) ∧
    (∀ ce, exec (.sramScrub ce none) s = .next (s.updCpu fun x => { x with sramCe := min 0xFFFFFFFF (x.sramCe + ce) })) ∧
    (∀ ce a, ∃ t, exec (.sramScrub ce (some a)) s = .next t ∧ t.cpu.sramCe = min 0xFFFFFFFF (s.cpu.sramCe + ce) ∧
      (s.cpu.sramUe = none → t.cpu.sramUe = some (a / 8 % 2 ^ 24)) ∧ (s.cpu.sramUe.isSome = true → t.cpu.sramUe = s.cpu.sramUe)) ∧
    (∀ ce, exec (.memPatrolScrub ce none) s = .next (s.updMem fun m => { m with ceCnt := min 0xFFFFFFFF (m.ceCnt + ce) })) ∧
    (∀ ce a, ∃ t, exec (.memPatrolScrub ce (some a)) s = .next t ∧ t.msdram.ceCnt = min 0xFFFFFFFF (s.msdram.ceCnt + ce) ∧
      (s.msdram.ueLog = none → t.msdram.ueLog = some (a % 2 ^ 40)) ∧ (s.msdram.ueLog.isSome = true → t.msdram.ueLog = s.msdram.ueLog)) ∧
    ((s.hd .mem).en = true → (s.hd .mem).pwr = .on →
      (∃ t, exec (.memTrainingDone false false) s = .next t ∧ t.msdram.capacity = s.chanCap 0 + s.chanCap 1 ∧ (t.hd .mem).running = decide (0 < s.chanCap 0 + s.chanCap 1) ∧
        t.msdram.trained = decide (0 < s.chanCap 0 + s.chanCap 1)) ∧
      (bit (s.reg R.MEM_CFG) 0 = true → ∃ t, exec (.memTrainingDone true false) s = .next t ∧ t.msdram.capacity = s.chanCap 1 ∧ (t.hd .mem).errCode = 0x1821) ∧
      (bit (s.reg R.MEM_CFG) 1 = true → ∃ t, exec (.memTrainingDone false true) s = .next t ∧ t.msdram.capacity = s.chanCap 0 ∧ (t.hd .mem).errCode = 0x1821)) ∧
    ((s.hd .mem).en = false → ∀ a b, exec (.memTrainingDone a b) s = .next s)

/-- The host link, its BARs and its DMA rings. LINK_UP shows rate and width; link down, hot reset and FLR disable every ring, clear HIF_AP_BASE and
fence HIF. A host access reaches the device while HIF is present and the link is up: BAR0 the register window, BAR2 the fabric window at HIF_AP_BASE.
A doorbell moves the tail of an ACTIVE ring or halts it with RING_OVR; a good descriptor copies and moves the head, a bad one halts the ring; EN = 1
starts an OFF ring at 0, EN = 0 turns it OFF after the descriptor in progress. MSI_SEND raises a vector. (R423, R424, R425, R426, R427, R428, R429) -/
def Obligations.HostInterfaceCommands : Prop :=
  ∀ s : State,
    (∀ (rate : Fin 8) (width : Fin 16) (bm : Bool), (s.hd .hif).pwr = .on → ∃ t, exec (.pcieLinkUp rate width bm) s = .next t ∧ t.hif = { s.hif with up := true, rate := rate.val, width := width.val, busMaster := bm } ∧ SameBut [.hif, .evr, .hdr, .hts, .out] s t) ∧
    (s.hif.up = true →
      (∃ t, exec .pcieLinkDown s = .next t ∧ t.hif.up = false ∧ t.hif.rings = [] ∧ t.hif.msi = [] ∧ t.reg R.HIF_AP_BASE = 0 ∧ (t.hd .hif).errCode = 0x1723 ∧ ((s.hd .hif).pwr = .on → (t.hd .hif).pwr = .fenced)) ∧
      (∃ t, exec .pcieHotReset s = .next t ∧ t.hif.rings = [] ∧ t.reg R.HIF_AP_BASE = 0 ∧ ((s.hd .hif).pwr = .on → (t.hd .hif).pwr = .fenced)) ∧
      (∃ t, exec .pcieFlr s = .next t ∧ t.hif.rings = [] ∧ t.reg R.HIF_AP_BASE = 0 ∧ ((s.hd .hif).pwr = .on → (t.hd .hif).pwr = .fenced))) ∧
    (s.hif.up = false → exec .pcieLinkDown s = .next s ∧ exec .pcieHotReset s = .next s ∧ exec .pcieFlr s = .next s) ∧
    (∀ (b wr : Bool) (off : BitVec 32) (size : Fin 9) (v : BitVec 64) (ue : EccRead),
      (s.present .hif = false ∨ s.hif.up = false → exec (.hostBarAccess b wr off size v ue) s = .next s) ∧
      (s.present .hif = true → s.hif.up = true →
        (16777216 ≤ off.toNat → exec (.hostBarAccess false wr off size v ue) s = .next s) ∧
        (off.toNat < 16777216 → exec (.hostBarAccess false true off size v ue) s = .next
          ((s.busPut .host (0x10000000 + off.toNat) size.val v.toNat).1.told (.host 0 off.toNat) (s.busPut .host (0x10000000 + off.toNat) size.val v.toNat).2 (0x10000000 + off.toNat))) ∧
        (off.toNat < 16777216 → ∃ t, exec (.hostBarAccess false false off size v ue) s = .next t ∧ t.out = (s.busGet .host none (0x10000000 + off.toNat) size.val .clean).1.out) ∧
        (wordAccess off.toNat size.val = false → ∃ t, exec (.hostBarAccess true false off size v ue) s = .next t ∧ t.out = 2 ^ (8 * size.val) - 1 ∧ SameBut [.hif, .out] s t ∧
          (s.hif.err = none → t.hif.err = some { code := 0x1705, bar := 2, addr := off.toNat })) ∧
        (wordAccess off.toNat size.val = true → s.sys.romAlive = false → exec (.hostBarAccess true wr off size v ue) s =
          .next (s.fabricAccess (.host 2 off.toNat) .host wr (bits (s.reg R.HIF_AP_BASE) 9 0 * 2 ^ 32 + off.toNat) size.val v.toNat ue)))) ∧
    (∀ n : Fin 8,
      let r := s.ring n.val
      let m := s.ringSize n.val
      let used := (r.tail + m - r.head) % m
      (∀ tail : BitVec 12, s.hif.up = true → r.state = .active →
        (tail.toNat < m → used + (tail.toNat + m - r.tail) % m < m → exec (.ringDoorbell n tail) s = .next (s.updRing n.val fun r => { r with tail := tail.toNat })) ∧
        (r.stopping = false → (m ≤ tail.toNat ∨ m ≤ used + (tail.toNat + m - r.tail) % m) → ∃ t, exec (.ringDoorbell n tail) s = .next t ∧ (t.ring n.val).state = .halted ∧
          (t.ring n.val).cause = 0x22 ∧ (t.hd .hif).errCode = 0x1722)) ∧
      (r.state ≠ .active → ∀ tail, exec (.ringDoorbell n tail) s = .next s) ∧
      (∀ (d : HDesc) (data : List Byte), s.ringBusy n.val = true → bit (s.ringCfg n.val) 17 = false → r.stopping = false →
        (s.descCheck d = 0 → bit (s.ringCfg n.val) 16 = false → data.length = bits d.d4 23 0 → exec (.dmaDescDone n d data false) s =
          .next (((s.dmaIn (s.ringOwner n.val) d.devAddr data).writeBack n.val 0 (bits d.d5 31 16)).descNext n.val d)) ∧
        (s.descCheck d = 0 → bit (s.ringCfg n.val) 16 = false → data.length = bits d.d4 23 0 → inSram d.devAddr data.length = true → ∃ t, exec (.dmaDescDone n d data false) s = .next t ∧
          t.load d.devAddr (bits d.d4 23 0) = data ∧ (t.ring n.val).head = (r.head + 1) % max 1 m ∧ (t.ring n.val).state = .active ∧ SameBut [.mem, .hif] s t ∧
          ∀ a, (a < d.devAddr ∨ d.devAddr + data.length ≤ a) → t.mem8 a = s.mem8 a) ∧
        (s.descCheck d = 0 → bit (s.ringCfg n.val) 16 = true → ∃ t, exec (.dmaDescDone n d data false) s = .next t ∧ (t.ring n.val).head = (r.head + 1) % max 1 m ∧ SameBut [.hif] s t) ∧
        (s.descCheck d ≠ 0 → ∃ t, exec (.dmaDescDone n d data false) s = .next t ∧ (t.ring n.val).state = .halted ∧ (t.ring n.val).cause = s.descCheck d ∧ t.mem = s.mem) ∧
        (∃ t, exec (.dmaDescDone n d data true) s = .next t ∧ (t.ring n.val).state = .halted ∧ t.mem = s.mem)) ∧
      (s.ringBusy n.val = false → ∀ d data e, exec (.dmaDescDone n d data e) s = .next s) ∧
      (∀ (p : Principal) (v : Word), s.writeOk .hif (0x208 + 32 * n.val) .rw p = true →
        (16 ≤ bits v 12 0 → bits v 12 0 ≤ 4096 → r.state = .off → exec (.ringEnable p n v) s =
          .next ((s.setReg ⟨.hif, 0x208 + 32 * n.val⟩ (setBit v 31 &&& 0xBF071FFF)).updRing n.val fun _ => { state := .active })) ∧
        (bits v 12 0 < 16 ∨ 4096 < bits v 12 0 → ∃ t, exec (.ringEnable p n v) s = .next t ∧ t.hif = s.hif ∧ (t.hd .hif).errCode = 0x1700 + errValueRange)) ∧
      (∀ p : Principal, s.writeOk .hif (0x208 + 32 * n.val) .rw p = true →
        (r.state ≠ .active ∨ r.head = r.tail → ∃ t, exec (.ringDisable p n) s = .next t ∧ t.ring n.val = {} ∧ SameBut [.hif, .regs] s t) ∧
        (r.state = .active → r.head ≠ r.tail → ∃ t, exec (.ringDisable p n) s = .next t ∧ t.ring n.val = { r with stopping := true } ∧ SameBut [.hif, .regs] s t))) ∧
    (∀ (p : Principal) (v : Fin 64), s.writeOk .hif 0x110 .wo p = true →
      (s.hif.up = true → exec (.hifMsiSend p v) s = .next (s.updHif fun h => { h with msi := h.msi ++ [v.val] })) ∧
      (s.hif.up = false → exec (.hifMsiSend p v) s = .next s))

/-- The CAN controllers follow Table CAN-3 and place, send and count frames. START integrates with valid timing, STOP returns to CONFIG with the
pending requests cleared with result 3, SLEEP, WAKE and RECOVER act in their states; in others CTRL_STATE. A frame goes through the first matching
filter into the visible buffer or, during a read, the shadow, or is counted in CAN_RX_DISC. The lowest identifier is sent first; a sent frame reports
1. A failing frame steps the counters, 128 turns ERROR_PASSIVE, 256 bus-off. Objects are enabled, disabled, requested and aborted as R433 and R436
state. (R432, R433, R434, R435, R436, R437, R438, R439, R440) -/
def Obligations.CanControllersFollowTableCan3 : Prop :=
  ∀ (s : State) (n : Fin 4),
    let c := s.cctl n.val
    let cfg := s.canCfg n.val
    let cmdOk := fun p : Principal => s.writeOk .can (0x1010 + 0x1000 * n.val) .wo p = true
    let refuses := fun (i : Instr) (e : Nat) => ∃ t, exec i s = .next t ∧ t.cctl n.val = { c with result := e } ∧ (t.hd .can).errCode = 0x1600 + e ∧ SameBut [.can, .hdr, .hts, .out] s t
    let allCleared := fun t : State => ∀ m < 64, (s.canObj (cobj n.val m)).txReq = true → (t.canObj (cobj n.val m)).txReq = false ∧ (t.canObj (cobj n.val m)).txResult = 3
    (∀ p, cmdOk p →
      (c.state = .config → s.timingOk n.val = true → ∃ t, exec (.canStart p n) s = .next t ∧
        t.cctl n.val = { c with state := .integrating, tec := 0, rec_ := 0, passive := false, result := 0 } ∧ SameBut [.can, .hdr, .hts, .out] s t) ∧
      (c.state = .config → s.timingOk n.val = false → refuses (.canStart p n) 0x20) ∧
      (c.state ≠ .config → refuses (.canStart p n) 0x21) ∧
      (c.state ≠ .config → ∃ t, exec (.canStop p n false) s = .next t ∧ t.cctl n.val = { c with state := .config, stop := false, sleep := false, result := 0 } ∧ allCleared t ∧
        SameBut [.can, .hdr, .hts, .out] s t) ∧
      (c.state ≠ .config → ∃ t, exec (.canStop p n true) s = .next t ∧ t.cctl n.val = { c with stop := true, result := 0 } ∧ SameBut [.can] s t) ∧
      (c.state = .config → ∀ x, refuses (.canStop p n x) 0x21) ∧
      (c.state = .active → s.cobjs n.val CanObj.txReq = [] → ∃ t, exec (.canSleep p n false) s = .next t ∧ t.cctl n.val = { c with state := .sleep, sleep := false, result := 0 }) ∧
      (c.state = .active → s.cobjs n.val CanObj.txReq ≠ [] → ∀ x, refuses (.canSleep p n x) 0x22) ∧
      (c.state ≠ .active → ∀ x, refuses (.canSleep p n x) 0x21) ∧
      (c.state = .sleep → ∃ t, exec (.canWake p n) s = .next t ∧ (t.cctl n.val).state = .integrating ∧ (t.cctl n.val).woken = true ∧ (t.cctl n.val).result = 0) ∧
      (c.state ≠ .sleep → refuses (.canWake p n) 0x21) ∧
      (c.state = .busOff → bit cfg 3 = false → ∃ t, exec (.canRecover p n) s = .next t ∧ t.cctl n.val = { c with state := .recovering, result := 0 }) ∧
      (c.state ≠ .busOff ∨ bit cfg 3 = true → refuses (.canRecover p n) 0x21)) ∧
    (c.state = .integrating → ∃ t, exec (.canIntegrationDone n) s = .next t ∧ t.cctl n.val = { c with state := .active, passive := false } ∧ SameBut [.can, .hdr, .hts, .out] s t) ∧
    (c.state ≠ .integrating → exec (.canIntegrationDone n) s = .next s) ∧
    (c.state = .recovering → ∃ t, exec (.canRecoveryDone n) s = .next t ∧ t.cctl n.val = { c with state := .active, tec := 0, rec_ := 0, passive := false } ∧ SameBut [.can, .evr, .hdr, .hts, .out] s t) ∧
    (c.state ≠ .recovering → exec (.canRecoveryDone n) s = .next s) ∧
    (∀ (id : BitVec 29) (xtd : Bool) (d : Byte), c.state = .sleep → bit cfg 5 = false →
      (∃ t, exec (.canWakeDetect n false id xtd d) s = .next t ∧ t.cctl n.val = { c with state := .integrating, woken := true, wakeCause := 0, wakeId := 0 }) ∧
      exec (.canWakeDetect n true id xtd d) s = .next s) ∧
    (∀ (id : BitVec 29) (xtd : Bool) (d : Byte), c.state = .sleep → bit cfg 5 = true → s.pmc.st ≠ .hibernate →
      (s.wakeFrame n.val id xtd d = true → ∃ t, exec (.canWakeDetect n true id xtd d) s = .next t ∧
        t.cctl n.val = { c with state := .integrating, woken := true, wakeCause := 1, wakeId := id.toNat }) ∧
      (s.wakeFrame n.val id xtd d = false → exec (.canWakeDetect n true id xtd d) s = .next s)) ∧
    (∀ (id : BitVec 29) (xtd fdf brs esi : Bool) (dlc : Fin 16) (ts : Nat) (data : List Byte),
      let rx := Instr.canFrameRx n id xtd fdf brs esi dlc ts data
      let x : CanBuf := { dlc := dlc.val, fdf := fdf, brs := brs, esi := esi, ts := ts, data := (data ++ List.replicate 64 0).take (dlcBytes dlc.val fdf) }
      let hit := (List.range 128).find? fun f => s.filterHit n.val f { id := id.toNat, xtd := xtd, buf := x }
      (c.state ≠ .active ∨ (fdf = true ∧ bit cfg 2 = false) ∨ bits cfg 1 0 = 2 → exec rx s = .next s) ∧
      (c.state = .active → (fdf = true → bit cfg 2 = true) → bits cfg 1 0 ≠ 2 → c.tec ≤ 255 →
        (hit = none → ∃ t, exec rx s = .next t ∧ (t.cctl n.val).rxDisc = wrapInc c.rxDisc ∧ (c.rec_ ≤ 127 → (t.cctl n.val).rec_ = c.rec_ - 1)) ∧
        (∀ f, hit = some f → bit (s.regAt R.CAN_F2 (0x1000 * n.val + 16 * f)) 8 = true → ∃ t, exec rx s = .next t ∧ (t.cctl n.val).rxDisc = c.rxDisc) ∧
        (∀ f, hit = some f → bit (s.regAt R.CAN_F2 (0x1000 * n.val + 16 * f)) 8 = false →
          let m := bits (s.regAt R.CAN_F2 (0x1000 * n.val + 16 * f)) 5 0
          let o := s.canObj (cobj n.val m)
          (o.en = false ∨ o.tx = true → ∃ t, exec rx s = .next t ∧ (t.cctl n.val).rxDisc = wrapInc c.rxDisc) ∧
          (o.en = true → o.tx = false → o.pt = false → o.disable = false →
            (o.reading = false → ∃ t, exec rx s = .next t ∧ (t.canObj (cobj n.val m)).buf = x ∧ (t.canObj (cobj n.val m)).new_ = true ∧
              (t.canObj (cobj n.val m)).ovr = (o.ovr || o.new_) ∧ bit (Tab.get 0 (t.cctl n.val).rxEvt (m / 32)) (m % 32) = true) ∧
            (o.reading = true → ∃ t, exec rx s = .next t ∧ (t.canObj (cobj n.val m)).buf = o.buf ∧ (t.canObj (cobj n.val m)).shadow = some x ∧
              (t.canObj (cobj n.val m)).ovr = (o.ovr || o.shadow.isSome)))))) ∧
    (∀ m, s.nextTx n.val = some m → m < 64 ∧ (s.canObj (cobj n.val m)).txReq = true ∧ (s.canObj (cobj n.val m)).tx = true ∧
      ∀ k < 64, (s.canObj (cobj n.val k)).txReq = true → (s.canObj (cobj n.val k)).en = true → (s.canObj (cobj n.val k)).tx = true →
        (s.canObj (cobj n.val m)).rank m ≤ (s.canObj (cobj n.val k)).rank k) ∧
    (∀ m, s.nextTx n.val = some m → c.state = .active → bits cfg 1 0 = 0 → c.tec ≤ 256 → c.stop = false → c.sleep = false → ∃ t, exec (.canTxDone n) s = .next t ∧
      (t.canObj (cobj n.val m)).txReq = false ∧ (t.canObj (cobj n.val m)).txResult = 1 ∧ (t.cctl n.val).tec = c.tec - 1 ∧ (t.cctl n.val).state = .active ∧
      bit (Tab.get 0 (t.cctl n.val).txEvt (m / 32)) (m % 32) = true) ∧
    (s.nextTx n.val = none → exec (.canTxDone n) s = .next s) ∧
    (∀ (lec : Fin 7) (dp own : Bool) (dT dR : Nat),
      (c.state ≠ .active → exec (.canBusError n lec dp own dT dR) s = .next s) ∧
      (c.state = .active → c.tec + dT ≤ 255 → c.rec_ + dR ≤ 255 → c.stop = false → c.sleep = false → ∃ t, exec (.canBusError n lec dp own dT dR) s = .next t ∧
        (t.cctl n.val).tec = c.tec + dT ∧ (t.cctl n.val).rec_ = c.rec_ + dR ∧ (t.cctl n.val).passive = (decide (127 < c.tec + dT) || decide (127 < c.rec_ + dR)) ∧
        (t.cctl n.val).lec = lec.val ∧ (t.cctl n.val).lecData = dp ∧ (t.cctl n.val).busErr = satInc 65535 c.busErr ∧ (t.cctl n.val).state = .active) ∧
      (c.state = .active → 255 < c.tec + dT → c.stop = false → ∃ t, exec (.canBusError n lec dp own dT dR) s = .next t ∧
        (t.cctl n.val).state = (if bit cfg 3 then .recovering else .busOff) ∧ ∀ m < 64, (t.canObj (cobj n.val m)).txReq = false)) ∧
    (∀ m : Fin 64,
      let k := cobj n.val m.val
      let o := s.canObj k
      (o.en = true → o.tx = true → o.mode = 1 → exec (.canPeriodicRequest n m) s = .next (s.updCanObj k fun o => { o with txReq := true })) ∧
      (o.en = false ∨ o.tx = false ∨ o.mode ≠ 1 → exec (.canPeriodicRequest n m) s = .next s) ∧
      (o.en = true → o.tx = false → o.period ≠ 0 → o.pt = true → (∀ i, s.objPoints k = [i] → s.canWrite i = true → s.forceOf i = none →
        isValid (s.entry i).q = true → (s.point i).kind ≠ .none → ∃ t, exec (.canRxTimeout n m) s = .next t ∧ (t.entry i).q = markStale (s.entry i).q)) ∧
      (o.en = false ∨ o.tx = true ∨ o.period = 0 → exec (.canRxTimeout n m) s = .next s) ∧
      (s.present .can = true → ∃ t, exec (.canObjStatRead n m) s = .next t ∧ t.out = o.o3.toNat ∧ t.canObj k = { o with reading := o.reading || o.new_ } ∧ SameBut [.can, .out] s t) ∧
      (∀ p, s.writeOk .can (objOff n.val m.val 3) .w1s p = true →
        (o.en = true → o.tx = true → exec (.canTxReq p n m) s = .next (s.updCanObj k fun o => { o with txReq := true })) ∧
        (o.en = false ∨ o.tx = false → exec (.canTxReq p n m) s = .next s) ∧
        (o.txReq = true → exec (.canTxAbort p n m false) s = .next (s.txEnd k 2)) ∧
        (o.txReq = true → exec (.canTxAbort p n m true) s = .next (s.updCanObj k fun o => { o with abort := true })) ∧
        (o.txReq = false → ∀ x, exec (.canTxAbort p n m x) s = .next s)) ∧
      (∀ p (v : Word), s.writeOk .can (objOff n.val m.val 0) .rw p = true →
        (o.en = false → (bit o.o2 4 = true → bit cfg 2 = true) → ∃ t, exec (.canObjEnable p n m v) s = .next t ∧ (t.canObj k).en = true ∧
          (t.canObj k).o0 = setBit v 0 &&& 0xFFFF001F ∧ (t.canObj k).new_ = false ∧ (t.canObj k).ovr = false ∧ SameBut [.can] s t) ∧
        (o.en = false → bit o.o2 4 = true → bit cfg 2 = false → ∃ t, exec (.canObjEnable p n m v) s = .next t ∧ t.can = s.can ∧ (t.hd .can).errCode = 0x1624) ∧
        (o.en = true → ∃ t, exec (.canObjEnable p n m v) s = .next t ∧ t.can = s.can ∧ (t.hd .can).errCode = 0x1623) ∧
        (o.en = true → o.tx = true → ∃ t, exec (.canObjDisable p n m false) s = .next t ∧ (t.canObj k).en = false ∧ (t.canObj k).txReq = false ∧
          (o.txReq = true → (t.canObj k).txResult = 2) ∧ SameBut [.can] s t) ∧
        (o.en = true → o.tx = false → o.pt = false → ∃ t, exec (.canObjDisable p n m false) s = .next t ∧ (t.canObj k).en = false ∧ (t.canObj k).shadow = none ∧
          (t.canObj k).buf = o.buf ∧ (t.canObj k).new_ = o.new_ ∧ SameBut [.can] s t) ∧
        (o.en = true → exec (.canObjDisable p n m true) s = .next (s.updCanObj k fun x => { x with disable := true, abort := x.txReq })) ∧
        (o.en = false → ∀ x, exec (.canObjDisable p n m x) s = .next s)))

/-- The clock unit follows Table CLK-3 and switches, falls back and returns as R446 to R452 state. XO_START, XO_RETRY, XO_STOP, PLL_START, RAMP and
RETURN act in the cases the rules list and are refused elsewhere with the code of Table PMC-7. A stable start, a failed start and a trip move the
crystal by Table CLK-3. A switch, done or forced, gives its clock the new source; a ramp steps by Table CLK-2; the lock count ends a return. A trip
of the reference begins a fallback; PLL_UNLOCK with PD_RT ON and FRC_FAIL of a clock in use start the FATAL reaction. (R443, R444, R446, R447, R448,
R449, R450, R451, R452, R462) -/
def Obligations.ClockUnitFollowsItsTables : Prop :=
  ∀ s : State,
    let x := s.clk
    let ok := fun p : Principal => s.writeOk .clk 0x104 .wo p = true
    let refuses := fun (i : Instr) (e : Nat) => ∃ t, exec i s = .next t ∧ t.clk = { x with result := e } ∧ (t.hd .clk).errCode = 0x0200 + e ∧ SameBut [.clk, .hdr, .hts, .out] s t
    (∀ p, ok p →
      (x.xo = .off → x.xoFails < 4 → ∃ t, exec (.clkXoStart p) s = .next t ∧ t.clk = { x with xo := .starting, xoT := s.upUs, result := 0 } ∧ SameBut [.clk, .hdr, .hts, .out] s t) ∧
      (x.xo ≠ .off ∨ 4 ≤ x.xoFails → refuses (.clkXoStart p) 0x24) ∧
      (x.xo = .failed → ∃ t, exec (.clkXoRetry p) s = .next t ∧ t.clk = { x with xo := .starting, xoFails := 0, xoT := s.upUs, result := 0 } ∧ SameBut [.clk, .hdr, .hts, .out] s t) ∧
      (x.xo ≠ .failed → refuses (.clkXoRetry p) 0x24) ∧
      (x.pllOn = false ∨ x.ref = true → ∃ t, exec (.clkXoStop p) s = .next t ∧ t.clk = { x with xo := .off, result := 0 } ∧ SameBut [.clk, .hdr, .hts, .out] s t) ∧
      (x.pllOn = true → x.ref = false → refuses (.clkXoStop p) 0x24) ∧
      (x.pllOn = false → (x.ref = true ∨ x.xo ≠ .failed) → ∃ t, exec (.clkPllStart p) s = .next t ∧ t.clk = { x with pllOn := true, locked := false, result := 0 } ∧ SameBut [.clk] s t) ∧
      (x.pllOn = false → x.ref = false → x.xo = .failed → refuses (.clkPllStart p) 0x22) ∧
      (∀ d : Fin 4, x.busy = false → x.locked = true → (d.val = 0 ∨ d.val = 3 ∨ s.domOn 3 = false) → (x.dom d.val).frc = true →
        ∃ t, exec (.clkRamp p d) s = .next t ∧ t.clk.sw = [(1 + d.val, false)] ∧ (t.clk.dom d.val).tgt = targetDiv d.val ∧ t.clk.result = 0 ∧ SameBut [.clk] s t) ∧
      (∀ d : Fin 4, x.busy = true → x.locked = true → refuses (.clkRamp p d) 0x21) ∧
      (∀ d : Fin 4, x.busy = false → x.locked = true → s.domOn 3 = true → (d.val = 1 ∨ d.val = 2) → refuses (.clkRamp p d) 0x20) ∧
      (∀ d : Fin 4, x.busy = false → x.locked = false → ∃ t, exec (.clkRamp p d) s = .next t ∧ t.clk.doms = x.doms ∧ t.clk.sw = x.sw) ∧
      (x.xo = .stable → s.xngBusy = false → x.busy = false → (s.domOn 3 = false ∨ x.fell = true) → x.pllOn = true → x.ref = true →
        ∃ t, exec (.clkReturn p) s = .next t ∧ t.clk = { x with why := some (.back 1), sw := [(0, false)], result := 0 } ∧ SameBut [.clk] s t) ∧
      (x.xo ≠ .stable → refuses (.clkReturn p) 0x22) ∧
      (x.xo = .stable → s.xngBusy = true → refuses (.clkReturn p) 0x23)) ∧
    (bit (s.reg R.CLK_CFG) 5 = true → x.xo = .stable → x.pllOn = true → x.ref = true → x.fell = true → s.xngBusy = false → x.busy = false →
      exec .autoReturn s = .next { s with clk := { x with why := some (.back 0), sw := [(0, false)] } }) ∧
    (bit (s.reg R.CLK_CFG) 5 = false ∨ s.xngBusy = true → exec .autoReturn s = .next s) ∧
    (x.xo = .starting →
      (∃ t, exec .xoStable s = .next t ∧ t.clk.xo = .stable ∧ t.clk.xoFails = x.xoFails ∧ SameBut [.clk, .evr, .hdr, .hts, .out] s t) ∧
      (x.xoFails + 1 < 4 → ∃ t, exec .xoStartTimeout s = .next t ∧ t.clk = { x with xoFails := x.xoFails + 1, xoT := s.upUs } ∧ SameBut [.clk, .hdr, .hts, .out] s t) ∧
      (4 ≤ x.xoFails + 1 → ∃ t, exec .xoStartTimeout s = .next t ∧ t.clk.xo = .failed ∧ t.clk.xoFails = 4)) ∧
    (x.xo ≠ .starting → exec .xoStable s = .next s ∧ exec .xoStartTimeout s = .next s) ∧
    (∀ d : Fin 4, ((x.dom d.val).ramp = true → s.pmc.st ≠ .waking → exec (.rampStep d) s = .next (s.updDom d.val fun y =>
        { y with div := rampNext y.div y.tgt, ramp := decide (rampNext y.div y.tgt ≠ y.tgt) })) ∧
      ((x.dom d.val).ramp = false → s.pmc.st ≠ .waking → exec (.rampStep d) s = .next s)) ∧
    (∀ m : Fin 5, (∀ b, (m.val, b) ∉ x.sw) → exec (.clkSwitchDone m) s = .next s ∧ exec (.clkSwitchForce m) s = .next s) ∧
    (∀ d : Fin 4, x.sw = [(1 + d.val, false)] →
      (∃ t, exec (.clkSwitchDone (Fin.ofNat 5 (1 + d.val))) s = .next t ∧ t.clk.sw = [] ∧ (t.clk.dom d.val).frc = false ∧ (t.clk.dom d.val).div = 24 ∧
        (t.clk.dom d.val).ramp = decide ((x.dom d.val).tgt ≠ 24)) ∧
      (∃ t, exec (.clkSwitchForce (Fin.ofNat 5 (1 + d.val))) s = .next t ∧ t.clk.sw = [] ∧ (t.clk.dom d.val).frc = false ∧ nbit t.clk.mon 4 = true ∧ t.clk.lastForced = 1 + d.val)) ∧
    (∀ k n, x.sw = [(0, true)] → x.why = some (.fallback k n) → ∃ t, exec (.clkSwitchDone 0) s = .next t ∧ t.clk.ref = true ∧ t.clk.fell = true ∧ t.clk.sw = [] ∧
      (x.pllOn = true → (x.dom 0).frc = false → t.clk.timeDeg = true)) ∧
    (∀ k, x.sw = [(0, false)] → x.why = some (.back k) → ∃ t, exec (.clkSwitchDone 0) s = .next t ∧ t.clk.ref = false ∧ t.clk.fell = false ∧ t.clk.backWait = some k ∧ SameBut [.clk] s t) ∧
    (x.pllOn = true → s.pmc.st ≠ .waking →
      (∃ t, exec .pllLock s = .next t ∧ t.clk.locked = true ∧ t.clk.backWait = none ∧
        (x.backWait.isSome = true → x.ref = false → (∀ d < 4, (x.dom d).frc = false) → t.clk.timeDeg = false))) ∧
    (∀ (stop : Bool) (cnt : Nat),
      (x.xo ≠ .stable → ∃ t, exec (.xoTrip stop cnt) s = .next t ∧ t.clk = { x with mon := nput x.mon 0 true, xoCnt := cnt } ∧ SameBut [.clk] s t) ∧
      (x.xo = .stable → x.xoFails + 1 < 4 → x.pllOn = true → x.ref = false → x.frcOk = true → ∃ t, exec (.xoTrip stop cnt) s = .next t ∧ t.clk.xo = .starting ∧
        t.clk.xoFails = x.xoFails + 1 ∧ (0, true) ∈ t.clk.sw ∧ t.clk.why = some (.fallback (b2n stop) cnt) ∧ t.clk.locked = x.locked ∧ t.clk.doms = x.doms) ∧
      (x.xo = .stable → 4 ≤ x.xoFails + 1 → ∃ t, exec (.xoTrip stop cnt) s = .next t ∧ t.clk.xo = .failed ∧ t.clk.xoFails = 4) ∧
      (x.xo = .stable → x.pllOn = true → x.ref = false → x.frcOk = false → ∃ t, exec (.xoTrip stop cnt) s = .next t ∧ t.erm.fatal = true)) ∧
    (∃ t, exec .pllUnlock s = .next t ∧ t.clk.locked = false ∧ nbit t.clk.mon 1 = true ∧ (s.domOn 3 = true → t.erm.fatal = true) ∧
      (s.domOn 3 = true → ∀ d < 4, (x.dom d).frc = false → (1 + d, true) ∈ t.clk.sw)) ∧
    (∀ cnt, ∃ t, exec (.frcFail cnt) s = .next t ∧ t.clk.frcOk = false ∧ t.clk.frcCnt = cnt ∧ nbit t.clk.mon 2 = true ∧
      ((x.pllOn = true ∧ x.ref = true) ∨ (∃ d < 4, (x.dom d).frc = true) → t.erm.fatal = true)) ∧
    (∃ t, exec .srcFail s = .next t ∧ t.clk.srcOk = false ∧ nbit t.clk.mon 3 = true ∧ t.clk.doms = x.doms)

/-- The power controller enters, rolls back and wakes as Table PMC-3 gives. PMC_CMD of the current state reports 0; a command in a state that Table
PMC-3 does not list is refused with STATE_CMD, during a transition with PMC_BUSY. A low-power command starts the handshake; a block that agrees is
stopped before the next is asked, one that refuses or whose wait ends rolls the entry back, and the rollback wakes the stopped blocks. A wake source
that is enabled wakes a sleeping device. Domains switch on and off only within Table PMC-1. (R447, R454, R455, R456, R457, R458, R459, R462) -/
def Obligations.PowerControllerFollowsTablePmc3 : Prop :=
  ∀ (s : State) (p : Principal),
    let x := s.pmc
    let cmd := s.writeOk .pmc 0x100 .wo p = true
    let refuses := fun (i : Instr) (e : Nat) => ∃ t, exec i s = .next t ∧ t.pmc = { x with result := e } ∧ (t.hd .pmc).errCode = 0x0300 + e ∧ SameBut [.pmc, .hdr, .hts, .out] s t
    let low := fun doms : List Nat => askOrder.filter fun b => (decide (b = .fio)) || ((doms.contains b.domain.code || (decide (b = .cpu) && doms.contains 2)) && decide ((s.hd b).pwr = .on))
    (cmd → x.busy = true → refuses (.pmcRun p) 0x20 ∧ refuses (.pmcEco p) 0x20 ∧ refuses (.pmcStandby p) 0x20 ∧ refuses (.pmcHibernate p) 0x20) ∧
    (cmd → x.busy = false →
      (x.st = .run → exec (.pmcRun p) s = .next (s.updPmc fun y => { y with result := 0 })) ∧
      (x.st = .standby → refuses (.pmcRun p) 0x23 ∧ refuses (.pmcEco p) 0x23) ∧
      (x.st = .eco → (s.clk.dom 0).frc = false → (s.clk.dom 0).div = 8 → ∃ t, exec (.pmcRun p) s = .next t ∧ t.pmc.st = .waking ∧
        t.pmc.todo = x.ecoOff.filter (fun d => !x.on.contains d) ∧ (t.clk.dom 0).tgt = 2 ∧ (t.clk.dom 0).ramp = true ∧ SameBut [.pmc, .clk] s t) ∧
      (x.st = .run ∨ x.st = .eco → low x.on ≠ [] → ∃ t, exec (.pmcStandby p) s = .next t ∧ t.pmc.st = .entering ∧ t.pmc.from_ = x.st ∧ t.pmc.tgt = .standby ∧ t.pmc.on = x.on ∧
        t.pmc.hs = some { doms := x.on, ask := low x.on, core := coreOf p } ∧ SameBut [.pmc] s t) ∧
      (x.st = .run ∨ x.st = .eco → low x.on ≠ [] → ∃ t, exec (.pmcHibernate p) s = .next t ∧ t.pmc.st = .entering ∧ t.pmc.tgt = .hibernate ∧
        t.pmc.hs = some { doms := x.on, ask := low x.on, core := coreOf p } ∧ SameBut [.pmc] s t) ∧
      (x.st = .run → ∀ b l, (askOrder.filter fun b => ((x.on.filter fun d => bit (s.reg R.PMC_ECO_MASK) d).contains b.domain.code ||
          (decide (b = .cpu) && (x.on.filter fun d => bit (s.reg R.PMC_ECO_MASK) d).contains 2)) && decide ((s.hd b).pwr = .on)) = b :: l →
        ∃ t, exec (.pmcEco p) s = .next t ∧ t.pmc.st = .entering ∧ t.pmc.tgt = .eco ∧ t.pmc.hs = some { doms := x.on.filter fun d => bit (s.reg R.PMC_ECO_MASK) d, ask := b :: l, core := coreOf p } ∧
          SameBut [.pmc] s t)) ∧
    (∀ (wfi busy : Bool) (h : PHs) (b : Block) (c : Block) (l : List Block), x.hs = some h → h.ask = b :: c :: l →
      (s.hsAnswer h wfi busy b = .agree → h.wait = none → h.doms.contains b.domain.code = true → exec (.pmcHandshakeAnswer wfi busy) s = .next
        ((s.updHd b fun y => { y with pwr := .sleep }).updPmc fun y => { y with hs := some { h with ask := c :: l, wait := none, stopped := b :: h.stopped } })) ∧
      (s.hsAnswer h wfi busy b = .refuse → h.wait = none → x.st = .entering → exec (.pmcHandshakeAnswer wfi busy) s = .next
        (s.updPmc fun y => { y with st := .rollback, cause := 0, refBlk := b.code, result := 0x21, hs := some { h with ask := [], wait := none, back := true } })) ∧
      (s.hsAnswer h wfi busy b = .wait → h.wait = none → b ≠ .hrc → exec (.pmcHandshakeAnswer wfi busy) s = .next
        (s.updPmc fun y => { y with hs := some { h with wait := some (b, s.upUs) } }))) ∧
    (∀ (wfi busy : Bool) (h : PHs) (b : Block) (d : Nat), x.hs = some h → h.ask = [b] → h.wait = none → h.dom = some d → s.hsAnswer h wfi busy b = .agree →
      ∃ t, exec (.pmcHandshakeAnswer wfi busy) s = .next t ∧ t.pmc.hs = none ∧ d ∉ t.pmc.on) ∧
    (∀ (h : PHs) (b : Block) (t0 : Nat), x.hs = some h → h.wait = some (b, t0) → x.st = .entering → ∃ t, exec .pmcWaitTimeout s = .next t ∧ t.pmc.st = .rollback ∧ t.pmc.refBlk = b.code ∧
      t.pmc.cause = 1 ∧ t.pmc.waitBlk = b.code ∧ t.pmc.waitTime = min 0xFFFF ((s.upUs - t0) / 100) ∧ SameBut [.pmc] s t) ∧
    (∀ h, x.hs = some h → h.back = true → ∃ t, exec .pmcRollbackDone s = .next t ∧ t.pmc.hs = none ∧ t.pmc.st = (if x.st = .rollback then x.from_ else x.st) ∧
      (∀ b ∈ h.stopped, (t.hd b).pwr = .on) ∧ t.pmc.on = x.on) ∧
    (x.hs = none → (∀ a b, exec (.pmcHandshakeAnswer a b) s = .next s) ∧ exec .pmcWaitTimeout s = .next s ∧ exec .pmcRollbackDone s = .next s) ∧
    (∀ (i : Instr) (code : Nat), (i, code) ∈ [(Instr.wakeNLow, 0), (.pmcAlarmMatch, 1), (.laneSignalDetect 0, 2), (.laneSignalDetect 7, 9), (.aveSignalDetect 0, 10), (.aveSignalDetect 5, 15), (.perstNRise, 20)] →
      (bit (s.reg R.PMC_WAKE_EN) code = false → exec i s = .next s) ∧
      (bit (s.reg R.PMC_WAKE_EN) code = true → x.wakeT ≠ some s.upUs →
        (x.st = .run ∨ x.st = .eco ∨ x.st = .waking ∨ x.st = .rollback → exec i s = .next s) ∧
        (x.st = .standby → ∃ t, exec i s = .next t ∧ t.pmc.st = .waking ∧ t.pmc.wakeCause = code ∧ t.pmc.wakeStat = nput x.wakeStat code true ∧ t.clk.pllOn = true) ∧
        (x.st = .hibernate → ∃ t, exec i s = .next t ∧ t.pmc.st = .run ∧ t.pmc.wakeCause = code ∧ t.erm.phase = 1 ∧ t.sys.romAlive = true) ∧
        (x.st = .entering → x.hs.isSome = true → ∃ t, exec i s = .next t ∧ t.pmc.st = .rollback ∧ t.pmc.cause = 2 ∧ t.pmc.wakeCause = code))) ∧
    (∀ n : Fin 8, exec (.laneSignalDetect n) s = .next (s.wakeSource (2 + n.val))) ∧ (∀ n : Fin 6, exec (.aveSignalDetect n) s = .next (s.wakeSource (10 + n.val))) ∧
    (s.writeOk .pmc 0x108 .wo p = true → x.busy = false → ∀ d : Fin 16,
      (1 ≤ d.val → d.val ≤ 12 → s.domOn d.val = false → (∀ r ∈ domReq d.val, s.domOn r = true) → ∃ t, exec (.pmcDomOn p d) s = .next t ∧ t.pmc.trans = [d.val] ∧ t.pmc.result = 0 ∧
        (∀ b ∈ domBlocks d.val, (t.hd b).pwr = .reset) ∧ SameBut [.pmc, .hdr] s t) ∧
      (1 ≤ d.val → d.val ≤ 12 → s.domOn d.val = false → (∃ r ∈ domReq d.val, s.domOn r = false) → refuses (.pmcDomOn p d) 0x22) ∧
      (s.domOn d.val = true → (∃ e ∈ x.on, d.val ∈ domReq e) → 1 ≤ d.val → d.val ≤ 12 → refuses (.pmcDomOff p d) 0x22) ∧
      (s.domOn d.val = true → (∀ e ∈ x.on, d.val ∉ domReq e) → 1 ≤ d.val → d.val ≤ 12 → (∃ b ∈ domBlocks d.val, (s.hd b).pwr = .on ∧ b ∈ askOrder) →
        ∃ t h, exec (.pmcDomOff p d) s = .next t ∧ t.pmc.hs = some h ∧ h.dom = some d.val ∧ h.doms = [d.val] ∧ h.back = false ∧ t.pmc.on = x.on ∧ SameBut [.pmc] s t)) ∧
    (∀ (d : Fin 13) (net el : Nat),
      (x.trans.contains d.val = false → exec (.domainPowerUpDone d net el) s = .next s) ∧
      (x.trans = [d.val] → x.todo = [] → x.st = .run → (∀ r ∈ domReq d.val, s.domOn r = true) → d.val ≠ 3 → d.val ≠ 7 → d.val ≠ 11 → d.val ≠ 1 → d.val ≠ 2 → 1 ≤ d.val →
        (∀ b ∈ domBlocks d.val, (s.hd b).pwr = .reset) → ∃ t, exec (.domainPowerUpDone d net el) s = .next t ∧ d.val ∈ t.pmc.on ∧ t.pmc.trans = [] ∧
          ∀ b ∈ domBlocks d.val, (t.hd b).pwr = .on ∧ (t.hd b).en = false ∧ (t.hd b).lock = (s.hd b).lock)) ∧
    (x.st = .waking → x.from_ = .standby → x.todo = [] → x.trans = [] → s.clk.locked = true → s.resumeHash = x.hash →
      ∃ t, exec .pmcWakeDone s = .next t ∧ t.pmc.st = (if bit (s.reg R.PMC_WAKE_TGT) 0 then .eco else .run) ∧ (t.core 0).running = true ∧
        (t.core 0).startPc = (s.reg R.PMC_RESUME_LO).toNat + 2 ^ 32 * (s.reg R.PMC_RESUME_HI).toNat ∧ t.sys = s.sys) ∧
    (x.st = .waking → x.from_ = .standby → x.todo = [] → x.trans = [] → s.clk.locked = true → s.resumeHash ≠ x.hash →
      ∃ t, exec .pmcWakeDone s = .next t ∧ (t.core 0).startPc = 0 ∧ t.erm.phase = 3 ∧ t.sys.romAlive = true) ∧
    (x.st ≠ .waking → exec .pmcWakeDone s = .next s)

/-- The retention store's rounds and checks, and the error manager by Table ERM-4. A word written to a firmware area reads back at once and is
durable after the round that writes it; a word that fails is dropped, logged and counted. A check zeroes and flags the banks that fail, clears the
flags of the others and, with both system copies bad, takes the factory map. A raise is counted; it becomes current, escalates, recurs, preempts or
queues by the first row of Table ERM-4 that applies, and a FATAL one starts the reaction. ERM_ACK of the current code takes the oldest of the worst,
another code is refused. (R470, R471, R472, R473, R474, R475, R476, R478, R480) -/
def Obligations.RetentionStoreAndErrorManager : Prop :=
  ∀ (s : State) (p : Principal),
    let e := s.erm
    let attached := s.hts.auto = .attached
    (∀ (i : Fin 524288) (v : Word), retFirmware i.val = true → s.present .ret = true → s.permits p 0x05 = true → (s.hd .ret).lock = false →
      s.ret.pend.length < 16384 → s.ret.waiting = [] → ∃ t, exec (.retWrite p i v) s = .next t ∧ t.retWord i.val = v ∧ t.ret.cells = s.ret.cells ∧ SameBut [.ret] s t ∧
        ∀ k, k ≠ i.val → t.retWord k = s.retWord k) ∧
    (∀ (i : Fin 524288) (v : Word), retFirmware i.val = false → ∃ t, exec (.retWrite p i v) s = .next t ∧ t.ret = s.ret ∧ (t.hd .ret).errCode = 0x0504) ∧
    (∀ w, s.ret.pend = [w] → s.ret.sysPend = false → s.ret.waiting = [] →
      (∃ t, exec (.retRound []) s = .next t ∧ Tab.get 0 t.ret.cells w.idx = w.val ∧ t.ret.pend = [] ∧ t.ret.round = wrapInc s.ret.round ∧ t.ret.flushing = false ∧
        (∀ k, k ≠ w.idx → Tab.get 0 t.ret.cells k = Tab.get 0 s.ret.cells k) ∧ SameBut [.ret, .hdr] s t) ∧
      (∀ f : Fin 524288, f.val = w.idx → ∃ t, exec (.retRound [f]) s = .next t ∧ Tab.get 0 t.ret.cells w.idx = Config.cellAfterFail s.free ∧ t.ret.pend = [] ∧
        t.ret.wfailCnt = satInc 0xFFFFFFFF s.ret.wfailCnt ∧ t.ret.wfailLog = some (s.ret.wfailLog.getD (4 * w.idx)) ∧ s.free < t.free)) ∧
    (s.writeOk .ret 0x110 .w1s p = true → ∃ t, exec (.retFlush p) s = .next t ∧ t.ret.flushing = true ∧ SameBut [.ret] s t) ∧
    (s.ret.checkBusy = true → (∀ b < 8, (newestRec (Tab.get ({}, {}) s.ret.recs b)).isSome = true) → ∀ us : BitVec 16,
      (∃ t, exec (.retCheckDone [] us) s = .next t ∧ t.ret.checkBusy = false ∧ t.ret.checkDone = true ∧ t.ret.checkUs = us.toNat ∧ t.ret.bankFail = 0 ∧ t.ret.cells = s.ret.cells ∧
        t.ret.sysLost = false ∧ t.sys.sysrec.lifecycle = s.ret.sysA.lifecycle ∧ t.sys.sysrec.keys = s.ret.sysA.keys) ∧
      (∀ (b : Fin 8) (c : Word), b.val ≠ 0 → b.val ≠ 4 → ∃ t, exec (.retCheckDone [(b, c)] us) s = .next t ∧ t.ret.bankFail = 2 ^ b.val ∧ t.ret.checkDone = true ∧
        (∀ k, retBank k = b.val → Tab.get 0 t.ret.cells k = 0) ∧ (b.val = 7 → t.ilp.retLost = true)) ∧
      (∀ c d : Word, ∃ t, exec (.retCheckDone [(0, c), (4, d)] us) s = .next t ∧ t.ret.sysLost = true ∧ t.sys.sysrec.lifecycle = 2 ∧ t.sys.sysrec.keys = [])) ∧
    (s.ret.checkBusy = false → ∀ l us, exec (.retCheckDone l us) s = .next s) ∧
    (∀ (b : Block) (inst : Fin 256) (code : BitVec 16) (sev : Severity),
      let raised := Instr.ermErrorRaise b inst code sev
      let src := b.code * 256 + inst.val
      let x : ErrEnt := { code := code.toNat, src := src, sev := sev, time := s.now }
      let counted := fun t : State => Tab.get 0 t.erm.cnt sev.code = satInc 0xFFFFFFFF (Tab.get 0 e.cnt sev.code)
      (sev.code < s.queueMin → sev ≠ .fatal → ∃ t, exec raised s = .next t ∧ counted t ∧ t.erm.cur = e.cur ∧ t.erm.queue = e.queue ∧ SameBut [.erm] s t) ∧
      (sev = .fatal → e.fatal = false → ∃ t, exec raised s = .next t ∧ counted t ∧ t.erm.fatal = true ∧ t.erm.errNLow = true ∧
        t.erm.fatalLog = some (e.fatalLog.getD { code := code.toNat, src := src, cause := 0 }) ∧ t.erm.cur = e.cur ∧ t.erm.queue = e.queue) ∧
      (sev = .fatal → e.fatal = true → ∃ t, exec raised s = .next t ∧ counted t ∧ t.erm = { e with cnt := t.erm.cnt } ∧ SameBut [.erm] s t) ∧
      (s.queueMin ≤ sev.code → sev ≠ .fatal →
        (e.cur = none → e.queue = [] → attached → ∃ t, exec raised s = .next t ∧ counted t ∧ t.erm.cur = some x ∧ t.erm.queue = [] ∧ (3 ≤ e.phase → t.erm.errNLow = (e.fatal || e.halted || decide (2 ≤ sev.code)))) ∧
        (e.cur = none → e.queue = [] → s.hts.auto ≠ .attached → sev.code ≤ 1 → ∃ t, exec raised s = .next t ∧ counted t ∧ t.erm.cur = none ∧ t.erm.queue = []) ∧
        (∀ y, e.find code.toNat = some y → y.escalated = true → ∃ t, exec raised s = .next t ∧ counted t ∧ t.erm.cur.map ErrEnt.code = e.cur.map ErrEnt.code ∧
          t.erm.queue.length = e.queue.length ∧ (t.erm.find code.toNat).map ErrEnt.recur = some (satInc 255 y.recur) ∧ SameBut [.erm, .evr, .hdr, .hts, .out] s t) ∧
        (∀ y, e.find code.toNat = some y → y.escalated = false → y.sev = .fault → ∃ t, exec raised s = .next t ∧ t.erm.fatal = true) ∧
        (∀ y, e.cur = some y → y.code = code.toNat → y.escalated = false → y.sev ≠ .fault → y.sev ≠ .fatal → ∃ t, exec raised s = .next t ∧ counted t ∧
          t.erm.cur = some { y with sev := sevUp y.sev, escalated := true } ∧ SameBut [.erm, .evr, .hdr, .hts, .out] s t) ∧
        (∀ c, e.cur = some c → e.find code.toNat = none → e.queue.length < 16 → attached →
          (c.sev.code < sev.code → ∃ t, exec raised s = .next t ∧ counted t ∧ t.erm.cur = some x ∧ t.erm.queue = c :: e.queue) ∧
          (sev.code ≤ c.sev.code → ∃ t, exec raised s = .next t ∧ counted t ∧ t.erm.cur = some c ∧ t.erm.queue = e.queue ++ [x])) ∧
        (∀ c, e.cur = some c → e.find code.toNat = none → 16 ≤ e.queue.length → e.fatal = false → ∃ t, exec raised s = .next t ∧ t.erm.fatal = true ∧
          (e.fatalLog = none → t.erm.fatalLog = some { code := code.toNat, src := src, cause := 2 })))) ∧
    (∀ code : BitVec 16, s.writeOk .erm 0x114 .wo p = true →
      (∀ c, e.cur = some c → c.code = code.toNat → attached → ∃ t, exec (.ermAck p code) s = .next t ∧ t.erm.cur = (takeWorst e.queue).map Prod.fst ∧
        t.erm.queue = ((takeWorst e.queue).map Prod.snd).getD [] ∧ t.erm.cnt = e.cnt) ∧
      (∀ c, e.cur = some c → c.code ≠ code.toNat → ∃ t, exec (.ermAck p code) s = .next t ∧ t.erm = e ∧ (t.hd .erm).errCode = 0x0420) ∧
      (e.cur = none → ∃ t, exec (.ermAck p code) s = .next t ∧ t.erm = e ∧ (t.hd .erm).errCode = 0x0420)) ∧
    (∀ l c q, takeWorst l = some (c, q) → c ∈ l ∧ q.length + 1 = l.length ∧ ∀ d ∈ l, d.sev.code ≤ c.sev.code) ∧
    (∀ l, takeWorst l = none → l = [])

/-- Start-up runs its phases in order, resets reach what Table ERM-3 gives, and power losses act as R467 to R469 state. Each start-up command acts
only after the phase before it and changes nothing otherwise; an accepted image runs, a refused one halts. A full device reset empties the switched
domains and the error manager, records its cause and counts; it is held while its cause lasts. PG_MEM loss fences PD_MEM and loses the SDRAM; PFAIL_N
falls and rises as R469 states. A power-on resets the core die and keeps the retention store, the island and the field die. (R361, R463, R464, R465,
R466, R467, R468, R469, R486, R268, R300) -/
def Obligations.StartupResetsAndSupplies : Prop :=
  ∀ s : State,
    let e := s.erm
    let reset := fun (t : State) (cause : Nat) => t.erm.rstCause = cause ∧ t.erm.rstCount = satInc 0xFFFF e.rstCount ∧ t.erm.phase = 2 ∧ t.erm.cur = none ∧ t.erm.queue = [] ∧
      t.erm.fatal = false ∧ t.erm.cnt = e.cnt ∧ t.pmc.on = [] ∧ t.pmc.st = .run ∧ t.ce = {} ∧ t.xng = {} ∧ t.rsq = {} ∧ t.ptd = {} ∧ t.hts = {} ∧ t.lne = {} ∧ t.ave = {} ∧
      t.cpu = { cores := [] } ∧ t.sys.romAlive = true ∧ t.ret = s.ret ∧ t.saf = s.saf ∧ t.clk.xo = s.clk.xo ∧ t.clk.locked = s.clk.locked ∧ t.clk.doms = [] ∧ t.fio.linkUp = false ∧
      t.pending = s.pending
    (e.phase = 0 → ∃ t, exec .startupRegulators s = .next t ∧ t.erm.phase = 1 ∧ t.erm.supply.pgCore = true ∧ t.erm.supply.pgIo = true ∧ SameBut [.erm] s t) ∧
    (e.phase ≠ 0 → exec .startupRegulators s = .next s) ∧
    (∀ m : Fin 4, (e.phase = 1 → ∃ t, exec (.startupOscillators m) s = .next t ∧ t.erm.phase = 2 ∧ t.erm.bootMode = m.val ∧ t.clk.frcOk = true ∧ t.clk.srcOk = true ∧ SameBut [.erm, .clk] s t) ∧
      (e.phase ≠ 1 → exec (.startupOscillators m) s = .next s)) ∧
    (e.phase = 2 → e.held = false → s.ret.pend = [] → s.ret.sysPend = false → bit (s.reg R.CPU_CORE_EN) 0 = true → ∃ t, exec .startupAlwaysOn s = .next t ∧ t.erm.phase = 3 ∧ t.ret.checkBusy = true ∧ t.ret.checkDone = false ∧
      t.ret.round = wrapInc s.ret.round ∧ t.sys.romAlive = true ∧ (t.core 0).running = true ∧ (s.domOn 1 = false → t.pmc.on = domInsert 1 s.pmc.on)) ∧
    (e.phase ≠ 2 ∨ e.held = true → exec .startupAlwaysOn s = .next s) ∧
    (∀ (f : Fin 5) (us : Nat), (e.phase = 3 → s.clk.xoFails = 0 → s.clk.xo = .off → ∃ t, exec (.startupClocks f us) s = .next t ∧ t.erm.phase = 4 ∧ t.clk.locked = true ∧
        t.clk.xo = (if f.val < 4 then .stable else .failed) ∧ t.clk.xoFails = f.val ∧ t.clk.dom 0 = { div := 2, frc := false, ramp := false, tgt := 2 } ∧
        t.clk.dom 2 = { div := 12, frc := false, ramp := false, tgt := 12 } ∧ (s.clk.pllOn = false → t.clk.ref = decide (f.val = 4))) ∧
      (e.phase ≠ 3 → exec (.startupClocks f us) s = .next s)) ∧
    (e.phase = 4 → e.noMem = false →
      (∃ t, exec (.startupMemory true false false) s = .next t ∧ t.erm.phase = 5 ∧ t.erm.noMem = false ∧ t.reg R.MEM_CFG = Config.otpMemCfg &&& 0x333 ∧ (t.hd .mem).en = true ∧
        11 ∈ t.pmc.on ∧ s.free < t.free) ∧
      (∀ a b, ∃ t, exec (.startupMemory false a b) s = .next t ∧ t.erm.phase = 4 ∧ t.erm.noMem = true ∧ t.msdram = s.msdram)) ∧
    (e.phase ≠ 4 ∨ e.noMem = true → ∀ a b c, exec (.startupMemory a b c) s = .next s) ∧
    (∀ net el, (e.phase = 5 → s.ret.checkDone = true → s.domOn 11 = true → ∃ t, exec (.startupRealtime net el) s = .next t ∧ t.erm.phase = 6 ∧ 3 ∈ t.pmc.on ∧
        t.clk.dom 1 = { div := 6, frc := false, ramp := false, tgt := 6 }) ∧
      (e.phase ≠ 5 ∨ s.ret.checkDone = false ∨ s.domOn 11 = false → exec (.startupRealtime net el) s = .next s)) ∧
    (e.phase = 6 → ∀ a b : Option (List Byte),
      (e.bootMode = 1 → ∃ t, exec (.startupBoot a b) s = .next t ∧ t.erm.phase = 7 ∧ t.erm.pushWait = true ∧ t.erm.accepted = false ∧ 10 ∈ t.pmc.on) ∧
      (e.bootMode ≠ 1 → ∃ t, exec (.startupBoot a b) s = .next t ∧ t.erm.phase = 7 ∧
        (if tryImage a = 0 then t.erm.accepted = true ∧ t.erm.bootSrc = .norA ∧ t.erm.entry = leNat (((a.getD []).drop 24).take 8) ∧
            t.load (leNat (((a.getD []).drop 16).take 8)) (leNat (((a.getD []).drop 12).take 4)) = ((a.getD []).drop 128).take (leNat (((a.getD []).drop 12).take 4))
          else if tryImage b = 0 then t.erm.accepted = true ∧ t.erm.bootSrc = .norB ∧ t.erm.entry = leNat (((b.getD []).drop 24).take 8)
          else if e.bootMode = 2 then t.erm.accepted = false ∧ t.erm.pushWait = true ∧ 10 ∈ t.pmc.on
          else t.erm.accepted = false ∧ t.erm.halted = true ∧ t.erm.errNLow = true ∧ t.erm.bootResult = tryImage b ∧ (t.core 0).running = false ∧ t.mem = s.mem))) ∧
    (∀ p, s.writeOk .erm 0x150 .w1s p = true →
      let img := s.load 0x08000000 (min (s.reg R.ERM_PUSH_LEN).toNat 16777216)
      (e.phase = 7 → e.pushWait = true → ∃ t, exec (.ermPushGo p) s = .next t ∧ t.erm.pushWait = false ∧
        (if imageResult img = 0 then t.erm.accepted = true ∧ t.erm.bootSrc = .push else t.erm.halted = true ∧ t.erm.bootResult = imageResult img ∧ t.mem = s.mem)) ∧
      (e.phase ≠ 7 ∨ e.pushWait = false → ∃ t, exec (.ermPushGo p) s = .next t ∧ t.erm = s.erm ∧ (t.hd .erm).errCode = 0x0422)) ∧
    (e.pushWait = true → ∃ t, exec .bootPushTimeout s = .next t ∧ t.erm.halted = true ∧ t.erm.bootResult = 0x35) ∧
    (e.pushWait = false → exec .bootPushTimeout s = .next s) ∧
    (e.phase = 7 → e.accepted = true → ∃ t, exec .startupHandover s = .next t ∧ t.erm.phase = 8 ∧ t.sys.romAlive = false ∧ t.sys.sysrec.pmap = s.ret.sysA.pmap ∧
      (t.core 0).running = true ∧ (t.core 0).startPc = e.entry) ∧
    (e.phase ≠ 7 ∨ e.accepted = false → exec .startupHandover s = .next s) ∧
    (∀ a b c, 2 ≤ e.phase → ∃ t, exec (.brownout a b c) s = .next t ∧ reset t 1 ∧ t.erm.held = true) ∧
    (∀ b c, e.phase < 2 → ∃ t, exec (.brownout true b c) s = .next t ∧ t.erm.phase = 0 ∧ t.erm.supply.pgCore = false ∧ SameBut [.erm] s t) ∧
    (∃ t, exec .resetPin s = .next t ∧ reset t 4 ∧ t.erm.held = true) ∧
    (∀ (p : Principal) (v : Word), s.writeOk .erm 0x154 .wo p = true →
      (v = 0xA5A5 → ∃ t, exec (.softwareReset p v) s = .next t ∧ reset t 5 ∧ t.erm.held = false) ∧
      (v ≠ 0xA5A5 → ∃ t, exec (.softwareReset p v) s = .next t ∧ (t.hd .erm).errCode = 0x0421 ∧ SameBut [.hdr, .hts, .out] s t)) ∧
    (s.debugOpen = true → ∃ t, exec .debugReset s = .next t ∧ reset t 6 ∧ t.erm.held = false) ∧
    (s.debugOpen = false → exec .debugReset s = .next s) ∧
    (e.fatal = true → ∃ t, exec .fatalReset s = .next t ∧ reset t 2 ∧ t.erm.held = false ∧ t.erm.fatalLog = e.fatalLog) ∧
    (e.fatal = false → exec .fatalReset s = .next s) ∧
    (e.pfailActive = true → ∃ t, exec .pfailReset s = .next t ∧ reset t 3 ∧ t.erm.held = true) ∧
    (e.pfailActive = false → exec .pfailReset s = .next s) ∧
    (e.held = true → ∃ t, exec .resetRelease s = .next t ∧ t.erm.held = false ∧ t.erm.phase = e.phase ∧ t.tim.lostRst = (s.tim.lostRst || s.tim.lost) ∧ SameBut [.erm, .tim] s t) ∧
    (e.held = false → exec .resetRelease s = .next s) ∧
    (s.domOn 11 = true → (s.hd .mem).pwr = .on → ∃ t, exec .pgMemLoss s = .next t ∧ (t.hd .mem).pwr = .fenced ∧ (t.hd .mem).running = false ∧ t.msdram.trained = false ∧
      (∀ a, 0x800000000 ≤ a → t.mem8 a = 0) ∧ t.hrc.unsent = [] ∧ (s.acq.state = .armed → t.acq.state = .stopped)) ∧
    (s.domOn 11 = false → ∃ t, exec .pgMemLoss s = .next t ∧ t.erm.supply.pgMem = false ∧ SameBut [.erm] s t) ∧
    ((s.hd .mem).pwr = .fenced → ∃ t, exec .pgMemRestore s = .next t ∧ (t.hd .mem).pwr = .on ∧ t.erm.supply.pgMem = true) ∧
    (e.pfailActive = false → 2 ≤ e.phase → ∃ t, exec .pfailFall s = .next t ∧ t.erm.pfailActive = true ∧ t.erm.supply.pfailN = false ∧ t.erm.pfailSince = s.upUs ∧
      (s.pmc.hs.isSome = true → s.pmc.st = .entering → t.pmc.st = .rollback)) ∧
    (e.pfailActive = false → e.phase < 2 → ∃ t, exec .pfailFall s = .next t ∧ t.erm.held = true ∧ t.erm.rstCause = 3 ∧ SameBut [.erm] s t) ∧
    (e.pfailActive = true → exec .pfailFall s = .next s) ∧
    (e.pfailActive = true → ∃ t, exec .pfailRise s = .next t ∧ t.erm.pfailActive = false ∧ t.erm.supply.pfailN = true ∧
      t.erm.pfailLast = min 0xFFFF ((s.upUs - e.pfailSince) / 100) ∧ SameBut [.erm, .evr, .hdr, .hts, .out] s t) ∧
    (e.pfailActive = false → exec .pfailRise s = .next s) ∧
    (∃ t, exec .powerOnReset s = .next t ∧ t.erm = {} ∧ t.ret.cells = s.ret.cells ∧ t.ret.recs = s.ret.recs ∧ t.saf = s.saf ∧ t.fio.linkUp = false ∧ t.mem = [] ∧ t.pmc = {} ∧ t.clk = {} ∧
      t.pending = s.pending ∧ t.hd .saf = { pwr := (s.hd .saf).pwr }) ∧
    (∀ r, (s.hd .fio).pwr = .off → ∃ t, exec (.vddFdPowerUp r) s = .next t ∧ (t.hd .fio).pwr = .on ∧ t.fio.cfgSync = false ∧ (t.saf.chan 0).alive = true ∧ SameBut [.fio, .hdr, .mir, .regs, .shadow, .frz, .saf] s t) ∧
    ((s.hd .fio).pwr ≠ .off → ∃ t, exec .vddFdLoss s = .next t ∧ (t.hd .fio).pwr = .off ∧ (t.saf.chan 0).alive = false ∧ SameBut [.fio, .hdr, .mir, .saf] s t) ∧
    ((s.hd .fio).pwr = .off → exec .vddFdLoss s = .next s)

/-- Sticky bits and logs clear by writing 1. Each clear command, where its write reaches the block, clears in its register exactly the bits written
as 1, or empties its log or flag, and changes nothing outside the block's own state. NEW of a CAN object moves a frame that waits in the shadow into
view. (R34, R42, R111, R134, R157, R183, R207, R241, R299, R372, R435, R479) -/
def Obligations.StickyBitsClearByWritingOne : Prop :=
  ∀ (s : State) (p : Principal) (m : Word),
    let ok := fun (b : Block) (o : Nat) => s.writeOk b o .w1c p = true
    let word_ := fun (c : Instr) (l : List Part) (old : Word) (new : State → Word) => ∃ t, exec c s = .next t ∧ new t = old &&& ~~~ m ∧ SameBut l s t
    let bits_ := fun (c : Instr) (l : List Part) (old : Nat) (new : State → Nat) => ∃ t, exec c s = .next t ∧ word (new t) = word old &&& ~~~ m ∧ SameBut l s t
    let gone := fun (c : Instr) (l : List Part) (q : State → Prop) => ∃ t, exec c s = .next t ∧ q t ∧ SameBut l s t
    (∀ i : Fin 32, ok .ce (0x200 + 4 * i.val) → word_ (.ceEvtClear p i m) [.ce] (Tab.get 0 s.ce.evt i.val) fun t => Tab.get 0 t.ce.evt i.val) ∧
    (∀ i : Fin 32, ok .ce (0x380 + 4 * i.val) → word_ (.ceTripClear p i m) [.ce] (Tab.get 0 s.ce.trip i.val) fun t => Tab.get 0 t.ce.trip i.val) ∧
    (ok .xng 0x140 → gone (.xngDisLogClear p) [.xng] fun t => t.xng = { s.xng with dis := none }) ∧
    (∀ i : Fin 2, ok .rsq (0x140 + 4 * i.val) → word_ (.rsqEvtClear p i m) [.rsq] (Tab.get 0 s.rsq.evt i.val) fun t => Tab.get 0 t.rsq.evt i.val) ∧
    (∀ i : Fin 2, ok .rsq (0x148 + 4 * i.val) → word_ (.rsqAlmClear p i m) [.rsq] (Tab.get 0 s.rsq.alm i.val) fun t => Tab.get 0 t.rsq.alm i.val) ∧
    (∀ i : Fin 8, ok .csc (0x400 + 4 * i.val) → word_ (.cscEvtClear p i m) [.csc] (Tab.get 0 s.csc.evt i.val) fun t => Tab.get 0 t.csc.evt i.val) ∧
    (ok .mot 0x2C0 → bits_ (.motEncErrClear p m) [.mot] s.mot.encErr fun t => t.mot.encErr) ∧
    (∀ i : Fin 4, ok .mot (0x380 + 4 * i.val) → word_ (.motEvtClear p (some i) m) [.mot] (Tab.get 0 s.mot.evt i.val) fun t => Tab.get 0 t.mot.evt i.val) ∧
    (ok .mot 0x390 → bits_ (.motEvtClear p none m) [.mot] s.mot.gevt fun t => t.mot.gevt) ∧
    (ok .mot 0x1B8 → gone (.motLatClear p) [.mot] fun t => (t.axis (bits (s.reg R.MOT_SEL) 6 0)).latCap = false) ∧
    (ok .fio 0x138 → bits_ (.fioMmClear p m) [.fio] s.fio.mm fun t => t.fio.mm) ∧
    (ok .fio 0x13C → bits_ (.fioOcClear p m) [.fio] s.fio.oc fun t => t.fio.oc) ∧
    (ok .fio 0x100 → gone (.silencedClear p) [.fio] fun t => t.fio = { s.fio with silenced := false }) ∧
    (ok .ave 0x120 → gone (.aveSubStatClear p) [.ave] fun t => t.ave = { s.ave with subStat := none }) ∧
    (∀ n : Fin 8, ok .tim (0x214 + 0x20 * n.val) → gone (.txtsOvfClear p n) [.tim] fun t => t.txPort n.val = { s.txPort n.val with ovf := false }) ∧
    (ok .tim 0x104 → gone (.lostRstClear p) [.tim] fun t => t.tim = { s.tim with lostRst := false }) ∧
    (ok .acq 0x140 → word_ (.acqFlagClear p 0 m) [.acq] s.acq.flag0 fun t => t.acq.flag0) ∧
    (ok .acq 0x144 → word_ (.acqFlagClear p 1 m) [.acq] s.acq.flag1 fun t => t.acq.flag1) ∧
    (ok .cpu 0x10C → gone (.cpuWdtLogClear p m) [.cpu] fun t => word t.cpu.wdtLog = word s.cpu.wdtLog &&& ~~~ (m &&& 0xFF)) ∧
    (ok .cpu 0x11C → gone (.cpuSramUeClear p) [.cpu] fun t => t.cpu = { s.cpu with sramUe := none }) ∧
    (ok .mem 0x114 → gone (.memUeClear p) [.msdram] fun t => t.msdram = { s.msdram with ueLog := none }) ∧
    (ok .hif 0x108 → gone (.hifErrLogClear p) [.hif] fun t => t.hif = { s.hif with err := none }) ∧
    (∀ n i : Fin 4, ok .can (0x1024 + 4 * i.val + 0x1000 * n.val) →
      (i.val < 2 → word_ (.canEvtClear p n i m) [.can] (Tab.get 0 (s.cctl n.val).rxEvt i.val) fun t => Tab.get 0 (t.cctl n.val).rxEvt i.val) ∧
      (2 ≤ i.val → word_ (.canEvtClear p n i m) [.can] (Tab.get 0 (s.cctl n.val).txEvt (i.val - 2)) fun t => Tab.get 0 (t.cctl n.val).txEvt (i.val - 2))) ∧
    (∀ n : Fin 4, ok .can (0x1040 + 0x1000 * n.val) → gone (.canWokenClear p n) [.can] fun t => t.cctl n.val = { s.cctl n.val with woken := false }) ∧
    (∀ (n : Fin 4) (k : Fin 64), ok .can (objOff n.val k.val 3) →
      let o := s.canObj (cobj n.val k.val)
      gone (.canOvrClear p n k) [.can] (fun t => t.canObj (cobj n.val k.val) = { o with ovr := false }) ∧
      (o.shadow = none → gone (.canNewClear p n k) [.can] fun t => t.canObj (cobj n.val k.val) = { o with new_ := false, reading := false }) ∧
      (∀ x, o.shadow = some x → gone (.canNewClear p n k) [.can] fun t => (t.canObj (cobj n.val k.val)).buf = x ∧ (t.canObj (cobj n.val k.val)).new_ = true ∧
        (t.canObj (cobj n.val k.val)).shadow = none ∧ (t.canObj (cobj n.val k.val)).reading = false ∧ bits (t.canObj (cobj n.val k.val)).o2 3 0 = x.dlc % 16)) ∧
    (ok .clk 0x110 → bits_ (.clkMonStatClear p m) [.clk] s.clk.mon fun t => t.clk.mon) ∧
    (ok .pmc 0x118 → bits_ (.pmcWakeStatClear p m) [.pmc] s.pmc.wakeStat fun t => t.pmc.wakeStat) ∧
    (ok .ret 0x104 → bits_ (.retBankFailClear p m) [.ret] s.ret.bankFail fun t => t.ret.bankFail) ∧
    (ok .ret 0x114 → gone (.retWfailLogClear p) [.ret] fun t => t.ret = { s.ret with wfailLog := none }) ∧
    (ok .erm 0x144 → gone (.ermFatalLogClear p) [.erm] fun t => t.erm = { s.erm with fatalLog := none })

/-- Every step keeps the invariant of memory and of the bounded queues. If memory is in its canonical form, no writer holds more than four event
records, at most 64 safety records are held in a freeze, at most 16 errors are queued and at most 16,384 retention words are pending, then the same
holds after every step that answers a next state. (R391, R393, R471, R475) -/
def Obligations.EveryStepKeepsTheInvariant : Prop :=
  ∀ s t : State, s.Inv → step s = .next t → t.Inv

/-- Reset leaves the values the spec gives, and the invariant holds. Right after reset no command waits; the invariant holds; every register of the
map reads its reset value; the power state is RUN with PD_CPUA alone ON; the crystal is OFF, FRC and SRC are good and every domain clock is on FRC;
no error is in handling; the autonomy state is UNATTACHED; XNG votes in no mode, no loop, stream, group or session is active; the lifecycle is
COMMISSIONING with the factory map and no party enrolled. (R50, R411, R460, R461, R479, R498, log 2) -/
def Obligations.ResetState : Prop :=
  State.reset.Inv ∧ State.reset.pending = [] ∧
  (∀ (r : RegId) (w : RegRow), regRow r = some w → State.reset.reg r = word w.reset) ∧
  State.reset.pmc.st = .run ∧ State.reset.pmc.on = [1] ∧ State.reset.clk.xo = .off ∧ State.reset.clk.frcOk = true ∧ State.reset.clk.srcOk = true ∧
  (∀ d < 4, State.reset.clk.dom d = { div := 0, frc := true }) ∧ State.reset.erm.cur = none ∧ State.reset.erm.queue = [] ∧ State.reset.erm.fatal = false ∧
  State.reset.hts.auto = .unattached ∧ State.reset.hts.ready = [] ∧ (∀ n, State.reset.hts.task n = {}) ∧ State.reset.loopsActive = [] ∧ State.reset.rsqActive = false ∧
  State.reset.acq.state = .idle ∧ State.reset.sys.sysrec.lifecycle = 1 ∧ State.reset.sys.sysrec.keys = [] ∧ State.reset.pmap 15 = 0 ∧
  (∀ c, c ≠ 15 → State.reset.pmap c = 0x13)
end

