-- ==== Sys2Proof/Laws/Tab.lean ====
section
/-!
SUPPORT. The laws of the sparse tables: what a read gives after a write, and that every operation keeps the canonical form.
-/

namespace Sys2Proof.Machine

variable {α : Type}

@[simp] theorem Tab.get_nil (d : α) (k : Nat) : Tab.get d [] k = d := rfl

theorem Tab.get_cons (d : α) (j : Nat) (v : α) (t : Tab α) (k : Nat) :
    Tab.get d ((j, v) :: t) k = if j = k then v else Tab.get d t k := rfl

@[simp] theorem Tab.get_erase_same (d : α) (t : Tab α) (k : Nat) : Tab.get d (Tab.erase t k) k = d := by
  induction t with
  | nil => rfl
  | cons e t ih =>
    obtain ⟨j, v⟩ := e
    by_cases h : j = k <;> simp [Tab.erase, Tab.get, h, ih]

theorem Tab.get_erase_ne (d : α) (t : Tab α) {k j : Nat} (h : j ≠ k) : Tab.get d (Tab.erase t k) j = Tab.get d t j := by
  induction t with
  | nil => rfl
  | cons e t ih =>
    obtain ⟨i, v⟩ := e
    by_cases hi : i = k
    · subst hi; simp [Tab.erase, Tab.get, ih, Ne.symm h]
    · simp [Tab.erase, Tab.get, hi, ih]

@[simp] theorem Tab.get_insert_same (d : α) (k : Nat) (v : α) (t : Tab α) : Tab.get d (Tab.insert k v (Tab.erase t k)) k = v := by
  induction t with
  | nil => simp [Tab.erase, Tab.insert, Tab.get]
  | cons e t ih =>
    obtain ⟨j, w⟩ := e
    by_cases h : j = k
    · simp [Tab.erase, h, ih]
    · by_cases hk : k < j <;> simp [Tab.erase, Tab.insert, Tab.get, h, hk, ih]

theorem Tab.get_insert_ne (d : α) {k j : Nat} (v : α) (t : Tab α) (h : j ≠ k) :
    Tab.get d (Tab.insert k v t) j = Tab.get d t j := by
  induction t with
  | nil => simp [Tab.insert, Tab.get, Ne.symm h]
  | cons e t ih =>
    obtain ⟨i, w⟩ := e
    by_cases hk : k < i
    · simp [Tab.insert, Tab.get, hk, Ne.symm h]
    · simp [Tab.insert, Tab.get, hk, ih]

/-- A read of the key just written gives the value written. -/
@[simp] theorem Tab.get_put_same [DecidableEq α] (d : α) (t : Tab α) (k : Nat) (v : α) : Tab.get d (Tab.put d t k v) k = v := by
  by_cases h : v = d
  · simp [Tab.put, h]
  · simp [Tab.put, h]

/-- A write leaves every other key alone. -/
theorem Tab.get_put_ne [DecidableEq α] (d : α) (t : Tab α) {k j : Nat} (v : α) (h : j ≠ k) :
    Tab.get d (Tab.put d t k v) j = Tab.get d t j := by
  by_cases hv : v = d
  · simp [Tab.put, hv, Tab.get_erase_ne d t h]
  · simp [Tab.put, hv, Tab.get_insert_ne d v _ h, Tab.get_erase_ne d t h]

@[simp] theorem Tab.get_upd_same [DecidableEq α] (d : α) (t : Tab α) (k : Nat) (f : α → α) :
    Tab.get d (Tab.upd d t k f) k = f (Tab.get d t k) := by simp [Tab.upd]

theorem Tab.get_upd_ne [DecidableEq α] (d : α) (t : Tab α) {k j : Nat} (f : α → α) (h : j ≠ k) :
    Tab.get d (Tab.upd d t k f) j = Tab.get d t j := by simp [Tab.upd, Tab.get_put_ne d t _ h]

/-- A read after a write of one key, whichever key is read. -/
theorem Tab.get_put [DecidableEq α] (d : α) (t : Tab α) (k j : Nat) (v : α) :
    Tab.get d (Tab.put d t k v) j = if j = k then v else Tab.get d t j := by
  by_cases h : j = k
  · subst h; simp
  · simp [h, Tab.get_put_ne d t v h]

theorem Tab.get_upd [DecidableEq α] (d : α) (t : Tab α) (k j : Nat) (f : α → α) :
    Tab.get d (Tab.upd d t k f) j = if j = k then f (Tab.get d t k) else Tab.get d t j := by
  simp [Tab.upd, Tab.get_put]

/-- Values written from `k` upwards leave every key outside them alone. -/
theorem Tab.get_putList_out [DecidableEq α] (d : α) (vs : List α) :
    ∀ (t : Tab α) (k j : Nat), (j < k ∨ k + vs.length ≤ j) → Tab.get d (Tab.putList d t k vs) j = Tab.get d t j := by
  induction vs with
  | nil => intro t k j _; rfl
  | cons v vs ih =>
    intro t k j h
    simp only [List.length_cons] at h
    have hj : j ≠ k := by omega
    simp only [Tab.putList]
    rw [ih _ _ _ (by omega), Tab.get_put_ne d t v hj]

/-- Values written from `k` upwards are read back. -/
theorem Tab.getList_putList [DecidableEq α] (d : α) (vs : List α) :
    ∀ (t : Tab α) (k : Nat), Tab.getList d (Tab.putList d t k vs) k vs.length = vs := by
  induction vs with
  | nil => intro t k; rfl
  | cons v vs ih =>
    intro t k
    simp only [Tab.putList, List.length_cons, Tab.getList]
    rw [ih, Tab.get_putList_out d vs _ _ _ (Or.inl (Nat.lt_succ_self k))]
    simp

theorem Tab.above_mono {k j : Nat} (h : k ≤ j) : ∀ t : Tab α, Tab.above j t = true → Tab.above k t = true
  | [], _ => rfl
  | (i, _) :: t, hi => by
    simp only [Tab.above, Bool.and_eq_true, decide_eq_true_eq] at hi ⊢
    exact ⟨by omega, Tab.above_mono h t hi.2⟩

theorem Tab.above_erase {k j : Nat} : ∀ t : Tab α, Tab.above j t = true → Tab.above j (Tab.erase t k) = true
  | [], _ => rfl
  | (i, v) :: t, h => by
    simp only [Tab.above, Bool.and_eq_true, decide_eq_true_eq] at h
    by_cases hi : i = k
    · simp [Tab.erase, hi, Tab.above_erase t h.2]
    · simp [Tab.erase, hi, Tab.above, h.1, Tab.above_erase t h.2]

theorem Tab.wf_erase [DecidableEq α] {d : α} {k : Nat} : ∀ t : Tab α, Tab.wf d t = true → Tab.wf d (Tab.erase t k) = true
  | [], _ => rfl
  | (i, v) :: t, h => by
    simp only [Tab.wf, Bool.and_eq_true, decide_eq_true_eq] at h
    by_cases hi : i = k
    · simp [Tab.erase, hi, Tab.wf_erase t h.2]
    · simp [Tab.erase, hi, Tab.wf, h.1.1, Tab.above_erase t h.1.2, Tab.wf_erase t h.2]

theorem Tab.above_insert {k j : Nat} {v : α} (hk : j < k) : ∀ t : Tab α, Tab.above j t = true → Tab.above j (Tab.insert k v t) = true
  | [], _ => by simp [Tab.insert, Tab.above, hk]
  | (i, w) :: t, h => by
    have h' := h
    simp only [Tab.above, Bool.and_eq_true, decide_eq_true_eq] at h
    by_cases hi : k < i
    · simp [Tab.insert, hi, Tab.above, hk, h.1, h.2]
    · simp [Tab.insert, hi, Tab.above, h.1, Tab.above_insert hk t h.2]

/-- Inserting a value at a key that is not listed keeps the canonical form. -/
theorem Tab.wf_insert [DecidableEq α] {d v : α} {k : Nat} (hv : v ≠ d) :
    ∀ t : Tab α, Tab.wf d t = true → (∀ e ∈ t, e.1 ≠ k) → Tab.wf d (Tab.insert k v t) = true
  | [], _, _ => by simp [Tab.insert, Tab.wf, Tab.above, hv]
  | (i, w) :: t, h, hk => by
    have hw := h
    simp only [Tab.wf, Bool.and_eq_true, decide_eq_true_eq] at h
    have hik : i ≠ k := hk (i, w) (by simp)
    by_cases hi : k < i
    · simp only [Tab.insert, hi, if_true]
      simp only [Tab.wf, Tab.above, Bool.and_eq_true, decide_eq_true_eq]
      exact ⟨⟨hv, hi, Tab.above_mono (by omega) t h.1.2⟩, h.1, h.2⟩
    · simp only [Tab.insert, hi, if_false]
      simp only [Tab.wf, Bool.and_eq_true, decide_eq_true_eq]
      exact ⟨⟨h.1.1, Tab.above_insert (by omega) t h.1.2⟩, Tab.wf_insert hv t h.2 fun e he => hk e (by simp [he])⟩

theorem Tab.erase_keys {k : Nat} : ∀ (t : Tab α), ∀ e ∈ Tab.erase t k, e.1 ≠ k
  | [], _, h => by simp [Tab.erase] at h
  | (i, v) :: t, e, h => by
    by_cases hi : i = k
    · simp only [Tab.erase, hi, if_true] at h; exact Tab.erase_keys t e h
    · simp only [Tab.erase, hi, if_false, List.mem_cons] at h
      rcases h with rfl | h
      · exact hi
      · exact Tab.erase_keys t e h

/-- A write keeps the canonical form. -/
theorem Tab.wf_put [DecidableEq α] {d : α} {t : Tab α} (k : Nat) (v : α) (h : Tab.wf d t = true) : Tab.wf d (Tab.put d t k v) = true := by
  by_cases hv : v = d
  · simp [Tab.put, hv, Tab.wf_erase t h]
  · simp [Tab.put, hv, Tab.wf_insert hv _ (Tab.wf_erase t h) (Tab.erase_keys t)]

theorem Tab.wf_upd [DecidableEq α] {d : α} {t : Tab α} (k : Nat) (f : α → α) (h : Tab.wf d t = true) : Tab.wf d (Tab.upd d t k f) = true :=
  Tab.wf_put k _ h

theorem Tab.wf_putList [DecidableEq α] {d : α} : ∀ (vs : List α) (t : Tab α) (k : Nat), Tab.wf d t = true → Tab.wf d (Tab.putList d t k vs) = true
  | [], _, _, h => h
  | v :: vs, _, _, h => Tab.wf_putList vs _ _ (Tab.wf_put _ v h)

theorem Tab.above_keep {k : Nat} {p : Nat → α → Bool} : ∀ t : Tab α, Tab.above k t = true → Tab.above k (Tab.keep p t) = true
  | [], _ => rfl
  | (i, v) :: t, h => by
    simp only [Tab.above, Bool.and_eq_true, decide_eq_true_eq] at h
    by_cases hp : p i v = true
    · simp [Tab.keep, hp, Tab.above, h.1, Tab.above_keep t h.2]
    · simp [Tab.keep, hp, Tab.above_keep t h.2]

theorem Tab.wf_keep [DecidableEq α] {d : α} {p : Nat → α → Bool} : ∀ t : Tab α, Tab.wf d t = true → Tab.wf d (Tab.keep p t) = true
  | [], _ => rfl
  | (i, v) :: t, h => by
    simp only [Tab.wf, Bool.and_eq_true, decide_eq_true_eq] at h
    by_cases hp : p i v = true
    · simp [Tab.keep, hp, Tab.wf, h.1.1, Tab.above_keep t h.1.2, Tab.wf_keep t h.2]
    · simp [Tab.keep, hp, Tab.wf_keep t h.2]

theorem Tab.above_mapAll [DecidableEq α] {d : α} {f : α → α} {k : Nat} : ∀ t : Tab α, Tab.above k t = true → Tab.above k (Tab.mapAll d f t) = true
  | [], _ => rfl
  | (i, v) :: t, h => by
    simp only [Tab.above, Bool.and_eq_true, decide_eq_true_eq] at h
    by_cases hv : f v = d
    · simp [Tab.mapAll, hv, Tab.above_mapAll t h.2]
    · simp [Tab.mapAll, hv, Tab.above, h.1, Tab.above_mapAll t h.2]

theorem Tab.wf_mapAll [DecidableEq α] {d : α} {f : α → α} : ∀ t : Tab α, Tab.wf d t = true → Tab.wf d (Tab.mapAll d f t) = true
  | [], _ => rfl
  | (i, v) :: t, h => by
    simp only [Tab.wf, Bool.and_eq_true, decide_eq_true_eq] at h
    by_cases hv : f v = d
    · simp [Tab.mapAll, hv, Tab.wf_mapAll t h.2]
    · simp [Tab.mapAll, hv, Tab.wf, Tab.above_mapAll t h.1.2, Tab.wf_mapAll t h.2]

theorem Tab.get_above {d : α} {k : Nat} : ∀ t : Tab α, Tab.above k t = true → ∀ j, j ≤ k → Tab.get d t j = d
  | [], _, _, _ => rfl
  | (i, v) :: t, h, j, hj => by
    simp only [Tab.above, Bool.and_eq_true, decide_eq_true_eq] at h
    rw [Tab.get_cons, if_neg (by omega)]
    exact Tab.get_above t h.2 j hj

/-- Canonical tables that read the same are the same data. -/
theorem Tab.ext_get [DecidableEq α] {d : α} : ∀ t u : Tab α, Tab.wf d t = true → Tab.wf d u = true → (∀ k, Tab.get d t k = Tab.get d u k) → t = u
  | [], [], _, _, _ => rfl
  | [], (i, v) :: u, _, hu, h => by
    simp only [Tab.wf, Bool.and_eq_true, decide_eq_true_eq] at hu
    have := h i; simp [Tab.get] at this; exact absurd this.symm hu.1.1
  | (i, v) :: t, [], ht, _, h => by
    simp only [Tab.wf, Bool.and_eq_true, decide_eq_true_eq] at ht
    have := h i; simp [Tab.get] at this; exact absurd this ht.1.1
  | (i, v) :: t, (j, w) :: u, ht, hu, h => by
    have ht' := ht; have hu' := hu
    simp only [Tab.wf, Bool.and_eq_true, decide_eq_true_eq] at ht hu
    have hij : i = j := by
      rcases Nat.lt_trichotomy i j with hlt | heq | hgt
      · have := h i
        rw [Tab.get_cons, if_pos rfl, Tab.get_cons, if_neg (by omega), Tab.get_above u hu.1.2 i (by omega)] at this
        exact absurd this ht.1.1
      · exact heq
      · have := h j
        rw [Tab.get_cons, if_neg (by omega), Tab.get_above t ht.1.2 j (by omega), Tab.get_cons, if_pos rfl] at this
        exact absurd this.symm hu.1.1
    subst hij
    have hvw : v = w := by have := h i; simpa [Tab.get] using this
    subst hvw
    have : t = u := Tab.ext_get t u ht.2 hu.2 fun k => by
      by_cases hk : i = k
      · subst hk; rw [Tab.get_above t ht.1.2 i (Nat.le_refl i), Tab.get_above u hu.1.2 i (Nat.le_refl i)]
      · have := h k; simpa [Tab.get, hk] using this
    rw [this]

end Sys2Proof.Machine
end

