-- ==== Sys2Proof/Laws/State.lean ====
section
/-!
SUPPORT. The laws of the state's updates: each changes its own part and no other.
-/

namespace Sys2Proof.Machine

theorem SameBut.refl (l : List Part) (s : State) : SameBut l s s := fun x _ => by cases x <;> rfl

theorem SameBut.trans {l : List Part} {s t u : State} (h : SameBut l s t) (g : SameBut l t u) : SameBut l s u := fun x hx => by
  have a := h x hx
  have b := g x hx
  cases x <;> exact Eq.trans b a

theorem SameBut.mono {l m : List Part} {s t : State} (h : SameBut l s t) (hl : ∀ x ∈ l, x ∈ m) : SameBut m s t := fun x hx => h x fun hm => hx (hl x hm)

/-- A fold whose every step leaves parts alone leaves them alone. -/
theorem SameBut.foldl {α : Type} {l : List Part} {f : State → α → State} (h : ∀ s x, SameBut l s (f s x)) :
    ∀ (xs : List α) (s : State), SameBut l s (xs.foldl f s)
  | [], s => SameBut.refl l s
  | x :: xs, s => SameBut.trans (h s x) (SameBut.foldl h xs (f s x))

@[simp] theorem State.updHd_pending (s : State) (b : Block) (f : Hdr → Hdr) : (s.updHd b f).pending = s.pending := rfl
@[simp] theorem State.updHd_free (s : State) (b : Block) (f : Hdr → Hdr) : (s.updHd b f).free = s.free := rfl
@[simp] theorem State.updHd_out (s : State) (b : Block) (f : Hdr → Hdr) : (s.updHd b f).out = s.out := rfl
@[simp] theorem State.updHd_upUs (s : State) (b : Block) (f : Hdr → Hdr) : (s.updHd b f).upUs = s.upUs := rfl
@[simp] theorem State.updHd_mem (s : State) (b : Block) (f : Hdr → Hdr) : (s.updHd b f).mem = s.mem := rfl
@[simp] theorem State.updHd_mir (s : State) (b : Block) (f : Hdr → Hdr) : (s.updHd b f).mir = s.mir := rfl
@[simp] theorem State.updHd_regs (s : State) (b : Block) (f : Hdr → Hdr) : (s.updHd b f).regs = s.regs := rfl
@[simp] theorem State.updHd_shadow (s : State) (b : Block) (f : Hdr → Hdr) : (s.updHd b f).shadow = s.shadow := rfl
@[simp] theorem State.updHd_frz (s : State) (b : Block) (f : Hdr → Hdr) : (s.updHd b f).frz = s.frz := rfl
@[simp] theorem State.updHd_sys (s : State) (b : Block) (f : Hdr → Hdr) : (s.updHd b f).sys = s.sys := rfl
@[simp] theorem State.updHd_evr (s : State) (b : Block) (f : Hdr → Hdr) : (s.updHd b f).evr = s.evr := rfl
@[simp] theorem State.updHd_erm (s : State) (b : Block) (f : Hdr → Hdr) : (s.updHd b f).erm = s.erm := rfl
@[simp] theorem State.updHd_ret (s : State) (b : Block) (f : Hdr → Hdr) : (s.updHd b f).ret = s.ret := rfl
@[simp] theorem State.updHd_cpu (s : State) (b : Block) (f : Hdr → Hdr) : (s.updHd b f).cpu = s.cpu := rfl
@[simp] theorem State.updHd_msdram (s : State) (b : Block) (f : Hdr → Hdr) : (s.updHd b f).msdram = s.msdram := rfl
@[simp] theorem State.updHd_hif (s : State) (b : Block) (f : Hdr → Hdr) : (s.updHd b f).hif = s.hif := rfl
@[simp] theorem State.updHd_ptd (s : State) (b : Block) (f : Hdr → Hdr) : (s.updHd b f).ptd = s.ptd := rfl
@[simp] theorem State.updHd_tim (s : State) (b : Block) (f : Hdr → Hdr) : (s.updHd b f).tim = s.tim := rfl
@[simp] theorem State.updHd_hts (s : State) (b : Block) (f : Hdr → Hdr) : (s.updHd b f).hts = s.hts := rfl
@[simp] theorem State.updHd_ce (s : State) (b : Block) (f : Hdr → Hdr) : (s.updHd b f).ce = s.ce := rfl
@[simp] theorem State.updHd_xng (s : State) (b : Block) (f : Hdr → Hdr) : (s.updHd b f).xng = s.xng := rfl
@[simp] theorem State.updHd_ave (s : State) (b : Block) (f : Hdr → Hdr) : (s.updHd b f).ave = s.ave := rfl
@[simp] theorem State.updHd_saf (s : State) (b : Block) (f : Hdr → Hdr) : (s.updHd b f).saf = s.saf := rfl
@[simp] theorem State.updHd_clk (s : State) (b : Block) (f : Hdr → Hdr) : (s.updHd b f).clk = s.clk := rfl
@[simp] theorem State.updHd_pmc (s : State) (b : Block) (f : Hdr → Hdr) : (s.updHd b f).pmc = s.pmc := rfl
@[simp] theorem State.updHd_mot (s : State) (b : Block) (f : Hdr → Hdr) : (s.updHd b f).mot = s.mot := rfl
@[simp] theorem State.updHd_lne (s : State) (b : Block) (f : Hdr → Hdr) : (s.updHd b f).lne = s.lne := rfl
@[simp] theorem State.updHd_csc (s : State) (b : Block) (f : Hdr → Hdr) : (s.updHd b f).csc = s.csc := rfl
@[simp] theorem State.updHd_fio (s : State) (b : Block) (f : Hdr → Hdr) : (s.updHd b f).fio = s.fio := rfl
@[simp] theorem State.updHd_rsq (s : State) (b : Block) (f : Hdr → Hdr) : (s.updHd b f).rsq = s.rsq := rfl
@[simp] theorem State.updHd_hrc (s : State) (b : Block) (f : Hdr → Hdr) : (s.updHd b f).hrc = s.hrc := rfl
@[simp] theorem State.updHd_can (s : State) (b : Block) (f : Hdr → Hdr) : (s.updHd b f).can = s.can := rfl
@[simp] theorem State.updHd_acq (s : State) (b : Block) (f : Hdr → Hdr) : (s.updHd b f).acq = s.acq := rfl
@[simp] theorem State.updHd_ilp (s : State) (b : Block) (f : Hdr → Hdr) : (s.updHd b f).ilp = s.ilp := rfl

theorem State.updHd_same (s : State) (b : Block) (f : Hdr → Hdr) : SameBut [.hdr] s (s.updHd b f) := fun x hx => by
  cases x <;> first | rfl | exact absurd hx (by decide)

@[simp] theorem State.updHts_pending (s : State) (f : Hts → Hts) : (s.updHts f).pending = s.pending := rfl
@[simp] theorem State.updHts_free (s : State) (f : Hts → Hts) : (s.updHts f).free = s.free := rfl
@[simp] theorem State.updHts_out (s : State) (f : Hts → Hts) : (s.updHts f).out = s.out := rfl
@[simp] theorem State.updHts_upUs (s : State) (f : Hts → Hts) : (s.updHts f).upUs = s.upUs := rfl
@[simp] theorem State.updHts_mem (s : State) (f : Hts → Hts) : (s.updHts f).mem = s.mem := rfl
@[simp] theorem State.updHts_hdr (s : State) (f : Hts → Hts) : (s.updHts f).hdr = s.hdr := rfl
@[simp] theorem State.updHts_mir (s : State) (f : Hts → Hts) : (s.updHts f).mir = s.mir := rfl
@[simp] theorem State.updHts_regs (s : State) (f : Hts → Hts) : (s.updHts f).regs = s.regs := rfl
@[simp] theorem State.updHts_shadow (s : State) (f : Hts → Hts) : (s.updHts f).shadow = s.shadow := rfl
@[simp] theorem State.updHts_frz (s : State) (f : Hts → Hts) : (s.updHts f).frz = s.frz := rfl
@[simp] theorem State.updHts_sys (s : State) (f : Hts → Hts) : (s.updHts f).sys = s.sys := rfl
@[simp] theorem State.updHts_evr (s : State) (f : Hts → Hts) : (s.updHts f).evr = s.evr := rfl
@[simp] theorem State.updHts_erm (s : State) (f : Hts → Hts) : (s.updHts f).erm = s.erm := rfl
@[simp] theorem State.updHts_ret (s : State) (f : Hts → Hts) : (s.updHts f).ret = s.ret := rfl
@[simp] theorem State.updHts_cpu (s : State) (f : Hts → Hts) : (s.updHts f).cpu = s.cpu := rfl
@[simp] theorem State.updHts_msdram (s : State) (f : Hts → Hts) : (s.updHts f).msdram = s.msdram := rfl
@[simp] theorem State.updHts_hif (s : State) (f : Hts → Hts) : (s.updHts f).hif = s.hif := rfl
@[simp] theorem State.updHts_ptd (s : State) (f : Hts → Hts) : (s.updHts f).ptd = s.ptd := rfl
@[simp] theorem State.updHts_tim (s : State) (f : Hts → Hts) : (s.updHts f).tim = s.tim := rfl
@[simp] theorem State.updHts_ce (s : State) (f : Hts → Hts) : (s.updHts f).ce = s.ce := rfl
@[simp] theorem State.updHts_xng (s : State) (f : Hts → Hts) : (s.updHts f).xng = s.xng := rfl
@[simp] theorem State.updHts_ave (s : State) (f : Hts → Hts) : (s.updHts f).ave = s.ave := rfl
@[simp] theorem State.updHts_saf (s : State) (f : Hts → Hts) : (s.updHts f).saf = s.saf := rfl
@[simp] theorem State.updHts_clk (s : State) (f : Hts → Hts) : (s.updHts f).clk = s.clk := rfl
@[simp] theorem State.updHts_pmc (s : State) (f : Hts → Hts) : (s.updHts f).pmc = s.pmc := rfl
@[simp] theorem State.updHts_mot (s : State) (f : Hts → Hts) : (s.updHts f).mot = s.mot := rfl
@[simp] theorem State.updHts_lne (s : State) (f : Hts → Hts) : (s.updHts f).lne = s.lne := rfl
@[simp] theorem State.updHts_csc (s : State) (f : Hts → Hts) : (s.updHts f).csc = s.csc := rfl
@[simp] theorem State.updHts_fio (s : State) (f : Hts → Hts) : (s.updHts f).fio = s.fio := rfl
@[simp] theorem State.updHts_rsq (s : State) (f : Hts → Hts) : (s.updHts f).rsq = s.rsq := rfl
@[simp] theorem State.updHts_hrc (s : State) (f : Hts → Hts) : (s.updHts f).hrc = s.hrc := rfl
@[simp] theorem State.updHts_can (s : State) (f : Hts → Hts) : (s.updHts f).can = s.can := rfl
@[simp] theorem State.updHts_acq (s : State) (f : Hts → Hts) : (s.updHts f).acq = s.acq := rfl
@[simp] theorem State.updHts_ilp (s : State) (f : Hts → Hts) : (s.updHts f).ilp = s.ilp := rfl

theorem State.updHts_same (s : State) (f : Hts → Hts) : SameBut [.hts] s (s.updHts f) := fun x hx => by
  cases x <;> first | rfl | exact absurd hx (by decide)

@[simp] theorem State.updFio_pending (s : State) (f : Fio → Fio) : (s.updFio f).pending = s.pending := rfl
@[simp] theorem State.updFio_free (s : State) (f : Fio → Fio) : (s.updFio f).free = s.free := rfl
@[simp] theorem State.updFio_out (s : State) (f : Fio → Fio) : (s.updFio f).out = s.out := rfl
@[simp] theorem State.updFio_upUs (s : State) (f : Fio → Fio) : (s.updFio f).upUs = s.upUs := rfl
@[simp] theorem State.updFio_mem (s : State) (f : Fio → Fio) : (s.updFio f).mem = s.mem := rfl
@[simp] theorem State.updFio_hdr (s : State) (f : Fio → Fio) : (s.updFio f).hdr = s.hdr := rfl
@[simp] theorem State.updFio_mir (s : State) (f : Fio → Fio) : (s.updFio f).mir = s.mir := rfl
@[simp] theorem State.updFio_regs (s : State) (f : Fio → Fio) : (s.updFio f).regs = s.regs := rfl
@[simp] theorem State.updFio_shadow (s : State) (f : Fio → Fio) : (s.updFio f).shadow = s.shadow := rfl
@[simp] theorem State.updFio_frz (s : State) (f : Fio → Fio) : (s.updFio f).frz = s.frz := rfl
@[simp] theorem State.updFio_sys (s : State) (f : Fio → Fio) : (s.updFio f).sys = s.sys := rfl
@[simp] theorem State.updFio_evr (s : State) (f : Fio → Fio) : (s.updFio f).evr = s.evr := rfl
@[simp] theorem State.updFio_erm (s : State) (f : Fio → Fio) : (s.updFio f).erm = s.erm := rfl
@[simp] theorem State.updFio_ret (s : State) (f : Fio → Fio) : (s.updFio f).ret = s.ret := rfl
@[simp] theorem State.updFio_cpu (s : State) (f : Fio → Fio) : (s.updFio f).cpu = s.cpu := rfl
@[simp] theorem State.updFio_msdram (s : State) (f : Fio → Fio) : (s.updFio f).msdram = s.msdram := rfl
@[simp] theorem State.updFio_hif (s : State) (f : Fio → Fio) : (s.updFio f).hif = s.hif := rfl
@[simp] theorem State.updFio_ptd (s : State) (f : Fio → Fio) : (s.updFio f).ptd = s.ptd := rfl
@[simp] theorem State.updFio_tim (s : State) (f : Fio → Fio) : (s.updFio f).tim = s.tim := rfl
@[simp] theorem State.updFio_hts (s : State) (f : Fio → Fio) : (s.updFio f).hts = s.hts := rfl
@[simp] theorem State.updFio_ce (s : State) (f : Fio → Fio) : (s.updFio f).ce = s.ce := rfl
@[simp] theorem State.updFio_xng (s : State) (f : Fio → Fio) : (s.updFio f).xng = s.xng := rfl
@[simp] theorem State.updFio_ave (s : State) (f : Fio → Fio) : (s.updFio f).ave = s.ave := rfl
@[simp] theorem State.updFio_saf (s : State) (f : Fio → Fio) : (s.updFio f).saf = s.saf := rfl
@[simp] theorem State.updFio_clk (s : State) (f : Fio → Fio) : (s.updFio f).clk = s.clk := rfl
@[simp] theorem State.updFio_pmc (s : State) (f : Fio → Fio) : (s.updFio f).pmc = s.pmc := rfl
@[simp] theorem State.updFio_mot (s : State) (f : Fio → Fio) : (s.updFio f).mot = s.mot := rfl
@[simp] theorem State.updFio_lne (s : State) (f : Fio → Fio) : (s.updFio f).lne = s.lne := rfl
@[simp] theorem State.updFio_csc (s : State) (f : Fio → Fio) : (s.updFio f).csc = s.csc := rfl
@[simp] theorem State.updFio_rsq (s : State) (f : Fio → Fio) : (s.updFio f).rsq = s.rsq := rfl
@[simp] theorem State.updFio_hrc (s : State) (f : Fio → Fio) : (s.updFio f).hrc = s.hrc := rfl
@[simp] theorem State.updFio_can (s : State) (f : Fio → Fio) : (s.updFio f).can = s.can := rfl
@[simp] theorem State.updFio_acq (s : State) (f : Fio → Fio) : (s.updFio f).acq = s.acq := rfl
@[simp] theorem State.updFio_ilp (s : State) (f : Fio → Fio) : (s.updFio f).ilp = s.ilp := rfl

theorem State.updFio_same (s : State) (f : Fio → Fio) : SameBut [.fio] s (s.updFio f) := fun x hx => by
  cases x <;> first | rfl | exact absurd hx (by decide)

@[simp] theorem State.updMot_pending (s : State) (f : Mot → Mot) : (s.updMot f).pending = s.pending := rfl
@[simp] theorem State.updMot_free (s : State) (f : Mot → Mot) : (s.updMot f).free = s.free := rfl
@[simp] theorem State.updMot_out (s : State) (f : Mot → Mot) : (s.updMot f).out = s.out := rfl
@[simp] theorem State.updMot_upUs (s : State) (f : Mot → Mot) : (s.updMot f).upUs = s.upUs := rfl
@[simp] theorem State.updMot_mem (s : State) (f : Mot → Mot) : (s.updMot f).mem = s.mem := rfl
@[simp] theorem State.updMot_hdr (s : State) (f : Mot → Mot) : (s.updMot f).hdr = s.hdr := rfl
@[simp] theorem State.updMot_mir (s : State) (f : Mot → Mot) : (s.updMot f).mir = s.mir := rfl
@[simp] theorem State.updMot_regs (s : State) (f : Mot → Mot) : (s.updMot f).regs = s.regs := rfl
@[simp] theorem State.updMot_shadow (s : State) (f : Mot → Mot) : (s.updMot f).shadow = s.shadow := rfl
@[simp] theorem State.updMot_frz (s : State) (f : Mot → Mot) : (s.updMot f).frz = s.frz := rfl
@[simp] theorem State.updMot_sys (s : State) (f : Mot → Mot) : (s.updMot f).sys = s.sys := rfl
@[simp] theorem State.updMot_evr (s : State) (f : Mot → Mot) : (s.updMot f).evr = s.evr := rfl
@[simp] theorem State.updMot_erm (s : State) (f : Mot → Mot) : (s.updMot f).erm = s.erm := rfl
@[simp] theorem State.updMot_ret (s : State) (f : Mot → Mot) : (s.updMot f).ret = s.ret := rfl
@[simp] theorem State.updMot_cpu (s : State) (f : Mot → Mot) : (s.updMot f).cpu = s.cpu := rfl
@[simp] theorem State.updMot_msdram (s : State) (f : Mot → Mot) : (s.updMot f).msdram = s.msdram := rfl
@[simp] theorem State.updMot_hif (s : State) (f : Mot → Mot) : (s.updMot f).hif = s.hif := rfl
@[simp] theorem State.updMot_ptd (s : State) (f : Mot → Mot) : (s.updMot f).ptd = s.ptd := rfl
@[simp] theorem State.updMot_tim (s : State) (f : Mot → Mot) : (s.updMot f).tim = s.tim := rfl
@[simp] theorem State.updMot_hts (s : State) (f : Mot → Mot) : (s.updMot f).hts = s.hts := rfl
@[simp] theorem State.updMot_ce (s : State) (f : Mot → Mot) : (s.updMot f).ce = s.ce := rfl
@[simp] theorem State.updMot_xng (s : State) (f : Mot → Mot) : (s.updMot f).xng = s.xng := rfl
@[simp] theorem State.updMot_ave (s : State) (f : Mot → Mot) : (s.updMot f).ave = s.ave := rfl
@[simp] theorem State.updMot_saf (s : State) (f : Mot → Mot) : (s.updMot f).saf = s.saf := rfl
@[simp] theorem State.updMot_clk (s : State) (f : Mot → Mot) : (s.updMot f).clk = s.clk := rfl
@[simp] theorem State.updMot_pmc (s : State) (f : Mot → Mot) : (s.updMot f).pmc = s.pmc := rfl
@[simp] theorem State.updMot_lne (s : State) (f : Mot → Mot) : (s.updMot f).lne = s.lne := rfl
@[simp] theorem State.updMot_csc (s : State) (f : Mot → Mot) : (s.updMot f).csc = s.csc := rfl
@[simp] theorem State.updMot_fio (s : State) (f : Mot → Mot) : (s.updMot f).fio = s.fio := rfl
@[simp] theorem State.updMot_rsq (s : State) (f : Mot → Mot) : (s.updMot f).rsq = s.rsq := rfl
@[simp] theorem State.updMot_hrc (s : State) (f : Mot → Mot) : (s.updMot f).hrc = s.hrc := rfl
@[simp] theorem State.updMot_can (s : State) (f : Mot → Mot) : (s.updMot f).can = s.can := rfl
@[simp] theorem State.updMot_acq (s : State) (f : Mot → Mot) : (s.updMot f).acq = s.acq := rfl
@[simp] theorem State.updMot_ilp (s : State) (f : Mot → Mot) : (s.updMot f).ilp = s.ilp := rfl

theorem State.updMot_same (s : State) (f : Mot → Mot) : SameBut [.mot] s (s.updMot f) := fun x hx => by
  cases x <;> first | rfl | exact absurd hx (by decide)

@[simp] theorem State.updAcq_pending (s : State) (f : Acq → Acq) : (s.updAcq f).pending = s.pending := rfl
@[simp] theorem State.updAcq_free (s : State) (f : Acq → Acq) : (s.updAcq f).free = s.free := rfl
@[simp] theorem State.updAcq_out (s : State) (f : Acq → Acq) : (s.updAcq f).out = s.out := rfl
@[simp] theorem State.updAcq_upUs (s : State) (f : Acq → Acq) : (s.updAcq f).upUs = s.upUs := rfl
@[simp] theorem State.updAcq_mem (s : State) (f : Acq → Acq) : (s.updAcq f).mem = s.mem := rfl
@[simp] theorem State.updAcq_hdr (s : State) (f : Acq → Acq) : (s.updAcq f).hdr = s.hdr := rfl
@[simp] theorem State.updAcq_mir (s : State) (f : Acq → Acq) : (s.updAcq f).mir = s.mir := rfl
@[simp] theorem State.updAcq_regs (s : State) (f : Acq → Acq) : (s.updAcq f).regs = s.regs := rfl
@[simp] theorem State.updAcq_shadow (s : State) (f : Acq → Acq) : (s.updAcq f).shadow = s.shadow := rfl
@[simp] theorem State.updAcq_frz (s : State) (f : Acq → Acq) : (s.updAcq f).frz = s.frz := rfl
@[simp] theorem State.updAcq_sys (s : State) (f : Acq → Acq) : (s.updAcq f).sys = s.sys := rfl
@[simp] theorem State.updAcq_evr (s : State) (f : Acq → Acq) : (s.updAcq f).evr = s.evr := rfl
@[simp] theorem State.updAcq_erm (s : State) (f : Acq → Acq) : (s.updAcq f).erm = s.erm := rfl
@[simp] theorem State.updAcq_ret (s : State) (f : Acq → Acq) : (s.updAcq f).ret = s.ret := rfl
@[simp] theorem State.updAcq_cpu (s : State) (f : Acq → Acq) : (s.updAcq f).cpu = s.cpu := rfl
@[simp] theorem State.updAcq_msdram (s : State) (f : Acq → Acq) : (s.updAcq f).msdram = s.msdram := rfl
@[simp] theorem State.updAcq_hif (s : State) (f : Acq → Acq) : (s.updAcq f).hif = s.hif := rfl
@[simp] theorem State.updAcq_ptd (s : State) (f : Acq → Acq) : (s.updAcq f).ptd = s.ptd := rfl
@[simp] theorem State.updAcq_tim (s : State) (f : Acq → Acq) : (s.updAcq f).tim = s.tim := rfl
@[simp] theorem State.updAcq_hts (s : State) (f : Acq → Acq) : (s.updAcq f).hts = s.hts := rfl
@[simp] theorem State.updAcq_ce (s : State) (f : Acq → Acq) : (s.updAcq f).ce = s.ce := rfl
@[simp] theorem State.updAcq_xng (s : State) (f : Acq → Acq) : (s.updAcq f).xng = s.xng := rfl
@[simp] theorem State.updAcq_ave (s : State) (f : Acq → Acq) : (s.updAcq f).ave = s.ave := rfl
@[simp] theorem State.updAcq_saf (s : State) (f : Acq → Acq) : (s.updAcq f).saf = s.saf := rfl
@[simp] theorem State.updAcq_clk (s : State) (f : Acq → Acq) : (s.updAcq f).clk = s.clk := rfl
@[simp] theorem State.updAcq_pmc (s : State) (f : Acq → Acq) : (s.updAcq f).pmc = s.pmc := rfl
@[simp] theorem State.updAcq_mot (s : State) (f : Acq → Acq) : (s.updAcq f).mot = s.mot := rfl
@[simp] theorem State.updAcq_lne (s : State) (f : Acq → Acq) : (s.updAcq f).lne = s.lne := rfl
@[simp] theorem State.updAcq_csc (s : State) (f : Acq → Acq) : (s.updAcq f).csc = s.csc := rfl
@[simp] theorem State.updAcq_fio (s : State) (f : Acq → Acq) : (s.updAcq f).fio = s.fio := rfl
@[simp] theorem State.updAcq_rsq (s : State) (f : Acq → Acq) : (s.updAcq f).rsq = s.rsq := rfl
@[simp] theorem State.updAcq_hrc (s : State) (f : Acq → Acq) : (s.updAcq f).hrc = s.hrc := rfl
@[simp] theorem State.updAcq_can (s : State) (f : Acq → Acq) : (s.updAcq f).can = s.can := rfl
@[simp] theorem State.updAcq_ilp (s : State) (f : Acq → Acq) : (s.updAcq f).ilp = s.ilp := rfl

theorem State.updAcq_same (s : State) (f : Acq → Acq) : SameBut [.acq] s (s.updAcq f) := fun x hx => by
  cases x <;> first | rfl | exact absurd hx (by decide)

@[simp] theorem State.updTim_pending (s : State) (f : Tim → Tim) : (s.updTim f).pending = s.pending := rfl
@[simp] theorem State.updTim_free (s : State) (f : Tim → Tim) : (s.updTim f).free = s.free := rfl
@[simp] theorem State.updTim_out (s : State) (f : Tim → Tim) : (s.updTim f).out = s.out := rfl
@[simp] theorem State.updTim_upUs (s : State) (f : Tim → Tim) : (s.updTim f).upUs = s.upUs := rfl
@[simp] theorem State.updTim_mem (s : State) (f : Tim → Tim) : (s.updTim f).mem = s.mem := rfl
@[simp] theorem State.updTim_hdr (s : State) (f : Tim → Tim) : (s.updTim f).hdr = s.hdr := rfl
@[simp] theorem State.updTim_mir (s : State) (f : Tim → Tim) : (s.updTim f).mir = s.mir := rfl
@[simp] theorem State.updTim_regs (s : State) (f : Tim → Tim) : (s.updTim f).regs = s.regs := rfl
@[simp] theorem State.updTim_shadow (s : State) (f : Tim → Tim) : (s.updTim f).shadow = s.shadow := rfl
@[simp] theorem State.updTim_frz (s : State) (f : Tim → Tim) : (s.updTim f).frz = s.frz := rfl
@[simp] theorem State.updTim_sys (s : State) (f : Tim → Tim) : (s.updTim f).sys = s.sys := rfl
@[simp] theorem State.updTim_evr (s : State) (f : Tim → Tim) : (s.updTim f).evr = s.evr := rfl
@[simp] theorem State.updTim_erm (s : State) (f : Tim → Tim) : (s.updTim f).erm = s.erm := rfl
@[simp] theorem State.updTim_ret (s : State) (f : Tim → Tim) : (s.updTim f).ret = s.ret := rfl
@[simp] theorem State.updTim_cpu (s : State) (f : Tim → Tim) : (s.updTim f).cpu = s.cpu := rfl
@[simp] theorem State.updTim_msdram (s : State) (f : Tim → Tim) : (s.updTim f).msdram = s.msdram := rfl
@[simp] theorem State.updTim_hif (s : State) (f : Tim → Tim) : (s.updTim f).hif = s.hif := rfl
@[simp] theorem State.updTim_ptd (s : State) (f : Tim → Tim) : (s.updTim f).ptd = s.ptd := rfl
@[simp] theorem State.updTim_hts (s : State) (f : Tim → Tim) : (s.updTim f).hts = s.hts := rfl
@[simp] theorem State.updTim_ce (s : State) (f : Tim → Tim) : (s.updTim f).ce = s.ce := rfl
@[simp] theorem State.updTim_xng (s : State) (f : Tim → Tim) : (s.updTim f).xng = s.xng := rfl
@[simp] theorem State.updTim_ave (s : State) (f : Tim → Tim) : (s.updTim f).ave = s.ave := rfl
@[simp] theorem State.updTim_saf (s : State) (f : Tim → Tim) : (s.updTim f).saf = s.saf := rfl
@[simp] theorem State.updTim_clk (s : State) (f : Tim → Tim) : (s.updTim f).clk = s.clk := rfl
@[simp] theorem State.updTim_pmc (s : State) (f : Tim → Tim) : (s.updTim f).pmc = s.pmc := rfl
@[simp] theorem State.updTim_mot (s : State) (f : Tim → Tim) : (s.updTim f).mot = s.mot := rfl
@[simp] theorem State.updTim_lne (s : State) (f : Tim → Tim) : (s.updTim f).lne = s.lne := rfl
@[simp] theorem State.updTim_csc (s : State) (f : Tim → Tim) : (s.updTim f).csc = s.csc := rfl
@[simp] theorem State.updTim_fio (s : State) (f : Tim → Tim) : (s.updTim f).fio = s.fio := rfl
@[simp] theorem State.updTim_rsq (s : State) (f : Tim → Tim) : (s.updTim f).rsq = s.rsq := rfl
@[simp] theorem State.updTim_hrc (s : State) (f : Tim → Tim) : (s.updTim f).hrc = s.hrc := rfl
@[simp] theorem State.updTim_can (s : State) (f : Tim → Tim) : (s.updTim f).can = s.can := rfl
@[simp] theorem State.updTim_acq (s : State) (f : Tim → Tim) : (s.updTim f).acq = s.acq := rfl
@[simp] theorem State.updTim_ilp (s : State) (f : Tim → Tim) : (s.updTim f).ilp = s.ilp := rfl

theorem State.updTim_same (s : State) (f : Tim → Tim) : SameBut [.tim] s (s.updTim f) := fun x hx => by
  cases x <;> first | rfl | exact absurd hx (by decide)

@[simp] theorem State.updIlp_pending (s : State) (f : Ilp → Ilp) : (s.updIlp f).pending = s.pending := rfl
@[simp] theorem State.updIlp_free (s : State) (f : Ilp → Ilp) : (s.updIlp f).free = s.free := rfl
@[simp] theorem State.updIlp_out (s : State) (f : Ilp → Ilp) : (s.updIlp f).out = s.out := rfl
@[simp] theorem State.updIlp_upUs (s : State) (f : Ilp → Ilp) : (s.updIlp f).upUs = s.upUs := rfl
@[simp] theorem State.updIlp_mem (s : State) (f : Ilp → Ilp) : (s.updIlp f).mem = s.mem := rfl
@[simp] theorem State.updIlp_hdr (s : State) (f : Ilp → Ilp) : (s.updIlp f).hdr = s.hdr := rfl
@[simp] theorem State.updIlp_mir (s : State) (f : Ilp → Ilp) : (s.updIlp f).mir = s.mir := rfl
@[simp] theorem State.updIlp_regs (s : State) (f : Ilp → Ilp) : (s.updIlp f).regs = s.regs := rfl
@[simp] theorem State.updIlp_shadow (s : State) (f : Ilp → Ilp) : (s.updIlp f).shadow = s.shadow := rfl
@[simp] theorem State.updIlp_frz (s : State) (f : Ilp → Ilp) : (s.updIlp f).frz = s.frz := rfl
@[simp] theorem State.updIlp_sys (s : State) (f : Ilp → Ilp) : (s.updIlp f).sys = s.sys := rfl
@[simp] theorem State.updIlp_evr (s : State) (f : Ilp → Ilp) : (s.updIlp f).evr = s.evr := rfl
@[simp] theorem State.updIlp_erm (s : State) (f : Ilp → Ilp) : (s.updIlp f).erm = s.erm := rfl
@[simp] theorem State.updIlp_ret (s : State) (f : Ilp → Ilp) : (s.updIlp f).ret = s.ret := rfl
@[simp] theorem State.updIlp_cpu (s : State) (f : Ilp → Ilp) : (s.updIlp f).cpu = s.cpu := rfl
@[simp] theorem State.updIlp_msdram (s : State) (f : Ilp → Ilp) : (s.updIlp f).msdram = s.msdram := rfl
@[simp] theorem State.updIlp_hif (s : State) (f : Ilp → Ilp) : (s.updIlp f).hif = s.hif := rfl
@[simp] theorem State.updIlp_ptd (s : State) (f : Ilp → Ilp) : (s.updIlp f).ptd = s.ptd := rfl
@[simp] theorem State.updIlp_tim (s : State) (f : Ilp → Ilp) : (s.updIlp f).tim = s.tim := rfl
@[simp] theorem State.updIlp_hts (s : State) (f : Ilp → Ilp) : (s.updIlp f).hts = s.hts := rfl
@[simp] theorem State.updIlp_ce (s : State) (f : Ilp → Ilp) : (s.updIlp f).ce = s.ce := rfl
@[simp] theorem State.updIlp_xng (s : State) (f : Ilp → Ilp) : (s.updIlp f).xng = s.xng := rfl
@[simp] theorem State.updIlp_ave (s : State) (f : Ilp → Ilp) : (s.updIlp f).ave = s.ave := rfl
@[simp] theorem State.updIlp_saf (s : State) (f : Ilp → Ilp) : (s.updIlp f).saf = s.saf := rfl
@[simp] theorem State.updIlp_clk (s : State) (f : Ilp → Ilp) : (s.updIlp f).clk = s.clk := rfl
@[simp] theorem State.updIlp_pmc (s : State) (f : Ilp → Ilp) : (s.updIlp f).pmc = s.pmc := rfl
@[simp] theorem State.updIlp_mot (s : State) (f : Ilp → Ilp) : (s.updIlp f).mot = s.mot := rfl
@[simp] theorem State.updIlp_lne (s : State) (f : Ilp → Ilp) : (s.updIlp f).lne = s.lne := rfl
@[simp] theorem State.updIlp_csc (s : State) (f : Ilp → Ilp) : (s.updIlp f).csc = s.csc := rfl
@[simp] theorem State.updIlp_fio (s : State) (f : Ilp → Ilp) : (s.updIlp f).fio = s.fio := rfl
@[simp] theorem State.updIlp_rsq (s : State) (f : Ilp → Ilp) : (s.updIlp f).rsq = s.rsq := rfl
@[simp] theorem State.updIlp_hrc (s : State) (f : Ilp → Ilp) : (s.updIlp f).hrc = s.hrc := rfl
@[simp] theorem State.updIlp_can (s : State) (f : Ilp → Ilp) : (s.updIlp f).can = s.can := rfl
@[simp] theorem State.updIlp_acq (s : State) (f : Ilp → Ilp) : (s.updIlp f).acq = s.acq := rfl

theorem State.updIlp_same (s : State) (f : Ilp → Ilp) : SameBut [.ilp] s (s.updIlp f) := fun x hx => by
  cases x <;> first | rfl | exact absurd hx (by decide)

@[simp] theorem State.updRsq_pending (s : State) (f : Rsq → Rsq) : (s.updRsq f).pending = s.pending := rfl
@[simp] theorem State.updRsq_free (s : State) (f : Rsq → Rsq) : (s.updRsq f).free = s.free := rfl
@[simp] theorem State.updRsq_out (s : State) (f : Rsq → Rsq) : (s.updRsq f).out = s.out := rfl
@[simp] theorem State.updRsq_upUs (s : State) (f : Rsq → Rsq) : (s.updRsq f).upUs = s.upUs := rfl
@[simp] theorem State.updRsq_mem (s : State) (f : Rsq → Rsq) : (s.updRsq f).mem = s.mem := rfl
@[simp] theorem State.updRsq_hdr (s : State) (f : Rsq → Rsq) : (s.updRsq f).hdr = s.hdr := rfl
@[simp] theorem State.updRsq_mir (s : State) (f : Rsq → Rsq) : (s.updRsq f).mir = s.mir := rfl
@[simp] theorem State.updRsq_regs (s : State) (f : Rsq → Rsq) : (s.updRsq f).regs = s.regs := rfl
@[simp] theorem State.updRsq_shadow (s : State) (f : Rsq → Rsq) : (s.updRsq f).shadow = s.shadow := rfl
@[simp] theorem State.updRsq_frz (s : State) (f : Rsq → Rsq) : (s.updRsq f).frz = s.frz := rfl
@[simp] theorem State.updRsq_sys (s : State) (f : Rsq → Rsq) : (s.updRsq f).sys = s.sys := rfl
@[simp] theorem State.updRsq_evr (s : State) (f : Rsq → Rsq) : (s.updRsq f).evr = s.evr := rfl
@[simp] theorem State.updRsq_erm (s : State) (f : Rsq → Rsq) : (s.updRsq f).erm = s.erm := rfl
@[simp] theorem State.updRsq_ret (s : State) (f : Rsq → Rsq) : (s.updRsq f).ret = s.ret := rfl
@[simp] theorem State.updRsq_cpu (s : State) (f : Rsq → Rsq) : (s.updRsq f).cpu = s.cpu := rfl
@[simp] theorem State.updRsq_msdram (s : State) (f : Rsq → Rsq) : (s.updRsq f).msdram = s.msdram := rfl
@[simp] theorem State.updRsq_hif (s : State) (f : Rsq → Rsq) : (s.updRsq f).hif = s.hif := rfl
@[simp] theorem State.updRsq_ptd (s : State) (f : Rsq → Rsq) : (s.updRsq f).ptd = s.ptd := rfl
@[simp] theorem State.updRsq_tim (s : State) (f : Rsq → Rsq) : (s.updRsq f).tim = s.tim := rfl
@[simp] theorem State.updRsq_hts (s : State) (f : Rsq → Rsq) : (s.updRsq f).hts = s.hts := rfl
@[simp] theorem State.updRsq_ce (s : State) (f : Rsq → Rsq) : (s.updRsq f).ce = s.ce := rfl
@[simp] theorem State.updRsq_xng (s : State) (f : Rsq → Rsq) : (s.updRsq f).xng = s.xng := rfl
@[simp] theorem State.updRsq_ave (s : State) (f : Rsq → Rsq) : (s.updRsq f).ave = s.ave := rfl
@[simp] theorem State.updRsq_saf (s : State) (f : Rsq → Rsq) : (s.updRsq f).saf = s.saf := rfl
@[simp] theorem State.updRsq_clk (s : State) (f : Rsq → Rsq) : (s.updRsq f).clk = s.clk := rfl
@[simp] theorem State.updRsq_pmc (s : State) (f : Rsq → Rsq) : (s.updRsq f).pmc = s.pmc := rfl
@[simp] theorem State.updRsq_mot (s : State) (f : Rsq → Rsq) : (s.updRsq f).mot = s.mot := rfl
@[simp] theorem State.updRsq_lne (s : State) (f : Rsq → Rsq) : (s.updRsq f).lne = s.lne := rfl
@[simp] theorem State.updRsq_csc (s : State) (f : Rsq → Rsq) : (s.updRsq f).csc = s.csc := rfl
@[simp] theorem State.updRsq_fio (s : State) (f : Rsq → Rsq) : (s.updRsq f).fio = s.fio := rfl
@[simp] theorem State.updRsq_hrc (s : State) (f : Rsq → Rsq) : (s.updRsq f).hrc = s.hrc := rfl
@[simp] theorem State.updRsq_can (s : State) (f : Rsq → Rsq) : (s.updRsq f).can = s.can := rfl
@[simp] theorem State.updRsq_acq (s : State) (f : Rsq → Rsq) : (s.updRsq f).acq = s.acq := rfl
@[simp] theorem State.updRsq_ilp (s : State) (f : Rsq → Rsq) : (s.updRsq f).ilp = s.ilp := rfl

theorem State.updRsq_same (s : State) (f : Rsq → Rsq) : SameBut [.rsq] s (s.updRsq f) := fun x hx => by
  cases x <;> first | rfl | exact absurd hx (by decide)

@[simp] theorem State.updCpu_pending (s : State) (f : Cpu → Cpu) : (s.updCpu f).pending = s.pending := rfl
@[simp] theorem State.updCpu_free (s : State) (f : Cpu → Cpu) : (s.updCpu f).free = s.free := rfl
@[simp] theorem State.updCpu_out (s : State) (f : Cpu → Cpu) : (s.updCpu f).out = s.out := rfl
@[simp] theorem State.updCpu_upUs (s : State) (f : Cpu → Cpu) : (s.updCpu f).upUs = s.upUs := rfl
@[simp] theorem State.updCpu_mem (s : State) (f : Cpu → Cpu) : (s.updCpu f).mem = s.mem := rfl
@[simp] theorem State.updCpu_hdr (s : State) (f : Cpu → Cpu) : (s.updCpu f).hdr = s.hdr := rfl
@[simp] theorem State.updCpu_mir (s : State) (f : Cpu → Cpu) : (s.updCpu f).mir = s.mir := rfl
@[simp] theorem State.updCpu_regs (s : State) (f : Cpu → Cpu) : (s.updCpu f).regs = s.regs := rfl
@[simp] theorem State.updCpu_shadow (s : State) (f : Cpu → Cpu) : (s.updCpu f).shadow = s.shadow := rfl
@[simp] theorem State.updCpu_frz (s : State) (f : Cpu → Cpu) : (s.updCpu f).frz = s.frz := rfl
@[simp] theorem State.updCpu_sys (s : State) (f : Cpu → Cpu) : (s.updCpu f).sys = s.sys := rfl
@[simp] theorem State.updCpu_evr (s : State) (f : Cpu → Cpu) : (s.updCpu f).evr = s.evr := rfl
@[simp] theorem State.updCpu_erm (s : State) (f : Cpu → Cpu) : (s.updCpu f).erm = s.erm := rfl
@[simp] theorem State.updCpu_ret (s : State) (f : Cpu → Cpu) : (s.updCpu f).ret = s.ret := rfl
@[simp] theorem State.updCpu_msdram (s : State) (f : Cpu → Cpu) : (s.updCpu f).msdram = s.msdram := rfl
@[simp] theorem State.updCpu_hif (s : State) (f : Cpu → Cpu) : (s.updCpu f).hif = s.hif := rfl
@[simp] theorem State.updCpu_ptd (s : State) (f : Cpu → Cpu) : (s.updCpu f).ptd = s.ptd := rfl
@[simp] theorem State.updCpu_tim (s : State) (f : Cpu → Cpu) : (s.updCpu f).tim = s.tim := rfl
@[simp] theorem State.updCpu_hts (s : State) (f : Cpu → Cpu) : (s.updCpu f).hts = s.hts := rfl
@[simp] theorem State.updCpu_ce (s : State) (f : Cpu → Cpu) : (s.updCpu f).ce = s.ce := rfl
@[simp] theorem State.updCpu_xng (s : State) (f : Cpu → Cpu) : (s.updCpu f).xng = s.xng := rfl
@[simp] theorem State.updCpu_ave (s : State) (f : Cpu → Cpu) : (s.updCpu f).ave = s.ave := rfl
@[simp] theorem State.updCpu_saf (s : State) (f : Cpu → Cpu) : (s.updCpu f).saf = s.saf := rfl
@[simp] theorem State.updCpu_clk (s : State) (f : Cpu → Cpu) : (s.updCpu f).clk = s.clk := rfl
@[simp] theorem State.updCpu_pmc (s : State) (f : Cpu → Cpu) : (s.updCpu f).pmc = s.pmc := rfl
@[simp] theorem State.updCpu_mot (s : State) (f : Cpu → Cpu) : (s.updCpu f).mot = s.mot := rfl
@[simp] theorem State.updCpu_lne (s : State) (f : Cpu → Cpu) : (s.updCpu f).lne = s.lne := rfl
@[simp] theorem State.updCpu_csc (s : State) (f : Cpu → Cpu) : (s.updCpu f).csc = s.csc := rfl
@[simp] theorem State.updCpu_fio (s : State) (f : Cpu → Cpu) : (s.updCpu f).fio = s.fio := rfl
@[simp] theorem State.updCpu_rsq (s : State) (f : Cpu → Cpu) : (s.updCpu f).rsq = s.rsq := rfl
@[simp] theorem State.updCpu_hrc (s : State) (f : Cpu → Cpu) : (s.updCpu f).hrc = s.hrc := rfl
@[simp] theorem State.updCpu_can (s : State) (f : Cpu → Cpu) : (s.updCpu f).can = s.can := rfl
@[simp] theorem State.updCpu_acq (s : State) (f : Cpu → Cpu) : (s.updCpu f).acq = s.acq := rfl
@[simp] theorem State.updCpu_ilp (s : State) (f : Cpu → Cpu) : (s.updCpu f).ilp = s.ilp := rfl

theorem State.updCpu_same (s : State) (f : Cpu → Cpu) : SameBut [.cpu] s (s.updCpu f) := fun x hx => by
  cases x <;> first | rfl | exact absurd hx (by decide)

@[simp] theorem State.updMem_pending (s : State) (f : MemSt → MemSt) : (s.updMem f).pending = s.pending := rfl
@[simp] theorem State.updMem_free (s : State) (f : MemSt → MemSt) : (s.updMem f).free = s.free := rfl
@[simp] theorem State.updMem_out (s : State) (f : MemSt → MemSt) : (s.updMem f).out = s.out := rfl
@[simp] theorem State.updMem_upUs (s : State) (f : MemSt → MemSt) : (s.updMem f).upUs = s.upUs := rfl
@[simp] theorem State.updMem_mem (s : State) (f : MemSt → MemSt) : (s.updMem f).mem = s.mem := rfl
@[simp] theorem State.updMem_hdr (s : State) (f : MemSt → MemSt) : (s.updMem f).hdr = s.hdr := rfl
@[simp] theorem State.updMem_mir (s : State) (f : MemSt → MemSt) : (s.updMem f).mir = s.mir := rfl
@[simp] theorem State.updMem_regs (s : State) (f : MemSt → MemSt) : (s.updMem f).regs = s.regs := rfl
@[simp] theorem State.updMem_shadow (s : State) (f : MemSt → MemSt) : (s.updMem f).shadow = s.shadow := rfl
@[simp] theorem State.updMem_frz (s : State) (f : MemSt → MemSt) : (s.updMem f).frz = s.frz := rfl
@[simp] theorem State.updMem_sys (s : State) (f : MemSt → MemSt) : (s.updMem f).sys = s.sys := rfl
@[simp] theorem State.updMem_evr (s : State) (f : MemSt → MemSt) : (s.updMem f).evr = s.evr := rfl
@[simp] theorem State.updMem_erm (s : State) (f : MemSt → MemSt) : (s.updMem f).erm = s.erm := rfl
@[simp] theorem State.updMem_ret (s : State) (f : MemSt → MemSt) : (s.updMem f).ret = s.ret := rfl
@[simp] theorem State.updMem_cpu (s : State) (f : MemSt → MemSt) : (s.updMem f).cpu = s.cpu := rfl
@[simp] theorem State.updMem_hif (s : State) (f : MemSt → MemSt) : (s.updMem f).hif = s.hif := rfl
@[simp] theorem State.updMem_ptd (s : State) (f : MemSt → MemSt) : (s.updMem f).ptd = s.ptd := rfl
@[simp] theorem State.updMem_tim (s : State) (f : MemSt → MemSt) : (s.updMem f).tim = s.tim := rfl
@[simp] theorem State.updMem_hts (s : State) (f : MemSt → MemSt) : (s.updMem f).hts = s.hts := rfl
@[simp] theorem State.updMem_ce (s : State) (f : MemSt → MemSt) : (s.updMem f).ce = s.ce := rfl
@[simp] theorem State.updMem_xng (s : State) (f : MemSt → MemSt) : (s.updMem f).xng = s.xng := rfl
@[simp] theorem State.updMem_ave (s : State) (f : MemSt → MemSt) : (s.updMem f).ave = s.ave := rfl
@[simp] theorem State.updMem_saf (s : State) (f : MemSt → MemSt) : (s.updMem f).saf = s.saf := rfl
@[simp] theorem State.updMem_clk (s : State) (f : MemSt → MemSt) : (s.updMem f).clk = s.clk := rfl
@[simp] theorem State.updMem_pmc (s : State) (f : MemSt → MemSt) : (s.updMem f).pmc = s.pmc := rfl
@[simp] theorem State.updMem_mot (s : State) (f : MemSt → MemSt) : (s.updMem f).mot = s.mot := rfl
@[simp] theorem State.updMem_lne (s : State) (f : MemSt → MemSt) : (s.updMem f).lne = s.lne := rfl
@[simp] theorem State.updMem_csc (s : State) (f : MemSt → MemSt) : (s.updMem f).csc = s.csc := rfl
@[simp] theorem State.updMem_fio (s : State) (f : MemSt → MemSt) : (s.updMem f).fio = s.fio := rfl
@[simp] theorem State.updMem_rsq (s : State) (f : MemSt → MemSt) : (s.updMem f).rsq = s.rsq := rfl
@[simp] theorem State.updMem_hrc (s : State) (f : MemSt → MemSt) : (s.updMem f).hrc = s.hrc := rfl
@[simp] theorem State.updMem_can (s : State) (f : MemSt → MemSt) : (s.updMem f).can = s.can := rfl
@[simp] theorem State.updMem_acq (s : State) (f : MemSt → MemSt) : (s.updMem f).acq = s.acq := rfl
@[simp] theorem State.updMem_ilp (s : State) (f : MemSt → MemSt) : (s.updMem f).ilp = s.ilp := rfl

theorem State.updMem_same (s : State) (f : MemSt → MemSt) : SameBut [.msdram] s (s.updMem f) := fun x hx => by
  cases x <;> first | rfl | exact absurd hx (by decide)

@[simp] theorem State.updHif_pending (s : State) (f : Hif → Hif) : (s.updHif f).pending = s.pending := rfl
@[simp] theorem State.updHif_free (s : State) (f : Hif → Hif) : (s.updHif f).free = s.free := rfl
@[simp] theorem State.updHif_out (s : State) (f : Hif → Hif) : (s.updHif f).out = s.out := rfl
@[simp] theorem State.updHif_upUs (s : State) (f : Hif → Hif) : (s.updHif f).upUs = s.upUs := rfl
@[simp] theorem State.updHif_mem (s : State) (f : Hif → Hif) : (s.updHif f).mem = s.mem := rfl
@[simp] theorem State.updHif_hdr (s : State) (f : Hif → Hif) : (s.updHif f).hdr = s.hdr := rfl
@[simp] theorem State.updHif_mir (s : State) (f : Hif → Hif) : (s.updHif f).mir = s.mir := rfl
@[simp] theorem State.updHif_regs (s : State) (f : Hif → Hif) : (s.updHif f).regs = s.regs := rfl
@[simp] theorem State.updHif_shadow (s : State) (f : Hif → Hif) : (s.updHif f).shadow = s.shadow := rfl
@[simp] theorem State.updHif_frz (s : State) (f : Hif → Hif) : (s.updHif f).frz = s.frz := rfl
@[simp] theorem State.updHif_sys (s : State) (f : Hif → Hif) : (s.updHif f).sys = s.sys := rfl
@[simp] theorem State.updHif_evr (s : State) (f : Hif → Hif) : (s.updHif f).evr = s.evr := rfl
@[simp] theorem State.updHif_erm (s : State) (f : Hif → Hif) : (s.updHif f).erm = s.erm := rfl
@[simp] theorem State.updHif_ret (s : State) (f : Hif → Hif) : (s.updHif f).ret = s.ret := rfl
@[simp] theorem State.updHif_cpu (s : State) (f : Hif → Hif) : (s.updHif f).cpu = s.cpu := rfl
@[simp] theorem State.updHif_msdram (s : State) (f : Hif → Hif) : (s.updHif f).msdram = s.msdram := rfl
@[simp] theorem State.updHif_ptd (s : State) (f : Hif → Hif) : (s.updHif f).ptd = s.ptd := rfl
@[simp] theorem State.updHif_tim (s : State) (f : Hif → Hif) : (s.updHif f).tim = s.tim := rfl
@[simp] theorem State.updHif_hts (s : State) (f : Hif → Hif) : (s.updHif f).hts = s.hts := rfl
@[simp] theorem State.updHif_ce (s : State) (f : Hif → Hif) : (s.updHif f).ce = s.ce := rfl
@[simp] theorem State.updHif_xng (s : State) (f : Hif → Hif) : (s.updHif f).xng = s.xng := rfl
@[simp] theorem State.updHif_ave (s : State) (f : Hif → Hif) : (s.updHif f).ave = s.ave := rfl
@[simp] theorem State.updHif_saf (s : State) (f : Hif → Hif) : (s.updHif f).saf = s.saf := rfl
@[simp] theorem State.updHif_clk (s : State) (f : Hif → Hif) : (s.updHif f).clk = s.clk := rfl
@[simp] theorem State.updHif_pmc (s : State) (f : Hif → Hif) : (s.updHif f).pmc = s.pmc := rfl
@[simp] theorem State.updHif_mot (s : State) (f : Hif → Hif) : (s.updHif f).mot = s.mot := rfl
@[simp] theorem State.updHif_lne (s : State) (f : Hif → Hif) : (s.updHif f).lne = s.lne := rfl
@[simp] theorem State.updHif_csc (s : State) (f : Hif → Hif) : (s.updHif f).csc = s.csc := rfl
@[simp] theorem State.updHif_fio (s : State) (f : Hif → Hif) : (s.updHif f).fio = s.fio := rfl
@[simp] theorem State.updHif_rsq (s : State) (f : Hif → Hif) : (s.updHif f).rsq = s.rsq := rfl
@[simp] theorem State.updHif_hrc (s : State) (f : Hif → Hif) : (s.updHif f).hrc = s.hrc := rfl
@[simp] theorem State.updHif_can (s : State) (f : Hif → Hif) : (s.updHif f).can = s.can := rfl
@[simp] theorem State.updHif_acq (s : State) (f : Hif → Hif) : (s.updHif f).acq = s.acq := rfl
@[simp] theorem State.updHif_ilp (s : State) (f : Hif → Hif) : (s.updHif f).ilp = s.ilp := rfl

theorem State.updHif_same (s : State) (f : Hif → Hif) : SameBut [.hif] s (s.updHif f) := fun x hx => by
  cases x <;> first | rfl | exact absurd hx (by decide)

@[simp] theorem State.updAve_pending (s : State) (f : Ave → Ave) : (s.updAve f).pending = s.pending := rfl
@[simp] theorem State.updAve_free (s : State) (f : Ave → Ave) : (s.updAve f).free = s.free := rfl
@[simp] theorem State.updAve_out (s : State) (f : Ave → Ave) : (s.updAve f).out = s.out := rfl
@[simp] theorem State.updAve_upUs (s : State) (f : Ave → Ave) : (s.updAve f).upUs = s.upUs := rfl
@[simp] theorem State.updAve_mem (s : State) (f : Ave → Ave) : (s.updAve f).mem = s.mem := rfl
@[simp] theorem State.updAve_hdr (s : State) (f : Ave → Ave) : (s.updAve f).hdr = s.hdr := rfl
@[simp] theorem State.updAve_mir (s : State) (f : Ave → Ave) : (s.updAve f).mir = s.mir := rfl
@[simp] theorem State.updAve_regs (s : State) (f : Ave → Ave) : (s.updAve f).regs = s.regs := rfl
@[simp] theorem State.updAve_shadow (s : State) (f : Ave → Ave) : (s.updAve f).shadow = s.shadow := rfl
@[simp] theorem State.updAve_frz (s : State) (f : Ave → Ave) : (s.updAve f).frz = s.frz := rfl
@[simp] theorem State.updAve_sys (s : State) (f : Ave → Ave) : (s.updAve f).sys = s.sys := rfl
@[simp] theorem State.updAve_evr (s : State) (f : Ave → Ave) : (s.updAve f).evr = s.evr := rfl
@[simp] theorem State.updAve_erm (s : State) (f : Ave → Ave) : (s.updAve f).erm = s.erm := rfl
@[simp] theorem State.updAve_ret (s : State) (f : Ave → Ave) : (s.updAve f).ret = s.ret := rfl
@[simp] theorem State.updAve_cpu (s : State) (f : Ave → Ave) : (s.updAve f).cpu = s.cpu := rfl
@[simp] theorem State.updAve_msdram (s : State) (f : Ave → Ave) : (s.updAve f).msdram = s.msdram := rfl
@[simp] theorem State.updAve_hif (s : State) (f : Ave → Ave) : (s.updAve f).hif = s.hif := rfl
@[simp] theorem State.updAve_ptd (s : State) (f : Ave → Ave) : (s.updAve f).ptd = s.ptd := rfl
@[simp] theorem State.updAve_tim (s : State) (f : Ave → Ave) : (s.updAve f).tim = s.tim := rfl
@[simp] theorem State.updAve_hts (s : State) (f : Ave → Ave) : (s.updAve f).hts = s.hts := rfl
@[simp] theorem State.updAve_ce (s : State) (f : Ave → Ave) : (s.updAve f).ce = s.ce := rfl
@[simp] theorem State.updAve_xng (s : State) (f : Ave → Ave) : (s.updAve f).xng = s.xng := rfl
@[simp] theorem State.updAve_saf (s : State) (f : Ave → Ave) : (s.updAve f).saf = s.saf := rfl
@[simp] theorem State.updAve_clk (s : State) (f : Ave → Ave) : (s.updAve f).clk = s.clk := rfl
@[simp] theorem State.updAve_pmc (s : State) (f : Ave → Ave) : (s.updAve f).pmc = s.pmc := rfl
@[simp] theorem State.updAve_mot (s : State) (f : Ave → Ave) : (s.updAve f).mot = s.mot := rfl
@[simp] theorem State.updAve_lne (s : State) (f : Ave → Ave) : (s.updAve f).lne = s.lne := rfl
@[simp] theorem State.updAve_csc (s : State) (f : Ave → Ave) : (s.updAve f).csc = s.csc := rfl
@[simp] theorem State.updAve_fio (s : State) (f : Ave → Ave) : (s.updAve f).fio = s.fio := rfl
@[simp] theorem State.updAve_rsq (s : State) (f : Ave → Ave) : (s.updAve f).rsq = s.rsq := rfl
@[simp] theorem State.updAve_hrc (s : State) (f : Ave → Ave) : (s.updAve f).hrc = s.hrc := rfl
@[simp] theorem State.updAve_can (s : State) (f : Ave → Ave) : (s.updAve f).can = s.can := rfl
@[simp] theorem State.updAve_acq (s : State) (f : Ave → Ave) : (s.updAve f).acq = s.acq := rfl
@[simp] theorem State.updAve_ilp (s : State) (f : Ave → Ave) : (s.updAve f).ilp = s.ilp := rfl

theorem State.updAve_same (s : State) (f : Ave → Ave) : SameBut [.ave] s (s.updAve f) := fun x hx => by
  cases x <;> first | rfl | exact absurd hx (by decide)

@[simp] theorem State.updErm_pending (s : State) (f : Erm → Erm) : (s.updErm f).pending = s.pending := rfl
@[simp] theorem State.updErm_free (s : State) (f : Erm → Erm) : (s.updErm f).free = s.free := rfl
@[simp] theorem State.updErm_out (s : State) (f : Erm → Erm) : (s.updErm f).out = s.out := rfl
@[simp] theorem State.updErm_upUs (s : State) (f : Erm → Erm) : (s.updErm f).upUs = s.upUs := rfl
@[simp] theorem State.updErm_mem (s : State) (f : Erm → Erm) : (s.updErm f).mem = s.mem := rfl
@[simp] theorem State.updErm_hdr (s : State) (f : Erm → Erm) : (s.updErm f).hdr = s.hdr := rfl
@[simp] theorem State.updErm_mir (s : State) (f : Erm → Erm) : (s.updErm f).mir = s.mir := rfl
@[simp] theorem State.updErm_regs (s : State) (f : Erm → Erm) : (s.updErm f).regs = s.regs := rfl
@[simp] theorem State.updErm_shadow (s : State) (f : Erm → Erm) : (s.updErm f).shadow = s.shadow := rfl
@[simp] theorem State.updErm_frz (s : State) (f : Erm → Erm) : (s.updErm f).frz = s.frz := rfl
@[simp] theorem State.updErm_sys (s : State) (f : Erm → Erm) : (s.updErm f).sys = s.sys := rfl
@[simp] theorem State.updErm_evr (s : State) (f : Erm → Erm) : (s.updErm f).evr = s.evr := rfl
@[simp] theorem State.updErm_ret (s : State) (f : Erm → Erm) : (s.updErm f).ret = s.ret := rfl
@[simp] theorem State.updErm_cpu (s : State) (f : Erm → Erm) : (s.updErm f).cpu = s.cpu := rfl
@[simp] theorem State.updErm_msdram (s : State) (f : Erm → Erm) : (s.updErm f).msdram = s.msdram := rfl
@[simp] theorem State.updErm_hif (s : State) (f : Erm → Erm) : (s.updErm f).hif = s.hif := rfl
@[simp] theorem State.updErm_ptd (s : State) (f : Erm → Erm) : (s.updErm f).ptd = s.ptd := rfl
@[simp] theorem State.updErm_tim (s : State) (f : Erm → Erm) : (s.updErm f).tim = s.tim := rfl
@[simp] theorem State.updErm_hts (s : State) (f : Erm → Erm) : (s.updErm f).hts = s.hts := rfl
@[simp] theorem State.updErm_ce (s : State) (f : Erm → Erm) : (s.updErm f).ce = s.ce := rfl
@[simp] theorem State.updErm_xng (s : State) (f : Erm → Erm) : (s.updErm f).xng = s.xng := rfl
@[simp] theorem State.updErm_ave (s : State) (f : Erm → Erm) : (s.updErm f).ave = s.ave := rfl
@[simp] theorem State.updErm_saf (s : State) (f : Erm → Erm) : (s.updErm f).saf = s.saf := rfl
@[simp] theorem State.updErm_clk (s : State) (f : Erm → Erm) : (s.updErm f).clk = s.clk := rfl
@[simp] theorem State.updErm_pmc (s : State) (f : Erm → Erm) : (s.updErm f).pmc = s.pmc := rfl
@[simp] theorem State.updErm_mot (s : State) (f : Erm → Erm) : (s.updErm f).mot = s.mot := rfl
@[simp] theorem State.updErm_lne (s : State) (f : Erm → Erm) : (s.updErm f).lne = s.lne := rfl
@[simp] theorem State.updErm_csc (s : State) (f : Erm → Erm) : (s.updErm f).csc = s.csc := rfl
@[simp] theorem State.updErm_fio (s : State) (f : Erm → Erm) : (s.updErm f).fio = s.fio := rfl
@[simp] theorem State.updErm_rsq (s : State) (f : Erm → Erm) : (s.updErm f).rsq = s.rsq := rfl
@[simp] theorem State.updErm_hrc (s : State) (f : Erm → Erm) : (s.updErm f).hrc = s.hrc := rfl
@[simp] theorem State.updErm_can (s : State) (f : Erm → Erm) : (s.updErm f).can = s.can := rfl
@[simp] theorem State.updErm_acq (s : State) (f : Erm → Erm) : (s.updErm f).acq = s.acq := rfl
@[simp] theorem State.updErm_ilp (s : State) (f : Erm → Erm) : (s.updErm f).ilp = s.ilp := rfl

theorem State.updErm_same (s : State) (f : Erm → Erm) : SameBut [.erm] s (s.updErm f) := fun x hx => by
  cases x <;> first | rfl | exact absurd hx (by decide)

@[simp] theorem State.updDc_pending (s : State) (f : Dc → Dc) : (s.updDc f).pending = s.pending := rfl
@[simp] theorem State.updDc_free (s : State) (f : Dc → Dc) : (s.updDc f).free = s.free := rfl
@[simp] theorem State.updDc_out (s : State) (f : Dc → Dc) : (s.updDc f).out = s.out := rfl
@[simp] theorem State.updDc_upUs (s : State) (f : Dc → Dc) : (s.updDc f).upUs = s.upUs := rfl
@[simp] theorem State.updDc_mem (s : State) (f : Dc → Dc) : (s.updDc f).mem = s.mem := rfl
@[simp] theorem State.updDc_hdr (s : State) (f : Dc → Dc) : (s.updDc f).hdr = s.hdr := rfl
@[simp] theorem State.updDc_mir (s : State) (f : Dc → Dc) : (s.updDc f).mir = s.mir := rfl
@[simp] theorem State.updDc_regs (s : State) (f : Dc → Dc) : (s.updDc f).regs = s.regs := rfl
@[simp] theorem State.updDc_shadow (s : State) (f : Dc → Dc) : (s.updDc f).shadow = s.shadow := rfl
@[simp] theorem State.updDc_frz (s : State) (f : Dc → Dc) : (s.updDc f).frz = s.frz := rfl
@[simp] theorem State.updDc_evr (s : State) (f : Dc → Dc) : (s.updDc f).evr = s.evr := rfl
@[simp] theorem State.updDc_erm (s : State) (f : Dc → Dc) : (s.updDc f).erm = s.erm := rfl
@[simp] theorem State.updDc_ret (s : State) (f : Dc → Dc) : (s.updDc f).ret = s.ret := rfl
@[simp] theorem State.updDc_cpu (s : State) (f : Dc → Dc) : (s.updDc f).cpu = s.cpu := rfl
@[simp] theorem State.updDc_msdram (s : State) (f : Dc → Dc) : (s.updDc f).msdram = s.msdram := rfl
@[simp] theorem State.updDc_hif (s : State) (f : Dc → Dc) : (s.updDc f).hif = s.hif := rfl
@[simp] theorem State.updDc_ptd (s : State) (f : Dc → Dc) : (s.updDc f).ptd = s.ptd := rfl
@[simp] theorem State.updDc_tim (s : State) (f : Dc → Dc) : (s.updDc f).tim = s.tim := rfl
@[simp] theorem State.updDc_hts (s : State) (f : Dc → Dc) : (s.updDc f).hts = s.hts := rfl
@[simp] theorem State.updDc_ce (s : State) (f : Dc → Dc) : (s.updDc f).ce = s.ce := rfl
@[simp] theorem State.updDc_xng (s : State) (f : Dc → Dc) : (s.updDc f).xng = s.xng := rfl
@[simp] theorem State.updDc_ave (s : State) (f : Dc → Dc) : (s.updDc f).ave = s.ave := rfl
@[simp] theorem State.updDc_saf (s : State) (f : Dc → Dc) : (s.updDc f).saf = s.saf := rfl
@[simp] theorem State.updDc_clk (s : State) (f : Dc → Dc) : (s.updDc f).clk = s.clk := rfl
@[simp] theorem State.updDc_pmc (s : State) (f : Dc → Dc) : (s.updDc f).pmc = s.pmc := rfl
@[simp] theorem State.updDc_mot (s : State) (f : Dc → Dc) : (s.updDc f).mot = s.mot := rfl
@[simp] theorem State.updDc_lne (s : State) (f : Dc → Dc) : (s.updDc f).lne = s.lne := rfl
@[simp] theorem State.updDc_csc (s : State) (f : Dc → Dc) : (s.updDc f).csc = s.csc := rfl
@[simp] theorem State.updDc_fio (s : State) (f : Dc → Dc) : (s.updDc f).fio = s.fio := rfl
@[simp] theorem State.updDc_rsq (s : State) (f : Dc → Dc) : (s.updDc f).rsq = s.rsq := rfl
@[simp] theorem State.updDc_hrc (s : State) (f : Dc → Dc) : (s.updDc f).hrc = s.hrc := rfl
@[simp] theorem State.updDc_can (s : State) (f : Dc → Dc) : (s.updDc f).can = s.can := rfl
@[simp] theorem State.updDc_acq (s : State) (f : Dc → Dc) : (s.updDc f).acq = s.acq := rfl
@[simp] theorem State.updDc_ilp (s : State) (f : Dc → Dc) : (s.updDc f).ilp = s.ilp := rfl

theorem State.updDc_same (s : State) (f : Dc → Dc) : SameBut [.sys] s (s.updDc f) := fun x hx => by
  cases x <;> first | rfl | exact absurd hx (by decide)

@[simp] theorem State.updSaf_pending (s : State) (f : Saf → Saf) : (s.updSaf f).pending = s.pending := rfl
@[simp] theorem State.updSaf_free (s : State) (f : Saf → Saf) : (s.updSaf f).free = s.free := rfl
@[simp] theorem State.updSaf_out (s : State) (f : Saf → Saf) : (s.updSaf f).out = s.out := rfl
@[simp] theorem State.updSaf_upUs (s : State) (f : Saf → Saf) : (s.updSaf f).upUs = s.upUs := rfl
@[simp] theorem State.updSaf_mem (s : State) (f : Saf → Saf) : (s.updSaf f).mem = s.mem := rfl
@[simp] theorem State.updSaf_hdr (s : State) (f : Saf → Saf) : (s.updSaf f).hdr = s.hdr := rfl
@[simp] theorem State.updSaf_mir (s : State) (f : Saf → Saf) : (s.updSaf f).mir = s.mir := rfl
@[simp] theorem State.updSaf_regs (s : State) (f : Saf → Saf) : (s.updSaf f).regs = s.regs := rfl
@[simp] theorem State.updSaf_shadow (s : State) (f : Saf → Saf) : (s.updSaf f).shadow = s.shadow := rfl
@[simp] theorem State.updSaf_frz (s : State) (f : Saf → Saf) : (s.updSaf f).frz = s.frz := rfl
@[simp] theorem State.updSaf_sys (s : State) (f : Saf → Saf) : (s.updSaf f).sys = s.sys := rfl
@[simp] theorem State.updSaf_evr (s : State) (f : Saf → Saf) : (s.updSaf f).evr = s.evr := rfl
@[simp] theorem State.updSaf_erm (s : State) (f : Saf → Saf) : (s.updSaf f).erm = s.erm := rfl
@[simp] theorem State.updSaf_ret (s : State) (f : Saf → Saf) : (s.updSaf f).ret = s.ret := rfl
@[simp] theorem State.updSaf_cpu (s : State) (f : Saf → Saf) : (s.updSaf f).cpu = s.cpu := rfl
@[simp] theorem State.updSaf_msdram (s : State) (f : Saf → Saf) : (s.updSaf f).msdram = s.msdram := rfl
@[simp] theorem State.updSaf_hif (s : State) (f : Saf → Saf) : (s.updSaf f).hif = s.hif := rfl
@[simp] theorem State.updSaf_ptd (s : State) (f : Saf → Saf) : (s.updSaf f).ptd = s.ptd := rfl
@[simp] theorem State.updSaf_tim (s : State) (f : Saf → Saf) : (s.updSaf f).tim = s.tim := rfl
@[simp] theorem State.updSaf_hts (s : State) (f : Saf → Saf) : (s.updSaf f).hts = s.hts := rfl
@[simp] theorem State.updSaf_ce (s : State) (f : Saf → Saf) : (s.updSaf f).ce = s.ce := rfl
@[simp] theorem State.updSaf_xng (s : State) (f : Saf → Saf) : (s.updSaf f).xng = s.xng := rfl
@[simp] theorem State.updSaf_ave (s : State) (f : Saf → Saf) : (s.updSaf f).ave = s.ave := rfl
@[simp] theorem State.updSaf_clk (s : State) (f : Saf → Saf) : (s.updSaf f).clk = s.clk := rfl
@[simp] theorem State.updSaf_pmc (s : State) (f : Saf → Saf) : (s.updSaf f).pmc = s.pmc := rfl
@[simp] theorem State.updSaf_mot (s : State) (f : Saf → Saf) : (s.updSaf f).mot = s.mot := rfl
@[simp] theorem State.updSaf_lne (s : State) (f : Saf → Saf) : (s.updSaf f).lne = s.lne := rfl
@[simp] theorem State.updSaf_csc (s : State) (f : Saf → Saf) : (s.updSaf f).csc = s.csc := rfl
@[simp] theorem State.updSaf_fio (s : State) (f : Saf → Saf) : (s.updSaf f).fio = s.fio := rfl
@[simp] theorem State.updSaf_rsq (s : State) (f : Saf → Saf) : (s.updSaf f).rsq = s.rsq := rfl
@[simp] theorem State.updSaf_hrc (s : State) (f : Saf → Saf) : (s.updSaf f).hrc = s.hrc := rfl
@[simp] theorem State.updSaf_can (s : State) (f : Saf → Saf) : (s.updSaf f).can = s.can := rfl
@[simp] theorem State.updSaf_acq (s : State) (f : Saf → Saf) : (s.updSaf f).acq = s.acq := rfl
@[simp] theorem State.updSaf_ilp (s : State) (f : Saf → Saf) : (s.updSaf f).ilp = s.ilp := rfl

theorem State.updSaf_same (s : State) (f : Saf → Saf) : SameBut [.saf] s (s.updSaf f) := fun x hx => by
  cases x <;> first | rfl | exact absurd hx (by decide)

@[simp] theorem State.updXng_pending (s : State) (f : Xng → Xng) : (s.updXng f).pending = s.pending := rfl
@[simp] theorem State.updXng_free (s : State) (f : Xng → Xng) : (s.updXng f).free = s.free := rfl
@[simp] theorem State.updXng_out (s : State) (f : Xng → Xng) : (s.updXng f).out = s.out := rfl
@[simp] theorem State.updXng_upUs (s : State) (f : Xng → Xng) : (s.updXng f).upUs = s.upUs := rfl
@[simp] theorem State.updXng_mem (s : State) (f : Xng → Xng) : (s.updXng f).mem = s.mem := rfl
@[simp] theorem State.updXng_hdr (s : State) (f : Xng → Xng) : (s.updXng f).hdr = s.hdr := rfl
@[simp] theorem State.updXng_mir (s : State) (f : Xng → Xng) : (s.updXng f).mir = s.mir := rfl
@[simp] theorem State.updXng_regs (s : State) (f : Xng → Xng) : (s.updXng f).regs = s.regs := rfl
@[simp] theorem State.updXng_shadow (s : State) (f : Xng → Xng) : (s.updXng f).shadow = s.shadow := rfl
@[simp] theorem State.updXng_frz (s : State) (f : Xng → Xng) : (s.updXng f).frz = s.frz := rfl
@[simp] theorem State.updXng_sys (s : State) (f : Xng → Xng) : (s.updXng f).sys = s.sys := rfl
@[simp] theorem State.updXng_evr (s : State) (f : Xng → Xng) : (s.updXng f).evr = s.evr := rfl
@[simp] theorem State.updXng_erm (s : State) (f : Xng → Xng) : (s.updXng f).erm = s.erm := rfl
@[simp] theorem State.updXng_ret (s : State) (f : Xng → Xng) : (s.updXng f).ret = s.ret := rfl
@[simp] theorem State.updXng_cpu (s : State) (f : Xng → Xng) : (s.updXng f).cpu = s.cpu := rfl
@[simp] theorem State.updXng_msdram (s : State) (f : Xng → Xng) : (s.updXng f).msdram = s.msdram := rfl
@[simp] theorem State.updXng_hif (s : State) (f : Xng → Xng) : (s.updXng f).hif = s.hif := rfl
@[simp] theorem State.updXng_ptd (s : State) (f : Xng → Xng) : (s.updXng f).ptd = s.ptd := rfl
@[simp] theorem State.updXng_tim (s : State) (f : Xng → Xng) : (s.updXng f).tim = s.tim := rfl
@[simp] theorem State.updXng_hts (s : State) (f : Xng → Xng) : (s.updXng f).hts = s.hts := rfl
@[simp] theorem State.updXng_ce (s : State) (f : Xng → Xng) : (s.updXng f).ce = s.ce := rfl
@[simp] theorem State.updXng_ave (s : State) (f : Xng → Xng) : (s.updXng f).ave = s.ave := rfl
@[simp] theorem State.updXng_saf (s : State) (f : Xng → Xng) : (s.updXng f).saf = s.saf := rfl
@[simp] theorem State.updXng_clk (s : State) (f : Xng → Xng) : (s.updXng f).clk = s.clk := rfl
@[simp] theorem State.updXng_pmc (s : State) (f : Xng → Xng) : (s.updXng f).pmc = s.pmc := rfl
@[simp] theorem State.updXng_mot (s : State) (f : Xng → Xng) : (s.updXng f).mot = s.mot := rfl
@[simp] theorem State.updXng_lne (s : State) (f : Xng → Xng) : (s.updXng f).lne = s.lne := rfl
@[simp] theorem State.updXng_csc (s : State) (f : Xng → Xng) : (s.updXng f).csc = s.csc := rfl
@[simp] theorem State.updXng_fio (s : State) (f : Xng → Xng) : (s.updXng f).fio = s.fio := rfl
@[simp] theorem State.updXng_rsq (s : State) (f : Xng → Xng) : (s.updXng f).rsq = s.rsq := rfl
@[simp] theorem State.updXng_hrc (s : State) (f : Xng → Xng) : (s.updXng f).hrc = s.hrc := rfl
@[simp] theorem State.updXng_can (s : State) (f : Xng → Xng) : (s.updXng f).can = s.can := rfl
@[simp] theorem State.updXng_acq (s : State) (f : Xng → Xng) : (s.updXng f).acq = s.acq := rfl
@[simp] theorem State.updXng_ilp (s : State) (f : Xng → Xng) : (s.updXng f).ilp = s.ilp := rfl

theorem State.updXng_same (s : State) (f : Xng → Xng) : SameBut [.xng] s (s.updXng f) := fun x hx => by
  cases x <;> first | rfl | exact absurd hx (by decide)

@[simp] theorem State.updPmc_pending (s : State) (f : Pmc → Pmc) : (s.updPmc f).pending = s.pending := rfl
@[simp] theorem State.updPmc_free (s : State) (f : Pmc → Pmc) : (s.updPmc f).free = s.free := rfl
@[simp] theorem State.updPmc_out (s : State) (f : Pmc → Pmc) : (s.updPmc f).out = s.out := rfl
@[simp] theorem State.updPmc_upUs (s : State) (f : Pmc → Pmc) : (s.updPmc f).upUs = s.upUs := rfl
@[simp] theorem State.updPmc_mem (s : State) (f : Pmc → Pmc) : (s.updPmc f).mem = s.mem := rfl
@[simp] theorem State.updPmc_hdr (s : State) (f : Pmc → Pmc) : (s.updPmc f).hdr = s.hdr := rfl
@[simp] theorem State.updPmc_mir (s : State) (f : Pmc → Pmc) : (s.updPmc f).mir = s.mir := rfl
@[simp] theorem State.updPmc_regs (s : State) (f : Pmc → Pmc) : (s.updPmc f).regs = s.regs := rfl
@[simp] theorem State.updPmc_shadow (s : State) (f : Pmc → Pmc) : (s.updPmc f).shadow = s.shadow := rfl
@[simp] theorem State.updPmc_frz (s : State) (f : Pmc → Pmc) : (s.updPmc f).frz = s.frz := rfl
@[simp] theorem State.updPmc_sys (s : State) (f : Pmc → Pmc) : (s.updPmc f).sys = s.sys := rfl
@[simp] theorem State.updPmc_evr (s : State) (f : Pmc → Pmc) : (s.updPmc f).evr = s.evr := rfl
@[simp] theorem State.updPmc_erm (s : State) (f : Pmc → Pmc) : (s.updPmc f).erm = s.erm := rfl
@[simp] theorem State.updPmc_ret (s : State) (f : Pmc → Pmc) : (s.updPmc f).ret = s.ret := rfl
@[simp] theorem State.updPmc_cpu (s : State) (f : Pmc → Pmc) : (s.updPmc f).cpu = s.cpu := rfl
@[simp] theorem State.updPmc_msdram (s : State) (f : Pmc → Pmc) : (s.updPmc f).msdram = s.msdram := rfl
@[simp] theorem State.updPmc_hif (s : State) (f : Pmc → Pmc) : (s.updPmc f).hif = s.hif := rfl
@[simp] theorem State.updPmc_ptd (s : State) (f : Pmc → Pmc) : (s.updPmc f).ptd = s.ptd := rfl
@[simp] theorem State.updPmc_tim (s : State) (f : Pmc → Pmc) : (s.updPmc f).tim = s.tim := rfl
@[simp] theorem State.updPmc_hts (s : State) (f : Pmc → Pmc) : (s.updPmc f).hts = s.hts := rfl
@[simp] theorem State.updPmc_ce (s : State) (f : Pmc → Pmc) : (s.updPmc f).ce = s.ce := rfl
@[simp] theorem State.updPmc_xng (s : State) (f : Pmc → Pmc) : (s.updPmc f).xng = s.xng := rfl
@[simp] theorem State.updPmc_ave (s : State) (f : Pmc → Pmc) : (s.updPmc f).ave = s.ave := rfl
@[simp] theorem State.updPmc_saf (s : State) (f : Pmc → Pmc) : (s.updPmc f).saf = s.saf := rfl
@[simp] theorem State.updPmc_clk (s : State) (f : Pmc → Pmc) : (s.updPmc f).clk = s.clk := rfl
@[simp] theorem State.updPmc_mot (s : State) (f : Pmc → Pmc) : (s.updPmc f).mot = s.mot := rfl
@[simp] theorem State.updPmc_lne (s : State) (f : Pmc → Pmc) : (s.updPmc f).lne = s.lne := rfl
@[simp] theorem State.updPmc_csc (s : State) (f : Pmc → Pmc) : (s.updPmc f).csc = s.csc := rfl
@[simp] theorem State.updPmc_fio (s : State) (f : Pmc → Pmc) : (s.updPmc f).fio = s.fio := rfl
@[simp] theorem State.updPmc_rsq (s : State) (f : Pmc → Pmc) : (s.updPmc f).rsq = s.rsq := rfl
@[simp] theorem State.updPmc_hrc (s : State) (f : Pmc → Pmc) : (s.updPmc f).hrc = s.hrc := rfl
@[simp] theorem State.updPmc_can (s : State) (f : Pmc → Pmc) : (s.updPmc f).can = s.can := rfl
@[simp] theorem State.updPmc_acq (s : State) (f : Pmc → Pmc) : (s.updPmc f).acq = s.acq := rfl
@[simp] theorem State.updPmc_ilp (s : State) (f : Pmc → Pmc) : (s.updPmc f).ilp = s.ilp := rfl

theorem State.updPmc_same (s : State) (f : Pmc → Pmc) : SameBut [.pmc] s (s.updPmc f) := fun x hx => by
  cases x <;> first | rfl | exact absurd hx (by decide)

@[simp] theorem State.updClk_pending (s : State) (f : Clk → Clk) : (s.updClk f).pending = s.pending := rfl
@[simp] theorem State.updClk_free (s : State) (f : Clk → Clk) : (s.updClk f).free = s.free := rfl
@[simp] theorem State.updClk_out (s : State) (f : Clk → Clk) : (s.updClk f).out = s.out := rfl
@[simp] theorem State.updClk_upUs (s : State) (f : Clk → Clk) : (s.updClk f).upUs = s.upUs := rfl
@[simp] theorem State.updClk_mem (s : State) (f : Clk → Clk) : (s.updClk f).mem = s.mem := rfl
@[simp] theorem State.updClk_hdr (s : State) (f : Clk → Clk) : (s.updClk f).hdr = s.hdr := rfl
@[simp] theorem State.updClk_mir (s : State) (f : Clk → Clk) : (s.updClk f).mir = s.mir := rfl
@[simp] theorem State.updClk_regs (s : State) (f : Clk → Clk) : (s.updClk f).regs = s.regs := rfl
@[simp] theorem State.updClk_shadow (s : State) (f : Clk → Clk) : (s.updClk f).shadow = s.shadow := rfl
@[simp] theorem State.updClk_frz (s : State) (f : Clk → Clk) : (s.updClk f).frz = s.frz := rfl
@[simp] theorem State.updClk_sys (s : State) (f : Clk → Clk) : (s.updClk f).sys = s.sys := rfl
@[simp] theorem State.updClk_evr (s : State) (f : Clk → Clk) : (s.updClk f).evr = s.evr := rfl
@[simp] theorem State.updClk_erm (s : State) (f : Clk → Clk) : (s.updClk f).erm = s.erm := rfl
@[simp] theorem State.updClk_ret (s : State) (f : Clk → Clk) : (s.updClk f).ret = s.ret := rfl
@[simp] theorem State.updClk_cpu (s : State) (f : Clk → Clk) : (s.updClk f).cpu = s.cpu := rfl
@[simp] theorem State.updClk_msdram (s : State) (f : Clk → Clk) : (s.updClk f).msdram = s.msdram := rfl
@[simp] theorem State.updClk_hif (s : State) (f : Clk → Clk) : (s.updClk f).hif = s.hif := rfl
@[simp] theorem State.updClk_ptd (s : State) (f : Clk → Clk) : (s.updClk f).ptd = s.ptd := rfl
@[simp] theorem State.updClk_tim (s : State) (f : Clk → Clk) : (s.updClk f).tim = s.tim := rfl
@[simp] theorem State.updClk_hts (s : State) (f : Clk → Clk) : (s.updClk f).hts = s.hts := rfl
@[simp] theorem State.updClk_ce (s : State) (f : Clk → Clk) : (s.updClk f).ce = s.ce := rfl
@[simp] theorem State.updClk_xng (s : State) (f : Clk → Clk) : (s.updClk f).xng = s.xng := rfl
@[simp] theorem State.updClk_ave (s : State) (f : Clk → Clk) : (s.updClk f).ave = s.ave := rfl
@[simp] theorem State.updClk_saf (s : State) (f : Clk → Clk) : (s.updClk f).saf = s.saf := rfl
@[simp] theorem State.updClk_pmc (s : State) (f : Clk → Clk) : (s.updClk f).pmc = s.pmc := rfl
@[simp] theorem State.updClk_mot (s : State) (f : Clk → Clk) : (s.updClk f).mot = s.mot := rfl
@[simp] theorem State.updClk_lne (s : State) (f : Clk → Clk) : (s.updClk f).lne = s.lne := rfl
@[simp] theorem State.updClk_csc (s : State) (f : Clk → Clk) : (s.updClk f).csc = s.csc := rfl
@[simp] theorem State.updClk_fio (s : State) (f : Clk → Clk) : (s.updClk f).fio = s.fio := rfl
@[simp] theorem State.updClk_rsq (s : State) (f : Clk → Clk) : (s.updClk f).rsq = s.rsq := rfl
@[simp] theorem State.updClk_hrc (s : State) (f : Clk → Clk) : (s.updClk f).hrc = s.hrc := rfl
@[simp] theorem State.updClk_can (s : State) (f : Clk → Clk) : (s.updClk f).can = s.can := rfl
@[simp] theorem State.updClk_acq (s : State) (f : Clk → Clk) : (s.updClk f).acq = s.acq := rfl
@[simp] theorem State.updClk_ilp (s : State) (f : Clk → Clk) : (s.updClk f).ilp = s.ilp := rfl

theorem State.updClk_same (s : State) (f : Clk → Clk) : SameBut [.clk] s (s.updClk f) := fun x hx => by
  cases x <;> first | rfl | exact absurd hx (by decide)

@[simp] theorem State.updRet_pending (s : State) (f : Ret → Ret) : (s.updRet f).pending = s.pending := rfl
@[simp] theorem State.updRet_free (s : State) (f : Ret → Ret) : (s.updRet f).free = s.free := rfl
@[simp] theorem State.updRet_out (s : State) (f : Ret → Ret) : (s.updRet f).out = s.out := rfl
@[simp] theorem State.updRet_upUs (s : State) (f : Ret → Ret) : (s.updRet f).upUs = s.upUs := rfl
@[simp] theorem State.updRet_mem (s : State) (f : Ret → Ret) : (s.updRet f).mem = s.mem := rfl
@[simp] theorem State.updRet_hdr (s : State) (f : Ret → Ret) : (s.updRet f).hdr = s.hdr := rfl
@[simp] theorem State.updRet_mir (s : State) (f : Ret → Ret) : (s.updRet f).mir = s.mir := rfl
@[simp] theorem State.updRet_regs (s : State) (f : Ret → Ret) : (s.updRet f).regs = s.regs := rfl
@[simp] theorem State.updRet_shadow (s : State) (f : Ret → Ret) : (s.updRet f).shadow = s.shadow := rfl
@[simp] theorem State.updRet_frz (s : State) (f : Ret → Ret) : (s.updRet f).frz = s.frz := rfl
@[simp] theorem State.updRet_sys (s : State) (f : Ret → Ret) : (s.updRet f).sys = s.sys := rfl
@[simp] theorem State.updRet_evr (s : State) (f : Ret → Ret) : (s.updRet f).evr = s.evr := rfl
@[simp] theorem State.updRet_erm (s : State) (f : Ret → Ret) : (s.updRet f).erm = s.erm := rfl
@[simp] theorem State.updRet_cpu (s : State) (f : Ret → Ret) : (s.updRet f).cpu = s.cpu := rfl
@[simp] theorem State.updRet_msdram (s : State) (f : Ret → Ret) : (s.updRet f).msdram = s.msdram := rfl
@[simp] theorem State.updRet_hif (s : State) (f : Ret → Ret) : (s.updRet f).hif = s.hif := rfl
@[simp] theorem State.updRet_ptd (s : State) (f : Ret → Ret) : (s.updRet f).ptd = s.ptd := rfl
@[simp] theorem State.updRet_tim (s : State) (f : Ret → Ret) : (s.updRet f).tim = s.tim := rfl
@[simp] theorem State.updRet_hts (s : State) (f : Ret → Ret) : (s.updRet f).hts = s.hts := rfl
@[simp] theorem State.updRet_ce (s : State) (f : Ret → Ret) : (s.updRet f).ce = s.ce := rfl
@[simp] theorem State.updRet_xng (s : State) (f : Ret → Ret) : (s.updRet f).xng = s.xng := rfl
@[simp] theorem State.updRet_ave (s : State) (f : Ret → Ret) : (s.updRet f).ave = s.ave := rfl
@[simp] theorem State.updRet_saf (s : State) (f : Ret → Ret) : (s.updRet f).saf = s.saf := rfl
@[simp] theorem State.updRet_clk (s : State) (f : Ret → Ret) : (s.updRet f).clk = s.clk := rfl
@[simp] theorem State.updRet_pmc (s : State) (f : Ret → Ret) : (s.updRet f).pmc = s.pmc := rfl
@[simp] theorem State.updRet_mot (s : State) (f : Ret → Ret) : (s.updRet f).mot = s.mot := rfl
@[simp] theorem State.updRet_lne (s : State) (f : Ret → Ret) : (s.updRet f).lne = s.lne := rfl
@[simp] theorem State.updRet_csc (s : State) (f : Ret → Ret) : (s.updRet f).csc = s.csc := rfl
@[simp] theorem State.updRet_fio (s : State) (f : Ret → Ret) : (s.updRet f).fio = s.fio := rfl
@[simp] theorem State.updRet_rsq (s : State) (f : Ret → Ret) : (s.updRet f).rsq = s.rsq := rfl
@[simp] theorem State.updRet_hrc (s : State) (f : Ret → Ret) : (s.updRet f).hrc = s.hrc := rfl
@[simp] theorem State.updRet_can (s : State) (f : Ret → Ret) : (s.updRet f).can = s.can := rfl
@[simp] theorem State.updRet_acq (s : State) (f : Ret → Ret) : (s.updRet f).acq = s.acq := rfl
@[simp] theorem State.updRet_ilp (s : State) (f : Ret → Ret) : (s.updRet f).ilp = s.ilp := rfl

theorem State.updRet_same (s : State) (f : Ret → Ret) : SameBut [.ret] s (s.updRet f) := fun x hx => by
  cases x <;> first | rfl | exact absurd hx (by decide)

@[simp] theorem State.updCsc_pending (s : State) (f : Csc → Csc) : (s.updCsc f).pending = s.pending := rfl
@[simp] theorem State.updCsc_free (s : State) (f : Csc → Csc) : (s.updCsc f).free = s.free := rfl
@[simp] theorem State.updCsc_out (s : State) (f : Csc → Csc) : (s.updCsc f).out = s.out := rfl
@[simp] theorem State.updCsc_upUs (s : State) (f : Csc → Csc) : (s.updCsc f).upUs = s.upUs := rfl
@[simp] theorem State.updCsc_mem (s : State) (f : Csc → Csc) : (s.updCsc f).mem = s.mem := rfl
@[simp] theorem State.updCsc_hdr (s : State) (f : Csc → Csc) : (s.updCsc f).hdr = s.hdr := rfl
@[simp] theorem State.updCsc_mir (s : State) (f : Csc → Csc) : (s.updCsc f).mir = s.mir := rfl
@[simp] theorem State.updCsc_regs (s : State) (f : Csc → Csc) : (s.updCsc f).regs = s.regs := rfl
@[simp] theorem State.updCsc_shadow (s : State) (f : Csc → Csc) : (s.updCsc f).shadow = s.shadow := rfl
@[simp] theorem State.updCsc_frz (s : State) (f : Csc → Csc) : (s.updCsc f).frz = s.frz := rfl
@[simp] theorem State.updCsc_sys (s : State) (f : Csc → Csc) : (s.updCsc f).sys = s.sys := rfl
@[simp] theorem State.updCsc_evr (s : State) (f : Csc → Csc) : (s.updCsc f).evr = s.evr := rfl
@[simp] theorem State.updCsc_erm (s : State) (f : Csc → Csc) : (s.updCsc f).erm = s.erm := rfl
@[simp] theorem State.updCsc_ret (s : State) (f : Csc → Csc) : (s.updCsc f).ret = s.ret := rfl
@[simp] theorem State.updCsc_cpu (s : State) (f : Csc → Csc) : (s.updCsc f).cpu = s.cpu := rfl
@[simp] theorem State.updCsc_msdram (s : State) (f : Csc → Csc) : (s.updCsc f).msdram = s.msdram := rfl
@[simp] theorem State.updCsc_hif (s : State) (f : Csc → Csc) : (s.updCsc f).hif = s.hif := rfl
@[simp] theorem State.updCsc_ptd (s : State) (f : Csc → Csc) : (s.updCsc f).ptd = s.ptd := rfl
@[simp] theorem State.updCsc_tim (s : State) (f : Csc → Csc) : (s.updCsc f).tim = s.tim := rfl
@[simp] theorem State.updCsc_hts (s : State) (f : Csc → Csc) : (s.updCsc f).hts = s.hts := rfl
@[simp] theorem State.updCsc_ce (s : State) (f : Csc → Csc) : (s.updCsc f).ce = s.ce := rfl
@[simp] theorem State.updCsc_xng (s : State) (f : Csc → Csc) : (s.updCsc f).xng = s.xng := rfl
@[simp] theorem State.updCsc_ave (s : State) (f : Csc → Csc) : (s.updCsc f).ave = s.ave := rfl
@[simp] theorem State.updCsc_saf (s : State) (f : Csc → Csc) : (s.updCsc f).saf = s.saf := rfl
@[simp] theorem State.updCsc_clk (s : State) (f : Csc → Csc) : (s.updCsc f).clk = s.clk := rfl
@[simp] theorem State.updCsc_pmc (s : State) (f : Csc → Csc) : (s.updCsc f).pmc = s.pmc := rfl
@[simp] theorem State.updCsc_mot (s : State) (f : Csc → Csc) : (s.updCsc f).mot = s.mot := rfl
@[simp] theorem State.updCsc_lne (s : State) (f : Csc → Csc) : (s.updCsc f).lne = s.lne := rfl
@[simp] theorem State.updCsc_fio (s : State) (f : Csc → Csc) : (s.updCsc f).fio = s.fio := rfl
@[simp] theorem State.updCsc_rsq (s : State) (f : Csc → Csc) : (s.updCsc f).rsq = s.rsq := rfl
@[simp] theorem State.updCsc_hrc (s : State) (f : Csc → Csc) : (s.updCsc f).hrc = s.hrc := rfl
@[simp] theorem State.updCsc_can (s : State) (f : Csc → Csc) : (s.updCsc f).can = s.can := rfl
@[simp] theorem State.updCsc_acq (s : State) (f : Csc → Csc) : (s.updCsc f).acq = s.acq := rfl
@[simp] theorem State.updCsc_ilp (s : State) (f : Csc → Csc) : (s.updCsc f).ilp = s.ilp := rfl

theorem State.updCsc_same (s : State) (f : Csc → Csc) : SameBut [.csc] s (s.updCsc f) := fun x hx => by
  cases x <;> first | rfl | exact absurd hx (by decide)

@[simp] theorem State.updHrc_pending (s : State) (f : Hrc → Hrc) : (s.updHrc f).pending = s.pending := rfl
@[simp] theorem State.updHrc_free (s : State) (f : Hrc → Hrc) : (s.updHrc f).free = s.free := rfl
@[simp] theorem State.updHrc_out (s : State) (f : Hrc → Hrc) : (s.updHrc f).out = s.out := rfl
@[simp] theorem State.updHrc_upUs (s : State) (f : Hrc → Hrc) : (s.updHrc f).upUs = s.upUs := rfl
@[simp] theorem State.updHrc_mem (s : State) (f : Hrc → Hrc) : (s.updHrc f).mem = s.mem := rfl
@[simp] theorem State.updHrc_hdr (s : State) (f : Hrc → Hrc) : (s.updHrc f).hdr = s.hdr := rfl
@[simp] theorem State.updHrc_mir (s : State) (f : Hrc → Hrc) : (s.updHrc f).mir = s.mir := rfl
@[simp] theorem State.updHrc_regs (s : State) (f : Hrc → Hrc) : (s.updHrc f).regs = s.regs := rfl
@[simp] theorem State.updHrc_shadow (s : State) (f : Hrc → Hrc) : (s.updHrc f).shadow = s.shadow := rfl
@[simp] theorem State.updHrc_frz (s : State) (f : Hrc → Hrc) : (s.updHrc f).frz = s.frz := rfl
@[simp] theorem State.updHrc_sys (s : State) (f : Hrc → Hrc) : (s.updHrc f).sys = s.sys := rfl
@[simp] theorem State.updHrc_evr (s : State) (f : Hrc → Hrc) : (s.updHrc f).evr = s.evr := rfl
@[simp] theorem State.updHrc_erm (s : State) (f : Hrc → Hrc) : (s.updHrc f).erm = s.erm := rfl
@[simp] theorem State.updHrc_ret (s : State) (f : Hrc → Hrc) : (s.updHrc f).ret = s.ret := rfl
@[simp] theorem State.updHrc_cpu (s : State) (f : Hrc → Hrc) : (s.updHrc f).cpu = s.cpu := rfl
@[simp] theorem State.updHrc_msdram (s : State) (f : Hrc → Hrc) : (s.updHrc f).msdram = s.msdram := rfl
@[simp] theorem State.updHrc_hif (s : State) (f : Hrc → Hrc) : (s.updHrc f).hif = s.hif := rfl
@[simp] theorem State.updHrc_ptd (s : State) (f : Hrc → Hrc) : (s.updHrc f).ptd = s.ptd := rfl
@[simp] theorem State.updHrc_tim (s : State) (f : Hrc → Hrc) : (s.updHrc f).tim = s.tim := rfl
@[simp] theorem State.updHrc_hts (s : State) (f : Hrc → Hrc) : (s.updHrc f).hts = s.hts := rfl
@[simp] theorem State.updHrc_ce (s : State) (f : Hrc → Hrc) : (s.updHrc f).ce = s.ce := rfl
@[simp] theorem State.updHrc_xng (s : State) (f : Hrc → Hrc) : (s.updHrc f).xng = s.xng := rfl
@[simp] theorem State.updHrc_ave (s : State) (f : Hrc → Hrc) : (s.updHrc f).ave = s.ave := rfl
@[simp] theorem State.updHrc_saf (s : State) (f : Hrc → Hrc) : (s.updHrc f).saf = s.saf := rfl
@[simp] theorem State.updHrc_clk (s : State) (f : Hrc → Hrc) : (s.updHrc f).clk = s.clk := rfl
@[simp] theorem State.updHrc_pmc (s : State) (f : Hrc → Hrc) : (s.updHrc f).pmc = s.pmc := rfl
@[simp] theorem State.updHrc_mot (s : State) (f : Hrc → Hrc) : (s.updHrc f).mot = s.mot := rfl
@[simp] theorem State.updHrc_lne (s : State) (f : Hrc → Hrc) : (s.updHrc f).lne = s.lne := rfl
@[simp] theorem State.updHrc_csc (s : State) (f : Hrc → Hrc) : (s.updHrc f).csc = s.csc := rfl
@[simp] theorem State.updHrc_fio (s : State) (f : Hrc → Hrc) : (s.updHrc f).fio = s.fio := rfl
@[simp] theorem State.updHrc_rsq (s : State) (f : Hrc → Hrc) : (s.updHrc f).rsq = s.rsq := rfl
@[simp] theorem State.updHrc_can (s : State) (f : Hrc → Hrc) : (s.updHrc f).can = s.can := rfl
@[simp] theorem State.updHrc_acq (s : State) (f : Hrc → Hrc) : (s.updHrc f).acq = s.acq := rfl
@[simp] theorem State.updHrc_ilp (s : State) (f : Hrc → Hrc) : (s.updHrc f).ilp = s.ilp := rfl

theorem State.updHrc_same (s : State) (f : Hrc → Hrc) : SameBut [.hrc] s (s.updHrc f) := fun x hx => by
  cases x <;> first | rfl | exact absurd hx (by decide)

@[simp] theorem State.setReg_pending (s : State) (r : RegId) (w : Word) : (s.setReg r w).pending = s.pending := rfl
@[simp] theorem State.setReg_free (s : State) (r : RegId) (w : Word) : (s.setReg r w).free = s.free := rfl
@[simp] theorem State.setReg_out (s : State) (r : RegId) (w : Word) : (s.setReg r w).out = s.out := rfl
@[simp] theorem State.setReg_upUs (s : State) (r : RegId) (w : Word) : (s.setReg r w).upUs = s.upUs := rfl
@[simp] theorem State.setReg_mem (s : State) (r : RegId) (w : Word) : (s.setReg r w).mem = s.mem := rfl
@[simp] theorem State.setReg_hdr (s : State) (r : RegId) (w : Word) : (s.setReg r w).hdr = s.hdr := rfl
@[simp] theorem State.setReg_mir (s : State) (r : RegId) (w : Word) : (s.setReg r w).mir = s.mir := rfl
@[simp] theorem State.setReg_shadow (s : State) (r : RegId) (w : Word) : (s.setReg r w).shadow = s.shadow := rfl
@[simp] theorem State.setReg_frz (s : State) (r : RegId) (w : Word) : (s.setReg r w).frz = s.frz := rfl
@[simp] theorem State.setReg_sys (s : State) (r : RegId) (w : Word) : (s.setReg r w).sys = s.sys := rfl
@[simp] theorem State.setReg_evr (s : State) (r : RegId) (w : Word) : (s.setReg r w).evr = s.evr := rfl
@[simp] theorem State.setReg_erm (s : State) (r : RegId) (w : Word) : (s.setReg r w).erm = s.erm := rfl
@[simp] theorem State.setReg_ret (s : State) (r : RegId) (w : Word) : (s.setReg r w).ret = s.ret := rfl
@[simp] theorem State.setReg_cpu (s : State) (r : RegId) (w : Word) : (s.setReg r w).cpu = s.cpu := rfl
@[simp] theorem State.setReg_msdram (s : State) (r : RegId) (w : Word) : (s.setReg r w).msdram = s.msdram := rfl
@[simp] theorem State.setReg_hif (s : State) (r : RegId) (w : Word) : (s.setReg r w).hif = s.hif := rfl
@[simp] theorem State.setReg_ptd (s : State) (r : RegId) (w : Word) : (s.setReg r w).ptd = s.ptd := rfl
@[simp] theorem State.setReg_tim (s : State) (r : RegId) (w : Word) : (s.setReg r w).tim = s.tim := rfl
@[simp] theorem State.setReg_hts (s : State) (r : RegId) (w : Word) : (s.setReg r w).hts = s.hts := rfl
@[simp] theorem State.setReg_ce (s : State) (r : RegId) (w : Word) : (s.setReg r w).ce = s.ce := rfl
@[simp] theorem State.setReg_xng (s : State) (r : RegId) (w : Word) : (s.setReg r w).xng = s.xng := rfl
@[simp] theorem State.setReg_ave (s : State) (r : RegId) (w : Word) : (s.setReg r w).ave = s.ave := rfl
@[simp] theorem State.setReg_saf (s : State) (r : RegId) (w : Word) : (s.setReg r w).saf = s.saf := rfl
@[simp] theorem State.setReg_clk (s : State) (r : RegId) (w : Word) : (s.setReg r w).clk = s.clk := rfl
@[simp] theorem State.setReg_pmc (s : State) (r : RegId) (w : Word) : (s.setReg r w).pmc = s.pmc := rfl
@[simp] theorem State.setReg_mot (s : State) (r : RegId) (w : Word) : (s.setReg r w).mot = s.mot := rfl
@[simp] theorem State.setReg_lne (s : State) (r : RegId) (w : Word) : (s.setReg r w).lne = s.lne := rfl
@[simp] theorem State.setReg_csc (s : State) (r : RegId) (w : Word) : (s.setReg r w).csc = s.csc := rfl
@[simp] theorem State.setReg_fio (s : State) (r : RegId) (w : Word) : (s.setReg r w).fio = s.fio := rfl
@[simp] theorem State.setReg_rsq (s : State) (r : RegId) (w : Word) : (s.setReg r w).rsq = s.rsq := rfl
@[simp] theorem State.setReg_hrc (s : State) (r : RegId) (w : Word) : (s.setReg r w).hrc = s.hrc := rfl
@[simp] theorem State.setReg_can (s : State) (r : RegId) (w : Word) : (s.setReg r w).can = s.can := rfl
@[simp] theorem State.setReg_acq (s : State) (r : RegId) (w : Word) : (s.setReg r w).acq = s.acq := rfl
@[simp] theorem State.setReg_ilp (s : State) (r : RegId) (w : Word) : (s.setReg r w).ilp = s.ilp := rfl

theorem State.setReg_same (s : State) (r : RegId) (w : Word) : SameBut [.regs] s (s.setReg r w) := fun x hx => by
  cases x <;> first | rfl | exact absurd hx (by decide)

@[simp] theorem State.setSh_pending (s : State) (r : RegId) (w : Word) : (s.setSh r w).pending = s.pending := rfl
@[simp] theorem State.setSh_free (s : State) (r : RegId) (w : Word) : (s.setSh r w).free = s.free := rfl
@[simp] theorem State.setSh_out (s : State) (r : RegId) (w : Word) : (s.setSh r w).out = s.out := rfl
@[simp] theorem State.setSh_upUs (s : State) (r : RegId) (w : Word) : (s.setSh r w).upUs = s.upUs := rfl
@[simp] theorem State.setSh_mem (s : State) (r : RegId) (w : Word) : (s.setSh r w).mem = s.mem := rfl
@[simp] theorem State.setSh_hdr (s : State) (r : RegId) (w : Word) : (s.setSh r w).hdr = s.hdr := rfl
@[simp] theorem State.setSh_mir (s : State) (r : RegId) (w : Word) : (s.setSh r w).mir = s.mir := rfl
@[simp] theorem State.setSh_regs (s : State) (r : RegId) (w : Word) : (s.setSh r w).regs = s.regs := rfl
@[simp] theorem State.setSh_frz (s : State) (r : RegId) (w : Word) : (s.setSh r w).frz = s.frz := rfl
@[simp] theorem State.setSh_sys (s : State) (r : RegId) (w : Word) : (s.setSh r w).sys = s.sys := rfl
@[simp] theorem State.setSh_evr (s : State) (r : RegId) (w : Word) : (s.setSh r w).evr = s.evr := rfl
@[simp] theorem State.setSh_erm (s : State) (r : RegId) (w : Word) : (s.setSh r w).erm = s.erm := rfl
@[simp] theorem State.setSh_ret (s : State) (r : RegId) (w : Word) : (s.setSh r w).ret = s.ret := rfl
@[simp] theorem State.setSh_cpu (s : State) (r : RegId) (w : Word) : (s.setSh r w).cpu = s.cpu := rfl
@[simp] theorem State.setSh_msdram (s : State) (r : RegId) (w : Word) : (s.setSh r w).msdram = s.msdram := rfl
@[simp] theorem State.setSh_hif (s : State) (r : RegId) (w : Word) : (s.setSh r w).hif = s.hif := rfl
@[simp] theorem State.setSh_ptd (s : State) (r : RegId) (w : Word) : (s.setSh r w).ptd = s.ptd := rfl
@[simp] theorem State.setSh_tim (s : State) (r : RegId) (w : Word) : (s.setSh r w).tim = s.tim := rfl
@[simp] theorem State.setSh_hts (s : State) (r : RegId) (w : Word) : (s.setSh r w).hts = s.hts := rfl
@[simp] theorem State.setSh_ce (s : State) (r : RegId) (w : Word) : (s.setSh r w).ce = s.ce := rfl
@[simp] theorem State.setSh_xng (s : State) (r : RegId) (w : Word) : (s.setSh r w).xng = s.xng := rfl
@[simp] theorem State.setSh_ave (s : State) (r : RegId) (w : Word) : (s.setSh r w).ave = s.ave := rfl
@[simp] theorem State.setSh_saf (s : State) (r : RegId) (w : Word) : (s.setSh r w).saf = s.saf := rfl
@[simp] theorem State.setSh_clk (s : State) (r : RegId) (w : Word) : (s.setSh r w).clk = s.clk := rfl
@[simp] theorem State.setSh_pmc (s : State) (r : RegId) (w : Word) : (s.setSh r w).pmc = s.pmc := rfl
@[simp] theorem State.setSh_mot (s : State) (r : RegId) (w : Word) : (s.setSh r w).mot = s.mot := rfl
@[simp] theorem State.setSh_lne (s : State) (r : RegId) (w : Word) : (s.setSh r w).lne = s.lne := rfl
@[simp] theorem State.setSh_csc (s : State) (r : RegId) (w : Word) : (s.setSh r w).csc = s.csc := rfl
@[simp] theorem State.setSh_fio (s : State) (r : RegId) (w : Word) : (s.setSh r w).fio = s.fio := rfl
@[simp] theorem State.setSh_rsq (s : State) (r : RegId) (w : Word) : (s.setSh r w).rsq = s.rsq := rfl
@[simp] theorem State.setSh_hrc (s : State) (r : RegId) (w : Word) : (s.setSh r w).hrc = s.hrc := rfl
@[simp] theorem State.setSh_can (s : State) (r : RegId) (w : Word) : (s.setSh r w).can = s.can := rfl
@[simp] theorem State.setSh_acq (s : State) (r : RegId) (w : Word) : (s.setSh r w).acq = s.acq := rfl
@[simp] theorem State.setSh_ilp (s : State) (r : RegId) (w : Word) : (s.setSh r w).ilp = s.ilp := rfl

theorem State.setSh_same (s : State) (r : RegId) (w : Word) : SameBut [.shadow] s (s.setSh r w) := fun x hx => by
  cases x <;> first | rfl | exact absurd hx (by decide)

@[simp] theorem State.store_pending (s : State) (a : Nat) (bs : List Byte) : (s.store a bs).pending = s.pending := rfl
@[simp] theorem State.store_free (s : State) (a : Nat) (bs : List Byte) : (s.store a bs).free = s.free := rfl
@[simp] theorem State.store_out (s : State) (a : Nat) (bs : List Byte) : (s.store a bs).out = s.out := rfl
@[simp] theorem State.store_upUs (s : State) (a : Nat) (bs : List Byte) : (s.store a bs).upUs = s.upUs := rfl
@[simp] theorem State.store_hdr (s : State) (a : Nat) (bs : List Byte) : (s.store a bs).hdr = s.hdr := rfl
@[simp] theorem State.store_mir (s : State) (a : Nat) (bs : List Byte) : (s.store a bs).mir = s.mir := rfl
@[simp] theorem State.store_regs (s : State) (a : Nat) (bs : List Byte) : (s.store a bs).regs = s.regs := rfl
@[simp] theorem State.store_shadow (s : State) (a : Nat) (bs : List Byte) : (s.store a bs).shadow = s.shadow := rfl
@[simp] theorem State.store_frz (s : State) (a : Nat) (bs : List Byte) : (s.store a bs).frz = s.frz := rfl
@[simp] theorem State.store_sys (s : State) (a : Nat) (bs : List Byte) : (s.store a bs).sys = s.sys := rfl
@[simp] theorem State.store_evr (s : State) (a : Nat) (bs : List Byte) : (s.store a bs).evr = s.evr := rfl
@[simp] theorem State.store_erm (s : State) (a : Nat) (bs : List Byte) : (s.store a bs).erm = s.erm := rfl
@[simp] theorem State.store_ret (s : State) (a : Nat) (bs : List Byte) : (s.store a bs).ret = s.ret := rfl
@[simp] theorem State.store_cpu (s : State) (a : Nat) (bs : List Byte) : (s.store a bs).cpu = s.cpu := rfl
@[simp] theorem State.store_msdram (s : State) (a : Nat) (bs : List Byte) : (s.store a bs).msdram = s.msdram := rfl
@[simp] theorem State.store_hif (s : State) (a : Nat) (bs : List Byte) : (s.store a bs).hif = s.hif := rfl
@[simp] theorem State.store_ptd (s : State) (a : Nat) (bs : List Byte) : (s.store a bs).ptd = s.ptd := rfl
@[simp] theorem State.store_tim (s : State) (a : Nat) (bs : List Byte) : (s.store a bs).tim = s.tim := rfl
@[simp] theorem State.store_hts (s : State) (a : Nat) (bs : List Byte) : (s.store a bs).hts = s.hts := rfl
@[simp] theorem State.store_ce (s : State) (a : Nat) (bs : List Byte) : (s.store a bs).ce = s.ce := rfl
@[simp] theorem State.store_xng (s : State) (a : Nat) (bs : List Byte) : (s.store a bs).xng = s.xng := rfl
@[simp] theorem State.store_ave (s : State) (a : Nat) (bs : List Byte) : (s.store a bs).ave = s.ave := rfl
@[simp] theorem State.store_saf (s : State) (a : Nat) (bs : List Byte) : (s.store a bs).saf = s.saf := rfl
@[simp] theorem State.store_clk (s : State) (a : Nat) (bs : List Byte) : (s.store a bs).clk = s.clk := rfl
@[simp] theorem State.store_pmc (s : State) (a : Nat) (bs : List Byte) : (s.store a bs).pmc = s.pmc := rfl
@[simp] theorem State.store_mot (s : State) (a : Nat) (bs : List Byte) : (s.store a bs).mot = s.mot := rfl
@[simp] theorem State.store_lne (s : State) (a : Nat) (bs : List Byte) : (s.store a bs).lne = s.lne := rfl
@[simp] theorem State.store_csc (s : State) (a : Nat) (bs : List Byte) : (s.store a bs).csc = s.csc := rfl
@[simp] theorem State.store_fio (s : State) (a : Nat) (bs : List Byte) : (s.store a bs).fio = s.fio := rfl
@[simp] theorem State.store_rsq (s : State) (a : Nat) (bs : List Byte) : (s.store a bs).rsq = s.rsq := rfl
@[simp] theorem State.store_hrc (s : State) (a : Nat) (bs : List Byte) : (s.store a bs).hrc = s.hrc := rfl
@[simp] theorem State.store_can (s : State) (a : Nat) (bs : List Byte) : (s.store a bs).can = s.can := rfl
@[simp] theorem State.store_acq (s : State) (a : Nat) (bs : List Byte) : (s.store a bs).acq = s.acq := rfl
@[simp] theorem State.store_ilp (s : State) (a : Nat) (bs : List Byte) : (s.store a bs).ilp = s.ilp := rfl

theorem State.store_same (s : State) (a : Nat) (bs : List Byte) : SameBut [.mem] s (s.store a bs) := fun x hx => by
  cases x <;> first | rfl | exact absurd hx (by decide)

end Sys2Proof.Machine
end

