-- ==== Sys2Proof/Laws/Ops.lean ====
section
/-!
SUPPORT. The laws of the operations that every block shares: what each may change, what a header, a register and the memory hold after it, and what the
gate of a register write answers.
-/

namespace Sys2Proof.Machine

/-! ### Words and bits -/

theorem word_toNat (w : Word) : word w.toNat = w := by simp [word]

theorem toNat_word (n : Nat) : (word n).toNat = n % 2 ^ 32 := by simp [word]

theorem word_two_pow (i j : Nat) : (word (2 ^ i)).getLsbD j = (decide (j < 32) && decide (i = j)) := by
  unfold word
  rw [BitVec.getLsbD_ofNat, Nat.testBit_two_pow]

theorem bit_setBit_same (w : Word) {i : Nat} (h : i < 32) : bit (setBit w i) i = true := by
  unfold bit setBit
  rw [BitVec.getLsbD_or, word_two_pow]
  simp [h]

theorem bit_setBit_ne (w : Word) {i j : Nat} (h : i ≠ j) : bit (setBit w i) j = bit w j := by
  unfold bit setBit
  rw [BitVec.getLsbD_or, word_two_pow]
  simp [h]

theorem bit_clrBit_same (w : Word) (i : Nat) : bit (clrBit w i) i = false := by
  unfold bit clrBit
  rw [BitVec.getLsbD_and, BitVec.getLsbD_not, word_two_pow]
  by_cases h : i < 32 <;> simp [h]

theorem bit_clrBit_ne (w : Word) {i j : Nat} (h : i ≠ j) : bit (clrBit w i) j = bit w j := by
  unfold bit clrBit
  rw [BitVec.getLsbD_and, BitVec.getLsbD_not, word_two_pow]
  by_cases hj : j < 32
  · simp [h, hj]
  · rw [BitVec.getLsbD_of_ge w j (by omega)]; rfl

theorem satInc_le {m n : Nat} : satInc m n ≤ max m n := by unfold satInc; split <;> omega

theorem satInc_pos {m n : Nat} (h : 0 < m) : 0 < satInc m n := by unfold satInc; split <;> omega

/-! ### Headers and registers -/

theorem Block.code_inj {a b : Block} (h : a.code = b.code) : a = b := by
  cases a <;> cases b <;> first | rfl | exact absurd h (by decide)

@[simp] theorem State.hd_updHd_same (s : State) (b : Block) (f : Hdr → Hdr) : (s.updHd b f).hd b = f (s.hd b) := by
  simp [State.hd, State.updHd]

theorem State.hd_updHd_ne (s : State) {a b : Block} (f : Hdr → Hdr) (h : b ≠ a) : (s.updHd a f).hd b = s.hd b := by
  simp [State.hd, State.updHd, Tab.get_upd_ne _ _ _ (fun e => h (Block.code_inj e))]

theorem State.hd_updHd (s : State) (a b : Block) (f : Hdr → Hdr) :
    (s.updHd a f).hd b = if b = a then f (s.hd a) else s.hd b := by
  by_cases h : b = a
  · subst h; simp
  · simp [h, State.hd_updHd_ne s f h]

/-- Headers agree wherever the header table does. -/
theorem State.hd_congr {s t : State} (h : t.hdr = s.hdr) (b : Block) : t.hd b = s.hd b := by simp [State.hd, h]

theorem State.reg_congr {s t : State} (h : t.regs = s.regs) (r : RegId) : t.reg r = s.reg r := by simp [State.reg, h]

theorem State.regAt_congr {s t : State} (h : t.regs = s.regs) (r : RegId) (d : Nat) : t.regAt r d = s.regAt r d :=
  State.reg_congr h _

theorem State.shReg_congr {s t : State} (h : t.regs = s.regs) (g : t.shadow = s.shadow) (r : RegId) : t.shReg r = s.shReg r := by
  simp [State.shReg, State.reg, h, g]

/-- Registers of one block with offsets in its window have keys of their own. -/
theorem regKey_inj {a b : RegId} (ha : a.off < 0x10000) (hb : b.off < 0x10000) (h : regKey a = regKey b) : a = b := by
  obtain ⟨ab, ao⟩ := a; obtain ⟨bb, bo⟩ := b
  simp only [regKey] at h ha hb
  have hc : ab.code = bb.code := by omega
  have ho : ao = bo := by omega
  rw [Block.code_inj hc, ho]

@[simp] theorem State.reg_setReg_same (s : State) (r : RegId) (w : Word) : (s.setReg r w).reg r = w := by
  by_cases h : w = word (regReset r) <;> simp [State.reg, State.setReg, h]

theorem State.reg_setReg_ne (s : State) {r q : RegId} (w : Word) (h : regKey q ≠ regKey r) : (s.setReg r w).reg q = s.reg q := by
  simp [State.reg, State.setReg, Tab.get_put_ne _ _ _ h]

@[simp] theorem State.shReg_setSh_same (s : State) (r : RegId) (w : Word) : (s.setSh r w).shReg r = w := by
  by_cases h : w = s.reg r <;> simp [State.shReg, State.setSh, State.reg] <;> simp_all [State.reg]

theorem State.shReg_setSh_ne (s : State) {r q : RegId} (w : Word) (h : regKey q ≠ regKey r) : (s.setSh r w).shReg q = s.shReg q := by
  simp [State.shReg, State.setSh, State.reg, Tab.get_put_ne _ _ _ h]

/-- A block's natural boundary changes no header field but RUNNING (R37). -/
@[simp] theorem State.hd_runFollow (s : State) (b : Block) : (s.runFollow b).hd b = { s.hd b with running := (s.hd b).run } := by
  simp [State.runFollow]

theorem State.runFollow_same (s : State) (b : Block) : SameBut [.hdr] s (s.runFollow b) := State.updHd_same s b _

/-! ### The scheduler's operations change the scheduler and what the last read command returned -/

theorem SameBut.mono' {l m : List Part} {s t : State} (h : SameBut l s t) (hl : (l.all fun x => m.contains x) = true) : SameBut m s t :=
  SameBut.mono h fun x hx => by
    have := List.all_eq_true.mp hl x hx
    simpa using this

theorem SameBut.ite {l : List Part} {s t u : State} {c : Prop} [Decidable c] (h : SameBut l s t) (g : SameBut l s u) :
    SameBut l s (if c then t else u) := by split <;> assumption

/-- A record update of the scheduler and the read value leaves every other part alone. -/
theorem State.htsOut_same (s : State) (h : Hts) (o : Nat) : SameBut [.hts, .out] s { s with hts := h, out := o } := fun x hx => by
  cases x <;> first | rfl | exact absurd hx (by decide)

theorem State.hts_same (s : State) (h : Hts) : SameBut [.hts, .out] s { s with hts := h } := fun x hx => by
  cases x <;> first | rfl | exact absurd hx (by decide)

theorem State.dispatch_same (s : State) (c : Nat) (u : DUnit) : SameBut [.hts, .out] s (s.dispatch c u) := by
  cases u <;> exact State.htsOut_same s _ _

theorem State.serve_same (s : State) : SameBut [.hts, .out] s s.serve := by
  unfold State.serve
  split
  · exact SameBut.refl _ _
  · refine SameBut.foldl (fun s c => ?_) _ _
    split
    · split
      · exact State.dispatch_same s c _
      · exact SameBut.refl _ _
    · exact SameBut.refl _ _

theorem State.lapse_same (s : State) : SameBut [.hts, .out] s s.lapse := State.hts_same s _

theorem State.offer_same (s : State) (u : DUnit) : SameBut [.hts, .out] s (s.offer u) := by
  have h : SameBut [.hts, .out] s s.serve.lapse := SameBut.trans (State.serve_same s) (State.lapse_same _)
  unfold State.offer
  dsimp only
  split
  · split
    · split
      · exact h
      · exact SameBut.trans h (State.hts_same _ _)
    · exact h
  · exact h

theorem State.enqueue_same (s : State) (u : DUnit) (head : Bool) : SameBut [.hts, .out] s (s.enqueue u head) := by
  unfold State.enqueue
  cases u <;> exact State.hts_same s _

theorem State.makeReady_same (s : State) (u : DUnit) (head : Bool) : SameBut [.hts, .out] s (s.makeReady u head) :=
  SameBut.trans (State.enqueue_same s u head) (State.offer_same _ u)

theorem State.evalTask_same (s : State) (t : Nat) : SameBut [.hts, .out] s (s.evalTask t) := by
  unfold State.evalTask
  dsimp only
  split
  · exact State.makeReady_same s _ _
  · exact SameBut.refl _ _

theorem State.evalMet_same (s : State) : SameBut [.hts, .out] s s.evalMet :=
  SameBut.trans (SameBut.foldl (fun s u => State.enqueue_same s u false) _ s) (SameBut.foldl State.offer_same _ _)

theorem State.orFlags_same (s : State) (t : Nat) (m : Word) : SameBut [.hts, .out] s (s.orFlags t m) := by
  unfold State.orFlags
  split <;> exact State.hts_same s _

theorem State.raiseFlags_same (s : State) (t : Nat) (m : Word) : SameBut [.hts, .out] s (s.raiseFlags t m) :=
  SameBut.trans (State.orFlags_same s t m) (State.evalTask_same _ t)

theorem State.routeEvt_same (s : State) (b : Block) (k i : Nat) : SameBut [.hts, .out] s (s.routeEvt b k i) := by
  unfold State.routeEvt
  split
  · exact SameBut.refl _ _
  · exact SameBut.trans (SameBut.foldl (fun s r => State.orFlags_same s _ _) _ s) (State.evalMet_same _)

/-! ### Interrupt causes, error logs, records and denials -/

theorem State.irq_same (s : State) (b : Block) (i : Nat) : SameBut [.hdr, .hts, .out] s (s.irq b i) := by
  have h (t : State) (a : Block) (k j : Nat) : SameBut [.hdr, .hts, .out] t (t.routeEvt a k j) := SameBut.mono' (State.routeEvt_same t a k j) rfl
  exact SameBut.trans (SameBut.mono' (State.updHd_same s b _) rfl)
    (SameBut.trans (SameBut.ite (h _ b 15 0) (SameBut.refl _ _)) (SameBut.ite (h _ b (i - 8) 0) (SameBut.refl _ _)))

/-- A raised cause sets its bit of BLK_IRQ_RAW and changes no other header field, of this block or another. -/
theorem State.hdr_irq (s : State) (b : Block) (i : Nat) :
    (s.irq b i).hdr = (s.updHd b fun h => { h with irqRaw := setBit h.irqRaw i }).hdr := by
  have h (t : State) (a : Block) (k j : Nat) : SameBut [.hts, .out] t (t.routeEvt a k j) := State.routeEvt_same t a k j
  exact (SameBut.trans (SameBut.ite (h _ b 15 0) (SameBut.refl _ _)) (SameBut.ite (h _ b (i - 8) 0) (SameBut.refl _ _)) .hdr (by decide)).trans
    (by simp [State.updHd, State.hd, Tab.upd])

theorem State.hd_irq_same (s : State) (b : Block) (i : Nat) :
    (s.irq b i).hd b = { s.hd b with irqRaw := setBit (s.hd b).irqRaw i } := by
  rw [State.hd_congr (State.hdr_irq s b i)]; simp

theorem State.hd_irq_ne (s : State) {a b : Block} (i : Nat) (h : b ≠ a) : (s.irq a i).hd b = s.hd b := by
  rw [State.hd_congr (State.hdr_irq s a i), State.hd_updHd_ne _ _ h]

theorem State.err_same (s : State) (b : Block) (e : Nat) : SameBut [.hdr, .hts, .out] s (s.err b e) :=
  SameBut.trans (SameBut.mono' (State.updHd_same s b _) rfl) (State.irq_same _ b 0)

/-- BLK_ERR after an error (R43): CODE, COUNT, OVF and the ERR cause; no other header field. -/
theorem State.hd_err_same (s : State) (b : Block) (e : Nat) : (s.err b e).hd b =
    { s.hd b with errCode := b.code * 256 + e, errCount := satInc 255 (s.hd b).errCount,
                  errOvf := (s.hd b).errOvf || decide ((s.hd b).errCount = 255), irqRaw := setBit (s.hd b).irqRaw 0 } := by
  simp [State.err, State.hd_irq_same]

theorem State.hd_err_ne (s : State) {a b : Block} (e : Nat) (h : b ≠ a) : (s.err a e).hd b = s.hd b := by
  rw [State.err, State.hd_irq_ne _ _ h, State.hd_updHd_ne _ _ h]

theorem State.record_same (s : State) (b : Block) (inst code : Nat) (ps : List Nat) :
    SameBut [.evr, .hdr, .hts, .out] s (s.record b inst code ps) := by
  have h0 : ∀ e : Evr, SameBut [.evr, .hdr, .hts, .out] s { s with evr := e } := fun e x hx => by
    cases x <;> first | rfl | exact absurd hx (by decide)
  unfold State.record
  dsimp only
  split
  · exact SameBut.trans (h0 _) (SameBut.mono' (State.irq_same _ _ _) rfl)
  · exact h0 _

/-- A record touches no header but EVR's. -/
theorem State.hd_record (s : State) (b : Block) (inst code : Nat) (ps : List Nat) {a : Block} (h : a ≠ .evr) :
    (s.record b inst code ps).hd a = s.hd a := by
  unfold State.record
  dsimp only
  split
  · rw [State.hd_irq_ne _ _ h]; rfl
  · rfl

theorem State.hd_record_evr (s : State) (b : Block) (inst code : Nat) (ps : List Nat) :
    (s.record b inst code ps).hd .evr = s.hd .evr ∨
      (s.record b inst code ps).hd .evr = { s.hd .evr with irqRaw := setBit (s.hd .evr).irqRaw 9 } := by
  unfold State.record
  dsimp only
  split
  · exact .inr (State.hd_irq_same _ _ _)
  · exact .inl rfl

/-- The recorder after a record: it is the recorder to which the record was presented (R391). -/
theorem State.evr_record (s : State) (b : Block) (inst code : Nat) (ps : List Nat) : (s.record b inst code ps).evr =
    s.evr.present { code := code, source := source b inst, time := s.now, p0 := nth 0 ps 0, p1 := nth 0 ps 1, p2 := nth 0 ps 2, p3 := nth 0 ps 3 } := by
  unfold State.record
  dsimp only
  split
  · exact State.irq_same _ _ _ .evr (by decide)
  · rfl

theorem State.deny_same (s : State) (b : Block) (off : Nat) (p : Principal) (v : Word) :
    SameBut [.sys, .evr, .hdr, .hts, .out] s (s.deny b off p v) := by
  have h := SameBut.trans (SameBut.mono' (m := [.sys, .evr, .hdr, .hts, .out]) (State.err_same s b errAccessDenied) rfl)
    (SameBut.mono' (State.record_same _ .sys 0 0x0110 [b.code + off * 256, p.code, v.toNat]) rfl)
  unfold State.deny
  dsimp only
  split
  · exact h
  · exact SameBut.trans h fun x hx => by cases x <;> first | rfl | exact absurd hx (by decide)

/-- A denial records ACCESS_DENIED in the target (R49). -/
theorem State.hd_deny (s : State) {b : Block} (off : Nat) (p : Principal) (v : Word) (h : b ≠ .evr) :
    (s.deny b off p v).hd b = (s.err b errAccessDenied).hd b := by
  unfold State.deny
  dsimp only
  split
  · exact State.hd_record _ _ _ _ _ h
  · exact State.hd_record _ _ _ _ _ h

/-- SYS_DENY_LOG keeps the first denied write (R49). -/
theorem State.deny_log (s : State) (b : Block) (off : Nat) (p : Principal) (v : Word) :
    (s.deny b off p v).sys.deny = some (s.sys.deny.getD { blk := b.code, off := off, principal := p.code }) := by
  have hs : ((s.err b errAccessDenied).record .sys 0 0x0110 [b.code + off * 256, p.code, v.toNat]).sys = s.sys :=
    (State.record_same _ _ _ _ _ .sys (by decide)).trans (State.err_same s b _ .sys (by decide))
  unfold State.deny
  dsimp only
  rw [hs]
  cases h : s.sys.deny <;> simp [hs, h]

theorem State.coreFault_same (s : State) (c code addr : Nat) (i : Bool) : SameBut [.cpu] s (s.coreFault c code addr i) := fun x hx => by
  cases x <;> first | rfl | exact absurd hx (by decide)

theorem State.hifLog_same (s : State) (code bar off : Nat) : SameBut [.hif] s (s.hifLog code bar off) := by
  unfold State.hifLog
  split
  · exact SameBut.refl _ _
  · exact fun x hx => by cases x <;> first | rfl | exact absurd hx (by decide)

theorem State.tell_same (s : State) (r : Requester) (blk e addr : Nat) : SameBut [.cpu, .hif, .hdr, .hts, .out] s (s.tell r blk e addr) := by
  cases r
  · exact SameBut.mono' (State.err_same s _ _) rfl
  · exact SameBut.mono' (State.coreFault_same s _ _ _ _) rfl
  · exact SameBut.mono' (State.hifLog_same s _ _ _) rfl

theorem State.tellPrincipal_same (s : State) (p : Principal) (blk e addr : Nat) :
    SameBut [.cpu, .hif, .hdr, .hts, .out] s (s.tellPrincipal p blk e addr) := by
  cases p <;> first | exact State.tell_same s _ _ _ _ | exact SameBut.refl _ _

theorem State.storeFault_same (s : State) (p : Principal) (b : Block) (e addr : Nat) : SameBut [.cpu] s (s.storeFault p b e addr) := by
  cases p <;> first | exact State.coreFault_same s _ _ _ _ | exact SameBut.refl _ _

theorem State.draw_same (s : State) : SameBut [.free] s s.draw.2 := fun x hx => by
  cases x <;> first | rfl | exact absurd hx (by decide)

/-! ### The gate of a register write -/

theorem State.writeOk_iff (s : State) (b : Block) (off : Nat) (a : Access) (p : Principal) : s.writeOk b off a p = true ↔
    s.present b = true ∧ s.permits p b.code = true ∧ ((s.hd b).lock && lockHolds a off) = false := by
  cases h : (s.hd b).lock <;> simp [State.writeOk, h, and_assoc]

/-- A write that reaches its register has its effect. -/
theorem State.gated_ok {s : State} {b : Block} {off : Nat} {a : Access} {p : Principal} (v : Word) (f : State → State)
    (h : s.writeOk b off a p = true) : s.gated b off a p v f = f s := by
  obtain ⟨h1, h2, h3⟩ := (State.writeOk_iff s b off a p).mp h
  simp [State.gated, State.gateStop, h1, h2, h3]

/-- A write to an absent block only tells its requester (R44, R46). -/
theorem State.gated_absent {s : State} {b : Block} (off : Nat) (a : Access) (p : Principal) (v : Word) (f : State → State)
    (h : s.present b = false) : s.gated b off a p v f = s.tellPrincipal p b.code errBlockAbsent (b.base + off) := by
  simp [State.gated, State.gateStop, h]

/-- A write outside the protection map is denied (R49). -/
theorem State.gated_denied {s : State} {b : Block} (off : Nat) (a : Access) {p : Principal} (v : Word) (f : State → State)
    (h : s.present b = true) (g : s.permits p b.code = false) :
    s.gated b off a p v f = (s.deny b off p v).storeFault p b errAccessDenied (b.base + off) := by
  simp [State.gated, State.gateStop, h, g]

/-- A write to a locked field records REG_LOCKED (R42). -/
theorem State.gated_locked {s : State} {b : Block} {off : Nat} {a : Access} {p : Principal} (v : Word) (f : State → State)
    (h : s.present b = true) (g : s.permits p b.code = true) (l : (s.hd b).lock = true) (k : lockHolds a off = true) :
    s.gated b off a p v f = s.err b errRegLocked := by
  simp [State.gated, State.gateStop, h, g, l, k]

/-- What a stopped write changes: headers, the scheduler through interrupt routes, the log of denied writes, its record and the requester's log. -/
theorem State.gateStop_same {s t : State} {b : Block} {off : Nat} {a : Access} {p : Principal} {v : Word} (h : s.gateStop b off a p v = some t) :
    SameBut [.sys, .evr, .cpu, .hif, .hdr, .hts, .out] s t := by
  unfold State.gateStop at h
  split at h
  · cases h; exact SameBut.mono' (State.tellPrincipal_same s _ _ _ _) rfl
  · split at h
    · cases h; exact SameBut.trans (SameBut.mono' (State.deny_same s _ _ _ _) rfl) (SameBut.mono' (State.storeFault_same _ _ _ _ _) rfl)
    · split at h
      · cases h; exact SameBut.mono' (State.err_same s _ _) rfl
      · cases h

/-- A gated write changes what its effect changes and what a stopped write changes. -/
theorem State.gated_same {l : List Part} (s : State) (b : Block) (off : Nat) (a : Access) (p : Principal) (v : Word) {f : State → State}
    (h : SameBut l s (f s)) (hl : ([Part.sys, .evr, .cpu, .hif, .hdr, .hts, .out].all fun x => l.contains x) = true) :
    SameBut l s (s.gated b off a p v f) := by
  unfold State.gated
  split
  · rename_i t ht; exact SameBut.mono' (State.gateStop_same ht) hl
  · exact h

/-! ### Memory -/

/-- A byte just stored is read back; every byte outside the stored ones reads as before. -/
theorem State.mem8_store_out (s : State) (a : Nat) (bs : List Byte) {x : Nat} (h : x < a ∨ a + bs.length ≤ x) : (s.store a bs).mem8 x = s.mem8 x :=
  Tab.get_putList_out 0 bs s.mem a x h

theorem State.load_store (s : State) (a : Nat) (bs : List Byte) : (s.store a bs).load a bs.length = bs := Tab.getList_putList 0 bs s.mem a

theorem State.storeRam_same (s : State) (a : Nat) (bs : List Byte) : SameBut [.mem] s (s.storeRam a bs) := by
  unfold State.storeRam
  split
  · exact State.store_same s a bs
  · exact SameBut.refl _ _

/-- Every memory operation keeps the canonical form. -/
theorem State.store_wf (s : State) (a : Nat) (bs : List Byte) (h : Memory.wf s.mem = true) : Memory.wf (s.store a bs).mem = true :=
  Tab.wf_putList bs _ a h

theorem State.store32_wf (s : State) (a : Nat) (w : Word) (h : Memory.wf s.mem = true) : Memory.wf (s.store32 a w).mem = true :=
  State.store_wf s a _ h

theorem State.storeRam_wf (s : State) (a : Nat) (bs : List Byte) (h : Memory.wf s.mem = true) : Memory.wf (s.storeRam a bs).mem = true := by
  unfold State.storeRam
  split
  · exact State.store_wf s a bs h
  · exact h

/-! ### The retention store -/

theorem State.retPut_same (s : State) (i : Nat) (v : Word) (w : Block) : SameBut [.ret] s (s.retPut i v w) := by
  unfold State.retPut
  dsimp only
  split
  · exact fun x hx => by cases x <;> first | rfl | exact absurd hx (by decide)
  · split <;> exact fun x hx => by cases x <;> first | rfl | exact absurd hx (by decide)

theorem State.retPutList_same (w : Block) : ∀ (vs : List Word) (s : State) (i : Nat), SameBut [.ret] s (s.retPutList i w vs)
  | [], s, _ => SameBut.refl _ s
  | _ :: vs, s, i => SameBut.trans (State.retPut_same s i _ w) (State.retPutList_same w vs _ (i + 1))

end Sys2Proof.Machine
end

