-- ==== Sys2Proof/Laws/Inv.lean ====
section
/-!
SUPPORT. The invariant of `Sys2Proof.Safety` through the shared operations: what leaves memory, recorder, error manager and retention store alone keeps
it, and so do event records, raised errors, stores and retention writes. A meaning keeps it by citing these.
-/

namespace Sys2Proof.Machine

theorem Part.of_same {l : List Part} {s t : State} (h : SameBut l s t) {x : Part} (hx : l.contains x = false) : x.same s t :=
  h x (by simpa using hx)

/-- What leaves the four parts alone keeps the invariant. -/
theorem State.Inv.of_same {l : List Part} {s t : State} (i : s.Inv) (h : SameBut l s t)
    (hl : (l.contains .mem || l.contains .evr || l.contains .erm || l.contains .ret) = false) : t.Inv := by
  simp only [Bool.or_eq_false_iff] at hl
  have hm : t.mem = s.mem := Part.of_same h hl.1.1.1
  have he : t.evr = s.evr := Part.of_same h hl.1.1.2
  have hq : t.erm = s.erm := Part.of_same h hl.1.2
  have hr : t.ret = s.ret := Part.of_same h hl.2
  exact ⟨hm ▸ i.mem, he ▸ i.evrQueues, he ▸ i.evrSafe, hq ▸ i.ermQueue, hr ▸ i.retPend⟩

/-- Memory may change where its form is kept, the recorder where its queues stay bounded, and so on. -/
theorem State.Inv.mk' {s t : State} (i : s.Inv) (hm : t.mem = s.mem ∨ Memory.wf t.mem = true)
    (he : t.evr = s.evr ∨ (∀ w, (Tab.get [] t.evr.queues w).length ≤ 4) ∧ t.evr.safeBuf.length ≤ 64)
    (hq : t.erm.queue = s.erm.queue ∨ t.erm.queue.length ≤ 16) (hr : t.ret = s.ret ∨ t.ret.pend.length ≤ 16384) : t.Inv :=
  ⟨hm.elim (fun h => h ▸ i.mem) id, he.elim (fun h => h ▸ i.evrQueues) And.left, he.elim (fun h => h ▸ i.evrSafe) And.right,
    hq.elim (fun h => h ▸ i.ermQueue) id, hr.elim (fun h => h ▸ i.retPend) id⟩

theorem State.Inv.foldl {α : Type} {f : State → α → State} (h : ∀ s x, s.Inv → (f s x).Inv) : ∀ (xs : List α) (s : State), s.Inv → (xs.foldl f s).Inv
  | [], _, i => i
  | x :: xs, s, i => State.Inv.foldl h xs (f s x) (h s x i)

theorem State.Inv.ite {c : Prop} [Decidable c] {s t : State} (h : c → s.Inv) (g : ¬ c → t.Inv) : (if c then s else t).Inv := by
  split
  · exact h ‹_›
  · exact g ‹_›

/-! ### The recorder -/

/-- A record presented keeps every writer's queue at four or fewer and the freeze's buffer at 64 or fewer (R391, R393). -/
theorem Evr.present_bounds (e : Evr) (r : EvRec) (h : ∀ w, (Tab.get [] e.queues w).length ≤ 4) (g : e.safeBuf.length ≤ 64) :
    (∀ w, (Tab.get [] (e.present r).queues w).length ≤ 4) ∧ (e.present r).safeBuf.length ≤ 64 := by
  unfold Evr.present
  split
  · split
    · rename_i hb; exact ⟨h, by simp only [List.length_append, List.length_singleton]; omega⟩
    · exact ⟨h, g⟩
  · dsimp only
    split
    · rename_i hd
      refine ⟨fun w => ?_, g⟩
      rw [Tab.get_put]
      split
      · simp only [evrDepth] at hd; simp only [List.length_append, List.length_singleton]; omega
      · exact h w
    · exact ⟨h, g⟩

theorem State.record_inv (s : State) (b : Block) (inst code : Nat) (ps : List Nat) (i : s.Inv) : (s.record b inst code ps).Inv := by
  have h := State.record_same s b inst code ps
  refine i.mk' (.inl (h .mem (by decide))) (.inr ?_) (.inl (congrArg Erm.queue (h .erm (by decide)))) (.inl (h .ret (by decide)))
  rw [State.evr_record]
  exact Evr.present_bounds s.evr _ i.evrQueues i.evrSafe

theorem State.irq_inv (s : State) (b : Block) (n : Nat) (i : s.Inv) : (s.irq b n).Inv := i.of_same (State.irq_same s b n) rfl

theorem State.err_inv (s : State) (b : Block) (e : Nat) (i : s.Inv) : (s.err b e).Inv := i.of_same (State.err_same s b e) rfl

theorem State.updHd_inv (s : State) (b : Block) (f : Hdr → Hdr) (i : s.Inv) : (s.updHd b f).Inv := i.of_same (State.updHd_same s b f) rfl

theorem State.setReg_inv (s : State) (r : RegId) (w : Word) (i : s.Inv) : (s.setReg r w).Inv := i.of_same (State.setReg_same s r w) rfl

theorem State.setSh_inv (s : State) (r : RegId) (w : Word) (i : s.Inv) : (s.setSh r w).Inv := i.of_same (State.setSh_same s r w) rfl

theorem State.deny_inv (s : State) (b : Block) (off : Nat) (p : Principal) (v : Word) (i : s.Inv) : (s.deny b off p v).Inv := by
  have h : ((s.err b errAccessDenied).record .sys 0 0x0110 [b.code + off * 256, p.code, v.toNat]).Inv :=
    State.record_inv _ _ _ _ _ (State.err_inv s b _ i)
  unfold State.deny
  dsimp only
  split
  · exact h
  · exact h.mk' (.inl rfl) (.inl rfl) (.inl rfl) (.inl rfl)

theorem State.tellPrincipal_inv (s : State) (p : Principal) (blk e a : Nat) (i : s.Inv) : (s.tellPrincipal p blk e a).Inv :=
  i.of_same (State.tellPrincipal_same s p blk e a) rfl

theorem State.tell_inv (s : State) (r : Requester) (blk e a : Nat) (i : s.Inv) : (s.tell r blk e a).Inv := i.of_same (State.tell_same s r blk e a) rfl

/-- A gated write keeps the invariant where its effect does. -/
theorem State.gated_inv (s : State) (b : Block) (off : Nat) (a : Access) (p : Principal) (v : Word) {f : State → State} (i : s.Inv)
    (h : (f s).Inv) : (s.gated b off a p v f).Inv := by
  unfold State.gated State.gateStop
  split
  · rename_i t ht
    split at ht
    · cases ht; exact State.tellPrincipal_inv s _ _ _ _ i
    · split at ht
      · cases ht; exact (State.deny_inv s b off p v i).of_same (State.storeFault_same _ p b _ _) rfl
      · split at ht
        · cases ht; exact State.err_inv s b _ i
        · cases ht
  · exact h

/-! ### Memory and the retention store -/

theorem State.store_inv (s : State) (a : Nat) (bs : List Byte) (i : s.Inv) : (s.store a bs).Inv :=
  i.mk' (.inr (State.store_wf s a bs i.mem)) (.inl rfl) (.inl rfl) (.inl rfl)

theorem State.storeRam_inv (s : State) (a : Nat) (bs : List Byte) (i : s.Inv) : (s.storeRam a bs).Inv := by
  unfold State.storeRam
  split
  · exact State.store_inv s a bs i
  · exact i

theorem State.retPut_inv (s : State) (n : Nat) (v : Word) (w : Block) (i : s.Inv) : (s.retPut n v w).Inv := by
  unfold State.retPut
  dsimp only
  split
  · exact i.mk' (.inl rfl) (.inl rfl) (.inl rfl) (.inr (by simpa using i.retPend))
  · split
    · rename_i h; exact i.mk' (.inl rfl) (.inl rfl) (.inl rfl) (.inr (by simp only [retPendMax] at h; simp only [List.length_append, List.length_singleton]; omega))
    · exact i.mk' (.inl rfl) (.inl rfl) (.inl rfl) (.inr i.retPend)

theorem State.retPutList_inv (w : Block) : ∀ (vs : List Word) (s : State) (n : Nat), s.Inv → (s.retPutList n w vs).Inv
  | [], _, _, i => i
  | v :: vs, s, n, i => State.retPutList_inv w vs _ (n + 1) (State.retPut_inv s n v w i)

/-! ### The FATAL reaction's outputs -/

theorem State.pmcRollback_same (s : State) (b c : Nat) : SameBut [.free, .pmc] s (s.pmcRollback b c) := by
  unfold State.pmcRollback
  split
  · exact SameBut.refl _ _
  · by_cases h : c ≤ 1 <;> simp only [h, if_true, if_false] <;> exact fun x hx => by cases x <;> first | rfl | exact absurd hx (by decide)

theorem State.fioSilence_same (s : State) : SameBut [.fio] s s.fioSilence := by
  unfold State.fioSilence
  split
  · exact SameBut.refl _ _
  · exact SameBut.trans (State.updFio_same s _) (SameBut.trans (SameBut.foldl (fun s g => State.updFio_same s _) (List.range 2) _)
      (SameBut.trans (State.updFio_same _ _) (State.updFio_same _ _)))

theorem State.edmStart_same (s : State) (c m : Nat) : SameBut [.saf] s (s.edmStart c m) := by
  unfold State.edmStart
  split
  · exact State.updSaf_same s _
  · exact SameBut.refl _ _

theorem State.causeShow_same (s : State) (i k : Nat) : SameBut [.saf] s (s.causeShow i k) := State.updSaf_same s _

theorem State.updSOut_same (s : State) (c m : Nat) (f : SOut → SOut) : SameBut [.saf] s (s.updSOut c m f) := State.updSaf_same s _

theorem State.safFatal_same (s : State) : SameBut [.saf] s s.safFatal := by
  refine SameBut.foldl (fun s c => SameBut.foldl (fun s m => ?_) _ s) _ s
  exact SameBut.ite (SameBut.trans (SameBut.trans (State.updSOut_same s c m _) (State.causeShow_same _ _ _)) (State.edmStart_same _ c m)) (SameBut.refl _ _)

/-- The outputs that the FATAL reaction acts on (R478). -/
theorem State.fatalOutputs_same (s : State) : SameBut [.free, .mot, .csc, .fio, .saf, .lne, .pmc] s s.fatalOutputs := by
  have h1 : SameBut [.free, .mot, .csc, .fio, .saf, .lne, .pmc] s s.padsLow := fun x hx => by
    cases x <;> first | rfl | exact absurd hx (by decide)
  have h4 (t : State) : SameBut [.free, .mot, .csc, .fio, .saf, .lne, .pmc] t t.laneHalt := fun x hx => by
    cases x <;> first | rfl | exact absurd hx (by decide)
  exact SameBut.trans (SameBut.trans (SameBut.trans (SameBut.trans h1 (SameBut.mono' (State.fioSilence_same _) rfl))
    (SameBut.mono' (State.safFatal_same _) rfl)) (h4 _)) (SameBut.mono' (State.pmcRollback_same _ _ _) rfl)

/-! ### Raised errors -/

theorem takeWorst_length : ∀ (l : List ErrEnt) {c : ErrEnt} {q : List ErrEnt}, takeWorst l = some (c, q) → q.length + 1 = l.length
  | [], _, _, h => by cases h
  | e :: t, c, q, h => by
    unfold takeWorst at h
    split at h
    · rename_i hn
      cases h
      cases t with
      | nil => rfl
      | cons a t =>
        unfold takeWorst at hn
        split at hn
        · cases hn
        · split at hn <;> cases hn
    · rename_i f r ht
      have := takeWorst_length t ht
      split at h <;> cases h <;> simp only [List.length_cons] <;> omega

/-- Making the next error current never lengthens the queue (R474). -/
theorem Erm.promote_queue (a : Bool) : ∀ (n : Nat) (e : Erm), (Erm.promote a n e).queue.length ≤ e.queue.length
  | 0, _ => Nat.le_refl _
  | n + 1, e => by
    unfold Erm.promote
    split
    · split
      · exact Erm.promote_queue a n _
      · exact Nat.le_refl _
    · split
      · exact Nat.le_refl _
      · rename_i c q h
        have := takeWorst_length _ h
        have := Erm.promote_queue a n { e with cur := some c, queue := q }
        simp only at this
        omega

@[simp] theorem Erm.driveErrN_queue (e : Erm) : e.driveErrN.queue = e.queue := by unfold Erm.driveErrN; split <;> rfl

theorem State.ermQueue_inv {s : State} (e : Erm) (i : s.Inv) (h : e.queue.length ≤ 16) : ({ s with erm := e } : State).Inv :=
  i.mk' (.inl rfl) (.inl rfl) (.inr h) (.inl rfl)

theorem State.settleErm_inv (s : State) (i : s.Inv) : s.settleErm.Inv := by
  have h : ∀ (a : Bool) (n : Nat), ({ s with erm := (Erm.promote a n s.erm).driveErrN } : State).Inv := fun a n =>
    State.ermQueue_inv _ i (by simpa using Nat.le_trans (Erm.promote_queue a n s.erm) i.ermQueue)
  unfold State.settleErm
  exact State.Inv.ite (fun _ => State.irq_inv _ _ _ (h _ _)) (fun _ => h _ _)

theorem State.fatalReaction_inv (s : State) (code src cause : Nat) (i : s.Inv) : (s.fatalReaction code src cause).Inv := by
  have h := State.record_inv s .erm 0 0x0412 [code, src, cause] i
  exact State.Inv.of_same (State.ermQueue_inv (s := s.record .erm 0 0x0412 [code, src, cause]) { (s.record .erm 0 0x0412 [code, src, cause]).erm with
    fatal := true, fatalLog := _, errNLow := true } h h.ermQueue) (State.fatalOutputs_same _) rfl

theorem State.fatalError_inv (s : State) (code src cause : Nat) (i : s.Inv) : (s.fatalError code src cause).Inv :=
  State.Inv.ite (fun _ => i) (fun _ => State.fatalReaction_inv s code src cause i)

@[simp] theorem Erm.modify_queue_length (e : Erm) (code : Nat) (f : ErrEnt → ErrEnt) : (e.modify code f).queue.length = e.queue.length := by
  simp [Erm.modify]

/-- A preempting error swaps places with the current one, so that the queue does not grow (R475). -/
theorem Erm.preemptQueued_queue (e : Erm) (code : Nat) : (e.preemptQueued code).queue.length ≤ e.queue.length := by
  unfold Erm.preemptQueued
  split
  · rename_i c x hc hx
    split
    · have hm := List.mem_of_find?_eq_some hx
      have hp := List.find?_some hx
      have : (e.queue.filter fun y => decide (y.code ≠ code)).length < e.queue.length :=
        List.length_filter_lt_length_iff_exists.mpr ⟨x, hm, by simpa using hp⟩
      simp only [List.length_cons]; omega
    · exact Nat.le_refl _
  · exact Nat.le_refl _

theorem State.handleError_inv (s : State) (code src : Nat) (sev : Severity) (i : s.Inv) : (s.handleError code src sev).Inv := by
  unfold State.handleError
  split
  · exact State.fatalError_inv s _ _ _ i
  · split
    · rename_i x _
      split
      · exact State.ermQueue_inv _ i (by simpa using i.ermQueue)
      · have h1 := State.record_inv s .erm 0 0x0411 [code, x.sev.code, (sevUp x.sev).code] i
        dsimp only
        split
        · exact State.fatalError_inv _ _ _ _ (State.ermQueue_inv _ h1 (by simpa using h1.ermQueue))
        · have h3 : ({ s.record .erm 0 0x0411 [code, x.sev.code, (sevUp x.sev).code] with erm :=
              ((((s.record .erm 0 0x0411 [code, x.sev.code, (sevUp x.sev).code]).erm.modify code fun e =>
                { e with sev := sevUp x.sev, escalated := true })).preemptQueued code).driveErrN } : State).Inv :=
            State.ermQueue_inv _ h1 (by
              have := Erm.preemptQueued_queue ((s.record .erm 0 0x0411 [code, x.sev.code, (sevUp x.sev).code]).erm.modify code fun e =>
                { e with sev := sevUp x.sev, escalated := true }) code
              have := h1.ermQueue
              simp_all; omega)
          exact State.Inv.ite (fun _ => State.irq_inv _ _ _ h3) (fun _ => h3)
    · split
      · exact State.settleErm_inv _ (State.irq_inv _ _ _ (State.ermQueue_inv _ i i.ermQueue))
      · split
        · exact State.fatalError_inv s _ _ _ i
        · rename_i hq
          simp only [ermQueueMax] at hq
          split
          · exact State.settleErm_inv _ (State.irq_inv _ _ _ (State.ermQueue_inv _ i (by simp only [List.length_cons]; omega)))
          · exact State.ermQueue_inv _ i (by simp only [List.length_append, List.length_singleton]; omega)

/-- A raised error keeps the invariant (R473–R478). -/
theorem State.raise_inv (s : State) (b : Block) (inst code : Nat) (sev : Severity) (i : s.Inv) : (s.raise b inst code sev).Inv := by
  have h : ({ s with erm := { s.erm with cnt := Tab.upd 0 s.erm.cnt sev.code (satInc 0xFFFFFFFF) } } : State).Inv := State.ermQueue_inv _ i i.ermQueue
  unfold State.raise
  dsimp only
  split
  · exact h
  · split
    · exact State.handleError_inv _ _ _ _ (State.record_inv _ _ _ _ _ h)
    · split
      · exact State.handleError_inv _ _ _ _ h
      · exact h

theorem State.raiseNoCode_inv (s : State) (b : Block) (inst : Nat) (sev : Severity) (i : s.Inv) : (s.raiseNoCode b inst sev).Inv :=
  State.raise_inv _ _ _ _ _ (i.of_same (State.draw_same s) rfl)

theorem State.raiseSafePath_inv (s : State) (b : Block) (inst code : Nat) (i : s.Inv) : (s.raiseSafePath b inst code).Inv :=
  State.Inv.ite (fun _ => State.ermQueue_inv _ i i.ermQueue) (fun _ => State.Inv.ite
    (fun _ => State.fatalError_inv _ _ _ _ (State.record_inv _ _ _ _ _ (State.ermQueue_inv _ i i.ermQueue)))
    (fun _ => State.fatalError_inv _ _ _ _ (State.ermQueue_inv _ i i.ermQueue)))

end Sys2Proof.Machine
end

