-- ==== Sys2Proof/Laws/Reset.lean ====
section
/-!
SUPPORT. What the shared operations of fences, power-downs and resets change, and that they keep the invariant: a commit that a fence discards, a stage that
a reset ends, the transitions of axes, and the release of a freeze.
-/

namespace Sys2Proof.Machine

/-! ### A pending commit that is discarded (Table SYS-5) -/

theorem State.dropShadows_same (s : State) (b : Block) : SameBut [.shadow] s (s.dropShadows b) := fun x hx => by
  cases x <;> first | rfl | exact absurd hx (by decide)

theorem State.discardCommit_same (s : State) (b : Block) : SameBut [.shadow, .hdr] s (s.discardCommit b) :=
  SameBut.trans (SameBut.mono' (State.dropShadows_same s b) rfl) (SameBut.mono' (State.updHd_same _ b _) rfl)

theorem State.fenceCommit_same (s : State) (b : Block) : SameBut [.shadow, .hdr] s (s.fenceCommit b) :=
  SameBut.ite (State.discardCommit_same s b) (SameBut.refl _ _)

@[simp] theorem State.hd_discardCommit (s : State) (b : Block) : (s.discardCommit b).hd b = { s.hd b with commitPending := false } := by
  have h : (s.dropShadows b).hd b = s.hd b := rfl
  simp [State.discardCommit, h]

/-- After a fence no commit of the block is pending (Table SYS-5). -/
@[simp] theorem State.hd_fenceCommit (s : State) (b : Block) : ((s.fenceCommit b).hd b).commitPending = false := by
  unfold State.fenceCommit
  split
  · simp
  · simpa using ‹¬(s.hd b).commitPending = true›

theorem State.fenceCommit_inv (s : State) (b : Block) (i : s.Inv) : (s.fenceCommit b).Inv := i.of_same (State.fenceCommit_same s b) rfl

/-! ### The end of a stage (R53, R56) -/

theorem State.dcEnd_same (s : State) (target result : Nat) (idle : Bool) : SameBut [.sys, .evr, .hdr, .hts, .out] s (s.dcEnd target result idle) :=
  SameBut.trans (SameBut.mono' (State.updDc_same s _) rfl) (SameBut.mono' (State.record_same _ _ _ _ _) rfl)

theorem State.dcEnd_inv (s : State) (target result : Nat) (idle : Bool) (i : s.Inv) : (s.dcEnd target result idle).Inv :=
  State.record_inv _ _ _ _ _ (i.of_same (State.updDc_same s _) rfl)

theorem State.dcAbandon_same (s : State) : SameBut [.free, .sys, .evr, .hdr, .hts, .out] s s.dcAbandon :=
  SameBut.trans (SameBut.ite (SameBut.refl _ _) (SameBut.trans (SameBut.mono' (State.draw_same s) rfl) (SameBut.mono' (State.dcEnd_same _ _ _ _) rfl)))
    (SameBut.mono' (State.updDc_same _ _) rfl)

theorem State.dcAbandon_inv (s : State) (i : s.Inv) : s.dcAbandon.Inv :=
  State.Inv.of_same (State.Inv.ite (fun _ => i) fun _ => State.dcEnd_inv _ _ _ _ (i.of_same (State.draw_same s) rfl)) (State.updDc_same _ _) rfl

/-! ### Axes that leave with their power (Table MOT-6) -/

theorem State.updAxis_same (s : State) (n : Nat) (f : Axis → Axis) : SameBut [.mot] s (s.updAxis n f) := fun x hx => by
  cases x <;> first | rfl | exact absurd hx (by decide)

theorem State.axisTo_same (s : State) (n : Nat) (st : AxState) (cause : Nat) : SameBut [.mot, .evr, .hdr, .hts, .out] s (s.axisTo n st cause) :=
  SameBut.trans (SameBut.mono' (State.updAxis_same s n _) rfl) (SameBut.mono' (State.record_same _ _ _ _ _) rfl)

theorem State.axisTo_inv (s : State) (n : Nat) (st : AxState) (cause : Nat) (i : s.Inv) : (s.axisTo n st cause).Inv :=
  State.record_inv _ _ _ _ _ (i.of_same (State.updAxis_same s n _) rfl)

theorem State.axesLeave_same (s : State) : SameBut [.free, .mot, .evr, .hdr, .hts, .out] s s.axesLeave :=
  SameBut.foldl (fun s _ => SameBut.trans (SameBut.mono' (State.draw_same s) rfl) (SameBut.mono' (State.axisTo_same _ _ _ _) rfl)) _ s

theorem State.axesLeave_inv (s : State) (i : s.Inv) : s.axesLeave.Inv :=
  State.Inv.foldl (fun s _ i => State.axisTo_inv _ _ _ _ (i.of_same (State.draw_same s) rfl)) _ s i

/-! ### Headers -/

/-- After a full device reset every header holds its reset value but for the supplies of the island and the field die (R35). -/
theorem State.hdrFull_get (s : State) (k : Nat) : Tab.get {} s.hdrFull k =
    if k = 16 then { pwr := (s.hd .fio).pwr } else if k = 15 then { pwr := (s.hd .saf).pwr } else Tab.get {} hdrReset k := by
  simp [State.hdrFull, Tab.get_put]

end Sys2Proof.Machine
end

