-- ==== Sys2Proof/WellFormed.lean ====
section
/-!
DEFINITION. Well-formed commands: what the types of the operands do not already say, from the widths and lengths that the spec gives frames, samples and
times. The machine gives every command a meaning, well-formed or not.
-/

namespace Sys2Proof
open Machine

/-- An access of 1, 2, 4 or 8 bytes (R33, R65, R339). -/
def sizeOk (n : Fin 9) : Bool := decide (n.val = 1) || decide (n.val = 2) || decide (n.val = 4) || decide (n.val = 8)

/-- A device address of 36 bits (R10: a slot of 64 GiB), or a core's CSR. -/
def Machine.RegTarget.ok : RegTarget → Bool
  | .addr a => decide (a < 2 ^ 36)
  | .wdtCfg _ => true

/-- A local index (R9). -/
def idxOk (i : Nat) : Bool := decide (i < 524288)

/-- A network time of 64 bits in ns (R346). -/
def timeOk (t : Nat) : Bool := decide (t < 2 ^ 64)

/-- A supply or current reading of 16 bits in mV or mA (Table FIO-4). -/
def milliOk (x : Nat) : Bool := decide (x < 65536)

/-- The fields of a Valnath header (Table AVE-2). -/
def Machine.AHdr.ok (h : AHdr) : Bool := decide (h.dst < 64) && decide (h.src < 64) && decide (h.hops < 64) && decide (h.tag < 65536)

/-- The records of a PT_A or PT_B frame: 1 to `n` (Table AVE-3). -/
def recsOk (n : Nat) (l : List PtRec) : Bool := decide (1 ≤ l.length) && decide (l.length ≤ n) && l.all fun r => idxOk r.idx

/-- The offset of a fabric request in the target's 64 GiB slot, aligned to its size (R339, Table AVE-3). -/
def slotOk (off : Nat) (wide : Bool) : Bool := decide (off < 2 ^ 36) && decide (off % (if wide then 8 else 4) = 0)

/-- The data of a fabric write (Table AVE-3). -/
def dataOk (wide : Bool) (v : Nat) : Bool := decide (v < 2 ^ (if wide then 64 else 32))

/-- A CTRL grant message names devices of the fabric (R8) and point IDs of 25 bits (R9). -/
def Machine.Grant.ok : Grant → Bool
  | .recReq dev _ => decide (dev < 64)
  | .recAns _ _ => true
  | .sub gid code => decide (gid < 2 ^ 25) && decide (code < 256)
  | .flow dst code => decide (dst < 64) && decide (code < 256)
  | .credit seq => decide (seq < 2 ^ 32)

/-- The body of a Lane frame: an Ethernet payload of at most 1500 bytes with the 8-byte Lane header (R310). -/
def laneBodyOk (b : List Byte) : Bool := decide (b.length ≤ 1492)

/-- The TYPE and result of an ACK (R311): CFG or CMD, results 0 to 4. -/
def ackOk (typ res : Nat) : Bool := (decide (typ = 8) || decide (typ = 9)) && decide (res ≤ 4)

/-- An Ethernet frame has its addresses and its type (R325). -/
def ethOk (f : List Byte) : Bool := decide (14 ≤ f.length)

/-- Eight readings of 16 bits (R303). -/
def readingsOk (l : List Int) : Bool := decide (l.length = 8) && l.all fun x => decide (-32768 ≤ x) && decide (x ≤ 32767)

/-- A DMA descriptor: 64-bit host and device addresses (Table HIF-2). -/
def Machine.HDesc.ok (d : HDesc) : Bool := decide (d.hostAddr < 2 ^ 64) && decide (d.devAddr < 2 ^ 64)

/-- A CAN frame (R431, Table CAN-1): an 11-bit or 29-bit identifier, no bit-rate switch in a classical frame, and the bytes of its length. -/
def canOk (id : BitVec 29) (xtd fdf brs : Bool) (dlc : Nat) (data : List Byte) : Bool :=
  (xtd || decide (id.toNat < 2048)) && (fdf || !brs) && decide (data.length ≤ (if fdf then 64 else 8)) && (fdf || decide (data.length ≤ dlc))

/-- Well-formed commands. -/
def Instr.wf : Instr → Bool
  | .registerWrite tgt _ size _ => tgt.ok && sizeOk size
  | .blockEnable _ _ _ => true
  | .blockRun _ _ _ => true
  | .softRst _ _ => true
  | .freeze _ _ _ => true
  | .irqClear _ _ _ => true
  | .blkErrClear _ _ => true
  | .commit _ _ => true
  | .discard _ _ => true
  | .commitApply _ => true
  | .lock _ _ => true
  | .fenceDrainEnd _ _ => true
  | .dcStage _ _ => true
  | .dcCancel _ _ => true
  | .dcCopyDone => true
  | .dcSubmit _ => true
  | .dcTagVerify => true
  | .dcStageExpired => true
  | .dcKeyWrite _ _ _ => true
  | .dcEnroll _ _ _ => true
  | .denyLogClear _ => true
  | .ptdEntGo _ _ => true
  | .ptdEntCheckDone => true
  | .histGrantTimeout => true
  | .hotEntryWrite _ _ _ _ _ _ => true
  | .staleTimeout idx => idxOk idx
  | .force _ => true
  | .release _ => true
  | .releaseAll _ => true
  | .simOn _ => true
  | .simOff _ => true
  | .ptdUeLogClear _ => true
  | .baseFrameBoundary => true
  | .rateScheduleAcquisition _ => true
  | .loopEvaluation _ _ _ _ _ => true
  | .ceLoopGo _ _ => true
  | .loopCommitDone => true
  | .loopCmdOff _ _ => true
  | .loopCmdManual _ _ => true
  | .loopCmdAuto _ _ => true
  | .loopCmdCascade _ _ => true
  | .loopCmdSafe _ _ => true
  | .loopCmdKeep _ _ => true
  | .loopSetMan _ _ _ _ => true
  | .ceEvtClear _ _ _ => true
  | .supAck _ _ _ => true
  | .supAlign _ _ => true
  | .ceRampCmd _ _ _ => true
  | .ceTripClear _ _ _ => true
  | .ceTabGo _ _ => true
  | .tabCopyDone => true
  | .rollingTestDue => true
  | .laneBistEnd _ _ => true
  | .laneStateCopyDone _ _ _ => true
  | .fltDecayExpiry _ => true
  | .xngTest _ _ => true
  | .xngRetry _ _ => true
  | .xngRestart _ _ => true
  | .xngDisLogClear _ => true
  | .rsqStepGo _ _ _ => true
  | .stepCommitDone => true
  | .streamEvaluation _ _ => true
  | .stepTick _ _ => true
  | .stepPrefetchDone _ => true
  | .streamStart _ _ _ => true
  | .streamHold _ _ => true
  | .streamResume _ _ => true
  | .streamPause _ _ => true
  | .streamAbort _ _ => true
  | .streamPark _ _ => true
  | .streamReset _ _ => true
  | .streamRecheck _ _ => true
  | .streamDiscard _ _ => true
  | .rsqResumeGo _ => true
  | .resumeWaitExpiry _ => true
  | .stflagSet _ _ _ => true
  | .streamWindowWrite _ _ _ _ => true
  | .rsqEvtClear _ _ _ => true
  | .rsqAlmClear _ _ _ => true
  | .cscActGo _ _ _ => true
  | .actCommitDone => true
  | .cscArm _ _ t => timeOk t
  | .cscArmRel _ _ t => timeOk t
  | .cscCancel _ _ t => timeOk t
  | .encoderEdge _ _ _ _ _ t => timeOk t
  | .coordEdgeTimeout _ => true
  | .zcEdge _ t => timeOk t
  | .phaseLockLoss _ t => timeOk t
  | .coordCrossing _ t _ => timeOk t
  | .remoteArmSend _ t => timeOk t
  | .cancelUnconfirmed _ _ _ => true
  | .cscEvtClear _ _ _ => true
  | .profilePeriod => true
  | .pwmPeriod _ t => timeOk t.tick
  | .holdDelayExpiry _ => true
  | .latchEdge _ _ _ t => timeOk t
  | .axisEnable _ _ => true
  | .axisDisable _ _ => true
  | .moveAbs _ _ => true
  | .moveRel _ _ => true
  | .moveVel _ _ => true
  | .axisStop _ _ => true
  | .axisQstop _ _ => true
  | .axisHome _ _ => true
  | .axisFollow _ _ => true
  | .axisGmove _ _ _ => true
  | .resetFault _ _ => true
  | .latchArm _ _ => true
  | .motAxisGo _ _ => true
  | .axisCommitDone => true
  | .motGrpGo _ _ => true
  | .grpCommitDone => true
  | .encCntRead _ => true
  | .motEncErrClear _ _ => true
  | .motEvtClear _ _ _ => true
  | .motLatClear _ => true
  | .ilpScanBoundary _ _ => true
  | .ilpRun _ => true
  | .ilpStop _ => true
  | .ilpHold _ => true
  | .ilpStep _ _ => true
  | .ilpContinue _ _ => true
  | .ilpLoad _ => true
  | .ilpLoadDone => true
  | .ilpChgGo _ => true
  | .safetyInputEdge _ _ _ => true
  | .safeFilterExpiry _ _ _ _ _ => true
  | .discrepancyExpiry _ => true
  | .testPulse _ _ => true
  | .safeRstFall _ _ _ _ _ => true
  | .stuckReset => true
  | .safetyHeartbeat _ _ => true
  | .chLost _ => true
  | .safOvertemp _ => true
  | .safCpuFault => true
  | .edmTimeout _ => true
  | .chMismatch _ _ => true
  | .offPulseTest _ => true
  | .offPulseReadback _ _ => true
  | .offPulseTimeout _ => true
  | .outputReadbackFault _ _ => true
  | .fsSWarning _ => true
  | .fsSUndervoltage => true
  | .fsSRecovery => true
  | .safetyParamReceive _ => true
  | .safetyParamApply => true
  | .safetyFwReceive _ ver => decide (ver < 2 ^ 32)
  | .safetyFwSwitch => true
  | .safetyFwSelftestEnd _ => true
  | .fioRefreshFrame _ _ supplyA supplyB currentA currentB _ t => milliOk supplyA && milliOk supplyB && milliOk currentA && milliOk currentB && timeOk t
  | .linkSilence => true
  | .safeHoldTimeout _ => true
  | .linkDownDetect _ => true
  | .linkRetrainDone _ => true
  | .fioInputFilterExpiry _ _ t => timeOk t
  | .channelOvercurrent _ => true
  | .groupOvercurrent _ current => milliOk current
  | .readbackMismatch _ _ => true
  | .fsGroupWarn _ supply => milliOk supply
  | .fsGroupWarnClear _ => true
  | .fsGroupUv _ => true
  | .fsGroupRecovery _ => true
  | .fioGrpEnable _ _ => true
  | .aiSample readings _ t => readingsOk readings && timeOk t
  | .aiConversionEnd => true
  | .aiBurdenReconnect _ => true
  | .aiCalGo _ => true
  | .aiCalDone delays => decide (delays.length = 8)
  | .aoDeferredUpdate _ t => timeOk t
  | .fioTestUv _ _ => true
  | .fioMmClear _ _ => true
  | .fioOcClear _ _ => true
  | .silencedClear _ => true
  | .laneWindowStart _ => true
  | .laneOutputRead _ => true
  | .laneWindowEnd _ => true
  | .laneCycleStart _ => true
  | .aInRx _ _ _ _ body _ => laneBodyOk body
  | .bInRx _ _ _ body _ => laneBodyOk body
  | .identRx _ _ _ body => laneBodyOk body
  | .laneAckRx _ _ _ typ res => ackOk typ res
  | .delayRespRx _ _ _ _ _ => true
  | .foreignFrameRx _ => true
  | .lneStart _ _ => true
  | .lneStop _ _ => true
  | .lneReenum _ _ => true
  | .staRestart _ _ _ => true
  | .staGoSafe _ _ _ => true
  | .probeTimeout _ => true
  | .delayRemeasure _ => true
  | .newStationProbe _ => true
  | .laneLinkUp _ => true
  | .laneLinkDown _ => true
  | .lneInjUnlock _ _ => true
  | .lneInjEn _ _ _ => true
  | .ethRxFrame _ f _ _ => ethOk f
  | .ethTxTail _ _ _ => true
  | .ethRxTail _ _ _ => true
  | .ethTxDone _ _ => true
  | .aveTrainingDone _ _ _ _ dly => decide (dly < 65536)
  | .aveHelloSend _ => true
  | .aveHelloTimeout _ => true
  | .aveLockLoss _ => true
  | .aveDelayMeasure _ dly => decide (dly < 65536)
  | .ptARx _ h time recs => h.ok && timeOk time && recsOk 4 recs
  | .ptBRx _ h _ time recs => h.ok && timeOk time && recsOk 60 recs
  | .rdReqRx _ h off _ wide => h.ok && slotOk off wide
  | .wrReqRx _ h off _ wide data => h.ok && slotOk off wide && dataOk wide data
  | .rdRespRx _ h _ result data => h.ok && decide (result < 256) && decide (data < 2 ^ 64)
  | .wrRespRx _ h _ result => h.ok && decide (result < 256)
  | .lsaRx _ h _ _ _ _ seq _ => h.ok && decide (seq < 65536)
  | .discRx _ h _ serial port role => h.ok && decide (serial < 2 ^ 64) && decide (port < 6) && decide (role < 4)
  | .timeFrameRx _ h t _ hops _ _ rx => h.ok && timeOk t && timeOk rx && decide (hops < 64)
  | .trigFrameRx _ h ns line ps => h.ok && timeOk ns && decide (line < 16) && decide (ps < 1000)
  | .recFrameRx _ h _ _ _ bytes => h.ok && decide (bytes.length = 1024)
  | .ctrlSubscribe _ h _ _ _ _ _ _ _ _ => h.ok
  | .ctrlAdmit _ h _ _ _ _ _ => h.ok
  | .ctrlGrant _ h g => h.ok && g.ok
  | .ctrlRelease _ h => h.ok
  | .ctrlHeartbeat _ h => h.ok
  | .fabricAccess _ _ _ _ size _ _ => sizeOk size
  | .aveReqTimeout _ => true
  | .ptPublish _ _ => true
  | .ptBPublish => true
  | .peerFrameTimeout _ _ => true
  | .routeRecomputeDone => true
  | .aveDiscover _ => true
  | .aveRelease _ => true
  | .discoveryComplete => true
  | .deviceLostTimeout _ => true
  | .gwHeartbeatSend => true
  | .gwHbTimeout => true
  | .hostLinkLossTimeout => true
  | .aveInjUnlock _ _ => true
  | .aveInjEn _ _ _ => true
  | .aveSubStatClear _ => true
  | .timOfsSubmit _ _ => true
  | .timPhaseStep => true
  | .timSet _ _ => true
  | .servoHoldover => true
  | .timeFrameSend => true
  | .timNowRead => true
  | .txtsInfoRead _ => true
  | .txtsPop _ _ => true
  | .txtsOvfClear _ _ => true
  | .lostRstClear _ => true
  | .uncLimitExceeded _ => true
  | .acqPointSample _ => true
  | .acqTimerExpiry _ => true
  | .trigInEdge _ _ _ => true
  | .acqArm _ _ => true
  | .acqStop _ => true
  | .acqClear _ => true
  | .acqPostComplete => true
  | .acqRearmComplete => true
  | .acqBlockWritten _ => true
  | .acqTflagSet _ _ => true
  | .acqFlagClear _ _ _ => true
  | .ocToken _ => true
  | .hrcReduceInterval _ => true
  | .hrcBlockAge => true
  | .hrcFlush _ => true
  | .hrcBlockSend _ => true
  | .hrcDmaDone _ _ d _ => d.ok
  | .evrAccept => true
  | .lostBusyReport => true
  | .freezeTimeout => true
  | .evrDumpGo _ => true
  | .evrDumpDone => true
  | .evrFfArm _ => true
  | .taskCreate _ _ => true
  | .taskDelete _ _ => true
  | .taskSuspend _ _ => true
  | .taskResume _ _ => true
  | .dispRead _ _ => true
  | .dispWaitTimeout _ => true
  | .taskDone _ _ => true
  | .taskYield _ _ => true
  | .subGo _ _ _ => true
  | .fset _ _ _ => true
  | .maskWrite _ _ _ => true
  | .htsHb _ => true
  | .heartbeatMissed => true
  | .autonomyWindowExpiry => true
  | .wdtWarning _ => true
  | .wdtExpiry _ _ => true
  | .wdtKick _ _ => true
  | .cpuCoreEn _ _ => true
  | .cpuCoreRst _ _ => true
  | .cacheUe _ _ addr => decide (addr < 2 ^ 40)
  | .sramScrub _ _ => true
  | .memTrainingDone _ _ => true
  | .memPatrolScrub _ _ => true
  | .mtimecmpMatch _ => true
  | .mtimeRead => true
  | .cpuWdtLogClear _ _ => true
  | .cpuSramUeClear _ => true
  | .memUeClear _ => true
  | .ringDoorbell _ _ => true
  | .dmaDescDone _ d data _ => d.ok && decide (data.length ≤ bits d.d4 23 0)
  | .ringEnable _ _ _ => true
  | .ringDisable _ _ => true
  | .hifMsiSend _ _ => true
  | .hostBarAccess _ _ _ size _ _ => sizeOk size
  | .hifErrLogClear _ => true
  | .pcieLinkUp _ _ _ => true
  | .pcieLinkDown => true
  | .pcieHotReset => true
  | .pcieFlr => true
  | .canStart _ _ => true
  | .canStop _ _ _ => true
  | .canSleep _ _ _ => true
  | .canWake _ _ => true
  | .canRecover _ _ => true
  | .canFrameRx _ id xtd fdf brs _ dlc t data => canOk id xtd fdf brs dlc.val data && timeOk t
  | .canTxDone _ => true
  | .canPeriodicRequest _ _ => true
  | .canRxTimeout _ _ => true
  | .canBusError _ _ _ _ dTec dRec => decide (dTec ≤ 8) && decide (dRec ≤ 8)
  | .canIntegrationDone _ => true
  | .canRecoveryDone _ => true
  | .canWakeDetect _ _ _ _ _ => true
  | .canObjStatRead _ _ => true
  | .canNewClear _ _ _ => true
  | .canOvrClear _ _ _ => true
  | .canTxReq _ _ _ => true
  | .canTxAbort _ _ _ _ => true
  | .canObjEnable _ _ _ _ => true
  | .canObjDisable _ _ _ _ => true
  | .canEvtClear _ _ _ _ => true
  | .canWokenClear _ _ => true
  | .clkXoStart _ => true
  | .clkPllStart _ => true
  | .clkRamp _ _ => true
  | .clkReturn _ => true
  | .clkXoRetry _ => true
  | .clkXoStop _ => true
  | .xoStable => true
  | .xoStartTimeout => true
  | .autoReturn => true
  | .rampStep _ => true
  | .pllLock => true
  | .xoTrip _ _ => true
  | .pllUnlock => true
  | .frcFail _ => true
  | .srcFail => true
  | .clkSwitchDone _ => true
  | .clkSwitchForce _ => true
  | .clkMonStatClear _ _ => true
  | .pmcRun _ => true
  | .pmcEco _ => true
  | .pmcStandby _ => true
  | .pmcHibernate _ => true
  | .pmcHandshakeAnswer _ _ => true
  | .pmcWaitTimeout => true
  | .pmcRollbackDone => true
  | .pmcWakeDone => true
  | .pmcDomOn _ _ => true
  | .pmcDomOff _ _ => true
  | .domainPowerUpDone _ _ _ => true
  | .wakeNLow => true
  | .pmcAlarmMatch => true
  | .laneSignalDetect _ => true
  | .aveSignalDetect _ => true
  | .perstNRise => true
  | .pmcWakeStatClear _ _ => true
  | .startupRegulators => true
  | .startupOscillators _ => true
  | .startupAlwaysOn => true
  | .startupClocks _ _ => true
  | .startupMemory _ _ _ => true
  | .startupRealtime _ _ => true
  | .startupBoot _ _ => true
  | .startupHandover => true
  | .ermPushGo _ => true
  | .bootPushTimeout => true
  | .powerOnReset => true
  | .brownout _ _ _ => true
  | .resetPin => true
  | .softwareReset _ _ => true
  | .debugReset => true
  | .resetRelease => true
  | .pgMemLoss => true
  | .pgMemRestore => true
  | .pfailFall => true
  | .pfailRise => true
  | .pfailReset => true
  | .retWrite _ _ _ => true
  | .retRound _ => true
  | .retFlush _ => true
  | .retCheckDone _ _ => true
  | .retBankFailClear _ _ => true
  | .retWfailLogClear _ => true
  | .ermErrorRaise _ _ _ _ => true
  | .fatalReset => true
  | .ermAck _ _ => true
  | .ermFatalLogClear _ => true
  | .aveBlockLockRegained _ => true
  | .rollingTestOverdue => true
  | .islandStartupSelftestEnd _ _ _ => true
  | .vddSafePowerUp _ => true
  | .vddSafeLoss => true
  | .vddFdPowerUp _ => true
  | .vddFdLoss => true

end Sys2Proof
end

