-- ==== Sys2Proof/Tests/Slice0.lean ====
section
/-!
SUPPORT. The model's own tests: ill-formed commands that `Instr.wf` refuses, values that the spec itself gives, and for each statement with hypotheses
states and operands that meet them.
-/

open Sys2Proof Sys2Proof.Machine

namespace Sys2Proof.Tests

/-- The device with every domain on and the field die's link up: the small state the witnesses build on. -/
def base : State := { State.reset with hdr := [], fio := { State.reset.fio with linkUp := true } }

/-- `base` with another header of one block. -/
def hdrOf (b : Block) (h : Hdr) : State := { base with hdr := Tab.put {} [] b.code h }

/-- `base` with a register word. -/
def regOf (r : RegId) (v : Nat) : State := { base with regs := Tab.put none [] (regKey r) (some (word v)) }

end Sys2Proof.Tests

open Sys2Proof.Tests


/-- HeaderCommandsComplete: a present block that the factory map lets the host write, first and last block code. -/
theorem witness_header_commands :
    base.present .sys = true ∧ base.permits .host Block.sys.code = true ∧ base.present .cpu = true ∧ base.permits .host Block.cpu.code = true ∧
    base.present .fio = true ∧ base.permits (.app 7) Block.fio.code = true := by decide

/-- BlkCtrlCommandsComplete: its five clauses. -/
theorem witness_blk_ctrl :
    base.writeOk .ptd 0x008 .rw .host = true ∧ (base.hd .ptd).run = false ∧ (base.hd .ptd).en = false ∧ base.stopRefusal .ptd = none ∧
    base.stopRefusal .xng = none ∧ base.writeOk .xng 0x008 .rw .host = true ∧
    (hdrOf .sys { en := true }).writeOk .sys 0x008 .rw .host = true ∧ ((hdrOf .sys { en := true }).hd .sys).en = true ∧
    ((hdrOf .sys { en := true }).hd .sys).run = false ∧ runsAtOnce .sys = true ∧ Block.sys ≠ .xng ∧ Block.sys ≠ .ave ∧ Block.sys ≠ .cpu ∧
    Block.sys ≠ .evr := by decide

/-- DeniedWriteHasNoEffect: the safety processor's write to PTD, which the factory map leaves to HOST, APP and ROM; first and last word. -/
theorem witness_denied_write :
    base.present .ptd = true ∧ base.permits .safe Block.ptd.code = false ∧ (0 : Nat) < 0x10000 ∧ 0 % 4 = 0 ∧ 0xFFFC < 0x10000 ∧ 0xFFFC % 4 = 0 := by
  decide

/-- RegisterWordsByAccessCode: an RW, an RWC and an RWL register of PTD and PTD_DIR_EDIT_LO of a running PTD. -/
theorem witness_register_words :
    (∃ w, regRow ⟨.ptd, 0x130⟩ = some w ∧ w.acc = .rw ∧ base.writeOk .ptd 0x130 w.acc .host = true ∧
      rangesOk w.rng (word 0x7FFFF &&& word w.mask) = true) ∧
    base.cmdWrite State.ilpBus .host .ptd 0x130 (word 0x7FFFF) = none ∧
    (∃ w, regRow ⟨.ptd, 0x118⟩ = some w ∧ w.acc = .rwc ∧ base.writeOk .ptd 0x118 w.acc .host = true ∧
      rangesOk w.rng (word 1 &&& word w.mask) = true) ∧
    base.cmdWrite State.ilpBus .host .ptd 0x118 (word 1) = none ∧
    (∃ w, regRow ⟨.ptd, 0x100⟩ = some w ∧ w.acc = .rwl ∧ base.writeOk .ptd 0x100 w.acc .host = true ∧
      rangesOk w.rng (word 0xFF000000 &&& word w.mask) = true) ∧
    base.cmdWrite State.ilpBus .host .ptd 0x100 (word 0xFF000000) = none ∧ (base.hd .ptd).commitPending = false ∧ base.rwlLocked .ptd 0x100 = false ∧
    (hdrOf .ptd { en := true, run := true, running := true }).rwlLocked .ptd 0x100 = true ∧
    (hdrOf .ptd { en := true, run := true, running := true }).writeOk .ptd 0x100 .rwl .host = true ∧
    (hdrOf .ptd { en := true, run := true, running := true }).cmdWrite State.ilpBus .host .ptd 0x100 (word 0xFF000000) = none := by
  refine ⟨⟨_, rfl, ?_⟩, ?_, ⟨_, rfl, ?_⟩, ?_, ⟨_, rfl, ?_⟩, ?_⟩ <;> decide

/-- LockedRegistersKeepTheirValue: PTD with its lock set. -/
theorem witness_locked_registers :
    (∃ w, regRow ⟨.ptd, 0x130⟩ = some w ∧ (w.acc = .rw ∨ w.acc = .rwc ∨ w.acc = .rwl)) ∧
    (hdrOf .ptd { lock := true }).cmdWrite State.ilpBus .host .ptd 0x130 (word 5) = none ∧ (hdrOf .ptd { lock := true }).present .ptd = true ∧
    (hdrOf .ptd { lock := true }).permits .host Block.ptd.code = true ∧ ((hdrOf .ptd { lock := true }).hd .ptd).lock = true := by
  refine ⟨⟨_, rfl, ?_⟩, ?_⟩ <;> decide

/-- WrongSizeAccessRefused: a write and a host read of two bytes at the first address and of a word off its place. -/
theorem witness_wrong_size :
    base.present .sys = true ∧ ((2 : Fin 9).val ≠ 4 ∨ 0 % 4 ≠ 0) ∧ ((4 : Fin 9).val ≠ 4 ∨ 0xFFFF % 4 ≠ 0) ∧ 0xFFFF < 0x10000 ∧
    State.present { base with hif := { base.hif with up := true } } .hif = true ∧
    0x10000000 + (0xFFFF : BitVec 32).toNat = Block.sys.base + 0xFFFF ∧ (0xFFFF : BitVec 32).toNat < 16777216 := by decide

/-- CommitAppliesOrRefuses: PTD with a shadow that passes its check, and PMC with a mask that names PD_CPUA's domain bit. -/
theorem witness_commit :
    ((hdrOf .ptd { commitPending := true }).hd .ptd).commitPending = true ∧ (hdrOf .ptd { commitPending := true }).present .ptd = true ∧
    Tab.wf none (hdrOf .ptd { commitPending := true }).shadow = true ∧ (hdrOf .ptd { commitPending := true }).commitCheck .ptd = 0 ∧
    Block.ptd ∉ [Block.lne, .csc, .tim, .fio, .hrc] ∧
    Tab.wf none (Tab.put none [] (regKey R.PMC_ECO_MASK) (some (word 2))) = true ∧
    State.commitCheck { hdrOf .pmc { commitPending := true } with shadow := Tab.put none [] (regKey R.PMC_ECO_MASK) (some (word 2)) } .pmc ≠ 0 ∧
    State.commitCheck { hdrOf .pmc { commitPending := true } with shadow := Tab.put none [] (regKey R.PMC_ECO_MASK) (some (word 2)) } .pmc < 256 := by
  decide

/-- FenceEndsAndRepliesAreLost: a fenced block, and fenced MEM with PG_MEM good. -/
theorem witness_fence_end :
    ((hdrOf .ce { pwr := .fenced }).hd .ce).pwr = .fenced ∧ ((hdrOf .mem { pwr := .fenced }).hd .mem).pwr = .fenced ∧
    (hdrOf .mem { pwr := .fenced }).erm.supply.pgMem = true := by decide

/-- A stage request of PMAP (target 1). -/
def stageBase (a n : Nat) : State :=
  { base with
    regs := Tab.put none (Tab.put none (Tab.put none [] (regKey R.SYS_DC_CTRL) (some 0x100)) (regKey R.SYS_DC_SRC_ADDR) (some (word a)))
      (regKey R.SYS_DC_SRC_LEN) (some (word n)) }

/-- StageChecksInOrder: at the first and the last address of SRAM, and with the target out of range. -/
theorem witness_stage :
    (stageBase 0x08000000 32).writeOk .sys 0x300 .w1s .host = true ∧ bit (0x101 : Word) 1 = false ∧
    (stageBase 0x08000000 32).reg R.SYS_DC_CTRL = 0x101 &&& 0x700 ∧ (stageBase 0x08FFFFE0 32).reg R.SYS_DC_CTRL = 0x101 &&& 0x700 ∧
    (regOf R.SYS_DC_CTRL 0x600).reg R.SYS_DC_CTRL = 0x601 &&& 0x700 ∧ base.reg R.SYS_DC_CTRL = 1 &&& 0x700 := by decide

/-- `base` with the dual-commit engine in a state. -/
def dcBase (d : Dc) : State := { base with sys := { base.sys with dc := d } }

/-- A stage whose first party has submitted its tag. -/
def tagBase : State :=
  let d : Dc := { state := .staged, target := 1, len := 32 }
  let t : DcTag := { party := 0, tag := dcTagOf [1, 2] d.digest d.nonce, stage := some 0 }
  { base with sys := { base.sys with sysrec := { base.sys.sysrec with keys := [(0, [1, 2])] }, dc := { d with verify := [t] } } }

/-- DualCommitCommandsComplete: its nine clauses. -/
theorem witness_dual_commit :
    (dcBase { state := .staged }).writeOk .sys 0x300 .w1s .host = true ∧ (dcBase { state := .staged }).sys.dc.state = .staged ∧
    (dcBase { state := .copying, target := 2, len := 32, src := 0x08000000 }).sys.dc.state = .copying ∧
    (dcBase { state := .copying, target := 2, len := 32, src := 0x08000000 }).dcPayloadOk 2
      ((dcBase { state := .copying, target := 2, len := 32, src := 0x08000000 }).load 0x08000000 32) = true ∧
    base.writeOk .sys 0x34C .w1s .host = true ∧ base.sys.sysrec.lifecycle = 1 ∧ base.writeOk .sys 0x360 .wo .host = true ∧
    base.writeOk .sys 0x37C .wo .host = true ∧ base.writeOk .sys 0x380 .wo .host = true ∧ nbit base.sys.enrolled 3 = false ∧
    base.writeOk .sys 0x110 .w1c .host = true ∧
    State.permits { base with sys := { base.sys with sysrec := { base.sys.sysrec with lifecycle := 2 } } } .host 1 = true := by decide

/-- DualCommitCommandsComplete: the clause of a tag that verifies. -/
theorem witness_dual_commit_tag :
    tagBase.sys.dc.verify = [{ party := 0, tag := dcTagOf [1, 2] [] 0, stage := some 0 }] ∧ tagBase.sys.dc.state = .staged ∧
    some 0 = some tagBase.sys.dc.stageNo ∧ nbit tagBase.sys.dc.partyOk 0 = false ∧ Tab.get [] tagBase.sys.sysrec.keys 0 = [1, 2] ∧
    dcTagOf [1, 2] tagBase.sys.dc.digest tagBase.sys.dc.nonce = dcTagOf [1, 2] [] 0 := ⟨rfl, rfl, rfl, rfl, rfl, rfl⟩

/-- `base` with one point at local index 5, hot index 7, PTD and MEM running, in effect and committed. -/
def ptBase (e : DirEntry) : State :=
  { base with hdr := Tab.put {} (Tab.put {} [] Block.ptd.code { en := true, run := true, running := true }) Block.mem.code { running := true },
              ptd := { base.ptd with dir := [(5, e)], act := [(5, e)] } }

/-- An INTERNAL INT32 point of class B. -/
def ptInt : DirEntry := { kind := .int32, hot := true, cls := .b, hotIndex := 7 }

/-- `ptBase ptInt` with the point forced or simulated. -/
def ptForced (sim : Bool) : State :=
  { ptBase ptInt with ptd := { (ptBase ptInt).ptd with force := [{ idx := 5, sim := sim, shadow := { value := 3 } }] },
                      regs := Tab.put none [] (regKey R.PTD_FORCE_IDX) (some 5) }

/-- AppWriteStoresPoint: the point free and forced. -/
theorem witness_app_write :
    (ptBase ptInt).present .ptd = true ∧ (ptBase ptInt).permits .host Block.ptd.code = true ∧ ((ptBase ptInt).hd .ptd).running = true ∧
    (ptBase ptInt).atHot 7 = some 5 ∧ ((ptBase ptInt).point 5).kind ≠ .none ∧ ((ptBase ptInt).point 5).kind ≠ .float32 ∧
    ((ptBase ptInt).point 5).hot = true ∧ ((ptBase ptInt).point 5).hotIndex = 7 ∧ ((ptBase ptInt).point 5).srcType = .internal ∧
    ((ptBase ptInt).point 5).cls = .b ∧ (ptBase ptInt).forceOf 5 = none ∧
    (ptForced false).forceOf 5 = some { idx := 5, sim := false, shadow := { value := 3 } } ∧ (ptForced false).atHot 7 = some 5 := by decide

/-- AppWriteRefusals: an AXIS point, and a FLOAT32 point with a NaN; hot and cold. -/
theorem witness_app_write_refused :
    (ptBase { ptInt with srcType := .axis }).entryPoint false 7 = some 5 ∧ appWritable ((ptBase { ptInt with srcType := .axis }).point 5) = false ∧
    (ptBase { ptInt with srcType := .axis }).forceOf 5 = none ∧ (ptBase { ptInt with srcType := .axis, hot := false }).entryPoint true 5 = some 5 ∧
    ((ptBase { ptInt with kind := .float32 }).point 5).kind = .float32 ∧ f32NaN 0x7F800001 = true ∧ f32NaN 0xFFFFFFFF = true ∧
    (ptBase { ptInt with kind := .float32 }).entryPoint false 7 = some 5 ∧ ((ptBase ptInt).hd .mem).running = true ∧
    (ptBase ptInt).present .ptd = true ∧ (ptBase ptInt).permits .host Block.ptd.code = true := by decide

/-- ForceAndSimulation: the point free, forced and simulated. In COMMISSIONING and with HOST in the map of principals that may force. -/
theorem witness_force :
    (let s := { ptBase ptInt with regs := Tab.put none [] (regKey R.PTD_FORCE_IDX) (some 5), sys := { base.sys with sysrec := { base.sys.sysrec with pmap := [(14, 1)] } } }
     s.writeOk .ptd 0x138 .w1s .host = true ∧ s.forceIdx = 5 ∧ (s.point 5).kind ≠ .none ∧ (s.point 5).hot = true ∧ s.forceCheck .host 5 false = 0 ∧
     s.forceCheck .host 5 true = 0 ∧ s.forceOf 5 = none) ∧
    (ptForced false).forceIdx = 5 ∧ (ptForced false).writeOk .ptd 0x138 .w1s .host = true ∧ ((ptForced false).forceOf 5).isSome = true ∧
    ((ptForced true).forceOf 5).isSome = true := by decide

/-- `base` with PTD's check of entry `n` running. -/
def entBusy (n : Nat) (wait : Bool) : State := { ptBase ptInt with ptd := { (ptBase ptInt).ptd with busy := some n, waitGrant := wait } }

/-- The editing image at address 0 with W7.COMMIT of entry `n` set. -/
def entCommit (n : Nat) : State := (ptBase ptInt).store32 (32 * n + 28) 0x80000000

/-- DirectoryCommandsComplete: GO with and without COMMIT for the first and the last entry; a check of an entry of KIND NONE, which passes and of
an entry with a reserved bit, which fails; the grant timeout; staleness of a framed point; the error log. -/
theorem witness_directory :
    (entCommit 0).writeOk .ptd 0x120 .wo .host = true ∧ (entCommit 0).ptd.busy = none ∧ ((entCommit 0).hd .mem).running = true ∧
    bit ((entCommit 0).entWord 0 7) 31 = true ∧ bit ((entCommit 524287).entWord 524287 7) 31 = true ∧ bit ((entCommit 0).entWord 524287 7) 31 = false ∧
    (entBusy 0 false).ptd.busy = some 0 ∧ (entBusy 0 false).ptd.waitGrant = false ∧
    (entBusy 0 false).entCheck 0 (fun k => (entBusy 0 false).entWord 0 k) (parseDir fun k => (entBusy 0 false).entWord 0 k) = 0 ∧
    ((entBusy 0 false).store32 0 0x200).entCheck 0 (fun k => ((entBusy 0 false).store32 0 0x200).entWord 0 k)
      (parseDir fun k => ((entBusy 0 false).store32 0 0x200).entWord 0 k) = 0x28 ∧
    rateOk (histRate (((entBusy 0 false).dirWith 0 (parseDir fun k => (entBusy 0 false).entWord 0 k)).map (·.2))) = true ∧
    (entBusy 0 false).ave.assigned = false ∧ (entBusy 3 true).ptd.waitGrant = true ∧
    ({ entBusy 3 true with ave := { base.ave with grantWait := some 1 } }).ave.grantWait.isSome = true ∧
    (let s := ptBase { ptInt with srcType := .axis, staleN := 3 }
     (s.point 5).staleN ≠ 0 ∧ framed (s.point 5).srcType = true ∧ s.canWrite 5 = true ∧ s.forceOf 5 = none) ∧
    base.writeOk .ptd 0x160 .w1c .host = true := by decide

/-- BaseFrameAdvancesTime: PD_RT on with no injected delay, and off. -/
theorem witness_base_frame :
    base.present .tim = true ∧ base.tim.setPend = none ∧ (∀ p, p < 6 → (base.aport p).inj.delayed = []) ∧ State.reset.present .tim = false := by decide

/-- `base` with hot Q15 points 5 (in) and 6 (out, INTERNAL class A), and loop 1023's editing copy a RATIO loop with COMMIT set; the copy of loop 0
has COMMIT and a reserved bit. -/
def loopEdits : State :=
  let s := { base with ptd := { base.ptd with dir := [(5, { kind := .q15, hot := true }), (6, { kind := .q15, hot := true, hotIndex := 1, cls := .a })] } }
  ((((s.store32 (loopEdit 1023) 5).store32 (loopEdit 1023 + 4) 5).store32 (loopEdit 1023 + 12) 6).store32 (loopEdit 1023 + 252) 0x80000000).store32
    (loopEdit 0 + 252) 0xA0000000

/-- `loopEdits` with the commit of a loop running. -/
def loopBusy (n : Nat) : State := { loopEdits with ce := { loopEdits.ce with goBusy := some n } }

/-- What LOOP_COMMIT_DONE reads of the editing copy. -/
def loopCopy (n : Nat) : Nat → Word := fun k => if k = 63 then clrBit (clrBit ((loopBusy n).loopWord n 63) 31) 30 else (loopBusy n).loopWord n k

/-- LoopCommitAppliesOrRefuses: GO of the first and the last loop, a commit that is applied and one that is refused. -/
theorem witness_loop_commit :
    loopEdits.writeOk .ce 0x100 .wo .host = true ∧ loopEdits.ce.goBusy = none ∧ bit (loopEdits.loopWord 1023 63) 31 = true ∧
    bit (loopEdits.loopWord 0 63) 31 = true ∧ (loopBusy 1023).ce.goBusy = some 1023 ∧
    (loopBusy 1023).loopCheck 1023 (parseLoop (loopCopy 1023)) (loopCopy 1023) = 0 ∧
    (loopBusy 1023).loopAdmit 1023 (parseLoop (loopCopy 1023)) = (0, {}) ∧ (parseLoop (loopCopy 1023)).law ≠ .none ∧
    (loopBusy 0).loopCheck 0 (parseLoop (loopCopy 0)) (loopCopy 0) = 0x26 := by decide

/-- `base` with loop 3 in use, an outer loop 4 of it, three voting lanes and a view of loop 3. -/
def loopBase (st : LoopState) : State :=
  { base with ce := { base.ce with desc := [(3, { law := .pid, spSrc := 2, parent := 4 }), (4, { law := .pid, rate := 5, child := 3, divN := 2 }), (5, { law := .pid })], view := Tab.put {} (Tab.put {} [] 3 st) 5 st },
              xng := { base.xng with mode := .triple, lanes := [(0, { state := .voting }), (1, { state := .voting }), (2, { state := .voting })] } }

/-- `loopBase` with no vote taken. -/
def loopMute (st : LoopState) : State := { loopBase st with xng := { base.xng with mode := .none } }

/-- ModeCommandsAccepted: a loop in OFF, with its parent linked, and one in SAFE with its latch set. -/
theorem witness_mode_accepted :
    (loopBase {}).writeOk .ce 0x108 .wo .host = true ∧ (loopBase {}).loopUsed 3 = true ∧ (loopBase {}).voting = true ∧ (loopBase {}).linkOk 3 = true ∧
    ((loopBase {}).loopSt 3).mode ≠ .safe ∧ ¬(((loopBase {}).loopSt 3).tripSrc ≠ 0 ∧ 2 ≤ ((loopBase {}).loopSt 3).react) ∧
    (loopBase { mode := .safe, tripSrc := 1, react := 3 }).loopUsed 3 = true ∧ (loopBase { mode := .safe }).voting = true := by decide

/-- ModeCommandsRefused: its four clauses. -/
theorem witness_mode_refused :
    (loopBase { mode := .safe }).xng.mode ≠ .none ∧ ((loopBase { mode := .safe }).loopSt 3).mode = .safe ∧ (loopBase { mode := .safe }).loopUsed 3 = true ∧
    (loopMute {}).xng.mode = .none ∧ (loopMute {}).loopUsed 3 = true ∧ (loopMute {}).writeOk .ce 0x108 .wo .host = true ∧
    ((loopBase { mode := .manual, tripSrc := 1, react := 2 }).loopSt 3).tripSrc ≠ 0 ∧ 2 ≤ ((loopBase { mode := .manual, tripSrc := 1, react := 2 }).loopSt 3).react ∧
    (loopMute { tripSrc := 0 }).loopUsed 3 = true ∧ ((loopBase { mode := .safe }).loopSt 3).tripSrc = 0 ∧ (loopBase { mode := .auto }).linkOk 5 = false ∧
    ((loopBase { mode := .auto }).loopSt 5).mode = .auto ∧ (loopBase { mode := .auto }).loopUsed 5 = true := by decide

/-- `base` with table `t`'s header H_3 = SPAN 1 and H_7.COMMIT set, and its index point hot. -/
def tabBase (t : Nat) : State :=
  ({ base with ptd := { base.ptd with dir := [(0, { kind := .int32, hot := true })] } }.setTabHdr t 3 1).setTabHdr t 7 0x80000000

/-- SupervisionCommandsComplete: its five clauses; a table copy that passes its check. -/
theorem witness_supervision :
    (loopBase { mode := .auto, tripSrc := 1 }).writeOk .ce 0x300 .wo .host = true ∧ ((loopBase { mode := .auto, tripSrc := 1 }).loopSt 3).tripSrc ≠ 0 ∧
    (loopBase { mode := .auto }).loopUsed 3 = true ∧ (loopBase { mode := .auto }).writeOk .ce 0x308 .wo .host = true ∧
    ((loopBase { mode := .auto }).loopSt 3).mode = .auto ∧ ((1 : BitVec 16).toNat ≠ 0) ∧
    (tabBase 15).writeOk .ce 0x320 .wo .host = true ∧ (tabBase 15).ce.tabBusy = none ∧ bit ((tabBase 15).tabHdr 15 7) 31 = true ∧
    bit ((tabBase 0).tabHdr 0 7) 31 = true := by decide

theorem witness_table_copy :
    (let s := { tabBase 0 with ce := { base.ce with tabBusy := some 0 } }
     s.ce.tabBusy = some 0 ∧ (s.tabUnpend 0).tabCheck 0 { (s.tabUnpend 0).parseTab 0 with entries := [] } = 0) := by decide

/-- LoopEvaluationCompletes: loop 5 in MANUAL in three lanes that hold one state. -/
def evalBase : State :=
  { loopBase { mode := .manual } with
    hdr := Tab.put {} [] Block.ce.code { en := true, run := true, running := true },
    ce := { (loopBase { mode := .manual }).ce with lanes := [(0, [(5, { mode := .manual })]), (1, [(5, { mode := .manual })]), (2, [(5, { mode := .manual })])], laneCfg := [0, 1, 2].map (fun l => (l, { desc := (loopBase { mode := .manual }).ce.desc })) } }

theorem witness_loop_evaluation :
    (evalBase.loop 5).law ≠ .none ∧ (evalBase.loop 5).rate ≠ 5 ∧ (evalBase.hd .ce).running = true ∧ evalBase.outerOf 5 = none ∧
    evalBase.xng.mode ≠ .none ∧ evalBase.xng.voterFault = false ∧ evalBase.xng.lossDue = false ∧ evalBase.votingLanes = [0, 1, 2] ∧
    (∀ l ∈ evalBase.votingLanes, evalBase.laneLoop l 5 = { mode := .manual } ∧ evalBase.laneDesc l 5 = evalBase.loop 5) ∧ (evalBase.loopSt 5).mode ≠ .off := by decide

theorem witness_loop_evaluation_tables : ∀ k, evalBase.laneTab 2 k = Tab.get {} evalBase.ce.tabs k := fun _ => rfl

/-- The statements on the limits, on tracking, and on tables and ramps. -/
theorem witness_ce_math :
    ((-32768 : Int) ≤ 32767) ∧ (-32768 ≤ (-32768 : Int)) ∧ (-(2 ^ 37) ≤ (acc 0).v) ∧ (acc 0).v ≤ 2 ^ 37 ∧ (1 ≤ ({ type := 1 } : CompTab).type) ∧
    ({ type := 3 } : CompTab).type ≤ 3 := by decide

/-- `base` with lane 0 to 2 in the given states and a voting mode. -/
def xngBase (a b c : LaneState) (m : VMode) : State :=
  { base with hdr := Tab.put {} [] Block.xng.code { en := true, run := true, running := true },
              xng := { base.xng with mode := m, lanes := [(0, { state := a }), (1, { state := b }), (2, { state := c })] } }

/-- CrossingCommandsComplete: its ten clauses. -/
theorem witness_crossing :
    (xngBase .voting .voting .voting .triple).writeOk .xng 0x10C .wo .host = true ∧ (xngBase .voting .voting .voting .triple).votingLanes = [0, 1, 2] ∧
    (xngBase .voting .voting .voting .triple).xng.reacted = false ∧ (xngBase .voting .voting .failed .dual).xng.mode ≠ .triple ∧
    ((xngBase .voting .voting .failed .dual).lane 2).state = .failed ∧ ((xngBase .halted .halted .off .none).lanesIn .halted).length = 2 ∧
    (xngBase .halted .halted .off .none).haltedAgree = true ∧ ((xngBase .bist .voting .copy .dual).lane 0).state = .bist ∧ ((xngBase .bist .voting .copy .dual).lane 0).passed = false ∧
    ((xngBase .bist .voting .copy .dual).lane 2).state = .copy ∧ ((xngBase .bist .voting .copy .dual).lane 1).state = .voting ∧
    ((xngBase .voting .voting .voting .triple).hd .xng).running = true ∧
    ((xngBase .voting .voting .voting .triple).updXng fun x => { x with due := true }).xng.due = true ∧ base.xng.overdue = false := by decide

/-- VoteFollowsTheMajority: three lanes and two lanes that vote. -/
theorem witness_vote :
    (xngBase .voting .voting .voting .triple).votingLanes = [0, 1, 2] ∧ (xngBase .voting .voting .failed .dual).votingLanes = [0, 1] ∧
    (xngBase .voting .voting .failed .dual).xng.reacted = false ∧ (xngBase .voting .voting .failed .dual).xng.voterFault = false := by decide

/-- `base` with stream 63 as given, SDRAM mapped, RSQ running and the Crossing voting. -/
def rsqBase (x : Stream) : State :=
  { base with hdr := Tab.put {} (Tab.put {} [] Block.rsq.code { en := true, run := true, running := true }) Block.mem.code { running := true },
              msdram := { base.msdram with capacity := 16 }, xng := { base.xng with mode := .triple }, rsq := { base.rsq with streams := Tab.put {} [] 63 x } }

/-- A stream with one step, active entries from 0x8_0000_0000 and editing entries 8 MiB above. -/
def strm : Stream := { win := [(0x004, 1), (0x01C, 8), (0x024, 8)] }

/-- Step 0 VALID. -/
def rsqValid (x : Stream) : State := (rsqBase x).store32 (stepAddr 0x800000000 0 + 28) 0x20000000

/-- StreamCommandsAccepted: each state of Table RSQ-10, and step 0 VALID. -/
theorem witness_stream_accepted :
    (rsqValid strm).writeOk .rsq 0x100 .wo .host = true ∧ (rsqValid strm).rsq.loading = false ∧ (rsqValid strm).xng.mode ≠ .none ∧
    (rsqValid strm).stepValid 63 0 = true ∧ ((rsqValid strm).stream 63).state = .idle ∧
    ((rsqValid { strm with state := .run }).stream 63).state = .run ∧ ((rsqValid { strm with state := .hold }).stream 63).state = .hold ∧
    ((rsqValid { strm with state := .resumePending }).stream 63).state = .resumePending ∧
    (rsqValid { strm with state := .resumePending }).stepValid 63 ((rsqValid { strm with state := .resumePending }).stream 63).parkStep = true := by decide

/-- StreamCommandsRefused: its four clauses. -/
theorem witness_stream_refused :
    ((rsqBase strm).stream 63).state ≠ .run ∧ ((rsqBase strm).stream 63).state ≠ .resumePending ∧
    ((rsqBase { strm with state := .hold }).stream 63).state = .hold ∧
    (let s := { rsqBase strm with xng := { base.xng with mode := .none } }
     s.xng.mode = .none ∧ (s.stream 63).state = .idle ∧ s.writeOk .rsq 0x100 .wo .host = true ∧ s.rsq.loading = false) := by decide

/-- `rsqBase strm` with an editing entry of stream 63 that has COMMIT set and one with a reserved bit as well. -/
def stepBase (k : Nat) (w7 : Word) : State := (rsqBase { strm with win := [(0x004, 0xFFFF), (0x01C, 8), (0x024, 8), (0x020, 0x800000)] }).store32 (stepAddr 0x800000000 k + 28) w7

/-- StepCommitCopiesOrRefuses: GO of the first and the last step; a commit that passes and one that fails. -/
theorem witness_step_commit :
    (stepBase 0 0x80000000).writeOk .rsq 0x108 .wo .host = true ∧ (stepBase 0 0x80000000).rsq.stepBusy = none ∧
    inSdram (stepBase 0 0x80000000) (stepAddr ((stepBase 0 0x80000000).stream 63).editBase 0) 64 = true ∧
    inSdram (stepBase 0 0x80000000) (stepAddr ((stepBase 0 0x80000000).stream 63).editBase 0xFFFF) 64 = true ∧
    bit ((stepBase 0 0x80000000).mem32 (stepAddr ((stepBase 0 0x80000000).stream 63).editBase 0 + 28)) 31 = true ∧
    (let s := { stepBase 0 0x80000000 with rsq := { (stepBase 0 0x80000000).rsq with stepBusy := some (63, 0) } }
     let ws := s.entryWords (s.stream 63).editBase 0
     s.stepCheck 63 0 ((ws.take 7) ++ [nth 0 ws 7 &&& 0x1FFFFFFF] ++ ws.drop 8) (s.actWords (s.stream 63).editBase ws) = 0 ∧
     inSdram s (stepAddr (s.stream 63).actBase 0) 64 = true ∧ stepField ws 5 21 16 = 0) ∧
    (let s := stepBase 0 0x90000000
     let ws := s.entryWords (s.stream 63).editBase 0
     s.stepCheck 63 0 ((ws.take 7) ++ [nth 0 ws 7 &&& 0x1FFFFFFF] ++ ws.drop 8) (s.actWords (s.stream 63).editBase ws) = 0x21) := by decide

/-- A stream in RUN whose step ends after 5 ms. -/
def strmRun : Stream := { strm with state := .run, elapsed := 3, cur := [0, 5, 0, 0, 0, 0, 0, 0, 0, 0, 0, 0, 0, 0, 0, 0] }

/-- StreamEvaluationCompletes: a stream in RUN, before its step's end, and one in IDLE with a START. -/
theorem witness_stream_evaluation :
    (rsqValid strmRun).present .rsq = true ∧ ((rsqValid strmRun).hd .rsq).run = true ∧ ((rsqValid strmRun).hd .rsq).running = true ∧
    (rsqValid strmRun).xng.mode ≠ .none ∧ (rsqValid strmRun).xng.voterFault = false ∧ Tab.wf {} (rsqValid strmRun).rsq.streams = true ∧
    (∀ m, m < 63 → ((rsqValid strmRun).stream m).evaluates = false) ∧ ((rsqValid strmRun).stream 63).state = .run ∧ strmRun.cmds = [] ∧ strmRun.fence = false ∧ strmRun.expiry = false ∧ strmRun.ckptDue = false ∧ (rsqValid strmRun).xng.lossDue = false ∧
    strmRun.held = 0 ∧ strmRun.ckptEn = false ∧
    (decision strmRun.cur ((rsqValid strmRun).condsEval { strmRun with elapsed := 4 }).2 4).1 = 0 ∧
    ((rsqValid { strm with cmds := [.start 0] }).stream 63).state = .idle ∧ (rsqValid { strm with cmds := [.start 0] }).stepValid 63 0 = true ∧
    stepField ((rsqValid { strm with cmds := [.start 0] }).entryWords strm.actBase 0) 5 21 16 = 0 := by decide

/-- The first 127 words of a checkpoint of stream 63 whose step names slot 15. -/
def ckptHead : List Word := (List.range 127).map fun k => if k = 0 then 1 + 63 * 65536 else if k = 6 then 0x80000000 else 0

/-- A stream whose resume check waits for slot 15, with a checkpoint whose last word is `c`. -/
def ckptBase (c : Word) : State :=
  let s := rsqBase { strm with win := [(0x004, 1), (0x01C, 8), (0x024, 8), (0x0F8, 0x40000005)], state := .resumePending, check := .waiting }
  { s with ret := { s.ret with pend := [{ idx := ckptSlot 63, val := 1 + 63 * 65536, writer := .rsq },
      { idx := ckptSlot 63 + 6, val := 0x80000000, writer := .rsq }, { idx := ckptSlot 63 + 127, val := c, writer := .rsq }] } }

/-- StreamWindowAndResumeComplete: a pending stream, the wait for a slot, and window words at their boundaries. -/
theorem witness_stream_window :
    (rsqBase { strm with state := .resumePending }).writeOk .rsq 0x110 .w1s .host = true ∧
    ((rsqBase { strm with state := .resumePending }).stream 63).check = .none ∧
    Tab.wf {} (rsqBase { strm with state := .resumePending }).rsq.streams = true ∧
    (rsqBase strm).present .rsq = true ∧ (rsqBase strm).permits .host 11 = true ∧ ((rsqBase strm).hd .rsq).lock = false ∧
    winMask (4 * 1) = some 0xFFFF ∧ (0xFFFF : Word) &&& ~~~ 0xFFFF = 0 ∧ winRange (4 * 1) 0xFFFF = true ∧ winMask (4 * 63) = some 0xFFFFFFFF ∧
    winMask 0 ≠ none ∧ ((rsqBase { strm with state := .run }).stream 63).state = .run ∧ ((rsqBase strm).stream 63).state = .idle := by decide

theorem ckptBase_retWord (c : Word) (k : Nat) :
    (ckptBase c).retWord (ckptSlot 63 + 128 * 0 + k) = if k = 0 then 1 + 63 * 65536 else if k = 6 then 0x80000000 else if k = 127 then c else 0 := by
  have z : (ckptBase c).ret.cells = [] := rfl
  have w : (ckptBase c).ret.waiting = [] := rfl
  have p : (ckptBase c).ret.pend = [{ idx := ckptSlot 63, val := 1 + 63 * 65536, writer := .rsq },
      { idx := ckptSlot 63 + 6, val := 0x80000000, writer := .rsq }, { idx := ckptSlot 63 + 127, val := c, writer := .rsq }] := rfl
  simp only [State.retWord, z, w, p, List.reverse_nil, List.nil_append, Tab.get, Nat.mul_zero, Nat.add_zero]
  generalize ckptSlot 63 = a
  by_cases h0 : k = 0
  · simp [h0]
  · by_cases h6 : k = 6
    · simp [h6]
    · by_cases h127 : k = 127
      · simp [h127]
      · have e0 : ¬ a = a + k := by omega
        have e6 : ¬ a + 6 = a + k := by omega
        have e127 : ¬ a + 127 = a + k := by omega
        simp only [List.find?, e0, e6, e127, decide_false, h0, h6, h127, if_false]

theorem ckptHead_nth (c : Word) (k : Nat) (h : k < 127) :
    nth 0 (ckptHead ++ [c]) k = if k = 0 then 1 + 63 * 65536 else if k = 6 then 0x80000000 else 0 := by
  simp [nth, ckptHead, List.getElem?_append, h]

theorem ckptBase_words (c : Word) : (ckptBase c).ckptWords 63 0 = ckptHead ++ [c] := by
  simp only [State.ckptWords, State.retWords, ckptHead, List.range_succ (n := 127), List.map_append, List.map_cons, List.map_nil, ckptBase_retWord]
  rfl

theorem ckptIntact_of (ws : List Word) (c : Word) (l : ws.length = 127) (k : ckptNamed 63 (ws ++ [c]) = true)
    (hc : c = word (crc32c (ws.flatMap wordBytes))) : ckptIntact 63 (ws ++ [c]) = true := by
  have h : (ws ++ [c]).take 127 = ws := List.take_left' l
  have g : nth 0 (ws ++ [c]) 127 = c := by rw [← l]; simp [nth]
  unfold ckptIntact; rw [h, g, k, ← hc]; simp

theorem ckptHead_named (c : Word) : ckptNamed 63 (ckptHead ++ [c]) = true := by
  have e : nth 0 (ckptHead ++ [c]) 0 = 1 + 63 * 65536 := ckptHead_nth _ 0 (by decide)
  simp only [ckptNamed, e]; decide

theorem ckptBase_other (c : Word) : ckptIntact 63 ((ckptBase c).ckptWords 63 1) = false := by
  have n : nth 0 ((ckptBase c).ckptWords 63 1) 0 = 0 := rfl
  have k : ckptNamed 63 ((ckptBase c).ckptWords 63 1) = false := by simp only [ckptNamed, n]; decide
  simp only [ckptIntact, k, Bool.false_and]

theorem ckptBase_newest (c : Word) (h : ckptIntact 63 (ckptHead ++ [c]) = true) : (ckptBase c).newestCkpt 63 = some 0 := by
  simp only [State.newestCkpt, ckptBase_words, h, ckptBase_other]

theorem ckptBase_critical (c : Word) :
    (critical ((ckptBase c).stream 63) ((ckptBase c).ckptWords 63 0)).find?
      (fun j => !usable ((ckptBase c).readPoint (((ckptBase c).stream 63).slotPt j)).q) = some 15 := by
  have e : nth 0 (ckptHead ++ [c]) 6 = 0x80000000 := ckptHead_nth _ 6 (by decide)
  have x : (ckptBase c).stream 63 = (ckptBase 0).stream 63 := rfl
  have u : ((ckptBase c).readPoint (((ckptBase 0).stream 63).slotPt 15)).q = 0 := rfl
  have m : critical ((ckptBase 0).stream 63) (ckptHead ++ [c]) = [15] := by simp only [critical, e]; decide
  rw [ckptBase_words, x, m]; simp only [List.find?, u]; decide

/-- StreamWindowAndResumeComplete: the wait for a slot that is not usable. -/
theorem witness_resume_wait :
    ∃ c, ((ckptBase c).stream 63).check = .waiting ∧ (ckptBase c).newestCkpt 63 = some 0 ∧
    (critical ((ckptBase c).stream 63) ((ckptBase c).ckptWords 63 0)).find?
      (fun j => !usable ((ckptBase c).readPoint (((ckptBase c).stream 63).slotPt j)).q) = some 15 := by
  obtain ⟨c, hc⟩ : ∃ c, c = word (crc32c (ckptHead.flatMap wordBytes)) := ⟨_, rfl⟩
  exact ⟨c, rfl, ckptBase_newest _ (ckptIntact_of _ _ (by simp [ckptHead]) (ckptHead_named c) hc), ckptBase_critical _⟩

/-- `base` with the editing copies of entries 0 and 65535 committed: entry 65535 is a TASK_FLAG of REF_TIME, entry 0 has a reserved bit. -/
def actEdits : State :=
  (base.store32 (actEdit 65535) 0x80000700).store32 (actEdit 0) 0x90000000

/-- `actEdits` with a run in its check. -/
def actBusy (first : Nat) : State := { actEdits with csc := { actEdits.csc with busy := some (first, 1) } }

/-- ActionRunIsAtomic: a GO at both ends of the table, a run that passes and one that fails. -/
theorem witness_action_run :
    actEdits.writeOk .csc 0x100 .wo .host = true ∧ actEdits.csc.busy = none ∧ (∀ n ∈ runOf 65535 2, bit (actEdits.mem32 (actEdit n)) 31 = true) ∧
    ((actBusy 65535).runCheck (runOf 65535 1)).1 = 0 ∧
    (((actBusy 65535).actAfter (runOf 65535 1)).filter fun x => decide (x.2.action = .remote)).map (fun x => x.2.remote) = (actBusy 65535).remoteTgts ∧
    ((actBusy 0).runCheck (runOf 0 1)).1 = 0x20 := by decide

/-- `base` with entry 9 of group 3 and the group's state. -/
def entBase (a : Act) (g : AGState) : State :=
  { base with csc := { base.csc with ents := [(9, { a with valid := true, desc := { a.desc with group := 3 } })], groups := Tab.put {} [] 3 { state := g } } }

/-- ArmsAndCancels: a group not armed, an empty one, an armed one, and one whose entry is SENT with its fire instant at the acceptance plus B_s. -/
theorem witness_arms :
    (entBase {} .idle).writeOk .csc 0x108 .wo .host = true ∧ (entBase {} .idle).groupEnts 3 = [9] ∧ (entBase {} .idle).groupArmed 3 = false ∧
    ((entBase {} .idle).ent 9).desc.action ≠ .remote ∧ (entBase {} .idle).groupEnts 255 = [] ∧ (entBase {} .armed).groupArmed 3 = true ∧
    (entBase { state := .sent, tFire := 5 } .armed).groupEnts 3 = [9] ∧ ((entBase { state := .sent, tFire := 5 } .armed).agroup 3).state = .armed ∧
    ((entBase { state := .sent, tFire := 5 } .armed).ent 9).state = .sent ∧
    2 * 5 / 2 + ((entBase { state := .sent, tFire := 5 } .armed).sta 0 0).bs = ((entBase { state := .sent, tFire := 5 } .armed).ent 9).tFire := by decide

/-- CrossingFiresTheEntry: an armed entry of REF_TIME before, at and after its position. -/
def crossBase : State := entBase { state := .armed, pos := 25, desc := { action := .taskFlag } } .armed

theorem witness_crossing_fires :
    (crossBase.hd .csc).pwr = .on ∧ (crossBase.ent 9).valid = true ∧ (crossBase.ent 9).state = .armed ∧ (crossBase.ent 9).desc.action ≠ .remote ∧
    crossBase.coordValid 0 = true ∧ (crossBase.ent 9).from_ ≤ 8 ∧ Tab.get 0 crossBase.csc.fires 9 < 4 := by decide

theorem witness_crossing_test : crossBase.crosses 9 8 = none ∧ (crossBase.crosses 9 9).isSome = true ∧ crossBase.crosses 9 10 = none := by
  decide +kernel

/-- `base` with coordinate 1 a mains PHASE of ZC_0. -/
def zcBase (k : Coord) : State := { regOf R.CSC_COORD 4 with csc := { base.csc with coords := Tab.put {} [] 1 k } }

/-- `base` with an armed REMOTE entry 65535 of REF_TIME, an arm record free on its port, and the run-ahead at its largest. -/
def remoteBase : State :=
  { base with csc := { base.csc with ents := [(65535, { valid := true, state := .armed, tFire := 31250, win := some 0, desc := { action := .remote } })] } }

/-- CoordinateSourcesComplete: its five clauses. -/
theorem witness_coordinate_sources :
    ((zcBase {}).coordsUsed.filter fun c => decide ((zcBase {}).coordType c = 4) && decide ((zcBase {}).coordSrc c % 2 = 0)) = [1] ∧
    ((zcBase {}).coord 1).locked = false ∧ ((zcBase {}).coord 1).cand = [] ∧ ((zcBase { locked := true }).coord 1).locked = true ∧
    (zcBase { locked := true }).coordType 1 = 4 ∧ (remoteBase.ent 65535).valid = true ∧ (remoteBase.ent 65535).state = .armed ∧
    (remoteBase.ent 65535).desc.action = .remote ∧ remoteBase.coordType (remoteBase.ent 65535).desc.coord = 1 ∧
    (remoteBase.ent 65535).desc.coord = 0 ∧ (remoteBase.lport 0).inj.en = false ∧ (remoteBase.ent 65535).desc.remote.port = 0 ∧
    winEnd (winOf (1600 * 5 / 2)) + (remoteBase.sta 0 0).bs ≤ (remoteBase.ent 65535).tFire ∧
    (remoteBase.ent 65535).tFire ≤ winEnd (winOf (1600 * 5 / 2)) + remoteBase.runAhead 0 ∧ (remoteBase.ent 65535).win = some (winOf (1600 * 5 / 2)) ∧
    (remoteBase.lport 0).outArms.length < remoteBase.armSlots 0 := by decide

theorem witness_epoch_wait :
    ({ base with csc := { base.csc with waits := [{ port := 7, station := 127, slot := 15, epoch := 1, teff := 0 }] } }).csc.waits.find?
      (fun w : EpochWait => decide (w.port = 7) && decide (w.station = 127) && decide (w.slot = 15)) =
      some { port := 7, station := 127, slot := 15, epoch := 1, teff := 0 } := by decide

/-- `base` with MOT running and axis 127 as given. -/
def axBase (a : Axis) : State :=
  { base with hdr := Tab.put {} [] Block.mot.code { en := true, run := true, running := true }, mot := { base.mot with axes := Tab.put {} [] 127 a } }

/-- A VIRTUAL axis, and one at standstill inside soft limits of ±10 with the positive limit active. -/
def axVirtual : Axis := { applied := true, desc := { vmax := 100000, acc := 1000000, dec := 1000000, qdec := 1000000 } }
def axStill : Axis := { axVirtual with state := .standstill, homed := true, desc := { axVirtual.desc with softLim := true, posMin := -10, posMax := 10, homeMode := 4 } }

/-- MOT_ARG_POS and MOT_ARG_VEL. -/
def motArgs (s : State) (p v : Nat) : State :=
  { s with regs := Tab.put none (Tab.put none [] (regKey R.MOT_ARG_POS_LO) (some (word p))) (regKey R.MOT_ARG_VEL) (some (word v)) }

/-- Axis 127 with a limit point that is active. -/
def axLimited : State :=
  { motArgs (axBase { axStill with desc := { axStill.desc with limP := some 5 } }) 10 1 with
    ptd := { base.ptd with act := [(5, { kind := .bit, hot := true })], hot := [(0, { value := 1, q := 1 })] } }

/-- AxisCommandsAreCheckedAtOnce: the states of its clauses. -/
theorem witness_axis_commands :
    (axBase axVirtual).writeOk .mot 0x100 .wo .host = true ∧ ((axBase axVirtual).hd .mot).run = true ∧ ((axBase axVirtual).axis 127).state = .disabled ∧
    ((axBase axVirtual).axis 127).applied = true ∧ ((axBase axVirtual).axis 127).desc.bind = .virtual_ ∧ ((axBase axVirtual).axis 127).mayMove = false ∧
    ((axBase axStill).axis 127).mayMove = true ∧ ((axBase axStill).axis 127).outside ((motArgs (axBase axStill) 10 1).argPos * 65536) = false ∧
    ((axBase axStill).axis 127).outside ((motArgs (axBase axStill) 11 1).argPos * 65536) = true ∧ (motArgs (axBase axStill) 10 1).blocked axStill 1 = false ∧
    axLimited.blocked (axLimited.axis 127) (axLimited.argPos * 65536 - fix16 ((axLimited.axis 127).posAt axLimited.tick)) = true ∧
    axLimited.blocked (axLimited.axis 127) axLimited.argVel = true ∧ (axLimited.axis 127).mayMove = true ∧
    (axLimited.axis 127).outside (axLimited.argPos * 65536) = false ∧
    ((axBase { axStill with state := .moving }).axis 127).state = .moving ∧ ((axBase { axStill with state := .stopping }).axis 127).state = .stopping ∧
    ((axBase axStill).axis 127).desc.homeMode = 4 ∧ isBad ((axBase axStill).readPoint ((axBase axStill).axis 127).desc.cmdPt).q = true ∧
    ((axBase { axStill with state := .fault, fault := 5 }).axis 127).fault = 5 := by decide +kernel

/-- FOLLOW of a point that is good. -/
theorem witness_axis_follow :
    (let s := { axBase { axStill with desc := { axStill.desc with cmdPt := 5 } } with
                ptd := { base.ptd with act := [(5, { kind := .q15, hot := true })], hot := [(0, { value := 1, q := 1 })] } }
     (s.axis 127).state = .standstill ∧ isBad (s.readPoint (s.axis 127).desc.cmdPt).q = false ∧ s.blocked (s.axis 127) 1 = false) := by decide

/-- GMOVE of a group of one axis that stands at its target. -/
theorem witness_gmove :
    (let s := { axBase axStill with mot := { (axBase axStill).mot with grps := [(15, { desc := { members := [(0, 127)], v := 100, acc := 100, dec := 100 } })] } }
     s.gmoveCheck 15 ((List.range 8).map s.gTgt) = 0) := by decide +kernel

/-- A plan of three periods from rest at 0 to rest at 3 units, and axis 127 in its period `k`. -/
def plan3 : Plan := { p0 := 0, segs := [.ramp 3 0 131072], pEnd := 196608, vEnd := 0 }
def planBase (k : Nat) : State := axBase { axVirtual with state := .moving, motion := .plan plan3 k }

/-- `base` with axis 127 on drive channel 15, its bus voltage point 5 good, and its state. -/
def drvBase (a : Axis) : State :=
  { axBase { a with applied := true, desc := { axVirtual.desc with bind := .local_, drv := 15, vbusPt := 5, uRi := 100, dutyMax := 32767 } } with
    ptd := { base.ptd with act := [(5, { kind := .q15, hot := true })], hot := [(0, { value := 16384, q := 1 })] } }

/-- MotionAdvancesByItsPlan: RUN = 0; a plan before its last period and in it; a drive channel without and with an axis. -/
theorem witness_motion :
    (base.hd .mot).pwr = .on ∧ (base.hd .mot).run = false ∧ ((planBase 0).hd .mot).pwr = .on ∧ ((planBase 0).hd .mot).run = true ∧
    (planBase 0).axesApplied = [127] ∧ (planBase 0).mot.grps = [] ∧ (∀ e ∈ (planBase 0).mot.axes, e.2.next = none) ∧
    ((planBase 0).axis 127).applied = true ∧ ((planBase 0).axis 127).state = .moving ∧ ((planBase 0).axis 127).motion = .plan plan3 0 ∧
    ((planBase 0).axis 127).inGroup = none ∧ ((planBase 0).axis 127).cmd = none ∧ ((planBase 0).axis 127).replan = false ∧
    ((planBase 0).axis 127).faultNext = 0 ∧ ((planBase 0).axis 127).desc.encEn = false ∧ ((planBase 0).axis 127).desc.stallEn = false ∧
    ((planBase 0).axis 127).desc.bind = .virtual_ ∧ ((planBase 0).axis 127).desc.limP = none ∧ ((planBase 0).axis 127).desc.limN = none ∧
    1 + 1 < plan3.len ∧ plan3.len ≤ 2 + 1 ∧ base.driveAxis 15 = none ∧ (drvBase { phase := .full }).driveAxis 15 = some 127 ∧
    (drvBase { phase := .full }).erm.fatal = false ∧ ((drvBase { phase := .full }).axis 127).phase = .full ∧
    isBad ((drvBase { phase := .full }).readPoint 5).q = false ∧
    sext 16 ((drvBase { phase := .full }).readPoint 5).value.toNat ≠ 0 := by decide

/-- `base` with encoder 15 enabled and its filter at 3 ticks, class A ENC point 5 bound to it and loop 9 on that point. -/
def encBase : State :=
  { base with regs := Tab.put none [] (regKey ⟨.mot, R.MOT_ENC_CFG.off + 60⟩) (some 0x09),
              ptd := { base.ptd with act := [(5, { kind := .int32, hot := true, cls := .a, srcType := .enc, srcRef := 15 })] },
              ce := { base.ce with desc := [(9, { law := .pid, inPt := 5 })] } }

/-- MotionAdvancesByItsPlan: the hold, an encoder's edge at its filter's length, an armed latch, a loop's acquisition. -/
theorem witness_motion_inputs :
    ((axBase { axStill with holding := true }).axis 127).state = .standstill ∧ ((axBase { axStill with holding := true }).axis 127).holding = true ∧
    bit (encBase.encCfg 15) 0 = true ∧ bits (encBase.encCfg 15) 4 2 + 1 ≤ 3 ∧ (encBase.enc 15).a ≠ true ∧ (encBase.enc 15).b ≠ true ∧ (8 : Nat) < 9 ∧ nbit (axBase { latArmed := true, desc := { latchSrc := 7, edge := 2 } }).mot.latLvl 7 = !true ∧
    ((axBase { latArmed := true, desc := { latchSrc := 7, edge := 2 } }).axis 127).latArmed = true ∧
    ((axBase { latArmed := true, desc := { latchSrc := 7, edge := 2 } }).axis 127).desc.latchSrc = 7 ∧
    ((axBase { latArmed := true, desc := { latchSrc := 7, edge := 2 } }).axis 127).desc.edge = 2 ∧
    encBase.present .ce = true ∧ encBase.loopUsed 9 = true ∧ (encBase.loop 9).inPt = 5 ∧ (encBase.point 5).kind ≠ .none ∧
    (encBase.point 5).srcType = .enc ∧ (encBase.point 5).cls = .a ∧ (encBase.point 5).srcRef = 15 := by decide

/-- `base` with editing copies: axis 127 a VIRTUAL axis that passes, axis 0 with COMMIT and a reserved bit, group 15 of axis 1, group 0 with COMMIT and
no member. -/
def motEdits : State :=
  let s := ((((base.store32 (axisEdit 127 + 8) 1).store32 (axisEdit 127 + 12) 1).store32 (axisEdit 127 + 16) 1).store32 (axisEdit 127 + 20) 1).store32
    (axisEdit 127 + 124) 0x80000000
  (((s.store32 (axisEdit 0 + 124) 0x90000000).store32 (grpEdit 15) 0x81).store32 (grpEdit 15 + 28) 0x80000000).store32 (grpEdit 0 + 28) 0x80000000

/-- `motEdits` with a check running. -/
def motBusy (a g : Option Nat) : State := { motEdits with mot := { motEdits.mot with axisBusy := a, grpBusy := g } }

/-- MotionDescriptorsCommit: GOs with and without COMMIT and during a check; descriptors that pass and that fail. -/
theorem witness_motion_descriptors :
    motEdits.writeOk .mot 0x120 .wo .host = true ∧ motEdits.writeOk .mot 0x128 .wo .host = true ∧ motEdits.mot.axisBusy = none ∧ motEdits.mot.grpBusy = none ∧
    bit (motEdits.mem32 (axisEdit 127 + 124)) 31 = true ∧ bit (motEdits.mem32 (axisEdit 1 + 124)) 31 = false ∧
    bit (motEdits.mem32 (grpEdit 15 + 28)) 31 = true ∧ bit (motEdits.mem32 (grpEdit 1 + 28)) 31 = false ∧ (motBusy (some 127) none).mot.axisBusy ≠ none ∧
    (motBusy (some 127) none).axisDescCheck 127 (parseAxis ((motBusy (some 127) none).editWord (axisEdit 127) 31)) ((motBusy (some 127) none).editWord (axisEdit 127) 31) = 0 ∧
    (parseAxis ((motBusy (some 127) none).editWord (axisEdit 127) 31)).bind ≠ .lane ∧
    (motBusy (some 0) none).axisDescCheck 0 (parseAxis ((motBusy (some 0) none).editWord (axisEdit 0) 31)) ((motBusy (some 0) none).editWord (axisEdit 0) 31) ≠ 0 ∧
    (motBusy none (some 15)).grpDescCheck 15 (parseGrp ((motBusy none (some 15)).editWord (grpEdit 15) 7)) ((motBusy none (some 15)).editWord (grpEdit 15) 7) = 0 ∧
    (motBusy none (some 0)).grpDescCheck 0 (parseGrp ((motBusy none (some 0)).editWord (grpEdit 0) 7)) ((motBusy none (some 0)).editWord (grpEdit 0) 7) ≠ 0 := by
  decide

/-- An instruction word from Table ILP-1: opcode, space, address. -/
def ilpWord (op sp a : Nat) : Word := BitVec.ofNat 32 (op * 2 ^ 26 + sp * 2 ^ 24 + a)

/-- A processor with ACC 1 and one running timer, and the same with both stacks full. -/
def ilpOn : Ilp := { acc := true, bstack := [(true, true)], T := [(4095, { ptRun := 7, running := true, start := 0xFFFFFFFF })], tclk := 6 }
def ilpFull : Ilp := { bstack := List.replicate 8 (true, true), cstack := List.replicate 16 0 }

/-- IlpInstructionsFollowTheTable: a word of every instruction, the stacks empty, with room and full, and both values of ACC. -/
theorem witness_ilp_instructions :
    (∀ op ∈ [0x01, 0x04, 0x06, 0x07, 0x0D, 0x0F, 0x15, 0x18, 0x1A, 0x1C, 0x22, 0x23, 0x24, 0x3F, 0x10], iOp (ilpWord op 0 0) = op) ∧
    iOp (ilpWord 0x09 1 0) = 0x09 ∧ iSpace (ilpWord 0x09 1 0) = 1 ∧ iOp (ilpWord 0x0B 2 0xFFFF) = 0x0B ∧ iSpace (ilpWord 0x0B 2 0xFFFF) = 2 ∧
    ilpFull.acc = false ∧ ilpOn.acc = true ∧ ilpOn.bstack.length < 8 ∧ ilpFull.bstack.length = 8 ∧ ilpOn.bstack = [(true, true)] ∧
    ({} : Ilp).bstack = [] ∧ ilpOn.cstack.length < 16 ∧ ilpFull.cstack.length = 16 ∧ ilpOn.cstack = [] ∧
    iAddr (ilpWord 0x10 0 4095) = 4095 ∧ iOp (ilpWord 0x10 0 4095) = 0x10 ∧ (Tab.get {} ilpOn.T (iAddr (ilpWord 0x10 0 4095))).running = true ∧
    (Tab.get {} ilpFull.T (iAddr (ilpWord 0x10 0 4095))).running = false ∧ iOp (ilpWord 0x13 0 0) = 0x13 ∧ bit (ilpWord 0x13 0 0) 23 = false := by decide

/-- `base` with an interlock logic processor, ILP running and an execution limit. -/
def ilpBase (x : Ilp) : State :=
  { hdrOf .ilp { en := true, run := true, running := true } with regs := Tab.put none [] (regKey R.ILP_EXEC_LIMIT) (some 2), ilp := x }

/-- A program of END alone, one that returns without a call, and one of two loads. -/
def ilpProg (c : List Word) : Ilp := { mode := .run, empty := false, img := { code := c } }

/-- The hold permission set in the island's parameters. -/
def holdOn (s : State) : State := { s with saf := { s.saf with param := [0, 0, 1] } }

/-- A state with an image of one END, its CRC word as given, and a load that runs. -/
def loadBase (c : Word) : State :=
  let ws : List Word := [0x41535250, 1, 1, 0, 0, 0, 0, 0, 0, 0, 0, 0, 0, 0, 0, 72, 0xFC000000, c]
  { ilpBase { loadBusy := true } with
    mem := ((List.range 18).foldl (fun (s : State) k => s.store32 (0x08000000 + 4 * k) (nth 0 ws k)) base).mem,
    regs := Tab.put none (Tab.put none [] (regKey R.ILP_IMG_ADDR_LO) (some 0x08000000)) (regKey R.ILP_IMG_LEN) (some 72) }

/-- IlpModesScansAndLoads: the scan and the mode commands. -/
theorem witness_ilp_modes :
    base.present .ilp = true ∧ base.ilp.mode = .stop ∧ base.ilp.empty = true ∧
    (let s := ilpBase (ilpProg [0xFC000000])
     let s1 := (s.updIlp fun x => { x with consec := if x.overrun then 0 else x.consec, overrun := false, doom := false }).ilpSnapshot
     s.present .ilp = true ∧ s.ilp.mode = .run ∧ s.ilp.doom = false ∧ (s.hd .ilp).run = true ∧ s.ilp.busyTo ≤ s.cpu.mtime ∧ s.ilp.img.wmap = [] ∧ s.ilp.chg = [] ∧
     (Ilp.runOn s1.ilpBps (s.reg R.ILP_EXEC_LIMIT).toNat false s1.ilp).2 = .done ∧ s1.ilpDoomed 0 = false ∧
     s.writeOk .ilp 0x108 .wo .host = true ∧ (holdOn s).holdPermit = true ∧ s.holdPermit = false) ∧
    (let s := ilpBase (ilpProg [0x90000000])
     let s1 := (s.updIlp fun x => { x with consec := if x.overrun then 0 else x.consec, overrun := false, doom := false }).ilpSnapshot
     (Ilp.runOn s1.ilpBps (s.reg R.ILP_EXEC_LIMIT).toNat false s1.ilp).2 = .fault 2) ∧
    (let s := ilpBase { ilpProg [0xFC000000] with mode := .stop }
     s.ilp.mode = .stop ∧ s.ilp.empty = false ∧ (s.hd .ilp).run = true ∧ s.ilp.loadBusy = false ∧ s.ilp.newImage = false) ∧
    (let s := ilpBase { ilpProg [0xFC000000] with mode := .stop, newImage := true }
     s.ilp.newImage = true ∧ s.ilp.img.slots = []) ∧
    (let s := ilpBase { ilpProg [0x04000000, 0xFC000000] with mode := .hold, inScan := true }
     s.ilp.mode = .hold ∧ s.ilp.inScan = true ∧ s.ilp.execN < (s.reg R.ILP_EXEC_LIMIT).toNat ∧
     ({ s.ilp with result := 0 } : Ilp).step1.2 = none ∧ ({ s.ilp with result := 0 } : Ilp).step1.1.execN < (s.reg R.ILP_EXEC_LIMIT).toNat) := by
  decide

/-- IlpModesScansAndLoads: loads and changes, the queue with room and full, the index inside and outside. -/
theorem witness_ilp_loads :
    base.writeOk .ilp 0x11C .w1s .host = true ∧ base.ilp.loadBusy = false ∧ (ilpBase (ilpProg [])).ilp.mode ≠ .stop ∧
    (loadBase 0).ilp.loadBusy = true ∧ (loadBase 0).present .ilp = true ∧ inSram (loadBase 0).imgAddr ((loadBase 0).reg R.ILP_IMG_LEN).toNat = true ∧
    (ilpBase (ilpProg [])).writeOk .ilp 0x148 .w1s .host = true ∧
    (let s := ilpBase { ilpProg [] with img := { kInit := [5] } }
     s.ilp.chg.length < 64 ∧ bits (s.reg R.ILP_CHG_TGT) 23 8 < s.ilp.chgRoom (bits (s.reg R.ILP_CHG_TGT) 2 0)) ∧
    (let s := ilpBase { ilpProg [] with mode := .stop, img := { kInit := [5] } }
     s.ilp.mode = .stop ∧ s.ilp.chg = [] ∧ bits (s.reg R.ILP_CHG_TGT) 23 8 < s.ilp.chgRoom (bits (s.reg R.ILP_CHG_TGT) 2 0)) ∧
    (let s := ilpBase { ilpProg [] with img := { tPre := [5] } }
     let s1 := { s with regs := Tab.put none (Tab.put none s.regs (regKey R.ILP_CHG_TGT) (some 1)) (regKey R.ILP_CHG_VAL) (some 0x80000000) }
     bits (s1.reg R.ILP_CHG_TGT) 2 0 = 1 ∧ 0 < s1.ilp.chgRoom 1 ∧ bit (s1.reg R.ILP_CHG_VAL) 31 = true) ∧
    (ilpBase { ilpProg [] with mode := .run, doom := true }).ilp.doom = true ∧
    (ilpBase { ilpProg [] with chg := List.replicate 64 ⟨0, 0, 0, 0⟩ }).ilp.chg.length = 64 ∧
    (ilpBase (ilpProg [])).ilp.chgRoom 0 ≤ bits ((ilpBase (ilpProg [])).reg R.ILP_CHG_TGT) 23 8 := by decide

/-- The image's words. -/
def loadWs (c : Word) : List Word := bytesWords ((loadBase c).load (loadBase c).imgAddr ((loadBase c).reg R.ILP_IMG_LEN).toNat)

/-- IlpModesScansAndLoads: a load whose image passes and one whose CRC does not; the CRC word of the first is that of its other words. -/
theorem witness_ilp_image : (loadBase 902547814).imageCheck (loadWs 902547814) 72 = none := by decide +kernel

theorem witness_ilp_image_bad : (loadBase 0).imageCheck (loadWs 0) 72 = some (0x22, 0, 10) := by decide +kernel

/-- A parameter set with pair 3 enabled (OSSD sources), output 3 enabled on pair 3 with EDM on pair 2, output 0 enabled on no pair. -/
def safParam : List Word := (List.range 64).map fun k => if k = 10 then 5 else if k = 18 then 0xA81 else if k = 12 then 1 else 0

/-- `base` with an island whose channels both see `st` on output 3, pair 3 healthy where `filt` is 0xC0. -/
def safBase (st0 st1 : SafState) (filt : Nat) : State :=
  let c := fun st : SafState => ({ passed := true, filt := filt, outs := Tab.put {} [] 3 { st := st } } : SChan)
  { base with upUs := 4000000, saf := { base.saf with param := safParam, ch := Tab.put {} (Tab.put {} [] 0 (c st0)) 1 (c st1) } }

/-- SafetyIslandOpensAndCloses: demands, latched pair faults, the reset pulse at its shortest and longest, and the faults of the channels. -/
theorem witness_saf_demand :
    (let x := (safBase .on .on 0xC0).saf
     (x.chan 1).alive = true ∧ x.pairEn 3 = true ∧ x.healthy 3 true (nbit x.raw 7) = false ∧ 3 ∈ x.outs ∧ 3 ∈ x.mapped 3 ∧ x.outSt 1 3 = .on ∧ x.outSt 0 3 = .on ∧
     ((x.chan 1).pair 3).held = 0 ∧ x.src 3 false = 1 ∧ nbit 0 (2 * 3) = false ∧ (x.chan 0).alive = true ∧ x.fwRestart = false ∧ x.energized 3 = true ∧ x.lastTest = none ∧
     Tab.get none x.test 3 = none ∧ x.outEn 3 = true ∧ x.idle = false ∧ (x.chan 0).passed = true) ∧
    Tab.get none ({ (safBase .on .on 0xC0).saf with disc := [(3, some 5)] } : Saf).disc 3 = some 5 ∧
    Tab.get none ({ (safBase .on .on 0xC0).saf with test := [(3, some 1)] } : Saf).test 3 = some 1 ∧
    (let x := (safBase .off .off 0xC0).saf
     x.energized 3 = false ∧ x.idle = true ∧ x.outEn 3 = true) ∧
    (safBase .on .off 0xC0).saf.outSt 0 3 = .on ∧ (safBase .on .off 0xC0).saf.outSt (1 - 0) 3 ≠ .on := by decide

theorem witness_saf_reset :
    (let s := { safBase .waitReset .waitReset 0xC0 with saf := { (safBase .waitReset .waitReset 0xC0).saf with lowSince := some 0, us := 4000000 } }
     s.saf.lowSince = some 0 ∧ 0 + 50000 + 3000000 ≤ s.saf.us ∧ (∀ c < 2, (s.saf.chan c).alive = true ∧ (s.saf.chan c).passed = true) ∧ s.erm.fatal = false ∧
     3 ∈ s.saf.outs ∧ 3 ∈ s.saf.mapped 3 ∧ nbit 8 3 = true ∧ ∀ c < 2, s.saf.outSt c 3 = .waitReset) ∧
    (let s := { safBase .waitReset .waitReset 0xC0 with
                  saf := { (safBase .waitReset .waitReset 0xC0).saf with param := safParam.map fun w => if w = 0xA81 then 0x281 else w } }
     3 ∈ s.saf.outs ∧ s.saf.edmEn 3 = false ∧ (∀ n ∈ s.saf.mapped 3, nbit 0 n = false) ∧ ∀ c < 2, s.saf.outSt c 3 = .waitReset ∧ s.saf.gated c 3 = false) := by decide

/-- SafetyIslandOpensAndCloses: EDM, parameters, firmware, start-up and supply. -/
theorem witness_saf_service :
    (let x := { (safBase .off .off 0xC0).saf with ch := Tab.put {} (safBase .off .off 0xC0).saf.ch 1 { ((safBase .off .off 0xC0).saf.chan 1) with edm := [3] } }
     3 ∈ (x.chan 1).edm ∧ (x.chan 1).alive = true ∧ x.demand 1 (x.edmPair 3) ≠ decide (x.outSt 1 3 = .on)) ∧
    ({ (safBase .off .off 0xC0).saf with paramIn := [[1]] } : Saf).paramIn = [[1]] ∧
    ({ (safBase .off .off 0xC0).saf with pending := some [] } : Saf).pending = some [] ∧
    ({ (safBase .off .off 0xC0).saf with fwIn := [[1]] } : Saf).fwIn = [[1]] ∧
    (let x := { (safBase .off .off 0xC0).saf with fwPending := some 7 }
     x.fwPending = some 7 ∧ x.fwRestart = false ∧ x.idle = true ∧ (x.chan 1).alive = true) ∧
    (let x := { (safBase .off .off 0xC0).saf with fwPending := some 7, fwRestart := true }
     x.fwRestart = true ∧ x.fwPending = some 7) ∧
    (base.saf.chan 0).alive = true ∧ (base.saf.chan 0).passed = false ∧ (safBase .off .off 0xC0).saf.param ≠ [] ∧
    (let x := { (safBase .off .off 0xC0).saf with ch := Tab.put {} [] 1 { alive := false } }
     (x.chan 1).alive = false) := by decide

/-- A field die with its link up, channel 31 an output (safe state ON) and 0 an input, as given by `f`, in a block with RUN set. -/
def fioBase (f : Fio → Fio) : State :=
  { hdrOf .fio { en := true, run := true, running := true } with
    fio := f { base.fio with cfg := Tab.put 0 (Tab.put 0 [] (0x200 + 4 * 31) 0x06) 0x200 1, cmd := 0x80000000,
                             groups := Tab.put {} (Tab.put {} [] 0 { st := .ok }) 1 { st := .ok } } }

/-- A group's state put in place. -/
def withGrp (g : Nat) (r : FGroup) (x : Fio) : Fio := { x with groups := Tab.put {} x.groups g r }

/-- FieldDieFollowsItsTables: the link, silence and frames. -/
theorem witness_fio_link :
    (fioBase id).fio.linkUp = true ∧ ((fioBase id).hd .fio).run = true ∧ (fioBase id).fio.silent = false ∧ (fioBase id).fio.isOut 31 = true ∧
    (fioBase id).fio.forcedOff 31 = false ∧ nbit (fioBase id).fio.mmOff 31 = false ∧ (fioBase fun x => { x with silent := true }).fio.silent = true ∧
    (fioBase fun x => { x with linkUp := false }).fio.linkUp = false ∧ ((fioBase fun x => { x with linkUp := false }).hd .fio).pwr = .on ∧
    ((fioBase id).fio.group 1).st = .ok ∧
    (let s := { fioBase id with ptd := { base.ptd with act := [(5, { kind := .bit, cls := .a, srcType := .fioCh, srcRef := 0 })] } }
     s.fio.isIn 0 = true ∧ nbit s.fio.level 0 = !true ∧ s.boundTo .fioCh 0 = some 5 ∧ (s.point 5).cls = .a ∧ (s.point 5).output = false ∧
     (s.fio.group (0 / 16)).st ≠ .uv) := by decide

/-- FieldDieFollowsItsTables: channels and groups. -/
theorem witness_fio_groups :
    nbit (fioBase fun x => { x with driven := 0x80000000 }).fio.driven 31 = true ∧ nbit (fioBase id).fio.mm 31 = false ∧
    bit ((fioBase id).fio.chCfg 31) 6 = false ∧ nbit (fioBase id).fio.driven 31 = !true ∧ ((fioBase id).fio.group 0).warn = false ∧
    ((fioBase id).fio.group 1).st ≠ .uv ∧ ((fioBase (withGrp 1 { st := .uv })).fio.group 1).st = .uv ∧
    ((fioBase (withGrp 1 { st := .uv })).fio.group 1).uvTest = false ∧ ((fioBase (withGrp 0 { st := .uv })).fio.group 0).fromOff = false ∧
    ((fioBase (withGrp 0 { st := .uv })).fio.group 0).quiet = false ∧
    (∀ k ∈ groupChans 0, (fioBase (withGrp 0 { st := .uv })).fio.isOut k = true → (fioBase (withGrp 0 { st := .uv })).fio.autoRestore k = true) ∧
    (fioBase (withGrp 1 { st := .uv })).fio.isOut 31 = true ∧ (fioBase (withGrp 1 { st := .uv })).fio.autoRestore 31 = false ∧ 31 ∈ groupChans 1 ∧
    (fioBase id).writeOk .fio 0x11C .wo .host = true ∧ (fioBase fun x => withGrp 1 {} { x with cfgSync := true }).fio.cfgSync = true ∧
    ((fioBase (withGrp 1 {})).fio.group 1).st = .waitEn ∧ (fioBase id).fio.cfgSync = false ∧ (fioBase id).writeOk .fio 0x124 .rw .host = true ∧
    (fioBase id).testOpen = true ∧ ((fioBase id).fio.group 0).uvTest = false ∧
    State.testOpen { fioBase id with sys := { base.sys with sysrec := { base.sys.sysrec with lifecycle := 2 } } } = false := by decide

/-- FieldDieFollowsItsTables: analog inputs and outputs; code 32,767 is 32,767 × 10 V / 32,768. -/
theorem witness_fio_analog :
    ((fioBase id).hd .fio).pwr = .on ∧ 300 % 200 = bits ((fioBase id).reg R.FIO_AI_PHASE) 7 0 ∧ bit ((fioBase id).fio.aiCfg 7) 0 = false ∧
    (fioBase id).fio.calBusy = false ∧ (Tab.get {} (fioBase id).fio.ai 7).off = false ∧
    nth 0 [0, 0, 0, 0, 0, 0, 0, 9765625] 7 * 32768 = (32 : Int) * 10000000000 ∧
    nth 0 [0, 0, 0, 0, 0, 0, 0, -10000000000] 7 * 32768 = (-32768 : Int) * 10000000000 ∧
    (fioBase fun x => { x with aiT := some 500 }).fio.aiT = some 500 ∧ (fioBase id).writeOk .fio 0x150 .w1s .host = true ∧ (fioBase id).aiInUse = false ∧
    (let s := { fioBase id with acq := { base.acq with armReq := true } }
     s.aiInUse = true ∧ s.writeOk .fio 0x150 .w1s .host = true) ∧
    (fioBase fun x => { x with calBusy := true }).fio.calBusy = true ∧ (∀ d ∈ [10, 0, 0, 0, 0, 0, 0, 70], d % 10 = 0) ∧
    [10, 0, 0, 0, 0, 0, 0, 70].length = 8 ∧ [10, 0, 0, 0, 0, 0, 0, 70].sum % 8 = 0 ∧
    (Tab.get {} (fioBase fun x => { x with ao := [(3, { wait := some (-5) })] }).fio.ao 3).wait = some (-5) := by decide

/-- `base` with register words. -/
def regsOf (l : List (RegId × Nat)) (s : State) : State :=
  { s with regs := l.foldl (fun t x => Tab.put none t (regKey x.1) (some (word x.2))) s.regs }

/-- The register of port 7, and of its station 127. -/
def lreg (r : RegId) : RegId := ⟨r.blk, r.off + 0x7000⟩
def sreg (r : RegId) : RegId := ⟨r.blk, r.off + 0x7000 + 16 * 127⟩

/-- `base` with LNE running, port 7 and its station 127 (class A outputs of 4 bytes, class B of 8 and 8) as given. -/
def lneBase (x : LPort) (y : Sta) : State :=
  regsOf [(sreg R.LNE_STA_D2, 0x80008), (sreg R.LNE_STA_D3, 4)]
    { hdrOf .lne { en := true, run := true, running := true } with lne := { ports := Tab.put {} [] 7 x, sta := Tab.put {} [] 1023 y } }

def lneRun : LPort := { state := .running, link := true, nFound := 1, found := [(0, { sta := some 127, delay := some 100 })] }
def staOp : Sta := { state := .operational, bHeard := true, arr := 31250 }

/-- LanePortsRunTheirProtocol: windows, cycles and process data. -/
theorem witness_lane_process :
    (let s := lneBase lneRun staOp
     (s.lport 7).windows = true ∧ (s.lport 7).inj.delayed = [] ∧ (s.lport 7).inj.enNext.getD (s.lport 7).inj.en = false ∧ (s.lport 7).state = .running ∧
     (s.lport 7).inj.en = false ∧ s.stasWhere 7 (fun y => decide (y.state = .operational)) = [127] ∧ 0 < (s.staDesc 7 127).aOut ∧ s.sendsA 7 127 = false ∧
     (s.lport 7).stopReq = false ∧ s.stasWhere 7 (fun y => (decide (y.state = .operational) || decide (y.state = .safe)) && !y.failed) = [127] ∧
     (s.sta 7 127).state = .operational ∧ (s.sta 7 127).bHeard = true ∧ (s.sta 7 127).noOut = false ∧ (s.hd .lne).pwr = .on ∧ (s.lport 7).eth = false ∧
     (s.sta 7 127).state ≠ .absent ∧ 8 + (s.staDesc 7 127).bIn ≤ (List.replicate 16 (3 : Byte)).length ∧
     4 + (s.staDesc 7 127).aIn + 8 * 0 ≤ (List.replicate 4 (0 : Byte)).length ∧ (s.sta 7 127).upOfs + (s.sta 7 127).ds ≤ 100 ∧
     100 + wire (8 + 4) + 200 ≤ (s.sta 7 127).arr ∧ (s.lport 7).nFound < 128 ∧ (s.lport 7).state ≠ .off) ∧
    (let s := regsOf [(sreg R.LNE_STA_D3, 0x404)] (lneBase lneRun { staOp with upOfs := 101 })
     s.sendsA 7 127 = true ∧ (s.sta 7 127).aHeard = false ∧ 100 < (s.sta 7 127).upOfs + (s.sta 7 127).ds ∧
     s.stasWhere 7 (fun y => decide (y.state = .operational)) = [127]) ∧
    (lneBase { lneRun with stopReq := true } staOp).lport 7 = { lneRun with stopReq := true } ∧
    (let s := lneBase lneRun { staOp with bHeard := false, missed := 65534 }
     (s.sta 7 127).bHeard = false ∧ (s.sta 7 127).missed < 65535 ∧ (s.sta 7 127).missed + 1 ≠ bits (s.lneCfg 7) 15 8) := by decide

/-- LanePortsRunTheirProtocol: enumeration and commands. -/
theorem witness_lane_control :
    (let s := lneBase { state := .enum, sentC := [.probe 126] } {}
     (s.hd .lne).pwr = .on ∧ (s.lport 7).eth = false ∧ (s.lport 7).windows = true ∧ (s.lport 7).inj.en = false ∧ (s.lport 7).state = .enum ∧
     (s.lport 7).sentC = [.probe 126] ∧ 32 ≤ (List.replicate 32 (0 : Byte)).length) ∧
    (lneBase { state := .config, sentC := [.cfg 127] } { state := .enum }).lport 7 = { state := .config, sentC := [.cfg 127] } ∧
    (lneBase { state := .config, sentC := [.cmd 127 2] } { state := .config }).lport 7 = { state := .config, sentC := [.cmd 127 2] } ∧
    (let s := lneBase { lneRun with sentC := [.delayReq 0] } { staOp with ds := 100 }
     (s.lport 7).sentC = [.delayReq 0] ∧ (Tab.get {} (s.lport 7).found 0).sta = some 127 ∧ (400 - 0) / 2 ≤ (s.sta 7 127).ds + 100) ∧
    (let s := lneBase {} {}
     s.writeOk .lne 0x8010 .wo .host = true ∧ s.writeOk .lne 0x8014 .wo .host = true ∧ s.writeOk .lne 0x8040 .w1s .host = true ∧
     s.writeOk .lne 0x804C .rw .host = true ∧ s.writeOk .lne 0x810C .rw .host = true ∧ s.writeOk .lne 0x8114 .rw .host = true ∧
     (s.lport 7).state = .off ∧ (s.hd .lne).run = true ∧ bit (s.lneCfg 7) 0 = false ∧
     (s.admitAll s.staDesc s.remoteTgts s.armSlots s.cycleW).1 = 0 ∧ (s.lport 7).link = false ∧ s.debugOpen = true ∧ (s.lport 7).inj.unlocked = false) ∧
    (let s := regsOf [(lreg R.LNE_CFG, 0x40300), (lreg R.LNE_CFG2, 0x40)] (lneBase lneRun staOp)
     (s.admitAll s.staDesc s.remoteTgts s.armSlots s.cycleW).1 = 0 ∧ (s.lport 7).state = .running) ∧
    (let s := lneBase { state := .enum, sentC := [.probe 5], nFound := 5 } {}
     (s.lport 7).sentC = [.probe 5] ∧ (s.lport 7).nFound = 5) ∧
    ((lneBase { state := .linkWait } {}).lport 7).state = .linkWait ∧
    (let s := { lneBase {} {} with sys := { base.sys with debugUnlocked := false, sysrec := { base.sys.sysrec with lifecycle := 2 } } }
     s.debugOpen = false ∧ State.writeOk { s with sys := { s.sys with sysrec := { s.sys.sysrec with pmap := [(17, 1)] } } } .lne 0x8040 .w1s .host = true) ∧
    (let s := { lneBase { inj := { unlocked := true } } {} with
                  csc := { base.csc with ents := [(0, { valid := true, state := .sent, desc := { action := .remote, target := 7 * 65536 } })] } }
     (s.lport 7).inj.unlocked = true ∧ s.portPend 7 ≠ 0) ∧ (lneBase { inj := { unlocked := true } } {}).portPend 7 = 0 := by decide

/-- Port 7 in Ethernet mode with two receive and two transmit entries. -/
def ethBase : State :=
  regsOf [(lreg R.LNE_ETH_RING_CFG, 0x20002), (lreg R.LNE_ETH_RING_LO, 0x08000000)]
    { lneBase { state := .ethUp, eth := true, link := true, rxTail := 1, txTail := 1 } {} with
      hdr := Tab.put {} (Tab.put {} [] Block.lne.code { en := true, run := true, running := true }) Block.mem.code { running := true } }

/-- LanePortsRunTheirProtocol: Ethernet; a broadcast frame of 60 bytes. -/
theorem witness_lane_eth :
    (ethBase.lport 7).state = .ethUp ∧ (ethBase.hd .lne).pwr = .on ∧ (ethBase.hd .mem).running = true ∧ (List.replicate 60 (0xFF : Byte)).length = 60 ∧
    ethBase.ethTakes 7 (List.replicate 60 0xFF) = true ∧ 0 < ethBase.ethRx 7 ∧ (ethBase.lport 7).rxHead ≠ (ethBase.lport 7).rxTail ∧ 0 < ethBase.ethTx 7 ∧
    (ethBase.lport 7).txHead ≠ (ethBase.lport 7).txTail ∧
    ethBase.ptpEvent 7 (ethBase.load (ethBase.mem64 (ethBase.txEntry 7 0)) (ethBase.mem64 (ethBase.txEntry 7 0 + 8) % 65536)) = none := by decide

/-- Device 3 with port 5 as given toward device 9, which leads to devices 0 and 63. -/
def aveBase (st : APState) (f : Ave → Ave) : State :=
  { base with ave := f { base.ave with devId := 3, assigned := true, ports := Tab.put {} [] 5 { st := st, peer := 9, dly := 100 },
                                       rt := [(0, { pri := 5, valid := true, hops := 2 }), (9, { pri := 5, alt := 4, valid := true, lfa := true, hops := 1 }),
                                              (63, { pri := 5, valid := true, hops := 1 })] } }
def aveUp (f : Ave → Ave) : State := aveBase .up f

/-- A header of a good frame. -/
def ahdr (dst src hops tag : Nat) : AHdr := { dst := dst, src := src, hops := hops, tag := tag, crc := true }

/-- AvenuePortsAndGateway: ports and the frames that go on. -/
theorem witness_ave_ports :
    ((aveBase .training id).aport 5).st = .training ∧ (aveBase .training fun a => { a with discBusy := true }).ave.discBusy = true ∧
    ((aveUp id).aport 5).st = .up ∧ ((aveUp id).aport 5).st ≠ .off ∧ ((aveUp id).route 9).valid = true ∧ ((aveUp id).route 9).lfa = true ∧
    ((aveUp id).route 9).pri = 5 ∧ ((aveBase .down id).aport 5).st = .down ∧ (aveUp id).present .ave = true ∧ ((aveUp id).aport 5).inj.en = false ∧
    { ahdr 3 9 0 1 with crc := false }.crc = false ∧ (ahdr 20 9 0 1).crc = true ∧ (aveUp id).ave.owns 20 = false ∧ (ahdr 20 9 0 1).hops = 0 ∧
    (ahdr 63 9 1 1).hops ≠ 0 ∧ (aveUp id).nextPort 63 = some 5 ∧ (aveUp id).ave.owns 63 = false ∧ (aveUp id).ave.owns 3 = true := by decide

/-- `aveUp` with point 6 subscribed to point 7 of device 9. -/
def aveSub (c : Bool) : State :=
  { (aveUp fun a => { a with subs := Tab.put {} [] 6 { gid := 9 * 2 ^ 19 + 7, confirmed := c } }) with
    hdr := Tab.put {} [] Block.ptd.code { en := true, run := true, running := true },
    ptd := { base.ptd with act := [(6, { kind := .int32, cls := .a, hot := true, hotIndex := 1, srcType := .ave, srcRef := 9 * 2 ^ 19 + 7 })] } }

/-- AvenuePortsAndGateway: points, requests, link states and discovery. -/
theorem witness_ave_frames :
    (aveSub true).boundTo .ave ((ahdr 3 9 0 1).src * 2 ^ 19 + 7) = some 6 ∧ (Tab.get {} (aveSub true).ave.subs 6).confirmed = true ∧
    (aveSub false).boundTo .ave (9 * 2 ^ 19 + 7) = some 6 ∧ (Tab.get {} (aveSub false).ave.subs 6).confirmed = false ∧
    (let q : FReq := { dev := 9, req := .block .csc, addr := 0x100, wr := false, wide := false, body := .rdReq 0x100 .host false }
     let s := aveUp fun a => { a with reqs := [(65535, q)] }
     s.ave.reqs = [(65535, q)] ∧ q.dev = (ahdr 3 9 0 65535).src ∧ q.wr = false ∧ { q with wr := true }.wr = true ∧ s.ave.waitReqs = []) ∧
    (aveUp id).ave.reqs = [] ∧ (aveUp id).ave.owns 62 = false ∧ seqAfter 0 65535 = true ∧ seqAfter 65535 0 = false ∧ seqAfter 0 0 = false ∧
    seqAfter 1 (Tab.get {} (aveUp id).ave.lst (62 * 8 + 5)).seq = true ∧
    (Tab.get {} (aveUp fun a => { a with lst := Tab.put {} [] 501 { up := true } }).ave.lst (62 * 8 + 5)).up = true ∧
    (∃ n, n = Config.aveSerial.toNat) ∧ (aveUp fun a => { a with role := .left }).ave.role = .left ∧ (aveUp id).gwMode ≠ 2 := by
  refine ⟨?_, ?_, ?_, ?_, ?_, ?_, ?_, ?_, ?_, ?_, ?_, ?_, ⟨_, rfl⟩, ?_, ?_⟩ <;> decide

/-- The ACTIVE gateway in discovery, device 3 pinned to serial 8 and device 4 as well. -/
def aveGw (f : Ave → Ave) : State := aveUp fun a => f { a with role := .active, alias0 := true, discBusy := true }

theorem witness_ave_discovery :
    (aveGw id).ave.role = .active ∧ (aveGw id).ave.discBusy = true ∧ (0 : Nat) ≠ 1 ∧
    (aveGw id).ave.devs.any (fun e => decide (e.2.serial = 5) && decide (e.1 ≠ 0)) = false ∧ (aveGw id).idFor 5 = (some 1, 0) ∧
    (let s := regsOf [(⟨.ave, 0x200 + 8 * 63⟩, 8), (⟨.ave, 0x204 + 8 * 63⟩, 1), (⟨.ave, 0x200 + 8 * 4⟩, 8), (⟨.ave, 0x204 + 8 * 4⟩, 1)] (aveGw id)
     s.idFor 8 = (none, 0x27)) := by decide

/-- AvenuePortsAndGateway: time, triggers, subscriptions, admissions, grants, RELEASE. -/
theorem witness_ave_control :
    (let s := regsOf [(R.TIM_CFG, 2)] (aveUp id)
     s.timSrc = 2 ∧ s.timeParent = some 5) ∧ (aveUp id).timSrc ≠ 2 ∧
    ({ (aveUp id) with acq := { base.acq with state := .armed } }).acq.records = true ∧ (aveUp id).acq.records = false ∧
    (let s := { aveUp id with ptd := { base.ptd with act := [(6, { kind := .int32, cls := .a, hot := true, hotIndex := 1 })] } }
     classOf 0 = .a ∧ (s.point 6).hot = true ∧ (s.point 6).cls = .a ∧ (s.point 6).kind = kindOf 4 ∧ s.ave.pubs.length < 4096) ∧
    (aveUp id).ave.owns 62 = false ∧ ((aveUp id).point 6).hot = false ∧
    (aveGw id).ave.role = .active ∧ ((aveGw id).route 63).valid = true ∧ (aveGw id).ownLong 3 63 = false ∧
    (aveGw fun a => { a with ports := Tab.put {} [] 5 { st := .up, dly := 101 } }).ownLong 3 63 = true ∧ (aveUp fun a => { a with role := .standby }).ave.role = .standby ∧
    (aveGw id).ave.recSum - (Tab.get {} (aveGw id).ave.devs 63).grant + (aveGw id).recLimit ≤ (aveGw id).recLimit ∧
    (aveGw id).recLimit < (aveGw id).ave.recSum - (Tab.get {} (aveGw id).ave.devs 63).grant + ((aveGw id).recLimit + 1) := by decide

theorem witness_ave_publish_full :
    classOf 2 ≠ .a ∧ (let s := aveUp fun a => { a with pubs := List.replicate 4096 { idx := 0, dst := 0, cls := .c } }
      (s.ave.pubs.any fun r => decide (r.idx = 6) && decide (r.dst = 62)) = false ∧ 4096 ≤ s.ave.pubs.length ∧ s.ave.owns 62 = false) := by
  refine ⟨by decide, ?_, ?_, by decide⟩
  · show (List.replicate 4096 ({ idx := 0, dst := 0, cls := .c } : Pub)).any _ = false
    rw [List.any_replicate]; decide
  · show 4096 ≤ (List.replicate 4096 ({ idx := 0, dst := 0, cls := .c } : Pub)).length
    exact Nat.le_of_eq List.length_replicate.symm

/-- AvenuePortsAndGateway: the fabric window at both ends of a slot, time-outs, publications, the gateway's commands and injection. -/
theorem witness_ave_gateway :
    (0xFFFFFFFFC : Nat) % 4 = 0 ∧ (63 * 2 ^ 36 + 0xFFFFFFFFC : Nat) < 4398046511104 ∧ ((aveUp id).route 63).valid = true ∧ (aveUp id).ave.reqs.length < 64 ∧
    (aveUp id).ave.waitReqs = [] ∧ ((aveUp id).route 62).valid = false ∧ (aveUp id).ave.owns 62 = false ∧ (aveUp id).ave.owns 3 = true ∧
    (aveUp fun a => { a with pubs := [{ idx := 524287, dst := 63, cls := .a }] }).ave.pubs = [{ idx := 524287, dst := 63, cls := .a }] ∧
    (aveGw fun a => { a with standby := some 63 }).ave.standby = some 63 ∧
    ((aveSub true).point 6).srcType = .ave ∧ (aveSub true).canWrite 6 = true ∧ (aveSub true).forceOf 6 = none ∧ ((aveSub true).point 6).substEn = false ∧
    (aveUp id).writeOk .ave 0x10C .wo .host = true ∧
    (let s := regsOf [(R.AVE_CFG, 1)] { aveUp id with hif := { base.hif with up := true } }
     s.ave.role = .member ∧ s.gwMode = 1 ∧ s.hif.up = true ∧ s.ave.alias0 = false ∧ s.writeOk .ave 0x10C .wo .host = true) ∧
    (aveUp id).gwMode ≠ 1 ∧ (aveUp id).ave.role ≠ .active ∧ (aveGw fun a => { a with standby := some 63 }).standbyReach = some 63 ∧
    (aveGw id).standbyReach = none ∧ (aveGw id).ave.discBusy = true ∧ (aveUp id).ave.discBusy = false ∧
    (aveGw fun a => { a with devs := [(63, { serial := 5, grant := 7 })] }).ave.known 63 = true ∧ (aveGw id).ave.owns 63 = false ∧
    ((aveUp fun a => { a with role := .standby, rt := [] }).route 0).valid = false ∧ ((aveUp fun a => { a with role := .standby }).route 0).valid = true ∧
    (aveGw id).hif.up = false ∧ (aveUp id).writeOk .ave (0x1040 + 0x1000 * 5) .w1s .host = true ∧ (aveUp id).debugOpen = true ∧
    (aveUp id).writeOk .ave (0x104C + 0x1000 * 5) .rw .host = true ∧ ((aveUp id).aport 5).inj.unlocked = false ∧ (aveUp id).flowsOver 5 = 0 ∧
    (aveUp fun a => { a with pubs := [{ idx := 1, dst := 63, cls := .a }] }).flowsOver 5 ≠ 0 ∧
    ((aveUp fun a => { a with ports := Tab.put {} [] 5 { st := .up, inj := { unlocked := true } } }).aport 5).inj.unlocked = true := by decide

/-- `base` with the servo on PTP, LOCK_N 2, and a time unit. -/
def timBase (f : Tim → Tim) : State :=
  regsOf [(R.TIM_CFG, 1), (R.TIM_SRV_LOCK, 0x20064), (R.TIM_SRV_STEP, 1000), (R.TIM_OFS_LO, 50)] { base with tim := f base.tim }

/-- The offset that TIM_OFS_HI submits with the word that TIM_OFS_LO holds. -/
def ofsOf (s : State) (hi : Word) : Int := sext 64 ((s.reg R.TIM_OFS_LO).toNat + 2 ^ 32 * hi.toNat)

/-- TimeUnitFollowsTheServoTable: the servo's states, offsets at the thresholds and beyond. -/
theorem witness_tim_servo :
    (timBase id).writeOk .tim 0x138 .wo .host = true ∧ base.timSrc ≠ 1 ∧ base.writeOk .tim 0x138 .wo .host = true ∧ (timBase id).timSrc = 1 ∧
    (timBase id).tim.st = .freerun ∧ (timBase fun x => { x with stepPend := some 5 }).tim.stepPend.isSome = true ∧
    (timBase fun x => { x with st := .acquire }).tim.st = .acquire ∧ (timBase fun x => { x with st := .acquire }).tim.stepPend = none ∧
    (timBase fun x => { x with st := .acquire }).tim.r1 = none ∧ (timBase fun x => { x with st := .acquire, r1 := some 7 }).tim.r1 = some 7 ∧
    (timBase fun x => { x with st := .locking }).tim.st = .locking ∧ (timBase fun x => { x with st := .locked }).tim.st = .locked ∧
    (timBase fun x => { x with st := .holdover }).tim.st = .holdover ∧
    (ofsOf (timBase id) 0).natAbs ≤ (timBase id).lockThr ∧ (ofsOf (timBase id) 0).natAbs ≤ (timBase id).stepThr ∧
    (let s := regsOf [(R.TIM_OFS_LO, 1000)] (timBase id)
     (ofsOf s 0).natAbs ≤ s.stepThr ∧ s.lockThr < (ofsOf s 0).natAbs) ∧
    (timBase id).stepThr < (ofsOf (timBase id) 1).natAbs ∧
    (timBase fun x => { x with st := .locking, cnt := 1 }).lockN = (timBase fun x => { x with st := .locking, cnt := 1 }).tim.cnt + 1 ∧
    (timBase id).clk.timeDeg = false ∧ State.timSrc { timBase id with clk := { base.clk with timeDeg := true } } = 1 ∧ 0 < (timBase id).lockN := by decide

/-- TimeUnitFollowsTheServoTable: steps, sets, frames, reads, stamps and uncertainty. -/
theorem witness_tim_rest :
    (timBase fun x => { x with stepPend := some (-1000) }).tim.setPend = none ∧ (timBase fun x => { x with setPend := some 5000 }).tim.setPend = some 5000 ∧
    (timBase id).tim.stepPend = none ∧ base.writeOk .tim 0x144 .wo .host = true ∧ base.tim.st = .freerun ∧
    ((base.reg R.TIM_SET_LO).toNat + 2 ^ 32 * (125 : Word).toNat) % 1000 = 0 ∧ ((base.reg R.TIM_SET_LO).toNat + 2 ^ 32 * (1 : Word).toNat) % 1000 ≠ 0 ∧
    (timBase fun x => { x with st := .acquire }).tim.st ≠ .freerun ∧ base.upPorts = [] ∧ ((aveUp id).aport 5).st = .up ∧ ((aveUp id).aport 5).inj.en = false ∧
    base.present .tim = true ∧
    (let x : TxStamp := { stamp := 5, typ := 3, id := 0xFFFF }
     ((timBase fun y => { y with tx := Tab.put {} [] 7 { queue := x :: List.replicate 14 x } }).txPort 7).queue = x :: List.replicate 14 x ∧
     (List.replicate 14 x).length < 15) ∧
    base.writeOk .tim (0x210 + 0x20 * 7) .w1s .host = true ∧ (timBase fun x => { x with coarse := true }).tim.coarse = true ∧
    (timBase id).lostLim < 0xFFFFFFFF ∧ 0 ≤ (timBase id).lostLim := by decide

/-- Register of a condition word of the sequencer. -/
def seqReg (st slot k : Nat) : RegId := ⟨.acq, R.ACQ_SEQ.off + 64 * st + 16 * slot + 4 * k⟩

/-- `base` with ACQ and MEM running and an engine. -/
def acqBase_ (f : Acq → Acq) : State :=
  { base with hdr := Tab.put {} (Tab.put {} [] Block.acq.code { en := true, run := true, running := true }) Block.mem.code { running := true },
              msdram := { base.msdram with capacity := 16 }, acq := f base.acq }

/-- CSC powered down. -/
def noCsc (s : State) : State := { s with hdr := Tab.put {} s.hdr Block.csc.code { pwr := .off } }

/-- AcquisitionSessions: channels and the sequencer; a due channel 63 with room for one sample, a TIMER slot and an EXT slot with CAPTURE. -/
theorem witness_acq_sequencer :
    (acqBase_ id).acq.records = false ∧ (acqBase_ fun a => { a with state := .rearm }).acq.records = true ∧
    (∀ slot < 4, bits ((acqBase_ id).seqQ 0 slot 0) 3 0 = 0) ∧
    (let s := regsOf [(⟨.acq, R.ACQ_CH_W0.off + 1008⟩, 5), (⟨.acq, R.ACQ_CH_W1.off + 1008⟩, 0x10001), (⟨.acq, R.ACQ_CH_W2.off + 1008⟩, 1),
        (⟨.acq, R.ACQ_CH_W3.off + 1008⟩, 4)] (acqBase_ fun a => { a with state := .armed, chans := [(63, { count := 2014 })] })
     s.acq.state = .armed ∧ s.chansWhere (fun g => !g.adc && decide (g.div ≠ 0) && decide (s.now % (1000 * max 1 g.div) = 0)) = [63] ∧
     (s.chCfg 63).mode = 0 ∧ (s.chCfg 63).redN = 1 ∧ (s.chCfg 63).depth ≠ 0 ∧ s.wideCh (s.chCfg 63) = false ∧ (s.chan 63).n = 0 ∧
     (s.chan 63).dropped = 0 ∧ (s.chan 63).count + 1 < 2016) ∧
    (let s := regsOf [(seqReg 0 0 0, 8 + 16 * 15 + 4096 * 3)] (acqBase_ fun a => { a with state := .rearm, tmr := [(3, some 400)], seqIn := 1000000 })
     Tab.get none s.acq.tmr 3 = some 400 ∧ s.acq.records = true ∧ s.acq.seqIn ≤ 2500 * 400 ∧ bits (s.seqQ s.acq.seqState 0 0) 3 0 = 8 ∧
     bits (s.seqQ s.acq.seqState 0 0) 17 12 = 3 ∧ s.seqQ s.acq.seqState 0 2 = 0 ∧
     ∀ slot < 4, bits (s.seqQ (bits (s.seqQ s.acq.seqState 0 0) 7 4) slot 0) 3 0 = 0) ∧
    (let s := regsOf [(seqReg 0 0 0, 4 + 16 + 256 + 4096 * 3), (seqReg 0 0 2, 1)] (noCsc (acqBase_ fun a => { a with state := .armed }))
     (s.hd .csc).pwr ≠ .on ∧ (s.hd .acq).pwr = .on ∧ s.acq.state = .armed ∧ s.acq.seqIn ≤ 8 * 625 / 2 ∧ bits (s.seqQ s.acq.seqState 0 0) 3 0 = 4 ∧
     bits (s.seqQ s.acq.seqState 0 0) 17 12 = 3 ∧ bits (s.seqQ s.acq.seqState 0 0) 10 8 = 1 ∧ s.seqQ s.acq.seqState 0 2 = 1 ∧
     ∀ slot < 4, bits (s.seqQ (bits (s.seqQ s.acq.seqState 0 0) 7 4) slot 0) 3 0 = 0) ∧
    (acqBase_ id).writeOk .acq 0x138 .w1s .host = true := by decide

/-- AcquisitionSessions: commands, the end of POST, re-arming, and a block of 4,096 bytes that waits. -/
theorem witness_acq_sessions :
    (acqBase_ id).writeOk .acq 0x118 .wo .host = true ∧
    (let s := regsOf [(R.ACQ_SESS_CFG, 128), (R.ACQ_MEM_SIZE, 4)] (acqBase_ id)
     s.armCheck true = (0, 0)) ∧
    (let s := regsOf [(R.ACQ_SESS_CFG, 129), (R.ACQ_MEM_SIZE, 4)] (acqBase_ id)
     128 < s.segN ∧ s.armCheck true = (3, 0)) ∧
    (regsOf [(R.ACQ_SESS_CFG, 0)] (acqBase_ id)).segN = 0 ∧ (acqBase_ fun a => { a with armReq := true }).acq.armReq = true ∧
    (acqBase_ fun a => { a with state := .post }).acq.records = true ∧ (acqBase_ fun a => { a with state := .done }).acq.state = .done ∧
    (acqBase_ fun a => { a with state := .post }).acq.trig + (acqBase_ id).postNs ≤ (acqBase_ id).now ∧
    (acqBase_ fun a => { a with state := .post, stopPend := true }).acq.stopPend = true ∧ (acqBase_ fun a => { a with state := .post, trigs := 1 }).segN ≤ 1 ∧
    (let s := regsOf [(R.ACQ_SESS_CFG, 2)] (acqBase_ fun a => { a with state := .post, trigs := 1 })
     s.acq.trigs < s.segN ∧ s.acq.stopPend = false ∧ s.acq.state = .post) ∧
    (acqBase_ fun a => { a with state := .rearm }).acq.rearmT + (acqBase_ id).preNs ≤ (acqBase_ id).now ∧ (acqBase_ id).acq.buf = [] := by decide

/-- A waiting block of 4,096 bytes. -/
def acqWait : State := acqBase_ fun a => { a with buf := [{ chan := 1, addr := 0x800000000, bytes := List.replicate 4096 7 }] }

theorem witness_acq_block :
    (acqWait.acq.buf.map fun b => (b.addr, b.bytes.length)) = [(0x800000000, 4096)] ∧ (acqWait.hd .mem).running = true ∧
    inSdram acqWait 0x800000000 4096 = true := by
  refine ⟨?_, by decide, by decide⟩
  show [(0x800000000, (List.replicate 4096 (7 : Byte)).length)] = _
  rw [List.length_replicate]

/-- `base` with HRC and MEM running and a recorder, the ring of one 256-block unit in SDRAM, the last point with a history mode. -/
def hrcBase (mode : Nat) (f : Hrc → Hrc) : State :=
  regsOf [(R.HRC_RING_SIZE, 1), (R.HRC_RING_LO, 0), (R.HRC_RING_HI, 8)]
    { base with hdr := Tab.put {} (Tab.put {} [] Block.hrc.code { en := true, run := true, running := true }) Block.mem.code { running := true },
                msdram := { base.msdram with capacity := 16 }, hrc := f base.hrc,
                ptd := { base.ptd with act := [(524287, { kind := .int32, histMode := mode, histInt := 1 })] } }

/-- The same on the active gateway with its own block in transmission and HRC's ring 7 busy. -/
def hrcGw : State :=
  regsOf [(R.HRC_HOST_CFG, 0x107), (⟨.hif, R.RING_CFG.off + 224⟩, 0x20004)]
    { hrcBase 1 fun h => { h with unsent := [{ seq := 9, sending := true }] } with
      ave := { base.ave with role := .active, assigned := true },
      hdr := Tab.put {} (Tab.put {} [] Block.hif.code { en := true, run := true, running := true }) Block.mem.code { running := true },
      hif := { base.hif with up := true, rings := Tab.put {} [] 7 { state := .active, head := 3, tail := 0 } } }

/-- RecordersActOnTheirCommands: the recorder. -/
theorem witness_hrc :
    (hrcBase 1 id).hrcOn = true ∧ ((hrcBase 1 id).point 524287).kind ≠ .none ∧ histModeOf ((hrcBase 1 id).point 524287) = 1 ∧
    ((hrcBase 1 id).hpt 524287).held = none ∧
    ((hrcBase 1 fun h => { h with pts := Tab.put {} [] 524287 { held := some (5, 1, 7), heldN := 2 } }).hpt 524287).held.isSome = true ∧
    histModeOf ((hrcBase 2 id).point 524287) = 2 ∧ ((hrcBase 2 id).hpt 524287).start = 0 ∧
    (let s := { hrcBase 2 id with tim := { base.tim with net := 1000000 } }
     (s.hpt 524287).start < s.now - s.now % histNs (s.point 524287)) ∧
    (let s := hrcBase 1 fun h => { h with blk := some { entries := 1, base := 5, last := 5 } }
     s.hrc.blk = some { entries := 1, base := 5, last := 5 } ∧ s.hrc.unsent.length < s.hrcSlots ∧ s.writeOk .hrc 0x148 .w1s .host = true) ∧
    (hrcBase 1 id).hrc.blk = none ∧ (hrcBase 1 id).hrc.next = none ∧
    (let s := { hrcBase 1 fun h => { h with unsent := [{ seq := 9 }] } with ave := (aveUp id).ave }
     s.hrc.next = some { seq := 9 } ∧ s.hrc.noGrant = false ∧ s.ave.role ≠ .active ∧ s.hrc.credits ≠ 0 ∧ s.nextPort 0 = some 5 ∧ (s.aport 5).st = .up ∧
     (s.aport 5).inj.en = false) ∧
    (hrcBase 1 fun h => { h with noGrant := true }).hrc.noGrant = true ∧ (hrcBase 1 fun h => { h with credits := 0 }).hrc.credits = 0 := by decide

theorem witness_hrc_dma :
    hrcGw.ave.role = .active ∧ hrcGw.ave.owns 0 = true ∧ bit (hrcGw.reg R.HRC_HOST_CFG) 8 = true ∧ bits (hrcGw.reg R.HRC_HOST_CFG) 2 0 = 7 ∧
    hrcGw.ringBusy 7 = true ∧ bit (hrcGw.ringCfg 7) 17 = true ∧ (hrcGw.dmaBlock 0 9).isSome = true ∧ (hrcGw.ring 7).stopping = false ∧
    (let d : HDesc := { hostAddr := 4096, devAddr := 0, d4 := 4096, d5 := 1, d7 := 0 }
     bits d.d4 23 0 = 4096 ∧ d.hostAddr % 4096 = 0 ∧ bits d.d5 15 2 = 0 ∧ d.d7 = 0) ∧
    bits ({ hostAddr := 4096, devAddr := 0, d4 := 4095, d5 := 1, d7 := 0 } : HDesc).d4 23 0 ≠ 4096 := by
  refine ⟨by decide, by decide, by decide, by decide, by decide, by decide, rfl, by decide, by decide, by decide⟩

/-- `base` with an event recorder. -/
def evrBase (f : Evr → Evr) : State := { base with evr := f base.evr }

/-- RecordersActOnTheirCommands: the event recorder. -/
theorem witness_evr :
    (evrBase fun e => { e with frozenAt := some 5 }).evr.frozenAt.isSome = true ∧ (evrBase fun e => { e with queues := [] }).evr.nextWriter = none ∧
    base.evr.frozenAt = none ∧ base.evr.nextWriter = some 0x600 ∧ Tab.get [] base.evr.queues 0x600 = [{ code := 0x0614, source := 0x0600 }] ∧
    (evrBase fun e => { e with head := 32767 }).evr.ff.length < 256 ∧ base.evr.lostTimer = false ∧
    (evrBase fun e => { e with lostTimer := true }).evr.lostSince = 0 ∧ (evrBase fun e => { e with lostTimer := true, lostSince := 1 }).evr.lostSince ≠ 0 ∧
    (Tab.get [] base.evr.queues 0x1500).length < 4 ∧ base.evr.lostFrozen = 0 ∧ base.evr.safeBuf = [] ∧ base.writeOk .evr 0x13C .w1s .host = true ∧
    base.writeOk .evr 0x114 .w1s .host = true ∧
    (let s := regsOf [(R.EVR_DUMP_ADDR_LO, 0x08000000), (R.EVR_DUMP_CFG, 3 + 65536 * 32512)] (evrBase fun e => { e with frozenAt := some 5 })
     s.dumpAddr % 32 = 0 ∧ (bit (s.reg R.EVR_DUMP_CFG) 0 = true ∨ bit (s.reg R.EVR_DUMP_CFG) 1 = true) ∧ bits (s.reg R.EVR_DUMP_CFG) 30 16 ≤ 32512 ∧
     inSram s.dumpAddr (32 * s.dumpRecs.length) = true) ∧
    (let s := regsOf [(R.EVR_DUMP_ADDR_LO, 0x08000010), (R.EVR_DUMP_CFG, 3)] base
     s.dumpAddr % 32 ≠ 0) ∧
    (let s := regsOf [(R.EVR_DUMP_CFG, 3 + 65536 * 32513)] base
     32512 < bits (s.reg R.EVR_DUMP_CFG) 30 16) ∧ (let e := (evrBase fun e => { e with dumpBusy := true, dumpTo := 0x08000000, dumping := [{}] }).evr
     e.dumpBusy = true ∧ inSram e.dumpTo (e.dumping.flatMap EvRec.bytes).length = true) := by decide

/-- `base` with HTS running, every core enabled, task 511 as given with configuration `w` (affinity core 7), and a scheduler. -/
def htsBase (k : Task) (w : Nat) (f : Hts → Hts) : State :=
  regsOf [(⟨.hts, R.HTS_T0.off + 16 * 511⟩, w), (R.HTS_CORE_EN, 0xFF), (⟨.hts, R.HTS_FLOW.off + 4 * 4095⟩, 0x80000000 + 511)]
    { hdrOf .hts { en := true, run := true, running := true } with hts := f { base.hts with tasks := Tab.put {} [] 511 k } }

/-- A task of limit 1 with affinity to core 7. -/
def tsk (st : TaskState) : Task := { state := st, affinity := 0x80, limit := 1, mask := 2 }

/-- A task that runs on core 7. -/
def htsRun (k : Task) : State := htsBase k 0x8000 fun h => { h with ports := Tab.put {} [] 7 { unit := some (.flag 511) } }

/-- TaskSchedulerCommands: the task commands in each state. -/
theorem witness_hts_tasks :
    (htsBase (tsk .free) 0x8000 id).writeOk .hts 0x100 .wo .host = true ∧ ((htsBase (tsk .free) 0x8000 id).hts.task 511).state = .free ∧
    taskCfgOk ((htsBase (tsk .free) 0x8000 id).taskCfg 511) = true ∧ taskCfgOk ((htsBase (tsk .free) 0 id).taskCfg 511) = false ∧
    (∀ c < 8, ((htsBase (tsk .free) 0 id).hts.port c).waiting = false) ∧ ((htsBase (tsk .waiting) 0x8000 id).hts.task 511).state = .waiting ∧
    (let s := regsOf [(⟨.hts, R.HTS_FLOW.off + 4 * 4095⟩, 0)] (htsBase (tsk .waiting) 0x8000 id)
     s.flowBound 511 = false ∧ (s.hts.task 511).state = .waiting) ∧
    (htsBase (tsk .waiting) 0x8000 id).flowBound 511 = true ∧ ((htsBase (tsk .ready) 0x8000 id).hts.task 511).state = .ready ∧
    ((htsBase (tsk .running) 0x8000 id).hts.task 511).state = .running ∧ ((htsBase (tsk .suspended) 0x8000 id).hts.task 511).state = .suspended ∧
    ({ (htsBase (tsk .suspended) 0x8000 id).hts.task 511 with state := .waiting } : Task).met = false ∧
    ((htsBase { tsk .suspended with flags := 2 } 0x8000 id).hts.task 511).met = true := by decide

/-- TaskSchedulerCommands, DoneAndYieldActOnTheirOwnCore: the ports, submissions and flags. -/
theorem witness_hts_ports :
    (htsBase (tsk .ready) 0x8000 id).present .hts = true ∧ (none : Option (Fin 8)) ≠ some 7 ∧ ((htsRun (tsk .running)).hts.port 7).unit.isSome = true ∧
    ((htsBase (tsk .ready) 0x8000 id).hts.port 7).unit = none ∧ ((htsBase (tsk .ready) 0x8000 id).hd .hts).running = true ∧ (base.hd .hts).running = false ∧
    (htsBase (tsk .ready) 0x8000 id).selectUnit 7 = none ∧
    (htsBase (tsk .ready) 0x8000 fun h => { h with ready := [.flag 511] }).selectUnit 7 = some (.flag 511) ∧
    (let s := htsBase (tsk .waiting) 0x8000 fun h => { h with ready := [.item 4095], flows := Tab.put [] [] 4095 [{ lo := 1, hi := 2 }] }
     s.selectUnit 7 = some (.item 4095) ∧ Tab.get [] s.hts.flows 4095 = [{ lo := 1, hi := 2 }]) ∧
    ((htsBase (tsk .waiting) 0x8000 fun h => { h with ports := Tab.put {} [] 7 { waiting := true } }).hts.port 7).waiting = true ∧
    ((htsRun (tsk .running)).hts.port 7).waiting = false ∧ (htsRun (tsk .running)).writeOk .hts (0x1014 + 0x40 * 7) .w1s .host = true ∧
    ((htsRun (tsk .running)).hts.port 7).unit = some (.flag 511) ∧ (∀ c < 8, ((htsRun (tsk .running)).hts.port c).waiting = false) ∧
    ((htsRun (tsk .running)).hts.task 511).susp = false ∧ ({ tsk .running with state := .waiting, dflags := 0 } : Task).met = false ∧
    ((htsRun { tsk .running with susp := true }).hts.task 511).susp = true ∧
    (let s := htsBase (tsk .waiting) 0x8000 fun h =>
       { h with ports := Tab.put {} [] 7 { unit := some (.item 4095) }, flows := Tab.put [] [] 4095 [{ lo := 1, hi := 2 }] }
     (s.hts.port 7).unit = some (.item 4095) ∧ Tab.get [] s.hts.flows 4095 = [{ lo := 1, hi := 2 }]) ∧
    (htsRun (tsk .running)).writeOk .hts (0x1020 + 0x40 * 7) .wo .host = true ∧ bit ((htsRun (tsk .running)).flowWord 0) 31 = false ∧
    bit ((htsRun (tsk .running)).flowWord 4095) 31 = true ∧ (htsRun (tsk .running)).hts.pool < 16384 ∧
    (htsRun (tsk .running)).writeOk .hts (0x102C + 0x40 * 7) .wo .host = true ∧ bits ((htsRun (tsk .running)).regAt R.HTS_FSET_TASK (0x40 * 7)) 8 0 = 0 ∧
    ((htsRun (tsk .running)).hts.task 0).state = .free ∧ (htsRun (tsk .running)).writeOk .hts (0x2004 + 16 * 511) .rw .host = true ∧
    ({ tsk .waiting with flags := (tsk .waiting).flags ||| 2 } : Task).met = true ∧ ({ tsk .waiting with flags := (tsk .waiting).flags ||| 1 } : Task).met = false := by
  decide

theorem witness_hts_pool_full :
    ({ base.hts with flows := [(4095, List.replicate 16384 { lo := 0, hi := 0 })] } : Hts).pool = 16384 := by
  show [(List.replicate 16384 ({ lo := 0, hi := 0 } : Item)).length].sum = 16384
  rw [List.length_replicate]; rfl

/-- `base` with CPU, MEM and HTS on, cores 0 and 7 enabled, core 7 as given. -/
def cpuBase (k : Core) (f : Cpu → Cpu) : State :=
  regsOf [(R.CPU_CORE_EN, 0x81), (R.HTS_AUTO_CFG, 0x010064), (R.CPU_RESET_VEC_LO, 0x8000)]
    { hdrOf .hts { en := true, run := true, running := true } with cpu := f { base.cpu with cores := Tab.put {} base.cpu.cores 7 k } }

/-- `base` with HTS in an autonomy state. -/
def autoIn (a : Autonomy) : State := { cpuBase { running := true, wdtEn := true } id with hts := { base.hts with auto := a } }

/-- `base` with MEM trained on two channels of 4 GiB density codes 1 and 3. -/
def memBase (en : Bool) : State := regsOf [(R.MEM_CFG, 0x313)] (hdrOf .mem { en := en })

/-- CoresMemoriesAndAttachment. -/
theorem witness_cores :
    (autoIn .unattached).writeOk .hts 0x108 .w1s .host = true ∧ (autoIn .attached).hts.auto = .attached ∧ (autoIn .unattached).hts.auto ≠ .attached ∧
    (autoIn .autonomous).hts.auto = .autonomous ∧ (autoIn .expired).hts.auto ≠ .autonomous ∧
    ((autoIn .attached).core 7).running = true ∧ ((autoIn .attached).core 7).wdtEn = true ∧ ((autoIn .attached).core 7).wdtWarned = false ∧
    ((cpuBase {} id).core 7).running = false ∧ ((cpuBase { running := true } id).core 7).wdtEn = false ∧
    ({ autoIn .attached with hts := { (autoIn .attached).hts with ports := Tab.put {} [] 7 { unit := some (.flag 511) } } } : State).core 7 =
      { running := true, wdtEn := true } ∧
    (Tab.get ({} : Port) (Tab.put ({} : Port) [] 7 { unit := some (.flag 511) }) 7).unit.isSome = true ∧
    (0xA5 : BitVec 8) ≠ 0x5A ∧ base.writeOk .cpu 0x104 .w1s .host = true ∧ base.writeOk .cpu 0x100 .rw .host = true ∧ base.present .cpu = true ∧
    base.cpu.sramUe = none ∧ ({ base.cpu with sramUe := some 5 } : Cpu).sramUe.isSome = true ∧ base.msdram.ueLog = none ∧
    ({ base.msdram with ueLog := some 5 } : MemSt).ueLog.isSome = true ∧
    ((memBase true).hd .mem).en = true ∧ ((memBase true).hd .mem).pwr = .on ∧ bit ((memBase true).reg R.MEM_CFG) 0 = true ∧
    bit ((memBase true).reg R.MEM_CFG) 1 = true ∧ ((memBase false).hd .mem).en = false ∧ (memBase true).chanCap 1 = 112 := by decide

/-- `base` with HIF running, the link up, ring 7 of 16 descriptors with configuration bits as given. -/
def hifBase (cfg : Nat) (r : Ring) : State :=
  regsOf [(⟨.hif, 0x208 + 32 * 7⟩, 0x80000010 + cfg), (⟨.hif, R.RING_BASE_LO.off + 32 * 7⟩, 0x10000)]
    { hdrOf .hif { en := true, run := true, running := true } with sys := { base.sys with romAlive := false }, hif := { base.hif with up := true, rings := Tab.put {} [] 7 r } }

/-- A descriptor that moves 8 bytes to the shared memory. -/
def dsc (len : Nat) : HDesc := { hostAddr := 0x20000, devAddr := 0x08000000, d4 := word len, d5 := 0x70001, d7 := 0 }

/-- HostInterfaceCommands. -/
theorem witness_host :
    (base.hd .hif).pwr = .on ∧ (hifBase 0 {}).hif.up = true ∧ base.hif.up = false ∧ (hifBase 0 {}).present .hif = true ∧ 16777216 ≤ (0x1000000 : Word).toNat ∧
    (0xFFFFFF : Word).toNat < 16777216 ∧ wordAccess (0xFFFFFFFD : Word).toNat 8 = false ∧ wordAccess (0xFFFFFFF8 : Word).toNat 8 = true ∧
    (hifBase 0 {}).hif.err = none ∧ (hifBase 0 {}).sys.romAlive = false ∧
    (let s := hifBase 0 { state := .active, head := 15, tail := 15 }
     let r := s.ring 7
     r.state = .active ∧ s.ringSize 7 = 16 ∧ (14 : BitVec 12).toNat < 16 ∧ (r.tail + 16 - r.head) % 16 + ((14 : BitVec 12).toNat + 16 - r.tail) % 16 < 16 ∧
     r.stopping = false ∧ 16 ≤ (16 : BitVec 12).toNat) ∧
    (let s := hifBase 0 { state := .active, head := 0, tail := 15 }
     let r := s.ring 7
     16 ≤ (r.tail + 16 - r.head) % 16 + ((0 : BitVec 12).toNat + 16 - r.tail) % 16 ∧ s.ringBusy 7 = true ∧ bit (s.ringCfg 7) 17 = false ∧ s.descCheck (dsc 8) = 0 ∧
     bit (s.ringCfg 7) 16 = false ∧ [1, 2, 3, 4, 5, 6, 7, (8 : Byte)].length = bits (dsc 8).d4 23 0 ∧ s.descCheck (dsc 6) ≠ 0 ∧ inSram (dsc 8).devAddr 8 = true) ∧
    bit ((hifBase 0x10000 {}).ringCfg 7) 16 = true ∧ ((hifBase 0 {}).ring 7).state ≠ .active ∧ (hifBase 0 {}).ringBusy 7 = false ∧
    (hifBase 0 {}).writeOk .hif (0x208 + 32 * 7) .rw .host = true ∧ bits (0x1000 : Word) 12 0 ≤ 4096 ∧ 16 ≤ bits (0x10 : Word) 12 0 ∧ ((hifBase 0 {}).ring 7).state = .off ∧
    bits (15 : Word) 12 0 < 16 ∧ 4096 < bits (0x1001 : Word) 12 0 ∧ (hifBase 0 {}).writeOk .hif 0x110 .wo .host = true := by decide

/-- `base` with CAN running, controller 3 and its object 63 as given; 1 Mbit/s with BRP 1, NT1 79, NT2 20, NSJW 20. -/
def canBase (cfg : Nat) (c : CanCtl) (o : CanObj) : State :=
  regsOf [(⟨.can, R.CAN_CFG.off + 0x3000⟩, cfg), (⟨.can, R.CAN_NBT.off + 0x3000⟩, 0x13134E00), (⟨.can, R.CAN_F0.off + 0x3000⟩, 0x80000123),
      (⟨.can, R.CAN_F1.off + 0x3000⟩, 0x7FF), (⟨.can, R.CAN_F2.off + 0x3000⟩, 63), (⟨.can, R.CAN_F0.off + 0x3010⟩, 0x80000124),
      (⟨.can, R.CAN_F1.off + 0x3010⟩, 0x7FF), (⟨.can, R.CAN_F2.off + 0x3010⟩, 0x13F)]
    { hdrOf .can { en := true, run := true, running := true } with can := { ctl := Tab.put {} [] 3 c, objs := Tab.put {} [] 255 o } }

/-- A point bound to object 63 of controller 3, in effect, with PTD running. -/
def canPt (c : CanCtl) (o : CanObj) : State :=
  { canBase 0 c o with
    hdr := Tab.put {} (Tab.put {} [] Block.can.code { en := true, run := true, running := true }) Block.ptd.code { en := true, run := true, running := true },
    ptd := { base.ptd with act := [(5, { kind := .int32, srcType := .can, srcRef := 255 * 2 ^ 20, hot := true, hotIndex := 5 })], hot := Tab.put {} [] 5 { q := 1 } } }

def rxObj : CanObj := { o0 := 1 }
def txObj : CanObj := { o0 := 3, o1 := 0x123 }

/-- CanControllersFollowTableCan3: the controller commands and states. -/
theorem witness_can_control :
    (canBase 0 {} {}).writeOk .can (0x1010 + 0x3000) .wo .host = true ∧ ((canBase 0 {} {}).cctl 3).state = .config ∧ (canBase 0 {} {}).timingOk 3 = true ∧
    base.timingOk 3 = false ∧ ((canBase 0 { state := .active } {}).cctl 3).state = .active ∧
    (canBase 0 { state := .active } {}).cobjs 3 CanObj.txReq = [] ∧ (canBase 0 { state := .active } { txObj with txReq := true }).cobjs 3 CanObj.txReq ≠ [] ∧
    ((canBase 0 { state := .sleep } {}).cctl 3).state = .sleep ∧ ((canBase 0 { state := .busOff } {}).cctl 3).state = .busOff ∧
    bit ((canBase 0 {} {}).canCfg 3) 3 = false ∧ bit ((canBase 8 {} {}).canCfg 3) 3 = true ∧ ((canBase 0 { state := .integrating } {}).cctl 3).state = .integrating ∧
    ((canBase 0 { state := .recovering } {}).cctl 3).state = .recovering ∧ bit ((canBase 0 {} {}).canCfg 3) 5 = false ∧ bit ((canBase 0x20 {} {}).canCfg 3) 5 = true ∧
    (canBase 0x20 {} {}).pmc.st ≠ .hibernate ∧ (canBase 0x20 {} {}).wakeFrame 3 0x1FFFFFFF true 0 = false ∧
    (regsOf [(⟨.can, 0x1034 + 0x3000⟩, 0x80000123), (⟨.can, 0x1038 + 0x3000⟩, 0x7FF)] (canBase 0x20 { state := .sleep } {})).wakeFrame 3 0x123 false 0 = true := by
  decide

/-- CanControllersFollowTableCan3: frames and objects. -/
theorem witness_can_frames :
    ((true : Bool) = true ∧ bit ((canBase 0 {} {}).canCfg 3) 2 = false) ∧ bits ((canBase 2 {} {}).canCfg 3) 1 0 = 2 ∧
    (let s := canBase 0 { state := .active } rxObj
     let hit := fun i : Nat => (List.range 128).find? fun f => s.filterHit 3 f { id := i, xtd := false, buf := {} }
     bits (s.canCfg 3) 1 0 ≠ 2 ∧ (s.cctl 3).tec ≤ 255 ∧ hit 0x125 = none ∧ (s.cctl 3).rec_ ≤ 127 ∧ hit 0x124 = some 1 ∧ bit (s.regAt R.CAN_F2 (0x3000 + 16)) 8 = true ∧
     hit 0x123 = some 0 ∧ bit (s.regAt R.CAN_F2 0x3000) 8 = false ∧ bits (s.regAt R.CAN_F2 0x3000) 5 0 = 63 ∧ (s.canObj (cobj 3 63)).en = true ∧
     (s.canObj (cobj 3 63)).tx = false ∧ (s.canObj (cobj 3 63)).pt = false ∧ (s.canObj (cobj 3 63)).disable = false ∧ (s.canObj (cobj 3 63)).reading = false) ∧
    ((canBase 0 { state := .active } { rxObj with reading := true }).canObj (cobj 3 63)).reading = true ∧
    ((canBase 0 { state := .active } {}).canObj (cobj 3 63)).en = false ∧
    (let s := canBase 0 { state := .active, tec := 256 } { txObj with txReq := true }
     s.nextTx 3 = some 63 ∧ (s.cctl 3).state = .active ∧ bits (s.canCfg 3) 1 0 = 0 ∧ (s.cctl 3).tec ≤ 256 ∧ (s.cctl 3).stop = false ∧ (s.cctl 3).sleep = false ∧
     (s.canObj (cobj 3 63)).txReq = true ∧ (s.canObj (cobj 3 63)).en = true ∧ (s.canObj (cobj 3 63)).tx = true) ∧
    base.nextTx 3 = none ∧ ((canBase 0 { state := .active, tec := 247, rec_ := 255 } rxObj).cctl 3).tec + 8 ≤ 255 ∧
    ((canBase 0 { state := .active, tec := 248 } rxObj).cctl 3).tec + 8 > 255 ∧
    ((canBase 0 {} { txObj with o0 := 7 }).canObj (cobj 3 63)).mode = 1 ∧ ((canBase 0 {} txObj).canObj (cobj 3 63)).mode ≠ 1 ∧
    (let s := canPt {} { o0 := 0x50011 }
     let o := s.canObj (cobj 3 63)
     o.en = true ∧ o.tx = false ∧ o.period ≠ 0 ∧ o.pt = true ∧ s.objPoints (cobj 3 63) = [5] ∧ s.canWrite 5 = true ∧ s.forceOf 5 = none ∧ isValid (s.entry 5).q = true ∧
     (s.point 5).kind ≠ .none) ∧
    ((canBase 0 {} rxObj).canObj (cobj 3 63)).period = 0 ∧ (canBase 0 {} rxObj).present .can = true ∧
    (canBase 0 {} rxObj).writeOk .can (objOff 3 63 3) .w1s .host = true ∧ (canBase 0 {} rxObj).writeOk .can (objOff 3 63 0) .rw .host = true ∧
    ((canBase 0 {} txObj).canObj (cobj 3 63)).txReq = false ∧ bit ((canBase 0 {} { o2 := 0x10 }).canObj (cobj 3 63)).o2 4 = true ∧
    ((canBase 4 {} { o2 := 0x10 }).canObj (cobj 3 63)).en = false ∧ bit ((canBase 4 {} {}).canCfg 3) 2 = true := by decide

/-- `base` with the clock unit as given. -/
def clkOf (x : Clk) : State := { base with clk := x }

/-- `clkOf` with PD_MEM and PD_RT ON. -/
def clkRt (x : Clk) : State := { clkOf x with pmc := { base.pmc with on := [1, 3, 11] } }

/-- Every domain clock on the PLL. -/
def pllDoms : Tab ClkDom := [(0, { div := 2, frc := false, tgt := 2 }), (1, { div := 6, frc := false, tgt := 6 }), (2, { div := 12, frc := false, tgt := 12 }),
  (3, { div := 24, frc := false, tgt := 24 })]

/-- A lane that is not valid and copies: XNG is busy. -/
def clkXng (x : Clk) : State := { clkOf x with xng := { base.xng with lanes := Tab.put {} [] 0 { state := .bist } } }

/-- ClockUnitFollowsItsTables. -/
theorem witness_clock :
    base.writeOk .clk 0x104 .wo .host = true ∧ base.clk.xo = .off ∧ base.clk.xoFails < 4 ∧ (clkOf { xoFails := 4 }).clk.xoFails = 4 ∧ (clkOf { xo := .failed }).clk.xo = .failed ∧
    base.clk.pllOn = false ∧ base.clk.ref = false ∧ (clkOf { xo := .stable, pllOn := true }).clk.pllOn = true ∧
    (clkOf { locked := true }).clk.busy = false ∧ (clkOf { locked := true }).domOn 3 = false ∧ ((clkOf { locked := true }).clk.dom 3).frc = true ∧
    (clkOf { locked := true, sw := [(1, false)] }).clk.busy = true ∧ (clkRt { locked := true }).domOn 3 = true ∧ (clkRt { locked := true }).clk.busy = false ∧
    (clkOf {}).clk.locked = false ∧
    (let s := clkRt { xo := .stable, pllOn := true, ref := true, fell := true }
     s.clk.xo = .stable ∧ s.xngBusy = false ∧ s.clk.busy = false ∧ s.clk.fell = true ∧ s.clk.pllOn = true ∧ s.clk.ref = true) ∧
    (clkXng { xo := .stable }).xngBusy = true ∧ bit (base.reg R.CLK_CFG) 5 = false ∧ bit ((regsOf [(R.CLK_CFG, 0x20)] base).reg R.CLK_CFG) 5 = true ∧
    (clkOf { xo := .starting, xoFails := 3 }).clk.xo = .starting ∧ ((clkOf { doms := [(3, { div := 24, ramp := true, tgt := 6 })] }).clk.dom 3).ramp = true ∧
    base.pmc.st ≠ .waking ∧ (∀ b, (4, b) ∉ base.clk.sw) ∧ (clkOf { sw := [(4, false)] }).clk.sw = [(1 + 3, false)] ∧
    (clkOf { sw := [(0, true)], why := some (.fallback 1 5), pllOn := true, doms := pllDoms }).clk.sw = [(0, true)] ∧
    ((clkOf { pllOn := true, doms := pllDoms }).clk.dom 0).frc = false ∧ (∀ d < 4, ((clkOf { pllOn := true, doms := pllDoms }).clk.dom d).frc = false) ∧
    (clkOf { backWait := some 1 }).clk.backWait.isSome = true ∧ (clkOf { frcOk := false }).clk.frcOk = false ∧ base.clk.frcOk = true := by decide

/-- `base` with the power controller as given. -/
def pmcOf (x : Pmc) : State := { base with pmc := x }

/-- Every header in reset. -/
def allReset (x : Pmc) : State := { pmcOf x with hdr := Block.all.foldl (fun t b => Tab.put {} t b.code { pwr := .reset }) [] }

/-- PMC_WAKE_EN with every source. -/
def wakeAll (x : Pmc) : State := regsOf [(R.PMC_WAKE_EN, 0x1FFFFF)] (pmcOf x)

/-- PowerControllerFollowsTablePmc3: commands and the handshake. -/
theorem witness_power :
    base.writeOk .pmc 0x100 .wo .host = true ∧ base.writeOk .pmc 0x108 .wo .host = true ∧ (pmcOf { st := .waking }).pmc.busy = true ∧ base.pmc.busy = false ∧
    (pmcOf { st := .standby }).pmc.busy = false ∧ (pmcOf { st := .eco }).pmc.busy = false ∧
    (let s := { pmcOf { st := .eco, ecoOff := [6] } with clk := { base.clk with doms := [(0, { div := 8, frc := false, tgt := 8 })] } }
     (s.clk.dom 0).frc = false ∧ (s.clk.dom 0).div = 8) ∧
    (askOrder.filter fun b => (decide (b = .fio)) || ((base.pmc.on.contains b.domain.code || (decide (b = .cpu) && base.pmc.on.contains 2)) && decide ((base.hd b).pwr = .on))) ≠ [] ∧
    (let s := regsOf [(R.PMC_ECO_MASK, 0x1000)] (pmcOf { on := [1, 3, 11, 12] })
     (askOrder.filter fun b => ((s.pmc.on.filter fun d => bit (s.reg R.PMC_ECO_MASK) d).contains b.domain.code ||
       (decide (b = .cpu) && (s.pmc.on.filter fun d => bit (s.reg R.PMC_ECO_MASK) d).contains 2)) && decide ((s.hd b).pwr = .on)) = [.can]) ∧
    (let h : PHs := { doms := [4], ask := [.mot, .csc] }
     let s := pmcOf { st := .entering, hs := some h }
     s.hsAnswer h false false .mot = .agree ∧ h.doms.contains Block.mot.domain.code = true) ∧
    (let s := pmcOf { st := .entering, hs := some { doms := [5], ask := [.ilp, .mot] } }
     ({ s with ilp := { s.ilp with mode := .run } } : State).hsAnswer { doms := [5], ask := [.ilp, .mot] } false false .ilp = .refuse) ∧
    base.hsAnswer { doms := [11], ask := [.mem, .ptd] } false true .mem = .wait ∧ Block.mem ≠ .hrc ∧
    base.hsAnswer { doms := [12], ask := [.can], dom := some 12 } false false .can = .agree := by decide

/-- PowerControllerFollowsTablePmc3: domains. -/
theorem witness_domains :
    (∀ c ∈ [0, 1, 2, 9, 10, 15, 20], bit ((wakeAll {}).reg R.PMC_WAKE_EN) c = true) ∧ (wakeAll {}).pmc.wakeT ≠ some (wakeAll {}).upUs ∧ bit (base.reg R.PMC_WAKE_EN) 20 = false ∧
    (pmcOf { on := [1, 3, 11] }).domOn 12 = false ∧ (∀ r ∈ domReq 12, base.domOn r = true) ∧ (∃ r ∈ domReq 7, base.domOn r = false) ∧
    (pmcOf { on := [1, 3, 11] }).domOn 11 = true ∧ (∃ e ∈ [1, 3, 11], 11 ∈ domReq e) ∧ (∀ e ∈ [1, 3, 11, 12], 12 ∉ domReq e) ∧
    (∃ b ∈ domBlocks 12, ((pmcOf { on := [1, 3, 11, 12] }).hd b).pwr = .on ∧ b ∈ askOrder) ∧ base.pmc.trans.contains 12 = false ∧
    (let s := allReset { on := [1, 3, 11], trans := [12] }
     s.pmc.trans = [12] ∧ s.pmc.todo = [] ∧ s.pmc.st = .run ∧ ∀ b ∈ domBlocks 12, (s.hd b).pwr = .reset) := by decide

/-- PowerControllerFollowsTablePmc3: the end of a wake from STANDBY, with the resume area unchanged and changed. -/
theorem witness_wake_done :
    (let s := { pmcOf { st := .waking, from_ := .standby, hash := base.resumeHash } with clk := { base.clk with locked := true } }
     s.pmc.todo = [] ∧ s.pmc.trans = [] ∧ s.clk.locked = true ∧ s.resumeHash = s.pmc.hash) ∧
    (let s := { pmcOf { st := .waking, from_ := .standby, hash := [] } with clk := { base.clk with locked := true } }
     s.resumeHash ≠ s.pmc.hash) := by decide +kernel

/-- `base` with the retention store as given. -/
def retOf (r : Ret) : State := { base with ret := r }

/-- `base` with the error manager as given, attached. -/
def ermOf (e : Erm) : State := { base with erm := e, hts := { base.hts with auto := .attached } }

def errOf (code : Nat) (v : Severity) : ErrEnt := { code := code, src := 0x0D00, sev := v, time := 0 }

/-- RetentionStoreAndErrorManager. -/
theorem witness_retention :
    retFirmware 5000 = true ∧ retFirmware 0 = false ∧ retFirmware 524287 = false ∧ base.present .ret = true ∧ base.permits .host 0x05 = true ∧ (base.hd .ret).lock = false ∧
    base.ret.pend.length < 16384 ∧ base.ret.waiting = [] ∧ (retOf { pend := [{ idx := 524287, val := 7, writer := .ilp }] }).ret.pend = [{ idx := 524287, val := 7, writer := .ilp }] ∧
    base.ret.sysPend = false ∧ base.writeOk .ret 0x110 .w1s .host = true ∧ (retOf { checkBusy := true }).ret.checkBusy = true ∧
    (∀ b < 8, (newestRec (Tab.get ({}, {}) (retOf { checkBusy := true }).ret.recs b)).isSome = true) ∧ (3 : Fin 8).val ≠ 0 ∧ (3 : Fin 8).val ≠ 4 ∧ base.ret.checkBusy = false := by
  decide

/-- RetentionStoreAndErrorManager: raising and acknowledging. -/
theorem witness_errors :
    Severity.info.code < (regsOf [(R.ERM_CFG, 0x1)] base).queueMin ∧ Severity.info ≠ .fatal ∧ base.erm.fatal = false ∧ (regsOf [(R.ERM_CFG, 0)] base).queueMin ≤ Severity.info.code ∧ base.queueMin ≤ Severity.warn.code ∧ (ermOf {}).erm.cur = none ∧
    (ermOf {}).erm.queue = [] ∧ (ermOf {}).hts.auto = .attached ∧ base.hts.auto ≠ .attached ∧ Severity.warn.code ≤ 1 ∧
    (let s := ermOf { cur := some { errOf 0x0D10 .alarm with escalated := true } }
     s.erm.find 0x0D10 = some { errOf 0x0D10 .alarm with escalated := true }) ∧
    (ermOf { cur := some (errOf 1 .warn), queue := [errOf 0x0D10 .fault] }).erm.find 0x0D10 = some (errOf 0x0D10 .fault) ∧
    (let s := ermOf { cur := some (errOf 0x0D10 .alarm) }
     s.erm.find 0x0D10 = some (errOf 0x0D10 .alarm) ∧ s.erm.cur = some (errOf 0x0D10 .alarm) ∧ (errOf 0x0D10 .alarm).escalated = false ∧
     (errOf 0x0D10 .alarm).sev ≠ .fault ∧ (errOf 0x0D10 .alarm).sev ≠ .fatal ∧ s.erm.find 0x0D11 = none ∧ s.erm.queue.length < 16 ∧
     Severity.alarm.code < Severity.fault.code ∧ Severity.warn.code ≤ Severity.alarm.code ∧ s.writeOk .erm 0x114 .wo .host = true) ∧
    (let s := ermOf { cur := some (errOf 0x0D10 .alarm), queue := List.replicate 16 (errOf 2 .warn) }
     s.erm.find 0x0D11 = none ∧ 16 ≤ s.erm.queue.length ∧ s.erm.fatal = false ∧ s.erm.fatalLog = none) ∧
    takeWorst [errOf 1 .warn, errOf 2 .fault] = some (errOf 2 .fault, [errOf 1 .warn]) ∧ takeWorst [] = none := by decide

/-- `ermOf` at a phase of start-up. -/
def phaseOf (n : Nat) : State := regsOf [(R.CPU_CORE_EN, 1)] (ermOf { phase := n })

/-- StartupResetsAndSupplies. -/
theorem witness_startup :
    (phaseOf 0).erm.phase = 0 ∧ (phaseOf 2).erm.held = false ∧ (phaseOf 2).ret.pend = [] ∧ (phaseOf 2).ret.sysPend = false ∧ bit ((phaseOf 2).reg R.CPU_CORE_EN) 0 = true ∧
    ({ phaseOf 2 with pmc := { on := [] } } : State).domOn 1 = false ∧ (phaseOf 3).clk.xoFails = 0 ∧ (phaseOf 3).clk.xo = .off ∧ (phaseOf 3).clk.pllOn = false ∧
    (phaseOf 4).erm.noMem = false ∧ ({ phaseOf 5 with ret := { checkDone := true }, pmc := { on := [1, 11] } } : State).domOn 11 = true ∧ (phaseOf 6).erm.bootMode ≠ 1 ∧
    ((ermOf { phase := 6, bootMode := 1 }).erm.bootMode = 1) ∧ tryImage none ≠ 0 ∧ base.writeOk .erm 0x150 .w1s .host = true ∧ (ermOf { phase := 7, pushWait := true }).erm.pushWait = true ∧
    (ermOf { phase := 7, accepted := true }).erm.accepted = true ∧ base.writeOk .erm 0x154 .wo .host = true ∧ base.debugOpen = true ∧
    ({ base with sys := { base.sys with sysrec := { lifecycle := 2 } } } : State).debugOpen = false ∧ (ermOf { fatal := true }).erm.fatal = true ∧
    (ermOf { pfailActive := true }).erm.pfailActive = true ∧ (ermOf { held := true }).erm.held = true ∧ (pmcOf { on := [1, 11] }).domOn 11 = true ∧ ((pmcOf {}).hd .mem).pwr = .on ∧
    ((hdrOf .mem { pwr := .fenced }).hd .mem).pwr = .fenced ∧ (pmcOf { st := .entering, hs := some {} }).pmc.hs.isSome = true ∧
    ((hdrOf .fio { pwr := .off }).hd .fio).pwr = .off ∧ (base.hd .fio).pwr ≠ .off := by decide

/-- StickyBitsClearByWritingOne: the host's writes reach every register named, and a message object's shadow may hold a frame or not. -/
theorem witness_sticky :
    (∀ x ∈ [(Block.ce, 0x27C), (.ce, 0x3FC), (.xng, 0x140), (.rsq, 0x144), (.rsq, 0x14C), (.csc, 0x41C), (.mot, 0x2C0), (.mot, 0x38C), (.mot, 0x390), (.mot, 0x1B8), (.fio, 0x138),
      (.fio, 0x13C), (.fio, 0x100), (.ave, 0x120), (.tim, 0x2F4), (.tim, 0x104), (.acq, 0x140), (.acq, 0x144), (.cpu, 0x10C), (.cpu, 0x11C), (.mem, 0x114), (.hif, 0x108),
      (.can, 0x1030 + 0x3000), (.can, 0x1040 + 0x3000), (.can, objOff 3 63 3), (.clk, 0x110), (.pmc, 0x118), (.ret, 0x104), (.ret, 0x114), (.erm, 0x144)],
      base.writeOk x.1 x.2 .w1c .host = true) ∧
    ((canBase 0 {} {}).canObj (cobj 3 63)).shadow = none ∧ ((canBase 0 {} { shadow := some {} }).canObj (cobj 3 63)).shadow = some {} := by decide

/-- EveryStepKeepsTheInvariant: a state that holds memory, errors and pending words, and a command that answers a next state. -/
theorem witness_inv :
    State.Inv { ermOf { cur := some (errOf 1 .warn), queue := [errOf 2 .warn] } with
      mem := Tab.put 0 [] 0x08000000 7, evr := { queues := [(5, [{ code := 0x1510, source := 0x1500 }])] }, ret := { pend := [{ idx := 5, val := 1, writer := .ret }] }, pending := [.mtimeRead] } :=
  ⟨by decide, fun w => by
    show (if 5 = w then [{ code := 0x1510, source := 0x1500 }] else ([] : List EvRec)).length ≤ 4
    split <;> decide, by decide, by decide, by decide⟩

theorem witness_inv_step (s : State) : ∃ t, step { s with pending := [.mtimeRead] } = .next t := ⟨_, rfl⟩

/-- ResetState: a register of the map. -/
theorem witness_reset : ∃ w, regRow R.CLK_CFG = some w := by
  match h : regRow R.CLK_CFG with
  | some w => exact ⟨w, rfl⟩
  | none => exact absurd h (by decide)

/-! Each check of WellFormed refuses a term, and the same term within its bounds passes. -/

/-- A Valnath header, and one whose destination is no device. -/
def goodH : AHdr := { dst := 1, src := 2, hops := 3, tag := 4, crc := true }
def badH : AHdr := { dst := 64, src := 2, hops := 3, tag := 4, crc := true }
def recNo (i : Nat) : PtRec := { idx := i, q := 1, value := 0 }

theorem smoke_registers :
    (Instr.registerWrite (.addr 0x10000) .host 3 0).wf = false ∧ (Instr.registerWrite (.addr (2 ^ 36)) .host 4 0).wf = false ∧
    (Instr.registerWrite (.addr 0x10000) .host 4 0).wf = true ∧ (Instr.fabricAccess (.core 0) .host false 0 5 0 .clean).wf = false ∧
    (Instr.hostBarAccess true false 0 0 0 .clean).wf = false ∧ (Instr.staleTimeout 524288).wf = false ∧ (Instr.staleTimeout 524287).wf = true := by decide

theorem smoke_times :
    (Instr.cscArm .host 0 (2 ^ 64)).wf = false ∧ (Instr.cscArm .host 0 (2 ^ 64 - 1)).wf = true ∧ (Instr.encoderEdge 0 true true true 0 (2 ^ 64)).wf = false ∧
    (Instr.zcEdge 0 (2 ^ 64)).wf = false ∧ (Instr.coordCrossing 0 (2 ^ 64) false).wf = false := by decide

theorem smoke_field_die :
    (Instr.fioRefreshFrame { ok := true } true 65536 0 0 0 0 0).wf = false ∧ (Instr.fioRefreshFrame { ok := true } true 65535 0 0 0 0 0).wf = true ∧ (Instr.groupOvercurrent 0 65536).wf = false ∧
    (Instr.fsGroupWarn 0 65536).wf = false ∧ (Instr.safetyFwReceive true (2 ^ 32)).wf = false ∧ (Instr.aiSample [1, 2, 3] false 0).wf = false ∧
    (Instr.aiSample [1, 2, 3, 4, 5, 6, 7, 32768] false 0).wf = false ∧ (Instr.aiSample [1, 2, 3, 4, 5, 6, 7, -32768] false 0).wf = true ∧ (Instr.aiCalDone [1]).wf = false := by
  decide

theorem smoke_lane :
    (Instr.laneAckRx 0 0 true 7 0).wf = false ∧ (Instr.laneAckRx 0 0 true 8 5).wf = false ∧ (Instr.laneAckRx 0 0 true 9 4).wf = true ∧
    (Instr.ethRxFrame 0 [1, 2, 3] true 0).wf = false := by decide

theorem smoke_lane_body : (Instr.aInRx 0 0 0 true (List.replicate 1493 0) []).wf = false ∧ (Instr.bInRx 0 0 true (List.replicate 1492 0) []).wf = true := by
  show laneBodyOk _ = false ∧ laneBodyOk _ = true
  simp only [laneBodyOk, List.length_replicate]
  decide

theorem smoke_fabric :
    (Instr.aveTrainingDone 0 0 0 0 65536).wf = false ∧ (Instr.aveDelayMeasure 0 65536).wf = false ∧ (Instr.ptARx 0 badH 0 [recNo 0]).wf = false ∧ (Instr.ptARx 0 goodH 0 []).wf = false ∧
    (Instr.ptARx 0 goodH 0 [recNo 0, recNo 1, recNo 2, recNo 3, recNo 4]).wf = false ∧ (Instr.ptBRx 0 goodH true 0 [recNo 524288]).wf = false ∧ (Instr.ptBRx 0 goodH true 0 [recNo 5]).wf = true ∧
    (Instr.rdReqRx 0 goodH 4 .host true).wf = false ∧ (Instr.rdReqRx 0 goodH (2 ^ 36) .host false).wf = false ∧ (Instr.wrReqRx 0 goodH 8 .host false (2 ^ 32)).wf = false ∧
    (Instr.wrReqRx 0 goodH 8 .host true (2 ^ 32)).wf = true ∧ (Instr.rdRespRx 0 goodH true 256 0).wf = false ∧ (Instr.wrRespRx 0 goodH true 256).wf = false := by decide

theorem smoke_messages :
    (Instr.lsaRx 0 goodH 0 0 true 0 65536 0).wf = false ∧ (Instr.discRx 0 goodH true 5 6 0).wf = false ∧ (Instr.discRx 0 goodH true 5 5 4).wf = false ∧
    (Instr.timeFrameRx 0 goodH 0 0 64 [] [] 0).wf = false ∧ (Instr.trigFrameRx 0 goodH 0 16 0).wf = false ∧ (Instr.trigFrameRx 0 goodH 0 15 1000).wf = false ∧
    (Instr.trigFrameRx 0 goodH 0 15 999).wf = true ∧ (Instr.recFrameRx 0 goodH 0 0 0 [1]).wf = false ∧ (Instr.ctrlGrant 0 goodH (.flow 64 0)).wf = false ∧
    (Instr.ctrlGrant 0 goodH (.sub (2 ^ 25) 0)).wf = false ∧ (Instr.ctrlGrant 0 goodH (.credit (2 ^ 32))).wf = false ∧ (Instr.ctrlGrant 0 goodH (.recReq 64 0)).wf = false := by decide

theorem smoke_host_and_can :
    (Instr.dmaDescDone 0 { hostAddr := 2 ^ 64, devAddr := 0, d4 := 4, d5 := 0, d7 := 0 } [] false).wf = false ∧
    (Instr.dmaDescDone 0 { hostAddr := 0, devAddr := 0, d4 := 0, d5 := 0, d7 := 0 } [1] false).wf = false ∧
    (Instr.hrcDmaDone 0 0 { hostAddr := 0, devAddr := 2 ^ 64, d4 := 4, d5 := 0, d7 := 0 } false).wf = false ∧ (Instr.cacheUe 0 0 (2 ^ 40)).wf = false ∧
    (Instr.canFrameRx 0 2048 false false false false 0 0 []).wf = false ∧ (Instr.canFrameRx 0 5 false false true false 0 0 []).wf = false ∧
    (Instr.canFrameRx 0 5 false false false false 2 0 [1, 2, 3]).wf = false ∧ (Instr.canFrameRx 0 2048 true false false false 2 0 [1, 2]).wf = true ∧
    (Instr.canBusError 0 0 false true 9 0).wf = false ∧ (Instr.canBusError 0 0 false true 8 0).wf = true := by decide

/-! Worked examples of the spec. -/

/-- LOOP_0 of Table CE-12. -/
def loop0 : LoopDesc := parseLoop fun k => nth 0 [(0x29 : Word), 0x40, 0, 0x42, 0, 1, 0x44, 0x27100000, 0x000A0001, 0x4E200000, 0, 0, 0x00016000, 0x00197AE1, 0, 0x001C6666] k

/-- Chapter 4, "Loop slots": one evaluation of LOOP_0 in AUTO with set-point 8192, pressure 7864 and I = 654,311,424. -/
theorem test_loop0_evaluation :
    (let st := computeLoop loop0 8192 7864 7864 { mode := .auto, i := 654311424 }
     st.v16 = 20460 ∧ st.u = 20000 ∧ st.atLim = true ∧ st.i = 653638381) := by decide

/-- TAB_3 of Table CE-25: entries 883 and 884 at encoder count 12,345, and KA·c. -/
def tab3 : CompTab := { type := 1, idxShift := 15, idxPt := 0x41, span := 400, idxMul := 2748779069, entries := [(883, -410), (884, -360)] }
theorem test_cogging_table : tabEval tab3 12345 false = -400 ∧ (gmul (gainOf 0x00014000) (-400)).v = -13107200 := by decide

/-- AXIS_1 of Table MOT-13 at cruise with 48 V of 60 V: amplitude, duty at θ = 128 and its drive window. -/
theorem test_cruise_drive :
    ({ ({} : Axis) with phase := .full, vbus := 26214, desc := { ({} : AxisDesc) with vmax := 256000, uRi := 983, keVmax := 3932 } } : Axis).amplRaw 256000 = some 6144 ∧
    phaseDuty 6144 128 = 4344 ∧ phaseDuty 6144 896 = 4344 ∧ windowOf 4344 10000 = { lo := 4337, hi := 4337 + 1326, pos := true } := by decide +kernel

/-- The stations of LNE_PORT_0 in chapter 13: 16 REMOTE outputs each, preparation 1000 ns and station processing 500 ns. -/
def valve (k d : Nat) : AdmSta :=
  { k := k, desc := parseSta (word (0x00280001 + 256 * k)) 0 0x00020002 0, d := d,
    ident := { aInMax := 100, aOutMax := 100, bInMax := 100, bOutMax := 100, prep := 1000, q := 500, remote := 16 } }
theorem test_lane_windows :
    (let a := admitPort [valve 0 900, valve 1 1570, valve 2 2240] ((List.range 3).map fun k => { port := 0, station := k, output := 0, slot := 3, group := 3 }) 8 8 70
     a.code = 0 ∧ a.win.lwf = 1680 ∧ a.win.inOfs = 1900 ∧ a.win.inEnd = 4756 ∧ a.win.winEnd = 4760 ∧ a.win.outOfs = 6160 ∧
     a.arr = [(0, 3052, 1000), (1, 4004, 1282), (2, 4956, 1564)]) := by decide

/-- The fabric of Table AVE-11 as device 9 sees it. -/
def fabric (cut : Bool) : State :=
  let links := [(0, [1, 2, 3, 7, 9, 15]), (1, [0, 2, 6]), (2, [0, 1, 3, 9]), (3, [0, 2, 4, 10]), (4, [3, 5, 15]), (5, [4, 6, 15]), (6, [1, 5, 15]), (7, [0, 8]),
    (8, [7, 15]), (9, [0, 2, 10]), (10, [3, 9, 11]), (11, [10, 12]), (12, [11, 13]), (13, [12, 14]), (14, [13, 15]), (15, [0, 4, 5, 6, 8, 14])]
  let lst := links.flatMap fun (x : Nat × List Nat) => (List.range x.2.length).map fun p =>
    (x.1 * 8 + p, ({ up := !(cut && ((x.1 == 9 && p == 0) || (x.1 == 0 && p == 4))), peer := nth 0 x.2 p } : Lsa))
  let ports : Tab APort := [(0, { st := if cut then .down else .up, peer := 0 }), (1, { st := .up, peer := 2 }), (2, { st := .up, peer := 10 })]
  { base with ave := { base.ave with devId := 9, assigned := true, lst := lst, ports := ports } }

/-- AVE_RT_1 of device 9 before and after the fibre to device 0 is cut, and the largest hop count, to device 12 (chapter 14). -/
def rt1 (cut : Bool) : Option Nat :=
  let s := fabric cut
  State.statAve { s with ave := { s.ave with rt := [(1, s.rtEntry s.ave.edges 1)] } } 0x404
theorem test_reroute : rt1 false = some 0x02020510 ∧ rt1 true = some 0x04020521 ∧ Tab.get none (hopsTo (fabric false).ave.edges 12) 0 = some 4 := by decide +kernel

/-- TIM_INC_FRAC after measurement 5 of Table TIM-5: F = −19,956 ppb. -/
theorem test_increment : incOf (-19956) % 2 ^ 32 = 0x7FFCBAFC := by decide

/-- t_trig of Table ACQ-12 in ps: samples 9903 and 9771 at 500 ns, level 9830, skew 140 ps. -/
theorem test_crossing : crossPs 85201362750000 85201363250000 9830 9903 9771 140 = 85201363026375 := by decide

/-- The entry of chapter 17: 1250 ns later, valve 0x0_0208 of device 1 opens. -/
theorem test_history_entry :
    encodeRec { time := 5000 + 1250, point := 0x80208, reduce := false, q := 1, flags := 0, count := 0, sel := 0, vals := [1] } 5000 77 false =
      [0x04, 0xC4, 0x13, 0x08, 0x02, 0x08, 0x00, 0x02] := by decide

/-- The dispatch words of Table HTS-9. -/
theorem test_dispatch_words : dispWord 5 false false 0 = 0x80000005 ∧ dispWord 9 true false 0 = 0x80000209 ∧ dispWord 9 true true 0 = 0x80000609 := by decide

/-- CAN_NBT and CAN_DBT of chapter 20 are valid; one quantum less per bit is above 1 Mbit/s. -/
theorem test_can_timing :
    (let s := fun (n d : Nat) => State.timingOk (regsOf [(⟨.can, R.CAN_CFG.off⟩, 0x1C), (⟨.can, R.CAN_NBT.off⟩, n), (⟨.can, R.CAN_DBT.off⟩, d)] base) 0
     s 0x13134E00 0x04041200 = true ∧ s 0x13134D00 0x04041200 = false) := by decide

/-- CLK_STAT after Table CLK-6. -/
theorem test_clk_stat :
    State.statClk (clkOf { xo := .failed, xoFails := 4, pllOn := true, locked := true, ref := true, timeDeg := true, doms := pllDoms }) 0x108 = some 0x040001F3 := by decide

/-- Table ERM-8: MEM_UE as FAULT becomes current by row 4; again it is FATAL by row 2, and ERM_FATAL_LOG reads 0x8118_1810. -/
def ermEx (cur : ErrEnt) (q : List ErrEnt) : State := ermOf { phase := 8, cur := some cur, queue := q }
def uvErr : ErrEnt := { code := 0x1011, src := 0x1000, sev := .alarm, time := 0 }
def lostErr : ErrEnt := { code := 0x1114, src := 0x1100, sev := .alarm, time := 0 }
def ueErr : ErrEnt := { code := 0x1810, src := 0x1800, sev := .fault, time := 0 }
theorem test_error_preempts :
    (let t := (ermEx uvErr [lostErr]).raise .mem 0 0x1810 .fault
     t.erm.cur = some ueErr ∧ t.erm.queue = [uvErr, lostErr]) := by decide
theorem test_error_escalates :
    (let t := (ermEx ueErr [uvErr, lostErr]).raise .mem 0 0x1810 .fault
     t.erm.fatal = true ∧ t.statErm 0x144 = some 0x81181810) := by decide

/-- A block has no word of the table's bits (log 1). -/
theorem test_no_words : decodeTableWord 32 0 = none ∧ (base.withFetchWord 32 0).pending = [] := by decide

/-- An empty queue idles; a waiting command runs with the queue's rest. -/
theorem test_step_idle : step base = .next base := by rfl
end

section
/-!
SUPPORT. What an error raised through the error manager may change (R473–R478).
-/

namespace Sys2Proof.Machine

theorem State.setErm_same (s : State) (e : Erm) : SameBut [.erm] s { s with erm := e } := fun x hx => by
  cases x <;> first | rfl | exact absurd hx (by decide)

/-- A property of states that each single act of the error manager keeps: its own state, an interrupt cause, a record and the outputs of the FATAL reaction. -/
structure RaiseClosed (P : State → Prop) : Prop where
  erm : ∀ (s : State) (e : Erm), P s → P { s with erm := e }
  irq : ∀ (s : State) (b : Block) (i : Nat), P s → P (s.irq b i)
  record : ∀ (s : State) (b : Block) (inst code : Nat) (ps : List Nat), P s → P (s.record b inst code ps)
  outputs : ∀ s : State, P s → P s.fatalOutputs

section
variable {P : State → Prop} (c : RaiseClosed P) {s : State} (h : P s)
include c h

theorem RaiseClosed.settleErm : P s.settleErm := by
  have settled (a : Bool) (n : Nat) : P { s with erm := (Erm.promote a n s.erm).driveErrN } := c.erm _ _ h
  unfold State.settleErm
  dsimp only
  split
  · exact c.irq _ _ _ (settled _ _)
  · exact settled _ _

theorem RaiseClosed.fatalError (code src cause : Nat) : P (s.fatalError code src cause) := by
  unfold State.fatalError
  split
  · exact h
  · exact c.outputs _ (c.erm _ _ (c.record _ _ _ _ _ h))

/-- Every row of Table ERM-4 (R475) is made of these acts. -/
theorem RaiseClosed.handleError (code src : Nat) (sev : Severity) : P (s.handleError code src sev) := by
  unfold State.handleError
  split
  · exact c.fatalError h _ _ _
  · split
    · split
      · exact c.erm _ _ h
      · have escalated (f : Erm → Erm) (ps : List Nat) : P { s.record .erm 0 0x0411 ps with erm := f (s.record .erm 0 0x0411 ps).erm } :=
          c.erm _ _ (c.record _ _ _ _ _ h)
        dsimp only
        split
        · exact c.fatalError (escalated (fun e => e.modify code _) _) _ _ _
        · split
          · exact c.irq _ _ _ (c.erm _ _ (c.record _ _ _ _ _ h))
          · exact c.erm _ _ (c.record _ _ _ _ _ h)
    · split
      · exact c.settleErm (c.irq _ _ _ (c.erm _ _ h))
      · split
        · exact c.fatalError h _ _ _
        · split
          · exact c.settleErm (c.irq _ _ _ (c.erm _ _ h))
          · exact c.erm _ _ h

theorem RaiseClosed.raise (b : Block) (inst code : Nat) (sev : Severity) : P (s.raise b inst code sev) := by
  have counted : P { s with erm := { s.erm with cnt := Tab.upd 0 s.erm.cnt sev.code (satInc 0xFFFFFFFF) } } := c.erm _ _ h
  unfold State.raise
  dsimp only
  split
  · exact counted
  · split
    · exact c.handleError (c.record _ _ _ _ _ counted) _ _ _
    · split
      · exact c.handleError counted _ _ _
      · exact counted

end

/-- The parts that a raised error may change: the error manager, its records and interrupts, and the outputs of the FATAL reaction (R478). -/
def raiseParts : List Part := [.erm, .evr, .hdr, .hts, .out, .free, .mot, .csc, .fio, .saf, .lne, .pmc]

theorem raiseClosed_same (s : State) : RaiseClosed (SameBut raiseParts s) where
  erm _ _ h := SameBut.trans h (SameBut.mono' (State.setErm_same _ _) rfl)
  irq _ _ _ h := SameBut.trans h (SameBut.mono' (State.irq_same _ _ _) rfl)
  record _ _ _ _ _ h := SameBut.trans h (SameBut.mono' (State.record_same _ _ _ _ _) rfl)
  outputs _ h := SameBut.trans h (SameBut.mono' (State.fatalOutputs_same _) rfl)

theorem State.settleErm_same (s : State) : SameBut raiseParts s s.settleErm := (raiseClosed_same s).settleErm (SameBut.refl _ s)

theorem State.raise_same (s : State) (b : Block) (inst code : Nat) (sev : Severity) : SameBut raiseParts s (s.raise b inst code sev) :=
  (raiseClosed_same s).raise (SameBut.refl _ s) b inst code sev

theorem State.raiseNoCode_same (s : State) (b : Block) (inst : Nat) (sev : Severity) : SameBut raiseParts s (s.raiseNoCode b inst sev) :=
  SameBut.trans (SameBut.mono' (State.draw_same s) rfl) (State.raise_same _ b inst _ sev)

end Sys2Proof.Machine
end

section
/-!
SUPPORT. What the scheduler keeps while events are routed and other units are served (R402–R408): the attachment of the application side, the count of
redeliveries, and the port of a core that neither runs a unit nor waits for one.
-/

namespace Sys2Proof.Machine

/-! ### Tables by their entries -/

theorem Tab.mem_of_mem_erase {α : Type} {t : Tab α} {k : Nat} {x : Nat × α} (h : x ∈ Tab.erase t k) : x ∈ t := by
  induction t with
  | nil => exact h
  | cons y t ih =>
    unfold Tab.erase at h
    split at h
    · exact List.mem_cons_of_mem _ (ih h)
    · rcases List.mem_cons.mp h with rfl | h
      · exact List.mem_cons_self
      · exact List.mem_cons_of_mem _ (ih h)

theorem Tab.eq_or_mem_of_mem_insert {α : Type} {t : Tab α} {k : Nat} {v : α} {x : Nat × α} (h : x ∈ Tab.insert k v t) : x = (k, v) ∨ x ∈ t := by
  induction t with
  | nil => exact .inl (by simpa [Tab.insert] using h)
  | cons y t ih =>
    unfold Tab.insert at h
    split at h
    · exact List.mem_cons.mp h
    · rcases List.mem_cons.mp h with rfl | h
      · exact .inr List.mem_cons_self
      · exact (ih h).imp_right (List.mem_cons_of_mem _)

/-- After a write at a key an entry is the one written, or one of another key that was there. -/
theorem Tab.mem_put {α : Type} [DecidableEq α] {d v : α} {t : Tab α} {k : Nat} {x : Nat × α} (h : x ∈ Tab.put d t k v) :
    x = (k, v) ∨ x ∈ t ∧ x.1 ≠ k := by
  have kept (g : x ∈ Tab.erase t k) : x ∈ t ∧ x.1 ≠ k := ⟨Tab.mem_of_mem_erase g, Tab.erase_keys t x g⟩
  unfold Tab.put at h
  split at h
  · exact .inr (kept h)
  · exact (Tab.eq_or_mem_of_mem_insert h).imp_right kept

theorem Tab.mem_mapAll {α : Type} [DecidableEq α] {d : α} {f : α → α} {t : Tab α} {x : Nat × α} (h : x ∈ Tab.mapAll d f t) :
    ∃ v, (x.1, v) ∈ t ∧ x.2 = f v := by
  induction t with
  | nil => cases h
  | cons y t ih =>
    have later (g : x ∈ Tab.mapAll d f t) : ∃ v, (x.1, v) ∈ y :: t ∧ x.2 = f v := by
      obtain ⟨v, hv, e⟩ := ih g
      exact ⟨v, List.mem_cons_of_mem _ hv, e⟩
    unfold Tab.mapAll at h
    dsimp only at h
    split at h
    · exact later h
    · rcases List.mem_cons.mp h with rfl | h
      · exact ⟨y.2, List.mem_cons_self, rfl⟩
      · exact later h

/-- What a table reads as is its default or one of its entries. -/
theorem Tab.get_eq_or_mem {α : Type} (d : α) (t : Tab α) (k : Nat) : Tab.get d t k = d ∨ (k, Tab.get d t k) ∈ t := by
  induction t with
  | nil => exact .inl rfl
  | cons y t ih =>
    rw [Tab.get_cons]
    split
    · next e => exact .inr (e ▸ List.mem_cons_self)
    · exact ih.imp_right (List.mem_cons_of_mem _)

/-! ### Idle cores and the attachment -/

/-- A port with no unit and no stalled DISP read. -/
def Port.idle (q : Port) : Prop := q.unit = none ∧ q.waiting = false

/-- Core `c` runs no unit and waits for none: so says every entry of its port, whatever the form of the table. -/
def Hts.coreIdle (h : Hts) (c : Nat) : Prop := ∀ q, (c, q) ∈ h.ports → q.idle

theorem Hts.coreIdle.port {h : Hts} {c : Nat} (i : h.coreIdle c) : (h.port c).idle := by
  rcases Tab.get_eq_or_mem {} h.ports c with e | m
  · rw [Hts.port, e]; exact ⟨rfl, rfl⟩
  · exact i _ m

/-- A port that is made idle is idle, whatever the table held for it. -/
theorem Hts.coreIdle_updPort_same (h : Hts) (c : Nat) {f : Port → Port} (hf : (f (h.port c)).idle) : (h.updPort c f).coreIdle c := fun q hq => by
  rcases Tab.mem_put hq with e | ⟨_, ne⟩
  · obtain ⟨_, rfl⟩ := Prod.mk.inj e
    exact hf
  · exact absurd rfl ne

/-- From `h` to `g` the attachment and the count of redeliveries stay, and every idle core stays idle. -/
structure Hts.Kept (h g : Hts) : Prop where
  auto : g.auto = h.auto
  detachT : g.detachT = h.detachT
  windowEnd : g.windowEnd = h.windowEnd
  hbPeriod : g.hbPeriod = h.hbPeriod
  redeliv : g.redeliv = h.redeliv
  idle : ∀ c, h.coreIdle c → g.coreIdle c

theorem Hts.Kept.refl (h : Hts) : Hts.Kept h h := ⟨rfl, rfl, rfl, rfl, rfl, fun _ i => i⟩

theorem Hts.Kept.trans {h g k : Hts} (a : Hts.Kept h g) (b : Hts.Kept g k) : Hts.Kept h k where
  auto := b.auto.trans a.auto
  detachT := b.detachT.trans a.detachT
  windowEnd := b.windowEnd.trans a.windowEnd
  hbPeriod := b.hbPeriod.trans a.hbPeriod
  redeliv := b.redeliv.trans a.redeliv
  idle c i := b.idle c (a.idle c i)

theorem Hts.Kept.ite {h : Hts} {s t : State} {c : Prop} [Decidable c] (a : Hts.Kept h s.hts) (b : Hts.Kept h t.hts) :
    Hts.Kept h (if c then s else t).hts := by split <;> assumption

theorem Hts.Kept.foldl {α : Type} {f : State → α → State} (a : ∀ s x, Hts.Kept s.hts (f s x).hts) :
    ∀ (xs : List α) (s : State), Hts.Kept s.hts (xs.foldl f s).hts
  | [], s => .refl s.hts
  | x :: xs, s => .trans (a s x) (Hts.Kept.foldl a xs (f s x))

theorem Hts.Kept.of_same {l : List Part} {s t : State} (h : SameBut l s t) (hl : l.contains .hts = false) : Hts.Kept s.hts t.hts := by
  rw [show t.hts = s.hts from Part.of_same h hl]
  exact .refl _

/-- A change outside the attachment, the count and the ports. -/
theorem Hts.Kept.of_ports {h g : Hts} (hp : g.ports = h.ports)
    (hs : (g.auto, g.detachT, g.windowEnd, g.hbPeriod, g.redeliv) = (h.auto, h.detachT, h.windowEnd, h.hbPeriod, h.redeliv)) : Hts.Kept h g := by
  simp only [Prod.mk.injEq] at hs
  obtain ⟨h1, h2, h3, h4, h5⟩ := hs
  exact ⟨h1, h2, h3, h4, h5, fun c i => by simpa [Hts.coreIdle, hp] using i⟩

theorem Hts.updTask_kept (h : Hts) (t : Nat) (f : Task → Task) : Hts.Kept h (h.updTask t f) := .of_ports rfl rfl

theorem Hts.updQueues_kept (h : Hts) (ready : List DUnit) (flows : Tab (List Item)) : Hts.Kept h { h with ready := ready, flows := flows } :=
  .of_ports rfl rfl

/-- A change of one port that leaves it idle where it was. -/
theorem Hts.updPort_kept (h : Hts) (c : Nat) {f : Port → Port} (hf : (h.port c).idle → (f (h.port c)).idle) : Hts.Kept h (h.updPort c f) :=
  ⟨rfl, rfl, rfl, rfl, rfl, fun d i q hq => by
    rcases Tab.mem_put hq with e | ⟨m, _⟩
    · obtain ⟨rfl, rfl⟩ := Prod.mk.inj e
      exact hf i.port
    · exact i q m⟩

/-! ### The scheduler's operations -/

/-- A unit goes to a core that waits for one, so no idle core takes it (R403). -/
theorem State.dispatch_kept (s : State) (c : Nat) (u : DUnit) (w : (s.hts.port c).waiting = true) : Hts.Kept s.hts (s.dispatch c u).hts := by
  have busy : ¬ (s.hts.port c).idle := fun i => by simp [i.2] at w
  cases u with
  | flag t =>
    exact .trans (Hts.updTask_kept s.hts t _) (.trans (Hts.updPort_kept _ c fun i => absurd i busy) (Hts.updQueues_kept _ _ _))
  | item f => exact .trans (Hts.updPort_kept s.hts c fun i => absurd i busy) (Hts.updQueues_kept _ _ _)

theorem State.serve_kept (s : State) : Hts.Kept s.hts s.serve.hts := by
  unfold State.serve
  split
  · exact .refl s.hts
  · refine .foldl (fun s c => ?_) _ s
    split
    · next w =>
      split
      · exact State.dispatch_kept s c _ w
      · exact .refl s.hts
    · exact .refl s.hts

theorem Port.lapse_idle {ready : List DUnit} {q : Port} (h : q.idle) : (q.lapse ready).idle := by
  unfold Port.lapse
  split
  · split <;> exact h
  · exact h

theorem State.lapse_kept (s : State) : Hts.Kept s.hts s.lapse.hts :=
  ⟨rfl, rfl, rfl, rfl, rfl, fun c i q hq => by
    obtain ⟨v, hv, e⟩ := Tab.mem_mapAll hq
    exact (show q = _ from e) ▸ Port.lapse_idle (i v hv)⟩

theorem State.offer_kept (s : State) (u : DUnit) : Hts.Kept s.hts (s.offer u).hts := by
  have served : Hts.Kept s.hts s.serve.lapse.hts := .trans (State.serve_kept s) (State.lapse_kept _)
  unfold State.offer
  dsimp only
  split
  · split
    · split
      · exact served
      · exact .trans served (Hts.updPort_kept _ _ id)
    · exact served
  · exact served

theorem State.enqueue_kept (s : State) (u : DUnit) (head : Bool) : Hts.Kept s.hts (s.enqueue u head).hts := by
  cases u <;> exact .of_ports rfl rfl

theorem State.makeReady_kept (s : State) (u : DUnit) (head : Bool) : Hts.Kept s.hts (s.makeReady u head).hts :=
  .trans (State.enqueue_kept s u head) (State.offer_kept _ u)

theorem State.evalMet_kept (s : State) : Hts.Kept s.hts s.evalMet.hts :=
  .trans (.foldl (fun s u => State.enqueue_kept s u false) _ s) (.foldl State.offer_kept _ _)

theorem State.orFlags_kept (s : State) (t : Nat) (m : Word) : Hts.Kept s.hts (s.orFlags t m).hts := by
  unfold State.orFlags
  split <;> exact .of_ports rfl rfl

theorem State.routeEvt_kept (s : State) (b : Block) (k i : Nat) : Hts.Kept s.hts (s.routeEvt b k i).hts := by
  unfold State.routeEvt
  split
  · exact .refl s.hts
  · exact .trans (.foldl (fun s _ => State.orFlags_kept s _ _) _ s) (State.evalMet_kept _)

theorem State.irq_kept (s : State) (b : Block) (i : Nat) : Hts.Kept s.hts (s.irq b i).hts :=
  .trans (.of_same (State.updHd_same s b _) rfl)
    (.trans (.ite (State.routeEvt_kept _ _ _ _) (.refl _)) (.ite (State.routeEvt_kept _ _ _ _) (.refl _)))

theorem State.err_kept (s : State) (b : Block) (e : Nat) : Hts.Kept s.hts (s.err b e).hts :=
  .trans (.of_same (State.updHd_same s b _) rfl) (State.irq_kept _ b 0)

theorem State.record_kept (s : State) (b : Block) (inst code : Nat) (ps : List Nat) : Hts.Kept s.hts (s.record b inst code ps).hts := by
  have presented (e : Evr) : Hts.Kept s.hts { s with evr := e }.hts := .refl s.hts
  exact .ite (.trans (presented _) (State.irq_kept _ _ _)) (presented _)

theorem raiseClosed_kept (s : State) : RaiseClosed (fun t => Hts.Kept s.hts t.hts) where
  erm _ _ h := h
  irq _ _ _ h := h.trans (State.irq_kept _ _ _)
  record _ _ _ _ _ h := h.trans (State.record_kept _ _ _ _ _)
  outputs _ h := h.trans (.of_same (State.fatalOutputs_same _) rfl)

theorem State.settleErm_kept (s : State) : Hts.Kept s.hts s.settleErm.hts := (raiseClosed_kept s).settleErm (.refl s.hts)

theorem State.raise_kept (s : State) (b : Block) (inst code : Nat) (sev : Severity) : Hts.Kept s.hts (s.raise b inst code sev).hts :=
  (raiseClosed_kept s).raise (.refl s.hts) b inst code sev

end Sys2Proof.Machine
end

section
/-!
SUPPORT. The attachment of the application side (R27, R29, R410) and a core's reset through the fence (R45, R407, R418).
-/

namespace Sys2Proof.Machine

/-! ### Attachment -/

theorem Hts.Kept.withAuto {h g : Hts} (k : Hts.Kept h g) (a : Autonomy) : Hts.Kept { h with auto := a } { g with auto := a } :=
  ⟨rfl, k.detachT, k.windowEnd, k.hbPeriod, k.redeliv, k.idle⟩

theorem Hts.Kept.withWindow {h g : Hts} (k : Hts.Kept h g) (a : Autonomy) (d w : Nat) :
    Hts.Kept { h with auto := a, detachT := d, windowEnd := w } { g with auto := a, detachT := d, windowEnd := w } :=
  ⟨rfl, rfl, rfl, k.hbPeriod, k.redeliv, k.idle⟩

theorem State.setAuto_kept (s : State) (a : Autonomy) : Hts.Kept { s.hts with auto := a } (s.setAuto a).hts :=
  .trans (State.irq_kept (s.updHts fun h => { h with auto := a }) .hts 9) (State.settleErm_kept _)

theorem State.setAuto_same (s : State) (a : Autonomy) : SameBut raiseParts s (s.setAuto a) :=
  SameBut.trans (SameBut.mono' (State.updHts_same s _) rfl) (SameBut.trans (SameBut.mono' (State.irq_same _ _ _) rfl) (State.settleErm_same _))

/-- An attachment changes the autonomy state alone (Table RT-10). -/
theorem State.attach_kept (s : State) : Hts.Kept { s.hts with auto := .attached } s.attach.hts := by
  have attached (code : Nat) (ps : List Nat) : Hts.Kept { s.hts with auto := .attached } ((s.record .hts 0 code ps).setAuto .attached).hts :=
    .trans ((State.record_kept s _ _ _ _).withAuto _) (State.setAuto_kept _ _)
  exact .ite (.trans (attached _ _) (State.raise_kept _ _ _ _ _)) (attached _ _)

/-- A detachment opens the window (R27). -/
theorem State.detach_kept_of_attached {s : State} (a : s.hts.auto = .attached) (cause : Nat) :
    Hts.Kept { s.hts with auto := .autonomous, detachT := s.now, windowEnd := s.now + s.windowNs } (s.detach cause).hts := by
  unfold State.detach
  simp only [a]
  exact .trans ((State.record_kept s .hts 0 0x0711 [cause]).withWindow .autonomous s.now (s.now + s.windowNs))
    (.trans (State.setAuto_kept ((s.record .hts 0 0x0711 [cause]).updHts fun h => { h with detachT := s.now, windowEnd := s.now + s.windowNs }) _)
      (State.raise_kept _ _ _ _ _))

/-- In every other state a detachment is at most recorded. -/
theorem State.detach_kept_of_not_attached {s : State} (a : s.hts.auto ≠ .attached) (cause : Nat) : Hts.Kept s.hts (s.detach cause).hts := by
  unfold State.detach
  split
  · exact absurd ‹_› a
  · exact .ite (State.record_kept _ _ _ _ _) (.refl _)
  · exact .refl _

theorem State.detach_same (s : State) (cause : Nat) : SameBut raiseParts s (s.detach cause) := by
  have written : SameBut raiseParts s (s.record .hts 0 0x0711 [cause]) := SameBut.mono' (State.record_same s _ _ _ _) rfl
  unfold State.detach
  split
  · exact SameBut.trans written (SameBut.trans (SameBut.mono' (State.updHts_same _ _) rfl)
      (SameBut.trans (State.setAuto_same _ _) (State.raise_same _ _ _ _ _)))
  · exact SameBut.ite written (SameBut.refl _ _)
  · exact SameBut.refl _ _

/-! ### Cores -/

theorem State.core_congr {s t : State} (h : t.cpu.cores = s.cpu.cores) (c : Nat) : t.core c = s.core c := by simp [State.core, h]

theorem State.core_of_same {l : List Part} {s t : State} (h : SameBut l s t) (hl : l.contains .cpu = false) (c : Nat) : t.core c = s.core c :=
  State.core_congr (congrArg Cpu.cores (Part.of_same h hl)) c

@[simp] theorem State.core_updCore_same (s : State) (c : Nat) (f : Core → Core) : (s.updCore c f).core c = f (s.core c) := Tab.get_upd_same _ _ _ _

theorem State.core_updCore_ne (s : State) {c d : Nat} (f : Core → Core) (h : d ≠ c) : (s.updCore c f).core d = s.core d := Tab.get_upd_ne _ _ _ h

theorem State.updCore_same (s : State) (c : Nat) (f : Core → Core) : SameBut [.cpu] s (s.updCore c f) := State.updCpu_same s _

/-! ### Redelivery -/

/-- A port whose core is reset: no unit, no preemption, no stalled read. -/
def Port.released (q : Port) : Port := { q with unit := none, preempt := none, waiting := false }

/-- The scheduler once a core's unit has returned (R407): its port is free, and a unit that it ran is counted. -/
def Hts.released (h : Hts) (c : Nat) : Hts :=
  { h.updPort c Port.released with redeliv := if (h.port c).unit.isSome then wrapInc h.redeliv else h.redeliv }

theorem Hts.released_idle (h : Hts) (c : Nat) : (h.released c).coreIdle c := fun q hq =>
  Hts.coreIdle_updPort_same h c (f := Port.released) ⟨rfl, rfl⟩ q hq

/-- A redelivery frees the port; what becomes READY then goes to other cores. -/
theorem State.redeliver_kept (s : State) (c : Nat) : Hts.Kept (s.hts.released c) (s.redeliver c).hts := by
  unfold State.redeliver Hts.released
  dsimp only
  cases hu : (s.hts.port c).unit with
  | none => exact .refl _
  | some u =>
    cases u with
    | flag t =>
      refine .trans ?_ (.trans (State.makeReady_kept _ (.flag t) false) (State.record_kept _ _ _ _ _))
      exact .of_ports rfl rfl
    | item f =>
      refine .trans ?_ (.trans (State.makeReady_kept _ (.item f) false) (State.record_kept _ _ _ _ _))
      exact .of_ports rfl rfl

theorem State.redeliver_same (s : State) (c : Nat) : SameBut [.evr, .hdr, .hts, .out] s (s.redeliver c) := by
  have ready (t : State) (u : DUnit) (code : Nat) (ps : List Nat) : SameBut [.evr, .hdr, .hts, .out] t ((t.makeReady u false).record .hts 0 code ps) :=
    SameBut.trans (SameBut.mono' (State.makeReady_same t u false) rfl) (State.record_same _ _ _ _ _)
  have changed (t : State) (f : Hts → Hts) : SameBut [.evr, .hdr, .hts, .out] t (t.updHts f) := SameBut.mono' (State.updHts_same t f) rfl
  unfold State.redeliver
  dsimp only
  split
  · exact changed s _
  · split
    · exact SameBut.trans (changed s _) (SameBut.trans (changed _ _) (SameBut.trans (changed _ _) (ready _ _ _ _)))
    · exact SameBut.trans (changed s _) (SameBut.trans (changed _ _) (SameBut.trans (changed _ _) (ready _ _ _ _)))

/-! ### A reset through the fence -/

/-- A core after its reset (R418, R419): its CSRs at reset, the timer's level as it was, running where CPU_CORE_EN has its bit. -/
def State.freshCore (s : State) (c : Nat) : Core :=
  { running := bit (s.reg R.CPU_CORE_EN) c, startPc := s.resetPc c, timerIrq := (s.core c).timerIrq }

/-- Core `c` was reset through the fence between `s` and `t`: it is fresh, its unit has returned and is counted, the reset detached the application side, and
no other core changed. -/
structure State.CoreReset (s t : State) (c : Nat) : Prop where
  fresh : t.core c = s.freshCore c
  others : ∀ d, d ≠ c → t.core d = s.core d
  idle : t.hts.coreIdle c
  detached : s.hts.auto = .attached → t.hts.auto = .autonomous
  counted : (s.hts.port c).unit.isSome = true → t.hts.redeliv = wrapInc s.hts.redeliv

theorem State.CoreReset.after {s t u : State} {c : Nat} (r : State.CoreReset s t c) (hc : u.cpu.cores = t.cpu.cores) (k : Hts.Kept t.hts u.hts) :
    State.CoreReset s u c where
  fresh := (State.core_congr hc c).trans r.fresh
  others d hd := (State.core_congr hc d).trans (r.others d hd)
  idle := k.idle c r.idle
  detached a := k.auto.trans (r.detached a)
  counted h := k.redeliv.trans (r.counted h)

theorem State.resetCore_detach (s : State) (c : Nat) : State.CoreReset s ((s.resetCore c).detach 0) c := by
  have kept : Hts.Kept (s.hts.released c) (s.resetCore c).hts := State.redeliver_kept s c
  have core (d : Nat) : ((s.resetCore c).detach 0).core d = (s.resetCore c).core d := State.core_of_same (State.detach_same _ 0) rfl d
  have before (d : Nat) : (s.redeliver c).core d = s.core d := State.core_of_same (State.redeliver_same s c) rfl d
  have count (h : (s.hts.port c).unit.isSome = true) : (s.resetCore c).hts.redeliv = wrapInc s.hts.redeliv := by
    rw [kept.redeliv]; exact if_pos h
  have fresh : ((s.resetCore c).detach 0).core c = s.freshCore c := by
    rw [core, State.resetCore, State.core_updCore_same, before]; rfl
  have others (d : Nat) (hd : d ≠ c) : ((s.resetCore c).detach 0).core d = s.core d := by
    rw [core, State.resetCore, State.core_updCore_ne _ _ hd, before]
  by_cases a : (s.resetCore c).hts.auto = .attached
  · have k := State.detach_kept_of_attached a 0
    exact ⟨fresh, others, k.idle c (kept.idle c (Hts.released_idle _ c)), fun _ => k.auto, fun h => k.redeliv.trans (count h)⟩
  · have k := State.detach_kept_of_not_attached a 0
    exact ⟨fresh, others, k.idle c (kept.idle c (Hts.released_idle _ c)), fun h => absurd (kept.auto.trans h) a,
      fun h => k.redeliv.trans (count h)⟩

end Sys2Proof.Machine
end

section
/-!
PROOF. The cores, the memories and the attachment of the application side (O51).
-/

namespace Sys2Proof.Machine

/-! ### Attachment (R27, R29, R410) -/

theorem State.attached_iff (s : State) : s.attached = true ↔ s.hts.auto = .attached := by simp [State.attached]

/-- A heartbeat's period is taken whether or not it attaches. -/
theorem heartbeat_attaches {s : State} {r : Principal} (h : s.writeOk .hts 0x108 .w1s r = true) :
    (s.hts.auto = .attached → exec (.htsHb r) s = .next (s.updHts fun h => { h with hbPeriod := bits (s.reg R.HTS_AUTO_CFG) 6 0 })) ∧
    (s.hts.auto ≠ .attached → ∃ t, exec (.htsHb r) s = .next t ∧ t.hts.auto = .attached ∧ t.hts.hbPeriod = bits (s.reg R.HTS_AUTO_CFG) 6 0) := by
  let u := s.updHts fun h => { h with hbPeriod := bits (s.reg R.HTS_AUTO_CFG) 6 0 }
  have run : exec (.htsHb r) s = .next (if u.attached then u else u.attach) := congrArg Host.Outcome.next (State.gated_ok 1 _ h)
  have attached : u.attached = true ↔ s.hts.auto = .attached := State.attached_iff u
  refine ⟨fun a => by rw [run, if_pos (attached.mpr a)], fun a => ⟨u.attach, by rw [run, if_neg (mt attached.mp a)], ?_⟩⟩
  have k := State.attach_kept u
  exact ⟨k.auto, k.hbPeriod⟩

theorem heartbeatMissed_detaches {s : State} (a : s.hts.auto = .attached) : ∃ t, exec .heartbeatMissed s = .next t ∧
    t.hts.auto = .autonomous ∧ t.hts.detachT = s.now ∧ t.hts.windowEnd = s.now + bits (s.reg R.HTS_AUTO_CFG) 21 16 * 1000000000 := by
  have k := State.detach_kept_of_attached a 1
  exact ⟨s.detach 1, congrArg Host.Outcome.next (if_pos ((State.attached_iff s).mpr a)), k.auto, k.detachT, k.windowEnd⟩

theorem heartbeatMissed_of_not_attached {s : State} (a : s.hts.auto ≠ .attached) : exec .heartbeatMissed s = .next s :=
  congrArg Host.Outcome.next (if_neg (mt (State.attached_iff s).mp a))

theorem State.rsqExpire_same (s : State) : SameBut [.rsq] s s.rsqExpire := SameBut.foldl (fun s _ => State.updRsq_same s _) _ s

theorem windowExpiry_expires {s : State} (a : s.hts.auto = .autonomous) : ∃ t, exec .autonomyWindowExpiry s = .next t ∧ t.hts.auto = .expired := by
  have k (ps : List Nat) : Hts.Kept { s.hts with auto := .expired } ((((s.setAuto .expired).rsqExpire).record .hts 0 0x0712 ps).raise .hts 0 0x0712 .alarm).hts :=
    .trans (State.setAuto_kept s _) (.trans (.of_same (State.rsqExpire_same _) rfl) (.trans (State.record_kept _ _ _ _ _) (State.raise_kept _ _ _ _ _)))
  exact ⟨_, congrArg Host.Outcome.next (if_neg (not_not_intro a)), (k _).auto⟩

theorem windowExpiry_of_not_autonomous {s : State} (a : s.hts.auto ≠ .autonomous) : exec .autonomyWindowExpiry s = .next s :=
  congrArg Host.Outcome.next (if_pos a)

/-! ### Watchdogs and resets of a core (R407, R418, R419) -/

theorem nbit_nput_same (n i : Nat) : nbit (nput n i true) i = true := by
  simp [nbit, nput, Nat.testBit_or]

theorem wdtWarning_pends {s : State} {c : Fin 8} (hr : (s.core c.val).running = true) (he : (s.core c.val).wdtEn = true)
    (hw : (s.core c.val).wdtWarned = false) : ∃ t, exec (.wdtWarning c) s = .next t ∧
      (t.core c.val).wdtWarned = true ∧ nbit t.cpu.edgePend (40 + c.val) = true ∧ SameBut [.cpu] s t := by
  refine ⟨(s.updCore c.val fun k => { k with wdtWarned := true }).updCpu fun x => { x with edgePend := nput x.edgePend (40 + c.val) true },
    congrArg Host.Outcome.next (if_pos (by simp [hr, he, hw])), ?_, nbit_nput_same _ _,
    SameBut.trans (State.updCore_same s _ _) (State.updCpu_same _ _)⟩
  show ((s.updCore c.val fun k => { k with wdtWarned := true }).core c.val).wdtWarned = true
  rw [State.core_updCore_same]

theorem wdt_of_stopped {s : State} {c : Fin 8} (h : (s.core c.val).running = false ∨ (s.core c.val).wdtEn = false) :
    exec (.wdtWarning c) s = .next s ∧ ∀ m, exec (.wdtExpiry c m) s = .next s := by
  have off : ((s.core c.val).running && (s.core c.val).wdtEn) = false := by
    rcases h with h | h <;> simp [h]
  exact ⟨congrArg Host.Outcome.next (if_neg (by simp [off])), fun m => congrArg Host.Outcome.next (if_neg (by simp [off]))⟩

theorem wdtExpiry_resets {s : State} {c : Fin 8} (m : Word) (hr : (s.core c.val).running = true) (he : (s.core c.val).wdtEn = true) :
    ∃ t, exec (.wdtExpiry c m) s = .next t ∧ State.CoreReset s t c.val ∧ nbit t.cpu.wdtLog c.val = true ∧ (t.hd .cpu).errCode = 0x1920 := by
  let u := ((s.resetCore c.val).detach 0).updCpu fun x => { x with wdtLog := nput x.wdtLog c.val true }
  let v := u.record .cpu 0 0x1910 [c.val, m.toNat]
  let t := (v.err .cpu errWdtReset).irq .cpu 8
  have cpu : t.cpu = u.cpu :=
    (State.irq_same _ _ _ .cpu (by decide)).trans ((State.err_same _ _ _ .cpu (by decide)).trans (State.record_same _ _ _ _ _ .cpu (by decide)))
  have kept : Hts.Kept ((s.resetCore c.val).detach 0).hts t.hts :=
    .trans (State.record_kept u _ _ _ _) (.trans (State.err_kept _ _ _) (State.irq_kept _ _ _))
  refine ⟨t, congrArg Host.Outcome.next (if_pos (by simp [hr, he])), (State.resetCore_detach s c.val).after (by rw [cpu]; rfl) kept, ?_, ?_⟩
  · rw [cpu]; exact nbit_nput_same _ _
  · rw [State.hd_irq_same, State.hd_err_same]; rfl

theorem cacheUe_resets {s : State} {c : Fin 8} (level : Fin 3) (addr : Nat) (hr : (s.core c.val).running = true) :
    ∃ t, exec (.cacheUe c level addr) s = .next t ∧ State.CoreReset s t c.val ∧ (t.hd .cpu).errCode = 0x1921 := by
  let u := (s.resetCore c.val).detach 0
  let v := u.record .cpu 0 0x1911 [c.val, level.val, addr % 2 ^ 32]
  have cpu : (v.err .cpu errCacheUe).cpu = u.cpu := (State.err_same _ _ _ .cpu (by decide)).trans (State.record_same _ _ _ _ _ .cpu (by decide))
  have kept : Hts.Kept u.hts (v.err .cpu errCacheUe).hts := .trans (State.record_kept u _ _ _ _) (State.err_kept _ _ _)
  refine ⟨v.err .cpu errCacheUe, congrArg Host.Outcome.next (if_pos hr), (State.resetCore_detach s c.val).after (by rw [cpu]) kept, ?_⟩
  rw [State.hd_err_same]; rfl

/-- A loop over the first `n` numbers that acts at one of them acts once. -/
theorem foldl_range_single {α : Type} {f : α → Nat → α} {c : Nat} (h : ∀ s d, d ≠ c → f s d = s) (s : α) :
    ∀ n, c < n → (List.range n).foldl f s = f s c
  | n + 1, hn => by
    have before : ∀ m, m ≤ c → (List.range m).foldl f s = s := fun m hm => by
      induction m with
      | zero => rfl
      | succ m ih => rw [List.range_succ, List.foldl_append, ih (by omega)]; exact h s m (by omega)
    rw [List.range_succ, List.foldl_append]
    by_cases hc : c = n
    · subst hc; rw [before c (Nat.le_refl c)]; rfl
    · rw [foldl_range_single h s n (by omega)]; exact h _ n (Ne.symm hc)

theorem cpuCoreRst_resets {s : State} {r : Principal} {c : Fin 8} (h : s.writeOk .cpu 0x104 .w1s r = true) :
    ∃ t, exec (.cpuCoreRst r (word (2 ^ c.val))) s = .next t ∧ State.CoreReset s t c.val := by
  have named (d : Nat) : bit (word (2 ^ c.val)) d = decide (d = c.val) := by
    have := c.isLt
    unfold bit
    rw [word_two_pow]
    by_cases e : d = c.val
    · subst e; simp; omega
    · simp [e, Ne.symm e]
  refine ⟨_, congrArg Host.Outcome.next (State.gated_ok _ _ h), ?_⟩
  rw [foldl_range_single (c := c.val) (fun s d hd => by simp [named, hd]) s 8 c.isLt]
  simpa [named] using State.resetCore_detach s c.val

/-! ### CPU_CORE_EN (R419) -/

/-- What a write of CPU_CORE_EN does to one core. -/
def State.coreEnStep (old new : Word) (s : State) (c : Nat) : State :=
  if bit old c = bit new c then s
  else if bit new c then s.updCore c fun k => { running := true, startPc := s.resetPc c, timerIrq := k.timerIrq }
  else (s.redeliver c).updCore c fun k => { running := false, timerIrq := k.timerIrq }

theorem State.coreEnStep_same (old new : Word) (s : State) (c : Nat) : SameBut [.cpu, .evr, .hdr, .hts, .out] s (s.coreEnStep old new c) :=
  SameBut.ite (SameBut.refl _ _) (SameBut.ite (SameBut.mono' (State.updCore_same s _ _) rfl)
    (SameBut.trans (SameBut.mono' (State.redeliver_same s c) rfl) (SameBut.mono' (State.updCore_same _ _ _) rfl)))

theorem State.coreEnStep_running (old new : Word) (s : State) (c : Nat) :
    ((s.coreEnStep old new c).core c).running = if bit old c = bit new c then (s.core c).running else bit new c := by
  unfold State.coreEnStep
  split
  · rfl
  · cases hb : bit new c <;> simp

theorem State.coreEnStep_ne (old new : Word) (s : State) {c d : Nat} (h : d ≠ c) : (s.coreEnStep old new c).core d = s.core d := by
  unfold State.coreEnStep
  split
  · rfl
  · split
    · rw [State.core_updCore_ne _ _ h]
    · rw [State.core_updCore_ne _ _ h, State.core_of_same (State.redeliver_same s c) rfl]

theorem State.coreEn_running (old new : Word) (s : State) : ∀ n c : Nat, (((List.range n).foldl (State.coreEnStep old new) s).core c).running =
    if c < n ∧ bit old c ≠ bit new c then bit new c else (s.core c).running
  | 0, c => by simp
  | n + 1, c => by
    rw [List.range_succ, List.foldl_append]
    show ((State.coreEnStep old new _ n).core c).running = _
    by_cases hc : c = n
    · subst hc
      rw [State.coreEnStep_running, State.coreEn_running old new s c c]
      by_cases e : bit old c = bit new c <;> simp [e]
    · rw [State.coreEnStep_ne _ _ _ hc, State.coreEn_running old new s n c]
      have earlier : c < n + 1 ↔ c < n := by omega
      simp only [earlier]

theorem bit_and_low (v : Word) {c : Nat} (h : c < 8) : bit (v &&& 0xFF) c = bit v c := by
  have : bit (0xFF : Word) c = true := by
    have : ∀ c < 8, bit (0xFF : Word) c = true := by decide
    exact this c h
  unfold bit at *
  rw [BitVec.getLsbD_and, this, Bool.and_true]

theorem cpuCoreEn_writes {s : State} {r : Principal} (v : Word) (h : s.writeOk .cpu 0x100 .rw r = true) :
    ∃ t, exec (.cpuCoreEn r v) s = .next t ∧ t.reg R.CPU_CORE_EN = v &&& 0xFF ∧
      ∀ c < 8, (t.core c).running = if bit (s.reg R.CPU_CORE_EN) c = bit v c then (s.core c).running else bit v c := by
  let old := s.reg R.CPU_CORE_EN
  let u := s.setReg R.CPU_CORE_EN (v &&& 0xFF)
  have run : exec (.cpuCoreEn r v) s = .next ((List.range 8).foldl (State.coreEnStep old (v &&& 0xFF)) u) :=
    congrArg Host.Outcome.next (State.gated_ok v _ h)
  refine ⟨_, run, ?_, fun c hc => ?_⟩
  · rw [State.reg_congr (SameBut.foldl (State.coreEnStep_same _ _) _ u .regs (by decide))]
    exact State.reg_setReg_same s _ _
  · rw [State.coreEn_running, bit_and_low v hc]
    show (if _ then _ else (s.core c).running) = _
    by_cases e : bit old c = bit v c <;> simp [old, hc, e]

/-! ### Memories (R421, R422) -/

theorem sramScrub_logs (s : State) (ce a : Nat) : ∃ t, exec (.sramScrub ce (some a)) s = .next t ∧ t.cpu.sramCe = min 0xFFFFFFFF (s.cpu.sramCe + ce) ∧
    (s.cpu.sramUe = none → t.cpu.sramUe = some (a / 8 % 2 ^ 24)) ∧ (s.cpu.sramUe.isSome = true → t.cpu.sramUe = s.cpu.sramUe) := by
  refine ⟨_, rfl, ?_⟩
  rw [State.raiseNoCode_same _ _ _ _ .cpu (by decide)]
  cases h : s.cpu.sramUe <;> simp [State.updCpu, h]

theorem memPatrolScrub_logs (s : State) (ce a : Nat) : ∃ t, exec (.memPatrolScrub ce (some a)) s = .next t ∧
    t.msdram.ceCnt = min 0xFFFFFFFF (s.msdram.ceCnt + ce) ∧
    (s.msdram.ueLog = none → t.msdram.ueLog = some (a % 2 ^ 40)) ∧ (s.msdram.ueLog.isSome = true → t.msdram.ueLog = s.msdram.ueLog) := by
  refine ⟨_, rfl, ?_⟩
  unfold State.memUe
  dsimp only
  rw [State.raise_same _ _ _ _ _ .msdram (by decide), State.irq_same _ _ _ .msdram (by decide), State.err_same _ _ _ .msdram (by decide),
    State.record_same _ _ _ _ _ .msdram (by decide)]
  cases h : s.msdram.ueLog <;> simp [State.updMem, h]

/-- What is mapped after a training: the channels that are fitted and did not fail. -/
def State.mapped (s : State) (fail0 fail1 : Bool) : Nat :=
  (if fail0 && bit (s.reg R.MEM_CFG) 0 then 0 else s.chanCap 0) + (if fail1 && bit (s.reg R.MEM_CFG) 1 then 0 else s.chanCap 1)

theorem State.memTrained_msdram (s : State) (fail0 fail1 : Bool) : (s.memTrained fail0 fail1).msdram.capacity = s.mapped fail0 fail1 ∧
    (s.memTrained fail0 fail1).msdram.trained = decide (0 < s.mapped fail0 fail1) := by
  unfold State.memTrained
  dsimp only
  rw [State.record_same _ _ _ _ _ .msdram (by decide)]
  exact ⟨rfl, rfl⟩

theorem State.memTrained_running (s : State) (fail0 fail1 : Bool) :
    ((s.memTrained fail0 fail1).hd .mem).running = decide (0 < s.mapped fail0 fail1) := by
  unfold State.memTrained
  dsimp only
  rw [State.hd_record _ _ _ _ _ (by decide), State.hd_updHd_same]
  rfl

/-- A fitted channel that fails records TRAIN_FAIL (R422). -/
theorem State.memTrained_errCode (s : State) (fail0 fail1 : Bool)
    (h : fail0 = true ∧ bit (s.reg R.MEM_CFG) 0 = true ∨ fail1 = true ∧ bit (s.reg R.MEM_CFG) 1 = true) :
    ((s.memTrained fail0 fail1).hd .mem).errCode = 0x1821 := by
  have failed (t : State) : ((t.err .mem errTrainFail).hd .mem).errCode = 0x1821 := by rw [State.hd_err_same]; rfl
  have mem (t : State) (f : MemSt → MemSt) : (t.updMem f).hd .mem = t.hd .mem := rfl
  unfold State.memTrained
  dsimp only
  rw [State.hd_record _ _ _ _ _ (by decide), State.hd_updHd_same, mem]
  dsimp only
  by_cases h1 : (fail1 && bit (s.reg R.MEM_CFG) 1) = true
  · rw [if_pos h1, failed]
  · have h0 : (fail0 && bit (s.reg R.MEM_CFG) 0) = true := by
      rcases h with ⟨f, b⟩ | ⟨f, b⟩
      · simp [f, b]
      · exact absurd (by simp [f, b]) h1
    rw [if_neg h1, if_pos h0, failed]

theorem exec_memTrainingDone_of_on {s : State} (he : (s.hd .mem).en = true) (hp : (s.hd .mem).pwr = .on) (fail0 fail1 : Bool) :
    exec (.memTrainingDone fail0 fail1) s = .next (s.memTrained fail0 fail1) := congrArg Host.Outcome.next (if_neg (by simp [he, hp]))

theorem memTrainingDone_maps {s : State} (he : (s.hd .mem).en = true) (hp : (s.hd .mem).pwr = .on) :
    (∃ t, exec (.memTrainingDone false false) s = .next t ∧ t.msdram.capacity = s.chanCap 0 + s.chanCap 1 ∧
      (t.hd .mem).running = decide (0 < s.chanCap 0 + s.chanCap 1) ∧ t.msdram.trained = decide (0 < s.chanCap 0 + s.chanCap 1)) ∧
    (bit (s.reg R.MEM_CFG) 0 = true → ∃ t, exec (.memTrainingDone true false) s = .next t ∧ t.msdram.capacity = s.chanCap 1 ∧ (t.hd .mem).errCode = 0x1821) ∧
    (bit (s.reg R.MEM_CFG) 1 = true → ∃ t, exec (.memTrainingDone false true) s = .next t ∧ t.msdram.capacity = s.chanCap 0 ∧ (t.hd .mem).errCode = 0x1821) := by
  have run := exec_memTrainingDone_of_on he hp
  refine ⟨?_, fun b => ?_, fun b => ?_⟩
  · obtain ⟨capacity, trained⟩ := s.memTrained_msdram false false
    exact ⟨_, run _ _, capacity, s.memTrained_running false false, trained⟩
  · refine ⟨_, run _ _, (s.memTrained_msdram true false).1.trans ?_, s.memTrained_errCode _ _ (.inl ⟨rfl, b⟩)⟩
    simp [State.mapped, b]
  · refine ⟨_, run _ _, (s.memTrained_msdram false true).1.trans ?_, s.memTrained_errCode _ _ (.inr ⟨rfl, b⟩)⟩
    simp [State.mapped, b]

theorem mtimeRead_latches {s : State} (h : s.present .cpu = true) : ∃ t, exec .mtimeRead s = .next t ∧ t.out = s.cpu.mtime % 2 ^ 32 ∧
    t.cpu.mtimeHi = s.cpu.mtime / 2 ^ 32 % 2 ^ 32 ∧ SameBut [.cpu, .out] s t :=
  ⟨_, congrArg Host.Outcome.next (if_neg (by simp [h])), rfl, rfl, fun x hx => by cases x <;> first | rfl | exact absurd hx (by decide)⟩

/-- Settles O51: the attachment, the resets of cores through the fence, and the memories, each by its lemma above. -/
theorem coresMemoriesAndAttachment : Obligations.CoresMemoriesAndAttachment := by
  unfold Obligations.CoresMemoriesAndAttachment
  intro s fresh
  refine ⟨fun r => heartbeat_attaches, heartbeatMissed_detaches, heartbeatMissed_of_not_attached, windowExpiry_expires, windowExpiry_of_not_autonomous,
    fun c => ⟨wdtWarning_pends, wdt_of_stopped, fun m hr he => ?_, rfl, fun v hv => congrArg Host.Outcome.next (if_neg hv), fun r h => ?_, fun hr level addr => ?_,
      fun level addr hr => ?_, rfl⟩,
    fun r v => cpuCoreEn_writes v, mtimeRead_latches, fun ce => rfl, sramScrub_logs s, fun ce => rfl, memPatrolScrub_logs s, memTrainingDone_maps,
    fun he a b => congrArg Host.Outcome.next (if_pos (by simp [he]))⟩
  · obtain ⟨t, run, reset, log, code⟩ := wdtExpiry_resets m hr he
    exact ⟨t, run, reset.fresh, log, reset.idle.port.1, reset.detached, code, reset.counted⟩
  · obtain ⟨t, run, reset⟩ := cpuCoreRst_resets h
    exact ⟨t, run, reset.fresh, reset.idle.port.1, fun d _ hd => reset.others d hd⟩
  · exact congrArg Host.Outcome.next (if_neg (by simp [hr]))
  · obtain ⟨t, run, reset, code⟩ := cacheUe_resets level addr hr
    exact ⟨t, run, reset.fresh, reset.idle.port.1, code⟩

end Sys2Proof.Machine
end

section
/-!
SUPPORT. What a change of a point's value may change: the directory, the block that the history recorder fills, the CAN objects that watch it, and through them memory,
records and interrupts; then the axes that follow it and the field die's outputs that it drives.
-/

namespace Sys2Proof.Machine

/-! ### The history recorder (R380–R386) -/

/-- The parts that a sample of the history recorder may change: the recorder, the ring in memory, records and interrupts. -/
def histParts : List Part := [.hrc, .mem, .evr, .hdr, .hts, .out]

theorem State.putGap_same (s : State) (b : HrcBlock) : SameBut [.mem] s (s.putGap b) := State.storeRam_same s _ _

theorem State.hrcLose_same (s : State) (v : HrcBlock) : SameBut histParts s (s.hrcLose v) := by
  have changed (t : State) (f : Hrc → Hrc) : SameBut histParts t (t.updHrc f) := SameBut.mono' (State.updHrc_same t f) rfl
  have counted (f : Hrc → Hrc) : SameBut histParts s ((s.updHrc f).irq .hrc 8) := SameBut.trans (changed s f) (SameBut.mono' (State.irq_same _ _ _) rfl)
  unfold State.hrcLose
  dsimp only
  split
  · exact SameBut.trans (counted _) (SameBut.trans (changed _ _) (SameBut.mono' (State.putGap_same _ _) rfl))
  · exact SameBut.trans (counted _) (changed _ _)

theorem State.hrcOverwrite_same (s : State) : SameBut histParts s s.hrcOverwrite.1 := by
  unfold State.hrcOverwrite
  split
  · exact SameBut.refl _ _
  · exact State.hrcLose_same s _

theorem State.hrcClose_same (s : State) : SameBut histParts s s.hrcClose := by
  have changed (t : State) (f : Hrc → Hrc) : SameBut histParts t (t.updHrc f) := SameBut.mono' (State.updHrc_same t f) rfl
  have stored (t : State) (a : Nat) (bs : List Byte) (f : Hrc → Hrc) : SameBut histParts t ((t.storeRam a bs).updHrc f) :=
    SameBut.trans (SameBut.mono' (State.storeRam_same t a bs) rfl) (changed _ _)
  have stalled (t : State) (code : Nat) (ps : List Nat) (f : Hrc → Hrc) : SameBut histParts t (((t.updHrc f).record .hrc 0 code ps).irq .hrc 9) :=
    SameBut.trans (changed t f) (SameBut.trans (SameBut.mono' (State.record_same _ _ _ _ _) rfl) (SameBut.mono' (State.irq_same _ _ _) rfl))
  unfold State.hrcClose
  split
  · exact SameBut.refl _ _
  · dsimp only
    have room : SameBut histParts s (if s.hrcSlots ≤ s.hrc.unsent.length then s.hrcOverwrite
        else (s, freeSlot (s.hrc.unsent.map HrcBlock.slot) s.hrcSlots s.hrc.seq s.hrc.unsent.length)).1 := by
      split
      · exact State.hrcOverwrite_same s
      · exact SameBut.refl _ _
    refine SameBut.ite (SameBut.trans (SameBut.trans room (stored _ _ _ _)) (stalled _ _ _ _)) (SameBut.trans room (stored _ _ _ _))

theorem State.hrcRecord_same (s : State) (r : HrcRec) : SameBut histParts s (s.hrcRecord r) := by
  have opened (f : Hrc → Hrc) : SameBut histParts s (s.updHrc f) := SameBut.mono' (State.updHrc_same s f) rfl
  exact SameBut.ite (SameBut.trans (opened _) (State.hrcClose_same _)) (opened _)

theorem State.observeChange_same (s : State) (idx : Nat) (v : Word) (q : Byte) (t : Nat) : SameBut histParts s (s.observeChange idx v q t) := by
  have changed (t : State) (f : HrcPt → HrcPt) : SameBut histParts t (t.updHpt idx f) := SameBut.mono' (State.updHrc_same t _) rfl
  exact SameBut.ite (changed s _) (SameBut.ite (SameBut.trans (changed s _) (SameBut.trans (changed _ _) (State.hrcRecord_same _ _)))
    (SameBut.trans (changed s _) (changed _ _)))

theorem State.hrcObserve_same (s : State) (idx : Nat) (e : DirEntry) (v : Word) (q : Byte) (t : Nat) :
    SameBut histParts s (s.hrcObserve idx e v q t) := by
  unfold State.hrcObserve
  split
  · exact SameBut.refl _ _
  · split
    · exact State.observeChange_same s _ _ _ _
    · exact SameBut.mono' (State.updHrc_same s _) rfl
    · exact SameBut.refl _ _

theorem State.reduceEnd_same (s : State) (idx : Nat) (e : DirEntry) (next : Nat) : SameBut histParts s (s.reduceEnd idx e next) :=
  SameBut.trans (SameBut.mono' (State.updHrc_same s _) rfl) (State.hrcRecord_same _ _)

theorem State.reduceCut_same (s : State) (idx : Nat) (e : DirEntry) : SameBut histParts s (s.reduceCut idx e) :=
  SameBut.ite (SameBut.trans (SameBut.mono' (State.updHrc_same s _) rfl) (State.reduceEnd_same _ _ _ _)) (SameBut.refl _ _)

/-! ### Points (R58–R66) -/

/-- The parts that a new value of a point may change: the directory, the CAN objects that watch it and its history. -/
def pointParts : List Part := [.ptd, .can, .hrc, .mem, .evr, .hdr, .hts, .out]

theorem State.setPtd_same (s : State) (x : Ptd) : SameBut [.ptd] s { s with ptd := x } := fun y hy => by
  cases y <;> first | rfl | exact absurd hy (by decide)

theorem State.updCanObj_same (s : State) (k : Nat) (f : CanObj → CanObj) : SameBut [.can] s (s.updCanObj k f) := fun x hx => by
  cases x <;> first | rfl | exact absurd hx (by decide)

theorem State.storeEntry_same (s : State) (idx : Nat) (x : Entry) : SameBut [.ptd] s (s.storeEntry idx x) :=
  SameBut.ite (State.setPtd_same s _) (State.setPtd_same s _)

theorem State.putShadow_same (s : State) (idx : Nat) (x : Entry) : SameBut pointParts s (s.putShadow idx x) :=
  SameBut.mono' (State.setPtd_same s _) rfl

theorem State.canChange_same (s : State) (k : Nat) : SameBut [.can] s (s.canChange k) :=
  SameBut.ite (State.updCanObj_same s _ _) (SameBut.refl _ _)

theorem State.putEntry_same (s : State) (idx : Nat) (x : Entry) (t : Option Nat) : SameBut pointParts s (s.putEntry idx x t) := by
  have observed (e : DirEntry) (v : Word) (q : Byte) (t : Nat) : SameBut pointParts s ((s.storeEntry idx x).hrcObserve idx e v q t) :=
    SameBut.trans (SameBut.mono' (State.storeEntry_same s idx x) rfl) (SameBut.mono' (State.hrcObserve_same _ _ _ _ _ _) rfl)
  exact SameBut.ite (SameBut.trans (observed _ _ _ _) (SameBut.mono' (State.canChange_same _ _) rfl)) (observed _ _ _ _)

theorem State.pointWriteSat_same (s : State) (idx : Nat) (v : Word) (q : Byte) (t : Nat) (sat : Bool) :
    SameBut pointParts s (s.pointWriteSat idx v q t sat) := by
  have valid (x : Ptd) (c : Bool) : SameBut pointParts s (if c then { s with ptd := x } else s) :=
    SameBut.ite (SameBut.mono' (State.setPtd_same s x) rfl) (SameBut.refl _ _)
  unfold State.pointWriteSat
  split
  · exact SameBut.refl _ _
  · dsimp only
    split
    · exact SameBut.trans (valid _ _) (State.putShadow_same _ _ _)
    · exact SameBut.trans (valid _ _) (State.putEntry_same _ _ _ _)

theorem State.pointWrite_same (s : State) (idx : Nat) (v : Word) (q : Byte) (t : Nat) : SameBut pointParts s (s.pointWrite idx v q t) :=
  State.pointWriteSat_same s idx v q t false

theorem State.markPoint_same (s : State) (idx : Nat) (f : Byte → Byte) : SameBut pointParts s (s.markPoint idx f) := by
  unfold State.markPoint
  split
  · exact SameBut.refl _ _
  · dsimp only
    split
    · exact State.putShadow_same s _ _
    · exact State.putEntry_same s _ _ _

/-! ### What follows a point: axes (R220) and the field die's outputs (R287–R300) -/

theorem State.updDrive_same (s : State) (d : Nat) (f : Drive → Drive) : SameBut [.mot] s (s.updDrive d f) := State.updMot_same s _

/-- A drive's amplitude is a free value while the bus voltage is unknown. -/
theorem State.drive_same (s : State) (n : Nat) (p v : Rat) : SameBut [.free, .mot] s (s.drive_ n p v).1 := by
  unfold State.drive_
  dsimp only
  split
  · exact SameBut.mono' (State.updAxis_same s n _) rfl
  · exact SameBut.trans (SameBut.mono' (State.draw_same s) rfl) (SameBut.mono' (State.updAxis_same _ n _) rfl)

theorem State.followUpdate_same (s : State) (n t : Nat) : SameBut [.free, .mot] s (s.followUpdate n t) := by
  have axis (f : Axis → Axis) : SameBut [.free, .mot] s (s.updAxis n f) := SameBut.mono' (State.updAxis_same s n f) rfl
  have driven (t : State) (p v : Rat) (d : Nat) (f : Drive → Drive) : SameBut [.free, .mot] t ((t.drive_ n p v).1.updDrive d f) :=
    SameBut.trans (State.drive_same t n p v) (SameBut.mono' (State.updDrive_same _ d f) rfl)
  unfold State.followUpdate
  dsimp only
  split
  · exact axis _
  · split
    · exact SameBut.trans (axis _) (driven _ _ _ _ _)
    · exact axis _

theorem State.followPoint_same (s : State) (idx t : Nat) : SameBut [.free, .mot] s (s.followPoint idx t) :=
  SameBut.ite (SameBut.refl _ _) (SameBut.foldl (fun s n => State.followUpdate_same s n t) _ s)

theorem State.wordDown_same {arrive : State → State} (h : ∀ s, SameBut [.fio] s (arrive s)) (s : State) : SameBut [.fio] s (s.wordDown arrive) := by
  have sent (f : Fio → Fio) : SameBut [.fio] s (s.updFio f) := State.updFio_same s f
  exact SameBut.ite (sent _) (SameBut.trans (sent _) (h _))

theorem State.fioWord_same (s : State) (k : Nat) (on : Bool) : SameBut [.fio] s (s.fioWord k on) :=
  SameBut.ite (State.wordDown_same (fun s => SameBut.trans (State.updFio_same s _) (State.updFio_same _ _)) s) (SameBut.refl _ _)

theorem State.aoWord_same (s : State) (k t : Nat) : SameBut [.fio] s (s.aoWord k t) :=
  SameBut.ite (SameBut.refl _ _) (State.wordDown_same (fun s => State.updFio_same s _) s)

theorem State.fioPoint_same (s : State) (idx t : Nat) : SameBut [.fio] s (s.fioPoint idx t) :=
  SameBut.ite (SameBut.refl _ _) (SameBut.ite (State.fioWord_same s _ _) (SameBut.ite (State.aoWord_same s _ _) (SameBut.refl _ _)))

/-- The parts that a value driven by a block may change: the point, the axes that follow it and the output that it is. -/
def driveParts : List Part := [.free, .mot, .fio, .ptd, .can, .hrc, .mem, .evr, .hdr, .hts, .out]

theorem State.driveOut_same (s : State) (idx : Nat) (v : Int) : SameBut driveParts s (s.driveOut idx v) :=
  SameBut.trans (SameBut.mono' (State.pointWrite_same s _ _ _ _) rfl)
    (SameBut.trans (SameBut.mono' (State.followPoint_same _ _ _) rfl) (SameBut.mono' (State.fioPoint_same _ _ _) rfl))

end Sys2Proof.Machine
end

section
/-!
SUPPORT. The clock through a base-frame boundary: what the blocks do there moves neither network time nor the microseconds since power-up nor mtime.
-/

namespace Sys2Proof.Machine

/-- What a base frame counts: network time, the microseconds since power-up (log 96) and mtime (R419). -/
def State.clock (s : State) : Nat × Nat × Nat := (s.tim.net, s.upUs, s.cpu.mtime)

theorem SameBut.clock {l : List Part} {s t : State} (h : SameBut l s t) (hl : (l.contains .tim || l.contains .upUs || l.contains .cpu) = false) :
    t.clock = s.clock := by
  simp only [Bool.or_eq_false_iff] at hl
  obtain ⟨⟨htim, hup⟩, hcpu⟩ := hl
  have a : t.tim = s.tim := Part.of_same h htim
  have b : t.upUs = s.upUs := Part.of_same h hup
  have c : t.cpu = s.cpu := Part.of_same h hcpu
  simp only [State.clock, a, b, c]

theorem State.updLanePort_same (s : State) (p : Nat) (f : LPort → LPort) : SameBut [.lne] s (s.updPort_ p f) := fun x hx => by
  cases x <;> first | rfl | exact absurd hx (by decide)

/-! ### Control flow -/

@[simp] theorem State.clock_ite (c : Prop) [Decidable c] (s t : State) : (if c then s else t).clock = if c then s.clock else t.clock :=
  apply_ite State.clock c s t

@[simp] theorem State.clock_foldl {α : Type} {f : State → α → State} (h : ∀ s x, (f s x).clock = s.clock) :
    ∀ (xs : List α) (s : State), (xs.foldl f s).clock = s.clock
  | [], _ => rfl
  | x :: xs, s => (State.clock_foldl h xs (f s x)).trans (h s x)

/-! ### Updates of one part -/

section
variable (s : State)

@[simp] theorem State.clock_setPtd (x : Ptd) : ({ s with ptd := x } : State).clock = s.clock := (State.setPtd_same s x).clock rfl
@[simp] theorem State.clock_setCe (x : Ce) : ({ s with ce := x } : State).clock = s.clock := rfl
@[simp] theorem State.clock_setReg (r : RegId) (w : Word) : (s.setReg r w).clock = s.clock := (State.setReg_same s r w).clock rfl
@[simp] theorem State.clock_draw : s.draw.2.clock = s.clock := (State.draw_same s).clock rfl
@[simp] theorem State.clock_updHd (b : Block) (f : Hdr → Hdr) : (s.updHd b f).clock = s.clock := (State.updHd_same s b f).clock rfl
@[simp] theorem State.clock_runFollow (b : Block) : (s.runFollow b).clock = s.clock := (State.runFollow_same s b).clock rfl
@[simp] theorem State.clock_updHts (f : Hts → Hts) : (s.updHts f).clock = s.clock := (State.updHts_same s f).clock rfl
@[simp] theorem State.clock_updAve (f : Ave → Ave) : (s.updAve f).clock = s.clock := (State.updAve_same s f).clock rfl
@[simp] theorem State.clock_updAport (p : Nat) (f : APort → APort) : (s.updAport p f).clock = s.clock := State.clock_updAve s _
@[simp] theorem State.clock_updAcq (f : Acq → Acq) : (s.updAcq f).clock = s.clock := (State.updAcq_same s f).clock rfl
@[simp] theorem State.clock_updCsc (f : Csc → Csc) : (s.updCsc f).clock = s.clock := (State.updCsc_same s f).clock rfl
@[simp] theorem State.clock_updEnt (n : Nat) (f : Act → Act) : (s.updEnt n f).clock = s.clock := State.clock_updCsc s _
@[simp] theorem State.clock_updPort_ (p : Nat) (f : LPort → LPort) : (s.updPort_ p f).clock = s.clock := (State.updLanePort_same s p f).clock rfl
@[simp] theorem State.clock_updXng (f : Xng → Xng) : (s.updXng f).clock = s.clock := (State.updXng_same s f).clock rfl
@[simp] theorem State.clock_updLane (l : Nat) (f : Lane → Lane) : (s.updLane l f).clock = s.clock := State.clock_updXng s _
@[simp] theorem State.clock_updAxis (n : Nat) (f : Axis → Axis) : (s.updAxis n f).clock = s.clock := (State.updAxis_same s n f).clock rfl
@[simp] theorem State.clock_updRsq (f : Rsq → Rsq) : (s.updRsq f).clock = s.clock := (State.updRsq_same s f).clock rfl
@[simp] theorem State.clock_updStream (n : Nat) (f : Stream → Stream) : (s.updStream n f).clock = s.clock := State.clock_updRsq s _
@[simp] theorem State.clock_updCanObj (k : Nat) (f : CanObj → CanObj) : (s.updCanObj k f).clock = s.clock := (State.updCanObj_same s k f).clock rfl
@[simp] theorem State.clock_updPend (n : Nat) (f : LoopPend → LoopPend) : (s.updPend n f).clock = s.clock := rfl
@[simp] theorem State.clock_updCfgs (f : LaneCfg → LaneCfg) : (s.updCfgs f).clock = s.clock := rfl
@[simp] theorem State.clock_setRefs (b : Block) (desc : Nat) (rs : List (Nat × Bool)) : (s.setRefs b desc rs).clock = s.clock := rfl
@[simp] theorem State.clock_setFrameT (type inst t : Nat) : (s.setFrameT type inst t).clock = s.clock := rfl
@[simp] theorem State.clock_grantCount : s.grantCount.clock = s.clock := rfl

/-! ### Shared operations -/

@[simp] theorem State.clock_storeRam (a : Nat) (bs : List Byte) : (s.storeRam a bs).clock = s.clock := (State.storeRam_same s a bs).clock rfl
@[simp] theorem State.clock_routeEvt (b : Block) (k i : Nat) : (s.routeEvt b k i).clock = s.clock := (State.routeEvt_same s b k i).clock rfl
@[simp] theorem State.clock_raiseFlags (t : Nat) (m : Word) : (s.raiseFlags t m).clock = s.clock := (State.raiseFlags_same s t m).clock rfl
@[simp] theorem State.clock_irq (b : Block) (i : Nat) : (s.irq b i).clock = s.clock := (State.irq_same s b i).clock rfl
@[simp] theorem State.clock_err (b : Block) (e : Nat) : (s.err b e).clock = s.clock := (State.err_same s b e).clock rfl
@[simp] theorem State.clock_record (b : Block) (inst code : Nat) (ps : List Nat) : (s.record b inst code ps).clock = s.clock :=
  (State.record_same s b inst code ps).clock rfl
@[simp] theorem State.clock_raise (b : Block) (inst code : Nat) (sev : Severity) : (s.raise b inst code sev).clock = s.clock :=
  (State.raise_same s b inst code sev).clock rfl
@[simp] theorem State.clock_retPutList (i : Nat) (w : Block) (vs : List Word) : (s.retPutList i w vs).clock = s.clock :=
  (State.retPutList_same w vs s i).clock rfl
@[simp] theorem State.clock_storeEntry (idx : Nat) (x : Entry) : (s.storeEntry idx x).clock = s.clock := (State.storeEntry_same s idx x).clock rfl
@[simp] theorem State.clock_putEntry (idx : Nat) (x : Entry) (t : Option Nat) : (s.putEntry idx x t).clock = s.clock :=
  (State.putEntry_same s idx x t).clock rfl
@[simp] theorem State.clock_pointWrite (idx : Nat) (v : Word) (q : Byte) (t : Nat) : (s.pointWrite idx v q t).clock = s.clock :=
  (State.pointWrite_same s idx v q t).clock rfl
@[simp] theorem State.clock_markPoint (idx : Nat) (f : Byte → Byte) : (s.markPoint idx f).clock = s.clock := (State.markPoint_same s idx f).clock rfl
@[simp] theorem State.clock_followPoint (idx t : Nat) : (s.followPoint idx t).clock = s.clock := (State.followPoint_same s idx t).clock rfl
@[simp] theorem State.clock_fioWord (k : Nat) (on : Bool) : (s.fioWord k on).clock = s.clock := (State.fioWord_same s k on).clock rfl
@[simp] theorem State.clock_driveOut (idx : Nat) (v : Int) : (s.driveOut idx v).clock = s.clock := (State.driveOut_same s idx v).clock rfl

/-! ### Frames over Avenue, flows and subscriptions (R331–R342) -/

@[simp] theorem State.clock_aveSendPort (p : Nat) (f : AFrame) : (s.aveSendPort p f).clock = s.clock := by simp [State.aveSendPort]

@[simp] theorem State.clock_aveSend (f : AFrame) : (s.aveSend f).clock = s.clock := by
  unfold State.aveSend
  split <;> simp

@[simp] theorem State.clock_aveTo (d : Nat) (b : ABody) : (s.aveTo d b).clock = s.clock := State.clock_aveSend s _

@[simp] theorem State.clock_lfaSwitch : s.lfaSwitch.clock = s.clock := (State.updAve_same s _).clock rfl

@[simp] theorem State.clock_injFlow (f : AFlow) : (s.injFlow f).clock = s.clock := by simp [State.injFlow, State.injSet]

@[simp] theorem State.clock_admitFlow (src dst : Nat) (prot : Bool) : (s.admitFlow src dst prot).clock = s.clock := by
  unfold State.admitFlow
  dsimp only
  split <;> simp

@[simp] theorem State.clock_subAnswer (gid code : Nat) : (s.subAnswer gid code).clock = s.clock := by simp [State.subAnswer]

@[simp] theorem State.clock_answerSub (sub gid code : Nat) : (s.answerSub sub gid code).clock = s.clock := by simp [State.answerSub]

@[simp] theorem State.clock_publish (r : SubReq) : (s.publish r).clock = s.clock := by simp [State.publish]

@[simp] theorem State.clock_subscribeAt (r : SubReq) (long contended prot : Bool) : (s.subscribeAt r long contended prot).clock = s.clock := by
  simp [State.subscribeAt]

@[simp] theorem State.clock_aveSubscribe (idx : Nat) : (s.aveSubscribe idx).clock = s.clock := by simp [State.aveSubscribe]

end

end Sys2Proof.Machine
end

section
/-!
SUPPORT. Each block's part of a base-frame boundary leaves the clock where it is: the directory, CE, XNG, CSC, MOT, ACQ, CAN, LNE and the scheduler.
-/

namespace Sys2Proof.Machine

variable (s : State)

/-! ### The directory and the history recorder -/

@[simp] theorem State.clock_endForce (f : ForceEnt) : (s.endForce f).clock = s.clock := by simp [State.endForce, State.followNow]

@[simp] theorem State.clock_reduceCut (idx : Nat) (e : DirEntry) : (s.reduceCut idx e).clock = s.clock := (State.reduceCut_same s idx e).clock rfl

@[simp] theorem State.clock_hrcStart (idx : Nat) (v : Word) (q : Byte) : (s.hrcStart idx v q).clock = s.clock := (State.updHrc_same s _).clock rfl

@[simp] theorem State.clock_entEffect (idx : Nat) : (s.entEffect idx).clock = s.clock := by
  unfold State.entEffect
  extract_lets old new changed cut s0 s1 _ s2 s3 s4 sub
  have cutDone : s0.clock = s.clock := by simp [s0]
  have unforced : s1.clock = s0.clock := by
    simp only [s1]
    split
    · split <;> simp
    · rfl
  have fresh : s3.clock = s1.clock := by simp [s3, s2]
  have started : s4.clock = s3.clock := by simp [s4]
  have all : s4.clock = s.clock := started.trans (fresh.trans (unforced.trans cutDone))
  split
  · exact (State.clock_aveSubscribe s4 idx).trans all
  · split
    · exact all
    · exact all

@[simp] theorem State.clock_entEffects : s.entEffects.clock = s.clock := by simp [State.entEffects]

/-! ### CE (R81, R124–R128) -/

@[simp] theorem State.clock_tabSwitch (t : Nat) (c : CompTab) : (s.tabSwitch t c).clock = s.clock := by
  simp [State.tabSwitch, State.tabUnpend, State.setTabHdr]

@[simp] theorem State.clock_tabBoundary : s.tabBoundary.clock = s.clock :=
  State.clock_foldl (fun s p => by split <;> simp) _ _

@[simp] theorem State.clock_ceFrame : s.ceFrame.clock = s.clock := by simp [State.ceFrame, State.ceSettle]

/-! ### XNG (R143–R155) -/

@[simp] theorem State.clock_modeUpdate (rolling : Bool) : (s.modeUpdate rolling).clock = s.clock := by
  unfold State.modeUpdate
  dsimp only
  split
  · rfl
  · split <;> simp

@[simp] theorem State.clock_toBist (l cause : Nat) : (s.toBist l cause).clock = s.clock := rfl

@[simp] theorem State.clock_faultLane (l cause : Nat) (f : Lane → Lane) : (s.faultLane l cause f).clock = s.clock := by simp [State.faultLane]

@[simp] theorem State.clock_laneWarn (l code : Nat) : (s.laneWarn l code).clock = s.clock := by simp [State.laneWarn]

@[simp] theorem State.clock_disLog (item : Nat) (stream : Bool) (majority : Nat) : (s.disLog item stream majority).clock = s.clock := by
  unfold State.disLog
  split <;> simp

@[simp] theorem State.clock_loopEvt (n b : Nat) : (s.loopEvt n b).clock = s.clock := by simp [State.loopEvt]

@[simp] theorem State.clock_loopSafe (n : Nat) : (s.loopSafe n).clock = s.clock := by
  unfold State.loopSafe
  dsimp only
  cases Tab.get none s.xng.safe n with
  | none => simp
  | some r =>
    dsimp only
    cases r.out2Pt <;> simp

@[simp] theorem State.clock_ckptFlush (n : Nat) : (s.ckptFlush n).clock = s.clock := by simp [State.ckptFlush, State.ckpt, State.ckptPut]

@[simp] theorem State.clock_sHold (n cause : Nat) : (s.sHold n cause).clock = s.clock := by
  simp [State.sHold, State.sstate, State.rsqEvt, State.ckptMark]

@[simp] theorem State.clock_holdStreams : s.holdStreams.clock = s.clock := by simp [State.holdStreams]

@[simp] theorem State.clock_safeReact (cause item : Nat) (stream : Bool) (majority : Nat) : (s.safeReact cause item stream majority).clock = s.clock := by
  simp [State.safeReact]

@[simp] theorem State.clock_abortTest (l : Nat) : (s.abortTest l).clock = s.clock := by
  unfold State.abortTest
  dsimp only
  split <;> simp

@[simp] theorem State.clock_laneLeft : s.laneLeft.clock = s.clock :=
  State.clock_foldl (fun s l => by
    dsimp only
    split
    · simp
    · split
      · split <;> simp
      · rfl) _ s

@[simp] theorem State.clock_afterLeave : s.afterLeave.clock = s.clock := by simp [State.afterLeave]

@[simp] theorem State.clock_outvote (item : Nat) (stream : Bool) (l wordLo majority : Nat) : (s.outvote item stream l wordLo majority).clock = s.clock := by
  simp [State.outvote]

@[simp] theorem State.clock_disagree (cause item : Nat) (stream : Bool) (ls : List Nat) : (s.disagree cause item stream ls).clock = s.clock := by
  simp [State.disagree]

@[simp] theorem State.clock_sigCompare : s.sigCompare.clock = s.clock := by
  unfold State.sigCompare
  split <;> simp

@[simp] theorem State.clock_suspectsToBist : s.suspectsToBist.clock = s.clock := by simp [State.suspectsToBist]

@[simp] theorem State.clock_toVoting (l : Nat) (st : Tab LoopState) : (s.toVoting l st).clock = s.clock := rfl

@[simp] theorem State.clock_powerOnLanes : s.powerOnLanes.clock = s.clock := by simp [State.powerOnLanes]

@[simp] theorem State.clock_rejoinLanes : s.rejoinLanes.clock = s.clock := by simp [State.rejoinLanes]

@[simp] theorem State.clock_passedLanes : s.passedLanes.clock = s.clock :=
  State.clock_foldl (fun s l => by cases s.votingLanes <;> simp) _ s

@[simp] theorem State.clock_restartLanes : s.restartLanes.clock = s.clock := by simp [State.restartLanes]

@[simp] theorem State.clock_rollingStart : s.rollingStart.clock = s.clock := by simp [State.rollingStart]

@[simp] theorem State.clock_xngBoundary : s.xngBoundary.clock = s.clock := by simp [State.xngBoundary]

@[simp] theorem State.clock_xngStop : s.xngStop.clock = s.clock := by simp [State.xngStop]

@[simp] theorem State.clock_xngFrame : s.xngFrame.clock = s.clock := by simp [State.xngFrame]

/-! ### CSC (R190–R206) -/

@[simp] theorem State.clock_groupSettle (g : Nat) : (s.groupSettle g).clock = s.clock := by simp [State.groupSettle]

@[simp] theorem State.clock_groupEvt (g : Nat) : (s.groupEvt g).clock = s.clock := by simp [State.groupEvt]

@[simp] theorem State.clock_cscTrail (t : Nat) : (s.cscTrail t).clock = s.clock := by simp [State.cscTrail]

@[simp] theorem State.clock_actApply : s.actApply.clock = s.clock := by simp [State.actApply]

@[simp] theorem State.clock_armEnt (n : Nat) (rel : Bool) (base ta : Nat) : (s.armEnt n rel base ta).clock = s.clock := by
  simp [State.armEnt, State.missEnt]

@[simp] theorem State.clock_armEffective : s.armEffective.clock = s.clock := by simp [State.armEffective]

@[simp] theorem State.clock_outEdge (key n step : Nat) (on : Bool) (off : Option Nat) : (s.outEdge key n step on off).clock = s.clock := by
  simp [State.outEdge]

@[simp] theorem State.clock_rampCmd (n rate : Nat) : (s.rampCmd n rate).clock = s.clock := by simp [State.rampCmd]

/-! A coordinate action may trigger the sequencer of ACQ, which may end a session. -/

@[simp] theorem State.clock_closeBlock (c : Nat) : (s.closeBlock c).clock = s.clock := by simp [State.closeBlock]

@[simp] theorem State.clock_lastGap (c : Nat) : (s.lastGap c).clock = s.clock := by simp [State.lastGap]

@[simp] theorem State.clock_endSession (st : SessState) (cause : Nat) : (s.endSession st cause).clock = s.clock := by simp [State.endSession]

@[simp] theorem State.clock_acceptTrigger (slot typ t tick : Nat) : (s.acceptTrigger slot typ t tick).clock = s.clock := by simp [State.acceptTrigger]

@[simp] theorem State.clock_fabSend (line t tick : Nat) : (s.fabSend line t tick).clock = s.clock := by simp [State.fabSend]

@[simp] theorem State.clock_fireSlot (slot t tick : Nat) : (s.fireSlot slot t tick).clock = s.clock := by simp [State.fireSlot]

@[simp] theorem State.clock_seqEval (evs : List AcqEv) (tick n : Nat) : (s.seqEval evs tick n).clock = s.clock := by
  induction n generalizing s evs tick with
  | zero => rfl
  | succ n ih =>
    unfold State.seqEval
    split
    · rfl
    · split
      · rw [ih, State.clock_fireSlot]
      · simp [State.armSlots_]

@[simp] theorem State.clock_perform (n : Nat) (tx : Rat) (t : Nat) : (s.perform n tx t).clock = s.clock := by
  unfold State.perform
  dsimp only
  split <;> simp [State.acqLine, State.seqEvents]

@[simp] theorem State.clock_fireEnt (n : Nat) (tx : Rat) (t : Nat) : (s.fireEnt n tx t).clock = s.clock := by simp [State.fireEnt]

@[simp] theorem State.clock_fireLimited (n : Nat) (tx : Rat) (t : Nat) : (s.fireLimited n tx t).clock = s.clock := by simp [State.fireLimited]

@[simp] theorem State.clock_cancelEnt (n t : Nat) (newEp : RemoteTgt → Nat) : (s.cancelEnt n t newEp).1.clock = s.clock := by
  unfold State.cancelEnt
  dsimp only
  split
  · split
    · simp
    · split
      · split <;> simp
      · simp
  · split <;> simp
  · rfl

theorem State.clock_cancelEnts (t : Nat) (newEp : RemoteTgt → Nat) : ∀ (ents : List Nat) (acc : State × Nat × Nat),
    (ents.foldl (fun acc n => ((acc.1.cancelEnt n t newEp).1, acc.2.1 + (acc.1.cancelEnt n t newEp).2.1, acc.2.2 + (acc.1.cancelEnt n t newEp).2.2)) acc).1.clock =
      acc.1.clock
  | [], _ => rfl
  | n :: ents, acc => (State.clock_cancelEnts t newEp ents _).trans (State.clock_cancelEnt acc.1 n t newEp)

@[simp] theorem State.clock_cancelReq (g t : Nat) : (s.cancelReq g t).1.clock = s.clock := by
  unfold State.cancelReq
  split
  · rfl
  · dsimp only
    simp [State.clock_cancelEnts]

@[simp] theorem State.clock_cscRunStop : s.cscRunStop.clock = s.clock := by simp [State.cscRunStop]

@[simp] theorem State.clock_cscFrame : s.cscFrame.clock = s.clock := by simp [State.cscFrame]

/-! ### MOT, ACQ, CAN, LNE and the scheduler -/

@[simp] theorem State.clock_motSnapshot : s.motSnapshot.clock = s.clock := by simp [State.motSnapshot]

@[simp] theorem State.clock_stallSample : s.stallSample.clock = s.clock := by simp [State.stallSample]

@[simp] theorem State.clock_armFlows : s.armFlows.clock = s.clock := by simp [State.armFlows]

@[simp] theorem State.clock_acqArmEffective : s.acqArmEffective.clock = s.clock := by simp [State.acqArmEffective]

@[simp] theorem State.clock_acqRunStop : s.acqRunStop.clock = s.clock := by
  unfold State.acqRunStop
  split
  · rfl
  · split <;> simp [State.logMark]

@[simp] theorem State.clock_canDue : s.canDue.clock = s.clock := by simp [State.canDue]

@[simp] theorem State.clock_lneFrame : s.lneFrame.clock = s.clock := by simp [State.lneFrame]

@[simp] theorem State.clock_endStalls : s.endStalls.clock = s.clock := by simp [State.endStalls]

end Sys2Proof.Machine
end

section
/-!
PROOF. A base-frame boundary advances time (O17). A frame that a delay holds could carry time only if it were received late (R357): where no port holds one at the
boundary, the only frames held are sent ones, and time moves by the frame alone.
-/

namespace Sys2Proof.Machine

/-! ### The frames that injected delays hold (R342) -/

/-- Every frame that a port's delay holds is one that this device sends. -/
def APort.holdsSent (x : APort) : Prop := ∀ d ∈ x.inj.delayed, d.2.1 = false

/-- So it is at each of the six ports. -/
def State.holdsSent (s : State) : Prop := ∀ p < 6, (s.aport p).holdsSent

theorem State.holdsSent.of_ports {s t : State} (i : s.holdsSent) (h : t.ave.ports = s.ave.ports) : t.holdsSent := fun p hp => by
  have : t.aport p = s.aport p := by simp [State.aport, h]
  exact this ▸ i p hp

theorem State.holdsSent.updAport {s : State} (i : s.holdsSent) (p : Nat) {f : APort → APort}
    (hf : (s.aport p).holdsSent → (f (s.aport p)).holdsSent) : (s.updAport p f).holdsSent := fun q hq => by
  have get : (s.updAport p f).aport q = if q = p then f (s.aport p) else s.aport q := Tab.get_upd _ _ _ _ _
  rw [get]
  split
  · next e => subst e; exact hf (i q hq)
  · exact i q hq

theorem State.holdsSent.ite {s t : State} {c : Prop} [Decidable c] (h : s.holdsSent) (g : t.holdsSent) : (if c then s else t).holdsSent := by
  split <;> assumption

/-- A rule's delay takes the frame as it comes, sent or received. -/
theorem APort.inject_holdsSent {x : APort} (h : x.holdsSent) (f : AFrame) (dly : Nat) : (x.inject f false dly).2.holdsSent := by
  unfold APort.inject
  extract_lets j rule m hit j1 back j2
  split
  · exact h
  · have kept : j2.delayed = x.inj.delayed := by
      simp only [j2]
      split <;> rfl
    have same (y : APort) (e : y.inj.delayed = j2.delayed) : y.holdsSent := fun d hd => h d (by rwa [e, kept] at hd)
    split
    · exact same _ rfl
    · split
      · exact same _ rfl
      · exact same _ rfl
      · split <;> exact same _ rfl
      · intro d hd
        rcases List.mem_append.mp hd with hd | hd
        · exact h d (kept ▸ hd)
        · rw [List.mem_singleton.mp hd]

theorem State.aveSendPort_holdsSent {s : State} (i : s.holdsSent) (p : Nat) (f : AFrame) : (s.aveSendPort p f).holdsSent :=
  .ite i (i.updAport p fun h => APort.inject_holdsSent h f _)

theorem State.aveTo_holdsSent {s : State} (i : s.holdsSent) (d : Nat) (b : ABody) : (s.aveTo d b).holdsSent := by
  unfold State.aveTo State.aveSend
  split
  · exact State.aveSendPort_holdsSent i _ _
  · exact i

/-! ### AVE's part of the boundary -/

/-- A table that is mapped holds only images. -/
theorem Tab.get_mapAll_of {α : Type} [DecidableEq α] {P : α → Prop} {d : α} {f : α → α} (hd : P d) (hf : ∀ v, P (f v)) (t : Tab α) (k : Nat) :
    P (Tab.get d (Tab.mapAll d f t) k) := by
  rcases Tab.get_eq_or_mem d (Tab.mapAll d f t) k with e | m
  · rwa [e]
  · obtain ⟨v, _, e⟩ := Tab.mem_mapAll m
    exact (show Tab.get d (Tab.mapAll d f t) k = f v from e) ▸ hf v

theorem State.markPoints_same (f : Byte → Byte) (is : List Nat) (s : State) : SameBut pointParts s (is.foldl (fun s i => s.markPoint i f) s) :=
  SameBut.foldl (fun s i => State.markPoint_same s i f) is s

/-- RUN = 0 turns every port OFF and drops what its delay held. -/
theorem State.aveAllOff_holdsSent (s : State) : s.aveAllOff.holdsSent := by
  refine State.holdsSent.of_ports (fun p _ => ?_) (congrArg Ave.ports (State.markPoints_same _ _ _ .ave (by decide)))
  exact Tab.get_mapAll_of (P := APort.holdsSent) (fun d hd => by cases hd) (fun x d hd => by cases hd) _ p

@[simp] theorem State.clock_aveAllOff (s : State) : s.aveAllOff.clock = s.clock := by simp [State.aveAllOff]

theorem State.lfaSwitch_ports (s : State) : s.lfaSwitch.ave.ports = s.ave.ports := by
  simp only [State.lfaSwitch, State.updAve]

theorem State.lostPeers_same (s : State) : SameBut pointParts s s.lostPeers := State.markPoints_same _ _ s

@[simp] theorem State.clock_lostPeers (s : State) : s.lostPeers.clock = s.clock := (State.lostPeers_same s).clock rfl

/-- A new routing table reaches points, records and the fabric time's parent, not the ports. -/
theorem State.rtInstall_still (s : State) : s.rtInstall.clock = s.clock ∧ s.rtInstall.ave.ports = s.ave.ports := by
  unfold State.rtInstall
  split
  · exact ⟨rfl, rfl⟩
  · extract_lets s1 bad s2
    have table : s1.clock = s.clock ∧ s1.ave.ports = s.ave.ports := by
      refine ⟨by simp [s1], ?_⟩
      exact (congrArg Ave.ports (State.lostPeers_same _ .ave (by decide))).trans (State.lfaSwitch_ports _)
    have recorded (ps : List Nat) : (s1.record .ave 0 0x1212 ps).ave.ports = s1.ave.ports :=
      congrArg Ave.ports (State.record_same s1 _ _ _ _ .ave (by decide))
    have reroute : s2.clock = s1.clock ∧ s2.ave.ports = s1.ave.ports := by
      simp only [s2]
      split
      · refine ⟨by simp, ?_⟩
        rw [State.irq_same _ _ _ .ave (by decide)]
        exact recorded _
      · exact ⟨rfl, rfl⟩
    have parent (ps : List Nat) (x : Parent) : ((s2.record .tim 0 0x0613 ps).updTim fun t => { t with parent := x }).clock = s2.clock ∧
        ((s2.record .tim 0 0x0613 ps).updTim fun t => { t with parent := x }).ave.ports = s2.ave.ports :=
      ⟨State.clock_record s2 _ _ _ _, congrArg Ave.ports (State.record_same s2 _ _ _ _ .ave (by decide))⟩
    rw [← table.1, ← table.2, ← reroute.1, ← reroute.2]
    split
    · dsimp only
      split
      · exact parent _ _
      · exact ⟨rfl, rfl⟩
    · exact ⟨rfl, rfl⟩

/-- Steps that leave the clock and hold no received frame do so together. -/
theorem State.holdsSent.steps {α : Type} {f : State → α → State} : ∀ (xs : List α),
    (∀ x ∈ xs, ∀ t : State, t.holdsSent → (f t x).clock = t.clock ∧ (f t x).holdsSent) →
    ∀ s : State, s.holdsSent → (xs.foldl f s).clock = s.clock ∧ (xs.foldl f s).holdsSent
  | [], _, _, i => ⟨rfl, i⟩
  | x :: xs, h, s, i => by
    obtain ⟨clock, sent⟩ := h x List.mem_cons_self s i
    obtain ⟨clocks, rest⟩ := State.holdsSent.steps xs (fun y hy => h y (List.mem_cons_of_mem _ hy)) (f s x) sent
    exact ⟨clocks.trans clock, rest⟩

/-- Rules, tables and the grant request leave the clock and hold no received frame. -/
theorem State.aveBoundary_holdsSent {s : State} (i : s.holdsSent) : s.aveBoundary.clock = s.clock ∧ s.aveBoundary.holdsSent := by
  unfold State.aveBoundary
  extract_lets s1 s2
  have rules : s1.clock = s.clock ∧ s1.holdsSent :=
    State.holdsSent.steps _ (fun p _ t it => ⟨by simp, .ite it (it.updAport p id)⟩) s i
  clear_value s1
  have still := s1.rtInstall_still
  have installed : s2.clock = s.clock ∧ s2.holdsSent := ⟨still.1.trans rules.1, rules.2.of_ports still.2⟩
  clear_value s2
  have joined (f : Ave → Ave) (hf : (f s2.ave).ports = s2.ave.ports) (b : ABody) :
      ((s2.updAve f).aveTo 0 b).clock = s.clock ∧ ((s2.updAve f).aveTo 0 b).holdsSent :=
    ⟨by simp [installed.1], State.aveTo_holdsSent (installed.2.of_ports hf) 0 b⟩
  split
  · exact joined _ rfl _
  · exact installed

/-- A port whose delay holds sent frames sends those that are due (R342). -/
theorem State.aveDelayed_holdsSent {s : State} (i : s.holdsSent) {p : Nat} (hp : p < 6) :
    (s.aveDelayed p).clock = s.clock ∧ (s.aveDelayed p).holdsSent := by
  unfold State.aveDelayed
  extract_lets l due s1
  have held : ∀ d ∈ l, d.2.1 = false := i p hp
  have waiting : s1.holdsSent := i.updAport p fun _ d hd => by
    obtain ⟨x, hx, rfl⟩ := List.mem_map.mp hd
    exact held x (List.mem_filter.mp hx).1
  refine State.holdsSent.steps due (fun d hd t it => ?_) s1 waiting
  rw [if_neg (by simp [held d (List.mem_filter.mp hd).1])]
  exact ⟨State.clock_updAport t p _, it.updAport p id⟩

/-- AVE at the boundary (R335, R342, R343). -/
theorem State.clock_aveFrame {s : State} (i : s.holdsSent) : s.aveFrame.clock = s.clock := by
  unfold State.aveFrame
  extract_lets h s1
  have run : s1.clock = s.clock ∧ s1.holdsSent := by
    simp only [s1]
    split
    · exact ⟨by simp, i.of_ports rfl⟩
    · split
      · exact ⟨by simp [State.aveRun], (State.aveAllOff_holdsSent s).of_ports rfl⟩
      · exact ⟨rfl, i⟩
  obtain ⟨clock, sent⟩ := State.aveBoundary_holdsSent run.2
  have ports := State.holdsSent.steps (List.range 6) (f := fun s p => if (s.aport p).st = .off then s else s.aveDelayed p)
    (fun p hp t it => by
      split
      · exact ⟨rfl, it⟩
      · exact State.aveDelayed_holdsSent it (List.mem_range.mp hp)) _ sent
  exact ports.1.trans (clock.trans run.1)

/-! ### The boundary (R11) -/

theorem State.clock_ifOn {b : Block} {f : State → State} (s : State) (h : (f s).clock = s.clock) : (s.ifOn b f).clock = s.clock := by
  unfold State.ifOn
  split
  · exact h
  · rfl

theorem State.clock_frameTime (s : State) : s.frameTime.clock = (s.tim.net - s.tim.net % 1000 + 1000, s.upUs + 1, (s.cpu.mtime + 100) % 2 ^ 64) := rfl

/-- The boundary moves the clock by one base frame: network time to the next multiple of 1000 ns, the microseconds since power-up by one and mtime by 100. -/
theorem baseFrame_clock {s : State} (on : s.present .tim = true) (idle : s.tim.setPend = none)
    (held : ∀ p, p < 6 → (s.aport p).inj.delayed = []) : ∃ t, exec .baseFrameBoundary s = .next t ∧
      t.clock = (s.tim.net - s.tim.net % 1000 + 1000, s.upUs + 1, (s.cpu.mtime + 100) % 2 ^ 64) := by
  have unset : s.frameTime.timSetApply = s.frameTime := by
    unfold State.timSetApply
    rw [show s.frameTime.tim.setPend = none from idle]
  have sent : s.frameTime.holdsSent := fun p hp d hd => by
    rw [show (s.frameTime.aport p).inj.delayed = [] from held p hp] at hd
    cases hd
  refine ⟨_, congrArg Host.Outcome.next (if_neg (by simp [on])), ?_⟩
  rw [unset, ← State.clock_frameTime, State.clock_endStalls]
  rw [State.clock_foldl fun (t : State) b => State.clock_ifOn (f := fun t => t.runFollow b) t (State.clock_runFollow t b)]
  -- the parts of LNE, CAN, ACQ, MOT, CSC, XNG, CE and PTD; AVE's part, the innermost, needs that no received frame is held
  iterate 8 rw [State.clock_ifOn _ (by simp)]
  exact State.clock_ifOn _ (State.clock_aveFrame sent)

/-- Settles O17: the frame itself moves the clock, and no block's part of the boundary moves it again; with PD_RT off no boundary falls. -/
theorem baseFrameAdvancesTime : Obligations.BaseFrameAdvancesTime := by
  unfold Obligations.BaseFrameAdvancesTime
  refine fun s => ⟨fun on idle held => ?_, fun off => congrArg Host.Outcome.next (if_pos (by simp [off]))⟩
  obtain ⟨t, run, clock⟩ := baseFrame_clock on idle held
  simp only [State.clock, Prod.mk.injEq] at clock
  obtain ⟨net, us, _⟩ := clock
  exact ⟨t, run, net, us⟩

end Sys2Proof.Machine
end

section
/-!
SUPPORT. What a write of a point changes in the directory's state, and what reads of the point return then (R65–R71).
-/

namespace Sys2Proof.Machine

/-! ### The quality that PTD composes (R67) -/

/-- Bits set under a condition. -/
theorem getLsbD_ite_or (c : Bool) (q m : Byte) (i : Nat) : (if c then q ||| m else q).getLsbD i = (q.getLsbD i || c && m.getLsbD i) := by
  cases c <;> simp

/-- Bits kept under a condition. -/
theorem getLsbD_ite_and (c : Bool) (q m : Byte) (i : Nat) : (if c then q &&& m else q).getLsbD i = (q.getLsbD i && (!c || m.getLsbD i)) := by
  cases c <;> simp

/-- The quality before substitution (R67, steps 1 and 2): the source's own bits, VALID cleared beside COMM_LOST or SUPPLY, and RANGE. -/
def measuredQuality (e : DirEntry) (v : Word) (q : Byte) (sat : Bool) : Byte :=
  let q1 := if (sourceBits q).getLsbD 2 || (sourceBits q).getLsbD 6 then sourceBits q &&& 0xFE else sourceBits q
  if outOfRange e v.toInt || sat then q1 ||| qRange else q1

theorem compose_quality (e : DirEntry) (last : Option Word) (v : Word) (q : Byte) (sat : Bool) : (compose e last v q sat).2 =
    if e.substEn && !isValid (measuredQuality e v q sat) then measuredQuality e v q sat ||| qSubst else measuredQuality e v q sat :=
  apply_ite Prod.snd _ _ _

theorem compose_value (e : DirEntry) (last : Option Word) (v : Word) (q : Byte) (sat : Bool) : (compose e last v q sat).1 =
    if e.substEn && !isValid (measuredQuality e v q sat) then substitute e last else v :=
  apply_ite Prod.fst _ _ _

theorem getLsbD_sourceBits (q : Byte) (i : Nat) : (sourceBits q).getLsbD i = (q.getLsbD i && (0x47 : Byte).getLsbD i) :=
  BitVec.getLsbD_and

theorem getLsbD_measuredQuality (e : DirEntry) (v : Word) (q : Byte) (sat : Bool) (i : Nat) : (measuredQuality e v q sat).getLsbD i =
    (q.getLsbD i && (0x47 : Byte).getLsbD i && (!(q.getLsbD 2 || q.getLsbD 6) || (0xFE : Byte).getLsbD i) ||
      (outOfRange e v.toInt || sat) && qRange.getLsbD i) := by
  have two : (sourceBits q).getLsbD 2 = q.getLsbD 2 := (getLsbD_sourceBits q 2).trans (Bool.and_true _)
  have six : (sourceBits q).getLsbD 6 = q.getLsbD 6 := (getLsbD_sourceBits q 6).trans (Bool.and_true _)
  simp only [measuredQuality, getLsbD_ite_or, getLsbD_ite_and, two, six]
  rw [getLsbD_sourceBits]

theorem getLsbD_compose (e : DirEntry) (last : Option Word) (v : Word) (q : Byte) (sat : Bool) (i : Nat) : (compose e last v q sat).2.getLsbD i =
    ((measuredQuality e v q sat).getLsbD i || (e.substEn && !isValid (measuredQuality e v q sat)) && qSubst.getLsbD i) := by
  rw [compose_quality, getLsbD_ite_or]

/-- Substitution leaves VALID as it is. -/
theorem isValid_compose (e : DirEntry) (last : Option Word) (v : Word) (q : Byte) (sat : Bool) :
    (compose e last v q sat).2.getLsbD 0 = isValid (measuredQuality e v q sat) := by
  rw [getLsbD_compose, show qSubst.getLsbD 0 = false from rfl]
  simp [isValid]

/-! ### Updates that leave the directory's state alone -/

@[simp] theorem State.ptd_irq (s : State) (b : Block) (i : Nat) : (s.irq b i).ptd = s.ptd := State.irq_same s b i .ptd (by decide)

@[simp] theorem State.ptd_err (s : State) (b : Block) (e : Nat) : (s.err b e).ptd = s.ptd := State.err_same s b e .ptd (by decide)

@[simp] theorem State.ptd_record (s : State) (b : Block) (inst code : Nat) (ps : List Nat) : (s.record b inst code ps).ptd = s.ptd :=
  State.record_same s b inst code ps .ptd (by decide)

@[simp] theorem State.ptd_storeFault (s : State) (p : Principal) (b : Block) (e addr : Nat) : (s.storeFault p b e addr).ptd = s.ptd :=
  State.storeFault_same s p b e addr .ptd (by decide)

@[simp] theorem State.ptd_hrcObserve (s : State) (idx : Nat) (e : DirEntry) (v : Word) (q : Byte) (t : Nat) :
    (s.hrcObserve idx e v q t).ptd = s.ptd := State.hrcObserve_same s idx e v q t .ptd (by decide)

@[simp] theorem State.ptd_canChange (s : State) (k : Nat) : (s.canChange k).ptd = s.ptd := State.canChange_same s k .ptd (by decide)

@[simp] theorem State.ptd_followNow (s : State) (idx : Nat) : (s.followNow idx).ptd = s.ptd := State.followPoint_same s idx _ .ptd (by decide)

theorem State.hd_followNow (s : State) (idx : Nat) (b : Block) : (s.followNow idx).hd b = s.hd b :=
  State.hd_congr (State.followPoint_same s idx _ .hdr (by decide)) b

theorem State.hd_storeFault (s : State) (p : Principal) (a : Block) (e addr : Nat) (b : Block) : (s.storeFault p a e addr).hd b = s.hd b :=
  State.hd_congr (State.storeFault_same s p a e addr .hdr (by decide)) b

/-- History, the CAN objects and the axes follow a write; the directory's state keeps the stored entry alone. -/
@[simp] theorem State.ptd_putEntry (s : State) (idx : Nat) (x : Entry) (t : Option Nat) : (s.putEntry idx x t).ptd = (s.storeEntry idx x).ptd := by
  unfold State.putEntry
  dsimp only
  split <;> simp

@[simp] theorem State.ptd_forceDone (s : State) (code gid : Nat) (p : Principal) (v result : Nat) :
    (s.forceDone code gid p v result).ptd = { s.ptd with forceResult := result } := by
  unfold State.forceDone
  dsimp only
  split <;> simp

/-! ### A hot entry that is stored -/

theorem State.point_congr {s t : State} (h : t.ptd.act = s.ptd.act) (idx : Nat) : t.point idx = s.point idx := by simp [State.point, h]

theorem State.forceOf_congr {s t : State} (h : t.ptd.force = s.ptd.force) (idx : Nat) : t.forceOf idx = s.forceOf idx := by
  simp [State.forceOf, h]

/-- The directory's state once a hot entry is written, which ends its uncorrectable error (R68). -/
def Ptd.putHot (d : Ptd) (h : Nat) (x : Entry) : Ptd :=
  { d with hot := Tab.put {} d.hot h x, ue := d.ue.filter fun i => decide (i ≠ h) }

@[simp] theorem Ptd.act_putHot (d : Ptd) (h : Nat) (x : Entry) : (d.putHot h x).act = d.act := rfl
@[simp] theorem Ptd.force_putHot (d : Ptd) (h : Nat) (x : Entry) : (d.putHot h x).force = d.force := rfl

@[simp] theorem State.force_storeEntry (s : State) (idx : Nat) (x : Entry) : (s.storeEntry idx x).ptd.force = s.ptd.force := by
  unfold State.storeEntry
  dsimp only
  split <;> rfl

theorem State.ptd_storeEntry_of_hot {s : State} {idx : Nat} (hot : (s.point idx).hot = true) (x : Entry) :
    (s.storeEntry idx x).ptd = s.ptd.putHot (s.point idx).hotIndex x := by simp [State.storeEntry, hot, Ptd.putHot]

theorem State.readPoint_of_hot {s : State} {idx : Nat} (live : (s.point idx).kind ≠ .none) (hot : (s.point idx).hot = true) :
    s.readPoint idx = if s.ptd.ue.contains (s.point idx).hotIndex then {} else Tab.get {} s.ptd.hot (s.point idx).hotIndex := by
  simp [State.readPoint, State.entry, live, hot]

/-- A read after a hot entry was written gives what was written. -/
theorem State.readPoint_of_putHot {s t : State} {idx : Nat} {d : Ptd} {x : Entry} (live : (s.point idx).kind ≠ .none)
    (hot : (s.point idx).hot = true) (h : t.ptd = d.putHot (s.point idx).hotIndex x) (act : d.act = s.ptd.act) : t.readPoint idx = x := by
  have same : t.point idx = s.point idx := State.point_congr (by rw [h, Ptd.act_putHot, act]) idx
  rw [State.readPoint_of_hot (same ▸ live) (same ▸ hot), h, same]
  simp [Ptd.putHot]

/-- Reads of a hot point depend on its entry, the hot image and the entries in uncorrectable error. -/
theorem State.readPoint_congr_of_hot {s t : State} {idx : Nat} (live : (s.point idx).kind ≠ .none) (hot : (s.point idx).hot = true)
    (hact : t.ptd.act = s.ptd.act) (hhot : t.ptd.hot = s.ptd.hot) (hue : t.ptd.ue = s.ptd.ue) : t.readPoint idx = s.readPoint idx := by
  have same := State.point_congr hact idx
  rw [State.readPoint_of_hot live hot, State.readPoint_of_hot (same ▸ live) (same ▸ hot), same, hhot, hue]

/-! ### The force table (R69, R70) -/

theorem State.idx_of_forceOf {s : State} {idx : Nat} {f : ForceEnt} (h : s.forceOf idx = some f) : f.idx = idx := by
  simpa using List.find?_some h

/-- A change of a point's row that keeps its index is what is found for the point. -/
theorem find?_map_force (g : ForceEnt → ForceEnt) (hg : ∀ f, (g f).idx = f.idx) (idx : Nat) (l : List ForceEnt) :
    (l.map fun f => if f.idx = idx then g f else f).find? (fun f => decide (f.idx = idx)) = (l.find? fun f => decide (f.idx = idx)).map g := by
  induction l with
  | nil => rfl
  | cons f l ih =>
    by_cases h : f.idx = idx
    · simp [h, hg]
    · simpa [h] using ih

theorem State.forceOf_putShadow {s : State} {idx : Nat} {f : ForceEnt} (h : s.forceOf idx = some f) (x : Entry) :
    (s.putShadow idx x).forceOf idx = some { f with shadow := x } :=
  (find?_map_force (fun f => { f with shadow := x }) (fun _ => rfl) idx s.ptd.force).trans (congrArg _ h)

/-- FORCE and SIM_ON change the force table alone. -/
theorem State.ptd_addForce (s : State) (idx : Nat) (sim : Bool) : ∃ l, (s.addForce idx sim).ptd = { s.ptd with force := l } := by
  unfold State.addForce
  split <;> exact ⟨_, rfl⟩

/-- A point put into the force table is found there. -/
theorem State.forceOf_addForce (s : State) (idx : Nat) (sim : Bool) : ((s.addForce idx sim).forceOf idx).isSome = true := by
  unfold State.addForce
  split
  case h_1 f h =>
    have found : State.forceOf { s with ptd := { s.ptd with force := s.ptd.force.map fun f => if f.idx = idx then { f with sim := sim } else f } } idx =
        some { f with sim := sim } :=
      (find?_map_force (fun f => { f with sim := sim }) (fun _ => rfl) idx s.ptd.force).trans (congrArg _ h)
    rw [found]
    rfl
  case h_2 => simp [State.forceOf]

@[simp] theorem State.force_endForce (s : State) (f : ForceEnt) : (s.endForce f).ptd.force = s.ptd.force.filter fun g => decide (g.idx ≠ f.idx) := by
  simp [State.endForce]

/-- The end of a point's force leaves the point's row and no other. -/
theorem State.ptd_endForce_of_hot {s : State} {f : ForceEnt} (hot : (s.point f.idx).hot = true) :
    (s.endForce f).ptd = Ptd.putHot { s.ptd with force := s.ptd.force.filter fun g => decide (g.idx ≠ f.idx) } (s.point f.idx).hotIndex f.shadow := by
  have stored (l : List ForceEnt) : (State.storeEntry { s with ptd := { s.ptd with force := l } } f.idx f.shadow).ptd =
      Ptd.putHot { s.ptd with force := l } (s.point f.idx).hotIndex f.shadow :=
    State.ptd_storeEntry_of_hot (s := { s with ptd := { s.ptd with force := l } }) hot f.shadow
  rw [State.endForce, State.ptd_followNow, State.ptd_putEntry, stored]

/-- Rows that end one after another leave those of other points. -/
theorem State.force_foldl_endForce : ∀ (l : List ForceEnt) (s : State),
    (l.foldl (fun s f => s.endForce f) s).ptd.force = s.ptd.force.filter fun g => l.all fun f => decide (g.idx ≠ f.idx)
  | [], _ => (List.filter_eq_self.mpr fun _ _ => rfl).symm
  | f :: l, s => by
    rw [List.foldl_cons, State.force_foldl_endForce l, State.force_endForce, List.filter_filter]
    simp only [List.all_cons, Bool.and_comm]

/-- Once every row has ended the table is empty. -/
theorem State.force_endForces (s : State) : (s.ptd.force.foldl (fun s f => s.endForce f) s).ptd.force = [] := by
  rw [State.force_foldl_endForce, List.filter_eq_nil_iff]
  exact fun g hg all => by simpa using List.all_eq_true.mp all g hg

/-- FORCE and SIM_ON of a hot point: reads return the entry put in place, and the point is in the force table. -/
theorem State.forced_forceDone {s : State} {idx : Nat} (live : (s.point idx).kind ≠ .none) (hot : (s.point idx).hot = true) (sim : Bool)
    (x : Entry) (code gid : Nat) (p : Principal) (v : Nat) {t : State}
    (ht : t = (((s.addForce idx sim).putEntry idx x).followNow idx).forceDone code gid p v 0) :
    t.ptd.forceResult = 0 ∧ t.readPoint idx = x ∧ (t.forceOf idx).isSome = true := by
  obtain ⟨l, added⟩ := s.ptd_addForce idx sim
  have same : (s.addForce idx sim).point idx = s.point idx := State.point_congr (by rw [added]) idx
  have stored : t.ptd = Ptd.putHot { s.ptd with force := l, forceResult := 0 } (s.point idx).hotIndex x := by
    rw [ht, State.ptd_forceDone, State.ptd_followNow, State.ptd_putEntry, State.ptd_storeEntry_of_hot (same ▸ hot), added, same]
    rfl
  have table : t.ptd.force = (s.addForce idx sim).ptd.force := by rw [stored, added]; rfl
  exact ⟨by rw [stored]; rfl, State.readPoint_of_putHot live hot stored rfl, by rw [State.forceOf_congr table]; exact State.forceOf_addForce s idx sim⟩

/-- RELEASE and SIM_OFF of a hot point: reads return the shadow, and the point has left the force table. -/
theorem State.endForce_forceDone {s : State} {idx : Nat} {f : ForceEnt} (live : (s.point idx).kind ≠ .none) (hot : (s.point idx).hot = true)
    (forced : s.forceOf idx = some f) (code gid : Nat) (p : Principal) (v : Nat) {t : State} (ht : t = (s.endForce f).forceDone code gid p v 0) :
    t.ptd.forceResult = 0 ∧ t.readPoint idx = f.shadow ∧ t.forceOf idx = none := by
  obtain rfl := State.idx_of_forceOf forced
  have stored : t.ptd = Ptd.putHot { s.ptd with force := s.ptd.force.filter fun g => decide (g.idx ≠ f.idx), forceResult := 0 }
      (s.point f.idx).hotIndex f.shadow := by
    rw [ht, State.ptd_forceDone, State.ptd_endForce_of_hot hot]
    rfl
  exact ⟨by rw [stored]; rfl, State.readPoint_of_putHot live hot stored rfl, by simp [State.forceOf, stored]⟩

/-! ### A producer's write (R67) -/

/-- What PTD stores for a write of `v` with quality `q` at time `t`. -/
def State.composed (s : State) (idx : Nat) (v : Word) (q : Byte) (t : Nat) (sat : Bool) : Entry :=
  let r := compose (s.point idx) (Tab.get none s.ptd.lastValid idx) (encodeKind (s.point idx).kind v) q sat
  { value := r.1, q := r.2, timeLo := timeLo t }

/-- The last VALID value of a point, noted at a write of it. -/
def State.noteValid (s : State) (idx : Nat) (x : Entry) : State :=
  if isValid x.q then { s with ptd := { s.ptd with lastValid := Tab.put none s.ptd.lastValid idx (some x.value) } } else s

theorem State.ptd_noteValid (s : State) (idx : Nat) (x : Entry) : ∃ l, (s.noteValid idx x).ptd = { s.ptd with lastValid := l } := by
  unfold State.noteValid
  split <;> exact ⟨_, rfl⟩

@[simp] theorem State.forceOf_noteValid (s : State) (idx : Nat) (x : Entry) (j : Nat) : (s.noteValid idx x).forceOf j = s.forceOf j := by
  obtain ⟨l, h⟩ := s.ptd_noteValid idx x
  exact State.forceOf_congr (by rw [h]) j

@[simp] theorem State.point_noteValid (s : State) (idx : Nat) (x : Entry) (j : Nat) : (s.noteValid idx x).point j = s.point j := by
  obtain ⟨l, h⟩ := s.ptd_noteValid idx x
  exact State.point_congr (by rw [h]) j

section
variable {s : State} {idx : Nat} (ok : s.canWrite idx = true) (v : Word) (q : Byte) (t : Nat) (sat : Bool)
include ok

/-- An accepted write of a point that is not in the force table goes to its image. -/
theorem State.pointWriteSat_of_unforced (h : s.forceOf idx = none) : s.pointWriteSat idx v q t sat =
    (s.noteValid idx (s.composed idx v q t sat)).putEntry idx (s.composed idx v q t sat) (some t) := by
  have unforced : (s.noteValid idx (s.composed idx v q t sat)).forceOf idx = none := by simpa using h
  unfold State.pointWriteSat
  rw [if_neg (by simp [ok])]
  dsimp only
  split
  case h_1 found => exact nomatch found.symm.trans unforced
  case h_2 => rfl

/-- An accepted write of a point in the force table goes to its shadow (R69, R70). -/
theorem State.pointWriteSat_of_forced {f : ForceEnt} (h : s.forceOf idx = some f) : s.pointWriteSat idx v q t sat =
    (s.noteValid idx (s.composed idx v q t sat)).putShadow idx (s.composed idx v q t sat) := by
  have forced : (s.noteValid idx (s.composed idx v q t sat)).forceOf idx = some f := by simpa using h
  unfold State.pointWriteSat
  rw [if_neg (by simp [ok])]
  dsimp only
  split
  case h_1 => rfl
  case h_2 found => exact nomatch found.symm.trans forced

end

/-! ### Writes of applications and the host (R65) -/

/-- Where a simulation does not hold a point, a writable point that is not FLOAT32 is written as by its source. -/
theorem State.appWrite_of_writable {s : State} {idx : Nat} (kind : (s.point idx).kind ≠ .float32) (ok : appWritable (s.point idx) = true)
    (real : ∀ f, s.forceOf idx = some f → f.sim = false) (v : Word) (q : Byte) : s.appWrite idx v q = s.pointWriteSat idx v q s.now false := by
  unfold State.appWrite
  cases h : s.forceOf idx with
  | none => simp [kind, ok]
  | some f => simp [kind, ok, real f h]

theorem appWritable_of_float32 {e : DirEntry} (h : e.kind = .float32) : appWritable e = true := by simp [appWritable, h]

/-- A point that R65 does not allow is not written. -/
theorem State.appWrite_of_readOnly {s : State} {idx : Nat} (ro : appWritable (s.point idx) = false)
    (real : ∀ f, s.forceOf idx = some f → f.sim = false) (v : Word) (q : Byte) : s.appWrite idx v q = s.err .ptd errPointRo := by
  have kind : (s.point idx).kind ≠ .float32 := fun h => by simp [appWritable_of_float32 h] at ro
  unfold State.appWrite
  cases h : s.forceOf idx with
  | none => simp [kind, ro]
  | some f => simp [kind, ro, real f h]

/-- A NaN is not written to a FLOAT32 point (R61). -/
theorem State.appWrite_of_nan {s : State} {idx : Nat} (kind : (s.point idx).kind = .float32) {v : Word} (nan : f32NaN v = true) (q : Byte) :
    s.appWrite idx v q = s.err .ptd errBadFloat := by
  unfold State.appWrite
  exact if_pos ⟨kind, nan⟩

section
variable {s : State} {cold : Bool} (on : s.present .ptd = true) (mem : cold = true → (s.hd .mem).running = true) (p : Principal) (i : Nat)
  (v : Word) (q : Byte)
include on mem

/-- An access that is no aligned 64-bit one is refused. -/
theorem State.hotWrite_of_size : s.hotWrite p cold i false v q =
    (s.err .ptd errAccessSize).storeFault p .ptd errAccessSize (if cold then 8 * i else 0x20000000 + 8 * i) := by
  cases cold <;> simp [State.hotWrite, on, mem]

/-- A permitted aligned 64-bit write reaches the entry's point. -/
theorem State.hotWrite_of_permits (ok : s.permits p Block.ptd.code = true) {idx : Nat} (at_ : s.entryPoint cold i = some idx) :
    s.hotWrite p cold i true v q = (s.appWrite idx v q).followNow idx := by
  cases cold <;> simp [State.hotWrite, on, mem, ok, at_]

end

end Sys2Proof.Machine
end

section
/-!
PROOF. What PTD stores on a write, the writes of applications and the host, and forcing and simulation (O12–O15).
-/

namespace Sys2Proof.Machine

/-- Settles O12: bit by bit, a stored quality is the source's own bits, then RANGE, then SUBST where VALID is clear by then. -/
theorem storedQualityByte : Obligations.StoredQualityByte := by
  unfold Obligations.StoredQualityByte
  intro e last v q sat
  dsimp only
  refine ⟨?valid, ?stale, ?commLost, ?forced, ?subst, ?range, ?supply, ?sim, ?value⟩
  case value => rw [compose_value, isValid_compose]
  case subst =>
    rw [isValid_compose, getLsbD_compose, getLsbD_measuredQuality]
    simp [qSubst, qRange]
  all_goals
    rw [getLsbD_compose, getLsbD_measuredQuality]
    simp [qSubst, qRange, Bool.and_assoc]

/-! ### Writes of applications and the host -/

/-- A write that PTD answers with an error: its state stays and its error log names the cause. -/
theorem exec_hotEntryWrite_of_err {s : State} {p : Principal} {cold : Bool} {h : Fin 524288} {idx : Nat} {v : Word} {q : Byte} {e : Nat}
    (on : s.present .ptd = true) (mem : cold = true → (s.hd .mem).running = true) (ok : s.permits p Block.ptd.code = true)
    (entry : s.entryPoint cold (if cold then h.val else h.val % 65536) = some idx) (refused : s.appWrite idx v q = s.err .ptd e) :
    ∃ t, exec (.hotEntryWrite p cold h true v q) s = .next t ∧ t.ptd = s.ptd ∧ (t.hd .ptd).errCode = 0x0800 + e := by
  refine ⟨_, congrArg Host.Outcome.next (State.hotWrite_of_permits on mem p _ v q ok entry), ?_⟩
  rw [refused, State.hd_followNow, State.hd_err_same]
  exact ⟨by simp, rfl⟩

/-- Settles O14: each refusal reaches the error log of PTD and no entry. -/
theorem appWriteRefusals : Obligations.AppWriteRefusals := by
  unfold Obligations.AppWriteRefusals
  intro s p cold h idx v q on mem
  refine ⟨?_, fun ok entry => ⟨fun ro real => ?_, fun kind nan => ?_⟩⟩
  · refine ⟨_, congrArg Host.Outcome.next (State.hotWrite_of_size on mem p _ v q), by simp, ?_⟩
    rw [State.hd_storeFault, State.hd_err_same]
    rfl
  · exact exec_hotEntryWrite_of_err on mem ok entry (State.appWrite_of_readOnly ro real v q)
  · exact exec_hotEntryWrite_of_err on mem ok entry (State.appWrite_of_nan kind nan q)

/-- Settles O13: the composed entry goes to the hot image, or to the shadow of the force that holds the point. -/
theorem appWriteStoresPoint : Obligations.AppWriteStoresPoint := by
  unfold Obligations.AppWriteStoresPoint
  intro s p h idx v q on ok run low atHot live kind hot hotIndex internal cls
  extract_lets r
  have accepted : s.canWrite idx = true := by simp [State.canWrite, live, run, hot]
  have writable : appWritable (s.point idx) = true := by simpa [appWritable, internal] using .inl cls
  have entry : s.entryPoint false (h.val % 65536) = some idx := by simpa [State.entryPoint, Nat.mod_eq_of_lt low] using atHot
  have ran (real : ∀ f, s.forceOf idx = some f → f.sim = false) :
      exec (.hotEntryWrite p false h true v q) s = .next ((s.pointWriteSat idx v q s.now false).followNow idx) := by
    rw [← State.appWrite_of_writable kind writable real]
    exact congrArg Host.Outcome.next (State.hotWrite_of_permits on (by simp) p _ v q ok entry)
  let x := s.composed idx v q s.now false
  obtain ⟨l, noted⟩ := s.ptd_noteValid idx x
  refine ⟨fun unforced => ?_, fun f forced real => ?_⟩
  · refine ⟨_, ran (by simp [unforced]), ?_⟩
    rw [State.pointWriteSat_of_unforced accepted v q s.now false unforced]
    have stored : ((s.noteValid idx x).putEntry idx x (some s.now)).ptd = Ptd.putHot { s.ptd with lastValid := l } (s.point idx).hotIndex x := by
      rw [State.ptd_putEntry, State.ptd_storeEntry_of_hot (by simpa using hot), noted, State.point_noteValid]
    rw [State.ptd_followNow, stored]
    exact ⟨State.readPoint_of_putHot live hot ((State.ptd_followNow _ idx).trans stored) rfl, rfl, rfl, rfl⟩
  · refine ⟨_, ran (by simp [forced, real]), ?_⟩
    rw [State.pointWriteSat_of_forced accepted v q s.now false forced]
    have read := State.readPoint_congr_of_hot (t := ((s.noteValid idx x).putShadow idx x).followNow idx) live hot
    refine ⟨read ?_ ?_ ?_, ?_⟩
    case refine_4 =>
      rw [State.forceOf_congr (congrArg Ptd.force (State.ptd_followNow _ idx))]
      exact State.forceOf_putShadow (by simpa using forced) x
    all_goals simp [State.putShadow, noted]

/-! ### Forcing and simulation -/

section
variable {s : State} {p : Principal} (reached : s.writeOk .ptd 0x138 .w1s p = true)
include reached

theorem exec_force_of_accepted (ok : s.forceCheck p s.forceIdx false = 0) : exec (.force p) s =
    .next ((((s.addForce s.forceIdx false).putEntry s.forceIdx (forcedEntry (s.point s.forceIdx) (s.reg R.PTD_FORCE_VAL) s.now)).followNow
      s.forceIdx).forceDone recForce (s.gid s.forceIdx) p (s.reg R.PTD_FORCE_VAL).toNat 0) := by
  refine congrArg Host.Outcome.next ((State.gated_ok _ _ reached).trans ?_)
  simp [ok]

theorem exec_simOn_of_accepted (ok : s.forceCheck p s.forceIdx true = 0) (free : s.forceOf s.forceIdx = none) : exec (.simOn p) s =
    .next ((((s.addForce s.forceIdx true).putEntry s.forceIdx { s.entry s.forceIdx with q := (s.entry s.forceIdx).q ||| qSim }).followNow
      s.forceIdx).forceDone recSimOn (s.gid s.forceIdx) p (s.entry s.forceIdx).value.toNat 0) := by
  refine congrArg Host.Outcome.next ((State.gated_ok _ _ reached).trans ?_)
  simp [ok, free]

theorem exec_release_of_forced {f : ForceEnt} (forced : s.forceOf s.forceIdx = some f) (real : f.sim = false) : exec (.release p) s =
    .next ((s.endForce f).forceDone recRelease (s.gid s.forceIdx) p f.shadow.value.toNat 0) := by
  refine congrArg Host.Outcome.next ((State.gated_ok _ _ reached).trans ?_)
  simp [forced, real]

theorem exec_release_of_free (free : s.forceOf s.forceIdx = none) : exec (.release p) s =
    .next (s.forceDone recRelease (s.gid s.forceIdx) p 0 errForceState) := by
  refine congrArg Host.Outcome.next ((State.gated_ok _ _ reached).trans ?_)
  simp [free]

theorem exec_simOff_of_simulated {f : ForceEnt} (forced : s.forceOf s.forceIdx = some f) (sim : f.sim = true) : exec (.simOff p) s =
    .next ((s.endForce f).forceDone recSimOff (s.gid s.forceIdx) p f.shadow.value.toNat 0) := by
  refine congrArg Host.Outcome.next ((State.gated_ok _ _ reached).trans ?_)
  simp [forced, sim]

theorem exec_releaseAll : exec (.releaseAll p) s =
    .next ((s.ptd.force.foldl (fun s f => s.endForce f) s).forceDone recReleaseAll 0xFFFFFFFF p s.ptd.force.length 0) :=
  congrArg Host.Outcome.next (State.gated_ok _ _ reached)

end

/-- Settles O15: an accepted request puts its entry in the image and its row in the table; the end of a row restores its shadow. -/
theorem forceAndSimulation : Obligations.ForceAndSimulation := by
  unfold Obligations.ForceAndSimulation
  intro s p reached live hot
  refine ⟨fun ok => ?_, fun f forced real => ?_, fun f forced sim => ?_, ?_, fun ok free => ?_, fun free => ?_⟩
  · exact ⟨_, exec_force_of_accepted reached ok, State.forced_forceDone live hot false _ recForce _ p _ rfl⟩
  · exact ⟨_, exec_release_of_forced reached forced real, State.endForce_forceDone live hot forced recRelease _ p _ rfl⟩
  · exact ⟨_, exec_simOff_of_simulated reached forced sim, State.endForce_forceDone live hot forced recSimOff _ p _ rfl⟩
  · refine ⟨_, exec_releaseAll reached, ?_⟩
    simp [State.force_endForces]
  · obtain ⟨result, read, row⟩ := State.forced_forceDone live hot true _ recSimOn _ p _ rfl
    exact ⟨_, exec_simOn_of_accepted reached ok free, result, row, read⟩
  · refine ⟨_, exec_release_of_free reached free, ?_⟩
    simp [errForceState]

end Sys2Proof.Machine
end

section
/-!
SUPPORT. The control engine through the operations that every block shares, and what a loop's events leave of it (R111, R112).
-/

namespace Sys2Proof.Machine

theorem State.setCe_same (s : State) (x : Ce) : SameBut [.ce] s { s with ce := x } := fun y hy => by
  cases y <;> first | rfl | exact absurd hy (by decide)

@[simp] theorem State.ce_irq (s : State) (b : Block) (i : Nat) : (s.irq b i).ce = s.ce := State.irq_same s b i .ce (by decide)

@[simp] theorem State.ce_routeEvt (s : State) (b : Block) (k i : Nat) : (s.routeEvt b k i).ce = s.ce := State.routeEvt_same s b k i .ce (by decide)

@[simp] theorem State.ce_err (s : State) (b : Block) (e : Nat) : (s.err b e).ce = s.ce := State.err_same s b e .ce (by decide)

@[simp] theorem State.ce_record (s : State) (b : Block) (inst code : Nat) (ps : List Nat) : (s.record b inst code ps).ce = s.ce :=
  State.record_same s b inst code ps .ce (by decide)

/-! ### A loop's event bit (R111) -/

@[simp] theorem State.ce_loopEvt (s : State) (n b : Nat) :
    (s.loopEvt n b).ce = { s.ce with evt := Tab.upd 0 s.ce.evt (n / 32) fun w => setBit w (n % 32) } := by
  simp [State.loopEvt]

theorem State.loopEvt_same (s : State) (n b : Nat) : SameBut [.ce, .hdr, .hts, .out] s (s.loopEvt n b) :=
  SameBut.trans (SameBut.mono' (State.setCe_same s _) rfl)
    (SameBut.trans (SameBut.mono' (State.irq_same _ _ _) rfl) (SameBut.mono' (State.routeEvt_same _ _ _ _) rfl))

/-- A loop's event sets an interrupt cause of CE and leaves its error log alone. -/
theorem State.errCode_loopEvt (s : State) (n b : Nat) : ((s.loopEvt n b).hd .ce).errCode = (s.hd .ce).errCode := by
  have routed (t : State) : (t.routeEvt .ce 0 n).hd .ce = t.hd .ce :=
    State.hd_congr (State.routeEvt_same t .ce 0 n .hdr (by decide)) .ce
  rw [State.loopEvt, routed, State.hd_irq_same]
  rfl

/-! ### Words of memory -/

/-- The bytes of a word give the word back. -/
theorem word_leNat_wordBytes (w : Word) : word (leNat (wordBytes w)) = w := by
  simp only [wordBytes, leNat, word, BitVec.extractLsb'_toNat]
  apply BitVec.eq_of_toNat_eq
  simp only [BitVec.toNat_ofNat, Nat.shiftRight_eq_div_pow]
  have := w.isLt
  omega

@[simp] theorem State.mem32_store32 (s : State) (a : Nat) (w : Word) : (s.store32 a w).mem32 a = w := by
  have stored : Tab.getList 0 (s.store32 a w).mem a 4 = wordBytes w := State.load_store s a (wordBytes w)
  rw [State.mem32, stored, word_leNat_wordBytes]

theorem State.mem32_congr {s t : State} (h : t.mem = s.mem) (a : Nat) : t.mem32 a = s.mem32 a := by simp [State.mem32, h]

end Sys2Proof.Machine
end

section
/-!
SUPPORT. What the check of a mode command answers, and what an accepted and a refused one leave (Table CE-4, R101, R102, R122, R146).
-/

namespace Sys2Proof.Machine

/-- A latched trip whose reaction takes the loop out of its law (R122). -/
def State.latched (s : State) (n : Nat) : Prop := (s.loopSt n).tripSrc ≠ 0 ∧ 2 ≤ (s.loopSt n).react

/-- From `s` to `t` a command of software waits for loop `n`, and nothing else of the loop changes. -/
def State.ModeTaken (s t : State) (n : Nat) (m : Option LMode) (man : Option Int) : Prop :=
  Tab.get {} t.ce.pend n = { Tab.get {} s.ce.pend n with
      cmd := some { mode := m, cause := 0 }, man := man.or (Tab.get {} s.ce.pend n).man } ∧
    t.ce.modeLoop = n ∧ t.ce.modeResult = 0 ∧ t.ce.lanes = s.ce.lanes ∧ t.ce.view = s.ce.view ∧ SameBut [.ce] s t

/-- From `s` to `t` a mode command is refused: CE_MODE_STAT reports `r`, BLK_ERR holds `e`, and no loop changes. -/
def State.ModeRefused (s t : State) (r e : Nat) : Prop :=
  t.ce.pend = s.ce.pend ∧ t.ce.view = s.ce.view ∧ t.ce.modeResult = r ∧ (t.hd .ce).errCode = 0x0900 + e

theorem State.get_updPend (s : State) (n : Nat) (f : LoopPend → LoopPend) : Tab.get {} (s.updPend n f).ce.pend n = f (Tab.get {} s.ce.pend n) :=
  Tab.get_upd_same {} s.ce.pend n f

section
variable {s : State} {p : Principal} {n : Nat}

theorem State.modeWrite_of_writeOk (ok : s.writeOk .ce 0x108 .wo p = true) (m : Option LMode) (man : Option (BitVec 16)) :
    s.modeWrite p n m man = s.modeCmd n m (man.map BitVec.toInt) 0 :=
  State.gated_ok _ (fun s => s.modeCmd n m (man.map BitVec.toInt) 0) ok

theorem State.modeWrite_taken (ok : s.writeOk .ce 0x108 .wo p = true) {m : Option LMode} (man : Option (BitVec 16))
    (accepted : s.modeCheck n m = 0) : s.ModeTaken (s.modeWrite p n m man) n m (man.map BitVec.toInt) := by
  rw [State.modeWrite_of_writeOk ok, State.modeCmd]
  simp only [accepted, ne_eq, not_true_eq_false, if_false]
  refine ⟨(State.get_updPend _ n _).trans ?_, rfl, rfl, rfl, rfl, State.setCe_same s _⟩
  cases man <;> rfl

theorem State.modeWrite_refused (ok : s.writeOk .ce 0x108 .wo p = true) {m : Option LMode} (man : Option (BitVec 16)) {r : Nat}
    (refused : s.modeCheck n m = r) (hr : r ≠ 0) :
    s.ModeRefused (s.modeWrite p n m man) r (if r = errCascLink then errModeRefused else r) := by
  rw [State.modeWrite_of_writeOk ok, State.modeCmd]
  simp only [refused, if_pos hr]
  exact ⟨by simp, by simp, by simp, by rw [State.hd_err_same]; rfl⟩

/-! ### The check -/

variable (used : s.loopUsed n = true)
include used

theorem State.modeCheck_off : s.modeCheck n (some .off) = 0 := by simp [State.modeCheck, used]

/-- The latch refuses AUTO and CASCADE before every other check. -/
theorem State.modeCheck_of_latched (latched : s.latched n) {c : LMode} (hc : c = .auto ∨ c = .cascade) :
    s.modeCheck n (some c) = errTripLatched := by
  obtain ⟨src, react⟩ := latched
  rcases hc with rfl | rfl <;> simp [State.modeCheck, used, src, react]

/-- While no vote is taken, a command other than OFF that the latch does not refuse is refused. -/
theorem State.modeCheck_of_silent (silent : s.voting = false) {m : Option LMode} (off : m ≠ some .off)
    (free : (m = some .auto ∨ m = some .cascade) → ¬ s.latched n) : s.modeCheck n m = errModeRefused := by
  have unlatched : ¬ ((s.loopSt n).tripSrc ≠ 0 ∧ 2 ≤ (s.loopSt n).react ∧ (m = some .auto ∨ m = some .cascade)) :=
    fun ⟨src, react, hm⟩ => free hm ⟨src, react⟩
  simp only [State.modeCheck, used, off, unlatched, silent]
  simp

/-- While the Crossing votes, Table CE-4 alone decides on a command that the latch does not refuse. -/
theorem State.modeCheck_of_voting (voting : s.voting = true) (c : LMode) (free : c = .auto ∨ c = .cascade → ¬ s.latched n) :
    s.modeCheck n (some c) =
      if c = .off ∨ c = (s.loopSt n).mode then 0
      else if (s.loopSt n).mode = .safe ∧ (c = .auto ∨ c = .cascade) then errModeRefused
      else if c = .cascade ∧ s.linkOk n = false then errCascLink
      else 0 := by
  have unlatched : ¬ ((s.loopSt n).tripSrc ≠ 0 ∧ 2 ≤ (s.loopSt n).react ∧ (c = .auto ∨ c = .cascade)) :=
    fun ⟨src, react, hc⟩ => free hc ⟨src, react⟩
  by_cases off : c = .off
  · simp [off, State.modeCheck_off used]
  · simp [State.modeCheck, used, off, unlatched, voting]

theorem State.modeCheck_keep (voting : s.voting = true) : s.modeCheck n none = 0 := by simp [State.modeCheck, used, voting]

end

end Sys2Proof.Machine
end

section
/-!
PROOF. Mode commands are accepted and refused as Table CE-4 says (O19, O20).
-/

namespace Sys2Proof.Machine

/-- Settles O19: each command passes its check and waits. -/
theorem modeCommandsAccepted : Obligations.ModeCommandsAccepted := by
  unfold Obligations.ModeCommandsAccepted
  intro s p n ok used voting
  have check := State.modeCheck_of_voting used voting
  have manual : s.modeCheck n.val (some .manual) = 0 := by simp [check]
  have safe : s.modeCheck n.val (some .safe) = 0 := by simp [check]
  have taken {m : Option LMode} (h : s.modeCheck n.val m = 0) (man : Option (BitVec 16)) :
      ∃ t, (.next (s.modeWrite p n.val m man) : Out) = .next t ∧ s.ModeTaken t n.val m (man.map BitVec.toInt) :=
    ⟨_, rfl, State.modeWrite_taken ok man h⟩
  refine ⟨taken (State.modeCheck_off used) none, taken manual none, taken safe none, taken (State.modeCheck_keep used voting) none,
    fun ⟨awake, free⟩ => taken ?auto none, fun ⟨awake, free⟩ link => taken ?cascade none, fun man => taken manual (some man)⟩
  case auto => simp [check .auto fun _ => free, awake]
  case cascade => simp [check .cascade fun _ => free, awake, link]

/-- Settles O20: each command fails the first check that Table CE-4 gives it. -/
theorem modeCommandsRefused : Obligations.ModeCommandsRefused := by
  unfold Obligations.ModeCommandsRefused
  intro s p n ok used
  have refused {m : Option LMode} {r : Nat} (h : s.modeCheck n.val m = r) (hr : r ≠ 0) :
      ∃ t, (.next (s.modeWrite p n.val m none) : Out) = .next t ∧ s.ModeRefused t r (if r = errCascLink then errModeRefused else r) :=
    ⟨_, rfl, State.modeWrite_refused ok none h hr⟩
  refine ⟨fun latched => ?_, fun free votes safe => ?_, fun silent => ?_, fun free votes link mode => ?_⟩
  · have check {c : LMode} (hc : c = .auto ∨ c = .cascade) := refused (State.modeCheck_of_latched used latched hc) (by decide)
    exact ⟨check (.inl rfl), check (.inr rfl)⟩
  · have voting : s.voting = true := decide_eq_true votes
    have check {c : LMode} (hc : c = .auto ∨ c = .cascade) : s.modeCheck n.val (some c) = errModeRefused := by
      rw [State.modeCheck_of_voting used voting c fun _ => free]
      rcases hc with rfl | rfl <;> simp [safe]
    exact ⟨refused (check (.inl rfl)) (by decide), refused (check (.inr rfl)) (by decide)⟩
  · have mute : s.voting = false := decide_eq_false (not_not_intro silent)
    have check {m : Option LMode} (off : m ≠ some .off) (free : m = some .auto ∨ m = some .cascade → ¬ s.latched n.val) :=
      refused (State.modeCheck_of_silent used mute off free) (by decide)
    exact ⟨check (by decide) (by simp), check (by decide) (by simp), check (by decide) (by simp),
      fun free => ⟨check (by decide) fun _ => free, check (by decide) fun _ => free⟩⟩
  · have voting : s.voting = true := decide_eq_true votes
    have check : s.modeCheck n.val (some .cascade) = errCascLink := by
      rw [State.modeCheck_of_voting used voting .cascade fun _ => free]
      rcases mode with h | h | h <;> simp [h, link]
    exact refused check (by decide)

end Sys2Proof.Machine
end

section
/-!
SUPPORT. What a loop commit applies and what a refused one leaves (R106, R107, R117).
-/

namespace Sys2Proof.Machine

/-! ### The editing copy -/

/-- The words of an editing copy with COMMIT and PEND clear, which the commit takes. -/
def State.uncommitted (s : State) (n k : Nat) : Word := if k = 63 then clrBit (clrBit (s.loopWord n 63) 31) 30 else s.loopWord n k

theorem State.loopWord_clearCommit (s : State) (n : Nat) :
    (s.clearCommit (loopEdit n + 252)).loopWord n 63 = clrBit (clrBit (s.loopWord n 63) 31) 30 :=
  State.mem32_store32 s (loopEdit n + 252) _

/-! ### Lanes' copies -/

/-- A change of every lane's copy changes the copy of each of the three lanes. -/
theorem State.cfg_updCfgs (s : State) (f : LaneCfg → LaneCfg) (l : Fin 3) : (s.updCfgs f).cfg l.val = f (s.cfg l.val) := by
  match l with
  | ⟨0, _⟩ | ⟨1, _⟩ | ⟨2, _⟩ => simp [State.cfg, State.updCfgs, List.range, List.range.loop, Tab.get_upd]

theorem State.laneDesc_putDesc (s : State) (n : Nat) (d : LoopDesc) (l : Fin 3) :
    (s.updCfgs fun c => c.putDesc n d).laneDesc l.val n = d := by
  have copy := s.cfg_updCfgs (fun c => c.putDesc n d) l
  exact (congrArg (fun c : LaneCfg => Tab.get {} c.desc n) copy).trans (Tab.get_put_same _ _ _ _)

/-! ### An applied descriptor -/

/-- From `s` to `t` a descriptor in use is applied to loop `n`: it is the loop's in every copy, the commit has ended with result 0, and of the loops' states
the loop's own place in the delay line alone may have changed. -/
structure State.Applied (s t : State) (n : Nat) (d : LoopDesc) (pl : LoopPlace) : Prop where
  desc : t.ce.desc = Tab.put {} s.ce.desc n d
  place : t.ce.place = Tab.put {} s.ce.place n pl
  copies : t.ce.laneCfg = (s.updCfgs fun c => c.putDesc n d).ce.laneCfg
  busy : t.ce.goBusy = none
  result : t.ce.goResult = 0
  others : ∀ k, k ≠ n → t.loopSt k = s.loopSt k
  own : ∃ q, t.loopSt n = { s.loopSt n with dlyPtr := q }
  mem : t.mem = s.mem

/-- A changed delay line starts anew (R117): the loop's place in it is 0, and no other state changes. -/
theorem State.loopSt_restartDelay (s : State) (n k : Nat) :
    (s.restartDelay n).loopSt k = if k = n then { s.loopSt n with dlyPtr := 0 } else s.loopSt k :=
  Tab.get_upd (α := LoopState) {} s.ce.view n k fun v => { v with dlyPtr := 0 }

theorem State.loopApply_applied (s : State) (n : Nat) {d : LoopDesc} (used : d.law ≠ .none) (pl : LoopPlace) : s.Applied (s.loopApply n d pl) n d pl := by
  by_cases changed : structural (s.loop n) ≠ structural d
  · simp only [State.loopApply, used, changed, if_false, decide_true, not_false_eq_true, if_true, ne_eq]
    exact ⟨rfl, rfl, rfl, rfl, rfl, fun k hk => (State.loopSt_restartDelay _ n k).trans (if_neg hk),
      ⟨0, (State.loopSt_restartDelay _ n n).trans (if_pos rfl)⟩, rfl⟩
  · simp only [State.loopApply, used, changed, if_false, decide_false, Bool.false_eq_true]
    exact ⟨rfl, rfl, rfl, rfl, rfl, fun _ _ => rfl, ⟨_, rfl⟩, rfl⟩

/-- The report of the commit changes event bits, records and interrupts. -/
theorem State.Applied.reported {s t : State} {n : Nat} {d : LoopDesc} {pl : LoopPlace} (h : s.Applied t n d pl) (code : Nat) (ps : List Nat) (b : Nat) :
    s.Applied ((t.record .ce 0 code ps).loopEvt n b) n d pl := by
  obtain ⟨desc, place, copies, busy, result, others, own, mem⟩ := h
  have same : SameBut [.ce, .evr, .hdr, .hts, .out] t ((t.record .ce 0 code ps).loopEvt n b) :=
    (SameBut.mono' (State.record_same t _ _ _ _) rfl).trans (SameBut.mono' (State.loopEvt_same _ _ _) rfl)
  have shown (k : Nat) : ((t.record .ce 0 code ps).loopEvt n b).loopSt k = t.loopSt k := by simp [State.loopSt]
  exact ⟨by simpa, by simpa, by simpa, by simpa, by simpa, fun k hk => (shown k).trans (others k hk), own.imp fun _ h => (shown n).trans h,
    (same .mem (by decide)).trans mem⟩

theorem State.Applied.loop {s t : State} {n : Nat} {d : LoopDesc} {pl : LoopPlace} (h : s.Applied t n d pl) : t.loop n = d := by
  rw [State.loop, h.desc, Tab.get_put_same]

theorem State.Applied.laneDesc {s t : State} {n : Nat} {d : LoopDesc} {pl : LoopPlace} (h : s.Applied t n d pl) (l : Fin 3) : t.laneDesc l.val n = d := by
  rw [State.laneDesc, h.copies]
  exact s.laneDesc_putDesc n d l

/-! ### A refused commit -/

@[simp] theorem State.ce_loopRefuse (s : State) (n e : Nat) : (s.loopRefuse n e).ce =
    { s.ce with goBusy := none, goResult := e, goLoop := n, evt := Tab.upd 0 s.ce.evt (n / 32) fun w => setBit w (n % 32) } := by
  simp [State.loopRefuse]

theorem State.errCode_loopRefuse (s : State) (n e : Nat) : ((s.loopRefuse n e).hd .ce).errCode = 0x0900 + e := by
  rw [State.loopRefuse, State.errCode_loopEvt, State.hd_record _ _ _ _ _ (by decide), State.hd_err_same]
  rfl

theorem State.loopRefuse_same (s : State) (n e : Nat) : SameBut [.ce, .evr, .hdr, .hts, .out] s (s.loopRefuse n e) :=
  (SameBut.mono' (State.setCe_same s _) rfl).trans ((SameBut.mono' (State.err_same _ _ _) rfl).trans
    ((SameBut.mono' (State.record_same _ _ _ _ _) rfl).trans (SameBut.mono' (State.loopEvt_same _ _ _) rfl)))

/-! ### The end of a commit -/

/-- The code with which a commit ends: the first check that fails, or what admission answers. -/
def State.commitCode (s : State) (n : Nat) (d : LoopDesc) : Nat :=
  if s.loopCheck n d (s.uncommitted n) ≠ 0 then s.loopCheck n d (s.uncommitted n) else (s.loopAdmit n d).1

/-- The end of a commit: refused with its code, or applied and reported. -/
theorem exec_loopCommitDone {s : State} {n : Nat} (busy : s.ce.goBusy = some n) :
    let d := parseLoop (s.uncommitted n)
    let u := s.clearCommit (loopEdit n + 252)
    let a := u.loopApply n d (s.loopAdmit n d).2
    exec .loopCommitDone s = .next (if s.commitCode n d ≠ 0 then u.loopRefuse n (s.commitCode n d)
      else (a.record .ce 0 0x0911 [n, a.ceLoad]).loopEvt n 8) := by
  intro d u a
  show execLoopCommitDone s = _
  rw [execLoopCommitDone]
  rw [busy]
  show Host.Outcome.next (if s.loopCheck n d (s.uncommitted n) ≠ 0 then u.loopRefuse n (s.loopCheck n d (s.uncommitted n))
    else if (s.loopAdmit n d).1 ≠ 0 then u.loopRefuse n (s.loopAdmit n d).1 else (a.record .ce 0 0x0911 [n, a.ceLoad]).loopEvt n 8) = _
  by_cases failed : s.loopCheck n d (s.uncommitted n) ≠ 0
  · simp only [State.commitCode, if_pos failed]
  · simp only [State.commitCode, if_neg failed]

theorem exec_loopCommitDone_of_refused {s : State} {n e : Nat} (busy : s.ce.goBusy = some n)
    (code : s.commitCode n (parseLoop (s.uncommitted n)) = e) (refused : e ≠ 0) :
    exec .loopCommitDone s = .next ((s.clearCommit (loopEdit n + 252)).loopRefuse n e) := by
  subst code
  rw [exec_loopCommitDone busy, if_pos refused]

theorem exec_loopCommitDone_of_admitted {s : State} {n : Nat} {pl : LoopPlace} (busy : s.ce.goBusy = some n)
    (passed : s.loopCheck n (parseLoop (s.uncommitted n)) (s.uncommitted n) = 0) (placed : s.loopAdmit n (parseLoop (s.uncommitted n)) = (0, pl)) :
    ∃ ps, exec .loopCommitDone s =
      .next ((((s.clearCommit (loopEdit n + 252)).loopApply n (parseLoop (s.uncommitted n)) pl).record .ce 0 0x0911 ps).loopEvt n 8) := by
  have code : s.commitCode n (parseLoop (s.uncommitted n)) = 0 := by simp [State.commitCode, passed, placed]
  rw [exec_loopCommitDone busy, if_neg (not_not_intro code), placed]
  exact ⟨_, rfl⟩

end Sys2Proof.Machine
end

section
/-!
PROOF. A loop commit is applied whole or refused (O18).
-/

namespace Sys2Proof.Machine

/-- CE_LOOP_GO for an editing copy with COMMIT set, while no commit runs, starts the commit. -/
theorem ceLoopGo_starts {s : State} {p : Principal} {n : Fin 1024} (ok : s.writeOk .ce 0x100 .wo p = true) (idle : s.ce.goBusy = none)
    (commit : bit (s.loopWord n.val 63) 31 = true) :
    ∃ t, exec (.ceLoopGo p n) s = .next t ∧ t.ce = { s.ce with goBusy := some n.val } ∧ bit (t.loopWord n.val 63) 30 = true ∧ SameBut [.ce, .mem] s t := by
  let u := s.store32 (loopEdit n.val + 252) (setBit (s.loopWord n.val 63) 30)
  refine ⟨{ u with ce := { s.ce with goBusy := some n.val } }, ?_, rfl, ?_,
    (SameBut.mono' (State.store_same s _ _) rfl).trans (SameBut.mono' (State.setCe_same u _) rfl)⟩
  · refine congrArg Host.Outcome.next ((State.gated_ok _ _ ok).trans ?_)
    simp only [idle, commit, if_true]
    rfl
  · have pend : u.loopWord n.val 63 = setBit (s.loopWord n.val 63) 30 := State.mem32_store32 s _ _
    exact (congrArg (bit · 30) pend).trans (bit_setBit_same _ (by decide))

/-- A commit that passes is applied whole. -/
theorem loopCommitDone_applies {s : State} {n : Nat} {pl : LoopPlace} (busy : s.ce.goBusy = some n)
    (passed : s.loopCheck n (parseLoop (s.uncommitted n)) (s.uncommitted n) = 0) (placed : s.loopAdmit n (parseLoop (s.uncommitted n)) = (0, pl))
    (used : (parseLoop (s.uncommitted n)).law ≠ .none) :
    ∃ t, exec .loopCommitDone s = .next t ∧ (s.clearCommit (loopEdit n + 252)).Applied t n (parseLoop (s.uncommitted n)) pl := by
  obtain ⟨ps, run⟩ := exec_loopCommitDone_of_admitted busy passed placed
  exact ⟨_, run, (State.loopApply_applied _ n used pl).reported 0x0911 ps 8⟩

/-- Settles O18: a commit that passes is applied whole, and one that does not ends with its code alone. -/
theorem loopCommitAppliesOrRefuses : Obligations.LoopCommitAppliesOrRefuses := by
  unfold Obligations.LoopCommitAppliesOrRefuses
  refine ⟨fun s p n => ceLoopGo_starts, fun s n busy => ⟨fun passed pl placed used => ?_, fun e code refused _ => ?_⟩⟩
  · obtain ⟨t, run, applied⟩ := loopCommitDone_applies busy passed placed used
    refine ⟨t, run, applied.loop, ?_, applied.busy, applied.result, applied.laneDesc, applied.others, ?_, ?_⟩
    · rw [applied.place, Tab.get_put_same]
    · obtain ⟨q, own⟩ := applied.own
      rw [own]
      rfl
    · exact (State.mem32_congr applied.mem _).trans (s.loopWord_clearCommit n)
  · have kept := (s.clearCommit (loopEdit n + 252)).loopRefuse_same n e
    refine ⟨_, exec_loopCommitDone_of_refused busy code refused, ?_, ?_, ?_, ?_, State.errCode_loopRefuse _ _ _,
      (State.mem32_congr (kept .mem (by decide)) _).trans (s.loopWord_clearCommit n)⟩
    all_goals rw [State.ce_loopRefuse]
    all_goals rfl

end Sys2Proof.Machine
end

section
/-!
SUPPORT. The evaluation of a loop in lanes that agree, the vote that they give, and what a voted result leaves (R93, R138–R141).
-/

namespace Sys2Proof.Machine

/-! ### The evaluation in a lane (R138) -/

/-- A lane whose copy of a table is the committed one reads what the committed one gives. -/
theorem State.tabIn_lane {s : State} {l t : Nat} (same : s.laneTab l t = Tab.get {} s.ce.tabs t) (en : Bool) :
    (s.tabIn en t).map (fun x => { x with tab := s.laneTab l t }) = s.tabIn en t := by
  cases en <;> simp [State.tabIn, same]

/-- What lane `l` computes for loop `n` at an evaluation instant without an error of the delay line. -/
def State.laneComputed (s : State) (n l : Nat) : LoopOut × Option LMode := s.laneEval n (s.loopIn n false) l

/-- The words that the lanes deliver for it (Table XNG-1). -/
def State.laneWord (s : State) (n : Nat) : Nat → Nat := fun l =>
  loopVoteWord (s.laneComputed n l).1.st (s.laneComputed n l).1.a (s.laneComputed n l).1.b

/-- A lane with the committed descriptor and tables evaluates them. -/
theorem State.laneComputed_of_committed {s : State} {l n : Nat} {st : LoopState} (held : s.laneLoop l n = st) (desc : s.laneDesc l n = s.loop n)
    (tabs : ∀ k, s.laneTab l k = Tab.get {} s.ce.tabs k) : s.laneComputed n l = evalLoop (s.loop n) (s.loopIn n false) st := by
  have a := State.tabIn_lane (tabs (s.loop n).tabA) (s.loop n).tabAEn
  have b := State.tabIn_lane (tabs (s.loop n).tabB) (s.loop n).tabBEn
  rw [State.laneComputed, State.laneEval, desc, held]
  exact (congrArg (fun a => evalLoop (s.loop n) { s.loopIn n false with tabA := a, tabB := _ } st) a).trans
    (congrArg (fun b => evalLoop (s.loop n) { s.loopIn n false with tabB := b } st) b)

/-! ### Voting lanes -/

theorem State.lane_updLane (s : State) (l k : Nat) (f : Lane → Lane) : (s.updLane l f).lane k = if k = l then f (s.lane l) else s.lane k :=
  Tab.get_upd _ _ _ _ _

theorem State.votingLanes_congr {s t : State} (h : ∀ l, (t.lane l).state = (s.lane l).state ∧ (t.lane l).suspect = (s.lane l).suspect) :
    t.votingLanes = s.votingLanes := by
  simp only [State.votingLanes, h]

theorem State.votingLanes_length_le (s : State) : s.votingLanes.length ≤ 3 := List.length_filter_le _ _

theorem State.votingLanes_updLane_sig (s : State) (l : Nat) (g : Nat → Nat) :
    (s.updLane l fun k => { k with sig := g k.sig }).votingLanes = s.votingLanes :=
  State.votingLanes_congr fun k => by
    rw [State.lane_updLane]
    split
    · next e => subst e; exact ⟨rfl, rfl⟩
    · exact ⟨rfl, rfl⟩

/-- From `s` to `t` the Crossing changes signatures of lanes alone. -/
structure State.SigsOnly (s t : State) : Prop where
  voting : t.votingLanes = s.votingLanes
  votes : t.xng.votes = s.xng.votes
  same : SameBut [.xng] s t

theorem State.SigsOnly.updLane {s t : State} (h : s.SigsOnly t) (l : Nat) (g : Nat → Nat) :
    s.SigsOnly (t.updLane l fun k => { k with sig := g k.sig }) :=
  ⟨(State.votingLanes_updLane_sig t l g).trans h.voting, h.votes, h.same.trans (State.updXng_same t _)⟩

theorem State.foldSigs_sigsOnly (s : State) (w : Nat → Nat) : s.SigsOnly (s.foldSigs w) := by
  have fold (ls : List Nat) : ∀ t, s.SigsOnly t → s.SigsOnly (ls.foldl (fun s l => s.updLane l fun k => { k with sig := foldSig k.sig (w l) }) t) := by
    induction ls with
    | nil => exact fun _ h => h
    | cons l ls ih => exact fun t h => ih _ (h.updLane l fun sig => foldSig sig (w l))
  exact fold s.votingLanes s ⟨rfl, rfl, SameBut.refl _ s⟩

/-! ### A vote without a dissenting lane (Table XNG-2) -/

/-- Voting lanes that deliver one word elect one of them, and the Crossing stays as it is. -/
theorem State.voteWords_of_agreed {s : State} (quorum : s.votingLanes ≠ []) (single : s.votingLanes.length = 1 → s.singleAllowed = true)
    {w : Nat → Nat} {v : Nat} (agree : ∀ l ∈ s.votingLanes, w l = v) (item : Nat) (stream : Bool) :
    ∃ l ∈ s.votingLanes, s.voteWords item stream w = (s, some l) := by
  have few := s.votingLanes_length_le
  unfold State.voteWords
  generalize s.votingLanes = ls at *
  match ls with
  | [a] => exact ⟨a, by simp, if_pos (single rfl)⟩
  | [a, b] => exact ⟨a, by simp, by simp [agree]⟩
  | [a, b, c] => exact ⟨a, by simp, by simp [agree]⟩
  | [] => exact absurd rfl quorum
  | _ :: _ :: _ :: _ :: _ => simp only [List.length_cons] at few; omega

/-- A vote of lanes without a fault, while no output of the Crossing is withheld. -/
theorem State.vote_of_agreed {s : State} (mode : s.xng.mode ≠ .none) (writes : s.xng.voterFault = false) (kept : s.xng.lossDue = false)
    (quorum : s.votingLanes ≠ []) (single : s.votingLanes.length = 1 → s.singleAllowed = true)
    {w : Nat → Nat} {v : Nat} (agree : ∀ l ∈ s.votingLanes, w l = v) (item : Nat) (stream : Bool) :
    ∃ l ∈ s.votingLanes, ∃ t, s.vote item stream [] false w = (t, some l) ∧
      t.votingLanes = s.votingLanes ∧ t.xng.votes = wrapInc s.xng.votes := by
  have unflipped : (fun l => w l ^^^ flipMask [] l) = w := funext fun l => Nat.xor_zero _
  obtain ⟨voting, votes, same⟩ := s.foldSigs_sigsOnly w
  let t := (s.foldSigs w).updXng fun x => { x with votes := wrapInc x.votes }
  have tv : t.votingLanes = s.votingLanes := voting
  have ts : SameBut [.xng] s t := same.trans (State.updXng_same _ _)
  have allowed : t.singleAllowed = s.singleAllowed := congrArg (bit · 0) (State.reg_congr (ts .regs (by decide)) _)
  obtain ⟨l, hl, elected⟩ := State.voteWords_of_agreed (s := t) (tv ▸ quorum) (by rw [tv, allowed]; exact single) (w := w) (v := v) (tv ▸ agree) item stream
  refine ⟨l, tv ▸ hl, t, ?_, tv, congrArg wrapInc votes⟩
  rw [State.vote, if_neg (by simp [mode, writes]), if_neg (by simp), if_neg (by simp [kept])]
  simp only [List.foldl_nil, if_true, unflipped]
  exact elected

/-! ### A voted result takes effect (R93, R141) -/

/-- From `s` to `t` at most the report of an evaluation: unchanged are the lanes' loop states, and every part but those that records,
interrupts and raised errors change. -/
structure State.Reported (s t : State) : Prop where
  lanes : t.ce.lanes = s.ce.lanes
  same : SameBut (.ce :: raiseParts) s t

theorem State.Reported.refl (s : State) : s.Reported s := ⟨rfl, SameBut.refl _ s⟩

theorem State.Reported.trans {s t u : State} (h : s.Reported t) (g : t.Reported u) : s.Reported u := ⟨g.lanes.trans h.lanes, h.same.trans g.same⟩

theorem State.Reported.ite {s t u : State} {c : Prop} [Decidable c] (h : s.Reported t) (g : s.Reported u) : s.Reported (if c then t else u) := by
  split <;> assumption

theorem State.Reported.foldl {α : Type} {f : State → α → State} (h : ∀ s x, State.Reported s (f s x)) :
    ∀ (xs : List α) (s : State), s.Reported (xs.foldl f s)
  | [], s => .refl s
  | x :: xs, s => (h s x).trans (State.Reported.foldl h xs (f s x))

theorem State.Reported.of_same {s t : State} (h : SameBut raiseParts s t) : s.Reported t :=
  ⟨congrArg Ce.lanes (h .ce (by decide)), SameBut.mono' h rfl⟩

theorem State.Reported.setCe (s : State) {x : Ce} (h : x.lanes = s.ce.lanes) : s.Reported { s with ce := x } :=
  ⟨h, SameBut.mono' (State.setCe_same s x) rfl⟩

theorem State.record_reported (s : State) (b : Block) (inst code : Nat) (ps : List Nat) : s.Reported (s.record b inst code ps) :=
  .of_same (SameBut.mono' (State.record_same s b inst code ps) rfl)

theorem State.raise_reported (s : State) (b : Block) (inst code : Nat) (sev : Severity) : s.Reported (s.raise b inst code sev) :=
  .of_same (State.raise_same s b inst code sev)

theorem State.loopEvt_reported (s : State) (n b : Nat) : s.Reported (s.loopEvt n b) :=
  ⟨by rw [State.ce_loopEvt], SameBut.mono' (State.loopEvt_same s n b) rfl⟩

/-- A trip is reported by its record, its bit of CE_TRIP, interrupt and route, and raised where it acts (Table CE-15). -/
theorem State.tripEvent_reported (s : State) (n src react : Nat) (value : Int) (acts : Bool) :
    s.Reported (s.loopEvent n (.trip src react value acts)) := by
  let told := s.record .ce 0 0x0920 [n, src, react, (value % 2 ^ 32).toNat]
  have bit : s.Reported { told with ce := { told.ce with trip := Tab.upd 0 told.ce.trip (n / 32) fun w => setBit w (n % 32) } } :=
    (s.record_reported _ _ _ _).trans (.setCe told rfl)
  have routed := (bit.trans (.of_same (SameBut.mono' (State.irq_same _ .ce 11) rfl))).trans
    (.of_same (SameBut.mono' (State.routeEvt_same _ .ce 1 n) rfl))
  unfold State.loopEvent
  dsimp only
  split
  · exact routed.trans (State.raise_reported _ _ _ _ _)
  · exact routed

/-- A change of mode is reported by its record, and by the loop's event and an error where its cause has them (Tables CE-9, CE-24). -/
theorem State.modeEvent_reported (s : State) (n : Nat) (old new : LMode) (cause : Nat) : s.Reported (s.loopEvent n (.mode old new cause)) := by
  let told := s.record .ce 0 0x0910 [n, old.code, new.code, cause]
  have recorded : s.Reported told := s.record_reported _ _ _ _
  have shown : s.Reported (if cause = 0 ∨ cause = 1 then told else told.loopEvt n 9) := .ite recorded (recorded.trans (State.loopEvt_reported _ _ _))
  unfold State.loopEvent
  dsimp only
  have raised := shown.trans (.ite (c := cause = 5) (State.raise_reported _ .ce 0 0x0910 .warn)
    (.ite (c := new = .safe ∧ (cause = 3 ∨ cause = 4)) (State.raise_reported _ .ce 0 0x0910 .alarm) (.refl _)))
  exact .ite (raised.trans (.setCe _ rfl)) raised

theorem State.loopEvent_reported (s : State) (n : Nat) (e : LoopEv) : s.Reported (s.loopEvent n e) := by
  have recorded (code : Nat) (ps : List Nat) : s.Reported (s.record .ce 0 code ps) := s.record_reported _ _ _ _
  have logged (t : State) (e : Nat) : t.Reported (t.err .ce e) := .of_same (SameBut.mono' (State.err_same t .ce e) rfl)
  cases e with
  | mode old new cause => exact s.modeEvent_reported n old new cause
  | refused => exact logged s _
  | inBad q => exact (recorded _ _).trans (State.loopEvt_reported _ _ _)
  | inGood => exact recorded _ _
  | trip src react value acts => exact s.tripEvent_reported n src react value acts
  | clear cause => exact recorded _ _
  | dlyUe => exact (recorded _ _).trans (logged _ _)

theorem State.loopWrite_same (s : State) (n : Nat) (o : LoopOut) : SameBut driveParts s (s.loopWrite n o) :=
  SameBut.ite (SameBut.refl _ s) (SameBut.ite ((State.driveOut_same s _ _).trans (State.driveOut_same _ _ _)) (State.driveOut_same s _ _))

theorem State.delayLine_same (s : State) (n : Nat) (o : LoopOut) : SameBut [.ce] s (s.delayLine n o) :=
  SameBut.ite (SameBut.refl _ s) (State.setCe_same s _)

theorem State.lanes_delayLine (s : State) (n : Nat) (o : LoopOut) : (s.delayLine n o).ce.lanes = s.ce.lanes := by
  unfold State.delayLine
  dsimp only
  split <;> rfl

/-- The lanes' loop states once lanes of loop `n` took their results. -/
def putResults (n : Nat) (lanes : Tab (Tab LoopState)) (rs : List (Nat × LoopOut × Option LMode)) : Tab (Tab LoopState) :=
  rs.foldl (fun t r => Tab.upd [] t r.1 fun m => Tab.put {} m n r.2.1.st) lanes

/-- Where every result is one state, each lane with a result holds it. -/
theorem get_putResults {n : Nat} {st : LoopState} {l : Nat} : ∀ (rs : List (Nat × LoopOut × Option LMode)) (lanes : Tab (Tab LoopState)),
    (∀ r ∈ rs, r.2.1.st = st) → l ∈ rs.map Prod.fst ∨ Tab.get {} (Tab.get [] lanes l) n = st →
    Tab.get {} (Tab.get [] (putResults n lanes rs) l) n = st
  | [], _, _, h => h.resolve_left List.not_mem_nil
  | r :: rs, lanes, one, h => by
    have rest := get_putResults (n := n) (l := l) rs (Tab.upd [] lanes r.1 fun m => Tab.put {} m n r.2.1.st) fun q hq => one q (List.mem_cons_of_mem _ hq)
    by_cases later : l ∈ rs.map Prod.fst
    · exact rest (.inl later)
    · refine rest (.inr ?_)
      rw [Tab.get_upd]
      split
      · rw [Tab.get_put_same]
        exact one r List.mem_cons_self
      · next other =>
        refine h.resolve_left fun hl => ?_
        rcases List.mem_cons.mp hl with e | hl
        · exact other e
        · exact later hl

/-- A voted result is the loop's shown state and the state of the voting lanes, and leaves the Crossing alone. -/
theorem State.loopTake_takes (s : State) (n : Nat) (rs : List (Nat × LoopOut × Option LMode)) (o : LoopOut) (sup : Option LMode) :
    (s.loopTake n rs o sup).loopSt n = o.st ∧ (s.loopTake n rs o sup).ce.lanes = putResults n s.ce.lanes rs ∧
      (s.loopTake n rs o sup).xng = s.xng := by
  unfold State.loopTake
  extract_lets d s1 lanes _ ce1 ce2 ce3 s2
  have written : SameBut (.ce :: driveParts) s s1 :=
    (SameBut.mono' (s.loopWrite_same n o) rfl).trans (SameBut.mono' (State.delayLine_same _ n o) rfl)
  have before : s1.ce.lanes = s.ce.lanes :=
    (State.lanes_delayLine _ n o).trans (congrArg Ce.lanes (s.loopWrite_same n o .ce (by decide)))
  have put : ce3.lanes = putResults n s.ce.lanes rs := by
    have two : ce2.lanes = ce1.lanes := by
      simp only [ce2]
      split <;> rfl
    have three : ce3.lanes = ce2.lanes := by
      simp only [ce3]
      split <;> rfl
    rw [three, two, ← before]
    rfl
  have reported : State.Reported { s1 with ce := ce3 } s2 := .foldl (fun s e => s.loopEvent_reported n e) o.ev _
  exact ⟨Tab.get_put_same _ _ _ _, reported.lanes.trans put, (reported.same .xng (by decide)).trans (written .xng (by decide))⟩

theorem State.ceSettle_same (s : State) : SameBut [.hdr] s s.ceSettle := SameBut.ite (State.updHd_same s _ _) (SameBut.refl _ s)

end Sys2Proof.Machine
end

section
/-!
PROOF. A voted evaluation gives every voting lane the evaluated state (O22).
-/

namespace Sys2Proof.Machine

/-- An evaluation instant of a loop that runs, while the Crossing votes: the evaluation in the lanes, their vote, and the elected result. -/
theorem exec_loopEvaluation_of_voted {s t : State} {n : Fin 1024} {l : Nat} (used : (s.loop n.val).law ≠ .none) (rate : (s.loop n.val).rate ≠ 5)
    (runs : (s.hd .ce).running = true) (free : s.outerOf n.val = none) (awake : (s.loopSt n.val).mode ≠ .off) (mode : s.xng.mode ≠ .none)
    (voted : s.vote n.val false [] false (s.laneWord n.val) = (t, some l)) :
    exec (.loopEvaluation n [] [] false false) s = .next (t.loopTake n.val (t.votingLanes.map fun l => (l, s.laneComputed n.val l))
      (s.laneComputed n.val l).1 (s.laneComputed n.val l).2).ceSettle := by
  have due : s.outerDue n.val (s.loop n.val) = true := by simp [State.outerDue, rate]
  have counted : s.countChild n.val = s := by simp [State.countChild, free]
  delta State.laneWord State.laneComputed at voted
  delta State.laneComputed
  show execLoopEvaluation n [] [] false false s = _
  rw [execLoopEvaluation]
  simp [used, runs, due, counted, awake, mode, State.readEcc, voted]

/-- Settles O22: the voting lanes read one input and hold one configuration and one state, so they deliver one word, and the elected result is theirs. -/
theorem loopEvaluationCompletes : Obligations.LoopEvaluationCompletes := by
  unfold Obligations.LoopEvaluationCompletes
  intro s n st used rate runs free mode writes kept quorum single agreed awake
  extract_lets o
  have one : ∀ l ∈ s.votingLanes, (s.laneComputed n.val l).1 = o := fun l hl => by
    obtain ⟨held, desc, tabs⟩ := agreed l hl
    exact congrArg Prod.fst (State.laneComputed_of_committed held desc tabs)
  have agree : ∀ l ∈ s.votingLanes, s.laneWord n.val l = loopVoteWord o.st o.a o.b := fun l hl => by rw [State.laneWord, one l hl]
  obtain ⟨l, hl, t, voted, lanes, votes⟩ := State.vote_of_agreed mode writes kept quorum single agree n.val false
  let rs := t.votingLanes.map fun l => (l, s.laneComputed n.val l)
  obtain ⟨shown, put, crossing⟩ := t.loopTake_takes n.val rs (s.laneComputed n.val l).1 (s.laneComputed n.val l).2
  have settled := State.ceSettle_same (t.loopTake n.val rs (s.laneComputed n.val l).1 (s.laneComputed n.val l).2)
  have ce := settled .ce (by decide)
  refine ⟨_, exec_loopEvaluation_of_voted used rate runs free awake mode voted, ?_, fun k hk => ?_, ?_⟩
  · rw [State.loopSt, ce]
    exact shown.trans (congrArg LoopOut.st (one l hl))
  · rw [State.laneLoop, ce, put]
    refine get_putResults rs _ (fun r hr => ?_) (.inl ?_)
    · obtain ⟨j, hj, rfl⟩ := List.mem_map.mp hr
      exact congrArg LoopOut.st (one j (lanes ▸ hj))
    · simpa [rs, lanes] using hk
  · rw [settled .xng (by decide), crossing, votes]

end Sys2Proof.Machine
end

section
/-!
SUPPORT. The control engine's arithmetic where nothing saturates, and its limits (R84, R94).
-/

namespace Sys2Proof.Machine

/-! ### Clamping -/

theorem le_clamp {lo hi m x : Int} (h : m ≤ hi) (g : m ≤ x) : m ≤ clamp lo hi x := by
  unfold clamp
  split
  · omega
  · split <;> assumption

theorem clamp_le {lo hi m x : Int} (h : lo ≤ m) (g : x ≤ m) : clamp lo hi x ≤ m := by
  unfold clamp
  split
  · exact h
  · split <;> omega

/-- A clamped value lies in its range. -/
theorem clamp_bounds {lo hi : Int} (h : lo ≤ hi) (x : Int) : lo ≤ clamp lo hi x ∧ clamp lo hi x ≤ hi := by
  unfold clamp
  split
  · omega
  · split <;> omega

theorem clamp_of_bounds {lo hi x : Int} (h : lo ≤ x) (g : x ≤ hi) : clamp lo hi x = x := by
  rw [clamp, if_neg (Int.not_lt.mpr h), if_neg (Int.not_lt.mpr g)]

/-! ### Saturation (R84) -/

theorem sat40_of_bounds {x : Int} (h : -2 ^ 39 ≤ x) (g : x < 2 ^ 39) : sat40 x = acc x := by
  have kept : satS 40 x = x := clamp_of_bounds (by omega) (by omega)
  simp [sat40, acc, kept]

theorem Acc.v_add {a b : Acc} (h : -2 ^ 39 ≤ a.v + b.v) (g : a.v + b.v < 2 ^ 39) : (a.add b).v = a.v + b.v :=
  congrArg Acc.v (sat40_of_bounds h g)

theorem Acc.v_sub {a b : Acc} (h : -2 ^ 39 ≤ a.v - b.v) (g : a.v - b.v < 2 ^ 39) : (a.sub b).v = a.v - b.v :=
  congrArg Acc.v (sat40_of_bounds h g)

/-- A Q15 value lifted to the accumulator's Q30 is stored as itself. -/
theorem storeQ_lift {u : Int} (h : -32768 ≤ u) (g : u ≤ 32767) : storeQ (u * 2 ^ 15) = acc u := by
  have rounded : (u * 2 ^ 15 + 2 ^ 14) / 2 ^ 15 = u := by omega
  have kept : sat16 u = u := clamp_of_bounds (by omega) (by omega)
  rw [storeQ, rounded]
  simp [satQ, acc, kept]

/-! ### Limits (R94) -/

/-- The output of a computed evaluation is its accumulator value, stored and limited. -/
theorem computeLoop_u (d : LoopDesc) (r y x : Int) (st : LoopState) : (computeLoop d r y x st).u =
    (limits d st.u (storeQ (feedForward d (law d st r y x) st).v).v true).1 := rfl

theorem limits_of_unlimited_rate {d : LoopDesc} (h : d.rateLim = 0) (uPrev v : Int) :
    (limits d uPrev v true).1 = clamp d.outLo d.outHi v := by
  simp [limits, h]

theorem limits_of_limited_rate {d : LoopDesc} (h : d.rateLim ≠ 0) (uPrev v : Int) :
    (limits d uPrev v true).1 = clamp (uPrev - d.rateLim) (uPrev + d.rateLim) (clamp d.outLo d.outHi v) := by
  simp [limits, h]

/-! ### Tracking (R103) -/

/-- The integrator that tracking sets is what the proportional and the derivative part leave of the output. -/
theorem v_trackI {u : Int} {p d : Acc} (hu : -32768 ≤ u ∧ u ≤ 32767) (hp : -2 ^ 37 ≤ p.v ∧ p.v ≤ 2 ^ 37) (hd : -2 ^ 37 ≤ d.v ∧ d.v ≤ 2 ^ 37) :
    (trackI u p d).v = u * 2 ^ 15 - p.v - d.v := by
  obtain ⟨⟨u0, u1⟩, ⟨p0, p1⟩, d0, d1⟩ := And.intro hu (And.intro hp hd)
  have lifted : (sat40 (u * 2 ^ 15)).v = u * 2 ^ 15 := congrArg Acc.v (sat40_of_bounds (by omega) (by omega))
  have lessP : ((sat40 (u * 2 ^ 15)).sub p).v = u * 2 ^ 15 - p.v := by
    rw [Acc.v_sub (by omega) (by omega), lifted]
  rw [trackI, Acc.v_sub (by omega) (by omega), lessP]

end Sys2Proof.Machine
end

section
/-!
PROOF. The limits hold and tracking is bumpless (O23, O24).
-/

namespace Sys2Proof.Machine

/-- Settles O23: without a rate limit the output is clamped to the limits; with one it is clamped to a step about the previous output, which
meets the limits where that output does. -/
theorem outputStaysInLimits : Obligations.OutputStaysInLimits := by
  unfold Obligations.OutputStaysInLimits
  intro d r y x st hl
  dsimp only
  rw [computeLoop_u]
  generalize (storeQ (feedForward d (law d st r y x) st).v).v = v
  obtain ⟨above, below⟩ := clamp_bounds hl v
  refine ⟨fun h => ?_, fun h => ?_⟩
  · rw [limits_of_unlimited_rate h]
    exact ⟨above, below⟩
  · rw [limits_of_limited_rate h]
    have step := clamp_bounds (lo := st.u - d.rateLim) (hi := st.u + d.rateLim) (by omega) (clamp d.outLo d.outHi v)
    exact ⟨step.1, step.2, fun lo hi => ⟨le_clamp (by omega) above, clamp_le (by omega) below⟩⟩

/-- Settles O24: no sum on the way leaves the accumulator's range, so the parts add up to the output's own Q30 value. -/
theorem trackingIsBumpless : Obligations.TrackingIsBumpless := by
  unfold Obligations.TrackingIsBumpless
  intro u p d u0 u1 p0 p1 d0 d1
  have integrator : (acc (trackI u p d).v).v = u * 2 ^ 15 - p.v - d.v := v_trackI ⟨u0, u1⟩ ⟨p0, p1⟩ ⟨d0, d1⟩
  have withP : (p.add (acc (trackI u p d).v)).v = u * 2 ^ 15 - d.v := by
    rw [Acc.v_add (by omega) (by omega), integrator]; omega
  have whole : ((p.add (acc (trackI u p d).v)).add d).v = u * 2 ^ 15 := by
    rw [Acc.v_add (by omega) (by omega), withP]; omega
  rw [whole, storeQ_lift u0 u1]
  rfl

end Sys2Proof.Machine
end

section
/-!
SUPPORT. What an accepted supervisor or ramp request leaves (R118, R122, R131), the header words of a table and the lanes' copies (R128).
-/

namespace Sys2Proof.Machine

/-! ### Requests that wait for the loop's next evaluation -/

/-- From `s` to `t` a request is accepted for loop `n`: `f` adds it to what waits for the loop, CE_SUP_STAT reports result 0 and CE_STATE stays. -/
structure State.Requested (s t : State) (n : Nat) (f : LoopPend → LoopPend) : Prop where
  pend : Tab.get {} t.ce.pend n = f (Tab.get {} s.ce.pend n)
  supLoop : t.ce.supLoop = n
  supResult : t.ce.supResult = 0
  view : t.ce.view = s.ce.view
  same : SameBut [.ce] s t

/-- A request that passes its check is reported with result 0 and waits for the loop's next evaluation. -/
theorem State.requested_updPend (s : State) (n : Nat) (f : LoopPend → LoopPend) :
    s.Requested ({ s with ce := { s.ce with supLoop := n, supResult := 0 } }.updPend n f) n f :=
  ⟨State.get_updPend _ n f, rfl, rfl, rfl, State.setCe_same s _⟩

/-- What a write of CE_SUP_CMD adds to a loop's pending requests: ACK counts where the latch is set. -/
def LoopPend.addSup (ack align latched : Bool) (q : LoopPend) : LoopPend :=
  { q with ack := q.ack || (ack && latched), align := q.align || align }

theorem State.supCmd_requested {s : State} {n : Nat} (used : s.loopUsed n = true) (ack align : Bool) :
    s.Requested (s.supCmd n ack align) n (.addSup ack align (decide ((s.loopSt n).tripSrc ≠ 0))) := by
  simp only [State.supCmd, used, Bool.not_true, Bool.false_eq_true, if_false]
  exact s.requested_updPend n _

/-- A loop in AUTO with a rate, of the request or of its descriptor, accepts a ramp. -/
theorem State.rampCmd_requested {s : State} {n rate : Nat} (auto : (s.loopSt n).mode = .auto) (moves : rate ≠ 0 ∨ (s.loop n).spRamp ≠ 0) :
    s.Requested (s.rampCmd n rate) n (fun q => { q with ramp := some rate }) := by
  have passes : ¬ ((s.loopSt n).mode ≠ .auto ∨ (rate = 0 ∧ (s.loop n).spRamp = 0)) := by
    rintro (other | ⟨still, none⟩)
    · exact other auto
    · exact moves.elim (· still) (· none)
  simp only [State.rampCmd, if_neg passes, ne_eq, not_true_eq_false, if_false]
  exact s.requested_updPend n _

/-! ### Table headers -/

theorem State.setTabHdr_same (s : State) (t k : Nat) (w : Word) : SameBut [.regs] s (s.setTabHdr t k w) := State.setReg_same s _ w

@[simp] theorem State.tabHdr_setTabHdr_same (s : State) (t k : Nat) (w : Word) : (s.setTabHdr t k w).tabHdr t k = w := by
  have place : 0x400 + 32 * t + 4 * k = R.CE_TAB_HDR.off + (32 * t + 4 * k) := Nat.add_assoc _ _ _
  rw [State.setTabHdr, place]
  exact State.reg_setReg_same s _ w

/-! ### Changes of the lanes' copies -/

theorem State.updCfgs_same (s : State) (f : LaneCfg → LaneCfg) : SameBut [.ce] s (s.updCfgs f) := State.setCe_same s _

end Sys2Proof.Machine
end

section
/-!
PROOF. Supervision, ramp and table commands complete (O21).
-/

namespace Sys2Proof.Machine

section
variable {s : State} {p : Principal} {n : Fin 1024}

/-- SUP_ACK of a loop in use waits for its next evaluation, and counts where the latch is set. -/
theorem exec_supAck_requested (ok : s.writeOk .ce 0x300 .wo p = true) (used : s.loopUsed n.val = true) (align : Bool) :
    ∃ t, exec (.supAck p n align) s = .next t ∧ s.Requested t n.val (.addSup true align (decide ((s.loopSt n.val).tripSrc ≠ 0))) :=
  ⟨_, congrArg Host.Outcome.next (State.gated_ok _ _ ok), State.supCmd_requested used true align⟩

theorem exec_supAlign_requested (ok : s.writeOk .ce 0x300 .wo p = true) (used : s.loopUsed n.val = true) :
    ∃ t, exec (.supAlign p n) s = .next t ∧ s.Requested t n.val (.addSup false true (decide ((s.loopSt n.val).tripSrc ≠ 0))) :=
  ⟨_, congrArg Host.Outcome.next (State.gated_ok _ _ ok), State.supCmd_requested used false true⟩

theorem exec_ceRampCmd_requested (ok : s.writeOk .ce 0x308 .wo p = true) (auto : (s.loopSt n.val).mode = .auto) {rate : BitVec 16}
    (moves : rate.toNat ≠ 0 ∨ (s.loop n.val).spRamp ≠ 0) :
    ∃ t, exec (.ceRampCmd p n rate) s = .next t ∧ s.Requested t n.val (fun q => { q with ramp := some rate.toNat }) :=
  ⟨_, congrArg Host.Outcome.next (State.gated_ok _ _ ok), State.rampCmd_requested auto moves⟩

end

/-- CE_TAB_GO of a header with COMMIT set, while no copy runs, sets PEND and starts the copy. -/
theorem ceTabGo_starts {s : State} {p : Principal} {k : Fin 16} (ok : s.writeOk .ce 0x320 .wo p = true) (idle : s.ce.tabBusy = none)
    (commit : bit (s.tabHdr k.val 7) 31 = true) :
    ∃ t, exec (.ceTabGo p k) s = .next t ∧ t.ce = { s.ce with tabBusy := some k.val } ∧ bit (t.tabHdr k.val 7) 30 = true ∧
      SameBut [.ce, .regs] s t := by
  let u := s.setTabHdr k.val 7 (setBit (s.tabHdr k.val 7) 30)
  refine ⟨{ u with ce := { u.ce with tabBusy := some k.val } }, ?_, rfl, ?_,
    (SameBut.mono' (State.setTabHdr_same s _ _ _) rfl).trans (SameBut.mono' (State.setCe_same u _) rfl)⟩
  · refine congrArg Host.Outcome.next ((State.gated_ok _ _ ok).trans ?_)
    simp only [idle, commit, if_true]
    rfl
  · have pend : u.tabHdr k.val 7 = setBit (s.tabHdr k.val 7) 30 := State.tabHdr_setTabHdr_same s _ _ _
    exact (congrArg (bit · 30) pend).trans (bit_setBit_same _ (by decide))

/-- A table that passes its checks waits for the base-frame boundary, and the active tables stay. -/
theorem tabCopyDone_waits {s : State} {k : Nat} (busy : s.ce.tabBusy = some k)
    (passed : (s.tabUnpend k).tabCheck k ((s.tabUnpend k).parseTab k) = 0) :
    ∃ t, exec .tabCopyDone s = .next t ∧ Tab.get none t.ce.tabNext k = some ((s.tabUnpend k).parseTab k) ∧ t.ce.tabs = s.ce.tabs ∧
      SameBut [.ce] s t := by
  let c := (s.tabUnpend k).parseTab k
  let u : State := { s with ce := { s.ce with tabNext := Tab.put none s.ce.tabNext k (some c) } }
  refine ⟨u.updCfgs fun x => x.putTab k c, ?_, Tab.get_put_same none s.ce.tabNext k (some c), rfl, (State.setCe_same s _).trans (State.updCfgs_same u _)⟩
  show execTabCopyDone s = _
  rw [execTabCopyDone, busy]
  simp only [passed, ne_eq, not_true_eq_false, if_false]
  rfl

/-- Settles O21: each request passes its check and waits; the table's commit starts, and its good copy waits for the boundary. -/
theorem supervisionCommandsComplete : Obligations.SupervisionCommandsComplete := by
  unfold Obligations.SupervisionCommandsComplete
  intro s p n
  refine ⟨fun ok used latched align => ?_, fun ok used => ?_, fun ok auto rate moves => ?_, fun k => ceTabGo_starts, fun k => tabCopyDone_waits⟩
  · obtain ⟨t, run, pend, supLoop, supResult, view, same⟩ := exec_supAck_requested ok used align
    exact ⟨t, run, by simp [pend, LoopPend.addSup, latched], supLoop, supResult, view, same⟩
  · obtain ⟨t, run, pend, supLoop, supResult, view, same⟩ := exec_supAlign_requested ok used
    exact ⟨t, run, by simp [pend, LoopPend.addSup], supLoop, supResult, view, same⟩
  · obtain ⟨t, run, pend, _, supResult, view, same⟩ := exec_ceRampCmd_requested ok auto moves
    exact ⟨t, run, by rw [pend], supResult, view, same⟩

end Sys2Proof.Machine
end

section
/-!
SUPPORT. The Crossing through the operations that every block shares, its lanes, and the lanes that vote (R142–R146).
-/

namespace Sys2Proof.Machine

section
variable (s : State)

@[simp] theorem State.xng_updXng (f : Xng → Xng) : (s.updXng f).xng = f s.xng := rfl

@[simp] theorem State.xng_updLane (l : Nat) (f : Lane → Lane) : (s.updLane l f).xng = { s.xng with lanes := Tab.upd {} s.xng.lanes l f } := rfl

@[simp] theorem State.xng_irq (b : Block) (i : Nat) : (s.irq b i).xng = s.xng := State.irq_same s b i .xng (by decide)

@[simp] theorem State.xng_err (b : Block) (e : Nat) : (s.err b e).xng = s.xng := State.err_same s b e .xng (by decide)

@[simp] theorem State.xng_record (b : Block) (inst code : Nat) (ps : List Nat) : (s.record b inst code ps).xng = s.xng :=
  State.record_same s b inst code ps .xng (by decide)

@[simp] theorem State.xng_raise (b : Block) (inst code : Nat) (sev : Severity) : (s.raise b inst code sev).xng = s.xng :=
  State.raise_same s b inst code sev .xng (by decide)

@[simp] theorem State.xng_raiseNoCode (b : Block) (inst : Nat) (sev : Severity) : (s.raiseNoCode b inst sev).xng = s.xng :=
  State.raiseNoCode_same s b inst sev .xng (by decide)

@[simp] theorem State.xng_driveOut (idx : Nat) (v : Int) : (s.driveOut idx v).xng = s.xng := State.driveOut_same s idx v .xng (by decide)

@[simp] theorem State.xng_loopEvt (n b : Nat) : (s.loopEvt n b).xng = s.xng := State.loopEvt_same s n b .xng (by decide)

@[simp] theorem State.xng_laneWarn (l code : Nat) : (s.laneWarn l code).xng = s.xng := by
  unfold State.laneWarn
  split <;> simp

/-- Safe values are written to points and shown by the loop; the Crossing itself stays as it is. -/
@[simp] theorem State.xng_loopSafe (n : Nat) : (s.loopSafe n).xng = s.xng := by
  simp only [State.loopSafe, apply_ite State.xng, State.xng_raise, State.xng_loopEvt, State.xng_record, ite_self]
  cases Tab.get none s.xng.safe n with
  | none => rfl
  | some r =>
    obtain ⟨_, out2, _, _⟩ := r
    cases out2 <;> simp

@[simp] theorem State.xng_itemSafe (item : Nat) (stream : Bool) : (s.itemSafe item stream).xng = s.xng := by
  unfold State.itemSafe
  split <;> simp

/-- A mode update leaves the mode that the lanes give, and the rest of the Crossing alone (R144). -/
@[simp] theorem State.xng_modeUpdate (rolling : Bool) : (s.modeUpdate rolling).xng = { s.xng with mode := s.modeOf } := by
  unfold State.modeUpdate
  dsimp only
  split
  · next same => rw [same]
  · split <;> simp

/-! ### Lanes -/

theorem State.lane_congr {s t : State} (h : t.xng.lanes = s.xng.lanes) (l : Nat) : t.lane l = s.lane l := by rw [State.lane, State.lane, h]

@[simp] theorem State.lane_updLane_same (l : Nat) (f : Lane → Lane) : (s.updLane l f).lane l = f (s.lane l) := by
  simp [State.lane_updLane]

@[simp] theorem State.lane_irq (b : Block) (i l : Nat) : (s.irq b i).lane l = s.lane l := State.lane_congr (by simp) l

@[simp] theorem State.lane_record (b : Block) (inst code : Nat) (ps : List Nat) (l : Nat) : (s.record b inst code ps).lane l = s.lane l :=
  State.lane_congr (by simp) l

@[simp] theorem State.lane_raise (b : Block) (inst code : Nat) (sev : Severity) (l : Nat) : (s.raise b inst code sev).lane l = s.lane l :=
  State.lane_congr (by simp) l

@[simp] theorem State.lane_modeUpdate (rolling : Bool) (l : Nat) : (s.modeUpdate rolling).lane l = s.lane l :=
  State.lane_congr (by simp) l

/-! ### Lanes that vote (R143, R144) -/

/-- A lane whose word counts. -/
def Lane.votes (k : Lane) : Bool := decide (k.state = .voting) && !k.suspect

theorem State.votingLanes_eq : s.votingLanes = (List.range 3).filter fun l => (s.lane l).votes := rfl

theorem State.votingLanes_of_lanes {s t : State} (h : t.xng.lanes = s.xng.lanes) : t.votingLanes = s.votingLanes := by
  simp only [State.votingLanes_eq, State.lane_congr h]

@[simp] theorem State.votingLanes_irq (b : Block) (i : Nat) : (s.irq b i).votingLanes = s.votingLanes := State.votingLanes_of_lanes (by simp)

@[simp] theorem State.votingLanes_record (b : Block) (inst code : Nat) (ps : List Nat) : (s.record b inst code ps).votingLanes = s.votingLanes :=
  State.votingLanes_of_lanes (by simp)

@[simp] theorem State.votingLanes_raise (b : Block) (inst code : Nat) (sev : Severity) : (s.raise b inst code sev).votingLanes = s.votingLanes :=
  State.votingLanes_of_lanes (by simp)

@[simp] theorem State.votingLanes_laneWarn (l code : Nat) : (s.laneWarn l code).votingLanes = s.votingLanes := State.votingLanes_of_lanes (by simp)

/-- A lane that is put out of the vote is missing from the voting lanes, and no other. -/
theorem State.votingLanes_of_leaves {l : Nat} {f : Lane → Lane} (leaves : (f (s.lane l)).votes = false) :
    (s.updLane l f).votingLanes = s.votingLanes.filter (· ≠ l) := by
  rw [State.votingLanes_eq, State.votingLanes_eq, List.filter_filter]
  refine List.filter_congr fun k _ => ?_
  rw [State.lane_updLane]
  by_cases same : k = l <;> simp [same, leaves]

theorem State.votingLanes_updLane_noFlags (l : Nat) : (s.updLane l Lane.noFlags).votingLanes = s.votingLanes :=
  State.votingLanes_congr fun k => by
    rw [State.lane_updLane]
    split
    · next same => subst same; exact ⟨rfl, rfl⟩
    · exact ⟨rfl, rfl⟩

theorem State.votingLanes_toBist (l cause : Nat) : (s.toBist l cause).votingLanes = s.votingLanes.filter (· ≠ l) :=
  s.votingLanes_of_leaves rfl

/-- A faulted lane does not vote, whether it ends FAILED, SUSPECT or in BIST. -/
theorem State.not_mem_votingLanes_faultLane (l cause : Nat) (f : Lane → Lane) : l ∉ (s.faultLane l cause f).votingLanes := by
  have left (t : State) {g : Lane → Lane} (leaves : (g (t.lane l)).votes = false) : l ∉ (t.updLane l g).votingLanes := by
    simp [t.votingLanes_of_leaves leaves]
  unfold State.faultLane
  dsimp only
  split
  · rw [State.votingLanes_raise, State.votingLanes_record]
    exact left _ rfl
  · split
    · exact left _ (by simp [Lane.votes])
    · exact left _ rfl

@[simp] theorem State.mode_faultLane (l cause : Nat) (f : Lane → Lane) : (s.faultLane l cause f).xng.mode = s.xng.mode := by
  unfold State.faultLane
  dsimp only
  split
  · simp
  · split <;> simp [State.toBist]

end

/-! ### What a departure leaves of the other lanes (R153, Table XNG-5) -/

/-- From `s` to `t` no lane enters the vote, and the mode stays. -/
structure State.NoneJoins (s t : State) : Prop where
  voting : t.votingLanes ⊆ s.votingLanes
  mode : t.xng.mode = s.xng.mode

theorem State.NoneJoins.trans {s t u : State} (h : s.NoneJoins t) (g : t.NoneJoins u) : s.NoneJoins u :=
  ⟨fun _ hl => h.voting (g.voting hl), g.mode.trans h.mode⟩

theorem State.NoneJoins.of_lanes {s t : State} (h : t.xng.lanes = s.xng.lanes) (g : t.xng.mode = s.xng.mode) : s.NoneJoins t :=
  ⟨fun _ hl => State.votingLanes_of_lanes h ▸ hl, g⟩

theorem State.NoneJoins.refl (s : State) : s.NoneJoins s := .of_lanes rfl rfl

theorem State.NoneJoins.foldl {α : Type} {f : State → α → State} (h : ∀ s x, State.NoneJoins s (f s x)) :
    ∀ (xs : List α) (s : State), s.NoneJoins (xs.foldl f s)
  | [], s => .refl s
  | x :: xs, s => (h s x).trans (State.NoneJoins.foldl h xs (f s x))

theorem State.NoneJoins.irq {s t : State} (h : s.NoneJoins t) (b : Block) (i : Nat) : s.NoneJoins (t.irq b i) :=
  h.trans (.of_lanes (by simp) (by simp))

theorem State.NoneJoins.of_leaves (s : State) {l : Nat} {f : Lane → Lane} (leaves : (f (s.lane l)).votes = false) : s.NoneJoins (s.updLane l f) :=
  ⟨fun _ hk => (List.mem_filter.mp (s.votingLanes_of_leaves leaves ▸ hk)).1, rfl⟩

theorem State.abortTest_noneJoins (s : State) (l : Nat) : s.NoneJoins (s.abortTest l) := by
  have told {t : State} (h : s.NoneJoins t) (c r d n : Nat) (ps : List Nat) : s.NoneJoins (((t.updXng fun x =>
      { x with testLane := l, testCause := c, testResult := r, testDur := d, nextLane := n }).record .xng 0 0x0A12 ps).irq .xng 9) :=
    (h.trans (.of_lanes (by simp) (by simp))).irq _ _
  refine told ?_ _ _ _ _ _
  split
  · exact .of_leaves s rfl
  · exact .of_leaves s rfl

/-- After a departure tests are aborted and copies restart or end; none of it takes a lane into the vote. -/
theorem State.laneLeft_noneJoins (s : State) : s.NoneJoins s.laneLeft := by
  refine .foldl (fun s l => ?_) _ s
  dsimp only
  split
  · exact s.abortTest_noneJoins l
  · split
    · next copying =>
      refine State.NoneJoins.irq ?_ _ _
      split
      · exact .of_leaves s (by simp [Lane.votes, copying.1])
      · exact .of_leaves s rfl
    · exact .refl s

theorem State.votingLanes_afterLeave_subset (s : State) : s.afterLeave.votingLanes ⊆ s.votingLanes := by
  have settled : s.afterLeave.votingLanes = s.laneLeft.votingLanes := by
    apply State.votingLanes_of_lanes
    simp only [State.afterLeave, apply_ite State.xng, apply_ite Xng.lanes, State.xng_updXng, State.xng_modeUpdate, ite_self]
  rw [settled]
  exact s.laneLeft_noneJoins.voting

end Sys2Proof.Machine
end

section
/-!
PROOF. The vote follows the majority (O27).
-/

namespace Sys2Proof.Machine

/-! ### A lane is outvoted (R143) -/

theorem State.votingLanes_disLog (s : State) (item : Nat) (stream : Bool) (majority : Nat) :
    (s.disLog item stream majority).votingLanes = s.votingLanes := by
  refine State.votingLanes_of_lanes ?_
  unfold State.disLog
  split <;> rfl

theorem State.not_mem_votingLanes_outvote (s : State) (item : Nat) (stream : Bool) (l w majority : Nat) :
    l ∉ (s.outvote item stream l w majority).votingLanes := fun mem => by
  unfold State.outvote at mem
  have before := State.votingLanes_afterLeave_subset _ mem
  rw [State.votingLanes_disLog, State.votingLanes_laneWarn, State.votingLanes_record] at before
  exact s.not_mem_votingLanes_faultLane l 3 _ before

/-! ### No majority (R145, R146) -/

/-- The safe reaction of a Crossing that votes ends in mode NONE. -/
theorem State.mode_safeReact {s : State} (voting : s.xng.mode ≠ .none) (free : s.xng.reacted = false) (writes : s.xng.voterFault = false)
    (cause item : Nat) (stream : Bool) (majority : Nat) : (s.safeReact cause item stream majority).xng.mode = .none := by
  simp [State.safeReact, voting, free, writes, State.modeOf]

theorem State.mode_disagree {s : State} (voting : s.xng.mode ≠ .none) (free : s.xng.reacted = false) (writes : s.xng.voterFault = false)
    (cause item : Nat) (stream : Bool) (ls : List Nat) : (s.disagree cause item stream ls).xng.mode = .none := by
  have faulted : ∀ (ls : List Nat) (t : State), (ls.foldl (fun s l => s.faultLane l 6 id) t).xng.mode = t.xng.mode := fun ls => by
    induction ls with
    | nil => exact fun _ => rfl
    | cons l ls ih => exact fun t => (ih _).trans (t.mode_faultLane l 6 id)
  exact (State.laneLeft_noneJoins _).mode.trans ((faulted ls _).trans (State.mode_safeReact voting free writes _ _ _ _))

/-! ### The rows of Table XNG-2 -/

section
variable {s : State} {w : Nat → Nat} {a b c : Nat} (item : Nat) (stream : Bool)

theorem State.voteWords_of_two (lanes : s.votingLanes = [a, b]) : s.voteWords item stream w =
    if w a = w b then (s, some a) else ((s.itemSafe item stream).disagree 1 item stream [a, b], none) := by
  simp [State.voteWords, lanes]

theorem State.voteWords_of_three (lanes : s.votingLanes = [a, b, c]) : s.voteWords item stream w =
    if w a = w b ∧ w b = w c then (s, some a)
    else if w a = w b then (s.minority item stream c (w c) [a, b], some a)
    else if w a = w c then (s.minority item stream b (w b) [a, c], some a)
    else if w b = w c then (s.minority item stream a (w a) [b, c], some b)
    else ((s.itemSafe item stream).disagree 2 item stream [a, b, c], none) := by
  simp [State.voteWords, lanes]

end

/-- A minority word loses its lane the vote, whichever lane is elected. -/
theorem State.not_mem_votingLanes_minority (s : State) (item : Nat) (stream : Bool) (l v : Nat) (majority : List Nat) :
    l ∉ (s.minority item stream l v majority).votingLanes := by
  rw [State.minority]
  exact State.not_mem_votingLanes_outvote _ item stream l v _

/-- Settles O27: each row of the table elects its lane; the lane in the minority leaves the vote, and without a majority the safe reaction ends it. -/
theorem voteFollowsTheMajority : Obligations.VoteFollowsTheMajority := by
  unfold Obligations.VoteFollowsTheMajority
  intro s item w writes
  have silenced {m : VMode} (hm : m ≠ .none) (cause : Nat) (ls : List Nat) (voting : s.xng.mode = m) (free : s.xng.reacted = false) :
      ((s.itemSafe item false).disagree cause item false ls).xng.mode = .none := by
    refine State.mode_disagree ?_ ?_ ?_ _ _ _ _ <;> simp [voting, hm, free, writes]
  refine ⟨fun three => ?_, fun two differ => ?_⟩
  · rw [State.voteWords_of_three item false three]
    refine ⟨fun h01 h12 => ?_, fun h01 n12 => ?_, fun h02 n01 => ?_, fun h12 n01 => ?_, fun n01 n12 n02 => ?_⟩
    · rw [if_pos ⟨h01, h12⟩]
    · rw [if_neg fun h => n12 h.2, if_pos h01]
      dsimp only
      exact ⟨rfl, State.not_mem_votingLanes_minority _ _ _ _ _ _⟩
    · rw [if_neg fun h => n01 h.1, if_neg n01, if_pos h02]
      dsimp only
      exact ⟨rfl, State.not_mem_votingLanes_minority _ _ _ _ _ _⟩
    · rw [if_neg fun h => n01 h.1, if_neg n01, if_neg fun h => n01 (h.trans h12.symm), if_pos h12]
      dsimp only
      exact ⟨rfl, State.not_mem_votingLanes_minority _ _ _ _ _ _⟩
    · rw [if_neg fun h => n01 h.1, if_neg n01, if_neg n02, if_neg n12]
      dsimp only
      exact ⟨rfl, silenced (by decide) _ _⟩
  · rw [State.voteWords_of_two item false two, if_neg differ]
    dsimp only
    exact ⟨rfl, silenced (by decide) _ _⟩

end Sys2Proof.Machine
end

section
/-!
PROOF. The Crossing's commands and timers complete (O26).
-/

namespace Sys2Proof.Machine

section
variable {s : State} {p : Principal} {l : Fin 3}

/-! ### Commands (R149, R154) -/

theorem length_other_lanes : ∀ l : Fin 3, ([0, 1, 2].filter (· ≠ l.val)).length = 2 := by decide

/-- TEST of one of three voting lanes leaves the other two, which vote in DUAL. -/
theorem exec_xngTest_of_triple (ok : s.writeOk .xng 0x10C .wo p = true) (triple : s.xng.mode = .triple) (voting : s.votingLanes = [0, 1, 2])
    (free : s.xng.reacted = false) (kept : s.xng.lossDue = false) :
    ∃ t, exec (.xngTest p l) s = .next t ∧ (t.lane l.val).state = .bist ∧ (t.lane l.val).cause = 5 ∧ t.xng.mode = .dual := by
  let u := (s.updLane l.val Lane.noFlags).toBist l.val 5
  have run : exec (.xngTest p l) s = .next ((u.irq .xng 9).modeUpdate false) :=
    congrArg Host.Outcome.next ((State.gated_ok _ _ ok).trans (if_pos triple))
  have tested : (u.lane l.val).state = .bist ∧ (u.lane l.val).cause = 5 := by simp [u, State.toBist]
  have left : (u.irq .xng 9).votingLanes.length = 2 := by
    rw [State.votingLanes_irq, State.votingLanes_toBist, State.votingLanes_updLane_noFlags, voting]
    exact length_other_lanes l
  have same : (u.irq .xng 9).xng.reacted = false ∧ (u.irq .xng 9).xng.lossDue = false := by
    rw [u.xng_irq]
    exact ⟨free, kept⟩
  refine ⟨_, run, by simpa using tested.1, by simpa using tested.2, ?_⟩
  simp only [State.xng_modeUpdate, State.modeOf, same, left, Bool.false_eq_true, if_false]

theorem exec_xngTest_of_not_triple (ok : s.writeOk .xng 0x10C .wo p = true) (other : s.xng.mode ≠ .triple) :
    exec (.xngTest p l) s = .next (s.err .xng errTestRefused) :=
  congrArg Host.Outcome.next ((State.gated_ok _ _ ok).trans (if_neg other))

theorem exec_xngRetry_of_failed (ok : s.writeOk .xng 0x10C .wo p = true) (failed : (s.lane l.val).state = .failed) :
    exec (.xngRetry p l) s = .next ((s.toBist l.val 4).irq .xng 9) :=
  congrArg Host.Outcome.next ((State.gated_ok _ _ ok).trans (if_pos failed))

theorem exec_xngRestart_of_halted (ok : s.writeOk .xng 0x10C .wo p = true) (silent : s.xng.mode = .none) (two : 2 ≤ (s.lanesIn .halted).length)
    (agree : s.haltedAgree = true) (c : Bool) : exec (.xngRestart p c) s = .next (s.updXng fun x => { x with restart := true }) :=
  congrArg Host.Outcome.next ((State.gated_ok _ _ ok).trans (if_pos ⟨silent, .inl two, .inl agree⟩))

/-! ### Tests and copies (R149, R151, R152) -/

/-- A test that passes is reported and leaves the lane PASSED, in HALTED as well where no lane is left to copy from. -/
theorem exec_laneBistEnd_of_pass (testing : (s.lane l.val).state = .bist) (unpassed : (s.lane l.val).passed = false) :
    ∃ t, exec (.laneBistEnd l 0) s = .next t ∧ (t.lane l.val).passed = true ∧ (t.lane l.val).bistFail = (s.lane l.val).bistFail ∧
      t.xng.testLane = l.val ∧ t.xng.testResult = 0 := by
  refine ⟨_, rfl, ?_⟩
  have kept (f : Xng → Xng) (h : ∀ x, (f x).lanes = x.lanes) : (s.updXng f).lane l.val = s.lane l.val := State.lane_congr (h _) _
  rw [if_neg (by simp [testing, unpassed])]
  dsimp only
  rw [if_neg (by simp)]
  split
  · split <;> simp [kept]
  · simp [kept]

/-- A test that fails is reported and leaves the lane FAILED. -/
theorem exec_laneBistEnd_of_fail (testing : (s.lane l.val).state = .bist) (unpassed : (s.lane l.val).passed = false) {r : Fin 3} (fails : r ≠ 0) :
    ∃ t, exec (.laneBistEnd l r) s = .next t ∧ (t.lane l.val).state = .failed ∧ (t.lane l.val).bistFail = true ∧ t.xng.testResult = r.val := by
  have nonzero : r.val ≠ 0 := fun h => fails (Fin.ext h)
  refine ⟨_, rfl, ?_⟩
  rw [if_neg (by simp [testing, unpassed])]
  dsimp only
  rw [if_pos nonzero]
  simp

/-- Lanes of one configuration have equal copies of it. -/
theorem State.cfg_eq_of_sameCfg {s : State} {l m : Nat} (same : s.sameCfg l m = true) : s.cfg l = s.cfg m := by
  simp only [State.sameCfg, Bool.and_eq_true, decide_eq_true_eq] at same
  exact same.1.1

theorem State.cfg_updCfg_same (s : State) (l : Nat) (f : LaneCfg → LaneCfg) : (s.updCfg l f).cfg l = f (s.cfg l) :=
  Tab.get_upd_same _ _ _ _

theorem State.updCfg_same (s : State) (l : Nat) (f : LaneCfg → LaneCfg) : SameBut [.ce] s (s.updCfg l f) := State.setCe_same s _

/-- A completed copy is reported, and repairs a configuration that is seen to differ from the source's. -/
theorem exec_laneStateCopyDone_of_copy (copying : (s.lane l.val).state = .copy) (c : Bool) (t10 : Nat) :
    ∃ t, exec (.laneStateCopyDone l c t10) s = .next t ∧ (t.lane l.val).copied = true ∧ t.xng.rejoinLane = l.val ∧
      t.xng.rejoinRepair = (!s.sameCfg l.val (s.lane l.val).copySrc && !c) ∧
      (c = false → t.cfg l.val = s.cfg (s.lane l.val).copySrc) ∧ SameBut [.xng, .ce] s t := by
  let src := (s.lane l.val).copySrc
  let repair := !s.sameCfg l.val src && !c
  let u := if repair then s.updCfg l.val fun _ => s.cfg src else s
  let v := u.updLane l.val fun k => { k with copied := true, copyTime := t10 % 65536, cfgRepair := repair }
  have run : exec (.laneStateCopyDone l c t10) s = .next (v.updXng fun x =>
      { x with rejoinLane := l.val, rejoinRepair := repair, rejoinTime := t10 % 65536 }) :=
    congrArg Host.Outcome.next (if_neg fun other => other copying)
  have copied : (v.lane l.val).copied = true := by simp [v]
  have repaired : c = false → u.cfg l.val = s.cfg src := fun seen => by
    by_cases same : s.sameCfg l.val src = true
    · simp only [u, repair, same, Bool.not_true, Bool.false_and, Bool.false_eq_true, if_false]
      exact State.cfg_eq_of_sameCfg same
    · simp only [u, repair, same, seen, Bool.not_false, Bool.and_self, if_true]
      exact State.cfg_updCfg_same s _ _
  have same : SameBut [.xng, .ce] s u := .ite (SameBut.mono' (State.updCfg_same s _ _) rfl) (.refl _ s)
  exact ⟨_, run, copied, rfl, rfl, repaired, (same.trans (SameBut.mono' (State.updXng_same u _) rfl)).trans (SameBut.mono' (State.updXng_same v _) rfl)⟩

/-! ### Timers (R148, R150) -/

theorem exec_fltDecayExpiry_of_voting (voting : (s.lane l.val).state = .voting) :
    exec (.fltDecayExpiry l) s = .next (s.updLane l.val fun k => { k with fltCnt := k.fltCnt - 1 }) :=
  congrArg Host.Outcome.next (if_pos voting)

theorem exec_rollingTestDue_of_running (running : (s.hd .xng).running = true) :
    exec .rollingTestDue s = .next (s.updXng fun x => { x with due := true }) :=
  congrArg Host.Outcome.next (if_pos running)

theorem exec_rollingTestOverdue_of_due (due : s.xng.due = true) (first : s.xng.overdue = false) :
    exec .rollingTestOverdue s = .next ((s.updXng fun x => { x with overdue := true }).raiseNoCode .xng 0 .warn) :=
  congrArg Host.Outcome.next (if_pos (by simp [due, first]))

end

/-- Settles O26: each command passes its check, and each timer finds its lane or test as it expects it. -/
theorem crossingCommandsComplete : Obligations.CrossingCommandsComplete := by
  unfold Obligations.CrossingCommandsComplete
  intro s p l
  refine ⟨exec_xngTest_of_triple, fun ok other => ⟨_, exec_xngTest_of_not_triple ok other, by simp, ?_⟩,
    fun ok failed => ⟨_, exec_xngRetry_of_failed ok failed, by simp [State.toBist], by simp [State.toBist], by simp [State.toBist]⟩,
    fun ok silent two agree c => ⟨_, exec_xngRestart_of_halted ok silent two agree c, rfl, State.updXng_same s _⟩,
    fun testing unpassed => ⟨exec_laneBistEnd_of_pass testing unpassed, fun _ => exec_laneBistEnd_of_fail testing unpassed⟩,
    exec_laneStateCopyDone_of_copy,
    fun voting => ⟨_, exec_fltDecayExpiry_of_voting voting, by simp, State.updXng_same s _⟩,
    exec_rollingTestDue_of_running,
    fun due first => ⟨_, exec_rollingTestOverdue_of_due due first, by simp⟩⟩
  rw [State.hd_err_same]
  rfl

end Sys2Proof.Machine
end

section
/-!
SUPPORT. The recipe sequencer through the operations that every block shares, and its streams (R159–R161).
-/

namespace Sys2Proof.Machine

/-! ### Tables of streams -/

theorem Tab.lt_of_above {α : Type} {k : Nat} : ∀ {t : Tab α}, Tab.above k t = true → ∀ e ∈ t, k < e.1
  | (j, v) :: t, h, e, he => by
    simp only [Tab.above, Bool.and_eq_true, decide_eq_true_eq] at h
    rcases List.mem_cons.mp he with rfl | he
    · exact h.1
    · exact Tab.lt_of_above h.2 e he

/-- A table in canonical form lists each key once. -/
theorem Tab.nodup_keys {α : Type} [DecidableEq α] {d : α} : ∀ {t : Tab α}, Tab.wf d t = true → (t.map Prod.fst).Nodup
  | [], _ => List.nodup_nil
  | (j, v) :: t, h => by
    simp only [Tab.wf, Bool.and_eq_true] at h
    obtain ⟨⟨_, above⟩, rest⟩ := h
    refine List.nodup_cons.mpr ⟨fun mem => ?_, Tab.nodup_keys rest⟩
    obtain ⟨e, he, same⟩ := List.mem_map.mp mem
    exact absurd same (Nat.ne_of_gt (Tab.lt_of_above above e he))

/-! ### Streams -/

section
variable (s : State)

theorem State.stream_congr {s t : State} (h : t.rsq.streams = s.rsq.streams) (n : Nat) : t.stream n = s.stream n := by
  rw [State.stream, State.stream, h]

@[simp] theorem State.stream_updStream_same (n : Nat) (f : Stream → Stream) : (s.updStream n f).stream n = f (s.stream n) := Tab.get_upd_same _ _ _ _

theorem State.stream_updStream_ne {n m : Nat} (f : Stream → Stream) (h : m ≠ n) : (s.updStream n f).stream m = s.stream m := Tab.get_upd_ne _ _ _ h

theorem State.updStream_same (n : Nat) (f : Stream → Stream) : SameBut [.rsq] s (s.updStream n f) := State.updRsq_same s _

/-- A change of several streams, each once, changes each of them and no other. -/
theorem State.stream_foldl_updStream (f : Stream → Stream) (m : Nat) : ∀ {ns : List Nat} (s : State), ns.Nodup →
    (ns.foldl (fun s n => s.updStream n f) s).stream m = if m ∈ ns then f (s.stream m) else s.stream m
  | [], _, _ => rfl
  | n :: ns, s, distinct => by
    obtain ⟨fresh, distinct⟩ := List.nodup_cons.mp distinct
    rw [List.foldl_cons, State.stream_foldl_updStream f m _ distinct]
    by_cases same : m = n
    · simp [same, fresh]
    · simp [same, State.stream_updStream_ne]

theorem State.nodup_streamsWhere {s : State} (wf : Tab.wf {} s.rsq.streams = true) (f : Stream → Bool) : (s.streamsWhere f).Nodup :=
  (Tab.nodup_keys wf).sublist (List.filter_sublist.map _)

/-- A stream that is not as reset leaves it is listed. -/
theorem State.mem_streamsWhere {s : State} {n : Nat} {f : Stream → Bool} (used : s.stream n ≠ {}) (h : f (s.stream n) = true) :
    n ∈ s.streamsWhere f := by
  have listed := (Tab.get_eq_or_mem ({} : Stream) s.rsq.streams n).resolve_left used
  exact List.mem_map.mpr ⟨_, List.mem_filter.mpr ⟨listed, h⟩, rfl⟩

/-! ### Shared operations -/

@[simp] theorem State.rsq_irq (b : Block) (i : Nat) : (s.irq b i).rsq = s.rsq := State.irq_same s b i .rsq (by decide)

@[simp] theorem State.rsq_routeEvt (b : Block) (k i : Nat) : (s.routeEvt b k i).rsq = s.rsq := State.routeEvt_same s b k i .rsq (by decide)

@[simp] theorem State.rsq_evalMet : s.evalMet.rsq = s.rsq := State.evalMet_same s .rsq (by decide)

@[simp] theorem State.rsq_err (b : Block) (e : Nat) : (s.err b e).rsq = s.rsq := State.err_same s b e .rsq (by decide)

@[simp] theorem State.rsq_record (b : Block) (inst code : Nat) (ps : List Nat) : (s.record b inst code ps).rsq = s.rsq :=
  State.record_same s b inst code ps .rsq (by decide)

/-! ### What the sequencer reads -/

/-- Points are read from the directory, cold ones while MEM runs. -/
theorem State.readPoint_congr {s t : State} (ptd : t.ptd = s.ptd) (running : (t.hd .mem).running = (s.hd .mem).running) (idx : Nat) :
    t.readPoint idx = s.readPoint idx := by
  have same := State.point_congr (congrArg Ptd.act ptd) idx
  rw [State.readPoint, State.readPoint, State.entry, State.entry, same, ptd, running]

theorem State.entryWords_congr {s t : State} (mem : t.mem = s.mem) (base k : Nat) : t.entryWords base k = s.entryWords base k := by
  simp only [State.entryWords, State.mem32_congr mem]

/-- VALID depends on the stream's window, memory and its mapping (R163). -/
theorem State.stepValid_congr {s t : State} {n : Nat} (win : (t.stream n).win = (s.stream n).win) (mem : t.mem = s.mem) (mapped : t.msdram = s.msdram)
    (k : Nat) : t.stepValid n k = s.stepValid n k := by
  have word (o : Nat) : (t.stream n).word o = (s.stream n).word o := congrArg (Tab.get 0 · o) win
  have count : (t.stream n).stepCount = (s.stream n).stepCount := congrArg (bits · 15 0) (word _)
  have base : (t.stream n).actBase = (s.stream n).actBase := by rw [Stream.actBase, Stream.actBase, word, word]
  rw [State.stepValid, State.stepValid]
  rw [count, base, inSdram, inSdram, mapped, State.mem32_congr mem]

end

end Sys2Proof.Machine
end

section
/-!
PROOF. Stream commands that Table RSQ-10 lists are accepted and wait (O28).
-/

namespace Sys2Proof.Machine

section
variable {s : State} {p : Principal} {n : Nat} {c : SCmd}

/-- A listed command passes where evaluations are allowed and the step that it enters is VALID (R172, R178). -/
theorem State.streamCheck_of_listed (loaded : s.rsq.loading = false) (voting : s.xng.mode ≠ .none) (listed : cmdListed c (s.stream n).state = true)
    (start : ∀ k, c = .start k → s.stepValid n k = true)
    (park : c = .park → (s.stream n).state = .resumePending → s.stepValid n (s.stream n).parkStep = true) : s.streamCheck n c = 0 := by
  have ready : s.rsqReady = true := decide_eq_true voting
  delta State.streamCheck
  cases c with
  | start k => simp [loaded, ready, listed, start k rfl]
  | park => simpa [loaded, ready, listed, errStepInvalid] using park rfl
  | _ => simp [loaded, ready, listed]

theorem State.streamCmd_of_checked (ok : s.writeOk .rsq 0x100 .wo p = true) (checked : s.streamCheck n c = 0) :
    s.streamCmd p n c = (s.updStream n fun x => { x with cmds := x.cmds ++ [c] }).updRsq fun r => { r with cmdStream := n, cmdResult := 0 } := by
  delta State.streamCmd
  dsimp only
  rw [State.gated_ok _ _ ok]
  simp [checked, State.streamStat]

/-- An accepted command waits behind those accepted before it (log 70), and nothing else changes. -/
theorem State.streamCmd_waits (ok : s.writeOk .rsq 0x100 .wo p = true) (checked : s.streamCheck n c = 0) :
    ∃ t, (.next (s.streamCmd p n c) : Out) = .next t ∧ t.stream n = { s.stream n with cmds := (s.stream n).cmds ++ [c] } ∧
      t.rsq.cmdStream = n ∧ t.rsq.cmdResult = 0 ∧ SameBut [.rsq] s t := by
  have own := s.stream_updStream_same n fun x => { x with cmds := x.cmds ++ [c] }
  rw [State.streamCmd_of_checked ok checked]
  exact ⟨_, rfl, own, rfl, rfl, (State.updStream_same s n _).trans (State.updRsq_same _ _)⟩

end

/-- Settles O28: each command is listed for the states of its clause, so it passes its check and waits. -/
theorem streamCommandsAccepted : Obligations.StreamCommandsAccepted := by
  unfold Obligations.StreamCommandsAccepted
  intro s p n ok loaded voting st ended accepted
  have waits {c : SCmd} {q : SState} (h : (s.stream n.val).state = q) (listed : cmdListed c q = true) (start : ∀ k, c = .start k → s.stepValid n.val k = true)
      (park : c = .park → (s.stream n.val).state = .resumePending → s.stepValid n.val (s.stream n.val).parkStep = true) :=
    State.streamCmd_waits ok (State.streamCheck_of_listed loaded voting (h ▸ listed) start park)
  refine ⟨fun k rest valid => ?start, fun h => ?hold, fun h => ?resume, fun h => waits h rfl nofun nofun, fun h => ?abort, fun h => ?park, fun h => ?reset,
    fun h => ⟨waits h rfl nofun nofun, waits h rfl nofun nofun⟩⟩
  case start =>
    have entered (j : Nat) (same : SCmd.start k.toNat = .start j) : s.stepValid n.val j = true := SCmd.start.inj same ▸ valid
    rcases rest with h | h | h | h | h | h <;> exact waits h rfl entered nofun
  case hold | resume => rcases h with h | h <;> exact waits h rfl nofun nofun
  case abort | reset => rcases h with h | h | h | h <;> exact waits h rfl nofun nofun
  case park =>
    rcases h with h | h | h | ⟨h, valid⟩
    · exact waits h rfl nofun fun _ pending => nomatch h.symm.trans pending
    · exact waits h rfl nofun fun _ pending => nomatch h.symm.trans pending
    · exact waits h rfl nofun fun _ pending => nomatch h.symm.trans pending
    · exact waits h rfl nofun fun _ _ => valid

end Sys2Proof.Machine
end

section
/-!
SUPPORT. Words in memory, and the report of a step commit (R162, R184).
-/

namespace Sys2Proof.Machine

/-! ### Words in memory -/

theorem Tab.putList_append {α : Type} [DecidableEq α] (d : α) : ∀ (vs ws : List α) (t : Tab α) (k : Nat),
    Tab.putList d t k (vs ++ ws) = Tab.putList d (Tab.putList d t k vs) (k + vs.length) ws
  | [], _, _, _ => rfl
  | v :: vs, ws, t, k => by
    rw [List.cons_append, Tab.putList, Tab.putList_append d vs, List.length_cons, Nat.add_assoc, Nat.add_comm 1]
    rfl

theorem Tab.getList_congr {α : Type} {d : α} {t u : Tab α} : ∀ {n k : Nat}, (∀ j, j < k + n → Tab.get d t j = Tab.get d u j) →
    Tab.getList d t k n = Tab.getList d u k n
  | 0, _, _ => rfl
  | n + 1, k, h => by
    have rest : Tab.getList d t (k + 1) n = Tab.getList d u (k + 1) n := Tab.getList_congr fun j hj => h j (by omega)
    rw [Tab.getList, Tab.getList, h k (by omega), rest]

theorem State.store_nil (s : State) (a : Nat) : s.store a [] = s := rfl

theorem State.store_append (s : State) (a : Nat) (bs cs : List Byte) : s.store a (bs ++ cs) = (s.store a bs).store (a + bs.length) cs :=
  congrArg (fun m => { s with mem := m }) (Tab.putList_append 0 bs cs s.mem a)

/-- A word below the bytes of a store keeps its value. -/
theorem State.mem32_store_of_le (s : State) {a x : Nat} (bs : List Byte) (h : x + 4 ≤ a) : (s.store a bs).mem32 x = s.mem32 x := by
  have kept : Tab.getList 0 (s.store a bs).mem x 4 = Tab.getList 0 s.mem x 4 :=
    Tab.getList_congr fun j hj => Tab.get_putList_out 0 bs s.mem a j (.inl (by omega))
  rw [State.mem32, State.mem32, kept]

/-- Words stored one after the other are read back. -/
theorem State.mem32_store_words (ws : List Word) (s : State) (a : Nat) {j : Nat} (h : j < ws.length) :
    (s.store a (ws.flatMap wordBytes)).mem32 (a + 4 * j) = nth 0 ws j := by
  induction ws generalizing s a j with
  | nil => exact absurd h (Nat.not_lt_zero j)
  | cons w ws ih =>
    have split : s.store a ((w :: ws).flatMap wordBytes) = (s.store32 a w).store (a + 4) (ws.flatMap wordBytes) := State.store_append s a (wordBytes w) _
    rw [split]
    cases j with
    | zero =>
      rw [State.mem32_store_of_le _ _ (by omega)]
      exact State.mem32_store32 s a w
    | succ j =>
      rw [show a + 4 * (j + 1) = a + 4 + 4 * j by omega]
      exact ih _ _ (Nat.lt_of_succ_lt_succ h)

/-! ### The report of a step commit -/

section
variable (s : State) (n k r : Nat)

@[simp] theorem State.rsq_stepResult :
    (s.stepResult n k r).rsq = { s.rsq with stepBusy := none, stepStream := n, stepNo := k, stepResult := r } := by
  unfold State.stepResult
  dsimp only
  split <;> simp [State.updRsq]

theorem State.stepResult_same : SameBut [.rsq, .evr, .hdr, .hts, .out] s (s.stepResult n k r) := by
  have told (t : State) (code : Nat) (ps : List Nat) : SameBut [.rsq, .evr, .hdr, .hts, .out] t ((t.record .rsq 0 code ps).irq .rsq 8) :=
    (SameBut.mono' (State.record_same t _ _ _ _) rfl).trans (SameBut.mono' (State.irq_same _ _ _) rfl)
  have changed (f : Rsq → Rsq) : SameBut [.rsq, .evr, .hdr, .hts, .out] s (s.updRsq f) := SameBut.mono' (State.updRsq_same s f) rfl
  exact SameBut.ite ((changed _).trans (told _ _ _)) ((changed _).trans ((SameBut.mono' (State.err_same _ _ _) rfl).trans (told _ _ _)))

/-- Every report sets STEP_DONE. -/
theorem State.stepDone_stepResult : bit ((s.stepResult n k r).hd .rsq).irqRaw 8 = true := by
  unfold State.stepResult
  dsimp only
  split <;> rw [State.hd_irq_same] <;> exact bit_setBit_same _ (by decide)

theorem State.errCode_stepResult {r : Nat} (refused : r ≠ 0) : ((s.stepResult n k r).hd .rsq).errCode = 0x0B00 + r := by
  rw [State.stepResult, if_neg refused, State.hd_irq_same, State.hd_record _ _ _ _ _ (by decide), State.hd_err_same]
  rfl

end

end Sys2Proof.Machine
end

section
/-!
PROOF. A step commit copies the checked entry or refuses it (O30).
-/

namespace Sys2Proof.Machine

/-! ### RSQ_STEP_GO -/

/-- A GO of an entry in mapped memory with COMMIT set, while no commit runs, sets PEND and starts the commit. -/
theorem rsqStepGo_starts {s : State} {p : Principal} {n : Fin 64} {k : BitVec 16} (ok : s.writeOk .rsq 0x108 .wo p = true)
    (loaded : s.rsq.loading = false) (idle : s.rsq.stepBusy = none) (mapped : inSdram s (stepAddr (s.stream n.val).editBase k.toNat) 64 = true)
    (commit : bit (s.mem32 (stepAddr (s.stream n.val).editBase k.toNat + 28)) 31 = true) :
    ∃ t, exec (.rsqStepGo p n k) s = .next t ∧ t.rsq = { s.rsq with stepBusy := some (n.val, k.toNat) } ∧
      t.mem32 (stepAddr (s.stream n.val).editBase k.toNat + 28) = setBit (s.mem32 (stepAddr (s.stream n.val).editBase k.toNat + 28)) 30 ∧
      SameBut [.rsq, .mem] s t := by
  let a := stepAddr (s.stream n.val).editBase k.toNat + 28
  let u := s.store32 a (setBit (s.mem32 a) 30)
  refine ⟨u.updRsq fun q => { q with stepBusy := some (n.val, k.toNat) }, ?_, rfl, State.mem32_store32 s a _,
    (SameBut.mono' (State.store_same s _ _) rfl).trans (SameBut.mono' (State.updRsq_same u _) rfl)⟩
  refine congrArg Host.Outcome.next ((State.gated_ok _ _ ok).trans ?_)
  simp only [loaded, idle, mapped, commit, Bool.false_eq_true, Bool.not_true, if_false, if_true]
  rfl

/-! ### STEP_COMMIT_DONE -/

/-- An entry's words with W7[31:29] as `w7` has them. -/
def withFlags (ws : List Word) (w7 : Word) : List Word := ws.take 7 ++ [w7] ++ ws.drop 8

theorem nth_withFlags_of_lt {ws : List Word} (w7 : Word) {j : Nat} (full : 7 ≤ ws.length) (h : j < 7) : nth 0 (withFlags ws w7) j = nth 0 ws j := by
  simp [nth, withFlags, List.getElem?_append, h, full, Nat.lt_of_lt_of_le h full]

theorem nth_withFlags_seven {ws : List Word} (w7 : Word) (full : 7 ≤ ws.length) : nth 0 (withFlags ws w7) 7 = w7 := by
  simp [nth, withFlags, full]

section
variable (s : State) (n k : Nat)

/-- The words of the editing entry whose commit is in progress. -/
def State.editWords : List Word := s.entryWords (s.stream n).editBase k

@[simp] theorem State.length_editWords : (s.editWords n k).length = 16 := by simp [State.editWords, State.entryWords]

/-- The first check of Table RSQ-15 that the editing entry fails, or 0. -/
def State.stepCode : Nat :=
  s.stepCheck n k (withFlags (s.editWords n k) (nth 0 (s.editWords n k) 7 &&& 0x1FFFFFFF)) (s.actWords (s.stream n).editBase (s.editWords n k))

/-- The last word of an entry in use: VALID set, COMMIT and PEND clear (R162). -/
def State.validFlags : Word := setBit (nth 0 (s.editWords n k) 7 &&& 0x1FFFFFFF) 29

/-- The entry and its action records copied into the active area. -/
def State.stepCopy : State :=
  (((s.clearCommit (stepAddr (s.stream n).editBase k + 28)).store (stepAddr (s.stream n).actBase k)
      ((withFlags (s.editWords n k) (s.validFlags n k)).flatMap wordBytes)).store
    (actAddr (s.stream n).actBase (stepField (s.editWords n k) 5 15 0))
    (((s.actWords (s.stream n).editBase (s.editWords n k)).flatMap fun a => [a.1, a.2]).flatMap wordBytes))

/-- An entry without action records: its words alone are copied. -/
theorem State.mem32_stepCopy (none : stepField (s.editWords n k) 5 21 16 = 0) {j : Nat} (h : j < 16) :
    (s.stepCopy n k).mem32 (stepAddr (s.stream n).actBase k + 4 * j) = nth 0 (withFlags (s.editWords n k) (s.validFlags n k)) j := by
  have empty : s.actWords (s.stream n).editBase (s.editWords n k) = [] := by simp [State.actWords, none]
  rw [State.stepCopy, empty, List.flatMap_nil, List.flatMap_nil, State.store_nil]
  exact State.mem32_store_words _ _ _ (by simpa [withFlags] using h)

end

section
variable {s : State} {n k : Nat}

/-- The end of a commit: refused with its code, refused where the active area is not mapped, or copied. -/
theorem exec_stepCommitDone (busy : s.rsq.stepBusy = some (n, k)) :
    exec .stepCommitDone s = .next (
      if s.stepCode n k ≠ 0 then (s.clearCommit (stepAddr (s.stream n).editBase k + 28)).stepResult n k (s.stepCode n k)
      else if !inSdram s (stepAddr (s.stream n).actBase k) 64 then
        (s.clearCommit (stepAddr (s.stream n).editBase k + 28)).stepResult n k errBlockAbsent
      else (s.stepCopy n k).stepResult n k 0) := by
  show execStepCommitDone s = _
  rw [execStepCommitDone]
  rw [busy]
  rfl

/-- Every commit ends in a report; what it did before the report is done in memory alone. -/
theorem stepCommitDone_reports (busy : s.rsq.stepBusy = some (n, k)) : ∃ u r, exec .stepCommitDone s = .next (u.stepResult n k r) ∧ u.rsq = s.rsq ∧
    (s.stepCode n k ≠ 0 → r = s.stepCode n k) ∧
    (s.stepCode n k = 0 → inSdram s (stepAddr (s.stream n).actBase k) 64 = true → r = 0 ∧ u = s.stepCopy n k) := by
  rw [exec_stepCommitDone busy]
  by_cases failed : s.stepCode n k ≠ 0
  · rw [if_pos failed]
    exact ⟨_, _, rfl, rfl, fun _ => rfl, fun passed => absurd passed failed⟩
  · rw [if_neg failed]
    by_cases mapped : inSdram s (stepAddr (s.stream n).actBase k) 64 = true
    · rw [if_neg (by simp [mapped])]
      exact ⟨_, _, rfl, rfl, fun h => absurd h failed, fun _ _ => ⟨rfl, rfl⟩⟩
    · rw [if_pos (by simp [mapped])]
      exact ⟨_, _, rfl, rfl, fun h => absurd h failed, fun _ h => absurd h mapped⟩

end

/-- Settles O30: a GO starts the commit; its end reports in every case, and copies the entry where the check passes. -/
theorem stepCommitCopiesOrRefuses : Obligations.StepCommitCopiesOrRefuses := by
  unfold Obligations.StepCommitCopiesOrRefuses
  refine ⟨fun s p n k ok loaded idle => rsqStepGo_starts ok loaded idle, fun s n k busy => ?_⟩
  obtain ⟨u, r, run, kept, refused, passed⟩ := stepCommitDone_reports busy
  have report := u.rsq_stepResult n k r
  rw [kept] at report
  refine ⟨_, run, by rw [report], by rw [report], by rw [report], by rw [report], u.stepDone_stepResult n k r, fun failed _ => ?_, fun check mapped => ?_⟩
  · obtain rfl := refused failed
    exact ⟨by rw [report]; rfl, u.errCode_stepResult n k failed⟩
  · obtain ⟨rfl, rfl⟩ := passed check mapped
    have copied (none : stepField (s.editWords n k) 5 21 16 = 0) {j : Nat} (h : j < 16) :=
      (State.mem32_congr (State.stepResult_same _ n k 0 .mem (by decide)) _).trans (s.mem32_stepCopy n k none h)
    refine ⟨by rw [report], fun none j h => ?_, fun none => ?_⟩
    · exact (copied none (by omega)).trans (nth_withFlags_of_lt _ (by simp) h)
    · have last := (copied none (j := 7) (by decide)).trans (nth_withFlags_seven _ (by simp))
      exact (congrArg (bit · 29) last).trans (bit_setBit_same _ (by decide))

end Sys2Proof.Machine
end

section
/-!
SUPPORT. Streams through the operations that every block shares and through their own events (R183), and the gate of the window (R182).
-/

namespace Sys2Proof.Machine

section
variable (s : State)

@[simp] theorem State.stream_irq (b : Block) (i m : Nat) : (s.irq b i).stream m = s.stream m := State.stream_congr (by simp) m

@[simp] theorem State.stream_evalMet (m : Nat) : s.evalMet.stream m = s.stream m := State.stream_congr (by simp) m

@[simp] theorem State.stream_record (b : Block) (inst code : Nat) (ps : List Nat) (m : Nat) : (s.record b inst code ps).stream m = s.stream m :=
  State.stream_congr (by simp) m

@[simp] theorem State.stream_rsqEvt (n m : Nat) : (s.rsqEvt n).stream m = s.stream m := State.stream_congr (by simp [State.rsqEvt, State.updRsq]) m

@[simp] theorem State.stream_rsqAlm (n m : Nat) : (s.rsqAlm n).stream m = s.stream m := State.stream_congr (by simp [State.rsqAlm, State.updRsq]) m

/-- A refused check leaves its reason and parameter in the stream (R180). -/
theorem State.stream_refuseResume (n reason param : Nat) :
    (s.refuseResume n reason param).stream n = { s.stream n with reason := reason, param := param, check := .ended } := by
  simp [State.refuseResume]

end

theorem State.gatedMem_ok {s : State} {b : Block} {p : Principal} {lockable : Bool} (addr : Nat) (v : Word) (f : State → State)
    (present : s.present b = true) (permitted : s.permits p b.code = true) (free : ((s.hd b).lock && lockable) = false) :
    s.gatedMem b addr lockable p v f = f s := by
  simp [State.gatedMem, present, permitted, free]

/-- The configuration words of the window lie below 0x100 (Table RSQ-13). -/
theorem lt_of_winMask {o : Nat} (listed : winMask o ≠ none) : o < 0x100 := by
  refine Decidable.byContradiction fun high => listed ?_
  simp only [winMask]
  repeat rw [if_neg (by omega)]

end Sys2Proof.Machine
end

section
/-!
PROOF. Resume, prefetch and window commands complete (O32).
-/

namespace Sys2Proof.Machine

section
variable {s : State} {p : Principal} {n : Fin 64}

/-! ### The resume check (R179, R180) -/

/-- A GO makes the check due of every pending stream that none has checked, each once. -/
theorem rsqResumeGo_due (ok : s.writeOk .rsq 0x110 .w1s p = true) (loaded : s.rsq.loading = false) (pending : (s.stream n.val).state = .resumePending)
    (unchecked : (s.stream n.val).check = .none) (wf : Tab.wf {} s.rsq.streams = true) :
    ∃ t, exec (.rsqResumeGo p) s = .next t ∧ t.stream n.val = { s.stream n.val with check := .due false } ∧ SameBut [.rsq] s t := by
  let due : Stream → Bool := fun x => decide (x.state = .resumePending) && decide (x.check = .none)
  let ns := s.streamsWhere due
  have run : exec (.rsqResumeGo p) s = .next (ns.foldl (fun s n => s.updStream n fun x => { x with check := .due false }) s) :=
    congrArg Host.Outcome.next ((State.gated_ok _ _ ok).trans (if_neg (by simp [loaded])))
  have listed : n.val ∈ ns := State.mem_streamsWhere (fun unused => by simp [unused] at pending) (by simp [due, pending, unchecked])
  have distinct : ns.Nodup := State.nodup_streamsWhere wf due
  exact ⟨_, run, (State.stream_foldl_updStream _ _ s distinct).trans (if_pos listed), SameBut.foldl (fun s n => s.updStream_same n _) ns s⟩

/-- The wait expires with a critical slot that is not usable. -/
theorem exec_resumeWaitExpiry_of_unusable {b j : Nat} (waiting : (s.stream n.val).check = .waiting) (newest : s.newestCkpt n.val = some b)
    (unusable : (critical (s.stream n.val) (s.ckptWords n.val b)).find? (fun j => !usable (s.readPoint ((s.stream n.val).slotPt j)).q) = some j) :
    exec (.resumeWaitExpiry n) s = .next (s.refuseResume n.val 0x0C (slotParam (s.stream n.val) j)) := by
  show execResumeWaitExpiry n s = _
  rw [execResumeWaitExpiry]
  simp only [waiting, newest, unusable]

/-! ### The window (R166, R182) -/

theorem exec_stflagSet_of_permitted (present : s.present .rsq = true) (permitted : s.permits p 11 = true) (loaded : s.rsq.loading = false) (m : Word) :
    exec (.stflagSet p n m) s = .next (s.updStream n.val fun x => { x with stflag := x.stflag ||| m }) :=
  congrArg Host.Outcome.next ((State.gatedMem_ok _ _ _ present permitted (Bool.and_false _)).trans (if_neg (by simp [loaded])))

section
variable (present : s.present .rsq = true) (permitted : s.permits p 11 = true) (free : (s.hd .rsq).lock = false) (loaded : s.rsq.loading = false)
  {off : Fin 1024}
include present permitted free loaded

theorem streamWindowWrite_variable (low : 128 ≤ off.val) (high : off.val < 192) (v : Word) :
    ∃ t, exec (.streamWindowWrite p n off v) s = .next t ∧ (t.stream n.val).var (off.val - 128) = v ∧ SameBut [.rsq] s t := by
  have run : exec (.streamWindowWrite p n off v) s =
      .next (s.updStream n.val fun x => { x with vars := Tab.put 0 x.vars ((4 * off.val - 0x200) / 4) v }) :=
    congrArg Host.Outcome.next ((State.gatedMem_ok _ _ _ present permitted (by simp [free])).trans
      ((if_neg (by simp [loaded])).trans (if_pos (by omega))))
  have number : off.val - 128 = (4 * off.val - 0x200) / 4 := by omega
  refine ⟨_, run, ?_, s.updStream_same n.val _⟩
  rw [State.stream_updStream_same, number]
  exact Tab.get_put_same _ _ _ _

/-- A configuration word of a stream at rest takes the bits of its mask. -/
theorem streamWindowWrite_config {m v : Word} (mask : winMask (4 * off.val) = some m) (range : winRange (4 * off.val) v = true) (other : off.val ≠ 0)
    (idle : (s.stream n.val).state = .idle) :
    ∃ t, exec (.streamWindowWrite p n off v) s = .next t ∧ (t.stream n.val).word (4 * off.val) = v &&& m ∧ SameBut [.rsq] s t := by
  have config := lt_of_winMask (o := 4 * off.val) (by simp [mask])
  have run : exec (.streamWindowWrite p n off v) s = .next (s.updStream n.val fun x => { x with win := Tab.put 0 x.win (4 * off.val) (v &&& m) }) := by
    refine congrArg Host.Outcome.next ((State.gatedMem_ok _ _ _ present permitted (by simp [free])).trans
      ((if_neg (by simp [loaded])).trans ((if_neg (by omega)).trans ((if_neg (by omega)).trans ?_))))
    have rest : (s.stream n.val).busy = false := by simp [Stream.busy, Stream.runs, idle]
    have inner : 4 * off.val ≠ 0 := by omega
    rw [mask]
    exact (if_neg (by simp [rest, idle])).trans ((if_neg (by simp [range])).trans (if_neg fun first => inner first.1))
  refine ⟨_, run, ?_, s.updStream_same n.val _⟩
  rw [State.stream_updStream_same]
  exact Tab.get_put_same _ _ _ _

/-- The configuration of an executing stream is locked. -/
theorem streamWindowWrite_locked (listed : winMask (4 * off.val) ≠ none) (running : (s.stream n.val).state = .run) (v : Word) :
    ∃ t, exec (.streamWindowWrite p n off v) s = .next t ∧ t.rsq = s.rsq ∧ (t.hd .rsq).errCode = 0x0B01 := by
  have config := lt_of_winMask listed
  obtain ⟨m, mask⟩ := Option.ne_none_iff_exists'.mp listed
  have run : exec (.streamWindowWrite p n off v) s = .next (s.err .rsq errCfgLocked) := by
    refine congrArg Host.Outcome.next ((State.gatedMem_ok _ _ _ present permitted (by simp [free])).trans
      ((if_neg (by simp [loaded])).trans ((if_neg (by omega)).trans ((if_neg (by omega)).trans ?_))))
    simp [mask, running, Stream.busy, Stream.runs]
  refine ⟨_, run, s.rsq_err _ _, ?_⟩
  rw [State.hd_err_same]
  rfl

end

end

/-- Settles O32: each command passes its gate and finds the stream as its clause says. -/
theorem streamWindowAndResumeComplete : Obligations.StreamWindowAndResumeComplete := by
  unfold Obligations.StreamWindowAndResumeComplete
  intro s p n
  refine ⟨rsqResumeGo_due, fun b j waiting newest unusable => ?_, rfl, exec_stflagSet_of_permitted, fun present permitted free loaded off v => ?_⟩
  · have told := s.stream_refuseResume n.val 0x0C (slotParam (s.stream n.val) j)
    exact ⟨_, exec_resumeWaitExpiry_of_unusable waiting newest unusable, by rw [told], by rw [told]; rfl, by rw [told]⟩
  · exact ⟨fun low high => streamWindowWrite_variable present permitted free loaded low high v,
      fun m mask range other idle => streamWindowWrite_config present permitted free loaded mask range other idle,
      fun listed running => streamWindowWrite_locked present permitted free loaded listed running v⟩

end Sys2Proof.Machine
end

section
/-!
SUPPORT. One evaluation of a stream: its conditions and decision, the commands and steps that it takes, its checkpoint (R161–R175).
-/

namespace Sys2Proof.Machine

/-! ### Conditions and decisions (R165, R166, R170) -/

/-- From `x` to `y` at most the latches, counts and references of the conditions differ. -/
def Stream.CondsOnly (x y : Stream) : Prop := ∃ l i e, y = { x with latched := l, inband := i, edge := e }

theorem Stream.CondsOnly.refl (x : Stream) : x.CondsOnly x := ⟨_, _, _, rfl⟩

theorem Stream.CondsOnly.trans {x y z : Stream} : x.CondsOnly y → y.CondsOnly z → x.CondsOnly z := by
  rintro ⟨_, _, _, rfl⟩ ⟨l, i, e, rfl⟩
  exact ⟨l, i, e, rfl⟩

theorem State.condEval_condsOnly (s : State) (x : Stream) (j : Nat) : x.CondsOnly (s.condEval x j).1 := by
  have latched (y : Stream) (l : Nat) : y.CondsOnly { y with latched := l } := ⟨l, _, _, rfl⟩
  unfold State.condEval
  dsimp only
  split
  · exact .refl x
  · exact ⟨_, _, _, rfl⟩
  · split
    · exact latched x _
    · split <;> exact ⟨_, _, _, rfl⟩
  · exact latched x _
  · exact latched x _
  · exact .refl x

theorem State.condsEval_condsOnly (s : State) (x : Stream) : x.CondsOnly (s.condsEval x).1 := by
  have fold (js : List Nat) : ∀ a : Stream × Nat, x.CondsOnly a.1 →
      x.CondsOnly (js.foldl (fun a j => ((s.condEval a.1 j).1, nput a.2 j (s.condEval a.1 j).2)) a).1 := by
    induction js with
    | nil => exact fun _ h => h
    | cons j js ih => exact fun a h => ih _ (h.trans (s.condEval_condsOnly a.1 j))
  exact fold (List.range 4) (x, 0) (.refl x)

/-- Conditions read points and the acquisition's flags. -/
theorem State.condsEval_congr {s t : State} (points : ∀ i, t.readPoint i = s.readPoint i) (flags : t.acq = s.acq) (x : Stream) :
    t.condsEval x = s.condsEval x := by
  have one : t.condEval = s.condEval := by
    have value : t.ptVal = s.ptVal := funext fun i => by rw [State.ptVal, State.ptVal, points]
    have bad : t.ptBad = s.ptBad := funext fun i => by rw [State.ptBad, State.ptBad, points]
    unfold State.condEval
    rw [value, bad, flags]
  rw [State.condsEval, State.condsEval, one]

/-- A stream that holds no decision, after an evaluation. -/
def State.decided (s : State) (x : Stream) : Stream :=
  let c := s.condsEval x
  let d := decision x.cur c.2 x.elapsed
  { c.1 with conds := c.2, held := d.1, heldCond := if d.1 = 0 then c.1.heldCond else d.2 }

theorem State.decided_congr {s t : State} (points : ∀ i, t.readPoint i = s.readPoint i) (flags : t.acq = s.acq) (x : Stream) :
    t.decided x = s.decided x := by
  rw [State.decided, State.decided, State.condsEval_congr points flags]

/-- An evaluation keeps the step and the state. -/
theorem State.decided_kept (s : State) (x : Stream) :
    (s.decided x).elapsed = x.elapsed ∧ (s.decided x).state = x.state ∧ (s.decided x).step = x.step ∧ (s.decided x).ckptDue = x.ckptDue := by
  obtain ⟨l, i, e, conds⟩ := s.condsEval_condsOnly x
  simp only [State.decided, conds, and_self]

/-- The stream that an evaluation sees: a tick has counted first (R169). -/
def Stream.ticked (x : Stream) (tick : Bool) : Stream := if tick then { x with elapsed := (x.elapsed + 1) % 2 ^ 32 } else x

/-- An evaluation of a stream without a held decision takes its decision, where a tick has none to perform. -/
theorem State.streamStep_of_free {s : State} {n : Nat} {tick : Bool} {x : Stream} (sees : (s.stream n).ticked tick = x) (free : x.held = 0)
    (undecided : tick = true → (decision x.cur (s.condsEval x).2 x.elapsed).1 = 0) :
    s.streamStep n tick = s.updStream n fun _ => s.decided x := by
  obtain ⟨l, i, e, conds⟩ := s.condsEval_condsOnly x
  unfold State.streamStep
  extract_lets x0 y
  have seen : y = x := sees
  clear_value y
  subst seen
  by_cases none : (decision y.cur (s.condsEval y).2 y.elapsed).1 = 0
  · simp [State.decided, conds, none, free]
  · have between : tick = false := by simpa using mt undecided none
    simp [State.decided, conds, none, free, between]

/-! ### Changes of one stream -/

/-- From `s` to `t` stream `n` becomes `y`; the other streams stay, and every part outside `l`. -/
structure State.Sets (l : List Part) (s t : State) (n : Nat) (y : Stream) : Prop where
  own : t.stream n = y
  others : ∀ m, m ≠ n → t.stream m = s.stream m
  same : SameBut l s t

/-- The parts that a change of state and the entry of a step without actions may change. -/
def enterParts : List Part := [.rsq, .evr, .hdr, .hts, .out]

section
variable {l k : List Part} {s t u : State} {n : Nat} {y : Stream}

theorem State.Sets.refl (l : List Part) (s : State) (n : Nat) : State.Sets l s s n (s.stream n) := ⟨rfl, fun _ _ => rfl, SameBut.refl l s⟩

theorem State.Sets.updStream (h : State.Sets l s t n y) (sub : ([Part.rsq].all fun x => l.contains x) = true) (f : Stream → Stream) :
    State.Sets l s (t.updStream n f) n (f y) :=
  ⟨by rw [State.stream_updStream_same, h.own], fun m other => (State.stream_updStream_ne t f other).trans (h.others m other),
    h.same.trans ((State.updStream_same t n f).mono' sub)⟩

/-- What leaves the streams alone leaves the change as it is. -/
theorem State.Sets.keep (h : State.Sets l s t n y) (streams : ∀ m, u.stream m = t.stream m) (same : SameBut k t u)
    (sub : (k.all fun x => l.contains x) = true) : State.Sets l s u n y :=
  ⟨(streams n).trans h.own, fun m other => (streams m).trans (h.others m other), h.same.trans (same.mono' sub)⟩

theorem State.rsqEvt_same (s : State) (n : Nat) : SameBut [.rsq, .hdr, .hts, .out] s (s.rsqEvt n) :=
  (SameBut.mono' (State.updRsq_same s _) rfl).trans ((SameBut.mono' (State.irq_same _ _ _) rfl).trans (SameBut.mono' (State.routeEvt_same _ _ _ _) rfl))

theorem State.Sets.record (h : State.Sets enterParts s t n y) (code : Nat) (ps : List Nat) : State.Sets enterParts s (t.record .rsq 0 code ps) n y :=
  h.keep (t.stream_record _ _ _ _) (State.record_same t _ _ _ _) rfl

theorem State.Sets.rsqEvt (h : State.Sets enterParts s t n y) : State.Sets enterParts s (t.rsqEvt n) n y :=
  h.keep (t.stream_rsqEvt n) (State.rsqEvt_same t n) rfl

/-- A change of state is recorded, shown and leaves a checkpoint due. -/
theorem State.Sets.sstate (h : State.Sets enterParts s t n y) (new : SState) (cause : Nat) (f : Stream → Stream) :
    State.Sets enterParts s (t.sstate n new cause f) n { f y with state := new, ckptDue := true } :=
  (((h.updStream rfl fun x => { f x with state := new }).record 0x0B11 _).rsqEvt).updStream rfl fun x => { x with ckptDue := true }

/-- The stream in a step that it has entered (R166, R168). -/
def Stream.entered (x : Stream) (ws : List Word) (step : Nat) : Stream := { x.fresh ws 0 with step := step }

theorem State.enterStep_of_valid {step : Nat} (valid : t.stepValid n step = true)
    (none : stepField (t.entryWords (t.stream n).actBase step) 5 21 16 = 0) (cause : Nat) : ∃ ps, t.enterStep n step cause =
      ((((t.updStream n fun x => x.entered (t.entryWords (t.stream n).actBase step) step).record .rsq 0 0x0B10 ps).rsqEvt n).evalMet).ckptMark n := by
  have empty : t.actWords (t.stream n).actBase (t.entryWords (t.stream n).actBase step) = [] := by simp [State.actWords, none]
  refine ⟨[n, step, stepField (t.entryWords (t.stream n).actBase step) 0 15 0, cause], (if_neg (by simp [valid])).trans ?_⟩
  dsimp only
  rw [empty]
  rfl

/-- A VALID step without actions is entered: the stream is in it, with a checkpoint due. -/
theorem State.Sets.enterStep (h : State.Sets enterParts s t n y) {step : Nat} (valid : t.stepValid n step = true)
    (none : stepField (t.entryWords y.actBase step) 5 21 16 = 0) (cause : Nat) :
    State.Sets enterParts s (t.enterStep n step cause) n { y.entered (t.entryWords y.actBase step) step with ckptDue := true } := by
  obtain rfl := h.own
  obtain ⟨ps, run⟩ := State.enterStep_of_valid valid none cause
  have entered := ((h.updStream rfl fun x => x.entered (t.entryWords (t.stream n).actBase step) step).record 0x0B10 ps).rsqEvt
  rw [run]
  exact (entered.keep (State.stream_evalMet _) (State.evalMet_same _) rfl).updStream rfl fun x => { x with ckptDue := true }

/-! ### Checkpoints (R174, R175) -/

/-- From `s` to `t` at most what stream `n` keeps about its checkpoints differs in the streams. -/
structure State.CkptOnly (s t : State) (n : Nat) : Prop where
  own : ∃ a b c d e, t.stream n = { s.stream n with seq := a, lastSeq := b, bufs := c, ckptDue := d, ticks := e }
  others : ∀ m, m ≠ n → t.stream m = s.stream m

theorem State.CkptOnly.refl (s : State) (n : Nat) : s.CkptOnly s n := ⟨⟨_, _, _, _, _, rfl⟩, fun _ _ => rfl⟩

theorem State.CkptOnly.trans (h : s.CkptOnly t n) (g : t.CkptOnly u n) : s.CkptOnly u n := by
  obtain ⟨_, _, _, _, _, before⟩ := h.own
  obtain ⟨a, b, c, d, e, after⟩ := g.own
  exact ⟨⟨a, b, c, d, e, by rw [after, before]⟩, fun m other => (g.others m other).trans (h.others m other)⟩

theorem State.CkptOnly.updStream (h : s.CkptOnly t n) {f : Stream → Stream}
    (kept : ∀ x, ∃ a b c d e, f x = { x with seq := a, lastSeq := b, bufs := c, ckptDue := d, ticks := e }) : s.CkptOnly (t.updStream n f) n :=
  h.trans ⟨by rw [State.stream_updStream_same]; exact kept _, fun _ other => State.stream_updStream_ne t f other⟩

theorem State.ckptPut_ckptOnly (s : State) (n : Nat) : s.CkptOnly (s.ckptPut n) n := by
  have stored (i : Nat) (ws : List Word) (m : Nat) : (s.retPutList i .rsq ws).stream m = s.stream m :=
    State.stream_congr (congrArg Rsq.streams (State.retPutList_same .rsq ws s i .rsq (by decide))) m
  have put (i : Nat) (ws : List Word) : s.CkptOnly (s.retPutList i .rsq ws) n := ⟨by rw [stored]; exact (State.CkptOnly.refl s n).own, fun m _ => stored i ws m⟩
  exact (put _ _).updStream fun _ => ⟨_, _, _, _, _, rfl⟩

theorem State.ckpt_ckptOnly (s : State) (n : Nat) : s.CkptOnly (s.ckpt n) n := by
  unfold State.ckpt
  dsimp only
  split
  · exact s.ckptPut_ckptOnly n
  · exact .refl s n

theorem State.ckptFlush_ckptOnly (s : State) (n : Nat) : s.CkptOnly (s.ckptFlush n) n := by
  unfold State.ckptFlush
  split
  · exact (s.ckpt_ckptOnly n).updStream fun _ => ⟨_, _, _, _, _, rfl⟩
  · exact .refl s n

theorem State.ckptEnd_ckptOnly (s : State) (n seq : Nat) (tick : Bool) : s.CkptOnly (s.ckptEnd n seq tick) n := by
  have flushed := s.ckptFlush_ckptOnly n
  have counted := flushed.updStream (f := fun x => { x with ticks := x.ticks + 1 }) fun _ => ⟨_, _, _, _, _, rfl⟩
  unfold State.ckptEnd
  dsimp only
  split
  · split
    · exact counted.trans (State.ckpt_ckptOnly _ n)
    · exact counted
  · exact flushed

/-- Between ticks a checkpoint is written only where one is due. -/
theorem State.ckptEnd_of_not_due (due : (s.stream n).ckptDue = false) (seq : Nat) : s.ckptEnd n seq false = s := by
  simp [State.ckptEnd, State.ckptFlush, due]

/-! ### Commands that act (Table RSQ-10) -/

section
variable {x : Stream} (at_ : s.stream n = x)
include at_

/-- Without a command and without the PD_MEM fence nothing acts. -/
theorem State.cmdNow_of_none (cmds : x.cmds = []) (fence : x.fence = false) : State.Sets [.rsq] s (s.cmdNow n) n x := by
  have cleared : { x with cmds := [], fence := false } = x := by rw [← cmds, ← fence]
  have sets := (State.Sets.refl [.rsq] s n).updStream rfl fun x => { x with cmds := [], fence := false }
  rw [at_, cleared] at sets
  simpa [State.cmdNow, at_, cmds, fence] using sets

theorem State.cmdTick_of_none (cmds : x.cmds = []) (expiry : x.expiry = false) : ∃ u, s.cmdTick n = (u, false) ∧ State.Sets [.rsq] s u n x := by
  have cleared : { x with cmds := [], expiry := false } = x := by rw [← cmds, ← expiry]
  have sets := (State.Sets.refl [.rsq] s n).updStream rfl fun x => { x with cmds := [], expiry := false }
  rw [at_, cleared] at sets
  exact ⟨_, by simp [State.cmdTick, at_, cmds, expiry], sets⟩

/-- A START waits for the tick. -/
theorem State.cmdNow_of_start {step : Nat} (idle : x.state = .idle) (cmds : x.cmds = [.start step]) :
    State.Sets [.rsq] s (s.cmdNow n) n { x with fence := false } := by
  have back : { x with cmds := [] ++ [.start step], fence := false } = { x with fence := false } := by rw [List.nil_append, ← cmds]
  have sets := ((State.Sets.refl [.rsq] s n).updStream rfl fun x => { x with cmds := [], fence := false }).updStream rfl
    fun x => { x with cmds := x.cmds ++ [.start step] }
  rw [at_] at sets
  simpa [State.cmdNow, State.cmdAct, at_, cmds, idle, Stream.runs, ← back] using sets

/-- A START from IDLE enters its step in RUN (R172). -/
theorem State.cmdTick_of_start {step : Nat} (idle : x.state = .idle) (cmds : x.cmds = [.start step]) (expiry : x.expiry = false)
    (valid : s.stepValid n step = true) (none : stepField (s.entryWords x.actBase step) 5 21 16 = 0) :
    ∃ u y, s.cmdTick n = (u, true) ∧ State.Sets enterParts s u n y ∧ y.state = .run ∧ y.step = step ∧ y.elapsed = 0 ∧ y.cmds = [] ∧
      y.cur = s.entryWords x.actBase step := by
  let f : Stream → Stream := fun x => { x with parked := false, atBoundary := false, check := .none, reason := 0, param := 0 }
  have sets := ((State.Sets.refl enterParts s n).updStream rfl fun x => { x with cmds := [], expiry := false }).sstate .run 1 f
  have acts : s.cmdTick n =
      (((s.updStream n fun x => { x with cmds := [], expiry := false }).sstate n .run 1 f).enterStep n step 3, true) := by
    simp [State.cmdTick, State.tickAct, at_, cmds, expiry, idle, f]
  have mem := sets.same .mem (by decide)
  have ready := (State.stepValid_congr (by rw [sets.own]) mem (sets.same .msdram (by decide)) step).trans valid
  have words := State.entryWords_congr mem x.actBase step
  rw [at_] at sets
  have entered := sets.enterStep ready ((congrArg (stepField · 5 21 16) words).trans none) 3
  exact ⟨_, _, acts, entered, rfl, rfl, rfl, rfl, words⟩

end

end

end Sys2Proof.Machine
end

section
/-!
PROOF. Evaluations and ticks of one running stream (O31).
-/

namespace Sys2Proof.Machine

/-! ### One stream that evaluates (R140, R161) -/

theorem foldl_eq_self {σ α : Type} {f : σ → α → σ} {s : σ} : ∀ {l : List α}, (∀ x ∈ l, f s x = s) → l.foldl f s = s
  | [], _ => rfl
  | x :: l, h => by
    rw [List.foldl_cons, h x List.mem_cons_self]
    exact foldl_eq_self fun y hy => h y (List.mem_cons_of_mem _ hy)

/-- A fold in which one element acts, and acts once, is its act. -/
theorem foldl_eq_of_one {σ α : Type} {f : σ → α → σ} {n : α} {l : List α} (mem : n ∈ l) (distinct : l.Nodup) {s : σ}
    (before : ∀ m, m ≠ n → f s m = s) (after : ∀ m, m ≠ n → f (f s n) m = f s n) : l.foldl f s = f s n := by
  obtain ⟨a, b, rfl⟩ := List.append_of_mem mem
  obtain ⟨_, later, apart⟩ := List.nodup_append.mp distinct
  obtain ⟨fresh, _⟩ := List.nodup_cons.mp later
  rw [List.foldl_append, foldl_eq_self fun m h => before m (apart m h n List.mem_cons_self), List.foldl_cons]
  exact foldl_eq_self fun m h => after m fun same => fresh (same ▸ h)

section
variable {s : State} {n : Nat}

theorem State.streamVote_of_idle (idle : (s.stream n).evaluates = false) (tick ue voter : Bool) (faults : List (Fin 3 × LaneFault)) :
    s.streamVote n tick ue voter faults = s := if_pos (.inl (by simp [idle]))

/-- The state in which a stream's evaluation begins, with an empty write list. -/
def State.unwritten (s : State) : State := s.updRsq fun r => { r with writes := [] }

theorem State.stream_unwritten (s : State) (m : Nat) : s.unwritten.stream m = s.stream m := State.stream_congr rfl m

/-- Of all streams `n` alone evaluates, in a sequencer that runs, and the Crossing has no fault to react to (R140, R161). -/
structure State.Alone (s : State) (n : Nat) : Prop where
  running : (s.hd .rsq).running = true
  voting : s.xng.mode ≠ .none
  writes : s.xng.voterFault = false
  kept : s.xng.lossDue = false
  wf : Tab.wf {} s.rsq.streams = true
  others : ∀ m, m ≠ n → (s.stream m).evaluates = false
  evaluates : (s.stream n).evaluates = true

/-- Lanes without a fault agree: of the streams the vote leaves what the evaluation gives. -/
theorem State.Alone.stream_streamVote (h : s.Alone n) (tick : Bool) (m : Nat) :
    (s.streamVote n tick false false []).stream m = (s.unwritten.streamEval n tick false).stream m := by
  have ready : s.rsqReady = true := decide_eq_true h.voting
  let t := s.streamRun n tick false
  have run : s.streamVote n tick false false [] = (t.foldSigs fun _ => t.streamWord n).updXng fun x => { x with votes := wrapInc x.votes } :=
    (if_neg (by simp [h.evaluates, ready, h.writes])).trans (if_pos (by simp [h.kept]))
  have signed : (t.foldSigs fun _ => t.streamWord n).rsq = t.rsq := (State.foldSigs_sigsOnly t _).same .rsq (by decide)
  rw [run]
  exact State.stream_congr (congrArg Rsq.streams signed) m

/-- An instant at which one stream evaluates, and changes no other, is that evaluation. -/
theorem State.Alone.stream_rsqInstant (h : s.Alone n) {tick : Bool}
    (frame : ∀ m, m ≠ n → (s.unwritten.streamEval n tick false).stream m = s.stream m) (m : Nat) :
    (s.rsqInstant tick [] {}).stream m = (s.unwritten.streamEval n tick false).stream m := by
  have ready : s.rsqReady = true := decide_eq_true h.voting
  have voted := h.stream_streamVote tick
  have listed : n ∈ s.streamsWhere fun _ => true :=
    State.mem_streamsWhere (fun unused => by have := h.evaluates; rw [unused] at this; cases this) rfl
  have instant : s.rsqInstant tick [] {} = (s.streamsWhere fun _ => true).foldl (fun s n => s.streamVote n tick false false []) s :=
    (if_neg (by simp [h.running])).trans (if_pos ready)
  rw [instant, foldl_eq_of_one listed (State.nodup_streamsWhere h.wf _) (fun k other => State.streamVote_of_idle (h.others k other) _ _ _ _)
    fun k other => State.streamVote_of_idle (by rw [voted, frame k other, h.others k other]) _ _ _ _]
  exact voted m

/-- Where the evaluation changes one stream up to its checkpoints, so does the instant. -/
theorem State.Alone.rsqInstant_ckptOnly (h : s.Alone n) {tick : Bool} {l : List Part} {u : State} {y : Stream} {q : Nat}
    (run : s.unwritten.streamEval n tick false = u.ckptEnd n q tick) (sets : State.Sets l s.unwritten u n y) :
    u.CkptOnly (s.rsqInstant tick [] {}) n ∧ ∀ m, m ≠ n → (s.rsqInstant tick [] {}).stream m = s.stream m := by
  have ended := u.ckptEnd_ckptOnly n q tick
  have frame (m : Nat) (other : m ≠ n) : (u.ckptEnd n q tick).stream m = s.stream m := (ended.others m other).trans (sets.others m other)
  have instant := h.stream_rsqInstant (run ▸ frame)
  rw [run] at instant
  exact ⟨⟨(instant n).symm ▸ ended.own, fun m other => (instant m).trans (ended.others m other)⟩, fun m other => (instant m).trans (frame m other)⟩

/-! ### The evaluation of a stream in RUN (R169, R170) -/

/-- Without a command, fence or end of the autonomy window a stream in RUN takes an evaluation of its step. -/
theorem State.streamEval_of_running {x : Stream} (at_ : s.stream n = x) (state : x.state = .run) (cmds : x.cmds = []) (fence : x.fence = false)
    {tick : Bool} (expiry : tick = true → x.expiry = false) :
    ∃ u, State.Sets [.rsq] s u n x ∧ s.streamEval n tick false = (u.streamStep n tick).ckptEnd n x.lastSeq tick := by
  have now := State.cmdNow_of_none at_ cmds fence
  cases tick with
  | false => exact ⟨_, now, by simp [State.streamEval, at_, now.own, Stream.runs, state]⟩
  | true =>
    obtain ⟨u, acts, later⟩ := State.cmdTick_of_none now.own cmds (expiry rfl)
    exact ⟨u, ⟨later.own, fun m other => (later.others m other).trans (now.others m other), now.same.trans later.same⟩,
      by simp [State.streamEval, at_, acts, later.own, Stream.runs, state]⟩

/-- An evaluation of a stream in RUN that holds no decision, where a tick has none to perform: up to its checkpoints the stream is as the evaluation
decides. -/
theorem State.streamEval_of_undecided {x : Stream} (at_ : s.stream n = x) (state : x.state = .run) (cmds : x.cmds = []) (fence : x.fence = false)
    (free : x.held = 0) {tick : Bool} (expiry : tick = true → x.expiry = false)
    (undecided : tick = true → (decision x.cur (s.condsEval (x.ticked tick)).2 (x.ticked tick).elapsed).1 = 0) :
    ∃ u, State.Sets [.rsq] s u n (s.decided (x.ticked tick)) ∧ s.streamEval n tick false = u.ckptEnd n x.lastSeq tick := by
  obtain ⟨u, sets, run⟩ := State.streamEval_of_running at_ state cmds fence expiry
  have points := State.readPoint_congr (sets.same .ptd (by decide)) (congrArg Hdr.running (State.hd_congr (sets.same .hdr (by decide)) .mem))
  have flags := sets.same .acq (by decide)
  have cur : (x.ticked tick).cur = x.cur := by cases tick <;> rfl
  have held : (x.ticked tick).held = x.held := by cases tick <;> rfl
  have step := State.streamStep_of_free (by rw [sets.own]) (held.trans free)
    (by rw [cur, State.condsEval_congr points flags]; exact undecided)
  refine ⟨_, ?_, by rw [run, step]⟩
  rw [← State.decided_congr points flags]
  exact sets.updStream rfl fun _ => u.decided (x.ticked tick)

/-! ### A START at a tick (R172) -/

/-- A START from IDLE toward a VALID step without actions enters it. -/
theorem State.streamEval_of_start {x : Stream} (at_ : s.stream n = x) {step : Nat} (idle : x.state = .idle) (cmds : x.cmds = [.start step])
    (expiry : x.expiry = false) (valid : s.stepValid n step = true) (none : stepField (s.entryWords x.actBase step) 5 21 16 = 0) :
    ∃ u y, s.streamEval n true false = u.ckptEnd n x.lastSeq true ∧ State.Sets enterParts s u n y ∧ y.state = .run ∧ y.step = step ∧ y.elapsed = 0 ∧
      y.cmds = [] ∧ y.cur = s.entryWords x.actBase step := by
  have now := State.cmdNow_of_start at_ idle cmds
  have mem := now.same .mem (by decide)
  have ready := (State.stepValid_congr (by rw [now.own, at_]) mem (now.same .msdram (by decide)) step).trans valid
  have words := State.entryWords_congr mem x.actBase step
  obtain ⟨u, y, acts, sets, run, entered, elapsed, done, cur⟩ :=
    State.cmdTick_of_start now.own idle cmds expiry ready ((congrArg (stepField · 5 21 16) words).trans none)
  refine ⟨u, y, by simp [State.streamEval, at_, acts], ?_, run, entered, elapsed, done, cur.trans words⟩
  exact ⟨sets.own, fun m other => (sets.others m other).trans (now.others m other), (SameBut.mono' now.same rfl).trans sets.same⟩

/-! ### The instant of one stream -/

section
variable {x : Stream} (alone : s.Alone n) (at_ : s.stream n = x)
include alone at_

/-- Between ticks the stream holds the decision that its evaluation reaches. -/
theorem State.Alone.evaluation_decides (state : x.state = .run) (cmds : x.cmds = []) (fence : x.fence = false) (due : x.ckptDue = false)
    (free : x.held = 0) : (s.rsqInstant false [] {}).stream n = s.decided x ∧ ∀ m, m ≠ n → (s.rsqInstant false [] {}).stream m = s.stream m := by
  obtain ⟨u, sets, eval⟩ := State.streamEval_of_undecided ((s.stream_unwritten n).trans at_) state cmds fence free (tick := false) nofun nofun
  have keeps : (u.stream n).ckptDue = false := by
    obtain ⟨_, _, _, kept⟩ := s.unwritten.decided_kept x
    rw [sets.own]
    exact kept.trans due
  rw [State.ckptEnd_of_not_due keeps] at eval
  have instant := alone.stream_rsqInstant (eval ▸ sets.others)
  rw [eval] at instant
  refine ⟨?_, fun m other => (instant m).trans (sets.others m other)⟩
  rw [instant, sets.own]
  exact State.decided_congr (fun _ => rfl) rfl x

/-- A tick without a decision counts, and the stream stays in its step. -/
theorem State.Alone.tick_counts (state : x.state = .run) (cmds : x.cmds = []) (fence : x.fence = false) (expiry : x.expiry = false) (free : x.held = 0)
    (undecided : (decision x.cur (s.condsEval (x.ticked true)).2 (x.ticked true).elapsed).1 = 0) :
    ((s.rsqInstant true [] {}).stream n).elapsed = (x.ticked true).elapsed ∧ ((s.rsqInstant true [] {}).stream n).state = x.state ∧
      ((s.rsqInstant true [] {}).stream n).step = x.step ∧ ∀ m, m ≠ n → (s.rsqInstant true [] {}).stream m = s.stream m := by
  have seen : s.unwritten.condsEval (x.ticked true) = s.condsEval (x.ticked true) := State.condsEval_congr (fun _ => rfl) rfl _
  obtain ⟨u, sets, eval⟩ := State.streamEval_of_undecided ((s.stream_unwritten n).trans at_) state cmds fence free (fun _ => expiry)
    fun _ => by rw [seen]; exact undecided
  obtain ⟨elapsed, stays, step, _⟩ := s.unwritten.decided_kept (x.ticked true)
  obtain ⟨⟨⟨_, _, _, _, _, own⟩, _⟩, frame⟩ := alone.rsqInstant_ckptOnly eval sets
  rw [sets.own] at own
  rw [own]
  exact ⟨elapsed, stays, step, frame⟩

/-- A tick with a START from IDLE toward a VALID step without actions enters it in RUN. -/
theorem State.Alone.tick_starts {step : Nat} (idle : x.state = .idle) (cmds : x.cmds = [.start step]) (expiry : x.expiry = false)
    (valid : s.stepValid n step = true) (none : stepField (s.entryWords x.actBase step) 5 21 16 = 0) :
    ((s.rsqInstant true [] {}).stream n).state = .run ∧ ((s.rsqInstant true [] {}).stream n).step = step ∧
      ((s.rsqInstant true [] {}).stream n).elapsed = 0 ∧ ((s.rsqInstant true [] {}).stream n).cmds = [] ∧
      ((s.rsqInstant true [] {}).stream n).cur = s.entryWords x.actBase step ∧ ∀ m, m ≠ n → (s.rsqInstant true [] {}).stream m = s.stream m := by
  obtain ⟨u, y, eval, sets, run, entered, elapsed, done, cur⟩ :=
    State.streamEval_of_start (s := s.unwritten) ((s.stream_unwritten n).trans at_) idle cmds expiry valid none
  obtain ⟨⟨⟨_, _, _, _, _, own⟩, _⟩, frame⟩ := alone.rsqInstant_ckptOnly eval sets
  rw [sets.own] at own
  rw [own]
  exact ⟨run, entered, elapsed, done, cur, frame⟩

end

end

/-- Settles O31: the one stream that evaluates is voted without a fault, so its evaluation decides. -/
theorem streamEvaluationCompletes : Obligations.StreamEvaluationCompletes := by
  unfold Obligations.StreamEvaluationCompletes
  intro s n present run running voting writes kept wf others x
  let s1 := s.runFollow .rsq
  have alone (evaluates : x.evaluates = true) : s.Alone n := ⟨running, voting, writes, kept, wf, others, evaluates⟩
  have alone1 (evaluates : x.evaluates = true) : s1.Alone n := ⟨by simp [s1, run], voting, writes, kept, wf, others, evaluates⟩
  have tick : exec (.stepTick [] {}) s = .next (s1.rsqInstant true [] {}) := congrArg Host.Outcome.next (if_pos present)
  have runs (state : x.state = .run) : x.evaluates = true := by simp [Stream.evaluates, Stream.busy, Stream.runs, state]
  refine ⟨fun state cmds fence due free => ?_, fun state cmds fence expiry free _ undecided => ?_, fun k idle cmds expiry valid none => ?_⟩
  · obtain ⟨own, frame⟩ := (alone (runs state)).evaluation_decides rfl state cmds fence due free
    exact ⟨_, rfl, own, frame⟩
  · have memory : (s1.hd .mem).running = (s.hd .mem).running := congrArg Hdr.running (State.hd_updHd_ne s _ (by decide))
    have seen := State.condsEval_congr (s := s) (t := s1) (State.readPoint_congr rfl memory) rfl (x.ticked true)
    have quiet : (decision x.cur (s1.condsEval (x.ticked true)).2 (x.ticked true).elapsed).1 = 0 := by rw [seen]; exact undecided
    obtain ⟨elapsed, stays, step, frame⟩ := (alone1 (runs state)).tick_counts (x := x) rfl state cmds fence expiry free quiet
    exact ⟨_, tick, elapsed, stays.trans state, step, frame⟩
  · have waits : x.evaluates = true := by simp [Stream.evaluates, cmds]
    obtain ⟨state, step, elapsed, done, cur, frame⟩ := (alone1 waits).tick_starts rfl idle cmds expiry valid none
    exact ⟨_, tick, state, step, elapsed, done, cur, frame⟩

end Sys2Proof.Machine
end

section
/-!
SUPPORT. The scheduler of coordinates through the operations that every block shares, its coordinates, entries and groups (R186–R196).
-/

namespace Sys2Proof.Machine

section
variable (s : State)

/-! ### Coordinates and entries -/

theorem State.ent_congr {s t : State} (h : t.csc.ents = s.csc.ents) (n : Nat) : t.ent n = s.ent n := by rw [State.ent, State.ent, h]

@[simp] theorem State.ent_updEnt_same (n : Nat) (f : Act → Act) : (s.updEnt n f).ent n = f (s.ent n) := Tab.get_upd_same _ _ _ _

@[simp] theorem State.coord_updCoord_same (c : Nat) (f : Coord → Coord) : (s.updCoord c f).coord c = f (s.coord c) := Tab.get_upd_same _ _ _ _

theorem State.coord_congr {s t : State} (h : t.csc.coords = s.csc.coords) (c : Nat) : t.coord c = s.coord c := by rw [State.coord, State.coord, h]

theorem State.epoch_congr {s t : State} (h : t.csc.epochs = s.csc.epochs) (port sta slot : Nat) : t.epoch port sta slot = s.epoch port sta slot := by
  rw [State.epoch, State.epoch, h]

/-! ### Shared operations -/

@[simp] theorem State.csc_irq (b : Block) (i : Nat) : (s.irq b i).csc = s.csc := State.irq_same s b i .csc (by decide)

@[simp] theorem State.csc_routeEvt (b : Block) (k i : Nat) : (s.routeEvt b k i).csc = s.csc := State.routeEvt_same s b k i .csc (by decide)

@[simp] theorem State.csc_err (b : Block) (e : Nat) : (s.err b e).csc = s.csc := State.err_same s b e .csc (by decide)

@[simp] theorem State.csc_record (b : Block) (inst code : Nat) (ps : List Nat) : (s.record b inst code ps).csc = s.csc :=
  State.record_same s b inst code ps .csc (by decide)

@[simp] theorem State.ent_record (b : Block) (inst code : Nat) (ps : List Nat) (n : Nat) : (s.record b inst code ps).ent n = s.ent n :=
  State.ent_congr (by simp) n

@[simp] theorem State.coord_irq (b : Block) (i c : Nat) : (s.irq b i).coord c = s.coord c := State.coord_congr (by simp) c

@[simp] theorem State.coord_record (b : Block) (inst code : Nat) (ps : List Nat) (c : Nat) : (s.record b inst code ps).coord c = s.coord c :=
  State.coord_congr (by simp) c

@[simp] theorem State.csc_updPort_ (p : Nat) (f : LPort → LPort) : (s.updPort_ p f).csc = s.csc := rfl

/-! ### Groups (R196, R207) -/

@[simp] theorem State.csc_groupEvt (g : Nat) :
    (s.groupEvt g).csc = { s.csc with evt := Tab.upd 0 s.csc.evt (g / 32) fun w => setBit w (g % 32) } := by
  simp [State.groupEvt, State.updCsc]

/-- The end of a group changes groups and event bits alone. -/
theorem State.csc_groupSettle (g : Nat) : ∃ groups evt, (s.groupSettle g).csc = { s.csc with groups := groups, evt := evt } := by
  unfold State.groupSettle
  dsimp only
  split
  · exact ⟨_, _, by rw [State.csc_record, State.csc_routeEvt, State.csc_irq]; rfl⟩
  · exact ⟨_, _, rfl⟩

@[simp] theorem State.ents_groupSettle (g : Nat) : (s.groupSettle g).csc.ents = s.csc.ents := by
  obtain ⟨_, _, settled⟩ := s.csc_groupSettle g
  rw [settled]

@[simp] theorem State.epochs_groupSettle (g : Nat) : (s.groupSettle g).csc.epochs = s.csc.epochs := by
  obtain ⟨_, _, settled⟩ := s.csc_groupSettle g
  rw [settled]

end

end Sys2Proof.Machine
end

section
/-!
PROOF. A run of action entries is committed whole or not at all (O33).
-/

namespace Sys2Proof.Machine

/-! ### CSC_ACT_GO (R190) -/

/-- A GO of a run whose entries all carry COMMIT, while no check runs, sets PEND in them and starts the check. -/
theorem cscActGo_starts {s : State} {p : Principal} {first : Fin 65536} {count : Fin 256} (ok : s.writeOk .csc 0x100 .wo p = true)
    (idle : s.csc.busy = none) (commit : ∀ n ∈ runOf first.val (count.val + 1), bit (s.mem32 (actEdit n)) 31 = true) :
    ∃ t, exec (.cscActGo p first count) s = .next t ∧ t.csc = { s.csc with busy := some (first.val, count.val + 1) } ∧ SameBut [.csc, .mem] s t := by
  let run := runOf first.val (count.val + 1)
  let u := run.foldl (fun s n => s.store32 (actEdit n) (setBit (s.mem32 (actEdit n)) 30)) s
  have stored : SameBut [.mem] s u := SameBut.foldl (fun s _ => State.store_same s _ _) run s
  have kept : u.csc = s.csc := stored .csc (by decide)
  have ready : run.find? (fun n => !bit (s.mem32 (actEdit n)) 31) = none := List.find?_eq_none.mpr fun n hn => by simp [commit n hn]
  refine ⟨u.updCsc fun x => { x with busy := some (first.val, count.val + 1) }, ?_, by rw [← kept]; rfl,
    (SameBut.mono' stored rfl).trans (SameBut.mono' (State.updCsc_same u _) rfl)⟩
  refine congrArg Host.Outcome.next ((State.gated_ok _ _ ok).trans ?_)
  dsimp only
  rw [idle, ready]

/-! ### ACT_COMMIT_DONE (R190, R193) -/

section
variable (s : State)

/-- The run's editing copies with COMMIT and PEND clear. -/
def State.clearRun (run : List Nat) : State :=
  run.foldl (fun s n => s.store32 (actEdit n) (clrBit (clrBit (s.mem32 (actEdit n)) 31) 30)) s

@[simp] theorem State.csc_clearRun (run : List Nat) : (s.clearRun run).csc = s.csc :=
  SameBut.foldl (l := [.mem]) (fun s _ => State.store_same s _ _) run s .csc (by decide)

/-- The REMOTE targets of the table once a run has taken effect. -/
def State.remoteAfter (run : List Nat) : List RemoteTgt :=
  ((s.actAfter run).filter fun x => decide (x.2.action = .remote)).map fun x => x.2.remote

/-- An accepted run, kept for the next base-frame boundary with the points that its entries hold. -/
def State.keepRun (run : List Nat) : State :=
  ((s.clearRun run).updCsc fun x =>
    { x with next := (x.next.filter fun y => !run.contains y.1) ++ run.map fun n => (n, s.actDesc n) }).setRefs .csc 0 (actPointRefs (s.actAfter run))

@[simp] theorem State.csc_keepRun (run : List Nat) : (s.keepRun run).csc =
    { s.csc with next := (s.csc.next.filter fun y => !run.contains y.1) ++ run.map fun n => (n, s.actDesc n) } := by
  simp [State.keepRun, State.setRefs, State.updCsc]

/-- CSC_ACT_STAT after a report. -/
@[simp] theorem State.csc_actResult (e n : Nat) : (s.actResult e n).csc = { s.csc with busy := none, actResult := e, actFail := n } := by
  unfold State.actResult
  dsimp only
  split <;> simp [State.updCsc]

/-- Every report sets ACT_DONE. -/
theorem State.actDone_actResult (e n : Nat) : bit ((s.actResult e n).hd .csc).irqRaw 8 = true := by
  have raised (t : State) : bit ((t.irq .csc 8).hd .csc).irqRaw 8 = true := by
    rw [State.hd_irq_same]
    exact bit_setBit_same _ (by decide)
  unfold State.actResult
  dsimp only
  split
  · exact raised _
  · rw [State.hd_err_same]
    exact (bit_setBit_ne _ (by decide)).trans (raised _)

end

section
variable {s : State} {first count : Nat} (busy : s.csc.busy = some (first, count))
include busy

/-- A run with a failing entry: that entry and its code are reported, and nothing is kept. -/
theorem actCommitDone_refused (failed : (s.runCheck (runOf first count)).1 ≠ 0) : exec .actCommitDone s =
    .next ((s.clearRun (runOf first count)).actResult (s.runCheck (runOf first count)).1 (s.runCheck (runOf first count)).2) := by
  refine congrArg Host.Outcome.next ?_
  rw [busy]
  exact if_pos failed

/-- A run that passes and leaves the REMOTE targets as they are is kept whole. -/
theorem actCommitDone_passed (passed : (s.runCheck (runOf first count)).1 = 0) (admitted : s.remoteAfter (runOf first count) = s.remoteTgts) :
    exec .actCommitDone s = .next ((s.keepRun (runOf first count)).actResult 0 0) := by
  refine congrArg Host.Outcome.next ?_
  rw [busy]
  refine (if_neg (not_not_intro passed)).trans ?_
  unfold State.remoteAfter at admitted
  simp only [admitted, if_true]
  rfl

end

/-- Settles O33: a GO starts the check; its end reports in every case, and keeps the run only where every entry passes. -/
theorem actionRunIsAtomic : Obligations.ActionRunIsAtomic := by
  unfold Obligations.ActionRunIsAtomic
  refine ⟨fun s p first count ok idle commit => cscActGo_starts ok idle commit,
    fun s first count busy => ⟨fun passed admitted => ?passes, fun failed => ?fails⟩⟩
  case passes =>
    refine ⟨_, actCommitDone_passed busy passed admitted, by simp, by simp, by simp, by simp, fun n listed => ?_, State.actDone_actResult _ 0 0⟩
    rw [State.csc_actResult, State.csc_keepRun]
    exact List.mem_append_right _ (List.mem_map.mpr ⟨n, listed, rfl⟩)
  case fails =>
    exact ⟨_, actCommitDone_refused busy failed, by simp, by simp, by simp, by simp, by simp, State.actDone_actResult _ _ _⟩

end Sys2Proof.Machine
end

section
/-!
PROOF. Arms and cancels of a group (O34).
-/

namespace Sys2Proof.Machine

/-! ### Arms (R195) -/

section
variable {s : State} {g : Nat}

/-- A group without REMOTE entries needs no windows. -/
theorem State.placeRemote_of_local {ents : List Nat} (rel : Bool) (base ta : Nat) (here : ∀ n ∈ ents, (s.ent n).desc.action ≠ .remote) :
    s.placeRemote ents rel base ta = some s := by
  unfold State.placeRemote
  induction ents with
  | nil => rfl
  | cons n ents ih =>
    rw [List.foldl_cons, Option.bind_some]
    dsimp only
    rw [if_pos (.inl (here n List.mem_cons_self))]
    exact ih fun m hm => here m (List.mem_cons_of_mem n hm)

/-- An arm of a group that is not armed waits for the base-frame boundary; a second one before the first takes effect waits with it (log 22). -/
theorem State.armReq_of_local (filled : s.groupEnts g ≠ []) (free : s.groupArmed g = false)
    (here : ∀ n ∈ s.groupEnts g, (s.ent n).desc.action ≠ .remote) (rel : Bool) (base : Option Nat) (rsq : Bool) (tc : Nat) :
    s.armReq g rel base rsq tc =
      (s.updCsc fun x => { x with arms := x.arms ++ [{ group := g, rel := rel, base := base, rsq := rsq }] }, 0, (s.groupEnts g).length) := by
  have placed := State.placeRemote_of_local (s := s) (ents := if s.armPending g then [] else s.groupEnts g) rel (base.getD (nextFrame tc)) (nextFrame tc)
    fun n listed => here n (by
      split at listed
      · exact absurd listed List.not_mem_nil
      · exact listed)
  unfold State.armReq
  dsimp only
  rw [if_neg filled, free, if_neg Bool.false_ne_true, placed]

theorem State.armReq_of_empty (empty : s.groupEnts g = []) (rel : Bool) (base : Option Nat) (rsq : Bool) (tc : Nat) :
    s.armReq g rel base rsq tc = (s.err .csc errGroupEmpty, errGroupEmpty, 0) := if_pos empty

theorem State.armReq_of_armed (filled : s.groupEnts g ≠ []) (armed : s.groupArmed g = true) (rel : Bool) (base : Option Nat) (rsq : Bool) (tc : Nat) :
    s.armReq g rel base rsq tc = (s.err .csc errGroupArmed, errGroupArmed, 0) := (if_neg filled).trans (if_pos armed)

end

/-- CSC_ARM_STAT after a request. -/
@[simp] theorem State.csc_armStat (s : State) (e k g : Nat) :
    (State.armStat (s, e, k) g).csc = { s.csc with armGroup := g, armResult := e, armCount := k } := rfl

section
variable {s : State} {p : Principal} (ok : s.writeOk .csc 0x108 .wo p = true) (g : Fin 256) (t : Nat)
include ok

theorem exec_cscArm : exec (.cscArm p g t) s = .next (State.armStat (s.armReq g.val false none false (t * 5 / 2)) g.val) :=
  congrArg Host.Outcome.next (State.gated_ok _ _ ok)

theorem exec_cscArmRel : exec (.cscArmRel p g t) s = .next (State.armStat (s.armReq g.val true none false (t * 5 / 2)) g.val) :=
  congrArg Host.Outcome.next (State.gated_ok _ _ ok)

theorem exec_cscCancel : exec (.cscCancel p g t) s = .next (State.armStat (s.cancelReq g.val t) g.val) :=
  congrArg Host.Outcome.next (State.gated_ok _ _ ok)

/-- A refused arm reports its code in CSC_ARM_STAT and in BLK_ERR, and no arm waits for it. -/
theorem cscArm_refused {e : Nat} (refused : s.armReq g.val false none false (t * 5 / 2) = (s.err .csc e, e, 0)) :
    ∃ u, exec (.cscArm p g t) s = .next u ∧ u.csc.arms = s.csc.arms ∧ u.csc.armResult = e ∧ (u.hd .csc).errCode = 0x0C00 + e := by
  refine ⟨_, exec_cscArm ok g t, ?_, ?_, ?_⟩ <;> rw [refused]
  · rw [State.csc_armStat, State.csc_err]
  · rfl
  · exact congrArg Hdr.errCode (State.hd_err_same s .csc e)

end

/-! ### Cancels (R195, R205) -/

/-- The epoch that a cancel gives a station's slot (R205). -/
def State.nextEpoch (s : State) (r : RemoteTgt) : Nat := (s.epoch r.port r.station r.slot + 1) % 256

section
variable {s : State} {n : Nat} (sent : (s.ent n).state = .sent) (t : Nat)
include sent

/-- A SENT entry is cancelled where its fire instant lies at or after the acceptance plus B_s, and LATE otherwise (Table CSC-4). -/
theorem State.cancelEnt_of_sent {teff : Nat} (at_ : t * 5 / 2 + (s.sta (s.ent n).desc.remote.port (s.ent n).desc.remote.station).bs = teff)
    (newEp : RemoteTgt → Nat) : ∃ u c, s.cancelEnt n t newEp = (u, c, if teff ≤ (s.ent n).tFire then 0 else 1) ∧
      (u.ent n).state = (if teff ≤ (s.ent n).tFire then .cancelled else .late) ∧ u.csc.epochs = s.csc.epochs := by
  simp only [State.cancelEnt, sent, at_]
  by_cases early : teff ≤ (s.ent n).tFire
  · simp only [if_pos early]
    exact ⟨_, _, rfl, by simp, by simp [State.updEnt, State.updCsc]⟩
  · simp only [if_neg early]
    refine ⟨_, _, rfl, ?_, by simp [State.updEnt, State.updCsc]⟩
    rw [State.ent_congr (s := s.updEnt n fun y => { y with state := .late }) (by simp [State.updCsc]), State.ent_updEnt_same]

/-- A cancel of an armed group whose one entry is SENT: the entry is as `cancelEnt` leaves it, and the epoch of its station's slot advances. -/
theorem State.cancelReq_of_sent {g : Nat} (one : s.groupEnts g = [n]) (armed : s.groupArmed g = true) {u : State} {c l : Nat}
    (cancelled : s.cancelEnt n t s.nextEpoch = (u, c, l)) :
    ∃ v k, s.cancelReq g t = (v, if l ≠ 0 then errCancelLate else 0, k) ∧ v.csc.ents = u.csc.ents ∧
      v.epoch (s.ent n).desc.remote.port (s.ent n).desc.remote.station (g % 16) =
        (u.epoch (s.ent n).desc.remote.port (s.ent n).desc.remote.station (g % 16) + 1) % 256 := by
  have advanced : (fun r : RemoteTgt => (s.epoch r.port r.station r.slot + 1) % 256) = s.nextEpoch := rfl
  simp only [State.cancelReq, armed, one, Bool.not_true, Bool.false_eq_true, if_false, advanced, List.foldl_cons, List.foldl_nil, cancelled,
    List.filter_cons, List.filter_nil, sent, decide_true, if_true, List.map_cons, List.map_nil, List.eraseDups_cons, List.eraseDups_nil, Nat.zero_add]
  refine ⟨_, _, rfl, ?_, ?_⟩
  · rw [State.ents_groupSettle]
    split <;> simp [State.updCsc]
  · rw [State.epoch, State.epochs_groupSettle]
    split <;> simp [State.updCsc]

end

/-- Settles O34: arms and refusals are as `armReq` answers; a cancel of a SENT entry is decided by its fire instant. -/
theorem armsAndCancels : Obligations.ArmsAndCancels := by
  unfold Obligations.ArmsAndCancels
  intro s p g t ok
  refine ⟨fun filled free here => ?arms, fun empty => cscArm_refused ok g t (State.armReq_of_empty empty _ _ _ _),
    fun filled armed => cscArm_refused ok g t (State.armReq_of_armed filled armed _ _ _ _), fun n one state sent => ?cancel⟩
  case arms =>
    have changed (f : Csc → Csc) (e k : Nat) : SameBut [.csc] s (State.armStat (s.updCsc f, e, k) g.val) :=
      (State.updCsc_same s f).trans (State.updCsc_same _ _)
    rw [exec_cscArm ok, exec_cscArmRel ok, State.armReq_of_local filled free here, State.armReq_of_local filled free here]
    exact ⟨⟨_, rfl, rfl, rfl, rfl, rfl, rfl, changed _ _ _⟩, ⟨_, rfl, rfl, rfl, rfl, rfl, changed _ _ _⟩⟩
  case cancel =>
    dsimp only
    have armed : s.groupArmed g.val = true := decide_eq_true state
    rw [exec_cscCancel ok]
    obtain ⟨u, c, cancelled, own, epochs⟩ := State.cancelEnt_of_sent sent t rfl s.nextEpoch
    obtain ⟨v, k, run, ents, epoch⟩ := State.cancelReq_of_sent sent t one armed cancelled
    rw [run]
    refine ⟨_, rfl, ?_, (congrArg Act.state (State.ent_congr ents n)).trans own, ?_⟩
    · rw [← State.epoch_congr epochs]
      exact epoch
    · rw [State.csc_armStat]
      dsimp only
      split <;> rfl

end Sys2Proof.Machine
end

section
/-!
SUPPORT. What a firing's action may change (R192, R198): the sequencer of ACQ with the frames that it sends, a ramp of CE, a point, an output.
-/

namespace Sys2Proof.Machine

section
variable (s : State)

/-! ### Frames over Avenue (R331, R335) -/

theorem State.aveSendPort_same (p : Nat) (f : AFrame) : SameBut [.ave] s (s.aveSendPort p f) :=
  SameBut.ite (SameBut.refl _ _) (State.updAve_same s _)

theorem State.aveTo_same (d : Nat) (b : ABody) : SameBut [.ave] s (s.aveTo d b) := by
  unfold State.aveTo State.aveSend
  split
  · exact State.aveSendPort_same s _ _
  · exact SameBut.refl _ _

/-! ### The sequencer of ACQ (R368–R376) -/

/-- The parts that an event of the sequencer may change: the acquisition, its log in memory, the frames that it sends, records and interrupts. -/
def seqParts : List Part := [.acq, .ave, .mem, .evr, .hdr, .hts, .out]

theorem State.updAcq_seq (f : Acq → Acq) : SameBut seqParts s (s.updAcq f) := SameBut.mono' (State.updAcq_same s f) rfl

theorem State.closeBlock_same (c : Nat) : SameBut seqParts s (s.closeBlock c) := SameBut.ite (SameBut.refl _ _) (State.updAcq_seq s _)

theorem State.lastGap_same (c : Nat) : SameBut seqParts s (s.lastGap c) :=
  SameBut.ite (SameBut.refl _ _) ((SameBut.mono' (State.record_same s _ _ _ _) rfl).trans (State.updAcq_seq _ _))

theorem State.endSession_same (st : SessState) (cause : Nat) : SameBut seqParts s (s.endSession st cause) :=
  have flushed := SameBut.foldl (fun s c => (State.closeBlock_same s c).trans (State.lastGap_same _ c)) (List.range 64) s
  have ended := flushed.trans (State.updAcq_seq _ _)
  have told := ended.trans (SameBut.mono' (State.record_same _ _ _ _ _) rfl)
  (told.trans (SameBut.mono' (State.irq_same _ _ _) rfl)).trans (SameBut.mono' (State.updHd_same _ _ _) rfl)

theorem State.acceptTrigger_same (slot typ t tick : Nat) : SameBut seqParts s (s.acceptTrigger slot typ t tick) :=
  have logged := (SameBut.mono' (State.storeRam_same s _ _) rfl : SameBut seqParts s _).trans (State.updAcq_seq _ _)
  (logged.trans (SameBut.mono' (State.record_same _ _ _ _ _) rfl)).trans (SameBut.mono' (State.irq_same _ _ _) rfl)

theorem State.fabSend_same (line t tick : Nat) : SameBut seqParts s (s.fabSend line t tick) :=
  SameBut.ite (State.updAcq_seq s _)
    ((State.updAcq_seq s _).trans (SameBut.foldl (fun s d => SameBut.mono' (State.aveTo_same s d _) rfl) _ _))

theorem State.fireSlot_same (slot t tick : Nat) : SameBut seqParts s (s.fireSlot slot t tick) := by
  unfold State.fireSlot
  extract_lets st q0 q2 typ s0 s1 s2 s3 s4 f s5
  have flag : SameBut seqParts s s0 := SameBut.ite (State.updAcq_seq s _) (SameBut.refl _ _)
  have trigger : SameBut seqParts s0 s1 :=
    SameBut.ite (SameBut.ite (State.acceptTrigger_same _ _ _ _ _) (State.updAcq_seq _ _)) (SameBut.refl _ _)
  have stop : SameBut seqParts s1 s2 :=
    SameBut.ite (SameBut.ite (State.updAcq_seq _ _) (SameBut.ite (State.endSession_same _ _ _) (SameBut.refl _ _))) (SameBut.refl _ _)
  have counters : SameBut seqParts s2 s3 := SameBut.foldl (fun s _ => State.updAcq_seq s _) _ _
  have send : SameBut seqParts s3 s4 := SameBut.ite (State.fabSend_same _ _ _ _) (SameBut.refl _ _)
  have flags : SameBut seqParts s4 s5 := SameBut.ite (State.updAcq_seq _ _) (SameBut.refl _ _)
  exact flag.trans (trigger.trans (stop.trans (counters.trans (send.trans (flags.trans (State.updAcq_seq s5 _))))))

theorem State.armSlots_seq (evs : List AcqEv) : SameBut seqParts s (s.armSlots_ evs) :=
  SameBut.foldl (fun s _ => SameBut.ite (State.updAcq_seq s _) (SameBut.refl _ _)) _ s

theorem State.seqEval_same : ∀ (n : Nat) (s : State) (evs : List AcqEv) (tick : Nat), SameBut seqParts s (s.seqEval evs tick n)
  | 0, s, _, _ => SameBut.refl _ s
  | n + 1, s, evs, tick => by
    unfold State.seqEval
    split
    · exact SameBut.refl _ s
    · split
      · exact (State.fireSlot_same s _ _ _).trans (State.seqEval_same n _ _ _)
      · exact State.armSlots_seq s evs

theorem State.acqLine_same (line t tick : Nat) : SameBut seqParts s (s.acqLine line t tick) := State.seqEval_same 16 s _ tick

theorem State.rampCmd_same (n rate : Nat) : SameBut [.ce, .hdr, .hts, .out] s (s.rampCmd n rate) :=
  have reported (x : Ce) : SameBut [.ce, .hdr, .hts, .out] s { s with ce := x } := SameBut.mono' (State.setCe_same s x) rfl
  SameBut.ite ((reported _).trans (SameBut.mono' (State.err_same _ _ _) rfl)) ((reported _).trans (SameBut.mono' (State.setCe_same _ _) rfl))

/-! ### Actions of entries (R192, R198) -/

@[simp] theorem State.ents_outEdge (key n step : Nat) (on : Bool) (off : Option Nat) : (s.outEdge key n step on off).csc.ents = s.csc.ents := by
  unfold State.outEdge
  extract_lets o same tr s1 new
  have counted : s1.csc.ents = s.csc.ents := by
    simp only [s1]
    split <;> rfl
  split <;> exact counted

@[simp] theorem State.csc_fioWord (k : Nat) (on : Bool) : (s.fioWord k on).csc = s.csc := State.fioWord_same s k on .csc (by decide)

/-- An action changes no entry. -/
@[simp] theorem State.ents_perform (n : Nat) (tx : Rat) (t : Nat) : (s.perform n tx t).csc.ents = s.csc.ents := by
  have point (idx : Nat) (v : Word) (at_ : Nat) : ((s.pointWrite idx v qValid at_).followPoint idx t).csc = s.csc :=
    (State.followPoint_same _ _ _ .csc (by decide)).trans (State.pointWrite_same s _ _ _ _ .csc (by decide))
  unfold State.perform
  dsimp only
  split
  case h_1 | h_2 | h_3 => split <;> simp
  case h_4 => exact congrArg Csc.ents (point _ _ _)
  case h_5 => exact congrArg Csc.ents (State.rampCmd_same s _ _ .csc (by decide))
  case h_6 => exact congrArg Csc.ents (State.acqLine_same s _ _ _ .csc (by decide))
  case h_7 => exact congrArg Csc.ents (State.raiseFlags_same s _ _ .csc (by decide))
  case h_8 => rfl

end

end Sys2Proof.Machine
end

section
/-!
PROOF. An armed entry fires where its coordinate crosses its position (O35).
-/

namespace Sys2Proof.Machine

section
variable {s : State} {n : Nat}

/-- A firing leaves the entry FIRED, or ARMED with REPEAT, with its instant; a REPEAT entry may take a new position (R194, R196). -/
theorem State.ent_fireEnt (s : State) (n : Nat) (tx : Rat) (t : Nat) :
    ∃ pos, (s.fireEnt n tx t).ent n = { s.ent n with state := if (s.ent n).desc.repeat_ then .armed else .fired,
                                                     last := (s.crossInst n tx * 5 / 2).floor.toNat, from_ := t + 1, pos := pos } := by
  unfold State.fireEnt
  extract_lets a g ns s1 s2 s3
  have fired : s1.ent n = { a with state := if a.desc.repeat_ then .armed else .fired, last := ns, from_ := t + 1 } := State.ent_updEnt_same s n _
  have acted : s2.ent n = s1.ent n := State.ent_congr (s1.ents_perform n tx t) n
  have settled : (s3.groupSettle g).ent n = s3.ent n := State.ent_congr (s3.ents_groupSettle g) n
  rw [settled]
  by_cases moves : a.desc.repeat_ ∧ a.desc.fposPt
  · have own := State.ent_updEnt_same s2 n fun x => { x with pos := s2.fposOf n }
    simp only [s3, if_pos moves, own, acted, fired]
    exact ⟨_, rfl⟩
  · simp only [s3, if_neg moves, acted, fired]
    exact ⟨a.pos, rfl⟩

/-- A tick that has fired fewer than four entries takes the firing itself (R200). -/
theorem fireShift_of_free {fires : Tab Nat} {t : Nat} (free : Tab.get 0 fires t < 4) (fuel : Nat) : fireShift fires t fuel 0 = 0 := by
  cases fuel with
  | zero => rfl
  | succ fuel => exact if_pos free

theorem State.fireLimited_of_free {t : Nat} (free : Tab.get 0 s.csc.fires t < 4) (tx : Rat) :
    s.fireLimited n tx t = (s.updCsc fun x => { x with fires := Tab.upd 0 x.fires t (· + 1) }).fireEnt n tx t := by
  simp [State.fireLimited, fireShift_of_free free]

end

/-- Settles O35: a crossing fires the entry in its tick, and no action of a firing changes an entry. -/
theorem crossingFiresTheEntry : Obligations.CrossingFiresTheEntry := by
  unfold Obligations.CrossingFiresTheEntry
  intro s n t a power valid armed here counts since resumed
  have runs : ¬ (!a.valid ∨ a.state ≠ .armed ∨ (s.hd .csc).pwr ≠ .on) := by simp [valid, armed, power]
  have tested : ¬ (a.desc.action = .remote ∨ !s.coordValid a.desc.coord ∨ t < a.from_ ∨
      (a.desc.coord ≠ 0 ∧ t ≤ (s.coord a.desc.coord).resume)) := by
    rintro (remote | lost | early | ⟨tracked, early⟩)
    · exact here remote
    · simp [counts] at lost
    · omega
    · exact absurd (resumed tracked) (Nat.not_lt.mpr early)
  have test : exec (.coordCrossing n t false) s = .next (match s.crosses n.val t with | none => s | some f => s.fireLimited n.val (q t + f) t) :=
    congrArg Host.Outcome.next ((if_neg runs).trans ((if_neg Bool.false_ne_true).trans (if_neg tested)))
  refine ⟨fun misses => ?_, fun f crosses free => ?_⟩
  · rw [test, misses]
  · obtain ⟨pos, own⟩ := State.ent_fireEnt (s.updCsc fun x => { x with fires := Tab.upd 0 x.fires t (· + 1) }) n.val (q t + f) t
    rw [test, crosses]
    dsimp only
    rw [State.fireLimited_of_free free]
    refine ⟨_, rfl, ?_⟩
    rw [own]
    exact ⟨rfl, rfl, rfl⟩

end Sys2Proof.Machine
end

section
/-!
PROOF. The scheduler's sources and remote actions complete (O36).
-/

namespace Sys2Proof.Machine

section
variable {s : State}

/-! ### The mains loop (R187, R188) -/

/-- A rising edge that one mains coordinate takes, unlocked and without a candidate, is its first candidate. -/
theorem zcEdge_first {i : Fin 2} {c : Nat} (t : Nat)
    (one : (s.coordsUsed.filter fun c => decide (s.coordType c = 4) && decide (s.coordSrc c % 2 = i.val)) = [c])
    (unlocked : (s.coord c).locked = false) (fresh : (s.coord c).cand = []) :
    exec (.zcEdge i t) s = .next (s.updCoord c fun k => { k with cand := [t] }) := by
  have acquires : s.pllAcquire c i.val t = s.updCoord c fun k => { k with cand := [t] } := by
    unfold State.pllAcquire
    dsimp only
    rw [fresh]
    exact if_pos (by simp)
  show execZcEdge i t s = _
  unfold execZcEdge
  rw [one, List.foldl_cons, List.foldl_nil, unlocked, if_neg Bool.false_ne_true, acquires]

theorem State.locked_setValid (s : State) (c : Nat) (ok : Bool) (cause t : Nat) : ((s.setValid c ok cause t).coord c).locked = (s.coord c).locked := by
  unfold State.setValid
  dsimp only
  split
  · rfl
  · split <;> simp

theorem State.valid_setValid (s : State) (c : Nat) (ok : Bool) (cause t : Nat) : ((s.setValid c ok cause t).coord c).valid = ok := by
  unfold State.setValid
  dsimp only
  split
  case isTrue same => exact same
  case isFalse => split <;> simp

theorem State.coordUsable_of_mains {c : Nat} (mains : s.coordType c = 4) : s.coordUsable c = ((s.coord c).locked, 2) := by
  simp [State.coordUsable, mains]

theorem State.judgeCoord_of_ne {c : Nat} (tracked : c ≠ 0) (t : Nat) :
    s.judgeCoord c t = s.setValid c (s.coordUsable c).1 (s.coordUsable c).2 t := if_neg tracked

/-- A mains coordinate that loses lock is not VALID: REF_TIME alone has no source to lose. -/
theorem State.pllLose_loses {c : Nat} (mains : s.coordType c = 4) (t : Nat) :
    ((s.pllLose c t).coord c).locked = false ∧ (c ≠ 0 → ((s.pllLose c t).coord c).valid = false) := by
  let u := s.updCoord c fun k => { k with locked := false, cand := [] }
  have unlocked : (u.coord c).locked = false := by simp [u]
  by_cases ref : c = 0
  · have kept : s.pllLose c t = u := if_pos ref
    exact ⟨by rw [kept, unlocked], absurd ref⟩
  · have unusable : u.coordUsable c = (false, 2) := by rw [State.coordUsable_of_mains (s := u) mains, unlocked]
    have judged : s.pllLose c t = u.setValid c false 2 t := (State.judgeCoord_of_ne ref t).trans (by rw [unusable])
    rw [judged]
    exact ⟨(State.locked_setValid u c false 2 t).trans unlocked, fun _ => State.valid_setValid u c false 2 t⟩

/-! ### Remote actions (R203, R204) -/

@[simp] theorem State.lport_updPort_same (s : State) (p : Nat) (f : LPort → LPort) : (s.updPort_ p f).lport p = f (s.lport p) := Tab.get_upd_same _ _ _ _

theorem State.lport_congr {s t : State} (h : t.lne = s.lne) (p : Nat) : t.lport p = s.lport p := by rw [State.lport, State.lport, h]

/-- An arm record that is sent without fault injection: the entry is SENT, and its port holds one record more. -/
theorem State.sendArm_sends {n : Nat} (tf w : Nat) (quiet : (s.lport (s.ent n).desc.remote.port).inj.en = false) :
    ((s.sendArm n tf w).ent n).state = .sent ∧ ((s.sendArm n tf w).ent n).tFire = tf ∧
      ((s.sendArm n tf w).lport (s.ent n).desc.remote.port).outArms.length = (s.lport (s.ent n).desc.remote.port).outArms.length + 1 := by
  unfold State.sendArm
  extract_lets a r ep rec_ inj s0 s1 s2
  have clean : s0 = s := if_neg (by simp [inj, r, a, quiet])
  have recorded (ps : List Nat) : (s2.record .csc 0 0x0C16 ps).lne = s1.lne := State.record_same s2 _ _ _ _ .lne (by decide)
  have sent := State.ent_updEnt_same s1 n fun x => { x with state := .sent, tFire := tf, epoch := ep, last := tf, win := some w, skipped := false }
  refine ⟨?_, ?_, ?_⟩
  · rw [State.ent_record, sent]
  · rw [State.ent_record, sent]
  · rw [State.lport_congr (recorded _)]
    simp [s1, clean, r, a]

/-- An armed REMOTE entry of a VALID coordinate whose fire instant lies in its run-ahead, at least B_s after the end of the window that was given to it,
is sent in that window where its port has an arm record free. -/
theorem remoteArmSend_sends {n : Fin 65536} {a : Act} (at_ : s.ent n.val = a) {t tf : Nat} (valid : a.valid = true) (armed : a.state = .armed)
    (remote : a.desc.action = .remote) (counts : s.coordValid a.desc.coord = true) (due : s.remoteFire n.val t = some tf)
    (early : winEnd (winOf (t * 5 / 2)) + (s.sta a.desc.remote.port a.desc.remote.station).bs ≤ tf)
    (ahead : tf ≤ winEnd (winOf (t * 5 / 2)) + s.runAhead a.desc.remote.port) (placed : a.win = some (winOf (t * 5 / 2)))
    (free : (s.lport a.desc.remote.port).outArms.length < s.armSlots a.desc.remote.port) :
    exec (.remoteArmSend n t) s = .next (s.sendArm n.val tf (winOf (t * 5 / 2))) := by
  have sendable : ¬ (!a.valid ∨ a.state ≠ .armed ∨ a.desc.action ≠ .remote ∨ !s.coordValid a.desc.coord) := by simp [valid, armed, remote, counts]
  have room : s.armRoom n.val (winOf (t * 5 / 2)) = true := by simp [State.armRoom, at_, free, placed]
  show execRemoteArmSend n t s = _
  unfold execRemoteArmSend
  rw [at_]
  dsimp only
  rw [if_neg sendable, due]
  simp [early, ahead, placed, room]

end

/-- Settles O36: each source and each remote action does its one change. -/
theorem coordinateSourcesComplete : Obligations.CoordinateSourcesComplete := by
  unfold Obligations.CoordinateSourcesComplete
  intro s t
  refine ⟨fun c => rfl, fun i c one unlocked fresh => zcEdge_first t one unlocked fresh, fun c mains locked => ?lose, fun n => ?send,
    fun port sta slot w found => ?unconfirmed⟩
  case lose =>
    obtain ⟨unlocked, invalid⟩ := State.pllLose_loses mains t
    have lost : exec (.phaseLockLoss c t) s = .next (s.pllLose c.val t) := congrArg Host.Outcome.next (if_pos ⟨mains, locked⟩)
    exact ⟨_, lost, unlocked, invalid⟩
  case send =>
    intro a r valid armed remote time ref quiet early ahead placed free
    have counts : s.coordValid a.desc.coord = true := by simp [State.coordValid, ref]
    have sends := remoteArmSend_sends rfl valid armed remote counts (if_pos time) early ahead placed free
    exact ⟨_, sends, State.sendArm_sends _ _ quiet⟩
  case unconfirmed =>
    have noted : exec (.cancelUnconfirmed port sta slot) s = .next ((s.updCsc fun x => { x with waits := x.waits.erase w }).record .csc 0 0x0C1B
        [port.val * 128 + sta.val, slot.val, w.epoch]) := by
      refine congrArg Host.Outcome.next ?_
      rw [found]
    exact ⟨_, noted, State.csc_record _ _ _ _ _⟩

end Sys2Proof.Machine
end

section
/-!
SUPPORT. The motion engine through the operations that every block shares; its axes, groups and drive channels; what the operations of one axis and the
stop of a group leave of every axis (R219, R227, R234, R237).
-/

namespace Sys2Proof.Machine

section
variable (s : State)

/-! ### Shared operations -/

@[simp] theorem State.mot_irq (b : Block) (i : Nat) : (s.irq b i).mot = s.mot := State.irq_same s b i .mot (by decide)

@[simp] theorem State.mot_routeEvt (b : Block) (k i : Nat) : (s.routeEvt b k i).mot = s.mot := State.routeEvt_same s b k i .mot (by decide)

@[simp] theorem State.mot_err (b : Block) (e : Nat) : (s.err b e).mot = s.mot := State.err_same s b e .mot (by decide)

@[simp] theorem State.mot_record (b : Block) (inst code : Nat) (ps : List Nat) : (s.record b inst code ps).mot = s.mot :=
  State.record_same s b inst code ps .mot (by decide)

/-! ### Axes, groups and drive channels -/

theorem State.axis_congr {s t : State} (h : t.mot = s.mot) (n : Nat) : t.axis n = s.axis n := by rw [State.axis, State.axis, h]

@[simp] theorem State.axis_updAxis_same (n : Nat) (f : Axis → Axis) : (s.updAxis n f).axis n = f (s.axis n) := Tab.get_upd_same _ _ _ _

theorem State.axis_updAxis_ne {n m : Nat} (f : Axis → Axis) (h : m ≠ n) : (s.updAxis n f).axis m = s.axis m := Tab.get_upd_ne _ _ _ h

@[simp] theorem State.axis_updDrive (d : Nat) (f : Drive → Drive) (n : Nat) : (s.updDrive d f).axis n = s.axis n := rfl

@[simp] theorem State.axis_updGrp (g : Nat) (f : Grp → Grp) (n : Nat) : (s.updGrp g f).axis n = s.axis n := rfl

@[simp] theorem State.axis_updHd (b : Block) (f : Hdr → Hdr) (n : Nat) : (s.updHd b f).axis n = s.axis n := rfl

@[simp] theorem State.axis_record (b : Block) (inst code : Nat) (ps : List Nat) (n : Nat) : (s.record b inst code ps).axis n = s.axis n :=
  State.axis_congr (s.mot_record b inst code ps) n

@[simp] theorem State.drive_updDrive_same (d : Nat) (f : Drive → Drive) : (s.updDrive d f).drive d = f (s.drive d) := Tab.get_upd_same _ _ _ _

@[simp] theorem State.grp_updGrp_same (g : Nat) (f : Grp → Grp) : (s.updGrp g f).grp g = f (s.grp g) := Tab.get_upd_same _ _ _ _

theorem State.updGrp_same (g : Nat) (f : Grp → Grp) : SameBut [.mot] s (s.updGrp g f) := State.updMot_same s _

/-- An axis that is not as reset leaves it is listed. -/
theorem State.mem_axesWhere {s : State} {n : Nat} {f : Axis → Bool} (used : s.axis n ≠ {}) (h : f (s.axis n) = true) : n ∈ s.axesWhere f := by
  have listed := (Tab.get_eq_or_mem ({} : Axis) s.mot.axes n).resolve_left used
  exact List.mem_map.mpr ⟨_, List.mem_filter.mpr ⟨listed, h⟩, rfl⟩

/-! ### Events, transitions and phase modes -/

@[simp] theorem State.axis_axisEvt (n m : Nat) : (s.axisEvt n).axis m = s.axis m :=
  State.axis_congr (t := s.axisEvt n) (s := s.updMot _) ((State.mot_routeEvt _ _ _ _).trans (State.mot_irq _ _ _)) m

@[simp] theorem State.axis_axisTo_same (n : Nat) (st : AxState) (cause : Nat) : (s.axisTo n st cause).axis n = { s.axis n with state := st } :=
  (State.axis_record _ _ _ _ _ _).trans (s.axis_updAxis_same n _)

theorem State.axis_axisTo_ne {n m : Nat} (st : AxState) (cause : Nat) (h : m ≠ n) : (s.axisTo n st cause).axis m = s.axis m :=
  (State.axis_record _ _ _ _ _ _).trans (s.axis_updAxis_ne _ h)

@[simp] theorem State.axis_setPhase_same (n : Nat) (m : PhaseMode) : (s.setPhase n m).axis n = { s.axis n with phase := m } := by
  unfold State.setPhase
  split <;> simp

theorem State.axis_setPhase_ne {n k : Nat} (m : PhaseMode) (h : k ≠ n) : (s.setPhase n m).axis k = s.axis k := by
  unfold State.setPhase
  split <;> simp [s.axis_updAxis_ne _ h]

theorem State.setPhase_same (n : Nat) (m : PhaseMode) : SameBut [.mot] s (s.setPhase n m) :=
  SameBut.ite ((State.updAxis_same s n _).trans (State.updDrive_same _ _ _)) (State.updAxis_same s n _)

/-! ### The stop of a group (R234) -/

/-- The parts that a transition of an axis may change. -/
def axisParts : List Part := [.mot, .evr, .hdr, .hts, .out]

/-- The stop of a group changes no axis but its moving members, and not the one that left by its own rule. -/
theorem State.axis_grpStopAt_of_not_stopped (g : Nat) (quick : Bool) {except : Option Nat} (cause : Nat) (mid : Bool) {m : Nat}
    (out : except = some m ∨ (s.axis m).state ≠ .moving) : (s.grpStopAt g quick except cause mid).axis m = s.axis m := by
  unfold State.grpStopAt
  dsimp only
  split
  · rfl
  · refine List.foldlRecOn (motive := fun u : State => u.axis m = s.axis m) _ _ (s.axis_updGrp _ _ m) fun u kept x mem => ?_
    split
    case isFalse => exact kept
    case isTrue moving =>
      have left : some x.axis ≠ except := of_decide_eq_true (List.mem_filter.mp mem).2
      have other : m ≠ x.axis := fun same => out.elim (fun e => left (e ▸ same ▸ rfl)) fun still => still (kept ▸ same ▸ moving)
      rw [State.axis_updAxis_ne _ _ other, State.axis_axisTo_ne _ _ _ other, kept]

theorem State.grpStopAt_same (g : Nat) (quick : Bool) (except : Option Nat) (cause : Nat) (mid : Bool) :
    SameBut axisParts s (s.grpStopAt g quick except cause mid) := by
  have stopped (u : State) (m : Nat) (f : Axis → Axis) : SameBut axisParts u ((u.axisTo m .stopping cause).updAxis m f) :=
    (State.axisTo_same u m _ cause).trans (SameBut.mono' (State.updAxis_same _ m f) rfl)
  unfold State.grpStopAt
  dsimp only
  split
  · exact SameBut.refl _ _
  · exact (SameBut.mono' (State.updGrp_same s g _) rfl).trans (SameBut.foldl (fun u x => SameBut.ite (stopped u _ _) (SameBut.refl _ _)) _ _)

/-! ### An axis turned off (R236, R238) -/

section
variable (n cause : Nat)

/-- An axis turned off is DISABLED at rest with its phases off, and no command waits for it. -/
theorem State.axis_axisOff_same (on : (s.axis n).state ≠ .disabled) :
    ((s.axisOff n cause).axis n).state = .disabled ∧ ((s.axisOff n cause).axis n).motion = .rest ∧
      ((s.axisOff n cause).axis n).phase = .off ∧ ((s.axisOff n cause).axis n).cmd = none := by
  unfold State.axisOff
  dsimp only
  rw [if_neg on]
  split
  · rw [State.axis_grpStopAt_of_not_stopped _ _ _ _ _ (.inl rfl), State.axis_setPhase_same, State.axis_updAxis_same, State.axis_axisTo_same]
    exact ⟨rfl, rfl, rfl, rfl⟩
  · rw [State.axis_setPhase_same, State.axis_updAxis_same, State.axis_axisTo_same]
    exact ⟨rfl, rfl, rfl, rfl⟩

/-- A DISABLED axis stays so when an axis is turned off. -/
theorem State.disabled_axisOff_of_disabled {m : Nat} (off : (s.axis m).state = .disabled) : ((s.axisOff n cause).axis m).state = .disabled := by
  by_cases on : (s.axis n).state = .disabled
  · rwa [State.axisOff, if_pos on]
  · by_cases same : m = n
    · exact absurd (same ▸ off) on
    · unfold State.axisOff
      dsimp only
      rw [if_neg on]
      have turned (f : Axis → Axis) : (((s.axisTo n .disabled cause).updAxis n f).setPhase n .off).axis m = s.axis m := by
        rw [State.axis_setPhase_ne _ _ same, State.axis_updAxis_ne _ _ same, State.axis_axisTo_ne _ _ _ same]
      split
      · rw [State.axis_grpStopAt_of_not_stopped _ _ _ _ _ (.inr (by rw [turned, off]; decide)), turned, off]
      · rw [turned, off]

theorem State.axisOff_same : SameBut axisParts s (s.axisOff n cause) := by
  have turned (f : Axis → Axis) : SameBut axisParts s (((s.axisTo n .disabled cause).updAxis n f).setPhase n .off) :=
    (State.axisTo_same s n _ cause).trans ((SameBut.mono' (State.updAxis_same _ n f) rfl).trans (SameBut.mono' (State.setPhase_same _ n _) rfl))
  unfold State.axisOff
  dsimp only
  split
  · exact SameBut.refl _ _
  · split
    · exact (turned _).trans (State.grpStopAt_same _ _ _ _ _ _)
    · exact turned _

end

end

end Sys2Proof.Machine
end

section
/-!
PROOF. Axis commands are checked at once and wait for the profile boundary (O37). Choices of the model: a later command of an axis discards a whole GMOVE
that waits, MOVE_REL is checked from the commanded position, and LATCH_ARM waits as a move does (log 10); FOLLOW, HOME and GMOVE meet LIMIT_ACTIVE as moves
do (log 12).
-/

namespace Sys2Proof.Machine

section
variable {s : State} {n : Nat}

/-! ### The check of a command (Table MOT-6, R215, R216) -/

/-- ENABLE of a VIRTUAL axis has no condition but its state. -/
theorem State.axisCheck_enable_of_virtual (run : (s.hd .mot).run = true) (off : (s.axis n).state = .disabled) (applied : (s.axis n).applied = true)
    (bind : (s.axis n).desc.bind = .virtual_) : s.axisCheck n .enable = 0 := by
  simp [State.axisCheck, run, off, State.mayEnable, applied, bind]

section
variable (run : (s.hd .mot).run = true)
include run

theorem State.axisCheck_moveAbs (x : Int) : s.axisCheck n (.moveAbs x) =
    if !(s.axis n).mayMove then 0x26 else if (s.axis n).outside (x * 65536) then 0x27
    else if s.blocked (s.axis n) (x * 65536 - fix16 ((s.axis n).posAt s.tick)) then 0x28 else 0 := by
  rw [State.axisCheck, run]
  rfl

theorem State.axisCheck_moveRel (d : Int) : s.axisCheck n (.moveRel d) =
    if !(s.axis n).mayMove then 0x26 else if (s.axis n).outside (fix16 ((s.axis n).posAt s.tick) + d * 65536) then 0x27
    else if s.blocked (s.axis n) d then 0x28 else 0 := by
  rw [State.axisCheck, run]
  rfl

theorem State.axisCheck_moveVel (v : Int) : s.axisCheck n (.moveVel v) =
    if !(s.axis n).mayMove then 0x26 else if s.blocked (s.axis n) v then 0x28 else 0 := by
  rw [State.axisCheck, run]
  rfl

theorem State.axisCheck_stop : s.axisCheck n .stop =
    if (s.axis n).state = .moving ∨ (s.axis n).state = .following ∨ (s.axis n).state = .homing then 0 else 0x26 := by
  rw [State.axisCheck, run]
  rfl

theorem State.axisCheck_qstop : s.axisCheck n .qstop =
    if (s.axis n).state = .moving ∨ (s.axis n).state = .following ∨ (s.axis n).state = .homing then 0 else 0x26 := by
  rw [State.axisCheck, run]
  rfl

theorem State.axisCheck_home : s.axisCheck n .home =
    if (s.axis n).state = .standstill ∧ 1 ≤ (s.axis n).desc.homeMode ∧ (s.axis n).desc.homeMode ≤ 4 then
      (if (s.axis n).desc.homeMode ≠ 4 ∧ s.blocked (s.axis n) (s.axis n).desc.search then 0x28 else 0)
    else 0x26 := by
  rw [State.axisCheck, run]
  rfl

theorem State.axisCheck_follow : s.axisCheck n .follow =
    if (s.axis n).state ≠ .standstill then 0x26
    else if isBad (s.readPoint (s.axis n).desc.cmdPt).q then 0x2C
    else if s.blocked (s.axis n) (sext 16 (s.readPoint (s.axis n).desc.cmdPt).value.toNat) then 0x28 else 0 := by
  rw [State.axisCheck, run]
  rfl

theorem State.axisCheck_resetFault : s.axisCheck n .resetFault = if (s.axis n).state = .fault ∧ s.causeGone (s.axis n) then 0 else 0x26 := by
  rw [State.axisCheck, run]
  rfl

theorem State.axisCheck_latchArm (applied : (s.axis n).applied = true) : s.axisCheck n .latchArm = 0 := by
  simp [State.axisCheck, run, applied]

end

/-- A homing fault and an uncorrectable error leave no condition that persists (Table MOT-6). -/
theorem State.causeGone_of_momentary {a : Axis} (momentary : a.fault = 5 ∨ a.fault = 7) : s.causeGone a = true := by
  rcases momentary with fault | fault <;> simp only [State.causeGone, fault]

/-! ### Accepted and refused commands (R236) -/

/-- From `s` to `t` an axis command is refused with code `e`: MOT reports it, and the motion engine keeps everything. -/
def State.AxisRefused (s t : State) (n e : Nat) : Prop :=
  t.mot = { s.mot with cmdAxis := n, cmdResult := e } ∧ (t.hd .mot).errCode = 0x0D00 + e ∧ SameBut [.mot, .hdr, .hts, .out] s t

theorem State.motResult_refused {e : Nat} (bad : e ≠ 0) : s.AxisRefused (s.motResult n e) n e := by
  rw [State.motResult, if_neg bad]
  exact ⟨State.mot_err _ _ _, congrArg Hdr.errCode (State.hd_err_same _ _ _),
    (SameBut.mono' (State.updMot_same s _) rfl).trans (SameBut.mono' (State.err_same _ _ _) rfl)⟩

@[simp] theorem State.grp_motResult (s : State) (n e g : Nat) : (s.motResult n e).grp g = s.grp g := by
  rw [State.motResult]
  split
  · rfl
  · rw [State.grp, State.mot_err]
    rfl

section
variable {p : Principal} {i : Instr} {code : Nat} {c : State → AxCmd} (runs : exec i s = .next (s.motCmd p n code c))
  (ok : s.writeOk .mot 0x100 .wo p = true)
include runs ok

/-- An accepted command waits for the profile boundary in place of an earlier one, a GMOVE among them (log 10). -/
theorem exec_motCmd_accepted (passed : s.axisCheck n (c s) = 0) :
    exec i s = .next (((s.dropGmoves n).updAxis n fun a => { a with cmd := some (c s) }).updMot fun m => { m with cmdAxis := n, cmdResult := 0 }) := by
  rw [runs, State.motCmd, State.gated_ok _ _ ok, passed]
  rfl

theorem exec_motCmd_refused {e : Nat} (failed : s.axisCheck n (c s) = e) (bad : e ≠ 0) : ∃ t, exec i s = .next t ∧ s.AxisRefused t n e := by
  rw [runs, State.motCmd, State.gated_ok _ _ ok, failed]
  dsimp only
  rw [if_neg bad]
  exact ⟨_, rfl, State.motResult_refused bad⟩

end

/-! ### The axis commands of MOT_CMD -/

section
variable (s : State) (p : Principal) (n : Fin 128)

theorem exec_axisEnable : exec (.axisEnable p n) s = .next (s.motCmd p n.val 1 fun _ => .enable) := rfl
theorem exec_moveAbs : exec (.moveAbs p n) s = .next (s.motCmd p n.val 3 fun s => .moveAbs s.argPos) := rfl
theorem exec_moveRel : exec (.moveRel p n) s = .next (s.motCmd p n.val 4 fun s => .moveRel s.argPos) := rfl
theorem exec_moveVel : exec (.moveVel p n) s = .next (s.motCmd p n.val 5 fun s => .moveVel s.argVel) := rfl
theorem exec_axisStop : exec (.axisStop p n) s = .next (s.motCmd p n.val 6 fun _ => .stop) := rfl
theorem exec_axisQstop : exec (.axisQstop p n) s = .next (s.motCmd p n.val 7 fun _ => .qstop) := rfl
theorem exec_axisHome : exec (.axisHome p n) s = .next (s.motCmd p n.val 8 fun _ => .home) := rfl
theorem exec_axisFollow : exec (.axisFollow p n) s = .next (s.motCmd p n.val 10 fun _ => .follow) := rfl
theorem exec_resetFault : exec (.resetFault p n) s = .next (s.motCmd p n.val 12 fun _ => .resetFault) := rfl
theorem exec_latchArm : exec (.latchArm p n) s = .next (s.motCmd p n.val 13 fun _ => .latchArm) := rfl

end

/-! ### DISABLE and GMOVE (R233, R236) -/

section
variable {p : Principal} {n : Fin 128} (ok : s.writeOk .mot 0x100 .wo p = true)
include ok

theorem axisDisable_refused (off : (s.axis n.val).state = .disabled) : ∃ t, exec (.axisDisable p n) s = .next t ∧ s.AxisRefused t n.val 0x26 := by
  have run : exec (.axisDisable p n) s = .next (s.motResult n.val 0x26) :=
    congrArg Host.Outcome.next ((State.gated_ok _ _ ok).trans (if_pos off))
  exact ⟨_, run, State.motResult_refused (by decide)⟩

theorem axisDisable_of_on (on : (s.axis n.val).state ≠ .disabled) : exec (.axisDisable p n) s = .next ((s.axisOff n.val 0).motResult n.val 0) :=
  congrArg Host.Outcome.next ((State.gated_ok _ _ ok).trans (if_neg on))

/-- An accepted GMOVE replaces what waits for the group's members, and its targets wait with the group. -/
theorem axisGmove_waits {g : Fin 16} (passed : s.gmoveCheck g.val ((List.range 8).map s.gTgt) = 0) :
    ∃ t, exec (.axisGmove p n g) s = .next t ∧ (t.grp g.val).cmd = some ((List.range 8).map s.gTgt) ∧ t.mot.cmdResult = 0 ∧ SameBut [.mot] s t := by
  have dropped (u : State) (m : Nat × Nat) : SameBut [.mot] u ((u.dropGmoves m.2).updAxis m.2 fun a => { a with cmd := none }) :=
    (State.updMot_same u _).trans (State.updAxis_same _ _ _)
  refine ⟨_, congrArg Host.Outcome.next ((State.gated_ok _ _ ok).trans (if_neg (not_not_intro passed))), ?_, rfl,
    ((SameBut.foldl dropped _ s).trans (State.updGrp_same _ _ _)).trans (State.updMot_same _ _)⟩
  dsimp only
  rw [State.grp_motResult, State.grp_updGrp_same]

end

end

/-- Settles O37: each command's check answers as Table MOT-6 says, so it waits for the boundary or reports its code. -/
theorem axisCommandsAreCheckedAtOnce : Obligations.AxisCommandsAreCheckedAtOnce := by
  unfold Obligations.AxisCommandsAreCheckedAtOnce
  intro s p n ok run
  dsimp only
  refine ⟨fun off applied bind => ?enable, fun may => ⟨fun within free => ?moveAbs, fun outside => ?absOutside, fun within blocked => ?absBlocked,
      fun within free => ?moveRel, fun free => ?moveVel, fun blocked => ?velBlocked⟩, fun stays => ⟨?absStays, ?relStays, ?velStays⟩,
    fun moving => ⟨?stop, ?qstop⟩, fun stopping => ⟨?stopTwice, ?qstopTwice⟩,
    fun still => ⟨fun mode => ?home, fun mode => ?unhomed, fun bad => ?followBad, fun good free => ?follow⟩, fun fault momentary => ?reset,
    fun sound => ?resetSound, fun applied => ?latchArm, fun on => ?disable, fun off => axisDisable_refused ok off, fun g passed => axisGmove_waits ok passed⟩
  case enable => exact (exec_motCmd_accepted (exec_axisEnable s p n) ok (State.axisCheck_enable_of_virtual run off applied bind) :)
  case moveAbs => exact (exec_motCmd_accepted (exec_moveAbs s p n) ok (by simp [State.axisCheck_moveAbs run, may, within, free]) :)
  case absOutside => exact exec_motCmd_refused (exec_moveAbs s p n) ok (by simp [State.axisCheck_moveAbs run, may, outside]) (by decide)
  case absBlocked => exact exec_motCmd_refused (exec_moveAbs s p n) ok (by simp [State.axisCheck_moveAbs run, may, within, blocked]) (by decide)
  case moveRel => exact (exec_motCmd_accepted (exec_moveRel s p n) ok (by simp [State.axisCheck_moveRel run, may, within, free]) :)
  case moveVel => exact (exec_motCmd_accepted (exec_moveVel s p n) ok (by simp [State.axisCheck_moveVel run, may, free]) :)
  case velBlocked => exact exec_motCmd_refused (exec_moveVel s p n) ok (by simp [State.axisCheck_moveVel run, may, blocked]) (by decide)
  case absStays => exact exec_motCmd_refused (exec_moveAbs s p n) ok (by simp [State.axisCheck_moveAbs run, stays]) (by decide)
  case relStays => exact exec_motCmd_refused (exec_moveRel s p n) ok (by simp [State.axisCheck_moveRel run, stays]) (by decide)
  case velStays => exact exec_motCmd_refused (exec_moveVel s p n) ok (by simp [State.axisCheck_moveVel run, stays]) (by decide)
  case stop => exact (exec_motCmd_accepted (exec_axisStop s p n) ok ((State.axisCheck_stop run).trans (if_pos moving)) :)
  case qstop => exact (exec_motCmd_accepted (exec_axisQstop s p n) ok ((State.axisCheck_qstop run).trans (if_pos moving)) :)
  case stopTwice => exact exec_motCmd_refused (exec_axisStop s p n) ok (by simp [State.axisCheck_stop run, stopping]) (by decide)
  case qstopTwice => exact exec_motCmd_refused (exec_axisQstop s p n) ok (by simp [State.axisCheck_qstop run, stopping]) (by decide)
  case home => exact (exec_motCmd_accepted (exec_axisHome s p n) ok (by simp [State.axisCheck_home run, still, mode]) :)
  case unhomed => exact exec_motCmd_refused (exec_axisHome s p n) ok (by simp [State.axisCheck_home run, mode]) (by decide)
  case followBad => exact exec_motCmd_refused (exec_axisFollow s p n) ok (by simp [State.axisCheck_follow run, still, bad]) (by decide)
  case follow => exact (exec_motCmd_accepted (exec_axisFollow s p n) ok (by simp [State.axisCheck_follow run, still, good, free]) :)
  case reset =>
    have gone := (State.axisCheck_resetFault run).trans (if_pos ⟨fault, State.causeGone_of_momentary momentary⟩)
    exact (exec_motCmd_accepted (exec_resetFault s p n) ok gone :)
  case resetSound => exact exec_motCmd_refused (exec_resetFault s p n) ok (by simp [State.axisCheck_resetFault run, sound]) (by decide)
  case latchArm => exact (exec_motCmd_accepted (exec_latchArm s p n) ok (State.axisCheck_latchArm run applied) :)
  case disable =>
    obtain ⟨off, rest, phase, cmd⟩ := State.axis_axisOff_same s n.val 0 on
    exact ⟨_, axisDisable_of_on ok on, off, rest, phase, cmd, rfl, (State.axisOff_same s n.val 0).trans (SameBut.mono' (State.updMot_same _ _) rfl)⟩

end Sys2Proof.Machine
end

section
/-!
SUPPORT. A profile boundary with RUN = 0, and one at which a lone axis follows its plan (R211, R238).
-/

namespace Sys2Proof.Machine

/-- A fold that keeps `I`, in which one element brings `P` about and every element keeps it, ends with `P`. -/
theorem foldl_reaches {σ α : Type} {f : σ → α → σ} {I P : σ → Prop} {n : α} {l : List α} (mem : n ∈ l) {s : σ} (init : I s)
    (keeps : ∀ s x, I s → I (f s x)) (sets : ∀ s, I s → P (f s n)) (stays : ∀ s x, P s → P (f s x)) : P (l.foldl f s) := by
  obtain ⟨a, b, rfl⟩ := List.append_of_mem mem
  have before : I (a.foldl f s) := List.foldlRecOn _ _ init fun s h x _ => keeps s x h
  rw [List.foldl_append, List.foldl_cons]
  exact List.foldlRecOn _ _ (sets _ before) fun s h x _ => stays s x h

/-- What every step of a fold leaves as it is, the fold leaves as it is. -/
theorem foldl_keeps {σ α β : Type} (g : σ → β) {f : σ → α → σ} (h : ∀ s x, g (f s x) = g s) (l : List α) (s : σ) : g (l.foldl f s) = g s :=
  List.foldlRecOn (motive := fun u => g u = g s) l f rfl fun u same x _ => (h u x).trans same

section
variable (s : State)

/-! ### RUN = 0 (R238) -/

theorem State.applyAxes_same : SameBut [.mot] s s.applyAxes :=
  (SameBut.foldl (fun s n => State.updAxis_same s n _) _ s).trans (SameBut.foldl (fun s g => State.updGrp_same s g _) _ _)

@[simp] theorem State.state_dropCmds (n : Nat) : (s.dropCmds.axis n).state = (s.axis n).state := by
  have axes (u : State) (k : Nat) : ((u.updAxis k fun a => { a with cmd := none }).axis n).state = (u.axis n).state := by
    by_cases own : n = k
    · rw [own, State.axis_updAxis_same]
    · rw [State.axis_updAxis_ne _ _ own]
  have groups (u : State) (g : Nat) : ((u.updGrp g fun x => { x with cmd := none }).axis n).state = (u.axis n).state := rfl
  exact (foldl_keeps (fun u : State => (u.axis n).state) groups _ _).trans (foldl_keeps (fun u : State => (u.axis n).state) axes _ _)

/-- Where every axis that is on is turned off, every axis is DISABLED: the groups that their members leave turn none on. -/
theorem State.disabled_axesOff (cause n : Nat) :
    (((s.axesWhere fun a => decide (a.state ≠ .disabled)).foldl (fun s n => s.axisOff n cause) s).axis n).state = .disabled := by
  by_cases off : (s.axis n).state = .disabled
  · exact List.foldlRecOn (motive := fun u : State => (u.axis n).state = .disabled) _ _ off fun u kept m _ =>
      State.disabled_axisOff_of_disabled u m cause kept
  · have listed : n ∈ s.axesWhere fun a => decide (a.state ≠ .disabled) := State.mem_axesWhere (fun reset => off (by rw [reset])) (decide_eq_true off)
    refine foldl_reaches (I := fun _ => True) (P := fun u : State => (u.axis n).state = .disabled) listed trivial (fun _ _ _ => trivial) (fun u _ => ?_)
      fun u m kept => State.disabled_axisOff_of_disabled u m cause kept
    by_cases done : (u.axis n).state = .disabled
    · exact State.disabled_axisOff_of_disabled u n cause done
    · exact (State.axis_axisOff_same u n cause done).1

/-- A profile boundary after its descriptors applied. -/
def State.atBoundary : State := (s.updMot fun m => { m with tB := s.tick }).applyAxes

/-- With RUN = 0 a boundary turns every axis off, drops what waits for it and shows that MOT stopped (R236, R238). -/
theorem profilePeriod_of_stopped {s : State} (on : (s.hd .mot).pwr = .on) (stopped : (s.hd .mot).run = false) :
    ∃ t, exec .profilePeriod s = .next t ∧ (∀ n, (t.axis n).state = .disabled) ∧ (t.hd .mot).running = false := by
  let off := (s.atBoundary.axesWhere fun a => decide (a.state ≠ .disabled)).foldl (fun s n => s.axisOff n 5) s.atBoundary
  have hd : s.atBoundary.hd .mot = s.hd .mot := State.hd_congr (State.applyAxes_same _ .hdr (by decide)) _
  have run : exec .profilePeriod s = .next (off.dropCmds.updHd .mot fun h => { h with running := false }) := by
    show execProfilePeriod s = _
    unfold execProfilePeriod
    rw [if_neg (not_not_intro on)]
    dsimp only
    rw [← State.atBoundary, hd, stopped]
    rfl
  refine ⟨_, run, fun n => ?_, ?_⟩
  · rw [State.axis_updHd, State.state_dropCmds, State.disabled_axesOff]
  · rw [State.hd_updHd_same]

end

/-! ### The axis that is alone (R211) -/

theorem Tab.perm_insert {α : Type} (k : Nat) (v : α) : ∀ t : Tab α, (Tab.insert k v t).Perm ((k, v) :: t)
  | [] => .refl _
  | (j, w) :: t => by
    unfold Tab.insert
    split
    · exact .refl _
    · exact ((Tab.perm_insert k v t).cons _).trans (.swap _ _ _)

/-- What is listed in a table after a write of another value than an unlisted key reads as: what was written, and what is not erased. -/
theorem Tab.perm_put {α : Type} [DecidableEq α] {d v : α} (h : v ≠ d) (t : Tab α) (k : Nat) : (Tab.put d t k v).Perm ((k, v) :: Tab.erase t k) := by
  rw [Tab.put, if_neg h]
  exact Tab.perm_insert k v _

/-- A change of the one applied axis that leaves it applied leaves it alone. -/
theorem State.axesApplied_updAxis {s : State} {n : Nat} (alone : s.axesApplied = [n]) {f : Axis → Axis} (applied : (f (s.axis n)).applied = true) :
    (s.updAxis n f).axesApplied = [n] := by
  have used : f (s.axis n) ≠ {} := fun reset => by rw [reset] at applied; exact absurd applied (by decide)
  have erased : ((Tab.erase s.mot.axes n).filter fun e => e.2.applied) = [] := List.filter_eq_nil_iff.mpr fun e mem listed => by
    have only : e.1 ∈ s.axesApplied := List.mem_map.mpr ⟨e, List.mem_filter.mpr ⟨Tab.mem_of_mem_erase mem, listed⟩, rfl⟩
    rw [alone, List.mem_singleton] at only
    exact Tab.erase_keys _ e mem only
  have listed := (((Tab.perm_put used s.mot.axes n).filter fun e => e.2.applied).map Prod.fst)
  rw [List.filter_cons_of_pos (p := fun e : Nat × Axis => e.2.applied) applied, erased] at listed
  exact List.perm_singleton.mp listed

/-- In `u`, a state within the profile boundary of `s`, axis `n` is `a` and the only applied one, and no group is in use. -/
structure State.Lone (s u : State) (n : Nat) (a : Axis) : Prop where
  own : u.axis n = a
  alone : u.axesApplied = [n]
  grps : u.mot.grps = []
  tB : u.mot.tB = s.tick
  tick : u.tick = s.tick
  running : (u.hd .mot).running = true

section
variable {s t u : State} {n : Nat} {a : Axis} (h : State.Lone s t n a)
include h

/-- What leaves the motion engine, its header and the time alone leaves a lone axis alone. -/
theorem State.Lone.keep (mot : u.mot = t.mot) (tim : u.tim = t.tim) (hd : (u.hd .mot).running = (t.hd .mot).running) : State.Lone s u n a :=
  ⟨(State.axis_congr mot n).trans h.own, by rw [State.axesApplied, mot]; exact h.alone, by rw [mot, h.grps], by rw [mot, h.tB],
    by rw [← h.tick, State.tick, State.tick, State.now, State.now, tim], by rw [hd, h.running]⟩

theorem State.Lone.updAxis {f : Axis → Axis} {b : Axis} (becomes : f a = b) (applied : b.applied = true) : State.Lone s (t.updAxis n f) n b :=
  ⟨by rw [State.axis_updAxis_same, h.own, becomes], State.axesApplied_updAxis h.alone (by rw [h.own, becomes, applied]), h.grps, h.tB, h.tick, h.running⟩

theorem State.Lone.record (code : Nat) (ps : List Nat) : State.Lone s (t.record .mot 0 code ps) n a :=
  h.keep (t.mot_record _ _ _ _) (State.record_same t _ _ _ _ .tim (by decide)) (congrArg Hdr.running (State.hd_record t _ _ _ _ (by decide)))

theorem State.Lone.axisEvt : State.Lone s (t.axisEvt n) n a := by
  let evt := t.updMot fun m => { m with evt := Tab.upd 0 m.evt (n / 32) fun w => setBit w (n % 32) }
  have marked : State.Lone s evt n a := ⟨h.own, h.alone, h.grps, h.tB, h.tick, h.running⟩
  have raised : State.Lone s (evt.irq .mot 9) n a :=
    marked.keep (evt.mot_irq _ _) (State.irq_same evt _ _ .tim (by decide)) (by rw [State.hd_irq_same evt .mot 9])
  exact raised.keep (State.mot_routeEvt _ _ _ _) (State.routeEvt_same _ _ _ _ .tim (by decide))
    (congrArg Hdr.running (State.hd_congr (State.routeEvt_same _ _ _ _ .hdr (by decide)) _))

theorem State.Lone.axisTo (applied : a.applied = true) (st : AxState) (cause : Nat) : State.Lone s (t.axisTo n st cause) n { a with state := st } :=
  (h.updAxis (f := fun a => { a with state := st }) rfl applied).record _ _

theorem State.Lone.setPhase (applied : a.applied = true) (remote : a.desc.bind ≠ .local_) (m : PhaseMode) :
    State.Lone s (t.setPhase n m) n { a with phase := m } := by
  unfold State.setPhase
  dsimp only
  rw [if_neg (h.own ▸ remote)]
  exact h.updAxis rfl applied

/-- An axis at rest since a tick: in full hold until its delay has passed (R227). -/
def Axis.rested (a : Axis) (t : Nat) : Axis :=
  { a with state := .standstill, motion := .rest, vel := 0, accl := 0, velCmd := 0, inGroup := none, holding := true, holdSince := t,
           homeStep := .none, phase := .full }

/-- An axis without a drive channel comes to rest. -/
theorem State.Lone.rest (applied : a.applied = true) (remote : a.desc.bind ≠ .local_) (cause : Nat) : State.Lone s (t.rest n cause) n (a.rested s.tick) := by
  have rests : State.Lone s (t.rest n cause) n (a.rested t.tick) :=
    State.Lone.setPhase (a := { a.rested t.tick with phase := a.phase }) ((h.axisTo applied .standstill cause).updAxis rfl applied) applied remote .full
  rwa [h.tick] at rests

end

end Sys2Proof.Machine
end

section
/-!
SUPPORT. A lone axis in motion along its plan through a profile boundary (R211, R226, R232).
-/

namespace Sys2Proof.Machine

/-- An axis in motion, `k` periods into its plan, that nothing disturbs: no group, no command, no new parameters, no fault, no check and no limit. -/
structure Axis.OnPlan (a : Axis) (pl : Plan) (k : Nat) : Prop where
  applied : a.applied = true
  state : a.state = .moving
  motion : a.motion = .plan pl k
  inGroup : a.inGroup = none
  cmd : a.cmd = none
  replan : a.replan = false
  faultNext : a.faultNext = 0
  encEn : a.desc.encEn = false
  stallEn : a.desc.stallEn = false
  bind : a.desc.bind = .virtual_
  limP : a.desc.limP = none
  limN : a.desc.limN = none

/-- The axis one period further along its plan, at a tick. -/
def Axis.advanced (a : Axis) (pl : Plan) (k t : Nat) : Axis :=
  { a.rebase t (pl.at_ (k + 1)).1 0 with
    vel := (pl.at_ (k + 1)).2.1, accl := (pl.at_ (k + 1)).2.2, motion := .plan pl (k + 1), ferrCnt := 0, stallCnt := 0, stallSum := 0, stallN := 0 }

/-- The axis at the boundary: at rest where its plan ends. -/
def Axis.settled (a : Axis) (pl : Plan) (k t : Nat) : Axis := if pl.len ≤ k + 1 then (a.advanced pl k t).rested t else a.advanced pl k t

/-- The commanded position where a straight part begins. -/
theorem Axis.posAt_start {a : Axis} {t : Nat} (start : a.base.t = t) : a.posAt t = a.base.p := by
  subst start
  have still : q 0 = 0 := rfl
  simp only [Axis.posAt, Nat.le_refl, if_true, Nat.sub_self, still, Rat.mul_zero, Rat.add_zero]

section
variable {a : Axis} {pl : Plan} {k : Nat} (plan : a.OnPlan pl k)
include plan

theorem Axis.OnPlan.not_ferrRuns : a.ferrRuns = false := by simp [Axis.ferrRuns, plan.encEn]

section
variable {s t : State} {n : Nat} (own : t.axis n = a)
include own

theorem State.motionAt_of_onPlan :
    t.motionAt n = ((pl.at_ (k + 1)).1, (pl.at_ (k + 1)).2.1, (pl.at_ (k + 1)).2.2, decide (pl.len ≤ k + 1)) := by
  unfold State.motionAt
  dsimp only
  rw [own, plan.motion]

/-- Nothing that a boundary checks is due. -/
theorem State.axisChecks_of_onPlan : t.axisChecks n = (t.updAxis n fun a => { a with ferrCnt := 0, stallCnt := 0 }, 0) := by
  simp [State.axisChecks, own, plan.not_ferrRuns, plan.stallEn, plan.bind, plan.faultNext, plan.state]

end

end

/-! ### What the axis keeps through its period -/

section
variable (a : Axis) (pl : Plan) (k t : Nat)

@[simp] theorem Axis.desc_settled : (a.settled pl k t).desc = a.desc := by
  unfold Axis.settled
  split <;> rfl

@[simp] theorem Axis.applied_settled : (a.settled pl k t).applied = a.applied := by
  unfold Axis.settled
  split <;> rfl

@[simp] theorem Axis.cmd_settled : (a.settled pl k t).cmd = a.cmd := by
  unfold Axis.settled
  split <;> rfl

@[simp] theorem Axis.replan_settled : (a.settled pl k t).replan = a.replan := by
  unfold Axis.settled
  split <;> rfl

@[simp] theorem Axis.base_settled : (a.settled pl k t).base = { t := t, p := (pl.at_ (k + 1)).1, slope := 0 } := by
  unfold Axis.settled
  split <;> rfl

end

theorem State.replanned_of_kept {s : State} {n : Nat} (kept : (s.axis n).replan = false) : s.replanned n = s := by
  simp [State.replanned, kept]

/-- An axis without limit points has no limit ahead. -/
theorem State.limitAhead_of_none (s : State) {a : Axis} (limP : a.desc.limP = none) (limN : a.desc.limN = none) (v : Rat) : s.limitAhead a v = false := by
  simp [State.limitAhead, limP, limN, State.limActive]

section
variable {s t : State} {n : Nat} {a : Axis} {pl : Plan} {k : Nat} (h : State.Lone s t n a)
include h

/-- A boundary takes a lone axis one period further; where its plan ends it comes to rest. -/
theorem State.Lone.axisPeriod (plan : a.OnPlan pl k) : State.Lone s (t.axisPeriod n) n (a.settled pl k s.tick) := by
  unfold State.axisPeriod
  rw [State.motionAt_of_onPlan plan h.own, State.axisChecks_of_onPlan plan h.own, h.own]
  extract_lets a0 act
  have acts : act = true := by simp [act, a0, plan.state]
  rw [acts, if_pos rfl]
  dsimp -zeta only
  extract_lets moved counted settled planned now blocked limited
  have remote : a.desc.bind ≠ .local_ := by rw [plan.bind]; decide
  have advanced : State.Lone s counted n (a.advanced pl k s.tick) := by
    have once : State.Lone s moved n { a.advanced pl k s.tick with ferrCnt := a.ferrCnt, stallCnt := a.stallCnt, stallSum := a.stallSum, stallN := a.stallN } :=
      h.updAxis (by rw [plan.motion, h.tick]; rfl) plan.applied
    exact once.updAxis (by rw [State.axis_updAxis_same]; rfl) plan.applied
  have rests : State.Lone s settled n (a.settled pl k s.tick) := by
    simp only [settled, a0, plan.state, plan.inGroup, Option.isNone_none, Bool.and_true, decide_eq_true_eq, Axis.settled]
    split
    · exact advanced.axisEvt.rest plan.applied remote 1
    · exact advanced
  have kept : planned = settled := State.replanned_of_kept (by rw [rests.own, Axis.replan_settled, plan.replan])
  have own : now = a.settled pl k s.tick := by rw [← rests.own, ← kept]
  have free : limited = settled := by
    have none : planned.limitAhead now now.vel = false :=
      State.limitAhead_of_none _ (by rw [own, Axis.desc_settled, plan.limP]) (by rw [own, Axis.desc_settled, plan.limN]) _
    exact (if_neg fun ahead => absurd (none.symm.trans ahead.2) (by decide)).trans kept
  have idle : (limited.axis n).cmd = none := by rw [free, rests.own, Axis.cmd_settled, plan.cmd]
  rw [if_neg (not_not_intro rfl), idle, free]
  exact rests

/-- How fast the axis moves until the next boundary, per tick: on to where its plan stands there, or not at all. -/
def Plan.slopeAfter (pl : Plan) (k : Nat) : Rat := if pl.len ≤ k + 1 then 0 else ((pl.at_ (k + 2)).1 - (pl.at_ (k + 1)).1) / 8000

theorem State.Lone.setNext (applied : a.applied = true) (p pNext : Rat) :
    State.Lone s (t.setNext n p pNext) n { a.rebase s.tick p ((pNext - p) / 8000) with jump := a.jump } := by
  have ticks : q profileTicks = 8000 := rfl
  exact h.updAxis (by rw [h.tick, ticks]) applied

end

/-- Until the next boundary the axis moves in a straight line to where its plan stands there. -/
theorem State.Lone.axisNext {s t : State} {n : Nat} {a : Axis} {pl : Plan} {k : Nat} (h : State.Lone s t n (a.settled pl k s.tick))
    (applied : a.applied = true) :
    State.Lone s (t.axisNext n) n { (a.settled pl k s.tick).rebase s.tick (pl.at_ (k + 1)).1 (pl.slopeAfter k) with jump := (a.settled pl k s.tick).jump } := by
  have p : (a.settled pl k s.tick).posAt t.tick = (pl.at_ (k + 1)).1 := by rw [h.tick, Axis.posAt_start (by rw [Axis.base_settled]), Axis.base_settled]
  have next := h.setNext ((a.applied_settled _ _ _).trans applied) (pl.at_ (k + 1)).1
  unfold State.axisNext
  dsimp only
  rw [h.own, p]
  by_cases ended : pl.len ≤ k + 1
  · have motion : (a.settled pl k s.tick).motion = .rest := by rw [Axis.settled, if_pos ended]; rfl
    have slope : ((pl.at_ (k + 1)).1 - (pl.at_ (k + 1)).1) / 8000 = pl.slopeAfter k := by rw [Plan.slopeAfter, if_pos ended, Rat.sub_self, Rat.div_def, Rat.zero_mul]
    rw [motion]
    exact slope ▸ next (pl.at_ (k + 1)).1
  · have motion : (a.settled pl k s.tick).motion = .plan pl (k + 1) := by rw [Axis.settled, if_neg ended]; rfl
    have slope : ((pl.at_ (k + 2)).1 - (pl.at_ (k + 1)).1) / 8000 = pl.slopeAfter k := by rw [Plan.slopeAfter, if_neg ended]
    rw [motion]
    exact slope ▸ next (pl.at_ (k + 2)).1

/-! ### The boundary of a lone axis -/

theorem State.applyAxes_of_none {s : State} (axes : ∀ e ∈ s.mot.axes, e.2.next = none) (grps : s.mot.grps = []) : s.applyAxes = s := by
  have none : (s.axesWhere fun a => a.next.isSome) = [] :=
    List.map_eq_nil_iff.mpr (List.filter_eq_nil_iff.mpr fun e mem => by simp [axes e mem])
  unfold State.applyAxes
  rw [none, List.foldl_nil]
  dsimp only
  rw [grps]
  rfl

theorem profilePeriod_of_lone {s : State} {n : Nat} {pl : Plan} {k : Nat} (on : (s.hd .mot).pwr = .on) (run : (s.hd .mot).run = true)
    (alone : s.axesApplied = [n]) (grps : s.mot.grps = []) (axes : ∀ e ∈ s.mot.axes, e.2.next = none) (plan : (s.axis n).OnPlan pl k) :
    ∃ t, exec .profilePeriod s = .next t ∧ State.Lone s t n
      { ((s.axis n).settled pl k s.tick).rebase s.tick (pl.at_ (k + 1)).1 (pl.slopeAfter k) with jump := ((s.axis n).settled pl k s.tick).jump } := by
  let s1 := s.updMot fun m => { m with tB := s.tick }
  have applied : s.atBoundary = s1 := State.applyAxes_of_none (s := s1) axes grps
  have begun : State.Lone s (s1.runFollow .mot) n (s.axis n) :=
    ⟨rfl, alone, grps, rfl, rfl, by rw [State.hd_runFollow]; exact run⟩
  have period := begun.axisPeriod plan
  have next := period.axisNext plan.applied
  refine ⟨_, ?_, next⟩
  show execProfilePeriod s = _
  unfold execProfilePeriod
  rw [if_neg (not_not_intro on)]
  dsimp only
  rw [← State.atBoundary, applied, show (s1.hd .mot).run = true from run, State.grpsListed, show s1.mot.grps = [] from grps]
  simp only [Bool.not_true, Bool.false_eq_true, if_false, List.map_nil, List.foldl_nil, begun.alone, List.foldl_cons, State.grpsListed, period.grps,
    period.alone]

end Sys2Proof.Machine
end

section
/-!
SUPPORT. The phase drive and the inputs of the motion engine: a PWM period, the hold, an encoder's edge, a latch's edge (R220–R230).
-/

namespace Sys2Proof.Machine

section
variable {s : State}

/-! ### The phase drive (R221–R223, R227) -/

theorem pwmPeriod_of_unbound {d : Fin 16} (unbound : s.driveAxis d.val = none) (t : Nat) :
    exec (.pwmPeriod d { tick := t }) s =
      .next (s.updDrive d.val fun x => { x with per := bits (s.regAt R.MOT_DRV_CFG (4 * d.val)) 14 0, t0 := t, mode := .off }) := by
  have bound : (if s.erm.fatal then none else s.driveAxis d.val) = none := by rw [unbound, ite_self]
  show Host.Outcome.next (s.pwmPeriod d.val t) = _
  unfold State.pwmPeriod
  rw [bound]

/-- A good bus voltage is taken, and the axis's phase mode and descriptor stay. -/
theorem State.axis_readVbus_of_good {n : Nat} (good : isBad (s.readPoint (s.axis n).desc.vbusPt).q = false) :
    ((s.readVbus n).axis n).desc = (s.axis n).desc ∧ ((s.readVbus n).axis n).phase = (s.axis n).phase ∧
      ((s.readVbus n).axis n).vbus = sext 16 (s.readPoint (s.axis n).desc.vbusPt).value.toNat := by
  unfold State.readVbus
  dsimp only
  rw [State.axis_updAxis_same, good]
  exact ⟨rfl, rfl, rfl⟩

/-- Under a known bus voltage the amplitude is limited, and the duties of the two phases are those of the angle (R220–R222). -/
theorem State.drive_of_vbus {n : Nat} (p v : Rat) {x : Int} (known : (s.axis n).amplRaw v = some x) :
    let ampl := min (s.axis n).desc.dutyMax x
    let th := (s.axis n).thetaAt p
    ((s.drive_ n p v).1.axis n).ampl = ampl ∧ ((s.drive_ n p v).1.axis n).theta = th ∧
      (s.drive_ n p v).2 = (phaseDuty ampl th, phaseDuty ampl (th + 768)) ∧ (s.drive_ n p v).1.mot.drives = s.mot.drives := by
  unfold State.drive_
  dsimp only
  rw [known]
  dsimp only
  rw [State.axis_updAxis_same]
  exact ⟨rfl, rfl, rfl, rfl⟩

/-- The amplitude in full drive on a bus voltage before its limit, at a speed in units/s (R221). -/
def AxisDesc.rawAmpl (d : AxisDesc) (v : Rat) (vbus : Int) : Int :=
  fix16 (((d.uRi : Rat) + (d.keVmax : Rat) * absQ v / q (max 1 d.vmax)) * 32768 / (vbus : Rat))

theorem Axis.amplRaw_of_full {a : Axis} (full : a.phase = .full) (vbus : a.vbus ≠ 0) (v : Rat) : a.amplRaw v = some (a.desc.rawAmpl v a.vbus) := by
  rw [Axis.amplRaw, full]
  exact if_neg vbus

theorem Axis.thetaAt_congr {a b : Axis} (desc : b.desc = a.desc) (p : Rat) : b.thetaAt p = a.thetaAt p := by rw [Axis.thetaAt, Axis.thetaAt, desc]

/-- A period in full drive gives its channel the windows of the duties at the period's midpoint (R223). -/
theorem State.pwmPeriod_of_full {d n : Nat} (live : s.erm.fatal = false) (bound : s.driveAxis d = some n) (full : ((s.readVbus n).axis n).phase = .full)
    (t : Nat) :
    let per := bits (s.regAt R.MOT_DRV_CFG (4 * d)) 14 0
    let path := s.pathAt n (t + per / 2)
    let driven := (s.readVbus n).drive_ n path.1 (slopeUnits path.2)
    s.pwmPeriod d t = driven.1.updDrive d fun x =>
      { x with per := per, t0 := t, mode := .full, dA := driven.2.1, dB := driven.2.2, wA := windowStart x.wA x.per (windowOf driven.2.1 per),
               wB := windowStart x.wB x.per (windowOf driven.2.2 per) } := by
  unfold State.pwmPeriod
  dsimp only
  rw [live, if_neg Bool.false_ne_true, bound]
  dsimp only
  rw [full]
  rfl

/-- A period in full drive on a good bus voltage sets amplitude and angle for its midpoint, and its windows are those of their duties (R220–R223). -/
theorem pwmPeriod_drives {d : Fin 16} {n : Nat} (live : s.erm.fatal = false) (bound : s.driveAxis d.val = some n) (full : (s.axis n).phase = .full)
    (good : isBad (s.readPoint (s.axis n).desc.vbusPt).q = false) (vbus : sext 16 (s.readPoint (s.axis n).desc.vbusPt).value.toNat ≠ 0) (t : Nat) :
    let per := bits (s.regAt R.MOT_DRV_CFG (4 * d.val)) 14 0
    let path := s.pathAt n (t + per / 2)
    let ampl := min (s.axis n).desc.dutyMax ((s.axis n).desc.rawAmpl (slopeUnits path.2) (sext 16 (s.readPoint (s.axis n).desc.vbusPt).value.toNat))
    let th := (s.axis n).thetaAt path.1
    ∃ u, exec (.pwmPeriod d { tick := t }) s = .next u ∧ (u.axis n).ampl = ampl ∧ (u.axis n).theta = th ∧
      u.drive d.val = { per := per, t0 := t, mode := .full, dA := phaseDuty ampl th, dB := phaseDuty ampl (th + 768),
                        wA := windowStart (s.drive d.val).wA (s.drive d.val).per (windowOf (phaseDuty ampl th) per),
                        wB := windowStart (s.drive d.val).wB (s.drive d.val).per (windowOf (phaseDuty ampl (th + 768)) per) } := by
  intro per path ampl th
  obtain ⟨desc, phase, volts⟩ := State.axis_readVbus_of_good good
  have known := Axis.amplRaw_of_full (phase.trans full) (by rw [volts]; exact vbus) (slopeUnits path.2)
  rw [desc, volts] at known
  obtain ⟨amplSet, angleSet, duties, drives⟩ := State.drive_of_vbus path.1 (slopeUnits path.2) known
  rw [desc] at amplSet duties
  rw [Axis.thetaAt_congr desc] at angleSet duties
  have own : ((s.readVbus n).drive_ n path.1 (slopeUnits path.2)).1.drive d.val = s.drive d.val := by
    rw [State.drive, drives]
    rfl
  have run : exec (.pwmPeriod d { tick := t }) s = .next (s.pwmPeriod d.val t) := rfl
  have drawn := State.pwmPeriod_of_full live bound (phase.trans full) t
  dsimp only at drawn
  refine ⟨_, run.trans (congrArg Host.Outcome.next drawn), ?_, ?_, ?_⟩
  · rw [State.axis_updDrive]
    exact amplSet
  · rw [State.axis_updDrive]
    exact angleSet
  · rw [State.drive_updDrive_same, own, duties]

/-- The hold ends in the standstill mode of the axis's descriptor (R227). -/
theorem holdDelayExpiry_ends {n : Fin 128} (still : (s.axis n.val).state = .standstill) (holding : (s.axis n.val).holding = true) :
    ∃ t, exec (.holdDelayExpiry n) s = .next t ∧ (t.axis n.val).state = .standstill ∧ (t.axis n.val).holding = false ∧
      (t.axis n.val).phase = (if (s.axis n.val).desc.standstill = 0 then .reduced else if (s.axis n.val).desc.standstill = 1 then .off else .short) ∧
      SameBut [.mot] s t := by
  refine ⟨_, congrArg Host.Outcome.next (if_pos ⟨still, holding⟩), ?_, ?_, ?_, (State.updAxis_same s _ _).trans (State.setPhase_same _ _ _)⟩
  · rw [State.axis_setPhase_same, State.axis_updAxis_same]
    exact still
  · rw [State.axis_setPhase_same, State.axis_updAxis_same]
  · rw [State.axis_setPhase_same]
    match (s.axis n.val).desc.standstill with
    | 0 => rfl
    | 1 => rfl
    | _ + 2 => rfl

end

end Sys2Proof.Machine
end

section
/-!
SUPPORT. The inputs of the motion engine: an encoder's edge, a latch's edge, a loop's placed acquisition, and what the coordinates that follow them leave of the
motion engine (R186, R188, R228–R230).
-/

namespace Sys2Proof.Machine

section
variable (s : State)

/-! ### Coordinates (R186, R188) -/

/-- The parts that a change of a coordinate's validity may change. -/
def coordParts : List Part := [.csc, .evr, .hdr, .hts, .out]

theorem State.setValid_same (c : Nat) (ok : Bool) (cause t : Nat) : SameBut coordParts s (s.setValid c ok cause t) := by
  have raised (f : Csc → Csc) : SameBut coordParts s ((s.updCsc f).irq .csc 10) :=
    (SameBut.mono' (State.updCsc_same s f) rfl).trans (SameBut.mono' (State.irq_same _ _ _) rfl)
  have told (u : State) (code : Nat) (ps : List Nat) : SameBut coordParts u (u.record .csc 0 code ps) := SameBut.mono' (State.record_same u _ _ _ _) rfl
  exact SameBut.ite (SameBut.refl _ _) (SameBut.ite ((raised _).trans (told _ _ _)) ((raised _).trans (told _ _ _)))

theorem State.hd_mot_setValid (c : Nat) (ok : Bool) (cause t : Nat) : (s.setValid c ok cause t).hd .mot = s.hd .mot := by
  unfold State.setValid
  dsimp only
  split
  · rfl
  · split <;> rw [State.hd_record _ _ _ _ _ (by decide), State.hd_irq_ne _ _ (by decide)] <;> rfl

theorem State.judgeCoord_same (c t : Nat) : SameBut coordParts s (s.judgeCoord c t) := SameBut.ite (SameBut.refl _ _) (State.setValid_same s _ _ _ _)

theorem State.hd_mot_judgeCoord (c t : Nat) : (s.judgeCoord c t).hd .mot = s.hd .mot := by
  unfold State.judgeCoord
  split
  · rfl
  · exact State.hd_mot_setValid s _ _ _ _

theorem State.judgeCoords_same (t : Nat) : SameBut coordParts s (s.judgeCoords t) := by
  refine SameBut.foldl (fun u c => ?_) _ _
  dsimp only
  split
  · exact (SameBut.ite (State.setValid_same u _ _ _ _) (SameBut.refl _ _)).trans (State.judgeCoord_same _ _ _)
  · exact State.judgeCoord_same u _ _

@[simp] theorem State.mot_judgeCoords (t : Nat) : (s.judgeCoords t).mot = s.mot := State.judgeCoords_same s t .mot (by decide)

@[simp] theorem State.hd_mot_judgeCoords (t : Nat) : (s.judgeCoords t).hd .mot = s.hd .mot := by
  refine foldl_keeps (fun u : State => u.hd .mot) (fun u c => ?_) _ _
  dsimp only
  rw [State.hd_mot_judgeCoord]
  split
  · split
    · exact State.hd_mot_setValid u _ _ _ _
    · rfl
  · rfl

theorem State.encCoordEdge_same (n : Nat) : SameBut [.csc] s (s.encCoordEdge n) := SameBut.foldl (fun u _ => State.updCsc_same u _) _ s

theorem State.indexEdge_same (n : Nat) (count : Int) (up : Bool) : SameBut [.csc] s (s.indexEdge n count up) :=
  SameBut.foldl (fun u _ => State.updCsc_same u _) _ s

theorem State.pulseEdge_same (src t : Nat) : SameBut [.csc] s (s.pulseEdge src t) := SameBut.foldl (fun u _ => State.updCsc_same u _) _ s

end

/-! ### Encoders (R228) -/

section
variable {s : State} {n : Nat}

/-- An encoder's inputs and count are written. -/
def State.putEnc (s : State) (n : Nat) (e : Enc) : State := s.updMot fun m => { m with encs := Tab.put {} m.encs n e }

@[simp] theorem State.enc_putEnc_same (e : Enc) : (s.putEnc n e).enc n = e := Tab.get_put_same _ _ _ _

/-- An edge reaches the coordinates after the motion engine, which they leave alone. -/
theorem exec_encoderEdge (on : (s.hd .mot).pwr = .on) (n : Fin 16) (a b i : Bool) (held t : Nat) :
    ∃ u, exec (.encoderEdge n a b i held t) s = .next u ∧ u.mot = (s.encEdge n.val a b i held t).mot ∧
      u.hd .mot = (s.encEdge n.val a b i held t).hd .mot := by
  show ∃ u, execEncoderEdge n a b i held t s = .next u ∧ _
  unfold execEncoderEdge
  rw [if_neg (not_not_intro on)]
  extract_lets e0 s1 e1 s2 s3
  have counted : SameBut [.csc] s1 s2 := SameBut.ite (State.encCoordEdge_same _ _) (SameBut.refl _ _)
  have followed : SameBut [.csc] s1 s3 := counted.trans (SameBut.ite (State.indexEdge_same _ _ _ _) (SameBut.refl _ _))
  exact ⟨_, rfl, (State.mot_judgeCoords _ _).trans (followed .mot (by decide)),
    (State.hd_mot_judgeCoords _ _).trans (State.hd_congr (followed .hdr (by decide)) _)⟩

/-- What no change of an axis touches is kept where several axes change, or none. -/
theorem kept_ite_foldl_updAxis {β : Type} (g : State → β) {f : Axis → Axis} (h : ∀ u k, g (u.updAxis k f) = g u) (c : Prop) [Decidable c]
    (ns : List Nat) (u : State) : g (if c then ns.foldl (fun s k => s.updAxis k f) u else u) = g u := by
  split
  · exact foldl_keeps g h ns u
  · rfl

section
variable {a b i : Bool} {held t : Nat} (enabled : bit (s.encCfg n) 0 = true) (long : bits (s.encCfg n) 4 2 + 1 ≤ held) (moves : (s.enc n).a ≠ a)
include enabled long moves

/-- An edge of input A alone counts one step (R228); which direction is positive is the model's reading (log 16). -/
theorem State.encEdge_counts (same : (s.enc n).b = b) :
    ((s.encEdge n a b i held t).enc n).a = a ∧ ((s.encEdge n a b i held t).enc n).i = i ∧
      ((s.encEdge n a b i held t).enc n).count =
        (BitVec.ofInt 64 ((s.enc n).count + (if a = b then -1 else 1) * (if bit (s.encCfg n) 1 then -1 else 1))).toInt := by
  unfold State.encEdge
  extract_lets cfg e put both moved erred told d c s1 e1 idx s2
  rw [if_neg (by simp [cfg, enabled]), if_neg (Nat.not_lt.mpr long)]
  have one : both = false := by simp [both, e, same]
  have steps : moved = true := by simp [moved, e, moves]
  have count : c = (BitVec.ofInt 64 ((s.enc n).count + (if a = b then -1 else 1) * (if bit (s.encCfg n) 1 then -1 else 1))).toInt := by
    simp only [c, d, e, cfg, quadStep, if_pos moves, same]
  have counted : e1 = ({ e with a := a, b := b } : Enc).counted t c (decide (0 < d)) := by
    have first : s1 = put s (({ e with a := a, b := b } : Enc).counted t c (decide (0 < d))) := (if_neg (by rw [one]; decide)).trans (if_pos steps)
    simp only [e1, first]
    exact State.enc_putEnc_same _
  have last : s2.enc n = { e1 with i := i, index := if idx then some (t, e1.count) else e1.index } := State.enc_putEnc_same _
  rw [kept_ite_foldl_updAxis (fun u : State => u.enc n) (fun _ _ => rfl), last, counted]
  exact ⟨rfl, rfl, count⟩

/-- A change of both inputs counts nothing: it sets the encoder's error bit and cause 11 (R228). -/
theorem State.encEdge_errs (differs : (s.enc n).b ≠ b) :
    ((s.encEdge n a b i held t).enc n).count = (s.enc n).count ∧ nbit (s.encEdge n a b i held t).mot.encErr n = true ∧
      bit ((s.encEdge n a b i held t).hd .mot).irqRaw 11 = true := by
  unfold State.encEdge
  extract_lets cfg e put both moved erred told d c s1 e1 idx s2
  rw [if_neg (by simp [cfg, enabled]), if_neg (Nat.not_lt.mpr long)]
  have two : both = true := by simp [both, e, moves, differs]
  have kept {β : Type} (g : State → β) (h : ∀ f u k, g (State.updAxis u k f) = g u) : g s1 = g told := by
    simp only [s1, if_pos two]
    exact foldl_keeps g (h _) _ _
  have mot : told.mot = erred.mot := (State.mot_record _ _ _ _ _).trans (State.mot_irq _ _ _)
  have read : e1 = { e with a := a, b := b } := by
    have first : told.enc n = { e with a := a, b := b } := by
      rw [State.enc, mot]
      exact State.enc_putEnc_same (s := s) _
    exact (kept (fun u => u.enc n) fun _ _ _ => rfl).trans first
  have last : s2.enc n = { e1 with i := i, index := if idx then some (t, e1.count) else e1.index } := State.enc_putEnc_same _
  have hd : s2.hd .mot = (erred.irq .mot 11).hd .mot := (kept (fun u => u.hd .mot) fun _ _ _ => rfl).trans (State.hd_record _ _ _ _ _ (by decide))
  have err : s2.mot.encErr = nput s.mot.encErr n true := (kept (fun u => u.mot.encErr) fun _ _ _ => rfl).trans (congrArg Mot.encErr mot)
  rw [kept_ite_foldl_updAxis (fun u : State => u.enc n) (fun _ _ => rfl), kept_ite_foldl_updAxis (fun u : State => u.mot.encErr) (fun _ _ => rfl),
    kept_ite_foldl_updAxis (fun u : State => u.hd .mot) (fun _ _ => rfl), last, read, err, hd, State.hd_irq_same]
  exact ⟨rfl, nbit_nput_same _ _, bit_setBit_same _ (by decide)⟩

end

end

/-! ### Latches (R230) -/

/-- An axis whose latch captured position `p` at tick `t`; its commanded position there is still known. -/
structure Axis.Captured (a : Axis) (p : Rat) (t : Nat) : Prop where
  disarmed : a.latArmed = false
  captured : a.latCap = true
  pos : a.latPos = fix16 p
  time : a.latT = t * 5 / 2
  stays : a.posAt t = p

section
variable (s : State) (n t src : Nat)

theorem State.axis_capture_ne {m : Nat} (other : m ≠ n) : (s.capture n t src).axis m = s.axis m := by
  unfold State.capture
  dsimp only
  rw [State.axis_axisEvt, State.axis_record, State.axis_updAxis_ne _ _ other]

theorem State.axis_capture_same : ((s.capture n t src).axis n).Captured ((s.axis n).posAt t) t := by
  unfold State.capture
  dsimp only
  rw [State.axis_axisEvt, State.axis_record, State.axis_updAxis_same]
  exact ⟨rfl, rfl, rfl, rfl, rfl⟩

/-- An edge captures every armed axis of its source that takes its direction; a second capture in the same tick is the same. -/
theorem State.captured_latchEvent {rising : Bool} (armed : (s.axis n).latArmed = true) (source : (s.axis n).desc.latchSrc = src)
    (edge : (s.axis n).desc.edge = 2) : ((s.latchEvent src rising t).axis n).Captured ((s.axis n).posAt t) t := by
  have used : s.axis n ≠ {} := fun reset => by rw [reset] at armed; exact absurd armed (by decide)
  refine foldl_reaches (I := fun u : State => (u.axis n).posAt t = (s.axis n).posAt t)
    (P := fun u : State => (u.axis n).Captured ((s.axis n).posAt t) t)
    (State.mem_axesWhere used (by simp [armed, source, edge])) rfl (fun u m same => ?keeps) (fun u same => same ▸ u.axis_capture_same n t src)
    fun u m done => ?stays
  case keeps =>
    by_cases own : n = m
    · subst own
      exact (u.axis_capture_same n t src).stays.trans same
    · rw [u.axis_capture_ne m t src own, same]
  case stays =>
    by_cases own : n = m
    · subst own
      exact done.stays ▸ u.axis_capture_same n t src
    · rw [u.axis_capture_ne m t src own]
      exact done

theorem State.motLatchPoint_same (k : Nat) : SameBut pointParts s (s.motLatchPoint k t) := by
  unfold State.motLatchPoint
  split
  · exact SameBut.ite (State.pointWrite_same s _ _ _ _) (SameBut.refl _ _)
  · exact SameBut.refl _ _

end

/-- An edge longer than 20 ns to a new level captures the commanded position of an axis armed for both edges. -/
theorem latchEdge_captures {s : State} (on : (s.hd .mot).pwr = .on) {k : Fin 8} {r : Bool} {held n : Nat} (long : 8 < held)
    (new : nbit s.mot.latLvl k.val = !r) (armed : (s.axis n).latArmed = true) (source : (s.axis n).desc.latchSrc = k.val)
    (edge : (s.axis n).desc.edge = 2) (t : Nat) :
    ∃ u, exec (.latchEdge k r held t) s = .next u ∧ (u.axis n).Captured ((s.axis n).posAt t) t := by
  have taken : ¬(bit (s.reg R.MOT_LIN_CFG) k.val && (decide (held ≤ 8) || decide (nbit s.mot.latLvl k.val = r))) = true := by
    have short : ¬held ≤ 8 := Nat.not_le.mpr long
    simp [short, new]
  let risen := s.updMot fun m => { m with latLvl := nput m.latLvl k.val r }
  let shown := risen.motLatchPoint k.val t
  have same : shown.axis n = s.axis n := State.axis_congr (s := risen) (State.motLatchPoint_same risen t k.val .mot (by decide)) n
  have captured := shown.captured_latchEvent n t k.val (rising := r) (by rw [same, armed]) (by rw [same, source]) (by rw [same, edge])
  refine ⟨_, congrArg Host.Outcome.next ((if_neg (not_not_intro on)).trans (if_neg taken)), ?_⟩
  rw [State.axis_congr ((State.mot_judgeCoords _ _).trans (State.pulseEdge_same _ _ _ .mot (by decide)))]
  rwa [same] at captured

/-! ### A loop's acquisition and the count (R13, R229, R241) -/

section
variable {s : State} (on : (s.hd .mot).pwr = .on)
include on

theorem State.present_mot : s.present .mot = true := by simp [State.present, on]

/-- The placed acquisition of a class A loop writes its encoder's point alone. -/
theorem rateScheduleAcquisition_writes {n : Fin 1024} (present : s.present .ce = true) (used : s.loopUsed n.val = true)
    (usedPoint : (s.point (s.loop n.val).inPt).kind ≠ .none) (source : (s.point (s.loop n.val).inPt).srcType = .enc)
    (classA : (s.point (s.loop n.val).inPt).cls = .a) (enabled : bit (s.encCfg (s.point (s.loop n.val).inPt).srcRef) 0 = true) :
    exec (.rateScheduleAcquisition n) s =
      .next (s.pointWrite (s.loop n.val).inPt (wordI (s.enc (s.point (s.loop n.val).inPt).srcRef).count) qValid s.now) := by
  have value : s.motValue (s.point (s.loop n.val).inPt) s.tick = (wordI (s.enc (s.point (s.loop n.val).inPt).srcRef).count, qValid) := by
    simp [State.motValue, source, enabled]
  have written : s.motEncPoint (s.loop n.val).inPt =
      s.pointWrite (s.loop n.val).inPt (wordI (s.enc (s.point (s.loop n.val).inPt).srcRef).count) qValid s.now := by
    rw [State.motEncPoint, value]
  rw [← written]
  exact congrArg Host.Outcome.next ((if_neg (by simp [present, State.present_mot on, used])).trans (if_pos ⟨usedPoint, source, classA⟩))

theorem exec_encCntRead (n : Fin 16) : exec (.encCntRead n) s = .next { s with
    mot := { s.mot with encHi := Tab.put 0 s.mot.encHi n.val (((s.enc n.val).count % 2 ^ 64).toNat / 2 ^ 32) },
    out := ((s.enc n.val).count % 2 ^ 64).toNat % 2 ^ 32 } :=
  congrArg Host.Outcome.next (if_neg (by rw [State.present_mot on]; decide))

end

end Sys2Proof.Machine
end

section
/-!
PROOF. The profile period, the phase drive and the inputs of the motion engine (O38). The window of a period's start is the model's choice (log 14), and so
is the direction in which an encoder counts up (log 16).
-/

namespace Sys2Proof.Machine

/-- Settles O38: a lone axis follows its plan from boundary to boundary; a drive period, the hold and each input do their one change. -/
theorem motionAdvancesByItsPlan : Obligations.MotionAdvancesByItsPlan := by
  unfold Obligations.MotionAdvancesByItsPlan
  intro s on
  refine ⟨fun stopped => profilePeriod_of_stopped on stopped, fun n pl k run alone grps axes => ?plan,
    fun d t => ⟨fun unbound => pwmPeriod_of_unbound unbound t, fun n live bound => ?drives⟩, fun n still holding => holdDelayExpiry_ends still holding,
    fun n a b i held t enabled long => ⟨fun moves same => ?counts, fun moves differs => ?errs⟩,
    fun k r held t n long new armed source edge => ?captures, fun n present used => rateScheduleAcquisition_writes on present used,
    fun n => exec_encCntRead on n⟩
  case plan =>
    intro a applied state motion inGroup cmd replan faultNext encEn stallEn bind limP limN
    have plan : (s.axis n).OnPlan pl k := ⟨applied, state, motion, inGroup, cmd, replan, faultNext, encEn, stallEn, bind, limP, limN⟩
    obtain ⟨t, period, lone⟩ := profilePeriod_of_lone on run alone grps axes plan
    refine ⟨t, period, lone.tB, lone.running, ?_, ?_, fun before => ?_, fun ended => ?_⟩
    · rw [lone.own]
      rfl
    · rw [lone.own]
      rfl
    · have onward : ¬pl.len ≤ k + 1 := Nat.not_le.mpr before
      rw [lone.own, Plan.slopeAfter, if_neg onward, Axis.settled, if_neg onward]
      exact ⟨state, rfl, rfl⟩
    · rw [lone.own, Plan.slopeAfter, if_pos ended, Axis.settled, if_pos ended]
      exact ⟨rfl, rfl, rfl, rfl⟩
  case drives =>
    intro a e vb x ampl th full good vbus
    exact pwmPeriod_drives live bound full good vbus t
  case counts =>
    obtain ⟨u, run, mot, _⟩ := exec_encoderEdge on n a b i held t
    have enc : u.enc n.val = (s.encEdge n.val a b i held t).enc n.val := by rw [State.enc, mot, State.enc]
    exact ⟨u, run, enc ▸ State.encEdge_counts enabled long moves same⟩
  case errs =>
    obtain ⟨u, run, mot, hd⟩ := exec_encoderEdge on n a b i held t
    have enc : u.enc n.val = (s.encEdge n.val a b i held t).enc n.val := by rw [State.enc, mot, State.enc]
    refine ⟨u, run, ?_⟩
    rw [enc, mot, hd]
    exact State.encEdge_errs enabled long moves differs
  case captures =>
    obtain ⟨u, run, captured⟩ := latchEdge_captures on long new armed source edge t
    exact ⟨u, run, captured.disarmed, captured.captured, captured.pos, captured.time⟩

end Sys2Proof.Machine
end

section
/-!
SUPPORT. The interlock logic processor through the operations that every block shares, and its header through a point that it drives (R141, R254).
-/

namespace Sys2Proof.Machine

theorem SameBut.hd {l : List Part} {s t : State} (h : SameBut l s t) (hl : l.contains .hdr = false) (b : Block) : t.hd b = s.hd b :=
  State.hd_congr (Part.of_same h hl) b

section
variable (s : State)

@[simp] theorem State.ilp_updIlp (f : Ilp → Ilp) : (s.updIlp f).ilp = f s.ilp := rfl

@[simp] theorem State.hd_updIlp (f : Ilp → Ilp) (b : Block) : (s.updIlp f).hd b = s.hd b := rfl

@[simp] theorem State.ilp_irq (b : Block) (i : Nat) : (s.irq b i).ilp = s.ilp := State.irq_same s b i .ilp (by decide)

@[simp] theorem State.ilp_err (b : Block) (e : Nat) : (s.err b e).ilp = s.ilp := State.err_same s b e .ilp (by decide)

@[simp] theorem State.ilp_record (b : Block) (inst code : Nat) (ps : List Nat) : (s.record b inst code ps).ilp = s.ilp :=
  State.record_same s b inst code ps .ilp (by decide)

@[simp] theorem State.ilp_raise (b : Block) (inst code : Nat) (sev : Severity) : (s.raise b inst code sev).ilp = s.ilp :=
  State.raise_same s b inst code sev .ilp (by decide)

@[simp] theorem State.ilp_driveOut (idx : Nat) (v : Int) : (s.driveOut idx v).ilp = s.ilp := State.driveOut_same s idx v .ilp (by decide)

@[simp] theorem State.hd_ilp_record (b : Block) (inst code : Nat) (ps : List Nat) : (s.record b inst code ps).hd .ilp = s.hd .ilp :=
  State.hd_record s b inst code ps (by decide)

end

/-! ### A written point's history touches the headers of HRC and EVR alone (R380–R386) -/

section
variable (s : State)

theorem State.hd_updHrc (f : Hrc → Hrc) (b : Block) : (s.updHrc f).hd b = s.hd b := rfl

@[simp] theorem State.hd_ilp_hrcLose (v : HrcBlock) : (s.hrcLose v).hd .ilp = s.hd .ilp := by
  have counted (f : Hrc → Hrc) : ((s.updHrc f).irq .hrc 8).hd .ilp = s.hd .ilp := State.hd_irq_ne _ _ (by decide)
  unfold State.hrcLose
  dsimp only
  split
  · exact ((State.putGap_same _ _).hd rfl .ilp).trans (counted _)
  · exact counted _

@[simp] theorem State.hd_ilp_hrcOverwrite : s.hrcOverwrite.1.hd .ilp = s.hd .ilp := by
  unfold State.hrcOverwrite
  split
  · rfl
  · exact s.hd_ilp_hrcLose _

@[simp] theorem State.hd_ilp_hrcClose : s.hrcClose.hd .ilp = s.hd .ilp := by
  unfold State.hrcClose
  split
  · rfl
  · extract_lets n
    split
    next s1 slot chosen =>
      have made : s1.hd .ilp = s.hd .ilp := by
        rw [show s1 = _ from (congrArg Prod.fst chosen).symm]
        split
        · exact s.hd_ilp_hrcOverwrite
        · rfl
      have stored (a : Nat) (bs : List Byte) (f : Hrc → Hrc) : ((s1.storeRam a bs).updHrc f).hd .ilp = s.hd .ilp :=
        (State.hd_updHrc _ f .ilp).trans (((State.storeRam_same s1 a bs).hd rfl .ilp).trans made)
      dsimp only
      split
      · rw [State.hd_irq_ne _ _ (by decide), State.hd_ilp_record, State.hd_updHrc]
        exact stored _ _ _
      · exact stored _ _ _

@[simp] theorem State.hd_ilp_hrcRecord (r : HrcRec) : (s.hrcRecord r).hd .ilp = s.hd .ilp := by
  unfold State.hrcRecord
  extract_lets o o' s1
  split
  · exact s1.hd_ilp_hrcClose
  · rfl

@[simp] theorem State.hd_ilp_hrcObserve (idx : Nat) (e : DirEntry) (v : Word) (q : Byte) (t : Nat) :
    (s.hrcObserve idx e v q t).hd .ilp = s.hd .ilp := by
  unfold State.hrcObserve
  split
  · rfl
  · split
    · unfold State.observeChange
      dsimp only
      split
      · rfl
      · split
        · exact State.hd_ilp_hrcRecord _ _
        · rfl
    · rfl
    · rfl

@[simp] theorem State.hd_ilp_putEntry (idx : Nat) (x : Entry) (t : Option Nat) : (s.putEntry idx x t).hd .ilp = s.hd .ilp := by
  have observed (e : DirEntry) (v : Word) (q : Byte) (t : Nat) : ((s.storeEntry idx x).hrcObserve idx e v q t).hd .ilp = s.hd .ilp :=
    (State.hd_ilp_hrcObserve _ _ _ _ _ _).trans ((State.storeEntry_same s idx x).hd rfl .ilp)
  unfold State.putEntry
  dsimp only
  split
  · exact ((State.canChange_same _ _).hd rfl .ilp).trans (observed _ _ _ _)
  · exact observed _ _ _ _

@[simp] theorem State.hd_ilp_pointWrite (idx : Nat) (v : Word) (q : Byte) (t : Nat) : (s.pointWrite idx v q t).hd .ilp = s.hd .ilp := by
  unfold State.pointWrite State.pointWriteSat
  split
  · rfl
  · dsimp only
    have noted (x : Ptd) (c : Prop) [Decidable c] : (if c then { s with ptd := x } else s).hd .ilp = s.hd .ilp := by split <;> rfl
    split
    · exact noted _ _
    · exact (State.hd_ilp_putEntry _ _ _ _).trans (noted _ _)

/-- A point that a block drives leaves the header of the ILP alone. -/
@[simp] theorem State.hd_ilp_driveOut (idx : Nat) (v : Int) : (s.driveOut idx v).hd .ilp = s.hd .ilp :=
  ((State.fioPoint_same _ _ _).hd rfl .ilp).trans (((State.followPoint_same _ _ _).hd rfl .ilp).trans (s.hd_ilp_pointWrite _ _ _ _))

end

end Sys2Proof.Machine
end

section
/-!
SUPPORT. The parts of a scan (R251): what the instructions leave of the processor, and what the snapshot, the write-out, the queued changes and the retentive
items leave of the state.
-/

namespace Sys2Proof.Machine

/-! ### The instructions -/

/-- What no instruction changes: the mode, the image, the queued changes, the scan count and the overruns in a row. -/
def Ilp.frame (x : Ilp) : IMode × IImage × List IChg × Nat × Nat := (x.mode, x.img, x.chg, x.scanCnt, x.consec)

theorem Ilp.frame_setBit (x : Ilp) (w : Word) (b : Bool) : (x.setBit w b).frame = x.frame := by
  unfold Ilp.setBit
  split <;> rfl

theorem Ilp.frame_instr (x : Ilp) (w : Word) : (x.instr w).1.frame = x.frame := by
  unfold Ilp.instr
  dsimp only
  split
  case h_9 | h_10 => exact x.frame_setBit _ _
  case h_11 | h_12 =>
    split
    · exact x.frame_setBit _ _
    · rfl
  case h_13 | h_14 | h_15 | h_33 | h_34 => split <;> rfl
  all_goals rfl

theorem Ilp.frame_step1 (x : Ilp) : x.step1.1.frame = x.frame := by
  have stepped := x.frame_instr (nth 0 x.img.code x.pc)
  unfold Ilp.step1
  split
  · rfl
  · dsimp only
    split
    · rfl
    all_goals exact stepped

theorem Ilp.frame_runOn (bps : List Nat) : ∀ (n : Nat) (skip : Bool) (x : Ilp), (Ilp.runOn bps n skip x).1.frame = x.frame
  | 0, _, _ => rfl
  | n + 1, skip, x => by
    have stepped := x.frame_step1
    unfold Ilp.runOn
    split
    · rfl
    · split
      next x1 r ran => rw [ran] at stepped; exact stepped
      next x1 ran => rw [ran] at stepped; exact (Ilp.frame_runOn bps n false x1).trans stepped

/-! ### The snapshot -/

section
variable (s : State)

theorem State.ilpTclk_same : SameBut [.ilp] s s.ilpTclk := SameBut.ite (SameBut.refl _ _) (State.updIlp_same s _)

theorem State.frame_ilpTclk : s.ilpTclk.ilp.frame = s.ilp.frame := by
  unfold State.ilpTclk
  split <;> rfl

theorem State.ilpSnapshot_same : SameBut [.ilp] s s.ilpSnapshot := s.ilpTclk_same.trans (State.updIlp_same _ _)

theorem State.frame_ilpSnapshot : s.ilpSnapshot.ilp.frame = s.ilp.frame := s.frame_ilpTclk

/-! ### Driven targets (R254, R256) -/

/-- What the processor itself shows: its state and its header. -/
def State.ilpSide : Ilp × Hdr := (s.ilp, s.hd .ilp)

theorem State.ilpSide_driveOut (idx : Nat) (v : Int) : (s.driveOut idx v).ilpSide = s.ilpSide := by simp [State.ilpSide]

theorem State.ilpSide_ilpQ (j : Nat) (v : Bool) : (s.ilpQ j v).ilpSide = s.ilpSide := s.ilpSide_driveOut _ _

theorem State.ilp_ilpQ (j : Nat) (v : Bool) : (s.ilpQ j v).ilp = s.ilp := s.ilp_driveOut _ _

theorem State.ilpSide_ilpW (j : Nat) (v : Word) : (s.ilpW j v).ilpSide = s.ilpSide := by
  unfold State.ilpW
  dsimp only
  split
  · rfl
  · exact s.ilpSide_driveOut _ _

theorem State.ilpSide_ilpRewriteW : s.ilpRewriteW.ilpSide = s.ilpSide :=
  foldl_keeps State.ilpSide (fun u j => by
    split
    · exact u.ilpSide_ilpW j _
    · rfl) _ s

/-- The stop values go to the targets; the processor stays as it is. -/
theorem State.ilpSide_ilpStopValues : s.ilpStopValues.ilpSide = s.ilpSide := by
  unfold State.ilpStopValues
  split
  · rfl
  · exact (State.ilpSide_ilpRewriteW _).trans (foldl_keeps State.ilpSide (fun u j => u.ilpSide_ilpQ j _) _ s)

@[simp] theorem State.ilp_ilpStopValues : s.ilpStopValues.ilp = s.ilp := congrArg Prod.fst s.ilpSide_ilpStopValues

@[simp] theorem State.hd_ilpStopValues : s.ilpStopValues.hd .ilp = s.hd .ilp := congrArg Prod.snd s.ilpSide_ilpStopValues

theorem State.ilpStopValues_of_empty {s : State} (empty : s.ilp.empty = true) : s.ilpStopValues = s := if_pos empty

/-- A write-out whose word map is empty writes no register; it notes what each output was given. -/
theorem State.ilp_ilpWriteOut {s : State} (words : s.ilp.img.wmap = []) (busw : Nat → Word → State → State) :
    ∃ l, (s.ilpWriteOut busw).ilp = { s.ilp with lastQ := l } := by
  unfold State.ilpWriteOut
  extract_lets s1 s2 regs vals
  have noted : ∃ l, s1.ilp = { s.ilp with lastQ := l } :=
    List.foldlRecOn (motive := fun u : State => ∃ l, u.ilp = { s.ilp with lastQ := l }) _ _ ⟨_, rfl⟩ fun u ⟨_, h⟩ j _ =>
      ⟨_, congrArg (fun x : Ilp => { x with lastQ := Tab.put none x.lastQ j (some (Tab.get false u.ilp.Q j)) }) ((u.ilp_ilpQ j _).trans h)⟩
  obtain ⟨l, h⟩ := noted
  have none : s1.ilp.img.wmap = [] := by rw [h, words]
  have unchanged : s2 = s1 := by simp [s2, none]
  have silent : vals = [] := by simp [vals, regs, unchanged, none]
  rw [silent, List.foldl_nil, unchanged]
  exact ⟨l, h⟩

/-! ### Changes and retentive items (R259, R265) -/

theorem State.ilpChanges_of_nil {s : State} (none : s.ilp.chg = []) : s.ilpChanges = s := by simp [State.ilpChanges, none]

/-- How the processor stands: its mode, the cause of its last stop, the result of its last mode command, and its scan count. -/
def Ilp.standing (x : Ilp) : IMode × Nat × Nat × Nat := (x.mode, x.cause, x.result, x.scanCnt)

/-- How the processor stands, with RUNNING of its header. -/
def State.ilpStanding : (IMode × Nat × Nat × Nat) × Bool := (s.ilp.standing, (s.hd .ilp).running)

theorem State.ilpStanding_congr {s t : State} (h : t.ilpSide = s.ilpSide) : t.ilpStanding = s.ilpStanding :=
  congrArg (fun x : Ilp × Hdr => (x.1.standing, x.2.running)) h

theorem Ilp.standing_chgPut (x : Ilp) (g : IChg) : (x.chgPut g).standing = x.standing := by
  unfold Ilp.chgPut
  split <;> rfl

theorem State.ilpStanding_ilpChanges : s.ilpChanges.ilpStanding = s.ilpStanding :=
  foldl_keeps State.ilpStanding (fun u g => by
    simp only [State.ilpStanding, State.ilp_irq, State.ilp_record, State.ilp_updIlp, State.hd_irq_same, State.hd_ilp_record, State.hd_updIlp]
    exact congrArg (·, (u.hd .ilp).running) (u.ilp.standing_chgPut g)) _ s

theorem State.retChanged_same (i : Nat) (ws : List Word) : SameBut [.ret] s (s.retChanged i ws) :=
  SameBut.foldl (fun u _ => SameBut.ite (SameBut.refl _ _) (State.retPut_same u _ _ _)) _ s

theorem State.ilpRetain_same : SameBut [.ret] s s.ilpRetain := SameBut.foldl (fun u _ => u.retChanged_same _ _) _ s

/-- The end of a scan without register targets and queued changes counts it and keeps the spaces that the program left (R251). -/
theorem State.ilp_ilpFinish {s : State} (words : s.ilp.img.wmap = []) (none : s.ilp.chg = []) (busw : Nat → Word → State → State) (dur left : Nat) :
    ∃ l, (s.ilpFinish busw dur left).ilp =
      { s.ilp with inScan := false, pc := 0, lastQ := l, scanLast := dur, scanMax := max s.ilp.scanMax dur, scanCnt := wrapInc s.ilp.scanCnt,
                   execLast := s.ilp.execN, dur := dur, busyTo := s.cpu.mtime + left, overrun := true } := by
  obtain ⟨l, written⟩ := State.ilp_ilpWriteOut (s := s.updIlp fun x => { x with inScan := false, pc := 0 }) words busw
  refine ⟨l, ?_⟩
  unfold State.ilpFinish
  extract_lets s1 s2
  have kept : s2.ilp = (s1.ilpWriteOut busw).ilp := by
    have noChange : (s1.ilpWriteOut busw).ilpChanges = s1.ilpWriteOut busw := State.ilpChanges_of_nil (by rw [written]; exact none)
    simp only [s2, noChange]
    exact State.ilpRetain_same _ .ilp (by decide)
  rw [State.ilp_updIlp, kept, written]
  rfl

end

end Sys2Proof.Machine
end

section
/-!
SUPPORT. The modes of the interlock logic processor (R251–R256, R264): a mode change, a stop, a scan that ends or faults, the first RUN after a load, and what
each mode command of Table ILP-7 answers.
-/

namespace Sys2Proof.Machine

/-! ### Mode changes and stops -/

section
variable (s : State)

@[simp] theorem State.ilp_ilpMode (m : IMode) (cause : Nat) : (s.ilpMode m cause).ilp =
    { s.ilp with mode := m, tAcc := if s.ilp.mode = .run then s.ilp.tAcc + (s.cpu.mtime - s.ilp.tRef) else s.ilp.tAcc, tRef := s.cpu.mtime,
                 cause := if m = .stop then cause else s.ilp.cause } := by
  simp [State.ilpMode]

@[simp] theorem State.running_ilpMode (m : IMode) (cause : Nat) : ((s.ilpMode m cause).hd .ilp).running = decide (m ≠ .stop) := by
  simp [State.ilpMode]

/-- Neither the stop values nor the queued changes that a stop applies change how the processor stands after it. -/
theorem State.ilpStanding_ilpStop {s : State} (on : s.ilp.mode ≠ .stop) (cause : Nat) :
    (s.ilpStop cause).ilpStanding = ((.stop, cause, s.ilp.result, s.ilp.scanCnt), false) := by
  rw [State.ilpStop, if_neg on, State.ilpStanding_ilpChanges, State.ilpStanding_congr (State.ilpSide_ilpStopValues _)]
  simp [State.ilpStanding, Ilp.standing]

theorem State.mode_ilpStop (cause : Nat) : (s.ilpStop cause).ilp.mode = .stop := by
  by_cases off : s.ilp.mode = .stop
  · rwa [State.ilpStop, if_pos off]
  · exact congrArg (·.1.1) (State.ilpStanding_ilpStop off cause)

/-- A fault stops the processor; the error that it raises leaves it alone. -/
theorem State.standing_ilpFault {s : State} (on : s.ilp.mode ≠ .stop) (cause : Nat) :
    (s.ilpFault cause).ilp.standing = (.stop, cause, s.ilp.result, s.ilp.scanCnt) := by
  rw [State.ilpFault, State.ilp_raise]
  exact congrArg Prod.fst (State.ilpStanding_ilpStop on cause)

end

/-! ### A scan (R251, R253) -/

section
variable {s : State}

theorem State.ilpDoomed_setIlp {x : Ilp} (h : x.consec = s.ilp.consec) (dur : Nat) : ({ s with ilp := x } : State).ilpDoomed dur = s.ilpDoomed dur := by
  simp only [State.ilpDoomed, h]
  rfl

/-- The state in which a scan's program starts: its overrun counters settled and its snapshot taken. -/
def State.scanStart (s : State) : State :=
  (s.updIlp fun x => { x with consec := if x.overrun then 0 else x.consec, overrun := false, doom := false }).ilpSnapshot

theorem State.scanStart_same : SameBut [.ilp] s s.scanStart := (State.updIlp_same s _).trans (State.ilpSnapshot_same _)

theorem State.frame_scanStart : s.scanStart.ilp.frame =
    (s.ilp.mode, s.ilp.img, s.ilp.chg, s.ilp.scanCnt, if s.ilp.overrun then 0 else s.ilp.consec) := State.frame_ilpSnapshot _

/-- The program of a scan that starts here: what it leaves, and how it ends. -/
def State.scanRun (s : State) : Ilp × IStop := Ilp.runOn s.scanStart.ilpBps (s.reg R.ILP_EXEC_LIMIT).toNat false s.scanStart.ilp

theorem State.frame_scanRun : s.scanRun.1.frame = s.scanStart.ilp.frame := Ilp.frame_runOn _ _ _ _

theorem State.runOn_scanStart : Ilp.runOn s.scanStart.ilpBps ((s.scanStart.reg R.ILP_EXEC_LIMIT).toNat - s.scanStart.ilp.execN) false s.scanStart.ilp =
    s.scanRun := by
  rw [State.reg_congr (State.scanStart_same .regs (by decide))]
  rfl

theorem State.ilpGo_of_done (busw : Nat → Word → State → State) {dur : Nat} (ended : s.scanRun.2 = .done) (free : s.scanStart.ilpDoomed dur = false) :
    s.scanStart.ilpGo busw dur dur false = State.ilpFinish busw dur dur { s.scanStart with ilp := s.scanRun.1 } := by
  have consec : s.scanRun.1.consec = s.scanStart.ilp.consec := congrArg (·.2.2.2.2) State.frame_scanRun
  simp [State.ilpGo, State.runOn_scanStart, ended, State.ilpDoomed_setIlp consec, free]

theorem State.ilpGo_of_fault (busw : Nat → Word → State → State) (dur : Nat) {k : Nat} (faulted : s.scanRun.2 = .fault k) :
    s.scanStart.ilpGo busw dur dur false = ({ s.scanStart with ilp := s.scanRun.1 } : State).ilpFault k := by
  simp [State.ilpGo, State.runOn_scanStart, faulted]

section
variable (on : s.present .ilp = true)
include on

theorem exec_ilpScanBoundary_of_empty (stopped : s.ilp.mode = .stop) (empty : s.ilp.empty = true) (dur : Nat) :
    exec (.ilpScanBoundary dur false) s = .next s := by
  have done : State.ilpBoundary State.ilpBus dur false s = s := by
    simp [State.ilpBoundary, on, stopped, State.ilpStopValues_of_empty empty]
  exact congrArg Host.Outcome.next done

theorem exec_ilpScanBoundary_of_runStop (running : s.ilp.mode = .run) (doomed : s.ilp.doom = true) (stop : (s.hd .ilp).run = false) (dur : Nat) :
    exec (.ilpScanBoundary dur false) s = .next ((s.ilpComplete State.ilpBus).ilpStop icRunStop) := by
  refine congrArg Host.Outcome.next ?_
  simp [State.ilpBoundary, on, running, doomed, stop]

variable (running : s.ilp.mode = .run) (free : s.ilp.doom = false) (due : s.ilp.busyTo ≤ s.cpu.mtime)
include running free due

theorem exec_ilpScanBoundary_of_due (dur : Nat) : exec (.ilpScanBoundary dur false) s = .next (s.scanStart.ilpGo State.ilpBus dur dur false) := by
  refine congrArg Host.Outcome.next ?_
  simp [State.ilpBoundary, on, running, free, Nat.not_lt.mpr due, State.scanStart]

/-- A scan whose program reaches END counts and reports, and the spaces hold what the program left. -/
theorem ilpScanBoundary_counts {dur : Nat} (ended : s.scanRun.2 = .done) (fits : s.scanStart.ilpDoomed dur = false) (words : s.ilp.img.wmap = [])
    (none : s.ilp.chg = []) : ∃ t, exec (.ilpScanBoundary dur false) s = .next t ∧ t.ilp.mode = .run ∧ t.ilp.inScan = false ∧
      t.ilp.scanCnt = wrapInc s.ilp.scanCnt ∧ t.ilp.scanLast = dur ∧ t.ilp.execLast = s.scanRun.1.execN ∧ t.ilp.Q = s.scanRun.1.Q ∧
      t.ilp.M = s.scanRun.1.M ∧ t.ilp.W = s.scanRun.1.W ∧ t.ilp.T = s.scanRun.1.T ∧ t.ilp.busyTo = s.cpu.mtime + dur := by
  have frame := State.frame_scanRun.trans (State.frame_scanStart (s := s))
  simp only [Ilp.frame, Prod.mk.injEq] at frame
  obtain ⟨mode, img, chg, scanCnt, -⟩ := frame
  obtain ⟨l, left⟩ := State.ilp_ilpFinish (s := { s.scanStart with ilp := s.scanRun.1 }) (by simp [img, words]) (by simp [chg, none]) State.ilpBus dur dur
  have mtime : s.scanStart.cpu = s.cpu := State.scanStart_same .cpu (by decide)
  refine ⟨_, exec_ilpScanBoundary_of_due on running free due dur, ?_⟩
  rw [State.ilpGo_of_done State.ilpBus ended fits, left]
  simp [mode, running, scanCnt, mtime]

/-- A fault of the program stops the processor with its cause; the scan is not counted. -/
theorem ilpScanBoundary_faults (dur : Nat) {k : Nat} (faulted : s.scanRun.2 = .fault k) : ∃ t, exec (.ilpScanBoundary dur false) s = .next t ∧
    t.ilp.mode = .stop ∧ t.ilp.cause = k ∧ t.ilp.scanCnt = s.ilp.scanCnt := by
  have frame := State.frame_scanRun.trans (State.frame_scanStart (s := s))
  simp only [Ilp.frame, Prod.mk.injEq] at frame
  obtain ⟨mode, -, -, scanCnt, -⟩ := frame
  have stopped := State.standing_ilpFault (s := { s.scanStart with ilp := s.scanRun.1 }) (by simp [mode, running]) k
  simp only [Ilp.standing, Prod.mk.injEq] at stopped
  obtain ⟨stop, cause, -, kept⟩ := stopped
  refine ⟨_, exec_ilpScanBoundary_of_due on running free due dur, ?_⟩
  rw [State.ilpGo_of_fault State.ilpBus dur faulted]
  exact ⟨stop, cause, kept.trans scanCnt⟩

end

end

/-! ### The first RUN after a load (R264) -/

section
variable (s : State)

theorem Ilp.result_slotPut (x : Ilp) (sl : ISlot) (ws : List Word) : (x.slotPut sl ws).result = x.result := by
  unfold Ilp.slotPut
  split <;> exact foldl_keeps Ilp.result (fun _ _ => by rfl) _ _

theorem Ilp.result_slotInit (x : Ilp) (sl : ISlot) (ws : List Word) : (x.slotInit sl ws).result = x.result := by
  unfold Ilp.slotInit
  split
  · exact foldl_keeps Ilp.result (fun _ _ => by rfl) _ _
  · exact foldl_keeps Ilp.result (fun _ _ => by rfl) _ _
  · exact x.result_slotPut sl ws

/-- The initialisation takes the new image, and leaves the result of the command alone. -/
theorem State.ilpInit_takes : s.ilpInit.ilp.newImage = false ∧ s.ilpInit.ilp.result = s.ilp.result := by
  unfold State.ilpInit
  extract_lets m lost old places kept inits before x0 x1 reset s1 s2
  have result : x1.result = s.ilp.result := foldl_keeps Ilp.result (fun x k => by
    dsimp only
    split
    · exact Ilp.result_slotPut _ _ _
    · exact Ilp.result_slotInit _ _ _) _ x0
  have same : s2.ilp = s1.ilp := (State.retChanged_same s1 _ _).trans (State.ilpRetain_same _) .ilp (by decide)
  split <;> simp only [State.ilp_record, same] <;> exact ⟨rfl, result⟩

/-- An image without retentive slots starts with its spaces empty and its constants loaded. -/
theorem State.ilpInit_of_noSlots {s : State} (none : s.ilp.img.slots = []) : s.ilpInit.ilp.M = [] ∧ s.ilpInit.ilp.W = [] ∧ s.ilpInit.ilp.I = [] ∧
    s.ilpInit.ilp.Q = [] ∧ s.ilpInit.ilp.E = [] ∧ s.ilpInit.ilp.K = Tab.putList 0 [] 0 s.ilp.img.kInit := by
  unfold State.ilpInit
  extract_lets m lost old places kept inits before x0 x1 reset s1 s2
  have bare : x1 = x0 := by simp [x1, m, none]
  have same : s2.ilp = s1.ilp := (State.retChanged_same s1 _ _).trans (State.ilpRetain_same _) .ilp (by decide)
  split <;> simp only [State.ilp_record, same, s1, bare] <;> exact ⟨rfl, rfl, rfl, rfl, rfl, rfl⟩

end

/-! ### The answers of Table ILP-7 -/

section
variable {s : State} {busw : Nat → Word → State → State} {dur : Nat}

/-- A refused mode command leaves its code as the result and in the error log, and changes nothing else. -/
def State.IlpRefused (s t : State) (e : Nat) : Prop :=
  t.ilp = { s.ilp with result := e } ∧ (t.hd .ilp).errCode = 0x0E00 + e ∧ SameBut [.ilp, .hdr, .hts, .out] s t

theorem State.ilpResult_refused {e : Nat} (bad : e ≠ 0) : s.IlpRefused (s.ilpResult e) e := by
  rw [State.ilpResult, if_neg bad]
  refine ⟨State.ilp_err _ _ _, by rw [State.hd_err_same]; rfl, ?_⟩
  exact (SameBut.mono' (State.updIlp_same s _) rfl).trans (SameBut.mono' (State.err_same _ _ _) rfl)

theorem State.ilpComplete_of_free (free : s.ilp.doom = false) : s.ilpComplete busw = s := by simp [State.ilpComplete, free]

/-- A RUN that is accepted starts with the scan's maximum and overruns cleared. -/
def State.ilpCleared (s : State) : State :=
  (s.ilpResult 0).updIlp fun x => { x with scanMax := 0, consec := 0, busyTo := 0, overrun := false, doom := false }

theorem State.ilpCmd_run_of_ready (stopped : s.ilp.mode = .stop) (loaded : s.ilp.empty = false) (run : (s.hd .ilp).run = true)
    (idle : s.ilp.loadBusy = false) :
    s.ilpCmd busw 1 dur = (if s.ilp.newImage then s.ilpCleared.ilpInit else s.ilpCleared).ilpMode .run icCommand := by
  simp only [State.ilpCmd, stopped, loaded, run, idle]
  rfl

theorem State.ilpCmd_run_of_unready (stopped : s.ilp.mode = .stop) (unready : s.ilp.empty = true ∨ (s.hd .ilp).run = false ∨ s.ilp.loadBusy = true) :
    s.ilpCmd busw 1 dur = s.ilpResult errModeState := by
  simp [State.ilpCmd, stopped, unready]

theorem State.ilpCmd_run_of_on (on : s.ilp.mode ≠ .stop) : s.ilpCmd busw 1 dur = s.ilpResult errModeState := by
  cases mode : s.ilp.mode with
  | stop => exact absurd mode on
  | run | hold => simp [State.ilpCmd, mode]

/-- STOP completes a scan whose write-out waits in RUN, and stops. -/
theorem State.ilpCmd_stop_of_on (on : s.ilp.mode ≠ .stop) :
    s.ilpCmd busw 2 dur = (if s.ilp.mode = .run then (s.ilpResult 0).ilpComplete busw else s.ilpResult 0).ilpStop icCommand := by
  cases mode : s.ilp.mode with
  | stop => exact absurd mode on
  | run | hold => simp [State.ilpCmd, mode]

theorem State.ilpCmd_hold_of_run (running : s.ilp.mode = .run) :
    s.ilpCmd busw 3 dur = if s.holdPermit then ((s.ilpResult 0).ilpComplete busw).ilpMode .hold icCommand else s.ilpResult errHoldDenied := by
  simp [State.ilpCmd, running]

theorem State.ilpCmd_step_of_run (running : s.ilp.mode = .run) : s.ilpCmd busw 4 dur = s.ilpResult errModeState := by simp [State.ilpCmd, running]

theorem State.ilpCmd_continue_of_run (running : s.ilp.mode = .run) : s.ilpCmd busw 5 dur = s.ilpResult errModeState := by simp [State.ilpCmd, running]

theorem State.ilpCmd_step_of_hold (held : s.ilp.mode = .hold) : s.ilpCmd busw 4 dur = (s.ilpResult 0).ilpStepOne busw dur := by
  simp [State.ilpCmd, held]

theorem State.ilpCmd_continue_of_hold (held : s.ilp.mode = .hold) : s.ilpCmd busw 5 dur = (s.ilpResult 0).ilpContinue busw dur := by
  simp [State.ilpCmd, held]

/-- An instruction that is stepped below the limit of EXEC_LIMIT changes the processor alone. -/
theorem State.ilpStepOne_of_next {y : Ilp} (scanning : s.ilp.inScan = true) (room : s.ilp.execN < (s.reg R.ILP_EXEC_LIMIT).toNat)
    (left : y.execN < (s.reg R.ILP_EXEC_LIMIT).toNat) (stepped : s.ilp.step1 = (y, none)) : s.ilpStepOne busw dur = { s with ilp := y } := by
  have on : ¬(s.reg R.ILP_EXEC_LIMIT).toNat ≤ y.execN := Nat.not_le.mpr left
  simp only [State.ilpStepOne, scanning, if_true, if_neg (Nat.not_le.mpr room), stepped]
  exact if_neg on

theorem State.ilpContinue_of_between (between : s.ilp.inScan = false) : s.ilpContinue busw dur = s.ilpMode .run icCommand := by
  simp [State.ilpContinue, between]

end

end Sys2Proof.Machine
end

section
/-!
SUPPORT. The end of a load (R263) and an on-line change (R265).
-/

namespace Sys2Proof.Machine

section
variable {s : State}

/-! ### The end of a load -/

@[simp] theorem State.ilp_loadEnd (e pos sec : Nat) : (s.loadEnd e pos sec).ilp =
    { s.ilp with loadBusy := false, loadResult := e, loadPos := pos + 0x100000 * sec } := by
  unfold State.loadEnd
  split <;> simp

/-- A load's end sets its cause (ILP bit 8). -/
theorem State.loadDone_loadEnd (e pos sec : Nat) : bit ((s.loadEnd e pos sec).hd .ilp).irqRaw 8 = true := by
  unfold State.loadEnd
  split
  · simp [State.hd_irq_same, bit_setBit_same]
  · simp [State.hd_irq_same, State.hd_err_same, bit_setBit_ne, bit_setBit_same]

theorem State.errCode_loadEnd {e : Nat} (bad : e ≠ 0) (pos sec : Nat) : ((s.loadEnd e pos sec).hd .ilp).errCode = 0x0E00 + e := by
  rw [State.loadEnd, if_neg bad, State.hd_ilp_record, State.hd_err_same]
  rfl

/-- The image is in place of the one before, and the changes that were queued for that are gone. -/
def State.imageTaken (s : State) (m : IImage) : State :=
  (s.setRefs .ilp 0 (s.imagePoints m)).updIlp fun x => { x with img := m, empty := false, newImage := true, chg := [], lastQ := [], lastW := [] }

/-- The words of the image that a load reads. -/
def State.imgWords (s : State) : List Word := bytesWords (s.load s.imgAddr (s.reg R.ILP_IMG_LEN).toNat)

section
variable (busy : s.ilp.loadBusy = true) (on : s.present .ilp = true)
  (inside : inSram s.imgAddr (s.reg R.ILP_IMG_LEN).toNat = true ∨ inSdram s s.imgAddr (s.reg R.ILP_IMG_LEN).toNat = true)
include busy on inside

/-- A load whose image can be read is the work of its check. -/
theorem loadDone_reads : ¬(s.ilp.loadBusy = false ∨ s.present .ilp = false) ∧
    ¬(inSram s.imgAddr (s.reg R.ILP_IMG_LEN).toNat = false ∧ inSdram s s.imgAddr (s.reg R.ILP_IMG_LEN).toNat = false) := by
  rcases inside with sram | sdram
  · simp [busy, on, sram]
  · simp [busy, on, sdram]

theorem exec_ilpLoadDone_of_passed (passed : s.imageCheck s.imgWords (s.reg R.ILP_IMG_LEN).toNat = none) : exec .ilpLoadDone s =
    .next ((((s.imageTaken (parseImage s.imgWords).1).loadEnd 0 0 0).record .ilp 0 0x0E11 [(parseImage s.imgWords).1.code.length,
      (parseImage s.imgWords).1.crc.toNat, (parseImage s.imgWords).1.slots.length]).ilpStopValues) := by
  obtain ⟨due, readable⟩ := loadDone_reads busy on inside
  refine congrArg Host.Outcome.next ?_
  unfold State.imgWords at passed ⊢
  simp only [Bool.not_eq_true', if_neg due, if_neg readable, passed]
  rfl

theorem exec_ilpLoadDone_of_failed {e pos sec : Nat} (failed : s.imageCheck s.imgWords (s.reg R.ILP_IMG_LEN).toNat = some (e, pos, sec)) :
    exec .ilpLoadDone s = .next (s.loadEnd e pos sec) := by
  obtain ⟨due, readable⟩ := loadDone_reads busy on inside
  refine congrArg Host.Outcome.next ?_
  unfold State.imgWords at failed
  simp only [Bool.not_eq_true', if_neg due, if_neg readable, failed]

/-- An image that passes its check is applied; the stop values that follow leave the processor alone. -/
theorem ilpLoadDone_applies (passed : s.imageCheck s.imgWords (s.reg R.ILP_IMG_LEN).toNat = none) : ∃ t, exec .ilpLoadDone s = .next t ∧
    t.ilp.img = (parseImage s.imgWords).1 ∧ t.ilp.empty = false ∧ t.ilp.newImage = true ∧ t.ilp.loadBusy = false ∧ t.ilp.loadResult = 0 ∧
    bit (t.hd .ilp).irqRaw 8 = true := by
  refine ⟨_, exec_ilpLoadDone_of_passed busy on inside passed, ?_⟩
  simp [State.imageTaken, State.loadDone_loadEnd]

end

/-! ### On-line changes -/

/-- The change that a GO of principal `p` asks for. -/
def State.chgReq (s : State) (p : Principal) : IChg :=
  { space := bits (s.reg R.ILP_CHG_TGT) 2 0, idx := bits (s.reg R.ILP_CHG_TGT) 23 8, val := s.reg R.ILP_CHG_VAL, principal := p.code }

/-- The change has entered the queue with result `e`. -/
def State.chgQueued (s : State) (p : Principal) (e : Nat) : State := s.updIlp fun x => { x with chgResult := e, chg := x.chg ++ [s.chgReq p] }

/-- The code with which a change is refused, 0 where it is accepted. -/
def Ilp.chgCheck (x : Ilp) (g : IChg) : Nat :=
  if 64 ≤ x.chg.length then errChgFull else if x.chgRoom g.space ≤ g.idx then errChgTarget
  else if decide (g.space = 1) && bit g.val 31 then errValueRange else 0

theorem Ilp.chgPut_setChg (x : Ilp) (g : IChg) (r : Nat) (l : List IChg) :
    ({ x with chgResult := r, chg := l } : Ilp).chgPut g = { x.chgPut g with chgResult := r, chg := l } := by
  unfold Ilp.chgPut
  split <;> rfl

/-- The only change that waits is applied, with its cause CHG_DONE (ILP bit 11). -/
theorem State.ilpChanges_of_one {g : IChg} (one : s.ilp.chg = [g]) :
    s.ilpChanges.ilp = { s.ilp.chgPut g with chg := [] } ∧ bit (s.ilpChanges.hd .ilp).irqRaw 11 = true := by
  simp [State.ilpChanges, one, State.hd_irq_same, bit_setBit_same]

section
variable {p : Principal} (reached : s.writeOk .ilp 0x148 .w1s p = true)
include reached

theorem ilpChgGo_refused {e : Nat} (code : s.ilp.chgCheck (s.chgReq p) = e) (bad : e ≠ 0) :
    ∃ t, exec (.ilpChgGo p) s = .next t ∧ t.ilp = { s.ilp with chgResult := e } ∧ (t.hd .ilp).errCode = 0x0E00 + e := by
  subst code
  refine ⟨_, congrArg Host.Outcome.next ((State.gated_ok _ _ reached).trans (if_pos bad)), State.ilp_err _ _ _, ?_⟩
  rw [State.hd_err_same]
  rfl

theorem exec_ilpChgGo_of_accepted (code : s.ilp.chgCheck (s.chgReq p) = 0) : exec (.ilpChgGo p) s =
    .next (if s.ilp.mode = .stop then (s.chgQueued p 0).ilpChanges else s.chgQueued p 0) := by
  refine congrArg Host.Outcome.next ((State.gated_ok _ _ reached).trans ((if_neg (not_not_intro code)).trans ?_))
  show (if s.ilp.mode = .stop then (s.chgQueued p (s.ilp.chgCheck (s.chgReq p))).ilpChanges else s.chgQueued p (s.ilp.chgCheck (s.chgReq p))) = _
  rw [code]

end

end

end Sys2Proof.Machine
end

section
/-!
PROOF. The scan, the modes, the load and the on-line change of the interlock logic processor (O41). That a command which ends RUN first completes a scan whose
write-out waits for its overrun, that its stop has the cause 0, and that a timer preset beyond 2^31 - 1 is refused with VALUE_RANGE are the model's choice (log 82).
-/

namespace Sys2Proof.Machine

/-! ### Mode commands -/

section
variable {s : State} {p : Principal} (reached : s.writeOk .ilp 0x108 .wo p = true)
include reached

theorem exec_ilpRun : exec (.ilpRun p) s = .next (s.ilpCmd State.ilpBus 1 0) := congrArg Host.Outcome.next (State.gated_ok _ _ reached)
theorem exec_ilpStop : exec (.ilpStop p) s = .next (s.ilpCmd State.ilpBus 2 0) := congrArg Host.Outcome.next (State.gated_ok _ _ reached)
theorem exec_ilpHold : exec (.ilpHold p) s = .next (s.ilpCmd State.ilpBus 3 0) := congrArg Host.Outcome.next (State.gated_ok _ _ reached)
theorem exec_ilpStep (dur : Nat) : exec (.ilpStep p dur) s = .next (s.ilpCmd State.ilpBus 4 dur) :=
  congrArg Host.Outcome.next (State.gated_ok _ _ reached)
theorem exec_ilpContinue (dur : Nat) : exec (.ilpContinue p dur) s = .next (s.ilpCmd State.ilpBus 5 dur) :=
  congrArg Host.Outcome.next (State.gated_ok _ _ reached)

/-- RUN of a loaded image takes it where it is new, and keeps the spaces where it is not. -/
theorem ilpRun_runs (stopped : s.ilp.mode = .stop) (loaded : s.ilp.empty = false) (run : (s.hd .ilp).run = true) (idle : s.ilp.loadBusy = false) :
    ∃ t, exec (.ilpRun p) s = .next t ∧ t.ilp.mode = .run ∧ t.ilp.result = 0 ∧ t.ilp.newImage = false ∧ (t.hd .ilp).running = true ∧
      (s.ilp.newImage = false → t.ilp.M = s.ilp.M ∧ t.ilp.W = s.ilp.W ∧ t.ilp.Q = s.ilp.Q ∧ t.ilp.T = s.ilp.T ∧ t.ilp.C = s.ilp.C ∧ t.ilp.K = s.ilp.K) ∧
      (s.ilp.newImage = true → s.ilp.img.slots = [] → t.ilp.M = [] ∧ t.ilp.W = [] ∧ t.ilp.I = [] ∧ t.ilp.Q = [] ∧ t.ilp.E = [] ∧
        t.ilp.K = Tab.putList 0 [] 0 s.ilp.img.kInit) := by
  refine ⟨_, (exec_ilpRun reached).trans (congrArg _ (State.ilpCmd_run_of_ready stopped loaded run idle)), ?_⟩
  rw [State.running_ilpMode, State.ilp_ilpMode]
  cases new : s.ilp.newImage with
  | false => exact ⟨rfl, rfl, new, rfl, fun _ => ⟨rfl, rfl, rfl, rfl, rfl, rfl⟩, fun taken => absurd taken (by decide)⟩
  | true =>
    obtain ⟨taken, result⟩ := State.ilpInit_takes s.ilpCleared
    exact ⟨rfl, result, taken, rfl, fun kept => absurd kept (by decide), fun _ none => State.ilpInit_of_noSlots (s := s.ilpCleared) none⟩

theorem ilpStop_stops (on : s.ilp.mode ≠ .stop) : ∃ t, exec (.ilpStop p) s = .next t ∧ t.ilp.mode = .stop ∧
    (s.ilp.doom = false → t.ilp.cause = 0 ∧ t.ilp.result = 0 ∧ (t.hd .ilp).running = false) := by
  refine ⟨_, (exec_ilpStop reached).trans (congrArg _ (State.ilpCmd_stop_of_on on)), State.mode_ilpStop _ _, fun free => ?_⟩
  rw [State.ilpComplete_of_free (s := s.ilpResult 0) free, ite_self]
  have stands := State.ilpStanding_ilpStop (s := s.ilpResult 0) on icCommand
  simp only [State.ilpStanding, Ilp.standing, Prod.mk.injEq] at stands
  obtain ⟨⟨-, cause, result, -⟩, running⟩ := stands
  exact ⟨cause, result, running⟩

section
variable (running : s.ilp.mode = .run)
include running

theorem ilpHold_holds (permit : s.holdPermit = true) : ∃ t, exec (.ilpHold p) s = .next t ∧ t.ilp.mode = .hold ∧
    (s.ilp.doom = false → t.ilp.result = 0 ∧ t.ilp.M = s.ilp.M) := by
  refine ⟨_, (exec_ilpHold reached).trans (congrArg _ ((State.ilpCmd_hold_of_run running).trans (if_pos permit))), ?_⟩
  rw [State.ilp_ilpMode]
  refine ⟨rfl, fun free => ?_⟩
  rw [State.ilpComplete_of_free (s := s.ilpResult 0) free]
  exact ⟨rfl, rfl⟩

theorem ilpHold_refused (denied : s.holdPermit = false) : ∃ t, exec (.ilpHold p) s = .next t ∧ s.IlpRefused t errHoldDenied :=
  ⟨_, (exec_ilpHold reached).trans (congrArg _ ((State.ilpCmd_hold_of_run running).trans (if_neg (by simp [denied])))), State.ilpResult_refused (by decide)⟩

end

theorem ilpRun_refused (unready : s.ilp.mode ≠ .stop ∨ s.ilp.empty = true ∨ (s.hd .ilp).run = false ∨ s.ilp.loadBusy = true) :
    ∃ t, exec (.ilpRun p) s = .next t ∧ s.IlpRefused t errModeState := by
  have answer : s.ilpCmd State.ilpBus 1 0 = s.ilpResult errModeState := by
    by_cases stopped : s.ilp.mode = .stop
    · exact State.ilpCmd_run_of_unready stopped (unready.resolve_left (not_not_intro stopped))
    · exact State.ilpCmd_run_of_on stopped
  exact ⟨_, (exec_ilpRun reached).trans (congrArg _ answer), State.ilpResult_refused (by decide)⟩

end

/-! ### Loads -/

section
variable {s : State} {p : Principal} (reached : s.writeOk .ilp 0x11C .w1s p = true) (idle : s.ilp.loadBusy = false)
include reached idle

theorem exec_ilpLoad_of_stop (stopped : s.ilp.mode = .stop) : exec (.ilpLoad p) s = .next (s.updIlp fun x => { x with loadBusy := true }) := by
  refine congrArg Host.Outcome.next ((State.gated_ok _ _ reached).trans ?_)
  simp [idle, stopped]

theorem exec_ilpLoad_of_on (on : s.ilp.mode ≠ .stop) : exec (.ilpLoad p) s = .next (s.loadEnd errNotStopped 0 0) := by
  refine congrArg Host.Outcome.next ((State.gated_ok _ _ reached).trans ?_)
  simp [idle, on]

end

/-! ### The codes of a change -/

section
variable {x : Ilp} {g : IChg}

theorem Ilp.chgCheck_of_full (full : 64 ≤ x.chg.length) : x.chgCheck g = errChgFull := if_pos full

theorem Ilp.chgCheck_of_beyond (room : x.chg.length < 64) (beyond : x.chgRoom g.space ≤ g.idx) : x.chgCheck g = errChgTarget :=
  (if_neg (Nat.not_le.mpr room)).trans (if_pos beyond)

section
variable (room : x.chg.length < 64) (inside : g.idx < x.chgRoom g.space)
include room inside

theorem Ilp.chgCheck_of_preset (timer : g.space = 1) (negative : bit g.val 31 = true) : x.chgCheck g = errValueRange := by
  rw [Ilp.chgCheck, if_neg (Nat.not_le.mpr room), if_neg (Nat.not_le.mpr inside), if_pos (by simp [timer, negative])]

theorem Ilp.chgCheck_of_fits (fits : g.space = 1 → bit g.val 31 = false) : x.chgCheck g = 0 := by
  have taken : ¬(decide (g.space = 1) && bit g.val 31) = true := by simpa using fits
  rw [Ilp.chgCheck, if_neg (Nat.not_le.mpr room), if_neg (Nat.not_le.mpr inside), if_neg taken]

end

end

/-- Settles O41: each clause is the outcome of one command as stated above; the processor's own state is untouched by the targets it drives. -/
theorem ilpModesScansAndLoads : Obligations.IlpModesScansAndLoads := by
  unfold Obligations.IlpModesScansAndLoads
  intro s
  refine ⟨fun on stopped empty dur => exec_ilpScanBoundary_of_empty on stopped empty dur,
    fun dur on running doomed stop => ⟨_, exec_ilpScanBoundary_of_runStop on running doomed stop dur, State.mode_ilpStop _ _⟩,
    fun dur on running free due words none =>
      ⟨fun ended fits => ilpScanBoundary_counts on running free due ended fits words none,
        fun k faulted => ilpScanBoundary_faults on running free due dur faulted⟩,
    fun p reached => ⟨?run, ?unready, ?on, ?running, ?held⟩, fun p reached idle => ⟨?load, ?notStopped⟩, fun busy on => ?loaded,
    fun p reached => ⟨?preset, ?accepted, ?full, ?beyond⟩⟩
  case run => exact ilpRun_runs reached
  case unready => exact fun _ unready => ilpRun_refused reached (.inr unready)
  case on => exact fun on => ⟨ilpRun_refused reached (.inl on), ilpStop_stops reached on⟩
  case running =>
    intro running
    refine ⟨ilpHold_holds reached running, ilpHold_refused reached running, fun dur => ⟨?_, ?_⟩⟩
    · exact ⟨_, (exec_ilpStep reached dur).trans (congrArg _ (State.ilpCmd_step_of_run running)), State.ilpResult_refused (by decide)⟩
    · exact ⟨_, (exec_ilpContinue reached dur).trans (congrArg _ (State.ilpCmd_continue_of_run running)), State.ilpResult_refused (by decide)⟩
  case held =>
    intro held dur
    refine ⟨fun y scanning room left stepped => ?_, fun between => ?_⟩
    · refine (exec_ilpStep reached dur).trans (congrArg _ ((State.ilpCmd_step_of_hold held).trans ?_))
      exact State.ilpStepOne_of_next (s := s.ilpResult 0) scanning room left stepped
    · refine ⟨_, (exec_ilpContinue reached dur).trans (congrArg _ ((State.ilpCmd_continue_of_hold held).trans
        (State.ilpContinue_of_between (s := s.ilpResult 0) between))), ?_⟩
      rw [State.ilp_ilpMode]
      exact ⟨rfl, rfl, rfl⟩
  case load => exact fun stopped => exec_ilpLoad_of_stop reached idle stopped
  case notStopped =>
    exact fun on => ⟨_, exec_ilpLoad_of_on reached idle on, State.ilp_loadEnd _ _ _, State.errCode_loadEnd (by decide) _ _⟩
  case loaded =>
    intro a n ws inside
    exact ⟨fun passed => ilpLoadDone_applies busy on inside passed,
      fun e pos sec failed => ⟨_, exec_ilpLoadDone_of_failed busy on inside failed, State.ilp_loadEnd _ _ _, State.loadDone_loadEnd _ _ _⟩⟩
  case preset => exact fun room inside timer negative => ilpChgGo_refused reached (Ilp.chgCheck_of_preset room inside timer negative) (by decide)
  case accepted =>
    intro room inside fits
    have code : s.ilp.chgCheck (s.chgReq p) = 0 := Ilp.chgCheck_of_fits room inside fits
    refine ⟨fun on => (exec_ilpChgGo_of_accepted reached code).trans (congrArg _ (if_neg on)), fun stopped none => ?_⟩
    obtain ⟨applied, done⟩ := State.ilpChanges_of_one (s := s.chgQueued p 0) (g := s.chgReq p) (by simp [State.chgQueued, none])
    refine ⟨_, (exec_ilpChgGo_of_accepted reached code).trans (congrArg _ (if_pos stopped)), ?_, done⟩
    rw [applied, State.chgQueued, State.ilp_updIlp, Ilp.chgPut_setChg]
    rfl
  case full => exact fun full => ilpChgGo_refused reached (Ilp.chgCheck_of_full full) (by decide)
  case beyond => exact fun room beyond => ilpChgGo_refused reached (Ilp.chgCheck_of_beyond room beyond) (by decide)

end Sys2Proof.Machine
end

section
/-!
SUPPORT. The outputs of the safety island's two channels (R268–R283): what a transition of one output leaves of the island, and what it makes of that output.
-/

namespace Sys2Proof.Machine

/-! ### Parts of the island -/

section
variable (s : State)

@[simp] theorem State.saf_updSaf (f : Saf → Saf) : (s.updSaf f).saf = f s.saf := rfl

@[simp] theorem State.saf_irq (b : Block) (i : Nat) : (s.irq b i).saf = s.saf := State.irq_same s b i .saf (by decide)

@[simp] theorem State.saf_record (b : Block) (inst code : Nat) (ps : List Nat) : (s.record b inst code ps).saf = s.saf :=
  State.record_same s b inst code ps .saf (by decide)

theorem State.chan_updSCh (c k : Nat) (f : SChan → SChan) :
    (s.updSCh c f).saf.chan k = if k = c then f (s.saf.chan c) else s.saf.chan k := Tab.get_upd _ _ _ _ _

@[simp] theorem State.chan_updSCh_same (c : Nat) (f : SChan → SChan) : (s.updSCh c f).saf.chan c = f (s.saf.chan c) := Tab.get_upd_same _ _ _ _

theorem State.chan_updSCh_ne {c k : Nat} (f : SChan → SChan) (other : k ≠ c) : (s.updSCh c f).saf.chan k = s.saf.chan k :=
  Tab.get_upd_ne _ _ _ other

/-- What `f` keeps of a channel stays in every channel. -/
theorem State.updSCh_keeps {β : Type} (g : SChan → β) {f : SChan → SChan} (h : ∀ k, g (f k) = g k) (c k : Nat) :
    g ((s.updSCh c f).saf.chan k) = g (s.saf.chan k) := by
  rw [State.chan_updSCh]
  split
  next same => rw [h, same]
  next => rfl

theorem State.out_updSOut (c m k j : Nat) (f : SOut → SOut) :
    ((s.updSOut c m f).saf.chan k).out j = if (k, j) = (c, m) then f ((s.saf.chan c).out m) else (s.saf.chan k).out j := by
  unfold State.updSOut
  rw [State.chan_updSCh]
  split
  next same => subst same; simp [SChan.out, Tab.get_upd]
  next other => rw [if_neg fun e => other (congrArg Prod.fst e)]

@[simp] theorem State.out_updSOut_same (c m : Nat) (f : SOut → SOut) : ((s.updSOut c m f).saf.chan c).out m = f ((s.saf.chan c).out m) :=
  (s.out_updSOut c m c m f).trans (if_pos rfl)

@[simp] theorem State.out_edmStart (c m k : Nat) : ((s.edmStart c m).saf.chan k).out = (s.saf.chan k).out := by
  unfold State.edmStart
  split
  · exact s.updSCh_keeps SChan.out (f := fun k => { k with edm := if k.edm.contains m then k.edm else k.edm ++ [m] }) (fun _ => rfl) c k
  · rfl

end

theorem Saf.outs_nodup (x : Saf) : x.outs.Nodup := List.nodup_range.filter _

/-- An output with an open switch is not energized. -/
theorem Saf.energized_of_open {x : Saf} {c m : Nat} (channel : c < 2) (isOpen : x.outSt c m ≠ .on) : x.energized m = false := by
  have zeroOrOne : c = 0 ∨ c = 1 := by omega
  rcases zeroOrOne with rfl | rfl <;> simp [Saf.energized, isOpen]

/-! ### Moves of outputs -/

/-- A channel without its outputs and their EDM timers. -/
def SChan.core (k : SChan) : SChan := { k with outs := [], edm := [] }

/-- The island without its channels and without what its outputs log: the first causes and the last reaction times. -/
def Saf.core (x : Saf) : Saf := { x with ch := [], first := none, causeOf := [], rtLast := [] }

/-- Only the outputs in `A`, by channel and number, move, with their EDM timers and what they log. The rest of the island stays as it is, and so do the
FATAL line and every interrupt cause of SAF raised before. -/
structure State.Moves (A : Set (Nat × Nat)) (s t : State) : Prop where
  island : t.saf.core = s.saf.core
  chan : ∀ c, (t.saf.chan c).core = (s.saf.chan c).core
  out : ∀ c m, (c, m) ∉ A → (t.saf.chan c).out m = (s.saf.chan c).out m
  edm : ∀ c, (∀ m, (c, m) ∉ A) → (t.saf.chan c).edm = (s.saf.chan c).edm
  reaction : ∀ m, (∀ c, (c, m) ∉ A) → Tab.get (0, 0) t.saf.rtLast m = Tab.get (0, 0) s.saf.rtLast m
  fatal : t.erm.fatal = s.erm.fatal
  raised : ∀ i, bit (s.hd .saf).irqRaw i = true → bit (t.hd .saf).irqRaw i = true

/-- The outputs of a channel. -/
def outsOf (c : Nat) : Set (Nat × Nat) := {q | q.1 = c}

/-- Every output but those numbered `m`. -/
def outsBut (m : Nat) : Set (Nat × Nat) := {q | q.2 ≠ m}

section
variable {A B : Set (Nat × Nat)} {s t u : State}

namespace State.Moves

theorem refl (A : Set (Nat × Nat)) (s : State) : Moves A s s := ⟨rfl, fun _ => rfl, fun _ _ _ => rfl, fun _ _ => rfl, fun _ _ => rfl, rfl, fun _ h => h⟩

theorem trans (h : Moves A s t) (g : Moves A t u) : Moves A s u where
  island := g.island.trans h.island
  chan c := (g.chan c).trans (h.chan c)
  out c m still := (g.out c m still).trans (h.out c m still)
  edm c still := (g.edm c still).trans (h.edm c still)
  reaction m still := (g.reaction m still).trans (h.reaction m still)
  fatal := g.fatal.trans h.fatal
  raised i on := g.raised i (h.raised i on)

theorem mono (h : Moves A s t) (sub : A ⊆ B) : Moves B s t where
  island := h.island
  chan := h.chan
  out c m still := h.out c m fun a => still (sub a)
  edm c still := h.edm c fun m a => still m (sub a)
  reaction m still := h.reaction m fun c a => still c (sub a)
  fatal := h.fatal
  raised := h.raised

theorem ite {c : Prop} [Decidable c] (h : Moves A s t) (g : Moves A s u) : Moves A s (if c then t else u) := by split <;> assumption

theorem foldl {α : Type} {f : State → α → State} (l : List α) (acts : ∀ s, ∀ x ∈ l, Moves A s (f s x)) (s : State) : Moves A s (l.foldl f s) :=
  List.foldlRecOn (motive := Moves A s) l f (refl A s) fun u h x mem => h.trans (acts u x mem)

/-- A fold over distinct numbers, each of which moves outputs of its own number only, acts on an output as its own step does. -/
theorem foldl_at {f : State → Nat → State} (acts : ∀ s m, Moves {q | q.2 = m} s (f s m)) {l : List Nat} (distinct : l.Nodup) {m : Nat} (mem : m ∈ l)
    (s : State) : ∃ u, Moves (outsBut m) s u ∧ Moves (outsBut m) (f u m) (l.foldl f s) := by
  obtain ⟨a, b, rfl⟩ := List.append_of_mem mem
  obtain ⟨_, later, apart⟩ := List.nodup_append.mp distinct
  obtain ⟨fresh, _⟩ := List.nodup_cons.mp later
  have others (l : List Nat) (absent : m ∉ l) (s : State) : Moves (outsBut m) s (l.foldl f s) :=
    foldl l (fun s j mem => (acts s j).mono fun q (own : q.2 = j) (same : q.2 = m) => absent (own.symm.trans same ▸ mem)) s
  refine ⟨a.foldl f s, others a (fun mem => apart m mem m List.mem_cons_self rfl) s, ?_⟩
  rw [List.foldl_append, List.foldl_cons]
  exact others b fresh _

/-- What two steps, one for each channel and each moving its own outputs, make of a channel is what its own step makes of it. -/
theorem both_at {f : State → Nat → State} (acts : ∀ s c, Moves (outsOf c) s (f s c)) {c : Nat} (channel : c < 2) (s : State) :
    ∃ u, Moves (outsOf (1 - c)) s u ∧ Moves (outsOf (1 - c)) (f u c) (safBoth s f) := by
  have zeroOrOne : c = 0 ∨ c = 1 := by omega
  rcases zeroOrOne with rfl | rfl
  · exact ⟨s, refl _ s, acts _ 1⟩
  · exact ⟨f s 0, acts s 0, refl _ _⟩

theorem both {f : State → Nat → State} (acts : ∀ s c, Moves A s (f s c)) (s : State) : Moves A s (safBoth s f) := (acts s 0).trans (acts _ 1)

/-! What stays, read through the accessors. -/

theorem param (h : Moves A s t) : t.saf.param = s.saf.param := (congrArg Saf.param h.island :)

theorem outs (h : Moves A s t) : t.saf.outs = s.saf.outs := (congrArg Saf.outs h.island :)

theorem edmEn (h : Moves A s t) : t.saf.edmEn = s.saf.edmEn := (congrArg Saf.edmEn h.island :)

theorem edmPair (h : Moves A s t) : t.saf.edmPair = s.saf.edmPair := (congrArg Saf.edmPair h.island :)

theorem alive (h : Moves A s t) (c : Nat) : (t.saf.chan c).alive = (s.saf.chan c).alive := (congrArg SChan.alive (h.chan c) :)

theorem passed (h : Moves A s t) (c : Nat) : (t.saf.chan c).passed = (s.saf.chan c).passed := (congrArg SChan.passed (h.chan c) :)

theorem lost (h : Moves A s t) (c : Nat) : (t.saf.chan c).lost = (s.saf.chan c).lost := (congrArg SChan.lost (h.chan c) :)

theorem causes (h : Moves A s t) (c : Nat) : (t.saf.chan c).causes = (s.saf.chan c).causes := (congrArg SChan.causes (h.chan c) :)

theorem paramBad (h : Moves A s t) (c : Nat) : (t.saf.chan c).paramBad = (s.saf.chan c).paramBad := (congrArg SChan.paramBad (h.chan c) :)

theorem pair (h : Moves A s t) (c : Nat) : (t.saf.chan c).pair = (s.saf.chan c).pair := (congrArg SChan.pair (h.chan c) :)

theorem outSt (h : Moves A s t) {c m : Nat} (still : (c, m) ∉ A) : t.saf.outSt c m = s.saf.outSt c m := congrArg SOut.st (h.out c m still)

end State.Moves

section
variable {x y : Saf} (param : y.param = x.param)
include param

/-! What the active set alone decides. -/

theorem Saf.outs_congr : y.outs = x.outs := congrArg (fun ws => ({ param := ws } : Saf).outs) param

theorem Saf.mapped_congr : y.mapped = x.mapped := congrArg (fun ws => ({ param := ws } : Saf).mapped) param

theorem Saf.healthy_congr : y.healthy = x.healthy := congrArg (fun ws => ({ param := ws } : Saf).healthy) param

theorem Saf.inDemand_congr {c : Nat} (filt : (y.chan c).filt = (x.chan c).filt) (n : Nat) (b : Bool) : y.inDemand c n b = x.inDemand c n b := by
  unfold Saf.inDemand
  rw [Saf.healthy_congr param, filt]

section
variable {c : Nat} (filt : (y.chan c).filt = (x.chan c).filt) (pair : (y.chan c).pair = (x.chan c).pair)
include filt pair

theorem Saf.demand_congr : y.demand c = x.demand c := by
  funext n
  simp only [Saf.demand, Saf.inDemand_congr param filt, pair]

theorem Saf.gated_congr : y.gated c = x.gated c := by
  funext m
  simp only [Saf.gated, Saf.mapped_congr param, Saf.demand_congr param filt pair]

end

end

namespace State.Moves

theorem filt (h : Moves A s t) (c : Nat) : (t.saf.chan c).filt = (s.saf.chan c).filt := (congrArg SChan.filt (h.chan c) :)

theorem demand (h : Moves A s t) : t.saf.demand = s.saf.demand := funext fun c => Saf.demand_congr h.param (h.filt c) (h.pair c)

theorem gated (h : Moves A s t) : t.saf.gated = s.saf.gated := funext fun c => Saf.gated_congr h.param (h.filt c) (h.pair c)

end State.Moves

end

end Sys2Proof.Machine
end

section
/-!
SUPPORT. The transitions of the island's outputs (R275–R278, Table SAF-2) as moves, and what each makes of the output that it moves.
-/

namespace Sys2Proof.Machine

/-! ### The parts of a transition -/

section
variable {A : Set (Nat × Nat)} (s : State)

/-- What leaves the island, the error manager and the header of SAF alone moves nothing. -/
theorem State.Moves.of_same {s t : State} (saf : t.saf = s.saf) (erm : t.erm = s.erm)
    (raised : ∀ i, bit (s.hd .saf).irqRaw i = true → bit (t.hd .saf).irqRaw i = true) : State.Moves A s t := by
  refine ⟨?_, ?_, ?_, ?_, ?_, ?_, raised⟩ <;> simp [saf, erm]

theorem State.record_moves (b : Block) (inst code : Nat) (ps : List Nat) : State.Moves A s (s.record b inst code ps) := by
  refine .of_same (s.saf_record b inst code ps) (State.record_same s b inst code ps .erm (by decide)) fun i on => ?_
  rwa [State.hd_record _ _ _ _ _ (by decide)]

theorem State.irq_moves (i : Nat) : State.Moves A s (s.irq .saf i) := by
  refine .of_same (s.saf_irq .saf i) (State.irq_same s .saf i .erm (by decide)) fun j on => ?_
  rw [State.hd_irq_same]
  unfold bit setBit at *
  rw [BitVec.getLsbD_or, on, Bool.true_or]

/-- A change of what the outputs log. -/
theorem State.updSaf_moves {f : Saf → Saf} (core : (f s.saf).core = s.saf.core) (ch : (f s.saf).ch = s.saf.ch)
    (reaction : ∀ m, (∀ c, (c, m) ∉ A) → Tab.get (0, 0) (f s.saf).rtLast m = Tab.get (0, 0) s.saf.rtLast m) : State.Moves A s (s.updSaf f) := by
  have chan (c : Nat) : (f s.saf).chan c = s.saf.chan c := congrArg (fun t : Tab SChan => Tab.get ({} : SChan) t c) ch
  exact ⟨core, fun c => congrArg SChan.core (chan c), fun c m _ => congrArg (SChan.out · m) (chan c), fun c _ => congrArg SChan.edm (chan c), reaction, rfl,
    fun _ on => on⟩

theorem State.causeShow_moves (i k : Nat) : State.Moves A s (s.causeShow i k) := s.updSaf_moves rfl rfl fun _ _ => rfl

theorem State.safFirst_moves (k m : Nat) (pair : Bool) : State.Moves A s (s.safFirst k m pair) :=
  (s.updSaf_moves rfl rfl fun _ _ => rfl).trans (State.causeShow_moves _ _ _)

/-- A change of a channel's outputs and EDM timers alone. -/
theorem State.updSCh_moves {c : Nat} {f : SChan → SChan} (core : ∀ k, (f k).core = k.core)
    (out : ∀ m, (c, m) ∉ A → (f (s.saf.chan c)).out m = (s.saf.chan c).out m) (mem : ∃ m, (c, m) ∈ A) : State.Moves A s (s.updSCh c f) := by
  refine ⟨rfl, fun k => s.updSCh_keeps SChan.core core c k, fun k m still => ?_, fun k still => ?_, fun _ _ => rfl, rfl, fun _ on => on⟩
  · rw [State.chan_updSCh]
    split
    next same => rw [out m (same ▸ still), same]
    next => rfl
  · obtain ⟨m, moved⟩ := mem
    rw [s.chan_updSCh_ne f fun same : k = c => still m (same.symm ▸ moved)]

theorem State.updSOut_moves (c m : Nat) (f : SOut → SOut) : State.Moves {(c, m)} s (s.updSOut c m f) :=
  s.updSCh_moves (fun _ => rfl) (fun _ still => Tab.get_upd_ne _ _ _ fun same => still (congrArg (Prod.mk c) same)) ⟨m, rfl⟩

/-- A change of a channel's EDM timers. -/
theorem State.updEdm_moves {c : Nat} (g : SChan → List Nat) (mem : ∃ m, (c, m) ∈ A) : State.Moves A s (s.updSCh c fun k => { k with edm := g k }) :=
  s.updSCh_moves (fun _ => rfl) (fun _ _ => rfl) mem

theorem State.edmStart_moves (c m : Nat) : State.Moves {(c, m)} s (s.edmStart c m) := .ite (s.updEdm_moves _ ⟨m, rfl⟩) (.refl _ s)

theorem State.edmFollow_moves {c : Nat} (mem : ∃ m, (c, m) ∈ A) : State.Moves A s (s.edmFollow c) := s.updEdm_moves _ mem

end

/-! ### Faults (Table SAF-2, Table SAF-5) -/

section
variable (s : State) (c m cause : Nat)

/-- A fault leaves the state as it is where the channel is off or the output has latched the cause; else the output latches it. -/
theorem State.safFault_cases :
    (s.safFault c m cause = s ∧ ((s.saf.chan c).alive = true → s.saf.outSt c m = .fault)) ∨
    (State.Moves {(c, m)} s (s.safFault c m cause) ∧ (s.safFault c m cause).saf.outSt c m = .fault ∧
      (((s.safFault c m cause).saf.chan c).out m).resetSeen = false) := by
  unfold State.safFault
  extract_lets o s1 s2
  split
  next idle => exact .inl ⟨rfl, fun alive => (idle.resolve_left (by simp [alive])).1⟩
  next =>
    have moves : State.Moves {(c, m)} s s2 := (s.updSOut_moves c m _).trans (.ite (State.edmStart_moves _ c m) (.refl _ _))
    have latched : (s2.saf.chan c).out m = (s1.saf.chan c).out m := by
      simp only [s2]
      split <;> simp
    refine .inr ⟨moves.trans ((State.record_moves _ _ _ _ _).trans ((State.safFirst_moves _ _ _ _).trans (State.irq_moves _ _))), ?_⟩
    have out : ((((s2.record .saf c 0x0F11 [safIdx false m, cause, c]).safFirst cause m false).irq .saf 9).saf.chan c).out m = (s1.saf.chan c).out m := by
      rw [State.saf_irq, ← latched]
      exact ((State.safFirst_moves (A := ∅) _ cause m false).out c m (Set.notMem_empty _)).trans (by rw [State.saf_record])
    unfold Saf.outSt
    rw [out, State.out_updSOut_same]
    exact ⟨rfl, rfl⟩

theorem State.safFault_moves : State.Moves {(c, m)} s (s.safFault c m cause) := by
  rcases s.safFault_cases c m cause with ⟨same, _⟩ | ⟨moves, _⟩
  · rw [same]
    exact .refl _ s
  · exact moves

variable {s c}

theorem State.safFault_faults (alive : (s.saf.chan c).alive = true) : (s.safFault c m cause).saf.outSt c m = .fault := by
  rcases s.safFault_cases c m cause with ⟨same, already⟩ | ⟨_, faulted, _⟩
  · rw [same]
    exact already alive
  · exact faulted

/-- An output in FAULT stays there whatever faults follow. -/
theorem State.safFault_keeps {k j : Nat} (faulted : s.saf.outSt k j = .fault) : (s.safFault c m cause).saf.outSt k j = .fault := by
  by_cases own : (k, j) = (c, m)
  · obtain ⟨rfl, rfl⟩ := Prod.mk.inj own
    rcases s.safFault_cases k j cause with ⟨same, _⟩ | ⟨_, again, _⟩
    · rwa [same]
    · exact again
  · exact ((s.safFault_moves c m cause).outSt own).trans faulted

end

/-! ### Every enabled output of a channel -/

theorem numbered_of_one {c m : Nat} : ({(c, m)} : Set (Nat × Nat)) ⊆ {q | q.2 = m} := fun _ h => congrArg Prod.snd h

theorem outsOf_of_one {c m : Nat} : ({(c, m)} : Set (Nat × Nat)) ⊆ outsOf c := fun _ h => congrArg Prod.fst h

section
variable (s : State) (c cause : Nat)

theorem State.safFaultAll_moves : State.Moves (outsOf c) s (s.safFaultAll c cause) :=
  .foldl _ (fun u m _ => (u.safFault_moves c m cause).mono outsOf_of_one) s

variable {s c}

theorem State.safFaultAll_faults {m : Nat} (alive : (s.saf.chan c).alive = true) (mem : m ∈ s.saf.outs) :
    (s.safFaultAll c cause).saf.outSt c m = .fault := by
  obtain ⟨u, before, after⟩ := State.Moves.foldl_at (fun u m => (u.safFault_moves c m cause).mono numbered_of_one) s.saf.outs_nodup mem s
  exact (after.outSt (not_not_intro rfl)).trans (State.safFault_faults m cause ((before.alive c).trans alive))

theorem State.safFaultAll_keeps {k j : Nat} (faulted : s.saf.outSt k j = .fault) : (s.safFaultAll c cause).saf.outSt k j = .fault :=
  List.foldlRecOn (motive := fun u : State => u.saf.outSt k j = .fault) _ _ faulted fun _ h m _ => State.safFault_keeps m cause h

end

/-! ### Switches that close, trip and follow the pairs -/

section
variable (s : State) (c m openUs rbUs : Nat)

theorem State.safOn_moves : State.Moves {(c, m)} s (s.safOn c m) :=
  .ite (s.updSOut_moves c m _) ((s.updSOut_moves c m _).trans (State.edmStart_moves _ c m))

theorem State.safTrip_moves (n : Nat) : State.Moves {(c, m)} s (s.safTrip c m n openUs rbUs) := by
  have tripped : State.Moves {(c, m)} s ((s.updSOut c m fun o => { o with st := .off }).edmStart c m) :=
    (s.updSOut_moves c m _).trans (State.edmStart_moves _ c m)
  refine .ite (tripped.trans ((State.record_moves _ _ _ _ _).trans (.trans (State.updSaf_moves _ rfl rfl fun j others => ?_) (State.irq_moves _ _)))) tripped
  exact Tab.get_put_ne _ _ _ fun same => others c (congrArg (Prod.mk c) same)

theorem State.safStep_moves : State.Moves {(c, m)} s (s.safStep c m openUs rbUs) := by
  unfold State.safStep
  extract_lets x o dem
  split
  · exact .ite (s.safFault_moves c m _) (.ite (.refl _ s) (.ite (.ite (s.safOn_moves c m) (.refl _ s)) (s.updSOut_moves c m _)))
  · exact .ite (s.updSOut_moves c m _) (.refl _ s)
  · exact .ite (s.safTrip_moves c m openUs rbUs _) (.refl _ s)
  · exact .refl _ s

theorem State.safEval_moves : State.Moves (outsOf c) s (s.safEval c openUs rbUs) :=
  .ite (.refl _ s) ((s.edmFollow_moves (A := outsOf c) ⟨0, rfl⟩).trans (.foldl _ (fun u m _ => (u.safStep_moves c m openUs rbUs).mono outsOf_of_one) _))

/-- What an evaluation makes of an enabled output is what the output's own step makes of it. -/
theorem State.safEval_at {s : State} {c m : Nat} (alive : (s.saf.chan c).alive = true) (mem : m ∈ s.saf.outs) (openUs rbUs : Nat) :
    ∃ u, State.Moves (outsBut m) s u ∧ State.Moves (outsBut m) (u.safStep c m openUs rbUs) (s.safEval c openUs rbUs) := by
  have followed : State.Moves (outsBut m) s (s.edmFollow c) := s.edmFollow_moves ⟨m + 1, Nat.succ_ne_self m⟩
  obtain ⟨u, before, after⟩ := State.Moves.foldl_at (fun u m => (u.safStep_moves c m openUs rbUs).mono numbered_of_one) s.saf.outs_nodup mem (s.edmFollow c)
  refine ⟨u, followed.trans before, ?_⟩
  rwa [State.safEval, if_neg (by simp [alive])]

variable {s c m}

theorem State.safStep_of_on (on : s.saf.outSt c m = .on) : s.safStep c m openUs rbUs =
    if s.saf.gated c m = true then s.safTrip c m (((s.saf.mapped m).find? fun n => s.saf.demand c n).getD 0) openUs rbUs else s := by
  unfold State.safStep
  simp only [show ((s.saf.chan c).out m).st = .on from on]

theorem State.safStep_of_waitReset (waits : s.saf.outSt c m = .waitReset) : s.safStep c m openUs rbUs =
    if s.saf.gated c m = true then s.updSOut c m fun o => { o with st := .off } else s := by
  unfold State.safStep
  simp only [show ((s.saf.chan c).out m).st = .waitReset from waits]

theorem State.safTrip_opens (n : Nat) : (s.safTrip c m n openUs rbUs).saf.outSt c m = .off := by
  unfold State.safTrip
  extract_lets both s1
  have opened : s1.saf.outSt c m = .off := by simp [s1, Saf.outSt]
  split
  · rw [State.saf_irq]
    exact (congrArg (Saf.outSt · c m) (s1.saf_record _ _ _ _)).trans opened
  · exact opened

/-- The first switch to open logs the reaction time and raises TRIP (R281). -/
theorem State.safTrip_logs {n : Nat} (closed : s.saf.outSt (1 - c) m = .on) :
    Tab.get (0, 0) (s.safTrip c m n openUs rbUs).saf.rtLast m = (openUs, rbUs) ∧ bit ((s.safTrip c m n openUs rbUs).hd .saf).irqRaw 8 = true := by
  unfold State.safTrip
  extract_lets both s1
  rw [if_pos (decide_eq_true closed), State.saf_irq, State.hd_irq_same]
  exact ⟨Tab.get_put_same _ _ _ _, bit_setBit_same _ (by decide)⟩

end

/-! ### The evaluation of a channel -/

section
variable {s : State} {c m : Nat} (openUs rbUs : Nat)

theorem still_outsBut {c m : Nat} : (c, m) ∉ outsBut m := not_not_intro rfl

/-- A demand opens the closed switch of an enabled output, and the first switch to open is logged (R278, R281). -/
theorem State.safEval_trips (alive : (s.saf.chan c).alive = true) (mem : m ∈ s.saf.outs) (on : s.saf.outSt c m = .on) (gated : s.saf.gated c m = true) :
    (s.safEval c openUs rbUs).saf.outSt c m = .off ∧
    (s.saf.outSt (1 - c) m = .on → Tab.get (0, 0) (s.safEval c openUs rbUs).saf.rtLast m = (openUs, rbUs) ∧
      bit ((s.safEval c openUs rbUs).hd .saf).irqRaw 8 = true) := by
  obtain ⟨u, before, after⟩ := State.safEval_at alive mem openUs rbUs
  rw [State.safStep_of_on _ _ ((before.outSt still_outsBut).trans on), if_pos (by rw [before.gated, gated])] at after
  refine ⟨(after.outSt still_outsBut).trans (State.safTrip_opens _ _ _), fun closed => ?_⟩
  obtain ⟨logged, raised⟩ := State.safTrip_logs openUs rbUs ((before.outSt still_outsBut).trans closed)
  exact ⟨(after.reaction m fun _ => still_outsBut).trans logged, after.raised 8 raised⟩

/-- An ON output without a demand stays ON. -/
theorem State.safEval_keeps_on (alive : (s.saf.chan c).alive = true) (mem : m ∈ s.saf.outs) (on : s.saf.outSt c m = .on) (free : s.saf.gated c m = false) :
    (s.safEval c openUs rbUs).saf.outSt c m = .on := by
  obtain ⟨u, before, after⟩ := State.safEval_at alive mem openUs rbUs
  have closed : u.saf.outSt c m = .on := (before.outSt still_outsBut).trans on
  rw [State.safStep_of_on _ _ closed, if_neg (by simp [before.gated, free])] at after
  exact (after.outSt still_outsBut).trans closed

/-- An output in WAIT_RESET does not close without a reset (R277). -/
theorem State.safEval_keeps_open (alive : (s.saf.chan c).alive = true) (mem : m ∈ s.saf.outs) (waits : s.saf.outSt c m = .waitReset) :
    (s.safEval c openUs rbUs).saf.outSt c m ≠ .on := by
  obtain ⟨u, before, after⟩ := State.safEval_at alive mem openUs rbUs
  have waited : u.saf.outSt c m = .waitReset := (before.outSt still_outsBut).trans waits
  rw [after.outSt still_outsBut, State.safStep_of_waitReset _ _ waited]
  split
  · simp [Saf.outSt]
  · rw [waited]
    decide

theorem State.safEvalBoth_moves (s : State) : State.Moves Set.univ s s.safEvalBoth := .both (fun u k => (u.safEval_moves k 0 0).mono (Set.subset_univ _)) s

end

end Sys2Proof.Machine
end

section
/-!
SUPPORT. Demands, latched pairs and faults of the island (R269, R271, R273–R275, R278–R280).
-/

namespace Sys2Proof.Machine

/-! ### Demands of pairs -/

theorem nbit_nput (n i : Nat) (b : Bool) : nbit (nput n i b) i = b := by
  cases b with
  | true => exact nbit_nput_same n i
  | false =>
    unfold nput nbit
    rw [if_neg Bool.false_ne_true]
    split
    next set =>
      have odd : n / 2 ^ i % 2 = 1 := by simpa [Nat.testBit_eq_decide_div_mod_eq] using set
      have less : (n - 2 ^ i) / 2 ^ i = n / 2 ^ i - 1 := by simpa using Nat.sub_mul_div n (2 ^ i) 1
      rw [Nat.testBit_eq_decide_div_mod_eq, less]
      simp
      omega
    next clear => simpa using clear

section
variable {x : Saf} {c n : Nat}

theorem Saf.demand_of_held (held : ((x.chan c).pair n).held ≠ 0) : x.demand c n = true := by simp [Saf.demand, held]

theorem Saf.demand_of_input {b : Bool} (input : x.inDemand c n b = true) : x.demand c n = true := by
  unfold Saf.demand
  cases b <;> simp [input]

theorem Saf.gated_of_demand {m : Nat} (mem : n ∈ x.mapped m) (demand : x.demand c n = true) : x.gated c m = true := List.any_eq_true.mpr ⟨n, mem, demand⟩

end

section
variable (s : State)

/-- The discrepancy timer's start or end changes the timer alone. -/
theorem State.discFollow_eq (n : Nat) : ∃ d ms, s.discFollow n = s.updSaf fun x => { x with disc := d, discMs := ms } := by
  unfold State.discFollow
  dsimp only
  split <;> split <;> exact ⟨_, _, rfl⟩

theorem State.pairClear_cases (c n : Nat) : s.pairClear c n = s ∨ ∃ f, s.pairClear c n = s.updSPair c n f := by
  unfold State.pairClear
  dsimp only
  split
  · exact .inl rfl
  · split
    · exact .inr ⟨_, rfl⟩
    · split
      · exact .inr ⟨_, rfl⟩
      · exact .inl rfl

/-- A pair that clears changes nothing of a channel but its pairs. -/
theorem State.pairClear_keeps {β : Type} (g : SChan → β) (h : ∀ k ps, g { k with pairs := ps } = g k) (c n k : Nat) :
    g ((s.pairClear c n).saf.chan k) = g (s.saf.chan k) := by
  rcases s.pairClear_cases c n with same | ⟨f, cleared⟩
  · rw [same]
  · rw [cleared, State.updSPair]
    exact s.updSCh_keeps g (fun k => h k _) c k

theorem State.param_pairClear (c n : Nat) : (s.pairClear c n).saf.param = s.saf.param := by
  rcases s.pairClear_cases c n with same | ⟨f, cleared⟩
  · rw [same]
  · rw [cleared]
    rfl

end

/-! ### Filters (R274, R278) -/

section
variable {s : State} {c n m : Nat} {b : Bool}

/-- The state in which the outputs follow a filter's end: the channel sees the level at the ball. -/
def State.filtered (s : State) (c n : Nat) (b : Bool) : State :=
  (s.updSCh c fun x => { x with filt := nput x.filt (2 * n + b2n b) (nbit s.saf.raw (2 * n + b2n b)) }).pairClear c n

theorem State.param_filtered : (s.filtered c n b).saf.param = s.saf.param := State.param_pairClear _ c n

/-- What does not read the filtered levels or the pairs of a channel is as before. -/
theorem State.filtered_keeps {β : Type} (g : SChan → β) (pairs : ∀ k ps, g { k with pairs := ps } = g k) (filt : ∀ k f, g { k with filt := f } = g k)
    (k : Nat) : g ((s.filtered c n b).saf.chan k) = g (s.saf.chan k) :=
  (State.pairClear_keeps _ g pairs c n k).trans (s.updSCh_keeps g (fun k => filt k _) c k)

theorem State.outSt_filtered (k j : Nat) : (s.filtered c n b).saf.outSt k j = s.saf.outSt k j :=
  State.filtered_keeps (fun x => (x.out j).st) (fun _ _ => rfl) (fun _ _ => rfl) k

theorem State.demand_filtered (unhealthy : s.saf.healthy n b (nbit s.saf.raw (2 * n + b2n b)) = false) : (s.filtered c n b).saf.demand c n = true := by
  have filt : ((s.filtered c n b).saf.chan c).filt = nput (s.saf.chan c).filt (2 * n + b2n b) (nbit s.saf.raw (2 * n + b2n b)) := by
    refine (State.pairClear_keeps _ SChan.filt (fun _ _ => rfl) c n c).trans ?_
    rw [State.chan_updSCh_same]
  refine Saf.demand_of_input (b := b) ?_
  rw [Saf.inDemand, filt, nbit_nput, Saf.healthy_congr State.param_filtered, unhealthy]
  rfl

theorem safeFilterExpiry_trips {ch : Fin 2} {n : Fin 4} (openUs rbUs : Nat) (alive : (s.saf.chan ch.val).alive = true) (enabled : s.saf.pairEn n.val = true)
    (unhealthy : s.saf.healthy n.val b (nbit s.saf.raw (2 * n.val + b2n b)) = false) (mem : m ∈ s.saf.outs) (mapped : n.val ∈ s.saf.mapped m)
    (on : s.saf.outSt ch.val m = .on) : ∃ t, exec (.safeFilterExpiry ch n b openUs rbUs) s = .next t ∧ t.saf.outSt ch.val m = .off ∧
      t.saf.energized m = false ∧
      (s.saf.outSt (1 - ch.val) m = .on → Tab.get (0, 0) t.saf.rtLast m = (openUs, rbUs) ∧ bit (t.hd .saf).irqRaw 8 = true) := by
  have run : exec (.safeFilterExpiry ch n b openUs rbUs) s = .next ((s.filtered ch.val n.val b).safEval ch.val openUs rbUs) :=
    congrArg Host.Outcome.next (if_neg (by simp [alive, enabled]))
  have gated : (s.filtered ch.val n.val b).saf.gated ch.val m = true :=
    Saf.gated_of_demand (by rwa [Saf.mapped_congr State.param_filtered]) (State.demand_filtered unhealthy)
  obtain ⟨opened, logged⟩ := State.safEval_trips openUs rbUs ((State.filtered_keeps SChan.alive (fun _ _ => rfl) (fun _ _ => rfl) _).trans alive)
    (by rwa [Saf.outs_congr State.param_filtered]) ((State.outSt_filtered _ _).trans on) gated
  refine ⟨_, run, opened, Saf.energized_of_open ch.isLt (by simp [opened]), fun closed => logged ((State.outSt_filtered _ _).trans closed)⟩

end

/-! ### Latched pairs (R273, R275) -/

/-- A live channel holds a pair for cause `k`, 0 for none. -/
def State.Holds (s : State) (c n k : Nat) : Prop := (s.saf.chan c).alive = true ∧ ((s.saf.chan c).pair n).held = k

section
variable {A : Set (Nat × Nat)} {s t : State} {c n k : Nat}

theorem State.Moves.holds (h : State.Moves A s t) (held : s.Holds c n k) : t.Holds c n k := ⟨(h.alive c).trans held.1, by rw [h.pair]; exact held.2⟩

theorem State.Holds.demand (held : s.Holds c n k) (latched : k ≠ 0) : s.saf.demand c n = true := Saf.demand_of_held (held.2 ▸ latched)

theorem State.pairFault_of_latched (latched : ((s.saf.chan c).pair n).held ≠ 0) : s.pairFault c n k = s := if_pos (.inr latched)

theorem State.pairFault_of_dead (dead : (s.saf.chan c).alive = false) : s.pairFault c n k = s := if_pos (.inl (by simp [dead]))

/-- A pair that latches puts outputs of its channel in FAULT. -/
theorem State.pairFault_moves (alive : (s.saf.chan c).alive = true) (free : ((s.saf.chan c).pair n).held = 0) :
    State.Moves (outsOf c) (s.updSPair c n fun p => { p with held := k, both := false }) (s.pairFault c n k) := by
  unfold State.pairFault
  rw [if_neg (by simp [alive, free])]
  refine (State.record_moves _ _ _ _ _).trans ((State.safFirst_moves _ _ _ _).trans ((State.irq_moves _ _).trans (.foldl _ (fun u m _ => ?_) _)))
  exact .ite ((u.safFault_moves c m k).mono outsOf_of_one) (.refl _ u)

theorem State.pairFault_holds (free : s.Holds c n 0) : (s.pairFault c n k).Holds c n k := by
  obtain ⟨alive, held⟩ := free
  refine (State.pairFault_moves alive held).holds ⟨?_, ?_⟩ <;> simp [State.updSPair, SChan.pair, alive]

/-- Another pair's fault leaves what a channel holds of this one. -/
theorem State.pairFault_keeps {d j : Nat} (held : s.Holds c n k) (other : (d, j) ≠ (c, n)) (e : Nat) : (s.pairFault d j e).Holds c n k := by
  cases alive : (s.saf.chan d).alive with
  | false => rwa [State.pairFault_of_dead alive]
  | true =>
    by_cases free : ((s.saf.chan d).pair j).held = 0
    · refine (State.pairFault_moves alive free).holds ?_
      by_cases own : c = d
      · subst own
        have apart : n ≠ j := fun same => other (by rw [same])
        exact ⟨by simp [State.updSPair, held.1], by simpa [State.updSPair, SChan.pair, Tab.get_upd_ne _ _ _ apart] using held.2⟩
      · rw [State.Holds, State.updSPair, State.chan_updSCh_ne _ _ own]
        exact held
    · rwa [State.pairFault_of_latched free]

theorem State.pairFault_keeps_latched (held : s.Holds c n k) (latched : k ≠ 0) (d j e : Nat) : (s.pairFault d j e).Holds c n k := by
  by_cases own : (d, j) = (c, n)
  · obtain ⟨rfl, rfl⟩ := Prod.mk.inj own
    rwa [State.pairFault_of_latched (held.2 ▸ latched)]
  · exact State.pairFault_keeps held own e

theorem State.pairFault_keeps_free (held : s.Holds c n 0 ∨ s.Holds c n k) (latched : k ≠ 0) (d j : Nat) :
    (s.pairFault d j k).Holds c n 0 ∨ (s.pairFault d j k).Holds c n k := by
  rcases held with free | held
  · by_cases own : (d, j) = (c, n)
    · obtain ⟨rfl, rfl⟩ := Prod.mk.inj own
      exact .inr (State.pairFault_holds free)
    · exact .inl (State.pairFault_keeps free own k)
  · exact .inr (State.pairFault_keeps_latched held latched d j k)

/-- Both channels latch a pair, each where it is live and the pair is free. -/
theorem State.safBoth_pairFault_holds (channel : c < 2) (latched : k ≠ 0) (held : s.Holds c n 0 ∨ s.Holds c n k) :
    (safBoth s fun s d => s.pairFault d n k).Holds c n k := by
  have mem : c ∈ [0, 1] := by simp; omega
  show ([0, 1].foldl (fun u d => u.pairFault d n k) s).Holds c n k
  refine foldl_reaches (I := fun u : State => u.Holds c n 0 ∨ u.Holds c n k) (P := fun u : State => u.Holds c n k) mem held
    (fun u d h => State.pairFault_keeps_free h latched d n) (fun u h => ?_) fun u d h => State.pairFault_keeps_latched h latched d n k
  rcases h with free | held
  · exact State.pairFault_holds free
  · exact State.pairFault_keeps_latched held latched c n k

/-- The discrepancy timer of a pair, started at `t0`, has ended. -/
def State.discEnded (s : State) (n t0 : Nat) : State :=
  s.updSaf fun x => { x with disc := Tab.put none x.disc n none, discMs := Tab.put 0 x.discMs n ((s.saf.us - t0) / 1000) }

theorem discrepancyExpiry_latches {n : Fin 4} {t0 : Nat} (timer : Tab.get none s.saf.disc n.val = some t0) (channel : c < 2)
    (alive : (s.saf.chan c).alive = true) (free : ((s.saf.chan c).pair n.val).held = 0) :
    ∃ t, exec (.discrepancyExpiry n) s = .next t ∧ ((t.saf.chan c).pair n.val).held = 1 ∧ t.saf.demand c n.val = true := by
  have latched : (safBoth (s.discEnded n.val t0) fun s d => s.pairFault d n.val cDiscrepancy).Holds c n.val cDiscrepancy :=
    State.safBoth_pairFault_holds channel (by decide) (.inl ⟨alive, free⟩)
  have held := (State.safEvalBoth_moves _).holds latched
  exact ⟨_, congrArg Host.Outcome.next (by simp only [timer]; rfl), held.2, held.demand (by decide)⟩

/-- The pairs that do not pass a pulse of a source. -/
def State.pulseBad (s : State) (srcB : Bool) (low : Nat) : List Nat :=
  [0, 1, 2, 3].filter fun n => s.saf.pairEn n && !(s.saf.pulseOk (1 + b2n srcB) low n false && s.saf.pulseOk (1 + b2n srcB) low n true)

theorem testPulse_latches {n : Fin 4} {low : Nat} (enabled : s.saf.pairEn n.val = true) (own : s.saf.src n.val false = 1)
    (high : nbit low (2 * n.val) = false) (channel : c < 2) (alive : (s.saf.chan c).alive = true) (free : ((s.saf.chan c).pair n.val).held = 0) :
    ∃ t, exec (.testPulse false low) s = .next t ∧ ((t.saf.chan c).pair n.val).held = 2 ∧ t.saf.demand c n.val = true := by
  have fails : s.saf.pulseOk (1 + b2n false) low n.val false = false := by simp [Saf.pulseOk, own, b2n, high]
  have listed : n.val ∈ [0, 1, 2, 3] := by have := n.isLt; simp; omega
  have bad : n.val ∈ s.pulseBad false low := List.mem_filter.mpr ⟨listed, by simp [enabled, fails]⟩
  have latched : ((s.pulseBad false low).foldl (fun s n => safBoth s fun s d => s.pairFault d n cTpCross) s).Holds c n.val cTpCross := by
    refine foldl_reaches (I := fun u : State => u.Holds c n.val 0 ∨ u.Holds c n.val cTpCross) (P := fun u : State => u.Holds c n.val cTpCross) bad
      (.inl ⟨alive, free⟩) (fun u j h => ?_) (fun u h => State.safBoth_pairFault_holds channel (by decide) h) fun u j h => ?_
    · exact State.pairFault_keeps_free (State.pairFault_keeps_free h (by decide) 0 j) (by decide) 1 j
    · exact State.pairFault_keeps_latched (State.pairFault_keeps_latched h (by decide) 0 j _) (by decide) 1 j _
  have held := (State.safEvalBoth_moves _).holds latched
  exact ⟨_, rfl, held.2, held.demand (by decide)⟩

end

/-! ### Faults of a channel and of an output (R269, R271, R278–R280) -/

section
variable {s : State} {c m : Nat}

theorem apart_outsOf (c m : Nat) : (c, m) ∉ outsOf (1 - c) := fun (same : c = 1 - c) => by omega

/-- An output that its channel's step puts in FAULT is in FAULT after the steps of both channels. -/
theorem State.safBoth_faults {f : State → Nat → State} (acts : ∀ u k, State.Moves (outsOf k) u (f u k)) (channel : c < 2)
    (faults : ∀ u, State.Moves (outsOf (1 - c)) s u → (f u c).saf.outSt c m = .fault) : (safBoth s f).saf.outSt c m = .fault := by
  obtain ⟨u, before, after⟩ := State.Moves.both_at acts channel s
  exact (after.outSt (apart_outsOf c m)).trans (faults u before)

theorem State.safBoth_safFault_faults (channel : c < 2) (alive : (s.saf.chan c).alive = true) (cause : Nat) :
    (safBoth s fun s k => s.safFault k m cause).saf.outSt c m = .fault :=
  State.safBoth_faults (fun u k => (u.safFault_moves k m cause).mono outsOf_of_one) channel fun _ before =>
    State.safFault_faults m cause ((before.alive c).trans alive)

theorem contains_latched (l : List Nat) (k : Nat) : (if l.contains k then l else l ++ [k]).contains k = true := by
  split
  · assumption
  · simp

theorem State.safChanFault_latches (alive : (s.saf.chan c).alive = true) (cause : Nat) :
    ((s.safChanFault c cause).saf.chan c).causes.contains cause = true ∧ ∀ m ∈ s.saf.outs, (s.safChanFault c cause).saf.outSt c m = .fault := by
  unfold State.safChanFault
  rw [if_pos alive]
  refine ⟨?_, fun m mem => State.safFaultAll_faults cause (by simpa using alive) mem⟩
  rw [(State.safFaultAll_moves _ c cause).causes, State.chan_updSCh_same]
  exact contains_latched _ _

/-- CH_LOST of a channel's partner. -/
theorem chLost_faults {lost : Fin 2} (alive : (s.saf.chan (1 - lost.val)).alive = true) (unannounced : lost.val = 1 → s.saf.fwRestart = false) :
    ∃ t, exec (.chLost lost) s = .next t ∧ (t.saf.chan (1 - lost.val)).lost = true ∧ ∀ m ∈ s.saf.outs, t.saf.outSt (1 - lost.val) m = .fault := by
  have live : ¬((!(s.saf.chan (1 - lost.val)).alive) = true ∨ (lost.val = 1 ∧ s.saf.fwRestart = true)) := by simpa [alive] using unannounced
  refine ⟨(s.updSCh (1 - lost.val) fun x => { x with lost := true }).safFaultAll (1 - lost.val) cLost, congrArg Host.Outcome.next (if_neg live), ?_,
    fun m mem => State.safFaultAll_faults _ (by simpa using alive) mem⟩
  rw [(State.safFaultAll_moves _ _ cLost).lost, State.chan_updSCh_same]

/-- The EDM timer of an output ends in a channel. -/
def State.edmExpire (s : State) (c m : Nat) : State :=
  if !(s.saf.chan c).edm.contains m then s
  else
    if s.saf.edmFollows c m then s.updSCh c fun k => { k with edm := k.edm.filter fun j => decide (j ≠ m) }
    else (s.updSCh c fun k => { k with edm := k.edm.filter fun j => decide (j ≠ m) }).safFault c m cEdm

theorem State.edmExpire_moves (s : State) (c m : Nat) : State.Moves {(c, m)} s (s.edmExpire c m) :=
  .ite (.refl _ s) (.ite (s.updEdm_moves _ ⟨m, rfl⟩) ((s.updEdm_moves (A := {(c, m)}) _ ⟨m, rfl⟩).trans (State.safFault_moves _ c m cEdm)))

theorem edmTimeout_faults {m : Fin 4} (channel : c < 2) (runs : m.val ∈ (s.saf.chan c).edm) (alive : (s.saf.chan c).alive = true)
    (behind : s.saf.demand c (s.saf.edmPair m.val) ≠ decide (s.saf.outSt c m.val = .on)) :
    ∃ t, exec (.edmTimeout m) s = .next t ∧ t.saf.outSt c m.val = .fault := by
  refine ⟨safBoth s fun s k => s.edmExpire k m.val, rfl,
    State.safBoth_faults (fun u k => (u.edmExpire_moves k m.val).mono outsOf_of_one) channel fun u before => ?_⟩
  have running : m.val ∈ (u.saf.chan c).edm := by rwa [before.edm c (apart_outsOf c)]
  have late : u.saf.edmFollows c m.val = false := by
    rw [Saf.edmFollows, before.demand, before.edmPair, before.outSt (apart_outsOf c _)]
    simpa using behind
  rw [State.edmExpire, if_neg (by simpa using running), if_neg (by simp [late])]
  exact State.safFault_faults _ _ (by simpa using (before.alive c).trans alive)

theorem chMismatch_faults {m : Fin 4} {ch : Fin 2} (alive : (s.saf.chan ch.val).alive = true) (on : s.saf.outSt ch.val m.val = .on)
    (partner : s.saf.outSt (1 - ch.val) m.val ≠ .on) : ∃ t, exec (.chMismatch m ch) s = .next t ∧ t.saf.outSt ch.val m.val = .fault :=
  ⟨_, congrArg Host.Outcome.next (if_pos ⟨on, partner⟩), State.safFault_faults _ _ alive⟩

theorem fsSUndervoltage_faults (supplied : (s.saf.chan 0).alive = true) : ∃ t, exec .fsSUndervoltage s = .next t ∧ t.saf.fsUv = true ∧
    ∀ c < 2, (s.saf.chan c).alive = true → ∀ m ∈ s.saf.outs, t.saf.outSt c m = .fault := by
  have acts (u : State) (k : Nat) : State.Moves (outsOf k) u (if (u.saf.chan k).alive then u.safFaultAll k cFsUv else u) :=
    .ite (u.safFaultAll_moves k cFsUv) (.refl _ u)
  refine ⟨safBoth (s.updSaf fun x => { x with fsUv := true, fsWarn := true }) fun s k => if (s.saf.chan k).alive then s.safFaultAll k cFsUv else s,
    congrArg Host.Outcome.next (if_neg (by simp [supplied])), ?_, fun c channel alive m mem => State.safBoth_faults acts channel fun u before => ?_⟩
  · exact (congrArg Saf.fsUv (State.Moves.both (A := Set.univ) (fun u k => (acts u k).mono (Set.subset_univ _)) _).island :)
  · have live : (u.saf.chan c).alive = true := (before.alive c).trans alive
    rw [if_pos live]
    exact State.safFaultAll_faults _ live (by rw [before.outs]; exact mem)

end

/-! ### Off-pulses and readbacks (R279) -/

section
variable {s : State} {m : Fin 4}

/-- An off-pulse of an output starts. -/
def State.testStart (s : State) (m : Nat) : State :=
  s.updSaf fun x => { x with test := Tab.put none x.test m (some (Tab.get 0 s.saf.nextSw m)), nextSw := Tab.put 0 x.nextSw m (1 - Tab.get 0 s.saf.nextSw m),
                             lastTest := some x.us }

theorem offPulseTest_opens (energized : s.saf.energized m.val = true) (rested : s.saf.lastTest = none) (idle : Tab.get none s.saf.test m.val = none) :
    ∃ t, exec (.offPulseTest m) s = .next t ∧ Tab.get none t.saf.test m.val = some (Tab.get 0 s.saf.nextSw m.val) ∧
      Tab.get 0 t.saf.nextSw m.val = 1 - Tab.get 0 s.saf.nextSw m.val ∧ t.saf.ch = s.saf.ch := by
  refine ⟨s.testStart m.val, congrArg Host.Outcome.next (if_neg (by simp [energized, rested, idle])), ?_, ?_, rfl⟩ <;> simp [State.testStart]

section
variable {sw : Nat} (testing : Tab.get none s.saf.test m.val = some sw)
include testing

theorem offPulseReadback_closes (us : Nat) : ∃ t, exec (.offPulseReadback m us) s = .next t ∧ Tab.get none t.saf.test m.val = none ∧
    Tab.get {} t.saf.testLast m.val = { sw := sw, pass := true, us := us } ∧ t.saf.ch = s.saf.ch := by
  refine ⟨s.testEnd m.val sw us true, congrArg Host.Outcome.next (by simp only [testing]), ?_, ?_, rfl⟩ <;> simp [State.testEnd]

theorem offPulseTimeout_faults {c : Nat} (channel : c < 2) (alive : (s.saf.chan c).alive = true) :
    ∃ t, exec (.offPulseTimeout m) s = .next t ∧ t.saf.outSt c m.val = .fault := by
  refine ⟨safBoth ((s.testEnd m.val sw 200 false).record .saf 0 0x0F17 [m.val, sw, 200]) fun s k => s.safFault k m.val cOutTest,
    congrArg Host.Outcome.next (by simp only [testing]), State.safBoth_safFault_faults channel ?_ _⟩
  rw [State.saf_record]
  exact alive

end

/-- A readback that is high while the switches are open is noted. -/
def State.highNoted (s : State) (m : Nat) : State := s.updSaf fun x => { x with rb := if x.rb.contains m then x.rb else x.rb ++ [m] }

section
variable {c : Nat} (channel : c < 2) (alive : (s.saf.chan c).alive = true) (enabled : s.saf.outEn m.val = true)
include channel alive enabled

theorem outputReadbackFault_high (opened : s.saf.energized m.val = false) :
    ∃ t, exec (.outputReadbackFault m true) s = .next t ∧ t.saf.outSt c m.val = .fault := by
  refine ⟨safBoth (s.highNoted m.val) fun s k => s.safFault k m.val cStuckHigh, congrArg Host.Outcome.next ?_,
    State.safBoth_safFault_faults (s := s.highNoted m.val) channel alive _⟩
  rw [if_neg (by simp [enabled]), if_pos rfl, if_neg (by simp [opened])]
  rfl

theorem outputReadbackFault_low (closed : s.saf.energized m.val = true) (idle : Tab.get none s.saf.test m.val = none) :
    ∃ t, exec (.outputReadbackFault m false) s = .next t ∧ t.saf.outSt c m.val = .fault := by
  refine ⟨safBoth s fun s k => s.safFault k m.val cOverload, congrArg Host.Outcome.next ?_, State.safBoth_safFault_faults channel alive _⟩
  rw [if_neg (by simp [enabled]), if_neg Bool.false_ne_true, if_pos ⟨closed, by simp [idle]⟩]

end

end

end Sys2Proof.Machine
end

section
/-!
SUPPORT. The reset of the island's outputs (R276, R277, Table SAF-2), its heartbeats (R269), and the start of a channel (R271, R283).
-/

namespace Sys2Proof.Machine

/-! ### An accepted reset -/

section
variable (s : State) (c m : Nat) (still : List (Nat × Nat))

theorem State.resetOut_moves : State.Moves {(c, m)} s (s.resetOut c m still) := by
  unfold State.resetOut
  split
  · exact .ite ((s.updSOut_moves c m _).trans (State.safOn_moves _ c m)) (s.safFault_moves c m cEdm)
  · exact .ite (.refl _ s) (s.updSOut_moves c m _)
  · exact .refl _ s

theorem State.outCleared_moves {A : Set (Nat × Nat)} : State.Moves A s (s.outCleared m) := .ite (s.updSaf_moves rfl rfl fun _ _ => rfl) (.refl _ s)

/-- An accepted reset acts on an output in both channels. -/
def State.resetStep : State := (safBoth s fun s ch => s.resetOut ch m still).outCleared m

theorem State.resetStep_moves : State.Moves {q | q.2 = m} s (s.resetStep m still) :=
  (State.Moves.both (fun u ch => (u.resetOut_moves ch m still).mono numbered_of_one) s).trans (State.outCleared_moves _ m)

variable {s c m}

theorem State.safOn_closes (nonfatal : s.erm.fatal = false) : (s.safOn c m).saf.outSt c m = .on := by
  rw [State.safOn, if_neg (by simp [nonfatal])]
  simp [Saf.outSt]

section
variable (noEdm : s.saf.edmEn m = false) (nonfatal : s.erm.fatal = false)
include noEdm nonfatal

theorem State.resetOut_closes (waits : s.saf.outSt c m = .waitReset) : (s.resetOut c m still).saf.outSt c m = .on := by
  have healthy : s.saf.edmOk c m = true := by simp [Saf.edmOk, noEdm]
  simp only [State.resetOut, waits, healthy, if_true]
  exact State.safOn_closes nonfatal

/-- An output that waits for its reset in both channels closes in both. -/
theorem State.resetStep_closes (channel : c < 2) (waits : ∀ c < 2, s.saf.outSt c m = .waitReset) : (s.resetStep m still).saf.outSt c m = .on := by
  obtain ⟨u, before, after⟩ := State.Moves.both_at (fun u ch => (u.resetOut_moves ch m still).mono outsOf_of_one) channel s
  rw [State.resetStep, (State.outCleared_moves (A := ∅) _ m).outSt (Set.notMem_empty _), after.outSt (apart_outsOf c m)]
  exact State.resetOut_closes still (by rw [before.edmEn, noEdm]) (before.fatal.trans nonfatal) ((before.outSt (apart_outsOf c m)).trans (waits c channel))

end

end

section
variable {s : State}

/-- The outputs that a reset acts on: a pair in demand in the same evaluation takes precedence. -/
def State.resetActs (s : State) (dem : Nat) : List Nat := s.saf.outs.filter fun m => !(s.saf.mapped m).any fun n => nbit dem n

/-- What a reset clears first are causes of the channels, not their outputs, inputs or pairs. -/
theorem State.resetClears_keeps {β : Type} (g : SChan → β) (h : ∀ k l, g { k with causes := l } = g k) (refused : Bool)
    (still : List (Nat × Nat)) (k : Nat) :
    g ((s.resetClears refused still).saf.chan k) = g (s.saf.chan k) :=
  (State.updSCh_keeps _ g (fun k => h k _) 1 k).trans (s.updSCh_keeps g (fun k => h k _) 0 k)

/-- The outputs after a reset has acted on each that it acts on. -/
def State.resetActed (s : State) (refused : Bool) (dem : Nat) (still : List (Nat × Nat)) : State :=
  (s.resetActs dem).foldl (fun u m => u.resetStep m still) (s.resetClears refused still)

theorem State.resetActed_moves (refused : Bool) (dem : Nat) (still : List (Nat × Nat)) :
    State.Moves Set.univ (s.resetClears refused still) (s.resetActed refused dem still) :=
  .foldl _ (fun u m _ => (u.resetStep_moves m still).mono (Set.subset_univ _)) _

theorem State.alive_resetActed (refused : Bool) (dem : Nat) (still : List (Nat × Nat)) (c : Nat) :
    ((s.resetActed refused dem still).saf.chan c).alive = (s.saf.chan c).alive :=
  ((State.resetActed_moves refused dem still).alive c).trans (State.resetClears_keeps SChan.alive (fun _ _ => rfl) refused still c)

theorem State.outs_resetActed (refused : Bool) (dem : Nat) (still : List (Nat × Nat)) : (s.resetActed refused dem still).saf.outs = s.saf.outs :=
  (State.resetActed_moves refused dem still).outs.trans (Saf.outs_congr rfl)

theorem State.gated_resetActed (refused : Bool) (dem : Nat) (still : List (Nat × Nat)) (c : Nat) :
    (s.resetActed refused dem still).saf.gated c = s.saf.gated c := by
  rw [(State.resetActed_moves refused dem still).gated]
  exact Saf.gated_congr (show (s.resetClears refused still).saf.param = s.saf.param from rfl)
    (State.resetClears_keeps SChan.filt (fun _ _ => rfl) refused still c)
    (State.resetClears_keeps SChan.pair (fun _ _ => rfl) refused still c)

theorem State.saf_safReset (s : State) (dem : Nat) (still : List (Nat × Nat)) :
    ∃ refused, (s.safReset dem still).saf = (s.resetActed refused dem still).safEvalBoth.saf := ⟨_, State.saf_record _ _ _ _ _⟩

theorem State.safEvalBoth_keeps_on {c m : Nat} (channel : c < 2) (alive : (s.saf.chan c).alive = true) (mem : m ∈ s.saf.outs) (on : s.saf.outSt c m = .on)
    (free : s.saf.gated c m = false) : s.safEvalBoth.saf.outSt c m = .on := by
  obtain ⟨u, before, after⟩ := State.Moves.both_at (fun u k => u.safEval_moves k 0 0) channel s
  refine (after.outSt (apart_outsOf c m)).trans (State.safEval_keeps_on 0 0 ((before.alive c).trans alive) ?_ ?_ ?_)
  · rwa [before.outs]
  · exact (before.outSt (apart_outsOf c m)).trans on
  · rwa [before.gated]

section
variable {m dem : Nat} (refused : Bool) (still : List (Nat × Nat)) (alive : ∀ c < 2, (s.saf.chan c).alive = true) (mem : m ∈ s.saf.outs)
include alive mem

/-- An accepted reset closes an output that waits for it and has no pair in demand (R277). -/
theorem State.reset_closes (nonfatal : s.erm.fatal = false) (noEdm : s.saf.edmEn m = false) (calm : ∀ n ∈ s.saf.mapped m, nbit dem n = false)
    (waits : ∀ c < 2, s.saf.outSt c m = .waitReset ∧ s.saf.gated c m = false) : (s.resetActed refused dem still).safEvalBoth.saf.energized m = true := by
  have acted : m ∈ s.resetActs dem := List.mem_filter.mpr ⟨mem, by simpa using calm⟩
  obtain ⟨u, before, after⟩ := State.Moves.foldl_at (fun u m => u.resetStep_moves m still) (s.saf.outs_nodup.filter _) acted (s.resetClears refused still)
  have waiting (c : Nat) (channel : c < 2) : u.saf.outSt c m = .waitReset :=
    (before.outSt still_outsBut).trans
      ((State.resetClears_keeps (fun k => (k.out m).st) (fun _ _ => rfl) refused still c).trans (waits c channel).1)
  have closed (c : Nat) (channel : c < 2) : (s.resetActed refused dem still).safEvalBoth.saf.outSt c m = .on := by
    refine State.safEvalBoth_keeps_on channel ((State.alive_resetActed ..).trans (alive c channel)) ?_ ?_ ?_
    · rwa [State.outs_resetActed]
    · exact (after.outSt still_outsBut).trans (State.resetStep_closes still (by rw [before.edmEn]; exact noEdm) (before.fatal.trans nonfatal) channel waiting)
    · rw [State.gated_resetActed]
      exact (waits c channel).2
  simp [Saf.energized, closed]

/-- A demand in the same evaluation takes precedence: the output stays open (R277). -/
theorem State.reset_keeps_open (demand : ∃ n ∈ s.saf.mapped m, nbit dem n = true) (waits : s.saf.outSt 0 m = .waitReset) :
    (s.resetActed refused dem still).safEvalBoth.saf.energized m = false := by
  have passed (j : Nat) (acts : j ∈ s.resetActs dem) : j ≠ m := by
    rintro rfl
    have calm := (List.mem_filter.mp acts).2
    simp only [Bool.not_eq_true', List.any_eq_false] at calm
    obtain ⟨n, mapped, set⟩ := demand
    exact calm n mapped set
  have acted : State.Moves (outsBut m) (s.resetClears refused still) (s.resetActed refused dem still) :=
    .foldl _ (fun u j acts => (u.resetStep_moves j still).mono fun q (own : q.2 = j) (same : q.2 = m) => passed j acts (own.symm.trans same)) _
  obtain ⟨u, before, after⟩ := State.Moves.both_at (fun u k => u.safEval_moves k 0 0) (c := 0) (by decide) (s.resetActed refused dem still)
  refine Saf.energized_of_open (c := 0) (by decide) ?_
  rw [State.safEvalBoth, after.outSt (apart_outsOf 0 m)]
  refine State.safEval_keeps_open 0 0 ((before.alive 0).trans ((State.alive_resetActed ..).trans (alive 0 (by decide)))) ?_ ?_
  · rwa [before.outs, State.outs_resetActed]
  · exact (before.outSt (apart_outsOf 0 m)).trans
      ((acted.outSt still_outsBut).trans ((State.resetClears_keeps (fun k => (k.out m).st) (fun _ _ => rfl) refused still 0).trans waits))

end

end

/-! ### The reset pulse (R276) -/

section
variable {s : State} {lenH lenP skew : Nat}

/-- A pulse of `lenH` µs on the hard-wired channel's clock has ended. -/
def State.pulsed (s : State) (lenH : Nat) (accepted : Bool) : State :=
  s.updSaf fun x => { x with rstLevel := false, lowSince := some x.us, pulseMs := lenH / 1000, rstSeen := x.rstSeen || accepted }

theorem safeRstFall_rejected (dem : Nat) (still : List (Nat × Nat)) (bad : lenH < 50000 ∨ 3000000 < lenH ∨ 20000 < skew) :
    ∃ t, exec (.safeRstFall lenH lenP skew dem still) s = .next t ∧ t.saf.rejected = true ∧ t.saf.ch = s.saf.ch ∧ SameBut [.saf] s t := by
  refine ⟨_, congrArg Host.Outcome.next (if_neg fun ok => ?_), rfl, rfl, (State.updSaf_same s _).trans (State.updSaf_same _ _)⟩
  simp only [rstLenOk, Bool.and_eq_true, decide_eq_true_eq] at ok
  omega

theorem exec_safeRstFall_of_accepted {t0 : Nat} (dem : Nat) (still : List (Nat × Nat)) (okH : rstLenOk lenH = true) (okP : rstLenOk lenP = true)
    (skewOk : skew ≤ 20000) (low : s.saf.lowSince = some t0) (rested : t0 + 50000 + lenH ≤ s.saf.us)
    (ready : ∀ c < 2, (s.saf.chan c).alive = true ∧ (s.saf.chan c).passed = true) :
    exec (.safeRstFall lenH lenP skew dem still) s = .next ((s.pulsed lenH true).safReset dem still) := by
  obtain ⟨alive0, passed0⟩ := ready 0 (by decide)
  obtain ⟨alive1, passed1⟩ := ready 1 (by decide)
  refine congrArg Host.Outcome.next ?_
  simp [okH, okP, skewOk, low, rested, alive0, passed0, alive1, passed1, State.pulsed]

theorem safeRstFall_resets {t0 : Nat} (dem : Nat) (still : List (Nat × Nat)) (okH : rstLenOk lenH = true) (okP : rstLenOk lenP = true)
    (skewOk : skew ≤ 20000) (low : s.saf.lowSince = some t0) (rested : t0 + 50000 + lenH ≤ s.saf.us)
    (ready : ∀ c < 2, (s.saf.chan c).alive = true ∧ (s.saf.chan c).passed = true) (nonfatal : s.erm.fatal = false) :
    ∃ t, exec (.safeRstFall lenH lenP skew dem still) s = .next t ∧ t.saf.stuck = false ∧ t.saf.pulseMs = lenH / 1000 ∧
      (∀ m ∈ s.saf.outs, s.saf.edmEn m = false → (∀ n ∈ s.saf.mapped m, nbit dem n = false) →
        (∀ c < 2, s.saf.outSt c m = .waitReset ∧ s.saf.gated c m = false) → t.saf.energized m = true) ∧
      (∀ m ∈ s.saf.outs, (∃ n ∈ s.saf.mapped m, nbit dem n = true) → (∀ c < 2, s.saf.outSt c m = .waitReset) → t.saf.energized m = false) := by
  obtain ⟨refused, saf⟩ := (s.pulsed lenH true).saf_safReset dem still
  have moves := (State.resetActed_moves (s := s.pulsed lenH true) refused dem still).trans (State.safEvalBoth_moves _)
  have alive (c : Nat) (channel : c < 2) : ((s.pulsed lenH true).saf.chan c).alive = true := (ready c channel).1
  refine ⟨_, exec_safeRstFall_of_accepted dem still okH okP skewOk low rested ready, ?_⟩
  rw [saf]
  exact ⟨(congrArg Saf.stuck moves.island :), (congrArg Saf.pulseMs moves.island :),
    fun m mem noEdm calm waits => State.reset_closes refused still alive mem nonfatal noEdm calm waits,
    fun m mem demand waits => State.reset_keeps_open refused still alive mem demand (waits 0 (by decide))⟩

end

/-! ### A channel leaves INIT, and its standing causes return (Table SAF-2) -/

section
variable (s : State) (c : Nat)

theorem State.safLeaveInit_moves : State.Moves (outsOf c) s (s.safLeaveInit c) := by
  refine .ite (.trans (.foldl _ (fun u m _ => ?_) s) (State.safEval_moves _ c 0 0)) (.refl _ s)
  exact .ite (((u.updSOut_moves c m _).trans (State.edmStart_moves _ c m)).mono outsOf_of_one) (.refl _ u)

/-- The causes that a channel has latched for itself, and those of its pairs, put outputs in FAULT. -/
def State.latchedStand (s : State) (c : Nat) : State :=
  [0, 1, 2, 3].foldl (fun s n =>
    if ((s.saf.chan c).pair n).held = 0 then s
    else s.saf.outs.foldl (fun u m => if (u.saf.mapped m).contains n then u.safFault c m ((s.saf.chan c).pair n).held else u) s)
    ((s.saf.chan c).causes.foldl (fun s k => s.safFaultAll c k) s)

theorem State.latchedStand_moves : State.Moves (outsOf c) s (s.latchedStand c) := by
  refine .trans (.foldl _ (fun u k _ => u.safFaultAll_moves c k) s) (.foldl _ (fun u n _ => .ite (.refl _ u) (.foldl _ (fun v m _ => ?_) u)) _)
  exact .ite ((v.safFault_moves c m _).mono outsOf_of_one) (.refl _ v)

variable {s c}

theorem State.latchedStand_keeps {k j : Nat} (faulted : s.saf.outSt k j = .fault) : (s.latchedStand c).saf.outSt k j = .fault := by
  have own : ((s.saf.chan c).causes.foldl (fun u e => u.safFaultAll c e) s).saf.outSt k j = .fault :=
    List.foldlRecOn (motive := fun u : State => u.saf.outSt k j = .fault) _ _ faulted fun _ h e _ => State.safFaultAll_keeps e h
  refine List.foldlRecOn (motive := fun u : State => u.saf.outSt k j = .fault) _ _ own fun u h n _ => ?_
  split
  · exact h
  · refine List.foldlRecOn (motive := fun u : State => u.saf.outSt k j = .fault) _ _ h fun v h m _ => ?_
    split
    · exact State.safFault_keeps m _ h
    · exact h

/-- The causes that stand outside the channel's own latches. -/
def State.outerStand (s : State) (c : Nat) : State :=
  let s1 := if (s.saf.chan c).lost then s.safFaultAll c cLost else s
  if s1.saf.fsUv then s1.safFaultAll c cFsUv else s1

theorem State.outerStand_moves (s : State) (c : Nat) : State.Moves (outsOf c) s (s.outerStand c) := by
  have first : State.Moves (outsOf c) s (if (s.saf.chan c).lost then s.safFaultAll c cLost else s) := .ite (s.safFaultAll_moves c cLost) (.refl _ s)
  exact .ite (first.trans (State.safFaultAll_moves _ c cFsUv)) first

theorem State.safStanding_eq (s : State) (c : Nat) : s.safStanding c =
    (if ((s.outerStand c).saf.chan c).paramBad then (s.outerStand c).safFaultAll c cParam else s.outerStand c).latchedStand c := rfl

theorem State.safStanding_moves (s : State) (c : Nat) : State.Moves (outsOf c) s (s.safStanding c) := by
  rw [State.safStanding_eq]
  exact (s.outerStand_moves c).trans (.trans (.ite (State.safFaultAll_moves _ c cParam) (.refl _ _)) (State.latchedStand_moves _ c))

/-- A stored set that fails its CRC puts every enabled output of its channel in FAULT (R283). -/
theorem State.safStanding_faults {m : Nat} (alive : (s.saf.chan c).alive = true) (bad : (s.saf.chan c).paramBad = true) (mem : m ∈ s.saf.outs) :
    (s.safStanding c).saf.outSt c m = .fault := by
  have moves := s.outerStand_moves c
  rw [State.safStanding_eq, if_pos ((moves.paramBad c).trans bad)]
  exact State.latchedStand_keeps (State.safFaultAll_faults cParam ((moves.alive c).trans alive) (by rwa [moves.outs]))

end

/-! ### Heartbeats (R269) -/

section
variable {s : State}

/-- A channel's heartbeat toggles, and its partner sees it. -/
def State.beat (s : State) (c : Nat) : State := (s.updSCh c fun x => { x with hb := !x.hb }).updSCh (1 - c) fun x => { x with seen := true, lost := false }

theorem State.hbToggle_moves {c : Nat} (alive : (s.saf.chan c).alive = true) : State.Moves (outsOf (1 - c)) (s.beat c) (s.hbToggle c) := by
  rw [State.hbToggle, if_neg (by simp [alive])]
  exact State.safLeaveInit_moves _ _

/-- What one channel shows of the heartbeats: its own level, and whether it has seen and lost its partner's. -/
def SChan.beats (k : SChan) : Bool × Bool × Bool := (k.hb, k.seen, k.lost)

theorem State.Moves.beats {A : Set (Nat × Nat)} {t : State} (h : State.Moves A s t) (c : Nat) : (t.saf.chan c).beats = (s.saf.chan c).beats :=
  (congrArg SChan.beats (h.chan c) :)

section
variable {c : Nat} (alive : (s.saf.chan c).alive = true)
include alive

theorem State.beats_hbToggle : ((s.hbToggle c).saf.chan c).beats = (!(s.saf.chan c).hb, (s.saf.chan c).seen, (s.saf.chan c).lost) := by
  have own : c ≠ 1 - c := by omega
  rw [(State.hbToggle_moves alive).beats, State.beat, State.chan_updSCh_ne _ _ own, State.chan_updSCh_same]
  rfl

theorem State.beats_hbToggle_partner : ((s.hbToggle c).saf.chan (1 - c)).beats = ((s.saf.chan (1 - c)).hb, true, false) := by
  have partner : 1 - c ≠ c := by omega
  rw [(State.hbToggle_moves alive).beats, State.beat, State.chan_updSCh_same, State.chan_updSCh_ne _ _ partner]
  rfl

theorem State.alive_hbToggle (k : Nat) : ((s.hbToggle c).saf.chan k).alive = (s.saf.chan k).alive := by
  have beaten : ((s.beat c).saf.chan k).alive = (s.saf.chan k).alive :=
    (State.updSCh_keeps _ SChan.alive (by intro; rfl) (1 - c) k).trans (s.updSCh_keeps SChan.alive (by intro; rfl) c k)
  exact ((State.hbToggle_moves alive).alive k).trans beaten

theorem State.us_hbToggle : (s.hbToggle c).saf.us = s.saf.us := (congrArg Saf.us (State.hbToggle_moves alive).island :)

end

/-- A period of 50 µs begins. -/
def State.tick50 (s : State) : State := s.updSaf fun x => { x with us := x.us + 50 }

/-- Both heartbeats toggle, and each channel has its partner's again. -/
theorem safetyHeartbeat_beats (alive0 : (s.saf.chan 0).alive = true) (alive1 : (s.saf.chan 1).alive = true) :
    ∃ t, exec (.safetyHeartbeat true true) s = .next t ∧ t.saf.us = s.saf.us + 50 ∧ (t.saf.chan 0).beats = (!(s.saf.chan 0).hb, true, false) ∧
      (t.saf.chan 1).beats = (!(s.saf.chan 1).hb, true, false) := by
  have live0 : (s.tick50.saf.chan 0).alive = true := alive0
  have live1 : ((s.tick50.hbToggle 0).saf.chan 1).alive = true := (State.alive_hbToggle live0 1).trans alive1
  have hardWired : (((s.tick50.hbToggle 0).hbToggle 1).saf.chan 0).alive = true := by rw [State.alive_hbToggle live1, State.alive_hbToggle live0, live0]
  refine ⟨((s.tick50.hbToggle 0).hbToggle 1).updSaf fun x =>
    { x with frame := some { filt := (x.chan 0).filt, outs := (List.range 4).map (x.outSt 0), rst := x.rstSeen }, rstSeen := false },
    congrArg Host.Outcome.next (if_pos ⟨rfl, hardWired⟩), (State.us_hbToggle live1).trans (State.us_hbToggle live0), ?_, ?_⟩
  · refine (State.beats_hbToggle_partner live1).trans ?_
    rw [show ((s.tick50.hbToggle 0).saf.chan (1 - 1)).hb = !(s.saf.chan 0).hb from congrArg Prod.fst (State.beats_hbToggle live0)]
  · have seen : ((s.tick50.hbToggle 0).saf.chan 1).beats = ((s.saf.chan 1).hb, true, false) := State.beats_hbToggle_partner live0
    simp only [SChan.beats, Prod.mk.injEq] at seen
    obtain ⟨level, partnerSeen, present⟩ := seen
    exact (State.beats_hbToggle live1).trans (by rw [level, partnerSeen, present])

end

end Sys2Proof.Machine
end

section
/-!
SUPPORT. The island's parameter set (R283): the outputs that an applied set leaves open, and the hold permission of the ILP that it may withdraw (R255).
-/

namespace Sys2Proof.Machine

/-! ### Outputs that no transition closes -/

/-- An output is open, and no reset since INIT or FAULT lets it close again by itself. -/
def SOut.calm (o : SOut) : Prop := o.st ≠ .on ∧ o.resetSeen = false

/-- Every output of a channel is calm. -/
def State.Calm (s : State) (c : Nat) : Prop := ∀ m, ((s.saf.chan c).out m).calm

section
variable {s t : State} {c k m : Nat}

/-- A transition of one output keeps a channel calm where it leaves that output calm. -/
theorem State.Calm.of_moves (calm : s.Calm c) (moves : State.Moves {(k, m)} s t) (own : c = k → ((t.saf.chan k).out m).calm) : t.Calm c := fun j => by
  by_cases same : (c, j) = (k, m)
  · obtain ⟨rfl, rfl⟩ := Prod.mk.inj same
    exact own rfl
  · rw [moves.out c j same]
    exact calm j

theorem State.Calm.updSOut (calm : s.Calm c) {f : SOut → SOut} (h : ∀ o : SOut, o.calm → (f o).calm) : (s.updSOut k m f).Calm c :=
  calm.of_moves (s.updSOut_moves k m f) fun own => by
    rw [State.out_updSOut_same]
    exact h _ (own ▸ calm m)

theorem State.Calm.edmStart (calm : s.Calm c) : (s.edmStart k m).Calm c := fun j => by
  rw [State.out_edmStart]
  exact calm j

theorem State.Calm.safFault (calm : s.Calm c) (cause : Nat) : (s.safFault k m cause).Calm c := by
  rcases s.safFault_cases k m cause with ⟨same, _⟩ | ⟨moves, faulted, unseen⟩
  · rwa [same]
  · exact calm.of_moves moves fun _ => ⟨by rw [show (((s.safFault k m cause).saf.chan k).out m).st = .fault from faulted]; decide, unseen⟩

theorem State.Calm.foldl {α : Type} {f : State → α → State} (h : ∀ s x, s.Calm c → (f s x).Calm c) (l : List α) (calm : s.Calm c) :
    (l.foldl f s).Calm c :=
  List.foldlRecOn (motive := fun u : State => u.Calm c) l f calm fun u kept x _ => h u x kept

theorem State.Calm.ite {p : Prop} [Decidable p] (h : s.Calm c) (g : t.Calm c) : (if p then s else t).Calm c := by split <;> assumption

theorem State.Calm.safFaultAll (calm : s.Calm c) (cause : Nat) : (s.safFaultAll k cause).Calm c := calm.foldl (fun _ _ h => h.safFault cause) _

theorem State.Calm.safStanding (calm : s.Calm c) : (s.safStanding k).Calm c := by
  have outer : (s.outerStand k).Calm c := by
    have first : (if (s.saf.chan k).lost then s.safFaultAll k cLost else s).Calm c := .ite (calm.safFaultAll _) calm
    exact .ite (first.safFaultAll _) first
  rw [State.safStanding_eq]
  refine .foldl (fun u n h => .ite h (h.foldl (fun v m g => .ite (g.safFault _) g) _)) _ (.foldl (fun u e h => h.safFaultAll e) _ ?_)
  exact .ite (outer.safFaultAll _) outer

/-- An output that is calm does not close when it follows its pairs (R277). -/
theorem State.Calm.safStep (calm : s.Calm c) (openUs rbUs : Nat) : (s.safStep k m openUs rbUs).Calm c := by
  by_cases own : c = k
  · subst own
    obtain ⟨isOpen, unseen⟩ := calm m
    unfold State.safStep
    extract_lets x o dem
    split
    · refine .ite (calm.safFault _) (.ite calm ?_)
      rw [if_neg (by simp [o, x, unseen])]
      exact calm.updSOut fun o h => ⟨SafState.noConfusion, h.2⟩
    · exact .ite (calm.updSOut fun o h => ⟨SafState.noConfusion, h.2⟩) calm
    next on => exact absurd on isOpen
    · exact calm
  · exact calm.of_moves (s.safStep_moves k m openUs rbUs) fun same => absurd same own

theorem State.Calm.safEval (calm : s.Calm c) (openUs rbUs : Nat) : (s.safEval k openUs rbUs).Calm c := by
  refine .ite calm (.foldl (fun u m h => h.safStep openUs rbUs) _ fun m => ?_)
  rw [(s.edmFollow_moves (c := k) (A := outsBut m) ⟨m + 1, Nat.succ_ne_self m⟩).out c m still_outsBut]
  exact calm m

theorem State.Calm.safEvalBoth (calm : s.Calm c) : s.safEvalBoth.Calm c := (calm.safEval 0 0).safEval 0 0

theorem State.Calm.safFatal (calm : s.Calm c) : s.safFatal.Calm c := by
  refine calm.foldl (fun u k h => h.foldl (fun v m g => .ite (.edmStart ?_) g) _) _
  exact g.updSOut fun o h => ⟨SafState.noConfusion, h.2⟩

/-! ### A channel takes a new set -/

theorem Tab.get_foldl_put_calm (take : Nat → SOut) (taken : ∀ m, (take m).calm) (l : List Nat) (j : Nat) :
    (Tab.get ({} : SOut) (l.foldl (fun t m => Tab.put {} t m (take m)) ([] : Tab SOut)) j).calm := by
  refine List.foldlRecOn (motive := fun t : Tab SOut => (Tab.get ({} : SOut) t j).calm) _ _ ⟨SafState.noConfusion, rfl⟩ fun t h m _ => ?_
  rw [Tab.get_put]
  split
  · exact taken m
  · exact h

theorem State.safTake_calm (s : State) (c : Nat) : (s.safTake c).Calm c := by
  unfold State.safTake
  extract_lets k up take outs s1
  refine .foldl (fun _ _ h => h.edmStart) _ fun m => ?_
  have taken (m : Nat) : (take m).calm := by
    refine ⟨?_, rfl⟩
    simp only [take]
    split
    · decide
    · split <;> decide
  simp only [s1, State.chan_updSCh_same]
  exact Tab.get_foldl_put_calm take taken _ m

theorem State.Calm.safTake (calm : s.Calm c) (other : c ≠ k) : (s.safTake k).Calm c := by
  unfold State.safTake
  extract_lets x up take outs s1
  refine .foldl (fun _ _ h => h.edmStart) _ fun m => ?_
  simp only [s1]
  rw [s.chan_updSCh_ne _ other]
  exact calm m

end

/-! ### An applied set -/

/-- The set `ws` is applied, none waits, and every output is calm in both channels. -/
structure State.SetApplied (ws : List Word) (s : State) : Prop where
  param : s.saf.param = ws
  pending : s.saf.pending = none
  calm : ∀ c < 2, s.Calm c

section
variable {ws : List Word} {s t : State}

theorem State.SetApplied.of_saf (applied : s.SetApplied ws) (same : t.saf = s.saf) : t.SetApplied ws :=
  ⟨by rw [same]; exact applied.param, by rw [same]; exact applied.pending, fun c channel m => by rw [same]; exact applied.calm c channel m⟩

theorem State.SetApplied.of_moves {A : Set (Nat × Nat)} (applied : s.SetApplied ws) (moves : State.Moves A s t) (calm : ∀ c, s.Calm c → t.Calm c) :
    t.SetApplied ws :=
  ⟨moves.param.trans applied.param, (congrArg Saf.pending moves.island : _).trans applied.pending, fun c channel => calm c (applied.calm c channel)⟩

theorem State.SetApplied.discFollow (applied : s.SetApplied ws) (n : Nat) : (s.discFollow n).SetApplied ws := by
  obtain ⟨d, ms, followed⟩ := s.discFollow_eq n
  rw [followed]
  exact ⟨applied.param, applied.pending, applied.calm⟩

theorem State.safFatal_moves (s : State) : State.Moves Set.univ s s.safFatal :=
  .foldl _ (fun u c _ => .foldl _ (fun v m _ => .ite
    (((v.updSOut_moves c m _).trans ((State.causeShow_moves _ _ _).trans (State.edmStart_moves _ c m))).mono (Set.subset_univ _)) (.refl _ v)) u) s

/-- The FATAL reaction only opens outputs (R278). -/
theorem State.SetApplied.fatalOutputs (applied : s.SetApplied ws) : s.fatalOutputs.SetApplied ws := by
  have silenced : s.padsLow.fioSilence.SetApplied ws := applied.of_saf (State.fioSilence_same _ .saf (by decide))
  have opened : s.padsLow.fioSilence.safFatal.SetApplied ws := silenced.of_moves (State.safFatal_moves _) fun _ calm => calm.safFatal
  exact opened.of_saf (State.pmcRollback_same _ _ _ .saf (by decide))

theorem State.SetApplied.raiseClosed (ws : List Word) : RaiseClosed (State.SetApplied ws) where
  erm _ _ applied := applied.of_saf rfl
  irq s b i applied := applied.of_saf (s.saf_irq b i)
  record s b inst code ps applied := applied.of_saf (s.saf_record b inst code ps)
  outputs _ applied := applied.fatalOutputs

/-! ### The hold permission (R255) -/

theorem State.saf_driveOut (s : State) (idx : Nat) (v : Int) : (s.driveOut idx v).saf = s.saf := State.driveOut_same s idx v .saf (by decide)

theorem State.saf_ilpStopValues (s : State) : s.ilpStopValues.saf = s.saf := by
  unfold State.ilpStopValues
  split
  · rfl
  · refine (foldl_keeps State.saf (fun u j => ?_) _ _).trans (foldl_keeps State.saf (fun u j => u.saf_driveOut _ _) _ s)
    split
    · unfold State.ilpW
      dsimp only
      split
      · rfl
      · exact u.saf_driveOut _ _
    · rfl

theorem State.saf_ilpChanges (s : State) : s.ilpChanges.saf = s.saf :=
  foldl_keeps State.saf (fun u g => by rw [State.saf_irq, State.saf_record, State.updIlp_saf]) _ s

theorem State.saf_ilpStop (s : State) (cause : Nat) : (s.ilpStop cause).saf = s.saf := by
  unfold State.ilpStop
  split
  · rfl
  · rw [State.saf_ilpChanges, State.saf_ilpStopValues, State.updIlp_saf, State.ilpMode, State.updHd_saf, State.saf_irq, State.saf_record, State.updIlp_saf]

/-- A withdrawn permission raises an error of the ILP, whose FATAL reaction leaves the set applied. -/
theorem State.SetApplied.ilpPermit (applied : s.SetApplied ws) : s.ilpPermit.SetApplied ws := by
  unfold State.ilpPermit
  split
  · exact (State.SetApplied.raiseClosed ws).raise (applied.of_saf (s.saf_ilpStop _)) _ _ _ _
  · exact applied

/-! ### SAFETY_PARAM_APPLY -/

/-- The set `ws` is the active one, and no off-pulse is in progress. -/
def State.withParam (s : State) (ws : List Word) : State := s.updSaf fun x => { x with param := ws, pending := none, test := [] }

theorem State.saf_edmStart_set (s : State) (c m : Nat) : (s.edmStart c m).saf.param = s.saf.param ∧ (s.edmStart c m).saf.pending = s.saf.pending := by
  unfold State.edmStart
  split <;> exact ⟨rfl, rfl⟩

theorem State.safTake_set (s : State) (c : Nat) : (s.safTake c).saf.param = s.saf.param ∧ (s.safTake c).saf.pending = s.saf.pending := by
  unfold State.safTake
  extract_lets k up take outs s1
  exact List.foldlRecOn (motive := fun u : State => u.saf.param = s.saf.param ∧ u.saf.pending = s.saf.pending) _ _ ⟨rfl, rfl⟩ fun u h m _ =>
    ⟨(u.saf_edmStart_set c m).1.trans h.1, (u.saf_edmStart_set c m).2.trans h.2⟩

/-- Both channels take the set that is made active. -/
theorem State.withParam_taken (s : State) (ws : List Word) : (safBoth (s.withParam ws) State.safTake).SetApplied ws where
  param := (State.safTake_set _ 1).1.trans (State.safTake_set _ 0).1
  pending := (State.safTake_set _ 1).2.trans (State.safTake_set _ 0).2
  calm c channel := by
    have zeroOrOne : c = 0 ∨ c = 1 := by omega
    rcases zeroOrOne with rfl | rfl
    · exact (State.safTake_calm _ 0).safTake (by decide)
    · exact State.safTake_calm _ 1

theorem safetyParamApply_waits (waits : s.saf.pending = some ws) (busy : s.saf.idle = false) : exec .safetyParamApply s = .next s :=
  congrArg Host.Outcome.next (by simp [waits, busy])

theorem safetyParamApply_applies (waits : s.saf.pending = some ws) (idle : s.saf.idle = true) :
    ∃ t, exec .safetyParamApply s = .next t ∧ t.SetApplied ws := by
  let followed := [0, 1, 2, 3].foldl (fun s n => s.discFollow n) (safBoth (s.withParam ws) State.safTake)
  let told := (followed.record .saf 1 0x0F13 [bits (followed.saf.p 1) 15 0, (followed.saf.p 63).toNat]).irq .saf 10
  have run : exec .safetyParamApply s = .next (safBoth told State.safStanding).safEvalBoth.ilpPermit := by
    refine congrArg Host.Outcome.next ?_
    simp only [waits]
    rw [if_neg (by simp [idle])]
    rfl
  have followedApplied : followed.SetApplied ws :=
    List.foldlRecOn (motive := State.SetApplied ws) _ _ (s.withParam_taken ws) fun u h n _ => h.discFollow n
  have toldApplied : told.SetApplied ws := followedApplied.of_saf ((State.saf_irq _ _ _).trans (State.saf_record _ _ _ _ _))
  have stood : (safBoth told State.safStanding).SetApplied ws :=
    toldApplied.of_moves (.both (fun u c => (u.safStanding_moves c).mono (Set.subset_univ _)) told) fun _ calm => calm.safStanding.safStanding
  exact ⟨_, run, (stood.of_moves (State.safEvalBoth_moves _) fun _ calm => calm.safEvalBoth).ilpPermit⟩

end

end Sys2Proof.Machine
end

section
/-!
PROOF. The safety island's commands (O42). The statement says what each command does from the states that it names; that the first views after a start are in
demand, that each channel judges its outputs by its own view, that a demand of the reset's own evaluation takes precedence and that an output with a latched
cause is in FAULT under a new set are the model's choice (log 79).
-/

namespace Sys2Proof.Machine

/-! ### Inputs (R274) -/

section
variable {s : State}

theorem safetyInputEdge_takes (n : Fin 4) (b level : Bool) : ∃ t, exec (.safetyInputEdge n b level) s = .next t ∧
    t.saf.raw = nput s.saf.raw (2 * n.val + b2n b) level ∧ t.saf.ch = s.saf.ch ∧ SameBut [.saf] s t := by
  obtain ⟨d, ms, followed⟩ := (s.updSaf fun x => { x with raw := nput x.raw (2 * n.val + b2n b) level }).discFollow_eq n.val
  exact ⟨_, congrArg Host.Outcome.next followed, rfl, rfl, (State.updSaf_same s _).trans (State.updSaf_same _ _)⟩

/-! ### A received parameter set (R283) -/

/-- The set that was received first is taken from those handed over. -/
def State.paramTaken (s : State) (rest : List (List Byte)) : State := s.updSaf fun x => { x with paramIn := rest }

section
variable {bs : List Byte} {rest : List (List Byte)} (received : s.saf.paramIn = bs :: rest) (alive : (s.saf.chan 1).alive = true)
include received alive

theorem exec_safetyParamReceive_of_bad (echo : Bool) (bad : (safCheck bs echo).1 ≠ 0) : exec (.safetyParamReceive echo) s =
    .next ((((s.paramTaken rest).updSaf fun x => { x with reason := (safCheck bs echo).1, failWord := (safCheck bs echo).2 }).record .saf 1 0x0F14
      [(safCheck bs echo).1, (safCheck bs echo).2]).irq .saf 10) := by
  refine congrArg Host.Outcome.next ?_
  simp only [received]
  rw [if_neg (by simp [alive]), if_pos bad]
  rfl

theorem exec_safetyParamReceive_of_good (echo : Bool) (good : (safCheck bs echo).1 = 0) : exec (.safetyParamReceive echo) s =
    .next ((if (s.paramTaken rest).saf.pending.isSome then ((s.paramTaken rest).record .saf 1 0x0F14 [5, 0]).irq .saf 10 else s.paramTaken rest).updSaf
      fun x => { x with pending := some (bytesWords bs), reason := 0, failWord := 0 }) := by
  refine congrArg Host.Outcome.next ?_
  simp only [received]
  rw [if_neg (by simp [alive]), if_neg (not_not_intro good)]
  rfl

theorem safetyParamReceive_checks (echo : Bool) : ∃ t, exec (.safetyParamReceive echo) s = .next t ∧ t.saf.param = s.saf.param ∧ t.saf.paramIn = rest ∧
    t.saf.reason = (safCheck bs echo).1 ∧ ((safCheck bs echo).1 = 0 → t.saf.pending = some (bytesWords bs)) ∧
    ((safCheck bs echo).1 ≠ 0 → t.saf.pending = s.saf.pending) := by
  by_cases good : (safCheck bs echo).1 = 0
  · refine ⟨_, exec_safetyParamReceive_of_good received alive echo good, ?_⟩
    have replaced : (if (s.paramTaken rest).saf.pending.isSome then ((s.paramTaken rest).record .saf 1 0x0F14 [5, 0]).irq .saf 10
        else s.paramTaken rest).saf = (s.paramTaken rest).saf := by
      split <;> simp
    rw [State.saf_updSaf, replaced]
    exact ⟨rfl, rfl, good.symm, fun _ => rfl, fun bad => absurd good bad⟩
  · refine ⟨_, exec_safetyParamReceive_of_bad received alive echo good, ?_⟩
    rw [State.saf_irq, State.saf_record]
    exact ⟨rfl, rfl, rfl, fun none => absurd none good, fun _ => rfl⟩

end

/-! ### The firmware (R284) -/

theorem State.saf_fwRefused (u : State) (ver : Nat) : (u.fwRefused ver).saf = { u.saf with fwResult := 3 } := State.saf_record _ _ _ _ _

section
variable {bs : List Byte} {rest : List (List Byte)}

/-- The firmware that was received first is in the inactive slot. -/
def State.fwStored (s : State) (bs : List Byte) (rest : List (List Byte)) : State :=
  s.updSaf fun x => { x with fwIn := rest, fwSlots := Tab.put [] x.fwSlots (1 - x.fwSlot) bs }

theorem safetyFwReceive_verifies (received : s.saf.fwIn = bs :: rest) (alive : (s.saf.chan 1).alive = true) (ok : Bool) (ver : Nat) :
    ∃ t, exec (.safetyFwReceive ok ver) s = .next t ∧ t.saf.fwIn = rest ∧ Tab.get [] t.saf.fwSlots (1 - s.saf.fwSlot) = bs ∧
      t.saf.fwPending = (if ok && safFwSigned bs then some ver else s.saf.fwPending) ∧ t.saf.fwResult = (if ok && safFwSigned bs then 2 else 3) := by
  have run : exec (.safetyFwReceive ok ver) s = .next (if ok && safFwSigned bs then
      (s.fwStored bs rest).updSaf fun x => { x with fwPending := some ver, fwResult := 2 } else (s.fwStored bs rest).fwRefused ver) := by
    refine congrArg Host.Outcome.next ?_
    simp only [received]
    rw [if_neg (by simp [alive])]
    rfl
  have stored : Tab.get [] (s.fwStored bs rest).saf.fwSlots (1 - s.saf.fwSlot) = bs := Tab.get_put_same [] s.saf.fwSlots _ bs
  refine ⟨_, run, ?_⟩
  cases ok && safFwSigned bs with
  | true => exact ⟨rfl, stored, rfl, rfl⟩
  | false =>
    rw [if_neg Bool.false_ne_true, State.saf_fwRefused]
    exact ⟨rfl, stored, rfl, rfl⟩

theorem safetyFwSwitch_restarts {ver : Nat} (waits : s.saf.fwPending = some ver) (first : s.saf.fwRestart = false) (idle : s.saf.idle = true)
    (alive : (s.saf.chan 1).alive = true) :
    ∃ t, exec .safetyFwSwitch s = .next t ∧ t.saf.fwRestart = true ∧ (∀ m, t.saf.outSt 1 m ≠ .on) ∧ (t.saf.chan 1).passed = false := by
  refine ⟨_, congrArg Host.Outcome.next (if_neg (by simp [waits, first, idle, alive])), rfl, fun m => ?_, ?_⟩
  · rw [Saf.outSt, State.chan_updSCh_same]
    refine Tab.get_mapAll_of (P := fun o : SOut => o.st ≠ .on) SafState.noConfusion (fun o => ?_) _ m
    dsimp only
    split <;> decide
  · rw [State.chan_updSCh_same]

/-- The processor channel has passed its self-test and starts: its outputs need a reset, and it leaves INIT. -/
def State.procStart (s : State) (paramBad : Bool) : State :=
  ((safBoth (s.updSCh 1 fun k => { k with passed := true, paramBad := paramBad }) fun s ch =>
    s.saf.outs.foldl (fun s m => s.updSOut ch m fun o => { o with resetSeen := false }) s).safLeaveInit 1).safStanding 1

theorem State.procStart_moves (u : State) (paramBad : Bool) :
    State.Moves Set.univ (u.updSCh 1 fun k => { k with passed := true, paramBad := paramBad }) (u.procStart paramBad) := by
  have unseen (v : State) (c : Nat) : State.Moves Set.univ v (v.saf.outs.foldl (fun s m => s.updSOut c m fun o => { o with resetSeen := false }) v) :=
    .foldl _ (fun w m _ => (w.updSOut_moves c m _).mono (Set.subset_univ _)) v
  exact (State.Moves.both unseen _).trans
    (((State.safLeaveInit_moves _ 1).mono (Set.subset_univ _)).trans ((State.safStanding_moves _ 1).mono (Set.subset_univ _)))

/-- The firmware's part of the island: its version and slot, the last result, and whether a restart is in progress. -/
def Saf.firmware (x : Saf) : Nat × Nat × Nat × Bool := (x.fwVer, x.fwSlot, x.fwResult, x.fwRestart)

theorem State.Moves.firmware {A : Set (Nat × Nat)} {t : State} (h : State.Moves A s t) : t.saf.firmware = s.saf.firmware :=
  (congrArg Saf.firmware h.island :)

theorem State.procStart_firmware (u : State) (paramBad : Bool) :
    (u.procStart paramBad).saf.firmware = u.saf.firmware ∧ ((u.procStart paramBad).saf.chan 1).passed = true := by
  have moves := u.procStart_moves paramBad
  refine ⟨moves.firmware.trans rfl, ?_⟩
  rw [moves.passed, State.chan_updSCh_same]

/-- The restart ends, whatever its self-test says. -/
def State.fwEnded (s : State) : State := s.updSaf fun x => { x with fwRestart := false, fwPending := none }

/-- The new firmware stays. -/
def State.fwKept (s : State) (ver : Nat) : State :=
  (s.fwEnded.updSaf fun x => { x with fwVer := ver, fwSlot := 1 - x.fwSlot, fwResult := 1 }).record .saf 1 0x0F15 [ver, 1 - s.saf.fwSlot]

section
variable {ver : Nat} (restarts : s.saf.fwRestart = true) (waits : s.saf.fwPending = some ver)
include restarts waits

theorem safetyFwSelftestEnd_keeps : ∃ t, exec (.safetyFwSelftestEnd { ok := true, paramOk := true }) s = .next t ∧ t.saf.fwVer = ver ∧
    t.saf.fwSlot = 1 - s.saf.fwSlot ∧ t.saf.fwRestart = false ∧ (t.saf.chan 1).passed = true := by
  have run : exec (.safetyFwSelftestEnd { ok := true, paramOk := true }) s = .next ((s.fwKept ver).procStart (!true && decide (s.saf.param ≠ []))) := by
    refine congrArg Host.Outcome.next ((if_neg (by simp [restarts])).trans ?_)
    simp only [waits]
    rfl
  obtain ⟨firmware, passed⟩ := (s.fwKept ver).procStart_firmware (!true && decide (s.saf.param ≠ []))
  have kept : (s.fwKept ver).saf.firmware = (ver, 1 - s.saf.fwSlot, 1, false) := congrArg Saf.firmware (State.saf_record _ _ _ _ _)
  have shown := firmware.trans kept
  simp only [Saf.firmware, Prod.mk.injEq] at shown
  obtain ⟨version, slot, -, ended⟩ := shown
  exact ⟨_, run, version, slot, ended, passed⟩

theorem safetyFwSelftestEnd_returns : ∃ t, exec (.safetyFwSelftestEnd { ok := false, paramOk := true }) s = .next t ∧ t.saf.fwVer = s.saf.fwVer ∧
    t.saf.fwSlot = s.saf.fwSlot ∧ t.saf.fwResult = 3 := by
  have run : exec (.safetyFwSelftestEnd { ok := false, paramOk := true }) s =
      .next ((s.fwEnded.fwRefused ver).procStart (!true && decide (s.saf.param ≠ []))) := by
    refine congrArg Host.Outcome.next ((if_neg (by simp [restarts])).trans ?_)
    simp only [waits]
    rfl
  obtain ⟨firmware, -⟩ := (s.fwEnded.fwRefused ver).procStart_firmware (!true && decide (s.saf.param ≠ []))
  have refused : (s.fwEnded.fwRefused ver).saf.firmware = (s.saf.fwVer, s.saf.fwSlot, 3, false) := congrArg Saf.firmware (s.fwEnded.saf_fwRefused ver)
  have shown := firmware.trans refused
  simp only [Saf.firmware, Prod.mk.injEq] at shown
  obtain ⟨version, slot, result, -⟩ := shown
  exact ⟨_, run, version, slot, result⟩

end

end

/-! ### Start of a channel and supply (R268, R271, R276, R283) -/

/-- A channel has passed its start-up self-test. -/
def State.startPassed (s : State) (c : Nat) (paramOk : Bool) : State :=
  s.updSCh c fun k => { k with passed := true, paramBad := !paramOk && decide (s.saf.param ≠ []) }

section
variable {ch : Fin 2} (alive : (s.saf.chan ch.val).alive = true) (starting : (s.saf.chan ch.val).passed = false)
include alive starting

theorem exec_islandStartupSelftestEnd_of_ok (paramOk : Bool) : exec (.islandStartupSelftestEnd ch true paramOk) s =
    .next (if s.saf.param = [] then s.startPassed ch.val paramOk
      else (safBoth (s.startPassed ch.val paramOk) State.safLeaveInit).safStanding ch.val) := by
  refine congrArg Host.Outcome.next ((if_neg (by simp [alive, starting])).trans ((if_neg (by decide)).trans ?_))
  rfl

theorem islandStartup_passes : ∃ t, exec (.islandStartupSelftestEnd ch true true) s = .next t ∧ (t.saf.chan ch.val).passed = true := by
  refine ⟨_, exec_islandStartupSelftestEnd_of_ok alive starting true, ?_⟩
  have passed : ((s.startPassed ch.val true).saf.chan ch.val).passed = true := by simp [State.startPassed]
  split
  · exact passed
  · rw [(State.safStanding_moves _ _).passed, (State.Moves.both (fun u c => (u.safLeaveInit_moves c).mono (Set.subset_univ _)) _).passed, passed]

theorem islandStartup_refuses (stored : s.saf.param ≠ []) : ∃ t, exec (.islandStartupSelftestEnd ch true false) s = .next t ∧
    (t.saf.chan ch.val).paramBad = true ∧ ∀ m ∈ s.saf.outs, t.saf.outSt ch.val m = .fault := by
  have left : State.Moves Set.univ (s.startPassed ch.val false) (safBoth (s.startPassed ch.val false) State.safLeaveInit) :=
    .both (fun u c => (u.safLeaveInit_moves c).mono (Set.subset_univ _)) _
  have bad : ((safBoth (s.startPassed ch.val false) State.safLeaveInit).saf.chan ch.val).paramBad = true := by
    rw [left.paramBad]
    simp [State.startPassed, stored]
  have live : ((safBoth (s.startPassed ch.val false) State.safLeaveInit).saf.chan ch.val).alive = true := by
    rw [left.alive]
    simp [State.startPassed, alive]
  refine ⟨_, (exec_islandStartupSelftestEnd_of_ok alive starting false).trans (congrArg _ (if_neg stored)),
    ((State.safStanding_moves _ _).paramBad _).trans bad, fun m mem => State.safStanding_faults live bad ?_⟩
  rw [left.outs]
  exact mem

end

theorem vddSafePowerUp_starts (off : (s.saf.chan 1).alive = false) (high : Bool) : ∃ t, exec (.vddSafePowerUp high) s = .next t ∧ t.saf.chan 1 = {} ∧
    (t.hd .saf).pwr = .on ∧ (high = true → t.saf.stuck = true) := by
  have fresh : (s.safChanUp 1 high).saf.chan 1 = {} := by
    unfold State.safChanUp
    dsimp only
    split <;> exact Tab.get_put_same ({} : SChan) s.saf.ch 1 {}
  refine ⟨_, congrArg Host.Outcome.next (if_neg (by simp [off])), fresh, ?_, fun stuck => ?_⟩
  · rw [State.hd_updHd_same]
  · subst stuck
    rfl

theorem vddSafeLoss_opens (alive : (s.saf.chan 1).alive = true) : ∃ t, exec .vddSafeLoss s = .next t ∧ (t.saf.chan 1).alive = false ∧
    (∀ m, t.saf.energized m = false) ∧ t.saf.pending = none ∧ (t.hd .saf).pwr = .off := by
  have dead : ((s.safChanDown 1).saf.chan 1) = { alive := false } := Tab.get_put_same ({} : SChan) s.saf.ch 1 { alive := false }
  refine ⟨_, congrArg Host.Outcome.next (if_neg (by simp [alive])), (congrArg SChan.alive dead :), fun m => ?_, rfl, ?_⟩
  · exact Saf.energized_of_open (c := 1) (by decide) (by rw [Saf.outSt]; exact (congrArg (fun k : SChan => (k.out m).st) dead) ▸ SafState.noConfusion)
  · rw [State.hd_updHd_same]

end

/-- Settles O42: each clause is the outcome of one command as stated above; its other steps do not move an output that it has opened or put in FAULT
again. -/
theorem safetyIslandOpensAndCloses : Obligations.SafetyIslandOpensAndCloses := by
  unfold Obligations.SafetyIslandOpensAndCloses
  intro s x faults
  refine ⟨safetyInputEdge_takes, ?demand, ?discrepancy, ?pulse, ?reset, ?rejected, rfl, ?heartbeat, ?procLost, ?hwLost, ?overtemp, ?cpu, ?edm, ?mismatch,
    ?offPulse, ?testing, ?readback, fun _ => rfl, fsSUndervoltage_faults, rfl, ?received, ?apply, ?firmware, ?switch, ?selftest, ?startup,
    vddSafePowerUp_starts, vddSafeLoss_opens⟩
  case demand =>
    intro ch n b openUs rbUs m alive enabled unhealthy mem mapped on
    exact safeFilterExpiry_trips openUs rbUs alive enabled unhealthy mem mapped on
  case discrepancy => exact fun n t0 c timer channel alive free => discrepancyExpiry_latches timer channel alive free
  case pulse => exact fun n low c enabled own high channel alive free => testPulse_latches enabled own high channel alive free
  case reset =>
    intro lenH lenP skew dem still t0 minH maxH minP maxP skewOk low rested ready nonfatal
    exact safeRstFall_resets dem still (by simp [rstLenOk, minH, maxH]) (by simp [rstLenOk, minP, maxP]) skewOk low rested ready nonfatal
  case rejected => exact fun lenH lenP skew dem still bad => safeRstFall_rejected dem still bad
  case heartbeat =>
    intro alive0 alive1
    obtain ⟨t, run, time, beats0, beats1⟩ := safetyHeartbeat_beats alive0 alive1
    simp only [SChan.beats, Prod.mk.injEq] at beats0 beats1
    obtain ⟨level0, seen0, present0⟩ := beats0
    obtain ⟨level1, seen1, present1⟩ := beats1
    exact ⟨t, run, time, seen0, seen1, present0, present1, level0, level1⟩
  case procLost => exact fun alive unannounced => chLost_faults (lost := 1) alive fun _ => unannounced
  case hwLost => exact fun alive => chLost_faults (lost := 0) alive fun one => absurd one (by decide)
  case overtemp => exact fun ch alive => ⟨_, rfl, State.safChanFault_latches alive cOvertemp⟩
  case cpu => exact fun alive => ⟨_, rfl, State.safChanFault_latches alive cCpu⟩
  case edm => exact fun m c channel runs alive behind => edmTimeout_faults channel runs alive behind
  case mismatch => exact fun m ch alive on partner => chMismatch_faults alive on partner
  case offPulse => exact fun m energized rested idle => offPulseTest_opens energized rested idle
  case testing =>
    exact fun m sw us testing => ⟨offPulseReadback_closes testing us, fun c channel alive => offPulseTimeout_faults testing channel alive⟩
  case readback =>
    exact fun m c channel alive enabled => ⟨outputReadbackFault_high channel alive enabled, outputReadbackFault_low channel alive enabled⟩
  case received => exact fun bs rest echo received alive => safetyParamReceive_checks received alive echo
  case apply =>
    intro ws waits
    refine ⟨safetyParamApply_waits waits, fun idle => ?_⟩
    obtain ⟨t, run, param, pending, calm⟩ := safetyParamApply_applies waits idle
    exact ⟨t, run, param, pending, fun c channel m => (calm c channel m).1⟩
  case firmware => exact fun bs rest ver received alive ok => safetyFwReceive_verifies received alive ok ver
  case switch => exact fun ver waits first idle alive => safetyFwSwitch_restarts waits first idle alive
  case selftest => exact fun ver restarts waits => ⟨safetyFwSelftestEnd_keeps restarts waits, safetyFwSelftestEnd_returns restarts waits⟩
  case startup => exact fun ch alive starting => ⟨islandStartup_passes alive starting, islandStartup_refuses alive starting⟩

end Sys2Proof.Machine
end

section
namespace Sys2Proof.Machine
/-- Settles O1: a step is a match on the queue, and both cases compute. -/
theorem stepRunsTheFrontCommand : Obligations.StepRunsTheFrontCommand := by
  unfold Obligations.StepRunsTheFrontCommand
  refine ⟨fun c cs s => rfl, fun s idle => ?_⟩
  unfold step
  rw [idle]
end Sys2Proof.Machine
end

section
/-!
SUPPORT. What is true of the cores' ports while events are routed, units become READY and cores that wait are served (R402–R408): a property that these
changes of a port keep is kept by the scheduler's operations.
-/

namespace Sys2Proof.Machine

/-- What the scheduler's own operations do to the ports keeps `P`: serving a core that waits, raising a preemption, and letting preemptions lapse. -/
structure Hts.Steady (P : Hts → Prop) : Prop where
  ports {h g : Hts} : P h → g.ports = h.ports → P g
  served {h : Hts} {c : Nat} {q : Port} : P h → (h.port c).waiting = true → P { h with ports := Tab.put {} h.ports c q }
  preempted {h : Hts} {c : Nat} {u : DUnit} : P h → P (h.updPort c fun q => { q with preempt := some u })
  lapsed {h : Hts} (ready : List DUnit) : P h → P { h with ports := Tab.mapAll {} (Port.lapse ready) h.ports }

variable {P : Hts → Prop} {s : State}

theorem Hts.Steady.foldl (_ : Hts.Steady P) {α : Type} {f : State → α → State} (a : ∀ s x, P s.hts → P (f s x).hts) :
    ∀ (xs : List α) (s : State), P s.hts → P (xs.foldl f s).hts
  | [], _, r => r
  | x :: xs, s, r => Hts.Steady.foldl ‹_› a xs (f s x) (a s x r)

/-- A dispatch writes the port of its core. -/
theorem State.dispatch_ports (s : State) (d : Nat) (v : DUnit) : ∃ q : Port, (s.dispatch d v).hts.ports = Tab.put {} s.hts.ports d q := by
  cases v <;> exact ⟨_, by dsimp only [State.dispatch, Hts.updPort, Hts.updTask, Tab.upd]⟩

/-- A unit goes only to a core that waits for one (R403). -/
theorem Hts.Steady.dispatch (k : Hts.Steady P) (r : P s.hts) {d : Nat} (v : DUnit) (w : (s.hts.port d).waiting = true) : P (s.dispatch d v).hts := by
  obtain ⟨_, ports⟩ := State.dispatch_ports s d v
  exact k.ports (k.served r w) ports

theorem Hts.Steady.serve (k : Hts.Steady P) (r : P s.hts) : P s.serve.hts := by
  unfold State.serve
  split
  · exact r
  · refine k.foldl (fun s d r => ?_) _ s r
    split
    · next w =>
      split
      · exact k.dispatch r _ w
      · exact r
    · exact r

theorem Hts.Steady.offer (k : Hts.Steady P) (r : P s.hts) (v : DUnit) : P (s.offer v).hts := by
  have served : P s.serve.lapse.hts := k.lapsed _ (k.serve r)
  unfold State.offer
  dsimp only
  split
  · split
    · split
      · exact served
      · exact k.preempted served
    · exact served
  · exact served

theorem Hts.Steady.enqueue (k : Hts.Steady P) (r : P s.hts) (v : DUnit) (head : Bool) : P (s.enqueue v head).hts := by
  cases v <;> exact k.ports r rfl

theorem Hts.Steady.makeReady (k : Hts.Steady P) (r : P s.hts) (v : DUnit) (head : Bool) : P (s.makeReady v head).hts :=
  k.offer (k.enqueue r v head) v

theorem Hts.Steady.evalTask (k : Hts.Steady P) (r : P s.hts) (t : Nat) : P (s.evalTask t).hts := by
  unfold State.evalTask
  dsimp only
  split
  · exact k.makeReady r _ _
  · exact r

theorem Hts.Steady.evalMet (k : Hts.Steady P) (r : P s.hts) : P s.evalMet.hts :=
  k.foldl (fun _ v r => k.offer r v) _ _ (k.foldl (fun _ v r => k.enqueue r v false) _ _ r)

theorem Hts.Steady.orFlags (k : Hts.Steady P) (r : P s.hts) (t : Nat) (m : Word) : P (s.orFlags t m).hts := by
  unfold State.orFlags
  split <;> exact k.ports r rfl

theorem Hts.Steady.routeEvt (k : Hts.Steady P) (r : P s.hts) (b : Block) (c i : Nat) : P (s.routeEvt b c i).hts := by
  unfold State.routeEvt
  split
  · exact r
  · exact k.evalMet (k.foldl (fun _ _ r => k.orFlags r _ _) _ _ r)

theorem Hts.Steady.irq (k : Hts.Steady P) (r : P s.hts) (b : Block) (i : Nat) : P (s.irq b i).hts := by
  have raised (f : Hdr → Hdr) : P (s.updHd b f).hts := r
  unfold State.irq
  dsimp only
  split
  · refine k.routeEvt ?_ b _ 0
    split
    · exact k.routeEvt (raised _) b _ _
    · exact raised _
  · split
    · exact k.routeEvt (raised _) b _ _
    · exact raised _

theorem Hts.Steady.err (k : Hts.Steady P) (r : P s.hts) (b : Block) (e : Nat) : P (s.err b e).hts := by
  have logged (f : Hdr → Hdr) : P (s.updHd b f).hts := r
  exact k.irq (logged _) b 0

theorem Hts.Steady.releaseFlow (k : Hts.Steady P) (r : P s.hts) (f : Nat) : P (s.releaseFlow f).hts := by
  unfold State.releaseFlow
  dsimp only
  split
  · exact k.makeReady r _ _
  · exact r

theorem Hts.port_updPort (h : Hts) (c d : Nat) (f : Port → Port) : (h.updPort c f).port d = if d = c then f (h.port c) else h.port d := by
  simpa [Hts.port, Hts.updPort, eq_comm] using Tab.get_upd ({} : Port) h.ports c d f

/-- A table whose entries all change keeps what a function of its entries reads as, where the change keeps it and the default reads as something else. -/
theorem Tab.get_mapAll_ne {α β : Type} [DecidableEq α] {d : α} {f : α → α} {g : α → β} (same : ∀ v, g (f v) = g v) {b : β} (ne : g d ≠ b) :
    ∀ {t : Tab α} {k : Nat}, g (Tab.get d t k) = b → g (Tab.get d (Tab.mapAll d f t) k) = b
  | [], _, e => absurd e ne
  | (j, v) :: t, k, e => by
    rw [Tab.get_cons] at e
    unfold Tab.mapAll
    dsimp only
    by_cases key : j = k
    · rw [if_pos key] at e
      rw [if_neg fun dv => ne ((congrArg g dv).symm.trans ((same v).trans e)), Tab.get_cons, if_pos key]
      exact (same v).trans e
    · rw [if_neg key] at e
      split
      · exact Tab.get_mapAll_ne same ne e
      · rw [Tab.get_cons, if_neg key]
        exact Tab.get_mapAll_ne same ne e

/-- A lapse changes a port's preemption alone. -/
theorem Port.lapse_eq (ready : List DUnit) (q : Port) : q.lapse ready = { q with preempt := (q.lapse ready).preempt } := by
  unfold Port.lapse
  split
  · split <;> rfl
  · rfl

/-- Core `c` runs unit `u` and waits for none. -/
def Hts.RunsOn (c : Nat) (u : DUnit) (h : Hts) : Prop := (h.port c).unit = some u ∧ (h.port c).waiting = false

/-- A core that runs a unit and waits for none keeps it. -/
theorem Hts.runsOn_steady (c : Nat) (u : DUnit) : Hts.Steady (Hts.RunsOn c u) where
  ports r e := by simpa [Hts.RunsOn, Hts.port, e] using r
  served {h d q} r w := by
    have ne : c ≠ d := fun e => by rw [← e, r.2] at w; exact absurd w (by decide)
    rwa [Hts.RunsOn, Hts.port, Tab.get_put_ne _ _ _ ne]
  preempted {h d v} r := by
    rw [Hts.RunsOn, Hts.port_updPort]
    split
    · next e => exact e ▸ r
    · exact r
  lapsed ready r := by
    have kept := Tab.get_mapAll_ne (d := ({} : Port)) (f := Port.lapse ready) (g := fun q => (q.unit, q.waiting))
      (fun q => by rw [Port.lapse_eq]) (b := (some u, false)) (fun e => nomatch congrArg Prod.fst e) (Prod.ext r.1 r.2)
    exact ⟨congrArg Prod.fst kept, congrArg Prod.snd kept⟩

end Sys2Proof.Machine
end

section
/-!
SUPPORT. What a write of DONE or YIELD does to the unit of its core (R401, R405, R406).
-/

namespace Sys2Proof.Machine

variable {s : State} {p : Principal} {c : Nat} {u : DUnit}

/-- The unit that a core ran has ended (Table HTS-1): a task returns to WAITING, or to SUSPENDED where TASK_SUSPEND waited; a flow's item leaves its
flow and releases the next one. -/
def State.unitEnded (u : DUnit) (s : State) : State :=
  match u with
  | .flag t =>
    if (s.hts.task t).susp then (s.updHts fun h => h.updTask t fun k => { k with state := .suspended, susp := false, dflags := 0 }).serve.lapse
    else ((s.updHts fun h => h.updTask t fun k => { k with state := .waiting, dflags := 0 }).evalTask t).serve.lapse
  | .item f => ((s.updHts fun h => { h with flows := Tab.upd [] h.flows f fun q => q.drop 1 }).releaseFlow f).serve.lapse

theorem execTaskDone_eq (p : Principal) (c : Fin 8) (s : State) : exec (.taskDone p c) s = .next (s.portDone p c.val false State.unitEnded) := rfl

theorem State.portDone_idle {yield : Bool} (writes : s.writeOk .hts (0x1014 + 0x40 * c) .w1s p = true) (idle : (s.hts.port c).unit = none)
    (f : DUnit → State → State) : s.portDone p c yield f = s.err .hts errDispState := by
  rw [State.portDone, State.gated_ok _ _ writes]
  simp only [idle]

theorem State.portDone_runs {yield : Bool} (writes : s.writeOk .hts (0x1014 + 0x40 * c) .w1s p = true) (runs : (s.hts.port c).unit = some u)
    (f : DUnit → State → State) : s.portDone p c yield f = f u (s.freePort c) := by
  rw [State.portDone, State.gated_ok _ _ writes]
  simp only [runs]

theorem State.freePort_idle (still : (s.hts.port c).waiting = false) : (s.freePort c).hts.coreIdle c :=
  Hts.coreIdle_updPort_same s.hts c ⟨rfl, still⟩

theorem State.freePort_runsOn (r : s.hts.RunsOn c u) {d : Nat} (ne : c ≠ d) : (s.freePort d).hts.RunsOn c u := by
  rwa [State.freePort, State.updHts, Hts.RunsOn, Hts.port_updPort, if_neg ne]

theorem State.evalTask_kept (s : State) (t : Nat) : Hts.Kept s.hts (s.evalTask t).hts := by
  unfold State.evalTask
  dsimp only
  split
  · exact State.makeReady_kept s _ _
  · exact .refl _

theorem State.releaseFlow_kept (s : State) (f : Nat) : Hts.Kept s.hts (s.releaseFlow f).hts := by
  unfold State.releaseFlow
  dsimp only
  split
  · exact State.makeReady_kept s _ _
  · exact .refl _

theorem State.serveLapse_kept (s : State) : Hts.Kept s.hts s.serve.lapse.hts := .trans (State.serve_kept s) (State.lapse_kept _)

/-- What the end of a unit makes READY goes to cores that wait, so a core that is idle stays idle. -/
theorem State.unitEnded_kept (u : DUnit) (s : State) : Hts.Kept s.hts (State.unitEnded u s).hts := by
  cases u with
  | flag t =>
    have changed (f : Task → Task) : Hts.Kept s.hts (s.updHts fun h => h.updTask t f).hts := Hts.updTask_kept s.hts t f
    unfold State.unitEnded
    dsimp only
    split
    · exact .trans (changed _) (State.serveLapse_kept _)
    · exact .trans (changed _) (.trans (State.evalTask_kept _ t) (State.serveLapse_kept _))
  | item f =>
    have left (q : List Item → List Item) : Hts.Kept s.hts (s.updHts fun h => { h with flows := Tab.upd [] h.flows f q }).hts := Hts.updQueues_kept s.hts _ _
    exact .trans (left _) (.trans (State.releaseFlow_kept _ f) (State.serveLapse_kept _))

theorem Hts.Steady.unitEnded {P : Hts → Prop} (k : Hts.Steady P) (r : P s.hts) (v : DUnit) : P (State.unitEnded v s).hts := by
  have changed (f : Hts → Hts) (same : (f s.hts).ports = s.hts.ports) : P (s.updHts f).hts := k.ports r same
  have closed {t : State} (i : P t.hts) : P t.serve.lapse.hts := k.lapsed _ (k.serve i)
  cases v with
  | flag t =>
    unfold State.unitEnded
    dsimp only
    split
    · exact closed (changed _ rfl)
    · exact closed (k.evalTask (changed _ rfl) t)
  | item f => exact closed (k.releaseFlow (changed _ rfl) f)

/-- A refusal with DISP_STATE leaves every running unit where it is. -/
theorem State.err_dispState (s : State) : ((s.err .hts errDispState).hd .hts).errCode = 0x0726 ∧
    ∀ d u, (s.hts.port d).unit = some u → (s.hts.port d).waiting = false → ((s.err .hts errDispState).hts.port d).unit = some u :=
  ⟨by rw [State.hd_err_same]; rfl, fun d u runs still => ((Hts.runsOn_steady d u).err ⟨runs, still⟩ _ _).1⟩

end Sys2Proof.Machine
end

section
namespace Sys2Proof.Machine

/-- Settles O50: DONE frees its core's port, and what then becomes READY goes only to cores that wait. -/
theorem doneAndYieldActOnTheirOwnCore : Obligations.DoneAndYieldActOnTheirOwnCore := by
  unfold Obligations.DoneAndYieldActOnTheirOwnCore
  intro s p c writes
  refine ⟨fun idle => ⟨?done, ?yield⟩, fun runs still => ?_⟩
  case done => exact ⟨_, congrArg Host.Outcome.next (State.portDone_idle writes idle _), State.err_dispState s⟩
  case yield => exact ⟨_, congrArg Host.Outcome.next (State.portDone_idle writes idle _), State.err_dispState s⟩
  obtain ⟨u, runs⟩ := Option.isSome_iff_exists.mp runs
  refine ⟨_, (execTaskDone_eq p c s).trans (congrArg Host.Outcome.next (State.portDone_runs writes runs _)), ?freed, fun d v ne runs' still' => ?kept⟩
  case freed => exact ((State.unitEnded_kept u _).idle c (State.freePort_idle still)).port.1
  case kept => exact ((Hts.runsOn_steady d v).unitEnded (State.freePort_runsOn ⟨runs', still'⟩ ne) u).1

end Sys2Proof.Machine
end

section
/-!
SUPPORT. The invariant of memory and of the bounded queues, operation by operation. `frame` is the rule of an operation that leaves memory, the queues
of records, the freeze's buffer, the error queue and the retention store's buffer alone; `KeepsInv`, `OptInv` and `FstInv` say of an outcome, of an
option and of a pair that its state meets the invariant. The sections follow the model's own order; their lemmas
are many and short, so they elaborate one after another (`Elab.async`).
-/

namespace Sys2Proof.Machine

/-- A state whose memory, event queues, freeze buffer, error queue and retention buffer are those of `s` keeps the invariant of `s`. -/
theorem State.Inv.frame {s t : State} (i : s.Inv) (hm : t.mem = s.mem := by rfl) (hw : t.evr.queues = s.evr.queues := by rfl)
    (hs : t.evr.safeBuf = s.evr.safeBuf := by rfl) (hq : t.erm.queue = s.erm.queue := by rfl) (hr : t.ret.pend = s.ret.pend := by rfl) : t.Inv :=
  ⟨hm ▸ i.mem, hw ▸ i.evrQueues, hs ▸ i.evrSafe, hq ▸ i.ermQueue, hr ▸ i.retPend⟩

/-- Every next state that an outcome answers meets the invariant. -/
def KeepsInv (o : Out) : Prop := ∀ t, o = .next t → t.Inv

theorem State.Inv.next {s : State} (i : s.Inv) : KeepsInv (.next s) := fun _ h => by cases h; exact i

/-- Every state that an option holds meets the invariant. -/
def OptInv (o : Option State) : Prop := ∀ t, o = some t → t.Inv

theorem State.Inv.some {s : State} (i : s.Inv) : OptInv (some s) := fun _ h => by cases h; exact i

theorem OptInv.map {α : Type} {o : Option α} {f : α → State} (h : ∀ a, (f a).Inv) : OptInv (o.map f) := fun t e => by
  obtain ⟨a, _, rfl⟩ := Option.map_eq_some_iff.mp e
  exact h a

theorem OptInv.none : OptInv none := fun _ h => by cases h

/-- Every writer's queue holds at most four records and the freeze's buffer at most 64 (R391, R393). -/
def Evr.Bounded (e : Evr) : Prop := (∀ w, (Tab.get [] e.queues w).length ≤ 4) ∧ e.safeBuf.length ≤ 64

theorem Evr.Bounded.foldl_present : ∀ (rs : List EvRec) {e : Evr}, e.Bounded → (rs.foldl Evr.present e).Bounded
  | [], _, h => h
  | r :: rs, e, h => Evr.Bounded.foldl_present rs (Evr.present_bounds e r h.1 h.2)

theorem State.Inv.ite_fst {α : Type} {c : Prop} [Decidable c] {x y : State × α} (h : c → x.1.Inv) (g : ¬ c → y.1.Inv) :
    (if c then x else y).1.Inv := by
  split
  · exact h ‹_›
  · exact g ‹_›

/-- The state of a pair meets the invariant. -/
def FstInv {α : Type} (x : State × α) : Prop := x.1.Inv

theorem FstInv.mk {α : Type} {s : State} (i : s.Inv) {a : α} : FstInv (s, a) := i

theorem FstInv.ite {α : Type} {c : Prop} [Decidable c] {x y : State × α} (h : c → FstInv x) (g : ¬ c → FstInv y) : FstInv (if c then x else y) := by
  split
  · exact h ‹_›
  · exact g ‹_›

theorem State.Inv.foldl_fst {α β : Type} {f : State × β → α → State × β} (h : ∀ r x, r.1.Inv → (f r x).1.Inv) :
    ∀ (xs : List α) (r : State × β), r.1.Inv → (xs.foldl f r).1.Inv
  | [], _, i => i
  | x :: xs, r, i => State.Inv.foldl_fst h xs (f r x) (h r x i)

theorem State.Inv.of_eq_mk {α : Type} {x : State × α} {s : State} {a : α} (h : x.1.Inv) (e : x = (s, a)) : s.Inv := by
  rw [e] at h
  exact h

theorem State.Inv.of_eq_mk_snd {α : Type} {x : α × State} {s : State} {a : α} (h : x.2.Inv) (e : x = (a, s)) : s.Inv := by
  rw [e] at h
  exact h

/-- The recorder may change where its queues and the freeze's buffer stay within their sizes. -/
theorem State.Inv.setEvr {s : State} (i : s.Inv) {e : Evr} (h : e.Bounded) : State.Inv { s with evr := e } :=
  i.mk' (.inl rfl) (.inr h) (.inl rfl) (.inl rfl)

end Sys2Proof.Machine
end

section
/-!
SUPPORT. What keeps the invariant: the operations that the blocks share (headers and registers, events, errors, faults, the scheduler, points).
-/

namespace Sys2Proof.Machine

set_option Elab.async false

variable {s : State}

/-! ### Access to headers and registers, active and shadow (R33–R39) -/

theorem State.Inv.updHd {b : Block} {f : Hdr → Hdr} (hs : s.Inv) : (s.updHd b f).Inv :=
  hs.frame

theorem State.Inv.setReg {r : RegId} {w : Word} (hs : s.Inv) : (s.setReg r w).Inv :=
  hs.frame

theorem State.Inv.fenceCommit {b : Block} (hs : s.Inv) : (s.fenceCommit b).Inv :=
  State.fenceCommit_inv _ _ hs

theorem State.Inv.runFollow {b : Block} (hs : s.Inv) : (s.runFollow b).Inv :=
  hs.frame

/-! ### The scheduler's operations that every block uses: raising flags (R400, R401), readiness, selection and dispatch (R402, R403), preemption
(R404), the release of flow items (R405) and the routes from hardware events (R408) -/

theorem State.Inv.updHts {f : Hts → Hts} (hs : s.Inv) : (s.updHts f).Inv :=
  hs.frame

theorem State.Inv.dispatch {c : Nat} {u : DUnit} (hs : s.Inv) : (s.dispatch c u).Inv :=
  hs.of_same (State.dispatch_same _ _ _) rfl

theorem State.Inv.serve (hs : s.Inv) : s.serve.Inv :=
  hs.of_same (State.serve_same _) rfl

theorem State.Inv.lapse (hs : s.Inv) : s.lapse.Inv :=
  hs.frame

theorem State.Inv.makeReady {u : DUnit} {head : Bool} (hs : s.Inv) : (s.makeReady u head).Inv :=
  hs.of_same (State.makeReady_same _ _ _) rfl

theorem State.Inv.evalTask {t : Nat} (hs : s.Inv) : (s.evalTask t).Inv :=
  hs.of_same (State.evalTask_same _ _) rfl

theorem State.Inv.evalMet (hs : s.Inv) : s.evalMet.Inv :=
  hs.of_same (State.evalMet_same _) rfl

theorem State.Inv.orFlags {t : Nat} {m : Word} (hs : s.Inv) : (s.orFlags t m).Inv :=
  hs.of_same (State.orFlags_same _ _ _) rfl

theorem State.Inv.raiseFlags {t : Nat} {m : Word} (hs : s.Inv) : (s.raiseFlags t m).Inv :=
  hs.of_same (State.raiseFlags_same _ _ _) rfl

theorem State.Inv.routeEvt {blk : Block} {kind idx : Nat} (hs : s.Inv) : (s.routeEvt blk kind idx).Inv :=
  hs.of_same (State.routeEvt_same _ _ _ _) rfl

/-! ### The operations that every block shares: interrupt causes, the error log of a block, event records (R390–R393), byte memory, the protection map
(R48) and the gate that every register write passes (R33–R49) -/

theorem State.Inv.irq {b : Block} {i : Nat} (hs : s.Inv) : (s.irq b i).Inv :=
  State.irq_inv _ _ _ hs

theorem State.Inv.err {b : Block} {e : Nat} (hs : s.Inv) : (s.err b e).Inv :=
  State.err_inv _ _ _ hs

theorem State.Inv.record {b : Block} {inst code : Nat} {ps : List Nat} (hs : s.Inv) : (s.record b inst code ps).Inv :=
  State.record_inv _ _ _ _ _ hs

theorem State.Inv.store {a : Nat} {bs : List Byte} (hs : s.Inv) : (s.store a bs).Inv :=
  State.store_inv _ _ _ hs

theorem State.Inv.store32 {a : Nat} {w : Word} (hs : s.Inv) : (s.store32 a w).Inv :=
  hs.store

theorem State.Inv.storeRam {a : Nat} {bs : List Byte} (hs : s.Inv) : (s.storeRam a bs).Inv :=
  State.storeRam_inv _ _ _ hs

theorem State.Inv.hifLog {code bar off : Nat} (hs : s.Inv) : (s.hifLog code bar off).Inv :=
  hs.of_same (State.hifLog_same _ _ _ _) rfl

theorem State.Inv.tell {r : Requester} {blk e addr : Nat} (hs : s.Inv) : (s.tell r blk e addr).Inv :=
  State.tell_inv _ _ _ _ _ hs

theorem State.Inv.tellPrincipal {p : Principal} {blk e addr : Nat} (hs : s.Inv) : (s.tellPrincipal p blk e addr).Inv :=
  State.tellPrincipal_inv _ _ _ _ _ hs

theorem State.Inv.deny {b : Block} {off : Nat} {p : Principal} {v : Word} (hs : s.Inv) : (s.deny b off p v).Inv :=
  State.deny_inv _ _ _ _ _ hs

theorem State.Inv.storeFault {p : Principal} {b : Block} {e addr : Nat} (hs : s.Inv) : (s.storeFault p b e addr).Inv :=
  hs.of_same (State.storeFault_same _ _ _ _ _) rfl

theorem State.Inv.gated (hs : s.Inv) {b : Block} {off : Nat} {a : Access} {p : Principal} {v : Word} {f : State → State} (hf : ∀ a0, a0.Inv → State.Inv (f a0)) :
    (s.gated b off a p v f).Inv :=
  State.gated_inv s b off a p v hs (hf s hs)

theorem State.Inv.draw_snd (hs : s.Inv) : s.draw.2.Inv :=
  hs.frame

/-! ### Sending over the Avenue ports: injection (R342), the routing table's use (R335) and frames of this device (R331) -/

theorem State.Inv.updAve {f : Ave → Ave} (hs : s.Inv) : (s.updAve f).Inv :=
  hs.frame

theorem State.Inv.updAport {p : Nat} {f : APort → APort} (hs : s.Inv) : (s.updAport p f).Inv :=
  hs.frame

theorem State.Inv.aveSendPort {p : Nat} {f : AFrame} (hs : s.Inv) : (s.aveSendPort p f).Inv :=
  hs.of_same (State.aveSendPort_same _ _ _) rfl

theorem State.Inv.aveSend {f : AFrame} (hs : s.Inv) : (s.aveSend f).Inv := by
  unfold State.aveSend
  split
  · exact hs.aveSendPort
  · exact hs

theorem State.Inv.aveTo {d : Nat} {b : ABody} (hs : s.Inv) : (s.aveTo d b).Inv :=
  hs.of_same (State.aveTo_same _ _ _) rfl

/-! ### What the field die drives (R291, R298, Table FIO-3): the safe states of its outputs, and a silence -/

theorem State.Inv.updFio {f : Fio → Fio} (hs : s.Inv) : (s.updFio f).Inv :=
  hs.frame

theorem State.Inv.fioDrive (hs : s.Inv) : s.fioDrive.Inv :=
  hs.frame

theorem State.Inv.fioSilence (hs : s.Inv) : s.fioSilence.Inv :=
  hs.of_same (State.fioSilence_same _) rfl

theorem State.Inv.silenceEnd {ms : Nat} (hs : s.Inv) : (s.silenceEnd ms).Inv :=
  (State.Inv.foldl (fun _ _ hs' => hs'.frame) _ _ hs.frame.record).fioDrive

theorem State.Inv.testRecord {what : Nat} {set : Bool} (hs : s.Inv) : (s.testRecord what set).Inv :=
  hs.draw_snd.record

theorem State.Inv.testsOff (hs : s.Inv) : s.testsOff.Inv :=
  .foldl (fun _ _ hs' => .ite (fun _ => hs'.frame.testRecord) fun _ => hs') _ _ hs

theorem State.Inv.fioSoftRst (hs : s.Inv) : s.fioSoftRst.Inv := by
  unfold State.fioSoftRst
  exact (State.Inv.foldl (fun _ _ hs' => hs'.frame) _ _ hs.testsOff).updFio

/-! ### The safety island's two output state machines (R273–R280, Table SAF-2) as every event of the island uses them, and the core die's FATAL line
-/

theorem State.Inv.updSaf {f : Saf → Saf} (hs : s.Inv) : (s.updSaf f).Inv :=
  hs.frame

theorem State.Inv.safFirst {cause idx : Nat} {pair : Bool} (hs : s.Inv) : (s.safFirst cause idx pair).Inv :=
  hs.frame

theorem State.Inv.edmStart {c m : Nat} (hs : s.Inv) : (s.edmStart c m).Inv :=
  hs.of_same (State.edmStart_same _ _ _) rfl

theorem State.Inv.safFault {c m cause : Nat} (hs : s.Inv) : (s.safFault c m cause).Inv :=
  .ite (fun _ => hs) fun _ => (State.Inv.ite (fun _ => hs.frame.edmStart) fun _ => hs.frame).record.safFirst.irq

theorem State.Inv.safFaultAll {c cause : Nat} (hs : s.Inv) : (s.safFaultAll c cause).Inv :=
  .foldl (fun _ _ hs' => hs'.safFault) _ _ hs

theorem State.Inv.safChanFault {c cause : Nat} (hs : s.Inv) : (s.safChanFault c cause).Inv :=
  .ite (fun _ => hs.frame.safFaultAll) fun _ => hs

theorem State.Inv.safOn {c m : Nat} (hs : s.Inv) : (s.safOn c m).Inv :=
  .ite (fun _ => hs.frame) fun _ => hs.frame.edmStart

theorem State.Inv.safTrip {c m pair openUs rbUs : Nat} (hs : s.Inv) : (s.safTrip c m pair openUs rbUs).Inv :=
  .ite (fun _ => hs.frame.edmStart.record.updSaf.irq) fun _ => hs.frame.edmStart

theorem State.Inv.safStep {c m openUs rbUs : Nat} (hs : s.Inv) : (s.safStep c m openUs rbUs).Inv := by
  unfold State.safStep
  dsimp only
  split
  · exact .ite (fun _ => hs.safFault) fun _ => .ite (fun _ => hs) fun _ => .ite (fun _ => .ite (fun _ => hs.safOn) fun _ => hs) fun _ => hs.frame
  · exact .ite (fun _ => hs.frame) fun _ => hs
  · exact .ite (fun _ => hs.safTrip) fun _ => hs
  · exact hs

theorem State.Inv.safEval {c openUs rbUs : Nat} (hs : s.Inv) : (s.safEval c openUs rbUs).Inv :=
  .ite (fun _ => hs) fun _ => .foldl (fun _ _ hs' => hs'.safStep) _ _ hs.frame

theorem State.Inv.pairFault {c n cause : Nat} (hs : s.Inv) : (s.pairFault c n cause).Inv :=
  .ite (fun _ => hs) fun _ => .foldl (fun _ _ hs' => .ite (fun _ => hs'.safFault) fun _ => hs') _ _ hs.frame.record.safFirst.irq

/-! ### The hard-wired safe reaction to a FATAL error (R478): it runs without firmware and without the die-to-die link -/

theorem State.Inv.pmcRollback {blk cause : Nat} (hs : s.Inv) : (s.pmcRollback blk cause).Inv :=
  hs.of_same (State.pmcRollback_same _ _ _) rfl

/-! ### Raising an error through the error manager (R473–R478), shared by every block -/

theorem State.Inv.settleErm (hs : s.Inv) : s.settleErm.Inv :=
  State.settleErm_inv _ hs

theorem State.Inv.raise {b : Block} {inst code : Nat} {sev : Severity} (hs : s.Inv) : (s.raise b inst code sev).Inv :=
  State.raise_inv _ _ _ _ _ hs

theorem State.Inv.raiseNoCode {b : Block} {inst : Nat} {sev : Severity} (hs : s.Inv) : (s.raiseNoCode b inst sev).Inv :=
  State.raiseNoCode_inv _ _ _ _ hs

theorem State.Inv.raiseSafePath {b : Block} {inst code : Nat} (hs : s.Inv) : (s.raiseSafePath b inst code).Inv :=
  State.raiseSafePath_inv _ _ _ _ hs

/-! ### What follows a write that PTD stores: HRC's observation with its records and blocks (R380–R386), and the transmit request of an ON_CHANGE CAN
object (R436) -/

theorem State.Inv.updHrc {f : Hrc → Hrc} (hs : s.Inv) : (s.updHrc f).Inv :=
  hs.frame

theorem State.Inv.putGap {b : HrcBlock} (hs : s.Inv) : (s.putGap b).Inv :=
  hs.storeRam

theorem State.Inv.hrcLose {v : HrcBlock} (hs : s.Inv) : (s.hrcLose v).Inv := by
  unfold State.hrcLose
  split
  · exact hs.frame.irq.updHrc.putGap
  · exact hs.frame.irq.updHrc

theorem State.Inv.hrcOverwrite_fst (hs : s.Inv) : s.hrcOverwrite.1.Inv := by
  unfold State.hrcOverwrite
  split
  · exact hs
  · exact hs.hrcLose

theorem State.Inv.hrcClose (hs : s.Inv) : s.hrcClose.Inv := by
  unfold State.hrcClose
  split
  · exact hs
  · exact .ite (fun _ => (State.Inv.ite_fst (fun _ => hs.hrcOverwrite_fst) fun _ => hs).storeRam.updHrc.updHrc.record.irq) fun _ => (State.Inv.ite_fst (fun _ => hs.hrcOverwrite_fst) fun _ => hs).storeRam.updHrc

theorem State.Inv.hrcRecord {r : HrcRec} (hs : s.Inv) : (s.hrcRecord r).Inv :=
  .ite (fun _ => hs.frame.hrcClose) fun _ => hs.frame

theorem State.Inv.observeChange {idx : Nat} {v : Word} {q : Byte} {t : Nat} (hs : s.Inv) : (s.observeChange idx v q t).Inv :=
  .ite (fun _ => hs.frame) fun _ => .ite (fun _ => hs.frame.hrcRecord) fun _ => hs.frame

theorem State.Inv.hrcObserve {idx : Nat} {e : DirEntry} {v : Word} {q : Byte} {t : Nat} (hs : s.Inv) : (s.hrcObserve idx e v q t).Inv := by
  unfold State.hrcObserve
  split
  · exact hs
  · split
    · exact hs.observeChange
    · exact hs.frame
    · exact hs

theorem State.Inv.reduceEnd {idx : Nat} {e : DirEntry} {next : Nat} (hs : s.Inv) : (s.reduceEnd idx e next).Inv :=
  hs.frame.hrcRecord

theorem State.Inv.reduceCut {idx : Nat} {e : DirEntry} (hs : s.Inv) : (s.reduceCut idx e).Inv :=
  .ite (fun _ => hs.frame.reduceEnd) fun _ => hs

theorem State.Inv.canChange {k : Nat} (hs : s.Inv) : (s.canChange k).Inv :=
  hs.of_same (State.canChange_same _ _) rfl

/-! ### Points: reading and writing hot and cold entries with their quality (R60–R68) -/

theorem State.Inv.storeEntry {idx : Nat} {x : Entry} (hs : s.Inv) : (s.storeEntry idx x).Inv :=
  hs.of_same (State.storeEntry_same _ _ _) rfl

theorem State.Inv.putEntry {idx : Nat} {x : Entry} {t : optParam (Option Nat) none} (hs : s.Inv) : (s.putEntry idx x t).Inv :=
  .ite (fun _ => hs.storeEntry.hrcObserve.canChange) fun _ => hs.storeEntry.hrcObserve

theorem State.Inv.putShadow {idx : Nat} {x : Entry} (hs : s.Inv) : (s.putShadow idx x).Inv :=
  hs.frame

theorem State.Inv.pointWriteSat {idx : Nat} {v : Word} {q : Byte} {t : Nat} {sat : Bool} (hs : s.Inv) : (s.pointWriteSat idx v q t sat).Inv := by
  unfold State.pointWriteSat
  dsimp only
  split
  · exact hs
  · split
    · exact (State.Inv.ite (fun _ => hs.frame) fun _ => hs).putShadow
    · exact (State.Inv.ite (fun _ => hs.frame) fun _ => hs).putEntry

theorem State.Inv.pointWrite {idx : Nat} {v : Word} {q : Byte} {t : Nat} (hs : s.Inv) : (s.pointWrite idx v q t).Inv :=
  hs.pointWriteSat

theorem State.Inv.markPoint {idx : Nat} {f : Byte → Byte} (hs : s.Inv) : (s.markPoint idx f).Inv := by
  unfold State.markPoint
  split
  · exact hs
  · split
    · exact hs.frame
    · exact hs.putEntry

theorem State.Inv.writeBound {t : SrcType} {ref : Nat} {v : Word} {q : Byte} {time : Nat} (hs : s.Inv) : (s.writeBound t ref v q time).Inv := by
  unfold State.writeBound
  split
  · exact hs.pointWrite
  · exact hs

theorem State.Inv.setFrameT {type inst t : Nat} (hs : s.Inv) : (s.setFrameT type inst t).Inv :=
  hs.frame

theorem State.Inv.hotUe {h : Nat} (hs : s.Inv) : (s.hotUe h).Inv := by
  unfold State.hotUe
  exact hs.frame.err.irq.raise

theorem State.Inv.hotEcc {h : Nat} {x2 : EccRead} (hs : s.Inv) : (s.hotEcc h x2).Inv := by
  unfold State.hotEcc
  split
  · exact hs
  · exact hs.frame
  · exact hs.hotUe

theorem State.Inv.grantCount (hs : s.Inv) : s.grantCount.Inv :=
  hs.draw_snd.draw_snd.frame

theorem State.Inv.keeps_execPtdUeLogClear {p : Principal} (hs : s.Inv) : KeepsInv (execPtdUeLogClear p s) :=
  (hs.gated (fun _ h => h.frame)).next

theorem State.Inv.appWrite {idx : Nat} {v : Word} {q : Byte} (hs : s.Inv) : (s.appWrite idx v q).Inv :=
  .ite (fun _ => hs.err) fun _ => .ite (fun _ => hs.putEntry) fun _ => .ite (fun _ => hs.pointWriteSat) fun _ => hs.err

theorem State.Inv.keeps_execStaleTimeout {idx : Nat} (hs : s.Inv) : KeepsInv (execStaleTimeout idx s) :=
  (State.Inv.ite (fun _ => hs.markPoint) fun _ => hs).next

end Sys2Proof.Machine
end

section
/-!
SUPPORT. What keeps the invariant: the engines of the field and of motion (acquisition, control engine, field outputs, motion, coordinates) and the
time unit.
-/

namespace Sys2Proof.Machine

set_option Elab.async false

variable {s : State}

/-! ### The acquisition engine (R365–R379): the trigger sequencer, channels and blocks, sessions -/

theorem State.Inv.updAcq {f : Acq → Acq} (hs : s.Inv) : (s.updAcq f).Inv :=
  hs.frame

theorem State.Inv.closeBlock {c : Nat} (hs : s.Inv) : (s.closeBlock c).Inv :=
  .ite (fun _ => hs) fun _ => hs.frame

theorem State.Inv.dropSample {c : Nat} (hs : s.Inv) : (s.dropSample c).Inv :=
  .ite (fun _ => hs.frame.irq) fun _ => hs.frame

theorem State.Inv.endGap {c : Nat} (hs : s.Inv) : (s.endGap c).Inv :=
  .ite (fun _ => hs) fun _ => hs.record.updAcq

theorem State.Inv.recordSample {c : Nat} {x : Int} {t qual : Nat} {bad : Bool} (hs : s.Inv) : (s.recordSample c x t qual bad).Inv :=
  .ite (fun _ => hs) fun _ => .ite (fun _ => hs.dropSample) fun _ => .ite (fun _ => (State.Inv.ite (fun _ => hs.closeBlock) fun _ => hs).endGap.updAcq.closeBlock) fun _ => (State.Inv.ite (fun _ => hs.closeBlock) fun _ => hs).endGap.updAcq

theorem State.Inv.armSlots_ {evs : List AcqEv} (hs : s.Inv) : (s.armSlots_ evs).Inv :=
  .foldl (fun _ _ hs' => .ite (fun _ => hs'.frame) fun _ => hs') _ _ hs

theorem State.Inv.lastGap {c : Nat} (hs : s.Inv) : (s.lastGap c).Inv :=
  .ite (fun _ => hs) fun _ => hs.record.updAcq

theorem State.Inv.endSession {st : SessState} {cause : Nat} (hs : s.Inv) : (s.endSession st cause).Inv :=
  (State.Inv.foldl (fun _ _ hs' => hs'.closeBlock.lastGap) _ _ hs).updAcq.record.irq.updHd

theorem State.Inv.acceptTrigger {slot typ t tick : Nat} (hs : s.Inv) : (s.acceptTrigger slot typ t tick).Inv := by
  unfold State.acceptTrigger
  exact hs.storeRam.updAcq.record.irq

theorem State.Inv.fabSend {line t tick : Nat} (hs : s.Inv) : (s.fabSend line t tick).Inv :=
  .ite (fun _ => hs.frame) fun _ => .foldl (fun _ _ hs' => hs'.aveTo) _ _ hs.frame

theorem State.Inv.fireSlot {slot t tick : Nat} (hs : s.Inv) : (s.fireSlot slot t tick).Inv := by
  unfold State.fireSlot
  exact (State.Inv.ite (fun _ => (State.Inv.ite (fun _ => (State.Inv.foldl (fun _ _ hs' => hs'.frame) _ _ (.ite (fun _ => .ite (fun _ => (State.Inv.ite (fun _ => .ite (fun _ => (State.Inv.ite (fun _ => hs.frame) fun _ => hs).acceptTrigger) fun _ => (State.Inv.ite (fun _ => hs.frame) fun _ => hs).updAcq) fun _ => .ite (fun _ => hs.frame) fun _ => hs).updAcq) fun _ => .ite (fun _ => (State.Inv.ite (fun _ => .ite (fun _ => (State.Inv.ite (fun _ => hs.frame) fun _ => hs).acceptTrigger) fun _ => (State.Inv.ite (fun _ => hs.frame) fun _ => hs).updAcq) fun _ => .ite (fun _ => hs.frame) fun _ => hs).endSession) fun _ => .ite (fun _ => .ite (fun _ => (State.Inv.ite (fun _ => hs.frame) fun _ => hs).acceptTrigger) fun _ => (State.Inv.ite (fun _ => hs.frame) fun _ => hs).updAcq) fun _ => .ite (fun _ => hs.frame) fun _ => hs) fun _ => .ite (fun _ => .ite (fun _ => (State.Inv.ite (fun _ => hs.frame) fun _ => hs).acceptTrigger) fun _ => (State.Inv.ite (fun _ => hs.frame) fun _ => hs).updAcq) fun _ => .ite (fun _ => hs.frame) fun _ => hs)).fabSend) fun _ => .foldl (fun _ _ hs' => hs'.frame) _ _ (.ite (fun _ => .ite (fun _ => (State.Inv.ite (fun _ => .ite (fun _ => (State.Inv.ite (fun _ => hs.frame) fun _ => hs).acceptTrigger) fun _ => (State.Inv.ite (fun _ => hs.frame) fun _ => hs).updAcq) fun _ => .ite (fun _ => hs.frame) fun _ => hs).updAcq) fun _ => .ite (fun _ => (State.Inv.ite (fun _ => .ite (fun _ => (State.Inv.ite (fun _ => hs.frame) fun _ => hs).acceptTrigger) fun _ => (State.Inv.ite (fun _ => hs.frame) fun _ => hs).updAcq) fun _ => .ite (fun _ => hs.frame) fun _ => hs).endSession) fun _ => .ite (fun _ => .ite (fun _ => (State.Inv.ite (fun _ => hs.frame) fun _ => hs).acceptTrigger) fun _ => (State.Inv.ite (fun _ => hs.frame) fun _ => hs).updAcq) fun _ => .ite (fun _ => hs.frame) fun _ => hs) fun _ => .ite (fun _ => .ite (fun _ => (State.Inv.ite (fun _ => hs.frame) fun _ => hs).acceptTrigger) fun _ => (State.Inv.ite (fun _ => hs.frame) fun _ => hs).updAcq) fun _ => .ite (fun _ => hs.frame) fun _ => hs)).updAcq) fun _ => .ite (fun _ => (State.Inv.foldl (fun _ _ hs' => hs'.frame) _ _ (.ite (fun _ => .ite (fun _ => (State.Inv.ite (fun _ => .ite (fun _ => (State.Inv.ite (fun _ => hs.frame) fun _ => hs).acceptTrigger) fun _ => (State.Inv.ite (fun _ => hs.frame) fun _ => hs).updAcq) fun _ => .ite (fun _ => hs.frame) fun _ => hs).updAcq) fun _ => .ite (fun _ => (State.Inv.ite (fun _ => .ite (fun _ => (State.Inv.ite (fun _ => hs.frame) fun _ => hs).acceptTrigger) fun _ => (State.Inv.ite (fun _ => hs.frame) fun _ => hs).updAcq) fun _ => .ite (fun _ => hs.frame) fun _ => hs).endSession) fun _ => .ite (fun _ => .ite (fun _ => (State.Inv.ite (fun _ => hs.frame) fun _ => hs).acceptTrigger) fun _ => (State.Inv.ite (fun _ => hs.frame) fun _ => hs).updAcq) fun _ => .ite (fun _ => hs.frame) fun _ => hs) fun _ => .ite (fun _ => .ite (fun _ => (State.Inv.ite (fun _ => hs.frame) fun _ => hs).acceptTrigger) fun _ => (State.Inv.ite (fun _ => hs.frame) fun _ => hs).updAcq) fun _ => .ite (fun _ => hs.frame) fun _ => hs)).fabSend) fun _ => .foldl (fun _ _ hs' => hs'.frame) _ _ (.ite (fun _ => .ite (fun _ => (State.Inv.ite (fun _ => .ite (fun _ => (State.Inv.ite (fun _ => hs.frame) fun _ => hs).acceptTrigger) fun _ => (State.Inv.ite (fun _ => hs.frame) fun _ => hs).updAcq) fun _ => .ite (fun _ => hs.frame) fun _ => hs).updAcq) fun _ => .ite (fun _ => (State.Inv.ite (fun _ => .ite (fun _ => (State.Inv.ite (fun _ => hs.frame) fun _ => hs).acceptTrigger) fun _ => (State.Inv.ite (fun _ => hs.frame) fun _ => hs).updAcq) fun _ => .ite (fun _ => hs.frame) fun _ => hs).endSession) fun _ => .ite (fun _ => .ite (fun _ => (State.Inv.ite (fun _ => hs.frame) fun _ => hs).acceptTrigger) fun _ => (State.Inv.ite (fun _ => hs.frame) fun _ => hs).updAcq) fun _ => .ite (fun _ => hs.frame) fun _ => hs) fun _ => .ite (fun _ => .ite (fun _ => (State.Inv.ite (fun _ => hs.frame) fun _ => hs).acceptTrigger) fun _ => (State.Inv.ite (fun _ => hs.frame) fun _ => hs).updAcq) fun _ => .ite (fun _ => hs.frame) fun _ => hs)).updAcq

theorem State.Inv.seqEval (hs : s.Inv) {evs : List AcqEv} {tick n : Nat} : (s.seqEval evs tick n).Inv := by
  induction n generalizing s evs tick with
  | zero => exact hs
  | succ n ih =>
    unfold State.seqEval
    split
    · exact hs
    · split
      · exact ih hs.fireSlot
      · exact hs.armSlots_

theorem State.Inv.seqEvents {evs : List AcqEv} {tick : Nat} (hs : s.Inv) : (s.seqEvents evs tick).Inv :=
  hs.seqEval

theorem State.Inv.acqLine {line t tick : Nat} (hs : s.Inv) : (s.acqLine line t tick).Inv :=
  hs.seqEvents

theorem State.Inv.chanSamples {xs : List (Nat × Int × Nat × Bool)} {t tick : Nat} (hs : s.Inv) : (s.chanSamples xs t tick).Inv :=
  .foldl (fun _ _ hs' => hs'.recordSample.updAcq) _ _ hs.seqEvents

theorem State.Inv.acqAdc {vals : List (Int × Byte)} {t : Nat} (hs : s.Inv) : (s.acqAdc vals t).Inv :=
  .ite (fun _ => hs) fun _ => hs.chanSamples

theorem State.Inv.keeps_execAcqPointSample {skipped : Bool} (hs : s.Inv) : KeepsInv (execAcqPointSample skipped s) :=
  (State.Inv.ite (fun _ => hs) fun _ => (State.Inv.ite (fun _ => hs.frame) fun _ => hs).chanSamples).next

theorem State.Inv.keeps_execAcqTimerExpiry {k : Fin 4} (hs : s.Inv) : KeepsInv (execAcqTimerExpiry k s) := by
  unfold execAcqTimerExpiry
  refine State.Inv.next ?_
  split
  · exact hs.frame.seqEvents
  · exact hs

theorem State.Inv.keeps_execAcqTflagSet {p : Principal} {m : Word} (hs : s.Inv) : KeepsInv (execAcqTflagSet p m s) :=
  (hs.gated (fun _ h => h.frame.seqEvents)).next

theorem State.Inv.keeps_execAcqFlagClear {p : Principal} {i : Fin 2} {m : Word} (hs : s.Inv) : KeepsInv (execAcqFlagClear p i m s) :=
  (hs.gated (fun _ h => h.frame)).next

theorem State.Inv.acqResult {e ch : Nat} (hs : s.Inv) : (s.acqResult e ch).Inv :=
  .ite (fun _ => hs.frame) fun _ => hs.frame.err

theorem State.Inv.keeps_execAcqArm {p : Principal} {fabricOk : Bool} (hs : s.Inv) : KeepsInv (execAcqArm p fabricOk s) :=
  (hs.gated (fun _ h => (State.Inv.ite (fun _ => h.frame) fun _ => h).acqResult)).next

theorem State.Inv.acqArmEffective (hs : s.Inv) : s.acqArmEffective.Inv :=
  .ite (fun _ => hs) fun _ => hs.storeRam.updAcq.record.updHd

theorem State.Inv.logMark {b : Nat} (hs : s.Inv) : (s.logMark b).Inv :=
  hs.storeRam

theorem State.Inv.keeps_execAcqStop {p : Principal} (hs : s.Inv) : KeepsInv (execAcqStop p s) := by
  unfold execAcqStop
  refine State.Inv.next ?_
  refine State.Inv.gated hs (fun s' hs' => ?_)
  split
  · exact hs'.endSession.acqResult
  · exact hs'.endSession.acqResult
  · exact hs'.logMark.endSession.acqResult
  · exact hs'.acqResult

theorem State.Inv.acqRunStop (hs : s.Inv) : s.acqRunStop.Inv := by
  unfold State.acqRunStop
  split
  · exact hs
  · split
    · exact hs.endSession
    · exact hs.endSession
    · exact hs.logMark.endSession
    · exact hs.frame
    · exact hs.frame

theorem State.Inv.keeps_execAcqClear {p : Principal} (hs : s.Inv) : KeepsInv (execAcqClear p s) :=
  (hs.gated (fun _ h => .ite (fun _ => h.frame.acqResult) fun _ => h.acqResult)).next

theorem State.Inv.keeps_execAcqPostComplete (hs : s.Inv) : KeepsInv (execAcqPostComplete s) := by
  unfold execAcqPostComplete
  refine State.Inv.next ?_
  extract_lets s0 s1
  have hs0 : s0.Inv := .ite (fun _ => hs.logMark) fun _ => hs
  have hs1 : s1.Inv := .foldl (fun _ _ h => h.closeBlock) _ _ hs0
  exact .ite (fun _ => hs) fun _ => .ite (fun _ => hs1.endSession) fun _ => .ite (fun _ => hs1.endSession) fun _ => hs1.updAcq

theorem State.Inv.keeps_execAcqRearmComplete (hs : s.Inv) : KeepsInv (execAcqRearmComplete s) :=
  (State.Inv.ite (fun _ => hs) fun _ => hs.storeRam.updAcq.record).next

theorem State.Inv.keeps_execAcqBlockWritten {failed : Bool} (hs : s.Inv) : KeepsInv (execAcqBlockWritten failed s) := by
  unfold execAcqBlockWritten
  refine State.Inv.next ?_
  split
  · exact hs
  · exact .ite (fun _ => hs.frame.draw_snd.storeRam.err) fun _ => hs.frame.storeRam

/-! ### The control engine's commits and commands: loop descriptors with their checks and admission (R78–R82, R97, R104–R109, R117, R127, R129, R132),
compensation tables (R124–R128), mode commands (R101, R102), supervision and ramp requests (R118, R122, R131) and the event bits (R111, R134) -/

theorem State.Inv.setRefs {b : Block} {desc : Nat} {rs : List (Nat × Bool)} (hs : s.Inv) : (s.setRefs b desc rs).Inv :=
  hs.frame

theorem State.Inv.loopEvt {n b : Nat} (hs : s.Inv) : (s.loopEvt n b).Inv :=
  hs.of_same (State.loopEvt_same _ _ _) rfl

theorem State.Inv.updPend {n : Nat} {f : LoopPend → LoopPend} (hs : s.Inv) : (s.updPend n f).Inv :=
  hs.frame

theorem State.Inv.clearCommit {a : Nat} (hs : s.Inv) : (s.clearCommit a).Inv :=
  hs.store32

theorem State.Inv.loopRefuse {n e : Nat} (hs : s.Inv) : (s.loopRefuse n e).Inv :=
  hs.frame.err.record.loopEvt

theorem State.Inv.keeps_execCeLoopGo {p : Principal} {n : Fin 1024} (hs : s.Inv) : KeepsInv (execCeLoopGo p n s) := by
  unfold execCeLoopGo
  refine State.Inv.next ?_
  refine State.Inv.gated hs (fun s' hs' => ?_)
  split
  · exact hs'.err
  · split
    · extract_lets x x'
      have hx : x.Inv := hs'.store32
      exact hx.frame
    · exact hs'.loopRefuse

theorem State.Inv.dropPend {n : Nat} (hs : s.Inv) : (s.dropPend n).Inv :=
  .ite (fun _ => hs.frame.err) fun _ => hs.frame

theorem State.Inv.loopApply {n : Nat} {d : LoopDesc} {pl : LoopPlace} (hs : s.Inv) : (s.loopApply n d pl).Inv :=
  (State.Inv.ite (fun _ => (State.Inv.ite (fun _ => hs.frame) fun _ => hs.frame).dropPend) fun _ => .ite (fun _ => hs.frame) fun _ => hs.frame).setRefs

theorem State.Inv.keeps_execLoopCommitDone (hs : s.Inv) : KeepsInv (execLoopCommitDone s) := by
  unfold execLoopCommitDone
  refine State.Inv.next ?_
  split
  · exact hs
  · exact .ite (fun _ => hs.clearCommit.loopRefuse) fun _ => .ite (fun _ => hs.clearCommit.loopRefuse) fun _ => hs.clearCommit.loopApply.record.loopEvt

theorem State.Inv.modeCmd {n : Nat} {m : Option LMode} {man : Option Int} {cause : Nat} (hs : s.Inv) : (s.modeCmd n m man cause).Inv :=
  .ite (fun _ => hs.frame.err) fun _ => hs.frame

theorem State.Inv.modeWrite {p : Principal} {n : Nat} {m : Option LMode} {man : Option (BitVec 16)} (hs : s.Inv) : (s.modeWrite p n m man).Inv :=
  hs.gated (fun _ h => h.modeCmd)

theorem State.Inv.keeps_execLoopCmdOff {p : Principal} {n : Fin 1024} (hs : s.Inv) : KeepsInv (execLoopCmdOff p n s) :=
  hs.modeWrite.next

theorem State.Inv.keeps_execLoopCmdManual {p : Principal} {n : Fin 1024} (hs : s.Inv) : KeepsInv (execLoopCmdManual p n s) :=
  hs.modeWrite.next

theorem State.Inv.keeps_execLoopCmdAuto {p : Principal} {n : Fin 1024} (hs : s.Inv) : KeepsInv (execLoopCmdAuto p n s) :=
  hs.modeWrite.next

theorem State.Inv.keeps_execLoopCmdCascade {p : Principal} {n : Fin 1024} (hs : s.Inv) : KeepsInv (execLoopCmdCascade p n s) :=
  hs.modeWrite.next

theorem State.Inv.keeps_execLoopCmdSafe {p : Principal} {n : Fin 1024} (hs : s.Inv) : KeepsInv (execLoopCmdSafe p n s) :=
  hs.modeWrite.next

theorem State.Inv.keeps_execLoopCmdKeep {p : Principal} {n : Fin 1024} (hs : s.Inv) : KeepsInv (execLoopCmdKeep p n s) :=
  hs.modeWrite.next

theorem State.Inv.keeps_execLoopSetMan {p : Principal} {n : Fin 1024} {m : Option LMode} {man : BitVec 16} (hs : s.Inv) : KeepsInv (execLoopSetMan p n m man s) :=
  hs.modeWrite.next

theorem State.Inv.keeps_execCeEvtClear {p : Principal} {i : Fin 32} {m : Word} (hs : s.Inv) : KeepsInv (execCeEvtClear p i m s) :=
  (hs.gated (fun _ h => h.frame)).next

theorem State.Inv.supCmd {n : Nat} {ack align : Bool} (hs : s.Inv) : (s.supCmd n ack align).Inv :=
  .ite (fun _ => hs.frame) fun _ => hs.frame

theorem State.Inv.keeps_execSupAck {p : Principal} {n : Fin 1024} {align : Bool} (hs : s.Inv) : KeepsInv (execSupAck p n align s) :=
  (hs.gated (fun _ h => h.supCmd)).next

theorem State.Inv.keeps_execSupAlign {p : Principal} {n : Fin 1024} (hs : s.Inv) : KeepsInv (execSupAlign p n s) :=
  (hs.gated (fun _ h => h.supCmd)).next

theorem State.Inv.rampCmd {n rate : Nat} (hs : s.Inv) : (s.rampCmd n rate).Inv :=
  hs.of_same (State.rampCmd_same _ _ _) rfl

theorem State.Inv.keeps_execCeRampCmd {p : Principal} {n : Fin 1024} {rate : BitVec 16} (hs : s.Inv) : KeepsInv (execCeRampCmd p n rate s) :=
  (hs.gated (fun _ h => h.rampCmd)).next

theorem State.Inv.keeps_execCeTripClear {p : Principal} {i : Fin 32} {m : Word} (hs : s.Inv) : KeepsInv (execCeTripClear p i m s) :=
  (hs.gated (fun _ h => h.frame)).next

theorem State.Inv.tabRefuse {t e : Nat} (hs : s.Inv) : (s.tabRefuse t e).Inv := by
  unfold State.tabRefuse
  exact hs.frame.err.record.irq

theorem State.Inv.keeps_execCeTabGo {p : Principal} {t : Fin 16} (hs : s.Inv) : KeepsInv (execCeTabGo p t s) := by
  unfold execCeTabGo
  refine State.Inv.next ?_
  refine State.Inv.gated hs (fun s' hs' => ?_)
  split
  · exact hs'.err
  · exact .ite (fun _ => hs'.frame) fun _ => hs'.tabRefuse

theorem State.Inv.keeps_execTabCopyDone (hs : s.Inv) : KeepsInv (execTabCopyDone s) := by
  unfold execTabCopyDone
  refine State.Inv.next ?_
  split
  · exact hs
  · exact .ite (fun _ => hs.frame.tabRefuse) fun _ => hs.frame

theorem State.Inv.tabSwitch {t : Nat} {c : CompTab} (hs : s.Inv) : (s.tabSwitch t c).Inv := by
  unfold State.tabSwitch
  exact hs.frame.record.irq

theorem State.Inv.tabBoundary (hs : s.Inv) : s.tabBoundary.Inv := by
  unfold State.tabBoundary
  refine .foldl (fun _ _ hs' => ?_) _ _ hs.frame
  split
  · exact hs'.tabSwitch
  · exact hs'

/-! ### The outputs of the field die: what drives a universal output (R298, Table FIO-3) and an analog output (R306), and the commands that reach them
-/

theorem State.Inv.aoCommands {t : Nat} (hs : s.Inv) : (s.aoCommands t).Inv :=
  hs.frame

theorem State.Inv.fioWord {k : Nat} {on : Bool} (hs : s.Inv) : (s.fioWord k on).Inv :=
  hs.of_same (State.fioWord_same _ _ _) rfl

theorem State.Inv.fioPoint {idx t : Nat} (hs : s.Inv) : (s.fioPoint idx t).Inv :=
  hs.of_same (State.fioPoint_same _ _ _) rfl

/-! ### Admission of the Lane ports (R315, R317, R319): station descriptors, remote-action targets, window timing and class B load -/

theorem State.Inv.takeAdmission {p : Nat} {a : Admission} (hs : s.Inv) : (s.takeAdmission p a).Inv :=
  .foldl (fun _ _ hs' => hs'.frame) _ _ (.foldl (fun _ _ hs' => hs'.frame) _ _ hs.frame)

theorem State.Inv.readmit_snd_snd (hs : s.Inv) {rem : List RemoteTgt} {slots : Nat → Nat} : (s.readmit rem slots).2.2.Inv := by
  unfold State.readmit
  split
  split
  · exact hs
  · exact .foldl (fun _ _ h => h.takeAdmission) _ _ hs

theorem State.Inv.of_readmit (hs : s.Inv) {rem : List RemoteTgt} {slots : Nat → Nat} {c k : Nat} {t : State}
    (e : s.readmit rem slots = (c, k, t)) : t.Inv := by
  have h := hs.readmit_snd_snd (rem := rem) (slots := slots)
  rw [e] at h
  exact h

/-! ### The motion engine at work: positions, phase drive (R219–R224), encoders and latches (R228–R230), events and faults (R237), the stop of groups
(R234) and the snapshot of MOT's points (R229) -/

theorem State.Inv.updMot {f : Mot → Mot} (hs : s.Inv) : (s.updMot f).Inv :=
  hs.frame

theorem State.Inv.updAxis {n : Nat} {f : Axis → Axis} (hs : s.Inv) : (s.updAxis n f).Inv :=
  hs.frame

theorem State.Inv.updGrp {g : Nat} {f : Grp → Grp} (hs : s.Inv) : (s.updGrp g f).Inv :=
  hs.frame

theorem State.Inv.updDrive {d : Nat} {f : Drive → Drive} (hs : s.Inv) : (s.updDrive d f).Inv :=
  hs.frame

theorem State.Inv.axisEvt {n : Nat} (hs : s.Inv) : (s.axisEvt n).Inv :=
  hs.frame.irq.routeEvt

theorem State.Inv.axisTo {n : Nat} {st : AxState} {cause : Nat} (hs : s.Inv) : (s.axisTo n st cause).Inv :=
  State.axisTo_inv _ _ _ _ hs

theorem State.Inv.setPhase {n : Nat} {m : PhaseMode} (hs : s.Inv) : (s.setPhase n m).Inv :=
  hs.of_same (State.setPhase_same _ _ _) rfl

theorem State.Inv.rest {n cause : Nat} (hs : s.Inv) : (s.rest n cause).Inv :=
  hs.axisTo.updAxis.setPhase

theorem State.Inv.grpStopAt {gi : Nat} {quick : Bool} {except : Option Nat} {cause : Nat} {mid : Bool} (hs : s.Inv) : (s.grpStopAt gi quick except cause mid).Inv :=
  .ite (fun _ => hs) fun _ => .foldl (fun _ _ hs' => .ite (fun _ => hs'.axisTo.updAxis) fun _ => hs') _ _ hs.frame

theorem State.Inv.grpStop {gi : Nat} {quick : Bool} {except : Option Nat} {cause : Nat} (hs : s.Inv) : (s.grpStop gi quick except cause).Inv :=
  hs.grpStopAt

theorem State.Inv.axisFault {n cause : Nat} (hs : s.Inv) : (s.axisFault n cause).Inv := by
  unfold State.axisFault
  dsimp only
  split
  · exact hs.axisTo.record.updAxis.setPhase.axisEvt.irq.grpStop
  · exact hs.axisTo.record.updAxis.setPhase.axisEvt.irq

theorem State.Inv.axisUe {n : Nat} (hs : s.Inv) : (s.axisUe n).Inv :=
  hs.frame.err

theorem State.Inv.axisOff {n cause : Nat} (hs : s.Inv) : (s.axisOff n cause).Inv := by
  unfold State.axisOff
  dsimp only
  split
  · exact hs
  · split
    · exact hs.axisTo.updAxis.setPhase.grpStopAt
    · exact hs.axisTo.updAxis.setPhase

theorem State.Inv.axesLeave (hs : s.Inv) : s.axesLeave.Inv :=
  State.axesLeave_inv _ hs

theorem State.Inv.driveBy_fst {n : Nat} {p v : Rat} (hs : s.Inv) : (s.drive_ n p v).1.Inv := by
  unfold State.drive_
  refine State.Inv.updAxis ?_
  split
  · exact hs
  · exact hs.draw_snd

theorem State.Inv.readVbus {n : Nat} (hs : s.Inv) : (s.readVbus n).Inv :=
  hs.frame

theorem State.Inv.pwmPeriod {d t : Nat} (hs : s.Inv) : (s.pwmPeriod d t).Inv := by
  unfold State.pwmPeriod
  dsimp only
  split
  · exact hs.updDrive
  · split
    · exact hs.readVbus.updAxis.updDrive
    · exact hs.readVbus.updAxis.updDrive
    · exact hs.readVbus.driveBy_fst.updDrive

theorem State.Inv.keeps_execPwmPeriod {d : Fin 16} {t : PwmStart} (hs : s.Inv) : KeepsInv (execPwmPeriod d t s) := by
  unfold execPwmPeriod
  refine State.Inv.next ?_
  extract_lets s1
  have hs1 : s1.Inv := by
    unfold s1
    split
    · exact hs.axisUe
    · exact hs
  exact hs1.pwmPeriod

theorem State.Inv.keeps_execHoldDelayExpiry {n : Fin 128} (hs : s.Inv) : KeepsInv (execHoldDelayExpiry n s) :=
  (State.Inv.ite (fun _ => hs.frame.setPhase) fun _ => hs).next

theorem State.Inv.followPoint {idx t : Nat} (hs : s.Inv) : (s.followPoint idx t).Inv :=
  hs.of_same (State.followPoint_same _ _ _) rfl

theorem State.Inv.capture {n t src : Nat} (hs : s.Inv) : (s.capture n t src).Inv :=
  hs.frame.record.axisEvt

theorem State.Inv.latchEvent {src : Nat} {rising : Bool} {t : Nat} (hs : s.Inv) : (s.latchEvent src rising t).Inv :=
  .foldl (fun _ _ hs' => hs'.capture) _ _ hs

theorem State.Inv.encEdge {n : Nat} {a b i : Bool} {held t : Nat} (hs : s.Inv) : (s.encEdge n a b i held t).Inv :=
  .ite (fun _ => hs.frame) fun _ => .ite (fun _ => hs) fun _ => .ite (fun _ => .foldl (fun _ _ hs' => hs'.frame) _ _ (State.Inv.ite (fun _ => .foldl (fun _ _ hs' => hs'.frame) _ _ hs.frame.irq.record) fun _ => .ite (fun _ => hs.frame) fun _ => hs).updMot) fun _ => (State.Inv.ite (fun _ => .foldl (fun _ _ hs' => hs'.frame) _ _ hs.frame.irq.record) fun _ => .ite (fun _ => hs.frame) fun _ => hs).updMot

theorem State.Inv.motSnapshot (hs : s.Inv) : s.motSnapshot.Inv :=
  .ite (fun _ => hs) fun _ => .foldl (fun _ _ hs1 => hs1.pointWrite.setFrameT.followPoint) _ _ hs

theorem State.Inv.motLatchPoint {k t : Nat} (hs : s.Inv) : (s.motLatchPoint k t).Inv := by
  unfold State.motLatchPoint
  split
  · exact .ite (fun _ => hs.pointWrite) fun _ => hs
  · exact hs

theorem State.Inv.motEncPoint {i : Nat} (hs : s.Inv) : (s.motEncPoint i).Inv :=
  hs.pointWrite

/-! ### The coordinate scheduler (R185–R208): tracking, firing, arming and cancelling, armed remote actions and entry commits -/

theorem State.Inv.updCsc {f : Csc → Csc} (hs : s.Inv) : (s.updCsc f).Inv :=
  hs.frame

theorem State.Inv.updCoord {c : Nat} {f : Coord → Coord} (hs : s.Inv) : (s.updCoord c f).Inv :=
  hs.frame

theorem State.Inv.updEnt {n : Nat} {f : Act → Act} (hs : s.Inv) : (s.updEnt n f).Inv :=
  hs.frame

theorem State.Inv.setValid {c : Nat} {ok : Bool} {cause t : Nat} (hs : s.Inv) : (s.setValid c ok cause t).Inv :=
  .ite (fun _ => hs) fun _ => .ite (fun _ => hs.frame.irq.record) fun _ => hs.frame.irq.record

theorem State.Inv.judgeCoord {c t : Nat} (hs : s.Inv) : (s.judgeCoord c t).Inv :=
  .ite (fun _ => hs) fun _ => hs.setValid

theorem State.Inv.judgeCoords {t : Nat} (hs : s.Inv) : (s.judgeCoords t).Inv := by
  unfold State.judgeCoords
  refine .foldl (fun _ _ hs' => ?_) _ _ hs
  refine State.Inv.judgeCoord ?_
  split
  · exact .ite (fun _ => hs'.setValid) fun _ => hs'
  · exact hs'

theorem State.Inv.pulseEdge {src t : Nat} (hs : s.Inv) : (s.pulseEdge src t).Inv :=
  hs.of_same (State.pulseEdge_same _ _ _) rfl

theorem State.Inv.encCoordEdge {n : Nat} (hs : s.Inv) : (s.encCoordEdge n).Inv :=
  hs.of_same (State.encCoordEdge_same _ _) rfl

theorem State.Inv.indexEdge {n : Nat} {count : Int} {up : Bool} (hs : s.Inv) : (s.indexEdge n count up).Inv :=
  hs.of_same (State.indexEdge_same _ _ _ _) rfl

theorem State.Inv.keeps_execCoordEdgeTimeout {c : Fin 32} (hs : s.Inv) : KeepsInv (execCoordEdgeTimeout c s) :=
  hs.frame.next

theorem State.Inv.pllSet {c t : Nat} {p : Rat} (hs : s.Inv) : (s.pllSet c t p).Inv :=
  hs.draw_snd.updCoord

theorem State.Inv.pllLose {c t : Nat} (hs : s.Inv) : (s.pllLose c t).Inv :=
  hs.frame.judgeCoord

theorem State.Inv.pllAcquire {c i t : Nat} (hs : s.Inv) : (s.pllAcquire c i t).Inv :=
  .ite (fun _ => hs.frame) fun _ => hs.frame.pllSet.judgeCoord.updCsc

theorem State.Inv.pllEdge {c i t : Nat} (hs : s.Inv) : (s.pllEdge c i t).Inv :=
  .ite (fun _ => hs.frame) fun _ => .ite (fun _ => hs.pllLose) fun _ => hs.frame.pllSet.updCsc

theorem State.Inv.keeps_execZcEdge {i : Fin 2} {t : Nat} (hs : s.Inv) : KeepsInv (execZcEdge i t s) :=
  (State.Inv.foldl (fun _ _ hs' => .ite (fun _ => hs'.pllEdge) fun _ => hs'.pllAcquire) _ _ hs).next

theorem State.Inv.keeps_execPhaseLockLoss {c : Fin 32} {t : Nat} (hs : s.Inv) : KeepsInv (execPhaseLockLoss c t s) :=
  (State.Inv.ite (fun _ => hs.pllLose) fun _ => hs).next

theorem State.Inv.actResult {e n : Nat} (hs : s.Inv) : (s.actResult e n).Inv :=
  .ite (fun _ => hs.frame.irq) fun _ => hs.frame.irq.err

theorem State.Inv.keeps_execCscActGo {p : Principal} {first : Fin 65536} {count : Fin 256} (hs : s.Inv) : KeepsInv (execCscActGo p first count s) := by
  unfold execCscActGo
  refine State.Inv.next ?_
  refine State.Inv.gated hs (fun s' hs' => ?_)
  split
  · exact hs'.err
  · extract_lets run
    split
    · exact hs'.actResult
    · exact (State.Inv.foldl (fun _ _ hs'' => hs''.store32) _ _ hs').updCsc

theorem State.Inv.keeps_execActCommitDone (hs : s.Inv) : KeepsInv (execActCommitDone s) := by
  unfold execActCommitDone
  refine State.Inv.next ?_
  split
  · exact hs
  · rename_i first count _
    dsimp only
    have cleared {t : State} (ht : t.Inv) : ((runOf first count).foldl
        (fun s n => s.store32 (actEdit n) (clrBit (clrBit (s.mem32 (actEdit n)) 31) 30)) t).Inv := .foldl (fun _ _ h => h.store32) _ _ ht
    have readmitted (rem : List RemoteTgt) : (if rem = s.remoteTgts then (0, 0, s) else s.readmit rem s.armSlots).2.2.Inv := by
      split
      · exact hs
      · exact hs.readmit_snd_snd
    exact .ite (fun _ => (cleared hs).actResult) fun _ => .ite (fun _ => (cleared hs).actResult) fun _ =>
      (cleared (readmitted _)).updCsc.setRefs.actResult

theorem State.Inv.groupSettle {g : Nat} (hs : s.Inv) : (s.groupSettle g).Inv :=
  .ite (fun _ => hs.frame.irq.routeEvt.record) fun _ => hs

theorem State.Inv.groupEvt {g : Nat} (hs : s.Inv) : (s.groupEvt g).Inv :=
  hs.frame.irq.routeEvt

theorem State.Inv.actApply (hs : s.Inv) : s.actApply.Inv :=
  .ite (fun _ => hs) fun _ => .foldl (fun _ _ hs' => hs'.groupSettle) _ _ hs.frame

theorem OptInv.bind {o : Option State} (ho : OptInv o) {f : State → Option State} (hf : ∀ t, t.Inv → OptInv (f t)) : OptInv (o.bind f) := by
  cases o with
  | none => exact .none
  | some t => exact hf t (ho t rfl)

theorem State.Inv.placeRemote (hs : s.Inv) {ents : List Nat} {rel : Bool} {base ta : Nat} : OptInv (s.placeRemote ents rel base ta) := by
  refine List.foldlRecOn ents _ hs.some fun o ho n _ => ho.bind fun t ht => ?_
  dsimp only
  split
  · exact ht.some
  · split
    · exact ht.some
    · split
      · exact ht.frame.some
      · exact .none

theorem State.Inv.armReq_fst (hs : s.Inv) {g : Nat} {rel : Bool} {base : Option Nat} {rsq : Bool} {tc : Nat} : (s.armReq g rel base rsq tc).1.Inv := by
  have hs' : FstInv (s.armReq g rel base rsq tc) := by
    unfold State.armReq
    dsimp only
    refine .ite (fun _ => .mk hs.err) fun _ => .ite (fun _ => .mk hs.err) fun _ => ?_
    split
    · exact .mk hs.err
    · exact .mk (hs.placeRemote _ ‹_›).updCsc
  exact hs'

theorem State.Inv.missEnt {n cause : Nat} (hs : s.Inv) : (s.missEnt n cause).Inv :=
  hs.frame.record.groupEvt

theorem State.Inv.armEnt {n : Nat} {rel : Bool} {base ta : Nat} (hs : s.Inv) : (s.armEnt n rel base ta).Inv :=
  .ite (fun _ => hs) fun _ => .ite (fun _ => .ite (fun _ => hs.missEnt) fun _ => hs.frame) fun _ => hs.frame

theorem State.Inv.armEffective (hs : s.Inv) : s.armEffective.Inv :=
  .foldl (fun _ _ hs' => (State.Inv.foldl (fun _ _ hs'' => hs''.armEnt) _ _ hs'.frame.record).groupSettle) _ _ hs.frame

theorem State.Inv.outEdge {key n step : Nat} {on : Bool} {off : Option Nat} (hs : s.Inv) : (s.outEdge key n step on off).Inv :=
  .ite (fun _ => .ite (fun _ => hs.frame) fun _ => hs) fun _ => (State.Inv.ite (fun _ => hs.frame) fun _ => hs).updCsc

theorem State.Inv.cscTrail {t : Nat} (hs : s.Inv) : (s.cscTrail t).Inv :=
  .foldl (fun _ _ hs' => hs'.frame.fioWord) _ _ hs

theorem State.Inv.perform {n : Nat} {tx : Rat} {t : Nat} (hs : s.Inv) : (s.perform n tx t).Inv := by
  unfold State.perform
  dsimp only
  split
  · exact .ite (fun _ => hs.outEdge.fioWord) fun _ => hs.outEdge
  · exact .ite (fun _ => hs.outEdge.fioWord) fun _ => hs.outEdge
  · exact .ite (fun _ => hs.outEdge.fioWord) fun _ => hs.outEdge
  · exact hs.pointWrite.followPoint
  · exact hs.rampCmd
  · exact hs.acqLine
  · exact hs.raiseFlags
  · exact hs

theorem State.Inv.fireEnt {n : Nat} {tx : Rat} {t : Nat} (hs : s.Inv) : (s.fireEnt n tx t).Inv :=
  (State.Inv.ite (fun _ => hs.frame.perform.updCsc.updEnt) fun _ => hs.frame.perform.updCsc).groupSettle

theorem State.Inv.fireLimited {n : Nat} {tx : Rat} {t : Nat} (hs : s.Inv) : (s.fireLimited n tx t).Inv :=
  .ite (fun _ => hs.frame.fireEnt) fun _ => hs.frame.record.fireEnt

theorem State.Inv.keeps_execCoordCrossing {n : Fin 65536} {t : Nat} {ue : Bool} (hs : s.Inv) : KeepsInv (execCoordCrossing n t ue s) := by
  unfold execCoordCrossing
  refine State.Inv.next ?_
  extract_lets a
  split
  · exact hs
  · split
    · exact hs.missEnt.raise.groupSettle
    · split
      · exact hs
      · split
        · exact hs
        · exact hs.fireLimited

theorem State.Inv.updPort_ {p : Nat} {f : LPort → LPort} (hs : s.Inv) : (s.updPort_ p f).Inv :=
  hs.frame

theorem State.Inv.updSta {p k : Nat} {f : Sta → Sta} (hs : s.Inv) : (s.updSta p k f).Inv :=
  hs.frame

theorem State.Inv.sendArm {n tf w : Nat} (hs : s.Inv) : (s.sendArm n tf w).Inv :=
  (State.Inv.ite (fun _ => hs.frame.record) fun _ => hs).updPort_.updEnt.record

theorem State.Inv.keeps_execRemoteArmSend {n : Fin 65536} {t : Nat} (hs : s.Inv) : KeepsInv (execRemoteArmSend n t s) := by
  unfold execRemoteArmSend
  refine State.Inv.next ?_
  extract_lets a r w bs
  split
  · exact hs
  · split
    · exact hs
    · exact .ite (fun _ => hs.sendArm) fun _ => hs

theorem State.Inv.cscStepped {t0 t1 : Nat} (hs : s.Inv) : (s.cscStepped t0 t1).Inv :=
  .ite (fun _ => hs.frame) fun _ => .foldl (fun _ _ hs' => .ite (fun _ => hs'.record.fireLimited) fun _ => .ite (fun _ => hs'.record.sendArm) fun _ => hs'.record.updEnt) _ _ hs

theorem State.Inv.cancelEnt_fst (hs : s.Inv) {n t : Nat} {newEp : RemoteTgt → Nat} : (s.cancelEnt n t newEp).1.Inv := by
  have hs' : FstInv (s.cancelEnt n t newEp) := by
    unfold State.cancelEnt
    dsimp only
    split
    · refine .ite (fun _ => .mk hs.updEnt) fun _ => ?_
      split
      · exact .ite (fun _ => .mk hs.fireLimited.updEnt.record.updCsc) fun _ => .mk hs.updEnt
      · exact .mk hs.updEnt
    · exact .ite (fun _ => .mk hs.updEnt.record) fun _ => .mk hs.updEnt.record.updCsc
    · exact .mk hs
  exact hs'

theorem State.Inv.cancelReq_fst (hs : s.Inv) {g t : Nat} : (s.cancelReq g t).1.Inv := by
  unfold State.cancelReq
  refine FstInv.ite (fun _ => .mk hs) fun _ => ?_
  extract_lets ents tgts pss newEp slot tc ports
  split
  rename_i s1 c l he
  have hs1 : s1.Inv := by
    refine State.Inv.of_eq_mk ?_ he
    refine State.Inv.foldl_fst (fun r n h => ?_) ents _ hs
    dsimp only
    exact h.cancelEnt_fst
  extract_lets s2 s3 s4 s5
  have hs2 : s2.Inv := .foldl (fun _ _ h => h.updCsc) _ _ hs1
  have hs3 : s3.Inv := .foldl (fun _ _ h => h.updPort_) _ _ hs2
  have hs5 : s5.Inv := .ite (fun _ => hs3.record.groupEvt) fun _ => hs3.record
  exact hs5.groupSettle

theorem State.Inv.armStat {x : State × Nat × Nat} {g : Nat} (hx : State.Inv x.1) : (State.armStat x g).Inv := by
  unfold State.armStat
  exact hx.updCsc

theorem State.Inv.keeps_execCscArm (hs : s.Inv) {p : Principal} {g : Fin 256} {t : Nat} : KeepsInv (execCscArm p g t s) :=
  State.Inv.next (hs.gated fun _ hs => State.Inv.armStat hs.armReq_fst)

theorem State.Inv.keeps_execCscArmRel (hs : s.Inv) {p : Principal} {g : Fin 256} {t : Nat} : KeepsInv (execCscArmRel p g t s) :=
  State.Inv.next (hs.gated fun _ hs => State.Inv.armStat hs.armReq_fst)

theorem State.Inv.keeps_execCscCancel (hs : s.Inv) {p : Principal} {g : Fin 256} {t : Nat} : KeepsInv (execCscCancel p g t s) :=
  State.Inv.next (hs.gated fun _ hs => State.Inv.armStat hs.cancelReq_fst)

theorem State.Inv.stationEvent {p k typ slot ep out tLow : Nat} (hs : s.Inv) : (s.stationEvent p k typ slot ep out tLow).Inv := by
  unfold State.stationEvent
  dsimp only
  split
  · exact hs.frame
  · exact hs.frame.record.groupSettle
  · exact hs.frame.record.groupSettle
  · exact hs.frame.record.groupSettle
  · exact hs

theorem State.Inv.keeps_execCancelUnconfirmed {port : Fin 8} {sta : Fin 128} {slot : Fin 16} (hs : s.Inv) : KeepsInv (execCancelUnconfirmed port sta slot s) := by
  unfold execCancelUnconfirmed
  refine State.Inv.next ?_
  split
  · exact hs.frame.record
  · exact hs

theorem State.Inv.keeps_execCscEvtClear {p : Principal} {i : Fin 8} {m : Word} (hs : s.Inv) : KeepsInv (execCscEvtClear p i m s) :=
  (hs.gated (fun _ h => h.frame)).next

theorem State.Inv.cscCommitApply (hs : s.Inv) : s.cscCommitApply.Inv := by
  unfold State.cscCommitApply
  extract_lets changed s1 s2 s3
  have hs1 : s1.Inv := hs.frame
  have hs2 : s2.Inv := .foldl (fun _ _ hs' => hs'.frame.judgeCoord) _ _ hs1
  have hs3 : s3.Inv := .foldl (fun _ _ hs' => hs'.frame) _ _ hs2
  unfold State.readmit
  split
  rename_i x code sta r he
  split
  · exact hs3
  · exact .foldl (fun _ _ hs' => hs'.takeAdmission) _ _ hs3

theorem State.Inv.cscRunStop (hs : s.Inv) : s.cscRunStop.Inv := by
  unfold State.cscRunStop
  extract_lets open_ groups s1 s2
  have hs1 : s1.Inv := .foldl (fun _ _ h => h.cancelReq_fst) _ _ hs
  exact .ite (fun _ => hs1.updCsc) fun _ => hs1.updCsc.updHd

/-! ### The time unit: the servo, steps and sets of network time, transmit stamps (R346–R352, R355, R360–R363) -/

theorem State.Inv.updTim {f : Tim → Tim} (hs : s.Inv) : (s.updTim f).Inv :=
  hs.frame

theorem State.Inv.freqFrom {corr : Int} (hs : s.Inv) : (s.freqFrom corr).Inv :=
  hs.frame

theorem State.Inv.servoTo {st : Servo} (hs : s.Inv) : (s.servoTo st).Inv :=
  .ite (fun _ => hs.frame) fun _ => hs.frame.record.irq

theorem State.Inv.askStep_fst {o : Int} (hs : s.Inv) : (s.askStep o).1.Inv :=
  hs.frame

theorem State.Inv.servoPi {o : Int} (hs : s.Inv) : (s.servoPi o).Inv :=
  hs.frame

theorem State.Inv.measLocking {o : Int} (hs : s.Inv) : (s.measLocking o).Inv :=
  .ite (fun _ => hs.askStep_fst.servoTo.freqFrom) fun _ => .ite (fun _ => hs.frame.servoTo) fun _ => hs.frame

theorem State.Inv.measure {o : Int} (hs : s.Inv) : (s.measure o).Inv := by
  unfold State.measure
  dsimp only
  split
  · exact hs
  · split
    · exact .ite (fun _ => hs.frame.record) fun _ => hs.frame
    · split
      · exact .ite (fun _ => (State.Inv.ite (fun _ => hs.frame.record) fun _ => hs.frame).askStep_fst.updTim) fun _ => (State.Inv.ite (fun _ => hs.frame.record) fun _ => hs.frame).updTim
      · refine State.Inv.servoTo ?_
        refine State.Inv.freqFrom ?_
        refine State.Inv.updTim ?_
        split
        · exact (State.Inv.ite (fun _ => hs.frame.record) fun _ => hs.frame).askStep_fst
        · exact .ite (fun _ => hs.frame.record) fun _ => hs.frame
    · exact (State.Inv.ite (fun _ => hs.frame.record) fun _ => hs.frame).measLocking
    · exact (State.Inv.ite (fun _ => hs.frame.record) fun _ => hs.frame).servoTo.measLocking
    · exact .ite (fun _ => (State.Inv.ite (fun _ => hs.frame.record) fun _ => hs.frame).askStep_fst.servoTo.freqFrom) fun _ => .ite (fun _ => (State.Inv.ite (fun _ => hs.frame.record) fun _ => hs.frame).servoPi.updTim) fun _ => .ite (fun _ => (State.Inv.ite (fun _ => hs.frame.record) fun _ => hs.frame).servoPi.updTim) fun _ => (State.Inv.ite (fun _ => hs.frame.record) fun _ => hs.frame).servoPi.servoTo

theorem State.Inv.timDegraded (hs : s.Inv) : s.timDegraded.Inv :=
  .ite (fun _ => hs.servoTo) fun _ => hs

theorem State.Inv.keeps_execTimOfsSubmit {p : Principal} {hi : Word} (hs : s.Inv) : KeepsInv (execTimOfsSubmit p hi s) :=
  (hs.gated (fun _ h => .ite (fun _ => h.err) fun _ => h.measure)).next

theorem State.Inv.keeps_execTimSet {p : Principal} {hi : Word} (hs : s.Inv) : KeepsInv (execTimSet p hi s) :=
  (hs.gated (fun _ h => .ite (fun _ => h.err) fun _ => .ite (fun _ => h.err) fun _ => h.frame)).next

theorem State.Inv.stepRecord {d : Int} {cause : Nat} (hs : s.Inv) : (s.stepRecord d cause).Inv := by
  unfold State.stepRecord
  exact hs.record.irq

theorem State.Inv.timeMoved {t0 t1 : Nat} (hs : s.Inv) : (s.timeMoved t0 t1).Inv := by
  unfold State.timeMoved
  extract_lets s1
  have hs1 : s1.Inv := hs.cscStepped
  exact hs1.frame

theorem State.Inv.timSetApply (hs : s.Inv) : s.timSetApply.Inv := by
  unfold State.timSetApply
  split
  · exact hs
  · exact hs.frame.stepRecord.timeMoved

theorem State.Inv.keeps_execTimPhaseStep (hs : s.Inv) : KeepsInv (execTimPhaseStep s) := by
  unfold execTimPhaseStep
  refine State.Inv.next ?_
  split
  · exact hs.timSetApply
  · split
    · exact hs
    · exact hs.frame.stepRecord.timeMoved

theorem State.Inv.keeps_execServoHoldover (hs : s.Inv) : KeepsInv (execServoHoldover s) :=
  (State.Inv.ite (fun _ => hs.frame.servoTo) fun _ => hs).next

theorem State.Inv.keeps_execTimNowRead (hs : s.Inv) : KeepsInv (execTimNowRead s) :=
  (State.Inv.ite (fun _ => hs.frame) fun _ => hs.frame).next

theorem State.Inv.pushStamp {p : Nat} {x : TxStamp} (hs : s.Inv) : (s.pushStamp p x).Inv :=
  .ite (fun _ => .ite (fun _ => hs.frame.irq) fun _ => hs.frame) fun _ => hs.frame.record.irq

theorem State.Inv.keeps_execTxtsInfoRead (hs : s.Inv) {p : Fin 8} : KeepsInv (execTxtsInfoRead p s) := by
  have drawn : ((if (s.txPort p.val).queue.length < 16 then (0, s) else s.draw) : Nat × State).2.Inv := by
    split
    · exact hs
    · exact hs.draw_snd
  unfold execTxtsInfoRead
  refine State.Inv.next (.ite (fun _ => hs.frame) fun _ => ?_)
  dsimp only
  split
  · exact drawn.frame
  · exact drawn.frame

theorem State.Inv.keeps_execTxtsPop {p : Principal} {n : Fin 8} (hs : s.Inv) : KeepsInv (execTxtsPop p n s) :=
  (hs.gated (fun _ h => h.frame)).next

theorem State.Inv.keeps_execTxtsOvfClear {p : Principal} {n : Fin 8} (hs : s.Inv) : KeepsInv (execTxtsOvfClear p n s) :=
  (hs.gated (fun _ h => h.frame)).next

theorem State.Inv.keeps_execLostRstClear {p : Principal} (hs : s.Inv) : KeepsInv (execLostRstClear p s) :=
  (hs.gated (fun _ h => h.frame)).next

theorem State.Inv.keeps_execUncLimitExceeded {unc : Nat} (hs : s.Inv) : KeepsInv (execUncLimitExceeded unc s) :=
  (State.Inv.ite (fun _ => .ite (fun _ => hs.frame) fun _ => hs.frame.record) fun _ => hs).next

theorem State.Inv.coarseEnter (hs : s.Inv) : s.coarseEnter.Inv :=
  .ite (fun _ => hs) fun _ => .ite (fun _ => hs.frame.record) fun _ => hs.frame.record.updTim.record

theorem State.Inv.coarseLeave {net elapsed : Nat} (hs : s.Inv) : (s.coarseLeave net elapsed).Inv :=
  .ite (fun _ => hs) fun _ => (State.Inv.ite (fun _ => hs.frame.record) fun _ => hs.frame).record

theorem State.Inv.servoRestart (hs : s.Inv) : s.servoRestart.Inv :=
  .ite (fun _ => hs.frame) fun _ => hs.frame.servoTo

theorem State.Inv.timCommitApply (hs : s.Inv) : s.timCommitApply.Inv :=
  .ite (fun _ => hs.frame.servoTo) fun _ => .ite (fun _ => hs.frame.servoTo) fun _ => hs.frame

end Sys2Proof.Machine
end

section
/-!
SUPPORT. What keeps the invariant: the Avenue ports, the output path, the voted engines, CAN and the clock unit.
-/

namespace Sys2Proof.Machine

set_option Elab.async false

variable {s : State}

/-! ### The Avenue ports and the Junction (R329–R345): link states, frames and injection, routing, subscriptions and publication, discovery and roles
-/

theorem State.Inv.aveResult {e : Nat} (hs : s.Inv) : (s.aveResult e).Inv :=
  .ite (fun _ => hs.frame) fun _ => hs.frame.err

theorem State.Inv.roleTo {r : Role} (hs : s.Inv) : (s.roleTo r).Inv :=
  hs.frame.irq

theorem State.Inv.roleChange {r : Role} (hs : s.Inv) : (s.roleChange r).Inv :=
  hs.draw_snd.record.roleTo

theorem State.Inv.flood {except : Option Nat} {b : ABody} (hs : s.Inv) : (s.flood except b).Inv :=
  .foldl (fun _ _ hs' => .ite (fun _ => hs') fun _ => hs'.aveSendPort) _ _ hs

theorem State.Inv.advertise {p : Nat} (hs : s.Inv) : (s.advertise p).Inv :=
  .ite (fun _ => hs) fun _ => .foldl (fun _ _ hs' => hs'.flood) _ _ hs.frame

theorem State.Inv.lfaSwitch (hs : s.Inv) : s.lfaSwitch.Inv := by
  unfold State.lfaSwitch
  exact hs.of_same (State.updAve_same s _) rfl

theorem State.Inv.lostPeers (hs : s.Inv) : s.lostPeers.Inv :=
  .foldl (fun _ _ hs' => hs'.markPoint) _ _ hs

theorem State.Inv.rtInstall (hs : s.Inv) : s.rtInstall.Inv := by
  unfold State.rtInstall
  split
  · exact hs
  · extract_lets s1 s2 s2'
    have hs1 : s1.Inv := hs.frame.lfaSwitch.lostPeers
    have hs2' : s2'.Inv := by
      unfold s2'
      split
      · exact hs1.record.updAve.irq
      · exact hs1
    split
    · exact .ite (fun _ => hs2'.record.updTim) fun _ => hs2'
    · exact hs2'

theorem State.Inv.keeps_execRouteRecomputeDone (hs : s.Inv) : KeepsInv (execRouteRecomputeDone s) :=
  hs.frame.lfaSwitch.next

theorem State.Inv.probePort {p : Nat} (hs : s.Inv) : (s.probePort p).Inv :=
  hs.draw_snd.aveSendPort

theorem State.Inv.probe (hs : s.Inv) : s.probe.Inv :=
  .foldl (fun _ _ hs' => hs'.probePort) _ _ hs

theorem State.Inv.keeps_execAveTrainingDone {p : Fin 6} {peer : Fin 64} {pp : Fin 6} {role : Fin 4} {dly : Nat} (hs : s.Inv) : KeepsInv (execAveTrainingDone p peer pp role dly s) := by
  unfold execAveTrainingDone
  refine State.Inv.next ?_
  split
  · exact hs
  · extract_lets s1 s2
    have hs1 : s1.Inv := hs.frame.record
    have hs2 : s2.Inv := hs1.irq.advertise
    exact .ite (fun _ => hs2.frame.aveResult) fun _ => .ite (fun _ => hs2.probePort) fun _ => hs2

theorem State.Inv.keeps_execAveHelloSend {p : Fin 6} (hs : s.Inv) : KeepsInv (execAveHelloSend p s) :=
  (State.Inv.ite (fun _ => hs) fun _ => hs.frame).next

theorem State.Inv.linkDown {p cause ns : Nat} (hs : s.Inv) : (s.linkDown p cause ns).Inv :=
  .ite (fun _ => hs) fun _ => hs.frame.record.irq.raiseNoCode.lfaSwitch.advertise.updAve

theorem State.Inv.keeps_execAveHelloTimeout {p : Fin 6} (hs : s.Inv) : KeepsInv (execAveHelloTimeout p s) :=
  hs.linkDown.next

theorem State.Inv.keeps_execAveLockLoss {p : Fin 6} (hs : s.Inv) : KeepsInv (execAveLockLoss p s) :=
  hs.linkDown.next

theorem State.Inv.keeps_execAveBlockLockRegained {p : Fin 6} (hs : s.Inv) : KeepsInv (execAveBlockLockRegained p s) :=
  (State.Inv.ite (fun _ => hs.frame) fun _ => hs).next

theorem State.Inv.keeps_execAveDelayMeasure {p : Fin 6} {dly : Nat} (hs : s.Inv) : KeepsInv (execAveDelayMeasure p dly s) :=
  (State.Inv.ite (fun _ => hs.frame) fun _ => hs).next

theorem State.Inv.aveAllOff (hs : s.Inv) : s.aveAllOff.Inv :=
  .foldl (fun _ _ hs' => hs'.markPoint) _ _ hs.frame

theorem State.Inv.aveRun {run : Bool} (hs : s.Inv) : (s.aveRun run).Inv :=
  .ite (fun _ => .foldl (fun _ _ hs' => .ite (fun _ => hs'.frame) fun _ => hs') _ _ hs) fun _ => hs.aveAllOff

theorem State.Inv.aveFence (hs : s.Inv) : s.aveFence.Inv :=
  hs.aveAllOff.updAve

theorem State.Inv.lsaRx {p dev port : Nat} {up : Bool} {peer seq ago : Nat} (hs : s.Inv) : (s.lsaRx p dev port up peer seq ago).Inv :=
  .ite (fun _ => hs) fun _ => (State.Inv.ite (fun _ => hs.frame.flood.updAve) fun _ => hs.frame.flood).lfaSwitch

theorem State.Inv.keeps_execAveDiscover {p : Principal} (hs : s.Inv) : KeepsInv (execAveDiscover p s) := by
  unfold execAveDiscover
  refine State.Inv.next ?_
  refine State.Inv.gated hs (fun s' hs' => ?_)
  extract_lets may s1 s2
  have hs1 : s1.Inv := .ite (fun _ => hs') fun _ => hs'.roleTo
  have hs2 : s2.Inv := hs1.frame.aveResult
  exact .ite (fun _ => hs'.aveResult) fun _ => (State.Inv.foldl (fun _ _ hs'' => .ite (fun _ => hs''.advertise) fun _ => hs'') _ _ hs2).probe

theorem State.Inv.takeId {n : Nat} (hs : s.Inv) : (s.takeId n).Inv :=
  .foldl (fun _ _ hs' => .ite (fun _ => hs'.advertise) fun _ => hs') _ _ (.ite (fun _ => (State.Inv.ite (fun _ => hs.frame.roleTo) fun _ => hs.frame).roleTo.updAve) fun _ => .ite (fun _ => hs.frame.roleTo) fun _ => hs.frame)

theorem State.Inv.discProbe {p dst src serial own : Nat} (hs : s.Inv) : (s.discProbe p dst src serial own).Inv :=
  .ite (fun _ => hs.takeId.aveSendPort) fun _ => .ite (fun _ => hs) fun _ => hs.aveSendPort

theorem State.Inv.discReply {p src hops serial role : Nat} (hs : s.Inv) : (s.discReply p src hops serial role).Inv := by
  unfold State.discReply
  split
  · exact hs.frame.aveResult
  · split
    · exact hs.frame
    · split
      · exact .ite (fun _ => hs.frame.aveSendPort) fun _ => hs.frame.aveSendPort.record
      · exact hs
      · exact hs.frame.aveResult

theorem State.Inv.keeps_execDiscoveryComplete (hs : s.Inv) : KeepsInv (execDiscoveryComplete s) :=
  (State.Inv.ite (fun _ => hs.frame.record) fun _ => hs).next

theorem State.Inv.keeps_execDeviceLostTimeout {d : Fin 64} (hs : s.Inv) : KeepsInv (execDeviceLostTimeout d s) :=
  (State.Inv.ite (fun _ => hs.frame.record) fun _ => hs).next

theorem State.Inv.keeps_execGwHeartbeatSend (hs : s.Inv) : KeepsInv (execGwHeartbeatSend s) := by
  unfold execGwHeartbeatSend
  refine State.Inv.next ?_
  split
  · exact .ite (fun _ => hs.aveTo) fun _ => hs
  · exact hs

theorem State.Inv.takeOver (hs : s.Inv) : s.takeOver.Inv :=
  .foldl (fun _ _ hs' => .ite (fun _ => hs'.advertise) fun _ => hs') _ _ hs.roleChange.updAve.raiseNoCode

theorem State.Inv.keeps_execGwHbTimeout (hs : s.Inv) : KeepsInv (execGwHbTimeout s) :=
  (State.Inv.ite (fun _ => hs.takeOver) fun _ => hs).next

theorem State.Inv.leave {d : Nat} (hs : s.Inv) : (s.leave d).Inv :=
  hs.aveTo.roleChange

theorem State.Inv.keeps_execAveRelease {p : Principal} (hs : s.Inv) : KeepsInv (execAveRelease p s) := by
  unfold execAveRelease
  refine State.Inv.next ?_
  refine State.Inv.gated hs (fun s' hs' => ?_)
  split
  · exact hs'.aveResult
  · split
    · exact hs'.leave.aveResult
    · exact hs'.aveResult

theorem State.Inv.keeps_execHostLinkLossTimeout (hs : s.Inv) : KeepsInv (execHostLinkLossTimeout s) := by
  unfold execHostLinkLossTimeout
  refine State.Inv.next ?_
  split
  · split
    · exact hs.leave
    · exact hs
  · exact hs

theorem State.Inv.injSet {p : Nat} {en : Bool} {cause : Nat} (hs : s.Inv) : (s.injSet p en cause).Inv :=
  hs.frame.record

theorem State.Inv.injFlow {f : AFlow} (hs : s.Inv) : (s.injFlow f).Inv :=
  .foldl (fun _ _ hs' => .ite (fun _ => hs'.injSet) fun _ => hs') _ _ hs

theorem State.Inv.armFlows (hs : s.Inv) : s.armFlows.Inv :=
  .ite (fun _ => .foldl (fun _ _ hs' => hs'.injFlow) _ _ hs) fun _ => hs

theorem State.Inv.admitFlow {src dst : Nat} {prot : Bool} (hs : s.Inv) : (s.admitFlow src dst prot).Inv := by
  unfold State.admitFlow
  refine State.Inv.updAve ?_
  refine State.Inv.injFlow ?_
  split
  · exact hs.aveTo
  · exact hs

theorem State.Inv.subAnswer {gid code : Nat} (hs : s.Inv) : (s.subAnswer gid code).Inv :=
  .foldl (fun _ _ hs' => .ite (fun _ => hs'.frame) fun _ => hs'.frame.record.err.irq.markPoint) _ _ hs

theorem State.Inv.answerSub {sub gid code : Nat} (hs : s.Inv) : (s.answerSub sub gid code).Inv :=
  .ite (fun _ => hs.subAnswer) fun _ => hs.aveTo

theorem State.Inv.publish {r : SubReq} (hs : s.Inv) : (s.publish r).Inv :=
  .ite (fun _ => hs.err.answerSub) fun _ => (State.Inv.ite (fun _ => hs.injFlow) fun _ => hs).updAve.answerSub

theorem State.Inv.subscribeAt {r : SubReq} {long contended prot : Bool} (hs : s.Inv) : (s.subscribeAt r long contended prot).Inv :=
  .ite (fun _ => hs.publish) fun _ => .ite (fun _ => hs) fun _ => .ite (fun _ => hs.err.answerSub) fun _ => .ite (fun _ => (State.Inv.ite (fun _ => hs.admitFlow) fun _ => hs).publish) fun _ => (State.Inv.ite (fun _ => hs.admitFlow) fun _ => hs).aveTo

theorem State.Inv.aveSubscribe {idx : Nat} (hs : s.Inv) : (s.aveSubscribe idx).Inv :=
  .ite (fun _ => hs.frame.markPoint.draw_snd.subscribeAt) fun _ => hs.frame.markPoint.aveTo

theorem State.Inv.admitAt {src dst from_ : Nat} {long contended prot : Bool} (hs : s.Inv) : (s.admitAt src dst from_ long contended prot).Inv :=
  .ite (fun _ => (State.Inv.ite (fun _ => hs.admitFlow) fun _ => hs.err).aveTo) fun _ => .ite (fun _ => hs.frame) fun _ => hs

theorem State.Inv.recGrant_fst (hs : s.Inv) {dev mbps : Nat} : (s.recGrant dev mbps).1.Inv := by
  unfold State.recGrant
  extract_lets old sum s1
  have hs1 : s1.Inv := by
    unfold s1
    split
    · exact hs.aveTo
    · exact hs
  exact FstInv.ite (fun _ => .mk hs.err) fun _ => .mk hs1.updAve.record

theorem State.Inv.peerFrame {src time : Nat} {recs : List PtRec} (hs : s.Inv) : (s.peerFrame src time recs).Inv := by
  unfold State.peerFrame
  refine State.Inv.setFrameT ?_
  refine .foldl (fun _ _ hs' => ?_) _ _ hs
  split
  · exact .ite (fun _ => hs'.pointWrite.followPoint) fun _ => hs'
  · exact hs'

theorem State.Inv.keeps_execPtPublish {idx : Fin 524288} {dst : Fin 64} (hs : s.Inv) : KeepsInv (execPtPublish idx dst s) :=
  (State.Inv.ite (fun _ => hs.aveTo) fun _ => hs).next

theorem State.Inv.keeps_execPtBPublish (hs : s.Inv) : KeepsInv (execPtBPublish s) :=
  (State.Inv.foldl (fun _ _ hst => .foldl (fun _ _ hst' => .foldl (fun _ _ hst'' => hst''.aveTo) _ _ hst') _ _ hst) _ _ hs).next

theorem State.Inv.keeps_execPeerFrameTimeout {idx : Fin 524288} {commLost : Bool} (hs : s.Inv) : KeepsInv (execPeerFrameTimeout idx commLost s) :=
  (State.Inv.ite (fun _ => hs.markPoint) fun _ => hs).next

theorem State.Inv.keeps_execTimeFrameSend (hs : s.Inv) : KeepsInv (execTimeFrameSend s) :=
  (State.Inv.foldl (fun _ _ hs' => hs'.aveSendPort) _ _ hs.draw_snd).next

theorem State.Inv.timeRx {p t flags hops : Nat} {gm utc : List Byte} {rx : Nat} (hs : s.Inv) : (s.timeRx p t flags hops gm utc rx).Inv :=
  .ite (fun _ => hs) fun _ => hs.frame.measure

theorem State.Inv.trigRx {src ns line ps : Nat} (hs : s.Inv) : (s.trigRx src ns line ps).Inv :=
  .ite (fun _ => hs) fun _ => hs.record.seqEvents

theorem State.Inv.keeps_execAveInjUnlock {p : Principal} {n : Fin 6} (hs : s.Inv) : KeepsInv (execAveInjUnlock p n s) :=
  (hs.gated (fun _ h => .ite (fun _ => h.frame) fun _ => h.err)).next

theorem State.Inv.keeps_execAveInjEn {p : Principal} {n : Fin 6} {en : Bool} (hs : s.Inv) : KeepsInv (execAveInjEn p n en s) :=
  (hs.gated (fun _ h => .ite (fun _ => h.err) fun _ => .ite (fun _ => h.err) fun _ => .ite (fun _ => h) fun _ => h.frame.record)).next

theorem State.Inv.keeps_execAveSubStatClear {p : Principal} (hs : s.Inv) : KeepsInv (execAveSubStatClear p s) :=
  (hs.gated (fun _ h => h.frame)).next

theorem State.Inv.aveBoundary (hs : s.Inv) : s.aveBoundary.Inv := by
  unfold State.aveBoundary
  extract_lets s1 s2
  have hs1 : s1.Inv := .foldl (fun _ _ h => .ite (fun _ => h) fun _ => h.updAport) _ _ hs
  exact .ite (fun _ => hs1.rtInstall.updAve.aveTo) fun _ => hs1.rtInstall

/-! ### A voted output on its way to the endpoint (R13, R18, R141): the point, the axis that follows it, the field die -/

theorem State.Inv.driveOut {idx : Nat} {v : Int} (hs : s.Inv) : (s.driveOut idx v).Inv :=
  hs.pointWrite.followPoint.fioPoint

/-! ### Reading and writing the retention store (R470, R471) -/

theorem State.Inv.retPut {i : Nat} {v : Word} {w : Block} (hs : s.Inv) : (s.retPut i v w).Inv :=
  State.retPut_inv _ _ _ _ hs

theorem State.Inv.retPutList {i : Nat} {w : Block} {x3 : List Word} (hs : s.Inv) : (s.retPutList i w x3).Inv :=
  State.retPutList_inv _ _ _ _ hs

/-! ### A stream's window, its step entries in memory (R162, R163), its checkpoints (R174, R175), its changes of state and the HOLD that the Crossing
writes (R146) -/

theorem State.Inv.updRsq {f : Rsq → Rsq} (hs : s.Inv) : (s.updRsq f).Inv :=
  hs.frame

theorem State.Inv.updStream {n : Nat} {f : Stream → Stream} (hs : s.Inv) : (s.updStream n f).Inv :=
  hs.frame

theorem State.Inv.ckptPut {n : Nat} (hs : s.Inv) : (s.ckptPut n).Inv :=
  hs.retPutList.updStream

theorem State.Inv.ckpt {n : Nat} (hs : s.Inv) : (s.ckpt n).Inv :=
  .ite (fun _ => hs.ckptPut) fun _ => hs

theorem State.Inv.ckptMark {n : Nat} (hs : s.Inv) : (s.ckptMark n).Inv :=
  hs.frame

theorem State.Inv.ckptFlush {n : Nat} (hs : s.Inv) : (s.ckptFlush n).Inv :=
  .ite (fun _ => hs.ckpt.updStream) fun _ => hs

theorem State.Inv.rsqEvt {n : Nat} (hs : s.Inv) : (s.rsqEvt n).Inv :=
  hs.of_same (State.rsqEvt_same _ _) rfl

theorem State.Inv.rsqAlm {n : Nat} (hs : s.Inv) : (s.rsqAlm n).Inv :=
  hs.frame.irq.routeEvt

theorem State.Inv.sstate {n : Nat} {new : SState} {cause : Nat} {f : Stream → Stream} (hs : s.Inv) : (s.sstate n new cause f).Inv :=
  hs.frame.record.rsqEvt.ckptMark

theorem State.Inv.sHold {n cause : Nat} (hs : s.Inv) : (s.sHold n cause).Inv :=
  hs.sstate

theorem State.Inv.holdStreams (hs : s.Inv) : s.holdStreams.Inv :=
  .foldl (fun _ _ hs' => hs'.sHold.ckptFlush) _ _ hs

/-! ### The Crossing (R138–R158): lanes, votes, modes, the safe reaction, tests, rejoin and restart -/

theorem State.Inv.updXng {f : Xng → Xng} (hs : s.Inv) : (s.updXng f).Inv :=
  hs.frame

theorem State.Inv.updLane {l : Nat} {f : Lane → Lane} (hs : s.Inv) : (s.updLane l f).Inv :=
  hs.frame

theorem State.Inv.modeUpdate {rolling : Bool} (hs : s.Inv) : (s.modeUpdate rolling).Inv := by
  unfold State.modeUpdate
  dsimp only
  split
  · exact hs
  · split
    · exact hs.frame.record.irq.raise
    · exact hs.frame.record.irq

theorem State.Inv.toBist {l cause : Nat} (hs : s.Inv) : (s.toBist l cause).Inv :=
  hs.frame

theorem State.Inv.faultLane {l cause : Nat} {f : Lane → Lane} (hs : s.Inv) : (s.faultLane l cause f).Inv :=
  .ite (fun _ => hs.frame.irq.updLane.record.raise) fun _ => .ite (fun _ => hs.frame.irq.updLane) fun _ => hs.frame.irq.toBist

theorem State.Inv.laneWarn {l code : Nat} (hs : s.Inv) : (s.laneWarn l code).Inv :=
  .ite (fun _ => hs) fun _ => hs.raise

theorem State.Inv.loopSafe {n : Nat} (hs : s.Inv) : (s.loopSafe n).Inv := by
  unfold State.loopSafe
  extract_lets old s1
  have hs1 : s1.Inv := by
    unfold s1
    split
    · extract_lets s1' s2
      have hs1' : s1'.Inv := hs.driveOut
      have hs2 : s2.Inv := by
        unfold s2
        split
        · exact hs1'.driveOut
        · exact hs1'
      exact hs2.frame
    · exact hs
  exact .ite (fun _ => hs1) fun _ => hs1.record.loopEvt.raise

theorem State.Inv.disLog {item : Nat} {stream : Bool} {majority : Nat} (hs : s.Inv) : (s.disLog item stream majority).Inv := by
  unfold State.disLog
  split
  · exact hs
  · exact hs.frame

theorem State.Inv.safeReact {cause item : Nat} {stream : Bool} {majority : Nat} (hs : s.Inv) : (s.safeReact cause item stream majority).Inv :=
  .ite (fun _ => hs) fun _ => (State.Inv.foldl (fun _ _ hs' => hs'.loopSafe) _ _ hs).holdStreams.disLog.updXng.record.irq.raise.modeUpdate

theorem State.Inv.abortTest {l : Nat} (hs : s.Inv) : (s.abortTest l).Inv := by
  unfold State.abortTest
  refine State.Inv.irq ?_
  refine State.Inv.record ?_
  refine State.Inv.updXng ?_
  split
  · exact hs.frame
  · exact hs.frame

theorem State.Inv.laneLeft (hs : s.Inv) : s.laneLeft.Inv := by
  unfold State.laneLeft
  refine .foldl (fun _ _ hs' => ?_) _ _ hs
  dsimp only
  split
  · exact hs'.abortTest
  · split
    · refine State.Inv.irq ?_
      split
      · exact hs'.frame
      · exact hs'.frame
    · exact hs'

theorem State.Inv.laneLoss {item : Nat} {stream : Bool} (hs : s.Inv) : (s.laneLoss item stream).Inv := by
  unfold State.laneLoss
  exact (State.Inv.foldl (fun _ _ hs' => hs'.frame.irq) _ _ hs.safeReact).laneLeft.modeUpdate

theorem State.Inv.afterLeave (hs : s.Inv) : s.afterLeave.Inv :=
  .ite (fun _ => hs.laneLeft) fun _ => .ite (fun _ => hs.laneLeft.updXng) fun _ => hs.laneLeft.modeUpdate

theorem State.Inv.withdraw {l item : Nat} {f : Lane → Lane} (hs : s.Inv) : (s.withdraw l item f).Inv :=
  hs.faultLane.record.laneWarn

theorem State.Inv.laneFault {item : Nat} {stream : Bool} {l : Nat} {f : LaneFault} (hs : s.Inv) : (s.laneFault item stream l f).Inv := by
  unfold State.laneFault
  split
  · exact hs
  · split
    · exact hs.withdraw
    · exact hs.frame.withdraw
    · exact hs.frame.withdraw
    · exact hs.withdraw
    · exact .ite (fun _ => hs.frame.withdraw) fun _ => hs.frame
    · exact hs
    · exact hs.frame

theorem State.Inv.outvote {item : Nat} {stream : Bool} {l wordLo majority : Nat} (hs : s.Inv) : (s.outvote item stream l wordLo majority).Inv := by
  unfold State.outvote
  exact hs.faultLane.record.laneWarn.disLog.afterLeave

theorem State.Inv.disagree {cause item : Nat} {stream : Bool} {ls : List Nat} (hs : s.Inv) : (s.disagree cause item stream ls).Inv :=
  (State.Inv.foldl (fun _ _ hs' => hs'.faultLane) _ _ hs.safeReact).laneLeft

theorem State.Inv.itemSafe {item : Nat} {stream : Bool} (hs : s.Inv) : (s.itemSafe item stream).Inv :=
  .ite (fun _ => hs.loopSafe) fun _ => hs

theorem State.Inv.minority {item : Nat} {stream : Bool} {l w : Nat} {majority : List Nat} (hs : s.Inv) : (s.minority item stream l w majority).Inv :=
  hs.frame.outvote

theorem State.Inv.voteWords_fst (hs : s.Inv) {item : Nat} {stream : Bool} {w : Nat → Nat} : (s.voteWords item stream w).1.Inv := by
  have hs' : FstInv (s.voteWords item stream w) := by
    unfold State.voteWords
    split
    · exact .ite (fun _ => .mk hs) fun _ => .mk hs
    · exact .ite (fun _ => .mk hs) fun _ => .mk hs.itemSafe.disagree
    · exact .ite (fun _ => .mk hs) fun _ => .ite (fun _ => .mk hs.minority) fun _ => .ite (fun _ => .mk hs.minority) fun _ =>
        .ite (fun _ => .mk hs.minority) fun _ => .mk hs.itemSafe.disagree
    · exact .mk hs
  exact hs'

theorem State.Inv.foldSigs {w : Nat → Nat} (hs : s.Inv) : (s.foldSigs w).Inv :=
  .foldl (fun _ _ hs' => hs'.frame) _ _ hs

theorem State.Inv.vote_fst (hs : s.Inv) {item : Nat} {stream : Bool} {faults : List (Fin 3 × LaneFault)} {voter : Bool} {w : Nat → Nat} :
    (s.vote item stream faults voter w).1.Inv := by
  unfold State.vote
  extract_lets s1 s2 wf
  have hs1 : s1.Inv := .foldl (fun _ _ h => h.laneFault) _ _ hs
  have hs2 : s2.Inv := .ite (fun _ => hs1) fun _ => hs1.afterLeave
  exact FstInv.ite (fun _ => .mk hs) fun _ => .ite (fun _ => .mk hs.updXng.err.raiseSafePath) fun _ => .ite (fun _ => .mk hs.laneLoss) fun _ =>
    hs2.foldSigs.updXng.voteWords_fst

theorem State.Inv.keeps_execLaneBistEnd {l result : Fin 3} (hs : s.Inv) : KeepsInv (execLaneBistEnd l result s) := by
  unfold execLaneBistEnd
  refine State.Inv.next ?_
  extract_lets k dur s1 s2 s2' s3
  have hs1 : s1.Inv := hs.frame.record
  have hs2 : s2.Inv := hs1.frame.irq
  have hs2' : s2'.Inv := hs1.frame
  have hs3 : s3.Inv := hs2'.frame
  exact .ite (fun _ => hs) fun _ => .ite (fun _ => hs2.record.raise) fun _ => .ite (fun _ => .ite (fun _ => hs3) fun _ => hs3.irq) fun _ => hs2'

theorem State.Inv.keeps_execLaneStateCopyDone {l : Fin 3} {collide : Bool} {t10 : Nat} (hs : s.Inv) : KeepsInv (execLaneStateCopyDone l collide t10 s) :=
  (State.Inv.ite (fun _ => hs) fun _ => (State.Inv.ite (fun _ => hs.frame) fun _ => hs).updLane.updXng).next

theorem State.Inv.keeps_execFltDecayExpiry {l : Fin 3} (hs : s.Inv) : KeepsInv (execFltDecayExpiry l s) :=
  (State.Inv.ite (fun _ => hs.frame) fun _ => hs).next

theorem State.Inv.keeps_execRollingTestDue (hs : s.Inv) : KeepsInv (execRollingTestDue s) :=
  (State.Inv.ite (fun _ => hs.frame) fun _ => hs).next

theorem State.Inv.keeps_execRollingTestOverdue (hs : s.Inv) : KeepsInv (execRollingTestOverdue s) :=
  (State.Inv.ite (fun _ => hs.frame.raiseNoCode) fun _ => hs).next

theorem State.Inv.keeps_execXngTest {p : Principal} {l : Fin 3} (hs : s.Inv) : KeepsInv (execXngTest p l s) :=
  (hs.gated (fun _ h => .ite (fun _ => h.frame.irq.modeUpdate) fun _ => h.err)).next

theorem State.Inv.keeps_execXngRetry {p : Principal} {l : Fin 3} (hs : s.Inv) : KeepsInv (execXngRetry p l s) :=
  (hs.gated (fun _ h => .ite (fun _ => h.frame.irq) fun _ => h.err)).next

theorem State.Inv.keeps_execXngRestart {p : Principal} {collide : Bool} (hs : s.Inv) : KeepsInv (execXngRestart p collide s) :=
  (hs.gated (fun _ h => .ite (fun _ => h.frame) fun _ => h.err)).next

theorem State.Inv.keeps_execXngDisLogClear {p : Principal} (hs : s.Inv) : KeepsInv (execXngDisLogClear p s) :=
  (hs.gated (fun _ h => h.frame)).next

theorem State.Inv.sigCompare (hs : s.Inv) : s.sigCompare.Inv := by
  unfold State.sigCompare
  split
  · exact .ite (fun _ => hs) fun _ => hs.disagree
  · exact .ite (fun _ => hs) fun _ => .ite (fun _ => hs.outvote) fun _ => .ite (fun _ => hs.outvote) fun _ => .ite (fun _ => hs.outvote) fun _ => hs.disagree
  · exact hs

theorem State.Inv.suspectsToBist (hs : s.Inv) : s.suspectsToBist.Inv :=
  .foldl (fun _ _ hs' => .ite (fun _ => hs'.frame.irq) fun _ => hs') _ _ hs

theorem State.Inv.powerOnLanes (hs : s.Inv) : s.powerOnLanes.Inv :=
  .ite (fun _ => hs) fun _ => .foldl (fun _ _ hs' => hs'.frame.irq) _ _ hs

theorem State.Inv.rejoinLanes (hs : s.Inv) : s.rejoinLanes.Inv :=
  .foldl (fun _ _ hs' => .ite (fun _ => hs'.frame.record) fun _ => hs'.frame.record.irq) _ _ hs

theorem State.Inv.passedLanes (hs : s.Inv) : s.passedLanes.Inv := by
  unfold State.passedLanes
  refine .foldl (fun _ _ hs' => ?_) _ _ hs
  dsimp only
  split
  · split
    · exact hs'.frame
    · exact hs'.frame
  · refine State.Inv.irq ?_
    split
    · exact hs'.frame
    · exact hs'.frame

theorem State.Inv.restartLanes (hs : s.Inv) : s.restartLanes.Inv := by
  unfold State.restartLanes
  split
  · exact hs
  · extract_lets s0 ls st s1 x
    have hs0 : s0.Inv := hs.frame
    have hs1 : s1.Inv := .foldl (fun _ _ hs' => hs'.frame.irq) _ _ hs0.frame
    exact .ite (fun _ => hs0) fun _ => hs1.frame.record

theorem State.Inv.rollingStart (hs : s.Inv) : s.rollingStart.Inv :=
  .ite (fun _ => hs.frame.modeUpdate) fun _ => hs

theorem State.Inv.xngBoundary (hs : s.Inv) : s.xngBoundary.Inv :=
  .ite (fun _ => hs) fun _ => hs.suspectsToBist.sigCompare.rejoinLanes.powerOnLanes.restartLanes.passedLanes.modeUpdate.updXng.rollingStart

theorem State.Inv.xngStart (hs : s.Inv) : s.xngStart.Inv :=
  (State.Inv.foldl (fun _ _ hs' => .ite (fun _ => hs'.frame) fun _ => hs') _ _ hs.frame).irq

theorem State.Inv.xngStop (hs : s.Inv) : s.xngStop.Inv := by
  unfold State.xngStop
  extract_lets s1 x
  have hs1 : s1.Inv := .foldl (fun _ _ hs' => hs'.frame) _ _ hs.frame
  exact hs1.frame.modeUpdate

/-! ### LOOP_EVALUATION (R93): the inputs that every voting lane reads, the evaluation in each lane, the vote, and the voted result's way to the
output points, the delay line and the loop's events -/

theorem State.Inv.loopEvent {n : Nat} {e : LoopEv} (hs : s.Inv) : (s.loopEvent n e).Inv := by
  unfold State.loopEvent
  split
  · exact .ite (fun _ => (State.Inv.ite (fun _ => (State.Inv.ite (fun _ => hs.record) fun _ => hs.record.loopEvt).raise) fun _ => .ite (fun _ => (State.Inv.ite (fun _ => hs.record) fun _ => hs.record.loopEvt).raise) fun _ => .ite (fun _ => hs.record) fun _ => hs.record.loopEvt).updPend) fun _ => .ite (fun _ => (State.Inv.ite (fun _ => hs.record) fun _ => hs.record.loopEvt).raise) fun _ => .ite (fun _ => (State.Inv.ite (fun _ => hs.record) fun _ => hs.record.loopEvt).raise) fun _ => .ite (fun _ => hs.record) fun _ => hs.record.loopEvt
  · exact hs.err
  · exact hs.record.loopEvt
  · exact hs.record
  · split
    · exact hs.record.frame.irq.routeEvt.raise
    · exact hs.record.frame.irq.routeEvt
  · exact hs.record
  · exact hs.record.err

theorem State.Inv.delayLine {n : Nat} {o : LoopOut} (hs : s.Inv) : (s.delayLine n o).Inv :=
  hs.of_same (State.delayLine_same _ _ _) rfl

theorem State.Inv.loopWrite {n : Nat} {o : LoopOut} (hs : s.Inv) : (s.loopWrite n o).Inv :=
  .ite (fun _ => hs) fun _ => .ite (fun _ => hs.driveOut.driveOut) fun _ => hs.driveOut

theorem State.Inv.loopTake {n : Nat} {rs : List (Nat × LoopOut × Option LMode)} {o : LoopOut} {sup : Option LMode} (hs : s.Inv) : (s.loopTake n rs o sup).Inv := by
  unfold State.loopTake
  extract_lets d s1 lanes ce1 ce2 ce3 s2 s2' x
  have hs1 : s1.Inv := hs.loopWrite.delayLine
  have hs2' : s2'.Inv := .foldl (fun _ _ hs' => hs'.loopEvent) _ _ hs1.frame
  exact hs2'.frame

theorem State.Inv.countChild {n : Nat} (hs : s.Inv) : (s.countChild n).Inv := by
  unfold State.countChild
  split
  · exact hs.frame
  · exact hs

theorem State.Inv.withCe (hs : s.Inv) {ce' : Ce} : State.Inv { s with ce := ce' } :=
  hs.frame

theorem State.Inv.loopNoVote {n : Nat} {d : LoopDesc} (hs : s.Inv) : (s.loopNoVote n d).Inv := by
  unfold State.loopNoVote
  extract_lets i off st x s1
  have hs1 : s1.Inv := hs.frame
  split
  · exact hs
  · split
    rename_i x' st1 ev lt he
    extract_lets s2 x''
    have hs2 : s2.Inv := .foldl (fun _ _ hs' => hs'.loopEvent) _ _ hs1
    exact hs2.frame

theorem State.Inv.ceSettle (hs : s.Inv) : s.ceSettle.Inv :=
  hs.of_same (State.ceSettle_same _) rfl

theorem State.Inv.readEcc {eccs : List (Fin 65536 × EccRead)} (hs : s.Inv) : (s.readEcc eccs).Inv :=
  .foldl (fun _ _ hs' => hs'.hotEcc) _ _ hs

theorem State.Inv.keeps_execLoopEvaluation (hs : s.Inv) {n : Fin 1024} {faults : List (Fin 3 × LaneFault)} {eccs : List (Fin 65536 × EccRead)} {dlyUe voter : Bool} :
    KeepsInv (execLoopEvaluation n faults eccs dlyUe voter s) := by
  unfold execLoopEvaluation
  refine State.Inv.next ?_
  extract_lets d s0 p s1 i res
  have hs0 : s0.Inv := hs.countChild
  refine .ite (fun _ => hs) fun _ => .ite (fun _ => hs0.ceSettle) fun _ => .ite (fun _ => hs0.loopNoVote.ceSettle) fun _ => ?_
  split
  rename_i s2 w he
  have hs2 : s2.Inv := State.Inv.of_eq_mk hs0.readEcc.vote_fst he
  split
  · exact hs2.loopTake.ceSettle
  · exact hs2

/-! ### The CAN FD controllers (R431–R441): objects and filters, receive and transmit, error and controller states -/

theorem State.Inv.updCctl {n : Nat} {f : CanCtl → CanCtl} (hs : s.Inv) : (s.updCctl n f).Inv :=
  hs.frame

theorem State.Inv.canErrEvt {n : Nat} (hs : s.Inv) : (s.canErrEvt n).Inv :=
  hs.irq.routeEvt

theorem State.Inv.canTo {n : Nat} {st : CanState} (hs : s.Inv) : (s.canTo n st).Inv :=
  hs.frame.canErrEvt

theorem State.Inv.canResult {n e : Nat} (hs : s.Inv) : (s.canResult n e).Inv :=
  .ite (fun _ => hs.frame) fun _ => hs.frame.err

theorem State.Inv.markObj {k : Nat} {f : Byte → Byte} (hs : s.Inv) : (s.markObj k f).Inv :=
  .ite (fun _ => .foldl (fun _ _ hs' => hs'.markPoint) _ _ hs) fun _ => hs

theorem State.Inv.clearReqs {n : Nat} (hs : s.Inv) : (s.clearReqs n).Inv :=
  .foldl (fun _ _ hs' => hs'.frame) _ _ hs

theorem State.Inv.objOff {k : Nat} (hs : s.Inv) : (s.objOff k).Inv :=
  .ite (fun _ => .ite (fun _ => hs.frame) fun _ => hs.frame) fun _ => hs.frame.markObj

theorem State.Inv.canStop {n : Nat} (hs : s.Inv) : (s.canStop n).Inv :=
  hs.clearReqs.updCctl.canTo

theorem State.Inv.canSleep {n : Nat} (hs : s.Inv) : (s.canSleep n).Inv :=
  hs.frame.canTo

theorem State.Inv.frameEnd {n : Nat} (hs : s.Inv) : (s.frameEnd n).Inv :=
  .ite (fun _ => (State.Inv.foldl (fun _ _ hs' => hs'.objOff) _ _ hs.frame).canStop) fun _ => .ite (fun _ => (State.Inv.foldl (fun _ _ hs' => hs'.objOff) _ _ hs.frame).canSleep) fun _ => .foldl (fun _ _ hs' => hs'.objOff) _ _ hs.frame

theorem State.Inv.busOff {n : Nat} (hs : s.Inv) : (s.busOff n).Inv :=
  .ite (fun _ => (State.Inv.foldl (fun _ _ hs' => hs'.markObj) _ _ hs.clearReqs.updCctl).record.raise.canTo.canTo) fun _ => (State.Inv.foldl (fun _ _ hs' => hs'.markObj) _ _ hs.clearReqs.updCctl).record.raise.canTo

theorem State.Inv.canCount {n tec rec_ : Nat} (hs : s.Inv) : (s.canCount n tec rec_).Inv :=
  .ite (fun _ => hs.frame.busOff) fun _ => .ite (fun _ => hs.frame.record.canErrEvt) fun _ => hs.frame

theorem State.Inv.canPoints {k : Nat} {x : CanBuf} (hs : s.Inv) : (s.canPoints k x).Inv := by
  unfold State.canPoints
  split
  · exact hs
  · refine .foldl (fun _ _ hs' => ?_) _ _ hs
    split
    · exact hs'.pointWrite
    · exact hs'.pointWrite

theorem State.Inv.canPlace {n m : Nat} {x : CanBuf} (hs : s.Inv) : (s.canPlace n m x).Inv :=
  hs.frame.irq.routeEvt.canPoints

theorem State.Inv.canDeliver {n : Nat} {x : CanRx} (hs : s.Inv) : (s.canDeliver n x).Inv := by
  unfold State.canDeliver
  split
  · exact hs.frame
  · exact .ite (fun _ => hs) fun _ => .ite (fun _ => hs.canPlace) fun _ => hs.frame

theorem State.Inv.keeps_execCanFrameRx {n : Fin 4} {id : BitVec 29} {xtd fdf brs esi : Bool} {dlc : Fin 16} {t : Nat} {data : List Byte} (hs : s.Inv) : KeepsInv (execCanFrameRx n id xtd fdf brs esi dlc t data s) :=
  (State.Inv.ite (fun _ => hs) fun _ => hs.draw_snd.canDeliver.canCount.frameEnd).next

theorem State.Inv.keeps_execCanTxDone {n : Fin 4} (hs : s.Inv) : KeepsInv (execCanTxDone n s) := by
  unfold execCanTxDone
  refine State.Inv.next ?_
  extract_lets c mode
  split
  · exact hs
  · exact .ite (fun _ => hs) fun _ => (State.Inv.ite (fun _ => hs.frame.irq.routeEvt.canCount.canDeliver) fun _ => hs.frame.irq.routeEvt.canCount).frameEnd

theorem State.Inv.keeps_execCanBusError {n : Fin 4} {lec : Fin 7} {dataPhase own : Bool} {dTec dRec : Nat} (hs : s.Inv) : KeepsInv (execCanBusError n lec dataPhase own dTec dRec s) := by
  unfold execCanBusError
  refine State.Inv.next ?_
  extract_lets c s1 s2
  have hs1 : s1.Inv := hs.frame
  have hs2 : s2.Inv := by
    unfold s2
    split
    · exact .ite (fun _ => hs1.frame) fun _ => hs1
    · exact hs1
  exact .ite (fun _ => hs) fun _ => hs2.canCount.frameEnd

theorem State.Inv.keeps_execCanPeriodicRequest {n : Fin 4} {m : Fin 64} (hs : s.Inv) : KeepsInv (execCanPeriodicRequest n m s) :=
  (State.Inv.ite (fun _ => hs.frame) fun _ => hs).next

theorem State.Inv.keeps_execCanRxTimeout {n : Fin 4} {m : Fin 64} (hs : s.Inv) : KeepsInv (execCanRxTimeout n m s) :=
  (State.Inv.ite (fun _ => hs.markObj) fun _ => hs).next

theorem State.Inv.canCmd {p : Principal} {n code : Nat} {f : State → State} (hs : s.Inv) (hf : ∀ a0, a0.Inv → State.Inv (f a0)) : (s.canCmd p n code f).Inv :=
  hs.gated (fun _ h => (hf _ h))

theorem State.Inv.keeps_execCanStart {p : Principal} {n : Fin 4} (hs : s.Inv) : KeepsInv (execCanStart p n s) :=
  (hs.canCmd (fun _ h => .ite (fun _ => h.canResult) fun _ => .ite (fun _ => h.canResult) fun _ => h.frame.canTo.canResult)).next

theorem State.Inv.keeps_execCanStop {p : Principal} {n : Fin 4} {onBus : Bool} (hs : s.Inv) : KeepsInv (execCanStop p n onBus s) :=
  (hs.canCmd (fun _ h => .ite (fun _ => h.canResult) fun _ => (State.Inv.ite (fun _ => h.frame) fun _ => h.canStop).canResult)).next

theorem State.Inv.keeps_execCanSleep {p : Principal} {n : Fin 4} {onBus : Bool} (hs : s.Inv) : KeepsInv (execCanSleep p n onBus s) := by
  unfold execCanSleep
  refine State.Inv.next ?_
  refine State.Inv.canCmd hs (fun s' hs' => ?_)
  exact .ite (fun _ => hs'.canResult) fun _ => .ite (fun _ => hs'.canResult) fun _ => (State.Inv.ite (fun _ => hs'.frame) fun _ => hs'.canSleep).canResult

theorem State.Inv.canWoken {n cause id : Nat} (hs : s.Inv) : (s.canWoken n cause id).Inv :=
  hs.frame.record.irq.canTo

theorem State.Inv.keeps_execCanWake {p : Principal} {n : Fin 4} (hs : s.Inv) : KeepsInv (execCanWake p n s) :=
  (hs.canCmd (fun _ h => .ite (fun _ => h.canResult) fun _ => h.draw_snd.canWoken.canResult)).next

theorem State.Inv.keeps_execCanRecover {p : Principal} {n : Fin 4} (hs : s.Inv) : KeepsInv (execCanRecover p n s) :=
  (hs.canCmd (fun _ h => .ite (fun _ => h.canResult) fun _ => h.canTo.canResult)).next

theorem State.Inv.keeps_execCanIntegrationDone {n : Fin 4} (hs : s.Inv) : KeepsInv (execCanIntegrationDone n s) :=
  (State.Inv.ite (fun _ => hs.frame.canTo) fun _ => hs).next

theorem State.Inv.keeps_execCanRecoveryDone {n : Fin 4} (hs : s.Inv) : KeepsInv (execCanRecoveryDone n s) :=
  (State.Inv.ite (fun _ => hs.frame.record.canTo) fun _ => hs).next

theorem State.Inv.keeps_execCanObjStatRead {n : Fin 4} {m : Fin 64} (hs : s.Inv) : KeepsInv (execCanObjStatRead n m s) :=
  (State.Inv.ite (fun _ => hs.frame) fun _ => hs.frame).next

theorem State.Inv.keeps_execCanNewClear {p : Principal} {n : Fin 4} {m : Fin 64} (hs : s.Inv) : KeepsInv (execCanNewClear p n m s) :=
  (hs.gated (fun _ h => h.frame)).next

theorem State.Inv.keeps_execCanOvrClear {p : Principal} {n : Fin 4} {m : Fin 64} (hs : s.Inv) : KeepsInv (execCanOvrClear p n m s) :=
  (hs.gated (fun _ h => h.frame)).next

theorem State.Inv.keeps_execCanTxReq {p : Principal} {n : Fin 4} {m : Fin 64} (hs : s.Inv) : KeepsInv (execCanTxReq p n m s) :=
  (hs.gated (fun _ h => .ite (fun _ => h.frame) fun _ => h)).next

theorem State.Inv.keeps_execCanTxAbort {p : Principal} {n : Fin 4} {m : Fin 64} {onBus : Bool} (hs : s.Inv) : KeepsInv (execCanTxAbort p n m onBus s) :=
  (hs.gated (fun _ h => .ite (fun _ => h) fun _ => .ite (fun _ => h.frame) fun _ => h.frame)).next

theorem State.Inv.keeps_execCanObjEnable {p : Principal} {n : Fin 4} {m : Fin 64} {v : Word} (hs : s.Inv) : KeepsInv (execCanObjEnable p n m v s) :=
  (hs.gated (fun _ h => .ite (fun _ => h.err) fun _ => .ite (fun _ => h.err) fun _ => h.frame)).next

theorem State.Inv.keeps_execCanObjDisable {p : Principal} {n : Fin 4} {m : Fin 64} {onBus : Bool} (hs : s.Inv) : KeepsInv (execCanObjDisable p n m onBus s) :=
  (hs.gated (fun _ h => .ite (fun _ => h) fun _ => .ite (fun _ => h.frame) fun _ => h.objOff)).next

theorem State.Inv.keeps_execCanEvtClear {p : Principal} {n i : Fin 4} {m : Word} (hs : s.Inv) : KeepsInv (execCanEvtClear p n i m s) :=
  (hs.gated (fun _ h => h.frame)).next

theorem State.Inv.keeps_execCanWokenClear {p : Principal} {n : Fin 4} (hs : s.Inv) : KeepsInv (execCanWokenClear p n s) :=
  (hs.gated (fun _ h => h.frame)).next

theorem State.Inv.canDue (hs : s.Inv) : s.canDue.Inv :=
  .foldl (fun _ _ hs' => hs'.frame) _ _ hs

/-! ### The clock unit (R442–R453): the crystal, the PLL, domain clocks, monitors and fallback -/

theorem State.Inv.updClk {f : Clk → Clk} (hs : s.Inv) : (s.updClk f).Inv :=
  hs.frame

theorem State.Inv.degFollow (hs : s.Inv) : s.degFollow.Inv :=
  .ite (fun _ => .ite (fun _ => hs) fun _ => hs.frame.timDegraded) fun _ => .ite (fun _ => hs.frame) fun _ => hs

theorem State.Inv.clkResult {e : Nat} (hs : s.Inv) : (s.clkResult e).Inv :=
  .ite (fun _ => hs.frame) fun _ => hs.frame.err

theorem State.Inv.clkCmd {p : Principal} {code : Nat} {check : State → Nat} {f : State → State} (hs : s.Inv) (hf : ∀ a0, a0.Inv → State.Inv (f a0)) : (s.clkCmd p code check f).Inv :=
  hs.gated (fun _ h => .ite (fun _ => h.clkResult) fun _ => (hf _ h.clkResult))

theorem State.Inv.xoStart (hs : s.Inv) : s.xoStart.Inv :=
  hs.frame.irq

theorem State.Inv.keeps_execClkXoStart {p : Principal} (hs : s.Inv) : KeepsInv (execClkXoStart p s) :=
  (hs.clkCmd (fun _ h => h.xoStart)).next

theorem State.Inv.keeps_execClkXoRetry {p : Principal} (hs : s.Inv) : KeepsInv (execClkXoRetry p s) :=
  (hs.clkCmd (fun _ h => h.frame.xoStart)).next

theorem State.Inv.keeps_execClkXoStop {p : Principal} (hs : s.Inv) : KeepsInv (execClkXoStop p s) :=
  (hs.clkCmd (fun _ h => h.frame.irq)).next

theorem State.Inv.xoFail (hs : s.Inv) : s.xoFail.Inv := by
  unfold State.xoFail
  exact hs.frame.record.irq.raise

theorem State.Inv.xoStable {us : Nat} (hs : s.Inv) : (s.xoStable us).Inv :=
  .ite (fun _ => hs) fun _ => hs.frame.record.irq

theorem State.Inv.keeps_execXoStable (hs : s.Inv) : KeepsInv (execXoStable s) :=
  hs.xoStable.next

theorem State.Inv.xoTimeout (hs : s.Inv) : s.xoTimeout.Inv :=
  .ite (fun _ => hs) fun _ => .ite (fun _ => hs.frame.irq) fun _ => hs.xoFail

theorem State.Inv.keeps_execXoStartTimeout (hs : s.Inv) : KeepsInv (execXoStartTimeout s) :=
  hs.xoTimeout.next

theorem State.Inv.pllStart (hs : s.Inv) : s.pllStart.Inv :=
  .ite (fun _ => hs) fun _ => hs.frame

theorem State.Inv.keeps_execClkPllStart {p : Principal} (hs : s.Inv) : KeepsInv (execClkPllStart p s) :=
  (hs.clkCmd (fun _ h => h.pllStart)).next

theorem State.Inv.keeps_execClkRamp {p : Principal} {d : Fin 4} (hs : s.Inv) : KeepsInv (execClkRamp p d s) := by
  unfold execClkRamp
  split
  rename_i x n s1 he
  have hs1 : s1.Inv := by
    refine State.Inv.of_eq_mk_snd ?_ he
    split
    · exact hs
    · exact hs.draw_snd
  exact (hs1.clkCmd (fun _ h => .ite (fun _ => h.frame) fun _ => h)).next

theorem State.Inv.keeps_execClkReturn {p : Principal} (hs : s.Inv) : KeepsInv (execClkReturn p s) :=
  (hs.clkCmd (fun _ h => .ite (fun _ => h.frame) fun _ => h)).next

theorem State.Inv.keeps_execAutoReturn (hs : s.Inv) : KeepsInv (execAutoReturn s) :=
  (State.Inv.ite (fun _ => hs.frame) fun _ => hs).next

theorem State.Inv.rampStep {d : Nat} (hs : s.Inv) : (s.rampStep d).Inv :=
  .ite (fun _ => hs) fun _ => hs.frame

theorem State.Inv.muxDone {m : Nat} (hs : s.Inv) : (s.muxDone m).Inv := by
  unfold State.muxDone
  split
  · exact hs
  · split
    · exact hs.frame.degFollow
    · split
      · exact hs.frame.degFollow.record.irq.raise
      · exact hs.frame
      · exact hs.frame.degFollow

theorem State.Inv.keeps_execClkSwitchDone {m : Fin 5} (hs : s.Inv) : KeepsInv (execClkSwitchDone m s) :=
  hs.muxDone.next

theorem State.Inv.keeps_execClkSwitchForce {m : Fin 5} (hs : s.Inv) : KeepsInv (execClkSwitchForce m s) := by
  unfold execClkSwitchForce
  refine State.Inv.next ?_
  split
  · exact hs
  · exact hs.frame.record.irq.muxDone

theorem State.Inv.pllLock (hs : s.Inv) : s.pllLock.Inv := by
  unfold State.pllLock
  dsimp only
  split
  · exact hs
  · split
    · exact hs.frame.degFollow
    · exact hs.frame.degFollow.record

theorem State.Inv.keeps_execXoTrip {stop : Bool} {cnt : Nat} (hs : s.Inv) : KeepsInv (execXoTrip stop cnt s) := by
  unfold execXoTrip
  refine State.Inv.next ?_
  extract_lets s1 n onXo s2 s3 s4
  have hs1 : s1.Inv := hs.frame
  have hs2 : s2.Inv := .ite (fun _ => hs1.frame.xoStart) fun _ => hs1.frame
  have hs3 : s3.Inv := .ite (fun _ => hs2.frame) fun _ => hs2
  have hs4 : s4.Inv := .ite (fun _ => hs3) fun _ => hs3.xoFail
  exact .ite (fun _ => hs1) fun _ => .ite (fun _ => hs4.raiseSafePath) fun _ => hs4

theorem State.Inv.toFrc (hs : s.Inv) : s.toFrc.Inv :=
  .foldl (fun _ _ hs' => .ite (fun _ => hs') fun _ => hs'.frame) _ _ hs

theorem State.Inv.clkFault {trip : Nat} (hs : s.Inv) : (s.clkFault trip).Inv :=
  hs.frame.record

theorem State.Inv.keeps_execPllUnlock (hs : s.Inv) : KeepsInv (execPllUnlock s) :=
  (State.Inv.ite (fun _ => hs.clkFault.updClk.toFrc.raiseSafePath) fun _ => hs.clkFault.updClk).next

theorem State.Inv.keeps_execFrcFail {cnt : Nat} (hs : s.Inv) : KeepsInv (execFrcFail cnt s) :=
  (State.Inv.ite (fun _ => hs.clkFault.updClk.toFrc.raiseSafePath) fun _ => hs.clkFault.updClk.raise).next

theorem State.Inv.keeps_execSrcFail (hs : s.Inv) : KeepsInv (execSrcFail s) :=
  hs.clkFault.updClk.raise.next

theorem State.Inv.keeps_execClkMonStatClear {p : Principal} {m : Word} (hs : s.Inv) : KeepsInv (execClkMonStatClear p m s) :=
  (hs.gated (fun _ h => h.frame)).next

end Sys2Proof.Machine
end

section
/-!
SUPPORT. What keeps the invariant: the commands of the scheduler, the cores, the event recorder, the axes, the field die and the history recorder.
-/

namespace Sys2Proof.Machine

set_option Elab.async false

variable {s : State}

/-! ### The scheduler's commands (R398–R412) and the autonomy state (R27, R29, R410) -/

theorem State.Inv.taskStat {t e : Nat} (hs : s.Inv) : (s.taskStat t e).Inv :=
  .ite (fun _ => hs.frame) fun _ => hs.frame.err

theorem State.Inv.taskCmd {p : Principal} {t code : Nat} {f : State → State} (hs : s.Inv) (hf : ∀ a0, a0.Inv → State.Inv (f a0)) : (s.taskCmd p t code f).Inv :=
  hs.gated (fun _ h => (hf _ h))

theorem State.Inv.keeps_execTaskCreate {p : Principal} {t : Fin 512} (hs : s.Inv) : KeepsInv (execTaskCreate p t s) :=
  (hs.taskCmd (fun _ h => .ite (fun _ => h.taskStat) fun _ => .ite (fun _ => h.taskStat) fun _ => h.frame.evalTask.taskStat)).next

theorem State.Inv.keeps_execTaskDelete {p : Principal} {t : Fin 512} (hs : s.Inv) : KeepsInv (execTaskDelete p t s) := by
  unfold execTaskDelete
  refine State.Inv.next ?_
  refine State.Inv.taskCmd hs (fun s' hs' => ?_)
  split
  · exact hs'.taskStat
  · exact hs'.taskStat
  · exact hs'.taskStat
  · exact .ite (fun _ => hs'.taskStat) fun _ => hs'.frame.taskStat
  · exact .ite (fun _ => hs'.taskStat) fun _ => hs'.frame.taskStat

theorem State.Inv.keeps_execTaskSuspend {p : Principal} {t : Fin 512} (hs : s.Inv) : KeepsInv (execTaskSuspend p t s) := by
  unfold execTaskSuspend
  refine State.Inv.next ?_
  refine State.Inv.taskCmd hs (fun s' hs' => ?_)
  split
  · exact hs'.frame.taskStat
  · exact hs'.frame.taskStat
  · exact hs'.frame.taskStat
  · exact hs'.taskStat

theorem State.Inv.keeps_execTaskResume {p : Principal} {t : Fin 512} (hs : s.Inv) : KeepsInv (execTaskResume p t s) :=
  (hs.taskCmd (fun _ h => .ite (fun _ => h.frame.evalTask.taskStat) fun _ => h.taskStat)).next

theorem State.Inv.keeps_execDispRead {c : Fin 8} {by_ : Option (Fin 8)} (hs : s.Inv) : KeepsInv (execDispRead c by_ s) := by
  unfold execDispRead
  refine State.Inv.next ?_
  split
  · extract_lets s1
    have hs1 : s1.Inv := by
      unfold s1
      split
      · exact hs.tell
      · exact hs
    exact hs1.frame
  · split
    · extract_lets x
      have hx : x.Inv := hs.err
      exact hx.frame
    · split
      · exact hs.frame
      · split
        · exact hs.dispatch.lapse
        · exact hs.frame

theorem State.Inv.keeps_execDispWaitTimeout {c : Fin 8} (hs : s.Inv) : KeepsInv (execDispWaitTimeout c s) :=
  (State.Inv.ite (fun _ => hs.frame) fun _ => hs).next

theorem State.Inv.endStalls (hs : s.Inv) : s.endStalls.Inv :=
  .ite (fun _ => hs) fun _ => hs.frame

theorem State.Inv.releaseFlow {f : Nat} (hs : s.Inv) : (s.releaseFlow f).Inv :=
  .ite (fun _ => hs.makeReady) fun _ => hs

theorem State.Inv.portDone {p : Principal} {c : Nat} {yield : Bool} {f : DUnit → State → State} (hs : s.Inv) (hf : ∀ a0 a1, a1.Inv → State.Inv (f a0 a1)) : (s.portDone p c yield f).Inv := by
  unfold State.portDone
  refine hs.gated (fun _ h => ?_)
  split
  · exact h.err
  · exact (hf _ _ h.frame)

theorem State.Inv.keeps_execTaskDone {p : Principal} {c : Fin 8} (hs : s.Inv) : KeepsInv (execTaskDone p c s) := by
  unfold execTaskDone
  refine State.Inv.next ?_
  refine State.Inv.portDone hs (fun u' s' hs' => ?_)
  split
  · exact .ite (fun _ => hs'.frame.serve.lapse) fun _ => hs'.frame.evalTask.serve.lapse
  · exact hs'.frame.releaseFlow.serve.lapse

theorem State.Inv.keeps_execTaskYield {p : Principal} {c : Fin 8} (hs : s.Inv) : KeepsInv (execTaskYield p c s) := by
  unfold execTaskYield
  refine State.Inv.next ?_
  refine State.Inv.portDone hs (fun u' s' hs' => ?_)
  split
  · exact .ite (fun _ => hs'.frame.serve.lapse) fun _ => hs'.makeReady
  · exact hs'.makeReady

theorem State.Inv.subStat {c e : Nat} (hs : s.Inv) : (s.subStat c e).Inv :=
  .ite (fun _ => hs.frame) fun _ => hs.frame.err

theorem State.Inv.poolFull {f : Nat} (hs : s.Inv) : (s.poolFull f).Inv :=
  .ite (fun _ => hs.irq.updHts.record) fun _ => hs.irq

theorem State.Inv.keeps_execSubGo {p : Principal} {c : Fin 8} {f : Fin 4096} (hs : s.Inv) : KeepsInv (execSubGo p c f s) :=
  (hs.gated (fun _ h => .ite (fun _ => h.subStat) fun _ => .ite (fun _ => h.poolFull.subStat) fun _ => h.frame.subStat.releaseFlow)).next

theorem State.Inv.keeps_execFset {p : Principal} {c : Fin 8} {m : Word} (hs : s.Inv) : KeepsInv (execFset p c m s) :=
  (hs.gated (fun _ h => h.raiseFlags)).next

theorem State.Inv.keeps_execMaskWrite {p : Principal} {t : Fin 512} {m : Word} (hs : s.Inv) : KeepsInv (execMaskWrite p t m s) :=
  (hs.gated (fun _ h => h.frame.evalTask)).next

theorem State.Inv.setAuto {a : Autonomy} (hs : s.Inv) : (s.setAuto a).Inv :=
  hs.frame.irq.settleErm

theorem State.Inv.attach (hs : s.Inv) : s.attach.Inv :=
  .ite (fun _ => hs.record.setAuto.raise) fun _ => hs.record.setAuto

theorem State.Inv.keeps_execHtsHb {p : Principal} (hs : s.Inv) : KeepsInv (execHtsHb p s) :=
  (hs.gated (fun _ h => .ite (fun _ => h.frame) fun _ => h.frame.attach)).next

theorem State.Inv.detach {cause : Nat} (hs : s.Inv) : (s.detach cause).Inv := by
  unfold State.detach
  split
  · exact hs.record.updHts.setAuto.raise
  · exact .ite (fun _ => hs.record) fun _ => hs
  · exact hs

theorem State.Inv.keeps_execHeartbeatMissed (hs : s.Inv) : KeepsInv (execHeartbeatMissed s) :=
  (State.Inv.ite (fun _ => hs.detach) fun _ => hs).next

theorem State.Inv.redeliver {c : Nat} (hs : s.Inv) : (s.redeliver c).Inv := by
  unfold State.redeliver
  dsimp only
  split
  · exact hs.frame
  · split
    · exact hs.frame.makeReady.record
    · exact hs.frame.makeReady.record

/-! ### The application cores, the memories and the host interface (R414–R430): watchdogs and core resets, scrubbing, training, the DMA rings and the
host link -/

theorem State.Inv.updCpu {f : Cpu → Cpu} (hs : s.Inv) : (s.updCpu f).Inv :=
  hs.frame

theorem State.Inv.updCore {c : Nat} {f : Core → Core} (hs : s.Inv) : (s.updCore c f).Inv :=
  hs.frame

theorem State.Inv.resetCore {c : Nat} (hs : s.Inv) : (s.resetCore c).Inv :=
  hs.redeliver.updCore

theorem State.Inv.keeps_execWdtWarning {c : Fin 8} (hs : s.Inv) : KeepsInv (execWdtWarning c s) :=
  (State.Inv.ite (fun _ => hs.frame) fun _ => hs).next

theorem State.Inv.keeps_execWdtExpiry {c : Fin 8} {mepc : Word} (hs : s.Inv) : KeepsInv (execWdtExpiry c mepc s) :=
  (State.Inv.ite (fun _ => hs.resetCore.detach.updCpu.record.err.irq) fun _ => hs).next

theorem State.Inv.keeps_execWdtKick {c : Fin 8} {v : BitVec 8} (hs : s.Inv) : KeepsInv (execWdtKick c v s) :=
  (State.Inv.ite (fun _ => hs.frame) fun _ => hs).next

theorem State.Inv.keeps_execCpuCoreEn {p : Principal} {v : Word} (hs : s.Inv) : KeepsInv (execCpuCoreEn p v s) := by
  unfold execCpuCoreEn
  refine State.Inv.next ?_
  exact hs.gated (fun _ h => .foldl (fun _ _ hs' => .ite (fun _ => hs') fun _ => .ite (fun _ => hs'.frame) fun _ => hs'.redeliver.updCore) _ _ h.frame)

theorem State.Inv.keeps_execCpuCoreRst {p : Principal} {v : Word} (hs : s.Inv) : KeepsInv (execCpuCoreRst p v s) :=
  (hs.gated (fun _ h => .foldl (fun _ _ hs' => .ite (fun _ => hs'.resetCore.detach) fun _ => hs') _ _ h)).next

theorem State.Inv.keeps_execCacheUe {c : Fin 8} {level : Fin 3} {addr : Nat} (hs : s.Inv) : KeepsInv (execCacheUe c level addr s) :=
  (State.Inv.ite (fun _ => hs.resetCore.detach.record.err) fun _ => hs).next

theorem State.Inv.keeps_execSramScrub {ce : Nat} {ue : Option Nat} (hs : s.Inv) : KeepsInv (execSramScrub ce ue s) := by
  unfold execSramScrub
  refine State.Inv.next ?_
  extract_lets s1
  have hs1 : s1.Inv := hs.frame
  split
  · exact hs1.frame.raiseNoCode
  · exact hs1

theorem State.Inv.keeps_execMtimecmpMatch {c : Fin 8} (hs : s.Inv) : KeepsInv (execMtimecmpMatch c s) :=
  hs.frame.next

theorem State.Inv.keeps_execMtimeRead (hs : s.Inv) : KeepsInv (execMtimeRead s) :=
  (State.Inv.ite (fun _ => hs.frame) fun _ => hs.frame).next

theorem State.Inv.keeps_execCpuWdtLogClear {p : Principal} {m : Word} (hs : s.Inv) : KeepsInv (execCpuWdtLogClear p m s) :=
  (hs.gated (fun _ h => h.frame)).next

theorem State.Inv.keeps_execCpuSramUeClear {p : Principal} (hs : s.Inv) : KeepsInv (execCpuSramUeClear p s) :=
  (hs.gated (fun _ h => h.frame)).next

theorem State.Inv.updMem {f : MemSt → MemSt} (hs : s.Inv) : (s.updMem f).Inv :=
  hs.frame

theorem State.Inv.memTrained {fail0 fail1 : Bool} (hs : s.Inv) : (s.memTrained fail0 fail1).Inv :=
  (State.Inv.ite (fun _ => (State.Inv.ite (fun _ => hs.err) fun _ => hs).err) fun _ => .ite (fun _ => hs.err) fun _ => hs).updMem.updHd.record

theorem State.Inv.keeps_execMemTrainingDone {fail0 fail1 : Bool} (hs : s.Inv) : KeepsInv (execMemTrainingDone fail0 fail1 s) :=
  (State.Inv.ite (fun _ => hs) fun _ => hs.memTrained).next

theorem State.Inv.memUe {a : Nat} (hs : s.Inv) : (s.memUe a).Inv := by
  unfold State.memUe
  exact hs.frame.record.err.irq.raise

theorem State.Inv.keeps_execMemPatrolScrub {ce : Nat} {ue : Option Nat} (hs : s.Inv) : KeepsInv (execMemPatrolScrub ce ue s) := by
  unfold execMemPatrolScrub
  refine State.Inv.next ?_
  extract_lets s1
  have hs1 : s1.Inv := hs.frame
  split
  · exact hs1.memUe
  · exact hs1

theorem State.Inv.keeps_execMemUeClear {p : Principal} (hs : s.Inv) : KeepsInv (execMemUeClear p s) :=
  (hs.gated (fun _ h => h.frame)).next

theorem State.Inv.updHif {f : Hif → Hif} (hs : s.Inv) : (s.updHif f).Inv :=
  hs.frame

theorem State.Inv.updRing {n : Nat} {f : Ring → Ring} (hs : s.Inv) : (s.updRing n f).Inv :=
  hs.frame

theorem State.Inv.ringHalt {n cause : Nat} (hs : s.Inv) : (s.ringHalt n cause).Inv :=
  hs.frame.record.err.irq

theorem State.Inv.ringHostErr {n : Nat} (hs : s.Inv) : (s.ringHostErr n).Inv := by
  unfold State.ringHostErr
  exact hs.draw_snd.updRing.record.irq

theorem State.Inv.keeps_execRingDoorbell {n : Fin 8} {tail : BitVec 12} (hs : s.Inv) : KeepsInv (execRingDoorbell n tail s) :=
  (State.Inv.ite (fun _ => hs) fun _ => .ite (fun _ => hs.ringHalt) fun _ => hs.frame).next

theorem State.Inv.writeBack {n result tag : Nat} (hs : s.Inv) : (s.writeBack n result tag).Inv :=
  hs.frame

theorem State.Inv.descIrq {n : Nat} {d : HDesc} (hs : s.Inv) : (s.descIrq n d).Inv :=
  .ite (fun _ => hs.frame) fun _ => hs

theorem State.Inv.descNext {n : Nat} {d : HDesc} (hs : s.Inv) : (s.descNext n d).Inv :=
  hs.descIrq.updRing

theorem State.Inv.keeps_execRingEnable {p : Principal} {n : Fin 8} {v : Word} (hs : s.Inv) : KeepsInv (execRingEnable p n v s) :=
  (hs.gated (fun _ h => .ite (fun _ => h.err) fun _ => .ite (fun _ => .ite (fun _ => h) fun _ => h.err) fun _ => h.frame)).next

theorem State.Inv.keeps_execRingDisable {p : Principal} {n : Fin 8} (hs : s.Inv) : KeepsInv (execRingDisable p n s) :=
  (hs.gated (fun _ h => h.frame)).next

theorem State.Inv.keeps_execHifMsiSend {p : Principal} {v : Fin 64} (hs : s.Inv) : KeepsInv (execHifMsiSend p v s) :=
  (hs.gated (fun _ h => .ite (fun _ => h.frame) fun _ => h)).next

theorem State.Inv.keeps_execHifErrLogClear {p : Principal} (hs : s.Inv) : KeepsInv (execHifErrLogClear p s) :=
  (hs.gated (fun _ h => h.frame)).next

theorem State.Inv.keeps_execPcieLinkUp {rate : Fin 8} {width : Fin 16} {bm : Bool} (hs : s.Inv) : KeepsInv (execPcieLinkUp rate width bm s) :=
  (State.Inv.ite (fun _ => hs) fun _ => hs.frame.record.irq).next

theorem State.Inv.hifReset {cause : Nat} (hs : s.Inv) : (s.hifReset cause).Inv :=
  (State.Inv.foldl (fun _ _ hs' => hs'.frame) _ _ hs).updHif.setReg.record.err.irq.fenceCommit.updHd

theorem State.Inv.keeps_execPcieLinkDown (hs : s.Inv) : KeepsInv (execPcieLinkDown s) :=
  (State.Inv.ite (fun _ => hs.frame.hifReset) fun _ => hs).next

theorem State.Inv.keeps_execPcieHotReset (hs : s.Inv) : KeepsInv (execPcieHotReset s) :=
  (State.Inv.ite (fun _ => hs.hifReset) fun _ => hs).next

theorem State.Inv.keeps_execPcieFlr (hs : s.Inv) : KeepsInv (execPcieFlr s) :=
  (State.Inv.ite (fun _ => hs.hifReset) fun _ => hs).next

/-! ### The event recorder's commands (R391–R396): acceptance, loss reports, freezing, dumps and the first-fault region -/

theorem State.Inv.evrAccept {r : EvRec} (hs : s.Inv) : (s.evrAccept r).Inv :=
  .ite (fun _ => hs.frame.irq) fun _ => hs.frame

theorem State.Inv.keeps_execEvrAccept (hs : s.Inv) : KeepsInv (execEvrAccept s) := by
  unfold execEvrAccept
  refine State.Inv.next (.ite (fun _ => hs) fun _ => ?_)
  split
  · exact hs
  · rename_i w _
    split
    · exact hs
    · rename_i r rs hq
      refine State.Inv.evrAccept (hs.setEvr ⟨fun v => ?_, hs.evrSafe⟩)
      have := hs.evrQueues v
      have hw := hs.evrQueues w
      rw [hq, List.length_cons] at hw
      dsimp only
      rw [Tab.get_put]
      split <;> omega

theorem State.Inv.keeps_execLostBusyReport (hs : s.Inv) : KeepsInv (execLostBusyReport s) :=
  (State.Inv.ite (fun _ => hs) fun _ => .ite (fun _ => hs.frame) fun _ => hs.frame.record).next

theorem State.Inv.evrFreeze (hs : s.Inv) : s.evrFreeze.Inv := by
  unfold State.evrFreeze
  extract_lets waiting e0 e lost s1
  have empty : e.Bounded := ⟨fun _ => Nat.zero_le 4, hs.evrSafe⟩
  have hs1 : s1.Inv := hs.setEvr (Evr.Bounded.foldl_present waiting empty)
  exact .ite (fun _ => hs) fun _ => .ite (fun _ => hs1.irq) fun _ => hs1

theorem State.Inv.evrOwn {code p0 p1 p2 : Nat} (hs : s.Inv) : (s.evrOwn code p0 p1 p2).Inv :=
  hs.evrAccept

theorem State.Inv.evrRelease (hs : s.Inv) {auto : Bool} : (s.evrRelease auto).Inv := by
  unfold State.evrRelease
  split
  · exact hs
  · extract_lets us e0 s0 s1 s2 s3
    have hs0 : s0.Inv := hs.frame
    have hs1 : s1.Inv := .ite (fun _ => hs0.evrOwn) fun _ => hs0
    have hs2 : s2.Inv := .ite (fun _ => hs1.evrOwn) fun _ => hs1
    have hs3 : s3.Inv := .foldl (fun _ _ h => h.evrAccept) _ _ hs2
    exact hs3.setEvr ⟨hs3.evrQueues, by simp⟩

theorem State.Inv.keeps_execFreezeTimeout (hs : s.Inv) : KeepsInv (execFreezeTimeout s) :=
  (State.Inv.ite (fun _ => hs.evrRelease.updHd) fun _ => hs).next

theorem State.Inv.dumpResult {e : Nat} (hs : s.Inv) : (s.dumpResult e).Inv :=
  .ite (fun _ => hs.frame) fun _ => hs.frame.err

theorem State.Inv.keeps_execEvrDumpGo {p : Principal} (hs : s.Inv) : KeepsInv (execEvrDumpGo p s) :=
  (hs.gated (fun _ h => .ite (fun _ => h.dumpResult) fun _ => .ite (fun _ => h.dumpResult) fun _ => h.frame.dumpResult)).next

theorem State.Inv.keeps_execEvrDumpDone (hs : s.Inv) : KeepsInv (execEvrDumpDone s) :=
  State.Inv.next (.ite (fun _ => hs) fun _ => State.Inv.irq (State.Inv.setEvr hs.storeRam ⟨hs.evrQueues, hs.evrSafe⟩))

theorem State.Inv.keeps_execEvrFfArm {p : Principal} (hs : s.Inv) : KeepsInv (execEvrFfArm p s) :=
  (hs.gated (fun _ h => .ite (fun _ => h.err) fun _ => h.frame.record)).next

theorem State.Inv.evrSoftRst (hs : s.Inv) : s.evrSoftRst.Inv :=
  hs.evrRelease.setEvr ⟨hs.evrRelease.evrQueues, hs.evrRelease.evrSafe⟩

/-! ### The axis commands (R233, R236) and the profile period (R211–R217, R226, R231–R238) -/

theorem State.Inv.motResult {n e : Nat} (hs : s.Inv) : (s.motResult n e).Inv :=
  .ite (fun _ => hs.frame) fun _ => hs.frame.err

theorem State.Inv.motCmd {p : Principal} {n code : Nat} {c : State → AxCmd} (hs : s.Inv) : (s.motCmd p n code c).Inv :=
  hs.gated (fun _ h => (State.Inv.ite (fun _ => h.frame) fun _ => h).motResult)

theorem State.Inv.keeps_execAxisEnable {p : Principal} {n : Fin 128} (hs : s.Inv) : KeepsInv (execAxisEnable p n s) :=
  hs.motCmd.next

theorem State.Inv.keeps_execMoveAbs {p : Principal} {n : Fin 128} (hs : s.Inv) : KeepsInv (execMoveAbs p n s) :=
  hs.motCmd.next

theorem State.Inv.keeps_execMoveRel {p : Principal} {n : Fin 128} (hs : s.Inv) : KeepsInv (execMoveRel p n s) :=
  hs.motCmd.next

theorem State.Inv.keeps_execMoveVel {p : Principal} {n : Fin 128} (hs : s.Inv) : KeepsInv (execMoveVel p n s) :=
  hs.motCmd.next

theorem State.Inv.keeps_execAxisStop {p : Principal} {n : Fin 128} (hs : s.Inv) : KeepsInv (execAxisStop p n s) :=
  hs.motCmd.next

theorem State.Inv.keeps_execAxisQstop {p : Principal} {n : Fin 128} (hs : s.Inv) : KeepsInv (execAxisQstop p n s) :=
  hs.motCmd.next

theorem State.Inv.keeps_execAxisHome {p : Principal} {n : Fin 128} (hs : s.Inv) : KeepsInv (execAxisHome p n s) :=
  hs.motCmd.next

theorem State.Inv.keeps_execAxisFollow {p : Principal} {n : Fin 128} (hs : s.Inv) : KeepsInv (execAxisFollow p n s) :=
  hs.motCmd.next

theorem State.Inv.keeps_execResetFault {p : Principal} {n : Fin 128} (hs : s.Inv) : KeepsInv (execResetFault p n s) :=
  hs.motCmd.next

theorem State.Inv.keeps_execAxisDisable {p : Principal} {n : Fin 128} (hs : s.Inv) : KeepsInv (execAxisDisable p n s) :=
  (hs.gated (fun _ h => .ite (fun _ => h.motResult) fun _ => h.axisOff.motResult)).next

theorem State.Inv.keeps_execLatchArm {p : Principal} {n : Fin 128} (hs : s.Inv) : KeepsInv (execLatchArm p n s) :=
  hs.motCmd.next

theorem State.Inv.keeps_execAxisGmove {p : Principal} {n : Fin 128} {g : Fin 16} (hs : s.Inv) : KeepsInv (execAxisGmove p n g s) :=
  (hs.gated (fun _ h => .ite (fun _ => h.motResult) fun _ => (State.Inv.foldl (fun _ _ hs' => hs'.frame) _ _ h).updGrp.motResult)).next

theorem State.Inv.setNext {n : Nat} {p pNext : Rat} (hs : s.Inv) : (s.setNext n p pNext).Inv :=
  hs.frame

theorem State.Inv.begin_ {n : Nat} {m : Motion} (hs : s.Inv) : (s.begin_ n m).Inv :=
  hs.frame

theorem State.Inv.homeDone {n : Nat} (hs : s.Inv) : (s.homeDone n).Inv :=
  hs.frame.record.axisEvt.rest.updAxis

theorem State.Inv.homeStart {n : Nat} (hs : s.Inv) : (s.homeStart n).Inv := by
  unfold State.homeStart
  dsimp only
  split
  · exact hs.axisTo.updAxis.setPhase.updAxis.homeDone
  · exact hs.axisTo.updAxis.setPhase.updAxis.begin_
  · exact hs.axisTo.updAxis.setPhase.updAxis.begin_

theorem State.Inv.axisApply {n : Nat} {c : AxCmd} (hs : s.Inv) : (s.axisApply n c).Inv := by
  unfold State.axisApply
  extract_lets s0 a t p moves target stop
  have hs0 : s0.Inv := hs.frame
  have hmoves : ∀ a0 a1, a0.Inv → (moves a0 a1).Inv := fun s' m hs' => hs'.axisTo.updAxis.setPhase.begin_
  have htarget : ∀ a0, (target a0).Inv := fun x => (hmoves _ _ hs0)
  have hstop : ∀ a0, (stop a0).Inv := by
    intro quick
    unfold stop
    split
    · exact hs0.grpStop
    · exact hs0.axisTo.updAxis.begin_
  split
  · exact hs0
  · split
    · exact hs0.frame.rest
    · exact (htarget _)
    · exact (htarget _)
    · exact (hmoves _ _ hs0)
    · exact (hstop _)
    · exact (hstop _)
    · exact hs0.homeStart
    · exact hs0.axisTo.updAxis.setPhase.begin_
    · exact hs0.axisTo.updAxis.setPhase
    · exact hs0.frame

theorem State.Inv.homeAdvance {n : Nat} {ended : Bool} (hs : s.Inv) : (s.homeAdvance n ended).Inv := by
  unfold State.homeAdvance
  dsimp only
  split
  · split
    · exact .ite (fun _ => hs) fun _ => hs.frame
    · exact hs.frame
  · split
    · exact hs.frame
    · exact .ite (fun _ => hs.frame) fun _ => hs
  · exact .ite (fun _ => hs.homeDone) fun _ => hs
  · exact hs

theorem State.Inv.followNext_fst {n : Nat} (hs : s.Inv) : (s.followNext n).1.Inv := by
  unfold State.followNext
  dsimp only
  split
  · exact hs.frame
  · exact hs.frame

theorem State.Inv.axisNext {n : Nat} (hs : s.Inv) : (s.axisNext n).Inv := by
  unfold State.axisNext
  dsimp only
  split
  · exact hs.setNext
  · exact hs.setNext
  · exact .ite (fun _ => hs.setNext.updAxis.updAxis) fun _ => hs.setNext.updAxis
  · exact hs.followNext_fst.setNext
  · split
    · exact hs.setNext.updAxis
    · exact hs.setNext

theorem State.Inv.replanned {n : Nat} (hs : s.Inv) : (s.replanned n).Inv := by
  unfold State.replanned
  dsimp only
  split
  · exact hs
  · split
    · exact .ite (fun _ => hs.frame) fun _ => hs.frame
    · exact hs.frame
    · exact hs.frame

theorem State.Inv.stallSample (hs : s.Inv) : s.stallSample.Inv :=
  .foldl (fun _ _ hs' => hs'.frame) _ _ hs

theorem State.Inv.axisPeriod {n : Nat} (hs : s.Inv) : (s.axisPeriod n).Inv := by
  unfold State.axisPeriod
  split
  rename_i x p v ac ended he
  extract_lets a0 s1 act
  have hs1 : s1.Inv := hs.frame
  split
  rename_i x' s1' slot he'
  extract_lets s1'' s3 s3' a3 s4 s4'
  have hs1'' : s1''.Inv := hs1.frame
  have hs3 : s3.Inv := by
    unfold s3
    split
    · exact .ite (fun _ => hs1''.axisEvt.rest) fun _ => hs1''
    · exact .ite (fun _ => hs1''.rest) fun _ => hs1''
    · exact hs1''.homeAdvance
    · exact hs1''
  have hs3' : s3'.Inv := hs3.replanned
  have hs4 : s4.Inv := hs3'.frame
  have hs4' : s4'.Inv := by
    unfold s4'
    split
    · split
      · exact hs4.grpStop
      · exact hs4.axisTo.updAxis.begin_
    · exact hs3'
  split
  · exact hs1''.axisFault
  · split
    · exact hs4'.axisApply
    · exact hs4'

theorem State.Inv.grpApply {g : Nat} (hs : s.Inv) : (s.grpApply g).Inv := by
  unfold State.grpApply
  split
  · exact hs
  · exact .ite (fun _ => hs.frame) fun _ => .foldl (fun _ _ hs' => hs'.axisTo.updAxis.setPhase.begin_) _ _ hs.frame

theorem State.Inv.grpPeriod {g : Nat} (hs : s.Inv) : (s.grpPeriod g).Inv :=
  .ite (fun _ => hs) fun _ => .ite (fun _ => hs.frame) fun _ => .ite (fun _ => hs) fun _ => .ite (fun _ => (State.Inv.foldl (fun _ _ hs' => .ite (fun _ => .ite (fun _ => hs'.frame.rest) fun _ => hs'.frame.axisEvt.rest) fun _ => hs') _ _ hs).updGrp.updMot.routeEvt.record) fun _ => hs.frame

theorem State.Inv.applyAxes (hs : s.Inv) : s.applyAxes.Inv :=
  hs.of_same (State.applyAxes_same _) rfl

theorem State.Inv.dropCmds (hs : s.Inv) : s.dropCmds.Inv :=
  .foldl (fun _ _ hs' => hs'.frame) _ _ (.foldl (fun _ _ hs' => hs'.frame) _ _ hs)

theorem State.Inv.keeps_execProfilePeriod (hs : s.Inv) : KeepsInv (execProfilePeriod s) := by
  unfold execProfilePeriod
  refine State.Inv.next ?_
  extract_lets s1 s2 s2' s3 s4 s5
  have hs1 : s1.Inv := hs.updMot.applyAxes
  have hs2 : s2.Inv := .foldl (fun _ _ h => h.axisOff) _ _ hs1
  have hs3 : s3.Inv := .foldl (fun _ _ h => h.grpPeriod) _ _ hs1.runFollow
  have hs4 : s4.Inv := .foldl (fun _ _ h => h.axisPeriod) _ _ hs3
  have hs5 : s5.Inv := .foldl (fun _ _ h => h.grpApply) _ _ hs4
  exact .ite (fun _ => hs) fun _ => .ite (fun _ => hs2.dropCmds.updHd) fun _ => .foldl (fun _ _ h => h.axisNext) _ _ hs5

theorem State.Inv.keeps_execEncCntRead {n : Fin 16} (hs : s.Inv) : KeepsInv (execEncCntRead n s) :=
  (State.Inv.ite (fun _ => hs.frame) fun _ => hs.frame).next

theorem State.Inv.keeps_execMotEncErrClear {p : Principal} {m : Word} (hs : s.Inv) : KeepsInv (execMotEncErrClear p m s) :=
  (hs.gated (fun _ h => h.frame)).next

theorem State.Inv.keeps_execMotEvtClear {p : Principal} {i : Option (Fin 4)} {m : Word} (hs : s.Inv) : KeepsInv (execMotEvtClear p i m s) := by
  unfold execMotEvtClear
  refine State.Inv.next ?_
  split
  · exact hs.gated (fun _ h => h.frame)
  · exact hs.gated (fun _ h => h.frame)

theorem State.Inv.keeps_execMotLatClear {p : Principal} (hs : s.Inv) : KeepsInv (execMotLatClear p s) :=
  (hs.gated (fun _ h => h.frame)).next

/-! ### Commits of axis and group descriptors (R235, R239, R240) and of the MOT registers (R241) -/

theorem State.Inv.axisDone {n e : Nat} (hs : s.Inv) : (s.axisDone n e).Inv :=
  .ite (fun _ => hs.frame.record.irq) fun _ => hs.frame.err.record.irq

theorem State.Inv.grpDone {g e : Nat} (hs : s.Inv) : (s.grpDone g e).Inv :=
  .ite (fun _ => hs.frame.record.irq) fun _ => hs.frame.err.record.irq

theorem State.Inv.keeps_execMotAxisGo {p : Principal} {n : Fin 128} (hs : s.Inv) : KeepsInv (execMotAxisGo p n s) := by
  unfold execMotAxisGo
  refine State.Inv.next ?_
  refine State.Inv.gated hs (fun s' hs' => ?_)
  split
  · exact hs'.err
  · exact .ite (fun _ => hs'.store32.updMot) fun _ => hs'.axisDone

theorem State.Inv.keeps_execAxisCommitDone (hs : s.Inv) : KeepsInv (execAxisCommitDone s) := by
  unfold execAxisCommitDone
  refine State.Inv.next ?_
  split
  · exact hs
  · rename_i n _
    extract_lets w d r s0 s2
    have hs0 : s0.Inv := hs.clearCommit
    have hs2 : s2.Inv := hs0.setRefs.updAxis
    have readmitted : (if d.bind = .lane then s2.readmit s2.remoteTgts s2.armSlots else (0, 0, s2)).2.2.Inv := by
      split
      · exact hs2.readmit_snd_snd
      · exact hs2
    exact .ite (fun _ => hs0.axisDone) fun _ => .ite (fun _ => hs0.axisDone) fun _ => readmitted.axisDone

theorem State.Inv.keeps_execMotGrpGo {p : Principal} {g : Fin 16} (hs : s.Inv) : KeepsInv (execMotGrpGo p g s) := by
  unfold execMotGrpGo
  refine State.Inv.next ?_
  refine State.Inv.gated hs (fun s' hs' => ?_)
  split
  · exact hs'.err
  · exact .ite (fun _ => hs'.store32.updMot) fun _ => hs'.grpDone

theorem State.Inv.keeps_execGrpCommitDone (hs : s.Inv) : KeepsInv (execGrpCommitDone s) := by
  unfold execGrpCommitDone
  refine State.Inv.next ?_
  split
  · exact hs
  · exact .ite (fun _ => hs.clearCommit.grpDone) fun _ => hs.clearCommit.updGrp.grpDone

/-! ### The field die: its link and silence (R289–R293), universal channels (R294–R299), field supplies (R300–R302), analog inputs and outputs
(R303–R306) and test modes (R307) -/

theorem State.Inv.keeps_execAoDeferredUpdate {k : Fin 4} {t : Nat} (hs : s.Inv) : KeepsInv (execAoDeferredUpdate k t s) :=
  hs.frame.next

theorem State.Inv.grpEvt {code : Nat} {ps : List Nat} (hs : s.Inv) : (s.grpEvt code ps).Inv :=
  hs.record.irq

theorem State.Inv.uvEnter {g : Nat} (hs : s.Inv) : (s.uvEnter g).Inv :=
  .ite (fun _ => hs) fun _ => hs.frame.grpEvt.raise

theorem State.Inv.uvLeave {g : Nat} (hs : s.Inv) : (s.uvLeave g).Inv :=
  .ite (fun _ => hs) fun _ => hs.frame.grpEvt

theorem State.Inv.keeps_execFsGroupWarn {g : Fin 2} {supply : Nat} (hs : s.Inv) : KeepsInv (execFsGroupWarn g supply s) :=
  (State.Inv.ite (fun _ => hs) fun _ => hs.frame.grpEvt).next

theorem State.Inv.keeps_execFsGroupWarnClear {g : Fin 2} (hs : s.Inv) : KeepsInv (execFsGroupWarnClear g s) :=
  hs.frame.next

theorem State.Inv.keeps_execFsGroupUv {g : Fin 2} (hs : s.Inv) : KeepsInv (execFsGroupUv g s) :=
  hs.uvEnter.next

theorem State.Inv.keeps_execFsGroupRecovery {g : Fin 2} (hs : s.Inv) : KeepsInv (execFsGroupRecovery g s) :=
  hs.uvLeave.next

theorem State.Inv.keeps_execGroupOvercurrent {g : Fin 2} {current : Nat} (hs : s.Inv) : KeepsInv (execGroupOvercurrent g current s) :=
  (State.Inv.ite (fun _ => hs) fun _ => hs.frame.grpEvt.raise).next

theorem State.Inv.keeps_execFioGrpEnable {p : Principal} {g : Fin 2} (hs : s.Inv) : KeepsInv (execFioGrpEnable p g s) :=
  (hs.gated (fun _ h => .ite (fun _ => h.frame) fun _ => h.err)).next

theorem State.Inv.grpEnables (hs : s.Inv) : s.grpEnables.Inv :=
  .foldl (fun _ _ hs' => .ite (fun _ => .ite (fun _ => hs'.frame.grpEvt) fun _ => .ite (fun _ => hs'.frame.irq) fun _ => hs'.frame) fun _ => hs') _ _ hs

theorem State.Inv.writeInputs {which : Nat → Bool} {t : Nat} (hs : s.Inv) : (s.writeInputs which t).Inv := by
  unfold State.writeInputs
  refine .foldl (fun _ _ hs' => ?_) _ _ hs
  split
  · split
    · exact .ite (fun _ => hs') fun _ => hs'.pointWrite.followPoint
    · exact hs'
  · exact hs'

theorem State.Inv.writeSaf {t : Nat} (hs : s.Inv) : (s.writeSaf t).Inv :=
  .foldl (fun _ _ hs' => hs'.writeBound) _ _ hs

theorem State.Inv.fioDown {t : Nat} (hs : s.Inv) : (s.fioDown t).Inv :=
  hs.frame.grpEnables.fioDrive.aoCommands

theorem State.Inv.unsilence (hs : s.Inv) : s.unsilence.Inv := by
  unfold State.unsilence
  exact hs.draw_snd.silenceEnd.irq

theorem State.Inv.keeps_execFioRefreshFrame {down : DownFrame} {up : Bool} {supplyA supplyB currentA currentB : Nat} {rb : Word} {t : Nat} (hs : s.Inv) : KeepsInv (execFioRefreshFrame down up supplyA supplyB currentA currentB rb t s) := by
  unfold execFioRefreshFrame
  refine State.Inv.next ?_
  split
  · exact hs
  · extract_lets bad s0 s1 s2 s3 s4
    have hs0 : s0.Inv := hs.frame
    have hs1 : s1.Inv := .ite (fun _ => hs0) fun _ => .ite (fun _ => hs0.unsilence.fioDown) fun _ => hs0.fioDown
    have hs2 : s2.Inv := hs1.frame
    have hs3 : s3.Inv := hs2.frame
    have hs4 : s4.Inv := hs3.frame
    exact .ite (fun _ => hs1) fun _ => hs4.writeInputs.writeSaf.setFrameT

theorem State.Inv.keeps_execLinkSilence (hs : s.Inv) : KeepsInv (execLinkSilence s) :=
  hs.fioSilence.next

theorem State.Inv.keeps_execSafeHoldTimeout {run : Bool} (hs : s.Inv) : KeepsInv (execSafeHoldTimeout run s) :=
  hs.frame.next

theorem State.Inv.keeps_execLinkDownDetect {lost : Nat} (hs : s.Inv) : KeepsInv (execLinkDownDetect lost s) :=
  (State.Inv.ite (fun _ => hs) fun _ => (State.Inv.foldl (fun _ _ hs' => hs'.markPoint) _ _ hs.frame).record.err.irq.raise).next

theorem State.Inv.keeps_execLinkRetrainDone {silence : Nat} (hs : s.Inv) : KeepsInv (execLinkRetrainDone silence s) :=
  (State.Inv.ite (fun _ => hs) fun _ => .ite (fun _ => hs.frame.record.irq.silenceEnd) fun _ => hs.frame.record.irq).next

theorem State.Inv.keeps_execSilencedClear {p : Principal} (hs : s.Inv) : KeepsInv (execSilencedClear p s) :=
  (hs.gated (fun _ h => h.frame)).next

theorem State.Inv.keeps_execFioInputFilterExpiry {k : Fin 32} {level : LevelWord} {t : Nat} (hs : s.Inv) : KeepsInv (execFioInputFilterExpiry k level t s) := by
  unfold execFioInputFilterExpiry
  refine State.Inv.next ?_
  split
  · exact hs
  · extract_lets s1 s2
    have hs1 : s1.Inv := hs.frame
    have hs2 : s2.Inv := hs1.latchEvent
    exact .ite (fun _ => hs1) fun _ => .ite (fun _ => hs2) fun _ => .ite (fun _ => hs2.writeInputs) fun _ => hs2.frame

theorem State.Inv.keeps_execChannelOvercurrent {k : Fin 32} (hs : s.Inv) : KeepsInv (execChannelOvercurrent k s) :=
  (State.Inv.ite (fun _ => hs) fun _ => hs.frame.record.irq).next

theorem State.Inv.keeps_execReadbackMismatch {k : Fin 32} {readback : Bool} (hs : s.Inv) : KeepsInv (execReadbackMismatch k readback s) :=
  (State.Inv.ite (fun _ => hs) fun _ => hs.frame.record.irq.raise).next

theorem State.Inv.keeps_execFioMmClear {p : Principal} {m : Word} (hs : s.Inv) : KeepsInv (execFioMmClear p m s) :=
  (hs.gated (fun _ h => h.frame)).next

theorem State.Inv.keeps_execFioOcClear {p : Principal} {m : Word} (hs : s.Inv) : KeepsInv (execFioOcClear p m s) :=
  (hs.gated (fun _ h => h.frame)).next

theorem State.Inv.aiOne {k : Nat} {v : Int} {low : Bool} (hs : s.Inv) : (s.aiOne k v low).Inv := by
  unfold State.aiOne
  exact hs.draw_snd.updFio

theorem State.Inv.keeps_execAiSample {readings : List Int} {low : Bool} {t : Nat} (hs : s.Inv) : KeepsInv (execAiSample readings low t s) :=
  (State.Inv.ite (fun _ => hs) fun _ => (State.Inv.foldl (fun _ _ hs' => hs'.aiOne) _ _ hs).updFio).next

theorem State.Inv.keeps_execAiConversionEnd (hs : s.Inv) : KeepsInv (execAiConversionEnd s) := by
  unfold execAiConversionEnd
  refine State.Inv.next ?_
  split
  · exact hs
  · extract_lets s1 s2 s3
    have hs1 : s1.Inv := hs.frame
    have hs2 : s2.Inv := by
      refine .foldl (fun s k hs => ?_) _ _ hs1
      dsimp only
      split
      · exact hs.pointWrite.followPoint
      · exact hs
    exact .ite (fun _ => hs1) fun _ => .ite (fun _ => hs2.setFrameT.acqAdc) fun _ => hs2.setFrameT

theorem State.Inv.keeps_execAiBurdenReconnect {k : Fin 8} (hs : s.Inv) : KeepsInv (execAiBurdenReconnect k s) :=
  hs.frame.next

theorem State.Inv.keeps_execAiCalGo {p : Principal} (hs : s.Inv) : KeepsInv (execAiCalGo p s) :=
  (hs.gated (fun _ h => .ite (fun _ => h) fun _ => .ite (fun _ => h.frame.err) fun _ => h.frame)).next

theorem State.Inv.keeps_execAiCalDone {delays : List Nat} (hs : s.Inv) : KeepsInv (execAiCalDone delays s) :=
  (State.Inv.ite (fun _ => hs) fun _ => hs.draw_snd.updFio.record).next

theorem State.Inv.keeps_execFioTestUv {p : Principal} {v : BitVec 2} (hs : s.Inv) : KeepsInv (execFioTestUv p v s) := by
  unfold execFioTestUv
  refine State.Inv.next ?_
  refine State.Inv.gated hs (fun s' hs' => ?_)
  split
  · exact hs'.err
  · exact .foldl (fun _ _ hs'' => .ite (fun _ => hs'') fun _ => .ite (fun _ => hs''.frame.testRecord.uvEnter) fun _ => hs''.frame.testRecord) _ _ hs'.frame

theorem State.Inv.fioCommitApply {old : Nat → Word} (hs : s.Inv) : (s.fioCommitApply old).Inv :=
  .ite (fun _ => .foldl (fun _ _ hs' => .ite (fun _ => hs') fun _ => hs'.testRecord) _ _ hs) fun _ => (State.Inv.foldl (fun _ _ hs' => .ite (fun _ => hs') fun _ => hs'.testRecord) _ _ hs).updFio.fioDrive

/-! ### The history recorder's commands (R381–R388): tokens and intervals, blocks, streaming to the gateway and to the host -/

theorem State.Inv.keeps_execOcToken {idx : Fin 524288} (hs : s.Inv) : KeepsInv (execOcToken idx s) := by
  unfold execOcToken
  refine State.Inv.next ?_
  extract_lets e h
  split
  · exact hs
  · split
    · exact hs.frame.hrcRecord
    · exact hs.frame

theorem State.Inv.keeps_execHrcReduceInterval {idx : Fin 524288} (hs : s.Inv) : KeepsInv (execHrcReduceInterval idx s) :=
  (State.Inv.ite (fun _ => hs) fun _ => .ite (fun _ => hs.reduceEnd) fun _ => hs).next

theorem State.Inv.keeps_execHrcBlockAge (hs : s.Inv) : KeepsInv (execHrcBlockAge s) :=
  (State.Inv.ite (fun _ => hs.hrcClose) fun _ => hs).next

theorem State.Inv.keeps_execHrcFlush {p : Principal} (hs : s.Inv) : KeepsInv (execHrcFlush p s) :=
  (hs.gated (fun _ h => h.hrcClose)).next

theorem State.Inv.gapRecord {b : HrcBlock} (hs : s.Inv) : (s.gapRecord b).Inv :=
  .ite (fun _ => hs) fun _ => hs.record

theorem State.Inv.blockFail {b : HrcBlock} (hs : s.Inv) : (s.blockFail b).Inv :=
  hs.hrcLose.record.err

theorem State.Inv.keeps_execHrcBlockSend {ue : Bool} (hs : s.Inv) : KeepsInv (execHrcBlockSend ue s) := by
  unfold execHrcBlockSend
  refine State.Inv.next ?_
  split
  · exact hs
  · split
    · exact hs
    · split
      · exact hs.blockFail
      · exact .ite (fun _ => hs.frame) fun _ => .ite (fun _ => hs) fun _ => (State.Inv.foldl (fun _ _ hst => hst.aveTo) _ _ hs).updHrc.updHrc

theorem State.Inv.blockSent {seq : Nat} (hs : s.Inv) : (s.blockSent seq).Inv := by
  unfold State.blockSent
  refine State.Inv.updHrc ?_
  split
  · exact hs.gapRecord
  · exact hs

theorem State.Inv.creditRx {seq : Nat} (hs : s.Inv) : (s.creditRx seq).Inv :=
  hs.blockSent.updHrc

theorem State.Inv.histRx {seq frag dev : Nat} {bytes : List Byte} (hs : s.Inv) : (s.histRx seq frag dev bytes).Inv :=
  .ite (fun _ => hs) fun _ => .ite (fun _ => hs.frame) fun _ => hs.frame

theorem State.Inv.keeps_execHrcDmaDone {dev : Fin 64} {seq : Nat} {d : HDesc} {hostErr : Bool} (hs : s.Inv) : KeepsInv (execHrcDmaDone dev seq d hostErr s) := by
  unfold execHrcDmaDone
  refine State.Inv.next ?_
  extract_lets w n
  split
  · exact hs
  · split
    · exact hs
    · split
      · exact hs.ringHostErr
      · exact .ite (fun _ => hs.frame.descIrq.ringHalt) fun _ => .ite (fun _ => hs.frame.descNext.blockSent) fun _ => hs.frame.descNext.updHrc.aveTo

theorem State.Inv.hrcGranted (hs : s.Inv) {x : Nat × Nat} {g : Nat} : (s.hrcGranted x g).Inv := by
  unfold State.hrcGranted
  extract_lets old s1 s2
  have hs2 : s2.Inv := .ite (fun _ => hs.frame) fun _ => State.Inv.record (hs.frame : s1.Inv)
  exact .ite (fun _ => .ite (fun _ => hs2.recGrant_fst) fun _ => hs2.aveTo) fun _ => hs2

theorem State.Inv.hrcRestart (hs : s.Inv) : s.hrcRestart.Inv :=
  (State.Inv.foldl (fun _ _ hs' => hs'.frame) _ _ hs.frame).record

end Sys2Proof.Machine
end

section
/-!
SUPPORT. What keeps the invariant: the interlock logic processor, the Lane ports, the recipe sequencer and the system block.
-/

namespace Sys2Proof.Machine

set_option Elab.async false

variable {s : State}

/-! ### Loading a Prosa image into the interlock logic processor (R244, R254, R258, R261–R263) -/

theorem State.Inv.updIlp {f : Ilp → Ilp} (hs : s.Inv) : (s.updIlp f).Inv :=
  hs.frame

theorem State.Inv.loadEnd {e pos sec : Nat} (hs : s.Inv) : (s.loadEnd e pos sec).Inv :=
  .ite (fun _ => hs.frame.irq) fun _ => hs.frame.irq.err.record

/-! ### The interlock logic processor at work (R244–R260, R264, R265): instructions, the phases of a scan, modes, initialisation and the retentive
area -/

theorem State.Inv.ilpSnapshot (hs : s.Inv) : s.ilpSnapshot.Inv :=
  hs.of_same (State.ilpSnapshot_same _) rfl

theorem State.Inv.ilpQ {j : Nat} {v : Bool} (hs : s.Inv) : (s.ilpQ j v).Inv :=
  hs.driveOut

theorem State.Inv.ilpW {j : Nat} {v : Word} (hs : s.Inv) : (s.ilpW j v).Inv :=
  .ite (fun _ => hs) fun _ => hs.driveOut

theorem State.Inv.ilpRewriteW (hs : s.Inv) : s.ilpRewriteW.Inv := by
  unfold State.ilpRewriteW
  refine .foldl (fun _ _ hs' => ?_) _ _ hs
  split
  · exact hs'.ilpW
  · exact hs'

theorem State.Inv.ilpRewrite (hs : s.Inv) : s.ilpRewrite.Inv := by
  unfold State.ilpRewrite
  refine State.Inv.ilpRewriteW ?_
  refine .foldl (fun _ _ hs' => ?_) _ _ hs
  split
  · exact hs'.ilpQ
  · exact hs'

theorem State.Inv.ilpStopValues (hs : s.Inv) : s.ilpStopValues.Inv :=
  .ite (fun _ => hs) fun _ => (State.Inv.foldl (fun _ _ hs' => hs'.ilpQ) _ _ hs).ilpRewriteW

theorem State.Inv.ilpWriteOut {busw : Nat → Word → State → State} (hs : s.Inv) (hbusw : ∀ a0 a1 a2, a2.Inv → State.Inv (busw a0 a1 a2)) : (State.ilpWriteOut busw s).Inv := by
  unfold State.ilpWriteOut
  extract_lets s1 s2 regs vals
  have hs1 : s1.Inv := .foldl (fun _ _ hs' => hs'.ilpQ.updIlp) _ _ hs
  have hs2 : s2.Inv := .foldl (fun _ _ hs' => .ite (fun _ => hs') fun _ => hs'.ilpW.updIlp) _ _ hs1
  exact .foldl (fun _ _ hs' => (hbusw _ _ _ hs')) _ _ hs2

theorem State.Inv.ilpChanges (hs : s.Inv) : s.ilpChanges.Inv :=
  .foldl (fun _ _ hs' => hs'.frame.record.irq) _ _ hs

theorem State.Inv.retChanged {i : Nat} {ws : List Word} (hs : s.Inv) : (s.retChanged i ws).Inv :=
  .foldl (fun _ _ hs' => .ite (fun _ => hs') fun _ => hs'.retPut) _ _ hs

theorem State.Inv.ilpRetain (hs : s.Inv) : s.ilpRetain.Inv :=
  .foldl (fun _ _ hs' => hs'.retChanged) _ _ hs

theorem State.Inv.ilpInit (hs : s.Inv) : s.ilpInit.Inv :=
  .ite (fun _ => hs.frame.retChanged.ilpRetain.record) fun _ => hs.frame.retChanged.ilpRetain

theorem State.Inv.ilpMode {m : IMode} {cause : Nat} (hs : s.Inv) : (s.ilpMode m cause).Inv :=
  hs.frame.record.irq.updHd

theorem State.Inv.ilpStop {cause : Nat} (hs : s.Inv) : (s.ilpStop cause).Inv :=
  .ite (fun _ => hs) fun _ => hs.ilpMode.updIlp.ilpStopValues.ilpChanges

theorem State.Inv.ilpFault {cause : Nat} (hs : s.Inv) : (s.ilpFault cause).Inv :=
  hs.ilpStop.raise

theorem State.Inv.ilpPermit (hs : s.Inv) : s.ilpPermit.Inv :=
  .ite (fun _ => hs.ilpFault) fun _ => hs

theorem State.Inv.ilpFinish {busw : Nat → Word → State → State} {dur left : Nat} (hs : s.Inv) (hbusw : ∀ a0 a1 a2, a2.Inv → State.Inv (busw a0 a1 a2)) : (State.ilpFinish busw dur left s).Inv := by
  unfold State.ilpFinish
  exact (hs.frame.ilpWriteOut (fun _ _ _ h => (hbusw _ _ _ h))).ilpChanges.ilpRetain.updIlp

theorem State.Inv.ilpComplete {busw : Nat → Word → State → State} (hs : s.Inv) (hbusw : ∀ a0 a1 a2, a2.Inv → State.Inv (busw a0 a1 a2)) : (State.ilpComplete busw s).Inv :=
  .ite (fun _ => hs.frame.ilpFinish (fun _ _ _ h => (hbusw _ _ _ h))) fun _ => hs

theorem State.Inv.ilpGo {busw : Nat → Word → State → State} {dur left : Nat} {skip : Bool} (hs : s.Inv) (hbusw : ∀ a0 a1 a2, a2.Inv → State.Inv (busw a0 a1 a2)) : (State.ilpGo busw dur left skip s).Inv := by
  unfold State.ilpGo
  extract_lets r s1
  have hs1 : s1.Inv := hs.frame
  split
  · exact hs1.ilpFault
  · exact hs1.ilpMode
  · exact .ite (fun _ => hs1.frame) fun _ => hs1.ilpFinish (fun _ _ _ h => (hbusw _ _ _ h))

theorem State.Inv.ilpOverrun (hs : s.Inv) : s.ilpOverrun.Inv :=
  .ite (fun _ => hs.frame.irq.record.ilpFault) fun _ => hs.frame.irq.record

theorem State.Inv.ilpBoundary {busw : Nat → Word → State → State} {dur : Nat} {ue : Bool} (hs : s.Inv) (hbusw : ∀ a0 a1 a2, a2.Inv → State.Inv (busw a0 a1 a2)) : (State.ilpBoundary busw dur ue s).Inv := by
  unfold State.ilpBoundary
  split
  · exact hs
  · split
    · exact hs.ilpStopValues
    · exact .ite (fun _ => hs.ilpFault) fun _ => hs.ilpRewrite
    · split
      · exact hs.ilpFault
      · split
        · exact (hs.ilpComplete (fun _ _ _ h => (hbusw _ _ _ h))).ilpStop
        · exact .ite (fun _ => .ite (fun _ => hs.ilpOverrun) fun _ => hs) fun _ => hs.frame.ilpSnapshot.ilpGo (fun _ _ _ h => (hbusw _ _ _ h))

theorem State.Inv.ilpStepOne {busw : Nat → Word → State → State} {dur : Nat} (hs : s.Inv) (hbusw : ∀ a0 a1 a2, a2.Inv → State.Inv (busw a0 a1 a2)) : (State.ilpStepOne busw dur s).Inv := by
  unfold State.ilpStepOne
  extract_lets s1
  have hs1 : s1.Inv := .ite (fun _ => hs) fun _ => hs.ilpSnapshot
  split
  · exact hs1.ilpFault
  · split
    · exact .ite (fun _ => hs1.frame.ilpFault) fun _ => hs1.frame
    · exact hs1.frame.ilpFault
    · exact hs1.frame.ilpFinish (fun _ _ _ h => (hbusw _ _ _ h))

theorem State.Inv.ilpContinue {busw : Nat → Word → State → State} {dur : Nat} (hs : s.Inv) (hbusw : ∀ a0 a1 a2, a2.Inv → State.Inv (busw a0 a1 a2)) : (State.ilpContinue busw dur s).Inv :=
  .ite (fun _ => hs.ilpMode.ilpGo (fun _ _ _ h => (hbusw _ _ _ h))) fun _ => hs.ilpMode

theorem State.Inv.ilpResult {e : Nat} (hs : s.Inv) : (s.ilpResult e).Inv :=
  .ite (fun _ => hs.frame) fun _ => hs.frame.err

theorem State.Inv.ilpCmd {busw : Nat → Word → State → State} {code dur : Nat} (hs : s.Inv) (hbusw : ∀ a0 a1 a2, a2.Inv → State.Inv (busw a0 a1 a2)) : (State.ilpCmd busw code dur s).Inv := by
  unfold State.ilpCmd
  split
  · exact .ite (fun _ => hs.ilpResult) fun _ => (State.Inv.ite (fun _ => hs.ilpResult.updIlp.ilpInit) fun _ => hs.ilpResult.updIlp).ilpMode
  · exact (hs.ilpResult.ilpComplete (fun _ _ _ h => (hbusw _ _ _ h))).ilpStop
  · exact hs.ilpResult.ilpStop
  · exact .ite (fun _ => (hs.ilpResult.ilpComplete (fun _ _ _ h => (hbusw _ _ _ h))).ilpMode) fun _ => hs.ilpResult
  · exact hs.ilpResult.ilpStepOne (fun _ _ _ h => (hbusw _ _ _ h))
  · exact hs.ilpResult.ilpContinue (fun _ _ _ h => (hbusw _ _ _ h))
  · exact hs.ilpResult

/-! ### The Lane ports in LANE mode (R310–R326): frames and injection, windows, cycles, enumeration, station and port states -/

theorem State.Inv.laneResult {p e k : Nat} (hs : s.Inv) : (s.laneResult p e k).Inv :=
  .ite (fun _ => hs.frame) fun _ => hs.frame.err

theorem State.Inv.portTo {p : Nat} {st : PortState} (hs : s.Inv) : (s.portTo p st).Inv :=
  .ite (fun _ => hs) fun _ => hs.draw_snd.updPort_.record.irq

theorem State.Inv.staEvt {p k : Nat} (hs : s.Inv) : (s.staEvt p k).Inv :=
  hs.irq.routeEvt

theorem State.Inv.staTo {p k : Nat} {st : StaState} (hs : s.Inv) : (s.staTo p k st).Inv :=
  .ite (fun _ => hs) fun _ => hs.frame.record.staEvt

theorem State.Inv.markLane {p k : Nat} {f : DirEntry → Bool} {m : Byte → Byte} (hs : s.Inv) : (s.markLane p k f m).Inv :=
  .foldl (fun _ _ hs' => hs'.markPoint) _ _ hs

theorem State.Inv.stationFault {p k : Nat} {f : AxisDesc → Bool} (hs : s.Inv) : (s.stationFault p k f).Inv :=
  .foldl (fun _ _ hs' => hs'.frame) _ _ hs

theorem State.Inv.portLost {p : Nat} (hs : s.Inv) : (s.portLost p).Inv :=
  .foldl (fun _ _ hs' => .ite (fun _ => hs'.frame.stationFault) fun _ => hs') _ _ (.foldl (fun _ _ hs' => hs'.markPoint) _ _ hs)

theorem State.Inv.laneSend {p : Nat} {f : LaneFrame} (hs : s.Inv) : (s.laneSend p f).Inv :=
  hs.frame

theorem State.Inv.laneCtl {p : Nat} {f : CFrame} (hs : s.Inv) : (s.laneCtl p f).Inv :=
  hs.frame

theorem State.Inv.laneImage_snd {p k : Nat} {a : Bool} {len : Nat} (hs : s.Inv) : (s.laneImage p k a len).2.Inv :=
  hs.draw_snd.frame

theorem State.Inv.laneInput {p k : Nat} {a : Bool} {img : List Byte} {t : Nat} (hs : s.Inv) : (s.laneInput p k a img t).Inv :=
  .foldl (fun _ _ hs1 => hs1.pointWrite.followPoint) _ _ hs

theorem State.Inv.driveStats {p k : Nat} {l : List DriveStat} (hs : s.Inv) : (s.driveStats p k l).Inv :=
  .foldl (fun _ _ hs' => .ite (fun _ => (State.Inv.foldl (fun _ _ hs'' => hs''.frame) _ _ hs').stationFault) fun _ => .foldl (fun _ _ hs'' => hs''.frame) _ _ hs') _ _ hs

theorem State.Inv.heard {p k : Nat} (hs : s.Inv) : (s.heard p k).Inv :=
  .ite (fun _ => hs.frame.markLane.record.staEvt) fun _ => hs

theorem State.Inv.laneEvents (hs : s.Inv) {p k n : Nat} {bs : List Byte} : (s.laneEvents p k n bs).Inv := by
  induction n generalizing s bs with
  | zero => exact hs
  | succ n ih => exact ih hs.stationEvent

theorem State.Inv.badFcs {p : Nat} (hs : s.Inv) : (s.badFcs p).Inv :=
  hs.frame

theorem State.Inv.recvA {p k start : Nat} {fcs : Bool} {body : List Byte} {drv : List DriveStat} (hs : s.Inv) : (s.recvA p k start fcs body drv).Inv :=
  .ite (fun _ => hs.frame) fun _ => .ite (fun _ => hs) fun _ => .ite (fun _ => hs.frame) fun _ => (State.Inv.ite (fun _ => hs.heard.updSta.markLane) fun _ => hs.heard.updSta).laneInput.driveStats.laneEvents

theorem State.Inv.staCommand {p k code : Nat} (hs : s.Inv) : (s.staCommand p k code).Inv :=
  hs.frame

theorem State.Inv.recvB {p k : Nat} {fcs : Bool} {body : List Byte} {drv : List DriveStat} (hs : s.Inv) : (s.recvB p k fcs body drv).Inv :=
  .ite (fun _ => hs.frame) fun _ => .ite (fun _ => hs) fun _ => .ite (fun _ => (State.Inv.ite (fun _ => hs.heard.updSta.markLane) fun _ => hs.heard.updSta).laneInput.setFrameT.driveStats.staTo.staCommand) fun _ => (State.Inv.ite (fun _ => hs.heard.updSta.markLane) fun _ => hs.heard.updSta).laneInput.setFrameT.driveStats.staTo

theorem State.Inv.startEnum {p : Nat} (hs : s.Inv) : (s.startEnum p).Inv :=
  (State.Inv.foldl (fun _ _ hs' => hs'.staTo.updSta) _ _ hs.portLost.portTo).updPort_.laneSend.laneCtl

theorem State.Inv.placeStas {p : Nat} {ks : List Nat} (hs : s.Inv) : (s.placeStas p ks).Inv := by
  unfold State.placeStas
  refine .foldl (fun _ _ hs' => ?_) _ _ hs
  split
  · exact hs'.staTo.updSta.updPort_
  · exact hs'

theorem State.Inv.portOff {p : Nat} (hs : s.Inv) : (s.portOff p).Inv :=
  hs.portLost.portTo.updPort_

theorem State.Inv.settlePort {p : Nat} (hs : s.Inv) : (s.settlePort p).Inv :=
  .ite (fun _ => hs.portTo) fun _ => hs

theorem State.Inv.endEnum (hs : s.Inv) {p : Nat} : (s.endEnum p).Inv := by
  unfold State.endEnum
  extract_lets en s1 gone s2 lone s3 off
  have hs2 : s2.Inv := .foldl (fun _ _ h => h.record.staEvt) _ _ hs.placeStas
  have hs3 : s3.Inv := .foldl (fun _ _ h => h.record.irq) _ _ hs2
  have hoff {t : State} {e k : Nat} (i : t.Inv) : (off t e k).Inv := i.portOff.laneResult
  clear_value s3 off
  refine .ite (fun _ => hoff hs3) fun _ => ?_
  split
  rename_i c k s4 he
  have hs4 : s4.Inv := hs3.of_readmit he
  exact .ite (fun _ => hoff hs3) fun _ => (State.Inv.foldl (fun _ _ h => h.laneCtl) _ _ hs4.portTo.laneResult).settlePort

theorem State.Inv.recvIdent {p pos : Nat} {fcs : Bool} {body : List Byte} (hs : s.Inv) : (s.recvIdent p pos fcs body).Inv :=
  .ite (fun _ => hs.badFcs) fun _ => .ite (fun _ => hs) fun _ => .ite (fun _ => .ite (fun _ => hs.updPort_.laneCtl) fun _ => .foldl (fun _ _ hs' => hs'.laneCtl) _ _ hs.updPort_) fun _ => hs.updPort_.laneCtl

theorem State.Inv.addStation (hs : s.Inv) {p pos : Nat} : (s.addStation p pos).Inv := by
  unfold State.addStation
  dsimp only
  split
  · exact hs.record.irq
  · rename_i k _ _
    have placed : (s.placeStas p [k]).Inv := hs.placeStas
    split
    · exact placed.staTo.laneResult
    · exact placed.readmit_snd_snd.laneCtl

theorem State.Inv.recvDelay {p pos : Nat} {fcs : Bool} {rtt turn : Nat} (hs : s.Inv) : (s.recvDelay p pos fcs rtt turn).Inv := by
  unfold State.recvDelay
  extract_lets x d f s1
  have hs1 : s1.Inv := hs.frame
  split
  · exact hs.frame
  · split
    · exact hs
    · split
      · exact .ite (fun _ => hs1) fun _ => hs1.endEnum
      · exact .ite (fun _ => hs1.addStation) fun _ => hs1
      · exact .ite (fun _ => hs1.frame.record.raise) fun _ => hs1.frame
      · exact hs1

theorem State.Inv.recvAck {p k : Nat} {fcs : Bool} {typ res : Nat} (hs : s.Inv) : (s.recvAck p k fcs typ res).Inv := by
  unfold State.recvAck
  dsimp only
  split
  · exact hs.frame
  · split
    · exact .ite (fun _ => hs.frame.staTo.staCommand) fun _ => hs.frame.markLane.settlePort
    · split
      · split
        · split
          · exact .ite (fun _ => hs.frame.staTo.updSta.settlePort) fun _ => hs.frame.markLane.settlePort
          · exact .ite (fun _ => hs.frame.staTo.updSta) fun _ => hs.frame
          · exact .ite (fun _ => hs.frame.staTo.staCommand) fun _ => hs.frame
          · exact hs.frame
        · exact hs
      · exact hs

theorem State.Inv.recvFrame {p : Nat} {f : LaneFrame} (hs : s.Inv) : (s.recvFrame p f).Inv := by
  unfold State.recvFrame
  split
  · exact hs.recvA
  · exact hs.recvB
  · exact hs.recvIdent
  · exact hs.recvAck
  · exact hs.recvDelay
  · exact hs

theorem State.Inv.laneRecv {p : Nat} {f : LaneFrame} (hs : s.Inv) : (s.laneRecv p f).Inv :=
  .ite (fun _ => hs) fun _ => .foldl (fun _ _ hs' => hs'.recvFrame) _ _ hs.frame

theorem State.Inv.keeps_execLaneWindowStart {p : Fin 8} (hs : s.Inv) : KeepsInv (execLaneWindowStart p s) := by
  unfold execLaneWindowStart
  refine State.Inv.next ?_
  split
  · exact hs
  · exact .foldl (fun _ _ hs' => .ite (fun _ => hs'.recvFrame) fun _ => hs'.frame) _ _ (.foldl (fun _ _ hs' => hs'.frame) _ _ hs.frame)

theorem State.Inv.keeps_execLaneOutputRead {p : Fin 8} (hs : s.Inv) : KeepsInv (execLaneOutputRead p s) := by
  unfold execLaneOutputRead
  refine State.Inv.next ?_
  split
  · exact hs
  · extract_lets seq
    refine State.Inv.foldl (fun s1 k hs1 => ?_) _ _ hs
    extract_lets d sp
    split
    · exact hs1
    · split
      rename_i x img s2 he
      have hs2 : s2.Inv := State.Inv.of_eq_mk_snd (hs1.laneImage_snd) he
      exact hs2.frame

theorem State.Inv.keeps_execLaneWindowEnd {p : Fin 8} (hs : s.Inv) : KeepsInv (execLaneWindowEnd p s) :=
  (State.Inv.ite (fun _ => hs) fun _ => .foldl (fun _ _ hs1 => .ite (fun _ => hs1.frame.markLane.updPort_) fun _ => hs1) _ _ hs).next

theorem State.Inv.unheard {p k : Nat} (hs : s.Inv) : (s.unheard p k).Inv :=
  .ite (fun _ => hs.frame.markLane.updPort_.updSta.markLane.stationFault.record.irq.routeEvt.raise) fun _ => hs.frame.markLane.updPort_

theorem State.Inv.keeps_execLaneCycleStart {p : Fin 8} (hs : s.Inv) : KeepsInv (execLaneCycleStart p s) := by
  unfold execLaneCycleStart
  refine State.Inv.next ?_
  extract_lets x exp s1 seq
  have hs1 : s1.Inv := .foldl (fun _ _ hs' => .ite (fun _ => hs') fun _ => hs'.unheard) _ _ hs
  split
  · exact hs.portOff
  · split
    · exact hs
    · refine State.Inv.foldl (fun s2 k hs2 => ?_) _ _ hs1
      extract_lets y s3 sp
      have hs3 : s3.Inv := hs2.frame
      split
      · exact hs3
      · split
        · exact hs3.frame
        · split
          rename_i x' img s2' he
          have hs2' : s2'.Inv := State.Inv.of_eq_mk_snd (hs3.laneImage_snd) he
          exact hs2'.frame

theorem State.Inv.keeps_execAInRx {p : Fin 8} {k : Fin 128} {start : Nat} {fcs : Bool} {body : List Byte} {drv : List DriveStat} (hs : s.Inv) : KeepsInv (execAInRx p k start fcs body drv s) :=
  hs.laneRecv.next

theorem State.Inv.keeps_execBInRx {p : Fin 8} {k : Fin 128} {fcs : Bool} {body : List Byte} {drv : List DriveStat} (hs : s.Inv) : KeepsInv (execBInRx p k fcs body drv s) :=
  hs.laneRecv.next

theorem State.Inv.keeps_execIdentRx {p : Fin 8} {pos : Fin 128} {fcs : Bool} {body : List Byte} (hs : s.Inv) : KeepsInv (execIdentRx p pos fcs body s) :=
  hs.laneRecv.next

theorem State.Inv.keeps_execLaneAckRx {p : Fin 8} {k : Fin 128} {fcs : Bool} {typ res : Nat} (hs : s.Inv) : KeepsInv (execLaneAckRx p k fcs typ res s) :=
  hs.laneRecv.next

theorem State.Inv.keeps_execDelayRespRx {p : Fin 8} {pos : Fin 128} {fcs : Bool} {rtt turn : Nat} (hs : s.Inv) : KeepsInv (execDelayRespRx p pos fcs rtt turn s) :=
  hs.laneRecv.next

theorem State.Inv.keeps_execForeignFrameRx {p : Fin 8} (hs : s.Inv) : KeepsInv (execForeignFrameRx p s) :=
  (State.Inv.ite (fun _ => hs) fun _ => hs.frame).next

theorem State.Inv.keeps_execLneStart (hs : s.Inv) {p : Principal} {n : Fin 8} : KeepsInv (execLneStart p n s) := by
  unfold execLneStart
  refine State.Inv.next (hs.gated fun s hs => ?_)
  extract_lets x eth s1
  have hs1 : s1.Inv := hs.updPort_.laneResult
  refine .ite (fun _ => hs.laneResult) fun _ => .ite (fun _ => .ite (fun _ => hs1.portTo) fun _ => hs1) fun _ => ?_
  split
  rename_i c k s1 he
  have hs1 : s1.Inv := hs.of_readmit he
  have started := (hs1.updPort_ (p := n.val) (f := fun x => { x with eth := false, stopReq := false })).portTo (p := n.val) (st := .linkWait)
  exact .ite (fun _ => hs.laneResult) fun _ => .ite (fun _ => started.laneResult.startEnum) fun _ => started.laneResult

theorem State.Inv.keeps_execLneStop {p : Principal} {n : Fin 8} (hs : s.Inv) : KeepsInv (execLneStop p n s) :=
  (hs.gated (fun _ h => (State.Inv.ite (fun _ => h.portOff.updPort_) fun _ => h.frame).laneResult)).next

theorem State.Inv.keeps_execLneReenum (hs : s.Inv) {p : Principal} {n : Fin 8} : KeepsInv (execLneReenum p n s) := by
  unfold execLneReenum
  refine State.Inv.next (hs.gated fun s hs => .ite (fun _ => hs.laneResult) fun _ => ?_)
  split
  rename_i he
  exact .ite (fun _ => hs.laneResult) fun _ => (hs.of_readmit he).laneResult.startEnum

theorem State.Inv.staCmd {p : Principal} {n k code v : Nat} (hs : s.Inv) : (s.staCmd p n k code v).Inv :=
  hs.gated (fun _ h => .ite (fun _ => h.laneResult) fun _ => h.frame.laneResult)

theorem State.Inv.keeps_execStaRestart {p : Principal} {n : Fin 8} {k : Fin 128} (hs : s.Inv) : KeepsInv (execStaRestart p n k s) :=
  hs.staCmd.next

theorem State.Inv.keeps_execStaGoSafe {p : Principal} {n : Fin 8} {k : Fin 128} (hs : s.Inv) : KeepsInv (execStaGoSafe p n k s) :=
  hs.staCmd.next

theorem State.Inv.keeps_execProbeTimeout {p : Fin 8} (hs : s.Inv) : KeepsInv (execProbeTimeout p s) := by
  unfold execProbeTimeout
  refine State.Inv.next ?_
  extract_lets x isProbe s1
  have hs1 : s1.Inv := hs.frame
  exact .ite (fun _ => hs) fun _ => .ite (fun _ => hs1) fun _ => .ite (fun _ => hs1.endEnum) fun _ => .foldl (fun _ _ hs' => hs'.frame) _ _ hs1

theorem State.Inv.keeps_execDelayRemeasure {p : Fin 8} (hs : s.Inv) : KeepsInv (execDelayRemeasure p s) :=
  (State.Inv.ite (fun _ => hs) fun _ => .foldl (fun _ _ hs' => hs'.frame) _ _ hs).next

theorem State.Inv.keeps_execNewStationProbe (hs : s.Inv) {p : Fin 8} : KeepsInv (execNewStationProbe p s) := by
  unfold execNewStationProbe
  exact State.Inv.next (.ite (fun _ => hs) fun _ => hs.laneCtl)

theorem State.Inv.keeps_execLaneLinkUp {p : Fin 8} (hs : s.Inv) : KeepsInv (execLaneLinkUp p s) := by
  unfold execLaneLinkUp
  refine State.Inv.next ?_
  split
  · exact hs
  · exact .ite (fun _ => hs.frame.portTo) fun _ => .ite (fun _ => .ite (fun _ => hs.frame.portTo) fun _ => hs.frame.startEnum) fun _ => hs.frame

theorem State.Inv.keeps_execLaneLinkDown {p : Fin 8} (hs : s.Inv) : KeepsInv (execLaneLinkDown p s) :=
  (State.Inv.ite (fun _ => hs.frame.portLost.portTo.updPort_.record.raise) fun _ => hs.frame).next

theorem State.Inv.keeps_execLneInjUnlock {p : Principal} {n : Fin 8} (hs : s.Inv) : KeepsInv (execLneInjUnlock p n s) :=
  (hs.gated (fun _ h => .ite (fun _ => h.frame) fun _ => h.err)).next

theorem State.Inv.keeps_execLneInjEn {p : Principal} {n : Fin 8} {en : Bool} (hs : s.Inv) : KeepsInv (execLneInjEn p n en s) :=
  (hs.gated (fun _ h => .ite (fun _ => h.err) fun _ => .ite (fun _ => h.err) fun _ => .ite (fun _ => h) fun _ => h.frame.record)).next

theorem State.Inv.lneCommitApply (hs : s.Inv) : s.lneCommitApply.Inv := by
  unfold State.lneCommitApply
  extract_lets all off s1 s2
  have hs1 : s1.Inv := hs.frame
  have hs2 : s2.Inv := .foldl (fun _ _ hs' => .ite (fun _ => hs') fun _ => hs'.frame.markLane.stationFault.staTo.updSta) _ _ hs1
  unfold State.readmit
  split
  rename_i x code sta r he
  split
  · exact hs2
  · exact .foldl (fun _ _ hs' => hs'.takeAdmission) _ _ hs2

theorem State.Inv.lneRunStop (hs : s.Inv) : s.lneRunStop.Inv :=
  .foldl (fun _ _ hs' => .ite (fun _ => hs') fun _ => .ite (fun _ => hs'.portOff.updPort_) fun _ => hs'.frame) _ _ hs

theorem State.Inv.withLne (hs : s.Inv) {lne' : Lne} : State.Inv { s with lne := lne' } :=
  hs.frame

theorem State.Inv.laneAllOff (hs : s.Inv) : s.laneAllOff.Inv :=
  (State.Inv.foldl (fun _ _ hs' => .ite (fun _ => hs') fun _ => hs'.portOff) _ _ hs).withLne

/-! ### The recipe sequencer (R159–R184): step commits, conditions, entry actions, decisions, stream commands, checkpoints and the resume check -/

theorem State.Inv.gatedMem {b : Block} {addr : Nat} {lockable : Bool} {p : Principal} {v : Word} {f : State → State} (hs : s.Inv) (hf : ∀ a0, a0.Inv → State.Inv (f a0)) : (s.gatedMem b addr lockable p v f).Inv :=
  .ite (fun _ => hs.tellPrincipal) fun _ => .ite (fun _ => hs.deny.storeFault) fun _ => .ite (fun _ => hs.err) fun _ => (hf _ hs)

theorem State.Inv.stepResult {n step r : Nat} (hs : s.Inv) : (s.stepResult n step r).Inv :=
  .ite (fun _ => hs.frame.record.irq) fun _ => hs.frame.err.record.irq

theorem State.Inv.keeps_execRsqStepGo {p : Principal} {n : Fin 64} {step : BitVec 16} (hs : s.Inv) : KeepsInv (execRsqStepGo p n step s) := by
  unfold execRsqStepGo
  refine State.Inv.next ?_
  refine State.Inv.gated hs (fun s' hs' => ?_)
  split
  · exact hs'.err
  · split
    · exact hs'.err
    · exact .ite (fun _ => hs'.stepResult) fun _ => .ite (fun _ => hs'.store32.updRsq) fun _ => hs'.stepResult

theorem State.Inv.keeps_execStepCommitDone (hs : s.Inv) : KeepsInv (execStepCommitDone s) := by
  unfold execStepCommitDone
  refine State.Inv.next ?_
  split
  · exact hs
  · exact .ite (fun _ => hs.clearCommit.stepResult) fun _ => .ite (fun _ => hs.clearCommit.stepResult) fun _ => hs.clearCommit.store.store.stepResult

theorem State.Inv.keeps_execStepPrefetchDone {n : Fin 64} (hs : s.Inv) : KeepsInv (execStepPrefetchDone n s) :=
  hs.frame.next

theorem State.Inv.sFault {n e : Nat} (hs : s.Inv) : (s.sFault n e).Inv := by
  unfold State.sFault
  exact hs.sstate.record.err.raise

theorem State.Inv.logWrite {w : StreamWrite} (hs : s.Inv) : (s.logWrite w).Inv :=
  hs.frame

theorem State.Inv.doAction_fst (hs : s.Inv) {snap : State} {n : Nat} {a : Word × Word} : (s.doAction snap n a).1.Inv := by
  have hs' : FstInv (s.doAction snap n a) := by
    unfold State.doAction
    split
    extract_lets x tgt val full
    split
    · exact .mk hs.logWrite.driveOut
    · refine .ite (fun _ => .mk hs.err) fun _ => ?_
      have driven (w : StreamWrite) (p : Nat) (v : Int) : ((s.logWrite w).driveOut p v).Inv := hs.logWrite.driveOut
      exact .ite (fun _ => .mk (driven _ _ _)) fun _ => .mk (driven _ _ _).logWrite.rampCmd
    · exact .mk hs.logWrite.modeCmd
    · have hs0 (w : StreamWrite) : (s.logWrite w).Inv := hs.logWrite
      exact .mk (FstInv.ite (fun _ => .mk (hs0 _).err) fun _ => .ite (fun _ => (hs0 _).cancelReq_fst) fun _ => (hs0 _).armReq_fst)
    · exact .mk hs.logWrite.orFlags
    · exact .mk hs.updStream
    · exact .mk hs.updStream
    · exact .mk hs
  exact hs'

theorem State.Inv.doActions_fst (hs : s.Inv) {snap : State} {n first : Nat} {acts : List (Word × Word)} : (s.doActions snap n first acts).1.Inv := by
  unfold State.doActions
  refine State.Inv.foldl_fst (fun r a hr => ?_) acts _ hs
  dsimp only
  exact FstInv.ite (fun _ => .mk hr.doAction_fst) fun _ => .mk hr.doAction_fst.record.raise

theorem State.Inv.enterStep (hs : s.Inv) {n step cause : Nat} : (s.enterStep n step cause).Inv := by
  unfold State.enterStep
  refine .ite (fun _ => hs.sFault) fun _ => ?_
  extract_lets base ws s1 s2
  have hs2 : s2.Inv := hs.updStream.record
  split
  rename_i s3 hold he
  have hs3 : s3.Inv := State.Inv.of_eq_mk hs2.doActions_fst he
  extract_lets s4
  have hs4 : s4.Inv := hs3.rsqEvt.evalMet.ckptMark
  exact .ite (fun _ => hs4.sHold) fun _ => hs4

theorem State.Inv.abortList (hs : s.Inv) {n : Nat} : (s.abortList n).Inv := by
  unfold State.abortList
  exact hs.doActions_fst.evalMet

theorem State.Inv.branch {n dec cond : Nat} (hs : s.Inv) : (s.branch n dec cond).Inv := by
  unfold State.branch
  extract_lets x s2 cause
  have hs2 : s2.Inv := (State.Inv.ite (fun _ => hs) fun _ => hs.rsqAlm).updStream
  split
  rename_i x' n3 j3 he
  split
  · split
    · exact hs2.enterStep
    · exact hs2.enterStep
    · exact hs2.frame
  · split
    · exact .ite (fun _ => hs2.sstate) fun _ => hs2.enterStep
    · exact hs2.sstate
    · exact hs2.sHold.record.raise
    · exact .ite (fun _ => hs2.sstate.enterStep) fun _ => hs2.sFault

theorem State.Inv.ckptLoad {n : Nat} (hs : s.Inv) : (s.ckptLoad n).Inv := by
  unfold State.ckptLoad
  dsimp only
  split
  · exact hs.updStream
  · split
    · exact hs
    · split
      · exact hs.updStream
      · split
        · exact hs.updStream.updStream.updStream
        · exact hs.updStream.updStream.updStream
        · exact hs.updStream.updStream.updStream
        · exact hs.updStream.updStream.updStream
        · exact hs.updStream.updStream.updStream
        · exact hs.updStream

theorem State.Inv.ckptLoadAll (hs : s.Inv) : s.ckptLoadAll.Inv :=
  .foldl (fun _ _ hs' => hs'.ckptLoad) _ _ hs.frame

theorem State.Inv.refuseResume {n reason param : Nat} (hs : s.Inv) : (s.refuseResume n reason param).Inv := by
  unfold State.refuseResume
  exact hs.frame.record.rsqAlm.irq

theorem State.Inv.tolerance {n : Nat} {ws : List Word} (hs : s.Inv) : (s.tolerance n ws).Inv := by
  unfold State.tolerance
  dsimp only
  split
  · exact hs.refuseResume
  · exact hs.frame.irq

theorem State.Inv.resumeWait {n : Nat} {ws : List Word} (hs : s.Inv) : (s.resumeWait n ws).Inv :=
  .ite (fun _ => hs.tolerance) fun _ => hs.frame

theorem State.Inv.resumeCheck (hs : s.Inv) {n : Nat} {recheck : Bool} : (s.resumeCheck n recheck).Inv := by
  have refused (r v : Nat) : (s.refuseResume n r v).Inv := hs.refuseResume
  unfold State.resumeCheck
  refine .ite (fun _ => hs.updStream) fun _ => .ite (fun _ => refused _ _) fun _ => .ite (fun _ => refused _ _) fun _ => ?_
  dsimp only
  split
  · exact refused _ _
  · refine .ite (fun _ => refused _ _) fun _ => .ite (fun _ => refused _ _) fun _ => .ite (fun _ => refused _ _) fun _ =>
      .ite (fun _ => refused _ _) fun _ => .ite (fun _ => refused _ _) fun _ => .ite (fun _ => refused _ _) fun _ =>
      .ite (fun _ => refused _ _) fun _ => ?_
    split
    · exact refused _ _
    · exact hs.resumeWait

theorem State.Inv.keeps_execResumeWaitExpiry {n : Fin 64} (hs : s.Inv) : KeepsInv (execResumeWaitExpiry n s) := by
  unfold execResumeWaitExpiry
  refine State.Inv.next ?_
  extract_lets x
  split
  · extract_lets ws
    split
    · exact hs.refuseResume
    · exact hs.tolerance
  · exact hs

theorem State.Inv.resume (hs : s.Inv) {n : Nat} : (s.resume n).Inv := by
  unfold State.resume
  split
  · exact hs.refuseResume
  · extract_lets x ws step atB parked st ent e s1 s2
    have hs2 : s2.Inv := hs.updStream.record.rsqEvt
    refine .ite (fun _ => hs.refuseResume) fun _ => ?_
    split
    rename_i s3 hold he
    have hs3 : s3.Inv := by
      refine State.Inv.of_eq_mk ?_ he
      exact FstInv.ite (fun _ => .mk hs2) fun _ => .mk hs2.record.doActions_fst.rsqEvt.evalMet
    extract_lets s4
    have hs4 : s4.Inv := (State.Inv.ite (fun _ => hs3.sHold) fun _ => hs3).ckptMark.ckptFlush
    exact hs4.record

theorem State.Inv.cmdAct {n : Nat} {c : SCmd} (hs : s.Inv) : (s.cmdAct n c).Inv := by
  unfold State.cmdAct
  dsimp only
  split
  · exact .ite (fun _ => hs.sHold) fun _ => hs
  · exact .ite (fun _ => hs.sstate) fun _ => hs
  · exact .ite (fun _ => hs.sstate) fun _ => hs.frame
  · split
    · exact hs.sstate
    · exact hs.sstate
    · exact hs.sstate
    · exact hs.sstate
    · exact hs
  · exact .ite (fun _ => hs.sstate.ckptPut) fun _ => hs
  · exact hs.frame

theorem State.Inv.cmdNow {n : Nat} (hs : s.Inv) : (s.cmdNow n).Inv :=
  .ite (fun _ => (State.Inv.foldl (fun _ _ hs' => hs'.cmdAct) _ _ hs.frame).sHold) fun _ => .foldl (fun _ _ hs' => hs'.cmdAct) _ _ hs.frame

theorem State.Inv.goPark {n : Nat} (hs : s.Inv) : (s.goPark n).Inv :=
  .ite (fun _ => hs.sstate.enterStep) fun _ => hs.sFault

theorem State.Inv.tickAct_fst {n : Nat} {c : SCmd} (hs : s.Inv) : (s.tickAct n c).1.Inv := by
  unfold State.tickAct
  extract_lets x
  split
  · split
    · exact hs.sstate.enterStep
    · exact hs.sstate.enterStep
    · exact hs.sstate.enterStep
    · exact hs.sstate.enterStep
    · exact hs.sstate.enterStep
    · exact hs.sstate.enterStep
    · exact hs
  · exact State.Inv.ite_fst (fun _ => State.Inv.ite_fst (fun _ => hs.sstate.enterStep) fun _ => hs.sstate) fun _ => hs
  · exact State.Inv.ite_fst (fun _ => hs.abortList.sstate) fun _ => hs
  · exact State.Inv.ite_fst (fun _ => hs.goPark) fun _ => hs
  · exact State.Inv.ite_fst (fun _ => hs.frame) fun _ => hs
  · exact hs

theorem State.Inv.cmdTick_fst {n : Nat} (hs : s.Inv) : (s.cmdTick n).1.Inv := by
  unfold State.cmdTick
  extract_lets x r executing
  have hr : r.1.Inv := by
    unfold r
    refine State.Inv.foldl_fst (fun a c ha => ?_) _ _ ?_
    · exact ha.tickAct_fst
    · exact hs.frame
  exact State.Inv.ite_fst (fun _ => hr.goPark) fun _ => hr

theorem State.Inv.streamStep {n : Nat} {tick : Bool} (hs : s.Inv) : (s.streamStep n tick).Inv :=
  .ite (fun _ => .ite (fun _ => hs.frame) fun _ => hs.frame.branch) fun _ => hs.frame

theorem State.Inv.ckptEnd {n seq : Nat} {tick : Bool} (hs : s.Inv) : (s.ckptEnd n seq tick).Inv :=
  .ite (fun _ => .ite (fun _ => hs.ckptFlush.updStream.ckpt) fun _ => hs.ckptFlush.updStream) fun _ => hs.ckptFlush

theorem State.Inv.ueFault {n : Nat} (hs : s.Inv) : (s.ueFault n).Inv := by
  unfold State.ueFault
  refine State.Inv.sFault ?_
  refine State.Inv.updStream ?_
  split
  · exact hs
  · split
    · exact hs.sstate
    · split
      · split
        · exact hs.sstate
        · exact hs.sstate
      · exact hs

theorem State.Inv.streamEval {n : Nat} {tick ue : Bool} (hs : s.Inv) : (s.streamEval n tick ue).Inv := by
  unfold State.streamEval
  extract_lets x s3 s3'
  have hs3 : s3.Inv := hs.cmdNow
  have hs3' : s3'.Inv := by
    unfold s3'
    split
    · exact hs.ueFault
    · split
      rename_i x' s3'' hold he
      have hs3'' : s3''.Inv := State.Inv.of_eq_mk (State.Inv.ite_fst (fun _ => hs3.cmdTick_fst) fun _ => hs3) he
      extract_lets y
      split
      · exact hs3''
      · split
        · exact hs3''.streamStep
        · split
          · split
            · exact hs3''.resumeWait
            · exact .ite (fun _ => hs3''.resumeCheck) fun _ => hs3''
            · exact .ite (fun _ => hs3''.resume) fun _ => hs3''
            · exact hs3''
          · exact hs3''
  exact hs3'.ckptEnd

theorem State.Inv.streamRun {n : Nat} {tick ue : Bool} (hs : s.Inv) : (s.streamRun n tick ue).Inv := by
  unfold State.streamRun
  exact hs.frame.streamEval.updRsq

theorem State.Inv.streamVote (hs : s.Inv) {n : Nat} {tick ue voter : Bool} {faults : List (Fin 3 × LaneFault)} :
    (s.streamVote n tick ue voter faults).Inv := by
  unfold State.streamVote
  extract_lets t w
  have ht : t.Inv := hs.streamRun
  refine .ite (fun _ => hs) fun _ => .ite (fun _ => ht.foldSigs.updXng) fun _ => ?_
  split <;> rename_i he
  · exact State.Inv.streamRun (hs.vote_fst.of_eq_mk he)
  · exact hs.vote_fst.of_eq_mk he

theorem State.Inv.recheckBlocked {n : Nat} (hs : s.Inv) : (s.recheckBlocked n).Inv := by
  unfold State.recheckBlocked
  extract_lets x asked s1
  have hs1 : s1.Inv := .ite (fun _ => hs.frame) fun _ => hs
  split
  · exact hs1.resumeCheck
  · exact hs1

theorem State.Inv.rsqInstant {tick : Bool} {faults : List (Fin 64 × Fin 3 × LaneFault)} {errs : StreamErrs} (hs : s.Inv) : (s.rsqInstant tick faults errs).Inv := by
  unfold State.rsqInstant
  split
  · exact hs
  · exact .ite (fun _ => .foldl (fun _ _ hs' => hs'.streamVote) _ _ hs) fun _ => .ite (fun _ => .foldl (fun _ _ hs' => hs'.recheckBlocked) _ _ hs) fun _ => hs

theorem State.Inv.keeps_execStreamEvaluation {faults : List (Fin 64 × Fin 3 × LaneFault)} {errs : StreamErrs} (hs : s.Inv) : KeepsInv (execStreamEvaluation faults errs s) :=
  hs.rsqInstant.next

theorem State.Inv.keeps_execStepTick {faults : List (Fin 64 × Fin 3 × LaneFault)} {errs : StreamErrs} (hs : s.Inv) : KeepsInv (execStepTick faults errs s) :=
  (State.Inv.ite (fun _ => hs.frame.rsqInstant) fun _ => hs).next

theorem State.Inv.streamStat {n e : Nat} (hs : s.Inv) : (s.streamStat n e).Inv :=
  .ite (fun _ => hs.frame) fun _ => hs.frame.err

theorem State.Inv.streamCmd {p : Principal} {n : Nat} {c : SCmd} (hs : s.Inv) : (s.streamCmd p n c).Inv := by
  unfold State.streamCmd
  exact hs.gated (fun _ h => .ite (fun _ => h.streamStat) fun _ => h.frame.streamStat)

theorem State.Inv.keeps_execStreamStart {p : Principal} {n : Fin 64} {step : BitVec 16} (hs : s.Inv) : KeepsInv (execStreamStart p n step s) :=
  hs.streamCmd.next

theorem State.Inv.keeps_execStreamHold {p : Principal} {n : Fin 64} (hs : s.Inv) : KeepsInv (execStreamHold p n s) :=
  hs.streamCmd.next

theorem State.Inv.keeps_execStreamResume {p : Principal} {n : Fin 64} (hs : s.Inv) : KeepsInv (execStreamResume p n s) :=
  hs.streamCmd.next

theorem State.Inv.keeps_execStreamPause {p : Principal} {n : Fin 64} (hs : s.Inv) : KeepsInv (execStreamPause p n s) :=
  hs.streamCmd.next

theorem State.Inv.keeps_execStreamAbort {p : Principal} {n : Fin 64} (hs : s.Inv) : KeepsInv (execStreamAbort p n s) :=
  hs.streamCmd.next

theorem State.Inv.keeps_execStreamPark {p : Principal} {n : Fin 64} (hs : s.Inv) : KeepsInv (execStreamPark p n s) :=
  hs.streamCmd.next

theorem State.Inv.keeps_execStreamReset {p : Principal} {n : Fin 64} (hs : s.Inv) : KeepsInv (execStreamReset p n s) :=
  hs.streamCmd.next

theorem State.Inv.keeps_execStreamRecheck {p : Principal} {n : Fin 64} (hs : s.Inv) : KeepsInv (execStreamRecheck p n s) :=
  hs.streamCmd.next

theorem State.Inv.keeps_execStreamDiscard {p : Principal} {n : Fin 64} (hs : s.Inv) : KeepsInv (execStreamDiscard p n s) :=
  hs.streamCmd.next

theorem State.Inv.keeps_execRsqResumeGo {p : Principal} (hs : s.Inv) : KeepsInv (execRsqResumeGo p s) :=
  (hs.gated (fun _ h => .ite (fun _ => h.err) fun _ => .foldl (fun _ _ hs' => hs'.frame) _ _ h)).next

theorem State.Inv.keeps_execStflagSet {p : Principal} {n : Fin 64} {m : Word} (hs : s.Inv) : KeepsInv (execStflagSet p n m s) :=
  (hs.gatedMem (fun _ h => .ite (fun _ => h.err) fun _ => h.frame)).next

theorem State.Inv.keeps_execStreamWindowWrite {p : Principal} {n : Fin 64} {off : Fin 1024} {v : Word} (hs : s.Inv) : KeepsInv (execStreamWindowWrite p n off v s) := by
  unfold execStreamWindowWrite
  refine State.Inv.next ?_
  extract_lets o
  refine State.Inv.gatedMem hs (fun s' hs' => ?_)
  extract_lets x st
  split
  · exact hs'.err
  · split
    · exact hs'.frame
    · split
      · exact hs'.frame
      · split
        · exact hs'
        · exact .ite (fun _ => hs'.err) fun _ => .ite (fun _ => hs'.err) fun _ => .ite (fun _ => hs'.frame.ckptPut.updStream) fun _ => hs'.frame

theorem State.Inv.keeps_execRsqEvtClear {p : Principal} {i : Fin 2} {m : Word} (hs : s.Inv) : KeepsInv (execRsqEvtClear p i m s) :=
  (hs.gated (fun _ h => h.frame)).next

theorem State.Inv.keeps_execRsqAlmClear {p : Principal} {i : Fin 2} {m : Word} (hs : s.Inv) : KeepsInv (execRsqAlmClear p i m s) :=
  (hs.gated (fun _ h => h.frame)).next

theorem State.Inv.rsqMemFence (hs : s.Inv) : s.rsqMemFence.Inv :=
  .foldl (fun _ _ hs' => hs'.frame) _ _ hs

theorem State.Inv.rsqExpire (hs : s.Inv) : s.rsqExpire.Inv :=
  hs.of_same (State.rsqExpire_same _) rfl

/-! ### Commands on the common header that need nothing of a block's own chapter (R34, R35, R37, R39, R42, R45) and the system block's: the denied-
write log, dual commit and party keys (R51–R56) -/

theorem State.Inv.keeps_execIrqClear {b : Block} {p : Principal} {m : Word} (hs : s.Inv) : KeepsInv (execIrqClear b p m s) :=
  (hs.gated (fun _ h => h.frame)).next

theorem State.Inv.keeps_execBlkErrClear {b : Block} {p : Principal} (hs : s.Inv) : KeepsInv (execBlkErrClear b p s) :=
  (hs.gated (fun _ h => h.frame)).next

theorem State.Inv.keeps_execCommit {b : Block} {p : Principal} (hs : s.Inv) : KeepsInv (execCommit b p s) :=
  (hs.gated (fun _ h => h.frame)).next

theorem State.Inv.keeps_execDiscard {b : Block} {p : Principal} (hs : s.Inv) : KeepsInv (execDiscard b p s) :=
  (hs.gated (fun _ h => h.frame)).next

theorem State.Inv.keeps_execLock {b : Block} {p : Principal} (hs : s.Inv) : KeepsInv (execLock b p s) :=
  (hs.gated (fun _ h => h.frame)).next

theorem State.Inv.keeps_execFenceDrainEnd {b : Block} {lost : List Requester} (hs : s.Inv) : KeepsInv (execFenceDrainEnd b lost s) :=
  (State.Inv.foldl (fun _ _ hs' => hs'.tell) _ _ hs).updHd.next

theorem State.Inv.keeps_execDenyLogClear {p : Principal} (hs : s.Inv) : KeepsInv (execDenyLogClear p s) :=
  (hs.gated (fun _ h => h.frame)).next

theorem State.Inv.updDc {f : Dc → Dc} (hs : s.Inv) : (s.updDc f).Inv :=
  hs.frame

theorem State.Inv.dcEnd {target result : Nat} {idle : Bool} (hs : s.Inv) : (s.dcEnd target result idle).Inv :=
  State.dcEnd_inv _ _ _ _ hs

theorem State.Inv.dcAbandon (hs : s.Inv) : s.dcAbandon.Inv :=
  State.dcAbandon_inv _ hs

theorem State.Inv.dcCancel (hs : s.Inv) : s.dcCancel.Inv :=
  .ite (fun _ => hs) fun _ => hs.dcEnd

theorem State.Inv.dcStage (hs : s.Inv) : s.dcStage.Inv :=
  .ite (fun _ => hs.dcEnd) fun _ => hs.frame

theorem State.Inv.dcCtrl {v : Word} (hs : s.Inv) : (s.dcCtrl v).Inv :=
  .ite (fun _ => (State.Inv.ite (fun _ => (State.Inv.ite (fun _ => hs) fun _ => .ite (fun _ => hs.err) fun _ => hs.frame).dcCancel) fun _ => .ite (fun _ => hs) fun _ => .ite (fun _ => hs.err) fun _ => hs.frame).dcStage) fun _ => .ite (fun _ => (State.Inv.ite (fun _ => hs) fun _ => .ite (fun _ => hs.err) fun _ => hs.frame).dcCancel) fun _ => .ite (fun _ => hs) fun _ => .ite (fun _ => hs.err) fun _ => hs.frame

theorem State.Inv.keeps_execDcStage {p : Principal} {v : Word} (hs : s.Inv) : KeepsInv (execDcStage p v s) :=
  (hs.gated (fun _ h => h.dcCtrl)).next

theorem State.Inv.keeps_execDcCancel {p : Principal} {target : Fin 8} (hs : s.Inv) : KeepsInv (execDcCancel p target s) :=
  (hs.gated (fun _ h => h.dcCtrl)).next

theorem State.Inv.keeps_execDcCopyDone (hs : s.Inv) : KeepsInv (execDcCopyDone s) :=
  (State.Inv.ite (fun _ => hs) fun _ => .ite (fun _ => hs.frame.dcEnd) fun _ => hs.frame.draw_snd.updDc.record).next

theorem State.Inv.keeps_execDcSubmit {p : Principal} (hs : s.Inv) : KeepsInv (execDcSubmit p s) :=
  (hs.gated (fun _ h => h.frame)).next

theorem State.Inv.dcTagRecord {party result : Nat} (hs : s.Inv) : (s.dcTagRecord party result).Inv :=
  hs.frame.record

theorem State.Inv.dcApply (hs : s.Inv) : s.dcApply.Inv := by
  unfold State.dcApply
  dsimp only
  split
  · exact hs.frame
  · exact hs.frame
  · exact hs.frame
  · exact hs.frame
  · exact hs.frame.record
  · exact hs

theorem State.Inv.dcBad {party : Nat} (hs : s.Inv) : (s.dcBad party).Inv :=
  .ite (fun _ => hs.frame.dcTagRecord.dcEnd.raise) fun _ => hs.frame.dcTagRecord

theorem State.Inv.dcVerify {t : DcTag} (hs : s.Inv) : (s.dcVerify t).Inv := by
  unfold State.dcVerify
  dsimp only
  split
  · exact hs.dcTagRecord
  · split
    · exact hs.dcTagRecord
    · split
      · exact hs.dcBad
      · exact .ite (fun _ => .ite (fun _ => hs.frame.dcTagRecord.dcApply.dcEnd) fun _ => hs.frame.dcTagRecord) fun _ => hs.dcBad

theorem State.Inv.keeps_execDcTagVerify (hs : s.Inv) : KeepsInv (execDcTagVerify s) := by
  unfold execDcTagVerify
  refine State.Inv.next ?_
  split
  · exact hs
  · exact hs.frame.dcVerify

theorem State.Inv.keeps_execDcStageExpired (hs : s.Inv) : KeepsInv (execDcStageExpired s) :=
  (State.Inv.ite (fun _ => hs.dcEnd) fun _ => hs).next

theorem State.Inv.keeps_execDcKeyWrite {p : Principal} {n : Fin 8} {v : Word} (hs : s.Inv) : KeepsInv (execDcKeyWrite p n v s) :=
  (hs.gated (fun _ h => .ite (fun _ => h.err) fun _ => h.frame)).next

theorem State.Inv.keeps_execDcEnroll {p : Principal} {slot : Fin 4} {go : Bool} (hs : s.Inv) : KeepsInv (execDcEnroll p slot go s) :=
  (hs.gated (fun _ h => .ite (fun _ => h.err) fun _ => .ite (fun _ => h) fun _ => .ite (fun _ => h.err) fun _ => h.frame.record)).next

end Sys2Proof.Machine
end

section
/-!
SUPPORT. What keeps the invariant: power, the safety island, the power controller, forcing, the retention store, start-up, resets and commits.
-/

namespace Sys2Proof.Machine

set_option Elab.async false

variable {s : State}

/-! ### What a power-down, a power-up and a reset do to the state of each block (R35, R44, R105, R124, R155, R178, R206, R238, R343, R387, R411, R419,
R439, R454, R466), and the full device reset -/

theorem State.Inv.dropMem (hs : s.Inv) {p : Nat → Bool} : (s.dropMem p).Inv :=
  hs.mk' (.inr (Tab.wf_keep _ hs.mem)) (.inl rfl) (.inl rfl) (.inl rfl)

theorem State.Inv.clearRegs {b : Block} {all : Bool} (hs : s.Inv) : (s.clearRegs b all).Inv :=
  hs.frame

theorem State.Inv.dropRefs {b : Block} (hs : s.Inv) : (s.dropRefs b).Inv :=
  hs.frame

theorem State.Inv.blkData {b : Block} (hs : s.Inv) : (s.blkData b).Inv := by
  unfold State.blkData
  split
  · exact hs.frame
  · exact hs.frame
  · exact hs.frame
  · exact hs.frame
  · exact hs.frame
  · exact hs.frame
  · exact hs.frame
  · exact hs.frame
  · exact hs.frame
  · exact hs.frame
  · exact hs.frame
  · exact hs.frame
  · exact hs.frame
  · exact hs.frame
  · exact hs.frame
  · exact hs.frame
  · exact hs.frame
  · exact hs

theorem State.Inv.blkClear {b : Block} (hs : s.Inv) : (s.blkClear b).Inv :=
  .ite (fun _ => hs) fun _ => hs.frame.dropMem.dropRefs.blkData

theorem State.Inv.blkLeave {b : Block} (hs : s.Inv) : (s.blkLeave b).Inv := by
  unfold State.blkLeave
  split
  · exact hs.coarseEnter
  · exact hs.laneAllOff
  · exact hs.aveFence
  · exact hs.axesLeave
  · exact hs

theorem State.Inv.hdrDown {b : Block} (hs : s.Inv) : (s.hdrDown b).Inv :=
  hs.frame

theorem State.Inv.domPwr {d : Nat} {w : Pwr} (hs : s.Inv) : (s.domPwr d w).Inv :=
  .foldl (fun _ _ hs' => hs'.frame) _ _ hs

theorem State.Inv.coresOff {ds : List Nat} (hs : s.Inv) : (s.coresOff ds).Inv :=
  .ite (fun _ => hs) fun _ => (State.Inv.foldl (fun _ _ hs' => hs'.redeliver.updCore) _ _ hs).detach

theorem State.Inv.domRecord {d old new : Nat} (hs : s.Inv) : (s.domRecord d old new).Inv :=
  hs.record

theorem State.Inv.domDown {d : Nat} (hs : s.Inv) : (State.domDown d s).Inv := by
  unfold State.domDown
  extract_lets s1 s2 s3 s4
  have hs1 : s1.Inv := hs.coresOff
  have hs2 : s2.Inv := .foldl (fun _ _ hs' => hs'.blkLeave) _ _ hs1
  have hs3 : s3.Inv := .foldl (fun _ _ hs' => hs'.blkClear.hdrDown) _ _ hs2
  have hs4 : s4.Inv := .ite (fun _ => hs3.judgeCoords) fun _ => hs3
  exact hs4.frame.domRecord

theorem State.Inv.blkStart {b : Block} (hs : s.Inv) : (s.blkStart b).Inv := by
  unfold State.blkStart
  split
  · exact .ite (fun _ => hs.ckptLoadAll) fun _ => hs.frame
  · exact hs.hrcRestart
  · exact hs.frame
  · exact hs

theorem State.Inv.timUp {net elapsed : Nat} (hs : s.Inv) : (s.timUp net elapsed).Inv :=
  (State.Inv.ite (fun _ => hs.frame) fun _ => hs.coarseLeave).servoRestart

theorem State.Inv.domUp {d net elapsed : Nat} (hs : s.Inv) : (State.domUp d net elapsed s).Inv := by
  unfold State.domUp
  extract_lets s1 s2 s3 s4 s5 s5'
  have hs1 : s1.Inv := .foldl (fun _ _ hs' => hs'.frame) _ _ hs
  have hs3 : s3.Inv := hs1.frame
  have hs4 : s4.Inv := .ite (fun _ => hs3.timUp) fun _ => hs3
  have hs5 : s5.Inv := .foldl (fun _ _ hs' => hs'.blkStart) _ _ hs4
  have hs5' : s5'.Inv := .foldl (fun _ _ hs' => .ite (fun _ => hs'.resetCore) fun _ => hs') _ _ hs5
  exact hs5'.domRecord.degFollow

theorem State.Inv.resetRelease (hs : s.Inv) : s.resetRelease.Inv :=
  hs.frame

theorem State.Inv.fullReset (hs : s.Inv) {cause : Nat} : (State.fullReset cause s).Inv := by
  have cleared {t : State} (h : t.Inv) (b : Block) :
      (if domSwitched b then (((t.clearRegs b false).dropMem fun a => decide (b ≠ .mem) && blkWindow b a).dropRefs b).blkData b else t).Inv :=
    .ite (fun _ => h.clearRegs.dropMem.dropRefs.blkData) fun _ => h
  unfold State.fullReset
  extract_lets sd s0 s1 life sys rec erm clk pmc fio s2
  have hsd : sd.Inv := hs.dcAbandon.axesLeave.evrRelease
  have hs0 : s0.Inv := .ite (fun _ => hsd.coarseEnter) fun _ => hsd
  have hs1 : s1.Inv := State.Inv.foldl (fun _ b h => cleared h b) Block.all s0 hs0
  clear_value s1
  have hs2 : s2.Inv := ⟨hs1.mem, hs1.evrQueues, hs1.evrSafe, Nat.zero_le 16, hs1.retPend⟩
  exact .ite (fun _ => hs2.record) fun _ => hs2

/-! ### Lane ports in Ethernet mode (R325) and their PTP stamps (R353–R356) -/

theorem State.Inv.keeps_execEthRxFrame {p : Fin 8} {f : List Byte} {fcs : Bool} {t8 : Nat} (hs : s.Inv) : KeepsInv (execEthRxFrame p f fcs t8 s) := by
  unfold execEthRxFrame
  refine State.Inv.next ?_
  extract_lets x n len s1 e buf data stamp bad s2
  have hs1 : s1.Inv := .ite (fun _ => hs) fun _ => hs.frame
  have hs2 : s2.Inv := hs1.storeRam.storeRam
  exact .ite (fun _ => hs) fun _ => .ite (fun _ => hs1) fun _ => hs2.frame

theorem State.Inv.keeps_execEthRxTail {p : Principal} {n : Fin 8} {v : BitVec 16} (hs : s.Inv) : KeepsInv (execEthRxTail p n v s) :=
  (hs.gated (fun _ h => h.frame)).next

theorem State.Inv.keeps_execEthTxTail {p : Principal} {n : Fin 8} {v : BitVec 16} (hs : s.Inv) : KeepsInv (execEthTxTail p n v s) :=
  (hs.gated (fun _ h => h.frame)).next

theorem State.Inv.keeps_execEthTxDone (hs : s.Inv) {p : Fin 8} {t8 : Nat} : KeepsInv (execEthTxDone p t8 s) := by
  unfold execEthTxDone
  refine State.Inv.next (.ite (fun _ => hs) fun _ => ?_)
  extract_lets e w f ns s1 fin
  have hs1 : s1.Inv := hs.storeRam
  split
  · exact hs1.updPort_.pushStamp
  · exact hs1.updPort_

/-! ### The safety island's commands (R268–R288): inputs, reset, outputs, supply, the parameter set and the safety firmware -/

theorem State.Inv.safBoth {f : State → Nat → State} (hs : s.Inv) (hf : ∀ a0 a1, a0.Inv → State.Inv (f a0 a1)) : (safBoth s f).Inv :=
  (hf _ _ (hf _ _ hs))

theorem State.Inv.safEvalBoth (hs : s.Inv) : s.safEvalBoth.Inv :=
  hs.safBoth (fun _ _ h => h.safEval)

theorem State.Inv.safStanding {ch : Nat} (hs : s.Inv) : (s.safStanding ch).Inv :=
  .foldl (fun _ _ hs' => .ite (fun _ => hs') fun _ => .foldl (fun _ _ hs'' => .ite (fun _ => hs''.safFault) fun _ => hs'') _ _ hs') _ _ (.foldl (fun _ _ hs' => hs'.safFaultAll) _ _ (.ite (fun _ => (State.Inv.ite (fun _ => (State.Inv.ite (fun _ => hs.safFaultAll) fun _ => hs).safFaultAll) fun _ => .ite (fun _ => hs.safFaultAll) fun _ => hs).safFaultAll) fun _ => .ite (fun _ => (State.Inv.ite (fun _ => hs.safFaultAll) fun _ => hs).safFaultAll) fun _ => .ite (fun _ => hs.safFaultAll) fun _ => hs))

theorem State.Inv.safLeaveInit {ch : Nat} (hs : s.Inv) : (s.safLeaveInit ch).Inv :=
  .ite (fun _ => (State.Inv.foldl (fun _ _ hs' => .ite (fun _ => hs'.frame.edmStart) fun _ => hs') _ _ hs).safEval) fun _ => hs

theorem State.Inv.discFollow {n : Nat} (hs : s.Inv) : (s.discFollow n).Inv := by
  unfold State.discFollow
  dsimp only
  split
  · exact .ite (fun _ => hs.frame) fun _ => hs
  · exact .ite (fun _ => hs) fun _ => hs.frame

theorem State.Inv.keeps_execSafetyInputEdge {n : Fin 4} {b level : Bool} (hs : s.Inv) : KeepsInv (execSafetyInputEdge n b level s) :=
  hs.frame.discFollow.next

theorem State.Inv.pairClear {ch n : Nat} (hs : s.Inv) : (s.pairClear ch n).Inv :=
  .ite (fun _ => hs) fun _ => .ite (fun _ => hs.frame) fun _ => .ite (fun _ => hs.frame) fun _ => hs

theorem State.Inv.keeps_execSafeFilterExpiry {ch : Fin 2} {n : Fin 4} {b : Bool} {openUs rbUs : Nat} (hs : s.Inv) : KeepsInv (execSafeFilterExpiry ch n b openUs rbUs s) :=
  (State.Inv.ite (fun _ => hs) fun _ => hs.frame.pairClear.safEval).next

theorem State.Inv.keeps_execDiscrepancyExpiry {n : Fin 4} (hs : s.Inv) : KeepsInv (execDiscrepancyExpiry n s) := by
  unfold execDiscrepancyExpiry
  refine State.Inv.next ?_
  split
  · exact hs
  · exact (hs.frame.safBoth (fun _ _ h => h.pairFault)).safEvalBoth

theorem State.Inv.keeps_execTestPulse {srcB : Bool} {low : Nat} (hs : s.Inv) : KeepsInv (execTestPulse srcB low s) :=
  (State.Inv.foldl (fun _ _ hs' => hs'.safBoth (fun _ _ h => h.pairFault)) _ _ hs).safEvalBoth.next

theorem State.Inv.resetOut {ch m : Nat} {still : List (Nat × Nat)} (hs : s.Inv) : (s.resetOut ch m still).Inv := by
  unfold State.resetOut
  split
  · exact .ite (fun _ => hs.frame.safOn) fun _ => hs.safFault
  · exact .ite (fun _ => hs) fun _ => hs.frame
  · exact hs

theorem State.Inv.outCleared {m : Nat} (hs : s.Inv) : (s.outCleared m).Inv :=
  .ite (fun _ => hs.frame) fun _ => hs

theorem State.Inv.safReset {dem : Nat} {still : List (Nat × Nat)} (hs : s.Inv) : (s.safReset dem still).Inv :=
  (State.Inv.foldl (fun _ _ hs' => (hs'.safBoth (fun _ _ h => h.resetOut)).outCleared) _ _ hs.frame).safEvalBoth.record

theorem State.Inv.keeps_execSafeRstFall {lenH lenP skew dem : Nat} {still : List (Nat × Nat)} (hs : s.Inv) : KeepsInv (execSafeRstFall lenH lenP skew dem still s) :=
  (State.Inv.ite (fun _ => hs.frame.safReset) fun _ => hs.frame).next

theorem State.Inv.keeps_execStuckReset (hs : s.Inv) : KeepsInv (execStuckReset s) :=
  hs.frame.next

theorem State.Inv.hbToggle {ch : Nat} (hs : s.Inv) : (s.hbToggle ch).Inv :=
  .ite (fun _ => hs) fun _ => hs.frame.safLeaveInit

theorem State.Inv.keeps_execSafetyHeartbeat {hw proc : Bool} (hs : s.Inv) : KeepsInv (execSafetyHeartbeat hw proc s) := by
  unfold execSafetyHeartbeat
  refine State.Inv.next ?_
  extract_lets s0 s1 s2
  have hs0 : s0.Inv := hs.frame
  have hs1 : s1.Inv := .ite (fun _ => hs0.hbToggle) fun _ => hs0
  have hs2 : s2.Inv := .ite (fun _ => hs1.hbToggle) fun _ => hs1
  exact .ite (fun _ => hs2.frame) fun _ => hs2

theorem State.Inv.keeps_execChLost {lost : Fin 2} (hs : s.Inv) : KeepsInv (execChLost lost s) :=
  (State.Inv.ite (fun _ => hs) fun _ => hs.frame.safFaultAll).next

theorem State.Inv.keeps_execSafOvertemp {ch : Fin 2} (hs : s.Inv) : KeepsInv (execSafOvertemp ch s) :=
  hs.safChanFault.next

theorem State.Inv.keeps_execSafCpuFault (hs : s.Inv) : KeepsInv (execSafCpuFault s) :=
  hs.safChanFault.next

theorem State.Inv.keeps_execEdmTimeout {m : Fin 4} (hs : s.Inv) : KeepsInv (execEdmTimeout m s) :=
  (hs.safBoth (fun _ _ h => .ite (fun _ => h) fun _ => .ite (fun _ => h.frame) fun _ => h.frame.safFault)).next

theorem State.Inv.keeps_execChMismatch {m : Fin 4} {ch : Fin 2} (hs : s.Inv) : KeepsInv (execChMismatch m ch s) :=
  (State.Inv.ite (fun _ => hs.safFault) fun _ => hs).next

theorem State.Inv.keeps_execOffPulseTest {m : Fin 4} (hs : s.Inv) : KeepsInv (execOffPulseTest m s) :=
  (State.Inv.ite (fun _ => hs) fun _ => hs.frame).next

theorem State.Inv.keeps_execOffPulseReadback {m : Fin 4} {us : Nat} (hs : s.Inv) : KeepsInv (execOffPulseReadback m us s) := by
  unfold execOffPulseReadback
  refine State.Inv.next ?_
  split
  · exact hs
  · exact hs.frame

theorem State.Inv.keeps_execOffPulseTimeout {m : Fin 4} (hs : s.Inv) : KeepsInv (execOffPulseTimeout m s) := by
  unfold execOffPulseTimeout
  refine State.Inv.next ?_
  split
  · exact hs
  · exact hs.frame.record.safBoth (fun _ _ h => h.safFault)

theorem State.Inv.keeps_execOutputReadbackFault {m : Fin 4} {high : Bool} (hs : s.Inv) : KeepsInv (execOutputReadbackFault m high s) := by
  unfold execOutputReadbackFault
  refine State.Inv.next ?_
  extract_lets x s1
  have hs1 : s1.Inv := hs.frame
  split
  · exact hs
  · split
    · exact .ite (fun _ => hs) fun _ => hs1.safBoth (fun _ _ h => h.safFault)
    · exact .ite (fun _ => hs.safBoth (fun _ _ h => h.safFault)) fun _ => hs

theorem State.Inv.keeps_execFsSWarning {below : Bool} (hs : s.Inv) : KeepsInv (execFsSWarning below s) :=
  hs.frame.next

theorem State.Inv.keeps_execFsSUndervoltage (hs : s.Inv) : KeepsInv (execFsSUndervoltage s) :=
  (State.Inv.ite (fun _ => hs) fun _ => hs.frame.safBoth (fun _ _ h => .ite (fun _ => h.safFaultAll) fun _ => h)).next

theorem State.Inv.keeps_execFsSRecovery (hs : s.Inv) : KeepsInv (execFsSRecovery s) :=
  hs.frame.next

theorem State.Inv.keeps_execSafetyParamReceive {echoOk : Bool} (hs : s.Inv) : KeepsInv (execSafetyParamReceive echoOk s) := by
  unfold execSafetyParamReceive
  refine State.Inv.next ?_
  split
  · exact hs
  · exact .ite (fun _ => hs) fun _ => .ite (fun _ => hs.frame.record.irq) fun _ => (State.Inv.ite (fun _ => hs.frame.record.irq) fun _ => hs.frame).updSaf

theorem State.Inv.fwRefused {ver : Nat} (hs : s.Inv) : (s.fwRefused ver).Inv :=
  hs.draw_snd.updSaf.record

theorem State.Inv.keeps_execSafetyFwReceive {ok : Bool} {ver : Nat} (hs : s.Inv) : KeepsInv (execSafetyFwReceive ok ver s) := by
  unfold execSafetyFwReceive
  refine State.Inv.next ?_
  split
  · exact hs
  · exact .ite (fun _ => hs) fun _ => .ite (fun _ => hs.frame) fun _ => hs.frame.fwRefused

theorem State.Inv.keeps_execSafetyFwSwitch (hs : s.Inv) : KeepsInv (execSafetyFwSwitch s) :=
  (State.Inv.ite (fun _ => hs) fun _ => hs.frame).next

theorem State.Inv.keeps_execSafetyFwSelftestEnd {r : SelfTest} (hs : s.Inv) : KeepsInv (execSafetyFwSelftestEnd r s) := by
  unfold execSafetyFwSelftestEnd
  refine State.Inv.next ?_
  split
  · exact hs
  · extract_lets v s1 s2 s3 s4 s4'
    have hs1 : s1.Inv := hs.frame
    have hs2 : s2.Inv := hs1.frame
    have hs3 : s3.Inv := .ite (fun _ => hs2.record) fun _ => hs1.fwRefused
    have hs4 : s4.Inv := hs3.frame
    have hs4' : s4'.Inv := hs4.safBoth (fun _ _ h => .foldl (fun _ _ hs' => hs'.frame) _ _ h)
    exact hs4'.safLeaveInit.safStanding

theorem State.Inv.keeps_execIslandStartupSelftestEnd {ch : Fin 2} {ok paramOk : Bool} (hs : s.Inv) : KeepsInv (execIslandStartupSelftestEnd ch ok paramOk s) := by
  unfold execIslandStartupSelftestEnd
  refine State.Inv.next ?_
  split
  · exact hs
  · split
    · exact .ite (fun _ => hs.safChanFault) fun _ => hs
    · exact .ite (fun _ => hs.frame) fun _ => (hs.frame.safBoth (fun _ _ h => h.safLeaveInit)).safStanding

theorem State.Inv.safChanUp {ch : Nat} {rstHigh : Bool} (hs : s.Inv) : (s.safChanUp ch rstHigh).Inv :=
  .ite (fun _ => hs.frame) fun _ => hs.frame

theorem State.Inv.keeps_execVddSafePowerUp {rstHigh : Bool} (hs : s.Inv) : KeepsInv (execVddSafePowerUp rstHigh s) :=
  (State.Inv.ite (fun _ => hs) fun _ => hs.safChanUp.updHd).next

theorem State.Inv.keeps_execVddSafeLoss (hs : s.Inv) : KeepsInv (execVddSafeLoss s) :=
  (State.Inv.ite (fun _ => hs) fun _ => hs.frame).next

/-! ### The power-mode controller (R454–R459): domain commands, entry handshake, rollback, wake; and the commands of CLK and CAN that a wake waits for
or causes -/

theorem State.Inv.updPmc {f : Pmc → Pmc} (hs : s.Inv) : (s.updPmc f).Inv :=
  hs.frame

theorem State.Inv.pmcResult {e : Nat} (hs : s.Inv) : (s.pmcResult e).Inv :=
  .ite (fun _ => hs.frame) fun _ => hs.frame.err

theorem State.Inv.pmcTo {old new : PSt} (hs : s.Inv) : (s.pmcTo old new).Inv :=
  hs.frame.record.irq

theorem State.Inv.wakeNext (hs : s.Inv) : s.wakeNext.Inv := by
  unfold State.wakeNext
  dsimp only
  split
  · exact hs
  · split
    · exact hs.frame
    · exact .ite (fun _ => hs.pmcTo) fun _ => hs

theorem State.Inv.domAt {d div : Nat} (hs : s.Inv) : (s.domAt d div).Inv :=
  hs.frame

theorem State.Inv.keeps_execPllLock (hs : s.Inv) : KeepsInv (execPllLock s) := by
  unfold execPllLock
  refine State.Inv.next ?_
  extract_lets s1 s2
  have hs1 : s1.Inv := hs.pllLock
  have hs2 : s2.Inv := .ite (fun _ => hs1.updTim.record) fun _ => hs1
  exact .ite (fun _ => hs2.domAt.domAt.domAt.domAt.wakeNext) fun _ => hs2

theorem State.Inv.keeps_execRampStep {d : Fin 4} (hs : s.Inv) : KeepsInv (execRampStep d s) :=
  hs.rampStep.wakeNext.next

theorem State.Inv.domWake {d : Nat} (hs : s.Inv) : (State.domWake d s).Inv :=
  (State.Inv.ite (fun _ => hs.domPwr.updPmc.updMem) fun _ => hs.domPwr.updPmc).domRecord

theorem State.Inv.keeps_execDomainPowerUpDone {d : Fin 13} {net elapsed : Nat} (hs : s.Inv) : KeepsInv (execDomainPowerUpDone d net elapsed s) :=
  (State.Inv.ite (fun _ => hs) fun _ => (State.Inv.ite (fun _ => hs.domWake) fun _ => hs.domUp).wakeNext).next

theorem State.Inv.wakeStandby (hs : s.Inv) : s.wakeStandby.Inv :=
  hs.frame.pllStart

theorem State.Inv.wakeHibernate (hs : s.Inv) : s.wakeHibernate.Inv := by
  unfold State.wakeHibernate
  exact hs.frame.pmcTo.record.irq

theorem State.Inv.wakeSource {code : Nat} (hs : s.Inv) : (s.wakeSource code).Inv := by
  unfold State.wakeSource
  dsimp only
  split
  · exact hs
  · split
    · exact hs.frame.wakeStandby
    · exact hs.frame.wakeHibernate
    · exact hs.frame.pmcRollback
    · exact hs.frame

theorem State.Inv.keeps_execWakeNLow (hs : s.Inv) : KeepsInv (execWakeNLow s) :=
  hs.wakeSource.next

theorem State.Inv.keeps_execPmcAlarmMatch (hs : s.Inv) : KeepsInv (execPmcAlarmMatch s) :=
  hs.wakeSource.next

theorem State.Inv.keeps_execLaneSignalDetect {n : Fin 8} (hs : s.Inv) : KeepsInv (execLaneSignalDetect n s) :=
  hs.wakeSource.next

theorem State.Inv.keeps_execAveSignalDetect {n : Fin 6} (hs : s.Inv) : KeepsInv (execAveSignalDetect n s) :=
  hs.wakeSource.next

theorem State.Inv.keeps_execPerstNRise (hs : s.Inv) : KeepsInv (execPerstNRise s) :=
  hs.wakeSource.next

theorem State.Inv.keeps_execPmcWakeStatClear {p : Principal} {m : Word} (hs : s.Inv) : KeepsInv (execPmcWakeStatClear p m s) :=
  (hs.gated (fun _ h => h.frame)).next

theorem State.Inv.keeps_execCanWakeDetect {n : Fin 4} {frame : Bool} {id : BitVec 29} {xtd : Bool} {data0 : Byte} (hs : s.Inv) : KeepsInv (execCanWakeDetect n frame id xtd data0 s) :=
  (State.Inv.ite (fun _ => hs) fun _ => hs.canWoken.wakeSource).next

theorem State.Inv.clkLow {hib : Bool} (hs : s.Inv) : (s.clkLow hib).Inv :=
  hs.frame

theorem State.Inv.memSleep (hs : s.Inv) : s.memSleep.Inv :=
  .ite (fun _ => hs) fun _ => hs.domPwr.updMem.updPmc.domRecord

theorem State.Inv.enterLow {tgt : PSt} (hs : s.Inv) : (s.enterLow tgt).Inv := by
  unfold State.enterLow
  extract_lets x on s1 m offs s2 s3 h s2' s3' x' s2'' s3'' x''
  have hs1 : s1.Inv := hs.frame
  have hs2 : s2.Inv := .foldl (fun _ _ hs' => hs'.domDown) _ _ hs1
  have hs3 : s3.Inv := .ite (fun _ => hs2) fun _ => hs2.frame
  have hs2' : s2'.Inv := .foldl (fun _ _ hs' => hs'.domDown) _ _ hs1
  have hs3' : s3'.Inv := hs2'.memSleep.clkLow.dropMem
  have hs2'' : s2''.Inv := .foldl (fun _ _ hs' => hs'.domDown) _ _ hs1
  have hs3'' : s3''.Inv := hs2''.frame.dropMem
  split
  · exact hs3.frame.pmcTo
  · exact hs3'.frame.pmcTo
  · exact hs3''.frame.pmcTo
  · exact hs1

theorem State.Inv.hsAgreed {h : PHs} (hs : s.Inv) : (s.hsAgreed h).Inv := by
  unfold State.hsAgreed
  split
  · exact hs.domDown.updPmc
  · exact hs.enterLow

theorem State.Inv.hsStart {doms : List Nat} {low : Bool} {core dom : Option Nat} (hs : s.Inv) : (s.hsStart doms low core dom).Inv :=
  .ite (fun _ => hs.frame.hsAgreed) fun _ => hs.frame

theorem State.Inv.waitEnded {h : PHs} (hs : s.Inv) : (s.waitEnded h).Inv := by
  unfold State.waitEnded
  split
  · exact hs
  · exact hs.frame

theorem State.Inv.keeps_execPmcHandshakeAnswer {wfi busy : Bool} (hs : s.Inv) : KeepsInv (execPmcHandshakeAnswer wfi busy s) := by
  unfold execPmcHandshakeAnswer
  refine State.Inv.next ?_
  split
  · exact hs
  · split
    · exact hs
    · split
      · exact hs.waitEnded.pmcRollback
      · exact .ite (fun _ => hs) fun _ => (State.Inv.ite (fun _ => hs.hrcClose) fun _ => hs).updPmc
      · extract_lets s1 stop s2 h2 s3
        have hs1 : s1.Inv := hs.waitEnded
        have hs2 : s2.Inv := .ite (fun _ => hs1.frame) fun _ => hs1
        have hs3 : s3.Inv := hs2.frame
        exact .ite (fun _ => hs3.hsAgreed) fun _ => hs3

theorem State.Inv.keeps_execPmcWaitTimeout (hs : s.Inv) : KeepsInv (execPmcWaitTimeout s) := by
  unfold execPmcWaitTimeout
  refine State.Inv.next ?_
  split
  · exact hs
  · split
    · exact hs
    · exact hs.waitEnded.pmcRollback

theorem State.Inv.keeps_execPmcRollbackDone (hs : s.Inv) : KeepsInv (execPmcRollbackDone s) := by
  unfold execPmcRollbackDone
  refine State.Inv.next ?_
  split
  · exact hs
  · split
    · exact hs
    · extract_lets s1
      have hs1 : s1.Inv := .foldl (fun _ _ hs' => hs'.frame) _ _ hs
      split
      rename_i x n s1' he
      have hs1' : s1'.Inv := by
        refine State.Inv.of_eq_mk_snd ?_ he
        split
        · exact hs1.draw_snd
        · exact hs1
      exact .ite (fun _ => hs1'.frame.record.irq.err) fun _ => hs1'.frame.record.irq

theorem State.Inv.pmcCmd {p : Principal} {code : Nat} {tgt : PSt} {from_ : List PSt} {f : State → State} (hs : s.Inv) (hf : ∀ a0, a0.Inv → State.Inv (f a0)) : (s.pmcCmd p code tgt from_ f).Inv :=
  hs.gated (fun _ h => .ite (fun _ => h.pmcResult) fun _ => .ite (fun _ => h.pmcResult) fun _ => .ite (fun _ => h.pmcResult) fun _ => (hf _ h.pmcResult.updPmc))

theorem State.Inv.keeps_execPmcRun {p : Principal} (hs : s.Inv) : KeepsInv (execPmcRun p s) :=
  (hs.pmcCmd (fun _ h => (State.Inv.ite (fun _ => h.frame) fun _ => h.frame).wakeNext)).next

theorem State.Inv.keeps_execPmcEco {p : Principal} (hs : s.Inv) : KeepsInv (execPmcEco p s) :=
  (hs.pmcCmd (fun _ h => h.frame.hsStart)).next

theorem State.Inv.keeps_execPmcStandby {p : Principal} (hs : s.Inv) : KeepsInv (execPmcStandby p s) :=
  (hs.pmcCmd (fun _ h => h.frame.hsStart)).next

theorem State.Inv.keeps_execPmcHibernate {p : Principal} (hs : s.Inv) : KeepsInv (execPmcHibernate p s) :=
  (hs.pmcCmd (fun _ h => h.frame.hsStart)).next

theorem State.Inv.keeps_execPmcDomOn {p : Principal} {d : Fin 16} (hs : s.Inv) : KeepsInv (execPmcDomOn p d s) := by
  unfold execPmcDomOn
  refine State.Inv.next ?_
  refine State.Inv.gated hs (fun s' hs' => ?_)
  split
  · exact hs'.pmcResult
  · exact .ite (fun _ => hs'.pmcResult) fun _ => .ite (fun _ => hs'.pmcResult) fun _ => .ite (fun _ => hs'.pmcResult) fun _ => hs'.pmcResult.domPwr.updPmc

theorem State.Inv.keeps_execPmcDomOff {p : Principal} {d : Fin 16} (hs : s.Inv) : KeepsInv (execPmcDomOff p d s) := by
  unfold execPmcDomOff
  refine State.Inv.next ?_
  refine State.Inv.gated hs (fun s' hs' => ?_)
  split
  · exact hs'.pmcResult
  · exact .ite (fun _ => hs'.pmcResult) fun _ => .ite (fun _ => hs'.pmcResult) fun _ => .ite (fun _ => hs'.pmcResult) fun _ => hs'.pmcResult.hsStart

theorem State.Inv.keeps_execPmcWakeDone (hs : s.Inv) : KeepsInv (execPmcWakeDone s) :=
  (State.Inv.ite (fun _ => hs) fun _ => (State.Inv.ite (fun _ => hs.frame) fun _ => hs.frame).pmcTo.record.irq).next

/-! ### Application and host writes of hot and cold entries (R65), forcing and simulation (R69–R71) -/

theorem State.Inv.followNow {idx : Nat} (hs : s.Inv) : (s.followNow idx).Inv :=
  hs.followPoint

theorem State.Inv.hotWrite {p : Principal} {cold : Bool} {i : Nat} {whole : Bool} {v : Word} {q : Byte} (hs : s.Inv) : (s.hotWrite p cold i whole v q).Inv := by
  unfold State.hotWrite
  extract_lets addr
  split
  · exact hs.tellPrincipal
  · split
    · exact hs.tellPrincipal
    · split
      · exact hs.err.storeFault
      · split
        · exact hs.deny.storeFault
        · split
          · exact hs.err
          · exact hs.appWrite.followNow

theorem State.Inv.forceDone {code gid : Nat} {p : Principal} {v result : Nat} (hs : s.Inv) : (s.forceDone code gid p v result).Inv :=
  .ite (fun _ => hs.frame.irq.record) fun _ => hs.frame.irq.record.err

theorem State.Inv.addForce {idx : Nat} {sim : Bool} (hs : s.Inv) : (s.addForce idx sim).Inv := by
  unfold State.addForce
  split
  · exact hs.frame
  · exact hs.frame

theorem State.Inv.endForce {f : ForceEnt} (hs : s.Inv) : (s.endForce f).Inv :=
  hs.frame.putEntry.followNow

theorem State.Inv.keeps_execForce {p : Principal} (hs : s.Inv) : KeepsInv (execForce p s) :=
  (hs.gated (fun _ h => (State.Inv.ite (fun _ => h) fun _ => h.addForce.putEntry.followNow).forceDone)).next

theorem State.Inv.keeps_execRelease {p : Principal} (hs : s.Inv) : KeepsInv (execRelease p s) := by
  unfold execRelease
  refine State.Inv.next ?_
  refine State.Inv.gated hs (fun s' hs' => ?_)
  extract_lets idx
  split
  · exact .ite (fun _ => hs'.forceDone) fun _ => hs'.endForce.forceDone
  · exact hs'.forceDone

theorem State.Inv.keeps_execReleaseAll {p : Principal} (hs : s.Inv) : KeepsInv (execReleaseAll p s) :=
  (hs.gated (fun _ h => (State.Inv.foldl (fun _ _ hs' => hs'.endForce) _ _ h).forceDone)).next

theorem State.Inv.keeps_execSimOn {p : Principal} (hs : s.Inv) : KeepsInv (execSimOn p s) :=
  (hs.gated (fun _ h => (State.Inv.ite (fun _ => h) fun _ => h.addForce.putEntry.followNow).forceDone)).next

theorem State.Inv.keeps_execSimOff {p : Principal} (hs : s.Inv) : KeepsInv (execSimOff p s) := by
  unfold execSimOff
  refine State.Inv.next ?_
  refine State.Inv.gated hs (fun s' hs' => ?_)
  extract_lets idx
  split
  · exact .ite (fun _ => hs'.endForce.forceDone) fun _ => hs'.forceDone
  · exact hs'.forceDone

/-! ### The commit of directory entries (R57–R64, R384): the GO, the checks in the order of R500, the recording grant, and the effect at the base-
frame boundary -/

theorem State.Inv.entEnd {idx e : Nat} (hs : s.Inv) : (s.entEnd idx e).Inv := by
  unfold State.entEnd
  exact hs.frame.clearCommit.irq

theorem State.Inv.entDone {idx e : Nat} (hs : s.Inv) : (s.entDone idx e).Inv :=
  .ite (fun _ => hs.entEnd) fun _ => hs.entEnd.err

theorem State.Inv.keeps_execPtdEntGo {p : Principal} {idx : Fin 524288} (hs : s.Inv) : KeepsInv (execPtdEntGo p idx s) := by
  unfold execPtdEntGo
  refine State.Inv.next ?_
  refine State.Inv.gated hs (fun s' hs' => ?_)
  split
  · exact hs'.err
  · split
    · exact hs'.frame.irq.err
    · extract_lets w x x'
      have hx' : x'.Inv := hs'.store32
      exact .ite (fun _ => hs'.frame.irq.err) fun _ => hx'.frame

theorem State.Inv.entHist {idx e : Nat} (hs : s.Inv) : (s.entHist idx e).Inv :=
  hs.entEnd.err.record

theorem State.Inv.entApply {idx : Nat} (hs : s.Inv) : (s.entApply idx).Inv := by
  unfold State.entApply
  extract_lets ws ws7 e dir x s1 s2 s2'
  have hs1 : s1.Inv := hs.store
  have hs2' : s2'.Inv := hs1.frame
  exact hs2'.hrcGranted.entDone

theorem State.Inv.keeps_execPtdEntCheckDone (hs : s.Inv) : KeepsInv (execPtdEntCheckDone s) := by
  unfold execPtdEntCheckDone
  refine State.Inv.next ?_
  split
  · exact hs
  · refine .ite (fun _ => hs) fun _ => ?_
    extract_lets w e r x g
    refine .ite (fun _ => hs.entDone) fun _ => .ite (fun _ => hs.entHist) fun _ => .ite (fun _ => hs.entApply) fun _ =>
      .ite (fun _ => ?_) fun _ => .ite (fun _ => hs) fun _ => ?_
    · split
      rename_i s1 ok he
      have hs1 : s1.Inv := hs.recGrant_fst.of_eq_mk he
      exact .ite (fun _ => hs1.entApply) fun _ => hs1.entHist
    · exact State.Inv.aveTo hs.frame

theorem State.Inv.entEffect {idx : Nat} (hs : s.Inv) : (s.entEffect idx).Inv := by
  unfold State.entEffect
  extract_lets old new changed cut s' s1 s2 s3 s4 sub
  have hs' : s'.Inv := .ite (fun _ => hs.reduceCut) fun _ => hs
  have hs1 : s1.Inv := by
    unfold s1
    split
    · split
      · exact hs'.endForce
      · exact hs'
    · exact hs'
  have hs3 : s3.Inv := hs1.frame
  have hs4 : s4.Inv := .ite (fun _ => hs3.storeEntry) fun _ => hs3
  have hsub : sub.Inv := .ite (fun _ => hs4.frame) fun _ => hs4
  exact .ite (fun _ => hsub.aveSubscribe) fun _ => .ite (fun _ => hsub.frame) fun _ => hsub

theorem State.Inv.entEffects (hs : s.Inv) : s.entEffects.Inv :=
  .foldl (fun _ _ hs' => hs'.entEffect) _ _ hs.frame

theorem State.Inv.keeps_execHotEntryWrite {p : Principal} {cold : Bool} {i : Fin 524288} {whole : Bool} {v : Word} {q : Byte} (hs : s.Inv) : KeepsInv (execHotEntryWrite p cold i whole v q s) :=
  hs.hotWrite.next

/-! ### The retention store's commands (R470–R472, R479): writes of principals, rounds, the bank check and its logs -/

/-- The retention store may change where its buffer stays as it is. -/
theorem State.Inv.updRet (hs : s.Inv) {f : Ret → Ret} (h : ∀ r, (f r).pend = r.pend := by exact fun _ => rfl) : (s.updRet f).Inv :=
  hs.mk' (.inl rfl) (.inl rfl) (.inl rfl) (.inr ((h s.ret).symm ▸ hs.retPend))

theorem State.Inv.keeps_execRetWrite {p : Principal} {i : Fin 524288} {v : Word} (hs : s.Inv) : KeepsInv (execRetWrite p i v s) :=
  (State.Inv.ite (fun _ => hs.deny.storeFault) fun _ => hs.gatedMem (fun _ h => h.retPut)).next

theorem State.Inv.bankRecord {b seq : Nat} (hs : s.Inv) : (s.bankRecord b seq).Inv := by
  unfold State.bankRecord
  exact hs.updRet

theorem State.Inv.ckptFailed {b : Nat} (hs : s.Inv) : (s.ckptFailed b).Inv := by
  unfold State.ckptFailed
  exact hs.frame.record.raise

theorem State.Inv.wordFailed {i : Nat} (hs : s.Inv) : (s.wordFailed i).Inv := by
  unfold State.wordFailed
  exact hs.draw_snd.updRet.record.err.irq.raise

theorem State.Inv.retRound (hs : s.Inv) {fails : List Nat} : (s.retRound fails).Inv := by
  unfold State.retRound
  dsimp only
  have emptied (f : Ret → Ret) (h : (f s.ret).pend = []) : (s.updRet f).Inv :=
    hs.mk' (.inl rfl) (.inl rfl) (.inl rfl) (.inr (by simp [State.updRet, h]))
  refine .foldl (fun _ _ h => h.retPut) _ _ ?_
  refine .foldl (fun _ _ h => h.bankRecord) _ _ ?_
  refine .foldl (fun _ _ h => h.ckptFailed) _ _ ?_
  exact .foldl (fun _ _ h => h.wordFailed) _ _ (emptied _ rfl)

theorem State.Inv.keeps_execRetRound {fails : List (Fin 524288)} (hs : s.Inv) : KeepsInv (execRetRound fails s) :=
  hs.frame.retRound.next

theorem State.Inv.keeps_execRetFlush {p : Principal} (hs : s.Inv) : KeepsInv (execRetFlush p s) :=
  (hs.gated (fun _ h => h.updRet)).next

theorem State.Inv.bankFail {b crc : Nat} (hs : s.Inv) : (s.bankFail b crc).Inv := by
  unfold State.bankFail
  extract_lets old x s1 s2 s2'
  have hs1 : s1.Inv := hs.updRet
  have hs2' : s2'.Inv := .ite (fun _ => hs1.frame) fun _ => hs1
  exact hs2'.record.err.irq.raise

theorem State.Inv.sysTake {aBad bBad : Bool} (hs : s.Inv) : (s.sysTake aBad bBad).Inv := by
  unfold State.sysTake
  extract_lets lost r s1 s2 x s2'
  have hs1 : s1.Inv := hs.updRet
  have hs2' : s2'.Inv := hs1.frame
  exact .ite (fun _ => hs2'.raiseNoCode) fun _ => hs2'

theorem State.Inv.keeps_execRetCheckDone {bad : List (Fin 8 × Word)} {us : BitVec 16} (hs : s.Inv) : KeepsInv (execRetCheckDone bad us s) := by
  unfold execRetCheckDone
  refine State.Inv.next ?_
  split
  · exact hs
  · extract_lets failed crc s1 s2 s3
    have hs1 : s1.Inv := hs.updRet
    have hs2 : s2.Inv := .foldl (fun _ _ hs' => .ite (fun _ => hs'.bankFail) fun _ => hs') _ _ hs1
    have hs3 : s3.Inv := hs2.sysTake.record
    exact .ite (fun _ => hs3.ckptLoadAll) fun _ => hs3

theorem State.Inv.keeps_execRetBankFailClear {p : Principal} {m : Word} (hs : s.Inv) : KeepsInv (execRetBankFailClear p m s) :=
  (hs.gated (fun _ h => h.updRet)).next

theorem State.Inv.keeps_execRetWfailLogClear {p : Principal} (hs : s.Inv) : KeepsInv (execRetWfailLogClear p s) :=
  (hs.gated (fun _ h => h.updRet)).next

/-! ### Start-up (R463–R465): the eight phases, each only after the one before it, and the authentication of boot images -/

/-- The error manager may change where its queue stays as it is. -/
theorem State.Inv.updErm (hs : s.Inv) {f : Erm → Erm} (h : ∀ e, (f e).queue = e.queue := by exact fun _ => rfl) : (s.updErm f).Inv :=
  hs.mk' (.inl rfl) (.inl rfl) (.inl (h _)) (.inl rfl)

theorem State.Inv.keeps_execStartupRegulators (hs : s.Inv) : KeepsInv (execStartupRegulators s) :=
  (State.Inv.ite (fun _ => hs) fun _ => hs.updErm).next

theorem State.Inv.keeps_execStartupOscillators {mode : Fin 4} (hs : s.Inv) : KeepsInv (execStartupOscillators mode s) :=
  (State.Inv.ite (fun _ => hs) fun _ => hs.updErm.updClk).next

theorem State.Inv.keeps_execStartupAlwaysOn (hs : s.Inv) : KeepsInv (execStartupAlwaysOn s) := by
  unfold execStartupAlwaysOn
  refine State.Inv.next ?_
  split
  · exact hs
  · extract_lets s1 s2 s3 x
    have hs1 : s1.Inv := hs.updErm.retRound
    have hs2 : s2.Inv := hs1.updRet
    have hs3 : s3.Inv := .ite (fun _ => hs2.resetCore) fun _ => hs2.domUp
    exact hs3.frame.settleErm

theorem State.Inv.xoTimeouts (hs : s.Inv) {n : Nat} : (s.xoTimeouts n).Inv := by
  induction n generalizing s with
  | zero => exact hs
  | succ n ih => exact ih hs.xoTimeout

theorem State.Inv.keeps_execStartupClocks {fails : Fin 5} {us : Nat} (hs : s.Inv) : KeepsInv (execStartupClocks fails us s) := by
  unfold execStartupClocks
  refine State.Inv.next ?_
  split
  · exact hs
  · extract_lets s1 s2 s3
    have hs1 : s1.Inv := .ite (fun _ => hs.xoStart) fun _ => hs
    have hs2 : s2.Inv := .ite (fun _ => hs1.xoTimeouts.xoStable) fun _ => hs1
    have hs3 : s3.Inv := .ite (fun _ => hs2) fun _ => hs2.pllStart.pllLock
    exact hs3.frame.degFollow.updErm

theorem State.Inv.keeps_execStartupMemory {pg fail0 fail1 : Bool} (hs : s.Inv) : KeepsInv (execStartupMemory pg fail0 fail1 s) := by
  unfold execStartupMemory
  refine State.Inv.next ?_
  split
  · exact hs
  · split
    rename_i x n s1 he
    have hs1 : s1.Inv := State.Inv.of_eq_mk_snd (hs.draw_snd) he
    exact .ite (fun _ => hs1.updErm.updErm.raiseNoCode) fun _ => (State.Inv.ite (fun _ => hs1.updErm) fun _ => hs1.updErm.domUp).setReg.updHd.memTrained.updErm

theorem State.Inv.keeps_execStartupRealtime {net elapsed : Nat} (hs : s.Inv) : KeepsInv (execStartupRealtime net elapsed s) :=
  (State.Inv.ite (fun _ => hs) fun _ => (State.Inv.ite (fun _ => hs.frame) fun _ => hs.frame.domUp).updErm).next

theorem State.Inv.bootRecord {src keyIdx r ver : Nat} (hs : s.Inv) : (s.bootRecord src keyIdx r ver).Inv :=
  hs.record

theorem State.Inv.bootAccept {src : BootSrc} {img : List Byte} (hs : s.Inv) : (s.bootAccept src img).Inv :=
  hs.store.updErm.bootRecord

theorem State.Inv.bootHalt {src : BootSrc} {keyIdx r ver : Nat} (hs : s.Inv) : (s.bootHalt src keyIdx r ver).Inv :=
  hs.updErm.bootRecord.updCore

theorem State.Inv.bootPush (hs : s.Inv) : s.bootPush.Inv :=
  (State.Inv.ite (fun _ => hs) fun _ => hs.domUp).updErm

theorem State.Inv.keeps_execStartupBoot {a b : Option (List Byte)} (hs : s.Inv) : KeepsInv (execStartupBoot a b s) := by
  unfold execStartupBoot
  refine State.Inv.next ?_
  split
  · exact hs
  · extract_lets s1 img
    have hs1 : s1.Inv := hs.updErm
    split
    · exact hs1.bootPush
    · exact .ite (fun _ => hs1.bootAccept) fun _ => .ite (fun _ => hs1.bootAccept) fun _ => .ite (fun _ => hs1.bootPush) fun _ => hs1.bootHalt

theorem State.Inv.keeps_execErmPushGo {p : Principal} (hs : s.Inv) : KeepsInv (execErmPushGo p s) :=
  (hs.gated (fun _ h => .ite (fun _ => h.err) fun _ => .ite (fun _ => h.bootAccept) fun _ => h.bootHalt)).next

theorem State.Inv.keeps_execBootPushTimeout (hs : s.Inv) : KeepsInv (execBootPushTimeout s) :=
  (State.Inv.ite (fun _ => hs.bootHalt) fun _ => hs).next

theorem State.Inv.reRaise (hs : s.Inv) : s.reRaise.Inv :=
  .ite (fun _ => (State.Inv.ite (fun _ => (State.Inv.ite (fun _ => (State.Inv.foldl (fun _ _ hs' => .ite (fun _ => hs'.raise) fun _ => hs') _ _ hs).raise) fun _ => .foldl (fun _ _ hs' => .ite (fun _ => hs'.raise) fun _ => hs') _ _ hs).raise) fun _ => .ite (fun _ => (State.Inv.foldl (fun _ _ hs' => .ite (fun _ => hs'.raise) fun _ => hs') _ _ hs).raise) fun _ => .foldl (fun _ _ hs' => .ite (fun _ => hs'.raise) fun _ => hs') _ _ hs).raise) fun _ => .ite (fun _ => (State.Inv.ite (fun _ => (State.Inv.foldl (fun _ _ hs' => .ite (fun _ => hs'.raise) fun _ => hs') _ _ hs).raise) fun _ => .foldl (fun _ _ hs' => .ite (fun _ => hs'.raise) fun _ => hs') _ _ hs).raise) fun _ => .ite (fun _ => (State.Inv.foldl (fun _ _ hs' => .ite (fun _ => hs'.raise) fun _ => hs') _ _ hs).raise) fun _ => .foldl (fun _ _ hs' => .ite (fun _ => hs'.raise) fun _ => hs') _ _ hs

theorem State.Inv.keeps_execStartupHandover (hs : s.Inv) : KeepsInv (execStartupHandover s) :=
  (State.Inv.ite (fun _ => hs) fun _ => hs.frame.updErm.updCore.record.reRaise).next

/-! ### Reads of the device's map (Table CPU-1): headers and their mirrors (R35, R44), block registers with shadows (R34, R37) and frozen values
(Table SYS-3), the windows, the retention store and the memories -/

theorem State.Inv.ofOut (hs : s.Inv) {o : Out} (ho : KeepsInv o) : (s.ofOut o).Inv := by
  unfold State.ofOut
  split
  · exact ho _ rfl
  · exact hs

theorem State.Inv.regRead (hs : s.Inv) {p : Principal} {by_ : Option (Fin 8)} {b : Block} {o : Nat} : (s.regRead p by_ b o).Inv := by
  unfold State.regRead
  extract_lets port v s1 plain
  have hplain : plain.Inv := by
    unfold plain s1
    exact (State.Inv.ite (fun _ => hs.draw_snd) fun _ => hs).frame
  split
  · exact hs.frame
  · split
    · refine .ite (fun _ => hs.ofOut hs.keeps_execTimNowRead) fun _ => ?_
      split
      · exact hs.ofOut hs.keeps_execTxtsInfoRead
      · exact hplain
    · exact .ite (fun _ => hs.ofOut hs.keeps_execDispRead) fun _ => hplain
    · split
      · exact hs.ofOut hs.keeps_execEncCntRead
      · exact hplain
    · exact .ite (fun _ => hs.ofOut hs.keeps_execMtimeRead) fun _ => hplain
    · exact .ite (fun _ => hs.ofOut hs.keeps_execCanObjStatRead) fun _ => hplain
    · exact hplain

theorem State.Inv.readRefuse_fst {blk e size : Nat} (hs : s.Inv) : (s.readRefuse blk e size).1.Inv :=
  hs.frame

theorem State.Inv.readSize_fst {b : Block} (hs : s.Inv) : (s.readSize b).1.Inv :=
  hs.err.frame

theorem State.Inv.told {r : Requester} {code addr : Nat} (hs : s.Inv) : (s.told r code addr).Inv := by
  unfold State.told
  dsimp only
  split
  · exact hs
  · split
    · exact hs.tell
    · split
      · exact hs.frame
      · exact hs

theorem State.Inv.busGet_fst (hs : s.Inv) {p : Principal} {by_ : Option (Fin 8)} {a size : Nat} {ecc : EccRead} : (s.busGet p by_ a size ecc).1.Inv := by
  have out {v e : Nat} : FstInv ({ s with out := v }, e) := hs.frame
  have hs' : FstInv (s.busGet p by_ a size ecc) := by
    have refused {b e n : Nat} : FstInv (s.readRefuse b e n) := hs.readRefuse_fst
    have sized {b : Block} : FstInv (s.readSize b) := hs.readSize_fst
    unfold State.busGet
    dsimp only
    split
    · exact .ite (fun _ => out) fun _ => .ite (fun _ => refused) fun _ => .ite (fun _ => sized) fun _ => .ite (fun _ => out) fun _ => .mk hs.regRead
    · exact refused
    · exact hs.draw_snd.frame
    · exact hs.draw_snd.frame
    · exact .ite (fun _ => refused) fun _ => .ite (fun _ => sized) fun _ => .mk hs.hotEcc.frame
    · exact .ite (fun _ => refused) fun _ => .ite (fun _ => sized) fun _ => out
    · exact .ite (fun _ => out) fun _ => sized
    · exact .ite (fun _ => refused) fun _ => .ite (fun _ => out) fun _ => sized
    · exact .ite (fun _ => refused) fun _ => .ite (fun _ => sized) fun _ => out
    · exact .ite (fun _ => refused) fun _ => .ite (fun _ => sized) fun _ => out
    · exact .ite (fun _ => refused) fun _ => .ite (fun _ => sized) fun _ => out
    · exact .ite (fun _ => refused) fun _ => .ite (fun _ => sized) fun _ => out
    · exact .ite (fun _ => sized) fun _ => out
  exact hs'

theorem State.Inv.busRead (hs : s.Inv) {p : Principal} {r : Requester} {a size : Nat} {ecc : EccRead} : (s.busRead p r a size ecc).Inv := by
  unfold State.busRead
  exact hs.busGet_fst.told.frame

/-! ### BLK_CTRL (R35, R36): enable, run, soft reset and freeze of every block, with what each block's chapter says of them -/

theorem State.Inv.outerStop {n : Nat} (hs : s.Inv) : (s.outerStop n).Inv :=
  .ite (fun _ => hs.loopNoVote.withCe) fun _ => hs.loopTake

theorem State.Inv.outerOff (hs : s.Inv) : s.outerOff.Inv :=
  .foldl (fun _ _ hs' => hs'.outerStop) _ _ hs

theorem State.Inv.runStart {b : Block} (hs : s.Inv) : (s.runStart b).Inv := by
  unfold State.runStart
  split
  · exact hs.frame
  · split
    · exact hs.xngStart
    · exact hs.aveRun
    · exact hs.frame
    · exact .ite (fun _ => hs.frame) fun _ => hs
    · exact hs

theorem State.Inv.runStop {b : Block} (hs : s.Inv) : (s.runStop b).Inv := by
  unfold State.runStop
  split
  · exact hs.frame
  · split
    · exact hs.outerOff.ceSettle
    · exact hs.lneRunStop
    · exact .ite (fun _ => hs) fun _ => hs.ilpStop
    · exact .ite (fun _ => hs.frame) fun _ => hs
    · exact hs

theorem State.Inv.setFreeze {b : Block} {p : Principal} {fz : Bool} (hs : s.Inv) : (s.setFreeze b p fz).Inv := by
  unfold State.setFreeze
  extract_lets s1
  have hs1 : s1.Inv := hs.frame
  split
  · exact hs1
  · exact .ite (fun _ => .ite (fun _ => hs1.evrFreeze) fun _ => hs1.evrRelease) fun _ => .ite (fun _ => hs1.frame) fun _ => hs1.frame

theorem State.Inv.softData (hs : s.Inv) {b : Block} : (s.softData b).Inv := by
  unfold State.softData
  split
  case h_1 => exact hs.dcAbandon.frame
  case h_4 => exact State.Inv.settleErm (hs.mk' (.inl rfl) (.inl rfl) (.inr (Nat.zero_le _)) (.inl rfl))
  case h_6 => exact hs.evrSoftRst
  case h_9 => exact hs.fioSoftRst
  case h_10 => exact hs.coresOff.blkData
  case h_11 => exact hs.laneAllOff
  case h_12 => exact hs.aveFence.blkData
  case h_13 => exact hs.blkData
  all_goals exact hs.frame

theorem State.Inv.softRst {b : Block} (hs : s.Inv) : (s.softRst b).Inv := by
  unfold State.softRst
  extract_lets s1 s2 s3 s4
  have hs1 : s1.Inv := hs.softData
  have hs2 : s2.Inv := hs1.frame
  have hs3 : s3.Inv := .ite (fun _ => hs2) fun _ => hs2.dropMem
  have hs4 : s4.Inv := hs3.frame
  exact .ite (fun _ => hs4.resetCore) fun _ => hs4

theorem State.Inv.ctrlWrite {b : Block} {p : Principal} {v : Word} (hs : s.Inv) : (s.ctrlWrite b p v).Inv := by
  unfold State.ctrlWrite
  split
  · exact hs.softRst
  · extract_lets h en run s1 s2 s3 s4
    have hs1 : s1.Inv := hs.setFreeze
    have hs2 : s2.Inv := .ite (fun _ => hs1.err) fun _ => hs1
    have hs3 : s3.Inv := hs2.frame
    have hs4 : s4.Inv := .ite (fun _ => hs3.runStart) fun _ => .ite (fun _ => hs3.runStop) fun _ => hs3
    split
    · exact hs1.err
    · exact .ite (fun _ => hs4.frame) fun _ => hs4

theorem State.Inv.ctrlCmd {b : Block} {p : Principal} {v : Word} (hs : s.Inv) : (s.ctrlCmd b p v).Inv :=
  hs.gated (fun _ h => h.ctrlWrite)

theorem State.Inv.keeps_execBlockEnable {b : Block} {p : Principal} {en : Bool} (hs : s.Inv) : KeepsInv (execBlockEnable b p en s) :=
  hs.ctrlCmd.next

theorem State.Inv.keeps_execBlockRun {b : Block} {p : Principal} {run : Bool} (hs : s.Inv) : KeepsInv (execBlockRun b p run s) :=
  hs.ctrlCmd.next

theorem State.Inv.keeps_execSoftRst {b : Block} {p : Principal} (hs : s.Inv) : KeepsInv (execSoftRst b p s) :=
  hs.ctrlCmd.next

theorem State.Inv.keeps_execFreeze {b : Block} {p : Principal} {fz : Bool} (hs : s.Inv) : KeepsInv (execFreeze b p fz s) :=
  hs.ctrlCmd.next

/-! ### The application of a block's commit (R37, R39, R500): each chapter's checks, the shadows, the recording grant that an HRC commit needs (R341,
R384) and the routes and flows of HTS (R409) -/

theorem State.Inv.commitShadows {b : Block} (hs : s.Inv) : (s.commitShadows b).Inv := by
  unfold State.commitShadows
  split
  · exact hs.lneCommitApply
  · exact hs.cscCommitApply
  · exact hs.timCommitApply
  · exact hs.frame
  · exact hs.frame.fioCommitApply
  · exact hs.frame

theorem State.Inv.commitEnd {b : Block} (hs : s.Inv) : (s.commitEnd b).Inv :=
  hs.frame.irq

theorem State.Inv.commitApplied {b : Block} (hs : s.Inv) : (s.commitApplied b).Inv :=
  hs.commitShadows.updHd.commitEnd

theorem State.Inv.commitRefused {b : Block} {e : Nat} (hs : s.Inv) : (s.commitRefused b e).Inv :=
  hs.err.commitEnd

theorem State.Inv.hrcApplied (hs : s.Inv) : s.hrcApplied.Inv :=
  hs.commitApplied.hrcGranted

theorem State.Inv.hrcCommit (hs : s.Inv) : s.hrcCommit.Inv := by
  unfold State.hrcCommit
  extract_lets g
  refine .ite (fun _ => hs.hrcApplied) fun _ => .ite (fun _ => ?_) fun _ => .ite (fun _ => hs) fun _ => hs.updAve.aveTo
  split
  rename_i s1 ok he
  have hs1 : s1.Inv := hs.recGrant_fst.of_eq_mk he
  exact .ite (fun _ => hs1.hrcApplied) fun _ => hs1.commitRefused

theorem State.Inv.keeps_execCommitApply {b : Block} (hs : s.Inv) : KeepsInv (execCommitApply b s) :=
  (State.Inv.ite (fun _ => hs) fun _ => .ite (fun _ => hs.commitRefused) fun _ => .ite (fun _ => hs.hrcCommit) fun _ => hs.commitApplied).next

theorem State.Inv.grantDecided {ok : Bool} (hs : s.Inv) : (s.grantDecided ok).Inv := by
  unfold State.grantDecided
  extract_lets s1
  have hs1 : s1.Inv := hs.frame
  split
  · split
    · exact .ite (fun _ => hs1.entApply) fun _ => hs1.entHist
    · exact hs1
  · exact .ite (fun _ => .ite (fun _ => hs1.hrcApplied) fun _ => hs1.commitRefused) fun _ => hs1

theorem State.Inv.grantAnswer {mbps : Nat} {ok : Bool} (hs : s.Inv) : (s.grantAnswer mbps ok).Inv :=
  .ite (fun _ => hs.grantDecided) fun _ => hs.frame

theorem State.Inv.keeps_execHistGrantTimeout (hs : s.Inv) : KeepsInv (execHistGrantTimeout s) :=
  (State.Inv.ite (fun _ => hs.grantDecided) fun _ => hs).next

/-! ### The ILP's commands that write no register: loads and on-line changes (R263, R265) -/

theorem State.Inv.keeps_execIlpLoad {p : Principal} (hs : s.Inv) : KeepsInv (execIlpLoad p s) :=
  (hs.gated (fun _ h => .ite (fun _ => h.err) fun _ => .ite (fun _ => h.loadEnd) fun _ => h.frame)).next

theorem State.Inv.keeps_execIlpLoadDone (hs : s.Inv) : KeepsInv (execIlpLoadDone s) := by
  unfold execIlpLoadDone
  refine State.Inv.next ?_
  split
  · exact hs
  · extract_lets a n ws m s1
    have hs1 : s1.Inv := hs.frame
    split
    · exact hs.loadEnd
    · split
      · exact hs.loadEnd
      · exact hs1.loadEnd.record.ilpStopValues

theorem State.Inv.keeps_execIlpChgGo {p : Principal} (hs : s.Inv) : KeepsInv (execIlpChgGo p s) :=
  (hs.gated (fun _ h => .ite (fun _ => h.frame.err) fun _ => .ite (fun _ => h.frame.ilpChanges) fun _ => h.frame)).next

/-! ### Resets and supplies (R466–R469), errors from outside and acknowledgements (R473–R479), the field-side supply (R268, R300) and the end of the
autonomy window (R29) -/

/-- After reset one event record waits, and nothing else (R391). -/
theorem State.Inv.reset : State.reset.Inv := by
  refine ⟨rfl, fun w => ?_, ?_, ?_, ?_⟩ <;> simp only [State.reset, List.length_nil, Nat.zero_le]
  rw [Tab.get_cons]
  split
  · decide
  · exact Nat.zero_le 4

theorem State.Inv.keeps_execPowerOnReset : KeepsInv (execPowerOnReset s) :=
  State.Inv.next State.Inv.reset.frame

theorem State.Inv.keeps_execBrownout {core io vdd : Bool} (hs : s.Inv) : KeepsInv (execBrownout core io vdd s) :=
  (State.Inv.ite (fun _ => hs.updErm) fun _ => hs.fullReset).updErm.next

theorem State.Inv.keeps_execResetPin (hs : s.Inv) : KeepsInv (execResetPin s) :=
  hs.fullReset.updErm.next

theorem State.Inv.keeps_execSoftwareReset {p : Principal} {v : Word} (hs : s.Inv) : KeepsInv (execSoftwareReset p v s) :=
  (hs.gated (fun _ h => .ite (fun _ => h.fullReset.resetRelease) fun _ => h.err)).next

theorem State.Inv.keeps_execDebugReset (hs : s.Inv) : KeepsInv (execDebugReset s) :=
  (State.Inv.ite (fun _ => hs.fullReset.resetRelease) fun _ => hs).next

theorem State.Inv.keeps_execFatalReset (hs : s.Inv) : KeepsInv (execFatalReset s) :=
  (State.Inv.ite (fun _ => hs.fullReset.resetRelease) fun _ => hs).next

theorem State.Inv.keeps_execPfailReset (hs : s.Inv) : KeepsInv (execPfailReset s) :=
  (State.Inv.ite (fun _ => hs.fullReset) fun _ => hs).next

theorem State.Inv.keeps_execResetRelease (hs : s.Inv) : KeepsInv (execResetRelease s) :=
  (State.Inv.ite (fun _ => hs) fun _ => hs.updErm.resetRelease).next

theorem State.Inv.keeps_execPgMemLoss (hs : s.Inv) : KeepsInv (execPgMemLoss s) := by
  unfold execPgMemLoss
  refine State.Inv.next ?_
  extract_lets s1 s2 s3 x s4 s5
  have hs1 : s1.Inv := hs.updErm
  have hs2 : s2.Inv := hs1.fenceCommit.updHd.domRecord.updMem
  have hs3 : s3.Inv := hs2.dropMem.updHrc
  have hs4 : s4.Inv := hs3.frame.rsqMemFence
  have hs5 : s5.Inv := by
    unfold s5
    split
    · exact hs4.endSession
    · exact hs4.endSession
    · exact hs4.logMark.endSession
    · exact hs4.frame
  exact .ite (fun _ => hs1) fun _ => hs5.raiseNoCode

theorem State.Inv.keeps_execPgMemRestore (hs : s.Inv) : KeepsInv (execPgMemRestore s) :=
  (State.Inv.ite (fun _ => hs.updErm.updHd.domRecord) fun _ => hs.updErm).next

theorem State.Inv.keeps_execPfailFall (hs : s.Inv) : KeepsInv (execPfailFall s) :=
  (State.Inv.ite (fun _ => hs) fun _ => .ite (fun _ => hs.updErm) fun _ => hs.updErm.record.raise.pmcRollback).next

theorem State.Inv.keeps_execPfailRise (hs : s.Inv) : KeepsInv (execPfailRise s) :=
  (State.Inv.ite (fun _ => hs) fun _ => hs.updErm.record).next

theorem State.Inv.keeps_execErmErrorRaise {b : Block} {inst : Fin 256} {code : BitVec 16} {sev : Severity} (hs : s.Inv) : KeepsInv (execErmErrorRaise b inst code sev s) :=
  hs.raise.next

theorem State.Inv.keeps_execErmAck {p : Principal} {code : BitVec 16} (hs : s.Inv) : KeepsInv (execErmAck p code s) := by
  unfold execErmAck
  refine State.Inv.next ?_
  refine State.Inv.gated hs (fun s' hs' => ?_)
  split
  · exact hs'.err
  · exact .ite (fun _ => hs'.frame.updErm.settleErm) fun _ => hs'.err

theorem State.Inv.keeps_execErmFatalLogClear {p : Principal} (hs : s.Inv) : KeepsInv (execErmFatalLogClear p s) :=
  (hs.gated (fun _ h => h.updErm)).next

theorem State.Inv.keeps_execVddFdPowerUp {rstHigh : Bool} (hs : s.Inv) : KeepsInv (execVddFdPowerUp rstHigh s) :=
  (State.Inv.ite (fun _ => hs) fun _ => hs.frame.safChanUp).next

theorem State.Inv.keeps_execVddFdLoss (hs : s.Inv) : KeepsInv (execVddFdLoss s) :=
  (State.Inv.ite (fun _ => hs) fun _ => hs.frame).next

theorem State.Inv.keeps_execAutonomyWindowExpiry (hs : s.Inv) : KeepsInv (execAutonomyWindowExpiry s) :=
  (State.Inv.ite (fun _ => hs) fun _ => hs.setAuto.rsqExpire.record.raise).next

end Sys2Proof.Machine
end

section
/-!
SUPPORT. What keeps the invariant: writes to the device's map, the fabric, the base-frame boundary, edges, the ILP's scan and the safety parameter
set.
-/

namespace Sys2Proof.Machine

set_option Elab.async false

variable {s : State}

/-! ### Writes to the device's map (Table CPU-1): header registers (R35–R39), the registers whose write is a command, the register words by access
code (R34, R38, R39, R41, R499), the descriptor windows (R40) and the memories -/

theorem State.Inv.drawBit_snd (hs : s.Inv) : s.drawBit.2.Inv :=
  hs.draw_snd

theorem State.Inv.rowWrite {b : Block} {o : Nat} {v : Word} (hs : s.Inv) : (s.rowWrite b o v).Inv := by
  unfold State.rowWrite
  dsimp only
  split
  · exact hs
  · split
    · exact .ite (fun _ => hs.frame) fun _ => hs.err
    · exact .ite (fun _ => hs.frame) fun _ => hs.err
    · exact .ite (fun _ => hs.err) fun _ => .ite (fun _ => hs.frame) fun _ => hs.err
    · exact .ite (fun _ => hs.err) fun _ => .ite (fun _ => hs.frame) fun _ => hs.err
    · exact hs

theorem State.Inv.descWrite {b : Block} {base cw a : Nat} {v : Word} (hs : s.Inv) : (s.descWrite b base cw a v).Inv :=
  .ite (fun _ => hs.err) fun _ => hs.store32

theorem State.Inv.tabWrite {t o : Nat} {v : Word} (hs : s.Inv) : (s.tabWrite t o v).Inv :=
  .ite (fun _ => hs.err) fun _ => hs.frame

theorem State.Inv.onBit {v : Word} {i : Nat} {f : State → Out} (hs : s.Inv) (hf : ∀ a0, a0.Inv → KeepsInv (f a0)) : (s.onBit v i f).Inv :=
  .ite (fun _ => hs.ofOut (hf _ hs)) fun _ => hs

theorem State.Inv.cmdSys {p : Principal} {o : Nat} {v : Word} (hs : s.Inv) : OptInv (s.cmdSys p o v) := by
  unfold State.cmdSys
  split
  · exact (hs.onBit (fun _ h => h.keeps_execDenyLogClear)).some
  · split
    · exact (hs.ofOut hs.keeps_execDcStage).some
    · split
      · exact (hs.ofOut hs.keeps_execDcCancel).some
      · exact OptInv.none
  · exact (hs.onBit (fun _ h => h.keeps_execDcSubmit)).some
  · exact (hs.ofOut hs.keeps_execDcEnroll).some
  · refine OptInv.map fun k => ?_
    exact hs.ofOut hs.keeps_execDcKeyWrite

theorem State.Inv.cmdPtd {p : Principal} {o : Nat} {v : Word} (hs : s.Inv) : OptInv (s.cmdPtd p o v) := by
  unfold State.cmdPtd
  split
  · exact (hs.ofOut hs.keeps_execPtdEntGo).some
  · refine State.Inv.some ?_
    refine State.Inv.onBit ?_ (fun a ha => ?_)
    · refine State.Inv.onBit ?_ (fun a ha => ?_)
      · exact ((hs.onBit (fun _ h => h.keeps_execForce)).onBit (fun _ h => h.keeps_execRelease)).onBit (fun _ h => h.keeps_execReleaseAll)
      · exact ha.keeps_execSimOn
    · exact ha.keeps_execSimOff
  · exact (hs.onBit (fun _ h => h.keeps_execPtdUeLogClear)).some
  · exact OptInv.none

theorem State.Inv.cmdCe {p : Principal} {o : Nat} {v : Word} (hs : s.Inv) : OptInv (s.cmdCe p o v) := by
  unfold State.cmdCe
  extract_lets n
  split
  · exact (hs.ofOut hs.keeps_execCeLoopGo).some
  · refine State.Inv.some ?_
    split
    · exact hs.modeWrite
    · exact hs
  · exact (State.Inv.ite (fun _ => hs.ofOut hs.keeps_execSupAck) fun _ => hs.onBit (fun _ h => h.keeps_execSupAlign)).some
  · exact (hs.ofOut hs.keeps_execCeRampCmd).some
  · exact (hs.ofOut hs.keeps_execCeTabGo).some
  · split
    · exact (hs.ofOut hs.keeps_execCeEvtClear).some
    · exact (hs.ofOut hs.keeps_execCeTripClear).some
    · split
      · exact (hs.gated (fun _ h => h.tabWrite)).some
      · exact (hs.gated (fun _ h => h.tabWrite)).some
      · exact OptInv.none

theorem State.Inv.cmdXng {p : Principal} {o : Nat} {v : Word} (hs : s.Inv) : OptInv (s.cmdXng p o v) := by
  unfold State.cmdXng
  split
  · extract_lets l s1
    have hs1 : s1.Inv := .ite (fun _ => (hs.onBit (fun _ h => h.keeps_execXngTest)).onBit (fun _ h => h.keeps_execXngRetry)) fun _ => hs
    exact (State.Inv.ite (fun _ => hs1.drawBit_snd.ofOut hs1.drawBit_snd.keeps_execXngRestart) fun _ => hs1).some
  · exact (hs.onBit (fun _ h => h.keeps_execXngDisLogClear)).some
  · exact OptInv.none

theorem State.Inv.cmdRsq {p : Principal} {o : Nat} {v : Word} (hs : s.Inv) : OptInv (s.cmdRsq p o v) := by
  unfold State.cmdRsq
  extract_lets n step
  split
  · refine State.Inv.some ?_
    refine State.Inv.ofOut hs ?_
    split
    · exact hs.keeps_execStreamStart
    · exact hs.keeps_execStreamHold
    · exact hs.keeps_execStreamResume
    · exact hs.keeps_execStreamPause
    · exact hs.keeps_execStreamAbort
    · exact hs.keeps_execStreamPark
    · exact hs.keeps_execStreamReset
    · exact hs.keeps_execStreamRecheck
    · exact hs.keeps_execStreamDiscard
    · exact hs.next
  · exact (hs.ofOut hs.keeps_execRsqStepGo).some
  · exact (hs.onBit (fun _ h => h.keeps_execRsqResumeGo)).some
  · split
    · exact (hs.ofOut hs.keeps_execRsqEvtClear).some
    · exact (hs.ofOut hs.keeps_execRsqAlmClear).some
    · exact OptInv.none

theorem State.Inv.cmdCsc (hs : s.Inv) {p : Principal} {o : Nat} {v : Word} : OptInv (s.cmdCsc p o v) := by
  unfold State.cmdCsc
  extract_lets g
  split
  · exact (hs.ofOut hs.keeps_execCscActGo).some
  · refine State.Inv.some (hs.ofOut ?_)
    split
    · exact hs.keeps_execCscArm
    · exact hs.keeps_execCscArmRel
    · exact hs.keeps_execCscCancel
    · exact hs.next
  · exact OptInv.map fun _ => hs.ofOut hs.keeps_execCscEvtClear

theorem State.Inv.cmdMot {p : Principal} {o : Nat} {v : Word} (hs : s.Inv) : OptInv (s.cmdMot p o v) := by
  unfold State.cmdMot
  extract_lets n
  split
  · refine State.Inv.some ?_
    refine State.Inv.ofOut hs ?_
    split
    · exact hs.keeps_execAxisEnable
    · exact hs.keeps_execAxisDisable
    · exact hs.keeps_execMoveAbs
    · exact hs.keeps_execMoveRel
    · exact hs.keeps_execMoveVel
    · exact hs.keeps_execAxisStop
    · exact hs.keeps_execAxisQstop
    · exact hs.keeps_execAxisHome
    · exact hs.keeps_execAxisFollow
    · exact hs.keeps_execAxisGmove
    · exact hs.keeps_execResetFault
    · exact hs.keeps_execLatchArm
    · exact hs.next
  · exact (hs.ofOut hs.keeps_execMotAxisGo).some
  · exact (hs.ofOut hs.keeps_execMotGrpGo).some
  · exact (hs.onBit (fun _ h => h.keeps_execMotLatClear)).some
  · exact (hs.ofOut hs.keeps_execMotEncErrClear).some
  · exact (hs.ofOut hs.keeps_execMotEvtClear).some
  · split
    · exact (hs.ofOut hs.keeps_execMotEvtClear).some
    · split
      · exact (hs.gated (fun _ h => h.descWrite)).some
      · split
        · exact (hs.gated (fun _ h => h.descWrite)).some
        · exact OptInv.none

theorem State.Inv.cmdIlp {busw : Nat → Word → State → State} {p : Principal} {o : Nat} {v : Word} (hs : s.Inv) (hbusw : ∀ a0 a1 a2, a2.Inv → State.Inv (busw a0 a1 a2)) : OptInv (State.cmdIlp busw s p o v) := by
  unfold State.cmdIlp
  split
  · exact (hs.draw_snd.gated (fun _ h => h.ilpCmd (fun _ _ _ h' => (hbusw _ _ _ h')))).some
  · exact (hs.onBit (fun _ h => h.keeps_execIlpLoad)).some
  · exact (hs.onBit (fun _ h => h.keeps_execIlpChgGo)).some
  · exact OptInv.none

theorem State.Inv.cmdFio {p : Principal} {o : Nat} {v : Word} (hs : s.Inv) : OptInv (s.cmdFio p o v) := by
  unfold State.cmdFio
  split
  · exact (hs.onBit (fun _ h => h.keeps_execSilencedClear)).some
  · exact (hs.onBit (fun _ h => h.keeps_execFioGrpEnable)).some
  · exact (hs.ofOut hs.keeps_execFioTestUv).some
  · exact (hs.ofOut hs.keeps_execFioMmClear).some
  · exact (hs.ofOut hs.keeps_execFioOcClear).some
  · exact (hs.onBit (fun _ h => h.keeps_execAiCalGo)).some
  · exact OptInv.none

theorem State.Inv.cmdLne (hs : s.Inv) {p : Principal} {o : Nat} {v : Word} : OptInv (s.cmdLne p o v) := by
  unfold State.cmdLne
  extract_lets n k
  split
  · exact OptInv.none
  · split
    · refine State.Inv.some (hs.ofOut ?_)
      split
      · exact hs.keeps_execLneStart
      · exact hs.keeps_execLneStop
      · exact hs.keeps_execLneReenum
      · exact hs.next
    · refine State.Inv.some (hs.ofOut ?_)
      split
      · exact hs.keeps_execStaRestart
      · exact hs.keeps_execStaGoSafe
      · exact hs.next
    · exact (hs.onBit fun _ h => h.keeps_execLneInjUnlock).some
    · exact (hs.ofOut hs.keeps_execLneInjEn).some
    · exact (hs.ofOut hs.keeps_execEthRxTail).some
    · exact (hs.ofOut hs.keeps_execEthTxTail).some
    · exact OptInv.none

theorem State.Inv.cmdAve {p : Principal} {o : Nat} {v : Word} (hs : s.Inv) : OptInv (s.cmdAve p o v) := by
  unfold State.cmdAve
  split
  · refine State.Inv.some ?_
    refine State.Inv.ofOut hs ?_
    split
    · exact hs.keeps_execAveDiscover
    · exact hs.keeps_execAveRelease
    · exact hs.next
  · exact (hs.onBit (fun _ h => h.keeps_execAveSubStatClear)).some
  · split
    · exact (hs.onBit (fun _ h => h.keeps_execAveInjUnlock)).some
    · exact (hs.ofOut hs.keeps_execAveInjEn).some
    · exact OptInv.none

theorem State.Inv.cmdTim {p : Principal} {o : Nat} {v : Word} (hs : s.Inv) : OptInv (s.cmdTim p o v) := by
  unfold State.cmdTim
  split
  · exact (hs.onBit (fun _ h => h.keeps_execLostRstClear)).some
  · exact (hs.ofOut hs.keeps_execTimOfsSubmit).some
  · exact (hs.ofOut hs.keeps_execTimSet).some
  · split
    · exact (hs.onBit (fun _ h => h.keeps_execTxtsPop)).some
    · exact (hs.onBit (fun _ h => h.keeps_execTxtsOvfClear)).some
    · exact OptInv.none

theorem State.Inv.cmdAcq {p : Principal} {o : Nat} {v : Word} (hs : s.Inv) : OptInv (s.cmdAcq p o v) := by
  unfold State.cmdAcq
  split
  · refine State.Inv.some ?_
    split
    · exact hs.drawBit_snd.ofOut hs.drawBit_snd.keeps_execAcqArm
    · exact hs.ofOut hs.keeps_execAcqStop
    · exact hs.ofOut hs.keeps_execAcqClear
    · exact hs
  · exact (hs.ofOut hs.keeps_execAcqTflagSet).some
  · refine OptInv.map fun k => ?_
    exact hs.ofOut hs.keeps_execAcqFlagClear

theorem State.Inv.cmdHts {p : Principal} {o : Nat} {v : Word} (hs : s.Inv) : OptInv (s.cmdHts p o v) := by
  unfold State.cmdHts
  extract_lets t c
  split
  · refine State.Inv.some ?_
    refine State.Inv.ofOut hs ?_
    split
    · exact hs.keeps_execTaskCreate
    · exact hs.keeps_execTaskDelete
    · exact hs.keeps_execTaskSuspend
    · exact hs.keeps_execTaskResume
    · exact hs.next
  · exact (hs.onBit (fun _ h => h.keeps_execHtsHb)).some
  · exact (hs.gated (fun _ h => h.rowWrite.serve.lapse)).some
  · split
    · exact (hs.ofOut hs.keeps_execMaskWrite).some
    · split
      · split
        · exact (State.Inv.ite (fun _ => hs.ofOut hs.keeps_execTaskDone) fun _ => hs.onBit (fun _ h => h.keeps_execTaskYield)).some
        · exact (hs.ofOut hs.keeps_execSubGo).some
        · exact (hs.ofOut hs.keeps_execFset).some
        · exact OptInv.none
      · exact OptInv.none

theorem State.Inv.ringWrite {p : Principal} {n : Fin 8} {v : Word} (hs : s.Inv) : (s.ringWrite p n v).Inv := by
  unfold State.ringWrite
  split
  · exact hs.ofOut hs.keeps_execRingEnable
  · refine State.Inv.gated hs (fun s' hs' => ?_)
    extract_lets r w
    split
    · exact hs'.err
    · split
      · exact (State.Inv.ite (fun _ => hs') fun _ => hs'.err).ofOut (State.Inv.ite (fun _ => hs') fun _ => hs'.err).keeps_execRingDisable
      · exact hs'.frame

theorem State.Inv.cmdHost {p : Principal} {b : Block} {o : Nat} {v : Word} (hs : s.Inv) : OptInv (s.cmdHost p b o v) := by
  unfold State.cmdHost
  split
  · exact (hs.ofOut hs.keeps_execCpuCoreEn).some
  · exact (hs.ofOut hs.keeps_execCpuCoreRst).some
  · exact (hs.ofOut hs.keeps_execCpuWdtLogClear).some
  · exact (hs.onBit (fun _ h => h.keeps_execCpuSramUeClear)).some
  · refine OptInv.map fun k => ?_
    exact hs.gated (fun _ h => h.frame)
  · exact (hs.onBit (fun _ h => h.keeps_execMemUeClear)).some
  · exact (hs.onBit (fun _ h => h.keeps_execHifErrLogClear)).some
  · exact (hs.ofOut hs.keeps_execHifMsiSend).some
  · refine OptInv.map fun k => ?_
    exact hs.ringWrite
  · exact OptInv.none

theorem State.Inv.objWrite {p : Principal} {n : Fin 4} {m : Fin 64} {w : Nat} {v : Word} (hs : s.Inv) : (s.objWrite p n m w v).Inv := by
  unfold State.objWrite
  extract_lets k o s1
  have hs1 : s1.Inv := ((hs.onBit (fun _ h => h.keeps_execCanNewClear)).onBit (fun _ h => h.keeps_execCanOvrClear)).onBit (fun _ h => h.keeps_execCanTxReq)
  split
  · exact .ite (fun _ => hs1.drawBit_snd.ofOut hs1.drawBit_snd.keeps_execCanTxAbort) fun _ => hs1
  · split
    · exact hs.ofOut hs.keeps_execCanObjEnable
    · split
      · exact hs.drawBit_snd.ofOut hs.drawBit_snd.keeps_execCanObjDisable
      · refine State.Inv.gated hs (fun s' hs' => ?_)
        split
        · exact hs'.err
        · exact .ite (fun _ => hs'.frame) fun _ => .ite (fun _ => hs'.frame) fun _ => .ite (fun _ => hs'.frame) fun _ => .ite (fun _ => hs'.frame) fun _ => hs'

theorem State.Inv.cmdCan {p : Principal} {o : Nat} {v : Word} (hs : s.Inv) : OptInv (s.cmdCan p o v) := by
  unfold State.cmdCan
  split
  · exact hs.objWrite.some
  · split
    · exact OptInv.none
    · extract_lets n
      split
      · refine State.Inv.some ?_
        split
        · exact hs.ofOut hs.keeps_execCanStart
        · exact hs.drawBit_snd.ofOut hs.drawBit_snd.keeps_execCanStop
        · exact hs.drawBit_snd.ofOut hs.drawBit_snd.keeps_execCanSleep
        · exact hs.ofOut hs.keeps_execCanWake
        · exact hs.ofOut hs.keeps_execCanRecover
        · exact hs
      · exact (hs.onBit (fun _ h => h.keeps_execCanWokenClear)).some
      · refine OptInv.map fun k => ?_
        exact hs.ofOut hs.keeps_execCanEvtClear

theorem State.Inv.cmdPower {p : Principal} {b : Block} {o : Nat} {v : Word} (hs : s.Inv) : OptInv (s.cmdPower p b o v) := by
  unfold State.cmdPower
  split
  · refine State.Inv.some ?_
    refine State.Inv.ofOut hs ?_
    split
    · exact hs.keeps_execClkXoStart
    · exact hs.keeps_execClkPllStart
    · exact hs.keeps_execClkRamp
    · exact hs.keeps_execClkReturn
    · exact hs.keeps_execClkXoRetry
    · exact hs.keeps_execClkXoStop
    · exact hs.next
  · exact (hs.ofOut hs.keeps_execClkMonStatClear).some
  · refine State.Inv.some ?_
    refine State.Inv.ofOut hs ?_
    split
    · exact hs.keeps_execPmcRun
    · exact hs.keeps_execPmcEco
    · exact hs.keeps_execPmcStandby
    · exact hs.keeps_execPmcHibernate
    · exact hs.next
  · refine State.Inv.some ?_
    refine State.Inv.ofOut hs ?_
    split
    · exact hs.keeps_execPmcDomOn
    · exact hs.keeps_execPmcDomOff
    · exact hs.next
  · exact (hs.ofOut hs.keeps_execPmcWakeStatClear).some
  · exact OptInv.none

theorem State.Inv.cmdErm {p : Principal} {b : Block} {o : Nat} {v : Word} (hs : s.Inv) : OptInv (s.cmdErm p b o v) := by
  unfold State.cmdErm
  split
  · exact (hs.ofOut hs.keeps_execErmAck).some
  · exact (hs.onBit (fun _ h => h.keeps_execErmFatalLogClear)).some
  · exact (hs.onBit (fun _ h => h.keeps_execErmPushGo)).some
  · exact (hs.ofOut hs.keeps_execSoftwareReset).some
  · exact (hs.ofOut hs.keeps_execRetBankFailClear).some
  · exact (hs.onBit (fun _ h => h.keeps_execRetFlush)).some
  · exact (hs.onBit (fun _ h => h.keeps_execRetWfailLogClear)).some
  · exact (hs.onBit (fun _ h => h.keeps_execEvrFfArm)).some
  · exact (hs.onBit (fun _ h => h.keeps_execEvrDumpGo)).some
  · exact (hs.onBit (fun _ h => h.keeps_execHrcFlush)).some
  · exact OptInv.none

theorem State.Inv.cmdWrite {busw : Nat → Word → State → State} {p : Principal} {b : Block} {o : Nat} {v : Word} (hs : s.Inv) (hbusw : ∀ a0 a1 a2, a2.Inv → State.Inv (busw a0 a1 a2)) : OptInv (State.cmdWrite busw s p b o v) := by
  unfold State.cmdWrite
  split
  · exact hs.cmdSys
  · exact hs.cmdPtd
  · exact hs.cmdCe
  · exact hs.cmdXng
  · exact hs.cmdRsq
  · exact hs.cmdCsc
  · exact hs.cmdMot
  · exact hs.cmdIlp (fun _ _ _ h => (hbusw _ _ _ h))
  · exact hs.cmdFio
  · exact hs.cmdLne
  · exact hs.cmdAve
  · exact hs.cmdTim
  · exact hs.cmdAcq
  · exact hs.cmdHts
  · exact hs.cmdCan
  · exact hs.cmdHost
  · exact hs.cmdHost
  · exact hs.cmdHost
  · exact hs.cmdPower
  · exact hs.cmdPower
  · exact hs.cmdErm
  · exact hs.cmdErm
  · exact hs.cmdErm
  · exact hs.cmdErm
  · exact OptInv.none

theorem State.Inv.irqEnWrite {b : Block} {v : Word} (hs : s.Inv) : (s.irqEnWrite b v).Inv :=
  .ite (fun _ => hs.frame.routeEvt) fun _ => hs.frame

theorem State.Inv.hdrWrite {p : Principal} {b : Block} {o : Nat} {v : Word} (hs : s.Inv) : (s.hdrWrite p b o v).Inv := by
  unfold State.hdrWrite
  split
  · exact hs.ctrlCmd
  · exact hs.ofOut hs.keeps_execIrqClear
  · exact hs.gated (fun _ h => h.irqEnWrite)
  · exact hs.onBit (fun _ h => h.keeps_execBlkErrClear)
  · extract_lets s1
    have hs1 : s1.Inv := hs.gated (fun _ h => h.frame)
    exact .ite (fun _ => hs1.ofOut hs1.keeps_execDiscard) fun _ => hs1.onBit (fun _ h => h.keeps_execCommit)
  · exact hs.onBit (fun _ h => h.keeps_execLock)
  · exact hs

theorem State.Inv.regWrite (hs : s.Inv) {busw : Nat → Word → State → State} (hbusw : ∀ a w t, t.Inv → (busw a w t).Inv)
    {p : Principal} {b : Block} {o : Nat} {v : Word} : (State.regWrite busw s p b o v).Inv := by
  unfold State.regWrite
  refine .ite (fun _ => hs.hdrWrite) fun _ => ?_
  split
  · exact hs.cmdWrite hbusw _ ‹_›
  · exact hs.gated fun _ h => h.rowWrite

theorem State.Inv.putBytesAt {a size v : Nat} (hs : s.Inv) : (s.putBytesAt a size v).Inv :=
  hs.store

theorem State.Inv.sdramPut {a size v : Nat} (hs : s.Inv) : (s.sdramPut a size v).Inv := by
  unfold State.sdramPut
  split
  · exact .ite (fun _ => hs.err) fun _ => hs.putBytesAt.store32
  · exact .ite (fun _ => hs.err) fun _ => hs.putBytesAt

theorem State.Inv.windowWord {p : Principal} {x : Place} {a : Nat} {v : Word} (hs : s.Inv) : (s.windowWord p x a v).Inv := by
  unfold State.windowWord
  split
  · exact hs.gatedMem (fun _ h => h.descWrite)
  · exact hs.gatedMem (fun _ h => h.descWrite)
  · refine State.Inv.ofOut hs ?_
    unfold execStreamWindowWrite
    refine State.Inv.next ?_
    extract_lets o
    refine State.Inv.gatedMem hs (fun s' hs' => ?_)
    extract_lets x
    split
    · exact hs'.err
    · split
      · exact hs'.frame
      · split
        · exact hs'.frame
        · split
          · exact hs'
          · exact .ite (fun _ => hs'.err) fun _ => .ite (fun _ => hs'.err) fun _ => .ite (fun _ => hs'.frame.ckptPut.updStream) fun _ => hs'.frame
  · exact hs.ofOut (State.Inv.ite (fun _ => hs.deny.storeFault) fun _ => hs.gatedMem (fun _ h => h.retPut)).next
  · exact hs

theorem State.Inv.windowWords {p : Principal} {a size v : Nat} (hs : s.Inv) : (s.windowWords p a size v).Inv :=
  .ite (fun _ => hs.windowWord.windowWord) fun _ => hs.windowWord

theorem State.Inv.busPutWith_fst (hs : s.Inv) {busw : Nat → Word → State → State} (hbusw : ∀ a w t, t.Inv → (busw a w t).Inv)
    {p : Principal} {a size v : Nat} : (State.busPutWith busw s p a size v).1.Inv := by
  have hs' : FstInv (State.busPutWith busw s p a size v) := by
    unfold State.busPutWith
    dsimp only
    refine .ite (fun _ => .mk hs) fun _ => .ite (fun _ => .mk hs.err) fun _ => .ite (fun _ => .mk hs.deny) fun _ => ?_
    split
    · exact .mk hs
    · exact .mk hs.putBytesAt
    · exact .ite (fun _ => .mk hs.sdramPut) fun _ => .mk hs
    · exact .mk hs
    · split
      · exact .mk (.ite (fun _ => hs.frame) fun _ => hs.frame)
      · exact .mk hs
    · exact .mk (hs.regWrite hbusw)
    · exact .mk hs.hotWrite
    · exact .mk hs.hotWrite
    · exact .mk hs.err
    · exact .ite (fun _ => .mk hs.windowWords) fun _ => .mk hs.deny
    · exact .mk hs.windowWords
    · exact .mk hs.windowWords
    · exact .mk hs.windowWords
  exact hs'

theorem State.Inv.ilpBus (hs : s.Inv) {a : Nat} {v : Word} : (State.ilpBus a v s).Inv :=
  State.Inv.told (hs.busPutWith_fst fun _ _ _ h => h)

theorem State.Inv.busPut_fst (hs : s.Inv) {p : Principal} {a size v : Nat} : (s.busPut p a size v).1.Inv :=
  hs.busPutWith_fst fun _ _ _ h => h.ilpBus

theorem State.Inv.busWrite (hs : s.Inv) {p : Principal} {a size v : Nat} : (s.busWrite p a size v).Inv := by
  unfold State.busWrite
  dsimp only
  split
  · exact hs.busPut_fst.told
  · exact hs.busPut_fst

theorem State.Inv.dmaWords (hs : s.Inv) {k : Nat} {p : Principal} {a : Nat} {bs : List Byte} : (State.dmaWords k s p a bs).Inv := by
  induction k generalizing s a bs with
  | zero => exact hs
  | succ k ih =>
    unfold State.dmaWords
    extract_lets n
    split
    · exact hs
    · exact ih hs.busPut_fst

theorem State.Inv.dmaIn {p : Principal} {a : Nat} {bs : List Byte} (hs : s.Inv) : (s.dmaIn p a bs).Inv :=
  .ite (fun _ => hs.store) fun _ => hs.dmaWords

theorem State.Inv.keeps_execDmaDescDone {n : Fin 8} {d : HDesc} {data : List Byte} {hostErr : Bool} (hs : s.Inv) : KeepsInv (execDmaDescDone n d data hostErr s) := by
  unfold execDmaDescDone
  refine State.Inv.next ?_
  split
  · exact hs
  · split
    · exact hs.ringHostErr
    · exact .ite (fun _ => hs.frame.descIrq.ringHalt) fun _ => (State.Inv.ite (fun _ => hs.frame) fun _ => hs.dmaIn).writeBack.descNext

theorem State.Inv.wdtCfg {c : Nat} {v : Word} (hs : s.Inv) : (s.wdtCfg c v).Inv :=
  .ite (fun _ => hs) fun _ => .ite (fun _ => hs.err) fun _ => hs.frame

theorem State.Inv.keeps_execRegisterWrite {tgt : RegTarget} {p : Principal} {size : Fin 9} {v : BitVec 64} (hs : s.Inv) : KeepsInv (execRegisterWrite tgt p size v s) := by
  unfold execRegisterWrite
  refine State.Inv.next ?_
  split
  · exact hs.busWrite
  · exact hs.wdtCfg

/-! ### Valnath frames that arrive (R331–R342, R357, R371, R386), the fabric window (R10, R339) and host accesses through the BARs (R423–R425) -/

theorem State.Inv.drawCtx_snd (hs : s.Inv) : s.drawCtx.2.Inv :=
  hs.draw_snd

theorem State.Inv.grantRx {src : Nat} {g : Grant} (hs : s.Inv) : (s.grantRx src g).Inv := by
  unfold State.grantRx
  split
  · exact .ite (fun _ => hs.recGrant_fst.aveTo) fun _ => .ite (fun _ => hs.frame) fun _ => hs
  · exact hs.grantAnswer
  · exact hs.subAnswer
  · exact .ite (fun _ => hs.injFlow) fun _ => hs.err
  · exact hs.creditRx

theorem State.Inv.discRx {p : Nat} {f : AFrame} {reply : Bool} {serial role : Nat} (hs : s.Inv) : (s.discRx p f reply serial role).Inv :=
  .ite (fun _ => .ite (fun _ => hs.discReply) fun _ => .ite (fun _ => hs) fun _ => hs.aveSend) fun _ => .ite (fun _ => hs.discProbe) fun _ => .ite (fun _ => hs) fun _ => hs.aveSend

theorem State.Inv.serveRead (hs : s.Inv) {f : AFrame} {off : Nat} {p : Principal} {wide : Bool} : (s.serveRead f off p wide).Inv := by
  unfold State.serveRead
  exact hs.busGet_fst.aveSend

theorem State.Inv.serveWrite (hs : s.Inv) {f : AFrame} {off : Nat} {p : Principal} {wide : Bool} {data : Nat} : (s.serveWrite f off p wide data).Inv := by
  unfold State.serveWrite
  exact hs.busPut_fst.aveSend

theorem State.Inv.sendReq {q : FReq} (hs : s.Inv) : (s.sendReq q).Inv :=
  hs.frame.aveSend

theorem State.Inv.nextReq (hs : s.Inv) : s.nextReq.Inv := by
  unfold State.nextReq
  split
  · exact hs
  · exact .ite (fun _ => hs) fun _ => hs.frame.sendReq

theorem State.Inv.endReq {t : Nat} {q : FReq} {result data : Nat} (hs : s.Inv) : (s.endReq t q result data).Inv := by
  unfold State.endReq
  extract_lets blk s1 s2
  have hs1 : s1.Inv := hs.frame
  have hs2 : s2.Inv := hs1.told
  exact (State.Inv.ite (fun _ => hs2) fun _ => hs2.frame).nextReq

theorem State.Inv.respRx {f : AFrame} {result data : Nat} (hs : s.Inv) : (s.respRx f result data).Inv := by
  unfold State.respRx
  split
  · exact hs.endReq
  · exact hs

theorem State.Inv.deliver {p : Nat} {f : AFrame} {x : RxCtx} (hs : s.Inv) : (s.deliver p f x).Inv := by
  unfold State.deliver
  split
  · exact hs.peerFrame
  · exact hs.peerFrame
  · exact hs.serveRead
  · exact hs.respRx
  · exact hs.serveWrite
  · exact hs.respRx
  · exact hs.lsaRx
  · exact hs.discRx
  · exact hs.timeRx
  · exact hs.trigRx
  · exact hs.histRx
  · exact hs.subscribeAt
  · exact hs.admitAt
  · exact hs.grantRx
  · exact .ite (fun _ => hs.takeOver) fun _ => hs
  · exact .ite (fun _ => hs.frame) fun _ => hs

theorem State.Inv.junction {p : Nat} {f : AFrame} {x : RxCtx} (hs : s.Inv) : (s.junction p f x).Inv :=
  .ite (fun _ => hs.deliver) fun _ => .ite (fun _ => hs.frame) fun _ => hs.aveSend

theorem State.Inv.aveRx {p : Fin 6} {h : AHdr} {b : ABody} {x : RxCtx} (hs : s.Inv) : (s.aveRx p h b x).Inv := by
  unfold State.aveRx
  split
  · exact hs
  · split
    · exact hs.frame
    · exact .ite (fun _ => hs.junction) fun _ => .foldl (fun _ _ hs' => .ite (fun _ => hs'.junction) fun _ => hs'.frame) _ _ hs.frame

theorem State.Inv.aveDelayed {p : Nat} (hs : s.Inv) : (s.aveDelayed p).Inv :=
  .foldl (fun _ _ hs' => .ite (fun _ => hs'.drawCtx_snd.junction) fun _ => hs'.frame) _ _ hs.frame

theorem State.Inv.keeps_execPtARx {p : Fin 6} {h : AHdr} {time : Nat} {recs : List PtRec} (hs : s.Inv) : KeepsInv (execPtARx p h time recs s) :=
  hs.aveRx.next

theorem State.Inv.keeps_execPtBRx {p : Fin 6} {h : AHdr} {classC : Bool} {time : Nat} {recs : List PtRec} (hs : s.Inv) : KeepsInv (execPtBRx p h classC time recs s) :=
  hs.aveRx.next

theorem State.Inv.keeps_execRdReqRx {p : Fin 6} {h : AHdr} {off : Nat} {pr : Principal} {wide : Bool} (hs : s.Inv) : KeepsInv (execRdReqRx p h off pr wide s) :=
  hs.aveRx.next

theorem State.Inv.keeps_execWrReqRx {p : Fin 6} {h : AHdr} {off : Nat} {pr : Principal} {wide : Bool} {data : Nat} (hs : s.Inv) : KeepsInv (execWrReqRx p h off pr wide data s) :=
  hs.aveRx.next

theorem State.Inv.keeps_execRdRespRx {p : Fin 6} {h : AHdr} {classC : Bool} {result data : Nat} (hs : s.Inv) : KeepsInv (execRdRespRx p h classC result data s) :=
  hs.aveRx.next

theorem State.Inv.keeps_execWrRespRx {p : Fin 6} {h : AHdr} {classC : Bool} {result : Nat} (hs : s.Inv) : KeepsInv (execWrRespRx p h classC result s) :=
  hs.aveRx.next

theorem State.Inv.keeps_execLsaRx {p : Fin 6} {h : AHdr} {dev : Fin 64} {port : Fin 6} {up : Bool} {peer : Fin 64} {seq ago : Nat} (hs : s.Inv) : KeepsInv (execLsaRx p h dev port up peer seq ago s) :=
  hs.aveRx.next

theorem State.Inv.keeps_execDiscRx {p : Fin 6} {h : AHdr} {reply : Bool} {serial port role : Nat} (hs : s.Inv) : KeepsInv (execDiscRx p h reply serial port role s) :=
  hs.aveRx.next

theorem State.Inv.keeps_execTimeFrameRx {p : Fin 6} {h : AHdr} {t flags hops : Nat} {gm utc : List Byte} {rx : Nat} (hs : s.Inv) : KeepsInv (execTimeFrameRx p h t flags hops gm utc rx s) :=
  hs.aveRx.next

theorem State.Inv.keeps_execTrigFrameRx {p : Fin 6} {h : AHdr} {ns line ps : Nat} (hs : s.Inv) : KeepsInv (execTrigFrameRx p h ns line ps s) :=
  hs.aveRx.next

theorem State.Inv.keeps_execRecFrameRx {p : Fin 6} {h : AHdr} {seq : Nat} {frag : Fin 4} {dev : Fin 64} {bytes : List Byte} (hs : s.Inv) : KeepsInv (execRecFrameRx p h seq frag dev bytes s) :=
  hs.aveRx.next

theorem State.Inv.keeps_execCtrlSubscribe {p : Fin 6} {h : AHdr} {sub : Fin 64} {gid : BitVec 25} {cls : Fin 4} {kind : Fin 8} {admitted long contended prot : Bool} (hs : s.Inv) : KeepsInv (execCtrlSubscribe p h sub gid cls kind admitted long contended prot s) :=
  hs.aveRx.next

theorem State.Inv.keeps_execCtrlAdmit {p : Fin 6} {h : AHdr} {src dst : Fin 64} {long contended prot : Bool} (hs : s.Inv) : KeepsInv (execCtrlAdmit p h src dst long contended prot s) :=
  hs.aveRx.next

theorem State.Inv.keeps_execCtrlGrant {p : Fin 6} {h : AHdr} {g : Grant} (hs : s.Inv) : KeepsInv (execCtrlGrant p h g s) :=
  hs.aveRx.next

theorem State.Inv.keeps_execCtrlRelease {p : Fin 6} {h : AHdr} (hs : s.Inv) : KeepsInv (execCtrlRelease p h s) :=
  hs.aveRx.next

theorem State.Inv.keeps_execCtrlHeartbeat {p : Fin 6} {h : AHdr} (hs : s.Inv) : KeepsInv (execCtrlHeartbeat p h s) :=
  hs.aveRx.next

theorem State.Inv.fabricAccess (hs : s.Inv) {r : Requester} {p : Principal} {wr : Bool} {a size v : Nat} {ecc : EccRead} :
    (s.fabricAccess r p wr a size v ecc).Inv := by
  have refused {t : State} (ht : t.Inv) : (if wr then t else { t with out := ones size }).Inv := .ite (fun _ => ht) fun _ => ht.frame
  unfold State.fabricAccess
  dsimp only
  exact .ite (fun _ => refused hs.err.told) fun _ => .ite
    (fun _ => .ite (fun _ => hs.busPut_fst.told) fun _ => hs.busGet_fst.told.frame) fun _ =>
    .ite (fun _ => refused hs.told) fun _ => .ite (fun _ => hs.sendReq) fun _ => hs.updAve

theorem State.Inv.keeps_execFabricAccess {r : Requester} {p : Principal} {wr : Bool} {a : Fin 4398046511104} {size : Fin 9} {v : BitVec 64} {ecc : EccRead} (hs : s.Inv) : KeepsInv (execFabricAccess r p wr a size v ecc s) :=
  hs.fabricAccess.next

theorem State.Inv.keeps_execAveReqTimeout {tag : BitVec 16} (hs : s.Inv) : KeepsInv (execAveReqTimeout tag s) := by
  unfold execAveReqTimeout
  refine State.Inv.next ?_
  split
  · exact hs.endReq
  · exact hs

theorem State.Inv.bar0 (hs : s.Inv) {wr : Bool} {off size v : Nat} : (s.bar0 wr off size v).Inv :=
  .ite (fun _ => hs.busPut_fst.told) fun _ => hs.busRead

theorem State.Inv.bar2 (hs : s.Inv) {wr : Bool} {off size v : Nat} {ecc : EccRead} : (s.bar2 wr off size v ecc).Inv := by
  unfold State.bar2
  exact .ite (fun _ => .ite (fun _ => hs.hifLog) fun _ => hs.hifLog.frame) fun _ => .ite
    (fun _ => .ite (fun _ => hs.busPut_fst.told) fun _ => hs.busRead) fun _ => hs.fabricAccess

theorem State.Inv.keeps_execHostBarAccess {bar2 wr : Bool} {off : BitVec 32} {size : Fin 9} {v : BitVec 64} {ecc : EccRead} (hs : s.Inv) : KeepsInv (execHostBarAccess bar2 wr off size v ecc s) :=
  (State.Inv.ite (fun _ => hs) fun _ => .ite (fun _ => hs.bar2) fun _ => .ite (fun _ => hs.bar0) fun _ => hs).next

/-! ### The base-frame boundary (R11, R12) with everything that the chapters let take effect there, and the acquisitions of the rate schedule (R13) -/

theorem State.Inv.ifOn {b : Block} {f : State → State} (hs : s.Inv) (hf : ∀ a0, a0.Inv → State.Inv (f a0)) : (s.ifOn b f).Inv :=
  .ite (fun _ => (hf _ hs)) fun _ => hs

theorem State.Inv.aveFrame (hs : s.Inv) : s.aveFrame.Inv := by
  unfold State.aveFrame
  extract_lets h s1
  have hs1 : s1.Inv := .ite (fun _ => hs.frame) fun _ => .ite (fun _ => hs.aveRun.updHd) fun _ => hs
  exact .foldl (fun _ _ hs' => .ite (fun _ => hs') fun _ => hs'.aveDelayed) _ _ hs1.aveBoundary

theorem State.Inv.xngFrame (hs : s.Inv) : s.xngFrame.Inv :=
  .ite (fun _ => hs.frame.xngBoundary) fun _ => .ite (fun _ => hs.xngStop.updHd) fun _ => hs

theorem State.Inv.ceFrame (hs : s.Inv) : s.ceFrame.Inv :=
  .ite (fun _ => hs.frame) fun _ => hs.ceSettle

theorem State.Inv.cscFrame (hs : s.Inv) : s.cscFrame.Inv :=
  .ite (fun _ => hs.cscTrail.updCsc.actApply.armEffective.runFollow) fun _ => hs.cscTrail.updCsc.actApply.armEffective.cscRunStop

theorem State.Inv.lneFrame (hs : s.Inv) : s.lneFrame.Inv :=
  .ite (fun _ => hs.frame) fun _ => hs

theorem State.Inv.keeps_execBaseFrameBoundary (hs : s.Inv) : KeepsInv (execBaseFrameBoundary s) := by
  unfold execBaseFrameBoundary
  refine State.Inv.next ?_
  split
  · exact hs
  · extract_lets s1 s2 s3 s4 s5 s6 s7 s8 s9 s10
    have hs1 : s1.Inv := hs.frame.timSetApply
    have hs2 : s2.Inv := hs1.ifOn (fun _ h => h.aveFrame)
    have hs3 : s3.Inv := hs2.ifOn (fun _ h => h.entEffects.grantCount)
    have hs4 : s4.Inv := hs3.ifOn (fun _ h => h.tabBoundary.ceFrame)
    have hs5 : s5.Inv := hs4.ifOn (fun _ h => h.xngFrame)
    have hs6 : s6.Inv := hs5.ifOn (fun _ h => h.cscFrame)
    have hs7 : s7.Inv := hs6.ifOn (fun _ h => h.motSnapshot.stallSample)
    have hs8 : s8.Inv := hs7.ifOn (fun _ h => h.armFlows.acqArmEffective.acqRunStop)
    have hs9 : s9.Inv := hs8.ifOn (fun _ h => h.canDue)
    have hs10 : s10.Inv := hs9.ifOn (fun _ h => h.lneFrame)
    exact (State.Inv.foldl (fun _ _ hs' => hs'.ifOn (fun _ h => h.frame)) _ _ hs10).endStalls

theorem State.Inv.keeps_execRateScheduleAcquisition {n : Fin 1024} (hs : s.Inv) : KeepsInv (execRateScheduleAcquisition n s) :=
  (State.Inv.ite (fun _ => hs) fun _ => .ite (fun _ => hs.motEncPoint) fun _ => hs).next

/-! ### Edges at the encoder, latch and trigger inputs (R186, R228, R230, R368) and the profile period with the coordinates it carries -/

theorem State.Inv.keeps_execEncoderEdge {n : Fin 16} {a b i : Bool} {held t : Nat} (hs : s.Inv) : KeepsInv (execEncoderEdge n a b i held t s) := by
  unfold execEncoderEdge
  refine State.Inv.next ?_
  split
  · exact hs
  · extract_lets e0 s1 e1 s2 s3
    have hs1 : s1.Inv := hs.encEdge
    have hs2 : s2.Inv := .ite (fun _ => hs1.encCoordEdge) fun _ => hs1
    have hs3 : s3.Inv := .ite (fun _ => hs2.indexEdge) fun _ => hs2
    exact hs3.judgeCoords

theorem State.Inv.keeps_execLatchEdge {k : Fin 8} {rising : Bool} {held t : Nat} (hs : s.Inv) : KeepsInv (execLatchEdge k rising held t s) :=
  (State.Inv.ite (fun _ => hs) fun _ => .ite (fun _ => hs) fun _ => hs.frame.motLatchPoint.latchEvent.pulseEdge.judgeCoords).next

theorem State.Inv.keeps_execTrigInEdge {k : Fin 4} {rising : Bool} {t8 : Nat} (hs : s.Inv) : KeepsInv (execTrigInEdge k rising t8 s) := by
  unfold execTrigInEdge
  refine State.Inv.next ?_
  extract_lets t s1
  have hs1 : s1.Inv := .ite (fun _ => hs.pulseEdge.judgeCoords) fun _ => hs
  exact .ite (fun _ => hs1.seqEvents) fun _ => hs1

/-! ### The ILP's scan and its mode commands (R247–R256), with the register writes of its word map -/

theorem State.Inv.keeps_execIlpScanBoundary {dur : Nat} {ue : Bool} (hs : s.Inv) : KeepsInv (execIlpScanBoundary dur ue s) :=
  (hs.ilpBoundary (fun _ _ _ h => h.ilpBus)).next

theorem State.Inv.ilpModeCmd {p : Principal} {code dur : Nat} (hs : s.Inv) : (s.ilpModeCmd p code dur).Inv :=
  hs.gated (fun _ h => h.ilpCmd (fun _ _ _ h' => h'.ilpBus))

theorem State.Inv.keeps_execIlpRun {p : Principal} (hs : s.Inv) : KeepsInv (execIlpRun p s) :=
  hs.ilpModeCmd.next

theorem State.Inv.keeps_execIlpStop {p : Principal} (hs : s.Inv) : KeepsInv (execIlpStop p s) :=
  hs.ilpModeCmd.next

theorem State.Inv.keeps_execIlpHold {p : Principal} (hs : s.Inv) : KeepsInv (execIlpHold p s) :=
  hs.ilpModeCmd.next

theorem State.Inv.keeps_execIlpStep {p : Principal} {dur : Nat} (hs : s.Inv) : KeepsInv (execIlpStep p dur s) :=
  hs.ilpModeCmd.next

theorem State.Inv.keeps_execIlpContinue {p : Principal} {dur : Nat} (hs : s.Inv) : KeepsInv (execIlpContinue p dur s) :=
  hs.ilpModeCmd.next

/-! ### The apply of a pending safety parameter set (R283) with the ILP's hold permission (R255) -/

theorem State.Inv.safTake {ch : Nat} (hs : s.Inv) : (s.safTake ch).Inv :=
  .foldl (fun _ _ hs' => hs'.edmStart) _ _ hs.frame

theorem State.Inv.keeps_execSafetyParamApply (hs : s.Inv) : KeepsInv (execSafetyParamApply s) := by
  unfold execSafetyParamApply
  refine State.Inv.next ?_
  split
  · exact hs
  · split
    · exact hs
    · extract_lets s1 s2 s3
      have hs1 : s1.Inv := hs.frame
      have hs2 : s2.Inv := .foldl (fun _ _ hs' => hs'.discFollow) _ _ (hs1.safBoth (fun _ _ h => h.safTake))
      have hs3 : s3.Inv := hs2.record.irq
      exact (hs3.safBoth (fun _ _ h => h.safStanding)).safEvalBoth.ilpPermit

end Sys2Proof.Machine
end

section
/-! SUPPORT. Every command keeps the invariant, constructor by constructor. -/

namespace Sys2Proof.Machine

theorem exec_keepsInv {s : State} (hs : s.Inv) (c : Instr) : KeepsInv (exec c s) := by
  cases c with
  | registerWrite => exact hs.keeps_execRegisterWrite
  | blockEnable => exact hs.keeps_execBlockEnable
  | blockRun => exact hs.keeps_execBlockRun
  | softRst => exact hs.keeps_execSoftRst
  | freeze => exact hs.keeps_execFreeze
  | irqClear => exact hs.keeps_execIrqClear
  | blkErrClear => exact hs.keeps_execBlkErrClear
  | commit => exact hs.keeps_execCommit
  | discard => exact hs.keeps_execDiscard
  | commitApply => exact hs.keeps_execCommitApply
  | lock => exact hs.keeps_execLock
  | fenceDrainEnd => exact hs.keeps_execFenceDrainEnd
  | dcStage => exact hs.keeps_execDcStage
  | dcCancel => exact hs.keeps_execDcCancel
  | dcCopyDone => exact hs.keeps_execDcCopyDone
  | dcSubmit => exact hs.keeps_execDcSubmit
  | dcTagVerify => exact hs.keeps_execDcTagVerify
  | dcStageExpired => exact hs.keeps_execDcStageExpired
  | dcKeyWrite => exact hs.keeps_execDcKeyWrite
  | dcEnroll => exact hs.keeps_execDcEnroll
  | denyLogClear => exact hs.keeps_execDenyLogClear
  | ptdEntGo => exact hs.keeps_execPtdEntGo
  | ptdEntCheckDone => exact hs.keeps_execPtdEntCheckDone
  | histGrantTimeout => exact hs.keeps_execHistGrantTimeout
  | hotEntryWrite => exact hs.keeps_execHotEntryWrite
  | staleTimeout => exact hs.keeps_execStaleTimeout
  | force => exact hs.keeps_execForce
  | release => exact hs.keeps_execRelease
  | releaseAll => exact hs.keeps_execReleaseAll
  | simOn => exact hs.keeps_execSimOn
  | simOff => exact hs.keeps_execSimOff
  | ptdUeLogClear => exact hs.keeps_execPtdUeLogClear
  | baseFrameBoundary => exact hs.keeps_execBaseFrameBoundary
  | rateScheduleAcquisition => exact hs.keeps_execRateScheduleAcquisition
  | loopEvaluation => exact hs.keeps_execLoopEvaluation
  | ceLoopGo => exact hs.keeps_execCeLoopGo
  | loopCommitDone => exact hs.keeps_execLoopCommitDone
  | loopCmdOff => exact hs.keeps_execLoopCmdOff
  | loopCmdManual => exact hs.keeps_execLoopCmdManual
  | loopCmdAuto => exact hs.keeps_execLoopCmdAuto
  | loopCmdCascade => exact hs.keeps_execLoopCmdCascade
  | loopCmdSafe => exact hs.keeps_execLoopCmdSafe
  | loopCmdKeep => exact hs.keeps_execLoopCmdKeep
  | loopSetMan => exact hs.keeps_execLoopSetMan
  | ceEvtClear => exact hs.keeps_execCeEvtClear
  | supAck => exact hs.keeps_execSupAck
  | supAlign => exact hs.keeps_execSupAlign
  | ceRampCmd => exact hs.keeps_execCeRampCmd
  | ceTripClear => exact hs.keeps_execCeTripClear
  | ceTabGo => exact hs.keeps_execCeTabGo
  | tabCopyDone => exact hs.keeps_execTabCopyDone
  | rollingTestDue => exact hs.keeps_execRollingTestDue
  | laneBistEnd => exact hs.keeps_execLaneBistEnd
  | laneStateCopyDone => exact hs.keeps_execLaneStateCopyDone
  | fltDecayExpiry => exact hs.keeps_execFltDecayExpiry
  | xngTest => exact hs.keeps_execXngTest
  | xngRetry => exact hs.keeps_execXngRetry
  | xngRestart => exact hs.keeps_execXngRestart
  | xngDisLogClear => exact hs.keeps_execXngDisLogClear
  | rsqStepGo => exact hs.keeps_execRsqStepGo
  | stepCommitDone => exact hs.keeps_execStepCommitDone
  | streamEvaluation => exact hs.keeps_execStreamEvaluation
  | stepTick => exact hs.keeps_execStepTick
  | stepPrefetchDone => exact hs.keeps_execStepPrefetchDone
  | streamStart => exact hs.keeps_execStreamStart
  | streamHold => exact hs.keeps_execStreamHold
  | streamResume => exact hs.keeps_execStreamResume
  | streamPause => exact hs.keeps_execStreamPause
  | streamAbort => exact hs.keeps_execStreamAbort
  | streamPark => exact hs.keeps_execStreamPark
  | streamReset => exact hs.keeps_execStreamReset
  | streamRecheck => exact hs.keeps_execStreamRecheck
  | streamDiscard => exact hs.keeps_execStreamDiscard
  | rsqResumeGo => exact hs.keeps_execRsqResumeGo
  | resumeWaitExpiry => exact hs.keeps_execResumeWaitExpiry
  | stflagSet => exact hs.keeps_execStflagSet
  | streamWindowWrite => exact hs.keeps_execStreamWindowWrite
  | rsqEvtClear => exact hs.keeps_execRsqEvtClear
  | rsqAlmClear => exact hs.keeps_execRsqAlmClear
  | cscActGo => exact hs.keeps_execCscActGo
  | actCommitDone => exact hs.keeps_execActCommitDone
  | cscArm => exact hs.keeps_execCscArm
  | cscArmRel => exact hs.keeps_execCscArmRel
  | cscCancel => exact hs.keeps_execCscCancel
  | encoderEdge => exact hs.keeps_execEncoderEdge
  | coordEdgeTimeout => exact hs.keeps_execCoordEdgeTimeout
  | zcEdge => exact hs.keeps_execZcEdge
  | phaseLockLoss => exact hs.keeps_execPhaseLockLoss
  | coordCrossing => exact hs.keeps_execCoordCrossing
  | remoteArmSend => exact hs.keeps_execRemoteArmSend
  | cancelUnconfirmed => exact hs.keeps_execCancelUnconfirmed
  | cscEvtClear => exact hs.keeps_execCscEvtClear
  | profilePeriod => exact hs.keeps_execProfilePeriod
  | pwmPeriod => exact hs.keeps_execPwmPeriod
  | holdDelayExpiry => exact hs.keeps_execHoldDelayExpiry
  | latchEdge => exact hs.keeps_execLatchEdge
  | axisEnable => exact hs.keeps_execAxisEnable
  | axisDisable => exact hs.keeps_execAxisDisable
  | moveAbs => exact hs.keeps_execMoveAbs
  | moveRel => exact hs.keeps_execMoveRel
  | moveVel => exact hs.keeps_execMoveVel
  | axisStop => exact hs.keeps_execAxisStop
  | axisQstop => exact hs.keeps_execAxisQstop
  | axisHome => exact hs.keeps_execAxisHome
  | axisFollow => exact hs.keeps_execAxisFollow
  | axisGmove => exact hs.keeps_execAxisGmove
  | resetFault => exact hs.keeps_execResetFault
  | latchArm => exact hs.keeps_execLatchArm
  | motAxisGo => exact hs.keeps_execMotAxisGo
  | axisCommitDone => exact hs.keeps_execAxisCommitDone
  | motGrpGo => exact hs.keeps_execMotGrpGo
  | grpCommitDone => exact hs.keeps_execGrpCommitDone
  | encCntRead => exact hs.keeps_execEncCntRead
  | motEncErrClear => exact hs.keeps_execMotEncErrClear
  | motEvtClear => exact hs.keeps_execMotEvtClear
  | motLatClear => exact hs.keeps_execMotLatClear
  | ilpScanBoundary => exact hs.keeps_execIlpScanBoundary
  | ilpRun => exact hs.keeps_execIlpRun
  | ilpStop => exact hs.keeps_execIlpStop
  | ilpHold => exact hs.keeps_execIlpHold
  | ilpStep => exact hs.keeps_execIlpStep
  | ilpContinue => exact hs.keeps_execIlpContinue
  | ilpLoad => exact hs.keeps_execIlpLoad
  | ilpLoadDone => exact hs.keeps_execIlpLoadDone
  | ilpChgGo => exact hs.keeps_execIlpChgGo
  | safetyInputEdge => exact hs.keeps_execSafetyInputEdge
  | safeFilterExpiry => exact hs.keeps_execSafeFilterExpiry
  | discrepancyExpiry => exact hs.keeps_execDiscrepancyExpiry
  | testPulse => exact hs.keeps_execTestPulse
  | safeRstFall => exact hs.keeps_execSafeRstFall
  | stuckReset => exact hs.keeps_execStuckReset
  | safetyHeartbeat => exact hs.keeps_execSafetyHeartbeat
  | chLost => exact hs.keeps_execChLost
  | safOvertemp => exact hs.keeps_execSafOvertemp
  | safCpuFault => exact hs.keeps_execSafCpuFault
  | edmTimeout => exact hs.keeps_execEdmTimeout
  | chMismatch => exact hs.keeps_execChMismatch
  | offPulseTest => exact hs.keeps_execOffPulseTest
  | offPulseReadback => exact hs.keeps_execOffPulseReadback
  | offPulseTimeout => exact hs.keeps_execOffPulseTimeout
  | outputReadbackFault => exact hs.keeps_execOutputReadbackFault
  | fsSWarning => exact hs.keeps_execFsSWarning
  | fsSUndervoltage => exact hs.keeps_execFsSUndervoltage
  | fsSRecovery => exact hs.keeps_execFsSRecovery
  | safetyParamReceive => exact hs.keeps_execSafetyParamReceive
  | safetyParamApply => exact hs.keeps_execSafetyParamApply
  | safetyFwReceive => exact hs.keeps_execSafetyFwReceive
  | safetyFwSwitch => exact hs.keeps_execSafetyFwSwitch
  | safetyFwSelftestEnd => exact hs.keeps_execSafetyFwSelftestEnd
  | fioRefreshFrame => exact hs.keeps_execFioRefreshFrame
  | linkSilence => exact hs.keeps_execLinkSilence
  | safeHoldTimeout => exact hs.keeps_execSafeHoldTimeout
  | linkDownDetect => exact hs.keeps_execLinkDownDetect
  | linkRetrainDone => exact hs.keeps_execLinkRetrainDone
  | fioInputFilterExpiry => exact hs.keeps_execFioInputFilterExpiry
  | channelOvercurrent => exact hs.keeps_execChannelOvercurrent
  | groupOvercurrent => exact hs.keeps_execGroupOvercurrent
  | readbackMismatch => exact hs.keeps_execReadbackMismatch
  | fsGroupWarn => exact hs.keeps_execFsGroupWarn
  | fsGroupWarnClear => exact hs.keeps_execFsGroupWarnClear
  | fsGroupUv => exact hs.keeps_execFsGroupUv
  | fsGroupRecovery => exact hs.keeps_execFsGroupRecovery
  | fioGrpEnable => exact hs.keeps_execFioGrpEnable
  | aiSample => exact hs.keeps_execAiSample
  | aiConversionEnd => exact hs.keeps_execAiConversionEnd
  | aiBurdenReconnect => exact hs.keeps_execAiBurdenReconnect
  | aiCalGo => exact hs.keeps_execAiCalGo
  | aiCalDone => exact hs.keeps_execAiCalDone
  | aoDeferredUpdate => exact hs.keeps_execAoDeferredUpdate
  | fioTestUv => exact hs.keeps_execFioTestUv
  | fioMmClear => exact hs.keeps_execFioMmClear
  | fioOcClear => exact hs.keeps_execFioOcClear
  | silencedClear => exact hs.keeps_execSilencedClear
  | laneWindowStart => exact hs.keeps_execLaneWindowStart
  | laneOutputRead => exact hs.keeps_execLaneOutputRead
  | laneWindowEnd => exact hs.keeps_execLaneWindowEnd
  | laneCycleStart => exact hs.keeps_execLaneCycleStart
  | aInRx => exact hs.keeps_execAInRx
  | bInRx => exact hs.keeps_execBInRx
  | identRx => exact hs.keeps_execIdentRx
  | laneAckRx => exact hs.keeps_execLaneAckRx
  | delayRespRx => exact hs.keeps_execDelayRespRx
  | foreignFrameRx => exact hs.keeps_execForeignFrameRx
  | lneStart => exact hs.keeps_execLneStart
  | lneStop => exact hs.keeps_execLneStop
  | lneReenum => exact hs.keeps_execLneReenum
  | staRestart => exact hs.keeps_execStaRestart
  | staGoSafe => exact hs.keeps_execStaGoSafe
  | probeTimeout => exact hs.keeps_execProbeTimeout
  | delayRemeasure => exact hs.keeps_execDelayRemeasure
  | newStationProbe => exact hs.keeps_execNewStationProbe
  | laneLinkUp => exact hs.keeps_execLaneLinkUp
  | laneLinkDown => exact hs.keeps_execLaneLinkDown
  | lneInjUnlock => exact hs.keeps_execLneInjUnlock
  | lneInjEn => exact hs.keeps_execLneInjEn
  | ethRxFrame p f fcs t8 => exact hs.keeps_execEthRxFrame (p := p) (f := f) (fcs := fcs) (t8 := t8)
  | ethTxTail => exact hs.keeps_execEthTxTail
  | ethRxTail => exact hs.keeps_execEthRxTail
  | ethTxDone p t8 => exact hs.keeps_execEthTxDone (p := p) (t8 := t8)
  | aveTrainingDone => exact hs.keeps_execAveTrainingDone
  | aveHelloSend => exact hs.keeps_execAveHelloSend
  | aveHelloTimeout => exact hs.keeps_execAveHelloTimeout
  | aveLockLoss => exact hs.keeps_execAveLockLoss
  | aveDelayMeasure => exact hs.keeps_execAveDelayMeasure
  | ptARx => exact hs.keeps_execPtARx
  | ptBRx => exact hs.keeps_execPtBRx
  | rdReqRx => exact hs.keeps_execRdReqRx
  | wrReqRx => exact hs.keeps_execWrReqRx
  | rdRespRx => exact hs.keeps_execRdRespRx
  | wrRespRx => exact hs.keeps_execWrRespRx
  | lsaRx => exact hs.keeps_execLsaRx
  | discRx => exact hs.keeps_execDiscRx
  | timeFrameRx => exact hs.keeps_execTimeFrameRx
  | trigFrameRx => exact hs.keeps_execTrigFrameRx
  | recFrameRx => exact hs.keeps_execRecFrameRx
  | ctrlSubscribe => exact hs.keeps_execCtrlSubscribe
  | ctrlAdmit => exact hs.keeps_execCtrlAdmit
  | ctrlGrant => exact hs.keeps_execCtrlGrant
  | ctrlRelease => exact hs.keeps_execCtrlRelease
  | ctrlHeartbeat => exact hs.keeps_execCtrlHeartbeat
  | fabricAccess => exact hs.keeps_execFabricAccess
  | aveReqTimeout => exact hs.keeps_execAveReqTimeout
  | ptPublish => exact hs.keeps_execPtPublish
  | ptBPublish => exact hs.keeps_execPtBPublish
  | peerFrameTimeout => exact hs.keeps_execPeerFrameTimeout
  | routeRecomputeDone => exact hs.keeps_execRouteRecomputeDone
  | aveDiscover => exact hs.keeps_execAveDiscover
  | aveRelease => exact hs.keeps_execAveRelease
  | discoveryComplete => exact hs.keeps_execDiscoveryComplete
  | deviceLostTimeout => exact hs.keeps_execDeviceLostTimeout
  | gwHeartbeatSend => exact hs.keeps_execGwHeartbeatSend
  | gwHbTimeout => exact hs.keeps_execGwHbTimeout
  | hostLinkLossTimeout => exact hs.keeps_execHostLinkLossTimeout
  | aveInjUnlock => exact hs.keeps_execAveInjUnlock
  | aveInjEn => exact hs.keeps_execAveInjEn
  | aveSubStatClear => exact hs.keeps_execAveSubStatClear
  | timOfsSubmit => exact hs.keeps_execTimOfsSubmit
  | timPhaseStep => exact hs.keeps_execTimPhaseStep
  | timSet => exact hs.keeps_execTimSet
  | servoHoldover => exact hs.keeps_execServoHoldover
  | timeFrameSend => exact hs.keeps_execTimeFrameSend
  | timNowRead => exact hs.keeps_execTimNowRead
  | txtsInfoRead => exact hs.keeps_execTxtsInfoRead
  | txtsPop => exact hs.keeps_execTxtsPop
  | txtsOvfClear => exact hs.keeps_execTxtsOvfClear
  | lostRstClear => exact hs.keeps_execLostRstClear
  | uncLimitExceeded => exact hs.keeps_execUncLimitExceeded
  | acqPointSample => exact hs.keeps_execAcqPointSample
  | acqTimerExpiry => exact hs.keeps_execAcqTimerExpiry
  | trigInEdge => exact hs.keeps_execTrigInEdge
  | acqArm => exact hs.keeps_execAcqArm
  | acqStop => exact hs.keeps_execAcqStop
  | acqClear => exact hs.keeps_execAcqClear
  | acqPostComplete => exact hs.keeps_execAcqPostComplete
  | acqRearmComplete => exact hs.keeps_execAcqRearmComplete
  | acqBlockWritten => exact hs.keeps_execAcqBlockWritten
  | acqTflagSet => exact hs.keeps_execAcqTflagSet
  | acqFlagClear => exact hs.keeps_execAcqFlagClear
  | ocToken => exact hs.keeps_execOcToken
  | hrcReduceInterval => exact hs.keeps_execHrcReduceInterval
  | hrcBlockAge => exact hs.keeps_execHrcBlockAge
  | hrcFlush => exact hs.keeps_execHrcFlush
  | hrcBlockSend => exact hs.keeps_execHrcBlockSend
  | hrcDmaDone => exact hs.keeps_execHrcDmaDone
  | evrAccept => exact hs.keeps_execEvrAccept
  | lostBusyReport => exact hs.keeps_execLostBusyReport
  | freezeTimeout => exact hs.keeps_execFreezeTimeout
  | evrDumpGo => exact hs.keeps_execEvrDumpGo
  | evrDumpDone => exact hs.keeps_execEvrDumpDone
  | evrFfArm => exact hs.keeps_execEvrFfArm
  | taskCreate => exact hs.keeps_execTaskCreate
  | taskDelete => exact hs.keeps_execTaskDelete
  | taskSuspend => exact hs.keeps_execTaskSuspend
  | taskResume => exact hs.keeps_execTaskResume
  | dispRead => exact hs.keeps_execDispRead
  | dispWaitTimeout => exact hs.keeps_execDispWaitTimeout
  | taskDone => exact hs.keeps_execTaskDone
  | taskYield => exact hs.keeps_execTaskYield
  | subGo => exact hs.keeps_execSubGo
  | fset => exact hs.keeps_execFset
  | maskWrite => exact hs.keeps_execMaskWrite
  | htsHb => exact hs.keeps_execHtsHb
  | heartbeatMissed => exact hs.keeps_execHeartbeatMissed
  | autonomyWindowExpiry => exact hs.keeps_execAutonomyWindowExpiry
  | wdtWarning => exact hs.keeps_execWdtWarning
  | wdtExpiry => exact hs.keeps_execWdtExpiry
  | wdtKick => exact hs.keeps_execWdtKick
  | cpuCoreEn => exact hs.keeps_execCpuCoreEn
  | cpuCoreRst => exact hs.keeps_execCpuCoreRst
  | cacheUe => exact hs.keeps_execCacheUe
  | sramScrub => exact hs.keeps_execSramScrub
  | memTrainingDone => exact hs.keeps_execMemTrainingDone
  | memPatrolScrub => exact hs.keeps_execMemPatrolScrub
  | mtimecmpMatch => exact hs.keeps_execMtimecmpMatch
  | mtimeRead => exact hs.keeps_execMtimeRead
  | cpuWdtLogClear => exact hs.keeps_execCpuWdtLogClear
  | cpuSramUeClear => exact hs.keeps_execCpuSramUeClear
  | memUeClear => exact hs.keeps_execMemUeClear
  | ringDoorbell => exact hs.keeps_execRingDoorbell
  | dmaDescDone => exact hs.keeps_execDmaDescDone
  | ringEnable => exact hs.keeps_execRingEnable
  | ringDisable => exact hs.keeps_execRingDisable
  | hifMsiSend => exact hs.keeps_execHifMsiSend
  | hostBarAccess => exact hs.keeps_execHostBarAccess
  | hifErrLogClear => exact hs.keeps_execHifErrLogClear
  | pcieLinkUp => exact hs.keeps_execPcieLinkUp
  | pcieLinkDown => exact hs.keeps_execPcieLinkDown
  | pcieHotReset => exact hs.keeps_execPcieHotReset
  | pcieFlr => exact hs.keeps_execPcieFlr
  | canStart => exact hs.keeps_execCanStart
  | canStop => exact hs.keeps_execCanStop
  | canSleep => exact hs.keeps_execCanSleep
  | canWake => exact hs.keeps_execCanWake
  | canRecover => exact hs.keeps_execCanRecover
  | canFrameRx => exact hs.keeps_execCanFrameRx
  | canTxDone => exact hs.keeps_execCanTxDone
  | canPeriodicRequest => exact hs.keeps_execCanPeriodicRequest
  | canRxTimeout => exact hs.keeps_execCanRxTimeout
  | canBusError => exact hs.keeps_execCanBusError
  | canIntegrationDone => exact hs.keeps_execCanIntegrationDone
  | canRecoveryDone => exact hs.keeps_execCanRecoveryDone
  | canWakeDetect => exact hs.keeps_execCanWakeDetect
  | canObjStatRead => exact hs.keeps_execCanObjStatRead
  | canNewClear => exact hs.keeps_execCanNewClear
  | canOvrClear => exact hs.keeps_execCanOvrClear
  | canTxReq => exact hs.keeps_execCanTxReq
  | canTxAbort => exact hs.keeps_execCanTxAbort
  | canObjEnable => exact hs.keeps_execCanObjEnable
  | canObjDisable => exact hs.keeps_execCanObjDisable
  | canEvtClear => exact hs.keeps_execCanEvtClear
  | canWokenClear => exact hs.keeps_execCanWokenClear
  | clkXoStart => exact hs.keeps_execClkXoStart
  | clkPllStart => exact hs.keeps_execClkPllStart
  | clkRamp => exact hs.keeps_execClkRamp
  | clkReturn => exact hs.keeps_execClkReturn
  | clkXoRetry => exact hs.keeps_execClkXoRetry
  | clkXoStop => exact hs.keeps_execClkXoStop
  | xoStable => exact hs.keeps_execXoStable
  | xoStartTimeout => exact hs.keeps_execXoStartTimeout
  | autoReturn => exact hs.keeps_execAutoReturn
  | rampStep => exact hs.keeps_execRampStep
  | pllLock => exact hs.keeps_execPllLock
  | xoTrip => exact hs.keeps_execXoTrip
  | pllUnlock => exact hs.keeps_execPllUnlock
  | frcFail => exact hs.keeps_execFrcFail
  | srcFail => exact hs.keeps_execSrcFail
  | clkSwitchDone => exact hs.keeps_execClkSwitchDone
  | clkSwitchForce => exact hs.keeps_execClkSwitchForce
  | clkMonStatClear => exact hs.keeps_execClkMonStatClear
  | pmcRun => exact hs.keeps_execPmcRun
  | pmcEco => exact hs.keeps_execPmcEco
  | pmcStandby => exact hs.keeps_execPmcStandby
  | pmcHibernate => exact hs.keeps_execPmcHibernate
  | pmcHandshakeAnswer => exact hs.keeps_execPmcHandshakeAnswer
  | pmcWaitTimeout => exact hs.keeps_execPmcWaitTimeout
  | pmcRollbackDone => exact hs.keeps_execPmcRollbackDone
  | pmcWakeDone => exact hs.keeps_execPmcWakeDone
  | pmcDomOn => exact hs.keeps_execPmcDomOn
  | pmcDomOff => exact hs.keeps_execPmcDomOff
  | domainPowerUpDone => exact hs.keeps_execDomainPowerUpDone
  | wakeNLow => exact hs.keeps_execWakeNLow
  | pmcAlarmMatch => exact hs.keeps_execPmcAlarmMatch
  | laneSignalDetect => exact hs.keeps_execLaneSignalDetect
  | aveSignalDetect => exact hs.keeps_execAveSignalDetect
  | perstNRise => exact hs.keeps_execPerstNRise
  | pmcWakeStatClear => exact hs.keeps_execPmcWakeStatClear
  | startupRegulators => exact hs.keeps_execStartupRegulators
  | startupOscillators => exact hs.keeps_execStartupOscillators
  | startupAlwaysOn => exact hs.keeps_execStartupAlwaysOn
  | startupClocks => exact hs.keeps_execStartupClocks
  | startupMemory => exact hs.keeps_execStartupMemory
  | startupRealtime => exact hs.keeps_execStartupRealtime
  | startupBoot => exact hs.keeps_execStartupBoot
  | startupHandover => exact hs.keeps_execStartupHandover
  | ermPushGo => exact hs.keeps_execErmPushGo
  | bootPushTimeout => exact hs.keeps_execBootPushTimeout
  | powerOnReset => exact State.Inv.keeps_execPowerOnReset
  | brownout => exact hs.keeps_execBrownout
  | resetPin => exact hs.keeps_execResetPin
  | softwareReset => exact hs.keeps_execSoftwareReset
  | debugReset => exact hs.keeps_execDebugReset
  | resetRelease => exact hs.keeps_execResetRelease
  | pgMemLoss => exact hs.keeps_execPgMemLoss
  | pgMemRestore => exact hs.keeps_execPgMemRestore
  | pfailFall => exact hs.keeps_execPfailFall
  | pfailRise => exact hs.keeps_execPfailRise
  | pfailReset => exact hs.keeps_execPfailReset
  | retWrite => exact hs.keeps_execRetWrite
  | retRound => exact hs.keeps_execRetRound
  | retFlush => exact hs.keeps_execRetFlush
  | retCheckDone => exact hs.keeps_execRetCheckDone
  | retBankFailClear => exact hs.keeps_execRetBankFailClear
  | retWfailLogClear => exact hs.keeps_execRetWfailLogClear
  | ermErrorRaise => exact hs.keeps_execErmErrorRaise
  | fatalReset => exact hs.keeps_execFatalReset
  | ermAck => exact hs.keeps_execErmAck
  | ermFatalLogClear => exact hs.keeps_execErmFatalLogClear
  | aveBlockLockRegained => exact hs.keeps_execAveBlockLockRegained
  | rollingTestOverdue => exact hs.keeps_execRollingTestOverdue
  | islandStartupSelftestEnd => exact hs.keeps_execIslandStartupSelftestEnd
  | vddSafePowerUp => exact hs.keeps_execVddSafePowerUp
  | vddSafeLoss => exact hs.keeps_execVddSafeLoss
  | vddFdPowerUp => exact hs.keeps_execVddFdPowerUp
  | vddFdLoss => exact hs.keeps_execVddFdLoss

end Sys2Proof.Machine
end

section
namespace Sys2Proof.Machine

/-- Settles O59: the command at the front keeps the invariant, and taking it off the queue moves nothing that the invariant speaks of. -/
theorem everyStepKeepsTheInvariant : Obligations.EveryStepKeepsTheInvariant := by
  unfold Obligations.EveryStepKeepsTheInvariant
  intro s t hs stepped
  unfold step at stepped
  split at stepped
  · exact hs.next t stepped
  · next c cs _ =>
    have taken : State.Inv { s with pending := cs } := hs.frame
    exact exec_keepsInv taken c t stepped

end Sys2Proof.Machine
end

section
/-!
SUPPORT. A scheduler whose table of ports names core 0 twice, first as unused and then as waiting (R403, R405). Reading a key takes its first entry, so
no core waits; letting preemptions lapse drops entries that are as after reset, and then core 0 waits after all.
-/

namespace Sys2Proof.Machine

/-- Core 7 runs the first of two items of flow 0, and task 1, which core 0 may take, is READY. -/
def twicePort : State :=
  { State.reset with
    hdr := Tab.put {} State.reset.hdr Block.hts.code { en := true, run := true, running := true, pwr := .on }
    regs := Tab.put none State.reset.regs (regKey R.HTS_CORE_EN) (some 1)
    hts := { ports := [(7, { unit := some (.item 0) }), (0, {}), (0, { waiting := true })]
             ready := [.flag 1]
             tasks := [(1, { state := .ready, affinity := 1, limit := 1 })]
             flows := [(0, [{ lo := 1, hi := 2 }, { lo := 3, hi := 4 }])] } }

/-- The word that an outcome leaves for its requester. -/
def outWord : Out → Nat
  | .next t => t.out
  | _ => 0

theorem twicePort_idle : ∀ c < 8, (twicePort.hts.port c).waiting = false := by decide

/-- DONE on core 7 releases the second item and so dispatches task 1 to core 0, with its word left as that core's answer. -/
theorem twicePort_done : outWord (exec (.taskDone .host 7) twicePort) = 0x80000001 ∧ twicePort.out = 0 := by decide

end Sys2Proof.Machine
end

section
namespace Sys2Proof.Machine

/-- Refutes O49: its clause on DONE for a flow's item says that nothing but the scheduler and its header changes while no core waits, and in `twicePort`,
where no core reads as waiting, DONE dispatches a unit and answers a core. The other clauses are not at issue. -/
theorem not_taskSchedulerCommands : ¬ Obligations.TaskSchedulerCommands := by
  unfold Obligations.TaskSchedulerCommands
  intro h
  obtain ⟨-, -, -, ends, -⟩ := h twicePort .host
  obtain ⟨-, -, -, -, items⟩ := ends 7 (by decide)
  obtain ⟨⟨t, run, -, -, same⟩, -⟩ := items 0 { lo := 1, hi := 2 } [{ lo := 3, hi := 4 }] twicePort_idle (by decide) (by decide)
  have out : t.out = twicePort.out := Part.of_same (x := .out) same rfl
  have answered : outWord (exec (.taskDone .host 7) twicePort) = t.out := congrArg outWord run
  rw [twicePort_done.1, out, twicePort_done.2] at answered
  exact absurd answered (by decide)

end Sys2Proof.Machine
end

section
/-!
SUPPORT. How a history block closes while its ring has room (R385, R386), and a recorder whose carried block is marked as being transmitted. The next block
closed takes over the carried block with that mark.
-/

namespace Sys2Proof.Machine

/-- A block closed while the ring has room joins the unsent blocks with the carried block's mark of transmission. -/
theorem State.hrcClose_joins {s : State} {o : HrcOpen} (open_ : s.hrc.blk = some o) (room : s.hrc.unsent.length < s.hrcSlots) :
    ∃ b, s.hrcClose.hrc.unsent = s.hrc.unsent ++ [b] ∧ b.sending = s.hrc.carry.sending := by
  unfold State.hrcClose
  simp only [open_, if_neg (Nat.not_le.2 room)]
  split
  · rw [State.irq_same _ _ _ .hrc (by decide), State.record_same _ _ _ _ _ .hrc (by decide)]
    exact ⟨_, congrArg (fun h : Hrc => h.unsent ++ [_]) (State.storeRam_same s _ _ .hrc (by decide)), rfl⟩
  · exact ⟨_, congrArg (fun h : Hrc => h.unsent ++ [_]) (State.storeRam_same s _ _ .hrc (by decide)), rfl⟩

/-- HRC and SDRAM run, a block is open, the ring holds 256 blocks, and the carried block is marked as being transmitted. -/
def carriedInTransit : State :=
  { State.reset with
    hdr := Tab.put {} (Tab.put {} State.reset.hdr Block.hrc.code { running := true }) Block.mem.code { running := true }
    regs := Tab.put none State.reset.regs (regKey R.HRC_RING_SIZE) (some 1)
    hrc := { blk := some {}, carry := { sending := true } } }

theorem carriedInTransit_on : carriedInTransit.hrcOn = true := by decide

theorem carriedInTransit_room : carriedInTransit.hrc.unsent.length < carriedInTransit.hrcSlots := by decide

/-- BLOCK_AGE closes the open block. -/
theorem hrcBlockAge_closes {s : State} (on : s.hrcOn = true) : exec .hrcBlockAge s = .next s.hrcClose :=
  congrArg Host.Outcome.next (if_pos on)

end Sys2Proof.Machine
end

section
namespace Sys2Proof.Machine

/-- Refutes O48: its clause on a block that closes says that the closed block is not being transmitted, and in `carriedInTransit` it is. That state is one
that no run reaches, since an absorbed block never brings its mark along; the statement is over every state. The other clauses are not at issue. -/
theorem not_recordersActOnTheirCommands : ¬ Obligations.RecordersActOnTheirCommands := by
  unfold Obligations.RecordersActOnTheirCommands
  intro h
  obtain ⟨-, ages, -⟩ := h.1 carriedInTransit
  obtain ⟨t, b, run, -, -, -, unsent, -, -, -, idle⟩ := ages carriedInTransit_on {} rfl carriedInTransit_room
  obtain ⟨c, joined, marked⟩ := State.hrcClose_joins (s := carriedInTransit) (o := {}) rfl carriedInTransit_room
  rw [hrcBlockAge_closes carriedInTransit_on] at run
  have closed : carriedInTransit.hrcClose = t := Host.Outcome.next.inj run
  rw [closed, unsent] at joined
  have same : b = c := by simpa using joined
  rw [same, marked] at idle
  exact absurd idle (by decide)

end Sys2Proof.Machine
end

section
/-!
SUPPORT. The FATAL reaction as a fact of its own (R478): once an error in the safe-state path or a FATAL error is raised, FATAL is set. And what a change of
the servo's state and of TIME_DEGRADED may touch (R362, R444).
-/

namespace Sys2Proof.Machine

variable (s : State)

/-- The reaction's outputs leave the error manager as it is. -/
theorem State.erm_fatalOutputs : s.fatalOutputs.erm = s.erm := Part.of_same (x := .erm) (State.fatalOutputs_same s) rfl

theorem State.fatal_fatalReaction (code src cause : Nat) : (s.fatalReaction code src cause).erm.fatal = true := by
  rw [State.fatalReaction, State.erm_fatalOutputs]

theorem State.fatal_fatalError (code src cause : Nat) : (s.fatalError code src cause).erm.fatal = true := by
  unfold State.fatalError
  split
  · assumption
  · exact State.fatal_fatalReaction s code src cause

/-- An error in the safe-state path sets FATAL (R156, R452). -/
theorem State.fatal_raiseSafePath (b : Block) (inst code : Nat) : (s.raiseSafePath b inst code).erm.fatal = true := by
  unfold State.raiseSafePath
  dsimp only
  split
  · assumption
  · split <;> exact State.fatal_fatalError _ _ _ _

theorem RaiseClosed.raiseSafePath {P : State → Prop} (c : RaiseClosed P) {s : State} (h : P s) (b : Block) (inst code : Nat) :
    P (s.raiseSafePath b inst code) := by
  have counted : P { s with erm := { s.erm with cnt := Tab.upd 0 s.erm.cnt 4 (satInc 0xFFFFFFFF) } } := c.erm _ _ h
  unfold State.raiseSafePath
  dsimp only
  split
  · exact counted
  · split
    · exact c.fatalError (c.record _ _ _ _ _ counted) _ _ _
    · exact c.fatalError counted _ _ _

theorem State.raiseSafePath_same (b : Block) (inst code : Nat) : SameBut raiseParts s (s.raiseSafePath b inst code) :=
  (raiseClosed_same s).raiseSafePath (SameBut.refl _ s) b inst code

theorem State.servoTo_same (st : Servo) : SameBut [.tim, .evr, .hdr, .hts, .out] s (s.servoTo st) := by
  have moved (f : Tim → Tim) : SameBut [.tim, .evr, .hdr, .hts, .out] s (s.updTim f) := SameBut.mono' (State.updTim_same s f) rfl
  unfold State.servoTo
  exact SameBut.ite (moved _) (SameBut.trans (SameBut.trans (moved _) (SameBut.mono' (State.record_same _ _ _ _ _) rfl))
    (SameBut.mono' (State.irq_same _ _ _) rfl))

theorem State.timDegraded_same : SameBut [.tim, .evr, .hdr, .hts, .out] s s.timDegraded :=
  SameBut.ite (State.servoTo_same s _) (SameBut.refl _ s)

theorem State.degFollow_same : SameBut [.clk, .tim, .evr, .hdr, .hts, .out] s s.degFollow := by
  have clk (f : Clk → Clk) : SameBut [.clk, .tim, .evr, .hdr, .hts, .out] s (s.updClk f) := SameBut.mono' (State.updClk_same s f) rfl
  unfold State.degFollow
  exact SameBut.ite (SameBut.ite (SameBut.refl _ s) (SameBut.trans (clk _) (SameBut.mono' (State.timDegraded_same _) rfl)))
    (SameBut.ite (clk _) (SameBut.refl _ s))

end Sys2Proof.Machine
end

section
/-!
SUPPORT. The clock unit (R442–R453): what the acts that its commands end with leave of it, how TIME_DEGRADED follows, and each command by its case.
-/

namespace Sys2Proof.Machine

section
variable (s : State)

@[simp] theorem State.clk_irq (b : Block) (i : Nat) : (s.irq b i).clk = s.clk := Part.of_same (x := .clk) (State.irq_same s b i) rfl

@[simp] theorem State.clk_err (b : Block) (e : Nat) : (s.err b e).clk = s.clk := Part.of_same (x := .clk) (State.err_same s b e) rfl

@[simp] theorem State.clk_record (b : Block) (inst code : Nat) (ps : List Nat) : (s.record b inst code ps).clk = s.clk :=
  Part.of_same (x := .clk) (State.record_same s b inst code ps) rfl

@[simp] theorem State.clk_raise (b : Block) (inst code : Nat) (sev : Severity) : (s.raise b inst code sev).clk = s.clk :=
  Part.of_same (x := .clk) (State.raise_same s b inst code sev) rfl

@[simp] theorem State.clk_raiseSafePath (b : Block) (inst code : Nat) : (s.raiseSafePath b inst code).clk = s.clk :=
  Part.of_same (x := .clk) (State.raiseSafePath_same s b inst code) rfl

@[simp] theorem State.clk_timDegraded : s.timDegraded.clk = s.clk := Part.of_same (x := .clk) (State.timDegraded_same s) rfl

@[simp] theorem State.clk_updClk (f : Clk → Clk) : (s.updClk f).clk = f s.clk := rfl

@[simp] theorem Clk.dom_updDom (d : Nat) (f : ClkDom → ClkDom) : (s.updDom d f).clk.dom d = f (s.clk.dom d) := Tab.get_upd_same _ _ _ _

/-! ### TIME_DEGRADED (R444) -/

/-- TIME_DEGRADED and the time at which it set are all of the clock unit that follows. -/
theorem State.clk_degFollow : s.degFollow.clk = { s.clk with timeDeg := s.degFollow.clk.timeDeg, degT := s.degFollow.clk.degT } := by
  unfold State.degFollow
  dsimp only
  split
  · split
    · rfl
    · simp
  · split <;> rfl

theorem State.dom_degFollow (d : Nat) : s.degFollow.clk.dom d = s.clk.dom d :=
  (congrArg (fun x : Clk => x.dom d) (State.clk_degFollow s) :).trans rfl

/-- TIME_DEGRADED is set where the PLL runs on FRC ÷ 4 and a domain clock runs from it. -/
theorem State.degFollow_sets (on : s.clk.pllOn = true) (ref : s.clk.ref = true) (pll : ∃ d < 4, (s.clk.dom d).frc = false) :
    s.degFollow.clk.timeDeg = true := by
  obtain ⟨d, lt, frc⟩ := pll
  have some_ : ((List.range 4).any fun d => !(s.clk.dom d).frc) = true := List.any_eq_true.2 ⟨d, List.mem_range.2 lt, by simp [frc]⟩
  unfold State.degFollow
  simp only [on, ref, some_, Bool.and_self, Bool.true_or, if_true]
  split
  · assumption
  · simp

/-- TIME_DEGRADED clears where a locked PLL on the crystal drives every domain clock and no return is counting. -/
theorem State.degFollow_clears (locked : s.clk.locked = true) (ref : s.clk.ref = false) (pll : ∀ d < 4, (s.clk.dom d).frc = false)
    (settled : s.clk.backWait = none) : s.degFollow.clk.timeDeg = false := by
  have every : ((List.range 4).all fun d => !(s.clk.dom d).frc) = true := List.all_eq_true.2 fun d h => by simp [pll d (List.mem_range.1 h)]
  unfold State.degFollow
  simp [locked, ref, every, settled, pll 1]

/-! ### Commands of CLK_CMD -/

/-- A command of CLK_CMD is refused: RESULT and BLK_ERR have its code, and no more of the clock unit changes. -/
def State.ClkRefuses (o : Out) (e : Nat) : Prop :=
  ∃ t, o = .next t ∧ t.clk = { s.clk with result := e } ∧ (t.hd .clk).errCode = 0x0200 + e ∧ SameBut [.clk, .hdr, .hts, .out] s t

variable {s} {p : Principal} {code : Nat} {check : State → Nat} {f : State → State}

@[simp] theorem State.clk_clkResult (s : State) (e : Nat) : (s.clkResult e).clk = { s.clk with result := e } := by
  unfold State.clkResult
  dsimp only
  split <;> simp

theorem State.clkResult_refuses {e : Nat} (ne : e ≠ 0) : s.ClkRefuses (.next (s.clkResult e)) e := by
  refine ⟨_, rfl, ?_, ?_, ?_⟩
  all_goals rw [State.clkResult, if_neg ne]
  · simp
  · rw [State.hd_err_same]; rfl
  · exact SameBut.trans (SameBut.mono' (State.updClk_same s _) rfl) (SameBut.mono' (State.err_same _ _ _) rfl)

theorem State.clkCmd_refuses {e : Nat} (writes : s.writeOk .clk 0x104 .wo p = true) (checked : check s = e) (ne : e ≠ 0) :
    s.ClkRefuses (.next (s.clkCmd p code check f)) e := by
  have stopped : s.clkCmd p code check f = s.clkResult e := by rw [State.clkCmd, State.gated_ok _ _ writes, checked]; exact if_pos ne
  rw [stopped]
  exact State.clkResult_refuses ne

/-- A command that reaches CLK either is refused with what its check finds or acts. -/
theorem State.clkCmd_or (writes : s.writeOk .clk 0x104 .wo p = true) : s.clkCmd p code check f = s.clkResult (check s) ∨
    s.clkCmd p code check f = f (s.clkResult 0) := by
  rw [State.clkCmd, State.gated_ok _ _ writes]
  dsimp only
  split
  · exact .inl rfl
  · exact .inr rfl

theorem State.clkCmd_acts (writes : s.writeOk .clk 0x104 .wo p = true) (checked : check s = 0) :
    s.clkCmd p code check f = f (s.updClk fun x => { x with result := 0 }) := by
  rw [State.clkCmd, State.gated_ok _ _ writes, checked]; exact if_neg (not_not.2 rfl)

end

/-! ### The crystal (Table CLK-3, R448) -/

section
variable {s : State} {p : Principal} (writes : s.writeOk .clk 0x104 .wo p = true)

theorem State.xoStart_same (s : State) : SameBut [.clk, .hdr, .hts, .out] s s.xoStart :=
  SameBut.trans (SameBut.mono' (State.updClk_same s _) rfl) (SameBut.mono' (State.irq_same _ _ _) rfl)

@[simp] theorem State.clk_xoStart (s : State) : s.xoStart.clk = { s.clk with xo := .starting, xoT := s.upUs } := State.clk_irq _ _ _

@[simp] theorem State.clk_xoFail (s : State) : s.xoFail.clk = { s.clk with xo := .failed, xoFails := 4, ref := if s.clk.pllOn then s.clk.ref else true } := by
  simp [State.xoFail]

include writes

theorem clkXoStart_starts (off : s.clk.xo = .off) (few : s.clk.xoFails < 4) : ∃ t, exec (.clkXoStart p) s = .next t ∧
    t.clk = { s.clk with xo := .starting, xoT := s.upUs, result := 0 } ∧ SameBut [.clk, .hdr, .hts, .out] s t :=
  ⟨_, congrArg Host.Outcome.next (State.clkCmd_acts writes (if_pos ⟨off, few⟩)), State.clk_xoStart _,
    SameBut.trans (SameBut.mono' (State.updClk_same s _) rfl) (State.xoStart_same _)⟩

theorem clkXoStart_refuses (bad : s.clk.xo ≠ .off ∨ 4 ≤ s.clk.xoFails) : s.ClkRefuses (exec (.clkXoStart p) s) 0x24 :=
  State.clkCmd_refuses writes (if_neg fun good => bad.elim (absurd good.1) (Nat.not_le.2 good.2)) (by decide)

theorem clkXoRetry_starts (failed : s.clk.xo = .failed) : ∃ t, exec (.clkXoRetry p) s = .next t ∧
    t.clk = { s.clk with xo := .starting, xoFails := 0, xoT := s.upUs, result := 0 } ∧ SameBut [.clk, .hdr, .hts, .out] s t :=
  ⟨_, congrArg Host.Outcome.next (State.clkCmd_acts writes (if_pos failed)), State.clk_xoStart _,
    SameBut.trans (SameBut.mono' (State.updClk_same s _) rfl) (SameBut.trans (SameBut.mono' (State.updClk_same _ _) rfl) (State.xoStart_same _))⟩

theorem clkXoRetry_refuses (bad : s.clk.xo ≠ .failed) : s.ClkRefuses (exec (.clkXoRetry p) s) 0x24 :=
  State.clkCmd_refuses writes (if_neg bad) (by decide)

theorem clkXoStop_stops (idle : s.clk.pllOn = false ∨ s.clk.ref = true) : ∃ t, exec (.clkXoStop p) s = .next t ∧
    t.clk = { s.clk with xo := .off, result := 0 } ∧ SameBut [.clk, .hdr, .hts, .out] s t :=
  ⟨_, congrArg Host.Outcome.next (State.clkCmd_acts writes (if_neg fun h => by rcases idle with i | i <;> simp [i] at h)), State.clk_irq _ _ _,
    SameBut.trans (SameBut.mono' (State.updClk_same s _) rfl)
      (SameBut.trans (SameBut.mono' (State.updClk_same _ _) rfl) (SameBut.mono' (State.irq_same _ _ _) rfl))⟩

theorem clkXoStop_refuses (on : s.clk.pllOn = true) (ref : s.clk.ref = false) : s.ClkRefuses (exec (.clkXoStop p) s) 0x24 :=
  State.clkCmd_refuses writes (if_pos (by simp [on, ref])) (by decide)

/-! ### The PLL and the domain clocks -/

theorem clkPllStart_starts (off : s.clk.pllOn = false) (source : s.clk.ref = true ∨ s.clk.xo ≠ .failed) : ∃ t, exec (.clkPllStart p) s = .next t ∧
    t.clk = { s.clk with pllOn := true, locked := false, result := 0 } ∧ SameBut [.clk] s t := by
  have run : exec (.clkPllStart p) s = .next ((s.updClk fun x => { x with result := 0 }).updClk fun x => { x with pllOn := true, locked := false }) := by
    refine congrArg Host.Outcome.next ((State.clkCmd_acts writes (if_neg ?_)).trans (if_neg (by simp [off])))
    rintro ⟨-, ref, failed⟩
    rcases source with i | i
    · simp [i] at ref
    · exact i failed
  exact ⟨_, run, rfl, SameBut.trans (State.updClk_same _ _) (State.updClk_same _ _)⟩

theorem clkPllStart_refuses (off : s.clk.pllOn = false) (ref : s.clk.ref = false) (failed : s.clk.xo = .failed) :
    s.ClkRefuses (exec (.clkPllStart p) s) 0x22 :=
  State.clkCmd_refuses writes (if_pos (by simp [off, ref, failed])) (by decide)

theorem clkRamp_refuses {e : Nat} {d : Fin 4} (locked : s.clk.locked = true) (ne : e ≠ 0)
    (checked : (if s.clk.busy then errClkBusy else if s.domOn 3 ∧ (d.val = 1 ∨ d.val = 2) then errRtActive else 0) = e) :
    s.ClkRefuses (exec (.clkRamp p d) s) e := by
  show s.ClkRefuses (execClkRamp p d s) e
  unfold execClkRamp
  simp only [locked, if_true]
  exact State.clkCmd_refuses writes (by simpa [locked] using checked) ne

omit writes in
theorem Clk.sw_of_idle {x : Clk} (idle : x.busy = false) : x.sw = [] := by
  simp only [Clk.busy, Bool.or_eq_false_iff, decide_eq_false_iff_not, not_not] at idle
  exact idle.1

theorem clkRamp_switches {d : Fin 4} (idle : s.clk.busy = false) (locked : s.clk.locked = true) (free : d.val = 0 ∨ d.val = 3 ∨ s.domOn 3 = false)
    (frc : (s.clk.dom d.val).frc = true) : ∃ t, exec (.clkRamp p d) s = .next t ∧ t.clk.sw = [(1 + d.val, false)] ∧
      (t.clk.dom d.val).tgt = targetDiv d.val ∧ t.clk.result = 0 ∧ SameBut [.clk] s t := by
  have allowed : ¬ (s.domOn 3 = true ∧ (d.val = 1 ∨ d.val = 2)) := by
    rintro ⟨on, one | two⟩ <;> rcases free with h | h | h <;> simp_all
  have run : exec (.clkRamp p d) s = .next (((s.updClk fun x => { x with result := 0 }).updDom d.val fun x => { x with tgt := targetDiv d.val }).muxSwitch
      (1 + d.val) false) := by
    show execClkRamp p d s = _
    unfold execClkRamp
    simp only [locked, if_true]
    refine congrArg Host.Outcome.next ((State.clkCmd_acts writes (by simp [idle, locked, allowed])).trans (if_pos ⟨locked, frc⟩))
  refine ⟨_, run, ?_, ?_, rfl, ?_⟩
  · exact congrArg (· ++ [(1 + d.val, false)]) (congrArg (List.filter _) (Clk.sw_of_idle idle))
  · exact congrArg ClkDom.tgt (Clk.dom_updDom (s.updClk fun x => { x with result := 0 }) d.val fun x => { x with tgt := targetDiv d.val })
  · exact SameBut.trans (State.updClk_same _ _) (SameBut.trans (State.updClk_same _ _) (State.updClk_same _ _))

/-- Without a lock CLK_RAMP changes no domain clock: its result is a free value. -/
theorem clkRamp_unlocked {d : Fin 4} (unlocked : s.clk.locked = false) : ∃ t, exec (.clkRamp p d) s = .next t ∧ t.clk.doms = s.clk.doms ∧
    t.clk.sw = s.clk.sw := by
  have draws : s.draw.2.writeOk .clk 0x104 .wo p = true := writes
  show ∃ t, execClkRamp p d s = .next t ∧ _
  unfold execClkRamp
  simp only [unlocked, Bool.false_eq_true, if_false]
  refine ⟨_, rfl, ?_⟩
  rcases State.clkCmd_or draws with refused | acts
  · rw [refused, State.clk_clkResult]; exact ⟨rfl, rfl⟩
  · rw [acts, if_neg (by rw [State.clk_clkResult]; simp [show s.draw.2.clk.locked = false from unlocked]), State.clk_clkResult]; exact ⟨rfl, rfl⟩

/-! ### The return to the crystal (R447, R450) -/

theorem clkReturn_switches (stable : s.clk.xo = .stable) (calm : s.xngBusy = false) (idle : s.clk.busy = false)
    (may : s.domOn 3 = false ∨ s.clk.fell = true) (on : s.clk.pllOn = true) (ref : s.clk.ref = true) : ∃ t, exec (.clkReturn p) s = .next t ∧
      t.clk = { s.clk with why := some (.back 1), sw := [(0, false)], result := 0 } ∧ SameBut [.clk] s t := by
  have allowed : ¬ (s.domOn 3 = true ∧ s.clk.ref = true ∧ (!s.clk.fell) = true) := by rcases may with h | h <;> simp [h]
  have run : exec (.clkReturn p) s = .next (((s.updClk fun x => { x with result := 0 }).updClk fun x => { x with why := some (.back 1) }).muxSwitch 0 false) :=
    congrArg Host.Outcome.next ((State.clkCmd_acts writes (by simp only [stable, calm, idle, if_neg allowed, ne_eq, not_true, if_false, Bool.false_eq_true])).trans (if_pos ⟨on, ref⟩))
  refine ⟨_, run, ?_, SameBut.trans (State.updClk_same _ _) (SameBut.trans (State.updClk_same _ _) (State.updClk_same _ _))⟩
  simp [State.muxSwitch, Clk.sw_of_idle idle]

theorem clkReturn_unstable (unstable : s.clk.xo ≠ .stable) : s.ClkRefuses (exec (.clkReturn p) s) 0x22 :=
  State.clkCmd_refuses writes (if_pos unstable) (by decide)

theorem clkReturn_lanesBusy (stable : s.clk.xo = .stable) (lanes : s.xngBusy = true) : s.ClkRefuses (exec (.clkReturn p) s) 0x23 :=
  State.clkCmd_refuses writes (by simp [stable, lanes, errRtBusy]) (by decide)

end

section
variable {s : State}

theorem autoReturn_switches (enabled : bit (s.reg R.CLK_CFG) 5 = true) (stable : s.clk.xo = .stable) (on : s.clk.pllOn = true) (ref : s.clk.ref = true)
    (fell : s.clk.fell = true) (calm : s.xngBusy = false) (idle : s.clk.busy = false) :
    exec .autoReturn s = .next { s with clk := { s.clk with why := some (.back 0), sw := [(0, false)] } } := by
  show execAutoReturn s = _
  simp [execAutoReturn, enabled, stable, on, ref, fell, calm, idle, State.muxSwitch, State.updClk, Clk.sw_of_idle idle]

theorem autoReturn_waits (not_ : bit (s.reg R.CLK_CFG) 5 = false ∨ s.xngBusy = true) : exec .autoReturn s = .next s :=
  congrArg Host.Outcome.next (if_neg (by rcases not_ with h | h <;> simp [h]))

/-! ### The crystal's start and its monitor -/

theorem xoStable_stable (starting : s.clk.xo = .starting) : ∃ t, exec .xoStable s = .next t ∧ t.clk.xo = .stable ∧ t.clk.xoFails = s.clk.xoFails ∧
    SameBut [.clk, .evr, .hdr, .hts, .out] s t := by
  refine ⟨_, congrArg Host.Outcome.next (if_neg (not_not.2 starting)), ?_, ?_, ?_⟩
  · simp
  · simp
  · exact SameBut.trans (SameBut.trans (SameBut.mono' (State.updClk_same s _) rfl) (SameBut.mono' (State.record_same _ _ _ _ _) rfl))
      (SameBut.mono' (State.irq_same _ _ _) rfl)

theorem xoStartTimeout_again (starting : s.clk.xo = .starting) (few : s.clk.xoFails + 1 < 4) : ∃ t, exec .xoStartTimeout s = .next t ∧
    t.clk = { s.clk with xoFails := s.clk.xoFails + 1, xoT := s.upUs } ∧ SameBut [.clk, .hdr, .hts, .out] s t :=
  ⟨_, congrArg Host.Outcome.next ((if_neg (not_not.2 starting)).trans (if_pos few)), State.clk_irq _ _ _,
    SameBut.trans (SameBut.mono' (State.updClk_same s _) rfl) (SameBut.mono' (State.irq_same _ _ _) rfl)⟩

theorem xoStartTimeout_fails (starting : s.clk.xo = .starting) (many : 4 ≤ s.clk.xoFails + 1) : ∃ t, exec .xoStartTimeout s = .next t ∧
    t.clk.xo = .failed ∧ t.clk.xoFails = 4 :=
  ⟨_, congrArg Host.Outcome.next ((if_neg (not_not.2 starting)).trans (if_neg (Nat.not_lt.2 many))), by simp, by simp⟩

/-! ### Ramps and switches (R446, R450, R451) -/

theorem State.wakeNext_of_ne (awake : s.pmc.st ≠ .waking) : s.wakeNext = s := if_pos (.inl awake)

theorem rampStep_steps {d : Fin 4} (ramp : (s.clk.dom d.val).ramp = true) (awake : s.pmc.st ≠ .waking) :
    exec (.rampStep d) s = .next (s.updDom d.val fun y => { y with div := rampNext y.div y.tgt, ramp := decide (rampNext y.div y.tgt ≠ y.tgt) }) := by
  have stepped : s.rampStep d.val = s.updDom d.val fun y => { y with div := rampNext y.div y.tgt, ramp := decide (rampNext y.div y.tgt ≠ y.tgt) } :=
    if_neg (by simp [ramp])
  exact congrArg Host.Outcome.next ((congrArg State.wakeNext stepped).trans (State.wakeNext_of_ne awake))

theorem rampStep_rests {d : Fin 4} (ramp : (s.clk.dom d.val).ramp = false) (awake : s.pmc.st ≠ .waking) : exec (.rampStep d) s = .next s := by
  have rests : s.rampStep d.val = s := if_pos (by simp [ramp])
  exact congrArg Host.Outcome.next ((congrArg State.wakeNext rests).trans (State.wakeNext_of_ne awake))

theorem Clk.find_none {x : Clk} {m : Nat} (none_ : ∀ b, (m, b) ∉ x.sw) : (x.sw.find? fun w => decide (w.1 = m)) = none :=
  List.find?_eq_none.2 fun w mem => by
    obtain ⟨n, b⟩ := w
    simp only [decide_eq_true_eq]
    rintro rfl
    exact none_ b mem

theorem clkSwitch_idle {m : Fin 5} (none_ : ∀ b, (m.val, b) ∉ s.clk.sw) :
    exec (.clkSwitchDone m) s = .next s ∧ exec (.clkSwitchForce m) s = .next s := by
  constructor
  · show execClkSwitchDone m s = _
    simp [execClkSwitchDone, State.muxDone, Clk.find_none none_]
  · show execClkSwitchForce m s = _
    simp [execClkSwitchForce, Clk.find_none none_]

/-- A domain clock's multiplexer has switched to the PLL: the clock enters it with divisor 24 and ramps. -/
theorem State.muxDone_dom {d : Nat} (only : s.clk.sw = [(1 + d, false)]) : (s.muxDone (1 + d)).clk.sw = [] ∧
    ((s.muxDone (1 + d)).clk.dom d) = { s.clk.dom d with frc := false, div := 24, ramp := decide ((s.clk.dom d).tgt ≠ 24) } ∧
    (s.muxDone (1 + d)).clk.mon = s.clk.mon ∧ (s.muxDone (1 + d)).clk.lastForced = s.clk.lastForced := by
  have switched : s.muxDone (1 + d) = ((s.updClk fun x => { x with sw := [] }).updDom d fun y =>
      { y with frc := false, div := 24, ramp := decide (y.tgt ≠ 24) }).degFollow := by
    simp [State.muxDone, only, State.updDom, State.updClk]
  rw [switched, State.dom_degFollow]
  refine ⟨?_, Clk.dom_updDom (s.updClk fun x => { x with sw := [] }) d _, ?_, ?_⟩ <;> rw [State.clk_degFollow] <;> rfl

theorem Fin.ofNat_one_add (d : Fin 4) : (Fin.ofNat 5 (1 + d.val)).val = 1 + d.val := Nat.mod_eq_of_lt (by omega)

theorem clkSwitchDone_dom {d : Fin 4} (only : s.clk.sw = [(1 + d.val, false)]) : ∃ t, exec (.clkSwitchDone (Fin.ofNat 5 (1 + d.val))) s = .next t ∧
    t.clk.sw = [] ∧ (t.clk.dom d.val).frc = false ∧ (t.clk.dom d.val).div = 24 ∧ (t.clk.dom d.val).ramp = decide ((s.clk.dom d.val).tgt ≠ 24) := by
  have run : exec (.clkSwitchDone (Fin.ofNat 5 (1 + d.val))) s = .next (s.muxDone (1 + d.val)) :=
    congrArg (fun m => Host.Outcome.next (s.muxDone m)) (Fin.ofNat_one_add d)
  obtain ⟨sw, dom, -, -⟩ := State.muxDone_dom only
  exact ⟨_, run, sw, by rw [dom], by rw [dom], by rw [dom]⟩

theorem clkSwitchForce_dom {d : Fin 4} (only : s.clk.sw = [(1 + d.val, false)]) : ∃ t, exec (.clkSwitchForce (Fin.ofNat 5 (1 + d.val))) s = .next t ∧
    t.clk.sw = [] ∧ (t.clk.dom d.val).frc = false ∧ nbit t.clk.mon 4 = true ∧ t.clk.lastForced = 1 + d.val := by
  let u := ((s.updClk fun x => { x with mon := nput x.mon 4 true, lastForced := 1 + d.val }).record .clk 0 0x0211 [1 + d.val, 1, 0]).irq .clk 10
  have clk : u.clk = { s.clk with mon := nput s.clk.mon 4 true, lastForced := 1 + d.val } := by simp [u]
  have run : exec (.clkSwitchForce (Fin.ofNat 5 (1 + d.val))) s = .next (u.muxDone (1 + d.val)) := by
    show execClkSwitchForce _ s = _
    unfold execClkSwitchForce
    simp [only, Nat.mod_eq_of_lt (show 1 + d.val < 5 by omega), b2n, u]
  obtain ⟨sw, dom, mon, forced⟩ := State.muxDone_dom (s := u) (d := d.val) (by rw [clk]; exact only)
  refine ⟨_, run, sw, by rw [dom], ?_, ?_⟩
  · rw [mon, clk]; exact nbit_nput_same _ _
  · rw [forced, clk]

theorem clkSwitchDone_fallback {k n : Nat} (only : s.clk.sw = [(0, true)]) (why : s.clk.why = some (.fallback k n)) :
    ∃ t, exec (.clkSwitchDone 0) s = .next t ∧ t.clk.ref = true ∧ t.clk.fell = true ∧ t.clk.sw = [] ∧
      (s.clk.pllOn = true → (s.clk.dom 0).frc = false → t.clk.timeDeg = true) := by
  let u := s.updClk fun x => { x with sw := [], ref := true, why := none, fell := true, backWait := none }
  have run : exec (.clkSwitchDone 0) s = .next (((u.degFollow.record .clk 0 0x0210 [k, n, u.degFollow.clk.xoFails]).irq .clk 8).raise .clk 0 0x0210 .alarm) := by
    show execClkSwitchDone 0 s = _
    simp [execClkSwitchDone, State.muxDone, only, why, State.updClk, u]
  refine ⟨_, run, ?_, ?_, ?_, fun on dom => ?_⟩
  · rw [State.clk_raise, State.clk_irq, State.clk_record, State.clk_degFollow]; rfl
  · rw [State.clk_raise, State.clk_irq, State.clk_record, State.clk_degFollow]; rfl
  · rw [State.clk_raise, State.clk_irq, State.clk_record, State.clk_degFollow]; rfl
  · simpa using State.degFollow_sets u on rfl ⟨0, by decide, dom⟩

theorem clkSwitchDone_back {k : Nat} (only : s.clk.sw = [(0, false)]) (why : s.clk.why = some (.back k)) : ∃ t, exec (.clkSwitchDone 0) s = .next t ∧
    t.clk.ref = false ∧ t.clk.fell = false ∧ t.clk.backWait = some k ∧ SameBut [.clk] s t := by
  have run : exec (.clkSwitchDone 0) s = .next (s.updClk fun x => { x with sw := [], ref := false, why := none, fell := false, backWait := some k }) := by
    show execClkSwitchDone 0 s = _
    simp [execClkSwitchDone, State.muxDone, only, why, State.updClk]
  exact ⟨_, run, rfl, rfl, rfl, State.updClk_same s _⟩

/-! ### The lock (R443, R450) -/

/-- The lock's own effect: LOCKED sets and a return that counted has ended. -/
theorem State.pllLock_locks (on : s.clk.pllOn = true) : s.pllLock.clk.locked = true ∧ s.pllLock.clk.backWait = none ∧
    (s.clk.backWait.isSome = true → s.clk.ref = false → (∀ d < 4, (s.clk.dom d).frc = false) → s.pllLock.clk.timeDeg = false) := by
  unfold State.pllLock
  rw [if_neg (by simp [on])]
  dsimp only
  split
  next settled =>
    rw [State.clk_degFollow]
    exact ⟨rfl, settled, fun waits => by simp [State.updClk] at settled; simp [settled] at waits⟩
  next k _ =>
    rw [State.clk_record, State.clk_degFollow]
    exact ⟨rfl, rfl, fun _ ref pll => State.degFollow_clears _ rfl ref pll rfl⟩

theorem State.pllLock_same (s : State) : SameBut [.clk, .tim, .evr, .hdr, .hts, .out] s s.pllLock := by
  have clk (t : State) (f : Clk → Clk) : SameBut [.clk, .tim, .evr, .hdr, .hts, .out] t (t.updClk f) := SameBut.mono' (State.updClk_same t f) rfl
  unfold State.pllLock
  dsimp only
  split
  · exact SameBut.refl _ s
  · split
    · exact SameBut.trans (clk _ _) (State.degFollow_same _)
    · exact SameBut.trans (SameBut.trans (SameBut.trans (clk _ _) (clk _ _)) (State.degFollow_same _)) (SameBut.mono' (State.record_same _ _ _ _ _) rfl)

theorem pllLock_locks (on : s.clk.pllOn = true) (awake : s.pmc.st ≠ .waking) : ∃ t, exec .pllLock s = .next t ∧ t.clk.locked = true ∧
    t.clk.backWait = none ∧ (s.clk.backWait.isSome = true → s.clk.ref = false → (∀ d < 4, (s.clk.dom d).frc = false) → t.clk.timeDeg = false) := by
  have pmc : s.pllLock.pmc = s.pmc := Part.of_same (x := .pmc) (State.pllLock_same s) rfl
  have kept (f : Tim → Tim) (b : Block) (i e : Nat) (ps : List Nat) : ((s.pllLock.updTim f).record b i e ps).pmc = s.pmc :=
    (Part.of_same (x := .pmc) (State.record_same _ _ _ _ _) rfl).trans pmc
  show ∃ t, execPllLock s = .next t ∧ _
  refine ⟨_, rfl, ?_⟩
  dsimp only
  split
  · rw [kept, if_neg fun h => awake h.1, State.clk_record]
    exact State.pllLock_locks on
  · rw [pmc, if_neg fun h => awake h.1]
    exact State.pllLock_locks on

/-! ### Monitors (R448, R450, R452) -/

theorem xoTrip_idle {stop : Bool} {cnt : Nat} (unstable : s.clk.xo ≠ .stable) : ∃ t, exec (.xoTrip stop cnt) s = .next t ∧
    t.clk = { s.clk with mon := nput s.clk.mon 0 true, xoCnt := cnt } ∧ SameBut [.clk] s t :=
  ⟨_, congrArg Host.Outcome.next (if_pos unstable), rfl, State.updClk_same s _⟩

/-- A trip of the reference begins a fallback, while the crystal starts again. -/
theorem xoTrip_fallsBack {stop : Bool} {cnt : Nat} (stable : s.clk.xo = .stable) (few : s.clk.xoFails + 1 < 4) (on : s.clk.pllOn = true)
    (ref : s.clk.ref = false) (frcOk : s.clk.frcOk = true) : ∃ t, exec (.xoTrip stop cnt) s = .next t ∧ t.clk.xo = .starting ∧
      t.clk.xoFails = s.clk.xoFails + 1 ∧ (0, true) ∈ t.clk.sw ∧ t.clk.why = some (.fallback (b2n stop) cnt) ∧ t.clk.locked = s.clk.locked ∧
      t.clk.doms = s.clk.doms := by
  let u := ((s.updClk fun x => { x with mon := nput x.mon 0 true, xoCnt := cnt, xoFails := s.clk.xoFails + 1 }).xoStart.updClk fun x =>
    { x with why := some (.fallback (b2n stop) cnt) }).muxSwitch 0 true
  have run : exec (.xoTrip stop cnt) s = .next u := by
    show execXoTrip stop cnt s = _
    unfold execXoTrip
    simp [stable, few, on, ref, frcOk, State.updClk, u]
  refine ⟨u, run, ?_⟩
  simp [u, State.muxSwitch]

theorem xoTrip_fails {stop : Bool} {cnt : Nat} (stable : s.clk.xo = .stable) (many : 4 ≤ s.clk.xoFails + 1) : ∃ t, exec (.xoTrip stop cnt) s = .next t ∧
    t.clk.xo = .failed ∧ t.clk.xoFails = 4 := by
  have few : ¬ s.clk.xoFails + 1 < 4 := Nat.not_lt.2 many
  show ∃ t, execXoTrip stop cnt s = .next t ∧ _
  unfold execXoTrip
  refine ⟨_, rfl, ?_⟩
  simp only [stable, few, ne_eq, not_true, if_false]
  split
  · rw [State.clk_raiseSafePath, State.clk_xoFail]; exact ⟨rfl, rfl⟩
  · rw [State.clk_xoFail]; exact ⟨rfl, rfl⟩

theorem xoTrip_fatal {stop : Bool} {cnt : Nat} (stable : s.clk.xo = .stable) (on : s.clk.pllOn = true) (ref : s.clk.ref = false)
    (frc : s.clk.frcOk = false) : ∃ t, exec (.xoTrip stop cnt) s = .next t ∧ t.erm.fatal = true := by
  show ∃ t, execXoTrip stop cnt s = .next t ∧ _
  unfold execXoTrip
  refine ⟨_, rfl, ?_⟩
  rw [if_neg (not_not.2 stable)]
  dsimp only
  rw [if_pos (by simp [on, ref, frc])]
  exact State.fatal_raiseSafePath _ _ _ _

/-- Multiplexers begin to switch one after another: those that switch already go on, and of the clock unit nothing else changes. -/
theorem State.clk_toFrc (s : State) : ∃ l, s.toFrc.clk = { s.clk with sw := l } ∧ ∀ d < 4, (s.clk.dom d).frc = false → (1 + d, true) ∈ l := by
  let step := fun (t : State) (d : Nat) => if (t.clk.dom d).frc then t else t.muxSwitch (1 + d) true
  have go (n : Nat) : ∃ l, ((List.range n).foldl step s).clk = { s.clk with sw := l } ∧ ∀ d < n, (s.clk.dom d).frc = false → (1 + d, true) ∈ l := by
    induction n with
    | zero => exact ⟨s.clk.sw, rfl, fun d h => absurd h (Nat.not_lt_zero d)⟩
    | succ n ih =>
      obtain ⟨l, clk, mem⟩ := ih
      rw [List.range_succ, List.foldl_append]
      simp only [List.foldl_cons, List.foldl_nil]
      generalize (List.range n).foldl step s = t at clk
      have dom : t.clk.dom n = s.clk.dom n := by rw [clk]; rfl
      show ∃ l, (if (t.clk.dom n).frc then t else t.muxSwitch (1 + n) true).clk = _ ∧ _
      rw [dom]
      cases frc : (s.clk.dom n).frc with
      | true =>
        refine ⟨l, clk, fun d lt off => ?_⟩
        rcases Nat.lt_succ_iff_lt_or_eq.1 lt with h | rfl
        · exact mem d h off
        · rw [frc] at off; exact absurd off (by decide)
      | false =>
        refine ⟨(l.filter fun w => decide (w.1 ≠ 1 + n)) ++ [(1 + n, true)], ?_, fun d lt off => ?_⟩
        · simp [State.muxSwitch, clk]
        · rcases Nat.lt_succ_iff_lt_or_eq.1 lt with h | rfl
          · exact List.mem_append_left _ (List.mem_filter.2 ⟨mem d h off, by simp; omega⟩)
          · exact List.mem_append_right _ (List.mem_singleton.2 rfl)
  exact go 4

theorem State.clk_clkFault (s : State) (trip : Nat) : (s.clkFault trip).clk = { s.clk with mon := nput s.clk.mon trip true } := State.clk_record _ _ _ _ _

theorem pllUnlock_unlocks : ∃ t, exec .pllUnlock s = .next t ∧ t.clk.locked = false ∧ nbit t.clk.mon 1 = true ∧
    (s.domOn 3 = true → t.erm.fatal = true) ∧ (s.domOn 3 = true → ∀ d < 4, (s.clk.dom d).frc = false → (1 + d, true) ∈ t.clk.sw) := by
  let u := (s.clkFault 1).updClk fun x => { x with locked := false }
  have clk : u.clk = { s.clk with mon := nput s.clk.mon 1 true, locked := false } := by rw [State.clk_updClk, State.clk_clkFault]
  have run : exec .pllUnlock s = .next (if s.domOn 3 then u.toFrc.raiseSafePath .clk 0 0x0215 else u) := rfl
  refine ⟨_, run, ?_⟩
  cases s.domOn 3 with
  | false =>
    rw [if_neg (by decide), clk]
    exact ⟨rfl, nbit_nput_same _ _, by simp, by simp⟩
  | true =>
    obtain ⟨l, toFrc, mem⟩ := State.clk_toFrc u
    rw [if_pos rfl, State.clk_raiseSafePath, toFrc, clk]
    exact ⟨rfl, nbit_nput_same _ _, fun _ => State.fatal_raiseSafePath _ _ _ _, fun _ d lt off => mem d lt (by rw [clk]; exact off)⟩

theorem frcFail_fails (cnt : Nat) : ∃ t, exec (.frcFail cnt) s = .next t ∧ t.clk.frcOk = false ∧ t.clk.frcCnt = cnt ∧ nbit t.clk.mon 2 = true ∧
    ((s.clk.pllOn = true ∧ s.clk.ref = true) ∨ (∃ d < 4, (s.clk.dom d).frc = true) → t.erm.fatal = true) := by
  let u := (s.clkFault 2).updClk fun x => { x with frcOk := false, frcCnt := cnt }
  have clk : u.clk = { s.clk with mon := nput s.clk.mon 2 true, frcOk := false, frcCnt := cnt } := by rw [State.clk_updClk, State.clk_clkFault]
  let drives := (s.clk.pllOn && s.clk.ref) || (List.range 4).any fun d => (s.clk.dom d).frc
  have run : exec (.frcFail cnt) s = .next (if drives then u.toFrc.raiseSafePath .clk 0 0x0215 else u.raise .clk 0 0x0215 .warn) := rfl
  refine ⟨_, run, ?_⟩
  cases used : drives with
  | true =>
    obtain ⟨l, toFrc, -⟩ := State.clk_toFrc u
    rw [if_pos rfl, State.clk_raiseSafePath, toFrc, clk]
    exact ⟨rfl, rfl, nbit_nput_same _ _, fun _ => State.fatal_raiseSafePath _ _ _ _⟩
  | false =>
    obtain ⟨ref, clocks⟩ := Bool.or_eq_false_iff.1 used
    rw [if_neg (by decide), State.clk_raise, clk]
    refine ⟨rfl, rfl, nbit_nput_same _ _, ?_⟩
    rintro (⟨on, frc⟩ | ⟨d, lt, frc⟩)
    · simp [on, frc] at ref
    · exact absurd (List.any_eq_true.2 ⟨d, List.mem_range.2 lt, frc⟩) (Bool.eq_false_iff.1 clocks)

theorem srcFail_fails : ∃ t, exec .srcFail s = .next t ∧ t.clk.srcOk = false ∧ nbit t.clk.mon 3 = true ∧ t.clk.doms = s.clk.doms := by
  refine ⟨_, rfl, ?_⟩
  rw [State.clk_raise, State.clk_updClk, State.clk_clkFault]
  exact ⟨rfl, nbit_nput_same _ _, rfl⟩

end

end Sys2Proof.Machine
end

section
namespace Sys2Proof.Machine

/-- Settles O54: each command by its case, where RESULT, the crystal, the multiplexers and the lock are all of the clock unit that it moves. -/
theorem clockUnitFollowsItsTables : Obligations.ClockUnitFollowsItsTables := by
  unfold Obligations.ClockUnitFollowsItsTables
  intro s
  refine ⟨fun p writes => ?_, autoReturn_switches, autoReturn_waits, fun starting => ?_, fun idle => ?_, fun d => ?_, fun m => clkSwitch_idle, fun d only => ?_,
    fun k n => clkSwitchDone_fallback, fun k => clkSwitchDone_back, pllLock_locks, fun stop cnt => ?_, pllUnlock_unlocks, frcFail_fails, srcFail_fails⟩
  · refine ⟨clkXoStart_starts writes, clkXoStart_refuses writes, clkXoRetry_starts writes, clkXoRetry_refuses writes, clkXoStop_stops writes,
      clkXoStop_refuses writes, clkPllStart_starts writes, clkPllStart_refuses writes, fun d => clkRamp_switches writes, fun d busy locked => ?_,
      fun d idle locked on rt => ?_, fun d _ => clkRamp_unlocked writes, clkReturn_switches writes, clkReturn_unstable writes, clkReturn_lanesBusy writes⟩
    · exact clkRamp_refuses writes locked (by decide) (if_pos busy)
    · exact clkRamp_refuses writes locked (by decide) ((if_neg (by simp [idle])).trans (if_pos ⟨on, rt⟩))
  · exact ⟨xoStable_stable starting, xoStartTimeout_again starting, xoStartTimeout_fails starting⟩
  · exact ⟨congrArg Host.Outcome.next (if_pos idle), congrArg Host.Outcome.next (if_pos idle)⟩
  · exact ⟨rampStep_steps, rampStep_rests⟩
  · exact ⟨clkSwitchDone_dom only, clkSwitchForce_dom only⟩
  · exact ⟨xoTrip_idle, xoTrip_fallsBack, xoTrip_fails, xoTrip_fatal⟩

end Sys2Proof.Machine
end

section
/-!
SUPPORT. The servo (R346–R352): what a measurement and each of its parts leave in the time unit.
-/

namespace Sys2Proof.Machine

section
variable (s : State)

@[simp] theorem State.tim_irq (b : Block) (i : Nat) : (s.irq b i).tim = s.tim := Part.of_same (x := .tim) (State.irq_same s b i) rfl

@[simp] theorem State.tim_err (b : Block) (e : Nat) : (s.err b e).tim = s.tim := Part.of_same (x := .tim) (State.err_same s b e) rfl

@[simp] theorem State.tim_record (b : Block) (inst code : Nat) (ps : List Nat) : (s.record b inst code ps).tim = s.tim :=
  Part.of_same (x := .tim) (State.record_same s b inst code ps) rfl

@[simp] theorem State.tim_updTim (f : Tim → Tim) : (s.updTim f).tim = f s.tim := rfl

/-- A change of state starts its count anew; LOCKED ends TIME_LOST (Table TIM-1, R361). -/
@[simp] theorem State.tim_servoTo (st : Servo) :
    (s.servoTo st).tim = { s.tim with st := st, cnt := 0, lost := s.tim.lost && decide (st ≠ .locked) } := by
  unfold State.servoTo
  dsimp only
  split
  · rfl
  · simp

/-- F from a correction in 1/256 ns (R349). -/
def State.freqOf (corr : Int) : Int :=
  clamp (-((s.reg R.TIM_SRV_ADJMAX).toNat : Int)) (s.reg R.TIM_SRV_ADJMAX).toNat (roundAway (-corr * 1000000000) (256 * max 1 s.servoTs))

@[simp] theorem State.tim_freqFrom (corr : Int) : (s.freqFrom corr).tim = { s.tim with freq := s.freqOf corr, inc := incOf (s.freqOf corr) } := rfl

@[simp] theorem State.tim_askStep (o : Int) : (s.askStep o).1.tim = { s.tim with stepPend := some (stepOf o) } := rfl

/-- The two gains of R349. -/
def State.gainP : Int := bits (s.reg R.TIM_SRV_GAIN) 15 0
def State.gainI : Int := bits (s.reg R.TIM_SRV_GAIN) 31 16

@[simp] theorem State.tim_servoPi (o : Int) :
    (s.servoPi o).tim = { s.tim with iAcc := s.tim.iAcc + s.gainI * o, freq := s.freqOf (s.gainP * o + (s.tim.iAcc + s.gainI * o)),
                                     inc := incOf (s.freqOf (s.gainP * o + (s.tim.iAcc + s.gainI * o))) } := rfl

/-! ### What the servo's parts may touch -/

/-- The parts that a measurement may change. -/
def timParts : List Part := [.tim, .evr, .hdr, .hts, .out]

variable {s} {t : State}

theorem State.freqOf_congr (h : t.regs = s.regs) (corr : Int) : t.freqOf corr = s.freqOf corr := by
  have regs : t.reg = s.reg := funext (State.reg_congr h)
  unfold State.freqOf State.servoTs State.timSrc
  rw [regs]

theorem State.freqOf_of_same (h : SameBut timParts s t) (corr : Int) : t.freqOf corr = s.freqOf corr :=
  State.freqOf_congr (Part.of_same (x := .regs) h rfl) corr

theorem State.reg_of_same (h : SameBut timParts s t) (r : RegId) : t.reg r = s.reg r := State.reg_congr (Part.of_same (x := .regs) h rfl) r

theorem State.updTim_timParts (s : State) (f : Tim → Tim) : SameBut timParts s (s.updTim f) := SameBut.mono' (State.updTim_same s f) rfl

/-! ### The measurement taken (R349) -/

/-- A measurement that the servo takes, before the state decides on it: TIM_OFS shows it and TIM_UNC starts anew. -/
def State.taken (s : State) (o : Int) : State :=
  let far := s.tim.firstAfter && decide (s.lostLim * 1000 < o.natAbs)
  let s0 := s.updTim fun t => { t with lastOfs := satS 32 o, unc := 0, firstAfter := false, lostRst := t.lostRst || far }
  if far then s0.record .tim 0 0x0614 [s.tim.unc, 2] else s0

theorem State.tim_taken (s : State) (o : Int) : ∃ l, (s.taken o).tim = { s.tim with lastOfs := satS 32 o, unc := 0, firstAfter := false, lostRst := l } := by
  unfold State.taken
  dsimp only
  split
  · exact ⟨_, State.tim_record _ _ _ _ _⟩
  · exact ⟨_, rfl⟩

theorem State.taken_same (s : State) (o : Int) : SameBut timParts s (s.taken o) := by
  unfold State.taken
  exact SameBut.ite (SameBut.trans (State.updTim_timParts s _) (SameBut.mono' (State.record_same _ _ _ _ _) rfl)) (State.updTim_timParts s _)

/-! ### LOCKING (Table TIM-1) -/

section
variable {o : Int}

theorem State.measLocking_far (far : s.stepThr < o.natAbs) : s.measLocking o = ((s.askStep o).1.servoTo .locking).freqFrom s.tim.iAcc := if_pos far

theorem State.tim_measLocking_near (near : o.natAbs ≤ s.stepThr) : ∃ st cnt lost, (s.measLocking o).tim = { (s.servoPi o).tim with st := st, cnt := cnt, lost := lost } ∧
    (s.tim.st = .locking → o.natAbs ≤ s.lockThr → s.lockN = s.tim.cnt + 1 → s.clk.timeDeg = false → st = .locked ∧ lost = false) ∧
    (s.tim.st = .locking → o.natAbs ≤ s.lockThr → s.clk.timeDeg = true → st = .locking) ∧
    (s.tim.st = .locking → s.lockThr < o.natAbs → 0 < s.lockN → st = .locking ∧ cnt = 0) := by
  let n := if o.natAbs ≤ s.lockThr then s.tim.cnt + 1 else 0
  have run : s.measLocking o = if s.lockN ≤ n ∧ !s.clk.timeDeg ∧ 0 < n then (s.servoPi o).servoTo .locked else (s.servoPi o).updTim fun t => { t with cnt := n } :=
    if_neg (Nat.not_lt.2 near)
  have counts (close : o.natAbs ≤ s.lockThr) : n = s.tim.cnt + 1 := if_pos close
  have restarts (wide : s.lockThr < o.natAbs) : n = 0 := if_neg (Nat.not_le.2 wide)
  rw [run]
  by_cases locks : s.lockN ≤ n ∧ !s.clk.timeDeg ∧ 0 < n
  · rw [if_pos locks]
    obtain ⟨-, sound, some_⟩ := locks
    refine ⟨.locked, 0, _, State.tim_servoTo _ _, fun _ _ _ _ => ⟨rfl, by simp⟩, fun _ _ deg => by simp [deg] at sound, fun _ wide _ => ?_⟩
    exact absurd (restarts wide) (Nat.pos_iff_ne_zero.1 some_)
  · rw [if_neg locks]
    refine ⟨s.tim.st, n, s.tim.lost, rfl, fun _ close enough deg => ?_, fun st _ _ => st, fun st wide _ => ⟨st, restarts wide⟩⟩
    exact absurd ⟨(enough.trans (counts close).symm).le, by simp [deg], counts close ▸ Nat.succ_pos _⟩ locks

end

/-! ### A measurement (Table TIM-1) -/

section
variable {o : Int} (free : s.tim.stepPend = none)
include free

theorem State.measure_acquire_first (st : s.tim.st = .acquire) (first : s.tim.r1 = none) :
    (o.natAbs ≤ s.stepThr → s.measure o = (s.taken o).updTim fun t => { t with r1 := some o }) ∧
    (s.stepThr < o.natAbs → s.measure o = ((s.taken o).askStep o).1.updTim fun t => { t with r1 := some (o + stepOf o) }) := by
  have run : s.measure o = if s.stepThr < o.natAbs then ((s.taken o).askStep o).1.updTim fun t => { t with r1 := some (o + stepOf o) }
      else (s.taken o).updTim fun t => { t with r1 := some o } := by
    unfold State.measure
    simp only [free, st, first]
    rfl
  exact ⟨fun near => run.trans (if_neg (Nat.not_lt.2 near)), fun far => run.trans (if_pos far)⟩

theorem State.measure_acquire_second (st : s.tim.st = .acquire) {r1 : Int} (second : s.tim.r1 = some r1) : s.measure o =
    (((if s.stepThr < o.natAbs then (s.taken o).askStep o else (s.taken o, o)).1.updTim fun t => { t with iAcc := (o - r1) * 256, r1 := none }).freqFrom
      (s.gainP * (if s.stepThr < o.natAbs then (s.taken o).askStep o else (s.taken o, o)).2 + (o - r1) * 256)).servoTo .locking := by
  unfold State.measure
  simp only [free, st, second]
  rfl

theorem State.measure_locking (st : s.tim.st = .locking) : s.measure o = (s.taken o).measLocking o := by
  unfold State.measure
  simp only [free, st]
  rfl

theorem State.measure_holdover (st : s.tim.st = .holdover) : s.measure o = ((s.taken o).servoTo .locking).measLocking o := by
  unfold State.measure
  simp only [free, st]
  rfl

theorem State.measure_locked (st : s.tim.st = .locked) : s.measure o =
    if s.stepThr < o.natAbs then (((s.taken o).askStep o).1.servoTo .locking).freqFrom s.tim.iAcc
    else if o.natAbs ≤ s.lockThr then ((s.taken o).servoPi o).updTim fun t => { t with cnt := 0 }
    else if s.tim.cnt = 0 then ((s.taken o).servoPi o).updTim fun t => { t with cnt := 1 } else ((s.taken o).servoPi o).servoTo .locking := by
  unfold State.measure
  simp only [free, st]
  rfl

end

/-- What a measurement leaves as it is or sets in every state: network time, TIM_UNC and the offset that TIM_OFS shows. -/
def Tim.measured (t : Tim) : Nat × Nat × Int := (t.net, t.unc, t.lastOfs)

@[simp] theorem State.measured_measLocking (s : State) (o : Int) : (s.measLocking o).tim.measured = s.tim.measured := by
  rcases Nat.lt_or_ge s.stepThr o.natAbs with far | near
  · rw [State.measLocking_far far, State.tim_freqFrom, State.tim_servoTo]
    rfl
  · obtain ⟨st, cnt, lost, run, -, -, -⟩ := State.tim_measLocking_near near
    rw [run]
    rfl

theorem State.measured_taken (s : State) (o : Int) : (s.taken o).tim.measured = (s.tim.net, 0, satS 32 o) := by
  obtain ⟨l, taken⟩ := State.tim_taken s o
  rw [taken]
  rfl

theorem State.measured_measure {o : Int} (free : s.tim.stepPend = none) (on : s.tim.st ≠ .freerun) :
    (s.measure o).tim.measured = (s.tim.net, 0, satS 32 o) := by
  rw [← State.measured_taken]
  cases st : s.tim.st with
  | freerun => exact absurd st on
  | acquire =>
    cases first : s.tim.r1 with
    | none =>
      obtain ⟨near, far⟩ := State.measure_acquire_first (o := o) free st first
      rcases Nat.lt_or_ge s.stepThr o.natAbs with h | h
      · rw [far h]; rfl
      · rw [near h]; rfl
    | some r1 =>
      rw [State.measure_acquire_second free st first, State.tim_servoTo]
      split <;> rfl
  | locking => rw [State.measure_locking free st, State.measured_measLocking]
  | holdover =>
    rw [State.measure_holdover free st, State.measured_measLocking, State.tim_servoTo]
    rfl
  | locked =>
    rw [State.measure_locked free st]
    split
    · rw [State.tim_freqFrom, State.tim_servoTo]; rfl
    · split
      · rfl
      · split
        · rfl
        · rw [State.tim_servoTo]; rfl

/-- A measurement near the time in LOCKING, LOCKED or HOLDOVER takes the proportional-integral step; the state follows Table TIM-1. -/
theorem State.tim_measure_near {o : Int} (free : s.tim.stepPend = none) (near : o.natAbs ≤ s.stepThr)
    (st : s.tim.st = .locking ∨ s.tim.st = .locked ∨ s.tim.st = .holdover) : ∃ u : State, SameBut timParts s u ∧ u.tim.stepPend = none ∧ u.tim.iAcc = s.tim.iAcc ∧
      (∃ st cnt lost, (s.measure o).tim = { (u.servoPi o).tim with st := st, cnt := cnt, lost := lost } ∧
        (s.tim.st = .locked → o.natAbs ≤ s.lockThr → st = .locked ∧ cnt = 0) ∧
        (s.tim.st = .locked → s.lockThr < o.natAbs → s.tim.cnt = 0 → st = .locked ∧ cnt = 1) ∧
        (s.tim.st = .locked → s.lockThr < o.natAbs → s.tim.cnt ≠ 0 → st = .locking) ∧
        (s.tim.st = .locking → o.natAbs ≤ s.lockThr → s.lockN = s.tim.cnt + 1 → s.clk.timeDeg = false → st = .locked ∧ lost = false) ∧
        (s.tim.st = .locking → o.natAbs ≤ s.lockThr → s.clk.timeDeg = true → st = .locking) ∧
        (s.tim.st = .locking → s.lockThr < o.natAbs → 0 < s.lockN → st = .locking ∧ cnt = 0)) := by
  have same := State.taken_same s o
  obtain ⟨l, taken⟩ := State.tim_taken s o
  have thr {u : State} (h : SameBut timParts s u) : u.stepThr = s.stepThr ∧ u.lockThr = s.lockThr ∧ u.lockN = s.lockN ∧ u.clk = s.clk :=
    ⟨congrArg BitVec.toNat (State.reg_of_same h _), congrArg (bits · 15 0) (State.reg_of_same h _), congrArg (bits · 19 16) (State.reg_of_same h _),
      Part.of_same (x := .clk) h rfl⟩
  rcases st with st | st | st
  · obtain ⟨step, lock, n, clk⟩ := thr same
    obtain ⟨st', cnt, lost, run, locks, degraded, restarts⟩ := State.tim_measLocking_near (s := s.taken o) (step ▸ near)
    refine ⟨s.taken o, same, by rw [taken]; exact free, by rw [taken], st', cnt, lost, by rw [State.measure_locking free st, run], ?_⟩
    rw [lock, n, clk, taken] at locks
    rw [lock, clk, taken] at degraded
    rw [lock, n, taken] at restarts
    exact ⟨by simp [st], by simp [st], by simp [st], locks, degraded, restarts⟩
  · refine ⟨s.taken o, same, by rw [taken]; exact free, by rw [taken], ?_⟩
    rw [State.measure_locked free st, if_neg (Nat.not_lt.2 near)]
    have own : (s.taken o).tim.st = .locked := by rw [taken]; exact st
    split
    next close => exact ⟨_, _, _, rfl, fun _ _ => ⟨own, rfl⟩, fun _ wide => absurd wide (Nat.not_lt.2 close), fun _ wide => absurd wide (Nat.not_lt.2 close),
        by simp [st], by simp [st], by simp [st]⟩
    next wide =>
      split
      next zero => exact ⟨_, _, _, rfl, fun _ close => absurd close wide, fun _ _ _ => ⟨own, rfl⟩, fun _ _ n => absurd zero n, by simp [st], by simp [st], by simp [st]⟩
      next more => exact ⟨_, _, _, State.tim_servoTo _ _, fun _ close => absurd close wide, fun _ _ n => absurd n more, fun _ _ _ => rfl,
          by simp [st], by simp [st], by simp [st]⟩
  · have own := State.tim_servoTo (s.taken o) .locking
    have both : SameBut timParts s ((s.taken o).servoTo .locking) := SameBut.trans same (State.servoTo_same _ _)
    obtain ⟨st', cnt, lost, run, -, -, -⟩ := State.tim_measLocking_near (s := (s.taken o).servoTo .locking) ((thr both).1 ▸ near)
    exact ⟨_, both, by rw [own, taken]; exact free, by rw [own, taken], st', cnt, lost, by rw [State.measure_holdover free st, run],
      by simp [st], by simp [st], by simp [st], by simp [st], by simp [st], by simp [st]⟩

/-- One too far off in LOCKING or LOCKED asks for a step, from the correction that I holds. -/
theorem State.tim_measure_far {o : Int} (free : s.tim.stepPend = none) (far : s.stepThr < o.natAbs) (st : s.tim.st = .locking ∨ s.tim.st = .locked) :
    (s.measure o).tim.st = .locking ∧ (s.measure o).tim.iAcc = s.tim.iAcc ∧ (s.measure o).tim.freq = s.freqOf s.tim.iAcc ∧
      (s.measure o).tim.stepPend = some (stepOf o) := by
  have same := State.taken_same s o
  obtain ⟨l, taken⟩ := State.tim_taken s o
  have asked : SameBut timParts s (((s.taken o).askStep o).1.servoTo .locking) :=
    SameBut.trans same (SameBut.trans (State.updTim_timParts _ _) (State.servoTo_same _ _))
  have i : (s.taken o).tim.iAcc = s.tim.iAcc := by rw [taken]
  have run : s.measure o = (((s.taken o).askStep o).1.servoTo .locking).freqFrom s.tim.iAcc := by
    rcases st with st | st
    · rw [State.measure_locking free st, State.measLocking_far, i]
      rw [State.stepThr, State.reg_of_same same]
      exact far
    · rw [State.measure_locked free st, if_pos far]
  rw [run, State.tim_freqFrom, State.freqOf_of_same asked, State.tim_servoTo, State.tim_askStep]
  exact ⟨rfl, i, rfl, rfl⟩

end

end Sys2Proof.Machine
end

section
/-!
SUPPORT. A step of network time fires what it skips (R201): none of it reaches the time unit. And the TIME frames (R357).
-/

namespace Sys2Proof.Machine

section
variable (s : State)

/-! ### What a firing may touch (R192, R198–R204) -/

/-- The parts that the firings of entries may change. -/
def fireParts : List Part := [.free, .mot, .fio, .ptd, .can, .hrc, .mem, .evr, .hdr, .hts, .out, .csc, .lne, .ce, .acq, .ave]

theorem State.updCsc_fire (f : Csc → Csc) : SameBut fireParts s (s.updCsc f) := SameBut.mono' (State.updCsc_same s f) rfl

theorem State.groupSettle_same (g : Nat) : SameBut fireParts s (s.groupSettle g) := by
  unfold State.groupSettle
  dsimp only
  split
  · exact SameBut.trans (SameBut.trans (SameBut.trans (State.updCsc_fire s _) (SameBut.mono' (State.irq_same _ _ _) rfl))
      (SameBut.mono' (State.routeEvt_same _ _ _ _) rfl)) (SameBut.mono' (State.record_same _ _ _ _ _) rfl)
  · exact SameBut.refl _ s

theorem State.outEdge_same (key n step : Nat) (on : Bool) (off : Option Nat) : SameBut fireParts s (s.outEdge key n step on off) := by
  unfold State.outEdge
  extract_lets o same tr s1 new
  have counted : SameBut fireParts s s1 := SameBut.ite (State.updCsc_fire s _) (SameBut.refl _ s)
  exact SameBut.ite counted (SameBut.trans counted (State.updCsc_fire _ _))

theorem State.perform_same (n : Nat) (tx : Rat) (t : Nat) : SameBut fireParts s (s.perform n tx t) := by
  have edge (k k' step : Nat) (on : Bool) (off : Option Nat) (level : Bool) (c : Prop) [Decidable c] :
      SameBut fireParts s (if c then (s.outEdge k n step on off).fioWord k' level else s.outEdge k n step on off) :=
    SameBut.ite (SameBut.trans (State.outEdge_same s _ _ _ _ _) (SameBut.mono' (State.fioWord_same _ _ _) rfl)) (State.outEdge_same s _ _ _ _ _)
  unfold State.perform
  dsimp only
  split
  case h_1 | h_2 | h_3 => exact edge _ _ _ _ _ _ _
  case h_4 => exact SameBut.trans (SameBut.mono' (State.pointWrite_same s _ _ _ _) rfl) (SameBut.mono' (State.followPoint_same _ _ _) rfl)
  case h_5 => exact SameBut.mono' (State.rampCmd_same s _ _) rfl
  case h_6 => exact SameBut.mono' (State.acqLine_same s _ _ _) rfl
  case h_7 => exact SameBut.mono' (State.raiseFlags_same s _ _) rfl
  case h_8 => exact SameBut.refl _ s

theorem State.fireEnt_same (n : Nat) (tx : Rat) (t : Nat) : SameBut fireParts s (s.fireEnt n tx t) := by
  unfold State.fireEnt
  extract_lets a g ns s1 s2 s3
  have acted : SameBut fireParts s s2 := SameBut.trans (State.updCsc_fire s _) (SameBut.trans (State.perform_same _ _ _ _) (State.updCsc_fire _ _))
  exact SameBut.trans (SameBut.trans acted (SameBut.ite (State.updCsc_fire _ _) (SameBut.refl _ _))) (State.groupSettle_same _ _)

theorem State.fireLimited_same (n : Nat) (tx : Rat) (t : Nat) : SameBut fireParts s (s.fireLimited n tx t) := by
  unfold State.fireLimited
  extract_lets shift s1 s2
  have counted : SameBut fireParts s s1 := State.updCsc_fire s _
  exact SameBut.ite (SameBut.trans counted (State.fireEnt_same _ _ _ _))
    (SameBut.trans counted (SameBut.trans (SameBut.trans (State.updCsc_fire _ _) (SameBut.mono' (State.record_same _ _ _ _ _) rfl)) (State.fireEnt_same _ _ _ _)))

theorem State.sendArm_same (n tf w : Nat) : SameBut fireParts s (s.sendArm n tf w) := by
  unfold State.sendArm
  extract_lets a r ep rec_ inj s0 s1 s2
  have lane (t : State) (f : LPort → LPort) : SameBut fireParts t (t.updPort_ r.port f) := SameBut.mono' (State.updLanePort_same t _ f) rfl
  have clean : SameBut fireParts s s0 := SameBut.ite (SameBut.trans (lane s _) (SameBut.mono' (State.record_same _ _ _ _ _) rfl)) (SameBut.refl _ s)
  exact SameBut.trans clean (SameBut.trans (lane s0 _) (SameBut.trans (State.updCsc_fire s1 _) (SameBut.mono' (State.record_same s2 _ _ _ _) rfl)))

theorem State.cscStepped_same (t0 t1 : Nat) : SameBut fireParts s (s.cscStepped t0 t1) := by
  unfold State.cscStepped
  dsimp only
  split
  · exact State.updCsc_fire s _
  · refine SameBut.foldl (fun s e => ?_) _ s
    have noted : SameBut fireParts s (s.record .csc 0 0x0C15 [e.1, t1 - t0]) := SameBut.mono' (State.record_same _ _ _ _ _) rfl
    exact SameBut.ite (SameBut.trans noted (State.fireLimited_same _ _ _ _))
      (SameBut.ite (SameBut.trans noted (State.sendArm_same _ _ _ _)) (SameBut.trans noted (State.updCsc_fire _ _)))

@[simp] theorem State.tim_timeMoved (t0 t1 : Nat) : (s.timeMoved t0 t1).tim = s.tim := Part.of_same (x := .tim) (State.cscStepped_same s t0 t1) rfl

@[simp] theorem State.tim_stepRecord (d : Int) (cause : Nat) : (s.stepRecord d cause).tim = s.tim := by simp [State.stepRecord]

/-! ### TIME frames (R357) -/

@[simp] theorem State.aport_updAport_same (p : Nat) (f : APort → APort) : (s.updAport p f).aport p = f (s.aport p) := Tab.get_upd_same _ _ _ _

theorem State.aport_updAport_ne {p q : Nat} (f : APort → APort) (h : q ≠ p) : (s.updAport p f).aport q = s.aport q := Tab.get_upd_ne _ _ _ h

/-- A port whose injection is off sends a frame as it is. -/
theorem APort.inject_off {x : APort} (off : x.inj.en = false) (f : AFrame) (rx : Bool) (dly : Nat) : x.inject f rx dly = ([(f, true)], x) := by
  unfold APort.inject
  simp [off]

theorem State.aport_aveSendPort_ne {p q : Nat} (f : AFrame) (h : q ≠ p) : (s.aveSendPort p f).aport q = s.aport q := by
  unfold State.aveSendPort
  split
  · rfl
  · exact State.aport_updAport_ne s _ h

theorem State.sent_aveSendPort {p : Nat} (f : AFrame) (up : (s.aport p).st = .up) (off : (s.aport p).inj.en = false) :
    ((s.aveSendPort p f).aport p).sent = (s.aport p).sent ++ [(f, true)] := by
  rw [State.aveSendPort, if_neg (not_not.2 up), State.aport_updAport_same, APort.inject_off off]

/-- A state in which a port, the device's number and the time are those of another. -/
def State.SamePort (s t : State) (p : Nat) : Prop := t.aport p = s.aport p ∧ t.ave.devId = s.ave.devId ∧ t.tim = s.tim

theorem State.samePort_aveSendPort {p q : Nat} (f : AFrame) (h : p ≠ q) : s.SamePort (s.aveSendPort q f) p := by
  refine ⟨State.aport_aveSendPort_ne s f h, ?_, Part.of_same (x := .tim) (State.aveSendPort_same s q f) rfl⟩
  unfold State.aveSendPort
  split <;> rfl

theorem State.SamePort.trans {s t u : State} {p : Nat} (h : s.SamePort t p) (g : t.SamePort u p) : s.SamePort u p :=
  ⟨g.1.trans h.1, g.2.1.trans h.2.1, g.2.2.trans h.2.2⟩

/-- A frame on each of some ports, where a port's frame rests on it, the device and the time: each of them that is UP sends its own once. -/
theorem State.sent_each {frame : State → Nat → AFrame} {p : Nat} (own : ∀ s t : State, s.SamePort t p → frame t p = frame s p) {ps : List Nat}
    (distinct : ps.Nodup) (listed : p ∈ ps) (s : State) (up : (s.aport p).st = .up) (off : (s.aport p).inj.en = false) :
    ((ps.foldl (fun s p => s.aveSendPort p (frame s p)) s).aport p).sent = (s.aport p).sent ++ [(frame s p, true)] := by
  have others (qs : List Nat) (t : State) (out : p ∉ qs) : (qs.foldl (fun s p => s.aveSendPort p (frame s p)) t).aport p = t.aport p := by
    induction qs generalizing t with
    | nil => rfl
    | cons q qs ih =>
      rw [List.foldl_cons, ih _ (List.not_mem_of_not_mem_cons out), State.aport_aveSendPort_ne t _ (List.ne_of_not_mem_cons out)]
  induction ps generalizing s with
  | nil => exact absurd listed List.not_mem_nil
  | cons q ps ih =>
    obtain ⟨fresh, distinct⟩ := List.nodup_cons.1 distinct
    rw [List.foldl_cons]
    by_cases here : p = q
    · subst here
      rw [others ps _ fresh, State.sent_aveSendPort s _ up off]
    · have same := State.samePort_aveSendPort s (frame s q) here
      rw [ih distinct (List.mem_of_ne_of_mem here listed) _ (same.1 ▸ up) (same.1 ▸ off), same.1, own s _ same]

theorem State.mem_upPorts {p : Nat} (lt : p < 6) (up : (s.aport p).st = .up) : p ∈ s.upPorts :=
  List.mem_filter.2 ⟨List.mem_range.2 lt, decide_eq_true up⟩

theorem State.nodup_upPorts : s.upPorts.Nodup := List.Nodup.filter _ List.nodup_range

end

end Sys2Proof.Machine
end

section
namespace Sys2Proof.Machine

section
variable {s : State}

/-- The flags of a TIME frame (R357). -/
def State.timeFlags (s : State) : Nat :=
  b2n (decide (s.tim.st = .locked) || decide (s.ave.role = .active)) + 2 * b2n s.tim.coarse + 4 * b2n s.clk.timeDeg + 8 * b2n s.tim.lost

theorem State.synced_timeFlags (s : State) : s.timeFlags % 2 = if s.tim.st = .locked ∨ s.ave.role = .active then 1 else 0 := by
  have bit0 (b : Bool) (n m k : Nat) : (b2n b + 2 * n + 4 * m + 8 * k) % 2 = b2n b := by
    have le : b2n b < 2 := by cases b <;> decide
    omega
  rw [State.timeFlags, bit0]
  simp only [b2n, Bool.or_eq_true, decide_eq_true_eq]

/-- The TIME frame that a state sends from a port, with the grandmaster and the offset given. -/
def timeFrameOf (flags hops : Nat) (gm utc : List Byte) (s : State) (p : Nat) : AFrame :=
  { dst := (s.aport p).peer, src := s.ave.devId, body := .time s.now flags hops gm utc 0 }

theorem timeFrameOf_samePort (flags hops : Nat) (gm utc : List Byte) {p : Nat} (s t : State) (h : s.SamePort t p) :
    timeFrameOf flags hops gm utc t p = timeFrameOf flags hops gm utc s p := by
  obtain ⟨port, dev, tim⟩ := h
  simp only [timeFrameOf, State.now, port, dev, tim]

theorem timeFrameSend_eq (s : State) : ∃ gm utc, exec .timeFrameSend s = .next (s.upPorts.foldl (fun t p => t.aveSendPort p
    (timeFrameOf s.timeFlags (if s.ave.role = .active then 0 else (s.route 0).hops) gm utc t p)) s.draw.2) := by
  refine ⟨if s.tim.parent.gm = [] then natBytesLE (Config.freeWord s.free).toNat 8 else s.tim.parent.gm,
    if s.tim.parent.utc = [] then natBytesLE ((Config.freeWord s.free).toNat / 2 ^ 16) 2 else s.tim.parent.utc, ?_⟩
  show execTimeFrameSend s = _
  unfold execTimeFrameSend
  simp only [decide_eq_true_eq]
  rfl

theorem timeFrameSend_sends {p : Nat} (lt : p < 6) (up : (s.aport p).st = .up) (off : (s.aport p).inj.en = false) :
    ∃ t f, exec .timeFrameSend s = .next t ∧ (t.aport p).sent = (s.aport p).sent ++ [(f, true)] ∧ SameBut [.ave, .free] s t ∧
      f.dst = (s.aport p).peer ∧ f.src = s.ave.devId ∧ ∃ flags hops gm utc, f.body = .time s.now flags hops gm utc 0 ∧
        flags % 2 = (if s.tim.st = .locked ∨ s.ave.role = .active then 1 else 0) ∧ hops = (if s.ave.role = .active then 0 else (s.route 0).hops) := by
  obtain ⟨gm, utc, run⟩ := timeFrameSend_eq s
  refine ⟨_, _, run, State.sent_each (timeFrameOf_samePort _ _ gm utc) s.nodup_upPorts (s.mem_upPorts lt up) s.draw.2 up off, ?_, rfl, rfl,
    _, _, _, _, rfl, s.synced_timeFlags, rfl⟩
  exact SameBut.trans (SameBut.mono' (State.draw_same s) rfl) (SameBut.foldl (fun s p => SameBut.mono' (State.aveSendPort_same s p _) rfl) _ _)

theorem timeFrameSend_quiet (quiet : s.upPorts = []) : ∃ t, exec .timeFrameSend s = .next t ∧ SameBut [.free] s t := by
  obtain ⟨gm, utc, run⟩ := timeFrameSend_eq s
  rw [quiet] at run
  exact ⟨_, run, State.draw_same s⟩

/-- An answer on the bus changes no more than itself. -/
theorem State.setOut_same (s : State) (n : Nat) : SameBut [.out] s { s with out := n } := fun x hx => by
  cases x <;> first | rfl | exact absurd hx (by decide)

theorem txtsInfoRead_run {p : Fin 8} {e : TxStamp} {l : List TxStamp} (on : s.present .tim = true) (queue : (s.txPort p.val).queue = e :: l)
    (room : l.length < 15) : exec (.txtsInfoRead p) s =
      .next { (s.updTx p.val fun y => { y with latched := e.stamp }) with out := e.id + e.typ * 2 ^ 16 + 2 ^ 24 + (l.length + 1) * 2 ^ 25 } := by
  have few : l.length + 1 < 16 := Nat.succ_lt_succ room
  show execTxtsInfoRead p s = _
  unfold execTxtsInfoRead
  simp only [queue, List.length_cons, if_pos few, on, Bool.not_true, Bool.false_eq_true, if_false]

theorem txtsInfoRead_latches {p : Fin 8} {e : TxStamp} {l : List TxStamp} {info : Nat} (queue : (s.txPort p.val).queue = e :: l)
    (run : exec (.txtsInfoRead p) s = .next { (s.updTx p.val fun y => { y with latched := e.stamp }) with out := info }) :
    ∃ t, exec (.txtsInfoRead p) s = .next t ∧ t.out = info ∧ (t.txPort p.val).latched = e.stamp ∧ (t.txPort p.val).queue = e :: l ∧ SameBut [.tim, .out] s t := by
  have own : (s.updTx p.val fun y => { y with latched := e.stamp }).txPort p.val = { s.txPort p.val with latched := e.stamp } :=
    Tab.get_upd_same ({} : TxPort) s.tim.tx p.val fun y => { y with latched := e.stamp }
  exact ⟨_, run, rfl, congrArg TxPort.latched own, (congrArg TxPort.queue own).trans queue,
    SameBut.trans (SameBut.mono' (State.updTim_same s _) rfl) (SameBut.mono' (State.setOut_same _ info) rfl)⟩

theorem timNowRead_reads (on : s.present .tim = true) : ∃ t, exec .timNowRead s = .next t ∧ t.out = s.tim.net % 2 ^ 32 ∧
    t.tim.hiLatch = s.tim.net / 2 ^ 32 % 2 ^ 32 ∧ t.tim.net = s.tim.net ∧ SameBut [.tim, .out] s t := by
  refine ⟨_, congrArg Host.Outcome.next (if_neg (by simp [on])), rfl, rfl, rfl, fun x hx => ?_⟩
  cases x <;> first | rfl | exact absurd hx (by decide)

/-! ### TIM_OFS_SUBMIT (R348, R349) -/

section
variable {r : Principal} {hi : Word} (writes : s.writeOk .tim 0x138 .wo r = true)
include writes

theorem timOfsSubmit_run : exec (.timOfsSubmit r hi) s = .next (if s.timSrc ≠ 1 then s.err .tim errSrcInvalid
    else s.measure (sext 64 ((s.reg R.TIM_OFS_LO).toNat + 2 ^ 32 * hi.toNat))) :=
  congrArg Host.Outcome.next (State.gated_ok _ _ writes)

theorem timOfsSubmit_measures (src : s.timSrc = 1) :
    exec (.timOfsSubmit r hi) s = .next (s.measure (sext 64 ((s.reg R.TIM_OFS_LO).toNat + 2 ^ 32 * hi.toNat))) :=
  (timOfsSubmit_run writes).trans (congrArg Host.Outcome.next (if_neg (not_not.2 src)))

theorem timOfsSubmit_acquires (src : s.timSrc = 1) (free : s.tim.stepPend = none) (st : s.tim.st = .acquire) (first : s.tim.r1 = none) :
    let o := sext 64 ((s.reg R.TIM_OFS_LO).toNat + 2 ^ 32 * hi.toNat)
    ∃ t, exec (.timOfsSubmit r hi) s = .next t ∧ t.tim.st = .acquire ∧ t.tim.freq = s.tim.freq ∧ t.tim.unc = 0 ∧
        (o.natAbs ≤ s.stepThr → t.tim.r1 = some o ∧ t.tim.stepPend = none) ∧
        (s.stepThr < o.natAbs → t.tim.r1 = some (o - roundAway o 1000 * 1000) ∧ t.tim.stepPend = some (-(roundAway o 1000) * 1000)) := by
  intro o
  obtain ⟨near, far⟩ := State.measure_acquire_first (o := o) free st first
  obtain ⟨l, taken⟩ := State.tim_taken s o
  refine ⟨_, timOfsSubmit_measures writes src, ?_⟩
  rcases Nat.lt_or_ge s.stepThr o.natAbs with h | h
  · rw [far h, State.tim_updTim, State.tim_askStep, taken]
    exact ⟨st, rfl, rfl, fun n => absurd h (Nat.not_lt.2 n), fun _ => ⟨congrArg some (by rw [stepOf, Int.neg_mul, Int.sub_eq_add_neg]), rfl⟩⟩
  · rw [near h, State.tim_updTim, taken]
    exact ⟨st, rfl, rfl, fun _ => ⟨rfl, free⟩, fun f => absurd f (Nat.not_lt.2 h)⟩

theorem timOfsSubmit_locks {r1 : Int} (src : s.timSrc = 1) (free : s.tim.stepPend = none) (st : s.tim.st = .acquire) (second : s.tim.r1 = some r1)
    (near : (sext 64 ((s.reg R.TIM_OFS_LO).toNat + 2 ^ 32 * hi.toNat)).natAbs ≤ s.stepThr) :
    let o := sext 64 ((s.reg R.TIM_OFS_LO).toNat + 2 ^ 32 * hi.toNat)
    ∃ t, exec (.timOfsSubmit r hi) s = .next t ∧ t.tim.st = .locking ∧ t.tim.iAcc = (o - r1) * 256 ∧
      t.tim.freq = s.freqOf (s.gainP * o + (o - r1) * 256) := by
  intro o
  refine ⟨_, timOfsSubmit_measures writes src, ?_⟩
  rw [State.measure_acquire_second free st second, State.tim_servoTo, State.tim_freqFrom, if_neg (Nat.not_lt.2 near),
    State.freqOf_of_same (SameBut.trans (State.taken_same s o) (State.updTim_timParts _ _))]
  exact ⟨rfl, rfl, rfl⟩

theorem timOfsSubmit_follows (src : s.timSrc = 1) (free : s.tim.stepPend = none) (st : s.tim.st = .locking ∨ s.tim.st = .locked ∨ s.tim.st = .holdover)
    (near : (sext 64 ((s.reg R.TIM_OFS_LO).toNat + 2 ^ 32 * hi.toNat)).natAbs ≤ s.stepThr) :
    let o := sext 64 ((s.reg R.TIM_OFS_LO).toNat + 2 ^ 32 * hi.toNat)
    ∃ t, exec (.timOfsSubmit r hi) s = .next t ∧
      t.tim.iAcc = s.tim.iAcc + s.gainI * o ∧ t.tim.freq = s.freqOf (s.gainP * o + (s.tim.iAcc + s.gainI * o)) ∧ t.tim.inc = incOf t.tim.freq ∧ t.tim.stepPend = none ∧
      (s.tim.st = .locked → o.natAbs ≤ s.lockThr → t.tim.st = .locked ∧ t.tim.cnt = 0) ∧
      (s.tim.st = .locked → s.lockThr < o.natAbs → s.tim.cnt = 0 → t.tim.st = .locked ∧ t.tim.cnt = 1) ∧
      (s.tim.st = .locked → s.lockThr < o.natAbs → s.tim.cnt ≠ 0 → t.tim.st = .locking) ∧
      (s.tim.st = .locking → o.natAbs ≤ s.lockThr → s.lockN = s.tim.cnt + 1 → s.clk.timeDeg = false → t.tim.st = .locked ∧ t.tim.lost = false) ∧
      (s.tim.st = .locking → o.natAbs ≤ s.lockThr → s.clk.timeDeg = true → t.tim.st = .locking) ∧
      (s.tim.st = .locking → s.lockThr < o.natAbs → 0 < s.lockN → t.tim.st = .locking ∧ t.tim.cnt = 0) := by
  intro o
  obtain ⟨u, same, pend, i, st', cnt, lost, run, table⟩ := State.tim_measure_near free near st
  have gains : u.gainI = s.gainI ∧ u.gainP = s.gainP :=
    ⟨congrArg (fun w => (bits w 31 16 : Int)) (State.reg_of_same same _), congrArg (fun w => (bits w 15 0 : Int)) (State.reg_of_same same _)⟩
  refine ⟨_, timOfsSubmit_measures writes src, ?_⟩
  rw [run, State.tim_servoPi, gains.1, gains.2, i, State.freqOf_of_same same]
  exact ⟨rfl, rfl, rfl, pend, table⟩

end

/-! ### TIM_SET (R352) -/

section
variable {r : Principal} {hi : Word} (writes : s.writeOk .tim 0x144 .wo r = true)
include writes

theorem timSet_run : exec (.timSet r hi) s = .next (if s.tim.st ≠ .freerun then s.err .tim errSetRefused
    else if ((s.reg R.TIM_SET_LO).toNat + 2 ^ 32 * hi.toNat) % 1000 ≠ 0 then s.err .tim errSetRange
    else s.updTim fun t => { t with setPend := some ((s.reg R.TIM_SET_LO).toNat + 2 ^ 32 * hi.toNat) }) :=
  congrArg Host.Outcome.next (State.gated_ok _ _ writes)

theorem timSet_refuses (st : s.tim.st ≠ .freerun) : ∃ t, exec (.timSet r hi) s = .next t ∧ t.tim = s.tim ∧ (t.hd .tim).errCode = 0x0621 :=
  ⟨_, (timSet_run writes).trans (congrArg Host.Outcome.next (if_pos st)), State.tim_err _ _ _, congrArg Hdr.errCode (State.hd_err_same s .tim errSetRefused)⟩

theorem timSet_range (st : s.tim.st = .freerun) (part : ((s.reg R.TIM_SET_LO).toNat + 2 ^ 32 * hi.toNat) % 1000 ≠ 0) :
    ∃ t, exec (.timSet r hi) s = .next t ∧ t.tim = s.tim ∧ (t.hd .tim).errCode = 0x0622 :=
  ⟨_, (timSet_run writes).trans (congrArg Host.Outcome.next ((if_neg (not_not.2 st)).trans (if_pos part))), State.tim_err _ _ _,
    congrArg Hdr.errCode (State.hd_err_same s .tim errSetRange)⟩

theorem timSet_takes (st : s.tim.st = .freerun) (whole : ((s.reg R.TIM_SET_LO).toNat + 2 ^ 32 * hi.toNat) % 1000 = 0) :
    exec (.timSet r hi) s = .next (s.updTim fun y => { y with setPend := some ((s.reg R.TIM_SET_LO).toNat + 2 ^ 32 * hi.toNat) }) :=
  (timSet_run writes).trans (congrArg Host.Outcome.next ((if_neg (not_not.2 st)).trans (if_neg (not_not.2 whole))))

end

/-! ### The base-frame boundary (R350, R352) -/

theorem timPhaseStep_steps (d : Int) (none_ : s.tim.setPend = none) (pend : s.tim.stepPend = some d) : ∃ t, exec .timPhaseStep s = .next t ∧
    t.tim.net = ((s.tim.net : Int) + d).toNat % 2 ^ 64 ∧ t.tim.stepPend = none ∧ t.tim.steps = wrapInc s.tim.steps := by
  have run : exec .timPhaseStep s = .next (((s.updTim fun t => { t with net := ((s.now : Int) + d).toNat % 2 ^ 64, stepPend := none, steps := wrapInc t.steps }).stepRecord
      d 0).timeMoved s.now (((s.now : Int) + d).toNat % 2 ^ 64)) := by
    show execTimPhaseStep s = _
    simp only [execTimPhaseStep, none_, pend, Option.isSome_none, Bool.false_eq_true, if_false]
  refine ⟨_, run, ?_⟩
  rw [State.tim_timeMoved, State.tim_stepRecord]
  exact ⟨rfl, rfl, rfl⟩

theorem timPhaseStep_sets (v : Nat) (pend : s.tim.setPend = some v) : ∃ t, exec .timPhaseStep s = .next t ∧ t.tim.net = v ∧ t.tim.setPend = none ∧
    t.tim.stepPend = none ∧ t.tim.unc = 0 ∧ t.tim.lost = false := by
  have run : exec .timPhaseStep s = .next s.timSetApply := congrArg Host.Outcome.next (if_pos (by simp [pend]))
  refine ⟨_, run, ?_⟩
  simp only [State.timSetApply, pend]
  rw [State.tim_timeMoved, State.tim_stepRecord]
  exact ⟨rfl, rfl, rfl, rfl, rfl⟩

theorem timPhaseStep_rests (set : s.tim.setPend = none) (step : s.tim.stepPend = none) : exec .timPhaseStep s = .next s := by
  show execTimPhaseStep s = _
  simp [execTimPhaseStep, set, step]

theorem servoHoldover_holds (st : s.tim.st = .locking ∨ s.tim.st = .locked) : ∃ t, exec .servoHoldover s = .next t ∧ t.tim.st = .holdover ∧
    t.tim.freq = s.freqOf s.tim.iAcc ∧ t.tim.iAcc = s.tim.iAcc := by
  refine ⟨_, congrArg Host.Outcome.next (if_pos st), ?_⟩
  rw [State.tim_servoTo, State.tim_freqFrom]
  exact ⟨rfl, rfl, rfl⟩

theorem uncLimitExceeded_acts {u : Nat} (lt : u < 2 ^ 32) (coarse : s.tim.coarse = true) :
    (s.lostLim < u → ∃ t, exec (.uncLimitExceeded u) s = .next t ∧ t.tim = { s.tim with unc := u, lost := true }) ∧
      (u ≤ s.lostLim → exec (.uncLimitExceeded u) s = .next s) := by
  refine ⟨fun above => ⟨_, congrArg Host.Outcome.next (if_pos ⟨coarse, above⟩), ?_⟩, fun below => ?_⟩
  · have fits : min 0xFFFFFFFF u = u := by omega
    rw [fits]
    dsimp only
    split
    · rfl
    · exact State.tim_record _ _ _ _ _
  · exact congrArg Host.Outcome.next (if_neg fun h => absurd h.2 (Nat.not_lt.2 below))

end

/-- Settles O46: each command by its case, where a measurement is decided by the servo's state and by the step threshold. -/
theorem timeUnitFollowsTheServoTable : Obligations.TimeUnitFollowsTheServoTable := by
  unfold Obligations.TimeUnitFollowsTheServoTable
  intro s
  refine ⟨fun r hi writes => ?submit, timPhaseStep_steps, timPhaseStep_sets, timPhaseStep_rests, fun r hi writes => ?set, servoHoldover_holds, fun a b => ?rests,
    timeFrameSend_quiet, fun p => timeFrameSend_sends, timNowRead_reads, fun p e l on queue room => txtsInfoRead_latches queue (txtsInfoRead_run on queue room), fun p r writes => ?pop, fun u => uncLimitExceeded_acts⟩
  case rests => exact congrArg Host.Outcome.next (if_neg (not_or.2 ⟨a, b⟩))
  case pop => exact congrArg Host.Outcome.next (State.gated_ok _ _ writes)
  case set => exact ⟨timSet_refuses writes, timSet_range writes, timSet_takes writes⟩
  case submit =>
    refine ⟨fun src => ?_, fun src idle => ?_, fun src free on => ?_, timOfsSubmit_acquires writes, fun r1 => timOfsSubmit_locks writes,
      timOfsSubmit_follows writes, fun src free st far => ⟨_, timOfsSubmit_measures writes src, State.tim_measure_far free far st⟩⟩
    · refine ⟨_, (timOfsSubmit_run writes).trans (congrArg Host.Outcome.next (if_pos src)), State.tim_err _ _ _, ?_⟩
      exact congrArg Hdr.errCode (State.hd_err_same s .tim errSrcInvalid)
    · exact (timOfsSubmit_measures writes src).trans (congrArg Host.Outcome.next (if_pos idle))
    · have measured := State.measured_measure (s := s) (o := sext 64 ((s.reg R.TIM_OFS_LO).toNat + 2 ^ 32 * hi.toNat)) free on
      exact ⟨_, timOfsSubmit_measures writes src, congrArg Prod.fst measured, congrArg (·.2.1) measured, congrArg (·.2.2) measured⟩

end Sys2Proof.Machine
end

section
/-!
SUPPORT. The error manager by Table ERM-4 (R473–R478): what each row leaves current and queued. Interrupts and records reach neither it nor the autonomy's mode,
on which the promotion rests (R476).
-/

namespace Sys2Proof.Machine

section
variable (s : State)

/-! ### The scheduler's operations leave the autonomy's mode (R29) -/

theorem State.auto_foldl {α : Type} {f : State → α → State} (h : ∀ s x, (f s x).hts.auto = s.hts.auto) :
    ∀ (xs : List α) (s : State), (xs.foldl f s).hts.auto = s.hts.auto
  | [], _ => rfl
  | x :: xs, s => (State.auto_foldl h xs (f s x)).trans (h s x)

theorem State.auto_dispatch (c : Nat) (u : DUnit) : (s.dispatch c u).hts.auto = s.hts.auto := by
  have changed (tasks : Tab Task) (ports : Tab Port) (ready : List DUnit) (flows : Tab (List Item)) (out : Nat) :
      ({ s with hts := { s.hts with tasks := tasks, ports := ports, ready := ready, flows := flows }, out := out } : State).hts.auto = s.hts.auto := rfl
  cases u <;> exact changed _ _ _ _ _

theorem State.auto_serve : s.serve.hts.auto = s.hts.auto := by
  unfold State.serve
  split
  · rfl
  · refine State.auto_foldl (fun s c => ?_) _ s
    split
    · split
      · exact State.auto_dispatch s c _
      · rfl
    · rfl

theorem State.auto_offer (u : DUnit) : (s.offer u).hts.auto = s.hts.auto := by
  have lapsed : s.serve.lapse.hts.auto = s.hts.auto := State.auto_serve s
  unfold State.offer
  dsimp only
  split
  · split
    · split <;> exact lapsed
    · exact lapsed
  · exact lapsed

theorem State.auto_enqueue (u : DUnit) (head : Bool) : (s.enqueue u head).hts.auto = s.hts.auto := by cases u <;> rfl

theorem State.auto_orFlags (t : Nat) (m : Word) : (s.orFlags t m).hts.auto = s.hts.auto := by
  unfold State.orFlags
  split <;> rfl

theorem State.auto_routeEvt (b : Block) (k i : Nat) : (s.routeEvt b k i).hts.auto = s.hts.auto := by
  unfold State.routeEvt
  split
  · rfl
  · refine (State.auto_foldl State.auto_offer _ _).trans ?_
    refine (State.auto_foldl (fun s u => State.auto_enqueue s u false) _ _).trans ?_
    exact State.auto_foldl (fun s r => State.auto_orFlags s _ _) _ s

theorem State.auto_irq (b : Block) (i : Nat) : (s.irq b i).hts.auto = s.hts.auto := by
  have routed (c : Prop) [Decidable c] (t : State) (k j : Nat) : (if c then t.routeEvt b k j else t).hts.auto = t.hts.auto := by
    split
    · exact State.auto_routeEvt t b k j
    · rfl
  exact (routed _ _ _ _).trans (routed _ _ _ _)

theorem State.auto_record (b : Block) (inst code : Nat) (ps : List Nat) : (s.record b inst code ps).hts.auto = s.hts.auto := by
  unfold State.record
  dsimp only
  split
  · exact State.auto_irq _ _ _
  · rfl

/-! ### Interrupts and records leave the error manager -/

@[simp] theorem State.erm_irq (b : Block) (i : Nat) : (s.irq b i).erm = s.erm := Part.of_same (x := .erm) (State.irq_same s b i) rfl

@[simp] theorem State.erm_err (b : Block) (e : Nat) : (s.err b e).erm = s.erm := Part.of_same (x := .erm) (State.err_same s b e) rfl

@[simp] theorem State.erm_record (b : Block) (inst code : Nat) (ps : List Nat) : (s.record b inst code ps).erm = s.erm :=
  Part.of_same (x := .erm) (State.record_same s b inst code ps) rfl

/-! ### Settling (R474, R476) -/

theorem State.erm_settleErm : s.settleErm.erm = (Erm.promote (decide (s.hts.auto = .attached)) (2 * ermQueueMax + 4) s.erm).driveErrN := by
  unfold State.settleErm
  dsimp only
  split
  · exact State.erm_irq _ _ _
  · rfl

/-- While attached a current error stays until it is acknowledged. -/
theorem Erm.promote_of_current {e : Erm} {c : ErrEnt} (cur : e.cur = some c) : ∀ n, Erm.promote true n e = e
  | 0 => rfl
  | n + 1 => by rw [Erm.promote]; simp [cur]

/-- ERR_N's rule changes ERR_N alone. -/
theorem Erm.driveErrN_eq (e : Erm) : e.driveErrN = { e with errNLow := e.driveErrN.errNLow } := by
  unfold Erm.driveErrN
  split <;> rfl

theorem Erm.cnt_promote (a : Bool) : ∀ (n : Nat) (e : Erm), (Erm.promote a n e).cnt = e.cnt
  | 0, _ => rfl
  | n + 1, e => by
    rw [Erm.promote]
    split
    · split
      · rw [Erm.cnt_promote a n]
      · rfl
    · split
      · rfl
      · rw [Erm.cnt_promote a n]

/-! ### The worst of a queue (R474) -/

end

theorem takeWorst_spec : ∀ (l : List ErrEnt) (c : ErrEnt) (q : List ErrEnt), takeWorst l = some (c, q) →
    c ∈ l ∧ q.length + 1 = l.length ∧ ∀ d ∈ l, d.sev.code ≤ c.sev.code
  | [], _, _, h => by simp [takeWorst] at h
  | e :: t, c, q, h => by
    unfold takeWorst at h
    split at h
    next none_ =>
      obtain ⟨rfl, rfl⟩ : e = c ∧ [] = q := by simpa using h
      have empty : t = [] := by
        cases t with
        | nil => rfl
        | cons x u =>
          unfold takeWorst at none_
          split at none_
          · simp at none_
          · split at none_ <;> simp at none_
      simp [empty]
    next f r rest =>
      obtain ⟨mem, len, top⟩ := takeWorst_spec t f r rest
      split at h
      next less =>
        obtain ⟨rfl, rfl⟩ : f = c ∧ e :: r = q := by simpa using h
        exact ⟨List.mem_cons_of_mem e mem, by simp [len], fun d hd => by
          rcases List.mem_cons.1 hd with rfl | hd
          · exact less.le
          · exact top d hd⟩
      next more =>
        obtain ⟨rfl, rfl⟩ : e = c ∧ t = q := by simpa using h
        exact ⟨List.mem_cons_self, rfl, fun d hd => by
          rcases List.mem_cons.1 hd with rfl | hd
          · exact Nat.le_refl _
          · exact (top d hd).trans (Nat.not_lt.1 more)⟩

theorem takeWorst_none : ∀ l : List ErrEnt, takeWorst l = none → l = []
  | [], _ => rfl
  | e :: t, h => by
    unfold takeWorst at h
    split at h
    · simp at h
    · split at h <;> simp at h

/-! ### Handling a new error (Table ERM-4) -/

/-- The parts that the error manager's own rows change, where FATAL is not reached. -/
def ermParts : List Part := [.erm, .evr, .hdr, .hts, .out]

section
variable {s : State} {code src : Nat} {sev : Severity} (mild : sev ≠ .fatal)
include mild

theorem State.handleError_of_find {x : ErrEnt} (known : s.erm.find code = some x) : s.handleError code src sev =
    (if x.escalated then { s with erm := s.erm.modify code fun e => { e with recur := satInc 255 e.recur } }
      else
        let s1 := s.record .erm 0 0x0411 [code, x.sev.code, (sevUp x.sev).code]
        let s2 := { s1 with erm := s1.erm.modify code fun e => { e with sev := sevUp x.sev, escalated := true } }
        if sevUp x.sev = .fatal then s2.fatalError code src 1
        else
          let e := (s2.erm.preemptQueued code).driveErrN
          let s3 := { s2 with erm := e }
          if e.cur.map ErrEnt.code ≠ s2.erm.cur.map ErrEnt.code then s3.irq .erm 8 else s3) := by
  unfold State.handleError
  rw [if_neg mild, known]

/-- Row 1: an escalated error recurs. -/
theorem State.handleError_recurs {x : ErrEnt} (known : s.erm.find code = some x) (escalated : x.escalated = true) :
    s.handleError code src sev = { s with erm := s.erm.modify code fun e => { e with recur := satInc 255 e.recur } } :=
  (State.handleError_of_find mild known).trans (if_pos escalated)

/-- Row 2 of a FAULT: it escalates to FATAL. -/
theorem State.fatal_handleError_fault {x : ErrEnt} (known : s.erm.find code = some x) (first : x.escalated = false) (fault : x.sev = .fault) :
    (s.handleError code src sev).erm.fatal = true := by
  rw [State.handleError_of_find mild known, if_neg (by simp [first])]
  dsimp only
  rw [if_pos (by rw [fault]; rfl)]
  exact State.fatal_fatalError _ _ _ _

omit mild in
/-- A queue whose errors of a class are as severe as the current one does not preempt it. -/
theorem Erm.preemptQueued_of_level {e : Erm} {c : ErrEnt} (cur : e.cur = some c) (level : ∀ x ∈ e.queue, x.code = code → x.sev = c.sev) :
    e.preemptQueued code = e := by
  unfold Erm.preemptQueued
  rw [cur]
  split
  next c' x own found =>
    obtain rfl : c = c' := by simpa using own
    have same := level x (List.mem_of_find?_eq_some found) (by simpa using List.find?_some found)
    rw [if_neg (by rw [same]; exact Nat.lt_irrefl _)]
  · rfl

/-- Row 2 of the current error: it escalates in its place. -/
theorem State.handleError_escalates {y : ErrEnt} (cur : s.erm.cur = some y) (own : y.code = code) (first : y.escalated = false) (fault : y.sev ≠ .fault)
    (fatal : y.sev ≠ .fatal) : (s.handleError code src sev).erm.cur = some { y with sev := sevUp y.sev, escalated := true } ∧
      (s.handleError code src sev).erm.cnt = s.erm.cnt ∧ SameBut ermParts s (s.handleError code src sev) := by
  have known : s.erm.find code = some y := by simp [Erm.find, cur, own]
  have below : sevUp y.sev ≠ .fatal := by
    cases h : y.sev with
    | fault => exact absurd h fault
    | fatal => exact absurd h fatal
    | _ => decide
  rw [State.handleError_of_find mild known, if_neg (by simp [first])]
  dsimp only
  rw [if_neg below, State.erm_record]
  have up : (s.erm.modify code fun e => { e with sev := sevUp y.sev, escalated := true }).cur = some { y with sev := sevUp y.sev, escalated := true } := by
    simp [Erm.modify, cur, own]
  have level : (s.erm.modify code fun e => { e with sev := sevUp y.sev, escalated := true }).preemptQueued code =
      s.erm.modify code fun e => { e with sev := sevUp y.sev, escalated := true } := Erm.preemptQueued_of_level up fun x mem is => by
    obtain ⟨z, -, rfl⟩ := List.mem_map.1 mem
    split at is
    next known => rw [if_pos known]
    next unknown => exact absurd is unknown
  rw [level, Erm.driveErrN_eq, if_neg (not_not.2 rfl)]
  refine ⟨up, rfl, ?_⟩
  exact SameBut.trans (SameBut.mono' (State.record_same _ _ _ _ _) rfl) (SameBut.mono' (State.setErm_same _ _) rfl)

/-- Rows 3 to 5: a new class beside a current error. -/
theorem State.handleError_of_current {c : ErrEnt} (cur : s.erm.cur = some c) (new : s.erm.find code = none) :
    let x : ErrEnt := { code := code, src := src, sev := sev, time := s.now }
    s.handleError code src sev = if 16 ≤ s.erm.queue.length then s.fatalError code src 2
      else if c.sev.code < sev.code then ({ s with erm := { s.erm with cur := some x, queue := c :: s.erm.queue } }.irq .erm 8).settleErm
      else { s with erm := { s.erm with queue := s.erm.queue ++ [x] } } := by
  unfold State.handleError
  rw [if_neg mild, new]
  dsimp only
  split
  next none_ => rw [cur] at none_; simp at none_
  next c' own =>
    obtain rfl : c = c' := by simpa [cur] using own
    rfl

/-- Row 4: a worse error preempts the current one. -/
theorem State.handleError_preempts {c : ErrEnt} (cur : s.erm.cur = some c) (new : s.erm.find code = none) (room : s.erm.queue.length < 16)
    (attached : s.hts.auto = .attached) (worse : c.sev.code < sev.code) :
    (s.handleError code src sev).erm.cur = some { code := code, src := src, sev := sev, time := s.now } ∧
      (s.handleError code src sev).erm.queue = c :: s.erm.queue ∧ (s.handleError code src sev).erm.cnt = s.erm.cnt := by
  rw [State.handleError_of_current mild cur new, if_neg (Nat.not_le.2 room), if_pos worse, State.erm_settleErm, State.auto_irq,
    show decide _ = true from decide_eq_true attached, State.erm_irq, Erm.promote_of_current rfl, Erm.driveErrN_eq]
  exact ⟨rfl, rfl, rfl⟩

/-- Row 5: another queues. -/
theorem State.handleError_queues {c : ErrEnt} (cur : s.erm.cur = some c) (new : s.erm.find code = none) (room : s.erm.queue.length < 16)
    (mildness : sev.code ≤ c.sev.code) : s.handleError code src sev =
      { s with erm := { s.erm with queue := s.erm.queue ++ [{ code := code, src := src, sev := sev, time := s.now }] } } := by
  rw [State.handleError_of_current mild cur new, if_neg (Nat.not_le.2 room), if_neg (Nat.not_lt.2 mildness)]

/-- Row 3: a full queue is FATAL. -/
theorem State.handleError_full {c : ErrEnt} (cur : s.erm.cur = some c) (new : s.erm.find code = none) (full : 16 ≤ s.erm.queue.length) :
    s.handleError code src sev = s.fatalError code src 2 :=
  (State.handleError_of_current mild cur new).trans (if_pos full)

/-- An error with none current: it becomes current and the queue settles. -/
theorem State.erm_handleError_first (none_ : s.erm.cur = none) (new : s.erm.find code = none) : (s.handleError code src sev).erm =
    (Erm.promote (decide (s.hts.auto = .attached)) (2 * ermQueueMax + 4)
      { s.erm with cur := some { code := code, src := src, sev := sev, time := s.now } }).driveErrN := by
  unfold State.handleError
  rw [if_neg mild, new]
  dsimp only
  split
  · rw [State.erm_settleErm, State.auto_irq, State.erm_irq]
  next c own => rw [none_] at own; simp at own

end

/-! ### Raising an error (R473) -/

section
variable {s : State} {b : Block} {inst code : Nat} {sev : Severity}

/-- The count of a raised error. -/
def State.counted (s : State) (sev : Severity) : State := { s with erm := { s.erm with cnt := Tab.upd 0 s.erm.cnt sev.code (satInc 0xFFFFFFFF) } }

theorem State.cnt_counted : Tab.get 0 (s.counted sev).erm.cnt sev.code = satInc 0xFFFFFFFF (Tab.get 0 s.erm.cnt sev.code) := Tab.get_upd_same _ _ _ _

theorem State.raise_below (low : sev.code < s.queueMin) (mild : sev ≠ .fatal) : s.raise b inst code sev = s.counted sev := by
  unfold State.raise
  dsimp only
  rw [if_neg fun h => mild h.1, if_neg (Nat.not_le.2 low), if_neg mild]
  rfl

theorem State.raise_counts_only (fatal : s.erm.fatal = true) : s.raise b inst code .fatal = s.counted .fatal := if_pos ⟨rfl, fatal⟩

/-- At or above QUEUE_MIN an error is recorded before it is handled. -/
theorem State.raise_handles (high : s.queueMin ≤ sev.code) (mild : sev ≠ .fatal) : ∃ u : State, s.raise b inst code sev = u.handleError code (source b inst) sev ∧
    u.erm = (s.counted sev).erm ∧ u.hts.auto = s.hts.auto ∧ u.now = s.now ∧ SameBut ermParts s u := by
  refine ⟨(s.counted sev).record .erm 0 0x0410 [code, source b inst, sev.code, s.now % 2 ^ 32], ?_, State.erm_record _ _ _ _ _, State.auto_record _ _ _ _ _,
    congrArg Tim.net (State.tim_record _ _ _ _ _), SameBut.trans (SameBut.mono' (State.setErm_same _ _) rfl) (SameBut.mono' (State.record_same _ _ _ _ _) rfl)⟩
  unfold State.raise
  dsimp only
  rw [if_neg fun h => mild h.1, if_pos high]
  rfl

/-- A FATAL error starts the reaction, recorded or not. -/
theorem State.raise_fatal (calm : s.erm.fatal = false) : (s.raise b inst code .fatal).erm = { (s.counted .fatal).erm with
    fatal := true, errNLow := true, fatalLog := some (s.erm.fatalLog.getD { code := code, src := source b inst, cause := 0 }) } := by
  have reaction (u : State) (own : u.erm = (s.counted .fatal).erm) : (u.handleError code (source b inst) .fatal).erm = { (s.counted .fatal).erm with
      fatal := true, errNLow := true, fatalLog := some (s.erm.fatalLog.getD { code := code, src := source b inst, cause := 0 }) } := by
    unfold State.handleError State.fatalError
    rw [if_pos rfl, own, if_neg (by rw [State.counted]; simp [calm]), State.fatalReaction, State.erm_fatalOutputs]
    dsimp only
    rw [State.erm_record, own]
    have log : (s.counted .fatal).erm.fatalLog = s.erm.fatalLog := rfl
    rw [log]
    cases s.erm.fatalLog <;> rfl
  unfold State.raise
  dsimp only
  rw [if_neg (by simp [calm])]
  split
  · exact reaction _ (State.erm_record _ _ _ _ _)
  · rw [if_pos rfl]
    exact reaction _ rfl

theorem Erm.find_modify {e : Erm} {f : ErrEnt → ErrEnt} (keeps : ∀ x, (f x).code = x.code) : (e.modify code f).find code = (e.find code).map f := by
  have queue : (e.queue.map fun c => if c.code = code then f c else c).find? (fun x => decide (x.code = code)) =
      (e.queue.find? fun x => decide (x.code = code)).map f := by
    induction e.queue with
    | nil => rfl
    | cons x l ih =>
      by_cases own : x.code = code
      · simp [own, keeps]
      · simp [own, ih]
  cases cur : e.cur with
  | none => simp [Erm.find, Erm.modify, cur, queue]
  | some c =>
    by_cases own : c.code = code
    · simp [Erm.find, Erm.modify, cur, own, keeps]
    · simp [Erm.find, Erm.modify, cur, own, queue]

section
variable (high : s.queueMin ≤ sev.code) (mild : sev ≠ .fatal)
include high mild

theorem State.raise_recurs {y : ErrEnt} (known : s.erm.find code = some y) (escalated : y.escalated = true) :
    Tab.get 0 (s.raise b inst code sev).erm.cnt sev.code = satInc 0xFFFFFFFF (Tab.get 0 s.erm.cnt sev.code) ∧
      (s.raise b inst code sev).erm.cur.map ErrEnt.code = s.erm.cur.map ErrEnt.code ∧
      (s.raise b inst code sev).erm.queue.length = s.erm.queue.length ∧
      ((s.raise b inst code sev).erm.find code).map ErrEnt.recur = some (satInc 255 y.recur) ∧ SameBut ermParts s (s.raise b inst code sev) := by
  obtain ⟨u, run, erm, -, -, same⟩ := State.raise_handles (b := b) (inst := inst) (code := code) high mild
  have found : (s.counted sev).erm.find code = some y := known
  rw [run, State.handleError_recurs mild (erm ▸ found) escalated]
  refine ⟨?_, ?_, ?_, ?_, SameBut.trans same (SameBut.mono' (State.setErm_same _ _) rfl)⟩
  · dsimp only [Erm.modify]
    rw [erm]
    exact State.cnt_counted
  · have kept (c : ErrEnt) : ErrEnt.code (if c.code = code then { c with recur := satInc 255 c.recur } else c) = c.code := by split <;> rfl
    dsimp only [Erm.modify]
    rw [erm, Option.map_map]
    exact congrArg (fun f => s.erm.cur.map f) (funext kept)
  · dsimp only [Erm.modify]
    rw [erm, List.length_map]
    rfl
  · dsimp only
    rw [erm, Erm.find_modify (f := fun e : ErrEnt => { e with recur := satInc 255 e.recur }) fun _ => rfl, found]
    rfl

theorem State.raise_fault {y : ErrEnt} (known : s.erm.find code = some y) (first : y.escalated = false) (fault : y.sev = .fault) :
    (s.raise b inst code sev).erm.fatal = true := by
  obtain ⟨u, run, erm, -⟩ := State.raise_handles (b := b) (inst := inst) (code := code) high mild
  have found : (s.counted sev).erm.find code = some y := known
  rw [run]
  exact State.fatal_handleError_fault mild (erm ▸ found) first fault

theorem State.raise_escalates {y : ErrEnt} (cur : s.erm.cur = some y) (own : y.code = code) (first : y.escalated = false) (fault : y.sev ≠ .fault)
    (fatal : y.sev ≠ .fatal) : Tab.get 0 (s.raise b inst code sev).erm.cnt sev.code = satInc 0xFFFFFFFF (Tab.get 0 s.erm.cnt sev.code) ∧
      (s.raise b inst code sev).erm.cur = some { y with sev := sevUp y.sev, escalated := true } ∧ SameBut ermParts s (s.raise b inst code sev) := by
  obtain ⟨u, run, erm, -, -, same⟩ := State.raise_handles (b := b) (inst := inst) (code := code) high mild
  have current : (s.counted sev).erm.cur = some y := cur
  obtain ⟨up, cnt, changed⟩ := State.handleError_escalates (src := source b inst) mild (erm ▸ current) own first fault fatal
  rw [run]
  exact ⟨by rw [cnt, erm]; exact State.cnt_counted, up, SameBut.trans same changed⟩

theorem State.raise_preempts {c : ErrEnt} (cur : s.erm.cur = some c) (new : s.erm.find code = none) (room : s.erm.queue.length < 16)
    (attached : s.hts.auto = .attached) (worse : c.sev.code < sev.code) :
    Tab.get 0 (s.raise b inst code sev).erm.cnt sev.code = satInc 0xFFFFFFFF (Tab.get 0 s.erm.cnt sev.code) ∧
      (s.raise b inst code sev).erm.cur = some { code := code, src := source b inst, sev := sev, time := s.now } ∧
      (s.raise b inst code sev).erm.queue = c :: s.erm.queue := by
  obtain ⟨u, run, erm, auto, now, -⟩ := State.raise_handles (b := b) (inst := inst) (code := code) high mild
  have current : (s.counted sev).erm.cur = some c := cur
  have unknown : (s.counted sev).erm.find code = none := new
  have queue : (s.counted sev).erm.queue.length < 16 := room
  obtain ⟨top, rest, cnt⟩ := State.handleError_preempts (src := source b inst) mild (erm ▸ current) (erm ▸ unknown) (erm ▸ queue) (auto.trans attached) worse
  rw [run]
  exact ⟨by rw [cnt, erm]; exact State.cnt_counted, by rw [top, now], by rw [rest, erm]; rfl⟩

theorem State.raise_queues {c : ErrEnt} (cur : s.erm.cur = some c) (new : s.erm.find code = none) (room : s.erm.queue.length < 16)
    (mildness : sev.code ≤ c.sev.code) :
    Tab.get 0 (s.raise b inst code sev).erm.cnt sev.code = satInc 0xFFFFFFFF (Tab.get 0 s.erm.cnt sev.code) ∧
      (s.raise b inst code sev).erm.cur = some c ∧
      (s.raise b inst code sev).erm.queue = s.erm.queue ++ [{ code := code, src := source b inst, sev := sev, time := s.now }] := by
  obtain ⟨u, run, erm, -, now, -⟩ := State.raise_handles (b := b) (inst := inst) (code := code) high mild
  have current : (s.counted sev).erm.cur = some c := cur
  have unknown : (s.counted sev).erm.find code = none := new
  have queue : (s.counted sev).erm.queue.length < 16 := room
  rw [run, State.handleError_queues mild (erm ▸ current) (erm ▸ unknown) (erm ▸ queue) mildness, erm, now]
  exact ⟨State.cnt_counted, cur, rfl⟩

theorem State.raise_full {c : ErrEnt} (cur : s.erm.cur = some c) (new : s.erm.find code = none) (full : 16 ≤ s.erm.queue.length)
    (calm : s.erm.fatal = false) : (s.raise b inst code sev).erm.fatal = true ∧
      (s.erm.fatalLog = none → (s.raise b inst code sev).erm.fatalLog = some { code := code, src := source b inst, cause := 2 }) := by
  obtain ⟨u, run, erm, -⟩ := State.raise_handles (b := b) (inst := inst) (code := code) high mild
  have current : (s.counted sev).erm.cur = some c := cur
  have unknown : (s.counted sev).erm.find code = none := new
  have queue : 16 ≤ (s.counted sev).erm.queue.length := full
  rw [run, State.handleError_full mild (erm ▸ current) (erm ▸ unknown) (erm ▸ queue)]
  refine ⟨State.fatal_fatalError _ _ _ _, fun empty => ?_⟩
  have log : u.erm.fatalLog = none := by rw [erm]; exact empty
  have quiet : u.erm.fatal = false := by rw [erm]; exact calm
  rw [State.fatalError, if_neg (by simp [quiet]), State.fatalReaction, State.erm_fatalOutputs]
  dsimp only
  rw [State.erm_record, log]

theorem State.erm_raise_first (none_ : s.erm.cur = none) (empty : s.erm.queue = []) : (s.raise b inst code sev).erm =
    (Erm.promote (decide (s.hts.auto = .attached)) (2 * ermQueueMax + 4)
      { (s.counted sev).erm with cur := some { code := code, src := source b inst, sev := sev, time := s.now } }).driveErrN := by
  obtain ⟨u, run, erm, auto, now, -⟩ := State.raise_handles (b := b) (inst := inst) (code := code) high mild
  have idle : (s.counted sev).erm.cur = none := none_
  have unknown : (s.counted sev).erm.find code = none := by
    have queue : (s.counted sev).erm.queue = [] := empty
    simp [Erm.find, idle, queue]
  rw [run, State.erm_handleError_first mild (erm ▸ idle) (erm ▸ unknown), erm, auto, now]

theorem State.raise_first_attached (none_ : s.erm.cur = none) (empty : s.erm.queue = []) (attached : s.hts.auto = .attached) :
    Tab.get 0 (s.raise b inst code sev).erm.cnt sev.code = satInc 0xFFFFFFFF (Tab.get 0 s.erm.cnt sev.code) ∧
      (s.raise b inst code sev).erm.cur = some { code := code, src := source b inst, sev := sev, time := s.now } ∧
      (s.raise b inst code sev).erm.queue = [] ∧
      (3 ≤ s.erm.phase → (s.raise b inst code sev).erm.errNLow = (s.erm.fatal || s.erm.halted || decide (2 ≤ sev.code))) := by
  rw [State.erm_raise_first high mild none_ empty, show decide _ = true from decide_eq_true attached, Erm.promote_of_current rfl]
  refine ⟨?_, ?_, ?_, fun late => ?_⟩
  · rw [Erm.driveErrN_eq]; exact State.cnt_counted
  · rw [Erm.driveErrN_eq]
  · rw [Erm.driveErrN_eq]; exact empty
  · have later : ¬ (s.counted sev).erm.phase < 3 := Nat.not_lt.2 late
    exact congrArg Erm.errNLow (if_neg later)

/-- While not attached WARN and lower are acknowledged as they become current (R476). -/
theorem State.raise_first_alone (none_ : s.erm.cur = none) (empty : s.erm.queue = []) (alone : s.hts.auto ≠ .attached) (low : sev.code ≤ 1) :
    Tab.get 0 (s.raise b inst code sev).erm.cnt sev.code = satInc 0xFFFFFFFF (Tab.get 0 s.erm.cnt sev.code) ∧
      (s.raise b inst code sev).erm.cur = none ∧ (s.raise b inst code sev).erm.queue = [] := by
  have queue : (s.counted sev).erm.queue = [] := empty
  have acknowledged (n : Nat) : Erm.promote false (n + 2) { (s.counted sev).erm with cur := some { code := code, src := source b inst, sev := sev, time := s.now } } =
      { (s.counted sev).erm with cur := none } := by
    simp [Erm.promote, low, queue, takeWorst]
  rw [State.erm_raise_first high mild none_ empty, show decide _ = false from decide_eq_false alone,
    show 2 * ermQueueMax + 4 = 34 + 2 from rfl, acknowledged, Erm.driveErrN_eq]
  exact ⟨State.cnt_counted, rfl, empty⟩

end

end

end Sys2Proof.Machine
end

section
/-!
SUPPORT. The retention store (R470–R472): writes, rounds and the bank check.
-/

namespace Sys2Proof.Machine

section
variable (s : State)

@[simp] theorem State.ret_irq (b : Block) (i : Nat) : (s.irq b i).ret = s.ret := Part.of_same (x := .ret) (State.irq_same s b i) rfl

@[simp] theorem State.ret_err (b : Block) (e : Nat) : (s.err b e).ret = s.ret := Part.of_same (x := .ret) (State.err_same s b e) rfl

@[simp] theorem State.ret_record (b : Block) (inst code : Nat) (ps : List Nat) : (s.record b inst code ps).ret = s.ret :=
  Part.of_same (x := .ret) (State.record_same s b inst code ps) rfl

@[simp] theorem State.ret_raise (b : Block) (inst code : Nat) (sev : Severity) : (s.raise b inst code sev).ret = s.ret :=
  Part.of_same (x := .ret) (State.raise_same s b inst code sev) rfl

@[simp] theorem State.ret_updRet (f : Ret → Ret) : (s.updRet f).ret = f s.ret := rfl

/-! ### Free values are drawn in order -/

@[simp] theorem State.free_irq (b : Block) (i : Nat) : (s.irq b i).free = s.free := Part.of_same (x := .free) (State.irq_same s b i) rfl

@[simp] theorem State.free_err (b : Block) (e : Nat) : (s.err b e).free = s.free := Part.of_same (x := .free) (State.err_same s b e) rfl

@[simp] theorem State.free_record (b : Block) (inst code : Nat) (ps : List Nat) : (s.record b inst code ps).free = s.free :=
  Part.of_same (x := .free) (State.record_same s b inst code ps) rfl

theorem State.free_pmcRollback (b c : Nat) : s.free ≤ (s.pmcRollback b c).free := by
  unfold State.pmcRollback
  split
  · exact Nat.le_refl _
  · dsimp only
    split
    · exact Nat.le_refl _
    · exact Nat.le_succ _

/-- A raised error draws free values and gives none back. -/
theorem State.free_raise (b : Block) (inst code : Nat) (sev : Severity) : s.free ≤ (s.raise b inst code sev).free := by
  have grows : RaiseClosed fun t => s.free ≤ t.free :=
    { erm := fun _ _ h => h
      irq := fun t b i h => h.trans (State.free_irq t b i).ge
      record := fun t b i c ps h => h.trans (State.free_record t b i c ps).ge
      outputs := fun t h => by
        have before : (((t.padsLow).fioSilence).safFatal).laneHalt.free = t.free :=
          (Part.of_same (x := .free) (State.safFatal_same _) rfl).trans (Part.of_same (x := .free) (State.fioSilence_same _) rfl)
        exact h.trans (before.ge.trans (State.free_pmcRollback _ 0 4)) }
  exact grows.raise (Nat.le_refl _) b inst code sev

/-! ### Writes (R470, R471) -/

/-- A pending word that is replaced is found in its place, and every other as before. -/
theorem find?_map_put (l : List RetPend) (e : RetPend) (k : Nat) : (l.map fun p => if p.idx = e.idx then e else p).find? (fun p => decide (p.idx = k)) =
    if k = e.idx then (l.find? fun p => decide (p.idx = k)).map fun _ => e else l.find? fun p => decide (p.idx = k) := by
  induction l with
  | nil => simp
  | cons p l ih =>
    rw [List.map_cons, List.find?_cons, ih, List.find?_cons]
    by_cases put : p.idx = e.idx
    · by_cases own : k = e.idx
      · simp [put, own]
      · simp [put, own, show e.idx ≠ k from fun h => own h.symm]
    · by_cases own : k = e.idx
      · simp [put, own]
      · simp [put, own]

variable {s}

theorem State.retWord_eq (calm : s.ret.waiting = []) (k : Nat) :
    s.retWord k = ((s.ret.pend.find? fun p => decide (p.idx = k)).map RetPend.val).getD (Tab.get 0 s.ret.cells k) := by
  unfold State.retWord
  rw [calm, List.reverse_nil, List.nil_append]
  cases s.ret.pend.find? fun p => decide (p.idx = k) <;> rfl

/-- A write while none waits: it replaces the pending word or is the buffer's last. -/
theorem State.ret_retPut {i : Nat} {v : Word} {w : Block} (room : s.ret.pend.length < retPendMax) : ∃ pend, (s.retPut i v w).ret = { s.ret with pend := pend } ∧
    ∀ k, pend.find? (fun p => decide (p.idx = k)) =
      if k = i then some { idx := i, val := v, writer := w } else s.ret.pend.find? fun p => decide (p.idx = k) := by
  unfold State.retPut
  dsimp only
  split
  next listed =>
    obtain ⟨p, mem, own⟩ := List.any_eq_true.1 listed
    obtain ⟨q, found⟩ := Option.isSome_iff_exists.1 ((List.find?_isSome (p := fun p : RetPend => decide (p.idx = i))).2 ⟨p, mem, own⟩)
    refine ⟨_, rfl, fun k => ?_⟩
    rw [find?_map_put s.ret.pend { idx := i, val := v, writer := w } k]
    split
    next here => rw [here, found]; rfl
    next => rfl
  next fresh =>
    have absent : s.ret.pend.find? (fun p => decide (p.idx = i)) = none :=
      List.find?_eq_none.2 fun p mem own => fresh (List.any_eq_true.2 ⟨p, mem, own⟩)
    refine ⟨_, rfl, fun k => ?_⟩
    rw [List.find?_append]
    split
    next here => rw [here, absent]; simp
    next other => simp [show i ≠ k from fun h => other h.symm]

/-- A word written while no write waits reads back at once, and no other word changes. -/
theorem State.retWord_retPut {i : Nat} {v : Word} {w : Block} (room : s.ret.pend.length < retPendMax) (calm : s.ret.waiting = []) :
    (s.retPut i v w).retWord i = v ∧ (s.retPut i v w).ret.cells = s.ret.cells ∧ ∀ k, k ≠ i → (s.retPut i v w).retWord k = s.retWord k := by
  obtain ⟨pend, put, found⟩ := State.ret_retPut (i := i) (v := v) (w := w) room
  have after (k : Nat) := State.retWord_eq (s := s.retPut i v w) (by rw [put]; exact calm) k
  refine ⟨?_, by rw [put], fun k other => ?_⟩
  · rw [after, put, found, if_pos rfl]
    rfl
  · rw [after, put, found, if_neg other, State.retWord_eq calm]

variable (s)

/-! ### Rounds (R471) -/

theorem State.bankRecord_same (b seq : Nat) : SameBut [.ret] s (s.bankRecord b seq) := fun x hx => by
  cases x <;> first | rfl | exact absurd hx (by decide)

/-- A bank's record is all of the store that a record of it changes. -/
theorem State.ret_bankRecords (n : Nat) (bs : List Nat) (s : State) : ∃ recs, (bs.foldl (fun s b => s.bankRecord b n) s).ret = { s.ret with recs := recs } := by
  induction bs generalizing s with
  | nil => exact ⟨s.ret.recs, rfl⟩
  | cons b bs ih =>
    obtain ⟨recs, later⟩ := ih (s.bankRecord b n)
    exact ⟨recs, later⟩

theorem State.bankRecords_same (n : Nat) (bs : List Nat) : SameBut [.ret] s (bs.foldl (fun s b => s.bankRecord b n) s) :=
  SameBut.foldl (fun s b => State.bankRecord_same s b n) bs s

theorem State.ret_ckptFailed (b : Nat) : (s.ckptFailed b).ret = s.ret := by
  unfold State.ckptFailed
  dsimp only
  rw [State.ret_raise, State.ret_record]
  rfl

theorem State.free_ckptFailed (b : Nat) : s.free ≤ (s.ckptFailed b).free := by
  unfold State.ckptFailed
  dsimp only
  refine Nat.le_trans (Nat.le_of_eq ?_) (State.free_raise _ _ _ _ _)
  rw [State.free_record]
  rfl

theorem State.ret_wordFailed (i : Nat) : (s.wordFailed i).ret = { s.ret with
    cells := Tab.put 0 s.ret.cells i (Config.cellAfterFail s.free), wfailCnt := satInc 0xFFFFFFFF s.ret.wfailCnt,
    wfailLog := some (s.ret.wfailLog.getD (4 * i)) } := by
  unfold State.wordFailed
  dsimp only
  rw [State.ret_raise, State.ret_irq, State.ret_err, State.ret_record, State.ret_updRet]
  cases h : s.ret.wfailLog <;> simp [State.draw, h]

theorem State.free_wordFailed (i : Nat) : s.free < (s.wordFailed i).free := by
  unfold State.wordFailed
  dsimp only
  refine Nat.lt_of_lt_of_le (Nat.lt_succ_self _) (Nat.le_trans (Nat.le_of_eq ?_) (State.free_raise _ _ _ _ _))
  rw [State.free_irq, State.free_err, State.free_record]
  rfl

/-! ### The bank check (R472) -/

theorem State.ret_bankFail (b crc : Nat) : ∃ recs, (s.bankFail b crc).ret = { s.ret with
    cells := Tab.keep (fun k _ => decide (retBank k ≠ b)) s.ret.cells, recs := recs, bankFail := nput s.ret.bankFail b true } := by
  unfold State.bankFail
  dsimp only
  rw [State.ret_raise, State.ret_irq, State.ret_err, State.ret_record]
  split <;> exact ⟨_, rfl⟩

theorem State.bankFail_retLost (crc : Nat) : (s.bankFail 7 crc).ilp.retLost = true := by
  unfold State.bankFail
  dsimp only
  rw [if_pos rfl]
  exact congrArg Ilp.retLost ((Part.of_same (x := .ilp) (State.raise_same _ _ _ _ _) rfl).trans ((Part.of_same (x := .ilp) (State.irq_same _ _ _) rfl).trans
    ((Part.of_same (x := .ilp) (State.err_same _ _ _) rfl).trans (Part.of_same (x := .ilp) (State.record_same _ _ _ _ _) rfl))))

theorem Tab.get_keep_none {α : Type} {d : α} {p : Nat → α → Bool} {k : Nat} (dropped : ∀ v, p k v = false) : ∀ t : Tab α, Tab.get d (Tab.keep p t) k = d
  | [] => rfl
  | (j, v) :: t => by
    rw [Tab.keep]
    split
    next kept =>
      have other : j ≠ k := fun h => by rw [h, dropped] at kept; exact absurd kept (by decide)
      rw [Tab.get, if_neg other]
      exact Tab.get_keep_none dropped t
    next => exact Tab.get_keep_none dropped t

theorem State.ret_sysTake (a b : Bool) : (s.sysTake a b).ret = { s.ret with
    sysA := if !a then s.ret.sysA else if !b then s.ret.sysB else { lifecycle := 2 }, sysB := if !a then s.ret.sysA else if !b then s.ret.sysB else { lifecycle := 2 },
    sysAGood := !a, sysBGood := !b, sysLost := a && b, sysPend := s.ret.sysPend || a || b } := by
  unfold State.sysTake
  dsimp only
  split
  · exact Part.of_same (x := .ret) (State.raiseNoCode_same _ _ _ _) rfl
  · rfl

theorem State.sys_sysTake (a b : Bool) : (s.sysTake a b).sys.sysrec.lifecycle = (s.sysTake a b).ret.sysA.lifecycle ∧
    (s.sysTake a b).sys.sysrec.keys = (s.sysTake a b).ret.sysA.keys := by
  rw [State.ret_sysTake]
  unfold State.sysTake
  dsimp only
  split
  · rw [Part.of_same (x := .sys) (State.raiseNoCode_same _ _ _ _) rfl]
    exact ⟨rfl, rfl⟩
  · exact ⟨rfl, rfl⟩

theorem State.ilp_sysTake (a b : Bool) : (s.sysTake a b).ilp = s.ilp := by
  unfold State.sysTake
  dsimp only
  split
  · exact Part.of_same (x := .ilp) (State.raiseNoCode_same _ _ _ _) rfl
  · rfl

theorem State.ckptLoadAll_same : SameBut [.rsq] s s.ckptLoadAll := by
  refine SameBut.trans (State.updRsq_same s _) (SameBut.foldl (fun s n => ?_) _ _)
  unfold State.ckptLoad
  dsimp only
  split
  · exact State.updStream_same s _ _
  · split
    · exact SameBut.refl _ s
    · split
      · exact State.updStream_same s _ _
      · split
        case h_6 => exact State.updStream_same s _ _
        all_goals exact SameBut.trans (SameBut.trans (State.updStream_same s _ _) (State.updStream_same _ _ _)) (State.updStream_same _ _ _)

/-- The banks that a check finds bad: those listed and those without an intact record. -/
def State.failedBank (s : State) (bad : List (Fin 8 × Word)) (b : Nat) : Bool :=
  (bad.find? fun x => decide (x.1.val = b)).isSome || (newestRec (Tab.get ({}, {}) s.ret.recs b)).isNone

/-- The contents' CRC that a check gives for a bank. -/
def badCrc (bad : List (Fin 8 × Word)) (b : Nat) : Nat := match bad.find? fun x => decide (x.1.val = b) with | some x => x.2.toNat | none => 0

/-- A check that ends: the bad banks fail in order, SYS takes its records, and what follows changes neither. -/
theorem retCheckDone_run (busy : s.ret.checkBusy = true) (bad : List (Fin 8 × Word)) (us : BitVec 16) :
    let s1 := s.updRet fun r => { r with checkBusy := false, checkDone := true, checkUs := us.toNat, bankFail := 0 }
    let s2 := ((List.range 8).filter (s.failedBank bad)).foldl (fun s b => s.bankFail b (badCrc bad b)) s1
    ∃ t, exec (.retCheckDone bad us) s = .next t ∧ SameBut [.evr, .hdr, .hts, .out, .rsq] (s2.sysTake (s.failedBank bad 0) (s.failedBank bad 4)) t := by
  intro s1 s2
  have run : exec (.retCheckDone bad us) s = .next (
      let s3 := (s2.sysTake (s.failedBank bad 0) (s.failedBank bad 4)).record .ret 0 0x0512 [s2.ret.bankFail, us.toNat]
      if s3.rsq.loading && decide ((s3.hd .rsq).pwr = .on) then s3.ckptLoadAll else s3) := by
    refine congrArg Host.Outcome.next ((if_neg (by simp [busy])).trans ?_)
    simp only [s2, List.foldl_filter]
    rfl
  refine ⟨_, run, ?_⟩
  dsimp only
  exact SameBut.trans (SameBut.mono' (State.record_same _ _ _ _ _) rfl) (SameBut.ite (SameBut.mono' (State.ckptLoadAll_same _) rfl) (SameBut.refl _ _))

end

end Sys2Proof.Machine
end

section
namespace Sys2Proof.Machine

section
variable {s : State} {p : Principal}

/-! ### Writes -/

theorem retWrite_writes {i : Fin 524288} {v : Word} (firmware : retFirmware i.val = true) (present : s.present .ret = true) (permitted : s.permits p 0x05 = true)
    (free : (s.hd .ret).lock = false) (room : s.ret.pend.length < 16384) (calm : s.ret.waiting = []) : ∃ t, exec (.retWrite p i v) s = .next t ∧
      t.retWord i.val = v ∧ t.ret.cells = s.ret.cells ∧ SameBut [.ret] s t ∧ ∀ k, k ≠ i.val → t.retWord k = s.retWord k := by
  obtain ⟨own, cells, others⟩ := State.retWord_retPut (s := s) (i := i.val) (v := v) (w := .ret) room calm
  exact ⟨_, congrArg Host.Outcome.next ((if_neg (by simp [firmware])).trans (State.gatedMem_ok _ _ _ present permitted (by simp [free]))), own, cells,
    State.retPut_same s _ _ _, others⟩

theorem retWrite_refused {i : Fin 524288} {v : Word} (other : retFirmware i.val = false) : ∃ t, exec (.retWrite p i v) s = .next t ∧ t.ret = s.ret ∧
    (t.hd .ret).errCode = 0x0504 := by
  refine ⟨_, congrArg Host.Outcome.next (if_pos (by simp [other])), ?_, ?_⟩
  · exact (Part.of_same (x := .ret) (State.storeFault_same _ _ _ _ _) rfl).trans (Part.of_same (x := .ret) (State.deny_same _ _ _ _ _) rfl)
  · rw [State.hd_congr (Part.of_same (x := .hdr) (State.storeFault_same _ _ _ _ _) rfl), State.hd_deny _ _ _ _ (by decide), State.hd_err_same]
    rfl

/-! ### Rounds -/

section
variable {w : RetPend} (pend : s.ret.pend = [w]) (sys : s.ret.sysPend = false) (calm : s.ret.waiting = [])
include pend sys calm

/-- A round of one word that verifies. -/
theorem State.retRound_one : s.retRound [] = [retBank w.idx].foldl (fun t b => t.bankRecord b (wrapInc s.ret.round)) (s.updRet fun r =>
    { r with cells := Tab.put 0 r.cells w.idx w.val, pend := [], waiting := [], flushing := false, sysPend := false, round := wrapInc s.ret.round }) := by
  unfold State.retRound
  simp only [pend, sys, calm, List.foldl_nil]
  rfl

/-- A round of one word that does not verify. -/
theorem State.retRound_one_fails : s.retRound [w.idx] = [retBank w.idx].foldl (fun t b => t.bankRecord b (wrapInc s.ret.round))
    (let u := (s.updRet fun r => { r with pend := [], waiting := [], flushing := false, sysPend := false, round := wrapInc s.ret.round }).wordFailed w.idx
      if w.writer = .rsq then u.ckptFailed (ckptOf w.idx) else u) := by
  unfold State.retRound
  by_cases checkpoint : w.writer = .rsq <;>
    simp [pend, sys, calm, checkpoint, nubN]

end

theorem retRound_verified {w : RetPend} (pend : s.ret.pend = [w]) (sys : s.ret.sysPend = false) (calm : s.ret.waiting = []) :
    ∃ t, exec (.retRound []) s = .next t ∧ Tab.get 0 t.ret.cells w.idx = w.val ∧ t.ret.pend = [] ∧ t.ret.round = wrapInc s.ret.round ∧ t.ret.flushing = false ∧
      (∀ k, k ≠ w.idx → Tab.get 0 t.ret.cells k = Tab.get 0 s.ret.cells k) ∧ SameBut [.ret, .hdr] s t := by
  have round := State.retRound_one (s := s.runFollow .ret) pend sys calm
  refine ⟨_, congrArg Host.Outcome.next round, ?_⟩
  refine ⟨Tab.get_put_same _ _ _ _, rfl, rfl, rfl, fun k other => Tab.get_put_ne _ _ _ other, ?_⟩
  exact SameBut.trans (SameBut.mono' (State.runFollow_same s _) rfl)
    (SameBut.trans (SameBut.mono' (State.updRet_same _ _) rfl) (SameBut.mono' (State.bankRecord_same _ _ _) rfl))

theorem retRound_failed {w : RetPend} (pend : s.ret.pend = [w]) (sys : s.ret.sysPend = false) (calm : s.ret.waiting = []) {f : Fin 524288} (own : f.val = w.idx) :
    ∃ t, exec (.retRound [f]) s = .next t ∧ Tab.get 0 t.ret.cells w.idx = Config.cellAfterFail s.free ∧ t.ret.pend = [] ∧
      t.ret.wfailCnt = satInc 0xFFFFFFFF s.ret.wfailCnt ∧ t.ret.wfailLog = some (s.ret.wfailLog.getD (4 * w.idx)) ∧ s.free < t.free := by
  have round := State.retRound_one_fails (s := s.runFollow .ret) pend sys calm
  rw [← own] at round
  let u0 := (s.runFollow .ret).updRet fun r => { r with pend := [], waiting := [], flushing := false, sysPend := false, round := wrapInc s.ret.round }
  let u := u0.wordFailed w.idx
  have ret : (if w.writer = .rsq then u.ckptFailed (ckptOf w.idx) else u).ret = u.ret := by
    split
    · exact State.ret_ckptFailed _ _
    · rfl
  have free : u.free ≤ (if w.writer = .rsq then u.ckptFailed (ckptOf w.idx) else u).free := by
    split
    · exact State.free_ckptFailed _ _
    · exact Nat.le_refl _
  refine ⟨_, congrArg Host.Outcome.next round, ?_⟩
  rw [own]
  obtain ⟨recs, banks⟩ := State.ret_bankRecords (wrapInc s.ret.round) [retBank w.idx] (if w.writer = .rsq then u.ckptFailed (ckptOf w.idx) else u)
  rw [ret, show u.ret = _ from State.ret_wordFailed u0 w.idx] at banks
  refine ⟨?_, ?_, ?_, ?_, (State.free_wordFailed u0 w.idx).trans_le free⟩
  · exact (congrArg (fun r : Ret => Tab.get 0 r.cells w.idx) banks).trans (Tab.get_put_same _ _ _ _)
  · exact congrArg Ret.pend banks
  · exact congrArg Ret.wfailCnt banks
  · exact congrArg Ret.wfailLog banks

/-! ### The bank check -/

theorem State.failedBank_of_whole (whole : ∀ b < 8, (newestRec (Tab.get ({}, {}) s.ret.recs b)).isSome = true) (bad : List (Fin 8 × Word)) {b : Nat} (lt : b < 8) :
    s.failedBank bad b = (bad.find? fun x => decide (x.1.val = b)).isSome := by
  have intact := whole b lt
  rw [State.failedBank, Option.isNone_eq_false_iff.2 intact, Bool.or_false]

section
variable (busy : s.ret.checkBusy = true) (whole : ∀ b < 8, (newestRec (Tab.get ({}, {}) s.ret.recs b)).isSome = true) {us : BitVec 16}
include busy whole

theorem retCheckDone_passes : ∃ t, exec (.retCheckDone [] us) s = .next t ∧ t.ret.checkBusy = false ∧ t.ret.checkDone = true ∧ t.ret.checkUs = us.toNat ∧
    t.ret.bankFail = 0 ∧ t.ret.cells = s.ret.cells ∧ t.ret.sysLost = false ∧ t.sys.sysrec.lifecycle = s.ret.sysA.lifecycle ∧
    t.sys.sysrec.keys = s.ret.sysA.keys := by
  have none_ : (List.range 8).filter (s.failedBank []) = [] := List.filter_eq_nil_iff.2 fun b listed => by
    rw [State.failedBank_of_whole whole [] (List.mem_range.1 listed)]
    simp
  obtain ⟨t, run, same⟩ := retCheckDone_run s busy [] us
  rw [none_, State.failedBank_of_whole whole [] (by decide : 0 < 8), State.failedBank_of_whole whole [] (by decide : 4 < 8)] at same
  obtain ⟨life, keys⟩ := State.sys_sysTake (s.updRet fun r => { r with checkBusy := false, checkDone := true, checkUs := us.toNat, bankFail := 0 }) false false
  rw [State.ret_sysTake] at life keys
  have ret := (Part.of_same (x := .ret) same rfl).trans (State.ret_sysTake _ _ _)
  have sys := Part.of_same (x := .sys) same rfl
  refine ⟨t, run, ?_⟩
  rw [ret, sys]
  exact ⟨rfl, rfl, rfl, rfl, rfl, rfl, life, keys⟩

theorem retCheckDone_bank {b : Fin 8} {c : Word} (mapA : b.val ≠ 0) (mapB : b.val ≠ 4) : ∃ t, exec (.retCheckDone [(b, c)] us) s = .next t ∧
    t.ret.bankFail = 2 ^ b.val ∧ t.ret.checkDone = true ∧ (∀ k, retBank k = b.val → Tab.get 0 t.ret.cells k = 0) ∧ (b.val = 7 → t.ilp.retLost = true) := by
  have failed {k : Nat} (lt : k < 8) : s.failedBank [(b, c)] k = decide (k = b.val) := by
    rw [State.failedBank_of_whole whole _ lt]
    by_cases own : b.val = k
    · simp [own]
    · simp [own, show k ≠ b.val from fun h => own h.symm]
  have only : ∀ b : Fin 8, (List.range 8).filter (fun k => decide (k = b.val)) = [b.val] := by decide
  have one : (List.range 8).filter (s.failedBank [(b, c)]) = [b.val] :=
    (List.filter_congr fun k listed => failed (List.mem_range.1 listed)).trans (only b)
  obtain ⟨t, run, same⟩ := retCheckDone_run s busy [(b, c)] us
  rw [one, failed (by decide : 0 < 8), failed (by decide : 4 < 8), decide_eq_false mapA.symm, decide_eq_false mapB.symm] at same
  let s1 := s.updRet fun r => { r with checkBusy := false, checkDone := true, checkUs := us.toNat, bankFail := 0 }
  obtain ⟨recs, bank⟩ := State.ret_bankFail s1 b.val (badCrc [(b, c)] b.val)
  have ret := (Part.of_same (x := .ret) same rfl).trans ((State.ret_sysTake (s1.bankFail b.val _) false false).trans (by rw [bank]))
  have ilp := (Part.of_same (x := .ilp) same rfl).trans (State.ilp_sysTake (s1.bankFail b.val _) false false)
  have flag : ∀ b : Fin 8, nput 0 b.val true = 2 ^ b.val := by decide
  refine ⟨t, run, ?_⟩
  rw [ret, ilp]
  refine ⟨flag b, rfl, fun k here => Tab.get_keep_none (fun _ => ?_) _, fun seven => ?_⟩
  · simp [here]
  · rw [seven]
    exact State.bankFail_retLost _ _

omit whole in
theorem retCheckDone_system {c d : Word} : ∃ t, exec (.retCheckDone [(0, c), (4, d)] us) s = .next t ∧ t.ret.sysLost = true ∧ t.sys.sysrec.lifecycle = 2 ∧
    t.sys.sysrec.keys = [] := by
  obtain ⟨t, run, same⟩ := retCheckDone_run s busy [(0, c), (4, d)] us
  have bad0 : s.failedBank [(0, c), (4, d)] 0 = true := rfl
  have bad4 : s.failedBank [(0, c), (4, d)] 4 = true := rfl
  rw [bad0, bad4] at same
  generalize ((List.range 8).filter (s.failedBank [(0, c), (4, d)])).foldl _ _ = u at same
  obtain ⟨life, keys⟩ := State.sys_sysTake u true true
  rw [State.ret_sysTake] at life keys
  have ret := (Part.of_same (x := .ret) same rfl).trans (State.ret_sysTake _ _ _)
  have sys := Part.of_same (x := .sys) same rfl
  refine ⟨t, run, ?_⟩
  rw [ret, sys]
  exact ⟨rfl, life, keys⟩

end

/-! ### ERM_ACK (R474) -/

section
variable {code : BitVec 16} (writes : s.writeOk .erm 0x114 .wo p = true)
include writes

theorem ermAck_takes {c : ErrEnt} (cur : s.erm.cur = some c) (own : c.code = code.toNat) (attached : s.hts.auto = .attached) :
    ∃ t, exec (.ermAck p code) s = .next t ∧ t.erm.cur = (takeWorst s.erm.queue).map Prod.fst ∧
      t.erm.queue = ((takeWorst s.erm.queue).map Prod.snd).getD [] ∧ t.erm.cnt = s.erm.cnt := by
  have run : exec (.ermAck p code) s = .next (((s.runFollow .erm).updErm fun x => { x with cur := none }).settleErm) := by
    refine congrArg Host.Outcome.next ((State.gated_ok _ _ writes).trans ?_)
    split
    next idle => rw [cur] at idle; exact absurd idle (by simp)
    next d is =>
      obtain rfl : c = d := by simpa [cur] using is
      exact if_pos own
  have settled : (((s.runFollow .erm).updErm fun x => { x with cur := none }).settleErm).erm =
      (Erm.promote true (35 + 1) { s.erm with cur := none }).driveErrN :=
    (State.erm_settleErm _).trans (congrArg (fun a => (Erm.promote a (35 + 1) { s.erm with cur := none }).driveErrN) (decide_eq_true attached))
  refine ⟨_, run, ?_⟩
  rw [settled, Erm.promote, Erm.driveErrN_eq]
  dsimp only
  cases worst : takeWorst s.erm.queue with
  | none => exact ⟨rfl, takeWorst_none _ worst, rfl⟩
  | some x =>
    obtain ⟨d, q⟩ := x
    dsimp only
    rw [Erm.promote_of_current rfl]
    exact ⟨rfl, rfl, rfl⟩

theorem ermAck_refuses (other : ∀ c, s.erm.cur = some c → c.code ≠ code.toNat) : ∃ t, exec (.ermAck p code) s = .next t ∧ t.erm = s.erm ∧
    (t.hd .erm).errCode = 0x0420 := by
  have run : exec (.ermAck p code) s = .next (s.err .erm errAckMismatch) := by
    refine congrArg Host.Outcome.next ((State.gated_ok _ _ writes).trans ?_)
    split
    · rfl
    next c cur => exact if_neg (other c cur)
  exact ⟨_, run, State.erm_err _ _ _, congrArg Hdr.errCode (State.hd_err_same s .erm errAckMismatch)⟩

end

end

/-- Settles O56: the store's commands by their writes, rounds and checks, and a raised error by the row of Table ERM-4 that applies. -/
theorem retentionStoreAndErrorManager : Obligations.RetentionStoreAndErrorManager := by
  unfold Obligations.RetentionStoreAndErrorManager
  intro s p
  refine ⟨fun i v => retWrite_writes, fun i v => retWrite_refused, fun w pend sys calm => ⟨retRound_verified pend sys calm, fun f own => ?failed⟩, fun writes => ?flush,
    fun busy whole us => ⟨?passes, fun b c => ?bank, fun c d => ?system⟩, fun idle l us => ?idle, fun b inst code sev => ?raises, fun code writes => ?acks,
    takeWorst_spec, takeWorst_none⟩
  case failed => exact retRound_failed pend sys calm own
  case flush => exact ⟨_, congrArg Host.Outcome.next (State.gated_ok _ _ writes), rfl, State.updRet_same s _⟩
  case passes => exact retCheckDone_passes busy whole
  case bank => exact retCheckDone_bank busy whole
  case system => exact retCheckDone_system busy
  case idle => exact congrArg Host.Outcome.next (if_pos (by simp [idle]))
  case raises =>
    refine ⟨fun low mild => ?_, ?_, ?_, fun high mild => ⟨fun none_ empty att => ⟨_, rfl, State.raise_first_attached high mild none_ empty att⟩,
      fun none_ empty alone low => ⟨_, rfl, State.raise_first_alone high mild none_ empty alone low⟩, fun y known esc => ⟨_, rfl, State.raise_recurs high mild known esc⟩,
      fun y known first fault => ⟨_, rfl, State.raise_fault high mild known first fault⟩,
      fun y cur own first fault fatal => ⟨_, rfl, State.raise_escalates high mild cur own first fault fatal⟩,
      fun c cur new room att => ⟨fun worse => ⟨_, rfl, State.raise_preempts high mild cur new room att worse⟩,
        fun milder => ⟨_, rfl, State.raise_queues high mild cur new room milder⟩⟩,
      fun c cur new full calm => ⟨_, rfl, State.raise_full high mild cur new full calm⟩⟩⟩
    · refine ⟨_, congrArg Host.Outcome.next (State.raise_below low mild), State.cnt_counted, rfl, rfl, State.setErm_same _ _⟩
    · rintro rfl calm
      refine ⟨_, rfl, ?_⟩
      dsimp only
      rw [State.raise_fatal calm]
      exact ⟨State.cnt_counted, rfl, rfl, rfl, rfl, rfl⟩
    · rintro rfl fatal
      exact ⟨_, congrArg Host.Outcome.next (State.raise_counts_only fatal), State.cnt_counted, rfl, State.setErm_same _ _⟩
  case acks =>
    refine ⟨fun c => ermAck_takes writes, fun c cur other => ermAck_refuses writes fun d is => ?_, fun idle => ermAck_refuses writes fun d is => ?_⟩
    · obtain rfl : c = d := by simpa [cur] using is
      exact other
    · rw [idle] at is
      exact absurd is (by simp)

end Sys2Proof.Machine
end

section
/-!
SUPPORT. The power controller (R454–R459): the header's power state, EN and lock through what a transition records, the domains' headers, and each command by its case.
-/

namespace Sys2Proof.Machine

/-! ### What an interrupt leaves of a header -/

/-- The power state, EN and the lock of a block. -/
def Hdr.ctl (h : Hdr) : Pwr × Bool × Bool := (h.pwr, h.en, h.lock)

section
variable (s : State)

@[simp] theorem State.ctl_irq (a b : Block) (i : Nat) : ((s.irq a i).hd b).ctl = (s.hd b).ctl := by
  by_cases own : b = a
  · subst own
    rw [State.hd_irq_same]
    rfl
  · rw [State.hd_irq_ne s i own]

@[simp] theorem State.ctl_err (a b : Block) (e : Nat) : ((s.err a e).hd b).ctl = (s.hd b).ctl := by
  by_cases own : b = a
  · subst own
    rw [State.hd_err_same]
    rfl
  · rw [State.hd_err_ne s e own]

@[simp] theorem State.ctl_record (a b : Block) (inst code : Nat) (ps : List Nat) : ((s.record a inst code ps).hd b).ctl = (s.hd b).ctl := by
  unfold State.record
  dsimp only
  split
  · exact State.ctl_irq _ _ _ _
  · rfl

theorem State.ctl_servoTo (st : Servo) (b : Block) : ((s.servoTo st).hd b).ctl = (s.hd b).ctl := by
  unfold State.servoTo
  dsimp only
  split
  · rfl
  · rw [State.ctl_irq, State.ctl_record]
    rfl

theorem State.ctl_degFollow (b : Block) : (s.degFollow.hd b).ctl = (s.hd b).ctl := by
  have degraded (t : State) : (t.timDegraded.hd b).ctl = (t.hd b).ctl := by
    unfold State.timDegraded
    split
    · exact State.ctl_servoTo t _ b
    · rfl
  unfold State.degFollow
  dsimp only
  split
  · split
    · rfl
    · exact degraded _
  · split <;> rfl

@[simp] theorem State.pmc_irq (b : Block) (i : Nat) : (s.irq b i).pmc = s.pmc := Part.of_same (x := .pmc) (State.irq_same s b i) rfl

@[simp] theorem State.pmc_err (b : Block) (e : Nat) : (s.err b e).pmc = s.pmc := Part.of_same (x := .pmc) (State.err_same s b e) rfl

@[simp] theorem State.pmc_record (b : Block) (inst code : Nat) (ps : List Nat) : (s.record b inst code ps).pmc = s.pmc :=
  Part.of_same (x := .pmc) (State.record_same s b inst code ps) rfl

@[simp] theorem State.pmc_updPmc (f : Pmc → Pmc) : (s.updPmc f).pmc = f s.pmc := rfl

theorem State.pmcTo_same (old new : PSt) : SameBut [.pmc, .evr, .hdr, .hts, .out] s (s.pmcTo old new) :=
  SameBut.trans (SameBut.trans (SameBut.mono' (State.updPmc_same s _) rfl) (SameBut.mono' (State.record_same _ _ _ _ _) rfl))
    (SameBut.mono' (State.irq_same _ _ _) rfl)

@[simp] theorem State.pmc_pmcTo (old new : PSt) : (s.pmcTo old new).pmc = { s.pmc with st := new } := by simp [State.pmcTo]

/-! ### The headers of a domain's blocks -/

theorem State.hd_hdrUp (a b : Block) : (s.hdrUp a).hd b = if b = a then { pwr := .on, lock := (s.hd a).lock } else s.hd b := by
  have put : (s.hdrUp a).hd b = Tab.get {} (Tab.put {} s.hdr a.code { pwr := .on, lock := (s.hd a).lock }) b.code := rfl
  rw [put]
  split
  next own => rw [own, Tab.get_put_same]
  next other => rw [Tab.get_put_ne _ _ _ fun h => other (Block.code_inj h)]; rfl

theorem State.hd_hdrUps (l : List Block) (b : Block) :
    (l.foldl (fun s b => s.hdrUp b) s).hd b = if b ∈ l then { pwr := .on, lock := (s.hd b).lock } else s.hd b := by
  induction l generalizing s with
  | nil => simp
  | cons a l ih =>
    rw [List.foldl_cons, ih, State.hd_hdrUp]
    by_cases own : b = a
    · subst own
      simp
    · simp [own]

theorem State.hdrUps_same (l : List Block) : SameBut [.hdr, .mir] s (l.foldl (fun s b => s.hdrUp b) s) :=
  SameBut.foldl (fun s b x hx => by cases x <;> first | rfl | exact absurd hx (by decide)) l s

theorem State.hd_pwrs (w : Pwr) (l : List Block) (b : Block) :
    (l.foldl (fun s b => s.updHd b fun h => { h with pwr := w }) s).hd b = if b ∈ l then { s.hd b with pwr := w } else s.hd b := by
  induction l generalizing s with
  | nil => simp
  | cons a l ih =>
    rw [List.foldl_cons, ih, State.hd_updHd]
    by_cases own : b = a
    · subst own
      simp
    · simp [own]

theorem State.pwrs_same (w : Pwr) (l : List Block) : SameBut [.hdr] s (l.foldl (fun s b => s.updHd b fun h => { h with pwr := w }) s) :=
  SameBut.foldl (fun s b => State.updHd_same s b _) l s

/-! ### What a block does when its domain has come up (R178, R387) -/

theorem State.hrcStarts_same (is : List Nat) : SameBut [.hrc] s (is.foldl (fun s i => s.hrcStart i (s.entry i).value (s.entry i).q) s) := by
  refine SameBut.foldl (fun s i => ?_) is s
  exact State.updHrc_same s _

theorem State.hrcRestart_same : SameBut [.hrc, .evr, .hdr, .hts, .out] s s.hrcRestart := by
  have restarted : SameBut [.hrc] s (s.updHrc fun h => { ({} : Hrc) with rate := h.rate, grant := h.grant, noGrant := h.noGrant }) := State.updHrc_same s _
  unfold State.hrcRestart
  exact SameBut.trans (SameBut.mono' restarted rfl) (SameBut.trans (SameBut.mono' (State.hrcStarts_same _ _) rfl) (SameBut.mono' (State.record_same _ _ _ _ _) rfl))

theorem State.canPowerUp_same : SameBut [.can, .regs] s s.canPowerUp := fun x hx => by
  cases x <;> first | rfl | exact absurd hx (by decide)

/-- The parts that a block's start may change. -/
def startParts : List Part := [.rsq, .hrc, .can, .regs, .evr, .hdr, .hts, .out]

theorem State.blkStart_same (b : Block) : SameBut startParts s (s.blkStart b) := by
  cases b with
  | rsq => exact SameBut.ite (SameBut.mono' (State.ckptLoadAll_same s) rfl) (SameBut.mono' (State.updRsq_same s _) rfl)
  | hrc => exact SameBut.mono' (State.hrcRestart_same s) rfl
  | can => exact SameBut.mono' (State.canPowerUp_same s) rfl
  | _ => exact SameBut.refl _ s

theorem State.ctl_hrcRestart (b : Block) : (s.hrcRestart.hd b).ctl = (s.hd b).ctl := by
  unfold State.hrcRestart
  dsimp only
  rw [State.ctl_record, State.hd_congr (Part.of_same (x := .hdr) (State.hrcStarts_same _ _) rfl)]
  rfl

theorem State.ctl_blkStart (a b : Block) : ((s.blkStart a).hd b).ctl = (s.hd b).ctl := by
  cases a with
  | rsq =>
    have own : SameBut [.rsq] s (s.blkStart .rsq) := SameBut.ite (State.ckptLoadAll_same s) (State.updRsq_same s _)
    rw [State.hd_congr (Part.of_same (x := .hdr) own rfl)]
  | hrc => exact State.ctl_hrcRestart s b
  | can => rfl
  | _ => rfl

theorem State.ctl_blkStarts (l : List Block) (b : Block) : ((l.foldl (fun s b => s.blkStart b) s).hd b).ctl = (s.hd b).ctl := by
  induction l generalizing s with
  | nil => rfl
  | cons a l ih => exact (ih _).trans (State.ctl_blkStart s a b)

end

end Sys2Proof.Machine
end

section
/-!
SUPPORT. The power controller's commands, handshake and wake, each by its case (Table PMC-3).
-/

namespace Sys2Proof.Machine

/-- A command of the power controller is refused: RESULT and BLK_ERR have its code, and no more of the controller changes. -/
def State.PmcRefuses (s : State) (i : Instr) (e : Nat) : Prop :=
  ∃ t, exec i s = .next t ∧ t.pmc = { s.pmc with result := e } ∧ (t.hd .pmc).errCode = 0x0300 + e ∧ SameBut [.pmc, .hdr, .hts, .out] s t

section
variable {s : State} {p : Principal}

theorem State.pmcRefuses_of_result {i : Instr} {e : Nat} (ne : e ≠ 0) (run : exec i s = .next (s.pmcResult e)) : s.PmcRefuses i e := by
  refine ⟨_, run, ?_, ?_, ?_⟩
  all_goals rw [State.pmcResult, if_neg ne]
  · rw [State.pmc_err]; rfl
  · rw [State.hd_err_same]; rfl
  · exact SameBut.trans (SameBut.mono' (State.updPmc_same s _) rfl) (SameBut.mono' (State.err_same _ _ _) rfl)

/-! ### Commands of PMC_CMD (R456) -/

section
variable {code : Nat} {tgt : PSt} {from_ : List PSt} {f : State → State} (writes : s.writeOk .pmc 0x100 .wo p = true)
include writes

theorem State.pmcCmd_busy (busy : s.pmc.busy = true) : s.pmcCmd p code tgt from_ f = s.pmcResult errPmcBusy :=
  (State.gated_ok _ _ writes).trans (if_pos busy)

theorem State.pmcCmd_there (idle : s.pmc.busy = false) (there : s.pmc.st = tgt) : s.pmcCmd p code tgt from_ f = s.pmcResult 0 :=
  (State.gated_ok _ _ writes).trans ((if_neg (by simp [idle])).trans (if_pos there))

theorem State.pmcCmd_unlisted (idle : s.pmc.busy = false) (away : s.pmc.st ≠ tgt) (unlisted : from_.contains s.pmc.st = false) :
    s.pmcCmd p code tgt from_ f = s.pmcResult errStateCmd :=
  (State.gated_ok _ _ writes).trans ((if_neg (by simp [idle])).trans ((if_neg away).trans (if_pos (by rw [unlisted]; rfl))))

theorem State.pmcCmd_acts (idle : s.pmc.busy = false) (away : s.pmc.st ≠ tgt) (listed : from_.contains s.pmc.st = true) :
    s.pmcCmd p code tgt from_ f = f (s.updPmc fun x => { x with result := 0, from_ := x.st, tgt := tgt, t0 := s.upUs, refBlk := 0, wakeT := none }) :=
  (State.gated_ok _ _ writes).trans ((if_neg (by simp [idle])).trans ((if_neg away).trans (if_neg (by rw [listed]; decide))))

end

/-! ### The entry handshake (R457) -/

/-- The blocks that a handshake for some domains asks, in order. -/
def State.asked (s : State) (doms : List Nat) (low : Bool) : List Block :=
  askOrder.filter fun b => (low && decide (b = .fio)) || ((doms.contains b.domain.code || (decide (b = .cpu) && doms.contains 2)) && decide ((s.hd b).pwr = .on))

theorem State.hsStart_asks {doms : List Nat} {low : Bool} (some_ : s.asked doms low ≠ []) (core dom : Option Nat) : s.hsStart doms low core dom =
    s.updPmc fun x => { x with hs := some { doms := doms, ask := s.asked doms low, core := core, dom := dom }, t0 := s.upUs } := if_neg some_

section
variable (writes : s.writeOk .pmc 0x100 .wo p = true)
include writes

theorem pmcRun_fromEco (idle : s.pmc.busy = false) (eco : s.pmc.st = .eco) (pll : (s.clk.dom 0).frc = false) (div : (s.clk.dom 0).div = 8) :
    ∃ t, exec (.pmcRun p) s = .next t ∧ t.pmc.st = .waking ∧ t.pmc.todo = s.pmc.ecoOff.filter (fun d => !s.pmc.on.contains d) ∧ (t.clk.dom 0).tgt = 2 ∧
      (t.clk.dom 0).ramp = true ∧ SameBut [.pmc, .clk] s t := by
  let u := (s.updPmc fun x => { x with result := 0, from_ := x.st, tgt := .run, t0 := s.upUs, refBlk := 0, wakeT := none }).updPmc fun x =>
    { x with st := .waking, todo := x.ecoOff.filter (fun d => !x.on.contains d), ecoOff := [] }
  let v := u.updDom 0 fun y => { y with tgt := 2, ramp := decide (y.div ≠ 2) }
  have dom : v.clk.dom 0 = { s.clk.dom 0 with tgt := 2, ramp := decide ((s.clk.dom 0).div ≠ 2) } := Clk.dom_updDom u 0 _
  have ramps : (v.clk.dom 0).ramp = true := by rw [dom, div]; rfl
  have waits : v.wakeNext = v := if_pos (.inr (.inr (.inl ramps)))
  have run : exec (.pmcRun p) s = .next v := by
    refine congrArg Host.Outcome.next ((State.pmcCmd_acts writes idle (by simp [eco]) (by simp [eco])).trans (Eq.trans ?_ waits))
    exact congrArg State.wakeNext (if_neg (Bool.eq_false_iff.1 (show (u.clk.dom 0).frc = false from pll)))
  exact ⟨v, run, rfl, rfl, by rw [dom], ramps, SameBut.trans (SameBut.mono' (State.updPmc_same s _) rfl)
    (SameBut.trans (SameBut.mono' (State.updPmc_same _ _) rfl) (SameBut.mono' (State.updClk_same _ _) rfl))⟩

/-- An entry to a power state starts its handshake (R457). -/
theorem State.pmcEnter {code : Nat} {tgt : PSt} {from_ : List PSt} (idle : s.pmc.busy = false) (away : s.pmc.st ≠ tgt) (listed : from_.contains s.pmc.st = true)
    {doms : List Nat} {low : Bool} (some_ : s.asked doms low ≠ []) :
    s.pmcCmd p code tgt from_ (fun s => (s.updPmc fun x => { x with st := .entering }).hsStart doms low (coreOf p) none) = s.updPmc fun x =>
      { x with result := 0, from_ := x.st, tgt := tgt, t0 := s.upUs, refBlk := 0, wakeT := none, st := .entering,
               hs := some { doms := doms, ask := s.asked doms low, core := coreOf p } } :=
  (State.pmcCmd_acts writes idle away listed).trans (State.hsStart_asks (s := (s.updPmc fun x =>
    { x with result := 0, from_ := x.st, tgt := tgt, t0 := s.upUs, refBlk := 0, wakeT := none }).updPmc fun x => { x with st := .entering }) some_ (coreOf p) none)

end

/-! ### The handshake's answers (R457, R458) -/

/-- A domain that has powered down is not ON. -/
theorem State.not_on_domDown (t : State) (d : Nat) : d ∉ (t.domDown d).pmc.on := by
  unfold State.domDown State.domRecord
  rw [State.pmc_record]
  exact fun mem => absurd rfl (of_decide_eq_true (List.mem_filter.1 mem).2)

section
variable {wfi busy : Bool} {h : PHs} {b : Block}

theorem State.waitEnded_of_none (t : State) (still : h.wait = none) : t.waitEnded h = t := by
  unfold State.waitEnded
  rw [still]

theorem State.waitEnded_updPmc (t : State) (h : PHs) : ∃ blk time, t.waitEnded h = t.updPmc fun x => { x with waitBlk := blk, waitTime := time } := by
  unfold State.waitEnded
  split
  · exact ⟨t.pmc.waitBlk, t.pmc.waitTime, rfl⟩
  · exact ⟨_, _, rfl⟩

/-- A rollback of an entry in progress: its cause, the block that refused and a handshake that is back. -/
theorem State.pmc_pmcRollback {t : State} (hs : t.pmc.hs = some h) (blk cause : Nat) : ∃ r, (t.pmcRollback blk cause).pmc =
    { t.pmc with st := if t.pmc.st = .entering then .rollback else t.pmc.st, cause := cause, refBlk := blk, result := r,
                 hs := some { h with ask := [], wait := none, back := true } } := by
  unfold State.pmcRollback
  rw [hs]
  dsimp only
  split
  · exact ⟨_, by rw [hs]; rfl⟩
  · exact ⟨_, by rw [show t.draw.2.pmc.hs = some h from hs]; rfl⟩

theorem State.pmcRollback_known {t : State} (hs : t.pmc.hs = some h) {cause : Nat} (known : cause ≤ 1) (blk : Nat) : t.pmcRollback blk cause = t.updPmc fun x =>
    { x with st := if x.st = .entering then .rollback else x.st, cause := cause, refBlk := blk, result := 0x21,
             hs := some { h with ask := [], wait := none, back := true } } := by
  unfold State.pmcRollback
  rw [hs]
  dsimp only
  rw [if_pos known, if_pos known]
  simp only [hs, Option.map_some]
  rfl

section
variable {l : List Block} (hs : s.pmc.hs = some h) (ask : h.ask = b :: l)
include hs ask

theorem pmcHandshakeAnswer_agrees (agree : s.hsAnswer h wfi busy b = .agree) (still : h.wait = none) (stops : h.doms.contains b.domain.code = true) :
    exec (.pmcHandshakeAnswer wfi busy) s = .next (
      let u := (s.updHd b fun y => { y with pwr := .sleep }).updPmc fun y => { y with hs := some { h with ask := l, wait := none, stopped := b :: h.stopped } }
      if l = [] then u.hsAgreed { h with ask := l, wait := none, stopped := b :: h.stopped } else u) := by
  show execPmcHandshakeAnswer wfi busy s = _
  unfold execPmcHandshakeAnswer
  simp only [hs, ask, agree, State.waitEnded_of_none s still, stops, Bool.true_or, if_true]

theorem pmcHandshakeAnswer_refuses (refuse : s.hsAnswer h wfi busy b = .refuse) (still : h.wait = none) (entering : s.pmc.st = .entering) :
    exec (.pmcHandshakeAnswer wfi busy) s = .next
      (s.updPmc fun y => { y with st := .rollback, cause := 0, refBlk := b.code, result := 0x21, hs := some { h with ask := [], wait := none, back := true } }) := by
  show execPmcHandshakeAnswer wfi busy s = _
  unfold execPmcHandshakeAnswer
  simp only [hs, ask, refuse, State.waitEnded_of_none s still, State.pmcRollback_known hs (Nat.zero_le 1)]
  rw [State.updPmc, State.updPmc, if_pos entering]

theorem pmcHandshakeAnswer_waits (wait : s.hsAnswer h wfi busy b = .wait) (still : h.wait = none) (other : b ≠ .hrc) :
    exec (.pmcHandshakeAnswer wfi busy) s = .next (s.updPmc fun y => { y with hs := some { h with wait := some (b, s.upUs) } }) := by
  show execPmcHandshakeAnswer wfi busy s = _
  unfold execPmcHandshakeAnswer
  simp only [hs, ask, wait, still, Option.isSome_none, Bool.false_eq_true, if_false, if_neg other]

/-- The last block asked for a domain agrees: the domain powers down. -/
theorem pmcHandshakeAnswer_last {d : Nat} (last : l = []) (dom : h.dom = some d) (agree : s.hsAnswer h wfi busy b = .agree) :
    ∃ t, exec (.pmcHandshakeAnswer wfi busy) s = .next t ∧ t.pmc.hs = none ∧ d ∉ t.pmc.on := by
  show ∃ t, execPmcHandshakeAnswer wfi busy s = .next t ∧ _
  unfold execPmcHandshakeAnswer
  refine ⟨_, rfl, ?_⟩
  simp only [hs, ask, agree, last, if_true, State.hsAgreed, dom]
  exact ⟨rfl, State.not_on_domDown _ d⟩

end

theorem pmcWaitTimeout_rollsBack {t0 : Nat} (hs : s.pmc.hs = some h) (wait : h.wait = some (b, t0)) (entering : s.pmc.st = .entering) :
    ∃ t, exec .pmcWaitTimeout s = .next t ∧ t.pmc.st = .rollback ∧ t.pmc.refBlk = b.code ∧ t.pmc.cause = 1 ∧ t.pmc.waitBlk = b.code ∧
      t.pmc.waitTime = min 0xFFFF ((s.upUs - t0) / 100) ∧ SameBut [.pmc] s t := by
  have run : exec .pmcWaitTimeout s = .next ((s.updPmc fun x => { x with waitBlk := b.code, waitTime := min 0xFFFF ((s.upUs - t0) / 100) }).pmcRollback b.code 1) := by
    show execPmcWaitTimeout s = _
    simp only [execPmcWaitTimeout, hs, wait, State.waitEnded]
  rw [State.pmcRollback_known (t := s.updPmc fun x => { x with waitBlk := b.code, waitTime := min 0xFFFF ((s.upUs - t0) / 100) }) hs (Nat.le_refl 1)] at run
  exact ⟨_, run, if_pos entering, rfl, rfl, rfl, rfl, SameBut.trans (State.updPmc_same s _) (State.updPmc_same _ _)⟩

/-- The rollback of an entry is done: the stopped blocks are ON again and the previous state is in force. -/
theorem pmcRollbackDone_restores (hs : s.pmc.hs = some h) (back : h.back = true) : ∃ t, exec .pmcRollbackDone s = .next t ∧ t.pmc.hs = none ∧
    t.pmc.st = (if s.pmc.st = .rollback then s.pmc.from_ else s.pmc.st) ∧ (∀ b ∈ h.stopped, (t.hd b).pwr = .on) ∧ t.pmc.on = s.pmc.on := by
  have restored (u : State) (pmc : u.pmc = s.pmc) (on : ∀ b ∈ h.stopped, (u.hd b).pwr = .on) (tgt : Nat) :
      let s3 := u.updPmc fun x => { x with hs := none, st := if x.st = .rollback then x.from_ else x.st }
      let s4 := (s3.record .pmc 0 0x0311 [tgt, s.pmc.refBlk, s.pmc.cause]).irq .pmc 9
      let t := if s.pmc.cause ≤ 1 then s4.err .pmc errRefused else s4
      t.pmc.hs = none ∧ t.pmc.st = (if s.pmc.st = .rollback then s.pmc.from_ else s.pmc.st) ∧ (∀ b ∈ h.stopped, (t.hd b).pwr = .on) ∧ t.pmc.on = s.pmc.on := by
    intro s3 s4 t
    have controls (b : Block) : (t.hd b).ctl = (u.hd b).ctl := by
      simp only [t, s4]
      split
      · rw [State.ctl_err, State.ctl_irq, State.ctl_record]
        rfl
      · rw [State.ctl_irq, State.ctl_record]
        rfl
    have own : t.pmc = { s.pmc with hs := none, st := if s.pmc.st = .rollback then s.pmc.from_ else s.pmc.st } := by
      simp only [t, s4, s3]
      split <;> simp [pmc]
    rw [own]
    exact ⟨rfl, rfl, fun b mem => (congrArg Prod.fst (controls b)).trans (on b mem), rfl⟩
  have up (b : Block) (mem : b ∈ h.stopped) : ((h.stopped.foldl (fun s b => s.updHd b fun x => { x with pwr := .on }) s).hd b).pwr = .on := by
    rw [State.hd_pwrs, if_pos mem]
  have pmc : (h.stopped.foldl (fun s b => s.updHd b fun x => { x with pwr := .on }) s).pmc = s.pmc := Part.of_same (x := .pmc) (State.pwrs_same s _ _) rfl
  show ∃ t, execPmcRollbackDone s = .next t ∧ _
  unfold execPmcRollbackDone
  refine ⟨_, rfl, ?_⟩
  simp only [hs, back, Bool.not_true, Bool.false_eq_true, if_false]
  generalize h.stopped.foldl (fun s b => s.updHd b fun x => { x with pwr := .on }) s = u at up pmc ⊢
  cases h.dom with
  | none => exact restored u pmc up _
  | some d => exact restored u.draw.2 pmc up _

end

/-! ### Wake sources (R456, R459) -/

theorem State.pllOn_pllStart (t : State) : t.pllStart.clk.pllOn = true := by
  unfold State.pllStart
  split
  next on => exact on
  next => rfl

theorem State.pmc_pllStart (t : State) : t.pllStart.pmc = t.pmc := by
  unfold State.pllStart
  split <;> rfl

section
variable {code : Nat}

theorem State.wakeSource_masked (masked : bit (s.reg R.PMC_WAKE_EN) code = false) : s.wakeSource code = s := if_pos (.inl (by rw [masked]; rfl))

section
variable (enabled : bit (s.reg R.PMC_WAKE_EN) code = true) (first : s.pmc.wakeT ≠ some s.upUs)
include first

theorem State.wakeSource_awake (awake : s.pmc.st = .run ∨ s.pmc.st = .eco ∨ s.pmc.st = .waking ∨ s.pmc.st = .rollback) : s.wakeSource code = s :=
  if_pos (.inr (by rcases awake with h | h | h | h <;> simp [h, first]))

include enabled

/-- A source that wakes a sleeping device is recorded with its code as the cause. -/
theorem State.wakeSource_asleep (asleep : s.pmc.st = .standby ∨ s.pmc.st = .hibernate ∨ s.pmc.st = .entering) :
    let s1 := s.updPmc fun x => { x with wakeStat := nput x.wakeStat code true, wakeT := some s.upUs, wakeCause := code }
    s.wakeSource code = if s.pmc.st = .standby then s1.wakeStandby else if s.pmc.st = .hibernate then s1.wakeHibernate else s1.pmcRollback 0 2 := by
  have fires : ¬ (!(bit (s.reg R.PMC_WAKE_EN) code) ∨ !((decide (s.pmc.st = .standby) || decide (s.pmc.st = .hibernate) || decide (s.pmc.st = .entering)) ||
      decide (s.pmc.wakeT = some s.upUs))) := by
    rw [enabled]
    rcases asleep with h | h | h <;> simp [h]
  unfold State.wakeSource
  dsimp only
  rw [if_neg fires, decide_eq_false first]
  rcases asleep with h | h | h <;> simp [h]

theorem State.wakeSource_standby (st : s.pmc.st = .standby) : (s.wakeSource code).pmc.st = .waking ∧ (s.wakeSource code).pmc.wakeCause = code ∧
    (s.wakeSource code).pmc.wakeStat = nput s.pmc.wakeStat code true ∧ (s.wakeSource code).clk.pllOn = true := by
  rw [State.wakeSource_asleep enabled first (.inl st), if_pos st]
  unfold State.wakeStandby
  rw [State.pmc_pllStart]
  exact ⟨rfl, rfl, rfl, State.pllOn_pllStart _⟩

theorem State.wakeSource_hibernate (st : s.pmc.st = .hibernate) : (s.wakeSource code).pmc.st = .run ∧ (s.wakeSource code).pmc.wakeCause = code ∧
    (s.wakeSource code).erm.phase = 1 ∧ (s.wakeSource code).sys.romAlive = true := by
  rw [State.wakeSource_asleep enabled first (.inr (.inl st)), if_neg (by rw [st]; decide), if_pos st]
  unfold State.wakeHibernate State.pmcTo
  dsimp only
  simp only [State.pmc_irq, State.pmc_record, State.erm_irq, State.erm_record]
  refine ⟨rfl, rfl, rfl, ?_⟩
  exact congrArg Sys.romAlive ((Part.of_same (x := .sys) (State.irq_same _ _ _) rfl).trans ((Part.of_same (x := .sys) (State.record_same _ _ _ _ _) rfl).trans
    ((Part.of_same (x := .sys) (State.irq_same _ _ _) rfl).trans (Part.of_same (x := .sys) (State.record_same _ _ _ _ _) rfl))))

theorem State.wakeSource_entering (st : s.pmc.st = .entering) (hs : s.pmc.hs.isSome = true) : (s.wakeSource code).pmc.st = .rollback ∧
    (s.wakeSource code).pmc.cause = 2 ∧ (s.wakeSource code).pmc.wakeCause = code := by
  obtain ⟨h, hs⟩ := Option.isSome_iff_exists.1 hs
  rw [State.wakeSource_asleep enabled first (.inr (.inr st)), if_neg (by rw [st]; decide), if_neg (by rw [st]; decide)]
  obtain ⟨r, back⟩ := State.pmc_pmcRollback (t := s.updPmc fun x => { x with wakeStat := nput x.wakeStat code true, wakeT := some s.upUs, wakeCause := code }) hs 0 2
  rw [back]
  exact ⟨if_pos st, rfl, rfl⟩

end

end

/-! ### Domain commands (R454) -/

theorem Pmc.trans_of_idle {x : Pmc} (idle : x.busy = false) : x.trans = [] := by
  simp only [Pmc.busy, Bool.or_eq_false_iff, decide_eq_false_iff_not, not_not] at idle
  exact idle.2

section
variable {d : Fin 16} (writes : s.writeOk .pmc 0x108 .wo p = true) (idle : s.pmc.busy = false) (low : 1 ≤ d.val) (high : d.val ≤ 12)
include writes idle low high

theorem pmcDomOn_run (off : s.domOn d.val = false) : exec (.pmcDomOn p d) s = .next (if !((domReq d.val).all fun x => s.domOn x) then s.pmcResult errDomainDep
    else ((s.pmcResult 0).domPwr d.val .reset).updPmc fun x => { x with trans := domInsert d.val x.trans }) :=
  congrArg Host.Outcome.next ((State.gated_ok _ _ writes).trans ((if_neg (by omega)).trans ((if_neg (by simp [idle])).trans (if_neg (by simp [off])))))

theorem pmcDomOn_starts (off : s.domOn d.val = false) (ready : ∀ r ∈ domReq d.val, s.domOn r = true) : ∃ t, exec (.pmcDomOn p d) s = .next t ∧
    t.pmc.trans = [d.val] ∧ t.pmc.result = 0 ∧ (∀ b ∈ domBlocks d.val, (t.hd b).pwr = .reset) ∧ SameBut [.pmc, .hdr] s t := by
  have alone : ∀ d : Fin 16, domInsert d.val [] = [d.val] := by decide
  have required : ((domReq d.val).all fun x => s.domOn x) = true := List.all_eq_true.2 ready
  let u := (s.updPmc fun x => { x with result := 0 }).domPwr d.val .reset
  have pmc : u.pmc = { s.pmc with result := 0 } := Part.of_same (x := .pmc) (State.pwrs_same _ _ _) rfl
  refine ⟨u.updPmc fun x => { x with trans := domInsert d.val x.trans }, (pmcDomOn_run writes idle low high off).trans (congrArg Host.Outcome.next (if_neg (by simp [required]))), ?_⟩
  rw [State.pmc_updPmc, pmc]
  refine ⟨?_, rfl, fun b mem => ?_, ?_⟩
  · exact (congrArg (domInsert d.val) (Pmc.trans_of_idle idle)).trans (alone d)
  · exact congrArg Hdr.pwr ((State.hd_pwrs _ _ _ b).trans (if_pos mem))
  · exact SameBut.trans (SameBut.mono' (State.updPmc_same s _) rfl) (SameBut.trans (SameBut.mono' (State.pwrs_same _ _ _) rfl) (SameBut.mono' (State.updPmc_same _ _) rfl))

theorem pmcDomOn_refuses (off : s.domOn d.val = false) (missing : ∃ r ∈ domReq d.val, s.domOn r = false) : s.PmcRefuses (.pmcDomOn p d) 0x22 := by
  obtain ⟨r, mem, down⟩ := missing
  refine State.pmcRefuses_of_result (by decide) ((pmcDomOn_run writes idle low high off).trans (congrArg Host.Outcome.next (if_pos ?_)))
  have lacks : ((domReq d.val).all fun x => s.domOn x) = false := List.all_eq_false.2 ⟨r, mem, by simp [down]⟩
  rw [lacks]
  rfl

theorem pmcDomOff_run (on : s.domOn d.val = true) : exec (.pmcDomOff p d) s = .next (if s.pmc.on.any fun x => (domReq x).contains d.val then s.pmcResult errDomainDep
    else (s.pmcResult 0).hsStart [d.val] false (coreOf p) (some d.val)) :=
  congrArg Host.Outcome.next ((State.gated_ok _ _ writes).trans ((if_neg (by omega)).trans ((if_neg (by simp [idle])).trans (if_neg (by simp [on])))))

theorem pmcDomOff_refuses (on : s.domOn d.val = true) (required : ∃ e ∈ s.pmc.on, d.val ∈ domReq e) : s.PmcRefuses (.pmcDomOff p d) 0x22 := by
  obtain ⟨e, mem, needs⟩ := required
  exact State.pmcRefuses_of_result (by decide) ((pmcDomOff_run writes idle low high on).trans
    (congrArg Host.Outcome.next (if_pos (List.any_eq_true.2 ⟨e, mem, by simpa using needs⟩))))

theorem pmcDomOff_asks (on : s.domOn d.val = true) (alone : ∀ e ∈ s.pmc.on, d.val ∉ domReq e) (some_ : ∃ b ∈ domBlocks d.val, (s.hd b).pwr = .on ∧ b ∈ askOrder) :
    ∃ t h, exec (.pmcDomOff p d) s = .next t ∧ t.pmc.hs = some h ∧ h.dom = some d.val ∧ h.doms = [d.val] ∧ h.back = false ∧ t.pmc.on = s.pmc.on ∧
      SameBut [.pmc] s t := by
  obtain ⟨b, mem, pwr, listed⟩ := some_
  have domain : b.domain.code = d.val := of_decide_eq_true (List.mem_filter.1 mem).2
  have free : (s.pmc.on.any fun x => (domReq x).contains d.val) = false := List.any_eq_false.2 fun e on => by simpa using alone e on
  have asks : (s.updPmc fun x => { x with result := 0 }).asked [d.val] false ≠ [] := by
    refine List.ne_nil_of_mem (a := b) (List.mem_filter.2 ⟨listed, ?_⟩)
    have up : ((s.updPmc fun x => { x with result := 0 }).hd b).pwr = .on := pwr
    simp [domain, up]
  refine ⟨_, _, (pmcDomOff_run writes idle low high on).trans (congrArg Host.Outcome.next ((if_neg (by rw [free]; decide)).trans (State.hsStart_asks asks _ _))), rfl, rfl, rfl, rfl, rfl, ?_⟩
  exact SameBut.trans (State.updPmc_same s _) (State.updPmc_same _ _)

end

/-! ### A domain has powered up (R454) -/

theorem State.pmc_degFollow (t : State) : t.degFollow.pmc = t.pmc := Part.of_same (x := .pmc) (State.degFollow_same t) rfl

/-- A domain without cores or the time unit has powered up: its blocks are ON with EN = 0 and their locks as before. -/
theorem State.domUp_up {d : Nat} (plain : domCores d = []) (time : d ≠ 3) (net el : Nat) : (s.domUp d net el).pmc =
      { s.pmc with on := domInsert d s.pmc.on, trans := s.pmc.trans.filter fun x => decide (x ≠ d) } ∧
    ∀ b ∈ domBlocks d, ((s.domUp d net el).hd b).ctl = (.on, false, (s.hd b).lock) := by
  unfold State.domUp
  extract_lets s1 own s2 s3 s4 s5
  have idle : s5 = s4 := by simp only [s5, plain, List.foldl_nil]
  have still : s3 = s2 := if_neg time
  have ups : s1.pmc = s.pmc := Part.of_same (x := .pmc) (State.hdrUps_same s _) rfl
  have started : s4.pmc = s3.pmc := Part.of_same (x := .pmc) (SameBut.foldl (fun s b => State.blkStart_same s b) _ s3) rfl
  refine ⟨?_, fun b mem => ?_⟩
  · rw [State.pmc_degFollow, State.domRecord, State.pmc_record, idle, started, still]
    exact congrArg (fun x : Pmc => { x with on := domInsert d x.on, trans := x.trans.filter fun x => decide (x ≠ d) }) ups
  · rw [State.ctl_degFollow, State.domRecord, State.ctl_record, idle, State.ctl_blkStarts, still]
    exact congrArg Hdr.ctl ((State.hd_hdrUps s _ b).trans (if_pos mem))

theorem domainPowerUpDone_ups {d : Fin 13} {net el : Nat} (trans : s.pmc.trans = [d.val]) (run : s.pmc.st = .run) (ready : ∀ r ∈ domReq d.val, s.domOn r = true)
    (plain : domCores d.val = []) (time : d.val ≠ 3) (mem : d.val ≠ 11) (down : ∀ b ∈ domBlocks d.val, (s.hd b).pwr = .reset) :
    ∃ t, exec (.domainPowerUpDone d net el) s = .next t ∧ d.val ∈ t.pmc.on ∧ t.pmc.trans = [] ∧
      ∀ b ∈ domBlocks d.val, (t.hd b).pwr = .on ∧ (t.hd b).en = false ∧ (t.hd b).lock = (s.hd b).lock := by
  have due : ¬ (!s.pmc.trans.contains d.val ∨ !((domReq d.val).all fun x => s.domOn x) ∨ (d.val = 3 ∧ !s.clk.rtReady) ∨ (d.val = 11 ∧ !s.erm.supply.pgMem)) := by
    have required : ((domReq d.val).all fun x => s.domOn x) = true := List.all_eq_true.2 ready
    simp [trans, required, time, mem]
  have fresh : ((domBlocks d.val).any fun b => decide ((s.hd b).pwr = .sleep)) = false := List.any_eq_false.2 fun b listed => by simp [down b listed]
  obtain ⟨pmc, up⟩ := State.domUp_up (s := s) plain time net el
  have woken : (s.domUp d.val net el).wakeNext = s.domUp d.val net el := if_pos (.inl (by rw [pmc, run]; decide))
  refine ⟨s.domUp d.val net el, congrArg Host.Outcome.next ((if_neg due).trans ((congrArg State.wakeNext (if_neg (by rw [fresh]; decide))).trans woken)), ?_, ?_, fun b listed => ?_⟩
  · rw [pmc]
    exact List.mem_filter.2 ⟨List.mem_range.2 (by omega), by simp⟩
  · rw [pmc, trans]
    simp
  · have own := up b listed
    exact ⟨congrArg Prod.fst own, congrArg (·.2.1) own, congrArg (·.2.2) own⟩

theorem domainPowerUpDone_idle {d : Fin 13} {net el : Nat} (idle : s.pmc.trans.contains d.val = false) : exec (.domainPowerUpDone d net el) s = .next s :=
  congrArg Host.Outcome.next (if_pos (.inl (by rw [idle]; rfl)))

/-! ### The wake from STANDBY is done (R456, R459) -/

section
variable (st : s.pmc.st = .waking) (from_ : s.pmc.from_ = .standby) (todo : s.pmc.todo = []) (trans : s.pmc.trans = []) (locked : s.clk.locked = true)
include st from_ todo trans locked

/-- What PMC records at the end of a wake: it changes the mode, records and interrupts alone. -/
theorem pmcWakeDone_run : ∃ t u : State, exec .pmcWakeDone s = .next t ∧ SameBut [.pmc, .evr, .hdr, .hts, .out] u t ∧
    t.pmc.st = (if bit (s.reg R.PMC_WAKE_TGT) 0 then .eco else .run) ∧
    u = (if s.resumeHash = s.pmc.hash then s.updCore 0 fun k => { k with running := true, startPc := (s.reg R.PMC_RESUME_LO).toNat + 2 ^ 32 * (s.reg R.PMC_RESUME_HI).toNat }
      else { (s.updCore 0 fun k => { k with running := true, startPc := 0 }) with erm := { s.erm with phase := 3 }, sys := { s.sys with romAlive := true } }) := by
  have due : ¬ (s.pmc.st ≠ .waking ∨ s.pmc.from_ ≠ .standby ∨ s.pmc.todo ≠ [] ∨ s.pmc.trans ≠ [] ∨ !s.clk.locked) := by simp [st, from_, todo, trans, locked]
  have finish (u : State) (mode : PSt) (ps : List Nat) : SameBut [.pmc, .evr, .hdr, .hts, .out] u (((u.pmcTo .standby mode).record .pmc 0 0x0312 ps).irq .pmc 10) :=
    SameBut.trans (SameBut.trans (State.pmcTo_same u _ _) (SameBut.mono' (State.record_same _ _ _ _ _) rfl)) (SameBut.mono' (State.irq_same _ _ _) rfl)
  by_cases ok : s.resumeHash = s.pmc.hash
  · let u := s.updCore 0 fun k => { k with running := true, startPc := (s.reg R.PMC_RESUME_LO).toNat + 2 ^ 32 * (s.reg R.PMC_RESUME_HI).toNat }
    have run : exec .pmcWakeDone s = .next (((u.pmcTo .standby (if bit (u.reg R.PMC_WAKE_TGT) 0 then .eco else .run)).record .pmc 0 0x0312
        [s.pmc.wakeCause, s.pmc.wakeStat]).irq .pmc 10) := by
      refine congrArg Host.Outcome.next ((if_neg due).trans ?_)
      simp only [ok, decide_true, if_true]
      rfl
    exact ⟨_, u, run, finish u _ _, by rw [State.pmc_irq, State.pmc_record, State.pmc_pmcTo]; rfl, (if_pos ok).symm⟩
  · let u : State := { (s.updCore 0 fun k => { k with running := true, startPc := 0 }) with erm := { s.erm with phase := 3 }, sys := { s.sys with romAlive := true } }
    have run : exec .pmcWakeDone s = .next (((u.pmcTo .standby (if bit (u.reg R.PMC_WAKE_TGT) 0 then .eco else .run)).record .pmc 0 0x0312
        [s.pmc.wakeCause, s.pmc.wakeStat]).irq .pmc 10) := by
      refine congrArg Host.Outcome.next ((if_neg due).trans ?_)
      simp only [ok, decide_false, Bool.false_eq_true, if_false]
      rfl
    exact ⟨_, u, run, finish u _ _, by rw [State.pmc_irq, State.pmc_record, State.pmc_pmcTo]; rfl, (if_neg ok).symm⟩

theorem pmcWakeDone_resumes (ok : s.resumeHash = s.pmc.hash) : ∃ t, exec .pmcWakeDone s = .next t ∧
    t.pmc.st = (if bit (s.reg R.PMC_WAKE_TGT) 0 then .eco else .run) ∧ (t.core 0).running = true ∧
    (t.core 0).startPc = (s.reg R.PMC_RESUME_LO).toNat + 2 ^ 32 * (s.reg R.PMC_RESUME_HI).toNat ∧ t.sys = s.sys := by
  obtain ⟨t, u, run, same, mode, own⟩ := pmcWakeDone_run st from_ todo trans locked
  rw [if_pos ok] at own
  subst own
  refine ⟨t, run, mode, ?_, ?_, Part.of_same (x := .sys) same rfl⟩ <;> rw [State.core_of_same same rfl, State.core_updCore_same]

theorem pmcWakeDone_boots (bad : s.resumeHash ≠ s.pmc.hash) : ∃ t, exec .pmcWakeDone s = .next t ∧ (t.core 0).startPc = 0 ∧ t.erm.phase = 3 ∧
    t.sys.romAlive = true := by
  obtain ⟨t, u, run, same, -, own⟩ := pmcWakeDone_run st from_ todo trans locked
  rw [if_neg bad] at own
  refine ⟨t, run, ?_, ?_, ?_⟩
  · rw [State.core_of_same same rfl, own]
    exact congrArg Core.startPc (State.core_updCore_same s 0 _)
  · rw [Part.of_same (x := .erm) same rfl, own]
  · rw [Part.of_same (x := .sys) same rfl, own]

end

end

end Sys2Proof.Machine
end

section
namespace Sys2Proof.Machine

/-- Settles O55: each command, answer and wake by its case. -/
theorem powerControllerFollowsTablePmc3 : Obligations.PowerControllerFollowsTablePmc3 := by
  unfold Obligations.PowerControllerFollowsTablePmc3
  intro s p
  refine ⟨fun writes busy => ?busy, fun writes idle => ?commands, fun wfi busy h b c l hs ask => ?answers,
    fun wfi busy h b d hs ask still dom agree => pmcHandshakeAnswer_last hs ask rfl dom agree,
    fun h b t0 => pmcWaitTimeout_rollsBack, fun h => pmcRollbackDone_restores, fun none_ => ?nothing, fun i code listed => ?wakes, fun n => rfl, fun n => rfl,
    fun writes idle d => ⟨fun low high => pmcDomOn_starts writes idle low high, fun low high => pmcDomOn_refuses writes idle low high,
      fun on required low high => pmcDomOff_refuses writes idle low high on required, fun on alone low high => pmcDomOff_asks writes idle low high on alone⟩,
    fun d net el => ⟨domainPowerUpDone_idle, fun trans _ run ready time _ mem cpuA cpuB _ down => ?ups⟩,
    fun st from_ todo trans locked => pmcWakeDone_resumes st from_ todo trans locked, fun st from_ todo trans locked => pmcWakeDone_boots st from_ todo trans locked,
    fun awake => congrArg Host.Outcome.next (if_pos (.inl awake))⟩
  case busy =>
    have refuses {i : Instr} (run : exec i s = .next (s.pmcResult errPmcBusy)) : s.PmcRefuses i 0x20 := State.pmcRefuses_of_result (by decide) run
    exact ⟨refuses (congrArg Host.Outcome.next (State.pmcCmd_busy writes busy)), refuses (congrArg Host.Outcome.next (State.pmcCmd_busy writes busy)),
      refuses (congrArg Host.Outcome.next (State.pmcCmd_busy writes busy)), refuses (congrArg Host.Outcome.next (State.pmcCmd_busy writes busy))⟩
  case commands =>
    have lists {st : PSt} (from_ : st = .run ∨ st = .eco) : [PSt.run, .eco].contains st = true := by rcases from_ with h | h <;> simp [h]
    refine ⟨fun run => congrArg Host.Outcome.next (State.pmcCmd_there writes idle run), fun st => ?_, pmcRun_fromEco writes idle, fun from_ some_ => ?_, fun from_ some_ => ?_,
      fun run b l asks => ?_⟩
    · exact ⟨State.pmcRefuses_of_result (by decide) (congrArg Host.Outcome.next (State.pmcCmd_unlisted writes idle (by simp [st]) (by simp [st]))),
        State.pmcRefuses_of_result (by decide) (congrArg Host.Outcome.next (State.pmcCmd_unlisted writes idle (by simp [st]) (by simp [st])))⟩
    · have away : s.pmc.st ≠ .standby := by rcases from_ with h | h <;> simp [h]
      exact ⟨_, congrArg Host.Outcome.next (State.pmcEnter writes idle away (lists from_) some_), rfl, rfl, rfl, rfl, rfl, State.updPmc_same s _⟩
    · have away : s.pmc.st ≠ .hibernate := by rcases from_ with h | h <;> simp [h]
      exact ⟨_, congrArg Host.Outcome.next (State.pmcEnter writes idle away (lists from_) some_), rfl, rfl, rfl, State.updPmc_same s _⟩
    · have asked : s.asked (s.pmc.on.filter fun d => bit (s.reg R.PMC_ECO_MASK) d) false = b :: l := by
        simpa only [State.asked, Bool.false_and, Bool.false_or] using asks
      have enters := State.pmcEnter writes (code := 2) (tgt := .eco) (from_ := [.run]) idle (by simp [run]) (by simp [run]) (by rw [asked]; exact List.cons_ne_nil _ _)
      rw [asked] at enters
      exact ⟨_, congrArg Host.Outcome.next enters, rfl, rfl, rfl, State.updPmc_same s _⟩
  case answers =>
    refine ⟨fun agree still stops => ?_, pmcHandshakeAnswer_refuses hs ask, pmcHandshakeAnswer_waits hs ask⟩
    exact (pmcHandshakeAnswer_agrees hs ask agree still stops).trans (congrArg Host.Outcome.next (if_neg (List.cons_ne_nil _ _)))
  case nothing =>
    refine ⟨fun a b => ?_, ?_, ?_⟩
    · show execPmcHandshakeAnswer a b s = _
      rw [execPmcHandshakeAnswer, none_]
    · show execPmcWaitTimeout s = _
      rw [execPmcWaitTimeout, none_]
    · show execPmcRollbackDone s = _
      rw [execPmcRollbackDone, none_]
  case wakes =>
    have source : exec i s = .next (s.wakeSource code) := by
      simp only [List.mem_cons, List.not_mem_nil, or_false, Prod.mk.injEq] at listed
      rcases listed with ⟨rfl, rfl⟩ | ⟨rfl, rfl⟩ | ⟨rfl, rfl⟩ | ⟨rfl, rfl⟩ | ⟨rfl, rfl⟩ | ⟨rfl, rfl⟩ | ⟨rfl, rfl⟩ <;> rfl
    rw [source]
    exact ⟨fun masked => congrArg Host.Outcome.next (State.wakeSource_masked masked), fun enabled first =>
      ⟨fun awake => congrArg Host.Outcome.next (State.wakeSource_awake first awake), fun st => ⟨_, rfl, State.wakeSource_standby enabled first st⟩,
        fun st => ⟨_, rfl, State.wakeSource_hibernate enabled first st⟩, fun st hs => ⟨_, rfl, State.wakeSource_entering enabled first st hs⟩⟩⟩
  case ups =>
    exact domainPowerUpDone_ups trans run ready (by simp [domCores, cpuA, cpuB]) time mem down

end Sys2Proof.Machine
end

section
/-!
SUPPORT. The host interface: its link, its rings and its windows (R423–R429).
-/

namespace Sys2Proof.Machine

section
variable {s : State}

@[simp] theorem State.hif_irq (s : State) (b : Block) (i : Nat) : (s.irq b i).hif = s.hif := Part.of_same (x := .hif) (State.irq_same s b i) rfl

@[simp] theorem State.hif_err (s : State) (b : Block) (e : Nat) : (s.err b e).hif = s.hif := Part.of_same (x := .hif) (State.err_same s b e) rfl

@[simp] theorem State.hif_record (s : State) (b : Block) (inst code : Nat) (ps : List Nat) : (s.record b inst code ps).hif = s.hif :=
  Part.of_same (x := .hif) (State.record_same s b inst code ps) rfl

theorem State.ring_congr {t : State} (h : t.hif = s.hif) (n : Nat) : t.ring n = s.ring n := by rw [State.ring, h, State.ring]

@[simp] theorem State.ring_updRing_same (s : State) (n : Nat) (f : Ring → Ring) : (s.updRing n f).ring n = f (s.ring n) := Tab.get_upd_same _ _ _ _

theorem State.updRing_same (s : State) (n : Nat) (f : Ring → Ring) : SameBut [.hif] s (s.updRing n f) := State.updHif_same s _

/-! ### The link (R423, R428) -/

/-- A fence leaves of its block's header all but the pending commit. -/
theorem State.hd_fenceCommit_eq (s : State) (b : Block) : (s.fenceCommit b).hd b = { s.hd b with commitPending := false } := by
  unfold State.fenceCommit
  split
  · exact State.hd_discardCommit s b
  next calm => rw [← Bool.not_eq_true _ |>.mp calm]

/-- What a reset of the interface does once EN of every ring is 0 (R428). -/
def State.hifFence (s : State) (cause : Nat) : State :=
  let u := (s.updHif fun h => { h with rings := [], msi := [], busMaster := false }).setReg R.HIF_AP_BASE 0
  let v := ((u.record .hif 0 0x1711 [cause]).err .hif errHifLinkDown).irq .hif 9
  (v.fenceCommit .hif).updHd .hif fun h => if h.pwr = .on then { h with pwr := .fenced } else h

theorem State.hifFence_fences (s : State) (cause : Nat) : (s.hifFence cause).hif = { s.hif with rings := [], msi := [], busMaster := false } ∧
    (s.hifFence cause).reg R.HIF_AP_BASE = 0 ∧ ((s.hifFence cause).hd .hif).errCode = 0x1723 ∧
    ((s.hd .hif).pwr = .on → ((s.hifFence cause).hd .hif).pwr = .fenced) := by
  unfold State.hifFence
  extract_lets u v
  have recorded : SameBut [.evr, .hdr, .hts, .out] u v := SameBut.trans (SameBut.trans (SameBut.mono' (State.record_same _ _ _ _ _) rfl)
    (SameBut.mono' (State.err_same _ _ _) rfl)) (SameBut.mono' (State.irq_same _ _ _) rfl)
  have fenced : SameBut [.shadow, .hdr] v ((v.fenceCommit .hif).updHd .hif fun h => if h.pwr = .on then { h with pwr := .fenced } else h) :=
    SameBut.trans (State.fenceCommit_same v _) (SameBut.mono' (State.updHd_same _ _ _) rfl)
  have noted : (v.hd .hif).errCode = 0x1723 := by
    rw [State.hd_irq_same, State.hd_err_same]
    rfl
  have controls : (v.hd .hif).ctl = (s.hd .hif).ctl := by
    rw [State.ctl_irq, State.ctl_err, State.ctl_record]
    rfl
  refine ⟨?_, ?_, ?_, fun on => ?_⟩
  · rw [Part.of_same (x := .hif) fenced rfl, Part.of_same (x := .hif) recorded rfl]
    rfl
  · rw [State.reg_congr (Part.of_same (x := .regs) fenced rfl), State.reg_congr (Part.of_same (x := .regs) recorded rfl)]
    exact State.reg_setReg_same _ _ _
  · rw [State.hd_updHd_same, State.hd_fenceCommit_eq]
    split <;> exact noted
  · have up : (v.hd .hif).pwr = .on := (congrArg Prod.fst controls).trans on
    rw [State.hd_updHd_same, State.hd_fenceCommit_eq, if_pos up]

theorem State.hifReset_clears (s : State) (cause : Nat) : (s.hifReset cause).hif = { s.hif with rings := [], msi := [], busMaster := false } ∧
    (s.hifReset cause).reg R.HIF_AP_BASE = 0 ∧ ((s.hifReset cause).hd .hif).errCode = 0x1723 ∧
    ((s.hd .hif).pwr = .on → ((s.hifReset cause).hd .hif).pwr = .fenced) := by
  have off (l : List Nat) : SameBut [.regs] s (l.foldl (fun s n => s.setReg ⟨.hif, 0x208 + 32 * n⟩ (clrBit (s.ringCfg n) 31)) s) :=
    SameBut.foldl (fun s n => State.setReg_same s _ _) l s
  obtain ⟨hif, base, err, pwr⟩ := State.hifFence_fences ((List.range 8).foldl (fun s n => s.setReg ⟨.hif, 0x208 + 32 * n⟩ (clrBit (s.ringCfg n) 31)) s) cause
  rw [Part.of_same (x := .hif) (off (List.range 8)) rfl] at hif
  rw [State.hd_congr (Part.of_same (x := .hdr) (off (List.range 8)) rfl)] at pwr
  exact ⟨hif, base, err, pwr⟩

/-! ### Rings (R426, R427) -/

theorem State.ringHalt_halts {n cause : Nat} (going : (s.ring n).stopping = false) : ((s.ringHalt n cause).ring n).state = .halted ∧
    ((s.ringHalt n cause).ring n).cause = cause ∧ ((s.ringHalt n cause).hd .hif).errCode = 0x1700 + cause := by
  have ring : (s.ringHalt n cause).ring n = { s.ring n with state := .halted, cause := cause } := by
    rw [State.ringHalt, State.ring_congr (State.hif_irq _ _ _), State.ring_congr (State.hif_err _ _ _), State.ring_congr (State.hif_record _ _ _ _ _),
      State.ring_updRing_same, Ring.halt, if_neg (by simp [going])]
  refine ⟨by rw [ring], by rw [ring], ?_⟩
  rw [State.ringHalt, State.hd_irq_same, State.hd_err_same]
  rfl

/-- The parts that a halt changes. -/
theorem State.ringHalt_same (s : State) (n cause : Nat) : SameBut [.hif, .evr, .hdr, .hts, .out] s (s.ringHalt n cause) :=
  SameBut.trans (SameBut.trans (SameBut.trans (SameBut.mono' (State.updRing_same s n _) rfl) (SameBut.mono' (State.record_same _ _ _ _ _) rfl))
    (SameBut.mono' (State.err_same _ _ _) rfl)) (SameBut.mono' (State.irq_same _ _ _) rfl)

theorem State.ringHostErr_halts {n : Nat} (going : (s.ring n).stopping = false) : ((s.ringHostErr n).ring n).state = .halted ∧ (s.ringHostErr n).mem = s.mem := by
  unfold State.ringHostErr
  dsimp only
  constructor
  · rw [State.ring_congr (State.hif_irq _ _ _), State.ring_congr (State.hif_record _ _ _ _ _), State.ring_updRing_same, Ring.halt,
      if_neg (Bool.eq_false_iff.1 (show (s.draw.2.ring n).stopping = false from going))]
  · exact (Part.of_same (x := .mem) (State.irq_same _ _ _) rfl).trans (Part.of_same (x := .mem) (State.record_same _ _ _ _ _) rfl)

/-- A descriptor that is written back and raises its vector moves no ring. -/
theorem State.ring_descIrq (s : State) (n k : Nat) (d : HDesc) : (s.descIrq n d).ring k = s.ring k := by
  unfold State.descIrq
  split <;> rfl

theorem State.descIrq_same (s : State) (n : Nat) (d : HDesc) : SameBut [.hif] s (s.descIrq n d) := SameBut.ite (State.updHif_same s _) (SameBut.refl _ s)

theorem State.writeBack_same (s : State) (n r t : Nat) : SameBut [.hif] s (s.writeBack n r t) := State.updHif_same s _

theorem State.descNext_same (s : State) (n : Nat) (d : HDesc) : SameBut [.hif] s (s.descNext n d) :=
  SameBut.trans (State.descIrq_same s n d) (State.updRing_same _ _ _)

/-- A good descriptor moves the head by one. -/
theorem State.ring_descNext {n : Nat} {d : HDesc} (going : (s.ring n).stopping = false) :
    (s.descNext n d).ring n = { s.ring n with head := ((s.ring n).head + 1) % max 1 (s.ringSize n) } := by
  rw [State.descNext, State.ring_updRing_same, State.ring_descIrq, if_neg (by simp [going])]

end

end Sys2Proof.Machine
end

section
namespace Sys2Proof.Machine

section
variable {s : State}

theorem pcieLinkUp_trains {rate : Fin 8} {width : Fin 16} {bm : Bool} (on : (s.hd .hif).pwr = .on) : ∃ t, exec (.pcieLinkUp rate width bm) s = .next t ∧
    t.hif = { s.hif with up := true, rate := rate.val, width := width.val, busMaster := bm } ∧ SameBut [.hif, .evr, .hdr, .hts, .out] s t := by
  refine ⟨_, congrArg Host.Outcome.next (if_neg (not_not.2 on)), ?_, ?_⟩
  · rw [State.hif_irq, State.hif_record]
    rfl
  · exact SameBut.trans (SameBut.trans (SameBut.mono' (State.updHif_same s _) rfl) (SameBut.mono' (State.record_same _ _ _ _ _) rfl)) (SameBut.mono' (State.irq_same _ _ _) rfl)

/-! ### Windows (R424, R425) -/

section
variable {b wr : Bool} {off : BitVec 32} {size : Fin 9} {v : BitVec 64} {ue : EccRead}

theorem hostBarAccess_unreachable (gone : s.present .hif = false ∨ s.hif.up = false) : exec (.hostBarAccess b wr off size v ue) s = .next s :=
  congrArg Host.Outcome.next (if_pos (by rcases gone with h | h <;> simp [h]))

section
variable (present : s.present .hif = true) (up : s.hif.up = true)
include present up

theorem hostBarAccess_bar0 : exec (.hostBarAccess false wr off size v ue) s =
    .next (if off.toNat < 0x1000000 then s.bar0 wr off.toNat size.val v.toNat else s) :=
  congrArg Host.Outcome.next ((if_neg (by simp [present, up])).trans (if_neg Bool.false_ne_true))

theorem hostBarAccess_bar2 : exec (.hostBarAccess true wr off size v ue) s = .next (s.bar2 wr off.toNat size.val v.toNat ue) :=
  congrArg Host.Outcome.next ((if_neg (by simp [present, up])).trans (if_pos rfl))

/-- A size that BAR2 does not carry is logged and reads as all ones (R425). -/
theorem hostBarAccess_size (bad : wordAccess off.toNat size.val = false) : ∃ t, exec (.hostBarAccess true false off size v ue) s = .next t ∧
    t.out = 2 ^ (8 * size.val) - 1 ∧ SameBut [.hif, .out] s t ∧ (s.hif.err = none → t.hif.err = some { code := 0x1705, bar := 2, addr := off.toNat }) := by
  let u := s.hifLog 0x1705 2 off.toNat
  have run : exec (.hostBarAccess true false off size v ue) s = .next { u with out := ones size.val } :=
    (hostBarAccess_bar2 present up).trans (congrArg Host.Outcome.next (if_pos (by rw [bad]; rfl)))
  refine ⟨_, run, rfl, SameBut.trans (SameBut.mono' (State.hifLog_same s _ _ _) rfl) (SameBut.mono' (State.setOut_same _ _) rfl), fun empty => ?_⟩
  have logged : u.hif.err = some { code := 0x1705, bar := 2, addr := off.toNat } := by
    simp only [u, State.hifLog, empty]
  exact logged

theorem hostBarAccess_fabric (good : wordAccess off.toNat size.val = true) (handed : s.sys.romAlive = false) : exec (.hostBarAccess true wr off size v ue) s =
    .next (s.fabricAccess (.host 2 off.toNat) .host wr (bits (s.reg R.HIF_AP_BASE) 9 0 * 2 ^ 32 + off.toNat) size.val v.toNat ue) :=
  (hostBarAccess_bar2 present up).trans (congrArg Host.Outcome.next ((if_neg (by simp [good])).trans (if_neg (by simp [handed]))))

end

end

/-! ### Doorbells and descriptors (R426, R427) -/

section
variable {n : Fin 8}

theorem ringDoorbell_run {tail : BitVec 12} (up : s.hif.up = true) (active : (s.ring n.val).state = .active) : exec (.ringDoorbell n tail) s = .next (
    if s.ringSize n.val ≤ tail.toNat ∨ s.ringSize n.val ≤ ((s.ring n.val).tail + s.ringSize n.val - (s.ring n.val).head) % s.ringSize n.val +
        (tail.toNat + s.ringSize n.val - (s.ring n.val).tail) % s.ringSize n.val then s.ringHalt n.val errRingOvr
    else s.updRing n.val fun r => { r with tail := tail.toNat }) :=
  congrArg Host.Outcome.next (if_neg (by simp [up, active]))

section
variable {d : HDesc} {data : List Byte} (busy : s.ringBusy n.val = true) (feed : bit (s.ringCfg n.val) 17 = false)
include busy feed

theorem dmaDescDone_hostErr : exec (.dmaDescDone n d data true) s = .next (s.ringHostErr n.val) :=
  congrArg Host.Outcome.next ((if_neg (by simp [busy, feed])).trans (if_pos rfl))

theorem dmaDescDone_bad (bad : s.descCheck d ≠ 0) : exec (.dmaDescDone n d data false) s =
    .next (((s.writeBack n.val (s.descCheck d) (bits d.d5 31 16)).descIrq n.val d).ringHalt n.val (s.descCheck d)) :=
  congrArg Host.Outcome.next ((if_neg (by simp [busy, feed])).trans ((if_neg Bool.false_ne_true).trans (if_pos bad)))

theorem dmaDescDone_good (good : s.descCheck d = 0) : exec (.dmaDescDone n d data false) s = .next ((
    (if bit (s.ringCfg n.val) 16 then s.hostWrite d.hostAddr ((List.range (bits d.d4 23 0)).map fun k => s.dmaByte (d.devAddr + k))
      else s.dmaIn (s.ringOwner n.val) d.devAddr ((data ++ List.replicate (bits d.d4 23 0) 0).take (bits d.d4 23 0))).writeBack n.val 0 (bits d.d5 31 16)).descNext n.val d) :=
  congrArg Host.Outcome.next ((if_neg (by simp [busy, feed])).trans ((if_neg Bool.false_ne_true).trans (if_neg (not_not.2 good))))

theorem dmaDescDone_in (good : s.descCheck d = 0) (dir : bit (s.ringCfg n.val) 16 = false) (len : data.length = bits d.d4 23 0) :
    exec (.dmaDescDone n d data false) s = .next (((s.dmaIn (s.ringOwner n.val) d.devAddr data).writeBack n.val 0 (bits d.d5 31 16)).descNext n.val d) := by
  rw [dmaDescDone_good busy feed good, dir, ← len, List.take_left]
  rfl

/-- A good descriptor into SRAM: the payload stands there, the head has moved, and no other byte changed. -/
theorem dmaDescDone_sram (going : (s.ring n.val).stopping = false) (good : s.descCheck d = 0) (dir : bit (s.ringCfg n.val) 16 = false)
    (len : data.length = bits d.d4 23 0) (sram : inSram d.devAddr data.length = true) : ∃ t, exec (.dmaDescDone n d data false) s = .next t ∧
      t.load d.devAddr (bits d.d4 23 0) = data ∧ (t.ring n.val).head = ((s.ring n.val).head + 1) % max 1 (s.ringSize n.val) ∧ (t.ring n.val).state = .active ∧
      SameBut [.mem, .hif] s t ∧ ∀ a, (a < d.devAddr ∨ d.devAddr + data.length ≤ a) → t.mem8 a = s.mem8 a := by
  have stored : s.dmaIn (s.ringOwner n.val) d.devAddr data = s.store d.devAddr data := if_pos sram
  have active : (s.ring n.val).state = .active := by
    simp only [State.ringBusy, Bool.and_eq_true, decide_eq_true_eq] at busy
    exact busy.1.2
  let u := (s.store d.devAddr data).writeBack n.val 0 (bits d.d5 31 16)
  have ring : (u.descNext n.val d).ring n.val = { s.ring n.val with head := ((s.ring n.val).head + 1) % max 1 (s.ringSize n.val) } :=
    State.ring_descNext (s := u) going
  have mem : (u.descNext n.val d).mem = (s.store d.devAddr data).mem :=
    (Part.of_same (x := .mem) (State.descNext_same u _ _) rfl).trans (Part.of_same (x := .mem) (State.writeBack_same _ _ _ _) rfl)
  refine ⟨_, dmaDescDone_in busy feed good dir len, ?_⟩
  rw [stored]
  refine ⟨?_, by rw [ring], by rw [ring]; exact active, ?_, fun a out => ?_⟩
  · have loaded := State.load_store s d.devAddr data
    rw [len] at loaded
    rw [State.load, mem]
    exact loaded
  · exact SameBut.trans (SameBut.mono' (State.store_same s _ _) rfl) (SameBut.trans (SameBut.mono' (State.writeBack_same _ _ _ _) rfl)
      (SameBut.mono' (State.descNext_same _ _ _) rfl))
  · rw [State.mem8, mem]
    exact State.mem8_store_out s d.devAddr data out

/-- A good descriptor out of the device writes host memory. -/
theorem dmaDescDone_out (going : (s.ring n.val).stopping = false) (good : s.descCheck d = 0) (dir : bit (s.ringCfg n.val) 16 = true) :
    ∃ t, exec (.dmaDescDone n d data false) s = .next t ∧ (t.ring n.val).head = ((s.ring n.val).head + 1) % max 1 (s.ringSize n.val) ∧ SameBut [.hif] s t := by
  have run := dmaDescDone_good (data := data) busy feed good
  rw [if_pos dir] at run
  let u := (s.hostWrite d.hostAddr ((List.range (bits d.d4 23 0)).map fun k => s.dmaByte (d.devAddr + k))).writeBack n.val 0 (bits d.d5 31 16)
  have ring : (u.descNext n.val d).ring n.val = { s.ring n.val with head := ((s.ring n.val).head + 1) % max 1 (s.ringSize n.val) } :=
    State.ring_descNext (s := u) going
  exact ⟨_, run, congrArg Ring.head ring, SameBut.trans (State.updHif_same s _) (SameBut.trans (State.writeBack_same _ _ _ _) (State.descNext_same _ _ _))⟩

theorem dmaDescDone_halts (going : (s.ring n.val).stopping = false) (bad : s.descCheck d ≠ 0) : ∃ t, exec (.dmaDescDone n d data false) s = .next t ∧
    (t.ring n.val).state = .halted ∧ (t.ring n.val).cause = s.descCheck d ∧ t.mem = s.mem := by
  let u := (s.writeBack n.val (s.descCheck d) (bits d.d5 31 16)).descIrq n.val d
  have still : (u.ring n.val).stopping = false := (congrArg Ring.stopping (State.ring_descIrq (s.writeBack n.val (s.descCheck d) (bits d.d5 31 16)) n.val n.val d)).trans going
  obtain ⟨halted, cause, -⟩ := State.ringHalt_halts (s := u) (cause := s.descCheck d) still
  refine ⟨_, dmaDescDone_bad busy feed bad, halted, cause, (Part.of_same (x := .mem) (State.ringHalt_same u _ _) rfl).trans
    ((Part.of_same (x := .mem) (State.descIrq_same _ _ _) rfl).trans (Part.of_same (x := .mem) (State.writeBack_same s _ _ _) rfl))⟩

end

/-! ### Enable and disable (R427) -/

/-- The bits of RING_CFG that are kept hold RING_SIZE as it is. -/
theorem bits_ringCfg (v : Word) : bits (setBit v 31 &&& 0xBF071FFF) 12 0 = bits v 12 0 := by
  have kept : ∀ i : Fin 13, Nat.testBit (word (2 ^ 31)).toNat i.val = false ∧ Nat.testBit (0xBF071FFF : Word).toNat i.val = true := by decide
  unfold bits bitsN setBit
  rw [Nat.pow_zero, Nat.div_one, Nat.div_one]
  refine Nat.eq_of_testBit_eq fun i => ?_
  simp only [Nat.testBit_mod_two_pow, BitVec.toNat_and, BitVec.toNat_or, Nat.testBit_and, Nat.testBit_or]
  by_cases low : i < 13
  · obtain ⟨set, mask⟩ := kept ⟨i, low⟩
    rw [set, mask, Bool.or_false, Bool.and_true]
  · simp [low]
section
variable {p : Principal} (writes : s.writeOk .hif (0x208 + 32 * n.val) .rw p = true)
include writes

theorem ringEnable_run {v : Word} : exec (.ringEnable p n v) s = .next (
    if bits v 12 0 < 16 ∨ 4096 < bits v 12 0 then s.err .hif errValueRange
    else if (s.ring n.val).state ≠ .off then
      (if clrBit (setBit v 31 &&& 0xBF071FFF) 31 = clrBit (s.reg ⟨.hif, 0x208 + 32 * n.val⟩) 31 then s else s.err .hif errCfgLocked)
    else (s.setReg ⟨.hif, 0x208 + 32 * n.val⟩ (setBit v 31 &&& 0xBF071FFF)).updRing n.val fun _ => { state := .active }) := by
  refine congrArg Host.Outcome.next ((State.gated_ok _ _ writes).trans ?_)
  dsimp only
  rw [bits_ringCfg]

theorem ringDisable_run : exec (.ringDisable p n) s = .next ((s.setReg ⟨.hif, 0x208 + 32 * n.val⟩ (clrBit (s.ringCfg n.val) 31)).updRing n.val fun _ =>
    if (s.ring n.val).state = .active ∧ (s.ring n.val).head ≠ (s.ring n.val).tail then { s.ring n.val with stopping := true } else {}) :=
  congrArg Host.Outcome.next (State.gated_ok _ _ writes)

/-- The disable changes its ring and RING_CFG alone. -/
theorem ringDisable_leaves (r : Ring) (own : (if (s.ring n.val).state = .active ∧ (s.ring n.val).head ≠ (s.ring n.val).tail then { s.ring n.val with stopping := true } else {}) = r) :
    ∃ t, exec (.ringDisable p n) s = .next t ∧ t.ring n.val = r ∧ SameBut [.hif, .regs] s t :=
  ⟨_, ringDisable_run writes, (State.ring_updRing_same _ _ _).trans own,
    SameBut.trans (SameBut.mono' (State.setReg_same s _ _) rfl) (SameBut.mono' (State.updRing_same _ _ _) rfl)⟩

end

end

end

/-- Settles O52: the link's resets, each window, each ring by its case. -/
theorem hostInterfaceCommands : Obligations.HostInterfaceCommands := by
  unfold Obligations.HostInterfaceCommands
  intro s
  refine ⟨fun rate width bm => pcieLinkUp_trains, fun up => ?resets, fun down => ?down, fun b wr off size v ue => ⟨hostBarAccess_unreachable, fun present up => ?windows⟩,
    fun n => ⟨fun tail up active => ?doorbell, fun quiet tail => ?quiet, fun d data busy feed going => ?descriptor, fun idle d data e => ?idle, fun p v writes => ?enable,
      fun p writes => ?disable⟩, fun p v writes => ?msi⟩
  case resets =>
    obtain ⟨hif, base, err, pwr⟩ := State.hifReset_clears (s.updHif fun h => { h with up := false, rate := 0, width := 0 }) 0
    obtain ⟨hif1, base1, -, pwr1⟩ := State.hifReset_clears s 1
    obtain ⟨hif2, base2, -, pwr2⟩ := State.hifReset_clears s 2
    exact ⟨⟨_, congrArg Host.Outcome.next (if_pos up), congrArg Hif.up hif, congrArg Hif.rings hif, congrArg Hif.msi hif, base, err, pwr⟩,
      ⟨_, congrArg Host.Outcome.next (if_pos up), congrArg Hif.rings hif1, base1, pwr1⟩, ⟨_, congrArg Host.Outcome.next (if_pos up), congrArg Hif.rings hif2, base2, pwr2⟩⟩
  case down =>
    have same : ¬ s.hif.up = true := by simp [down]
    exact ⟨congrArg Host.Outcome.next (if_neg same), congrArg Host.Outcome.next (if_neg same), congrArg Host.Outcome.next (if_neg same)⟩
  case windows =>
    refine ⟨fun beyond => ?_, fun within => ?_, fun within => ?_, hostBarAccess_size present up, hostBarAccess_fabric present up⟩
    · exact (hostBarAccess_bar0 present up).trans (congrArg Host.Outcome.next (if_neg (Nat.not_lt.2 beyond)))
    · exact (hostBarAccess_bar0 present up).trans (congrArg Host.Outcome.next (if_pos within))
    · exact ⟨_, (hostBarAccess_bar0 present up).trans (congrArg Host.Outcome.next (if_pos within)), rfl⟩
  case doorbell =>
    have run := ringDoorbell_run (tail := tail) up active
    refine ⟨fun inside room => run.trans (congrArg Host.Outcome.next (if_neg ?_)), fun going past => ?_⟩
    · exact not_or.2 ⟨Nat.not_le.2 inside, Nat.not_le.2 room⟩
    · exact ⟨_, run.trans (congrArg Host.Outcome.next (if_pos past)), State.ringHalt_halts going⟩
  case quiet => exact congrArg Host.Outcome.next (if_pos (.inr quiet))
  case descriptor =>
    exact ⟨dmaDescDone_in busy feed, dmaDescDone_sram busy feed going, dmaDescDone_out busy feed going, dmaDescDone_halts busy feed going,
      ⟨_, dmaDescDone_hostErr busy feed, State.ringHostErr_halts going⟩⟩
  case idle => exact congrArg Host.Outcome.next (if_pos (.inl (by rw [idle]; rfl)))
  case enable =>
    have run := ringEnable_run (v := v) writes
    refine ⟨fun low high off => run.trans (congrArg Host.Outcome.next ((if_neg (by omega)).trans (if_neg (not_not.2 off)))), fun bad => ?_⟩
    exact ⟨_, run.trans (congrArg Host.Outcome.next (if_pos bad)), State.hif_err _ _ _, congrArg Hdr.errCode (State.hd_err_same s .hif errValueRange)⟩
  case disable =>
    refine ⟨fun rests => ringDisable_leaves writes _ (if_neg fun h => ?_), fun active open_ => ringDisable_leaves writes _ (if_pos ⟨active, open_⟩)⟩
    exact rests.elim (absurd h.1) h.2
  case msi =>
    have run : exec (.hifMsiSend p v) s = .next (if s.hif.up then s.msi v.val else s) := congrArg Host.Outcome.next (State.gated_ok _ _ writes)
    exact ⟨fun up => run.trans (congrArg Host.Outcome.next (if_pos up)), fun down => run.trans (congrArg Host.Outcome.next (if_neg (by simp [down])))⟩

end Sys2Proof.Machine
end

section
/-!
SUPPORT. Start-up, resets and supplies (R463–R469): what a raised error leaves of the error manager and of the domains, a domain that has powered up with its cores, the device after a full
reset.
-/

namespace Sys2Proof.Machine

/-! ### What an error leaves of the error manager (R463–R469) -/

/-- Start-up, the resets and the supplies: the error manager without the errors in handling. -/
def Erm.boot (e : Erm) : Erm := { e with cur := none, queue := [], cnt := [], fatal := false, fatalLog := none, errNLow := false }

theorem Erm.boot_promote (a : Bool) : ∀ (n : Nat) (e : Erm), (Erm.promote a n e).boot = e.boot
  | 0, _ => rfl
  | n + 1, e => by
    rw [Erm.promote]
    split
    · split
      · exact Erm.boot_promote a n _
      · rfl
    · split
      · rfl
      · exact Erm.boot_promote a n _

theorem Erm.boot_driveErrN (e : Erm) : e.driveErrN.boot = e.boot := by
  rw [Erm.driveErrN_eq]
  rfl

theorem Erm.boot_preemptQueued (e : Erm) (code : Nat) : (e.preemptQueued code).boot = e.boot := by
  unfold Erm.preemptQueued
  split
  · split <;> rfl
  · rfl

section
variable (s : State)

theorem State.boot_settleErm : s.settleErm.erm.boot = s.erm.boot := by
  rw [State.erm_settleErm, Erm.boot_driveErrN, Erm.boot_promote]

theorem State.boot_fatalError (code src cause : Nat) : (s.fatalError code src cause).erm.boot = s.erm.boot := by
  unfold State.fatalError
  split
  · rfl
  · rw [State.fatalReaction, State.erm_fatalOutputs, ← State.erm_record s .erm 0 0x0412 [code, src, cause]]
    rfl

theorem State.boot_handleError (code src : Nat) (sev : Severity) : (s.handleError code src sev).erm.boot = s.erm.boot := by
  unfold State.handleError
  split
  · exact State.boot_fatalError s _ _ _
  · split
    next x _ =>
      split
      · rfl
      · extract_lets nsev s1 s2 e s3
        have before : s1.erm = s.erm := State.erm_record s .erm 0 0x0411 _
        have recorded : s2.erm.boot = s.erm.boot := (show s2.erm.boot = s1.erm.boot from rfl).trans (congrArg Erm.boot before)
        split
        · rw [State.boot_fatalError, recorded]
        · have moved : s3.erm.boot = s.erm.boot := (Erm.boot_driveErrN _).trans ((Erm.boot_preemptQueued _ code).trans recorded)
          split
          · rw [State.erm_irq, moved]
          · exact moved
    next =>
      extract_lets x
      split
      · rw [State.boot_settleErm, State.erm_irq]
        rfl
      · split
        · exact State.boot_fatalError s _ _ _
        · split
          · rw [State.boot_settleErm, State.erm_irq]
            rfl
          · rfl

/-- A raised error leaves start-up, the resets and the supplies as they are. -/
theorem State.boot_raise (b : Block) (inst code : Nat) (sev : Severity) : (s.raise b inst code sev).erm.boot = s.erm.boot := by
  unfold State.raise
  extract_lets src e s1
  split
  · rfl
  · split
    · rw [State.boot_handleError, State.erm_record]
      rfl
    · split
      · exact State.boot_handleError s1 _ _ _
      · rfl

theorem State.boot_raiseNoCode (b : Block) (inst : Nat) (sev : Severity) : (s.raiseNoCode b inst sev).erm.boot = s.erm.boot := State.boot_raise s.draw.2 b inst _ sev

/-! ### What an error leaves of the domains and of a header -/

/-- A raised error switches no domain. -/
theorem State.on_raise (b : Block) (inst code : Nat) (sev : Severity) : (s.raise b inst code sev).pmc.on = s.pmc.on := by
  have closed : RaiseClosed fun t => t.pmc.on = s.pmc.on :=
    { erm := fun _ _ h => h
      irq := fun t b i h => (congrArg Pmc.on (State.pmc_irq t b i)).trans h
      record := fun t b i c ps h => (congrArg Pmc.on (State.pmc_record t b i c ps)).trans h
      outputs := fun t h => by
        have before : (((t.padsLow).fioSilence).safFatal).laneHalt.pmc = t.pmc :=
          (Part.of_same (x := .pmc) (State.safFatal_same _) rfl).trans (Part.of_same (x := .pmc) (State.fioSilence_same _) rfl)
        have kept (u : State) : (u.pmcRollback 0 4).pmc.on = u.pmc.on := by
          cases hs : u.pmc.hs with
          | none => rw [State.pmcRollback, hs]
          | some h => obtain ⟨r, pmc⟩ := State.pmc_pmcRollback hs 0 4; rw [pmc]
        exact (kept _).trans ((congrArg Pmc.on before).trans h) }
  exact closed.raise rfl b inst code sev

/-- The power state and RUNNING of a block. -/
def Hdr.power (h : Hdr) : Pwr × Bool := (h.pwr, h.running)

@[simp] theorem State.power_irq (a b : Block) (i : Nat) : ((s.irq a i).hd b).power = (s.hd b).power := by
  by_cases own : b = a
  · subst own
    rw [State.hd_irq_same]
    rfl
  · rw [State.hd_irq_ne s i own]

@[simp] theorem State.power_record (a b : Block) (inst code : Nat) (ps : List Nat) : ((s.record a inst code ps).hd b).power = (s.hd b).power := by
  unfold State.record
  dsimp only
  split
  · exact State.power_irq _ _ _ _
  · rfl

/-- The outputs of the FATAL reaction touch no header. -/
theorem State.hdr_fatalOutputs : s.fatalOutputs.hdr = s.hdr := Part.of_same (x := .hdr) (State.fatalOutputs_same s) rfl

theorem State.power_raise (a b : Block) (inst code : Nat) (sev : Severity) : ((s.raise a inst code sev).hd b).power = (s.hd b).power :=
  RaiseClosed.raise (P := fun t => (t.hd b).power = (s.hd b).power)
    { erm := fun _ _ h => h
      irq := fun t a i h => (State.power_irq t a b i).trans h
      record := fun t a i c ps h => (State.power_record t a b i c ps).trans h
      outputs := fun t h => (congrArg Hdr.power (State.hd_congr (State.hdr_fatalOutputs t) b)).trans h } rfl a inst code sev

end

end Sys2Proof.Machine
end

section
/-!
SUPPORT. A domain that has powered up, with its cores and the time unit (R360, R454).
-/

namespace Sys2Proof.Machine

section
variable (s : State)

/-! ### A domain has powered up, its cores and the time unit with it (R360, R454) -/

theorem State.coarseLeave_same (net el : Nat) : SameBut [.tim, .evr, .hdr, .hts, .out] s (s.coarseLeave net el) := by
  unfold State.coarseLeave
  have moved (f : Tim → Tim) : SameBut [.tim, .evr, .hdr, .hts, .out] s (s.updTim f) := SameBut.mono' (State.updTim_same s f) rfl
  have recorded (t : State) (code : Nat) (ps : List Nat) : SameBut [.tim, .evr, .hdr, .hts, .out] t (t.record .tim 0 code ps) :=
    SameBut.mono' (State.record_same t _ _ _ _) rfl
  exact SameBut.ite (SameBut.refl _ s) (SameBut.trans (moved _) (SameBut.trans (SameBut.ite (recorded _ _ _) (SameBut.refl _ _)) (recorded _ _ _)))

theorem State.servoRestart_same : SameBut [.tim, .evr, .hdr, .hts, .out] s s.servoRestart := by
  have moved (f : Tim → Tim) : SameBut [.tim, .evr, .hdr, .hts, .out] s (s.updTim f) := SameBut.mono' (State.updTim_same s f) rfl
  exact SameBut.ite (moved _) (SameBut.trans (moved _) (State.servoTo_same _ _))

theorem State.timUp_same (net el : Nat) : SameBut [.tim, .evr, .hdr, .hts, .out] s (s.timUp net el) :=
  SameBut.trans (SameBut.ite (SameBut.mono' (State.updTim_same s _) rfl) (State.coarseLeave_same s _ _)) (State.servoRestart_same _)

theorem State.resetCore_same (c : Nat) : SameBut [.cpu, .evr, .hdr, .hts, .out] s (s.resetCore c) :=
  SameBut.trans (SameBut.mono' (State.redeliver_same s c) rfl) (SameBut.mono' (State.updCore_same _ c _) rfl)

/-- The parts that a domain's power-up may change, before TIME_DEGRADED follows it. -/
def upParts : List Part := [.rsq, .hrc, .can, .regs, .evr, .hdr, .hts, .out, .mir, .pmc, .tim, .cpu]

/-- The domains with another one up. -/
def Pmc.up (x : Pmc) (d : Nat) : Pmc := { x with on := domInsert d x.on, trans := x.trans.filter fun y => decide (y ≠ d) }

theorem mem_domInsert {d : Nat} (lt : d < 16) (l : List Nat) : d ∈ domInsert d l := List.mem_filter.2 ⟨List.mem_range.2 lt, by simp⟩

theorem State.domUp_follows (d net el : Nat) : ∃ u, s.domUp d net el = u.degFollow ∧ SameBut upParts s u ∧ u.pmc = s.pmc.up d := by
  unfold State.domUp
  extract_lets s1 own s2 s3 s4 s5
  refine ⟨_, rfl, ?_, ?_⟩
  · have ups : SameBut upParts s s1 := SameBut.mono' (State.hdrUps_same s _) rfl
    have on : SameBut upParts s1 s2 := SameBut.mono' (State.updPmc_same s1 (fun x => x.up d)) rfl
    have time : SameBut upParts s2 s3 := SameBut.ite (SameBut.mono' (State.timUp_same s2 _ _) rfl) (SameBut.refl _ _)
    have started : SameBut upParts s3 s4 := SameBut.foldl (fun s b => SameBut.mono' (State.blkStart_same s b) rfl) _ s3
    have cores : SameBut upParts s4 s5 := SameBut.foldl (fun s c => SameBut.ite (SameBut.mono' (State.resetCore_same s c) rfl) (SameBut.refl _ _)) _ s4
    exact SameBut.trans ups (SameBut.trans on (SameBut.trans time (SameBut.trans started (SameBut.trans cores (SameBut.mono' (State.record_same _ _ _ _ _) rfl)))))
  · have ups : s1.pmc = s.pmc := Part.of_same (x := .pmc) (State.hdrUps_same s _) rfl
    have on : s2.pmc = s.pmc.up d := congrArg (fun x : Pmc => x.up d) ups
    have time : s3.pmc = s2.pmc := Part.of_same (x := .pmc) (SameBut.ite (State.timUp_same s2 _ _) (SameBut.refl _ _)) rfl
    have started : s4.pmc = s3.pmc := Part.of_same (x := .pmc) (SameBut.foldl (fun s b => State.blkStart_same s b) _ s3) rfl
    have cores : s5.pmc = s4.pmc := Part.of_same (x := .pmc)
      (SameBut.foldl (fun s c => SameBut.ite (State.resetCore_same s c) (SameBut.refl _ _)) _ s4) rfl
    rw [State.domRecord, State.pmc_record, cores, started, time, on]

theorem State.domUp_same (d net el : Nat) : SameBut (.clk :: upParts) s (s.domUp d net el) := by
  obtain ⟨u, up, same, -⟩ := State.domUp_follows s d net el
  rw [up]
  exact SameBut.trans (SameBut.mono' same rfl) (SameBut.mono' (State.degFollow_same u) rfl)

theorem State.pmc_domUp (d net el : Nat) : (s.domUp d net el).pmc = s.pmc.up d := by
  obtain ⟨u, up, -, on⟩ := State.domUp_follows s d net el
  rw [up, State.pmc_degFollow, on]

/-- A power-up leaves the domain clocks as they are. -/
theorem State.dom_domUp (d net el k : Nat) : (s.domUp d net el).clk.dom k = s.clk.dom k := by
  obtain ⟨u, up, same, -⟩ := State.domUp_follows s d net el
  rw [up, State.dom_degFollow]
  exact congrArg (fun x : Clk => x.dom k) (Part.of_same (x := .clk) same rfl)

theorem State.running_resetCore (c : Nat) : ((s.resetCore c).core c).running = bit (s.reg R.CPU_CORE_EN) c := by
  rw [State.resetCore, State.core_updCore_same]

theorem State.core_resetCore_ne {c d : Nat} (other : d ≠ c) : (s.resetCore c).core d = s.core d := by
  rw [State.resetCore, State.core_updCore_ne _ _ other, State.core_of_same (State.redeliver_same s c) rfl]

/-- Core 0 runs once PD_CPUA is up, where its bit of CPU_CORE_EN is set. -/
theorem State.running_domUp_cpua (en : bit (s.reg R.CPU_CORE_EN) 0 = true) (net el : Nat) : ((s.domUp 1 net el).core 0).running = true := by
  unfold State.domUp
  extract_lets s1 own s2 s3 s4 s5
  have regs : s4.regs = s.regs := rfl
  have kept (t : State) (c : Nat) (pos : 0 ≠ c) : ((if bit (t.reg R.CPU_CORE_EN) c then t.resetCore c else t).core 0).running = (t.core 0).running := by
    split
    · rw [State.core_resetCore_ne t pos]
    · rfl
  have on : bit (s4.reg R.CPU_CORE_EN) 0 = true := by rw [State.reg_congr regs, en]
  have first : ((if bit (s4.reg R.CPU_CORE_EN) 0 then s4.resetCore 0 else s4).core 0).running = true := by
    rw [if_pos on, State.running_resetCore, on]
  have cores : (s5.core 0).running = true := by
    simp only [s5, domCores, if_pos, List.foldl_cons, List.foldl_nil]
    rw [kept _ 3 (by decide), kept _ 2 (by decide), kept _ 1 (by decide), first]
  rw [State.core_of_same (State.degFollow_same _) rfl, State.domRecord, State.core_of_same (State.record_same _ _ _ _ _) rfl, cores]

end
end Sys2Proof.Machine
end

section
/-!
SUPPORT. A full device reset (R30, R31, R466): what it empties and what it leaves.
-/

namespace Sys2Proof.Machine

section
variable (s : State)

theorem State.evrAccept_same (r : EvRec) : SameBut [.evr, .hdr, .hts, .out] s (s.evrAccept r) := by
  have taken : SameBut [.evr, .hdr, .hts, .out] s { s with evr := s.evr.accept r } := fun x hx => by cases x <;> first | rfl | exact absurd hx (by decide)
  exact SameBut.ite (SameBut.trans taken (SameBut.mono' (State.irq_same _ _ _) rfl)) taken

theorem State.evrRelease_same (auto : Bool) : SameBut [.evr, .hdr, .hts, .out] s (s.evrRelease auto) := by
  have own (e : State → Evr) (t : State) : SameBut [.evr, .hdr, .hts, .out] t { t with evr := e t } := fun x hx => by
    cases x <;> first | rfl | exact absurd hx (by decide)
  unfold State.evrRelease
  split
  · exact SameBut.refl _ s
  · exact SameBut.trans (own (fun t => { t.evr with frozenAt := none }) s) (SameBut.trans (SameBut.ite (State.evrAccept_same _ _) (SameBut.refl _ _))
      (SameBut.trans (SameBut.ite (State.evrAccept_same _ _) (SameBut.refl _ _))
      (SameBut.trans (SameBut.foldl (fun t r => State.evrAccept_same t r) _ _) (own (fun t => { t.evr with safeBuf := [] }) _))))

theorem State.coarseEnter_same : SameBut [.tim, .evr, .hdr, .hts, .out] s s.coarseEnter := by
  have moved (t : State) (f : Tim → Tim) : SameBut [.tim, .evr, .hdr, .hts, .out] t (t.updTim f) := SameBut.mono' (State.updTim_same t f) rfl
  have recorded (t : State) (code : Nat) (ps : List Nat) : SameBut [.tim, .evr, .hdr, .hts, .out] t (t.record .tim 0 code ps) :=
    SameBut.mono' (State.record_same t _ _ _ _) rfl
  have entered := SameBut.trans (moved s fun t => { t with coarse := true, unc := 31 }) (recorded _ 0x0615 [1, 31])
  exact SameBut.ite (SameBut.refl _ s) (SameBut.ite entered (SameBut.trans entered (SameBut.trans (moved _ _) (recorded _ _ _))))

/-- What a full reset does to a block: the state that it holds is lost, but for PD_AON, the island and the field die. -/
def State.resetBlk (s : State) (b : Block) : State :=
  if domSwitched b then (((s.clearRegs b false).dropMem fun a => decide (b ≠ .mem) && blkWindow b a).dropRefs b).blkData b else s

/-- What a full reset leaves to the error manager, the retention store, the island, the clocks and the queue. -/
def State.aon (s : State) : Erm × Ret × Saf × Clk × List Instr := (s.erm, s.ret, s.saf, s.clk, s.pending)

theorem State.aon_of_same {l : List Part} {s t : State} (same : SameBut l s t) (out : ([Part.erm, .ret, .saf, .clk, .pending].all fun x => !l.contains x) = true) : t.aon = s.aon := by
  have own (x : Part) (mem : x ∈ [Part.erm, .ret, .saf, .clk, .pending]) : x.same s t := same x fun h => by simpa [h] using List.all_eq_true.1 out x mem
  rw [State.aon, show t.erm = s.erm from own .erm (by decide), show t.ret = s.ret from own .ret (by decide), show t.saf = s.saf from own .saf (by decide),
    show t.clk = s.clk from own .clk (by decide), show t.pending = s.pending from own .pending (by decide), State.aon]

theorem State.aon_resetBlk (b : Block) : (s.resetBlk b).aon = s.aon := by
  unfold State.resetBlk
  split
  · cases b <;> rfl
  · rfl

theorem State.aon_resetBlks (l : List Block) : (l.foldl State.resetBlk s).aon = s.aon :=
  List.foldlRecOn l State.resetBlk (motive := fun t => t.aon = s.aon) rfl fun t h b _ => (State.aon_resetBlk t b).trans h

theorem foldl_sets {α β : Type} {f : α → β → α} {P : α → Prop} (keeps : ∀ s b, P s → P (f s b)) {b : β} (sets : ∀ s, P (f s b)) :
    ∀ (l : List β), b ∈ l → ∀ s, P (l.foldl f s) := by
  intro l mem s
  obtain ⟨l1, l2, rfl⟩ := List.append_of_mem mem
  rw [List.foldl_append, List.foldl_cons]
  exact List.foldlRecOn l2 f (sets _) fun t h b _ => keeps t b h

/-- A part that one block's reset empties, and that the reset of every other block leaves, is empty after them all. -/
theorem State.resetBlks_empties {α : Type} {part : State → α} {new : α} {b : Block} (mem : b ∈ Block.all) (sets : ∀ s : State, part (s.resetBlk b) = new)
    (keeps : ∀ (s : State) (c : Block), c ≠ b → part (s.resetBlk c) = part s) : part (Block.all.foldl State.resetBlk s) = new :=
  foldl_sets (P := fun t => part t = new) (fun t c h => by
    by_cases own : c = b
    · rw [own]; exact sets t
    · exact (keeps t c own).trans h) sets Block.all mem s

/-- The switched domains are empty after their reset. -/
theorem State.resetBlks_empty : let t := Block.all.foldl State.resetBlk s
    t.ce = {} ∧ t.xng = {} ∧ t.rsq = {} ∧ t.ptd = {} ∧ t.hts = {} ∧ t.lne = {} ∧ t.ave = {} := by
  have ptd (t : State) (b : Block) (h : t.ptd = {}) : (t.resetBlk b).ptd = {} := by
    have unused (u : State) (c : Block) (h : u.ptd = {}) : (u.dropRefs c).ptd = {} := by rw [State.dropRefs, h]; rfl
    unfold State.resetBlk
    split
    · have dropped := unused ((t.clearRegs b false).dropMem fun a => decide (b ≠ .mem) && blkWindow b a) b h
      cases b <;> first | exact dropped | rfl
    · exact h
  refine ⟨?_, ?_, ?_, foldl_sets (P := fun t => t.ptd = {}) ptd (b := .ptd) (fun _ => rfl) Block.all (by decide) s, ?_, ?_, ?_⟩
  · exact State.resetBlks_empties s (part := State.ce) (b := .ce) (by decide) (fun _ => rfl) fun t c other => by cases c <;> first | rfl | exact absurd rfl other
  · exact State.resetBlks_empties s (part := State.xng) (b := .xng) (by decide) (fun _ => rfl) fun t c other => by cases c <;> first | rfl | exact absurd rfl other
  · exact State.resetBlks_empties s (part := State.rsq) (b := .rsq) (by decide) (fun _ => rfl) fun t c other => by cases c <;> first | rfl | exact absurd rfl other
  · exact State.resetBlks_empties s (part := State.hts) (b := .hts) (by decide) (fun _ => rfl) fun t c other => by cases c <;> first | rfl | exact absurd rfl other
  · exact State.resetBlks_empties s (part := State.lne) (b := .lne) (by decide) (fun _ => rfl) fun t c other => by cases c <;> first | rfl | exact absurd rfl other
  · exact State.resetBlks_empties s (part := State.ave) (b := .ave) (by decide) (fun _ => rfl) fun t c other => by cases c <;> first | rfl | exact absurd rfl other

/-- What a full reset of a device leaves (Table ERM-3): the error manager's cause and count, the domains off and empty, and what PD_AON, the island and the field die keep. -/
def State.ResetBy (s t : State) (cause : Nat) : Prop :=
  t.erm.rstCause = cause ∧ t.erm.rstCount = satInc 0xFFFF s.erm.rstCount ∧ t.erm.phase = 2 ∧ t.erm.cur = none ∧ t.erm.queue = [] ∧
      t.erm.fatal = false ∧ t.erm.cnt = s.erm.cnt ∧ t.pmc.on = [] ∧ t.pmc.st = .run ∧ t.ce = {} ∧ t.xng = {} ∧ t.rsq = {} ∧ t.ptd = {} ∧ t.hts = {} ∧ t.lne = {} ∧ t.ave = {} ∧
      t.cpu = { cores := [] } ∧ t.sys.romAlive = true ∧ t.ret = s.ret ∧ t.saf = s.saf ∧ t.clk.xo = s.clk.xo ∧ t.clk.locked = s.clk.locked ∧ t.clk.doms = [] ∧ t.fio.linkUp = false ∧
      t.pending = s.pending

/-- What a full reset leaves, a record leaves as well where its interrupt is masked. -/
theorem State.ResetBy.of_same {s t u : State} {cause : Nat} (reset : s.ResetBy t cause) (same : SameBut [.evr, .hdr, .hts, .out] t u) (hts : u.hts = t.hts) :
    s.ResetBy u cause := by
  unfold State.ResetBy at reset ⊢
  rw [hts, Part.of_same (x := .erm) same rfl, Part.of_same (x := .pmc) same rfl, Part.of_same (x := .ce) same rfl, Part.of_same (x := .xng) same rfl,
    Part.of_same (x := .rsq) same rfl, Part.of_same (x := .ptd) same rfl, Part.of_same (x := .lne) same rfl, Part.of_same (x := .ave) same rfl,
    Part.of_same (x := .cpu) same rfl, Part.of_same (x := .sys) same rfl, Part.of_same (x := .ret) same rfl, Part.of_same (x := .saf) same rfl,
    Part.of_same (x := .clk) same rfl, Part.of_same (x := .fio) same rfl, Part.of_same (x := .pending) same rfl]
  exact reset

/-- A cause that a block has not enabled is routed nowhere. -/
theorem State.hts_irq_masked {b : Block} (masked : (s.hd b).irqEn = 0) (other : b ≠ .acq) (i : Nat) : (s.irq b i).hts = s.hts := by
  have quiet : ¬((s.hd b).irqRaw &&& (s.hd b).irqEn = 0 ∧ setBit (s.hd b).irqRaw i &&& (s.hd b).irqEn ≠ 0) := by simp [masked]
  have alone : ¬(b = .acq ∧ 8 ≤ i ∧ i ≤ 10) := fun h => other h.1
  unfold State.irq
  dsimp only
  rw [if_neg quiet, if_neg alone]
  rfl

theorem State.hts_record_masked (masked : (s.hd .evr).irqEn = 0) (b : Block) (inst code : Nat) (ps : List Nat) : (s.record b inst code ps).hts = s.hts := by
  unfold State.record
  extract_lets r t
  split
  · exact State.hts_irq_masked t masked (by decide) 9
  · rfl

theorem State.fullReset_resets (cause : Nat) : s.ResetBy (s.fullReset cause) cause ∧ (s.fullReset cause).erm.held = true ∧
    (s.fullReset cause).erm.fatalLog = s.erm.fatalLog := by
  unfold State.fullReset
  extract_lets sd s0 s1 life xs xr xe xc xp xf s2
  have before : SameBut [.free, .sys, .mot, .tim, .evr, .hdr, .hts, .out] s s0 := by
    have ended : SameBut [.free, .sys, .mot, .tim, .evr, .hdr, .hts, .out] s sd := SameBut.trans (SameBut.mono' (State.dcAbandon_same s) rfl)
      (SameBut.trans (SameBut.mono' (State.axesLeave_same _) rfl) (SameBut.mono' (State.evrRelease_same _ false) rfl))
    exact SameBut.trans ended (SameBut.ite (SameBut.mono' (State.coarseEnter_same sd) rfl) (SameBut.refl _ sd))
  have kept : s1.aon = s.aon := (State.aon_resetBlks s0 Block.all).trans (State.aon_of_same before rfl)
  obtain ⟨erm, ret, saf, clk, pending⟩ : s1.erm = s.erm ∧ s1.ret = s.ret ∧ s1.saf = s.saf ∧ s1.clk = s.clk ∧ s1.pending = s.pending := by
    simpa [State.aon] using kept
  obtain ⟨ce, xng, rsq, ptd, hts, lne, ave⟩ : s1.ce = {} ∧ s1.xng = {} ∧ s1.rsq = {} ∧ s1.ptd = {} ∧ s1.hts = {} ∧ s1.lne = {} ∧ s1.ave = {} :=
    State.resetBlks_empty s0
  clear_value s1
  have cnt : s1.erm.cnt = s.erm.cnt := congrArg Erm.cnt erm
  have xo : s1.clk.xo = s.clk.xo := congrArg Clk.xo clk
  have locked : s1.clk.locked = s.clk.locked := congrArg Clk.locked clk
  have logged : s1.erm.fatalLog = s.erm.fatalLog := congrArg Erm.fatalLog erm
  have reset : s.ResetBy s2 cause :=
    ⟨rfl, congrArg (fun e : Erm => satInc 0xFFFF e.rstCount) erm, rfl, rfl, rfl, rfl, cnt, rfl, rfl, ce, xng, rsq, ptd, hts, lne, ave, rfl, rfl, ret, saf,
      xo, locked, rfl, rfl, pending⟩
  have log : s2.erm.fatalLog = s.erm.fatalLog := logged
  have masked : (s2.hd .evr).irqEn = 0 := congrArg Hdr.irqEn (State.hdrFull_get s1 Block.evr.code)
  have held : s2.erm.held = true := rfl
  clear_value s2
  split
  · have same := State.record_same s2 .sys 0 0x0114 [s1.sys.sysrec.lifecycle, life, 1]
    have quiet := State.hts_record_masked s2 masked .sys 0 0x0114 [s1.sys.sysrec.lifecycle, life, 1]
    generalize s2.record .sys 0 0x0114 [s1.sys.sysrec.lifecycle, life, 1] = t at same quiet ⊢
    exact ⟨reset.of_same same quiet, (congrArg Erm.held (Part.of_same (x := .erm) same rfl)).trans held, (congrArg Erm.fatalLog (Part.of_same (x := .erm) same rfl)).trans log⟩
  · exact ⟨reset, held, log⟩

end
end Sys2Proof.Machine
end

section
/-!
SUPPORT. Start-up's phases in order (R463–R466).
-/

namespace Sys2Proof.Machine

/-! ### Phases 1 to 3 (R463) -/

section
variable {s : State}

theorem startupRegulators_starts (phase : s.erm.phase = 0) : ∃ t, exec .startupRegulators s = .next t ∧ t.erm.phase = 1 ∧ t.erm.supply.pgCore = true ∧
    t.erm.supply.pgIo = true ∧ SameBut [.erm] s t :=
  ⟨_, congrArg Host.Outcome.next (if_neg (not_not.2 phase)), rfl, rfl, rfl, State.setErm_same s _⟩

theorem startupOscillators_starts (phase : s.erm.phase = 1) (m : Fin 4) : ∃ t, exec (.startupOscillators m) s = .next t ∧ t.erm.phase = 2 ∧ t.erm.bootMode = m.val ∧
    t.clk.frcOk = true ∧ t.clk.srcOk = true ∧ SameBut [.erm, .clk] s t :=
  ⟨_, congrArg Host.Outcome.next (if_neg (not_not.2 phase)), rfl, rfl, rfl, rfl,
    SameBut.trans (SameBut.mono' (State.setErm_same s _) rfl) (SameBut.mono' (State.updClk_same _ _) rfl)⟩

/-- A write to the retention store changes its buffers alone. -/
theorem State.ret_retPut_buffers (i : Nat) (v : Word) (by_ : Block) (t : State) : ∃ pend waiting, (t.retPut i v by_).ret = { t.ret with pend := pend, waiting := waiting } := by
  unfold State.retPut
  dsimp only
  split
  · exact ⟨_, _, rfl⟩
  · split <;> exact ⟨_, _, rfl⟩

theorem State.ret_retPuts (l : List RetPend) (t : State) : ∃ pend waiting,
    (l.foldl (fun s w => s.retPut w.idx w.val w.writer) t).ret = { t.ret with pend := pend, waiting := waiting } := by
  induction l generalizing t with
  | nil => exact ⟨t.ret.pend, t.ret.waiting, rfl⟩
  | cons w l ih =>
    obtain ⟨p, q, put⟩ := State.ret_retPut_buffers w.idx w.val w.writer t
    obtain ⟨pend, waiting, puts⟩ := ih (t.retPut w.idx w.val w.writer)
    exact ⟨pend, waiting, by rw [List.foldl_cons, puts, put]⟩

theorem State.retPuts_same (l : List RetPend) (t : State) : SameBut [.ret] t (l.foldl (fun s w => s.retPut w.idx w.val w.writer) t) :=
  SameBut.foldl (fun s _ => State.retPut_same s _ _ _) l t

/-- A round with nothing pending counts, and lets the writes that waited in. -/
theorem State.retRound_idle (pend : s.ret.pend = []) (sys : s.ret.sysPend = false) :
    s.retRound [] = s.ret.waiting.foldl (fun s w => s.retPut w.idx w.val w.writer)
      (s.updRet fun r => { r with pend := [], waiting := [], flushing := false, sysPend := false, round := wrapInc r.round }) := by
  unfold State.retRound
  rw [pend, sys]
  rfl

/-- What settling the error manager may change. -/
theorem State.settleErm_ermParts (t : State) : SameBut ermParts t t.settleErm := by
  have settled : SameBut ermParts t { t with erm := t.settleErm.erm } := SameBut.mono' (State.setErm_same t _) rfl
  rw [State.erm_settleErm] at settled
  exact SameBut.ite (SameBut.trans settled (SameBut.mono' (State.irq_same _ _ _) rfl)) settled

theorem Erm.phase_of_boot {e f : Erm} (h : e.boot = f.boot) : e.phase = f.phase := (congrArg Erm.phase h : e.boot.phase = f.boot.phase)

theorem startupAlwaysOn_starts (phase : s.erm.phase = 2) (free : s.erm.held = false) (pend : s.ret.pend = []) (sys : s.ret.sysPend = false)
    (en : bit (s.reg R.CPU_CORE_EN) 0 = true) : ∃ t, exec .startupAlwaysOn s = .next t ∧ t.erm.phase = 3 ∧ t.ret.checkBusy = true ∧ t.ret.checkDone = false ∧
      t.ret.round = wrapInc s.ret.round ∧ t.sys.romAlive = true ∧ (t.core 0).running = true ∧ (s.domOn 1 = false → t.pmc.on = domInsert 1 s.pmc.on) := by
  let s2 := ((s.updErm fun e => { e with phase := 3 }).retRound []).updRet fun r => { r with checkBusy := true, checkDone := false }
  let s3 := if s2.domOn 1 then s2.resetCore 0 else s2.domUp 1 0 0
  have run : exec .startupAlwaysOn s = .next ({ s3 with sys := { s3.sys with romAlive := true } }).settleErm :=
    congrArg Host.Outcome.next (if_neg (by simp [phase, free]))
  have round : SameBut [.erm, .ret] s s2 ∧ s2.erm.phase = 3 ∧ s2.ret.checkBusy = true ∧ s2.ret.checkDone = false ∧ s2.ret.round = wrapInc s.ret.round := by
    let u := s.updErm fun e => { e with phase := 3 }
    have idle : u.retRound [] = _ := State.retRound_idle (s := u) pend sys
    have same : SameBut [.ret] u (u.retRound []) := by
      rw [idle]
      exact SameBut.trans (State.updRet_same u _) (State.retPuts_same _ _)
    obtain ⟨p, w, puts⟩ := State.ret_retPuts u.ret.waiting (u.updRet fun r => { r with pend := [], waiting := [], flushing := false, sysPend := false, round := wrapInc r.round })
    rw [← idle] at puts
    refine ⟨SameBut.trans (SameBut.mono' (State.setErm_same s _) rfl) (SameBut.trans (SameBut.mono' same rfl) (SameBut.mono' (State.updRet_same _ _) rfl)),
      congrArg Erm.phase (Part.of_same (x := .erm) same rfl), rfl, rfl, congrArg Ret.round puts⟩
  obtain ⟨before, erm, busy, done, count⟩ := round
  have pmc : s2.pmc = s.pmc := Part.of_same (x := .pmc) before rfl
  have on : bit (s2.reg R.CPU_CORE_EN) 0 = true := by rw [State.reg_congr (Part.of_same (x := .regs) before rfl), en]
  clear_value s2
  have up : SameBut (.clk :: upParts) s2 s3 := SameBut.ite (SameBut.mono' (State.resetCore_same s2 0) rfl) (State.domUp_same s2 _ _ _)
  have core : (s3.core 0).running = true := by
    simp only [s3]
    split
    · rw [State.running_resetCore, on]
    · exact State.running_domUp_cpua s2 on 0 0
  have domain (off : s.domOn 1 = false) : s3.pmc.on = domInsert 1 s.pmc.on := by
    have off2 : s2.domOn 1 = false := by rw [State.domOn, pmc]; exact off
    simp only [s3]
    rw [if_neg (by simp [off2]), State.pmc_domUp, pmc]
    rfl
  clear_value s3
  refine ⟨_, run, ?_, ?_⟩
  · refine (Erm.phase_of_boot (State.boot_settleErm _)).trans ?_
    exact (congrArg Erm.phase (Part.of_same (x := .erm) up rfl : s3.erm = s2.erm)).trans erm
  · have settled := State.settleErm_ermParts { s3 with sys := { s3.sys with romAlive := true } }
    have ret : ({ s3 with sys := { s3.sys with romAlive := true } } : State).settleErm.ret = s2.ret :=
      (Part.of_same (x := .ret) settled rfl).trans (Part.of_same (x := .ret) up rfl)
    rw [ret, show _ = _ from Part.of_same (x := .sys) settled rfl, State.core_of_same settled rfl, show _ = _ from Part.of_same (x := .pmc) settled rfl]
    exact ⟨busy, done, count, rfl, core, domain⟩

end

/-! ### Phase 4: the clocks (R443, R448) -/

/-- The crystal and the PLL's reference. -/
def Clk.crystal (x : Clk) : XoSt × Nat × Bool := (x.xo, x.xoFails, x.ref)

section
variable (s : State)

theorem State.crystal_degFollow : s.degFollow.clk.crystal = s.clk.crystal := by rw [State.clk_degFollow]; rfl

theorem State.crystal_pllLock : s.pllLock.clk.crystal = s.clk.crystal := by
  unfold State.pllLock
  split
  · rfl
  · extract_lets s1
    split
    · exact State.crystal_degFollow s1
    · rw [State.clk_record, State.crystal_degFollow]
      rfl

theorem State.crystal_pllStart : s.pllStart.clk.crystal = s.clk.crystal := by
  unfold State.pllStart
  split <;> rfl

/-- Failed starts add up while fewer than four have failed (Table CLK-3). -/
theorem State.clk_xoTimeouts : ∀ (n : Nat) (s : State), s.clk.xo = .starting → s.clk.xoFails + n < 4 →
    ∃ time, (s.xoTimeouts n).clk = { s.clk with xoFails := s.clk.xoFails + n, xoT := time }
  | 0, s, _, _ => ⟨s.clk.xoT, rfl⟩
  | n + 1, s, starting, few => by
    have once : s.xoTimeout.clk = { s.clk with xoFails := s.clk.xoFails + 1, xoT := s.upUs } := by
      rw [State.xoTimeout, if_neg (not_not.2 starting), if_pos (by omega), State.clk_irq]
      rfl
    obtain ⟨time, more⟩ := State.clk_xoTimeouts n s.xoTimeout (by rw [once]; exact starting) (by rw [once]; show s.clk.xoFails + 1 + n < 4; omega)
    refine ⟨time, ?_⟩
    rw [State.xoTimeouts, more, once]
    show _ = { s.clk with xoFails := s.clk.xoFails + (n + 1), xoT := time }
    rw [show s.clk.xoFails + (n + 1) = s.clk.xoFails + 1 + n by omega]

theorem State.xoTimeouts_succ : ∀ (n : Nat) (s : State), s.xoTimeouts (n + 1) = (s.xoTimeouts n).xoTimeout
  | 0, _ => rfl
  | n + 1, s => State.xoTimeouts_succ n s.xoTimeout

theorem State.erm_updClk (f : Clk → Clk) : (s.updClk f).erm = s.erm := rfl

/-- The crystal after its start-up: STABLE after fewer than four failed starts, else FAILED with FRC as the reference of a PLL that is off. -/
theorem State.crystal_started (f : Fin 5) (us : Nat) (starting : s.clk.xo = .starting) (none_ : s.clk.xoFails = 0) :
    ((s.xoTimeouts f.val).xoStable us).clk.xo = (if f.val < 4 then .stable else .failed) ∧ ((s.xoTimeouts f.val).xoStable us).clk.xoFails = f.val ∧
    (s.clk.pllOn = false → ((s.xoTimeouts f.val).xoStable us).clk.ref = decide (f.val = 4)) := by
  by_cases few : f.val < 4
  · obtain ⟨time, failed⟩ := State.clk_xoTimeouts f.val s starting (by omega)
    have stable : ((s.xoTimeouts f.val).xoStable us).clk = { s.clk with xo := .stable, xoFails := f.val, xoT := time, ref := if s.clk.pllOn then s.clk.ref else false } := by
      rw [State.xoStable, if_neg (by rw [failed]; exact not_not.2 starting), State.clk_irq, State.clk_record, State.clk_updClk, failed, none_, Nat.zero_add]
    rw [stable, if_pos few]
    refine ⟨rfl, rfl, fun off => ?_⟩
    rw [show (if s.clk.pllOn then s.clk.ref else false) = false by simp [off]]
    exact (decide_eq_false (by omega)).symm
  · have four : f.val = 4 := by omega
    obtain ⟨time, failed⟩ := State.clk_xoTimeouts 3 s starting (by omega)
    have lost : (s.xoTimeouts 4).clk = { s.clk with xo := .failed, xoFails := 4, xoT := time, ref := if s.clk.pllOn then s.clk.ref else true } := by
      rw [State.xoTimeouts_succ 3, State.xoTimeout, if_neg (by rw [failed]; exact not_not.2 starting), if_neg (by rw [failed, none_]; exact (by decide : ¬0 + 3 + 1 < 4)), State.clk_xoFail, failed]
    have still : ((s.xoTimeouts 4).xoStable us) = s.xoTimeouts 4 := if_pos (by rw [lost]; exact fun h => XoSt.noConfusion h)
    rw [four, still, lost]
    refine ⟨rfl, rfl, fun off => ?_⟩
    simp [off]

/-- The PLL runs and is locked at the end of phase 4. -/
theorem State.locked_pllUp : let t := if s.clk.pllOn ∧ s.clk.locked then s else s.pllStart.pllLock
    t.clk.locked = true ∧ t.clk.crystal = s.clk.crystal := by
  dsimp only
  split
  next up => exact ⟨up.2, rfl⟩
  next => exact ⟨(State.pllLock_locks (State.pllOn_pllStart s)).1, (State.crystal_pllLock _).trans (State.crystal_pllStart s)⟩

theorem State.dom_domAt_ne {d e : Nat} (div : Nat) (other : e ≠ d) : (s.domAt d div).clk.dom e = s.clk.dom e :=
  Tab.get_upd_ne ({} : ClkDom) s.clk.doms (fun _ => { div := div, frc := false, ramp := false, tgt := div }) other

theorem startupClocks_starts {s : State} (phase : s.erm.phase = 3) (none_ : s.clk.xoFails = 0) (off : s.clk.xo = .off) (f : Fin 5) (us : Nat) :
    ∃ t, exec (.startupClocks f us) s = .next t ∧ t.erm.phase = 4 ∧ t.clk.locked = true ∧
        t.clk.xo = (if f.val < 4 then .stable else .failed) ∧ t.clk.xoFails = f.val ∧ t.clk.dom 0 = { div := 2, frc := false, ramp := false, tgt := 2 } ∧
        t.clk.dom 2 = { div := 12, frc := false, ramp := false, tgt := 12 } ∧ (s.clk.pllOn = false → t.clk.ref = decide (f.val = 4)) := by
  let s2 := (s.xoStart.xoTimeouts f.val).xoStable us
  let s3 := if s2.clk.pllOn ∧ s2.clk.locked then s2 else s2.pllStart.pllLock
  have run : exec (.startupClocks f us) s = .next ((((s3.domAt 2 12).domAt 0 2).degFollow).updErm fun e => { e with phase := 4 }) := by
    show execStartupClocks f us s = _
    unfold execStartupClocks
    rw [if_neg (not_not.2 phase)]
    dsimp only
    simp only [if_pos (show s.clk.xo = .off ∧ s.clk.xoFails < 4 from ⟨off, by omega⟩), if_pos (show s.xoStart.clk.xo = .starting by rw [State.clk_xoStart])]
    rfl
  obtain ⟨xo, fails, ref⟩ := State.crystal_started s.xoStart f us (by rw [State.clk_xoStart]) (by rw [State.clk_xoStart]; exact none_)
  obtain ⟨locked, crystal⟩ : s3.clk.locked = true ∧ s3.clk.crystal = s2.clk.crystal := State.locked_pllUp s2
  have own : s3.clk.xo = s2.clk.xo ∧ s3.clk.xoFails = s2.clk.xoFails ∧ s3.clk.ref = s2.clk.ref := by simpa [Clk.crystal] using crystal
  obtain ⟨ownXo, ownFails, ownRef⟩ := own
  clear_value s3
  refine ⟨_, run, rfl, ?_⟩
  have after : (((s3.domAt 2 12).domAt 0 2).degFollow.updErm fun e => { e with phase := 4 }).clk = ((s3.domAt 2 12).domAt 0 2).degFollow.clk := rfl
  rw [after, State.dom_degFollow, State.dom_degFollow, State.dom_domAt_ne _ _ (by decide : (2 : Nat) ≠ 0), State.domAt, Clk.dom_updDom, State.domAt, Clk.dom_updDom,
    State.clk_degFollow]
  refine ⟨locked, ownXo.trans xo, ownFails.trans fails, rfl, rfl, fun noPll => ownRef.trans (ref ?_)⟩
  rw [State.clk_xoStart]
  exact noPll

end

end Sys2Proof.Machine
end

section
/-!
SUPPORT. Start-up's memory, real-time and boot phases (R463–R466).
-/

namespace Sys2Proof.Machine

section
variable {s : State}

/-! ### Phase 5: memory (R463) -/

theorem State.memTrained_same (s : State) (fail0 fail1 : Bool) : SameBut [.msdram, .hdr, .evr, .hts, .out] s (s.memTrained fail0 fail1) := by
  unfold State.memTrained
  have failed (c : Bool) (t : State) : SameBut [.msdram, .hdr, .evr, .hts, .out] t (if c then t.err .mem errTrainFail else t) :=
    SameBut.ite (SameBut.mono' (State.err_same t _ _) rfl) (SameBut.refl _ t)
  exact SameBut.trans (failed _ s) (SameBut.trans (failed _ _) (SameBut.trans (SameBut.mono' (State.updMem_same _ _) rfl)
    (SameBut.trans (SameBut.mono' (State.updHd_same _ _ _) rfl) (SameBut.mono' (State.record_same _ _ _ _ _) rfl))))

theorem State.en_memTrained (s : State) : ((s.memTrained false false).hd .mem).en = (s.hd .mem).en := by
  unfold State.memTrained
  rw [State.hd_record _ _ _ _ _ (by decide), State.hd_updHd_same]
  rfl

/-- What every start of memory sets: PG_MEM as sampled, and DEGRADED by a free value (log 86). -/
def State.memStart (s : State) (pg : Bool) : State :=
  s.draw.2.updErm fun e => { e with supply := { e.supply with pgMem := pg }, degraded := (Config.freeWord s.free).getLsbD 0 }

theorem startupMemory_trains (phase : s.erm.phase = 4) (mem : s.erm.noMem = false) : ∃ t, exec (.startupMemory true false false) s = .next t ∧ t.erm.phase = 5 ∧
    t.erm.noMem = false ∧ t.reg R.MEM_CFG = Config.otpMemCfg &&& 0x333 ∧ (t.hd .mem).en = true ∧ 11 ∈ t.pmc.on ∧ s.free < t.free := by
  let s1 := s.memStart true
  let s2 := if s1.domOn 11 then s1 else s1.domUp 11 0 0
  let s3 := (s2.setReg R.MEM_CFG (Config.otpMemCfg &&& 0x333)).updHd .mem fun h => { h with en := true }
  have run : exec (.startupMemory true false false) s = .next ((s3.memTrained false false).updErm fun e => { e with phase := 5 }) :=
    congrArg Host.Outcome.next (if_neg (by simp [phase, mem]))
  have up : SameBut (.clk :: upParts) s1 s2 := SameBut.ite (SameBut.refl _ s1) (State.domUp_same s1 _ _ _)
  have on : 11 ∈ s2.pmc.on := by
    simp only [s2]
    split
    next listed => exact List.contains_iff_mem.1 listed
    next => rw [State.pmc_domUp]; exact mem_domInsert (by decide) _
  clear_value s2
  have trained := State.memTrained_same s3 false false
  refine ⟨_, run, rfl, ?_, ?_, ?_, ?_, ?_⟩
  · have erm : (s3.memTrained false false).erm = s1.erm := (Part.of_same (x := .erm) trained rfl).trans (Part.of_same (x := .erm) up rfl)
    exact (congrArg Erm.noMem erm).trans mem
  · exact (State.reg_congr (Part.of_same (x := .regs) trained rfl) R.MEM_CFG).trans (State.reg_setReg_same s2 R.MEM_CFG _)
  · refine (State.en_memTrained s3).trans ?_
    rw [State.hd_updHd_same]
  · exact (show (s3.memTrained false false).pmc = s2.pmc from Part.of_same (x := .pmc) trained rfl) ▸ on
  · have free : (s3.memTrained false false).free = s1.free := (Part.of_same (x := .free) trained rfl).trans (Part.of_same (x := .free) up rfl)
    exact (Nat.lt_succ_self s.free).trans_le free.ge

theorem startupMemory_lost (phase : s.erm.phase = 4) (mem : s.erm.noMem = false) (a b : Bool) : ∃ t, exec (.startupMemory false a b) s = .next t ∧ t.erm.phase = 4 ∧
    t.erm.noMem = true ∧ t.msdram = s.msdram := by
  let s1 := (s.memStart false).updErm fun e => { e with noMem := true }
  have run : exec (.startupMemory false a b) s = .next (s1.raiseNoCode .erm 0 .fault) := congrArg Host.Outcome.next (if_neg (by simp [phase, mem]))
  have boot := State.boot_raiseNoCode s1 .erm 0 .fault
  exact ⟨_, run, (Erm.phase_of_boot boot).trans phase, (congrArg Erm.noMem boot : (s1.raiseNoCode .erm 0 .fault).erm.boot.noMem = s1.erm.boot.noMem),
    Part.of_same (x := .msdram) (State.raiseNoCode_same s1 .erm 0 .fault) rfl⟩

/-! ### Phase 6: the real-time domain (R463) -/

theorem startupRealtime_starts (phase : s.erm.phase = 5) (checked : s.ret.checkDone = true) (mem : s.domOn 11 = true) (net el : Nat) :
    ∃ t, exec (.startupRealtime net el) s = .next t ∧ t.erm.phase = 6 ∧ 3 ∈ t.pmc.on ∧ t.clk.dom 1 = { div := 6, frc := false, ramp := false, tgt := 6 } := by
  let s1 := s.domAt 1 6
  let s2 := if s1.domOn 3 then s1 else s1.domUp 3 net el
  have run : exec (.startupRealtime net el) s = .next (s2.updErm fun e => { e with phase := 6 }) := congrArg Host.Outcome.next (if_neg (by simp [phase, checked, mem]))
  have dom : s1.clk.dom 1 = { div := 6, frc := false, ramp := false, tgt := 6 } := Clk.dom_updDom s 1 _
  have up : 3 ∈ s2.pmc.on ∧ s2.clk.dom 1 = s1.clk.dom 1 := by
    simp only [s2]
    split
    next listed => exact ⟨List.contains_iff_mem.1 listed, rfl⟩
    next => exact ⟨by rw [State.pmc_domUp]; exact mem_domInsert (by decide) _, State.dom_domUp s1 3 net el 1⟩
  exact ⟨_, run, rfl, up.1, up.2.trans dom⟩

/-! ### Phase 7: boot (R464, R465) -/

theorem tryImage_accepted {x : Option (List Byte)} (h : tryImage x = 0) : imageResult (x.getD []) = 0 := by
  cases x with
  | none => exact absurd h (by decide)
  | some img => exact h

/-- An image that is accepted holds what its header says. -/
theorem imageResult_room {img : List Byte} (h : imageResult img = 0) : 192 + leNat ((img.drop 12).take 4) ≤ img.length := by
  unfold imageResult at h
  extract_lets n len load entry pub at h
  by_contra short
  have range : len < 4 ∨ 16777024 < len ∨ len % 4 ≠ 0 ∨ load % 4 ≠ 0 ∨ load < 0x08000000 ∨ 0x09000000 < load + len ∨ entry < load ∨ load + len ≤ entry ∨
      img.length < 192 + len := .inr (.inr (.inr (.inr (.inr (.inr (.inr (.inr (Nat.not_le.1 short))))))))
  split at h
  · exact absurd h (by decide)
  · exact absurd h (by decide)

/-- A number of an image's header. -/
def imageNum (img : List Byte) (i k : Nat) : Nat := leNat ((img.drop i).take k)

theorem State.bootAccept_accepts (t : State) (src : BootSrc) {img : List Byte} (good : imageResult img = 0) : (t.bootAccept src img).erm =
      { t.erm with accepted := true, entry := imageNum img 24 8, bootSrc := src, keyIdx := imageNum img 6 2 % 4, bootResult := 0, pushWait := false } ∧
    (t.bootAccept src img).load (imageNum img 16 8) (imageNum img 12 4) = (img.drop 128).take (imageNum img 12 4) := by
  unfold State.bootAccept State.bootRecord
  refine ⟨State.erm_record _ _ _ _ _, ?_⟩
  have len : ((img.drop 128).take (imageNum img 12 4)).length = imageNum img 12 4 := by
    have room : 192 + imageNum img 12 4 ≤ img.length := imageResult_room good
    rw [List.length_take, List.length_drop]
    omega
  have loaded := State.load_store t (imageNum img 16 8) ((img.drop 128).take (imageNum img 12 4))
  rw [len] at loaded
  rw [State.load, Part.of_same (x := .mem) (State.record_same _ _ _ _ _) rfl]
  exact loaded

theorem State.bootHalt_halts (t : State) (src : BootSrc) (keyIdx r ver : Nat) : (t.bootHalt src keyIdx r ver).erm =
      { t.erm with halted := true, pushWait := false, bootSrc := src, keyIdx := keyIdx % 4, bootResult := r, errNLow := true } ∧
    ((t.bootHalt src keyIdx r ver).core 0).running = false ∧ (t.bootHalt src keyIdx r ver).mem = t.mem := by
  unfold State.bootHalt State.bootRecord
  refine ⟨State.erm_record _ _ _ _ _, ?_, Part.of_same (x := .mem) (State.record_same _ _ _ _ _) rfl⟩
  rw [State.core_updCore_same]

theorem State.bootPush_waits (t : State) : t.bootPush.erm = { t.erm with pushWait := true, bootSrc := .push } ∧ 10 ∈ t.bootPush.pmc.on := by
  unfold State.bootPush
  split
  next listed => exact ⟨rfl, List.contains_iff_mem.1 listed⟩
  next =>
    have erm : (t.domUp 10 0 0).erm = t.erm := Part.of_same (x := .erm) (State.domUp_same t 10 0 0) rfl
    exact ⟨congrArg (fun e : Erm => { e with pushWait := true, bootSrc := .push }) erm, by
      show 10 ∈ (t.domUp 10 0 0).pmc.on
      rw [State.pmc_domUp]
      exact mem_domInsert (by decide) _⟩

section
variable (phase : s.erm.phase = 6) (a b : Option (List Byte))
include phase

theorem startupBoot_run : exec (.startupBoot a b) s = .next (
    let s1 := s.updErm fun e => { e with phase := 7, accepted := false }
    if s.erm.bootMode = 1 then s1.bootPush
    else if tryImage a = 0 then s1.bootAccept .norA (a.getD [])
    else if tryImage b = 0 then s1.bootAccept .norB (b.getD [])
    else if s.erm.bootMode = 2 then s1.bootPush
    else s1.bootHalt .norB (leNat (((b.getD []).drop 6).take 2)) (tryImage b) (leNat (((b.getD []).drop 8).take 4))) :=
  congrArg Host.Outcome.next (if_neg (by simp [phase]))

theorem startupBoot_pushes (mode : s.erm.bootMode = 1) : ∃ t, exec (.startupBoot a b) s = .next t ∧ t.erm.phase = 7 ∧ t.erm.pushWait = true ∧
    t.erm.accepted = false ∧ 10 ∈ t.pmc.on := by
  rw [startupBoot_run phase]
  refine ⟨_, rfl, ?_⟩
  dsimp only
  rw [if_pos mode]
  obtain ⟨erm, on⟩ := State.bootPush_waits (s.updErm fun e => { e with phase := 7, accepted := false })
  rw [erm]
  exact ⟨rfl, rfl, rfl, on⟩

theorem startupBoot_boots (mode : s.erm.bootMode ≠ 1) : ∃ t, exec (.startupBoot a b) s = .next t ∧ t.erm.phase = 7 ∧
    (if tryImage a = 0 then t.erm.accepted = true ∧ t.erm.bootSrc = .norA ∧ t.erm.entry = leNat (((a.getD []).drop 24).take 8) ∧
        t.load (leNat (((a.getD []).drop 16).take 8)) (leNat (((a.getD []).drop 12).take 4)) = ((a.getD []).drop 128).take (leNat (((a.getD []).drop 12).take 4))
      else if tryImage b = 0 then t.erm.accepted = true ∧ t.erm.bootSrc = .norB ∧ t.erm.entry = leNat (((b.getD []).drop 24).take 8)
      else if s.erm.bootMode = 2 then t.erm.accepted = false ∧ t.erm.pushWait = true ∧ 10 ∈ t.pmc.on
      else t.erm.accepted = false ∧ t.erm.halted = true ∧ t.erm.errNLow = true ∧ t.erm.bootResult = tryImage b ∧ (t.core 0).running = false ∧ t.mem = s.mem) := by
  rw [startupBoot_run phase]
  refine ⟨_, rfl, ?_⟩
  extract_lets s1
  rw [if_neg mode]
  by_cases first : tryImage a = 0
  · rw [if_pos first, if_pos first]
    obtain ⟨erm, loaded⟩ := State.bootAccept_accepts s1 .norA (tryImage_accepted first)
    rw [erm]
    exact ⟨rfl, rfl, rfl, rfl, loaded⟩
  · rw [if_neg first, if_neg first]
    by_cases second : tryImage b = 0
    · rw [if_pos second, if_pos second, (State.bootAccept_accepts s1 .norB (tryImage_accepted second)).1]
      exact ⟨rfl, rfl, rfl, rfl⟩
    · rw [if_neg second, if_neg second]
      by_cases host : s.erm.bootMode = 2
      · rw [if_pos host, if_pos host]
        obtain ⟨erm, on⟩ := State.bootPush_waits s1
        rw [erm]
        exact ⟨rfl, rfl, rfl, on⟩
      · rw [if_neg host, if_neg host]
        obtain ⟨erm, core, mem⟩ := State.bootHalt_halts s1 .norB (leNat (((b.getD []).drop 6).take 2)) (tryImage b) (leNat (((b.getD []).drop 8).take 4))
        rw [erm]
        exact ⟨rfl, rfl, rfl, rfl, rfl, core, mem⟩

end

section
variable {p : Principal} (writes : s.writeOk .erm 0x150 .w1s p = true)
include writes

theorem ermPushGo_run : exec (.ermPushGo p) s = .next (
    if s.erm.phase ≠ 7 ∨ !s.erm.pushWait then s.err .erm errPushState
    else
      let img := s.load 0x08000000 (min (s.reg R.ERM_PUSH_LEN).toNat 16777216)
      let r := imageResult img
      if r = 0 then s.bootAccept .push img
      else s.bootHalt .push (leNat ((img.drop 6).take 2)) r (leNat ((img.drop 8).take 4))) := congrArg Host.Outcome.next (State.gated_ok _ _ writes)

theorem ermPushGo_boots (phase : s.erm.phase = 7) (waits : s.erm.pushWait = true) :
    let img := s.load 0x08000000 (min (s.reg R.ERM_PUSH_LEN).toNat 16777216)
    ∃ t, exec (.ermPushGo p) s = .next t ∧ t.erm.pushWait = false ∧
      (if imageResult img = 0 then t.erm.accepted = true ∧ t.erm.bootSrc = .push else t.erm.halted = true ∧ t.erm.bootResult = imageResult img ∧ t.mem = s.mem) := by
  extract_lets img
  rw [ermPushGo_run writes, if_neg (by simp [phase, waits])]
  refine ⟨_, rfl, ?_⟩
  dsimp only
  change (State.erm (if imageResult img = 0 then s.bootAccept .push img
    else s.bootHalt .push (leNat ((img.drop 6).take 2)) (imageResult img) (leNat ((img.drop 8).take 4)))).pushWait = false ∧ _
  split
  next good =>
    rw [(State.bootAccept_accepts s .push good).1]
    exact ⟨rfl, rfl, rfl⟩
  next =>
    obtain ⟨erm, -, mem⟩ := State.bootHalt_halts s .push (leNat ((img.drop 6).take 2)) (imageResult img) (leNat ((img.drop 8).take 4))
    rw [erm]
    exact ⟨rfl, rfl, rfl, mem⟩

theorem ermPushGo_refuses (bad : s.erm.phase ≠ 7 ∨ s.erm.pushWait = false) : ∃ t, exec (.ermPushGo p) s = .next t ∧ t.erm = s.erm ∧ (t.hd .erm).errCode = 0x0422 := by
  rw [ermPushGo_run writes, if_pos (by simpa using bad)]
  exact ⟨_, rfl, State.erm_err _ _ _, by rw [State.hd_err_same]; rfl⟩

end

theorem bootPushTimeout_halts (waits : s.erm.pushWait = true) : ∃ t, exec .bootPushTimeout s = .next t ∧ t.erm.halted = true ∧ t.erm.bootResult = 0x35 := by
  have run : exec .bootPushTimeout s = .next (s.bootHalt .push 0 noSource 0) := congrArg Host.Outcome.next (if_pos waits)
  refine ⟨_, run, ?_⟩
  rw [(State.bootHalt_halts s .push 0 noSource 0).1]
  exact ⟨rfl, rfl⟩

/-! ### Phase 8: handover (R50, R466) -/

theorem State.boot_reRaise (t : State) : t.reRaise.erm.boot = t.erm.boot ∧ SameBut raiseParts t t.reRaise := by
  have raised (c : Prop) [Decidable c] (u : State) (b : Block) (code : Nat) (sev : Severity) : (if c then u.raise b 0 code sev else u).erm.boot = u.erm.boot ∧
      SameBut raiseParts u (if c then u.raise b 0 code sev else u) := by
    split
    · exact ⟨State.boot_raise u _ _ _ _, State.raise_same u _ _ _ _⟩
    · exact ⟨rfl, SameBut.refl _ u⟩
  have both {u v w : State} (g : v.erm.boot = u.erm.boot ∧ SameBut raiseParts u v) (h : w.erm.boot = v.erm.boot ∧ SameBut raiseParts v w) :
      w.erm.boot = u.erm.boot ∧ SameBut raiseParts u w := ⟨h.1.trans g.1, g.2.trans h.2⟩
  exact both (both (raised _ t .fio 0x1011 .alarm) (raised _ _ .fio 0x1011 .alarm)) (both (raised _ _ .clk 0x0213 .alarm) (both (raised _ _ .clk 0x0210 .alarm)
    (raised _ _ .erm 0x0415 .warn)))

theorem startupHandover_hands (phase : s.erm.phase = 7) (accepted : s.erm.accepted = true) : ∃ t, exec .startupHandover s = .next t ∧ t.erm.phase = 8 ∧
    t.sys.romAlive = false ∧ t.sys.sysrec.pmap = s.ret.sysA.pmap ∧ (t.core 0).running = true ∧ (t.core 0).startPc = s.erm.entry := by
  let s1 : State := { s with sys := { s.sys with romAlive := false, sysrec := { s.sys.sysrec with pmap := s.ret.sysA.pmap, pmapGen := s.ret.sysA.pmapGen } } }
  let s2 := (s1.updErm fun e => { e with phase := 8 }).updCore 0 fun k => { k with running := true, startPc := s1.erm.entry }
  let s3 := s2.record .erm 0 0x0413 [s2.erm.rstCause, s2.erm.rstCount, s2.erm.bootMode]
  have run : exec .startupHandover s = .next s3.reRaise := congrArg Host.Outcome.next (if_neg (by simp [phase, accepted]))
  have recorded : SameBut [.evr, .hdr, .hts, .out] s2 s3 := State.record_same s2 _ _ _ _
  obtain ⟨boot, raised⟩ := State.boot_reRaise s3
  have core : s3.reRaise.core 0 = s2.core 0 := (State.core_of_same raised rfl 0).trans (State.core_of_same recorded rfl 0)
  have fresh : s2.core 0 = { (s1.updErm fun e => { e with phase := 8 }).core 0 with running := true, startPc := s1.erm.entry } := State.core_updCore_same _ _ _
  have sys : s3.reRaise.sys = s2.sys := (Part.of_same (x := .sys) raised rfl).trans (Part.of_same (x := .sys) recorded rfl)
  refine ⟨_, run, ?_, ?_⟩
  · exact (Erm.phase_of_boot boot).trans (congrArg Erm.phase (Part.of_same (x := .erm) recorded rfl))
  · rw [core, fresh, sys]
    exact ⟨rfl, rfl, rfl, rfl⟩

end

end Sys2Proof.Machine
end

section
/-!
SUPPORT. Resets and losses of supplies (R466–R469, R268, R300).
-/

namespace Sys2Proof.Machine

section
variable {s : State}

/-! ### Full device resets (R466, R478) -/

/-- A reset's result does not depend on what changes in the error manager's supplies or at the reset's release. -/
theorem State.ResetBy.supply {t : State} {cause : Nat} (reset : s.ResetBy t cause) (f : Supply → Supply) :
    s.ResetBy (t.updErm fun e => { e with supply := f e.supply }) cause := reset

theorem State.ResetBy.released {t : State} {cause : Nat} (reset : s.ResetBy t cause) : s.ResetBy t.resetRelease cause := reset

theorem brownout_resets (phase : 2 ≤ s.erm.phase) (a b c : Bool) : ∃ t, exec (.brownout a b c) s = .next t ∧ s.ResetBy t 1 ∧ t.erm.held = true := by
  have run : exec (.brownout a b c) s = .next ((s.fullReset 1).updErm fun e =>
      { e with supply := { e.supply with pgCore := e.supply.pgCore && !a, pgIo := e.supply.pgIo && !b, vddCoreOk := e.supply.vddCoreOk && !c } }) :=
    congrArg (fun u : State => Host.Outcome.next (u.updErm fun e =>
      { e with supply := { e.supply with pgCore := e.supply.pgCore && !a, pgIo := e.supply.pgIo && !b, vddCoreOk := e.supply.vddCoreOk && !c } })) (if_neg (by omega))
  obtain ⟨reset, held, -⟩ := State.fullReset_resets s 1
  exact ⟨_, run, reset.supply fun x => { x with pgCore := x.pgCore && !a, pgIo := x.pgIo && !b, vddCoreOk := x.vddCoreOk && !c }, held⟩

theorem brownout_restarts (phase : s.erm.phase < 2) (b c : Bool) : ∃ t, exec (.brownout true b c) s = .next t ∧ t.erm.phase = 0 ∧ t.erm.supply.pgCore = false ∧
    SameBut [.erm] s t := by
  have run : exec (.brownout true b c) s = .next ((s.updErm fun e => { e with phase := 0 }).updErm fun e =>
      { e with supply := { e.supply with pgCore := e.supply.pgCore && !true, pgIo := e.supply.pgIo && !b, vddCoreOk := e.supply.vddCoreOk && !c } }) :=
    congrArg (fun u : State => Host.Outcome.next (u.updErm fun e =>
      { e with supply := { e.supply with pgCore := e.supply.pgCore && !true, pgIo := e.supply.pgIo && !b, vddCoreOk := e.supply.vddCoreOk && !c } })) (if_pos phase)
  exact ⟨_, run, rfl, Bool.and_false _, SameBut.trans (State.setErm_same s _) (State.setErm_same _ _)⟩

theorem resetPin_resets : ∃ t, exec .resetPin s = .next t ∧ s.ResetBy t 4 ∧ t.erm.held = true :=
  ⟨_, rfl, (State.fullReset_resets s 4).1.supply fun x => { x with resetN := false }, (State.fullReset_resets s 4).2.1⟩

theorem softwareReset_resets {p : Principal} (writes : s.writeOk .erm 0x154 .wo p = true) : ∃ t, exec (.softwareReset p 0xA5A5) s = .next t ∧ s.ResetBy t 5 ∧
    t.erm.held = false :=
  ⟨_, congrArg Host.Outcome.next ((State.gated_ok _ _ writes).trans (if_pos rfl)), (State.fullReset_resets s 5).1.released, rfl⟩

theorem softwareReset_refuses {p : Principal} {v : Word} (writes : s.writeOk .erm 0x154 .wo p = true) (bad : v ≠ 0xA5A5) : ∃ t, exec (.softwareReset p v) s = .next t ∧
    (t.hd .erm).errCode = 0x0421 ∧ SameBut [.hdr, .hts, .out] s t :=
  ⟨_, congrArg Host.Outcome.next ((State.gated_ok _ _ writes).trans (if_neg bad)), by rw [State.hd_err_same]; rfl, State.err_same s _ _⟩

theorem debugReset_resets (open_ : s.debugOpen = true) : ∃ t, exec .debugReset s = .next t ∧ s.ResetBy t 6 ∧ t.erm.held = false :=
  ⟨_, congrArg Host.Outcome.next (if_pos open_), (State.fullReset_resets s 6).1.released, rfl⟩

theorem fatalReset_resets (fatal : s.erm.fatal = true) : ∃ t, exec .fatalReset s = .next t ∧ s.ResetBy t 2 ∧ t.erm.held = false ∧ t.erm.fatalLog = s.erm.fatalLog :=
  ⟨_, congrArg Host.Outcome.next (if_pos fatal), (State.fullReset_resets s 2).1.released, rfl, (State.fullReset_resets s 2).2.2⟩

theorem pfailReset_resets (active : s.erm.pfailActive = true) : ∃ t, exec .pfailReset s = .next t ∧ s.ResetBy t 3 ∧ t.erm.held = true :=
  ⟨_, congrArg Host.Outcome.next (if_pos active), (State.fullReset_resets s 3).1, (State.fullReset_resets s 3).2.1⟩

theorem resetRelease_releases (held : s.erm.held = true) : ∃ t, exec .resetRelease s = .next t ∧ t.erm.held = false ∧ t.erm.phase = s.erm.phase ∧
    t.tim.lostRst = (s.tim.lostRst || s.tim.lost) ∧ SameBut [.erm, .tim] s t :=
  ⟨_, congrArg Host.Outcome.next (if_neg (by simp [held])), rfl, rfl, rfl, fun x hx => by cases x <;> first | rfl | exact absurd hx (by decide)⟩

theorem powerOnReset_resets : ∃ t, exec .powerOnReset s = .next t ∧ t.erm = {} ∧ t.ret.cells = s.ret.cells ∧ t.ret.recs = s.ret.recs ∧ t.saf = s.saf ∧
    t.fio.linkUp = false ∧ t.mem = [] ∧ t.pmc = {} ∧ t.clk = {} ∧ t.pending = s.pending ∧ t.hd .saf = { pwr := (s.hd .saf).pwr } :=
  ⟨_, rfl, rfl, rfl, rfl, rfl, rfl, rfl, rfl, rfl, rfl, State.hdrFull_get s Block.saf.code⟩

/-! ### The loss of PG_MEM (R467, R468) -/

theorem State.endSession_own (s : State) (st : SessState) (cause : Nat) : SameBut [.acq, .evr, .hdr, .hts, .out] s (s.endSession st cause) := by
  have acq (t : State) (f : Acq → Acq) : SameBut [.acq, .evr, .hdr, .hts, .out] t (t.updAcq f) := SameBut.mono' (State.updAcq_same t f) rfl
  have recorded (t : State) (code : Nat) (ps : List Nat) : SameBut [.acq, .evr, .hdr, .hts, .out] t (t.record .acq 0 code ps) :=
    SameBut.mono' (State.record_same t _ _ _ _) rfl
  have closed (t : State) (c : Nat) : SameBut [.acq, .evr, .hdr, .hts, .out] t ((t.closeBlock c).lastGap c) :=
    SameBut.trans (SameBut.ite (SameBut.refl _ _) (acq t _)) (SameBut.ite (SameBut.refl _ _) (SameBut.trans (recorded _ _ _) (acq _ _)))
  have flushed := SameBut.foldl closed (List.range 64) s
  exact SameBut.trans flushed (SameBut.trans (acq _ _) (SameBut.trans (recorded _ _ _) (SameBut.trans (SameBut.mono' (State.irq_same _ _ _) rfl)
    (SameBut.mono' (State.updHd_same _ _ _) rfl))))

theorem State.acq_irq (s : State) (b : Block) (i : Nat) : (s.irq b i).acq = s.acq := Part.of_same (x := .acq) (State.irq_same s b i) rfl

theorem State.acq_record (s : State) (b : Block) (inst code : Nat) (ps : List Nat) : (s.record b inst code ps).acq = s.acq :=
  Part.of_same (x := .acq) (State.record_same s b inst code ps) rfl

theorem State.acqState_endSession (s : State) (st : SessState) (cause : Nat) : (s.endSession st cause).acq.state = st := by
  unfold State.endSession
  extract_lets s1 s2
  clear_value s1
  have told : ((s2.record .acq 0 0x1313 [cause, s.acq.trigs]).irq .acq 9).acq = s2.acq := by rw [State.acq_irq, State.acq_record]
  exact congrArg Acq.state told

theorem State.power_endSession (s : State) (st : SessState) (cause : Nat) : ((s.endSession st cause).hd .mem).power = (s.hd .mem).power := by
  have closed (t : State) (c : Nat) : (((t.closeBlock c).lastGap c).hd .mem).power = (t.hd .mem).power := by
    have block : ((t.closeBlock c).hd .mem) = t.hd .mem := by
      unfold State.closeBlock
      split <;> rfl
    unfold State.lastGap
    split
    · rw [block]
    · exact (State.power_record _ _ _ _ _ _).trans (congrArg Hdr.power block)
  have flushed (l : List Nat) : ((l.foldl (fun s c => (s.closeBlock c).lastGap c) s).hd .mem).power = (s.hd .mem).power :=
    List.foldlRecOn l _ (motive := fun t => (t.hd .mem).power = (s.hd .mem).power) rfl fun t h c _ => (closed t c).trans h
  unfold State.endSession
  extract_lets s1 s2
  have before : (s1.hd .mem).power = (s.hd .mem).power := flushed (List.range 64)
  clear_value s1
  rw [State.hd_updHd_ne _ _ (by decide), State.power_irq, State.power_record]
  exact before

/-- While memory does not run nothing is stored in SDRAM. -/
theorem State.mem8_storeRam_stopped {s : State} (stopped : (s.hd .mem).running = false) (a : Nat) (bs : List Byte) {x : Nat} (high : 0x800000000 ≤ x) :
    (s.storeRam a bs).mem8 x = s.mem8 x := by
  unfold State.storeRam
  split
  next answers =>
    have sram : inSram a bs.length = true := by simpa [stopped] using answers
    have below : a + bs.length ≤ 0x09000000 := of_decide_eq_true (Bool.and_eq_true _ _ ▸ sram).2
    exact State.mem8_store_out s a bs (.inr (by omega))
  next => rfl

/-- How a capture session ends when memory is lost: in POST its log says so. -/
def State.acqMemLoss (s : State) : State :=
  match s.acq.state with
  | .armed | .rearm => s.endSession .stopped 2
  | .post => (s.logMark 2).endSession .stopped 2
  | _ => s.updAcq fun a => { a with armReq := false }

theorem State.logMark_same (s : State) (b : Nat) : SameBut [.mem] s (s.logMark b) := State.storeRam_same s _ _

theorem State.acqMemLoss_same (s : State) : SameBut [.mem, .acq, .evr, .hdr, .hts, .out] s s.acqMemLoss := by
  have ended (t : State) : SameBut [.mem, .acq, .evr, .hdr, .hts, .out] t (t.endSession .stopped 2) := SameBut.mono' (State.endSession_own t _ _) rfl
  unfold State.acqMemLoss
  split
  · exact ended s
  · exact ended s
  · exact SameBut.trans (SameBut.mono' (State.logMark_same s 2) rfl) (ended _)
  · exact SameBut.mono' (State.updAcq_same s _) rfl

theorem State.power_acqMemLoss (s : State) : (s.acqMemLoss.hd .mem).power = (s.hd .mem).power := by
  unfold State.acqMemLoss
  split
  · exact State.power_endSession s _ _
  · exact State.power_endSession s _ _
  · rw [State.power_endSession, State.hd_congr (Part.of_same (x := .hdr) (State.logMark_same s 2) rfl)]
  · rfl

theorem State.mem8_acqMemLoss {s : State} (stopped : (s.hd .mem).running = false) {x : Nat} (high : 0x800000000 ≤ x) : s.acqMemLoss.mem8 x = s.mem8 x := by
  have ended (t : State) : (t.endSession .stopped 2).mem8 x = t.mem8 x := by
    rw [State.mem8, Part.of_same (x := .mem) (State.endSession_own t _ _) rfl, State.mem8]
  unfold State.acqMemLoss
  split
  · exact ended s
  · exact ended s
  · exact (ended _).trans (State.mem8_storeRam_stopped stopped _ _ high)
  · rfl

theorem State.acqMemLoss_armed {s : State} (armed : s.acq.state = .armed) : s.acqMemLoss.acq.state = .stopped := by
  rw [State.acqMemLoss, armed]
  exact State.acqState_endSession s _ _

/-- Memory and history after the fence of PD_MEM. -/
def State.memFenced (s : State) : State :=
  ((((s.fenceCommit .mem).updHd .mem fun h => { h with pwr := .fenced, running := false }).domRecord 11 1 2).updMem fun m => { m with trained := false, capacity := 0 }).dropMem
    fun a => decide (0x800000000 ≤ a)

/-- The history's unsent blocks and the cold entries are lost with memory. -/
def State.memEmptied (s : State) : State :=
  { s.updHrc (fun h => { h with blk := none, unsent := [], first := true }) with ptd := { s.ptd with cold := [] } }

theorem pgMemLoss_run (on : s.domOn 11 = true) (up : (s.hd .mem).pwr = .on) : exec .pgMemLoss s = .next
    ((s.updErm fun e => { e with supply := { e.supply with pgMem := false } }).memFenced.memEmptied.rsqMemFence.acqMemLoss.raiseNoCode .mem 0 .fault) := by
  have present : ¬(!s.domOn 11 ∨ (s.hd .mem).pwr ≠ .on) := by simp [on, up]
  exact congrArg Host.Outcome.next (if_neg present)

theorem State.rsqMemFence_same (s : State) : SameBut [.rsq] s s.rsqMemFence := SameBut.foldl (fun s _ => State.updRsq_same s _) _ s

theorem State.memFenced_fences (s : State) : (s.memFenced.hd .mem).power = (.fenced, false) ∧ s.memFenced.msdram.trained = false ∧
    (∀ a, 0x800000000 ≤ a → s.memFenced.mem8 a = 0) ∧ s.memFenced.acq = s.acq := by
  unfold State.memFenced
  refine ⟨?_, rfl, fun a high => Tab.get_keep_none (fun _ => by simpa using high) _, ?_⟩
  · show (((((s.fenceCommit .mem).updHd .mem fun h => { h with pwr := .fenced, running := false }).domRecord 11 1 2)).hd .mem).power = _
    rw [State.domRecord, State.power_record, State.hd_updHd_same]
    rfl
  · show (((((s.fenceCommit .mem).updHd .mem fun h => { h with pwr := .fenced, running := false }).domRecord 11 1 2))).acq = _
    rw [State.domRecord, State.acq_record]
    exact Part.of_same (x := .acq) (State.fenceCommit_same s .mem) rfl

theorem pgMemLoss_fences (on : s.domOn 11 = true) (up : (s.hd .mem).pwr = .on) : ∃ t, exec .pgMemLoss s = .next t ∧ (t.hd .mem).pwr = .fenced ∧ (t.hd .mem).running = false ∧
    t.msdram.trained = false ∧ (∀ a, 0x800000000 ≤ a → t.mem8 a = 0) ∧ t.hrc.unsent = [] ∧ (s.acq.state = .armed → t.acq.state = .stopped) := by
  let u := (s.updErm fun e => { e with supply := { e.supply with pgMem := false } }).memFenced
  obtain ⟨power, trained, empty, acq⟩ : (u.hd .mem).power = (.fenced, false) ∧ u.msdram.trained = false ∧ (∀ a, 0x800000000 ≤ a → u.mem8 a = 0) ∧ u.acq = s.acq :=
    State.memFenced_fences _
  rw [pgMemLoss_run on up]
  change ∃ t, Host.Outcome.next (u.memEmptied.rsqMemFence.acqMemLoss.raiseNoCode .mem 0 .fault) = .next t ∧ _
  clear_value u
  let v := u.memEmptied
  refine ⟨v.rsqMemFence.acqMemLoss.raiseNoCode .mem 0 .fault, rfl, ?_⟩
  have fenced : SameBut [.rsq] v v.rsqMemFence := State.rsqMemFence_same v
  have powerV : (v.rsqMemFence.hd .mem).power = (.fenced, false) := (congrArg Hdr.power (State.hd_congr (Part.of_same (x := .hdr) fenced rfl) .mem)).trans power
  have ended := State.acqMemLoss_same v.rsqMemFence
  have raised := State.raiseNoCode_same v.rsqMemFence.acqMemLoss .mem 0 .fault
  have powerT : ((v.rsqMemFence.acqMemLoss.raiseNoCode .mem 0 .fault).hd .mem).power = (.fenced, false) :=
    ((State.power_raise v.rsqMemFence.acqMemLoss.draw.2 .mem .mem 0 _ .fault).trans (State.power_acqMemLoss v.rsqMemFence)).trans powerV
  refine ⟨congrArg Prod.fst powerT, congrArg Prod.snd powerT, ?_, fun a high => ?_, ?_, fun armed => ?_⟩
  · have msdram : (v.rsqMemFence.acqMemLoss.raiseNoCode .mem 0 .fault).msdram = u.msdram := (Part.of_same (x := .msdram) raised rfl).trans
      ((Part.of_same (x := .msdram) ended rfl).trans (Part.of_same (x := .msdram) fenced rfl))
    exact (congrArg MemSt.trained msdram).trans trained
  · have mem : (v.rsqMemFence.acqMemLoss.raiseNoCode .mem 0 .fault).mem = v.rsqMemFence.acqMemLoss.mem := Part.of_same (x := .mem) raised rfl
    have before : v.rsqMemFence.mem = u.mem := Part.of_same (x := .mem) fenced rfl
    rw [State.mem8, mem]
    refine (State.mem8_acqMemLoss (congrArg Prod.snd powerV) high).trans ?_
    rw [State.mem8, before]
    exact empty a high
  · have hrc : (v.rsqMemFence.acqMemLoss.raiseNoCode .mem 0 .fault).hrc = v.hrc := (Part.of_same (x := .hrc) raised rfl).trans
      ((Part.of_same (x := .hrc) ended rfl).trans (Part.of_same (x := .hrc) fenced rfl))
    exact congrArg Hrc.unsent hrc
  · have acqV : v.rsqMemFence.acq = s.acq := (Part.of_same (x := .acq) fenced rfl).trans acq
    exact (congrArg Acq.state (Part.of_same (x := .acq) raised rfl)).trans (State.acqMemLoss_armed (by rw [acqV]; exact armed))

theorem pgMemRestore_restores (fenced : (s.hd .mem).pwr = .fenced) : ∃ t, exec .pgMemRestore s = .next t ∧ (t.hd .mem).pwr = .on ∧ t.erm.supply.pgMem = true := by
  refine ⟨_, congrArg Host.Outcome.next (if_pos fenced), ?_, ?_⟩
  · rw [State.domRecord, State.hd_record _ _ _ _ _ (by decide), State.hd_updHd_same]
  · rw [State.domRecord, State.erm_record]
    rfl

/-! ### PFAIL (R469) -/

/-- An entry that is in progress or rolls back. -/
def Pmc.leaving (x : Pmc) : Prop := x.hs.isSome = true ∧ (x.st = .entering ∨ x.st = .rollback)

theorem State.leaving_pmcRollback {t : State} (leaving : t.pmc.leaving) (blk cause : Nat) : (t.pmcRollback blk cause).pmc.leaving ∧ (t.pmcRollback blk cause).pmc.st = .rollback := by
  obtain ⟨some_, st⟩ := leaving
  obtain ⟨h, hs⟩ := Option.isSome_iff_exists.1 some_
  obtain ⟨r, pmc⟩ := State.pmc_pmcRollback hs blk cause
  have rolls : (if t.pmc.st = .entering then PSt.rollback else t.pmc.st) = .rollback := by rcases st with st | st <;> simp [st]
  rw [pmc]
  exact ⟨⟨rfl, .inr rolls⟩, rolls⟩

theorem State.leaving_raise {t : State} (leaving : t.pmc.leaving) (b : Block) (inst code : Nat) (sev : Severity) : (t.raise b inst code sev).pmc.leaving :=
  RaiseClosed.raise (P := fun u => u.pmc.leaving)
    { erm := fun _ _ h => h
      irq := fun u b i h => (State.pmc_irq u b i).symm ▸ h
      record := fun u b i c ps h => (State.pmc_record u b i c ps).symm ▸ h
      outputs := fun u h => by
        have before : (((u.padsLow).fioSilence).safFatal).laneHalt.pmc = u.pmc :=
          (Part.of_same (x := .pmc) (State.safFatal_same _) rfl).trans (Part.of_same (x := .pmc) (State.fioSilence_same _) rfl)
        exact (State.leaving_pmcRollback (before.symm ▸ h) 0 4).1 } leaving b inst code sev

theorem pfailFall_falls (quiet : s.erm.pfailActive = false) (phase : 2 ≤ s.erm.phase) : ∃ t, exec .pfailFall s = .next t ∧ t.erm.pfailActive = true ∧
    t.erm.supply.pfailN = false ∧ t.erm.pfailSince = s.upUs ∧ (s.pmc.hs.isSome = true → s.pmc.st = .entering → t.pmc.st = .rollback) := by
  let s1 := s.updErm fun e => { e with supply := { e.supply with pfailN := false }, pfailActive := true, pfailSince := s.upUs }
  let s2 := (s1.record .erm 0 0x0415 [1, 0]).raise .erm 0 0x0415 .warn
  have run : exec .pfailFall s = .next (s2.pmcRollback 0 3) := congrArg Host.Outcome.next ((if_neg (by simp [quiet])).trans (if_neg (by omega)))
  have boot : s2.erm.boot = s1.erm.boot := (State.boot_raise _ _ _ _ _).trans (congrArg Erm.boot (State.erm_record s1 _ _ _ _))
  have erm : (s2.pmcRollback 0 3).erm = s2.erm := Part.of_same (x := .erm) (State.pmcRollback_same s2 0 3) rfl
  have leaving (some_ : s.pmc.hs.isSome = true) (entering : s.pmc.st = .entering) : s2.pmc.leaving :=
    State.leaving_raise (by rw [State.pmc_record]; exact ⟨some_, .inl entering⟩) _ _ _ _
  refine ⟨_, run, ?_, ?_, ?_, fun some_ entering => (State.leaving_pmcRollback (leaving some_ entering) 0 3).2⟩
  all_goals rw [erm]
  · exact (congrArg Erm.pfailActive boot : s2.erm.boot.pfailActive = s1.erm.boot.pfailActive)
  · exact (congrArg (fun e : Erm => e.supply.pfailN) boot : s2.erm.boot.supply.pfailN = s1.erm.boot.supply.pfailN)
  · exact (congrArg Erm.pfailSince boot : s2.erm.boot.pfailSince = s1.erm.boot.pfailSince)

theorem pfailFall_holds (quiet : s.erm.pfailActive = false) (phase : s.erm.phase < 2) : ∃ t, exec .pfailFall s = .next t ∧ t.erm.held = true ∧ t.erm.rstCause = 3 ∧
    SameBut [.erm] s t :=
  ⟨_, congrArg Host.Outcome.next ((if_neg (by simp [quiet])).trans (if_pos phase)), rfl, rfl, State.setErm_same s _⟩

theorem pfailRise_rises (active : s.erm.pfailActive = true) : ∃ t, exec .pfailRise s = .next t ∧ t.erm.pfailActive = false ∧ t.erm.supply.pfailN = true ∧
    t.erm.pfailLast = min 0xFFFF ((s.upUs - s.erm.pfailSince) / 100) ∧ SameBut [.erm, .evr, .hdr, .hts, .out] s t := by
  refine ⟨_, congrArg Host.Outcome.next (if_neg (by simp [active])), ?_, ?_, ?_, SameBut.trans (SameBut.mono' (State.setErm_same s _) rfl) (SameBut.mono' (State.record_same _ _ _ _ _) rfl)⟩
  all_goals rw [State.erm_record]; rfl

/-! ### The field die's supply (R268, R300) -/

theorem State.safChanUp_up (s : State) (ch : Nat) (rst : Bool) : ((s.safChanUp ch rst).saf.chan ch).alive = true ∧ SameBut [.saf] s (s.safChanUp ch rst) := by
  have put : (Tab.get {} (Tab.put {} s.saf.ch ch ({} : SChan)) ch).alive = true := by rw [Tab.get_put_same]
  unfold State.safChanUp
  exact ⟨by split <;> exact put, SameBut.ite (SameBut.trans (State.updSaf_same s _) (State.updSaf_same _ _)) (State.updSaf_same s _)⟩

theorem vddFdPowerUp_starts (off : (s.hd .fio).pwr = .off) (r : Bool) : ∃ t, exec (.vddFdPowerUp r) s = .next t ∧ (t.hd .fio).pwr = .on ∧ t.fio.cfgSync = false ∧
    (t.saf.chan 0).alive = true ∧ SameBut [.fio, .hdr, .mir, .regs, .shadow, .frz, .saf] s t := by
  let u := ((s.clearRegs .fio true).fioPowerUp).hdrUp .fio
  have run : exec (.vddFdPowerUp r) s = .next (u.safChanUp 0 r) := congrArg Host.Outcome.next (if_neg (fun h => h.1 off))
  obtain ⟨alive, same⟩ := State.safChanUp_up u 0 r
  have fio : (u.safChanUp 0 r).fio = u.fio := Part.of_same (x := .fio) same rfl
  refine ⟨_, run, ?_, by rw [fio]; rfl, alive, SameBut.trans (t := u) (fun x hx => ?_) (SameBut.mono' same rfl)⟩
  · rw [State.hd_congr (Part.of_same (x := .hdr) same rfl)]
    exact congrArg Hdr.pwr ((State.hd_hdrUp _ .fio .fio).trans (if_pos rfl))
  · cases x <;> first | rfl | exact absurd hx (by decide)

theorem vddFdLoss_stops (on : (s.hd .fio).pwr ≠ .off) : ∃ t, exec .vddFdLoss s = .next t ∧ (t.hd .fio).pwr = .off ∧ (t.saf.chan 0).alive = false ∧
    SameBut [.fio, .hdr, .mir, .saf] s t := by
  let u := (s.updFio fun x => { linkUp := x.linkUp, linkErr := x.linkErr }).hdrDown .fio
  have run : exec .vddFdLoss s = .next (u.safChanDown 0) := congrArg Host.Outcome.next (if_neg on)
  have down : u.hd .fio = { pwr := .off, lock := (s.hd .fio).lock } :=
    Tab.get_put_same ({} : Hdr) s.hdr Block.fio.code { pwr := .off, lock := (s.hd .fio).lock }
  have put : (Tab.get {} (Tab.put {} u.saf.ch 0 ({ alive := false } : SChan)) 0).alive = false := by rw [Tab.get_put_same]
  exact ⟨_, run, congrArg Hdr.pwr down, put, fun x hx => by cases x <;> first | rfl | exact absurd hx (by decide)⟩

end

end Sys2Proof.Machine
end

section
/-!
PROOF. Start-up, resets and losses of supplies (O57).
-/

namespace Sys2Proof.Machine

/-- Settles O57, by the cases of each start-up phase, reset and supply above. -/
theorem startupResetsAndSupplies : Obligations.StartupResetsAndSupplies := by
  unfold Obligations.StartupResetsAndSupplies
  intro s e reset
  have stays {c : Prop} [Decidable c] (t : State) (h : c) : Host.Outcome.next (if c then s else t) = (.next s : Out) := congrArg Host.Outcome.next (if_pos h)
  have idle {c : Prop} [Decidable c] (t : State) (h : ¬c) : Host.Outcome.next (if c then t else s) = (.next s : Out) := congrArg Host.Outcome.next (if_neg h)
  refine ⟨startupRegulators_starts, fun h => stays _ h, fun m => ⟨fun h => startupOscillators_starts h m, fun h => stays _ h⟩, startupAlwaysOn_starts, fun h => stays _ h,
    fun f us => ⟨fun phase none_ off => startupClocks_starts phase none_ off f us, fun h => stays _ h⟩,
    fun phase mem => ⟨startupMemory_trains phase mem, startupMemory_lost phase mem⟩, fun h _ _ _ => stays _ h,
    fun net el => ⟨fun phase checked mem => startupRealtime_starts phase checked mem net el, fun h => stays _ (by simpa using h)⟩,
    fun phase a b => ⟨startupBoot_pushes phase a b, startupBoot_boots phase a b⟩, fun p writes => ⟨ermPushGo_boots writes, ermPushGo_refuses writes⟩,
    bootPushTimeout_halts, fun h => idle _ (by simpa using h), startupHandover_hands, fun h => stays _ (by simpa using h), fun a b c phase => brownout_resets phase a b c,
    fun b c phase => brownout_restarts phase b c, resetPin_resets, ?_, debugReset_resets, fun h => idle _ (by simp [h]), fatalReset_resets, fun h => idle _ (by simpa using h),
    pfailReset_resets, fun h => idle _ (by simpa using h), resetRelease_releases, fun h => stays _ (by simpa using h), pgMemLoss_fences, ?_, pgMemRestore_restores,
    pfailFall_falls, pfailFall_holds, fun h => stays _ h, pfailRise_rises, fun h => stays _ (by simpa using h), powerOnReset_resets,
    fun r off => vddFdPowerUp_starts off r, vddFdLoss_stops, fun h => stays _ h⟩
  · exact fun p v writes => ⟨fun key => by rw [key]; exact softwareReset_resets writes, softwareReset_refuses writes⟩
  · exact fun off => ⟨_, congrArg Host.Outcome.next (if_pos (.inl (by simpa using off))), rfl, State.setErm_same s _⟩

end Sys2Proof.Machine
end

section
/-!
PROOF. The CAN controllers (O53): bus-off clears every pending request, then marks the points bound to receive objects COMM_LOST. The points are found by every listed entry of the
directory, their effect by the first entry of their index; where one index is listed twice the two differ, and a request can be made after the clearing.
-/

namespace Sys2Proof.Machine

/-- Controller 0 is ACTIVE. Object 0 receives and object 1 sends ON_CHANGE, both with points. Local index 0 is listed twice: with a substitute value and bound to object 1, then bound to
object 0. -/
def boundTwice : State :=
  { State.reset with
    hdr := Tab.put {} (Tab.put {} State.reset.hdr Block.ptd.code { running := true }) Block.can.code {}
    ptd := { act := [(0, { kind := .int16, hot := true, srcType := .can, srcRef := 0x100000, substEn := true, substVal := 5 }), (0, { srcType := .can })] }
    can := { ctl := Tab.put {} [] 0 { state := .active }, objs := Tab.put {} (Tab.put {} [] 0 { o0 := 0x11 }) 1 { o0 := 0x1B } } }

/-- The frame that fails brings the transmit error counter to 256. -/
def boundTwiceOff : State :=
  (boundTwice.updCctl 0 fun c => { c with lec := (0 : Fin 7).val, lecData := false, busErr := satInc 65535 c.busErr }).canCount 0 (min 511 ((boundTwice.cctl 0).tec + 256))
    (min 255 ((boundTwice.cctl 0).rec_ + 0))

theorem boundTwice_runs : exec (.canBusError 0 0 false false 256 0) boundTwice = .next (boundTwiceOff.frameEnd 0) :=
  congrArg Host.Outcome.next (if_neg (by decide))

/-- The mark of object 0's point changes the value of object 1's, which requests its transmission. -/
theorem boundTwice_requests : ((boundTwiceOff.frameEnd 0).canObj (cobj 0 1)).txReq = true := by decide

/-- Refutes O53: at bus-off of `boundTwice` object 1 of the controller requests its transmission after the pending requests were cleared. -/
theorem not_canControllersFollowTableCan3 : ¬ Obligations.CanControllersFollowTableCan3 := by
  unfold Obligations.CanControllersFollowTableCan3
  intro h
  obtain ⟨-, -, -, -, -, -, -, -, -, -, -, error, -⟩ := h boundTwice 0
  obtain ⟨t, run, -, cleared⟩ := (error 0 false false 256 0).2.2 (by decide) (by decide) (by decide)
  have same : boundTwiceOff.frameEnd 0 = t := Host.Outcome.next.inj (boundTwice_runs.symm.trans run)
  exact absurd ((congrArg (fun u : State => (u.canObj (cobj 0 1)).txReq) same).trans (cleared 1 (by decide))) (by rw [boundTwice_requests]; decide)

end Sys2Proof.Machine
end

section
/-!
SUPPORT. The acquisition engine (R366–R376): a state of the sequencer without conditions, a slot that fires alone, a plain sample, what the closing of blocks leaves of a session, the block
that waits for memory.
-/

namespace Sys2Proof.Machine

/-! ### A state of the sequencer without conditions (R368) -/

/-- No slot of a state of the sequencer holds a condition. -/
def State.QuietAt (s : State) (st : Nat) : Prop := ∀ slot < 4, bits (s.seqQ st slot 0) 3 0 = 0

section
variable {s : State}

theorem State.QuietAt.of_regs {t : State} {st : Nat} (quiet : s.QuietAt st) (regs : t.regs = s.regs) : t.QuietAt st := fun slot lt =>
  (congrArg (bits · 3 0) (State.reg_congr regs ⟨R.ACQ_SEQ.blk, R.ACQ_SEQ.off + (64 * st + 16 * slot + 4 * 0)⟩)).trans (quiet slot lt)

theorem State.slotOn_empty {slot : Nat} (empty : bits (s.seqQ s.acq.seqState slot 0) 3 0 = 0) (e : AcqEv) : s.slotOn slot e = none := by
  unfold State.slotOn
  dsimp only
  rw [empty]
  cases e <;> rfl

theorem State.slotLevel_empty {slot : Nat} (empty : bits (s.seqQ s.acq.seqState slot 0) 3 0 = 0) (tick : Nat) : s.slotLevel slot tick = none := by
  unfold State.slotLevel
  dsimp only
  rw [empty]
  rfl

theorem State.firing_quiet (quiet : s.QuietAt s.acq.seqState) (evs : List AcqEv) (tick : Nat) : s.firing evs tick = none := by
  refine List.findSome?_eq_none_iff.2 fun slot mem => ?_
  have empty := quiet slot (List.mem_range.1 mem)
  have off : evs.findSome? (s.slotOn slot) = none := List.findSome?_eq_none_iff.2 fun e _ => State.slotOn_empty empty e
  simp only [off, State.slotLevel_empty empty]

theorem State.armSlots_quiet (quiet : s.QuietAt s.acq.seqState) (evs : List AcqEv) : s.armSlots_ evs = s := by
  refine List.foldlRecOn (motive := fun t => t = s) (List.range 4) _ rfl fun t same slot mem => ?_
  subst same
  refine if_neg ?_
  simp only [List.any_eq_true, not_exists, not_and]
  intro e _
  cases e <;> simp [quiet slot (List.mem_range.1 mem)]

theorem State.seqEval_quiet (quiet : s.QuietAt s.acq.seqState) (evs : List AcqEv) (tick : Nat) : ∀ n, s.seqEval evs tick n = s
  | 0 => rfl
  | n + 1 => by
    rw [State.seqEval, State.firing_quiet quiet]
    split
    · rfl
    · exact State.armSlots_quiet quiet evs

theorem State.seqEvents_quiet (quiet : s.QuietAt s.acq.seqState) (evs : List AcqEv) (tick : Nat) : s.seqEvents evs tick = s := State.seqEval_quiet quiet evs tick 16

/-! ### A slot that fires alone (R368, R370) -/

theorem State.firing_event {evs : List AcqEv} {t : Nat} (on : evs.findSome? (s.slotOn 0) = some t) (after : s.acq.seqIn ≤ t) (tick : Nat) :
    s.firing evs tick = some (0, t) := by
  simp [State.firing, List.range_succ_eq_map, on, after]

theorem State.firing_level {tick t : Nat} (on : s.slotLevel 0 tick = some t) (after : s.acq.seqIn ≤ t) : s.firing [] tick = some (0, t) := by
  simp [State.firing, List.range_succ_eq_map, on, after]

/-- A slot that fires into a quiet state is the only one that fires. -/
theorem State.seqEvents_fire {evs : List AcqEv} {slot t tick : Nat} (runs : s.acq.records = true) (fires : s.firing evs tick = some (slot, t))
    (quiet : s.QuietAt (bits (s.seqQ s.acq.seqState slot 0) 7 4)) : s.seqEvents evs tick = s.fireSlot slot t tick := by
  have rests : (s.fireSlot slot t tick).QuietAt (s.fireSlot slot t tick).acq.seqState :=
    quiet.of_regs (Part.of_same (x := .regs) (State.fireSlot_same s slot t tick) rfl)
  have stays : s.seqRuns = true := runs
  rw [State.seqEvents, State.seqEval, stays, fires]
  exact State.seqEval_quiet rests _ _ _

/-- Where a session stands: its state, its triggers and the time of the last one. -/
def Acq.capture (a : Acq) : SessState × Nat × Nat × Nat × Nat := (a.state, a.trigs, a.trig, a.trigPs, a.acc)

theorem State.capture_foldl {g : State → Nat → State} (keeps : ∀ v k, (g v k).acq.capture = v.acq.capture ∧ SameBut [.acq] v (g v k)) :
    ∀ (l : List Nat) (v : State), (l.foldl g v).acq.capture = v.acq.capture ∧ SameBut [.acq] v (l.foldl g v)
  | [], v => ⟨rfl, SameBut.refl _ v⟩
  | k :: l, v =>
    have rest := State.capture_foldl keeps l (g v k)
    ⟨rest.1.trans (keeps v k).1, (keeps v k).2.trans rest.2⟩

/-- A slot without STOP, FAB_SEND and SET_FLAG changes no more of a session than its CAPTURE. -/
theorem State.capture_fireSlot {slot : Nat} (t tick : Nat) (typ : bits (s.seqQ s.acq.seqState slot 0) 3 0 ≠ 6)
    (stop : bit (s.seqQ s.acq.seqState slot 2) 1 = false) (send : bit (s.seqQ s.acq.seqState slot 2) 18 = false)
    (flag : bit (s.seqQ s.acq.seqState slot 2) 23 = false) :
    let u := if bit (s.seqQ s.acq.seqState slot 2) 0 then
        (if s.acq.state = .armed then s.acceptTrigger slot (bits (s.seqQ s.acq.seqState slot 0) 3 0) t tick else s.updAcq fun a => { a with ign := wrapInc a.ign })
      else s
    (s.fireSlot slot t tick).acq.capture = u.acq.capture ∧ SameBut [.acq] u (s.fireSlot slot t tick) := by
  intro u
  unfold State.fireSlot
  extract_lets st q0 q2 typ' s0 s1 s2 s3 s4 f s5
  have e0 : s0 = s := if_neg typ
  have e1 : s1 = u := by simp only [s1, e0]; rfl
  have e2 : s2 = u := (if_neg (by rw [show bit q2 1 = false from stop]; decide)).trans e1
  have e4 : s4 = s3 := if_neg (by rw [show bit q2 18 = false from send]; decide)
  have e5 : s5 = s3 := (if_neg (by rw [show bit q2 23 = false from flag]; decide)).trans e4
  have counted : s3.acq.capture = u.acq.capture ∧ SameBut [.acq] u s3 := by
    rw [← e2]
    refine State.capture_foldl ?_ _ s2
    exact fun v k => ⟨rfl, State.updAcq_same v _⟩
  rw [e5]
  exact ⟨counted.1, counted.2.trans (State.updAcq_same s3 _)⟩

theorem State.capture_acceptTrigger (slot typ t tick : Nat) :
    (s.acceptTrigger slot typ t tick).acq.capture = (.post, s.acq.trigs + 1, t / 1000, t % 1000, tick * 5 / 2) := by
  unfold State.acceptTrigger
  extract_lets j ns ps acc short words s1 s2
  have logged : s1.acq = s.acq := Part.of_same (x := .acq) (State.storeRam_same s _ _) rfl
  clear_value s1
  rw [State.acq_irq, State.acq_record]
  simp only [s2, State.updAcq, Acq.capture, logged]
  rfl

/-! ### Samples (R366, R367) -/

/-- What of a session no sample changes: its state and the samples that were missed. -/
def Acq.progress (a : Acq) : SessState × Nat := (a.state, a.missed)

theorem State.progress_setChans (s : State) (f : Acq → Tab Chan) : (s.updAcq fun a => { a with chans := f a }).acq.progress = s.acq.progress := rfl

theorem State.progress_closeBlock (s : State) (c : Nat) : (s.closeBlock c).acq.progress = s.acq.progress := by
  unfold State.closeBlock
  split <;> rfl

theorem State.progress_dropSample (s : State) (c : Nat) : (s.dropSample c).acq.progress = s.acq.progress := by
  unfold State.dropSample
  dsimp only
  split
  · rw [State.acq_irq]
    rfl
  · rfl

theorem State.progress_endGap (s : State) (c : Nat) : (s.endGap c).acq.progress = s.acq.progress := by
  unfold State.endGap
  split
  · rfl
  · have recorded := congrArg Acq.progress (State.acq_record s .acq 0 0x1314 [c, (s.chan c).dropped])
    exact recorded

theorem State.progress_recordSample (s : State) (c : Nat) (x : Int) (t qual : Nat) (bad : Bool) : (s.recordSample c x t qual bad).acq.progress = s.acq.progress := by
  unfold State.recordSample
  extract_lets g cap full s1 k first lo hi sum runT done late k1 k2 s2
  have opened : s1.acq.progress = s.acq.progress := by
    simp only [s1]
    rw [State.progress_endGap]
    split
    · exact State.progress_closeBlock s c
    · rfl
  clear_value s1
  have put : s2.acq.progress = s.acq.progress := (State.progress_setChans s1 _).trans opened
  split
  · rfl
  · split
    · exact State.progress_dropSample s c
    · split
      · exact (State.progress_closeBlock s2 c).trans put
      · exact put

theorem State.progress_chanSamples (quiet : s.QuietAt s.acq.seqState) (xs : List (Nat × Int × Nat × Bool)) (t tick : Nat) :
    (s.chanSamples xs t tick).acq.progress = s.acq.progress := by
  unfold State.chanSamples
  extract_lets evs s1
  have same : s1 = s := State.seqEvents_quiet quiet evs tick
  rw [same]
  refine List.foldlRecOn (motive := fun v : State => v.acq.progress = s.acq.progress) xs _ rfl fun v h x _ => ?_
  exact (State.progress_setChans _ _).trans ((State.progress_recordSample v x.1 x.2.1 t x.2.2.1 x.2.2.2).trans h)

/-- A sample of a point without a reduction, in a block with room and outside a gap, is one record more. -/
theorem State.chan_recordSample {c : Nat} (armed : s.acq.state = .armed) (mode : (s.chCfg c).mode = 0) (red : (s.chCfg c).redN = 1) (depth : (s.chCfg c).depth ≠ 0)
    (narrow : s.wideCh (s.chCfg c) = false) (fresh : (s.chan c).n = 0) (whole : (s.chan c).dropped = 0) (room : (s.chan c).count + 1 < 2016)
    (x : Int) (t qual : Nat) (bad : Bool) : ∃ k : Chan, s.recordSample c x t qual bad = (s.updAcq fun a => { a with chans := Tab.put {} a.chans c k }) ∧
      k.recs = (s.chan c).recs ++ natBytesLE (x % 2 ^ 32).toNat 2 ∧ k.count = (s.chan c).count + 1 ∧ k.qor = (s.chan c).qor ||| qual := by
  have records : s.acq.records = true := by simp [Acq.records, armed]
  have bytes : s.recBytes (s.chCfg c) = 2 := by
    rw [State.recBytes, mode]
    exact if_neg (by rw [narrow]; decide)
  have opened : s.endGap c = s := if_pos whole
  have full : ¬ 2016 ≤ (s.chan c).count := by omega
  have some_ : ¬ 2016 ≤ (s.chan c).count + 1 := by omega
  unfold State.recordSample
  simp [records, depth, bytes, blockCap, full, opened, fresh, red, armed, some_, mode, narrow, recBytesOf]
  exact ⟨_, rfl, rfl, rfl, rfl⟩

theorem State.chan_updAcq_put (c : Nat) (k : Chan) : (s.updAcq fun a => { a with chans := Tab.put {} a.chans c k }).chan c = k := Tab.get_put_same _ _ _ _

theorem State.chan_updAcq_upd (c : Nat) (f : Chan → Chan) : (s.updAcq fun a => { a with chans := Tab.upd {} a.chans c f }).chan c = f (s.chan c) :=
  Tab.get_upd_same _ _ _ _

/-! ### Sessions (R373–R375) -/

theorem State.acq_acqResult (s : State) (e ch : Nat) : (s.acqResult e ch).acq = { s.acq with result := e, resultCh := ch } := by
  unfold State.acqResult
  dsimp only
  split
  · rfl
  · exact Part.of_same (x := .acq) (State.err_same _ .acq e) rfl

theorem State.errCode_acqResult (s : State) {e : Nat} (ne : e ≠ 0) (ch : Nat) : ((s.acqResult e ch).hd .acq).errCode = 0x1300 + e := by
  rw [State.acqResult, if_neg ne, State.hd_err_same]
  rfl

theorem State.hd_acqResult_zero (s : State) (b : Block) (ch : Nat) : (s.acqResult 0 ch).hd b = s.hd b := rfl

theorem State.running_endSession (s : State) (st : SessState) (cause : Nat) : ((s.endSession st cause).hd .acq).running = false :=
  congrArg Hdr.running (State.hd_updHd_same _ .acq _)

/-- A session that records is neither at rest nor over. -/
theorem Acq.records_iff (a : Acq) : a.records = true ↔ a.state = .armed ∨ a.state = .post ∨ a.state = .rearm := by
  simp [Acq.records, or_assoc]

theorem State.armCheck_recording (records : s.acq.records = true) (ok : Bool) : s.armCheck ok = (0x24, 0) := by
  rw [Acq.records_iff] at records
  refine if_pos (.inr (.inr ?_))
  obtain st | st | st := records <;> simp [st]

theorem State.armCheck_segments (bad : s.segN = 0 ∨ 128 < s.segN) (ok : Bool) : (s.armCheck ok).1 ≠ 0 := by
  have refused : s.sessOk = false := by
    rcases bad with none_ | many
    · simp [State.sessOk, none_]
    · simp [State.sessOk, Nat.not_le.2 many]
  unfold State.armCheck
  dsimp only
  split
  · decide
  · split
    · decide
    · rw [refused]
      exact (by decide : errCommitRefused ≠ 0)

theorem State.acqArmEffective_arms (req : s.acq.armReq = true) : s.acqArmEffective.acq =
      { s.acq with state := .armed, armReq := false, session := wrapInc s.acq.session, seg := 0, trigs := 0, stopPend := false, seqState := 0,
                         seqIn := s.now * 1000, seqArm := 0, cnt := [], tmr := [], exp := [], flag0 := 0, flag1 := 0, chans := [], lastSend := [] } ∧
    (s.acqArmEffective.hd .acq).running = true := by
  unfold State.acqArmEffective
  rw [if_neg (by simp [req])]
  extract_lets s1 s2
  have logged : s1.acq = s.acq := Part.of_same (x := .acq) (State.storeRam_same s _ _) rfl
  clear_value s1
  refine ⟨(State.acq_record s2 .acq 0 0x1310 _).trans ?_, congrArg Hdr.running (State.hd_updHd_same _ .acq _)⟩
  simp only [s2, State.updAcq, logged]
  rfl

/-- What of a session the closing of its blocks leaves: everything but its channels and the blocks that wait. -/
def Acq.session_ (a : Acq) : SessState × Bool × Nat × Nat := (a.state, a.stopPend, a.trigs, a.seg)

theorem State.session_closeBlocks (s : State) (l : List Nat) : (l.foldl (fun s c => s.closeBlock c) s).acq.session_ = s.acq.session_ :=
  List.foldlRecOn (motive := fun v : State => v.acq.session_ = s.acq.session_) l _ rfl fun v h c _ => by
    refine Eq.trans ?_ h
    unfold State.closeBlock
    split <;> rfl

theorem Acq.of_session {a b : Acq} (same : a.session_ = b.session_) : a.stopPend = b.stopPend ∧ a.trigs = b.trigs ∧ a.seg = b.seg :=
  ⟨congrArg (·.2.1) same, congrArg (·.2.2.1) same, congrArg (·.2.2.2) same⟩

/-! ### Blocks that wait for memory (R376) -/

theorem State.storeRam_sdram {a : Nat} {bs : List Byte} (running : (s.hd .mem).running = true) (here : inSdram s a bs.length = true) :
    s.storeRam a bs = s.store a bs := if_pos (by simp [running, here])

theorem xor_or_one_ne (w k : Word) : w ^^^ (k ||| 1) ≠ w := by
  intro same
  have zero : k ||| 1 = 0 := by
    have cancelled := congrArg (w ^^^ ·) same
    simp only [← BitVec.xor_assoc, BitVec.xor_self, BitVec.zero_xor] at cancelled
    exact cancelled
  have bit0 := congrArg (·.getLsbD 0) zero
  simp at bit0

/-- A block with a wrong CRC word is wrong from byte 60 on, where the word stands. -/
theorem wrong_crc_ne {bytes : List Byte} (w k : Word) (wrong : w = word (leNat ((bytes.drop 60).take 4)) ^^^ (k ||| 1)) :
    wordBytes w ++ bytes.drop 64 ≠ bytes.drop 60 := by
  intro same
  have four : wordBytes w = (bytes.drop 60).take 4 := by rw [← same]; rfl
  have back : w = word (leNat ((bytes.drop 60).take 4)) := by rw [← four, word_leNat_wordBytes]
  exact xor_or_one_ne _ k (wrong.symm.trans back)

end

end Sys2Proof.Machine
end

section
/-!
PROOF. Acquisition sessions (O47).
-/

namespace Sys2Proof.Machine

section
variable {s : State}

/-! ### The channels (R366) -/

theorem acqPointSample_rests (rests : s.acq.records = false) (b : Bool) : exec (.acqPointSample b) s = .next s :=
  congrArg Host.Outcome.next (if_pos (by simp [State.seqRuns, rests]))

/-- The point channels that are due at this instant. -/
def State.dueChans (s : State) : List Nat := s.chansWhere fun g => !g.adc && decide (g.div ≠ 0) && decide (s.now % (1000 * max 1 g.div) = 0)

theorem acqPointSample_skips (records : s.acq.records = true) (quiet : s.QuietAt s.acq.seqState) : ∃ t, exec (.acqPointSample true) s = .next t ∧
    t.acq.missed = wrapInc s.acq.missed ∧ t.acq.state = s.acq.state := by
  let s1 := s.updAcq fun a => { a with missed := wrapInc a.missed }
  have quiet1 : s1.QuietAt s1.acq.seqState := quiet
  have kept := State.progress_chanSamples quiet1 (s.dueChans.map fun c => (c, (s.chan c).last.getD 0, 0, true)) s.now (s.now * 2 / 5 + 1)
  have runs : ¬ (!s.seqRuns) = true := by simp [State.seqRuns, records]
  refine ⟨_, congrArg Host.Outcome.next (if_neg runs), ?_, ?_⟩
  · exact congrArg Prod.snd kept
  · exact congrArg Prod.fst kept

theorem acqPointSample_records {c : Nat} (armed : s.acq.state = .armed) (quiet : s.QuietAt s.acq.seqState) (due : s.dueChans = [c]) (mode : (s.chCfg c).mode = 0)
    (red : (s.chCfg c).redN = 1) (depth : (s.chCfg c).depth ≠ 0) (narrow : s.wideCh (s.chCfg c) = false) (fresh : (s.chan c).n = 0) (whole : (s.chan c).dropped = 0)
    (room : (s.chan c).count + 1 < 2016) : ∃ t, exec (.acqPointSample false) s = .next t ∧
      (t.chan c).recs = (s.chan c).recs ++ natBytesLE ((s.pointSample (s.chCfg c).src).1 % 2 ^ 32).toNat 2 ∧ (t.chan c).count = (s.chan c).count + 1 ∧
      (t.chan c).last = some (s.pointSample (s.chCfg c).src).1 ∧ (t.chan c).lastT = s.now * 1000 ∧
      (t.chan c).qor = (s.chan c).qor ||| (s.pointSample (s.chCfg c).src).2.1 ∧ SameBut [.acq] s t := by
  obtain ⟨k, recorded, recs, count, qor⟩ := State.chan_recordSample armed mode red depth narrow fresh whole room (s.pointSample (s.chCfg c).src).1 s.now
    (s.pointSample (s.chCfg c).src).2.1 (s.pointSample (s.chCfg c).src).2.2
  let sampled := (s.updAcq fun a => { a with chans := Tab.put {} a.chans c k }).updAcq fun a =>
    { a with chans := Tab.upd {} a.chans c fun k => { k with last := some (s.pointSample (s.chCfg c).src).1, lastT := s.now * 1000 } }
  have own : sampled.chan c = { k with last := some (s.pointSample (s.chCfg c).src).1, lastT := s.now * 1000 } :=
    (State.chan_updAcq_upd c _).trans (by rw [State.chan_updAcq_put])
  have runs : ¬ (!s.seqRuns) = true := by simp [State.seqRuns, Acq.records, armed]
  have run : execAcqPointSample false s = .next sampled := by
    unfold execAcqPointSample
    rw [if_neg runs]
    dsimp only
    rw [show (s.chansWhere fun g => !g.adc && decide (g.div ≠ 0) && decide (s.now % (1000 * max 1 g.div) = 0)) = [c] from due]
    simp only [Bool.false_eq_true, if_false, List.map_cons, List.map_nil, State.chanSamples, State.seqEvents_quiet quiet, List.foldl_cons, List.foldl_nil, recorded]
    rfl
  refine ⟨sampled, run, ?_⟩
  rw [own]
  exact ⟨recs, count, rfl, rfl, qor, (State.updAcq_same s _).trans (State.updAcq_same _ _)⟩

/-! ### The sequencer (R368) -/

section
variable {k : Fin 4} {t0 : Nat} (running : Tab.get none s.acq.tmr k.val = some t0)
include running

/-- The engine with a timer that has expired. -/
def State.timerOut (s : State) (k t0 : Nat) : State :=
  s.updAcq fun a => { a with tmr := Tab.put none a.tmr k none, exp := Tab.put none a.exp k (some (tickPs t0)) }

theorem acqTimerExpiry_run : exec (.acqTimerExpiry k) s = .next ((s.timerOut k.val t0).seqEvents [] t0) := by
  show execAcqTimerExpiry k s = _
  rw [execAcqTimerExpiry, running]
  rfl

theorem acqTimerExpiry_quiet (quiet : s.QuietAt s.acq.seqState) :
    ∃ t, exec (.acqTimerExpiry k) s = .next t ∧ Tab.get none t.acq.tmr k.val = none ∧ Tab.get none t.acq.exp k.val = some (2500 * t0) ∧
      t.acq.seqState = s.acq.seqState ∧ SameBut [.acq] s t := by
  have still : (s.timerOut k.val t0).QuietAt (s.timerOut k.val t0).acq.seqState := quiet
  refine ⟨s.timerOut k.val t0, ?_, Tab.get_put_same none s.acq.tmr k.val none, ?_, rfl, State.updAcq_same s _⟩
  · rw [acqTimerExpiry_run running, State.seqEvents_quiet still]
  · exact (Tab.get_put_same none s.acq.exp k.val (some (tickPs t0))).trans (congrArg some (Nat.mul_comm t0 2500))

theorem acqTimerExpiry_moves (records : s.acq.records = true) (after : s.acq.seqIn ≤ 2500 * t0) (timer : bits (s.seqQ s.acq.seqState 0 0) 3 0 = 8)
    (own : bits (s.seqQ s.acq.seqState 0 0) 17 12 = k.val) (acts : s.seqQ s.acq.seqState 0 2 = 0) (quiet : s.QuietAt (bits (s.seqQ s.acq.seqState 0 0) 7 4)) :
    ∃ t, exec (.acqTimerExpiry k) s = .next t ∧ t.acq.seqState = bits (s.seqQ s.acq.seqState 0 0) 7 4 ∧ t.acq.seqIn = 2500 * t0 ∧ t.acq.state = s.acq.state ∧
      SameBut [.acq] s t := by
  let s1 := s.timerOut k.val t0
  have level : s1.slotLevel 0 t0 = some (tickPs t0) := by
    unfold State.slotLevel
    dsimp only
    rw [show bits (s1.seqQ s1.acq.seqState 0 0) 3 0 = 8 from timer, show bits (s1.seqQ s1.acq.seqState 0 0) 17 12 = k.val from own]
    exact Tab.get_put_same none s.acq.exp k.val (some (tickPs t0))
  have late : s1.acq.seqIn ≤ tickPs t0 := after.trans (Nat.mul_comm 2500 t0).le
  have fires : s1.seqEvents [] t0 = s1.fireSlot 0 (tickPs t0) t0 := State.seqEvents_fire records (State.firing_level level late) quiet
  have none_ (i : Nat) : bit (s1.seqQ s1.acq.seqState 0 2) i = false := by
    rw [show s1.seqQ s1.acq.seqState 0 2 = 0 from acts]
    simp [bit]
  obtain ⟨capture, same⟩ := State.capture_fireSlot (s := s1) (tickPs t0) t0 (by rw [show bits (s1.seqQ s1.acq.seqState 0 0) 3 0 = 8 from timer]; decide)
    (none_ 1) (none_ 18) (none_ 23)
  rw [none_ 0, if_neg Bool.false_ne_true] at capture same
  refine ⟨s1.fireSlot 0 (tickPs t0) t0, ?_, rfl, Nat.mul_comm t0 2500, congrArg Prod.fst capture, (State.updAcq_same s _).trans same⟩
  rw [acqTimerExpiry_run running]
  exact congrArg Host.Outcome.next fires

end

section
variable {k : Fin 4} {rising : Bool} {t8 : Nat} (off : (s.hd .csc).pwr ≠ .on) (on : (s.hd .acq).pwr = .on)
include off on

theorem trigInEdge_run : exec (.trigInEdge k rising t8) s = .next (s.seqEvents [.ext k.val rising (t8 * 625 / 2)] (t8 / 8 + 1)) := by
  show execTrigInEdge k rising t8 s = _
  unfold execTrigInEdge
  dsimp only
  rw [if_neg off, if_pos on]

theorem trigInEdge_quiet (quiet : s.QuietAt s.acq.seqState) : exec (.trigInEdge k rising t8) s = .next s := by
  rw [trigInEdge_run off on, State.seqEvents_quiet quiet]

theorem trigInEdge_captures (armed : s.acq.state = .armed) (after : s.acq.seqIn ≤ t8 * 625 / 2) (ext : bits (s.seqQ s.acq.seqState 0 0) 3 0 = 4)
    (own : bits (s.seqQ s.acq.seqState 0 0) 17 12 = k.val) (edge : bits (s.seqQ s.acq.seqState 0 0) 10 8 = (if rising then 0 else 1))
    (acts : s.seqQ s.acq.seqState 0 2 = 1) (quiet : s.QuietAt (bits (s.seqQ s.acq.seqState 0 0) 7 4)) :
    ∃ t, exec (.trigInEdge k rising t8) s = .next t ∧ t.acq.state = .post ∧ t.acq.trigs = s.acq.trigs + 1 ∧ t.acq.trig = t8 * 625 / 2 / 1000 ∧
      t.acq.trigPs = t8 * 625 / 2 % 1000 ∧ t.acq.acc = (t8 / 8 + 1) * 5 / 2 ∧ t.acq.seqState = bits (s.seqQ s.acq.seqState 0 0) 7 4 := by
  let ps := t8 * 625 / 2
  have true_ : s.slotOn 0 (.ext k.val rising ps) = some ps := by
    unfold State.slotOn
    dsimp only
    rw [ext, own, edge]
    cases rising <;> simp
  have records : s.acq.records = true := by simp [Acq.records, armed]
  have first : [AcqEv.ext k.val rising ps].findSome? (s.slotOn 0) = some ps := by simp [true_]
  have fires : s.seqEvents [.ext k.val rising ps] (t8 / 8 + 1) = s.fireSlot 0 ps (t8 / 8 + 1) :=
    State.seqEvents_fire records (State.firing_event first after _) quiet
  obtain ⟨capture, -⟩ := State.capture_fireSlot (s := s) (slot := 0) ps (t8 / 8 + 1) (by rw [ext]; decide) (by rw [acts]; decide) (by rw [acts]; decide) (by rw [acts]; decide)
  rw [if_pos (by rw [acts]; decide), if_pos armed, State.capture_acceptTrigger] at capture
  simp only [Acq.capture, Prod.mk.injEq] at capture
  obtain ⟨state, trigs, trig, trigPs, acc⟩ := capture
  exact ⟨s.fireSlot 0 ps (t8 / 8 + 1), (trigInEdge_run off on).trans (congrArg Host.Outcome.next fires), state, trigs, trig, trigPs, acc, rfl⟩

end

theorem acqTflagSet_sets {r : Principal} {m : Word} (writes : s.writeOk .acq 0x138 .w1s r = true) (quiet : s.QuietAt s.acq.seqState) :
    ∃ t, exec (.acqTflagSet r m) s = .next t ∧ t.acq.tflag = (word s.acq.tflag ||| m).toNat ∧ t.acq.state = s.acq.state ∧ SameBut [.acq] s t := by
  let s1 := s.updAcq fun a =>
    { a with tflag := (word a.tflag ||| m).toNat,
             tflagT := (List.range 32).foldl (fun t b => if bit m b then Tab.put 0 t b (s.now * 1000) else t) a.tflagT }
  have still : s1.QuietAt s1.acq.seqState := quiet
  have run : exec (.acqTflagSet r m) s = .next (s1.seqEvents [] (s.now * 2 / 5 + 1)) := congrArg Host.Outcome.next (State.gated_ok _ _ writes)
  exact ⟨s1, run.trans (congrArg Host.Outcome.next (State.seqEvents_quiet still _ _)), rfl, rfl, State.updAcq_same s _⟩

/-! ### Sessions (R373–R375) -/

/-- A refused session command sets RESULT and its error, and changes nothing else of the engine. -/
def State.AcqRefuses (s : State) (o : Out) (e : Nat) : Prop :=
  ∃ t, o = .next t ∧ t.acq = { s.acq with result := e, resultCh := 0 } ∧ (t.hd .acq).errCode = 0x1300 + e

theorem State.acqResult_refuses {e : Nat} (ne : e ≠ 0) : s.AcqRefuses (.next (s.acqResult e 0)) e :=
  ⟨_, rfl, State.acq_acqResult s e 0, State.errCode_acqResult s ne 0⟩

section
variable {r : Principal} (writes : s.writeOk .acq 0x118 .wo r = true)
include writes

theorem acqArm_run (ok : Bool) : exec (.acqArm r ok) s =
    .next ((if (s.armCheck ok).1 = 0 then s.updAcq fun a => { a with armReq := true } else s).acqResult (s.armCheck ok).1 (s.armCheck ok).2) :=
  congrArg Host.Outcome.next (State.gated_ok _ _ writes)

theorem acqArm_accepts {ok : Bool} (checked : s.armCheck ok = (0, 0)) :
    exec (.acqArm r ok) s = .next (s.updAcq fun a => { a with armReq := true, result := 0, resultCh := 0 }) := by
  rw [acqArm_run writes, checked]
  rfl

theorem acqArm_refuses {ok : Bool} {e c : Nat} (ne : e ≠ 0) (checked : s.armCheck ok = (e, c)) :
    ∃ t, exec (.acqArm r ok) s = .next t ∧ t.acq = { s.acq with result := e, resultCh := c } ∧ (t.hd .acq).errCode = 0x1300 + e := by
  rw [acqArm_run writes, checked]
  dsimp only
  rw [if_neg ne]
  exact ⟨_, rfl, State.acq_acqResult s e c, State.errCode_acqResult s ne c⟩

theorem acqStop_run : exec (.acqStop r) s = .next (
    match s.acq.state with
    | .armed | .rearm => (s.endSession .stopped 2).acqResult 0 0
    | .post => ((s.logMark 2).endSession .stopped 2).acqResult 0 0
    | _ => s.acqResult 0x24 0) :=
  congrArg Host.Outcome.next (State.gated_ok _ _ writes)

theorem acqStop_stops (records : s.acq.records = true) :
    ∃ t, exec (.acqStop r) s = .next t ∧ t.acq.state = .stopped ∧ t.acq.result = 0 ∧ (t.hd .acq).running = false := by
  have ended (u : State) : (((u.endSession .stopped 2).acqResult 0 0).acq.state = .stopped) ∧ ((u.endSession .stopped 2).acqResult 0 0).acq.result = 0 ∧
      (((u.endSession .stopped 2).acqResult 0 0).hd .acq).running = false :=
    ⟨State.acqState_endSession u .stopped 2, rfl, State.running_endSession u .stopped 2⟩
  rw [acqStop_run writes]
  obtain st | st | st := (Acq.records_iff s.acq).1 records
  · rw [st]
    exact ⟨_, rfl, ended s⟩
  · rw [st]
    exact ⟨_, rfl, ended (s.logMark 2)⟩
  · rw [st]
    exact ⟨_, rfl, ended s⟩

theorem acqStop_refuses (rests : s.acq.records = false) : s.AcqRefuses (exec (.acqStop r) s) 0x24 := by
  rw [acqStop_run writes]
  have still : s.acq.state ≠ .armed ∧ s.acq.state ≠ .post ∧ s.acq.state ≠ .rearm := by simpa [Acq.records, and_assoc] using rests
  cases st : s.acq.state
  case armed => exact absurd st still.1
  case post => exact absurd st still.2.1
  case rearm => exact absurd st still.2.2
  all_goals exact State.acqResult_refuses (by decide)

theorem acqClear_clears (past : s.acq.state = .done ∨ s.acq.state = .stopped) : ∃ t, exec (.acqClear r) s = .next t ∧ t.acq.state = .idle ∧ t.acq.trigs = 0 ∧
    t.acq.cnt = [] ∧ t.acq.ovf = 0 ∧ t.acq.result = 0 ∧ SameBut [.acq] s t :=
  ⟨_, congrArg Host.Outcome.next ((State.gated_ok _ _ writes).trans (if_pos past)), rfl, rfl, rfl, rfl, rfl, (State.updAcq_same s _).trans (State.updAcq_same _ _)⟩

theorem acqClear_refuses (done : s.acq.state ≠ .done) (stopped : s.acq.state ≠ .stopped) : s.AcqRefuses (exec (.acqClear r) s) 0x24 := by
  rw [show exec (.acqClear r) s = .next (s.acqResult 0x24 0) from
    congrArg Host.Outcome.next ((State.gated_ok _ _ writes).trans (if_neg (by simp [done, stopped])))]
  exact State.acqResult_refuses (by decide)

end

section
variable (post : s.acq.state = .post) (past : s.acq.trig + s.postNs ≤ s.now)
include post past

/-- The engine with its blocks closed at the end of POST. -/
def State.postClosed (s : State) : State :=
  (List.range 64).foldl (fun s c => s.closeBlock c) (if (List.range 64).any fun c => (s.chan c).gapSeg then s.logMark 1 else s)

omit post past in
theorem State.session_postClosed (s : State) : s.postClosed.acq.session_ = s.acq.session_ := by
  have marked : (if (List.range 64).any fun c => (s.chan c).gapSeg then s.logMark 1 else s).acq = s.acq := by
    split
    · exact Part.of_same (x := .acq) (State.logMark_same s 1) rfl
    · rfl
  exact (State.session_closeBlocks _ _).trans (congrArg Acq.session_ marked)

theorem acqPostComplete_run : exec .acqPostComplete s = .next (
    if s.postClosed.acq.stopPend then s.postClosed.endSession .stopped 1
    else if s.segN ≤ s.postClosed.acq.trigs then s.postClosed.endSession .done 0
    else s.postClosed.updAcq fun a =>
      { a with state := .rearm, seg := a.seg + 1, rearmT := s.now, chans := Tab.mapAll {} (fun k => { k with blocks := 0, gapSeg := false }) a.chans }) := by
  show execAcqPostComplete s = _
  unfold execAcqPostComplete State.postClosed
  rw [if_neg (by simp [post, Nat.not_lt.2 past])]

theorem acqPostComplete_stops (stop : s.acq.stopPend = true) : ∃ t, exec .acqPostComplete s = .next t ∧ t.acq.state = .stopped := by
  obtain ⟨kept, -, -⟩ := Acq.of_session s.session_postClosed
  rw [acqPostComplete_run post past, kept, if_pos stop]
  exact ⟨_, rfl, State.acqState_endSession _ .stopped 1⟩

theorem acqPostComplete_ends (goes : s.acq.stopPend = false) (last : s.segN ≤ s.acq.trigs) : ∃ t, exec .acqPostComplete s = .next t ∧ t.acq.state = .done ∧
    (t.hd .acq).running = false := by
  obtain ⟨kept, trigs, -⟩ := Acq.of_session s.session_postClosed
  rw [acqPostComplete_run post past, kept, goes, if_neg Bool.false_ne_true, trigs, if_pos last]
  exact ⟨_, rfl, State.acqState_endSession _ .done 0, State.running_endSession _ .done 0⟩

theorem acqPostComplete_rearms (goes : s.acq.stopPend = false) (more : s.acq.trigs < s.segN) : ∃ t, exec .acqPostComplete s = .next t ∧ t.acq.state = .rearm ∧
    t.acq.seg = s.acq.seg + 1 ∧ t.acq.trigs = s.acq.trigs := by
  obtain ⟨kept, trigs, seg⟩ := Acq.of_session s.session_postClosed
  rw [acqPostComplete_run post past, kept, goes, if_neg Bool.false_ne_true, trigs, if_neg (Nat.not_le.2 more)]
  generalize s.postClosed = u at seg trigs
  exact ⟨_, rfl, rfl, congrArg (· + 1) seg, trigs⟩

end

theorem acqPostComplete_rests (other : s.acq.state ≠ .post) : exec .acqPostComplete s = .next s := congrArg Host.Outcome.next (if_pos (.inl other))

theorem acqRearmComplete_arms (rearm : s.acq.state = .rearm) (past : s.acq.rearmT + s.preNs ≤ s.now) : ∃ t, exec .acqRearmComplete s = .next t ∧
    t.acq.state = .armed ∧ t.acq.seqState = 0 ∧ t.acq.cnt = s.acq.cnt ∧ t.acq.tmr = [] ∧ t.acq.deadLast = s.now - s.acq.acc ∧
    t.acq.deadMax = max s.acq.deadMax (s.now - s.acq.acc) := by
  let s1 := s.storeRam (s.logAddr (s.acq.trigs - 1) + 24) (wordBytes (word (s.now - s.acq.acc)))
  let s2 := s1.updAcq fun a =>
    { a with state := .armed, seqState := 0, seqIn := s.now * 1000, seqArm := 0, tmr := [], exp := [], deadLast := s.now - s.acq.acc,
             deadMax := max a.deadMax (s.now - s.acq.acc) }
  let t := s2.record .acq 0 0x1312 [s.acq.trigs - 1, (s.now - s.acq.acc) % 2 ^ 32]
  have logged : s1.acq = s.acq := Part.of_same (x := .acq) (State.storeRam_same s _ _) rfl
  have acq : t.acq = s2.acq := State.acq_record s2 _ _ _ _
  have run : exec .acqRearmComplete s = .next t := congrArg Host.Outcome.next (if_neg (by simp [rearm, Nat.not_lt.2 past]))
  refine ⟨t, run, ?_⟩
  rw [acq]
  have cnt : s1.acq.cnt = s.acq.cnt := congrArg Acq.cnt logged
  refine ⟨rfl, rfl, cnt, rfl, rfl, ?_⟩
  exact congrArg (fun a : Acq => max a.deadMax (s.now - s.acq.acc)) logged

/-! ### The block that waits for memory (R376) -/

theorem acqBlockWritten_none (empty : s.acq.buf = []) (b : Bool) : exec (.acqBlockWritten b) s = .next s := by
  show execAcqBlockWritten b s = _
  rw [execAcqBlockWritten, empty]

section
variable {b : CapBlock} {l : List CapBlock} (waits : s.acq.buf = b :: l) (len : b.bytes.length = 4096) (running : (s.hd .mem).running = true)
  (here : inSdram s b.addr 4096 = true)
include waits len running here

theorem acqBlockWritten_writes : ∃ t, exec (.acqBlockWritten false) s = .next t ∧ t.acq.buf = l ∧ t.load b.addr 4096 = b.bytes ∧ SameBut [.acq, .mem] s t ∧
    ∀ a, (a < b.addr ∨ b.addr + 4096 ≤ a) → t.mem8 a = s.mem8 a := by
  let s1 := s.updAcq fun a => { a with buf := l }
  have stored : s1.storeRam b.addr b.bytes = s1.store b.addr b.bytes := State.storeRam_sdram running (by rw [len]; exact here)
  have run : exec (.acqBlockWritten false) s = .next (s1.store b.addr b.bytes) := by
    show execAcqBlockWritten false s = _
    rw [execAcqBlockWritten, waits, ← stored]
    rfl
  refine ⟨_, run, rfl, ?_, ?_, fun a out => ?_⟩
  · rw [← len]
    exact State.load_store s1 b.addr b.bytes
  · exact SameBut.trans (SameBut.mono' (State.updAcq_same s _) rfl) (SameBut.mono' (State.store_same s1 _ _) rfl)
  · exact State.mem8_store_out s1 b.addr b.bytes (by rw [len]; exact out)

theorem acqBlockWritten_fails : ∃ t, exec (.acqBlockWritten true) s = .next t ∧ t.acq.buf = l ∧ (t.load b.addr 4096).drop 60 ≠ b.bytes.drop 60 ∧
    (t.load b.addr 4096).take 60 = b.bytes.take 60 ∧ (t.hd .acq).errCode = 0x1326 := by
  let s1 := s.updAcq fun a => { a with buf := l }
  let wrong := word (leNat ((b.bytes.drop 60).take 4)) ^^^ (Config.freeWord s1.draw.1 ||| 1)
  let bytes := b.bytes.take 60 ++ wordBytes wrong ++ b.bytes.drop 64
  have head : (b.bytes.take 60).length = 60 := by simp [len]
  have size : bytes.length = 4096 := by simp [bytes, wordBytes, len]
  have stored : s1.draw.2.storeRam b.addr bytes = s1.draw.2.store b.addr bytes := State.storeRam_sdram running (by rw [size]; exact here)
  have run : exec (.acqBlockWritten true) s = .next ((s1.draw.2.store b.addr bytes).err .acq 0x26) := by
    show execAcqBlockWritten true s = _
    rw [execAcqBlockWritten, waits, ← stored]
    rfl
  have mem : ((s1.draw.2.store b.addr bytes).err .acq 0x26).load b.addr 4096 = bytes := by
    rw [← size, State.load, Part.of_same (x := .mem) (State.err_same _ .acq 0x26) rfl]
    exact State.load_store s1.draw.2 b.addr bytes
  have acq : ((s1.draw.2.store b.addr bytes).err .acq 0x26).acq = s1.acq := Part.of_same (x := .acq) (State.err_same _ .acq 0x26) rfl
  refine ⟨_, run, congrArg Acq.buf acq, ?_, ?_, congrArg Hdr.errCode (State.hd_err_same _ .acq 0x26)⟩
  · rw [mem, show bytes.drop 60 = wordBytes wrong ++ b.bytes.drop 64 by simp [bytes, List.append_assoc, head]]
    exact wrong_crc_ne wrong _ rfl
  · rw [mem]
    simp [bytes, List.append_assoc, head]

end

end

/-- Settles O47, one lemma per command and case. -/
theorem acquisitionSessions : Obligations.AcquisitionSessions := by
  unfold Obligations.AcquisitionSessions
  intro s x quiet due refused
  refine ⟨fun rests b => acqPointSample_rests rests b, fun records still => acqPointSample_skips records still, fun c armed still one => ?_,
    fun k t0 running => ⟨fun still => acqTimerExpiry_quiet running still, fun records after => ?_⟩, fun k rising t8 off on => ⟨fun still => trigInEdge_quiet off on still, fun armed after => ?_⟩,
    fun r m writes still => acqTflagSet_sets writes still,
    fun r ok writes => ⟨fun checked => acqArm_accepts writes checked, fun e c ne _ checked => acqArm_refuses writes ne checked,
      fun records => State.armCheck_recording records ok, fun bad => State.armCheck_segments bad ok⟩, fun req => ?_,
    fun r writes => ⟨fun records => acqStop_stops writes records, fun rests => acqStop_refuses writes rests, fun past => acqClear_clears writes past,
      fun done stopped => acqClear_refuses writes done stopped⟩,
    fun post past => ⟨fun stop => acqPostComplete_stops post past stop, fun goes last => acqPostComplete_ends post past goes last,
      fun goes more => acqPostComplete_rearms post past goes more⟩,
    fun other => acqPostComplete_rests other, fun rearm past => acqRearmComplete_arms rearm past, fun empty b => acqBlockWritten_none empty b,
    fun b l waits len running here => ⟨acqBlockWritten_writes waits len running here, acqBlockWritten_fails waits len running here⟩⟩
  · intro g k v mode red depth narrow fresh whole room
    exact acqPointSample_records armed still one mode red depth narrow fresh whole room
  · intro q0 timer own acts still
    exact acqTimerExpiry_moves running records after timer own acts still
  · intro q0 ext own edge acts still
    exact trigInEdge_captures off on armed after ext own edge acts still
  · obtain ⟨acq, runs⟩ := State.acqArmEffective_arms req
    rw [acq]
    exact ⟨rfl, rfl, rfl, rfl, rfl, rfl, rfl, rfl, runs⟩

end Sys2Proof.Machine
end

section
/-!
SUPPORT. The field die (R289–R307): masks of the 32 channels, what its outputs follow, what a silence and a raised error leave of it, what the parts outside it leave alone.
-/

namespace Sys2Proof.Machine

/-! ### Masks of the channels -/

theorem testBit_nput_fresh {m n : Nat} (clear : m.testBit n = false) (b : Bool) (k : Nat) : (nput m n b).testBit k = (m.testBit k || (b && decide (k = n))) := by
  cases b with
  | true =>
    by_cases own : k = n
    · simp [nput, own, Nat.testBit_or]
    · simp [nput, own, Nat.testBit_or, Nat.testBit_two_pow_of_ne (Ne.symm own)]
  | false => simp [nput, clear]

theorem testBit_mask (f : Nat → Bool) (k : Nat) : ∀ n, ((List.range n).foldl (fun m k => nput m k (f k)) 0).testBit k = (decide (k < n) && f k)
  | 0 => by simp
  | n + 1 => by
    have clear : ((List.range n).foldl (fun m k => nput m k (f k)) 0).testBit n = false := by
      rw [testBit_mask f n n]
      simp
    rw [List.range_succ, List.foldl_append, List.foldl_cons, List.foldl_nil, testBit_nput_fresh clear, testBit_mask f k n]
    by_cases own : k = n
    · subst own
      simp
    · have next_ : k < n + 1 ↔ k < n := by omega
      simp [own, next_]

theorem nbit_mask32 (f : Nat → Bool) {k : Nat} (lt : k < 32) : nbit (mask32 f) k = f k := by
  rw [nbit, mask32, testBit_mask]
  simp [lt]

/-! ### What the outputs follow (Table FIO-3) -/

/-- Every output has the state of its row of Table FIO-3. -/
def Fio.Driven (x : Fio) : Prop := x.driven = mask32 x.drives

theorem Fio.driven_drive (x : Fio) : x.drive.Driven := rfl

section
variable {x : Fio} {k : Nat}

theorem Fio.Driven.nbit (d : x.Driven) (lt : k < 32) : nbit x.driven k = x.drives k := by rw [d, nbit_mask32 _ lt]

theorem Fio.drives_forcedOff (off : x.forcedOff k = true) : x.drives k = false := by simp [Fio.drives, off]

theorem Fio.drives_mmOff (off : Sys2Proof.Machine.nbit x.mmOff k = true) : x.drives k = false := by simp [Fio.drives, off]

theorem Fio.forcedOff_uv (uv : (x.group (k / 16)).st = .uv) : x.forcedOff k = true := by simp [Fio.forcedOff, uv]

theorem Fio.forcedOff_grpOff (off : (x.group (k / 16)).st = .grpOff) : x.forcedOff k = true := by simp [Fio.forcedOff, off]

theorem Fio.drives_silent (silent : x.silent = true) (out : x.isOut k = true) (free : x.forcedOff k = false) (mm : Sys2Proof.Machine.nbit x.mmOff k = false) :
    x.drives k = x.safeState k x.holdOver x.hold := by simp [Fio.drives, silent, out, free, mm]

/-- The field die as a silence begins, before its outputs follow. -/
def Fio.hushing (x : Fio) : Fio :=
  ({ x with silent := true, holdOver := false, hold := x.driven,
            groups := (List.range 2).foldl (fun t g => Tab.upd {} t g fun r => { r with quiet := true, enPend := false }) x.groups } : Fio).aoSafeAll false

/-- The field die after a silence has begun. -/
def Fio.hush (x : Fio) : Fio := if x.silent then x else x.hushing.drive

theorem Fio.silent_hush (x : Fio) : x.hush.silent = true := by
  unfold Fio.hush
  split
  · assumption
  · rfl

theorem Fio.hush_hush (x : Fio) : x.hush.hush = x.hush := if_pos x.silent_hush

theorem Fio.Driven.hush (d : x.Driven) : x.hush.Driven := by
  unfold Fio.hush
  split
  · exact d
  · exact Fio.driven_drive _

/-- A group changed at one index: what the change leaves. -/
theorem groups_fold_keeps {α : Type} {f : FGroup → FGroup} {view : FGroup → α} (keeps : ∀ r, view (f r) = view r) (l : List Nat) (t : Tab FGroup) (g : Nat) :
    view (Tab.get {} (l.foldl (fun t g => Tab.upd {} t g f) t) g) = view (Tab.get {} t g) :=
  List.foldlRecOn (motive := fun u : Tab FGroup => view (Tab.get {} u g) = view (Tab.get {} t g)) l _ rfl fun u h i _ => by
    by_cases own : g = i
    · subst own
      rw [Tab.get_upd_same, keeps, h]
    · rw [Tab.get_upd_ne _ _ _ own, h]

theorem Fio.group_hushing (x : Fio) (g : Nat) : (x.hushing.group g).st = (x.group g).st ∧ (x.hushing.group g).uvTest = (x.group g).uvTest :=
  ⟨groups_fold_keeps (f := fun r => { r with quiet := true, enPend := false }) (view := FGroup.st) (fun _ => rfl) _ _ _,
    groups_fold_keeps (f := fun r => { r with quiet := true, enPend := false }) (view := FGroup.uvTest) (fun _ => rfl) _ _ _⟩

/-- A silence changes neither the state of a group nor its test. -/
theorem Fio.group_hush (x : Fio) (g : Nat) : (x.hush.group g).st = (x.group g).st ∧ (x.hush.group g).uvTest = (x.group g).uvTest := by
  unfold Fio.hush
  split
  · exact ⟨rfl, rfl⟩
  · exact x.group_hushing g

theorem Fio.forcedOff_hushing (x : Fio) (k : Nat) : x.hushing.forcedOff k = x.forcedOff k := by
  rw [Fio.forcedOff, (x.group_hushing _).1]
  rfl

/-- What of the field die a silence leaves alone: its link, its configuration and the latched faults. -/
def Fio.latched (x : Fio) : Bool × Bool × Tab Word × Nat × Nat × Nat := (x.linkUp, x.cfgSync, x.cfg, x.oc, x.mm, x.mmOff)

theorem Fio.latched_hush (x : Fio) : x.hush.latched = x.latched := by
  unfold Fio.hush
  split <;> rfl

end

section
variable {s : State}

theorem State.fio_fioSilence (s : State) : s.fioSilence.fio = s.fio.hush := by
  unfold State.fioSilence Fio.hush
  split <;> rfl

theorem State.fio_fatalOutputs (s : State) : s.fatalOutputs.fio = s.fio.hush := by
  have halted (t : State) : t.safFatal.laneHalt.fio = t.fio := Part.of_same (x := .fio) (State.safFatal_same t) rfl
  have outputs : s.fatalOutputs.fio = s.padsLow.fioSilence.safFatal.laneHalt.fio := Part.of_same (x := .fio) (State.pmcRollback_same _ 0 4) rfl
  rw [outputs, halted, State.fio_fioSilence]
  rfl

@[simp] theorem State.fio_irq (s : State) (b : Block) (i : Nat) : (s.irq b i).fio = s.fio := Part.of_same (x := .fio) (State.irq_same s b i) rfl

@[simp] theorem State.fio_err (s : State) (b : Block) (e : Nat) : (s.err b e).fio = s.fio := Part.of_same (x := .fio) (State.err_same s b e) rfl

@[simp] theorem State.fio_record (s : State) (b : Block) (inst code : Nat) (ps : List Nat) : (s.record b inst code ps).fio = s.fio :=
  Part.of_same (x := .fio) (State.record_same s b inst code ps) rfl

@[simp] theorem State.fio_grpEvt (s : State) (code : Nat) (ps : List Nat) : (s.grpEvt code ps).fio = s.fio := by simp [State.grpEvt]

@[simp] theorem State.fio_testRecord (s : State) (what : Nat) (set : Bool) : (s.testRecord what set).fio = s.fio := State.fio_record s.draw.2 _ _ _ _

/-- A raised error leaves the field die, or begins a silence with the FATAL reaction (R478). -/
theorem State.fio_raise (s : State) (b : Block) (inst code : Nat) (sev : Severity) : (s.raise b inst code sev).fio = s.fio ∨ (s.raise b inst code sev).fio = s.fio.hush := by
  have closed : RaiseClosed fun t : State => t.fio = s.fio ∨ t.fio = s.fio.hush :=
    { erm := fun _ _ h => h
      irq := fun t b i h => by rwa [State.fio_irq]
      record := fun t b inst code ps h => by rwa [State.fio_record]
      outputs := fun t h => by
        rw [State.fio_fatalOutputs]
        rcases h with same | hushed
        · exact .inr (congrArg Fio.hush same)
        · rw [hushed, Fio.hush_hush]
          exact .inr rfl }
  exact closed.raise (.inl rfl) b inst code sev

/-- What holds of the field die and of the field die after a silence holds after a raised error. -/
theorem State.fio_raise_of {P : Fio → Prop} (now : P s.fio) (after : P s.fio.hush) (b : Block) (inst code : Nat) (sev : Severity) : P (s.raise b inst code sev).fio := by
  rcases s.fio_raise b inst code sev with same | hushed
  · rwa [same]
  · rwa [hushed]

theorem State.group_updGroup_same (s : State) (g : Nat) (f : FGroup → FGroup) : (s.updGroup g f).fio.group g = f (s.fio.group g) := Tab.get_upd_same _ _ _ _

theorem State.group_updGroup_ne (s : State) {g h : Nat} (f : FGroup → FGroup) (other : h ≠ g) : (s.updGroup g f).fio.group h = s.fio.group h :=
  Tab.get_upd_ne _ _ _ other

/-! ### What the parts outside the field die leave alone -/

/-- The parts that points which arrive from the field die may change. -/
def inputParts : List Part := [.free, .mot, .ptd, .can, .hrc, .mem, .evr, .hdr, .hts, .out]

theorem State.inputPoint_same (s : State) (i : Nat) (v : Word) (q : Byte) (t t' : Nat) : SameBut inputParts s ((s.pointWrite i v q t).followPoint i t') :=
  SameBut.trans (SameBut.mono' (State.pointWrite_same s _ _ _ _) rfl) (SameBut.mono' (State.followPoint_same _ _ _) rfl)

theorem State.writeInputs_same (s : State) (which : Nat → Bool) (t : Nat) : SameBut inputParts s (s.writeInputs which t) := by
  unfold State.writeInputs
  refine SameBut.foldl (fun s k => ?_) _ s
  split
  · split
    · exact SameBut.ite (SameBut.refl _ _) (State.inputPoint_same s _ _ _ _ _)
    · exact SameBut.refl _ _
  · exact SameBut.refl _ _

theorem State.writeSaf_same (s : State) (t : Nat) : SameBut inputParts s (s.writeSaf t) := by
  have bound (u : State) (k : Nat) (v : Word) : SameBut inputParts u (u.writeBound .saf k v qValid t) := by
    unfold State.writeBound
    split
    · exact SameBut.mono' (State.pointWrite_same u _ _ _ _) rfl
    · exact SameBut.refl _ _
  exact SameBut.foldl (fun u k => bound u k _) _ s

theorem State.setFrameT_same (s : State) (type inst t : Nat) : SameBut [.ptd] s (s.setFrameT type inst t) := State.setPtd_same s _

theorem State.capture_same (s : State) (n t src : Nat) : SameBut [.mot, .evr, .hdr, .hts, .out] s (s.capture n t src) := by
  unfold State.capture State.axisEvt
  exact SameBut.trans (SameBut.mono' (State.updAxis_same s n _) rfl) (SameBut.trans (SameBut.mono' (State.record_same _ _ _ _ _) rfl)
    (SameBut.trans (SameBut.mono' (State.updMot_same _ _) rfl) (SameBut.trans (SameBut.mono' (State.irq_same _ _ _) rfl) (SameBut.mono' (State.routeEvt_same _ _ _ _) rfl))))

theorem State.latchEvent_same (s : State) (src : Nat) (rising : Bool) (t : Nat) : SameBut [.mot, .evr, .hdr, .hts, .out] s (s.latchEvent src rising t) :=
  SameBut.foldl (fun s n => State.capture_same s n t src) _ s

theorem State.recordSample_same (s : State) (c : Nat) (x : Int) (t qual : Nat) (bad : Bool) : SameBut seqParts s (s.recordSample c x t qual bad) := by
  have dropped : SameBut seqParts s (s.dropSample c) :=
    SameBut.ite ((State.updAcq_seq s _).trans (SameBut.mono' (State.irq_same _ _ _) rfl)) (State.updAcq_seq s _)
  have ended (u : State) : SameBut seqParts u (u.endGap c) :=
    SameBut.ite (SameBut.refl _ _) ((SameBut.mono' (State.record_same u _ _ _ _) rfl).trans (State.updAcq_seq _ _))
  unfold State.recordSample
  extract_lets g cap full s1 k first lo hi sum runT done late k1 k2 s2
  have opened : SameBut seqParts s s1 := (SameBut.ite (State.closeBlock_same s c) (SameBut.refl _ _)).trans (ended _)
  have put : SameBut seqParts s s2 := opened.trans (State.updAcq_seq s1 _)
  exact SameBut.ite (SameBut.refl _ _) (SameBut.ite dropped (SameBut.ite (put.trans (State.closeBlock_same s2 c)) put))

theorem State.acqAdc_same (s : State) (vals : List (Int × Byte)) (t : Nat) : SameBut seqParts s (s.acqAdc vals t) := by
  unfold State.acqAdc
  split
  · exact SameBut.refl _ _
  · refine SameBut.trans (State.seqEval_same 16 s _ _) (SameBut.foldl (fun s x => ?_) _ _)
    exact (State.recordSample_same s _ _ _ _ _).trans (State.updAcq_seq _ _)

end

end Sys2Proof.Machine
end

section
/-!
PROOF. The field die (O43).
-/

namespace Sys2Proof.Machine

section
variable {s : State}

/-! ### Frames (R289, R290, R298) -/

/-- A frame changes the groups with ENABLE and nothing else of the field die. -/
def Fio.core (x : Fio) : Fio := { x with groups := [] }

theorem Fio.of_core {α : Type} {x y : Fio} (core : y.core = x.core) (f : Fio → α) (keeps : ∀ z : Fio, f z.core = f z) : f y = f x :=
  (keeps y).symm.trans ((congrArg f core).trans (keeps x))

theorem State.core_grpEnables (s : State) : s.grpEnables.fio.core = s.fio.core := by
  refine foldl_keeps (fun u : State => u.fio.core) (fun u g => ?_) (List.range 2) s
  dsimp only
  split
  · split
    · rw [State.fio_grpEvt]
      rfl
    · split
      · rw [State.fio_irq]
        rfl
      · rfl
  · rfl

theorem State.fio_aoCommands (s : State) (t : Nat) : ∃ ao, (s.aoCommands t).fio = { s.fio with ao := ao } := by
  unfold State.aoCommands State.updFio
  dsimp only
  split
  · exact ⟨s.fio.ao, rfl⟩
  · split
    · exact ⟨_, rfl⟩
    · exact ⟨_, rfl⟩

/-- A frame with RUN brings every command, and every output is driven anew. -/
theorem State.fioDown_follows (run : (s.hd .fio).run = true) (t : Nat) : (s.fioDown t).fio.cmd = mask32 (s.fioCommand (t * 2 / 5)) ∧
    (s.fioDown t).fio.runOff = false ∧ (s.fioDown t).fio.Driven := by
  let s1 := s.updFio fun x => { x with runOff := false, cmd := mask32 (s.fioCommand (t * 2 / 5)) }
  have down : s.fioDown t = (s1.grpEnables.fioDrive).aoCommands (t * 2 / 5) := by
    unfold State.fioDown
    simp only [run, Bool.not_true, Bool.false_and, Bool.false_eq_true, if_false, if_true]
    rfl
  have core := s1.core_grpEnables
  obtain ⟨ao, fio⟩ := s1.grpEnables.fioDrive.fio_aoCommands (t * 2 / 5)
  rw [down, fio]
  have cmd : s1.grpEnables.fio.cmd = s1.fio.cmd := Fio.of_core core Fio.cmd fun _ => rfl
  have off : s1.grpEnables.fio.runOff = s1.fio.runOff := Fio.of_core core Fio.runOff fun _ => rfl
  exact ⟨cmd, off, Fio.driven_drive s1.grpEnables.fio⟩

theorem State.fioCommand_congr {t : State} (ptd : t.ptd = s.ptd) (csc : t.csc = s.csc) (running : (t.hd .mem).running = (s.hd .mem).running) (n : Nat) :
    t.fioCommand n = s.fioCommand n := by
  funext k
  unfold State.fioCommand State.outLevel
  rw [ptd, csc]
  split
  · rw [State.readPoint_congr ptd running]
  · rfl

theorem State.silenceEnd_same (s : State) (ms : Nat) : SameBut [.fio, .evr, .hdr, .hts, .out] s (s.silenceEnd ms) :=
  SameBut.trans (SameBut.mono' (State.updFio_same s _) rfl) (SameBut.trans (SameBut.mono' (State.record_same _ _ _ _ _) rfl)
    (SameBut.trans (SameBut.foldl (fun u _ => SameBut.mono' (State.updFio_same u _) rfl) _ _) (SameBut.mono' (State.updFio_same _ _) rfl)))

theorem State.hd_silenceEnd (s : State) (ms : Nat) {a : Block} (other : a ≠ .evr) : (s.silenceEnd ms).hd a = s.hd a := by
  unfold State.silenceEnd
  extract_lets s2
  have told : s2.hd a = s.hd a := State.hd_record _ _ _ _ _ other
  have grouped : ((List.range 2).foldl (fun s g => s.updGroup g FGroup.afterSilence) s2).hdr = s2.hdr := by
    refine foldl_keeps State.hdr ?_ _ _
    exact fun _ _ => rfl
  exact (State.hd_congr grouped a).trans told

theorem State.run_irq (s : State) (a b : Block) (i : Nat) : ((s.irq b i).hd a).run = (s.hd a).run := by
  by_cases own : a = b
  · subst own
    rw [State.hd_irq_same]
  · rw [State.hd_irq_ne _ _ own]

/-- A silent field die that a frame reaches takes it as one that was not silent. -/
theorem State.awake (s : State) : ∃ v, v = (if s.fio.silent then s.unsilence else s) ∧ v.ptd = s.ptd ∧ v.csc = s.csc ∧ (v.hd .mem).running = (s.hd .mem).running ∧
    (v.hd .fio).run = (s.hd .fio).run := by
  refine ⟨_, rfl, ?_⟩
  split
  · have same : SameBut [.free, .fio, .evr, .hdr, .hts, .out] s s.unsilence :=
      SameBut.trans (SameBut.mono' (State.draw_same s) rfl) (SameBut.trans (SameBut.mono' (State.silenceEnd_same _ _) rfl) (SameBut.mono' (State.irq_same _ _ _) rfl))
    have mem : s.unsilence.hd .mem = s.hd .mem :=
      (State.hd_irq_ne _ _ (by decide)).trans (State.hd_silenceEnd _ _ (by decide))
    have ended : ((s.draw.2.silenceEnd (Config.freeWord s.free).toNat).hd .fio).run = (s.hd .fio).run :=
      congrArg Hdr.run (State.hd_silenceEnd s.draw.2 (Config.freeWord s.free).toNat (by decide))
    have fio : (s.unsilence.hd .fio).run = (s.hd .fio).run := (State.run_irq _ .fio .fio 11).trans ended
    exact ⟨Part.of_same (x := .ptd) same rfl, Part.of_same (x := .csc) same rfl, congrArg Hdr.running mem, fio⟩
  · exact ⟨rfl, rfl, rfl, rfl⟩

/-- The outputs follow the states of the groups, not what their supplies measure. -/
theorem Fio.Driven.of_groups {x y : Fio} (d : x.Driven) (core : y.core = x.core) (st : ∀ g, (y.group g).st = (x.group g).st)
    (wait : ∀ g, (y.group g).wait = (x.group g).wait) : y.Driven := by
  have same : y.drives = x.drives := by
    funext k
    have safe (late : Bool) (held : Nat) : y.safeState k late held = x.safeState k late held := Fio.of_core core (fun z => z.safeState k late held) fun _ => rfl
    have out : y.isOut k = x.isOut k := Fio.of_core core (fun z => z.isOut k) fun _ => rfl
    have auto : y.autoRestore k = x.autoRestore k := Fio.of_core core (fun z => z.autoRestore k) fun _ => rfl
    have silent : y.silent = x.silent := Fio.of_core core Fio.silent fun _ => rfl
    have hold : y.hold = x.hold := Fio.of_core core Fio.hold fun _ => rfl
    have holdOver : y.holdOver = x.holdOver := Fio.of_core core Fio.holdOver fun _ => rfl
    have runOff : y.runOff = x.runOff := Fio.of_core core Fio.runOff fun _ => rfl
    have runHold : y.runHold = x.runHold := Fio.of_core core Fio.runHold fun _ => rfl
    have runHoldOver : y.runHoldOver = x.runHoldOver := Fio.of_core core Fio.runHoldOver fun _ => rfl
    have oc : y.oc = x.oc := Fio.of_core core Fio.oc fun _ => rfl
    have mmOff : y.mmOff = x.mmOff := Fio.of_core core Fio.mmOff fun _ => rfl
    have cmd : y.cmd = x.cmd := Fio.of_core core Fio.cmd fun _ => rfl
    simp only [Fio.drives, Fio.forcedOff, safe, out, auto, silent, hold, holdOver, runOff, runHold, runHoldOver, oc, mmOff, cmd, st, wait]
    rfl
  have driven : y.driven = x.driven := Fio.of_core core Fio.driven fun _ => rfl
  rw [Fio.Driven, driven, same]
  exact d

/-- What a frame from the field die shows of a group's supply. -/
def State.showSupply (s : State) (g v c : Nat) : State := s.updGroup g fun r => { r with supply := v % 65536, current := c % 65536 }

theorem State.showSupply_shows (s : State) (g v c : Nat) : ((s.showSupply g v c).fio.group g).supply = v % 65536 ∧ (s.fio.Driven → (s.showSupply g v c).fio.Driven) := by
  have groups (h : Nat) : ((s.showSupply g v c).fio.group h).st = (s.fio.group h).st ∧ ((s.showSupply g v c).fio.group h).wait = (s.fio.group h).wait := by
    by_cases own : h = g
    · subst own
      rw [State.showSupply, State.group_updGroup_same]
      exact ⟨rfl, rfl⟩
    · rw [State.showSupply, State.group_updGroup_ne _ _ own]
      exact ⟨rfl, rfl⟩
  exact ⟨congrArg FGroup.supply (State.group_updGroup_same s g _), fun d => d.of_groups rfl (fun h => (groups h).1) fun h => (groups h).2⟩

/-- A frame from the field die arrives with the states of its inputs. -/
def State.frameUp (s : State) (a b c d : Nat) (rb : Word) (t : Nat) : State :=
  (((((s.updFio fun x => { x with rb := rb.toNat }).showSupply 0 a c).showSupply 1 b d).writeInputs (fun _ => true) t).writeSaf t).setFrameT 0 0 t

/-- The field die's link after the frames of a period: how many failed, and which words toward it fail theirs. -/
def State.fioTaken (s : State) (bad words : Nat) : State := (s.runFollow .fio).updFio fun x => { x with linkErr := (x.linkErr + bad) % 2 ^ 32, badWords := words }

/-- The frame toward the field die finds the commands and RUN as they are, in a silence as well. -/
theorem State.fioTaken_awake (s : State) (bad words n : Nat) : ∃ v, v = (if (s.fioTaken bad words).fio.silent then (s.fioTaken bad words).unsilence else s.fioTaken bad words) ∧
    v.fioCommand n = s.fioCommand n ∧ (v.hd .fio).run = (s.hd .fio).run := by
  obtain ⟨v, woken, ptd, csc, running, runs⟩ := (s.fioTaken bad words).awake
  have followed : (s.runFollow .fio).hd .fio = { s.hd .fio with running := (s.hd .fio).run } := State.hd_updHd_same s .fio _
  have own : ((s.fioTaken bad words).hd .fio).run = (s.hd .fio).run := (congrArg Hdr.run followed : ((s.runFollow .fio).hd .fio).run = _)
  have other : (s.runFollow .fio).hd .mem = s.hd .mem := State.hd_updHd_ne s _ (by decide)
  have mem : (s.fioTaken bad words).hd .mem = s.hd .mem := other
  exact ⟨v, woken, State.fioCommand_congr (s := s) ptd csc (running.trans (congrArg Hdr.running mem)) n, runs.trans own⟩

theorem State.frameUp_shows (v : State) (a b c d : Nat) (rb : Word) (t : Nat) : (v.frameUp a b c d rb t).fio.cmd = v.fio.cmd ∧ (v.frameUp a b c d rb t).fio.runOff = v.fio.runOff ∧
    (v.fio.Driven → (v.frameUp a b c d rb t).fio.Driven) ∧ (v.frameUp a b c d rb t).fio.rb = rb.toNat ∧ ((v.frameUp a b c d rb t).fio.group 0).supply = a % 65536 ∧
    ((v.frameUp a b c d rb t).fio.group 1).supply = b % 65536 := by
  let v2 := v.updFio fun x => { x with rb := rb.toNat }
  let v3 := v2.showSupply 0 a c
  have fio : (v.frameUp a b c d rb t).fio = (v3.showSupply 1 b d).fio := Part.of_same (x := .fio)
    (SameBut.trans (State.writeInputs_same _ _ t) (SameBut.trans (State.writeSaf_same _ t) (SameBut.mono' (State.setFrameT_same _ 0 0 t) rfl))) rfl
  obtain ⟨supplyA, drivenA⟩ := v2.showSupply_shows 0 a c
  obtain ⟨supplyB, drivenB⟩ := v3.showSupply_shows 1 b d
  have groupA : (v3.showSupply 1 b d).fio.group 0 = v3.fio.group 0 := State.group_updGroup_ne _ _ (by decide)
  rw [fio, groupA]
  exact ⟨rfl, rfl, fun driven => drivenB (drivenA driven), rfl, supplyA, supplyB⟩

section
variable (up : s.fio.linkUp = true)
include up

theorem fioRefreshFrame_run (a b c d : Nat) (rb : Word) (t : Nat) : exec (.fioRefreshFrame { ok := true } true a b c d rb t) s =
    .next ((if (s.fioTaken 0 0).fio.silent then (s.fioTaken 0 0).unsilence.fioDown t else (s.fioTaken 0 0).fioDown t).frameUp a b c d rb t) := by
  show execFioRefreshFrame { ok := true } true a b c d rb t s = _
  unfold execFioRefreshFrame State.frameUp State.showSupply
  rw [if_neg (by simp [up])]
  simp only [Bool.not_true, b2n, Bool.false_eq_true, if_false]
  rfl

theorem fioRefreshFrame_brings (run : (s.hd .fio).run = true) (a b c d : Nat) (rb : Word) (t : Nat) : ∃ u, exec (.fioRefreshFrame { ok := true } true a b c d rb t) s = .next u ∧
    u.fio.cmd = mask32 (s.fioCommand (t * 2 / 5)) ∧ u.fio.runOff = false ∧ u.fio.driven = mask32 u.fio.drives ∧ u.fio.rb = rb.toNat ∧
    (u.fio.group 0).supply = a % 65536 ∧ (u.fio.group 1).supply = b % 65536 := by
  obtain ⟨v, woken, commands, runs⟩ := s.fioTaken_awake 0 0 (t * 2 / 5)
  obtain ⟨cmd, off, driven⟩ := State.fioDown_follows (runs.trans run) t
  have down : (if (s.fioTaken 0 0).fio.silent then (s.fioTaken 0 0).unsilence.fioDown t else (s.fioTaken 0 0).fioDown t) = v.fioDown t := by
    rw [woken]
    split <;> rfl
  obtain ⟨cmdU, offU, drivenU, rbU, supplyA, supplyB⟩ := (v.fioDown t).frameUp_shows a b c d rb t
  refine ⟨(v.fioDown t).frameUp a b c d rb t, by rw [fioRefreshFrame_run up, down], ?_⟩
  exact ⟨cmdU.trans (cmd.trans (congrArg mask32 commands)), offU.trans off, drivenU driven, rbU, supplyA, supplyB⟩

theorem fioRefreshFrame_lost (a b c d : Nat) (rb : Word) (t : Nat) : ∃ u, exec (.fioRefreshFrame { ok := false } false a b c d rb t) s = .next u ∧
    u.fio = { s.fio with linkErr := (s.fio.linkErr + 2) % 2 ^ 32, badWords := 0 } ∧ SameBut [.fio, .hdr] s u :=
  ⟨_, congrArg Host.Outcome.next (if_neg (by simp [up])), rfl,
    SameBut.trans (SameBut.mono' (State.runFollow_same s .fio) rfl) (SameBut.mono' (State.updFio_same _ _) rfl)⟩

theorem linkDownDetect_drops (lost : Nat) : ∃ u, exec (.linkDownDetect lost) s = .next u ∧ u.fio.linkUp = false ∧ u.fio.cfgSync = false := by
  let s1 := s.updFio fun x => { x with linkUp := false, cfgSync := false, aiT := none }
  let marked := (s1.pointsWhere fun e => (decide (e.srcType = .fioCh) && !e.output) || decide (e.srcType = .fioAi) || decide (e.srcType = .saf)).foldl
        (fun s i => s.markPoint i markCommLost) s1
  let told := ((marked.record .fio 0 0x1018 [lost]).err .fio errLinkDown).irq .fio 11
  have run : exec (.linkDownDetect lost) s = .next (told.raise .fio 0 0x1018 .fault) := congrArg Host.Outcome.next (if_neg (by simp [up]))
  have same : marked.fio = s1.fio := Part.of_same (x := .fio) (State.markPoints_same markCommLost _ s1) rfl
  have fio : told.fio = s1.fio := by rw [State.fio_irq, State.fio_err, State.fio_record, same]
  have latched : (told.raise .fio 0 0x1018 .fault).fio.latched = told.fio.latched :=
    State.fio_raise_of (P := fun x => x.latched = told.fio.latched) rfl (Fio.latched_hush _) _ _ _ _
  rw [fio] at latched
  exact ⟨_, run, congrArg (·.1) latched, congrArg (·.2.1) latched⟩

end

/-! ### A silence (R291, R292) -/

theorem linkSilence_begins (awake : s.fio.silent = false) : ∃ u, exec .linkSilence s = .next u ∧ u.fio.silent = true ∧ SameBut [.fio] s u ∧
    ∀ k < 32, s.fio.isOut k = true → s.fio.forcedOff k = false → nbit s.fio.mmOff k = false →
      nbit u.fio.driven k = (if s.fio.safeSel k = 1 then true else if s.fio.safeSel k = 2 then nbit s.fio.driven k else false) := by
  refine ⟨s.fioSilence, rfl, ?_, State.fioSilence_same s, fun k lt out free mm => ?_⟩
  · rw [State.fio_fioSilence]
    exact Fio.silent_hush _
  · have begun : s.fioSilence.fio = s.fio.hushing.drive := by rw [State.fio_fioSilence, Fio.hush, if_neg (by simp [awake])]
    have safe : nbit s.fio.hushing.drive.driven k = s.fio.hushing.safeState k false s.fio.driven :=
      ((Fio.driven_drive s.fio.hushing).nbit lt).trans (Fio.drives_silent (x := s.fio.hushing) rfl out ((Fio.forcedOff_hushing _ _).trans free) mm)
    rw [begun, safe]
    show (match s.fio.safeSel k with | 1 => true | 2 => !false && nbit s.fio.driven k | _ => false) = _
    split
    next always => simp [always]
    next held => simp [held]
    next other1 other2 => rw [if_neg other1, if_neg other2]

/-- Under HOLD_LAST nothing is held once HOLD_TMO has elapsed. -/
theorem Fio.drives_heldOver {x : Fio} {k : Nat} (silent : x.silent = true) (late : x.holdOver = true) (held : x.safeSel k = 2) : x.drives k = false := by
  unfold Fio.drives
  split
  · rfl
  · rw [if_pos (by simp [silent]), Fio.safeState, held, late]
    rfl

theorem safeHoldTimeout_ends (silent : s.fio.silent = true) : ∃ u, exec (.safeHoldTimeout false) s = .next u ∧ u.fio.holdOver = true ∧
    ∀ k < 32, s.fio.safeSel k = 2 → nbit u.fio.driven k = false := by
  let x := ({ s.fio with holdOver := true } : Fio).aoSafeAll true
  have run : exec (.safeHoldTimeout false) s = .next (s.updFio fun _ => x.drive) := by
    have late : (if s.fio.silent then ({ s.fio with holdOver := true } : Fio).aoSafeAll true else { s.fio with holdOver := true }) = x := if_pos silent
    rw [← late]
    rfl
  exact ⟨_, run, rfl, fun k lt held => ((Fio.driven_drive x).nbit lt).trans (Fio.drives_heldOver (x := x) silent rfl held)⟩

/-- After a silence the groups in OK wait for an ENABLE. -/
theorem State.group_silenceEnd (s : State) (ms : Nat) {g : Nat} (lt : g < 2) : (s.silenceEnd ms).fio.group g = (s.fio.group g).afterSilence := by
  unfold State.silenceEnd
  extract_lets s2
  have before : s2.fio.group g = s.fio.group g := by
    simp only [s2, State.fio_record]
    rfl
  rw [← before]
  show (((s2.updGroup 0 FGroup.afterSilence).updGroup 1 FGroup.afterSilence).fio).group g = _
  obtain rfl | rfl : g = 0 ∨ g = 1 := by omega
  · rw [State.group_updGroup_ne _ _ (by decide), State.group_updGroup_same]
  · rw [State.group_updGroup_same, State.group_updGroup_ne _ _ (by decide)]

theorem State.silenceEnd_silenced (s : State) (ms : Nat) : (s.silenceEnd ms).fio.silent = false ∧ (s.silenceEnd ms).fio.silenced = true ∧
    (s.silenceEnd ms).fio.linkUp = s.fio.linkUp := by
  unfold State.silenceEnd
  extract_lets s2
  have grouped : ((List.range 2).foldl (fun s g => s.updGroup g FGroup.afterSilence) s2).fio.core = s2.fio.core := by
    refine foldl_keeps (fun u : State => u.fio.core) ?_ _ _
    exact fun _ _ => rfl
  have before : s2.fio = { s.fio with silent := false, silenced := true } := State.fio_record _ _ _ _ _
  generalize (List.range 2).foldl (fun s g => s.updGroup g FGroup.afterSilence) s2 = u at grouped
  rw [before] at grouped
  exact ⟨Fio.of_core grouped Fio.silent fun _ => rfl, Fio.of_core grouped Fio.silenced fun _ => rfl, Fio.of_core grouped Fio.linkUp fun _ => rfl⟩

theorem linkRetrainDone_returns (ms : Nat) (down : s.fio.linkUp = false) (on : (s.hd .fio).pwr = .on) : ∃ u, exec (.linkRetrainDone ms) s = .next u ∧ u.fio.linkUp = true ∧
    u.fio.silent = false ∧ (s.fio.silent = false → u.fio = { s.fio with linkUp := true }) ∧
    (s.fio.silent = true → u.fio.silenced = true ∧ ∀ g < 2, (s.fio.group g).st = .ok → (u.fio.group g).st = .waitEn ∧ (u.fio.group g).wait = .silence) := by
  let s1 := ((s.updFio fun x => { x with linkUp := true }).record .fio 0 0x1019 []).irq .fio 11
  have fio : s1.fio = { s.fio with linkUp := true } := by
    simp only [s1, State.fio_irq, State.fio_record]
    rfl
  have run : exec (.linkRetrainDone ms) s = .next (if s1.fio.silent then s1.silenceEnd ms else s1) := congrArg Host.Outcome.next (if_neg (by simp [down, on]))
  cases was : s.fio.silent with
  | false =>
    refine ⟨s1, run.trans (congrArg Host.Outcome.next (if_neg (by simp [fio, was]))), ?_⟩
    rw [fio]
    exact ⟨rfl, was, fun _ => rfl, fun silent => absurd silent (by decide)⟩
  | true =>
    obtain ⟨spoken, silenced, link⟩ := s1.silenceEnd_silenced ms
    refine ⟨s1.silenceEnd ms, run.trans (congrArg Host.Outcome.next (if_pos (by simp [fio, was]))), link.trans (congrArg Fio.linkUp fio), spoken,
      fun silent => absurd silent (by decide), fun _ => ⟨silenced, fun g lt ok => ?_⟩⟩
    have group : s1.fio.group g = s.fio.group g := by rw [fio]; rfl
    rw [State.group_silenceEnd _ _ lt, group, FGroup.afterSilence, ok]
    exact ⟨rfl, rfl⟩

/-! ### Inputs (R290, R294) -/

/-- The point of one input is written alone. -/
theorem State.writeInputs_one {v : State} {k i : Nat} (t : Nat) (lt : k < 32) (input : v.fio.isIn k = true) (bound : v.boundTo .fioCh k = some i) (read : (v.point i).output = false) :
    v.writeInputs (fun j => decide (j = k)) t = (v.pointWrite i (word (b2n (nbit v.fio.level k))) (v.fioInQ k) t).followPoint i (t * 2 / 5) := by
  unfold State.writeInputs
  rw [foldl_range_single (c := k) (fun u d other => if_neg (by simp [other])) v 32 lt, if_pos (by simp [input]), bound]
  exact if_neg (by simp [read])

section
variable {k : Fin 32} {level : Bool} {t : Nat} (input : s.fio.isIn k.val = true) (edge : nbit s.fio.level k.val = !level) (up : s.fio.linkUp = true)
include input edge up

/-- The state after the latch edge of an input that has changed. -/
def State.inputEdge (s : State) (k : Nat) (level : Bool) (t : Nat) : State :=
  (s.updFio fun x => { x with level := nput x.level k level }).latchEvent (8 + k) level t

theorem fioInputFilterExpiry_run (ok : Bool) : exec (.fioInputFilterExpiry k { high := level, ok := ok } t) s = .next (
    if !(s.inputEdge k.val level t).sendsWord k.val then s.inputEdge k.val level t
    else if ok then (s.inputEdge k.val level t).writeInputs (fun j => decide (j = k.val)) (t * 5 / 2)
    else (s.inputEdge k.val level t).updFio fun x => { x with linkErr := wrapInc x.linkErr }) := by
  show execFioInputFilterExpiry k { high := level, ok := ok } t s = _
  unfold execFioInputFilterExpiry
  rw [if_neg (by simp [input, edge])]
  extract_lets s1
  rw [if_neg (by simp [s1, State.updFio, up])]
  rfl

theorem fioInputFilterExpiry_writes {i : Nat} (bound : s.boundTo .fioCh k.val = some i) (cls : (s.point i).cls = .a) (read : (s.point i).output = false)
    (supplied : (s.fio.group (k.val / 16)).st ≠ .uv) : exec (.fioInputFilterExpiry k { high := level } t) s =
      .next (((s.inputEdge k.val level t).pointWrite i (word (b2n level)) qValid (t * 5 / 2)).followPoint i (t * 5 / 2 * 2 / 5)) := by
  let s1 := s.updFio fun x => { x with level := nput x.level k.val level }
  let v := s.inputEdge k.val level t
  have same : SameBut [.mot, .evr, .hdr, .hts, .out] s1 v := State.latchEvent_same s1 _ _ _
  have fio : v.fio = s1.fio := Part.of_same (x := .fio) same rfl
  have ptd : v.ptd = s.ptd := Part.of_same (x := .ptd) same rfl
  have boundV : v.boundTo .fioCh k.val = some i := by rw [State.boundTo, ptd]; exact bound
  have point : v.point i = s.point i := State.point_congr (congrArg Ptd.act ptd) i
  have sends : v.sendsWord k.val = true := by simp [State.sendsWord, boundV, point, cls]
  have shown : nbit v.fio.level k.val = level := by rw [fio]; exact nbit_nput _ _ _
  have valid : v.fioInQ k.val = qValid := by
    rw [State.fioInQ, fio]
    exact if_neg supplied
  rw [fioInputFilterExpiry_run input edge up, if_neg (by rw [show (s.inputEdge k.val level t).sendsWord k.val = true from sends]; decide), if_pos rfl,
    State.writeInputs_one (v := s.inputEdge k.val level t) (t * 5 / 2) k.isLt (by rw [show (s.inputEdge k.val level t).fio = s1.fio from fio]; exact input) boundV (by rw [point]; exact read),
    show nbit (s.inputEdge k.val level t).fio.level k.val = level from shown, show (s.inputEdge k.val level t).fioInQ k.val = qValid from valid]

theorem fioInputFilterExpiry_loses (sends : (s.inputEdge k.val level t).sendsWord k.val = true) : exec (.fioInputFilterExpiry k { high := level, ok := false } t) s =
    .next ((s.inputEdge k.val level t).updFio fun x => { x with linkErr := wrapInc x.linkErr }) := by
  rw [fioInputFilterExpiry_run input edge up, if_neg (by rw [sends]; decide), if_neg Bool.false_ne_true]

end

theorem State.group_driven (s : State) (g : Nat) (f : FGroup → FGroup) : (s.updGroup g f).fioDrive.fio.group g = f (s.fio.group g) := State.group_updGroup_same s g f

/-! ### Overcurrent and mismatch (R296, R299) -/

theorem channelOvercurrent_latches {k : Fin 32} (driven : nbit s.fio.driven k.val = true) : ∃ u, exec (.channelOvercurrent k) s = .next u ∧ nbit u.fio.oc k.val = true ∧
    nbit u.fio.driven k.val = false ∧ bit (u.hd .fio).irqRaw 10 = true := by
  let x := { s.fio with oc := nput s.fio.oc k.val true }
  let told := (s.updFio fun _ => x.drive).record .fio 0 0x1015 [k.val]
  have run : exec (.channelOvercurrent k) s = .next (told.irq .fio 10) := congrArg Host.Outcome.next (if_neg (by simp [driven]))
  have fio : (told.irq .fio 10).fio = x.drive := (State.fio_irq _ _ _).trans (State.fio_record _ _ _ _ _)
  have latched : nbit x.oc k.val = true := nbit_nput_same _ _
  have off : x.drives k.val = false := Fio.drives_forcedOff (by simp [Fio.forcedOff, latched])
  refine ⟨_, run, by rw [fio]; exact latched, by rw [fio]; exact ((Fio.driven_drive x).nbit k.isLt).trans off, ?_⟩
  rw [State.hd_irq_same]
  exact bit_setBit_same _ (by decide)

/-- A field die whose outputs follow Table FIO-3 keeps the outputs of a group that is off or has no supply off, in a silence as well. -/
theorem Fio.Driven.group_off {x : Fio} (d : x.Driven) {g : Nat} (off : (x.group g).st = .uv ∨ (x.group g).st = .grpOff) {k : Nat} (lt : k < 32) (own : k / 16 = g) :
    Machine.nbit x.driven k = false := by
  rw [d.nbit lt]
  refine Fio.drives_forcedOff ?_
  rcases off with uv | grpOff
  · exact Fio.forcedOff_uv (own ▸ uv)
  · exact Fio.forcedOff_grpOff (own ▸ grpOff)

theorem groupOvercurrent_turnsOff {g : Fin 2} (ma : Nat) (ok : (s.fio.group g.val).st = .ok) : ∃ u, exec (.groupOvercurrent g ma) s = .next u ∧ (u.fio.group g.val).st = .grpOff ∧
    ∀ k < 32, k / 16 = g.val → nbit u.fio.driven k = false := by
  let s1 := (s.updGroup g.val fun r => { r with st := .grpOff, enPend := false }).fioDrive
  let told := s1.grpEvt 0x1016 [g.val, ma]
  have run : exec (.groupOvercurrent g ma) s = .next (told.raise .fio 0 0x1016 .alarm) := congrArg Host.Outcome.next (if_neg (by simp [ok]))
  have fio : told.fio = s1.fio := State.fio_grpEvt _ _ _
  have off : (told.fio.group g.val).st = .grpOff := by
    rw [fio]
    exact congrArg FGroup.st (State.group_driven s g.val _)
  have driven : told.fio.Driven := by
    rw [fio]
    exact Fio.driven_drive _
  obtain ⟨offU, drivenU⟩ : ((told.raise .fio 0 0x1016 .alarm).fio.group g.val).st = .grpOff ∧ (told.raise .fio 0 0x1016 .alarm).fio.Driven :=
    State.fio_raise_of (P := fun x => (x.group g.val).st = .grpOff ∧ x.Driven) ⟨off, driven⟩ ⟨(Fio.group_hush _ _).1.trans off, driven.hush⟩ _ _ _ _
  exact ⟨_, run, offU, fun k lt own => drivenU.group_off (.inr offU) lt own⟩

theorem readbackMismatch_latches {k : Fin 32} {rb : Bool} (out : s.fio.isOut k.val = true) (free : s.fio.forcedOff k.val = false) (fresh : nbit s.fio.mm k.val = false)
    (test : bit (s.fio.chCfg k.val) 6 = false) (driven : nbit s.fio.driven k.val = !rb) : ∃ u, exec (.readbackMismatch k rb) s = .next u ∧ nbit u.fio.mm k.val = true ∧
    (bit (s.fio.chCfg k.val) 5 = true → nbit u.fio.driven k.val = false) := by
  let x := { s.fio with mm := nput s.fio.mm k.val true, mmOff := if bit (s.fio.chCfg k.val) 5 then nput s.fio.mmOff k.val true else s.fio.mmOff }
  let told := ((s.updFio fun _ => x.drive).record .fio 0 0x1014 [k.val, b2n (nbit s.fio.driven k.val), b2n rb]).irq .fio 9
  have run : exec (.readbackMismatch k rb) s = .next (told.raise .fio 0 0x1014 .warn) :=
    congrArg Host.Outcome.next (if_neg (by simp [out, free, fresh, test, driven]))
  have fio : told.fio = x.drive := (State.fio_irq _ _ _).trans (State.fio_record _ _ _ _ _)
  have now : told.fio.latched = x.latched ∧ told.fio.Driven := by
    rw [fio]
    exact ⟨rfl, Fio.driven_drive x⟩
  obtain ⟨latched, drivenU⟩ : (told.raise .fio 0 0x1014 .warn).fio.latched = x.latched ∧ (told.raise .fio 0 0x1014 .warn).fio.Driven :=
    State.fio_raise_of (P := fun y => y.latched = x.latched ∧ y.Driven) now ⟨(Fio.latched_hush _).trans now.1, now.2.hush⟩ _ _ _ _
  have mm : (told.raise .fio 0 0x1014 .warn).fio.mm = x.mm := congrArg (·.2.2.2.2.1) latched
  have mmOff : (told.raise .fio 0 0x1014 .warn).fio.mmOff = x.mmOff := congrArg (·.2.2.2.2.2) latched
  refine ⟨_, run, by rw [mm]; exact nbit_nput_same _ _, fun holds => ?_⟩
  rw [drivenU.nbit k.isLt]
  refine Fio.drives_mmOff ?_
  rw [mmOff]
  exact (congrArg (nbit · k.val) (if_pos holds)).trans (nbit_nput_same _ _)

/-! ### Supplies of the groups (R300, Table FIO-1) -/

theorem fsGroupWarn_warns {g : Fin 2} (v : Nat) (fresh : (s.fio.group g.val).warn = false) : ∃ u, exec (.fsGroupWarn g v) s = .next u ∧ (u.fio.group g.val).warn = true ∧
    (u.fio.group g.val).st = (s.fio.group g.val).st ∧ u.fio.driven = s.fio.driven := by
  let warned := s.updGroup g.val fun r => { r with warn := true, supply := v % 65536 }
  have run : exec (.fsGroupWarn g v) s = .next (warned.grpEvt 0x1010 [g.val, v % 65536]) := congrArg Host.Outcome.next (if_neg (by simp [fresh]))
  have group : warned.fio.group g.val = { s.fio.group g.val with warn := true, supply := v % 65536 } := State.group_updGroup_same s g.val _
  refine ⟨_, run, ?_⟩
  rw [State.fio_grpEvt, group]
  exact ⟨rfl, rfl, rfl⟩

theorem State.uvEnter_enters (s : State) (g : Nat) : ((s.uvEnter g).fio.group g).st = .uv ∧ ((s.uvEnter g).fio.group g).uvTest = (s.fio.group g).uvTest ∧
    ((s.fio.group g).st ≠ .uv → (s.uvEnter g).fio.Driven) := by
  unfold State.uvEnter
  extract_lets x off s1
  split
  next uv => exact ⟨uv, rfl, fun other => absurd uv other⟩
  next other =>
    have fio : (s1.grpEvt 0x1011 [g, off]).fio = s1.fio := State.fio_grpEvt _ _ _
    have group : s1.fio.group g = { s.fio.group g with st := .uv, fromOff := decide ((s.fio.group g).st = .grpOff), quiet := s.fio.silent, enPend := false } :=
      State.group_driven s g _
    have now : ((s1.grpEvt 0x1011 [g, off]).fio.group g).st = .uv ∧ ((s1.grpEvt 0x1011 [g, off]).fio.group g).uvTest = (s.fio.group g).uvTest ∧ (s1.grpEvt 0x1011 [g, off]).fio.Driven := by
      rw [fio, group]
      exact ⟨rfl, rfl, Fio.driven_drive _⟩
    obtain ⟨st, test, driven⟩ := now
    have after := State.fio_raise_of (s := s1.grpEvt 0x1011 [g, off]) (P := fun x => (x.group g).st = .uv ∧ (x.group g).uvTest = (s.fio.group g).uvTest ∧ x.Driven)
      ⟨st, test, driven⟩ ⟨(Fio.group_hush _ _).1.trans st, (Fio.group_hush _ _).2.trans test, driven.hush⟩ .fio 0 0x1011 .alarm
    exact ⟨after.1, after.2.1, fun _ => after.2.2⟩

theorem fsGroupUv_enters {g : Fin 2} (supplied : (s.fio.group g.val).st ≠ .uv) : ∃ u, exec (.fsGroupUv g) s = .next u ∧ (u.fio.group g.val).st = .uv ∧
    ∀ k < 32, k / 16 = g.val → nbit u.fio.driven k = false := by
  obtain ⟨uv, -, driven⟩ := s.uvEnter_enters g.val
  exact ⟨_, rfl, uv, fun k lt own => (driven supplied).group_off (.inl uv) lt own⟩

theorem fsGroupRecovery_leaves {g : Fin 2} (uv : (s.fio.group g.val).st = .uv) (real : (s.fio.group g.val).uvTest = false) : ∃ u, exec (.fsGroupRecovery g) s = .next u ∧
    u.fio.driven = mask32 u.fio.drives ∧
    (((s.fio.group g.val).fromOff = false ∧ (s.fio.group g.val).quiet = false ∧ ∀ k ∈ groupChans g.val, s.fio.isOut k = true → s.fio.autoRestore k = true) →
      (u.fio.group g.val).st = .ok) ∧
    (¬ ((s.fio.group g.val).fromOff = false ∧ (s.fio.group g.val).quiet = false ∧ ∀ k ∈ groupChans g.val, s.fio.isOut k = true → s.fio.autoRestore k = true) →
      (u.fio.group g.val).st = .waitEn) := by
  let auto := !(s.fio.group g.val).fromOff && !(s.fio.group g.val).quiet && (groupChans g.val).all fun k => !s.fio.isOut k || s.fio.autoRestore k
  have restores : auto = true ↔ ((s.fio.group g.val).fromOff = false ∧ (s.fio.group g.val).quiet = false ∧
      ∀ k ∈ groupChans g.val, s.fio.isOut k = true → s.fio.autoRestore k = true) := by
    simp only [auto, Bool.and_eq_true, Bool.not_eq_true', List.all_eq_true, Bool.or_eq_true, and_assoc]
    refine and_congr_right fun _ => and_congr_right fun _ => forall_congr' fun k => forall_congr' fun _ => ?_
    cases s.fio.isOut k <;> simp
  let leave := fun r : FGroup => if auto then { r with st := .ok }
    else { r with st := .waitEn, wait := if (s.fio.group g.val).quiet then .silence else if (s.fio.group g.val).fromOff then .uvOff else .uvAuto }
  let s1 := (s.updGroup g.val leave).fioDrive
  have run : exec (.fsGroupRecovery g) s = .next (s1.grpEvt 0x1012 [g.val, mask32 fun k => decide (k / 16 = g.val) && nbit s1.fio.driven k]) :=
    congrArg Host.Outcome.next (if_neg (by simp [uv, real]))
  have group : s1.fio.group g.val = leave (s.fio.group g.val) := State.group_driven s g.val leave
  refine ⟨_, run, ?_⟩
  rw [State.fio_grpEvt, group, ← restores]
  refine ⟨Fio.driven_drive _, fun yes => ?_, fun no => ?_⟩
  · simp only [leave, if_pos yes]
  · simp only [leave, if_neg no]

theorem fioGrpEnable_waits {p : Principal} {g : Fin 2} (writes : s.writeOk .fio 0x11C .wo p = true) (sync : s.fio.cfgSync = true) (waits : (s.fio.group g.val).st = .waitEn) :
    exec (.fioGrpEnable p g) s = .next (s.updGroup g.val fun r => { r with enPend := true }) :=
  congrArg Host.Outcome.next ((State.gated_ok _ _ writes).trans (if_pos (by simp [sync, waits])))

/-- A refused command of the field die sets its error and leaves the field die. -/
theorem State.fio_refused {o : Out} {e : Nat} (run : o = .next (s.err .fio e)) : ∃ u, o = .next u ∧ u.fio = s.fio ∧ (u.hd .fio).errCode = 0x1000 + e :=
  ⟨_, run, State.fio_err s .fio e, congrArg Hdr.errCode (State.hd_err_same s .fio e)⟩

theorem fioGrpEnable_refuses {p : Principal} {g : Fin 2} (writes : s.writeOk .fio 0x11C .wo p = true) (bad : s.fio.cfgSync = false ∨ (s.fio.group g.val).st = .uv) :
    ∃ u, exec (.fioGrpEnable p g) s = .next u ∧ u.fio = s.fio ∧ (u.hd .fio).errCode = 0x1024 := by
  refine State.fio_refused (e := 0x24) (congrArg Host.Outcome.next ((State.gated_ok _ _ writes).trans (if_neg ?_)))
  rcases bad with unsync | uv
  · simp [unsync]
  · simp [uv]

/-! ### Analog inputs and outputs (R303–R306) -/

/-- A reading on a code of a voltage input converts to that code. -/
theorem sat16_roundMid {v c : Int} (exact_ : v * 32768 = c * 10000000000) (low : -32768 ≤ c) (high : c ≤ 32767) (up : Bool) : sat16 (roundMid (v * 32768) (aiDen false) up) = c := by
  have whole : c * 10000000000 / 10000000000 = c := Int.mul_ediv_cancel c (by decide)
  have near : roundMid (v * 32768) (aiDen false) up = c := by simp [roundMid, aiDen, exact_, whole]
  rw [near, sat16, satS, clamp]
  omega

/-- How a reading changes its input. -/
def State.aiReading (s : State) (k : Nat) (v : Int) (low : Bool) (a : AIn) : AIn :=
  let off := a.off || bit (s.fio.aiCfg k) 0 && decide (30000000000 < v)
  { raw := sat16 (roundMid (v * 32768) (aiDen (bit (s.fio.aiCfg k) 0)) (bit (Config.freeWord s.free) 0)), off := off,
    q := if low then qSupply else if s.fio.calBusy || off || aiClips (bit (s.fio.aiCfg k) 0) v then 0 else qValid }

theorem State.ai_aiOne (s : State) (k : Nat) (v : Int) (low : Bool) : (s.aiOne k v low).fio.ai = Tab.upd {} s.fio.ai k (s.aiReading k v low) := rfl

theorem State.ai_aiOne_same (s : State) (k : Nat) {v c : Int} (volts : bit (s.fio.aiCfg k) 0 = false) (idle : s.fio.calBusy = false) (on : (Tab.get {} s.fio.ai k).off = false)
    (code : v * 32768 = c * 10000000000) (low : -32768 ≤ c) (high : c ≤ 32767) : Tab.get {} (s.aiOne k v false).fio.ai k = { raw := c, q := qValid, off := false } := by
  have within : aiClips false v = false := by
    simp only [aiClips, Bool.false_eq_true, if_false, Bool.or_eq_false_iff, decide_eq_false_iff_not]
    omega
  have raw := sat16_roundMid code low high (bit (Config.freeWord s.free) 0)
  rw [State.ai_aiOne, Tab.get_upd_same]
  simp only [State.aiReading, volts, on, raw, within, idle, Bool.false_and, Bool.or_false, Bool.false_eq_true, if_false]

theorem State.ai_aiOne_ne (s : State) {k m : Nat} (v : Int) (low : Bool) (other : k ≠ m) : Tab.get {} (s.aiOne m v low).fio.ai k = Tab.get {} s.fio.ai k := by
  rw [State.ai_aiOne, Tab.get_upd_ne _ _ _ other]

theorem aiSample_converts (vs : List Int) {t : Nat} (on : (s.hd .fio).pwr = .on) (due : t % 200 = bits (s.reg R.FIO_AI_PHASE) 7 0) : ∃ u, exec (.aiSample vs false t) s = .next u ∧
    u.fio.aiT = some (t * 5 / 2) ∧ ∀ k < 8, ∀ c : Int, bit (s.fio.aiCfg k) 0 = false → s.fio.calBusy = false → (Tab.get {} s.fio.ai k).off = false →
      nth 0 vs k * 32768 = c * 10000000000 → -32768 ≤ c → c ≤ 32767 → Tab.get {} u.fio.ai k = { raw := c, q := qValid, off := false } := by
  refine ⟨_, congrArg Host.Outcome.next (if_neg (by simp [on, due])), rfl, fun k lt c volts idle kept code low high => ?_⟩
  refine (foldl_reaches (f := fun u k => u.aiOne k (nth 0 vs k) false) (I := fun u : State => u.fio.cfg = s.fio.cfg ∧ u.fio.calBusy = false ∧ (Tab.get {} u.fio.ai k).off = false)
    (P := fun u : State => Tab.get {} u.fio.ai k = { raw := c, q := qValid, off := false } ∧ u.fio.cfg = s.fio.cfg ∧ u.fio.calBusy = false)
    (List.mem_range.2 lt) ⟨rfl, idle, kept⟩ (fun u m before => ?keeps) (fun u before => ?sets) fun u m done => ?stays).1
  case sets =>
    obtain ⟨cfg, free, off⟩ := before
    exact ⟨u.ai_aiOne_same k (by rw [Fio.aiCfg, cfg]; exact volts) free off code low high, cfg, free⟩
  case stays =>
    obtain ⟨own, cfg, free⟩ := done
    refine ⟨?_, cfg, free⟩
    by_cases same : k = m
    · subst same
      exact u.ai_aiOne_same k (by rw [Fio.aiCfg, cfg]; exact volts) free (by rw [own]) code low high
    · rw [u.ai_aiOne_ne _ _ same, own]
  case keeps =>
    obtain ⟨cfg, free, off⟩ := before
    refine ⟨cfg, free, ?_⟩
    by_cases same : k = m
    · subst same
      rw [u.ai_aiOne_same k (by rw [Fio.aiCfg, cfg]; exact volts) free off code low high]
    · rw [u.ai_aiOne_ne _ _ same, off]

/-- The points of a conversion, and the samples that ACQ takes of it, leave the field die. -/
theorem aiConversionEnd_leaves {t : Nat} (taken : s.fio.aiT = some t) : ∃ u, exec .aiConversionEnd s = .next u ∧
    SameBut (.acq :: .ave :: inputParts) (s.updFio fun x => { x with aiT := none }) u := by
  refine ⟨_, rfl, ?_⟩
  split
  next none_ => exact absurd (none_.symm.trans taken) (by simp)
  next t' _ =>
    extract_lets s1 s2 s3
    have points : SameBut (.acq :: .ave :: inputParts) s1 s2 := by
      refine SameBut.foldl (fun u k => ?_) (List.range 8) s1
      split
      · exact SameBut.mono' (State.inputPoint_same u _ _ _ _ _) rfl
      · exact SameBut.refl _ _
    have framed : SameBut (.acq :: .ave :: inputParts) s1 s3 := SameBut.trans points (SameBut.mono' (State.setFrameT_same s2 0 0 t') rfl)
    exact SameBut.ite (SameBut.refl _ _) (SameBut.ite (SameBut.trans framed (SameBut.mono' (State.acqAdc_same s3 _ _) rfl)) framed)

theorem aiConversionEnd_unlinked {t : Nat} (taken : s.fio.aiT = some t) (down : s.fio.linkUp = false) :
    exec .aiConversionEnd s = .next (s.updFio fun x => { x with aiT := none }) := by
  show execAiConversionEnd s = _
  rw [execAiConversionEnd, taken]
  exact congrArg Host.Outcome.next (if_pos (by simp [down]))

theorem aiConversionEnd_writes {t : Nat} (taken : s.fio.aiT = some t) : ∃ u, exec .aiConversionEnd s = .next u ∧ u.fio = { s.fio with aiT := none } ∧
    (s.fio.linkUp = false → u = { s with fio := { s.fio with aiT := none } }) := by
  obtain ⟨u, run, same⟩ := aiConversionEnd_leaves taken
  exact ⟨u, run, Part.of_same (x := .fio) same rfl, fun down => Host.Outcome.next.inj (run.symm.trans (aiConversionEnd_unlinked taken down))⟩

theorem aiCalGo_starts {p : Principal} (writes : s.writeOk .fio 0x150 .w1s p = true) (idle : s.fio.calBusy = false) (unused : s.aiInUse = false) :
    exec (.aiCalGo p) s = .next (s.updFio fun x => { x with calBusy := true }) :=
  congrArg Host.Outcome.next ((State.gated_ok _ _ writes).trans ((if_neg (by simp [idle])).trans (if_neg (by simp [unused]))))

theorem aiCalGo_refuses {p : Principal} (writes : s.writeOk .fio 0x150 .w1s p = true) (idle : s.fio.calBusy = false) (used : s.aiInUse = true) :
    ∃ u, exec (.aiCalGo p) s = .next u ∧ u.fio = { s.fio with calResult := 0x22 } ∧ (u.hd .fio).errCode = 0x1022 :=
  State.fio_refused (s := s.updFio fun x => { x with calResult := 0x22 }) (e := 0x22)
    (congrArg Host.Outcome.next ((State.gated_ok _ _ writes).trans ((if_neg (by simp [idle])).trans (if_pos used))))

theorem get_foldl_put (f : Nat → Int) (t : Tab Int) {k : Nat} : ∀ n, k < n → Tab.get 0 ((List.range n).foldl (fun t k => Tab.put 0 t k (f k)) t) k = f k
  | n + 1, lt => by
    rw [List.range_succ, List.foldl_append, List.foldl_cons, List.foldl_nil]
    by_cases own : k = n
    · subst own
      exact Tab.get_put_same _ _ _ _
    · rw [Tab.get_put_ne _ _ _ own, get_foldl_put f t n (by omega)]

/-- Delays measured to 10 ps are what is stored of them. -/
theorem map_tens {ds : List Nat} (tens : ∀ d ∈ ds, d % 10 = 0) (len : ds.length = 8) : ((List.range 8).map fun k => nth 0 ds k / 10 * 10) = ds := by
  refine List.ext_getElem (by simp [len]) fun i left right => ?_
  have ten := tens _ (List.getElem_mem right)
  simp only [List.getElem_map, List.getElem_range, nth, List.getD_eq_getElem _ _ right]
  omega

theorem aiCalDone_stores {ds : List Nat} (busy : s.fio.calBusy = true) (tens : ∀ d ∈ ds, d % 10 = 0) (len : ds.length = 8) (mean : ds.sum % 8 = 0) :
    ∃ u, exec (.aiCalDone ds) s = .next u ∧ u.fio.calBusy = false ∧ u.fio.calResult = 0 ∧
      ∀ k < 8, Tab.get 0 u.fio.aiSkew k = ((nth 0 ds k : Nat) : Int) - ((ds.sum / 8 : Nat) : Int) := by
  let skew := fun k : Nat => (8 * ((nth 0 ds k : Nat) : Int) - (ds.sum : Int)) / 8 + 0
  let stored := s.draw.2.updFio fun x =>
    { x with calBusy := false, calResult := 0, aiSkew := (List.range 8).foldl (fun t k => Tab.put 0 t k (skew k)) x.aiSkew }
  have run : exec (.aiCalDone ds) s = .next (stored.record .fio 0 0x101A [0]) := by
    show execAiCalDone ds s = _
    unfold execAiCalDone
    rw [if_neg (by simp [busy]), map_tens tens len]
    dsimp only
    rw [if_neg (by simp [mean])]
  refine ⟨_, run, ?_⟩
  rw [State.fio_record]
  refine ⟨rfl, rfl, fun k lt => ?_⟩
  have at_ : Tab.get 0 stored.fio.aiSkew k = skew k := get_foldl_put skew s.fio.aiSkew 8 lt
  rw [at_]
  simp only [skew]
  omega

theorem aoDeferredUpdate_updates {k : Fin 4} (t : Nat) {c : Int} (waits : (Tab.get {} s.fio.ao k.val).wait = some c) : ∃ u, exec (.aoDeferredUpdate k t) s = .next u ∧
    Tab.get {} u.fio.ao k.val = { code := c, at_ := t, wait := none } ∧ SameBut [.fio] s u := by
  refine ⟨_, rfl, ?_, State.updFio_same s _⟩
  have updated (f : AOut → AOut) : Tab.get {} (s.updFio fun x => { x with ao := Tab.upd {} x.ao k.val f }).fio.ao k.val = f (Tab.get {} s.fio.ao k.val) :=
    Tab.get_upd_same _ _ _ _
  rw [updated, waits]

/-! ### Test modes (R307) -/

/-- One group takes its bit of FIO_TEST. -/
def State.testUv (s : State) (g : Nat) (on : Bool) : State :=
  if (s.fio.group g).uvTest = on then s
  else
    let s1 := (s.updGroup g fun r => { r with uvTest := on }).testRecord g on
    if on then s1.uvEnter g else s1

theorem State.testUv_enters (s : State) {g : Nat} (off : (s.fio.group g).uvTest = false) : ((s.testUv g true).fio.group g).uvTest = true ∧ ((s.testUv g true).fio.group g).st = .uv := by
  let s1 := (s.updGroup g fun r => { r with uvTest := true }).testRecord g true
  have on : (s1.fio.group g).uvTest = true := by
    rw [State.fio_testRecord]
    exact congrArg FGroup.uvTest (State.group_updGroup_same s g fun r => { r with uvTest := true })
  have run : s.testUv g true = s1.uvEnter g := (if_neg (by simp [off])).trans (if_pos rfl)
  obtain ⟨uv, kept, -⟩ := s1.uvEnter_enters g
  rw [run]
  exact ⟨kept.trans on, uv⟩

theorem State.group_testUv_ends (s : State) {g h : Nat} (other : h ≠ g) : (s.testUv g false).fio.group h = s.fio.group h := by
  unfold State.testUv
  split
  · rfl
  · rw [if_neg Bool.false_ne_true, State.fio_testRecord, State.group_updGroup_ne _ _ other]

section
variable {p : Principal} (writes : s.writeOk .fio 0x124 .rw p = true)
include writes

theorem fioTestUv_refuses (closed : s.testOpen = false) : ∃ u, exec (.fioTestUv p 1) s = .next u ∧ u.fio = s.fio ∧ (u.hd .fio).errCode = 0x1023 :=
  State.fio_refused (e := 0x23) (congrArg Host.Outcome.next ((State.gated_ok _ _ writes).trans (if_pos (by simp [closed]))))

theorem fioTestUv_enters (open_ : s.testOpen = true) (off : (s.fio.group 0).uvTest = false) : ∃ u, exec (.fioTestUv p 1) s = .next u ∧ (u.fio.group 0).uvTest = true ∧
    (u.fio.group 0).st = .uv := by
  let s0 := s.setReg R.FIO_TEST (word 1)
  have run : exec (.fioTestUv p 1) s = .next ((s0.testUv 0 true).testUv 1 false) :=
    congrArg Host.Outcome.next ((State.gated_ok _ _ writes).trans (if_neg (by simp [open_])))
  obtain ⟨on, uv⟩ := s0.testUv_enters (g := 0) off
  refine ⟨_, run, ?_⟩
  rw [State.group_testUv_ends _ (by decide)]
  exact ⟨on, uv⟩

end

end

/-- Settles O43, one lemma per command and case. -/
theorem fieldDieFollowsItsTables : Obligations.FieldDieFollowsItsTables := by
  unfold Obligations.FieldDieFollowsItsTables
  intro s x
  refine ⟨fun a b c d rb t up run => fioRefreshFrame_brings up run a b c d rb t, fun a b c d rb t up => fioRefreshFrame_lost up a b c d rb t,
    fun awake => linkSilence_begins awake, fun silent => safeHoldTimeout_ends silent, fun lost up => linkDownDetect_drops up lost,
    fun ms down on => linkRetrainDone_returns ms down on, fun k level t i input edge up bound cls read supplied => ?_, fun k level t input edge up => ?_,
    fun k driven => channelOvercurrent_latches driven, fun g ma ok => groupOvercurrent_turnsOff ma ok,
    fun k rb out free fresh test driven => readbackMismatch_latches out free fresh test driven, fun g v fresh => fsGroupWarn_warns v fresh, fun g => rfl,
    fun g supplied => fsGroupUv_enters supplied, fun g uv real => fsGroupRecovery_leaves uv real,
    fun p g writes => ⟨fun sync waits => fioGrpEnable_waits writes sync waits, fun bad => fioGrpEnable_refuses writes bad⟩,
    fun vs t on due => aiSample_converts vs on due, fun t taken => aiConversionEnd_writes taken, fun k => rfl,
    fun p writes idle => ⟨fun unused => aiCalGo_starts writes idle unused, fun used => aiCalGo_refuses writes idle used⟩,
    fun ds busy tens len mean => aiCalDone_stores busy tens len mean, fun k t c waits => aoDeferredUpdate_updates t waits,
    fun p writes => ⟨fun open_ off => fioTestUv_enters writes open_ off, fun closed => fioTestUv_refuses writes closed⟩⟩
  · exact fioInputFilterExpiry_writes input edge up bound cls read supplied
  · intro s2 sends
    exact fioInputFilterExpiry_loses input edge up sends

end Sys2Proof.Machine
end

section
/-!
SUPPORT. The Lane ports (R310–R326): what a port and a station hold after a change, what the parts outside the ports leave of them, frames sent, enumeration and admission.
-/

namespace Sys2Proof.Machine

/-! ### Tables written twice at one key -/

theorem Tab.erase_erase {α : Type} : ∀ (t : Tab α) (k : Nat), Tab.erase (Tab.erase t k) k = Tab.erase t k
  | [], _ => rfl
  | (j, v) :: t, k => by
    by_cases own : j = k
    · simp [Tab.erase, own, Tab.erase_erase t k]
    · simp [Tab.erase, own, Tab.erase_erase t k]

theorem Tab.erase_insert {α : Type} (k : Nat) (v : α) : ∀ t : Tab α, Tab.erase (Tab.insert k v t) k = Tab.erase t k
  | [] => by simp [Tab.insert, Tab.erase]
  | (j, w) :: t => by
    unfold Tab.insert
    split
    · simp [Tab.erase]
    · by_cases own : j = k
      · simp [Tab.erase, own, Tab.erase_insert k v t]
      · simp [Tab.erase, own, Tab.erase_insert k v t]

theorem Tab.put_put {α : Type} [DecidableEq α] (d : α) (t : Tab α) (k : Nat) (v w : α) : Tab.put d (Tab.put d t k v) k w = Tab.put d t k w := by
  have erased : Tab.erase (Tab.put d t k v) k = Tab.erase t k := by
    unfold Tab.put
    split
    · exact Tab.erase_erase t k
    · rw [Tab.erase_insert, Tab.erase_erase]
  rw [Tab.put, erased, Tab.put]

theorem Tab.upd_upd {α : Type} [DecidableEq α] (d : α) (t : Tab α) (k : Nat) (f g : α → α) : Tab.upd d (Tab.upd d t k f) k g = Tab.upd d t k fun v => g (f v) := by
  unfold Tab.upd
  rw [Tab.get_put_same, Tab.put_put]

/-! ### A port and a station after a change -/

section
variable (s : State) (p k : Nat)

theorem State.updPort_updPort (f g : LPort → LPort) : (s.updPort_ p f).updPort_ p g = s.updPort_ p fun x => g (f x) :=
  congrArg (fun t : Tab LPort => { s with lne := { s.lne with ports := t } }) (Tab.upd_upd {} s.lne.ports p f g)

@[simp] theorem State.sta_updPort (q : Nat) (f : LPort → LPort) : (s.updPort_ q f).sta p k = s.sta p k := rfl

theorem State.lport_updPort_ne {q : Nat} (f : LPort → LPort) (other : p ≠ q) : (s.updPort_ q f).lport p = s.lport p := Tab.get_upd_ne _ _ _ other

@[simp] theorem State.lport_updSta (q j : Nat) (f : Sta → Sta) : (s.updSta q j f).lport p = s.lport p := rfl

@[simp] theorem State.sta_updSta_same (f : Sta → Sta) : (s.updSta p k f).sta p k = f (s.sta p k) := Tab.get_upd_same _ _ _ _

@[simp] theorem State.sta_laneSend (q : Nat) (f : LaneFrame) : (s.laneSend q f).sta p k = s.sta p k := rfl

theorem State.sta_congr {t : State} (lne : t.lne = s.lne) : t.sta p k = s.sta p k := by rw [State.sta, lne, State.sta]

theorem State.updSta_same (f : Sta → Sta) : SameBut [.lne] s (s.updSta p k f) := fun x hx => by
  cases x <;> first | rfl | exact absurd hx (by decide)

/-! ### What the parts outside the ports leave of them -/

theorem State.markLane_same (f : DirEntry → Bool) (m : Byte → Byte) : SameBut pointParts s (s.markLane p k f m) := State.markPoints_same m _ s

theorem State.stationFault_same (f : AxisDesc → Bool) : SameBut [.mot] s (s.stationFault p k f) := SameBut.foldl (fun s n => State.updAxis_same s n _) _ s

theorem State.laneInput_same (a : Bool) (img : List Byte) (t : Nat) : SameBut inputParts s (s.laneInput p k a img t) :=
  SameBut.foldl (fun u _ => State.inputPoint_same u _ _ _ _ _) _ s

theorem State.driveStats_same (l : List DriveStat) : SameBut [.mot] s (s.driveStats p k l) := by
  refine SameBut.foldl (fun u d => ?_) l s
  have told : SameBut [.mot] u ((u.axesWhere fun a => a.applied && decide (a.desc.bind = .lane) && decide (a.desc.port = p) && decide (a.desc.station = k) &&
      decide (a.desc.drive = d.drive)).foldl (fun s n => s.updAxis n fun a => { a with stPos := some d.pos }) u) := SameBut.foldl (fun s n => State.updAxis_same s n _) _ u
  exact SameBut.ite (SameBut.trans told (State.stationFault_same _ p k _)) told

/-- The parts that an event of a station may change. -/
def eventParts : List Part := [.csc, .evr, .hdr, .hts, .out]

theorem State.stationEvent_same (typ slot ep out tLow : Nat) : SameBut eventParts s (s.stationEvent p k typ slot ep out tLow) := by
  have settled (u : State) (b : Nat) : SameBut eventParts u (u.groupSettle b) :=
    SameBut.ite (SameBut.trans (SameBut.mono' (State.updCsc_same u _) rfl) (SameBut.trans (SameBut.mono' (State.irq_same _ _ _) rfl)
      (SameBut.trans (SameBut.mono' (State.routeEvt_same _ _ _ _) rfl) (SameBut.mono' (State.record_same _ _ _ _ _) rfl)))) (SameBut.refl _ _)
  have recorded (u : State) (code : Nat) (ps : List Nat) : SameBut eventParts u (u.record .csc 0 code ps) := SameBut.mono' (State.record_same u _ _ _ _) rfl
  have changed (u : State) (f : Csc → Csc) : SameBut eventParts u (u.updCsc f) := SameBut.mono' (State.updCsc_same u f) rfl
  unfold State.stationEvent
  dsimp only
  split
  · exact changed s _
  · exact SameBut.trans (changed s _) (SameBut.trans (changed _ _) (SameBut.trans (recorded _ _ _) (settled _ _)))
  · exact SameBut.trans (changed s _) (SameBut.trans (recorded _ _ _) (settled _ _))
  · exact SameBut.trans (changed s _) (SameBut.trans (recorded _ _ _) (settled _ _))
  · exact SameBut.refl _ _

theorem State.laneEvents_same : ∀ (n : Nat) (s : State) (bs : List Byte), SameBut eventParts s (s.laneEvents p k n bs)
  | 0, s, _ => SameBut.refl _ s
  | n + 1, s, _ => SameBut.trans (State.stationEvent_same s p k _ _ _ _ _) (State.laneEvents_same n _ _)

theorem State.laneImage_same (a : Bool) (len : Nat) : SameBut [.free] s (s.laneImage p k a len).2 := fun x hx => by
  cases x <;> first | rfl | exact absurd hx (by decide)

theorem State.staEvt_same : SameBut [.hdr, .hts, .out] s (s.staEvt p k) :=
  SameBut.trans (State.irq_same s _ _) (SameBut.mono' (State.routeEvt_same _ _ _ _) rfl)

theorem State.lne_irq (b : Block) (i : Nat) : (s.irq b i).lne = s.lne := Part.of_same (x := .lne) (State.irq_same s b i) rfl
theorem State.lne_err (b : Block) (e : Nat) : (s.err b e).lne = s.lne := Part.of_same (x := .lne) (State.err_same s b e) rfl
theorem State.lne_record (b : Block) (inst code : Nat) (ps : List Nat) : (s.record b inst code ps).lne = s.lne :=
  Part.of_same (x := .lne) (State.record_same s b inst code ps) rfl
theorem State.lne_staEvt : (s.staEvt p k).lne = s.lne := Part.of_same (x := .lne) (State.staEvt_same s p k) rfl
theorem State.lne_markLane (f : DirEntry → Bool) (m : Byte → Byte) : (s.markLane p k f m).lne = s.lne := Part.of_same (x := .lne) (State.markLane_same s p k f m) rfl

/-! ### States of a port and of a station -/

/-- A port with a new state. -/
theorem State.lport_portTo (st : PortState) : (s.portTo p st).lport p = { s.lport p with state := st } := by
  unfold State.portTo
  dsimp only
  split
  next same => rw [← same]
  next => rw [State.lport_congr (State.lne_irq _ _ _), State.lport_congr (State.lne_record _ _ _ _ _), State.lport_updPort_same]; rfl

theorem State.sta_portTo (q j : Nat) (st : PortState) : (s.portTo p st).sta q j = s.sta q j := by
  unfold State.portTo
  dsimp only
  split
  · rfl
  · rw [State.sta_congr _ _ _ (State.lne_irq _ _ _), State.sta_congr _ _ _ (State.lne_record _ _ _ _ _)]
    rfl

theorem State.sta_staTo (st : StaState) : (s.staTo p k st).sta p k = { s.sta p k with state := st } := by
  unfold State.staTo
  dsimp only
  split
  next same => rw [← same]
  next => rw [State.sta_congr _ _ _ (State.lne_staEvt _ _ _), State.sta_congr _ _ _ (State.lne_record _ _ _ _ _), State.sta_updSta_same]

theorem State.lport_staTo (q : Nat) (st : StaState) : (s.staTo p k st).lport q = s.lport q := by
  unfold State.staTo
  dsimp only
  split
  · rfl
  · rw [State.lport_congr (State.lne_staEvt _ _ _), State.lport_congr (State.lne_record _ _ _ _ _)]
    rfl

theorem State.lport_laneResult (e j : Nat) : (s.laneResult p e j).lport p = { s.lport p with result := e, resultSta := j } := by
  unfold State.laneResult
  dsimp only
  split
  · exact State.lport_updPort_same s p _
  · rw [State.lport_congr (State.lne_err _ _ _), State.lport_updPort_same]

theorem State.lport_portLost (q : Nat) : (s.portLost p).lport q = s.lport q := by
  have faulted (u : State) (j : Nat) : ((u.updSta p j fun x => { x with commLost := true }).stationFault p j fun _ => true).lport q = u.lport q :=
    State.lport_congr (s := u.updSta p j fun x => { x with commLost := true }) (Part.of_same (x := .lne) (State.stationFault_same _ p j _) rfl) q
  unfold State.portLost
  extract_lets s1
  have marked : s1.lport q = s.lport q := State.lport_congr (Part.of_same (x := .lne) (State.markPoints_same markCommLost _ s) rfl) q
  refine Eq.trans (foldl_keeps (fun u : State => u.lport q) (fun u j => ?_) (List.range 128) s1) marked
  split
  · exact faulted u j
  · rfl

/-! ### Frames sent -/

section
variable {s p}

theorem LPort.inject_off {x : LPort} (off : x.inj.en = false) (f : LaneFrame) (rx : Bool) (dly : Nat) : x.inject f rx dly = ([(f, true)], x) := by
  simp [LPort.inject, off]

/-- A rule changes the injection state of a port alone. -/
theorem LPort.inject_keeps (x : LPort) (f : LaneFrame) (rx : Bool) (dly : Nat) : ∃ j, (x.inject f rx dly).2 = { x with inj := j } := by
  unfold LPort.inject
  extract_lets j rule m hit j1 back j2
  split
  · exact ⟨x.inj, rfl⟩
  · split
    · exact ⟨j2, rfl⟩
    · split
      · exact ⟨j2, rfl⟩
      · exact ⟨j2, rfl⟩
      · split
        · exact ⟨_, rfl⟩
        · exact ⟨j2, rfl⟩
      · exact ⟨_, rfl⟩

theorem State.lport_laneSend_off (off : (s.lport p).inj.en = false) (f : LaneFrame) : (s.laneSend p f).lport p = { s.lport p with sent := (s.lport p).sent ++ [(f, true)] } := by
  rw [State.laneSend, State.lport_updPort_same, LPort.inject_off off]

theorem State.lport_laneSend (s : State) (p : Nat) (f : LaneFrame) : ∃ j l, (s.laneSend p f).lport p = { s.lport p with inj := j, sent := l } := by
  obtain ⟨j, kept⟩ := (s.lport p).inject_keeps f false (s.injDly p)
  rw [State.laneSend, State.lport_updPort_same]
  dsimp only
  rw [kept]
  exact ⟨j, _, rfl⟩

theorem State.lport_laneCtl (s : State) (p : Nat) (f : CFrame) : ∃ j l, (s.laneCtl p f).lport p = { s.lport p with inj := j, sent := l, sentC := (s.lport p).sentC ++ [f] } := by
  obtain ⟨j, l, sent⟩ := s.lport_laneSend p (s.ctlFrame p f)
  rw [State.laneCtl, State.lport_updPort_same, sent]
  exact ⟨j, l, rfl⟩

theorem State.laneSend_same (s : State) (p : Nat) (f : LaneFrame) : SameBut [.lne] s (s.laneSend p f) := State.updLanePort_same s p _

theorem State.laneCtl_same (s : State) (p : Nat) (f : CFrame) : SameBut [.lne] s (s.laneCtl p f) := SameBut.trans (State.laneSend_same s p _) (State.updLanePort_same _ p _)

theorem State.sentC_laneCtl (s : State) (p : Nat) (f : CFrame) : ((s.laneCtl p f).lport p).sentC = (s.lport p).sentC ++ [f] := by
  obtain ⟨j, l, ctl⟩ := s.lport_laneCtl p f
  rw [ctl]

/-- Requests in a row are awaited in their order. -/
theorem State.sentC_laneCtls {α : Type} (p : Nat) (f : α → CFrame) : ∀ (l : List α) (s : State), ((l.foldl (fun s x => s.laneCtl p (f x)) s).lport p).sentC =
    (s.lport p).sentC ++ l.map f
  | [], s => by simp
  | x :: l, s => by simp [State.sentC_laneCtls p f l, State.sentC_laneCtl]

end

/-! ### Enumeration and admission -/

/-- A port after the start of an enumeration. -/
theorem State.lport_startEnum : ∃ j l, (s.startEnum p).lport p =
    { s.lport p with state := .enum, found := [], nFound := 0, sentC := [.probe 0], inj := j, sent := l } := by
  unfold State.startEnum
  extract_lets s1 s2 s3
  have begun : s1.lport p = { s.lport p with state := .enum } := by rw [State.lport_portTo, State.lport_portLost]
  have emptied : s2.lport p = s1.lport p := by
    refine foldl_keeps (fun u : State => u.lport p) ?_ _ _
    exact fun u j => State.lport_staTo u p j p .absent
  have fresh : s3.lport p = { s.lport p with state := .enum, found := [], nFound := 0, sentC := [] } := by
    rw [State.lport_updPort_same, emptied, begun]
  obtain ⟨j, l, reset⟩ := s3.lport_laneSend p (.ctl (.cmd 0xFFFF 1))
  obtain ⟨j', l', probed⟩ := (s3.laneSend p (.ctl (.cmd 0xFFFF 1))).lport_laneCtl p (.probe 0)
  rw [probed, reset, fresh]
  exact ⟨j', l', rfl⟩

theorem State.lport_takeAdmission (q : Nat) (a : Admission) : ∃ w, (s.takeAdmission q a).lport p = { s.lport p with win := w } := by
  have ports : (s.takeAdmission q a).lne.ports = (s.updPort_ q fun x => { x with win := a.win }).lne.ports := by
    unfold State.takeAdmission
    refine Eq.trans (foldl_keeps (fun u : State => u.lne.ports) ?_ _ _) (foldl_keeps (fun u : State => u.lne.ports) ?_ _ _)
    · exact fun _ _ => rfl
    · exact fun _ _ => rfl
  have same : (s.takeAdmission q a).lport p = (s.updPort_ q fun x => { x with win := a.win }).lport p := by rw [State.lport, ports, State.lport]
  rw [same]
  by_cases own : p = q
  · subst own
    exact ⟨a.win, State.lport_updPort_same s p fun x => { x with win := a.win }⟩
  · exact ⟨(s.lport p).win, State.lport_updPort_ne s p _ own⟩

/-- Admission changes no more of a port than its window timing. -/
theorem State.lport_readmit (rem : List RemoteTgt) (slots : Nat → Nat) : ∃ w, (s.readmit rem slots).2.2.lport p = { s.lport p with win := w } := by
  unfold State.readmit
  dsimp only
  split
  · exact ⟨(s.lport p).win, rfl⟩
  · refine List.foldlRecOn (motive := fun u : State => ∃ w, u.lport p = { s.lport p with win := w }) _ _ ⟨(s.lport p).win, rfl⟩ fun u before x _ => ?_
    obtain ⟨w, before⟩ := before
    obtain ⟨w', after⟩ := u.lport_takeAdmission p x.1 x.2
    exact ⟨w', after.trans (by rw [before])⟩

theorem State.readmit_admitted {rem : List RemoteTgt} {slots : Nat → Nat} (admitted : (s.admitAll s.staDesc rem slots s.cycleW).1 = 0) : (s.readmit rem slots).1 = 0 := by
  unfold State.readmit
  dsimp only
  rw [if_neg (by simp [admitted])]

end

end Sys2Proof.Machine
end

section
/-!
PROOF. The Lane ports (O44).
-/

namespace Sys2Proof.Machine

section
variable {s : State} {p : Fin 8}

/-! ### Windows (R312, R315, R323) -/

theorem laneWindowStart_sends (windows : (s.lport p.val).windows = true) (clear : (s.lport p.val).inj.delayed = [])
    (off : (s.lport p.val).inj.enNext.getD (s.lport p.val).inj.en = false) :
    let fr : WinFrame := { tw := s.winStart, epochs := (s.lport p.val).outEpochs.take 16, arms := (s.lport p.val).outArms.take 32 }
    ∃ u, exec (.laneWindowStart p) s = .next u ∧ (u.lport p.val).frame = fr ∧ (u.lport p.val).sent = [(.window fr, true)] ∧
      (u.lport p.val).outArms = (s.lport p.val).outArms.drop 32 ∧ (u.lport p.val).inj.en = false ∧ SameBut [.lne] s u := by
  intro fr
  show ∃ u, execLaneWindowStart p s = .next u ∧ _
  unfold execLaneWindowStart
  rw [if_neg (by simp [windows])]
  extract_lets tw x rule en held due src j fr' s1 s2 s3
  have none_ : due = [] := by simp [due, held, x, clear]
  have first : s1.lport p.val = { x with inj := j, frame := fr, outEpochs := x.outEpochs.drop 16, outArms := x.outArms.drop 32, sent := [] } :=
    State.lport_updPort_same s p.val _
  have second : s2.lport p.val = { s1.lport p.val with sent := (s1.lport p.val).sent ++ [(.window fr, true)] } :=
    State.lport_laneSend_off (by rw [first]; exact off) _
  have third : s3.lport p.val = s2.lport p.val := by
    refine foldl_keeps (fun u : State => u.lport p.val) ?_ _ _
    exact fun _ _ => rfl
  rw [none_, List.foldl_nil]
  refine ⟨s3, rfl, ?_⟩
  rw [third, second, first]
  have sent : SameBut [.lne] s s2 := SameBut.trans (State.updLanePort_same s p.val _) (State.laneSend_same s1 p.val (.window fr))
  exact ⟨rfl, rfl, rfl, off, SameBut.trans sent (SameBut.foldl (fun u k => State.updSta_same u p.val k _) _ s2)⟩

section
variable {k : Nat} (runs : (s.lport p.val).state = .running)
include runs

theorem laneOutputRead_sends (off : (s.lport p.val).inj.en = false) (one : s.stasWhere p.val (fun y => decide (y.state = .operational)) = [k])
    (out : 0 < (s.staDesc p.val k).aOut) (heard : s.sendsA p.val k = true → (s.sta p.val k).aHeard = true) :
    ∃ u, exec (.laneOutputRead p) s = .next u ∧
      (u.lport p.val).sent = (s.lport p.val).sent ++ [(.aOut k (s.winStart / 31250 % 2 ^ 32) (s.laneImage p.val k true (s.staDesc p.val k).aOut).1
        (s.setPoints p.val k false (s.winStart + 31250)), true)] ∧
      (u.sta p.val k).aOut = (s.laneImage p.val k true (s.staDesc p.val k).aOut).1 ∧ SameBut [.lne, .free] s u := by
  let s2 := (s.laneImage p.val k true (s.staDesc p.val k).aOut).2
  let s3 := s2.updSta p.val k fun x => { x with aOut := (s.laneImage p.val k true (s.staDesc p.val k).aOut).1 }
  let f : LaneFrame := .aOut k (s.winStart / 31250 % 2 ^ 32) (s.laneImage p.val k true (s.staDesc p.val k).aOut).1 (s.setPoints p.val k false (s.winStart + 31250))
  have port : s3.lport p.val = s.lport p.val := rfl
  have goes : ¬ (((s.staDesc p.val k).aOut = 0 ∧ s.setPoints p.val k false (s.winStart + 31250) = []) ∨ (s.sendsA p.val k ∧ !(s.sta p.val k).aHeard)) := by
    rintro (⟨none_, -⟩ | ⟨sends, unheard⟩)
    · omega
    · simp [heard sends] at unheard
  have run : exec (.laneOutputRead p) s = .next (s3.laneSend p.val f) := by
    show execLaneOutputRead p s = _
    unfold execLaneOutputRead
    rw [if_neg (by simp [runs])]
    dsimp only
    rw [one, List.foldl_cons, List.foldl_nil, if_neg goes]
  refine ⟨_, run, ?_, ?_, SameBut.trans (SameBut.mono' (State.laneImage_same s p.val k true _) rfl) (SameBut.mono' (State.updSta_same s2 p.val k _) rfl) |>.trans
    (SameBut.mono' (State.laneSend_same s3 p.val f) rfl)⟩
  · rw [State.lport_laneSend_off (by rw [port]; exact off), port]
  · rw [State.sta_laneSend, State.sta_updSta_same]

section
variable (one : s.stasWhere p.val (fun y => decide (y.state = .operational)) = [k]) (sends : s.sendsA p.val k = true) (unheard : (s.sta p.val k).aHeard = false)
include one sends unheard

theorem laneOutputRead_skips : exec (.laneOutputRead p) s = .next s := by
  show execLaneOutputRead p s = _
  unfold execLaneOutputRead
  rw [if_neg (by simp [runs])]
  dsimp only
  rw [one, List.foldl_cons, List.foldl_nil, if_pos (by simp [sends, unheard])]

theorem laneWindowEnd_misses : ∃ u, exec (.laneWindowEnd p) s = .next u ∧ (u.sta p.val k).aMissed = true ∧ (u.lport p.val).cntMiss = wrapInc (s.lport p.val).cntMiss := by
  have late : s.stasWhere p.val (fun x => decide (x.state = .operational) && !x.aHeard) = [k] := by
    have split_ : s.stasWhere p.val (fun x => decide (x.state = .operational) && !x.aHeard) =
        (s.stasWhere p.val fun y => decide (y.state = .operational)).filter fun j => !(s.sta p.val j).aHeard := by
      rw [State.stasWhere, State.stasWhere, List.filter_filter]
      exact List.filter_congr fun j _ => Bool.and_comm _ _
    rw [split_, one]
    simp [unheard]
  let s1 := s.updSta p.val k fun x => { x with aMissed := true }
  let s2 := s1.markLane p.val k (fun e => inImgA (laneOfs e.srcRef)) markStale
  have lne : s2.lne = s1.lne := State.lne_markLane s1 p.val k _ _
  have run : exec (.laneWindowEnd p) s = .next (s2.updPort_ p.val fun y => { y with cntMiss := wrapInc y.cntMiss }) := by
    show execLaneWindowEnd p s = _
    unfold execLaneWindowEnd
    rw [if_neg (by simp [runs]), late, List.foldl_cons, List.foldl_nil, if_pos sends]
  refine ⟨_, run, ?_, ?_⟩
  · rw [State.sta_updPort, State.sta_congr _ _ _ lne, State.sta_updSta_same]
  · rw [State.lport_updPort_same, State.lport_congr lne]
    rfl

end

end

/-! ### Cycles (R318, R323, R324) -/

theorem laneCycleStart_stops (stop : (s.lport p.val).stopReq = true) (on : (s.lport p.val).state ≠ .off) : ∃ u, exec (.laneCycleStart p) s = .next u ∧
    (u.lport p.val).state = .off ∧ (u.lport p.val).stopReq = false := by
  refine ⟨s.portOff p.val, congrArg Host.Outcome.next (if_pos ⟨stop, on⟩), ?_⟩
  rw [State.portOff, State.lport_updPort_same, State.lport_portTo]
  exact ⟨rfl, rfl⟩

section
variable {k : Nat} (runs : (s.lport p.val).state = .running) (goes : (s.lport p.val).stopReq = false) (off : (s.lport p.val).inj.en = false)
  (one : s.stasWhere p.val (fun y => (decide (y.state = .operational) || decide (y.state = .safe)) && !y.failed) = [k])
include runs goes one

/-- A cycle with one station that runs: it is marked where it was not heard, and gets its B_OUT. -/
theorem laneCycleStart_run : exec (.laneCycleStart p) s = .next (
    let s1 := if (s.sta p.val k).bHeard then s else s.unheard p.val k
    let s3 := s1.updSta p.val k fun y => { y with bHeard := false }
    if (s1.sta p.val k).state ≠ .operational then s3
    else if (s1.sta p.val k).noOut then s3.laneSend p.val (.bOut k (s.now / max 31250 (s.cycleNs p.val) % 2 ^ 32) true [] (s.setPoints p.val k true (s.cycStart p.val + s.cycleNs p.val)))
    else ((s3.laneImage p.val k false (s.staDesc p.val k).bOut).2.updSta p.val k fun y => { y with bOut := (s3.laneImage p.val k false (s.staDesc p.val k).bOut).1 }).laneSend p.val
      (.bOut k (s.now / max 31250 (s.cycleNs p.val) % 2 ^ 32) false (s3.laneImage p.val k false (s.staDesc p.val k).bOut).1 (s.setPoints p.val k true (s.cycStart p.val + s.cycleNs p.val)))) := by
  show execLaneCycleStart p s = _
  unfold execLaneCycleStart
  dsimp only
  rw [if_neg (by simp [goes]), if_neg (by simp [runs]), one]
  simp only [List.foldl_cons, List.foldl_nil]
  rfl

include off

theorem laneCycleStart_sends (op : (s.sta p.val k).state = .operational) (heard : (s.sta p.val k).bHeard = true) (out : (s.sta p.val k).noOut = false) :
    ∃ u, exec (.laneCycleStart p) s = .next u ∧ (u.lport p.val).sent = (s.lport p.val).sent ++ [(.bOut k (s.now / max 31250 (s.cycleNs p.val) % 2 ^ 32) false
      (s.laneImage p.val k false (s.staDesc p.val k).bOut).1 (s.setPoints p.val k true (s.cycStart p.val + s.cycleNs p.val)), true)] ∧
      (u.sta p.val k).bHeard = false ∧ SameBut [.lne, .free] s u := by
  let s3 := s.updSta p.val k fun y => { y with bHeard := false }
  let img := (s3.laneImage p.val k false (s.staDesc p.val k).bOut).1
  let s4 := (s3.laneImage p.val k false (s.staDesc p.val k).bOut).2
  let s5 := s4.updSta p.val k fun y => { y with bOut := img }
  let f : LaneFrame := .bOut k (s.now / max 31250 (s.cycleNs p.val) % 2 ^ 32) false img (s.setPoints p.val k true (s.cycStart p.val + s.cycleNs p.val))
  have run : exec (.laneCycleStart p) s = .next (s5.laneSend p.val f) := by
    rw [laneCycleStart_run runs goes one]
    dsimp only
    rw [if_pos heard, if_neg (by simp [op]), if_neg (by simp [out])]
  have port : s5.lport p.val = s.lport p.val := rfl
  have cleared : s4.sta p.val k = { s.sta p.val k with bHeard := false } := State.sta_updSta_same s p.val k _
  refine ⟨_, run, ?_, ?_, ?_⟩
  · rw [State.lport_laneSend_off (by rw [port]; exact off), port]
    rfl
  · rw [State.sta_laneSend, State.sta_updSta_same, cleared]
  · exact SameBut.trans (SameBut.mono' (State.updSta_same s p.val k _) rfl) (SameBut.trans (SameBut.mono' (State.laneImage_same s3 p.val k false _) rfl)
      (SameBut.trans (SameBut.mono' (State.updSta_same s4 p.val k _) rfl) (SameBut.mono' (State.laneSend_same s5 p.val f) rfl)))

omit runs goes off one in
/-- A station that was not heard, before the count that loses it. -/
theorem State.unheard_counts (few : (s.sta p.val k).missed < 65535) (more : (s.sta p.val k).missed + 1 ≠ bits (s.lneCfg p.val) 15 8) :
    (s.unheard p.val k).sta p.val k = { s.sta p.val k with missed := (s.sta p.val k).missed + 1, noOut := true, stale := true } ∧
    (s.unheard p.val k).lport p.val = { s.lport p.val with cntMiss := wrapInc (s.lport p.val).cntMiss } := by
  unfold State.unheard
  extract_lets lostN s1 s2 n s3
  have lne : s1.lne = (s.updSta p.val k fun x => { x with missed := satInc 65535 x.missed, noOut := true, stale := true }).lne := State.lne_markLane _ p.val k _ _
  have sta : s2.sta p.val k = { s.sta p.val k with missed := (s.sta p.val k).missed + 1, noOut := true, stale := true } := by
    rw [State.sta_updPort, State.sta_congr _ _ _ lne, State.sta_updSta_same, satInc, if_pos few]
  have port : s2.lport p.val = { s.lport p.val with cntMiss := wrapInc (s.lport p.val).cntMiss } := by
    rw [State.lport_updPort_same, State.lport_congr lne]
    rfl
  have stays : n ≠ lostN := by
    simp only [n, sta]
    exact more
  rw [if_neg stays]
  exact ⟨sta, port⟩

theorem laneCycleStart_marks (op : (s.sta p.val k).state = .operational) (unheard : (s.sta p.val k).bHeard = false) (few : (s.sta p.val k).missed < 65535)
    (more : (s.sta p.val k).missed + 1 ≠ bits (s.lneCfg p.val) 15 8) :
    ∃ u, exec (.laneCycleStart p) s = .next u ∧ (u.lport p.val).sent = (s.lport p.val).sent ++ [(.bOut k (s.now / max 31250 (s.cycleNs p.val) % 2 ^ 32) true []
      (s.setPoints p.val k true (s.cycStart p.val + s.cycleNs p.val)), true)] ∧ (u.sta p.val k).missed = (s.sta p.val k).missed + 1 ∧ (u.sta p.val k).stale = true := by
  let s1 := s.unheard p.val k
  let s3 := s1.updSta p.val k fun y => { y with bHeard := false }
  let f : LaneFrame := .bOut k (s.now / max 31250 (s.cycleNs p.val) % 2 ^ 32) true [] (s.setPoints p.val k true (s.cycStart p.val + s.cycleNs p.val))
  obtain ⟨sta, port⟩ := State.unheard_counts (p := p) few more
  have run : exec (.laneCycleStart p) s = .next (s3.laneSend p.val f) := by
    rw [laneCycleStart_run runs goes one]
    dsimp only
    rw [if_neg (show ¬ (s.sta p.val k).bHeard = true by simp [unheard]), if_neg (by simp [sta, op]), if_pos (by rw [sta])]
  have port3 : s3.lport p.val = s1.lport p.val := rfl
  have sta3 : (s3.laneSend p.val f).sta p.val k = { s1.sta p.val k with bHeard := false } := by rw [State.sta_laneSend, State.sta_updSta_same]
  refine ⟨_, run, ?_, ?_, ?_⟩
  · rw [State.lport_laneSend_off (by rw [port3, port]; exact off), port3, port]
  · rw [sta3, sta]
  · rw [sta3, sta]

end

/-! ### Frames received (R310, R313, R320, R321, R323) -/

section
variable {v : State} {q k : Nat}

theorem State.sta_heard (v : State) (q k : Nat) : ∃ lost, (v.heard q k).sta q k = { v.sta q k with commLost := lost } := by
  unfold State.heard
  dsimp only
  split
  · rw [State.sta_congr _ _ _ (State.lne_staEvt _ _ _), State.sta_congr _ _ _ (State.lne_record _ _ _ _ _), State.sta_congr _ _ _ (State.lne_markLane _ _ _ _ _),
      State.sta_updSta_same]
    exact ⟨false, rfl⟩
  · exact ⟨(v.sta q k).commLost, rfl⟩

theorem State.lport_badFcs (v : State) (q : Nat) : ((v.badFcs q).lport q).cntFcs = wrapInc (v.lport q).cntFcs := congrArg LPort.cntFcs (State.lport_updPort_same v q _)

section
variable {start : Nat} {body : List Byte} (drv : List DriveStat)

theorem State.recvA_bad : v.recvA q k start false body drv = v.badFcs q := by
  unfold State.recvA
  exact if_pos rfl

variable (runs : (v.lport q).state = .running) (here : (v.sta q k).state ≠ .absent)
include runs here

section
variable (few : (nth 0 body 0).toNat ≤ 8) (room : 4 + (v.staDesc q k).aIn + 8 * (nth 0 body 0).toNat ≤ body.length)
include few room

/-- A whole A_IN frame of a running station is not passed over. -/
theorem State.recvA_takes : ¬ ((v.lport q).state ≠ .running ∨ (v.sta q k).state = .absent ∨ 8 < (nth 0 body 0).toNat ∨
    body.length < 4 + (v.staDesc q k).aIn + 8 * (nth 0 body 0).toNat) := by
  simp only [runs, here, ne_eq, not_true_eq_false, false_or, not_or, Nat.not_lt]
  exact ⟨few, room⟩

theorem State.recvA_late (late : start < (v.sta q k).upOfs + (v.sta q k).ds) :
    v.recvA q k start true body drv = v.updPort_ q fun y => { y with cntLate := wrapInc y.cntLate } := by
  unfold State.recvA
  dsimp only
  rw [if_neg (by decide), if_neg (State.recvA_takes runs here few room), if_pos (.inl late)]

theorem State.recvA_hears (early : (v.sta q k).upOfs + (v.sta q k).ds ≤ start) (done : start + wire (8 + body.length) + 200 ≤ (v.sta q k).arr) :
    ((v.recvA q k start true body drv).sta q k).aHeard = true := by
  unfold State.recvA
  extract_lets x d n lo s1 s2 s3
  have within : ¬ (start < lo ∨ x.arr < start + wire (8 + body.length) + 200) := by
    rintro (late | past)
    · exact absurd late (Nat.not_lt.2 early)
    · exact absurd past (Nat.not_lt.2 done)
  rw [if_neg (by decide), if_neg (State.recvA_takes runs here few room), if_neg within]
  have marked : s2.lne = s1.lne := by
    simp only [s2]
    split
    · exact State.lne_markLane _ _ _ _ _
    · rfl
  have told : ((s3.driveStats q k drv).laneEvents q k n (body.drop (4 + d.aIn))).lne = s2.lne :=
    (Part.of_same (x := .lne) (State.laneEvents_same q k n _ _) rfl).trans
      ((Part.of_same (x := .lne) (State.driveStats_same s3 q k drv) rfl).trans (Part.of_same (x := .lne) (State.laneInput_same s2 q k true _ _) rfl))
  have own : s1.sta q k = { (v.heard q k).sta q k with aHeard := true, aMissed := false } := State.sta_updSta_same _ q k _
  rw [State.sta_congr _ _ _ told, State.sta_congr _ _ _ marked, own]

end

theorem State.recvB_operates (room : 8 + (v.staDesc q k).bIn ≤ body.length) (op : (nth 0 body 0).toNat = 3) :
    ((v.recvB q k true body drv).sta q k).state = .operational ∧ ((v.recvB q k true body drv).sta q k).bHeard = true ∧ ((v.recvB q k true body drv).sta q k).missed = 0 ∧
    ((v.recvB q k true body drv).sta q k).noOut = false ∧ ((v.recvB q k true body drv).sta q k).stale = false := by
  unfold State.recvB
  extract_lets x d st s1 s2 t s3 s4
  have takes : ¬ ((v.lport q).state ≠ .running ∨ x.state = .absent ∨ body.length < 8 + d.bIn ∨ 4 < (nth 0 body 0).toNat) := by
    simp only [runs, op, ne_eq, not_true_eq_false, false_or, not_or, Nat.not_lt]
    exact ⟨here, room, by decide⟩
  have state : st = .operational := by simp only [st, op, staOfCode]
  have marked : s2.lne = s1.lne := by
    simp only [s2]
    split
    · exact State.lne_markLane _ _ _ _ _
    · rfl
  have told : s3.lne = s2.lne :=
    (Part.of_same (x := .lne) (State.driveStats_same _ q k drv) rfl).trans
      ((Part.of_same (x := .lne) (State.setFrameT_same _ 2 _ t) rfl).trans (Part.of_same (x := .lne) (State.laneInput_same s2 q k false _ t) rfl))
  have own : s1.sta q k = { (v.heard q k).sta q k with bHeard := true, missed := 0, stale := false, noOut := false, cause := (nth 0 body 1).toNat % 8,
                                                        armsRx := leNat ((body.drop 2).take 2), epochDrops := leNat ((body.drop 4).take 2) } :=
    State.sta_updSta_same _ q k _
  have final : s4.sta q k = { s1.sta q k with state := .operational } := by
    rw [State.sta_staTo, State.sta_congr _ _ _ told, State.sta_congr _ _ _ marked, state]
  rw [if_neg (by decide), if_neg takes, if_neg (by rw [state]; simp), final, own]
  exact ⟨rfl, rfl, rfl, rfl, rfl⟩

end

theorem State.lport_recvIdent {pos : Nat} {body : List Byte} (enum : (v.lport q).state = .enum) (asked : (v.lport q).sentC = [.probe pos]) (whole : 32 ≤ body.length) (more : pos < 127) :
    ∃ j l, (v.recvIdent q pos true body).lport q =
      { v.lport q with sentC := [.probe (pos + 1)], found := Tab.put {} (v.lport q).found pos { ident := parseIdent body }, nFound := pos + 1, inj := j, sent := l } := by
  unfold State.recvIdent
  extract_lets x s1
  have awaited : ¬ (!x.sentC.contains (.probe pos) ∨ body.length < 32) := by
    simp [x, asked, Nat.not_lt.2 whole]
  have taken : s1.lport q = { v.lport q with sentC := [], found := Tab.put {} (v.lport q).found pos { ident := parseIdent body }, nFound := pos + 1 } := by
    rw [State.lport_updPort_same, asked]
    simp
  rw [if_neg (by decide), if_neg awaited, if_pos enum, if_pos more]
  obtain ⟨j, l, probed⟩ := s1.lport_laneCtl q (.probe (pos + 1))
  rw [probed, taken]
  exact ⟨j, l, rfl⟩

theorem State.sta_laneCtl (v : State) (q j k : Nat) (f : CFrame) : (v.laneCtl q f).sta j k = v.sta j k := rfl

theorem State.settlePort_keeps (v : State) (q k : Nat) : (v.settlePort q).sta q k = v.sta q k ∧ ((v.settlePort q).lport q).sentC = (v.lport q).sentC := by
  unfold State.settlePort
  split
  · rw [State.sta_portTo, State.lport_portTo]
    exact ⟨rfl, rfl⟩
  · exact ⟨rfl, rfl⟩

theorem State.recvAck_configures (asked : (v.lport q).sentC = [.cfg k]) : ((v.recvAck q k true 8 0).sta q k).state = .config ∧ ((v.recvAck q k true 8 0).lport q).sentC = [.cmd k 2] := by
  let s1 := v.updPort_ q fun y => { y with sentC := y.sentC.erase (.cfg k) }
  have run : v.recvAck q k true 8 0 = (s1.staTo q k .config).laneCtl q (.cmd k 2) := by
    unfold State.recvAck
    dsimp only
    rw [if_neg (by decide), if_pos (by simp [asked]), if_pos rfl]
    rfl
  have rest : (s1.lport q).sentC = [] := by
    rw [State.lport_updPort_same, asked]
    simp
  rw [run, State.sta_laneCtl, State.sta_staTo, State.sentC_laneCtl, State.lport_staTo, rest]
  exact ⟨rfl, rfl⟩

theorem State.recvAck_operates (asked : (v.lport q).sentC = [.cmd k 2]) : ((v.recvAck q k true 9 0).sta q k).state = .operational ∧ ((v.recvAck q k true 9 0).lport q).sentC = [] := by
  let s1 := v.updPort_ q fun y => { y with sentC := y.sentC.erase (.cmd k 2) }
  let s2 := (s1.staTo q k .operational).updSta q k fun y => { y with failed := false, bHeard := true }
  have run : v.recvAck q k true 9 0 = s2.settlePort q := by
    unfold State.recvAck
    dsimp only
    rw [if_neg (by decide), if_neg (by simp), if_pos rfl, asked]
    simp
    rfl
  have rest : (s1.lport q).sentC = [] := by
    rw [State.lport_updPort_same, asked]
    simp
  have port : s2.lport q = s1.lport q := State.lport_staTo s1 q k q .operational
  obtain ⟨sta, sentC⟩ := s2.settlePort_keeps q k
  rw [run, sta, sentC, port, rest, State.sta_updSta_same, State.sta_staTo]
  exact ⟨rfl, rfl⟩

theorem State.recvDelay_remeasures {pos rtt turn : Nat} (runs : (v.lport q).state = .running) (asked : (v.lport q).sentC = [.delayReq pos])
    (placed : (Tab.get {} (v.lport q).found pos).sta = some k) (near : (rtt - turn) / 2 ≤ (v.sta q k).ds + 100) :
    ((v.recvDelay q pos true rtt turn).sta q k).dsNow = (rtt - turn) / 2 ∧ ((v.recvDelay q pos true rtt turn).lport q).sentC = [] ∧ SameBut [.lne] v (v.recvDelay q pos true rtt turn) := by
  let s1 := v.updPort_ q fun y =>
    { y with sentC := y.sentC.erase (.delayReq pos), found := Tab.put {} y.found pos { Tab.get {} (v.lport q).found pos with delay := some ((rtt - turn) / 2) } }
  let s2 := s1.updSta q k fun y => { y with dsNow := (rtt - turn) / 2 }
  have run : v.recvDelay q pos true rtt turn = s2 := by
    unfold State.recvDelay
    dsimp only
    rw [if_neg (by decide), if_neg (by simp [asked])]
    split
    next enum => exact absurd (runs.symm.trans enum) (by decide)
    next none_ => exact absurd (placed.symm.trans none_) (by simp)
    next j own _ =>
      obtain rfl : k = j := Option.some.inj (placed.symm.trans own)
      exact if_neg (Nat.not_lt.2 near)
    next none_ _ _ => exact absurd (placed.symm.trans none_) (by simp)
  have port : s2.lport q = s1.lport q := rfl
  rw [run, port, State.lport_updPort_same, State.sta_updSta_same, asked]
  exact ⟨rfl, by simp, SameBut.trans (State.updLanePort_same v q _) (State.updSta_same s1 q k _)⟩

end

section
variable (power : (s.hd .lne).pwr = .on) (lane : (s.lport p.val).eth = false) (windows : (s.lport p.val).windows = true) (off : (s.lport p.val).inj.en = false)
include power lane windows off

/-- A frame that the rule lets pass reaches the port as it is. -/
theorem laneRecv_passes (f : LaneFrame) : s.laneRecv p.val f = (s.updPort_ p.val fun _ => s.lport p.val).recvFrame p.val f := by
  unfold State.laneRecv
  rw [if_neg (by simp [power, lane, windows]), LPort.inject_off off]
  simp

/-- The port as a frame that passes finds it. -/
def State.reached (s : State) (p : Nat) : State := s.updPort_ p fun _ => s.lport p

omit power lane windows off in
theorem State.lport_reached (s : State) (q : Nat) : (s.reached q).lport q = s.lport q := State.lport_updPort_same s q _

theorem aInRx_bad (k : Fin 128) (start : Nat) (body : List Byte) (drv : List DriveStat) : ∃ u, exec (.aInRx p k start false body drv) s = .next u ∧
    (u.lport p.val).cntFcs = wrapInc (s.lport p.val).cntFcs ∧ SameBut [.lne] s u := by
  refine ⟨(s.reached p.val).badFcs p.val, congrArg Host.Outcome.next ((laneRecv_passes power lane windows off _).trans (State.recvA_bad (k := k.val) (start := start) (body := body) drv)), ?_,
    SameBut.trans (State.updLanePort_same s p.val _) (State.updLanePort_same _ p.val _)⟩
  rw [State.lport_badFcs, State.lport_reached]

section
variable {k : Fin 128} {start : Nat} {body : List Byte} (drv : List DriveStat) (runs : (s.lport p.val).state = .running) (here : (s.sta p.val k.val).state ≠ .absent)
include runs here

section
variable (few : (nth 0 body 0).toNat ≤ 8) (room : 4 + (s.staDesc p.val k.val).aIn + 8 * (nth 0 body 0).toNat ≤ body.length)
include few room

theorem aInRx_hears (early : (s.sta p.val k.val).upOfs + (s.sta p.val k.val).ds ≤ start) (done : start + wire (8 + body.length) + 200 ≤ (s.sta p.val k.val).arr) :
    ∃ u, exec (.aInRx p k start true body drv) s = .next u ∧ (u.sta p.val k.val).aHeard = true :=
  ⟨_, congrArg Host.Outcome.next (laneRecv_passes power lane windows off _),
    State.recvA_hears (v := s.reached p.val) drv (by rw [State.lport_reached]; exact runs) here few room early done⟩

theorem aInRx_late (late : start < (s.sta p.val k.val).upOfs + (s.sta p.val k.val).ds) : ∃ u, exec (.aInRx p k start true body drv) s = .next u ∧
    (u.lport p.val).cntLate = wrapInc (s.lport p.val).cntLate ∧ SameBut [.lne] s u := by
  have counted := State.recvA_late (v := s.reached p.val) drv (by rw [State.lport_reached]; exact runs) here few room late
  refine ⟨_, congrArg Host.Outcome.next ((laneRecv_passes power lane windows off _).trans counted), ?_,
    SameBut.trans (State.updLanePort_same s p.val _) (State.updLanePort_same _ p.val _)⟩
  rw [State.lport_updPort_same, State.lport_reached]

end

theorem bInRx_operates (room : 8 + (s.staDesc p.val k.val).bIn ≤ body.length) (op : (nth 0 body 0).toNat = 3) : ∃ u, exec (.bInRx p k true body drv) s = .next u ∧
    (u.sta p.val k.val).state = .operational ∧ (u.sta p.val k.val).bHeard = true ∧ (u.sta p.val k.val).missed = 0 ∧ (u.sta p.val k.val).noOut = false ∧
    (u.sta p.val k.val).stale = false :=
  ⟨_, congrArg Host.Outcome.next (laneRecv_passes power lane windows off _),
    State.recvB_operates (v := s.reached p.val) drv (by rw [State.lport_reached]; exact runs) here room op⟩

end

theorem identRx_probes {pos : Fin 128} {body : List Byte} (enum : (s.lport p.val).state = .enum) (asked : (s.lport p.val).sentC = [.probe pos.val]) (whole : 32 ≤ body.length)
    (more : pos.val < 127) : ∃ u, exec (.identRx p pos true body) s = .next u ∧ (u.lport p.val).sentC = [.probe (pos.val + 1)] ∧
      (Tab.get {} (u.lport p.val).found pos.val).ident = parseIdent body ∧ (u.lport p.val).nFound = pos.val + 1 := by
  obtain ⟨j, l, port⟩ := State.lport_recvIdent (v := s.reached p.val) (body := body) (by rw [State.lport_reached]; exact enum) (by rw [State.lport_reached]; exact asked) whole more
  refine ⟨_, congrArg Host.Outcome.next (laneRecv_passes power lane windows off _), ?_⟩
  rw [show ((s.updPort_ p.val fun _ => s.lport p.val).recvFrame p.val (.ident pos.val true body)).lport p.val = _ from port]
  exact ⟨rfl, congrArg Found.ident (Tab.get_put_same _ _ _ _), rfl⟩

theorem laneAckRx_configures {k : Fin 128} (asked : (s.lport p.val).sentC = [.cfg k.val]) : ∃ u, exec (.laneAckRx p k true 8 0) s = .next u ∧ (u.sta p.val k.val).state = .config ∧
    (u.lport p.val).sentC = [.cmd k.val 2] :=
  ⟨_, congrArg Host.Outcome.next (laneRecv_passes power lane windows off _), State.recvAck_configures (v := s.reached p.val) (by rw [State.lport_reached]; exact asked)⟩

theorem laneAckRx_operates {k : Fin 128} (asked : (s.lport p.val).sentC = [.cmd k.val 2]) : ∃ u, exec (.laneAckRx p k true 9 0) s = .next u ∧
    (u.sta p.val k.val).state = .operational ∧ (u.lport p.val).sentC = [] :=
  ⟨_, congrArg Host.Outcome.next (laneRecv_passes power lane windows off _), State.recvAck_operates (v := s.reached p.val) (by rw [State.lport_reached]; exact asked)⟩

theorem delayRespRx_remeasures {pos : Fin 128} {rtt turn k : Nat} (runs : (s.lport p.val).state = .running) (asked : (s.lport p.val).sentC = [.delayReq pos.val])
    (placed : (Tab.get {} (s.lport p.val).found pos.val).sta = some k) (near : (rtt - turn) / 2 ≤ (s.sta p.val k).ds + 100) :
    ∃ u, exec (.delayRespRx p pos true rtt turn) s = .next u ∧ (u.sta p.val k).dsNow = (rtt - turn) / 2 ∧ (u.lport p.val).sentC = [] ∧ SameBut [.lne] s u := by
  obtain ⟨now, sentC, same⟩ := State.recvDelay_remeasures (v := s.reached p.val) (by rw [State.lport_reached]; exact runs) (by rw [State.lport_reached]; exact asked)
    (by rw [State.lport_reached]; exact placed) near
  exact ⟨_, congrArg Host.Outcome.next (laneRecv_passes power lane windows off _), now, sentC, SameBut.trans (State.updLanePort_same s p.val _) same⟩

end

/-! ### Commands of a port (R319, R321, R324) -/

/-- A refused command of a port sets its result and its error, and leaves its state. -/
theorem State.laneResult_refuses (s : State) (q j : Nat) : ((s.laneResult q 0x24 j).lport q).state = (s.lport q).state ∧ ((s.laneResult q 0x24 j).lport q).sentC = (s.lport q).sentC ∧
    ((s.laneResult q 0x24 j).lport q).result = 0x24 ∧ ((s.laneResult q 0x24 j).hd .lne).errCode = 0x1124 := by
  rw [State.lport_laneResult]
  exact ⟨rfl, rfl, rfl, congrArg Hdr.errCode (State.hd_err_same _ .lne 0x24)⟩

section
variable {r : Principal}

section
variable (writes : s.writeOk .lne (0x1000 * (p.val + 1) + 0x10) .wo r = true)
include writes

theorem lneStart_starts (free : (s.lport p.val).state = .off) (run : (s.hd .lne).run = true) (lane : bit (s.lneCfg p.val) 0 = false)
    (admitted : (s.admitAll s.staDesc s.remoteTgts s.armSlots s.cycleW).1 = 0) : ∃ u, exec (.lneStart r p) s = .next u ∧ (u.lport p.val).result = 0 ∧
    ((s.lport p.val).link = false → (u.lport p.val).state = .linkWait) ∧
    ((s.lport p.val).link = true → (u.lport p.val).state = .enum ∧ (u.lport p.val).sentC = [.probe 0]) := by
  let s1 := (s.readmit s.remoteTgts s.armSlots).2.2
  let s2 := ((s1.updPort_ p.val fun x => { x with eth := false, stopReq := false }).portTo p.val .linkWait).laneResult p.val 0 0
  have run_ : exec (.lneStart r p) s = .next (if (s.lport p.val).link then s2.startEnum p.val else s2) := by
    refine congrArg Host.Outcome.next ((State.gated_ok _ _ writes).trans ?_)
    dsimp only
    rw [if_neg (by simp [free, run]), if_neg (by simp [lane]), if_neg (by simp [State.readmit_admitted s admitted])]
  have port : (s2.lport p.val).result = 0 ∧ (s2.lport p.val).state = .linkWait := by
    rw [State.lport_laneResult, State.lport_portTo]
    exact ⟨rfl, rfl⟩
  obtain ⟨result, state⟩ := port
  clear_value s2
  by_cases up : (s.lport p.val).link = true
  · obtain ⟨j, l, enum⟩ := s2.lport_startEnum p.val
    refine ⟨s2.startEnum p.val, run_.trans (congrArg Host.Outcome.next (if_pos up)), ?_⟩
    rw [enum]
    exact ⟨result, fun off => absurd (off.symm.trans up) (by decide), fun _ => ⟨rfl, rfl⟩⟩
  · exact ⟨s2, run_.trans (congrArg Host.Outcome.next (if_neg up)), result, fun _ => state, fun on => absurd on up⟩

theorem lneStart_refuses (busy : (s.lport p.val).state ≠ .off) : exec (.lneStart r p) s = .next (s.laneResult p.val 0x24 0) :=
  congrArg Host.Outcome.next ((State.gated_ok _ _ writes).trans (if_pos (.inl busy)))

theorem lneStop_waits (lane : (s.lport p.val).eth = false) (on : (s.lport p.val).state ≠ .off) :
    exec (.lneStop r p) s = .next (s.updPort_ p.val fun x => { x with stopReq := true, result := 0, resultSta := 0 }) := by
  refine congrArg Host.Outcome.next ((State.gated_ok _ _ writes).trans ?_)
  rw [if_neg (by simp [lane])]
  have asked : s.updPort_ p.val (fun x => { x with stopReq := decide (x.state ≠ PortState.off) }) = s.updPort_ p.val fun x => { x with stopReq := true } := by
    have stop : decide ((s.lport p.val).state ≠ PortState.off) = true := decide_eq_true on
    show { s with lne := { s.lne with ports := Tab.put {} s.lne.ports p.val { s.lport p.val with stopReq := decide ((s.lport p.val).state ≠ PortState.off) } } } = _
    rw [stop]
    rfl
  rw [asked]
  exact State.updPort_updPort s p.val _ _

theorem lneReenum_starts (runs : (s.lport p.val).state = .running) (admitted : (s.admitAll s.staDesc s.remoteTgts s.armSlots s.cycleW).1 = 0) :
    ∃ u, exec (.lneReenum r p) s = .next u ∧ (u.lport p.val).state = .enum ∧ (u.lport p.val).sentC = [.probe 0] ∧ (u.lport p.val).found = [] := by
  let s1 := (s.readmit s.remoteTgts s.armSlots).2.2.laneResult p.val 0 0
  have run : exec (.lneReenum r p) s = .next (s1.startEnum p.val) := by
    refine congrArg Host.Outcome.next ((State.gated_ok _ _ writes).trans ?_)
    dsimp only
    rw [if_neg (by simp [runs]), if_neg (by simp [State.readmit_admitted s admitted])]
  obtain ⟨j, l, enum⟩ := s1.lport_startEnum p.val
  refine ⟨_, run, ?_⟩
  rw [enum]
  exact ⟨rfl, rfl, rfl⟩

theorem lneReenum_refuses (rests : (s.lport p.val).state ≠ .running) : exec (.lneReenum r p) s = .next (s.laneResult p.val 0x24 0) :=
  congrArg Host.Outcome.next ((State.gated_ok _ _ writes).trans (if_pos rests))

end

section
variable {k : Fin 128} (writes : s.writeOk .lne (0x1000 * (p.val + 1) + 0x14) .wo r = true)
include writes

/-- A station command of a running port is sent and awaited. -/
theorem staCmd_sends (runs : (s.lport p.val).state = .running) (code v : Nat) : ((s.staCmd r p.val k.val code v).lport p.val).sentC = (s.lport p.val).sentC ++ [.cmd k.val code] ∧
    ((s.staCmd r p.val k.val code v).lport p.val).result = 0 ∧ SameBut [.lne] s (s.staCmd r p.val k.val code v) := by
  have run : s.staCmd r p.val k.val code v = (s.laneCtl p.val (.cmd k.val code)).laneResult p.val 0 k.val := (State.gated_ok _ _ writes).trans (if_neg (by simp [runs]))
  rw [run, State.lport_laneResult, State.sentC_laneCtl]
  exact ⟨rfl, rfl, SameBut.trans (State.laneCtl_same s p.val _) (State.updLanePort_same _ p.val _)⟩

theorem staRestart_refuses (rests : (s.lport p.val).state ≠ .running) : exec (.staRestart r p k) s = .next (s.laneResult p.val 0x24 k.val) :=
  congrArg Host.Outcome.next ((State.gated_ok _ _ writes).trans (if_pos rests))

end

end

/-! ### Probes and delays (R320) -/

theorem probeTimeout_measures {j : Nat} (asked : (s.lport p.val).sentC = [.probe j]) (enum : (s.lport p.val).state = .enum) (found : (s.lport p.val).nFound = j) (some_ : 0 < j) :
    ∃ u, exec (.probeTimeout p) s = .next u ∧ (u.lport p.val).sentC = (List.range j).map CFrame.delayReq ∧ SameBut [.lne] s u := by
  let s1 := s.updPort_ p.val fun x => { x with sentC := x.sentC.filter fun c => !(match c with | .probe _ => true | _ => false) }
  have run : exec (.probeTimeout p) s = .next ((List.range j).foldl (fun s k => s.laneCtl p.val (.delayReq k)) s1) := by
    show execProbeTimeout p s = _
    unfold execProbeTimeout
    dsimp only
    rw [if_neg (by simp [LPort.awaits, asked]), if_neg (by simp [enum]), if_neg (by omega), found] <;> rfl
  have rest : (s1.lport p.val).sentC = [] := by
    rw [State.lport_updPort_same, asked]
    rfl
  refine ⟨_, run, ?_, SameBut.trans (State.updLanePort_same s p.val _) (SameBut.foldl (fun u k => State.laneCtl_same u p.val _) _ s1)⟩
  rw [State.sentC_laneCtls p.val CFrame.delayReq, rest]
  rfl

theorem delayRemeasure_asks (runs : (s.lport p.val).state = .running) : ∃ u, exec (.delayRemeasure p) s = .next u ∧
    (u.lport p.val).sentC = (s.lport p.val).sentC ++ ((s.lport p.val).found.filter fun y => y.2.sta.isSome).map fun y => CFrame.delayReq y.1 :=
  ⟨_, congrArg Host.Outcome.next (if_neg (by simp [runs])), State.sentC_laneCtls p.val (fun y : Nat × Found => CFrame.delayReq y.1) _ s⟩

theorem newStationProbe_asks (runs : (s.lport p.val).state = .running) (room : (s.lport p.val).nFound < 128) : ∃ u, exec (.newStationProbe p) s = .next u ∧
    (u.lport p.val).sentC = (s.lport p.val).sentC ++ [.probe (s.lport p.val).nFound] :=
  ⟨_, congrArg Host.Outcome.next (if_neg (by simp [runs, room])), State.sentC_laneCtl s p.val _⟩

/-! ### The link (R324) -/

theorem laneLinkUp_enumerates (power : (s.hd .lne).pwr = .on) (lane : (s.lport p.val).eth = false) (waits : (s.lport p.val).state = .linkWait) :
    ∃ u, exec (.laneLinkUp p) s = .next u ∧ (u.lport p.val).link = true ∧ (u.lport p.val).state = .enum ∧ (u.lport p.val).sentC = [.probe 0] := by
  let s1 := s.updPort_ p.val fun x => { x with link := true }
  have port : s1.lport p.val = { s.lport p.val with link := true } := State.lport_updPort_same s p.val _
  have run : exec (.laneLinkUp p) s = .next (s1.startEnum p.val) := by
    show execLaneLinkUp p s = _
    unfold execLaneLinkUp
    rw [if_neg (by simp [power])]
    dsimp only
    rw [if_neg (by simp [lane]), if_pos (by rw [State.lport_updPort_same]; exact waits), if_neg (by simp [lane])]
  obtain ⟨j, l, enum⟩ := s1.lport_startEnum p.val
  refine ⟨_, run, ?_⟩
  rw [enum, port]
  exact ⟨rfl, rfl, rfl⟩

section
variable (t : State)

/-- The reaction's outputs stop the Lane ports and nothing else of the Lane engine. -/
theorem State.lne_fatalOutputs : t.fatalOutputs.lne = t.laneHalt.lne := by
  have first : t.padsLow.fioSilence.safFatal.lne = t.lne :=
    (Part.of_same (x := .lne) (State.safFatal_same _) rfl).trans (Part.of_same (x := .lne) (State.fioSilence_same t.padsLow) rfl)
  have last : t.fatalOutputs.lne = t.padsLow.fioSilence.safFatal.laneHalt.lne := Part.of_same (x := .lne) (State.pmcRollback_same _ 0 4) rfl
  rw [last, State.laneHalt, first]
  rfl

theorem State.lne_settleErm : t.settleErm.lne = t.lne := by
  unfold State.settleErm
  dsimp only
  split
  · exact State.lne_irq _ _ _
  · rfl

/-- A handled error leaves the Lane engine alone or is FATAL (R474, R475). -/
theorem State.lne_handleError (code src : Nat) (sev : Severity) : (t.handleError code src sev).lne = t.lne ∨ (t.handleError code src sev).erm.fatal = true := by
  unfold State.handleError
  split
  · exact .inr (State.fatal_fatalError _ _ _ _)
  · split
    · split
      · exact .inl rfl
      · dsimp only
        split
        · exact .inr (State.fatal_fatalError _ _ _ _)
        · split
          · exact .inl ((State.lne_irq _ _ _).trans (State.lne_record t .erm 0 0x0411 _))
          · exact .inl (State.lne_record t .erm 0 0x0411 _)
    · split
      · exact .inl ((State.lne_settleErm _).trans (State.lne_irq _ _ _))
      · split
        · exact .inr (State.fatal_fatalError _ _ _ _)
        · split
          · exact .inl ((State.lne_settleErm _).trans (State.lne_irq _ _ _))
          · exact .inl rfl

theorem State.lne_raise (b : Block) (inst code : Nat) (sev : Severity) : (t.raise b inst code sev).lne = t.lne ∨ (t.raise b inst code sev).erm.fatal = true := by
  unfold State.raise
  dsimp only
  split
  · exact .inl rfl
  · split
    · exact (State.lne_handleError _ code _ sev).imp (fun same => same.trans (State.lne_record _ _ _ _ _)) id
    · split
      · exact State.lne_handleError _ code _ sev
      · exact .inl rfl

/-- An error stops the Lane ports or leaves them alone. -/
def State.LanesHalt (t u : State) : Prop := u.lne = t.lne ∨ ∀ q, (u.lport q).state = .off

theorem raiseClosed_lanesHalt : RaiseClosed t.LanesHalt where
  erm _ _ h := h
  irq u b i h := h.imp (fun same => (State.lne_irq u b i).trans same) fun off q => by rw [State.lport_congr (State.lne_irq u b i)]; exact off q
  record u b j code ps h := h.imp (fun same => (State.lne_record u b j code ps).trans same) fun off q => by rw [State.lport_congr (State.lne_record u b j code ps)]; exact off q
  outputs u _ := .inr fun q => by
    rw [State.lport_congr (State.lne_fatalOutputs u)]
    exact Tab.get_mapAll_of (P := fun x : LPort => x.state = .off) rfl (fun _ => rfl) _ _

/-- No entry of a port has its link up. -/
def State.NoLink (u : State) (q : Nat) : Prop := ∀ y, (q, y) ∈ u.lne.ports → y.link = false

theorem raiseClosed_noLink (q : Nat) : RaiseClosed fun u => u.NoLink q where
  erm _ _ h := h
  irq u b i h := fun y mem => h y (State.lne_irq u b i ▸ mem)
  record u b j code ps h := fun y mem => h y (State.lne_record u b j code ps ▸ mem)
  outputs u h := fun y mem => by
    rw [State.lne_fatalOutputs] at mem
    obtain ⟨v, was, own⟩ := Tab.mem_mapAll mem
    exact (congrArg LPort.link own).trans (h v was)

/-- A port that was just written without its link has no entry with one. -/
theorem State.noLink_updPort {q : Nat} (none_ : (t.lport q).link = false) : (t.updPort_ q fun x => { x with sentC := [] }).NoLink q := fun y mem => by
  rcases Tab.mem_put mem with own | ⟨-, other⟩
  · exact (congrArg (fun z : Nat × LPort => z.2.link) own).trans none_
  · exact absurd rfl other

variable {t}

theorem State.NoLink.link {q : Nat} (h : t.NoLink q) : (t.lport q).link = false := by
  rcases Tab.get_eq_or_mem {} t.lne.ports q with default | mem
  · exact congrArg LPort.link default
  · exact h _ mem

theorem State.NoLink.reported {q : Nat} (h : t.NoLink q) (b : Block) (inst code : Nat) (ps : List Nat) (sev : Severity) :
    ((t.record b inst code ps).raise b inst code sev).NoLink q :=
  (raiseClosed_noLink q).raise ((raiseClosed_noLink q).record t b inst code ps h) b inst code sev

end

theorem laneLinkDown_waits (windows : (s.lport p.val).windows = true) : ∃ u, exec (.laneLinkDown p) s = .next u ∧ (u.lport p.val).link = false ∧
    ((u.lport p.val).state = .linkWait ∨ (u.erm.fatal = true ∧ (u.lport p.val).state = .off)) := by
  let s1 := s.updPort_ p.val fun x => { x with link := false }
  let s2 := ((s1.portLost p.val).portTo p.val .linkWait).updPort_ p.val fun x => { x with sentC := [] }
  let s3 := s2.record .lne p.val 0x1117 [p.val]
  let u := s3.raise .lne p.val 0x1117 .alarm
  have down : (s1.lport p.val).link = false ∧ (s1.lport p.val).windows = true := by
    rw [State.lport_updPort_same]
    exact ⟨rfl, windows⟩
  have run : exec (.laneLinkDown p) s = .next u := congrArg Host.Outcome.next (if_pos (.inl down.2))
  have waits : (s3.lport p.val).state = .linkWait := by
    rw [State.lport_congr (State.lne_record s2 _ _ _ _), State.lport_updPort_same, State.lport_portTo]
  have lost : ((((s1.portLost p.val).portTo p.val .linkWait)).lport p.val).link = false := by
    rw [State.lport_portTo, State.lport_portLost]
    exact down.1
  have unlinked : s2.NoLink p.val := State.noLink_updPort _ lost
  refine ⟨u, run, (State.NoLink.reported unlinked .lne p.val 0x1117 [p.val] .alarm).link, ?_⟩
  rcases State.lne_raise s3 .lne p.val 0x1117 .alarm with same | fatal
  · exact .inl ((congrArg LPort.state (State.lport_congr same p.val)).trans waits)
  · rcases (raiseClosed_lanesHalt s3).raise (.inl rfl) .lne p.val 0x1117 .alarm with same | off
    · exact .inl ((congrArg LPort.state (State.lport_congr same p.val)).trans waits)
    · exact .inr ⟨fatal, off p.val⟩

/-! ### Injection (R326) -/

theorem lneInjUnlock_unlocks {r : Principal} (writes : s.writeOk .lne (0x1000 * (p.val + 1) + 0x40) .w1s r = true) (open_ : s.debugOpen = true) :
    exec (.lneInjUnlock r p) s = .next (s.updPort_ p.val fun x => { x with inj := { x.inj with unlocked := true } }) :=
  congrArg Host.Outcome.next ((State.gated_ok _ _ writes).trans (if_pos open_))

/-- A refused command of injection sets its error and leaves the ports. -/
theorem State.lne_refused {o : Out} {e : Nat} (run : o = .next (s.err .lne e)) : ∃ u, o = .next u ∧ u.lne = s.lne ∧ (u.hd .lne).errCode = 0x1100 + e :=
  ⟨_, run, State.lne_err s .lne e, congrArg Hdr.errCode (State.hd_err_same s .lne e)⟩

theorem lneInjUnlock_refuses {r : Principal} (writes : s.writeOk .lne (0x1000 * (p.val + 1) + 0x40) .w1s r = true) (closed : s.debugOpen = false) :
    ∃ u, exec (.lneInjUnlock r p) s = .next u ∧ u.lne = s.lne ∧ (u.hd .lne).errCode = 0x1125 :=
  State.lne_refused (e := 0x25) (congrArg Host.Outcome.next ((State.gated_ok _ _ writes).trans (if_neg (by simp [closed]))))

section
variable {r : Principal} (writes : s.writeOk .lne (0x1000 * (p.val + 1) + 0x4C) .rw r = true)
include writes

theorem lneInjEn_enables (unlocked : (s.lport p.val).inj.unlocked = true) (none_ : s.portPend p.val = 0) (was : (s.lport p.val).inj.enNext.getD (s.lport p.val).inj.en = false) :
    ∃ u, exec (.lneInjEn r p true) s = .next u ∧ (u.lport p.val).inj = { (s.lport p.val).inj with enNext := some true } := by
  let s1 := s.updPort_ p.val fun x => { x with inj := { x.inj with enNext := some true } }
  have run : exec (.lneInjEn r p true) s = .next (s1.record .lne p.val 0x1118 [p.val, b2n true, 0, (s.regAt R.LNE_INJ_RULE (0x1000 * p.val)).toNat]) := by
    refine congrArg Host.Outcome.next ((State.gated_ok _ _ writes).trans ?_)
    dsimp only
    rw [if_neg (by simp [unlocked]), if_neg (by simp [none_]), if_neg (by simp [was])]
  refine ⟨_, run, ?_⟩
  rw [State.lport_congr (State.lne_record _ _ _ _ _), State.lport_updPort_same]

theorem lneInjEn_locked (locked : (s.lport p.val).inj.unlocked = false) : ∃ u, exec (.lneInjEn r p true) s = .next u ∧ u.lne = s.lne ∧ (u.hd .lne).errCode = 0x1125 :=
  State.lne_refused (e := 0x25) (congrArg Host.Outcome.next ((State.gated_ok _ _ writes).trans (if_pos (by simp [locked]))))

theorem lneInjEn_pending (unlocked : (s.lport p.val).inj.unlocked = true) (some_ : s.portPend p.val ≠ 0) :
    ∃ u, exec (.lneInjEn r p true) s = .next u ∧ u.lne = s.lne ∧ (u.hd .lne).errCode = 0x1126 :=
  State.lne_refused (e := 0x26) (congrArg Host.Outcome.next ((State.gated_ok _ _ writes).trans ((if_neg (by simp [unlocked])).trans (if_pos (by simp [some_])))))

end

/-! ### Ethernet mode (R325) -/

theorem ethRxFrame_stores {f : List Byte} {t8 : Nat} (up : (s.lport p.val).state = .ethUp) (power : (s.hd .lne).pwr = .on) (mem : (s.hd .mem).running = true) (long : 60 ≤ f.length)
    (takes : s.ethTakes p.val f = true) (ring : 0 < s.ethRx p.val) (room : (s.lport p.val).rxHead ≠ (s.lport p.val).rxTail) :
    ∃ u, exec (.ethRxFrame p f true t8) s = .next u ∧ (u.lport p.val).rxHead = ((s.lport p.val).rxHead + 1) % s.ethRx p.val ∧ SameBut [.lne, .mem] s u := by
  show ∃ u, execEthRxFrame p f true t8 s = .next u ∧ _
  unfold execEthRxFrame
  extract_lets x n len s1 e buf data stamp bad s2
  have stored : SameBut [.mem] s s2 := SameBut.trans (State.storeRam_same s _ _) (State.storeRam_same _ _ _)
  rw [if_neg (by simp [x, up, power]), if_neg (by simp [x, n, len, takes, room, mem]; omega)]
  refine ⟨_, rfl, ?_, SameBut.trans (SameBut.mono' stored rfl) (SameBut.mono' (State.updLanePort_same s2 p.val _) rfl)⟩
  rw [State.lport_updPort_same, State.lport_congr (Part.of_same (x := .lne) stored rfl)]

theorem ethTxDone_sends {t8 : Nat} (up : (s.lport p.val).state = .ethUp) (mem : (s.hd .mem).running = true) (ring : 0 < s.ethTx p.val) (some_ : (s.lport p.val).txHead ≠ (s.lport p.val).txTail) :
    let f := s.load (s.mem64 (s.txEntry p.val (s.lport p.val).txHead)) (s.mem64 (s.txEntry p.val (s.lport p.val).txHead + 8) % 65536)
    s.ptpEvent p.val f = none → ∃ u, exec (.ethTxDone p t8) s = .next u ∧ (u.lport p.val).txHead = ((s.lport p.val).txHead + 1) % s.ethTx p.val ∧
      (u.lport p.val).ethSent = (s.lport p.val).ethSent ++ [f] ∧ SameBut [.lne, .mem] s u := by
  intro f plain
  show ∃ u, execEthTxDone p t8 s = .next u ∧ _
  unfold execEthTxDone
  extract_lets x n e w f' ns s1 fin
  have stored : SameBut [.mem] s s1 := State.storeRam_same s _ _
  rw [if_neg (by simp [x, n, up, some_, mem]; omega), show s.ptpEvent p.val f' = none from plain]
  refine ⟨_, rfl, ?_⟩
  rw [State.lport_updPort_same, State.lport_congr (Part.of_same (x := .lne) stored rfl)]
  exact ⟨rfl, rfl, SameBut.trans (SameBut.mono' stored rfl) (SameBut.mono' (State.updLanePort_same s1 p.val _) rfl)⟩

end


/-! ### The obligation -/

/-- Settles O44, a lemma per act of a port: windows, cycles, frames, commands, the link, injection and the Ethernet rings. -/
theorem lanePortsRunTheirProtocol : Obligations.LanePortsRunTheirProtocol := by
  unfold Obligations.LanePortsRunTheirProtocol
  intro s p P x on
  refine ⟨laneWindowStart_sends, fun k runs off one => ⟨laneOutputRead_sends runs off one, fun sends unheard =>
      ⟨laneOutputRead_skips runs one sends unheard, laneWindowEnd_misses runs one sends unheard⟩⟩, laneCycleStart_stops,
    fun k runs goes off one op => ⟨laneCycleStart_sends runs goes off one op, laneCycleStart_marks runs goes off one op⟩, ?frames, ?ident, ?config, ?operates, ?delay,
    fun power lane some_ => congrArg Host.Outcome.next (if_neg (by simp [power, show (s.lport p.val).eth = false from lane, show (s.lport p.val).state ≠ .off from some_])), ?commands,
    ?stations, fun j asked enum found some_ => probeTimeout_measures asked enum found some_, fun runs => ⟨delayRemeasure_asks runs, newStationProbe_asks runs⟩,
    laneLinkUp_enumerates, fun _ windows => laneLinkDown_waits windows, fun r writes => ⟨lneInjUnlock_unlocks writes, lneInjUnlock_refuses writes⟩,
    fun r writes => ⟨lneInjEn_enables writes, lneInjEn_locked writes, lneInjEn_pending writes⟩,
    fun f t8 up power mem long _ takes ring room => ethRxFrame_stores up power mem long takes ring room,
    fun r v writes => congrArg Host.Outcome.next (State.gated_ok _ _ writes), fun r v writes => congrArg Host.Outcome.next (State.gated_ok _ _ writes),
    fun t8 up mem ring some_ => ethTxDone_sends up mem ring some_⟩
  case frames =>
    intro k start body drv good
    obtain ⟨power, lane, windows, off⟩ := good
    exact ⟨aInRx_bad power lane windows off k start body drv, fun runs here few room =>
      ⟨aInRx_hears power lane windows off drv runs here few room, aInRx_late power lane windows off drv runs here few room⟩,
      bInRx_operates power lane windows off drv⟩
  case ident =>
    intro pos body good
    obtain ⟨power, lane, windows, off⟩ := good
    exact identRx_probes power lane windows off
  case config =>
    intro k good
    obtain ⟨power, lane, windows, off⟩ := good
    exact laneAckRx_configures power lane windows off
  case operates =>
    intro k good
    obtain ⟨power, lane, windows, off⟩ := good
    exact laneAckRx_operates power lane windows off
  case delay =>
    intro pos rtt turn k good
    obtain ⟨power, lane, windows, off⟩ := good
    exact delayRespRx_remeasures power lane windows off
  case commands =>
    intro r writes refuses
    obtain ⟨state, -, result, code⟩ := s.laneResult_refuses p.val 0
    exact ⟨lneStart_starts writes, fun busy => ⟨_, lneStart_refuses writes busy, state, result, code⟩, lneStop_waits writes, lneReenum_starts writes,
      fun rests => ⟨_, lneReenum_refuses writes rests, state, result, code⟩⟩
  case stations =>
    intro r k writes
    obtain ⟨-, sentC, result, -⟩ := s.laneResult_refuses p.val k.val
    exact ⟨fun runs => ⟨⟨_, rfl, staCmd_sends writes runs 4 _⟩, ⟨_, rfl, staCmd_sends writes runs 3 _⟩⟩, fun rests => ⟨_, staRestart_refuses writes rests, sentC, result⟩⟩

end Sys2Proof.Machine
end

section
/-!
SUPPORT. The Avenue frames of this device: what a sent or flooded frame leaves as it is, the roles, the link states and the requests of the fabric window (O45).
-/

namespace Sys2Proof.Machine

section
variable {s t u : State}

/-! ### The Avenue block under the shared operations -/

section
variable (s)

theorem State.ave_irq (b : Block) (i : Nat) : (s.irq b i).ave = s.ave := Part.of_same (x := .ave) (State.irq_same s b i) rfl
theorem State.ave_err (b : Block) (e : Nat) : (s.err b e).ave = s.ave := Part.of_same (x := .ave) (State.err_same s b e) rfl
theorem State.ave_record (b : Block) (inst code : Nat) (ps : List Nat) : (s.record b inst code ps).ave = s.ave :=
  Part.of_same (x := .ave) (State.record_same s b inst code ps) rfl
theorem State.ave_raiseNoCode (b : Block) (inst : Nat) (sev : Severity) : (s.raiseNoCode b inst sev).ave = s.ave :=
  Part.of_same (x := .ave) (State.raiseNoCode_same s b inst sev) rfl

theorem State.ave_aveResult (e : Nat) : (s.aveResult e).ave = { s.ave with result := e } := by
  unfold State.aveResult
  dsimp only
  split
  · rfl
  · exact State.ave_err _ _ _

/-- An error result of AVE is its error code too. -/
theorem State.errCode_aveResult {e : Nat} (some_ : e ≠ 0) : ((s.aveResult e).hd .ave).errCode = 0x1200 + e := by
  rw [State.aveResult, if_neg some_]
  exact congrArg Hdr.errCode (State.hd_err_same _ .ave e)

theorem State.errCode_aveErr (e : Nat) : ((s.err .ave e).hd .ave).errCode = 0x1200 + e := congrArg Hdr.errCode (State.hd_err_same s .ave e)

theorem State.ave_roleTo (r : Role) : (s.roleTo r).ave = { s.ave with role := r } := State.ave_irq _ _ _

theorem State.ave_roleChange (r : Role) : (s.roleChange r).ave = { s.ave with role := r } :=
  (State.ave_roleTo _ r).trans (congrArg (fun a : Ave => { a with role := r }) (State.ave_record _ _ _ _ _))

end

theorem State.aport_congr (h : t.ave = s.ave) (q : Nat) : t.aport q = s.aport q := by rw [State.aport, h, State.aport]

theorem State.route_congr (h : t.ave.rt = s.ave.rt) (d : Nat) : t.route d = s.route d := by rw [State.route, h, State.route]

theorem State.nextPort_congr (h : t.ave.rt = s.ave.rt) (d : Nat) : t.nextPort d = s.nextPort d := by simp only [State.nextPort, State.route_congr h]

/-! ### Frames sent (R331, R342) -/

/-- A rule changes the injection state of a port alone. -/
theorem APort.inject_keeps (x : APort) (f : AFrame) (rx : Bool) (dly : Nat) : ∃ j, (x.inject f rx dly).2 = { x with inj := j } := by
  unfold APort.inject
  extract_lets j rule m hit j1 back j2
  split
  · exact ⟨x.inj, rfl⟩
  · split
    · exact ⟨j2, rfl⟩
    · split
      · exact ⟨j2, rfl⟩
      · exact ⟨j2, rfl⟩
      · split
        · exact ⟨_, rfl⟩
        · exact ⟨j2, rfl⟩
      · exact ⟨_, rfl⟩

/-- Frames were sent: the ports differ in their injection and in what they sent, and nothing else does. -/
structure State.Sends (s t : State) : Prop where
  ave : t.ave = { s.ave with ports := t.ave.ports }
  port : ∀ q, ∃ j l, t.aport q = { s.aport q with inj := j, sent := l }
  same : SameBut [.ave] s t

theorem State.Sends.refl (s : State) : s.Sends s := ⟨rfl, fun _ => ⟨_, _, rfl⟩, SameBut.refl _ s⟩

theorem State.Sends.trans (h : s.Sends t) (g : t.Sends u) : s.Sends u where
  ave := g.ave.trans (congrArg (fun a : Ave => { a with ports := u.ave.ports }) h.ave)
  port q := by
    obtain ⟨j, l, first⟩ := h.port q
    obtain ⟨j', l', second⟩ := g.port q
    exact ⟨j', l', by rw [second, first]⟩
  same := SameBut.trans h.same g.same

/-- What does not look at the ports is as it was after frames were sent. -/
theorem State.Sends.view {α : Type} (g : Ave → α) (blind : ∀ a ports, g { a with ports := ports } = g a) (h : s.Sends t) : g t.ave = g s.ave := by
  rw [h.ave]
  exact blind _ _

theorem State.Sends.foldl {α : Type} {f : State → α → State} (step : ∀ (u : State) x, u.Sends (f u x)) : ∀ (l : List α) (s : State), s.Sends (l.foldl f s)
  | [], s => .refl s
  | x :: l, s => (step s x).trans (State.Sends.foldl step l (f s x))

theorem State.aveSendPort_sends (s : State) (p : Nat) (f : AFrame) : s.Sends (s.aveSendPort p f) := by
  unfold State.aveSendPort
  split
  · exact .refl s
  · refine ⟨rfl, fun q => ?_, State.updAve_same s _⟩
    by_cases own : q = p
    · subst own
      obtain ⟨j, kept⟩ := (s.aport q).inject_keeps f false (s.aveDly q)
      rw [State.aport_updAport_same]
      dsimp only
      rw [kept]
      exact ⟨j, _, rfl⟩
    · exact ⟨_, _, State.aport_updAport_ne s _ own⟩

theorem State.aveSend_sends (s : State) (f : AFrame) : s.Sends (s.aveSend f) := by
  unfold State.aveSend
  split
  · exact State.aveSendPort_sends s _ f
  · exact .refl s

theorem State.aveTo_sends (s : State) (d : Nat) (b : ABody) : s.Sends (s.aveTo d b) := State.aveSend_sends s _

theorem State.flood_sends (s : State) (e : Option Nat) (b : ABody) : s.Sends (s.flood e b) := by
  refine State.Sends.foldl (fun u p => ?_) _ s
  split
  · exact .refl u
  · exact State.aveSendPort_sends u p _

/-- A frame toward a device leaves by the port of its route as it is, where the port is UP without injection. -/
theorem State.sent_aveSend {f : AFrame} {q : Nat} (goes : s.nextPort f.dst = some q) (up : (s.aport q).st = .up) (off : (s.aport q).inj.en = false) :
    ((s.aveSend f).aport q).sent = (s.aport q).sent ++ [(f, true)] := by
  rw [State.aveSend, goes]
  exact State.sent_aveSendPort s f up off

/-! ### Link states (R336) -/

/-- Links were advertised: besides what sending changes, the link-state table moved on, and free values may have been drawn. -/
structure State.Floods (s t : State) : Prop where
  ave : t.ave = { s.ave with ports := t.ave.ports, lsaSeq := t.ave.lsaSeq, lst := t.ave.lst }
  port : ∀ q, ∃ j l, t.aport q = { s.aport q with inj := j, sent := l }
  same : SameBut [.ave, .free] s t

theorem State.Sends.floods (h : s.Sends t) : s.Floods t where
  ave := by
    rw [h.ave]
  port := h.port
  same := SameBut.mono' h.same rfl

theorem State.Floods.refl (s : State) : s.Floods s := (State.Sends.refl s).floods

theorem State.Floods.trans (h : s.Floods t) (g : t.Floods u) : s.Floods u where
  ave := g.ave.trans (congrArg (fun a : Ave => { a with ports := u.ave.ports, lsaSeq := u.ave.lsaSeq, lst := u.ave.lst }) h.ave)
  port q := by
    obtain ⟨j, l, first⟩ := h.port q
    obtain ⟨j', l', second⟩ := g.port q
    exact ⟨j', l', by rw [second, first]⟩
  same := SameBut.trans h.same g.same

theorem State.Floods.foldl {α : Type} {f : State → α → State} (step : ∀ (u : State) x, u.Floods (f u x)) : ∀ (l : List α) (s : State), s.Floods (l.foldl f s)
  | [], s => .refl s
  | x :: l, s => (step s x).trans (State.Floods.foldl step l (f s x))

/-- What looks at neither the ports nor the link states is as it was after an advertisement. -/
theorem State.Floods.view {α : Type} (g : Ave → α) (blind : ∀ a ports n l, g { a with ports := ports, lsaSeq := n, lst := l } = g a) (h : s.Floods t) :
    g t.ave = g s.ave := by
  rw [h.ave]
  exact blind _ _ _ _

theorem State.Floods.st (h : s.Floods t) (q : Nat) : (t.aport q).st = (s.aport q).st := by
  obtain ⟨j, l, port⟩ := h.port q
  rw [port]

theorem State.advertise_floods (s : State) (p : Nat) : s.Floods (s.advertise p) := by
  unfold State.advertise
  split
  · exact .refl s
  · extract_lets x up n own s1
    have entered : s.Floods s1 := ⟨rfl, fun q => ⟨_, _, rfl⟩, SameBut.mono' (State.updAve_same s _) rfl⟩
    exact entered.trans (.foldl (fun u d => (State.flood_sends u none _).floods) own s1)

/-- Every port that is UP is advertised. -/
theorem State.advertiseUp_floods (s : State) : s.Floods ((List.range 6).foldl (fun s p => if (s.aport p).st = .up then s.advertise p else s) s) := by
  refine .foldl (fun u p => ?_) _ s
  split
  · exact State.advertise_floods u p
  · exact .refl u

theorem State.probePort_floods (s : State) (p : Nat) : s.Floods (s.probePort p) := by
  have drawn : s.Floods s.draw.2 := ⟨rfl, fun q => ⟨_, _, rfl⟩, SameBut.mono' (State.draw_same s) rfl⟩
  exact drawn.trans (State.aveSendPort_sends _ p _).floods

theorem State.probe_floods (s : State) : s.Floods s.probe := .foldl State.probePort_floods _ s

/-! ### Routes (R335, R336) -/

theorem State.lfaSwitch_same (s : State) : SameBut [.ave] s s.lfaSwitch := State.updAve_same s _

/-- The use of an entry's alternate, as LFA_SWITCH sets it (R336). -/
def State.lfaEntry (s : State) (t : Tab Rt) (d : Nat) : Tab Rt :=
  Tab.upd {} t d fun r => { r with usingAlt := r.valid && r.lfa && decide (r.pri < 6) && decide ((s.aport r.pri).st ≠ .up) }

theorem State.rt_lfaSwitch (s : State) : s.lfaSwitch.ave.rt = (List.range 64).foldl s.lfaEntry s.ave.rt := by
  generalize entries : List.range 64 = l
  unfold State.lfaSwitch State.updAve
  rw [entries]
  rfl

/-- What does not look at the routing table is as it was after LFA_SWITCH. -/
theorem State.view_lfaSwitch {α : Type} (g : Ave → α) (blind : ∀ a rt, g { a with rt := rt } = g a) (s : State) : g s.lfaSwitch.ave = g s.ave := by
  unfold State.lfaSwitch State.updAve
  exact blind _ _

/-- A loop-free alternate is in use after LFA_SWITCH where the primary port is not UP. -/
theorem State.route_lfaSwitch {d : Nat} (lt : d < 64) (valid : (s.route d).valid = true) (lfa : (s.route d).lfa = true) (port : (s.route d).pri < 6)
    (down : (s.aport (s.route d).pri).st ≠ .up) : (s.lfaSwitch.route d).usingAlt = true := by
  let P : Tab Rt → Prop := fun rt => (Tab.get {} rt d).valid = true ∧ (Tab.get {} rt d).lfa = true ∧ (Tab.get {} rt d).pri = (s.route d).pri
  have keeps (t : Tab Rt) (e : Nat) (h : P t) : P (s.lfaEntry t e) := by
    by_cases own : d = e
    · subst own
      simpa only [P, State.lfaEntry, Tab.get_upd_same] using h
    · simpa only [P, State.lfaEntry, Tab.get_upd_ne _ _ _ own] using h
  have sets (t : Tab Rt) (h : P t) : (Tab.get {} (s.lfaEntry t d) d).usingAlt = true ∧ P (s.lfaEntry t d) := by
    refine ⟨?_, keeps t d h⟩
    obtain ⟨v, l, pri⟩ := h
    simp only [State.lfaEntry, Tab.get_upd_same, v, l, pri, Bool.true_and, Bool.and_eq_true, decide_eq_true_eq]
    exact ⟨port, down⟩
  have stays (t : Tab Rt) (e : Nat) (h : (Tab.get {} t d).usingAlt = true ∧ P t) : (Tab.get {} (s.lfaEntry t e) d).usingAlt = true ∧ P (s.lfaEntry t e) := by
    by_cases own : d = e
    · subst own
      exact sets t h.2
    · exact ⟨by simpa only [State.lfaEntry, Tab.get_upd_ne _ _ _ own] using h.1, keeps t e h.2⟩
  rw [State.route, State.rt_lfaSwitch]
  exact (foldl_reaches (I := P) (P := fun t => (Tab.get {} t d).usingAlt = true ∧ P t) (List.mem_range.2 lt) (s := s.ave.rt) ⟨valid, lfa, rfl⟩ keeps sets stays).1

/-! ### Refused accesses (R46) -/

theorem State.ave_told (s : State) (r : Requester) (code addr : Nat) : (s.told r code addr).ave = s.ave := by
  unfold State.told
  dsimp only
  split
  · rfl
  · split
    · exact Part.of_same (x := .ave) (State.tell_same s r _ _ addr) rfl
    · split <;> rfl

/-! ### The parent of the fabric time (R357) -/

theorem State.parent_measLocking (s : State) (o : Int) : (s.measLocking o).tim.parent = s.tim.parent := by
  rcases Nat.lt_or_ge s.stepThr o.natAbs with far | near
  · rw [State.measLocking_far far, State.tim_freqFrom, State.tim_servoTo]
    rfl
  · obtain ⟨st, cnt, lost, run, -⟩ := State.tim_measLocking_near near
    rw [run]
    rfl

/-- A measurement keeps the parent whose frame it came with. -/
theorem State.parent_measure (s : State) (o : Int) : (s.measure o).tim.parent = s.tim.parent := by
  by_cases free : s.tim.stepPend = none ∧ s.tim.st ≠ .freerun
  case neg =>
    have idle : s.tim.stepPend.isSome ∨ s.tim.st = .freerun := by
      by_contra rest
      exact free (by simpa using rest)
    exact congrArg (fun v : State => v.tim.parent) (if_pos idle)
  obtain ⟨free, on⟩ := free
  obtain ⟨l, taken⟩ := State.tim_taken s o
  have first_ : (s.taken o).tim.parent = s.tim.parent := by rw [taken]
  rw [← first_]
  cases st : s.tim.st with
  | freerun => exact absurd st on
  | acquire =>
    cases first : s.tim.r1 with
    | none =>
      obtain ⟨near, far⟩ := State.measure_acquire_first (o := o) free st first
      rcases Nat.lt_or_ge s.stepThr o.natAbs with h | h
      · rw [far h]; rfl
      · rw [near h]; rfl
    | some r1 =>
      rw [State.measure_acquire_second free st first, State.tim_servoTo]
      split <;> rfl
  | locking => rw [State.measure_locking free st, State.parent_measLocking]
  | holdover =>
    rw [State.measure_holdover free st, State.parent_measLocking, State.tim_servoTo]
  | locked =>
    rw [State.measure_locked free st]
    split
    · rw [State.tim_freqFrom, State.tim_servoTo]; rfl
    · split
      · rfl
      · split
        · rfl
        · rw [State.tim_servoTo]; rfl

/-! ### A point that is marked (R338) -/

section
variable {b : Block} (hrc : b ≠ .hrc) (evr : b ≠ .evr)
include hrc evr

omit evr in
theorem State.hd_hrcLose (s : State) (v : HrcBlock) : (s.hrcLose v).hd b = s.hd b := by
  have counted (f : Hrc → Hrc) : ((s.updHrc f).irq .hrc 8).hd b = s.hd b := State.hd_irq_ne _ _ hrc
  unfold State.hrcLose
  dsimp only
  split
  · exact ((State.putGap_same _ _).hd rfl b).trans (counted _)
  · exact counted _

omit evr in
theorem State.hd_hrcOverwrite (s : State) : s.hrcOverwrite.1.hd b = s.hd b := by
  unfold State.hrcOverwrite
  split
  · rfl
  · exact State.hd_hrcLose hrc s _

theorem State.hd_hrcClose (s : State) : s.hrcClose.hd b = s.hd b := by
  unfold State.hrcClose
  split
  · rfl
  · extract_lets n
    split
    next s1 slot chosen =>
      have made : s1.hd b = s.hd b := by
        rw [show s1 = _ from (congrArg Prod.fst chosen).symm]
        split
        · exact State.hd_hrcOverwrite hrc s
        · rfl
      have stored (a : Nat) (bs : List Byte) (f : Hrc → Hrc) : ((s1.storeRam a bs).updHrc f).hd b = s.hd b :=
        (State.hd_updHrc _ f b).trans (((State.storeRam_same s1 a bs).hd rfl b).trans made)
      dsimp only
      split
      · rw [State.hd_irq_ne _ _ hrc, State.hd_record _ _ _ _ _ evr, State.hd_updHrc]
        exact stored _ _ _
      · exact stored _ _ _

theorem State.hd_hrcObserve (s : State) (idx : Nat) (e : DirEntry) (v : Word) (q : Byte) (t : Nat) : (s.hrcObserve idx e v q t).hd b = s.hd b := by
  have recorded (u : State) (r : HrcRec) : (u.hrcRecord r).hd b = u.hd b := by
    unfold State.hrcRecord
    extract_lets o o' s1
    split
    · exact State.hd_hrcClose hrc evr s1
    · rfl
  unfold State.hrcObserve
  split
  · rfl
  · split
    · unfold State.observeChange
      dsimp only
      split
      · rfl
      · split
        · exact recorded _ _
        · rfl
    · rfl
    · rfl

/-- A stored entry reaches the headers of HRC and EVR alone. -/
theorem State.hd_putEntry (s : State) (idx : Nat) (x : Entry) (t : Option Nat) : (s.putEntry idx x t).hd b = s.hd b := by
  have observed (e : DirEntry) (v : Word) (q : Byte) (t : Nat) : ((s.storeEntry idx x).hrcObserve idx e v q t).hd b = s.hd b :=
    (State.hd_hrcObserve hrc evr _ _ _ _ _ _).trans ((State.storeEntry_same s idx x).hd rfl b)
  unfold State.putEntry
  dsimp only
  split
  · exact ((State.canChange_same _ _).hd rfl b).trans (observed _ _ _ _)
  · exact observed _ _ _ _

end

/-- A stored entry is the point's entry. -/
theorem State.entry_putEntry {i : Nat} (can : s.canWrite i = true) (x : Entry) (t : Option Nat) : (s.putEntry i x t).entry i = x := by
  have live : (s.point i).kind ≠ .none ∧ ((s.point i).hot = true ∨ (s.hd .mem).running = true) := by
    simp only [State.canWrite, Bool.and_eq_true, decide_eq_true_eq, Bool.or_eq_true] at can
    exact ⟨can.1.1, can.2⟩
  obtain ⟨kind, stored⟩ := live
  have mem : ((s.putEntry i x t).hd .mem).running = (s.hd .mem).running := congrArg Hdr.running (State.hd_putEntry (by decide) (by decide) s i x t)
  have point : (s.putEntry i x t).point i = s.point i := by
    refine State.point_congr ?_ i
    rw [State.ptd_putEntry, State.storeEntry]
    dsimp only
    split <;> rfl
  rw [State.entry, point, mem, State.ptd_putEntry, State.storeEntry]
  dsimp only
  rw [if_neg kind]
  by_cases hot : (s.point i).hot = true
  · rw [if_pos hot, if_pos hot, Tab.get_put_same]
  · rw [if_neg hot, if_neg hot, if_pos (stored.resolve_left hot), Tab.get_put_same]

/-- A mark on a point of its own value changes its quality (Table PTD-5). -/
theorem State.entry_markPoint {i : Nat} (can : s.canWrite i = true) (free : s.forceOf i = none) (plain : (s.point i).substEn = false) (f : Byte → Byte) :
    (s.markPoint i f).entry i = { s.entry i with q := f (s.entry i).q } := by
  have run : s.markPoint i f = s.putEntry i { s.entry i with q := f (s.entry i).q } := by
    rw [State.markPoint, if_neg (by simp [can])]
    simp only [free, plain, Bool.false_and, Bool.false_eq_true, if_false]
  rw [run, State.entry_putEntry can]

end

end Sys2Proof.Machine
end

section
/-!
PROOF. The Avenue ports, the Junction and the gateway (O45).
-/

namespace Sys2Proof.Machine

section
variable {s : State} {p : Fin 6}

/-! ### Ports (R330, Table AVE-1) -/

theorem aveTrainingDone_trains (peer : Fin 64) (pp : Fin 6) (role : Fin 4) (dly : Nat) (training : (s.aport p.val).st = .training) :
    ∃ t, exec (.aveTrainingDone p peer pp role dly) s = .next t ∧ (t.aport p.val).st = .up ∧ (t.aport p.val).peer = peer.val ∧ (t.aport p.val).peerPort = pp.val ∧
      (t.aport p.val).dly = min 65535 dly ∧ (s.ave.discBusy = true → role.val = 1 → t.ave.discBusy = false ∧ t.ave.result = 0x28) := by
  let s0 := s.updAport p.val fun x => { x with st := .up, peer := peer.val, peerPort := pp.val, dly := min 65535 dly }
  let s1 := (s0.record .ave p.val 0x1210 [p.val, peer.val, pp.val, dly]).irq .ave 8
  let s2 := s1.advertise p.val
  have ave : s1.ave = s0.ave := (State.ave_irq _ _ _).trans (State.ave_record s0 _ _ _ _)
  have trained {t : State} (h : s1.Floods t) : (t.aport p.val).st = .up ∧ (t.aport p.val).peer = peer.val ∧ (t.aport p.val).peerPort = pp.val ∧
      (t.aport p.val).dly = min 65535 dly := by
    obtain ⟨j, l, port⟩ := h.port p.val
    rw [port, State.aport_congr ave, State.aport_updAport_same]
    exact ⟨rfl, rfl, rfl, rfl⟩
  have floods : s1.Floods s2 := State.advertise_floods s1 p.val
  have run : exec (.aveTrainingDone p peer pp role dly) s = .next (if s.ave.discBusy ∧ role.val = 1 then (s2.updAve fun a => { a with discBusy := false }).aveResult errGwConflict
      else if s.ave.role = .active then s2.probePort p.val else s2) := congrArg Host.Outcome.next (if_neg (not_not.2 training))
  rw [run]
  clear_value s2
  by_cases conflict : s.ave.discBusy ∧ role.val = 1
  · rw [if_pos conflict]
    have result := State.ave_aveResult (s2.updAve fun a => { a with discBusy := false }) errGwConflict
    obtain ⟨st, pe, port, d⟩ := trained floods
    have same : ((s2.updAve fun a => { a with discBusy := false }).aveResult errGwConflict).aport p.val = s2.aport p.val := by
      rw [State.aport, result]
      rfl
    refine ⟨_, rfl, ?_⟩
    rw [same, result]
    exact ⟨st, pe, port, d, fun _ _ => ⟨rfl, rfl⟩⟩
  · rw [if_neg conflict]
    have none_ (busy : s.ave.discBusy = true) (gw : role.val = 1) : False := conflict ⟨busy, gw⟩
    split
    · obtain ⟨st, pe, port, d⟩ := trained (floods.trans (State.probePort_floods s2 p.val))
      exact ⟨_, rfl, st, pe, port, d, fun busy gw => (none_ busy gw).elim⟩
    · obtain ⟨st, pe, port, d⟩ := trained floods
      exact ⟨_, rfl, st, pe, port, d, fun busy gw => (none_ busy gw).elim⟩

/-- A link that fails: its port is DOWN, the change is noted and the loop-free alternates are in use. -/
theorem State.linkDown_downs (up : (s.aport p.val).st = .up) (cause ns : Nat) : ((s.linkDown p.val cause ns).aport p.val).st = .down ∧
    (s.linkDown p.val cause ns).ave.change = some (s.ave.devId, p.val, s.now - ns) ∧
    ∀ d < 64, (s.route d).valid = true → (s.route d).lfa = true → (s.route d).pri = p.val → ((s.linkDown p.val cause ns).route d).usingAlt = true := by
  let s0 := s.updAport p.val fun x => { x with st := .down }
  let c := if (s.aport p.val).inj.en then 2 else cause
  let v := ((s0.record .ave p.val 0x1211 [p.val, (s.aport p.val).peer, c]).irq .ave 8).raiseNoCode .ave p.val .warn
  let w := v.lfaSwitch.advertise p.val
  have ave : v.ave = s0.ave := (State.ave_raiseNoCode _ _ _ _).trans ((State.ave_irq _ _ _).trans (State.ave_record s0 _ _ _ _))
  have floods : v.lfaSwitch.Floods w := State.advertise_floods _ _
  have run : s.linkDown p.val cause ns = w.updAve fun a => { a with change := some (a.devId, p.val, s.now - ns) } := if_neg (not_not.2 up)
  have down : (v.aport p.val).st = .down := by rw [State.aport_congr ave, State.aport_updAport_same]
  rw [run]
  clear_value w
  refine ⟨?_, ?_, fun d lt valid lfa pri => ?_⟩
  · show (w.aport p.val).st = .down
    rw [floods.st, State.aport, State.lfaSwitch_ports]
    exact down
  · show some (w.ave.devId, p.val, s.now - ns) = _
    rw [floods.view Ave.devId fun _ _ _ _ => rfl, State.view_lfaSwitch Ave.devId fun _ _ => rfl, ave]
    rfl
  · show (w.route d).usingAlt = true
    have route : v.route d = s.route d := State.route_congr (by rw [ave]; rfl) d
    rw [State.route_congr (floods.view Ave.rt fun _ _ _ _ => rfl) d]
    exact State.route_lfaSwitch lt (route ▸ valid) (route ▸ lfa) (by rw [route, pri]; exact p.isLt) (by rw [route, pri, down]; decide)

/-! ### Frames that arrive (R331, R335) -/

section
variable (power : s.present .ave = true) (up : (s.aport p.val).st = .up) (off : (s.aport p.val).inj.en = false) {h : AHdr}
include power up

theorem State.aveRx_bad (crc : h.crc = false) (b : ABody) (x : RxCtx) : s.aveRx p h b x = s.aveBadCrc p.val := by
  rw [State.aveRx, if_neg (by simp [power, up]), if_pos (by simp [crc])]

include off

theorem State.aveRx_passes (crc : h.crc = true) (b : ABody) (x : RxCtx) :
    s.aveRx p h b x = s.junction p.val { dst := h.dst, src := h.src, hops := h.hops, tag := h.tag, body := b } x := by
  rw [State.aveRx, if_neg (by simp [power, up]), if_neg (by simp [crc]), if_pos (by simp [off])]

/-- A good frame for this device, or of a type that acts at every device, is delivered. -/
theorem State.aveRx_delivers (crc : h.crc = true) {b : ABody} (own : b.linkLocal = true ∨ s.ave.owns h.dst = true) (x : RxCtx) :
    s.aveRx p h b x = s.deliver p.val { dst := h.dst, src := h.src, hops := h.hops, tag := h.tag, body := b } x :=
  (State.aveRx_passes power up off crc b x).trans (if_pos (by simpa using own))

end

theorem State.ports_counted (f : APort → APort) : (s.updAport p.val f).aport p.val = f (s.aport p.val) ∧ SameBut [.ave] s (s.updAport p.val f) :=
  ⟨State.aport_updAport_same s _ _, State.updAve_same s _⟩

/-- A frame of one record, by whether its point is subscribed and the subscription confirmed (R338). -/
theorem State.peerFrame_one {src time i : Nat} {r : PtRec} (bound : s.boundTo .ave (src * 2 ^ 19 + r.idx) = some i) : s.peerFrame src time [r] =
    (if (Tab.get {} s.ave.subs i).confirmed then (s.pointWrite i r.value r.q time).followPoint i s.tick else s).setFrameT 3 src time := by
  unfold State.peerFrame
  rw [List.foldl_cons, List.foldl_nil, bound]

/-! ### Requests and responses (R339) -/

theorem State.nextReq_none (waits : s.ave.waitReqs = []) : s.nextReq = s := by
  rw [State.nextReq, waits]

/-- The only request ends: no other waits for its tag. -/
theorem State.endReq_last {t : Nat} {q : FReq} (reqs : s.ave.reqs = [(t, q)]) (waits : s.ave.waitReqs = []) (result data : Nat) :
    ∃ code, (result = 0 → code = 0) ∧ s.endReq t q result data = (let v := (s.updAve fun a => { a with reqs := [] }).told q.req code q.addr
      if q.wr then v else { v with out := data }) := by
  unfold State.endReq
  extract_lets blk s1 s2
  have s1_eq : s1 = s.updAve fun a => { a with reqs := [] } := by
    simp only [s1, State.updAve, reqs]
    simp
  have ave : s2.ave = s1.ave := State.ave_told s1 _ _ _
  have rest : (if q.wr then s2 else { s2 with out := data }).ave.waitReqs = [] := by
    have kept : s2.ave.waitReqs = [] := by
      rw [ave, s1_eq]
      exact waits
    split <;> exact kept
  refine ⟨if result = 0 then 0 else blk * 256 + result, fun ok => if_pos ok, ?_⟩
  rw [State.nextReq_none rest, ← s1_eq]

theorem State.told_ok (r : Requester) (addr : Nat) : s.told r 0 addr = s := by
  unfold State.told
  exact if_pos rfl

/-- A response without an error ends the only request (R339). -/
theorem State.endReq_ok {t : Nat} {q : FReq} (reqs : s.ave.reqs = [(t, q)]) (waits : s.ave.waitReqs = []) (data : Nat) : s.endReq t q 0 data =
    if q.wr then s.updAve fun a => { a with reqs := [] } else { s.updAve (fun a => { a with reqs := [] }) with out := data } := by
  obtain ⟨code, ok, run⟩ := State.endReq_last reqs waits 0 data
  rw [run, ok rfl]
  dsimp only
  rw [State.told_ok]

theorem State.respRx_ends {f : AFrame} {q : FReq} (reqs : s.ave.reqs = [(f.tag, q)]) (sender : q.dev = f.src) (result data : Nat) :
    s.respRx f result data = s.endReq f.tag q result data := by
  have found : s.reqOf f = some (f.tag, q) := by simp [State.reqOf, reqs, sender]
  rw [State.respRx, found]

theorem State.respRx_idle {f : AFrame} (reqs : s.ave.reqs = []) (result data : Nat) : s.respRx f result data = s := by
  have found : s.reqOf f = none := by simp [State.reqOf, reqs]
  rw [State.respRx, found]

theorem aveReqTimeout_ends {tag : BitVec 16} {q : FReq} (reqs : s.ave.reqs = [(tag.toNat, q)]) (waits : s.ave.waitReqs = []) :
    ∃ t, exec (.aveReqTimeout tag) s = .next t ∧ t.ave.reqs = [] ∧ (q.wr = false → t.out = if q.wide then 0xFFFFFFFFFFFFFFFF else 0xFFFFFFFF) := by
  obtain ⟨code, -, ends⟩ := State.endReq_last reqs waits errReplyLost (ones (if q.wide then 8 else 4))
  let v := (s.updAve fun a => { a with reqs := [] }).told q.req code q.addr
  have run : exec (.aveReqTimeout tag) s = .next (if q.wr then v else { v with out := ones (if q.wide then 8 else 4) }) := by
    rw [← ends]
    show execAveReqTimeout tag s = _
    simp [execAveReqTimeout, reqs]
  have none_ : v.ave.reqs = [] := by rw [State.ave_told]; rfl
  refine ⟨_, run, ?_, fun read => ?_⟩
  · split <;> exact none_
  · rw [if_neg (by simp [read])]
    show ones (if q.wide then 8 else 4) = _
    split <;> rfl

/-! ### Link states, discovery and time (R334, R336, R357) -/

theorem State.lsaRx_newer {q dev port : Nat} {link : Bool} {peer seq ago : Nat} (other : s.ave.owns dev = false)
    (newer : seqAfter seq (Tab.get {} s.ave.lst (dev * 8 + port)).seq = true) :
    Tab.get {} (s.lsaRx q dev port link peer seq ago).ave.lst (dev * 8 + port) = { up := link, peer := peer, seq := seq } ∧
    ((Tab.get {} s.ave.lst (dev * 8 + port)).up = true → link = false → (s.lsaRx q dev port link peer seq ago).ave.change = some (dev, port, s.now - ago)) ∧
    SameBut [.ave] s (s.lsaRx q dev port link peer seq ago) := by
  let s0 := s.updAve fun a => { a with lst := Tab.put {} a.lst (dev * 8 + port) { up := link, peer := peer, seq := seq } }
  let s1 := s0.flood (some q) (.lsa dev port link peer seq)
  let s2 := if (Tab.get {} s.ave.lst (dev * 8 + port)).up && !link then s1.updAve fun a => { a with change := some (dev, port, s.now - ago) } else s1
  have run : s.lsaRx q dev port link peer seq ago = s2.lfaSwitch := if_neg (by simp [other, newer])
  have sends : s0.Sends s1 := State.flood_sends s0 _ _
  have entered : s1.ave.lst = s0.ave.lst := sends.view Ave.lst fun _ _ => rfl
  rw [run]
  refine ⟨?_, fun was fell => ?_, SameBut.trans (SameBut.trans (State.updAve_same s _) (SameBut.trans sends.same ?_)) (State.lfaSwitch_same s2)⟩
  · have lst : s2.ave.lst = s1.ave.lst := by
      simp only [s2]
      split <;> rfl
    rw [State.view_lfaSwitch Ave.lst fun _ _ => rfl, lst, entered]
    exact Tab.get_put_same _ _ _ _
  · have noted : s2 = s1.updAve fun a => { a with change := some (dev, port, s.now - ago) } := if_pos (by simp [was, fell])
    rw [noted, State.view_lfaSwitch Ave.change fun _ _ => rfl]
    rfl
  · exact SameBut.ite (State.updAve_same s1 _) (SameBut.refl _ s1)

/-- A device that was given an ID, before it floods its links. -/
def State.withId (s : State) (n : Nat) : State :=
  let s1 := s.updAve fun a => { a with devId := n, assigned := true, joinReq := true }
  let s2 := if s.ave.role = .left then s1.roleTo .member else s1
  if s2.ave.role = .member ∧ s.gwMode = 2 ∧ s.hif.up then (s2.roleTo .standby).updAve fun a => { a with hbT := s.now } else s2

theorem State.withId_takes (s : State) (n : Nat) : (s.withId n).ave.devId = n ∧ (s.withId n).ave.assigned = true ∧
    (s.ave.role = .left → s.gwMode ≠ 2 → (s.withId n).ave.role = .member) := by
  unfold State.withId
  extract_lets s1 s2
  have named : s2.ave.devId = n ∧ s2.ave.assigned = true ∧ (s.ave.role = .left → s2.ave.role = .member) := by
    simp only [s2]
    split
    · rw [State.ave_roleTo]
      exact ⟨rfl, rfl, fun _ => rfl⟩
    next rest => exact ⟨rfl, rfl, fun left => absurd left rest⟩
  obtain ⟨dev, assigned, member⟩ := named
  split
  next standby =>
    have kept := State.ave_roleTo s2 .standby
    exact ⟨(congrArg Ave.devId kept).trans dev, (congrArg Ave.assigned kept).trans assigned, fun _ mode => absurd standby.2.1 mode⟩
  · exact ⟨dev, assigned, fun left _ => member left⟩

theorem State.takeId_takes (s : State) (n : Nat) : (s.takeId n).ave.devId = n ∧ (s.takeId n).ave.assigned = true ∧
    (s.ave.role = .left → s.gwMode ≠ 2 → (s.takeId n).ave.role = .member) := by
  have floods : (s.withId n).Floods (s.takeId n) := State.advertiseUp_floods (s.withId n)
  obtain ⟨dev, assigned, member⟩ := s.withId_takes n
  exact ⟨(floods.view Ave.devId fun _ _ _ _ => rfl).trans dev, (floods.view Ave.assigned fun _ _ _ _ => rfl).trans assigned,
    fun left mode => (floods.view Ave.role fun _ _ _ _ => rfl).trans (member left mode)⟩

end

end Sys2Proof.Machine
end

section
/-!
PROOF. The control messages, the fabric window and the gateway (O45).
-/

namespace Sys2Proof.Machine

section
variable {s : State}

/-! ### Control messages (R333, R338, R340, R341) -/

theorem State.pubs_subAnswer (s : State) (gid code : Nat) : (s.subAnswer gid code).ave.pubs = s.ave.pubs := by
  refine foldl_keeps (fun u : State => u.ave.pubs) (fun u e => ?_) _ s
  split
  · rfl
  · refine (congrArg Ave.pubs (Part.of_same (x := .ave) (State.markPoint_same _ e.1 markCommLost) rfl)).trans ?_
    rw [State.ave_irq, State.ave_err, State.ave_record]
    rfl

theorem State.pubs_answerSub (s : State) (sub gid code : Nat) : (s.answerSub sub gid code).ave.pubs = s.ave.pubs := by
  unfold State.answerSub
  split
  · exact State.pubs_subAnswer s gid code
  · exact (State.aveTo_sends s _ _).view Ave.pubs fun _ _ => rfl

/-- A refused subscription of another device sets AVE's error and is answered (R338). -/
theorem State.answerSub_refuses {sub gid code : Nat} (far : s.ave.owns sub = false) :
    ((s.err .ave code).answerSub sub gid code).ave.pubs = s.ave.pubs ∧ (((s.err .ave code).answerSub sub gid code).hd .ave).errCode = 0x1200 + code := by
  refine ⟨(State.pubs_answerSub _ _ _ _).trans (congrArg Ave.pubs (State.ave_err s _ _)), ?_⟩
  have run : (s.err .ave code).answerSub sub gid code = (s.err .ave code).aveTo sub (.grant (.sub gid code)) := if_neg (by rw [State.ave_err, far]; decide)
  rw [run, State.hd_congr ((State.aveTo_same _ _ _) .hdr (by decide)), State.errCode_aveErr]

section
variable {r : SubReq}

/-- Whether the publisher's point is what the subscription says (R338). -/
def State.fits (s : State) (r : SubReq) : Prop :=
  r.cls = .a → (s.point (r.gid % 2 ^ 19)).hot = true ∧ (s.point (r.gid % 2 ^ 19)).cls = .a ∧ (s.point (r.gid % 2 ^ 19)).kind = r.kind

theorem State.fits_iff : s.fits r ↔ ¬ (r.cls = .a ∧ (!(s.point (r.gid % 2 ^ 19)).hot ∨ (s.point (r.gid % 2 ^ 19)).cls ≠ .a ∨ (s.point (r.gid % 2 ^ 19)).kind ≠ r.kind)) := by
  simp [State.fits]

variable (published : Bool) (known : (s.ave.pubs.any fun q => decide (q.idx = r.gid % 2 ^ 19) && decide (q.dst = r.sub)) = published)
include known

theorem State.publish_takes (fits : s.fits r) (room : published = true ∨ s.ave.pubs.length < 4096) :
    ({ idx := r.gid % 2 ^ 19, dst := r.sub, cls := r.cls } : Pub) ∈ (s.publish r).ave.pubs := by
  have place : ¬ ((!published && decide (4096 ≤ s.ave.pubs.length)) = true) := by
    simp only [Bool.and_eq_true, Bool.not_eq_true', decide_eq_true_eq, not_and, Nat.not_le]
    exact fun unknown => room.resolve_left (by simp [unknown])
  unfold State.publish
  dsimp only
  rw [known, if_neg (State.fits_iff.1 fits), if_neg place, if_neg (not_not.2 rfl), State.pubs_answerSub]
  exact List.mem_append_right _ (List.mem_singleton_self _)

theorem State.publish_full (fits : s.fits r) (unknown : published = false) (full : 4096 ≤ s.ave.pubs.length) :
    s.publish r = (s.err .ave 0x23).answerSub r.sub r.gid 0x23 := by
  have none_ : (!published && decide (4096 ≤ s.ave.pubs.length)) = true := by simp [unknown, full]
  unfold State.publish
  dsimp only
  rw [known, if_neg (State.fits_iff.1 fits), if_pos none_, if_pos (by decide)]
  rfl

omit known in
theorem State.publish_misfits (misfits : ¬ s.fits r) : s.publish r = (s.err .ave 0x24).answerSub r.sub r.gid 0x24 := by
  unfold State.publish
  dsimp only
  rw [if_pos (by_contra fun fits => misfits (State.fits_iff.2 fits)), if_pos (by decide)]
  rfl

end

theorem State.injSet_ave (s : State) (q : Nat) (en : Bool) (cause : Nat) : ∃ ports, (s.injSet q en cause).ave = { s.ave with ports := ports } :=
  ⟨_, State.ave_record _ _ _ _ _⟩

theorem State.flows_injFlow (s : State) (f : AFlow) : (s.injFlow f).ave.flows = s.ave.flows := by
  refine foldl_keeps (fun u : State => u.ave.flows) (fun u q => ?_) _ s
  split
  · obtain ⟨ports, same⟩ := u.injSet_ave q false 1
    rw [same]
  · rfl

theorem State.flows_admitFlow (s : State) (src dst : Nat) (prot : Bool) :
    (s.admitFlow src dst prot).ave.flows = s.ave.flows ++ [{ src := src, dst := dst, protected_ := prot }] := by
  unfold State.admitFlow
  extract_lets f s1
  have mirrored : s1.ave.flows = s.ave.flows := by
    simp only [s1]
    split
    · exact (State.aveTo_sends s _ _).view Ave.flows fun _ _ => rfl
    · rfl
  show (s1.injFlow f).ave.flows ++ [f] = _
  rw [State.flows_injFlow, mirrored]

section
variable {src dst sender : Nat} {long cont prot : Bool} (active : s.ave.role = .active)
include active

theorem State.admitAt_admits (ok : s.admitCheck src dst long cont = 0) :
    (s.admitAt src dst sender long cont prot).ave.flows = s.ave.flows ++ [{ src := src, dst := dst, protected_ := prot }] := by
  rw [State.admitAt, if_pos active]
  dsimp only
  rw [if_pos ok, (State.aveTo_sends _ _ _).view Ave.flows fun _ _ => rfl, State.flows_admitFlow]

theorem State.admitAt_refuses {code : Nat} (check : s.admitCheck src dst long cont = code) (some_ : code ≠ 0) :
    (s.admitAt src dst sender long cont prot).ave.flows = s.ave.flows ∧ ((s.admitAt src dst sender long cont prot).hd .ave).errCode = 0x1200 + code := by
  rw [State.admitAt, if_pos active]
  dsimp only
  rw [check, if_neg some_]
  refine ⟨((State.aveTo_sends _ _ _).view Ave.flows fun _ _ => rfl).trans (congrArg Ave.flows (State.ave_err s _ _)), ?_⟩
  rw [State.hd_congr ((State.aveTo_same _ _ _) .hdr (by decide)), State.errCode_aveErr]

end

section
variable {src dev mbps : Nat} (active : s.ave.role = .active)
include active

theorem State.grantRx_grants (fits : s.ave.recSum - (Tab.get {} s.ave.devs dev).grant + mbps ≤ s.recLimit) :
    (s.grantRx src (.recReq dev mbps)).ave.recSum = s.ave.recSum - (Tab.get {} s.ave.devs dev).grant + mbps ∧
    (Tab.get {} (s.grantRx src (.recReq dev mbps)).ave.devs dev).grant = mbps := by
  let sum := s.ave.recSum - (Tab.get {} s.ave.devs dev).grant + mbps
  let s1 := match s.ave.standby with
    | some d => s.aveTo d (.grant (.recReq dev mbps))
    | none => s
  let s2 := (s1.updAve fun a => { a with recSum := sum, devs := Tab.upd {} a.devs dev fun d => { d with grant := mbps } }).record .ave 0 0x1218 [dev, mbps, sum]
  have decided : s.recGrant dev mbps = (s2, true) := if_neg (Nat.not_lt.2 fits)
  have run : s.grantRx src (.recReq dev mbps) = s2.aveTo src (.grant (.recAns mbps true)) := by
    rw [State.grantRx]
    dsimp only
    rw [if_pos active, decided]
  have ave : s2.ave = { s1.ave with recSum := sum, devs := Tab.upd {} s1.ave.devs dev fun d => { d with grant := mbps } } := State.ave_record _ _ _ _ _
  rw [run, (State.aveTo_sends _ _ _).view Ave.recSum fun _ _ => rfl, (State.aveTo_sends _ _ _).view Ave.devs fun _ _ => rfl, ave]
  refine ⟨rfl, ?_⟩
  dsimp only
  rw [Tab.get_upd_same]

theorem State.grantRx_refuses (over_ : s.recLimit < s.ave.recSum - (Tab.get {} s.ave.devs dev).grant + mbps) :
    (s.grantRx src (.recReq dev mbps)).ave.recSum = s.ave.recSum ∧ (s.grantRx src (.recReq dev mbps)).ave.devs = s.ave.devs ∧
    ((s.grantRx src (.recReq dev mbps)).hd .ave).errCode = 0x1225 := by
  have decided : s.recGrant dev mbps = (s.err .ave 0x25, false) := if_pos over_
  have run : s.grantRx src (.recReq dev mbps) = (s.err .ave 0x25).aveTo src (.grant (.recAns mbps false)) := by
    rw [State.grantRx]
    dsimp only
    rw [if_pos active, decided]
  rw [run, (State.aveTo_sends _ _ _).view Ave.recSum fun _ _ => rfl, (State.aveTo_sends _ _ _).view Ave.devs fun _ _ => rfl, State.ave_err,
    State.hd_congr ((State.aveTo_same _ _ _) .hdr (by decide)), State.errCode_aveErr]
  exact ⟨rfl, rfl, rfl⟩

end

/-- The standby takes over in role ACTIVE and answers to ID 0 too (R340). -/
theorem State.takeOver_takes (s : State) : s.takeOver.ave.role = .active ∧ s.takeOver.ave.alias0 = true := by
  let s1 := ((s.roleChange .active).updAve fun a => { a with alias0 := true, standby := none }).raiseNoCode .ave 0 .alarm
  have floods : s1.Floods s.takeOver := State.advertiseUp_floods s1
  have ave : s1.ave = { (s.roleChange .active).ave with alias0 := true, standby := none } := State.ave_raiseNoCode _ _ _ _
  rw [floods.view Ave.role fun _ _ _ _ => rfl, floods.view Ave.alias0 fun _ _ _ _ => rfl, ave, State.ave_roleChange]
  exact ⟨rfl, rfl⟩

/-! ### Discovery (R334) -/

section
variable {q src hops serial role : Nat}

theorem State.discReply_conflicts (s : State) : (s.discReply q src hops serial 1).ave = { s.ave with discBusy := false, result := 0x28 } :=
  (congrArg State.ave (if_pos rfl)).trans (State.ave_aveResult _ _)

section
variable (other : role ≠ 1) (fresh : s.ave.devs.any (fun e => decide (e.2.serial = serial) && decide (e.1 ≠ 0)) = false)
include other fresh

theorem State.discReply_new : s.discReply q src hops serial role = (match s.idFor serial with
      | (some n, _) =>
        let s1 := s.updAve fun a => { a with devs := Tab.put {} a.devs n { serial := serial, hops := hops }, maxHops := max a.maxHops hops }
        let s2 := s1.aveSendPort q { dst := n, src := s.ave.devId, body := .disc false serial q s.ave.role.code }
        if s.ave.discBusy then s2 else s2.record .ave 0 0x1214 [n, serial, hops]
      | (none, 0) => s
      | (none, e) => (s.updAve fun a => { a with discBusy := false }).aveResult e) := by
  have unknown : (s.ave.devs.find? fun e => decide (e.2.serial = serial) && decide (e.1 ≠ 0)) = none := by
    rw [List.find?_eq_none]
    exact fun e mem => by simpa using (List.any_eq_false.1 fresh) e mem
  unfold State.discReply
  rw [if_neg other, unknown] <;> rfl

theorem State.discReply_assigns {n : Nat} (busy : s.ave.discBusy = true) (free : s.idFor serial = (some n, 0)) :
    (Tab.get {} (s.discReply q src hops serial role).ave.devs n).serial = serial := by
  rw [State.discReply_new other fresh, free]
  dsimp only
  rw [if_pos busy, (State.aveSendPort_sends _ _ _).view Ave.devs fun _ _ => rfl]
  exact congrArg ADev.serial (Tab.get_put_same _ _ _ _)

theorem State.discReply_stops (taken : s.idFor serial = (none, 0x27)) :
    (s.discReply q src hops serial role).ave = { s.ave with discBusy := false, result := 0x27 } := by
  rw [State.discReply_new other fresh, taken]
  exact State.ave_aveResult _ _

end

end

end

end Sys2Proof.Machine
end

section
/-!
PROOF. The fabric window, publication and the gateway (O45).
-/

namespace Sys2Proof.Machine

section
variable {s : State}

/-! ### The fabric window (R339) -/

section
variable {r : Requester} {pr : Principal} {dev : Fin 64} {off : Fin 68719476736} {v : BitVec 64} {a : Fin 4398046511104} (word_ : off.val % 4 = 0)
  (at_ : a.val = dev.val * 2 ^ 36 + off.val)
include at_

theorem windowDevice : a.val / 2 ^ 36 % 64 = dev.val ∧ a.val % 2 ^ 36 = off.val := by
  have lo : off.val < 68719476736 := off.isLt
  have hi : dev.val < 64 := dev.isLt
  omega

include word_

theorem windowAligned : wordAccess a.val 4 = true := by
  have four : a.val % 4 = 0 := by omega
  simp [wordAccess, aligned, four]

section
variable (far : s.ave.owns dev.val = false)
include far

theorem fabricAccess_asks (power : s.present .ave = true) (valid : (s.route dev.val).valid = true) (room : s.ave.reqs.length < 64) (waits : s.ave.waitReqs = []) :
    ∃ t, exec (.fabricAccess r pr false a 4 v .clean) s = .next t ∧ SameBut [.ave] s t ∧
      t.ave.reqs = s.ave.reqs ++ [(s.ave.nextTag, { dev := dev.val, req := r, addr := off.val, wr := false, wide := false, body := .rdReq off.val pr false })] := by
  let q : FReq := { dev := dev.val, req := r, addr := off.val, wr := false, wide := false, body := .rdReq off.val pr false }
  let s1 := s.updAve fun a => { a with reqs := a.reqs ++ [(s.ave.nextTag, q)], nextTag := if s.ave.nextTag = 65535 then 1 else s.ave.nextTag + 1 }
  obtain ⟨device, place⟩ := windowDevice at_
  have run : exec (.fabricAccess r pr false a 4 v .clean) s = .next (s.sendReq q) := by
    show Host.Outcome.next (s.fabricAccess r pr false a.val 4 v.toNat .clean) = _
    unfold State.fabricAccess
    dsimp only
    rw [device, place, if_neg (by simp [windowAligned word_ at_]), if_neg (by simp [far]), if_neg (by simp [power, valid]), if_pos ⟨room, waits⟩]
    rfl
  have sends : s1.Sends (s.sendReq q) := State.aveSend_sends s1 _
  exact ⟨_, run, SameBut.trans (State.updAve_same s _) sends.same, sends.view Ave.reqs fun _ _ => rfl⟩

theorem fabricAccess_absent (invalid : (s.route dev.val).valid = false) :
    ∃ t, exec (.fabricAccess r pr false a 4 v .clean) s = .next t ∧ t.out = 0xFFFFFFFF ∧ t.ave = s.ave := by
  obtain ⟨device, place⟩ := windowDevice at_
  have run : exec (.fabricAccess r pr false a 4 v .clean) s =
      .next { s.told r (Block.ave.code * 256 + errBlockAbsent) (0x100000000000 + a.val) with out := ones 4 } := by
    show Host.Outcome.next (s.fabricAccess r pr false a.val 4 v.toNat .clean) = _
    unfold State.fabricAccess
    dsimp only
    rw [device, place, if_neg (by simp [windowAligned word_ at_]), if_neg (by simp [far]), if_pos (by simp [invalid])]
    rfl
  exact ⟨_, run, rfl, State.ave_told s _ _ _⟩

end

theorem fabricAccess_own (own : s.ave.owns dev.val = true) : exec (.fabricAccess r pr true a 4 v .clean) s =
    .next ((s.busPut pr off.val 4 v.toNat).1.told r (s.busPut pr off.val 4 v.toNat).2 (0x100000000000 + a.val)) := by
  obtain ⟨device, place⟩ := windowDevice at_
  show Host.Outcome.next (s.fabricAccess r pr true a.val 4 v.toNat .clean) = _
  unfold State.fabricAccess
  dsimp only
  rw [device, place, if_neg (by simp [windowAligned word_ at_]), if_pos own, if_pos rfl]

end

/-! ### Publication (R338, R340) -/

section
variable {dst q : Nat} (goes : s.nextPort dst = some q) (up : (s.aport q).st = .up) (off : (s.aport q).inj.en = false)
include goes up off

/-- A body of this device leaves by the port of its route. -/
theorem State.sent_aveTo (b : ABody) : ((s.aveTo dst b).aport q).sent = (s.aport q).sent ++ [({ dst := dst, src := s.ave.devId, body := b }, true)] :=
  State.sent_aveSend (f := { dst := dst, src := s.ave.devId, body := b }) goes up off

end

theorem ptPublish_runs {i : Fin 524288} {dst : Fin 64} (pubs : s.ave.pubs = [{ idx := i.val, dst := dst.val, cls := .a }]) :
    exec (.ptPublish i dst) s = .next (s.aveTo dst.val (.ptA (s.fullTime (s.point i.val) (s.readPoint i.val).timeLo) [s.ptRec i.val])) :=
  congrArg Host.Outcome.next (if_pos (by simp [pubs]))

theorem chunk60_nil : ∀ n, chunk60 n [] = []
  | 0 => rfl
  | _ + 1 => rfl

theorem chunk60_one (n : Nat) (r : PtRec) : chunk60 (n + 1) [r] = [[r]] := by
  rw [chunk60, if_neg (List.cons_ne_nil _ _)]
  exact congrArg ([r] :: ·) (chunk60_nil n)

/-- The frames of one class toward one subscriber. -/
def State.groupOf (s u : State) (d : Nat) (cl : TClass) : State :=
  (chunk60 69 (((s.ave.pubs.filter fun q => decide (q.dst = d) && decide (q.cls = cl)).map (·.idx)).map s.ptRec)).foldl
    (fun u rs => u.aveTo d (.ptB (decide (cl = .c)) s.now rs)) u

theorem ptBPublish_runs {i : Nat} {dst : Fin 64} (pubs : s.ave.pubs = [{ idx := i, dst := dst.val, cls := .b }]) :
    exec .ptBPublish s = .next (s.aveTo dst.val (.ptB false s.now [s.ptRec i])) := by
  have idle (u : State) (d : Nat) (cl : TClass) (other : d ≠ dst.val ∨ cl ≠ .b) : s.groupOf u d cl = u := by
    have none_ : (s.ave.pubs.filter fun q => decide (q.dst = d) && decide (q.cls = cl)) = [] := by
      rw [pubs]
      rcases other with d' | c'
      · simp [d'.symm]
      · simp [c'.symm]
    rw [State.groupOf, none_, List.map_nil, List.map_nil, chunk60_nil, List.foldl_nil]
  have sends : s.groupOf s dst.val .b = s.aveTo dst.val (.ptB false s.now [s.ptRec i]) := by
    have one : (s.ave.pubs.filter fun q => decide (q.dst = dst.val) && decide (q.cls = TClass.b)) = [{ idx := i, dst := dst.val, cls := .b }] := by
      rw [pubs]
      simp
    rw [State.groupOf, one, List.map_singleton, List.map_singleton, chunk60_one 68]
    rfl
  have run : exec .ptBPublish s = .next ((List.range 64).foldl (fun u d => [TClass.b, TClass.c].foldl (fun u cl => s.groupOf u d cl) u) s) := by
    show execPtBPublish s = _
    generalize devices : List.range 64 = l
    unfold execPtBPublish
    rw [devices]
    rfl
  rw [run, foldl_range_single (c := dst.val) (fun u d other => ?_) s 64 dst.isLt]
  · rw [List.foldl_cons, List.foldl_cons, List.foldl_nil, sends, idle _ _ .c (.inr (by decide))]
  · rw [List.foldl_cons, List.foldl_cons, List.foldl_nil, idle _ _ _ (.inl other), idle _ _ _ (.inl other)]

theorem gwHeartbeatSend_runs {d : Nat} (standby : s.ave.standby = some d) (active : s.ave.role = .active) : exec .gwHeartbeatSend s = .next (s.aveTo d .heartbeat) := by
  show execGwHeartbeatSend s = _
  rw [execGwHeartbeatSend, standby]
  exact congrArg Host.Outcome.next (if_pos active)

/-! ### The gateway (R334, R340, Table AVE-6) -/

section
variable {r : Principal} (writes : s.writeOk .ave 0x10C .wo r = true)
include writes

theorem aveDiscover_starts (member : s.ave.role = .member) (mode : s.gwMode = 1) (host : s.hif.up = true) (alias_ : s.ave.alias0 = false) :
    ∃ t, exec (.aveDiscover r) s = .next t ∧ t.ave.role = .active ∧ t.ave.devId = 0 ∧ t.ave.assigned = true ∧ t.ave.discBusy = true ∧ t.ave.result = 0 := by
  let s1 := s.roleTo .active
  let s2 := (s1.updAve fun a => { a with devId := if a.alias0 then a.devId else 0, assigned := true, discBusy := true,
                                         devs := Tab.put {} a.devs 0 { serial := Config.aveSerial.toNat } }).aveResult 0
  let s3 := (List.range 6).foldl (fun s p => if (s.aport p).st = .up then s.advertise p else s) s2
  have run : exec (.aveDiscover r) s = .next s3.probe := by
    refine congrArg Host.Outcome.next ((State.gated_ok _ _ writes).trans ?_)
    dsimp only
    rw [if_neg (by simp [member, mode, host]), if_neg (show ¬ s.ave.role = .active by rw [member]; decide)]
  have floods : s2.Floods s3.probe := (State.advertiseUp_floods s2).trans (State.probe_floods s3)
  have role : s1.ave = { s.ave with role := .active } := State.ave_roleTo s .active
  have ave : s2.ave = { s1.ave with devId := if s1.ave.alias0 then s1.ave.devId else 0, assigned := true, discBusy := true,
                                    devs := Tab.put {} s1.ave.devs 0 { serial := Config.aveSerial.toNat }, result := 0 } := State.ave_aveResult _ _
  refine ⟨_, run, ?_⟩
  rw [floods.view Ave.role fun _ _ _ _ => rfl, floods.view Ave.devId fun _ _ _ _ => rfl, floods.view Ave.assigned fun _ _ _ _ => rfl,
    floods.view Ave.discBusy fun _ _ _ _ => rfl, floods.view Ave.result fun _ _ _ _ => rfl, ave, role]
  exact ⟨rfl, if_neg (by simp [alias_]), rfl, rfl, rfl⟩

/-- A command refused to a device that is not the gateway (R340). -/
theorem aveDiscover_refuses (other : s.ave.role = .standby ∨ s.ave.role = .left ∨ (s.ave.role = .member ∧ (s.gwMode ≠ 1 ∨ s.hif.up = false))) :
    ∃ t, exec (.aveDiscover r) s = .next t ∧ t.ave = { s.ave with result := 0x26 } ∧ (t.hd .ave).errCode = 0x1226 := by
  have mayNot : (!(decide (s.ave.role = .active) || (decide (s.ave.role = .member) && decide (s.gwMode = 1) && s.hif.up))) = true := by
    rcases other with role | role | ⟨role, mode | host⟩
    · simp [role]
    · simp [role]
    · simp [role, mode]
    · simp [role, host]
  exact ⟨s.aveResult 0x26, congrArg Host.Outcome.next ((State.gated_ok _ _ writes).trans (if_pos mayNot)), State.ave_aveResult s _, State.errCode_aveResult s (by decide)⟩

theorem aveRelease_refuses (other : s.ave.role ≠ .active) :
    ∃ t, exec (.aveRelease r) s = .next t ∧ t.ave = { s.ave with result := 0x26 } ∧ (t.hd .ave).errCode = 0x1226 :=
  ⟨s.aveResult 0x26, congrArg Host.Outcome.next ((State.gated_ok _ _ writes).trans (if_pos other)), State.ave_aveResult s _, State.errCode_aveResult s (by decide)⟩

omit writes in
theorem State.role_leave (s : State) (d : Nat) : (s.leave d).ave.role = .left := by
  rw [State.leave, State.ave_roleChange]

theorem aveRelease_leaves {d : Nat} (active : s.ave.role = .active) (reach : s.standbyReach = some d) :
    ∃ t, exec (.aveRelease r) s = .next t ∧ t.ave.role = .left ∧ t.ave.result = 0 := by
  have run : exec (.aveRelease r) s = .next ((s.leave d).aveResult 0) := by
    refine congrArg Host.Outcome.next ((State.gated_ok _ _ writes).trans ?_)
    rw [if_neg (not_not.2 active), reach]
  refine ⟨_, run, ?_⟩
  rw [State.ave_aveResult]
  exact ⟨State.role_leave s d, rfl⟩

theorem aveRelease_alone (active : s.ave.role = .active) (alone : s.standbyReach = none) :
    ∃ t, exec (.aveRelease r) s = .next t ∧ t.ave = { s.ave with result := 0x29 } ∧ (t.hd .ave).errCode = 0x1229 := by
  have run : exec (.aveRelease r) s = .next (s.aveResult 0x29) := by
    refine congrArg Host.Outcome.next ((State.gated_ok _ _ writes).trans ?_)
    rw [if_neg (not_not.2 active), alone]
    rfl
  exact ⟨_, run, State.ave_aveResult s _, State.errCode_aveResult s (by decide)⟩

end

theorem deviceLostTimeout_forgets {d : Fin 64} (active : s.ave.role = .active) (known : s.ave.known d.val = true) (other : s.ave.owns d.val = false) :
    ∃ t, exec (.deviceLostTimeout d) s = .next t ∧ t.ave.known d.val = false ∧ t.ave.recSum = s.ave.recSum - (Tab.get {} s.ave.devs d.val).grant := by
  let s1 := s.updAve fun a => { a with devs := Tab.erase a.devs d.val, recSum := a.recSum - (Tab.get {} a.devs d.val).grant,
                                       standby := if a.standby = some d.val then none else a.standby }
  refine ⟨s1.record .ave 0 0x1215 [d.val], congrArg Host.Outcome.next (if_pos ⟨active, known, by simp [other]⟩), ?_⟩
  rw [State.ave_record]
  refine ⟨?_, rfl⟩
  rw [Ave.known, List.any_eq_false]
  exact fun e mem => by simpa using Tab.erase_keys _ e mem

theorem hostLinkLossTimeout_leaves {d : Nat} (active : s.ave.role = .active) (reach : s.standbyReach = some d) (down : s.hif.up = false) :
    ∃ t, exec .hostLinkLossTimeout s = .next t ∧ t.ave.role = .left := by
  have run : exec .hostLinkLossTimeout s = .next (s.leave d) := by
    show execHostLinkLossTimeout s = _
    unfold execHostLinkLossTimeout
    rw [if_pos ⟨active, by simp [down]⟩, reach]
  exact ⟨_, run, State.role_leave s d⟩

/-! ### Injection (R342) -/

section
variable {p : Fin 6} {r : Principal}

/-- A refused command of injection sets its error and leaves the Avenue block. -/
theorem State.ave_refused {o : Out} {e : Nat} (run : o = .next (s.err .ave e)) : ∃ t, o = .next t ∧ t.ave = s.ave ∧ (t.hd .ave).errCode = 0x1200 + e :=
  ⟨_, run, State.ave_err s .ave e, State.errCode_aveErr s e⟩

section
variable (writes : s.writeOk .ave (0x104C + 0x1000 * p.val) .rw r = true)
include writes

theorem aveInjEn_enables (unlocked : (s.aport p.val).inj.unlocked = true) (none_ : s.flowsOver p.val = 0) (was : (s.aport p.val).inj.enNext.getD (s.aport p.val).inj.en = false) :
    ∃ t, exec (.aveInjEn r p true) s = .next t ∧ (t.aport p.val).inj = { (s.aport p.val).inj with enNext := some true } := by
  let s1 := s.updAport p.val fun x => { x with inj := { x.inj with enNext := some true } }
  have run : exec (.aveInjEn r p true) s = .next (s1.record .ave p.val 0x1219 [p.val, b2n true, 0]) := by
    refine congrArg Host.Outcome.next ((State.gated_ok _ _ writes).trans ?_)
    dsimp only
    rw [if_neg (by simp [unlocked]), if_neg (by simp [none_]), if_neg (by simp [was])]
  refine ⟨_, run, ?_⟩
  rw [State.aport_congr (State.ave_record _ _ _ _ _), State.aport_updAport_same]

theorem aveInjEn_locked (locked : (s.aport p.val).inj.unlocked = false) : ∃ t, exec (.aveInjEn r p true) s = .next t ∧ t.ave = s.ave ∧ (t.hd .ave).errCode = 0x122A :=
  State.ave_refused (e := 0x2A) (congrArg Host.Outcome.next ((State.gated_ok _ _ writes).trans (if_pos (by simp [locked]))))

theorem aveInjEn_pending (unlocked : (s.aport p.val).inj.unlocked = true) (some_ : s.flowsOver p.val ≠ 0) :
    ∃ t, exec (.aveInjEn r p true) s = .next t ∧ t.ave = s.ave ∧ (t.hd .ave).errCode = 0x122B :=
  State.ave_refused (e := 0x2B) (congrArg Host.Outcome.next ((State.gated_ok _ _ writes).trans ((if_neg (by simp [unlocked])).trans (if_pos (by simp [some_])))))

end

theorem aveInjUnlock_refuses (writes : s.writeOk .ave (0x1040 + 0x1000 * p.val) .w1s r = true) (closed : s.debugOpen = false) :
    ∃ t, exec (.aveInjUnlock r p) s = .next t ∧ t.ave = s.ave ∧ (t.hd .ave).errCode = 0x122A :=
  State.ave_refused (e := 0x2A) (congrArg Host.Outcome.next ((State.gated_ok _ _ writes).trans (if_neg (by simp [closed]))))

end

end

end Sys2Proof.Machine
end

section
/-!
PROOF. The obligation on the Avenue ports and the gateway (O45), a part per group of commands.
-/

namespace Sys2Proof.Machine

section
variable {s : State} {p : Fin 6}

section
variable (power : s.present .ave = true) (up : (s.aport p.val).st = .up) (off : (s.aport p.val).inj.en = false) {h : AHdr}
include power up off

/-! ### What arrives and is passed on or written (R331, R335, R338) -/

section
variable {time : Nat} {recs : List PtRec}

omit off in
theorem ptARx_bad (crc : h.crc = false) : ∃ t, exec (.ptARx p h time recs) s = .next t ∧ (t.aport p.val).cntCrc = wrapInc (s.aport p.val).cntCrc ∧
    (t.aport p.val).cntDrop = wrapInc (s.aport p.val).cntDrop ∧ SameBut [.ave] s t := by
  refine ⟨_, congrArg Host.Outcome.next (State.aveRx_bad power up crc _ _), ?_⟩
  obtain ⟨port, same⟩ := State.ports_counted (s := s) (p := p) fun x => { x with cntCrc := wrapInc x.cntCrc, cntDrop := wrapInc x.cntDrop }
  rw [State.aveBadCrc, port]
  exact ⟨rfl, rfl, same⟩

theorem ptARx_drops (crc : h.crc = true) (far : s.ave.owns h.dst = false) (last : h.hops = 0) : ∃ t, exec (.ptARx p h time recs) s = .next t ∧
    (t.aport p.val).cntDrop = wrapInc (s.aport p.val).cntDrop ∧ SameBut [.ave] s t := by
  have run : exec (.ptARx p h time recs) s = .next (s.updAport p.val fun y => { y with cntDrop := wrapInc y.cntDrop }) :=
    congrArg Host.Outcome.next ((State.aveRx_passes power up off crc _ _).trans ((if_neg (by simp [ABody.linkLocal, far])).trans (if_pos last)))
  obtain ⟨port, same⟩ := State.ports_counted (s := s) (p := p) fun x => { x with cntDrop := wrapInc x.cntDrop }
  refine ⟨_, run, ?_, same⟩
  rw [port]

theorem ptARx_forwards {q : Nat} (crc : h.crc = true) (far : s.ave.owns h.dst = false) (more : h.hops ≠ 0) (goes : s.nextPort h.dst = some q)
    (opens : (s.aport q).st = .up ∧ (s.aport q).inj.en = false) : ∃ t, exec (.ptARx p h time recs) s = .next t ∧
      (t.aport q).sent = (s.aport q).sent ++ [({ dst := h.dst, src := h.src, hops := h.hops - 1, tag := h.tag, body := .ptA time recs }, true)] ∧ SameBut [.ave] s t := by
  let f : AFrame := { dst := h.dst, src := h.src, hops := h.hops - 1, tag := h.tag, body := .ptA time recs }
  have run : exec (.ptARx p h time recs) s = .next (s.aveSend f) :=
    congrArg Host.Outcome.next ((State.aveRx_passes power up off crc _ _).trans ((if_neg (by simp [ABody.linkLocal, far])).trans (if_neg more)))
  obtain ⟨open_, quiet⟩ := opens
  exact ⟨_, run, State.sent_aveSend (f := f) goes open_ quiet, (State.aveSend_sends s f).same⟩

end

section
variable {time i : Nat} {r : PtRec} (crc : h.crc = true) (own : s.ave.owns h.dst = true) (bound : s.boundTo .ave (h.src * 2 ^ 19 + r.idx) = some i)
include crc own bound

/-- A frame of points of one record, of every class, reaches its subscribed point (R338). -/
theorem ptRx_delivers {b : ABody} (points : b = .ptA time [r] ∨ ∃ c, b = .ptB c time [r]) (x : RxCtx) : s.aveRx p h b x =
    (if (Tab.get {} s.ave.subs i).confirmed then (s.pointWrite i r.value r.q time).followPoint i s.tick else s).setFrameT 3 h.src time := by
  rw [State.aveRx_delivers power up off crc (.inr own), ← State.peerFrame_one bound]
  rcases points with rfl | ⟨c, rfl⟩ <;> rfl

theorem ptRx_writes (confirmed : (Tab.get {} s.ave.subs i).confirmed = true) :
    let t := ((s.pointWrite i r.value r.q time).followPoint i s.tick).setFrameT 3 h.src time
    exec (.ptARx p h time [r]) s = .next t ∧ exec (.ptBRx p h false time [r]) s = .next t ∧ exec (.ptBRx p h true time [r]) s = .next t := by
  have each {b : ABody} (points : b = .ptA time [r] ∨ ∃ c, b = .ptB c time [r]) : s.aveRx p h b {} =
      ((s.pointWrite i r.value r.q time).followPoint i s.tick).setFrameT 3 h.src time := by
    rw [ptRx_delivers power up off crc own bound points, if_pos confirmed]
  exact ⟨congrArg Host.Outcome.next (each (.inl rfl)), congrArg Host.Outcome.next (each (.inr ⟨_, rfl⟩)), congrArg Host.Outcome.next (each (.inr ⟨_, rfl⟩))⟩

theorem ptARx_unconfirmed (unconfirmed : (Tab.get {} s.ave.subs i).confirmed = false) : exec (.ptARx p h time [r]) s = .next (s.setFrameT 3 h.src time) := by
  have run : s.aveRx p h (.ptA time [r]) {} = s.setFrameT 3 h.src time := by
    rw [ptRx_delivers power up off crc own bound (.inl rfl), if_neg (by simp [unconfirmed])]
  exact congrArg Host.Outcome.next run

end

/-! ### Responses (R339) -/

section
variable {c : Bool} {q : FReq} {data : Nat} (crc : h.crc = true) (own : s.ave.owns h.dst = true)
include crc own

section
variable (waits : s.ave.waitReqs = []) (reqs : s.ave.reqs = [(h.tag, q)]) (sender : q.dev = h.src)
include waits reqs sender

theorem rdRespRx_ends (read : q.wr = false) : ∃ t, exec (.rdRespRx p h c 0 data) s = .next t ∧ t.ave.reqs = [] ∧ t.out = data ∧ SameBut [.ave, .out] s t := by
  have run : exec (.rdRespRx p h c 0 data) s = .next { s.updAve (fun a => { a with reqs := [] }) with out := data } := by
    refine congrArg Host.Outcome.next ((State.aveRx_delivers power up off crc (.inr own) _).trans ((State.respRx_ends reqs sender 0 data).trans ?_))
    rw [State.endReq_ok reqs waits, if_neg (by simp [read])]
  exact ⟨_, run, rfl, rfl, SameBut.trans (SameBut.mono' (State.updAve_same s _) rfl) (SameBut.mono' (State.setOut_same _ data) rfl)⟩

theorem wrRespRx_ends (write : q.wr = true) : ∃ t, exec (.wrRespRx p h c 0) s = .next t ∧ t.ave.reqs = [] ∧ SameBut [.ave] s t := by
  have run : exec (.wrRespRx p h c 0) s = .next (s.updAve fun a => { a with reqs := [] }) := by
    refine congrArg Host.Outcome.next ((State.aveRx_delivers power up off crc (.inr own) _).trans ((State.respRx_ends reqs sender 0 0).trans ?_))
    rw [State.endReq_ok reqs waits, if_pos write]
  exact ⟨_, run, rfl, State.updAve_same s _⟩

end

theorem respRx_discards (reqs : s.ave.reqs = []) : exec (.rdRespRx p h c 0 data) s = .next s ∧ exec (.wrRespRx p h c 0) s = .next s :=
  ⟨congrArg Host.Outcome.next ((State.aveRx_delivers power up off crc (.inr own) _).trans (State.respRx_idle reqs 0 data)),
    congrArg Host.Outcome.next ((State.aveRx_delivers power up off crc (.inr own) _).trans (State.respRx_idle reqs 0 0))⟩

end

/-! ### Link states, discovery and time (R334, R336, R357) -/

section
variable (crc : h.crc = true)
include crc

/-- A frame that acts at every device. -/
theorem State.aveRx_local {b : ABody} (b_ : b.linkLocal = true) (x : RxCtx) :
    s.aveRx p h b x = s.deliver p.val { dst := h.dst, src := h.src, hops := h.hops, tag := h.tag, body := b } x :=
  State.aveRx_delivers power up off crc (.inl b_) x

theorem lsaRx_newer {dev : Fin 64} {port : Fin 6} {link : Bool} {peer : Fin 64} {seq ago : Nat} (other : s.ave.owns dev.val = false)
    (newer : seqAfter seq (Tab.get {} s.ave.lst (dev.val * 8 + port.val)).seq = true) : ∃ t, exec (.lsaRx p h dev port link peer seq ago) s = .next t ∧
      Tab.get {} t.ave.lst (dev.val * 8 + port.val) = { up := link, peer := peer.val, seq := seq } ∧
      ((Tab.get {} s.ave.lst (dev.val * 8 + port.val)).up = true → link = false → t.ave.change = some (dev.val, port.val, s.now - ago)) ∧ SameBut [.ave] s t :=
  ⟨_, congrArg Host.Outcome.next (State.aveRx_local power up off crc rfl _), State.lsaRx_newer other newer⟩

theorem lsaRx_older {dev : Fin 64} {port : Fin 6} {link : Bool} {peer : Fin 64} {seq ago : Nat}
    (older : seqAfter seq (Tab.get {} s.ave.lst (dev.val * 8 + port.val)).seq = false) : exec (.lsaRx p h dev port link peer seq ago) s = .next s :=
  congrArg Host.Outcome.next ((State.aveRx_local power up off crc rfl _).trans (if_pos (by simp [older])))

omit power up off crc in
/-- A probe that carries this device's serial gives it the ID of its destination, which it answers. -/
theorem State.discRx_own {q dst src hops tag serial role : Nat} {b : ABody} (own : serial = Config.aveSerial.toNat) :
    s.discRx q { dst := dst, src := src, hops := hops, tag := tag, body := b } false serial role =
      (s.takeId dst).aveSendPort q { dst := src, src := dst, body := .disc true Config.aveSerial.toNat q (s.takeId dst).ave.role.code } := by
  unfold State.discRx State.discProbe
  dsimp only
  rw [if_neg (by decide), if_pos (.inl own), if_pos own]

theorem discRx_names (serial port role : Nat) (own : serial = Config.aveSerial.toNat) : ∃ t, exec (.discRx p h false serial port role) s = .next t ∧ t.ave.devId = h.dst ∧
    t.ave.assigned = true ∧ (s.ave.role = .left → s.gwMode ≠ 2 → t.ave.role = .member) := by
  refine ⟨_, congrArg Host.Outcome.next ((State.aveRx_local power up off crc rfl _).trans (State.discRx_own (role := role) own)), ?_⟩
  have sends := State.aveSendPort_sends (s.takeId h.dst) p.val { dst := h.src, src := h.dst, body := .disc true Config.aveSerial.toNat p.val (s.takeId h.dst).ave.role.code }
  rw [sends.view Ave.devId fun _ _ => rfl, sends.view Ave.assigned fun _ _ => rfl, sends.view Ave.role fun _ _ => rfl]
  exact s.takeId_takes h.dst

/-- A reply to a probe reaches the ACTIVE gateway. -/
theorem discRx_reply (serial port role : Nat) (active : s.ave.role = .active) :
    exec (.discRx p h true serial port role) s = .next (s.discReply p.val h.src (64 - h.hops) serial role) :=
  congrArg Host.Outcome.next ((State.aveRx_local power up off crc rfl _).trans (if_pos active))

theorem discRx_conflicts (serial port : Nat) (active : s.ave.role = .active) : ∃ t, exec (.discRx p h true serial port 1) s = .next t ∧ t.ave.discBusy = false ∧ t.ave.result = 0x28 := by
  refine ⟨_, discRx_reply power up off crc serial port 1 active, ?_⟩
  rw [State.discReply_conflicts]
  exact ⟨rfl, rfl⟩

theorem timeFrameRx_follows (t0 flags hops : Nat) (gm utc : List Byte) (rx : Nat) (src : s.timSrc = 2) (parent : s.timeParent = some p.val) :
    ∃ t, exec (.timeFrameRx p h t0 flags hops gm utc rx) s = .next t ∧
      t.tim.parent = { dev := (s.aport p.val).peer, port := p.val, hops := hops + 1, synced := nbit flags 0, flags := flags, gm := gm, utc := utc } := by
  have taken : ¬ (s.timSrc ≠ 2 ∨ s.timeParent ≠ some p.val) := by simp [src, parent]
  refine ⟨_, congrArg Host.Outcome.next ((State.aveRx_local power up off crc rfl _).trans (if_neg taken)), ?_⟩
  rw [State.parent_measure]
  rfl

theorem timeFrameRx_ignores (t0 flags hops : Nat) (gm utc : List Byte) (rx : Nat) (other : s.timSrc ≠ 2 ∨ s.timeParent ≠ some p.val) :
    exec (.timeFrameRx p h t0 flags hops gm utc rx) s = .next s :=
  congrArg Host.Outcome.next ((State.aveRx_local power up off crc rfl _).trans (if_pos other))

end

/-! ### Control messages (R333, R338, R340, R341) -/

section
variable (crc : h.crc = true) (own : s.ave.owns h.dst = true)
include crc own

/-- A frame for this device. -/
theorem State.aveRx_own (b : ABody) (x : RxCtx) : s.aveRx p h b x = s.deliver p.val { dst := h.dst, src := h.src, hops := h.hops, tag := h.tag, body := b } x :=
  State.aveRx_delivers power up off crc (.inr own) x

theorem trigFrameRx_runs (ns line ps : Nat) : (s.acq.records = true → exec (.trigFrameRx p h ns line ps) s =
      .next ((s.record .acq 0 0x1315 [line, h.src, ns % 2 ^ 32]).seqEvents [.fabric line (ns * 1000 + ps)] (s.tick + 1))) ∧
    (s.acq.records = false → exec (.trigFrameRx p h ns line ps) s = .next s) :=
  ⟨fun on => congrArg Host.Outcome.next ((State.aveRx_own power up off crc own _ _).trans (if_neg (by simp [on]))),
    fun idle => congrArg Host.Outcome.next ((State.aveRx_own power up off crc own _ _).trans (if_pos (by simp [idle])))⟩

section
variable (sub : Fin 64) (gid : BitVec 25) (cls : Fin 4) (kind : Fin 8) (long cont prot : Bool)

/-- The subscription that a CTRL frame carries. -/
def ctrlSub (sub : Fin 64) (gid : BitVec 25) (cls : Fin 4) (kind : Fin 8) : SubReq :=
  { sub := sub.val, gid := gid.toNat, cls := classOf cls.val, kind := kindOf kind.val, admitted := true }

omit power up off crc own in
/-- The publisher takes a subscription that the gateway admitted. -/
theorem State.subscribeAt_admitted {r : SubReq} (admitted : r.admitted = true) (long cont prot : Bool) : s.subscribeAt r long cont prot = s.publish r := by
  unfold State.subscribeAt
  exact if_pos admitted

theorem ctrlSubscribe_publishes : exec (.ctrlSubscribe p h sub gid cls kind true long cont prot) s = .next (s.publish (ctrlSub sub gid cls kind)) :=
  congrArg Host.Outcome.next ((State.aveRx_own power up off crc own _ _).trans (State.subscribeAt_admitted (s := s) (r := ctrlSub sub gid cls kind) rfl long cont prot))

theorem ctrlSubscribe_takes (fits : s.fits (ctrlSub sub gid cls kind))
    (room : (s.ave.pubs.any fun q => decide (q.idx = gid.toNat % 2 ^ 19) && decide (q.dst = sub.val)) = true ∨ s.ave.pubs.length < 4096) :
    ∃ t, exec (.ctrlSubscribe p h sub gid cls kind true long cont prot) s = .next t ∧
      ({ idx := gid.toNat % 2 ^ 19, dst := sub.val, cls := classOf cls.val } : Pub) ∈ t.ave.pubs :=
  ⟨_, ctrlSubscribe_publishes power up off crc own sub gid cls kind long cont prot, State.publish_takes (r := ctrlSub sub gid cls kind) _ rfl fits room⟩

theorem ctrlSubscribe_full (fits : s.fits (ctrlSub sub gid cls kind))
    (unknown : (s.ave.pubs.any fun q => decide (q.idx = gid.toNat % 2 ^ 19) && decide (q.dst = sub.val)) = false) (full : 4096 ≤ s.ave.pubs.length)
    (far : s.ave.owns sub.val = false) : ∃ t, exec (.ctrlSubscribe p h sub gid cls kind true long cont prot) s = .next t ∧ t.ave.pubs = s.ave.pubs ∧ (t.hd .ave).errCode = 0x1223 := by
  refine ⟨_, ctrlSubscribe_publishes power up off crc own sub gid cls kind long cont prot, ?_⟩
  rw [State.publish_full (r := ctrlSub sub gid cls kind) _ unknown fits rfl full]
  exact State.answerSub_refuses far

theorem ctrlSubscribe_misfits (class_ : classOf cls.val = .a) (cold : (s.point (gid.toNat % 2 ^ 19)).hot = false) (far : s.ave.owns sub.val = false) :
    ∃ t, exec (.ctrlSubscribe p h sub gid cls kind true long cont prot) s = .next t ∧ t.ave.pubs = s.ave.pubs ∧ (t.hd .ave).errCode = 0x1224 := by
  have misfits : ¬ s.fits (ctrlSub sub gid cls kind) := fun fits => absurd ((fits class_).1.symm.trans cold) (by decide)
  refine ⟨_, ctrlSubscribe_publishes power up off crc own sub gid cls kind long cont prot, ?_⟩
  rw [State.publish_misfits misfits]
  exact State.answerSub_refuses far

end

section
variable {src dst : Fin 64} {prot : Bool}

theorem ctrlAdmit_runs (long cont : Bool) : exec (.ctrlAdmit p h src dst long cont prot) s = .next (s.admitAt src.val dst.val h.src long cont prot) :=
  congrArg Host.Outcome.next (State.aveRx_own power up off crc own _ _)

section
variable (active : s.ave.role = .active) (valid : (s.route src.val).valid = true)
include active valid

theorem ctrlAdmit_admits (short : s.ownLong src.val dst.val = false) :
    (∃ t, exec (.ctrlAdmit p h src dst false false prot) s = .next t ∧ t.ave.flows = s.ave.flows ++ [{ src := src.val, dst := dst.val, protected_ := prot }]) ∧
    (∃ t, exec (.ctrlAdmit p h src dst false true prot) s = .next t ∧ t.ave.flows = s.ave.flows ∧ (t.hd .ave).errCode = 0x1220) :=
  ⟨⟨_, ctrlAdmit_runs power up off crc own false false, State.admitAt_admits active (by simp [State.admitCheck, valid, short])⟩,
    ⟨_, ctrlAdmit_runs power up off crc own false true, State.admitAt_refuses active (code := 0x20) (by simp [State.admitCheck, valid, short, errAdmitClassA]) (by decide)⟩⟩

theorem ctrlAdmit_long (long cont : Bool) (far : long = true ∨ s.ownLong src.val dst.val = true) :
    ∃ t, exec (.ctrlAdmit p h src dst long cont prot) s = .next t ∧ t.ave.flows = s.ave.flows ∧ (t.hd .ave).errCode = 0x1221 := by
  have check : s.admitCheck src.val dst.val long cont = 0x21 := by
    unfold State.admitCheck
    rw [if_neg (by simp [valid]), if_pos (by simpa using far)]
    rfl
  exact ⟨_, ctrlAdmit_runs power up off crc own long cont, State.admitAt_refuses active check (by decide)⟩

end

theorem ctrlAdmit_mirrors (standby : s.ave.role = .standby) (long cont : Bool) : exec (.ctrlAdmit p h src dst long cont prot) s =
    .next (s.updAve fun a => { a with flows := a.flows ++ [{ src := src.val, dst := dst.val, protected_ := prot }] }) := by
  rw [ctrlAdmit_runs power up off crc own, State.admitAt, if_neg (by rw [standby]; decide), if_pos standby]

end

theorem ctrlGrant_runs (g : Grant) : exec (.ctrlGrant p h g) s = .next (s.grantRx h.src g) := congrArg Host.Outcome.next (State.aveRx_own power up off crc own _ _)

theorem standby_runs (standby : s.ave.role = .standby) : (∃ t, exec (.ctrlRelease p h) s = .next t ∧ t.ave.role = .active ∧ t.ave.alias0 = true) ∧
    exec (.ctrlHeartbeat p h) s = .next (s.updAve fun a => { a with hbT := s.now }) :=
  ⟨⟨_, congrArg Host.Outcome.next ((State.aveRx_own power up off crc own _ _).trans (if_pos standby)), s.takeOver_takes⟩,
    congrArg Host.Outcome.next ((State.aveRx_own power up off crc own _ _).trans (if_pos standby))⟩

end

end

theorem routeRecomputeDone_keeps (s : State) : ∃ t, exec .routeRecomputeDone s = .next t ∧ t.ave.rtNext = some s.rtCompute ∧ t.ave.lst = s.ave.lst ∧ SameBut [.ave] s t := by
  let s1 := s.updAve fun a => { a with rtNext := some s.rtCompute }
  refine ⟨s1.lfaSwitch, rfl, ?_⟩
  rw [State.view_lfaSwitch Ave.rtNext fun _ _ => rfl, State.view_lfaSwitch Ave.lst fun _ _ => rfl]
  exact ⟨rfl, rfl, SameBut.trans (State.updAve_same s _) (State.lfaSwitch_same s1)⟩

end

/-- Settles O45, a lemma per command of a port, of the Junction and of the gateway. -/
theorem avenuePortsAndGateway : Obligations.AvenuePortsAndGateway := by
  unfold Obligations.AvenuePortsAndGateway
  intro s p P x on opens
  refine ⟨aveTrainingDone_trains, fun some_ => congrArg Host.Outcome.next (if_neg some_), ?links, fun down => congrArg Host.Outcome.next (if_pos down),
    fun dly up => congrArg Host.Outcome.next (if_pos up), ?points, ?requests, ?responses, ?states, ?discovery, ?time, ?triggers, ?history, ?subscribe, ?admission, ?grant, ?standby,
    fun r pr dev off v word_ a at_ => ⟨fabricAccess_asks word_ at_, fabricAccess_absent word_ at_, fabricAccess_own word_ at_⟩,
    fun tag q reqs waits => aveReqTimeout_ends reqs waits, ?publish, ?timeouts, routeRecomputeDone_keeps s,
    fun r writes => ⟨aveDiscover_starts writes, aveDiscover_refuses writes, aveRelease_refuses writes, fun d active reach => aveRelease_leaves writes active reach,
      aveRelease_alone writes⟩, ?complete, fun d active known other => deviceLostTimeout_forgets active known other, ?heartbeat, ?hostLink,
    fun r writes => ⟨fun open_ => congrArg Host.Outcome.next ((State.gated_ok _ _ writes).trans (if_pos open_)), aveInjUnlock_refuses writes⟩,
    fun r writes => ⟨aveInjEn_enables writes, aveInjEn_locked writes, aveInjEn_pending writes⟩⟩
  case links =>
    intro up
    obtain ⟨st, change, alt⟩ := State.linkDown_downs up 0 4000
    obtain ⟨st', change', -⟩ := State.linkDown_downs up 1 1000
    exact ⟨⟨_, rfl, st, change, alt⟩, ⟨_, rfl, st', change'⟩⟩
  case points =>
    intro h time recs good
    obtain ⟨power, up, off⟩ := good
    refine ⟨ptARx_bad power up, ptARx_drops power up off, fun q => ptARx_forwards power up off, fun r i crc own one bound => ?_⟩
    subst one
    exact ⟨ptRx_writes power up off crc own bound, ptARx_unconfirmed power up off crc own bound⟩
  case requests =>
    intro h a pr wide data good crc own n far
    obtain ⟨power, up, off⟩ := good
    have class_ : decide ((ABody.rdReq a pr wide).cls = 2) = far ∧ decide ((ABody.wrReq a pr wide data).cls = 2) = far := by
      simp only [far, ABody.cls]
      split <;> simp [*]
    refine ⟨congrArg Host.Outcome.next ((State.aveRx_own power up off crc own _ _).trans ?_), congrArg Host.Outcome.next ((State.aveRx_own power up off crc own _ _).trans ?_)⟩
    · rw [← class_.1]
      rfl
    · rw [← class_.2]
      rfl
  case responses =>
    intro h c q data good crc own waits
    obtain ⟨power, up, off⟩ := good
    exact ⟨fun reqs sender => ⟨rdRespRx_ends power up off crc own waits reqs sender, wrRespRx_ends power up off crc own waits reqs sender⟩,
      respRx_discards power up off crc own⟩
  case states =>
    intro h dev port link peer seq ago good crc other old
    obtain ⟨power, up, off⟩ := good
    exact ⟨lsaRx_newer power up off crc other, lsaRx_older power up off crc⟩
  case discovery =>
    intro h serial port role good crc
    obtain ⟨power, up, off⟩ := good
    refine ⟨discRx_names power up off crc serial port role, fun active busy => ⟨discRx_conflicts power up off crc serial port active, fun n other fresh free => ?_,
      fun other fresh taken => ?_⟩⟩
    · exact ⟨_, discRx_reply power up off crc serial port role active, State.discReply_assigns other fresh busy free⟩
    · refine ⟨_, discRx_reply power up off crc serial port role active, ?_⟩
      rw [State.discReply_stops other fresh taken]
      exact ⟨rfl, rfl, rfl⟩
  case time =>
    intro h t0 flags hops gm utc rx good crc
    obtain ⟨power, up, off⟩ := good
    exact ⟨timeFrameRx_follows power up off crc t0 flags hops gm utc rx, timeFrameRx_ignores power up off crc t0 flags hops gm utc rx⟩
  case triggers =>
    intro h ns line ps good crc own
    obtain ⟨power, up, off⟩ := good
    exact trigFrameRx_runs power up off crc own ns line ps
  case history =>
    intro h seq frag dev bytes good crc own
    obtain ⟨power, up, off⟩ := good
    exact congrArg Host.Outcome.next (State.aveRx_own power up off crc own _ _)
  case subscribe =>
    intro h sub gid cls kind long cont prot good crc own i e known
    obtain ⟨power, up, off⟩ := good
    exact ⟨ctrlSubscribe_takes power up off crc own sub gid cls kind long cont prot, ctrlSubscribe_full power up off crc own sub gid cls kind long cont prot,
      ctrlSubscribe_misfits power up off crc own sub gid cls kind long cont prot⟩
  case admission =>
    intro h src dst prot good crc own
    obtain ⟨power, up, off⟩ := good
    exact ⟨fun active valid => ⟨ctrlAdmit_admits power up off crc own active valid, ctrlAdmit_long power up off crc own active valid⟩,
      ctrlAdmit_mirrors power up off crc own⟩
  case grant =>
    intro h dev mbps good crc own active sum
    obtain ⟨power, up, off⟩ := good
    exact ⟨fun fits => ⟨_, ctrlGrant_runs power up off crc own _, State.grantRx_grants active fits⟩,
      fun over_ => ⟨_, ctrlGrant_runs power up off crc own _, State.grantRx_refuses active over_⟩⟩
  case standby =>
    intro h good crc own standby
    obtain ⟨power, up, off⟩ := good
    exact standby_runs power up off crc own standby
  case publish =>
    intro i dst q goes good
    obtain ⟨up, off⟩ := good
    exact ⟨fun pubs => ⟨_, ptPublish_runs pubs, (State.aveTo_sends s _ _).same, State.sent_aveTo goes up off _⟩,
      fun pubs => ⟨_, ptBPublish_runs pubs, (State.aveTo_sends s _ _).same, State.sent_aveTo goes up off _⟩,
      fun standby active => ⟨_, gwHeartbeatSend_runs standby active, (State.aveTo_sends s _ _).same, State.sent_aveTo goes up off _⟩⟩
  case timeouts =>
    intro i src can free plain
    exact ⟨⟨_, congrArg Host.Outcome.next (if_pos src), State.entry_markPoint can free plain markCommLost⟩,
      ⟨_, congrArg Host.Outcome.next (if_pos src), State.entry_markPoint can free plain markStale⟩⟩
  case complete =>
    exact ⟨fun busy => ⟨_, congrArg Host.Outcome.next (if_pos busy), State.ave_record _ _ _ _ _⟩,
      fun idle => congrArg Host.Outcome.next (if_neg (by simp [idle]))⟩
  case heartbeat =>
    intro standby
    exact ⟨fun lost => ⟨_, congrArg Host.Outcome.next (if_pos ⟨standby, by simp [lost]⟩), s.takeOver_takes⟩,
      fun valid => congrArg Host.Outcome.next (if_neg (by simp [valid]))⟩
  case hostLink =>
    intro d active reach
    exact ⟨hostLinkLossTimeout_leaves active reach, fun linked => congrArg Host.Outcome.next (if_neg (by simp [linked]))⟩

end Sys2Proof.Machine
end
